-- ==== Sys2Proof/Word.lean ====
section
/-! DEFINITION. The word types of the engine, the table type every sparse collection of State
uses, and the access codes of field maps (R4). -/

namespace Sys2Proof

/-- A register word: 32 bits (R3). -/
abbrev Word := BitVec 32

/-- One byte. -/
abbrev Byte := BitVec 8

/-- A sparse table: (index, value) pairs with strictly rising indexes. What an unlisted index
holds is said where the table is read. -/
abbrev Tab (α : Type) := List (Nat × α)

/-- Access codes (Table 00-3, R4). -/
inductive Access where
  | rw | ro | wo | w1c | w1s | rc
  deriving DecidableEq, Repr

end Sys2Proof
end

