-- ==== Sys2Proof/Terms.lean ====
section
/-! DEFINITION. The operand types of commands: requests and responses of the fabric, interrupt
sources, and what dies, the fabric and the cryptographic unit bring to a step from outside the
block. -/

namespace Sys2Proof

/-- The part that carries the engine (Table 00-1, R1). -/
inductive Part where
  | ig7316 | ig7332
  deriving DecidableEq, Repr

/-- An inbound request: the port and virtual channel it came on, its tag and its SRC (Table 02-4,
R41). `sealedWr`: a write is a sealed one, which has a response (R42). `single`: the request is one beat at a
4 B aligned address with exactly those four byte enables (R681). -/
structure Req where
  port     : Nat
  vc       : Nat
  tag      : Nat
  src      : Nat
  sealedWr : Bool
  single   : Bool
  deriving DecidableEq, Repr

/-- Response codes (Table 02-6, R44). -/
inductive RCode where
  | ok | decerr | dataerr | reserved
  deriving DecidableEq, Repr

/-- An interrupt source (Table 16-1, R577): a private source of a target, or a shared one. -/
inductive Source where
  | priv (t k : Nat)
  | shared (i : Nat)
  deriving DecidableEq, Repr

/-- A trip input (Table 02-15). -/
inductive Trip where
  | pfail | therm | fw
  deriving DecidableEq, Repr

/-- A sluice entry, as its first unit and its list spell it (Table 11-2, R423, R425). `len` is the
LEN field; `rsv` says that a reserved bit or byte, or a list slot after tile NT, is not 0. -/
structure SqEntry where
  own   : Bool
  len   : Nat
  opc   : Nat
  cid   : Nat
  irqNow : Bool
  usesList : Bool
  cmpl  : Bool
  ack   : Nat
  nt    : Nat
  nta   : Nat
  buf   : Nat
  opx   : Nat
  list  : List Nat
  rsv   : Bool
  deriving DecidableEq, Repr

/-! ## The kindling image, section by section, as its fields -/

/-- A die profile (Table 06-2, R206). `valid`: it meets R208. -/
structure Profile where
  valid : Bool := false
  /-- VERSION of its section (Table 03-2). -/
  ver : Nat := 0
  cellBits : Nat := 1
  dflags : Nat := 0
  idPat : List Byte := []
  idMask : List Byte := []
  pgCode : Nat := 0
  planes : Nat := 1
  luns : Nat := 1
  ofsMethod : Nat := 0
  physPage : Nat := 0
  wlPerBlk : Nat := 1
  blkPerLun : Nat := 0
  pageBits : Nat := 0
  blockBits : Nat := 0
  lunShift : Nat := 0
  closeDist : Nat := 0
  trMax : Nat := 0
  trSlcMax : Nat := 0
  tprogMax : Nat := 0
  tprogSlcMax : Nat := 0
  tbersMax : Nat := 0
  trstFirst : Nat := 0
  tzqcl : Nat := 0
  tespd : Nat := 0
  tersRun : Nat := 0
  esuspMax : Nat := 0
  nestMax : Nat := 0
  esuspCmd : Nat := 0
  eresCmd : Nat := 0
  slcCmd : Nat := 0
  suspBit : Nat := 0
  astart : List Nat := []
  ofsFa : Nat := 0
  ofsPrefix : Nat := 0
  otpFa : Nat := 0
  otpVal : Nat := 0
  dccFa : Nat := 0
  /-- Toggle read training, write training and write readback opcodes; RE toggles of duty-cycle correction. -/
  tglTrn : List Nat := []
  dccRe : Nat := 0
  otpPages : Nat := 0
  peRating : Nat := 0
  peSlc : Nat := 0
  /-- The program-order table: one entry per page (R214). -/
  order : List Nat := []
  /-- The retry ladder: 4 page types × 16 steps × 8 offsets, and the gauge seeds: 4 × 8 (R265). -/
  ladder : List Int := []
  seeds : List Int := []
  deriving DecidableEq, Repr

/-- A channel's topology record (Table 04-5, R133). -/
structure Topo where
  ceil : Nat := 0
  present : Nat := 0
  rbPu : Bool := false
  profile : List Nat := []
  tset : List Nat := []
  kxTset : List Nat := []
  deriving DecidableEq, Repr

/-- The map geometry section (Table 10-2, R374). -/
structure Geo where
  streams : Nat := 1
  demand : Bool := false
  format : Bool := false
  ltaCount : Nat := 0
  mapBase : Nat := 0
  poolSize : Nat := 0
  dirBase : Nat := 0
  ovlBase : Nat := 0
  ovlSize : Nat := 0
  tbl0 : Nat := 0
  tbl1 : Nat := 0
  gaugeBase : Nat := 0
  relocBase : Nat := 0
  relocSlots : Nat := 0
  ckptUnits : Nat := 1
  hid : Nat := 0
  parBase : Nat := 0
  parSize : Nat := 0
  deriving DecidableEq, Repr

/-- The hold-up declaration (Table 09-5, R338). -/
structure HoldUp where
  flushPar : Nat := 0
  tHold : Nat := 0
  derate : Nat := 0
  c0Rsv : Nat := 0
  panBase : Nat := 0
  panSize : Nat := 0
  mirBase : Nat := 0
  mirSize : Nat := 0
  windowMs : Nat := 0
  jrnWait : Nat := 0
  deriving DecidableEq, Repr

/-- The twin pairing section (Table 09-8, R350). -/
structure TwinSec where
  peerHid : Nat := 0
  peerBox : Nat := 0
  peerMir : Nat := 0
  ownBox : Nat := 0
  hbPeriod : Nat := 0
  hbLoss : Nat := 0
  pairKey : List Byte := []
  deriving DecidableEq, Repr

/-- The calibration section (Table 15-5, R569). `valid`: KMAGIC, KFMT and its ranges are right. -/
structure CalSec where
  valid : Bool := true
  ctl : BitVec 32 := 0x801003E8
  deadline : BitVec 32 := 0x64
  gb : BitVec 32 := 0x04000000
  puMin : Nat := 0
  puMax : Nat := 63
  pdMin : Nat := 0
  pdMax : Nat := 63
  dccMax : Nat := 0
  driftMax : Nat := 4
  gbRd : List Int := []
  gbWr : List Int := []
  age : List Nat := []
  lvlmap : List (BitVec 32) := []
  deriving DecidableEq, Repr

/-- What training steps measure on a target (R136 to R140, R146): engine ZQ codes; whether the die's ZQ status shows FAIL; the
duty trim, and whether the duty lies in its limits; for each bit the steps of its sweep that pass, read and write, step −64 lowest (R139); for
KX-DDR, whether FL_RB_N rose within tKXEN and the echoes matched. -/
structure Train where
  pu : Nat := 0
  pd : Nat := 0
  dieFail : Bool := false
  dcc : Int := 0
  dutyOk : Bool := true
  rd : List (BitVec 129) := []
  wr : List (BitVec 129) := []
  busyOk : Bool := true
  echoOk : Bool := true
  deriving DecidableEq, Repr

/-- What a target answers at IDENTIFY (R97): its ID bytes, none without an answer; its bytes at addresses 0x20 and 0x40; the redundant copies of
its parameter page as read; and the modes that the page advertises, a mask over mode codes (R61). -/
structure Ident where
  tgt   : Nat
  id    : List Byte
  onfi  : List Byte
  jedec : List Byte
  pages : List (List Byte)
  adv   : Nat
  deriving DecidableEq, Repr

/-- What start-up's training of a target measures, in the first and the second attempt, in its standard mode and in KX-DDR (R98, R99). -/
structure TrainSet where
  tgt : Nat
  a   : Train
  b   : Train
  ka  : Train
  kb  : Train
  deriving DecidableEq, Repr

/-- What the LEDGER stage reads of a LUN (R574): the frontiers of its two ledger units, and the pages read back, as (second unit, page,
first 4,128 B of a decoded codeword). -/
structure LedgerRead where
  lun   : Nat
  front : Nat × Nat
  pages : List (Bool × Nat × List Byte)
  deriving DecidableEq, Repr

/-- What the configuration flash answers to an SFDP read (R12): its header, empty without an answer; and the fastest 8D-8D-8D rate in kHz that
its Basic Flash Parameter and xSPI Profile 1.0 tables give, none where a table is not there or not valid. -/
structure Sfdp where
  hdr : List Byte
  khz : Option Nat
  deriving DecidableEq, Repr

/-- A checkpoint header copy as it is read (R383): LUN key, area, its data field, and what commits it: the 512 B of its seal, read raw (R233), or on a
die without SLC_SEAL the data field of codeword 0 of its commit page, empty where that does not decode and pass (R384). -/
structure HeadCopy where
  lun   : Nat
  area  : Nat
  field : List Byte
  sealRaw : List Byte
  deriving DecidableEq, Repr

/-- A journal page as replay reads it (R349): where it lies, whether it could be read, even with reconstruction, the 512 B of the seal on each
plane, read raw (R233), the jseq it carries, and its codewords' data fields, one after another. -/
structure JPage where
  set      : Nat
  group    : Nat
  pos      : Nat
  readable : Bool
  seals    : List (List Byte)
  jseq     : Nat
  data     : List Byte
  deriving DecidableEq, Repr

/-- What the MAP stage reads from the media (R102 to R104): header copies; checkpoint tiles that pass, as (area, number, data field);
the zero bits of each codeword of word line 0 of an erase unit, as (LUN, unit, counts); the map tiles of a full map, as (map tile, data field);
each stream's pages in program order from the
pointer's page up to the first that reads ERASED; and the entries that the checkpoint's map holds for LTAs that records name (DESIGN CHOICE, log entry 80). -/
structure MapRead where
  heads   : List HeadCopy
  tiles   : List (Nat × Nat × List Byte)
  wl0     : List (Nat × Nat × List Nat)
  map     : List (Nat × List Byte)
  pages   : List (Nat × List JPage)
  entries : List (Nat × Nat)
  deriving DecidableEq, Repr

/-- An on-chip memory error, by what it struck (Table 18-8): corrected; an uncorrectable one in a memory whose loss banks the engine; in a
map-cache line, a gauge-cache line, a buffer slot that holds a read codeword, a row being written, a mover's staging buffer, or a
log entry. Crystallizer and grader memories have rows of their own. -/
inductive MemErr where
  | corrected
  | critical
  | mapLine (line : Nat)
  | gaugeLine (key : Nat)
  | readSlot (c slot : Nat)
  | writeRow (row : Nat)
  | mover (m c : Nat)
  | logEntry (i : Nat)
  deriving DecidableEq, Repr

end Sys2Proof
end

