-- ==== Sys2Proof/Syntax.lean ====
section
/-! DEFINITION. The commands: one constructor per row of the table of operations and events.
A command is one whole, indivisible step of the block; its operands are what comes from outside the
block in that step (a request, a die's answer, a fabric response) or which of several like units
the step concerns. -/

namespace Sys2Proof

/-- The commands of the engine, in the order of the table. -/
inductive Instr where
  /-- Assertion of RST_EMBER_N resets the ember island, including the ember counter, the wake logic, the trip latches and the tamper latch. (R36) -/
  | rstEmberAssert (width : Nat)
  /-- Assertion of RST_COLD_N resets every island except the ember island, and within 20 ns drives the flash pins to their reset state. (R36) -/
  | rstColdAssert (width : Nat)
  /-- Assertion of RST_WARM_N resets every island except the ember island, apart from fields that survive a warm reset, and drives the flash pins to their reset state. (R36) -/
  | rstWarmAssert (width : Nat)
  /-- The last of the three resets is released, and the start-up sequence begins. (R37) -/
  | resetRelease (rowOk : Bool)
  /-- A monitored clock is absent for 1 µs or deviates by more than 2 %, and the engine enters the banked state. (R34) -/
  | clockMonitorFault
  /-- EMB_CLK is absent for 2 ms and sets EMB_CLK_LOSS, which counts as a clock-monitor fault in P0 or P1. (R35) -/
  | embClkLoss
  /-- PWR_GOOD_CORE falls while PWR_EN_CORE is high, outside the power-state sequences, which is a clock-monitor fault. (R75) -/
  | pwrGoodCoreLow
  /-- A write of 1 to PWR_STS.EMB_CLK_LOSS clears the ember clock-loss flag. (R35) -/
  | embClkLossClear (again : Bool)
  /-- The firebox boot ROM runs the known-answer tests in order, and a failure banks the engine. (R93) -/
  | selftestStage (fails : Option (Fin 5)) (rnd : BitVec 256)
  /-- The engine reads the kindling image of slot A, or of slot B after a failure of slot A, into the map-cache SRAM. (R83) -/
  | kindlingSlotRead (answers : Bool) (sfdp : Sfdp) (d : List Byte)
  /-- The engine distributes the sections, loads and starts the firebox and policy firmware, and loads the HID, patches, draught and queue images. (R607) -/
  | kindlingEnd (key : BitVec 256)
  /-- Each channel drives FL_WP_N high, runs SDR mode 0, waits for each present target to become ready, and then escapes and resets it. (R94) -/
  | targetResetStage (rb : List (Nat × BitVec 8))
  /-- A target still busy after LBT plus 1 ms is taken offline with code 0x30. (R95) -/
  | targetBusyTimeout (c : Nat) (t : Nat)
  /-- A target that becomes ready receives the escape sequence, if KX-qualified, and then the reset command 0xFF. (R96) -/
  | targetReadyReset (c : Nat) (t : Nat)
  /-- A target that stays busy beyond tRST after the reset command goes offline with code 0x31. (R96) -/
  | trstTimeout (c : Nat) (t : Nat)
  /-- The engine reads the ID, the signature and the parameter page of each reset target, and compares them with its die profile. (R97) -/
  | identifyStage (c : Nat) (ids : List Ident)
  /-- Each online target is set to its timing mode, switched to its timing set, ZQ-calibrated and trained, and entered into KX-DDR where allowed. (R98) -/
  | trainStage (c : Nat) (ms : List TrainSet)
  /-- The engine finds and reads the newest calibration ledger page of each LUN, and restores the gauges or seeds them. (R574) -/
  | ledgerStage (c : Nat) (reads : List LedgerRead)
  /-- The engine reads the newer valid checkpoint and replays every journal stream. (R102) -/
  | mapStage (m : MapRead)
  /-- The members of the unreleased flush-reserve groups are read, and the newest copy of each LTA goes back into a pan. (R364) -/
  | panReload (ms : List (Nat × Nat × List (List Byte)))
  /-- Appliance DRAM has not answered OK within 1 s of the start of the MAP stage, and the engine banks with code 0x42. (R106) -/
  | dramNoAnswer
  /-- After replay and pan reload, the engine enters SERVE_READ, rescans every enabled sluice, computes D_MAX and releases the reloaded groups. (R107) -/
  | serveReadEntry
  /-- A binary search finds the frontier of each open data group, and the group is closed there. (R366) -/
  | frontierSearch (set : Nat) (g : Nat) (front : List Nat) (broken : List Nat) (seq : Nat)
  /-- The engine enters RUN once the frontiers, the block tables and the census are done, and starts destage, reclaim, the rake and calibration. (R109) -/
  | runEntry
  /-- Every HB_PERIOD until pairing succeeds, the engine writes its pairing record to the partner mailbox and reads its own mailbox. (R351) -/
  | pairingRecordSend
  /-- A pairing record from the mailbox is checked for hearth ID, HMAC and ECHO, and is either discarded or completes pairing. (R352) -/
  | pairingRecordReceived (data : List Byte)
  /-- Pairing has not succeeded 30 s after the start, and the engine enters degraded-single mode. (R114) -/
  | pairingTimeout
  /-- In degraded-single mode, pairing is retried once per second. (R114) -/
  | pairingRetry
  /-- After pairing, the engine writes a heartbeat to the partner mailbox every HB_PERIOD. (R353) -/
  | heartbeatSend
  /-- A valid heartbeat with a rising count renews the twin's reachability. (R353) -/
  | heartbeatReceived (data : List Byte)
  /-- No valid heartbeat within HB_LOSS makes the twin not reachable. (R353) -/
  | heartbeatLoss
  /-- At SERVE_READ or a later pairing, the engine reads the partner's mirror descriptors and resends, reads back or releases copies. (R356) -/
  | reconciliationStart
  /-- Reconciliation completes, and the twin becomes reachable. (R353) -/
  | reconciliationEnd
  /-- An inbound AT request, or a request of reserved TYPE, is answered DECERR with no effect. (R46) -/
  | inboundAtomic (r : Req)
  /-- A request on VC 5 to 7 is accepted without taking a credit and answered DECERR, and its data is discarded. (R46) -/
  | inboundReservedVc (r : Req)
  /-- An inbound request that crosses a 4 KiB boundary gets DECERR and has no effect. (R45) -/
  | inboundBoundaryCross (r : Req) (write : Bool) (addr : Nat) (len : Nat)
  /-- A pulse on a credit-return bit returns one request or data credit for its VC. (R48) -/
  | creditReturn (port : Nat) (vc : Nat) (data : Bool)
  /-- A response to an outbound request arrives and is handled by its issuing unit, with error responses as Table 02-10 states. (R56) -/
  | outboundResponse (port : Nat) (vc : Nat) (tag : Nat) (code : RCode) (data : List Byte)
  /-- An outbound request without a response for 2 ms is treated as DECERR and logged with code 0x1002. (R55) -/
  | outboundTimeout (port : Nat) (vc : Nat) (tag : Nat)
  /-- A response that arrives after the timeout is discarded and logged with VAL bit 63 set. (R55) -/
  | lateResponse (port : Nat) (vc : Nat) (tag : Nat)
  /-- A write to a register that has no row of its own updates its fields by their access codes, after the access checks. (R4) -/
  | registerWrite (r : Req) (ofs : Nat) (w : Word) (ev : Word)
  /-- A read of an RC field from any initiator returns its value and clears it. (R8) -/
  | readClearField (r : Req) (ofs : Nat) (beats : Nat) (ev : Word)
  /-- A read of GLB_TIME_LO, GLB_BANK_TIME_LO, PWR_EMB_LO or CAL_LAST_LO latches the matching HI register for that requester. (R683) -/
  | loHalfReadLatch (r : Req) (ofs : Nat)
  /-- A read of MAP_WA_HOST latches MAP_WA_MEDIA, so that the two reads form one sample. (R416) -/
  | waHostRead (r : Req)
  /-- A write to SLQ_DB starts a scan or sets DB_PEND, and in strict mode sets the fetch limit. (R433) -/
  | sluiceDoorbell (r : Req) (n : Nat) (w : Word)
  /-- The arbiter grants a fetch slot to a sluice by class priority, weighted round robin and the rotating pointer, and the sluice issues a fetch read. (R438) -/
  | fetchGrant
  /-- A fetch block returns, and the scan parses its entries until it reaches a take limit, an unowned entry or a malformed entry. (R434) -/
  | fetchReadDone (n : Nat) (code : RCode) (data : List Byte)
  /-- A NOP entry is taken, and it gets a harvest entry only when CMPL is 1. (R424) -/
  | sluiceNop (rtag : Nat)
  /-- A READ entry reads NT+1 tiles into the host buffers named by BUF or the PLIST. (R424) -/
  | sluiceRead (rtag : Nat)
  /-- A WRITE entry stages NT+1 tiles into pans and acknowledges them at the level in ACK. (R424) -/
  | sluiceWrite (rtag : Nat)
  /-- A FLUSH entry completes when every tile admitted earlier from its sluice has reached MEDIA or has been superseded or unmapped. (R328) -/
  | sluiceFlush (rtag : Nat)
  /-- An UNMAP entry discards the staged copies, waits for destaging copies, appends UNMAP records and sets the entries UNMAPPED. (R380) -/
  | sluiceUnmap (rtag : Nat)
  /-- A FILTER entry reads its tiles and grades them, and delivers only the matching records. (R511) -/
  | sluiceFilter (rtag : Nat)
  /-- A MARGIN entry reads the named codewords at OFF minus and plus MSTEP and reports the CBCs. (R275) -/
  | sluiceMargin (rtag : Nat)
  /-- A tile's LTA is resolved through the pans, the map cache, the overlay, the resident map tile or a map-tile read. (R388) -/
  | mapLookup (rtag : Nat) (n : Nat)
  /-- A map-cache fill read returns, and the line is installed over an LFSR-chosen victim, whose dirty content is written back first. (R391) -/
  | mapFillDone (line : Nat) (code : RCode) (data : List Byte)
  /-- A map tile read from the media lands in a pool slot chosen by the clock sweep. (R390) -/
  | mapTileLoadDone (mt : Nat) (code : RCode)
  /-- A gauge-line fetch returns and fills the gauge cache, or falls back to the seeds on an error. (R261) -/
  | gaugeLineFetchDone (key : Nat) (code : RCode) (data : List Byte)
  /-- A class-3 operation that has stood 10 ms at the head of its class becomes aged and is taken next by its LUN. (R688) -/
  | class3Aged (k : Nat)
  /-- The class-0 token bucket gains 2 tokens per µs, up to 400. (R22) -/
  | class0BucketRefill
  /-- The read-around bucket gains RATE tokens each ms, up to RATE. (R302) -/
  | raBucketRefill
  /-- 197.5 µs after the base, with the last data write not issued, the engine issues a DEFERRED harvest entry. (R304) -/
  | class0Deadline (rtag : Nat)
  /-- 76.5 µs after the base without the twin's response, a class-0 commit issues its entry at the state reached without the twin. (R309) -/
  | commitLate (rtag : Nat)
  /-- In each draught cycle, each group grants at most one waiting request that Table 14-1 allows. (R527) -/
  | draughtGrant (g : Nat)
  /-- An operation's END report reaches the draught island and lowers INFL for its group. (R528) -/
  | draughtEndReport
  /-- A granted operation whose LUN slot is free is passed to the stoker and enters at its entry vector. (R177) -/
  | stokerIssue (k : Nat)
  /-- At a switch point, the stoker chooses the next slot by raw window, class and maintenance order. (R174) -/
  | slotSwitch (c : Nat) (din : List Byte)
  /-- Microword NOP waits WCNT cycles. (R167) -/
  | stkNop (c : Nat) (w : BitVec 96)
  /-- Microword CYC issues one command or address cycle to the selected targets, or gathers it into a KX-DDR CA frame. (R167) -/
  | stkCyc (c : Nat) (w : BitVec 96)
  /-- Microword GO issues a command that starts an array operation, or, under BANK, branches without issuing it. (R171) -/
  | stkGo (c : Nat) (w : BitVec 96)
  /-- Microword XFER moves bytes between FL_DQ and the route path, with preambles and postambles, or as a data frame in KX-DDR. (R167) -/
  | stkXfer (c : Nat) (w : BitVec 96) (din : List Byte)
  /-- A KX-DDR DATA-OUT frame is received whole and its CRC-32C is checked, with one re-read after a failure. (R149) -/
  | dataOutFrame (c : Nat) (bs : List Byte) (crc : Word)
  /-- Microword TDLY waits the timing-set delay named by IMM. (R167) -/
  | stkTdly (c : Nat) (w : BitVec 96)
  /-- Microword WAIT stalls on COND with a timeout, and on RB or LRDY parks the slot. (R169) -/
  | stkWait (c : Nat) (w : BitVec 96)
  /-- A WAIT reaches IMM ns without its condition, sets TMO and branches to TARGET. (R169) -/
  | waitTimeout (c : Nat) (k : Nat)
  /-- A parked slot becomes runnable when its WAIT condition holds, its timeout expires or SUSP applies. (R174) -/
  | slotRunnable (c : Nat) (k : Nat)
  /-- FL_RB_N of a target rises, and the slots and held raw reads waiting on it proceed. (R169) -/
  | rbRise (c : Nat) (t : Nat)
  /-- The LUN ready poller issues a status or status-enhanced read for a slot parked on LRDY. (R176) -/
  | lunPoll (c : Nat) (k : Nat) (b : Byte)
  /-- Microword SAFE branches on an abort or BANK, parks for a raw access or a higher slot, or continues. (R170) -/
  | stkSafe (c : Nat) (w : BitVec 96)
  /-- Microword BR branches to TARGET when COND holds. (R167) -/
  | stkBr (c : Nat) (w : BitVec 96)
  /-- Microword CALL pushes the return address and branches when COND holds. (R167) -/
  | stkCall (c : Nat) (w : BitVec 96)
  /-- Microword RET pops the return address and branches to it when COND holds. (R167) -/
  | stkRet (c : Nat) (w : BitVec 96)
  /-- Microword LDI loads IMM into a G register. (R167) -/
  | stkLdi (c : Nat) (w : BitVec 96)
  /-- Microword ADDI adds IMM to a G register, wrapping. (R167) -/
  | stkAddi (c : Nat) (w : BitVec 96)
  /-- Microword ANDI ANDs a G register with IMM. (R167) -/
  | stkAndi (c : Nat) (w : BitVec 96)
  /-- Microword ORI ORs a G register with IMM. (R167) -/
  | stkOri (c : Nat) (w : BitVec 96)
  /-- Microword CMPI compares a G register with IMM and sets EQ and LT. (R167) -/
  | stkCmpi (c : Nat) (w : BitVec 96)
  /-- Microword PINSET holds static pin levels for WCNT+1 cycles. (R167) -/
  | stkPinset (c : Nat) (w : BitVec 96)
  /-- PHY action 0x00 runs engine ZQ calibration against FL_ZQ. (R136) -/
  | phyEngineZq (c : Nat) (w : BitVec 96) (m : Train)
  /-- PHY action 0x01 trims the DQS and RE duty cycle. (R138) -/
  | phyDutyTrim (c : Nat) (w : BitVec 96) (m : Train)
  /-- PHY action 0x02 loads the read delays from G4 and G5. (R167) -/
  | phyLoadReadDelays (c : Nat) (w : BitVec 96)
  /-- PHY action 0x03 loads the write delays from G6 and G7. (R167) -/
  | phyLoadWriteDelays (c : Nat) (w : BitVec 96)
  /-- PHY action 0x04 changes the channel bit rate to the context target's set within 2 µs, with RLOCK set. (R122) -/
  | phyRateChange (c : Nat) (w : BitVec 96)
  /-- Microword REPORT posts an event code and STATUS to the scheduler. (R167) -/
  | stkReport (c : Nat) (w : BitVec 96)
  /-- Microword END ends the operation with its completion code and frees the slot. (R181) -/
  | stkEnd (c : Nat) (w : BitVec 96)
  /-- A slot that runs more than LIMIT words without a switch point causes a watchdog microcode fault. (R189) -/
  | stokerWatchdog (c : Nat)
  /-- The scheduler evaluates an operation's completion code and status, and reports closures, failures and suspensions. (R238) -/
  | operationEnd
  /-- Once per ms, the maintenance slot polls a stalled LUN, and the LUN returns to service or goes offline with code 0x34. (R228) -/
  | stallPoll (k : Nat) (b : Byte)
  /-- 1 ms after a WPROT, the operation is reissued, and a second WPROT takes the target offline with code 0x35. (R240) -/
  | wprotReissue (k : Nat)
  /-- Operation PAGE_READ applies the offsets, senses a page and transfers its codewords. (R205) -/
  | pageRead (k : Nat)
  /-- Operation MP_READ senses one page per plane of one LUN. (R212) -/
  | mpRead (k : Nat)
  /-- Operation CACHE_READ reads up to 8 consecutive pages of one block for class 2 or 3. (R213) -/
  | cacheRead (k : Nat)
  /-- Operation COL_READ transfers further codewords from the page register. (R210) -/
  | colRead (k : Nat)
  /-- Operation PROG programs one step of a block. (R214) -/
  | prog (k : Nat)
  /-- Operation MP_PROG programs the same step in one block of each named plane. (R217) -/
  | mpProg (k : Nat)
  /-- Operation CACHE_PROG programs consecutive steps of one non-journal block. (R217) -/
  | cacheProg (k : Nat)
  /-- Operation SLC_PROG programs a page in SLC mode after SLC_CMD. (R229) -/
  | slcProg (k : Nat)
  /-- Operation SEAL_PROG writes the commit marker into the seal area of a programmed SLC page. (R232) -/
  | sealProg (k : Nat)
  /-- Operation ERASE erases a block, and its routine may branch to suspend it. (R205) -/
  | erase (k : Nat)
  /-- Operation MP_ERASE erases one block in each named plane. (R205) -/
  | mpErase (k : Nat)
  /-- Operation ERASE_RESUME resumes a suspended erase once the suspension's work has ended. (R223) -/
  | eraseResume (k : Nat)
  /-- Operation OTP_READ reads a die OTP page raw. (R236) -/
  | otpRead (k : Nat)
  /-- Operation OTP_PROG programs a die OTP page that reads all 0xFF. (R237) -/
  | otpProg (k : Nat)
  /-- Operation GET_FEAT reads 4 feature bytes from a die. (R205) -/
  | getFeat (k : Nat)
  /-- Operation SET_FEAT writes 4 feature bytes to a die. (R205) -/
  | setFeat (k : Nat)
  /-- A suspend request is raised for a LUN's erase when a class-0 or class-1 read waits and the erase has run TERS_RUN. (R220) -/
  | eraseSuspendRequest (k : Nat)
  /-- 1 ms after a suspension, the window for starting operations on the LUN closes. (R222) -/
  | suspendWindowExpiry (k : Nat)
  /-- A codeword lands in its buffer slot descrambled, and the erased test runs. (R251) -/
  | codewordReady (c : Nat) (slot : Nat)
  /-- A hard crystallizer returns a result, the tile checks run, and on failure the recovery ladder continues. (R254) -/
  | hardDecodeDone (c : Nat) (slot : Nat) (u : Nat) (dec : Option (List Byte))
  /-- A soft crystallizer returns a result for a codeword built from three reads. (R269) -/
  | softDecodeDone (id : Nat) (u : Nat) (dec : Option (List Byte))
  /-- An uncorrectable error in a crystallizer's memory takes it out of service and redecodes the codeword on another unit. (R252) -/
  | crystallizerMemoryError (soft : Bool) (u : Nat)
  /-- A read-around partner's read is checked, and a failed partner is replaced or awaits its retries. (R301) -/
  | partnerReadDone (pid : Nat)
  /-- A harvest entry is written as a posted body followed by a sealed write of its first byte. (R451) -/
  | harvestWrite (ring : Nat)
  /-- TIME µs after the oldest unsignalled entry, the ring raises its edge. (R452) -/
  | moderationTimer (ring : Nat)
  /-- The harvest writer reads up to 512 B ahead to refresh the owned count, on a doorbell, every 2 µs while waiting, or when the count is low. (R442) -/
  | harvestLookahead (ring : Nat)
  /-- A write to HRV_DB refreshes the ring's owned count. (R442) -/
  | hrvDoorbell (r : Req) (ring : Nat) (w : Word)
  /-- A write of 1 to HRV_CTL.RETRY repeats the failed harvest write. (R457) -/
  | hrvRetry (r : Req) (ring : Nat) (w : Word)
  /-- A direct write to HRV_MOD acts as an HRV_MODIFY of the moderation values. (R453) -/
  | hrvModWrite (r : Req) (ring : Nat) (w : Word) (cmd : Bool)
  /-- A write of 1 to SLQ_CTL.EN enables the sluice and clears ERROR and DB_PEND. (R455) -/
  | sluiceEnable (r : Req) (n : Nat) (w : Word)
  /-- A write of 0 to SLQ_CTL.EN stops taking entries, and IDLE rises once outstanding work completes. (R454) -/
  | sluiceDisable (r : Req) (n : Nat) (w : Word)
  /-- A write to SLQ_HEAD takes effect only while the sluice is IDLE. (R455) -/
  | slqHeadWrite (r : Req) (n : Nat) (w : Word)
  /-- A write to SLQ_HALT halts or resumes fetch per class within 1 µs. (R465) -/
  | slqHaltWrite (r : Req) (w : Word)
  /-- A write to SLQ_FDB*f* is a doorbell to flue channel f. (R459) -/
  | flueDoorbell (r : Req) (f : Nat) (w : Word)
  /-- A flue channel fetches its next command on VC 4 when its completion ring holds an owned unit. (R459) -/
  | flueFetch (f : Nat)
  /-- Flue command SLQ_CREATE creates a sluice. (R461) -/
  | slqCreate (f : Nat)
  /-- Flue command SLQ_DESTROY destroys an IDLE sluice, or completes BUSY. (R456) -/
  | slqDestroy (f : Nat)
  /-- Flue command HRV_CREATE creates a harvest ring. (R461) -/
  | hrvCreate (f : Nat)
  /-- Flue command HRV_DESTROY destroys an unbound ring after raising any owed edge. (R456) -/
  | hrvDestroy (f : Nat)
  /-- Flue command SLQ_MODIFY changes a sluice's WEIGHT, BURST or MAXOUT from its next round. (R460) -/
  | slqModify (f : Nat)
  /-- Flue command HRV_MODIFY changes a ring's moderation CNT and TIME. (R460) -/
  | hrvModify (f : Nat)
  /-- Flue command SET_HALT writes SLQ_HALT.HALT. (R460) -/
  | setHalt (f : Nat)
  /-- Flue command MIRROR_DROP releases the mirror slots held in degraded-single mode. (R357) -/
  | mirrorDrop (f : Nat)
  /-- Flue command FLUE_CFG configures flue channel F2 or F3. (R460) -/
  | flueCfg (f : Nat)
  /-- Flue command LUN_OP with type 0x18 reads a die OTP page into BUF. (R464) -/
  | lunOpOtpRead (f : Nat)
  /-- Flue command LUN_OP with type 0x19 programs a die OTP page from BUF. (R464) -/
  | lunOpOtpProg (f : Nat)
  /-- Flue command LUN_OP with type 0x20 reads a die feature. (R464) -/
  | lunOpGetFeat (f : Nat)
  /-- Flue command LUN_OP with type 0x21 writes a die feature not reserved to the engine. (R464) -/
  | lunOpSetFeat (f : Nat)
  /-- A mover context starts the waiting job of highest priority, the older tag first. (R482) -/
  | moverJobStart (m : Nat) (c : Nat)
  /-- A port's outbound request slot goes to the waiting mover request of highest priority. (R486) -/
  | moverRequestSlot (port : Nat)
  /-- Mover instruction MOVE issues requests for a contiguous read or write. (R476) -/
  | belMove (m : Nat) (c : Nat)
  /-- Mover instruction GATHER reads or scatters the table elements in order. (R476) -/
  | belGather (m : Nat) (c : Nat)
  /-- Mover instruction LOOP counts passes, adds strides and returns to TGT. (R476) -/
  | belLoop (m : Nat) (c : Nat)
  /-- Mover instruction WAIT RESP holds until every earlier request has been answered. (R476) -/
  | belWaitResp (m : Nat) (c : Nat)
  /-- Mover instruction WAIT FLAG holds until a BEL_FLAG bit is set, and then clears it. (R476) -/
  | belWaitFlag (m : Nat) (c : Nat)
  /-- Mover instruction WAIT TIME holds for TMO µs. (R476) -/
  | belWaitTime (m : Nat) (c : Nat)
  /-- A RESP or FLAG wait whose TMO passes faults the job with code 0x7. (R476) -/
  | belWaitTimeout (m : Nat) (c : Nat)
  /-- Mover instruction SIGNAL of KIND 0b000 issues a posted 8 B write. (R475) -/
  | belSignalPosted (m : Nat) (c : Nat)
  /-- Mover instruction SIGNAL of KIND 0b001 issues a sealed 8 B write. (R475) -/
  | belSignalSealed (m : Nat) (c : Nat)
  /-- Mover instruction SIGNAL of KIND 0b010 issues an atomic and stores the old value. (R476) -/
  | belSignalAtomic (m : Nat) (c : Nat)
  /-- Mover instruction SIGNAL of KIND 0b011 raises a shared interrupt source. (R475) -/
  | belSignalSrc (m : Nat) (c : Nat)
  /-- Mover instruction SIGNAL of KIND 0b100 sets a flag of a firmware mover. (R475) -/
  | belSignalFlag (m : Nat) (c : Nat)
  /-- A write to BEL_CTL.PAUSE stops the contexts at instruction boundaries, or resumes them. (R488) -/
  | belPauseWrite (r : Req) (m : Nat) (w : Word)
  /-- A write of 0 to BEL_CTL.EN drops every job of the mover and drains its requests. (R489) -/
  | belDisable (r : Req) (m : Nat) (w : Word)
  /-- A write to BEL_CTL.GO starts a firmware mover job at instruction 0. (R496) -/
  | belGo (r : Req) (m : Nat) (w : Word)
  /-- A staged copy starts destage on the window's expiry, URGENT, a FLUSH or occupancy pressure, and is placed in a set. (R337) -/
  | destageStart (slot : Nat)
  /-- A free set program token goes to the LUN holding the oldest open row's parity, or else the oldest ready data unit. (R296) -/
  | programTokenGrant (set : Nat)
  /-- Pad members fill a row, so that waiting copies can close and have their parity programmed. (R291) -/
  | padRow (set : Nat)
  /-- A stream programs its open page when the page is full or JRN_WAIT has passed, and then seals it. (R348) -/
  | journalPageProgram (k : Nat)
  /-- A stream reaching TRIG records beyond the pointer starts a checkpoint, which writes dirty map tiles and erases the older area. (R385) -/
  | checkpointStart
  /-- Once every checkpoint tile has passed, the header copies are programmed and committed by seal or commit page. (R382) -/
  | checkpointCommit
  /-- The background task merges overlay entries into their map tiles and marks them dirty. (R389) -/
  | overlayMerge (mt : Nat)
  /-- A write of 0 to MAP_CC_CTL.EN flushes every dirty line and sets FLUSHING. (R394) -/
  | mapCcDisable (r : Req) (w : Word)
  /-- A write of 1 to MAP_CC_CTL.EN enables the cache, or takes effect when the flush ends. (R394) -/
  | mapCcEnable (r : Req) (w : Word)
  /-- A dirty line whose write-back failed is retried once per ms. (R394) -/
  | writebackRetry (line : Nat)
  /-- Damaged map data is rebuilt from the checkpoint copy, the journal records and the pan descriptors. (R395) -/
  | mapRepair (line : Nat) (ok : Bool)
  /-- A tile is read with the full ladder, staged in a relocation slot and destaged with a new SEQ. (R397) -/
  | relocation (lta : Nat) (e : Nat)
  /-- Reclaim on a set at or below START erases awaiting units, or relocates a victim group and erases it. (R401) -/
  | reclaim (set : Nat)
  /-- Once per PATROL_H, the rake reads sample word lines of every closed group and marks units REFRESH_PEND. (R407) -/
  | rakePatrol
  /-- The rake relocates the tiles of REFRESH_PEND units and hot tiles, within RATE. (R408) -/
  | rakeRefresh
  /-- At the end of each 10 ms window, LUNs are marked hot or cold by queue depth. (R312) -/
  | hotWindow
  /-- A LUN goes offline: its slot is marked lost, the set counters change and the single-busy limit applies. (R315) -/
  | lunOffline
  /-- A group's lost member slot has been rebuilt onto the spare, and its LOST bit clears. (R316) -/
  | rebuildGroupDone
  /-- A write of 1 to STK_RAW_CTL.EN stops scheduling to the target, and READY rises once it is drained. (R191) -/
  | rawCtlEnable (r : Req) (c : Nat) (w : Word)
  /-- A write of 0 to STK_RAW_CTL.EN returns the target to the scheduler once FL_RB_N is high. (R197) -/
  | rawCtlDisable (r : Req) (c : Nat) (w : Word)
  /-- A raw-window command write issues one command cycle per enabled byte. (R190) -/
  | rawCommandWrite (r : Req) (c : Nat) (ofs : Nat) (en : List (Option Byte))
  /-- A raw-window address write issues one address cycle per enabled byte. (R190) -/
  | rawAddressWrite (r : Req) (c : Nat) (ofs : Nat) (en : List (Option Byte))
  /-- A raw-window data write issues data-in bytes. (R190) -/
  | rawDataWrite (r : Req) (c : Nat) (ofs : Nat) (en : List (Option Byte))
  /-- A raw-window data read returns data-out bytes, and is held while the target is busy. (R190) -/
  | rawDataRead (r : Req) (c : Nat) (ofs : Nat) (len : Nat)
  /-- A raw-window status read issues 0x70 and returns the status byte. (R190) -/
  | rawStatusRead (r : Req) (c : Nat) (ofs : Nat) (len : Nat)
  /-- A held raw read whose target stays busy for TMO µs is answered DECERR. (R196) -/
  | rawReadTimeout (c : Nat)
  /-- A read of the patch RAM view returns zero and sets XO_RD. (R186) -/
  | patchRamRead (r : Req) (c : Nat) (ofs : Nat) (beats : Nat)
  /-- A write to the patch RAM view gets DECERR and sets XO_WR. (R186) -/
  | patchRamWrite (r : Req) (c : Nat)
  /-- A write to STK_DBG_CTL.HALT halts the stoker at its next switch point, or releases it. (R204) -/
  | stkDbgHalt (r : Req) (c : Nat) (w : Word)
  /-- A write of 1 to STEP executes one word of a halted stoker. (R204) -/
  | stkDbgStep (r : Req) (c : Nat) (w : Word) (u : BitVec 96) (din : List Byte) (m : Train)
  /-- A write of 1 to KX_REQ requests KX-DDR entry at the target's next idle period. (R146) -/
  | kxReqWrite (r : Req) (c : Nat) (t : Nat) (w : Word)
  /-- The target is taken into KX-DDR by SET FEATURES, a rate change, training and CA ECHO checks. (R146) -/
  | kxEntry (c : Nat) (t : Nat) (x : TrainSet)
  /-- A write of 0 to KX_REQ sends KX EXIT and changes the rate back. (R151) -/
  | kxExit (c : Nat) (t : Nat)
  /-- A write to TSET or KX_TSET changes a target's set, or is ignored and logged for a set of the wrong mode. (R130) -/
  | tsetWrite (r : Req) (c : Nat) (t : Nat) (w : Word)
  /-- Every µs, each bit with 256 edges steps its delay offset or flags its limit. (R154) -/
  | trackingEval (c : Nat) (edges : List (Nat × Nat × Nat × Bool))
  /-- Once per ms, Tg is taken, and targets whose temperature has moved beyond THRESH are queued. (R557) -/
  | calTempSample
  /-- A write of CAL_REQ with GO queues runs for TMASK of CH. (R557) -/
  | calReqGo (r : Req) (w : Word)
  /-- A channel starts the next queued calibration run on its maintenance slot. (R553) -/
  | calRunStart (c : Nat)
  /-- A run that reached step 6 sets T_last and the counts and logs its result. (R567) -/
  | calRunEnd (c : Nat) (m : Train)
  /-- After its sample reads, the media step reseeds a LUN's gauge lines by the mean offset change. (R568) -/
  | mediaStep (k : Nat)
  /-- At most once per 60 s, a ledger page is written for a LUN after its runs. (R571) -/
  | ledgerWrite (k : Nat)
  /-- Each µs between bursts, a walking centre, ZQ code or trim moves one step toward its goal. (R564) -/
  | calWalkStep (c : Nat)
  /-- In a large configuration, a sweep's deadline abandons the runs that have not reached step 6. (R566) -/
  | calSweepDeadline (n : Nat)
  /-- A sense frame is accepted, or discarded and counted for parity or a reserved source. (R64) -/
  | senseFrame (src : BitVec 6) (v : BitVec 16) (par : Bool)
  /-- A populated source without an accepted frame for 3 µs is marked stale. (R67) -/
  | sourceStale (n : Nat)
  /-- A source stale for 100 µs sets DRG_STS.STALE and is logged. (R534) -/
  | staleReport (n : Nat)
  /-- Every 10 µs, each enabled loop runs its generator and control law, and the bandwidth buckets refill. (R535) -/
  | sampleTick
  /-- 1 µs after a tick, the new admission levels take effect. (R536) -/
  | admissionTakeEffect
  /-- Every 1 µs, the ceiling comparator tests the named currents and temperatures against their limits. (R541) -/
  | ceilingEvaluation
  /-- A write of 1 to a loop's EN is checked, and the loop's state is loaded. (R539) -/
  | loopEnable (r : Req) (n : Nat) (w : Word)
  /-- A write of 0 to a loop's EN removes it from the admission minimum at the next tick. (R536) -/
  | loopDisable (r : Req) (n : Nat) (w : Word)
  /-- A write to FREEZE holds or releases a loop's outputs and state. (R545) -/
  | loopFreezeWrite (r : Req) (n : Nat) (w : Word)
  /-- A write to CEIL_EN starts or stops the evaluations, and clears STOP unless THERM forces it. (R542) -/
  | ceilEnWrite (r : Req) (w : Word)
  /-- A write of BW_MAX sets or limits the groups' bandwidth buckets. (R529) -/
  | bwMaxWrite (r : Req) (w : Word)
  /-- A grader evaluates a tile's records four at a time and emits the accepted records. (R516) -/
  | gradeTile (g : Nat)
  /-- An uncorrectable error in a grader's memory takes it out of service and regrades the tile. (R515) -/
  | graderMemoryError (g : Nat)
  /-- Grader LDU loads a record field zero-extended. (R505) -/
  | grdLdu (g : Nat) (k : Nat)
  /-- Grader LDS loads a record field sign-extended. (R505) -/
  | grdLds (g : Nat) (k : Nat)
  /-- Grader LDI loads the immediate sign-extended. (R505) -/
  | grdLdi (g : Nat) (k : Nat)
  /-- Grader ADD adds, wrapping and setting V. (R519) -/
  | grdAdd (g : Nat) (k : Nat)
  /-- Grader SUB subtracts, wrapping and setting V. (R519) -/
  | grdSub (g : Nat) (k : Nat)
  /-- Grader MUL multiplies, wrapping and setting V. (R519) -/
  | grdMul (g : Nat) (k : Nat)
  /-- Grader DIV divides signed, with the edge cases of Table 13-4. (R520) -/
  | grdDiv (g : Nat) (k : Nat)
  /-- Grader REM takes the signed remainder. (R520) -/
  | grdRem (g : Nat) (k : Nat)
  /-- Grader DIVU divides unsigned. (R520) -/
  | grdDivu (g : Nat) (k : Nat)
  /-- Grader REMU takes the unsigned remainder. (R520) -/
  | grdRemu (g : Nat) (k : Nat)
  /-- Grader NEG negates. (R520) -/
  | grdNeg (g : Nat) (k : Nat)
  /-- Grader ABS takes the absolute value. (R520) -/
  | grdAbs (g : Nat) (k : Nat)
  /-- Grader AND is a bitwise AND. (R505) -/
  | grdAnd (g : Nat) (k : Nat)
  /-- Grader OR is a bitwise OR. (R505) -/
  | grdOr (g : Nat) (k : Nat)
  /-- Grader XOR is a bitwise XOR. (R505) -/
  | grdXor (g : Nat) (k : Nat)
  /-- Grader SHL shifts left. (R520) -/
  | grdShl (g : Nat) (k : Nat)
  /-- Grader SHR shifts right logically. (R520) -/
  | grdShr (g : Nat) (k : Nat)
  /-- Grader SAR shifts right arithmetically. (R520) -/
  | grdSar (g : Nat) (k : Nat)
  /-- Grader MIN takes the signed minimum. (R505) -/
  | grdMin (g : Nat) (k : Nat)
  /-- Grader MAX takes the signed maximum. (R505) -/
  | grdMax (g : Nat) (k : Nat)
  /-- Grader ADDS adds with saturation. (R520) -/
  | grdAdds (g : Nat) (k : Nat)
  /-- Grader SUBS subtracts with saturation. (R520) -/
  | grdSubs (g : Nat) (k : Nat)
  /-- Grader MULS multiplies with saturation. (R520) -/
  | grdMuls (g : Nat) (k : Nat)
  /-- Grader MULQ multiplies and scales down by 2^F, rounding toward minus infinity. (R520) -/
  | grdMulq (g : Nat) (k : Nat)
  /-- Grader SEQ sets 1 on equality. (R505) -/
  | grdSeq (g : Nat) (k : Nat)
  /-- Grader SNE sets 1 on inequality. (R505) -/
  | grdSne (g : Nat) (k : Nat)
  /-- Grader SLT compares signed less-than. (R521) -/
  | grdSlt (g : Nat) (k : Nat)
  /-- Grader SLE compares signed less-or-equal. (R521) -/
  | grdSle (g : Nat) (k : Nat)
  /-- Grader SLTU compares unsigned less-than. (R521) -/
  | grdSltu (g : Nat) (k : Nat)
  /-- Grader SLEU compares unsigned less-or-equal. (R521) -/
  | grdSleu (g : Nat) (k : Nat)
  /-- Grader BZ branches forward when A is zero. (R505) -/
  | grdBz (g : Nat) (k : Nat)
  /-- Grader BNZ branches forward when A is not zero. (R505) -/
  | grdBnz (g : Nat) (k : Nat)
  /-- Grader ACCEPT matches the record and ends its evaluation. (R505) -/
  | grdAccept (g : Nat) (k : Nat)
  /-- Grader REJECT rejects the record and ends its evaluation. (R505) -/
  | grdReject (g : Nat) (k : Nat)
  /-- Grader ACCEPTF matches the record when A is not zero, and ends its evaluation. (R505) -/
  | grdAcceptf (g : Nat) (k : Nat)
  /-- A write to CRY_GRD_PDATA_HI stores a program word at ADDR and advances ADDR. (R522) -/
  | grdPdataHiWrite (r : Req) (w : Word)
  /-- A write of 1 to a program descriptor's VALID checks the program. (R507) -/
  | grdPdescValidWrite (r : Req) (p : Nat) (w : Word)
  /-- A write of 1 to a format descriptor's VALID checks the format. (R501) -/
  | grdFmtValidWrite (r : Req) (n : Nat) (w : Word)
  /-- A rising edge on an interrupt source sets its pending bit, and IRQ_OUT follows. (R578) -/
  | sourceEdge (src : Source)
  /-- A read of SIC_CLAIM claims the highest deliverable source, pushes the threshold and returns the ID. (R583) -/
  | sicClaim (r : Req) (t : Nat)
  /-- A write of SIC_EOI pops the threshold stack on a matching ID, or sets EOI_ERR. (R585) -/
  | sicEoi (r : Req) (t : Nat) (w : Word)
  /-- A write of SIC_SWI raises an edge on a private source of a target. (R601) -/
  | sicSwi (r : Req) (w : Word)
  /-- A write of SIC_THR.BASE sets the base threshold, capped at 14. (R587) -/
  | sicBaseWrite (r : Req) (t : Nat) (w : Word)
  /-- A write of SIC_ROUTE moves a shared source and its pending bit to a new target. (R582) -/
  | sicRouteWrite (r : Req) (n : Nat) (w : Word)
  /-- A write to a pending register sets its bits, except those that hardware sets in the same cycle. (R588) -/
  | sicPendingWrite (r : Req) (ofs : Nat) (w : Word) (hw : Word)
  /-- A write of ACQ grants, renews or refuses a lock. (R593) -/
  | lockAcquire (r : Req) (n : Nat) (w : Word)
  /-- A write of REL by the owner frees the lock, and other writes are refused. (R594) -/
  | lockRelease (r : Req) (n : Nat) (w : Word)
  /-- A lock whose lease runs out is force-released, with BROKEN set and a log entry. (R595) -/
  | leaseExpiry (n : Nat)
  /-- A write of LCK_OWNER_RST with GO releases every lock held by the ID. (R596) -/
  | lckOwnerRst (r : Req) (w : Word)
  /-- A write of 1 to BROKEN by the present owner clears it. (R597) -/
  | brokenClear (r : Req) (n : Nat) (w : Word) (again : Bool)
  /-- Key command UNWRAP_NS unwraps a namespace blob under KEK1 into a slot. (R619) -/
  | unwrapNs (r : Req) (w : Word)
  /-- Key command GEN_NS draws a namespace key into a slot and leaves its blob. (R619) -/
  | genNs (r : Req) (w : Word) (rnd : BitVec 512)
  /-- Key command KZERO overwrites a slot with zero. (R619) -/
  | kzero (r : Req) (w : Word)
  /-- Key command WRAP_NS wraps a plaintext namespace key under KEK1. (R619) -/
  | wrapNs (r : Req) (w : Word)
  /-- Key command WRAP_PAIR wraps a plaintext pair key under KEK2. (R619) -/
  | wrapPair (r : Req) (w : Word)
  /-- Key command PROG_ROOT burns ROOT_HASH and verifies it. (R619) -/
  | progRoot (r : Req) (w : Word) (stuck : BitVec 384)
  /-- Key command PROG_DBG burns DBG_HASH and verifies it. (R619) -/
  | progDbg (r : Req) (w : Word) (stuck : BitVec 384)
  /-- A write to SEC_NS*n*_CTL validates or retires a namespace, and a retirement marks its staged copies URGENT. (R622) -/
  | nsCtlWrite (r : Req) (n : Nat) (w : Word)
  /-- A write of 1 to SEC_ST_CTL.RUN reruns the self-tests on a spare path. (R626) -/
  | selftestRunWrite (r : Req) (w : Word) (ok : Bool)
  /-- Every HOURS hours of P0 and P1, the self-tests are rerun. (R626) -/
  | periodicSelftest (ok : Bool)
  /-- A continuous entropy test failure clears RBG_OK and banks the engine. (R625) -/
  | rbgHealthFail (samples : List Nat)
  /-- The firebox comparator finds a mismatch, and the engine banks within 2 cycles. (R603) -/
  | lockstepMismatch
  /-- A write of SEC_ZERO with the right CONFIRM zeroizes every key and banks the engine. (R628) -/
  | zeroize (r : Req) (w : Word)
  /-- A write of SEC_SAN_CTL with GO and CONFIRM starts a sanitize, which halts all fetch and drains. (R629) -/
  | sanitizeStart (r : Req) (w : Word)
  /-- A sanitize phase completes, and the next one runs, up to DONE. (R629) -/
  | sanitizePhaseEnd (burnt : Bool)
  /-- A permitted write of SEC_LC_CTL burns the target state's marks and sets LC_NEXT and LC_PEND. (R637) -/
  | lifecycleTransition (r : Req) (w : Word)
  /-- A firebox write of 1 to SEC_STS.TAMPER sets the tamper latch. (R635) -/
  | tamperSet (r : Req) (w : Word)
  /-- A write of DBG_CTL.NEWCHAL draws a 48 B challenge. (R633) -/
  | dbgNewchal (r : Req) (w : Word) (rnd : BitVec 384)
  /-- A challenge expires 10 s after it is drawn. (R633) -/
  | challengeExpiry
  /-- A write of DBG_CTL.VERIFY checks the response, and grants AUTH or counts a failure toward the tamper latch. (R634) -/
  | dbgVerify (r : Req) (w : Word) (rnd : BitVec 384)
  /-- A write of DBG_CTL.CLOSE returns AUTH to CLOSED. (R636) -/
  | dbgClose (r : Req) (w : Word) (rnd : BitVec 384)
  /-- A write of DBG_CTL.OPEN in MANUFACTURE halts the firebox, zeroizes and enters OPEN. (R636) -/
  | dbgOpen (r : Req) (w : Word) (rnd : BitVec 384)
  /-- In OPEN, a write of DBG_FBX_CTL.HALT holds or releases the firebox core. (R636) -/
  | dbgFbxHalt (r : Req) (w : Word) (pc : BitVec 19)
  /-- In OPEN, a write of DBG_FBX_CTL.STEP executes one firebox instruction. (R636) -/
  | dbgFbxStep (r : Req) (w : Word) (pc : BitVec 19)
  /-- A low pulse of 10 ns or longer on a trip input sets its latch. (R69) -/
  | tripLatch (trip : Trip) (width : Nat) (held : Bool)
  /-- The core island acts on a set trip latch, raising TRIP and applying its effect. (R658) -/
  | tripAct
  /-- Once normal programs and unsuspended erases have drained, the hold-up flush writes SLC rows in its order. (R359) -/
  | flushStart (mirs : List (Nat × List Byte))
  /-- After the last flush row, FLUSH_END is programmed and sealed, FL_WP_N is driven low and DONE is set. (R361) -/
  | flushComplete
  /-- A write of 1 to a TRP_STS latch clears it when the input is high, or counts a relatch. (R660) -/
  | tripClear (low : BitVec 3) (fall : BitVec 3)
  /-- A write to an ember-held register takes effect in the ember island, and EMB_PEND clears. (R654) -/
  | emberWriteEffect
  /-- After P1_IDLE µs of idle, the engine stops the channel clocks and enters P1. (R644) -/
  | p1Entry
  /-- A write of P2_REQ is accepted or refused by the conditions of Table 18-2. (R646) -/
  | p2Request (r : Req) (w : Word) (mirs : List (Nat × List Byte))
  /-- A write of P3_REQ is accepted or refused by the conditions of Table 18-2. (R646) -/
  | p3Request (r : Req) (w : Word) (mirs : List (Nat × List Byte))
  /-- After the retention save, the entry message goes to the ember island, which isolates the outputs and drops the supplies. (R648) -/
  | entryMessage
  /-- The ember counter reaches the armed alarm value, and the supplies are requested. (R650) -/
  | wakeAlarm
  /-- PWR_GOOD_CORE rises while PWR_EN_CORE is low, and the supplies are requested. (R650) -/
  | wakePlatform
  /-- A power-good input not risen within 100 ms drops the requests again. (R650) -/
  | powerGoodTimeout
  /-- Once the last power-good has risen, the engine restores, re-bases, self-tests, brings up the channels and enters RUN. (R651) -/
  | wakeFromP2 (pass : Bool)
  /-- A wake from P3 runs the whole start-up sequence. (R653) -/
  | wakeFromP3 (rowOk : Bool)
  /-- After SR_HOLD µs of outbound quiet, with R72 holding, DRAM_IDLE_OK rises. (R655) -/
  | dramIdleOkRise
  /-- A write to PWR_WDOG_KICK restarts the writer core's watchdog. (R667) -/
  | watchdogKick (r : Req) (w : Word)
  /-- A core watchdog that runs its period unkicked banks the engine with cause WDOG. (R667) -/
  | watchdogExpiry (n : Nat)
  /-- An on-chip memory error is corrected, contained or banks the engine, as Table 18-8 states. (R668) -/
  | memoryError (e : MemErr)
  /-- A 50 ms wait while holding a resource aborts the younger request, and a fourth break banks the engine. (R670) -/
  | deadlockBreak (waits : Nat) (holds : Nat)
  /-- A firebox write of GLB_BANK_REQ with CONFIRM enters the banked state with cause REQUEST. (R677) -/
  | bankRequest (r : Req) (w : Word)
  /-- A banked cause stops array starts, movers, fetch and background work, and raises BANKED. (R662) -/
  | bankedEntry
  /-- Once a channel's slots past GO have ended, it drives its banked pin levels. (R663) -/
  | bankedPins (c : Nat)
  /-- With MIR_EN set, movers 40 to 47 copy each log entry to the host-memory mirror. (R674) -/
  | logMirrorCopy
  /-- A read of the firebox code view returns zero with OK and sets SEC_STS.XO_RD. (R604) -/
  | fireboxCodeViewRead (r : Req) (ofs : Nat) (beats : Nat)
  /-- A write to the firebox code view gets DECERR, has no effect and sets SEC_STS.XO_WR. (R604) -/
  | fireboxCodeViewWrite (r : Req)
  /-- An inbound read that its class or debug level may not make gets DECERR and sets SEC_ACC_STS.REFUSED with its SRC and offset, or DBG_STS.REFUSED for the DAP. (R610) -/
  | inboundReadRefused (r : Req) (ofs : Nat)
  deriving DecidableEq, Repr

end Sys2Proof
end

