-- ==== Sys2Proof/Decode.lean ====
section
/-! DEFINITION. The commands that words spell. The table of operations and events gives its rows no
encoding bits: a command comes to the block as a transaction, an event on a pin or a step of one of
its engines, and no word spells one (DESIGN CHOICE, log entry 12). -/

namespace Sys2Proof

/-- The command a word spells by the table's bits: none, since no row has bits. -/
def decodeTableWord (_nbits _w : Nat) : Option Instr := none

end Sys2Proof
end

