-- ==== Sys2Proof/Machine/Flags.lean ====
section
/-! DEFINITION. The arithmetic that the graders run at 64 bits and the draught engine at 32 (R519 to
R521): the exact result reduced to the width, with the flags V and Z. -/

namespace Sys2Proof.Machine

/-- A result with its flags. -/
structure Alu (w : Nat) where
  val : BitVec w
  v   : Bool := false
  z   : Bool := false
  deriving DecidableEq, Repr

/-- An exact result wrapped to the width; V says that it does not fit (R519). -/
def aluWrap (w : Nat) (x : Int) : Alu w :=
  let r := BitVec.ofInt w x
  { val := r, v := decide (r.toInt ≠ x) }

/-- An exact result saturated toward its sign; V says that it was (R521). -/
def aluSat (w : Nat) (x : Int) : Alu w :=
  let hi : Int := 2 ^ (w - 1) - 1
  let lo : Int := -(2 ^ (w - 1))
  if hi < x then { val := BitVec.ofInt w hi, v := true }
  else if x < lo then { val := BitVec.ofInt w lo, v := true }
  else { val := BitVec.ofInt w x }

def aluAdd (a b : BitVec w) : Alu w := aluWrap w (a.toInt + b.toInt)
def aluSub (a b : BitVec w) : Alu w := aluWrap w (a.toInt - b.toInt)
def aluMul (a b : BitVec w) : Alu w := aluWrap w (a.toInt * b.toInt)
def aluAdds (a b : BitVec w) : Alu w := aluSat w (a.toInt + b.toInt)
def aluSubs (a b : BitVec w) : Alu w := aluSat w (a.toInt - b.toInt)
def aluMuls (a b : BitVec w) : Alu w := aluSat w (a.toInt * b.toInt)
def aluNeg (a : BitVec w) : Alu w := aluWrap w (-a.toInt)
def aluAbs (a : BitVec w) : Alu w := aluWrap w a.toInt.natAbs

/-- Signed division, truncating toward zero; by zero MAX, MIN or 0 by the dividend's sign, with Z
(Table 13-4). -/
def aluDiv (a b : BitVec w) : Alu w :=
  if b = 0 then
    { val := if 0 < a.toInt then BitVec.ofInt w (2 ^ (w - 1) - 1)
        else if a.toInt < 0 then BitVec.ofInt w (-(2 ^ (w - 1))) else 0, z := true }
  else aluWrap w (a.toInt.tdiv b.toInt)

/-- Signed remainder, of the dividend's sign; by zero the dividend, with Z (Table 13-4). -/
def aluRem (a b : BitVec w) : Alu w :=
  if b = 0 then { val := a, z := true } else aluWrap w (a.toInt.tmod b.toInt)

/-- Unsigned division and remainder: V is always 0 (R519). -/
def aluDivu (a b : BitVec w) : Alu w :=
  if b = 0 then { val := BitVec.allOnes w, z := true } else { val := BitVec.ofNat w (a.toNat / b.toNat) }
def aluRemu (a b : BitVec w) : Alu w :=
  if b = 0 then { val := a, z := true } else { val := BitVec.ofNat w (a.toNat % b.toNat) }

/-- Shifts: the count is operand B read unsigned (R520). -/
def aluShl (a b : BitVec w) : Alu w :=
  if w ≤ b.toNat then { val := 0, v := decide (a ≠ 0) } else aluWrap w (a.toInt * 2 ^ b.toNat)
def aluShr (a b : BitVec w) : Alu w :=
  if w ≤ b.toNat then { val := 0 } else { val := a >>> b.toNat }
def aluSar (a b : BitVec w) : Alu w :=
  if w ≤ b.toNat then { val := if a.toInt < 0 then BitVec.allOnes w else 0 }
  else { val := a.sshiftRight b.toNat }

/-- The product scaled down by 2^F, rounded toward minus infinity (Table 13-4). -/
def aluMulq (f : Nat) (a b : BitVec w) : Alu w := aluWrap w ((a.toInt * b.toInt).fdiv (2 ^ f))

def aluMin (a b : BitVec w) : Alu w := { val := if a.toInt ≤ b.toInt then a else b }
def aluMax (a b : BitVec w) : Alu w := { val := if a.toInt ≤ b.toInt then b else a }
def aluAnd (a b : BitVec w) : Alu w := { val := a &&& b }
def aluOr (a b : BitVec w) : Alu w := { val := a ||| b }
def aluXor (a b : BitVec w) : Alu w := { val := a ^^^ b }

/-- A comparison's 1 or 0; it sets neither flag (R521). -/
def aluBool (c : Bool) : Alu w := { val := BitVec.ofNat w c.toNat }

end Sys2Proof.Machine
end

