-- ==== Sys2Proof/Machine/RegMap.lean ====
section
/-! DEFINITION. The registers of the engine: one name per register of Table 19-2 (R680), the
fields of each as its field map lists them (bits, access, reset; R3, R4, R9), the offset each
register lies at, and the register an offset names (R678, R679). -/

namespace Sys2Proof.Machine

/-- The kinds of register, in the order of Table 19-2. An array of registers is one kind; its
index counts the copies in address order (the outermost index first). -/
inductive RegKind where
  | glbId
  | glbVer
  | glbHid
  | glbTimeLo
  | glbTimeHi
  | glbBootSts
  | glbBootCnt
  | glbBankSts
  | glbBankTimeLo
  | glbBankTimeHi
  | glbBankReq
  | glbLogCtl
  | glbLogMbaseLo
  | glbLogMbaseHi
  | glbLogSeq
  | pwrCtl
  | pwrCfg
  | pwrSts
  | pwrWakeLo
  | pwrWakeHi
  | pwrEmbLo
  | pwrEmbHi
  | pwrCnt
  | pwrWdogCfg
  | pwrWdogKick
  | pwrErrCnt
  | trpSts
  | trpCnt
  | lckCtl
  | lckSts
  | lckCfg
  | lckOwnerRst
  | lckGsts
  | dbgCtl
  | dbgSts
  | dbgFbxCtl
  | dbgChal
  | dbgResp
  | sicPpendLo
  | sicPpendHi
  | sicPmskLo
  | sicPmskHi
  | sicPprio
  | sicClaim
  | sicEoi
  | sicThr
  | sicSpend
  | sicSmsk
  | sicSwi
  | sicRoute
  | secSts
  | secCtr
  | secId
  | secStCfg
  | secStCtl
  | secZero
  | secSanCtl
  | secSanSts
  | secLcCtl
  | secAccSts
  | secAccOfs
  | secKcmd
  | secKsts
  | secKbuf
  | secKmap
  | secFmwCtl
  | secFmwBaseLo
  | secFmwBaseHi
  | secFmwSize
  | secNsCtl
  | secNsBaseLo
  | secNsBaseHi
  | secNsSizeLo
  | secNsSizeHi
  | drgCtl
  | drgSts
  | drgSnsErr
  | drgStaleLo
  | drgStaleHi
  | drgAdmCfg
  | drgCeilCfg
  | drgCeilCfg2
  | drgCeilMskLo
  | drgCeilMskHi
  | drgGrpSts
  | drgLoopCtl
  | drgLoopSrcLo
  | drgLoopSrcHi
  | drgLoopTgt
  | drgLoopKp
  | drgLoopKi
  | drgLoopKd
  | drgLoopVmax
  | drgLoopAmax
  | drgLoopJmax
  | drgLoopIinit
  | drgLoopStale
  | drgLoopSp
  | drgLoopI
  | drgLoopSts
  | drgFfStep
  | drgFfBias
  | calCtl
  | calDeadline
  | calGb
  | calReq
  | calSts
  | calCnt
  | calLastLo
  | calLastHi
  | calDlmiss
  | calCsel
  | calCdat0
  | calCdat1
  | calCdat2
  | calCsts
  | calCtime
  | cryCtl
  | cryLadder
  | cryGaugeCfg
  | crySoftCfg
  | cryWarn
  | cryHardOos0
  | cryHardOos1
  | crySoftOos
  | cryCwCnt
  | cryFirstFail
  | cryOutCnt
  | cryGaugeSts
  | cryLvlmap
  | cryGrdCtl
  | cryGrdPaddr
  | cryGrdPdataLo
  | cryGrdPdataHi
  | cryGrdLdsts
  | cryGrdFbusy0
  | cryGrdFbusy1
  | cryGrdSts
  | cryGrdTiles
  | cryGrdMatch
  | cryGrdFlags
  | cryGrdPdesc
  | cryGrdFmtW0
  | cryGrdFmtW1
  | cryGrdFmtW2
  | cryGrdFmtW3
  | mapSetSts
  | mapRaCfg
  | mapHotCfg
  | mapC0Cnt
  | mapC0Cnt2
  | mapRbSts
  | mapRbProg
  | mapPanDmax
  | mapPanLimit
  | mapPanOcc
  | mapMirOcc
  | mapPanCfg
  | mapTwinSts
  | mapFlushSts
  | mapCcCtl
  | mapCcSts
  | mapCcHit
  | mapCcMiss
  | mapPfCfg
  | mapRclCfg
  | mapWearCfg
  | mapWearSts
  | mapRclSts
  | mapRakeCfg
  | mapRakeSts
  | mapCkptCfg
  | mapCkptSts
  | mapRepairSts
  | mapWaHost
  | mapWaMedia
  | belCtl
  | belCfg
  | belSts
  | belFaddrLo
  | belFaddrHi
  | belJobs
  | belA0Lo
  | belA0Hi
  | belA1Lo
  | belA1Hi
  | belBreg
  | belLc
  | belFlag
  | belElemLo
  | belElemHi
  | belProg
  | belGsts
  | belSctxBusy
  | slqDb
  | slqCtl
  | slqSts
  | slqHead
  | slqCfg
  | slqCfg2
  | slqNs
  | slqBaseLo
  | slqBaseHi
  | slqHalt
  | slqGsts
  | slqPool
  | slqFdb
  | slqFsts
  | hrvDb
  | hrvCtl
  | hrvSts
  | hrvCfg
  | hrvMod
  | hrvBaseLo
  | hrvBaseHi
  | stkChmode
  | stkTgtcfg
  | stkDskRd
  | stkDskWr
  | stkDskSts
  | stkKxCnt
  | stkSts
  | stkUcodeVer
  | stkUcodeSts
  | stkWdog
  | stkPoll
  | stkRawCtl
  | stkRawSts
  | stkDbgCtl
  | stkAopCnt
  | stkMatch
  | stkTsetW0
  | stkTsetW1
  | stkTsetW2
  | stkTsetW3
  | stkTsetW4
  | stkTsetW5
  | stkTsetW6
  | stkTsetW7
  deriving DecidableEq, Repr

/-- One field of a register: its bits `hi` down to `lo`, its access code and its reset value. -/
structure Fld where
  kind : RegKind
  hi   : Nat
  lo   : Nat
  acc  : Access
  rst  : Nat
  deriving DecidableEq, Repr

-- GLB_ID
def Fld.glbIdStepping : Fld := ⟨.glbId, 31, 28, .ro, 1⟩
def Fld.glbIdPart : Fld := ⟨.glbId, 27, 12, .ro, 0⟩
def Fld.glbIdKxEn : Fld := ⟨.glbId, 11, 11, .ro, 0⟩
-- GLB_VER
def Fld.glbVerHwRev : Fld := ⟨.glbVer, 31, 16, .ro, 1⟩
def Fld.glbVerKfmt : Fld := ⟨.glbVer, 15, 8, .ro, 1⟩
-- GLB_HID
def Fld.glbHidSet : Fld := ⟨.glbHid, 31, 31, .ro, 0⟩
def Fld.glbHidLock : Fld := ⟨.glbHid, 30, 30, .ro, 0⟩
def Fld.glbHidHid : Fld := ⟨.glbHid, 13, 0, .ro, 0⟩
-- GLB_TIME_LO
def Fld.glbTimeLoTime : Fld := ⟨.glbTimeLo, 31, 0, .ro, 0⟩
-- GLB_TIME_HI
def Fld.glbTimeHiTime : Fld := ⟨.glbTimeHi, 31, 0, .ro, 0⟩
-- GLB_BOOT_STS
def Fld.glbBootStsFailStage : Fld := ⟨.glbBootSts, 31, 28, .ro, 0⟩
def Fld.glbBootStsFailCode : Fld := ⟨.glbBootSts, 27, 20, .ro, 0⟩
def Fld.glbBootStsFormatted : Fld := ⟨.glbBootSts, 18, 18, .ro, 0⟩
def Fld.glbBootStsTwin : Fld := ⟨.glbBootSts, 17, 16, .ro, 0⟩
def Fld.glbBootStsImgSlot : Fld := ⟨.glbBootSts, 15, 15, .ro, 0⟩
def Fld.glbBootStsXspi1s : Fld := ⟨.glbBootSts, 14, 14, .ro, 0⟩
def Fld.glbBootStsDemandMap : Fld := ⟨.glbBootSts, 13, 13, .ro, 0⟩
def Fld.glbBootStsLedgerSeed : Fld := ⟨.glbBootSts, 12, 12, .ro, 0⟩
def Fld.glbBootStsStage : Fld := ⟨.glbBootSts, 3, 0, .ro, 0⟩
-- GLB_BOOT_CNT
def Fld.glbBootCntLunOff : Fld := ⟨.glbBootCnt, 31, 19, .ro, 0⟩
def Fld.glbBootCntTgtOff : Fld := ⟨.glbBootCnt, 18, 8, .ro, 0⟩
def Fld.glbBootCntChOff : Fld := ⟨.glbBootCnt, 7, 0, .ro, 0⟩
-- GLB_BANK_STS
def Fld.glbBankStsBanked : Fld := ⟨.glbBankSts, 31, 31, .ro, 0⟩
def Fld.glbBankStsPinsDone : Fld := ⟨.glbBankSts, 30, 30, .ro, 0⟩
def Fld.glbBankStsCause : Fld := ⟨.glbBankSts, 23, 16, .ro, 0⟩
def Fld.glbBankStsChWait : Fld := ⟨.glbBankSts, 15, 8, .ro, 0⟩
-- GLB_BANK_TIME_LO
def Fld.glbBankTimeLoTime : Fld := ⟨.glbBankTimeLo, 31, 0, .ro, 0⟩
-- GLB_BANK_TIME_HI
def Fld.glbBankTimeHiTime : Fld := ⟨.glbBankTimeHi, 31, 0, .ro, 0⟩
-- GLB_BANK_REQ
def Fld.glbBankReqGo : Fld := ⟨.glbBankReq, 31, 31, .wo, 0⟩
def Fld.glbBankReqConfirm : Fld := ⟨.glbBankReq, 15, 0, .wo, 0⟩
-- GLB_LOG_CTL
def Fld.glbLogCtlMirEn : Fld := ⟨.glbLogCtl, 31, 31, .rw, 0⟩
def Fld.glbLogCtlPort : Fld := ⟨.glbLogCtl, 13, 10, .rw, 0⟩
def Fld.glbLogCtlMpages : Fld := ⟨.glbLogCtl, 9, 0, .rw, 1⟩
-- GLB_LOG_MBASE_LO
def Fld.glbLogMbaseLoBase : Fld := ⟨.glbLogMbaseLo, 31, 12, .rw, 0⟩
-- GLB_LOG_MBASE_HI
def Fld.glbLogMbaseHiBase : Fld := ⟨.glbLogMbaseHi, 19, 0, .rw, 0⟩
-- GLB_LOG_SEQ
def Fld.glbLogSeqSeq : Fld := ⟨.glbLogSeq, 31, 0, .ro, 0⟩
-- PWR_CTL
def Fld.pwrCtlP1En : Fld := ⟨.pwrCtl, 31, 31, .rw, 1⟩
def Fld.pwrCtlP2Req : Fld := ⟨.pwrCtl, 30, 30, .wo, 0⟩
def Fld.pwrCtlP3Req : Fld := ⟨.pwrCtl, 29, 29, .wo, 0⟩
-- PWR_CFG
def Fld.pwrCfgP1Idle : Fld := ⟨.pwrCfg, 31, 16, .rw, 0x64⟩
def Fld.pwrCfgSrHold : Fld := ⟨.pwrCfg, 15, 0, .rw, 0x3e8⟩
-- PWR_STS
def Fld.pwrStsState : Fld := ⟨.pwrSts, 31, 30, .ro, 0⟩
def Fld.pwrStsSr : Fld := ⟨.pwrSts, 29, 29, .ro, 0⟩
def Fld.pwrStsEmbPend : Fld := ⟨.pwrSts, 28, 28, .ro, 0⟩
def Fld.pwrStsEmbClkLoss : Fld := ⟨.pwrSts, 27, 27, .w1c, 0⟩
def Fld.pwrStsWake : Fld := ⟨.pwrSts, 26, 24, .ro, 0⟩
def Fld.pwrStsRefuse : Fld := ⟨.pwrSts, 23, 20, .ro, 0⟩
-- PWR_WAKE_LO
def Fld.pwrWakeLoAt : Fld := ⟨.pwrWakeLo, 31, 0, .rw, 0⟩
-- PWR_WAKE_HI
def Fld.pwrWakeHiAlarmEn : Fld := ⟨.pwrWakeHi, 31, 31, .rw, 0⟩
def Fld.pwrWakeHiAt : Fld := ⟨.pwrWakeHi, 15, 0, .rw, 0⟩
-- PWR_EMB_LO
def Fld.pwrEmbLoCnt : Fld := ⟨.pwrEmbLo, 31, 0, .ro, 0⟩
-- PWR_EMB_HI
def Fld.pwrEmbHiCnt : Fld := ⟨.pwrEmbHi, 15, 0, .ro, 0⟩
-- PWR_CNT
def Fld.pwrCntP1 : Fld := ⟨.pwrCnt, 31, 16, .rc, 0⟩
def Fld.pwrCntP2 : Fld := ⟨.pwrCnt, 15, 8, .rc, 0⟩
def Fld.pwrCntAbort : Fld := ⟨.pwrCnt, 7, 0, .rc, 0⟩
-- PWR_WDOG_CFG
def Fld.pwrWdogCfgPolMs : Fld := ⟨.pwrWdogCfg, 31, 16, .rw, 0x3e8⟩
def Fld.pwrWdogCfgFbMs : Fld := ⟨.pwrWdogCfg, 15, 0, .rw, 0x64⟩
-- PWR_WDOG_KICK
def Fld.pwrWdogKickKick : Fld := ⟨.pwrWdogKick, 31, 0, .wo, 0⟩
-- PWR_ERR_CNT
def Fld.pwrErrCntCorr : Fld := ⟨.pwrErrCnt, 31, 16, .rc, 0⟩
def Fld.pwrErrCntContained : Fld := ⟨.pwrErrCnt, 15, 8, .rc, 0⟩
def Fld.pwrErrCntBreaks : Fld := ⟨.pwrErrCnt, 7, 0, .rc, 0⟩
-- TRP_STS
def Fld.trpStsFwLive : Fld := ⟨.trpSts, 10, 10, .ro, 0⟩
def Fld.trpStsThermLive : Fld := ⟨.trpSts, 9, 9, .ro, 0⟩
def Fld.trpStsPfailLive : Fld := ⟨.trpSts, 8, 8, .ro, 0⟩
def Fld.trpStsFw : Fld := ⟨.trpSts, 2, 2, .w1c, 0⟩
def Fld.trpStsTherm : Fld := ⟨.trpSts, 1, 1, .w1c, 0⟩
def Fld.trpStsPfail : Fld := ⟨.trpSts, 0, 0, .w1c, 0⟩
-- TRP_CNT
def Fld.trpCntFwRl : Fld := ⟨.trpCnt, 31, 24, .rc, 0⟩
def Fld.trpCntThermRl : Fld := ⟨.trpCnt, 23, 16, .rc, 0⟩
def Fld.trpCntPfailRl : Fld := ⟨.trpCnt, 15, 8, .rc, 0⟩
def Fld.trpCntLatches : Fld := ⟨.trpCnt, 7, 0, .rc, 0⟩
-- LCK_CTL
def Fld.lckCtlAcq : Fld := ⟨.lckCtl, 31, 31, .wo, 0⟩
def Fld.lckCtlRel : Fld := ⟨.lckCtl, 30, 30, .wo, 0⟩
-- LCK_STS
def Fld.lckStsHeld : Fld := ⟨.lckSts, 31, 31, .ro, 0⟩
def Fld.lckStsBroken : Fld := ⟨.lckSts, 30, 30, .w1c, 0⟩
def Fld.lckStsLeft : Fld := ⟨.lckSts, 23, 8, .ro, 0⟩
def Fld.lckStsOwner : Fld := ⟨.lckSts, 7, 0, .ro, 0⟩
-- LCK_CFG
def Fld.lckCfgLease : Fld := ⟨.lckCfg, 15, 0, .rw, 0x64⟩
-- LCK_OWNER_RST
def Fld.lckOwnerRstGo : Fld := ⟨.lckOwnerRst, 31, 31, .wo, 0⟩
def Fld.lckOwnerRstId : Fld := ⟨.lckOwnerRst, 7, 0, .wo, 0⟩
-- LCK_GSTS
def Fld.lckGstsBreaks : Fld := ⟨.lckGsts, 31, 16, .rc, 0⟩
def Fld.lckGstsRefused : Fld := ⟨.lckGsts, 15, 0, .rc, 0⟩
-- DBG_CTL
def Fld.dbgCtlNewchal : Fld := ⟨.dbgCtl, 31, 31, .wo, 0⟩
def Fld.dbgCtlVerify : Fld := ⟨.dbgCtl, 30, 30, .wo, 0⟩
def Fld.dbgCtlClose : Fld := ⟨.dbgCtl, 29, 29, .wo, 0⟩
def Fld.dbgCtlOpen : Fld := ⟨.dbgCtl, 28, 28, .wo, 0⟩
-- DBG_STS
def Fld.dbgStsLevel : Fld := ⟨.dbgSts, 31, 30, .ro, 0⟩
def Fld.dbgStsBusy : Fld := ⟨.dbgSts, 29, 29, .ro, 0⟩
def Fld.dbgStsChal : Fld := ⟨.dbgSts, 28, 28, .ro, 0⟩
def Fld.dbgStsRefused : Fld := ⟨.dbgSts, 27, 27, .w1c, 0⟩
def Fld.dbgStsTamper : Fld := ⟨.dbgSts, 26, 26, .ro, 0⟩
def Fld.dbgStsFails : Fld := ⟨.dbgSts, 23, 20, .ro, 0⟩
def Fld.dbgStsResult : Fld := ⟨.dbgSts, 19, 16, .ro, 0⟩
def Fld.dbgStsScope : Fld := ⟨.dbgSts, 15, 0, .ro, 0⟩
-- DBG_FBX_CTL
def Fld.dbgFbxCtlHalt : Fld := ⟨.dbgFbxCtl, 31, 31, .rw, 0⟩
def Fld.dbgFbxCtlStep : Fld := ⟨.dbgFbxCtl, 30, 30, .wo, 0⟩
def Fld.dbgFbxCtlHalted : Fld := ⟨.dbgFbxCtl, 29, 29, .ro, 0⟩
def Fld.dbgFbxCtlPc : Fld := ⟨.dbgFbxCtl, 18, 0, .ro, 0⟩
-- DBG_CHAL
def Fld.dbgChalChal : Fld := ⟨.dbgChal, 31, 0, .ro, 0⟩
-- DBG_RESP
def Fld.dbgRespResp : Fld := ⟨.dbgResp, 31, 0, .wo, 0⟩
-- SIC_PPEND_LO
def Fld.sicPpendLoPend : Fld := ⟨.sicPpendLo, 31, 0, .rw, 0⟩
-- SIC_PPEND_HI
def Fld.sicPpendHiPend : Fld := ⟨.sicPpendHi, 31, 0, .rw, 0⟩
-- SIC_PMSK_LO
def Fld.sicPmskLoMsk : Fld := ⟨.sicPmskLo, 31, 0, .rw, 0xffffffff⟩
-- SIC_PMSK_HI
def Fld.sicPmskHiMsk : Fld := ⟨.sicPmskHi, 31, 0, .rw, 0xfffcffff⟩
-- SIC_PPRIO
def Fld.sicPprioPrio : Fld := ⟨.sicPprio, 31, 0, .rw, 0⟩
-- SIC_CLAIM
def Fld.sicClaimId : Fld := ⟨.sicClaim, 15, 0, .rc, 0xffff⟩
-- SIC_EOI
def Fld.sicEoiId : Fld := ⟨.sicEoi, 15, 0, .wo, 0⟩
-- SIC_THR
def Fld.sicThrEoiErr : Fld := ⟨.sicThr, 14, 14, .w1c, 0⟩
def Fld.sicThrWake : Fld := ⟨.sicThr, 13, 13, .ro, 0⟩
def Fld.sicThrIrq : Fld := ⟨.sicThr, 12, 12, .ro, 0⟩
def Fld.sicThrDepth : Fld := ⟨.sicThr, 11, 8, .ro, 0⟩
def Fld.sicThrCur : Fld := ⟨.sicThr, 7, 4, .ro, 0⟩
def Fld.sicThrBase : Fld := ⟨.sicThr, 3, 0, .rw, 0⟩
-- SIC_SPEND
def Fld.sicSpendPend : Fld := ⟨.sicSpend, 31, 0, .rw, 0⟩
-- SIC_SMSK
def Fld.sicSmskMsk : Fld := ⟨.sicSmsk, 31, 0, .rw, 0xffffffff⟩
-- SIC_SWI
def Fld.sicSwiTgt : Fld := ⟨.sicSwi, 21, 16, .wo, 0⟩
def Fld.sicSwiSrc : Fld := ⟨.sicSwi, 5, 0, .wo, 0⟩
-- SIC_ROUTE
def Fld.sicRouteTgt : Fld := ⟨.sicRoute, 9, 4, .rw, 0⟩
def Fld.sicRoutePrio : Fld := ⟨.sicRoute, 3, 0, .rw, 0⟩
-- SEC_STS
def Fld.secStsLc : Fld := ⟨.secSts, 31, 30, .ro, 0⟩
def Fld.secStsLcNext : Fld := ⟨.secSts, 29, 28, .ro, 0⟩
def Fld.secStsLcPend : Fld := ⟨.secSts, 27, 27, .ro, 0⟩
def Fld.secStsTamper : Fld := ⟨.secSts, 26, 26, .w1s, 0⟩
def Fld.secStsXoRd : Fld := ⟨.secSts, 25, 25, .w1c, 0⟩
def Fld.secStsXoWr : Fld := ⟨.secSts, 24, 24, .w1c, 0⟩
def Fld.secStsNsErr : Fld := ⟨.secSts, 23, 23, .w1c, 0⟩
def Fld.secStsRbgOk : Fld := ⟨.secSts, 22, 22, .ro, 0⟩
-- SEC_CTR
def Fld.secCtrKrb : Fld := ⟨.secCtr, 22, 16, .ro, 0⟩
def Fld.secCtrFrb : Fld := ⟨.secCtr, 13, 8, .ro, 0⟩
def Fld.secCtrEpoch : Fld := ⟨.secCtr, 5, 0, .ro, 0⟩
-- SEC_ID
def Fld.secIdId : Fld := ⟨.secId, 31, 0, .ro, 0⟩
-- SEC_ST_CFG
def Fld.secStCfgHours : Fld := ⟨.secStCfg, 15, 0, .rw, 0x18⟩
-- SEC_ST_CTL
def Fld.secStCtlRun : Fld := ⟨.secStCtl, 31, 31, .w1s, 0⟩
def Fld.secStCtlBusy : Fld := ⟨.secStCtl, 30, 30, .ro, 0⟩
def Fld.secStCtlRuns : Fld := ⟨.secStCtl, 15, 0, .rc, 0⟩
-- SEC_ZERO
def Fld.secZeroGo : Fld := ⟨.secZero, 31, 31, .wo, 0⟩
def Fld.secZeroConfirm : Fld := ⟨.secZero, 15, 0, .wo, 0⟩
-- SEC_SAN_CTL
def Fld.secSanCtlGo : Fld := ⟨.secSanCtl, 31, 31, .wo, 0⟩
def Fld.secSanCtlCrypto : Fld := ⟨.secSanCtl, 30, 30, .rw, 0⟩
def Fld.secSanCtlBlock : Fld := ⟨.secSanCtl, 29, 29, .rw, 0⟩
def Fld.secSanCtlConfirm : Fld := ⟨.secSanCtl, 15, 0, .wo, 0⟩
-- SEC_SAN_STS
def Fld.secSanStsActive : Fld := ⟨.secSanSts, 31, 31, .ro, 0⟩
def Fld.secSanStsDone : Fld := ⟨.secSanSts, 30, 30, .w1c, 0⟩
def Fld.secSanStsPhase : Fld := ⟨.secSanSts, 29, 28, .ro, 0⟩
def Fld.secSanStsExhausted : Fld := ⟨.secSanSts, 27, 27, .w1c, 0⟩
def Fld.secSanStsUnits : Fld := ⟨.secSanSts, 23, 0, .ro, 0⟩
-- SEC_LC_CTL
def Fld.secLcCtlGo : Fld := ⟨.secLcCtl, 31, 31, .wo, 0⟩
def Fld.secLcCtlTarget : Fld := ⟨.secLcCtl, 29, 28, .rw, 0⟩
def Fld.secLcCtlConfirm : Fld := ⟨.secLcCtl, 15, 0, .wo, 0⟩
-- SEC_ACC_STS
def Fld.secAccStsRefused : Fld := ⟨.secAccSts, 31, 31, .w1c, 0⟩
def Fld.secAccStsLastId : Fld := ⟨.secAccSts, 23, 16, .ro, 0⟩
def Fld.secAccStsCount : Fld := ⟨.secAccSts, 15, 0, .rc, 0⟩
-- SEC_ACC_OFS
def Fld.secAccOfsOfs : Fld := ⟨.secAccOfs, 25, 0, .ro, 0⟩
-- SEC_KCMD
def Fld.secKcmdGo : Fld := ⟨.secKcmd, 31, 31, .wo, 0⟩
def Fld.secKcmdOp : Fld := ⟨.secKcmd, 27, 24, .rw, 0⟩
def Fld.secKcmdSlot : Fld := ⟨.secKcmd, 9, 0, .rw, 0⟩
-- SEC_KSTS
def Fld.secKstsBusy : Fld := ⟨.secKsts, 31, 31, .ro, 0⟩
def Fld.secKstsResult : Fld := ⟨.secKsts, 27, 24, .ro, 0⟩
def Fld.secKstsLoaded : Fld := ⟨.secKsts, 10, 0, .ro, 0⟩
-- SEC_KBUF
def Fld.secKbufBuf : Fld := ⟨.secKbuf, 31, 0, .rw, 0⟩
-- SEC_KMAP
def Fld.secKmapLoaded : Fld := ⟨.secKmap, 31, 0, .ro, 0⟩
-- SEC_FMW_CTL
def Fld.secFmwCtlValid : Fld := ⟨.secFmwCtl, 31, 31, .rw, 0⟩
def Fld.secFmwCtlWr : Fld := ⟨.secFmwCtl, 30, 30, .rw, 0⟩
def Fld.secFmwCtlMovers : Fld := ⟨.secFmwCtl, 7, 0, .rw, 0⟩
-- SEC_FMW_BASE_LO
def Fld.secFmwBaseLoBase : Fld := ⟨.secFmwBaseLo, 31, 12, .rw, 0⟩
-- SEC_FMW_BASE_HI
def Fld.secFmwBaseHiBase : Fld := ⟨.secFmwBaseHi, 19, 0, .rw, 0⟩
-- SEC_FMW_SIZE
def Fld.secFmwSizePages : Fld := ⟨.secFmwSize, 31, 0, .rw, 0⟩
-- SEC_NS_CTL
def Fld.secNsCtlValid : Fld := ⟨.secNsCtl, 31, 31, .rw, 0⟩
def Fld.secNsCtlBusy : Fld := ⟨.secNsCtl, 30, 30, .ro, 0⟩
def Fld.secNsCtlKeyidx : Fld := ⟨.secNsCtl, 9, 0, .rw, 0⟩
-- SEC_NS_BASE_LO
def Fld.secNsBaseLoBase : Fld := ⟨.secNsBaseLo, 31, 0, .rw, 0⟩
-- SEC_NS_BASE_HI
def Fld.secNsBaseHiBase : Fld := ⟨.secNsBaseHi, 15, 0, .rw, 0⟩
-- SEC_NS_SIZE_LO
def Fld.secNsSizeLoSize : Fld := ⟨.secNsSizeLo, 31, 0, .rw, 0⟩
-- SEC_NS_SIZE_HI
def Fld.secNsSizeHiSize : Fld := ⟨.secNsSizeHi, 15, 0, .rw, 0⟩
-- DRG_CTL
def Fld.drgCtlCeilEn : Fld := ⟨.drgCtl, 31, 31, .rw, 0⟩
-- DRG_STS
def Fld.drgStsStop : Fld := ⟨.drgSts, 31, 31, .ro, 0⟩
def Fld.drgStsStale : Fld := ⟨.drgSts, 30, 30, .w1c, 0⟩
def Fld.drgStsCfgerr : Fld := ⟨.drgSts, 29, 29, .w1c, 0⟩
def Fld.drgStsStops : Fld := ⟨.drgSts, 15, 0, .rc, 0⟩
-- DRG_SNS_ERR
def Fld.drgSnsErrParity : Fld := ⟨.drgSnsErr, 31, 16, .rc, 0⟩
def Fld.drgSnsErrBadsrc : Fld := ⟨.drgSnsErr, 15, 0, .rc, 0⟩
-- DRG_STALE_LO
def Fld.drgStaleLoStale : Fld := ⟨.drgStaleLo, 31, 0, .ro, 0⟩
-- DRG_STALE_HI
def Fld.drgStaleHiStale : Fld := ⟨.drgStaleHi, 31, 0, .ro, 0⟩
-- DRG_ADM_CFG
def Fld.drgAdmCfgOpsMax : Fld := ⟨.drgAdmCfg, 31, 23, .rw, 0x100⟩
def Fld.drgAdmCfgBwMax : Fld := ⟨.drgAdmCfg, 15, 0, .rw, 0⟩
-- DRG_CEIL_CFG
def Fld.drgCeilCfgILim : Fld := ⟨.drgCeilCfg, 31, 12, .rw, 0xfffff⟩
def Fld.drgCeilCfgNeval : Fld := ⟨.drgCeilCfg, 11, 8, .rw, 2⟩
def Fld.drgCeilCfgIHyst : Fld := ⟨.drgCeilCfg, 7, 0, .rw, 0x10⟩
-- DRG_CEIL_CFG2
def Fld.drgCeilCfg2TLim : Fld := ⟨.drgCeilCfg2, 31, 16, .rw, 0x3c00⟩
def Fld.drgCeilCfg2THyst : Fld := ⟨.drgCeilCfg2, 15, 8, .rw, 0x80⟩
-- DRG_CEIL_MSK_LO
def Fld.drgCeilMskLoMsk : Fld := ⟨.drgCeilMskLo, 31, 0, .rw, 0⟩
-- DRG_CEIL_MSK_HI
def Fld.drgCeilMskHiMsk : Fld := ⟨.drgCeilMskHi, 31, 0, .rw, 0⟩
-- DRG_GRP_STS
def Fld.drgGrpStsInfl : Fld := ⟨.drgGrpSts, 31, 23, .ro, 0⟩
def Fld.drgGrpStsAdmit : Fld := ⟨.drgGrpSts, 16, 0, .ro, 0x10000⟩
-- DRG_LOOP_CTL
def Fld.drgLoopCtlEn : Fld := ⟨.drgLoopCtl, 31, 31, .rw, 0⟩
def Fld.drgLoopCtlFreeze : Fld := ⟨.drgLoopCtl, 30, 30, .rw, 0⟩
def Fld.drgLoopCtlFfEn : Fld := ⟨.drgLoopCtl, 29, 29, .rw, 0⟩
def Fld.drgLoopCtlAgg : Fld := ⟨.drgLoopCtl, 28, 28, .rw, 0⟩
def Fld.drgLoopCtlInsh : Fld := ⟨.drgLoopCtl, 27, 25, .rw, 0⟩
def Fld.drgLoopCtlGrp : Fld := ⟨.drgLoopCtl, 15, 0, .rw, 0⟩
-- DRG_LOOP_SRC_LO
def Fld.drgLoopSrcLoSrc : Fld := ⟨.drgLoopSrcLo, 31, 0, .rw, 0⟩
-- DRG_LOOP_SRC_HI
def Fld.drgLoopSrcHiSrc : Fld := ⟨.drgLoopSrcHi, 31, 0, .rw, 0⟩
-- DRG_LOOP_TGT
def Fld.drgLoopTgtTgt : Fld := ⟨.drgLoopTgt, 15, 0, .rw, 0⟩
-- DRG_LOOP_KP
def Fld.drgLoopKpKp : Fld := ⟨.drgLoopKp, 31, 0, .rw, 0⟩
-- DRG_LOOP_KI
def Fld.drgLoopKiKi : Fld := ⟨.drgLoopKi, 31, 0, .rw, 0⟩
-- DRG_LOOP_KD
def Fld.drgLoopKdKd : Fld := ⟨.drgLoopKd, 31, 0, .rw, 0⟩
-- DRG_LOOP_VMAX
def Fld.drgLoopVmaxVmax : Fld := ⟨.drgLoopVmax, 31, 0, .rw, 0⟩
-- DRG_LOOP_AMAX
def Fld.drgLoopAmaxAmax : Fld := ⟨.drgLoopAmax, 31, 0, .rw, 0⟩
-- DRG_LOOP_JMAX
def Fld.drgLoopJmaxJmax : Fld := ⟨.drgLoopJmax, 31, 0, .rw, 0⟩
-- DRG_LOOP_IINIT
def Fld.drgLoopIinitIinit : Fld := ⟨.drgLoopIinit, 31, 0, .rw, 0x10000⟩
-- DRG_LOOP_STALE
def Fld.drgLoopStaleLvl : Fld := ⟨.drgLoopStale, 16, 0, .rw, 0x8000⟩
-- DRG_LOOP_SP
def Fld.drgLoopSpSp : Fld := ⟨.drgLoopSp, 31, 0, .ro, 0⟩
-- DRG_LOOP_I
def Fld.drgLoopII : Fld := ⟨.drgLoopI, 31, 0, .ro, 0⟩
-- DRG_LOOP_STS
def Fld.drgLoopStsWraps : Fld := ⟨.drgLoopSts, 31, 24, .rc, 0⟩
def Fld.drgLoopStsStale : Fld := ⟨.drgLoopSts, 17, 17, .ro, 0⟩
def Fld.drgLoopStsBase : Fld := ⟨.drgLoopSts, 16, 0, .ro, 0⟩
-- DRG_FF_STEP
def Fld.drgFfStepTerm : Fld := ⟨.drgFfStep, 31, 0, .rw, 0⟩
-- DRG_FF_BIAS
def Fld.drgFfBiasTerm : Fld := ⟨.drgFfBias, 31, 0, .rw, 0⟩
-- CAL_CTL
def Fld.calCtlEn : Fld := ⟨.calCtl, 31, 31, .rw, 1⟩
def Fld.calCtlLedgerEn : Fld := ⟨.calCtl, 30, 30, .rw, 1⟩
def Fld.calCtlThresh : Fld := ⟨.calCtl, 23, 16, .rw, 0x10⟩
def Fld.calCtlMinGap : Fld := ⟨.calCtl, 15, 0, .rw, 0x3e8⟩
-- CAL_DEADLINE
def Fld.calDeadlineMs : Fld := ⟨.calDeadline, 15, 0, .rw, 0x64⟩
-- CAL_GB
def Fld.calGbLoadthr : Fld := ⟨.calGb, 31, 24, .rw, 4⟩
-- CAL_REQ
def Fld.calReqGo : Fld := ⟨.calReq, 31, 31, .wo, 0⟩
def Fld.calReqCh : Fld := ⟨.calReq, 22, 16, .wo, 0⟩
def Fld.calReqTmask : Fld := ⟨.calReq, 15, 8, .wo, 0⟩
-- CAL_STS
def Fld.calStsActive : Fld := ⟨.calSts, 31, 31, .ro, 0⟩
def Fld.calStsPend : Fld := ⟨.calSts, 26, 16, .ro, 0⟩
def Fld.calStsFails : Fld := ⟨.calSts, 15, 0, .rc, 0⟩
-- CAL_CNT
def Fld.calCntCnt : Fld := ⟨.calCnt, 31, 0, .ro, 0⟩
-- CAL_LAST_LO
def Fld.calLastLoLast : Fld := ⟨.calLastLo, 31, 0, .ro, 0⟩
-- CAL_LAST_HI
def Fld.calLastHiLast : Fld := ⟨.calLastHi, 31, 0, .ro, 0⟩
-- CAL_DLMISS
def Fld.calDlmissLuns : Fld := ⟨.calDlmiss, 31, 16, .rc, 0⟩
def Fld.calDlmissSweeps : Fld := ⟨.calDlmiss, 15, 0, .rc, 0⟩
-- CAL_CSEL
def Fld.calCselCh : Fld := ⟨.calCsel, 22, 16, .rw, 0⟩
def Fld.calCselTgt : Fld := ⟨.calCsel, 10, 8, .rw, 0⟩
def Fld.calCselDir : Fld := ⟨.calCsel, 0, 0, .rw, 0⟩
-- CAL_CDAT0
def Fld.calCdat0Dq30 : Fld := ⟨.calCdat0, 31, 0, .ro, 0⟩
-- CAL_CDAT1
def Fld.calCdat1Dq74 : Fld := ⟨.calCdat1, 31, 0, .ro, 0⟩
-- CAL_CDAT2
def Fld.calCdat2Pu : Fld := ⟨.calCdat2, 31, 24, .ro, 0x20⟩
def Fld.calCdat2Pd : Fld := ⟨.calCdat2, 23, 16, .ro, 0x20⟩
def Fld.calCdat2Dcc : Fld := ⟨.calCdat2, 15, 8, .ro, 0⟩
def Fld.calCdat2Gb : Fld := ⟨.calCdat2, 7, 0, .ro, 0⟩
-- CAL_CSTS
def Fld.calCstsTlast : Fld := ⟨.calCsts, 31, 24, .ro, 0⟩
def Fld.calCstsResult : Fld := ⟨.calCsts, 23, 20, .ro, 0⟩
def Fld.calCstsRuns : Fld := ⟨.calCsts, 15, 0, .ro, 0⟩
-- CAL_CTIME
def Fld.calCtimeTime : Fld := ⟨.calCtime, 31, 0, .ro, 0⟩
-- CRY_CTL
def Fld.cryCtlLearn : Fld := ⟨.cryCtl, 31, 31, .rw, 1⟩
def Fld.cryCtlErasedMax : Fld := ⟨.cryCtl, 15, 0, .rw, 0x40⟩
-- CRY_LADDER
def Fld.cryLadderMaxC1 : Fld := ⟨.cryLadder, 28, 24, .rw, 0x10⟩
def Fld.cryLadderMaxC2 : Fld := ⟨.cryLadder, 20, 16, .rw, 0x10⟩
def Fld.cryLadderMaxC3 : Fld := ⟨.cryLadder, 12, 8, .rw, 0x10⟩
def Fld.cryLadderSoftC3 : Fld := ⟨.cryLadder, 2, 2, .rw, 1⟩
def Fld.cryLadderSoftC2 : Fld := ⟨.cryLadder, 1, 1, .rw, 1⟩
def Fld.cryLadderSoftC1 : Fld := ⟨.cryLadder, 0, 0, .rw, 1⟩
-- CRY_GAUGE_CFG
def Fld.cryGaugeCfgThresh : Fld := ⟨.cryGaugeCfg, 31, 24, .rw, 8⟩
def Fld.cryGaugeCfgClamp : Fld := ⟨.cryGaugeCfg, 23, 16, .rw, 4⟩
def Fld.cryGaugeCfgSpan : Fld := ⟨.cryGaugeCfg, 15, 8, .rw, 0x28⟩
-- CRY_SOFT_CFG
def Fld.crySoftCfgDelta : Fld := ⟨.crySoftCfg, 31, 24, .rw, 6⟩
def Fld.crySoftCfgLlrStrong : Fld := ⟨.crySoftCfg, 23, 20, .rw, 7⟩
def Fld.crySoftCfgLlrWeak : Fld := ⟨.crySoftCfg, 19, 16, .rw, 2⟩
-- CRY_WARN
def Fld.cryWarnThresh : Fld := ⟨.cryWarn, 31, 24, .rw, 0x30⟩
def Fld.cryWarnMstep : Fld := ⟨.cryWarn, 23, 16, .rw, 8⟩
-- CRY_HARD_OOS0
def Fld.cryHardOos0Oos : Fld := ⟨.cryHardOos0, 31, 0, .ro, 0⟩
-- CRY_HARD_OOS1
def Fld.cryHardOos1Oos : Fld := ⟨.cryHardOos1, 31, 0, .ro, 0⟩
-- CRY_SOFT_OOS
def Fld.crySoftOosOos : Fld := ⟨.crySoftOos, 7, 0, .ro, 0⟩
-- CRY_CW_CNT
def Fld.cryCwCntCw : Fld := ⟨.cryCwCnt, 31, 0, .rc, 0⟩
-- CRY_FIRST_FAIL
def Fld.cryFirstFailFail : Fld := ⟨.cryFirstFail, 31, 0, .rc, 0⟩
-- CRY_OUT_CNT
def Fld.cryOutCntRetryOk : Fld := ⟨.cryOutCnt, 31, 24, .rc, 0⟩
def Fld.cryOutCntSoftOk : Fld := ⟨.cryOutCnt, 23, 16, .rc, 0⟩
def Fld.cryOutCntUncorr : Fld := ⟨.cryOutCnt, 15, 8, .rc, 0⟩
def Fld.cryOutCntMiscorr : Fld := ⟨.cryOutCnt, 7, 0, .rc, 0⟩
-- CRY_GAUGE_STS
def Fld.cryGaugeStsLimit : Fld := ⟨.cryGaugeSts, 31, 24, .rc, 0⟩
def Fld.cryGaugeStsDataerr : Fld := ⟨.cryGaugeSts, 23, 16, .rc, 0⟩
def Fld.cryGaugeStsErased : Fld := ⟨.cryGaugeSts, 15, 8, .rc, 0⟩
-- CRY_LVLMAP
def Fld.cryLvlmapValid : Fld := ⟨.cryLvlmap, 31, 31, .ro, 0⟩
def Fld.cryLvlmapOwner : Fld := ⟨.cryLvlmap, 29, 0, .ro, 0⟩
-- CRY_GRD_CTL
def Fld.cryGrdCtlC0Rsv : Fld := ⟨.cryGrdCtl, 2, 0, .rw, 2⟩
-- CRY_GRD_PADDR
def Fld.cryGrdPaddrAutoinc : Fld := ⟨.cryGrdPaddr, 31, 31, .rw, 1⟩
def Fld.cryGrdPaddrAddr : Fld := ⟨.cryGrdPaddr, 11, 0, .rw, 0⟩
-- CRY_GRD_PDATA_LO
def Fld.cryGrdPdataLoLo : Fld := ⟨.cryGrdPdataLo, 31, 0, .wo, 0⟩
-- CRY_GRD_PDATA_HI
def Fld.cryGrdPdataHiHi : Fld := ⟨.cryGrdPdataHi, 31, 0, .wo, 0⟩
-- CRY_GRD_LDSTS
def Fld.cryGrdLdstsErr : Fld := ⟨.cryGrdLdsts, 31, 28, .ro, 0⟩
def Fld.cryGrdLdstsWidx : Fld := ⟨.cryGrdLdsts, 27, 22, .ro, 0⟩
def Fld.cryGrdLdstsInuse : Fld := ⟨.cryGrdLdsts, 21, 21, .w1c, 0⟩
-- CRY_GRD_FBUSY0
def Fld.cryGrdFbusy0Busy : Fld := ⟨.cryGrdFbusy0, 31, 0, .ro, 0⟩
-- CRY_GRD_FBUSY1
def Fld.cryGrdFbusy1Busy : Fld := ⟨.cryGrdFbusy1, 31, 0, .ro, 0⟩
-- CRY_GRD_STS
def Fld.cryGrdStsOos : Fld := ⟨.cryGrdSts, 31, 16, .ro, 0⟩
def Fld.cryGrdStsBadref : Fld := ⟨.cryGrdSts, 15, 0, .rc, 0⟩
-- CRY_GRD_TILES
def Fld.cryGrdTilesTiles : Fld := ⟨.cryGrdTiles, 31, 0, .rc, 0⟩
-- CRY_GRD_MATCH
def Fld.cryGrdMatchMatch : Fld := ⟨.cryGrdMatch, 31, 0, .rc, 0⟩
-- CRY_GRD_FLAGS
def Fld.cryGrdFlagsVrec : Fld := ⟨.cryGrdFlags, 31, 16, .rc, 0⟩
def Fld.cryGrdFlagsZrec : Fld := ⟨.cryGrdFlags, 15, 0, .rc, 0⟩
-- CRY_GRD_PDESC
def Fld.cryGrdPdescValid : Fld := ⟨.cryGrdPdesc, 31, 31, .rw, 0⟩
def Fld.cryGrdPdescBusy : Fld := ⟨.cryGrdPdesc, 30, 30, .ro, 0⟩
def Fld.cryGrdPdescFbusy : Fld := ⟨.cryGrdPdesc, 29, 29, .ro, 0⟩
def Fld.cryGrdPdescLenm1 : Fld := ⟨.cryGrdPdesc, 17, 12, .rw, 0⟩
def Fld.cryGrdPdescStart : Fld := ⟨.cryGrdPdesc, 11, 0, .rw, 0⟩
-- CRY_GRD_FMT_W0
def Fld.cryGrdFmtW0Valid : Fld := ⟨.cryGrdFmtW0, 31, 31, .rw, 0⟩
def Fld.cryGrdFmtW0Onflag : Fld := ⟨.cryGrdFmtW0, 30, 29, .rw, 0⟩
def Fld.cryGrdFmtW0Loc : Fld := ⟨.cryGrdFmtW0, 28, 28, .rw, 0⟩
def Fld.cryGrdFmtW0Proj : Fld := ⟨.cryGrdFmtW0, 27, 27, .rw, 0⟩
def Fld.cryGrdFmtW0Rlen : Fld := ⟨.cryGrdFmtW0, 26, 13, .rw, 0⟩
def Fld.cryGrdFmtW0Hdr : Fld := ⟨.cryGrdFmtW0, 11, 0, .rw, 0⟩
-- CRY_GRD_FMT_W1
def Fld.cryGrdFmtW1CntEn : Fld := ⟨.cryGrdFmtW1, 31, 31, .rw, 0⟩
def Fld.cryGrdFmtW1CntOfs : Fld := ⟨.cryGrdFmtW1, 27, 16, .rw, 0⟩
def Fld.cryGrdFmtW1Ven : Fld := ⟨.cryGrdFmtW1, 15, 15, .rw, 0⟩
def Fld.cryGrdFmtW1Vbit : Fld := ⟨.cryGrdFmtW1, 14, 12, .rw, 0⟩
def Fld.cryGrdFmtW1Vofs : Fld := ⟨.cryGrdFmtW1, 11, 0, .rw, 0⟩
-- CRY_GRD_FMT_W2
def Fld.cryGrdFmtW2OutLen : Fld := ⟨.cryGrdFmtW2, 24, 12, .rw, 0⟩
def Fld.cryGrdFmtW2OutOff : Fld := ⟨.cryGrdFmtW2, 11, 0, .rw, 0⟩
-- CRY_GRD_FMT_W3
-- MAP_SET_STS
def Fld.mapSetStsSets : Fld := ⟨.mapSetSts, 31, 24, .ro, 0⟩
def Fld.mapSetStsSpares : Fld := ⟨.mapSetSts, 23, 16, .ro, 0⟩
def Fld.mapSetStsDegr1 : Fld := ⟨.mapSetSts, 15, 8, .ro, 0⟩
def Fld.mapSetStsDegr2 : Fld := ⟨.mapSetSts, 7, 0, .ro, 0⟩
-- MAP_RA_CFG
def Fld.mapRaCfgRaEn : Fld := ⟨.mapRaCfg, 31, 31, .rw, 1⟩
def Fld.mapRaCfgRate : Fld := ⟨.mapRaCfg, 23, 0, .rw, 0⟩
-- MAP_HOT_CFG
def Fld.mapHotCfgRcnt : Fld := ⟨.mapHotCfg, 31, 24, .rw, 8⟩
def Fld.mapHotCfgQdepth : Fld := ⟨.mapHotCfg, 23, 16, .rw, 0x10⟩
def Fld.mapHotCfgRelocRate : Fld := ⟨.mapHotCfg, 15, 0, .rw, 0xc350⟩
-- MAP_C0_CNT
def Fld.mapC0CntRa : Fld := ⟨.mapC0Cnt, 31, 16, .rc, 0⟩
def Fld.mapC0CntDefer : Fld := ⟨.mapC0Cnt, 15, 0, .rc, 0⟩
-- MAP_C0_CNT2
def Fld.mapC0Cnt2RaDeny : Fld := ⟨.mapC0Cnt2, 31, 16, .rc, 0⟩
def Fld.mapC0Cnt2CmtLate : Fld := ⟨.mapC0Cnt2, 15, 0, .rc, 0⟩
-- MAP_RB_STS
def Fld.mapRbStsActive : Fld := ⟨.mapRbSts, 31, 31, .ro, 0⟩
def Fld.mapRbStsDrain : Fld := ⟨.mapRbSts, 30, 30, .ro, 0⟩
def Fld.mapRbStsSet : Fld := ⟨.mapRbSts, 20, 13, .ro, 0⟩
def Fld.mapRbStsSlot : Fld := ⟨.mapRbSts, 12, 8, .ro, 0⟩
def Fld.mapRbStsQueued : Fld := ⟨.mapRbSts, 7, 0, .ro, 0⟩
-- MAP_RB_PROG
def Fld.mapRbProgGroups : Fld := ⟨.mapRbProg, 17, 0, .ro, 0⟩
-- MAP_PAN_DMAX
def Fld.mapPanDmaxDmax : Fld := ⟨.mapPanDmax, 31, 0, .ro, 0⟩
-- MAP_PAN_LIMIT
def Fld.mapPanLimitLimit : Fld := ⟨.mapPanLimit, 31, 0, .ro, 0⟩
-- MAP_PAN_OCC
def Fld.mapPanOccOcc : Fld := ⟨.mapPanOcc, 31, 0, .ro, 0⟩
-- MAP_MIR_OCC
def Fld.mapMirOccOcc : Fld := ⟨.mapMirOcc, 31, 0, .ro, 0⟩
-- MAP_PAN_CFG
def Fld.mapPanCfgWindowMs : Fld := ⟨.mapPanCfg, 31, 16, .rw, 0x7d0⟩
def Fld.mapPanCfgHiwat : Fld := ⟨.mapPanCfg, 15, 8, .rw, 0x4b⟩
def Fld.mapPanCfgLowat : Fld := ⟨.mapPanCfg, 7, 0, .rw, 0x32⟩
-- MAP_TWIN_STS
def Fld.mapTwinStsState : Fld := ⟨.mapTwinSts, 31, 30, .ro, 0⟩
def Fld.mapTwinStsPeerHid : Fld := ⟨.mapTwinSts, 29, 16, .ro, 0⟩
def Fld.mapTwinStsLosses : Fld := ⟨.mapTwinSts, 15, 8, .rc, 0⟩
def Fld.mapTwinStsRefetch : Fld := ⟨.mapTwinSts, 7, 0, .rc, 0⟩
-- MAP_FLUSH_STS
def Fld.mapFlushStsActive : Fld := ⟨.mapFlushSts, 31, 31, .ro, 0⟩
def Fld.mapFlushStsDone : Fld := ⟨.mapFlushSts, 30, 30, .ro, 0⟩
def Fld.mapFlushStsReloadInc : Fld := ⟨.mapFlushSts, 29, 29, .ro, 0⟩
def Fld.mapFlushStsOver : Fld := ⟨.mapFlushSts, 28, 28, .ro, 0⟩
def Fld.mapFlushStsStreams : Fld := ⟨.mapFlushSts, 27, 24, .ro, 0⟩
def Fld.mapFlushStsPoison : Fld := ⟨.mapFlushSts, 23, 20, .rc, 0⟩
def Fld.mapFlushStsReloaded : Fld := ⟨.mapFlushSts, 19, 0, .ro, 0⟩
-- MAP_CC_CTL
def Fld.mapCcCtlEn : Fld := ⟨.mapCcCtl, 31, 31, .rw, 1⟩
-- MAP_CC_STS
def Fld.mapCcStsFlushing : Fld := ⟨.mapCcSts, 31, 31, .ro, 0⟩
def Fld.mapCcStsWbErr : Fld := ⟨.mapCcSts, 23, 16, .rc, 0⟩
def Fld.mapCcStsDirtyK : Fld := ⟨.mapCcSts, 15, 0, .ro, 0⟩
-- MAP_CC_HIT
def Fld.mapCcHitHit : Fld := ⟨.mapCcHit, 31, 0, .rc, 0⟩
-- MAP_CC_MISS
def Fld.mapCcMissMiss : Fld := ⟨.mapCcMiss, 31, 0, .rc, 0⟩
-- MAP_PF_CFG
def Fld.mapPfCfgDepth : Fld := ⟨.mapPfCfg, 3, 0, .rw, 4⟩
-- MAP_RCL_CFG
def Fld.mapRclCfgStart : Fld := ⟨.mapRclCfg, 31, 24, .rw, 8⟩
def Fld.mapRclCfgUrgent : Fld := ⟨.mapRclCfg, 23, 16, .rw, 4⟩
def Fld.mapRclCfgHostFloor : Fld := ⟨.mapRclCfg, 15, 8, .rw, 2⟩
-- MAP_WEAR_CFG
def Fld.mapWearCfgDelta : Fld := ⟨.mapWearCfg, 15, 0, .rw, 0x64⟩
-- MAP_WEAR_STS
def Fld.mapWearStsMaxpec : Fld := ⟨.mapWearSts, 31, 16, .ro, 0⟩
def Fld.mapWearStsOver : Fld := ⟨.mapWearSts, 15, 0, .ro, 0⟩
-- MAP_RCL_STS
def Fld.mapRclStsLowset : Fld := ⟨.mapRclSts, 31, 24, .ro, 0⟩
def Fld.mapRclStsLowfree : Fld := ⟨.mapRclSts, 23, 16, .ro, 0⟩
def Fld.mapRclStsFloored : Fld := ⟨.mapRclSts, 15, 8, .ro, 0⟩
def Fld.mapRclStsRetired : Fld := ⟨.mapRclSts, 7, 0, .rc, 0⟩
-- MAP_RAKE_CFG
def Fld.mapRakeCfgPatrolH : Fld := ⟨.mapRakeCfg, 31, 20, .rw, 0xa8⟩
def Fld.mapRakeCfgRetainD : Fld := ⟨.mapRakeCfg, 19, 10, .rw, 0x5a⟩
def Fld.mapRakeCfgRate : Fld := ⟨.mapRakeCfg, 9, 0, .rw, 0x3e8⟩
-- MAP_RAKE_STS
def Fld.mapRakeStsPending : Fld := ⟨.mapRakeSts, 31, 16, .ro, 0⟩
def Fld.mapRakeStsDone : Fld := ⟨.mapRakeSts, 15, 0, .rc, 0⟩
-- MAP_CKPT_CFG
def Fld.mapCkptCfgTrig : Fld := ⟨.mapCkptCfg, 31, 0, .rw, 0x8000000⟩
-- MAP_CKPT_STS
def Fld.mapCkptStsActive : Fld := ⟨.mapCkptSts, 31, 31, .ro, 0⟩
def Fld.mapCkptStsSmall : Fld := ⟨.mapCkptSts, 30, 30, .ro, 0⟩
def Fld.mapCkptStsAreaBad : Fld := ⟨.mapCkptSts, 29, 29, .ro, 0⟩
def Fld.mapCkptStsHeld : Fld := ⟨.mapCkptSts, 28, 28, .ro, 0⟩
def Fld.mapCkptStsCkptNo : Fld := ⟨.mapCkptSts, 27, 0, .ro, 0⟩
-- MAP_REPAIR_STS
def Fld.mapRepairStsRepairs : Fld := ⟨.mapRepairSts, 31, 16, .rc, 0⟩
def Fld.mapRepairStsPoisoned : Fld := ⟨.mapRepairSts, 15, 0, .rc, 0⟩
-- MAP_WA_HOST
def Fld.mapWaHostTiles : Fld := ⟨.mapWaHost, 31, 0, .ro, 0⟩
-- MAP_WA_MEDIA
def Fld.mapWaMediaTiles : Fld := ⟨.mapWaMedia, 31, 0, .ro, 0⟩
-- BEL_CTL
def Fld.belCtlEn : Fld := ⟨.belCtl, 31, 31, .rw, 1⟩
def Fld.belCtlPause : Fld := ⟨.belCtl, 30, 30, .rw, 0⟩
def Fld.belCtlGo : Fld := ⟨.belCtl, 29, 29, .w1s, 0⟩
-- BEL_CFG
def Fld.belCfgSealed : Fld := ⟨.belCfg, 31, 31, .ro, 0⟩
def Fld.belCfgPrio : Fld := ⟨.belCfg, 30, 28, .rw, 0⟩
def Fld.belCfgPort : Fld := ⟨.belCfg, 27, 24, .rw, 0⟩
def Fld.belCfgVc : Fld := ⟨.belCfg, 23, 22, .rw, 2⟩
def Fld.belCfgDoneIrq : Fld := ⟨.belCfg, 21, 21, .rw, 0⟩
def Fld.belCfgSrc : Fld := ⟨.belCfg, 20, 10, .rw, 0⟩
def Fld.belCfgCtxs : Fld := ⟨.belCfg, 5, 0, .ro, 0⟩
-- BEL_STS
def Fld.belStsState : Fld := ⟨.belSts, 31, 29, .ro, 0⟩
def Fld.belStsPc : Fld := ⟨.belSts, 28, 24, .ro, 0⟩
def Fld.belStsCode : Fld := ⟨.belSts, 23, 20, .ro, 0⟩
def Fld.belStsElemDone : Fld := ⟨.belSts, 19, 15, .ro, 0⟩
def Fld.belStsOutst : Fld := ⟨.belSts, 7, 0, .ro, 0⟩
-- BEL_FADDR_LO
def Fld.belFaddrLoAddr : Fld := ⟨.belFaddrLo, 31, 0, .ro, 0⟩
-- BEL_FADDR_HI
def Fld.belFaddrHiAddr : Fld := ⟨.belFaddrHi, 19, 0, .ro, 0⟩
-- BEL_JOBS
def Fld.belJobsJobs : Fld := ⟨.belJobs, 31, 0, .rc, 0⟩
-- BEL_A0_LO
def Fld.belA0LoALo : Fld := ⟨.belA0Lo, 31, 0, .rw, 0⟩
-- BEL_A0_HI
def Fld.belA0HiAHi : Fld := ⟨.belA0Hi, 19, 0, .rw, 0⟩
-- BEL_A1_LO
def Fld.belA1LoALo : Fld := ⟨.belA1Lo, 31, 0, .rw, 0⟩
-- BEL_A1_HI
def Fld.belA1HiAHi : Fld := ⟨.belA1Hi, 19, 0, .rw, 0⟩
-- BEL_BREG
def Fld.belBregB1 : Fld := ⟨.belBreg, 28, 16, .rw, 0⟩
def Fld.belBregB0 : Fld := ⟨.belBreg, 12, 0, .rw, 0⟩
-- BEL_LC
def Fld.belLcLc1 : Fld := ⟨.belLc, 31, 16, .ro, 0⟩
def Fld.belLcLc0 : Fld := ⟨.belLc, 15, 0, .ro, 0⟩
-- BEL_FLAG
def Fld.belFlagFlag : Fld := ⟨.belFlag, 15, 0, .w1s, 0⟩
-- BEL_ELEM_LO
def Fld.belElemLoAddrLo : Fld := ⟨.belElemLo, 31, 0, .rw, 0⟩
-- BEL_ELEM_HI
def Fld.belElemHiLenm1 : Fld := ⟨.belElemHi, 31, 20, .rw, 0⟩
def Fld.belElemHiAddrHi : Fld := ⟨.belElemHi, 19, 0, .rw, 0⟩
-- BEL_PROG
def Fld.belProgInstr : Fld := ⟨.belProg, 31, 0, .rw, 0⟩
-- BEL_GSTS
def Fld.belGstsC0Wait : Fld := ⟨.belGsts, 31, 16, .rc, 0⟩
def Fld.belGstsFaults : Fld := ⟨.belGsts, 15, 0, .rc, 0⟩
-- BEL_SCTX_BUSY
def Fld.belSctxBusyBusy : Fld := ⟨.belSctxBusy, 31, 0, .ro, 0⟩
-- SLQ_DB
def Fld.slqDbLimit : Fld := ⟨.slqDb, 15, 0, .wo, 0⟩
-- SLQ_CTL
def Fld.slqCtlEn : Fld := ⟨.slqCtl, 31, 31, .rw, 0⟩
-- SLQ_STS
def Fld.slqStsIdle : Fld := ⟨.slqSts, 31, 31, .ro, 1⟩
def Fld.slqStsError : Fld := ⟨.slqSts, 30, 30, .ro, 0⟩
def Fld.slqStsScan : Fld := ⟨.slqSts, 29, 29, .ro, 0⟩
def Fld.slqStsDbPend : Fld := ⟨.slqSts, 28, 28, .ro, 0⟩
def Fld.slqStsWaitHrv : Fld := ⟨.slqSts, 27, 27, .ro, 0⟩
def Fld.slqStsErrCode : Fld := ⟨.slqSts, 23, 16, .ro, 0⟩
def Fld.slqStsErrIdx : Fld := ⟨.slqSts, 15, 0, .ro, 0⟩
-- SLQ_HEAD
def Fld.slqHeadOut : Fld := ⟨.slqHead, 28, 16, .ro, 0⟩
def Fld.slqHeadHead : Fld := ⟨.slqHead, 15, 0, .rw, 0⟩
-- SLQ_CFG
def Fld.slqCfgValid : Fld := ⟨.slqCfg, 31, 31, .ro, 0⟩
def Fld.slqCfgClass : Fld := ⟨.slqCfg, 30, 29, .ro, 0⟩
def Fld.slqCfgStrict : Fld := ⟨.slqCfg, 28, 28, .ro, 0⟩
def Fld.slqCfgOwner : Fld := ⟨.slqCfg, 27, 26, .ro, 0⟩
def Fld.slqCfgCreator : Fld := ⟨.slqCfg, 25, 24, .ro, 0⟩
def Fld.slqCfgWeight : Fld := ⟨.slqCfg, 23, 16, .ro, 0⟩
def Fld.slqCfgBurst : Fld := ⟨.slqCfg, 15, 10, .ro, 0⟩
def Fld.slqCfgPages : Fld := ⟨.slqCfg, 9, 0, .ro, 0⟩
-- SLQ_CFG2
def Fld.slqCfg2Client : Fld := ⟨.slqCfg2, 31, 16, .ro, 0⟩
def Fld.slqCfg2Hrv : Fld := ⟨.slqCfg2, 11, 0, .ro, 0⟩
-- SLQ_NS
def Fld.slqNsNsid : Fld := ⟨.slqNs, 31, 16, .ro, 0⟩
def Fld.slqNsMaxout : Fld := ⟨.slqNs, 12, 0, .ro, 0⟩
-- SLQ_BASE_LO
def Fld.slqBaseLoBaseLo : Fld := ⟨.slqBaseLo, 31, 12, .ro, 0⟩
-- SLQ_BASE_HI
def Fld.slqBaseHiBaseHi : Fld := ⟨.slqBaseHi, 19, 0, .ro, 0⟩
-- SLQ_HALT
def Fld.slqHaltHalted : Fld := ⟨.slqHalt, 7, 4, .ro, 0⟩
def Fld.slqHaltHalt : Fld := ⟨.slqHalt, 3, 0, .rw, 0⟩
-- SLQ_GSTS
def Fld.slqGstsStray : Fld := ⟨.slqGsts, 31, 16, .rc, 0⟩
def Fld.slqGstsMalf : Fld := ⟨.slqGsts, 15, 0, .rc, 0⟩
-- SLQ_POOL
def Fld.slqPoolFree : Fld := ⟨.slqPool, 14, 0, .ro, 0x4000⟩
-- SLQ_FDB
def Fld.slqFdbDb : Fld := ⟨.slqFdb, 31, 0, .wo, 0⟩
-- SLQ_FSTS
def Fld.slqFstsEn : Fld := ⟨.slqFsts, 31, 31, .ro, 0⟩
def Fld.slqFstsBusy : Fld := ⟨.slqFsts, 30, 30, .ro, 0⟩
def Fld.slqFstsDone : Fld := ⟨.slqFsts, 15, 0, .rc, 0⟩
-- HRV_DB
def Fld.hrvDbDb : Fld := ⟨.hrvDb, 31, 0, .wo, 0⟩
-- HRV_CTL
def Fld.hrvCtlRetry : Fld := ⟨.hrvCtl, 31, 31, .w1s, 0⟩
-- HRV_STS
def Fld.hrvStsValid : Fld := ⟨.hrvSts, 31, 31, .ro, 0⟩
def Fld.hrvStsError : Fld := ⟨.hrvSts, 30, 30, .ro, 0⟩
def Fld.hrvStsWaiting : Fld := ⟨.hrvSts, 29, 29, .ro, 0⟩
def Fld.hrvStsTimer : Fld := ⟨.hrvSts, 28, 28, .ro, 0⟩
def Fld.hrvStsPending : Fld := ⟨.hrvSts, 27, 16, .ro, 0⟩
def Fld.hrvStsTail : Fld := ⟨.hrvSts, 15, 0, .ro, 0⟩
-- HRV_CFG
def Fld.hrvCfgClass : Fld := ⟨.hrvCfg, 31, 30, .ro, 0⟩
def Fld.hrvCfgPort : Fld := ⟨.hrvCfg, 29, 26, .ro, 0⟩
def Fld.hrvCfgCreator : Fld := ⟨.hrvCfg, 25, 24, .ro, 0⟩
def Fld.hrvCfgSrc : Fld := ⟨.hrvCfg, 23, 13, .ro, 0⟩
def Fld.hrvCfgPages : Fld := ⟨.hrvCfg, 9, 0, .ro, 0⟩
-- HRV_MOD
def Fld.hrvModCnt : Fld := ⟨.hrvMod, 31, 24, .rw, 1⟩
def Fld.hrvModTime : Fld := ⟨.hrvMod, 15, 0, .rw, 0⟩
-- HRV_BASE_LO
def Fld.hrvBaseLoBaseLo : Fld := ⟨.hrvBaseLo, 31, 12, .ro, 0⟩
-- HRV_BASE_HI
def Fld.hrvBaseHiBaseHi : Fld := ⟨.hrvBaseHi, 19, 0, .ro, 0⟩
-- STK_CHMODE
def Fld.stkChmodeCeil : Fld := ⟨.stkChmode, 31, 28, .ro, 0⟩
def Fld.stkChmodeCurMode : Fld := ⟨.stkChmode, 27, 24, .ro, 0⟩
def Fld.stkChmodeRbPu : Fld := ⟨.stkChmode, 23, 23, .rw, 1⟩
def Fld.stkChmodeTrackEn : Fld := ⟨.stkChmode, 22, 22, .rw, 1⟩
def Fld.stkChmodeRlock : Fld := ⟨.stkChmode, 21, 21, .ro, 0⟩
def Fld.stkChmodeZqDflt : Fld := ⟨.stkChmode, 20, 20, .ro, 0⟩
def Fld.stkChmodeCurRate : Fld := ⟨.stkChmode, 15, 0, .ro, 0⟩
-- STK_TGTCFG
def Fld.stkTgtcfgOnline : Fld := ⟨.stkTgtcfg, 31, 31, .ro, 0⟩
def Fld.stkTgtcfgKx : Fld := ⟨.stkTgtcfg, 30, 30, .ro, 0⟩
def Fld.stkTgtcfgKxReq : Fld := ⟨.stkTgtcfg, 29, 29, .rw, 0⟩
def Fld.stkTgtcfgKxFallbk : Fld := ⟨.stkTgtcfg, 28, 28, .w1c, 0⟩
def Fld.stkTgtcfgTset : Fld := ⟨.stkTgtcfg, 27, 24, .rw, 0⟩
def Fld.stkTgtcfgKxTset : Fld := ⟨.stkTgtcfg, 23, 20, .rw, 0xf⟩
def Fld.stkTgtcfgProfile : Fld := ⟨.stkTgtcfg, 12, 8, .ro, 0⟩
def Fld.stkTgtcfgLunOn : Fld := ⟨.stkTgtcfg, 3, 0, .ro, 0⟩
-- STK_DSK_RD
def Fld.stkDskRdDq7 : Fld := ⟨.stkDskRd, 31, 28, .ro, 0⟩
def Fld.stkDskRdDq6 : Fld := ⟨.stkDskRd, 27, 24, .ro, 0⟩
def Fld.stkDskRdDq5 : Fld := ⟨.stkDskRd, 23, 20, .ro, 0⟩
def Fld.stkDskRdDq4 : Fld := ⟨.stkDskRd, 19, 16, .ro, 0⟩
def Fld.stkDskRdDq3 : Fld := ⟨.stkDskRd, 15, 12, .ro, 0⟩
def Fld.stkDskRdDq2 : Fld := ⟨.stkDskRd, 11, 8, .ro, 0⟩
def Fld.stkDskRdDq1 : Fld := ⟨.stkDskRd, 7, 4, .ro, 0⟩
def Fld.stkDskRdDq0 : Fld := ⟨.stkDskRd, 3, 0, .ro, 0⟩
-- STK_DSK_WR
def Fld.stkDskWrDq7 : Fld := ⟨.stkDskWr, 31, 28, .ro, 0⟩
def Fld.stkDskWrDq6 : Fld := ⟨.stkDskWr, 27, 24, .ro, 0⟩
def Fld.stkDskWrDq5 : Fld := ⟨.stkDskWr, 23, 20, .ro, 0⟩
def Fld.stkDskWrDq4 : Fld := ⟨.stkDskWr, 19, 16, .ro, 0⟩
def Fld.stkDskWrDq3 : Fld := ⟨.stkDskWr, 15, 12, .ro, 0⟩
def Fld.stkDskWrDq2 : Fld := ⟨.stkDskWr, 11, 8, .ro, 0⟩
def Fld.stkDskWrDq1 : Fld := ⟨.stkDskWr, 7, 4, .ro, 0⟩
def Fld.stkDskWrDq0 : Fld := ⟨.stkDskWr, 3, 0, .ro, 0⟩
-- STK_DSK_STS
def Fld.stkDskStsRdLim : Fld := ⟨.stkDskSts, 31, 24, .w1c, 0⟩
def Fld.stkDskStsWrLim : Fld := ⟨.stkDskSts, 23, 16, .w1c, 0⟩
def Fld.stkDskStsSteps : Fld := ⟨.stkDskSts, 15, 0, .rc, 0⟩
-- STK_KX_CNT
def Fld.stkKxCntCaCrc : Fld := ⟨.stkKxCnt, 31, 24, .rc, 0⟩
def Fld.stkKxCntDinCrc : Fld := ⟨.stkKxCnt, 23, 16, .rc, 0⟩
def Fld.stkKxCntDoutCrc : Fld := ⟨.stkKxCnt, 15, 8, .rc, 0⟩
def Fld.stkKxCntEscapes : Fld := ⟨.stkKxCnt, 7, 0, .rc, 0⟩
-- STK_STS
def Fld.stkStsFault : Fld := ⟨.stkSts, 31, 31, .ro, 0⟩
def Fld.stkStsCause : Fld := ⟨.stkSts, 30, 27, .ro, 0⟩
def Fld.stkStsFaultUpc : Fld := ⟨.stkSts, 26, 12, .ro, 0⟩
def Fld.stkStsActSlot : Fld := ⟨.stkSts, 11, 6, .ro, 0x3f⟩
def Fld.stkStsBusy : Fld := ⟨.stkSts, 5, 0, .ro, 0⟩
-- STK_UCODE_VER
def Fld.stkUcodeVerPatchVer : Fld := ⟨.stkUcodeVer, 31, 16, .ro, 0⟩
def Fld.stkUcodeVerRomVer : Fld := ⟨.stkUcodeVer, 15, 0, .ro, 0x103⟩
-- STK_UCODE_STS
def Fld.stkUcodeStsReject : Fld := ⟨.stkUcodeSts, 26, 24, .ro, 0⟩
def Fld.stkUcodeStsMatchCnt : Fld := ⟨.stkUcodeSts, 21, 16, .ro, 0⟩
def Fld.stkUcodeStsXoWr : Fld := ⟨.stkUcodeSts, 1, 1, .w1c, 0⟩
def Fld.stkUcodeStsXoRd : Fld := ⟨.stkUcodeSts, 0, 0, .w1c, 0⟩
-- STK_WDOG
def Fld.stkWdogLimit : Fld := ⟨.stkWdog, 12, 0, .rw, 0x1000⟩
-- STK_POLL
def Fld.stkPollInterval : Fld := ⟨.stkPoll, 15, 0, .rw, 0x7d0⟩
-- STK_RAW_CTL
def Fld.stkRawCtlEn : Fld := ⟨.stkRawCtl, 31, 31, .rw, 0⟩
def Fld.stkRawCtlReady : Fld := ⟨.stkRawCtl, 30, 30, .ro, 0⟩
def Fld.stkRawCtlTgt : Fld := ⟨.stkRawCtl, 29, 27, .rw, 0⟩
def Fld.stkRawCtlTmo : Fld := ⟨.stkRawCtl, 15, 0, .rw, 0x4e20⟩
-- STK_RAW_STS
def Fld.stkRawStsRb : Fld := ⟨.stkRawSts, 31, 31, .ro, 0⟩
def Fld.stkRawStsTmo : Fld := ⟨.stkRawSts, 30, 30, .w1c, 0⟩
def Fld.stkRawStsRefused : Fld := ⟨.stkRawSts, 29, 29, .w1c, 0⟩
-- STK_DBG_CTL
def Fld.stkDbgCtlHalt : Fld := ⟨.stkDbgCtl, 31, 31, .rw, 0⟩
def Fld.stkDbgCtlStep : Fld := ⟨.stkDbgCtl, 30, 30, .wo, 0⟩
def Fld.stkDbgCtlHalted : Fld := ⟨.stkDbgCtl, 29, 29, .ro, 0⟩
def Fld.stkDbgCtlUpc : Fld := ⟨.stkDbgCtl, 14, 0, .ro, 0⟩
-- STK_AOP_CNT
def Fld.stkAopCntPfail : Fld := ⟨.stkAopCnt, 31, 24, .rc, 0⟩
def Fld.stkAopCntEfail : Fld := ⟨.stkAopCnt, 23, 16, .rc, 0⟩
def Fld.stkAopCntEsusp : Fld := ⟨.stkAopCnt, 15, 8, .rc, 0⟩
def Fld.stkAopCntAtmo : Fld := ⟨.stkAopCnt, 7, 0, .rc, 0⟩
-- STK_MATCH
def Fld.stkMatchEn : Fld := ⟨.stkMatch, 31, 31, .ro, 0⟩
def Fld.stkMatchRomAddr : Fld := ⟨.stkMatch, 23, 10, .ro, 0⟩
def Fld.stkMatchPatchAddr : Fld := ⟨.stkMatch, 9, 0, .ro, 0⟩
-- STK_TSET_W0
def Fld.stkTsetW0Mode : Fld := ⟨.stkTsetW0, 31, 28, .rw, 0⟩
def Fld.stkTsetW0SdrTm : Fld := ⟨.stkTsetW0, 27, 25, .rw, 0⟩
def Fld.stkTsetW0Diff : Fld := ⟨.stkTsetW0, 24, 24, .rw, 0⟩
def Fld.stkTsetW0Rate : Fld := ⟨.stkTsetW0, 15, 0, .rw, 0⟩
-- STK_TSET_W1
def Fld.stkTsetW1OdtEng : Fld := ⟨.stkTsetW1, 31, 24, .rw, 0⟩
def Fld.stkTsetW1DrvEng : Fld := ⟨.stkTsetW1, 23, 16, .rw, 1⟩
def Fld.stkTsetW1OdtDie : Fld := ⟨.stkTsetW1, 15, 8, .rw, 0⟩
def Fld.stkTsetW1DrvDie : Fld := ⟨.stkTsetW1, 7, 0, .rw, 0⟩
-- STK_TSET_W2
def Fld.stkTsetW2PreW : Fld := ⟨.stkTsetW2, 31, 24, .rw, 0⟩
def Fld.stkTsetW2PreR : Fld := ⟨.stkTsetW2, 23, 16, .rw, 0⟩
def Fld.stkTsetW2PostW : Fld := ⟨.stkTsetW2, 15, 8, .rw, 0⟩
def Fld.stkTsetW2PostR : Fld := ⟨.stkTsetW2, 7, 0, .rw, 0⟩
-- STK_TSET_W3
def Fld.stkTsetW3TAdl : Fld := ⟨.stkTsetW3, 31, 16, .rw, 0⟩
def Fld.stkTsetW3TWhr : Fld := ⟨.stkTsetW3, 15, 0, .rw, 0⟩
-- STK_TSET_W4
def Fld.stkTsetW4TCcs : Fld := ⟨.stkTsetW4, 31, 16, .rw, 0⟩
def Fld.stkTsetW4TRhw : Fld := ⟨.stkTsetW4, 15, 0, .rw, 0⟩
-- STK_TSET_W5
def Fld.stkTsetW5TWb : Fld := ⟨.stkTsetW5, 31, 16, .rw, 0⟩
def Fld.stkTsetW5TCs : Fld := ⟨.stkTsetW5, 15, 0, .rw, 0⟩
-- STK_TSET_W6
def Fld.stkTsetW6TCh : Fld := ⟨.stkTsetW6, 31, 16, .rw, 0⟩
def Fld.stkTsetW6TRr : Fld := ⟨.stkTsetW6, 15, 0, .rw, 0⟩
-- STK_TSET_W7
def Fld.stkTsetW7VrefDie : Fld := ⟨.stkTsetW7, 31, 24, .rw, 0⟩
def Fld.stkTsetW7VrefEng : Fld := ⟨.stkTsetW7, 23, 16, .rw, 0x40⟩

/-- The fields of each register, its reserved bits left out (they read 0 and take no write, R4). -/
def RegKind.fields : RegKind → List Fld
  | .glbId => [Fld.glbIdStepping, Fld.glbIdPart, Fld.glbIdKxEn]
  | .glbVer => [Fld.glbVerHwRev, Fld.glbVerKfmt]
  | .glbHid => [Fld.glbHidSet, Fld.glbHidLock, Fld.glbHidHid]
  | .glbTimeLo => [Fld.glbTimeLoTime]
  | .glbTimeHi => [Fld.glbTimeHiTime]
  | .glbBootSts => [Fld.glbBootStsFailStage, Fld.glbBootStsFailCode, Fld.glbBootStsFormatted, Fld.glbBootStsTwin, Fld.glbBootStsImgSlot, Fld.glbBootStsXspi1s, Fld.glbBootStsDemandMap, Fld.glbBootStsLedgerSeed, Fld.glbBootStsStage]
  | .glbBootCnt => [Fld.glbBootCntLunOff, Fld.glbBootCntTgtOff, Fld.glbBootCntChOff]
  | .glbBankSts => [Fld.glbBankStsBanked, Fld.glbBankStsPinsDone, Fld.glbBankStsCause, Fld.glbBankStsChWait]
  | .glbBankTimeLo => [Fld.glbBankTimeLoTime]
  | .glbBankTimeHi => [Fld.glbBankTimeHiTime]
  | .glbBankReq => [Fld.glbBankReqGo, Fld.glbBankReqConfirm]
  | .glbLogCtl => [Fld.glbLogCtlMirEn, Fld.glbLogCtlPort, Fld.glbLogCtlMpages]
  | .glbLogMbaseLo => [Fld.glbLogMbaseLoBase]
  | .glbLogMbaseHi => [Fld.glbLogMbaseHiBase]
  | .glbLogSeq => [Fld.glbLogSeqSeq]
  | .pwrCtl => [Fld.pwrCtlP1En, Fld.pwrCtlP2Req, Fld.pwrCtlP3Req]
  | .pwrCfg => [Fld.pwrCfgP1Idle, Fld.pwrCfgSrHold]
  | .pwrSts => [Fld.pwrStsState, Fld.pwrStsSr, Fld.pwrStsEmbPend, Fld.pwrStsEmbClkLoss, Fld.pwrStsWake, Fld.pwrStsRefuse]
  | .pwrWakeLo => [Fld.pwrWakeLoAt]
  | .pwrWakeHi => [Fld.pwrWakeHiAlarmEn, Fld.pwrWakeHiAt]
  | .pwrEmbLo => [Fld.pwrEmbLoCnt]
  | .pwrEmbHi => [Fld.pwrEmbHiCnt]
  | .pwrCnt => [Fld.pwrCntP1, Fld.pwrCntP2, Fld.pwrCntAbort]
  | .pwrWdogCfg => [Fld.pwrWdogCfgPolMs, Fld.pwrWdogCfgFbMs]
  | .pwrWdogKick => [Fld.pwrWdogKickKick]
  | .pwrErrCnt => [Fld.pwrErrCntCorr, Fld.pwrErrCntContained, Fld.pwrErrCntBreaks]
  | .trpSts => [Fld.trpStsFwLive, Fld.trpStsThermLive, Fld.trpStsPfailLive, Fld.trpStsFw, Fld.trpStsTherm, Fld.trpStsPfail]
  | .trpCnt => [Fld.trpCntFwRl, Fld.trpCntThermRl, Fld.trpCntPfailRl, Fld.trpCntLatches]
  | .lckCtl => [Fld.lckCtlAcq, Fld.lckCtlRel]
  | .lckSts => [Fld.lckStsHeld, Fld.lckStsBroken, Fld.lckStsLeft, Fld.lckStsOwner]
  | .lckCfg => [Fld.lckCfgLease]
  | .lckOwnerRst => [Fld.lckOwnerRstGo, Fld.lckOwnerRstId]
  | .lckGsts => [Fld.lckGstsBreaks, Fld.lckGstsRefused]
  | .dbgCtl => [Fld.dbgCtlNewchal, Fld.dbgCtlVerify, Fld.dbgCtlClose, Fld.dbgCtlOpen]
  | .dbgSts => [Fld.dbgStsLevel, Fld.dbgStsBusy, Fld.dbgStsChal, Fld.dbgStsRefused, Fld.dbgStsTamper, Fld.dbgStsFails, Fld.dbgStsResult, Fld.dbgStsScope]
  | .dbgFbxCtl => [Fld.dbgFbxCtlHalt, Fld.dbgFbxCtlStep, Fld.dbgFbxCtlHalted, Fld.dbgFbxCtlPc]
  | .dbgChal => [Fld.dbgChalChal]
  | .dbgResp => [Fld.dbgRespResp]
  | .sicPpendLo => [Fld.sicPpendLoPend]
  | .sicPpendHi => [Fld.sicPpendHiPend]
  | .sicPmskLo => [Fld.sicPmskLoMsk]
  | .sicPmskHi => [Fld.sicPmskHiMsk]
  | .sicPprio => [Fld.sicPprioPrio]
  | .sicClaim => [Fld.sicClaimId]
  | .sicEoi => [Fld.sicEoiId]
  | .sicThr => [Fld.sicThrEoiErr, Fld.sicThrWake, Fld.sicThrIrq, Fld.sicThrDepth, Fld.sicThrCur, Fld.sicThrBase]
  | .sicSpend => [Fld.sicSpendPend]
  | .sicSmsk => [Fld.sicSmskMsk]
  | .sicSwi => [Fld.sicSwiTgt, Fld.sicSwiSrc]
  | .sicRoute => [Fld.sicRouteTgt, Fld.sicRoutePrio]
  | .secSts => [Fld.secStsLc, Fld.secStsLcNext, Fld.secStsLcPend, Fld.secStsTamper, Fld.secStsXoRd, Fld.secStsXoWr, Fld.secStsNsErr, Fld.secStsRbgOk]
  | .secCtr => [Fld.secCtrKrb, Fld.secCtrFrb, Fld.secCtrEpoch]
  | .secId => [Fld.secIdId]
  | .secStCfg => [Fld.secStCfgHours]
  | .secStCtl => [Fld.secStCtlRun, Fld.secStCtlBusy, Fld.secStCtlRuns]
  | .secZero => [Fld.secZeroGo, Fld.secZeroConfirm]
  | .secSanCtl => [Fld.secSanCtlGo, Fld.secSanCtlCrypto, Fld.secSanCtlBlock, Fld.secSanCtlConfirm]
  | .secSanSts => [Fld.secSanStsActive, Fld.secSanStsDone, Fld.secSanStsPhase, Fld.secSanStsExhausted, Fld.secSanStsUnits]
  | .secLcCtl => [Fld.secLcCtlGo, Fld.secLcCtlTarget, Fld.secLcCtlConfirm]
  | .secAccSts => [Fld.secAccStsRefused, Fld.secAccStsLastId, Fld.secAccStsCount]
  | .secAccOfs => [Fld.secAccOfsOfs]
  | .secKcmd => [Fld.secKcmdGo, Fld.secKcmdOp, Fld.secKcmdSlot]
  | .secKsts => [Fld.secKstsBusy, Fld.secKstsResult, Fld.secKstsLoaded]
  | .secKbuf => [Fld.secKbufBuf]
  | .secKmap => [Fld.secKmapLoaded]
  | .secFmwCtl => [Fld.secFmwCtlValid, Fld.secFmwCtlWr, Fld.secFmwCtlMovers]
  | .secFmwBaseLo => [Fld.secFmwBaseLoBase]
  | .secFmwBaseHi => [Fld.secFmwBaseHiBase]
  | .secFmwSize => [Fld.secFmwSizePages]
  | .secNsCtl => [Fld.secNsCtlValid, Fld.secNsCtlBusy, Fld.secNsCtlKeyidx]
  | .secNsBaseLo => [Fld.secNsBaseLoBase]
  | .secNsBaseHi => [Fld.secNsBaseHiBase]
  | .secNsSizeLo => [Fld.secNsSizeLoSize]
  | .secNsSizeHi => [Fld.secNsSizeHiSize]
  | .drgCtl => [Fld.drgCtlCeilEn]
  | .drgSts => [Fld.drgStsStop, Fld.drgStsStale, Fld.drgStsCfgerr, Fld.drgStsStops]
  | .drgSnsErr => [Fld.drgSnsErrParity, Fld.drgSnsErrBadsrc]
  | .drgStaleLo => [Fld.drgStaleLoStale]
  | .drgStaleHi => [Fld.drgStaleHiStale]
  | .drgAdmCfg => [Fld.drgAdmCfgOpsMax, Fld.drgAdmCfgBwMax]
  | .drgCeilCfg => [Fld.drgCeilCfgILim, Fld.drgCeilCfgNeval, Fld.drgCeilCfgIHyst]
  | .drgCeilCfg2 => [Fld.drgCeilCfg2TLim, Fld.drgCeilCfg2THyst]
  | .drgCeilMskLo => [Fld.drgCeilMskLoMsk]
  | .drgCeilMskHi => [Fld.drgCeilMskHiMsk]
  | .drgGrpSts => [Fld.drgGrpStsInfl, Fld.drgGrpStsAdmit]
  | .drgLoopCtl => [Fld.drgLoopCtlEn, Fld.drgLoopCtlFreeze, Fld.drgLoopCtlFfEn, Fld.drgLoopCtlAgg, Fld.drgLoopCtlInsh, Fld.drgLoopCtlGrp]
  | .drgLoopSrcLo => [Fld.drgLoopSrcLoSrc]
  | .drgLoopSrcHi => [Fld.drgLoopSrcHiSrc]
  | .drgLoopTgt => [Fld.drgLoopTgtTgt]
  | .drgLoopKp => [Fld.drgLoopKpKp]
  | .drgLoopKi => [Fld.drgLoopKiKi]
  | .drgLoopKd => [Fld.drgLoopKdKd]
  | .drgLoopVmax => [Fld.drgLoopVmaxVmax]
  | .drgLoopAmax => [Fld.drgLoopAmaxAmax]
  | .drgLoopJmax => [Fld.drgLoopJmaxJmax]
  | .drgLoopIinit => [Fld.drgLoopIinitIinit]
  | .drgLoopStale => [Fld.drgLoopStaleLvl]
  | .drgLoopSp => [Fld.drgLoopSpSp]
  | .drgLoopI => [Fld.drgLoopII]
  | .drgLoopSts => [Fld.drgLoopStsWraps, Fld.drgLoopStsStale, Fld.drgLoopStsBase]
  | .drgFfStep => [Fld.drgFfStepTerm]
  | .drgFfBias => [Fld.drgFfBiasTerm]
  | .calCtl => [Fld.calCtlEn, Fld.calCtlLedgerEn, Fld.calCtlThresh, Fld.calCtlMinGap]
  | .calDeadline => [Fld.calDeadlineMs]
  | .calGb => [Fld.calGbLoadthr]
  | .calReq => [Fld.calReqGo, Fld.calReqCh, Fld.calReqTmask]
  | .calSts => [Fld.calStsActive, Fld.calStsPend, Fld.calStsFails]
  | .calCnt => [Fld.calCntCnt]
  | .calLastLo => [Fld.calLastLoLast]
  | .calLastHi => [Fld.calLastHiLast]
  | .calDlmiss => [Fld.calDlmissLuns, Fld.calDlmissSweeps]
  | .calCsel => [Fld.calCselCh, Fld.calCselTgt, Fld.calCselDir]
  | .calCdat0 => [Fld.calCdat0Dq30]
  | .calCdat1 => [Fld.calCdat1Dq74]
  | .calCdat2 => [Fld.calCdat2Pu, Fld.calCdat2Pd, Fld.calCdat2Dcc, Fld.calCdat2Gb]
  | .calCsts => [Fld.calCstsTlast, Fld.calCstsResult, Fld.calCstsRuns]
  | .calCtime => [Fld.calCtimeTime]
  | .cryCtl => [Fld.cryCtlLearn, Fld.cryCtlErasedMax]
  | .cryLadder => [Fld.cryLadderMaxC1, Fld.cryLadderMaxC2, Fld.cryLadderMaxC3, Fld.cryLadderSoftC3, Fld.cryLadderSoftC2, Fld.cryLadderSoftC1]
  | .cryGaugeCfg => [Fld.cryGaugeCfgThresh, Fld.cryGaugeCfgClamp, Fld.cryGaugeCfgSpan]
  | .crySoftCfg => [Fld.crySoftCfgDelta, Fld.crySoftCfgLlrStrong, Fld.crySoftCfgLlrWeak]
  | .cryWarn => [Fld.cryWarnThresh, Fld.cryWarnMstep]
  | .cryHardOos0 => [Fld.cryHardOos0Oos]
  | .cryHardOos1 => [Fld.cryHardOos1Oos]
  | .crySoftOos => [Fld.crySoftOosOos]
  | .cryCwCnt => [Fld.cryCwCntCw]
  | .cryFirstFail => [Fld.cryFirstFailFail]
  | .cryOutCnt => [Fld.cryOutCntRetryOk, Fld.cryOutCntSoftOk, Fld.cryOutCntUncorr, Fld.cryOutCntMiscorr]
  | .cryGaugeSts => [Fld.cryGaugeStsLimit, Fld.cryGaugeStsDataerr, Fld.cryGaugeStsErased]
  | .cryLvlmap => [Fld.cryLvlmapValid, Fld.cryLvlmapOwner]
  | .cryGrdCtl => [Fld.cryGrdCtlC0Rsv]
  | .cryGrdPaddr => [Fld.cryGrdPaddrAutoinc, Fld.cryGrdPaddrAddr]
  | .cryGrdPdataLo => [Fld.cryGrdPdataLoLo]
  | .cryGrdPdataHi => [Fld.cryGrdPdataHiHi]
  | .cryGrdLdsts => [Fld.cryGrdLdstsErr, Fld.cryGrdLdstsWidx, Fld.cryGrdLdstsInuse]
  | .cryGrdFbusy0 => [Fld.cryGrdFbusy0Busy]
  | .cryGrdFbusy1 => [Fld.cryGrdFbusy1Busy]
  | .cryGrdSts => [Fld.cryGrdStsOos, Fld.cryGrdStsBadref]
  | .cryGrdTiles => [Fld.cryGrdTilesTiles]
  | .cryGrdMatch => [Fld.cryGrdMatchMatch]
  | .cryGrdFlags => [Fld.cryGrdFlagsVrec, Fld.cryGrdFlagsZrec]
  | .cryGrdPdesc => [Fld.cryGrdPdescValid, Fld.cryGrdPdescBusy, Fld.cryGrdPdescFbusy, Fld.cryGrdPdescLenm1, Fld.cryGrdPdescStart]
  | .cryGrdFmtW0 => [Fld.cryGrdFmtW0Valid, Fld.cryGrdFmtW0Onflag, Fld.cryGrdFmtW0Loc, Fld.cryGrdFmtW0Proj, Fld.cryGrdFmtW0Rlen, Fld.cryGrdFmtW0Hdr]
  | .cryGrdFmtW1 => [Fld.cryGrdFmtW1CntEn, Fld.cryGrdFmtW1CntOfs, Fld.cryGrdFmtW1Ven, Fld.cryGrdFmtW1Vbit, Fld.cryGrdFmtW1Vofs]
  | .cryGrdFmtW2 => [Fld.cryGrdFmtW2OutLen, Fld.cryGrdFmtW2OutOff]
  | .cryGrdFmtW3 => []
  | .mapSetSts => [Fld.mapSetStsSets, Fld.mapSetStsSpares, Fld.mapSetStsDegr1, Fld.mapSetStsDegr2]
  | .mapRaCfg => [Fld.mapRaCfgRaEn, Fld.mapRaCfgRate]
  | .mapHotCfg => [Fld.mapHotCfgRcnt, Fld.mapHotCfgQdepth, Fld.mapHotCfgRelocRate]
  | .mapC0Cnt => [Fld.mapC0CntRa, Fld.mapC0CntDefer]
  | .mapC0Cnt2 => [Fld.mapC0Cnt2RaDeny, Fld.mapC0Cnt2CmtLate]
  | .mapRbSts => [Fld.mapRbStsActive, Fld.mapRbStsDrain, Fld.mapRbStsSet, Fld.mapRbStsSlot, Fld.mapRbStsQueued]
  | .mapRbProg => [Fld.mapRbProgGroups]
  | .mapPanDmax => [Fld.mapPanDmaxDmax]
  | .mapPanLimit => [Fld.mapPanLimitLimit]
  | .mapPanOcc => [Fld.mapPanOccOcc]
  | .mapMirOcc => [Fld.mapMirOccOcc]
  | .mapPanCfg => [Fld.mapPanCfgWindowMs, Fld.mapPanCfgHiwat, Fld.mapPanCfgLowat]
  | .mapTwinSts => [Fld.mapTwinStsState, Fld.mapTwinStsPeerHid, Fld.mapTwinStsLosses, Fld.mapTwinStsRefetch]
  | .mapFlushSts => [Fld.mapFlushStsActive, Fld.mapFlushStsDone, Fld.mapFlushStsReloadInc, Fld.mapFlushStsOver, Fld.mapFlushStsStreams, Fld.mapFlushStsPoison, Fld.mapFlushStsReloaded]
  | .mapCcCtl => [Fld.mapCcCtlEn]
  | .mapCcSts => [Fld.mapCcStsFlushing, Fld.mapCcStsWbErr, Fld.mapCcStsDirtyK]
  | .mapCcHit => [Fld.mapCcHitHit]
  | .mapCcMiss => [Fld.mapCcMissMiss]
  | .mapPfCfg => [Fld.mapPfCfgDepth]
  | .mapRclCfg => [Fld.mapRclCfgStart, Fld.mapRclCfgUrgent, Fld.mapRclCfgHostFloor]
  | .mapWearCfg => [Fld.mapWearCfgDelta]
  | .mapWearSts => [Fld.mapWearStsMaxpec, Fld.mapWearStsOver]
  | .mapRclSts => [Fld.mapRclStsLowset, Fld.mapRclStsLowfree, Fld.mapRclStsFloored, Fld.mapRclStsRetired]
  | .mapRakeCfg => [Fld.mapRakeCfgPatrolH, Fld.mapRakeCfgRetainD, Fld.mapRakeCfgRate]
  | .mapRakeSts => [Fld.mapRakeStsPending, Fld.mapRakeStsDone]
  | .mapCkptCfg => [Fld.mapCkptCfgTrig]
  | .mapCkptSts => [Fld.mapCkptStsActive, Fld.mapCkptStsSmall, Fld.mapCkptStsAreaBad, Fld.mapCkptStsHeld, Fld.mapCkptStsCkptNo]
  | .mapRepairSts => [Fld.mapRepairStsRepairs, Fld.mapRepairStsPoisoned]
  | .mapWaHost => [Fld.mapWaHostTiles]
  | .mapWaMedia => [Fld.mapWaMediaTiles]
  | .belCtl => [Fld.belCtlEn, Fld.belCtlPause, Fld.belCtlGo]
  | .belCfg => [Fld.belCfgSealed, Fld.belCfgPrio, Fld.belCfgPort, Fld.belCfgVc, Fld.belCfgDoneIrq, Fld.belCfgSrc, Fld.belCfgCtxs]
  | .belSts => [Fld.belStsState, Fld.belStsPc, Fld.belStsCode, Fld.belStsElemDone, Fld.belStsOutst]
  | .belFaddrLo => [Fld.belFaddrLoAddr]
  | .belFaddrHi => [Fld.belFaddrHiAddr]
  | .belJobs => [Fld.belJobsJobs]
  | .belA0Lo => [Fld.belA0LoALo]
  | .belA0Hi => [Fld.belA0HiAHi]
  | .belA1Lo => [Fld.belA1LoALo]
  | .belA1Hi => [Fld.belA1HiAHi]
  | .belBreg => [Fld.belBregB1, Fld.belBregB0]
  | .belLc => [Fld.belLcLc1, Fld.belLcLc0]
  | .belFlag => [Fld.belFlagFlag]
  | .belElemLo => [Fld.belElemLoAddrLo]
  | .belElemHi => [Fld.belElemHiLenm1, Fld.belElemHiAddrHi]
  | .belProg => [Fld.belProgInstr]
  | .belGsts => [Fld.belGstsC0Wait, Fld.belGstsFaults]
  | .belSctxBusy => [Fld.belSctxBusyBusy]
  | .slqDb => [Fld.slqDbLimit]
  | .slqCtl => [Fld.slqCtlEn]
  | .slqSts => [Fld.slqStsIdle, Fld.slqStsError, Fld.slqStsScan, Fld.slqStsDbPend, Fld.slqStsWaitHrv, Fld.slqStsErrCode, Fld.slqStsErrIdx]
  | .slqHead => [Fld.slqHeadOut, Fld.slqHeadHead]
  | .slqCfg => [Fld.slqCfgValid, Fld.slqCfgClass, Fld.slqCfgStrict, Fld.slqCfgOwner, Fld.slqCfgCreator, Fld.slqCfgWeight, Fld.slqCfgBurst, Fld.slqCfgPages]
  | .slqCfg2 => [Fld.slqCfg2Client, Fld.slqCfg2Hrv]
  | .slqNs => [Fld.slqNsNsid, Fld.slqNsMaxout]
  | .slqBaseLo => [Fld.slqBaseLoBaseLo]
  | .slqBaseHi => [Fld.slqBaseHiBaseHi]
  | .slqHalt => [Fld.slqHaltHalted, Fld.slqHaltHalt]
  | .slqGsts => [Fld.slqGstsStray, Fld.slqGstsMalf]
  | .slqPool => [Fld.slqPoolFree]
  | .slqFdb => [Fld.slqFdbDb]
  | .slqFsts => [Fld.slqFstsEn, Fld.slqFstsBusy, Fld.slqFstsDone]
  | .hrvDb => [Fld.hrvDbDb]
  | .hrvCtl => [Fld.hrvCtlRetry]
  | .hrvSts => [Fld.hrvStsValid, Fld.hrvStsError, Fld.hrvStsWaiting, Fld.hrvStsTimer, Fld.hrvStsPending, Fld.hrvStsTail]
  | .hrvCfg => [Fld.hrvCfgClass, Fld.hrvCfgPort, Fld.hrvCfgCreator, Fld.hrvCfgSrc, Fld.hrvCfgPages]
  | .hrvMod => [Fld.hrvModCnt, Fld.hrvModTime]
  | .hrvBaseLo => [Fld.hrvBaseLoBaseLo]
  | .hrvBaseHi => [Fld.hrvBaseHiBaseHi]
  | .stkChmode => [Fld.stkChmodeCeil, Fld.stkChmodeCurMode, Fld.stkChmodeRbPu, Fld.stkChmodeTrackEn, Fld.stkChmodeRlock, Fld.stkChmodeZqDflt, Fld.stkChmodeCurRate]
  | .stkTgtcfg => [Fld.stkTgtcfgOnline, Fld.stkTgtcfgKx, Fld.stkTgtcfgKxReq, Fld.stkTgtcfgKxFallbk, Fld.stkTgtcfgTset, Fld.stkTgtcfgKxTset, Fld.stkTgtcfgProfile, Fld.stkTgtcfgLunOn]
  | .stkDskRd => [Fld.stkDskRdDq7, Fld.stkDskRdDq6, Fld.stkDskRdDq5, Fld.stkDskRdDq4, Fld.stkDskRdDq3, Fld.stkDskRdDq2, Fld.stkDskRdDq1, Fld.stkDskRdDq0]
  | .stkDskWr => [Fld.stkDskWrDq7, Fld.stkDskWrDq6, Fld.stkDskWrDq5, Fld.stkDskWrDq4, Fld.stkDskWrDq3, Fld.stkDskWrDq2, Fld.stkDskWrDq1, Fld.stkDskWrDq0]
  | .stkDskSts => [Fld.stkDskStsRdLim, Fld.stkDskStsWrLim, Fld.stkDskStsSteps]
  | .stkKxCnt => [Fld.stkKxCntCaCrc, Fld.stkKxCntDinCrc, Fld.stkKxCntDoutCrc, Fld.stkKxCntEscapes]
  | .stkSts => [Fld.stkStsFault, Fld.stkStsCause, Fld.stkStsFaultUpc, Fld.stkStsActSlot, Fld.stkStsBusy]
  | .stkUcodeVer => [Fld.stkUcodeVerPatchVer, Fld.stkUcodeVerRomVer]
  | .stkUcodeSts => [Fld.stkUcodeStsReject, Fld.stkUcodeStsMatchCnt, Fld.stkUcodeStsXoWr, Fld.stkUcodeStsXoRd]
  | .stkWdog => [Fld.stkWdogLimit]
  | .stkPoll => [Fld.stkPollInterval]
  | .stkRawCtl => [Fld.stkRawCtlEn, Fld.stkRawCtlReady, Fld.stkRawCtlTgt, Fld.stkRawCtlTmo]
  | .stkRawSts => [Fld.stkRawStsRb, Fld.stkRawStsTmo, Fld.stkRawStsRefused]
  | .stkDbgCtl => [Fld.stkDbgCtlHalt, Fld.stkDbgCtlStep, Fld.stkDbgCtlHalted, Fld.stkDbgCtlUpc]
  | .stkAopCnt => [Fld.stkAopCntPfail, Fld.stkAopCntEfail, Fld.stkAopCntEsusp, Fld.stkAopCntAtmo]
  | .stkMatch => [Fld.stkMatchEn, Fld.stkMatchRomAddr, Fld.stkMatchPatchAddr]
  | .stkTsetW0 => [Fld.stkTsetW0Mode, Fld.stkTsetW0SdrTm, Fld.stkTsetW0Diff, Fld.stkTsetW0Rate]
  | .stkTsetW1 => [Fld.stkTsetW1OdtEng, Fld.stkTsetW1DrvEng, Fld.stkTsetW1OdtDie, Fld.stkTsetW1DrvDie]
  | .stkTsetW2 => [Fld.stkTsetW2PreW, Fld.stkTsetW2PreR, Fld.stkTsetW2PostW, Fld.stkTsetW2PostR]
  | .stkTsetW3 => [Fld.stkTsetW3TAdl, Fld.stkTsetW3TWhr]
  | .stkTsetW4 => [Fld.stkTsetW4TCcs, Fld.stkTsetW4TRhw]
  | .stkTsetW5 => [Fld.stkTsetW5TWb, Fld.stkTsetW5TCs]
  | .stkTsetW6 => [Fld.stkTsetW6TCh, Fld.stkTsetW6TRr]
  | .stkTsetW7 => [Fld.stkTsetW7VrefDie, Fld.stkTsetW7VrefEng]

/-- Where the first copy of a register lies in the window, and how its copies are laid out: a
list of (count, stride) pairs, outermost index first (Table 19-2). -/
def RegKind.layout : RegKind → Nat × List (Nat × Nat)
  | .glbId => (0x0, [])
  | .glbVer => (0x4, [])
  | .glbHid => (0x8, [])
  | .glbTimeLo => (0xc, [])
  | .glbTimeHi => (0x10, [])
  | .glbBootSts => (0x14, [])
  | .glbBootCnt => (0x18, [])
  | .glbBankSts => (0x1c, [])
  | .glbBankTimeLo => (0x20, [])
  | .glbBankTimeHi => (0x24, [])
  | .glbBankReq => (0x28, [])
  | .glbLogCtl => (0x2c, [])
  | .glbLogMbaseLo => (0x30, [])
  | .glbLogMbaseHi => (0x34, [])
  | .glbLogSeq => (0x38, [])
  | .pwrCtl => (0x100000, [])
  | .pwrCfg => (0x100004, [])
  | .pwrSts => (0x100008, [])
  | .pwrWakeLo => (0x10000c, [])
  | .pwrWakeHi => (0x100010, [])
  | .pwrEmbLo => (0x100014, [])
  | .pwrEmbHi => (0x100018, [])
  | .pwrCnt => (0x10001c, [])
  | .pwrWdogCfg => (0x100020, [])
  | .pwrWdogKick => (0x100024, [])
  | .pwrErrCnt => (0x100028, [])
  | .trpSts => (0x110000, [])
  | .trpCnt => (0x110004, [])
  | .lckCtl => (0x120000, [(256, 0x8)])
  | .lckSts => (0x120004, [(256, 0x8)])
  | .lckCfg => (0x120800, [])
  | .lckOwnerRst => (0x120804, [])
  | .lckGsts => (0x120808, [])
  | .dbgCtl => (0x130000, [])
  | .dbgSts => (0x130004, [])
  | .dbgFbxCtl => (0x130008, [])
  | .dbgChal => (0x130100, [(12, 0x4)])
  | .dbgResp => (0x130200, [(51, 0x4)])
  | .sicPpendLo => (0x200000, [(64, 0x40)])
  | .sicPpendHi => (0x200004, [(64, 0x40)])
  | .sicPmskLo => (0x200008, [(64, 0x40)])
  | .sicPmskHi => (0x20000c, [(64, 0x40)])
  | .sicPprio => (0x200010, [(64, 0x40), (8, 0x4)])
  | .sicClaim => (0x200030, [(64, 0x40)])
  | .sicEoi => (0x200034, [(64, 0x40)])
  | .sicThr => (0x200038, [(64, 0x40)])
  | .sicSpend => (0x201000, [(64, 0x4)])
  | .sicSmsk => (0x201100, [(64, 0x4)])
  | .sicSwi => (0x201200, [])
  | .sicRoute => (0x202000, [(2048, 0x4)])
  | .secSts => (0x300000, [])
  | .secCtr => (0x300004, [])
  | .secId => (0x300008, [(4, 0x4)])
  | .secStCfg => (0x300018, [])
  | .secStCtl => (0x30001c, [])
  | .secZero => (0x300020, [])
  | .secSanCtl => (0x300024, [])
  | .secSanSts => (0x300028, [])
  | .secLcCtl => (0x30002c, [])
  | .secAccSts => (0x300030, [])
  | .secAccOfs => (0x300034, [])
  | .secKcmd => (0x300038, [])
  | .secKsts => (0x30003c, [])
  | .secKbuf => (0x300100, [(32, 0x4)])
  | .secKmap => (0x300180, [(32, 0x4)])
  | .secFmwCtl => (0x300200, [(8, 0x20)])
  | .secFmwBaseLo => (0x300204, [(8, 0x20)])
  | .secFmwBaseHi => (0x300208, [(8, 0x20)])
  | .secFmwSize => (0x30020c, [(8, 0x20)])
  | .secNsCtl => (0x310000, [(1024, 0x20)])
  | .secNsBaseLo => (0x310004, [(1024, 0x20)])
  | .secNsBaseHi => (0x310008, [(1024, 0x20)])
  | .secNsSizeLo => (0x31000c, [(1024, 0x20)])
  | .secNsSizeHi => (0x310010, [(1024, 0x20)])
  | .drgCtl => (0x400000, [])
  | .drgSts => (0x400004, [])
  | .drgSnsErr => (0x400008, [])
  | .drgStaleLo => (0x40000c, [])
  | .drgStaleHi => (0x400010, [])
  | .drgAdmCfg => (0x400014, [])
  | .drgCeilCfg => (0x400018, [])
  | .drgCeilCfg2 => (0x40001c, [])
  | .drgCeilMskLo => (0x400020, [])
  | .drgCeilMskHi => (0x400024, [])
  | .drgGrpSts => (0x400040, [(16, 0x4)])
  | .drgLoopCtl => (0x400100, [(16, 0x40)])
  | .drgLoopSrcLo => (0x400104, [(16, 0x40)])
  | .drgLoopSrcHi => (0x400108, [(16, 0x40)])
  | .drgLoopTgt => (0x40010c, [(16, 0x40)])
  | .drgLoopKp => (0x400110, [(16, 0x40)])
  | .drgLoopKi => (0x400114, [(16, 0x40)])
  | .drgLoopKd => (0x400118, [(16, 0x40)])
  | .drgLoopVmax => (0x40011c, [(16, 0x40)])
  | .drgLoopAmax => (0x400120, [(16, 0x40)])
  | .drgLoopJmax => (0x400124, [(16, 0x40)])
  | .drgLoopIinit => (0x400128, [(16, 0x40)])
  | .drgLoopStale => (0x40012c, [(16, 0x40)])
  | .drgLoopSp => (0x400130, [(16, 0x40)])
  | .drgLoopI => (0x400134, [(16, 0x40)])
  | .drgLoopSts => (0x400138, [(16, 0x40)])
  | .drgFfStep => (0x400500, [(64, 0x4)])
  | .drgFfBias => (0x400600, [(64, 0x4)])
  | .calCtl => (0x500000, [])
  | .calDeadline => (0x500004, [])
  | .calGb => (0x500008, [])
  | .calReq => (0x50000c, [])
  | .calSts => (0x500010, [])
  | .calCnt => (0x500014, [])
  | .calLastLo => (0x500018, [])
  | .calLastHi => (0x50001c, [])
  | .calDlmiss => (0x500020, [])
  | .calCsel => (0x500024, [])
  | .calCdat0 => (0x500028, [])
  | .calCdat1 => (0x50002c, [])
  | .calCdat2 => (0x500030, [])
  | .calCsts => (0x500034, [])
  | .calCtime => (0x500038, [])
  | .cryCtl => (0x600000, [])
  | .cryLadder => (0x600004, [])
  | .cryGaugeCfg => (0x600008, [])
  | .crySoftCfg => (0x60000c, [])
  | .cryWarn => (0x600010, [])
  | .cryHardOos0 => (0x600014, [])
  | .cryHardOos1 => (0x600018, [])
  | .crySoftOos => (0x60001c, [])
  | .cryCwCnt => (0x600020, [])
  | .cryFirstFail => (0x600024, [])
  | .cryOutCnt => (0x600028, [])
  | .cryGaugeSts => (0x60002c, [])
  | .cryLvlmap => (0x600080, [(32, 0x4)])
  | .cryGrdCtl => (0x600100, [])
  | .cryGrdPaddr => (0x600104, [])
  | .cryGrdPdataLo => (0x600108, [])
  | .cryGrdPdataHi => (0x60010c, [])
  | .cryGrdLdsts => (0x600110, [])
  | .cryGrdFbusy0 => (0x600114, [])
  | .cryGrdFbusy1 => (0x600118, [])
  | .cryGrdSts => (0x60011c, [])
  | .cryGrdTiles => (0x600120, [])
  | .cryGrdMatch => (0x600124, [])
  | .cryGrdFlags => (0x600128, [])
  | .cryGrdPdesc => (0x600400, [(256, 0x4)])
  | .cryGrdFmtW0 => (0x600800, [(64, 0x10)])
  | .cryGrdFmtW1 => (0x600804, [(64, 0x10)])
  | .cryGrdFmtW2 => (0x600808, [(64, 0x10)])
  | .cryGrdFmtW3 => (0x60080c, [(64, 0x10)])
  | .mapSetSts => (0x700000, [])
  | .mapRaCfg => (0x700004, [])
  | .mapHotCfg => (0x700008, [])
  | .mapC0Cnt => (0x70000c, [])
  | .mapC0Cnt2 => (0x700010, [])
  | .mapRbSts => (0x700014, [])
  | .mapRbProg => (0x700018, [])
  | .mapPanDmax => (0x70001c, [])
  | .mapPanLimit => (0x700020, [])
  | .mapPanOcc => (0x700024, [])
  | .mapMirOcc => (0x700028, [])
  | .mapPanCfg => (0x70002c, [])
  | .mapTwinSts => (0x700030, [])
  | .mapFlushSts => (0x700034, [])
  | .mapCcCtl => (0x700038, [])
  | .mapCcSts => (0x70003c, [])
  | .mapCcHit => (0x700040, [])
  | .mapCcMiss => (0x700044, [])
  | .mapPfCfg => (0x700048, [])
  | .mapRclCfg => (0x70004c, [])
  | .mapWearCfg => (0x700050, [])
  | .mapWearSts => (0x700054, [])
  | .mapRclSts => (0x700058, [])
  | .mapRakeCfg => (0x70005c, [])
  | .mapRakeSts => (0x700060, [])
  | .mapCkptCfg => (0x700064, [])
  | .mapCkptSts => (0x700068, [])
  | .mapRepairSts => (0x70006c, [])
  | .mapWaHost => (0x700070, [])
  | .mapWaMedia => (0x700074, [])
  | .belCtl => (0x800000, [(64, 0x1000)])
  | .belCfg => (0x800004, [(64, 0x1000)])
  | .belSts => (0x800008, [(64, 0x1000)])
  | .belFaddrLo => (0x80000c, [(64, 0x1000)])
  | .belFaddrHi => (0x800010, [(64, 0x1000)])
  | .belJobs => (0x800014, [(64, 0x1000)])
  | .belA0Lo => (0x830040, [(8, 0x1000)])
  | .belA0Hi => (0x830044, [(8, 0x1000)])
  | .belA1Lo => (0x830048, [(8, 0x1000)])
  | .belA1Hi => (0x83004c, [(8, 0x1000)])
  | .belBreg => (0x830050, [(8, 0x1000)])
  | .belLc => (0x830054, [(8, 0x1000)])
  | .belFlag => (0x830058, [(8, 0x1000)])
  | .belElemLo => (0x830100, [(8, 0x1000), (16, 0x8)])
  | .belElemHi => (0x830104, [(8, 0x1000), (16, 0x8)])
  | .belProg => (0x830200, [(8, 0x1000), (128, 0x4)])
  | .belGsts => (0x840000, [])
  | .belSctxBusy => (0x840004, [(8, 0x4)])
  | .slqDb => (0x1000000, [(4096, 0x40)])
  | .slqCtl => (0x1000004, [(4096, 0x40)])
  | .slqSts => (0x1000008, [(4096, 0x40)])
  | .slqHead => (0x100000c, [(4096, 0x40)])
  | .slqCfg => (0x1000010, [(4096, 0x40)])
  | .slqCfg2 => (0x1000014, [(4096, 0x40)])
  | .slqNs => (0x1000018, [(4096, 0x40)])
  | .slqBaseLo => (0x100001c, [(4096, 0x40)])
  | .slqBaseHi => (0x1000020, [(4096, 0x40)])
  | .slqHalt => (0x1040000, [])
  | .slqGsts => (0x1040004, [])
  | .slqPool => (0x1040008, [])
  | .slqFdb => (0x104000c, [(4, 0x4)])
  | .slqFsts => (0x104001c, [(4, 0x4)])
  | .hrvDb => (0x1100000, [(4096, 0x20)])
  | .hrvCtl => (0x1100004, [(4096, 0x20)])
  | .hrvSts => (0x1100008, [(4096, 0x20)])
  | .hrvCfg => (0x110000c, [(4096, 0x20)])
  | .hrvMod => (0x1100010, [(4096, 0x20)])
  | .hrvBaseLo => (0x1100014, [(4096, 0x20)])
  | .hrvBaseHi => (0x1100018, [(4096, 0x20)])
  | .stkChmode => (0x2001000, [(128, 0x20000)])
  | .stkTgtcfg => (0x2001004, [(128, 0x20000), (8, 0x4)])
  | .stkDskRd => (0x2001024, [(128, 0x20000)])
  | .stkDskWr => (0x2001028, [(128, 0x20000)])
  | .stkDskSts => (0x200102c, [(128, 0x20000)])
  | .stkKxCnt => (0x2001030, [(128, 0x20000)])
  | .stkSts => (0x2001034, [(128, 0x20000)])
  | .stkUcodeVer => (0x2001038, [(128, 0x20000)])
  | .stkUcodeSts => (0x200103c, [(128, 0x20000)])
  | .stkWdog => (0x2001040, [(128, 0x20000)])
  | .stkPoll => (0x2001044, [(128, 0x20000)])
  | .stkRawCtl => (0x2001048, [(128, 0x20000)])
  | .stkRawSts => (0x200104c, [(128, 0x20000)])
  | .stkDbgCtl => (0x2001050, [(128, 0x20000)])
  | .stkAopCnt => (0x2001054, [(128, 0x20000)])
  | .stkMatch => (0x2001100, [(128, 0x20000), (32, 0x4)])
  | .stkTsetW0 => (0x2002000, [(128, 0x20000), (16, 0x20)])
  | .stkTsetW1 => (0x2002004, [(128, 0x20000), (16, 0x20)])
  | .stkTsetW2 => (0x2002008, [(128, 0x20000), (16, 0x20)])
  | .stkTsetW3 => (0x200200c, [(128, 0x20000), (16, 0x20)])
  | .stkTsetW4 => (0x2002010, [(128, 0x20000), (16, 0x20)])
  | .stkTsetW5 => (0x2002014, [(128, 0x20000), (16, 0x20)])
  | .stkTsetW6 => (0x2002018, [(128, 0x20000), (16, 0x20)])
  | .stkTsetW7 => (0x200201c, [(128, 0x20000), (16, 0x20)])

/-- Part 0 of the register kinds, in the order of Table 19-2. -/
def regKinds0 : List RegKind :=
  [.glbId, .glbVer, .glbHid, .glbTimeLo, .glbTimeHi, .glbBootSts, .glbBootCnt, .glbBankSts, .glbBankTimeLo, .glbBankTimeHi, .glbBankReq, .glbLogCtl, .glbLogMbaseLo, .glbLogMbaseHi, .glbLogSeq, .pwrCtl, .pwrCfg, .pwrSts, .pwrWakeLo, .pwrWakeHi, .pwrEmbLo, .pwrEmbHi, .pwrCnt, .pwrWdogCfg, .pwrWdogKick, .pwrErrCnt, .trpSts, .trpCnt, .lckCtl, .lckSts, .lckCfg, .lckOwnerRst, .lckGsts, .dbgCtl, .dbgSts, .dbgFbxCtl, .dbgChal, .dbgResp, .sicPpendLo, .sicPpendHi]

/-- Part 1 of the register kinds, in the order of Table 19-2. -/
def regKinds1 : List RegKind :=
  [.sicPmskLo, .sicPmskHi, .sicPprio, .sicClaim, .sicEoi, .sicThr, .sicSpend, .sicSmsk, .sicSwi, .sicRoute, .secSts, .secCtr, .secId, .secStCfg, .secStCtl, .secZero, .secSanCtl, .secSanSts, .secLcCtl, .secAccSts, .secAccOfs, .secKcmd, .secKsts, .secKbuf, .secKmap, .secFmwCtl, .secFmwBaseLo, .secFmwBaseHi, .secFmwSize, .secNsCtl, .secNsBaseLo, .secNsBaseHi, .secNsSizeLo, .secNsSizeHi, .drgCtl, .drgSts, .drgSnsErr, .drgStaleLo, .drgStaleHi, .drgAdmCfg]

/-- Part 2 of the register kinds, in the order of Table 19-2. -/
def regKinds2 : List RegKind :=
  [.drgCeilCfg, .drgCeilCfg2, .drgCeilMskLo, .drgCeilMskHi, .drgGrpSts, .drgLoopCtl, .drgLoopSrcLo, .drgLoopSrcHi, .drgLoopTgt, .drgLoopKp, .drgLoopKi, .drgLoopKd, .drgLoopVmax, .drgLoopAmax, .drgLoopJmax, .drgLoopIinit, .drgLoopStale, .drgLoopSp, .drgLoopI, .drgLoopSts, .drgFfStep, .drgFfBias, .calCtl, .calDeadline, .calGb, .calReq, .calSts, .calCnt, .calLastLo, .calLastHi, .calDlmiss, .calCsel, .calCdat0, .calCdat1, .calCdat2, .calCsts, .calCtime, .cryCtl, .cryLadder, .cryGaugeCfg]

/-- Part 3 of the register kinds, in the order of Table 19-2. -/
def regKinds3 : List RegKind :=
  [.crySoftCfg, .cryWarn, .cryHardOos0, .cryHardOos1, .crySoftOos, .cryCwCnt, .cryFirstFail, .cryOutCnt, .cryGaugeSts, .cryLvlmap, .cryGrdCtl, .cryGrdPaddr, .cryGrdPdataLo, .cryGrdPdataHi, .cryGrdLdsts, .cryGrdFbusy0, .cryGrdFbusy1, .cryGrdSts, .cryGrdTiles, .cryGrdMatch, .cryGrdFlags, .cryGrdPdesc, .cryGrdFmtW0, .cryGrdFmtW1, .cryGrdFmtW2, .cryGrdFmtW3, .mapSetSts, .mapRaCfg, .mapHotCfg, .mapC0Cnt, .mapC0Cnt2, .mapRbSts, .mapRbProg, .mapPanDmax, .mapPanLimit, .mapPanOcc, .mapMirOcc, .mapPanCfg, .mapTwinSts, .mapFlushSts]

/-- Part 4 of the register kinds, in the order of Table 19-2. -/
def regKinds4 : List RegKind :=
  [.mapCcCtl, .mapCcSts, .mapCcHit, .mapCcMiss, .mapPfCfg, .mapRclCfg, .mapWearCfg, .mapWearSts, .mapRclSts, .mapRakeCfg, .mapRakeSts, .mapCkptCfg, .mapCkptSts, .mapRepairSts, .mapWaHost, .mapWaMedia, .belCtl, .belCfg, .belSts, .belFaddrLo, .belFaddrHi, .belJobs, .belA0Lo, .belA0Hi, .belA1Lo, .belA1Hi, .belBreg, .belLc, .belFlag, .belElemLo, .belElemHi, .belProg, .belGsts, .belSctxBusy, .slqDb, .slqCtl, .slqSts, .slqHead, .slqCfg, .slqCfg2]

/-- Part 5 of the register kinds, in the order of Table 19-2. -/
def regKinds5 : List RegKind :=
  [.slqNs, .slqBaseLo, .slqBaseHi, .slqHalt, .slqGsts, .slqPool, .slqFdb, .slqFsts, .hrvDb, .hrvCtl, .hrvSts, .hrvCfg, .hrvMod, .hrvBaseLo, .hrvBaseHi, .stkChmode, .stkTgtcfg, .stkDskRd, .stkDskWr, .stkDskSts, .stkKxCnt, .stkSts, .stkUcodeVer, .stkUcodeSts, .stkWdog, .stkPoll, .stkRawCtl, .stkRawSts, .stkDbgCtl, .stkAopCnt, .stkMatch, .stkTsetW0, .stkTsetW1, .stkTsetW2, .stkTsetW3, .stkTsetW4, .stkTsetW5, .stkTsetW6, .stkTsetW7]

/-- Every register kind, in the order of Table 19-2. -/
def RegKind.all : List RegKind :=
  regKinds0 ++ regKinds1 ++ regKinds2 ++ regKinds3 ++ regKinds4 ++ regKinds5

/-- The number of copies of a register. -/
def RegKind.count (k : RegKind) : Nat := (k.layout.2.map Prod.fst).foldl (· * ·) 1

/-- The offset, within a layout, of copy `i` (innermost index fastest). -/
def layoutOffset : List (Nat × Nat) → Nat → Nat
  | [], _ => 0
  | (n, st) :: rest, i =>
    let inner := (rest.map Prod.fst).foldl (· * ·) 1
    (i / inner) % n * st + layoutOffset rest (i % inner)

/-- The byte offset of copy `i` of a register in the engine's window (R3, R680). -/
def RegKind.offset (k : RegKind) (i : Nat) : Nat := k.layout.1 + layoutOffset k.layout.2 i

/-- The copy that lies `d` bytes after the first copy, if one does. -/
def layoutIndex : List (Nat × Nat) → Nat → Option Nat
  | [], d => if d = 0 then some 0 else none
  | (n, st) :: rest, d =>
    if d / st < n then
      (layoutIndex rest (d % st)).map fun i =>
        d / st * (rest.map Prod.fst).foldl (· * ·) 1 + i
    else none

/-- The register at an offset, searched in a list of kinds. -/
def regIn : List RegKind → Nat → Option (RegKind × Nat)
  | [], _ => none
  | k :: ks, ofs =>
    if k.layout.1 ≤ ofs then
      match layoutIndex k.layout.2 (ofs - k.layout.1) with
      | some i => some (k, i)
      | none => regIn ks ofs
    else regIn ks ofs

/-- The register that an offset of the window names; none where Tables 19-1 and 19-2 name no
register (R679). -/
def regAt (ofs : Nat) : Option (RegKind × Nat) := regIn RegKind.all ofs

/-- The mask of the bits `hi` down to `lo`. -/
def Fld.mask (f : Fld) : Word := BitVec.ofNat 32 (2 ^ (f.hi + 1 - f.lo) - 1) <<< f.lo

/-- The reset word of a register: every field at its Reset column (R9), reserved bits 0. -/
def RegKind.resetWord (k : RegKind) : Word :=
  (k.fields.map fun f => BitVec.ofNat 32 f.rst <<< f.lo).foldl (· ||| ·) 0

/-- The reset word of one copy. BEL_CFG's SEALED and CTXS depend on the mover (Table 12-11), and
SIC_PPRIO6 holds the fixed priority 15 of private sources 48 and 49 (Table 16-3, R580). -/
def regReset (k : RegKind) (i : Nat) : Word :=
  match k with
  | .belCfg => if 56 ≤ i then RegKind.resetWord .belCfg ||| 0x8000001F else RegKind.resetWord .belCfg
  | .sicPprio => if i % 8 = 6 then 0xFF else 0
  | k => k.resetWord

/-- The bits of a register that a read returns: a WO field and a reserved bit read 0 (R4). -/
def RegKind.readMask (k : RegKind) : Word :=
  (k.fields.map fun f => if f.acc = .wo then 0 else f.mask).foldl (· ||| ·) 0

/-- A register that holds an RC field: its read clears, and counts as a write (R8, R610). -/
def RegKind.hasRc (k : RegKind) : Bool := k.fields.any fun f => f.acc = .rc

/-- The key of a register copy in the register table: kinds and copies never collide. -/
def regKey (k : RegKind) (i : Nat) : Nat := i * 256 + k.ctorIdx

end Sys2Proof.Machine
end

