-- ==== Sys2Proof/Machine/Types.lean ====
section
/-! DEFINITION. The types of what the channels, the media, the map and the decoders hold: plain
data, gathered into `State` by State.lean. -/

namespace Sys2Proof.Machine

/-! ## Array operations (chapters 5 and 6) -/

/-- A page on the media: LUN key (channel × 32 + target × 4 + LUN), block, page index, and whether it is
in SLC mode (Table 10-1, R209). -/
structure Page where
  lun   : Nat
  block : Nat
  page  : Nat
  slc   : Bool
  deriving DecidableEq, Repr

/-- What an array operation or a queued want serves. -/
inductive Why where
  /-- A read of the recovery ladder (R265): the read record's number. -/
  | rd (id : Nat)
  /-- The second and third reads of the soft step (R269): at OFF − DELTA or OFF + DELTA. -/
  | soft (id : Nat) (plus : Bool)
  /-- A margin read of codeword `k` (R275). -/
  | margin (rtag k : Nat) (plus : Bool)
  /-- The row unit at data or parity position `s` of a row (R287, R289). -/
  | rowUnit (row s : Nat)
  /-- The page and the seal of a journal stream (R348), and the seals of a journal row's P and Q
  units. -/
  | jpage (stream : Nat)
  | jseal (stream : Nat)
  | pqSeal (row s : Nat)
  /-- A checkpoint header copy and its commit (R382, R384). -/
  | header (lun : Nat)
  | commit (lun : Nat)
  /-- A flush row unit (R359). -/
  | flush (row s : Nat)
  /-- An erase of an erase unit (R401). -/
  | erase (unit : Nat)
  /-- A rebuilt row unit programmed on a spare, or sealed (R316). -/
  | rebuilt (row : Nat)
  /-- A LUN_OP of a flue channel (R464). -/
  | lunOp (f : Nat)
  /-- A calibration ledger page (R571) and the media step's sample reads (R568). -/
  | ledger (lun : Nat)
  | sample (lun : Nat)
  deriving DecidableEq, Repr

/-- A want in a LUN queue: a read of one codeword, a program step or an erase (R219, R298). -/
structure Want where
  why   : Why
  cls   : Nat
  rtag  : Nat
  /-- 0 a read, 1 a program, 2 an erase, 3 a seal, 4 one of the class-3 feature and OTP operations. -/
  kind  : Nat
  page  : Page
  cw    : Nat
  /-- Read-level offsets (R211), and the retry-ladder step. -/
  offs  : List Int
  step  : Nat
  /-- Queued at the head of its class (R267, R301). -/
  front : Bool
  /-- Bytes a program carries, page by page; feature bytes of a SET_FEAT. -/
  data  : List (List Byte)
  /-- Operation type of kinds 3 and 4, and the feature address or OTP page of kind 4. -/
  optype : Nat
  arg   : Nat
  since : Nat
  deriving DecidableEq, Repr

/-- An operation with its context (Table 05-7, R180). -/
structure Op where
  optype : Nat
  cls    : Nat
  rtag   : Nat
  lun    : Nat
  /-- The wants it serves, in transfer order. -/
  wants  : List Want
  col    : Nat
  row    : Nat
  planes : Nat
  retry  : Nat
  gauge  : List Int
  feat   : List Nat
  bufslot : Nat
  /-- Buffer slots that a program holds, from `bufslot` on (R293, R313). -/
  slots  : Nat := 0
  xlen   : Nat
  /-- Target mask for SEL 0b010, and the array timeout in ns. -/
  mask   : Nat
  tmo    : Nat
  /-- Reissued after a WPROT (R240). -/
  again  : Bool := false
  deriving DecidableEq, Repr

/-- An erase that is in flight or suspended on a LUN (R220 to R223). -/
structure ErState where
  op      : Op
  /-- When it started or was last resumed. -/
  since   : Nat
  count   : Nat := 0
  /-- While it is suspended: when the suspension completed, and the programs nested in it. -/
  suspAt  : Option Nat := none
  nested  : Nat := 0
  closed  : Bool := false
  deriving DecidableEq, Repr

/-- What the scheduler holds for one LUN. -/
structure LunSt where
  queue   : List Want := []
  /-- The operation formed, waiting for its draught grant or its stoker. -/
  op      : Option Op := none
  granted : Bool := false
  /-- The pages in the page registers, each with the offsets it was sensed at, while no other operation has intervened (R210). -/
  sensed  : List (Page × List Int) := []
  /-- Offsets last written to the LUN by method 1 (R211). -/
  lastOfs : Option (List Int) := none
  /-- A timed-out operation under the stall poll (R228), and when it stalled. -/
  stall   : Option (Op × Nat) := none
  /-- When it was last polled. -/
  polled  : Nat := 0
  er      : Option ErState := none
  /-- The class-3 want seen at the head of its class, the time in ns that it has stood there and that counts (R25), and whether it is aged (R688). -/
  head3   : Option Want := none
  age     : Nat := 0
  aged    : Bool := false
  /-- An operation that waits 1 ms for its reissue after a WPROT (R240). -/
  wprot   : Option (Op × Nat) := none
  /-- Windows above or below QDEPTH in a row, and hot (R312). -/
  above   : Nat := 0
  below   : Nat := 0
  hot     : Bool := false
  deriving DecidableEq, Repr

/-- An operation that has ended, with its completion code and STATUS (R181, R238). `reported`: the
draught island has had its END report (R528). -/
structure Ended where
  op     : Op
  code   : Nat
  status : Byte
  went   : Bool
  raw    : List Byte := []
  /-- Program bytes sent, and codewords received. -/
  sent   : Nat := 0
  got    : Nat := 0
  reported : Bool := false
  judged : Bool := false
  deriving DecidableEq, Repr

/-! ## Stokers (chapter 5) -/

/-- What a ROM routine's command sequence asks for next (Table 06-1): a command cycle, an address cycle, a command that starts an array operation,
a byte sent by the routine, bytes of the operation's data in or out; and a command or address between the pages of a one-shot step, which
the spec leaves to the die. -/
inductive SeqItem where
  | cmd (b : Byte)
  | addr (b : Byte)
  | go (b : Byte)
  | byte (b : Byte)
  | dataIn (n : Nat)
  | dataOut (n : Nat)
  | anyCmd
  | anyAddr
  /-- After ESUSP_CMD: the wait for LRDY with its timeout in ns, and the mark that it has been issued (R221). -/
  | espd (ns : Nat)
  | esusp
  deriving DecidableEq, Repr

/-- Where a slot stands. -/
inductive SlotSt where
  | ready
  /-- In a WAIT's first WCNT cycles, since when (R169). -/
  | wcnt (since : Nat)
  /-- Parked at a SAFE word or preempted there. -/
  | parkedSafe
  /-- Held in a WAIT: the condition with its inversion bit, timeout in ns, target, SUSP, and since
  when; parked when the condition is RB or LRDY (R169). -/
  | waiting (cond tmo : Nat) (target : BitVec 15) (susp : Bool) (since : Nat) (parks : Bool)
  /-- Its XFER, of this ROUTE, awaits a KX-DDR DATA-OUT frame; `again` after a first failed copy (R149). -/
  | frame (route : Nat) (again : Bool)
  /-- It starts afresh once its target has been escaped and retrained (R150). -/
  | retrain
  deriving DecidableEq, Repr

/-- A stoker slot (R174). -/
structure Slot where
  op     : Op
  upc    : BitVec 15
  g      : List Word
  status : Byte := 0
  stack  : List (BitVec 15) := []
  st     : SlotSt := .ready
  /-- Its GO has issued its command (R171). -/
  went   : Bool := false
  abort  : Bool := false
  susp   : Bool := false
  /-- KX-DDR errors seen in the operation (R149, R150). -/
  kxErrs : Nat := 0
  /-- Program bytes sent, codewords received, and bytes received by an operation without codewords. -/
  sent   : Nat := 0
  got    : Nat := 0
  raw    : List Byte := []
  /-- What its type's command sequence still holds (Table 06-1). -/
  seq    : List SeqItem := []
  /-- The LUN ready poller has found the LUN ready (R176). -/
  lrdy   : Bool := false
  /-- The last word executed. -/
  last   : BitVec 15 := 0
  /-- In KX-DDR, its last CA frame, its last DATA-IN frame and the CA frame that confirmed it, for a resend (R149). -/
  caSent : List Byte := []
  inSent : List Byte := []
  confirm : List Byte := []
  deriving DecidableEq, Repr

/-- The levels that the engine gives a channel's flash pins (Table 02-7): FL_CE_N by target; the byte driven on FL_DQ and the level of
FL_DQS_T, none at high impedance; FL_RE_C is driven in differential modes. In NV-DDR FL_WE_N runs as a clock (Table 04-2). Termination and
drive are nominal ohms, 0 for termination off (Table 04-4). The defaults are the reset state, which is the banked state too. -/
structure FlPins where
  ceN : BitVec 8 := 0xFF
  weN : Bool := true
  weClk : Bool := false
  cle : Bool := false
  ale : Bool := false
  reT : Bool := true
  reC : Bool := false
  dq  : Option Byte := none
  dqs : Option Bool := none
  odt : Nat := 0
  drv : Nat := 50
  deriving DecidableEq, Repr

/-- A cycle or burst on a channel's pins. -/
inductive BusCyc where
  | cmd (mask : Nat) (b : Byte)
  | addr (mask : Nat) (b : Byte)
  | dataIn (mask : Nat) (bs : List Byte)
  | dataOut (mask n : Nat)
  /-- A KX-DDR CA frame (Table 04-7). -/
  | ca (mask : Nat) (bs : List Byte)
  /-- A KX-DDR DATA-IN frame, from its sync byte to its CRC-32C; and a DATA-OUT frame asked for, of some payload bytes. -/
  | frameIn (mask : Nat) (bs : List Byte)
  | frameOut (mask n : Nat)
  | pins (bits : BitVec 16)
  /-- A status read (0x70), and status enhanced (0x78) of a row address. -/
  | status (mask : Nat)
  | statusRow (mask row : Nat)
  | escape (mask : Nat)
  /-- A change of the channel's rate, to MT/s (R122). -/
  | rate (mts : Nat)
  /-- A training sweep (R139, R140, R146): the opcodes of each step, the steps, and the bytes moved in each. -/
  | sweep (mask : Nat) (cmds : List Byte) (steps n : Nat)
  /-- RE toggles of die duty-cycle correction (R138). -/
  | reToggles (mask n : Nat)
  deriving DecidableEq, Repr

/-- A codeword slot of a channel buffer (R242): what its bytes are for, and the bytes, descrambled. -/
structure BufSlot where
  why    : Why
  page   : Page
  cw     : Nat
  offs   : List Int
  step   : Nat
  data   : List Byte
  /-- Zero bits of the stored codeword (R251). -/
  zeros  : Nat
  /-- The DATA-OUT frame failed its check on both copies (R253). -/
  badFrame : Bool := false
  /-- 0 just landed; 1 waits for a hard crystallizer; 2 kept as a soft step's read. -/
  stage  : Nat := 0
  deriving DecidableEq, Repr

/-- A raw-window access that waits for the pins (R195): its target, its cycles still to come, each with whether it still waits for a draught
grant (R194). A read carries whether it is a status read, the first byte lane asked for and the number of bytes; it is held while its target
is busy (R196). -/
structure RawAcc where
  req    : Req
  tgt    : Nat
  cycles : List (BusCyc × Bool)
  read   : Option (Bool × Nat × Nat) := none
  since  : Nat := 0
  /-- Write-data beats whose credits the access holds (R48). -/
  beats  : Nat := 0
  deriving DecidableEq, Repr

/-- One channel: its stoker, buffer and PHY. -/
structure Chan where
  slots  : Tab Slot := []
  /-- G4 to G7, shared by the slots (R165), and the flags that CMPI, WAIT and XFER leave. -/
  gs     : List Word := [0, 0, 0, 0]
  eq     : Bool := false
  lt     : Bool := false
  tmoF   : Bool := false
  fchk   : Bool := false
  /-- The slot that holds the pins, and the words it has run since its last switch point. -/
  act    : Option Nat := none
  words  : Nat := 0
  patch  : Tab (BitVec 96) := []
  /-- CA frame items gathered, as (byte, is command) (R179). -/
  items  : List (Byte × Bool) := []
  itemXlen : Nat := 0
  /-- FL_RB_N of the targets, bit by target, as last seen; FL_WP_N. -/
  rb     : BitVec 8 := 0xFF
  wpN    : Bool := false
  /-- The other pins that the engine drives. -/
  pins   : FlPins := {}
  /-- It has reached its banked levels (R663). -/
  banked : Bool := false
  bus    : List BusCyc := []
  buf    : Tab BufSlot := []
  /-- Raw window (R190 to R196): accesses waiting for the pins, in order; and the target whose raw window has been closed and
  that awaits FL_RB_N (R197). -/
  rawQ   : List RawAcc := []
  rawOut : Option Nat := none
  /-- A HALT takes effect at the next switch point (R204). -/
  halting : Bool := false
  /-- The tracking state of R154: key `dir * 8 + bit` to (tally, edges, offset). -/
  track  : Tab (Int × Nat × Int) := []
  /-- What has been logged once: a set not applied as written (its number), a target's set refused (R61, R127: 1,000 + 16 × target + set), a
  reserved drive or termination code (R132: 100 or 200 + set), a KX-DDR request refused (R2: 300). -/
  logged : List Nat := []
  /-- Fallbacks of a target within the last second (R150): target to their times. -/
  falls  : Tab (List Nat) := []
  /-- The target whose FL_CE_N is low, and the words of its set as they were when it fell (R125). -/
  latch  : Option (Nat × List Word) := none
  /-- The stoker holds until then, for a wait count or a delay of the set (R163, R168); RLOCK is 1 until then (R122). -/
  holdTill : Nat := 0
  lockTill : Nat := 0
  lastStep : Nat := 0
  /-- When each slot was last polled (R176), and each target last sent TALLY READ (R156). -/
  pollAt : Tab Nat := []
  tallyAt : Tab Nat := []
  /-- Targets that await the escape, retraining and re-entry of R150; targets whose CA_SLOW is set (R144). -/
  fallen : List Nat := []
  caSlow : BitVec 8 := 0
  /-- The raw slot keeps FL_CE_N of its target low between accesses (R195). -/
  rawCe  : Bool := false
  /-- Events posted by REPORT: slot, code and STATUS (Table 05-5). -/
  reports : List (Nat × Nat × Byte) := []
  /-- The modes that each target's parameter page advertises: target to a mask over mode codes (R61). -/
  adv    : Tab Nat := []
  /-- Start-up (R94 to R100): the channel's stage, 7 once LEDGER is past; the targets that are still in it; when TARGET_RESET was entered;
  when each target was reset. -/
  stage  : Nat := 0
  alive  : BitVec 8 := 0
  bootAt : Nat := 0
  rstAt  : Tab Nat := []
  deriving DecidableEq, Repr

/-! ## Calibration (chapter 15) -/

/-- What calibration holds of a target: stored centres, `dir * 8 + bit` to 1/64 UI; the centres that bits are walking
to (R564); the guard bands in the stored centres; T_last in 1/128 °C; RESULT, its runs, and the end of its last one. -/
structure CalTgt where
  centre : Tab Int := []
  goal   : Tab Int := []
  gbRd   : Int := 0
  gbWr   : Int := 0
  tlast  : Int := 0
  result : Nat := 0
  runs   : Nat := 0
  endAt  : Option Nat := none
  deriving DecidableEq, Repr

/-- A run in progress (R553): its target and sweep, the INFL test of R561 so far, whether step 6 is past, and the LUNs whose
steps 7 and 8 are still to come, with those that wait for their sample reads. -/
structure CalRun where
  tgt    : Nat
  sweep  : Nat
  idle   : Bool := true
  six    : Bool := false
  result : Nat := 1
  media  : List Nat := []
  wait   : List Nat := []
  ledger : List Nat := []
  deriving DecidableEq, Repr

/-- Engine codes of a channel (R564) and the codes it walks to: PU, PD and duty trim. -/
structure CalCh where
  pu     : Int := 0x20
  pd     : Int := 0x20
  dcc    : Int := 0
  puGoal : Int := 0x20
  pdGoal : Int := 0x20
  dccGoal : Int := 0
  walkAt : Nat := 0
  deriving DecidableEq, Repr

/-- A sweep (R566): when its first run started, its targets not yet done, channels whose ZQ it has run. -/
structure Sweep where
  start  : Option Nat := none
  left   : List Nat := []
  zq     : List Nat := []
  deriving DecidableEq, Repr

/-- Sample reads of a LUN's media step (R568): codewords still to come, and the offsets of the gauge lines recorded before them. -/
structure Sample where
  left   : List (Page × Nat) := []
  before : List (Nat × List Int) := []
  deriving DecidableEq, Repr

/-- The ledger of a LUN (R570 to R574): unit and page of its frontier, the last LSEQ, and when it was last written. -/
structure Ledger where
  second : Bool := false
  page   : Nat := 0
  lseq   : Nat := 0
  at_    : Option Nat := none
  deriving DecidableEq, Repr

/-- Calibration. Targets by channel × 8 + target; runs queued per channel as (target, sweep). -/
structure Cal where
  tgts   : Tab CalTgt := []
  chs    : Tab CalCh := []
  queue  : Tab (List (Nat × Nat)) := []
  runs   : Tab CalRun := []
  sweeps : Tab Sweep := []
  next   : Nat := 0
  samples : Tab Sample := []
  /-- Gauge lines fetched from appliance DRAM for a media step or a ledger, by block; none where the fetch failed. -/
  lines  : Tab (List Byte) := []
  ledgers : Tab Ledger := []
  /-- The last temperature sample, and T_g by channel group (R557). -/
  tempAt : Nat := 0
  tg     : Tab Int := []
  /-- LUNs whose ledger write is folded into the next one (R571). -/
  due    : List Nat := []
  /-- Ledgers that R100 accepted, for R575: LUN to data field. Targets with a LUN restored from seeds (R557). -/
  accepted : Tab (List Byte) := []
  seeded : List Nat := []
  deriving DecidableEq, Repr

/-! ## Reads and recovery (chapters 7 and 8) -/

/-- Who asked for a codeword. -/
inductive RdOwner where
  | tile (rtag i : Nat)
  /-- A partner of read-around `id` at stripe position `pos` (R301). -/
  | partner (id pos : Nat)
  /-- A relocation slot (R397). -/
  | reloc (n : Nat)
  /-- A map tile (R388). -/
  | mapTile (mt : Nat)
  /-- A patrol read (R407). -/
  | patrol
  /-- A lost member under rebuild, by its stripe in its row unit (R316). -/
  | rebuild (q : Nat)
  /-- The member that the map names for the LTA of a mirror copy, whose SEQ reconciliation compares (R356). -/
  | recon (slot : Nat)
  /-- A map tile of the newest valid checkpoint, read for a repair (R395). -/
  | repair (mt : Nat)
  deriving DecidableEq, Repr

/-- Stripe reconstruction of a read (R294, R299, R301). -/
structure Recon where
  /-- Positions being read. -/
  asked   : List Nat
  /-- Members that passed: position to 4,128 B. -/
  have_   : Tab (List Byte) := []
  /-- The member excluded in step 3 of R299, if one was. -/
  spare   : Option Nat := none
  /-- It cannot be completed; the read's other steps still run (R273). -/
  failed  : Bool := false
  deriving DecidableEq, Repr

/-- A read of one codeword through the recovery ladder (R265). -/
structure Rd where
  own   : RdOwner
  cls   : Nat
  rtag  : Nat
  entry : Nat
  page  : Page
  cw    : Nat
  lta   : Nat
  keyidx : Nat
  kind  : Nat
  /-- Stripe row and position expected of a partner (R301). -/
  spos  : Nat := 0
  stripe : Nat := 0
  step  : Nat := 0
  /-- The buffer slots of the centre read and of the soft step's two reads. -/
  centre : Option Nat := none
  softM  : Option Nat := none
  softP  : Option Nat := none
  recon : Option Recon := none
  /-- Steps 1 to 17 still run (R273); it waits for a read-around token. -/
  ladder : Bool := true
  wantTok : Bool := false
  /-- A gauge line is awaited (R260). -/
  gaugeWait : Bool := false
  /-- A decoded partner codeword that waits for its check (R301): none inside for a failed decode. -/
  dec   : Option (Option (List Byte)) := none
  /-- How it ended (R255): outcome code, CBC byte, plaintext, and the first 4,128 B of the codeword. -/
  res   : Option (Nat × Nat × List Byte × List Byte) := none
  deriving DecidableEq, Repr

/-- A gauge line in the gauge cache (R259, R260). -/
structure GLine where
  off   : List Int
  acc   : List Int
  dirty : Bool := false
  used  : Nat := 0
  /-- Its index in the gauge region. -/
  idx   : Nat := 0
  deriving DecidableEq, Repr

/-! ## Sets, groups, rows and units (chapters 8 and 10) -/

/-- A stripe set (R284, R295). -/
structure SetSt where
  slots  : List Nat := []
  /-- Bit `n`: slot `n` lost and not yet rebuilt. -/
  lost   : Nat := 0
  drain  : Bool := false
  /-- The set's program token: the LUN it is granted to (R296). -/
  token  : Option Nat := none
  /-- Rows open for encoding, oldest first. -/
  rows   : List Nat := []
  /-- The data group open for destage and its next row. -/
  openG  : Option Nat := none
  row    : Nat := 0
  /-- Tiles placed here that wait for a row. -/
  queue  : List Nat := []
  deriving DecidableEq, Repr

/-- What a member of a row holds. -/
inductive MemOf where
  | pan (slot : Nat)
  | reloc (n : Nat)
  | mapTile (mt : Nat)
  | ckpt (t : Nat)
  | mirror (slot : Nat)
  | pad
  deriving DecidableEq, Repr

/-- A data member encoded into a row: its metadata bytes 0x00 to 0x1F and its data field. -/
structure Member where
  own  : MemOf
  lta  : Nat
  seq  : Nat
  keyidx : Nat
  data : List Byte
  hdr  : List Byte
  /-- Its page has closed (R215). -/
  closed : Bool := false
  deriving DecidableEq, Repr

/-- A row being accumulated or programmed (R287, R293, R297). -/
structure Row where
  group  : Nat
  step   : Nat
  seq    : Nat
  /-- Members: position × Q + q. -/
  mem    : Tab Member := []
  /-- Positions whose unit's program has passed. -/
  done   : List Nat := []
  /-- Positions whose program has been queued. -/
  queued : List Nat := []
  flush  : Bool := false
  /-- Its accumulators' offset in the parity store (R293), while it has any. -/
  par    : Option Nat := none
  /-- P and Q have both passed (R297). -/
  parity : Bool := false
  deriving DecidableEq, Repr

/-- A group record (Table 08-1, R290). -/
structure Grp where
  unit    : List Nat
  rot     : Nat
  gstate  : Nat
  rowsDone : Nat := 0
  lost    : Nat := 0
  openSeq : Nat := 0
  slc     : Bool := false
  /-- When it closed. -/
  closeAt : Nat := 0
  deriving DecidableEq, Repr

/-- A block table entry (Table 10-3, R377). -/
structure UnitE where
  pec     : Nat := 0
  estate  : Nat := 1
  slc     : Bool := false
  retire  : Bool := false
  refresh : Bool := false
  gref    : Nat := 0
  valid   : Nat := 0
  closeAt : Nat := 0
  deriving DecidableEq, Repr

/-- A line of the map cache (R391): its way, its 8 entries, and whether it is dirty. A write-back in
flight or failed keeps it. -/
structure MLine where
  way   : Nat
  ents  : List Nat
  dirty : Bool := false
  wb    : Bool := false
  wbFail : Option Nat := none
  deriving DecidableEq, Repr

/-- What a map update serves. -/
inductive UpdOf where
  /-- A pan copy whose program has completed (chapter 9): its slot. -/
  | pan (slot : Nat)
  /-- A relocation (R397). -/
  | reloc (n : Nat)
  /-- An unmap (R380): request tag and tile. -/
  | unmap (rtag i : Nat)
  /-- A tile whose member has been rebuilt on a spare (R316): the member's SEQ. -/
  | rebuilt (seq : Nat)
  /-- Nothing beside the entry: an LTA poisoned (R345), or an entry that returns to its old value (R240). -/
  | plain
  deriving DecidableEq, Repr

/-- A map update that waits for its line (R391): LTA, new entry, and the value the entry must hold for
the update of a relocation to apply (R16). -/
structure MUpd where
  lta  : Nat
  new  : Nat
  only : Option Nat
  who  : UpdOf
  deriving DecidableEq, Repr

/-- A directory entry (R376). -/
structure Dir where
  loc   : Nat := 0
  slot  : Option Nat := none
  dirty : Bool := false
  deriving DecidableEq, Repr

/-- The group that a rebuild is at (R316): the lost LUN and its unit, the spare's unit, the row, its members rebuilt by stripe, the members of tiles
that have been rebuilt as (LTA, SEQ, row, stripe), and whether every row is done. -/
structure Rebuild where
  g    : Nat
  lun  : Nat
  old  : Nat
  unit : Nat
  row  : Nat
  mem  : Tab (List Byte)
  tiles : List (Nat × Nat × Nat × Nat)
  done : Bool
  deriving DecidableEq, Repr

/-- A relocation in flight (R397). -/
structure Reloc where
  lta  : Nat
  old  : Nat
  /-- The entry that its map update has set. -/
  new  : Nat := 0
  seq  : Nat := 0
  keyidx : Nat := 0
  hid  : Nat := 0
  /-- 0 reading; 1 staged; 2 destaging; 3 abandoned; 4 its map entry changed; 5 its slot being written; 6 its slot being read. -/
  st   : Nat := 0
  /-- Class it runs at (Table 10-6). -/
  cls  : Nat := 3
  deriving DecidableEq, Repr

/-- A checkpoint that runs (R382). -/
structure Ckpt where
  no     : Nat
  ptr    : List Nat
  seqBase : Nat
  area   : Nat
  /-- Map tiles still to be written, units still to be erased, checkpoint tiles still to be programmed,
  headers still to be committed. -/
  tiles  : List Nat
  erases : List Nat
  left   : Nat
  heads  : List Nat
  /-- 1 to 4: the step of R382; and the next checkpoint tile to be placed. -/
  stepNo : Nat := 1
  next   : Nat := 0
  /-- The directory as its tiles hold it. -/
  dir    : Tab Nat := []
  deriving DecidableEq, Repr

/-- The map, the media tables and the background writers. -/
structure Media where
  luns   : Tab LunSt := []
  sets   : Tab SetSt := []
  spares : List Nat := []
  groups : Tab Grp := []
  units  : Tab UnitE := []
  rows   : Tab Row := []
  /-- The map cache: line number (LTA ÷ 8) to line. -/
  cache  : Tab MLine := []
  lfsr   : BitVec 16 := 0xACE1
  /-- Fills in flight, by line, with the prefetches among them; updates that wait. -/
  fills  : List Nat := []
  prefetch : List Nat := []
  /-- Fills that wait for the write-back of their way's dirty line, as (line, dirty line, class). -/
  fillWait : List (Nat × Nat × Nat) := []
  upds   : List MUpd := []
  enAfter : Bool := false
  dir    : Tab Dir := []
  ovl    : Tab Nat := []
  /-- Map entries as the engine has last changed them since start-up, wherever they stand now. -/
  mapNow : Tab Nat := []
  /-- Pool slots in use, slot to map tile, and the hand of the clock sweep (R390). -/
  pool   : Tab Nat := []
  hand   : Nat := 0
  /-- LTAs under repair (R395). -/
  repair : List Nat := []
  /-- Map tiles being read from the media into a pool slot: map tile to slot; those that wait for a slot, with their class. -/
  loads  : Tab Nat := []
  loadWait : List (Nat × Nat) := []
  /-- The newest valid checkpoint's directory, and the map tiles read from its copies for repairs (R395). -/
  ckptDir : Tab Nat := []
  repTiles : Tab (List Byte) := []
  relocs : Tab Reloc := []
  /-- Map tile copies that the directory no longer names, with the newest valid checkpoint when it ceased to (R386). -/
  stale  : List (Nat × Nat) := []
  ckpt   : Option Ckpt := none
  /-- Pieces of a map tile read for its copy (R382): map tile, address and bytes. -/
  ckParts : List (Nat × Nat × List Byte) := []
  /-- Map of the newest valid checkpoint: number and area. -/
  ckptNo : Nat := 0
  ckptArea : Nat := 0
  /-- A checkpoint area that is unusable (R387). -/
  badArea : Option Nat := none
  /-- Victim groups under reclaim (R401), and the classes with wear reclaim on (R404). -/
  victims : List Nat := []
  wearOn : List (List Nat) := []
  /-- Hot tile table: (LTA, count, LUN) (R312); tiles queued to the rake; patrol and refresh stamps. -/
  hotTab : List (Nat × Nat × Nat) := []
  hotQ   : List Nat := []
  hotAt  : Nat := 0
  patrolAt : Nat := 0
  refreshTurn : Bool := true
  /-- The unit that the rake refreshes, and when it and hot relocation last started a tile (R408, R312). -/
  rakeUnit : Option Nat := none
  rakeAt : Nat := 0
  hotRelAt : Nat := 0
  /-- Rebuilds waiting: (set, slot); the groups of the present rebuild still to do; the group in work. -/
  rebuilds : List (Nat × Nat) := []
  rebuildLeft : List Nat := []
  rebuilding : Option Rebuild := none
  /-- Tiles that reached MEDIA and members programmed, for R409. -/
  waHost : Nat := 0
  waMedia : Nat := 0
  /-- Token buckets: class 0 (R22), read-around (R302). -/
  c0Tok  : Nat := 0
  c0At   : Nat := 0
  raTok  : Nat := 0
  raAt   : Nat := 0
  rds    : Tab Rd := []
  /-- What the hard units decode, as (channel, buffer slot), the channel last granted one, and the reads that the soft units decode (Table 01-7). -/
  hardRun  : Tab (Nat × Nat) := []
  hardLast : Nat := 127
  softRun  : Tab Nat := []
  rdNext : Nat := 0
  gauge  : Tab GLine := []
  gaugeT : Nat := 0
  ended  : List Ended := []
  /-- LUNs that have gone offline and whose sets have not yet been told (R315). -/
  offQ   : List Nat := []
  /-- The MAP stage: when it was entered; the checkpoint or the format stands, and replay is done; pan reload is done; the largest SEQ found
  so far (R334); FLUSH_END follows the last RESERVE record (R364). -/
  mapAt  : Nat := 0
  placed : Bool := false
  /-- A format is under way, until checkpoint 1 is complete (R104); appliance DRAM has answered a map or pan request with OK since the start of
  the stage (R106). -/
  formatting : Bool := false
  dramOk : Bool := false
  reloadDone : Bool := false
  seqMax : Nat := 0
  flushEnded : Bool := false
  deriving DecidableEq, Repr

/-! ## Graders (chapter 13) -/

/-- A lane of a grader (R516): its record, registers, flags and instruction. -/
structure Lane where
  pos  : Nat
  x    : List (BitVec 64)
  v    : Bool := false
  z    : Bool := false
  pc   : Nat := 0
  /-- The verdict once the evaluation has ended; a skipped position has none and is ended. -/
  out  : Option Bool := none
  skip : Bool := false
  deriving DecidableEq, Repr

/-- A grader (R516). -/
structure Grader where
  rtag  : Nat
  tile  : Nat
  /-- The round's lanes and the next position. -/
  lanes : List Lane := []
  next  : Nat := 0
  /-- Bytes and records written for the entry before this tile, from which it would be graded again
  (R515). -/
  outAt : Nat := 0
  matAt : Nat := 0
  deriving DecidableEq, Repr

/-- The graders and their program store (R500, R509). -/
structure Grade where
  store : Tab (BitVec 64) := []
  run   : Tab Grader := []
  deriving DecidableEq, Repr

/-! ## The draught engine (chapter 14) -/

/-- A sense source (R66, R67, R532): the sum and count of the frames accepted since the last tick, its latest accepted frame and when that came;
stale, since when, and reported (R534). -/
structure Sense where
  sum   : Int := 0
  count : Nat := 0
  last  : Option Int := none
  at_   : Nat := 0
  stale : Option Nat := none
  reported : Bool := false
  deriving DecidableEq, Repr

/-- What a loop holds beside its registers (R535, R538): velocity, acceleration, the last measurement, its group outputs; `load` is 1 when the
next tick takes its measurement as the last one, 2 when it loads all of the state (R539). -/
structure DLoop where
  v    : Word := 0
  a    : Word := 0
  yq   : Word := 0
  outs : Tab Nat := []
  load : Nat := 0
  deriving DecidableEq, Repr

/-- The draught engine: populated sources, loops, bandwidth buckets by group (R529), the admission levels of the last tick while they do not yet
act (R536), the rotation of each group, and the ceiling comparator (R541, R542). -/
structure Draught where
  pop    : BitVec 64 := 0
  src    : Tab Sense := []
  loops  : Tab DLoop := []
  bucket : Tab Int := []
  next   : Option (Nat × List Nat) := none
  rot    : Tab Nat := []
  above  : Nat := 0
  below  : Nat := 0
  stop   : Bool := false
  tickAt : Nat := 0
  evalAt : Nat := 0
  deriving DecidableEq, Repr

/-! ## The xSPI port and the test port (chapter 2) -/

/-- A command on the xSPI port (R63): no other kind exists. -/
inductive XCmd where
  | reset
  | sfdpRead (ofs len : Nat)
  | statusRead
  /-- To 8D-8D-8D at a rate in kHz. -/
  | modeSwitch (khz : Nat)
  | read8D (addr len : Nat)
  | read1S (opcode addr len : Nat)
  deriving DecidableEq, Repr

/-- The xSPI port (R62, Table 02-12): its pins, the ns for which XSPI_RESET_N stays low after a cold or warm release, its rate in kHz, and the
commands it has issued. DQ is none at high impedance, with its weak pull-up; DS is an input with a weak pull-down. -/
structure Xspi where
  clk   : Bool := false
  csN   : Bool := true
  dq    : Option Byte := none
  ds    : Bool := false
  hold  : Nat := 10000
  octal : Bool := false
  khz   : Nat := 12500
  sent  : List XCmd := []
  deriving DecidableEq, Repr

/-- The states of the IEEE 1149.1 controller (R10, R76). -/
inductive TapSt where
  | testLogicReset | runTestIdle
  | selectDr | captureDr | shiftDr | exit1Dr | pauseDr | exit2Dr | updateDr
  | selectIr | captureIr | shiftIr | exit1Ir | pauseIr | exit2Ir | updateIr
  deriving DecidableEq, Repr

/-- The instruction in force: the mandatory ones and IDCODE (Table 00-4). -/
inductive TapInstr where
  | idcode | bypass | sample | preload | extest
  deriving DecidableEq, Repr

/-- The IEEE 1149.1 port (R76, R77): its inputs, which but for TCK have pull-ups, its controller, the instruction in force and the register
that it shifts. -/
structure Tap where
  tck   : Bool := false
  tms   : Bool := true
  tdi   : Bool := true
  trstN : Bool := true
  st    : TapSt := .testLogicReset
  instr : TapInstr := .idcode
  dr    : Word := 0
  deriving DecidableEq, Repr

end Sys2Proof.Machine
end

