-- ==== Sys2Proof/Machine/State.lean ====
section
/-! DEFINITION. The state of the engine: everything the spec gives it, as plain data, and the
state at reset. -/

namespace Sys2Proof.Machine

/-- Why the machine stops: it never does. An island that a reset input of less than its minimum width has left undefined (R37) stands still
until a reset of full width (`Pwr.coreStuck`, `Pwr.emberStuck`), which is safe. -/
inductive Fault where
  deriving DecidableEq, Repr

/-- Why the machine gives a command no meaning. -/
inductive Refusal where
  /-- The command is not modelled yet. Raised by an arm of `exec` without a meaning. Safe. -/
  | notModelled (mnemonic : String)
  deriving DecidableEq, Repr

/-- A response the engine issued to an inbound request (R41, Table 02-4). -/
structure Resp where
  port : Nat
  vc   : Nat
  tag  : Nat
  code : RCode
  data : List Byte
  deriving DecidableEq, Repr

/-- A chimney-log entry (Table 18-9, R672). `rest`: what a rule gives the entry to hold beyond the 16 bytes of OBJ and VAL, which the 32 B of its
layout do not show (R120; DESIGN CHOICE, log entry 74). -/
structure LogEntry where
  time : BitVec 64
  seq  : Word
  unit : Nat
  sev  : Byte
  code : Nat
  obj  : BitVec 64
  val  : BitVec 64
  rest : List Byte
  deriving DecidableEq, Repr

/-- The power state (Table 18-1, R643). `entering` is the time between the acceptance of a P2 or P3
request and the entry message (R647). -/
inductive PwrState where
  | p0 | p1 | entering (p3 : Bool) | p2 | p3
  deriving DecidableEq, Repr

/-- The ember island, the reset and trip inputs, and what the power sequences keep. -/
structure Pwr where
  /-- Power state (R643). -/
  st        : PwrState := .p0
  /-- The reset inputs that are low now (Table 02-3, R36). -/
  emberLow  : Bool := true
  coldLow   : Bool := true
  warmLow   : Bool := true
  /-- A reset input was held low for less than its minimum width: the islands it resets, every one but the ember island, or the ember
  island, stand in an undefined state until a reset of full width (R37). -/
  coreStuck  : Bool := false
  emberStuck : Bool := false
  /-- Ember counter, 48 bits (R80), and the fraction of a tick it has gathered, in units of
  1/10^9 of an EMB_CLK period. -/
  ember     : BitVec 48 := 0
  emberFrac : Nat := 0
  /-- EMB_CLK is absent (R35): the ember counter stands. -/
  embLost   : Bool := false
  /-- Writes of ember-held registers that have not yet taken effect (R28, R654): kind and word. -/
  emberQ    : List (RegKind × Word) := []
  /-- The trip inputs that are low now (Table 02-15, R68). -/
  pfailLow  : Bool := false
  thermLow  : Bool := false
  fwLow     : Bool := false
  /-- Trip latches on which the core island has not yet acted (R657). -/
  tripTodo  : BitVec 3 := 0
  /-- Power-control outputs and the power-good inputs (Table 02-9, R71). The table gives the inputs no reset level: the model takes the
  supplies as within their limits (DESIGN CHOICE, log entry 99). -/
  enCore    : Bool := true
  enVccq    : Bool := true
  goodCore  : Bool := true
  goodVccq  : BitVec 16 := 0xFFFF
  /-- When the supplies were requested by a wake event, if power-good is awaited (R650). -/
  wakeSince : Option Nat := none
  /-- Level of DRAM_IDLE_OK (R72, R655). -/
  dramIdle  : Bool := false
  /-- IRQ_OUT levels held through P2 and P3 (R73): the targets that were high. -/
  irqHeld   : List Nat := []
  /-- When each core's watchdog expires (R667): core 0 the firebox core, 1 to 4 the hearth cores. -/
  wdog      : Tab Nat := []
  /-- Since when the conditions of P1 have held without a break (R644). -/
  idleFrom  : Nat := 0
  /-- When the channels' restart out of P1 ends (R645). -/
  restartAt : Nat := 0
  /-- The entry into P2 or P3 has withdrawn the inbound credits and parked the pins (R648). -/
  parked    : Bool := false
  /-- The entry was accepted in P1, and the core island has not returned to P0 (R74). -/
  fromP1    : Bool := false
  /-- A wake from P2 is under way: PWR_STS.STATE reads WAKING until RUN (R651). -/
  waking    : Bool := false
  /-- Start-up follows a wake from P3, whose wake runs are still to be queued (R557). -/
  wokeP3    : Bool := false
  /-- The engine has banked and BANKED_ENTRY's part is still to come (R662). -/
  bankTodo  : Bool := false
  deriving DecidableEq, Repr

/-- The debug challenge in force (R633): its 48 bytes and when it expires. -/
structure Challenge where
  value : BitVec 384
  until_ : Nat
  deriving DecidableEq, Repr

/-- The hearthstone row (Table 17-4, R612). -/
structure Hearth where
  deviceId : BitVec 128 := 0
  secured  : BitVec 8 := 0
  rma      : BitVec 8 := 0
  decom    : BitVec 8 := 0
  rootHash : BitVec 384 := 0
  dbgHash  : BitVec 384 := 0
  kes      : BitVec 256 := 0
  krb      : BitVec 64 := 0
  frb      : BitVec 32 := 0
  epoch    : BitVec 32 := 0
  deriving DecidableEq, Repr

/-- The SEC unit and the firebox core (chapter 17). -/
structure Sec where
  row       : Hearth := {}
  /-- PROG_ROOT and PROG_DBG that failed their readback: the field takes no further PROG (R620). -/
  rootBad   : Bool := false
  dbgBad    : Bool := false
  /-- Namespace key slots that are loaded (R616), 2 × 256 bits each. -/
  slots     : Tab (BitVec 512) := []
  /-- The KEKs, the pair key and the placement key (Table 17-5); 0 when zeroized or not derived. -/
  kek1      : BitVec 256 := 0
  kek2      : BitVec 256 := 0
  pairKey   : BitVec 256 := 0
  placement : BitVec 256 := 0
  /-- The pair key has been loaded, and with it the mirror keys (R621). -/
  mirrorOn  : Bool := false
  /-- The random bit generator is seeded and healthy (R625). -/
  rbgSeeded : Bool := false
  chal      : Option Challenge := none
  /-- Firebox code SRAM and data SRAM (R604): the bytes loaded. -/
  fbxCode   : List Byte := []
  fbxData   : List Byte := []
  /-- Firebox core: running, and its program counter while halted (Table 17-13). -/
  fbxRun    : Bool := false
  fbxHalted : Bool := false
  fbxPc     : BitVec 19 := 0
  /-- A burn toward RMA or DECOMMISSIONED has completed: data service has ended (R638). -/
  dataEnded : Bool := false
  /-- The last periodic self-test (R626). -/
  lastTest  : Nat := 0
  /-- The number of the checkpoint that phase 2 of a sanitize takes (R629). -/
  sanCkpt   : Nat := 0
  deriving DecidableEq, Repr

/-! ## The fabric (chapter 2) -/

/-- The unit that issued an outbound request (R55). -/
inductive IssUnit where
  | bel | map | cry | hrv | slq
  deriving DecidableEq, Repr

/-- Transaction types of outbound requests (Table 02-5, R42). -/
inductive FKind where
  | rd | pw | sw | at (aop : Nat)
  deriving DecidableEq, Repr

/-- An outbound request: it lies within one 4 KiB page (R45). A handback (R420) enables only byte 0 of each 32 B unit of its length, and carries
those bytes. -/
structure FabReq where
  port : Nat
  vc   : Nat
  kind : FKind
  addr : Nat
  len  : Nat
  data : List Byte
  /-- The tag given as it goes out (Table 02-4). -/
  tag  : Nat := 0
  /-- A write's bytes stand this many bytes apart, each enabled alone: 1, or 32 where only the first byte of each unit is written (R420). -/
  step : Nat := 1
  deriving DecidableEq, Repr

/-- What an outbound request is for: which unit's handling its response takes (R56). -/
inductive Purpose where
  /-- A sluice's fetch read (R434). -/
  | fetch (i : Nat)
  /-- A harvest writer's look-ahead read (R442). -/
  | lookahead (ring : Nat)
  /-- The posted body of a harvest entry (R451). -/
  | harvestBody (ring : Nat)
  /-- The sealed write of a harvest entry's first byte (R451). -/
  | harvestByte (ring : Nat)
  /-- A flue channel's reads of its completion unit and of its next command (R459). -/
  | flueOwn (f : Nat)
  | flueCmd (f : Nat)
  /-- A flue channel's completion body and completion byte (R462). -/
  | flueBody (f : Nat)
  | flueByte (f : Nat)
  /-- Entries handed back (R420). -/
  | handback
  /-- Request `n` of a mover context's job (R478). -/
  | mover (m c n : Nat)
  /-- The read of a dirty map tile for a checkpoint (R382). -/
  | ckptRead (mt : Nat)
  /-- Map walker, map cache, directory, pool, overlay and table traffic (R689), by what it serves. -/
  | mapFill (line : Nat)
  | mapTile (mt : Nat)
  | mapWrite (key : Nat)
  /-- The map walker's read of the overlay, or of the directory, for an LTA at a class (R388). -/
  | walk (lta cls : Nat) (dir : Bool)
  /-- A parity-store access (R293). -/
  | parity (row : Nat)
  /-- A gauge-line fetch or write-back (R261). -/
  | gauge (unit : Nat)
  | gaugeWrite (unit : Nat)
  /-- A gauge line fetched for a media step or a ledger (R568, R573). -/
  | calLine (unit : Nat)
  /-- A pan or mirror descriptor state write that no mover issues (R689). -/
  | descWrite
  /-- A read of the engine's own mailbox (R351, R353): its heartbeat, or its pairing record. -/
  | mailbox (hb : Bool)
  /-- A read of the descriptor of a mirror slot at the partner (R356). -/
  | mirDesc (slot : Nat)
  deriving DecidableEq, Repr

/-- An outbound request that awaits its response. -/
structure Outst where
  req     : FabReq
  tag     : Nat
  since   : Nat
  purpose : Purpose
  deriving DecidableEq, Repr

/-- The IOF ports' outbound side. -/
structure Fabric where
  /-- Credits the fabric has granted: `port * 8 + vc` to requests, and to write-data beats (R48). -/
  credReq : Tab Nat := []
  credDat : Tab Nat := []
  /-- Requests awaiting a response, in issue order. -/
  outst   : List Outst := []
  /-- Requests waiting for credit, in order. -/
  waiting : List (FabReq × Purpose) := []
  /-- Reads of the engine's own DRAM lines held while a write to the line awaits its response (R689). -/
  held    : List (FabReq × Purpose) := []
  /-- Every request issued, oldest first. -/
  sent    : List FabReq := []
  /-- Timed-out requests whose response would be discarded (R55): port, VC, tag and unit. -/
  late    : List (Nat × Nat × Nat × Nat) := []
  /-- Inbound credits that the engine has granted and that stand with the fabric (R48): `port * 8 + vc` to requests; to write-data beats, those that
  VCs 0 to 3 share under VC 0. -/
  inReq   : Tab Nat := []
  inDat   : Tab Nat := []
  /-- When the last request went out, or the last moment at which one was outstanding or waited (R655). -/
  busyAt  : Nat := 0
  deriving DecidableEq, Repr

/-! ## Sluices, harvest rings and the flue (chapter 11) -/

/-- What a sluice holds beside its registers. -/
structure Slq where
  /-- Fetch limit of strict mode (R433). -/
  limit    : Nat := 0
  /-- The base of R303: when the scan's time began. -/
  base     : Nat := 0
  /-- A fetch read is in flight (R434): HEAD when it was issued and its length in bytes. -/
  fetch    : Option (Nat × Nat) := none
  /-- The first bytes of an entry that extends past the end of its fetch read (R434). -/
  part     : List Byte := []
  /-- Round-robin credit left (R439). -/
  credit   : Nat := 0
  /-- The next round's WEIGHT, BURST and MAXOUT when a SLQ_MODIFY awaits it (R460). -/
  next     : Option (Nat × Nat × Nat) := none
  /-- Units that the entry needs for which the ring lacked room (R443). -/
  need     : Nat := 0
  /-- The stride detector (R393): last line, stride, confidence. -/
  lastLine : Nat := 0
  stride   : Int := 0
  conf     : Nat := 0
  deriving DecidableEq, Repr

/-- A harvest entry owed or in flight. -/
structure HEntry where
  /-- Bytes of its units; SQHEAD is filled in at issue. -/
  bytes   : List Byte
  sluice  : Nat
  irqNow  : Bool
  status  : Nat
  /-- Reserved units released with it (R441). -/
  release : Nat
  /-- The request it reports; it is that request's last entry, with which its slot is freed (R440). -/
  rtag    : Nat
  last    : Bool
  /-- A harvest NOP, which fills the ring's end (R422). -/
  nop     : Bool := false
  /-- Once issued: the unit it was written at; the CNT of its moderation, and when its TIME ends, both as they stood at its issue (R452, R453). -/
  unit    : Nat := 0
  cnt     : Nat := 0
  due     : Nat := 0
  deriving DecidableEq, Repr

/-- What a harvest ring holds beside its registers. -/
structure Hrv where
  owned    : Nat := 0
  reserved : Nat := 0
  queue    : List HEntry := []
  inflight : List HEntry := []
  /-- The entries whose sealed write failed, kept for RETRY (R457). -/
  failed   : List HEntry := []
  /-- When the TIME of the oldest unsignalled entry ends (R452). -/
  due      : Option Nat := none
  /-- The owned count has fallen below 32 units, and no look-ahead read has been issued since (R442). -/
  low      : Bool := true
  /-- When the writer last looked ahead (R442). -/
  lookedAt : Nat := 0
  /-- A look-ahead read is out, and a doorbell has asked for another meanwhile. -/
  looking  : Bool := false
  again    : Bool := false
  deriving DecidableEq, Repr

/-- A flue channel (R458, R459). -/
structure Flue where
  cbase  : Nat := 0
  rbase  : Nat := 0
  cpages : Nat := 0
  rpages : Nat := 0
  src    : Nat := 0
  port   : Nat := 0
  slqLo  : Nat := 0
  slqHi  : Nat := 0
  hrvLo  : Nat := 0
  hrvHi  : Nat := 0
  /-- Next command unit to fetch and next completion unit to write. -/
  head   : Nat := 0
  tail   : Nat := 0
  /-- A doorbell asks for the next command; another has come while a fetch is out. -/
  bell   : Bool := false
  again  : Bool := false
  /-- A fetch is out: the reads of it that await their response, the bytes read so far, and whether every response was OK (R459). -/
  fetch  : Option (Nat × Tab Byte × Bool) := none
  /-- The command fetched, as its 64 bytes, and when. -/
  cmd    : Option (List Byte) := none
  since  : Nat := 0
  /-- A LUN_OP in progress (R464): its step, the result of its array operation as (code, status, bytes), and requests of its page data
  still out. -/
  lunOp  : Option Nat := none
  lunEnd : Option (Nat × Nat × List Byte) := none
  lunOut : Nat := 0
  lunBuf : Tab Byte := []
  deriving DecidableEq, Repr

/-! ## Requests -/

/-- One tile of a request. -/
structure Tile where
  lta     : Nat
  /-- Host buffer address of the tile (R425). -/
  buf     : Nat
  /-- OUTCOME and CBC byte once they are final (Table 11-7). -/
  outcome : Option (Nat × Nat) := none
  /-- Its data, zeros or pan copy may be delivered; and the last data write of it has been issued. -/
  ready   : Bool := false
  issued  : Bool := false
  data    : List Byte := []
  /-- A write's own pan slot and durability state (Table 09-1). -/
  slot    : Option Nat := none
  dstate  : Nat := 0
  /-- A write's tile has been refused or has failed, and waits for nothing. -/
  dead    : Bool := false
  /-- Read path: step of the recovery ladder the tile has reached, the LUN its page lies in, and its
  map entry. -/
  step    : Nat := 0
  entry   : Nat := 0
  /-- The pan copy it is read from (R15). -/
  panSlot : Option Nat := none
  /-- A grader holds it, or has graded it (R511). -/
  grading : Bool := false
  graded  : Bool := false
  /-- A write's mirror job has completed (R354). -/
  mirDone : Bool := false
  /-- A write's SEQ (R334). -/
  seq     : Nat := 0
  /-- Its map entry is awaited; it has been looked up. -/
  mapWait : Bool := false
  looked  : Bool := false
  deriving DecidableEq, Repr

/-- A request: an entry taken from a sluice, until its last harvest entry is issued (R435, R440). -/
structure Request where
  rtag    : Nat
  sluice  : Nat
  cls     : Nat
  ring    : Nat
  opc     : Nat
  cid     : Nat
  irqNow  : Bool
  ack     : Nat
  nt      : Nat
  buf     : Nat
  opx     : Nat
  nsid    : Nat
  keyidx  : Nat
  nsOk    : Bool
  /-- Harvest units reserved (Table 11-5). -/
  units   : Nat
  /-- The base of a class-0 entry (R303). -/
  base    : Nat
  overCeil : Bool := false
  ra      : Bool := false
  late    : Bool := false
  /-- The first harvest entry has been queued; it was DEFERRED, or a second one is owed. -/
  firstOut : Bool := false
  deferred : Bool := false
  owesTwin : Bool := false
  /-- How the entry ended, when not by its tiles: BUF_ERR, NS_UNAVAIL, PAN_FULL, ... -/
  status  : Option Nat := none
  tiles   : List Tile := []
  /-- The row that runs the entry has started it. -/
  started : Bool := false
  /-- Its request slot is one of those that the classes share (R440). -/
  pooled  : Bool := false
  /-- FILTER: records matched, bytes written, tiles scanned, output. MARGIN: CBC bytes. -/
  matched : Nat := 0
  outLen  : Nat := 0
  scanned : Nat := 0
  margin  : List Nat := []
  marginFail : Bool := false
  /-- Waits broken (R670). -/
  breaks  : Nat := 0
  /-- FILTER: the format and program words latched at take (R508), none when a reference was bad (R510); and the FMT and PROG that the entry
  names. -/
  gfmt    : List Word := []
  gprog   : List (BitVec 64) := []
  gdesc   : Option (Nat × Nat) := none
  badRef  : Bool := false
  /-- FILTER: the output overflowed (R513); filtered writes not yet issued. -/
  outOver : Bool := false
  outLeft : Nat := 0
  /-- FLUSH: the copies it waits for, as (slot, LTA, SEQ) (R328). UNMAP: the LTAs whose records are not yet
  sealed. -/
  waitFor : List (Nat × Nat × Nat) := []
  deriving DecidableEq, Repr

/-! ## Bellows movers (chapter 12) -/

/-- The path a job serves (Tables 12-1, 12-7 and 12-9). -/
inductive JobPath where
  /-- Delivery of a tile's data to a host buffer: request tag and tile. -/
  | delivery (rtag tile : Nat)
  /-- The posted write of FILTER output. -/
  | filterOut (rtag : Nat)
  /-- A commit's own job and mirror job: request tag, tile and slot. -/
  | commitOwn (rtag tile slot : Nat)
  | commitMirror (rtag tile slot : Nat)
  /-- A pan read for destage or for the hold-up flush. -/
  | panRead (slot : Nat)
  /-- A mirror slot read for the hold-up flush. -/
  | mirRead (slot : Nat)
  /-- A pan read for a host read (R15). -/
  | panHost (rtag tile slot : Nat)
  /-- A relocation slot's read or write (R397). -/
  | relocation (n : Nat)
  /-- Page data of a LUN_OP (R464). -/
  | lunData (f at_ : Nat)
  /-- A posted descriptor write (STATE 0x2F). -/
  | desc
  /-- A chimney-log mirror copy (R674). -/
  | logMirror (seq : Nat)
  /-- Pairing record or heartbeat (R351, R353). -/
  | pairing
  /-- Journal handoff: a recovered copy placed in a slot (R345, R356, R364). -/
  | handoff (slot : Nat)
  /-- A copy sent to the twin again at reconciliation (R356). -/
  | recon (slot : Nat)
  /-- A firmware mover's program. -/
  | firmware
  deriving DecidableEq, Repr

/-- A job: one run of a program (R470). -/
structure Job where
  path  : JobPath
  prio  : Nat
  vc    : Nat
  port  : Nat
  age   : Nat
  prog  : List (BitVec 128)
  /-- Buffer bytes present when the job starts (R479). -/
  init  : Tab Byte
  /-- Crypt context of XF: key and LTA (R354, R617). -/
  crypt : Option (BitVec 512 × Nat)
  /-- The class-0 commits may take reserved contexts (R473). -/
  c0    : Bool
  /-- Runs of the path's job so far (Table 12-9). -/
  tries : Nat := 0
  deriving DecidableEq, Repr

/-- A request of a job that waits for its port's slot: instruction, element, and where its bytes lie
in the buffer. -/
structure MReq where
  n     : Nat
  instr : Nat
  elem  : Nat
  kind  : FKind
  addr  : Nat
  bofs  : Nat
  len   : Nat
  xf    : Bool
  tee   : Option Nat
  deriving DecidableEq, Repr

/-- A mover context: its job, counters, address registers and staging buffer (R470). -/
structure Ctx where
  job    : Job
  pc     : Nat := 0
  /-- The instruction whose requests are waiting or were issued last. -/
  cur    : Nat := 0
  /-- The last instruction has issued. -/
  ended  : Bool := false
  lc0    : Option Nat := none
  lc1    : Option Nat := none
  a0     : Nat := 0
  a1     : Nat := 0
  b0     : Nat := 0
  b1     : Nat := 0
  buf    : Tab Byte := []
  reqs   : List MReq := []
  /-- Requests issued and awaiting an answer. -/
  open_  : List MReq := []
  nreq   : Nat := 0
  waitSince : Option Nat := none
  /-- The job faulted: code, instruction, elements done before the faulting one; and the number of the faulting request: responses to those before it
  still count (R493). -/
  fault  : Option (Nat × Nat × Nat) := none
  faultN : Nat := 0
  deriving DecidableEq, Repr

/-- What a context of a firmware mover keeps between jobs: its staging buffer (R470, R489), and the number of its next request. -/
structure Stage where
  buf  : Tab Byte := []
  nreq : Nat := 0
  deriving DecidableEq, Repr

/-- The movers. -/
structure Movers where
  /-- Jobs waiting for a context, oldest first. -/
  jobs   : List Job := []
  /-- Contexts in use: `mover * 32 + context`. -/
  ctxs   : Tab Ctx := []
  /-- The firmware movers' staging buffers while no job runs. -/
  stage  : Tab Stage := []
  /-- A GO or a write of EN 1 that waits for the drain of its mover (R489). -/
  enPend : List Nat := []
  /-- Rotation of ports for jobs whose port is chosen per job (Table 12-1). -/
  rot    : Nat := 0
  deriving DecidableEq, Repr

/-! ## The write path (chapter 9) -/

/-- An own pan slot and its descriptor (Tables 09-3 and 09-4, R330 to R332). -/
structure Pan where
  st      : Nat
  lta     : Nat
  hid     : Nat
  seq     : Nat
  keyidx  : Nat
  urgent  : Bool
  admTime : Nat
  oldPa   : Nat
  newPa   : Nat
  /-- The partner's slot that holds its mirror copy; one that the copy has left and that is to be released. -/
  mirAt   : Nat := 0
  mirOld  : Option Nat := none
  /-- The CRC register after the slot's 4,096 B as stored, and after those of its mirror copy. -/
  dcrc    : Word := 0xFFFFFFFF
  mcrc    : Word := 0xFFFFFFFF
  /-- Own writes answered OK: the copy is STAGED; mirror writes too: MIRRORED (R324). -/
  staged   : Bool := false
  mirrored : Bool := false
  /-- Its map entry has been changed, and its MAP record appended. -/
  mapped   : Bool := false
  appended : Bool := false
  /-- The conditions of R344: page closed, row's P and Q passed, record sealed. -/
  closed   : Bool := false
  rowDone  : Bool := false
  recorded : Bool := false
  /-- It is being read back from the twin into its slot (R345). -/
  back     : Bool := false
  /-- Withheld from use after an own-slot fault (Table 12-9). -/
  withheld : Bool := false
  /-- Runs of its destage or write that have stopped on an error (Table 12-9). -/
  tries    : Nat := 0
  /-- The sluice that admitted it, and its entry's tag. -/
  sluice   : Nat := 0
  rtag     : Nat := 0
  deriving DecidableEq, Repr

/-- A mirror slot: a partner's copy held for it. -/
structure Mir where
  st      : Nat
  lta     : Nat
  hid     : Nat
  seq     : Nat
  admTime : Nat
  keyidx  : Nat := 0
  tcrc    : Word := 0
  deriving DecidableEq, Repr

/-- A journal record (Table 09-6, R347). -/
structure JRec where
  rtype : Nat
  lta   : Nat
  seq   : Nat
  newPa : Nat
  oldPa : Nat
  deriving DecidableEq, Repr

/-- What a journal stream is doing with its open page (R348). -/
inductive JPhase where
  | filling | programming | sealing
  deriving DecidableEq, Repr

/-- A journal stream (R346, R348). -/
structure Stream where
  /-- Its open journal group, as (set, group), and the next page position in it. -/
  grp    : Option (Nat × Nat) := none
  pos    : Nat := 0
  /-- The journal group that follows, once its records are in the stream's last page before it (R379). -/
  nextG  : Option (Nat × Nat) := none
  jseq   : Nat := 0
  page   : List JRec := []
  since  : Nat := 0
  phase  : JPhase := .filling
  /-- Records of pages programmed but not yet sealed, with their jseq. -/
  flight : List (Nat × List JRec) := []
  /-- Records sealed since the checkpoint pointer, and the pointer's jseq. -/
  since_ckpt : Nat := 0
  ptr    : Nat := 0
  /-- The pointer of the older valid checkpoint. -/
  ptrOld : Nat := 0
  /-- Committed pages, oldest first: jseq and records. -/
  pages  : List (Nat × List JRec) := []
  lastSet : Option Nat := none
  /-- Where its pages have been programmed: jseq, unit and row (R382). -/
  places : List (Nat × Nat × Nat) := []
  /-- Groups it has filled, with the jseq of their last page, not yet released (R386). -/
  old    : List (Nat × Nat × Nat) := []
  deriving DecidableEq, Repr

/-- A valid descriptor of a mirror copy at the partner (Table 09-3, R356). -/
structure MirDesc where
  slot    : Nat
  lta     : Nat
  seq     : Nat
  keyidx  : Nat
  admTime : Nat
  tcrc    : Nat
  deriving DecidableEq, Repr

/-- The twin protocol (R350 to R357). -/
structure Twin where
  nonce   : BitVec 64 := 0
  /-- The partner's NONCE last received; 0 if none. -/
  echo    : BitVec 64 := 0
  /-- Start of pairing, for the 30 s of R114. -/
  since   : Nat := 0
  single  : Bool := false
  paired  : Bool := false
  peerDmax  : Nat := 0
  peerSlots : Nat := 0
  hbOut   : Nat := 0
  hbIn    : Nat := 0
  hbTime  : Nat := 0
  lastSend : Nat := 0
  /-- Slots whose reconciliation is still under way (R356). -/
  todo    : List Nat := []
  /-- The partner's descriptor that is being read, those read, and the mirror copies whose LTA's mapped SEQ is awaited (R356). -/
  scan    : Option Nat := none
  descs   : List MirDesc := []
  probes  : List MirDesc := []
  deriving DecidableEq, Repr

/-- The write path. -/
structure Write where
  own     : Tab Pan := []
  mir     : Tab Mir := []
  /-- The SEQ counter (R334). -/
  seq     : Nat := 0
  streams : Tab Stream := []
  /-- Groups reserved for the flush (R343). -/
  reserve : List (Nat × Nat) := []
  /-- Groups read by pan reload, to be released (R365). -/
  reloaded : List (Nat × Nat) := []
  twin    : Twin := {}
  /-- Tiles admitted that have not reached MEDIA: sluice, LTA and SEQ (R328). -/
  admitted : List (Nat × Nat × Nat) := []
  /-- A power-fail trip has stopped admission and destage (R358). -/
  pfail   : Bool := false
  /-- Destage waits for the RELEASE and RESERVE records to be sealed (R365). -/
  destageHeld : Bool := false
  /-- Occupancy pressure destage is running (R337). -/
  pressure : Bool := false
  /-- The hold-up flush (R359): tiles still to be read, as (mirror copy, slot, row, position, stripe); tiles flushed; FLUSH_END is appended. -/
  plan    : List (Bool × Nat × Nat × Nat × Nat) := []
  flushed : Nat := 0
  flushEnd : Bool := false
  deriving DecidableEq, Repr

/-- The sections of the kindling image in force (chapter 3). -/
structure Img where
  topo : Tab Topo := []
  vccq : List Nat := []
  profiles : Tab Profile := []
  geo  : Geo := {}
  hold : HoldUp := {}
  twin : Option TwinSec := none
  cal  : CalSec := {}
  /-- DEF_WEIGHT, DEF_BURST and DEF_MAXOUT of the default queue section (R466). -/
  defW : Nat := 1
  defB : Nat := 1
  defM : Nat := 1
  /-- The image as it was read and verified, until the MAP stage takes the map-cache SRAM (R84). -/
  copy : Option (List Byte) := none
  /-- SECVER, firebox SVN and RB_COMMIT of the image in use (R91, R608). -/
  secver : Nat := 0
  svn : Nat := 0
  commit : Bool := false
  deriving DecidableEq, Repr

/-- The state of the engine. -/
structure State where
  /-- The part: R1 gives both alike, and the machine at reset is an IG-7332 (DESIGN CHOICE, log entry 99). -/
  part    : Part := .ig7332
  /-- Registers whose word differs from the reset word: `regKey` to word (R3). -/
  regs    : Tab Word := []
  /-- The nanosecond counter (R80). -/
  time    : BitVec 64 := 0
  /-- The model's own counter of free values (DESIGN CHOICE, log entry 2). -/
  freeCtr : Nat := 0
  /-- The on-chip chimney log, newest entry first, at most 2,048 (R671). -/
  log     : List LogEntry := []
  /-- SEQ of the next entry to be copied to the host-memory mirror (R674). -/
  logMir  : Word := 0
  /-- Responses issued to inbound requests, oldest first. -/
  resps   : List Resp := []
  /-- High halves latched by a read of a low half (R683): `src * 4 + pair` to word. -/
  hiLatch : Tab Word := []
  /-- MAP_WA_MEDIA latched by a read of MAP_WA_HOST (R416). -/
  waLatch : Option Word := none
  /-- Threshold stacks (R583): target to its claims in service, newest first, as (ID, priority). -/
  sicStack : Tab (List (Nat × Nat)) := []
  /-- When each held lock's lease ends, on the nanosecond counter (R595). -/
  leases  : Tab Nat := []
  pwr     : Pwr := {}
  sec     : Sec := {}
  fab     : Fabric := {}
  slq     : Tab Slq := []
  hrv     : Tab Hrv := []
  flue    : Tab Flue := []
  /-- The request tag last given (R435), and the class-0 and round-robin pointers of the fetch
  arbiter (R438, R439): class to the next sluice. -/
  rtag    : Nat := 0
  fetchPtr : Tab Nat := []
  /-- Requests outstanding, by request tag. -/
  reqs    : Tab Request := []
  mov     : Movers := {}
  wp      : Write := {}
  ch      : Tab Chan := []
  md      : Media := {}
  gr      : Grade := {}
  cal     : Cal := {}
  dg      : Draught := {}
  img     : Img := {}
  xspi    : Xspi := {}
  tap     : Tap := {}
  /-- Firebox firmware has started at the end of the KINDLING stage (R81, R607). -/
  fwUp    : Bool := false
  /-- The commands waiting, first in, first out. -/
  pending : List Instr := []
  deriving DecidableEq, Repr

/-- The machine right after reset: every field at its reset value, the three reset inputs still low
(DESIGN CHOICE, log entry 1). -/
def State.reset : State := {}

end Sys2Proof.Machine
end

