-- ==== Sys2Proof/Machine/Operands.lean ====
section
/-! DEFINITION. The operand forms of the graders' instruction words (Table 13-2) and of the stokers'
microwords (Tables 05-1 to 05-4). -/

namespace Sys2Proof.Machine

/-! ## Grader instruction words -/

/-- Bits `hi` down to `lo` of a 64-bit word. -/
def wbits (x : BitVec 64) (hi lo : Nat) : Nat := (x >>> lo).toNat % 2 ^ (hi + 1 - lo)

def gOpc (x : BitVec 64) : Nat := wbits x 63 58
def gXd (x : BitVec 64) : Nat := wbits x 57 55
def gXa (x : BitVec 64) : Nat := wbits x 54 52
def gXb (x : BitVec 64) : Nat := wbits x 51 49
def gBi (x : BitVec 64) : Bool := wbits x 48 48 = 1
def gOfs (x : BitVec 64) : Nat := wbits x 43 32
def gTarget (x : BitVec 64) : Nat := wbits x 37 32
def gImm (x : BitVec 64) : BitVec 64 := (x.setWidth 32).signExtend 64

/-- Operand B: a register, or the immediate (Table 13-2). -/
def gB (x : BitVec 64) (regs : List (BitVec 64)) : BitVec 64 :=
  if gBi x then gImm x else (regs[gXb x]?).getD 0

/-- Operand A. -/
def gA (x : BitVec 64) (regs : List (BitVec 64)) : BitVec 64 := (regs[gXa x]?).getD 0

/-- Size in bytes of a load, and whether it is big-endian (Table 13-2). -/
def gSize (x : BitVec 64) : Nat := 2 ^ wbits x 45 44
def gBig (x : BitVec 64) : Bool := wbits x 46 46 = 1

/-- An operation with two source operands: ADD to REMU, AND to MULS, and the comparisons. -/
def gBinary (o : Nat) : Bool :=
  decide ((0x08 ≤ o ∧ o ≤ 0x0E) ∨ (0x11 ≤ o ∧ o ≤ 0x1B) ∨ (0x20 ≤ o ∧ o ≤ 0x25))

/-- The operation codes that Table 13-3 defines. -/
def gDefined (o : Nat) : Bool :=
  gBinary o || [0x01, 0x02, 0x04, 0x0F, 0x10, 0x1C, 0x28, 0x29, 0x30, 0x31, 0x32].contains o

/-- The bits an operation uses (R504): every other bit must be 0. -/
def gUsed (x : BitVec 64) : BitVec 64 :=
  let f (hi lo : Nat) : BitVec 64 := BitVec.ofNat 64 (2 ^ (hi + 1) - 2 ^ lo)
  let o := gOpc x
  let op := f 63 58
  if o = 0x01 ∨ o = 0x02 then op ||| f 57 55 ||| f 46 44 ||| f 43 32
  else if o = 0x04 then op ||| f 57 55 ||| f 31 0
  else if o = 0x0F ∨ o = 0x10 then op ||| f 57 52
  else if o = 0x1C then op ||| f 57 49 ||| f 5 0
  else if gBinary o then op ||| f 57 52 ||| f 48 48 ||| (if gBi x then f 31 0 else f 51 49)
  else if o = 0x28 ∨ o = 0x29 then op ||| f 54 52 ||| f 37 32
  else if o = 0x32 then op ||| f 54 52
  else op

/-! ## Microwords -/

/-- Bits `hi` down to `lo` of a microword. -/
def mbits (x : BitVec 96) (hi lo : Nat) : Nat := (x >>> lo).toNat % 2 ^ (hi + 1 - lo)

def mOp (x : BitVec 96) : Nat := mbits x 94 88
def mPins (x : BitVec 96) : BitVec 16 := BitVec.ofNat 16 (mbits x 87 72)
def mSel (x : BitVec 96) : Nat := mbits x 87 85
def mCle (x : BitVec 96) : Bool := mbits x 84 84 = 1
def mAle (x : BitVec 96) : Bool := mbits x 83 83 = 1
def mRoute (x : BitVec 96) : Nat := mbits x 71 64
def mImm (x : BitVec 96) : Word := BitVec.ofNat 32 (mbits x 63 32)
def mCond (x : BitVec 96) : Nat := mbits x 31 24
def mWcnt (x : BitVec 96) : Nat := mbits x 9 0

/-- The address a taken branch goes to: {OP.TS, TARGET} (Table 05-6). -/
def mTarget (x : BitVec 96) : BitVec 15 := BitVec.ofNat 15 (mbits x 95 95 * 2 ^ 14 + mbits x 23 10)

end Sys2Proof.Machine
end

