-- ==== Sys2Proof/Config.lean ====
section
/-! DEFINITION. What the spec leaves open: the free values, which have no body, so that every
claim holds whatever they are. -/

namespace Sys2Proof

/-- A fresh value the spec leaves open. The machine applies it to `State.freeCtr`, which each use
advances (DESIGN CHOICE, log entry 2). -/
opaque Config.freeValue : Nat → BitVec 64

/-- The severity byte of a chimney-log entry, by unit and code: Table 18-9 names the field, and no
rule says which severity an event has (DESIGN CHOICE, log entry 3). -/
opaque Config.logSeverity (unit code : Nat) : Byte

/-- How the log entry of a forced lock release names its cause, expiry or owner reset: R597 asks for
the cause and no rule gives it a code (DESIGN CHOICE, log entry 5). -/
opaque Config.lockBreakCause (byReset : Bool) : BitVec 64

/-- SHA-384 (Table 00-4), uninterpreted (DESIGN CHOICE, log entry 6). -/
opaque Config.sha384 (msg : List Byte) : BitVec 384

/-- HMAC-SHA-384 (Table 00-4), uninterpreted (DESIGN CHOICE, log entry 6). -/
opaque Config.hmac384 (key : BitVec 256) (msg : List Byte) : BitVec 384

/-- ECDSA P-384 verification of `r` and `s` over a message (Table 00-4), uninterpreted (DESIGN CHOICE, log entry 6). -/
opaque Config.ecdsaVerify (pub msg r s : List Byte) : Bool

/-- AES-256 KW wrapping under a KEK (Table 00-4), uninterpreted (DESIGN CHOICE, log entry 6). -/
opaque Config.kwWrap (kek : BitVec 256) (key : List Byte) : List Byte

/-- AES-256 KW unwrapping under a KEK; none when the integrity check fails (DESIGN CHOICE, log entry 6). -/
opaque Config.kwUnwrap (kek : BitVec 256) (blob : List Byte) : Option (List Byte)

/-- AES-256-XTS under a key pair, with the LTA as tweak, uninterpreted (R617, DESIGN CHOICE, log entry 6). -/
opaque Config.xtsEncrypt (key : BitVec 512) (lta : Nat) (data : List Byte) : List Byte

/-- The inverse of AES-256-XTS encryption, uninterpreted (R617, DESIGN CHOICE, log entry 6). -/
opaque Config.xtsDecrypt (key : BitVec 512) (lta : Nat) (data : List Byte) : List Byte

/-- Krytrad's manufacturer identity in the IDCODE register, of which R77 gives the place alone (DESIGN CHOICE, log entry 105). -/
opaque Config.idcodeMaker : BitVec 11

/-- The SRC that the engine's own requests carry (Table 02-4): no rule gives its value (DESIGN CHOICE, log entry 123). -/
opaque Config.outboundSrc : Nat

/-- Where the overlay's hash table places an LTA's entry (R389), which no rule gives (DESIGN CHOICE, log entry 125). -/
opaque Config.overlaySlot (lta : Nat) : Nat

/-- The event code of a chimney-log entry that a rule requires and for which Tables 18-10 and 18-11
list no code, by the rule's number (DESIGN CHOICE, log entry 8). -/
opaque Config.eventCode (rule : Nat) : Nat

/-- The parity bytes of the LDPC code over the information bytes of a codeword: the spec gives the code's rate and
no matrix (R243, DESIGN CHOICE, log entry 6). -/
opaque Config.ldpcParity (info : List Byte) : List Byte

/-- AES-256 encryption of one 16 B block (R310), uninterpreted (DESIGN CHOICE, log entry 6). -/
opaque Config.aes256 (key : BitVec 256) (block : List Byte) : List Byte

/-- The 64 B of a heartbeat from its hearth ID, count and truncated HMAC, and the reading of them: R353 says what a heartbeat holds, and no rule
gives its layout, nor which of its bytes the HMAC covers (DESIGN CHOICE, log entry 39). -/
opaque Config.heartbeat (key : BitVec 256) (hid count : Nat) : List Byte
opaque Config.heartbeatRead (key : BitVec 256) (data : List Byte) : Option (Nat × Nat)

end Sys2Proof
end

