-- ==== Sys2Proof/Machine/Tab.lean ====
section
/-! DEFINITION. Sparse tables: reading with a default, writing in canonical form (indexes
strictly rising, no entry equal to the default), and the well-formedness that writing keeps. -/

namespace Sys2Proof.Machine

/-- The entry at an index, if one is listed. -/
def Tab.find (k : Nat) : Tab α → Option α
  | [] => none
  | (a, v) :: r => if a = k then some v else Tab.find k r

/-- The value at an index; an unlisted index holds the default. -/
def Tab.get (d : α) (k : Nat) (t : Tab α) : α := (Tab.find k t).getD d

/-- The table without the entry at an index. -/
def Tab.del (k : Nat) : Tab α → Tab α
  | [] => []
  | (a, v) :: r => if a = k then Tab.del k r else (a, v) :: Tab.del k r

/-- A new entry put at its place in a table that does not list its index. -/
def Tab.insert (k : Nat) (v : α) : Tab α → Tab α
  | [] => [(k, v)]
  | (a, w) :: r => if k < a then (k, v) :: (a, w) :: r else (a, w) :: Tab.insert k v r

/-- The entry at an index set to a value, whatever the value. -/
def Tab.put (k : Nat) (v : α) (t : Tab α) : Tab α := Tab.insert k v (Tab.del k t)

/-- The value at an index set, in canonical form: the default is not listed. -/
def Tab.set [DecidableEq α] (d : α) (k : Nat) (v : α) (t : Tab α) : Tab α :=
  if v = d then Tab.del k t else Tab.put k v t

/-- Every listed index lies above a bound, and the indexes rise strictly. -/
def Tab.risingFrom : Nat → Tab α → Bool
  | _, [] => true
  | b, (a, _) :: r => decide (b ≤ a) && Tab.risingFrom (a + 1) r

/-- The indexes rise strictly. -/
def Tab.rising (t : Tab α) : Bool := Tab.risingFrom 0 t

/-- The canonical form of a table whose unlisted indexes hold `d`. -/
def Tab.wf [DecidableEq α] (d : α) (t : Tab α) : Bool :=
  Tab.rising t && t.all fun e => decide (e.2 ≠ d)

/-- The value at an index changed by a function. -/
def Tab.modify (k : Nat) (f : α → α) : Tab α → Tab α
  | [] => []
  | (a, v) :: r => if a = k then (a, f v) :: r else (a, v) :: Tab.modify k f r

/-- The indexes listed. -/
def Tab.keys (t : Tab α) : List Nat := t.map Prod.fst

end Sys2Proof.Machine
end

