-- ==== Sys2Proof/Machine/Ops.lean ====
section
/-! DEFINITION. The named operations every family of commands uses: registers and their fields,
free values, the chimney log, responses to inbound requests, and interrupt edges. -/

namespace Sys2Proof.Machine

/-- What a step answers: the one outcome of every meaning here. -/
abbrev Out := Host.Outcome State Fault Refusal

/-! ## Registers and fields -/

/-- The word a register copy holds. -/
def State.reg (s : State) (k : RegKind) (i : Nat := 0) : Word :=
  Tab.get (regReset k i) (regKey k i) s.regs

/-- The state with a register copy set. -/
def State.setReg (s : State) (k : RegKind) (i : Nat) (w : Word) : State :=
  { s with regs := Tab.set (regReset k i) (regKey k i) w s.regs }

/-- A field's value in a word. -/
def Fld.get (f : Fld) (w : Word) : Nat := (w >>> f.lo).toNat % 2 ^ (f.hi + 1 - f.lo)

/-- The word with a field's value set; the value wraps at the field's width. -/
def Fld.put (f : Fld) (v : Nat) (w : Word) : Word :=
  (w &&& ~~~f.mask) ||| ((BitVec.ofNat 32 v <<< f.lo) &&& f.mask)

/-- The largest value a field holds. -/
def Fld.max (f : Fld) : Nat := 2 ^ (f.hi + 1 - f.lo) - 1

/-- A field of a register copy. -/
def State.get (s : State) (f : Fld) (i : Nat := 0) : Nat := f.get (s.reg f.kind i)

/-- The state with a field of a register copy set. -/
def State.put (s : State) (f : Fld) (v : Nat) (i : Nat := 0) : State :=
  s.setReg f.kind i (f.put v (s.reg f.kind i))

/-- A one-bit field as a Bool. -/
def State.flag (s : State) (f : Fld) (i : Nat := 0) : Bool := s.get f i != 0

/-- The state with a count raised, saturating at the field's largest value. -/
def State.inc (s : State) (f : Fld) (i : Nat := 0) (n : Nat := 1) : State :=
  s.put f (min f.max (s.get f i + n)) i

/-- A one-bit field set to a Bool. -/
def State.putFlag (s : State) (f : Fld) (b : Bool) (i : Nat := 0) : State := s.put f b.toNat i

/-- The mask of the fields of a register that have one of the given access codes. -/
def RegKind.maskOf (k : RegKind) (acc : Access) : Word :=
  (k.fields.map fun f => if f.acc = acc then f.mask else 0).foldl (· ||| ·) 0

/-- What a software write leaves in a register, by the access codes of its fields (Table 00-3, R4):
RW takes the value, W1C clears and W1S sets where the value has a 1, every other bit keeps. -/
def writeWord (k : RegKind) (old w : Word) : Word :=
  ((old &&& ~~~k.maskOf .rw) ||| (w &&& k.maskOf .rw)) &&& ~~~(w &&& k.maskOf .w1c)
    ||| (w &&& k.maskOf .w1s)

/-- What a read leaves in a register: its RC fields clear (R4, R8). -/
def clearRc (k : RegKind) (old : Word) : Word := old &&& ~~~k.maskOf .rc

/-- The four bytes of a register word, in its byte lanes (R3). -/
def wordBytes (w : Word) : List Byte :=
  [w.setWidth 8, (w >>> 8).setWidth 8, (w >>> 16).setWidth 8, (w >>> 24).setWidth 8]

/-- The beat that answers a read of a register at an offset: the word in its byte lanes, zero in the other lanes (R681). -/
def laneBytes (ofs : Nat) (w : Word) : List Byte :=
  List.replicate (ofs % 64) 0 ++ wordBytes w ++ List.replicate (60 - ofs % 64) 0

/-- A word of 32 bits within a wider value: word `i`, the least significant first. -/
def wordOf (x : Nat) (i : Nat) : Word := BitVec.ofNat 32 (x >>> (32 * i))

/-! ## Free values -/

/-- A fresh free value, and the state with its counter advanced (DESIGN CHOICE, log entry 2). -/
def State.fresh (s : State) : BitVec 64 × State :=
  (Config.freeValue s.freeCtr, { s with freeCtr := s.freeCtr + 1 })

/-! ## The chimney log -/

/-- Units of log entries (Table 18-9). -/
def uGLB : Nat := 0x01
def uSIC : Nat := 0x02
def uSLQ : Nat := 0x03
def uHRV : Nat := 0x04
def uBEL : Nat := 0x05
def uSTK : Nat := 0x06
def uCRY : Nat := 0x07
def uCAL : Nat := 0x08
def uMAP : Nat := 0x09
def uDRG : Nat := 0x0A
def uSEC : Nat := 0x0B
def uPWR : Nat := 0x0C
def uTRP : Nat := 0x0D
def uLCK : Nat := 0x0E
def uDBG : Nat := 0x0F

/-- Identifiers and values packed from byte 0, each at its own width in bytes (R672). -/
def packBytes : List (Nat × Nat) → BitVec 64
  | [] => 0
  | (n, v) :: r => (packBytes r <<< (8 * n)) ||| BitVec.ofNat 64 (v % 256 ^ n)

/-- The on-chip ring with one more entry: SEQ is GLB_LOG_SEQ, which advances; the oldest entry goes
when 2,048 are held (R671). -/
def State.logEntry (s : State) (unit code : Nat) (obj val : BitVec 64) (rest : List Byte := []) : State :=
  let seq := s.reg .glbLogSeq
  { s.setReg .glbLogSeq 0 (seq + 1) with
    log := (⟨s.time, seq, unit, Config.logSeverity unit code, code, obj, val, rest⟩ :: s.log).take 2048 }

/-- A log entry whose OBJ and VAL are packed from (bytes, value) pairs (R672). -/
def State.logPacked (s : State) (unit code : Nat) (obj : List (Nat × Nat) := [])
    (val : List (Nat × Nat) := []) : State :=
  s.logEntry unit code (packBytes obj) (packBytes val)

/-! ## Responses -/

/-- A response issued to an inbound request. -/
def State.respond (s : State) (r : Req) (code : RCode) (data : List Byte) : State :=
  { s with resps := s.resps ++ [⟨r.port, r.vc, r.tag, code, data⟩] }

/-- The response to a write: a sealed write has one, a posted write has none (R42). -/
def State.respondWrite (s : State) (r : Req) (code : RCode) : State :=
  if r.sealedWr then s.respond r code [] else s

/-! ## Power, reset and banking tests -/

/-- A reset input is low (R36, R37). -/
def State.lowReset (s : State) : Bool := s.pwr.emberLow || s.pwr.coldLow || s.pwr.warmLow

/-- A reset input is low, or a reset that was too short has left an island undefined (R37): no part of the engine runs (DESIGN CHOICE, log
entry 100). -/
def State.inReset (s : State) : Bool := s.lowReset || s.pwr.coreStuck || s.pwr.emberStuck

/-- The ember island is in reset, or undefined. -/
def Pwr.emberDown (p : Pwr) : Bool := p.emberLow || p.emberStuck

/-- The core island runs: no reset input is low and the power state is not P2 or P3 (R31, R37). -/
def State.coreOn (s : State) : Bool :=
  !s.inReset && s.pwr.st != .p2 && s.pwr.st != .p3

/-- The engine is in the banked state (R661). -/
def State.banked (s : State) : Bool := s.flag Fld.glbBankStsBanked

/-- The core island runs and the engine is not banked. -/
def State.running (s : State) : Bool := s.coreOn && !s.banked

/-- The start-up stage (GLB_BOOT_STS.STAGE). -/
def State.stage (s : State) : Nat := s.get Fld.glbBootStsStage

/-- An event of the core island: with the island off or in reset it does not come about
(DESIGN CHOICE, log entry 4). -/
def onCore (s : State) (t : State) : Out := .next (if s.coreOn then t else s)

/-- An event that comes about only where a condition of its rule holds (DESIGN CHOICE, log entry 4). -/
def onlyIf (c : Bool) (s t : State) : Out := .next (if c then t else s)

/-- The nanosecond counter as a number. -/
def State.now (s : State) : Nat := s.time.toNat

/-! ## Interrupt edges -/

/-- One bit of a register word set, in the register table. -/
def regsSetBit (regs : Tab Word) (k : RegKind) (i b : Nat) : Tab Word :=
  Tab.set (regReset k i) (regKey k i)
    (Tab.get (regReset k i) (regKey k i) regs ||| (1#32 <<< b)) regs

/-- One bit of a register word set. -/
def State.setBit (s : State) (k : RegKind) (i b : Nat) : State :=
  { s with regs := regsSetBit s.regs k i b }

/-- One bit of a register word cleared. -/
def State.clrBit (s : State) (k : RegKind) (i b : Nat) : State :=
  s.setReg k i (s.reg k i &&& ~~~(1#32 <<< b))

/-- One bit of a register word. -/
def State.bit (s : State) (k : RegKind) (i b : Nat) : Bool := (s.reg k i).getLsbD b

/-- The register, its copy and the bit that hold a source's pending bit (Tables 16-3 and 16-4). -/
def pendBit : Source → RegKind × Nat × Nat
  | .priv t k => if k < 32 then (.sicPpendLo, t, k) else (.sicPpendHi, t, k - 32)
  | .shared i => (.sicSpend, i / 32, i % 32)

/-- A rising edge on a source sets its pending bit (R578). -/
def State.edge (s : State) (src : Source) : State :=
  s.setBit (pendBit src).1 (pendBit src).2.1 (pendBit src).2.2

/-- The register table after an edge on one private source at each of some targets. -/
def regsEdgeAll (k : Nat) (ts : List Nat) (regs : Tab Word) : Tab Word :=
  ts.foldl (fun r t => regsSetBit r (pendBit (.priv t k)).1 t (pendBit (.priv t k)).2.2) regs

/-- An edge on one private source at every target (R658, R662). -/
def State.edgeAll (s : State) (k : Nat) : State :=
  { s with regs := regsEdgeAll k (List.range 64) s.regs }

end Sys2Proof.Machine
end

