-- ==== Sys2Proof/Machine/Access.lean ====
section
/-! DEFINITION. Who may reach which register: requester identities (R609), access by class (R610,
Table 17-3), the debug levels (R687, Table 17-7), and what start-up, the banked state and the power
states do to an inbound request (R81, R664, R647, R649). -/

namespace Sys2Proof.Machine

/-- The class of a requester (Table 17-2). -/
inductive Cls where
  | dap | plat | fb | pol | host
  deriving DecidableEq, Repr

/-- The class an SRC belongs to; none for a reserved SRC (R609). -/
def classOf (src : Nat) : Option Cls :=
  if src = 0x01 then some .dap
  else if src = 0x02 ∨ src = 0x03 then some .plat
  else if src = 0x10 then some .fb
  else if 0x11 ≤ src ∧ src ≤ 0x14 then some .pol
  else if 0x40 ≤ src ∧ src ≤ 0xFF then some .host
  else none

/-- What a row of Table 17-3 gives the four classes: (reads, writes) for FB, POL, HOST and PLAT. -/
structure Rights where
  fb   : Bool × Bool
  pol  : Bool × Bool
  host : Bool × Bool
  plat : Bool × Bool
  deriving DecidableEq, Repr

def rwRight : Bool × Bool := (true, true)
def roRight : Bool × Bool := (true, false)
def woRight : Bool × Bool := (false, true)
def noRight : Bool × Bool := (false, false)

/-- The mover that a BEL register belongs to; the registers that only movers 48 to 55 have are
counted from mover 48 (Table 19-2). -/
def belMover (k : RegKind) (i : Nat) : Nat :=
  match k with
  | .belCtl | .belCfg | .belSts | .belFaddrLo | .belFaddrHi | .belJobs => i
  | .belElemLo | .belElemHi => 48 + i / 16
  | .belProg => 48 + i / 128
  | _ => 48 + i

/-- A listed, valid sluice of host owner is bound to the ring (Table 17-3). -/
def ringHostBound (s : State) (r : Nat) : Bool :=
  s.regs.any fun e =>
    e.1 % 256 == RegKind.slqCfg.ctorIdx && s.flag Fld.slqCfgValid (e.1 / 256)
      && s.get Fld.slqCfgOwner (e.1 / 256) == 0 && s.get Fld.slqCfg2Hrv (e.1 / 256) == r

/-- The block an offset of the window lies in, as a register kind's prefix stands for it. -/
inductive Block where
  | glb | pwr | trp | lck | dbg | sic | sec | drg | cal | cry | map | bel | slq | hrv | stk
  deriving DecidableEq, Repr

/-- The block of a register (Table 19-1): the offset of its first copy decides it. -/
def RegKind.block (k : RegKind) : Block :=
  let o := k.layout.1
  if o < 0x100000 then .glb
  else if o < 0x110000 then .pwr
  else if o < 0x120000 then .trp
  else if o < 0x130000 then .lck
  else if o < 0x200000 then .dbg
  else if o < 0x300000 then .sic
  else if o < 0x400000 then .sec
  else if o < 0x500000 then .drg
  else if o < 0x600000 then .cal
  else if o < 0x700000 then .cry
  else if o < 0x800000 then .map
  else if o < 0x1000000 then .bel
  else if o < 0x1100000 then .slq
  else if o < 0x2000000 then .hrv
  else .stk

/-- The rights of SLQ registers of one sluice, by its owner. -/
def sluiceRights (s : State) (i : Nat) : Rights :=
  match s.get Fld.slqCfgOwner i with
  | 0 => ⟨rwRight, rwRight, rwRight, noRight⟩
  | 1 => ⟨rwRight, rwRight, roRight, noRight⟩
  | _ => ⟨rwRight, noRight, noRight, noRight⟩

/-- The row of Table 17-3 for a register; `src` is the requester, for the SIC registers of its own
target. -/
def rightsOf (s : State) (src : Nat) (k : RegKind) (i : Nat) : Rights :=
  match k.block with
  | .glb => ⟨rwRight, roRight, roRight, roRight⟩
  | .sic =>
    match k with
    | .sicSpend | .sicSmsk | .sicSwi => ⟨rwRight, rwRight, rwRight, noRight⟩
    | .sicRoute => ⟨rwRight, rwRight, roRight, noRight⟩
    | .sicPprio => ⟨rwRight, rwRight, if src = 0x40 + i / 8 then rwRight else noRight, noRight⟩
    | _ => ⟨rwRight, rwRight, if src = 0x40 + i then rwRight else noRight, noRight⟩
  | .slq =>
    match k with
    | .slqHalt => ⟨rwRight, rwRight, roRight, rwRight⟩
    | .slqFdb | .slqFsts =>
      if i = 0 then ⟨rwRight, roRight, noRight, noRight⟩
      else if i = 1 then ⟨rwRight, rwRight, noRight, noRight⟩
      else ⟨rwRight, rwRight, rwRight, noRight⟩
    | .slqGsts | .slqPool => ⟨rwRight, rwRight, roRight, noRight⟩
    | _ => sluiceRights s i
  | .hrv => ⟨rwRight, rwRight, if ringHostBound s i then rwRight else roRight, noRight⟩
  | .bel =>
    match k with
    | .belGsts | .belSctxBusy => ⟨rwRight, roRight, noRight, noRight⟩
    | _ =>
      if 48 ≤ belMover k i ∧ belMover k i ≤ 53 then ⟨rwRight, rwRight, noRight, noRight⟩
      else ⟨rwRight, roRight, noRight, noRight⟩
  | .stk =>
    if k = .stkDbgCtl then ⟨noRight, noRight, noRight, noRight⟩
    else ⟨rwRight, rwRight, roRight, noRight⟩
  | .cry | .cal | .map => ⟨rwRight, rwRight, roRight, noRight⟩
  | .drg =>
    match k with
    | .drgCtl | .drgCeilCfg | .drgCeilCfg2 | .drgCeilMskLo | .drgCeilMskHi =>
      ⟨rwRight, roRight, roRight, noRight⟩
    | _ => ⟨rwRight, rwRight, roRight, noRight⟩
  | .pwr => ⟨rwRight, rwRight, roRight, roRight⟩
  | .trp => ⟨rwRight, roRight, roRight, rwRight⟩
  | .lck =>
    match k with
    | .lckCtl | .lckSts => ⟨rwRight, rwRight, rwRight, noRight⟩
    | .lckOwnerRst => ⟨woRight, noRight, noRight, woRight⟩
    | _ => ⟨rwRight, roRight, roRight, noRight⟩
  | .sec =>
    match k with
    | .secSts | .secCtr | .secId => ⟨rwRight, roRight, roRight, roRight⟩
    | .secNsCtl | .secNsBaseLo | .secNsBaseHi | .secNsSizeLo | .secNsSizeHi =>
      ⟨rwRight, roRight, noRight, noRight⟩
    | _ => ⟨rwRight, noRight, noRight, noRight⟩
  | .dbg =>
    match k with
    | .dbgSts => ⟨roRight, roRight, roRight, roRight⟩
    | .dbgCtl => ⟨woRight, noRight, noRight, noRight⟩
    | _ => ⟨noRight, noRight, noRight, noRight⟩

/-- The rights of one class in a row. -/
def Rights.of (x : Rights) : Cls → Bool × Bool
  | .fb => x.fb
  | .pol => x.pol
  | .host => x.host
  | .plat => x.plat
  | .dap => noRight

/-- A (reads, writes) pair allows an access; a read of a register with an RC field counts as a
write (R610). -/
def rightAllows (p : Bool × Bool) (k : RegKind) (write : Bool) : Bool :=
  if write then p.2 else p.1 && (!k.hasRc || p.2)

/-- What the debug access port may do at the level in force (R687, Table 17-7). `w` is the word a
write carries. Of the key commands that OPEN excepts, every access to SEC_KCMD is refused, one without GO too (DESIGN CHOICE, log
entry 107). -/
def dapAllows (s : State) (k : RegKind) (i : Nat) (write : Bool) (w : Word) : Bool :=
  let level := s.get Fld.dbgStsLevel
  let scope := BitVec.ofNat 16 (s.get Fld.dbgStsScope)
  if !write && (k.block == .glb || k.block == .dbg) then true
  else if write && k.block == .glb then false
  else if k.block == .dbg then
    write && (k == .dbgCtl || k == .dbgResp || k == .dbgSts || (k == .dbgFbxCtl && level == 2))
  else if k == .pwrWdogCfg && write then false
  else if level == 1 then
    if k == .stkDbgCtl then scope.getLsbD 0
    else if k == .secLcCtl then write && scope.getLsbD 2 && Fld.secLcCtlTarget.get w == 2 && s.get Fld.secStsLc == 1
    else rightAllows (rightsOf s 0x01 k i).pol k write
  else if level == 2 then
    if k == .secKcmd || k == .secKbuf then false
    else rightAllows (rightsOf s 0x01 k i).fb k write
  else false

/-- An access to a register is allowed to its requester (R610, R687). The firebox core's only
right on DBG_CTL is CLOSE (Table 17-3). Writes of GLB_BANK_REQ and PWR_WDOG_CFG are the firebox
core's alone (R667, R677, R687). -/
def accessAllowed (s : State) (src : Nat) (k : RegKind) (i : Nat) (write : Bool) (w : Word) : Bool :=
  match classOf src with
  | none => false
  | some .dap => dapAllows s k i write w
  | some .fb =>
    if k = .dbgCtl ∧ write then w &&& ~~~Fld.dbgCtlClose.mask = 0
    else rightAllows (rightsOf s src k i).fb k write
  | some c => rightAllows ((rightsOf s src k i).of c) k write

/-- What becomes of an inbound request before its own effect. -/
inductive Gate where
  /-- The engine does not see it: the core island is off, and no credit stands (R649). -/
  | absent
  /-- It is held: an earlier write on its port and channel has not taken effect (R53). -/
  | waits
  /-- DECERR, with no effect. -/
  | decerr
  /-- DECERR with the refusal recorded: of a class (SEC_ACC_STS, R610) or of the debug access port
  (DBG_STS, R78). -/
  | refused
  /-- It takes effect. -/
  | pass
  deriving DecidableEq, Repr

/-- Start-up refuses every inbound request but reads in the GLB and DBG blocks (R81), also once the engine has banked in it, when R664 would
allow more (DESIGN CHOICE, log entry 107). -/
def startupRefuses (s : State) (k : RegKind) (write : Bool) : Bool :=
  !s.fwUp && !(!write && (k.block == .glb || k.block == .dbg))

/-- The banked state refuses every inbound request but those R664 lists. -/
def bankRefuses (s : State) (k : RegKind) (write : Bool) : Bool :=
  s.banked && !(if write then k.block == .sic || k == .trpSts || k.block == .dbg
    else k.block == .glb || k.block == .pwr || k.block == .trp || k.block == .dbg
      || k.block == .sic || k == .secSts || k == .secAccSts)

/-- An earlier write on the request's port and channel has not taken effect (R53): one to a raw window, which waits for the pins. A request behind it is
not taken yet; its command leaves the state as it is, and is given again (DESIGN CHOICE, log entry 126). -/
def rawBehind (s : State) (r : Req) : Bool :=
  s.ch.any fun e => e.2.rawQ.any fun a => a.read.isNone && a.req.port == r.port && a.req.vc == r.vc

/-- The gate every inbound register access passes: the reserved channels (R46), the core island's
power, start-up, the banked state, the SRC (R609), the request's form (R681), and the class or
debug level. While P2 or P3 has the core island off, the debug access port is refused (Table 17-7, R78). -/
def gate (s : State) (r : Req) (k : RegKind) (i : Nat) (write : Bool) (w : Word) : Gate :=
  if !s.coreOn then
    if (s.pwr.st == .p2 || s.pwr.st == .p3) && !s.inReset && r.src = 0x01 then .refused else .absent
  else if 5 ≤ r.vc then .decerr
  else if rawBehind s r then .waits
  else if startupRefuses s k write || bankRefuses s k write then .decerr
  else if classOf r.src = none then .decerr
  else if !r.single then .decerr
  else if accessAllowed s r.src k i write w then .pass
  else .refused

/-- The record of a refused access (R610, R78). -/
def State.noteRefused (s : State) (src ofs : Nat) : State :=
  if src = 0x01 then s.putFlag Fld.dbgStsRefused true
  else
    ((((s.putFlag Fld.secAccStsRefused true).put Fld.secAccStsLastId src).inc
      Fld.secAccStsCount).put Fld.secAccOfsOfs ofs)

/-! ## Inbound credits (R48) -/

/-- Beats that a span of bytes touches (64 B each, R41). -/
def beatsOf (addr len : Nat) : Nat := (addr % 64 + len + 63) / 64

/-- The key of a port's virtual channel in a credit table. -/
def credKey (port vc : Nat) : Nat := port * 8 + vc

/-- The key of the write-data credits that a channel draws on: VCs 0 to 3 share theirs. -/
def datKey (port vc : Nat) : Nat := credKey port (if vc = 4 then 4 else 0)

/-- The credits of Table 02-8, granted. -/
def grantIn (f : Fabric) : Fabric :=
  { f with
    inReq := (List.range 16).flatMap fun p => (List.range 5).map fun v => (credKey p v, if v = 4 then 4 else 8)
    inDat := (List.range 16).flatMap fun p => [(credKey p 0, 64), (credKey p 4, 16)] }

/-- A request that the engine holds has taken its credit, and one for each of its write-data beats; they go back as it is answered. A request
answered as it comes gives its credits back at once. -/
def takeIn (r : Req) (beats : Nat) (s : State) : State :=
  { s with fab := { s.fab with
      inReq := Tab.put (credKey r.port r.vc) (Tab.get 0 (credKey r.port r.vc) s.fab.inReq - 1) s.fab.inReq
      inDat := Tab.put (datKey r.port r.vc) (Tab.get 0 (datKey r.port r.vc) s.fab.inDat - beats) s.fab.inDat } }
def giveIn (r : Req) (beats : Nat) (s : State) : State :=
  { s with fab := { s.fab with
      inReq := Tab.put (credKey r.port r.vc) (Tab.get 0 (credKey r.port r.vc) s.fab.inReq + 1) s.fab.inReq
      inDat := Tab.put (datKey r.port r.vc) (Tab.get 0 (datKey r.port r.vc) s.fab.inDat + beats) s.fab.inDat } }

/-- An entry into P2 or P3 aborts (R647): back to P0, REFUSE 0x9, counted and logged. What R648 has done is undone: the credits are granted
again, FL_WP_N rises on the channels that had it high (R58), DRAM_IDLE_OK falls (R655), and channels stopped in P1 restart (DEDUCED, log
entry 103). -/
def State.abortEntry (s : State) : State :=
  match s.pwr.st with
  | .entering _ =>
    let s := (s.put Fld.pwrStsRefuse 0x9).inc Fld.pwrCntAbort
    let s := s.logPacked uPWR 0x1019
    { s with
      ch := s.ch.map fun (e : Nat × Chan) => (e.1, { e.2 with wpN := decide (3 ≤ e.2.stage) })
      fab := grantIn s.fab
      pwr := { s.pwr with
        st := .p0
        parked := false
        fromP1 := false
        dramIdle := false
        restartAt := if s.pwr.fromP1 then s.now + 1500 else s.pwr.restartAt } }
  | _ => s

/-- A doorbell starts the channels' restart out of P1 (R645): at most 1.5 µs, in which no operation
passes to a stoker. -/
def State.restart (s : State) : State :=
  match s.pwr.st with
  | .p1 => { s with pwr := { s.pwr with st := .p0, restartAt := s.now + 1500 } }
  | _ => s

/-- An inbound write of a register: the gate, then the effect; a write to any block but PWR aborts an
entry into P2 or P3 (R647). The response of a sealed write follows (R42). A write of SEC_LC_CTL that is refused to the debug access port also sets
SEC_ACC_STS.REFUSED (R637). -/
def regWrite (s : State) (r : Req) (k : RegKind) (i : Nat) (w : Word) (eff : State → State) : State :=
  match gate s r k i true w with
  | .absent | .waits => s
  | .decerr => s.respondWrite r .decerr
  | .refused =>
    let s := if k = .secLcCtl then s.putFlag Fld.secAccStsRefused true else s
    (s.noteRefused r.src (k.offset i)).respondWrite r .decerr
  | .pass => (eff (if k.block = .pwr then s else s.abortEntry)).respondWrite r .ok

/-- An inbound read of a register: the gate, then the effect, which answers the word read. -/
def regRead (s : State) (r : Req) (k : RegKind) (i : Nat) (eff : State → Word × State) : State :=
  match gate s r k i false 0 with
  | .absent | .waits => s
  | .decerr => s.respond r .decerr (laneBytes 0 0)
  | .refused => (s.noteRefused r.src (k.offset i)).respond r .decerr (laneBytes 0 0)
  | .pass => (eff s).2.respond r .ok (laneBytes (k.offset i) (eff s).1)

/-- A plain write of a register, by the access codes of its fields. -/
def State.plainWrite (s : State) (k : RegKind) (i : Nat) (w : Word) : State :=
  s.setReg k i (writeWord k (s.reg k i) w)

end Sys2Proof.Machine
end

