-- ==== Sys2Proof/Machine/Bank.lean ====
section
/-! DEFINITION. Entry to the banked state (R661, R662): one shared operation, taken by every cause
of Table 18-6. What follows it within 2 core cycles is BANKED_ENTRY (Banked.lean, DESIGN CHOICE, log entry 36). -/

namespace Sys2Proof.Machine

/-- Entry to a stage (R120). -/
def enterStage (n : Nat) (s : State) : State :=
  (s.put Fld.glbBootStsStage n).logPacked uGLB (0x100 + n) [(1, n)] [(8, s.now)]

/-- The engine enters the banked state on a cause (R661, R662); when it is already banked, the cause
writes a log entry and changes nothing else. `obj`: what the log entry names (DESIGN CHOICE, log entry 69). -/
def State.bankNamed (s : State) (cause : Nat) (obj : List (Nat × Nat)) : State :=
  if s.banked then s.logPacked uGLB (0x200 + cause) obj
  else
    let s := enterStage 0xF ((s.putFlag Fld.glbBankStsBanked true).put Fld.glbBankStsCause cause)
    let s := (s.put Fld.glbBankTimeLoTime s.now).put Fld.glbBankTimeHiTime (s.now >>> 32)
    let s := (s.edgeAll 48).logPacked uGLB (0x200 + cause) obj
    { s with pwr := { s.pwr with bankTodo := true } }

/-- The banked state entered on a cause whose log entry names nothing more. -/
def State.bank (s : State) (cause : Nat) : State := s.bankNamed cause []

/-- A contained memory error: counted and logged (R668). -/
def contained (s : State) : State := (s.inc Fld.pwrErrCntContained).logPacked uPWR 0x101B

end Sys2Proof.Machine
end

