-- ==== Sys2Proof/Machine/Fabric.lean ====
section
/-! DEFINITION. The IOF ports (chapter 2): outbound requests, credits and outstanding responses, and
the inbound requests that are refused by their form. -/

namespace Sys2Proof.Machine

/-- A request carries write data. -/
def FKind.isWrite : FKind → Bool
  | .rd => false
  | _ => true

/-- Data credits a request needs: its write beats; one for an atomic (Table 02-5). -/
def dataBeats (q : FabReq) : Nat :=
  match q.kind with
  | .rd => 0
  | .at _ => 1
  | _ => beatsOf q.addr q.len

/-- A request as a unit forms it; its tag comes as it goes out. -/
def mkReq (port vc : Nat) (kind : FKind) (addr len : Nat) (data : List Byte) : FabReq := {
  port := port
  vc := vc
  kind := kind
  addr := addr
  len := len
  data := data }

/-- SRC of every request the engine issues: the spec gives no value (log entry 123). -/
def FabReq.src (_ : FabReq) : Nat := Config.outboundSrc

/-- BEATS of a request (Table 02-4): its 64 B beats minus one. -/
def FabReq.beats (q : FabReq) : Nat := beatsOf q.addr q.len - 1

/-- BE of beat `i` of a write (Table 02-4): bit `k` enables byte `k` of the beat. -/
def FabReq.be (q : FabReq) (i : Nat) : BitVec 64 :=
  (List.range 64).foldl (fun (w : BitVec 64) k =>
    let a := q.addr / 64 * 64 + 64 * i + k
    if q.addr ≤ a ∧ a < q.addr + q.len ∧ (a - q.addr) % max 1 q.step = 0 then w ||| (1#64 <<< k) else w) 0

/-- The first tag that no outstanding request of the port bears, and no timed-out one whose response may still come, while there is such a tag
(Table 02-4, R55; DESIGN CHOICE, log entry 9). -/
def freeTag (f : Fabric) (port : Nat) : Nat :=
  let used := (f.outst.filter fun o => o.req.port == port).map (·.tag)
  let late := (f.late.filter fun x => x.1 == port).map (·.2.2.1)
  let free := (List.range 4096).filter fun t => !used.contains t
  ((free.find? fun t => !late.contains t).or free.head?).getD 4096

/-- The port and channel hold the credits that a request needs, and a tag is free. -/
def canSend (f : Fabric) (q : FabReq) : Bool :=
  decide (1 ≤ Tab.get 0 (credKey q.port q.vc) f.credReq) &&
    decide (dataBeats q ≤ Tab.get 0 (credKey q.port q.vc) f.credDat) && decide (freeTag f q.port < 4096)

/-- A request put on the fabric: credits taken, recorded, and held outstanding unless it is posted. -/
def sendNow (now : Nat) (f : Fabric) (q : FabReq) (p : Purpose) : Fabric :=
  let k := credKey q.port q.vc
  let q := { q with tag := freeTag f q.port }
  let f1 := { f with
    credReq := Tab.set 0 k (Tab.get 0 k f.credReq - 1) f.credReq
    credDat := Tab.set 0 k (Tab.get 0 k f.credDat - dataBeats q) f.credDat
    sent := f.sent ++ [q]
    busyAt := now }
  if q.kind = .pw then f1 else { f1 with outst := f1.outst ++ [⟨q, q.tag, now, p⟩] }

/-- A request issued: at once where credit stands and no earlier one of its channel waits, else in
order behind them (R51). -/
def fabIssue (now : Nat) (f : Fabric) (q : FabReq) (p : Purpose) : Fabric :=
  if canSend f q && !(f.waiting.any fun w => w.1.port == q.port && w.1.vc == q.vc) then sendNow now f q p
  else { f with waiting := f.waiting ++ [(q, p)] }

/-- Several requests issued in order. -/
def fabIssueAll (now : Nat) (f : Fabric) : List (FabReq × Purpose) → Fabric
  | [] => f
  | (q, p) :: r => fabIssueAll now (fabIssue now f q p) r

/-- The waiting requests tried again in order, each channel keeping its order. -/
def fabFlush (now : Nat) (f : Fabric) : Fabric :=
  fabIssueAll now { f with waiting := [] } f.waiting

/-- Outbound requests issued; DRAM_IDLE_OK is lowered before any (R655). -/
def State.issueAll (s : State) (l : List (FabReq × Purpose)) : State :=
  if l.isEmpty then s
  else { s with fab := fabIssueAll s.now s.fab l, pwr := { s.pwr with dramIdle := false } }

/-- One outbound request issued. -/
def State.issue (s : State) (q : FabReq) (p : Purpose) : State := s.issueAll [(q, p)]

/-- A span of bytes cut at the multiples of `m`. `fuel` bounds the number of pieces. -/
def cutAt (m : Nat) : Nat → Nat → Nat → List (Nat × Nat)
  | 0, _, _ => []
  | fuel + 1, addr, len =>
    if len = 0 then []
    else
      let n := min len (m - addr % m)
      (addr, n) :: cutAt m fuel (addr + n) (len - n)

/-- A span of bytes cut at 4 KiB boundaries (R45): pieces of at most 64 beats. -/
def cutPages (fuel addr len : Nat) : List (Nat × Nat) := cutAt 4096 fuel addr len

/-- A write of bytes as one request for each 4 KiB page it touches. -/
def writeReqs (port vc : Nat) (kind : FKind) (addr : Nat) (data : List Byte) (p : Purpose) :
    List (FabReq × Purpose) :=
  (cutPages (data.length + 1) addr data.length).map fun x =>
    (mkReq port vc kind x.1 x.2 ((data.drop (x.1 - addr)).take x.2), p)

/-- The port of the engine's own appliance-DRAM traffic: bits [9:6] of the address (R689). -/
def dramPort (addr : Nat) : Nat := addr / 64 % 16

/-- The engine's own write to appliance DRAM, cut at 64 B lines so that every piece takes its line's port (R689; DEDUCED, log entry 124). -/
def dramReqs (cls addr : Nat) (data : List Byte) (p : Purpose) : List (FabReq × Purpose) :=
  (cutAt 64 (data.length + 1) addr data.length).map fun x =>
    (mkReq (dramPort x.1) cls .sw x.1 x.2 ((data.drop (x.1 - addr)).take x.2), p)

/-- The outstanding request that a response names. -/
def findOutst (f : Fabric) (port vc tag : Nat) : Option Outst :=
  f.outst.find? fun o => o.req.port == port && o.req.vc == vc && o.tag == tag

/-- The fabric state with an outstanding request removed. -/
def dropOutst (f : Fabric) (o : Outst) : Fabric := { f with outst := f.outst.erase o }

/-- The unit whose number a timeout's log entry bears (R55). -/
def unitOf : Purpose → Nat
  | .mover _ _ _ => uBEL
  | .fetch _ | .handback | .flueOwn _ | .flueCmd _ => uSLQ
  | .lookahead _ | .harvestBody _ | .harvestByte _ | .flueBody _ | .flueByte _ => uHRV
  | .gauge _ | .gaugeWrite _ | .calLine _ => uCRY
  | _ => uMAP

/-- The outstanding request for a purpose, dropped. -/
def takeOutst (p : Purpose) (s : State) : Option (Outst × State) :=
  match s.fab.outst.find? fun o => o.purpose == p with
  | none => none
  | some o => some (o, { s with fab := dropOutst s.fab o })

/-- OBJ of the log entry of a timeout, or of a reserved response code: port, VC and tag (R55). -/
def timeoutObj (port vc tag : Nat) : List (Nat × Nat) := [(1, port), (1, vc), (2, tag)]

/-- The reserved response code is DECERR with a log entry (R44). -/
def codeTaken (o : Outst) (code : RCode) (s : State) : RCode × State :=
  if code = .reserved then
    (.decerr, s.logPacked (unitOf o.purpose) 0x1003 (timeoutObj o.req.port o.req.vc o.tag))
  else (code, s)

/-- CREDIT_RETURN (R48): one request or data credit for a channel, and the requests that waited for
it go out. -/
def execCreditReturn (port vc : Nat) (data : Bool) (s : State) : Out :=
  let k := credKey port vc
  let f := if data then { s.fab with credDat := Tab.set 0 k (Tab.get 0 k s.fab.credDat + 1) s.fab.credDat }
    else { s.fab with credReq := Tab.set 0 k (Tab.get 0 k s.fab.credReq + 1) s.fab.credReq }
  onlyIf (s.coreOn && decide (port < 16 ∧ vc < 5)) s { s with fab := fabFlush s.now f }

/-- INBOUND_ATOMIC (R46): an AT request, or one of reserved TYPE. -/
def execInboundAtomic (r : Req) (s : State) : Out := onCore s (s.respond r .decerr [])

/-- INBOUND_RESERVED_VC (R46): accepted without a credit and answered on the channel it came on; its
data is discarded. -/
def execInboundReservedVc (r : Req) (s : State) : Out :=
  onlyIf (s.coreOn && decide (5 ≤ r.vc ∧ r.vc < 8)) s (s.respond r .decerr [])

/-- INBOUND_BOUNDARY_CROSS (R45): `len` bytes from `addr` cross a 4 KiB boundary. A posted write has
no response (R42). -/
def execInboundBoundaryCross (r : Req) (write : Bool) (addr len : Nat) (s : State) : Out :=
  onlyIf (s.coreOn && decide (4096 < addr % 4096 + len)) s
    (if write then s.respondWrite r .decerr else s.respond r .decerr [])

end Sys2Proof.Machine
end

