-- ==== Sys2Proof/Machine/Harvest.lean ====
section
/-! DEFINITION. Harvest rings (chapter 11): reservation, the writing of entries, visibility,
moderation, look-ahead and errors, and the meaning of their commands. -/

namespace Sys2Proof.Machine

/-- What a ring holds beside its registers. -/
def State.ring (s : State) (r : Nat) : Hrv := Tab.get {} r s.hrv

/-- The state with a ring's part set. -/
def State.setRing (s : State) (r : Nat) (x : Hrv) : State := { s with hrv := Tab.set {} r x s.hrv }

/-- Units of a ring (R417). -/
def ringUnits (s : State) (r : Nat) : Nat := 128 * s.get Fld.hrvCfgPages r

/-- Address of a ring's unit (R417). -/
def ringAddr (s : State) (r unit : Nat) : Nat :=
  s.get Fld.hrvBaseHiBaseHi r * 2 ^ 32 + s.get Fld.hrvBaseLoBaseLo r * 4096 + 32 * unit

/-- Harvest units that an entry reserves (Table 11-5, R441): NT as read. -/
def unitsOf (cls opc ack nt : Nat) : Nat :=
  let tiles := 1 + (nt + 1 + 14) / 15
  if opc = 1 ∨ opc = 5 then (if cls = 0 then 2 * tiles else tiles)
  else if opc = 2 ∧ cls = 0 ∧ ack = 2 then 2
  else 1

/-- The ring has room for an entry (R443): the owned count, less the units reserved, is at least its
units plus 15; a ring in ERROR grants none (R457). -/
def hasRoom (s : State) (r units : Nat) : Bool :=
  !s.flag Fld.hrvStsError r && decide (units + 15 + (s.ring r).reserved ≤ (s.ring r).owned)

/-- Units reserved in a ring. -/
def State.reserve (s : State) (r units : Nat) : State :=
  s.setRing r { s.ring r with reserved := (s.ring r).reserved + units }

/-- Reserved units released. -/
def State.release (s : State) (r units : Nat) : State :=
  s.setRing r { s.ring r with reserved := (s.ring r).reserved - units }

/-- A harvest entry owed to a ring, after those it already owes. -/
def State.owe (s : State) (r : Nat) (e : HEntry) : State :=
  s.setRing r { s.ring r with queue := (s.ring r).queue ++ [e] }

/-- An edge on the ring's source: it covers every visible entry, and the oldest unsignalled one is from now on the first that is not visible yet
(R452). -/
def signalRing (s : State) (r : Nat) : State :=
  let s := (s.edge (.shared (s.get Fld.hrvCfgSrc r))).put Fld.hrvStsPending 0 r
  let s := s.putFlag Fld.hrvStsTimer false r
  s.setRing r { s.ring r with due := ((s.ring r).inflight.find? fun e => !e.nop).map (·.due) }

/-- A bound sluice waits for room in the ring (R469). -/
def showWaiting (r : Nat) (s : State) : State :=
  s.putFlag Fld.hrvStsWaiting
    ((s.slq.map Prod.fst).any fun i => s.flag Fld.slqStsWaitHrv i && s.get Fld.slqCfg2Hrv i == r) r

/-- The sluices bound to a ring that wait for room and now find it (R443, R437): the scan resumes, and its base is this moment. -/
def roomFound (r : Nat) (s : State) : State :=
  let ready := (s.slq.map Prod.fst).filter fun i =>
    s.flag Fld.slqStsWaitHrv i && s.get Fld.slqCfg2Hrv i == r && hasRoom s r (Tab.get {} i s.slq).need
  let s := ready.foldl (fun s i =>
    let s := s.putFlag Fld.slqStsWaitHrv false i
    { s with slq := Tab.put i { (Tab.get {} i s.slq) with base := s.now } s.slq }) s
  showWaiting r s

/-- A harvest NOP of some units (R422): OPC 0x00, STATUS 0x00. -/
def nopEntry (units : Nat) : HEntry :=
  { bytes := BitVec.ofNat 8 (0x40 + (units - 1)) :: List.replicate (32 * units - 1) 0, sluice := 0,
    irqNow := false, status := 0, release := 0, rtag := 0, last := false, nop := true }

/-- The lengths of the NOPs that fill some units, at most 16 each (R422). -/
def nopLens : Nat → Nat → List Nat
  | 0, _ => []
  | fuel + 1, n => if n = 0 then [] else min 16 n :: nopLens fuel (n - min 16 n)

/-- An entry issued at the ring's write position (R451): a posted write of every byte but the first, then a sealed write of that byte; the
position, the owned count and the reservation move on, and the entry keeps the moderation values it was issued under (R453). -/
def issueEntry (r : Nat) (e : HEntry) (s : State) : State :=
  let x := s.ring r
  let tail := s.get Fld.hrvStsTail r
  let units := e.bytes.length / 32
  let port := s.get Fld.hrvCfgPort r
  let vc := s.get Fld.hrvCfgClass r
  let e := { e with unit := tail, cnt := max 1 (s.get Fld.hrvModCnt r), due := s.now + s.get Fld.hrvModTime r * 1000 }
  let s := s.setRing r { x with
    owned := x.owned - units
    reserved := x.reserved - e.release
    inflight := x.inflight ++ [e]
    low := x.low || decide (32 ≤ x.owned ∧ x.owned - units < 32)
    due := if e.nop then x.due else some (x.due.getD e.due) }
  let s := s.put Fld.hrvStsTail (if tail + units = ringUnits s r then 0 else tail + units) r
  s.issueAll (writeReqs port vc .pw (ringAddr s r tail + 1) (e.bytes.drop 1) (.harvestBody r)
    ++ writeReqs port vc .sw (ringAddr s r tail) (e.bytes.take 1) (.harvestByte r))

/-- The bytes of an entry with SQHEAD, and DSTATE of a write, as they stand at its issue (Table 11-6,
R324). -/
def stampEntry (s : State) (e : HEntry) : HEntry :=
  let head := s.get Fld.slqHeadHead e.sluice
  let bs := (e.bytes.set 14 (BitVec.ofNat 8 head)).set 15 (BitVec.ofNat 8 (head >>> 8))
  let bs := match Tab.find e.rtag s.reqs with
    | some q =>
      if q.opc = 2 ∧ !q.tiles.isEmpty ∧ e.status = 0 then
        let d := (q.tiles.map (·.dstate)).foldl min 3
        bs.set 13 (((bs[13]?).getD 0 &&& 0xFC) ||| BitVec.ofNat 8 d)
      else bs
    | none => bs
  { e with bytes := bs }

/-- The issue of the ring's oldest owed entry: NOPs first where it would pass the ring's end (R422);
the request's slot is freed with its last entry (R440). -/
def writeNext (r : Nat) (s : State) : State :=
  match (s.ring r).queue with
  | [] => s
  | e :: rest =>
    let s := s.setRing r { s.ring r with queue := rest }
    let units := e.bytes.length / 32
    let left := ringUnits s r - s.get Fld.hrvStsTail r
    let s := if left < units then (nopLens left left).foldl (fun s n => issueEntry r (nopEntry n) s) s else s
    let s := roomFound r (issueEntry r (stampEntry s e) s)
    if e.last then { s with reqs := Tab.del e.rtag s.reqs } else s

/-- HARVEST_WRITE (R451). In the banked state the engine still issues harvest writes (R664). -/
def execHarvestWrite (ring : Nat) (s : State) : Out :=
  onlyIf (s.coreOn && s.flag Fld.hrvStsValid ring && !s.flag Fld.hrvStsError ring) s (writeNext ring s)

/-- A visible entry counts toward its ring's signal, and raises the edge where moderation says so (R452): CNT reached, its TIME passed, IRQ_NOW,
or a STATUS of 0x10 or above. -/
def entryVisible (r : Nat) (e : HEntry) (s : State) : State :=
  if e.nop then s
  else
    let s := s.inc Fld.hrvStsPending r
    if e.cnt ≤ s.get Fld.hrvStsPending r ∨ e.due ≤ s.now ∨ e.irqNow ∨ 0x10 ≤ e.status then signalRing s r
    else s.putFlag Fld.hrvStsTimer true r

/-- A failed sealed write of the ring is out again. -/
def retrying (s : State) (r : Nat) : Bool :=
  let mine (q : FabReq) (p : Purpose) : Bool := p == .harvestByte r && (s.ring r).failed.any fun e => ringAddr s r e.unit == q.addr
  (s.fab.outst.any fun o => mine o.req o.purpose) || (s.fab.waiting.any fun w => mine w.1 w.2) || s.fab.held.any fun w => mine w.1 w.2

/-- The response to the sealed byte of the entry at a unit (R451, R457): visible, or the ring enters ERROR and keeps the entry. Once every write that
failed has been answered OK, the ring leaves ERROR. -/
def harvestResponse (r : Nat) (addr : Nat) (code : RCode) (s : State) : State :=
  let x := s.ring r
  match x.inflight.find? fun e => ringAddr s r e.unit == addr with
  | none => s
  | some e =>
    if code = .ok then
      let s := s.setRing r { x with inflight := x.inflight.erase e, failed := x.failed.erase e }
      let s := if x.failed.contains e ∧ (x.failed.erase e).isEmpty then
          roomFound r ((s.putFlag Fld.hrvStsError false r).putFlag Fld.hrvCtlRetry false r)
        else s
      entryVisible r e s
    else
      let s := (s.setRing r { x with failed := x.failed.erase e ++ [e] }).putFlag Fld.hrvStsError true r
      s.putFlag Fld.hrvCtlRetry (s.flag Fld.hrvCtlRetry r && retrying s r) r

/-- MODERATION_TIMER (R452): TIME µs since the oldest unsignalled entry was issued. -/
def execModerationTimer (ring : Nat) (s : State) : Out :=
  match (s.ring ring).due with
  | none => .next s
  | some t => onlyIf (s.coreOn && s.flag Fld.hrvStsTimer ring && decide (t ≤ s.now)) s (signalRing s ring)

/-- The first unit after those already counted as owned. -/
def countEnd (s : State) (r : Nat) : Nat := (s.get Fld.hrvStsTail r + (s.ring r).owned) % max 1 (ringUnits s r)

/-- The look-ahead read (R442): up to 512 B from the end of the counted units, to the next 4 KiB boundary (R45), which bounds the ring's end also. -/
def lookAhead (r : Nat) (s : State) : FabReq :=
  let a := ringAddr s r (countEnd s r)
  mkReq (s.get Fld.hrvCfgPort r) (s.get Fld.hrvCfgClass r) .rd a (min 512 (4096 - a % 4096)) []

/-- A look-ahead read issued; one that is out already is followed by another (DEDUCED, log entry 127). -/
def lookStep (r : Nat) (s : State) : State :=
  if (s.ring r).looking then s.setRing r { s.ring r with again := true }
  else
    (s.setRing r { s.ring r with
      looking := true
      again := false
      low := false
      lookedAt := s.now }).issue (lookAhead r s) (.lookahead r)

/-- The first bytes of 32 B units. -/
def unitMarks : Nat → List Byte → List Byte
  | 0, _ => []
  | n + 1, l => l.take 1 ++ unitMarks n (l.drop 32)

/-- The owned count refreshed (R442): `marks` are byte 0 of the units read, from the end of the units
already counted; an error leaves the count and is logged. -/
def refreshOwned (r : Nat) (code : RCode) (marks : List Byte) (s : State) : State :=
  if code = .ok then
    let n := ((marks.take 16).takeWhile (· == 0x80)).length
    roomFound r (s.setRing r { s.ring r with owned := min (ringUnits s r) ((s.ring r).owned + n) })
  else s.logPacked uHRV (Config.eventCode 442)

/-- The answer to a look-ahead read from an address (R442): the count is refreshed where the read began at its end, and a doorbell that has come
meanwhile is followed. -/
def lookedAhead (r addr : Nat) (code : RCode) (data : List Byte) (s : State) : State :=
  let x := s.ring r
  let s := s.setRing r { x with looking := false, again := false }
  let s := if addr = ringAddr s r (countEnd s r) then refreshOwned r code (unitMarks (data.length / 32) data) s else s
  if x.again then lookStep r s else s

/-- HARVEST_LOOKAHEAD (R442): every 2 µs while a bound sluice waits, or once the count has fallen below 32 units, which that of a new ring is
(DEDUCED, log entry 131). -/
def execHarvestLookahead (ring : Nat) (s : State) : Out :=
  onlyIf (s.running && s.flag Fld.hrvStsValid ring && !(s.ring ring).looking &&
      ((s.flag Fld.hrvStsWaiting ring && decide ((s.ring ring).lookedAt + 2000 ≤ s.now))
        || (s.ring ring).low)) s
    (lookStep ring s)

/-- HRV_DOORBELL (R442). -/
def execHrvDoorbell (r : Req) (ring : Nat) (w : Word) (s : State) : Out :=
  onlyIf (decide (ring < 4096)) s (regWrite s r .hrvDb ring w fun s =>
    if s.flag Fld.hrvStsValid ring then lookStep ring s.restart else s)

/-- The effect of a write of HRV_CTL (R457): RETRY repeats each write that failed. -/
def hrvCtlWrite (ring : Nat) (w : Word) (s : State) : State :=
  if Fld.hrvCtlRetry.get w = 1 ∧ !s.flag Fld.hrvCtlRetry ring ∧ !(s.ring ring).failed.isEmpty then
    (s.putFlag Fld.hrvCtlRetry true ring).issueAll ((s.ring ring).failed.flatMap fun e =>
      writeReqs (s.get Fld.hrvCfgPort ring) (s.get Fld.hrvCfgClass ring) .sw (ringAddr s ring e.unit) (e.bytes.take 1) (.harvestByte ring))
  else s

/-- HRV_RETRY (R457). -/
def execHrvRetry (r : Req) (ring : Nat) (w : Word) (s : State) : Out :=
  onlyIf (decide (ring < 4096)) s (regWrite s r .hrvCtl ring w (hrvCtlWrite ring w))

/-- HRV_MOD_WRITE (R453): the moderation values of a ring. `cmd`: an HRV_MODIFY has reached the ring in the same cycle, and its values stay
(R469). -/
def execHrvModWrite (r : Req) (ring : Nat) (w : Word) (cmd : Bool) (s : State) : Out :=
  onlyIf (decide (ring < 4096)) s (regWrite s r .hrvMod ring w fun s => if cmd then s else s.plainWrite .hrvMod ring w)

end Sys2Proof.Machine
end

