-- ==== Sys2Proof/Machine/MoverOps.lean ====
section
/-! DEFINITION. Bellows movers (chapter 12): instruction words, jobs and contexts, and the named
operations on them. -/

namespace Sys2Proof.Machine

/-! ## Instruction words -/

/-- Bits `hi` down to `lo` of an instruction. -/
def ibits (x : BitVec 128) (hi lo : Nat) : Nat := (x >>> lo).toNat % 2 ^ (hi + 1 - lo)

/-- A field put into an instruction. -/
def iput (lo v : Nat) : BitVec 128 := BitVec.ofNat 128 v <<< lo

/-- An instruction (Tables 12-2 to 12-6). -/
inductive BelInstr where
  | move (dir areg xf tee bofs lenm1 teeMover addr : Nat)
  | gather (dir areg bofs e0 nm1 : Nat)
  | loop (lc tgt bstride count astride : Nat)
  | wait (cond flag tmo : Nat)
  | signal (kind aop bofs src mover flag addr : Nat)
  | reserved
  deriving DecidableEq, Repr

/-- The operation code of an instruction (R475). -/
def opcOf (x : BitVec 128) : Nat := ibits x 127 124

/-- LAST of an instruction (R475). -/
def lastOf (x : BitVec 128) : Bool := ibits x 123 123 = 1

/-- The fields of an instruction (R475). -/
def belDecode (x : BitVec 128) : BelInstr :=
  match opcOf x with
  | 1 => .move (ibits x 122 122) (ibits x 121 120) (ibits x 119 118) (ibits x 117 117)
      (ibits x 116 104) (ibits x 103 91) (ibits x 90 85) (ibits x 51 0)
  | 2 => .gather (ibits x 122 122) (ibits x 121 120) (ibits x 116 104) (ibits x 103 100) (ibits x 99 96)
  | 3 => .loop (ibits x 122 122) (ibits x 121 117) (ibits x 116 104) (ibits x 103 88) (ibits x 63 32)
  | 4 => .wait (ibits x 122 120) (ibits x 119 116) (ibits x 115 96)
  | 5 => .signal (ibits x 122 120) (ibits x 119 118) (ibits x 116 104) (ibits x 103 93)
      (ibits x 92 87) (ibits x 86 83) (ibits x 51 0)
  | _ => .reserved

/-- A reserved bit of an instruction is 1 (R475: every bit not listed must be 0). -/
def reservedBits (x : BitVec 128) : Bool :=
  match opcOf x with
  | 1 => ibits x 84 52 != 0
  | 2 => ibits x 119 117 != 0 || ibits x 95 0 != 0
  | 3 => ibits x 87 64 != 0 || ibits x 31 0 != 0
  | 4 => ibits x 95 0 != 0
  | 5 => ibits x 117 117 != 0 || ibits x 82 52 != 0
  | _ => false

/-- A MOVE as a word (Table 12-2), for the programs the engine builds (R471). -/
def moveWord (last : Bool) (dir xf tee bofs lenm1 teeMover addr : Nat) : BitVec 128 :=
  iput 124 1 ||| iput 123 last.toNat ||| iput 122 dir ||| iput 118 xf ||| iput 117 tee
    ||| iput 104 bofs ||| iput 91 lenm1 ||| iput 85 teeMover ||| iput 0 addr

/-- A WAIT RESP without a timeout as a word (Table 12-5). -/
def waitRespWord : BitVec 128 := iput 124 4

/-! ## Contexts and jobs -/

/-- The key of a context. -/
def ctxKey (m c : Nat) : Nat := m * 32 + c

/-- The context in use, if there is one. -/
def State.ctx (s : State) (m c : Nat) : Option Ctx := Tab.find (ctxKey m c) s.mov.ctxs

/-- The state with a context set. -/
def State.setCtx (s : State) (m c : Nat) (x : Ctx) : State :=
  { s with mov := { s.mov with ctxs := Tab.put (ctxKey m c) x s.mov.ctxs } }

/-- Firmware movers (Table 12-1). -/
def isFirmware (m : Nat) : Bool := decide (48 ≤ m ∧ m ≤ 55)

/-- The state with a context freed; a firmware mover keeps its staging buffer for its next job (DEDUCED, log entry 133). -/
def State.freeCtx (s : State) (m c : Nat) : State :=
  let stage := match s.ctx m c with
    | some x => if isFirmware m then Tab.put m { buf := x.buf, nreq := x.nreq } s.mov.stage else s.mov.stage
    | none => s.mov.stage
  { s with mov := { s.mov with ctxs := Tab.del (ctxKey m c) s.mov.ctxs, stage := stage } }

/-- Undefined bytes: free values. -/
def State.freshBytes (s : State) (n : Nat) : List Byte × State :=
  ((List.range n).map fun i => (Config.freeValue (s.freeCtr + i)).setWidth 8, { s with freeCtr := s.freeCtr + n })

/-- A span of a staging buffer whose bytes are undefined (R493, R489). -/
def State.blurBuf (s : State) (b : Tab Byte) (ofs len : Nat) : Tab Byte × State :=
  let v := s.freshBytes len
  ((b.filter fun e => decide (e.1 < ofs)) ++ (v.1.zipIdx.map fun e => (ofs + e.2, e.1)) ++ b.filter fun e => decide (ofs + len ≤ e.1), v.2)

/-- Sealed movers (Table 12-1). -/
def isSealed (m : Nat) : Bool := decide (56 ≤ m ∧ m ≤ 63)

/-- Requests of a mover that await a response. -/
def moverOutst (s : State) (m : Nat) : Nat :=
  (s.fab.outst.filter fun o => match o.purpose with | .mover m' _ _ => m' == m | _ => false).length

/-- The contexts of a mover that are in use. -/
def moverCtxs (s : State) (m : Nat) : List (Nat × Ctx) :=
  s.mov.ctxs.filter fun e => e.1 / 32 == m

/-- BEL_STS.STATE of a mover (Table 12-11): 0 IDLE, 1 RUN, 2 WAIT, 3 PAUSED, 4 DONE, 5 FAULT, 6
DRAIN. With no context in use the register holds the state it came to rest in. -/
def moverState (s : State) (m : Nat) : Nat :=
  let live := (moverCtxs s m).filter fun e => e.2.fault.isNone
  if !s.flag Fld.belCtlEn m && moverOutst s m != 0 then 6
  else if live.isEmpty then s.get Fld.belStsState m
  else if s.flag Fld.belCtlPause m && live.all fun e => e.2.reqs.isEmpty then 3
  else if !isSealed m && live.any fun e => e.2.waitSince.isSome then 2
  else 1

/-- A job queued for a mover context. -/
def State.queueJob (s : State) (j : Job) : State :=
  { s with mov := { s.mov with jobs := s.mov.jobs ++ [j] } }

/-- Jobs queued in order. -/
def State.queueJobs (s : State) (l : List Job) : State :=
  { s with mov := { s.mov with jobs := s.mov.jobs ++ l } }

/-- The port of a job whose port is chosen per job, in rotation (Table 12-1). -/
def State.nextPort (s : State) : Nat × State :=
  (s.mov.rot % 16, { s with mov := { s.mov with rot := s.mov.rot + 1 } })

/-- Bytes placed in a staging buffer from an offset. -/
def bufPut (ofs : Nat) : List Byte → Tab Byte → Tab Byte
  | [], b => b
  | x :: r, b => bufPut (ofs + 1) r (Tab.put ofs x b)

/-- Bytes of a staging buffer; a byte not filled reads 0. -/
def bufGet (b : Tab Byte) (ofs len : Nat) : List Byte :=
  (List.range len).map fun i => (Tab.find (ofs + i) b).getD 0

/-- Every byte of a span of the buffer has been filled (R479). -/
def bufFilled (b : Tab Byte) (ofs len : Nat) : Bool :=
  (List.range len).all fun i => (Tab.find (ofs + i) b).isSome

/-- A commit's own and mirror jobs belong together (R472). -/
def partners (a b : JobPath) : Bool :=
  match a, b with
  | .commitOwn r t _, .commitMirror r' t' _ => r == r' && t == t'
  | .commitMirror r t _, .commitOwn r' t' _ => r == r' && t == t'
  | _, _ => false

/-- TEE beats delivered to the partner job, in its context or, before it starts, in what it will
find there (R472). -/
def State.deliverTee (s : State) (p : JobPath) (ofs : Nat) (data : List Byte) : State :=
  { s with mov := { s.mov with
      ctxs := s.mov.ctxs.map fun e =>
        if partners p e.2.job.path then (e.1, { e.2 with buf := bufPut ofs data e.2.buf }) else e,
      jobs := s.mov.jobs.map fun j =>
        if partners p j.path then { j with init := bufPut ofs data j.init } else j } }

/-- Word `w` of program instruction `i` of a firmware mover. -/
def progWord (s : State) (m i w : Nat) : Word := s.reg .belProg ((m - 48) * 128 + i * 4 + w)

/-- The instruction at a position: of the registers of a firmware mover, else of the job's program. -/
def instrAt (s : State) (m : Nat) (x : Ctx) (i : Nat) : BitVec 128 :=
  if isFirmware m then
    ((progWord s m i 3).setWidth 128 <<< 96) ||| ((progWord s m i 2).setWidth 128 <<< 64)
      ||| ((progWord s m i 1).setWidth 128 <<< 32) ||| (progWord s m i 0).setWidth 128
  else (x.job.prog[i]?).getD 0

/-- The address register A0 or A1, and the buffer register B0 or B1, that a context uses: a firmware
mover's are its BEL registers (Table 12-12). -/
def aReg (s : State) (m : Nat) (x : Ctx) (n : Nat) : Nat :=
  if isFirmware m then
    if n = 0 then s.get Fld.belA0HiAHi (m - 48) * 2 ^ 32 + s.get Fld.belA0LoALo (m - 48)
    else s.get Fld.belA1HiAHi (m - 48) * 2 ^ 32 + s.get Fld.belA1LoALo (m - 48)
  else if n = 0 then x.a0 else x.a1

def bReg (s : State) (m : Nat) (x : Ctx) (n : Nat) : Nat :=
  if isFirmware m then (if n = 0 then s.get Fld.belBregB0 (m - 48) else s.get Fld.belBregB1 (m - 48))
  else if n = 0 then x.b0 else x.b1

/-- What AREG adds to an address and to a buffer offset (Table 12-2). -/
def aregAdd (s : State) (m : Nat) (x : Ctx) (areg : Nat) : Nat × Nat :=
  if areg = 1 then (aReg s m x 0, bReg s m x 0)
  else if areg = 2 then (aReg s m x 1, bReg s m x 1)
  else (0, 0)

/-- The window of a firmware mover allows an access (R611). -/
def windowAllows (s : State) (m addr len : Nat) (write : Bool) : Bool :=
  (List.range 8).any fun w =>
    let base := s.get Fld.secFmwBaseHiBase w * 2 ^ 32 + s.get Fld.secFmwBaseLoBase w * 4096
    s.flag Fld.secFmwCtlValid w && s.bit .secFmwCtl w (m - 48) && (!write || s.flag Fld.secFmwCtlWr w)
      && decide (base ≤ addr ∧ addr + len ≤ base + s.get Fld.secFmwSizePages w * 4096)

/-! ## Faults -/

/-- Elements of the running GATHER complete before element `k`: those before the first that still has
a request waiting or unanswered (R493). -/
def elemsDone (x : Ctx) (k : Nat) : Nat :=
  ((List.range k).find? fun j =>
    (x.open_ ++ x.reqs).any fun q => q.instr == x.cur && q.elem == j).getD k

/-- The buffer of a job that has faulted in a GATHER that reads: the bytes of the faulting element and of those after it are undefined (R493). -/
def faultBuf (m : Nat) (x : Ctx) (instr elem : Nat) (s : State) : Tab Byte × State :=
  match belDecode (instrAt s m x instr) with
  | .gather 0 areg bofs e0 nm1 =>
    let len (k : Nat) : Nat := s.get Fld.belElemHiLenm1 ((m - 48) * 16 + e0 + k) + 1
    let sum (l : List Nat) : Nat := (l.map len).foldl (· + ·) 0
    let from_ := bofs + (aregAdd s m x areg).2 + sum (List.range elem)
    s.blurBuf x.buf from_ (min (8192 - from_) (sum ((List.range (nm1 + 1)).drop elem)))
  | _ => (x.buf, s)

/-- The fault registers of a mover (R492, R497): the code, the instruction and the elements done, and the address of the faulting request; where
no request has faulted that address is a free value (DESIGN CHOICE, log entry 132). -/
def faultRegs (m code instr done : Nat) (addr : Option Nat) (s : State) : State :=
  let v := s.fresh
  let a : Nat × State := match addr with
    | some a => (a, s)
    | none => (v.1.toNat, v.2)
  let s := ((a.2.put Fld.belStsCode code m).put Fld.belStsPc instr m).put Fld.belStsElemDone done m
  ((s.put Fld.belFaddrLoAddr a.1 m).put Fld.belFaddrHiAddr (a.1 >>> 32) m).inc Fld.belGstsFaults |>.logPacked uBEL (0x400 + code)

/-- A firmware mover raises its source (R492). -/
def faultSource (m : Nat) (s : State) : State := if isFirmware m then s.edge (.shared (s.get Fld.belCfgSrc m)) else s

/-- The record of a job's fault at an instruction, with the request that faulted if one did (R492): it issues nothing further; its registers are
set, the fault is counted and logged, and a firmware mover raises its source. -/
def markFault (m c : Nat) (x : Ctx) (code instr : Nat) (q : Option MReq) (s : State) : State :=
  let elem := (q.map (·.elem)).getD 0
  let a := match q with
    | some _ => faultBuf m x instr elem s
    | none => (x.buf, s)
  let x' := { x with
    reqs := []
    waitSince := none
    cur := instr
    buf := a.1
    fault := some (code, instr, elem)
    faultN := (q.map (·.n)).getD x.nreq }
  let s := a.2.setCtx m c x'
  let done := if opcOf (instrAt s m x instr) = 2 then elemsDone x' elem else 0
  let s := faultRegs m code instr done (q.map (·.addr)) s
  let s := faultSource m (if isFirmware m then s.put Fld.belStsState 5 m else s)
  if x.open_.isEmpty then s.freeCtx m c else s

/-- A mirror copy as it is stored: encrypted under the job's mirror key (R354). -/
def mirrored (j : Job) (plain : List Byte) : List Byte :=
  match j.crypt with
  | some (key, lta) => Config.xtsEncrypt key lta plain
  | none => plain

end Sys2Proof.Machine
end

