-- ==== Sys2Proof/Machine/Requests.lean ====
section
/-! DEFINITION. Requests (chapter 11): their tiles, the delivery of data, when a request is done, and
the bytes of its harvest entries. -/

namespace Sys2Proof.Machine

/-! ## Requests and tiles -/

/-- A request outstanding, by its tag. -/
def State.rq (s : State) (rtag : Nat) : Option Request := Tab.find rtag s.reqs

/-- The state with a request set. -/
def State.setRq (s : State) (q : Request) : State := { s with reqs := Tab.put q.rtag q s.reqs }

/-- The state with a request changed. -/
def State.modRq (s : State) (rtag : Nat) (f : Request → Request) : State :=
  { s with reqs := Tab.modify rtag f s.reqs }

/-- One tile of a list changed. -/
def setTile (i : Nat) (f : Tile → Tile) (l : List Tile) : List Tile :=
  l.zipIdx.map fun x => if x.2 == i then f x.1 else x.1

/-- The state with one tile of a request changed. -/
def State.modTile (s : State) (rtag i : Nat) (f : Tile → Tile) : State :=
  s.modRq rtag fun q => { q with tiles := setTile i f q.tiles }

/-- A tile of a request. -/
def State.tile (s : State) (rtag i : Nat) : Option Tile :=
  match s.rq rtag with
  | none => none
  | some q => q.tiles[i]?

/-- Outcome codes (Table 11-7). -/
def oOk : Nat := 0
def oUnmapped : Nat := 1
def oErased : Nat := 2
def oMismatch : Nat := 3
def oUncorr : Nat := 4
def oDeferred : Nat := 5
def oNotRun : Nat := 6
def oPan : Nat := 7

/-- An outcome that delivers data to the host buffer. -/
def delivers (c : Nat) : Bool := c == oOk || c == oUnmapped || c == oPan

/-- The twin is reachable (R353). -/
def State.twinUp (s : State) : Bool := s.get Fld.mapTwinStsState == 2

/-- Delivery priority of a class (Table 12-7). -/
def classPrio (c : Nat) : Nat := if c = 0 then 7 else if c = 1 then 5 else if c = 2 then 3 else 1

/-! ## Harvest entries -/

/-- The bytes of a number, least significant first. -/
def leBytes (n v : Nat) : List Byte := (List.range n).map fun i => BitVec.ofNat 8 (v >>> (8 * i))

/-- The class a request is served at: a class-0 entry without tokens, or one that has been DEFERRED, has class-1 order (R23, R306). -/
def Request.order (q : Request) : Nat := if q.cls = 0 ∧ (q.overCeil ∨ q.deferred) then 1 else q.cls

/-- A class-0 READ or FILTER that took its tokens: it is held and may be deferred (R427, R304). -/
def Request.bounded (q : Request) : Bool := q.cls == 0 && !q.overCeil && (q.opc == 1 || q.opc == 5)

/-- The tile record of Table 11-7 in an entry; `deferring` says that it is a DEFERRED entry, in which
only outcomes that deliver no data stand (R306). -/
def tileRecord (deferring : Bool) (t : Tile) : Nat × Nat :=
  match t.outcome with
  | none => (if deferring then oDeferred else oNotRun, if deferring then 0xFE else 0)
  | some (c, b) => if deferring && delivers c then (oDeferred, b) else (c, b)

/-- The STATUS of a READ or FILTER by its tiles (R447, cases 2 to 4). -/
def tilesStatus (rs : List (Nat × Nat)) : Nat :=
  if rs.any fun r => r.1 == oDeferred then 1
  else if rs.any fun r => r.1 == oUncorr then 4
  else if rs.any fun r => r.1 == oMismatch then 3
  else if rs.any fun r => r.1 == oErased then 2
  else 0

/-- The units after the first of a READ or FILTER entry: 15 tile records each (R445). -/
def recordUnits : Nat → List (Nat × Nat) → List Byte
  | 0, _ => []
  | n + 1, rs =>
    let h := (rs.take 15).flatMap fun r => leBytes 1 r.1 ++ leBytes 1 r.2
    ([0, 0] ++ h ++ List.replicate (30 - h.length) 0) ++ recordUnits n (rs.drop 15)

/-- RESULT by operation (Table 11-9). -/
def resultBytes (q : Request) (rs : List (Nat × Nat)) : List Byte :=
  let l := match q.opc with
    | 1 => leBytes 2 (rs.filter fun r => delivers r.1).length
    | 2 => leBytes 2 (q.tiles.filter fun t => t.dstate != 0).length
    | 5 => leBytes 4 q.matched ++ leBytes 4 q.outLen ++ leBytes 2 q.scanned
    | 6 => q.margin.flatMap (leBytes 1)
    | _ => []
  l ++ List.replicate (16 - l.length) 0

/-- The bytes of an entry (Table 11-6); SQHEAD and a write's DSTATE are stamped at its issue. -/
def entryBytes (s : State) (q : Request) (status : Nat) (second : Bool) (dstate : Nat)
    (rs : List (Nat × Nat)) : List Byte :=
  let more := if q.opc = 1 ∨ q.opc = 5 then (rs.length + 14) / 15 else 0
  let flags := 128 * second.toNat + 64 * q.overCeil.toNat + 32 * q.ra.toNat + 16 * q.late.toNat + dstate
  leBytes 1 (64 + more) ++ leBytes 1 q.opc ++ leBytes 2 q.cid ++ leBytes 2 q.sluice
    ++ leBytes 2 (s.get Fld.slqCfg2Client q.sluice) ++ leBytes 4 q.rtag ++ leBytes 1 status ++ leBytes 1 flags
    ++ leBytes 2 0 ++ resultBytes q rs ++ recordUnits more rs

/-- An entry of a request owed to its ring. `last`: no further entry follows, and every reserved unit
left is released with it (R441). -/
def oweEntry (s : State) (q : Request) (status : Nat) (second last : Bool) (dstate : Nat)
    (deferring : Bool) : State :=
  let rs := q.tiles.map (tileRecord deferring)
  let bytes := entryBytes s q status second dstate rs
  let s := s.owe q.ring
    { bytes := bytes, sluice := q.sluice, irqNow := q.irqNow, status := status,
      release := if second then q.units - q.units / 2 else if last then q.units else q.units / 2,
      rtag := q.rtag, last := last }
  s

/-- The request's only or last entry owed; nothing more is owed for it. -/
def finish (q : Request) (status dstate : Nat) (s : State) : State :=
  let s := s.setRq { q with firstOut := true, deferred := false, owesTwin := false, status := some status }
  oweEntry s q status q.firstOut true dstate false

/-! ## Delivery -/

/-- The words of a program that writes a span of the buffer to memory: one MOVE (Table 12-2). -/
def writeProg (addr len : Nat) : List (BitVec 128) := [moveWord true 1 0 0 0 (len - 1) 0 addr]

/-- The posted delivery job of a tile's data (Table 12-1). -/
def deliveryJob (s : State) (q : Request) (path : JobPath) (addr : Nat) (data : List Byte) : Job :=
  { path := path, prio := classPrio q.order, vc := q.cls, port := s.get Fld.hrvCfgPort q.ring,
    age := q.rtag, prog := writeProg addr data.length, init := bufPut 0 data [], crypt := none, c0 := false }

/-- A tile whose data may be delivered: its outcome delivers, and its delivery has not begun. -/
def deliverable (t : Tile) : Bool :=
  match t.outcome with
  | some (c, _) => delivers c && !t.ready
  | none => false

/-- The delivery jobs of a READ's tiles that may start now: each as it comes, or, for a bounded class-0
entry, only once every tile has its outcome (R427). -/
def startDelivery (rtag : Nat) (s : State) : State :=
  match s.rq rtag with
  | none => s
  | some q =>
    if q.opc ≠ 1 ∨ (q.bounded && q.tiles.any fun t => t.outcome.isNone) then s
    else
      let go := q.tiles.zipIdx.filter fun x => deliverable x.1
      let s := s.queueJobs (go.map fun x => deliveryJob s q (.delivery rtag x.2) x.1.buf x.1.data)
      s.modRq rtag fun q => { q with tiles := q.tiles.map fun t => if deliverable t then { t with ready := true } else t }

/-- A READ tile is finished: no data to deliver, or its last data write issued. -/
def tileDone (t : Tile) : Bool :=
  match t.outcome with
  | some (c, _) => !delivers c || t.issued
  | none => false

/-- The acknowledgement level a write waits for: MIRRORED asks no more than STAGED while the twin is not
reachable (R326). -/
def ackLevel (s : State) (q : Request) : Nat := if q.ack = 2 ∧ !s.twinUp then 1 else q.ack

/-- Every tile of a late WRITE is MIRRORED (R449): the second entry is owed, or, where the first has not been issued yet and so reports MIRRORED
itself (R324), none. -/
def mirroredLate (q : Request) (s : State) : State :=
  let r := s.ring q.ring
  if r.queue.any fun e => e.rtag == q.rtag && !e.nop then
    (s.setRq { q with owesTwin := false }).setRing q.ring { r with
      queue := r.queue.map fun e => if e.rtag == q.rtag && !e.nop then { e with last := true, release := q.units } else e }
  else finish q 0 2 s

/-- The entry of a request issued when all it waits for has come about (R326, R328, R380, R447, R514). -/
def requestCheck (rtag : Nat) (s : State) : State :=
  let s := startDelivery rtag s
  match s.rq rtag with
  | none => s
  | some q =>
    if !q.started || (q.firstOut && !q.deferred && !q.owesTwin) then s
    else match q.opc with
    | 1 => if q.tiles.all tileDone then finish q (tilesStatus (q.tiles.map (tileRecord false))) 0 s else s
    | 5 =>
      if q.tiles.all (fun t => t.outcome.isSome && !t.grading && (t.graded || q.outOver || q.badRef
            || !(t.outcome.map (fun o => o.1 == oOk || o.1 == oPan)).getD false)) && q.outLeft == 0 then
        finish q (tilesStatus (q.tiles.map (tileRecord false))) 0 s
      else s
    | 2 =>
      if q.owesTwin then
        if q.tiles.all fun t => decide (2 ≤ t.dstate) then mirroredLate q s else s
      else if q.tiles.all fun t => t.dead || decide (ackLevel s q ≤ t.dstate) then
        if q.tiles.any (·.dead) then finish q 0x14 0 s
        else finish q 0 ((q.tiles.map (·.dstate)).foldl min 3) s
      else s
    | 3 => if q.waitFor.isEmpty then finish q 0 3 s else s
    | 4 => if q.waitFor.isEmpty then finish q 0 3 s else s
    | 6 => if q.margin.all (· != 0x100) then finish q (if q.marginFail then 5 else 0) 0 s else s
    | _ => s

/-- With no grader in service, a tile of a FILTER that would be graded ends NOT_RUN (R515). -/
def filterOutcome (s : State) (rtag code cbc : Nat) : Nat × Nat :=
  match s.rq rtag with
  | some q => if q.opc = 5 ∧ !q.badRef ∧ (code = oOk ∨ code = oPan) ∧ s.get Fld.cryGrdStsOos = 0xFFFF then (oNotRun, 0) else (code, cbc)
  | none => (code, cbc)

/-- A tile's outcome, once; the delivery and the entry follow. -/
def tileOutcome (rtag i code cbc : Nat) (data : List Byte) (s : State) : State :=
  let o := filterOutcome s rtag code cbc
  let s := s.modTile rtag i fun t =>
    if t.outcome.isSome then t else { t with outcome := some o, data := data }
  requestCheck rtag s

end Sys2Proof.Machine
end

