-- ==== Sys2Proof/Machine/Grader.lean ====
section
/-! DEFINITION. Grader units (chapter 13): record formats, predicate programs, their checks and their
execution, and the meaning of the graders' commands. -/

namespace Sys2Proof.Machine

/-! ## Formats -/

/-- The words of a format descriptor. -/
def fmtWords (s : State) (n : Nat) : List Word :=
  [s.reg .cryGrdFmtW0 n, s.reg .cryGrdFmtW1 n, s.reg .cryGrdFmtW2 n, s.reg .cryGrdFmtW3 n]

/-- A field of latched format words. -/
def ff (ws : List Word) (i : Nat) (f : Fld) : Nat := f.get ((ws[i]?).getD 0)

/-- The check of a format descriptor (R501). -/
def fmtOk (ws : List Word) : Bool :=
  let rlen := ff ws 0 Fld.cryGrdFmtW0Rlen
  decide (8 ≤ rlen ∧ rlen ≤ 4096 ∧ ff ws 0 Fld.cryGrdFmtW0Hdr + rlen ≤ 4096)
    && !(ff ws 1 Fld.cryGrdFmtW1CntEn == 1 && decide (4094 < ff ws 1 Fld.cryGrdFmtW1CntOfs))
    && !(ff ws 1 Fld.cryGrdFmtW1Ven == 1 && decide (rlen ≤ ff ws 1 Fld.cryGrdFmtW1Vofs))
    && !(ff ws 0 Fld.cryGrdFmtW0Proj == 1
      && decide (rlen < ff ws 2 Fld.cryGrdFmtW2OutOff + ff ws 2 Fld.cryGrdFmtW2OutLen))

/-- BUSY of a format: a taken entry names it (R508, R524). -/
def fmtBusy (s : State) (n : Nat) : Bool := s.reqs.any fun e => (e.2.gdesc.map (·.1)) == some n

/-- BUSY of a program descriptor (R508). -/
def progBusy (s : State) (p : Nat) : Bool := s.reqs.any fun e => (e.2.gdesc.map (·.2)) == some p

/-- A failed load check recorded (Table 13-5). -/
def loadFail (err widx : Nat) (s : State) : State :=
  (s.put Fld.cryGrdLdstsErr err).put Fld.cryGrdLdstsWidx widx

/-- The effect of a write of word W0 of a format descriptor (R501). -/
def fmtW0Write (n : Nat) (w : Word) (s : State) : State :=
  if s.flag Fld.cryGrdFmtW0Valid n || fmtBusy s n then s.putFlag Fld.cryGrdLdstsInuse true
  else
    let s := s.plainWrite .cryGrdFmtW0 n (w &&& ~~~Fld.cryGrdFmtW0Valid.mask)
    if Fld.cryGrdFmtW0Valid.get w = 0 then s
    else if fmtOk (fmtWords s n) then s.putFlag Fld.cryGrdFmtW0Valid true n
    else loadFail 7 0 s

/-- The effect of a write of W1 to W3 of a format descriptor. -/
def fmtWordWrite (k : RegKind) (n : Nat) (w : Word) (s : State) : State :=
  if s.flag Fld.cryGrdFmtW0Valid n || fmtBusy s n then s.putFlag Fld.cryGrdLdstsInuse true
  else s.plainWrite k n w

/-- GRD_FMT_VALID_WRITE (R501). -/
def execGrdFmtValidWrite (r : Req) (n : Nat) (w : Word) (s : State) : Out :=
  onlyIf (decide (n < 64)) s (regWrite s r .cryGrdFmtW0 n w (fmtW0Write n w))

/-! ## Programs -/

/-- A word of the program store. -/
def storeWord (s : State) (a : Nat) : BitVec 64 := Tab.get 0 a s.gr.store

/-- The words of a program descriptor. -/
def progWords (s : State) (p : Nat) : List (BitVec 64) :=
  (List.range (s.get Fld.cryGrdPdescLenm1 p + 1)).map fun i => storeWord s (s.get Fld.cryGrdPdescStart p + i)

/-- The first word that a condition finds. -/
def badWord (ws : List (BitVec 64)) (bad : Nat → BitVec 64 → Bool) : Option Nat :=
  (ws.zipIdx.find? fun x => bad x.2 x.1).map (·.2)

/-- The check of a program (R507), in the order of the rule: cause and word index; none when it
passes (DESIGN CHOICE, log entry 13). -/
def progCheck (start lenm1 : Nat) (ws : List (BitVec 64)) : Option (Nat × Nat) :=
  if 4095 < start + lenm1 then some (1, 0)
  else match badWord ws fun _ w => !gDefined (gOpc w) with
  | some i => some (2, i)
  | none => match badWord ws fun _ w => w &&& ~~~gUsed w != 0 with
  | some i => some (3, i)
  | none => match badWord ws fun _ w => gOpc w == 0x1C && decide (62 < (gImm w).toNat % 64) with
  | some i => some (6, i)
  | none => match badWord ws fun i w =>
      (gOpc w == 0x28 || gOpc w == 0x29) && (decide (gTarget w ≤ i) || decide (lenm1 < gTarget w)) with
  | some i => some (4, i)
  | none =>
    if [0x30, 0x31, 0x32].contains (gOpc ((ws[lenm1]?).getD 0)) then none else some (5, lenm1)

/-- The effect of a write of a program descriptor (R507, R523): START and LENM1 only while VALID and BUSY
are 0; a VALID of 1 runs the check. -/
def pdescWrite (p : Nat) (w : Word) (s : State) : State :=
  let free := !s.flag Fld.cryGrdPdescValid p && !progBusy s p
  let s1 := if free then
      (s.put Fld.cryGrdPdescLenm1 (Fld.cryGrdPdescLenm1.get w) p).put Fld.cryGrdPdescStart
        (Fld.cryGrdPdescStart.get w) p
    else s
  if Fld.cryGrdPdescValid.get w = 0 then s1.putFlag Fld.cryGrdPdescValid false p
  else match progCheck (s1.get Fld.cryGrdPdescStart p) (s1.get Fld.cryGrdPdescLenm1 p) (progWords s1 p) with
  | none => s1.putFlag Fld.cryGrdPdescValid true p
  | some (e, i) => loadFail e i s1

/-- GRD_PDESC_VALID_WRITE (R507). -/
def execGrdPdescValidWrite (r : Req) (p : Nat) (w : Word) (s : State) : Out :=
  onlyIf (decide (p < 256)) s (regWrite s r .cryGrdPdesc p w (pdescWrite p w))

/-- A store address lies within a descriptor whose VALID or BUSY is 1 (R509). -/
def storeHeld (s : State) (a : Nat) : Bool :=
  (List.range 256).any fun p =>
    (s.flag Fld.cryGrdPdescValid p || progBusy s p)
      && decide (s.get Fld.cryGrdPdescStart p ≤ a ∧ a ≤ s.get Fld.cryGrdPdescStart p + s.get Fld.cryGrdPdescLenm1 p)

/-- The effect of a write of CRY_GRD_PDATA_HI (R509, R522). -/
def pdataWrite (w : Word) (s : State) : State :=
  let a := s.get Fld.cryGrdPaddrAddr
  if storeHeld s a then s.putFlag Fld.cryGrdLdstsInuse true
  else
    let x : BitVec 64 := (w.setWidth 64 <<< 32) ||| (s.reg .cryGrdPdataLo).setWidth 64
    let st := Tab.set 0 a x s.gr.store
    let s : State := { s with gr := { s.gr with store := st } }
    let s := s.setReg .cryGrdPdataHi 0 w
    if s.flag Fld.cryGrdPaddrAutoinc then s.put Fld.cryGrdPaddrAddr ((a + 1) % 4096) else s

/-- GRD_PDATA_HI_WRITE (R522). -/
def execGrdPdataHiWrite (r : Req) (w : Word) (s : State) : Out :=
  .next (regWrite s r .cryGrdPdataHi 0 w (pdataWrite w))

/-! ## Instructions -/

/-- The record that a lane evaluates, as its tile, offset and length. -/
structure Rec where
  tile : List Byte
  at_  : Nat
  rlen : Nat

/-- A byte of the record; beyond RLEN it reads 0 (R506). -/
def Rec.byte (r : Rec) (ofs : Nat) : Byte := if ofs < r.rlen then (r.tile[r.at_ + ofs]?).getD 0 else 0

/-- The field of a load, zero-extended (Table 13-3). -/
def Rec.field (r : Rec) (w : BitVec 64) : BitVec 64 :=
  let bs := (List.range (gSize w)).map fun i => r.byte (gOfs w + i)
  (if gBig w then bs else bs.reverse).foldl (fun a b => (a <<< 8) ||| b.setWidth 64) 0

/-- A lane with D and the flags of a result, at its next instruction (R506). -/
def Lane.set (l : Lane) (w : BitVec 64) (a : Alu 64) : Lane :=
  { l with x := l.x.set (gXd w) a.val, v := l.v || a.v, z := l.z || a.z, pc := l.pc + 1 }

/-- A lane whose evaluation has ended. -/
def Lane.stop (l : Lane) (m : Bool) : Lane := { l with out := some m }

/-- One instruction of one kind executed in a lane of a grader: it comes about when that lane's next
instruction has the operation code (R516). -/
def grdStep (g k opc : Nat) (f : BitVec 64 → Rec → Lane → Lane) (s : State) : Out :=
  match Tab.find g s.gr.run with
  | none => .next s
  | some x =>
    match s.rq x.rtag, s.tile x.rtag x.tile, x.lanes[k]? with
    | some q, some t, some l =>
      match q.gprog[l.pc]? with
      | some w =>
        let rlen := ff q.gfmt 0 Fld.cryGrdFmtW0Rlen
        let r : Rec := ⟨t.data, ff q.gfmt 0 Fld.cryGrdFmtW0Hdr + l.pos * rlen, rlen⟩
        let ls := x.lanes.set k (f w r l)
        onlyIf (s.coreOn && gOpc w == opc && l.out.isNone && !l.skip) s
          { s with gr := { s.gr with run := Tab.put g { x with lanes := ls } s.gr.run } }
      | none => .next s
    | _, _, _ => .next s

/-- An operation on A and operand B. -/
def grdBin (f : BitVec 64 → BitVec 64 → Alu 64) (w : BitVec 64) (_ : Rec) (l : Lane) : Lane :=
  l.set w (f (gA w l.x) (gB w l.x))

/-- An operation on A. -/
def grdUn (f : BitVec 64 → Alu 64) (w : BitVec 64) (_ : Rec) (l : Lane) : Lane := l.set w (f (gA w l.x))

/-- A branch: to its target when the condition on A holds. -/
def grdBranch (c : BitVec 64 → Bool) (w : BitVec 64) (_ : Rec) (l : Lane) : Lane :=
  { l with pc := if c (gA w l.x) then gTarget w else l.pc + 1 }

def execGrdLdu (g k : Nat) (s : State) : Out :=
  grdStep g k 0x01 (fun w r l => l.set w { val := r.field w }) s
def execGrdLds (g k : Nat) (s : State) : Out :=
  grdStep g k 0x02 (fun w r l =>
    let n := 64 - 8 * gSize w
    l.set w { val := ((r.field w) <<< n).sshiftRight n }) s
def execGrdLdi (g k : Nat) (s : State) : Out := grdStep g k 0x04 (fun w _ l => l.set w { val := gImm w }) s
def execGrdAdd (g k : Nat) (s : State) : Out := grdStep g k 0x08 (grdBin aluAdd) s
def execGrdSub (g k : Nat) (s : State) : Out := grdStep g k 0x09 (grdBin aluSub) s
def execGrdMul (g k : Nat) (s : State) : Out := grdStep g k 0x0A (grdBin aluMul) s
def execGrdDiv (g k : Nat) (s : State) : Out := grdStep g k 0x0B (grdBin aluDiv) s
def execGrdRem (g k : Nat) (s : State) : Out := grdStep g k 0x0C (grdBin aluRem) s
def execGrdDivu (g k : Nat) (s : State) : Out := grdStep g k 0x0D (grdBin aluDivu) s
def execGrdRemu (g k : Nat) (s : State) : Out := grdStep g k 0x0E (grdBin aluRemu) s
def execGrdNeg (g k : Nat) (s : State) : Out := grdStep g k 0x0F (grdUn aluNeg) s
def execGrdAbs (g k : Nat) (s : State) : Out := grdStep g k 0x10 (grdUn aluAbs) s
def execGrdAnd (g k : Nat) (s : State) : Out := grdStep g k 0x11 (grdBin aluAnd) s
def execGrdOr (g k : Nat) (s : State) : Out := grdStep g k 0x12 (grdBin aluOr) s
def execGrdXor (g k : Nat) (s : State) : Out := grdStep g k 0x13 (grdBin aluXor) s
def execGrdShl (g k : Nat) (s : State) : Out := grdStep g k 0x14 (grdBin aluShl) s
def execGrdShr (g k : Nat) (s : State) : Out := grdStep g k 0x15 (grdBin aluShr) s
def execGrdSar (g k : Nat) (s : State) : Out := grdStep g k 0x16 (grdBin aluSar) s
def execGrdMin (g k : Nat) (s : State) : Out := grdStep g k 0x17 (grdBin aluMin) s
def execGrdMax (g k : Nat) (s : State) : Out := grdStep g k 0x18 (grdBin aluMax) s
def execGrdAdds (g k : Nat) (s : State) : Out := grdStep g k 0x19 (grdBin aluAdds) s
def execGrdSubs (g k : Nat) (s : State) : Out := grdStep g k 0x1A (grdBin aluSubs) s
def execGrdMuls (g k : Nat) (s : State) : Out := grdStep g k 0x1B (grdBin aluMuls) s
def execGrdMulq (g k : Nat) (s : State) : Out :=
  grdStep g k 0x1C (fun w _ l => l.set w (aluMulq ((gImm w).toNat % 64) (gA w l.x) ((l.x[gXb w]?).getD 0))) s
def execGrdSeq (g k : Nat) (s : State) : Out := grdStep g k 0x20 (grdBin fun a b => aluBool (a == b)) s
def execGrdSne (g k : Nat) (s : State) : Out := grdStep g k 0x21 (grdBin fun a b => aluBool (a != b)) s
def execGrdSlt (g k : Nat) (s : State) : Out := grdStep g k 0x22 (grdBin fun a b => aluBool (a.slt b)) s
def execGrdSle (g k : Nat) (s : State) : Out := grdStep g k 0x23 (grdBin fun a b => aluBool (a.sle b)) s
def execGrdSltu (g k : Nat) (s : State) : Out := grdStep g k 0x24 (grdBin fun a b => aluBool (a.ult b)) s
def execGrdSleu (g k : Nat) (s : State) : Out := grdStep g k 0x25 (grdBin fun a b => aluBool (a.ule b)) s
def execGrdBz (g k : Nat) (s : State) : Out := grdStep g k 0x28 (grdBranch (· == 0)) s
def execGrdBnz (g k : Nat) (s : State) : Out := grdStep g k 0x29 (grdBranch (· != 0)) s
def execGrdAccept (g k : Nat) (s : State) : Out := grdStep g k 0x30 (fun _ _ l => l.stop true) s
def execGrdReject (g k : Nat) (s : State) : Out := grdStep g k 0x31 (fun _ _ l => l.stop false) s
def execGrdAcceptf (g k : Nat) (s : State) : Out :=
  grdStep g k 0x32 (fun w _ l => l.stop (gA w l.x != 0)) s

/-! ## Grading a tile -/

/-- A tile that is graded once its turn comes: its outcome is OK or PAN (R511). -/
def gradable (t : Tile) : Bool :=
  match t.outcome with
  | some (c, _) => (c == oOk || c == oPan) && !t.graded
  | none => false

/-- The tile of a FILTER whose turn at a grader has come: every earlier tile has its outcome and is graded if
it is to be (R512). -/
def nextTile (q : Request) : Option Nat :=
  if q.opc ≠ 5 ∨ !q.started ∨ q.badRef ∨ q.outOver ∨ q.status.isSome
      ∨ (q.bounded && q.tiles.any fun t => t.outcome.isNone) then none
  else
    match q.tiles.zipIdx.find? fun x => x.1.outcome.isNone || gradable x.1 with
    | some (t, i) => if t.outcome.isSome && !t.grading then some i else none
    | none => none

/-- Grader `g` is in service and free. -/
def grdFree (s : State) (g : Nat) : Bool :=
  !s.bit .cryGrdSts 0 (16 + g) && (Tab.find g s.gr.run).isNone

/-- Grader `g` may take a tile of a class (R517). -/
def grdMay (s : State) (g cls : Nat) : Bool :=
  if cls = 0 then (List.range g).all fun h => !grdFree s h
  else decide (min 4 (s.get Fld.cryGrdCtlC0Rsv) ≤ g)

/-- Of two requests that want a grader, the lower class wins, then the older tag (Table 01-7). -/
def reqBetter (a b : Request) : Bool :=
  decide (a.order < b.order)
    || (a.order == b.order && decide ((b.rtag + 2 ^ 32 - a.rtag) % 2 ^ 32 < 2 ^ 31))

/-- The best request among some. -/
def bestReq : List Request → Option Request
  | [] => none
  | a :: r =>
    match bestReq r with
    | none => some a
    | some b => if reqBetter b a then some b else some a

/-- Record positions of a tile (R502). -/
def positions (fmt : List Word) (tile : List Byte) : Nat :=
  let c := (4096 - ff fmt 0 Fld.cryGrdFmtW0Hdr) / ff fmt 0 Fld.cryGrdFmtW0Rlen
  let o := ff fmt 1 Fld.cryGrdFmtW1CntOfs
  if ff fmt 1 Fld.cryGrdFmtW1CntEn = 1 then
    min c (((tile[o]?).getD 0).toNat + 256 * ((tile[o + 1]?).getD 0).toNat)
  else c

/-- A lane at the start of its record: X0 to X7, V and Z are 0; a record that is not present is skipped
(R502, R506). -/
def newLane (fmt : List Word) (tile : List Byte) (pos : Nat) : Lane :=
  let r : Rec := ⟨tile, ff fmt 0 Fld.cryGrdFmtW0Hdr + pos * ff fmt 0 Fld.cryGrdFmtW0Rlen, ff fmt 0 Fld.cryGrdFmtW0Rlen⟩
  { pos := pos, x := List.replicate 8 0,
    skip := ff fmt 1 Fld.cryGrdFmtW1Ven == 1
      && !(r.byte (ff fmt 1 Fld.cryGrdFmtW1Vofs)).getLsbD (ff fmt 1 Fld.cryGrdFmtW1Vbit) }

/-- The next round of a grader: four records in position order (R516). -/
def newRound (fmt : List Word) (tile : List Byte) (x : Grader) : Grader :=
  let n := min 4 (positions fmt tile - x.next)
  { x with lanes := (List.range n).map fun i => newLane fmt tile (x.next + i), next := x.next + n }

/-- The bytes a record emits: its locator and the record or its projection (R503). -/
def recBytes (fmt : List Word) (tileIdx : Nat) (tile : List Byte) (pos : Nat) : List Byte :=
  let rlen := ff fmt 0 Fld.cryGrdFmtW0Rlen
  let r := (tile.drop (ff fmt 0 Fld.cryGrdFmtW0Hdr + pos * rlen)).take rlen
  let body := if ff fmt 0 Fld.cryGrdFmtW0Proj = 1 then
      (r.drop (ff fmt 2 Fld.cryGrdFmtW2OutOff)).take (ff fmt 2 Fld.cryGrdFmtW2OutLen) else r
  (if ff fmt 0 Fld.cryGrdFmtW0Loc = 1 then leBytes 2 tileIdx ++ leBytes 2 pos ++ leBytes 4 0 else []) ++ body

/-- Whether a record matches: its verdict, with ONFLAG where V or Z was set (Table 13-1). -/
def recMatches (fmt : List Word) (l : Lane) : Bool :=
  let m := l.out.getD false
  if l.v || l.z then
    let o := ff fmt 0 Fld.cryGrdFmtW0Onflag
    if o = 0 then m else o == 2
  else m

/-- The output has no room for a record (R513): every tile from this one on ends NOT_RUN. -/
def overflow (rtag i : Nat) (s : State) : State :=
  s.modRq rtag fun q => { q with
    outOver := true
    tiles := q.tiles.zipIdx.map fun x =>
      if i ≤ x.2 then { x.1 with outcome := some (oNotRun, 0), grading := false, graded := false } else x.1 }

/-- One ended lane of a round: its flags are counted, and a record that matches is written (R503,
R513). -/
def emitLane (rtag i : Nat) (s : State) (l : Lane) : State :=
  match s.rq rtag, s.tile rtag i with
  | some q, some t =>
    if q.outOver || l.skip then s
    else
      let s := if l.v then s.inc Fld.cryGrdFlagsVrec else s
      let s := if l.z then s.inc Fld.cryGrdFlagsZrec else s
      if recMatches q.gfmt l then
        let bs := recBytes q.gfmt i t.data l.pos
        if q.opx / 2 ^ 32 < q.outLen + bs.length then overflow rtag i s
        else
          let s := s.queueJob (deliveryJob s q (.filterOut rtag) (q.buf + q.outLen) bs)
          (s.inc Fld.cryGrdMatchMatch).modRq rtag fun q => { q with
            matched := q.matched + 1, outLen := q.outLen + bs.length, outLeft := q.outLeft + 1 }
      else s
  | _, _ => s

/-- A tile graded to completion (R514). -/
def tileGraded (rtag i : Nat) (s : State) : State :=
  let s := (s.inc Fld.cryGrdTilesTiles).modTile rtag i fun t => { t with grading := false, graded := true }
  s.modRq rtag fun q => { q with scanned := q.scanned + 1 }

/-- A grader without its tile. -/
def freeGrader (g : Nat) (s : State) : State := { s with gr := { s.gr with run := Tab.del g s.gr.run } }

/-- A grader's state set. -/
def setGrader (g : Nat) (x : Grader) (s : State) : State :=
  { s with gr := { s.gr with run := Tab.put g x s.gr.run } }

/-- The end of a round, all of whose lanes have ended: its records are emitted in position order, and the
next round, or the tile's end, follows. -/
def endRound (g : Nat) (x : Grader) (s : State) : State :=
  let s := x.lanes.foldl (emitLane x.rtag x.tile) s
  match s.rq x.rtag, s.tile x.rtag x.tile with
  | some q, some t =>
    if q.outOver then requestCheck x.rtag (freeGrader g s)
    else if x.next < positions q.gfmt t.data then setGrader g (newRound q.gfmt t.data x) s
    else requestCheck x.rtag (tileGraded x.rtag x.tile (freeGrader g s))
  | _, _ => freeGrader g s

/-- GRADE_TILE (R516): a free grader takes the next tile and forms its first round; a grader whose round has
ended emits its accepted records and forms the next round or ends the tile (DESIGN CHOICE, log entry 14). -/
def execGradeTile (g : Nat) (s : State) : Out :=
  match Tab.find g s.gr.run with
  | some x => onlyIf (s.coreOn && x.lanes.all fun l => l.out.isSome || l.skip) s (endRound g x s)
  | none =>
    match bestReq ((s.reqs.map Prod.snd).filter fun q => (nextTile q).isSome && grdMay s g q.order) with
    | none => .next s
    | some q =>
      match nextTile q with
      | none => .next s
      | some i =>
        let d := (s.tile q.rtag i).map (·.data) |>.getD []
        let x : Grader := { rtag := q.rtag, tile := i, outAt := q.outLen, matAt := q.matched }
        onlyIf (s.coreOn && decide (g < 16) && grdFree s g) s
          (setGrader g (newRound q.gfmt d x) (s.modTile q.rtag i fun t => { t with grading := true }))

/-- With no grader in service, every tile that would be graded ends NOT_RUN (R515). -/
def noGraders (s : State) : State :=
  let l := (s.reqs.filter fun e => e.2.opc == 5 && !e.2.badRef).map Prod.fst
  let f := fun t : Tile => if gradable t then { t with outcome := some (oNotRun, 0), grading := false } else t
  let s := l.foldl (fun s r => s.modRq r fun q => { q with tiles := q.tiles.map f }) s
  l.foldl (fun s r => requestCheck r s) s

/-- GRADER_MEMORY_ERROR (R515): the grader leaves service; its tile is graded again from its first record on
another grader. -/
def execGraderMemoryError (g : Nat) (s : State) : Out :=
  let s1 := ((contained s).setBit .cryGrdSts 0 (16 + g)).logPacked uCRY 0x100A [(1, g)]
  let s2 := match Tab.find g s1.gr.run with
    | none => s1
    | some x =>
      let t := freeGrader g s1
      let t := t.modTile x.rtag x.tile fun t => { t with grading := false }
      t.modRq x.rtag fun q => { q with outLen := x.outAt, matched := x.matAt }
  onlyIf (s.coreOn && decide (g < 16)) s
    (if (List.range 16).all (fun h => s2.bit .cryGrdSts 0 (16 + h)) then noGraders s2 else s2)

end Sys2Proof.Machine
end

