-- ==== Sys2Proof/Machine/Busy.lean ====
section
/-! DEFINITION. What makes a namespace busy (R624), and the retirement of its copies. -/

namespace Sys2Proof.Machine

/-- Base and size of a namespace in tiles (R622). -/
def nsLow (s : State) (n : Nat) : Nat := s.get Fld.secNsBaseHiBase n * 2 ^ 32 + s.get Fld.secNsBaseLoBase n
def nsLen (s : State) (n : Nat) : Nat := s.get Fld.secNsSizeHiSize n * 2 ^ 32 + s.get Fld.secNsSizeLoSize n

/-- An LTA lies in a namespace's window. -/
def inNs (s : State) (n lta : Nat) : Bool := decide (nsLow s n ≤ lta ∧ lta < nsLow s n + nsLen s n)

/-- BUSY of a namespace (R624): an entry taken with it is outstanding, or an own pan copy of its window is in state 0x11, 0x12 or
0x13. -/
def nsBusy (s : State) (n : Nat) : Bool :=
  (s.reqs.any fun e => e.2.nsid == n && e.2.nsOk)
    || s.wp.own.any fun e => (e.2.st == 0x11 || e.2.st == 0x12 || e.2.st == 0x13) && inNs s n e.2.lta

/-- URGENT set on the namespace's own copies in state 0x11 (R624). -/
def State.urgeNs (s : State) (n : Nat) : State :=
  { s with wp := { s.wp with
      own := s.wp.own.map fun e => if e.2.st == 0x11 && inNs s n e.2.lta then (e.1, { e.2 with urgent := true }) else e } }

/-- LTA_COUNT of the map geometry section. -/
def ltaCount (s : State) : Nat := s.img.geo.ltaCount

end Sys2Proof.Machine
end

