-- ==== Sys2Proof/Machine/Channels.lean ====
section
/-! DEFINITION. Channels and their targets (chapters 4 and 6): die profiles, timing sets as they are applied,
LUN addressing, and what the scheduler holds per LUN. -/

namespace Sys2Proof

/-! ## Die profiles -/

/-- Flags of a die profile (Table 06-2). -/
def Profile.kxQual (p : Profile) : Bool := p.dflags.testBit 0
def Profile.ersSusp (p : Profile) : Bool := p.dflags.testBit 1
def Profile.nestProg (p : Profile) : Bool := p.dflags.testBit 2
def Profile.cacheRd (p : Profile) : Bool := p.dflags.testBit 3
def Profile.cacheProg (p : Profile) : Bool := p.dflags.testBit 4
def Profile.mpStatus (p : Profile) : Bool := p.dflags.testBit 5
def Profile.slcSeal (p : Profile) : Bool := p.dflags.testBit 6
def Profile.ipr (p : Profile) : Bool := p.dflags.testBit 7

/-- Codewords per page: the data page size in 4 KiB (Table 06-2). -/
def Profile.cwPerPage (p : Profile) : Nat := 2 ^ p.pgCode

/-- The longest busy time LBT in µs (R207). -/
def Profile.lbt (p : Profile) : Nat :=
  [p.tbersMax, 2 * p.tprogMax, p.tprogSlcMax, 2 * p.trMax, p.tespd, p.tzqcl].foldl max 0

/-- Erase units per LUN (R377). -/
def Profile.unitsPerLun (p : Profile) : Nat := p.blkPerLun / p.planes

/-- The checks of a die profile on the fields the model holds (R208). -/
def Profile.ok (p : Profile) : Bool :=
  p.valid && decide (1 ≤ p.cellBits ∧ p.cellBits ≤ 4 ∧ p.pgCode ≤ 3 ∧ 1 ≤ p.planes ∧ p.planes ≤ 8
    ∧ 1 ≤ p.luns ∧ p.luns ≤ 4 ∧ p.ofsMethod ≤ 2 ∧ 1 ≤ p.wlPerBlk ∧ p.wlPerBlk ≤ 4096 ∧ p.closeDist ≤ 15
    ∧ p.tbersMax ≤ 10000 ∧ p.nestMax ≤ 4 ∧ p.suspBit ≤ 7
    ∧ p.cwPerPage * 4608 ≤ p.physPage ∧ p.pageBits + p.blockBits ≤ p.lunShift ∧ p.lunShift + 2 ≤ 24
    ∧ p.lbt ≤ 10000)
  && (let pages := p.order.map fun e => e % 4096 * p.cellBits + e / 4096 % 8
      decide (p.order.length = p.wlPerBlk * p.cellBits) && (p.order.all fun e => decide (e / 4096 % 8 < p.cellBits ∧ e % 4096 < p.wlPerBlk))
        && (List.range (p.wlPerBlk * p.cellBits)).all fun i => pages.contains i)

end Sys2Proof

namespace Sys2Proof.Machine

/-! ## Channels, targets and LUNs -/

/-- What a channel holds beside its registers. -/
def State.chan (s : State) (c : Nat) : Chan := Tab.get {} c s.ch

/-- The state with a channel set. -/
def State.setChan (s : State) (c : Nat) (x : Chan) : State := { s with ch := Tab.set {} c x s.ch }

/-- LUN keys: channel × 32 + target × 4 + LUN (Table 10-1). -/
def lunKey (c t l : Nat) : Nat := c * 32 + t * 4 + l
def lunCh (k : Nat) : Nat := k / 32
def lunTgt (k : Nat) : Nat := k / 4 % 8
def lunL (k : Nat) : Nat := k % 4

/-- Index of a target's register copies. -/
def tgtIdx (k : Nat) : Nat := lunCh k * 8 + lunTgt k

/-- What the scheduler holds for a LUN. -/
def State.lun (s : State) (k : Nat) : LunSt := Tab.get {} k s.md.luns

/-- The state with a LUN's part set. -/
def State.setLun (s : State) (k : Nat) (x : LunSt) : State :=
  { s with md := { s.md with luns := Tab.set {} k x s.md.luns } }

/-- The die profile that a target names in its topology record (R133, R206). -/
def State.profileAt (s : State) (ti : Nat) : Profile :=
  let tp : Topo := Tab.get {} (ti / 8) s.img.topo
  Tab.get {} ((tp.profile[ti % 8]?).getD 0xFF) s.img.profiles

/-- The die profile of a LUN. -/
def State.profile (s : State) (k : Nat) : Profile := s.profileAt (tgtIdx k)

/-- A LUN is online (Table 04-13). -/
def State.online (s : State) (k : Nat) : Bool := s.bit .stkTgtcfg (tgtIdx k) (lunL k)

/-- Row address of a page (R209). -/
def rowAddr (p : Profile) (l block page : Nat) : Nat := l * 2 ^ p.lunShift + block * 2 ^ p.pageBits + page

/-! ## Modes and rates -/

/-- The rank of a mode; a reserved code acts as mode 0 (R127). -/
def modeRank (m : Nat) : Nat :=
  if m = 1 then 1 else if m = 2 then 2 else if 3 ≤ m ∧ m ≤ 5 then 3 else if m = 8 then 4 else 0

/-- The rate limit of a rank (R127). -/
def rankRate (r : Nat) : Nat :=
  if r = 0 then 50 else if r = 1 then 200 else if r = 2 then 800 else if r = 3 then 3600 else 7200

/-- The group's VCCQ is 1.8 V (R133): eight channels to a group. -/
def vccqHigh (s : State) (c : Nat) : Bool := (s.img.vccq[c / 8]?).getD 0x12 == 0x18

/-- The rate limit of a mode at a VCCQ, 0 where Table 02-11 does not permit it (R61). -/
def vccqRate (high : Bool) (m : Nat) : Nat :=
  if high then
    (if m = 1 then 200 else if m = 2 then 800 else if m = 5 then 800 else if m = 0 then 50 else 0)
  else if m = 1 then 0 else rankRate (modeRank m)

/-- The rate a DDR mode is applied at (R126). -/
def applyRate (mode limit rate : Nat) : Nat :=
  if mode = 8 then (if 7200 ≤ rate then 7200 else if 6400 ≤ rate then 6400 else 4800)
  else if mode = 0 then rate
  else max 40 (min rate limit)

/-- The substitute of a mode that the VCCQ does not permit: the highest-ranked of the set's family that it
permits and the die advertises; asynchronous SDR always qualifies (R61). Of NV-LPDDR4 and NV-DDR3, which rank alike, the former comes first (DESIGN CHOICE, log
entry 112). -/
def substitute (high : Bool) (adv mode : Nat) : Nat :=
  let fam := if mode = 5 then [5] else [4, 3, 2, 1]
  (fam.find? fun m => decide (vccqRate high m ≠ 0 ∧ modeRank m ≤ modeRank mode) && adv.testBit m).getD 0

/-- The rate of an asynchronous SDR timing mode in MT/s, as the ONFI read cycle times of 100, 50, 35, 30, 25 and 20 ns give it (PRESUMED, log
entry 109); modes 6 and 7 act as 5 (R131). -/
def sdrRate (tm : Nat) : Nat := ([10, 20, 28, 33, 40, 50][min tm 5]?).getD 50

/-! ## Timing sets (R124 to R132) -/

def tsetKinds : List RegKind := [.stkTsetW0, .stkTsetW1, .stkTsetW2, .stkTsetW3, .stkTsetW4, .stkTsetW5, .stkTsetW6, .stkTsetW7]

/-- The eight words of a channel's timing set (Table 04-3). -/
def setWords (s : State) (c n : Nat) : List Word := tsetKinds.map fun k => s.reg k (c * 16 + n)

/-- A field of word `i` of a set. -/
def setField (ws : List Word) (i : Nat) (f : Fld) : Nat := f.get ((ws[i]?).getD 0)

/-- A delay of a set by TDLY's number: T_ADL, T_WHR, T_CCS, T_RHW, T_WB, T_CS, T_CH, T_RR (Table 05-5). -/
def setDelay (ws : List Word) (i : Nat) : Nat := ((ws[3 + i / 2]?).getD 0).toNat / (if i % 2 = 0 then 65536 else 1) % 65536

/-- Stoker cycles of 1.111 ns in ns, and a delay rounded up to whole cycles (R124). -/
def cyclesNs (n : Nat) : Nat := (10 * n + 8) / 9
def delayNs (d : Nat) : Nat := cyclesNs ((9 * d + 9) / 10)

/-- The number of the set that a target is selected with. -/
def setNo (s : State) (c t : Nat) : Nat :=
  if s.flag Fld.stkTgtcfgKx (c * 8 + t) then s.get Fld.stkTgtcfgKxTset (c * 8 + t) else s.get Fld.stkTgtcfgTset (c * 8 + t)

/-- How a set is applied: mode, rate, SDR timing mode, and the key under which it is logged when that is not as written. -/
structure Applied where
  mode : Nat
  rate : Nat
  tm   : Nat
  note : Option Nat
  deriving DecidableEq, Repr

/-- A set's words as they are applied to a target (R61, R121, R126, R127). A standard set of a reserved mode acts as one of asynchronous SDR, and one
of KX-DDR as a mode that the ceiling does not allow (DESIGN CHOICE, log entry 110). -/
def applied (s : State) (c t : Nat) : Applied :=
  let n := setNo s c t
  let ws := setWords s c n
  let code := setField ws 0 Fld.stkTsetW0Mode
  let rate := setField ws 0 Fld.stkTsetW0Rate
  let tm := min 5 (setField ws 0 Fld.stkTsetW0SdrTm)
  let ceil := modeRank (s.get Fld.stkChmodeCeil c)
  let high := vccqHigh s c
  let mine := some (1000 + 16 * t + n)
  if s.flag Fld.stkTgtcfgKx (c * 8 + t) then
    let r := applyRate 8 7200 rate
    ⟨8, r, tm, if r = rate then none else some n⟩
  else
    let mode := if code ≤ 5 ∨ code = 8 then code else 0
    if mode = 8 ∨ ceil < modeRank mode then ⟨0, sdrRate 0, 0, mine⟩
    else if vccqRate high mode = 0 ∨ (mode = 5 ∧ vccqRate high mode < rate) then
      let m := substitute high (Tab.get 0 t (s.chan c).adv) mode
      ⟨m, if m = 0 then sdrRate tm else applyRate m (min (vccqRate high m) (rankRate ceil)) rate, tm, mine⟩
    else if mode = 0 then ⟨0, sdrRate tm, tm, if code = 0 then none else some n⟩
    else
      let r := applyRate mode (min (rankRate (modeRank mode)) (rankRate ceil)) rate
      ⟨mode, r, tm, if r = rate then none else some n⟩

/-! ## Pins (R57, R122, R123, R132, R168) -/

/-- The nominal ohms of a drive code and of a termination code, 0 for off; a reserved code acts as 0x01 and as 0x00 (R132, Table 04-4). -/
def drvOhm (code : Nat) : Nat := if code = 2 then 40 else if code = 3 then 35 else if code = 4 then 30 else if code = 5 then 25 else 50
def odtOhm (code : Nat) : Nat := ([0, 150, 100, 75, 60, 50, 40][code]?).getD 0
def drvKnown (code : Nat) : Bool := decide (1 ≤ code ∧ code ≤ 5)
def odtKnown (code : Nat) : Bool := decide (code ≤ 6)

/-- Strobes and read enable are differential in a mode (Table 04-1). -/
def diffMode (mode : Nat) (diff : Bool) : Bool := mode == 4 || mode == 8 || (diff && (mode == 2 || mode == 3 || mode == 5))

/-- FL_CE_N of a mask of targets low, and every other one high. -/
def ceLow (mask : Nat) : BitVec 8 := ~~~(BitVec.ofNat 8 mask)

/-- The pins as a cycle or burst leaves them in a mode (Table 04-2); `odt` terminates while the die drives (Table 05-2). In NV-DDR FL_RE_T is W/R_N:
high while the engine drives, low while the die does (PRESUMED, log entry 109). -/
def cyclePins (mode : Nat) (diff : Bool) (odt : Nat) (b : BusCyc) (p : FlPins) : FlPins :=
  let strobe : Option Bool := if mode = 0 then none else some false
  let shown (reT : Bool) (q : FlPins) : FlPins := { q with reT := reT, reC := diffMode mode diff && !reT, weN := true, weClk := mode == 1 }
  let ours (m : Nat) (cle ale : Bool) (dq : Option Byte) (dqs : Option Bool) : FlPins :=
    shown true { p with ceN := ceLow m, cle := cle, ale := ale, dq := dq, dqs := dqs, odt := 0 }
  let theirs (m : Nat) : FlPins :=
    shown (mode != 1) { p with ceN := ceLow m, cle := false, ale := false, dq := none, dqs := none, odt := odt }
  match b with
  | .cmd m x => ours m true false (some x) none
  | .addr m x => ours m false true (some x) none
  | .dataIn m bs => ours m false false bs.getLast? strobe
  | .dataOut m _ | .frameOut m _ | .status m | .statusRow m _ => theirs m
  | .ca m bs => ours m true true bs.getLast? strobe
  | .frameIn m bs => ours m false false bs.getLast? strobe
  | .pins bits =>
    let re := bits.getLsbD 9
    { p with
      cle := bits.getLsbD 12
      ale := bits.getLsbD 11
      weN := bits.getLsbD 10
      reT := re
      reC := diffMode mode diff && !re
      dq := if bits.getLsbD 8 then p.dq.or (some 0) else none
      dqs := if bits.getLsbD 7 then p.dqs.or (some false) else none }
  | .escape _ | .rate _ => { p with ceN := 0xFF, cle := false, ale := false, weN := true }
  | .sweep m _ _ _ | .reToggles m _ => theirs m

/-- A cycle or burst put on a channel's pins, in the mode of the target last selected. -/
def busPut (c : Nat) (b : BusCyc) (s : State) (odt : Nat := 0) : State :=
  let x := s.chan c
  let diff := (x.latch.map fun l => setField l.2 0 Fld.stkTsetW0Diff == 1).getD false
  s.setChan c { x with bus := x.bus ++ [b], pins := cyclePins (s.get Fld.stkChmodeCurMode c) diff odt b x.pins }

/-- Every FL_CE_N of a channel high; T_CH of the set in use passes first (R168). -/
def raiseCe (c : Nat) (s : State) : State :=
  let x := s.chan c
  let hold := (x.latch.map fun l => s.now + delayNs (setDelay l.2 6)).getD 0
  s.setChan c { x with latch := none, holdTill := max x.holdTill hold, rawCe := false, pins := { x.pins with ceN := 0xFF } }

/-- The channel's rate changed, with every FL_CE_N high (R122). -/
def setRate (c rate : Nat) (s : State) : State :=
  if s.get Fld.stkChmodeCurRate c = rate then s else (busPut c (.rate rate) (raiseCe c s)).put Fld.stkChmodeCurRate rate c

/-- A change of rate begun: RLOCK is 1 for 2 µs, the longest that it takes (R122; DESIGN CHOICE, log entry 111). -/
def startRate (c rate : Nat) (s : State) : State :=
  let s := setRate c rate s
  s.setChan c { s.chan c with lockTill := s.now + 2000 }

/-- A change of rate is in progress: RLOCK (R122). -/
def rateLocked (s : State) (c : Nat) : Bool := decide (s.now < (s.chan c).lockTill)

/-- A target is not selected and its set asks for another rate (R128). -/
def needsRate (s : State) (c t : Nat) : Bool :=
  (s.chan c).latch.map (·.1) != some t && (applied s c t).rate != s.get Fld.stkChmodeCurRate c

/-- One entry 0x1001 for a thing of a channel, the first time. -/
def logOnce (c t key : Nat) (s : State) : State :=
  let x := s.chan c
  if x.logged.contains key then s else (s.setChan c { x with logged := key :: x.logged }).logPacked uSTK 0x1001 [(1, c), (1, t)]

/-- FL_CE_N of some targets taken low for a target's bus cycles (R125, R128): its set's words are latched, CUR_MODE follows, T_CS passes, and what is
not applied as written is logged the first time (R61, R126, R127, R132). A target already selected keeps its words. -/
def selectMask (c t mask : Nat) (s : State) : State :=
  let x := s.chan c
  if x.latch.map (·.1) = some t then s.setChan c { x with pins := { x.pins with ceN := ceLow mask } }
  else
    let n := setNo s c t
    let ws := setWords s c n
    let a := applied s c t
    let drv := setField ws 1 Fld.stkTsetW1DrvEng
    let s := (setRate c a.rate s).put Fld.stkChmodeCurMode a.mode c
    let s := (a.note.toList ++ (if drvKnown drv then [] else [100 + n])
      ++ (if odtKnown (setField ws 1 Fld.stkTsetW1OdtEng) then [] else [200 + n])).foldl (fun s key => logOnce c t key s) s
    let x := s.chan c
    s.setChan c { x with
      latch := some (t, ws)
      holdTill := max x.holdTill (s.now + delayNs (setDelay ws 5))
      pins := { x.pins with ceN := ceLow mask, drv := drvOhm drv } }

def selectTarget (c t : Nat) (s : State) : State := selectMask c t (2 ^ t) s

/-- The termination that the selected set gives while the engine receives. -/
def odtOf (s : State) (c : Nat) : Nat := ((s.chan c).latch.map fun l => odtOhm (setField l.2 1 Fld.stkTsetW1OdtEng)).getD 0

/-- A command for a target that needs the pins: where its rate is another one, the change of rate comes first, and the command comes about once it
is over (R122, R128). -/
def atRate (c t : Nat) (f : State → State) (s : State) : State :=
  if rateLocked s c then s else if needsRate s c t then startRate c (applied s c t).rate s else f s

/-! ## KX-DDR framing: when a target may enter it (R127, R146) -/

/-- The rate that a target's KX timing set gives: none where it may not enter KX-DDR. -/
def kxRate (s : State) (c t : Nat) : Option Nat :=
  let ti := c * 8 + t
  let set := s.get Fld.stkTgtcfgKxTset ti
  if s.part == .ig7332 && (s.profileAt ti).kxQual && !vccqHigh s c && s.get Fld.stkChmodeCeil c == 8
      && s.get Fld.stkTsetW0Mode (c * 16 + set) == 8 then
    some (applyRate 8 7200 (s.get Fld.stkTsetW0Rate (c * 16 + set)))
  else none

/-- No LUN of a target has a slot occupied, and its FL_RB_N is high: its idle period. -/
def targetIdle (s : State) (c t : Nat) : Bool :=
  !((s.chan c).slots.any fun e => e.1 / 4 == t) && (s.chan c).rb.getLsbD t

/-- A target whose KX_REQ asks for KX-DDR, or for leaving it, may do so now (R146, R147, R151, Table 04-13); after a third fallback within 1 s it does not
enter again (R150). -/
def kxMayEnter (s : State) (c t : Nat) : Bool :=
  let ti := c * 8 + t
  let a := applied s c t
  s.flag Fld.stkTgtcfgOnline ti && s.flag Fld.stkTgtcfgKxReq ti && !s.flag Fld.stkTgtcfgKx ti && targetIdle s c t && (kxRate s c t).isSome
    && decide (a.mode ≠ 0 ∧ 800 ≤ a.rate ∧ (Tab.get [] t (s.chan c).falls).length < 3)
def kxMayExit (s : State) (c t : Nat) : Bool :=
  let ti := c * 8 + t
  s.flag Fld.stkTgtcfgKx ti && !s.flag Fld.stkTgtcfgKxReq ti && targetIdle s c t

/-- A target that awaits the recovery of R150 may have it: FL_RB_N is high (R152). -/
def mayRecover (s : State) (c t : Nat) : Bool := (s.chan c).fallen.contains t && (s.chan c).rb.getLsbD t

/-- A stalled LUN's next poll is due (R228). -/
def stallDue (s : State) (k : Nat) : Bool :=
  match (s.lun k).stall with
  | some (_, t) => decide (max t (s.lun k).polled + 1000000 ≤ s.now)
  | none => false

/-- The maintenance slot is runnable: a calibration run before its step 6 or one to be started, a target that may enter or leave KX-DDR, one to
be retrained, or a stalled LUN to be polled. -/
def maintWork (s : State) (c : Nat) : Bool :=
  (match Tab.find c s.cal.runs with
   | some r => !r.six
   | none => !(Tab.get [] c s.cal.queue).isEmpty && s.stage == 9 && !s.flag Fld.mapFlushStsActive)
    || ((List.range 8).any fun t => kxMayEnter s c t || kxMayExit s c t || mayRecover s c t)
    || (List.range 32).any fun l => stallDue s (c * 32 + l)

/-- A target left out of its sweep; a sweep with no target left is over. -/
def sweepDone (n ti : Nat) (s : State) : State :=
  let x := Tab.get {} n s.cal.sweeps
  let left := x.left.erase ti
  { s with cal := { s.cal with sweeps := if left.isEmpty then Tab.del n s.cal.sweeps else Tab.put n { x with left := left } s.cal.sweeps } }

/-! ## LUNs going offline -/

/-- A LUN goes offline: its LUN_ON bit clears and its queue is left to reconstruction; its set is told by
LUN_OFFLINE (R315). -/
def lunOff (k : Nat) (s : State) : State :=
  if s.online k then
    let s := s.clrBit .stkTgtcfg (tgtIdx k) (lunL k)
    let s := if s.get Fld.stkTgtcfgLunOn (tgtIdx k) = 0 then s.putFlag Fld.stkTgtcfgOnline false (tgtIdx k) else s
    { s with md := { s.md with offQ := s.md.offQ ++ [k] } }
  else s

/-- A target goes offline with a code of Table 03-8: every LUN of it. -/
def targetOff (c t code : Nat) (s : State) : State :=
  let s := (List.range 4).foldl (fun s l => lunOff (lunKey c t l) s) s
  (s.putFlag Fld.stkTgtcfgOnline false (c * 8 + t)).logPacked uSTK code [(1, c), (1, t)]

/-- A read, program or erase step is held back from the LUN: stalled (R228), or its target under the raw window
(R191). -/
def rawHeld (s : State) (k : Nat) : Bool :=
  (s.flag Fld.stkRawCtlEn (lunCh k) && s.get Fld.stkRawCtlTgt (lunCh k) == lunTgt k)
    || (s.chan (lunCh k)).rawOut == some (lunTgt k)

/-- The slot of a LUN in its stoker (R174). -/
def lunSlot (k : Nat) : Nat := k % 32

/-- An operation is in a LUN's slot. -/
def State.inSlot (s : State) (k : Nat) : Option Slot := Tab.find (lunSlot k) (s.chan (lunCh k)).slots

/-- The optype is a program, or an erase (Table 06-1). -/
def isProg (o : Nat) : Bool := decide (0x08 ≤ o ∧ o ≤ 0x0C) || o == 0x19
def isErase (o : Nat) : Bool := decide (0x10 ≤ o ∧ o ≤ 0x12)

/-- A program is in flight on a LUN, or an erase is in flight or suspended (R295, R298). -/
def progOn (s : State) (k : Nat) : Bool :=
  match s.inSlot k with
  | some x => isProg x.op.optype
  | none => false
def eraseOn (s : State) (k : Nat) : Bool := (s.lun k).er.isSome

end Sys2Proof.Machine
end

