-- ==== Sys2Proof/Machine/Codeword.lean ====
section
/-! DEFINITION. Codewords (chapter 7) and stripe parity (chapter 8): CRC-32C, the scrambler, tile metadata, and
the arithmetic that rebuilds a member. -/

namespace Sys2Proof.Machine

/-! ## CRC-32C (Table 00-4) -/

/-- One bit of the reflected CRC-32C register. -/
def crcBit (c : Word) : Word := if c.getLsbD 0 then (c >>> 1) ^^^ 0x82F63B78 else c >>> 1

/-- One byte of CRC-32C. -/
def crcByte (c : Word) (b : Byte) : Word :=
  (List.range 8).foldl (fun c _ => crcBit c) (c ^^^ b.setWidth 32)

/-- The CRC register after some bytes. -/
def crcReg (c : Word) (bs : List Byte) : Word := bs.foldl crcByte c

/-- CRC-32C of some bytes: initial value and final XOR all ones, reflected. -/
def crc32c (bs : List Byte) : Word := crcReg 0xFFFFFFFF bs ^^^ 0xFFFFFFFF

/-- The CRC-8 of a CA frame: x^8 + x^2 + x + 1, initial 0xFF, no reflection (R141). -/
def crc8 (bs : List Byte) : Byte :=
  bs.foldl (fun c b => (List.range 8).foldl
    (fun (c : Byte) _ => if c.getLsbD 7 then (c <<< 1) ^^^ 0x07 else c <<< 1) (c ^^^ b)) 0xFF

/-- The CRC-16 of a parameter page: x^16 + x^15 + x^2 + 1, initial 0x4F4E, no reflection (PRESUMED, log entry 121). -/
def crc16 (bs : List Byte) : BitVec 16 :=
  bs.foldl (fun (c : BitVec 16) b => (List.range 8).foldl
    (fun (c : BitVec 16) _ => if c.getLsbD 15 then (c <<< 1) ^^^ 0x8005 else c <<< 1) (c ^^^ ((b.setWidth 16 : BitVec 16) <<< 8))) 0x4F4E

/-- The bytes of a number, least significant first. -/
def numBytes (n v : Nat) : List Byte := (List.range n).map fun i => BitVec.ofNat 8 (v >>> (8 * i))

/-- A little-endian number of some bytes. -/
def bytesNum (bs : List Byte) : Nat := bs.foldr (fun b a => b.toNat + 256 * a) 0

/-! ## Scrambler (R246, R247) -/

/-- One bit of the scrambler: the output and the next state. -/
def scrBit (s : BitVec 31) : Bool × BitVec 31 :=
  let o := s.getLsbD 30 ^^ s.getLsbD 27
  (o, (s <<< 1) ||| BitVec.ofNat 31 o.toNat)

/-- `n` bits of the scrambler into a byte, bit 0 first. -/
def scrByte : Nat → Nat → Byte → BitVec 31 → Byte × BitVec 31
  | 0, _, b, s => (b, s)
  | n + 1, i, b, s => scrByte n (i + 1) (b ||| (BitVec.ofNat 8 (scrBit s).1.toNat <<< i)) (scrBit s).2

/-- Bytes XORed with the scrambler's sequence. -/
def scrXor : List Byte → BitVec 31 → List Byte
  | [], _ => []
  | b :: r, s => (b ^^^ (scrByte 8 0 0 s).1) :: scrXor r (scrByte 8 0 0 s).2

/-- The seed of codeword `k` of a page (R247). -/
def scrSeed (s : State) (p : Page) (k : Nat) : BitVec 31 :=
  let row := rowAddr (s.profile p.lun) (lunL p.lun) p.block p.page
  let x := (crc32c (numBytes 1 (lunCh p.lun) ++ numBytes 1 (lunTgt p.lun) ++ numBytes 3 row
    ++ numBytes 1 k ++ numBytes 1 p.slc.toNat ++ [0xA5])).setWidth 31
  if x = 0 then 0x12345678 else x

/-- A codeword scrambled or descrambled, which are one operation (R246). -/
def scramble (s : State) (p : Page) (k : Nat) (bs : List Byte) : List Byte := scrXor bs (scrSeed s p k)

/-- Zero bits of some bytes (R251). -/
def zeroBits (bs : List Byte) : Nat :=
  bs.foldl (fun n b => n + ((List.range 8).filter fun i => !b.getLsbD i).length) 0

/-- Bit positions where two byte strings differ: the corrected-bit count (R250). -/
def diffBits (a b : List Byte) : Nat :=
  (a.zip b).foldl (fun n x => n + ((List.range 8).filter fun i => (x.1 ^^^ x.2).getLsbD i).length) 0

/-- The corrected-bit-count byte (Table 07-5). -/
def cbcByte (n : Nat) : Nat := if 252 ≤ n then 0xFC else n

/-! ## Tile metadata (Table 07-3) -/

/-- KINDs of a codeword. -/
def kData : Nat := 0
def kP : Nat := 1
def kQ : Nat := 2
def kJournal : Nat := 3

/-- Metadata bytes 0x00 to 0x17. -/
def metaHead (lta hid kind seq stripe spos keyidx : Nat) : List Byte :=
  numBytes 6 lta ++ numBytes 2 (hid % 2 ^ 14 + kind * 2 ^ 14) ++ numBytes 8 seq ++ numBytes 5 stripe
    ++ numBytes 1 spos ++ numBytes 2 keyidx

/-- Metadata bytes 0x00 to 0x1F, with the tile CRC over the plaintext and the head (R245). -/
def metaBytes (head plain : List Byte) : List Byte :=
  head ++ numBytes 4 (crc32c (plain ++ head)).toNat ++ numBytes 4 0

/-- The fields of metadata as a decode returns it. -/
structure Meta where
  lta : Nat
  hid : Nat
  kind : Nat
  seq : Nat
  stripe : Nat
  spos : Nat
  keyidx : Nat
  tcrc : Nat
  deriving DecidableEq, Repr

/-- The metadata of a decoded codeword, from byte 0x1000 on. -/
def readMeta (cw : List Byte) : Meta :=
  let m := cw.drop 4096
  let f (o n : Nat) : Nat := bytesNum ((m.drop o).take n)
  ⟨f 0 6, f 6 2 % 2 ^ 14, f 6 2 / 2 ^ 14, f 8 8, f 0x10 5, f 0x15 1 % 32, f 0x16 2, f 0x18 4⟩

/-- The member's row address in STRIPE (R288). -/
def stripeNo (set group step : Nat) : Nat := set * 2 ^ 32 + group * 2 ^ 14 + step

/-! ## GF(2^8) and parity (R292, R294) -/

/-- A product by g = 2, reduced by 0x11D. -/
def gfDouble (x : Byte) : Byte := if x.getLsbD 7 then (x <<< 1) ^^^ 0x1D else x <<< 1

/-- A product by g^n. -/
def gfPow (n : Nat) (x : Byte) : Byte := (List.range n).foldl (fun x _ => gfDouble x) x

/-- The product of two elements. -/
def gfMul (a b : Byte) : Byte :=
  (List.range 8).foldl (fun r i => if a.getLsbD i then r ^^^ gfPow i b else r) 0

/-- The inverse, as the 254th power. -/
def gfInv (a : Byte) : Byte := (List.range 253).foldl (fun r _ => gfMul r a) a

/-- The XOR of two byte strings. -/
def xorBytes (a b : List Byte) : List Byte := (a.zip b).map fun x => x.1 ^^^ x.2

/-- 4,128 zero bytes: what parity covers of a member that is not there. -/
def zeroPar : List Byte := List.replicate 4128 0

/-- P of data members given by position (R292) (DEDUCED, log entry 27). -/
def parP (l : List (Nat × List Byte)) : List Byte := l.foldl (fun a x => xorBytes a x.2) zeroPar

/-- Q of data members given by position (R292). -/
def parQ (l : List (Nat × List Byte)) : List Byte :=
  l.foldl (fun a x => xorBytes a (x.2.map (gfPow x.1))) zeroPar

/-- A member rebuilt from the members that are present, by position, 16 being P and 17 Q (R294); none where
they do not suffice. -/
def rebuild (x : Nat) (have_ : Tab (List Byte)) : Option (List Byte) :=
  let ds := have_.filter fun e => decide (e.1 < 16 ∧ e.1 ≠ x)
  let p := Tab.find 16 have_
  let q := Tab.find 17 have_
  if x < 16 then
    match p, q with
    | some p, some q =>
      if ds.length = 15 then some (xorBytes p (parP ds))
      else if ds.length = 14 then
        match (List.range 16).find? fun y => y != x && (Tab.find y ds).isNone with
        | some y =>
          let pxy := xorBytes p (parP ds)
          let qxy := xorBytes q (parQ ds)
          let d := gfInv (gfPow x 1 ^^^ gfPow y 1)
          some ((xorBytes qxy (pxy.map (gfPow y))).map (gfMul d))
        | none => none
      else none
    | some p, none => if ds.length = 15 then some (xorBytes p (parP ds)) else none
    | none, some q =>
      if ds.length = 15 then some ((xorBytes q (parQ ds)).map (gfPow (255 - x))) else none
    | none, none => none
  else if ds.length = 16 then some (if x = 16 then parP ds else parQ ds)
  else if ds.length = 15 then
    match (List.range 16).find? fun y => (Tab.find y ds).isNone with
    | some y =>
      match (if x = 16 then q else p) with
      | some o =>
        let dy := if x = 16 then (xorBytes o (parQ ds)).map (gfPow (255 - y)) else xorBytes o (parP ds)
        some (if x = 16 then parP (ds ++ [(y, dy)]) else parQ (ds ++ [(y, dy)]))
      | none => none
    | none => none
  else none

/-! ## Encoding -/

/-- The probe bytes of a member, which after scrambling give the pattern of R258. `levels` is the level-owner map as a
list of the owners of levels 1, 2, … -/
def pageBit (levels : List Nat) (state p : Nat) : Bool :=
  ((levels.take state).filter (· == p)).length % 2 == 0

/-- The stored probe pattern of page type `p`: 256 cells, cell i in state i mod 2^cellBits (R258). -/
def probeStored (cellBits : Nat) (slc : Bool) (levels : List Nat) (p : Nat) : List Byte :=
  (List.range 32).map fun b =>
    (List.range 8).foldl (fun (x : Byte) i =>
      let c := 8 * b + i
      let bit := if slc then c % 2 == 0 else pageBit levels (c % 2 ^ cellBits) p
      x ||| (BitVec.ofNat 8 bit.toNat <<< i)) 0

/-- The owners of the levels of a die profile, from CRY_LVLMAP (R256, Table 07-13). -/
def levelOwners (s : State) (prof : Nat) : List Nat :=
  let n := 2 ^ ((Tab.get {} prof s.img.profiles : Profile).cellBits) - 1
  (List.range n).map fun k => (s.get Fld.cryLvlmapOwner prof >>> (2 * k)) % 4

/-- The ECC parity of an encoded codeword: the code's matrix is not in the spec (DESIGN CHOICE, log entry 6). -/
def eccBytes (info : List Byte) : List Byte := Config.ldpcParity info

/-- A data or journal member as it is stored on a page, scrambled (R243, R258). -/
def encodeMember (s : State) (p : Page) (k : Nat) (data hdr : List Byte) : List Byte :=
  let prof := s.get Fld.stkTgtcfgProfile (tgtIdx p.lun)
  let cb := (s.profile p.lun).cellBits
  let st := probeStored cb (p.slc || cb == 1) (levelOwners s prof) (if p.slc then 0 else p.page % max 1 cb)
  let probe := ((scramble s p k (List.replicate 4128 0 ++ st)).drop 4128).take 32
  let info := data ++ hdr ++ probe
  scramble s p k (info ++ eccBytes info)

/-- A parity member as it is stored: its 4,128 B of parity split over its data field and MPAR (R292). -/
def encodeParity (s : State) (p : Page) (k : Nat) (par hdr : List Byte) : List Byte :=
  let info := par.take 4096 ++ hdr ++ par.drop 4096
  scramble s p k (info ++ eccBytes info)

/-! ## Program steps (R214) -/

/-- Entries of a program-order table grouped into steps: an entry, and those after it while JOIN is set. -/
def groupSteps : List Nat → List (List Nat)
  | [] => []
  | e :: r =>
    match groupSteps r with
    | [] => [[e]]
    | g :: gs =>
      match g with
      | f :: _ => if f / 32768 % 2 = 1 then (e :: g) :: gs else [e] :: g :: gs
      | [] => [e] :: gs

/-- Page indexes of each program step of a block. -/
def stepsOf (p : Profile) (slc : Bool) : List (List Nat) :=
  if slc then (List.range p.wlPerBlk).map fun w => [w]
  else (groupSteps p.order).map fun g => g.map fun e => e % 4096 * p.cellBits + e / 4096 % 8

/-- The step that programs a page. -/
def stepOf (p : Profile) (slc : Bool) (page : Nat) : Nat :=
  if slc then page else ((stepsOf p slc).findIdx? fun g => g.contains page).getD 0

end Sys2Proof.Machine
end

