-- ==== Sys2Proof/Machine/Rom.lean ====
section
/-! DEFINITION. The stoker ROM as far as the spec gives it (chapters 5 and 6): the words that it publishes, the command sequence of each
operation type, and which words a routine may hold. -/

namespace Sys2Proof.Machine

/-! ## Published words (R173) -/

/-- An address cycle of a context byte to the context target, and a return (Tables 05-1 to 05-5). -/
def romAddr (i : Nat) : BitVec 96 := (0x01#96 <<< 88) ||| (0x2800#96 <<< 72) ||| (BitVec.ofNat 96 (0x40 + i) <<< 64)
def romRet : BitVec 96 := (0x09#96 <<< 88) ||| (0x2000#96 <<< 72)

/-- The word that the ROM holds at an address: ADDR5 from 0x0040 and ROWADDR from 0x0046; elsewhere the operand `w` (DESIGN CHOICE, log entry 18). -/
def romWord (a : Nat) (w : BitVec 96) : BitVec 96 :=
  match a with
  | 0x40 => romAddr 0
  | 0x41 => romAddr 1
  | 0x42 => romAddr 2
  | 0x43 => romAddr 3
  | 0x44 => romAddr 4
  | 0x45 => romRet
  | 0x46 => romAddr 2
  | 0x47 => romAddr 3
  | 0x48 => romAddr 4
  | 0x49 => romRet
  | _ => w

/-! ## Command sequences (Table 06-1) -/

/-- A byte of a number. -/
def byteOf (v i : Nat) : Byte := BitVec.ofNat 8 (v >>> (8 * i))

/-- Five address cycles, and the three of a row. -/
def addrRow (row : Nat) : List SeqItem := (List.range 3).map fun i => .addr (byteOf row i)
def addrCol (col row : Nat) : List SeqItem := [.addr (byteOf col 0), .addr (byteOf col 1)] ++ addrRow row

/-- SET FEATURES of four bytes. -/
def setFeat (fa : Nat) (ps : List Byte) : List SeqItem := [.cmd 0xEF, .addr (BitVec.ofNat 8 fa)] ++ ps.map .byte

/-- SLC_CMD before a command of a block used in SLC mode (R229). -/
def slcPre (p : Profile) (slc : Bool) : List SeqItem := if slc then [.cmd (BitVec.ofNat 8 p.slcCmd)] else []

/-- Context gauge bytes. -/
def gaugeByte (o : Op) (i : Nat) : Byte := BitVec.ofInt 8 ((o.gauge[i]?).getD 0)

/-- How many offsets the page type of a read uses: the levels that it owns, one in SLC mode (R256). -/
def usedOffs (s : State) (g : Page) : Nat :=
  let p := s.profile g.lun
  if g.slc then 1
  else ((levelOwners s (s.get Fld.stkTgtcfgProfile (tgtIdx g.lun))).filter (· == g.page % max 1 p.cellBits)).length

/-- The offsets before a read command (R211). -/
def offsetItems (s : State) (o : Op) : List SeqItem :=
  let p := s.profile o.lun
  if p.ofsMethod = 1 then
    if (s.lun o.lun).lastOfs = some o.gauge then []
    else setFeat p.ofsFa ((List.range 4).map (gaugeByte o)) ++ setFeat (p.ofsFa + 1) ((List.range 4).map fun i => gaugeByte o (4 + i))
  else if p.ofsMethod = 2 then
    match o.wants with
    | [] => []
    | w :: _ => .cmd (BitVec.ofNat 8 p.ofsPrefix) :: (List.range (usedOffs s w.page)).map fun i => .addr (gaugeByte o i)
  else []

/-- Row address of a want's page, and the fetch of one codeword, or of `n` bytes from a column, from the page register (R210). -/
def wantRow (s : State) (w : Want) : Nat := rowAddr (s.profile w.page.lun) (lunL w.page.lun) w.page.block w.page.page
def fetchItems (col row n : Nat) : List SeqItem := [.cmd 0x06] ++ addrCol col row ++ [.cmd 0xE0, .dataOut n]
def wantFetch (s : State) (w : Want) : List SeqItem := fetchItems (w.cw * 4608) (wantRow s w) 4608

/-- The read command of a want's page: its column is 0, and `cf` is the confirm. -/
def readItems (s : State) (w : Want) (cf : SeqItem) : List SeqItem :=
  slcPre (s.profile w.page.lun) w.page.slc ++ [.cmd 0x00] ++ addrCol (w.cw * 4608) (wantRow s w) ++ [cf]

/-- The last of a list takes one form and every other another. -/
def butLast (f g : α → List SeqItem) : List α → List SeqItem
  | [] => []
  | [a] => g a
  | a :: r => f a ++ butLast f g r

/-- The pages of a program want: the first page's address is the want's; a later one's, and what ends the pages before the last of a plane, are
those of its plane and step. -/
def pageItems (slc : List SeqItem) (first : List SeqItem) (cf : SeqItem) : List (List Byte) → List SeqItem
  | [] => []
  | [d] => slc ++ [.cmd 0x80] ++ first ++ [.dataIn d.length, cf]
  | d :: r => slc ++ [.cmd 0x80] ++ first ++ [.dataIn d.length, .anyCmd] ++ pageItems slc (List.replicate 5 .anyAddr) cf r

/-- A program want's items, with its confirm (R214, R216, R217, R229). -/
def progItems (s : State) (w : Want) (cf : SeqItem) : List SeqItem :=
  let p := s.profile w.page.lun
  pageItems (slcPre p (w.page.slc || w.kind == 3)) (addrCol 0 (wantRow s w)) cf w.data

/-- The erase of a want's unit: a command for each plane (R205). -/
def eraseItems (s : State) (o : Op) (w : Want) (multi : Bool) : List SeqItem :=
  let p := s.profile o.lun
  let row (pl : Nat) : Nat := rowAddr p (lunL o.lun) (w.page.block + pl) 0
  let one (cf : SeqItem) (pl : Nat) : List SeqItem := slcPre p w.page.slc ++ [.cmd 0x60] ++ addrRow (row pl) ++ [cf]
  butLast (one (.cmd 0xD1)) (one (.go 0xD0)) (List.range (if multi then p.planes else 1))

/-- The command sequence of an operation (Table 06-1). -/
def opSeq (s : State) (o : Op) : List SeqItem :=
  let p := s.profile o.lun
  let w0 := o.wants.head?
  match o.optype with
  | 0x01 => (w0.map fun w => offsetItems s o ++ readItems s w (.go 0x30)).getD [] ++ o.wants.flatMap (wantFetch s)
  | 0x02 =>
    offsetItems s o ++ butLast (fun w => readItems s w (.cmd 0x32)) (fun w => readItems s w (.go 0x30)) o.wants ++ o.wants.flatMap (wantFetch s)
  | 0x03 =>
    (w0.map fun w => offsetItems s o ++ readItems s w (.go 0x30)).getD []
      ++ butLast (fun w => .go 0x31 :: wantFetch s w) (fun w => .go 0x3F :: wantFetch s w) o.wants
  | 0x04 => if o.xlen = 511 then fetchItems o.col o.row 512 else o.wants.flatMap (wantFetch s)
  | 0x08 | 0x09 | 0x0B | 0x0C => o.wants.flatMap fun w => progItems s w (.go 0x10)
  | 0x0A => butLast (fun w => progItems s w (.go 0x15)) (fun w => progItems s w (.go 0x10)) o.wants
  | 0x10 => (w0.map fun w => eraseItems s o w false).getD []
  | 0x11 => (w0.map fun w => eraseItems s o w true).getD []
  | 0x12 => [.go (BitVec.ofNat 8 p.eresCmd)]
  | 0x18 =>
    setFeat p.otpFa [BitVec.ofNat 8 p.otpVal, 0, 0, 0] ++ [.cmd 0x00] ++ addrCol 0 o.row ++ [.go 0x30] ++ fetchItems 0 o.row p.physPage
      ++ setFeat p.otpFa [0, 0, 0, 0]
  | 0x19 =>
    setFeat p.otpFa [BitVec.ofNat 8 p.otpVal, 0, 0, 0] ++ [.cmd 0x80] ++ addrCol 0 o.row ++ [.dataIn p.physPage, .go 0x10]
      ++ setFeat p.otpFa [0, 0, 0, 0]
  | 0x20 => [.cmd 0xEE, .addr (BitVec.ofNat 8 ((o.feat[0]?).getD 0)), .dataOut 4]
  | 0x21 => setFeat ((w0.map (·.arg)).getD 0) ((List.range 4).map fun i => BitVec.ofNat 8 ((o.feat[i]?).getD 0))
  | _ => []

/-! ## Which words a routine may hold -/

/-- A cache read with a read of class 0 or 1 queued for its LUN ends at the next page (R213). -/
def endsCache (s : State) (x : Slot) : Bool :=
  x.op.optype == 3 && (s.lun x.op.lun).queue.any fun w => w.kind == 0 && decide (w.cls ≤ 1)

/-- The sequence left after a cycle of a byte: none where the routine of the slot's type holds no such word. Status reads (0x70, or 0x78 with the row
address) may stand anywhere, and the erase-suspend command on the suspend branch of an erase, after which LRDY is awaited for 2 × TESPD (R176, R221). -/
def seqCycle (s : State) (x : Slot) (cmd go : Bool) (b : Byte) : Option (List SeqItem) :=
  let p := s.profile x.op.lun
  let espd := match x.seq with
    | .espd _ :: _ => true
    | _ => false
  if espd then none
  else if cmd ∧ b = 0x70 then some x.seq
  else if cmd ∧ b = 0x78 then some (addrRow x.op.row ++ x.seq)
  else if cmd ∧ isErase x.op.optype ∧ x.went ∧ x.susp ∧ b = BitVec.ofNat 8 p.esuspCmd then some (.espd (2000 * p.tespd) :: .esusp :: x.seq)
  else match x.seq with
  | .go a :: r =>
    if a = 0x31 ∧ endsCache s x then (if go ∧ b = 0x3F then some (r.takeWhile fun i => !(match i with | .go _ => true | _ => false)) else none)
    else if go ∧ a = b then some r else none
  | .cmd a :: r => if cmd ∧ !go ∧ a = b then some r else none
  | .addr a :: r => if !cmd ∧ a = b then some r else none
  | .anyCmd :: r => if cmd then some r else none
  | .anyAddr :: r => if !cmd then some r else none
  | _ => none

/-- The sequence left after bytes moved: out of the operation's data, in from the die, or `n` times one byte of the routine. -/
def seqIn (x : Slot) (n : Nat) : Option (List SeqItem) :=
  match x.seq with
  | .dataIn m :: r => if n < m then some (.dataIn (m - n) :: r) else if n = m then some r else none
  | _ => none
def seqOut (x : Slot) (n : Nat) : Option (List SeqItem) :=
  match x.seq with
  | .dataOut m :: r => if n < m then some (.dataOut (m - n) :: r) else if n = m then some r else none
  | _ => none
def seqBytes (x : Slot) (n : Nat) (b : Byte) : Option (List SeqItem) :=
  if x.seq.take n = List.replicate n (.byte b) then some (x.seq.drop n) else none

/-- The completion codes that a ROM routine may end with, by STATUS and what the slot has done (R221, R238, R239, Table 05-8): TIMEOUT, FRAME in
KX-DDR, ABORTED before GO; SUSPENDED on the suspend branch; else what Table 06-5 says. -/
def endFits (p : Profile) (kx : Bool) (x : Slot) (code : Nat) : Bool :=
  let o := x.op.optype
  let sr := x.status
  let writes := isProg o || isErase o
  match code with
  | 0 => !(writes && (sr.getLsbD 0 || !sr.getLsbD 7)) && !(o == 0x21 && sr.getLsbD 0) && !(o == 0x0A && sr.getLsbD 1)
      && !(isErase o && x.susp && sr.getLsbD p.suspBit)
  | 1 => sr.getLsbD 0 || sr.getLsbD 1
  | 2 => true
  | 3 => !x.went
  | 4 => kx
  | 5 => isErase o && x.susp && x.seq.head? == some .esusp && sr.getLsbD p.suspBit
  | 6 => writes && !sr.getLsbD 7
  | 7 => o == 0x0A && sr.getLsbD 1
  | _ => false

end Sys2Proof.Machine
end

