-- ==== Sys2Proof/Machine/Stoker.lean ====
section
/-! DEFINITION. Stokers (chapter 5): slots, fetching and the microwords, switch points, faults, and the meaning of their
commands. -/

namespace Sys2Proof.Machine

/-! ## Slots -/

/-- A slot's part set, and a slot freed. -/
def setSlot (c k : Nat) (x : Slot) (s : State) : State :=
  s.setChan c { s.chan c with slots := Tab.put k x (s.chan c).slots }

def delSlot (c k : Nat) (s : State) : State :=
  s.setChan c { s.chan c with slots := Tab.del k (s.chan c).slots }

/-- The target of a slot, and whether it is in KX-DDR framing. -/
def slotTgt (x : Slot) : Nat := lunTgt x.op.lun
def slotKx (s : State) (c : Nat) (x : Slot) : Bool := s.flag Fld.stkTgtcfgKx (c * 8 + slotTgt x)

/-- Context bytes by ROUTE index (Table 05-7); 26 to 31 read as 0. -/
def ctxByte (o : Op) (i : Nat) : Byte :=
  if i ≤ 1 then byteOf o.col i
  else if i ≤ 4 then byteOf o.row (i - 2)
  else if i = 5 then byteOf (lunL o.lun) 0
  else if i = 6 then byteOf o.planes 0
  else if i = 7 then byteOf o.retry 0
  else if i ≤ 15 then gaugeByte o (i - 8)
  else if i ≤ 19 then byteOf ((o.feat[i - 16]?).getD 0) 0
  else if i = 20 then byteOf o.bufslot 0
  else if i = 21 then byteOf (lunTgt o.lun) 0
  else if i ≤ 23 then byteOf o.xlen (i - 22)
  else if i = 24 then byteOf o.optype 0
  else if i = 25 then byteOf o.cls 0
  else 0

/-- G0 to G3 of the slot, G4 to G7 of the channel (R165). -/
def gGet (s : State) (c : Nat) (x : Slot) (n : Nat) : Word :=
  if n < 4 then (x.g[n]?).getD 0 else ((s.chan c).gs[n - 4]?).getD 0

/-- A G register set: the slot and the state after. -/
def gSet (c : Nat) (x : Slot) (n : Nat) (v : Word) (s : State) : Slot × State :=
  if n < 4 then ({ x with g := x.g.set n v }, s)
  else (x, s.setChan c { s.chan c with gs := (s.chan c).gs.set (n - 4) v })

/-- A slot ends with a completion code (R181): it is freed, and the scheduler and the draught engine have its report to
come. -/
def endSlot (c k code : Nat) (x : Slot) (s : State) : State :=
  let s := delSlot c k s
  { s with md := { s.md with ended := s.md.ended ++ [{
      op := x.op
      code := code
      status := x.status
      went := x.went
      raw := x.raw
      sent := x.sent
      got := x.got }] } }

/-- The pins of a channel at their reset state but for FL_WP_N (R188). -/
def pinsReset (c : Nat) (s : State) : State :=
  s.setChan c { s.chan c with pins := {}, items := [], latch := none, rawCe := false }

/-- The answer of a raw access, with which the credits that it holds go back (R48). -/
def rawAnswer (a : RawAcc) (code : RCode) (data : List Byte) (s : State) : State :=
  let s := giveIn a.req a.beats s
  match a.read with
  | none => s.respondWrite a.req code
  | some _ => s.respond a.req code data

/-- The answer of a raw access that ends without its cycles: DECERR, and zeros to a read. -/
def rawFails (a : RawAcc) (s : State) : State :=
  rawAnswer a .decerr (match a.read with | some (_, _, n) => List.replicate n 0 | none => []) s

/-- The raw slot and the maintenance slot of a faulted stoker end: waiting accesses get DECERR, and a calibration run before its step 6 is left out
of its sweep (R188; DEDUCED, log entry 113). -/
def endOwnSlots (c : Nat) (s : State) : State :=
  let q := (s.chan c).rawQ
  let s := q.foldl (fun s a => rawFails a s) (s.setChan c { s.chan c with rawQ := [], fallen := [] })
  match Tab.find c s.cal.runs with
  | some u => if u.six then s else sweepDone u.sweep (c * 8 + u.tgt) { s with cal := { s.cal with runs := Tab.del c s.cal.runs } }
  | none => s

/-- A microcode fault (R188). -/
def microFault (c k cause : Nat) (upc : BitVec 15) (s : State) : State :=
  let s := ((s.putFlag Fld.stkStsFault true c).put Fld.stkStsCause cause c).put Fld.stkStsFaultUpc upc.toNat c
  let s := pinsReset c s
  let s := (s.chan c).slots.foldl (fun s e => endSlot c e.1 (if e.2.went then 2 else 3) e.2 s) s
  let s := endOwnSlots c (s.setChan c { s.chan c with act := none, words := 0 })
  let s := (List.range 32).foldl (fun s l => lunOff (c * 32 + l) s) s
  s.logPacked uSTK (0x300 + cause) [(1, c), (1, k)]

/-! ## Fetching and next addresses -/

/-- A word as it is fetched (R182): in ROM space the lowest enabled match register that names the address redirects it to
patch RAM. `w` is the word that the ROM holds there, where the spec does not publish it (DESIGN CHOICE, log entry 18). -/
def fetchWord (s : State) (c : Nat) (upc : BitVec 15) (w : BitVec 96) : BitVec 15 × BitVec 96 :=
  if upc.getLsbD 14 then (upc, Tab.get 0 (upc.toNat % 2 ^ 14) (s.chan c).patch)
  else
    match (List.range 32).find? fun m =>
        s.flag Fld.stkMatchEn (c * 32 + m) && s.get Fld.stkMatchRomAddr (c * 32 + m) == upc.toNat with
    | some m =>
      let a := s.get Fld.stkMatchPatchAddr (c * 32 + m)
      (BitVec.ofNat 15 (2 ^ 14 + a), Tab.get 0 a (s.chan c).patch)
    | none => (upc, romWord upc.toNat w)

/-- The incremented address; none past the end of its space (Table 05-6, R173). -/
def nextUpc (upc : BitVec 15) : Option (BitVec 15) :=
  if upc.toNat = (if upc.getLsbD 14 then 2 ^ 14 + 0x3FF else 0x3FFF) then none else some (upc + 1)

/-- The slot at the incremented address, or a fault past the space's end. -/
def goNext (c k : Nat) (x : Slot) (upc : BitVec 15) (s : State) : State :=
  match nextUpc upc with
  | none => microFault c k 5 upc s
  | some a => setSlot c k { x with upc := a } s

/-- The slot at a branch's target, or a fault for a patch address above 0x03FF (R173). -/
def goTo (c k : Nat) (x : Slot) (tgt upc : BitVec 15) (s : State) : State :=
  if tgt.getLsbD 14 ∧ 0x3FF < tgt.toNat % 2 ^ 14 then microFault c k 5 upc s
  else setSlot c k { x with upc := tgt } s

/-! ## Conditions -/

/-- Whether a condition holds for a slot (Table 05-4); none for a reserved code (R166). -/
def condHolds (s : State) (c : Nat) (x : Slot) (cond : Nat) : Option Bool :=
  let ch := s.chan c
  let b := match cond % 128 with
    | 0x00 => some true
    | 0x01 => some (ch.rb.getLsbD (slotTgt x))
    | 0x02 => some x.lrdy
    | 0x03 => some (x.status.getLsbD 6)
    | 0x04 => some (x.status.getLsbD 5)
    | 0x05 => some (x.status.getLsbD 0)
    | 0x06 => some (x.status.getLsbD 1)
    | 0x07 => some (x.status.getLsbD 3 || x.status.getLsbD 4)
    | 0x08 => some ch.eq
    | 0x09 => some ch.lt
    | 0x0A => some (slotKx s c x)
    | 0x0B => some x.abort
    | 0x0C => some x.susp
    | 0x0D => some s.banked
    | 0x0E => some ch.fchk
    | 0x0F => some ch.tmoF
    | _ => none
  b.map fun v => if 128 ≤ cond then !v else v

/-! ## Switch points -/

/-- The pins released at a switch point: FL_CE_N rises (R168). -/
def release_ (c : Nat) (s : State) : State :=
  let s := raiseCe c s
  s.setChan c { s.chan c with act := none, words := 0 }

/-- A slot that may run; one whose target awaits the recovery of R150 may not. -/
def slotReady (s : State) (c : Nat) (x : Slot) : Bool :=
  (x.st == .ready || x.st == .parkedSafe) && !(s.chan c).fallen.contains (slotTgt x)

/-- Of two slots, the first ranks higher: lower class, then the older request tag (R174). -/
def slotFirst (a b : Nat × Slot) : Bool :=
  decide (a.2.op.cls < b.2.op.cls)
    || (a.2.op.cls == b.2.op.cls && decide ((b.2.op.rtag + 2 ^ 32 - a.2.op.rtag) % 2 ^ 32 < 2 ^ 31))

/-- The highest-ranked of some slots. -/
def topSlot : List (Nat × Slot) → Option (Nat × Slot)
  | [] => none
  | a :: r =>
    match topSlot r with
    | none => some a
    | some b => if slotFirst b a then some b else some a

/-- A raw access's next cycle may go: it has its grant, and its target is not busy if it is a read (R194, R196). -/
def rawGoes (s : State) (c : Nat) (a : RawAcc) : Bool :=
  !((a.cycles.head?.map (·.2)).getD false) && (a.read.isNone || (s.chan c).rb.getLsbD a.tgt)

/-- A raw access whose next cycle has its grant. -/
def rawGranted (a : RawAcc) : RawAcc :=
  match a.cycles with
  | b :: r => { a with cycles := (b.1, false) :: r }
  | [] => a

/-- The oldest raw-window access takes the pins next. -/
def rawWaits (s : State) (c : Nat) : Bool :=
  match (s.chan c).rawQ with
  | a :: _ => rawGoes s c a
  | [] => false

/-- The slot that takes the pins next (R174): 32 is the raw window, 33 channel maintenance, whose work is the commands KX_ENTRY, KX_EXIT and
those of calibration. -/
def nextSlot (s : State) (c : Nat) : Option Nat :=
  if rawWaits s c then some 32
  else
    let r := (s.chan c).slots.filter fun e => slotReady s c e.2
    match topSlot (r.filter fun e => decide (e.2.op.cls ≤ 1)) with
    | some e => some e.1
    | none => if maintWork s c then some 33 else (topSlot r).map (·.1)

/-- The maintenance slot may take the pins: no slot holds them, no raw access waits, and no slot of class 0 or 1 may run (R174). -/
def maintFirst (s : State) (c : Nat) : Bool :=
  (s.chan c).act.isNone && !rawWaits s c && !s.flag Fld.stkStsFault c && !s.flag Fld.stkDbgCtlHalted c && !rateLocked s c
    && !((s.chan c).slots.any fun e => slotReady s c e.2 && decide (e.2.op.cls ≤ 1))

/-- The micro-program counter that STK_DBG_CTL.UPC shows of a halted stoker: that of the slot that holds the pins, else of the slot that takes them
next (R204). -/
def haltUpc (s : State) (c : Nat) : Nat :=
  match ((s.chan c).act).or (nextSlot s c) with
  | some k => ((Tab.find k (s.chan c).slots).map (·.upc.toNat)).getD 0
  | none => 0

/-- A halt request takes effect at a switch point (R204). -/
def haltAt (c : Nat) (s : State) : State :=
  if (s.chan c).halting && !s.flag Fld.stkDbgCtlHalted c then s.putFlag Fld.stkDbgCtlHalted true c else s

/-- A command byte that starts an array operation by the die profile of a target (Table 06-2, R194). -/
def arrayStart (s : State) (c t : Nat) (b : Byte) : Bool := (s.profileAt (c * 8 + t)).astart.contains b.toNat

/-- A raw cycle driven; a command that starts an array operation takes FL_RB_N of the target low (DESIGN CHOICE, log entry 37). -/
def rawCycle (c t : Nat) (s : State) (b : BusCyc) : State :=
  let s := busPut c b s (odtOf s c)
  match b with
  | .cmd _ x => if arrayStart s c t x then s.setChan c { s.chan c with rb := (s.chan c).rb &&& ~~~(1#8 <<< t) } else s
  | _ => s

/-- Bytes from lane `lo` on of the four that the status region holds: the status byte, and zeros (Table 05-10). -/
def statusLanes (b : Byte) (lo n : Nat) : List Byte := (([b, 0, 0, 0] : List Byte).drop lo).take n

/-- The cycles of the oldest raw access up to the next that waits for a grant; once none is left its response is sent. FL_CE_N of its target then
stays low (R193 to R196). -/
def rawDrive (c : Nat) (din : List Byte) (s : State) : State :=
  match (s.chan c).rawQ with
  | [] => s
  | a :: r =>
    atRate c a.tgt (fun s =>
      let s := selectTarget c a.tgt s
      let now_ := a.cycles.takeWhile fun e => !e.2
      let left := a.cycles.dropWhile fun e => !e.2
      let s := now_.foldl (fun s b => rawCycle c a.tgt s b.1) s
      let s := s.setChan c { s.chan c with rawCe := true, rawQ := if left.isEmpty then r else { a with cycles := left } :: r }
      if !left.isEmpty then s
      else
        rawAnswer a .ok (match a.read with
          | none => []
          | some (true, lo, n) => statusLanes ((din[0]?).getD 0) lo n
          | some (false, _, n) => (List.range n).map fun i => (din[i]?).getD 0) s) s

/-- A slot takes the pins: the raw slot lets its target go, and a change of rate to the slot's target comes first (R128, R174, R195). -/
def giveSlot (c k : Nat) (x : Slot) (s : State) : State :=
  let s := if (s.chan c).rawCe then raiseCe c s else s
  let s := if needsRate s c (slotTgt x) then startRate c (applied s c (slotTgt x)).rate s else s
  let s := setSlot c k { x with st := .ready } s
  haltAt c (s.setChan c { s.chan c with act := some k, words := 0 })

/-- SLOT_SWITCH (R174). `din`: the bytes a die returns to a raw-window read. -/
def execSlotSwitch (c : Nat) (din : List Byte) (s : State) : Out :=
  onlyIf (s.coreOn && decide (c < 128) && (s.chan c).act.isNone && !s.flag Fld.stkStsFault c
      && !s.flag Fld.stkDbgCtlHalted c) s
    (match nextSlot s c with
     | none | some 33 => haltAt c s
     | some 32 => haltAt c (rawDrive c din s)
     | some k =>
       match Tab.find k (s.chan c).slots with
       | none => s
       | some x => giveSlot c k x s)

/-! ## KX-DDR frames -/

/-- The bytes of a CA frame (Table 04-7, R179). -/
def caFrame (items : List (Byte × Bool)) (xlen : Nat) : List Byte :=
  let mask := (items.zipIdx.map fun x => if x.1.2 then 2 ^ x.2 else 0).foldl (· + ·) 0
  let body := numBytes 1 items.length ++ numBytes 2 mask ++ numBytes 2 xlen ++ items.map (·.1)
  0xC3 :: body ++ [crc8 body]

/-- The bytes of a DATA-IN frame: sync byte, payload and CRC-32C (Table 04-7). -/
def dataFrame (bs : List Byte) : List Byte := 0x5A :: bs ++ numBytes 4 (crc32c bs).toNat

/-- The CA frame of a KX-DDR command (Table 04-8). -/
def kxCmd (b : Byte) (xlen : Nat) : List Byte := caFrame [(b, true)] xlen

/-- A CA frame of a slot sent; but for a status read it is kept for a resend, after a DATA-IN frame as the one that confirms it (R149). -/
def sendCa (c k mask : Nat) (bs : List Byte) (s : State) : State :=
  let s := busPut c (.ca mask bs) s
  match Tab.find k (s.chan c).slots with
  | some x =>
    if bs[6]? = some 0x70 ∨ bs[6]? = some 0x78 then s
    else setSlot c k { x with caSent := bs, confirm := if x.inSent.isEmpty then x.confirm else bs } s
  | none => s

/-- The gathered items sent as one CA frame (R179). -/
def sendItems (c k mask : Nat) (s : State) : State :=
  let x := s.chan c
  if x.items.isEmpty then s
  else
    let s := sendCa c k mask (caFrame x.items x.itemXlen) s
    s.setChan c { s.chan c with items := [], itemXlen := 0 }

/-- The mask of the targets that SEL selects (Table 05-2). -/
def selMask (x : Slot) (w : BitVec 96) : Nat :=
  if mSel w = 1 then 2 ^ slotTgt x else if mSel w = 2 then x.op.mask else 0

/-- A word before which gathered items are sent: the first that is not CYC, GO, BR, CALL, RET, or a NOP with WCNT 0. -/
def closesFrame (w : BitVec 96) : Bool :=
  let o := mOp w
  !(o == 1 || o == 2 || o == 7 || o == 8 || o == 9 || (o == 0 && mWcnt w == 0))

/-- A status read of a LUN: with one LUN 0x70, else 0x78 with the row address; in KX-DDR a CA frame and a DATA-OUT frame of one byte (R143, R176). -/
def statusRead (c t row : Nat) (kx : Bool) (luns : Nat) (s : State) : State :=
  let items : List (Byte × Bool) := if 1 < luns then (0x78, true) :: (List.range 3).map (fun i => (byteOf row i, false)) else [(0x70, true)]
  if kx then busPut c (.frameOut (2 ^ t) 1) (busPut c (.ca (2 ^ t) (caFrame items 0)) s)
  else busPut c (if 1 < luns then .statusRow (2 ^ t) row else .status (2 ^ t)) s (odtOf s c)

/-- The second error of an operation (R150): the slot starts afresh once its target has been escaped and retrained, which the maintenance slot
does (KX_ENTRY); a third fallback of the target within 1 s clears KX_REQ. -/
def kxFallback (c k : Nat) (x : Slot) (s : State) : State :=
  let t := slotTgt x
  let s := (s.putFlag Fld.stkTgtcfgKxFallbk true (c * 8 + t)).logPacked uSTK 0x1007 [(1, c), (1, t)]
  let times := s.now :: (Tab.get [] t (s.chan c).falls).filter fun a => decide (s.now ≤ a + 1000000000)
  let s := s.setChan c { s.chan c with falls := Tab.put t times (s.chan c).falls, items := [], fallen := t :: (s.chan c).fallen.erase t }
  let s := if 3 ≤ times.length then s.putFlag Fld.stkTgtcfgKxReq false (c * 8 + t) else s
  let x : Slot := { op := x.op, upc := BitVec.ofNat 15 x.op.optype, g := x.g, st := .retrain, abort := x.abort, susp := x.susp, seq := opSeq s x.op }
  let s := setSlot c k x s
  if (s.chan c).act = some k then release_ c s else s

/-- The resend of R149 after a status read with CAERR or DINERR: the last CA frame; for DINERR the last DATA-IN frame, and the confirm after it. -/
def resendFrame (c : Nat) (x : Slot) (b : Byte) (s : State) : State :=
  let m := 2 ^ slotTgt x
  if b.getLsbD 4 then busPut c (.ca m x.confirm) (busPut c (.frameIn m x.inSent) s) else busPut c (.ca m x.caSent) s

/-- A status byte of a slot's LUN. In KX-DDR the first CAERR or DINERR of an operation resends the frame, and the status is awaited afresh; the second
starts the fallback (R149, R150, R161). `wait` is the slot where it awaits the status, `next` where it goes on. -/
def takeStatus (c k : Nat) (wait next : Slot) (b : Byte) (s : State) : State :=
  if slotKx s c next && (b.getLsbD 3 || b.getLsbD 4) then
    let s := if b.getLsbD 3 then s.inc Fld.stkKxCntCaCrc c else s
    let s := if b.getLsbD 4 then s.inc Fld.stkKxCntDinCrc c else s
    if next.kxErrs = 0 then setSlot c k { wait with kxErrs := 1 } (resendFrame c next b s)
    else kxFallback c k next s
  else setSlot c k { next with status := b } s

/-! ## Data -/

/-- The bytes that an operation sends to the die: its wants' pages in order. -/
def opData (o : Op) : List Byte := o.wants.flatMap fun w => w.data.flatten

/-- Bytes received from the die into a channel buffer slot (R242): the next codeword of the operation, descrambled; an
operation without codewords keeps its bytes raw. -/
def storeIn (c : Nat) (x : Slot) (bslot : Nat) (bs : List Byte) (bad : Bool) (s : State) : Slot × State :=
  match x.op.wants[x.got]? with
  | some w =>
    if w.kind = 0 then
      let d := scramble s w.page w.cw bs
      let b : BufSlot := { why := w.why, page := w.page, cw := w.cw, offs := w.offs, step := w.step, data := d, zeros := zeroBits bs, badFrame := bad }
      ({ x with got := x.got + 1 }, s.setChan c { s.chan c with buf := Tab.put bslot b (s.chan c).buf })
    else ({ x with raw := x.raw ++ bs }, s)
  | none => ({ x with raw := x.raw ++ bs }, s)

/-- Program data from the channel buffer (ROUTE 0b100): the operation's bytes in order, of a write path that keeps BUFSLOT 0 (DESIGN CHOICE, log
entry 114); a slot offset names the bytes from its codeword on. -/
def dataOf (x : Slot) (off n : Nat) : List Byte := ((opData x.op).drop (x.sent + 4608 * off)).take n

/-! ## The microwords -/

/-- The byte that ROUTE names for a cycle (Table 05-3); none for a reserved value. With ROUTE "None" the byte on FL_DQ is a
free value (DESIGN CHOICE, log entry 16). -/
def routeByte (s : State) (c : Nat) (x : Slot) (w : BitVec 96) : Option (Byte × State) :=
  let r := mRoute w
  match r / 32 with
  | 0 => if r % 32 = 0 then some ((s.fresh).1.setWidth 8, (s.fresh).2) else none
  | 1 => if r % 32 = 0 then some ((mImm w).setWidth 8, s) else none
  | 2 => some (ctxByte x.op (r % 32), s)
  | 3 => if r % 32 < 8 then some ((gGet s c x (r % 8)).setWidth 8, s) else none
  | _ => none

/-- One command or address cycle to the selected targets, or one item of a CA frame, which goes at its fifteenth (R179). -/
def driveCycle (c k : Nat) (x : Slot) (w : BitVec 96) (cmd : Bool) (b : Byte) (s : State) : State :=
  if slotKx s c x then
    let s := s.setChan c { s.chan c with items := (s.chan c).items ++ [(b, cmd)], itemXlen := (mImm w).toNat / 65536 }
    if (s.chan c).items.length = 15 then sendItems c k (selMask x w) s else s
  else busPut c (if cmd then .cmd (selMask x w) b else .addr (selMask x w) b) s

/-- A slot's part after a word that drove the pins: what it has kept of frames stays, its sequence moves on. -/
def keepFrames (s : State) (c k : Nat) (x : Slot) : Slot :=
  match Tab.find k (s.chan c).slots with
  | some y => { x with caSent := y.caSent, confirm := y.confirm, inSent := y.inSent }
  | none => x

/-- The bytes of one XFER: IMM[16:0], or XLEN + 1 for 0; in KX-DDR at most the payload of one frame (Table 04-9). -/
def xferLen (x : Slot) (w : BitVec 96) (kx : Bool) : Nat :=
  let n := if (mImm w).toNat % 2 ^ 17 = 0 then x.op.xlen + 1 else (mImm w).toNat % 2 ^ 17
  if kx then min n 65536 else n

/-- The sequence of a slot's type after a word: none where the type's ROM routine holds no such word (Table 06-1). -/
def seqWord (s : State) (c : Nat) (x : Slot) (w : BitVec 96) : Option (List SeqItem) :=
  let r := mRoute w / 32
  let n := xferLen x w (slotKx s c x)
  let b := (routeByte s c x w).map (·.1)
  match mOp w with
  | 1 | 2 => if r = 0 then none else b.bind (seqCycle s x (mOp w == 2 || mCle w) (mOp w == 2))
  | 3 =>
    if r = 0 then none
    else if r = 4 then seqIn x n
    else if r = 5 ∨ r = 7 then seqOut x n
    else if r = 6 then some x.seq
    else b.bind (seqBytes x n)
  | 5 =>
    match x.seq with
    | .espd t :: r => if mCond w = 2 ∧ (mImm w).toNat = t then some r else none
    | _ => some x.seq
  | 0x12 => if endFits (s.profile x.op.lun) (slotKx s c x) x ((mImm w).toNat % 256) then some x.seq else none
  | _ => some x.seq

/-- CYC (Table 05-5). -/
def runCyc (c k : Nat) (x : Slot) (upc : BitVec 15) (w : BitVec 96) (s : State) : State :=
  if mCle w = mAle w then microFault c k 2 upc s
  else match routeByte s c x w with
  | none => microFault c k 2 upc s
  | some (b, t) =>
    let t := driveCycle c k x w (mCle w) b t
    goNext c k (keepFrames t c k x) upc t

/-- What the GO of an operation does to its LUN's state: an erase is in flight from here (R295); the page register is
taken; offsets that method 1 has written are the LUN's (R211). -/
def wentLun (o : Op) (s : State) : State :=
  let l := s.lun o.lun
  let er := match l.er with
    | some e =>
      if o.optype = 0x12 then some { e with op := o, since := s.now, suspAt := none, closed := false, nested := 0 }
      else if isProg o.optype then some { e with nested := e.nested + 1 }
      else some e
    | none => if isErase o.optype then some { op := o, since := s.now } else none
  let offs := if (s.profile o.lun).ofsMethod = 1 ∧ 1 ≤ o.optype ∧ o.optype ≤ 3 then some o.gauge else l.lastOfs
  s.setLun o.lun { l with er := er, sensed := [], lastOfs := offs }

/-- GO (R171): under BANK it issues nothing, leaves FL_CE_N, and branches. -/
def runGo (c k : Nat) (x : Slot) (upc : BitVec 15) (w : BitVec 96) (s : State) : State :=
  match routeByte s c x w with
  | none => microFault c k 2 upc s
  | some (b, t) =>
    let t := sendItems c k (selMask x w) (driveCycle c k x w true b t)
    let m := BitVec.ofNat 8 (selMask x w)
    let t := t.setChan c { t.chan c with rb := (t.chan c).rb &&& ~~~m }
    goNext c k { keepFrames t c k x with went := true, lrdy := false } upc (wentLun x.op t)

/-- An operation of class 0 or 1 waits on a channel. -/
def urgentOn (s : State) (c : Nat) : Bool :=
  ((s.chan c).slots.any fun e => slotReady s c e.2 && decide (e.2.op.cls ≤ 1))
    || (List.range 32).any fun l =>
      let u := s.lun (c * 32 + l)
      (u.queue.any fun w => decide (w.cls ≤ 1)) || u.op.any fun o => decide (o.cls ≤ 1)

/-- TALLY READ goes to a target after a program's DATA-IN frame: at most once per µs, and not while an operation of class 0 or 1 waits (R156). -/
def tallyMay (s : State) (c : Nat) (x : Slot) : Bool :=
  isProg x.op.optype && !urgentOn s c && (match Tab.find (slotTgt x) (s.chan c).tallyAt with
    | some t => decide (t + 1000 ≤ s.now)
    | none => true)

/-- The tallies that a TALLY READ returns are added to those of the write direction, where the frame's check passed (R154, Table 04-8). The die gives
early minus late alone: how many edges that was is a free value (DESIGN CHOICE, log entry 115). -/
def takeTally (c : Nat) (din : List Byte) (s : State) : State :=
  let n := (s.fresh).1.toNat % 65536
  let s := (s.fresh).2
  if din.length = 12 ∧ din.drop 8 = numBytes 4 (crc32c (din.take 8)).toNat then
    let x := s.chan c
    s.setChan c { x with track := ((din.take 8).map (·.toInt)).zipIdx.foldl (fun t e =>
      let o := Tab.get ((0, 0, 0) : Int × Nat × Int) (8 + e.2) t
      Tab.set (0, 0, 0) (8 + e.2) (Int.bmod (o.1 + e.1) 65536, (o.2.1 + n) % 65536, o.2.2) t) x.track }
  else s

/-- TALLY READ sent, and its answer taken. -/
def tallyRead (c t : Nat) (din : List Byte) (s : State) : State :=
  let s := busPut c (.frameOut (2 ^ t) 8) (busPut c (.ca (2 ^ t) (kxCmd 0x7C 7)) s)
  takeTally c din (s.setChan c { s.chan c with tallyAt := Tab.put t s.now (s.chan c).tallyAt })

/-- XFER from FL_DQ: what becomes of the bytes by ROUTE (Table 05-3). Of several bytes to a G register or to STATUS the last stays (DESIGN CHOICE, log
entry 116). -/
def xferIn (c k route : Nat) (x : Slot) (wait : Slot) (bs : List Byte) (bad : Bool) (s : State) : State :=
  match route / 32 with
  | 5 =>
    let y := storeIn c x ((x.op.bufslot + route % 32) % 32) bs bad s
    setSlot c k y.1 y.2
  | 6 => takeStatus c k wait x ((bs.getLast?).getD 0) s
  | _ =>
    let y := gSet c x (route % 8) (((bs.getLast?).getD 0).setWidth 32) s
    setSlot c k { y.1 with raw := y.1.raw ++ bs } y.2

/-- XFER (Table 05-5). `din` is what the die drives: when the path leads from FL_DQ, and to TALLY READ. In KX-DDR data moves in frames, and one from
the die is awaited (DATA_OUT_FRAME). -/
def runXfer (c k : Nat) (x : Slot) (upc : BitVec 15) (w : BitVec 96) (din : List Byte) (s : State) : State :=
  let kx := slotKx s c x
  let n := xferLen x w kx
  let r := mRoute w
  let m := selMask x w
  let send (bs : List Byte) (s : State) : State := if kx then busPut c (.frameIn m (dataFrame bs)) s else busPut c (.dataIn m bs) s
  match nextUpc upc with
  | none => microFault c k 5 upc s
  | some a =>
    if r / 32 = 4 then
      let bs := dataOf x (r % 32) n
      let s := send bs (s.setChan c { s.chan c with fchk := false })
      let x := { x with upc := a, sent := x.sent + n, inSent := if kx then dataFrame bs else x.inSent }
      setSlot c k x (if kx && tallyMay s c x then tallyRead c (slotTgt x) din s else s)
    else if 5 ≤ r / 32 then
      if (r / 32 = 6 ∧ r % 32 ≠ 0) ∨ (r / 32 = 7 ∧ 8 ≤ r % 32) then microFault c k 2 upc s
      else
        let odt := if (mPins w).getLsbD 6 then odtOf s c else 0
        let s := busPut c (if kx then .frameOut m n else .dataOut m n) (s.setChan c { s.chan c with fchk := false }) odt
        let y := { x with upc := a }
        if kx then setSlot c k { y with st := .frame r false } s
        else xferIn c k r y y (din.take n) false s
    else
      match routeByte s c x w with
      | none => microFault c k 2 upc s
      | some (b, t) => setSlot c k { x with upc := a } (send (List.replicate n b) (t.setChan c { t.chan c with fchk := false }))

/-- WAIT (R169): it holds for WCNT cycles first; then a WAIT on RB or LRDY parks the slot, and any other keeps the pins. -/
def runWaitWord (c k : Nat) (x : Slot) (upc : BitVec 15) (w : BitVec 96) (s : State) : State :=
  let cond := mCond w
  match condHolds s c x cond with
  | none => microFault c k 2 upc s
  | some _ =>
    let since := match x.st with
      | .wcnt t => t
      | _ => s.now
    if s.now < since + cyclesNs (mWcnt w) then setSlot c k { x with st := .wcnt since } s
    else
      let parks := cond % 128 == 1 || cond % 128 == 2
      let tmo := if mImm w = 0 then x.op.tmo else (mImm w).toNat
      let st := SlotSt.waiting cond tmo (mTarget w) (mRoute w % 2 == 1) since parks
      let s := setSlot c k { x with upc := upc, st := st, lrdy := false } s
      if parks then haltAt c (release_ c s) else s

/-- SAFE (R170): a slot whose GO has issued its command sees no abort and no BANK (R171). -/
def runSafe (c k : Nat) (x : Slot) (upc : BitVec 15) (w : BitVec 96) (s : State) : State :=
  let s := s.setChan c { s.chan c with words := 0 }
  if (x.abort || s.banked) && !x.went then haltAt c (goTo c k x (mTarget w) upc s)
  else
    let better := match topSlot ((s.chan c).slots.filter fun e => slotReady s c e.2 && e.1 != k) with
      | some e => slotFirst e (k, x) && (e.2.op.cls != x.op.cls || e.2.op.rtag != x.op.rtag)
      | none => false
    let maint := maintWork s c && decide (2 ≤ x.op.cls)
    if rawWaits s c || better || maint then
      haltAt c (release_ c (goNext c k { x with st := .parkedSafe } upc s))
    else haltAt c (goNext c k x upc s)

/-- BR, CALL and RET (Table 05-5, R173). -/
def runBr (c k : Nat) (x : Slot) (upc : BitVec 15) (w : BitVec 96) (s : State) : State :=
  match condHolds s c x (mCond w) with
  | none => microFault c k 2 upc s
  | some true => goTo c k x (mTarget w) upc s
  | some false => goNext c k x upc s

def runCall (c k : Nat) (x : Slot) (upc : BitVec 15) (w : BitVec 96) (s : State) : State :=
  match condHolds s c x (mCond w) with
  | none => microFault c k 2 upc s
  | some true =>
    match nextUpc upc with
    | none => microFault c k 5 upc s
    | some a => if 8 ≤ x.stack.length then microFault c k 3 upc s else goTo c k { x with stack := a :: x.stack } (mTarget w) upc s
  | some false => goNext c k x upc s

def runRet (c k : Nat) (x : Slot) (upc : BitVec 15) (w : BitVec 96) (s : State) : State :=
  match condHolds s c x (mCond w) with
  | none => microFault c k 2 upc s
  | some true =>
    match x.stack with
    | [] => microFault c k 4 upc s
    | a :: r => setSlot c k { x with stack := r, upc := a } s
  | some false => goNext c k x upc s

/-- The register operations: destination ROUTE[6:4], source ROUTE[2:0] (R165). -/
def runReg (f : Word → Word → Word) (c k : Nat) (x : Slot) (upc : BitVec 15) (w : BitVec 96) (s : State) : State :=
  let y := gSet c x (mRoute w / 16 % 8) (f (gGet s c x (mRoute w % 8)) (mImm w)) s
  goNext c k y.1 upc y.2

/-- CMPI: EQ and LT of the source against IMM, unsigned. -/
def runCmpi (c k : Nat) (x : Slot) (upc : BitVec 15) (w : BitVec 96) (s : State) : State :=
  let a := gGet s c x (mRoute w % 8)
  goNext c k x upc (s.setChan c { s.chan c with eq := a == mImm w, lt := a.ult (mImm w) })

/-- PINSET: the static levels of PINS. -/
def runPinset (c k : Nat) (x : Slot) (upc : BitVec 15) (w : BitVec 96) (s : State) : State :=
  goNext c k x upc (busPut c (.pins (mPins w)) s)

/-- The offsets of a delay register: four bits per DQ bit, signed, DQ0 lowest (Table 04-14). -/
def nibbles (w : Word) : List Int := (List.range 8).map fun i => ((w >>> (4 * i)).setWidth 4).toInt

/-- Offsets set in one direction: the tracking state and the delay register (R154, Table 04-14). -/
def setOffsets (c dir : Nat) (w : Word) (s : State) : State :=
  let x := s.chan c
  let tr := (nibbles w).zipIdx.foldl (fun t e =>
    let old := Tab.get ((0, 0, 0) : Int × Nat × Int) (dir * 8 + e.2) t
    Tab.set (0, 0, 0) (dir * 8 + e.2) (old.1, old.2.1, e.1) t) x.track
  let s := s.setChan c { x with track := tr }
  if dir = 0 then s.setReg .stkDskRd c w else s.setReg .stkDskWr c w

/-- What the PHY's own actions give (R136, R138): engine ZQ codes, a duty trim and whether the duty lies within its limits. -/
def phyZq (c : Nat) (m : Train) (s : State) : State :=
  let k := s.img.cal
  let ok := decide (k.puMin ≤ m.pu ∧ m.pu ≤ k.puMax ∧ k.pdMin ≤ m.pd ∧ m.pd ≤ k.pdMax)
  let x : CalCh := Tab.get {} c s.cal.chs
  let y : CalCh := if ok then { x with pu := m.pu, pd := m.pd, puGoal := m.pu, pdGoal := m.pd } else { x with pu := 0x20, pd := 0x20, puGoal := 0x20, pdGoal := 0x20 }
  (({ s with cal := { s.cal with chs := Tab.set {} c y s.cal.chs } } : State)).putFlag Fld.stkChmodeZqDflt (!ok) c
def phyDuty (c : Nat) (m : Train) (s : State) : State :=
  if !m.dutyOk then s
  else
    let x : CalCh := Tab.get {} c s.cal.chs
    { s with cal := { s.cal with chs := Tab.set {} c { x with dcc := m.dcc, dccGoal := m.dcc } s.cal.chs } }

/-- The PHY actions (Table 05-5). `m`: what the PHY measures (DEDUCED, log entry 17). Every FL_CE_N is high while engine ZQ or a rate change runs
(R122, R136). -/
def runPhy (c k : Nat) (x : Slot) (upc : BitVec 15) (w : BitVec 96) (m : Train) (s : State) : State :=
  match (mImm w).toNat % 256 with
  | 0 => goNext c k x upc (phyZq c m (raiseCe c s))
  | 1 => goNext c k x upc (phyDuty c m s)
  | 2 => goNext c k x upc (setOffsets c 0 (gGet s c x 4) s)
  | 3 => goNext c k x upc (setOffsets c 1 (gGet s c x 6) s)
  | 4 =>
    let a := (applied s c (slotTgt x)).rate
    goNext c k x upc (if a = s.get Fld.stkChmodeCurRate c then s else startRate c a s)
  | _ => microFault c k 1 upc s

/-- REPORT: the event code and STATUS are posted. -/
def runReport (c k : Nat) (x : Slot) (upc : BitVec 15) (w : BitVec 96) (s : State) : State :=
  let e := (k, (mImm w).toNat % 256, x.status)
  goNext c k x upc (s.setChan c { s.chan c with reports := (s.chan c).reports ++ [e] })

/-- TDLY: the stoker holds for a delay of the set in use (R124, Table 05-5). -/
def runTdly (c k : Nat) (x : Slot) (upc : BitVec 15) (w : BitVec 96) (s : State) : State :=
  let d := ((s.chan c).latch.map fun l => delayNs (setDelay l.2 ((mImm w).toNat % 8))).getD 0
  goNext c k x upc (s.setChan c { s.chan c with holdTill := max (s.chan c).holdTill (s.now + d) })

/-- END: the operation ends with its code, the slot is freed and the pins released (R181). -/
def runEnd (c k : Nat) (x : Slot) (w : BitVec 96) (s : State) : State :=
  haltAt c (release_ c (endSlot c k ((mImm w).toNat % 256) x s))

/-- A reserved value of PINS or ROUTE (R164, R165): SEL above 0b010, PINS[5:0]; ROUTE[7:1] of WAIT, and ROUTE of an operation that has none. -/
def wordReserved (w : BitVec 96) : Bool :=
  let o := mOp w
  decide (3 ≤ mSel w) || (mPins w).toNat % 64 != 0
    || (if o = 5 then decide (2 ≤ mRoute w) else !((decide (1 ≤ o ∧ o ≤ 3)) || decide (0x0A ≤ o ∧ o ≤ 0x0E)) && mRoute w != 0)

/-- What SEL does to the chip enables before a word has its effect (R125, R164, R168). -/
def runSel (c : Nat) (x : Slot) (w : BitVec 96) (s : State) : State :=
  if mSel w = 0 then (if (s.chan c).latch.isSome then raiseCe c s else s) else selectMask c (slotTgt x) (selMask x w) s

/-- The mask that a frame's items went to: the chip enables that are low. -/
def selOr (x : Slot) (s : State) (c : Nat) : Nat := if (s.chan c).pins.ceN = 0xFF then 2 ^ slotTgt x else (~~~(s.chan c).pins.ceN).toNat

/-- One word of a slot executed, whatever its operation: gathered items are sent first where the word closes the frame, SEL has its
effect, and the words since the last switch point are counted. `din` is what the die drives, `m` what the PHY measures. -/
def runWord (c k : Nat) (x : Slot) (w : BitVec 96) (din : List Byte) (m : Train) (s : State) : State :=
  let f := fetchWord s c x.upc w
  let upc := f.1
  let w := f.2
  if 0x13 ≤ mOp w then microFault c k 1 upc s
  else if wordReserved w then microFault c k 2 upc s
  else if mOp w = 2 ∧ s.banked then goTo c k { x with last := upc } (mTarget w) upc s
  else
    let q := (seqWord s c x w).getD x.seq
    let s := if closesFrame w then sendItems c k (selOr x s c) s else s
    let held := x.st != .ready
    let x := keepFrames s c k { x with last := upc, seq := q }
    let s := runSel c x w s
    let y := s.chan c
    let s := s.setChan c { y with
      words := y.words + (if held then 0 else 1)
      holdTill := if mOp w = 5 then y.holdTill else max y.holdTill (s.now + (if mWcnt w = 0 then 0 else cyclesNs (mWcnt w))) }
    match mOp w with
    | 0x00 => goNext c k x upc s
    | 0x01 => runCyc c k x upc w s
    | 0x02 => runGo c k x upc w s
    | 0x03 => runXfer c k x upc w din s
    | 0x04 => runTdly c k x upc w s
    | 0x05 => runWaitWord c k x upc w s
    | 0x06 => runSafe c k x upc w s
    | 0x07 => runBr c k x upc w s
    | 0x08 => runCall c k x upc w s
    | 0x09 => runRet c k x upc w s
    | 0x0A => runReg (fun _ i => i) c k x upc w s
    | 0x0B => runReg (· + ·) c k x upc w s
    | 0x0C => runReg (· &&& ·) c k x upc w s
    | 0x0D => runReg (· ||| ·) c k x upc w s
    | 0x0E => runCmpi c k x upc w s
    | 0x0F => runPinset c k x upc w s
    | 0x10 => runPhy c k x upc w m s
    | 0x11 => runReport c k x upc w s
    | _ => runEnd c k x w s

/-- A word whose cycles need another rate than the channel's waits for the change (R128). -/
def wordRate (s : State) (c : Nat) (x : Slot) (w : BitVec 96) : Bool := decide (1 ≤ mSel w ∧ mSel w ≤ 2) && !(mOp w == 2 && s.banked) && needsRate s c (slotTgt x)

/-- The slot that holds the pins can execute a word: it is not waiting, neither a wait count, a delay nor a change of rate runs, and the word is one
that patch RAM holds, or the ROM routine of the slot's type (log entry 18). -/
def wordMay (s : State) (c : Nat) (x : Slot) (w : BitVec 96) : Bool :=
  let f := fetchWord s c x.upc w
  (x.st == .ready || ((match x.st with | .wcnt _ => true | _ => false) && mOp f.2 == 5))
    && decide ((s.chan c).holdTill ≤ s.now) && !rateLocked s c && (f.1.getLsbD 14 || (seqWord s c x f.2).isSome)

/-- A word executed, or the change of rate that comes before it. -/
def wordOrRate (c k : Nat) (x : Slot) (w : BitVec 96) (din : List Byte) (m : Train) (s : State) : State :=
  if wordRate s c x (fetchWord s c x.upc w).2 then startRate c (applied s c (slotTgt x)).rate s else runWord c k x w din m s

/-- The frame of every microword's command: the slot that holds the pins is not halted, faulted or waiting, and the word
fetched is of the row's kind (DESIGN CHOICE, log entry 18). -/
def uRow (c : Nat) (w : BitVec 96) (mine : BitVec 96 → Bool) (din : List Byte) (m : Train) (s : State) : Out :=
  match (s.chan c).act with
  | none => .next s
  | some k =>
    match Tab.find k (s.chan c).slots with
    | none => .next s
    | some x =>
      onlyIf (s.coreOn && !s.flag Fld.stkStsFault c && !s.flag Fld.stkDbgCtlHalted c && wordMay s c x w && mine (fetchWord s c x.upc w).2) s
        (wordOrRate c k x w din m s)

/-- A word with one operation code. -/
def opIs (o : Nat) (w : BitVec 96) : Bool := mOp w == o

/-- A PHY word with one action. -/
def phyIs (a : Nat) (w : BitVec 96) : Bool := mOp w == 0x10 && (mImm w).toNat % 256 == a

def execStkNop (c : Nat) (w : BitVec 96) (s : State) : Out := uRow c w (opIs 0x00) [] {} s

/-- STK_CYC; a word with a reserved operation code or PHY action faults here (R167, DEDUCED, log entry 15). -/
def execStkCyc (c : Nat) (w : BitVec 96) (s : State) : Out :=
  uRow c w (fun w => opIs 0x01 w || decide (0x13 ≤ mOp w) || (mOp w == 0x10 && decide (5 ≤ (mImm w).toNat % 256)))
    [] {} s

def execStkGo (c : Nat) (w : BitVec 96) (s : State) : Out := uRow c w (opIs 0x02) [] {} s
def execStkXfer (c : Nat) (w : BitVec 96) (din : List Byte) (s : State) : Out := uRow c w (opIs 0x03) din {} s
def execStkTdly (c : Nat) (w : BitVec 96) (s : State) : Out := uRow c w (opIs 0x04) [] {} s
def execStkWait (c : Nat) (w : BitVec 96) (s : State) : Out := uRow c w (opIs 0x05) [] {} s
def execStkSafe (c : Nat) (w : BitVec 96) (s : State) : Out := uRow c w (opIs 0x06) [] {} s
def execStkBr (c : Nat) (w : BitVec 96) (s : State) : Out := uRow c w (opIs 0x07) [] {} s
def execStkCall (c : Nat) (w : BitVec 96) (s : State) : Out := uRow c w (opIs 0x08) [] {} s
def execStkRet (c : Nat) (w : BitVec 96) (s : State) : Out := uRow c w (opIs 0x09) [] {} s
def execStkLdi (c : Nat) (w : BitVec 96) (s : State) : Out := uRow c w (opIs 0x0A) [] {} s
def execStkAddi (c : Nat) (w : BitVec 96) (s : State) : Out := uRow c w (opIs 0x0B) [] {} s
def execStkAndi (c : Nat) (w : BitVec 96) (s : State) : Out := uRow c w (opIs 0x0C) [] {} s
def execStkOri (c : Nat) (w : BitVec 96) (s : State) : Out := uRow c w (opIs 0x0D) [] {} s
def execStkCmpi (c : Nat) (w : BitVec 96) (s : State) : Out := uRow c w (opIs 0x0E) [] {} s
def execStkPinset (c : Nat) (w : BitVec 96) (s : State) : Out := uRow c w (opIs 0x0F) [] {} s

/-- PHY_ENGINE_ZQ (R136) and PHY_DUTY_TRIM (R138), with what the PHY measures. -/
def execPhyEngineZq (c : Nat) (w : BitVec 96) (m : Train) (s : State) : Out := uRow c w (phyIs 0) [] m s
def execPhyDutyTrim (c : Nat) (w : BitVec 96) (m : Train) (s : State) : Out := uRow c w (phyIs 1) [] m s
def execPhyLoadReadDelays (c : Nat) (w : BitVec 96) (s : State) : Out := uRow c w (phyIs 2) [] {} s
def execPhyLoadWriteDelays (c : Nat) (w : BitVec 96) (s : State) : Out := uRow c w (phyIs 3) [] {} s
def execPhyRateChange (c : Nat) (w : BitVec 96) (s : State) : Out := uRow c w (phyIs 4) [] {} s
def execStkReport (c : Nat) (w : BitVec 96) (s : State) : Out := uRow c w (opIs 0x11) [] {} s
def execStkEnd (c : Nat) (w : BitVec 96) (s : State) : Out := uRow c w (opIs 0x12) [] {} s

/-- STOKER_WATCHDOG (R189): more words than LIMIT since the last switch point; a LIMIT below 64 acts as 64. The faulting word is the last one. -/
def execStokerWatchdog (c : Nat) (s : State) : Out :=
  match (s.chan c).act with
  | none => .next s
  | some k =>
    onlyIf (s.coreOn && !s.flag Fld.stkStsFault c && decide (max 64 (s.get Fld.stkWdogLimit c) < (s.chan c).words)) s
      (microFault c k 6 (((Tab.find k (s.chan c).slots).map (·.last)).getD 0) s)

/-! ## Frames, polls and waits -/

/-- The column-change frame with which a DATA-OUT payload is read once more (R149; DEDUCED from Table 04-10, log entry 117): of the codeword
awaited, or of the operation's column and row; STATUS is read by its own command. -/
def rereadFrame (s : State) (x : Slot) (route n : Nat) : List Byte :=
  if route / 32 = 6 then kxCmd 0x70 0
  else
    let a := match x.op.wants[x.got]? with
      | some w => (w.cw * 4608, wantRow s w)
      | none => (x.op.col, x.op.row)
    let adr : List (Byte × Bool) := ((List.range 2).map fun i => (byteOf a.1 i, false)) ++ (List.range 3).map fun i => (byteOf a.2 i, false)
    caFrame ([(0x06, true)] ++ adr ++ [(0xE0, true)]) (n - 1)

/-- DATA_OUT_FRAME (R149): the first copy that fails is read once more with a column change; a second goes where the first would have and is
counted. -/
def execDataOutFrame (c : Nat) (bs : List Byte) (crc : Word) (s : State) : Out :=
  match (s.chan c).act with
  | none => .next s
  | some k =>
    match Tab.find k (s.chan c).slots with
    | none => .next s
    | some x =>
      match x.st with
      | .frame r again =>
        let good := crc32c bs == crc
        let m := 2 ^ slotTgt x
        onlyIf s.coreOn s
          (if good || again then
            let s := if good then s else s.inc Fld.stkKxCntDoutCrc c
            xferIn c k r { x with st := .ready } { x with st := .frame r false } bs (!good) (s.setChan c { s.chan c with fchk := !good })
          else
            setSlot c k { x with st := .frame r true } (busPut c (.frameOut m bs.length) (busPut c (.ca m (rereadFrame s x r bs.length)) s)))
      | _ => .next s

/-- A waiting slot proceeds: at the next address, or at TARGET; TMO says that its timeout ended the WAIT (R166, R169). -/
def waitEnds (c k : Nat) (x : Slot) (branch tmo : Bool) (s : State) : State :=
  match x.st with
  | .waiting _ _ tgt _ _ _ =>
    let s := s.setChan c { s.chan c with tmoF := tmo }
    let x := { x with st := .ready }
    if branch then goTo c k x tgt x.upc s else goNext c k x x.upc s
  | _ => s

/-- A slot's part in a command about it. -/
def slotRow (c k : Nat) (f : Slot → State → Out) (s : State) : Out :=
  match Tab.find k (s.chan c).slots with
  | none => .next s
  | some x => if s.coreOn && !s.flag Fld.stkStsFault c then f x s else .next s

/-- SLOT_RUNNABLE (R169, R174): the WAIT's condition holds, or SUSP applies. -/
def execSlotRunnable (c k : Nat) (s : State) : Out :=
  slotRow c k (fun x s =>
    match x.st with
    | .waiting cond _ _ susp _ _ =>
      if condHolds s c x cond == some true then .next (waitEnds c k x false false s)
      else onlyIf (susp && x.susp) s (waitEnds c k x true false s)
    | _ => .next s) s

/-- WAIT_TIMEOUT (R169). -/
def execWaitTimeout (c k : Nat) (s : State) : Out :=
  slotRow c k (fun x s =>
    match x.st with
    | .waiting cond tmo _ _ since _ =>
      onlyIf (condHolds s c x cond != some true && decide (since + tmo ≤ s.now)) s (waitEnds c k x true true s)
    | _ => .next s) s

/-- A poll of a slot's LUN may take the pins: it ranks with the class of the slot that it serves (R174, R176). -/
def pollRanks (s : State) (c k : Nat) (x : Slot) : Bool :=
  (s.chan c).act.isNone && !rawWaits s c && !s.flag Fld.stkDbgCtlHalted c && !(s.chan c).fallen.contains (slotTgt x)
    && (decide (x.op.cls ≤ 1) || !maintWork s c)
    && !((s.chan c).slots.any fun e => e.1 != k && slotReady s c e.2 && slotFirst e (k, x) && (e.2.op.cls != x.op.cls || e.2.op.rtag != x.op.rtag))

/-- A poll of a slot's LUN is due: with one LUN when FL_RB_N is high and it has not been polled since its WAIT began, else each INTERVAL (R176, R202). -/
def pollDue (s : State) (c k : Nat) (x : Slot) (since : Nat) : Bool :=
  let last := Tab.find k (s.chan c).pollAt
  if (s.profile x.op.lun).luns ≤ 1 then (s.chan c).rb.getLsbD (slotTgt x) && (last.all fun t => decide (t < since) || x.kxErrs != 0)
  else last.all fun t => decide (max since (t + max 200 (s.get Fld.stkPollInterval c)) ≤ s.now)

/-- The poll of a slot's LUN: STATUS holds the byte; LRDY holds when bit 6 is 1. -/
def pollLun (c k : Nat) (x : Slot) (b : Byte) (s : State) : State :=
  let t := slotTgt x
  let s := if (s.chan c).rawCe then raiseCe c s else s
  let s := statusRead c t x.op.row (slotKx s c x) (s.profile x.op.lun).luns (selectTarget c t s)
  let s := raiseCe c (s.setChan c { s.chan c with pollAt := Tab.put k s.now (s.chan c).pollAt })
  takeStatus c k x { x with lrdy := b.getLsbD 6 } b s

/-- LUN_POLL (R176): a status read for a slot parked on LRDY. -/
def execLunPoll (c k : Nat) (b : Byte) (s : State) : Out :=
  slotRow c k (fun x s =>
    match x.st with
    | .waiting cond _ _ _ since true =>
      onlyIf (cond % 128 == 2 && pollRanks s c k x && pollDue s c k x since) s (atRate c (slotTgt x) (pollLun c k x b) s)
    | _ => .next s) s

end Sys2Proof.Machine
end

