-- ==== Sys2Proof/Machine/CalOps.lean ====
section
/-! DEFINITION. Training results and the queue of calibration runs (chapters 4 and 15): what every place that trains a target or asks
for a run uses. -/

namespace Sys2Proof.Machine

/-! ## Training (R139, R140, R561, R562) -/

/-- The data eye minimum in hundredths of a UI (Tables 04-6 and 04-9). -/
def eyeMin (mode rate : Nat) : Int := if mode = 8 ∨ 1600 < rate then 40 else 35

/-- The widest run of passing steps of a bit's sweep, first and last step, the first of two equal ones (DESIGN CHOICE, log entry 20); an empty run
where no step passes (R139). -/
def widestRun (b : BitVec 129) : Int × Int :=
  let r := (List.range 129).foldl (fun (a : Option Nat × (Int × Int)) i =>
    if b.getLsbD i then
      let lo := a.1.getD i
      (some lo, if a.2.2 - a.2.1 < (i : Int) - lo then ((lo : Int), (i : Int)) else a.2)
    else (none, a.2)) (none, (0, -1))
  (r.2.1 - 64, r.2.2 - 64)

/-- A passing run is at least as wide as the eye minimum (R139). -/
def runWide (mode rate : Nat) (r : Int × Int) : Bool := decide (eyeMin mode rate * 64 ≤ 100 * (r.2 - r.1))

/-- The centre of a passing run, toward the lower step where two are in the middle (R139; DESIGN CHOICE, log entry 20). -/
def runCentre (r : Int × Int) : Int := (r.1 + r.2) / 2

/-- A stored centre keeps the margin of R562 to both ends of its run. -/
def inRun (mode rate : Nat) (r : Int × Int) (x : Int) : Bool :=
  let m := (eyeMin mode rate * 32 + 99) / 100
  decide (r.1 + m ≤ x ∧ x ≤ r.2 - m)

/-- The stored centres of eight bits, from their sweeps, with a guard band; none when a bit fails its training or R562. -/
def newCentres (mode rate : Nat) (gb : Int) (bits : List (BitVec 129)) : Option (List Int) :=
  let runs := bits.map widestRun
  if runs.length = 8 ∧ runs.all (fun r => runWide mode rate r && inRun mode rate r (runCentre r + gb)) then
    some (runs.map fun r => runCentre r + gb)
  else none

/-- What calibration holds of a target. -/
def State.calT (s : State) (ti : Nat) : CalTgt := Tab.get {} ti s.cal.tgts

/-- The state with a target's calibration part set. -/
def State.setCalT (s : State) (ti : Nat) (x : CalTgt) : State :=
  { s with cal := { s.cal with tgts := Tab.set {} ti x s.cal.tgts } }

/-- Centres of one direction put into a table of them. -/
def putCentres (dir : Nat) (l : List Int) (t : Tab Int) : Tab Int :=
  l.zipIdx.foldl (fun t x => Tab.set 0 (dir * 8 + x.2) x.1 t) t

/-- The guard band of a mode (R561). -/
def gbOf (l : List Int) (mode : Nat) : Int := (l[mode]?).getD 0

/-- Centres stored for a target at once, with their guard bands: at start-up and at a KX-DDR entry. -/
def storeTrain (ti : Nat) (rd wr : List Int) (gbRd gbWr : Int) (s : State) : State :=
  let x := s.calT ti
  s.setCalT ti { x with centre := putCentres 1 wr (putCentres 0 rd x.centre), goal := [], gbRd := gbRd, gbWr := gbWr }

/-- Read and write DQ training run at a mode and rate: those of 400 MT/s or more (R140). -/
def trainsDq (mode rate : Nat) : Bool := decide (mode ≠ 0 ∧ 400 ≤ rate)

/-- A mode that has die ZQ calibration long (R137), and one that defines die duty-cycle correction (R138; PRESUMED, log entry 118). -/
def dieZqMode (mode rate : Nat) : Bool := mode == 3 || mode == 4 || mode == 8 || (mode == 5 && decide (800 < rate))
def dieDccMode (mode : Nat) : Bool := mode == 3 || mode == 4 || mode == 5

/-! ## The commands of training (R98, R137 to R140, R146) -/

/-- A target's chip enable mask. -/
def tMask (t : Nat) : Nat := 2 ^ t

/-- SET FEATURES of four parameters to a target in a standard mode. -/
def featCycles (c t fa : Nat) (ps : List Nat) (s : State) : State :=
  let s := busPut c (.addr (tMask t) (BitVec.ofNat 8 fa)) (busPut c (.cmd (tMask t) 0xEF) s)
  busPut c (.dataIn (tMask t) (ps.map (BitVec.ofNat 8))) s

/-- A command with one address cycle, and bytes read after it. -/
def readCycles (c t : Nat) (cmd adr : Byte) (n : Nat) (s : State) : State :=
  busPut c (.dataOut (tMask t) n) (busPut c (.addr (tMask t) adr) (busPut c (.cmd (tMask t) cmd) s))

/-- A KX-DDR command without items. -/
def kxPut (c t : Nat) (b : Byte) (xlen : Nat) (s : State) : State := busPut c (.ca (tMask t) (kxCmd b xlen)) s

/-- Die ZQ calibration long. -/
def dieZq (c t mode : Nat) (s : State) : State := if mode = 8 then kxPut c t 0xF9 0 s else busPut c (.cmd (tMask t) 0xF9) s

/-- Die duty-cycle correction: on at the profile's feature address, its RE toggles, off again (PRESUMED, log entry 118). -/
def dieDcc (c t : Nat) (s : State) : State :=
  let p := s.profileAt (c * 8 + t)
  featCycles c t p.dccFa [0, 0, 0, 0] (busPut c (.reToggles (tMask t) p.dccRe) (featCycles c t p.dccFa [1, 0, 0, 0] s))

/-- The commands of one sweep of 129 steps: of read training, and of write training and its readback; in KX-DDR each step moves 1,024 B
(Tables 04-8 and 04-11). -/
def sweepCmds (p : Profile) (mode dir : Nat) : List Byte :=
  let tgl (i : Nat) : Byte := BitVec.ofNat 8 ((p.tglTrn[i]?).getD 0)
  if mode = 8 then (if dir = 0 then [0xE2] else [0xE3, 0xE4])
  else if mode = 5 then (if dir = 0 then [tgl 0] else [tgl 1, tgl 2])
  else if dir = 0 then [0x62] else [0x63, 0x64]
def sweepPut (c t mode dir : Nat) (s : State) : State :=
  busPut c (.sweep (tMask t) (sweepCmds (s.profileAt (c * 8 + t)) mode dir) 129 (if mode = 8 then 1024 else 0)) s

/-! ## The queue of runs (R557, R559) -/

/-- A run of a target queued for a sweep; a target queued and not yet started adds nothing. -/
def queueRun (sweep ti : Nat) (s : State) : State :=
  let c := ti / 8
  let q := Tab.get [] c s.cal.queue
  if q.any (fun x => x.1 == ti % 8) || !s.flag Fld.stkTgtcfgOnline ti then s
  else
    let sw := Tab.get {} sweep s.cal.sweeps
    { s with cal := { s.cal with
        queue := Tab.set [] c (q ++ [(ti % 8, sweep)]) s.cal.queue
        sweeps := Tab.put sweep { sw with left := sw.left ++ [ti] } s.cal.sweeps } }

/-- One sweep over some targets. -/
def queueSweep (l : List Nat) (s : State) : State :=
  let n := s.cal.next
  l.foldl (fun s ti => queueRun n ti s) { s with cal := { s.cal with next := n + 1 } }

/-- The online targets of a channel. -/
def onlineTargets (s : State) (c : Nat) : List Nat :=
  ((List.range 8).map (c * 8 + ·)).filter fun ti => s.flag Fld.stkTgtcfgOnline ti

end Sys2Proof.Machine
end

