-- ==== Sys2Proof/Machine/Sched.lean ====
section
/-! DEFINITION. The LUN scheduler (chapters 1, 5, 6 and 8): LUN queues and their order, the limits of a set, forming an
operation of each type, passing it to its stoker, erase suspension, stall and reissue. -/

namespace Sys2Proof.Machine

/-! ## Queues -/

/-- A LUN's part changed. -/
def modLun (k : Nat) (f : LunSt → LunSt) (s : State) : State := s.setLun k (f (s.lun k))

/-- A want put into its LUN's queue. -/
def enqueue (w : Want) (s : State) : State :=
  modLun w.page.lun (fun l => { l with queue := l.queue ++ [{ w with since := s.now }] }) s

/-- Several wants queued in order. -/
def enqueueAll (ws : List Want) (s : State) : State := ws.foldl (fun s w => enqueue w s) s

/-- The tag `a` is older than `b` (R435). -/
def tagOlder (a b : Nat) : Bool := decide (a ≠ b ∧ (b + 2 ^ 32 - a) % 2 ^ 32 < 2 ^ 31)

/-- Of two wants the first goes first: lower class; the head of its class; a read before a program or erase; the older tag
(Table 01-7, R267). -/
def wantFirst (a b : Want) : Bool :=
  if a.cls ≠ b.cls then decide (a.cls < b.cls)
  else if a.front ≠ b.front then a.front
  else if (a.kind == 0) ≠ (b.kind == 0) then a.kind == 0
  else tagOlder a.rtag b.rtag

/-- The first of some wants. -/
def topWant : List Want → Option Want
  | [] => none
  | a :: r =>
    match topWant r with
    | none => some a
    | some b => if wantFirst b a then some b else some a

/-! ## Set limits -/

/-- The set a LUN belongs to. -/
def setOf (s : State) (k : Nat) : Option Nat := (s.md.sets.find? fun e => e.2.slots.contains k).map (·.1)

/-- A program of a LUN is formed or in flight; an erase is formed, in flight or suspended. -/
def progBusy_ (s : State) (k : Nat) : Bool :=
  progOn s k || ((s.lun k).op.map fun o => isProg o.optype).getD false
def eraseBusy (s : State) (k : Nat) : Bool :=
  eraseOn s k || ((s.lun k).op.map fun o => isErase o.optype).getD false

/-- The single-busy limit applies to a set: a lost slot, a stalled LUN, or a LUN under the raw window (R295). -/
def singleBusy (s : State) (x : SetSt) : Bool :=
  decide (x.lost ≠ 0) || x.slots.any fun k => (s.lun k).stall.isSome || rawHeld s k || s.md.offQ.contains k

/-- The hold-up flush is running: R295 does not apply (R359). -/
def flushing (s : State) : Bool := s.flag Fld.mapFlushStsActive

/-- A program or erase of a LUN may start under the limits of its set (R295, R296): a program holds the set's token. A program
nested in the LUN's own suspended erase may start under the third limit. -/
def setAllows (s : State) (k kind : Nat) : Bool :=
  match setOf s k with
  | none => true
  | some n =>
    let x := Tab.get {} n s.md.sets
    let others := x.slots.filter (· != k)
    if flushing s then true
    else if kind = 2 then
      !(x.slots.any fun j => eraseBusy s j) && !(singleBusy s x && others.any fun j => progBusy_ s j)
    else
      x.token == some k && !(x.slots.any fun j => progBusy_ s j)
        && !(singleBusy s x && others.any fun j => eraseBusy s j)

/-! ## Ageing (R25, R531, R688) -/

/-- L of a group (R526). -/
def opLimit (s : State) (g : Nat) : Nat := s.get Fld.drgGrpStsAdmit g * min 256 (s.get Fld.drgAdmCfgOpsMax) / 65536

/-- A formed operation that has no grant yet stays queued (R527). -/
def waitingOp (l : LunSt) : Option Op :=
  match l.op with
  | some o => if l.granted ∨ o.optype = 0x12 then none else some o
  | none => none

/-- The class-3 operation at the head of its class: formed and not granted, or queued. -/
def class3Head (l : LunSt) : Option Want :=
  match waitingOp l with
  | some o => if o.cls = 3 then o.wants.head? else topWant (l.queue.filter fun w => w.cls == 3)
  | none => topWant (l.queue.filter fun w => w.cls == 3)

/-- The head of class 3 where it is aged. -/
def agedHead (l : LunSt) : Option Want :=
  match class3Head l with
  | some w => if l.aged ∧ l.head3 = some w then some w else none
  | none => none

/-- Time that counts for the head of class 3 (R25): not while R531 holds, nor while it waits for the limits of R295, nor while the LUN's erase is
suspended. It counts from RUN on (R109). -/
def ageCounts (s : State) (k : Nat) (w : Want) : Bool :=
  let l := s.lun k
  s.stage == 9 && !s.flag Fld.drgStsStop && opLimit s (lunCh k / 8) != 0
    && !((l.er.map fun e => e.suspAt.isSome).getD false)
    && ((waitingOp l).isSome || w.kind == 0 || w.kind == 4 || setAllows s k w.kind)

/-- One nanosecond at the head of class 3. -/
def ageLun (s : State) (k : Nat) (l : LunSt) : LunSt :=
  match class3Head l with
  | none => { l with
      head3 := none
      age := 0
      aged := false }
  | some w =>
    let n := if ageCounts s k w then 1 else 0
    if l.head3 = some w then { l with age := l.age + n }
    else { l with
      head3 := some w
      age := n
      aged := false }

/-- One nanosecond passes in the LUN queues. -/
def ageTick (s : State) : State :=
  { s with md := { s.md with luns := s.md.luns.map fun e => (e.1, ageLun s e.1 e.2) } }

/-! ## What may start -/

/-- A want serves the hold-up flush (R358). -/
def flushWant (s : State) (w : Want) : Bool :=
  match w.why with
  | .flush _ _ => true
  | .jpage 0 | .jseal 0 => s.wp.flushEnd
  | _ => false

/-- Of a program step and an erase of one set the first to start: the lower class, an aged one counting as class 0, then the older tag (R296). -/
def rankOf (s : State) (k : Nat) (w : Want) : Nat := if agedHead (s.lun k) = some w then 0 else w.cls
def startsFirst (s : State) (j : Nat) (v : Want) (k : Nat) (w : Want) : Bool :=
  decide (rankOf s j v < rankOf s k w) || (rankOf s j v == rankOf s k w && tagOlder v.rtag w.rtag)

/-- Another LUN of the set stands ready with a program step, or an erase, that goes before an erase, or a program step, where the limits let only one
of them start (R296). -/
def rivalFirst (s : State) (k : Nat) (w : Want) : Bool :=
  match setOf s k with
  | none => false
  | some n =>
    let x := Tab.get {} n s.md.sets
    singleBusy s x && !flushing s && (x.slots.filter (· != k)).any fun j =>
      let l := s.lun j
      s.online j && l.op.isNone && (s.inSlot j).isNone && l.stall.isNone && l.wprot.isNone && l.er.isNone && !rawHeld s j && l.queue.any fun v =>
        (if w.kind = 2 then v.kind == 1 || v.kind == 3 else v.kind == 2) && setAllows s j v.kind && startsFirst s j v k w

/-- No operation is formed for the LUN, or one without a grant that the want goes before: that one stays queued (R527). -/
def opYields (l : LunSt) (w : Want) : Bool :=
  l.op.isNone || (match waitingOp l with
    | some o => !o.again && (o.wants.all (wantFirst w) || (agedHead l == some w && !o.wants.contains w))
    | none => false)

/-- A want may become its LUN's next operation (R177, R191, R219, R222, R228, R295, R358, R659,
R662). -/
def mayStart (s : State) (k : Nat) (w : Want) : Bool :=
  let l := s.lun k
  s.online k && opYields l w && (s.inSlot k).isNone && l.stall.isNone && l.wprot.isNone && !rawHeld s k && !s.banked
    && (!flushing s || flushWant s w) && (w.kind == 0 || (w.kind == 4 && w.optype != 0x19) || !s.flag Fld.mapFlushStsDone) && (w.kind == 0 || w.kind == 4 || (setAllows s k w.kind && !rivalFirst s k w))
    && (match l.er with
        | none => true
        | some e =>
          match e.suspAt with
          | none => false
          | some t =>
            !e.closed && decide (s.now ≤ t + 1000000)
              && (if w.kind = 0 then decide (w.cls ≤ 1)
                  else w.kind == 1 && (s.profile k).nestProg && decide (e.nested < (s.profile k).nestMax)
                    && !(l.queue.any fun v => v.kind == 0 && decide (v.cls ≤ 1))
                    && !(e.op.wants.any fun v => v.page.block == w.page.block)))

/-- The want that the LUN takes next: an aged head of class 3 and none but it, for which only an erase under suspension, with what starts in it, and the
hold-up flush go ahead; else the first that may start (Table 01-7, R222, R358, R688). -/
def headWant (s : State) (k : Nat) : Option Want :=
  let l := s.lun k
  let ok := l.queue.filter (mayStart s k)
  match agedHead l with
  | none => topWant ok
  | some w => if l.er.isSome || flushing s then topWant ok else if ok.contains w then some w else none

/-- Wants taken out of a queue. -/
def dequeue (k : Nat) (ws : List Want) (s : State) : State :=
  modLun k (fun l => { l with queue := ws.foldl (fun q w => q.erase w) l.queue }) s

/-! ## Channel buffer slots (R313) -/

/-- Bytes that a program's wants carry. -/
def wantBytes (ws : List Want) : Nat := (ws.flatMap fun w => w.data.map List.length).foldl (· + ·) 0

/-- Buffer slots in use or promised to an operation; a program gives its slots up once its data has gone to the die (R293). -/
def bufUsed (s : State) (c : Nat) : List Nat :=
  let ops := (((s.chan c).slots.filter fun e => !(isProg e.2.op.optype && decide (wantBytes e.2.op.wants ≤ e.2.sent))).map fun e => e.2.op)
    ++ ((List.range 32).filterMap fun l => (s.lun (c * 32 + l)).op)
  ((s.chan c).buf.map (·.1))
    ++ ops.flatMap fun o => if o.optype ≤ 4 then (List.range o.wants.length).map (o.bufslot + ·)
      else if isProg o.optype then (List.range o.slots).map (o.bufslot + ·) else []

/-- First reads, or ladder reads, of a LUN that hold unreserved slots. -/
def lunSlots (s : State) (k : Nat) (ladder : Bool) : Nat :=
  ((s.chan (lunCh k)).buf.filter fun e =>
    decide (8 ≤ e.1) && e.2.page.lun == k && (ladder == decide (e.2.step ≠ 0))).length

/-- Unreserved slots that reads of a LUN may still take: at most 4 hold its first reads, and at most 2 its ladder reads (R313). -/
def slotRoom (s : State) (k : Nat) (ladder : Bool) : Nat := (if ladder then 2 else 4) - lunSlots s k ladder

/-- The first slot that a read may take: class 0 a reserved one first (R313). -/
def takeSlot (s : State) (k : Nat) (w : Want) : Option Nat :=
  let used := bufUsed s (lunCh k)
  let free (lo n : Nat) := ((List.range n).map (lo + ·)).find? fun i => !used.contains i
  let un := if 0 < slotRoom s k (w.step != 0) then free 8 24 else none
  if w.cls = 0 then (match free 0 8 with | some i => some i | none => un) else un

/-- How many further slots follow a first one, free, up to a number. -/
def slotsFrom (s : State) (c base : Nat) : Nat → Nat
  | 0 => 0
  | n + 1 =>
    let lim := if base < 8 then 8 else 32
    let m := slotsFrom s c base n
    if m = n ∧ base + n < lim ∧ !(bufUsed s c).contains (base + n) then n + 1 else m

/-- Channel LUNs whose next operation is a read that may take an unreserved slot: it goes before a codeword of destage (Table 01-7). -/
def readsAtSlots (s : State) (c : Nat) : Nat :=
  ((List.range 32).filter fun l => match headWant s (c * 32 + l) with
    | some w => w.kind == 0 && ((takeSlot s (c * 32 + l) w).map fun b => decide (8 ≤ b)).getD false
    | none => false).length

/-- The slots that a program step takes: up to 4 unreserved ones of its channel, none where reads take those that are free (R293, R313). -/
def progSlots (s : State) (k : Nat) (ws : List Want) : Option (Nat × Nat) :=
  let c := lunCh k
  let free := (List.range 24).filter fun i => !(bufUsed s c).contains (8 + i)
  match free with
  | [] => none
  | a :: _ =>
    if free.length ≤ readsAtSlots s c then none
    else some (8 + a, slotsFrom s c (8 + a) (min (min 4 ((wantBytes ws + 4607) / 4608)) (free.length - readsAtSlots s c)))

/-! ## Forming operations -/

/-- The array timeout of an operation in ns (R227). -/
def arrayTmo (p : Profile) (optype : Nat) (slc : Bool) : Nat :=
  1000 * (if isErase optype then 2 * p.tbersMax
    else if optype = 0x20 ∨ optype = 0x21 then 1000
    else if isProg optype then (if slc || optype == 0x0B || optype == 0x0C then 2 * p.tprogSlcMax else 2 * p.tprogMax)
    else if slc then 2 * p.trSlcMax else 2 * p.trMax)

/-- The context of an operation over some wants, the first of which names its page (Table 05-7). -/
def formOp (s : State) (k optype bufslot : Nat) (ws : List Want) : Option Op :=
  match ws with
  | [] => none
  | w :: _ =>
    let p := s.profile k
    let planes := if isErase optype then 2 ^ p.planes - 1
      else (ws.map fun w => w.page.block % p.planes).eraseDups.foldl (fun a b => a + 2 ^ b) 0
    some {
      optype := optype
      cls := (ws.map (·.cls)).foldl min w.cls
      rtag := w.rtag
      lun := k
      wants := ws
      col := w.cw * 4608
      row := if optype = 0x18 ∨ optype = 0x19 then rowAddr p (lunL k) 0 w.arg else rowAddr p (lunL k) w.page.block w.page.page
      planes := if optype = 0x09 then 2 ^ p.planes - 1 else planes
      retry := w.step
      gauge := w.offs
      feat := if optype = 0x21 then (w.data.flatten.map (·.toNat)) else [w.arg, 0, 0, 0]
      bufslot := bufslot
      xlen := if optype ≤ 4 then 4607 else if optype = 0x18 then p.physPage - 1 else (w.data.flatten.length - 1) % 65536
      mask := 2 ^ lunTgt k
      tmo := arrayTmo p optype w.page.slc }

/-- An operation formed for a LUN: its wants leave the queue, and it waits for its draught grant; the wants of one that it goes before stay queued. -/
def setOp (k : Nat) (o : Op) (s : State) : State :=
  let s := dequeue k o.wants s
  modLun k (fun l => { l with
    queue := ((l.op.map (·.wants)).getD []) ++ l.queue
    op := some o
    granted := false }) s

/-- The frame of a read's formation: the head want is a read, and `pick` chooses the wants of the operation among the
queued reads that may start. -/
def readRow (k optype : Nat) (pick : State → Want → List Want → List Want) (s : State) : Out :=
  match headWant s k with
  | none => .next s
  | some w =>
    if w.kind ≠ 0 then .next s
    else
      let ws := pick s w ((s.lun k).queue.filter fun v => v.kind == 0 && v != w && mayStart s k v)
      match ws, takeSlot s k w with
      | [], _ => .next s
      | _, none => .next s
      | ws, some b =>
        let n := slotsFrom s (lunCh k) b (if b < 8 then ws.length else min (slotRoom s k (w.step != 0)) ws.length)
        -- a multi-plane or cache read is of two pages or more
        if (optype = 0x02 ∨ optype = 0x03) ∧ n < 2 then .next s
        else match formOp s k optype b (ws.take (max 1 n)) with
        | none => .next s
        | some o => onlyIf (s.coreOn && decide (k < 4096)) s (setOp k o s)

/-- Wants of one page at the same offsets. -/
def samePage (w v : Want) : Bool := v.page == w.page && v.offs == w.offs && v.step == w.step

/-- The page of a read stands in its page register, sensed at the read's offsets (R210, R267). -/
def inRegister (s : State) (k : Nat) (w : Want) : Bool := (s.lun k).sensed.contains (w.page, w.offs)

/-- PAGE_READ (R205, R210): the page of the head read, with the other codewords of it that are wanted. -/
def execPageRead (k : Nat) (s : State) : Out :=
  readRow k 0x01 (fun s w l => if inRegister s k w then [] else w :: l.filter (samePage w)) s

/-- COL_READ (R210): further codewords of a sensed page, while no other operation has intervened. -/
def execColRead (k : Nat) (s : State) : Out :=
  readRow k 0x04 (fun s w l => if inRegister s k w then w :: l.filter (samePage w) else []) s

/-- MP_READ (R212): one page per plane, in different planes; without IPR, of one page index. -/
def execMpRead (k : Nat) (s : State) : Out :=
  readRow k 0x02 (fun s w l =>
    let p := s.profile k
    let ok := l.filter fun v => v.page.slc == w.page.slc && v.step == w.step && (p.ipr || v.page.page == w.page.page)
    let ws := if inRegister s k w then [] else ok.foldl (fun a v => if a.any fun u => u.page.block % p.planes == v.page.block % p.planes then a else a ++ [v]) [w]
    if 2 ≤ ws.length then ws else []) s

/-- Wants of consecutive pages of one block after a page, in order. -/
def nextPages (l : List Want) : Nat → Want → List Want
  | 0, _ => []
  | n + 1, w =>
    match l.find? fun v => v.page == { w.page with page := w.page.page + 1 } with
    | some v => v :: nextPages l n v
    | none => []

/-- CACHE_READ (R213): class 2 or 3, consecutive pages of one block, at most 8. It is not begun while a class-0 or class-1
read is queued for the LUN. -/
def execCacheRead (k : Nat) (s : State) : Out :=
  readRow k 0x03 (fun s w l =>
    if w.cls < 2 ∨ !(s.profile k).cacheRd ∨ (s.lun k).queue.any (fun v => v.kind == 0 && decide (v.cls ≤ 1)) ∨ inRegister s k w then []
    else
      let ws := w :: nextPages l 7 w
      if 2 ≤ ws.length then ws else []) s

/-- The frame of the other formations: the head want is of a kind, and `pick` gives the wants of the operation. -/
def formRow (k optype kind : Nat) (pick : State → Want → List Want) (s : State) : Out :=
  match headWant s k with
  | none => .next s
  | some w =>
    if w.kind ≠ kind then .next s
    else match (if kind = 1 then progSlots s k (pick s w) else some (0, 0)) with
    | none => .next s
    | some (b, n) =>
      match formOp s k optype b (pick s w) with
      | none => .next s
      | some o => onlyIf (s.coreOn && decide (k < 4096)) s (setOp k { o with slots := n } s)

/-- Pages of a program want that lie on more than one plane. -/
def manyPlanes (s : State) (k : Nat) (w : Want) : Bool := decide (1 < (s.profile k).planes ∧ 1 < w.data.length)

/-- PROG (R214): one step of a block of a die with one plane. -/
def execProg (k : Nat) (s : State) : Out :=
  formRow k 0x08 1 (fun s w => if manyPlanes s k w ∨ w.page.slc then [] else [w]) s

/-- MP_PROG (R217): the same step in one block of each plane; an SLC row too (R348). -/
def execMpProg (k : Nat) (s : State) : Out := formRow k 0x09 1 (fun s w => if manyPlanes s k w then [w] else []) s

/-- The step of a block that a program want writes (R214). -/
def wantStep (s : State) (k : Nat) (w : Want) : Nat := stepOf (s.profile k) w.page.slc w.page.page

/-- Program wants of the steps that follow a step, in order, as far as some wants hold them. -/
def nextSteps (s : State) (k : Nat) (l : List Want) : Nat → Nat → List Want
  | 0, _ => []
  | n + 1, r =>
    match l.find? fun v => wantStep s k v == r + 1 with
    | some v => v :: nextSteps s k l n (r + 1)
    | none => []

/-- CACHE_PROG (R217): consecutive steps of one block, on a die that allows it, never of a journal block nor over planes. -/
def execCacheProg (k : Nat) (s : State) : Out :=
  formRow k 0x0A 1 (fun s w =>
    if w.page.slc ∨ !(s.profile k).cacheProg ∨ w.cls < 2 ∨ manyPlanes s k w then []
    else
      let l := (s.lun k).queue.filter fun v =>
        v.kind == 1 && v.page.block == w.page.block && v.page.slc == w.page.slc && decide (2 ≤ v.cls) && mayStart s k v
      let r := nextSteps s k l l.length (wantStep s k w)
      if r.isEmpty then [] else w :: r) s

/-- SLC_PROG (R229): a page in SLC mode, after SLC_CMD. -/
def execSlcProg (k : Nat) (s : State) : Out :=
  formRow k 0x0B 1 (fun s w => if w.page.slc ∧ !manyPlanes s k w then [w] else []) s

/-- SEAL_PROG (R232). -/
def execSealProg (k : Nat) (s : State) : Out := formRow k 0x0C 3 (fun _ w => [w]) s

/-- ERASE (R205): a die with one plane. -/
def execErase (k : Nat) (s : State) : Out := formRow k 0x10 2 (fun s w => if (s.profile k).planes = 1 then [w] else []) s

/-- MP_ERASE (R205): the blocks of an erase unit, one in each plane. -/
def execMpErase (k : Nat) (s : State) : Out := formRow k 0x11 2 (fun s w => if (s.profile k).planes = 1 then [] else [w]) s

/-- OTP_READ, OTP_PROG, GET_FEAT and SET_FEAT (R236, R237, R464). -/
def execOtpRead (k : Nat) (s : State) : Out := formRow k 0x18 4 (fun _ w => if w.optype = 0x18 then [w] else []) s
def execOtpProg (k : Nat) (s : State) : Out := formRow k 0x19 4 (fun _ w => if w.optype = 0x19 then [w] else []) s
def execGetFeat (k : Nat) (s : State) : Out := formRow k 0x20 4 (fun _ w => if w.optype = 0x20 then [w] else []) s
def execSetFeat (k : Nat) (s : State) : Out := formRow k 0x21 4 (fun _ w => if w.optype = 0x21 then [w] else []) s

/-- Whether some queued want may still start in the present suspension (R222). -/
def suspWork (s : State) (k : Nat) : Bool := (s.lun k).queue.any (mayStart s k)

/-- ERASE_RESUME (R223, R224): once the operations started in the suspension have ended, and nothing more qualifies or the
window has passed; never in the banked state (R225). -/
def execEraseResume (k : Nat) (s : State) : Out :=
  let l := s.lun k
  match l.er with
  | none => .next s
  | some e =>
    match e.suspAt with
    | none => .next s
    | some t =>
      let o := { e.op with optype := 0x12 }
      onlyIf (s.coreOn && !s.banked && !flushing s && !s.flag Fld.mapFlushStsDone && l.op.isNone && (s.inSlot k).isNone && s.online k
          && (e.closed || decide (t + 1000000 ≤ s.now) || rawHeld s k || !suspWork s k)) s
        (modLun k (fun l => { l with op := some o, granted := false }) s)

/-! ## Issue -/

/-- The third limit of R295 has arisen since the operation was formed: another LUN of its set has a program or an erase in flight. -/
def singleHeld (s : State) (k : Nat) (o : Op) : Bool :=
  match setOf s k with
  | none => false
  | some n =>
    let x := Tab.get {} n s.md.sets
    (isProg o.optype || (isErase o.optype && o.optype != 0x12)) && !flushing s && singleBusy s x
      && (x.slots.filter (· != k)).any fun j => progOn s j || eraseOn s j || ((s.inSlot j).map fun y => isErase y.op.optype).getD false

/-- A formed operation may pass to its stoker: not where another LUN's operation now forbids it, nor to a target under the raw window, but for ERASE_RESUME (R191, R224), nor to a LUN whose window of
R222 has passed since it was formed. -/
def mayPass (s : State) (k : Nat) (o : Op) : Bool :=
  (o.optype == 0x12 || !rawHeld s k) && !singleHeld s k o
    && (match (s.lun k).er with
        | some e => o.optype == 0x12 || (match e.suspAt with
          | some t => !e.closed && decide (s.now ≤ t + 1000000)
          | none => true)
        | none => true)

/-- STOKER_ISSUE (R177): a granted operation enters its free slot at its entry vector word. In P1 it starts the channels'
restart, and waits for its end (R645). -/
def execStokerIssue (k : Nat) (s : State) : Out :=
  let l := s.lun k
  match l.op with
  | none => .next s
  | some o =>
    onlyIf (s.coreOn && l.granted && (s.inSlot k).isNone && !s.flag Fld.stkStsFault (lunCh k) && mayPass s k o) s
      (let s := s.restart
       if s.now < s.pwr.restartAt then s
       else
         let s := modLun k (fun l => { l with op := none, granted := false }) s
         setSlot (lunCh k) (lunSlot k) { op := o, upc := BitVec.ofNat 15 o.optype, g := [0, 0, 0, 0], seq := opSeq s o } s)

/-! ## Suspension, ageing, stall and reissue -/

/-- The conditions of R220; a power-fail trip asks only that the die can suspend (R358). -/
def mayRequestSuspend (s : State) (k : Nat) (e : ErState) : Bool :=
  let p := s.profile k
  p.ersSusp && e.suspAt.isNone
    && (flushing s
      || ((s.lun k).queue.any (fun w => w.kind == 0 && decide (w.cls ≤ 1))
        && decide (e.since + p.tersRun * 1000 ≤ s.now) && decide (e.count < p.esuspMax) && !rawHeld s k))

/-- The suspend request raised for the erase in a LUN's slot. -/
def raiseSuspend (k : Nat) (s : State) : State :=
  match s.inSlot k with
  | some x => if isErase x.op.optype then setSlot (lunCh k) (lunSlot k) { x with susp := true } s else s
  | none => s

/-- ERASE_SUSPEND_REQUEST (R220). -/
def execEraseSuspendRequest (k : Nat) (s : State) : Out :=
  match (s.lun k).er with
  | none => .next s
  | some e => onlyIf (s.coreOn && mayRequestSuspend s k e) s (raiseSuspend k s)

/-- SUSPEND_WINDOW_EXPIRY (R222). -/
def execSuspendWindowExpiry (k : Nat) (s : State) : Out :=
  match (s.lun k).er with
  | none => .next s
  | some e =>
    match e.suspAt with
    | none => .next s
    | some t =>
      onlyIf (s.coreOn && decide (t + 1000000 ≤ s.now)) s
        (modLun k (fun l => { l with er := some { e with closed := true } }) s)

/-- CLASS3_AGED (R688): 10 ms at the head of class 3, of the time that counts. -/
def execClass3Aged (k : Nat) (s : State) : Out :=
  let l := s.lun k
  onlyIf (s.coreOn && l.head3.isSome && l.head3 == class3Head l && decide (10000000 ≤ l.age)) s
    (modLun k (fun l => { l with aged := true }) s)

/-- The code of a program or erase whose late status shows it ended (Table 06-5). -/
def lateCode (o : Op) (b : Byte) : Nat :=
  if !(isProg o.optype || isErase o.optype) then 0
  else if !b.getLsbD 7 then 6
  else if b.getLsbD 0 then 1
  else if o.optype = 0x0A ∧ b.getLsbD 1 = true then 7
  else 0

/-- The stalled operation of a LUN handed on to its evaluation, with a code and status: the LUN is stalled no more. -/
def stallOver (k : Nat) (o : Op) (code : Nat) (b : Byte) (s : State) : State :=
  let s := modLun k (fun l => { l with stall := none }) s
  let e : Ended := { op := o, code := code, status := b, went := true, sent := wantBytes o.wants, reported := true }
  { s with md := { s.md with ended := s.md.ended ++ [e] } }

/-- A poll's byte (R228): in KX-DDR error bits are counted, and the byte is read again at the next poll (R161); a ready LUN returns to service; after
LBT + 1 ms it goes offline with code 0x34, and the pages at risk are rewritten as for a program fail. -/
def stallPolled (k : Nat) (o : Op) (t : Nat) (b : Byte) (s : State) : State :=
  let c := lunCh k
  let kx := s.flag Fld.stkTgtcfgKx (tgtIdx k)
  let s := if kx && b.getLsbD 3 then s.inc Fld.stkKxCntCaCrc c else s
  let s := if kx && b.getLsbD 4 then s.inc Fld.stkKxCntDinCrc c else s
  if b.getLsbD 6 && !(kx && (b.getLsbD 3 || b.getLsbD 4)) then stallOver k o (lateCode o b) b s
  else if t + ((s.profile k).lbt + 1000) * 1000 ≤ s.now then
    stallOver k o 1 1 ((lunOff k s).logPacked uSTK 0x34 [(1, c), (1, lunTgt k), (1, lunL k)])
  else s

/-- STALL_POLL (R228): the maintenance slot reads a stalled LUN's status by status enhanced, once per ms. -/
def execStallPoll (k : Nat) (b : Byte) (s : State) : Out :=
  match (s.lun k).stall with
  | none => .next s
  | some (o, t) =>
    let c := lunCh k
    onlyIf (s.coreOn && maintFirst s c && stallDue s k) s
      (atRate c (lunTgt k) (fun s =>
        let s := statusRead c (lunTgt k) o.row (s.flag Fld.stkTgtcfgKx (tgtIdx k)) 2 (selectTarget c (lunTgt k) s)
        stallPolled k o t b (raiseCe c (modLun k (fun l => { l with polled := s.now }) s))) s)

/-- WPROT_REISSUE (R240): 1 ms after a WPROT the operation waits for its grant again. -/
def execWprotReissue (k : Nat) (s : State) : Out :=
  match (s.lun k).wprot with
  | none => .next s
  | some (o, t) =>
    onlyIf (s.coreOn && (s.lun k).op.isNone && decide (t + 1000000 ≤ s.now)) s
      (modLun k (fun l => { l with op := some { o with again := true }, granted := false, wprot := none }) s)

end Sys2Proof.Machine
end

