-- ==== Sys2Proof/Machine/Media.lean ====
section
/-! DEFINITION. Media tables (chapters 8 and 10): map entries, program steps, row geometry, the block and group tables, and the queue of
refresh requests. -/

namespace Sys2Proof.Machine

/-! ## Map entries (R371, Table 10-1) -/

/-- Bits `hi` down to `lo` of a number. -/
def nbits (x hi lo : Nat) : Nat := x / 2 ^ lo % 2 ^ (hi + 1 - lo)

/-- STATE of a map entry. -/
def entState (e : Nat) : Nat := nbits e 63 62

/-- The LUN key of a MAPPED entry. -/
def entLun (e : Nat) : Nat := lunKey (nbits e 61 55) (nbits e 54 52) (nbits e 51 50)

/-- The page of a MAPPED entry, by its LUN's PAGE_BITS. -/
def entPage (s : State) (e : Nat) : Page :=
  let p := s.profile (entLun e)
  let bp := nbits e 49 28
  ⟨entLun e, bp / 2 ^ p.pageBits, bp % 2 ^ p.pageBits, nbits e 24 24 == 1⟩

/-- The codeword of a MAPPED entry. -/
def entCw (e : Nat) : Nat := nbits e 27 25

/-- The MAPPED entry of a codeword. -/
def mkEntry (s : State) (p : Page) (cw : Nat) : Nat :=
  let pb := (s.profile p.lun).pageBits
  2 ^ 62 + lunCh p.lun * 2 ^ 55 + lunTgt p.lun * 2 ^ 52 + lunL p.lun * 2 ^ 50
    + (p.block * 2 ^ pb + p.page) % 2 ^ 22 * 2 ^ 28 + cw % 8 * 2 ^ 25 + p.slc.toNat * 2 ^ 24

/-- The POISONED entry. -/
def poisonEntry : Nat := 2 ^ 63

/-- A target is fitted: present in the topology, with a valid profile (R377). -/
def fitted (s : State) (c t : Nat) : Bool :=
  let tp : Topo := Tab.get {} c s.img.topo
  tp.present.testBit t && (s.profileAt (c * 8 + t)).ok

/-- A MAPPED entry names a LUN of a fitted target, within its geometry (R371). -/
def entryInGeometry (s : State) (e : Nat) : Bool :=
  let k := entLun e
  let p := s.profile k
  let g := entPage s e
  fitted s (lunCh k) (lunTgt k) && decide (lunL k < p.luns ∧ g.block < p.blkPerLun ∧ entCw e < p.cwPerPage)
    && decide (g.page < (if g.slc then p.wlPerBlk else p.wlPerBlk * p.cellBits))

/-! ## Program steps and rows (R214, R287, R289) -/

/-- The pages of a step. -/
def stepPages (p : Profile) (slc : Bool) (r : Nat) : List Nat := ((stepsOf p slc)[r]?).getD []

/-- Rows of a group. -/
def rowsOf (p : Profile) (slc : Bool) : Nat := (stepsOf p slc).length

/-- Codewords of a row unit: Q of R287. -/
def rowQ (p : Profile) (slc : Bool) (r : Nat) : Nat := p.planes * (stepPages p slc r).length * p.cwPerPage

/-- The page type of a page (R209), and its word line. -/
def pageType (p : Profile) (g : Page) : Nat := if g.slc then 0 else g.page % max 1 p.cellBits
def wordLine (p : Profile) (g : Page) : Nat := if g.slc then g.page else g.page / max 1 p.cellBits

/-- Codeword `q` of a row unit: planes first, then pages in order, then codewords within the page (R287). -/
def qPage (s : State) (k unit : Nat) (slc : Bool) (r q : Nat) : Page × Nat :=
  let p := s.profile k
  let pages := stepPages p slc r
  let x := q / p.planes
  (⟨k, unit * p.planes + q % p.planes, (pages[x % max 1 pages.length]?).getD 0, slc⟩, x / max 1 pages.length)

/-- The index of a codeword within its row unit (DEDUCED, log entry 59). -/
def pageQ (s : State) (g : Page) (cw : Nat) : Nat :=
  let p := s.profile g.lun
  let pages := stepPages p g.slc (stepOf p g.slc g.page)
  (cw * max 1 pages.length + (pages.findIdx? (· == g.page)).getD 0) * p.planes + g.block % p.planes

/-- The set slot of a member position, and the position on a slot (R289). -/
def posSlot (rot r pos : Nat) : Nat := (pos + rot + r) % 18
def slotPos (rot r n : Nat) : Nat := (n + 36 - rot % 18 - r % 18) % 18

/-! ## The block and group tables (R290, R377) -/

/-- Keys of erase units, of erase blocks, and of groups. -/
def unitKey (k u : Nat) : Nat := k * 2 ^ 20 + u
def unitLun (x : Nat) : Nat := x / 2 ^ 20
def unitNo (x : Nat) : Nat := x % 2 ^ 20
def blockKey (k b : Nat) : Nat := k * 2 ^ 24 + b
def grpKey (set g : Nat) : Nat := set * 2 ^ 18 + g

/-- The 32-bit identifier of a unit in records (R377): the LUN key is {CH, TGT, LUN}. -/
def unitId (x : Nat) : Nat := x

/-- The erase unit of a page. -/
def pageUnit (s : State) (g : Page) : Nat := unitKey g.lun (g.block / max 1 (s.profile g.lun).planes)

def State.unit (s : State) (x : Nat) : UnitE := Tab.get {} x s.md.units
def State.modUnit (s : State) (x : Nat) (f : UnitE → UnitE) : State :=
  { s with md := { s.md with units := Tab.put x (f (s.unit x)) s.md.units } }

def State.set_ (s : State) (n : Nat) : SetSt := Tab.get {} n s.md.sets
def State.modSet (s : State) (n : Nat) (f : SetSt → SetSt) : State :=
  { s with md := { s.md with sets := Tab.modify n f s.md.sets } }

/-- A group record of a set. -/
def State.grp (s : State) (set g : Nat) : Option Grp := Tab.find (grpKey set g) s.md.groups
def State.setGrp (s : State) (set g : Nat) (x : Grp) : State :=
  { s with md := { s.md with groups := Tab.put (grpKey set g) x s.md.groups } }

/-- The group of a page, by the block table: set, group number and record. -/
def groupOf (s : State) (g : Page) : Option (Nat × Nat × Grp) :=
  let u := s.unit (pageUnit s g)
  if u.estate = 2 ∨ u.estate = 3 ∨ u.estate = 4 ∨ u.estate = 5 ∨ u.estate = 6 then
    match s.grp (u.gref / 2 ^ 18) (u.gref % 2 ^ 18) with
    | some x => some (u.gref / 2 ^ 18, u.gref % 2 ^ 18, x)
    | none => none
  else none

/-- A LUN's slot in its set. -/
def slotIn (x : SetSt) (k : Nat) : Option Nat := x.slots.findIdx? (· == k)

/-- The page and codeword of member `pos` of stripe `q` of a row; none where the slot has no LUN. -/
def memberAt (s : State) (set : Nat) (g : Grp) (r pos q : Nat) : Option (Page × Nat) :=
  let n := posSlot g.rot r pos
  match (s.set_ set).slots[n]?, g.unit[n]? with
  | some k, some u => some (qPage s k u g.slc r q)
  | _, _ => none

/-- A profile that the LUNs of a set share, so far as R285 has them equal. -/
def setProfile (s : State) (set : Nat) : Profile := s.profile (((s.set_ set).slots[0]?).getD 0)

/-! ## Geometry of appliance DRAM (R259, R374 to R377) -/

/-- Fitted targets before a target, in order of channel and target. -/
def fittedBefore (s : State) (c t : Nat) : List Nat :=
  (List.range (c * 8 + t)).filter fun ti => fitted s (ti / 8) (ti % 8)

/-- The index of a block's gauge line in the gauge region (R259). -/
def gaugeIndex (s : State) (k b : Nat) : Nat :=
  let before := (fittedBefore s (lunCh k) (lunTgt k)).foldl (fun n ti => n + (s.profileAt ti).luns * (s.profileAt ti).blkPerLun) 0
  before + lunL k * (s.profile k).blkPerLun + b

/-- DRAM address of a block's gauge line. -/
def gaugeAddr (s : State) (k b : Nat) : Nat := s.img.geo.gaugeBase + 64 * gaugeIndex s k b

/-- Addresses of a descriptor and of a slot in a region of `n` slots (R330). -/
def descAddr (base i : Nat) : Nat := base + 64 * i
def slotAddr (base n i : Nat) : Nat := base + (64 * n + 4095) / 4096 * 4096 + 4096 * i

/-- The engine's hearth ID (R686). -/
def State.hid (s : State) : Nat := s.img.geo.hid

/-- Two requests touch a common 64 B line. -/
def sameLine (a b : FabReq) : Bool :=
  decide (a.addr / 64 ≤ (b.addr + b.len - 1) / 64 ∧ b.addr / 64 ≤ (a.addr + a.len - 1) / 64)

/-- A write to a line of the request is outstanding or waits for credit (R689). -/
def lineBusy (f : Fabric) (q : FabReq) : Bool :=
  (f.outst.any fun o => o.req.kind.isWrite && sameLine o.req q) || f.waiting.any fun w => w.1.kind.isWrite && sameLine w.1 q

/-- One read of DRAM issued, or held while a write to its line awaits its response (R689). -/
def lineRead (q : FabReq) (p : Purpose) (s : State) : State :=
  if lineBusy s.fab q then { s with fab := { s.fab with held := s.fab.held ++ [(q, p)] } } else s.issue q p

/-- An engine's own DRAM read, cut at 64 B lines, each piece on its line's port (R689; DEDUCED, log entry 124). -/
def dramRead (addr len cls : Nat) (p : Purpose) (s : State) : State :=
  (cutAt 64 (len + 1) addr len).foldl (fun s x => lineRead (mkReq (dramPort x.1) cls .rd x.1 x.2 []) p s) s

/-- The held reads tried again, in order. -/
def releaseHeld (s : State) : State :=
  let l := s.fab.held
  l.foldl (fun s x => lineRead x.1 x.2 s) { s with fab := { s.fab with held := [] } }

/-- An engine's own DRAM write: a sealed write (R689). -/
def dramWrite (addr cls : Nat) (data : List Byte) (p : Purpose) (s : State) : State := s.issueAll (dramReqs cls addr data p)

/-- Appliance DRAM has answered a map or pan request (R106). -/
def dramSeen (code : RCode) (s : State) : State := if code == .ok then { s with md := { s.md with dramOk := true } } else s

/-! ## The tables in appliance DRAM (R290, R376, R377) -/

/-- The index of an erase unit in the block table. -/
def unitIndex (s : State) (x : Nat) : Nat :=
  let k := unitLun x
  let before := (fittedBefore s (lunCh k) (lunTgt k)).foldl (fun n ti => n + (s.profileAt ti).luns * (s.profileAt ti).unitsPerLun) 0
  before + lunL k * (s.profile k).unitsPerLun + unitNo x

/-- Entries of the block table. -/
def unitCount (s : State) : Nat := (fittedBefore s 128 0).foldl (fun n ti => n + (s.profileAt ti).luns * (s.profileAt ti).unitsPerLun) 0

/-- A block table entry as bytes (Table 10-3). -/
def unitBytes (u : UnitE) : List Byte :=
  numBytes 4 u.pec ++ numBytes 1 u.estate ++ numBytes 1 (u.slc.toNat + 2 * u.retire.toNat + 4 * u.refresh.toNat) ++ numBytes 2 0
    ++ numBytes 4 u.gref ++ numBytes 4 u.valid ++ numBytes 8 u.closeAt ++ numBytes 8 0

/-- A block table entry changed, and written to both copies (DESIGN CHOICE, log entry 54). -/
def putUnit (x : Nat) (f : UnitE → UnitE) (s : State) : State :=
  let s := s.modUnit x f
  let b := unitBytes (s.unit x)
  let o := 32 * unitIndex s x
  dramWrite (s.img.geo.tbl1 + o) 3 b (.mapWrite (2 ^ 61)) (dramWrite (s.img.geo.tbl0 + o) 3 b (.mapWrite (2 ^ 61)) s)

/-- Group records of one set in the group table: as many as a LUN has erase units (DESIGN CHOICE, log entry 24). -/
def grpsPerSet (s : State) : Nat := s.md.sets.foldl (fun n e => max n (s.profile ((e.2.slots[0]?).getD 0)).unitsPerLun) 0

/-- A group record as bytes (Table 08-1). -/
def grpBytes (g : Grp) : List Byte :=
  (List.range 18).flatMap (fun n => numBytes 4 ((g.unit[n]?).getD 0)) ++ numBytes 1 g.rot ++ numBytes 1 g.gstate ++ numBytes 2 g.rowsDone
    ++ numBytes 4 g.lost ++ numBytes 8 g.openSeq ++ List.replicate 40 0

/-- A group record changed, and written to both copies. -/
def putGrp (set g : Nat) (x : Grp) (s : State) : State :=
  let s := s.setGrp set g x
  let o := 32 * unitCount s + 128 * (set * grpsPerSet s + g)
  dramWrite (s.img.geo.tbl1 + o) 3 (grpBytes x) (.mapWrite (2 ^ 61)) (dramWrite (s.img.geo.tbl0 + o) 3 (grpBytes x) (.mapWrite (2 ^ 61)) s)

/-- The directory entry of a map tile. -/
def State.dirOf (s : State) (mt : Nat) : Dir := Tab.get {} mt s.md.dir

/-- A directory entry as bytes (R376). -/
def dirBytes (d : Dir) : List Byte := numBytes 8 d.loc ++ numBytes 4 (d.slot.getD 0xFFFFFFFF) ++ numBytes 1 d.dirty.toNat ++ numBytes 3 0

/-- A directory entry changed; a change is written to DRAM. -/
def State.modDir (s : State) (mt : Nat) (f : Dir → Dir) : State :=
  let d := f (s.dirOf mt)
  let t : State := { s with md := { s.md with dir := Tab.set {} mt d s.md.dir } }
  if d = s.dirOf mt then t else dramWrite (s.img.geo.dirBase + 16 * mt) 3 (dirBytes d) (.mapWrite (2 ^ 61)) t

/-- R274: one refresh request for the unit of a block; a unit holds at most one. -/
def refreshReq (g : Page) (s : State) : State :=
  let x := pageUnit s g
  let u := s.unit x
  if u.estate = 2 ∨ u.estate = 3 then putUnit x (fun u => { u with refresh := true }) s else s

end Sys2Proof.Machine
end

