-- ==== Sys2Proof/Machine/Gauge.lean ====
section
/-! DEFINITION. Brine gauges (chapter 7): the gauge cache, offsets of a read, and learning. -/

namespace Sys2Proof.Machine

/-- Zeros for a gauge line. -/
def zeros32 : List Int := List.replicate 32 0

/-- The gauge seeds of a page, by type and level; 0 in SLC mode (R262, R263). -/
def seedsOf (p : Profile) (slc : Bool) : List Int :=
  if slc then zeros32 else (List.range 32).map fun i => (p.seeds[i]?).getD 0

/-- The owners of the levels of a page's LUN: one level, of type 0, in SLC mode and on dies of one bit a cell (R257). -/
def pageOwners (s : State) (g : Page) : List Nat :=
  let p := s.profile g.lun
  if g.slc || p.cellBits == 1 then [0] else levelOwners s (s.get Fld.stkTgtcfgProfile (tgtIdx g.lun))

/-- Levels that a page type owns, and the index among them of level `k` (R256). -/
def nlev (own : List Nat) (p : Nat) : Nat := (own.filter (· == p)).length
def localLev (own : List Nat) (p k : Nat) : Nat := ((own.take (k - 1)).filter (· == p)).length

/-- The key of a page's gauge line. -/
def gaugeKey (g : Page) : Nat := blockKey g.lun g.block

/-- The gauge line of a page, if it is in the gauge cache. -/
def gline (s : State) (g : Page) : Option GLine := Tab.find (gaugeKey g) s.md.gauge

/-- The eight offsets of a page's type in a line. -/
def typeOffs (p : Nat) (l : List Int) : List Int := (List.range 8).map fun j => (l[8 * p + j]?).getD 0

/-- The offsets a read of a page uses: those of its line, or the seeds where the line could not be had (R261). -/
def readOffs (s : State) (g : Page) : List Int :=
  let p := s.profile g.lun
  match gline s g with
  | some l => typeOffs (pageType p g) l.off
  | none => typeOffs (pageType p g) (seedsOf p g.slc)

/-- Clamp. -/
def clampI (lo hi x : Int) : Int := max lo (min hi x)

/-- The bytes of a gauge line (R259). -/
def glineBytes (l : GLine) : List Byte := (l.off ++ l.acc).map fun x => BitVec.ofInt 8 x

/-- A line put into the gauge cache: the least recently used of its set's 8 ways goes, and is written back if it has changed (R260), at the
class of the request that the fill serves (R689). -/
def gaugeFill (key cls : Nat) (l : GLine) (s : State) : State :=
  let set := (s.md.gauge.filter fun e => e.2.idx % 4096 == l.idx % 4096 && e.1 != key)
  let l := { l with used := s.md.gaugeT }
  let put (s : State) : State := { s with md := { s.md with gauge := Tab.put key l s.md.gauge, gaugeT := s.md.gaugeT + 1 } }
  if set.length < 8 then put s
  else
    let v := set.foldl (fun a e => if e.2.used < a.2.used then e else a) (set.headD (key, l))
    let s := { s with md := { s.md with gauge := Tab.del v.1 s.md.gauge }, cal := { s.cal with lines := Tab.del v.1 s.cal.lines } }
    let s := if v.2.dirty then dramWrite (s.img.geo.gaugeBase + 64 * v.2.idx) cls (glineBytes v.2) (.gaugeWrite v.1) s else s
    put s

/-- A line used: it becomes the most recently used. -/
def gaugeTouch (key : Nat) (s : State) : State :=
  { s with md := { s.md with
      gauge := Tab.modify key (fun l => { l with used := s.md.gaugeT }) s.md.gauge
      gaugeT := s.md.gaugeT + 1 } }

/-- A line set to some offsets with every accumulator 0: in the cache where it is, else in appliance DRAM (R262). -/
def gaugeSeed (k b : Nat) (off : List Int) (s : State) : State :=
  let key := blockKey k b
  let l : GLine := { off := off, acc := zeros32, dirty := true, idx := gaugeIndex s k b }
  match Tab.find key s.md.gauge with
  | some _ => { s with md := { s.md with gauge := Tab.put key { l with used := s.md.gaugeT } s.md.gauge } }
  | none =>
    dramWrite (gaugeAddr s k b) 3 (glineBytes l) (.gaugeWrite key) { s with cal := { s.cal with lines := Tab.del key s.cal.lines } }

/-- The answer to the fetch of a gauge line for a media step or a ledger (R261): after DATAERR its seeds, which are written back; after DECERR no
line is had. -/
def calLineRead (key : Nat) (code : RCode) (data : List Byte) (s : State) : State :=
  let k := key / 2 ^ 24
  let b := key % 2 ^ 24
  let put (d : List Byte) (s : State) : State := { s with cal := { s.cal with lines := Tab.put key d s.cal.lines } }
  match code with
  | .ok => put data s
  | .dataerr =>
    let slc := (s.unit (pageUnit s ⟨k, b, 0, false⟩)).slc
    let d := glineBytes { off := seedsOf (s.profile k) slc, acc := zeros32, idx := gaugeIndex s k b }
    put d (dramWrite (gaugeAddr s k b) 3 d (.gaugeWrite key) (s.inc Fld.cryGaugeStsDataerr))
  | _ => put [] (s.inc Fld.cryGaugeStsDataerr)

/-! ## Learning (R263, R264) -/

/-- Counts of wrong cells per local level, up and down, each saturating at 255: over the stored bits written and read. -/
def countCells (s : State) (g : Page) (cw : Nat) (good bad : List Byte) : List (Nat × Nat) :=
  let p := s.profile g.lun
  let own := pageOwners s g
  let pt := pageType p g
  let wr := scramble s g cw good
  let rd := scramble s g cw bad
  let bit (l : List Byte) (i : Nat) : Bool := ((l[i / 8]?).getD 0).getLsbD (i % 8)
  let zero : List (Nat × Nat) := List.replicate 8 (0, 0)
  let up (l : List (Nat × Nat)) (j : Nat) : List (Nat × Nat) := l.modify j fun x => (min 255 (x.1 + 1), x.2)
  let dn (l : List (Nat × Nat)) (j : Nat) : List (Nat × Nat) := l.modify j fun x => (x.1, min 255 (x.2 + 1))
  if nlev own pt = 1 then
    (List.range 36864).foldl (fun l i => if bit wr i == bit rd i then l else if bit wr i then up l 0 else dn l 0) zero
  else
    (List.range 256).foldl (fun l i =>
      let c := 0x1020 * 8 + i
      if bit wr c == bit rd c then l
      else
        let st := i % 2 ^ p.cellBits
        if st + 1 ≤ own.length ∧ own[st]? = some pt then up l (localLev own pt (st + 1))
        else if 1 ≤ st ∧ own[st - 1]? = some pt then dn l (localLev own pt st)
        else l) zero

/-- One level of a line moved by its counts (R263): offset, accumulator, and whether it met its limit. -/
def learnLevel (s : State) (off acc seed : Int) (c : Nat × Nat) : Int × Int × Bool :=
  let thr : Int := max 1 (min 127 (s.get Fld.cryGaugeCfgThresh))
  let cl : Int := s.get Fld.cryGaugeCfgClamp
  let span : Int := s.get Fld.cryGaugeCfgSpan
  let a := acc + clampI (-cl) cl ((c.1 : Int) - c.2)
  let d : Int := if thr ≤ a then 1 else if a ≤ -thr then -1 else 0
  if d = 0 then (off, clampI (-128) 127 a, false)
  else
    let n := off + d
    if span < (n - seed).natAbs ∨ 127 < n ∨ n < -128 then (off, 0, true) else (n, 0, false)

/-- The update of a line by a codeword that was recovered and passed its check (R263). `used`: the offsets the read carried (DESIGN CHOICE, log entry 47). -/
def gaugeLearn (g : Page) (cw : Nat) (used : List Int) (good bad : List Byte) (s : State) : State :=
  match gline s g with
  | none => s
  | some l =>
    if !s.flag Fld.cryCtlLearn then s
    else
      let p := s.profile g.lun
      let pt := pageType p g
      let n := nlev (pageOwners s g) pt
      let counts := countCells s g cw good bad
      let seed := typeOffs pt (seedsOf p g.slc)
      let r := (List.range n).foldl (fun (x : GLine × Nat) j =>
        let o := (x.1.off[8 * pt + j]?).getD 0
        if (used[j]?).getD 0 ≠ o then x
        else
          let y := learnLevel s o ((x.1.acc[8 * pt + j]?).getD 0) ((seed[j]?).getD 0) ((counts[j]?).getD (0, 0))
          ({ x.1 with off := x.1.off.set (8 * pt + j) y.1, acc := x.1.acc.set (8 * pt + j) y.2.1, dirty := true },
            x.2 + y.2.2.toNat)) (l, 0)
      let s := { s with md := { s.md with gauge := Tab.put (gaugeKey g) r.1 s.md.gauge } }
      if r.2 = 0 then s else refreshReq g (s.inc Fld.cryGaugeStsLimit 0 r.2)

/-- A retry step that recovered a codeword moves the whole page type to its offsets (R268). -/
def gaugeMove (g : Page) (used : List Int) (s : State) : State :=
  match gline s g with
  | none => s
  | some l =>
    let p := s.profile g.lun
    let pt := pageType p g
    let n := nlev (pageOwners s g) pt
    let span : Int := s.get Fld.cryGaugeCfgSpan
    let seed := typeOffs pt (seedsOf p g.slc)
    let r := (List.range n).foldl (fun (x : GLine × Nat) j =>
      let u := (used[j]?).getD 0
      let c := clampI ((seed[j]?).getD 0 - span) ((seed[j]?).getD 0 + span) u
      ({ x.1 with off := x.1.off.set (8 * pt + j) c, acc := x.1.acc.set (8 * pt + j) 0, dirty := true },
        x.2 + (decide (c ≠ u)).toNat)) (l, 0)
    let s := { s with md := { s.md with gauge := Tab.put (gaugeKey g) r.1 s.md.gauge } }
    if r.2 = 0 then s else s.inc Fld.cryGaugeStsLimit 0 r.2

/-! ## Ladder offsets (R265, R266) -/

/-- The offsets of retry step `k`: OFF + LADDER, saturating; an SLC page has its fixed ladder. -/
def ladderOffs (s : State) (g : Page) (k : Nat) : List Int :=
  let p := s.profile g.lun
  let off := readOffs s g
  if g.slc then
    let d : Int := if k % 2 = 1 then -(3 * ((k + 1) / 2 : Nat) : Int) else (3 * (k / 2) : Nat)
    off.map fun o => clampI (-128) 127 (o + d)
  else
    let pt := pageType p g
    off.zipIdx.map fun x => clampI (-128) 127 (x.1 + (p.ladder[pt * 128 + (k - 1) * 8 + x.2]?).getD 0)

/-- Offsets moved by a shift on every level of the page type (R269, R275). -/
def shiftOffs (off : List Int) (d : Int) : List Int := off.map fun o => clampI (-128) 127 (o + d)

end Sys2Proof.Machine
end

