-- ==== Sys2Proof/Machine/Security.lean ====
section
/-! DEFINITION. The SEC unit, the firebox core and the debug access port (chapter 17): key commands,
namespaces, self-tests, zeroization, lifecycle and debug levels, and the meaning of their
commands. -/

namespace Sys2Proof.Machine

/-- Lifecycle states (SEC_STS.LC). -/
def lcManufacture : Nat := 0
def lcSecured : Nat := 1
def lcRma : Nat := 2
def lcDecom : Nat := 3

/-- The lifecycle state in effect (R614, R638). -/
def lifecycle (s : State) : Nat := s.get Fld.secStsLc

/-- The debug level (Table 17-13): 0 CLOSED, 1 AUTH, 2 OPEN. -/
def debugLevel (s : State) : Nat := s.get Fld.dbgStsLevel

/-- The number of bits of a value that read 1 (R613). -/
def countOnes (x : BitVec n) : Nat := ((List.range n).filter fun i => x.getLsbD i).length

/-- The lifecycle state that the marks of the hearthstone row spell (R614). -/
def lifecycleOf (h : Hearth) : Nat :=
  if 5 ≤ countOnes h.decom then lcDecom
  else if 5 ≤ countOnes h.rma then lcRma
  else if 5 ≤ countOnes h.secured then lcSecured
  else lcManufacture

/-- Bytes of a value, least significant first. -/
def bytesOf (x : BitVec w) (n : Nat) : List Byte :=
  (List.range n).map fun i => (x >>> (8 * i)).setWidth 8

/-- The value of bytes, least significant first. -/
def ofBytes (w : Nat) : List Byte → BitVec w
  | [] => 0
  | b :: r => (ofBytes w r <<< 8) ||| b.setWidth w

/-- ASCII bytes of a short string. -/
def ascii (t : String) : List Byte := t.toList.map fun c => BitVec.ofNat 8 c.toNat

/-- KEK1 (Table 17-5): G is 1 in RMA; EPOCH is the count of burned EPOCH bits. -/
def kek1Of (s : State) : BitVec 256 :=
  (Config.hmac384 s.sec.row.kes (ascii "KEK1" ++ bytesOf s.sec.row.deviceId 16 ++
    [if lifecycle s = lcRma then 1 else 0, BitVec.ofNat 8 (countOnes s.sec.row.epoch)])).setWidth 256

/-- KEK2 (Table 17-5). -/
def kek2Of (s : State) : BitVec 256 :=
  (Config.hmac384 s.sec.row.kes (ascii "KEK2" ++ bytesOf s.sec.row.deviceId 16 ++
    [if lifecycle s = lcRma then 1 else 0])).setWidth 256

/-- The mirror key of an origin hearth ID (Table 17-5): K1 in the low half, K2 in the high half. -/
def mirrorKeyOf (s : State) (hid : Nat) : BitVec 512 :=
  let h := bytesOf (BitVec.ofNat 16 hid) 2
  ((Config.hmac384 s.sec.pairKey (ascii "MIR2" ++ h)).setWidth 256).zeroExtend 512 <<< 256
    ||| ((Config.hmac384 s.sec.pairKey (ascii "MIR1" ++ h)).setWidth 256).zeroExtend 512

/-- The key a KEYIDX names (R617): a namespace slot, or the mirror key of the tile's hearth ID. -/
def keyOf (s : State) (keyidx hid : Nat) : Option (BitVec 512) :=
  if keyidx < 1024 then Tab.find keyidx s.sec.slots
  else if keyidx = 0xFFFE then (if s.sec.mirrorOn then some (mirrorKeyOf s hid) else none)
  else none

/-! ## Key commands -/

/-- The first `n` bytes of the key command buffer (Table 17-12). -/
def kbufBytes (s : State) (n : Nat) : List Byte :=
  ((List.range 32).flatMap fun i => wordBytes (s.reg .secKbuf i)).take n

/-- The key command buffer's registers with bytes put in from byte 0, zeros after them. -/
def regsKbuf (bs : List Byte) (regs : Tab Word) : Tab Word :=
  (List.range 32).foldl (fun r i =>
    Tab.set (regReset .secKbuf i) (regKey .secKbuf i) (ofBytes 32 ((bs.drop (4 * i)).take 4)) r) regs

/-- The key command buffer set to bytes, zeros after them. -/
def State.setKbuf (s : State) (bs : List Byte) : State := { s with regs := regsKbuf bs s.regs }

/-- Results of key commands (Table 17-9). -/
def krOk : Nat := 0
def krBadOp : Nat := 1
def krBadSlot : Nat := 2
def krInUse : Nat := 3
def krNotPermitted : Nat := 4
def krUnwrapFail : Nat := 5
def krKeyEq : Nat := 6
def krOtpFail : Nat := 7

/-- A namespace with VALID or BUSY set names the slot (R620, IN_USE of KZERO). -/
def slotNamed (s : State) (slot : Nat) : Bool :=
  (List.range 1024).any fun n =>
    s.get Fld.secNsCtlKeyidx n == slot && (s.flag Fld.secNsCtlValid n || nsBusy s n)

/-- The command's operation is permitted in the lifecycle state (Table 17-6), and no key command
runs in debug level OPEN (Table 17-7). -/
def keyPermitted (s : State) (op : Nat) : Bool :=
  let lc := lifecycle s
  debugLevel s != 2 &&
  match op with
  | 1 | 2 => lc != lcDecom
  | 3 => true
  | 4 | 5 => lc == lcManufacture || lc == lcRma
  | 6 => lc == lcManufacture && s.sec.row.rootHash == 0 && !s.sec.rootBad
  | 7 => lc == lcManufacture && s.sec.row.dbgHash == 0 && !s.sec.dbgBad
  | _ => false

/-- The key command uses SLOT (R620). -/
def usesSlot (op : Nat) : Bool := op == 1 || op == 2 || op == 3

/-- The first cause of failure that a command meets before it runs (R620): BAD_OP, BAD_SLOT,
NOT_PERMITTED, IN_USE. -/
def keyRefusal (s : State) (op slot : Nat) : Nat :=
  if op = 0 ∨ 7 < op then krBadOp
  else if usesSlot op ∧ 1023 < slot then krBadSlot
  else if !keyPermitted s op then krNotPermitted
  else if (op = 1 ∨ op = 2) ∧ (Tab.find slot s.sec.slots).isSome then krInUse
  else if op = 3 ∧ slotNamed s slot then krInUse
  else krOk

/-- The two halves of a namespace key are equal. -/
def halvesEqual (key : BitVec 512) : Bool := (key.setWidth 256 : BitVec 256) == (key >>> 256).setWidth 256

/-- What a permitted key command does (Table 17-6): its result and the state it leaves. `rnd` is
the drawn key of GEN_NS; `stuck` has a 1 for each OTP bit that does not burn. -/
def keyRun (op slot : Nat) (rnd : BitVec 512) (stuck : BitVec 384) (s : State) : Nat × State :=
  match op with
  | 1 =>
    match Config.kwUnwrap s.sec.kek1 (kbufBytes s 72) with
    | none => (krUnwrapFail, s)
    | some k =>
      if halvesEqual (ofBytes 512 k) then (krKeyEq, s)
      else (krOk, { s with sec := { s.sec with slots := Tab.put slot (ofBytes 512 k) s.sec.slots } })
  | 2 =>
    (krOk, ({ s with sec := { s.sec with slots := Tab.put slot rnd s.sec.slots } }).setKbuf
      (Config.kwWrap s.sec.kek1 (bytesOf rnd 64)))
  | 3 => (krOk, { s with sec := { s.sec with slots := Tab.del slot s.sec.slots } })
  | 4 =>
    if halvesEqual (ofBytes 512 (kbufBytes s 64)) then (krKeyEq, s)
    else (krOk, s.setKbuf (Config.kwWrap s.sec.kek1 (kbufBytes s 64)))
  | 5 => (krOk, s.setKbuf (Config.kwWrap s.sec.kek2 (kbufBytes s 32)))
  | 6 =>
    let h : BitVec 384 := ofBytes 384 (kbufBytes s 48)
    if h &&& stuck = 0 then (krOk, { s with sec := { s.sec with row := { s.sec.row with rootHash := h } } })
    else (krOtpFail, { s with sec := { s.sec with
      row := { s.sec.row with rootHash := h &&& ~~~stuck }, rootBad := true } })
  | _ =>
    let h : BitVec 384 := ofBytes 384 (kbufBytes s 48)
    if h &&& stuck = 0 then (krOk, { s with sec := { s.sec with row := { s.sec.row with dbgHash := h } } })
    else (krOtpFail, { s with sec := { s.sec with
      row := { s.sec.row with dbgHash := h &&& ~~~stuck }, dbgBad := true } })

/-- The effect of a write of SEC_KCMD (R619, R620): OP and SLOT are stored, and GO runs the command
to its end. -/
def keyCommand (w : Word) (rnd : BitVec 512) (stuck : BitVec 384) (s : State) : State :=
  let s := s.plainWrite .secKcmd 0 w
  if Fld.secKcmdGo.get w = 0 then s
  else
    let op := Fld.secKcmdOp.get w
    let slot := Fld.secKcmdSlot.get w
    let x := if keyRefusal s op slot = krOk then keyRun op slot rnd stuck s else (keyRefusal s op slot, s)
    let t := if op = 2 ∨ op = 4 ∨ op = 5 then x.2 else x.2.setKbuf []
    t.put Fld.secKstsResult x.1

/-- A key command row: a write of SEC_KCMD with GO that names the row's operation. -/
def keyRow (op : Nat) (r : Req) (w : Word) (rnd : BitVec 512) (stuck : BitVec 384) (s : State) : State :=
  if Fld.secKcmdGo.get w = 1 ∧ Fld.secKcmdOp.get w = op then
    regWrite s r .secKcmd 0 w (keyCommand w rnd stuck)
  else s

/-- UNWRAP_NS (R619). -/
def execUnwrapNs (r : Req) (w : Word) (s : State) : Out := .next (keyRow 1 r w 0 0 s)

/-- GEN_NS (R619): `rnd` is the draw that ended the redrawing, so its halves differ. -/
def execGenNs (r : Req) (w : Word) (rnd : BitVec 512) (s : State) : Out :=
  onlyIf (!halvesEqual rnd) s (keyRow 2 r w rnd 0 s)

/-- KZERO (R619). -/
def execKzero (r : Req) (w : Word) (s : State) : Out := .next (keyRow 3 r w 0 0 s)

/-- WRAP_NS (R619). -/
def execWrapNs (r : Req) (w : Word) (s : State) : Out := .next (keyRow 4 r w 0 0 s)

/-- WRAP_PAIR (R619). -/
def execWrapPair (r : Req) (w : Word) (s : State) : Out := .next (keyRow 5 r w 0 0 s)

/-- PROG_ROOT (R619): `stuck` has a 1 for each bit that does not burn. -/
def execProgRoot (r : Req) (w : Word) (stuck : BitVec 384) (s : State) : Out :=
  .next (keyRow 6 r w 0 stuck s)

/-- PROG_DBG (R619). -/
def execProgDbg (r : Req) (w : Word) (stuck : BitVec 384) (s : State) : Out :=
  .next (keyRow 7 r w 0 stuck s)

/-! ## Namespaces -/

/-- First tile and number of tiles of a namespace (R622). -/
def nsBase (s : State) (n : Nat) : Nat := s.get Fld.secNsBaseHiBase n * 2 ^ 32 + s.get Fld.secNsBaseLoBase n
def nsSize (s : State) (n : Nat) : Nat := s.get Fld.secNsSizeHiSize n * 2 ^ 32 + s.get Fld.secNsSizeLoSize n

/-- Two windows of tiles overlap. -/
def overlap (a la b lb : Nat) : Bool := decide (a < b + lb ∧ b < a + la)

/-- The checks that a write of 1 to VALID makes (R622), with `key` the KEYIDX then in force. -/
def nsChecks (s : State) (n key : Nat) : Bool :=
  (Tab.find key s.sec.slots).isSome && decide (1 ≤ nsSize s n)
    && decide (nsBase s n + nsSize s n ≤ ltaCount s)
    && (List.range 1024).all fun m =>
        m == n || !s.flag Fld.secNsCtlValid m || !overlap (nsBase s n) (nsSize s n) (nsBase s m) (nsSize s m)

/-- The effect of a write of SEC_NSn_CTL (R622, R624). -/
def nsCtlWrite (n : Nat) (w : Word) (s : State) : State :=
  let inUse := s.flag Fld.secNsCtlValid n || nsBusy s n
  let key := Fld.secNsCtlKeyidx.get w
  let held := inUse && key != s.get Fld.secNsCtlKeyidx n
  let s := if held then s.putFlag Fld.secStsNsErr true else s.put Fld.secNsCtlKeyidx key n
  if Fld.secNsCtlValid.get w = 0 then
    let s := if s.flag Fld.secNsCtlValid n then s.urgeNs n else s
    s.putFlag Fld.secNsCtlValid false n
  else if s.flag Fld.secNsCtlValid n then s
  else if nsChecks s n (s.get Fld.secNsCtlKeyidx n) then s.putFlag Fld.secNsCtlValid true n
  else s.putFlag Fld.secStsNsErr true

/-- The effect of a write of a BASE or SIZE register of namespace `n` (R622): held while VALID or
BUSY, with NS_ERR when the write would change it. -/
def nsFieldWrite (k : RegKind) (n : Nat) (w : Word) (s : State) : State :=
  if s.flag Fld.secNsCtlValid n || nsBusy s n then
    if writeWord k (s.reg k n) w = s.reg k n then s else s.putFlag Fld.secStsNsErr true
  else s.plainWrite k n w

/-- NS_CTL_WRITE (R622). -/
def execNsCtlWrite (r : Req) (n : Nat) (w : Word) (s : State) : Out :=
  onlyIf (decide (n < 1024)) s (regWrite s r .secNsCtl n w (nsCtlWrite n w))

/-! ## Self-tests and random bits -/

/-- A rerun of the self-tests on a spare path (R626): counted; a failure banks the engine. -/
def selfTestRun (ok : Bool) (s : State) : State :=
  let s := s.inc Fld.secStCtlRuns
  if ok then s else s.bank 0x07

/-- SELFTEST_RUN_WRITE (R626): `ok` is the outcome of the run. -/
def execSelftestRunWrite (r : Req) (w : Word) (ok : Bool) (s : State) : Out :=
  .next (regWrite s r .secStCtl 0 w fun s =>
    if Fld.secStCtlRun.get w = 1 then selfTestRun ok s else s)

/-- PERIODIC_SELFTEST (R626): every HOURS hours of P0 and P1; a HOURS of 0 turns it off. -/
def execPeriodicSelftest (ok : Bool) (s : State) : Out :=
  onlyIf (s.running && s.get Fld.secStCfgHours != 0 &&
      decide (s.sec.lastTest + s.get Fld.secStCfgHours * 3600000000000 ≤ s.now)) s
    (selfTestRun ok { s with sec := { s.sec with lastTest := s.now } })

/-- The longest run of equal samples at the front of a list. -/
def runLength : List Nat → Nat
  | [] => 0
  | [_] => 1
  | a :: b :: r => if a = b then runLength (b :: r) + 1 else 1

/-- The continuous tests of the entropy source fail on samples, newest first (R625): 32 identical in
a row, or a value more than 600 times in a window of 1,024. -/
def entropyFails (samples : List Nat) : Bool :=
  decide (32 ≤ runLength samples) ||
    (samples.take 1024).any fun x => decide (600 < ((samples.take 1024).filter (· == x)).length)

/-- RBG_HEALTH_FAIL (R625): `samples` are the raw samples up to the failing one, newest first. -/
def execRbgHealthFail (samples : List Nat) (s : State) : Out :=
  onlyIf (s.coreOn && entropyFails samples) s ((s.putFlag Fld.secStsRbgOk false).bank 0x08)

/-- LOCKSTEP_MISMATCH (R603). -/
def execLockstepMismatch (s : State) : Out := onlyIf (s.coreOn && s.sec.fbxRun) s (s.bank 0x02)

/-! ## Zeroization, lifecycle -/

/-- The keys zeroized (R628, R638): key slots, both KEKs, pair and mirror keys. -/
def zeroKeys (x : Sec) : Sec :=
  { x with slots := [], kek1 := 0, kek2 := 0, pairKey := 0, mirrorOn := false }

/-- Everything R628 overwrites with zero. -/
def zeroAll (x : Sec) : Sec :=
  { zeroKeys x with placement := 0, rbgSeeded := false, chal := none,
                    fbxData := x.fbxData.map fun _ => 0 }

/-- The debug challenge registers and CHAL cleared. -/
def State.dropChallenge (s : State) : State :=
  ({ s with sec := { s.sec with chal := none } } : State).putFlag Fld.dbgStsChal false

/-- The challenge registers set to the bytes of a challenge. -/
def regsChal (c : BitVec 384) (regs : Tab Word) : Tab Word :=
  (List.range 12).foldl (fun r i =>
    Tab.set (regReset .dbgChal i) (regKey .dbgChal i) ((c >>> (32 * i)).setWidth 32) r) regs

/-- Zeroization of the items of R628, the challenge registers with them. -/
def State.zeroize (s : State) : State :=
  let s := ({ s with sec := zeroAll s.sec } : State).putFlag Fld.dbgStsChal false
  let s := s.putFlag Fld.secStsRbgOk false
  { s with regs := regsChal 0 s.regs }

/-- The effect of a write of SEC_ZERO (R628). -/
def zeroWrite (w : Word) (s : State) : State :=
  if Fld.secZeroGo.get w = 1 ∧ Fld.secZeroConfirm.get w = 0x5A45 then s.zeroize.bank 0x09 else s

/-- ZEROIZE (R628). -/
def execZeroize (r : Req) (w : Word) (s : State) : Out :=
  .next (regWrite s r .secZero 0 w (zeroWrite w))

/-- The lifecycle transitions the engine accepts (R637). -/
def lcAllowed (old target : Nat) : Bool :=
  (old == lcManufacture && (target == lcSecured || target == lcDecom))
    || (old == lcSecured && (target == lcRma || target == lcDecom))
    || (old == lcRma && target == lcDecom)

/-- The 8 marks of a target state burned (R614, R637). -/
def burnMarks (target : Nat) (h : Hearth) : Hearth :=
  if target = lcSecured then { h with secured := 0xFF }
  else if target = lcRma then { h with rma := 0xFF }
  else { h with decom := 0xFF }

/-- The effect of a write of SEC_LC_CTL (R637, R638): a permitted one burns the marks, sets LC_NEXT
and LC_PEND, and toward RMA or DECOMMISSIONED zeroizes the keys and ends data service; any other
has no effect but the refusal's record (DEDUCED, log entry 95). -/
def lcWrite (r : Req) (w : Word) (s : State) : State :=
  let target := Fld.secLcCtlTarget.get w
  if Fld.secLcCtlGo.get w = 1 ∧ Fld.secLcCtlConfirm.get w = 0x4C43 ∧ lcAllowed (lifecycle s) target then
    let s := s.plainWrite .secLcCtl 0 w
    let s : State := { s with sec := { s.sec with row := burnMarks target s.sec.row } }
    let s := (s.put Fld.secStsLcNext target).putFlag Fld.secStsLcPend true
    if target = lcSecured then s
    else { s with sec := { zeroKeys s.sec with dataEnded := true } }
  else if r.src = 0x01 then s.putFlag Fld.secAccStsRefused true
  else s.noteRefused r.src (RegKind.secLcCtl.offset 0)

/-- LIFECYCLE_TRANSITION (R637). -/
def execLifecycleTransition (r : Req) (w : Word) (s : State) : Out :=
  .next (regWrite s r .secLcCtl 0 w (lcWrite r w))

/-- The effect of a write of SEC_STS: TAMPER is set by the firebox core alone (R635, R687). -/
def secStsWrite (r : Req) (w : Word) (s : State) : State :=
  s.plainWrite .secSts 0 (if r.src = 0x10 then w else w &&& ~~~Fld.secStsTamper.mask)

/-- TAMPER_SET (R635): a firebox write of 1 to SEC_STS.TAMPER. -/
def execTamperSet (r : Req) (w : Word) (s : State) : Out :=
  onlyIf (decide (r.src = 0x10 ∧ Fld.secStsTamper.get w = 1)) s
    (regWrite s r .secSts 0 w (secStsWrite r w))

/-! ## Debug levels -/

/-- The tamper latch (R635). -/
def tampered (s : State) : Bool := s.flag Fld.secStsTamper

/-- A challenge drawn (R633). -/
def newChal (rnd : BitVec 384) (s : State) : State :=
  let s : State := { s with sec := { s.sec with chal := some ⟨rnd, s.now + 10000000000⟩ } }
  let s : State := { s with regs := regsChal rnd s.regs }
  s.putFlag Fld.dbgStsChal true

/-- Bytes of the response registers (Table 17-8). -/
def respBytes (s : State) : List Byte := (List.range 51).flatMap fun i => wordBytes (s.reg .dbgResp i)

/-- The RESULT code of the checks of a VERIFY, in order (R634): 1 when all pass. -/
def verifyResult (s : State) : Nat :=
  let resp := respBytes s
  let pub := resp.take 97
  let level := (resp.drop 0xC4).take 1
  let scope := s.reg .dbgResp 50
  match s.sec.chal with
  | none => 2
  | some c =>
    if c.until_ ≤ s.now then 2
    else if !(lifecycle s == lcSecured || lifecycle s == lcRma) || tampered s then 3
    else if level ≠ [1] ∨ scope >>> 3 ≠ 0 then 4
    else if Config.sha384 pub ≠ s.sec.row.dbgHash then 5
    else if !Config.ecdsaVerify pub
        (bytesOf c.value 48 ++ bytesOf s.sec.row.deviceId 16 ++ level ++ [0, 0, 0] ++ wordBytes scope)
        ((resp.drop 0x64).take 48) ((resp.drop 0x94).take 48) then 6
    else 1

/-- A VERIFY (R634, R635): AUTH with the response's SCOPE, or a failure counted toward the tamper
latch; the challenge is used up. -/
def verify (s : State) : State :=
  let res := verifyResult s
  let s := (s.put Fld.dbgStsResult res).dropChallenge
  if res = 1 then
    ((s.put Fld.dbgStsLevel 1).put Fld.dbgStsScope (s.reg .dbgResp 50).toNat).put Fld.dbgStsFails 0
  else
    let s := s.inc Fld.dbgStsFails
    if 4 ≤ s.get Fld.dbgStsFails then s.putFlag Fld.secStsTamper true else s

/-- CLOSE returns AUTH to CLOSED; in OPEN it is ignored (R636). -/
def dbgClose (s : State) : State :=
  if debugLevel s = 1 then (s.put Fld.dbgStsLevel 0).put Fld.dbgStsScope 0 else s

/-- OPEN (R636): in MANUFACTURE with the tamper latch clear, the firebox core halts, the items of
R628 are zeroized, and the level is OPEN. -/
def dbgOpen (s : State) : State :=
  if lifecycle s = lcManufacture ∧ !tampered s then
    let s := s.zeroize.put Fld.dbgStsLevel 2
    let s := (s.putFlag Fld.dbgFbxCtlHalt true).putFlag Fld.dbgFbxCtlHalted true
    let s := s.put Fld.dbgFbxCtlPc s.sec.fbxPc.toNat
    { s with
      sec := { s.sec with fbxHalted := true }
      pwr := { s.pwr with wdog := Tab.del 0 s.pwr.wdog } }
  else s

/-- The effect of a write of DBG_CTL: each action whose bit is 1, from bit 31 down (R633 to R636). -/
def dbgCtlWrite (w : Word) (rnd : BitVec 384) (s : State) : State :=
  let s := if Fld.dbgCtlNewchal.get w = 1 then newChal rnd s else s
  let s := if Fld.dbgCtlVerify.get w = 1 then verify s else s
  let s := if Fld.dbgCtlClose.get w = 1 then dbgClose s else s
  if Fld.dbgCtlOpen.get w = 1 then dbgOpen s else s

/-- DBG_NEWCHAL (R633): `rnd` is the 48 B drawn. -/
def execDbgNewchal (r : Req) (w : Word) (rnd : BitVec 384) (s : State) : Out :=
  onlyIf (decide (Fld.dbgCtlNewchal.get w = 1)) s (regWrite s r .dbgCtl 0 w (dbgCtlWrite w rnd))

/-- CHALLENGE_EXPIRY (R633): 10 s after the draw. -/
def execChallengeExpiry (s : State) : Out :=
  match s.sec.chal with
  | some c => onlyIf (s.coreOn && decide (c.until_ ≤ s.now)) s s.dropChallenge
  | none => .next s

/-- DBG_VERIFY (R634). -/
def execDbgVerify (r : Req) (w : Word) (rnd : BitVec 384) (s : State) : Out :=
  onlyIf (decide (Fld.dbgCtlVerify.get w = 1)) s (regWrite s r .dbgCtl 0 w (dbgCtlWrite w rnd))

/-- DBG_CLOSE (R636). -/
def execDbgClose (r : Req) (w : Word) (rnd : BitVec 384) (s : State) : Out :=
  onlyIf (decide (Fld.dbgCtlClose.get w = 1)) s (regWrite s r .dbgCtl 0 w (dbgCtlWrite w rnd))

/-- DBG_OPEN (R636). -/
def execDbgOpen (r : Req) (w : Word) (rnd : BitVec 384) (s : State) : Out :=
  onlyIf (decide (Fld.dbgCtlOpen.get w = 1)) s (regWrite s r .dbgCtl 0 w (dbgCtlWrite w rnd))

/-- The effect of a write of DBG_FBX_CTL (Table 17-13): HALT holds or releases the firebox core, and
STEP executes one instruction while it is halted. `pc` is the byte address the core then stands at:
its instruction set is not in the spec (DESIGN CHOICE, log entry 7). -/
def fbxCtlWrite (w : Word) (pc : BitVec 19) (s : State) : State :=
  let s := s.plainWrite .dbgFbxCtl 0 w
  if Fld.dbgFbxCtlHalt.get w = 1 then
    let pc := if s.sec.fbxHalted && Fld.dbgFbxCtlStep.get w = 0 then s.sec.fbxPc else pc
    let s : State := { s with sec := { s.sec with fbxHalted := true, fbxPc := pc },
                              pwr := { s.pwr with wdog := Tab.del 0 s.pwr.wdog } }
    (s.putFlag Fld.dbgFbxCtlHalted true).put Fld.dbgFbxCtlPc pc.toNat
  else
    let due := s.now + max 1 (s.get Fld.pwrWdogCfgFbMs) * 1000000
    let s : State := { s with sec := { s.sec with fbxHalted := false },
                              pwr := { s.pwr with wdog := Tab.put 0 due s.pwr.wdog } }
    (s.putFlag Fld.dbgFbxCtlHalted false).put Fld.dbgFbxCtlPc 0

/-- DBG_FBX_HALT (R636). -/
def execDbgFbxHalt (r : Req) (w : Word) (pc : BitVec 19) (s : State) : Out :=
  .next (regWrite s r .dbgFbxCtl 0 w (fbxCtlWrite w pc))

/-- DBG_FBX_STEP (R636): a write with STEP 1. -/
def execDbgFbxStep (r : Req) (w : Word) (pc : BitVec 19) (s : State) : Out :=
  onlyIf (decide (Fld.dbgFbxCtlStep.get w = 1)) s (regWrite s r .dbgFbxCtl 0 w (fbxCtlWrite w pc))

/-! ## The firebox code view -/

/-- What a request for a view (the firebox code view, a patch RAM view) meets before its own rule:
the view takes every initiator that has an SRC of Table 17-2, at every debug level (R604, R186). -/
def viewGate (s : State) (r : Req) : Gate :=
  if !s.coreOn then .absent
  else if 5 ≤ r.vc then .decerr
  else if rawBehind s r then .waits
  else if !s.fwUp ∨ s.banked ∨ classOf r.src = none then .decerr
  else .pass

/-- A read of 1 to 64 beats lies within one 4 KiB page (R681, R45). -/
def viewReadOk (ofs beats : Nat) : Bool :=
  decide (1 ≤ beats ∧ beats ≤ 64 ∧ ofs % 4096 / 64 + beats ≤ 64)

/-- Zeros, as many as a read of `beats` beats returns. -/
def zeroBeats (beats : Nat) : List Byte := List.replicate (64 * beats) 0

/-- FIREBOX_CODE_VIEW_READ (R604): zero with OK, and XO_RD set. -/
def execFireboxCodeViewRead (r : Req) (ofs beats : Nat) (s : State) : Out :=
  match viewGate s r with
  | .absent | .waits => .next s
  | .pass =>
    if viewReadOk ofs beats then .next ((s.putFlag Fld.secStsXoRd true).respond r .ok (zeroBeats beats))
    else .next (s.respond r .decerr [])
  | _ => .next (s.respond r .decerr [])

/-- FIREBOX_CODE_VIEW_WRITE (R604): DECERR, no effect, and XO_WR set. -/
def execFireboxCodeViewWrite (r : Req) (s : State) : Out :=
  match viewGate s r with
  | .absent | .waits => .next s
  | .pass => .next ((s.putFlag Fld.secStsXoWr true).respondWrite r .decerr)
  | _ => .next (s.respondWrite r .decerr)

end Sys2Proof.Machine
end

