-- ==== Sys2Proof/Machine/ReadCore.lean ====
section
/-! DEFINITION. Reads of single codewords (chapters 7 and 8): their records, placement, the recovery ladder and stripe reconstruction. How
a read ended stands in its record; what that means to its owner is said in ReadPath.lean. -/

namespace Sys2Proof.Machine

/-! ## Read records -/

def State.rd (s : State) (id : Nat) : Option Rd := Tab.find id s.md.rds
def State.modRd (s : State) (id : Nat) (f : Rd → Rd) : State := { s with md := { s.md with rds := Tab.modify id f s.md.rds } }

/-- A new read record, and its number. -/
def State.addRd (s : State) (r : Rd) : Nat × State :=
  (s.md.rdNext, { s with md := { s.md with rds := Tab.put s.md.rdNext r s.md.rds, rdNext := s.md.rdNext + 1 } })

/-- A want or slot serves read `id`. -/
def whyRd (id : Nat) : Why → Bool
  | .rd i => i == id
  | .soft i _ => i == id
  | _ => false

/-- A read dropped with its queued wants and its buffer slots. -/
def dropOne (id : Nat) (s : State) : State :=
  match s.rd id with
  | none => s
  | some r =>
    let k := r.page.lun
    let s := modLun k (fun l => { l with queue := l.queue.filter fun w => !whyRd id w.why }) s
    let c := lunCh k
    let s := s.setChan c { s.chan c with buf := (s.chan c).buf.filter fun e => !whyRd id e.2.why }
    { s with md := { s.md with rds := Tab.del id s.md.rds } }

/-- The partners of a read. -/
def partnersOf (s : State) (id : Nat) : List Nat :=
  s.md.rds.filterMap fun e => match e.2.own with
    | .partner i _ => if i = id then some e.1 else none
    | _ => none

/-- A read dropped with its partners: the steps still running are abandoned (R273). -/
def dropRd (id : Nat) (s : State) : State := dropOne id ((partnersOf s id).foldl (fun s i => dropOne i s) s)

/-- A read has ended. -/
def endRd (id code cbc : Nat) (plain raw : List Byte) (s : State) : State :=
  s.modRd id fun r => if r.res.isSome then r else { r with res := some (code, cbc, plain, raw) }

/-- A read ends UNCORRECTABLE: ladder step 19 (R265). -/
def uncorrRd (id : Nat) (s : State) : State :=
  match s.rd id with
  | none => s
  | some r => if r.res.isSome then s else endRd id oUncorr 0xFE [] [] (s.inc Fld.cryOutCntUncorr)

/-! ## Checks (R254) -/

/-- What the checks of a decoded tile give. `tcrc` says that TCRC rejected it. -/
inductive Chk where
  | ok (plain : List Byte)
  | mismatch (lta : Nat)
  | fail (tcrc : Bool)
  deriving DecidableEq, Repr

/-- The plaintext that the metadata's own key gives (R254, R360). -/
def plainOf (s : State) (m : Meta) (data : List Byte) : Option (List Byte) :=
  if m.keyidx = 0xFFFF ∨ m.keyidx = 0xFFFE then some data
  else (keyOf s m.keyidx m.hid).map fun k => Config.xtsDecrypt k m.lta data

/-- The KEYIDX expected of a tile that is read without a namespace: whatever it bears (R397). -/
def anyKey : Nat := 0x10000

/-- The checks on the first 4,128 B of a codeword. `want`: LTA, KIND and KEYIDX that the request expects; none where it has no
expectation (patrol, samples, rebuilds). -/
def checkTile (s : State) (want : Option (Nat × Nat × Nat)) (raw : List Byte) : Chk :=
  let m := readMeta raw
  let same := match want with
    | none => true
    | some (lta, kind, key) => m.lta == lta && m.hid == s.hid && m.kind == kind && (key == anyKey || m.keyidx == key)
  match plainOf s m (raw.take 4096) with
  | none => .fail false
  | some plain =>
    if (crc32c (plain ++ (raw.drop 4096).take 0x18)).toNat = m.tcrc then (if same then .ok plain else .mismatch m.lta)
    else .fail true

/-- What a read expects of its tile. -/
def expects (r : Rd) : Option (Nat × Nat × Nat) :=
  match r.own with
  | .patrol | .rebuild _ => none
  | _ => some (r.lta, r.kind, r.keyidx)

/-! ## Busy LUNs and read-around (R298 to R302) -/

/-- The LUN is unavailable to a read-around: offline, or with a program or erase in flight or suspended. -/
def lunAway (s : State) (k : Nat) : Bool := !s.online k || progOn s k || eraseOn s k

/-- An aged program or erase stands at the head of a LUN's queue: the LUN has it in flight for R298 (R688). -/
def agedBusy (s : State) (k : Nat) : Bool := ((agedHead (s.lun k)).map fun w => decide (1 ≤ w.kind ∧ w.kind ≤ 3)).getD false

/-- A class-0 read of the LUN is to be served by read-around (R298); a read of a halted channel too (R204). -/
def lunBusy0 (s : State) (k : Nat) : Bool :=
  lunAway s k || rawHeld s k || (s.lun k).stall.isSome || agedBusy s k || s.flag Fld.stkDbgCtlHalted (lunCh k)

/-- The set, group and position of a read's codeword: by its LUN's slot, or, for a LUN that has left the set, by the lost slot that
holds its unit. -/
def whereRd (s : State) (g : Page) : Option (Nat × Nat × Grp × Nat × Nat) :=
  match groupOf s g with
  | none => none
  | some (set, n, x) =>
    let r := stepOf (s.profile g.lun) g.slc g.page
    let u := unitNo (pageUnit s g)
    let slot := match slotIn (s.set_ set) g.lun with
      | some i => some i
      | none => (List.range 18).find? fun i => x.lost.testBit i && x.unit[i]? == some u
    match slot with
    | some i => some (set, n, x, r, slotPos x.rot r i)
    | none => none

/-- The members to read for a reconstruction, and the member left out in step 3 of R299. `around`: busy LUNs are excluded too. None where
more than two members are excluded. -/
def reconPlan (s : State) (g : Page) (around : Bool) : Option (List Nat × Option Nat) :=
  match whereRd s g with
  | none => none
  | some (set, _, x, r, pos) =>
    let gone (p : Nat) : Bool :=
      let n := posSlot x.rot r p
      x.lost.testBit n || (match (s.set_ set).slots[n]? with
        | none => true
        | some k => if around then lunAway s k else !s.online k)
    let away := (List.range 18).filter fun p => p != pos && gone p
    if 2 ≤ away.length then none
    else
      let spare := if away.isEmpty then some (if pos = 17 then 16 else 17) else none
      some ((List.range 18).filter fun p => p != pos && !away.contains p && some p != spare, spare)

/-- A token of the read-around bucket taken for a page of a request, unless one has been taken for it (R302). -/
def takeRaToken (id : Nat) (r : Rd) (s : State) : Option State :=
  let had := s.md.rds.any fun e => e.1 != id && e.2.rtag == r.rtag && e.2.page == r.page && e.2.recon.isSome
      && (match e.2.own with
          | .tile _ _ => true
          | _ => false)
  if had then some s
  else if s.md.raTok = 0 then none
  else some { s with md := { s.md with raTok := s.md.raTok - 1 } }

/-! ## Queueing -/

/-- The want of a read at some offsets and ladder step. -/
def rdWant (why : Why) (r : Rd) (offs : List Int) (step : Nat) (front : Bool) : Want :=
  { why := why, cls := r.cls, rtag := r.rtag, kind := 0, page := r.page, cw := r.cw, offs := offs, step := step, front := front,
    data := [], optype := 0, arg := 0, since := 0 }

/-- The first read queued. -/
def placePlain (id : Nat) (front : Bool) (s : State) : State :=
  match s.rd id with
  | none => s
  | some r => enqueue (rdWant (.rd id) r (readOffs s r.page) 0 front) (s.modRd id fun r => { r with gaugeWait := false })

/-- The gauge line of a read asked for: placed by `go` when it is present, else once it has been fetched (R260). -/
def withGauge (id : Nat) (go : State → State) (s : State) : State :=
  match s.rd id with
  | none => s
  | some r =>
    match gline s r.page with
    | some _ => go (gaugeTouch (gaugeKey r.page) s)
    | none =>
      let asked := s.md.rds.any fun e => e.2.gaugeWait && gaugeKey e.2.page == gaugeKey r.page
      let s := s.modRd id fun r => { r with gaugeWait := true }
      if asked then s else dramRead (gaugeAddr s r.page.lun r.page.block) 64 r.cls (.gauge (gaugeKey r.page)) s

/-- A partner read asked for, at the head of its LUN queue (R301) (DEDUCED, log entry 58). -/
def askPartner (id set grpNo : Nat) (x : Grp) (row q pos : Nat) (cls rtag : Nat) (s : State) : State :=
  match memberAt s set x row pos q with
  | none => s
  | some (g, cw) =>
    let kind := if pos = 16 then kP else if pos = 17 then kQ else if x.slc then kJournal else kData
    let r : Rd := {
      own := .partner id pos
      cls := cls
      rtag := rtag
      entry := 0
      page := g
      cw := cw
      lta := 0
      keyidx := 0
      kind := kind
      spos := pos
      stripe := stripeNo set grpNo row }
    let a := s.addRd r
    withGauge a.1 (placePlain a.1 true) a.2

/-- Reconstruction of a read's member started; UNCORRECTABLE when too few members are left and nothing else runs (R265, R271,
R318). -/
def startRecon (id : Nat) (around : Bool) (s : State) : State :=
  match s.rd id with
  | none => s
  | some r =>
    match whereRd s r.page, reconPlan s r.page around with
    | some (set, n, x, row, _), some (asked, spare) =>
      let q := pageQ s r.page r.cw
      let s := s.modRd id fun r => { r with recon := some { asked := asked, spare := spare }, wantTok := false }
      asked.foldl (fun s p => askPartner id set n x row q p (if around then 0 else r.cls) r.rtag s) s
    | _, _ => if r.ladder then s else uncorrRd id s

/-- Read-around started for a class-0 read, with a token (R298, R302): false where it is not to be had. -/
def tryAround (id : Nat) (s : State) : Bool × State :=
  match s.rd id with
  | none => (false, s)
  | some r =>
    if !s.flag Fld.mapRaCfgRaEn || (reconPlan s r.page true).isNone then (false, s)
    else match takeRaToken id r s with
      | none => (false, s.inc Fld.mapC0Cnt2RaDeny)
      | some s =>
        let s := s.inc Fld.mapC0CntRa
        let s := match r.own with
          | .tile rtag _ => s.modRq rtag fun q => { q with ra := true }
          | _ => s
        (true, startRecon id true s)

/-- READ_PLACE (R272, R298): a read whose gauge line is at hand takes its way. -/
def place (id : Nat) (s : State) : State :=
  match s.rd id with
  | none => s
  | some r =>
    let s := s.modRd id fun r => { r with gaugeWait := false }
    let k := r.page.lun
    let away := !s.online k || (s.lun k).stall.isSome
    let mine := match r.own with
      | .tile _ _ => decide (r.cls = 0)
      | _ => false
    if mine && lunBusy0 s k then
      let s := if away then s.modRd id fun r => { r with ladder := false } else s
      let a := tryAround id s
      if a.1 then a.2 else if away then startRecon id false a.2 else placePlain id false a.2
    else if away then startRecon id false (s.modRd id fun r => { r with ladder := false })
    else placePlain id false s

/-- A new read of a codeword. -/
def startRd (r : Rd) (s : State) : State :=
  let a := s.addRd r
  withGauge a.1 (place a.1) a.2

/-! ## The ladder (R265 to R269, R273) -/

/-- Retry steps that a class runs (R278). -/
def ladderLimit (s : State) (cls : Nat) : Nat :=
  if cls = 0 then 16
  else min 16 (if cls = 1 then s.get Fld.cryLadderMaxC1 else if cls = 2 then s.get Fld.cryLadderMaxC2 else s.get Fld.cryLadderMaxC3)

/-- The soft step is run for a class. -/
def softOn (s : State) (cls : Nat) : Bool :=
  decide (s.get Fld.crySoftOosOos ≠ 0xFF)
    && (if cls = 0 then true
        else if cls = 1 then s.flag Fld.cryLadderSoftC1
        else if cls = 2 then s.flag Fld.cryLadderSoftC2
        else s.flag Fld.cryLadderSoftC3)

/-- The two reads of the soft step (R269); DELTA 0 acts as 1. -/
def softReads (id : Nat) (r : Rd) (s : State) : State :=
  let d : Int := max 1 (s.get Fld.crySoftCfgDelta)
  let off := readOffs s r.page
  let s := enqueue (rdWant (.soft id false) r (shiftOffs off (-d)) 17 true) s
  enqueue (rdWant (.soft id true) r (shiftOffs off d) 17 true) s

/-- Step 18 reached in the ladder's order: reconstruction starts, or runs on; where it has failed the read is over. -/
def stepRecon (id : Nat) (s : State) : State :=
  match (s.rd id).bind (·.recon) with
  | none => startRecon id false s
  | some c => if c.failed then uncorrRd id s else s

/-- The ladder's last own step is past; a partner has no step 18. -/
def endLadder (id : Nat) (s : State) : State :=
  match s.rd id with
  | none => s
  | some r =>
    let s := s.modRd id fun r => { r with ladder := false, step := 18 }
    match r.own with
    | .partner _ _ => s.modRd id fun r => { r with dec := some none }
    | _ => stepRecon id s

/-- The step after the present one of a read that is still failing. -/
def nextStep (id : Nat) (s : State) : State :=
  match s.rd id with
  | none => s
  | some r =>
    let p := s.profile r.page.lun
    if !r.ladder ∨ r.res.isSome then s
    else if r.step + 1 ≤ ladderLimit s r.cls ∧ p.ofsMethod ≠ 0 then
      let s := s.modRd id fun r => { r with step := r.step + 1 }
      enqueue (rdWant (.rd id) r (ladderOffs s r.page (r.step + 1)) (r.step + 1) true) s
    else if r.step < 17 ∧ softOn s r.cls ∧ p.ofsMethod ≠ 0 ∧ r.centre.isSome then
      softReads id r (s.modRd id fun r => { r with step := 17 })
    else endLadder id s

/-- A first decode of a class-0 read failed: step 18 starts alongside, with a token (R273). -/
def aside (id : Nat) (s : State) : State :=
  match s.rd id with
  | none => s
  | some r =>
    match r.own with
    | .tile _ _ =>
      if r.cls = 0 ∧ r.recon.isNone then
        let a := tryAround id s
        if a.1 then a.2 else a.2.modRd id fun r => { r with wantTok := true }
      else s
    | _ => s

/-- A read's decode at its present step failed. -/
def decodeFailed (id : Nat) (s : State) : State :=
  match s.rd id with
  | none => s
  | some r => nextStep id (if r.step = 0 then aside id s else s)

/-! ## Reconstruction (R294, R301) -/

/-- What parity covers of a member: its data field and its header, or a parity member's parity (R292). -/
def parityPart (pos : Nat) (cw : List Byte) : List Byte :=
  if pos < 16 then cw.take 4128 else cw.take 4096 ++ (cw.drop 4128).take 32

/-- A reconstruction that cannot be completed: the read waits for its ladder, or ends; one whose first read was never placed runs the ladder from step 0
(DEDUCED, log entry 58). -/
def reconFailed (id : Nat) (s : State) : State :=
  match s.rd id with
  | none => s
  | some r =>
    if r.ladder then
      let s := s.modRd id fun r => { r with recon := r.recon.map fun c => { c with failed := true } }
      if r.step = 0 ∧ r.centre.isNone ∧ !r.gaugeWait ∧ !(((s.lun r.page.lun).queue ++ ((s.inSlot r.page.lun).map (·.op.wants)).getD [] ++
          (((s.lun r.page.lun).op).map (·.wants)).getD []).any fun w => whyRd id w.why) then placePlain id false s else s
    else uncorrRd id s

/-- The block of a rebuilt read that needed a step after step 0 is to be refreshed (R274); a read-around of a LUN that is only busy asks for none. -/
def reconRefresh (r : Rd) (s : State) : State :=
  if r.centre.isSome ∨ r.step ≠ 0 ∨ r.ladder = false then refreshReq r.page s else s

/-- The read serves a rebuild. -/
def Rd.rebuilds (r : Rd) : Bool :=
  match r.own with
  | .rebuild _ => true
  | _ => false

/-- The member rebuilt once 16 are present; it passes through R254, and updates no gauge (R271). A rebuild writes it as it is (DEDUCED, log entry 64). -/
def tryRebuild (id : Nat) (s : State) : State :=
  match s.rd id with
  | none => s
  | some r =>
    match r.recon, whereRd s r.page with
    | some c, some (_, _, _, _, pos) =>
      if c.have_.length < 16 then s
      else match rebuild pos c.have_ with
        | none => reconFailed id s
        | some raw =>
          if r.rebuilds then endRd id oOk 0xFF [] raw s
          else match checkTile s (expects r) raw with
          | .ok plain => endRd id oOk 0xFF plain raw (reconRefresh r s)
          | .mismatch lta =>
            endRd id oMismatch 0xFF [] raw (s.logPacked uCRY 0x100B [(6, r.lta)] [(6, lta)])
          | .fail t => reconFailed id (if t then s.inc Fld.cryOutCntMiscorr else s)
    | _, _ => s

/-- A partner's member arrived, or failed (R301): a failed partner is replaced by the member left out, or awaits its own retry steps. -/
def partnerResult (pid : Nat) (s : State) : State :=
  match s.rd pid with
  | none => s
  | some r =>
    match r.own, r.dec with
    | .partner id pos, some d =>
      let good := match d with
        | none => false
        | some cw => (readMeta cw).stripe == r.stripe && (readMeta cw).spos == r.spos
      match good, d with
      | true, some cw =>
        let s := s.modRd id fun o => { o with recon := o.recon.map fun c => { c with have_ := Tab.put pos (parityPart pos cw) c.have_ } }
        tryRebuild id (dropOne pid s)
      | _, _ =>
        match (s.rd id).bind (·.recon), (s.rd id).map (·.page) with
        | some c, some pg =>
          match c.spare, whereRd s pg with
          | some sp, some (set, n, x, row, _) =>
            let s := s.modRd id fun o => { o with recon := some { c with spare := none, asked := sp :: c.asked.erase pos } }
            let q := pageQ s pg (((s.rd id).map (·.cw)).getD 0)
            askPartner id set n x row q sp r.cls r.rtag (dropOne pid s)
          | _, _ =>
            if r.ladder then nextStep pid (s.modRd pid fun r => { r with dec := none })
            else reconFailed id (dropOne pid s)
        | _, _ => dropOne pid s
    | _, _ => s

end Sys2Proof.Machine
end

