-- ==== Sys2Proof/Machine/Records.lean ====
section
/-! DEFINITION. Journal records (chapters 9 and 10): their layout, their streams, the append to a stream's open page, and the
descriptors of pan slots. -/

namespace Sys2Proof.Machine

/-- Record types (Tables 09-7 and 10-4). -/
def jMap : Nat := 0x01
def jFlushEnd : Nat := 0x02
def jReserve : Nat := 0x03
def jRelease : Nat := 0x04
def jPoison : Nat := 0x05
def jUnmap : Nat := 0x10
def jErased : Nat := 0x11
def jGroupOpen : Nat := 0x12
def jGroupUnit : Nat := 0x13
def jGroupClose : Nat := 0x14
def jRetire : Nat := 0x15
def jSlotLost : Nat := 0x16
def jSpareIn : Nat := 0x17
def jSetDrain : Nat := 0x18

/-- A record as 32 B (Table 09-6). -/
def recordBytes (r : JRec) : List Byte :=
  numBytes 1 r.rtype ++ [0] ++ numBytes 6 r.lta ++ numBytes 8 r.seq ++ numBytes 8 r.newPa ++ numBytes 8 r.oldPa

/-- Streams of the journal (R346). -/
def streamCount (s : State) : Nat := max 1 s.img.geo.streams

/-- The stream of an LTA's records (R346). -/
def streamOf (s : State) (lta : Nat) : Nat := (crc32c (numBytes 6 lta)).toNat % streamCount s

/-- A journal stream. -/
def State.stream (s : State) (k : Nat) : Stream := Tab.get {} k s.wp.streams
def State.setStream (s : State) (k : Nat) (x : Stream) : State := { s with wp := { s.wp with streams := Tab.put k x s.wp.streams } }

/-- A stream has 2^28 records beyond the checkpoint's pointer (R385). -/
def streamFull (x : Stream) : Bool := decide (2 ^ 28 ≤ x.since_ckpt)

/-- A record appended to a stream's open page; the page waits at most JRN_WAIT from its first record (R348). Under a power-fail trip only
FLUSH_END is appended (R358). -/
def jAppend (k : Nat) (r : JRec) (s : State) : State :=
  if s.wp.pfail && r.rtype != jFlushEnd then s
  else
    let x := s.stream k
    let s := s.setStream k { x with
      page := x.page ++ [r]
      since := if x.page.isEmpty then s.now else x.since
      since_ckpt := x.since_ckpt + 1 }
    if streamFull (s.stream k) then s.putFlag Fld.mapCkptStsHeld true else s

/-- Several records appended. -/
def jAppendAll (k : Nat) (l : List JRec) (s : State) : State := l.foldl (fun s r => jAppend k r s) s

/-- The next SEQ (R334). -/
def nextSeq (s : State) : Nat × State := (s.wp.seq, { s with wp := { s.wp with seq := s.wp.seq + 1 } })

/-! ## Slots and descriptors (R330 to R333) -/

/-- Descriptor bytes 0x00 to 0x13 (Table 09-3). -/
def descHead (p : Pan) (st : Nat) : List Byte :=
  numBytes 6 p.lta ++ numBytes 2 p.hid ++ numBytes 8 p.seq ++ numBytes 2 p.keyidx ++ numBytes 1 st ++ numBytes 1 p.urgent.toNat

/-- A descriptor: `crc` is the CRC register after the slot's stored bytes (R331). -/
def descBytes (p : Pan) (st : Nat) (crc : Word) : List Byte :=
  descHead p st ++ numBytes 4 (crcReg crc (descHead p st) ^^^ 0xFFFFFFFF).toNat ++ numBytes 8 p.admTime ++ numBytes 8 p.oldPa ++ numBytes 8 p.newPa ++ List.replicate 16 0

/-- An own slot. -/
def State.pan (s : State) (slot : Nat) : Option Pan := Tab.find slot s.wp.own
def State.modPan (s : State) (slot : Nat) (f : Pan → Pan) : State := { s with wp := { s.wp with own := Tab.modify slot f s.wp.own } }
def State.putPan (s : State) (slot : Nat) (p : Pan) : State := { s with wp := { s.wp with own := Tab.put slot p s.wp.own } }
def State.delPan (s : State) (slot : Nat) : State := { s with wp := { s.wp with own := Tab.del slot s.wp.own } }

/-- The state of an own slot written into its descriptor, on VC 2 (R689). -/
def writeDesc (slot : Nat) (s : State) : State :=
  match s.pan slot with
  | none => dramWrite (descAddr s.img.hold.panBase slot) 2 (List.replicate 64 0) .descWrite s
  | some p => dramWrite (descAddr s.img.hold.panBase slot) 2 (descBytes p p.st p.dcrc) .descWrite s

/-- The MAP record of a copy appended once its entry has been changed, its page has closed and its row's parity has passed (R344). -/
def recordPan (slot : Nat) (s : State) : State :=
  match s.pan slot with
  | none => s
  | some p =>
    if p.st = 0x13 ∧ p.mapped ∧ p.closed ∧ p.rowDone ∧ !p.appended then
      jAppend (streamOf s p.lta) ⟨jMap, p.lta, p.seq, p.newPa, p.oldPa⟩ (s.modPan slot fun p => { p with appended := true })
    else s

end Sys2Proof.Machine
end

