-- ==== Sys2Proof/Machine/Recon.lean ====
section
/-! DEFINITION. Copies at the twin (chapter 9): slots, the jobs that send a copy to the partner, read one back or release one, and the steps of
reconciliation (R356) that wait on reads. -/

namespace Sys2Proof.Machine

/-! ## Slots -/

/-- Slots of the own and mirror regions (R330). -/
def ownSlots (s : State) : Nat := s.img.hold.panSize / 4160
def mirSlots (s : State) : Nat := s.img.hold.mirSize / 4160

/-- An own slot freed. -/
def freeSlot (slot : Nat) (s : State) : State := writeDesc slot (s.delPan slot)

/-- The lowest index from `i` on that a table does not list. -/
def firstFree : Tab α → Nat → Nat
  | [], i => i
  | (a, _) :: r, i => if a = i then firstFree r (i + 1) else firstFree r i

/-! ## Mirror copies (R344, R345, R354) -/

/-- The twin takes mirror writes: it is reachable, or being reconciled (R329). -/
def mirroring (s : State) : Bool := s.get Fld.mapTwinStsState == 1 || s.get Fld.mapTwinStsState == 2

/-- The CRC register after the 4,096 B of a copy as its mirror slot holds them. -/
def mirCrc (s : State) (p : Pan) (plain : List Byte) : Word := crcReg 0xFFFFFFFF (Config.xtsEncrypt (mirrorKeyOf s p.hid) p.lta plain)

/-- A copy sent to the twin again (R356, R354): its slot read, then the mirror copy and its descriptor written. -/
def reconJob (s : State) (slot : Nat) (p : Pan) : Job × State :=
  let a := s.nextPort
  let h := s.img.hold
  let tw := (s.img.twin.map (·.peerMir)).getD 0
  let j : Job := {
    path := .recon slot
    prio := 1
    vc := 3
    port := a.1
    age := p.rtag
    prog := [moveWord false 0 0 0 0 4095 0 (slotAddr h.panBase (ownSlots s) slot),
      moveWord false 1 1 0 0 4095 0 (slotAddr tw s.wp.twin.peerSlots slot), moveWord true 1 0 0 4096 63 0 (descAddr tw slot)]
    init := bufPut 4096 (descBytes { p with mirAt := slot } 0x21 0) []
    crypt := some (mirrorKeyOf s p.hid, p.lta)
    c0 := false }
  (j, a.2)

/-- A copy queued to be sent to the twin; it counts as under reconciliation until it has been answered. -/
def resend (slot : Nat) (s : State) : State :=
  match s.pan slot with
  | none => s
  | some p =>
    let a := reconJob s slot p
    let s := (a.2.queueJob a.1).modPan slot fun p => { p with mirAt := slot, mirOld := if p.mirAt = slot then p.mirOld else some p.mirAt }
    { s with wp := { s.wp with twin := { s.wp.twin with todo := slot :: s.wp.twin.todo.erase slot } } }

/-- The posted write that releases a mirror copy in the partner (STATE 0x2F, R344). -/
def releaseMirror (p : Pan) (s : State) : State :=
  let a := s.nextPort
  a.2.queueJob {
    path := .desc
    prio := 1
    vc := 3
    port := a.1
    age := p.rtag
    prog := [moveWord true 1 0 0 0 63 0 (descAddr ((s.img.twin.map (·.peerMir)).getD 0) p.mirAt)]
    init := bufPut 0 (descBytes p 0x2F p.mcrc) []
    crypt := none
    c0 := false }

/-- The job that writes a recovered copy into a slot (journal handoff, Table 12-1): read from the partner, or present in its buffer. -/
def handoffJob (s : State) (slot : Nat) (p : Pan) (src : Option Nat) (data : List Byte) (tries : Nat) : Job × State :=
  let a := s.nextPort
  let h := s.img.hold
  let w := [moveWord false 1 0 0 0 4095 0 (slotAddr h.panBase (ownSlots s) slot), moveWord true 1 0 0 4096 63 0 (descAddr h.panBase slot)]
  let j : Job := {
    path := .handoff slot
    prio := 1
    vc := 3
    port := a.1
    age := p.rtag
    prog := match src with
      | some x => moveWord false 0 1 0 0 4095 0 x :: w
      | none => w
    init := bufPut 4096 (descBytes p 0x11 0) (bufPut 0 data [])
    crypt := some (mirrorKeyOf s p.hid, p.lta)
    c0 := false
    tries := tries }
  (j, a.2)

/-- A copy read back from the partner's slot into a new own slot (R345, R356); counted in REFETCH. False where no slot is free (DEDUCED, log entry 62). -/
def readBack (p : Pan) (s : State) : Bool × State :=
  let slot := firstFree s.wp.own 0
  if ownSlots s ≤ slot then (false, s)
  else
    let s := (s.putPan slot { p with st := 0x11, staged := false, back := true }).inc Fld.mapTwinStsRefetch
    let src := slotAddr ((s.img.twin.map (·.peerMir)).getD 0) s.wp.twin.peerSlots p.mirAt
    let a := handoffJob s slot p (some src) [] 0
    (true, a.2.queueJob a.1)

/-! ## Reconciliation (R356) -/

/-- What the twin protocol holds, changed. -/
def State.modTwin (s : State) (f : Twin → Twin) : State := { s with wp := { s.wp with twin := f s.wp.twin } }

/-- The read of a descriptor of the partner's mirror region, as class-3 work. -/
def readDesc (slot : Nat) (s : State) : State :=
  let a := s.nextPort
  a.2.issue (mkReq a.1 3 .rd (descAddr ((s.img.twin.map (·.peerMir)).getD 0) slot) 64 []) (.mirDesc slot)

/-- A descriptor of a valid mirror copy of this engine's tiles (Tables 09-3 and 09-4). -/
def descOf (s : State) (slot : Nat) (b : List Byte) : Option MirDesc :=
  let n (o k : Nat) : Nat := bytesNum ((b.drop o).take k)
  if n 0x12 1 = 0x21 ∧ n 6 2 % 2 ^ 14 = s.hid then
    some { slot := slot, lta := n 0 6, seq := n 8 8, keyidx := n 0x10 2, admTime := n 0x18 8, tcrc := n 0x14 4 }
  else none

/-- The descriptor of a mirror copy as an own slot would hold it. -/
def descPan (s : State) (d : MirDesc) : Pan := {
  st := 0x11
  lta := d.lta
  hid := s.hid
  seq := d.seq
  keyidx := d.keyidx
  urgent := false
  admTime := d.admTime
  oldPa := 0
  newPa := 0
  mirAt := d.slot }

/-- TCRC of the mirror copy of an own copy (R331). -/
def mirTcrc (p : Pan) : Nat := (crcReg p.mcrc (descHead p 0x21) ^^^ 0xFFFFFFFF).toNat

/-- A copy read back, with its slot among those under reconciliation. -/
def fetchBack (d : MirDesc) (s : State) : State :=
  let slot := firstFree s.wp.own 0
  let a := readBack (descPan s d) s
  if a.1 then a.2.modTwin fun t => { t with todo := slot :: t.todo } else a.2

/-- A mirror copy let go, unless an own copy stands at its index, whose own mirror copy takes its place there (DEDUCED, log entry 41). -/
def letGo (d : MirDesc) (s : State) : State :=
  if (s.pan d.slot).any fun p => p.st != 0 then s else releaseMirror (descPan s d) s

/-- Step 3 once the SEQ of the mapped member is known, 0 where the map names none: the copy is read back where it is newer and no own copy has overtaken it;
else it is released. -/
def probed (slot seq : Nat) (s : State) : State :=
  match s.wp.twin.probes.find? fun d => d.slot == slot with
  | none => s
  | some d =>
    let s := s.modTwin fun t => { t with probes := t.probes.erase d }
    if (s.wp.own.any fun e => e.2.lta == d.lta && e.2.st != 0 && decide (d.seq ≤ e.2.seq)) || decide (d.seq ≤ seq) then letGo d s
    else fetchBack d s

/-- The map entry of an LTA is known: the members that it names are read for the mirror copies that wait for it; a map entry that names none has no SEQ
(DEDUCED, log entry 41). -/
def probeEntry (lta e : Nat) (s : State) : State :=
  let busy (d : MirDesc) : Bool := s.md.rds.any fun r => r.2.own == .recon d.slot
  (s.wp.twin.probes.filter fun d => d.lta == lta && !busy d).foldl (fun s d =>
    if entState e ≠ 1 ∨ !entryInGeometry s e then probed d.slot 0 s
    else startRd {
      own := .recon d.slot
      cls := 3
      rtag := 0
      entry := e
      page := entPage s e
      cw := entCw e
      lta := lta
      keyidx := anyKey
      kind := kData } s) s

/-- LTAs that reconciliation asks the map about. -/
def probeLtas (s : State) : List Nat := (s.wp.twin.probes.map (·.lta)).eraseDups

end Sys2Proof.Machine
end

