-- ==== Sys2Proof/Machine/Mapping.lean ====
section
/-! DEFINITION. Translation (chapter 10): the map cache, the demand-paged map, lookups, updates, prefetch and repair. -/

namespace Sys2Proof.Machine

/-! ## Where the map lies (R374 to R376, R388) -/

/-- The map runs demand-paged (R101). -/
def demandMap (s : State) : Bool := s.flag Fld.glbBootStsDemandMap

/-- Address of a pool slot: a map tile, then its 64 B header (R388; DEDUCED, log entry 23). -/
def poolAddr (s : State) (slot : Nat) : Nat := s.img.geo.mapBase + 4160 * slot

/-- DRAM address of a line of 8 entries: none where its map tile is not resident. -/
def lineAddr (s : State) (line : Nat) : Option Nat :=
  if demandMap s then (s.dirOf (line / 64)).slot.map fun p => poolAddr s p + 64 * (line % 64)
  else some (s.img.geo.mapBase + 64 * line)

/-- Entries of a line from its 64 bytes, the overlay's merged in (R393). -/
def lineEnts (s : State) (line : Nat) (data : List Byte) : List Nat :=
  (List.range 8).map fun i =>
    let e := bytesNum ((data.drop (8 * i)).take 8)
    if demandMap s then Tab.get e (8 * line + i) s.md.ovl else e

/-- DRAM addresses of the overlay entry of an LTA (R389; DESIGN CHOICE, log entry 125) and of the directory entry of its map tile (R376). -/
def ovlAddr (s : State) (lta : Nat) : Nat := s.img.geo.ovlBase + 16 * (Config.overlaySlot lta % max 1 (s.img.geo.ovlSize / 16))
def dirAddr (s : State) (mt : Nat) : Nat := s.img.geo.dirBase + 16 * mt

/-- An overlay entry as bytes (R389). -/
def ovlBytes (lta e : Nat) : List Byte := numBytes 6 lta ++ numBytes 2 0 ++ numBytes 8 e

/-- The bytes of a line. -/
def entsBytes (l : List Nat) : List Byte := l.flatMap (numBytes 8)

/-! ## The map cache (R391 to R394) -/

def cacheEn (s : State) : Bool := s.flag Fld.mapCcCtlEn
def cacheFlushing (s : State) : Bool := s.flag Fld.mapCcStsFlushing

/-- Lines are filled: the cache is on and not being flushed. -/
def cacheFills (s : State) : Bool := cacheEn s && !cacheFlushing s

/-- The line, if it is present and filled. -/
def cacheHas (s : State) (line : Nat) : Option MLine :=
  if cacheEn s || cacheFlushing s then
    match Tab.find line s.md.cache with
    | some l => if l.ents.isEmpty then none else some l
    | none => none
  else none

def State.setLine (s : State) (line : Nat) (l : MLine) : State := { s with md := { s.md with cache := Tab.put line l s.md.cache } }
def State.delLine (s : State) (line : Nat) : State := { s with md := { s.md with cache := Tab.del line s.md.cache } }

/-- One step of the LFSR (R392). -/
def lfsrStep (x : BitVec 16) : BitVec 16 :=
  let b := x.getLsbD 0 ^^ x.getLsbD 2 ^^ x.getLsbD 3 ^^ x.getLsbD 5
  (x >>> 1) ||| (BitVec.ofNat 16 b.toNat <<< 15)

/-- The lines of a line's set. -/
def cacheSet (s : State) (line : Nat) : Tab MLine := s.md.cache.filter fun e => e.1 % 16384 == line % 16384

/-- A way chosen by the LFSR, chosen again while it names a line with a fill in flight; a prefetch whose choice has named a dirty line three times in a row is
dropped (`n` counts them). `fuel` bounds the choices. -/
def pickWay (set : Tab MLine) (prefetch : Bool) : Nat → Nat → BitVec 16 → Option (Nat × BitVec 16)
  | 0, _, _ => none
  | fuel + 1, n, x =>
    let w := x.toNat % 16
    match set.find? fun e => e.2.way == w with
    | none => some (w, x)
    | some e =>
      if e.2.ents.isEmpty || e.2.wb then pickWay set prefetch fuel 0 (lfsrStep x)
      else if prefetch && e.2.dirty then (if 2 ≤ n then none else pickWay set prefetch fuel (n + 1) (lfsrStep x))
      else some (w, x)

/-- A dirty line written back to DRAM. -/
def writeBack (line cls : Nat) (s : State) : State :=
  match Tab.find line s.md.cache, lineAddr s line with
  | some l, some a =>
    let s := s.setLine line { l with dirty := false, wb := true, wbFail := none }
    dramWrite a cls (entsBytes l.ents) (.mapWrite line) s
  | _, _ => s

/-- The read of a line from DRAM. -/
def readLine (line cls : Nat) (s : State) : State :=
  match lineAddr s line with
  | some a => dramRead a 64 cls (.mapFill line) { s with md := { s.md with fills := line :: s.md.fills } }
  | none => s

/-- A line fetched: into the way the LFSR names, its dirty line written back first; without a fill where the cache takes none or no
way can be had. Free ways are taken first (DEDUCED, log entry 21). -/
def fetchLine (line cls : Nat) (prefetch : Bool) (s : State) : State :=
  if s.md.fills.contains line || s.md.fillWait.any (fun x => x.1 == line) then s
  else if !cacheFills s then (if prefetch then s else readLine line cls s)
  else
    let set := cacheSet s line
    let free := (List.range 16).find? fun w => !set.any fun e => e.2.way == w
    let pick := match free with
      | some w => some (w, s.md.lfsr)
      | none => pickWay set prefetch 64 0 s.md.lfsr
    match pick with
    | none => if prefetch then s else readLine line cls s
    | some (w, x) =>
      let s := { s with md := { s.md with lfsr := x, prefetch := if prefetch then line :: s.md.prefetch else s.md.prefetch } }
      match set.find? fun e => e.2.way == w with
      | none => readLine line cls (s.setLine line { way := w, ents := [] })
      | some (v, l) =>
        if l.dirty then
          let s := { s with md := { s.md with fillWait := s.md.fillWait ++ [(line, v, cls)] } }
          writeBack v cls s
        else readLine line cls ((s.delLine v).setLine line { way := w, ents := [] })

/-! ## Entries -/

/-- The unit whose VALID counts a MAPPED entry. -/
def entUnit (s : State) (e : Nat) : Nat := pageUnit s (entPage s e)

/-- VALID of the old and the new unit of an entry that changes (R378). -/
def moveValid (old new : Nat) (s : State) : State :=
  let s := if entState old = 1 then putUnit (entUnit s old) (fun u => { u with valid := u.valid - 1 }) s else s
  if entState new = 1 then putUnit (entUnit s new) (fun u => { u with valid := u.valid + 1 }) s else s

/-- What an update brings about beside the entry: OLD_PA of a pan copy; the UNMAP record of an unmap (R380). -/
def updDone (u : MUpd) (old : Nat) (s : State) : State :=
  let s := { s with md := { s.md with mapNow := Tab.put u.lta u.new s.md.mapNow } }
  match u.who with
  | .pan slot => recordPan slot (writeDesc slot (s.modPan slot fun p => { p with oldPa := old, mapped := true }))
  | .unmap rtag i =>
    let a := nextSeq s
    let s := a.2.modRq rtag fun q => { q with waitFor := (q.waitFor.erase (i, u.lta, 0)) ++ [(i, u.lta, a.1)] }
    jAppend (streamOf s u.lta) ⟨jUnmap, u.lta, a.1, 0, old⟩ s
  | .reloc n => { s with md := { s.md with relocs := Tab.modify n (fun r => { r with st := 4, new := u.new }) s.md.relocs } }
  | .rebuilt seq => jAppend (streamOf s u.lta) ⟨jMap, u.lta, seq, u.new, old⟩ s
  | .plain => s

/-- An update that a relocation makes applies only where the entry still holds the address read (R16), and the relocation has not been abandoned (R398). -/
def updApplies (s : State) (u : MUpd) (old : Nat) : Bool :=
  (match u.only with
   | none => true
   | some x => x == old)
  && (match u.who with
   | .reloc n => ((Tab.find n s.md.relocs).map fun r => r.st == 2).getD false
   | _ => true)

/-- An update applied to entries of its line: the new entries and the state. -/
def applyTo (u : MUpd) (ents : List Nat) (s : State) : Option (List Nat) × State :=
  let old := (ents[u.lta % 8]?).getD 0
  if updApplies s u old then (some (ents.set (u.lta % 8) u.new), updDone u old (moveValid old u.new s)) else (none, s)

/-- A line written with its entries (R391, R394): in the cache, or in DRAM where the cache does not take it. -/
def storeLine (line : Nat) (ents : List Nat) (s : State) : State :=
  match cacheHas s line with
  | some l =>
    if cacheFlushing s then
      match lineAddr s line with
      | some a => dramWrite a 3 (entsBytes ents) (.mapWrite (2 ^ 60 + line)) (s.delLine line)
      | none => s.setLine line { l with ents := ents, dirty := true }
    else s.setLine line { l with ents := ents, dirty := true }
  | none =>
    match lineAddr s line with
    | some a => dramWrite a 3 (entsBytes ents) (.mapWrite (2 ^ 60 + line)) s
    | none => s

/-- The map tile of an LTA marked DIRTY (R376). -/
def dirtyTile (lta : Nat) (s : State) : State := s.modDir (lta / 512) fun d => { d with dirty := true }

/-- Overlay entries that fit (R389): 16 B each. -/
def overlayFull (s : State) : Bool := decide (s.img.geo.ovlSize / 16 ≤ s.md.ovl.length)

/-- An entry changed (R388, R391): in its line, which is filled first where it is absent; in the overlay where its map tile is not
resident, no tile being read for it. There the value before is the one last set since start-up; where there has been no change, an update bound to an
address finds that address (R16; DEDUCED, log entry 122), and else it is a free value (DESIGN CHOICE, log entry 22) (DESIGN CHOICE, log entry 63). -/
def mapUpdate (u : MUpd) (cls : Nat) (s : State) : State :=
  let line := u.lta / 8
  match cacheHas s line with
  | some l =>
    match applyTo u l.ents s with
    | (some ents, s) => dirtyTile u.lta (storeLine line ents s)
    | (none, s) => s
  | none =>
    if demandMap s && (s.dirOf (u.lta / 512)).slot.isNone then
      if overlayFull s then { s with md := { s.md with upds := s.md.upds ++ [u] } }
      else
        let a : Nat × State := match Tab.find u.lta s.md.ovl with
          | some e => (e, s)
          | none =>
            if (s.dirOf (u.lta / 512)).loc = 0 then (0, s)
            else match Tab.find u.lta s.md.mapNow, u.only with
              | some e, _ => (e, s)
              | none, some e => (e, s)
              | none, none => (s.fresh.1.toNat, s.fresh.2)
        if updApplies a.2 u a.1 then
          let s := updDone u a.1 (moveValid a.1 u.new a.2)
          let s := { s with md := { s.md with ovl := Tab.put u.lta u.new s.md.ovl } }
          dramWrite (ovlAddr s u.lta) cls (ovlBytes u.lta u.new) (.mapWrite (2 ^ 61)) s
        else a.2
    else fetchLine line cls false { s with md := { s.md with upds := s.md.upds ++ [u] } }

/-! ## Lookups -/

/-- The newest own copy of an LTA that a read is served from (R15), or waits for while it is read back from the twin (R345). -/
def panCopy (s : State) (lta : Nat) : Option (Nat × Pan) :=
  (s.wp.own.filter fun e => e.2.lta == lta && e.2.st != 0 && (e.2.staged || e.2.back) && !e.2.withheld).foldl
    (fun a e => match a with
      | none => some e
      | some b => if b.2.seq ≤ e.2.seq then some e else some b) none

/-- Bytes of zero, one tile. -/
def zeroTile : List Byte := List.replicate 4096 0

/-- A read of a tile counted on a hot LUN; at RCNT it is queued to the rake (R312). -/
def countHot (lta k : Nat) (s : State) : State :=
  if !(s.lun k).hot then s
  else
    let t := s.md.hotTab
    let t := match t.find? fun e => e.1 == lta with
      | some e => t.map fun x => if x.1 == lta then (lta, e.2.1 + 1, k) else x
      | none =>
        if t.length < 4096 then t ++ [(lta, 1, k)]
        else
          let low := t.foldl (fun a e => min a e.2.1) 0xFFFFFFFF
          match t.findIdx? fun e => e.2.1 == low with
          | some j => t.set j (lta, 1, k)
          | none => t
    let n : Nat := ((t.find? fun e => e.1 == lta).map fun e => e.2.1).getD 0
    let s := { s with md := { s.md with hotTab := t } }
    if max 1 (s.get Fld.mapHotCfgRcnt) ≤ n ∧ !s.md.hotQ.contains lta then { s with md := { s.md with hotQ := s.md.hotQ ++ [lta] } } else s

/-- What a tile's map entry leads to (R371, R372). -/
def resolve (rtag i e : Nat) (s : State) : State :=
  let s := s.modTile rtag i fun t => { t with mapWait := false, looked := true, entry := e }
  match s.rq rtag, s.tile rtag i with
  | some q, some t =>
    if entState e = 0 then tileOutcome rtag i oUnmapped 0 zeroTile s
    else if entState e = 2 then tileOutcome rtag i oUncorr 0xFE [] s
    else if entState e = 3 then tileOutcome rtag i oUncorr 0xFE [] (s.logPacked uMAP 0x100E [(6, t.lta)])
    else if !entryInGeometry s e then tileOutcome rtag i oUncorr 0xFE [] (s.logPacked uMAP 0x100E [(6, t.lta)])
    else
      let r : Rd := {
        own := .tile rtag i
        cls := q.order
        rtag := rtag
        entry := e
        page := entPage s e
        cw := entCw e
        lta := t.lta
        keyidx := q.keyidx
        kind := kData }
      startRd r (countHot t.lta (entLun e) s)
  | _, _ => s

/-- LTAs put under repair (R395). -/
def markRepair (l : List Nat) (s : State) : State :=
  { s with md := { s.md with repair := s.md.repair ++ l.filter fun x => !s.md.repair.contains x } }

/-- The tiles that wait for a map entry, as (request tag, tile, LTA). -/
def waiters (s : State) : List (Nat × Nat × Nat) :=
  s.reqs.flatMap fun e => (e.2.tiles.zipIdx.filter fun x => x.1.mapWait).map fun x => (e.1, x.2, x.1.lta)

/-- A map tile's copy is being read for the media, or stands in a row that is not done. -/
def tileWriting (s : State) (mt : Nat) : Bool :=
  (s.fab.outst.any fun o => o.purpose == .ckptRead mt) || (s.fab.waiting.any fun w => w.2 == .ckptRead mt) || (s.fab.held.any fun w => w.2 == .ckptRead mt)
    || (s.md.ckParts.any fun x => x.1 == mt) || s.md.rows.any fun r => r.2.mem.any fun m => m.2.own == .mapTile mt

/-- A pool slot for a map tile (R390): a free one, else by the clock sweep, which skips slots whose tile is DIRTY, or is being written to the media, or
has overlay entries. -/
def pickPool (s : State) : Option Nat :=
  let n := s.img.geo.poolSize / 4160
  let usable (p : Nat) : Bool := match Tab.find p s.md.pool with
    | none => true
    | some mt => !(s.dirOf mt).dirty && !tileWriting s mt && !(s.md.ovl.any fun e => e.1 / 512 == mt) && (Tab.find mt s.md.loads).isNone
  match (List.range n).find? fun p => (Tab.find p s.md.pool).isNone && !(s.md.loads.any fun e => e.2 == p) with
  | some p => some p
  | none => (List.range n).find? (fun d => usable ((s.md.hand + d) % n)) |>.map fun d => (s.md.hand + d) % n

/-- Step 1 of R382: dirty map tiles read for their copies. DIRTY clears as the copy is taken (DEDUCED, log entry 29). -/
def readTiles (l : List Nat) (s : State) : State :=
  l.foldl (fun s mt =>
    match (if demandMap s then (s.dirOf mt).slot.map (poolAddr s) else some (s.img.geo.mapBase + 4096 * mt)) with
    | some a => dramRead a 4096 3 (.ckptRead mt) (s.modDir mt fun d => { d with dirty := false })
    | none => s) s

/-- No slot can be reused: the next DIRTY tile of the sweep without overlay entries is written to the media, unless one is on its way (R390). -/
def evictTile (s : State) : State :=
  let n := s.img.geo.poolSize / 4160
  let mts := (List.range n).filterMap fun d => Tab.find ((s.md.hand + d) % n) s.md.pool
  if mts.any (tileWriting s) then s
  else match mts.find? fun mt => (s.dirOf mt).dirty && !(s.md.ovl.any fun e => e.1 / 512 == mt) with
  | some mt => readTiles [mt] s
  | none => s

/-- A map tile's read from the media into a pool slot, at the class of the request (R388); without a slot it waits for one. -/
def loadTile (mt cls : Nat) (s : State) : State :=
  if (Tab.find mt s.md.loads).isSome then s
  else match pickPool s with
  | none =>
    evictTile (if s.md.loadWait.any fun x => x.1 == mt then s else { s with md := { s.md with loadWait := s.md.loadWait ++ [(mt, cls)] } })
  | some p =>
    let s := match Tab.find p s.md.pool with
      | some old => s.modDir old fun d => { d with slot := none }
      | none => s
    let s := { s with md := { s.md with
        pool := Tab.del p s.md.pool, loads := Tab.put mt p s.md.loads, hand := p + 1
        cache := s.md.cache.filter fun e => e.2.dirty || !(Tab.find p s.md.pool == some (e.1 / 64)) } }
    let e := (s.dirOf mt).loc
    let r : Rd := {
      own := .mapTile mt
      cls := cls
      rtag := 0
      entry := e
      page := entPage s e
      cw := entCw e
      lta := 0xF00000000000 + mt
      keyidx := 0xFFFF
      kind := kData }
    startRd r s

/-- The map tiles that wait for a pool slot try again. -/
def retryLoads (s : State) : State :=
  s.md.loadWait.foldl (fun s x => loadTile x.1 x.2 s) { s with md := { s.md with loadWait := [] } }

/-- The map walker's read of the overlay, or of the directory, for an LTA (R388, R689), unless one is out. -/
def walkRead (lta cls : Nat) (dir : Bool) (s : State) : State :=
  let p : Purpose := .walk lta cls dir
  if (s.fab.outst.any fun o => o.purpose == p) || (s.fab.waiting.any fun w => w.2 == p) || s.fab.held.any fun w => w.2 == p then s
  else dramRead (if dir then dirAddr s (lta / 512) else ovlAddr s lta) 16 cls p s

/-- The tiles that wait for the entry of an LTA. -/
def ltaWaiters (s : State) (lta : Nat) : List (Nat × Nat × Nat) := (waiters s).filter fun x => x.2.2 == lta

/-- The entry of an LTA looked up for a tile (R388): the cache, then in demand-paged mode the overlay, read from appliance DRAM; in full mode the
map. -/
def lookupTile (rtag i lta cls : Nat) (s : State) : State :=
  let line := lta / 8
  match cacheHas s line with
  | some l => resolve rtag i ((l.ents[lta % 8]?).getD 0) (s.inc Fld.mapCcHitHit)
  | none =>
    let s := (s.inc Fld.mapCcMissMiss).modTile rtag i fun t => { t with mapWait := true }
    if demandMap s then walkRead lta cls false s else fetchLine line cls false s

/-- The entry of an LTA looked up for reconciliation, as class-3 work (R356). -/
def probeLookup (s : State) (lta : Nat) : State :=
  match cacheHas s (lta / 8) with
  | some l => probeEntry lta ((l.ents[lta % 8]?).getD 0) (s.inc Fld.mapCcHitHit)
  | none =>
    let s := s.inc Fld.mapCcMissMiss
    if demandMap s then walkRead lta 3 false s else fetchLine (lta / 8) 3 false s

/-- A lookup for reconciliation has failed: the mirror copy stays as it is (DEDUCED, log entry 41). -/
def probeDrop (p : Nat → Bool) (s : State) : State := s.modTwin fun t => { t with probes := t.probes.filter fun d => !p d.lta }

/-- The answer to a read of the map walker. The overlay: its entry, or the directory is read next. The directory: the line of a resident map
tile, or the tile's read from the media (R388). On DECERR the tiles end UNCORRECTABLE (Table 02-10); on DATAERR the LTA, or every LTA of the map tile
of a directory entry, goes to repair (R395; DEDUCED for the overlay, log entry 125). -/
def walked (lta cls : Nat) (dir : Bool) (code : RCode) (s : State) : State :=
  let ws := ltaWaiters s lta
  let all (v : Nat) (s : State) : State := probeEntry lta v (ws.foldl (fun s x => resolve x.1 x.2.1 v s) s)
  let d := s.dirOf (lta / 512)
  match code with
  | .ok =>
    if ws.isEmpty && !(probeLtas s).contains lta then s
    else if !dir then
      match Tab.find lta s.md.ovl with
      | some e => all e s
      | none => walkRead lta cls true s
    else if d.slot.isSome then fetchLine (lta / 8) cls false s
    else if entState d.loc ≠ 1 then all 0 s
    else loadTile (lta / 512) cls s
  | .dataerr =>
    markRepair (if dir then (List.range 512).map (512 * (lta / 512) + ·) else [lta])
      (ws.foldl (fun s x => s.modTile x.1 x.2.1 fun t => { t with mapWait := false }) s)
  | _ =>
    let s := s.logPacked uMAP (Config.eventCode 56) [(6, lta)]
    probeDrop (· == lta)
      (ws.foldl (fun s x => tileOutcome x.1 x.2.1 oUncorr 0xFE [] (s.modTile x.1 x.2.1 fun t => { t with mapWait := false, looked := true })) s)

/-- The pan copy of a tile asked for (R15): a mover reads the slot for the host read; a poisoned copy is UNCORRECTABLE (R345). -/
def readPan (s : State) (q : Request) (i slot : Nat) (p : Pan) : State :=
  let s := s.modTile q.rtag i fun t => { t with looked := true, panSlot := some slot }
  if p.st = 0x1F then tileOutcome q.rtag i oUncorr 0xFE [] s
  else
    let addr := slotAddr s.img.hold.panBase (s.img.hold.panSize / 4160) slot
    let a := s.nextPort
    a.2.queueJob {
      path := .panHost q.rtag i slot
      prio := classPrio q.order
      vc := q.order
      port := a.1
      age := q.rtag
      prog := [moveWord false 0 0 0 0 4095 0 addr, waitRespWord ||| iput 123 1]
      init := []
      crypt := none
      c0 := false }

/-- The prefetches of a sluice's stride detector on a read of an LTA (R393). -/
def stride (i lta : Nat) (s : State) : State :=
  let x : Slq := Tab.get {} i s.slq
  let d : Int := (lta : Int) - x.lastLine
  let hit := decide (d = x.stride ∧ x.stride ≠ 0 ∧ x.stride.natAbs ≤ 64)
  let x' := { x with lastLine := lta, stride := if hit then x.stride else d, conf := if hit then min 3 (x.conf + 1) else 0 }
  let s := { s with slq := Tab.set {} i x' s.slq }
  if x'.conf < 2 ∨ s.stage ≠ 9 then s
  else
    ((List.range (s.get Fld.mapPfCfgDepth)).map (· + 1)).foldl (fun (s : State) (k : Nat) =>
      let y : Int := (lta : Int) + (k : Int) * x'.stride
      let line := y.toNat / 8
      let there := (Tab.find line s.md.cache).isSome
      let ok := decide (0 ≤ y ∧ y.toNat < ltaCount s) && (lineAddr s line).isSome && !there
      if ok then fetchLine line 3 true s else s) s

/-- Entry margin reads (R275): two reads of each codeword of CWMASK of the page that BUF names. -/
def marginReads (q : Request) (s : State) : State :=
  let e := q.buf
  let g := entPage s e
  let d : Int := max 1 (s.get Fld.cryWarnMstep)
  let off := readOffs s g
  let ks := (List.range 8).filter fun k => q.opx.testBit k
  ks.foldl (fun s k =>
    let w (plus : Bool) (d : Int) : Want := {
      why := .margin q.rtag k plus
      cls := q.order
      rtag := q.rtag
      kind := 0
      page := g
      cw := k
      offs := shiftOffs off d
      step := 0
      front := false
      data := []
      optype := 0
      arg := 0
      since := 0 }
    enqueue (w true d) (enqueue (w false (-d)) s)) s

/-- MAP_LOOKUP (R15, R388): a tile of a READ or FILTER that has been started is resolved, unless its LTA is under repair (R396). -/
def execMapLookup (rtag i : Nat) (s : State) : Out :=
  match s.rq rtag, s.tile rtag i with
  | some q, some t =>
    onlyIf (s.running && q.started && (q.opc == 1 || q.opc == 5) && t.outcome.isNone && !t.looked && !t.mapWait
        && !s.md.repair.contains t.lta && !((panCopy s t.lta).map fun e => e.2.back).getD false) s
      (match panCopy s t.lta with
       | some (slot, p) => readPan s q i slot p
       | none =>
         let s := if q.opc = 1 then stride q.sluice t.lta s else s
         lookupTile rtag i t.lta q.order s)
  | _, _ => .next s

/-! ## Fills (R391, R394, R395) -/

/-- The answer to a fill: the line filled, the updates that waited for it applied, the tiles that waited resolved. On DECERR the tiles end
UNCORRECTABLE and nothing is filled (Table 02-10); on DATAERR the line goes to repair, and its tiles wait (R395, R396). -/
def fillDone (line : Nat) (code : RCode) (data : List Byte) (s : State) : State :=
  let s := { s with md := { s.md with fills := s.md.fills.erase line, prefetch := s.md.prefetch.erase line } }
  let ws := (waiters s).filter fun x => x.2.2 / 8 == line
  let ups := s.md.upds.filter fun u => u.lta / 8 == line
  let place := Tab.find line s.md.cache
  match code with
  | .ok =>
    let ents := lineEnts s line data
    let s := match place with
      | some l => if l.ents.isEmpty then s.setLine line { l with ents := ents } else s
      | none => s
    let s := { s with md := { s.md with upds := s.md.upds.filter fun u => u.lta / 8 != line } }
    let r := ups.foldl (fun (x : List Nat × State) u =>
      match applyTo u x.1 x.2 with
      | (some e, s) => (e, dirtyTile u.lta s)
      | (none, s) => (x.1, s)) (ents, s)
    let s := if ups.isEmpty then r.2 else storeLine line r.1 r.2
    let s := ws.foldl (fun s x => resolve x.1 x.2.1 ((r.1[x.2.2 % 8]?).getD 0) s) s
    ((probeLtas s).filter fun l => l / 8 == line).foldl (fun s l => probeEntry l ((r.1[l % 8]?).getD 0) s) s
  | .dataerr =>
    let s := if place.isSome then s.delLine line else s
    let s := ws.foldl (fun s x => s.modTile x.1 x.2.1 fun t => { t with mapWait := false }) s
    markRepair ((List.range 8).map (8 * line + ·)) s
  | _ =>
    let s := if place.isSome then s.delLine line else s
    let s := s.logPacked uMAP (Config.eventCode 56) [(6, 8 * line)]
    probeDrop (fun l => l / 8 == line)
      (ws.foldl (fun s x => tileOutcome x.1 x.2.1 oUncorr 0xFE [] (s.modTile x.1 x.2.1 fun t => { t with mapWait := false, looked := true })) s)

/-- MAP_FILL_DONE (R391): the answer to the read of a line, with its 64 bytes. -/
def execMapFillDone (line : Nat) (code : RCode) (data : List Byte) (s : State) : Out :=
  match takeOutst (.mapFill line) s with
  | none => .next s
  | some (o, t) =>
    onlyIf s.coreOn s
      (let a := codeTaken o code t
       fillDone line a.1 data (dramSeen a.1 (releaseHeld a.2)))

/-- A map tile in its pool slot: it is resident, and the lookups that waited for it go on. -/
def tileLoaded (mt : Nat) (code : RCode) (s : State) : State :=
  match Tab.find mt s.md.loads with
  | none => s
  | some p =>
    let s := { s with md := { s.md with loads := Tab.del mt s.md.loads } }
    let ws := (waiters s).filter fun x => x.2.2 / 512 == mt
    if code = .ok then
      let s := s.modDir mt fun d => { d with slot := some p }
      let s := { s with md := { s.md with pool := Tab.put p mt s.md.pool } }
      let s := ws.foldl (fun s x => fetchLine (x.2.2 / 8) (((s.rq x.1).map (·.order)).getD 1) false s) s
      ((probeLtas s).filter fun l => l / 512 == mt).foldl (fun s l => fetchLine (l / 8) 3 false s) s
    else
      let s := s.logPacked uMAP (Config.eventCode 56) [(6, 512 * mt)]
      probeDrop (fun l => l / 512 == mt)
        (ws.foldl (fun s x => tileOutcome x.1 x.2.1 oUncorr 0xFE [] (s.modTile x.1 x.2.1 fun t => { t with mapWait := false, looked := true })) s)

/-- A map tile as read: written into its pool slot with its header, at the class of its read. -/
def tileRead (mt cls : Nat) (data : List Byte) (s : State) : State :=
  match Tab.find mt s.md.loads with
  | none => s
  | some p => dramWrite (poolAddr s p) cls (data ++ numBytes 8 mt ++ List.replicate 56 0) (.mapTile mt) s

/-- The writes of a map tile into its pool slot that are still out. -/
def tileWritesOut (mt : Nat) (s : State) : Bool :=
  (s.fab.outst.any fun o => o.purpose == .mapTile mt) || s.fab.waiting.any fun w => w.2 == .mapTile mt

/-- MAP_TILE_LOAD_DONE (R388): the answer to the write of a map tile into its pool slot. -/
def execMapTileLoadDone (mt : Nat) (code : RCode) (s : State) : Out :=
  match takeOutst (.mapTile mt) s with
  | none => .next s
  | some (o, t) =>
    onlyIf s.coreOn s
      (let a := codeTaken o code t
       let t := dramSeen a.1 (releaseHeld a.2)
       if tileWritesOut mt t && a.1 == .ok then t else tileLoaded mt a.1 t)

/-! ## Disabling and enabling the cache (R394) -/

/-- The last dirty line has been written back: the cache is empty and FLUSHING clears; an EN 1 written meanwhile takes effect. -/
def flushEnd (s : State) : State :=
  if cacheFlushing s && !(s.md.cache.any fun e => e.2.dirty || e.2.wb) then
    let s := s.putFlag Fld.mapCcStsFlushing false
    let s := s.putFlag Fld.mapCcCtlEn s.md.enAfter
    { s with md := { s.md with cache := [], enAfter := false } }
  else s

/-- The answer to the write-back of a line: clean, or dirty again and counted (R394). A fill that waited for it goes on. -/
def writeBackDone (line : Nat) (code : RCode) (s : State) : State :=
  match Tab.find line s.md.cache with
  | none => flushEnd s
  | some l =>
    if !l.wb then s
    else if code = .ok then
      let s := s.setLine line { l with wb := false }
      match s.md.fillWait.find? fun x => x.2.1 == line with
      | some x =>
        if l.dirty then writeBack line x.2.2 s
        else
          let s := { s with md := { s.md with fillWait := s.md.fillWait.erase x } }
          readLine x.1 x.2.2 ((s.delLine line).setLine x.1 { way := l.way, ents := [] })
      | none => flushEnd s
    else (s.setLine line { l with wb := false, dirty := true, wbFail := some s.now }).inc Fld.mapCcStsWbErr

/-- WRITEBACK_RETRY (R394): a failed write-back is tried again after 1 ms. -/
def execWritebackRetry (line : Nat) (s : State) : Out :=
  match Tab.find line s.md.cache with
  | none => .next s
  | some l =>
    match l.wbFail with
    | none => .next s
    | some t => onlyIf (s.running && l.dirty && decide (t + 1000000 ≤ s.now)) s (writeBack line 3 s)

/-- The effect of a write of MAP_CC_CTL. -/
def ccCtlWrite (w : Word) (s : State) : State :=
  let en := Fld.mapCcCtlEn.get w = 1
  if cacheFlushing s then { s with md := { s.md with enAfter := en } }
  else if en then s.putFlag Fld.mapCcCtlEn true
  else if cacheEn s then
    let s := (s.putFlag Fld.mapCcCtlEn false).putFlag Fld.mapCcStsFlushing true
    let ls := (s.md.cache.filter fun e => e.2.dirty).map (·.1)
    flushEnd (ls.foldl (fun s l => writeBack l 3 s) s)
  else s

/-- MAP_CC_DISABLE and MAP_CC_ENABLE (R394). -/
def execMapCcDisable (r : Req) (w : Word) (s : State) : Out :=
  onlyIf (decide (Fld.mapCcCtlEn.get w = 0)) s (regWrite s r .mapCcCtl 0 w (ccCtlWrite w))
def execMapCcEnable (r : Req) (w : Word) (s : State) : Out :=
  onlyIf (decide (Fld.mapCcCtlEn.get w = 1)) s (regWrite s r .mapCcCtl 0 w (ccCtlWrite w))

/-! ## Overlay and repair (R389, R395, R396) -/

/-- OVERLAY_MERGE (R389): the overlay entries of a resident map tile go into it, and the tile is DIRTY; the updates that waited for room
in the overlay are tried again. -/
def execOverlayMerge (mt : Nat) (s : State) : Out :=
  match (s.dirOf mt).slot with
  | none =>
    onlyIf (s.running && s.stage == 9 && demandMap s && (s.md.ovl.any fun e => e.1 / 512 == mt) && entState (s.dirOf mt).loc == 1) s (loadTile mt 3 s)
  | some p =>
    let mine := s.md.ovl.filter fun e => e.1 / 512 == mt
    onlyIf (s.running && s.stage == 9 && !mine.isEmpty) s
      (let s := mine.foldl (fun s e =>
         match cacheHas s (e.1 / 8) with
         | some l => s.setLine (e.1 / 8) { l with ents := l.ents.set (e.1 % 8) e.2, dirty := true }
         | none => dramWrite (poolAddr s p + 8 * (e.1 % 512)) 3 (numBytes 8 e.2) (.mapWrite (2 ^ 60 + e.1 / 8)) s) s
       let s := mine.foldl (fun s e => dramWrite (ovlAddr s e.1) 3 (List.replicate 16 0) (.mapWrite (2 ^ 61)) s) s
       let s := (s.modDir mt fun d => { d with dirty := true })
       let s := { s with md := { s.md with ovl := s.md.ovl.filter fun e => e.1 / 512 != mt } }
       let us := s.md.upds.filter fun u => (s.dirOf (u.lta / 512)).slot.isNone
       retryLoads (us.foldl (fun s u => mapUpdate u 3 s) { s with md := { s.md with upds := s.md.upds.filter fun u => !us.contains u } }))

/-- One record applied to an entry under the rules of R349, without a log entry (R395). -/
def applyRec (lta : Nat) (e : Nat) (r : JRec) : Nat :=
  if r.lta ≠ lta then e
  else if r.rtype = jMap ∨ r.rtype = jUnmap then (if e = r.oldPa then r.newPa else e)
  else if r.rtype = jPoison then poisonEntry
  else e

/-- An entry rebuilt from its checkpoint value: every record of its stream since the pointer, to the open page, then NEW_PA of a pan copy
in state 0x13. -/
def repairEntry (s : State) (lta e : Nat) : Nat :=
  let x := s.stream (streamOf s lta)
  let recs := (x.pages.flatMap (·.2)) ++ (x.flight.flatMap (·.2)) ++ x.page
  let e := recs.foldl (applyRec lta) e
  match s.wp.own.find? fun p => p.2.lta == lta && p.2.st == 0x13 with
  | some p => p.2.newPa
  | none => e

/-- The map tile of the newest valid checkpoint read for a repair, as class-3 work: a tile that its directory does not name is all zeros. -/
def repairRead (mt : Nat) (s : State) : State :=
  let e := Tab.get 0 mt s.md.ckptDir
  if entState e ≠ 1 then { s with md := { s.md with repTiles := Tab.put mt zeroTile s.md.repTiles } }
  else if s.md.rds.any fun r => r.2.own == .repair mt then s
  else startRd {
    own := .repair mt
    cls := 3
    rtag := 0
    entry := e
    page := entPage s e
    cw := entCw e
    lta := 0xF00000000000 + mt
    keyidx := 0xFFFF
    kind := kData } s

/-- A damaged line rebuilt from its entries in the checkpoint; where something could not be read every LTA still marked is poisoned (R396). -/
def repairLine (line : Nat) (ents : List Nat) (ok : Bool) (s : State) : State :=
  let ls := (List.range 8).map (8 * line + ·)
  let s := s.inc Fld.mapRepairStsRepairs
  let s := if ok then s else
    (ls.filter fun l => s.md.repair.contains l).foldl (fun s l =>
      (jAppend (streamOf s l) ⟨jPoison, l, 0, 0, 0⟩ s).inc Fld.mapRepairStsPoisoned) s
  let new := ls.map fun l =>
    if s.md.repair.contains l then (if ok then repairEntry s l ((ents[l % 8]?).getD 0) else poisonEntry) else (ents[l % 8]?).getD 0
  let s := match lineAddr s line with
    | some a => dramWrite a 3 (entsBytes new) (.mapWrite (2 ^ 60 + line)) s
    | none => s
  let s := match cacheHas s line with
    | some l => s.setLine line { l with ents := new, dirty := false }
    | none => s
  let s := dirtyTile (8 * line) s
  let s : State := { s with md := { s.md with repair := s.md.repair.filter fun l => !ls.contains l } }
  let s := if s.md.repair.any fun l => l / 512 == line / 64 then s else { s with md := { s.md with repTiles := Tab.del (line / 64) s.md.repTiles } }
  -- updates that waited for the line are made now
  let us := s.md.upds.filter fun u => u.lta / 8 == line
  let s := us.foldl (fun s u => mapUpdate u 3 s) { s with md := { s.md with upds := s.md.upds.filter fun u => !us.contains u } }
  ((probeLtas s).filter ls.contains).foldl probeLookup s

/-- MAP_REPAIR (R395, R396): a damaged line: its map tile is read from the copy that the newest valid checkpoint names, and with it at hand the line is rebuilt;
`ok`: every journal page needed could be read. -/
def execMapRepair (line : Nat) (ok : Bool) (s : State) : Out :=
  onlyIf (s.running && (List.range 8).any fun i => s.md.repair.contains (8 * line + i)) s
    (match Tab.find (line / 64) s.md.repTiles with
     | none => repairRead (line / 64) s
     | some b =>
       let ents := (List.range 8).map fun i => bytesNum ((b.drop (64 * (line % 64) + 8 * i)).take 8)
       repairLine line ents (ok && decide (b.length = 4096)) s)

/-- A checkpoint's map tile read for a repair: one that cannot be read leaves nothing to rebuild from (DEDUCED, log entry 130). -/
def repairTile (mt : Nat) (data : List Byte) (s : State) : State := { s with md := { s.md with repTiles := Tab.put mt data s.md.repTiles } }

end Sys2Proof.Machine
end

