-- ==== Sys2Proof/Machine/Groups.lean ====
section
/-! DEFINITION. Sets and groups (chapters 8 and 10): geometry classes, free groups and their floors, opening and closing groups, the
placement hash, the flush reserve and the hold-up budget. -/

namespace Sys2Proof.Machine

/-! ## LUNs and classes -/

/-- The online LUNs, in order of channel, target and LUN. -/
def onlineLuns (s : State) : List Nat :=
  s.img.topo.flatMap fun e => ((List.range 32).map (e.1 * 32 + ·)).filter s.online

/-- The geometry class of a LUN (R285). -/
def geoClass (s : State) (k : Nat) : List Nat :=
  let p := s.profile k
  [p.pgCode, p.planes, p.cellBits, p.wlPerBlk] ++ p.order

/-- The geometry class of a set. -/
def setClass (s : State) (set : Nat) : List Nat := geoClass s (((s.set_ set).slots[0]?).getD 0)

/-- Lost slots of a set. -/
def lostCount (x : SetSt) : Nat := ((List.range 18).filter fun n => x.lost.testBit n).length

/-! ## Free groups (R400, R412) -/

/-- Free erase units of a LUN, by number. -/
def freeUnits (s : State) (k : Nat) : List Nat :=
  (s.md.units.filter fun e => unitLun e.1 == k && e.2.estate == 0).map fun e => unitNo e.1

/-- Free groups of a set. -/
def freeGroups (s : State) (set : Nat) : Nat :=
  match (s.set_ set).slots with
  | [] => 0
  | k :: r => r.foldl (fun n j => min n (freeUnits s j).length) (freeUnits s k).length

/-- The thresholds, put in order (R412). -/
def hostFloor (s : State) : Nat := max 2 (s.get Fld.mapRclCfgHostFloor)
def rclUrgent (s : State) : Nat := max (hostFloor s) (s.get Fld.mapRclCfgUrgent)
def rclStart (s : State) : Nat := max (rclUrgent s) (s.get Fld.mapRclCfgStart)

/-- The class of a set's reclaim work (Table 10-6). -/
def reclaimClass (s : State) (set : Nat) : Nat := if freeGroups s set ≤ rclUrgent s then 2 else 3

/-- A set accepts writes (R311, R317). -/
def accepts (s : State) (set : Nat) : Bool :=
  let x := s.set_ set
  !x.drain && decide (lostCount x < 2)

/-- A set takes a tile at destage: host tiles above the floor, relocated tiles with more than one free group; the open group of the set
serves them until it is full (Table 10-6). -/
def takesTile (s : State) (reloc : Bool) (set : Nat) : Bool :=
  accepts s set && (if reloc then decide (1 < freeGroups s set) else decide (hostFloor s < freeGroups s set))

/-! ## Placement (R310, R311) -/

/-- The keyed hash of a block. -/
def placeHash (s : State) (block : List Byte) : Nat := bytesNum ((Config.aes256 s.sec.placement block).take 8)

/-- ROT of a group that opens (DEDUCED, log entry 25). -/
def rotOf (s : State) (set g openSeq : Nat) : Nat :=
  placeHash s (numBytes 1 set ++ numBytes 3 g ++ numBytes 8 openSeq ++ List.replicate 4 0x5A) % 18

/-- The set a tile goes to: of two candidates the one with fewer tiles queued, or the first (DEDUCED, log entry 25). -/
def placeTile (s : State) (reloc : Bool) (lta seq : Nat) : Option Nat :=
  let sets := (s.md.sets.map Prod.fst).filter (takesTile s reloc)
  let h := placeHash s (numBytes 6 lta ++ numBytes 8 seq ++ numBytes 2 0)
  match sets[h % 2 ^ 32 % max 1 sets.length]?, sets[h / 2 ^ 32 % max 1 sets.length]? with
  | some a, some b => some (if (s.set_ b).queue.length < (s.set_ a).queue.length then b else a)
  | _, _ => none

/-! ## Opening and closing groups (R287, R379, R403) -/

/-- The free unit of a LUN with the lowest PEC, ties to the lower number. -/
def bestUnit (s : State) (k : Nat) : Option Nat :=
  (freeUnits s k).foldl (fun (a : Option Nat) u =>
    match a with
    | none => some u
    | some v => if (s.unit (unitKey k u)).pec < (s.unit (unitKey k v)).pec then some u else some v) none

/-- Units for a new group, one from each slot's LUN. -/
def pickUnits (s : State) : List Nat → Option (List Nat)
  | [] => some []
  | k :: r =>
    match bestUnit s k, pickUnits s r with
    | some u, some l => some (u :: l)
    | _, _ => none

/-- The lowest group number of a set that no group bears (DESIGN CHOICE, log entry 24). -/
def newGroupNo (s : State) (set : Nat) : Nat :=
  ((List.range (grpsPerSet s)).find? fun g => (s.grp set g).isNone).getD (grpsPerSet s)

/-- {SET, GROUP} as a group reference. -/
def gref (set g : Nat) : Nat := set * 2 ^ 18 + g

/-- Records that tell of a new group (Table 10-4). -/
def groupRecords (set g : Nat) (x : Grp) : List JRec :=
  ⟨jGroupOpen, gref set g, x.openSeq, x.rot + 32 * x.slc.toNat, 0⟩
    :: (x.unit.zipIdx.map fun u => ⟨jGroupUnit, gref set g, 0, u.2 * 2 ^ 32 + u.1, 0⟩)

/-- A group opened on a set with units of a state: its number and the state after; none where a slot has no free unit. Its records are
the caller's to append. -/
def openGroup (set estate : Nat) (slc : Bool) (s : State) : Option (Nat × State) :=
  match pickUnits s (s.set_ set).slots with
  | none => none
  | some us =>
    let g := newGroupNo s set
    let x : Grp := { unit := us, rot := rotOf s set g s.wp.seq, gstate := if estate = 4 then 0 else 1, openSeq := s.wp.seq, slc := slc }
    let s := putGrp set g x s
    some (g, ((s.set_ set).slots.zip us).foldl (fun s e =>
      putUnit (unitKey e.1 e.2) (fun u => { u with estate := estate, slc := slc, gref := gref set g, valid := 0 }) s) s)

/-- A group closed: its units too, with the time (R407, Table 10-3). -/
def closeGroup (set g : Nat) (s : State) : State :=
  match s.grp set g with
  | none => s
  | some x =>
    let s := putGrp set g { x with gstate := 2, closeAt := s.now } s
    let s := ((s.set_ set).slots.zip x.unit).foldl (fun s e =>
      putUnit (unitKey e.1 e.2) (fun u => if u.estate = 2 then { u with estate := 3, closeAt := s.now } else u) s) s
    jAppend 0 ⟨jGroupClose, gref set g, s.now, 0, 0⟩ s

/-! ## The hold-up budget (R339 to R343) -/

/-- Flush sets: those with no lost slot, lowest number first, up to FLUSH_PAR ÷ 18. -/
def flushSets (s : State) : List Nat :=
  ((s.md.sets.filter fun e => e.2.lost == 0).map Prod.fst).take (s.img.hold.flushPar / 18)

/-- Rows of a set's reserved groups. -/
def reserveRows (s : State) (set : Nat) : Nat :=
  (s.wp.reserve.filter fun e => e.1 == set).length * (setProfile s set).wlPerBlk

/-- The largest of some numbers. -/
def maxOf (l : List Nat) : Nat := l.foldl max 0

/-- T_DRAIN and T_SLC in µs. -/
def tDrain (s : State) : Nat :=
  maxOf ((onlineLuns s).map fun k =>
    let p := s.profile k
    max (max p.tprogMax (if p.ersSusp then 2 * p.tespd else p.tbersMax)) p.trMax) + 10
def tSlc (s : State) : Nat := maxOf ((flushSets s).map fun n => (setProfile s n).tprogSlcMax)

/-- Rounds that the hold-up time allows. -/
def roundsByTime (s : State) : Nat := (s.img.hold.tHold - tDrain s - 2 * tSlc s) / tSlc s

/-- ROUNDS: no more than the least-reserved flush set holds rows for. -/
def flushRounds (s : State) : Nat :=
  match flushSets s with
  | [] => 0
  | n :: r => min (roundsByTime s) (r.foldl (fun m k => min m (reserveRows s k)) (reserveRows s n))

/-- Tiles a round carries. -/
def perRound (s : State) : Nat :=
  ((flushSets s).map fun n => 16 * (setProfile s n).planes * (setProfile s n).cwPerPage).foldl (· + ·) 0

/-- D_MAX. -/
def dMax (s : State) : Nat := flushRounds s * perRound s * (100 - s.img.hold.derate) / 100

/-- The mirror region holds a valid slot. -/
def mirHeld (s : State) : Bool := s.wp.mir.any fun e => e.2.st == 0x21

/-- The own limit (R340); a partner's D_MAX never received stands aside (DESIGN CHOICE, log entry 26). -/
def ownLimit (s : State) : Nat :=
  let t := s.wp.twin
  let d := dMax s
  let l := if t.paired || mirHeld s then (if t.peerDmax = 0 then d / 2 else min d t.peerDmax / 2) else d
  min (min l (ownSlots s)) (if t.paired then t.peerSlots else ownSlots s)

/-- D_MAX and the own limit computed anew (R339, R341): from SERVE_READ on. -/
def budget (s : State) : State :=
  if s.stage = 8 ∨ s.stage = 9 then (s.put Fld.mapPanDmaxDmax (dMax s)).put Fld.mapPanLimitLimit (ownLimit s) else s

/-- Own slots not free (R367). -/
def occupancy (s : State) : Nat := (s.wp.own.filter fun e => e.2.st != 0).length

/-- The limit in force. -/
def limit (s : State) : Nat := s.get Fld.mapPanLimitLimit

/-- RESERVE replenished by one group on the flush set that has fewest reserved rows below the rounds that time allows (R343): its record
is appended before it is counted. -/
def addReserve (set : Nat) (s : State) : Option State :=
  match openGroup set 4 true s with
  | none => none
  | some (g, s) =>
    let s := jAppendAll 0 (((s.grp set g).map (groupRecords set g)).getD []) s
    let s := jAppend 0 ⟨jReserve, gref set g, 0, 0, 0⟩ s
    some (budget { s with wp := { s.wp with reserve := s.wp.reserve ++ [(set, g)] } })

/-- The flush sets whose reserve holds fewer rows than the rounds need. -/
def reserveShort (s : State) : List Nat := (flushSets s).filter fun n => decide (reserveRows s n < roundsByTime s)

/-- Reserve replenished as far as free groups allow; `fuel` bounds the groups. -/
def fillReserve : Nat → State → State
  | 0, s => s
  | fuel + 1, s =>
    match (reserveShort s).findSome? fun n => addReserve n s with
    | some t => fillReserve fuel t
    | none => s

end Sys2Proof.Machine
end

