-- ==== Sys2Proof/Machine/Pan.lean ====
section
/-! DEFINITION. The pans (chapter 9): descriptors, admission, commits, durability states, the twin's reachability, and poisoning. -/

namespace Sys2Proof.Machine

/-! ## Slots -/

/-- Free own slots below the own limit. -/
def freeBelow (s : State) : Nat := limit s - (s.wp.own.filter fun e => decide (e.1 < limit s)).length

/-- The watermarks, as they act (R368). -/
def hiWat (s : State) : Nat := s.get Fld.mapPanCfgHiwat
def loWat (s : State) : Nat := min (s.get Fld.mapPanCfgLowat) (hiWat s - 1)

/-- Occupancy pressure: from above HIWAT until at LOWAT, and while occupancy is above the limit (R337, R341). -/
def pressed (s : State) : Bool :=
  let o := occupancy s * 100
  decide (hiWat s * limit s < o) || (s.wp.pressure && decide (loWat s * limit s < o)) || decide (limit s < occupancy s)

/-- Slots have been taken or freed: pressure holds on, or has ended. -/
def notePressure (s : State) : State := { s with wp := { s.wp with pressure := pressed s } }

/-- A slot's copy is to be overwritten in place: a write admitted into it has not been STAGED. -/
def rewriting (s : State) (slot : Nat) : Bool :=
  s.reqs.any fun e => e.2.opc == 2 && e.2.tiles.any fun t => t.slot == some slot && t.dstate == 0 && !t.dead

/-- A mover reads a slot, or a commit or read-back into it is under way. -/
def slotInUse (s : State) (slot : Nat) : Bool :=
  let on (p : JobPath) : Bool := match p with
    | .panRead k | .panHost _ _ k | .commitOwn _ _ k | .commitMirror _ _ k | .handoff k | .recon k => k == slot
    | _ => false
  (s.mov.jobs.any fun j => on j.path) || s.mov.ctxs.any fun e => on e.2.job.path

/-- A mover reads a slot. -/
def slotRead (s : State) (slot : Nat) : Bool :=
  let on (p : JobPath) : Bool := match p with
    | .panRead k | .panHost _ _ k | .recon k => k == slot
    | _ => false
  (s.mov.jobs.any fun j => on j.path) || s.mov.ctxs.any fun e => on e.2.job.path

/-- The slot that a rewrite of an LTA overwrites in place (R335); a copy that is not STAGED yet is none of state 0x11 (DEDUCED, log entry 61). -/
def inPlace (s : State) (lta : Nat) : Option Nat :=
  match (s.wp.own.filter fun e => e.2.lta == lta && e.2.st != 0).foldl (fun (a : Option (Nat × Pan)) e =>
      match a with
      | none => some e
      | some b => if b.2.seq ≤ e.2.seq then some e else some b) none with
  | some (slot, p) => if p.st = 0x11 ∧ p.staged ∧ !slotRead s slot ∧ !rewriting s slot then some slot else none
  | none => none

/-! ## Admission (R342) -/

/-- Sets eligible for journal groups (R690). -/
def journalSets (s : State) : List Nat :=
  (s.md.sets.map Prod.fst).filter fun n =>
    let x := s.set_ n
    (x.slots.all fun k => (s.profile k).slcSeal) && x.lost == 0 && accepts s n && decide (0 < freeGroups s n)

/-- The engine takes no write (R342). -/
def writesHeld (s : State) : Bool :=
  s.wp.pfail || s.flag Fld.mapFlushStsDone || decide (limit s < occupancy s) || s.flag Fld.mapCkptStsHeld || (journalSets s).isEmpty

/-- Relocations of an LTA abandoned (R398): a map entry that one has changed returns to the address it read, and none appends a record. -/
def abandonRelocs (lta : Nat) (s : State) : State :=
  let mine := s.md.relocs.filter fun e => e.2.lta == lta
  let s : State := { s with md := { s.md with relocs := s.md.relocs.map fun e => if e.2.lta == lta then (e.1, { e.2 with st := 3 }) else e } }
  mine.foldl (fun s e => if e.2.st = 4 then mapUpdate ⟨lta, e.2.old, some e.2.new, .plain⟩ e.2.cls s else s) s

/-- One tile admitted: its SEQ, and its slot; none where it needs a new slot and no index below the limit is free. -/
def admitTile (rtag sluice nsKey : Nat) (urgent : Bool) (t : Tile) (s : State) : Option (Tile × State) :=
  let a := nextSeq (abandonRelocs t.lta s)
  let s := { a.2 with wp := { a.2.wp with admitted := a.2.wp.admitted ++ [(sluice, t.lta, a.1)] } }
  match inPlace s t.lta with
  | some slot => some ({ t with slot := some slot, seq := a.1 }, s)
  | none =>
    let slot := firstFree s.wp.own 0
    if limit s ≤ slot then none
    else
      let p : Pan := {
        st := 0x11
        lta := t.lta
        hid := s.hid
        seq := a.1
        keyidx := nsKey
        urgent := urgent
        admTime := s.now
        oldPa := 0
        newPa := 0
        mirAt := slot
        sluice := sluice
        rtag := rtag }
      some ({ t with slot := some slot, seq := a.1 }, s.putPan slot p)

/-- Tiles admitted in order, each with a slot of its own. -/
def admitTiles (q : Request) : List Tile → State → Option (List Tile × State)
  | [], s => some ([], s)
  | t :: r, s =>
    match admitTile q.rtag q.sluice q.keyidx (q.ack == 3) t s with
    | none => none
    | some (t, s) =>
      match admitTiles q r s with
      | none => none
      | some (l, s) => some (t :: l, s)

/-- A write entry admitted whole: none where it does not fit, or would leave classes 1 to 3 less than C0_RSV free slots. -/
def takeSlots (q : Request) (s : State) : Option (Request × State) :=
  if writesHeld s then none
  else match admitTiles q q.tiles s with
  | none => none
  | some (l, t) => if q.cls ≠ 0 ∧ freeBelow t < s.img.hold.c0Rsv then none else some ({ q with tiles := l }, notePressure t)

/-! ## Commits (R472, R354) -/

/-- Port and VC of a mirror job of a slot that is under way: a rewrite's mirror writes take the same (chapter 9, edge of R355). -/
def mirrorWay (s : State) (slot : Nat) : Option (Nat × Nat) :=
  let on (p : JobPath) : Bool := match p with
    | .commitMirror _ _ k => k == slot
    | _ => false
  (((s.mov.jobs ++ s.mov.ctxs.map fun e => e.2.job).filter fun j => on j.path).head?).map fun j => (j.port, j.vc)

/-- The descriptor of a copy that a tile of a write stages. -/
def tilePan (s : State) (q : Request) (t : Tile) (slot : Nat) : Pan :=
  let old := s.pan slot
  { st := 0x11
    lta := t.lta
    hid := s.hid
    seq := t.seq
    keyidx := q.keyidx
    urgent := q.ack == 3 || ((old.map (·.urgent)).getD false)
    admTime := (old.map (·.admTime)).getD s.now
    oldPa := 0
    newPa := 0
    mirAt := slot
    sluice := q.sluice
    rtag := q.rtag }

/-- The own job and, with a twin that takes mirror writes, the mirror job of a tile. -/
def commitJobs (q : Request) (i : Nat) (t : Tile) (slot tries : Nat) (s : State) : List Job :=
  let n := ownSlots s
  let h := s.img.hold
  let p := tilePan s q t slot
  let tw := (s.img.twin.map (·.peerMir)).getD 0
  let m := s.wp.twin.peerSlots
  let prio := classPrio q.cls
  let port := s.get Fld.hrvCfgPort q.ring
  let tee := (mirroring s).toNat
  let own : Job := {
    path := .commitOwn q.rtag i slot
    prio := prio
    vc := q.cls
    port := port
    age := q.rtag
    prog := [moveWord false 0 0 tee 0 4095 0 t.buf, moveWord false 1 0 0 0 4095 0 (slotAddr h.panBase n slot),
      moveWord true 1 0 0 4096 63 0 (descAddr h.panBase slot)]
    init := bufPut 4096 (descBytes p 0x11 0) []
    crypt := none
    c0 := q.cls == 0
    tries := tries }
  let mir : Job := {
    path := .commitMirror q.rtag i slot
    prio := prio
    vc := ((mirrorWay s slot).map Prod.snd).getD q.cls
    port := ((mirrorWay s slot).map Prod.fst).getD port
    age := q.rtag
    prog := [moveWord false 1 1 0 0 4095 0 (slotAddr tw m slot), moveWord true 1 0 0 4096 63 0 (descAddr tw slot)]
    init := bufPut 4096 (descBytes p 0x21 0) []
    crypt := some (mirrorKeyOf s s.hid, t.lta)
    c0 := q.cls == 0 }
  if mirroring s then [own, mir] else [own]

/-- A sealed-mover context is free for a class-0 commit (R474). -/
def sealedFree (s : State) : Bool :=
  (List.range 8).any fun m => s.flag Fld.belCtlEn (56 + m) && (List.range 32).any fun c => (s.ctx (56 + m) c).isNone

/-- A tile's commit started. -/
def startCommit (q : Request) (i : Nat) (t : Tile) (slot tries : Nat) (s : State) : State :=
  let s := if q.cls = 0 ∧ !sealedFree s then s.inc Fld.belGstsC0Wait else s
  s.queueJobs (commitJobs q i t slot tries s)

/-! ## Durability states (R324, R344) -/

/-- Requests in the order in which completions of one step take slots of a ring: by sluice, then by tag (Table 01-7). -/
def insSluice (e : Nat × Request) : List (Nat × Request) → List (Nat × Request)
  | [] => [e]
  | a :: r => if a.2.sluice ≤ e.2.sluice then a :: insSluice e r else e :: a :: r
def bySluice (l : List (Nat × Request)) : List Nat := (l.foldl (fun a e => insSluice e a) []).map Prod.fst

/-- Tiles of writes whose copy, or a later copy of their LTA, has reached a state: raised to it. -/
def raiseTiles (lta seq : Nat) (d : Nat) (exact : Bool) (s : State) : State :=
  let hit (t : Tile) : Bool := t.lta == lta && t.dstate != 0 && (if exact then t.seq == seq else decide (t.seq ≤ seq))
  let rs := bySluice (s.reqs.filter fun e => e.2.opc == 2 && e.2.tiles.any hit)
  rs.foldl (fun s r =>
    requestCheck r (s.modRq r fun q => { q with tiles := q.tiles.map fun t => if hit t then { t with dstate := max t.dstate d } else t })) s

/-- What a FLUSH or UNMAP entry waits for is reached up to a SEQ of an LTA (R328). -/
def reached (lta seq : Nat) (s : State) : State :=
  let hit (x : Nat × Nat × Nat) : Bool := x.2.1 == lta && decide (x.2.2 ≤ seq)
  let rs := bySluice (s.reqs.filter fun e => e.2.opc == 3 && e.2.waitFor.any hit)
  let s := { s with wp := { s.wp with admitted := s.wp.admitted.filter fun x => !hit x } }
  rs.foldl (fun s r => requestCheck r (s.modRq r fun q => { q with waitFor := q.waitFor.filter fun x => !hit x })) s

/-- The copy is MIRRORED once both jobs have completed while the twin is reachable (R354, R355). -/
def mirrorCheck (rtag i slot : Nat) (s : State) : State :=
  match s.tile rtag i with
  | none => s
  | some t =>
    if t.mirDone ∧ t.dstate = 1 ∧ s.twinUp then
      let s := s.modPan slot fun p => if p.seq = t.seq then { p with mirrored := true } else p
      requestCheck rtag (s.modTile rtag i fun t => { t with dstate := 2 })
    else s

/-- A commit has a mirror job, under way or done. -/
def hasMirror (s : State) (rtag i slot : Nat) : Bool :=
  let on (p : JobPath) : Bool := p == .commitMirror rtag i slot
  ((s.tile rtag i).any (·.mirDone)) || (s.mov.jobs.any fun j => on j.path) || s.mov.ctxs.any fun e => on e.2.job.path

/-- The own job of a commit has completed (R324): the tile is STAGED. `stored`: the tile's bytes. A commit that began before the twin took
mirror writes has its copy sent now (R329). -/
def ownCommitted (rtag i slot : Nat) (stored : List Byte) (s : State) : State :=
  match s.rq rtag, s.tile rtag i with
  | some q, some t =>
    let p := tilePan s q t slot
    let p := { p with staged := true, dcrc := crcReg 0xFFFFFFFF stored, mcrc := mirCrc s p stored }
    let s := (s.putPan slot p).modTile rtag i fun t => { t with dstate := max 1 t.dstate }
    let s := if mirroring s && !hasMirror s rtag i slot then resend slot s else s
    requestCheck rtag (mirrorCheck rtag i slot s)
  | _, _ => s

/-- The mirror job of a commit has completed. -/
def mirrorCommitted (rtag i slot : Nat) (s : State) : State :=
  mirrorCheck rtag i slot (s.modTile rtag i fun t => { t with mirDone := true })

/-- A copy reaches MEDIA once its page has closed, its row's parity has passed and its record is sealed (R344): its slot is freed,
and with the slots of poisoned older copies of its LTA. -/
def mediaCheck (slot : Nat) (s : State) : State :=
  match s.pan slot with
  | none => s
  | some p =>
    if p.st = 0x13 ∧ p.closed ∧ p.rowDone ∧ p.recorded then
      let s := freeSlot slot s
      let s := if s.twinUp then releaseMirror p s else s
      let old := (s.wp.own.filter fun e => e.2.lta == p.lta && e.2.st == 0x1F && decide (e.2.seq < p.seq)).map Prod.fst
      let s := old.foldl (fun s k => freeSlot k s) s
      let s := { s with md := { s.md with waHost := s.md.waHost + 1 } }
      let s := s.put Fld.mapWaHostTiles (min 0xFFFFFFFF (s.md.waHost / 1024))
      let s := notePressure s
      reached p.lta p.seq (raiseTiles p.lta p.seq 3 false s)
    else s

/-- A copy discarded by an unmap (R380). -/
def discardCopies (lta : Nat) (s : State) : State :=
  let l := (s.wp.own.filter fun e => e.2.lta == lta && (e.2.st == 0x11 || e.2.st == 0x1F) && !slotInUse s e.1).map Prod.fst
  notePressure (l.foldl (fun s k => freeSlot k s) s)

/-! ## The twin (R353 to R357) -/

/-- The twin becomes not reachable, or its reconciliation fails: LOSSES counts the first; entries that waited for MIRRORED fall to STAGED, and second entries owed end TWIN_LOST (R326, R449). -/
def twinLost (s : State) : State :=
  if !mirroring s then s
  else
    let s := if s.twinUp then s.inc Fld.mapTwinStsLosses else s
    let s := s.put Fld.mapTwinStsState 3
    let s := { s with wp := { s.wp with twin := { s.wp.twin with paired := false, nonce := 0, todo := [], scan := none, descs := [], probes := [] } } }
    let ws := bySluice (s.reqs.filter fun e => e.2.opc == 2)
    let s := ws.foldl (fun s r =>
      match s.rq r with
      | some q => if q.owesTwin then finish q 0x13 1 s else requestCheck r s
      | none => s) s
    budget s

/-! ## Read errors of a pan (R345) -/

/-- A slot poisoned, with its record and its map entry. -/
def poisonSlot (slot : Nat) (s : State) : State :=
  match s.pan slot with
  | none => s
  | some p =>
    let s := writeDesc slot (s.modPan slot fun p => { p with st := 0x1F, back := false })
    let s := s.inc Fld.mapFlushStsPoison
    let s := jAppend (streamOf s p.lta) ⟨jPoison, p.lta, p.seq, 0, 0⟩ s
    mapUpdate ⟨p.lta, poisonEntry, none, .plain⟩ 3 s

/-- A pan read answered DATAERR: the copy is read back from the twin, or the slot is poisoned; tiles of host reads that read the slot
are looked up again (R345). -/
def panDataErr (slot : Nat) (s : State) : State :=
  match s.pan slot with
  | none => s
  | some p =>
    let a := if s.twinUp && p.mirrored then readBack p s else (false, s)
    let s := if a.1 then freeSlot slot a.2 else poisonSlot slot a.2
    let again (t : Tile) : Tile := if t.panSlot == some slot && t.outcome.isNone then { t with looked := false, panSlot := none } else t
    { s with reqs := s.reqs.map fun e => (e.1, { e.2 with tiles := e.2.tiles.map again }) }

end Sys2Proof.Machine
end

