-- ==== Sys2Proof/Machine/Rows.lean ====
section
/-! DEFINITION. Stripe rows (chapters 6, 8 and 9): members encoded into rows, the parity store, row units and their programs, closure,
pads, and a row's abandonment. A row is named by its STRIPE number (R288). -/

namespace Sys2Proof.Machine

/-! ## Rows -/

def rowSet (id : Nat) : Nat := id / 2 ^ 32
def rowGroup (id : Nat) : Nat := id / 2 ^ 14 % 2 ^ 18
def rowStep (id : Nat) : Nat := id % 2 ^ 14

def State.row (s : State) (id : Nat) : Option Row := Tab.find id s.md.rows
def State.modRow (s : State) (id : Nat) (f : Row → Row) : State := { s with md := { s.md with rows := Tab.modify id f s.md.rows } }

/-- The group record of a row. -/
def rowGrp (s : State) (id : Nat) : Option Grp := s.grp (rowSet id) (rowGroup id)

/-- A row is programmed in SLC mode. -/
def rowSlc (s : State) (id : Nat) : Bool := ((rowGrp s id).map (·.slc)).getD false

/-- A row of a checkpoint area: its group stands above every numbered group (DESIGN CHOICE, log entry 28). -/
def isArea (id : Nat) : Bool := decide (2 ^ 18 - 256 ≤ rowGroup id)

/-- Codewords of a row unit. -/
def rowUnitQ (s : State) (id : Nat) : Nat := rowQ (setProfile s (rowSet id)) (rowSlc s id) (rowStep id)

/-- The LUN and the erase unit of a position of a row. -/
def rowLun (s : State) (id pos : Nat) : Option (Nat × Nat) :=
  match rowGrp s id with
  | none => none
  | some g =>
    let n := posSlot g.rot (rowStep id) pos
    match (s.set_ (rowSet id)).slots[n]?, g.unit[n]? with
    | some k, some u => some (k, u)
    | _, _ => none

/-- The page and codeword of stripe `q` at a position of a row. -/
def rowPage (s : State) (id pos q : Nat) : Option (Page × Nat) :=
  (rowLun s id pos).map fun x => qPage s x.1 x.2 (rowSlc s id) (rowStep id) q

/-- The position's slot is lost or its LUN offline: its unit is not programmed, and its members are left to reconstruction. -/
def rowLost (s : State) (id pos : Nat) : Bool :=
  match rowLun s id pos, rowGrp s id with
  | some x, some g => !s.online x.1 || g.lost.testBit (posSlot g.rot (rowStep id) pos)
  | _, _ => true

/-- The map entry of the member at a position and stripe of a row. -/
def rowEntry (s : State) (id pos q : Nat) : Nat :=
  match rowPage s id pos q with
  | none => 0
  | some (g, cw) => mkEntry s g cw

/-! ## The parity store (R293) -/

/-- Bytes of a row's accumulators. -/
def parBytes (s : State) (id : Nat) : Nat := rowUnitQ s id * 8256

/-- The lowest offset of the store with room for some bytes. -/
def parFit (s : State) (n : Nat) : Option Nat :=
  let used := s.md.rows.filterMap fun e => e.2.par.map fun o => (o, o + parBytes s e.1)
  let ok (o : Nat) : Bool := decide (o + n ≤ s.img.geo.parSize) && !used.any fun u => decide (o < u.2 ∧ u.1 < o + n)
  ((0 :: used.map Prod.snd).filter ok).foldl (fun (a : Option Nat) o => some (match a with | none => o | some b => min o b)) none

/-- The members of a stripe of a row, by position, as parity covers them (R292). -/
def stripeOf (s : State) (x : Row) (id q : Nat) : List (Nat × List Byte) :=
  x.mem.filterMap fun e => if e.1 % max 1 (rowUnitQ s id) = q then some (e.1 / max 1 (rowUnitQ s id), e.2.data ++ e.2.hdr) else none

/-- The accumulators of a stripe: P, then Q. -/
def accBytes (s : State) (x : Row) (id q : Nat) : List Byte :=
  let l := stripeOf s x id q
  parP l ++ parQ l

/-- The store's traffic as a member is encoded: the first of a stripe writes its accumulators, every later one reads them first. -/
def parTouch (id q : Nat) (first : Bool) (s : State) : State :=
  match s.row id with
  | none => s
  | some x =>
    match x.par with
    | none => s
    | some o =>
      let a := s.img.geo.parBase + o + 8256 * q
      if first then dramWrite a 2 (accBytes s x id q) (.parity id) s
      else dramRead a 8256 2 (.parity id) s

/-- A read of accumulators answered OK: they are written back with the member's contribution. -/
def parReadDone (id addr len : Nat) (s : State) : State :=
  match s.row id with
  | none => s
  | some x =>
    match x.par with
    | none => s
    | some o =>
      let r := addr - (s.img.geo.parBase + o)
      dramWrite addr 2 (((accBytes s x id (r / 8256)).drop (r % 8256)).take len) (.parity id) s

/-! ## Row units as pages (R216, R230 to R232, R292) -/

/-- SEAL_COL, and the codewords of a page that carries a seal area (R230). -/
def sealCol (p : Profile) : Nat := if p.cwPerPage * 4608 + 512 ≤ p.physPage then p.cwPerPage * 4608 else (p.cwPerPage - 1) * 4608
def sealedCws (p : Profile) : Nat := sealCol p / 4608

/-- A page's bytes: its codewords, then the scrambler's sequence continued to the page's end; in a journal page the seal area is 0xFF. -/
def pageBytes (s : State) (g : Page) (cws : List (List Byte)) (sealed_ : Bool) : List Byte :=
  let p := s.profile g.lun
  let n := cws.length
  let fill := p.physPage - 4608 * n
  let body := cws.flatten ++ (scrXor (List.replicate (4608 + fill) 0) (scrSeed s g (n - 1))).drop 4608
  if sealed_ then body.take (sealCol p) ++ List.replicate 512 0xFF ++ body.drop (sealCol p + 512) else body

/-- The member at a position and stripe as it is stored: a data member, or P or Q of the data members. -/
def storedAt (s : State) (x : Row) (id pos q : Nat) (kind : Nat) : List Byte :=
  match rowPage s id pos q with
  | none => []
  | some (g, cw) =>
    if pos < 16 then
      match Tab.find (pos * rowUnitQ s id + q) x.mem with
      | some m => encodeMember s g cw m.data m.hdr
      | none => []
    else
      let l := stripeOf s x id q
      let par := if pos = 16 then parP l else parQ l
      encodeParity s g cw par (metaBytes (metaHead 0 s.hid kind x.seq id pos 0xFFFF) (par.take 4096))

/-- The pages of a row unit on a LUN's erase unit, in page order and then by plane: `at_` gives the stored codeword of each stripe; pages of the
journal carry a seal area. -/
def pagesOf (s : State) (k u : Nat) (slc : Bool) (step : Nat) (sealed_ : Bool) (at_ : Nat → List Byte) : List (List Byte) :=
  let p := s.profile k
  let pages := stepPages p slc step
  let n := if sealed_ then sealedCws p else p.cwPerPage
  (List.range pages.length).flatMap fun j => (List.range p.planes).map fun pl =>
    let cws := (List.range n).map fun cw => at_ ((cw * pages.length + j) * p.planes + pl)
    pageBytes s (qPage s k u slc step (j * p.planes + pl)).1 cws sealed_

/-- The pages of a row's unit at a position. -/
def unitPages (s : State) (x : Row) (id pos : Nat) : List (List Byte) :=
  let slc := rowSlc s id
  let kind := if pos = 16 then kP else if pos = 17 then kQ else kData
  match rowLun s id pos with
  | some (k, u) => pagesOf s k u slc (rowStep id) (slc && !x.flush && !isArea id) fun q => storedAt s x id pos q kind
  | none => []

/-- The marker M of a journal sequence number, or of a checkpoint number (R232, R384). -/
def sealMark (jseq : Nat) : Nat := 0x5E41 * 2 ^ 48 + jseq % 2 ^ 48

/-- The 64 copies of a seal that its 512 bytes hold; a byte that is missing reads as erased. -/
def sealCopies (raw : List Byte) : List Nat :=
  (List.range 64).map fun k => bytesNum (((raw ++ List.replicate (512 - raw.length) 0xFF).drop (8 * k)).take 8)

/-- A seal's copies decoded: a bit is 0 where at least 33 of them hold 0 (R233). -/
def sealValue (raw : List Byte) : Nat :=
  (List.range 64).foldl (fun v i => if 33 ≤ ((sealCopies raw).filter fun c => !c.testBit i).length then v else v + 2 ^ i) 0

/-- A seal commits its page (R233). -/
def sealOk (raw : List Byte) (jseq : Nat) : Bool := sealValue raw == sealMark jseq

/-- The pages that a seal program sends: 0xFF but for the marker (R232). -/
def sealPages (p : Profile) (jseq : Nat) : List (List Byte) :=
  let m := (List.replicate 64 (numBytes 8 (sealMark jseq))).flatten
  List.replicate p.planes
    (List.replicate (sealCol p) 0xFF ++ m ++ List.replicate (p.physPage - sealCol p - 512) 0xFF)

/-- A program's want for a page and its data. -/
def progWant (why : Why) (cls kind optype : Nat) (g : Page) (data : List (List Byte)) : Want :=
  { why := why
    cls := cls
    rtag := 0
    kind := kind
    page := g
    cw := 0
    offs := []
    step := 0
    front := false
    data := data
    optype := optype
    arg := 0
    since := 0 }

/-! ## What becomes of a member -/

/-- The row's members at a position. -/
def membersAt (s : State) (x : Row) (id pos : Nat) : List (Nat × Member) :=
  x.mem.filterMap fun e => if e.1 / max 1 (rowUnitQ s id) = pos then some (e.1 % max 1 (rowUnitQ s id), e.2) else none

/-- A member's program has completed with pass: its copy is programmed, and its map entry changes (chapter 9). -/
def memberPassed (e : Nat) (m : Member) (s : State) : State :=
  let s := { s with md := { s.md with waMedia := s.md.waMedia + 1 } }
  let s := s.put Fld.mapWaMediaTiles (min 0xFFFFFFFF (s.md.waMedia / 1024))
  match m.own with
  | .pan slot =>
    match s.pan slot with
    | some p =>
      if p.st = 0x12 ∧ p.seq = m.seq then
        let s := writeDesc slot (s.modPan slot fun p => { p with st := 0x13, newPa := e })
        mapUpdate ⟨m.lta, e, none, .pan slot⟩ 2 s
      else s
    | none => s
  | .reloc n =>
    match Tab.find n s.md.relocs with
    | some r => if r.st = 2 ∧ r.seq = m.seq then mapUpdate ⟨m.lta, e, some r.old, .reloc n⟩ r.cls s else s
    | none => s
  | _ => s

/-- A checkpoint tile has been programmed (R382). -/
def ckptTileDone (s : State) : State :=
  { s with md := { s.md with ckpt := s.md.ckpt.map fun c => { c with left := c.left - 1 } } }

/-- A member whose page has closed and whose row's parity has passed: the record of a copy or of a relocation is appended; a map tile's
directory entry takes the new copy (R344, R382). -/
def memberSafe (e : Nat) (m : Member) (s : State) : State :=
  match m.own with
  | .pan slot =>
    match s.pan slot with
    | some p => if p.seq = m.seq then recordPan slot (s.modPan slot fun p => { p with closed := true, rowDone := true }) else s
    | none => s
  | .reloc n =>
    match Tab.find n s.md.relocs with
    | some r =>
      let s : State := { s with md := { s.md with relocs := Tab.del n s.md.relocs } }
      if r.st = 4 ∧ r.seq = m.seq then jAppend (streamOf s r.lta) ⟨jMap, r.lta, r.seq, e, r.old⟩ s else s
    | none => s
  | .mapTile mt =>
    let old := (s.dirOf mt).loc
    let s := s.modDir mt fun d => { d with loc := e }
    let s := putUnit (entUnit s e) (fun u => { u with valid := u.valid + 1 }) s
    let s := if entState old = 1 then { s with md := { s.md with stale := s.md.stale ++ [(old, s.md.ckptNo)] } } else s
    retryLoads { s with md := { s.md with ckpt := s.md.ckpt.map fun c => { c with tiles := c.tiles.erase mt } } }
  | .ckpt _ => ckptTileDone s
  | _ => s

/-- A member withdrawn from a row: its copy is destaged afresh, and its map entry returns to the old value where it still holds the
member's address (R240, Table 18-8). -/
def memberBack (e : Nat) (m : Member) (s : State) : State :=
  match m.own with
  | .pan slot =>
    match s.pan slot with
    | some p =>
      if p.seq = m.seq ∧ (p.st = 0x12 ∨ p.st = 0x13) then
        let s := if p.mapped then mapUpdate ⟨p.lta, p.oldPa, some e, .plain⟩ 2 s else s
        writeDesc slot (s.modPan slot fun p => { p with
          st := 0x11
          newPa := 0
          oldPa := 0
          mapped := false
          closed := false
          rowDone := false })
      else s
    | none => s
  | .reloc n =>
    match Tab.find n s.md.relocs with
    | some r =>
      let s := if r.st = 4 then mapUpdate ⟨r.lta, r.old, some e, .plain⟩ 3 s else s
      { s with md := { s.md with relocs := Tab.modify n (fun r => if r.st = 3 then r else { r with st := 1 }) s.md.relocs } }
    | none => s
  | .mapTile mt => s.modDir mt fun d => { d with dirty := true }
  | _ => s

/-! ## Closure and completion (R215, R297, R344) -/

/-- A data group that destage has left, and of which no row is open, closes. -/
def groupEnd (set g : Nat) (s : State) : State :=
  match s.grp set g with
  | none => s
  | some x =>
    if x.gstate = 1 ∧ !x.slc ∧ (s.set_ set).openG ≠ some g ∧ !(s.md.rows.any fun e => rowSet e.1 == set && rowGroup e.1 == g) then
      closeGroup set g s
    else s

/-- A row that nothing waits for goes. -/
def dropRow (id : Nat) (s : State) : State :=
  groupEnd (rowSet id) (rowGroup id) { s with md := { s.md with rows := Tab.del id s.md.rows } }

/-- The members of a row that are closed, with the row's parity: each is told, and a row with nothing left goes. -/
def rowCheck (id : Nat) (s : State) : State :=
  match s.row id with
  | none => s
  | some x =>
    if !x.parity then s
    else
      let w := max 1 (rowUnitQ s id)
      let ready := x.mem.filter fun e => e.2.closed
      let s := ready.foldl (fun s e => memberSafe (rowEntry s id (e.1 / w) (e.1 % w)) e.2 s) s
      let left := x.mem.filter fun e => !e.2.closed
      if left.isEmpty then dropRow id s else s.modRow id fun x => { x with mem := left }

/-- The pages of a row's unit on a slot close. -/
def closeUnit (id slot : Nat) (s : State) : State :=
  match s.row id, rowGrp s id with
  | some _, some g =>
    let pos := slotPos g.rot (rowStep id) slot
    let w := max 1 (rowUnitQ s id)
    rowCheck id (s.modRow id fun x => { x with mem := x.mem.map fun e => if e.1 / w = pos then (e.1, { e.2 with closed := true }) else e })
  | _, _ => s

/-- The closures that the pass of step `r` of a unit on a slot brings (R215). -/
def closures (set g r slot : Nat) (s : State) : State :=
  match s.grp set g with
  | none => s
  | some x =>
    let p := setProfile s set
    let last := decide (r + 1 = rowsOf p x.slc)
    let steps := if x.slc then [r] else if last then List.range (r + 1) else if p.closeDist ≤ r then [r - p.closeDist] else []
    steps.foldl (fun s t => closeUnit (stripeNo set g t) slot s) s

/-- A row's P and Q have both passed: its accumulators are freed, and ROWS_DONE counts it. -/
def parityDone (id : Nat) (s : State) : State :=
  match s.row id, rowGrp s id with
  | some x, some g =>
    if x.parity || !(x.done.contains 16 && x.done.contains 17) then s
    else
      let s := s.modRow id fun x => { x with parity := true, par := none }
      let s := putGrp (rowSet id) (rowGroup id) { g with rowsDone := g.rowsDone + 1 } s
      rowCheck id s
  | _, _ => s

/-- The unit at a position of a row has been programmed with pass, or its slot is lost and it is left out. -/
def unitPassed (id pos : Nat) (s : State) : State :=
  match s.row id, rowGrp s id with
  | some x, some g =>
    let s := s.modRow id fun x => { x with done := pos :: x.done }
    let s := (membersAt s x id pos).foldl (fun s e => memberPassed (rowEntry s id pos e.1) e.2 s) s
    let s := closures (rowSet id) (rowGroup id) (rowStep id) (posSlot g.rot (rowStep id) pos) s
    parityDone id s
  | _, _ => s

/-- A unit that is ready joins its LUN's queue (R296). -/
def queueUnit (cls id pos : Nat) (s : State) : State :=
  match s.row id, rowPage s id pos 0 with
  | some x, some (g, _) =>
    if x.queued.contains pos then s
    else
      let s := s.modRow id fun x => { x with queued := pos :: x.queued }
      if rowLost s id pos then unitPassed id pos s
      else enqueue (progWant (if x.flush then .flush id pos else .rowUnit id pos) cls 1 0 g (unitPages s x id pos)) s
  | _, _ => s

/-- Whether every stripe of a position has its member. -/
def posFull (s : State) (x : Row) (id pos : Nat) : Bool :=
  (List.range (rowUnitQ s id)).all fun q => (Tab.find (pos * rowUnitQ s id + q) x.mem).isSome

/-- The units of a row that its members make ready: a full data position; P and Q once all 16 are full (R292). -/
def queueReady (cls id pos : Nat) (s : State) : State :=
  match s.row id with
  | none => s
  | some x =>
    let s := if posFull s x id pos then queueUnit cls id pos s else s
    if (List.range 16).all (posFull s x id) then queueUnit cls id 17 (queueUnit cls id 16 s) else s

/-- The first place of a row that has no member: positions in order, and the stripes of each (DESIGN CHOICE, log entry 55). -/
def nextPlace (s : State) (x : Row) (id : Nat) : Option (Nat × Nat) :=
  let w := rowUnitQ s id
  ((List.range (16 * w)).find? fun i => (Tab.find i x.mem).isNone).map fun i => (i / max 1 w, i % max 1 w)

/-- A member put at its place: parity accumulates. -/
def setMember (id pos q : Nat) (m : Member) (s : State) : State :=
  match s.row id with
  | none => s
  | some x =>
    let first := (stripeOf s x id q).isEmpty
    parTouch id q first (s.modRow id fun x => { x with mem := Tab.put (pos * rowUnitQ s id + q) m x.mem })

/-- A member put at its place, and the units it completes queued. -/
def putMember (cls id pos q : Nat) (m : Member) (s : State) : State :=
  match s.row id with
  | none => s
  | some _ =>
    let s := setMember id pos q m s
    -- a group's last row is full: destage leaves the group
    let full : Bool := match s.row id with
      | some x => (nextPlace s x id).isNone
      | none => true
    let s := if full && rowStep id + 1 == rowsOf (setProfile s (rowSet id)) (rowSlc s id) then
        s.modSet (rowSet id) fun x => if x.openG = some (rowGroup id) then { x with openG := none, row := 0 } else x
      else s
    queueReady cls id pos s

/-- The header of a data member (R245). -/
def dataHdr (id pos lta hid kind seq keyidx : Nat) (plain : List Byte) : List Byte :=
  metaBytes (metaHead lta hid kind seq id pos keyidx) plain

/-- A pad member (R291). -/
def padMember (s : State) (id pos : Nat) : Member :=
  { own := .pad
    lta := 0xFFFFFFFFFFFF
    seq := 0
    keyidx := 0xFFFF
    data := zeroTile
    hdr := dataHdr id pos 0xFFFFFFFFFFFF s.hid kData 0 0xFFFF zeroTile }

/-- The row of a set that destage fills: its open group's present row, or the next, or the first of a new group; none where no group can
be opened or the parity store is full. -/
def openRow (set : Nat) (s : State) : Option (Nat × State) :=
  let x := s.set_ set
  let start (g r : Nat) (s : State) : Option (Nat × State) :=
    let id := stripeNo set g r
    (parFit s (parBytes s id)).map fun o =>
      (id, { s with md := { s.md with rows := Tab.put id { group := g, step := r, seq := s.wp.seq, par := some o } s.md.rows } })
  let fresh (s : State) : Option (Nat × State) :=
    match openGroup set 2 false s with
    | none => none
    | some (n, s) =>
      start n 0 (jAppendAll 0 (((s.grp set n).map (groupRecords set n)).getD []) (s.modSet set fun x => { x with openG := some n, row := 1 }))
  match x.openG with
  | none => fresh s
  | some g =>
    let cur := stripeNo set g (x.row - 1)
    match (if x.row = 0 then none else s.row cur).bind fun y => nextPlace s y cur with
    | some _ => some (cur, s)
    | none =>
      if x.row < rowsOf (setProfile s set) false then start g x.row (s.modSet set fun x => { x with row := x.row + 1 })
      else fresh s

/-- A tile encoded into its set's row: false where no row can be had. `data` is its data field as stored, `plain` what TCRC covers. -/
def encodeTile (set : Nat) (own : MemOf) (lta hid seq keyidx : Nat) (data plain : List Byte) (s : State) : Bool × State :=
  match openRow set s with
  | none => (false, s)
  | some (id, s) =>
    match s.row id with
    | none => (false, s)
    | some x =>
      match nextPlace s x id with
      | none => (false, s)
      | some (pos, q) =>
        let m : Member := {
          own := own
          lta := lta
          seq := seq
          keyidx := keyidx
          data := data
          hdr := dataHdr id pos lta hid kData seq keyidx plain }
        (true, putMember 2 id pos q m s)

/-! ## Abandonment and failed units (R240, Table 18-8) -/

/-- A want serves a row. -/
def whyRow (id : Nat) : Why → Bool
  | .rowUnit r _ => r == id
  | .flush r _ => r == id
  | .pqSeal r _ => r == id
  | _ => false

/-- A row abandoned: its queued programs go, and its tiles are destaged into another row. -/
def abandonRow (id : Nat) (s : State) : State :=
  match s.row id with
  | none => s
  | some x =>
    let w := max 1 (rowUnitQ s id)
    let s := x.mem.foldl (fun s e => memberBack (rowEntry s id (e.1 / w) (e.1 % w)) e.2 s) s
    let ks := (s.set_ (rowSet id)).slots
    let s := ks.foldl (fun s k => modLun k (fun l => { l with queue := l.queue.filter fun v => !whyRow id v.why }) s) s
    dropRow id s

/-- The unit of a page marked for retirement. -/
def retirePend (g : Page) (s : State) : State := putUnit (pageUnit s g) (fun u => { u with retire := true }) s

/-- A program of a data unit failed: every member on the block that is not closed is destaged afresh, and stands in its row as a member that
nothing names (DEDUCED, log entry 60). -/
def dataUnitFailed (id pos : Nat) (s : State) : State :=
  match rowGrp s id with
  | none => s
  | some g =>
    let slot := posSlot g.rot (rowStep id) pos
    let ids := (List.range (rowStep id + 1)).map fun r => stripeNo (rowSet id) (rowGroup id) r
    let s := ids.foldl (fun s i =>
      match s.row i with
      | none => s
      | some x =>
        let w := max 1 (rowUnitQ s i)
        let ps := slotPos g.rot (rowStep i) slot
        let mine := x.mem.filter fun e => e.1 / w == ps && !e.2.closed && (i == id || x.done.contains ps)
        let s := mine.foldl (fun s e => memberBack (rowEntry s i ps (e.1 % w)) e.2 s) s
        let drop (e : Nat × Member) : Nat × Member := if mine.any (fun m => m.1 == e.1) then (e.1, { e.2 with own := .pad }) else e
        s.modRow i fun x => { x with mem := x.mem.map drop }) s
    parityDone id (s.modRow id fun x => { x with done := pos :: x.done })

/-! ## Destage (R336, R337), tokens (R296) and pads (R291) -/

/-- A FLUSH entry covers a copy. -/
def flushCovers (s : State) (p : Pan) : Bool :=
  s.reqs.any fun e => e.2.opc == 3 && e.2.waitFor.any fun x => x.2.1 == p.lta && decide (x.2.2 ≤ p.seq)

/-- The coalescing window in ns, as it acts (R368). -/
def windowNs (s : State) : Nat := max 1 (s.get Fld.mapPanCfgWindowMs) * 1000000

/-- A copy may be destaged: no older copy of its LTA is left to destage, and no rewrite of its slot is under way (DEDUCED, log entry 61). -/
def mayDestage (s : State) (slot : Nat) (p : Pan) : Bool :=
  p.st == 0x11 && p.staged && !p.withheld && !rewriting s slot
    && !(s.wp.own.any fun e => e.1 != slot && e.2.lta == p.lta && decide (e.2.seq < p.seq) && e.2.st != 0 && e.2.st != 0x1F)
    && !(s.md.sets.any fun e => e.2.queue.contains slot)

/-- Something starts its destage: window, URGENT, a FLUSH, or pressure, which takes the oldest first. -/
def dueDestage (s : State) (slot : Nat) (p : Pan) : Bool :=
  decide (p.admTime + windowNs s ≤ s.now) || p.urgent || flushCovers s p
    || (pressed s && !(s.wp.own.any fun e => e.1 != slot && mayDestage s e.1 e.2 && decide (e.2.admTime < p.admTime)))

/-- The overlay is full: destage waits (R389). -/
def overlayHeld (s : State) : Bool := demandMap s && overlayFull s

/-- DESTAGE_START (R337, R311): a staged copy is placed, and a mover reads its slot. -/
def execDestageStart (slot : Nat) (s : State) : Out :=
  match s.pan slot with
  | none => .next s
  | some p =>
    match placeTile s false p.lta p.seq with
    | none => .next s
    | some set =>
      onlyIf (s.running && s.stage == 9 && !s.wp.pfail && !flushing s && !s.flag Fld.mapFlushStsDone && !s.wp.destageHeld
          && !overlayHeld s && mayDestage s slot p && dueDestage s slot p) s
        (let s := notePressure s
         let s := s.modSet set fun x => { x with queue := x.queue ++ [slot] }
         let a := s.nextPort
         a.2.queueJob {
           path := .panRead slot
           prio := 3
           vc := 2
           port := a.1
           age := p.rtag
           prog := [moveWord true 0 0 0 0 4095 0 (slotAddr s.img.hold.panBase (ownSlots s) slot)]
           init := []
           crypt := none
           c0 := false })

/-- A slot leaves the destage queues; the set it was placed in. -/
def leaveQueue (slot : Nat) (s : State) : Option Nat × State :=
  match s.md.sets.find? fun e => e.2.queue.contains slot with
  | none => (none, s)
  | some e => (some e.1, s.modSet e.1 fun x => { x with queue := x.queue.erase slot })

/-- A slot read for destage: the tile is encrypted and encoded, and the slot is in state 0x12; where no row can be had or its key is gone, it
waits on as it was. -/
def destageRead (slot : Nat) (plain : List Byte) (s : State) : State :=
  let a := leaveQueue slot s
  let s := a.2
  match a.1, s.pan slot with
  | some set, some p =>
    let data := if p.keyidx = 0xFFFF then some plain else (keyOf s p.keyidx p.hid).map fun k => Config.xtsEncrypt k p.lta plain
    match data with
    | none => s
    | some d =>
      let b := encodeTile set (.pan slot) p.lta p.hid p.seq p.keyidx d plain s
      if b.1 then writeDesc slot (b.2.modPan slot fun p => { p with st := 0x12 }) else s
  | _, _ => s

/-- The parity unit that a program want serves: its row. -/
def parityRow : Why → Option Nat
  | .rowUnit id pos => if 16 ≤ pos then some id else none
  | .pqSeal id _ => some id
  | _ => none

/-- Of two program wants of a set the first takes the token: P or Q of the oldest open row, then the one ready first (R296) (DESIGN CHOICE, log entry
65); of two ready at once the lower channel (Table 01-7). -/
def tokenFirst (s : State) (a b : Want) : Bool :=
  let sooner : Bool := decide (a.since < b.since) || (a.since == b.since && decide (lunCh a.page.lun ≤ lunCh b.page.lun))
  let age (w : Want) : Option Nat := (parityRow w.why).bind fun id => (s.row id).map (·.seq)
  match age a, age b with
  | some x, some y => decide (x < y) || (x == y && sooner)
  | some _, none => true
  | none, some _ => false
  | none, none => sooner

/-- PROGRAM_TOKEN_GRANT (R296). -/
def execProgramTokenGrant (set : Nat) (s : State) : Out :=
  let x := s.set_ set
  let ws := x.slots.flatMap fun k => if s.online k then (s.lun k).queue.filter fun w => w.kind == 1 || w.kind == 3 else []
  match ws.foldl (fun (a : Option Want) w =>
      match a with
      | none => some w
      | some v => if tokenFirst s v w then some v else some w) none with
  | none => .next s
  | some w => onlyIf (s.coreOn && x.token.isNone) s (s.modSet set fun x => { x with token := some w.page.lun })

/-- A copy waits for its page or its parity in a group of the set, and something asks for it (R291). -/
def wantsPads (s : State) (set g : Nat) : Bool :=
  s.md.rows.any fun e => rowSet e.1 == set && rowGroup e.1 == g && e.2.mem.any fun m =>
    match m.2.own with
    | .pan slot =>
      match s.pan slot with
      | some p => p.urgent || flushCovers s p
      | none => false
    | .mapTile _ => s.md.ckpt.isSome
    | _ => false

/-- Pads put at every missing place of a row; `fuel` bounds them. -/
def padRow (id : Nat) : Nat → State → State
  | 0, s => s
  | fuel + 1, s =>
    match s.row id with
    | none => s
    | some x =>
      match nextPlace s x id with
      | none => s
      | some (pos, q) => padRow id fuel (putMember 2 id pos q (padMember s id pos) s)

/-- PAD_ROW (R291): pads fill the present row of a set's open group, or the row after it. -/
def execPadRow (set : Nat) (s : State) : Out :=
  let x := s.set_ set
  match x.openG with
  | none => .next s
  | some g =>
    match openRow set s with
    | none => .next s
    | some (id, t) =>
      onlyIf (s.running && !s.wp.pfail && x.queue.isEmpty && rowGroup id == g && wantsPads s set g) s (padRow id (16 * rowUnitQ t id) t)

end Sys2Proof.Machine
end

