-- ==== Sys2Proof/Machine/Journal.lean ====
section
/-! DEFINITION. The commit journal (chapter 9): streams, their groups and pages, seals, and what a sealed record brings about. -/

namespace Sys2Proof.Machine

/-! ## Groups of a stream (R690, R379) -/

/-- The next journal group of a stream: its set. After a format stream `k` starts on eligible set `k` mod E. -/
def journalSet (s : State) (k : Nat) : Option Nat :=
  let es := journalSets s
  match (s.stream k).lastSet with
  | none => es[k % max 1 es.length]?
  | some n => match es.find? fun e => decide (n < e) with
    | some e => some e
    | none => es[0]?

/-- A journal group opened for a stream: set and group. -/
def openJournal (k : Nat) (s : State) : Option ((Nat × Nat) × State) :=
  match journalSet s k with
  | none => none
  | some n =>
    match openGroup n 5 true s with
    | none => none
    | some (g, s) => some ((n, g), s.setStream k { s.stream k with lastSet := some n })

/-- Data pages of a journal group, and records of a page. -/
def journalPages (s : State) (set : Nat) : Nat := 16 * (setProfile s set).wlPerBlk
def pageRecords (s : State) (set : Nat) : Nat := (setProfile s set).planes * sealedCws (setProfile s set) * 128

/-- The row and the position of a stream's next page. -/
def streamRow (x : Stream) : Nat × Nat :=
  match x.grp with
  | none => (0, 0)
  | some (n, g) => (stripeNo n g (x.pos / 16), x.pos % 16)

/-- A stream's page position has been used: the row's P and Q follow its 16th page, and a full group gives way to the next (R348). -/
def advancePos (k : Nat) (s : State) : State :=
  let x := s.stream k
  match x.grp with
  | none => s
  | some (n, g) =>
    let id := (streamRow x).1
    let s := s.setStream k (if x.pos + 1 < journalPages s n then { x with pos := x.pos + 1 }
      else { x with grp := x.nextG, nextG := none, pos := 0, old := x.old ++ [(n, g, x.jseq)] })
    if x.pos % 16 = 15 then queueUnit 2 id 17 (queueUnit 2 id 16 s) else s

/-! ## Pages (R348) -/

/-- Bytes of a page's records. -/
def recsBytes (l : List JRec) : List Byte := l.flatMap recordBytes

/-- A page's codewords put into a row as members: 128 records each, empty records after the last. -/
def journalMembers (k jseq id pos : Nat) (recs : List JRec) (s : State) : State :=
  let seq := k * 2 ^ 48 + jseq % 2 ^ 48
  (List.range (rowUnitQ s id)).foldl (fun s q =>
    let b := recsBytes ((recs.drop (128 * q)).take 128)
    let data := b ++ List.replicate (4096 - b.length) 0
    setMember id pos q {
      own := .pad
      lta := 0
      seq := seq
      keyidx := 0xFFFF
      data := data
      hdr := dataHdr id pos 0 s.hid kJournal seq 0xFFFF data } s) s

/-- The row of a stream's next page opened where it is not: none where the parity store is full. -/
def journalRow (id : Nat) (s : State) : Option State :=
  match s.row id with
  | some _ => some s
  | none =>
    (parFit s (parBytes s id)).map fun o =>
      { s with md := { s.md with rows := Tab.put id { group := rowGroup id, step := rowStep id, seq := s.wp.seq, par := some o } s.md.rows } }

/-- The operations of a LUN that have not been judged: formed, in its slot, suspended, stalled, to be reissued, or ended. -/
def lunOps (s : State) (k : Nat) : List Op :=
  let l := s.lun k
  l.op.toList ++ ((s.inSlot k).map (·.op)).toList ++ (l.er.map (·.op)).toList ++ (l.stall.map Prod.fst).toList ++ (l.wprot.map Prod.fst).toList
    ++ (s.md.ended.filter fun e => e.op.lun == k && !e.judged).map (·.op)

/-- An erase of a unit is queued or under way: it has not passed (R218). -/
def eraseAwaited (s : State) (x : Nat) : Bool :=
  ((s.lun (unitLun x)).queue ++ (lunOps s (unitLun x)).flatMap (·.wants)).any fun w => w.why == .erase x

/-- A page programmed at the stream's position, a lost slot's position being left out; `fuel` bounds those. None where no row can be
had, or while the erase of the page's unit is awaited (R218). -/
def programPage (k jseq : Nat) (recs : List JRec) : Nat → State → Option State
  | 0, _ => none
  | fuel + 1, s =>
    let x := s.stream k
    match x.grp with
    | none => none
    | some _ =>
      let id := (streamRow x).1
      let pos := (streamRow x).2
      match journalRow id s with
      | none => none
      | some s =>
        if rowLost s id pos then
          programPage k jseq recs fuel (advancePos k (s.modRow id fun r => { r with done := pos :: r.done }))
        else
          let s := journalMembers k jseq id pos recs s
          match s.row id, rowPage s id pos 0 with
          | some r, some (g, _) =>
            if eraseAwaited s (pageUnit s g) then none
            else
            let s := s.setStream k { s.stream k with
              phase := .programming
              places := (s.stream k).places.filter (fun x => x.1 != jseq) ++ [(jseq, unitKey g.lun (unitNo (pageUnit s g)), rowStep id)] }
            some (enqueue (progWant (.jpage k) 2 1 0 g (unitPages s r id pos)) s)
          | _, _ => none

/-- Records a stream's next page takes: the group's last page keeps room for the records of the next group (R379). -/
def pageRoom (s : State) (x : Stream) : Nat :=
  match x.grp with
  | none => 0
  | some (n, _) => pageRecords s n - (if x.pos + 1 = journalPages s n ∧ x.nextG.isNone then 19 else 0)

/-- A stream with a group to write into: its own, or one opened now, whose records go into the group's first page (DEDUCED, log entry 81). -/
def withGroup (k : Nat) (s : State) : Option State :=
  match (s.stream k).grp with
  | some _ => some s
  | none => (openJournal k s).map fun a =>
    a.2.setStream k { a.2.stream k with
      grp := some a.1
      pos := 0
      page := (((a.2.grp a.1.1 a.1.2).map (groupRecords a.1.1 a.1.2)).getD []) ++ (a.2.stream k).page }

/-- The next group opened where the coming page is the last of its group: its records join the page. -/
def lastPage (k : Nat) (s : State) : Option (List JRec × State) :=
  let x := s.stream k
  match x.grp with
  | none => none
  | some (n, _) =>
    if x.pos + 1 = journalPages s n ∧ x.nextG.isNone then
      (openJournal k s).map fun a =>
        ((((a.2.grp a.1.1 a.1.2).map (groupRecords a.1.1 a.1.2)).getD []), a.2.setStream k { a.2.stream k with nextG := some a.1 })
    else some ([], s)

/-- A stream's open page programmed. -/
def streamProgram (k : Nat) (s : State) : Option State :=
  (withGroup k s).bind fun s =>
    let recs := (s.stream k).page.take (pageRoom s (s.stream k))
    (lastPage k s).bind fun a =>
      let x := a.2.stream k
      let all := recs ++ a.1
      let s := a.2.setStream k { x with
        page := x.page.drop recs.length
        since := s.now
        jseq := x.jseq + 1
        flight := x.flight ++ [(x.jseq, all)] }
      programPage k x.jseq all 64 s

/-- JOURNAL_PAGE_PROGRAM (R348): the open page is full, or its first record has waited JRN_WAIT; a page whose rewriting found no row is tried
again first. -/
def execJournalPageProgram (k : Nat) (s : State) : Out :=
  let x := s.stream k
  let may := s.running && decide (k < streamCount s ∧ x.phase = .filling) && !s.flag Fld.mapFlushStsDone
  match x.flight with
  | (j, recs) :: _ =>
    match (withGroup k s).bind (programPage k j recs 64) with
    | some t => onlyIf may s t
    | none => .next s
  | [] =>
    match streamProgram k s with
    | none => .next s
    | some t =>
      let full := ((withGroup k s).map fun u => decide (pageRoom u (u.stream k) ≤ x.page.length)).getD false
      onlyIf (may && decide (x.page ≠ []) && (full || decide (x.since + s.img.hold.jrnWait * 1000 ≤ s.now))) s t

/-- A page's content programmed again at the next position, with the same jseq (R235, R240). -/
def rewritePage (k : Nat) (s : State) : State :=
  match (s.stream k).flight with
  | [] => s
  | (j, recs) :: _ =>
    let s := advancePos k s
    match (withGroup k s).bind (programPage k j recs 64) with
    | some t => t
    | none => s.setStream k { s.stream k with phase := .filling }

/-! ## Seals (R232 to R235, R344) -/

/-- The seal of a stream's page queued, once its first program has passed. -/
def queueSeal (k : Nat) (s : State) : State :=
  let x := s.stream k
  let id := (streamRow x).1
  match x.flight, rowPage s id (streamRow x).2 0 with
  | (j, _) :: _, some (g, _) =>
    let s := s.setStream k { x with phase := .sealing }
    let s := s.modRow id fun r => { r with done := (streamRow x).2 :: r.done }
    enqueue (progWant (.jseal k) 2 3 0x0C g (sealPages (s.profile g.lun) j)) s
  | _, _ => s

/-- The seal of a journal row's P or Q unit: the marker of the page at position 15 (R348). -/
def queuePqSeal (id pos : Nat) (s : State) : State :=
  match s.row id, rowPage s id pos 0 with
  | some r, some (g, _) =>
    let j := ((membersAt s r id 15).head?.map fun e => e.2.seq % 2 ^ 48).getD 0
    enqueue (progWant (.pqSeal id pos) 2 3 0x0C g (sealPages (s.profile g.lun) j)) s
  | _, _ => s

/-- RESERVE or RELEASE records that are not yet sealed (R365). -/
def reservesOpen (s : State) : Bool :=
  let x := s.stream 0
  (x.page ++ x.flight.flatMap (·.2)).any fun r => r.rtype == jReserve || r.rtype == jRelease

/-- A group released to reclaim: its units await erase (R365, R386). -/
def releaseGroup (set g : Nat) (s : State) : State :=
  match s.grp set g with
  | none => s
  | some x =>
    let s := ((s.set_ set).slots.zip x.unit).foldl (fun s e => putUnit (unitKey e.1 e.2) (fun u => { u with estate := 1, valid := 0 }) s) s
    { s with md := { s.md with groups := Tab.del (grpKey set g) s.md.groups } }

/-- A record is sealed: a copy's MAP record (R344), an unmap (R380), a group of the flush reserve that reload has read (R365). -/
def recSealed (r : JRec) (s : State) : State :=
  if r.rtype = jMap then
    let l := (s.wp.own.filter fun e => e.2.lta == r.lta && e.2.seq == r.seq && e.2.appended).map Prod.fst
    l.foldl (fun s k => mediaCheck k (s.modPan k fun p => { p with recorded := true })) s
  else if r.rtype = jUnmap then
    let hit (x : Nat × Nat × Nat) : Bool := x.2.1 == r.lta && x.2.2 == r.seq
    let rs := bySluice (s.reqs.filter fun e => e.2.opc == 4 && e.2.waitFor.any hit)
    let s := rs.foldl (fun s t => requestCheck t (s.modRq t fun q => { q with waitFor := q.waitFor.filter fun x => !hit x })) s
    reached r.lta r.seq (raiseTiles r.lta r.seq 3 false s)
  else if r.rtype = jRelease then releaseGroup (r.lta / 2 ^ 18) (r.lta % 2 ^ 18) s
  else s

/-- A page's seal has passed: its records are sealed in order, and the stream's next page may be programmed. -/
def sealPassed (k : Nat) (s : State) : State :=
  let x := s.stream k
  match x.flight with
  | [] => s
  | (j, recs) :: rest =>
    let s := s.setStream k { x with flight := rest, pages := x.pages ++ [(j, recs)], phase := .filling }
    let s := advancePos k s
    let s := recs.foldl (fun s r => recSealed r s) s
    if s.wp.destageHeld ∧ !reservesOpen s then { s with wp := { s.wp with destageHeld := false } } else s

end Sys2Proof.Machine
end

