-- ==== Sys2Proof/Machine/Checkpoint.lean ====
section
/-! DEFINITION. Checkpoints (chapter 10): their steps, their tiles, their areas, and what their commit releases. -/

namespace Sys2Proof.Machine

/-! ## Areas (R381) -/

/-- K, the erase units of an area on each LUN. -/
def areaUnits (s : State) : Nat := s.img.geo.ckptUnits

/-- The group number that stands for unit `i` of an area (DESIGN CHOICE, log entry 28). -/
def areaGroup (s : State) (area i : Nat) : Nat := 2 ^ 18 - 1 - (area * areaUnits s + i)

/-- The erase units of an area on every LUN of a set. -/
def areaUnitKeys (s : State) (area : Nat) : List Nat :=
  s.md.sets.flatMap fun e => e.2.slots.flatMap fun k => (List.range (areaUnits s)).map fun i => unitKey k (area * areaUnits s + i)

/-- Rows of an area on a set, as (unit, word line): word lines 0 and 1 of its first unit stand apart. -/
def areaRows (s : State) (set : Nat) : List (Nat × Nat) :=
  (List.range (areaUnits s)).flatMap fun i =>
    ((List.range (setProfile s set).wlPerBlk).filter fun w => decide (i ≠ 0 ∨ 2 ≤ w)).map fun w => (i, w)

/-- Tiles that an area holds on a set. -/
def areaRoom (s : State) (set : Nat) : Nat := (areaRows s set).length * 16 * rowQ (setProfile s set) true 0

/-! ## Tiles (R375, R382) -/

/-- Map tiles. -/
def mapTiles (s : State) : Nat := (ltaCount s + 511) / 512

/-- Tiles of the directory, the block table and the group table. -/
def dirTiles (s : State) : Nat := (8 * mapTiles s + 4095) / 4096
def btTiles (s : State) : Nat := (32 * unitCount s + 4095) / 4096
def gtTiles (s : State) : Nat := (128 * (s.md.sets.length * grpsPerSet s) + 4095) / 4096
def ckptTiles (s : State) : Nat := dirTiles s + btTiles s + gtTiles s

/-- The erase units of the fitted targets, in table order. -/
def allUnits (s : State) : List Nat :=
  (fittedBefore s 128 0).flatMap fun ti => (List.range (s.profileAt ti).luns).flatMap fun l =>
    (List.range (s.profileAt ti).unitsPerLun).map fun u => unitKey (ti / 8 * 32 + ti % 8 * 4 + l) u

/-- Bytes filled with zeros to a tile. -/
def fillTile (b : List Byte) : List Byte := b ++ List.replicate (4096 - b.length) 0

/-- The data field of checkpoint tile `t`; `dir` is the directory as the checkpoint takes it. -/
def ckptTileData (s : State) (dir : Tab Nat) (t : Nat) : List Byte :=
  if t < dirTiles s then
    fillTile ((List.range 512).flatMap fun i => if 512 * t + i < mapTiles s then numBytes 8 (Tab.get 0 (512 * t + i) dir) else [])
  else if t < dirTiles s + btTiles s then
    let us := allUnits s
    fillTile ((List.range 128).flatMap fun i =>
      match us[128 * (t - dirTiles s) + i]? with
      | some x => unitBytes (s.unit x)
      | none => [])
  else
    let n := grpsPerSet s
    fillTile ((List.range 32).flatMap fun i =>
      let j := 32 * (t - dirTiles s - btTiles s) + i
      match s.grp (j / max 1 n) (j % max 1 n) with
      | some g => grpBytes g
      | none => List.replicate 128 0)

/-- A map tile as a checkpoint takes it: the line's entries that the map cache holds newer, and OLD_PA of copies in state 0x13 (R344). -/
def mapTileData (s : State) (mt : Nat) (dram : List Byte) : List Byte :=
  (List.range 512).flatMap fun i =>
    let lta := 512 * mt + i
    let e := bytesNum ((dram.drop (8 * i)).take 8)
    let e := match Tab.find (lta / 8) s.md.cache with
      | some l => (l.ents[lta % 8]?).getD e
      | none => e
    let e := match s.wp.own.find? fun p => p.2.lta == lta && p.2.st == 0x13 with
      | some p => p.2.oldPa
      | none => e
    numBytes 8 e

/-! ## Steps (R382) -/

/-- The checkpoint that runs, changed. -/
def State.modCkpt (s : State) (f : Ckpt → Ckpt) : State := { s with md := { s.md with ckpt := s.md.ckpt.map f } }

/-- A map tile read for its copy: placed and encoded as a system tile with a new SEQ; where no row can be had it is dirty again. -/
def tileForCkpt (mt : Nat) (dram : List Byte) (s : State) : State :=
  let data := mapTileData s mt dram
  let a := nextSeq s
  let lta := 0xF00000000000 + mt
  let again (s : State) : State := s.modDir mt fun d => { d with dirty := true }
  match placeTile a.2 true lta a.1 with
  | none => again s
  | some set =>
    let b := encodeTile set (.mapTile mt) lta s.hid a.1 0xFFFF data data a.2
    if b.1 then b.2 else again s

/-- An erase of a unit queued, in class 3 (Table 06-1). -/
def queueErase (x : Nat) (s : State) : State :=
  let k := unitLun x
  let p := s.profile k
  enqueue (progWant (.erase x) 3 2 0 ⟨k, unitNo x * p.planes, 0, (s.unit x).slc⟩ []) s

/-- Step 2: the older area's units erased. -/
def eraseArea (area : Nat) (s : State) : State :=
  let us := (areaUnitKeys s area).filter fun x => s.online (unitLun x)
  let s := us.foldl (fun s x => queueErase x (s.modUnit x fun u => { u with slc := true, estate := 6 })) s
  s.modCkpt fun c => { c with stepNo := 2, erases := us }

/-- The row of an area opened for its tiles. -/
def areaRow (area set : Nat) (ri : Nat × Nat) (s : State) : Option (Nat × State) :=
  let g := areaGroup s area ri.1
  let id := stripeNo set g ri.2
  match s.row id with
  | some _ => some (id, s)
  | none =>
    let us := (s.set_ set).slots.map fun _ => area * areaUnits s + ri.1
    let s := s.setGrp set g { unit := us, rot := rotOf s set g (((s.md.ckpt.map (·.no)).getD 0)), gstate := 1, slc := true }
    (parFit s (parBytes s id)).map fun o =>
      (id, { s with md := { s.md with rows := Tab.put id { group := g, step := ri.2, seq := s.wp.seq, par := some o } s.md.rows } })

/-- Step 3: checkpoint tiles put at their places in order, as far as the parity store has room; then pads fill the last rows. -/
def placeTiles : Nat → State → State
  | 0, s => s
  | fuel + 1, s =>
    match s.md.ckpt with
    | none => s
    | some c =>
      let n := s.md.sets.length
      match (s.md.sets[c.next % max 1 n]?) with
      | none => s
      | some e =>
        if ckptTiles s ≤ c.next then
          (s.md.rows.filter fun r => isArea r.1).foldl (fun s r => padRow r.1 (16 * rowUnitQ s r.1) s) s
        else
          let d := c.next / max 1 n
          let w := rowQ (setProfile s e.1) true 0
          match (areaRows s e.1)[d / max 1 (16 * w)]? with
          | none => s
          | some ri =>
            match areaRow c.area e.1 ri s with
            | none => s
            | some (id, s) =>
              let i := d % max 1 (16 * w)
              let data := ckptTileData s c.dir c.next
              let lta := 0xF80000000000 + c.next
              let m : Member := {
                own := .ckpt c.next
                lta := lta
                seq := c.no
                keyidx := 0xFFFF
                data := data
                hdr := dataHdr id (i / max 1 w) lta s.hid kData c.no 0xFFFF data }
              placeTiles fuel (putMember 3 id (i / max 1 w) (i % max 1 w) m (s.modCkpt fun c => { c with next := c.next + 1 }))

/-- The steps of a running checkpoint carried on as far as they can be. -/
def ckptAdvance (s : State) : State :=
  match s.md.ckpt with
  | none => s
  | some c =>
    if c.stepNo = 1 then
      if c.tiles.isEmpty then eraseArea c.area s
      else readTiles (c.tiles.filter fun mt => (s.dirOf mt).dirty) s
    else if c.stepNo = 2 then
      if c.erases.isEmpty then
        placeTiles (ckptTiles s + 1) (s.modCkpt fun c => { c with stepNo := 3, left := ckptTiles s, dir := s.md.dir.map fun e => (e.1, e.2.loc) })
      else s
    else if c.stepNo = 3 then placeTiles (ckptTiles s + 1) s
    else s

/-- TRIG as it acts (R415). -/
def ckptTrig (s : State) : Nat := max (2 ^ 20) (min (2 ^ 27) (s.get Fld.mapCkptCfgTrig))

/-- The area a new checkpoint goes to. -/
def nextArea (s : State) : Nat :=
  match s.md.badArea with
  | some a => 1 - a
  | none => if s.md.ckptNo = 0 then 0 else 1 - s.md.ckptArea

/-- A checkpoint begun (R382): the pointers are the streams' open pages. -/
def beginCkpt (s : State) : State :=
  let dirty := (s.md.dir.filter fun e => e.2.dirty).map Prod.fst
  let c : Ckpt := {
    no := s.md.ckptNo + 1
    ptr := (List.range (streamCount s)).map fun k => (s.stream k).jseq
    seqBase := s.wp.seq
    area := nextArea s
    tiles := dirty
    erases := []
    left := 0
    heads := [] }
  ckptAdvance ({ s with md := { s.md with ckpt := some c } }.putFlag Fld.mapCkptStsActive true)

/-- A stream holds TRIG records or more beyond the pointer. -/
def ckptDue (s : State) : Bool := (List.range (streamCount s)).any fun k => decide (ckptTrig s ≤ (s.stream k).since_ckpt)

/-- The areas cannot hold the tiles (R387). -/
def areaSmall (s : State) : Bool :=
  let n := max 1 s.md.sets.length
  s.md.sets.any fun e => decide (areaRoom s e.1 < (ckptTiles s + n - 1) / n)

/-- Checkpoint 1 of a format is due: the erases of the first journal groups have completed (R104). -/
def formatDue (s : State) : Bool :=
  s.stage == 7 && s.md.formatting && s.md.ckptNo == 0 && s.md.units.all fun e => e.2.estate != 5 || e.2.pec != 0

/-- CHECKPOINT_START (R104, R385, R387); while a checkpoint runs it carries its steps on. -/
def execCheckpointStart (s : State) : Out :=
  match s.md.ckpt with
  | some _ => onlyIf (s.running && (s.stage == 9 || formatDue s)) s (ckptAdvance s)
  | none =>
    onlyIf (s.running && ((s.stage == 9 && ckptDue s) || formatDue s) && !s.wp.pfail && !s.md.sets.isEmpty) s
      (if areaSmall s then
        (if s.flag Fld.mapCkptStsSmall then s else (s.putFlag Fld.mapCkptStsSmall true).logPacked uMAP 0x100F)
       else beginCkpt s)

/-! ## Commit (R382 to R386) -/

/-- The place of a stream's page: where it has been programmed, or, for the page still open, where it will be. -/
def pagePlace (s : State) (x : Stream) (j : Nat) : Option (Nat × Nat) :=
  match x.places.find? fun p => p.1 == j with
  | some p => some p.2
  | none =>
    let at_ (n g pos : Nat) : Option (Nat × Nat) := (rowLun s (stripeNo n g (pos / 16)) (pos % 16)).map fun l => (unitKey l.1 l.2, pos / 16)
    match x.grp with
    | none => none
    | some (n, g) =>
      let pos := x.pos + x.flight.length
      if pos < journalPages s n then at_ n g pos else x.nextG.bind fun e => at_ e.1 e.2 0

/-- A header copy's data field (Table 10-5). -/
def headerData (s : State) (c : Ckpt) (set slot : Nat) : List Byte :=
  let ptr (k : Nat) : List Byte :=
    match c.ptr[k]? with
    | some j =>
      match pagePlace s (s.stream k) j with
      | some (u, w) => numBytes 8 j ++ numBytes 4 u ++ numBytes 2 w ++ numBytes 2 0
      | none => numBytes 8 j ++ List.replicate 8 0
    | none => List.replicate 16 0
  let b := numBytes 4 0x54504B43 ++ numBytes 2 1 ++ numBytes 1 set ++ numBytes 1 slot ++ numBytes 8 c.no ++ numBytes 4 (dirTiles s)
    ++ numBytes 4 (btTiles s) ++ numBytes 4 (gtTiles s) ++ numBytes 1 s.md.sets.length ++ numBytes 1 (streamCount s) ++ numBytes 2 0
    ++ (List.range 16).flatMap ptr ++ numBytes 8 c.seqBase
  let b := b ++ List.replicate (0xFFC - b.length) 0
  b ++ numBytes 4 (crc32c b).toNat

/-- The pages of word line `w` of an area's first unit on a LUN whose codeword 0 carries a data field; the others carry zeros. -/
def areaPages (s : State) (k area w seq : Nat) (data : List Byte) (sealed_ : Bool) : Page × List (List Byte) :=
  let p := s.profile k
  let u := area * areaUnits s
  let g : Page := ⟨k, u * p.planes, w, true⟩
  let n := if sealed_ then sealedCws p else p.cwPerPage
  (g, (List.range p.planes).map fun pl =>
    let gp : Page := ⟨k, u * p.planes + pl, w, true⟩
    let cws := (List.range n).map fun cw =>
      let d := if pl = 0 ∧ cw = 0 then data else zeroTile
      encodeMember s gp cw d (metaBytes (metaHead 0 s.hid kJournal seq 0 0 0xFFFF) d)
    pageBytes s gp cws sealed_)

/-- The header copy of a LUN programmed. -/
def queueHeader (c : Ckpt) (set slot k : Nat) (s : State) : State :=
  let a := areaPages s k c.area 0 c.no (headerData s c set slot) (s.profile k).slcSeal
  enqueue (progWant (.header k) 3 1 0 a.1 a.2) s

/-- CHECKPOINT_COMMIT (R382): once every checkpoint tile has passed, the header copies are programmed. -/
def execCheckpointCommit (s : State) : Out :=
  match s.md.ckpt with
  | none => .next s
  | some c =>
    let luns := s.md.sets.flatMap fun e => (e.2.slots.zipIdx.filter fun x => s.online x.1).map fun x => (e.1, x.2, x.1)
    onlyIf (s.running && !s.wp.pfail && decide (c.stepNo = 3 ∧ ckptTiles s ≤ c.next ∧ c.left = 0)) s
      (luns.foldl (fun s x => queueHeader c x.1 x.2.1 x.2.2 s)
        (s.modCkpt fun c => { c with stepNo := 4, heads := luns.map fun x => x.2.2 }))

/-- A header copy has been programmed: it is committed by a seal, or by a commit page (R384). -/
def queueCommit (k : Nat) (s : State) : State :=
  match s.md.ckpt with
  | none => s
  | some c =>
    let p := s.profile k
    if p.slcSeal then
      enqueue (progWant (.commit k) 3 3 0x0C ⟨k, c.area * areaUnits s * p.planes, 0, true⟩ (sealPages p c.no)) s
    else
      let m := (List.replicate 512 (numBytes 8 (sealMark c.no))).flatten
      let a := areaPages s k c.area 1 c.no m false
      enqueue (progWant (.commit k) 3 1 0 a.1 a.2) s

/-- What a stream keeps once a checkpoint with its pointer is valid: records beyond it, and the groups that either pointer needs. -/
def streamCkpt (k ptr : Nat) (s : State) : State :=
  let x := s.stream k
  let low := min ptr x.ptr
  let gone := x.old.filter fun g => decide (g.2.2 ≤ low)
  let kept := x.pages.filter fun p => decide (ptr ≤ p.1)
  let n := (kept.map fun p => p.2.length).foldl (· + ·) 0 + (x.flight.map fun p => p.2.length).foldl (· + ·) 0 + x.page.length
  let s := s.setStream k { x with
    ptrOld := x.ptr
    ptr := ptr
    since_ckpt := n
    pages := x.pages.filter fun p => decide (low ≤ p.1)
    places := x.places.filter fun p => decide (low ≤ p.1)
    old := x.old.filter fun g => !decide (g.2.2 ≤ low) }
  gone.foldl (fun s g => releaseGroup g.1 g.2.1 s) s

/-- The last step of a format, once checkpoint 1 is complete (R104). -/
def formatEnd (s : State) : State :=
  if s.md.formatting then
    (({ s with md := { s.md with formatting := false } } : State).putFlag Fld.glbBootStsFormatted true).logPacked uGLB 0x101C
  else s

/-- The checkpoint is valid: it is the newest; what only older ones named is stale. -/
def ckptDone (c : Ckpt) (s : State) : State :=
  let s : State := { s with md := { s.md with ckpt := none, ckptNo := c.no, ckptArea := c.area, ckptDir := c.dir, repTiles := [] } }
  let s := ((s.putFlag Fld.mapCkptStsActive false).putFlag Fld.mapCkptStsHeld false).put Fld.mapCkptStsCkptNo c.no
  let s := (c.ptr.zipIdx).foldl (fun s e => streamCkpt e.2 e.1 s) s
  let gone := s.md.stale.filter fun e => decide (e.2 + 2 ≤ c.no)
  let s : State := { s with md := { s.md with stale := s.md.stale.filter fun e => !decide (e.2 + 2 ≤ c.no) } }
  formatEnd (gone.foldl (fun s e => putUnit (entUnit s e.1) (fun u => { u with valid := u.valid - 1 }) s) s)

/-- A LUN's header copy is committed, or its LUN is out of it. -/
def headDone (k : Nat) (s : State) : State :=
  match s.md.ckpt with
  | none => s
  | some c =>
    let c := { c with heads := c.heads.erase k }
    if c.stepNo = 4 ∧ c.heads.isEmpty then ckptDone c s else { s with md := { s.md with ckpt := some c } }

/-- A unit of the area has failed: more than two in one group make the area unusable, and the checkpoint ends (R387). -/
def areaFailed (x : Nat) (s : State) : State :=
  let s := putUnit x (fun u => { u with retire := true }) s
  match s.md.ckpt, setOf s (unitLun x) with
  | some c, some n =>
    let bad := ((s.set_ n).slots.filter fun k => (s.unit (unitKey k (unitNo x))).retire).length
    if 2 < bad then
      let rows := (s.md.rows.filter fun r => isArea r.1).map Prod.fst
      let s := rows.foldl (fun s r => abandonRow r s) s
      let s := { s with md := { s.md with ckpt := none, badArea := some c.area } }
      ((s.putFlag Fld.mapCkptStsAreaBad true).putFlag Fld.mapCkptStsActive false).logPacked uMAP 0x100F
    else ckptAdvance (s.modCkpt fun c => { c with erases := c.erases.erase x })
  | _, _ => s

end Sys2Proof.Machine
end

