-- ==== Sys2Proof/Machine/Reclaim.lean ====
section
/-! DEFINITION. Background writing (chapters 8 and 10): relocation, reclaim and its erases, the rake, hot LUNs, and the loss of LUNs with
its rebuilds. -/

namespace Sys2Proof.Machine

/-! ## Relocation (R397, R398) -/

/-- A relocation, and a change to one. -/
def State.reloc (s : State) (n : Nat) : Option Reloc := Tab.find n s.md.relocs
def State.modReloc (s : State) (n : Nat) (f : Reloc → Reloc) : State := { s with md := { s.md with relocs := Tab.modify n f s.md.relocs } }
def State.dropReloc (s : State) (n : Nat) : State := { s with md := { s.md with relocs := Tab.del n s.md.relocs } }

/-- The job that writes or reads a relocation slot (Table 12-1). -/
def relocJob (n : Nat) (prog : List (BitVec 128)) (data : List Byte) (s : State) : State :=
  let a := s.nextPort
  a.2.queueJob {
    path := .relocation n
    prio := 3
    vc := 3
    port := a.1
    age := 0
    prog := prog
    init := bufPut 0 data []
    crypt := none
    c0 := false }

/-- The address of a relocation slot. -/
def relocAddr (s : State) (n : Nat) : Nat := s.img.geo.relocBase + 4160 * n

/-- A relocated tile has been read and has passed R254: its ciphertext is staged; one abandoned meanwhile goes. -/
def relocRead (n : Nat) (raw : List Byte) (s : State) : State :=
  match s.reloc n with
  | none => s
  | some r =>
    if r.st ≠ 0 then s.dropReloc n
    else
      let m := readMeta raw
      let s := s.modReloc n fun r => { r with st := 5, keyidx := m.keyidx, hid := m.hid }
      relocJob n [moveWord false 1 0 0 0 4095 0 (relocAddr s n), waitRespWord ||| iput 123 1] (raw.take 4096) s

/-- A staged relocation read for destage, where a set takes it. -/
def relocDestage (n : Nat) (s : State) : State :=
  match s.reloc n with
  | none => s
  | some r =>
    if r.st = 3 then s.dropReloc n
    else if r.st ≠ 1 then s
    else relocJob n [moveWord true 0 0 0 0 4095 0 (relocAddr s n)] [] (s.modReloc n fun r => { r with st := 6 })

/-- A relocation slot's job has completed: it is staged, or its ciphertext is encoded with a new SEQ and a new TCRC (R397). -/
def relocJobDone (n : Nat) (buf : List Byte) (s : State) : State :=
  match s.reloc n with
  | none => s
  | some r =>
    if r.st = 3 then s.dropReloc n
    else if r.st = 5 then relocDestage n (s.modReloc n fun r => { r with st := 1 })
    else if r.st = 6 then
      let a := nextSeq s
      let m : Meta := ⟨r.lta, r.hid, kData, a.1, 0, 0, r.keyidx, 0⟩
      match plainOf s m buf, placeTile a.2 true r.lta a.1 with
      | some plain, some set =>
        let b := encodeTile set (.reloc n) r.lta r.hid a.1 r.keyidx buf plain (a.2.modReloc n fun r => { r with st := 2, seq := a.1 })
        if b.1 then b.2 else s.modReloc n fun r => { r with st := 1 }
      | none, _ => s.dropReloc n
      | _, none => s.modReloc n fun r => { r with st := 1 }
    else s

/-- A fault of a relocation's job: it is abandoned (Table 12-9). -/
def relocFault (n : Nat) (s : State) : State := s.dropReloc n

/-- Why a tile on a unit is to be relocated: its group is a victim; its block is to be retired; its set drains. -/
def mustMove (s : State) (g : Page) : Bool :=
  let x := pageUnit s g
  let u := s.unit x
  s.md.victims.contains (grpKey (u.gref / 2 ^ 18) (u.gref % 2 ^ 18)) || u.retire || (s.set_ (u.gref / 2 ^ 18)).drain

/-- A period of a rate per second, in ns; a rate of 0 never comes round. -/
def rateDue (s : State) (last perSec : Nat) : Bool := decide (perSec ≠ 0 ∧ last + 1000000000 / perSec ≤ s.now)

/-- The rake may start a tile: RATE in thousands per second (R408). -/
def rakeDue (s : State) : Bool := rateDue s s.md.rakeAt (s.get Fld.mapRakeCfgRate * 1000)

/-- The rake's turn for a tile: refresh work and hot tiles alternate while both wait (R408). -/
def rakeMay (s : State) (lta : Nat) (g : Page) : Option Bool :=
  let refresh := s.md.rakeUnit == some (pageUnit s g)
  let hot := s.md.hotQ.contains lta
  if !rakeDue s then none
  else if refresh && (s.md.refreshTurn || s.md.hotQ.isEmpty) then some true
  else if hot && (!s.md.refreshTurn || s.md.rakeUnit.isNone) && rateDue s s.md.hotRelAt (s.get Fld.mapHotCfgRelocRate) then some false
  else none

/-- The map entry of an LTA where the engine holds it: in the map cache, or as it was last changed. -/
def knownEntry (s : State) (lta : Nat) : Option Nat :=
  match cacheHas s (lta / 8) with
  | some l => l.ents[lta % 8]?
  | none => Tab.find lta s.md.mapNow

/-- RELOCATION (R397): a tile whose map entry is `e` is read for its relocation; one that is staged and found no place is destaged. -/
def execRelocation (lta e : Nat) (s : State) : Out :=
  match s.md.relocs.find? fun x => x.2.lta == lta with
  | some (n, _) => onlyIf (s.running && s.stage == 9 && !s.wp.pfail) s (relocDestage n s)
  | none =>
    let n := firstFree s.md.relocs 0
    let g := entPage s e
    let set := (s.unit (pageUnit s g)).gref / 2 ^ 18
    let rake := rakeMay s lta g
    let cached := ((knownEntry s lta).map fun x => x == e).getD true
    onlyIf (s.running && s.stage == 9 && !s.wp.pfail && !s.flag Fld.mapFlushStsDone && decide (n < s.img.geo.relocSlots)
        && entState e == 1 && entryInGeometry s e && cached && !(s.wp.own.any fun p => p.2.lta == lta && p.2.st != 0)
        && (mustMove s g || rake.isSome)) s
      (let s : State := match mustMove s g, rake with
         | false, some b => { s with md := { s.md with
             rakeAt := s.now
             refreshTurn := !b
             hotRelAt := if b then s.md.hotRelAt else s.now
             hotQ := if b then s.md.hotQ else s.md.hotQ.erase lta } }
         | _, _ => s
       let cls := if mustMove s g then reclaimClass s set else 3
       let s := { s with md := { s.md with relocs := Tab.put n { lta := lta, old := e, cls := cls } s.md.relocs } }
       startRd {
         own := .reloc n
         cls := cls
         rtag := 0
         entry := e
         page := g
         cw := entCw e
         lta := lta
         keyidx := anyKey
         kind := kData } s)

/-! ## Erases (R399, R401, R405) -/

/-- A record names an old address on a unit and is not sealed yet. -/
def unsealedFrom (s : State) (x : Nat) : Bool :=
  let on (e : Nat) : Bool := entState e == 1 && entUnit s e == x
  (s.wp.streams.any fun k => (k.2.page ++ k.2.flight.flatMap (·.2)).any fun r => (r.rtype == jMap || r.rtype == jUnmap) && on r.oldPa)
    || (s.wp.own.any fun p => p.2.st == 0x13 && !p.2.recorded && on p.2.oldPa)
    || (s.md.relocs.any fun r => r.2.st == 4 && on r.2.old)

/-- A unit may be erased (R399). -/
def erasable (s : State) (x : Nat) : Bool := (s.unit x).valid == 0 && !unsealedFrom s x

/-- An erase of the LUN is queued, formed, or in flight. -/
def erasePending (s : State) (k : Nat) : Bool := eraseBusy s k || (s.lun k).queue.any fun w => w.kind == 2

/-- Wear added by an erase (R405). -/
def wearOf (s : State) (x : Nat) : Nat :=
  let p := s.profile (unitLun x)
  if (s.unit x).slc then (16 * p.peRating + p.peSlc - 1) / max 1 p.peSlc else 16

/-- A unit retired: for good, with its record (R240, R402); a slot without a unit left counts lost, which LUN_OFFLINE then tells. -/
def retireUnit (x : Nat) (s : State) : State :=
  let s := putUnit x (fun u => { u with estate := 7, retire := false }) s
  let s := (jAppend 0 ⟨jRetire, unitId x, 0, 0, 0⟩ s).inc Fld.mapRclStsRetired
  let k := unitLun x
  let p := s.profile k
  let left := (List.range p.unitsPerLun).any fun u => decide ((s.unit (unitKey k u)).estate ≠ 7 ∧ (s.unit (unitKey k u)).estate ≠ 6)
  if left ∨ (setOf s k).isNone ∨ s.md.offQ.contains k then s else { s with md := { s.md with offQ := s.md.offQ ++ [k] } }

/-- The spread of PEC in a geometry class. -/
def pecSpread (s : State) (cls : List Nat) : Nat :=
  let ps := (allUnits s).filterMap fun x => if geoClass s (unitLun x) = cls ∧ (s.unit x).estate ≠ 7 then some (s.unit x).pec else none
  match ps with
  | [] => 0
  | a :: r => r.foldl max a - r.foldl min a

/-- The wear rule is on for a class, by hysteresis (R404). -/
def wearRule (s : State) (cls : List Nat) : Bool :=
  let d := s.get Fld.mapWearCfgDelta
  decide (d * 16 < pecSpread s cls) || (s.md.wearOn.contains cls && decide (d * 12 ≤ pecSpread s cls))

/-- The wear rule of a unit's class as its PEC has changed it (R404). -/
def noteWear (x : Nat) (s : State) : State :=
  let c := geoClass s (unitLun x)
  let on : List (List Nat) := if wearRule s c then c :: s.md.wearOn.erase c else s.md.wearOn.erase c
  { s with md := { s.md with wearOn := on } }

/-- A unit of its LUN's calibration ledger (R570). -/
def isLedger (s : State) (x : Nat) : Bool :=
  let u := (s.profile (unitLun x)).unitsPerLun
  decide (u ≤ unitNo x + 2)

/-- The other ledger unit of a LUN is erased: its frontier stands at word line 0 there (R571). -/
def ledgerErased (x : Nat) (s : State) : State :=
  let u := (s.profile (unitLun x)).unitsPerLun
  { s with cal := { s.cal with ledgers := Tab.modify (unitLun x) (fun l => { l with second := decide (unitNo x + 1 = u), page := 0 }) s.cal.ledgers } }

/-- What an erased unit becomes (R262, R401, R405): free, its gauge lines hold their seeds; a unit of a checkpoint area stays one. -/
def eraseDone (x : Nat) (s : State) : State :=
  let k := unitLun x
  let p := s.profile k
  let slc := (s.unit x).slc
  let s := (List.range p.planes).foldl (fun s b => gaugeSeed k (unitNo x * p.planes + b) (seedsOf p slc) s) s
  let w := wearOf s x
  if isLedger s x then ledgerErased x (putUnit x (fun u => { u with pec := u.pec + w }) s)
  else if (s.unit x).estate = 5 then putUnit x (fun u => { u with pec := u.pec + w }) s
  else if (s.unit x).estate = 6 then
    ckptAdvance ((putUnit x (fun u => { u with pec := u.pec + w }) s).modCkpt fun c => { c with erases := c.erases.erase x })
  else
    let s := if s.flag Fld.secSanStsActive ∧ s.get Fld.secSanStsPhase = 3 then s.inc Fld.secSanStsUnits else s
    let s := putUnit x (fun u => { u with pec := u.pec + w, estate := 0, retire := false, refresh := false, gref := 0, valid := 0 }) s
    fillReserve 64 (jAppend 0 ⟨jErased, unitId x, 0, 0, 0⟩ s)

/-- An erase has passed. -/
def erasePassed (x : Nat) (s : State) : State := noteWear x (eraseDone x s)

/-- The erase of a unit of a format's first journal group has failed: the unit is retired, and the next one of its LUN takes its place
(R104, R240). -/
def journalRefit (x : Nat) (s : State) : State :=
  let k := unitLun x
  let ref := (s.unit x).gref
  let s := retireUnit x s
  match (List.range (s.profile k).unitsPerLun).find? fun u => (s.unit (unitKey k u)).estate == 1, s.grp (ref / 2 ^ 18) (ref % 2 ^ 18) with
  | some u, some g =>
    let us := ((s.set_ (ref / 2 ^ 18)).slots.zip g.unit).map fun e => if e.1 = k then u else e.2
    let s := putGrp (ref / 2 ^ 18) (ref % 2 ^ 18) { g with unit := us } s
    queueErase (unitKey k u) (putUnit (unitKey k u) (fun e => { e with estate := 5, slc := true, gref := ref }) s)
  | _, _ => s

/-- An erase has failed: the unit never enters the free pool (R240). -/
def eraseFailed (x : Nat) (s : State) : State :=
  if isLedger s x then s else if (s.unit x).estate = 6 then areaFailed x s else if (s.unit x).estate = 5 then journalRefit x s else retireUnit x s

/-! ## Reclaim (R400 to R406) -/

/-- Of a LUN's units that await erase, the one with the lowest PEC that may be erased, ties to the lower number. -/
def awaiting (s : State) (k : Nat) : Option Nat :=
  ((List.range (s.profile k).unitsPerLun).filter fun u =>
      (s.unit (unitKey k u)).estate == 1 && !(s.unit (unitKey k u)).retire && erasable s (unitKey k u)).foldl (fun (a : Option Nat) u =>
    match a with
    | none => some u
    | some v => if (s.unit (unitKey k u)).pec < (s.unit (unitKey k v)).pec then some u else some v) none

/-- The closed data groups of a set. -/
def closedGroups (s : State) (set : Nat) : List (Nat × Grp) :=
  s.md.groups.filterMap fun e =>
    if e.1 / 2 ^ 18 = set ∧ e.1 % 2 ^ 18 < 2 ^ 18 - 256 ∧ !e.2.slc ∧ (e.2.gstate = 2 ∨ e.2.gstate = 3) then some (e.1 % 2 ^ 18, e.2) else none

/-- The units of a group. -/
def groupUnits (s : State) (set : Nat) (g : Grp) : List Nat := ((s.set_ set).slots.zip g.unit).map fun e => unitKey e.1 e.2

/-- Total VALID, and total PEC, of a group. -/
def groupValid (s : State) (set : Nat) (g : Grp) : Nat := ((groupUnits s set g).map fun x => (s.unit x).valid).foldl (· + ·) 0
def groupPec (s : State) (set : Nat) (g : Grp) : Nat := ((groupUnits s set g).map fun x => (s.unit x).pec).foldl (· + ·) 0

/-- The victim of a set: by the wear rule the closed group with the lowest mean PEC, else the one with the least VALID, ties to the earlier
close (R401, R404, R406). -/
def pickVictim (s : State) (set : Nat) : Option Nat :=
  let wear := wearRule s (setClass s set)
  let better (a b : Nat × Grp) : Bool :=
    if wear then decide (groupPec s set a.2 < groupPec s set b.2)
    else
      let va := groupValid s set a.2
      let vb := groupValid s set b.2
      decide (va < vb ∨ (va = vb ∧ a.2.closeAt < b.2.closeAt))
  ((closedGroups s set).foldl (fun (a : Option (Nat × Grp)) g =>
    match a with
    | none => some g
    | some b => if better g b then some g else some b) none).map Prod.fst

/-- A victim emptied: its units await erase, or are retired (R401, R402). -/
def freeVictim (set g : Nat) (s : State) : State :=
  match s.grp set g with
  | none => s
  | some x =>
    let s := (groupUnits s set x).foldl (fun s k =>
      if (s.unit k).retire then retireUnit k s else putUnit k (fun u => { u with estate := 1, refresh := false }) s) s
    { s with md := { s.md with groups := Tab.del (grpKey set g) s.md.groups, victims := s.md.victims.erase (grpKey set g) } }

/-- A draining set that holds no valid tile gives its LUNs up as spares (R317). -/
def emptyDrained (set : Nat) (s : State) : State :=
  let x := s.set_ set
  if x.drain && (x.slots.all fun k => (List.range (s.profile k).unitsPerLun).all fun u => (s.unit (unitKey k u)).valid == 0) then
    let t := s.modSet set fun x => { x with slots := [] }
    { t with md := { t.md with spares := t.md.spares ++ x.slots.filter s.online } }
  else s

/-- RECLAIM (R401): the reserve is filled first; then units that await erase are erased; then a victim is picked, or one that its relocations
have emptied goes. -/
def execReclaim (set : Nat) (s : State) : Out :=
  let x := s.set_ set
  onlyIf (s.running && s.stage == 9 && !s.wp.pfail && !s.flag Fld.mapFlushStsDone
      && (decide (freeGroups s set ≤ rclStart s) || x.drain)) s
    (let s := fillReserve 64 s
     let todo := x.slots.filter fun k => s.online k && decide ((freeUnits s k).length ≤ rclStart s) && !erasePending s k && (awaiting s k).isSome
     if !todo.isEmpty then todo.foldl (fun s k => match awaiting s k with | some u => queueErase (unitKey k u) s | none => s) s
     else
       let c := setClass s set
       let on : List (List Nat) := if wearRule s c then c :: s.md.wearOn.erase c else s.md.wearOn.erase c
       let s := { s with md := { s.md with wearOn := on } }
       let mine := s.md.victims.filter fun v => v / 2 ^ 18 == set
       match mine with
       | [] =>
         if x.drain ∧ (closedGroups s set).isEmpty then emptyDrained set s
         else match pickVictim s set with
         | some g => { s with md := { s.md with victims := s.md.victims ++ [grpKey set g] } }
         | none => s
       | v :: _ =>
         match s.grp set (v % 2 ^ 18) with
         | some g => if (groupUnits s set g).all (erasable s) then freeVictim set (v % 2 ^ 18) s else s
         | none => { s with md := { s.md with victims := s.md.victims.erase v } })

/-! ## The rake (R407, R408) and hot LUNs (R312) -/

/-- The sample word lines of a patrol. -/
def sampleLines (p : Profile) : List Nat := [0, p.wlPerBlk / 2, p.wlPerBlk - 1].eraseDups

/-- The patrol reads of a unit: codeword 0 of each page type at each sample word line. -/
def patrolReads (s : State) (x : Nat) : List Rd :=
  let k := unitLun x
  let p := s.profile k
  (sampleLines p).flatMap fun w => (List.range p.cellBits).map fun t => {
    own := .patrol
    cls := 3
    rtag := 0
    entry := 0
    page := ⟨k, unitNo x * p.planes, w * p.cellBits + t, false⟩
    cw := 0
    lta := 0
    keyidx := anyKey
    kind := kData }

/-- RAKE_PATROL (R407): every closed data group once per PATROL_H hours; groups closed for RETAIN_D days are marked. -/
def execRakePatrol (s : State) : Out :=
  let period := max 1 (s.get Fld.mapRakeCfgPatrolH) * 3600000000000
  onlyIf (s.running && s.stage == 9 && decide (s.md.patrolAt + period ≤ s.now)) s
    (let us := s.md.sets.flatMap fun e => (closedGroups s e.1).flatMap fun g => groupUnits s e.1 g.2
     let old (x : Nat) : Bool := decide ((s.unit x).closeAt + max 1 (s.get Fld.mapRakeCfgRetainD) * 86400000000000 ≤ s.now)
     let s := us.foldl (fun s x => if old x then putUnit x (fun u => { u with refresh := true }) s else s) s
     let s := us.foldl (fun s x => (patrolReads s x).foldl (fun s r => startRd r s) s) s
     { s with md := { s.md with patrolAt := s.now } })

/-- The oldest unit that awaits refresh. -/
def oldestRefresh (s : State) : Option Nat :=
  ((s.md.units.filter fun e => e.2.refresh && e.2.estate == 3).foldl (fun (a : Option (Nat × UnitE)) e =>
    match a with
    | none => some e
    | some b => if e.2.closeAt < b.2.closeAt then some e else some b) none).map Prod.fst

/-- RAKE_REFRESH (R408): the oldest REFRESH_PEND unit is taken up; once its tiles have all been moved its flag clears. -/
def execRakeRefresh (s : State) : Out :=
  match s.md.rakeUnit with
  | none =>
    match oldestRefresh s with
    | none => .next s
    | some x => onlyIf (s.running && s.stage == 9) s { s with md := { s.md with rakeUnit := some x } }
  | some x =>
    onlyIf (s.running && decide ((s.unit x).valid = 0)) s
      ((putUnit x (fun u => { u with refresh := false }) { s with md := { s.md with rakeUnit := none } }).inc Fld.mapRakeStsDone)

/-- Class-1 and class-2 reads queued for a LUN. -/
def hotDepth (s : State) (k : Nat) : Nat := ((s.lun k).queue.filter fun w => w.kind == 0 && (w.cls == 1 || w.cls == 2)).length

/-- HOT_WINDOW (R312): each LUN's queue against QDEPTH at the end of a 10 ms window. -/
def execHotWindow (s : State) : Out :=
  let q := s.get Fld.mapHotCfgQdepth
  onlyIf (s.running && decide (s.md.hotAt + 10000000 ≤ s.now)) s
    (let ks := onlineLuns s
     let s := ks.foldl (fun s k =>
       let deep := decide (q < hotDepth s k)
       modLun k (fun l =>
         let o := if deep then min 8 (l.above + 1) else 0
         let u := if deep then 0 else min 8 (l.below + 1)
         { l with above := o, below := u, hot := if l.hot then !decide (u = 8) else decide (o = 8) }) s) s
     let cold (k : Nat) : Bool := !(s.lun k).hot
     { s with md := { s.md with hotAt := s.now, hotTab := s.md.hotTab.filter fun e => !cold e.2.2 } })

/-! ## Loss of LUNs (R315 to R318) -/

/-- A set's slot marked lost, in every group record of the set. -/
def markLost (set slot : Nat) (s : State) : State :=
  let gs := (s.md.groups.filter fun e => e.1 / 2 ^ 18 == set).map fun e => e.1 % 2 ^ 18
  let s := gs.foldl (fun s g =>
    match s.grp set g with
    | some x =>
      if g < 2 ^ 18 - 256 then putGrp set g { x with lost := x.lost ||| 2 ^ slot } s
      else s.setGrp set g { x with lost := x.lost ||| 2 ^ slot }
    | none => s) s
  s.modSet set fun x => { x with lost := x.lost ||| 2 ^ slot }

/-- A read that its LUN cannot serve goes to step 18 (R272). -/
def toStep18 (id : Nat) (s : State) : State :=
  match s.rd id with
  | none => s
  | some r =>
    let s := s.modRd id fun r => { r with ladder := false }
    if r.res.isSome then s
    else match r.own with
      | .partner _ _ => s.modRd id fun r => { r with dec := some none }
      | _ => stepRecon id s

/-- A queued want of a LUN that has gone (R272, R316): reads go to reconstruction, row units are left to it, pages and seals of a journal go to
the next position. -/
def wantLost (s : State) (w : Want) : State :=
  match w.why with
  | .rd id => toStep18 id s
  | .soft id _ => toStep18 id s
  | .margin rtag k plus => requestCheck rtag (s.modRq rtag fun q => { q with
      marginFail := true
      margin := q.margin.set (2 * k + plus.toNat) 0xFE })
  | .rowUnit id pos => unitPassed id pos s
  | .flush id pos => unitPassed id pos s
  | .jpage k => rewritePage k s
  | .jseal k => rewritePage k s
  | .pqSeal _ _ => s
  | .rebuilt _ => { s with md := { s.md with rebuilding := none } }
  | .header k => headDone k s
  | .commit k => headDone k s
  | .erase x => s.modCkpt fun c => { c with erases := c.erases.erase x }
  | .lunOp _ =>
    match formOp s w.page.lun w.optype 0 [w] with
    | some o =>
      let e : Ended := { op := o, code := 3, status := 0, went := false, reported := true }
      { s with md := { s.md with ended := s.md.ended ++ [e] } }
    | none => s
  | .ledger _ => s
  | .sample k => { s with cal := { s.cal with samples := Tab.modify k (fun x => { x with left := x.left.erase (w.page, w.cw) }) s.cal.samples } }

/-- The lowest-numbered spare that fits a slot (R316). -/
def fitSpare (s : State) (set slot : Nat) : Option Nat :=
  let x := s.set_ set
  let lost := (x.slots[slot]?).getD 0
  let others := x.slots.filter (· != lost)
  let fits (k : Nat) : Bool := s.online k && geoClass s k == geoClass s lost && !others.any fun o => lunCh o == lunCh k
  (s.md.spares.filter fits).foldl (fun (a : Option Nat) k => some (match a with | none => k | some b => min b k)) none

/-- The groups of a set, for its rebuild. -/
def setGroups (s : State) (set : Nat) : List Nat :=
  (s.md.groups.filter fun e => e.1 / 2 ^ 18 == set && decide (e.1 % 2 ^ 18 < 2 ^ 18 - 256)).map fun e => e.1 % 2 ^ 18

/-- The group in work changed. -/
def State.modRebuild (s : State) (f : Rebuild → Rebuild) : State := { s with md := { s.md with rebuilding := s.md.rebuilding.map f } }

/-- A stream writes, or is about to write, into the group. -/
def streamOn (s : State) (set g : Nat) : Bool := s.wp.streams.any fun x => x.2.grp == some (set, g) || x.2.nextG == some (set, g)

/-- A group that a rebuild may take up: it stands with the slot lost, and nothing is written into it any more. -/
def rebuildable (s : State) (set slot g : Nat) : Bool :=
  match s.grp set g with
  | none => false
  | some x => x.lost.testBit slot && (x.gstate != 1 || (x.slc && !streamOn s set g))

/-- The LUN that has left a slot: the one whose unit the group record names there. -/
def lostLun (s : State) (set g slot : Nat) : Option Nat :=
  (s.grp set g).bind fun x => (s.md.units.find? fun e =>
    decide (e.2.gref = gref set g) && x.unit[slot]? == some (unitNo e.1) && !(s.set_ set).slots.contains (unitLun e.1)).map fun e => unitLun e.1

/-- The reads of a row's members on the lost slot: each is reconstructed from its stripe, as class-3 work (R316). -/
def rebuildRow (s : State) : State :=
  match s.md.rebuilds, s.md.rebuilding with
  | (set, _) :: _, some w =>
    match s.grp set w.g with
    | none => s
    | some x =>
      if x.rowsDone ≤ w.row then s.modRebuild fun w => { w with done := true }
      else
        (List.range (rowQ (s.profile w.lun) x.slc w.row)).foldl (fun s q =>
          let m := qPage s w.lun w.old x.slc w.row q
          let a := s.addRd {
            own := .rebuild q
            cls := 3
            rtag := 0
            entry := 0
            page := m.1
            cw := m.2
            lta := 0
            keyidx := anyKey
            kind := kData
            ladder := false }
          startRecon a.1 false a.2) s
  | _, _ => s

/-- The next group of the present rebuild taken up, with the best unit of the spare (R316). -/
def rebuildGo (s : State) : State :=
  match s.md.rebuilds, s.md.rebuilding with
  | (set, slot) :: _, none =>
    match s.md.rebuildLeft.find? (rebuildable s set slot), (s.set_ set).slots[slot]? with
    | some g, some k =>
      match bestUnit s k, s.grp set g with
      | some u, some x =>
        let old := (x.unit[slot]?).getD 0
        let l := (lostLun s set g slot).getD k
        let s := putUnit (unitKey k u) (fun y => { y with
          estate := if x.slc then (if x.gstate = 0 then 4 else 5) else 2
          slc := x.slc
          gref := gref set g
          valid := 0 }) s
        let w : Rebuild := { g := g, lun := l, old := old, unit := u, row := 0, mem := [], tiles := [], done := false }
        rebuildRow { s with md := { s.md with rebuilding := some w } }
      | _, _ => s
    | _, _ => s
  | _, _ => s

/-- The present rebuild has no group left: the slot is no longer lost, and the next rebuild is begun (R316). -/
def rebuildEnd : Nat → State → State
  | 0, s => s
  | fuel + 1, s =>
    match s.md.rebuilds with
    | [] => s
    | (set, slot) :: rest =>
      let left := s.md.rebuildLeft.filter fun g => ((s.grp set g).map fun x => x.lost.testBit slot).getD false
      let s : State := { s with md := { s.md with rebuildLeft := left } }
      if left.isEmpty ∧ s.md.rebuilding.isNone then
        let s := s.modSet set fun x => { x with lost := x.lost &&& (2 ^ 18 - 1 - 2 ^ slot) }
        let s := budget { s with md := { s.md with rebuilds := rest } }
        match rest with
        | [] => s
        | (n, i) :: _ =>
          let l := (setGroups s n).filter fun g => ((s.grp n g).map fun x => x.lost.testBit i).getD false
          rebuildEnd fuel (({ s with md := { s.md with rebuildLeft := l } } : State).put Fld.mapRbProgGroups 0)
      else rebuildGo s

/-- The next rebuild is begun where none runs (R316). -/
def nextRebuild (s : State) : State :=
  match s.md.rebuilds with
  | [] => s
  | (set, slot) :: _ =>
    if s.md.rebuildLeft.isEmpty then
      let l := (setGroups s set).filter fun g => ((s.grp set g).map fun x => x.lost.testBit slot).getD false
      rebuildEnd s.md.rebuilds.length (({ s with md := { s.md with rebuildLeft := l } } : State).put Fld.mapRbProgGroups 0)
    else s

/-- A spare taken into a lost slot, and its rebuild queued; or the set drains (R316, R317). -/
def replaceLun (set slot : Nat) (s : State) : State :=
  match fitSpare s set slot with
  | some k =>
    let s := s.modSet set fun x => { x with slots := x.slots.set slot k }
    let s : State := { s with md := { s.md with
      spares := s.md.spares.erase k
      rebuilds := s.md.rebuilds.filter (· != (set, slot)) ++ [(set, slot)]
      rebuilding := if s.md.rebuilds.head? == some (set, slot) then none else s.md.rebuilding
      rebuildLeft := if s.md.rebuilds.head? == some (set, slot) then [] else s.md.rebuildLeft } }
    nextRebuild (jAppend 0 ⟨jSpareIn, set * 32 + slot, 0, k, 0⟩ s)
  | none =>
    if (s.set_ set).drain then s
    else
      let s := s.modSet set fun x => { x with drain := true }
      let s := (setGroups s set).foldl (fun s g =>
        match s.grp set g with
        | some x => if x.gstate = 2 then putGrp set g { x with gstate := 3 } s else s
        | none => s) s
      jAppend 0 ⟨jSetDrain, set, 0, 0, 0⟩ s

/-- What R315 does for a LUN that has gone offline. -/
def lunLost (k : Nat) (s : State) : State :=
  let gone := (s.lun k).queue
  let s : State := { s with md := { s.md with offQ := s.md.offQ.erase k } }
  let s := modLun k (fun l => { l with queue := [], op := none, granted := false, er := none, wprot := none }) s
  match setOf s k with
  | none => gone.foldl wantLost { s with md := { s.md with spares := s.md.spares.erase k } }
  | some set =>
    let slot := (slotIn (s.set_ set) k).getD 0
    let s := s.modSet set fun x => if x.token = some k then { x with token := none } else x
    let s := markLost set slot s
    let s := jAppend 0 ⟨jSlotLost, set * 32 + slot, 0, k, 0⟩ s
    let s := gone.foldl wantLost s
    budget (if s.stage = 9 then replaceLun set slot s else s)

/-- LUN_OFFLINE (R315): of the LUNs that have gone offline the first is told to its set. -/
def execLunOffline (s : State) : Out :=
  match s.md.offQ with
  | [] => .next s
  | k :: _ => onlyIf s.coreOn s (lunLost k s)

/-- A rebuilt row unit is done: the next row, or the group's last has been done. -/
def rebuiltRow (s : State) : State := rebuildRow (s.modRebuild fun w => { w with row := w.row + 1, mem := [] })

/-- A member rebuilt, or lost with its stripe: once a row unit's members are all there it is programmed into the spare's unit (R316; DEDUCED, log entry
64). -/
def memberRebuilt (q : Nat) (raw : Option (List Byte)) (s : State) : State :=
  match s.md.rebuilds, s.md.rebuilding with
  | (set, slot) :: _, some w =>
    match s.grp set w.g, (s.set_ set).slots[slot]? with
    | some x, some k =>
      let s := s.modRebuild fun w => { w with mem := Tab.put q (raw.getD zeroPar) w.mem }
      let mem := Tab.put q (raw.getD zeroPar) w.mem
      if mem.length < rowQ (s.profile k) x.slc w.row then s
      else
        let id := stripeNo set w.g w.row
        let pos := slotPos x.rot w.row slot
        let stored (q : Nat) : List Byte :=
          let b := (Tab.find q mem).getD zeroPar
          let m := qPage s k w.unit x.slc w.row q
          if pos < 16 then encodeMember s m.1 m.2 (b.take 4096) (b.drop 4096)
          else encodeParity s m.1 m.2 b
            (metaBytes (metaHead 0 s.hid (if pos = 16 then kP else kQ) x.openSeq id pos 0xFFFF) (b.take 4096))
        let pages := pagesOf s k w.unit x.slc w.row (x.slc && decide (x.gstate = 1)) stored
        let new := mem.filterMap fun e =>
          let m := readMeta e.2
          if pos < 16 ∧ m.kind = kData ∧ m.lta ≠ 0xFFFFFFFFFFFF ∧ !x.slc then some (m.lta, m.seq, w.row, e.1) else none
        enqueue (progWant (.rebuilt w.row) 3 1 0 (qPage s k w.unit x.slc w.row 0).1 pages)
          (s.modRebuild fun w => { w with tiles := w.tiles ++ new })
    | _, _ => s
  | _, _ => s

/-- A rebuilt row unit's program or seal has ended. A journal page is sealed with its jseq, so that replay takes it; a failed unit is retired, and the group is
rebuilt into another (R240, R316). -/
def rebuiltEnded (w0 : Want) (pass : Bool) (s : State) : State :=
  match s.md.rebuilds, s.md.rebuilding with
  | (set, slot) :: _, some w =>
    match s.grp set w.g with
    | none => rebuildEnd s.md.rebuilds.length { s with md := { s.md with rebuilding := none } }
    | some x =>
      if !pass then rebuildGo (retireUnit (pageUnit s w0.page) { s with md := { s.md with rebuilding := none } })
      else if w0.kind = 1 ∧ x.slc ∧ x.gstate = 1 ∧ slotPos x.rot w.row slot < 16 then
        let j := (readMeta ((Tab.find 0 w.mem).getD zeroPar)).seq % 2 ^ 48
        enqueue (progWant (.rebuilt w.row) 3 3 0x0C w0.page (sealPages (s.profile w0.page.lun) j)) s
      else rebuiltRow s
  | _, _ => s

/-- A tile whose member has been rebuilt: its map entry, where it still names the lost LUN, names the spare (DEDUCED, log entry 64). -/
def rebuiltTile (k : Nat) (w : Rebuild) (slc : Bool) (s : State) (e : Nat × Nat × Nat × Nat) : State :=
  let m := qPage s w.lun w.old slc e.2.2.1 e.2.2.2
  let n := qPage s k w.unit slc e.2.2.1 e.2.2.2
  mapUpdate ⟨e.1, mkEntry s n.1 n.2, some (mkEntry s m.1 m.2), .rebuilt e.2.1⟩ 3 s

/-- REBUILD_GROUP_DONE (R316): every row of the group in work has been rebuilt: its record names the spare's unit, and its LOST bit clears. Where no group
is in work the next is taken up. -/
def execRebuildGroupDone (s : State) : Out :=
  match s.md.rebuilds, s.md.rebuilding with
  | [], _ => .next s
  | _ :: _, none => onlyIf (s.running && s.stage == 9 && !s.wp.pfail) s (rebuildEnd s.md.rebuilds.length s)
  | (set, slot) :: _, some w =>
    match s.grp set w.g, (s.set_ set).slots[slot]? with
    | some x, some k =>
      onlyIf (s.running && s.stage == 9 && w.done) s
        (let s := putGrp set w.g { x with unit := x.unit.set slot w.unit, lost := x.lost &&& (2 ^ 18 - 1 - 2 ^ slot) } s
         let s := putUnit (unitKey k w.unit) (fun y => if y.estate = 2 then { y with estate := 3, closeAt := x.closeAt } else y) s
         let s := jAppend 0 ⟨jGroupUnit, gref set w.g, 0, slot * 2 ^ 32 + w.unit, 0⟩ s
         let s := w.tiles.foldl (rebuiltTile k w x.slc) s
         let s := s.inc Fld.mapRbProgGroups
         let s : State := { s with md := { s.md with rebuilding := none, rebuildLeft := s.md.rebuildLeft.erase w.g } }
         rebuildEnd s.md.rebuilds.length s)
    | _, _ => .next s

end Sys2Proof.Machine
end

