-- ==== Sys2Proof/Machine/ReadPath.lean ====
section
/-! DEFINITION. The read path (chapters 7 and 8): gauge-line fetches, codewords as they land, decodes and their checks, read-around partners,
the class-0 deadline, and the token buckets. -/

namespace Sys2Proof.Machine

/-! ## What a read's end means to its owner -/

/-- A read that has ended is passed to its owner (R255, R388, R397). -/
def settleRd (id : Nat) (s : State) : State :=
  match s.rd id with
  | none => s
  | some r =>
    match r.res with
    | none => s
    | some (code, cbc, plain, raw) =>
      let s := dropRd id s
      match r.own with
      | .tile rtag i => tileOutcome rtag i code cbc plain s
      | .mapTile mt => if code = oOk then tileRead mt r.cls plain s else tileLoaded mt .decerr s
      | .reloc n => if code = oOk then relocRead n raw s else s.dropReloc n
      | .rebuild q => memberRebuilt q (if code = oOk then some raw else none) s
      | .repair mt => repairTile mt (if code = oOk then plain else []) s
      | .recon slot => if code = oOk then probed slot (readMeta raw).seq s else s.modTwin fun t => { t with probes := t.probes.filter (·.slot != slot) }
      | _ => s

/-- Every read that has ended is passed to its owner. -/
def settleRds (s : State) : State :=
  ((s.md.rds.filter fun e => e.2.res.isSome).map Prod.fst).foldl (fun s id => settleRd id s) s

/-! ## Gauge lines (R260, R261) -/

/-- A signed byte of a gauge line. -/
def sbyte (l : List Byte) (i : Nat) : Int := ((l[i]?).getD 0).toInt

/-- A gauge line as its 64 bytes give it (R259). -/
def glineOf (idx : Nat) (b : List Byte) : GLine :=
  { off := (List.range 32).map (sbyte b), acc := (List.range 32).map fun i => sbyte b (32 + i), idx := idx }

/-- The reads that wait for a gauge line go on. -/
def gaugeGo (key : Nat) (s : State) : State :=
  let ws := s.md.rds.filter fun e => e.2.gaugeWait && gaugeKey e.2.page == key
  ws.foldl (fun s e => match e.2.own with
    | .partner _ _ => placePlain e.1 true s
    | _ => place e.1 s) s

/-- The page and the class of some read that waits for a gauge line. -/
def gaugePage (s : State) (key : Nat) : Option (Page × Nat) :=
  (s.md.rds.find? fun e => e.2.gaugeWait && gaugeKey e.2.page == key).map fun e => (e.2.page, e.2.cls)

/-- The answer to the fetch of a gauge line: the line, or seeds after DATAERR, which are written back; after DECERR only the reads go on. -/
def gaugeFetched (key : Nat) (code : RCode) (data : List Byte) (s : State) : State :=
  match gaugePage s key with
  | none => s
  | some (g, cls) =>
    let idx := gaugeIndex s g.lun g.block
    let s := match code with
      | .ok => gaugeFill key cls (glineOf idx data) s
      | .dataerr =>
        let l : GLine := { off := seedsOf (s.profile g.lun) g.slc, acc := zeros32, idx := idx }
        gaugeFill key cls l (dramWrite (gaugeAddr s g.lun g.block) cls (glineBytes l) (.gaugeWrite key) (s.inc Fld.cryGaugeStsDataerr))
      | _ => s.inc Fld.cryGaugeStsDataerr
    settleRds (gaugeGo key s)

/-- GAUGE_LINE_FETCH_DONE (R261). -/
def execGaugeLineFetchDone (key : Nat) (code : RCode) (data : List Byte) (s : State) : Out :=
  match takeOutst (.gauge key) s with
  | none => .next s
  | some (o, t) =>
    onlyIf s.coreOn s
      (let a := codeTaken o code t
       gaugeFetched key a.1 data (dramSeen a.1 (releaseHeld a.2)))

/-! ## Margin reads and samples (R275, R568) -/

/-- A decode of a margin read: its byte, and whether the page still passes (R276). -/
def marginResult (rtag k : Nat) (plus : Bool) (cbc : Nat) (s : State) : State :=
  let bad := decide (0xFC < cbc ∨ s.get Fld.cryWarnThresh ≤ cbc)
  requestCheck rtag (s.modRq rtag fun q => { q with
    margin := q.margin.set (2 * k + plus.toNat) cbc
    marginFail := q.marginFail || bad })

/-- One of a LUN's sample reads has ended. -/
def sampleDone (k : Nat) (g : Page) (cw : Nat) (s : State) : State :=
  { s with cal := { s.cal with samples := Tab.modify k (fun x => { x with left := x.left.erase (g, cw) }) s.cal.samples } }

/-! ## Crystallizers (R30, Table 01-7) -/

/-- A hard unit, a soft unit, is in service. -/
def hardOn (s : State) (u : Nat) : Bool :=
  decide (u < 64) && !(if u < 32 then (s.reg .cryHardOos0).getLsbD u else (s.reg .cryHardOos1).getLsbD (u - 32))
def softUnitOn (s : State) (u : Nat) : Bool := decide (u < 8) && !(s.reg .crySoftOos).getLsbD u

/-- Class and tag of what a buffer slot serves. -/
def bufRank (s : State) (b : BufSlot) : Nat × Nat :=
  match b.why with
  | .rd id => ((s.rd id).map fun r => (r.cls, r.rtag)).getD (3, 0)
  | .margin rtag _ _ => ((s.rq rtag).map fun q => (q.order, rtag)).getD (3, rtag)
  | _ => (3, 0)

/-- Codewords that wait for a hard unit, as (channel, slot, what they are). -/
def hardQueue (s : State) : List (Nat × Nat × BufSlot) :=
  s.ch.flatMap fun e => (e.2.buf.filter fun b => b.2.stage == 1 && !s.md.hardRun.any fun u => u.2 == (e.1, b.1)).map fun b => (e.1, b.1, b.2)

/-- Of two codewords the first takes the next free hard unit: the lower class; then the channel after the last granted one, in rotation; of one channel
the older tag. -/
def hardFirst (s : State) (a b : Nat × Nat × BufSlot) : Bool :=
  let x := bufRank s a.2.2
  let y := bufRank s b.2.2
  let far (c : Nat) : Nat := (c + 127 - s.md.hardLast) % 128
  if x.1 ≠ y.1 then decide (x.1 < y.1) else if a.1 ≠ b.1 then decide (far a.1 < far b.1) else !tagOlder y.2 x.2

/-- A free hard unit given to the first codeword that waits. -/
def grantHard (s : State) (u : Nat) : State :=
  if !hardOn s u || (Tab.find u s.md.hardRun).isSome then s
  else match (hardQueue s).foldl (fun (a : Option (Nat × Nat × BufSlot)) b => match a with
      | none => some b
      | some x => if hardFirst s x b then some x else some b) none with
    | none => s
    | some b => { s with md := { s.md with hardRun := Tab.put u (b.1, b.2.1) s.md.hardRun, hardLast := b.1 } }

/-- The soft decode of a read: the buffer slots of its three reads. -/
def softSlots (s : State) (r : Rd) : Option BufSlot :=
  match r.centre, r.softM, r.softP with
  | some a, some _, some _ => Tab.find a (s.chan (lunCh r.page.lun)).buf
  | _, _, _ => none

/-- Reads that wait for, or run in, a soft unit. -/
def softWants (s : State) (id : Nat) : Bool := ((s.rd id).map fun r => (softSlots s r).isSome && r.step == 17 && r.res.isNone).getD false

/-- A free soft unit given to the first read that waits: the lower class, then the older tag. -/
def grantSoft (s : State) (u : Nat) : State :=
  if !softUnitOn s u || (Tab.find u s.md.softRun).isSome then s
  else
    let l := s.md.rds.filter fun e => softWants s e.1 && !s.md.softRun.any fun x => x.2 == e.1
    match l.foldl (fun (a : Option (Nat × Rd)) e => match a with
      | none => some e
      | some x => if x.2.cls < e.2.cls ∨ (x.2.cls = e.2.cls ∧ !tagOlder e.2.rtag x.2.rtag) then some x else some e) none with
    | none => s
    | some e => { s with md := { s.md with softRun := Tab.put u e.1 s.md.softRun } }

/-- Units whose codeword or read has gone, or that have left service, are free. -/
def freeUnused (s : State) : State :=
  { s with md := { s.md with
    hardRun := s.md.hardRun.filter fun u => hardOn s u.1 && ((Tab.find u.2.2 (s.chan u.2.1).buf).map fun b => b.stage == 1).getD false
    softRun := s.md.softRun.filter fun u => softUnitOn s u.1 && softWants s u.2 } }

/-- Free units granted to what waits for them. -/
def grantUnits (s : State) : State :=
  let s := freeUnused s
  let s := if (hardQueue s).isEmpty then s else (List.range 64).foldl grantHard s
  if s.md.rds.any fun e => softWants s e.1 then (List.range 8).foldl grantSoft s else s

/-! ## Codewords in the channel buffer (R242, R251) -/

/-- A slot of a channel buffer freed. -/
def freeBuf (c slot : Nat) (s : State) : State := s.setChan c { s.chan c with buf := Tab.del slot (s.chan c).buf }
def putBuf (c slot : Nat) (b : BufSlot) (s : State) : State := s.setChan c { s.chan c with buf := Tab.put slot b (s.chan c).buf }

/-- A codeword read as erased (R251). -/
def codewordErased (b : BufSlot) (s : State) : State :=
  let s := s.inc Fld.cryGaugeStsErased
  let ends (id : Nat) : State :=
    match s.rd id with
    | none => s
    | some r =>
      match r.own with
      | .partner _ _ => s.modRd id fun r => { r with ladder := false, dec := some none }
      | _ => endRd id oErased 0xFD [] [] s
  match b.why with
  | .rd id => ends id
  | .soft id _ => ends id
  | .margin rtag k plus => marginResult rtag k plus 0xFD s
  | .sample k => sampleDone k b.page b.cw s
  | _ => s

/-- A soft step's read has landed: its slot is kept. -/
def softLanded (id slot : Nat) (plus : Bool) (s : State) : State :=
  s.modRd id fun r => if plus then { r with softP := some slot } else { r with softM := some slot }

/-- The read, request or sample that a buffer slot serves is still there. -/
def bufWanted (s : State) (b : BufSlot) : Bool :=
  match b.why with
  | .rd id => (s.rd id).any fun r => r.res.isNone
  | .soft id _ => (s.rd id).any fun r => r.res.isNone
  | .margin rtag _ _ => (s.rq rtag).isSome
  | .sample _ => true
  | _ => false

/-- CODEWORD_READY (R251): the erased test of a codeword that has landed. -/
def execCodewordReady (c slot : Nat) (s : State) : Out :=
  match Tab.find slot (s.chan c).buf with
  | none => .next s
  | some b =>
    onlyIf (s.coreOn && b.stage == 0) s
      (let s := freeUnused s
       grantUnits (if !bufWanted s b then freeBuf c slot s
       else if b.zeros ≤ s.get Fld.cryCtlErasedMax then settleRds (codewordErased b (freeBuf c slot s))
       else match b.why with
         | .soft id plus => softLanded id slot plus (putBuf c slot { b with stage := 2 } s)
         | _ => putBuf c slot { b with stage := 1 } s))

/-! ## Decodes (R250, R254, R263 to R270) -/

/-- The refresh request of a recovered codeword (R274) (DEDUCED, log entry 48). -/
def refreshAfter (g : Page) (cbc step : Nat) (s : State) : State :=
  if s.get Fld.cryWarnThresh ≤ cbc ∨ 1 ≤ step then refreshReq g s else s

/-- A codeword's decode failed at step 0: it counts, and its slot is kept as the soft step's centre read. -/
def firstFailed (id c slot : Nat) (b : BufSlot) (s : State) : State :=
  let s := s.inc Fld.cryFirstFailFail
  decodeFailed id (putBuf c slot { b with stage := 2 } (s.modRd id fun r => { r with centre := some slot }))

/-- A decode of a read failed: at step 0, or at a retry step. -/
def stepFailed (id c slot : Nat) (b : BufSlot) (s : State) : State :=
  if b.step = 0 then firstFailed id c slot b s else decodeFailed id (freeBuf c slot s)

/-- A tile recovered by a decode (R250, R263, R268, R274): counts, gauge and refresh. `ref` is the read whose cells are counted. -/
def recovered (step : Nat) (ref : BufSlot) (cbc : Nat) (cw : List Byte) (s : State) : State :=
  let s := if ref.badFrame then s else gaugeLearn ref.page ref.cw ref.offs cw ref.data s
  let s := if step = 17 then s.inc Fld.cryOutCntSoftOk
    else if 1 ≤ step then gaugeMove ref.page ref.offs (s.inc Fld.cryOutCntRetryOk)
    else s
  refreshAfter ref.page cbc step s

/-- The checks of a decoded tile (R254): what becomes of the read; `failed` where the decode counts as failed. -/
def tileChecked (id step : Nat) (r : Rd) (ref : BufSlot) (info : List Byte) (failed : State → State) (s : State) : State :=
  let cw := info ++ eccBytes info
  let cbc := cbcByte (diffBits cw ref.data)
  match checkTile s (expects r) (info.take 4128) with
  | .ok plain => endRd id oOk cbc plain (info.take 4128) (recovered step ref cbc cw s)
  | .mismatch lta =>
    let s := s.logPacked uCRY 0x100B [(6, r.lta)] [(6, lta)]
    endRd id oMismatch cbc [] [] (refreshAfter ref.page cbc step s)
  | .fail t => failed (if t then s.inc Fld.cryOutCntMiscorr else s)

/-- A partner's codeword decoded: it waits for its check (R301). It learns nothing, since R254 does not check it (R263). -/
def partnerDecoded (id c slot : Nat) (b : BufSlot) (info : List Byte) (s : State) : State :=
  let s := if 1 ≤ b.step then gaugeMove b.page b.offs (s.inc Fld.cryOutCntRetryOk) else s
  let s := refreshAfter b.page (cbcByte (diffBits (info ++ eccBytes info) b.data)) b.step s
  freeBuf c slot (s.modRd id fun r => { r with dec := some (some info) })

/-- A sample read's codeword decoded: a step-0 decode, which counts (R283); it learns, and a failure asks for a refresh (R568). -/
def sampleDecoded (k : Nat) (b : BufSlot) (info : Option (List Byte)) (s : State) : State :=
  let s := s.inc Fld.cryCwCntCw
  let fails (s : State) : State := refreshReq b.page (s.inc Fld.cryFirstFailFail)
  sampleDone k b.page b.cw (match info with
    | none => fails s
    | some info =>
      match checkTile s none (info.take 4128) with
      | .ok _ =>
        let cw := info ++ eccBytes info
        refreshAfter b.page (cbcByte (diffBits cw b.data)) 0 (if b.badFrame then s else gaugeLearn b.page b.cw b.offs cw b.data s)
      | .mismatch _ => s
      | .fail t => fails (if t then s.inc Fld.cryOutCntMiscorr else s))

/-- What a hard decode's result does for the slot it came from. -/
def hardDecoded (c slot : Nat) (b : BufSlot) (dec : Option (List Byte)) (s : State) : State :=
  match b.why with
  | .rd id =>
    match s.rd id with
    | none => freeBuf c slot s
    | some r =>
      let s := if b.step = 0 then s.inc Fld.cryCwCntCw else s
      match dec, r.own with
      | none, .partner _ _ =>
        if b.step = 0 then
          putBuf c slot { b with stage := 2 } ((s.inc Fld.cryFirstFailFail).modRd id fun r => { r with centre := some slot, dec := some none })
        else decodeFailed id (freeBuf c slot s)
      | some info, .partner _ _ => partnerDecoded id c slot b info s
      | none, _ => stepFailed id c slot b s
      | some info, _ =>
        let t := tileChecked id b.step r b info (stepFailed id c slot b) s
        if (t.rd id).any fun r => r.res.isSome then freeBuf c slot t else t
  | .margin rtag k plus =>
    let cbc := match dec with
      | none => 0xFE
      | some info => cbcByte (diffBits (info ++ eccBytes info) b.data)
    marginResult rtag k plus cbc (freeBuf c slot s)
  | .sample k => sampleDecoded k b dec (freeBuf c slot s)
  | _ => freeBuf c slot s

/-- HARD_DECODE_DONE (R254): hard unit `u` has decoded the codeword that it was granted, or failed; `dec` gives the 4,160 B before its parity. -/
def execHardDecodeDone (c slot u : Nat) (dec : Option (List Byte)) (s : State) : Out :=
  match Tab.find slot (s.chan c).buf with
  | none => .next s
  | some b =>
    onlyIf (s.coreOn && b.stage == 1 && hardOn s u && Tab.find u s.md.hardRun == some (c, slot) && dec.all (fun i => i.length == 4160)) s
      (grantUnits (settleRds (hardDecoded c slot b dec s)))

/-- SOFT_DECODE_DONE (R269, R270): of the read that soft unit `u` has been granted. -/
def execSoftDecodeDone (id u : Nat) (dec : Option (List Byte)) (s : State) : Out :=
  match s.rd id with
  | none => .next s
  | some r =>
    match softSlots s r with
    | none => .next s
    | some b =>
      onlyIf (s.coreOn && softUnitOn s u && Tab.find u s.md.softRun == some id && r.step == 17 && r.res.isNone && dec.all (fun i => i.length == 4160)) s
        (let c := lunCh r.page.lun
         let t := s.setChan c { s.chan c with buf := (s.chan c).buf.filter fun e => !whyRd id e.2.why }
         let t := t.modRd id fun r => { r with centre := none, softM := none, softP := none }
         grantUnits (settleRds (match dec, r.own with
           | none, _ => endLadder id t
           | some info, .partner _ _ => (refreshReq b.page (t.inc Fld.cryOutCntSoftOk)).modRd id fun r => { r with dec := some (some info) }
           | some info, _ => tileChecked id 17 r b info (endLadder id) t)))

/-- Reads in their soft step, once no soft unit is left, go on to step 18 (R252). -/
def softGone (s : State) : State :=
  if s.get Fld.crySoftOosOos = 0xFF then
    ((s.md.rds.filter fun e => e.2.step == 17 && e.2.ladder).map Prod.fst).foldl (fun s id => endLadder id s) s
  else s

/-- CRYSTALLIZER_MEMORY_ERROR (R252): the codeword stays in its slot, for another unit. -/
def execCrystallizerMemoryError (soft : Bool) (u : Nat) (s : State) : Out :=
  onlyIf (s.coreOn && (if soft then softUnitOn s u else hardOn s u)) s
    (let s := if soft then s.setBit .crySoftOos 0 u else if u < 32 then s.setBit .cryHardOos0 0 u else s.setBit .cryHardOos1 0 (u - 32)
     let s := (contained s).logPacked uCRY 0x100A [(1, soft.toNat), (1, u)]
     if soft then grantUnits (settleRds (softGone s))
     else if s.reg .cryHardOos0 = 0xFFFFFFFF ∧ s.reg .cryHardOos1 = 0xFFFFFFFF then s.bank 0x0A
     else grantUnits s)

/-- PARTNER_READ_DONE (R301): a partner's codeword is checked. -/
def execPartnerReadDone (pid : Nat) (s : State) : Out :=
  match s.rd pid with
  | none => .next s
  | some r => onlyIf (s.coreOn && r.dec.isSome) s (settleRds (partnerResult pid s))

/-! ## The class-0 bounds and the token buckets (R22, R302, R304, R309) -/

/-- CLASS0_DEADLINE (R304, R306). -/
def execClass0Deadline (rtag : Nat) (s : State) : Out :=
  match s.rq rtag with
  | none => .next s
  | some q =>
    let undone := if q.opc = 1 then !q.tiles.all tileDone else true
    onlyIf (s.coreOn && s.stage == 9 && q.bounded && !q.firstOut && q.status.isNone && undone && decide (q.base + 197500 ≤ s.now)) s
      (let q := { q with firstOut := true, deferred := true }
       let s := (s.setRq q).inc Fld.mapC0CntDefer
       oweEntry s q (tilesStatus (q.tiles.map (tileRecord true))) false false 0 true)

/-- COMMIT_LATE (R309): the entry reports what was reached without the twin; a second one is owed. -/
def execCommitLate (rtag : Nat) (s : State) : Out :=
  match s.rq rtag with
  | none => .next s
  | some q =>
    onlyIf (s.coreOn && s.stage == 9 && q.cls == 0 && q.opc == 2 && q.ack == 2 && q.started && !q.firstOut && s.twinUp && !q.tiles.any (·.dead)
        && q.tiles.all (fun t => decide (1 ≤ t.dstate)) && q.tiles.any (fun t => decide (t.dstate < 2))
        && decide (q.base + 76500 ≤ s.now)) s
      (let q := { q with firstOut := true, late := true, owesTwin := true }
       let s := (s.setRq q).inc Fld.mapC0Cnt2CmtLate
       oweEntry s q 0 false false 1 false)

/-- CLASS0_BUCKET_REFILL (R22): 2 tokens per µs, up to 400. -/
def execClass0BucketRefill (s : State) : Out :=
  let n := (s.now - s.md.c0At) / 1000
  onlyIf (s.coreOn && decide (1 ≤ n)) s
    { s with md := { s.md with
        c0Tok := min 400 (s.md.c0Tok + 2 * n)
        c0At := s.md.c0At + 1000 * n } }

/-- Reads that found no read-around token try again (R273). -/
def retryAround (s : State) : State :=
  let ws := (s.md.rds.filter fun e => e.2.wantTok && e.2.recon.isNone && e.2.ladder && e.2.res.isNone).map Prod.fst
  ws.foldl (fun s id => match s.rd id with
    | some r => match takeRaToken id r s with
      | some _ => (tryAround id s).2
      | none => s
    | none => s) s

/-- RA_BUCKET_REFILL (R302, R320): RATE tokens each ms, up to RATE. -/
def execRaBucketRefill (s : State) : Out :=
  let rate := s.get Fld.mapRaCfgRate
  onlyIf (s.coreOn && decide (s.md.raAt + 1000000 ≤ s.now)) s
    (retryAround { s with md := { s.md with
        raTok := min rate (s.md.raTok + rate)
        raAt := s.now } })

end Sys2Proof.Machine
end

