-- ==== Sys2Proof/Machine/Flush.lean ====
section
/-! DEFINITION. The hold-up flush (chapter 9, R358 to R363): its plan, its reads, its row units, and FLUSH_END. -/

namespace Sys2Proof.Machine

/-! ## The mirror region as the engine reads it (R331, R332) -/

/-- A mirror descriptor's bytes as a slot; none for a state that is not valid. -/
def mirOf (b : List Byte) : Option Mir :=
  let n (o k : Nat) : Nat := bytesNum ((b.drop o).take k)
  let st := n 0x12 1
  if st = 0x21 then
    some {
      st := st
      lta := n 0 6
      hid := n 6 2 % 2 ^ 14
      seq := n 8 8
      admTime := n 0x18 8
      keyidx := n 0x10 2
      tcrc := BitVec.ofNat 32 (n 0x14 4) }
  else none

/-- The states of Table 09-4 that a mirror slot may hold. -/
def mirState (b : List Byte) : Bool := [0x00, 0x21, 0x2F].contains (bytesNum ((b.drop 0x12).take 1))

/-- The mirror region's descriptors as they were read, by slot: a reserved STATE is logged and counts free (DESIGN CHOICE, log entry 30). -/
def scanMir (l : List (Nat × List Byte)) (s : State) : State :=
  let s := l.foldl (fun s e => if mirState e.2 then s else s.logPacked uMAP 0x100C [(4, e.1), (1, 1)]) s
  let m : Tab Mir := l.foldl (fun m e => match mirOf e.2 with
    | some x => Tab.put e.1 x m
    | none => m) []
  budget { s with wp := { s.wp with mir := m } }

/-- The address of a mirror slot. -/
def mirAddr (s : State) (slot : Nat) : Nat := slotAddr s.img.hold.mirBase (mirSlots s) slot

/-! ## The plan (R359) -/

/-- Oldest ADM_TIME first. -/
def byAge (l : List (Nat × Nat)) : List Nat :=
  (l.foldr (fun x acc => (acc.takeWhile fun y => decide (y.2 < x.2)) ++ x :: acc.dropWhile fun y => decide (y.2 < x.2)) []).map Prod.fst

/-- The copies to flush, in order: own copies that are not MIRRORED, MIRRORED ones, mirror copies. -/
def flushList (s : State) : List (Bool × Nat) :=
  let own (m : Bool) : List (Nat × Nat) := s.wp.own.filterMap fun e =>
    if (e.2.st = 0x11 ∨ e.2.st = 0x12 ∨ e.2.st = 0x13) ∧ e.2.staged ∧ !e.2.withheld ∧ e.2.mirrored = m then some (e.1, e.2.admTime) else none
  let mir : List (Nat × Nat) := s.wp.mir.filterMap fun e => if e.2.st = 0x21 then some (e.1, e.2.admTime) else none
  ((byAge (own false) ++ byAge (own true)).map fun k => (false, k)) ++ (byAge mir).map fun k => (true, k)

/-- Row `i` of a set's reserved groups, by its STRIPE number. -/
def flushRow (s : State) (set i : Nat) : Option Nat :=
  let w := max 1 (setProfile s set).wlPerBlk
  (((s.wp.reserve.filter fun e => e.1 == set)[i / w]?)).map fun e => stripeNo set e.2 (i % w)

/-- The place of a tile of the flush: round by round, set by set, position by position (DESIGN CHOICE, log entry 31). -/
def flushPlace (s : State) : List Nat → Nat → Nat → Option (Nat × Nat × Nat)
  | [], _, _ => none
  | set :: r, i, n =>
    let q := rowQ (setProfile s set) true 0
    if n < 16 * q then (flushRow s set i).map fun id => (id, n / max 1 q, n % max 1 q) else flushPlace s r i (n - 16 * q)

/-- A flush row opened where it is not: its accumulators stay on chip. -/
def openFlushRow (id : Nat) (s : State) : State :=
  match s.row id with
  | some _ => s
  | none =>
    let s := match s.grp (rowSet id) (rowGroup id) with
      | some g => s.setGrp (rowSet id) (rowGroup id) { g with gstate := 1 }
      | none => s
    { s with md := { s.md with rows := Tab.put id { group := rowGroup id, step := rowStep id, seq := s.wp.seq, flush := true } s.md.rows } }

/-- A tile of the flush given its place, and the job that reads its slot queued (Table 12-1). -/
def planTile (s : State) (n : Nat) (t : Bool × Nat) : State :=
  let per := max 1 (perRound s)
  match flushPlace s (flushSets s) (n / per) (n % per) with
  | none => s
  | some (id, pos, q) =>
    let s := openFlushRow id s
    let s := { s with wp := { s.wp with plan := s.wp.plan ++ [(t.1, t.2, id, pos, q)] } }
    let a := s.nextPort
    a.2.queueJob {
      path := if t.1 then .mirRead t.2 else .panRead t.2
      prio := 3
      vc := 2
      port := a.1
      age := 0
      prog := [moveWord true 0 0 0 0 4095 0 (if t.1 then mirAddr s t.2 else slotAddr s.img.hold.panBase (ownSlots s) t.2)]
      init := []
      crypt := none
      c0 := false }

/-- Pads at every place of the flush's rows that no tile has. -/
def padFlush (s : State) : State :=
  (s.md.rows.filter fun e => e.2.flush).foldl (fun s e =>
    let w := rowUnitQ s e.1
    (List.range (16 * w)).foldl (fun s i =>
      if s.wp.plan.any fun p => p.2.2.1 == e.1 && p.2.2.2.1 * w + p.2.2.2.2 == i then s
      else putMember 2 e.1 (i / max 1 w) (i % max 1 w) (padMember s e.1 (i / max 1 w)) s) s) s

/-- An operation that blocks the flush: a program or an erase that is not suspended. -/
def flushBlocked (s : State) : Bool :=
  (onlineLuns s).any fun k => progOn s k || (match (s.lun k).er with
    | some e => e.suspAt.isNone
    | none => false)

/-- FLUSH_START (R359): no program and no unsuspended erase remains in flight; `mirs` are the mirror region's descriptors as read. -/
def execFlushStart (mirs : List (Nat × List Byte)) (s : State) : Out :=
  onlyIf (s.running && flushing s && s.wp.pfail && s.wp.plan.isEmpty && !(s.md.rows.any fun e => e.2.flush) && decide (s.wp.flushed = 0)
      && !flushBlocked s) s
    (let s := scanMir mirs s
     padFlush (((flushList s).zipIdx).foldl (fun s t => planTile s t.2 t.1) s))

/-! ## Tiles as they are read (R332, R360) -/

/-- The place of a copy in the plan, which it leaves. -/
def takePlan (mirror : Bool) (slot : Nat) (s : State) : Option (Nat × Nat × Nat) × State :=
  match s.wp.plan.find? fun p => p.1 == mirror && p.2.1 == slot with
  | none => (none, s)
  | some p => (some p.2.2, { s with wp := { s.wp with plan := s.wp.plan.erase p } })

/-- A member of the flush put at its place; a copy that cannot be flushed leaves a pad. -/
def flushMember (pl : Nat × Nat × Nat) (m : Option Member) (s : State) : State :=
  putMember 2 pl.1 pl.2.1 pl.2.2 (m.getD (padMember s pl.1 pl.2.1)) s

/-- A copy whose descriptor does not fit its data: it counts as a free slot (R332). -/
def flushBad (mirror : Bool) (slot : Nat) (pl : Nat × Nat × Nat) (s : State) : State :=
  flushMember pl none (s.logPacked uMAP 0x100C [(4, slot), (1, mirror.toNat)])

/-- An own slot read for the flush. -/
def flushOwn (slot : Nat) (data : List Byte) (s : State) : State :=
  let a := takePlan false slot s
  match a.1, a.2.pan slot with
  | some pl, some p =>
    let s := a.2
    let enc := if p.keyidx = 0xFFFF then some data else (keyOf s p.keyidx p.hid).map fun k => Config.xtsEncrypt k p.lta data
    match enc with
    | none => flushBad false slot pl s
    | some d =>
      if crcReg 0xFFFFFFFF data ≠ p.dcrc then flushBad false slot pl s
      else flushMember pl (some {
        own := .pan slot
        lta := p.lta
        seq := p.seq
        keyidx := p.keyidx
        data := d
        hdr := dataHdr pl.1 pl.2.1 p.lta p.hid kData p.seq p.keyidx data }) s
  | _, _ => a.2

/-- A mirror slot read for the flush: written as held, with KEYIDX 0xFFFE. -/
def flushMir (slot : Nat) (data : List Byte) (s : State) : State :=
  let a := takePlan true slot s
  match a.1, Tab.find slot a.2.wp.mir with
  | some pl, some m =>
    let s := a.2
    let head := numBytes 6 m.lta ++ numBytes 2 m.hid ++ numBytes 8 m.seq ++ numBytes 2 m.keyidx ++ numBytes 1 m.st ++ numBytes 1 0
    if crc32c (data ++ head) ≠ m.tcrc then flushBad true slot pl s
    else flushMember pl (some {
      own := .mirror slot
      lta := m.lta
      seq := m.seq
      keyidx := 0xFFFE
      data := data
      hdr := dataHdr pl.1 pl.2.1 m.lta m.hid kData m.seq 0xFFFE data }) s
  | _, _ => a.2

/-! ## Row units and FLUSH_END (R361) -/

/-- A flush row unit has ended: its tiles are flushed; after a failure they are left to reconstruction, and the block is marked. -/
def flushUnit (id pos : Nat) (pass : Bool) (page : Page) (s : State) : State :=
  match s.row id with
  | none => s
  | some x =>
    let n := if pass then ((membersAt s x id pos).filter fun m => m.2.own != .pad).length else 0
    let s := s.modRow id fun x => { x with done := pos :: x.done }
    let s := { s with wp := { s.wp with flushed := s.wp.flushed + n } }
    if pass then s else retirePend page s

/-- The page of stream 0 that stood at the trip is given up (R349, R363): its jseq goes to the page of FLUSH_END. -/
def dropPage0 (used : Bool) (s : State) : State :=
  match (s.stream 0).flight with
  | [] => s
  | (j, _) :: _ =>
    let s := if used then advancePos 0 s else s
    s.setStream 0 { s.stream 0 with flight := [], jseq := j, phase := .filling }

/-- Every row of the flush has completed. -/
def flushRowsDone (s : State) : Bool :=
  s.wp.plan.isEmpty && (s.md.rows.all fun e => !e.2.flush || decide (18 ≤ e.2.done.length))

/-- FLUSH_END stands in a page that is not sealed. -/
def endOpen (s : State) : Bool :=
  let x := s.stream 0
  (x.page ++ x.flight.flatMap (·.2)).any fun r => r.rtype == jFlushEnd

/-- FLUSH_COMPLETE (R361): after the last row FLUSH_END is appended, its page is programmed and sealed; then every FL_WP_N goes low and DONE
is set. -/
def execFlushComplete (s : State) : Out :=
  let may := s.running && flushing s && s.wp.pfail && flushRowsDone s && !flushBlocked s
  if s.wp.flushEnd then
    if endOpen s then
      match (s.stream 0).flight with
      | [] => match streamProgram 0 s with
        | some t => onlyIf may s t
        | none => .next s
      | _ => .next s
    else
      onlyIf may s
        (let s := (s.putFlag Fld.mapFlushStsActive false).putFlag Fld.mapFlushStsDone true
         { s with ch := s.ch.map fun e => (e.1, { e.2 with wpN := false }) })
  else
    let t := jAppend 0 ⟨jFlushEnd, s.wp.flushed, s.wp.seq, 0, 0⟩ { s with wp := { s.wp with flushEnd := true } }
    match streamProgram 0 t with
    | some u => onlyIf (may && (s.stream 0).flight.isEmpty) s u
    | none => .next s

end Sys2Proof.Machine
end

