-- ==== Sys2Proof/Machine/Raw.lean ====
section
/-! DEFINITION. The raw sequence window, the patch RAM view, and stoker halt and step (chapter 5). -/

namespace Sys2Proof.Machine

/-! ## STK_RAW_CTL (R191, R197, R203, R224) -/

/-- The target is drained (R191): its slots have ended, no erase of it is suspended (R224), and each set that holds a LUN of it has at most one LUN
with a program or erase in flight. -/
def rawDrained (s : State) (c : Nat) : Bool :=
  let t := s.get Fld.stkRawCtlTgt c
  !((s.chan c).slots.any fun e => e.1 / 4 == t) && !((List.range 4).any fun l => (s.lun (lunKey c t l)).er.isSome)
    && s.md.sets.all fun e =>
      !(e.2.slots.any fun k => lunCh k == c && lunTgt k == t)
        || decide ((e.2.slots.filter fun k => progOn s k || eraseOn s k).length ≤ 1)

/-- READY: it has risen, or the target is drained now. -/
def rawReady (s : State) (c : Nat) : Bool :=
  s.flag Fld.stkRawCtlEn c && (s.flag Fld.stkRawCtlReady c || rawDrained s c)

/-- READY brought up once the target is drained. -/
def rawLatch (c : Nat) (s : State) : State := if rawReady s c then s.putFlag Fld.stkRawCtlReady true c else s

/-- The effect of a write of STK_RAW_CTL: TGT changes only while EN is 0; EN 0 ends READY, and the target returns to the scheduler
once FL_RB_N is high. -/
def rawCtlWrite (c : Nat) (w : Word) (s : State) : State :=
  let was := s.flag Fld.stkRawCtlEn c
  let s := s.put Fld.stkRawCtlTmo (Fld.stkRawCtlTmo.get w) c
  let s := if was then s else s.put Fld.stkRawCtlTgt (Fld.stkRawCtlTgt.get w) c
  if Fld.stkRawCtlEn.get w = 1 then rawLatch c (s.putFlag Fld.stkRawCtlEn true c)
  else
    let s := (s.putFlag Fld.stkRawCtlEn false c).putFlag Fld.stkRawCtlReady false c
    let s := if (s.chan c).rawCe then raiseCe c s else s
    let t := s.get Fld.stkRawCtlTgt c
    if was && !(s.chan c).rb.getLsbD t then s.setChan c { s.chan c with rawOut := some t } else s

/-- RAW_CTL_ENABLE (R191, R224). -/
def execRawCtlEnable (r : Req) (c : Nat) (w : Word) (s : State) : Out :=
  onlyIf (decide (c < 128 ∧ Fld.stkRawCtlEn.get w = 1)) s (regWrite s r .stkRawCtl c w (rawCtlWrite c w))

/-- RAW_CTL_DISABLE (R197). -/
def execRawCtlDisable (r : Req) (c : Nat) (w : Word) (s : State) : Out :=
  onlyIf (decide (c < 128 ∧ Fld.stkRawCtlEn.get w = 0)) s (regWrite s r .stkRawCtl c w (rawCtlWrite c w))

/-! ## Raw accesses (R190 to R196) -/

/-- Offset of a channel's raw window from the base of the registers (Table 19-2). -/
def rawOffset (c ofs : Nat) : Nat := 0x2000000 + 0x20000 * c + ofs

/-- Who reaches a raw window (Tables 17-3 and 17-7): FB and POL; the debug access port in OPEN, or in AUTH with RAW. -/
def rawAllowed (s : State) (src : Nat) : Bool :=
  match classOf src with
  | some .fb | some .pol => true
  | some .dap =>
    s.get Fld.dbgStsLevel == 2 || (s.get Fld.dbgStsLevel == 1 && (BitVec.ofNat 16 (s.get Fld.dbgStsScope)).getLsbD 1)
  | _ => false

/-- A write to another channel's raw window on the request's port and virtual channel waits for its pins (R53); those of the own channel go in
order (R195). -/
def rawBehindOther (s : State) (r : Req) (c : Nat) : Bool :=
  s.ch.any fun e => e.1 != c && e.2.rawQ.any fun a => a.read.isNone && a.req.port == r.port && a.req.vc == r.vc

/-- What a raw access of channel `c` meets before the rules of the window. -/
def rawGate (s : State) (r : Req) (c : Nat) : Gate :=
  if !s.coreOn then .absent
  else if r.vc < 5 ∧ rawBehindOther s r c = true then .waits
  else if 5 ≤ r.vc ∨ !s.fwUp ∨ s.banked ∨ classOf r.src = none then .decerr
  else if rawAllowed s r.src then .pass
  else .refused

/-- The region of an offset (Table 05-10): 0 command, 1 address, 2 data, 3 status, 4 reserved. -/
def rawRegion (ofs : Nat) : Nat := if ofs < 0x300 then ofs / 256 else if ofs < 0x304 then 3 else 4

/-- The region takes a write, or a read (Table 05-10). -/
def regionTakes (write : Bool) (g : Nat) : Bool := if write then decide (g ≤ 2) else g == 2 || g == 3

/-- The window refuses an access of `len` bytes from `ofs`, of which `n` move (R192). -/
def rawRefuses (s : State) (c ofs len n : Nat) : Bool :=
  !rawReady s c || s.flag Fld.stkTgtcfgKx (c * 8 + s.get Fld.stkRawCtlTgt c)
    || rawRegion ofs != rawRegion (ofs + len - 1) || decide (64 < n)

/-- A raw access of a row for a region: refused under R192, DECERR where no region takes it, or queued for the pins. -/
def rawAccess (r : Req) (c ofs len n : Nat) (write : Bool) (region : Nat) (a : State → RawAcc) (s : State) : Out :=
  let no (s : State) := if write then s.respondWrite r .decerr else s.respond r .decerr (List.replicate len 0)
  let g := rawRegion ofs
  if 128 ≤ c ∨ 0x400 ≤ ofs ∨ (regionTakes write g = true ∧ g ≠ region) then .next s
  else match rawGate s r c with
  | .absent | .waits => .next s
  | .decerr => .next (no s)
  | .refused => .next (no (s.noteRefused r.src (rawOffset c ofs)))
  | .pass =>
    let s := rawLatch c (s.abortEntry)
    if rawRefuses s c ofs len n then .next (no (s.putFlag Fld.stkRawStsRefused true c))
    else if regionTakes write g then
      let x := a s
      .next (takeIn r x.beats (s.setChan c { s.chan c with rawQ := (s.chan c).rawQ ++ [x] }))
    else .next (no s)

/-- The enabled bytes of a write, in ascending address order. -/
def enabled (en : List (Option Byte)) : List Byte := en.filterMap id

/-- RAW_COMMAND_WRITE (R190, R194): `en` gives each byte of the access from its offset, none where it is not enabled. Each byte of the
array-start list waits for a draught grant of its own. -/
def execRawCommandWrite (r : Req) (c ofs : Nat) (en : List (Option Byte)) (s : State) : Out :=
  let bs := enabled en
  rawAccess r c ofs en.length bs.length true 0 (fun s =>
    let t := s.get Fld.stkRawCtlTgt c
    { req := r, tgt := t, cycles := bs.map fun b => (BusCyc.cmd (2 ^ t) b, arrayStart s c t b), since := s.now, beats := beatsOf ofs en.length }) s

/-- RAW_ADDRESS_WRITE (R190). -/
def execRawAddressWrite (r : Req) (c ofs : Nat) (en : List (Option Byte)) (s : State) : Out :=
  let bs := enabled en
  rawAccess r c ofs en.length bs.length true 1 (fun s =>
    let t := s.get Fld.stkRawCtlTgt c
    { req := r, tgt := t, cycles := bs.map fun b => (BusCyc.addr (2 ^ t) b, false), since := s.now, beats := beatsOf ofs en.length }) s

/-- RAW_DATA_WRITE (R190). -/
def execRawDataWrite (r : Req) (c ofs : Nat) (en : List (Option Byte)) (s : State) : Out :=
  let bs := enabled en
  rawAccess r c ofs en.length bs.length true 2 (fun s =>
    let t := s.get Fld.stkRawCtlTgt c
    { req := r, tgt := t, cycles := [(.dataIn (2 ^ t) bs, false)], since := s.now, beats := beatsOf ofs en.length }) s

/-- RAW_DATA_READ (R190, R196): the read is answered when it has the pins and its target is not busy. -/
def execRawDataRead (r : Req) (c ofs len : Nat) (s : State) : Out :=
  rawAccess r c ofs len len false 2 (fun s =>
    let t := s.get Fld.stkRawCtlTgt c
    { req := r, tgt := t, cycles := [(.dataOut (2 ^ t) len, false)], read := some (false, 0, len), since := s.now }) s

/-- RAW_STATUS_READ (R190): the bytes asked for of the region's four lanes. -/
def execRawStatusRead (r : Req) (c ofs len : Nat) (s : State) : Out :=
  rawAccess r c ofs len len false 3 (fun s =>
    let t := s.get Fld.stkRawCtlTgt c
    { req := r, tgt := t, cycles := [(.status (2 ^ t), false)], read := some (true, ofs - 0x300, len), since := s.now }) s

/-- The read has been held for TMO µs; a TMO of 0 acts as 1 (R196, R203). -/
def rawLate (s : State) (c : Nat) (a : RawAcc) : Bool :=
  a.read.isSome && decide (a.since + 1000 * max 1 (s.get Fld.stkRawCtlTmo c) ≤ s.now)

/-- RAW_READ_TIMEOUT (R196): DECERR with zero data, no cycle. -/
def execRawReadTimeout (c : Nat) (s : State) : Out :=
  match (s.chan c).rawQ.find? fun a => rawLate s c a && !(s.chan c).rb.getLsbD a.tgt with
  | none => .next s
  | some a =>
    onlyIf s.coreOn s
      (rawFails a ((s.setChan c { s.chan c with rawQ := (s.chan c).rawQ.erase a }).putFlag Fld.stkRawStsTmo true c))

/-! ## Patch RAM view (R186) -/

/-- PATCH_RAM_READ: zero with OK, and XO_RD set. -/
def execPatchRamRead (r : Req) (c ofs beats : Nat) (s : State) : Out :=
  match viewGate s r with
  | .absent | .waits => .next s
  | .pass =>
    if decide (c < 128) && viewReadOk ofs beats then .next ((s.putFlag Fld.stkUcodeStsXoRd true c).respond r .ok (zeroBeats beats))
    else .next (s.respond r .decerr [])
  | _ => .next (s.respond r .decerr [])

/-- PATCH_RAM_WRITE: DECERR, no effect, and XO_WR set. -/
def execPatchRamWrite (r : Req) (c : Nat) (s : State) : Out :=
  match viewGate s r with
  | .absent | .waits => .next s
  | .pass => .next ((if c < 128 then s.putFlag Fld.stkUcodeStsXoWr true c else s).respondWrite r .decerr)
  | _ => .next (s.respondWrite r .decerr)

/-! ## Halt and step (R204) -/

/-- HALT as written: it takes effect at the next switch point, at once when no slot holds the pins. -/
def haltWrite (c : Nat) (w : Word) (s : State) : State :=
  if Fld.stkDbgCtlHalt.get w = 1 then
    let s := (s.putFlag Fld.stkDbgCtlHalt true c).setChan c { s.chan c with halting := true }
    if (s.chan c).act.isNone then haltAt c s else s
  else
    let s := (s.putFlag Fld.stkDbgCtlHalt false c).setChan c { s.chan c with halting := false }
    s.putFlag Fld.stkDbgCtlHalted false c

/-- The slot that a step runs: the one that holds the pins, else the highest-ranked that may run; raw accesses and maintenance execute no word. -/
def stepSlot (s : State) (c : Nat) : Option (Nat × Slot) :=
  match (s.chan c).act with
  | some k => (Tab.find k (s.chan c).slots).map fun x => (k, x)
  | none =>
    let r := (s.chan c).slots.filter fun e => slotReady s c e.2
    (topSlot (r.filter fun e => decide (e.2.op.cls ≤ 1))).or (topSlot r)

/-- One word of a halted stoker (R204). -/
def stepWord (c : Nat) (u : BitVec 96) (din : List Byte) (m : Train) (s : State) : State :=
  if !s.flag Fld.stkDbgCtlHalted c || s.flag Fld.stkStsFault c then s
  else
    match stepSlot s c with
    | none => s
    | some (k, x) =>
      let y : Slot := if x.st = .parkedSafe then { x with st := .ready } else x
      if !wordMay s c y u then s
      else wordOrRate c k y u din m (s.setChan c { s.chan c with act := some k })

/-- STK_DBG_HALT: a write of STK_DBG_CTL with STEP 0. -/
def execStkDbgHalt (r : Req) (c : Nat) (w : Word) (s : State) : Out :=
  onlyIf (decide (c < 128 ∧ Fld.stkDbgCtlStep.get w = 0)) s (regWrite s r .stkDbgCtl c w (haltWrite c w))

/-- STK_DBG_STEP: a write of STK_DBG_CTL with STEP 1. `u` is the ROM word at the counter (DESIGN CHOICE, log entry 18), `din` what the die drives,
`m` what the PHY measures. -/
def execStkDbgStep (r : Req) (c : Nat) (w : Word) (u : BitVec 96) (din : List Byte) (m : Train) (s : State) : Out :=
  onlyIf (decide (c < 128 ∧ Fld.stkDbgCtlStep.get w = 1)) s
    (regWrite s r .stkDbgCtl c w fun s => stepWord c u din m (haltWrite c w s))

end Sys2Proof.Machine
end

