-- ==== Sys2Proof/Machine/OpEnd.lean ====
section
/-! DEFINITION. The end of an array operation (chapter 6, R238 to R240): its code and status evaluated, and what each operation served told of
it. -/

namespace Sys2Proof.Machine

/-! ## Results of single wants -/

/-- A program or seal failed, an erase failed: counted (Table 06-8). -/
def countPfail (k : Nat) (s : State) : State := s.inc Fld.stkAopCntPfail (lunCh k)
def countEfail (k : Nat) (s : State) : State := s.inc Fld.stkAopCntEfail (lunCh k)

/-- A P, Q or data unit of a row has ended. A journal row's P and Q units are sealed too (R348). -/
def rowUnitEnded (id pos : Nat) (pass : Bool) (g : Page) (s : State) : State :=
  if isArea id then
    let s := if pass then s else areaFailed (pageUnit s g) s
    ckptAdvance (unitPassed id pos s)
  else if rowSlc s id then
    if pass then unitPassed id pos (queuePqSeal id pos s) else unitPassed id pos (retirePend g s)
  else if pass then unitPassed id pos s
  else if 16 ≤ pos then retirePend g (abandonRow id s)
  else dataUnitFailed id pos (retirePend g s)

/-- A journal page's first program has ended (R240, R348); under a power-fail trip its page is given up (R363) (DEDUCED, log entry 49). -/
def jpageEnded (k : Nat) (pass : Bool) (g : Page) (s : State) : State :=
  let s := if pass then s else retirePend g s
  if s.wp.pfail ∧ !s.wp.flushEnd then (if k = 0 then dropPage0 true s else s)
  else if pass then queueSeal k s
  else rewritePage k s

/-- A journal page's seal has ended (R235, R344). -/
def jsealEnded (k : Nat) (pass : Bool) (s : State) : State :=
  if pass then sealPassed k s
  else if s.wp.pfail ∧ !s.wp.flushEnd then (if k = 0 then dropPage0 true s else s)
  else rewritePage k s

/-- A header copy, or its commit, has failed: the area's unit is counted, and the copy is left out (R387). -/
def headFailed (k : Nat) (g : Page) (s : State) : State := headDone k (areaFailed (pageUnit s g) s)

/-- A want whose codeword landed, or whose read has gone on without it. -/
def landed (s : State) (w : Want) : Bool :=
  let inBuf := (s.chan (lunCh w.page.lun)).buf.any fun e => e.2.why == w.why && e.2.step == w.step && e.2.page == w.page && e.2.cw == w.cw
  match w.why with
  | .rd id => inBuf || (match s.rd id with
    | some r => r.res.isSome || r.step != w.step || (w.step == 0 && r.centre.isSome) || r.dec.isSome
    | none => true)
  | .soft id plus => inBuf || (match s.rd id with
    | some r => if plus then r.softP.isSome else r.softM.isSome
    | none => true)
  | .margin rtag k plus => inBuf || (match s.rq rtag with
    | some q => (q.margin[2 * k + plus.toNat]?).getD 0 != 0x100
    | none => true)
  | .sample k => inBuf || !((Tab.get {} k s.cal.samples).left.contains (w.page, w.cw))
  | _ => inBuf

/-- A read of which no codeword came: after a timeout it goes to step 18 (R272); otherwise its decode counts as failed (DEDUCED, log entry 46). -/
def readMissed (timeout : Bool) (w : Want) (s : State) : State :=
  if landed s w then s
  else match w.why with
  | .rd id => if timeout then toStep18 id s else decodeFailed id s
  | .soft id _ => if timeout then toStep18 id s else endLadder id s
  | .margin rtag k plus => marginResult rtag k plus 0xFE s
  | .sample k => sampleDone k w.page w.cw s
  | _ => s

/-- A program, seal or erase want has ended with pass or fail. -/
def wantEnded (pass : Bool) (s : State) (w : Want) : State :=
  match w.why with
  | .rowUnit id pos => rowUnitEnded id pos pass w.page s
  | .flush id pos => flushUnit id pos pass w.page s
  | .jpage k => jpageEnded k pass w.page s
  | .jseal k => jsealEnded k pass s
  | .pqSeal _ _ => s
  | .rebuilt _ => rebuiltEnded w pass s
  | .header k => if pass then queueCommit k s else headFailed k w.page s
  | .commit k => if pass then headDone k s else headFailed k w.page s
  | .erase x => if pass then erasePassed x s else eraseFailed x s
  | .ledger k =>
    if pass then s
    else { s with cal := { s.cal with ledgers := Tab.modify k (fun l => { l with at_ := none }) s.cal.ledgers } }
  | _ => s

/-! ## Evaluation (R238, R239) -/

/-- The result of a LUN_OP's operation left for its flue channel (R464): code, status and the bytes read. -/
def lunOpEnded (e : Ended) (s : State) (w : Want) : State :=
  match w.why with
  | .lunOp f => { s with flue := Tab.modify f (fun x => { x with lunEnd := some (e.code, e.status.toNat, e.raw) }) s.flue }
  | _ => s

/-- A code of a patch that stands for FAIL (R239). -/
def failCode (c : Nat) : Bool := c == 1 || decide (8 ≤ c)

/-- The erase state of a LUN whose erase has ended. -/
def eraseEnd (k : Nat) (s : State) : State := modLun k (fun l => { l with er := none }) s

/-- The wants of a cache program that failed: by code 0x07 the page before the last sent, by FAIL the last (Table 06-5); the wants before them
passed, and those after them were not sent. -/
def cacheSplit (e : Ended) : List Want × List Want × List Want :=
  let sent := (e.op.wants.foldl (fun (a : Nat × Nat) w =>
    let n := a.2 + (w.data.map List.length).foldl (· + ·) 0
    (if n ≤ e.sent then a.1 + 1 else a.1, n)) (0, 0)).1
  let ws := e.op.wants.take sent
  let rest := e.op.wants.drop sent
  if e.code = 7 then
    let bad := ((ws.drop (sent - 2)).take 1) ++ (if e.status.getLsbD 0 then ws.drop (sent - 1) else [])
    (ws.filter fun w => !bad.contains w, bad, rest)
  else if failCode e.code then
    let bad := (if e.status.getLsbD 1 then (ws.drop (sent - 2)).take 1 else []) ++ ws.drop (sent - 1)
    (ws.filter fun w => !bad.contains w, bad.eraseDups, rest)
  else (ws, [], rest)

/-- Wants that did not run: back at the front of the queue of a LUN that is online, in their order, ahead of later steps of their block (R214); lost
with one that is not (DEDUCED, log entry 45). -/
def giveBack (k : Nat) (ws : List Want) (s : State) : State :=
  if s.online k then modLun k (fun l => { l with queue := ws ++ l.queue }) s else ws.foldl wantLost s

/-- The set's program token is free again (R296). -/
def freeToken (k : Nat) (s : State) : State :=
  match setOf s k with
  | some n => s.modSet n fun x => if x.token = some k then { x with token := none } else x
  | none => s

/-- Programs and seals that have ended. -/
def progEnded (e : Ended) (s : State) : State :=
  let k := e.op.lun
  let fail := failCode e.code || e.code == 7
  let s := freeToken k (if fail then countPfail k s else s)
  if e.op.optype = 0x0A then
    let c := cacheSplit e
    giveBack k c.2.2 (c.2.1.foldl (wantEnded false) (c.1.foldl (wantEnded true) s))
  else e.op.wants.foldl (wantEnded (!fail)) s

/-- A stalled LUN (R228): the operation's result is awaited; reads and LUN_OPs have theirs already. -/
def stallLun (e : Ended) (s : State) : State :=
  let k := e.op.lun
  let s := (s.inc Fld.stkAopCntAtmo (lunCh k))
  let keep := if isProg e.op.optype ∨ isErase e.op.optype then e.op.wants.filter fun w => w.kind != 4 else []
  modLun k (fun l => { l with stall := some ({ e.op with wants := keep }, s.now) }) s

/-- WPROT (R240): reissued once, 1 ms later; the second time the target goes offline. -/
def wprotEnded (e : Ended) (s : State) : State :=
  let k := e.op.lun
  let s := if isErase e.op.optype then eraseEnd k s else s
  if e.op.again then giveBack k e.op.wants (freeToken k (targetOff (lunCh k) (lunTgt k) 0x35 s))
  else modLun k (fun l => { l with wprot := some (e.op, s.now) }) s

/-- An erase suspended (R221, R222). -/
def suspended (e : Ended) (s : State) : State :=
  let k := e.op.lun
  let s := s.inc Fld.stkAopCntEsusp (lunCh k)
  modLun k (fun l => { l with er := l.er.map fun x => { x with
    suspAt := some s.now
    count := x.count + 1
    closed := false
    nested := 0 } }) s

/-- The pages in the page registers after an operation has ended (R210): those that a read has sensed, the last one of a cache sequence; a COL_READ
changes nothing. -/
def sensedAfter (e : Ended) (l : LunSt) : List (Page × List Int) :=
  let pages := e.op.wants.map fun w => (w.page, e.op.gauge)
  if e.op.optype = 4 then l.sensed
  else if e.op.optype ≤ 3 ∧ e.went ∧ e.code = 0 then
    (if e.op.optype = 3 then ((pages.take (max 1 e.got)).getLast?).toList else pages.eraseDups)
  else []

/-- An operation that has ended, by its code. -/
def judgeOp (e : Ended) (s : State) : State :=
  let k := e.op.lun
  let o := e.op.optype
  let s := if 8 ≤ e.code then s.logPacked uSTK (0x800 + e.code) [(1, lunCh k), (1, lunTgt k), (1, lunL k)] else s
  let s := e.op.wants.foldl (lunOpEnded e) s
  let s := modLun k (fun l => { l with sensed := sensedAfter e l }) s
  if e.code = 5 ∧ isErase o then suspended e s
  else if e.code = 2 ∧ e.went then
    stallLun e (if o ≤ 4 then e.op.wants.foldl (fun s w => readMissed true w s) s else if isProg o then freeToken k s else s)
  else if (e.code = 2 ∨ e.code = 3 ∨ e.code = 4) ∧ !e.went then
    let s := if isProg o then freeToken k s else s
    giveBack k (e.op.wants.filter fun w => w.kind != 4 && !(w.kind == 0 && landed s w)) s
  else if e.code = 6 ∧ (isProg o ∨ isErase o) ∧ o ≠ 0x19 then wprotEnded e s
  else if o ≤ 4 then
    -- a cache sequence that a read of class 0 or 1 has ended leaves its further pages queued (R213)
    let n := if o = 3 ∧ e.code = 0 then e.got else e.op.wants.length
    giveBack k ((e.op.wants.drop n).filter fun w => !landed s w) ((e.op.wants.take n).foldl (fun s w => readMissed false w s) s)
  else if isErase o then
    let fail := e.code ≠ 0
    let s := eraseEnd k (if fail then countEfail k s else s)
    e.op.wants.foldl (wantEnded (!fail)) s
  else if isProg o then
    if o = 0x0A ∧ e.code = 3 then progEnded { e with code := 0 } s
    else if e.code = 3 ∨ e.code = 4 ∨ e.code = 5 ∨ e.code = 6 then progEnded { e with code := 1 } s else progEnded e s
  else s

/-- The raw windows of a channel look again at whether they may open. -/
def rawAfter (k : Nat) (s : State) : State := rawLatch (lunCh k) s

/-- The first operation that has ended and is not yet judged. -/
def nextEnded : List Ended → Option (List Ended × Ended × List Ended)
  | [] => none
  | e :: r => if e.judged then (nextEnded r).map fun x => (e :: x.1, x.2.1, x.2.2) else some ([], e, r)

/-- OPERATION_END (R238, R240, R215): the oldest operation that has ended is evaluated; its record stays until the draught island has had its
END report. -/
def execOperationEnd (s : State) : Out :=
  match nextEnded s.md.ended with
  | none => .next s
  | some (a, e, b) =>
    let keep := if e.reported then a ++ b else a ++ { e with judged := true } :: b
    onlyIf s.coreOn s (settleRds (rawAfter e.op.lun (judgeOp e { s with md := { s.md with ended := keep } })))

end Sys2Proof.Machine
end

