-- ==== Sys2Proof/Machine/Sluices.lean ====
section
/-! DEFINITION. Sluices (chapter 11): doorbells and scans, arbitration, the taking of entries, malformed entries, and the meaning of every sluice
operation. -/

namespace Sys2Proof.Machine

/-- What a sluice holds beside its registers, and a change to it. -/
def State.sluice (s : State) (i : Nat) : Slq := Tab.get {} i s.slq
def State.setSluice (s : State) (i : Nat) (x : Slq) : State := { s with slq := Tab.put i x s.slq }
def State.modSluice (s : State) (i : Nat) (f : Slq → Slq) : State := s.setSluice i (f (s.sluice i))

/-! ## A sluice's ring and state -/

def slqUnits (s : State) (i : Nat) : Nat := 128 * s.get Fld.slqCfgPages i
def slqAddr (s : State) (i unit : Nat) : Nat :=
  s.get Fld.slqBaseHiBaseHi i * 2 ^ 32 + s.get Fld.slqBaseLoBaseLo i * 4096 + 32 * unit
def slqClass (s : State) (i : Nat) : Nat := s.get Fld.slqCfgClass i
def slqRing (s : State) (i : Nat) : Nat := s.get Fld.slqCfg2Hrv i
def slqPort (s : State) (i : Nat) : Nat := s.get Fld.hrvCfgPort (slqRing s i)

/-- Requests outstanding from a sluice. -/
def slqOut (s : State) (i : Nat) : Nat := (s.reqs.filter fun e => e.2.sluice == i).length

/-- A sluice is IDLE (R454). -/
def slqIdle (s : State) (i : Nat) : Bool :=
  !s.flag Fld.slqCtlEn i && (s.sluice i).fetch.isNone && decide (slqOut s i = 0)
    && !(s.ring (slqRing s i)).queue.any fun e => e.sluice == i && !e.nop

/-- The scan of a sluice stops (R433). -/
def stopScan (i : Nat) (s : State) : State := s.putFlag Fld.slqStsScan false i

/-! ## Doorbells and the sluice's own registers (R433, R454, R455, R465) -/

/-- The effect of a doorbell (R433): it is stray, starts a scan, or sets DB_PEND; one of the cycle in which a scan stops is given before that stop. A class-0 sluice that may now hold an entry of the engine's takes
DRAM_IDLE_OK low in the same cycle (R72). -/
def slqDbWrite (i : Nat) (w : Word) (s : State) : State :=
  let s := s.restart
  if !s.flag Fld.slqCfgValid i || !s.flag Fld.slqCtlEn i || s.flag Fld.slqStsError i then s.inc Fld.slqGstsStray
  else
    let s := if s.flag Fld.slqCfgStrict i then s.modSluice i fun x => { x with limit := Fld.slqDbLimit.get w } else s
    let s := if slqClass s i = 0 then { s with pwr := { s.pwr with dramIdle := false } } else s
    if s.flag Fld.slqStsScan i then s.putFlag Fld.slqStsDbPend true i
    else (s.modSluice i fun x => { x with base := s.now }).putFlag Fld.slqStsScan true i

/-- SLUICE_DOORBELL (R433). -/
def execSluiceDoorbell (r : Req) (n : Nat) (w : Word) (s : State) : Out :=
  onlyIf (decide (n < 4096)) s (regWrite s r .slqDb n w (slqDbWrite n w))

/-- The effect of a write of SLQ_CTL (R454, R455). -/
def slqCtlWrite (i : Nat) (w : Word) (s : State) : State :=
  if !s.flag Fld.slqCfgValid i then s
  else if Fld.slqCtlEn.get w = 1 then
    ((s.putFlag Fld.slqCtlEn true i).putFlag Fld.slqStsError false i).putFlag Fld.slqStsDbPend false i
  else
    let s := showWaiting (slqRing s i) ((s.putFlag Fld.slqCtlEn false i).putFlag Fld.slqStsWaitHrv false i)
    if (s.sluice i).fetch.isNone then stopScan i s else s

/-- SLUICE_ENABLE and SLUICE_DISABLE (R454, R455). -/
def execSluiceEnable (r : Req) (n : Nat) (w : Word) (s : State) : Out :=
  onlyIf (decide (n < 4096) && Fld.slqCtlEn.get w == 1) s (regWrite s r .slqCtl n w (slqCtlWrite n w))
def execSluiceDisable (r : Req) (n : Nat) (w : Word) (s : State) : Out :=
  onlyIf (decide (n < 4096) && Fld.slqCtlEn.get w == 0) s (regWrite s r .slqCtl n w (slqCtlWrite n w))

/-- SLQ_HEAD_WRITE (R455): only while the sluice is IDLE. -/
def slqHeadWrite (i : Nat) (w : Word) (s : State) : State :=
  if slqIdle s i then s.put Fld.slqHeadHead (Fld.slqHeadHead.get w) i else s
def execSlqHeadWrite (r : Req) (n : Nat) (w : Word) (s : State) : Out :=
  onlyIf (decide (n < 4096)) s (regWrite s r .slqHead n w (slqHeadWrite n w))

/-- New HALT bits (R465): a class that resumes sets the base of its waiting sluices to this moment (R437). -/
def setHalt (h : Nat) (s : State) : State :=
  let old := s.get Fld.slqHaltHalt
  let s := s.put Fld.slqHaltHalt h
  { s with slq := s.slq.map fun e =>
      if old.testBit (slqClass s e.1) && !h.testBit (slqClass s e.1) && s.flag Fld.slqStsScan e.1 then (e.1, { e.2 with base := s.now }) else e }

/-- SLQ_HALT_WRITE (R465). -/
def execSlqHaltWrite (r : Req) (w : Word) (s : State) : Out :=
  .next (regWrite s r .slqHalt 0 w (setHalt (Fld.slqHaltHalt.get w)))

/-! ## Arbitration (R438, R439, R459) -/

/-- The sluice has a pending scan (R432, R439): its scan runs, it does not wait for harvest room, and its class is not halted (DEDUCED, log entry
131). -/
def pendingScan (s : State) (i : Nat) : Bool :=
  s.flag Fld.slqCfgValid i && s.flag Fld.slqCtlEn i && !s.flag Fld.slqStsError i && s.flag Fld.slqStsScan i && !s.flag Fld.slqStsWaitHrv i
    && !(s.get Fld.slqHaltHalt).testBit (slqClass s i)

/-- The sluice may be granted a fetch: its scan is pending, and no fetch of it is in flight. -/
def fetchable (s : State) (i : Nat) : Bool := pendingScan s i && (s.sluice i).fetch.isNone

/-- The first of some sluices at or after a pointer, in rotation. -/
def rotFirst (p : Nat) (l : List Nat) : Option Nat :=
  let pick (l : List Nat) : Option Nat := l.foldl (fun (a : Option Nat) i => some (match a with | none => i | some b => min b i)) none
  match pick (l.filter (p ≤ ·)) with
  | some i => some i
  | none => pick l

/-- A SLQ_MODIFY that waits takes effect (R460). -/
def applyModify (i : Nat) (s : State) : State :=
  match (s.sluice i).next with
  | some (w, b, m) =>
    (((s.put Fld.slqCfgWeight w i).put Fld.slqCfgBurst (b - 1) i).put Fld.slqNsMaxout m i).modSluice i fun x => { x with next := none }
  | none => s

/-- A new round (R439): every sluice has WEIGHT credits, and a SLQ_MODIFY takes effect (R460). -/
def newRound_ (s : State) : State :=
  (s.slq.map Prod.fst).foldl (fun s i =>
    let s := applyModify i s
    s.modSluice i fun x => { x with credit := s.get Fld.slqCfgWeight i }) s

/-- The sluices with a pending scan of a class. -/
def scanning (s : State) (c : Nat) : List Nat := (s.slq.map Prod.fst).filter fun i => fetchable s i && slqClass s i == c

/-- A pick among classes 1 to 3 that hold credit. -/
def pickWeighted (s : State) : Option Nat :=
  [1, 2, 3].findSome? fun c => rotFirst (Tab.get 0 c s.fetchPtr) ((scanning s c).filter fun i => decide (0 < (s.sluice i).credit))

/-- No sluice of classes 1 to 3 with a pending scan holds credit, and some has one: the round ends (R439). -/
def roundOver (s : State) : Bool :=
  let l := (s.slq.map Prod.fst).filter fun i => pendingScan s i && slqClass s i != 0
  !l.isEmpty && l.all fun i => decide ((s.sluice i).credit = 0)

/-- The sluice to be granted, and the state in which a new round may have begun. A class-0 sluice has no rounds: a SLQ_MODIFY of it takes effect
with its grant (DEDUCED, log entry 131). -/
def pickSluice (s : State) : Option Nat × State :=
  match rotFirst (Tab.get 0 0 s.fetchPtr) (scanning s 0) with
  | some i => (some i, applyModify i s)
  | none =>
    let t := if roundOver s then newRound_ s else s
    (pickWeighted t, t)

/-- Bytes from a unit to the end of a fetch read (R434): 512 B, the 4 KiB boundary, the ring's end, and in strict mode the fetch limit. -/
def fetchLen (s : State) (i unit : Nat) : Nat :=
  let a := slqAddr s i unit
  let lim := if s.flag Fld.slqCfgStrict i ∧ unit < (s.sluice i).limit then ((s.sluice i).limit - unit) * 32 else 2 ^ 20
  min (min 512 (4096 - a % 4096)) (min ((slqUnits s i - unit) * 32) lim)

/-- A fetch read issued from a unit. -/
def issueFetch (i unit len : Nat) (s : State) : State :=
  (s.modSluice i fun x => { x with fetch := some (unit, len) }).issue
    (mkReq (slqPort s i) (slqClass s i) .rd (slqAddr s i unit) len []) (.fetch i)

/-- A flue channel has a command to fetch, and wins the slot (R459). -/
def flueWants (s : State) : Bool :=
  s.flue.any fun e => e.2.bell && e.2.cmd.isNone && e.2.fetch.isNone && s.flag Fld.slqFstsEn e.1

/-- FETCH_GRANT (R438, R439): a sluice is granted the fetch slot and reads from HEAD; none before SERVE_READ (R432), and none while a flue
channel wants it. A sluice whose fetch limit stands at HEAD stops its scan. -/
def execFetchGrant (s : State) : Out :=
  let a := pickSluice s
  match a.1 with
  | none => .next s
  | some i =>
    onlyIf (s.running && decide (8 ≤ s.stage) && !flueWants s) s
      (let t := { a.2 with fetchPtr := Tab.put (slqClass s i) (i + 1) a.2.fetchPtr }
       let h := t.get Fld.slqHeadHead i
       if t.flag Fld.slqCfgStrict i ∧ (t.sluice i).limit = h then stopScan i t
       else issueFetch i h (fetchLen t i h) t)

/-! ## Entries (R423 to R425) -/

/-- An entry read from its bytes; list slots are read as far as the bytes go. -/
def readEntry (b : List Byte) : SqEntry :=
  let n (o k : Nat) : Nat := bytesNum ((b.drop o).take k)
  let ctl := n 0 1
  let fl := n 4 1
  let len := ctl % 16
  let nt := n 6 2
  let slots := (List.range (4 * len)).map fun j => n (32 + 8 * j) 8
  let opc := n 1 1
  { own := decide (128 ≤ ctl)
    len := len
    opc := opc
    cid := n 2 2
    irqNow := fl % 2 == 1
    usesList := fl / 2 % 2 == 1
    cmpl := fl / 4 % 2 == 1
    ack := n 5 1 % 4
    nt := nt
    nta := n 8 6
    buf := n 0x10 8
    opx := n 0x18 8
    list := slots
    rsv := decide (ctl / 16 % 8 ≠ 0 ∨ 8 ≤ fl ∨ n 5 1 / 4 ≠ 0 ∨ n 0x0E 2 ≠ 0) || (fl / 4 % 2 == 1 && opc != 0) }

/-- The namespace of a sluice: valid, and its window and key (R622, R623). -/
def nsValid (s : State) (nsid : Nat) : Bool := decide (nsid < 1024) && s.flag Fld.secNsCtlValid nsid
def nsKey (s : State) (nsid : Nat) : Nat := s.get Fld.secNsCtlKeyidx nsid
def nsLoaded (s : State) (nsid : Nat) : Bool := nsValid s nsid && (keyOf s (nsKey s nsid) s.hid).isSome

/-- The operation may be used by the sluice's owner and class (Table 11-3). -/
def opAllowed (cls owner opc : Nat) : Bool :=
  match opc with
  | 0 | 1 | 2 | 5 => true
  | 3 | 4 => cls != 0
  | 6 => cls != 0 && (owner == 1 || owner == 2)
  | _ => false

/-- LEN fits the operation, and an entry with a list follows R425: it has room for every tile, its other slots hold 0, and BUF is 0. -/
def lenOk (e : SqEntry) : Bool :=
  if e.opc = 0 then true
  else if e.usesList then
    (e.opc == 1 || e.opc == 2) && decide (e.nt + 1 ≤ 4 * e.len) && (e.list.drop (e.nt + 1)).all (· == 0) && e.buf == 0
  else e.len == 0

/-- Every field that must be 0 is 0, NT is in range, and OUTMAX is a multiple of 64 (code 0x04). -/
def zerosOk (e : SqEntry) : Bool :=
  if e.opc = 0 then true
  else !e.rsv && (e.opc == 2 || e.ack == 0) && decide (e.nt < 128)
    && (match e.opc with
        | 1 | 2 => e.opx == 0
        | 3 => e.nt == 0 && e.nta == 0 && e.buf == 0 && e.opx == 0
        | 4 => e.buf == 0 && e.opx == 0
        | 5 => e.opx / 2 ^ 32 % 64 == 0
        | 6 => e.nt == 0 && e.nta == 0 && decide (e.opx < 256)
        | _ => true)

/-- The entry names tiles. -/
def namesTiles (opc : Nat) : Bool := opc == 1 || opc == 2 || opc == 4 || opc == 5

/-- Every LTA lies in the namespace's window and is no system tile (code 0x06); skipped where the namespace is not valid (R623). -/
def windowOk (s : State) (nsid : Nat) (e : SqEntry) : Bool :=
  !namesTiles e.opc || !nsValid s nsid
    || (decide (e.nta + e.nt < nsLen s nsid) && decide (nsLow s nsid + e.nta + e.nt < 0xF00000000000))

/-- A buffer address is usable (code 0x07). -/
def addrOk (a : Nat) : Bool := decide (a % 64 = 0 ∧ a < 2 ^ 52)
def bufsOk (s : State) (e : SqEntry) : Bool :=
  match e.opc with
  | 1 | 2 => if e.usesList then (e.list.take (e.nt + 1)).all addrOk else addrOk e.buf
  | 5 => addrOk e.buf
  | 6 => entState e.buf == 1 && e.buf % 2 ^ 24 == 0 && s.online (entLun e.buf)
  | _ => true

/-- The first cause of Table 11-4 that an entry meets (DEDUCED, log entry 53). -/
def malformed (s : State) (i unit : Nat) (e : SqEntry) : Option Nat :=
  let cls := slqClass s i
  if slqUnits s i < unit + e.len + 1 then some 1
  else if !opAllowed cls (s.get Fld.slqCfgOwner i) e.opc then some 2
  else if !lenOk e then some 3
  else if !zerosOk e then some 4
  else if e.opc = 2 ∧ (e.ack = 0 ∨ (e.ack = 3 ∧ cls = 0)) then some 5
  else if !windowOk s (s.get Fld.slqNsNsid i) e then some 6
  else if !bufsOk s e then some 7
  else if !e.own then some 8
  else none

/-- Harvest units an entry needs as its first unit reads. -/
def entryUnits (s : State) (i : Nat) (e : SqEntry) : Nat := unitsOf (slqClass s i) e.opc e.ack e.nt

/-- A malformed entry (R430, R431): the sluice is in ERROR, and one MALFORMED entry is owed. -/
def malform (i unit code cid units : Nat) (s : State) : State :=
  let s := ((s.putFlag Fld.slqStsError true i).put Fld.slqStsErrIdx unit i).put Fld.slqStsErrCode code i
  let s := (stopScan i s).inc Fld.slqGstsMalf
  let s := s.reserve (slqRing s i) units
  let bytes := leBytes 1 64 ++ leBytes 1 0 ++ leBytes 2 cid ++ leBytes 2 i ++ leBytes 2 (s.get Fld.slqCfg2Client i) ++ leBytes 4 0
    ++ leBytes 1 0x20 ++ List.replicate 19 0
  let e : HEntry := {
    bytes := bytes
    sluice := i
    irqNow := true
    status := 0x20
    release := units
    rtag := 0
    last := false }
  let s := (s.owe (slqRing s i) e).logPacked uSLQ (0x500 + code) [(2, i), (2, unit)]
  if s.get Fld.slqCfgOwner i = 2 then s.bank 5 else s

/-! ## Taking (R433 to R443) -/

/-- One of the 1,024 request slots that only a class may take is free; the class's next request otherwise takes a shared one (R440). -/
def ownSlotFree (s : State) (c : Nat) : Bool := decide ((s.reqs.filter fun e => e.2.cls == c && !e.2.pooled).length < 1024)

/-- A request slot is free for a class (R440). -/
def slotFree (s : State) (c : Nat) : Bool := ownSlotFree s c || decide ((s.reqs.filter fun e => e.2.pooled).length < 12288)

/-- The request of an entry, with its tiles. -/
def newRequest (s : State) (i : Nat) (e : SqEntry) (rtag : Nat) : Request :=
  let nsid := s.get Fld.slqNsNsid i
  let buf (j : Nat) : Nat := if e.usesList then (e.list[j]?).getD 0 else e.buf + 4096 * j
  let tiles := if namesTiles e.opc then (List.range (e.nt + 1)).map fun j =>
      ({ lta := nsLow s nsid + e.nta + j, buf := buf j } : Tile) else []
  { rtag := rtag
    sluice := i
    cls := slqClass s i
    ring := slqRing s i
    opc := e.opc
    cid := e.cid
    irqNow := e.irqNow
    ack := e.ack
    nt := e.nt
    buf := e.buf
    opx := e.opx
    nsid := nsid
    keyidx := nsKey s nsid
    nsOk := if e.opc = 4 then nsValid s nsid else nsLoaded s nsid
    units := entryUnits s i e
    base := (s.sluice i).base
    tiles := tiles
    pooled := !ownSlotFree s (slqClass s i) }

/-- The tokens of a class-0 READ or FILTER (R22): NT + 1, or none. -/
def takeTokens (q : Request) (s : State) : Request × State :=
  if q.cls = 0 ∧ (q.opc = 1 ∨ q.opc = 5) then
    if q.nt + 1 ≤ s.md.c0Tok then (q, { s with md := { s.md with c0Tok := s.md.c0Tok - (q.nt + 1) } })
    else ({ q with overCeil := true }, s)
  else (q, s)

/-- What a FILTER latches at take (R508, R510). -/
def latchFilter (q : Request) (s : State) : Request × State :=
  if q.opc ≠ 5 then (q, s)
  else
    let prog := q.opx % 2 ^ 8
    let fmt := q.opx / 2 ^ 16 % 2 ^ 16
    let q := { q with gdesc := some (fmt, q.opx % 2 ^ 16) }
    if q.opx / 2 ^ 8 % 2 ^ 8 ≠ 0 ∨ !s.flag Fld.cryGrdPdescValid prog ∨ 64 ≤ fmt ∨ !s.flag Fld.cryGrdFmtW0Valid fmt then
      ({ q with badRef := true }, (s.inc Fld.cryGrdStsBadref).logPacked uCRY 0x1011 [(2, q.sluice), (2, q.cid)])
    else ({ q with gfmt := fmtWords s fmt, gprog := progWords s prog }, s)

/-- What an entry needs to be admitted: a WRITE its slots (R342); a FLUSH notes what it waits for (R328), an UNMAP its tiles. None where it
waits at its sluice's head. -/
def admitEntry (q : Request) (s : State) : Option (Request × State) :=
  match q.opc with
  | 2 =>
    if !q.nsOk then some (q, s)
    else match takeSlots q s with
      | some x => some x
      | none => if q.cls = 0 then some ({ q with status := some 0x10 }, s) else none
  | 3 => some ({ q with waitFor := (s.wp.admitted.filter fun x => x.1 == q.sluice) }, s)
  | 4 => some ({ q with waitFor := q.tiles.zipIdx.map fun t => (t.2, t.1.lta, 0) }, s)
  | _ => some (q, s)

/-- HEAD after an entry. -/
def nextHead (s : State) (i unit len : Nat) : Nat := if unit + len + 1 = slqUnits s i then 0 else unit + len + 1

/-- An entry taken (R435, R441): its tag, its reservation, its request; a NOP with CMPL 0 is taken and has none. None where it cannot be taken
now. -/
def takeEntry (i unit : Nat) (e : SqEntry) (s : State) : Option State :=
  let head := nextHead s i unit e.len
  let spend (s : State) : State := (s.modSluice i fun x => { x with credit := x.credit - 1 }).put Fld.slqHeadHead head i
  let tag := (s.rtag + 1) % 2 ^ 32
  let s := { s with rtag := tag }
  if e.opc = 0 ∧ !e.cmpl then some (spend s)
  else
    let a := takeTokens (newRequest s i e tag) s
    match admitEntry a.1 a.2 with
    | none => none
    | some (q, s) =>
      let b := latchFilter q s
      some (spend ((b.2.setRq b.1).reserve (slqRing s i) b.1.units))

/-- Byte 0 of the units of the entries taken from one read handed back (R420): one posted write, or two where a 4 KiB boundary divides them. -/
def handBack (i unit n : Nat) (s : State) : State :=
  if n = 0 then s
  else s.issueAll ((cutPages (n + 1) (slqAddr s i unit) (32 * n)).map fun c =>
    ({ mkReq (slqPort s i) (slqClass s i) .pw c.1 c.2 (List.replicate (c.2 / 32) 0) with step := 32 }, .handback))

/-- The take limits of R434 that stop a scan before an entry. -/
def takeLimit (s : State) (i taken : Nat) : Bool :=
  decide (8 ≤ taken) || decide (s.get Fld.slqCfgBurst i + 1 ≤ taken)
    || (slqClass s i != 0 && decide ((s.sluice i).credit = 0)) || decide (s.get Fld.slqNsMaxout i ≤ slqOut s i) || !slotFree s (slqClass s i)

/-- The sluice waits for harvest room (R443). -/
def waitRoom (i units : Nat) (s : State) : State :=
  ((s.modSluice i fun x => { x with need := units }).putFlag Fld.slqStsWaitHrv true i).putFlag Fld.hrvStsWaiting true (slqRing s i)

/-- The scan of a block from a unit (R433): the state, the next unit, and the entries taken. `fuel` bounds the entries. -/
def scanBlock (i : Nat) : Nat → Nat → Nat → List Byte → State → State × Nat × Nat
  | 0, unit, taken, _, s => (s, unit, taken)
  | fuel + 1, unit, taken, b, s =>
    if b.length < 32 then (s, unit, taken)
    else if s.flag Fld.slqCfgStrict i ∧ unit = (s.sluice i).limit then (stopScan i s, unit, taken)
    else
      let e := readEntry b
      if !e.own ∧ !s.flag Fld.slqCfgStrict i then
        (if s.flag Fld.slqStsDbPend i then s.putFlag Fld.slqStsDbPend false i else stopScan i s, unit, taken)
      else if takeLimit s i taken then (s, unit, taken)
      else if !hasRoom s (slqRing s i) (entryUnits s i e) then (waitRoom i (entryUnits s i e) s, unit, taken)
      else if unit + e.len + 1 ≤ slqUnits s i ∧ b.length < 32 * (e.len + 1) then
        -- the entry extends past the end of the read: the rest is read first, up to a 4 KiB boundary at a time (R45)
        let at_ := unit + b.length / 32
        (issueFetch i at_ (min (32 * (e.len + 1) - b.length) (4096 - slqAddr s i at_ % 4096)) (s.modSluice i fun x => { x with part := b }), unit, taken)
      else match malformed s i unit e with
        | some code => (malform i unit code e.cid (entryUnits s i e) s, unit, taken)
        | none =>
          match takeEntry i unit e s with
          | none => (s, unit, taken)
          | some t => scanBlock i fuel (nextHead s i unit e.len) (taken + 1) (b.drop (32 * (e.len + 1))) t

/-- A fetch read has come back: its entries are scanned, and those taken are handed back (R433, R420). -/
def fetched (i : Nat) (code : RCode) (data : List Byte) (s : State) : State :=
  let x := s.sluice i
  match x.fetch with
  | none => s
  | some _ =>
    let h := s.get Fld.slqHeadHead i
    let s := s.modSluice i fun x => { x with fetch := none, part := [] }
    if !s.flag Fld.slqCtlEn i then stopScan i s
    else if s.banked ∨ (s.get Fld.slqHaltHalt).testBit (slqClass s i) then s
    else if code ≠ .ok then
      let units := if x.part.isEmpty then 1 else entryUnits s i (readEntry x.part)
      if hasRoom s (slqRing s i) units then malform i h 9 0 units s else waitRoom i units s
    else
      let r := scanBlock i 17 h 0 (x.part ++ data) s
      -- units taken: up to the unit the scan stopped at
      let n := if r.2.2 = 0 then 0 else (r.2.1 + slqUnits s i - h) % slqUnits s i
      handBack i h (if r.2.2 ≠ 0 ∧ n = 0 then slqUnits s i else n) r.1

/-- FETCH_READ_DONE (R434). -/
def execFetchReadDone (n : Nat) (code : RCode) (data : List Byte) (s : State) : Out :=
  match takeOutst (.fetch n) s with
  | none => .next s
  | some (_, t) => onlyIf s.coreOn s (fetched n code data t)

/-! ## The operations (Table 11-3) -/

/-- A request that its row starts: with its namespace at hand, or it ends NS_UNAVAIL (R428). -/
def startRow (rtag opc : Nat) (run : Request → State → State) (s : State) : Out :=
  match s.rq rtag with
  | none => .next s
  | some q =>
    onlyIf (s.running && q.opc == opc && !q.started) s
      (let s := s.setRq { q with started := true }
       if namesTiles opc && !q.nsOk then finish { q with started := true } 0x12 0 s
       else run { q with started := true } s)

/-- SLUICE_NOP (R424): one with CMPL 1 gets its entry. -/
def execSluiceNop (rtag : Nat) (s : State) : Out := startRow rtag 0 (fun q s => finish q 0 0 s) s

/-- SLUICE_READ (R424): its tiles are looked up from now on. -/
def execSluiceRead (rtag : Nat) (s : State) : Out := startRow rtag 1 (fun _ s => s) s

/-- SLUICE_WRITE (R424): its tiles are committed; a class-0 entry without slots ends PAN_FULL (R342). -/
def execSluiceWrite (rtag : Nat) (s : State) : Out :=
  startRow rtag 2 (fun q s =>
    if q.status = some 0x10 then finish q 0x10 0 s
    else q.tiles.zipIdx.foldl (fun s t => match t.1.slot with
      | some slot => startCommit q t.2 t.1 slot 0 s
      | none => s) s) s

/-- SLUICE_FLUSH (R328): it completes once nothing it waits for is left. -/
def execSluiceFlush (rtag : Nat) (s : State) : Out := startRow rtag 3 (fun q s => requestCheck q.rtag s) s

/-- A tile of an UNMAP (R380): its staged copies go; while a copy is in state 0x12 or 0x13, or a mover holds one, it waits. -/
def unmapTile (q : Request) (s : State) (t : Tile × Nat) : State :=
  let l := t.1.lta
  let s := discardCopies l s
  if s.wp.own.any fun e => e.2.lta == l && e.2.st != 0 then s
  else (mapUpdate ⟨l, 0, none, .unmap q.rtag t.2⟩ q.cls (s.modTile q.rtag t.2 fun t => { t with looked := true }))

/-- SLUICE_UNMAP (R380): the tiles that may be unmapped now; the command comes again for the others. -/
def execSluiceUnmap (rtag : Nat) (s : State) : Out :=
  match s.rq rtag with
  | none => .next s
  | some q =>
    onlyIf (s.running && q.opc == 4 && !q.firstOut && !s.wp.pfail) s
      (if !q.nsOk then finish { q with started := true } 0x12 0 (s.setRq { q with started := true })
       else
         let s := s.setRq { q with started := true }
         requestCheck rtag ((q.tiles.zipIdx.filter fun t => !t.1.looked).foldl (unmapTile q) s))

/-- SLUICE_FILTER (R511): its tiles are looked up and graded from now on. -/
def execSluiceFilter (rtag : Nat) (s : State) : Out := startRow rtag 5 (fun _ s => s) s

/-- SLUICE_MARGIN (R275): two reads of each codeword that CWMASK names. -/
def execSluiceMargin (rtag : Nat) (s : State) : Out :=
  startRow rtag 6 (fun q s =>
    let q := { q with margin := (List.range 16).map fun j => if q.opx.testBit (j / 2) then 0x100 else 0 }
    requestCheck rtag (marginReads q (s.setRq q))) s

end Sys2Proof.Machine
end

