-- ==== Sys2Proof/Machine/Flue.lean ====
section
/-! DEFINITION. The flue (chapter 11, R458 to R464): its channels, their fetches and completions, and the meaning of every flue command. -/

namespace Sys2Proof.Machine

/-- A flue channel, and a change to it. -/
def State.flueOf (s : State) (f : Nat) : Flue := Tab.get {} f s.flue
def State.modFlue (s : State) (f : Nat) (g : Flue → Flue) : State := { s with flue := Tab.put f (g (s.flueOf f)) s.flue }

/-! ## FSTATUS (Table 11-14) -/

def fsOk : Nat := 0
def fsDenied : Nat := 1
def fsBusy : Nat := 2
def fsNoFree : Nat := 3
def fsInUse : Nat := 4
def fsBadParam : Nat := 5
def fsClass : Nat := 6
def fsMalformed : Nat := 7
def fsOpFail : Nat := 8

/-! ## Completions (R462) -/

def flueCmdAddr (x : Flue) (unit : Nat) : Nat := x.cbase + 32 * unit
def flueRspAddr (x : Flue) (unit : Nat) : Nat := x.rbase + 32 * unit

/-- A command completes: its unit is written, and the channel is free for the next. -/
def flueDone (f st num : Nat) (detail : List Byte) (s : State) : State :=
  let x := s.flueOf f
  let c := x.cmd.getD []
  let bytes := leBytes 1 0x40 ++ (c.drop 1).take 3 ++ leBytes 1 st ++ leBytes 3 0 ++ leBytes 2 num ++ leBytes 6 0
    ++ detail.take 8 ++ List.replicate (8 - detail.length) 0 ++ leBytes 8 0
  let a := flueRspAddr x x.tail
  let s := s.modFlue f fun x => { x with
    tail := if x.tail + 1 = 128 * x.rpages then 0 else x.tail + 1
    cmd := none
    lunOp := none
    lunEnd := none
    lunOut := 0
    lunBuf := [] }
  let s := (s.putFlag Fld.slqFstsBusy false f).inc Fld.slqFstsDone f
  s.issueAll (writeReqs x.port 4 .pw (a + 1) (bytes.drop 1) (.flueBody f) ++ writeReqs x.port 4 .sw a (bytes.take 1) (.flueByte f))

/-- A field of a command. -/
def fp (x : Flue) (o n : Nat) : Nat := bytesNum (((x.cmd.getD []).drop o).take n)

/-! ## Doorbell and fetch (R459, R460, R463) -/

/-- The effect of a flue doorbell. -/
def slqFdbWrite (f : Nat) (s : State) : State :=
  if s.flag Fld.slqFstsEn f then (s.modFlue f fun x => { x with bell := true, again := x.fetch.isSome }).restart else s

/-- FLUE_DOORBELL (R459). -/
def execFlueDoorbell (r : Req) (f : Nat) (w : Word) (s : State) : Out :=
  onlyIf (decide (f < 4)) s (regWrite s r .slqFdb f w (slqFdbWrite f))

/-- Bytes of a command that no field of its kind takes, and bits of those that do: each must be 0 (R460, Table 11-13, Table 11-19). -/
def flueReserved (b : List Byte) : Bool :=
  let n (o k : Nat) : Nat := bytesNum ((b.drop o).take k)
  let z (o : Nat) : Bool := (b.drop o).all (· == 0)
  n 0 1 / 16 % 8 != 0 ||
  (match n 1 1 with
   | 1 => n 0x12 1 / 32 != 0 || n 0x13 1 != 0 || !z 0x1D
   | 2 => !z 6
   | 3 => n 0x12 1 / 4 != 0 || n 0x15 1 != 0 || !z 0x18
   | 4 => !z 6
   | 5 => !z 0x0A
   | 6 => n 7 1 != 0 || !z 0x0A
   | 7 => n 4 1 / 16 != 0 || !z 5
   | 8 => !z 4
   | 9 => n 7 1 != 0 || !z 0x25
   | 10 =>
     let t := n 7 1
     let otp := t == 0x18 || t == 0x19
     (!otp && (n 8 2 != 0 || n 0x10 8 != 0)) || (t != 0x20 && t != 0x21 && n 0x0A 1 != 0) || n 0x0B 1 != 0
       || (t != 0x21 && n 0x0C 4 != 0) || !z 0x18
   | _ => true)

/-- A command as it was read is malformed (FSTATUS 0x07). -/
def flueMalformed (b : List Byte) : Bool := bytesNum (b.take 1) % 16 != 1 || flueReserved b

/-- A LUN_OP whose operation type is none of Table 11-19: out of range on F0, and not permitted on the others. -/
def noSuchOp (b : List Byte) : Bool :=
  bytesNum ((b.drop 1).take 1) == 10 && !([0x18, 0x19, 0x20, 0x21].contains (bytesNum ((b.drop 7).take 1)))

/-- The channel asks for its next command: rung, free, and no fetch of it out. -/
def flueAsks (s : State) (f : Nat) : Bool :=
  s.flag Fld.slqFstsEn f && (s.flueOf f).bell && (s.flueOf f).cmd.isNone && (s.flueOf f).fetch.isNone

/-- The units of the command ring that a fetch reads from HEAD: the two of a command, or the one that is left before the ring's end. -/
def flueLeft (x : Flue) : Nat := min 2 (128 * x.cpages - x.head)

/-- FLUE_FETCH (R459): the lowest-numbered channel that asks reads byte 0 of its completion unit; its next command is read once that unit is found
handed over. -/
def execFlueFetch (f : Nat) (s : State) : Out :=
  let x := s.flueOf f
  onlyIf (s.running && decide (f < 4) && flueAsks s f && (List.range f).all fun g => !flueAsks s g) s
    ((s.modFlue f fun x => { x with fetch := some (1, [], true), again := false }).issue
      (mkReq x.port 4 .rd (flueRspAddr x x.tail) 1 []) (.flueOwn f))

/-- A fetch that brought no command: an error is logged and the doorbell stands, as it does where no completion unit is handed over; a
command ring without a command ends it (DEDUCED, log entry 52). -/
def flueIdle (f : Nat) (failed keep : Bool) (s : State) : State :=
  let s := s.modFlue f fun x => { x with fetch := none, bell := keep || x.again, again := false }
  if failed then s.logPacked uSLQ (Config.eventCode 459) [(1, f)] else s

/-- The answer to the read of a completion unit: handed over, the command is read, cut at the 4 KiB boundary (R45). -/
def flueOwned (f : Nat) (code : RCode) (data : List Byte) (s : State) : State :=
  let x := s.flueOf f
  if x.fetch.isNone ∨ x.cmd.isSome then s
  else if code ≠ .ok then flueIdle f true true s
  else if bytesNum (data.take 1) < 128 ∨ !s.running then flueIdle f false true s
  else
    let l := cutPages 65 (flueCmdAddr x x.head) (32 * flueLeft x)
    (s.modFlue f fun x => { x with fetch := some (l.length, [], true) }).issueAll
      (l.map fun c => (mkReq x.port 4 .rd c.1 c.2 [], .flueCmd f))

/-- A command whose units have been read is taken: they are handed back, and it runs, or completes MALFORMED, which banks on F0 (R463). -/
def flueTake (f : Nat) (b : List Byte) (s : State) : State :=
  let x := s.flueOf f
  let n := min (bytesNum (b.take 1) % 16 + 1) (128 * x.cpages - x.head)
  let s := s.issueAll ((cutPages (n + 1) (flueCmdAddr x x.head) (32 * n)).map fun c =>
    ({ mkReq x.port 4 .pw c.1 c.2 (List.replicate (c.2 / 32) 0) with step := 32 }, .handback))
  let s := s.modFlue f fun x => { x with
    head := if 128 * x.cpages ≤ x.head + n then 0 else x.head + n
    fetch := none
    again := false
    cmd := some (b ++ List.replicate (64 - b.length) 0)
    since := s.now }
  let s := s.putFlag Fld.slqFstsBusy true f
  if flueMalformed b || decide (b.length < 64) then
    let s := (flueDone f fsMalformed 0 [] s).logPacked uSLQ (0x600 + fsMalformed) [(1, f)]
    if f = 0 then s.bank 5 else s
  else if noSuchOp b then flueDone f (if f = 0 then fsBadParam else fsDenied) 0 [] s
  else s

/-- The answer to a read of a command's units: the last of them ends the fetch. -/
def flueRead (f addr : Nat) (code : RCode) (data : List Byte) (s : State) : State :=
  let x := s.flueOf f
  match x.fetch with
  | none => s
  | some (n, got, ok) =>
    let got := bufPut (addr - flueCmdAddr x x.head) data got
    let ok := ok && code == .ok
    if 1 < n then s.modFlue f fun x => { x with fetch := some (n - 1, got, ok) }
    else
      let b := bufGet got 0 (32 * flueLeft x)
      if !ok then flueIdle f true true s
      else if !s.running then flueIdle f false true s
      else if bytesNum (b.take 1) < 128 then flueIdle f false false s
      else flueTake f b s

/-- A flue command that runs: its row carries it out, and it completes with its FSTATUS, number and DETAIL. -/
def flueRow (f opc : Nat) (run : Flue → State → Nat × Nat × List Byte × State) (s : State) : Out :=
  let x := s.flueOf f
  onlyIf (s.running && decide (f < 4) && x.cmd.isSome && fp x 1 1 == opc) s
    (let r := run x s
     flueDone f r.1 r.2.1 r.2.2.1 r.2.2.2)

/-! ## Creation and destruction (R456, R461) -/

/-- A number to create: as named, or the lowest free in range. -/
def pickNumber (free : Nat → Bool) (lo hi n : Nat) : Option Nat :=
  if n = 0xFFFF then (List.range 4096).find? fun i => decide (lo ≤ i ∧ i ≤ hi) && free i else some n

/-- Numbers a channel may use. -/
def slqRange (f : Nat) (x : Flue) : Nat × Nat := if f < 2 then (0, 4095) else (x.slqLo, x.slqHi)
def hrvRange (f : Nat) (x : Flue) : Nat × Nat := if f < 2 then (0, 4095) else (x.hrvLo, x.hrvHi)

/-- A BASE and PAGES within R417. -/
def ringOk (base pages lim : Nat) : Bool := decide (base % 4096 = 0 ∧ base < 2 ^ 52 ∧ 1 ≤ pages ∧ pages ≤ lim)

/-- The owners a channel may create sluices for (Table 11-12). -/
def ownerOk (f owner : Nat) : Bool := f == 0 || (f == 1 && decide (owner ≤ 1)) || owner == 0

/-- SLQ_CREATE on a channel: status and number (DESIGN CHOICE, log entry 32 for the order of the checks). -/
def slqCreate (f : Nat) (x : Flue) (s : State) : Nat × Nat × State :=
  let owner := fp x 0x12 1 / 8 % 4
  let cls := fp x 0x12 1 % 4
  let ring := fp x 6 2
  let rg := slqRange f x
  let n := fp x 4 2
  if owner ≠ 3 ∧ !ownerOk f owner then (fsDenied, 0, s)
  else if owner = 3 ∨ (n ≠ 0xFFFF ∧ 4096 ≤ n) ∨ 4096 ≤ ring ∨ !s.flag Fld.hrvStsValid ring ∨ !ringOk (fp x 8 8) (fp x 0x10 2) 512
      ∨ 64 < fp x 0x15 1 ∨ 4096 < fp x 0x1A 2 ∨ 1 < fp x 0x1C 1 then (fsBadParam, 0, s)
  else if n ≠ 0xFFFF ∧ (n < rg.1 ∨ rg.2 < n) then (fsDenied, 0, s)
  else match pickNumber (fun i => !s.flag Fld.slqCfgValid i) rg.1 rg.2 n with
  | none => (fsNoFree, 0, s)
  | some i =>
    if s.flag Fld.slqCfgValid i then (fsInUse, i, s)
    else if s.get Fld.hrvCfgClass ring ≠ cls then (fsClass, i, s)
    else
      let w := if fp x 0x14 1 = 0 then s.img.defW else fp x 0x14 1
      let b := if fp x 0x15 1 = 0 then s.img.defB else fp x 0x15 1
      let m := if fp x 0x1A 2 = 0 then s.img.defM else fp x 0x1A 2
      let base := fp x 8 8
      let s := ((s.putFlag Fld.slqCfgValid true i).put Fld.slqCfgClass cls i).put Fld.slqCfgStrict (fp x 0x12 1 / 4 % 2) i
      let s := ((s.put Fld.slqCfgOwner owner i).put Fld.slqCfgCreator f i).put Fld.slqCfgWeight w i
      let s := ((s.put Fld.slqCfgBurst (b - 1) i).put Fld.slqCfgPages (fp x 0x10 2) i).put Fld.slqCfg2Client (fp x 0x16 2) i
      let s := ((s.put Fld.slqCfg2Hrv ring i).put Fld.slqNsNsid (fp x 0x18 2) i).put Fld.slqNsMaxout m i
      let s := (s.put Fld.slqBaseLoBaseLo (base / 4096) i).put Fld.slqBaseHiBaseHi (base / 2 ^ 32) i
      let s := (s.setReg .slqSts i (regReset .slqSts i)).put Fld.slqHeadHead 0 i
      (fsOk, i, (s.putFlag Fld.slqCtlEn (fp x 0x1C 1 == 1) i).setSluice i { credit := w })

/-- SLQ_CREATE (R461). -/
def execSlqCreate (f : Nat) (s : State) : Out :=
  flueRow f 1 (fun x s => let r := slqCreate f x s; (r.1, r.2.1, [], r.2.2)) s

/-- A register copy back at its reset word. -/
def State.clearReg (s : State) (k : RegKind) (i : Nat) : State := s.setReg k i (regReset k i)

/-- The commands on a sluice or ring that its creating channel, or F0, may give: its number, if it may. -/
def ownedBy (f creator : Nat) : Bool := f == 0 || creator == f

/-- SLQ_DESTROY (R456). -/
def slqDestroy (f : Nat) (x : Flue) (s : State) : Nat × Nat × State :=
  let i := fp x 4 2
  if 4096 ≤ i ∨ !s.flag Fld.slqCfgValid i then (fsBadParam, i, s)
  else if !ownedBy f (s.get Fld.slqCfgCreator i) then (fsDenied, i, s)
  else if !slqIdle s i then (fsBusy, i, s)
  else
    let s := ([.slqCtl, .slqSts, .slqHead, .slqCfg, .slqCfg2, .slqNs, .slqBaseLo, .slqBaseHi] : List RegKind).foldl (fun s k => s.clearReg k i) s
    (fsOk, i, { s with slq := Tab.del i s.slq })
def execSlqDestroy (f : Nat) (s : State) : Out :=
  flueRow f 2 (fun x s => let r := slqDestroy f x s; (r.1, r.2.1, [], r.2.2)) s

/-- HRV_CREATE on a channel (R461). -/
def hrvCreate (f : Nat) (x : Flue) (s : State) : Nat × Nat × State :=
  let rg := hrvRange f x
  let n := fp x 4 2
  if (n ≠ 0xFFFF ∧ 4096 ≤ n) ∨ 2048 ≤ fp x 6 2 ∨ !ringOk (fp x 8 8) (fp x 0x10 2) 512 ∨ 16 ≤ fp x 0x13 1 then (fsBadParam, 0, s)
  else if n ≠ 0xFFFF ∧ (n < rg.1 ∨ rg.2 < n) then (fsDenied, 0, s)
  else match pickNumber (fun i => !s.flag Fld.hrvStsValid i) rg.1 rg.2 n with
  | none => (fsNoFree, 0, s)
  | some i =>
    if s.flag Fld.hrvStsValid i then (fsInUse, i, s)
    else
      let base := fp x 8 8
      let s := ((s.put Fld.hrvCfgClass (fp x 0x12 1 % 4) i).put Fld.hrvCfgPort (fp x 0x13 1) i).put Fld.hrvCfgCreator f i
      let s := ((s.put Fld.hrvCfgSrc (fp x 6 2) i).put Fld.hrvCfgPages (fp x 0x10 2) i).put Fld.hrvModCnt (fp x 0x14 1) i
      let s := ((s.put Fld.hrvModTime (fp x 0x16 2) i).put Fld.hrvBaseLoBaseLo (base / 4096) i).put Fld.hrvBaseHiBaseHi (base / 2 ^ 32) i
      (fsOk, i, ((s.clearReg .hrvSts i).putFlag Fld.hrvStsValid true i).setRing i {})
def execHrvCreate (f : Nat) (s : State) : Out :=
  flueRow f 3 (fun x s => let r := hrvCreate f x s; (r.1, r.2.1, [], r.2.2)) s

/-- HRV_DESTROY (R456): any edge still owed is raised first. -/
def hrvDestroy (f : Nat) (x : Flue) (s : State) : Nat × Nat × State :=
  let i := fp x 4 2
  if 4096 ≤ i ∨ !s.flag Fld.hrvStsValid i then (fsBadParam, i, s)
  else if !ownedBy f (s.get Fld.hrvCfgCreator i) then (fsDenied, i, s)
  else if s.slq.any fun e => s.flag Fld.slqCfgValid e.1 && slqRing s e.1 == i then (fsBusy, i, s)
  else
    let owed := decide (0 < s.get Fld.hrvStsPending i) || (s.ring i).inflight.any fun e => !e.nop
    let s := if owed then signalRing s i else s
    let s := ([.hrvCtl, .hrvSts, .hrvCfg, .hrvMod, .hrvBaseLo, .hrvBaseHi] : List RegKind).foldl (fun s k => s.clearReg k i) s
    (fsOk, i, { s with hrv := Tab.del i s.hrv })
def execHrvDestroy (f : Nat) (s : State) : Out :=
  flueRow f 4 (fun x s => let r := hrvDestroy f x s; (r.1, r.2.1, [], r.2.2)) s

/-! ## Changes (R460) -/

/-- SLQ_MODIFY (R460): WEIGHT, BURST and MAXOUT from the next round; 0 leaves a value. -/
def slqModify (f : Nat) (x : Flue) (s : State) : Nat × Nat × State :=
  let i := fp x 4 2
  if 4096 ≤ i ∨ !s.flag Fld.slqCfgValid i ∨ 64 < fp x 7 1 ∨ 4096 < fp x 8 2 then (fsBadParam, i, s)
  else if !ownedBy f (s.get Fld.slqCfgCreator i) then (fsDenied, i, s)
  else
    let old := ((s.sluice i).next).getD (s.get Fld.slqCfgWeight i, s.get Fld.slqCfgBurst i + 1, s.get Fld.slqNsMaxout i)
    let pick (v o : Nat) : Nat := if v = 0 then o else v
    (fsOk, i, s.modSluice i fun y => { y with next := some (pick (fp x 6 1) old.1, pick (fp x 7 1) old.2.1, pick (fp x 8 2) old.2.2) })
def execSlqModify (f : Nat) (s : State) : Out :=
  flueRow f 5 (fun x s => let r := slqModify f x s; (r.1, r.2.1, [], r.2.2)) s

/-- HRV_MODIFY (R460): CNT and TIME. -/
def hrvModify (f : Nat) (x : Flue) (s : State) : Nat × Nat × State :=
  let i := fp x 4 2
  if 4096 ≤ i ∨ !s.flag Fld.hrvStsValid i then (fsBadParam, i, s)
  else if !ownedBy f (s.get Fld.hrvCfgCreator i) then (fsDenied, i, s)
  else (fsOk, i, (s.put Fld.hrvModCnt (fp x 6 1) i).put Fld.hrvModTime (fp x 8 2) i)
def execHrvModify (f : Nat) (s : State) : Out :=
  flueRow f 6 (fun x s => let r := hrvModify f x s; (r.1, r.2.1, [], r.2.2)) s

/-- SET_HALT (R460): F0 and F1. -/
def execSetHalt (f : Nat) (s : State) : Out :=
  flueRow f 7 (fun x s => if 2 ≤ f then (fsDenied, 0, [], s) else (fsOk, 0, [], setHalt (fp x 4 1 % 16) s)) s

/-- Every valid mirror slot released (R357): its descriptor is written free. -/
def dropMirrors (s : State) : Nat × State :=
  let l := (s.wp.mir.filter fun e => e.2.st == 0x21).map Prod.fst
  let s := l.foldl (fun s k => dramWrite (descAddr s.img.hold.mirBase k) 2 (List.replicate 64 0) .descWrite s) s
  (l.length, budget { s with wp := { s.wp with mir := [] } })

/-- MIRROR_DROP (R357): in degraded-single mode the mirror slots held are released; elsewhere none is held for it (DEDUCED, log entry 50). -/
def execMirrorDrop (f : Nat) (s : State) : Out :=
  flueRow f 8 (fun _ s =>
    if 2 ≤ f then (fsDenied, 0, [], s)
    else if !s.wp.twin.single then (fsOk, 0, leBytes 8 0, s)
    else
      let r := dropMirrors s
      (fsOk, 0, leBytes 8 r.1, r.2)) s

/-- A channel configured from its fields. -/
def setFlue (g : Nat) (x : Flue) (en : Bool) (s : State) : State := (s.modFlue g fun _ => x).putFlag Fld.slqFstsEn en g

/-- FLUE_CFG (R460): F2 or F3, by F0 or F1. -/
def flueCfg (f : Nat) (x : Flue) (s : State) : Nat × Nat × State :=
  let g := fp x 4 1
  let y : Flue := {
    cbase := fp x 8 8
    rbase := fp x 0x10 8
    cpages := fp x 0x18 2
    rpages := fp x 0x1A 2
    src := fp x 6 2
    port := fp x 0x24 1
    slqLo := fp x 0x1C 2
    slqHi := fp x 0x1E 2
    hrvLo := fp x 0x20 2
    hrvHi := fp x 0x22 2 }
  if 2 ≤ f then (fsDenied, 0, s)
  else if g < 2 ∨ 3 < g ∨ 1 < fp x 5 1 ∨ 2048 ≤ y.src ∨ !ringOk y.cbase y.cpages 16 ∨ !ringOk y.rbase y.rpages 16 ∨ 16 ≤ y.port
      ∨ 4096 ≤ y.slqLo ∨ 4096 ≤ y.slqHi ∨ 4096 ≤ y.hrvLo ∨ 4096 ≤ y.hrvHi then (fsBadParam, 0, s)
  else (fsOk, 0, setFlue g y (fp x 5 1 == 1) s)
def execFlueCfg (f : Nat) (s : State) : Out :=
  flueRow f 9 (fun x s => let r := flueCfg f x s; (r.1, r.2.1, [], r.2.2)) s

/-! ## LUN_OP (R464, R236, R237) -/

/-- The LUN and the operation type that a command names. -/
def opLun (x : Flue) : Nat := lunKey (fp x 4 1) (fp x 5 1) (fp x 6 1)

/-- Feature addresses that the engine itself writes for a target (R464): timing mode, termination, drive strength and VREFQ stand
where ONFI puts them (PRESUMED, log entry 34); KX-DDR entry is 0xB7 (R146). -/
def engineFeature (p : Profile) (fa : Nat) : Bool :=
  fa == p.ofsFa || fa == p.ofsFa + 1 || fa == p.otpFa || fa == p.dccFa || [0x01, 0x02, 0x10, 0x23, 0xB7].contains fa

/-- A LUN_OP's refusal without any bus cycle (DEDUCED, log entry 51). -/
def lunOpRefused (f : Nat) (x : Flue) (s : State) : Option Nat :=
  let t := fp x 7 1
  let k := opLun x
  let p := s.profile k
  let lc := lifecycle s
  let otp := t == 0x18 || t == 0x19
  if f ≠ 0 ∧ !(f = 1 ∧ (t = 0x18 ∨ t = 0x20)) then some fsDenied
  else if t = 0x19 ∧ lc ≠ lcManufacture ∧ lc ≠ lcRma then some fsDenied
  else if 128 ≤ fp x 4 1 ∨ 8 ≤ fp x 5 1 ∨ 4 ≤ fp x 6 1 ∨ !s.online k then some fsBadParam
  else if t = 0x21 ∧ engineFeature p (fp x 0x0A 1) then some fsDenied
  else if otp ∧ (p.otpPages ≤ fp x 8 2 ∨ !addrOk (fp x 0x10 8)) then some fsBadParam
  else none

/-- The class-3 want of a LUN_OP's array operation. -/
def lunWant (f : Nat) (x : Flue) (optype : Nat) (data : List Byte) : Want :=
  { progWant (.lunOp f) 3 4 optype ⟨opLun x, 0, 0, false⟩ (if data.isEmpty then [] else [data]) with
    arg := if optype = 0x18 ∨ optype = 0x19 then fp x 8 2 else fp x 0x0A 1 }

/-- The step of a LUN_OP in progress. -/
def lunStep (f n : Nat) (s : State) : State := s.modFlue f fun x => { x with lunOp := some n, lunEnd := none }

/-- Page data in pieces of at most 4,608 B: offset and length. -/
def pieces : Nat → Nat → Nat → List (Nat × Nat)
  | 0, _, _ => []
  | fuel + 1, at_, left => if left = 0 then [] else (at_, min 4608 left) :: pieces fuel (at_ + min 4608 left) (left - min 4608 left)

/-- The jobs that carry page data to BUF, or from it (Table 12-1). -/
def lunJobs (f : Nat) (x : Flue) (write : Bool) (data : List Byte) (len : Nat) (s : State) : State :=
  let l := pieces (len / 4608 + 1) 0 len
  let s := s.modFlue f fun y => { y with lunOut := l.length }
  l.foldl (fun s e =>
    let a := s.nextPort
    let addr := fp x 0x10 8 + e.1
    a.2.queueJob {
      path := .lunData f e.1
      prio := 1
      vc := 3
      port := a.1
      age := 0
      prog := [moveWord true (if write then 1 else 0) 0 0 0 (e.2 - 1) 0 addr]
      init := if write then bufPut 0 ((data.drop e.1).take e.2) [] else []
      crypt := none
      c0 := false }) s

/-- A LUN_OP's completion: DETAIL holds the feature bytes, the code and the status. -/
def lunDone (f st : Nat) (feats : List Byte) (code status : Nat) (s : State) : State :=
  flueDone f st 0 ((feats ++ List.replicate (4 - feats.length) 0) ++ leBytes 1 code ++ leBytes 1 status) s

/-- The frame of a LUN_OP row: the first step, or the next one once what it waits for has come. -/
def lunRow (f t : Nat) (start : Flue → State → State) (next : Flue → Nat → (Nat × Nat × List Byte) → State → State) (s : State) : Out :=
  let x := s.flueOf f
  onlyIf (s.running && decide (f < 4) && x.cmd.isSome && fp x 1 1 == 10 && fp x 7 1 == t) s
    (match x.lunOp with
     | none =>
       match lunOpRefused f x s with
       | some st => flueDone f st 0 [] s
       | none => start x s
     | some n =>
       match x.lunEnd with
       | some e => next x n e s
       | none => s)

/-- LUN_OP_OTP_READ: the page is read, then written to BUF. -/
def execLunOpOtpRead (f : Nat) (s : State) : Out :=
  lunRow f 0x18 (fun x s => enqueue (lunWant f x 0x18 []) (lunStep f 0 s))
    (fun x n e s =>
      if n = 0 then
        if e.1 ≠ 0 then lunDone f fsOpFail [] e.1 e.2.1 s
        else lunJobs f x true e.2.2 (s.profile (opLun x)).physPage (s.modFlue f fun y => { y with lunOp := some 1 })
      else if x.lunOut = 0 then lunDone f (if n = 9 then fsOpFail else fsOk) [] e.1 e.2.1 s
      else s) s

/-- LUN_OP_OTP_PROG: the page is read first, and is programmed from BUF only where every byte reads 0xFF (R237). -/
def execLunOpOtpProg (f : Nat) (s : State) : Out :=
  lunRow f 0x19 (fun x s => enqueue (lunWant f x 0x18 []) (lunStep f 0 s))
    (fun x n e s =>
      let len := (s.profile (opLun x)).physPage
      if n = 0 then
        if e.1 ≠ 0 then lunDone f fsOpFail [] e.1 e.2.1 s
        else if !e.2.2.all (· == 0xFF) then flueDone f fsDenied 0 [] s
        else lunJobs f x false [] len (s.modFlue f fun y => { y with lunOp := some 1 })
      else if n = 1 then
        if x.lunOut = 0 then enqueue (lunWant f x 0x19 (bufGet x.lunBuf 0 len)) (lunStep f 2 s) else s
      else if n = 9 then lunDone f fsOpFail [] e.1 e.2.1 s
      else lunDone f (if e.1 = 0 then fsOk else fsOpFail) [] e.1 e.2.1 s) s

/-- LUN_OP_GET_FEAT and LUN_OP_SET_FEAT. -/
def execLunOpGetFeat (f : Nat) (s : State) : Out :=
  lunRow f 0x20 (fun x s => enqueue (lunWant f x 0x20 []) (lunStep f 0 s))
    (fun _ _ e s => lunDone f (if e.1 = 0 then fsOk else fsOpFail) (e.2.2.take 4) e.1 e.2.1 s) s
def execLunOpSetFeat (f : Nat) (s : State) : Out :=
  lunRow f 0x21 (fun x s => enqueue (lunWant f x 0x21 ((x.cmd.getD []).drop 0x0C |>.take 4)) (lunStep f 0 s))
    (fun _ _ e s => lunDone f (if e.1 = 0 then fsOk else fsOpFail) [] e.1 e.2.1 s) s

/-- A LUN_OP's page-data job has completed: bytes read are kept (R464). -/
def lunDataDone (f at_ : Nat) (buf : List Byte) (s : State) : State :=
  s.modFlue f fun x => { x with
    lunOut := x.lunOut - 1
    lunBuf := if x.lunOp = some 1 ∧ fp x 7 1 = 0x19 then bufPut at_ buf x.lunBuf else x.lunBuf }

/-- A fault of it: the command ends OP_FAIL (DEDUCED, log entry 33). -/
def lunDataFault (f : Nat) (s : State) : State := s.modFlue f fun x => { x with lunOut := x.lunOut - 1, lunOp := some 9 }

end Sys2Proof.Machine
end

