-- ==== Sys2Proof/Machine/Paths.lean ====
section
/-! DEFINITION. What the movers' jobs serve (chapter 12): the completion of a job on its path, and the path's response to a fault
(Table 12-9). -/

namespace Sys2Proof.Machine

/-- The first 4,096 B of a staging buffer. -/
def tileOf (buf : Tab Byte) : List Byte := bufGet buf 0 4096

/-! ## Completion -/

/-- A tile's posted delivery has issued its last write (R427, R447). -/
def delivered (rtag i : Nat) (s : State) : State :=
  requestCheck rtag (s.modTile rtag i fun t => { t with issued := true })

/-- A pan read has completed: it feeds the hold-up flush, or destage; a trip has stopped destage (R358). -/
def panReadDone (slot : Nat) (buf : Tab Byte) (s : State) : State :=
  if s.wp.plan.any fun p => !p.1 && p.2.1 == slot then flushOwn slot (tileOf buf) s
  else if s.wp.pfail then (leaveQueue slot s).2
  else destageRead slot (tileOf buf) s

/-- A slot's reconciliation is over (R356). -/
def leaveTodo (slot : Nat) (s : State) : State :=
  { s with wp := { s.wp with twin := { s.wp.twin with todo := s.wp.twin.todo.erase slot } } }

/-- A recovered copy stands in its slot: it is STAGED (R345, R356, R364), and it goes to the partner's slot at its own index (R354; DEDUCED, log
entry 41). -/
def handoffDone (slot : Nat) (buf : Tab Byte) (s : State) : State :=
  let s := s.modPan slot fun p => { p with staged := true, back := false, dcrc := crcReg 0xFFFFFFFF (tileOf buf), mcrc := mirCrc s p (tileOf buf) }
  if mirroring s then resend slot s else leaveTodo slot s

/-- A copy sent again at reconciliation has been answered OK: it is MIRRORED (R356), and the partner's slot that it has left is released. -/
def reconDone (j : Job) (slot : Nat) (buf : Tab Byte) (s : State) : State :=
  let seq := bytesNum (bufGet j.init 4104 8)
  match s.pan slot with
  | some p =>
    if p.seq = seq then
      let s := leaveTodo slot (s.modPan slot fun p => { p with mirrored := true, mirOld := none })
      let s := match p.mirOld with
        | some k => if (s.pan k).any fun x => x.st != 0 then s else releaseMirror { p with mirAt := k } s
        | none => s
      if s.twinUp then raiseTiles p.lta p.seq 2 true s else s
    else leaveTodo slot s
  | none => leaveTodo slot s

/-- What the completion of a job brings about on its path. -/
def jobDone (j : Job) (buf : Tab Byte) (s : State) : State :=
  match j.path with
  | .delivery r i => delivered r i s
  | .filterOut r => requestCheck r (s.modRq r fun q => { q with outLeft := q.outLeft - 1 })
  | .commitOwn r i slot => ownCommitted r i slot (tileOf buf) s
  | .commitMirror r i slot => mirrorCommitted r i slot s
  | .panRead slot => panReadDone slot buf s
  | .mirRead slot => flushMir slot (tileOf buf) s
  | .panHost r i _ => tileOutcome r i oPan 0 (tileOf buf) s
  | .relocation n => relocJobDone n (tileOf buf) s
  | .lunData f at_ => lunDataDone f at_ (bufGet buf 0 (buf.length)) s
  | .handoff slot => handoffDone slot buf s
  | .recon slot => reconDone j slot buf s
  | .desc | .logMirror _ | .pairing | .firmware => s

/-! ## Faults (Table 12-9) -/

/-- The mirror job of a commit ends with 0xA: it starts no more, or issues nothing further. -/
def endPartner (p : JobPath) (s : State) : State :=
  let s : State := { s with mov := { s.mov with jobs := s.mov.jobs.filter fun j => !partners p j.path } }
  (s.mov.ctxs.filter fun e => partners p e.2.job.path && e.2.fault.isNone).foldl
    (fun s e => markFault (e.1 / 32) (e.1 % 32) e.2 0xA e.2.cur none s) s

/-- The host buffer could not be read: the tile is not admitted, and its entry ends BUF_ERR. -/
def commitUnread (r i slot : Nat) (s : State) : State :=
  let s := endPartner (.commitOwn r i slot) s
  match s.tile r i with
  | none => s
  | some t =>
    let s := { s with wp := { s.wp with admitted := s.wp.admitted.filter fun x => !(x.2.1 == t.lta && x.2.2 == t.seq) } }
    let s := if (s.pan slot).any (·.staged) then s else s.delPan slot
    requestCheck r (s.modTile r i fun t => { t with dead := true, slot := none })

/-- A slot withheld from use until the next start-up. -/
def withhold (slot : Nat) (s : State) : State :=
  s.modPan slot fun p => { p with withheld := true, staged := false, st := 0 }

/-- An own slot could not be written: it is withheld and the commit runs once more on a new slot; a second fault banks the engine. Without
a free slot the entry ends BUF_ERR (DEDUCED, log entry 35). -/
def commitSlotFault (j : Job) (r i slot : Nat) (s : State) : State :=
  let s := endPartner j.path s
  let old := s.pan slot
  let s := withhold slot s
  if j.tries ≠ 0 then s.bank 0x0B
  else match s.rq r, s.tile r i, old with
  | some q, some t, some p =>
    let n := firstFree s.wp.own 0
    if ownSlots s ≤ n then requestCheck r (s.modTile r i fun t => { t with dead := true, slot := none })
    else
      let s := (s.putPan n { p with staged := false, mirrored := false, seq := t.seq, mirAt := n }).modTile r i fun t => { t with slot := some n }
      startCommit q i { t with slot := some n } n 1 s
  | _, _, _ => s

/-- A slot for a recovered copy could not be written: as for an own slot. -/
def handoffFault (j : Job) (slot : Nat) (buf : List Byte) (s : State) : State :=
  let old := s.pan slot
  let s := withhold slot s
  if j.tries ≠ 0 then s.bank 0x0B
  else match old with
  | none => s
  | some p =>
    let n := firstFree s.wp.own 0
    if ownSlots s ≤ n then s.bank 0x0B
    else
      let src : Option Nat := if p.mirrored then some (slotAddr ((s.img.twin.map (·.peerMir)).getD 0) s.wp.twin.peerSlots p.mirAt) else none
      let a := handoffJob (s.putPan n { p with staged := false }) n p src buf 1
      let s := a.2.queueJob a.1
      let t := s.wp.twin.todo
      { s with wp := { s.wp with twin := { s.wp.twin with todo := if t.contains slot then n :: t.erase slot else t } } }

/-- A pan read of the flush has failed: the copy is left out, and poisoned after a DATAERR (R345). -/
def flushUnread (mirror : Bool) (slot code : Nat) (s : State) : State :=
  let a := takePlan mirror slot s
  match a.1 with
  | none => a.2
  | some pl =>
    let s := if code = 2 ∧ !mirror then poisonSlot slot a.2 else a.2
    flushMember pl none s

/-- A pan read for destage has failed: destage stops, and DATAERR recovers or poisons the copy (R345). -/
def panReadFault (slot code : Nat) (s : State) : State :=
  if s.wp.plan.any fun p => !p.1 && p.2.1 == slot then flushUnread false slot code s
  else
    let s := (leaveQueue slot s).2
    if code = 2 then panDataErr slot s else s

/-- A job run once more (Table 12-9). -/
def repeatOnce (j : Job) (s : State) : State := if j.tries = 0 then s.queueJob { j with tries := 1 } else s

/-- How a job's path responds to its fault (Table 12-9). A dropped job (0x9) responds as to the fault of its writes, or as to DECERR where
it only reads (DEDUCED, log entry 35); in the banked state its entry ends BANKED instead (R665). -/
def jobFault (j : Job) (code : Nat) (s : State) : State :=
  if s.banked && code == 9 then s
  else match j.path with
  | .delivery r i => delivered r i (s.modTile r i fun t => { t with outcome := some (oUncorr, 0xFE) })
  | .filterOut r => requestCheck r (s.modRq r fun q => { q with outLeft := q.outLeft - 1 })
  | .commitOwn r i slot => if code = 1 ∨ code = 2 then commitUnread r i slot s else commitSlotFault j r i slot s
  | .commitMirror _ _ _ => if code = 0xA then s else twinLost s
  | .pairing => twinLost s
  | .recon slot =>
    if code = 2 then panDataErr slot (leaveTodo slot s) else if code = 1 then leaveTodo slot s else twinLost s
  | .handoff slot =>
    if code = 1 ∨ code = 2 then poisonSlot slot (leaveTodo slot s) else handoffFault j slot (tileOf j.init) s
  | .panRead slot => panReadFault slot code s
  | .mirRead slot => flushUnread true slot code s
  | .panHost r i slot => if code = 2 then panDataErr slot s else tileOutcome r i oUncorr 0xFE [] s
  | .relocation n => relocFault n s
  | .desc | .logMirror _ => repeatOnce j s
  | .lunData f _ => lunDataFault f s
  | .firmware => s

end Sys2Proof.Machine
end

