-- ==== Sys2Proof/Machine/Movers.lean ====
section
/-! DEFINITION. Bellows movers (chapter 12): job start, the instructions, the requests' slots,
responses, faults, PAUSE and disable, and the meaning of their commands. -/

namespace Sys2Proof.Machine

/-! ## Faults and completion -/

/-- A job's fault (R492, R494): it is recorded and its path responds. -/
def moverFault (m c code instr : Nat) (q : Option MReq) (s : State) : State :=
  match s.ctx m c with
  | none => s
  | some x => if x.fault.isSome then s else jobFault x.job code (markFault m c x code instr q s)

/-- A job whose requests have all been issued and answered completes (R483). -/
def moverCheck (m c : Nat) (s : State) : State :=
  match s.ctx m c with
  | none => s
  | some x =>
    if x.fault.isSome then (if x.open_.isEmpty then s.freeCtx m c else s)
    else if x.ended && x.reqs.isEmpty && x.open_.isEmpty && x.waitSince.isNone then
      let s := (s.freeCtx m c).inc Fld.belJobsJobs m
      let s := if isFirmware m then
          (let s := s.put Fld.belStsState 4 m
           if s.flag Fld.belCfgDoneIrq m then s.edge (.shared (s.get Fld.belCfgSrc m)) else s)
        else s.put Fld.belStsState 0 m
      jobDone x.job x.buf s
    else s

/-- The last outstanding request of a disabled mover has ended: its STATE becomes IDLE, and a write
of EN 1 that waited takes effect (R489). -/
def drainEnd (m : Nat) (s : State) : State :=
  if !s.flag Fld.belCtlEn m && moverOutst s m == 0 then
    let s := s.put Fld.belStsState 0 m
    if s.mov.enPend.contains m then
      ({ s with mov := { s.mov with enPend := s.mov.enPend.erase m } } : State).putFlag Fld.belCtlEn true m
    else s
  else s

/-- The fault code of an error response (Table 12-8). -/
def faultCode (k : FKind) (code : RCode) : Nat :=
  match k with
  | .rd => if code = .dataerr then 2 else 1
  | .at _ => 4
  | _ => 3

/-- The context after an OK response to a request (R476): its bytes fill the buffer. -/
def Ctx.filled (x : Ctx) (q : MReq) (data : List Byte) : Ctx :=
  match q.kind with
  | .rd => { x with buf := bufPut q.bofs data x.buf }
  | .at _ => { x with buf := bufPut (q.bofs + 16) (data.take 8) x.buf }
  | _ => x

/-- A response to request `n` of a context (R483, R476, R493): it fills the buffer, and the TEE partner's; an error faults the job. After a fault
only the requests before the faulting one count. -/
def moverResponse (m c n : Nat) (code : RCode) (data : List Byte) (s : State) : State :=
  match s.ctx m c with
  | none => drainEnd m s
  | some x =>
    match x.open_.find? fun q => q.n == n with
    | none => drainEnd m s
    | some q =>
      let x1 := { x with open_ := x.open_.erase q }
      match x.fault with
      | some (_, _, k) =>
        let s := s.setCtx m c (if code = .ok ∧ n < x.faultN then x1.filled q data else x1)
        let s := if opcOf (instrAt s m x x.cur) = 2 then s.put Fld.belStsElemDone (elemsDone x1 k) m else s
        moverCheck m c s
      | none =>
        if code = .ok then
          let data := if q.xf then
              (match x.job.crypt with | some (key, lta) => Config.xtsDecrypt key lta data | none => data)
            else data
          let s := s.setCtx m c (x1.filled q data)
          let s := if q.kind = .rd ∧ q.tee.isSome then s.deliverTee x.job.path q.bofs data else s
          moverCheck m c s
        else moverFault m c (faultCode q.kind code) q.instr (some q) (s.setCtx m c x1)

/-! ## Starting jobs -/

/-- A reserved context of some sealed mover is free for a class-0 commit (R472, R473). -/
def reservedFree (s : State) (j : Job) : Bool :=
  [56, 57, 58, 59, 60, 61, 62, 63].any fun m =>
    s.flag Fld.belCtlEn m && !(moverCtxs s m).any (fun e => partners j.path e.2.job.path) && (List.range 4).any fun k => (s.ctx m k).isNone

/-- A job's path may run on a context of a mover (Table 12-1, R472, R473). -/
def jobFits (s : State) (m c : Nat) (j : Job) : Bool :=
  match j.path with
  | .delivery _ _ | .filterOut _ | .panHost _ _ _ =>
    c == 0 && if j.vc < 2 then m == j.port else m == 16 + j.port
  | .panRead _ | .mirRead _ | .relocation _ | .lunData _ _ => c == 0 && decide (32 ≤ m ∧ m ≤ 39)
  | .desc | .logMirror _ => c == 0 && decide (40 ≤ m ∧ m ≤ 47)
  | .firmware => false
  | _ =>
    isSealed m && decide (c < 32)
      && (if c < 4 then j.c0 else !j.c0 || !reservedFree s j)
      && !(moverCtxs s m).any fun e => partners j.path e.2.job.path

/-- The better of two waiting jobs: higher priority, then the older request tag (R482, R435). -/
def olderTag (a b : Nat) : Bool := decide ((b + 2 ^ 32 - a) % 2 ^ 32 < 2 ^ 31)

def jobBetter (a b : Job) : Bool := decide (b.prio < a.prio) || (a.prio == b.prio && olderTag a.age b.age)

/-- The job that starts first among some (R482). -/
def bestJob : List Job → Option Job
  | [] => none
  | j :: r =>
    match bestJob r with
    | none => some j
    | some k => if jobBetter j k then some j else some k

/-- A context at the start of a job. -/
def startCtx (j : Job) : Ctx := { job := j, buf := j.init }

/-- MOVER_JOB_START (R482). -/
def execMoverJobStart (m c : Nat) (s : State) : Out :=
  match bestJob (s.mov.jobs.filter (jobFits s m c)) with
  | none => .next s
  | some j =>
    onlyIf (s.coreOn && s.flag Fld.belCtlEn m && decide (m < 64) && (s.ctx m c).isNone) s
      (let s : State := { s with mov := { s.mov with jobs := s.mov.jobs.erase j } }
       let s := ((s.put Fld.belCfgPrio j.prio m).put Fld.belCfgPort j.port m).put Fld.belCfgVc j.vc m
       s.setCtx m c (startCtx j))

/-! ## Instructions -/

/-- The fault that an instruction meets before it runs, if any: codes 0x5, 0x6 and 0x8 of Table
12-8, in that order (DESIGN CHOICE, log entry 10). -/
def belCheck (s : State) (m : Nat) (x : Ctx) (i : Nat) : Option Nat :=
  let w := instrAt s m x i
  let common := if reservedBits w then some 5 else none
  let noLast := if i = 31 ∧ !lastOf w then some 6 else none
  match belDecode w with
  | .reserved => some 5
  | .move _ areg xf tee bofs lenm1 _ addr =>
    let add := aregAdd s m x areg
    if common.isSome ∨ areg = 3 ∨ 2 ≤ xf then some 5
    else if 8191 < bofs + add.2 + lenm1 ∨ 2 ^ 52 < addr + add.1 + lenm1 + 1 then some 6
    else if noLast.isSome then some 6
    else if isFirmware m ∧ (xf ≠ 0 ∨ tee ≠ 0) then some 8
    else none
  | .gather _ areg _ e0 nm1 =>
    if common.isSome ∨ areg = 3 then some 5
    else if 15 < e0 + nm1 ∨ noLast.isSome then some 6
    else none
  | .loop _ tgt _ _ _ =>
    if common.isSome then some 5 else if i < tgt ∨ noLast.isSome then some 6 else none
  | .wait cond _ _ =>
    if common.isSome ∨ 3 ≤ cond then some 5 else noLast
  | .signal kind aop bofs _ mover _ addr =>
    if common.isSome ∨ 5 ≤ kind ∨ (kind = 2 ∧ aop = 3) then some 5
    else if kind ≤ 2 ∧ (addr % 8 ≠ 0 ∨ 8191 < bofs + (if kind = 2 then 23 else 7)) then some 6
    else if kind = 4 ∧ !isFirmware mover then some 6
    else noLast

/-- Writes of a mover: posted, or sealed on a sealed mover (R477). -/
def writeKind (m : Nat) : FKind := if isSealed m then .sw else .pw

/-- The requests of one span: at most 64 beats each, none across a 4 KiB boundary (R478). -/
def spanReqs (m i elem dir addr bofs len : Nat) (xf : Bool) (tee : Option Nat) (n0 : Nat) : List MReq :=
  ((cutPages (len + 1) addr len).zipIdx).map fun x =>
    ⟨n0 + x.2, i, elem, if dir = 0 then .rd else writeKind m, x.1.1, bofs + (x.1.1 - addr), x.1.2, xf, tee⟩

/-- The element-table entry of a firmware mover (Table 12-12): address and length. -/
def elemAt (s : State) (m e : Nat) : Nat × Nat :=
  (s.get Fld.belElemHiAddrHi ((m - 48) * 16 + e) * 2 ^ 32 + s.get Fld.belElemLoAddrLo ((m - 48) * 16 + e),
    s.get Fld.belElemHiLenm1 ((m - 48) * 16 + e) + 1)

/-- The requests of the elements of a GATHER, in table order: consecutive buffer bytes (Table 12-3). -/
def gatherReqs (s : State) (m i dir : Nat) (add : Nat) : List Nat → Nat → Nat → Nat → List MReq
  | [], _, _, _ => []
  | e :: r, elem, bofs, n0 =>
    let a := elemAt s m e
    let l := spanReqs m i elem dir (a.1 + add) bofs a.2 false none n0
    l ++ gatherReqs s m i dir add r (elem + 1) (bofs + a.2) (n0 + l.length)

/-- Total bytes of elements. -/
def gatherLen (s : State) (m : Nat) (es : List Nat) : Nat := (es.map fun e => (elemAt s m e).2).foldl (· + ·) 0

/-- The first element whose address and length pass 2^52. -/
def gatherRange (s : State) (m add : Nat) (es : List Nat) : Bool :=
  es.any fun e => decide (2 ^ 52 < (elemAt s m e).1 + add + (elemAt s m e).2)

/-- A context after an instruction at `i` has begun: its requests wait for slots, and the next
instruction is `next`. -/
def Ctx.begin (x : Ctx) (i next : Nat) (w : BitVec 128) (l : List MReq) : Ctx :=
  { x with cur := i, pc := next, ended := lastOf w && next == i + 1, reqs := l, nreq := x.nreq + l.length }

/-- An instruction runs at a context only when the mover is enabled and not paused, the job has not
faulted or ended, and the instruction before has issued all its requests (R479, R488). -/
def canRun (s : State) (m : Nat) (x : Ctx) : Bool :=
  s.coreOn && s.flag Fld.belCtlEn m && !s.flag Fld.belCtlPause m && x.fault.isNone && !x.ended && x.reqs.isEmpty

/-- The frame of every instruction row: the context's next instruction is of the row's kind, it is
checked (R492), and it runs. -/
def belRow (m c : Nat) (mine : BelInstr → Bool) (run : Ctx → State → State) (s : State) : Out :=
  match s.ctx m c with
  | none => .next s
  | some x =>
    onlyIf (canRun s m x && mine (belDecode (instrAt s m x x.pc))) s
      (match belCheck s m x x.pc with
       | some code => moverFault m c code x.pc none s
       | none => moverCheck m c (run x s))

/-- The effect of a MOVE (R476, R478). -/
def runMove (m c : Nat) (x : Ctx) (s : State) : State :=
  let w := instrAt s m x x.pc
  match belDecode w with
  | .move dir areg xf tee bofs lenm1 tm addr =>
    let add := aregAdd s m x areg
    s.setCtx m c (x.begin x.pc (x.pc + 1) w
      (spanReqs m x.pc 0 dir (addr + add.1) (bofs + add.2) (lenm1 + 1) (xf == 1)
        (if tee = 1 then some tm else none) x.nreq))
  | _ => s

/-- BEL_MOVE (R476). An instruction with a reserved operation code faults here (Table 12-8, 0x5). -/
def execBelMove (m c : Nat) (s : State) : Out :=
  belRow m c (fun i => match i with | .move .. | .reserved => true | _ => false) (runMove m c) s

/-- The effect of a GATHER (R476). -/
def runGather (m c : Nat) (x : Ctx) (s : State) : State :=
  let w := instrAt s m x x.pc
  match belDecode w with
  | .gather dir areg bofs e0 nm1 =>
    let add := aregAdd s m x areg
    let es := (List.range (nm1 + 1)).map (e0 + ·)
    if 8192 < bofs + add.2 + gatherLen s m es ∨ gatherRange s m add.1 es then moverFault m c 6 x.pc none s
    else s.setCtx m c (x.begin x.pc (x.pc + 1) w (gatherReqs s m x.pc dir add.1 es 0 (bofs + add.2) x.nreq))
  | _ => s

/-- BEL_GATHER (R476, R493). -/
def execBelGather (m c : Nat) (s : State) : Out :=
  belRow m c (fun i => match i with | .gather .. => true | _ => false) (runGather m c) s

/-- A signed stride added to a register of a width. -/
def addStride (v stride width sw : Nat) : Nat :=
  (v + (BitVec.ofNat sw stride).signExtend width |>.toNat) % 2 ^ width

/-- The address and buffer registers of counter `n` advanced by a LOOP pass (R476). -/
def advance (s : State) (m c : Nat) (x : Ctx) (n astride bstride : Nat) : State :=
  let a := addStride (aReg s m x n) astride 52 32
  let b := addStride (bReg s m x n) bstride 13 13
  if isFirmware m then
    if n = 0 then
      (((s.put Fld.belA0LoALo a (m - 48)).put Fld.belA0HiAHi (a >>> 32) (m - 48)).put Fld.belBregB0 b (m - 48)).setCtx m c x
    else
      (((s.put Fld.belA1LoALo a (m - 48)).put Fld.belA1HiAHi (a >>> 32) (m - 48)).put Fld.belBregB1 b (m - 48)).setCtx m c x
  else s.setCtx m c (if n = 0 then { x with a0 := a, b0 := b } else { x with a1 := a, b1 := b })

/-- The counter of a LOOP in a context. -/
def Ctx.lc (x : Ctx) (n : Nat) : Option Nat := if n = 0 then x.lc0 else x.lc1
def Ctx.setLc (x : Ctx) (n : Nat) (v : Option Nat) : Ctx := if n = 0 then { x with lc0 := v } else { x with lc1 := v }

/-- BEL_LC shows a firmware mover's counter (Table 12-12). -/
def showLc (m lc n : Nat) (s : State) : State :=
  if isFirmware m then s.put (if lc = 0 then Fld.belLcLc0 else Fld.belLcLc1) n (m - 48) else s

/-- The effect of a LOOP (R476): the first arrival loads the counter; an arrival with the counter
above 0 makes a pass; one at 0 goes on and unloads it. -/
def runLoop (m c : Nat) (x : Ctx) (s : State) : State :=
  let w := instrAt s m x x.pc
  match belDecode w with
  | .loop lc tgt bstride count astride =>
    let n := (x.lc lc).getD count
    let s := showLc m lc (n - 1) s
    if n = 0 then s.setCtx m c ((x.setLc lc none).begin x.pc (x.pc + 1) w [])
    else advance s m c { (x.setLc lc (some (n - 1))) with cur := x.pc, pc := tgt } lc astride bstride
  | _ => s

/-- BEL_LOOP (R476). -/
def execBelLoop (m c : Nat) (s : State) : Out :=
  belRow m c (fun i => match i with | .loop .. => true | _ => false) (runLoop m c) s

/-- A WAIT whose condition holds ends; otherwise it waits, from its first arrival on (R476). -/
def runWait (m c : Nat) (holds : Ctx → State → Bool) (done : State → State) (x : Ctx) (s : State) : State :=
  let w := instrAt s m x x.pc
  let since := x.waitSince.getD s.now
  let x := { x with cur := x.pc, waitSince := some since }
  if holds x s then
    (done s).setCtx m c ({ x with waitSince := none }.begin x.pc (x.pc + 1) w [])
  else s.setCtx m c x

/-- BEL_WAIT_RESP (R476): every request of the job issued before has been answered. -/
def execBelWaitResp (m c : Nat) (s : State) : Out :=
  belRow m c (fun i => match i with | .wait 0 _ _ => true | _ => false)
    (runWait m c (fun x _ => x.open_.isEmpty) id) s

/-- The flag and the timeout of the WAIT a context stands at. -/
def waitFlag (s : State) (m : Nat) (x : Ctx) : Nat := ibits (instrAt s m x x.pc) 119 116
def waitTmo (s : State) (m : Nat) (x : Ctx) : Nat := ibits (instrAt s m x x.pc) 115 96

/-- BEL_WAIT_FLAG (R476): the named bit of BEL_FLAG is 1, and the WAIT clears it. -/
def execBelWaitFlag (m c : Nat) (s : State) : Out :=
  belRow m c (fun i => match i with | .wait 1 _ _ => true | _ => false)
    (fun x s => runWait m c (fun x s => s.bit .belFlag (m - 48) (waitFlag s m x))
      (fun s => s.clrBit .belFlag (m - 48) (waitFlag s m x)) x s) s

/-- BEL_WAIT_TIME (R476): TMO µs have passed. -/
def execBelWaitTime (m c : Nat) (s : State) : Out :=
  belRow m c (fun i => match i with | .wait 2 _ _ => true | _ => false)
    (runWait m c (fun x s => decide (x.waitSince.getD s.now + waitTmo s m x * 1000 ≤ s.now)) id) s

/-- BEL_WAIT_TIMEOUT (R476): a RESP or FLAG wait whose TMO passes without its condition. -/
def execBelWaitTimeout (m c : Nat) (s : State) : Out :=
  match s.ctx m c with
  | none => .next s
  | some x =>
    match belDecode (instrAt s m x x.pc), x.waitSince with
    | .wait cond flag tmo, some since =>
      onlyIf (s.coreOn && decide (cond < 2 ∧ tmo ≠ 0 ∧ since + tmo * 1000 ≤ s.now)
          && !(if cond = 0 then x.open_.isEmpty else s.bit .belFlag (m - 48) flag)) s
        (moverFault m c 7 x.pc none s)
    | _, _ => .next s

/-- The effect of a SIGNAL that goes out on the fabric: an 8 B write, or an atomic with its 16 B of
operands (Table 12-6). -/
def runSignal (m c : Nat) (x : Ctx) (s : State) : State :=
  let w := instrAt s m x x.pc
  match belDecode w with
  | .signal kind aop bofs _ _ _ addr =>
    let k : FKind := if kind = 2 then .at aop else if kind = 1 then .sw else writeKind m
    s.setCtx m c (x.begin x.pc (x.pc + 1) w [⟨x.nreq, x.pc, 0, k, addr, bofs, if kind = 2 then 16 else 8, false, none⟩])
  | _ => s

/-- BEL_SIGNAL_POSTED (KIND 0b000); on a sealed mover it acts as KIND 0b001 (R477). -/
def execBelSignalPosted (m c : Nat) (s : State) : Out :=
  belRow m c (fun i => match i with | .signal 0 .. => true | _ => false) (runSignal m c) s

/-- BEL_SIGNAL_SEALED (KIND 0b001). -/
def execBelSignalSealed (m c : Nat) (s : State) : Out :=
  belRow m c (fun i => match i with | .signal 1 .. => true | _ => false) (runSignal m c) s

/-- BEL_SIGNAL_ATOMIC (KIND 0b010): the old value comes back at BOFS + 16 (R476). -/
def execBelSignalAtomic (m c : Nat) (s : State) : Out :=
  belRow m c (fun i => match i with | .signal 2 .. => true | _ => false) (runSignal m c) s

/-- BEL_SIGNAL_SRC (KIND 0b011): a shared interrupt source is raised. -/
def execBelSignalSrc (m c : Nat) (s : State) : Out :=
  belRow m c (fun i => match i with | .signal 3 .. => true | _ => false)
    (fun x s =>
      let w := instrAt s m x x.pc
      (s.edge (.shared (ibits w 103 93))).setCtx m c (x.begin x.pc (x.pc + 1) w [])) s

/-- BEL_SIGNAL_FLAG (KIND 0b100): a flag of a firmware mover is set. -/
def execBelSignalFlag (m c : Nat) (s : State) : Out :=
  belRow m c (fun i => match i with | .signal 4 .. => true | _ => false)
    (fun x s =>
      let w := instrAt s m x x.pc
      (s.setBit .belFlag (ibits w 92 87 - 48) (ibits w 86 83)).setCtx m c (x.begin x.pc (x.pc + 1) w [])) s

/-! ## Request slots -/

/-- A context's next request may issue: a write only once every byte it carries is filled (R479). -/
def readyReq (x : Ctx) : Option MReq :=
  match x.reqs with
  | [] => none
  | q :: _ =>
    if x.fault.isSome then none
    else if q.kind.isWrite && !bufFilled x.buf q.bofs q.len then none
    else some q

/-- Of two contexts that want a port's slot, the first wins: higher priority; then sealed before
posted; then the lower mover and context number (R486, Table 01-7). -/
def slotBetter (a b : Nat × Ctx) : Bool :=
  if a.2.job.prio ≠ b.2.job.prio then decide (b.2.job.prio < a.2.job.prio)
  else if isSealed (a.1 / 32) ≠ isSealed (b.1 / 32) then isSealed (a.1 / 32)
  else decide (a.1 < b.1)

/-- The context that takes a port's slot. -/
def bestCtx : List (Nat × Ctx) → Option (Nat × Ctx)
  | [] => none
  | a :: r =>
    match bestCtx r with
    | none => some a
    | some b => if slotBetter b a then some b else some a

/-- The descriptor that follows a tile's 4,096 B on the sealed movers bears the CRC of the bytes as they are stored (R331, R354). -/
def patchTcrc (x : Ctx) (q : MReq) (d : List Byte) : List Byte :=
  let plain := bufGet x.buf 0 4096
  let sum (stored : List Byte) : List Byte :=
    if q.bofs = 4096 then d.take 0x14 ++ numBytes 4 (crcReg (crcReg 0xFFFFFFFF stored) (d.take 0x14) ^^^ 0xFFFFFFFF).toNat ++ d.drop 0x18 else d
  match x.job.path with
  | .commitOwn _ _ _ | .handoff _ => sum plain
  | .commitMirror _ _ _ | .recon _ => sum (mirrored x.job plain)
  | _ => d

/-- The bytes a write request carries; XF writes pass through the SEC unit (Table 12-2, R354). -/
def reqBytes (x : Ctx) (q : MReq) : List Byte :=
  let d := patchTcrc x q (bufGet x.buf q.bofs q.len)
  if q.xf then (match x.job.crypt with | some (key, lta) => Config.xtsEncrypt key lta d | none => d) else d

/-- A firmware mover's request lies in none of its windows (R611). -/
def reqRefused (s : State) (m : Nat) (q : MReq) : Bool := isFirmware m && !windowAllows s m q.addr q.len q.kind.isWrite

/-- The fabric request of a mover's request. -/
def fabReq (x : Ctx) (q : MReq) : FabReq :=
  mkReq x.job.port x.job.vc q.kind q.addr q.len (if q.kind.isWrite then reqBytes x q else [])

/-- A context's request put on the fabric; a firmware mover's must lie in a window (R611). -/
def issueReq (m c : Nat) (x : Ctx) (q : MReq) (s : State) : State :=
  if reqRefused s m q then moverFault m c 8 q.instr (some q) s
  else
    let x' := { x with reqs := x.reqs.drop 1, open_ := if q.kind = .pw then x.open_ else x.open_ ++ [q] }
    moverCheck m c ((s.setCtx m c x').issue (fabReq x q) (.mover m c q.n))

/-- A context contends for its port's slot (R486, Table 01-7): its mover is enabled, and its next request is ready, with the credits at hand and no
request of its channel waiting before it; one that will be refused needs none. -/
def contends (s : State) (e : Nat × Ctx) : Bool :=
  match readyReq e.2 with
  | none => false
  | some q =>
    s.flag Fld.belCtlEn (e.1 / 32) && (reqRefused s (e.1 / 32) q || (canSend s.fab (fabReq e.2 q)
      && !s.fab.waiting.any fun w => w.1.port == e.2.job.port && w.1.vc == e.2.job.vc))

/-- MOVER_REQUEST_SLOT (R486): the port's slot goes to the waiting request of highest priority. -/
def execMoverRequestSlot (port : Nat) (s : State) : Out :=
  match bestCtx (s.mov.ctxs.filter fun e => e.2.job.port == port && contends s e) with
  | none => .next s
  | some e =>
    match readyReq e.2 with
    | none => .next s
    | some q => onlyIf s.coreOn s (issueReq (e.1 / 32) (e.1 % 32) e.2 q s)

/-! ## PAUSE, disable, GO -/

/-- What a write of EN 0 leaves undefined (R489): ELEM_DONE, and a firmware mover's staging buffer and loop counters, all free values. -/
def blurMover (m : Nat) (s : State) : State :=
  let v := s.fresh
  let t := v.2.put Fld.belStsElemDone v.1.toNat m
  if isFirmware m then
    let nreq := match s.ctx m 0 with
      | some x => x.nreq
      | none => (Tab.get {} m s.mov.stage).nreq
    let v := t.fresh
    let b := (v.2.setReg .belLc (m - 48) (v.1.setWidth 32)).blurBuf [] 0 8192
    { b.2 with mov := { b.2.mov with stage := Tab.put m { buf := b.1, nreq := nreq } b.2.mov.stage } }
  else t

/-- One job of a mover dropped (R489, R490): it faults with code 0x9 (R492; DEDUCED, log entry 132), and its path responds. -/
def dropJob (m : Nat) (x : Ctx) (s : State) : State :=
  if x.fault.isSome then s
  else jobFault x.job 9 (faultSource m (faultRegs m 9 x.cur (s.get Fld.belStsElemDone m) none s))

/-- Every job of a mover dropped (R489). -/
def dropJobs (m : Nat) (s : State) : State :=
  let gone := moverCtxs s m
  let s := blurMover m s
  let s : State := { s with mov := { s.mov with ctxs := s.mov.ctxs.filter fun e => e.1 / 32 != m } }
  gone.foldl (fun s e => dropJob m e.2 s) (s.put Fld.belStsState 0 m)

/-- The context of a firmware mover's new job: its staging buffer holds what the job before left, and its requests are numbered on. -/
def firmwareCtx (s : State) (m : Nat) (j : Job) : Ctx :=
  match s.ctx m 0 with
  | some x => { startCtx j with buf := x.buf, nreq := x.nreq }
  | none => let g := Tab.get {} m s.mov.stage; { startCtx j with buf := g.buf, nreq := g.nreq }

/-- The job a GO of a firmware mover starts (R485, R496). -/
def firmwareJob (s : State) (m : Nat) : Job :=
  { path := .firmware, prio := min 4 (s.get Fld.belCfgPrio m), vc := s.get Fld.belCfgVc m,
    port := s.get Fld.belCfgPort m, age := s.rtag, prog := [], init := [], crypt := none, c0 := false }

/-- The effect of a write of BEL_CTL of a mover, its parts settled in the order of R491: EN 0, PAUSE,
GO. -/
def belCtlWrite (r : Req) (m : Nat) (w : Word) (s : State) : State :=
  if !isFirmware m ∧ r.src ≠ 0x10 then s
  else if Fld.belCtlEn.get w = 0 then
    let s := s.putFlag Fld.belCtlPause (Fld.belCtlPause.get w = 1) m
    let s := { s with mov := { s.mov with enPend := s.mov.enPend.erase m } }
    if s.flag Fld.belCtlEn m then dropJobs m (s.putFlag Fld.belCtlEn false m) else s
  else
    let s := s.putFlag Fld.belCtlPause (Fld.belCtlPause.get w = 1) m
    let s : State := if s.flag Fld.belCtlPause m then
        { s with mov := { s.mov with ctxs := s.mov.ctxs.map fun e =>
            if e.1 / 32 == m then (e.1, { e.2 with waitSince := none }) else e } }
      else s
    if moverState s m = 6 then
      { s with mov := { s.mov with enPend := if s.mov.enPend.contains m then s.mov.enPend else m :: s.mov.enPend } }
    else
      let s := s.putFlag Fld.belCtlEn true m
      let st := moverState s m
      if Fld.belCtlGo.get w = 1 ∧ isFirmware m ∧ (st = 0 ∨ st = 4 ∨ st = 5) then
        s.setCtx m 0 (firmwareCtx s m (firmwareJob s m))
      else s

/-- BEL_PAUSE_WRITE (R488). -/
def execBelPauseWrite (r : Req) (m : Nat) (w : Word) (s : State) : Out :=
  onlyIf (decide (m < 64)) s (regWrite s r .belCtl m w (belCtlWrite r m w))

/-- BEL_DISABLE (R489): a write of 0 to EN. -/
def execBelDisable (r : Req) (m : Nat) (w : Word) (s : State) : Out :=
  onlyIf (decide (m < 64 ∧ Fld.belCtlEn.get w = 0)) s (regWrite s r .belCtl m w (belCtlWrite r m w))

/-- BEL_GO (R496): a write of 1 to GO. -/
def execBelGo (r : Req) (m : Nat) (w : Word) (s : State) : Out :=
  onlyIf (decide (m < 64 ∧ Fld.belCtlGo.get w = 1)) s (regWrite s r .belCtl m w (belCtlWrite r m w))

/-- A mover register write that R498 ignores: a program, element, address or loop register while the
mover runs, waits, is paused or drains; BEL_CFG's RW fields are RO on other movers (R496). -/
def belRegWrite (k : RegKind) (i : Nat) (w : Word) (s : State) : State :=
  let m := belMover k i
  let st := moverState s m
  match k with
  | .belCfg => if isFirmware m then s.plainWrite k i w else s
  | .belFlag => s.plainWrite k i w
  | _ => if st = 1 ∨ st = 2 ∨ st = 3 ∨ st = 6 then s else s.plainWrite k i w

end Sys2Proof.Machine
end

