-- ==== Sys2Proof/Machine/Twin.lean ====
section
/-! DEFINITION. The twin (chapters 3 and 9): pairing, heartbeats, reachability and reconciliation. -/

namespace Sys2Proof.Machine

/-! ## Pairing (R112 to R115, R351, R352) -/

/-- Bytes 0x00 to 0x2F of the pairing record (Table 09-9). -/
def pairHead (s : State) (peer : Nat) : List Byte :=
  let t := s.wp.twin
  numBytes 4 0x52494150 ++ numBytes 2 s.hid ++ numBytes 2 peer ++ numBytes 8 t.nonce.toNat ++ numBytes 8 t.echo.toNat
    ++ numBytes 4 (dMax s) ++ numBytes 4 (mirSlots s) ++ List.replicate 16 0

/-- The MAC of a pairing record. -/
def pairMac (s : State) (head : List Byte) : List Byte := numBytes 48 (Config.hmac384 s.sec.pairKey head).toNat

/-- A start of pairing: a NONCE is drawn (Table 09-9). -/
def startPairing (s : State) : State :=
  let v := s.fresh
  v.2.modTwin fun t => { t with nonce := if v.1 = 0 then 1 else v.1 }

/-- A sealed write into the partner's mailbox. -/
def mailboxWrite (ofs : Nat) (data : List Byte) (x : TwinSec) (s : State) : State :=
  let a := s.nextPort
  a.2.queueJob {
    path := .pairing
    prio := 6
    vc := 3
    port := a.1
    age := 0
    prog := [moveWord true 1 0 0 0 (data.length - 1) 0 (x.peerBox + ofs)]
    init := bufPut 0 data []
    crypt := none
    c0 := false }

/-- A read of the own mailbox (R351, R353): one request. -/
def boxRead (addr len : Nat) (hb : Bool) (s : State) : State := lineRead (mkReq (dramPort addr) 3 .rd addr len []) (.mailbox hb) s

/-- HB_PERIOD has passed since the last record or heartbeat. -/
def periodDue (s : State) (x : TwinSec) : Bool := decide (s.wp.twin.lastSend + x.hbPeriod * 1000 ≤ s.now)

/-- PAIRING_RECORD_SEND (R351): the record into the partner's mailbox, and a read of the own one (DEDUCED, log entry 70). -/
def execPairingRecordSend (s : State) : Out :=
  match s.img.twin with
  | none => .next s
  | some x =>
    onlyIf (s.running && s.fwUp && !s.wp.twin.paired && periodDue s x) s
      (let s := if s.wp.twin.nonce = 0 then startPairing s else s
       let h := pairHead s x.peerHid
       let s := s.modTwin fun t => { t with lastSend := s.now }
       boxRead x.ownBox 96 false (mailboxWrite 0 (h ++ pairMac s h) x s))

/-- A number within bytes read. -/
def fieldAt (b : List Byte) (ofs n : Nat) : Nat := bytesNum ((b.drop ofs).take n)

/-- A record that holds (R112, R352): the partner's values are kept; one that echoes the present NONCE completes pairing. -/
def pairHeld (x : TwinSec) (b : List Byte) (s : State) : State :=
  let s := s.modTwin fun t => { t with
    echo := BitVec.ofNat 64 (fieldAt b 8 8)
    peerDmax := fieldAt b 0x18 4
    peerSlots := fieldAt b 0x1C 4 }
  if fieldAt b 0x10 8 = 0 then s
  else
    let s := s.modTwin fun t => { t with
      paired := true
      single := false
      hbIn := 0
      hbTime := s.now }
    budget ((s.put Fld.glbBootStsTwin 1).put Fld.mapTwinStsPeerHid x.peerHid)

/-- A pairing record read from the own mailbox (R115, R352); a mailbox without one holds no record. -/
def recordRead (b : List Byte) (s : State) : State :=
  match s.img.twin with
  | none => s
  | some x =>
    let echo := fieldAt b 0x10 8
    if s.wp.twin.paired ∨ fieldAt b 0 4 ≠ 0x52494150 then s
    else if fieldAt b 4 2 ≠ x.peerHid ∨ (b.drop 0x30).take 48 ≠ pairMac s (b.take 0x30) ∨ (echo ≠ 0 ∧ echo ≠ s.wp.twin.nonce.toNat) then
      s.logPacked uMAP 0x1006 [(2, fieldAt b 4 2)]
    else pairHeld x b s

/-- PAIRING_TIMEOUT (R114): 30 s from the release, or from the wake, without success. -/
def execPairingTimeout (s : State) : Out :=
  onlyIf (s.running && s.img.twin.isSome && s.fwUp && s.get Fld.glbBootStsTwin == 0 && !s.wp.twin.paired
      && decide (s.wp.twin.since + 30000000000 ≤ s.now)) s
    (budget ((s.modTwin fun t => { t with single := true, since := s.now }).put Fld.glbBootStsTwin 2))

/-- PAIRING_RETRY (R114): a new start of pairing once per second. -/
def execPairingRetry (s : State) : Out :=
  let t := s.wp.twin
  onlyIf (s.running && t.single && !t.paired && decide (t.since + 1000000000 ≤ s.now)) s
    (startPairing (s.modTwin fun t => { t with since := s.now }))

/-! ## Heartbeats (R353) -/

/-- HEARTBEAT_SEND (R353): a heartbeat into the partner's mailbox, and a read of the own one. -/
def execHeartbeatSend (s : State) : Out :=
  match s.img.twin with
  | none => .next s
  | some x =>
    onlyIf (s.running && s.wp.twin.paired && periodDue s x) s
      (let n := s.wp.twin.hbOut + 1
       let s := s.modTwin fun t => { t with hbOut := n, lastSend := s.now }
       boxRead (x.ownBox + 0x80) 64 true (mailboxWrite 0x80 (Config.heartbeat s.sec.pairKey s.hid n) x s))

/-- A heartbeat read from the own mailbox: valid, of the partner, with a rising count. -/
def heartbeatRead (b : List Byte) (s : State) : State :=
  match s.img.twin, Config.heartbeatRead s.sec.pairKey b with
  | some x, some (hid, n) =>
    if s.wp.twin.paired ∧ hid = x.peerHid ∧ s.wp.twin.hbIn < n then s.modTwin fun t => { t with hbIn := n, hbTime := s.now } else s
  | _, _ => s

/-- The own mailbox has been read. -/
def mailboxRead (hb : Bool) (data : List Byte) (s : State) : State := if hb then heartbeatRead data s else recordRead data s

/-- PAIRING_RECORD_RECEIVED (R352). -/
def execPairingRecordReceived (data : List Byte) (s : State) : Out :=
  match takeOutst (.mailbox false) s with
  | none => .next s
  | some (_, t) => onlyIf (s.coreOn && data.length == 96) s (recordRead data (releaseHeld t))

/-- HEARTBEAT_RECEIVED (R353). -/
def execHeartbeatReceived (data : List Byte) (s : State) : Out :=
  match takeOutst (.mailbox true) s with
  | none => .next s
  | some (_, t) => onlyIf (s.coreOn && data.length == 64) s (heartbeatRead data (releaseHeld t))

/-- HEARTBEAT_LOSS (R353): no valid heartbeat within HB_LOSS. -/
def execHeartbeatLoss (s : State) : Out :=
  match s.img.twin with
  | none => .next s
  | some x =>
    onlyIf (s.running && s.wp.twin.paired && decide (s.wp.twin.hbTime + x.hbLoss * 1000 < s.now)) s
      (if mirroring s then twinLost s else s.modTwin fun t => { t with paired := false, nonce := 0 })

/-! ## Reconciliation (R116, R356) -/

/-- An own copy that is not at MEDIA. -/
def liveCopy (p : Pan) : Bool := p.staged && (p.st == 0x11 || p.st == 0x12 || p.st == 0x13)

/-- The partner holds a copy of equal SEQ whose TCRC matches. -/
def heldBy (ds : List MirDesc) (p : Pan) : Option MirDesc :=
  ds.find? fun d => d.lta == p.lta && d.seq == p.seq && d.tcrc == mirTcrc p

/-- Step 2: an own copy is MIRRORED, or is sent again. -/
def reconOwn (ds : List MirDesc) (s : State) (e : Nat × Pan) : State :=
  if !liveCopy e.2 then s
  else match heldBy ds e.2 with
  | some d => s.modPan e.1 fun p => { p with mirrored := true, mirAt := d.slot }
  | none => resend e.1 s

/-- Steps 3 and 4 for one mirror slot: where it is newer than every own copy of its LTA, the SEQ that the map names is asked for; kept where it mirrors an own
copy; else let go. -/
def reconMirror (own : Tab Pan) (s : State) (d : MirDesc) : State :=
  if !(own.any fun e => e.2.lta == d.lta && e.2.st != 0 && decide (d.seq ≤ e.2.seq)) then
    probeLookup (s.modTwin fun t => { t with probes := t.probes ++ [d] }) d.lta
  else if own.any fun e => liveCopy e.2 && (heldBy [d] e.2).isSome then s
  else letGo d s

/-- Steps 2 to 4, once every descriptor has been read. -/
def reconSteps (s : State) : State :=
  let ds := s.wp.twin.descs
  let own := s.wp.own
  let s := s.modTwin fun t => { t with scan := none, descs := [] }
  ds.foldl (reconMirror own) (own.foldl (reconOwn ds) s)

/-- The read of a descriptor has been answered, and the next is read; one that could not be read counts as no valid copy (DEDUCED, log entry 41). -/
def descAnswered (slot : Nat) (code : RCode) (data : List Byte) (s : State) : State :=
  if s.wp.twin.scan ≠ some slot then s
  else
    let d := if code = .ok then descOf s slot data else none
    let s := s.modTwin fun t => { t with descs := t.descs ++ d.toList, scan := some (slot + 1) }
    if slot + 1 < s.wp.twin.peerSlots then readDesc (slot + 1) s else reconSteps s

/-- RECONCILIATION_START (R116, R356): from SERVE_READ on, once paired. The descriptors are read through PEER_MIR one after another. -/
def execReconciliationStart (s : State) : Out :=
  onlyIf (s.running && (s.stage == 8 || s.stage == 9) && s.wp.twin.paired && !mirroring s && !s.wp.pfail) s
    (let s := (s.put Fld.mapTwinStsState 1).modTwin fun t => { t with todo := [], scan := some 0, descs := [], probes := [] }
     if s.wp.twin.peerSlots = 0 then reconSteps s else readDesc 0 s)

/-- RECONCILIATION_END (R353, R356): every copy has been dealt with, and the twin is reachable. -/
def execReconciliationEnd (s : State) : Out :=
  onlyIf (s.running && s.get Fld.mapTwinStsState == 1 && s.wp.twin.scan.isNone && s.wp.twin.probes.isEmpty && s.wp.twin.todo.isEmpty) s (budget (s.put Fld.mapTwinStsState 2))

end Sys2Proof.Machine
end

