-- ==== Sys2Proof/Machine/Responses.lean ====
section
/-! DEFINITION. Responses to the engine's own requests (chapter 2): which unit's handling each takes, its error responses (Table
02-10), the timeout of R55 and the responses that come after it. -/

namespace Sys2Proof.Machine

/-- A piece of a map tile read for its copy (R382); the copy is placed once every piece is at hand. An error leaves the tile dirty: DECERR is
logged, and DATAERR sends its LTAs to map repair (Table 02-10). -/
def ckptPiece (mt addr : Nat) (code : RCode) (data : List Byte) (s : State) : State :=
  let waits := (s.fab.outst.any fun o => o.purpose == .ckptRead mt) || (s.fab.waiting.any fun w => w.2 == .ckptRead mt)
    || s.fab.held.any fun w => w.2 == .ckptRead mt
  let clear (s : State) : State := { s with md := { s.md with ckParts := s.md.ckParts.filter fun x => x.1 != mt } }
  match code with
  | .ok =>
    let s : State := { s with md := { s.md with ckParts := s.md.ckParts ++ [(mt, addr, data)] } }
    let mine := s.md.ckParts.filter fun x => x.1 == mt
    let n : Nat := (mine.map fun x => x.2.2.length).foldl (· + ·) 0
    if waits || decide (n < 4096) then s
    else
      let base := (mine.map fun x => x.2.1).foldl min addr
      let buf := mine.foldl (fun b x => bufPut (x.2.1 - base) x.2.2 b) []
      tileForCkpt mt (bufGet buf 0 4096) (clear s)
  | .dataerr => markRepair ((List.range 512).map (512 * mt + ·)) (clear (s.modDir mt fun d => { d with dirty := true }))
  | _ => (clear (s.modDir mt fun d => { d with dirty := true })).logPacked uMAP (Config.eventCode 56) [(6, 512 * mt)]

/-- The sealed byte of a flue completion: visible, it signals the channel's source (R462); an error is logged. -/
def flueAnswered (f : Nat) (code : RCode) (s : State) : State :=
  if code = .ok then s.edge (.shared (s.flueOf f).src) else s.logPacked uHRV (Config.eventCode 462) [(1, f)]

/-- A write of the map, the directory or a table has been answered (R394); an error of one that the cache does not hold is logged. -/
def mapWritten (key : Nat) (code : RCode) (s : State) : State :=
  if key < 2 ^ 60 then writeBackDone key code s
  else if code = .ok then s
  else s.logPacked uMAP (Config.eventCode 56)

/-- A parity-store access has been answered: the member's contribution goes back, or the row is abandoned (R293, Table 18-8). -/
def parityAnswered (row : Nat) (q : FabReq) (code : RCode) (s : State) : State :=
  if code ≠ .ok then abandonRow row s
  else if q.kind.isWrite then s
  else parReadDone row q.addr q.len s

/-- A map or pan request (R106): of the map, its tables and the gauges, or of a mover that puts a copy back into a pan. -/
def mapOrPan (s : State) (p : Purpose) : Bool :=
  match p with
  | .ckptRead _ | .mapFill _ | .mapTile _ | .mapWrite _ | .walk _ _ _ | .parity _ | .gauge _ | .gaugeWrite _ | .calLine _ | .descWrite => true
  | .mover m c _ => match s.ctx m c with
    | none => false
    | some x => match x.job.path with
      | .handoff _ => true
      | _ => false
  | _ => false

/-- Appliance DRAM has answered a map or pan request with OK (R106). -/
def noteDram (p : Purpose) (code : RCode) (s : State) : State := if mapOrPan s p then dramSeen code s else s

/-- The handling of a response by the unit that issued the request (R56, Table 02-10). -/
def answer (o : Outst) (code : RCode) (data : List Byte) (s : State) : State :=
  let s := noteDram o.purpose code s
  match o.purpose with
  | .fetch i => fetched i code data s
  | .lookahead r => lookedAhead r o.req.addr code data s
  | .flueOwn f => flueOwned f code data s
  | .flueCmd f => flueRead f o.req.addr code data s
  | .harvestByte r => harvestResponse r o.req.addr code s
  | .flueByte f => flueAnswered f code s
  | .mover m c n => moverResponse m c n code data s
  | .ckptRead mt => ckptPiece mt o.req.addr code data s
  | .mapFill line => fillDone line code data s
  | .mapTile mt => if tileWritesOut mt s && code == .ok then s else tileLoaded mt code s
  | .mapWrite key => mapWritten key code s
  | .walk lta cls dir => walked lta cls dir code s
  | .calLine key => calLineRead key code data s
  | .parity row => parityAnswered row o.req code s
  | .gauge key => gaugeFetched key code data s
  | .gaugeWrite _ => if code = .ok then s else s.logPacked uCRY (Config.eventCode 261)
  | .descWrite => if code = .ok then s else s.logPacked uMAP (Config.eventCode 689)
  | .mailbox hb => if code = .ok then mailboxRead hb data s else s
  | .mirDesc slot => descAnswered slot code data s
  | .harvestBody _ | .flueBody _ | .handback => s

/-- Bytes of an OK response (Table 02-5): those a read asked for, the old value of an atomic, none for a write. -/
def answerLen (q : FabReq) : Nat :=
  match q.kind with
  | .rd => q.len
  | .at _ => 8
  | _ => 0

/-- OUTBOUND_RESPONSE (R43, R44, R56). -/
def execOutboundResponse (port vc tag : Nat) (code : RCode) (data : List Byte) (s : State) : Out :=
  match findOutst s.fab port vc tag with
  | none => .next s
  | some o =>
    onlyIf (s.coreOn && (code != .ok || data.length == answerLen o.req)) s
      (let a := codeTaken o code { s with fab := dropOutst s.fab o }
       answer o a.1 data (releaseHeld a.2))

/-- OUTBOUND_TIMEOUT (R55): 2 ms without a response count as DECERR; the tag's late response will be discarded. -/
def execOutboundTimeout (port vc tag : Nat) (s : State) : Out :=
  match findOutst s.fab port vc tag with
  | none => .next s
  | some o =>
    onlyIf (s.coreOn && decide (o.since + 2000000 ≤ s.now)) s
      (let late := s.fab.late ++ [(port, vc, tag, unitOf o.purpose)]
       let s := { s with fab := { dropOutst s.fab o with late := late } }
       let s := s.logPacked (unitOf o.purpose) 0x1002 (timeoutObj port vc tag)
       answer o .decerr [] (releaseHeld s))

/-- LATE_RESPONSE (R55): discarded and logged again, with VAL bit 63 set. -/
def execLateResponse (port vc tag : Nat) (s : State) : Out :=
  match s.fab.late.find? fun x => x.1 == port && x.2.1 == vc && x.2.2.1 == tag with
  | none => .next s
  | some x =>
    let s' := { s with fab := { s.fab with late := s.fab.late.erase x } }
    onlyIf s.coreOn s (s'.logEntry x.2.2.2 0x1002 (packBytes (timeoutObj port vc tag)) (BitVec.ofNat 64 (2 ^ 63)))

end Sys2Proof.Machine
end

