-- ==== Sys2Proof/Machine/Banked.lean ====
section
/-! DEFINITION. The banked state as the units take it (R662 to R665), memory errors (R668), broken waits (R670), and the chimney log's
host-memory mirror (R674). -/

namespace Sys2Proof.Machine

/-! ## BANKED harvest entries (R665) -/

/-- The record of a tile in a BANKED entry: its outcome when delivered, or when it delivers no data; else NOT_RUN. -/
def bankedRecord (opc : Nat) (t : Tile) : Nat × Nat :=
  match t.outcome with
  | none => (oNotRun, 0)
  | some o =>
    if o.1 = oDeferred then (oNotRun, 0)
    else if delivers o.1 && !(if opc = 5 then t.graded else t.issued) then (oNotRun, 0)
    else o

/-- The first of a request's two entries has been issued. -/
def firstIssued (s : State) (q : Request) : Bool :=
  q.firstOut && !((s.ring q.ring).queue.any fun e => !e.nop && e.rtag == q.rtag && (!e.last || e.release == q.units))

/-- A request's BANKED entry, in place of what it still owed. -/
def bankRequest (q : Request) (s : State) : State :=
  let second := firstIssued s q
  let d := if q.opc = 2 ∧ !q.tiles.isEmpty then (q.tiles.map (·.dstate)).foldl min 3 else 0
  let rs := q.tiles.map (bankedRecord q.opc)
  let e : HEntry := {
    bytes := entryBytes s q 0x11 second d rs
    sluice := q.sluice
    irqNow := q.irqNow
    status := 0x11
    release := if second then q.units - q.units / 2 else q.units
    rtag := q.rtag
    last := true }
  let x := s.ring q.ring
  let s := s.setRing q.ring { x with queue := (x.queue.filter fun y => y.nop || y.rtag != q.rtag) ++ [e] }
  s.setRq { q with firstOut := true, deferred := false, owesTwin := false, status := some 0x11 }

/-! ## BANKED_ENTRY (R662) -/

/-- The slots of a channel that have not passed GO end with 0x03. -/
def endUnstarted (c : Nat) (s : State) : State :=
  let l := (s.chan c).slots.filter fun e => !e.2.went
  let s := l.foldl (fun s e => endSlot c e.1 3 e.2 s) s
  match (s.chan c).act with
  | some k => if (Tab.find k (s.chan c).slots).isSome then s else release_ c s
  | none => s

/-- A mover disabled (R489). -/
def bankMover (m : Nat) (s : State) : State :=
  let s := { s with mov := { s.mov with enPend := s.mov.enPend.erase m } }
  if s.flag Fld.belCtlEn m then dropJobs m (s.putFlag Fld.belCtlEn false m) else s

/-- A flue command in progress ends without a completion. -/
def bankFlue (f : Nat) (s : State) : State :=
  (s.modFlue f fun x => { x with
    cmd := none
    lunOp := none
    lunEnd := none
    lunOut := 0
    lunBuf := [] }).putFlag Fld.slqFstsBusy false f

/-- BANKED_ENTRY (R662, R665). -/
def execBankedEntry (s : State) : Out :=
  onlyIf (s.coreOn && s.banked && s.pwr.bankTodo) s
    (let s := { s with pwr := { s.pwr with bankTodo := false } }
     let s := (s.reqs.map Prod.snd).foldl (fun s q => bankRequest q s) s
     let s := ((List.range 64).filter fun m => m < 40 || 47 < m).foldl (fun s m => bankMover m s) s
     let s := (List.range 4).foldl (fun s f => bankFlue f s) s
     let s := (List.range 128).foldl (fun s c => endUnstarted c s) s
     s.put Fld.glbBankStsChWait 128)

/-- BANKED_PINS (R663): once no slot of the channel remains past GO it takes its banked levels; the last one sets PINS_DONE. -/
def execBankedPins (c : Nat) (s : State) : Out :=
  onlyIf (s.coreOn && s.banked && !s.pwr.bankTodo && decide (c < 128) && !(s.chan c).banked && (s.chan c).slots.isEmpty) s
    (let x := s.chan c
     let s := s.setChan c { x with
       banked := true
       pins := {}
       wpN := false
       items := [] }
     let n := s.get Fld.glbBankStsChWait - 1
     let s := s.put Fld.glbBankStsChWait n
     if n = 0 then (s.putFlag Fld.glbBankStsPinsDone true).logPacked uGLB (Config.eventCode 663) else s)

/-- The effect of a write of GLB_BANK_REQ (R677). -/
def bankReqWrite (w : Word) (s : State) : State :=
  if Fld.glbBankReqGo.get w = 1 ∧ Fld.glbBankReqConfirm.get w = 0x424B then s.bank 0x0D else s

/-- BANK_REQUEST (R677). -/
def execBankRequest (r : Req) (w : Word) (s : State) : Out := .next (regWrite s r .glbBankReq 0 w (bankReqWrite w))

/-! ## Memory errors (R668, Table 18-8) -/

/-- A map-cache line struck: a clean one is filled again, a dirty one goes to map repair. -/
def mapLineError (line : Nat) (s : State) : State :=
  match Tab.find line s.md.cache with
  | none => s
  | some l =>
    let s := s.delLine line
    if l.dirty ∨ l.wb then markRepair ((List.range 8).map (8 * line + ·)) s else s

/-- A gauge-cache line struck (R261): its seeds stand in it and are written back. -/
def gaugeLineError (key : Nat) (s : State) : State :=
  match Tab.find key s.md.gauge with
  | none => s
  | some l =>
    let k := key / 2 ^ 24
    let b := key % 2 ^ 24
    let slc := (s.unit (pageUnit s ⟨k, b, 0, false⟩)).slc
    let l : GLine := { l with off := seedsOf (s.profile k) slc, acc := zeros32, dirty := false }
    let s := { s with md := { s.md with gauge := Tab.put key l s.md.gauge } }
    dramWrite (gaugeAddr s k b) 3 (glineBytes l) (.gaugeWrite key) s

/-- The chimney-log entry at a place of the ring replaced (Table 18-8) (DEDUCED, log entry 68). -/
def logStruck (i : Nat) (s : State) : State :=
  { s with log := s.log.zipIdx.map fun x => if x.2 == i then { x.1 with unit := uPWR, code := 0x101B, obj := 0, val := 0 } else x.1 }

/-- MEMORY_ERROR (R668). -/
def execMemoryError (e : MemErr) (s : State) : Out :=
  let on (c : Bool) (t : State) : Out := onlyIf (s.coreOn && c) s t
  match e with
  | .corrected => on true ((s.inc Fld.pwrErrCntCorr).logPacked uPWR 0x101B)
  | .critical => on true (s.bank 3)
  | .mapLine line => on (Tab.find line s.md.cache).isSome (mapLineError line (contained s))
  | .gaugeLine key => on (Tab.find key s.md.gauge).isSome (gaugeLineError key (contained s))
  | .readSlot c slot =>
    match Tab.find slot (s.chan c).buf with
    | none => .next s
    | some b => on (b.stage != 2) (settleRds (hardDecoded c slot b none (contained s)))
  | .writeRow row => on (s.row row).isSome (abandonRow row (contained s))
  | .mover m c =>
    match s.ctx m c with
    | none => .next s
    | some x => on x.fault.isNone (moverFault m c 2 x.cur none (contained s))
  | .logEntry i => on (decide (i < s.log.length)) (contained (logStruck i s))

/-! ## Broken waits (R670) -/

/-- A request has an array operation past its GO. -/
def pastGo (s : State) (rtag : Nat) : Bool :=
  s.ch.any fun e => e.2.slots.any fun x => x.2.went && x.2.op.wants.any fun w => w.rtag == rtag

/-- The younger of two requests; one with an operation past its GO is the older (DESIGN CHOICE, log entry 96). -/
def younger (s : State) (a b : Nat) : Nat :=
  if pastGo s a ≠ pastGo s b then (if pastGo s a then b else a)
  else if tagOlder a b then b else a

/-- A request's resources, but its slot, released, and its work begun again at its map lookup. -/
def restartRequest (rtag : Nat) (s : State) : State :=
  let mine (w : Why) : Bool := match w with
    | .margin r _ _ => r == rtag
    | _ => false
  let ids := s.md.rds.filterMap fun e => match e.2.own with
    | .tile r _ => if r = rtag then some e.1 else none
    | _ => none
  let s := ids.foldl (fun s id => dropRd id s) s
  let s : State := { s with
    md := { s.md with luns := s.md.luns.map fun e => (e.1, { e.2 with queue := e.2.queue.filter fun w => !mine w.why }) }
    ch := s.ch.map fun e => (e.1, { e.2 with buf := e.2.buf.filter fun b => !mine b.2.why }) }
  let s := s.modRq rtag fun q => { q with
    tiles := q.tiles.map fun t => if t.outcome.isSome ∨ q.opc = 2 then t else { t with looked := false, mapWait := false, panSlot := none, step := 0 }
    margin := q.margin.map fun _ => 0x100 }
  match s.rq rtag with
  | some q => if q.opc = 6 then marginReads q s else s
  | none => s

/-- DEADLOCK_BREAK (R670): `waits` has waited 50 ms for a resource that `holds` holds, while holding another. -/
def execDeadlockBreak (waits holds : Nat) (s : State) : Out :=
  let r := younger s waits holds
  match s.rq r with
  | none => .next s
  | some q =>
    onlyIf (s.running && (s.rq waits).isSome && (s.rq holds).isSome && waits != holds) s
      (let s := s.setRq { q with breaks := q.breaks + 1 }
       let s := (s.inc Fld.pwrErrCntBreaks).logPacked uPWR 0x101A [(4, r)]
       if 4 ≤ q.breaks + 1 then s.bank 0x0E else restartRequest r s)

/-! ## The log mirror (R674) -/

/-- MPAGES as it acts. -/
def mirrorPages (s : State) : Nat := min 512 (max 1 (s.get Fld.glbLogCtlMpages))

/-- A log entry as 32 B (Table 18-9). -/
def logBytes (e : LogEntry) : List Byte :=
  leBytes 8 e.time.toNat ++ leBytes 4 e.seq.toNat ++ leBytes 1 e.unit ++ [e.sev] ++ leBytes 2 e.code ++ leBytes 8 e.obj.toNat ++ leBytes 8 e.val.toNat

/-- The oldest entry on chip that has not been copied. -/
def uncopied (s : State) : Option LogEntry :=
  s.log.reverse.find? fun e => decide ((e.seq - s.logMir).toNat < 2 ^ 31)

/-- LOG_MIRROR_COPY (R674): also in the banked state (R664). -/
def execLogMirrorCopy (s : State) : Out :=
  match uncopied s with
  | none => .next s
  | some e =>
    let a := s.get Fld.glbLogMbaseHiBase * 2 ^ 32 + s.get Fld.glbLogMbaseLoBase * 4096
    let j : Job := {
      path := .logMirror e.seq.toNat
      prio := 1
      vc := 3
      port := s.get Fld.glbLogCtlPort
      age := e.seq.toNat
      prog := [moveWord true 1 0 0 0 31 0 (a + 32 * (e.seq.toNat % (128 * mirrorPages s)))]
      init := bufPut 0 (logBytes e) []
      crypt := none
      c0 := false }
    onlyIf (s.coreOn && s.flag Fld.glbLogCtlMirEn) s { s.queueJob j with logMir := e.seq + 1 }

end Sys2Proof.Machine
end

