-- ==== Sys2Proof/Machine/Draught.lean ====
section
/-! DEFINITION. The draught engine (chapter 14): sense sources, loops and their generators, admission levels, grants, the bandwidth buckets,
and the ceiling comparator. -/

namespace Sys2Proof.Machine

/-! ## Sense sources (R64 to R67, R532, R534) -/

/-- A source of Table 02-14. -/
def currentSrc (n : Nat) : Bool := decide (n < 34)
def tempSrc (n : Nat) : Bool := decide (40 ≤ n ∧ n < 60)
def definedSrc (n : Nat) : Bool := currentSrc n || tempSrc n

/-- The populated sources. -/
def populated (s : State) (n : Nat) : Bool := s.dg.pop.getLsbD n

def State.sense (s : State) (n : Nat) : Sense := Tab.get {} n s.dg.src
def State.setSense (s : State) (n : Nat) (x : Sense) : State := { s with dg := { s.dg with src := Tab.put n x s.dg.src } }

/-- A sample value as its format reads (Table 02-14). -/
def senseValue (n : Nat) (v : BitVec 16) : Int := if tempSrc n then v.toInt else v.toNat

/-- A source's bit in DRG_STALE_LO or DRG_STALE_HI. -/
def staleKind (n : Nat) : RegKind := if n < 32 then .drgStaleLo else .drgStaleHi

/-- SENSE_FRAME (R64, R66): discarded and counted for its parity, then for a reserved source; otherwise accepted, and the source is no longer
stale. A frame with both faults counts as a parity error alone (DESIGN CHOICE, log entry 128). -/
def execSenseFrame (src : BitVec 6) (v : BitVec 16) (par : Bool) (s : State) : Out :=
  let n := src.toNat
  let odd := (countOnes src + countOnes v + par.toNat) % 2 == 1
  onCore s
    (if odd then s.inc Fld.drgSnsErrParity
     else if !definedSrc n then s.inc Fld.drgSnsErrBadsrc
     else
       let x := s.sense n
       let y := senseValue n v
       let s := s.setSense n { x with
         sum := x.sum + y
         count := x.count + 1
         last := some y
         at_ := s.now
         stale := none
         reported := false }
       s.clrBit (staleKind n) 0 (n % 32))

/-- SOURCE_STALE (R67): 3 µs without an accepted frame. -/
def execSourceStale (n : Nat) (s : State) : Out :=
  let x := s.sense n
  onlyIf (s.coreOn && populated s n && x.stale.isNone && decide (x.at_ + 3000 ≤ s.now)) s
    ((s.setSense n { x with stale := some s.now }).setBit (staleKind n) 0 (n % 32))

/-- STALE_REPORT (R534): stale for 100 µs without a break. -/
def execStaleReport (n : Nat) (s : State) : Out :=
  let x := s.sense n
  match x.stale with
  | none => .next s
  | some t =>
    onlyIf (s.coreOn && !x.reported && decide (t + 100000 ≤ s.now)) s
      (((s.setSense n { x with reported := true }).putFlag Fld.drgStsStale true).logPacked uDRG 0x1012 [(1, n)])

/-! ## Loops -/

def State.loop (s : State) (n : Nat) : DLoop := Tab.get {} n s.dg.loops
def State.setLoop (s : State) (n : Nat) (x : DLoop) : State := { s with dg := { s.dg with loops := Tab.put n x s.dg.loops } }

/-- The sources a loop names. -/
def loopSrcs (s : State) (n : Nat) : List Nat :=
  (List.range 64).filter fun k => if k < 32 then s.bit .drgLoopSrcLo n k else s.bit .drgLoopSrcHi n (k - 32)

/-- EN of a loop is refused (R533). -/
def loopRefused (s : State) (n : Nat) : Bool :=
  let l := loopSrcs s n
  l.isEmpty || (l.any fun k => !definedSrc k || !populated s k) || (l.any currentSrc && l.any tempSrc)

/-- The target of a loop in Q16.16. -/
def loopTgt (s : State) (n : Nat) : Word := ((BitVec.ofNat 16 (s.get Fld.drgLoopTgtTgt n)).signExtend 32) <<< 16

/-- The state of a loop loaded (R539); its last measurement is that of the next tick. -/
def loadLoop (n : Nat) (s : State) : State :=
  let s := (s.setReg .drgLoopSp n (loopTgt s n)).setReg .drgLoopI n (s.reg .drgLoopIinit n)
  s.setLoop n { s.loop n with
    v := 0
    a := 0
    load := 1 }

/-- The effect of a write of DRG_LOOPn_CTL (R533, R539, R545): a rise of EN is checked and loads the loop's state (DEDUCED, log entry 66). -/
def loopCtlWrite (n : Nat) (w : Word) (s : State) : State :=
  let was := s.flag Fld.drgLoopCtlEn n
  let s := s.setReg .drgLoopCtl n (writeWord .drgLoopCtl (s.reg .drgLoopCtl n) w)
  if s.flag Fld.drgLoopCtlEn n ∧ !was then
    if loopRefused s n then (s.putFlag Fld.drgLoopCtlEn false n).putFlag Fld.drgStsCfgerr true
    else loadLoop n s
  else s

/-- LOOP_ENABLE (R533, R539). -/
def execLoopEnable (r : Req) (n : Nat) (w : Word) (s : State) : Out :=
  onlyIf (decide (n < 16 ∧ Fld.drgLoopCtlEn.get w = 1)) s (regWrite s r .drgLoopCtl n w (loopCtlWrite n w))

/-- LOOP_DISABLE (R536): the loop leaves the minimum at the next tick. -/
def execLoopDisable (r : Req) (n : Nat) (w : Word) (s : State) : Out :=
  onlyIf (decide (n < 16 ∧ Fld.drgLoopCtlEn.get w = 0)) s (regWrite s r .drgLoopCtl n w (loopCtlWrite n w))

/-- LOOP_FREEZE_WRITE (R545). -/
def execLoopFreezeWrite (r : Req) (n : Nat) (w : Word) (s : State) : Out :=
  onlyIf (decide (n < 16)) s (regWrite s r .drgLoopCtl n w (loopCtlWrite n w))

/-- The mean of a source's frames in the window a tick ends (R532); with none it is a value the spec leaves open (DESIGN CHOICE, log entry 84). -/
def senseMean (n : Nat) (s : State) : Int × State :=
  let x := s.sense n
  if x.count = 0 then
    let v := s.fresh
    (senseValue n (v.1.setWidth 16), v.2)
  else (x.sum.tdiv x.count, s)

/-- The means of several sources. -/
def senseMeans : List Nat → State → List Int × State
  | [], s => ([], s)
  | n :: r, s =>
    let a := senseMean n s
    let b := senseMeans r a.2
    (a.1 :: b.1, b.2)

/-- A value saturated to 16 bits. -/
def sat16 (x : Int) : Int := max (-32768) (min 32767 x)

/-- A loop's input y (R532). -/
def loopInput (n : Nat) (s : State) : Int × State :=
  let a := senseMeans (loopSrcs s n) s
  let agg : Int := match a.1 with
    | [] => 0
    | x :: r => if s.flag Fld.drgLoopCtlAgg n then r.foldl max x else r.foldl (· + ·) x
  (sat16 (agg.fdiv (2 ^ s.get Fld.drgLoopCtlInsh n)), a.2)

/-- A source that an enabled loop names is stale (R534). -/
def loopStale (s : State) (n : Nat) : Bool := (loopSrcs s n).any fun k => (s.sense k).stale.isSome

/-- A word held between two bounds, as signed numbers. -/
def clampW (lo hi x : Word) : Word := if x.toInt < lo.toInt then lo else if hi.toInt < x.toInt then hi else x

/-- VMAX, AMAX and JMAX as they act (R538). -/
def limitOf (w : Word) : Word := if w.toInt ≤ 0 ∨ 0x3FFFFFFF < w.toInt then 0x3FFFFFFF else w

/-- A gain as it acts (R535). -/
def gainOf (w : Word) : Word := if w.toInt < 0 then 0 else w

/-- The profile generator of one tick (R538): set-point, velocity and acceleration. -/
def generator (tq vmax amax jmax r v a : Word) : Word × Word × Word :=
  let d := (aluSubs tq r).val
  let vdes := clampW (-vmax) vmax (aluSar d 4).val
  let goal := clampW (-amax) amax (aluSubs vdes v).val
  let a := (aluAdd a (clampW (-jmax) jmax (aluSubs goal a).val)).val
  let v := clampW (-vmax) vmax (aluAdd v a).val
  let r := (aluAdds r v).val
  let e := (aluSubs tq r).val.toInt
  if -0x1000 < e ∧ e < 0x1000 ∧ -0x1000 < v.toInt ∧ v.toInt < 0x1000 then (tq, 0, 0) else (r, v, a)

/-- The feed-forward index of a group (R537). -/
def biasIndex (s : State) (g : Nat) : Nat :=
  let best := (List.range 8).foldl (fun (b : Nat) k =>
    if s.get Fld.stkChmodeCurRate b < s.get Fld.stkChmodeCurRate (8 * g + k) then 8 * g + k else b) (8 * g)
  let rate := s.get Fld.stkChmodeCurRate best
  let band := if rate ≤ 400 then 0 else if rate ≤ 1600 then 1 else if rate ≤ 3600 then 2 else 3
  if rate = 0 then 0 else min 63 (4 * s.get Fld.stkChmodeCurMode best + band)

/-- LVL as it acts. -/
def staleLvl (s : State) (n : Nat) : Nat := min 0x10000 (s.get Fld.drgLoopStaleLvl n)

/-- The output of a loop for a group (R535). -/
def groupOut (s : State) (n g : Nat) (base : Word) (bad stale : Bool) : Nat :=
  let ff : Alu 32 := if s.flag Fld.drgLoopCtlFfEn n then
      aluAdd (s.reg .drgFfStep (min 63 (s.get Fld.drgGrpStsInfl g))) (s.reg .drgFfBias (biasIndex s g)) else { val := 0 }
  let u := aluAdd base ff.val
  let x := if bad || ff.v || u.v then 0 else (clampW 0 0x10000 u.val).toNat
  if stale then min x (staleLvl s n) else x

/-- The integrator's step (R535): the new integrator, and whether it wrapped. -/
def integrate (i : Word) (st : Alu 32) (base : Word) (bad stale : Bool) : Word × Bool :=
  if stale ∨ st.v then (i, false)
  else if 0 < st.val.toInt ∧ !bad ∧ base.toInt < 0x10000 then ((aluAdd i st.val).val, (aluAdd i st.val).v)
  else if st.val.toInt < 0 ∧ 0 ≤ i.toInt then (if i.toInt + st.val.toInt < 0 then 0 else i + st.val, false)
  else (i, false)

/-- One loop at a tick (R535, R538, R545). -/
def tickLoop (n : Nat) (s : State) : State :=
  if !s.flag Fld.drgLoopCtlEn n then s
  else
    let a := loopInput n s
    let s := if (a.2.loop n).load = 2 then loadLoop n a.2 else a.2
    let x := s.loop n
    let yq : Word := BitVec.ofInt 32 (a.1 * 65536)
    let prev := if x.load = 0 then x.yq else yq
    let stale := loopStale s n
    let s := s.putFlag Fld.drgLoopStsStale stale n
    if s.flag Fld.drgLoopCtlFreeze n then s.setLoop n { x with
      yq := yq
      load := 0 }
    else
      let g := generator (loopTgt s n) (limitOf (s.reg .drgLoopVmax n)) (limitOf (s.reg .drgLoopAmax n))
        (limitOf (s.reg .drgLoopJmax n)) (s.reg .drgLoopSp n) x.v x.a
      let i := s.reg .drgLoopI n
      let e := aluSubs g.1 yq
      let p := aluMulq 16 (gainOf (s.reg .drgLoopKp n)) e.val
      let dy := aluSubs prev yq
      let d := aluMulq 16 (gainOf (s.reg .drgLoopKd n)) dy.val
      let pi := aluAdd p.val i
      let base := aluAdd pi.val d.val
      let bad := e.v || p.v || dy.v || d.v || pi.v || base.v
      let outs := ((List.range 16).filter fun k => (s.get Fld.drgLoopCtlGrp n).testBit k).map fun k => (k, groupOut s n k base.val bad stale)
      let st := aluMulq 16 (gainOf (s.reg .drgLoopKi n)) e.val
      let j := integrate i st base.val bad stale
      let s := (s.setReg .drgLoopSp n g.1).setReg .drgLoopI n j.1
      let s := if j.2 then s.inc Fld.drgLoopStsWraps n else s
      let s := s.put Fld.drgLoopStsBase (if bad then 0 else (clampW 0 0x10000 base.val).toNat) n
      s.setLoop n { x with
        v := g.2.1
        a := g.2.2
        yq := yq
        outs := outs
        load := 0 }

/-- The admission level of a group formed at a tick (R536): the lowest output of the enabled loops that name it. A stale loop that is frozen
gives no more than LVL. -/
def admitOf (s : State) (g : Nat) : Nat :=
  (List.range 16).foldl (fun a n =>
    if s.flag Fld.drgLoopCtlEn n && (s.get Fld.drgLoopCtlGrp n).testBit g then
      let u := (Tab.find g (s.loop n).outs).getD 0x10000
      min a (if loopStale s n then min u (staleLvl s n) else u)
    else a) 0x10000

/-! ## Bandwidth buckets (R529) -/

def bwMax (s : State) : Nat := s.get Fld.drgAdmCfgBwMax
def bwCap (s : State) : Int := 2 * bwMax s * 256
def State.bucketOf (s : State) (g : Nat) : Int := Tab.get 0 g s.dg.bucket
def State.setBucket (s : State) (g : Nat) (x : Int) : State := { s with dg := { s.dg with bucket := Tab.set 0 g x s.dg.bucket } }

/-- The refill of a group's bucket at a tick, from the level in effect. -/
def refill (g : Nat) (s : State) : State :=
  if bwMax s = 0 then s
  else s.setBucket g (min (bwCap s) (s.bucketOf g + (s.get Fld.drgGrpStsAdmit g * bwMax s * 256 / 65536 : Nat)))

/-- The effect of a write of DRG_ADM_CFG on the buckets. -/
def admCfgWrite (w : Word) (s : State) : State :=
  let old := bwMax s
  let s := s.plainWrite .drgAdmCfg 0 w
  (List.range 16).foldl (fun s g =>
    if bwMax s = 0 then s
    else if old = 0 then s.setBucket g (bwCap s)
    else s.setBucket g (max (-(bwCap s)) (min (bwCap s) (s.bucketOf g)))) s

/-- BW_MAX_WRITE (R529). -/
def execBwMaxWrite (r : Req) (w : Word) (s : State) : Out := .next (regWrite s r .drgAdmCfg 0 w (admCfgWrite w))

/-! ## Ticks -/

/-- The calibration runs under way see their group's load (R561). -/
def loadSeen (s : State) : State :=
  { s with cal := { s.cal with runs := s.cal.runs.map fun e =>
      (e.1, { e.2 with idle := e.2.idle && decide (s.get Fld.drgGrpStsInfl (e.1 / 8) ≤ s.get Fld.calGbLoadthr) }) } }

/-- SAMPLE_TICK (R532, R535 to R539). -/
def execSampleTick (s : State) : Out :=
  onlyIf (s.coreOn && decide (s.dg.tickAt + 10000 ≤ s.now)) s
    (let s := loadSeen s
     let s := (List.range 16).foldl (fun s n => tickLoop n s) s
     let s := (List.range 16).foldl (fun s g => refill g s) s
     let lv := (List.range 16).map (admitOf s)
     { s with dg := { s.dg with
       src := s.dg.src.map fun e => (e.1, { e.2 with sum := 0, count := 0 })
       next := some (s.now, lv)
       tickAt := s.now } })

/-- ADMISSION_TAKE_EFFECT (R536): 1 µs after the tick. -/
def execAdmissionTakeEffect (s : State) : Out :=
  match s.dg.next with
  | none => .next s
  | some (t, lv) =>
    onlyIf (s.coreOn && decide (t + 1000 ≤ s.now)) s
      (let s := { s with dg := { s.dg with next := none } }
       (List.range 16).foldl (fun s g => s.put Fld.drgGrpStsAdmit ((lv[g]?).getD 0x10000) g) s)

/-! ## The ceiling comparator (R541, R542) -/

/-- DRG_STS.STOP shown: the comparator's, or forced by the THERM latch (Table 18-5). Each setting counts and is logged. -/
def showStop (s : State) : State :=
  let on := s.dg.stop || s.flag Fld.trpStsTherm
  if on ∧ !s.flag Fld.drgStsStop then ((s.putFlag Fld.drgStsStop true).inc Fld.drgStsStops).logPacked uDRG 0x1013
  else s.putFlag Fld.drgStsStop on

/-- The sources the comparator names; one that is not populated is not used (R548). -/
def ceilSrcs (s : State) : List Nat :=
  (List.range 64).filter fun k => definedSrc k && populated s k && (if k < 32 then s.bit .drgCeilMskLo 0 k else s.bit .drgCeilMskHi 0 (k - 32))

/-- The latest accepted value of each source; a source that has delivered none yet reads a value the spec leaves open. -/
def latest : List Nat → State → List Int × State
  | [], s => ([], s)
  | n :: r, s =>
    match (s.sense n).last with
    | some x => let b := latest r s; (x :: b.1, b.2)
    | none =>
      let v := s.fresh
      let b := latest r v.2
      (senseValue n (v.1.setWidth 16) :: b.1, b.2)

/-- NEVAL as it acts (R550). -/
def neval (s : State) : Nat := max 1 (min 8 (s.get Fld.drgCeilCfgNeval))

/-- CEILING_EVALUATION (R541, R542). -/
def execCeilingEvaluation (s : State) : Out :=
  onlyIf (s.coreOn && s.flag Fld.drgCtlCeilEn && decide (s.dg.evalAt + 1000 ≤ s.now)) s
    (let l := ceilSrcs s
     let a := latest (l.filter currentSrc) s
     let b := latest (l.filter tempSrc) a.2
     let s := b.2
     let sum := min 0xFFFFF (a.1.foldl (· + ·) 0)
     let lim : Int := s.get Fld.drgCeilCfgILim
     let tlim := (BitVec.ofNat 16 (s.get Fld.drgCeilCfg2TLim)).toInt
     let stale := l.any fun k => (s.sense k).stale.isSome
     let high := stale || decide (lim < sum) || b.1.any fun t => decide (tlim < t)
     let calm := !stale && decide (sum ≤ lim - 8 * (s.get Fld.drgCeilCfgIHyst : Int))
       && b.1.all fun t => decide (t ≤ tlim - (s.get Fld.drgCeilCfg2THyst : Int))
     let ov := if high then s.dg.above + 1 else 0
     let un := if calm then s.dg.below + 1 else 0
     showStop { s with dg := { s.dg with
       above := ov
       below := un
       stop := if neval s ≤ ov then true else if neval s ≤ un then false else s.dg.stop
       evalAt := s.now } })

/-- The effect of a write of DRG_CTL (R542). -/
def drgCtlWrite (w : Word) (s : State) : State :=
  let was := s.flag Fld.drgCtlCeilEn
  let s := s.plainWrite .drgCtl 0 w
  if !s.flag Fld.drgCtlCeilEn then
    showStop { s with dg := { s.dg with
      stop := false
      above := 0
      below := 0 } }
  else if !was then { s with dg := { s.dg with
    above := 0
    below := 0
    evalAt := s.now } }
  else s

/-- CEIL_EN_WRITE (R542). -/
def execCeilEnWrite (r : Req) (w : Word) (s : State) : Out := .next (regWrite s r .drgCtl 0 w (drgCtlWrite w))

/-! ## Grants (R526 to R531) -/

/-- A request for a grant. -/
structure GrantReq where
  ch    : Nat
  /-- The LUN of a formed operation; none for the channel's raw access. -/
  lun   : Option Nat
  cls   : Nat
  /-- It ranks with class 0: an aged class-3 operation (R688). -/
  order : Nat
  flush : Bool
  bytes : Nat

/-- Bytes an operation's transfers move (R529). -/
def opBytes (s : State) (o : Op) : Nat :=
  if isErase o.optype ∨ o.optype = 0x12 ∨ o.optype = 0x20 ∨ o.optype = 0x21 then 0
  else if o.optype = 0x18 then (s.profile o.lun).physPage
  else if isProg o.optype ∨ o.optype = 0x19 ∨ o.wants.any fun w => w.kind == 3 then
    (o.wants.map fun w => w.data.length * (s.profile o.lun).physPage).foldl (· + ·) 0
  else 4608 * o.wants.length

/-- The requests of a channel. -/
def chanReqs (s : State) (c : Nat) : List GrantReq :=
  let luns := (List.range 32).filterMap fun j =>
    let k := c * 32 + j
    let l := s.lun k
    match l.op with
    | none => none
    | some o =>
      if l.granted then none
      else some ⟨c, some k, o.cls, if o.cls = 3 && (agedHead l).isSome then 0 else o.cls, flushing s && !o.wants.isEmpty && o.wants.all (flushWant s), opBytes s o⟩
  let raw : List GrantReq := match (s.chan c).rawQ with
    | a :: _ => if (a.cycles.head?.map (·.2)).getD false then [⟨c, none, 2, 2, false, 0⟩] else []
    | [] => []
  luns ++ raw

/-- The conditions of Table 14-1. -/
def mayGrant (s : State) (g : Nat) (x : GrantReq) : Bool :=
  !s.flag Fld.drgStsStop && (x.cls == 0 || x.flush
    || (decide (s.get Fld.drgGrpStsInfl g < opLimit s g) && (bwMax s == 0 || decide (0 < s.bucketOf g))))

/-- Of a group's requests the first by class and by the rotation of channels (Table 01-7). -/
def pickGrant (s : State) (g : Nat) : Option GrantReq :=
  let p := Tab.get 0 g s.dg.rot
  let l := ((List.range 8).flatMap fun i => chanReqs s (8 * g + (p + i) % 8)).filter (mayGrant s g)
  l.foldl (fun b x => match b with
    | none => some x
    | some y => if x.order < y.order then some x else some y) none

/-- DRAUGHT_GRANT (R527, R528): one request of the group. -/
def execDraughtGrant (g : Nat) (s : State) : Out :=
  match pickGrant s g with
  | none => .next s
  | some x =>
    onlyIf (s.running && decide (g < 16)) s
      (let s := { s with dg := { s.dg with rot := Tab.set 0 g ((x.ch + 1) % 8) s.dg.rot } }
       let s := if bwMax s = 0 then s else s.setBucket g (max (-(bwCap s)) (s.bucketOf g - x.bytes))
       match x.lun with
       | some k => modLun k (fun l => { l with granted := true }) (s.inc Fld.drgGrpStsInfl g)
       | none =>
         let q := (s.chan x.ch).rawQ
         s.setChan x.ch { s.chan x.ch with rawQ := q.zipIdx.map fun a => if a.2 == 0 then rawGranted a.1 else a.1 })

/-- The first ended operation whose END report is still to come. -/
def nextReport : List Ended → Option (List Ended × Ended × List Ended)
  | [] => none
  | e :: r => if e.reported then (nextReport r).map fun x => (e :: x.1, x.2.1, x.2.2) else some ([], e, r)

/-- DRAUGHT_END_REPORT (R528): INFL of the group falls; a record that has been judged too is gone. -/
def execDraughtEndReport (s : State) : Out :=
  match nextReport s.md.ended with
  | none => .next s
  | some (a, e, b) =>
    let g := lunCh e.op.lun / 8
    let keep := if e.judged then a ++ b else a ++ { e with reported := true } :: b
    onlyIf s.coreOn s
      (({ s with md := { s.md with ended := keep } } : State).put Fld.drgGrpStsInfl (s.get Fld.drgGrpStsInfl g - 1) g)

/-! ## The draught section (R547, R548) -/

/-- The register images of the draught section, in order of loading: pairs of register, copy and word, EN last for each loop. -/
def loadDraught (imgs : List (RegKind × Nat × Word)) (s : State) : State :=
  let s := imgs.foldl (fun s x =>
    if x.1 = .drgLoopCtl then s.setReg .drgLoopCtl x.2.1 (writeWord .drgLoopCtl 0 x.2.2 &&& ~~~Fld.drgLoopCtlEn.mask)
    else if x.1 = .drgAdmCfg then admCfgWrite x.2.2 s
    else if x.1 = .drgCtl then s
    else s.plainWrite x.1 x.2.1 x.2.2) s
  imgs.foldl (fun s x =>
    if x.1 = .drgLoopCtl then loopCtlWrite x.2.1 x.2.2 s else if x.1 = .drgCtl then drgCtlWrite x.2.2 s else s) s

end Sys2Proof.Machine
end

