-- ==== Sys2Proof/Machine/Pins.lean ====
section
/-! DEFINITION. The xSPI port (R12, R62, R63) and the IEEE 1149.1 port (R10, R76, R77). -/

namespace Sys2Proof.Machine

/-! ## xSPI -/

/-- The level of XSPI_RESET_N (Table 02-12): low until 10 µs after the release. -/
def xspiResetN (s : State) : Bool := s.coreOn && s.xspi.hold == 0

/-- 1 ns of the port's reset time. -/
def xspiTick (x : Xspi) : Xspi := { x with hold := x.hold - 1 }

/-- A command issued on the port. -/
def Xspi.put (x : Xspi) (c : XCmd) : Xspi := { x with sent := x.sent ++ [c] }

/-- The SFDP header is there, with its signature, the bytes "SFDP" (JESD216; PRESUMED, log entry 106). -/
def sfdpSigned (f : Sfdp) : Bool := f.hdr.take 4 == [0x53, 0x46, 0x44, 0x50]

/-- Discovery of the configuration flash (R12): with valid SFDP tables the port runs 8D-8D-8D at the fastest rate that they and 200 MHz allow,
else 1S-1S-1S at 12.5 MHz. -/
def xspiDiscover (f : Sfdp) (x : Xspi) : Xspi :=
  let x := x.put (.sfdpRead 0 f.hdr.length)
  match f.khz with
  | some k =>
    if sfdpSigned f then
      { x.put (.modeSwitch (min k 200000)) with
        octal := true
        khz := min k 200000 }
    else { x with octal := false, khz := 12500 }
  | none => { x with octal := false, khz := 12500 }

/-- A span read: by the 4-byte READ command 0x13 in 1S-1S-1S (R12). -/
def xspiRead (addr len : Nat) (x : Xspi) : Xspi :=
  x.put (if x.octal then .read8D addr len else .read1S 0x13 addr len)

/-! ## The test port -/

/-- The word of the IDCODE register (R77): stepping 1, the part number, the manufacturer's identity, and 1. -/
def idcode (p : Part) : Word :=
  let part : BitVec 16 := match p with
    | .ig7316 => 0x7316
    | .ig7332 => 0x7332
  (1#4 ++ part ++ Config.idcodeMaker) ++ 1#1

/-- The controller's next state at a rising edge of TCK, by TMS (IEEE 1149.1). -/
def tapNext (tms : Bool) : TapSt → TapSt
  | .testLogicReset => if tms then .testLogicReset else .runTestIdle
  | .runTestIdle => if tms then .selectDr else .runTestIdle
  | .selectDr => if tms then .selectIr else .captureDr
  | .captureDr => if tms then .exit1Dr else .shiftDr
  | .shiftDr => if tms then .exit1Dr else .shiftDr
  | .exit1Dr => if tms then .updateDr else .pauseDr
  | .pauseDr => if tms then .exit2Dr else .pauseDr
  | .exit2Dr => if tms then .updateDr else .shiftDr
  | .updateDr => if tms then .selectDr else .runTestIdle
  | .selectIr => if tms then .testLogicReset else .captureIr
  | .captureIr => if tms then .exit1Ir else .shiftIr
  | .shiftIr => if tms then .exit1Ir else .shiftIr
  | .exit1Ir => if tms then .updateIr else .pauseIr
  | .pauseIr => if tms then .exit2Ir else .pauseIr
  | .exit2Ir => if tms then .updateIr else .shiftIr
  | .updateIr => if tms then .selectDr else .runTestIdle

/-- A rising edge of TCK. TRST_N low, or Test-Logic-Reset, brings IDCODE into force; Capture-DR loads the register that the instruction selects, and
Shift-DR shifts it. Only IDCODE and BYPASS select a register that the spec lays out. No command brings an edge (DESIGN CHOICE, log entry 105). -/
def tapEdge (p : Part) (t : Tap) : Tap :=
  if !t.trstN then { t with st := .testLogicReset, instr := .idcode }
  else
    let dr : Word := match t.st, t.instr with
      | .captureDr, .idcode => idcode p
      | .captureDr, .bypass => 0
      | .shiftDr, .idcode => (t.dr >>> 1) ||| (if t.tdi then 0x80000000 else 0)
      | .shiftDr, .bypass => if t.tdi then 1 else 0
      | _, _ => t.dr
    let st := tapNext t.tms t.st
    { t with
      st := st
      instr := if st = .testLogicReset then .idcode else t.instr
      dr := dr }

/-- The level of TDO (R76): at high impedance, none, but in Shift-DR and Shift-IR. -/
def tapTdo (t : Tap) : Option Bool :=
  match t.st with
  | .shiftDr | .shiftIr => some (t.dr.getLsbD 0)
  | _ => none

end Sys2Proof.Machine
end

