-- ==== Sys2Proof/Machine/Train.lean ====
section
/-! DEFINITION. Training of a target in its standard mode, and its entry into KX-DDR (R98, R99, R136 to R140, R146, R152). -/

namespace Sys2Proof.Machine

/-! ## Standard modes -/

/-- Engine ZQ codes within ZQ_LIM. -/
def zqOk (k : CalSec) (m : Train) : Bool := decide (k.puMin ≤ m.pu ∧ m.pu ≤ k.puMax ∧ k.pdMin ≤ m.pd ∧ m.pd ≤ k.pdMax)

/-- SET FEATURES of a target in asynchronous SDR timing mode 0 (R98, step 1): its interface and timing mode, and in DDR modes the drive strength,
termination and VREFQ that its set gives the die (R131), at the ONFI feature addresses (PRESUMED, log entry 118). -/
def trainFeatures (c t : Nat) (a : Applied) (s : State) : State :=
  let ws := setWords s c (setNo s c t)
  let p1 := (if a.mode = 0 then 0 else if a.mode = 1 then 1 else if a.mode = 4 then 3 else 2) * 16 + a.tm
  let s := s.setChan c { s.chan c with rb := (s.chan c).rb ||| (1#8 <<< t) }
  let s := (setRate c (sdrRate 0) (raiseCe c s)).put Fld.stkChmodeCurMode 0 c
  let s := featCycles c t 0x01 [p1, 0, 0, 0] s
  let s := if a.mode = 0 then s else featCycles c t 0x10 [setField ws 1 Fld.stkTsetW1DrvDie, 0, 0, 0] s
  let s := if a.mode ≤ 1 then s else featCycles c t 0x02 [setField ws 1 Fld.stkTsetW1OdtDie, 0, 0, 0] s
  raiseCe c (if a.mode ≤ 2 then s else featCycles c t 0x23 [setField ws 7 Fld.stkTsetW7VrefDie, 0, 0, 0] s)

/-- One attempt at the steps of R98 in a target's standard mode, with the guard bands of the occasion: whether it passed. Below 400 MT/s the
delays are 0 (R140). -/
def trainTry (c t : Nat) (gr gw : List Int) (m : Train) (s : State) : Bool × State :=
  let a := applied s c t
  let s := selectTarget c t (trainFeatures c t a s)
  let s := selectTarget c t (phyZq c m (raiseCe c s))
  let s := if dieZqMode a.mode a.rate then dieZq c t a.mode s else s
  let s := if a.mode = 0 then s else phyDuty c m s
  let s := if dieDccMode a.mode then dieDcc c t s else s
  if (dieZqMode a.mode a.rate && m.dieFail) || (decide (a.mode ≠ 0) && !m.dutyOk) then (false, raiseCe c s)
  else if !trainsDq a.mode a.rate then (true, raiseCe c (storeTrain (c * 8 + t) (List.replicate 8 0) (List.replicate 8 0) 0 0 s))
  else
    let s := raiseCe c (sweepPut c t a.mode 1 (sweepPut c t a.mode 0 s))
    match newCentres a.mode a.rate (gbOf gr a.mode) m.rd, newCentres a.mode a.rate (gbOf gw a.mode) m.wr with
    | some rd, some wr => (true, storeTrain (c * 8 + t) rd wr (gbOf gr a.mode) (gbOf gw a.mode) s)
    | _, _ => (false, s)

/-! ## KX-DDR -/

/-- The escape sequence applied to a KX-qualified target whose FL_RB_N is high (R152): the die is in asynchronous SDR timing mode 0, with FL_RB_N low
for a time; counted outside TARGET_RESET. -/
def escape (c t : Nat) (s : State) : State :=
  if !(s.profileAt (c * 8 + t)).kxQual || !(s.chan c).rb.getLsbD t then s
  else
    let s := raiseCe c ((busPut c (.escape (tMask t)) s).inc Fld.stkKxCntEscapes c)
    let s := (s.put Fld.stkChmodeCurMode 0 c).putFlag Fld.stkTgtcfgKx false (c * 8 + t)
    s.setChan c { s.chan c with rb := (s.chan c).rb &&& ~~~(1#8 <<< t), caSlow := (s.chan c).caSlow &&& ~~~(1#8 <<< t) }

/-- SET FEATURES of a KX-DDR entry (R146, step 2). -/
def kxSetFeatures (c t rate : Nat) (s : State) : State :=
  let set := s.get Fld.stkTgtcfgKxTset (c * 8 + t)
  let p1 : Nat := if rate = 7200 then 3 else if rate = 6400 then 2 else 1
  featCycles c t 0xB7 [p1, s.get Fld.stkTsetW1OdtDie (c * 16 + set), s.get Fld.stkTsetW1DrvDie (c * 16 + set), 0x4B] s

/-- A KX SET frame (Table 04-8). -/
def kxSet (c t adr v : Nat) (s : State) : State :=
  busPut c (.ca (tMask t) (caFrame [(0xE5, true), (BitVec.ofNat 8 adr, false), (BitVec.ofNat 8 v, false)] 0)) s

/-- A CA ECHO frame of random content and its answer: seven items of a free value's bytes (DESIGN CHOICE, log entry 120). -/
def kxEcho (c t : Nat) (s : State) (_ : Nat) : State :=
  let v := (s.fresh).1.toNat
  let items : List (Byte × Bool) := (0xE6, true) :: (List.range 7).map fun i => (byteOf v i, (byteOf v 7).getLsbD i)
  busPut c (.frameOut (tMask t) 10) (busPut c (.ca (tMask t) (caFrame items 9)) (s.fresh).2)

/-- One attempt at entry, with what it measures (R146, R148, Table 04-11): whether it passed. The rate changes in the entry busy time; a die that is
still busy then keeps FL_RB_N low. -/
def kxTry (c t rate : Nat) (gr gw : Int) (m : Train) (s : State) : Bool × State :=
  let s := raiseCe c (kxSetFeatures c t rate (selectTarget c t s))
  if !m.busyOk then (false, s.setChan c { s.chan c with rb := (s.chan c).rb &&& ~~~(1#8 <<< t) })
  else
    let s := selectTarget c t (s.putFlag Fld.stkTgtcfgKx true (c * 8 + t))
    let s := s.setChan c { s.chan c with caSlow := (s.chan c).caSlow ||| (1#8 <<< t) }
    let s := sweepPut c t 8 1 (sweepPut c t 8 0 s)
    match newCentres 8 rate gr m.rd, newCentres 8 rate gw m.wr with
    | some rd, some wr =>
      let s := kxSet c t 0 0 s
      let s := s.setChan c { s.chan c with caSlow := (s.chan c).caSlow &&& ~~~(1#8 <<< t) }
      let s := (List.range 16).foldl (kxEcho c t) s
      if m.echoOk then
        let s := busPut c (.frameOut (tMask t) 8) (kxPut c t 0x7C 7 s)
        (true, storeTrain (c * 8 + t) rd wr gr gw (raiseCe c s))
      else (false, raiseCe c s)
    | _, _ => (false, raiseCe c s)

/-- A target trained once: in its standard mode where `std` asks for it, then into KX-DDR where a rate is given; a failed entry is escaped (DESIGN
CHOICE, log entry 119). Entry is from a standard mode of 800 MT/s or more (R146). -/
def trainOnce (c t : Nat) (std : Bool) (kx : Option Nat) (gr gw : List Int) (m k : Train) (s : State) : Bool × State :=
  let r := if std then trainTry c t gr gw m s else (true, s)
  if !r.1 then r
  else
    let a := applied r.2 c t
    match kx with
    | none => r
    | some rate =>
      if a.mode = 0 ∨ a.rate < 800 then r
      else
        let e := kxTry c t rate (gbOf gr 8) (gbOf gw 8) k r.2
        if e.1 then e else (false, escape c t e.2)

/-- Training of a target, again once where it fails; a target that fails twice goes offline with code 0x33 (R99). -/
def trainTwice (c t : Nat) (std : Bool) (kx : Option Nat) (gr gw : List Int) (x : TrainSet) (s : State) : Bool × State :=
  let r := trainOnce c t std kx gr gw x.a x.ka s
  if r.1 then r
  else
    let q := trainOnce c t true kx gr gw x.b x.kb r.2
    if q.1 then q else (false, targetOff c t 0x33 q.2)

end Sys2Proof.Machine
end

