-- ==== Sys2Proof/Machine/Kx.lean ====
section
/-! DEFINITION. Timing sets of targets, entry to and exit from KX-DDR, deskew tracking, and FL_RB_N (chapter 4). -/

namespace Sys2Proof.Machine

/-! ## STK_TGTCFG (R130, R147, R151, R158) -/

/-- A field of STK_TGTCFG that names a set: written, or ignored and logged where the set has the wrong mode (R130; DEDUCED, log entry 19). -/
def setFieldWrite (f : Fld) (kx : Bool) (c t : Nat) (w : Word) (s : State) : State :=
  let n := f.get w
  if n = s.get f (c * 8 + t) then s
  else if (s.get Fld.stkTsetW0Mode (c * 16 + n) == 8) == kx then s.put f n (c * 8 + t)
  else s.logPacked uSTK 0x1001 [(1, c), (1, t)]

/-- KX_REQ as written; on an IG-7316 a request is refused, and logged once per channel (R2, R147). -/
def kxReqWrite (c t : Nat) (w : Word) (s : State) : State :=
  if Fld.stkTgtcfgKxReq.get w = 1 ∧ s.part = .ig7316 then logOnce c t 300 s
  else s.put Fld.stkTgtcfgKxReq (Fld.stkTgtcfgKxReq.get w) (c * 8 + t)

/-- The effect of a write of STK_TGTCFG of a target. -/
def tgtcfgWrite (c t : Nat) (w : Word) (s : State) : State :=
  let s := if Fld.stkTgtcfgKxFallbk.get w = 1 then s.putFlag Fld.stkTgtcfgKxFallbk false (c * 8 + t) else s
  let s := setFieldWrite Fld.stkTgtcfgTset false c t w s
  let s := setFieldWrite Fld.stkTgtcfgKxTset true c t w s
  kxReqWrite c t w s

/-- KX_REQ_WRITE (R146, R147). -/
def execKxReqWrite (r : Req) (c t : Nat) (w : Word) (s : State) : Out :=
  onlyIf (decide (c < 128 ∧ t < 8)) s (regWrite s r .stkTgtcfg (c * 8 + t) w (tgtcfgWrite c t w))

/-- TSET_WRITE (R129, R130). -/
def execTsetWrite (r : Req) (c t : Nat) (w : Word) (s : State) : Out :=
  onlyIf (decide (c < 128 ∧ t < 8)) s (regWrite s r .stkTgtcfg (c * 8 + t) w (tgtcfgWrite c t w))

/-! ## Entry and exit (R146 to R152) -/

/-- The slots that waited for a target's recovery start afresh; with a target that has gone offline they end with FRAME (R150, Table 05-8). -/
def slotsAfresh (c t : Nat) (ok : Bool) (s : State) : State :=
  let mine (x : Slot) : Bool := x.st == .retrain && slotTgt x == t
  let s := s.setChan c { s.chan c with fallen := (s.chan c).fallen.erase t }
  if ok then s.setChan c { s.chan c with slots := (s.chan c).slots.map fun e => if mine e.2 then (e.1, { e.2 with st := .ready }) else e }
  else ((s.chan c).slots.filter fun e => mine e.2).foldl (fun s e => endSlot c e.1 4 e.2 s) s

/-- The recovery of a target after a second frame error (R150): the escape, training in its standard mode, and entry again unless KX_REQ has been
cleared; then its operations are reissued. -/
def kxRecover (c t : Nat) (x : TrainSet) (s : State) : State :=
  let kx := if s.flag Fld.stkTgtcfgKxReq (c * 8 + t) then kxRate s c t else none
  let r := trainTwice c t true kx [] [] x (escape c t s)
  slotsAfresh c t r.1 r.2

/-- KX_ENTRY (R146, R148): at the target's next idle period; or the recovery of R150. `x`: what training measures, in the standard mode and in KX-DDR, in
the first and the second attempt. Entry outside start-up has no guard band (R561). -/
def execKxEntry (c t : Nat) (x : TrainSet) (s : State) : Out :=
  onlyIf (s.running && decide (c < 128 ∧ t < 8) && maintFirst s c && (mayRecover s c t || kxMayEnter s c t)) s
    (if mayRecover s c t then kxRecover c t x s else (trainTwice c t false (kxRate s c t) [] [] x s).2)

/-- KX_EXIT (R151): KX EXIT is sent at the target's next idle period; the rate changes back with the next selection (R128). -/
def execKxExit (c t : Nat) (s : State) : Out :=
  onlyIf (s.running && decide (c < 128 ∧ t < 8) && kxMayExit s c t && maintFirst s c) s
    (atRate c t (fun s =>
      (raiseCe c (kxPut c t 0xE1 0 (selectTarget c t s))).putFlag Fld.stkTgtcfgKx false (c * 8 + t)) s)

/-! ## Tracking (R154 to R156, R160) -/

/-- A bit's tracking is suspended while a target of the channel walks it (R564). -/
def walking (s : State) (c key : Nat) : Bool :=
  (List.range 8).any fun t => (Tab.find key (s.calT (c * 8 + t)).goal).isSome

/-- The offsets of one direction as their register shows them (Table 04-14). -/
def offsetsWord (x : Chan) (dir : Nat) : Word :=
  (List.range 8).foldl (fun w b =>
    w ||| (((BitVec.ofInt 32 (Tab.get ((0, 0, 0) : Int × Nat × Int) (dir * 8 + b) x.track).2.2) &&& 0xF) <<< (4 * b))) 0

/-- The offset registers brought to the tracking state. -/
def showOffsets (c : Nat) (s : State) : State :=
  (s.setReg .stkDskRd c (offsetsWord (s.chan c) 0)).setReg .stkDskWr c
    (if s.get Fld.stkChmodeCurMode c = 8 then offsetsWord (s.chan c) 1 else 0)

/-- Edges of a bit added to its tally (R154); the counters wrap at their width of 16 bits. -/
def addEdges (x : Tab (Int × Nat × Int)) (e : Nat × Nat × Nat) : Tab (Int × Nat × Int) :=
  let o := Tab.get (0, 0, 0) e.1 x
  Tab.set (0, 0, 0) e.1 (Int.bmod (o.1 + e.2.1 - e.2.2) 65536, (o.2.1 + e.2.1 + e.2.2) % 65536, o.2.2) x

/-- The evaluation of one bit (R154). -/
def trackBit (c key : Nat) (s : State) : State :=
  let x := s.chan c
  let o := Tab.get (0, 0, 0) key x.track
  if o.2.1 < 256 ∨ walking s c key then s
  else
    let step : Int := if 64 ≤ o.1 then 1 else if o.1 ≤ -64 then -1 else 0
    let ok := decide (-7 ≤ o.2.2 + step ∧ o.2.2 + step ≤ 7)
    let s := s.setChan c { x with track := Tab.set (0, 0, 0) key (0, 0, if ok then o.2.2 + step else o.2.2) x.track }
    if step = 0 then s
    else if ok then s.inc Fld.stkDskStsSteps c
    else
      let s := s.setBit .stkDskSts c ((if key < 8 then 24 else 16) + key % 8)
      queueSweep (onlineTargets s c) s

/-- TRACKING_EVAL: every µs, with no frame on the bus. `edges` lists the edges that the receivers have seen since the last evaluation, frame by frame, as
(bit, early, late, the frame's check passed): those of a frame that failed are discarded. The tallies of the write direction come from TALLY READ
(`takeTally`). -/
def execTrackingEval (c : Nat) (edges : List (Nat × Nat × Nat × Bool)) (s : State) : Out :=
  let mode := s.get Fld.stkChmodeCurMode c
  let dirs := if mode = 8 then 16 else 8
  onlyIf (s.coreOn && decide (c < 128) && s.flag Fld.stkChmodeTrackEn c && decide (mode ≠ 0 ∧ 400 ≤ s.get Fld.stkChmodeCurRate c)
      && (s.chan c).act.isNone && !rateLocked s c && decide ((s.chan c).lastStep + 1000 ≤ s.now)) s
    (let es := (edges.filter fun e => decide (e.1 < 8) && !walking s c e.1 && e.2.2.2).map fun e => (e.1, e.2.1, e.2.2.1)
     let x := s.chan c
     let s := s.setChan c { x with track := es.foldl addEdges x.track, lastStep := s.now }
     showOffsets c ((List.range dirs).foldl (fun s key => trackBit c key s) s))

/-! ## FL_RB_N -/

/-- RB_RISE (R169, R176, R196, R197): the level of FL_RB_N of a target is seen high; the slots and raw reads that wait on it proceed at
the next switch point, and a target whose raw window has been closed returns to the scheduler. -/
def execRbRise (c t : Nat) (s : State) : Out :=
  onlyIf (s.coreOn && decide (c < 128 ∧ t < 8)) s
    (let x := s.chan c
     s.setChan c { x with rb := x.rb ||| (1#8 <<< t), rawOut := if x.rawOut = some t then none else x.rawOut })

end Sys2Proof.Machine
end

