-- ==== Sys2Proof/Machine/Calib.lean ====
section
/-! DEFINITION. Calibration runs (chapter 15): triggers, the steps of a run, plausibility, application, the media step, the ledger, walks and
the sweep deadline. -/

namespace Sys2Proof.Machine

/-! ## Triggers (R557 to R559, R576) -/

/-- THRESH in 1/128 °C and MIN_GAP in ns, as they act (R576). -/
def calThresh (s : State) : Int := 64 * max 1 (s.get Fld.calCtlThresh)
def calGap (s : State) : Nat := max 100 (s.get Fld.calCtlMinGap) * 1000000

/-- T_g of a channel group (R557). -/
def tempOf (s : State) (g : Nat) : Int := Tab.get 0 g s.cal.tg

/-- T_g is known at present: source 40 + g is populated, has delivered, and is not stale (R558). -/
def tempLive (s : State) (g : Nat) : Option Int :=
  if populated s (40 + g) && (s.sense (40 + g)).stale.isNone then (s.sense (40 + g)).last else none

/-- The online targets of a channel group that the temperature trigger queues. -/
def hotTargets (s : State) (g : Nat) : List Nat :=
  ((List.range 8).flatMap fun c => onlineTargets s (8 * g + c)).filter fun ti =>
    let x := s.calT ti
    let d := tempOf s g - x.tlast
    decide (calThresh s < d.natAbs) && (match x.endAt with
      | none => true
      | some t => decide (t + calGap s ≤ s.now))

/-- One group's sample. -/
def sampleTemp (g : Nat) (s : State) : State :=
  match tempLive s g with
  | none => s
  | some t =>
    let s := { s with cal := { s.cal with tg := Tab.set 0 g t s.cal.tg } }
    let l := if s.flag Fld.calCtlEn then hotTargets s g else []
    if l.isEmpty then s else queueSweep l s

/-- CAL_TEMP_SAMPLE (R557, R558): once per ms. -/
def execCalTempSample (s : State) : Out :=
  onlyIf (s.running && decide (s.cal.tempAt + 1000000 ≤ s.now)) s
    ((List.range 16).foldl (fun s g => sampleTemp g s) { s with cal := { s.cal with tempAt := s.now } })

/-- The effect of a write of CAL_REQ (R557, R576). -/
def calReqWrite (w : Word) (s : State) : State :=
  if Fld.calReqGo.get w = 0 then s
  else
    let c := Fld.calReqCh.get w
    queueSweep (((List.range 8).filter fun t => (Fld.calReqTmask.get w).testBit t).map (c * 8 + ·)) s

/-- CAL_REQ_GO (R557). -/
def execCalReqGo (r : Req) (w : Word) (s : State) : Out := .next (regWrite s r .calReq 0 w (calReqWrite w))

/-! ## Runs (R553 to R556, R559) -/

def State.calCh (s : State) (c : Nat) : CalCh := Tab.get {} c s.cal.chs
def State.setCalCh (s : State) (c : Nat) (x : CalCh) : State := { s with cal := { s.cal with chs := Tab.set {} c x s.cal.chs } }

/-- The mode and rate a target is trained at (R553). -/
def trainMode (s : State) (c t : Nat) : Nat × Nat :=
  ((applied s c t).mode, (applied s c t).rate)

/-- CAL_RUN_START (R553, R559): the channel's next queued target, on the maintenance slot. -/
def execCalRunStart (c : Nat) (s : State) : Out :=
  match Tab.get [] c s.cal.queue with
  | [] => .next s
  | (t, n) :: r =>
    onlyIf (s.running && s.stage == 9 && !flushing s && decide (c < 128) && (Tab.find c s.cal.runs).isNone && maintFirst s c) s
      (let s : State := { s with cal := { s.cal with queue := Tab.set [] c r s.cal.queue } }
       if !s.flag Fld.stkTgtcfgOnline (c * 8 + t) then sweepDone n (c * 8 + t) s
       else
         let x := Tab.get {} n s.cal.sweeps
         let x := if x.start.isNone then { x with start := some s.now } else x
         { s with cal := { s.cal with
             runs := Tab.put c { tgt := t, sweep := n } s.cal.runs
             sweeps := Tab.put n x s.cal.sweeps } })

/-! ## Plausibility and application (R560 to R562, R564, R565) -/

/-- A plausibility failure (R560). -/
def calFail (c t : Nat) (s : State) : State :=
  (s.inc Fld.calStsFails).logEntry uCAL 0x1014 (packBytes [(1, c), (1, t)]) (1#64 <<< 63)

/-- Die ZQ in a run: R556 allows it. -/
def dieZqMay (s : State) (c t : Nat) : Bool :=
  let p := s.profileAt (c * 8 + t)
  decide (p.tzqcl ≤ p.trMax) && (List.range 4).all fun l =>
    let k := lunKey c t l
    (s.inSlot k).isNone && (s.lun k).er.isNone && !((s.lun k).queue.any fun w => decide (w.cls ≤ 1)) && !((s.lun k).op.any fun o => decide (o.cls ≤ 1))

/-- The effective delay of a bit (R564): its stored centre and the channel's tracking offset. -/
def effDelay (s : State) (c t key : Nat) : Int :=
  Tab.get 0 key (s.calT (c * 8 + t)).centre + (Tab.get ((0, 0, 0) : Int × Nat × Int) key (s.chan c).track).2.2

/-- New centres lie within DRIFT_MAX of the present effective delays (R560). -/
def driftOk (s : State) (c t dir : Nat) (l : List Int) : Bool :=
  l.zipIdx.all fun x => decide ((x.1 - effDelay s c t (dir * 8 + x.2)).natAbs ≤ s.img.cal.driftMax)

/-- The tracking offsets of a channel folded into the stored centres of its targets (R564, step 1). -/
def foldOffsets (c : Nat) (s : State) : State :=
  let x := s.chan c
  let offs := x.track.filter fun e => decide (e.2.2.2 ≠ 0)
  let s := (List.range 8).foldl (fun s t =>
    let y := s.calT (c * 8 + t)
    s.setCalT (c * 8 + t) { y with centre := offs.foldl (fun m e => Tab.set 0 e.1 (Tab.get 0 e.1 m + e.2.2.2) m) y.centre }) s
  showOffsets c (s.setChan c { x with track := x.track.map fun e => (e.1, (e.2.1, e.2.2.1, 0)) })

/-- Goals for the bits of one direction; a bit that stands at its new centre does not walk. -/
def setGoals (dir : Nat) (l : List Int) (x : CalTgt) : CalTgt :=
  l.zipIdx.foldl (fun x e =>
    let key := dir * 8 + e.2
    if Tab.get 0 key x.centre = e.1 then { x with goal := Tab.del key x.goal } else { x with goal := Tab.put key e.1 x.goal }) x

/-- The training of one direction judged and applied: whether a bit failed its training, whether the set failed Table 15-3, and the state. -/
def applyDir (c t dir mode rate : Nat) (gb : Int) (bits : List (BitVec 129)) (s : State) : Bool × Bool × State :=
  if bits.length ≠ 8 ∨ !(bits.all fun b => runWide mode rate (widestRun b)) then (true, false, s)
  else
    match newCentres mode rate gb bits with
    | none => (false, true, s)
    | some l =>
      if !driftOk s c t dir l then (false, true, s)
      else
        let s := foldOffsets c s
        let x := setGoals dir l (s.calT (c * 8 + t))
        let x := if dir = 0 then { x with gbRd := gb } else { x with gbWr := gb }
        (false, false, s.setCalT (c * 8 + t) x)

/-- Steps 1 to 6 of a run, with what they measure (Table 15-1) (DESIGN CHOICE, log entry 56). -/
def runSteps (c : Nat) (u : CalRun) (m : Train) (s : State) : State :=
  let t := u.tgt
  let k := s.img.cal
  let mr := trainMode s c t
  let sw := Tab.get {} u.sweep s.cal.sweeps
  -- 1: engine ZQ, once per sweep and channel
  let doZq := !sw.zq.contains c
  let s : State := if doZq then { s with cal := { s.cal with sweeps := Tab.put u.sweep { sw with zq := c :: sw.zq } s.cal.sweeps } } else s
  let f1 := doZq && !zqOk k m
  let s := if doZq && zqOk k m then s.setCalCh c { s.calCh c with puGoal := m.pu, pdGoal := m.pd } else s
  let s := if f1 then calFail c t s else s
  -- 2: die ZQ
  let doDie := dieZqMode mr.1 mr.2 && dieZqMay s c t
  let s := selectTarget c t s
  let s := if doDie then dieZq c t mr.1 s else s
  let f2 := doDie && m.dieFail
  let s := if f2 then calFail c t s else s
  -- 3: duty cycle
  let f3 := decide (mr.1 ≠ 0) && !(m.dutyOk && decide (m.dcc.natAbs ≤ k.dccMax))
  let s := if mr.1 ≠ 0 ∧ !f3 then s.setCalCh c { s.calCh c with dccGoal := m.dcc } else s
  let s := if f3 then calFail c t s else s
  let s := if dieDccMode mr.1 then dieDcc c t s else s
  -- 4 and 5: read and write training, with the guard band of an idle run (R561)
  let gb (l : List Int) : Int := if u.idle then gbOf l mr.1 else 0
  let s := if trainsDq mr.1 mr.2 then sweepPut c t mr.1 1 (sweepPut c t mr.1 0 s) else s
  let s := raiseCe c s
  let x := if trainsDq mr.1 mr.2 then applyDir c t 0 mr.1 mr.2 (gb k.gbRd) m.rd s else (false, false, s)
  let s := if x.2.1 then calFail c t x.2.2 else x.2.2
  let y := if trainsDq mr.1 mr.2 then applyDir c t 1 mr.1 mr.2 (gb k.gbWr) m.wr s else (false, false, s)
  let s := if y.2.1 then calFail c t y.2.2 else y.2.2
  let result : Nat := if f1 || f2 || f3 || x.2.1 || y.2.1 then 2 else if x.1 || y.1 then 4 else 1
  let luns := ((List.range 4).map (lunKey c t)).filter s.online
  { s with cal := { s.cal with runs := Tab.put c { u with six := true, result := result, media := luns } s.cal.runs } }

/-- The end of a run that reached step 6 (R567). -/
def runEnds (c : Nat) (u : CalRun) (s : State) : State :=
  let ti := c * 8 + u.tgt
  let g := c / 8
  let x := s.calT ti
  let s := s.setCalT ti { x with
    tlast := if (tempLive s g).isSome then tempOf s g else x.tlast
    result := u.result
    runs := min 0xFFFF (x.runs + 1)
    endAt := some s.now }
  let s := s.inc Fld.calCntCnt
  let s := (s.setReg .calLastLo 0 (wordOf s.now 0)).setReg .calLastHi 0 (wordOf s.now 1)
  let s := s.logPacked uCAL 0x1014 [(1, c), (1, u.tgt)] [(1, u.result), (2, (BitVec.ofInt 16 (tempOf s g)).toNat), (4, s.get Fld.calCntCnt)]
  sweepDone u.sweep ti { s with cal := { s.cal with runs := Tab.del c s.cal.runs } }

/-- CAL_RUN_END (R553, R560 to R567): steps 1 to 6 with what they measure; once the media step and the ledger write have followed on every
online LUN, the run ends. -/
def execCalRunEnd (c : Nat) (m : Train) (s : State) : Out :=
  match Tab.find c s.cal.runs with
  | none => .next s
  | some u =>
    if !u.six then onlyIf (s.running && maintFirst s c) s (atRate c u.tgt (runSteps c u m) s)
    else onlyIf (s.running && u.media.isEmpty && u.wait.isEmpty && u.ledger.isEmpty) s (runEnds c u s)

/-! ## The media step (R568) -/

/-- The run that serves a LUN. -/
def runOf (s : State) (k : Nat) : Option CalRun :=
  match Tab.find (lunCh k) s.cal.runs with
  | some u => if u.tgt = lunTgt k then some u else none
  | none => none

def State.modRun (s : State) (k : Nat) (f : CalRun → CalRun) : State :=
  { s with cal := { s.cal with runs := Tab.modify (lunCh k) f s.cal.runs } }

/-- The non-SLC units of a LUN in one of some states. -/
def lunUnits (s : State) (k : Nat) (sts : List Nat) : List (Nat × UnitE) :=
  s.md.units.filter fun e => unitLun e.1 == k && sts.contains e.2.estate && !e.2.slc

/-- The `n` units with the latest CLOSE_TIME. -/
def latestUnits : Nat → List (Nat × UnitE) → List (Nat × UnitE)
  | 0, _ => []
  | n + 1, l =>
    match l with
    | [] => []
    | a :: r =>
      let m := r.foldl (fun a b => if a.2.closeAt < b.2.closeAt then b else a) a
      m :: latestUnits n (l.erase m)

/-- The blocks of some units of a LUN. -/
def unitBlocks (s : State) (k : Nat) (l : List (Nat × UnitE)) : List Nat :=
  let p := s.profile k
  l.flatMap fun e => (List.range p.planes).map (unitNo e.1 * p.planes + ·)

/-- A block's gauge line: from the cache, or as it was fetched from appliance DRAM; none where that fetch failed with DECERR (R261). -/
def lineOf (s : State) (k b : Nat) : Option GLine :=
  match Tab.find (blockKey k b) s.md.gauge with
  | some l => some l
  | none =>
    match Tab.find (blockKey k b) s.cal.lines with
    | some d => if d.length = 64 then some (glineOf (gaugeIndex s k b) d) else none
    | none => none

/-- Of some blocks, those whose lines are yet to be had. -/
def linesMissing (s : State) (k : Nat) (bs : List Nat) : List Nat :=
  bs.filter fun b => (Tab.find (blockKey k b) s.md.gauge).isNone && (Tab.find (blockKey k b) s.cal.lines).isNone

/-- A fetch of a gauge line for a media step or a ledger is out. -/
def lineAsked (s : State) (key : Nat) : Bool :=
  (s.fab.outst.any fun o => o.purpose == .calLine key) || (s.fab.waiting.any fun w => w.2 == .calLine key)
    || s.fab.held.any fun w => w.2 == .calLine key

/-- The gauge lines of some blocks fetched, as class-3 work (R260, R689). -/
def fetchLines (k : Nat) (bs : List Nat) (s : State) : State :=
  bs.foldl (fun s b => if lineAsked s (blockKey k b) then s else dramRead (gaugeAddr s k b) 64 3 (.calLine (blockKey k b)) s) s

/-- What is done with the lines of some blocks once all are at hand; until then those missing are fetched. -/
def withLines (k : Nat) (bs : List Nat) (f : State → State) (s : State) : State :=
  if (linesMissing s k bs).isEmpty then f s else fetchLines k (linesMissing s k bs) s

/-- The fetched lines of a LUN let go. -/
def dropLines (k : Nat) (s : State) : State :=
  { s with cal := { s.cal with lines := s.cal.lines.filter fun e => e.1 / 2 ^ 24 != k } }

/-- The sample reads of a unit: every codeword of each page type at the sample word lines, in each of its blocks. -/
def sampleReads (s : State) (k : Nat) (x : Nat) : List (Page × Nat) :=
  let p := s.profile k
  (List.range p.planes).flatMap fun b => (sampleLines p).flatMap fun w => (List.range p.cellBits).flatMap fun t => (List.range p.cwPerPage).map fun cw =>
    (⟨k, unitNo x * p.planes + b, w * p.cellBits + t, false⟩, cw)

/-- A sample read's want: class 3, at the offsets of its gauge line, no ladder step. -/
def sampleWant (s : State) (k : Nat) (e : Page × Nat) : Want := {
  why := .sample k
  cls := 3
  rtag := 0
  kind := 0
  page := e.1
  cw := e.2
  offs := readOffs s e.1
  step := 0
  front := false
  data := []
  optype := 0
  arg := 0
  since := 0 }

/-- The media step begins: the lines of the sampled units stand in the cache, are recorded, and the reads are queued. -/
def mediaBegin (k : Nat) (us : List (Nat × UnitE)) (s : State) : State :=
  let bs := unitBlocks s k us
  let s := bs.foldl (fun s b => match Tab.find (blockKey k b) s.md.gauge, lineOf s k b with
    | none, some l => gaugeFill (blockKey k b) 3 l s
    | _, _ => s) s
  let rs := us.flatMap fun e => sampleReads s k e.1
  let before := bs.filterMap fun b => (lineOf s k b).map fun l => (b, l.off)
  let s := dropLines k s
  let s := { s with cal := { s.cal with samples := Tab.put k { left := rs, before := before } s.cal.samples } }
  let s := s.modRun k fun u => { u with media := u.media.erase k, wait := u.wait ++ [k] }
  enqueueAll (rs.map (sampleWant s k)) s

/-- The mean change of each offset over the recorded lines, truncated toward zero. -/
def mediaDelta (s : State) (k : Nat) (before : List (Nat × List Int)) : List Int :=
  (List.range 32).map fun j =>
    let ds := before.map fun e => (((lineOf s k e.1).map fun l => (l.off[j]?).getD 0).getD ((e.2[j]?).getD 0)) - (e.2[j]?).getD 0
    Int.tdiv (ds.foldl (· + ·) 0) (max 1 ds.length)

/-- A line re-seeded by the mean change: limited to seed ± SPAN, with ACC 0 for each level it changes. -/
def reseedLine (s : State) (k : Nat) (d : List Int) (l : GLine) : GLine :=
  let seed := seedsOf (s.profile k) false
  let span : Int := s.get Fld.cryGaugeCfgSpan
  let at_ (x : List Int) (j : Nat) : Int := (x[j]?).getD 0
  let new (j : Nat) : Int := clampI (at_ seed j - span) (at_ seed j + span) (at_ l.off j + at_ d j)
  let moved (j : Nat) : Bool := decide (at_ d j ≠ 0)
  { l with
    off := (List.range 32).map fun j => if moved j then new j else at_ l.off j
    acc := (List.range 32).map fun j => if moved j && new j != at_ l.off j then 0 else at_ l.acc j
    dirty := true }

/-- The re-seed of a LUN. -/
def reseed (k : Nat) (d : List Int) (s : State) : State :=
  (unitBlocks s k (lunUnits s k [2, 3])).foldl (fun s b =>
    match lineOf s k b with
    | none => s
    | some l =>
      let n := reseedLine s k d l
      if (Tab.find (blockKey k b) s.md.gauge).isSome then { s with md := { s.md with gauge := Tab.put (blockKey k b) n s.md.gauge } }
      else dramWrite (gaugeAddr s k b) 3 (glineBytes n) (.gaugeWrite (blockKey k b)) s) s

/-- A LUN's media step is over; its ledger write follows where LEDGER_EN is 1. -/
def mediaOver (k : Nat) (s : State) : State :=
  let s := dropLines k { s with cal := { s.cal with samples := Tab.del k s.cal.samples } }
  s.modRun k fun u => { u with
    media := u.media.erase k
    wait := u.wait.erase k
    ledger := if s.flag Fld.calCtlLedgerEn && s.online k then u.ledger ++ [k] else u.ledger }

/-- MEDIA_STEP (R568): the gauge lines of the sampled units that are not in the cache are fetched, then the sample reads are queued; once all have
ended, the lines that Δ and the re-seed need are fetched in the same way, and the LUN is re-seeded. -/
def execMediaStep (k : Nat) (s : State) : Out :=
  match runOf s k with
  | none => .next s
  | some u =>
    if u.media.contains k then
      let us := latestUnits 4 (lunUnits s k [3])
      if us.isEmpty ∨ !s.online k then onlyIf s.running s (mediaOver k s)
      else onlyIf s.running s (withLines k (unitBlocks s k us) (mediaBegin k us) s)
    else if u.wait.contains k then
      match Tab.find k s.cal.samples with
      | none => onlyIf s.running s (mediaOver k s)
      | some x =>
        onlyIf (s.running && x.left.isEmpty) s
          (withLines k (x.before.map (·.1)) (fun s =>
            let d := mediaDelta s k x.before
            if d.all (· == 0) then mediaOver k s
            else withLines k (unitBlocks s k (lunUnits s k [2, 3])) (fun s => mediaOver k (reseed k d s)) s) s)
    else .next s

/-! ## The ledger (R570 to R573) -/

/-- Whole hours since a unit's CLOSE_TIME; a later one counts as age 0. -/
def ageHours (s : State) (u : UnitE) : Nat := (s.now - u.closeAt) / 3600000000000

/-- The bin of an age: the first whose bound is at or above it. -/
def binOf (age : List Nat) (h : Nat) : Nat := (age.findIdx? fun a => decide (h ≤ a)).getD 15

/-- The blocks of each bin (R573): bin, and the line's offsets. -/
def binLines (s : State) (k : Nat) : List (Nat × List Int) :=
  (lunUnits s k [3]).flatMap fun e =>
    (unitBlocks s k [e]).filterMap fun b => (lineOf s k b).map fun l => (binOf s.img.cal.age (ageHours s e.2), l.off)

/-- A bin's mean offsets, truncated toward zero; 0 when it is empty. -/
def binMean (l : List (List Int)) : List Int :=
  (List.range 32).map fun j => Int.tdiv ((l.map fun o => (o[j]?).getD 0).foldl (· + ·) 0) (max 1 l.length)

/-- Signed bytes. -/
def sBytes (n : Nat) (x : Int) : List Byte := numBytes n (BitVec.ofInt (8 * n) x).toNat

/-- The word CAL_CDAT2 shows of a target and direction (Table 15-7). -/
def cdat2 (s : State) (ti dir : Nat) : Word :=
  let x := s.calCh (ti / 8)
  let y := s.calT ti
  let b (v : Int) : Word := (BitVec.ofInt 8 v).setWidth 32
  (b x.pu <<< 24) ||| (b x.pd <<< 16) ||| (b x.dcc <<< 8) ||| b (if dir = 0 then y.gbRd else y.gbWr)

/-- The ledger data field (Table 15-6). -/
def ledgerField (s : State) (k lseq : Nat) : List Byte :=
  let ti := tgtIdx k
  let x := s.calT ti
  let bins := binLines s k
  let inBin (b : Nat) : List (List Int) := (bins.filter fun e => e.1 == b).map (·.2)
  let ctr (dir : Nat) : List Byte := (List.range 8).flatMap fun i => sBytes 1 (Tab.get 0 (dir * 8 + i) x.centre)
  let body := numBytes 4 0x5247444C ++ numBytes 2 1 ++ numBytes 1 (s.get Fld.stkTgtcfgProfile ti) ++ numBytes 1 (trainMode s (lunCh k) (lunTgt k)).1
    ++ numBytes 4 (s.profile k).ver ++ sBytes 2 (tempOf s (lunCh k / 8)) ++ numBytes 2 0 ++ numBytes 8 lseq ++ numBytes 8 s.now
    ++ ctr 0 ++ ctr 1 ++ numBytes 4 (cdat2 s ti (s.get Fld.calCselDir)).toNat ++ numBytes 4 (s.get Fld.calCntCnt) ++ numBytes 8 0
    ++ (List.range 16).flatMap (fun i => numBytes 4 ((s.img.cal.age[i]?).getD 0))
    ++ (List.range 16).flatMap (fun b => numBytes 2 (min 0xFFFF (inBin b).length))
    ++ (List.range 16).flatMap (fun b => (binMean (inBin b)).flatMap (sBytes 1))
    ++ List.replicate 3420 0
  body ++ numBytes 4 (crc32c body).toNat

/-- Where a LUN's ledger lives: its first unit, and the first block of the unit in use (R570). -/
def ledgerUnit (s : State) (k : Nat) (second : Bool) : Nat := unitKey k ((s.profile k).unitsPerLun - 2 + second.toNat)
def ledgerBlock (s : State) (k : Nat) (second : Bool) : Nat := unitNo (ledgerUnit s k second) * (s.profile k).planes

def State.ledgerOf (s : State) (k : Nat) : Ledger := Tab.get {} k s.cal.ledgers
def State.setLedger (s : State) (k : Nat) (l : Ledger) : State := { s with cal := { s.cal with ledgers := Tab.put k l s.cal.ledgers } }

/-- One ledger page programmed at the frontier (R571, R572). -/
def ledgerPage (k : Nat) (s : State) : State :=
  let l := s.ledgerOf k
  let g : Page := ⟨k, ledgerBlock s k l.second, l.page, true⟩
  let f := ledgerField s k (l.lseq + 1)
  let hdr := metaBytes (metaHead 0 s.hid kJournal (l.lseq + 1) 0 0 0xFFFF) f
  let cws := (List.range (s.profile k).cwPerPage).map fun cw => encodeMember s g cw f hdr
  let s := s.setLedger k { l with page := l.page + 1, lseq := l.lseq + 1, at_ := some s.now }
  enqueue (progWant (.ledger k) 3 1 0 g [pageBytes s g cws false]) s

/-- A ledger write of the LUN is queued or in flight, or its other unit is being erased. -/
def ledgerBusy (s : State) (k : Nat) : Bool :=
  let mine (w : Want) : Bool := match w.why with
    | .ledger _ => true
    | .erase x => isLedger s x
    | _ => false
  (s.lun k).queue.any mine || ((s.lun k).op.any fun o => o.wants.any mine) || ((s.inSlot k).any fun x => x.op.wants.any mine)
    || (s.lun k).er.any fun e => e.op.wants.any mine

/-- The LUN's write is done with, as far as its run goes. -/
def ledgerLeaves (k : Nat) (s : State) : State := if (runOf s k).isSome then s.modRun k fun u => { u with ledger := u.ledger.erase k } else s

/-- LEDGER_WRITE (R570 to R573): one page, at most once per 60 s; a later run within that time folds into the next write; a full unit has the
other one erased first. -/
def execLedgerWrite (k : Nat) (s : State) : Out :=
  let inRun := (runOf s k).any fun u => u.ledger.contains k
  let l := s.ledgerOf k
  let soon := l.at_.any fun t => decide (s.now < t + 60000000000)
  if !(inRun || s.cal.due.contains k) then .next s
  else if !s.online k then onlyIf s.running s (ledgerLeaves k { s with cal := { s.cal with due := s.cal.due.erase k } })
  else if soon then
    onlyIf (s.running && inRun) s (ledgerLeaves k { s with cal := { s.cal with due := k :: s.cal.due.erase k } })
  else if (s.profile k).wlPerBlk ≤ l.page then
    onlyIf (s.running && !ledgerBusy s k) s (queueErase (ledgerUnit s k (!l.second)) s)
  else
    onlyIf (s.running && !ledgerBusy s k) s
      (withLines k (unitBlocks s k (lunUnits s k [3])) (fun s =>
        ledgerLeaves k (dropLines k (ledgerPage k { s with cal := { s.cal with due := s.cal.due.erase k } }))) s)

/-! ## Walks (R564, R565) -/

/-- One step of a value toward a goal. -/
def stepTo (x g : Int) : Int := if x < g then x + 1 else if g < x then x - 1 else x

/-- One step of every walking bit of a target; a bit that arrives stops walking, and a tracking limit raised during the walk clears. -/
def walkTarget (c t : Nat) (s : State) : State :=
  let x := s.calT (c * 8 + t)
  x.goal.foldl (fun s e =>
    let y := s.calT (c * 8 + t)
    let n := stepTo (Tab.get 0 e.1 y.centre) e.2
    let y := { y with centre := Tab.set 0 e.1 n y.centre, goal := if n = e.2 then Tab.del e.1 y.goal else y.goal }
    let s := s.setCalT (c * 8 + t) y
    if n = e.2 then s.clrBit .stkDskSts c ((if e.1 < 8 then 24 else 16) + e.1 % 8) else s) s

/-- CAL_WALK_STEP (R564): at most once per µs, and only with no burst on the channel. -/
def execCalWalkStep (c : Nat) (s : State) : Out :=
  let x := s.calCh c
  onlyIf (s.coreOn && decide (c < 128) && (s.chan c).act.isNone && !rateLocked s c && decide (x.walkAt + 1000 ≤ s.now)) s
    (let s := s.setCalCh c { x with
       pu := stepTo x.pu x.puGoal
       pd := stepTo x.pd x.pdGoal
       dcc := stepTo x.dcc x.dccGoal
       walkAt := s.now }
     (List.range 8).foldl (fun s t => walkTarget c t s) s)

/-! ## The sweep deadline (R566) -/

/-- A target of a sweep abandoned, queued or running before step 6: RESULT 0x3. -/
def abandonTgt (ti : Nat) (s : State) : State := s.setCalT ti { s.calT ti with result := 3, endAt := some s.now }

/-- The LUNs of a run whose steps 7 and 8 have not finished. -/
def unfinished (u : CalRun) : List Nat := (u.media ++ u.wait ++ u.ledger).eraseDups

/-- The queued sample reads of a LUN given up, with its part of the run. -/
def dropSamples (k : Nat) (s : State) : State :=
  let mine (w : Why) : Bool := w == .sample k
  let s := modLun k (fun l => { l with queue := l.queue.filter fun w => !mine w.why }) s
  dropLines k { s with cal := { s.cal with samples := Tab.del k s.cal.samples } }

/-- One target of the sweep at its deadline: the LUNs it leaves unchanged, and the state. -/
def cutTarget (n ti : Nat) (s : State) : Nat × State :=
  let c := ti / 8
  let luns := (((List.range 4).map (lunKey c (ti % 8))).filter s.online).length
  let queued := (Tab.get [] c s.cal.queue).any fun e => e.1 == ti % 8 && e.2 == n
  let s : State := { s with cal := { s.cal with queue := Tab.set [] c ((Tab.get [] c s.cal.queue).filter fun e => !(e.1 == ti % 8 && e.2 == n)) s.cal.queue } }
  match Tab.find c s.cal.runs with
  | some u =>
    if u.tgt = ti % 8 ∧ u.sweep = n then
      if u.six then
        let l := unfinished u
        let s := l.foldl (fun s k => dropSamples k s) s
        (l.length, { s with cal := { s.cal with runs := Tab.put c { u with media := [], wait := [], ledger := [] } s.cal.runs } })
      else (luns, sweepDone n ti (abandonTgt ti { s with cal := { s.cal with runs := Tab.del c s.cal.runs } }))
    else if queued then (luns, sweepDone n ti (abandonTgt ti s)) else (0, s)
  | none => if queued then (luns, sweepDone n ti (abandonTgt ti s)) else (0, s)

/-- CAL_SWEEP_DEADLINE (R566): with more than 1,024 LUNs online, MS ms after the sweep's first run started. -/
def execCalSweepDeadline (n : Nat) (s : State) : Out :=
  let x := Tab.get {} n s.cal.sweeps
  match x.start with
  | none => .next s
  | some t =>
    onlyIf (s.running && decide (1024 < (onlineLuns s).length) && decide (t + max 1 (s.get Fld.calDeadlineMs) * 1000000 ≤ s.now) && !x.left.isEmpty) s
      (let r := x.left.foldl (fun (a : Nat × State) ti => let y := cutTarget n ti a.2; (a.1 + y.1, y.2)) (0, s)
       if r.1 = 0 then r.2 else (r.2.inc Fld.calDlmissLuns 0 r.1).inc Fld.calDlmissSweeps)

/-! ## The words CAL_CDAT0, CAL_CDAT1, CAL_CSTS and CAL_CTIME show -/

/-- The target that CAL_CSEL names. -/
def calSel (s : State) : Nat := s.get Fld.calCselCh * 8 + s.get Fld.calCselTgt

/-- Four stored centres as a word, from a bit on (DEDUCED, log entry 57). -/
def cdatWord (s : State) (lo : Nat) : Word :=
  (List.range 4).foldl (fun w i =>
    w ||| (((BitVec.ofInt 8 (Tab.get 0 (s.get Fld.calCselDir * 8 + lo + i) (s.calT (calSel s)).centre)).setWidth 32) <<< (8 * i))) 0

/-- CAL_CSTS and CAL_CTIME. -/
def cstsWord (s : State) : Word :=
  let x := s.calT (calSel s)
  (((BitVec.ofInt 8 (Int.tdiv x.tlast 128)).setWidth 32) <<< 24) ||| (BitVec.ofNat 32 (x.result % 16) <<< 20) ||| BitVec.ofNat 32 (x.runs % 65536)
def ctimeWord (s : State) : Word := BitVec.ofNat 32 (((s.calT (calSel s)).endAt.getD 0) / 2 ^ 20)

/-- Targets queued and not started; a run is in progress. -/
def calPend (s : State) : Nat := s.cal.queue.foldl (fun n e => n + e.2.length) 0
def calActive (s : State) : Bool := !s.cal.runs.isEmpty

end Sys2Proof.Machine
end

