-- ==== Sys2Proof/Machine/Interrupts.lean ====
section
/-! DEFINITION. The interrupt controller (chapter 16): sourceReady sources, claim, end of interrupt,
IRQ_OUT and WAKE_OUT, and the meaning of its commands. -/

namespace Sys2Proof.Machine

/-- The ID of a source (Table 16-1, R577). -/
def sourceId : Source → Nat
  | .priv _ k => k
  | .shared i => 0x800 + i

/-- The priority of a source (R579); BANKED and TRIP have the fixed priority 15 (R580). -/
def sourcePrio (s : State) : Source → Nat
  | .priv t k =>
    if k = 48 ∨ k = 49 then 15
    else ((s.reg .sicPprio (t * 8 + k / 8)) >>> (4 * (k % 8))).toNat % 16
  | .shared i => s.get Fld.sicRoutePrio i

/-- The target of a source (R579). -/
def sourceTarget (s : State) : Source → Nat
  | .priv t _ => t
  | .shared i => s.get Fld.sicRouteTgt i

/-- A source's mask bit. -/
def sourceMasked (s : State) : Source → Bool
  | .priv t k => if k < 32 then s.bit .sicPmskLo t k else s.bit .sicPmskHi t (k - 32)
  | .shared i => s.bit .sicSmsk (i / 32) (i % 32)

/-- A source's pending bit. -/
def sourcePending (s : State) (x : Source) : Bool :=
  s.bit (pendBit x).1 (pendBit x).2.1 (pendBit x).2.2

/-- The threshold stack of a target, newest claim first. -/
def sicStackOf (s : State) (t : Nat) : List (Nat × Nat) := Tab.get [] t s.sicStack

/-- The current threshold of a target: the priority of its newest claim in service, else BASE
(R583, R587). -/
def threshold (s : State) (t : Nat) : Nat :=
  match sicStackOf s t with
  | [] => s.get Fld.sicThrBase t
  | (_, p) :: _ => p

/-- A source is sourceReady at its target (R581). -/
def sourceReady (s : State) (x : Source) : Bool :=
  sourcePending s x && !sourceMasked s x && decide (threshold s (sourceTarget s x) < sourcePrio s x)

/-- The shared sources that are pending. -/
def pendingShared (s : State) : List Nat :=
  (List.range 64).flatMap fun i =>
    if s.reg .sicSpend i = 0 then []
    else ((List.range 32).filter fun b => s.bit .sicSpend i b).map (32 * i + ·)

/-- The sourceReady sources of a target, in ascending ID. -/
def sourcesReady (s : State) (t : Nat) : List Source :=
  (((List.range 64).map (Source.priv t)) ++
    (((pendingShared s).map Source.shared).filter fun x => sourceTarget s x == t)).filter
      (sourceReady s)

/-- The sourceReady source of highest priority, ties to the lower ID (R583). -/
def bestSource (s : State) : List Source → Option Source
  | [] => none
  | x :: r =>
    match bestSource s r with
    | none => some x
    | some y => if sourcePrio s x < sourcePrio s y then some y else some x

/-- The level of IRQ_OUT of a target (R581); through P2 and P3 it holds its level at entry (R73). -/
def irqOut (s : State) (t : Nat) : Bool :=
  match s.pwr.st with
  | .p2 | .p3 => s.pwr.irqHeld.contains t
  | _ => !(sourcesReady s t).isEmpty

/-- The level of WAKE_OUT of a target: high while the core island is not in P0 and the target has a
sourceReady source (R74, R590); low while the ember island is in reset (Table 02-9). An entry accepted in P1 has not returned to P0, one
accepted in P0 has not left it (DEDUCED, log entry 104). -/
def wakeOut (s : State) (t : Nat) : Bool :=
  let out := !s.pwr.emberDown && !(sourcesReady s t).isEmpty
  match s.pwr.st with
  | .p1 | .p2 => out
  | .entering _ => s.pwr.fromP1 && out
  | _ => false

/-- A pending bit cleared. -/
def State.clearPending (s : State) (x : Source) : State :=
  s.clrBit (pendBit x).1 (pendBit x).2.1 (pendBit x).2.2

/-- A target's threshold stack set. -/
def State.setStack (s : State) (t : Nat) (l : List (Nat × Nat)) : State :=
  { s with sicStack := Tab.set [] t l s.sicStack }

/-- What a claim at a target returns and leaves (R583). -/
def claim (s : State) (t : Nat) : Word × State :=
  match bestSource s (sourcesReady s t) with
  | none => (0xFFFF, s)
  | some x =>
    (BitVec.ofNat 32 (sourceId x),
      (s.clearPending x).setStack t ((sourceId x, sourcePrio s x) :: sicStackOf s t))

/-- The effect of a write of SIC_EOI at a target (R585). -/
def eoi (t : Nat) (w : Word) (s : State) : State :=
  match sicStackOf s t with
  | (x, _) :: r =>
    if x = Fld.sicEoiId.get w then s.setStack t r
    else (s.putFlag Fld.sicThrEoiErr true t).logPacked uSIC 0x1015
  | [] => (s.putFlag Fld.sicThrEoiErr true t).logPacked uSIC 0x1015

/-- The effect of a write of SIC_SWI: an edge on a private source 0 to 47 of a target (R601). -/
def swi (w : Word) (s : State) : State :=
  if Fld.sicSwiSrc.get w < 48 then s.edge (.priv (Fld.sicSwiTgt.get w) (Fld.sicSwiSrc.get w)) else s

/-- The effect of a write of SIC_THR: EOI_ERR by its access code, BASE capped at 14 (R580, R587). -/
def thrWrite (t : Nat) (w : Word) (s : State) : State :=
  (s.plainWrite .sicThr t w).put Fld.sicThrBase (min 14 (Fld.sicThrBase.get w)) t

/-- The effect of a write of a pending register: the written value, with the bits set that hardware
sets in the same cycle (R588, R6). -/
def pendingWrite (k : RegKind) (i : Nat) (w hw : Word) (s : State) : State :=
  s.setReg k i (w ||| hw)

/-- The effect of a write of a mask or priority register (R589): the bits of sources 48 and 49 are
fixed (R580). -/
def maskWrite (k : RegKind) (i : Nat) (w : Word) (s : State) : State :=
  match k with
  | .sicPmskHi => s.setReg k i (w &&& 0xFFFCFFFF)
  | .sicPprio => s.setReg k i (if i % 8 = 6 then (w &&& 0xFFFFFF00) ||| 0xFF else w)
  | _ => s.setReg k i w

/-- SOURCE_EDGE (R578). Private sources 50 to 63 are never raised (Table 16-1). -/
def execSourceEdge (src : Source) (s : State) : Out :=
  match src with
  | .priv t k => onlyIf (s.coreOn && decide (t < 64 ∧ k < 50)) s (s.edge (.priv t k))
  | .shared i => onlyIf (s.coreOn && decide (i < 2048)) s (s.edge (.shared i))

/-- SIC_CLAIM (R583, R584). -/
def execSicClaim (r : Req) (t : Nat) (s : State) : Out :=
  onlyIf (decide (t < 64)) s (regRead s r .sicClaim t fun s => claim s t)

/-- SIC_EOI (R585). -/
def execSicEoi (r : Req) (t : Nat) (w : Word) (s : State) : Out :=
  onlyIf (decide (t < 64)) s (regWrite s r .sicEoi t w (eoi t w))

/-- SIC_SWI (R601). -/
def execSicSwi (r : Req) (w : Word) (s : State) : Out :=
  .next (regWrite s r .sicSwi 0 w (swi w))

/-- SIC_BASE_WRITE (R587). -/
def execSicBaseWrite (r : Req) (t : Nat) (w : Word) (s : State) : Out :=
  onlyIf (decide (t < 64)) s (regWrite s r .sicThr t w (thrWrite t w))

/-- SIC_ROUTE_WRITE (R582): the pending bit belongs to the source, so it moves with it; claims made
at the old target stay in that target's stack. -/
def execSicRouteWrite (r : Req) (i : Nat) (w : Word) (s : State) : Out :=
  onlyIf (decide (i < 2048)) s (regWrite s r .sicRoute i w fun s => s.plainWrite .sicRoute i w)

/-- SIC_PENDING_WRITE (R588): `ofs` is the offset of a pending register. -/
def execSicPendingWrite (r : Req) (ofs : Nat) (w hw : Word) (s : State) : Out :=
  match regAt ofs with
  | some (.sicPpendLo, t) => .next (regWrite s r .sicPpendLo t w (pendingWrite .sicPpendLo t w hw))
  | some (.sicPpendHi, t) => .next (regWrite s r .sicPpendHi t w (pendingWrite .sicPpendHi t w hw))
  | some (.sicSpend, i) => .next (regWrite s r .sicSpend i w (pendingWrite .sicSpend i w hw))
  | _ => .next s

end Sys2Proof.Machine
end

