-- ==== Sys2Proof/Machine/Power.lean ====
section
/-! DEFINITION. Resets (R36 to R39), clock faults, trips (R657 to R660), ember-held registers (R654), power states (R643 to R653),
DRAM self-refresh (R655) and watchdogs (R667). -/

namespace Sys2Proof.Machine

/-! ## Resets (R36 to R38, Table 02-3) -/

/-- Registers that the ember island holds, by copy and mask of their held fields (R9, R654, R676, R640). -/
def emberHeld : List (RegKind × Nat × Word) :=
  [(.trpSts, 0, 0xFFFFFFFF), (.trpCnt, 0, 0xFFFFFFFF), (.pwrWakeLo, 0, 0xFFFFFFFF), (.pwrWakeHi, 0, 0xFFFFFFFF),
   (.pwrSts, 0, Fld.pwrStsEmbClkLoss.mask), (.secSts, 0, Fld.secStsTamper.mask),
   (.dbgSts, 0, Fld.dbgStsFails.mask ||| Fld.dbgStsTamper.mask)]

/-- Fields that survive a warm reset (R9, R118, R370, R666, R671). -/
def warmHeld : List (RegKind × Nat × Word) :=
  [(.glbBankSts, 0, Fld.glbBankStsCause.mask), (.glbBankTimeLo, 0, 0xFFFFFFFF), (.glbBankTimeHi, 0, 0xFFFFFFFF), (.glbLogSeq, 0, 0xFFFFFFFF),
   (.glbBootSts, 0, Fld.glbBootStsFailStage.mask ||| Fld.glbBootStsFailCode.mask),
   (.mapFlushSts, 0, Fld.mapFlushStsReloaded.mask ||| Fld.mapFlushStsReloadInc.mask ||| Fld.mapFlushStsPoison.mask)]

/-- Every register at its reset word, but for held fields. -/
def heldRegs (l : List (RegKind × Nat × Word)) (s : State) : Tab Word :=
  l.foldl (fun t x =>
    let r := regReset x.1 x.2.1
    Tab.set r (regKey x.1 x.2.1) ((r &&& ~~~x.2.2) ||| (s.reg x.1 x.2.1 &&& x.2.2)) t) []

/-- The ember island's part of the power state, kept by warm and cold resets; a reset in P2 loses what VDD_RET holds (DEDUCED, log entry 43). In P2
and P3 the ember isolation holds the outputs (R73). -/
def emberPwr (p : Pwr) : Pwr := {
  st := match p.st with
    | .p2 => .p3
    | .p3 => .p3
    | _ => .p0
  emberLow := p.emberLow
  coldLow := p.coldLow
  warmLow := p.warmLow
  coreStuck := p.coreStuck
  emberStuck := p.emberStuck
  ember := p.ember
  emberFrac := p.emberFrac
  embLost := p.embLost
  pfailLow := p.pfailLow
  thermLow := p.thermLow
  fwLow := p.fwLow
  enCore := p.enCore
  enVccq := p.enVccq
  goodCore := p.goodCore
  goodVccq := p.goodVccq
  wakeSince := p.wakeSince
  dramIdle := (p.st == .p2 || p.st == .p3) && p.dramIdle
  irqHeld := match p.st with
    | .p2 | .p3 => p.irqHeld
    | _ => [] }

/-- Every island but the ember island reset, with the registers given. What the engine has already sent stays sent, and the hearthstone row
is not state of an island. -/
def islandReset (regs : Tab Word) (s : State) : State :=
  { State.reset with
    part := s.part
    regs := regs
    freeCtr := s.freeCtr
    resps := s.resps
    pwr := emberPwr s.pwr
    sec := { row := s.sec.row }
    fab := { sent := s.fab.sent }
    xspi := { sent := s.xspi.sent }
    pending := s.pending }

/-- A cold reset. -/
def coldReset (s : State) : State := islandReset (heldRegs emberHeld s) s

/-- A warm reset: fields so marked, and the chimney log, survive. -/
def warmReset (s : State) : State := { islandReset (heldRegs (emberHeld ++ warmHeld) s) s with log := s.log }

/-- The ember island reset: counter, wake logic, trip latches, tamper latch; PWR_EN outputs high (Table 02-9). -/
def emberReset (s : State) : State :=
  let s := emberHeld.foldl (fun s x => s.setReg x.1 x.2.1 ((s.reg x.1 x.2.1 &&& ~~~x.2.2) ||| (regReset x.1 x.2.1 &&& x.2.2))) s
  { s with pwr := { s.pwr with
      ember := 0
      emberFrac := 0
      embLost := false
      emberQ := []
      tripTodo := 0
      enCore := true
      enVccq := true
      wakeSince := none } }

/-- The engine sleeps. -/
def asleep (s : State) : Bool := s.pwr.st == .p2 || s.pwr.st == .p3

/-- The ember island reset in P2 or P3: its PWR_EN outputs are high again, the supplies return, and the other islands start from nothing
(DESIGN CHOICE, log entry 102). -/
def emberWake (s : State) : State :=
  let s := coldReset s
  { s with pwr := { s.pwr with
      st := .p0
      goodCore := true
      goodVccq := 0xFFFF
      dramIdle := false
      irqHeld := [] } }

/-- RST_EMBER_ASSERT (R36, R37): `width` is how long the input is held low, in ns; at least 4 periods of EMB_CLK, or the ember island is left
undefined. -/
def execRstEmberAssert (width : Nat) (s : State) : Out :=
  if width * 32768 < 4000000000 then .next { s with pwr := { s.pwr with emberLow := true, emberStuck := true } }
  else
    let t := emberReset { s with pwr := { s.pwr with emberLow := true, emberStuck := false } }
    .next (if asleep s then emberWake t else t)

/-- RST_COLD_ASSERT (R36 to R38): at least 10 µs, or the islands it resets are left undefined. -/
def execRstColdAssert (width : Nat) (s : State) : Out :=
  if width < 10000 then .next { s with pwr := { s.pwr with coldLow := true, coreStuck := true } }
  else .next (coldReset { s with pwr := { s.pwr with coldLow := true, coreStuck := false } })

/-- RST_WARM_ASSERT (R36, R37): at least 1 µs, or the islands it resets are left undefined. -/
def execRstWarmAssert (width : Nat) (s : State) : Out :=
  if width < 1000 then .next { s with pwr := { s.pwr with warmLow := true, coreStuck := true } }
  else .next (warmReset { s with pwr := { s.pwr with warmLow := true, coreStuck := false } })

/-! ## The ROM stage (R37, R80, R613, R614) -/

/-- A start-up failure that banks the engine, with its code (R117). -/
def bootFail (code : Nat) (s : State) : State :=
  (((s.put Fld.glbBootStsFailStage s.stage).put Fld.glbBootStsFailCode code).logPacked uGLB code).bank 0x01

/-- Time on the ember counter in ns, with the fraction of a tick gathered (R80). -/
def emberNs (p : Pwr) : Nat := (p.ember.toNat * 1000000000 + p.emberFrac) / 32768

/-- The nanosecond counter loaded from the ember counter (R80), from which the times of quiet run. -/
def loadTime (s : State) : State :=
  let t := s.pwr.ember.toNat * 1000000000 / 32768
  { s with
    time := BitVec.ofNat 64 t
    pwr := { s.pwr with idleFrom := t }
    fab := { s.fab with busyAt := t } }

/-- What the ROM stage shows of the hearthstone row (R614, R640). -/
def showRow (s : State) : State :=
  let h := s.sec.row
  let lc := lifecycleOf h
  let s := ((s.put Fld.secStsLc lc).put Fld.secStsLcNext lc).putFlag Fld.secStsLcPend false
  let s := ((s.put Fld.secCtrKrb (countOnes h.krb)).put Fld.secCtrFrb (countOnes h.frb)).put Fld.secCtrEpoch (countOnes h.epoch)
  (List.range 4).foldl (fun s i => s.setReg .secId i ((h.deviceId >>> (32 * i)).setWidth 32)) s

/-- The ROM stage; `rowOk`: no word of the hearthstone row is uncorrectable. -/
def romStage (rowOk : Bool) (s : State) : State :=
  let s := loadTime { s with
    pwr := { s.pwr with st := .p0, tripTodo := BitVec.ofNat 3 ((s.reg .trpSts).toNat % 8) }
    fab := grantIn s.fab }
  let s : State := { s with sec := { s.sec with lastTest := s.now } }
  let s := enterStage 0 (s.modTwin fun t => { t with since := s.now })
  if rowOk then showRow s else bootFail 0x20 s

/-- RESET_RELEASE (R37, R48, R80): the last low reset input goes high; while the supplies are off start-up waits for the wake, and with an
island undefined for a reset of full width. -/
def execResetRelease (rowOk : Bool) (s : State) : Out :=
  if !s.lowReset then .next s
  else
    let s := { s with pwr := { s.pwr with emberLow := false, coldLow := false, warmLow := false } }
    .next (if s.inReset || asleep s then s else romStage rowOk s)

/-! ## Clock monitors (R34, R35, R75) -/

/-- CLOCK_MONITOR_FAULT (R34). -/
def execClockMonitorFault (s : State) : Out := onCore s (s.bank 0x04)

/-- EMB_CLK_LOSS (R35): the ember counter stops, and the flag is set; in P0 and P1 that is a clock-monitor fault. -/
def execEmbClkLoss (s : State) : Out :=
  if s.pwr.emberDown then .next s
  else
    let s : State := { s with pwr := { s.pwr with embLost := true } }
    if s.flag Fld.pwrStsEmbClkLoss then .next s
    else
      let t := s.putFlag Fld.pwrStsEmbClkLoss true
      .next (if s.coreOn then t.bank 0x04 else t)

/-- EMB_CLK runs: a write takes effect in the ember island only with it (R654; DESIGN CHOICE, log entry 101). -/
def embRuns (s : State) : State := { s with pwr := { s.pwr with embLost := false } }

/-- PWR_GOOD_CORE_LOW (R75): the fall is a clock-monitor fault outside the power-state sequences: the entry into P2 or P3, and the wake. -/
def execPwrGoodCoreLow (s : State) : Out :=
  onlyIf (s.coreOn && s.pwr.enCore) s
    (let t : State := { s with pwr := { s.pwr with goodCore := false } }
     if (s.pwr.st == .p0 || s.pwr.st == .p1) && !s.pwr.waking then t.bank 0x04 else t)

/-! ## Trips (R69, R657, R658, R660) -/

/-- A trip's number: its bit in TRP_STS. -/
def tripBit : Trip → Nat
  | .pfail => 0
  | .therm => 1
  | .fw => 2

/-- The levels of the trip inputs: bit `n` 1 while input `n` is low. -/
def tripLevels (low : BitVec 3) (s : State) : State :=
  let p : Pwr := { s.pwr with pfailLow := low.getLsbD 0, thermLow := low.getLsbD 1, fwLow := low.getLsbD 2 }
  let s := { s with pwr := p }
  ((s.putFlag Fld.trpStsPfailLive (low.getLsbD 0)).putFlag Fld.trpStsThermLive (low.getLsbD 1)).putFlag Fld.trpStsFwLive (low.getLsbD 2)

/-- The levels as the state holds them. -/
def tripLow (s : State) : BitVec 3 :=
  BitVec.ofNat 3 (s.pwr.pfailLow.toNat + 2 * s.pwr.thermLow.toNat + 4 * s.pwr.fwLow.toNat)

/-- A latch set: counted; in P0 and P1 the core island has still to act on it; an entry into P2 or P3 aborts (R647). -/
def setLatch (n : Nat) (s : State) : State :=
  if s.bit .trpSts 0 n then s
  else
    let s := (s.setBit .trpSts 0 n).inc Fld.trpCntLatches
    let s := s.abortEntry
    if s.coreOn then { s with pwr := { s.pwr with tripTodo := s.pwr.tripTodo ||| (1#3 <<< n) } } else s

/-- TRIP_LATCH (R69): a low pulse of `width` ns; `held`: the input is still low afterwards. From 10 ns on the latch is set, below 2 ns it is
not; between them the spec leaves it open. -/
def execTripLatch (trip : Trip) (width : Nat) (held : Bool) (s : State) : Out :=
  if s.pwr.emberDown then .next s
  else
    let n := tripBit trip
    let low := if held then tripLow s ||| (1#3 <<< n) else tripLow s &&& ~~~(1#3 <<< n)
    let s := tripLevels low s
    if width < 2 then .next s
    else if 10 ≤ width then .next (setLatch n s)
    else
      let v := s.fresh
      .next (if v.1.getLsbD 0 then setLatch n v.2 else v.2)

/-- Table 18-5 applies as in P0 and P1 in RUN: from SERVE_READ on, and in a wake (DEDUCED, log entry 71). -/
def tripInRun (s : State) : Bool := !s.banked && (s.stage == 8 || s.stage == 9 || s.pwr.waking)

/-- Slots of a channel before their GO end at their next SAFE word; a cache program ends at its current page (R358). -/
def stopSlots (c : Nat) (s : State) : State :=
  let x := s.chan c
  s.setChan c { x with slots := x.slots.map fun e => (e.1, if !e.2.went || e.2.op.optype == 0x0A then { e.2 with abort := true } else e.2) }

/-- An operation formed for a LUN and not yet with its stoker is given up, with its draught grant (R358) (DEDUCED, log entry 73). -/
def unform (k : Nat) (s : State) : State :=
  match (s.lun k).op with
  | none => s
  | some o =>
    let g := lunCh k / 8
    let s := if (s.lun k).granted then s.put Fld.drgGrpStsInfl (s.get Fld.drgGrpStsInfl g - 1) g else s
    let s := modLun k (fun l => { l with op := none, granted := false }) s
    if isErase o.optype && (s.lun k).er.isSome then s else giveBack k o.wants s

/-- R358. -/
def powerFail (s : State) : State :=
  let s := ({ s with wp := { s.wp with pfail := true } } : State).putFlag Fld.mapFlushStsActive true
  let ks := s.md.luns.map Prod.fst
  let s := ks.foldl (fun s k => unform k s) s
  let s := (s.ch.map Prod.fst).foldl (fun s c => stopSlots c s) s
  let s := ks.foldl (fun s k => match (s.lun k).er with
    | some e => if mayRequestSuspend s k e then raiseSuspend k s else s
    | none => s) s
  -- the page of stream 0 that stands in a LUN's queue has not begun
  let mine (w : Want) : Bool := match w.why with
    | .jpage 0 => true
    | .jseal 0 => true
    | _ => false
  let queued := ks.any fun k => (s.lun k).queue.any mine
  let s := ks.foldl (fun s k => modLun k (fun l => { l with queue := l.queue.filter fun w => !mine w }) s) s
  if queued then dropPage0 true s else s

/-- The effect of one trip (Table 18-5). -/
def tripEffect (n : Nat) (s : State) : State :=
  if !tripInRun s then s
  else if n = 0 then (if s.flag Fld.mapFlushStsActive || s.flag Fld.mapFlushStsDone then s else powerFail s)
  else if n = 1 then showStop s
  else s.bank 0x0C

/-- TRIP_ACT (R657, R658): the latches on which the core island has not yet acted; PFAIL first. -/
def execTripAct (s : State) : Out :=
  onlyIf (s.coreOn && s.pwr.tripTodo != 0) s
    (let todo := s.pwr.tripTodo
     let s := { s with pwr := { s.pwr with tripTodo := 0 } }
     (List.range 3).foldl (fun s n =>
       if todo.getLsbD n then tripEffect n ((s.edgeAll 49).logPacked uTRP 0x1017 [(1, n)]) else s) s)

/-- The count of refused clears of a latch. -/
def relatch : Nat → Fld
  | 0 => Fld.trpCntPfailRl
  | 1 => Fld.trpCntThermRl
  | _ => Fld.trpCntFwRl

/-- A write of 1 to a latch bit takes effect (R660): a falling edge in the same cycle leaves the latch set (R6), a low input refuses the
clear. -/
def clearLatch (low fall : BitVec 3) (w : Word) (s : State) (n : Nat) : State :=
  if fall.getLsbD n then setLatch n s
  else if !w.getLsbD n then s
  else if low.getLsbD n then (s.inc (relatch n)).logPacked uTRP 0x1018 [(1, n)]
  else s.clrBit .trpSts 0 n

/-- TRIP_CLEAR (R660): the oldest ember-held write, one of TRP_STS, takes effect; `low` and `fall` are the inputs low then and those that fall
in that cycle. -/
def execTripClear (low fall : BitVec 3) (s : State) : Out :=
  match s.pwr.emberQ with
  | (.trpSts, w) :: r =>
    if s.pwr.emberDown then .next s
    else
      let s := tripLevels (low ||| fall) (embRuns { s with pwr := { s.pwr with emberQ := r } })
      let s := (List.range 3).foldl (clearLatch low fall w) s
      .next (if s.coreOn then showStop s else s)
  | _ => .next s

/-! ## Ember-held registers (R654) -/

/-- A write of an ember-held register waits in the handshake. -/
def queueEmber (k : RegKind) (w : Word) (s : State) : State := { s with pwr := { s.pwr with emberQ := s.pwr.emberQ ++ [(k, w)] } }

/-- EMBER_WRITE_EFFECT (R654): the oldest write of PWR_WAKE_LO, PWR_WAKE_HI or TRP_CNT takes effect. -/
def execEmberWriteEffect (s : State) : Out :=
  match s.pwr.emberQ with
  | (k, w) :: r =>
    if s.pwr.emberDown ∨ k = .trpSts ∨ k = .pwrSts then .next s
    else .next ((embRuns { s with pwr := { s.pwr with emberQ := r } }).plainWrite k 0 w)
  | [] => .next s

/-- EMB_CLK_LOSS_CLEAR (R35): the oldest write, one of PWR_STS, takes effect; with `again` the flag is set anew in that cycle, and stands
after it (R6). -/
def execEmbClkLossClear (again : Bool) (s : State) : Out :=
  match s.pwr.emberQ with
  | (.pwrSts, w) :: r =>
    if s.pwr.emberDown then .next s
    else
      let s := embRuns { s with pwr := { s.pwr with emberQ := r } }
      let s := if Fld.pwrStsEmbClkLoss.get w = 1 then s.putFlag Fld.pwrStsEmbClkLoss false else s
      if again then execEmbClkLoss s else .next s
  | _ => .next s

/-! ## P1 (R644) -/

/-- No array operation is queued, in flight or suspended. -/
def arrayQuiet (s : State) : Bool :=
  (s.md.luns.all fun e => e.2.queue.isEmpty && e.2.op.isNone && e.2.er.isNone && e.2.stall.isNone && e.2.wprot.isNone)
    && s.ch.all fun e => e.2.slots.isEmpty && e.2.rawQ.isEmpty

/-- No mover job waits or runs. -/
def moversQuiet (s : State) : Bool := s.mov.jobs.isEmpty && s.mov.ctxs.isEmpty

/-- No sluice scan runs. -/
def scansQuiet (s : State) : Bool := !s.regs.any fun e => e.1 % 256 == RegKind.slqSts.ctorIdx && s.flag Fld.slqStsScan (e.1 / 256)

/-- No calibration run is in progress or queued, and nothing walks. -/
def calQuiet (s : State) : Bool := s.cal.runs.isEmpty && s.cal.queue.all fun e => e.2.isEmpty

/-- The conditions of P1 (R644). -/
def p1Quiet (s : State) : Bool := arrayQuiet s && calQuiet s && s.reqs.isEmpty && scansQuiet s && moversQuiet s

/-- P1_ENTRY (R644): the conditions hold and have held for P1_IDLE µs, where 0 acts as 1; every channel's pins rest (Table 18-1). -/
def execP1Entry (s : State) : Out :=
  onlyIf (s.running && s.stage == 9 && s.pwr.st == .p0 && decide (s.pwr.restartAt ≤ s.now) && s.flag Fld.pwrCtlP1En && p1Quiet s
      && decide (s.pwr.idleFrom + 1000 * max 1 (s.get Fld.pwrCfgP1Idle) ≤ s.now)) s
    (let ch : Tab Chan := s.ch.map fun (e : Nat × Chan) => (e.1, { e.2 with pins := {} })
     ({ s with ch := ch, pwr := { s.pwr with st := .p1 } } : State).inc Fld.pwrCntP1)

/-! ## P2 and P3 (R646 to R649) -/

/-- A ring's moderation timer runs, or an issued entry is not yet visible. -/
def harvestOwed (s : State) : Bool :=
  (s.regs.any fun e => e.1 % 256 == RegKind.hrvSts.ctorIdx && s.flag Fld.hrvStsTimer (e.1 / 256)) || s.hrv.any fun e => !e.2.inflight.isEmpty

/-- The conditions of Table 18-2, in table order; 0 when all hold. -/
def entryRefused (p3 : Bool) (s : State) : Nat :=
  let st := s.get Fld.mapTwinStsState
  if !(s.stage == 9 && !s.banked && !s.flag Fld.mapFlushStsDone) then 1
  else if !(s.reqs.isEmpty && scansQuiet s && (s.flue.all fun e => e.2.cmd.isNone && e.2.lunOp.isNone) && arrayQuiet s && moversQuiet s) then 2
  else if !(decide (occupancy s = 0) && !mirHeld s) then 3
  else if !(st == 0 || st == 3) then 4
  else if harvestOwed s then 5
  else if !(calQuiet s && s.md.ckpt.isNone && !s.flag Fld.secSanStsActive && s.md.rebuilds.isEmpty && s.md.repair.isEmpty && s.md.ovl.isEmpty) then 6
  else if (s.reg .trpSts) &&& 7 ≠ 0 then 7
  else if debugLevel s = 2 then 8
  else if p3 ∧ s.wp.streams.any (fun e => !e.2.page.isEmpty) then 0xA
  else 0

/-- An accepted entry: credits withdrawn, the channels' pins parked, DRAM_IDLE_OK high (R648, steps 1 and 2). -/
def enterSleep (p3 : Bool) (s : State) : State :=
  let ch : Tab Chan := s.ch.map fun (e : Nat × Chan) => (e.1, { e.2 with wpN := false, pins := {} })
  let s := { s with ch := ch }
  { s with
    pwr := { s.pwr with
      st := .entering p3
      parked := true
      fromP1 := s.pwr.st == .p1
      dramIdle := true }
    fab := { s.fab with
      inReq := []
      inDat := [] } }

/-- The effect of a write of PWR_CTL (R646). `mirs`: the mirror region's descriptors as the condition reads them (DESIGN CHOICE, log entry 30). A write that
asks for both is a request for P3 (DESIGN CHOICE, log entry 42). -/
def pwrCtlWrite (mirs : List (Nat × List Byte)) (w : Word) (s : State) : State :=
  let s := s.plainWrite .pwrCtl 0 w
  let p3 := Fld.pwrCtlP3Req.get w == 1
  if !p3 && Fld.pwrCtlP2Req.get w == 0 then s
  else
    let s := scanMir mirs s
    let c := entryRefused p3 s
    let awake := s.pwr.st == .p0 || s.pwr.st == .p1
    if c = 0 && awake then enterSleep p3 s else s.put Fld.pwrStsRefuse (if awake then c else 1)

/-- P2_REQUEST and P3_REQUEST (R646). -/
def execP2Request (r : Req) (w : Word) (mirs : List (Nat × List Byte)) (s : State) : Out :=
  onlyIf (decide (Fld.pwrCtlP2Req.get w = 1)) s (regWrite s r .pwrCtl 0 w (pwrCtlWrite mirs w))
def execP3Request (r : Req) (w : Word) (mirs : List (Nat × List Byte)) (s : State) : Out :=
  onlyIf (decide (Fld.pwrCtlP3Req.get w = 1)) s (regWrite s r .pwrCtl 0 w (pwrCtlWrite mirs w))

/-- The supplies go off behind the output isolation (R648, step 5; R73). -/
def supplyOff (s : State) : State :=
  { s with pwr := { s.pwr with
      enCore := false
      enVccq := false
      goodCore := false
      goodVccq := 0
      irqHeld := (List.range 64).filter (irqOut s)
      restartAt := 0
      wdog := [] } }

/-- The draught registers and what the draught engine computes, at their reset values (R548): in P2 the draught island is off. -/
def draughtOff (s : State) : State :=
  { s with
    regs := s.regs.filter fun e => !(RegKind.all.any fun k => k.ctorIdx == e.1 % 256 && k.block == .drg)
    dg := { pop := s.dg.pop } }

/-- ENTRY_MESSAGE (R647, R648, Table 17-10): the entry aborts if a condition no longer holds; else the state is kept in VDD_RET (P2; but for the
draught registers, R548, which no rule restores: DEDUCED, log entry 134) or lost (P3), and the supplies go. -/
def execEntryMessage (s : State) : Out :=
  match s.pwr.st with
  | .entering p3 =>
    if !s.coreOn then .next s
    else if entryRefused p3 s ≠ 0 then .next s.abortEntry
    else
      let s := if p3 then s else s.inc Fld.pwrCntP2
      let s := s.logPacked uPWR 0x1019
      let s := ((s.put Fld.dbgStsLevel 0).put Fld.dbgStsScope 0).dropChallenge
      let s := supplyOff { s with regs := regsChal 0 s.regs }
      if p3 then
        let held := s.pwr.irqHeld
        let t := coldReset { s with pwr := { s.pwr with st := .p3 } }
        .next { t with pwr := { t.pwr with irqHeld := held, dramIdle := true } }
      else .next (draughtOff { s with pwr := { s.pwr with st := .p2, parked := false, fromP1 := false } })
  | _ => .next s

/-! ## Waking (R650 to R653) -/

/-- A wake event: the supplies are requested (R650). -/
def wakeEvent (cause : Nat) (s : State) : State :=
  { s.put Fld.pwrStsWake cause with pwr := { s.pwr with enCore := true, enVccq := true, wakeSince := some (emberNs s.pwr) } }

/-- WAKE_ALARM (R650). -/
def execWakeAlarm (s : State) : Out :=
  onlyIf (asleep s && !s.pwr.emberDown && !s.pwr.embLost && s.pwr.wakeSince.isNone && s.flag Fld.pwrWakeHiAlarmEn
      && decide (s.pwr.ember.toNat = s.get Fld.pwrWakeHiAt * 2 ^ 32 + s.get Fld.pwrWakeLoAt)) s
    (wakeEvent 1 s)

/-- WAKE_PLATFORM (R650). -/
def execWakePlatform (s : State) : Out :=
  onlyIf (asleep s && !s.pwr.emberDown && !s.pwr.enCore && !s.pwr.goodCore) s
    (wakeEvent 2 { s with pwr := { s.pwr with goodCore := true } })

/-- POWER_GOOD_TIMEOUT (R650): 100 ms. -/
def execPowerGoodTimeout (s : State) : Out :=
  match s.pwr.wakeSince with
  | none => .next s
  | some t =>
    onlyIf (asleep s && decide (t + 100000000 ≤ emberNs s.pwr)) s
      { s with pwr := { s.pwr with enCore := false, enVccq := false, goodCore := false, wakeSince := none } }

/-- The supplies are up. -/
def suppliesUp (s : State) : State :=
  { s with pwr := { s.pwr with goodCore := true, goodVccq := 0xFFFF, wakeSince := none, irqHeld := [] } }

/-- The watchdogs of the five cores started with full periods (R667). -/
def startWdogs (s : State) : State :=
  let fb := max 1 (s.get Fld.pwrWdogCfgFbMs) * 1000000
  let pol := max 1 (s.get Fld.pwrWdogCfgPolMs) * 1000000
  { s with pwr := { s.pwr with wdog := (List.range 5).map fun n => (n, s.now + if n = 0 then fb else pol) } }

/-- Leases resumed with the time they had left (R599). -/
def resumeLeases (old : Nat) (s : State) : State :=
  { s with leases := s.leases.map fun e => (e.1, s.now + (e.2 - old)) }

/-- WAKE_FROM_P2 (R651): the last power-good input has risen; `pass`: the tests of R627 pass. The channels' bring-up follows stage by stage (DEDUCED, log
entry 77); STAGE shows 0x2 before it, without an entry in the log (DESIGN CHOICE, log entry 108). -/
def execWakeFromP2 (pass : Bool) (s : State) : Out :=
  onlyIf (s.pwr.st == .p2 && s.pwr.wakeSince.isSome && !s.inReset) s
    (let old := s.now
     let s := suppliesUp s
     let s := resumeLeases old (loadTime s)
     let s : State := { s with sec := { s.sec with lastTest := s.now - (old - s.sec.lastTest) } }
     let s := { s with
       xspi := { sent := s.xspi.sent }
       pwr := { s.pwr with st := .p0, waking := true, tripTodo := BitVec.ofNat 3 ((s.reg .trpSts).toNat % 8) }
       fab := grantIn s.fab }
     let s := s.logPacked uPWR 0x1019
     let s := startWdogs (s.modTwin fun t => { t with since := s.now, nonce := 0, paired := false, single := false })
     let s := if s.img.twin.isSome then s.put Fld.glbBootStsTwin 0 else s
     if pass then s.put Fld.glbBootStsStage 2 else s.bank 0x07)

/-- WAKE_FROM_P3 (R653): the whole start-up, from the ROM stage. -/
def execWakeFromP3 (rowOk : Bool) (s : State) : Out :=
  onlyIf (s.pwr.st == .p3 && s.pwr.wakeSince.isSome && !s.inReset) s
    (romStage rowOk ((suppliesUp { s with pwr := { s.pwr with st := .p0, dramIdle := false, wokeP3 := true } }).logPacked uPWR 0x1019))

/-! ## DRAM self-refresh (R72, R655) -/

/-- A pan holds data that is neither flushed nor mirrored. -/
def panAtRisk (s : State) : Bool :=
  s.wp.own.any fun e => (e.2.st == 0x11 || e.2.st == 0x12 || e.2.st == 0x13) && !e.2.mirrored && !s.flag Fld.mapFlushStsDone

/-- A class-0 sluice holds an entry the engine owns, so far as the engine knows: its scan has not ended (DESIGN CHOICE, log entry 72). -/
def classZeroOwned (s : State) : Bool :=
  s.regs.any fun e => e.1 % 256 == RegKind.slqSts.ctorIdx && s.flag Fld.slqStsScan (e.1 / 256) && s.get Fld.slqCfgClass (e.1 / 256) == 0

/-- DRAM_IDLE_OK_RISE (R72, R655): SR_HOLD µs in which no request was issued or outstanding, and the conditions of R72. -/
def execDramIdleOkRise (s : State) : Out :=
  onlyIf (s.coreOn && decide (s.fab.busyAt + 1000 * s.get Fld.pwrCfgSrHold ≤ s.now) && s.fab.outst.isEmpty && s.fab.waiting.isEmpty && s.fab.held.isEmpty && !panAtRisk s && !classZeroOwned s) s
    { s with pwr := { s.pwr with dramIdle := true } }

/-! ## Watchdogs (R667) -/

/-- The core of an SRC: 0 the firebox core, 1 to 4 the hearth cores. -/
def coreOf (src : Nat) : Option Nat := if 0x10 ≤ src ∧ src ≤ 0x14 then some (src - 0x10) else none

/-- The effect of a write of PWR_WDOG_KICK. -/
def kickWrite (src : Nat) (s : State) : State :=
  match coreOf src with
  | none => s
  | some n =>
    if (Tab.find n s.pwr.wdog).isNone then s
    else
      let p := max 1 (if n = 0 then s.get Fld.pwrWdogCfgFbMs else s.get Fld.pwrWdogCfgPolMs) * 1000000
      { s with pwr := { s.pwr with wdog := Tab.put n (s.now + p) s.pwr.wdog } }

/-- WATCHDOG_KICK (R667). -/
def execWatchdogKick (r : Req) (w : Word) (s : State) : Out := .next (regWrite s r .pwrWdogKick 0 w (kickWrite r.src))

/-- WATCHDOG_EXPIRY (R667): core `n`'s watchdog has run its period. -/
def execWatchdogExpiry (n : Nat) (s : State) : Out :=
  match Tab.find n s.pwr.wdog with
  | none => .next s
  | some t => onlyIf (s.coreOn && decide (t ≤ s.now)) s (s.bankNamed 0x06 [(1, 0x10 + n)])

end Sys2Proof.Machine
end

