-- ==== Sys2Proof/Machine/Kindling.lean ====
section
/-! DEFINITION. The kindling image (chapter 3): its layout, the layouts of its sections, and the checks of Table 03-4 and R90. Bytes beyond a
section's LENGTH read as zero, and reserved bytes of the header and the sections are not checked where no rule says so (DEDUCED, log entry 44). -/

namespace Sys2Proof.Machine

/-! ## Bytes -/

def sub (b : List Byte) (o n : Nat) : List Byte := (b.drop o).take n
def num (b : List Byte) (o n : Nat) : Nat := bytesNum (sub b o n)

/-- Signed bytes. -/
def ints (b : List Byte) : List Int := b.map (·.toInt)

/-- `n` bytes, zeros beyond the end. -/
def padded (b : List Byte) (o n : Nat) : List Byte := (List.range n).map fun i => (b[o + i]?).getD 0

/-- Every byte of a range is 0. -/
def zeros (b : List Byte) (o n : Nat) : Bool := (sub b o n).all (· == 0)

/-! ## Header and directory (R85 to R87) -/

/-- A directory entry (Table 03-2). -/
structure DirE where
  type : Nat
  inst : Nat
  req  : Bool
  ofs  : Nat
  len  : Nat
  crc  : Nat
  ver  : Nat
  deriving DecidableEq, Repr

def secCount (d : List Byte) : Nat := num d 0x0C 2
def imgSize (d : List Byte) : Nat := num d 8 4
def imgSecver (d : List Byte) : Nat := num d 0x10 4
def imgCommit (d : List Byte) : Bool := (num d 0x0E 2).testBit 0

def dirEntry (d : List Byte) (i : Nat) : DirE :=
  let o := 0x100 + 32 * i
  ⟨num d o 2, num d (o + 2) 2, (num d (o + 4) 4).testBit 0, num d (o + 8) 4, num d (o + 12) 4, num d (o + 16) 4, num d (o + 20) 4⟩

def directory (d : List Byte) : List DirE := (List.range (secCount d)).map (dirEntry d)

/-- The largest length and the count of a section type (Table 03-3): none for a reserved type. Counts are (least, most). -/
def secRule (t : Nat) : Option (Nat × Nat × Nat) :=
  let k := 1024
  match t with
  | 0x01 => some (512 * k, 1, 1)
  | 0x02 => some (12 * k * k, 1, 1)
  | 0x03 => some (16 * k, 0, 1)
  | 0x10 => some (64 * k, 1, 32)
  | 0x11 => some (64 * k, 1, 1)
  | 0x12 => some (256 * k, 1, 1)
  | 0x20 => some (16 * k, 1, 1)
  | 0x21 => some (k, 1, 1)
  | 0x30 => some (64 * k, 1, 1)
  | 0x31 => some (4 * k, 1, 1)
  | 0x32 => some (4 * k, 0, 1)
  | 0x33 => some (4 * k, 1, 1)
  | 0x40 => some (16 * k, 1, 1)
  | _ => none

def secTypes : List Nat := [0x01, 0x02, 0x03, 0x10, 0x11, 0x12, 0x20, 0x21, 0x30, 0x31, 0x32, 0x33, 0x40]

/-- The bytes of a section, and those of the section of a type. -/
def secBytes (d : List Byte) (e : DirE) : List Byte := sub d e.ofs e.len
def sect? (d : List Byte) (t : Nat) : Option (List Byte) := ((directory d).find? fun e => e.type == t).map (secBytes d)
def sectionOf (d : List Byte) (t : Nat) : List Byte := (sect? d t).getD []

/-! ## Table 03-4 -/

/-- The sections lie as check 8 asks: aligned, within the signed message and their maximum lengths, apart from each other and from the
directory. -/
def secPlaced (d : List Byte) (l : List DirE) (e : DirE) : Bool :=
  decide (e.ofs % 4096 = 0 ∧ 0x1000 ≤ e.ofs ∧ 1 ≤ e.len ∧ e.ofs + e.len + 128 ≤ imgSize d)
    && (match secRule e.type with
      | some r => decide (e.len ≤ r.1)
      | none => true)
    && (l.filter fun f => decide (f.ofs < e.ofs + e.len ∧ e.ofs < f.ofs + f.len)).length == 1

/-- The part number an image may name (R77). -/
def partNo (p : Part) : Nat := match p with
  | .ig7316 => 0x7316
  | .ig7332 => 0x7332

/-- The checks of Table 03-4 in order: the code of the first that fails, or 0. `answers`: the device answers, and every read returns strobes. -/
def imageCheck (answers : Bool) (d : List Byte) (s : State) : Nat :=
  let key := sub d 0x30 97
  let n := imgSize d
  let skip := lifecycle s == lcManufacture && s.sec.row.rootHash == 0
  let l := directory d
  if !answers then 0x0B
  else if num d 0 4 ≠ 0x4C444E4B ∨ num d 4 2 ≠ 1 ∨ num d 6 2 ≠ 0x100 then 0x01
  else if n % 4096 ≠ 0 ∨ n < 0x2000 ∨ 0x1000000 < n then 0x02
  else if !skip && Config.sha384 key != s.sec.row.rootHash then 0x03
  else if !Config.ecdsaVerify key (d.take (n - 128)) (sub d (n - 128) 48) (sub d (n - 80) 48) then 0x04
  else if imgSecver d < countOnes s.sec.row.krb then 0x05
  else if num d 0x14 2 ≠ 0xFFFF ∧ num d 0x14 2 ≠ partNo s.part then 0x06
  else if secCount d < 1 ∨ 64 < secCount d ∨ !l.all (secPlaced d l) then 0x07
  else if !l.all (fun e => (crc32c (secBytes d e)).toNat == e.crc) then 0x08
  else if !secTypes.all (fun t => match secRule t with
      | some r => let c := (l.filter fun e => e.type == t).length; decide (r.2.1 ≤ c ∧ c ≤ r.2.2)
      | none => true) then 0x09
  else if l.any (fun e => (secRule e.type).isNone && e.req) then 0x0A
  else 0

/-! ## Sections as fields -/

/-- A die profile section (Table 06-2, R208). -/
def parseProfile (b : List Byte) (ver : Nat) : Profile :=
  let n := num b 0x5C 2
  let order := num b 0x5E 2
  let retry := num b 0x60 2
  let seed := num b 0x62 2
  { valid := decide (num b 0 4 = 0x46525044 ∧ num b 4 2 = 1 ∧ num b 0x40 1 ≤ 7 ∧ order + 2 * n ≤ b.length ∧ retry + 512 ≤ b.length
      ∧ seed + 32 ≤ b.length)
    ver := ver
    cellBits := num b 6 1
    dflags := num b 7 1
    idPat := sub b 8 8
    idMask := sub b 0x10 8
    pgCode := num b 0x18 1
    planes := num b 0x19 1
    luns := num b 0x1A 1
    ofsMethod := num b 0x1B 1
    physPage := num b 0x1C 2
    wlPerBlk := num b 0x1E 2
    blkPerLun := num b 0x20 4
    pageBits := num b 0x24 1
    blockBits := num b 0x25 1
    lunShift := num b 0x26 1
    closeDist := num b 0x27 1
    trMax := num b 0x28 2
    trSlcMax := num b 0x2A 2
    tprogMax := num b 0x2C 2
    tprogSlcMax := num b 0x2E 2
    tbersMax := num b 0x30 2
    trstFirst := num b 0x32 2
    tzqcl := num b 0x34 2
    tespd := num b 0x36 2
    tersRun := num b 0x38 2
    esuspMax := num b 0x3A 1
    nestMax := num b 0x3B 1
    esuspCmd := num b 0x3C 1
    eresCmd := num b 0x3D 1
    slcCmd := num b 0x3E 1
    suspBit := num b 0x3F 1
    astart := (sub b 0x41 (num b 0x40 1)).map (·.toNat)
    ofsFa := num b 0x48 1
    ofsPrefix := num b 0x49 1
    otpFa := num b 0x4A 1
    otpVal := num b 0x4B 1
    dccFa := num b 0x4C 1
    tglTrn := [num b 0x4D 1, num b 0x4E 1, num b 0x4F 1]
    dccRe := num b 0x50 2
    otpPages := num b 0x52 2
    peRating := num b 0x54 4
    peSlc := num b 0x58 4
    order := (List.range n).map fun i => num b (order + 2 * i) 2
    ladder := ints (sub b retry 512)
    seeds := ints (sub b seed 32) }

/-- The profiles of an image, by INST (DEDUCED, log entry 76). -/
def imgProfiles (d : List Byte) : Tab Profile :=
  ((directory d).filter fun e => e.type == 0x10 && decide (e.inst < 32)).foldl (fun t e => Tab.put e.inst (parseProfile (secBytes d e) e.ver) t) []

/-- The record of a channel in the topology section (Table 04-5). -/
def parseTopo (b : List Byte) (c : Nat) : Topo :=
  let o := 64 * c
  { ceil := num b o 1
    present := num b (o + 1) 1
    rbPu := num b (o + 2) 1 == 1
    profile := (padded b (o + 4) 8).map (·.toNat)
    tset := (padded b (o + 0x0C) 8).map (·.toNat)
    kxTset := (padded b (o + 0x14) 8).map (·.toNat) }

def imgTopo (d : List Byte) : Tab Topo := (List.range 128).map fun c => (c, parseTopo (sectionOf d 0x11) c)
def imgVccq (d : List Byte) : List Nat := (padded (sectionOf d 0x11) 8192 16).map (·.toNat)

/-- The map geometry section (Table 10-2). -/
def parseGeo (b : List Byte) : Geo :=
  { streams := num b 6 1
    demand := (num b 7 1).testBit 0
    format := (num b 7 1).testBit 1
    ltaCount := num b 8 8
    mapBase := num b 0x10 8
    poolSize := num b 0x18 8
    dirBase := num b 0x20 8
    ovlBase := num b 0x28 8
    ovlSize := num b 0x30 8
    tbl0 := num b 0x38 8
    tbl1 := num b 0x40 8
    gaugeBase := num b 0x48 8
    relocBase := num b 0x50 8
    relocSlots := num b 0x58 4
    ckptUnits := num b 0x5C 1
    hid := num b 0x5E 2
    parBase := num b 0x60 8
    parSize := num b 0x68 8 }

/-- The map runs demand-paged (R101). -/
def geoDemand (g : Geo) : Bool := g.demand || decide (2 ^ 40 < 4096 * ((g.ltaCount + 511) / 512))

/-- The fitted targets of an image, with their profiles. -/
def imgTargets (d : List Byte) : List Profile :=
  let ps := imgProfiles d
  (imgTopo d).flatMap fun e => ((List.range 8).filter fun t => e.2.present.testBit t).filterMap fun t =>
    match Tab.find ((e.2.profile[t]?).getD 0xFF) ps with
    | some p => if p.ok then some p else none
    | none => none

/-- The regions that the map geometry section places, as (base, bytes): the tables count the block table alone, for the sets, and with them
the group table, are not known before the MAP stage (DEDUCED, log entry 44). -/
def geoRegions (d : List Byte) : List (Nat × Nat) :=
  let g := parseGeo (sectionOf d 0x33)
  let m := (g.ltaCount + 511) / 512
  let units := ((imgTargets d).map fun p => p.luns * p.unitsPerLun).foldl (· + ·) 0
  let blocks := ((imgTargets d).map fun p => p.luns * p.blkPerLun).foldl (· + ·) 0
  (if geoDemand g then [(g.mapBase, g.poolSize), (g.ovlBase, g.ovlSize)] else [(g.mapBase, 4096 * m)])
    ++ [(g.dirBase, 16 * m), (g.tbl0, 32 * units), (g.tbl1, 32 * units), (g.gaugeBase, 64 * blocks), (g.relocBase, 4160 * g.relocSlots),
        (g.parBase, g.parSize)]

/-- Two regions have a byte in common. -/
def regionsMeet (a b : Nat × Nat) : Bool := decide (a.1 < b.1 + b.2 ∧ b.1 < a.1 + a.2)

/-- No two regions of a list overlap. -/
def regionsApart : List (Nat × Nat) → Bool
  | [] => true
  | a :: r => r.all (fun b => !regionsMeet a b) && regionsApart r

def pageAligned (x : Nat) : Bool := decide (x % 4096 = 0 ∧ x < 2 ^ 52)

/-- Q of the largest row of a profile. -/
def maxQ (p : Profile) : Nat := maxOf ((List.range (rowsOf p false)).map (rowQ p false))

/-- The checks of R374 and R686. -/
def geoOk (d : List Byte) : Bool :=
  let b := sectionOf d 0x33
  let g := parseGeo b
  let demand := geoDemand g
  let bases := [g.mapBase, g.dirBase, g.tbl0, g.tbl1, g.gaugeBase, g.relocBase, g.parBase] ++ (if demand then [g.ovlBase] else [])
  decide (num b 0 4 = 0x4750414D ∧ num b 4 2 = 1 ∧ 1 ≤ g.streams ∧ g.streams ≤ 16 ∧ num b 7 1 < 4 ∧ 1 ≤ g.ltaCount ∧ g.ltaCount ≤ 0xF00000000000
      ∧ 1024 ≤ g.relocSlots ∧ g.relocSlots ≤ 1048576 ∧ 1 ≤ g.ckptUnits ∧ g.ckptUnits ≤ 64 ∧ g.hid < 2 ^ 14)
    && bases.all pageAligned
    && (!demand || decide (2 ^ 26 ≤ g.poolSize ∧ g.streams * 2 ^ 28 * 16 ≤ g.ovlSize))
    && (imgTargets d).all (fun p => decide (2 * maxQ p * 8256 ≤ g.parSize))
    && regionsApart (geoRegions d)

/-- The hold-up declaration (Table 09-5). -/
def parseHold (b : List Byte) : HoldUp :=
  { flushPar := num b 6 2
    tHold := num b 8 4
    derate := num b 0x0C 1
    c0Rsv := num b 0x0E 2
    panBase := num b 0x10 8
    panSize := num b 0x18 8
    mirBase := num b 0x20 8
    mirSize := num b 0x28 8
    windowMs := num b 0x30 4
    jrnWait := num b 0x34 4 }

/-- The checks of R338. -/
def holdOk (b : List Byte) : Bool :=
  let h := parseHold b
  decide (num b 0 4 = 0x444C4F48 ∧ num b 4 2 = 1 ∧ 18 ≤ h.flushPar ∧ h.flushPar ≤ 4096 ∧ 1000 ≤ h.tHold ∧ h.tHold ≤ 1000000 ∧ h.derate ≤ 50
      ∧ 1 ≤ h.windowMs ∧ h.windowMs ≤ 60000 ∧ 20 ≤ h.jrnWait ∧ h.jrnWait ≤ 10000)
    && pageAligned h.panBase && pageAligned h.mirBase

/-- The twin pairing section (Table 09-8). -/
def parseTwin (b : List Byte) : TwinSec :=
  { peerHid := num b 6 2 % 2 ^ 14
    peerBox := num b 8 8
    peerMir := num b 0x10 8
    ownBox := num b 0x18 8
    hbPeriod := num b 0x20 4
    hbLoss := num b 0x24 4
    pairKey := sub b 0x28 40 }

/-- The checks of R350 and R621. -/
def twinOk (b : List Byte) (h : HoldUp) (s : State) : Bool :=
  let t := parseTwin b
  decide (num b 0 4 = 0x4E495754 ∧ num b 4 2 = 1 ∧ num b 6 2 < 2 ^ 14 ∧ 100 ≤ t.hbPeriod ∧ t.hbPeriod ≤ 10000 ∧ 3 * t.hbPeriod ≤ t.hbLoss
      ∧ h.mirSize ≠ 0)
    && zeros b 0x50 176 && (Config.kwUnwrap (kek2Of s) t.pairKey).isSome

/-- The calibration section (Table 15-5); ZQ_LIM is a word, with PU_MIN its highest byte. -/
def parseCal (b : List Byte) : CalSec :=
  let w (o : Nat) : BitVec 32 := BitVec.ofNat 32 (num b o 4)
  { ctl := w 8
    deadline := w 0x0C
    gb := w 0x10
    puMin := num b 0x23 1
    puMax := num b 0x22 1
    pdMin := num b 0x21 1
    pdMax := num b 0x20 1
    dccMax := num b 0x24 1
    driftMax := num b 0x25 1
    gbRd := ints (padded b 0x40 16)
    gbWr := ints (padded b 0x50 16)
    age := (List.range 16).map fun i => num b (0x60 + 4 * i) 4
    lvlmap := (List.range 32).map fun i => w (0xA0 + 4 * i) }

/-- A list rises strictly. -/
def rises : List Nat → Bool
  | a :: b :: r => decide (a < b) && rises (b :: r)
  | _ => true

/-- The checks of R569. -/
def calOk (b : List Byte) : Bool :=
  let c := parseCal b
  decide (num b 0 4 = 0x4C414343 ∧ num b 4 2 = 1 ∧ 4 ≤ c.driftMax ∧ c.driftMax ≤ 32 ∧ c.age[15]? = some 0xFFFFFFFF)
    && (c.gbRd ++ c.gbWr).all (fun x => decide (-6 ≤ x ∧ x ≤ 6)) && rises c.age

/-- The register images of the draught section (Table 14-4), GLOBAL first, EN last for each loop by `loadDraught`. -/
def draughtImages (b : List Byte) : List (RegKind × Nat × Word) :=
  let w (o : Nat) : Word := BitVec.ofNat 32 (num b o 4)
  let glob : List RegKind := [.drgCtl, .drgAdmCfg, .drgCeilCfg, .drgCeilCfg2, .drgCeilMskLo, .drgCeilMskHi]
  let loop : List RegKind := [.drgLoopCtl, .drgLoopSrcLo, .drgLoopSrcHi, .drgLoopTgt, .drgLoopKp, .drgLoopKi, .drgLoopKd, .drgLoopVmax,
    .drgLoopAmax, .drgLoopJmax, .drgLoopIinit, .drgLoopStale]
  (glob.zipIdx.map fun e => (e.1, 0, w (0x10 + 4 * e.2)))
    ++ (List.range 16).flatMap (fun n => loop.zipIdx.map fun e => (e.1, n, w (0x30 + 64 * n + 4 * e.2)))
    ++ (List.range 64).map (fun i => (RegKind.drgFfStep, i, w (0x430 + 4 * i)))
    ++ (List.range 64).map (fun i => (RegKind.drgFfBias, i, w (0x530 + 4 * i)))

/-- The mask of populated sources (R548). -/
def popMask (b : List Byte) : BitVec 64 := BitVec.ofNat 64 (num b 8 8)

/-- The checks of R548. -/
def popOk (b : List Byte) : Bool :=
  decide (num b 0 4 = 0x50534E53 ∧ num b 4 2 = 1 ∧ num b 6 2 = 0)
    && (List.range 64).all fun k => !(popMask b).getLsbD k || definedSrc k

/-- The draught section loaded into a state (R547). -/
def draughtLoaded (d : List Byte) (s : State) : State :=
  loadDraught (draughtImages (sectionOf d 0x20)) { s with dg := { s.dg with pop := popMask (sectionOf d 0x21) } }

/-- The checks of R547, by a trial: a loop image with EN that is refused leaves EN 0. -/
def draughtOk (d : List Byte) (s : State) : Bool :=
  let b := sectionOf d 0x20
  let t := draughtLoaded d s
  decide (num b 0 4 = 0x54465244 ∧ num b 4 2 = 1)
    && (List.range 16).all (fun n => !(num b (0x30 + 64 * n) 4).testBit Fld.drgLoopCtlEn.lo || t.flag Fld.drgLoopCtlEn n)
    && (List.range 64).all fun k =>
      !(if k < 32 then t.bit .drgCeilMskLo 0 k else t.bit .drgCeilMskHi 0 (k - 32)) || (definedSrc k && populated t k)

/-- F0 and F1 of the queue section (Table 11-15). -/
def flueImage (b : List Byte) (f : Nat) : Flue :=
  let o := 0x20 + 32 * f
  { cbase := num b o 8
    rbase := num b (o + 8) 8
    cpages := num b (o + 0x10) 2
    rpages := num b (o + 0x12) 2
    src := num b (o + 0x14) 2
    port := num b (o + 0x16) 1 }

def flueImageOk (b : List Byte) (f : Nat) : Bool :=
  let x := flueImage b f
  ringOk x.cbase x.cpages 16 && ringOk x.rbase x.rpages 16 && decide (x.src < 2048 ∧ x.port < 16) && zeros b (0x37 + 32 * f) 9

/-- One record of the queue section carried out as F0 would: the state after, and whether it completed OK. A record is a flue command
without its first bytes. -/
def queueRecord (ring : Bool) (b : List Byte) (r : Bool × State) : Bool × State :=
  let cmd := [(0x01 : Byte), if ring then 3 else 1, 0, 0] ++ b.drop 4
  if !r.1 then r
  else if !(zeros b 0 4) || flueMalformed cmd then (false, r.2)
  else
    let x : Flue := { r.2.flueOf 0 with cmd := some cmd }
    let a := if ring then hrvCreate 0 x r.2 else slqCreate 0 x r.2
    (a.1 == fsOk, a.2.2)

/-- The queue section loaded (R466): F0 and F1, the rings, then the sluices; and whether every record completed OK. -/
def queueLoaded (b : List Byte) (s : State) : Bool × State :=
  let n := num b 6 2
  let h := num b 8 2
  let s : State := { s with img := { s.img with
    defW := num b 0x0A 1
    defB := num b 0x0B 1
    defM := num b 0x0C 2 } }
  let s := setFlue 1 (flueImage b 1) true (setFlue 0 (flueImage b 0) true s)
  let r := (List.range h).foldl (fun r i => queueRecord true (padded b (0x60 + 64 * i) 64) r) (true, s)
  (List.range n).foldl (fun r i => queueRecord false (padded b (0x60 + 64 * h + 64 * i) 64) r) r

/-- The checks of R466. -/
def queueOk (b : List Byte) (s : State) : Bool :=
  decide (num b 0 4 = 0x46454451 ∧ num b 4 2 = 1 ∧ num b 6 2 ≤ 256 ∧ num b 8 2 ≤ 256 ∧ 1 ≤ num b 0x0A 1 ∧ 1 ≤ num b 0x0B 1 ∧ num b 0x0B 1 ≤ 64
      ∧ 1 ≤ num b 0x0C 2 ∧ num b 0x0C 2 ≤ 4096)
    && flueImageOk b 0 && flueImageOk b 1 && (queueLoaded b s).1

/-! ## Firmware (R606, R607) -/

/-- Fields of a firmware header (Table 17-1). -/
def fwCode (b : List Byte) : Nat := num b 0x10 4
def fwData (b : List Byte) : Nat := num b 0x14 4
def fwBss (b : List Byte) : Nat := num b 0x18 4
def fwSvn (b : List Byte) : Nat := num b 0x0C 4
def fwEntry (b : List Byte) : Nat := num b 0x1C 4
def fwLoad (b : List Byte) : Nat := num b 0x20 8

/-- A firmware header's fields are right, for firebox or policy firmware. -/
def fwOk (b : List Byte) (fbx : Bool) : Bool :=
  decide (num b 0 4 = (if fbx then 0x584F4246 else 0x59434C50) ∧ num b 4 2 = 1 ∧ num b 6 2 = 0 ∧ fwCode b % 16 = 0 ∧ fwEntry b % 4 = 0
      ∧ fwEntry b < fwCode b ∧ b.length = 64 + fwCode b + fwData b)
    && zeros b 0x28 24
    && (if fbx then decide (fwSvn b ≤ 32 ∧ fwLoad b = 0 ∧ fwCode b ≤ 524224 ∧ fwData b + fwBss b ≤ 262144)
        else decide (fwSvn b = 0) && pageAligned (fwLoad b))

/-- The policy region meets no region named in the hold-up declaration or the map geometry section. -/
def policyApart (d : List Byte) : Bool :=
  let b := sectionOf d 0x02
  let h := parseHold (sectionOf d 0x31)
  ((h.panBase, h.panSize) :: (h.mirBase, h.mirSize) :: geoRegions d).all fun r => !regionsMeet (fwLoad b, fwCode b + fwData b + fwBss b) r

/-- The checks of R90: the code of the first that fails, or 0. -/
def contentCheck (d : List Byte) (s : State) : Nat :=
  let hold := sectionOf d 0x31
  let fbx := sectionOf d 0x01
  if !((imgVccq d).all fun v => v == 0x12 || v == 0x18) then 0x07
  else if !holdOk hold then 0x07
  else if !(match sect? d 0x32 with
      | some b => twinOk b (parseHold hold) s
      | none => true) then 0x07
  else if !geoOk d then 0x07
  else if !popOk (sectionOf d 0x21) || !draughtOk d s then 0x07
  else if !queueOk (sectionOf d 0x30) s then 0x07
  else if !calOk (sectionOf d 0x40) then 0x07
  else if !fwOk fbx true || !fwOk (sectionOf d 0x02) false || !policyApart d then 0x07
  else if fwSvn fbx < countOnes s.sec.row.frb then 0x05
  else 0

/-- Directory entries that are ignored are noted (R88). -/
def noteReserved (d : List Byte) (s : State) : State :=
  ((directory d).filter fun e => (secRule e.type).isNone).foldl (fun s e => s.logPacked uGLB 0x1004 [(2, e.type), (2, e.inst)]) s

/-- The byte address of the slot to be read (R82). -/
def slotBase (s : State) : Nat := if s.flag Fld.glbBootStsImgSlot then 0x01000000 else 0

/-- KINDLING_SLOT_READ (R12, R82 to R84, R89, R90): slot A, after the discovery of the flash, or slot B after a failure of slot A, with what the flash
returns (DESIGN CHOICE, log entry 74). -/
def execKindlingSlotRead (answers : Bool) (sfdp : Sfdp) (d : List Byte) (s : State) : Out :=
  onlyIf (s.running && s.stage == 2 && !s.pwr.waking && !s.fwUp && s.img.copy.isNone && xspiResetN s) s
    (let x := if s.flag Fld.glbBootStsImgSlot then s.xspi else xspiDiscover sfdp s.xspi
     let s := { s with xspi := xspiRead (slotBase s) d.length x }.putFlag Fld.glbBootStsXspi1s !x.octal
     let c := imageCheck answers d s
     let c := if c = 0 then contentCheck d s else c
     if c = 0 then
       let x := { s.sec with kek1 := kek1Of s, kek2 := kek2Of s }
       noteReserved d { s with sec := x, img := { s.img with copy := some d } }
     else if s.flag Fld.glbBootStsImgSlot then bootFail c s
     else s.putFlag Fld.glbBootStsImgSlot true)

end Sys2Proof.Machine
end

