-- ==== Sys2Proof/Machine/Boot.lean ====
section
/-! DEFINITION. Start-up up to the LEDGER stage (chapter 3): self-tests, the end of the KINDLING stage, and each channel's TARGET_RESET,
IDENTIFY, TRAIN and LEDGER. -/

namespace Sys2Proof.Machine

/-! ## SELFTEST (R92, R93, R615) -/

/-- SELFTEST_STAGE: `fails` is the index of the first known-answer test that fails, if one does; `rnd` is what the random bit generator, then
seeded, gives for KES (R615, R625) (DESIGN CHOICE, log entry 79). -/
def execSelftestStage (fails : Option (Fin 5)) (rnd : BitVec 256) (s : State) : Out :=
  onlyIf (s.running && s.stage == 0) s
    (let s := enterStage 1 s
     match fails with
     | some n => bootFail (0x10 + n.val) s
     | none =>
       if lifecycle s = lcDecom then bootFail 0x21 s
       else
         let burn := lifecycle s == lcManufacture && s.sec.row.kes == 0
         let x : Sec := { s.sec with rbgSeeded := true, row := if burn then { s.sec.row with kes := rnd } else s.sec.row }
         enterStage 2 (({ s with sec := x } : State).putFlag Fld.secStsRbgOk true))

/-! ## The end of KINDLING -/

/-- Hearth ID (R686). -/
def loadHid (s : State) : State := ((s.put Fld.glbHidHid s.img.geo.hid).putFlag Fld.glbHidSet true).putFlag Fld.glbHidLock true

/-- The sections that the engine keeps as they are. -/
def loadSections (d : List Byte) (s : State) : State :=
  { s with img := { s.img with
      topo := imgTopo d
      vccq := imgVccq d
      profiles := imgProfiles d
      geo := parseGeo (sectionOf d 0x33)
      hold := parseHold (sectionOf d 0x31)
      twin := (sect? d 0x32).map parseTwin
      cal := parseCal (sectionOf d 0x40)
      secver := imgSecver d
      svn := fwSvn (sectionOf d 0x01)
      commit := imgCommit d } }

/-- Topology of a channel in its registers: the ceiling, of which a byte above 0xF acts as 0x0 like every reserved code (R127), RB_PU (R157), and each
fitted target's sets and profile (R133). -/
def loadChannel (s : State) (e : Nat × Topo) : State :=
  let c := e.1
  let t := e.2
  let s := (s.put Fld.stkChmodeCeil (if t.ceil < 16 then t.ceil else 0) c).putFlag Fld.stkChmodeRbPu t.rbPu c
  ((List.range 8).filter t.present.testBit).foldl (fun s i =>
    let n := c * 8 + i
    ((s.put Fld.stkTgtcfgTset ((t.tset[i]?).getD 0) n).put Fld.stkTgtcfgKxTset ((t.kxTset[i]?).getD 0xF) n).put Fld.stkTgtcfgProfile ((t.profile[i]?).getD 0) n) s

/-- Timing sets (R131): 128 channels of 16 sets of 8 words. -/
def loadTsets (b : List Byte) (s : State) : State :=
  let ks : List RegKind := [.stkTsetW0, .stkTsetW1, .stkTsetW2, .stkTsetW3, .stkTsetW4, .stkTsetW5, .stkTsetW6, .stkTsetW7]
  (List.range 2048).foldl (fun s n => ks.zipIdx.foldl (fun s k => s.plainWrite k.1 n (BitVec.ofNat 32 (num b (32 * n + 4 * k.2) 4))) s) s

/-- Why a patch section is rejected (R184), as STK_UCODE_STS.REJECT says it; 0 when it is not. -/
def patchReject (b : List Byte) : Nat :=
  let w := num b 8 2
  let m := num b 0x0A 1
  if num b 0 4 ≠ 0x4B545350 then 1
  else if num b 4 2 ≠ 0x103 then 2
  else if b.length ≠ 16 + 12 * w + 4 * m ∨ w < 1 ∨ 1024 < w ∨ 32 < m then 3
  else if (List.range m).any (fun i => decide (w ≤ num b (16 + 12 * w + 4 * i) 4 % 1024)) then 4
  else 0

/-- Patch words and match values written into one stoker (R185). -/
def patchChannel (b : List Byte) (s : State) (c : Nat) : State :=
  let w := num b 8 2
  let m := num b 0x0A 1
  let words : Tab (BitVec 96) := (List.range w).map fun i => (i, BitVec.ofNat 96 (num b (16 + 12 * i) 12))
  let s := s.setChan c { s.chan c with patch := words }
  let s := (s.put Fld.stkUcodeVerPatchVer (num b 6 2) c).put Fld.stkUcodeStsMatchCnt ((List.range m).filter fun i => num b (16 + 12 * w + 4 * i) 4 / 2 ^ 31 % 2 == 1).length c
  (List.range m).foldl (fun s i =>
    let v := BitVec.ofNat 32 (num b (16 + 12 * w + 4 * i) 4)
    let mask := Fld.stkMatchEn.mask ||| Fld.stkMatchRomAddr.mask ||| Fld.stkMatchPatchAddr.mask
    s.setReg .stkMatch (c * 32 + i) (v &&& mask)) s

/-- The patch section (R183 to R185). -/
def loadPatch (d : List Byte) (s : State) : State :=
  match sect? d 0x03 with
  | none => s
  | some b =>
    let r := patchReject b
    if r = 0 then (List.range 128).foldl (patchChannel b) s
    else ((List.range 128).foldl (fun s c => s.put Fld.stkUcodeStsReject r c) s).logPacked uSTK 0x1008 [] [(1, r)]

/-- The level-owner map of a profile is valid (R257). -/
def levelMapOk (p : Profile) (w : Word) : Bool :=
  let cb := p.cellBits
  let l := (List.range (2 ^ cb - 1)).map fun k => (w >>> (2 * k)).toNat % 4
  let states := (List.range (2 ^ cb)).map fun j => (List.range cb).map fun q => pageBit l j q
  l.all (fun o => decide (o < cb)) && decide (states.eraseDups.length = states.length)
    && (List.range cb).all fun q => decide ((l.filter (· == q)).length ≤ 8)

/-- Calibration registers and level-owner maps (R257, R569). -/
def loadCal (s : State) : State :=
  let k := s.img.cal
  let s := ((s.plainWrite .calCtl 0 k.ctl).plainWrite .calDeadline 0 k.deadline).plainWrite .calGb 0 k.gb
  s.img.profiles.foldl (fun s e =>
    let w := (k.lvlmap[e.1]?).getD 0
    (s.put Fld.cryLvlmapOwner (Fld.cryLvlmapOwner.get w) e.1).putFlag Fld.cryLvlmapValid (levelMapOk e.2 w) e.1) s

/-- The pair key and with it the mirror keys (R616, R621); the partner's hearth ID as MAP_TWIN_STS shows it. -/
def loadPair (s : State) : State :=
  match s.img.twin with
  | none => s.put Fld.glbBootStsTwin 3
  | some x =>
    let k := ((Config.kwUnwrap s.sec.kek2 x.pairKey).map (ofBytes 256)).getD 0
    ({ s with sec := { s.sec with pairKey := k, mirrorOn := true } } : State).put Fld.mapTwinStsPeerHid x.peerHid

/-- Firmware loaded and started (R607): firebox code and data, then policy firmware, whose cores are released; the watchdogs start (R667). -/
def loadFirmware (d : List Byte) (s : State) : State :=
  let f := sectionOf d 0x01
  let p := sectionOf d 0x02
  let x : Sec := { s.sec with
    fbxCode := sub f 64 (fwCode f)
    fbxData := sub f (64 + fwCode f) (fwData f) ++ List.replicate (fwBss f) 0
    fbxRun := true
    fbxHalted := false
    fbxPc := BitVec.ofNat 19 (fwEntry f) }
  let s : State := { s with sec := x }
  let s := dramWrite (fwLoad p) 3 (sub p 64 (fwCode p + fwData p) ++ List.replicate (fwBss p) 0) (.mapWrite (2 ^ 61)) s
  startWdogs { s with fwUp := true }

/-- The summary at the end of KINDLING (R120): IMG_ID, which fills OBJ and VAL, then SECVER and every section's VERSION. -/
def kindlingSummary (d : List Byte) (s : State) : State :=
  s.logEntry uGLB 0x1005 (BitVec.ofNat 64 (num d 0x20 8)) (BitVec.ofNat 64 (num d 0x28 8))
    (leBytes 4 (imgSecver d) ++ (directory d).flatMap fun e => leBytes 4 e.ver)

/-- KINDLING_END (R607): the sections are distributed, and firmware starts. `key` is the placement key that firebox firmware draws (R310). -/
def execKindlingEnd (key : BitVec 256) (s : State) : Out :=
  match s.img.copy with
  | none => .next s
  | some d =>
    onlyIf (s.running && s.stage == 2 && !s.fwUp && !s.pwr.waking) s
      (let s := loadHid (loadSections d s)
       let s := loadTsets (sectionOf d 0x12) (s.img.topo.foldl loadChannel s)
       let s := loadCal (loadPatch d s)
       let s := s.put Fld.mapPanCfgWindowMs s.img.hold.windowMs
       let s := draughtLoaded d (queueLoaded (sectionOf d 0x30) s).2
       let s := loadPair { s with sec := { s.sec with placement := key } }
       kindlingSummary d (loadFirmware d s))

/-! ## Stages of channels (R118) -/

/-- The last stage of bring-up: LEDGER, or at a wake from P2 TRAIN (R651). -/
def lastStage (s : State) : Nat := if s.pwr.waking then 5 else 7

/-- The stage of the least advanced online channel (DESIGN CHOICE, log entry 75). -/
def leastStage (s : State) : Nat :=
  (s.ch.filter fun e => e.2.alive != 0).foldl (fun n e => min n e.2.stage) (lastStage s)

/-- GLB_BOOT_STS.STAGE brought up to the channels' stages, with an entry for each stage entered (R118, R120). -/
def raiseStage (s : State) : State :=
  let n := leastStage s
  let s := ((List.range (n + 1)).filter fun k => decide (s.stage < k ∧ 3 ≤ k)).foldl (fun s k => enterStage k s) s
  if s.stage = 7 ∧ s.md.mapAt = 0 then
    { s with md := { s.md with mapAt := s.now, dramOk := false }, img := { s.img with copy := none } }.putFlag Fld.glbBootStsDemandMap (geoDemand s.img.geo)
  else s

/-- A target leaves start-up, offline with a code. -/
def bootOff (c t code : Nat) (s : State) : State :=
  let s := targetOff c t code s
  raiseStage (s.setChan c { s.chan c with alive := (s.chan c).alive &&& ~~~(1#8 <<< t) })

/-- A target's start-up on a channel still runs. -/
def isAlive (s : State) (c t : Nat) : Bool := (s.chan c).alive.getLsbD t

/-! ## TARGET_RESET (R94 to R96, R153) -/

/-- Targets escaped, where they are KX-qualified, and reset together (R96, R153). -/
def resetTargets (c : Nat) (l : List Nat) (s : State) : State :=
  if l.isEmpty then s
  else
    let mask (l : List Nat) : Nat := (l.map (2 ^ ·)).foldl (· + ·) 0
    let kx := l.filter fun t => (s.profileAt (c * 8 + t)).kxQual
    let s := if kx.isEmpty then s else busPut c (.escape (mask kx)) s
    let s := raiseCe c (busPut c (.cmd (mask l) 0xFF) s)
    let s := l.foldl (fun s t => (List.range 4).foldl (fun s i => s.setLun (lunKey c t i) { s.lun (lunKey c t i) with lastOfs := none, sensed := [] }) s) s
    let x := s.chan c
    s.setChan c { x with
      rb := l.foldl (fun b t => b &&& ~~~(1#8 <<< t)) x.rb
      rstAt := l.foldl (fun m t => Tab.put t s.now m) x.rstAt }

/-- A channel enters TARGET_RESET: FL_WP_N high, SDR mode 0; its ready targets are reset (R94, R96). At a wake from P2 it takes the targets that
were online. -/
def resetChannel (rb : List (Nat × BitVec 8)) (s : State) (e : Nat × Topo) : State :=
  let c := e.1
  let b := ((rb.find? fun x => x.1 == c).map (·.2)).getD 0xFF
  let mine := (List.range 8).filter fun t => e.2.present.testBit t && (!s.pwr.waking || s.flag Fld.stkTgtcfgOnline (c * 8 + t))
  let s := mine.foldl (fun s t => s.putFlag Fld.stkTgtcfgKx false (c * 8 + t)) s
  let s := (s.put Fld.stkChmodeCurMode 0 c).put Fld.stkChmodeCurRate (sdrRate 0) c
  let s := s.setChan c { s.chan c with
    wpN := true
    pins := {}
    rb := b
    latch := none
    caSlow := 0
    stage := 3
    alive := mine.foldl (fun a t => a ||| (1#8 <<< t)) 0
    bootAt := s.now
    rstAt := [] }
  resetTargets c (mine.filter b.getLsbD) s

/-- TARGET_RESET_STAGE (R94): every channel; `rb` gives FL_RB_N of each target, high for a channel not listed. -/
def execTargetResetStage (rb : List (Nat × BitVec 8)) (s : State) : Out :=
  onlyIf (s.running && s.stage == 2 && s.fwUp) s (raiseStage (s.img.topo.foldl (resetChannel rb) s))

/-- TARGET_READY_RESET (R95, R96): a target that has become ready in the wait is reset. -/
def execTargetReadyReset (c t : Nat) (s : State) : Out :=
  let x := s.chan c
  onlyIf (s.running && decide (c < 128 ∧ t < 8) && x.stage == 3 && isAlive s c t && (Tab.find t x.rstAt).isNone && x.rb.getLsbD t) s
    (resetTargets c [t] s)

/-- TARGET_BUSY_TIMEOUT (R95): still busy after LBT plus 1 ms. -/
def execTargetBusyTimeout (c t : Nat) (s : State) : Out :=
  let x := s.chan c
  onlyIf (s.running && decide (c < 128 ∧ t < 8) && x.stage == 3 && isAlive s c t && (Tab.find t x.rstAt).isNone && !x.rb.getLsbD t
      && decide (x.bootAt + ((s.profileAt (c * 8 + t)).lbt + 1000) * 1000 ≤ s.now)) s
    (bootOff c t 0x30 s)

/-- TRST_TIMEOUT (R96): busy beyond the first-reset tRST. -/
def execTrstTimeout (c t : Nat) (s : State) : Out :=
  let x := s.chan c
  match Tab.find t x.rstAt with
  | none => .next s
  | some a =>
    onlyIf (s.running && decide (c < 128 ∧ t < 8) && x.stage == 3 && isAlive s c t && !x.rb.getLsbD t
        && decide (a + (s.profileAt (c * 8 + t)).trstFirst * 1000 ≤ s.now)) s
      (bootOff c t 0x31 s)

/-! ## IDENTIFY (R97, R134, R208, R257) -/

/-- The ID bytes match the profile's pattern under its mask. -/
def idMatches (p : Profile) (id : List Byte) : Bool :=
  ((p.idPat.zip p.idMask).zipIdx).all fun e => ((id[e.2]?).getD 0 &&& e.1.2) == (e.1.1 &&& e.1.2)

/-- The signatures "ONFI" and "JEDEC" (R97). -/
def onfiSign (x : Ident) : Bool := x.onfi.take 4 == [0x4F, 0x4E, 0x46, 0x49]
def jedecSign (x : Ident) : Bool := x.jedec.take 5 == [0x4A, 0x45, 0x44, 0x45, 0x43]

/-- The first redundant copy of a parameter page whose CRC matches: of 256 B, or of 512 B by JEDEC; its CRC in its last two bytes (PRESUMED, log
entry 121). -/
def paramPage (x : Ident) : Option (List Byte) :=
  if !onfiSign x ∧ !jedecSign x then none
  else
    let n := if onfiSign x then 256 else 512
    x.pages.find? fun b => b.length == n && (crc16 (b.take (n - 2))).toNat == bytesNum (b.drop (n - 2))

/-- Page size, pages per block, planes and LUNs of a parameter page (PRESUMED, log entry 121). -/
def pageGeo (x : Ident) (b : List Byte) : Nat × Nat × Nat × Nat :=
  let n (o l : Nat) : Nat := bytesNum ((b.drop o).take l)
  (n 80 4, n 92 4, 2 ^ (n (if onfiSign x then 113 else 152) 1 % 16), n 100 1)

/-- The cycles of IDENTIFY: the ID, the signatures, and the copies of the parameter page (R97). -/
def identCycles (c : Nat) (x : Ident) (s : State) : State :=
  let s := readCycles c x.tgt 0x90 0x20 4 (readCycles c x.tgt 0x90 0x00 x.id.length s)
  let s := if onfiSign x then s else readCycles c x.tgt 0x90 0x40 5 s
  raiseCe c (if onfiSign x || jedecSign x then readCycles c x.tgt 0xEC (if onfiSign x then 0x00 else 0x40) x.pages.flatten.length s else s)

/-- The code a target goes offline with at IDENTIFY, or none and the LUNs it reports. A target without a signature has no parameter page. -/
def identify (s : State) (c : Nat) (x : Ident) : Sum Nat (Nat × Nat) :=
  let ti := c * 8 + x.tgt
  let p := s.profileAt ti
  let tp : Topo := Tab.get {} c s.img.topo
  let n := (tp.profile[x.tgt]?).getD 0xFF
  if !p.ok ∨ 15 < (tp.tset[x.tgt]?).getD 0 ∨ (1 < p.cellBits ∧ !s.flag Fld.cryLvlmapValid n) then .inl 0x31
  else if x.id.isEmpty ∨ !idMatches p x.id then .inl 0x31
  else match paramPage x with
  | none => .inl 0x32
  | some b =>
    let g := pageGeo x b
    if g.1 ≠ 4096 * p.cwPerPage ∨ g.2.1 ≠ p.wlPerBlk * p.cellBits ∨ g.2.2.1 ≠ p.planes ∨ p.luns < g.2.2.2 ∨ g.2.2.2 = 0 then .inl 0x31
    else .inr (g.2.2.2, x.adv)

/-- One target identified: in service with the LUNs it reports, or offline. At a wake its online LUNs stay as they are. -/
def identTarget (c : Nat) (ids : List Ident) (s : State) (t : Nat) : State :=
  if !isAlive s c t then s
  else match ids.find? fun x => x.tgt == t with
  | none => bootOff c t 0x31 s
  | some x =>
    let s := identCycles c x s
    match identify s c x with
    | .inl code => bootOff c t code s
    | .inr (luns, adv) =>
      let s := s.setChan c { s.chan c with adv := Tab.set 0 t adv (s.chan c).adv }
      if s.pwr.waking then s
      else (s.put Fld.stkTgtcfgLunOn (2 ^ luns - 1) (c * 8 + t)).putFlag Fld.stkTgtcfgOnline true (c * 8 + t)

/-- Every target still in start-up has been reset and is ready. -/
def resetsDone (s : State) (c : Nat) : Bool :=
  let x := s.chan c
  (List.range 8).all fun t => !x.alive.getLsbD t || ((Tab.find t x.rstAt).isSome && x.rb.getLsbD t)

/-- IDENTIFY_STAGE (R97): a channel's targets, with what they answer. -/
def execIdentifyStage (c : Nat) (ids : List Ident) (s : State) : Out :=
  onlyIf (s.running && decide (c < 128) && (s.chan c).stage == 3 && (s.chan c).alive != 0 && resetsDone s c) s
    (let s := raiseStage (s.setChan c { s.chan c with stage := 4 })
     (List.range 8).foldl (identTarget c ids) s)

/-! ## TRAIN (R98, R99) -/

/-- A target trained, again once where it fails, and entered into KX-DDR where that is allowed, with the guard bands of start-up (R561). KX_REQ then
stands at 1, for 0 would ask for exit (DEDUCED, log entry 78). On an IG-7316 a channel whose ceiling is KX-DDR is logged once (R2). -/
def trainTarget (c : Nat) (ms : List TrainSet) (s : State) (t : Nat) : State :=
  if !isAlive s c t then s
  else
    let none_ := (((Tab.get {} c s.img.topo : Topo).kxTset[t]?).getD 0xFF) == 0xFF
    let s := if s.part = .ig7316 ∧ s.get Fld.stkChmodeCeil c = 8 ∧ !none_ then logOnce c t 300 s else s
    let kx := if none_ then none else kxRate s c t
    let r := match ms.find? fun x => x.tgt == t with
      | none => (false, targetOff c t 0x33 s)
      | some x => trainTwice c t true kx s.img.cal.gbRd s.img.cal.gbWr x s
    if !r.1 then raiseStage (r.2.setChan c { r.2.chan c with alive := (r.2.chan c).alive &&& ~~~(1#8 <<< t) })
    else if r.2.flag Fld.stkTgtcfgKx (c * 8 + t) then r.2.putFlag Fld.stkTgtcfgKxReq true (c * 8 + t)
    else r.2

/-- TRAIN_STAGE (R98): a channel's online targets, with what their training measures. -/
def execTrainStage (c : Nat) (ms : List TrainSet) (s : State) : Out :=
  onlyIf (s.running && decide (c < 128) && (s.chan c).stage == 4 && (s.chan c).alive != 0) s
    (let s := raiseStage (s.setChan c { s.chan c with stage := 5 })
     (List.range 8).foldl (trainTarget c ms) s)

/-! ## LEDGER (R100, R574) -/

/-- A page read back holds a ledger page of the LUN's die: metadata as R572, LCRC matching. -/
def ledgerPageOk (raw : List Byte) : Bool :=
  let m := readMeta raw
  decide (m.kind = kJournal ∧ m.lta = 0 ∧ m.keyidx = 0xFFFF ∧ m.stripe = 0 ∧ m.spos = 0 ∧ m.seq = num raw 0x10 8 ∧ num raw 0 4 = 0x5247444C
    ∧ num raw 4 2 = 1 ∧ (crc32c (raw.take 0xFFC)).toNat = num raw 0xFFC 4)

/-- The page with the highest LSEQ. -/
def newestLedger (l : List (Bool × Nat × List Byte)) : Option (Bool × Nat × List Byte) :=
  (l.filter fun e => ledgerPageOk e.2.2).foldl (fun (a : Option (Bool × Nat × List Byte)) e =>
    match a with
    | none => some e
    | some b => if num b.2.2 0x10 8 < num e.2.2 0x10 8 then some e else some b) none

/-- The three conditions of R100 on a ledger page. -/
def ledgerHolds (s : State) (k : Nat) (f : List Byte) : Bool :=
  let t := (BitVec.ofNat 16 (num f 0x0C 2)).toInt
  let g := lunCh k / 8
  let now := (tempLive s g).getD (tempOf s g)
  decide (num f 8 4 = (s.profile k).ver ∧ (t - now).natAbs ≤ calThresh s)

/-- A LUN's ledger read back: kept for R575, or its gauges are to be seeded and a run queued at RUN. -/
def ledgerLun (reads : List LedgerRead) (s : State) (k : Nat) : State :=
  if !s.online k then s
  else
    let seed (s : State) : State :=
      ({ s with cal := { s.cal with seeded := (tgtIdx k :: s.cal.seeded).eraseDups } } : State).putFlag Fld.glbBootStsLedgerSeed true
    match reads.find? fun x => x.lun == k with
    | none => seed s
    | some x =>
      match newestLedger x.pages with
      | none => seed (s.setLedger k { second := false, page := x.front.1, lseq := 0 })
      | some (u, _, f) =>
        let s := s.setLedger k { second := u, page := if u then x.front.2 else x.front.1, lseq := num f 0x10 8 }
        if ledgerHolds s k f then { s with cal := { s.cal with accepted := Tab.put k (f.take 4096) s.cal.accepted } } else seed s

/-- LEDGER_STAGE (R100, R574): a channel's online LUNs, with what is read of them. -/
def execLedgerStage (c : Nat) (reads : List LedgerRead) (s : State) : Out :=
  onlyIf (s.running && decide (c < 128) && (s.chan c).stage == 5 && (s.chan c).alive != 0 && !s.pwr.waking) s
    (let s := raiseStage (s.setChan c { s.chan c with stage := 6 })
     let s := ((List.range 32).map (c * 32 + ·)).foldl (ledgerLun reads) s
     raiseStage (s.setChan c { s.chan c with stage := 7 }))

end Sys2Proof.Machine
end

