-- ==== Sys2Proof/Machine/Bringup.lean ====
section
/-! DEFINITION. Start-up from the MAP stage to RUN (chapters 3, 9 and 10): the format, the checkpoint read back, replay, pan reload, the frontier
search, and the entries to SERVE_READ and RUN. -/

namespace Sys2Proof.Machine

/-! ## Stripe sets (R284, R285) -/

/-- An element put before the first that it precedes. -/
def insBy (lt : α → α → Bool) (x : α) : List α → List α
  | [] => [x]
  | a :: r => if lt x a then x :: a :: r else a :: insBy lt x r

def sortBy (lt : α → α → Bool) (l : List α) : List α := l.foldl (fun r x => insBy lt x r) []

/-- Sets formed from the unassigned LUNs of one class: while 18 channels have one, those with the most are picked, ties to the lower channel, and
each gives its lowest LUN. -/
def formClass : Nat → List Nat → List (List Nat)
  | 0, _ => []
  | fuel + 1, l =>
    let chs := (l.map lunCh).eraseDups
    if chs.length < 18 then []
    else
      let cnt (c : Nat) : Nat := (l.filter fun k => lunCh k == c).length
      let best := (sortBy (fun a b => decide (cnt b < cnt a ∨ (cnt a = cnt b ∧ a < b))) chs).take 18
      let set := (sortBy (fun a b => decide (a < b)) best).filterMap fun c => (l.filter fun k => lunCh k == c).head?
      set :: formClass fuel (l.filter fun k => !set.contains k)

/-- The stripe sets of the online LUNs, class after class in order of their lowest LUN. -/
def formSets (s : State) : List (List Nat) :=
  let l := onlineLuns s
  ((l.map (geoClass s)).eraseDups).flatMap fun c => formClass l.length (l.filter fun k => geoClass s k == c)

/-- Sets in force, and the online LUNs in none of them as spares. -/
def putSets (l : List (List Nat)) (s : State) : State :=
  let t : Tab SetSt := l.zipIdx.map fun e => (e.2, { slots := e.1 })
  { s with md := { s.md with sets := t, spares := (onlineLuns s).filter fun k => !l.any fun x => x.contains k } }

/-! ## Gauge lines (R262, R575) -/

/-- A gauge line written to appliance DRAM. -/
def putGauge (k b : Nat) (off : List Int) (s : State) : State :=
  dramWrite (gaugeAddr s k b) 3 (glineBytes { off := off, acc := List.replicate 32 0, idx := gaugeIndex s k b }) (.gaugeWrite (blockKey k b)) s

/-- The offsets that a block's line takes: from the ledger's bins where R100 accepted it, else the seeds. -/
def gaugeFrom (s : State) (k : Nat) (f : Option (List Byte)) (u : UnitE) : List Int :=
  let p := s.profile k
  if u.slc ∧ (u.estate = 2 ∨ u.estate = 3 ∨ f.isSome) then seedsOf p true
  else match f with
  | none => seedsOf p u.slc
  | some f =>
    let bin (b : Nat) : List Int := ints (padded f (0xA0 + 32 * b) 32)
    if u.estate = 3 then
      let b := binOf ((List.range 16).map fun i => num f (0x40 + 4 * i) 4) (ageHours s u)
      if num f (0x80 + 2 * b) 2 = 0 then seedsOf p false else bin b
    else if u.estate = 2 then bin 0
    else seedsOf p false

/-- Every gauge line of the online LUNs written. -/
def loadGauges (s : State) : State :=
  (onlineLuns s).foldl (fun s k =>
    let f := Tab.find k s.cal.accepted
    (List.range (s.profile k).blkPerLun).foldl (fun s b =>
      putGauge k b (gaugeFrom s k f (s.unit (unitKey k (b / max 1 (s.profile k).planes)))) s) s) s

/-! ## Format (R104) -/

/-- ESTATE of a unit after a format. -/
def formatEstate (s : State) (x : Nat) : Nat :=
  if unitNo x < 2 * areaUnits s ∨ isLedger s x then 6 else 1

/-- Every codeword of word line 0 of a unit reads ERASED (R251, R104): `n` codewords, by their zero bits, each at most `lim`. -/
def wordLine0Erased (m : MapRead) (k u n lim : Nat) : Bool :=
  match m.wl0.find? fun x => x.1 == k && x.2.1 == u with
  | some x => decide (n ≤ x.2.2.length) && x.2.2.all fun z => decide (z ≤ lim)
  | none => false

/-- Word line 0 of erase units 0 and CKPT_UNITS reads ERASED on every online LUN (R104); the units of a checkpoint area are in SLC mode. -/
def checkpointsBlank (m : MapRead) (s : State) : Bool :=
  (onlineLuns s).all fun k =>
    let p := s.profile k
    let lim := s.get Fld.cryCtlErasedMax
    wordLine0Erased m k 0 (p.planes * p.cwPerPage) lim && wordLine0Erased m k (areaUnits s) (p.planes * p.cwPerPage) lim

/-- Sets that R690 names after a format, where units await their first erase. -/
def formatSets (s : State) : List Nat :=
  (s.md.sets.filter fun e => e.2.slots.all fun k => (s.profile k).slcSeal).map Prod.fst

/-- The first journal group of a stream: opened, its units' erases queued. -/
def formatStream (s : State) (k : Nat) : State :=
  let es := formatSets s
  match es[k % max 1 es.length]? with
  | none => s
  | some n =>
    let us := (s.set_ n).slots.map fun l =>
      ((List.range (s.profile l).unitsPerLun).find? fun u => (s.unit (unitKey l u)).estate == 1).getD 0
    let g := newGroupNo s n
    let s := putGrp n g { unit := us, rot := rotOf s n g s.wp.seq, gstate := 1, openSeq := s.wp.seq, slc := true } s
    let s := ((s.set_ n).slots.zip us).foldl (fun s e =>
      queueErase (unitKey e.1 e.2) (putUnit (unitKey e.1 e.2) (fun u => { u with estate := 5, slc := true, gref := gref n g }) s)) s
    s.setStream k { s.stream k with grp := some (n, g), lastSet := some n }

/-- DRAM of the map and the directory set UNMAPPED. -/
def clearMap (s : State) : State :=
  let s := { s with md := { s.md with mapNow := [] } }
  let s := (List.range (mapTiles s)).foldl (fun s i => dramWrite (s.img.geo.dirBase + 16 * i) 3 (dirBytes {}) (.mapWrite (2 ^ 61)) s) s
  if demandMap s then s
  else (List.range (mapTiles s)).foldl (fun s i => dramWrite (s.img.geo.mapBase + 4096 * i) 3 (List.replicate 4096 0) (.mapWrite (2 ^ 61)) s) s

/-- Steps 1 to 4 of a format up to the erases of the first journal groups; CHECKPOINT_START then takes checkpoint 1, whose end sets FORMATTED (DESIGN
CHOICE, log entry 85). -/
def format (s : State) : State :=
  let s := putSets (formSets s) s
  let s := (allUnits s).foldl (fun s x => putUnit x (fun _ => { estate := formatEstate s x }) s) s
  let s := loadGauges (clearMap { s with cal := { s.cal with accepted := [] } })
  let s : State := { s with wp := { s.wp with seq := 2 ^ 32 } }
  let s := (List.range (streamCount s)).foldl formatStream s
  { s with md := { s.md with formatting := true } }

/-! ## The checkpoint read back (R102, R103, R383) -/

/-- Fields of a header copy (Table 10-5). -/
def headNo (h : HeadCopy) : Nat := num h.field 8 8
def headSet (h : HeadCopy) : Nat := num h.field 6 1
def headSlot (h : HeadCopy) : Nat := num h.field 7 1
def headSets (h : HeadCopy) : Nat := num h.field 0x1C 1
def headTiles (h : HeadCopy) : Nat := num h.field 0x10 4 + num h.field 0x14 4 + num h.field 0x18 4

/-- A header copy is committed: by its seal (R233), or by a commit page whose 512 copies all equal M (R384). -/
def headCommitted (s : State) (h : HeadCopy) : Bool :=
  if (s.profile h.lun).slcSeal then sealOk h.sealRaw (headNo h)
  else h.sealRaw == (List.replicate 512 (numBytes 8 (sealMark (headNo h)))).flatten

/-- A journal page is committed: on every plane (R233). -/
def pageCommitted (p : JPage) : Bool := !p.seals.isEmpty && p.seals.all fun b => sealOk b p.jseq

/-- A header copy is committed, and its HCRC matches. -/
def headOk (s : State) (h : HeadCopy) : Bool :=
  headCommitted s h && decide (num h.field 0 4 = 0x54504B43 ∧ num h.field 4 2 = 1 ∧ (crc32c (h.field.take 0xFFC)).toNat = num h.field 0xFFC 4)

/-- The checkpoint of an area that is valid: one of its header copies. -/
def validIn (s : State) (m : MapRead) (area : Nat) : Option HeadCopy :=
  let hs := m.heads.filter fun h => h.area == area && headOk s h
  hs.find? fun h =>
    decide (0 < headSets h)
      && (List.range (headSets h)).all (fun n => decide (16 ≤ (hs.filter fun x => headSet x == n && headNo x == headNo h).length))
      && (List.range (headTiles h)).all fun t => m.tiles.any fun x => x.1 == area && x.2.1 == t

/-- The newest valid checkpoint. -/
def newestCkpt (s : State) (m : MapRead) : Option HeadCopy :=
  match validIn s m 0, validIn s m 1 with
  | some a, some b => some (if headNo a < headNo b then b else a)
  | a, none => a
  | none, b => b

/-- The LUN that stands for a slot whose header copy could not be read: none there is. -/
def noLun : Nat := 4096

/-- The set table that the header copies give (R284) (DEDUCED, log entry 81). -/
def headTable (s : State) (m : MapRead) (h : HeadCopy) : List (List Nat) :=
  let hs := m.heads.filter fun x => x.area == h.area && headOk s x && headNo x == headNo h
  (List.range (headSets h)).map fun n => (List.range 18).map fun i =>
    ((hs.find? fun x => headSet x == n && headSlot x == i).map (·.lun)).getD noLun

/-- The bytes of a part of the checkpoint's tiles: `n` tiles from tile `t` on. -/
def ckptBytes (m : MapRead) (area t n : Nat) : List Byte :=
  (List.range n).flatMap fun i => ((m.tiles.find? fun x => x.1 == area && x.2.1 == t + i).map fun x => padded x.2.2 0 4096).getD (List.replicate 4096 0)

/-- A block table entry, and a group record, read from bytes (Tables 10-3 and 08-1). -/
def readUnit (b : List Byte) : UnitE :=
  { pec := num b 0 4
    estate := num b 4 1
    slc := (num b 5 1).testBit 0
    retire := (num b 5 1).testBit 1
    refresh := (num b 5 1).testBit 2
    gref := num b 8 4
    valid := num b 0x0C 4
    closeAt := num b 0x10 8 }
def readGrp (s : State) (set : Nat) (b : List Byte) : Grp :=
  let us := (List.range 18).map fun i => num b (4 * i) 4
  let u := s.unit (unitKey (((s.set_ set).slots[0]?).getD 0) ((us[0]?).getD 0))
  { unit := us
    rot := num b 0x48 1
    gstate := num b 0x49 1
    rowsDone := num b 0x4A 2
    lost := num b 0x4C 4
    openSeq := num b 0x50 8
    slc := u.slc
    closeAt := u.closeAt }

/-- A slot of a set is lost where a group record says so; a lost slot with an online LUN is being rebuilt (R316). -/
def loadLost (s : State) (n : Nat) : State :=
  let gs := s.md.groups.filter fun e => e.1 / 2 ^ 18 == n
  let lost := gs.foldl (fun a e => a ||| e.2.lost) 0
  let x := s.set_ n
  let again := (List.range 18).filter fun i => lost.testBit i && s.online ((x.slots[i]?).getD noLun)
  let s := s.modSet n fun x => { x with lost := lost }
  { s with md := { s.md with rebuilds := s.md.rebuilds ++ again.map fun i => (n, i) } }

/-- Sets, tables and directory of a checkpoint loaded, and written to appliance DRAM. -/
def loadCkpt (m : MapRead) (h : HeadCopy) (s : State) : State :=
  let s := putSets (headTable s m h) s
  let nd := num h.field 0x10 4
  let nb := num h.field 0x14 4
  let dir := ckptBytes m h.area 0 nd
  let bt := ckptBytes m h.area nd nb
  let gt := ckptBytes m h.area (nd + nb) (num h.field 0x18 4)
  let s := (allUnits s).zipIdx.foldl (fun s e => putUnit e.1 (fun _ => readUnit (sub bt (32 * e.2) 32)) s) s
  let n := grpsPerSet s
  let s := (List.range (s.md.sets.length * n)).foldl (fun s i =>
    let b := sub gt (128 * i) 128
    if b.all (· == 0) then s else putGrp (i / max 1 n) (i % max 1 n) (readGrp s (i / max 1 n) b) s) s
  let s := (List.range (mapTiles s)).foldl (fun s i => s.modDir i fun d => { d with loc := num dir (8 * i) 8 }) s
  let s := (s.md.sets.map Prod.fst).foldl loadLost s
  let off := (s.md.sets.flatMap fun e => e.2.slots).filter fun k => !s.online k
  { s with md := { s.md with ckptNo := headNo h, ckptArea := h.area, offQ := s.md.offQ ++ off.filter fun k => decide (k < noLun) } }.put
    Fld.mapCkptStsCkptNo (headNo h)

/-! ## Replay (R347, R349, R379) -/

/-- What replay threads: the entries it has changed, and the state. -/
structure Rep where
  cur : Tab Nat
  st  : State

/-- The records of a page, without the empty ones. -/
def pageRecs (p : JPage) : List JRec :=
  ((List.range (p.data.length / 32)).map fun i =>
    let b := sub p.data (32 * i) 32
    (⟨num b 0 1, num b 2 6, num b 8 8, num b 0x10 8, num b 0x18 8⟩ : JRec)).filter fun r => r.rtype != 0

/-- The valid tiles of the unit that an entry names, changed. -/
def bumpValid (e : Nat) (f : Nat → Nat) (s : State) : State :=
  if entState e = 1 then putUnit (entUnit s e) (fun u => { u with valid := f u.valid }) s else s

/-- A map entry set by replay. -/
def repSet (lta new old : Nat) (r : Rep) : Rep :=
  ⟨Tab.put lta new r.cur, bumpValid new (· + 1) (bumpValid old (· - 1) r.st)⟩

/-- A group's units, changed. -/
def modUnits (set : Nat) (us : List Nat) (f : UnitE → UnitE) (s : State) : State :=
  ((s.set_ set).slots.zip us).foldl (fun s e => putUnit (unitKey e.1 e.2) f s) s

/-- The records of groups and units (Tables 09-7 and 10-4). -/
def repGroup (r : JRec) (s : State) : State :=
  let ref := r.lta % 2 ^ 26
  let set := ref / 2 ^ 18
  let g := ref % 2 ^ 18
  let x := s.grp set g
  if r.rtype = jErased then
    putUnit r.lta (fun u => { u with estate := 0, pec := u.pec + wearOf s r.lta, retire := false, refresh := false, gref := 0, valid := 0 }) s
  else if r.rtype = jGroupOpen then
    putGrp set g { unit := List.replicate 18 0, rot := r.newPa % 32, gstate := 1, openSeq := r.seq, slc := r.newPa.testBit 5 } s
  else if r.rtype = jGroupUnit then
    match x with
    | none => s
    | some x =>
      let n := r.newPa / 2 ^ 32 % 32
      let u := r.newPa % 2 ^ 32
      let s := putGrp set g { x with unit := x.unit.set n u } s
      putUnit (unitKey (((s.set_ set).slots[n]?).getD noLun) u) (fun e => { e with
        estate := if x.slc then 5 else 2
        slc := x.slc
        gref := ref
        valid := 0 }) s
  else if r.rtype = jGroupClose then
    match x with
    | none => s
    | some x => modUnits set x.unit (fun u => if u.estate = 2 then { u with estate := 3, closeAt := r.seq } else u)
        (putGrp set g { x with gstate := 2, closeAt := r.seq } s)
  else if r.rtype = jRetire then putUnit r.lta (fun u => { u with estate := 7, retire := false }) s
  else if r.rtype = jReserve then
    match x with
    | none => s
    | some x =>
      let s := modUnits set x.unit (fun u => { u with estate := 4 }) (putGrp set g { x with gstate := 0 } s)
      { s with wp := { s.wp with reserve := s.wp.reserve ++ [(set, g)] }, md := { s.md with flushEnded := false } }
  else if r.rtype = jRelease then releaseGroup set g { s with wp := { s.wp with reserve := s.wp.reserve.erase (set, g) } }
  else if r.rtype = jFlushEnd then { s with md := { s.md with flushEnded := true } }
  else if r.rtype = jSlotLost then markLost (r.lta / 32) (r.lta % 32) s
  else if r.rtype = jSpareIn then
    let n := r.lta / 32
    let i := r.lta % 32
    let k := r.newPa % 2 ^ 12
    let s := s.modSet n fun y => { y with slots := y.slots.set i k }
    { s with md := { s.md with spares := s.md.spares.erase k, rebuilds := s.md.rebuilds ++ [(n, i)] } }
  else if r.rtype = jSetDrain then s.modSet r.lta fun y => { y with drain := true }
  else s.logPacked uMAP 0x100D [(1, r.rtype)]

/-- One record applied. `ents` are the entries that the checkpoint's map holds. -/
def repRec (ents : List (Nat × Nat)) (r : Rep) (x : JRec) : Rep :=
  let e := Tab.get (((ents.find? fun e => e.1 == x.lta).map (·.2)).getD 0) x.lta r.cur
  if x.rtype = jMap ∨ x.rtype = jUnmap then
    let new := if x.rtype = jMap then x.newPa else 0
    let s : State := { r.st with md := { r.st.md with seqMax := max r.st.md.seqMax x.seq } }
    if e = x.oldPa then repSet x.lta new e ⟨r.cur, s⟩
    else if e = new then ⟨r.cur, s⟩
    else ⟨r.cur, s.logPacked uMAP 0x100D [(1, x.rtype), (6, x.lta)]⟩
  else if x.rtype = jPoison then repSet x.lta poisonEntry e r
  else ⟨r.cur, repGroup x r.st⟩

/-- The pages that replay of a stream applies, from an expected jseq on (R349), the jseq expected next; none where a page could not be read. -/
def pagesApplied : List JPage → Nat → Option (List JPage × Nat)
  | [], e => some ([], e)
  | p :: rest, e =>
    if !p.readable then none
    else if pageCommitted p ∧ p.jseq = e then (pagesApplied rest (e + 1)).map fun a => (p :: a.1, a.2)
    else if pageCommitted p ∧ p.jseq + 1 = e then (pagesApplied rest e).map fun a => (p :: a.1, a.2)
    else match rest with
    | q :: _ => if !pageCommitted p ∧ q.readable ∧ pageCommitted q ∧ q.jseq = e then pagesApplied rest e else some ([], e)
    | [] => some ([], e)

/-- The pointer of a stream in a header: jseq, the unit of its page, and the word line. -/
def headPtr (h : HeadCopy) (k : Nat) : Nat × Nat × Nat :=
  let o := 0x20 + 16 * k
  (num h.field o 8, num h.field (o + 8) 4, num h.field (o + 12) 2)

/-- The place of the pointer's page: set, group and position. -/
def ptrPlace (s : State) (p : Nat × Nat × Nat) : Option (Nat × Nat × Nat) :=
  let u := s.unit p.2.1
  match s.grp (u.gref / 2 ^ 18) (u.gref % 2 ^ 18), slotIn (s.set_ (u.gref / 2 ^ 18)) (unitLun p.2.1) with
  | some g, some n => some (u.gref / 2 ^ 18, u.gref % 2 ^ 18, 16 * p.2.2 + slotPos g.rot p.2.2 n)
  | _, _ => none

/-- Groups that the applied pages have left behind, with the jseq after their last page (R386). -/
def groupsLeft (cur : Nat × Nat) (l : List JPage) : List (Nat × Nat × Nat) :=
  let gs := (l.map fun p => (p.set, p.group)).eraseDups
  (gs.filter (· != cur)).map fun g => (g.1, g.2, ((l.filter fun p => (p.set, p.group) == g).map fun p => p.jseq + 1).foldl max 0)

/-- A stream replayed: its records applied, and where its next page goes: after the last page of its groups that has been programmed. -/
def repStream (m : MapRead) (h : HeadCopy) (r : Option Rep) (k : Nat) : Option Rep :=
  match r with
  | none => none
  | some r =>
    let pages := ((m.pages.find? fun e => e.1 == k).map (·.2)).getD []
    let ptr := headPtr h k
    match pagesApplied pages ptr.1 with
    | none => none
    | some (l, e) =>
      let start := ptrPlace r.st ptr
      let r := l.foldl (fun r p => (pageRecs p).foldl (repRec m.entries) r) r
      let s := r.st
      let at_ : Option (Nat × Nat × Nat) := match pages.getLast? with
        | some p => some (p.set, p.group, p.pos + 1)
        | none => start
      let opened := (l.flatMap pageRecs).filterMap fun x =>
        if x.rtype = jGroupOpen ∧ x.newPa.testBit 5 ∧ !s.wp.reserve.contains (x.lta % 2 ^ 26 / 2 ^ 18, x.lta % 2 ^ 18) then
          some (x.lta % 2 ^ 26 / 2 ^ 18, x.lta % 2 ^ 18) else none
      let recs := l.map fun p => (p.jseq, pageRecs p)
      let x := s.stream k
      let x : Stream := { x with
        jseq := e
        ptr := ptr.1
        ptrOld := ptr.1
        since_ckpt := (recs.map fun p => p.2.length).foldl (· + ·) 0
        pages := recs }
      match at_ with
      | none => some ⟨r.cur, s.setStream k x⟩
      | some (n, g, pos) =>
        let next := (opened.filter (· != (n, g))).getLast?
        let x : Stream := if pos < journalPages s n then
            { x with grp := some (n, g), pos := pos, nextG := next, lastSet := some ((next.map (·.1)).getD n), old := groupsLeft (n, g) l }
          else
            { x with grp := next, pos := 0, lastSet := some ((next.map (·.1)).getD n), old := groupsLeft ((next.getD (noLun, 0))) l }
        some ⟨r.cur, s.setStream k x⟩

/-- Journal groups of no stream's pages lie before every pointer: they go with the next checkpoint. -/
def oldJournals (s : State) : State :=
  let mine := s.wp.streams.flatMap fun e => e.2.grp.toList ++ e.2.nextG.toList ++ e.2.old.map fun g => (g.1, g.2.1)
  let gs := (s.md.units.filter fun e => e.2.estate == 5).map fun e => (e.2.gref / 2 ^ 18, e.2.gref % 2 ^ 18)
  let lone := gs.eraseDups.filter fun g => !mine.contains g
  s.setStream 0 { s.stream 0 with old := (lone.map fun g => (g.1, g.2, 0)) ++ (s.stream 0).old }

/-- A full map read whole into appliance DRAM (R101, R102): each map tile that the directory names as the media give it, the others UNMAPPED; none
where one cannot be read. -/
def loadMap (m : MapRead) (s : State) : Option State :=
  if demandMap s then some s
  else (List.range (mapTiles s)).foldl (fun (o : Option State) mt =>
    match o with
    | none => none
    | some s =>
      let a := s.img.geo.mapBase + 4096 * mt
      if entState (s.dirOf mt).loc = 1 then
        (m.map.find? fun x => x.1 == mt).map fun x => dramWrite a 3 (padded x.2 0 4096) (.mapWrite (2 ^ 61)) s
      else some (dramWrite a 3 (List.replicate 4096 0) (.mapWrite (2 ^ 61)) s)) (some s)

/-- The entries that replay has changed: into the overlay, or into the map region (R102, R389). -/
def putEntries (cur : Tab Nat) (s : State) : State :=
  let s := { s with md := { s.md with mapNow := cur } }
  if demandMap s then { s with md := { s.md with ovl := cur } }
  else cur.foldl (fun s e =>
    (dramWrite (s.img.geo.mapBase + 8 * e.1) 3 (numBytes 8 e.2) (.mapWrite (2 ^ 61)) s).modDir (e.1 / 512) fun d => { d with dirty := true }) s

/-- MAP_STAGE (R102 to R104, R349, R575), with what is read from the media. -/
def execMapStage (m : MapRead) (s : State) : Out :=
  onlyIf (s.running && s.stage == 7 && !s.md.placed) s
    (match newestCkpt s m with
     | some h =>
       match loadMap m (loadCkpt m h s) with
       | none => bootFail 0x40 s
       | some s =>
       let s : State := { s with wp := { s.wp with
         reserve := ((s.md.units.filter fun e => e.2.estate == 4).map fun e => (e.2.gref / 2 ^ 18, e.2.gref % 2 ^ 18)).eraseDups } }
       match (List.range (streamCount s)).foldl (repStream m h) (some ⟨[], s⟩) with
       | none => bootFail 0x41 s
       | some r =>
         let s := loadGauges (oldJournals (putEntries r.cur r.st))
         { s with md := { s.md with placed := true } }
     | none =>
       if s.img.geo.format ∧ checkpointsBlank m s then
         let s := format s
         { s with md := { s.md with placed := true } }
       else bootFail 0x40 s)

/-- DRAM_NO_ANSWER (R106): 1 s after the start of the MAP stage, appliance DRAM has answered no map or pan request with OK. -/
def execDramNoAnswer (s : State) : Out :=
  onlyIf (s.running && s.stage == 7 && !s.md.dramOk && decide (s.md.mapAt + 1000000000 ≤ s.now)) s (bootFail 0x42 s)

/-! ## Pan reload (R364) -/

/-- The copies that reload keeps: for each LTA and kind of copy the one with the highest SEQ. -/
def keepNewest (l : List (Meta × List Byte)) : List (Meta × List Byte) :=
  l.foldl (fun a e =>
    let same (x : Meta × List Byte) : Bool := x.1.lta == e.1.lta && (x.1.keyidx == 0xFFFE) == (e.1.keyidx == 0xFFFE)
    match a.find? same with
    | some x => if x.1.seq < e.1.seq then e :: a.filter (fun y => !same y) else a
    | none => e :: a) []

/-- A copy back into a slot: an own tile by a journal handoff, a mirror copy as it was held (DEDUCED, log entry 82). -/
def reloadCopy (s : State) (e : Meta × List Byte) : State :=
  let m := e.1
  let h := s.img.hold
  if m.keyidx = 0xFFFE then
    let slot := firstFree s.wp.mir 0
    if mirSlots s ≤ slot then s
    else
      let head := numBytes 6 m.lta ++ numBytes 2 m.hid ++ numBytes 8 m.seq ++ numBytes 2 0xFFFE ++ numBytes 1 0x21 ++ numBytes 1 0
      let crc := (crc32c (e.2 ++ head)).toNat
      let s := dramWrite (slotAddr h.mirBase (mirSlots s) slot) 2 e.2 .descWrite s
      let s := dramWrite (descAddr h.mirBase slot) 2 (head ++ numBytes 4 crc ++ numBytes 8 s.now ++ List.replicate 32 0) .descWrite s
      let x : Mir := { st := 0x21, lta := m.lta, hid := m.hid, seq := m.seq, admTime := s.now, keyidx := 0xFFFE, tcrc := BitVec.ofNat 32 crc }
      { s with wp := { s.wp with mir := Tab.put slot x s.wp.mir } }
  else
    let slot := firstFree s.wp.own 0
    if ownSlots s ≤ slot then s
    else
      let p : Pan := {
        st := 0x11
        lta := m.lta
        hid := m.hid
        seq := m.seq
        keyidx := m.keyidx
        urgent := false
        admTime := s.now
        oldPa := 0
        newPa := 0 }
      let s := s.putPan slot p
      let a := handoffJob s slot p none e.2 0
      a.2.queueJob a.1

/-- PAN_RELOAD (R105, R364): `ms` holds, for each reserved group, the first 4,128 B of each data member that decodes, up to the first row that
reads ERASED. -/
def execPanReload (ms : List (Nat × Nat × List (List Byte))) (s : State) : Out :=
  onlyIf (s.running && s.stage == 7 && s.md.placed && !s.md.reloadDone) s
    (let held := ms.filter fun g => s.wp.reserve.contains (g.1, g.2.1) && !g.2.2.isEmpty
     let good := held.flatMap fun g => g.2.2.filterMap fun raw =>
       match checkTile s none raw with
       | .ok plain => if (readMeta raw).kind = kData ∧ (readMeta raw).lta ≠ 0xFFFFFFFFFFFF then some (readMeta raw, plain) else none
       | _ => none
     let keep := (keepNewest good).reverse
     let top := (good.map fun e => e.1.seq).foldl max s.md.seqMax
     let s : State := { s with md := { s.md with seqMax := top } }
     let s := keep.foldl reloadCopy s
     let s := s.put Fld.mapFlushStsReloaded (min 0xFFFFF keep.length)
     let s := s.putFlag Fld.mapFlushStsReloadInc (!held.isEmpty && !s.md.flushEnded)
     { s with wp := { s.wp with reloaded := held.map fun g => (g.1, g.2.1) }, md := { s.md with reloadDone := true } })

/-! ## SERVE_READ (R107, R111, R334, R365) -/

/-- Every enabled sluice scanned once, as if its doorbell had been written (R107); in strict mode the fetch limit stands where HEAD does not. -/
def scanAll (s : State) : State :=
  let l := (s.regs.filter fun e => e.1 % 256 == RegKind.slqCfg.ctorIdx).map fun e => e.1 / 256
  l.foldl (fun s i =>
    if s.flag Fld.slqCfgValid i ∧ s.flag Fld.slqCtlEn i ∧ !s.flag Fld.slqStsError i then
      slqDbWrite i (BitVec.ofNat 32 (s.sluice i).limit) s else s) s

/-- Counts of what start-up has left offline (R119) (DEDUCED, log entry 87). -/
def countOffline (s : State) : State :=
  let tg := s.img.topo.flatMap fun e => ((List.range 8).filter e.2.present.testBit).map (e.1 * 8 + ·)
  let offT := tg.filter fun ti => !s.flag Fld.stkTgtcfgOnline ti
  let luns (ti : Nat) : Nat := (if (s.profileAt ti).ok then (s.profileAt ti).luns else 1) - countOnes (BitVec.ofNat 4 (s.get Fld.stkTgtcfgLunOn ti))
  let chs := s.img.topo.filter fun e => e.2.present != 0 && (onlineTargets s e.1).isEmpty
  ((s.put Fld.glbBootCntLunOff ((tg.map luns).foldl (· + ·) 0)).put Fld.glbBootCntTgtOff offT.length).put Fld.glbBootCntChOff chs.length

/-- The SEQ counter at SERVE_READ (R334). -/
def startSeq (s : State) : State := { s with wp := { s.wp with seq := max s.wp.seq (1 + s.md.seqMax + 2 ^ 32) } }

/-- RELEASE records for the groups that reload read, and RESERVE records for the new reserve; nothing is destaged until they are sealed (R365). -/
def renewReserve (s : State) : State :=
  let l := s.wp.reloaded
  let s : State := { s with wp := { s.wp with reserve := s.wp.reserve.filter fun g => !l.contains g } }
  let s := l.foldl (fun s g => jAppend 0 ⟨jRelease, gref g.1 g.2, 0, 0, 0⟩ s) s
  let s := fillReserve 4096 s
  { s with wp := { s.wp with destageHeld := reservesOpen s, reloaded := [] } }

/-- A handoff of a reloaded copy is still under way. -/
def handoffs (s : State) : Bool :=
  let h (p : JobPath) : Bool := match p with
    | .handoff _ => true
    | _ => false
  (s.mov.jobs.any fun j => h j.path) || s.mov.ctxs.any fun e => h e.2.job.path

/-- SERVE_READ_ENTRY (R107, R111): replay and reload are complete, or checkpoint 1 after a format is, and no trip latch is set. -/
def execServeReadEntry (s : State) : Out :=
  let ready := s.md.placed && !s.md.formatting && (s.flag Fld.glbBootStsFormatted || (s.md.reloadDone && !handoffs s))
  onlyIf (s.running && s.stage == 7 && ready && decide (s.reg .trpSts &&& 7 = 0)) s
    (let s := enterStage 8 (countOffline s)
     let s : State := { s with md := { s.md with c0Tok := 400, c0At := s.now } }
     let s := renewReserve (budget (startSeq s))
     budget (scanAll s))

/-! ## RUN (R91, R109, R302, R366, R608) -/

/-- Data groups left open. -/
def openData (s : State) : List (Nat × Nat) :=
  (s.md.groups.filter fun e => e.2.gstate == 1 && !e.2.slc && decide (e.1 % 2 ^ 18 < 2 ^ 18 - 256)).map fun e => (e.1 / 2 ^ 18, e.1 % 2 ^ 18)

/-- FRONTIER_SEARCH (R366): the frontier of an open data group on each unit, the slots on which it found an interrupted program, and the largest
SEQ of the members it read (DEDUCED, log entry 83). -/
def execFrontierSearch (set g : Nat) (front : List Nat) (broken : List Nat) (seq : Nat) (s : State) : Out :=
  onlyIf (s.running && s.md.placed && (s.stage == 7 || s.stage == 8) && (openData s).contains (set, g)) s
    (let s := broken.foldl (fun s n => s.logPacked uMAP 0x1010 [(1, set), (3, g), (1, n)]) s
     let s : State := { s with md := { s.md with seqMax := max s.md.seqMax seq } }
     let s := if s.stage = 8 then startSeq s else s
     let rows := front.foldl min (front.headD 0)
     match s.grp set g with
     | some x => closeGroup set g (s.setGrp set g { x with rowsDone := rows })
     | none => s)

/-- Bits burned, lowest first, until `n` of them read 1. -/
def burnTo {w : Nat} (n : Nat) (x : BitVec w) : BitVec w :=
  (List.range w).foldl (fun x i => if countOnes x < n ∧ !x.getLsbD i then x ||| (1#w <<< i) else x) x

/-- The anti-rollback counters advanced (R91, R608). -/
def advanceCounters (s : State) : State :=
  if s.img.commit then
    let h := s.sec.row
    let h : Hearth := { h with krb := burnTo s.img.secver h.krb, frb := burnTo s.img.svn h.frb }
    (({ s with sec := { s.sec with row := h } } : State).put Fld.secCtrKrb (countOnes h.krb)).put Fld.secCtrFrb (countOnes h.frb)
  else s

/-- RATE at entry to RUN, and the read-around bucket full (R302). -/
def fillAround (s : State) : State :=
  let ks := (s.md.sets.flatMap fun e => e.2.slots).filter s.online
  let tr := maxOf (ks.map fun k => (s.profile k).trMax)
  let rate := ks.length * 100000 / (64 * (100 * tr + 213))
  let s := s.put Fld.mapRaCfgRate rate
  { s with md := { s.md with raTok := s.get Fld.mapRaCfgRate, raAt := s.now } }

/-- Sets with a lost slot that no rebuild serves take a spare, or drain (R316, R317). -/
def fillLost (s : State) : State :=
  (s.md.sets.map Prod.fst).foldl (fun s n =>
    (List.range 18).foldl (fun s i =>
      let x := s.set_ n
      if x.lost.testBit i ∧ !x.drain ∧ !s.online ((x.slots[i]?).getD noLun) ∧ !s.md.rebuilds.contains (n, i) then replaceLun n i s else s) s) s

/-- Runs of every online target in one sweep (R557). -/
def wakeRuns (s : State) : State := queueSweep ((List.range 128).flatMap (onlineTargets s)) s

/-- MAP_WA_HOST and MAP_WA_MEDIA count from the start of RUN (R416). -/
def startCounts (s : State) : State :=
  let s := (s.put Fld.mapWaHostTiles 0).put Fld.mapWaMediaTiles 0
  { s with md := { s.md with
      waHost := 0
      waMedia := 0 } }

/-- RUN_ENTRY (R109): from SERVE_READ once no data group is left open; or, at a wake from P2, once every channel is trained (R651). -/
def execRunEntry (s : State) : Out :=
  if s.pwr.waking then
    onlyIf (s.running && s.stage == 5 && (s.ch.all fun e => e.2.alive == 0 || e.2.stage == 5)) s
      (let s := enterStage 9 { s with pwr := { s.pwr with waking := false } }
       let s : State := { s with md := { s.md with c0Tok := 400, c0At := s.now } }
       wakeRuns (scanAll s))
  else
    onlyIf (s.running && s.stage == 8 && (openData s).isEmpty) s
      (let s := startCounts (enterStage 9 s)
       let s := nextRebuild (fillLost (fillAround (advanceCounters s)))
       let s := if s.cal.seeded.isEmpty then s else queueSweep s.cal.seeded { s with cal := { s.cal with seeded := [] } }
       if s.pwr.wokeP3 then wakeRuns { s with pwr := { s.pwr with wokeP3 := false } } else s)

end Sys2Proof.Machine
end

