-- ==== Sys2Proof/Machine/Locks.lean ====
section
/-! DEFINITION. The hardware locks (chapter 16, R593 to R599, R602): who holds them, leases and
forced releases. LCK_STS holds HELD, BROKEN and OWNER; `leases` holds when each lease ends. -/

namespace Sys2Proof.Machine

/-- The lease time in force, in ns; a LEASE of 0 acts as 1 (R595, R602). -/
def leaseNs (s : State) : Nat := max 1 (s.get Fld.lckCfgLease) * 100000

/-- Lock `n` granted to, or renewed by, an owner: its lease starts (R593). -/
def grantLock (s : State) (n src : Nat) : State :=
  let s := (s.putFlag Fld.lckStsHeld true n).put Fld.lckStsOwner src n
  { s with leases := Tab.put n (s.now + leaseNs s) s.leases }

/-- Lock `n` free: HELD and OWNER 0, no lease. -/
def freeLock (s : State) (n : Nat) : State :=
  let s := (s.putFlag Fld.lckStsHeld false n).put Fld.lckStsOwner 0 n
  { s with leases := Tab.del n s.leases }

/-- The cause of a forced release, as its log entry names it (R597): the spec gives no code for it
(DESIGN CHOICE, log entry 5). -/
def breakCause (byReset : Bool) : BitVec 64 := Config.lockBreakCause byReset

/-- A forced release (R597): freed, BROKEN set, counted, logged. -/
def breakLock (s : State) (n : Nat) (byReset : Bool) : State :=
  let owner := s.get Fld.lckStsOwner n
  let s := ((freeLock s n).putFlag Fld.lckStsBroken true n).inc Fld.lckGstsBreaks
  s.logEntry uLCK 0x1016 (packBytes [(1, n), (1, owner)]) (breakCause byReset)

/-- The effect of a write of LCK_CTL of lock `n` (R593, R594). -/
def lockCtlWrite (r : Req) (n : Nat) (w : Word) (s : State) : State :=
  let acq := Fld.lckCtlAcq.get w = 1
  let rel := Fld.lckCtlRel.get w = 1
  let held := s.flag Fld.lckStsHeld n
  let mine := held && s.get Fld.lckStsOwner n == r.src
  if acq ∧ rel then s.inc Fld.lckGstsRefused
  else if acq then
    if held && !mine then s.inc Fld.lckGstsRefused else grantLock s n r.src
  else if rel then
    if mine then freeLock s n else s.inc Fld.lckGstsRefused
  else s

/-- The effect of a write of LCK_STS of lock `n`: only the owner of the moment clears BROKEN
(R597). -/
def lockStsWrite (r : Req) (n : Nat) (w : Word) (s : State) : State :=
  if s.flag Fld.lckStsHeld n && s.get Fld.lckStsOwner n == r.src then s.plainWrite .lckSts n w else s

/-- Every lock that an initiator holds is force-released (R596), in ascending number. -/
def breakAll (s : State) (id : Nat) : State :=
  (s.leases.map Prod.fst).foldl
    (fun s n => if s.get Fld.lckStsOwner n = id ∧ s.flag Fld.lckStsHeld n then breakLock s n true else s) s

/-- The effect of a write of LCK_OWNER_RST (R596). -/
def ownerRst (w : Word) (s : State) : State :=
  if Fld.lckOwnerRstGo.get w = 1 then breakAll s (Fld.lckOwnerRstId.get w) else s

/-- LOCK_ACQUIRE (R593): a write of LCK_CTL with ACQ 1. -/
def execLockAcquire (r : Req) (n : Nat) (w : Word) (s : State) : Out :=
  onlyIf (decide (n < 256 ∧ Fld.lckCtlAcq.get w = 1)) s (regWrite s r .lckCtl n w (lockCtlWrite r n w))

/-- LOCK_RELEASE (R594): a write of LCK_CTL with REL 1. -/
def execLockRelease (r : Req) (n : Nat) (w : Word) (s : State) : Out :=
  onlyIf (decide (n < 256 ∧ Fld.lckCtlRel.get w = 1)) s (regWrite s r .lckCtl n w (lockCtlWrite r n w))

/-- LEASE_EXPIRY (R595): the lease of a held lock has run out (DESIGN CHOICE, log entry 94). -/
def execLeaseExpiry (n : Nat) (s : State) : Out :=
  onlyIf (s.coreOn && s.flag Fld.lckStsHeld n && decide ((Tab.get 0 n s.leases) ≤ s.now)) s
    (breakLock s n false)

/-- LCK_OWNER_RST (R596). -/
def execLckOwnerRst (r : Req) (w : Word) (s : State) : Out :=
  .next (regWrite s r .lckOwnerRst 0 w (ownerRst w))

/-- BROKEN_CLEAR (R597). -/
def execBrokenClear (r : Req) (n : Nat) (w : Word) (again : Bool) (s : State) : Out :=
  onlyIf (decide (n < 256)) s (regWrite s r .lckSts n w fun s =>
    let s := lockStsWrite r n w s
    if again then s.putFlag Fld.lckStsBroken true n else s)

end Sys2Proof.Machine
end

