-- ==== Sys2Proof/Machine/Sanitize.lean ====
section
/-! DEFINITION. Sanitize (R629 to R631). -/

namespace Sys2Proof.Machine

/-- The effect of a write of SEC_SAN_CTL (R629, R630, R640). -/
def sanWrite (w : Word) (s : State) : State :=
  if s.flag Fld.secSanStsActive then s
  else
    let s := s.plainWrite .secSanCtl 0 w
    if Fld.secSanCtlGo.get w = 1 ∧ Fld.secSanCtlConfirm.get w = 0x5A4E then
      let s := ((s.putFlag Fld.secSanStsActive true).put Fld.secSanStsPhase 0).put Fld.secSanStsUnits 0
      let s := if s.flag Fld.secSanCtlCrypto ∧ countOnes s.sec.row.epoch = 32 then s.putFlag Fld.secSanStsExhausted true else s
      setHalt Fld.slqHaltHalt.max s
    else s

/-- SANITIZE_START (R629). -/
def execSanitizeStart (r : Req) (w : Word) (s : State) : Out := .next (regWrite s r .secSanCtl 0 w (sanWrite w))

/-- The end of phase 0: own copies are freed, the partner's copies of them released, and every namespace VALID is 0 (DESIGN CHOICE, log entry 86). -/
def sanDrain (s : State) : State :=
  let up := s.twinUp
  let s := s.wp.own.foldl (fun s e => freeSlot e.1 (if up && e.2.mirrored then releaseMirror e.2 s else s)) s
  let ns := (s.regs.filter fun e => e.1 % 256 == RegKind.secNsCtl.ctorIdx).map fun e => e.1 / 256
  ns.foldl (fun s n => s.putFlag Fld.secNsCtlValid false n) s

/-- Phase 1: the next EPOCH bit burned, as its readback shows; KEK1 derived again; KZERO on every slot. -/
def sanCrypto (burnt : Bool) (s : State) : State :=
  let h := s.sec.row
  let h : Hearth := if burnt then { h with epoch := burnTo (countOnes h.epoch + 1) h.epoch } else h
  let s : State := { s with sec := { s.sec with row := h, slots := [] } }
  let s := s.put Fld.secCtrEpoch (countOnes h.epoch)
  { s with sec := { s.sec with kek1 := kek1Of s } }

/-- Phase 2 begins: every directory entry UNMAPPED, every data, journal and flush-reserve unit in ESTATE 1, and a checkpoint of that. -/
def sanMap (s : State) : State :=
  let s := (s.md.units.map Prod.fst).foldl (fun s x =>
    if [2, 3, 4, 5].contains (s.unit x).estate then putUnit x (fun u => { u with estate := 1, valid := 0, refresh := false }) s else s) s
  let s := (s.md.dir.map Prod.fst).foldl (fun s i => s.modDir i fun _ => {}) s
  let keep := s.wp.streams.map fun (e : Nat × Stream) => (e.1, ({ jseq := e.2.jseq, lastSet := e.2.lastSet } : Stream))
  let md : Media := { s.md with
    groups := s.md.groups.filter fun e => decide (2 ^ 18 - 256 ≤ e.1 % 2 ^ 18)
    rows := []
    cache := []
    ovl := []
    pool := []
    relocs := []
    repair := []
    victims := []
    stale := []
    upds := []
    hotTab := []
    hotQ := [] }
  let s := clearMap { s with
    md := md
    wp := { s.wp with streams := keep, reserve := [] } }
  beginCkpt { s with sec := { s.sec with sanCkpt := s.md.ckptNo + 1 } }

/-- Units that phase 3 erases: those in ESTATE 1 on online LUNs. -/
def sanUnits (s : State) : List Nat := (s.md.units.filter fun e => e.2.estate == 1 && s.online (unitLun e.1)).map Prod.fst

/-- The end: ACTIVE clears, DONE is set, and SLQ_HALT stays (R629). -/
def sanDone (s : State) : State := (s.putFlag Fld.secSanStsActive false).putFlag Fld.secSanStsDone true

/-- SANITIZE_PHASE_END (R629): a phase ends where its work is done, and the next begins. `burnt`: the readback of the EPOCH bit shows it burned. -/
def execSanitizePhaseEnd (burnt : Bool) (s : State) : Out :=
  let ph := s.get Fld.secSanStsPhase
  let crypto := s.flag Fld.secSanCtlCrypto && !s.flag Fld.secSanStsExhausted
  let on := s.running && s.flag Fld.secSanStsActive && s.stage == 9
  if ph = 0 then
    onlyIf (on && s.reqs.isEmpty && s.mov.jobs.isEmpty && (s.mov.ctxs.all fun e => e.2.job.path == .firmware) && (crypto || s.md.ckpt.isNone)) s
      (let s := sanDrain s
       if crypto then s.put Fld.secSanStsPhase 1 else sanMap (s.put Fld.secSanStsPhase 2))
  else if ph = 1 then
    onlyIf (on && s.md.ckpt.isNone) s (sanMap ((sanCrypto burnt s).put Fld.secSanStsPhase 2))
  else if ph = 2 then
    if s.md.ckptNo < s.sec.sanCkpt then onlyIf (on && s.md.ckpt.isNone) s (beginCkpt s)
    else onlyIf (on && s.md.ckpt.isNone) s
      (if s.flag Fld.secSanCtlBlock then (sanUnits s).foldl (fun s x => queueErase x s) (s.put Fld.secSanStsPhase 3) else sanDone s)
  else
    onlyIf (on && (sanUnits s).isEmpty && s.md.luns.all fun e => !erasePending s e.1) s (sanDone s)

end Sys2Proof.Machine
end

