-- ==== Sys2Proof/Machine/Regs.lean ====
section
/-! DEFINITION. Register accesses (R4 to R8, R28, R610, R679, R681 to R683): the words that registers show, reads with what
they clear and latch, and writes to registers, each by its own rule. -/

namespace Sys2Proof.Machine

/-! ## What registers show -/

/-- Bits set where a test holds, bit 0 first. -/
def bitsWord (f : Nat → Bool) : Word :=
  (List.range 32).foldl (fun w i => if f i then w ||| (1#32 <<< i) else w) 0

/-- PART and KX_EN of the part (Table 00-1). -/
def partCode : Part → Nat
  | .ig7316 => 0x7316
  | .ig7332 => 0x7332

/-- PWR_STS.STATE (Table 18-12). -/
def pwrStateCode (s : State) : Nat :=
  if s.pwr.waking then 2 else if s.pwr.st = .p1 then 1 else 0

/-- The lease left of a lock, in units of 100 µs (R602). -/
def leaseLeft (s : State) (n : Nat) : Nat :=
  match Tab.find n s.leases with
  | some e => (e - s.now) / 100000
  | none => 0

/-- The stripe sets in use. -/
def liveSets (s : State) : List (Nat × SetSt) := s.md.sets.filter fun e => !e.2.slots.isEmpty

/-- The set with the fewest free groups, the lower number of two equal, and how many it has (DEDUCED, log entry 90). -/
def lowSet (s : State) : Nat × Nat :=
  ((liveSets s).foldl (fun (a : Option (Nat × Nat)) e =>
    let n := freeGroups s e.1
    match a with
    | some x => if n < x.2 then some (e.1, n) else a
    | none => some (e.1, n)) none).getD (0, 0)

/-- A unit has reached its rating: its LUN's, or its SLC rating. -/
def unitWorn (s : State) (e : Nat × UnitE) : Bool :=
  let p := s.profile (unitLun e.1)
  decide ((if e.2.slc then p.peSlc else p.peRating) ≤ e.2.pec)

/-- BEL_STS: STATE, the instruction running, and the requests outstanding (Table 12-11) (DESIGN CHOICE, log entry 91). -/
def belStsWord (s : State) (m : Nat) (w : Word) : Word :=
  let pc := match (moverCtxs s m).find? fun e => e.2.fault.isNone with
    | some e => if e.2.reqs.isEmpty && e.2.open_.isEmpty then e.2.pc else e.2.cur
    | none => Fld.belStsPc.get w
  Fld.belStsState.put (moverState s m) (Fld.belStsPc.put pc (Fld.belStsOutst.put (min 255 (moverOutst s m)) w))

/-- A class has a fetch read in flight. -/
def classFetching (s : State) (c : Nat) : Bool := s.slq.any fun e => e.2.fetch.isSome && slqClass s e.1 == c

/-- MAP_RB_STS (Table 08-10): the rebuild that runs is the oldest. -/
def rbWord (s : State) : Word :=
  let w := Fld.mapRbStsDrain.put (s.md.sets.any fun e => e.2.drain).toNat 0
  match s.md.rebuilds with
  | [] => w
  | (set, slot) :: r =>
    Fld.mapRbStsActive.put 1 (Fld.mapRbStsSet.put set (Fld.mapRbStsSlot.put slot (Fld.mapRbStsQueued.put (min 255 r.length) w)))

/-- MAP_SET_STS (Table 08-6). -/
def setWord (s : State) : Word :=
  let l := liveSets s
  Fld.mapSetStsSets.put l.length (Fld.mapSetStsSpares.put s.md.spares.length
    (Fld.mapSetStsDegr1.put (l.filter fun e => lostCount e.2 == 1).length
      (Fld.mapSetStsDegr2.put (l.filter fun e => decide (2 ≤ lostCount e.2)).length 0)))

/-- MAP_RCL_STS (R413). -/
def rclWord (s : State) (w : Word) : Word :=
  let low := lowSet s
  Fld.mapRclStsLowset.put low.1 (Fld.mapRclStsLowfree.put (min 255 low.2)
    (Fld.mapRclStsFloored.put ((liveSets s).filter fun e => decide (freeGroups s e.1 ≤ hostFloor s)).length w))

/-- MAP_WEAR_STS (R413). -/
def wearWord (s : State) : Word :=
  Fld.mapWearStsMaxpec.put (s.md.units.foldl (fun n e => max n e.2.pec) 0 / 16)
    (Fld.mapWearStsOver.put (min 65535 (s.md.units.filter (unitWorn s)).length) 0)

/-- The level of FL_RB_N of the target in TGT of a raw window. -/
def rawRb (s : State) (c : Nat) : Bool := (s.chan c).rb.getLsbD (s.get Fld.stkRawCtlTgt c)

/-- The maintenance slot is occupied: a calibration run has not reached its step 6, or a target is being recovered (R150). -/
def maintBusy (s : State) (c : Nat) : Bool :=
  (match Tab.find c s.cal.runs with
   | some r => !r.six
   | none => false) || !(s.chan c).fallen.isEmpty

/-- The word a register holds now: the stored word, with the fields that show the state of the engine. -/
def liveWord (s : State) (k : RegKind) (i : Nat) : Word :=
  let w := s.reg k i
  match k with
  | .glbId => Fld.glbIdPart.put (partCode s.part) (Fld.glbIdKxEn.put (s.part == .ig7332).toNat w)
  | .glbTimeLo => wordOf s.now 0
  | .glbTimeHi => wordOf s.now 1
  | .pwrSts =>
    Fld.pwrStsState.put (pwrStateCode s) (Fld.pwrStsSr.put s.pwr.dramIdle.toNat (Fld.pwrStsEmbPend.put (!s.pwr.emberQ.isEmpty).toNat w))
  | .pwrEmbLo => wordOf s.pwr.ember.toNat 0
  | .pwrEmbHi => wordOf s.pwr.ember.toNat 1
  | .lckSts => Fld.lckStsLeft.put (leaseLeft s i) w
  | .dbgSts => Fld.dbgStsTamper.put (s.get Fld.secStsTamper) w
  | .sicThr =>
    Fld.sicThrWake.put (wakeOut s i).toNat (Fld.sicThrIrq.put (irqOut s i).toNat
      (Fld.sicThrDepth.put (sicStackOf s i).length (Fld.sicThrCur.put (threshold s i) w)))
  | .secKsts => Fld.secKstsLoaded.put s.sec.slots.length w
  | .secKmap => bitsWord fun b => (Tab.find (32 * i + b) s.sec.slots).isSome
  | .secNsCtl => Fld.secNsCtlBusy.put (nsBusy s i).toNat w
  | .calSts => Fld.calStsActive.put (calActive s).toNat (Fld.calStsPend.put (calPend s) w)
  | .calCdat0 => cdatWord s 0
  | .calCdat1 => cdatWord s 4
  | .calCdat2 => cdat2 s (calSel s) (s.get Fld.calCselDir)
  | .calCsts => cstsWord s
  | .calCtime => ctimeWord s
  | .cryGrdPdesc => Fld.cryGrdPdescBusy.put (progBusy s i).toNat w
  | .cryGrdFbusy0 => bitsWord (fmtBusy s)
  | .cryGrdFbusy1 => bitsWord fun b => fmtBusy s (32 + b)
  | .mapSetSts => setWord s
  | .mapRbSts => rbWord s
  | .mapPanOcc => BitVec.ofNat 32 (occupancy s)
  | .mapMirOcc => if s.stage = 8 ∨ s.stage = 9 then BitVec.ofNat 32 (s.wp.mir.filter fun e => e.2.st == 0x21).length else 0
  | .mapFlushSts =>
    Fld.mapFlushStsOver.put (decide (limit s < occupancy s)).toNat (Fld.mapFlushStsStreams.put (s.img.geo.streams - 1) w)
  | .mapCcSts => Fld.mapCcStsDirtyK.put ((s.md.cache.filter fun e => e.2.dirty).length / 16) w
  | .mapWearSts => wearWord s
  | .mapRclSts => rclWord s w
  | .mapRakeSts => Fld.mapRakeStsPending.put (min 65535 (s.md.units.filter fun e => e.2.refresh).length) w
  | .belSts => belStsWord s i w
  | .belSctxBusy => bitsWord fun c => (s.ctx (56 + i) c).isSome
  | .slqSts => Fld.slqStsIdle.put (slqIdle s i).toNat w
  | .slqHead => Fld.slqHeadOut.put (slqOut s i) w
  | .slqHalt =>
    let halt := Fld.slqHaltHalt.get w
    (List.range 4).foldl (fun w c => if halt.testBit c && !classFetching s c then w ||| (1#32 <<< (4 + c)) else w) w
  | .slqPool => BitVec.ofNat 32 (16384 - s.reqs.length)
  | .stkSts =>
    let x := s.chan i
    let own := (!x.rawQ.isEmpty).toNat + (maintBusy s i).toNat
    Fld.stkStsActSlot.put (x.act.getD (if x.rawCe then 32 else 0x3F)) (Fld.stkStsBusy.put (x.slots.length + own) w)
  | .stkChmode => Fld.stkChmodeRlock.put (rateLocked s i).toNat w
  | .stkDskWr => if s.get Fld.stkChmodeCurMode i = 8 then w else 0
  | .stkDbgCtl => Fld.stkDbgCtlUpc.put (if s.flag Fld.stkDbgCtlHalted i then haltUpc s i else 0) w
  | .stkRawSts => Fld.stkRawStsRb.put (rawRb s i).toNat w
  | .stkRawCtl => Fld.stkRawCtlReady.put (rawReady s i).toNat w
  | _ => w

/-! ## Reads -/

/-- The pairs that a read of the low half latches (R683): the pair of a low half, and of a high half. -/
def loPair : RegKind → Option (Nat × RegKind)
  | .glbTimeLo => some (0, .glbTimeHi)
  | .glbBankTimeLo => some (1, .glbBankTimeHi)
  | .pwrEmbLo => some (2, .pwrEmbHi)
  | .calLastLo => some (3, .calLastHi)
  | _ => none
def hiPair : RegKind → Option Nat
  | .glbTimeHi => some 0
  | .glbBankTimeHi => some 1
  | .pwrEmbHi => some 2
  | .calLastHi => some 3
  | _ => none

/-- What a read of a register answers and leaves (R4, R8, R416, R583, R683) (DEDUCED, log entry 89). -/
def readEffect (src : Nat) (k : RegKind) (i : Nat) (s : State) : Word × State :=
  let w := liveWord s k i &&& k.readMask
  match loPair k, hiPair k with
  | some (p, hi), _ => (w, { s with hiLatch := Tab.put (src * 4 + p) (liveWord s hi 0) s.hiLatch })
  | none, some p =>
    match Tab.find (src * 4 + p) s.hiLatch with
    | some h => (h, { s with hiLatch := Tab.del (src * 4 + p) s.hiLatch })
    | none => (w, s)
  | none, none =>
    match k with
    | .sicClaim => claim s i
    | .mapWaHost => (w, { s with waLatch := some (s.reg .mapWaMedia) })
    | .mapWaMedia => (s.waLatch.getD w, { s with waLatch := none })
    | .stkRawCtl => (w, rawLatch i s)
    | _ => (w, s.setReg k i (clearRc k (s.reg k i)))

/-- The bytes of the chimney-log view (Table 19-2): entry SEQ at 32 × (SEQ mod 2,048) (DEDUCED, log entry 93). -/
def logView (s : State) : List Byte :=
  (List.range 2048).flatMap fun i =>
    match s.log.find? fun e => e.seq.toNat % 2048 == i with
    | some e => logBytes e
    | none => List.replicate 32 0

/-- An offset lies in the chimney-log view; in a view or window whose accesses have rows of their own. -/
def inLogView (ofs : Nat) : Bool := decide (0x10000 ≤ ofs ∧ ofs < 0x20000)
def inOwnView (ofs : Nat) : Bool :=
  decide ((0x3000000 ≤ ofs ∧ ofs < 0x3080000)
    ∨ (0x2000000 ≤ ofs ∧ ofs < 0x3000000 ∧ (ofs % 0x20000 < 0x1000 ∨ (0x10000 ≤ ofs % 0x20000 ∧ ofs % 0x20000 < 0x14000))))

/-- A read of the chimney-log view (R681, R682): 1 to 64 beats in one page. -/
def logViewRead (r : Req) (ofs beats : Nat) (s : State) : State :=
  if 5 ≤ r.vc ∨ classOf r.src = none ∨ !viewReadOk ofs beats then s.respond r .decerr []
  else s.respond r .ok (((logView s).drop (ofs % 65536 / 64 * 64)).take (64 * beats))

/-- A read of the window at an offset: of a register, of `beats` beats of the chimney-log view, or of nothing (R679). -/
def windowRead (r : Req) (ofs beats : Nat) (s : State) : State :=
  if !s.coreOn then s
  else if inLogView ofs then logViewRead r ofs beats s
  else
    match regAt ofs with
    | some (k, i) => regRead s r k i (readEffect r.src k i)
    | none => s.respond r .decerr (laneBytes 0 0)

/-- Hardware events of the same cycle as an access: the bits of a register's fields of an access code that they set (R6, R7). -/
def sameCycle (acc : Access) (k : RegKind) (i : Nat) (ev : Word) (s : State) : State :=
  s.setReg k i (s.reg k i ||| (ev &&& k.maskOf acc))

/-- READ_CLEAR_FIELD (R7, R8): a read, which clears the RC fields of the register and leaves one without them as it is. `ev`: what events of the same
cycle give the RC fields, which the read does not show and which stand in them after it. -/
def execReadClearField (r : Req) (ofs beats : Nat) (ev : Word) (s : State) : Out :=
  onlyIf (!inOwnView ofs) s
    (let t := windowRead r ofs beats s
     match regAt ofs with
     | some (k, i) => if gate s r k i false 0 == .pass then sameCycle .rc k i ev t else t
     | none => t)

/-- LO_HALF_READ_LATCH (R683). -/
def execLoHalfReadLatch (r : Req) (ofs : Nat) (s : State) : Out :=
  match regAt ofs with
  | some (k, i) => onlyIf (loPair k).isSome s (regRead s r k i (readEffect r.src k i))
  | none => .next s

/-- WA_HOST_READ (R416) (DEDUCED, log entry 88). -/
def execWaHostRead (r : Req) (s : State) : Out := .next (regRead s r .mapWaHost 0 (readEffect r.src .mapWaHost 0))

/-- INBOUND_READ_REFUSED (R610, R78): a read that its class or debug level may not make. -/
def execInboundReadRefused (r : Req) (ofs : Nat) (s : State) : Out :=
  match regAt ofs with
  | some (k, i) =>
    onlyIf (gate s r k i false 0 == .refused) s (regRead s r k i (readEffect r.src k i))
  | none => .next s

/-! ## Writes -/

/-- A window register of a firmware mover: ignored while a mover that the window names runs, waits, is paused or drains
(R641). -/
def fmwWrite (k : RegKind) (i : Nat) (w : Word) (s : State) : State :=
  let named := s.get Fld.secFmwCtlMovers i
  let busy (m : Nat) : Bool := named.testBit m && [1, 2, 3, 6].contains (moverState s (48 + m))
  if (List.range 8).any busy then s else s.plainWrite k i w

/-- GLB_LOG_CTL: copies to the mirror begin with the next entry when MIR_EN rises (R674) (DESIGN CHOICE, log entry 67). -/
def logCtlWrite (w : Word) (s : State) : State :=
  let was := s.flag Fld.glbLogCtlMirEn
  let s := s.plainWrite .glbLogCtl 0 w
  if !was && s.flag Fld.glbLogCtlMirEn then { s with logMir := s.reg .glbLogSeq } else s

/-- The effect of a write of a register, by its own rule where it has one, else by the access codes of its fields (R4). -/
def writeEffect (r : Req) (k : RegKind) (i : Nat) (w : Word) (s : State) : State :=
  match k with
  | .glbBankReq => bankReqWrite w s
  | .glbLogCtl => logCtlWrite w s
  | .pwrCtl => pwrCtlWrite [] w s
  | .pwrSts | .pwrWakeLo | .pwrWakeHi | .trpSts | .trpCnt => queueEmber k w s
  | .pwrWdogCfg => if r.src = 0x10 then s.plainWrite k i w else s
  | .pwrWdogKick => kickWrite r.src s
  | .lckCtl => lockCtlWrite r i w s
  | .lckSts => lockStsWrite r i w s
  | .lckOwnerRst => ownerRst w s
  | .dbgResp => s.setReg k i w
  | .sicPmskLo | .sicPmskHi | .sicPprio | .sicSmsk => maskWrite k i w s
  | .sicEoi => eoi i w s
  | .sicThr => thrWrite i w s
  | .sicSwi => swi w s
  | .secSts => secStsWrite r w s
  | .secStCfg => if s.flag Fld.secSanStsActive then s else s.plainWrite k i w
  | .secZero => zeroWrite w s
  | .secSanCtl => sanWrite w s
  | .secLcCtl => lcWrite r w s
  | .secKcmd => keyCommand w 0 0 s
  | .secFmwCtl | .secFmwBaseLo | .secFmwBaseHi | .secFmwSize => fmwWrite k i w s
  | .secNsCtl => nsCtlWrite i w s
  | .secNsBaseLo | .secNsBaseHi | .secNsSizeLo | .secNsSizeHi => nsFieldWrite k i w s
  | .drgCtl => drgCtlWrite w s
  | .drgAdmCfg => admCfgWrite w s
  | .drgLoopCtl => loopCtlWrite i w s
  | .calReq => calReqWrite w s
  | .cryGrdPdataLo => s.setReg k i w
  | .cryGrdPdataHi => pdataWrite w s
  | .cryGrdPdesc => pdescWrite i w s
  | .cryGrdFmtW0 => fmtW0Write i w s
  | .cryGrdFmtW1 | .cryGrdFmtW2 | .cryGrdFmtW3 => fmtWordWrite k i w s
  | .mapCcCtl => ccCtlWrite w s
  | .belCtl => belCtlWrite r i w s
  | .belCfg | .belA0Lo | .belA0Hi | .belA1Lo | .belA1Hi | .belBreg | .belFlag | .belElemLo | .belElemHi | .belProg => belRegWrite k i w s
  | .slqDb => slqDbWrite i w s
  | .slqCtl => slqCtlWrite i w s
  | .slqHead => slqHeadWrite i w s
  | .slqHalt => setHalt (Fld.slqHaltHalt.get w) s
  | .slqFdb => slqFdbWrite i s
  | .hrvCtl => hrvCtlWrite i w s
  | .stkTgtcfg => tgtcfgWrite (i / 8) (i % 8) w s
  | .stkRawCtl => rawCtlWrite i w s
  | .stkDbgCtl => haltWrite i w s
  | _ => s.plainWrite k i w

/-- A write whose effect takes what only its own row carries: random bits, the outcome of a run or a burn, memory read, or edges of the
same cycle (DESIGN CHOICE, log entry 92). -/
def ownRow (k : RegKind) (w : Word) : Bool :=
  match k with
  | .pwrCtl => Fld.pwrCtlP2Req.get w == 1 || Fld.pwrCtlP3Req.get w == 1
  | .dbgCtl => w &&& (Fld.dbgCtlNewchal.mask ||| Fld.dbgCtlVerify.mask ||| Fld.dbgCtlClose.mask ||| Fld.dbgCtlOpen.mask) != 0
  | .dbgFbxCtl | .sicPpendLo | .sicPpendHi | .sicSpend | .hrvDb => true
  | .secStCtl => Fld.secStCtlRun.get w == 1
  | .secKcmd => Fld.secKcmdGo.get w == 1 && decide (1 ≤ Fld.secKcmdOp.get w ∧ Fld.secKcmdOp.get w ≤ 7)
  | .stkDbgCtl => Fld.stkDbgCtlStep.get w == 1
  | _ => false

/-- REGISTER_WRITE (R4): a write to the window at an offset. A write that needs the operands of a row of its own comes about by that
row; an offset that names no register takes no write (R679), nor does the chimney-log view. `ev`: the W1C and W1S bits that hardware events of the
same cycle set, which stand after it (R6). -/
def execRegisterWrite (r : Req) (ofs : Nat) (w ev : Word) (s : State) : Out :=
  match regAt ofs with
  | some (k, i) => onlyIf (!ownRow k w || gate s r k i true w == .refused) s (regWrite s r k i w fun s =>
      sameCycle .w1s k i ev (sameCycle .w1c k i ev (writeEffect r k i w s)))
  | none => onlyIf (s.coreOn && !inOwnView ofs) s (s.respondWrite r .decerr)

end Sys2Proof.Machine
end

