-- ==== Sys2Proof/Machine/Dispatch.lean ====
section
/-! DEFINITION. The meaning of every command: one direct call each. -/

namespace Sys2Proof.Machine

/-- What a command does to the state (its queue of waiting commands apart). -/
def exec (i : Instr) (s : State) : Host.Outcome State Fault Refusal :=
  match i with
  | .rstEmberAssert width => Sys2Proof.Machine.execRstEmberAssert width s
  | .rstColdAssert width => Sys2Proof.Machine.execRstColdAssert width s
  | .rstWarmAssert width => Sys2Proof.Machine.execRstWarmAssert width s
  | .resetRelease rowOk => Sys2Proof.Machine.execResetRelease rowOk s
  | .clockMonitorFault => Sys2Proof.Machine.execClockMonitorFault s
  | .embClkLoss => Sys2Proof.Machine.execEmbClkLoss s
  | .pwrGoodCoreLow => Sys2Proof.Machine.execPwrGoodCoreLow s
  | .embClkLossClear again => Sys2Proof.Machine.execEmbClkLossClear again s
  | .selftestStage fails rnd => Sys2Proof.Machine.execSelftestStage fails rnd s
  | .kindlingSlotRead answers sfdp d => Sys2Proof.Machine.execKindlingSlotRead answers sfdp d s
  | .kindlingEnd key => Sys2Proof.Machine.execKindlingEnd key s
  | .targetResetStage rb => Sys2Proof.Machine.execTargetResetStage rb s
  | .targetBusyTimeout c t => Sys2Proof.Machine.execTargetBusyTimeout c t s
  | .targetReadyReset c t => Sys2Proof.Machine.execTargetReadyReset c t s
  | .trstTimeout c t => Sys2Proof.Machine.execTrstTimeout c t s
  | .identifyStage c ids => Sys2Proof.Machine.execIdentifyStage c ids s
  | .trainStage c ms => Sys2Proof.Machine.execTrainStage c ms s
  | .ledgerStage c reads => Sys2Proof.Machine.execLedgerStage c reads s
  | .mapStage m => Sys2Proof.Machine.execMapStage m s
  | .panReload ms => Sys2Proof.Machine.execPanReload ms s
  | .dramNoAnswer => Sys2Proof.Machine.execDramNoAnswer s
  | .serveReadEntry => Sys2Proof.Machine.execServeReadEntry s
  | .frontierSearch set g front broken seq => Sys2Proof.Machine.execFrontierSearch set g front broken seq s
  | .runEntry => Sys2Proof.Machine.execRunEntry s
  | .pairingRecordSend => Sys2Proof.Machine.execPairingRecordSend s
  | .pairingRecordReceived data => Sys2Proof.Machine.execPairingRecordReceived data s
  | .pairingTimeout => Sys2Proof.Machine.execPairingTimeout s
  | .pairingRetry => Sys2Proof.Machine.execPairingRetry s
  | .heartbeatSend => Sys2Proof.Machine.execHeartbeatSend s
  | .heartbeatReceived data => Sys2Proof.Machine.execHeartbeatReceived data s
  | .heartbeatLoss => Sys2Proof.Machine.execHeartbeatLoss s
  | .reconciliationStart => Sys2Proof.Machine.execReconciliationStart s
  | .reconciliationEnd => Sys2Proof.Machine.execReconciliationEnd s
  | .inboundAtomic r => Sys2Proof.Machine.execInboundAtomic r s
  | .inboundReservedVc r => Sys2Proof.Machine.execInboundReservedVc r s
  | .inboundBoundaryCross r write addr len => Sys2Proof.Machine.execInboundBoundaryCross r write addr len s
  | .creditReturn port vc data => Sys2Proof.Machine.execCreditReturn port vc data s
  | .outboundResponse port vc tag code data => Sys2Proof.Machine.execOutboundResponse port vc tag code data s
  | .outboundTimeout port vc tag => Sys2Proof.Machine.execOutboundTimeout port vc tag s
  | .lateResponse port vc tag => Sys2Proof.Machine.execLateResponse port vc tag s
  | .registerWrite r ofs w ev => Sys2Proof.Machine.execRegisterWrite r ofs w ev s
  | .readClearField r ofs beats ev => Sys2Proof.Machine.execReadClearField r ofs beats ev s
  | .loHalfReadLatch r ofs => Sys2Proof.Machine.execLoHalfReadLatch r ofs s
  | .waHostRead r => Sys2Proof.Machine.execWaHostRead r s
  | .sluiceDoorbell r n w => Sys2Proof.Machine.execSluiceDoorbell r n w s
  | .fetchGrant => Sys2Proof.Machine.execFetchGrant s
  | .fetchReadDone n code data => Sys2Proof.Machine.execFetchReadDone n code data s
  | .sluiceNop rtag => Sys2Proof.Machine.execSluiceNop rtag s
  | .sluiceRead rtag => Sys2Proof.Machine.execSluiceRead rtag s
  | .sluiceWrite rtag => Sys2Proof.Machine.execSluiceWrite rtag s
  | .sluiceFlush rtag => Sys2Proof.Machine.execSluiceFlush rtag s
  | .sluiceUnmap rtag => Sys2Proof.Machine.execSluiceUnmap rtag s
  | .sluiceFilter rtag => Sys2Proof.Machine.execSluiceFilter rtag s
  | .sluiceMargin rtag => Sys2Proof.Machine.execSluiceMargin rtag s
  | .mapLookup rtag n => Sys2Proof.Machine.execMapLookup rtag n s
  | .mapFillDone line code data => Sys2Proof.Machine.execMapFillDone line code data s
  | .mapTileLoadDone mt code => Sys2Proof.Machine.execMapTileLoadDone mt code s
  | .gaugeLineFetchDone key code data => Sys2Proof.Machine.execGaugeLineFetchDone key code data s
  | .class3Aged k => Sys2Proof.Machine.execClass3Aged k s
  | .class0BucketRefill => Sys2Proof.Machine.execClass0BucketRefill s
  | .raBucketRefill => Sys2Proof.Machine.execRaBucketRefill s
  | .class0Deadline rtag => Sys2Proof.Machine.execClass0Deadline rtag s
  | .commitLate rtag => Sys2Proof.Machine.execCommitLate rtag s
  | .draughtGrant g => Sys2Proof.Machine.execDraughtGrant g s
  | .draughtEndReport => Sys2Proof.Machine.execDraughtEndReport s
  | .stokerIssue k => Sys2Proof.Machine.execStokerIssue k s
  | .slotSwitch c din => Sys2Proof.Machine.execSlotSwitch c din s
  | .stkNop c w => Sys2Proof.Machine.execStkNop c w s
  | .stkCyc c w => Sys2Proof.Machine.execStkCyc c w s
  | .stkGo c w => Sys2Proof.Machine.execStkGo c w s
  | .stkXfer c w din => Sys2Proof.Machine.execStkXfer c w din s
  | .dataOutFrame c bs crc => Sys2Proof.Machine.execDataOutFrame c bs crc s
  | .stkTdly c w => Sys2Proof.Machine.execStkTdly c w s
  | .stkWait c w => Sys2Proof.Machine.execStkWait c w s
  | .waitTimeout c k => Sys2Proof.Machine.execWaitTimeout c k s
  | .slotRunnable c k => Sys2Proof.Machine.execSlotRunnable c k s
  | .rbRise c t => Sys2Proof.Machine.execRbRise c t s
  | .lunPoll c k b => Sys2Proof.Machine.execLunPoll c k b s
  | .stkSafe c w => Sys2Proof.Machine.execStkSafe c w s
  | .stkBr c w => Sys2Proof.Machine.execStkBr c w s
  | .stkCall c w => Sys2Proof.Machine.execStkCall c w s
  | .stkRet c w => Sys2Proof.Machine.execStkRet c w s
  | .stkLdi c w => Sys2Proof.Machine.execStkLdi c w s
  | .stkAddi c w => Sys2Proof.Machine.execStkAddi c w s
  | .stkAndi c w => Sys2Proof.Machine.execStkAndi c w s
  | .stkOri c w => Sys2Proof.Machine.execStkOri c w s
  | .stkCmpi c w => Sys2Proof.Machine.execStkCmpi c w s
  | .stkPinset c w => Sys2Proof.Machine.execStkPinset c w s
  | .phyEngineZq c w m => Sys2Proof.Machine.execPhyEngineZq c w m s
  | .phyDutyTrim c w m => Sys2Proof.Machine.execPhyDutyTrim c w m s
  | .phyLoadReadDelays c w => Sys2Proof.Machine.execPhyLoadReadDelays c w s
  | .phyLoadWriteDelays c w => Sys2Proof.Machine.execPhyLoadWriteDelays c w s
  | .phyRateChange c w => Sys2Proof.Machine.execPhyRateChange c w s
  | .stkReport c w => Sys2Proof.Machine.execStkReport c w s
  | .stkEnd c w => Sys2Proof.Machine.execStkEnd c w s
  | .stokerWatchdog c => Sys2Proof.Machine.execStokerWatchdog c s
  | .operationEnd => Sys2Proof.Machine.execOperationEnd s
  | .stallPoll k b => Sys2Proof.Machine.execStallPoll k b s
  | .wprotReissue k => Sys2Proof.Machine.execWprotReissue k s
  | .pageRead k => Sys2Proof.Machine.execPageRead k s
  | .mpRead k => Sys2Proof.Machine.execMpRead k s
  | .cacheRead k => Sys2Proof.Machine.execCacheRead k s
  | .colRead k => Sys2Proof.Machine.execColRead k s
  | .prog k => Sys2Proof.Machine.execProg k s
  | .mpProg k => Sys2Proof.Machine.execMpProg k s
  | .cacheProg k => Sys2Proof.Machine.execCacheProg k s
  | .slcProg k => Sys2Proof.Machine.execSlcProg k s
  | .sealProg k => Sys2Proof.Machine.execSealProg k s
  | .erase k => Sys2Proof.Machine.execErase k s
  | .mpErase k => Sys2Proof.Machine.execMpErase k s
  | .eraseResume k => Sys2Proof.Machine.execEraseResume k s
  | .otpRead k => Sys2Proof.Machine.execOtpRead k s
  | .otpProg k => Sys2Proof.Machine.execOtpProg k s
  | .getFeat k => Sys2Proof.Machine.execGetFeat k s
  | .setFeat k => Sys2Proof.Machine.execSetFeat k s
  | .eraseSuspendRequest k => Sys2Proof.Machine.execEraseSuspendRequest k s
  | .suspendWindowExpiry k => Sys2Proof.Machine.execSuspendWindowExpiry k s
  | .codewordReady c slot => Sys2Proof.Machine.execCodewordReady c slot s
  | .hardDecodeDone c slot u dec => Sys2Proof.Machine.execHardDecodeDone c slot u dec s
  | .softDecodeDone id u dec => Sys2Proof.Machine.execSoftDecodeDone id u dec s
  | .crystallizerMemoryError soft u => Sys2Proof.Machine.execCrystallizerMemoryError soft u s
  | .partnerReadDone pid => Sys2Proof.Machine.execPartnerReadDone pid s
  | .harvestWrite ring => Sys2Proof.Machine.execHarvestWrite ring s
  | .moderationTimer ring => Sys2Proof.Machine.execModerationTimer ring s
  | .harvestLookahead ring => Sys2Proof.Machine.execHarvestLookahead ring s
  | .hrvDoorbell r ring w => Sys2Proof.Machine.execHrvDoorbell r ring w s
  | .hrvRetry r ring w => Sys2Proof.Machine.execHrvRetry r ring w s
  | .hrvModWrite r ring w cmd => Sys2Proof.Machine.execHrvModWrite r ring w cmd s
  | .sluiceEnable r n w => Sys2Proof.Machine.execSluiceEnable r n w s
  | .sluiceDisable r n w => Sys2Proof.Machine.execSluiceDisable r n w s
  | .slqHeadWrite r n w => Sys2Proof.Machine.execSlqHeadWrite r n w s
  | .slqHaltWrite r w => Sys2Proof.Machine.execSlqHaltWrite r w s
  | .flueDoorbell r f w => Sys2Proof.Machine.execFlueDoorbell r f w s
  | .flueFetch f => Sys2Proof.Machine.execFlueFetch f s
  | .slqCreate f => Sys2Proof.Machine.execSlqCreate f s
  | .slqDestroy f => Sys2Proof.Machine.execSlqDestroy f s
  | .hrvCreate f => Sys2Proof.Machine.execHrvCreate f s
  | .hrvDestroy f => Sys2Proof.Machine.execHrvDestroy f s
  | .slqModify f => Sys2Proof.Machine.execSlqModify f s
  | .hrvModify f => Sys2Proof.Machine.execHrvModify f s
  | .setHalt f => Sys2Proof.Machine.execSetHalt f s
  | .mirrorDrop f => Sys2Proof.Machine.execMirrorDrop f s
  | .flueCfg f => Sys2Proof.Machine.execFlueCfg f s
  | .lunOpOtpRead f => Sys2Proof.Machine.execLunOpOtpRead f s
  | .lunOpOtpProg f => Sys2Proof.Machine.execLunOpOtpProg f s
  | .lunOpGetFeat f => Sys2Proof.Machine.execLunOpGetFeat f s
  | .lunOpSetFeat f => Sys2Proof.Machine.execLunOpSetFeat f s
  | .moverJobStart m c => Sys2Proof.Machine.execMoverJobStart m c s
  | .moverRequestSlot port => Sys2Proof.Machine.execMoverRequestSlot port s
  | .belMove m c => Sys2Proof.Machine.execBelMove m c s
  | .belGather m c => Sys2Proof.Machine.execBelGather m c s
  | .belLoop m c => Sys2Proof.Machine.execBelLoop m c s
  | .belWaitResp m c => Sys2Proof.Machine.execBelWaitResp m c s
  | .belWaitFlag m c => Sys2Proof.Machine.execBelWaitFlag m c s
  | .belWaitTime m c => Sys2Proof.Machine.execBelWaitTime m c s
  | .belWaitTimeout m c => Sys2Proof.Machine.execBelWaitTimeout m c s
  | .belSignalPosted m c => Sys2Proof.Machine.execBelSignalPosted m c s
  | .belSignalSealed m c => Sys2Proof.Machine.execBelSignalSealed m c s
  | .belSignalAtomic m c => Sys2Proof.Machine.execBelSignalAtomic m c s
  | .belSignalSrc m c => Sys2Proof.Machine.execBelSignalSrc m c s
  | .belSignalFlag m c => Sys2Proof.Machine.execBelSignalFlag m c s
  | .belPauseWrite r m w => Sys2Proof.Machine.execBelPauseWrite r m w s
  | .belDisable r m w => Sys2Proof.Machine.execBelDisable r m w s
  | .belGo r m w => Sys2Proof.Machine.execBelGo r m w s
  | .destageStart slot => Sys2Proof.Machine.execDestageStart slot s
  | .programTokenGrant set => Sys2Proof.Machine.execProgramTokenGrant set s
  | .padRow set => Sys2Proof.Machine.execPadRow set s
  | .journalPageProgram k => Sys2Proof.Machine.execJournalPageProgram k s
  | .checkpointStart => Sys2Proof.Machine.execCheckpointStart s
  | .checkpointCommit => Sys2Proof.Machine.execCheckpointCommit s
  | .overlayMerge mt => Sys2Proof.Machine.execOverlayMerge mt s
  | .mapCcDisable r w => Sys2Proof.Machine.execMapCcDisable r w s
  | .mapCcEnable r w => Sys2Proof.Machine.execMapCcEnable r w s
  | .writebackRetry line => Sys2Proof.Machine.execWritebackRetry line s
  | .mapRepair line ok => Sys2Proof.Machine.execMapRepair line ok s
  | .relocation lta e => Sys2Proof.Machine.execRelocation lta e s
  | .reclaim set => Sys2Proof.Machine.execReclaim set s
  | .rakePatrol => Sys2Proof.Machine.execRakePatrol s
  | .rakeRefresh => Sys2Proof.Machine.execRakeRefresh s
  | .hotWindow => Sys2Proof.Machine.execHotWindow s
  | .lunOffline => Sys2Proof.Machine.execLunOffline s
  | .rebuildGroupDone => Sys2Proof.Machine.execRebuildGroupDone s
  | .rawCtlEnable r c w => Sys2Proof.Machine.execRawCtlEnable r c w s
  | .rawCtlDisable r c w => Sys2Proof.Machine.execRawCtlDisable r c w s
  | .rawCommandWrite r c ofs en => Sys2Proof.Machine.execRawCommandWrite r c ofs en s
  | .rawAddressWrite r c ofs en => Sys2Proof.Machine.execRawAddressWrite r c ofs en s
  | .rawDataWrite r c ofs en => Sys2Proof.Machine.execRawDataWrite r c ofs en s
  | .rawDataRead r c ofs len => Sys2Proof.Machine.execRawDataRead r c ofs len s
  | .rawStatusRead r c ofs len => Sys2Proof.Machine.execRawStatusRead r c ofs len s
  | .rawReadTimeout c => Sys2Proof.Machine.execRawReadTimeout c s
  | .patchRamRead r c ofs beats => Sys2Proof.Machine.execPatchRamRead r c ofs beats s
  | .patchRamWrite r c => Sys2Proof.Machine.execPatchRamWrite r c s
  | .stkDbgHalt r c w => Sys2Proof.Machine.execStkDbgHalt r c w s
  | .stkDbgStep r c w u din m => Sys2Proof.Machine.execStkDbgStep r c w u din m s
  | .kxReqWrite r c t w => Sys2Proof.Machine.execKxReqWrite r c t w s
  | .kxEntry c t x => Sys2Proof.Machine.execKxEntry c t x s
  | .kxExit c t => Sys2Proof.Machine.execKxExit c t s
  | .tsetWrite r c t w => Sys2Proof.Machine.execTsetWrite r c t w s
  | .trackingEval c edges => Sys2Proof.Machine.execTrackingEval c edges s
  | .calTempSample => Sys2Proof.Machine.execCalTempSample s
  | .calReqGo r w => Sys2Proof.Machine.execCalReqGo r w s
  | .calRunStart c => Sys2Proof.Machine.execCalRunStart c s
  | .calRunEnd c m => Sys2Proof.Machine.execCalRunEnd c m s
  | .mediaStep k => Sys2Proof.Machine.execMediaStep k s
  | .ledgerWrite k => Sys2Proof.Machine.execLedgerWrite k s
  | .calWalkStep c => Sys2Proof.Machine.execCalWalkStep c s
  | .calSweepDeadline n => Sys2Proof.Machine.execCalSweepDeadline n s
  | .senseFrame src v par => Sys2Proof.Machine.execSenseFrame src v par s
  | .sourceStale n => Sys2Proof.Machine.execSourceStale n s
  | .staleReport n => Sys2Proof.Machine.execStaleReport n s
  | .sampleTick => Sys2Proof.Machine.execSampleTick s
  | .admissionTakeEffect => Sys2Proof.Machine.execAdmissionTakeEffect s
  | .ceilingEvaluation => Sys2Proof.Machine.execCeilingEvaluation s
  | .loopEnable r n w => Sys2Proof.Machine.execLoopEnable r n w s
  | .loopDisable r n w => Sys2Proof.Machine.execLoopDisable r n w s
  | .loopFreezeWrite r n w => Sys2Proof.Machine.execLoopFreezeWrite r n w s
  | .ceilEnWrite r w => Sys2Proof.Machine.execCeilEnWrite r w s
  | .bwMaxWrite r w => Sys2Proof.Machine.execBwMaxWrite r w s
  | .gradeTile g => Sys2Proof.Machine.execGradeTile g s
  | .graderMemoryError g => Sys2Proof.Machine.execGraderMemoryError g s
  | .grdLdu g k => Sys2Proof.Machine.execGrdLdu g k s
  | .grdLds g k => Sys2Proof.Machine.execGrdLds g k s
  | .grdLdi g k => Sys2Proof.Machine.execGrdLdi g k s
  | .grdAdd g k => Sys2Proof.Machine.execGrdAdd g k s
  | .grdSub g k => Sys2Proof.Machine.execGrdSub g k s
  | .grdMul g k => Sys2Proof.Machine.execGrdMul g k s
  | .grdDiv g k => Sys2Proof.Machine.execGrdDiv g k s
  | .grdRem g k => Sys2Proof.Machine.execGrdRem g k s
  | .grdDivu g k => Sys2Proof.Machine.execGrdDivu g k s
  | .grdRemu g k => Sys2Proof.Machine.execGrdRemu g k s
  | .grdNeg g k => Sys2Proof.Machine.execGrdNeg g k s
  | .grdAbs g k => Sys2Proof.Machine.execGrdAbs g k s
  | .grdAnd g k => Sys2Proof.Machine.execGrdAnd g k s
  | .grdOr g k => Sys2Proof.Machine.execGrdOr g k s
  | .grdXor g k => Sys2Proof.Machine.execGrdXor g k s
  | .grdShl g k => Sys2Proof.Machine.execGrdShl g k s
  | .grdShr g k => Sys2Proof.Machine.execGrdShr g k s
  | .grdSar g k => Sys2Proof.Machine.execGrdSar g k s
  | .grdMin g k => Sys2Proof.Machine.execGrdMin g k s
  | .grdMax g k => Sys2Proof.Machine.execGrdMax g k s
  | .grdAdds g k => Sys2Proof.Machine.execGrdAdds g k s
  | .grdSubs g k => Sys2Proof.Machine.execGrdSubs g k s
  | .grdMuls g k => Sys2Proof.Machine.execGrdMuls g k s
  | .grdMulq g k => Sys2Proof.Machine.execGrdMulq g k s
  | .grdSeq g k => Sys2Proof.Machine.execGrdSeq g k s
  | .grdSne g k => Sys2Proof.Machine.execGrdSne g k s
  | .grdSlt g k => Sys2Proof.Machine.execGrdSlt g k s
  | .grdSle g k => Sys2Proof.Machine.execGrdSle g k s
  | .grdSltu g k => Sys2Proof.Machine.execGrdSltu g k s
  | .grdSleu g k => Sys2Proof.Machine.execGrdSleu g k s
  | .grdBz g k => Sys2Proof.Machine.execGrdBz g k s
  | .grdBnz g k => Sys2Proof.Machine.execGrdBnz g k s
  | .grdAccept g k => Sys2Proof.Machine.execGrdAccept g k s
  | .grdReject g k => Sys2Proof.Machine.execGrdReject g k s
  | .grdAcceptf g k => Sys2Proof.Machine.execGrdAcceptf g k s
  | .grdPdataHiWrite r w => Sys2Proof.Machine.execGrdPdataHiWrite r w s
  | .grdPdescValidWrite r p w => Sys2Proof.Machine.execGrdPdescValidWrite r p w s
  | .grdFmtValidWrite r n w => Sys2Proof.Machine.execGrdFmtValidWrite r n w s
  | .sourceEdge src => Sys2Proof.Machine.execSourceEdge src s
  | .sicClaim r t => Sys2Proof.Machine.execSicClaim r t s
  | .sicEoi r t w => Sys2Proof.Machine.execSicEoi r t w s
  | .sicSwi r w => Sys2Proof.Machine.execSicSwi r w s
  | .sicBaseWrite r t w => Sys2Proof.Machine.execSicBaseWrite r t w s
  | .sicRouteWrite r n w => Sys2Proof.Machine.execSicRouteWrite r n w s
  | .sicPendingWrite r ofs w hw => Sys2Proof.Machine.execSicPendingWrite r ofs w hw s
  | .lockAcquire r n w => Sys2Proof.Machine.execLockAcquire r n w s
  | .lockRelease r n w => Sys2Proof.Machine.execLockRelease r n w s
  | .leaseExpiry n => Sys2Proof.Machine.execLeaseExpiry n s
  | .lckOwnerRst r w => Sys2Proof.Machine.execLckOwnerRst r w s
  | .brokenClear r n w again => Sys2Proof.Machine.execBrokenClear r n w again s
  | .unwrapNs r w => Sys2Proof.Machine.execUnwrapNs r w s
  | .genNs r w rnd => Sys2Proof.Machine.execGenNs r w rnd s
  | .kzero r w => Sys2Proof.Machine.execKzero r w s
  | .wrapNs r w => Sys2Proof.Machine.execWrapNs r w s
  | .wrapPair r w => Sys2Proof.Machine.execWrapPair r w s
  | .progRoot r w stuck => Sys2Proof.Machine.execProgRoot r w stuck s
  | .progDbg r w stuck => Sys2Proof.Machine.execProgDbg r w stuck s
  | .nsCtlWrite r n w => Sys2Proof.Machine.execNsCtlWrite r n w s
  | .selftestRunWrite r w ok => Sys2Proof.Machine.execSelftestRunWrite r w ok s
  | .periodicSelftest ok => Sys2Proof.Machine.execPeriodicSelftest ok s
  | .rbgHealthFail samples => Sys2Proof.Machine.execRbgHealthFail samples s
  | .lockstepMismatch => Sys2Proof.Machine.execLockstepMismatch s
  | .zeroize r w => Sys2Proof.Machine.execZeroize r w s
  | .sanitizeStart r w => Sys2Proof.Machine.execSanitizeStart r w s
  | .sanitizePhaseEnd burnt => Sys2Proof.Machine.execSanitizePhaseEnd burnt s
  | .lifecycleTransition r w => Sys2Proof.Machine.execLifecycleTransition r w s
  | .tamperSet r w => Sys2Proof.Machine.execTamperSet r w s
  | .dbgNewchal r w rnd => Sys2Proof.Machine.execDbgNewchal r w rnd s
  | .challengeExpiry => Sys2Proof.Machine.execChallengeExpiry s
  | .dbgVerify r w rnd => Sys2Proof.Machine.execDbgVerify r w rnd s
  | .dbgClose r w rnd => Sys2Proof.Machine.execDbgClose r w rnd s
  | .dbgOpen r w rnd => Sys2Proof.Machine.execDbgOpen r w rnd s
  | .dbgFbxHalt r w pc => Sys2Proof.Machine.execDbgFbxHalt r w pc s
  | .dbgFbxStep r w pc => Sys2Proof.Machine.execDbgFbxStep r w pc s
  | .tripLatch trip width held => Sys2Proof.Machine.execTripLatch trip width held s
  | .tripAct => Sys2Proof.Machine.execTripAct s
  | .flushStart mirs => Sys2Proof.Machine.execFlushStart mirs s
  | .flushComplete => Sys2Proof.Machine.execFlushComplete s
  | .tripClear low fall => Sys2Proof.Machine.execTripClear low fall s
  | .emberWriteEffect => Sys2Proof.Machine.execEmberWriteEffect s
  | .p1Entry => Sys2Proof.Machine.execP1Entry s
  | .p2Request r w mirs => Sys2Proof.Machine.execP2Request r w mirs s
  | .p3Request r w mirs => Sys2Proof.Machine.execP3Request r w mirs s
  | .entryMessage => Sys2Proof.Machine.execEntryMessage s
  | .wakeAlarm => Sys2Proof.Machine.execWakeAlarm s
  | .wakePlatform => Sys2Proof.Machine.execWakePlatform s
  | .powerGoodTimeout => Sys2Proof.Machine.execPowerGoodTimeout s
  | .wakeFromP2 pass => Sys2Proof.Machine.execWakeFromP2 pass s
  | .wakeFromP3 rowOk => Sys2Proof.Machine.execWakeFromP3 rowOk s
  | .dramIdleOkRise => Sys2Proof.Machine.execDramIdleOkRise s
  | .watchdogKick r w => Sys2Proof.Machine.execWatchdogKick r w s
  | .watchdogExpiry n => Sys2Proof.Machine.execWatchdogExpiry n s
  | .memoryError e => Sys2Proof.Machine.execMemoryError e s
  | .deadlockBreak waits holds => Sys2Proof.Machine.execDeadlockBreak waits holds s
  | .bankRequest r w => Sys2Proof.Machine.execBankRequest r w s
  | .bankedEntry => Sys2Proof.Machine.execBankedEntry s
  | .bankedPins c => Sys2Proof.Machine.execBankedPins c s
  | .logMirrorCopy => Sys2Proof.Machine.execLogMirrorCopy s
  | .fireboxCodeViewRead r ofs beats => Sys2Proof.Machine.execFireboxCodeViewRead r ofs beats s
  | .fireboxCodeViewWrite r => Sys2Proof.Machine.execFireboxCodeViewWrite r s
  | .inboundReadRefused r ofs => Sys2Proof.Machine.execInboundReadRefused r ofs s

end Sys2Proof.Machine
end

