-- ==== Sys2Proof/Machine/Idle.lean ====
section
/-! DEFINITION. What an idle step does: one nanosecond passes (DESIGN CHOICE, log entry 11). -/

namespace Sys2Proof.Machine

/-- The ember counter after 1 ns: it counts EMB_CLK periods of 1/32,768 s outside the ember reset (R80), while EMB_CLK is there (R35). -/
def emberTick (p : Pwr) : Pwr :=
  if p.emberDown || p.embLost then p
  else if 1000000000 ≤ p.emberFrac + 32768 then
    { p with
      ember := p.ember + 1
      emberFrac := p.emberFrac + 32768 - 1000000000 }
  else { p with emberFrac := p.emberFrac + 32768 }

/-- The core island after 1 ns: the nanosecond counter (R80), the xSPI port's reset time (R62) and the LFSR of the map cache (R392) step while it runs (DESIGN CHOICE, log entry 98). -/
def coreTick (s : State) : State :=
  if s.coreOn then
    { s with
      time := s.time + 1
      xspi := xspiTick s.xspi
      md := { s.md with lfsr := lfsrStep s.md.lfsr } }
  else s

/-- The times of quiet begin again with every nanosecond that is not quiet: one before RUN or in which a condition of P1 fails (R644), and one in
which a request is outstanding or waits for credit (R655). -/
def quietTick (s : State) : State :=
  let t := s.now + 1
  { s with
    pwr := { s.pwr with idleFrom := if s.stage == 9 && p1Quiet s then s.pwr.idleFrom else t }
    fab := { s.fab with busyAt := if s.fab.outst.isEmpty && s.fab.waiting.isEmpty && s.fab.held.isEmpty then s.fab.busyAt else t } }

/-- An idle step: one nanosecond; the operations at the head of class 3 grow older while the core island runs (R688). -/
def idle (s : State) : State :=
  let s := if s.coreOn then quietTick (ageTick s) else s
  { coreTick s with pwr := emberTick s.pwr }

end Sys2Proof.Machine
end

