-- ==== Sys2Proof/Safety.lean ====
section
/-! DEFINITION. What a safe step is, the invariant that every step keeps, and the situations that the statements are about. -/

namespace Sys2Proof

/-- A step is safe when it answers a next state. -/
def safeStep (s : Machine.State) : Bool := match Machine.step s with | .next _ => true | _ => false

namespace Machine

/-! ## The invariant -/

/-- The registers in their canonical form: places strictly rising, and none listed that holds its reset word. -/
def regsOk (t : Tab Word) : Prop :=
  Tab.rising t = true ∧ ∀ e ∈ t, e.2 ≠ regReset (RegKind.ofNat (e.1 % 256)) (e.1 / 256)

/-- A target's claims in service, the newest first: the priorities fall strictly, and none is above 15 (R583, R587). -/
def stackOk : List (Nat × Nat) → Prop
  | [] => True
  | [(_, p)] => 1 ≤ p ∧ p ≤ 15
  | (_, p) :: (i, r) :: l => p ≤ 15 ∧ r < p ∧ stackOk ((i, r) :: l)

/-- The invariant: the registers are in canonical form, the on-chip log holds at most its 2,048 entries (R671), and every target's
claims in service stand in strictly falling priority. -/
def Inv (s : State) : Prop :=
  regsOk s.regs ∧ s.log.length ≤ 2048 ∧ ∀ e ∈ s.sicStack, stackOk e.2

/-! ## Inbound register writes and reads -/

/-- A write of a register that its requester may make and the engine serves now (R81, R609, R610, R664). -/
abbrev Written (s : State) (r : Req) (k : RegKind) (i : Nat) (w : Word) : Prop := gate s r k i true w = .pass

/-- A read of a register that its requester may make and the engine serves now. -/
abbrev ReadOk (s : State) (r : Req) (k : RegKind) (i : Nat) : Prop := gate s r k i false 0 = .pass

/-- No entry into P2 or P3 is under way, which a write would abort (R647). -/
abbrev Steady (s : State) : Prop := s.pwr.st ≠ .entering false ∧ s.pwr.st ≠ .entering true

/-- The register words agree but for one copy. -/
def OtherRegs (s t : State) (k : RegKind) (i : Nat) : Prop := ∀ k' i', (k', i') ≠ (k, i) → t.reg k' i' = s.reg k' i'

/-- The sealed write's response is added, and nothing of a posted write's (R42): the responses after an access that takes effect. -/
def okSent (s : State) (r : Req) : List Resp := if r.sealedWr then s.resps ++ [⟨r.port, r.vc, r.tag, .ok, []⟩] else s.resps

/-! ## Graders -/

/-- Lane `k` of grader `g`, which grades tile `t` of request `q`, is to run the word `w` of the program next: the lane is present, its
evaluation has not ended, and the core island runs. -/
abbrev LaneAt (s : State) (g k : Nat) (x : Grader) (q : Request) (t : Tile) (l : Lane) (w : BitVec 64) : Prop :=
  s.coreOn = true ∧ Tab.find g s.gr.run = some x ∧ s.rq x.rtag = some q ∧ s.tile x.rtag x.tile = some t
    ∧ x.lanes[k]? = some l ∧ q.gprog[l.pc]? = some w ∧ l.out = none ∧ l.skip = false

/-- The state with one lane of a grader changed and nothing else. -/
def withLane (s : State) (g k : Nat) (x : Grader) (l : Lane) : State :=
  { s with gr := { s.gr with run := Tab.put g { x with lanes := x.lanes.set k l } s.gr.run } }

/-- A lane after an operation: D holds the result, V and Z are ORed into the record's flags, and the next word follows (R506). -/
def laneDone (l : Lane) (w r : BitVec 64) (v z : Bool) : Lane :=
  { l with x := l.x.set (gXd w) r, v := l.v || v, z := l.z || z, pc := l.pc + 1 }

/-- The record that a lane evaluates: its tile, where it starts in it, and RLEN (R502). -/
def laneRec (q : Request) (t : Tile) (l : Lane) : Rec :=
  ⟨t.data, ff q.gfmt 0 Fld.cryGrdFmtW0Hdr + l.pos * ff q.gfmt 0 Fld.cryGrdFmtW0Rlen, ff q.gfmt 0 Fld.cryGrdFmtW0Rlen⟩

/-! ## Stokers -/

/-- Slot `k` holds the pins of channel `c` and runs next the word `u` at `upc`: the stoker is neither faulted nor halted, no wait, wait count, delay or
change of rate runs, `u` is what fetching gives where the ROM holds `w`, a ROM word is one that the routine of the slot's type holds next (R163, R168,
R182, Table 06-1; DESIGN CHOICE, log entry 18), no change of rate comes first (R128), and no field of the word is reserved (R164, R165). -/
abbrev WordAt (s : State) (c k : Nat) (x : Slot) (w : BitVec 96) (upc : BitVec 15) (u : BitVec 96) : Prop :=
  s.coreOn = true ∧ (s.chan c).act = some k ∧ Tab.find k (s.chan c).slots = some x ∧ s.flag Fld.stkStsFault c = false
    ∧ s.flag Fld.stkDbgCtlHalted c = false ∧ wordMay s c x w = true ∧ fetchWord s c x.upc w = (upc, u)
    ∧ wordRate s c x u = false ∧ wordReserved u = false

/-- The state as a word begins: where the word closes a frame, the items gathered have been sent (R179). -/
def wordStart (s : State) (c k : Nat) (x : Slot) (u : BitVec 96) : State := if closesFrame u then sendItems c k (selOr x s c) s else s

/-- The slot as the word at `upc` finds it: the last word executed is this one, its type's sequence has moved past it (Table 06-1), and a frame sent as the
word began is kept for a resend (R149). -/
def slotAtWord (s : State) (c k : Nat) (x : Slot) (upc : BitVec 15) (u : BitVec 96) : Slot :=
  keepFrames (wordStart s c k x u) c k { x with last := upc, seq := (seqWord s c x u).getD x.seq }

/-- What a word may change: slot `k` of channel `c`, which becomes `y`, what the channel holds beside its slots, STK_CHMODE of the channel as SEL selects a
target (R125, R128), and the log with GLB_LOG_SEQ (R126). -/
def WordTo (s t : State) (c k : Nat) (y : Slot) : Prop :=
  Tab.find k (t.chan c).slots = some y ∧ (∀ j, j ≠ k → Tab.find j (t.chan c).slots = Tab.find j (s.chan c).slots) ∧ (∀ d, d ≠ c → t.chan d = s.chan d)
    ∧ t = { s with ch := t.ch, regs := t.regs, log := t.log }
    ∧ ∀ k' i', (k', i') ≠ (RegKind.stkChmode, c) → k' ≠ .glbLogSeq → t.reg k' i' = s.reg k' i'

/-- An address that is not the last of the ROM or of the patch RAM, so that the incremented address exists (Table 05-6). -/
abbrev NotLast (upc : BitVec 15) : Prop := upc ≠ 0x3FFF ∧ upc ≠ 0x43FF

/-- An address of the ROM or of the 1,024 words of patch RAM (R173). -/
abbrev InSpace (upc : BitVec 15) : Prop := upc < 0x4400

/-- Nothing changes but channel `c`, and of its slots only slot `k`, which becomes `y`. -/
def SlotTo (s t : State) (c k : Nat) (y : Slot) : Prop :=
  t = { s with ch := t.ch } ∧ Tab.find k (t.chan c).slots = some y
    ∧ (∀ j, j ≠ k → Tab.find j (t.chan c).slots = Tab.find j (s.chan c).slots) ∧ (∀ d, d ≠ c → t.chan d = s.chan d)

/-! ## Requests -/

/-- One more harvest entry of a request is owed to its ring, with a STATUS; `last`: it is the request's last. -/
def Owes (s t : State) (q : Request) (status : Nat) (last : Bool) : Prop :=
  ∃ e, (t.ring q.ring).queue = (s.ring q.ring).queue ++ [e] ∧ e.rtag = q.rtag ∧ e.sluice = q.sluice ∧ e.status = status ∧ e.last = last

/-- A request outstanding that no row has started, of an operation that the engine now runs. -/
abbrev Taken (s : State) (rtag opc : Nat) (q : Request) : Prop :=
  s.running = true ∧ s.rq rtag = some q ∧ q.rtag = rtag ∧ q.opc = opc ∧ q.started = false

/-! ## Flue commands -/

/-- A flue channel runs a command whose first bytes are as given. -/
abbrev FlueRuns (s : State) (f opc : Nat) (x : Flue) : Prop :=
  s.running = true ∧ f < 4 ∧ s.flueOf f = x ∧ x.cmd.isSome = true ∧ fp x 1 1 = opc

/-- The command of channel `f` has completed with a status: the channel is free, one completion unit more is counted, and its ring moves on. -/
def FlueEnded (s t : State) (f : Nat) : Prop :=
  (t.flueOf f).cmd = none ∧ t.flag Fld.slqFstsBusy f = false ∧
    (t.flueOf f).tail = (if (s.flueOf f).tail + 1 = 128 * (s.flueOf f).rpages then 0 else (s.flueOf f).tail + 1)

/-! ## Movers -/

/-- Context `c` of mover `m` is to run the instruction `w`, which meets no fault (R476, R492). -/
abbrev BelAt (s : State) (m c : Nat) (x : Ctx) (w : BitVec 128) : Prop :=
  s.ctx m c = some x ∧ canRun s m x = true ∧ instrAt s m x x.pc = w ∧ belCheck s m x x.pc = none

/-- The program of context `c` is past an instruction that issues nothing, where the context is `y`: it goes on there, or, where LAST ended the program
and no request awaits its response, the job has completed, its context is free and one job more is counted (R475, R483). -/
def BelPast (s t : State) (m c : Nat) (x y : Ctx) : Prop :=
  (y.ended = false ∨ y.open_ ≠ [] → t.ctx m c = some y)
    ∧ (y.ended = true → y.open_ = [] → x.job.path = .firmware →
        t.ctx m c = none ∧ t.get Fld.belJobsJobs m = min Fld.belJobsJobs.max (s.get Fld.belJobsJobs m + 1)
          ∧ t.get Fld.belStsState m = if isFirmware m then 4 else 0)

/-! ## Operations -/

/-- A command forms an operation of a type for LUN `k`, at whose head stands the want `w`: it waits for its grant; wants that it does not serve, and those
of a formed operation that it goes before (R527), stay queued; no other LUN and nothing else changes. -/
def Formed (s : State) (i : Instr) (k optype : Nat) (w : Want) (rest : List Want → Prop) : Prop :=
  ∃ t o, exec i s = .next t ∧ (t.lun k).op = some o ∧ (t.lun k).granted = false ∧ o.optype = optype ∧ o.lun = k ∧ o.wants.head? = some w
    ∧ rest o.wants ∧ (∀ v ∈ (s.lun k).queue, v ∉ o.wants → v ∈ (t.lun k).queue)
    ∧ (∀ p, (s.lun k).op = some p → ∀ v ∈ p.wants, v ∈ (t.lun k).queue) ∧ (∀ j, j ≠ k → t.lun j = s.lun j)
    ∧ t = { s with md := { s.md with luns := t.md.luns } }

/-- Nothing differs but which crystallizers run which codewords (Table 01-7). -/
def UnitsOnly (s t : State) : Prop :=
  t = { s with md := { s.md with hardRun := t.md.hardRun, softRun := t.md.softRun, hardLast := t.md.hardLast } }

/-! ## The write path, background work and the raw window -/

/-- A sealed write to appliance DRAM is issued (R689). -/
def DramWritten (s t : State) (addr cls : Nat) (data : List Byte) (p : Purpose) : Prop :=
  t.fab = fabIssueAll s.now s.fab (dramReqs cls addr data p)

/-- The engine takes background work on the media now. -/
abbrev Backgrounds (s : State) : Prop := s.running = true ∧ s.stage = 9 ∧ s.wp.pfail = false ∧ s.flag Fld.mapFlushStsDone = false

/-- A raw access of channel `c` stands ready at the window: the requester may make it, the target is drained and not in KX-DDR (R191, R192). -/
abbrev RawOpen (s : State) (r : Req) (c : Nat) : Prop :=
  c < 128 ∧ Steady s ∧ rawGate s r c = .pass ∧ rawReady s c = true ∧ s.flag Fld.stkTgtcfgKx (c * 8 + s.get Fld.stkRawCtlTgt c) = false

/-! ## Logging and the banked state -/

/-- One more entry stands at the head of the chimney log, of a unit and with a code (R671 to R673). -/
def Logged (s t : State) (unit code : Nat) : Prop := ∃ e, t.log = (e :: s.log).take 2048 ∧ e.unit = unit ∧ e.code = code

/-- Private source `k` is pending at every target. -/
def PendsAll (t : State) (k : Nat) : Prop := ∀ j, j < 64 → t.bit (pendBit (.priv j k)).1 j (pendBit (.priv j k)).2.2 = true

/-- What an aborted entry into P2 or P3 leaves of the power state: P0, its channels restarted if they rested in P1 (R645, R647). -/
def Aborted (s t : State) : Prop :=
  t.pwr = { s.pwr with st := .p0, parked := false, fromP1 := false, dramIdle := false, restartAt := if s.pwr.fromP1 then s.now + 1500 else s.pwr.restartAt }

/-- The engine has banked on a cause: cause, stage, time, source 48 at every target, and a log entry of the cause (R661, R662, Table 18-7). -/
def BankedBy (t : State) (cause now : Nat) : Prop :=
  t.banked = true ∧ t.get Fld.glbBankStsCause = cause ∧ t.stage = 15 ∧ t.get Fld.glbBankTimeLoTime = now % 2 ^ 32 ∧ t.get Fld.glbBankTimeHiTime = now / 2 ^ 32
    ∧ t.pwr.bankTodo = true ∧ PendsAll t 48 ∧ (t.log.head?.map fun e => (e.unit, e.code)) = some (uGLB, 0x200 + cause)

end Machine

end Sys2Proof
end

