-- ==== Sys2Proof/Certificates/Slice0/Obligations.lean ====
section
/-! DEFINITION. The statements for the provers. Hypotheses are on the state and the operands alone; where a statement rests on a choice of
the model, its docstring names the log entry. -/

open Sys2Proof Sys2Proof.Machine

/-! ## Graders (chapter 13) -/

/-- R505, R519, R520, Table 13-4: the wrapping operations ADD, SUB, MUL, NEG and ABS of a grader lane: D takes the result modulo 2^64, V is ORed with "the
result read signed differs from the exact result", and nothing else of the state changes; and DIV, REM, DIVU and REMU, division by zero and MIN by −1 among the cases. -/
def Obligations.GraderArithmetic : Prop :=
  (∀ (s : State) (g k : Nat) (x : Grader) (q : Request) (t : Tile) (l : Lane) (w : BitVec 64), LaneAt s g k x q t l w →
    let a := gA w l.x
    let b := gB w l.x
    let done (r : BitVec 64) (v : Bool) := Host.Outcome.next (withLane s g k x (laneDone l w r v false))
    (gOpc w = 0x08 → exec (.grdAdd g k) s = done (a + b) (a.saddOverflow b)) ∧
    (gOpc w = 0x09 → exec (.grdSub g k) s = done (a - b) (a.ssubOverflow b)) ∧
    (gOpc w = 0x0A → exec (.grdMul g k) s = done (a * b) (a.smulOverflow b)) ∧
    (gOpc w = 0x0F → exec (.grdNeg g k) s = done (-a) a.negOverflow) ∧
    (gOpc w = 0x10 → exec (.grdAbs g k) s = done a.abs a.negOverflow)) ∧
  (∀ (s : State) (g k : Nat) (x : Grader) (q : Request) (t : Tile) (l : Lane) (w : BitVec 64), LaneAt s g k x q t l w →
    let a := gA w l.x
    let b := gB w l.x
    let done (r : BitVec 64) (v z : Bool) := Host.Outcome.next (withLane s g k x (laneDone l w r v z))
    (gOpc w = 0x0B → exec (.grdDiv g k) s =
      if b = 0 then done (if a = 0 then 0 else if a.msb then BitVec.intMin 64 else BitVec.intMax 64) false true
      else done (a.sdiv b) (decide (a = BitVec.intMin 64 ∧ b = -1)) false) ∧
    (gOpc w = 0x0C → exec (.grdRem g k) s = done (if b = 0 then a else a.srem b) false (decide (b = 0))) ∧
    (gOpc w = 0x0D → exec (.grdDivu g k) s = done (if b = 0 then BitVec.allOnes 64 else a / b) false (decide (b = 0))) ∧
    (gOpc w = 0x0E → exec (.grdRemu g k) s = done (if b = 0 then a else a % b) false (decide (b = 0))))

/-- R505, R519, R520, R521: the bitwise operations and the shifts of a grader lane, a shift count being operand B read unsigned; MIN, MAX, the saturating forms
and MULQ: a saturating form answers the exact result where it lies between MIN and MAX, else the nearer of the two with V; MULQ rounds the scaled product toward minus infinity. -/
def Obligations.GraderShiftsAndSaturation : Prop :=
  (∀ (s : State) (g k : Nat) (x : Grader) (q : Request) (t : Tile) (l : Lane) (w : BitVec 64), LaneAt s g k x q t l w →
    let a := gA w l.x
    let b := gB w l.x
    let done (r : BitVec 64) (v : Bool) := Host.Outcome.next (withLane s g k x (laneDone l w r v false))
    (gOpc w = 0x11 → exec (.grdAnd g k) s = done (a &&& b) false) ∧
    (gOpc w = 0x12 → exec (.grdOr g k) s = done (a ||| b) false) ∧
    (gOpc w = 0x13 → exec (.grdXor g k) s = done (a ^^^ b) false) ∧
    (gOpc w = 0x14 → exec (.grdShl g k) s =
      done (a <<< b.toNat) (if 64 ≤ b.toNat then decide (a ≠ 0) else decide ((a <<< b.toNat).sshiftRight b.toNat ≠ a))) ∧
    (gOpc w = 0x15 → exec (.grdShr g k) s = done (a >>> b.toNat) false) ∧
    (gOpc w = 0x16 → exec (.grdSar g k) s = done (a.sshiftRight b.toNat) false)) ∧
  (∀ (s : State) (g k : Nat) (x : Grader) (q : Request) (t : Tile) (l : Lane) (w : BitVec 64), LaneAt s g k x q t l w →
    let a := gA w l.x
    let b := gB w l.x
    let done (r : BitVec 64) (v : Bool) := Host.Outcome.next (withLane s g k x (laneDone l w r v false))
    let sat (y : Int) := done (BitVec.ofInt 64 (max (-(2 ^ 63)) (min (2 ^ 63 - 1) y))) (decide (y < -(2 ^ 63) ∨ 2 ^ 63 ≤ y))
    (gOpc w = 0x17 → exec (.grdMin g k) s = done (if a.toInt ≤ b.toInt then a else b) false) ∧
    (gOpc w = 0x18 → exec (.grdMax g k) s = done (if b.toInt ≤ a.toInt then a else b) false) ∧
    (gOpc w = 0x19 → exec (.grdAdds g k) s = sat (a.toInt + b.toInt)) ∧
    (gOpc w = 0x1A → exec (.grdSubs g k) s = sat (a.toInt - b.toInt)) ∧
    (gOpc w = 0x1B → exec (.grdMuls g k) s = sat (a.toInt * b.toInt)) ∧
    (gOpc w = 0x1C → gBi w = false → exec (.grdMulq g k) s =
      let y : Int := (a.toInt * b.toInt) / 2 ^ ((gImm w).toNat % 64)
      done (BitVec.ofInt 64 y) (decide ((BitVec.ofInt 64 y).toInt ≠ y))))

/-- R505, R521: the comparisons of a grader lane write 1 or 0 and set neither flag; a branch only moves the lane's program counter; a
terminator ends the evaluation with its verdict. -/
def Obligations.GraderComparesBranchesEnds : Prop :=
  ∀ (s : State) (g k : Nat) (x : Grader) (q : Request) (t : Tile) (l : Lane) (w : BitVec 64), LaneAt s g k x q t l w →
    let a := gA w l.x
    let b := gB w l.x
    let cmp (c : Prop) [Decidable c] := Host.Outcome.next (withLane s g k x (laneDone l w (if c then 1 else 0) false false))
    let go (c : Prop) [Decidable c] := Host.Outcome.next (withLane s g k x { l with pc := if c then gTarget w else l.pc + 1 })
    let stop (m : Bool) := Host.Outcome.next (withLane s g k x { l with out := some m })
    (gOpc w = 0x20 → exec (.grdSeq g k) s = cmp (a = b)) ∧
    (gOpc w = 0x21 → exec (.grdSne g k) s = cmp (a ≠ b)) ∧
    (gOpc w = 0x22 → exec (.grdSlt g k) s = cmp (a.toInt < b.toInt)) ∧
    (gOpc w = 0x23 → exec (.grdSle g k) s = cmp (a.toInt ≤ b.toInt)) ∧
    (gOpc w = 0x24 → exec (.grdSltu g k) s = cmp (a.toNat < b.toNat)) ∧
    (gOpc w = 0x25 → exec (.grdSleu g k) s = cmp (a.toNat ≤ b.toNat)) ∧
    (gOpc w = 0x28 → exec (.grdBz g k) s = go (a = 0)) ∧
    (gOpc w = 0x29 → exec (.grdBnz g k) s = go (a ≠ 0)) ∧
    (gOpc w = 0x30 → exec (.grdAccept g k) s = stop true) ∧
    (gOpc w = 0x31 → exec (.grdReject g k) s = stop false) ∧
    (gOpc w = 0x32 → exec (.grdAcceptf g k) s = stop (decide (a ≠ 0)))

/-- R505, R506: a load answers, byte by byte, the bytes of the record from OFS on, in the order the word gives, a byte beyond RLEN being 0;
LDU fills with zeros, LDS with the field's sign; LDI answers its immediate. -/
def Obligations.GraderLoads : Prop :=
  ∀ (s : State) (g k : Nat) (x : Grader) (q : Request) (t : Tile) (l : Lane) (w : BitVec 64), LaneAt s g k x q t l w →
    let n := gSize w
    let r := laneRec q t l
    let byteAt (i : Nat) : Byte :=
      let j := if gBig w then n - 1 - i else i
      if gOfs w + j < r.rlen then (r.tile[r.at_ + (gOfs w + j)]?).getD 0 else 0
    (gOpc w = 0x01 → ∃ v : BitVec 64, exec (.grdLdu g k) s = .next (withLane s g k x (laneDone l w v false false)) ∧
      ∀ i < 8, (v >>> (8 * i)).setWidth 8 = if i < n then byteAt i else 0) ∧
    (gOpc w = 0x02 → ∃ v : BitVec 64, exec (.grdLds g k) s = .next (withLane s g k x (laneDone l w v false false)) ∧
      ∀ i < 8, (v >>> (8 * i)).setWidth 8 = if i < n then byteAt i else if (byteAt (n - 1)).msb then 0xFF else 0) ∧
    (gOpc w = 0x04 → exec (.grdLdi g k) s = .next (withLane s g k x (laneDone l w (gImm w) false false)))

/-- R509, R522: a write of CRY_GRD_PDATA_HI stores {PDATA_HI, PDATA_LO} at ADDR and moves ADDR on, wrapping at 4,095, where AUTOINC is 1; a word
of a valid or busy program is not written, and INUSE is set. Every other word of the store, and every grader, is as before.
R507, R523: writing 1 to VALID of a program descriptor that is neither valid nor busy takes START and LENM1 and checks the program: VALID becomes 1
exactly when no check fails, else CRY_GRD_LDSTS names the cause and the word. Which failure is named first is the model's choice (log entry 13). R501: the
same of a format descriptor. -/
def Obligations.GraderLoading : Prop :=
  (∀ (s : State) (r : Req) (w : Word), Written s r .cryGrdPdataHi 0 w → Steady s →
    let a := s.get Fld.cryGrdPaddrAddr
    ∃ t, exec (.grdPdataHiWrite r w) s = .next t ∧ t.resps = okSent s r ∧ t.gr.run = s.gr.run ∧ t.reqs = s.reqs ∧
      (∀ b, b ≠ a → storeWord t b = storeWord s b) ∧
      (storeHeld s a = false → storeWord t a = w ++ s.reg .cryGrdPdataLo ∧
        t.get Fld.cryGrdPaddrAddr = if s.flag Fld.cryGrdPaddrAutoinc then (a + 1) % 4096 else a) ∧
      (storeHeld s a = true → storeWord t a = storeWord s a ∧ t.flag Fld.cryGrdLdstsInuse = true ∧
        OtherRegs s t .cryGrdLdsts 0)) ∧
  ((∀ (s : State) (r : Req) (p : Nat) (w : Word), p < 256 → Written s r .cryGrdPdesc p w → Steady s →
    s.flag Fld.cryGrdPdescValid p = false → progBusy s p = false → Fld.cryGrdPdescValid.get w = 1 →
    let st := Fld.cryGrdPdescStart.get w
    let lm := Fld.cryGrdPdescLenm1.get w
    let word (i : Nat) := storeWord s (st + i)
    let good := st + lm ≤ 4095 ∧
      (∀ i ≤ lm, gDefined (gOpc (word i)) = true ∧ word i &&& ~~~gUsed (word i) = 0 ∧
        (gOpc (word i) = 0x1C → (gImm (word i)).toNat % 64 ≤ 62) ∧
        (gOpc (word i) = 0x28 ∨ gOpc (word i) = 0x29 → i < gTarget (word i) ∧ gTarget (word i) ≤ lm)) ∧
      (gOpc (word lm) = 0x30 ∨ gOpc (word lm) = 0x31 ∨ gOpc (word lm) = 0x32)
    ∃ t, exec (.grdPdescValidWrite r p w) s = .next t ∧ t.resps = okSent s r ∧ t.gr = s.gr ∧
      t.get Fld.cryGrdPdescStart p = st ∧ t.get Fld.cryGrdPdescLenm1 p = lm ∧
      (good ↔ t.flag Fld.cryGrdPdescValid p = true) ∧
      (¬ good → ∃ e i, progCheck st lm (progWords t p) = some (e, i) ∧ t.get Fld.cryGrdLdstsErr = e % 16 ∧ t.get Fld.cryGrdLdstsWidx = i % 64)) ∧
  (∀ (s : State) (r : Req) (n : Nat) (w : Word), n < 64 → Written s r .cryGrdFmtW0 n w → Steady s →
    s.flag Fld.cryGrdFmtW0Valid n = false → fmtBusy s n = false → Fld.cryGrdFmtW0Valid.get w = 1 →
    ∃ t, exec (.grdFmtValidWrite r n w) s = .next t ∧ t.resps = okSent s r ∧ t.gr = s.gr ∧
      t.get Fld.cryGrdFmtW0Rlen n = Fld.cryGrdFmtW0Rlen.get w ∧ t.get Fld.cryGrdFmtW0Hdr n = Fld.cryGrdFmtW0Hdr.get w ∧
      (t.flag Fld.cryGrdFmtW0Valid n = true ↔ fmtOk (fmtWords t n) = true) ∧
      (fmtOk (fmtWords t n) = false → t.get Fld.cryGrdLdstsErr = 7)))

/-- R512, R516, R517: a grader in service and free takes the next tile of the best waiting request and forms its first round, of at most four
records in position order whose registers and flags are 0 (R506); an error in a grader's memory takes it out of service, releases its tile and
adds a log entry (R515). -/
def Obligations.GraderTileStart : Prop :=
  (∀ (s : State) (g i : Nat) (q : Request), s.coreOn = true → g < 16 → grdFree s g = true →
    bestReq ((s.reqs.map Prod.snd).filter fun q => (nextTile q).isSome && grdMay s g q.order) = some q → nextTile q = some i →
    ∃ t x, exec (.gradeTile g) s = .next t ∧ Tab.find g t.gr.run = some x ∧ x.rtag = q.rtag ∧ x.tile = i ∧ x.lanes.length ≤ 4 ∧
      (∀ (n : Nat) (l : Lane), x.lanes[n]? = some l → l.pos = n ∧ l.x = List.replicate 8 0 ∧ l.v = false ∧ l.z = false ∧ l.pc = 0 ∧ l.out = none) ∧
      (∀ h, h ≠ g → Tab.find h t.gr.run = Tab.find h s.gr.run) ∧ t.gr.store = s.gr.store ∧ t.regs = s.regs) ∧
  (∀ (s : State) (g : Nat), s.coreOn = true → g < 16 → (∃ h < 16, h ≠ g ∧ s.bit .cryGrdSts 0 (16 + h) = false) →
    ∃ t, exec (.graderMemoryError g) s = .next t ∧ t.bit .cryGrdSts 0 (16 + g) = true ∧ Tab.find g t.gr.run = none ∧
      (∀ h, h ≠ g → Tab.find h t.gr.run = Tab.find h s.gr.run) ∧
      (t.log.head?.map fun e => (e.unit, e.code)) = some (uCRY, 0x100A))

/-! ## Interrupts and locks (chapter 16) -/

/-- R578, R601: an edge on a source sets its pending bit, masked or not, and no other source's; a write of SIC_SWI raises such an edge at the
target it names.
R580, R582, R587, R588: BASE is capped at 14 and is the threshold at once where no claim is in service, and else once the last one ends; a
route moves the source with its pending bit, and leaves every stack; a write of a pending register sets it to the written value, with the bits
that hardware sets in that cycle. -/
def Obligations.InterruptEdgesAndWrites : Prop :=
  ((∀ (s : State) (x : Source), s.coreOn = true → (match x with | .priv t k => t < 64 ∧ k < 50 | .shared i => i < 2048) →
    ∃ u, exec (.sourceEdge x) s = .next u ∧ sourcePending u x = true ∧ u = { s with regs := u.regs } ∧
      ∀ y, y ≠ x → sourcePending u y = sourcePending s y) ∧
  (∀ (s : State) (r : Req) (w : Word), Written s r .sicSwi 0 w → Steady s → Fld.sicSwiSrc.get w < 48 →
    let x := Source.priv (Fld.sicSwiTgt.get w) (Fld.sicSwiSrc.get w)
    ∃ u, exec (.sicSwi r w) s = .next u ∧ sourcePending u x = true ∧ u = { s with regs := u.regs, resps := okSent s r } ∧
      ∀ y, y ≠ x → sourcePending u y = sourcePending s y)) ∧
  ((∀ (s : State) (r : Req) (t : Nat) (w : Word), t < 64 → Written s r .sicThr t w → Steady s →
    ∃ u, exec (.sicBaseWrite r t w) s = .next u ∧ u.resps = okSent s r ∧ u.sicStack = s.sicStack ∧
      u.get Fld.sicThrBase t = min 14 (Fld.sicThrBase.get w) ∧ OtherRegs s u .sicThr t ∧
      (sicStackOf s t = [] → threshold u t = min 14 (Fld.sicThrBase.get w)) ∧
      (sicStackOf s t ≠ [] → threshold u t = threshold s t)) ∧
  (∀ (s : State) (r : Req) (i : Nat) (w : Word), i < 2048 → Written s r .sicRoute i w → Steady s →
    ∃ u, exec (.sicRouteWrite r i w) s = .next u ∧ u.resps = okSent s r ∧ u.sicStack = s.sicStack ∧
      sourceTarget u (.shared i) = Fld.sicRouteTgt.get w ∧ sourcePrio u (.shared i) = Fld.sicRoutePrio.get w ∧
      (∀ y, sourcePending u y = sourcePending s y) ∧ OtherRegs s u .sicRoute i) ∧
  (∀ (s : State) (r : Req) (ofs i : Nat) (k : RegKind) (w hw : Word), k ∈ [RegKind.sicPpendLo, .sicPpendHi, .sicSpend] → regAt ofs = some (k, i) →
    Written s r k i w → Steady s →
    ∃ u, exec (.sicPendingWrite r ofs w hw) s = .next u ∧ u.resps = okSent s r ∧ u.sicStack = s.sicStack ∧
      u.reg k i = w ||| hw ∧ OtherRegs s u k i))

/-- R583: a read of SIC_CLAIM answers the ID of the deliverable source of highest priority, ties to the lower ID, clears its pending bit and
makes its priority the threshold, the former one being kept below it; with no deliverable source it answers 0xFFFF and changes nothing. R585: a
write of SIC_EOI with the ID of the newest claim in service pops it, and the threshold returns to what it was; any other ID changes nothing but
EOI_ERR and adds a log entry. -/
def Obligations.InterruptClaimAndEoi : Prop :=
  (∀ (s : State) (r : Req) (t : Nat), t < 64 → ReadOk s r .sicClaim t →
    (sourcesReady s t = [] → exec (.sicClaim r t) s = .next (s.respond r .ok (laneBytes (RegKind.sicClaim.offset t) 0xFFFF))) ∧
    (∀ x ∈ sourcesReady s t,
      (∀ y ∈ sourcesReady s t, sourcePrio s y < sourcePrio s x ∨ (sourcePrio s y = sourcePrio s x ∧ sourceId x ≤ sourceId y)) →
      ∃ u, exec (.sicClaim r t) s = .next u ∧
        u.resps = s.resps ++ [⟨r.port, r.vc, r.tag, .ok, laneBytes (RegKind.sicClaim.offset t) (BitVec.ofNat 32 (sourceId x))⟩] ∧
        sourcePending u x = false ∧ (∀ y, y ≠ x → sourcePending u y = sourcePending s y) ∧
        threshold s t < threshold u t ∧ threshold u t = sourcePrio s x ∧
        sicStackOf u t = (sourceId x, sourcePrio s x) :: sicStackOf s t ∧ (∀ t', t' ≠ t → sicStackOf u t' = sicStackOf s t') ∧
        u = { s with regs := u.regs, sicStack := u.sicStack, resps := u.resps } ∧
        ∀ k i, k ∉ [RegKind.sicPpendLo, .sicPpendHi, .sicSpend] → u.reg k i = s.reg k i)) ∧
  (∀ (s : State) (r : Req) (t : Nat) (w : Word), t < 64 → Written s r .sicEoi t w → Steady s →
    ∃ u, exec (.sicEoi r t w) s = .next u ∧ u.resps = okSent s r ∧
      (∀ x p l, sicStackOf s t = (x, p) :: l → x = Fld.sicEoiId.get w →
        sicStackOf u t = l ∧ (∀ t', t' ≠ t → sicStackOf u t' = sicStackOf s t') ∧
        u = { s with sicStack := u.sicStack, resps := u.resps }) ∧
      ((∀ x p l, sicStackOf s t = (x, p) :: l → x ≠ Fld.sicEoiId.get w) →
        u.flag Fld.sicThrEoiErr t = true ∧ u.get Fld.sicThrBase t = s.get Fld.sicThrBase t ∧
        (u.log.head?.map fun e => (e.unit, e.code)) = some (uSIC, 0x1015) ∧ u.log.tail = s.log.take 2047 ∧
        u = { s with regs := u.regs, resps := u.resps, log := u.log } ∧
        ∀ k i, (k, i) ≠ (RegKind.sicThr, t) → k ≠ .glbLogSeq → u.reg k i = s.reg k i))

/-- R593, R595, R602: an acquire of a free lock makes the writer its owner for LEASE × 100 µs, an owner's acquire renews the lease, and another's changes
nothing but the count of refusals. R594: a release by the owner frees the lock; by any other initiator, of a free lock, or together with an acquire,
it changes nothing but that count. -/
def Obligations.LockAcquireRelease : Prop :=
  ∀ (s : State) (r : Req) (n : Nat) (w : Word), n < 256 → Written s r .lckCtl n w → Steady s → r.src < 256 →
    let acq := Fld.lckCtlAcq.get w = 1
    let rel := Fld.lckCtlRel.get w = 1
    let held := s.flag Fld.lckStsHeld n = true
    let mine := held ∧ s.get Fld.lckStsOwner n = r.src
    let refused (o : Out) := ∃ u, o = .next u ∧ u.resps = okSent s r ∧ u.leases = s.leases ∧ OtherRegs s u .lckGsts 0 ∧
      u.get Fld.lckGstsRefused = min 0xFFFF (s.get Fld.lckGstsRefused + 1) ∧ u.get Fld.lckGstsBreaks = s.get Fld.lckGstsBreaks
    (acq → ¬rel → (¬held ∨ mine) → ∃ u, exec (.lockAcquire r n w) s = .next u ∧ u.resps = okSent s r ∧
      u.flag Fld.lckStsHeld n = true ∧ u.get Fld.lckStsOwner n = r.src ∧ u.flag Fld.lckStsBroken n = s.flag Fld.lckStsBroken n ∧
      Tab.find n u.leases = some (s.now + max 1 (s.get Fld.lckCfgLease) * 100000) ∧ OtherRegs s u .lckSts n) ∧
    (acq → ¬rel → held → ¬mine → refused (exec (.lockAcquire r n w) s)) ∧
    (rel → ¬acq → mine → ∃ u, exec (.lockRelease r n w) s = .next u ∧ u.resps = okSent s r ∧
      u.flag Fld.lckStsHeld n = false ∧ u.get Fld.lckStsOwner n = 0 ∧ u.flag Fld.lckStsBroken n = s.flag Fld.lckStsBroken n ∧
      Tab.find n u.leases = none ∧ OtherRegs s u .lckSts n) ∧
    (rel → ¬acq → ¬mine → refused (exec (.lockRelease r n w) s)) ∧
    (acq → rel → refused (exec (.lockRelease r n w) s) ∧ refused (exec (.lockAcquire r n w) s))

/-- R595, R596, R597: a lock whose lease has run out, and with a write of LCK_OWNER_RST every lock that the ID holds, is force-released: free, BROKEN, counted,
logged, and no other lock changes. The owner of the moment clears BROKEN; a write by any other initiator leaves it; a break in the same cycle leaves it set (R6). -/
def Obligations.LockForcedRelease : Prop :=
  (∀ (s : State) (n : Nat), s.coreOn = true → s.flag Fld.lckStsHeld n = true → Tab.get 0 n s.leases ≤ s.now →
    ∃ u, exec (.leaseExpiry n) s = .next u ∧ u.flag Fld.lckStsHeld n = false ∧ u.get Fld.lckStsOwner n = 0 ∧ u.flag Fld.lckStsBroken n = true ∧
      u.get Fld.lckGstsBreaks = min 0xFFFF (s.get Fld.lckGstsBreaks + 1) ∧ (∀ m, m ≠ n → u.reg .lckSts m = s.reg .lckSts m) ∧
      (u.log.head?.map fun e => (e.unit, e.code, e.obj)) = some (uLCK, 0x1016, packBytes [(1, n), (1, s.get Fld.lckStsOwner n)])) ∧
  (∀ (s : State) (r : Req) (w : Word), Written s r .lckOwnerRst 0 w → Steady s → Fld.lckOwnerRstGo.get w = 1 →
    ∃ u, exec (.lckOwnerRst r w) s = .next u ∧ u.resps = okSent s r ∧
      ∀ n, Tab.find n s.leases ≠ none →
        (s.flag Fld.lckStsHeld n = true ∧ s.get Fld.lckStsOwner n = Fld.lckOwnerRstId.get w →
          u.flag Fld.lckStsHeld n = false ∧ u.get Fld.lckStsOwner n = 0 ∧ u.flag Fld.lckStsBroken n = true) ∧
        (¬ (s.flag Fld.lckStsHeld n = true ∧ s.get Fld.lckStsOwner n = Fld.lckOwnerRstId.get w) → u.reg .lckSts n = s.reg .lckSts n)) ∧
  (∀ (s : State) (r : Req) (n : Nat) (w : Word) (again : Bool), n < 256 → Written s r .lckSts n w → Steady s → Fld.lckStsBroken.get w = 1 →
    let mine := s.flag Fld.lckStsHeld n = true ∧ s.get Fld.lckStsOwner n = r.src
    ∃ u, exec (.brokenClear r n w again) s = .next u ∧ u.resps = okSent s r ∧ OtherRegs s u .lckSts n ∧
      u.flag Fld.lckStsHeld n = s.flag Fld.lckStsHeld n ∧ u.get Fld.lckStsOwner n = s.get Fld.lckStsOwner n ∧
      (mine → u.flag Fld.lckStsBroken n = again) ∧ (¬mine → u.flag Fld.lckStsBroken n = (s.flag Fld.lckStsBroken n || again)))

/-! ## Stokers (chapter 5) -/

/-- R173, Table 05-5: BR, CALL and RET move the slot's program counter, and CALL and RET its stack, by their condition; LDI, ADDI, ANDI and ORI write
one G register, G0 to G3 of the slot and G4 to G7 of the channel (R165), and CMPI writes EQ and LT. No other slot changes, and nothing outside
the channel but what selecting a target changes. -/
def Obligations.StokerFlowAndRegisters : Prop :=
  ∀ (s : State) (c k : Nat) (x : Slot) (w u : BitVec 96) (upc : BitVec 15), WordAt s c k x w upc u →
    let z := slotAtWord s c k x upc u
    (mOp u = 0x07 → ∀ b, condHolds s c x (mCond u) = some b → (b = true → InSpace (mTarget u)) → (b = false → NotLast upc) →
      ∃ t, exec (.stkBr c w) s = .next t ∧ WordTo s t c k { z with upc := if b then mTarget u else upc + 1 }) ∧
    (mOp u = 0x08 → NotLast upc → (condHolds s c x (mCond u) = some false → ∃ t, exec (.stkCall c w) s = .next t ∧ WordTo s t c k { z with upc := upc + 1 }) ∧
      (condHolds s c x (mCond u) = some true → InSpace (mTarget u) → x.stack.length < 8 →
        ∃ t, exec (.stkCall c w) s = .next t ∧ WordTo s t c k { z with stack := (upc + 1) :: x.stack, upc := mTarget u })) ∧
    (mOp u = 0x09 → (condHolds s c x (mCond u) = some false → NotLast upc → ∃ t, exec (.stkRet c w) s = .next t ∧ WordTo s t c k { z with upc := upc + 1 }) ∧
      (condHolds s c x (mCond u) = some true → ∀ a r, x.stack = a :: r →
        ∃ t, exec (.stkRet c w) s = .next t ∧ WordTo s t c k { z with stack := r, upc := a })) ∧
    (NotLast upc →
      let d := mRoute u / 16 % 8
      let a := gGet s c x (mRoute u % 8)
      let writes (i : Instr) (v : Word) := ∃ t y, exec i s = .next t ∧ WordTo s t c k y ∧ y = { z with upc := upc + 1, g := y.g } ∧
        y.g = (if d < 4 then x.g.set d v else x.g) ∧ (t.chan c).gs = (if d < 4 then (s.chan c).gs else (s.chan c).gs.set (d - 4) v) ∧
        (t.chan c).eq = (s.chan c).eq ∧ (t.chan c).lt = (s.chan c).lt
      (mOp u = 0x0A → writes (.stkLdi c w) (mImm u)) ∧
      (mOp u = 0x0B → writes (.stkAddi c w) (a + mImm u)) ∧
      (mOp u = 0x0C → writes (.stkAndi c w) (a &&& mImm u)) ∧
      (mOp u = 0x0D → writes (.stkOri c w) (a ||| mImm u)) ∧
      (mOp u = 0x0E → ∃ t, exec (.stkCmpi c w) s = .next t ∧ WordTo s t c k { z with upc := upc + 1 } ∧ (t.chan c).gs = (s.chan c).gs ∧
        (t.chan c).eq = decide (a = mImm u) ∧ (t.chan c).lt = decide (a.toNat < (mImm u).toNat)))

/-- R171, R179, Tables 05-2, 05-3 and 05-5: what NOP, TDLY, PINSET, CYC, GO and XFER put on the pins of a target that is not in KX-DDR framing, and what they
leave in the slot; a DATA_OUT_FRAME in KX-DDR ends its XFER where its CRC is right, is read once more, with a column change, where it is not, and
the second time goes on with the error counted (R149). Of several bytes to STATUS or to a G register the last stays: the model's choice (log
entry 116). -/
def Obligations.StokerPins : Prop :=
  (∀ (s : State) (c k : Nat) (x : Slot) (w u : BitVec 96) (upc : BitVec 15), WordAt s c k x w upc u → NotLast upc →
    let z := slotAtWord s c k x upc u
    let bus0 := ((wordStart s c k x u).chan c).bus
    (mOp u = 0x00 → ∃ t, exec (.stkNop c w) s = .next t ∧ WordTo s t c k { z with upc := upc + 1 } ∧ (t.chan c).bus = bus0) ∧
    (mOp u = 0x04 → ∃ t, exec (.stkTdly c w) s = .next t ∧ WordTo s t c k { z with upc := upc + 1 } ∧ (t.chan c).bus = bus0) ∧
    (mOp u = 0x0F → ∃ t, exec (.stkPinset c w) s = .next t ∧ WordTo s t c k { z with upc := upc + 1 } ∧ (t.chan c).bus = bus0 ++ [.pins (mPins u)]) ∧
    (slotKx s c x = false → ∀ b : Byte,
      ((mRoute u = 32 ∧ b = (mImm u).setWidth 8) ∨ (64 ≤ mRoute u ∧ mRoute u < 96 ∧ b = ctxByte x.op (mRoute u - 64)) ∨
        (96 ≤ mRoute u ∧ mRoute u < 104 ∧ b = (gGet s c x (mRoute u - 96)).setWidth 8)) →
      let m := if mSel u = 1 then 2 ^ slotTgt x else if mSel u = 2 then x.op.mask else 0
      (mOp u = 0x01 → mCle u ≠ mAle u → ∃ t, exec (.stkCyc c w) s = .next t ∧ WordTo s t c k { z with upc := upc + 1 } ∧
        (t.chan c).bus = (s.chan c).bus ++ [if mCle u then .cmd m b else .addr m b]) ∧
      (mOp u = 0x02 → s.banked = false → (s.chan c).items = [] → ∃ t, exec (.stkGo c w) s = .next t ∧
        Tab.find k (t.chan c).slots = some { z with upc := upc + 1, went := true, lrdy := false } ∧
        (∀ j, j ≠ k → Tab.find j (t.chan c).slots = Tab.find j (s.chan c).slots) ∧ (∀ l, l ≠ x.op.lun → t.lun l = s.lun l) ∧
        (t.chan c).bus = (s.chan c).bus ++ [.cmd m b] ∧ (t.chan c).rb = (s.chan c).rb &&& ~~~(BitVec.ofNat 8 m)) ∧
      (mOp u = 0x03 → ∀ din, ∃ t, exec (.stkXfer c w din) s = .next t ∧ WordTo s t c k { z with upc := upc + 1 } ∧
        (t.chan c).bus = bus0 ++ [.dataIn m (List.replicate (xferLen x u false) b)])) ∧
    (mOp u = 0x02 → s.banked = true → InSpace (mTarget u) → ∃ t, exec (.stkGo c w) s = .next t ∧ SlotTo s t c k { x with last := upc, upc := mTarget u } ∧
      (t.chan c).bus = (s.chan c).bus ∧ t.regs = s.regs) ∧
    (slotKx s c x = false → mOp u = 0x03 → ∀ din : List Byte,
      let m := if mSel u = 1 then 2 ^ slotTgt x else if mSel u = 2 then x.op.mask else 0
      let n := if (mImm u).toNat % 2 ^ 17 = 0 then x.op.xlen + 1 else (mImm u).toNat % 2 ^ 17
      let last := ((din.take n).getLast?).getD 0
      (mRoute u / 32 = 4 → ∃ t, exec (.stkXfer c w din) s = .next t ∧ WordTo s t c k { z with upc := upc + 1, sent := x.sent + n } ∧
        (t.chan c).bus = bus0 ++ [.dataIn m (((opData x.op).drop (x.sent + 4608 * (mRoute u % 32))).take n)]) ∧
      (mRoute u / 32 = 5 → ∃ t y, exec (.stkXfer c w din) s = .next t ∧ WordTo s t c k y ∧ y = { z with upc := upc + 1, got := y.got, raw := y.raw } ∧
        (t.chan c).bus = bus0 ++ [.dataOut m n] ∧
        (∀ v, x.op.wants[x.got]? = some v → v.kind = 0 → y.got = x.got + 1 ∧
          ((Tab.find ((x.op.bufslot + mRoute u % 32) % 32) (t.chan c).buf).map fun z => (z.why, z.page, z.cw)) = some (v.why, v.page, v.cw)) ∧
        (x.op.wants[x.got]? = none → y.raw = x.raw ++ din.take n)) ∧
      (mRoute u = 192 → ∃ t, exec (.stkXfer c w din) s = .next t ∧ WordTo s t c k { z with upc := upc + 1, status := last } ∧
        (t.chan c).bus = bus0 ++ [.dataOut m n]) ∧
      (224 ≤ mRoute u → mRoute u < 232 → ∃ t y, exec (.stkXfer c w din) s = .next t ∧ WordTo s t c k y ∧
        y = { z with upc := upc + 1, g := y.g, raw := x.raw ++ din.take n } ∧ (mRoute u < 228 → y.g = x.g.set (mRoute u % 8) (last.setWidth 32)) ∧
        (228 ≤ mRoute u → y.g = x.g ∧ (t.chan c).gs = (s.chan c).gs.set (mRoute u % 8 - 4) (last.setWidth 32))))) ∧
  (∀ (s : State) (c k slot : Nat) (x : Slot) (bs : List Byte) (crc : Word) (again : Bool), s.coreOn = true → (s.chan c).act = some k →
    Tab.find k (s.chan c).slots = some x → x.st = .frame slot again → slot / 32 = 5 →
    (crc32c bs = crc → ∃ t y, exec (.dataOutFrame c bs crc) s = .next t ∧ Tab.find k (t.chan c).slots = some y ∧ y.st = .ready ∧ y.upc = x.upc ∧
      (t.chan c).fchk = false ∧ t.regs = s.regs) ∧
    (crc32c bs ≠ crc → again = false → ∃ t, exec (.dataOutFrame c bs crc) s = .next t ∧ SlotTo s t c k { x with st := .frame slot true } ∧
      (t.chan c).bus = (s.chan c).bus ++ [.ca (2 ^ slotTgt x) (rereadFrame s x slot bs.length), .frameOut (2 ^ slotTgt x) bs.length]) ∧
    (crc32c bs ≠ crc → again = true → ∃ t y, exec (.dataOutFrame c bs crc) s = .next t ∧ Tab.find k (t.chan c).slots = some y ∧ y.st = .ready ∧
      (t.chan c).fchk = true ∧ t.get Fld.stkKxCntDoutCrc c = min Fld.stkKxCntDoutCrc.max (s.get Fld.stkKxCntDoutCrc c + 1)))

/-- R169, R170, R174, R176: how slots wait and proceed. A WAIT holds its slot, once its wait count has passed, and releases the pins where it waits on RB or
LRDY; the slot goes on at the next word once its condition holds, and at TARGET with TMO after its time; FL_RB_N rising, and the status byte of
a poll, are what a condition reads; a SAFE word gives the pins to a slot that ranks higher, and the slot of highest rank takes free pins. -/
def Obligations.StokerWaitsAndSwitches : Prop :=
  (∀ (s : State) (c k : Nat) (x : Slot) (w u : BitVec 96) (upc : BitVec 15), WordAt s c k x w upc u →
    let z := slotAtWord s c k x upc u
    (mOp u = 0x05 → ∀ b, condHolds s c x (mCond u) = some b → (s.chan c).halting = false →
      let parks := mCond u % 128 = 1 ∨ mCond u % 128 = 2
      let tmo := if mImm u = 0 then x.op.tmo else (mImm u).toNat
      let since := match x.st with
        | .wcnt a => a
        | _ => s.now
      let st := SlotSt.waiting (mCond u) tmo (mTarget u) (mRoute u % 2 == 1) since (decide parks)
      (since + cyclesNs (mWcnt u) ≤ s.now → ∃ t, exec (.stkWait c w) s = .next t ∧ WordTo s t c k { z with upc := upc, st := st, lrdy := false } ∧
        (t.chan c).act = if parks then none else some k) ∧
      (s.now < since + cyclesNs (mWcnt u) → ∃ t, exec (.stkWait c w) s = .next t ∧ WordTo s t c k { z with st := .wcnt since } ∧
        (t.chan c).act = some k)) ∧
    (mOp u = 0x06 → (s.chan c).halting = false → NotLast upc → rawWaits s c = false → x.op.cls < 2 →
      ((x.abort = true ∨ s.banked = true) → x.went = false → InSpace (mTarget u) →
        ∃ t, exec (.stkSafe c w) s = .next t ∧ WordTo s t c k { z with upc := mTarget u } ∧ (t.chan c).act = some k) ∧
      ((x.abort = false ∧ s.banked = false) ∨ x.went = true →
        let better := (s.chan c).slots.any fun e => slotReady s c e.2 && e.1 != k && slotFirst e (k, x) && (e.2.op.cls != x.op.cls || e.2.op.rtag != x.op.rtag)
        (better = false → ∃ t, exec (.stkSafe c w) s = .next t ∧ WordTo s t c k { z with upc := upc + 1 } ∧ (t.chan c).act = some k) ∧
        (∀ e, topSlot ((s.chan c).slots.filter fun e => slotReady s c e.2 && e.1 != k) = some e → slotFirst e (k, x) = true → e.2.op.cls < x.op.cls →
          ∃ t, exec (.stkSafe c w) s = .next t ∧ WordTo s t c k { z with upc := upc + 1, st := .parkedSafe } ∧ (t.chan c).act = none)))) ∧
  (∀ (s : State) (c k : Nat) (x : Slot) (cond tmo since : Nat) (tgt : BitVec 15) (susp parks : Bool), s.coreOn = true →
    s.flag Fld.stkStsFault c = false → Tab.find k (s.chan c).slots = some x → x.st = .waiting cond tmo tgt susp since parks →
    (condHolds s c x cond = some true → NotLast x.upc →
      ∃ t, exec (.slotRunnable c k) s = .next t ∧ SlotTo s t c k { x with st := .ready, upc := x.upc + 1 } ∧ (t.chan c).tmoF = false) ∧
    (condHolds s c x cond = some false → susp = true → x.susp = true → InSpace tgt →
      ∃ t, exec (.slotRunnable c k) s = .next t ∧ SlotTo s t c k { x with st := .ready, upc := tgt } ∧ (t.chan c).tmoF = false) ∧
    (condHolds s c x cond = some false → since + tmo ≤ s.now → InSpace tgt →
      ∃ t, exec (.waitTimeout c k) s = .next t ∧ SlotTo s t c k { x with st := .ready, upc := tgt } ∧ (t.chan c).tmoF = true) ∧
    (cond % 128 = 2 → parks = true → pollRanks s c k x = true → pollDue s c k x since = true → rateLocked s c = false → needsRate s c (slotTgt x) = false →
      slotKx s c x = false → ∀ b,
      ∃ t, exec (.lunPoll c k b) s = .next t ∧ WordTo s t c k { x with status := b, lrdy := b.getLsbD 6 } ∧
        (t.chan c).bus = (s.chan c).bus ++
          [if 1 < (s.profile x.op.lun).luns then .statusRow (2 ^ slotTgt x) x.op.row else .status (2 ^ slotTgt x)])) ∧
  (∀ (s : State) (c n : Nat), s.coreOn = true → c < 128 → n < 8 →
    ∃ t, exec (.rbRise c n) s = .next t ∧ t = { s with ch := t.ch } ∧ (t.chan c).rb = (s.chan c).rb ||| (1#8 <<< n) ∧
      (t.chan c).slots = (s.chan c).slots ∧ ∀ d, d ≠ c → t.chan d = s.chan d) ∧
  (∀ (s : State) (c k : Nat) (x : Slot) (din : List Byte), s.coreOn = true → c < 128 → (s.chan c).act = none → s.flag Fld.stkStsFault c = false →
    s.flag Fld.stkDbgCtlHalted c = false → (s.chan c).halting = false → rawWaits s c = false → Tab.find k (s.chan c).slots = some x → k < 32 →
    slotReady s c x = true → Tab.rising (s.chan c).slots = true → x.op.cls ≤ 1 ∨ maintWork s c = false →
    (∀ e ∈ (s.chan c).slots, slotReady s c e.2 = true → e.1 ≠ k → x.op.cls < e.2.op.cls) →
    ∃ t, exec (.slotSwitch c din) s = .next t ∧ WordTo s t c k { x with st := .ready } ∧ (t.chan c).act = some k)

/-- R181, R188, R189, Table 05-5: REPORT posts its event; END ends the operation with its code and frees slot and pins; the PHY actions; and a
stoker that runs more than LIMIT words since its last switch point faults: FAULT with cause 6 and the last word's address, every operation of its
slots ends, and the pins take their reset levels. -/
def Obligations.StokerEndsAndPhy : Prop :=
  (∀ (s : State) (c k : Nat) (x : Slot) (w u : BitVec 96) (upc : BitVec 15), WordAt s c k x w upc u →
    let z := slotAtWord s c k x upc u
    (mOp u = 0x11 → NotLast upc → ∃ t, exec (.stkReport c w) s = .next t ∧ WordTo s t c k { z with upc := upc + 1 } ∧
      (t.chan c).reports = (s.chan c).reports ++ [(k, (mImm u).toNat % 256, x.status)]) ∧
    (mOp u = 0x12 → (s.chan c).halting = false → ∃ t, exec (.stkEnd c w) s = .next t ∧ Tab.find k (t.chan c).slots = none ∧ (t.chan c).act = none ∧
      (∀ j, j ≠ k → Tab.find j (t.chan c).slots = Tab.find j (s.chan c).slots) ∧
      t.md.ended = s.md.ended ++
        [{ op := x.op, code := (mImm u).toNat % 256, status := x.status, went := x.went, raw := x.raw, sent := x.sent, got := x.got }] ∧
      t = { s with ch := t.ch, regs := t.regs, log := t.log, md := { s.md with ended := t.md.ended } } ∧
      ∀ k' i', (k', i') ≠ (RegKind.stkChmode, c) → k' ≠ .glbLogSeq → t.reg k' i' = s.reg k' i') ∧
    (mOp u = 0x10 → NotLast upc →
      let a := (mImm u).toNat % 256
      let done (t : State) := Tab.find k (t.chan c).slots = some { z with upc := upc + 1 } ∧
        (∀ j, j ≠ k → Tab.find j (t.chan c).slots = Tab.find j (s.chan c).slots) ∧ ∀ d, d ≠ c → t.chan d = s.chan d
      let others (t : State) (y : RegKind) := ∀ k' i', (k', i') ≠ (y, c) → (k', i') ≠ (RegKind.stkChmode, c) → k' ≠ .glbLogSeq → t.reg k' i' = s.reg k' i'
      (a = 0 → ∀ m : Train, ∃ t, exec (.phyEngineZq c w m) s = .next t ∧ done t ∧ others t .stkChmode ∧
        (t.flag Fld.stkChmodeZqDflt c = false ↔ s.img.cal.puMin ≤ m.pu ∧ m.pu ≤ s.img.cal.puMax ∧ s.img.cal.pdMin ≤ m.pd ∧ m.pd ≤ s.img.cal.pdMax) ∧
        (t.flag Fld.stkChmodeZqDflt c = false → (Tab.get {} c t.cal.chs).pu = m.pu ∧ (Tab.get {} c t.cal.chs).pd = m.pd) ∧
        (t.flag Fld.stkChmodeZqDflt c = true → (Tab.get {} c t.cal.chs).pu = 0x20 ∧ (Tab.get {} c t.cal.chs).pd = 0x20)) ∧
      (a = 1 → ∀ m : Train, ∃ t, exec (.phyDutyTrim c w m) s = .next t ∧ done t ∧ others t .stkChmode ∧
        (Tab.get {} c t.cal.chs).dcc = if m.dutyOk then m.dcc else (Tab.get {} c s.cal.chs).dcc) ∧
      (a = 2 → ∃ t, exec (.phyLoadReadDelays c w) s = .next t ∧ done t ∧ t.reg .stkDskRd c = gGet s c x 4 ∧ others t .stkDskRd) ∧
      (a = 3 → ∃ t, exec (.phyLoadWriteDelays c w) s = .next t ∧ done t ∧ t.reg .stkDskWr c = gGet s c x 6 ∧ others t .stkDskWr) ∧
      (a = 4 → ∃ t, exec (.phyRateChange c w) s = .next t ∧ done t ∧ others t .stkChmode ∧
        t.get Fld.stkChmodeCurRate c = (applied s c (slotTgt x)).rate % 65536 ∧
        ((applied s c (slotTgt x)).rate ≠ s.get Fld.stkChmodeCurRate c → (t.chan c).lockTill = s.now + 2000 ∧ (t.chan c).pins.ceN = 0xFF)))) ∧
  (∀ (s : State) (c k : Nat) (x : Slot), s.coreOn = true → (s.chan c).act = some k → Tab.find k (s.chan c).slots = some x → s.flag Fld.stkStsFault c = false →
    max 64 (s.get Fld.stkWdogLimit c) < (s.chan c).words → Tab.rising (s.chan c).slots = true →
    ∃ t, exec (.stokerWatchdog c) s = .next t ∧ t.flag Fld.stkStsFault c = true ∧ t.get Fld.stkStsCause c = 6 ∧
      t.get Fld.stkStsFaultUpc c = x.last.toNat ∧ (t.chan c).slots = [] ∧
      (t.chan c).act = none ∧ (t.chan c).pins = {} ∧
      t.md.ended.map Ended.op = s.md.ended.map Ended.op ++ (s.chan c).slots.map fun e => e.2.op)

/-! ## Operations of a LUN (chapters 5, 6 and 8) -/

/-- R205, R210, R212, R213: the read operations. The head of the LUN's queue being a read that may start and a buffer slot being free, COL_READ takes it where
its page stands in the page register, sensed at the same offsets, and else PAGE_READ, each with the other codewords of the page that are wanted;
MP_READ takes pages of different planes, and CACHE_READ consecutive pages of one block for classes 2 and 3. -/
def Obligations.ReadsAreFormed : Prop :=
  ∀ (s : State) (k b : Nat) (w : Want), s.coreOn = true → k < 4096 → headWant s k = some w → w.kind = 0 → takeSlot s k w = some b →
    let same (l : List Want) := ∀ v ∈ l, v.page = w.page ∧ v.offs = w.offs ∧ v.step = w.step
    let two := 2 ≤ slotsFrom s (lunCh k) b 2 ∧ (b < 8 ∨ 2 ≤ slotRoom s k (w.step != 0))
    ((w.page, w.offs) ∈ (s.lun k).sensed → Formed s (.colRead k) k 0x04 w same) ∧
    ((w.page, w.offs) ∉ (s.lun k).sensed →
      Formed s (.pageRead k) k 0x01 w same ∧
      (two → ∀ v ∈ (s.lun k).queue, v.kind = 0 → v ≠ w → mayStart s k v = true →
        (v.page.slc = w.page.slc → v.step = w.step → ((s.profile k).ipr = true ∨ v.page.page = w.page.page) →
          v.page.block % (s.profile k).planes ≠ w.page.block % (s.profile k).planes →
          Formed s (.mpRead k) k 0x02 w (fun l => 2 ≤ l.length ∧
            l.Pairwise fun a b => a.page.block % (s.profile k).planes ≠ b.page.block % (s.profile k).planes)) ∧
        (v.page = { w.page with page := w.page.page + 1 } → 2 ≤ w.cls → (s.profile k).cacheRd = true →
          ((s.lun k).queue.any fun u => u.kind == 0 && decide (u.cls ≤ 1)) = false →
          Formed s (.cacheRead k) k 0x03 w (fun l => 2 ≤ l.length ∧ l.length ≤ 8 ∧
            ∀ n a, l[n]? = some a → a.page = { w.page with page := w.page.page + n }))))

/-- R205, R214, R217, R229, R232, R236, R237, R464: the operations of programs, seals, erases, features and the OTP pages, each formed for the head of its LUN's queue by
the kind of that want and what the die allows; a program needs a buffer slot (R293). -/
def Obligations.ProgramsAndErasesAreFormed : Prop :=
  ∀ (s : State) (k : Nat) (w : Want), s.coreOn = true → k < 4096 → headWant s k = some w →
    let p := s.profile k
    let many := 1 < p.planes ∧ 1 < w.data.length
    let alone (l : List Want) := l = [w]
    (w.kind = 1 → (progSlots s k [w]).isSome →
      (w.page.slc = false → ¬many → Formed s (.prog k) k 0x08 w alone) ∧
      (many → Formed s (.mpProg k) k 0x09 w alone) ∧
      (w.page.slc = true → ¬many → Formed s (.slcProg k) k 0x0B w alone) ∧
      (w.page.slc = false → ¬many → p.cacheProg = true → 2 ≤ w.cls →
        (∃ v ∈ (s.lun k).queue, v.kind = 1 ∧ v.page.block = w.page.block ∧ v.page.slc = false ∧ 2 ≤ v.cls ∧ mayStart s k v = true ∧
          wantStep s k v = wantStep s k w + 1) →
        Formed s (.cacheProg k) k 0x0A w (fun l => 2 ≤ l.length ∧
          ∀ n a, l[n]? = some a → a.kind = 1 ∧ a.page.block = w.page.block ∧ wantStep s k a = wantStep s k w + n))) ∧
    (w.kind = 3 → Formed s (.sealProg k) k 0x0C w alone) ∧
    (w.kind = 2 → (p.planes = 1 → Formed s (.erase k) k 0x10 w alone) ∧ (p.planes ≠ 1 → Formed s (.mpErase k) k 0x11 w alone)) ∧
    (w.kind = 4 →
      (w.optype = 0x18 → Formed s (.otpRead k) k 0x18 w alone) ∧ (w.optype = 0x19 → Formed s (.otpProg k) k 0x19 w alone) ∧
      (w.optype = 0x20 → Formed s (.getFeat k) k 0x20 w alone) ∧ (w.optype = 0x21 → Formed s (.setFeat k) k 0x21 w alone))

/-- R177, R220, R222, R223, R228, R240, R688: a granted operation enters its LUN's free slot at the vector word of its type; an erase that may be suspended has its
request raised, its window ends after 1 ms, and it is resumed as an operation of type 0x12; a want at the head of class 3 for 10 ms that count is aged; a
stalled LUN is polled by status enhanced, stays stalled while it reads busy within its time, and reports its operation once it reads ready; an
operation held by WPROT is formed again after 1 ms. -/
def Obligations.OperationIssueAndSuspension : Prop :=
  (∀ (s : State) (k : Nat) (o : Op), s.coreOn = true → (s.lun k).op = some o → (s.lun k).granted = true → s.inSlot k = none →
    s.flag Fld.stkStsFault (lunCh k) = false → mayPass s k o = true → s.pwr.st = .p0 → s.pwr.restartAt ≤ s.now →
    ∃ t, exec (.stokerIssue k) s = .next t ∧ t.lun k = { s.lun k with op := none, granted := false } ∧
      Tab.find (lunSlot k) (t.chan (lunCh k)).slots =
        some { op := o, upc := BitVec.ofNat 15 o.optype, g := [0, 0, 0, 0], seq := opSeq s o } ∧
      (∀ j, j ≠ k → t.lun j = s.lun j) ∧ t = { s with ch := t.ch, md := { s.md with luns := t.md.luns } }) ∧
  (∀ (s : State) (k : Nat) (e : ErState), s.coreOn = true → (s.lun k).er = some e →
    (mayRequestSuspend s k e = true → ∀ x, s.inSlot k = some x → isErase x.op.optype = true →
      ∃ t, exec (.eraseSuspendRequest k) s = .next t ∧ SlotTo s t (lunCh k) (lunSlot k) { x with susp := true }) ∧
    (∀ a, e.suspAt = some a →
      (a + 1000000 ≤ s.now → ∃ t, exec (.suspendWindowExpiry k) s = .next t ∧ t.lun k = { s.lun k with er := some { e with closed := true } } ∧
        (∀ j, j ≠ k → t.lun j = s.lun j) ∧ t = { s with md := { s.md with luns := t.md.luns } }) ∧
      (s.banked = false → flushing s = false → s.flag Fld.mapFlushStsDone = false → (s.lun k).op = none → s.inSlot k = none → s.online k = true →
        e.closed = true ∨ a + 1000000 ≤ s.now ∨ suspWork s k = false →
        ∃ t, exec (.eraseResume k) s = .next t ∧ t.lun k = { s.lun k with op := some { e.op with optype := 0x12 }, granted := false } ∧
          (∀ j, j ≠ k → t.lun j = s.lun j) ∧ t = { s with md := { s.md with luns := t.md.luns } }))) ∧
  (∀ (s : State) (k : Nat) (w : Want), s.coreOn = true → (s.lun k).head3 = some w → class3Head (s.lun k) = some w → 10000000 ≤ (s.lun k).age →
    ∃ t, exec (.class3Aged k) s = .next t ∧ t.lun k = { s.lun k with aged := true } ∧ (∀ j, j ≠ k → t.lun j = s.lun j) ∧
      t = { s with md := { s.md with luns := t.md.luns } }) ∧
  (∀ (s : State) (k a : Nat) (o : Op) (b : Byte), s.coreOn = true → (s.lun k).stall = some (o, a) → maintFirst s (lunCh k) = true →
    stallDue s k = true → needsRate s (lunCh k) (lunTgt k) = false → s.flag Fld.stkTgtcfgKx (tgtIdx k) = false →
    ∃ t, exec (.stallPoll k b) s = .next t ∧ (∀ j, j ≠ k → t.lun j = s.lun j) ∧
      (t.chan (lunCh k)).bus = (s.chan (lunCh k)).bus ++ [.statusRow (2 ^ lunTgt k) o.row] ∧
      (b.getLsbD 6 = true → t.lun k = { s.lun k with stall := none, polled := s.now } ∧
        t.md.ended = s.md.ended ++
          [{ op := o, code := lateCode o b, status := b, went := true, sent := wantBytes o.wants, reported := true }]) ∧
      (b.getLsbD 6 = false → s.now < a + ((s.profile k).lbt + 1000) * 1000 → t.lun k = { s.lun k with polled := s.now } ∧ t.md.ended = s.md.ended)) ∧
  (∀ (s : State) (k a : Nat) (o : Op), s.coreOn = true → (s.lun k).wprot = some (o, a) → (s.lun k).op = none → a + 1000000 ≤ s.now →
    ∃ t, exec (.wprotReissue k) s = .next t ∧ t.lun k = { s.lun k with op := some { o with again := true }, granted := false, wprot := none } ∧
      (∀ j, j ≠ k → t.lun j = s.lun j) ∧ t = { s with md := { s.md with luns := t.md.luns } })
/-! ## Reads of codewords, their bounds and their buckets (chapters 7, 8 and 1) -/

/-- R251, R254, R263, R265, R266, R269, R252, Table 01-7: a codeword that has landed is tested for erasure and given a free hard crystallizer; the result of
its hard decode goes to whoever asked for the read; a first decode that fails starts the retry ladder; a soft decode recovers a read in step 17; and a unit whose memory erred
goes out of service. -/
def Obligations.CodewordsAndDecodes : Prop :=
  ∀ (s : State) (c slot : Nat) (b : BufSlot), s.coreOn = true → Tab.find slot (s.chan c).buf = some b →
    (∀ e ∈ s.md.rds, e.2.res = none) →
    (b.stage = 0 → bufWanted s b = true →
      (s.get Fld.cryCtlErasedMax < b.zeros → (∀ id plus, b.why ≠ .soft id plus) →
        ∃ t, exec (.codewordReady c slot) s = .next t ∧ UnitsOnly (putBuf c slot { b with stage := 1 } s) t ∧
          ((∃ e ∈ t.md.hardRun, e.2 = (c, slot)) ∨ ∀ u, hardOn s u = true → (Tab.find u t.md.hardRun).isSome)) ∧
      (s.get Fld.cryCtlErasedMax < b.zeros → ∀ id plus, b.why = .soft id plus →
        ∃ t, exec (.codewordReady c slot) s = .next t ∧ UnitsOnly (softLanded id slot plus (putBuf c slot { b with stage := 2 } s)) t) ∧
      (b.zeros ≤ s.get Fld.cryCtlErasedMax → ∀ k, b.why = .sample k →
        ∃ t, exec (.codewordReady c slot) s = .next t ∧
          UnitsOnly (sampleDone k b.page b.cw ((freeBuf c slot s).inc Fld.cryGaugeStsErased)) t)) ∧
    (∀ u info, b.stage = 1 → hardOn s u = true → Tab.find u s.md.hardRun = some (c, slot) → info.length = 4160 →
      ∀ id r, b.why = .rd id → s.rd id = some r →
      (∀ i pos, r.own = .partner i pos → b.step = 0 → cbcByte (diffBits (info ++ eccBytes info) b.data) < s.get Fld.cryWarnThresh →
        ∃ t, exec (.hardDecodeDone c slot u (some info)) s = .next t ∧
          UnitsOnly (freeBuf c slot ((s.inc Fld.cryCwCntCw).modRd id fun r => { r with dec := some (some info) })) t) ∧
      (∀ plain, r.own = .patrol → checkTile s none (info.take 4128) = .ok plain →
        ∃ t, exec (.hardDecodeDone c slot u (some info)) s = .next t ∧ t.rd id = none ∧ Tab.find slot (t.chan c).buf = none)) ∧
    (∀ u id r, b.stage = 1 → hardOn s u = true → Tab.find u s.md.hardRun = some (c, slot) → b.why = .rd id → s.rd id = some r → r.own = .patrol → b.step = 0 → r.step = 0 → r.ladder = true →
      1 ≤ ladderLimit s r.cls → (s.profile r.page.lun).ofsMethod ≠ 0 →
      ∃ t, exec (.hardDecodeDone c slot u none) s = .next t ∧ t.regs = ((s.inc Fld.cryCwCntCw).inc Fld.cryFirstFailFail).regs ∧
        t.rd id = some { r with centre := some slot, step := 1 } ∧ Tab.find slot (t.chan c).buf = some { b with stage := 2 } ∧
        ∃ w ∈ (t.lun r.page.lun).queue, w.why = .rd id ∧ w.step = 1 ∧ w.offs = ladderOffs s r.page 1) ∧
    (∀ u id r info i pos, s.rd id = some r → softSlots s r = some b → softUnitOn s u = true → Tab.find u s.md.softRun = some id → r.step = 17 → info.length = 4160 →
      r.own = .partner i pos →
      ∃ t, exec (.softDecodeDone id u (some info)) s = .next t ∧ t.regs = (s.inc Fld.cryOutCntSoftOk).regs ∧
        t.rd id = some { r with centre := none, softM := none, softP := none, dec := some (some info) }) ∧
    (∀ u, (hardOn s u = true →
        ∃ t, exec (.crystallizerMemoryError false u) s = .next t ∧ hardOn t u = false ∧ t.ch = s.ch ∧ t.md.rds = s.md.rds ∧
          ((∃ v, v ≠ u ∧ hardOn s v = true) → t.banked = s.banked ∧ t.md = { s.md with hardRun := t.md.hardRun, softRun := t.md.softRun, hardLast := t.md.hardLast } ∧
            t.get Fld.pwrErrCntContained = min Fld.pwrErrCntContained.max (s.get Fld.pwrErrCntContained + 1)) ∧
          ((∀ v, v ≠ u → hardOn s v = false) → t.banked = true)) ∧
      (softUnitOn s u = true → (∃ v, v ≠ u ∧ softUnitOn s v = true) →
        ∃ t, exec (.crystallizerMemoryError true u) s = .next t ∧ softUnitOn t u = false ∧ t.ch = s.ch ∧ t.banked = s.banked ∧
          t.md = { s.md with hardRun := t.md.hardRun, softRun := t.md.softRun, hardLast := t.md.hardLast }))

/-- R301, R261, R304, R309, R22, R302, R238: a partner's codeword is passed to its reconstruction; a gauge line fetched lets the reads that wait for it go on; a class-0
request not done within its bound is deferred, and a mirrored write reports what it reached; the token buckets fill; and an operation that has ended is
evaluated. -/
def Obligations.PartnersAndBounds : Prop :=
  ∀ s : State, s.coreOn = true →
    (∀ id pid r o c pos cw, (∀ e ∈ s.md.rds, e.2.res = none) → pid ≠ id → s.rd pid = some r → r.own = .partner id pos → r.dec = some (some cw) →
      (readMeta cw).stripe = r.stripe → (readMeta cw).spos = r.spos → s.rd id = some o → o.recon = some c → c.have_.length + 1 < 16 →
      ∃ t, exec (.partnerReadDone pid) s = .next t ∧ t.rd pid = none ∧
        t.rd id = some { o with recon := some { c with have_ := Tab.put pos (parityPart pos cw) c.have_ } } ∧ t.regs = s.regs) ∧
    (∀ key o t g data, takeOutst (.gauge key) s = some (o, t) → gaugePage s key = some g → s.md.gauge.length < 8 →
      (∀ e ∈ s.md.rds, e.2.res = none ∧ (gaugeKey e.2.page = key → ∃ i pos, e.2.own = .partner i pos)) →
      ∃ u l, exec (.gaugeLineFetchDone key .ok data) s = .next u ∧ Tab.find key u.md.gauge = some l ∧ l.off = (List.range 32).map (sbyte data) ∧
        l.acc = ((List.range 32).map fun i => sbyte data (32 + i)) ∧
        ∀ id r, s.rd id = some r → gaugeKey r.page = key → ∃ r', u.rd id = some r' ∧ r'.gaugeWait = false) ∧
    (∀ rtag q, s.rq rtag = some q → q.rtag = rtag → s.stage = 9 →
      (q.cls = 0 → q.overCeil = false → q.firstOut = false → q.status = none → q.base + 197500 ≤ s.now →
        ((q.opc = 1 ∧ q.tiles.all tileDone = false) ∨ q.opc = 5) →
        ∃ t, exec (.class0Deadline rtag) s = .next t ∧ t.rq rtag = some { q with firstOut := true, deferred := true } ∧
          t.regs = (s.inc Fld.mapC0CntDefer).regs ∧ Owes s t q (tilesStatus (q.tiles.map (tileRecord true))) false) ∧
      (q.cls = 0 → q.opc = 2 → q.ack = 2 → q.started = true → q.firstOut = false → s.twinUp = true → (∀ x ∈ q.tiles, x.dead = false ∧ 1 ≤ x.dstate) →
        (∃ x ∈ q.tiles, x.dstate < 2) → q.base + 76500 ≤ s.now →
        ∃ t, exec (.commitLate rtag) s = .next t ∧ t.rq rtag = some { q with firstOut := true, late := true, owesTwin := true } ∧
          t.regs = (s.inc Fld.mapC0Cnt2CmtLate).regs ∧ Owes s t q 0 false)) ∧
    (s.md.c0At + 1000 ≤ s.now → ∃ t, exec .class0BucketRefill s = .next t ∧
      t.md.c0Tok = min 400 (s.md.c0Tok + 2 * ((s.now - s.md.c0At) / 1000)) ∧ t.regs = s.regs ∧ t.md.rds = s.md.rds) ∧
    (s.md.raAt + 1000000 ≤ s.now → (∀ e ∈ s.md.rds, e.2.wantTok = false) → ∃ t, exec .raBucketRefill s = .next t ∧
      t.md.raTok = min (s.get Fld.mapRaCfgRate) (s.md.raTok + s.get Fld.mapRaCfgRate) ∧ t.md.raAt = s.now ∧ t.regs = s.regs ∧ t.md.rds = s.md.rds) ∧
    (∀ a e b, nextEnded s.md.ended = some (a, e, b) → e.code = 5 → isErase e.op.optype = true → e.op.wants = [] → s.flag Fld.stkRawCtlEn (lunCh e.op.lun) = false →
      (∀ x ∈ s.md.rds, x.2.res = none) → ∀ er, (s.lun e.op.lun).er = some er →
      ∃ t, exec .operationEnd s = .next t ∧ t.regs = (s.inc Fld.stkAopCntEsusp (lunCh e.op.lun)).regs ∧
        (t.lun e.op.lun).er = some { er with suspAt := some s.now, count := er.count + 1, closed := false, nested := 0 } ∧
        t.md.ended = (if e.reported then a ++ b else a ++ { e with judged := true } :: b))

/-! ## The fabric and the register window (chapters 2, 0 and 19) -/

/-- R45, R46, R42, R81, R609, R610, R664, R679: what the engine answers DECERR, with no other effect: an atomic, a request on a reserved channel, one that
crosses a 4 KiB boundary, one to an offset that names no register, and one that start-up, the banked state, its requester or its form does not allow. A read or write
that the rights of its class do not allow is recorded too: of the debug access port in DBG_STS, of any other class in SEC_ACC. -/
def Obligations.InboundRefusals : Prop :=
  ∀ (s : State) (r : Req), s.coreOn = true →
    exec (.inboundAtomic r) s = .next (s.respond r .decerr []) ∧
    (5 ≤ r.vc → r.vc < 8 → exec (.inboundReservedVc r) s = .next (s.respond r .decerr [])) ∧
    (∀ addr len, 4096 < addr % 4096 + len →
      exec (.inboundBoundaryCross r false addr len) s = .next (s.respond r .decerr []) ∧
      exec (.inboundBoundaryCross r true addr len) s = .next (s.respondWrite r .decerr)) ∧
    (∀ ofs w ev, regAt ofs = none → inOwnView ofs = false →
      exec (.registerWrite r ofs w ev) s = .next (s.respondWrite r .decerr) ∧
      (inLogView ofs = false → exec (.readClearField r ofs 1 ev) s = .next (s.respond r .decerr (laneBytes 0 0)))) ∧
    (∀ ofs k i w ev, regAt ofs = some (k, i) → ownRow k w = false → rawBehind s r = false →
      (s.fwUp = false ∨ (s.banked = true ∧ k.block ≠ .sic ∧ k ≠ .trpSts ∧ k.block ≠ .dbg) ∨ 5 ≤ r.vc ∨ classOf r.src = none ∨ r.single = false) →
      exec (.registerWrite r ofs w ev) s = .next (s.respondWrite r .decerr)) ∧
    (∀ k i, regAt (k.offset i) = some (k, i) → r.vc < 5 → rawBehind s r = false → s.fwUp = true → s.banked = false → r.single = true → classOf r.src ≠ none →
      (accessAllowed s r.src k i false 0 = false → ∃ t, exec (.inboundReadRefused r (k.offset i)) s = .next t ∧
        t.resps = s.resps ++ [⟨r.port, r.vc, r.tag, .decerr, laneBytes 0 0⟩] ∧
        (r.src = 1 → t.flag Fld.dbgStsRefused = true ∧ OtherRegs s t .dbgSts 0) ∧
        (r.src ≠ 1 → t.flag Fld.secAccStsRefused = true ∧ t.get Fld.secAccStsLastId = r.src ∧
          t.get Fld.secAccStsCount = min 65535 (s.get Fld.secAccStsCount + 1) ∧ t.get Fld.secAccOfsOfs = k.offset i % 2 ^ 26 ∧
          ∀ k' i', k' ≠ .secAccSts → k' ≠ .secAccOfs → t.reg k' i' = s.reg k' i')) ∧
      (∀ w ev, accessAllowed s r.src k i true w = false → ∃ t, exec (.registerWrite r (k.offset i) w ev) s = .next t ∧
        t.resps = (s.respondWrite r .decerr).resps ∧ t = { s with regs := t.regs, resps := t.resps } ∧
        ∀ k' i', k' ≠ .secAccSts → k' ≠ .secAccOfs → k' ≠ .dbgSts → t.reg k' i' = s.reg k' i'))

/-- R48, R51, R44, R55, R56, R106: a credit returned lets the oldest request that waits for it go out; a response, or 2 ms without one, ends the request it
answers; what comes later is discarded and logged. Stated of descriptor writes, whose response only an error makes visible (Table 02-10); that unit's log code is log
entry 8. -/
def Obligations.OutboundRequests : Prop :=
  ∀ s : State, s.coreOn = true →
    (∀ port vc, port < 16 → vc < 5 →
      (s.fab.waiting = [] → ∃ t, exec (.creditReturn port vc false) s = .next t ∧ t = { s with fab := { s.fab with credReq := t.fab.credReq } } ∧
        Tab.get 0 (credKey port vc) t.fab.credReq = Tab.get 0 (credKey port vc) s.fab.credReq + 1 ∧
        ∀ k, k ≠ credKey port vc → Tab.get 0 k t.fab.credReq = Tab.get 0 k s.fab.credReq) ∧
      (s.fab.waiting = [] → ∃ t, exec (.creditReturn port vc true) s = .next t ∧ t = { s with fab := { s.fab with credDat := t.fab.credDat } } ∧
        Tab.get 0 (credKey port vc) t.fab.credDat = Tab.get 0 (credKey port vc) s.fab.credDat + 1) ∧
      (∀ q p, s.fab.waiting = [(q, p)] → q.port = port → q.vc = vc → q.kind ≠ .pw → dataBeats q ≤ Tab.get 0 (credKey port vc) s.fab.credDat →
        freeTag s.fab port < 4096 →
        ∃ t, exec (.creditReturn port vc false) s = .next t ∧ t.fab.waiting = [] ∧ t.fab.sent = s.fab.sent ++ [{ q with tag := freeTag s.fab port }] ∧
          t.fab.outst = s.fab.outst ++ [⟨{ q with tag := freeTag s.fab port }, freeTag s.fab port, s.now, p⟩] ∧
          Tab.get 0 (credKey port vc) t.fab.credReq = Tab.get 0 (credKey port vc) s.fab.credReq)) ∧
    (∀ port vc tag o, findOutst s.fab port vc tag = some o → o.purpose = .descWrite → o.req.kind = .sw → s.fab.held = [] →
      let gone := { s.fab with outst := s.fab.outst.erase o }
      exec (.outboundResponse port vc tag .ok []) s = .next { s with fab := gone, md := { s.md with dramOk := true } } ∧
      (∀ d, ∃ t, exec (.outboundResponse port vc tag .decerr d) s = .next t ∧ t.fab = gone ∧ t.log.length = min 2048 (s.log.length + 1) ∧
        (t.log.head?.map fun e => (e.unit, e.code)) = some (uMAP, Config.eventCode 689) ∧ OtherRegs s t .glbLogSeq 0) ∧
      (∀ d, ∃ t, exec (.outboundResponse port vc tag .reserved d) s = .next t ∧ t.fab = gone ∧ 2 ≤ t.log.length ∧
        (t.log[1]?.map fun e => (e.unit, e.code, e.obj)) = some (uMAP, 0x1003, packBytes [(1, o.req.port), (1, o.req.vc), (2, o.tag)])) ∧
      (o.since + 2000000 ≤ s.now → ∃ t, exec (.outboundTimeout port vc tag) s = .next t ∧
        t.fab = { gone with late := s.fab.late ++ [(port, vc, tag, uMAP)] } ∧
        (t.log[1]?.map fun e => (e.unit, e.code, e.obj)) = some (uMAP, 0x1002, packBytes [(1, port), (1, vc), (2, tag)]))) ∧
    (∀ port vc tag x, s.fab.late.find? (fun x => x.1 == port && x.2.1 == vc && x.2.2.1 == tag) = some x →
      ∃ t, exec (.lateResponse port vc tag) s = .next t ∧ t.fab = { s.fab with late := s.fab.late.erase x } ∧ OtherRegs s t .glbLogSeq 0 ∧
        (t.log.head?.map fun e => (e.unit, e.code, e.val)) = some (x.2.2.2, 0x1002, 0x8000000000000000#64))

/-- R4, R6, R7, R8, R681, R683, R416: a write gives each field what its access code says and a posted write has no response; a read answers, in its byte lanes,
the fields that may be read and clears the RC fields; what events of the same cycle set stands after either; a read of a low half latches the high half for its requester, whose next read of it answers that; and a read of MAP_WA_HOST latches
MAP_WA_MEDIA. Stated of registers that have no rule of their own. -/
def Obligations.RegisterAccesses : Prop :=
  ∀ (s : State) (r : Req),
    (∀ k i w ev, k ∈ [RegKind.cryCtl, .cryLadder, .calCtl, .drgLoopSp, .hrvMod, .secAccSts, .stkRawSts, .mapRaCfg] → regAt (k.offset i) = some (k, i) →
      Written s r k i w → Steady s →
      ∃ t, exec (.registerWrite r (k.offset i) w ev) s = .next t ∧ t = { s with regs := t.regs, resps := okSent s r } ∧ OtherRegs s t k i ∧
        ∀ f ∈ k.fields, t.get f i = (match f.acc with
          | .rw => f.get w
          | .w1c => (if f.get w = 1 then 0 else s.get f i) ||| f.get ev
          | .w1s => (if f.get w = 1 then 1 else s.get f i) ||| f.get ev
          | _ => s.get f i)) ∧
    (∀ k i ev, k ∈ [RegKind.cryCtl, .secAccSts, .drgSnsErr, .mapC0Cnt, .pwrErrCnt, .stkAopCnt] → regAt (k.offset i) = some (k, i) → ReadOk s r k i →
      ∃ t, exec (.readClearField r (k.offset i) 1 ev) s = .next t ∧
        t.resps = s.resps ++ [⟨r.port, r.vc, r.tag, .ok, laneBytes (k.offset i) (s.reg k i &&& k.readMask)⟩] ∧
        OtherRegs s t k i ∧ ∀ f ∈ k.fields, t.get f i = if f.acc = .rc then f.get ev else s.get f i) ∧
    (∀ lo p hi, loPair lo = some (p, hi) → ReadOk s r lo 0 →
      ∃ t, exec (.loHalfReadLatch r (lo.offset 0)) s = .next t ∧ t.regs = s.regs ∧
        t.resps = s.resps ++ [⟨r.port, r.vc, r.tag, .ok, laneBytes (lo.offset 0) (liveWord s lo 0 &&& lo.readMask)⟩] ∧
        ∀ (u : State) (r' : Req), u.hiLatch = t.hiLatch → r'.src = r.src → ReadOk u r' hi 0 →
          ∀ ev, ∃ v, exec (.readClearField r' (hi.offset 0) 1 ev) u = .next v ∧ (∀ k i, v.reg k i = u.reg k i) ∧
            v.resps = u.resps ++ [⟨r'.port, r'.vc, r'.tag, .ok, laneBytes (hi.offset 0) (liveWord s hi 0)⟩]) ∧
    (ReadOk s r .mapWaHost 0 →
      ∃ t, exec (.waHostRead r) s = .next t ∧ t.waLatch = some (s.reg .mapWaMedia) ∧ t.regs = s.regs ∧
        t.resps = s.resps ++ [⟨r.port, r.vc, r.tag, .ok,
          laneBytes (RegKind.mapWaHost.offset 0) (s.reg .mapWaHost &&& RegKind.mapWaHost.readMask)⟩])

/-! ## Security and debug (chapter 17) -/

/-- R619, R620, Table 17-6: a key command whose first cause of failure is not OK ends with that RESULT and leaves the slots and the hearthstone row; otherwise
it does what its row says. The input buffer is zero afterwards, but after GEN_NS, WRAP_NS and WRAP_PAIR it holds the blob. The key wrap is uninterpreted (log entry
6). -/
def Obligations.KeyCommands : Prop :=
  ∀ (s : State) (r : Req) (w : Word) (rnd : BitVec 512) (stuck : BitVec 384) (i : Instr), Written s r .secKcmd 0 w → Steady s →
    Fld.secKcmdGo.get w = 1 → halvesEqual rnd = false →
    let op := Fld.secKcmdOp.get w
    let slot := Fld.secKcmdSlot.get w
    let kbuf (t : State) (bs : List Byte) := ∀ j, j < 32 → t.reg .secKbuf j = ofBytes 32 ((bs.drop (4 * j)).take 4)
    let h : BitVec 384 := ofBytes 384 (kbufBytes s 48)
    let burnt (f : BitVec 384) (bad : Bool) (was : Bool) (t : State) := f = h &&& ~~~stuck ∧ bad = (was || h &&& stuck != 0) ∧
      t.get Fld.secKstsResult = if h &&& stuck = 0 then krOk else krOtpFail
    [Instr.unwrapNs r w, .genNs r w rnd, .kzero r w, .wrapNs r w, .wrapPair r w, .progRoot r w stuck, .progDbg r w stuck][op - 1]? = some i → 1 ≤ op →
    ∃ t, exec i s = .next t ∧ t = { s with regs := t.regs, resps := okSent s r, sec := t.sec } ∧
      (∀ k j, k ≠ .secKcmd → k ≠ .secKsts → k ≠ .secKbuf → t.reg k j = s.reg k j) ∧ (op ≠ 2 → op ≠ 4 → op ≠ 5 → kbuf t []) ∧
      (keyRefusal s op slot ≠ krOk → t.get Fld.secKstsResult = keyRefusal s op slot ∧ t.sec = s.sec) ∧
      (keyRefusal s op slot = krOk →
        (op = 1 → t.sec = { s.sec with slots := t.sec.slots } ∧ (match Config.kwUnwrap s.sec.kek1 (kbufBytes s 72) with
          | none => t.sec.slots = s.sec.slots ∧ t.get Fld.secKstsResult = krUnwrapFail
          | some k => if halvesEqual (ofBytes 512 k) then t.sec.slots = s.sec.slots ∧ t.get Fld.secKstsResult = krKeyEq
            else t.sec.slots = Tab.put slot (ofBytes 512 k) s.sec.slots ∧ t.get Fld.secKstsResult = krOk)) ∧
        (op = 2 → t.sec = { s.sec with slots := Tab.put slot rnd s.sec.slots } ∧ t.get Fld.secKstsResult = krOk ∧
          kbuf t (Config.kwWrap s.sec.kek1 (bytesOf rnd 64))) ∧
        (op = 3 → t.sec = { s.sec with slots := Tab.del slot s.sec.slots } ∧ t.get Fld.secKstsResult = krOk) ∧
        (op = 4 → t.sec = s.sec ∧ if halvesEqual (ofBytes 512 (kbufBytes s 64)) then t.get Fld.secKstsResult = krKeyEq
          else t.get Fld.secKstsResult = krOk ∧ kbuf t (Config.kwWrap s.sec.kek1 (kbufBytes s 64))) ∧
        (op = 5 → t.sec = s.sec ∧ t.get Fld.secKstsResult = krOk ∧ kbuf t (Config.kwWrap s.sec.kek2 (kbufBytes s 32))) ∧
        (op = 6 → t.sec.slots = s.sec.slots ∧ burnt t.sec.row.rootHash t.sec.rootBad s.sec.rootBad t) ∧
        (op = 7 → t.sec.slots = s.sec.slots ∧ burnt t.sec.row.dbgHash t.sec.dbgBad s.sec.dbgBad t))

/-- R622, R624, R604, R635, R625, R626, R603: a namespace becomes valid only past every check of R622 and is frozen while it is valid or busy; the firebox code
view reads zero and takes no write; only the firebox core sets the tamper latch; and a failed self-test, random bit generator or lockstep banks the engine. -/
def Obligations.NamespacesAndTests : Prop :=
  (∀ (s : State) (r : Req) (n : Nat) (w : Word), n < 1024 → Written s r .secNsCtl n w → Steady s →
    let key := Fld.secNsCtlKeyidx.get w
    let used := s.flag Fld.secNsCtlValid n = true ∨ nsBusy s n = true
    ∃ t, exec (.nsCtlWrite r n w) s = .next t ∧ t.resps = okSent s r ∧
      (∀ k j, (k, j) ≠ (.secNsCtl, n) → k ≠ .secSts → t.reg k j = s.reg k j) ∧
      (¬used → t.get Fld.secNsCtlKeyidx n = key ∧ (Fld.secNsCtlValid.get w = 1 →
        (nsChecks s n key = true → t.flag Fld.secNsCtlValid n = true ∧ t.reg .secSts = s.reg .secSts ∧ t.wp = s.wp) ∧
        (nsChecks s n key = false → t.flag Fld.secNsCtlValid n = false ∧ t.flag Fld.secStsNsErr = true ∧ t.wp = s.wp))) ∧
      (used → t.get Fld.secNsCtlKeyidx n = s.get Fld.secNsCtlKeyidx n ∧ (key ≠ s.get Fld.secNsCtlKeyidx n → t.flag Fld.secStsNsErr = true)) ∧
      (Fld.secNsCtlValid.get w = 0 → t.flag Fld.secNsCtlValid n = false)) ∧
  (∀ (s : State) (r : Req), viewGate s r = .pass →
    (∀ ofs beats, viewReadOk ofs beats = true → ∃ t, exec (.fireboxCodeViewRead r ofs beats) s = .next t ∧ t.flag Fld.secStsXoRd = true ∧
      t.resps = s.resps ++ [⟨r.port, r.vc, r.tag, .ok, List.replicate (64 * beats) 0⟩] ∧ OtherRegs s t .secSts 0 ∧ t.sec = s.sec) ∧
    (∃ t, exec (.fireboxCodeViewWrite r) s = .next t ∧ t.flag Fld.secStsXoWr = true ∧ t.resps = (s.respondWrite r .decerr).resps ∧
      OtherRegs s t .secSts 0 ∧ t.sec = s.sec)) ∧
  (∀ (s : State) (r : Req) (w : Word), Written s r .secSts 0 w → Steady s → Fld.secStsTamper.get w = 1 → r.src = 0x10 →
    ∃ t, exec (.tamperSet r w) s = .next t ∧ tampered t = true ∧ t.resps = okSent s r ∧ OtherRegs s t .secSts 0) ∧
  (∀ (s : State) (r : Req) (w : Word) (ok : Bool), Written s r .secStCtl 0 w → Steady s → Fld.secStCtlRun.get w = 1 →
    ∃ t, exec (.selftestRunWrite r w ok) s = .next t ∧ t.get Fld.secStCtlRuns = min 65535 (s.get Fld.secStCtlRuns + 1) ∧ t.resps = okSent s r ∧
      (ok = true → t.banked = s.banked) ∧ (ok = false → t.banked = true)) ∧
  (∀ s : State, s.coreOn = true → s.banked = false →
    (∀ ok, s.get Fld.secStCfgHours ≠ 0 → s.sec.lastTest + s.get Fld.secStCfgHours * 3600000000000 ≤ s.now →
      ∃ t, exec (.periodicSelftest ok) s = .next t ∧ t.sec.lastTest = s.now ∧ t.get Fld.secStCtlRuns = min 65535 (s.get Fld.secStCtlRuns + 1) ∧
        t.banked = !ok ∧ (ok = false → t.get Fld.glbBankStsCause = 7)) ∧
    (∀ l, entropyFails l = true → ∃ t, exec (.rbgHealthFail l) s = .next t ∧ t.flag Fld.secStsRbgOk = false ∧ t.banked = true ∧
      t.get Fld.glbBankStsCause = 8 ∧ t.stage = 15) ∧
    (s.sec.fbxRun = true → ∃ t, exec .lockstepMismatch s = .next t ∧ t.banked = true ∧ t.get Fld.glbBankStsCause = 2 ∧ t.stage = 15))

/-- R633, R634, R635, R636, Table 17-13: a challenge is drawn, expires, and is used up by one VERIFY; a VERIFY that passes every check gives AUTH with its scope, and the fourth failure
in a row sets the tamper latch; CLOSE ends AUTH and not OPEN; OPEN, in MANUFACTURE with the latch clear, halts the firebox core and zeroizes the keys; and the
firebox core halts and steps. Hashes and signatures are uninterpreted (log entry 6), and so are the firebox core's instructions (log entry 7). -/
def Obligations.DebugLevels : Prop :=
  (∀ (s : State) (r : Req) (w : Word) (rnd : BitVec 384), Written s r .dbgCtl 0 w → Steady s →
    let only (f : Fld) := f.get w = 1 ∧ ∀ g ∈ [Fld.dbgCtlNewchal, Fld.dbgCtlVerify, Fld.dbgCtlClose, Fld.dbgCtlOpen], g ≠ f → g.get w = 0
    (only Fld.dbgCtlNewchal → ∃ t, exec (.dbgNewchal r w rnd) s = .next t ∧ t.resps = okSent s r ∧ t.sec = { s.sec with chal := some ⟨rnd, s.now + 10000000000⟩ } ∧
      t.flag Fld.dbgStsChal = true ∧ (∀ j, j < 12 → t.reg .dbgChal j = (rnd >>> (32 * j)).setWidth 32) ∧
      ∀ k j, k ≠ .dbgSts → k ≠ .dbgChal → t.reg k j = s.reg k j) ∧
    (only Fld.dbgCtlVerify → ∃ t, exec (.dbgVerify r w rnd) s = .next t ∧ t.resps = okSent s r ∧ t.sec = { s.sec with chal := none } ∧
      t.flag Fld.dbgStsChal = false ∧ t.get Fld.dbgStsResult = verifyResult s ∧
      (s.sec.chal = none → verifyResult s = 2) ∧
      (verifyResult s = 1 → debugLevel t = 1 ∧ t.get Fld.dbgStsScope = (s.reg .dbgResp 50).toNat % 65536 ∧ t.get Fld.dbgStsFails = 0) ∧
      (verifyResult s ≠ 1 → debugLevel t = debugLevel s ∧ t.get Fld.dbgStsFails = min 15 (s.get Fld.dbgStsFails + 1) ∧
        tampered t = (tampered s || decide (3 ≤ s.get Fld.dbgStsFails)))) ∧
    (only Fld.dbgCtlClose → ∃ t, exec (.dbgClose r w rnd) s = .next t ∧ t.resps = okSent s r ∧ OtherRegs s t .dbgSts 0 ∧ t.sec = s.sec ∧
      debugLevel t = (if debugLevel s = 1 then 0 else debugLevel s)) ∧
    (only Fld.dbgCtlOpen → ∃ t, exec (.dbgOpen r w rnd) s = .next t ∧ t.resps = okSent s r ∧
      (lifecycle s = lcManufacture ∧ tampered s = false → debugLevel t = 2 ∧ t.sec.fbxHalted = true ∧ t.flag Fld.dbgFbxCtlHalted = true ∧
        t.sec.slots = [] ∧ t.sec.kek1 = 0 ∧ t.sec.kek2 = 0 ∧ t.sec.pairKey = 0 ∧ t.sec.placement = 0 ∧ t.sec.chal = none ∧ t.sec.row = s.sec.row ∧
        t.sec.fbxCode = s.sec.fbxCode) ∧
      (lifecycle s ≠ lcManufacture ∨ tampered s = true → t = { s with resps := okSent s r }))) ∧
  (∀ (s : State) (c : Challenge), s.coreOn = true → s.sec.chal = some c → c.until_ ≤ s.now →
    ∃ t, exec .challengeExpiry s = .next t ∧ t.sec = { s.sec with chal := none } ∧ t.flag Fld.dbgStsChal = false ∧ OtherRegs s t .dbgSts 0) ∧
  (∀ (s : State) (r : Req) (w : Word) (pc : BitVec 19), Written s r .dbgFbxCtl 0 w → Steady s →
    (Fld.dbgFbxCtlHalt.get w = 1 → s.sec.fbxHalted = false → ∃ t, exec (.dbgFbxHalt r w pc) s = .next t ∧ t.resps = okSent s r ∧
      t.sec = { s.sec with fbxHalted := true, fbxPc := pc } ∧ t.get Fld.dbgFbxCtlPc = pc.toNat ∧ OtherRegs s t .dbgFbxCtl 0) ∧
    (Fld.dbgFbxCtlHalt.get w = 0 → ∃ t, exec (.dbgFbxHalt r w pc) s = .next t ∧ t.sec.fbxHalted = false ∧ t.flag Fld.dbgFbxCtlHalted = false) ∧
    (Fld.dbgFbxCtlHalt.get w = 1 → Fld.dbgFbxCtlStep.get w = 1 → s.sec.fbxHalted = true → ∃ t, exec (.dbgFbxStep r w pc) s = .next t ∧
      t.sec = { s.sec with fbxPc := pc } ∧ t.get Fld.dbgFbxCtlPc = pc.toNat ∧ OtherRegs s t .dbgFbxCtl 0))

/-- R628, R629, R637, R638, R614: SEC_ZERO with its confirmation zeroizes every key and banks the engine, and without it does nothing; SEC_LC_CTL burns the marks of a permitted target, and
ends data service toward RMA and DECOMMISSIONED; any other write of it is refused; a sanitize starts with its confirmation, halts every class, and runs through its
phases. -/
def Obligations.ErasureAndLifecycle : Prop :=
  (∀ (s : State) (r : Req) (w : Word), Written s r .secZero 0 w → Steady s →
    (Fld.secZeroGo.get w = 1 → Fld.secZeroConfirm.get w = 0x5A45 → s.banked = false → ∃ t, exec (.zeroize r w) s = .next t ∧ t.resps = okSent s r ∧
      t.sec = { s.sec with slots := [], kek1 := 0, kek2 := 0, pairKey := 0, mirrorOn := false, placement := 0, rbgSeeded := false, chal := none,
                           fbxData := s.sec.fbxData.map fun _ => 0 } ∧
      (∀ j, j < 12 → t.reg .dbgChal j = 0) ∧ t.banked = true ∧ t.get Fld.glbBankStsCause = 9 ∧ t.stage = 15) ∧
    (¬(Fld.secZeroGo.get w = 1 ∧ Fld.secZeroConfirm.get w = 0x5A45) → exec (.zeroize r w) s = .next { s with resps := okSent s r })) ∧
  (∀ (s : State) (r : Req) (w : Word), Written s r .secLcCtl 0 w → Steady s →
    let tgt := Fld.secLcCtlTarget.get w
    let good := Fld.secLcCtlGo.get w = 1 ∧ Fld.secLcCtlConfirm.get w = 0x4C43 ∧ lcAllowed (lifecycle s) tgt = true
    ∃ t, exec (.lifecycleTransition r w) s = .next t ∧ t.resps = okSent s r ∧ lifecycle t = lifecycle s ∧
      (good → t.flag Fld.secStsLcPend = true ∧ t.get Fld.secStsLcNext = tgt ∧ t.sec.row = burnMarks tgt s.sec.row ∧
        (tgt = lcSecured → t.sec.slots = s.sec.slots ∧ t.sec.dataEnded = s.sec.dataEnded) ∧
        (tgt ≠ lcSecured → t.sec.slots = [] ∧ t.sec.kek1 = 0 ∧ t.sec.kek2 = 0 ∧ t.sec.pairKey = 0 ∧ t.sec.dataEnded = true ∧ t.banked = s.banked)) ∧
      (¬good → t.sec = s.sec ∧ t.flag Fld.secAccStsRefused = true ∧ ∀ k j, k ≠ .secAccSts → k ≠ .secAccOfs → t.reg k j = s.reg k j)) ∧
  (∀ (s : State) (r : Req) (w : Word), Written s r .secSanCtl 0 w → Steady s → s.flag Fld.secSanStsActive = false → Fld.secSanCtlGo.get w = 1 →
    Fld.secSanCtlConfirm.get w = 0x5A4E →
    ∃ t, exec (.sanitizeStart r w) s = .next t ∧ t.resps = okSent s r ∧ t.flag Fld.secSanStsActive = true ∧ t.get Fld.secSanStsPhase = 0 ∧
      t.get Fld.slqHaltHalt = 15 ∧ t.get Fld.secSanCtlCrypto = Fld.secSanCtlCrypto.get w ∧ t.get Fld.secSanCtlBlock = Fld.secSanCtlBlock.get w) ∧
  (∀ (s : State) (b : Bool), s.coreOn = true → s.banked = false → s.flag Fld.secSanStsActive = true → s.stage = 9 →
    (s.get Fld.secSanStsPhase = 0 → s.reqs = [] → s.mov.jobs = [] → (∀ e ∈ s.mov.ctxs, e.2.job.path = .firmware) → s.wp.own = [] → s.flag Fld.secSanCtlCrypto = true →
      s.flag Fld.secSanStsExhausted = false → ∃ t, exec (.sanitizePhaseEnd b) s = .next t ∧ t.get Fld.secSanStsPhase = 1 ∧ ∀ n, t.flag Fld.secNsCtlValid n = false) ∧
    (s.get Fld.secSanStsPhase = 2 → s.sec.sanCkpt ≤ s.md.ckptNo → s.md.ckpt = none → s.flag Fld.secSanCtlBlock = false →
      ∃ t, exec (.sanitizePhaseEnd b) s = .next t ∧ t.flag Fld.secSanStsActive = false ∧ t.flag Fld.secSanStsDone = true ∧ OtherRegs s t .secSanSts 0) ∧
    (s.get Fld.secSanStsPhase = 3 → sanUnits s = [] → (∀ e ∈ s.md.luns, erasePending s e.1 = false) →
      ∃ t, exec (.sanitizePhaseEnd b) s = .next t ∧ t.flag Fld.secSanStsActive = false ∧ t.flag Fld.secSanStsDone = true ∧ OtherRegs s t .secSanSts 0))

/-! ## Harvest rings and sluices (chapter 11) -/

/-- R422, R442, R45, R451, R452, R453, R457, R469: an owed entry goes out as a posted write of its bytes after the first and a sealed write of the first, and the
ring's position and owned count move; a look-ahead reads from the end of the counted units, and its answer counts those handed back; the moderation
timer, and what a doorbell, a RETRY and a write of HRV_MOD do. -/
def Obligations.HarvestRings : Prop :=
  ∀ (s : State) (g : Nat), s.coreOn = true →
    (∀ e rest units, s.flag Fld.hrvStsValid g = true → s.flag Fld.hrvStsError g = false → (s.ring g).queue = e :: rest → e.bytes.length = 32 * units → 1 ≤ units →
      s.get Fld.hrvStsTail g + units ≤ ringUnits s g →
      let e' := { stampEntry s e with unit := s.get Fld.hrvStsTail g, cnt := max 1 (s.get Fld.hrvModCnt g), due := s.now + s.get Fld.hrvModTime g * 1000 }
      ∃ t, exec (.harvestWrite g) s = .next t ∧ (t.ring g).queue = rest ∧ (t.ring g).inflight = (s.ring g).inflight ++ [e'] ∧
        (t.ring g).owned = (s.ring g).owned - units ∧ (t.ring g).reserved = (s.ring g).reserved - e.release ∧
        t.get Fld.hrvStsTail g = (if s.get Fld.hrvStsTail g + units = ringUnits s g then 0 else (s.get Fld.hrvStsTail g + units) % 65536) ∧
        (∀ k i, (k, i) ≠ (RegKind.hrvSts, g) → k ≠ .slqSts → t.reg k i = s.reg k i) ∧
        t.fab = fabIssueAll s.now s.fab
          (writeReqs (s.get Fld.hrvCfgPort g) (s.get Fld.hrvCfgClass g) .pw (ringAddr s g (s.get Fld.hrvStsTail g) + 1) (e'.bytes.drop 1) (.harvestBody g)
            ++ writeReqs (s.get Fld.hrvCfgPort g) (s.get Fld.hrvCfgClass g) .sw (ringAddr s g (s.get Fld.hrvStsTail g)) (e'.bytes.take 1) (.harvestByte g)) ∧
        (e.last = true → Tab.find e.rtag t.reqs = none) ∧ (e.last = false → t.reqs = s.reqs)) ∧
    (∀ at_, (s.ring g).due = some at_ → s.flag Fld.hrvStsTimer g = true → at_ ≤ s.now →
      ∃ t, exec (.moderationTimer g) s = .next t ∧ sourcePending t (.shared (s.get Fld.hrvCfgSrc g)) = true ∧ t.get Fld.hrvStsPending g = 0 ∧
        t.flag Fld.hrvStsTimer g = false ∧ (t.ring g).due = ((s.ring g).inflight.find? fun e => !e.nop).map (·.due) ∧ (t.ring g).queue = (s.ring g).queue) ∧
    (s.banked = false → s.flag Fld.hrvStsValid g = true → (s.ring g).looking = false →
      (s.ring g).low = true ∨ (s.flag Fld.hrvStsWaiting g = true ∧ (s.ring g).lookedAt + 2000 ≤ s.now) →
      ∃ t, exec (.harvestLookahead g) s = .next t ∧ (t.ring g).looking = true ∧ (t.ring g).low = false ∧ (t.ring g).lookedAt = s.now ∧
        (t.ring g).owned = (s.ring g).owned ∧ t.regs = s.regs ∧ t.fab = fabIssue s.now s.fab (lookAhead g s) (.lookahead g)) ∧
    (∀ port vc tag o, findOutst s.fab port vc tag = some o → o.purpose = .lookahead g → o.req.addr = ringAddr s g (countEnd s g) → o.req.kind = .rd →
      (s.ring g).again = false → s.fab.held = [] →
      (∀ data, data.length = o.req.len → ∃ t, exec (.outboundResponse port vc tag .ok data) s = .next t ∧ (t.ring g).looking = false ∧
        (t.ring g).owned = min (ringUnits s g) ((s.ring g).owned + (((unitMarks (data.length / 32) data).take 16).takeWhile (· == 0x80)).length)) ∧
      (∀ data, ∃ t, exec (.outboundResponse port vc tag .decerr data) s = .next t ∧ (t.ring g).looking = false ∧ (t.ring g).owned = (s.ring g).owned ∧
        t.log.length = min 2048 (s.log.length + 1))) ∧
    (∀ (r : Req) (w : Word), g < 4096 → Steady s →
      (Written s r .hrvDb g w → s.flag Fld.hrvStsValid g = true → ∃ t, exec (.hrvDoorbell r g w) s = .next t ∧ t.resps = okSent s r ∧
        (s.pwr.st = .p1 → t.pwr.st = .p0) ∧ (t.ring g).owned = (s.ring g).owned ∧ (t.ring g).looking = true ∧
        ((s.ring g).looking = false → t.fab = fabIssue s.now s.fab (lookAhead g s) (.lookahead g)) ∧
        ((s.ring g).looking = true → (t.ring g).again = true ∧ t.fab = s.fab)) ∧
      (Written s r .hrvCtl g w → Fld.hrvCtlRetry.get w = 1 → s.flag Fld.hrvCtlRetry g = false → (s.ring g).failed ≠ [] →
        ∃ t, exec (.hrvRetry r g w) s = .next t ∧ t.flag Fld.hrvCtlRetry g = true ∧ t.resps = okSent s r ∧
          t.fab = fabIssueAll s.now s.fab ((s.ring g).failed.flatMap fun e =>
            writeReqs (s.get Fld.hrvCfgPort g) (s.get Fld.hrvCfgClass g) .sw (ringAddr s g e.unit) (e.bytes.take 1) (.harvestByte g))) ∧
      (∀ cmd, Written s r .hrvMod g w → ∃ t, exec (.hrvModWrite r g w cmd) s = .next t ∧ OtherRegs s t .hrvMod g ∧ t.resps = okSent s r ∧
        t.get Fld.hrvModCnt g = (if cmd then s.get Fld.hrvModCnt g else Fld.hrvModCnt.get w) ∧
        t.get Fld.hrvModTime g = (if cmd then s.get Fld.hrvModTime g else Fld.hrvModTime.get w)))

/-- R433, R437, R454, R455, R465: a doorbell of an enabled sluice starts its scan, or is kept while one runs, and any other is stray; an enable clears the error, a disable
stops the scan; HEAD is written only while the sluice is idle; and SLQ_HALT takes its bits. R432, R434, R438, R430: a sluice granted the fetch slot reads from HEAD; a read whose
first unit is not handed over stops the scan, and a malformed entry puts the sluice in ERROR and owes an entry. -/
def Obligations.SluiceControls : Prop :=
  (∀ (s : State) (r : Req) (n : Nat) (w : Word), n < 4096 → Steady s →
    let live := s.flag Fld.slqCfgValid n = true ∧ s.flag Fld.slqCtlEn n = true ∧ s.flag Fld.slqStsError n = false
    (Written s r .slqDb n w → ∃ t, exec (.sluiceDoorbell r n w) s = .next t ∧ t.resps = okSent s r ∧ (s.pwr.st = .p1 → t.pwr.st = .p0) ∧
      (¬live → t.slq = s.slq ∧ OtherRegs s t .slqGsts 0 ∧ t.get Fld.slqGstsStray = min 65535 (s.get Fld.slqGstsStray + 1)) ∧
      (live → (s.flag Fld.slqCfgStrict n = true → (t.sluice n).limit = Fld.slqDbLimit.get w) ∧ t.flag Fld.slqStsScan n = true ∧ OtherRegs s t .slqSts n ∧
        (s.flag Fld.slqStsScan n = false → (t.sluice n).base = s.now ∧ t.flag Fld.slqStsDbPend n = s.flag Fld.slqStsDbPend n) ∧
        (s.flag Fld.slqStsScan n = true → (t.sluice n).base = (s.sluice n).base ∧ t.flag Fld.slqStsDbPend n = true))) ∧
    (Written s r .slqCtl n w → s.flag Fld.slqCfgValid n = true →
      (Fld.slqCtlEn.get w = 1 → ∃ t, exec (.sluiceEnable r n w) s = .next t ∧ t.flag Fld.slqCtlEn n = true ∧ t.flag Fld.slqStsError n = false ∧
        t.flag Fld.slqStsDbPend n = false ∧ t = { s with regs := t.regs, resps := okSent s r }) ∧
      (Fld.slqCtlEn.get w = 0 → ∃ t, exec (.sluiceDisable r n w) s = .next t ∧ t.flag Fld.slqCtlEn n = false ∧ t.flag Fld.slqStsWaitHrv n = false ∧
        ((s.sluice n).fetch = none → t.flag Fld.slqStsScan n = false) ∧ t = { s with regs := t.regs, resps := okSent s r })) ∧
    (Written s r .slqHead n w → ∃ t, exec (.slqHeadWrite r n w) s = .next t ∧ t = { s with regs := t.regs, resps := okSent s r } ∧ OtherRegs s t .slqHead n ∧
      t.get Fld.slqHeadHead n = if slqIdle s n then Fld.slqHeadHead.get w else s.get Fld.slqHeadHead n) ∧
    (Written s r .slqHalt 0 w → ∃ t, exec (.slqHaltWrite r w) s = .next t ∧ t.get Fld.slqHaltHalt = Fld.slqHaltHalt.get w ∧ OtherRegs s t .slqHalt 0 ∧
      t.resps = okSent s r)) ∧
  (∀ (s : State) (i : Nat), s.running = true → 8 ≤ s.stage → flueWants s = false → rotFirst (Tab.get 0 0 s.fetchPtr) (scanning s 0) = some i →
    s.flag Fld.slqCfgStrict i = false →
    let h := s.get Fld.slqHeadHead i
    ∃ t, exec .fetchGrant s = .next t ∧ (t.sluice i).fetch = some (h, fetchLen s i h) ∧ Tab.get 0 0 t.fetchPtr = i + 1 ∧
      t.regs = (applyModify i s).regs ∧ t.fab = fabIssue s.now s.fab (mkReq (slqPort s i) 0 .rd (slqAddr s i h) (fetchLen s i h) []) (.fetch i)) ∧
  (∀ (s : State) (n : Nat) (o : Outst) (t0 : State) (f : Nat × Nat) (data : List Byte), takeOutst (.fetch n) s = some (o, t0) → s.coreOn = true → s.banked = false →
    (s.sluice n).fetch = some f → (s.sluice n).part = [] → s.flag Fld.slqCtlEn n = true → (s.get Fld.slqHaltHalt).testBit (slqClass s n) = false →
    s.flag Fld.slqCfgStrict n = false → 32 ≤ data.length →
    let e := readEntry data
    let h := s.get Fld.slqHeadHead n
    (e.own = false → s.flag Fld.slqStsDbPend n = false → ∃ t, exec (.fetchReadDone n .ok data) s = .next t ∧ t.flag Fld.slqStsScan n = false ∧
      OtherRegs s t .slqSts n ∧ (t.sluice n).fetch = none ∧ t.reqs = s.reqs ∧ t.fab = t0.fab) ∧
    (∀ code, e.own = true → takeLimit s n 0 = false → hasRoom s (slqRing s n) (entryUnits s n e) = true → malformed s n h e = some code →
      (slqUnits s n < h + e.len + 1 ∨ 32 * (e.len + 1) ≤ data.length) →
      ∃ t x, exec (.fetchReadDone n .ok data) s = .next t ∧ t.flag Fld.slqStsError n = true ∧ t.get Fld.slqStsErrCode n = code ∧
        t.flag Fld.slqStsScan n = false ∧ (t.ring (slqRing s n)).queue = (s.ring (slqRing s n)).queue ++ [x] ∧ x.status = 0x20 ∧ x.sluice = n ∧
        t.reqs = s.reqs ∧ (s.get Fld.slqCfgOwner n = 2 → t.banked = true)))

/-- R424, R428, R342, R326, R328, R380, R511, R275: the row of a taken entry starts it: a NOP owes its entry at once; the tiles of a READ or FILTER are looked up from then on;
a WRITE queues the commit of each tile, and one without slots ends PAN_FULL; a FLUSH with nothing to wait for ends; an UNMAP sets the map entry of a tile with no staged copy to 0;
a MARGIN reads each codeword twice; and an entry with no namespace at hand ends NS_UNAVAIL. -/
def Obligations.SluiceOperations : Prop :=
  ∀ (s : State) (rtag : Nat) (q : Request),
    (Taken s rtag 0 q → ∃ t, exec (.sluiceNop rtag) s = .next t ∧ Owes s t q 0 true ∧ t.regs = s.regs) ∧
    (Taken s rtag 1 q → q.nsOk = true → exec (.sluiceRead rtag) s = .next (s.setRq { q with started := true })) ∧
    (Taken s rtag 5 q → q.nsOk = true → exec (.sluiceFilter rtag) s = .next (s.setRq { q with started := true })) ∧
    (∀ opc i, (opc, i) ∈ [(1, Instr.sluiceRead rtag), (2, .sluiceWrite rtag), (5, .sluiceFilter rtag)] → Taken s rtag opc q → q.nsOk = false →
      ∃ t, exec i s = .next t ∧ Owes s t q 0x12 true ∧ t.md = s.md ∧ t.mov = s.mov) ∧
    (Taken s rtag 2 q → q.nsOk = true →
      (q.status = some 0x10 → ∃ t, exec (.sluiceWrite rtag) s = .next t ∧ Owes s t q 0x10 true ∧ t.mov = s.mov) ∧
      (∀ x k, q.status = none → q.tiles = [x] → x.slot = some k →
        ∃ t j l, exec (.sluiceWrite rtag) s = .next t ∧ t.mov.jobs = s.mov.jobs ++ j :: l ∧ j.path = .commitOwn rtag 0 k ∧ j.tries = 0 ∧
          l.length = (if mirroring s then 1 else 0) ∧ t.rq rtag = some { q with started := true })) ∧
    (Taken s rtag 3 q → q.firstOut = false → q.owesTwin = false → q.waitFor = [] → ∃ t, exec (.sluiceFlush rtag) s = .next t ∧ Owes s t q 0 true ∧ t.wp = s.wp) ∧
    (Taken s rtag 4 q → q.firstOut = false → q.nsOk = true → s.wp.pfail = false → s.wp.own = [] → ∀ x l, q.tiles = [x] → x.looked = false →
      cacheHas s (x.lta / 8) = some l → cacheFlushing s = false → x.lta % 8 < l.ents.length →
      ∃ t l', exec (.sluiceUnmap rtag) s = .next t ∧ Tab.find (x.lta / 8) t.md.cache = some l' ∧ l'.ents = l.ents.set (x.lta % 8) 0 ∧ l'.dirty = true ∧
        (t.dirOf (x.lta / 512)).dirty = true) ∧
    (Taken s rtag 6 q → q.firstOut = false → ∀ k, k < 8 → q.opx.testBit k = true → ∃ t, exec (.sluiceMargin rtag) s = .next t ∧ t.regs = s.regs ∧
      (t.rq rtag).map (·.margin) = some ((List.range 16).map fun j => if q.opx.testBit (j / 2) then 0x100 else 0) ∧
      ∀ plus, ∃ v ∈ (t.lun (entPage s q.buf).lun).queue, v.why = .margin rtag k plus ∧ v.kind = 0 ∧ v.cw = k ∧ v.page = entPage s q.buf ∧
        v.offs = shiftOffs (readOffs s v.page) (if plus then max 1 (s.get Fld.cryWarnMstep) else -max 1 (s.get Fld.cryWarnMstep)))

/-! ## The flue (chapter 11) -/

/-- R459, R462, R463, R45: a doorbell of an enabled channel asks for its next command; the lowest channel that asks reads the first byte of its completion unit,
reads the command once that unit is handed over, and takes one that is handed over itself; a malformed one completes MALFORMED, which banks the
engine on F0. R460, R461, R456: a SLQ_CREATE and an HRV_CREATE make an object of the channel that asks, a destroy takes back one that is idle, and
SET_HALT sets SLQ_HALT; each command refused has no effect but its completion. -/
def Obligations.FlueCommands : Prop :=
  (∀ (s : State) (r : Req) (f : Nat) (w : Word), f < 4 → Written s r .slqFdb f w → Steady s → s.flag Fld.slqFstsEn f = true →
    ∃ t, exec (.flueDoorbell r f w) s = .next t ∧ t.flueOf f = { s.flueOf f with bell := true, again := (s.flueOf f).fetch.isSome } ∧ t.regs = s.regs ∧
      t.resps = okSent s r) ∧
  (∀ (s : State) (f : Nat), s.running = true → f < 4 → flueAsks s f = true → (∀ g, g < f → flueAsks s g = false) →
    ∃ t, exec (.flueFetch f) s = .next t ∧ t.flueOf f = { s.flueOf f with fetch := some (1, [], true), again := false } ∧ t.regs = s.regs ∧
      t.fab = fabIssue s.now s.fab (mkReq (s.flueOf f).port 4 .rd (flueRspAddr (s.flueOf f) (s.flueOf f).tail) 1 []) (.flueOwn f)) ∧
  (∀ (s : State) (f port vc tag : Nat) (o : Outst) (data : List Byte), s.running = true → f < 4 → findOutst s.fab port vc tag = some o → o.req.kind = .rd →
    data.length = o.req.len → s.fab.held = [] → (s.flueOf f).cmd = none →
    let x := s.flueOf f
    (o.purpose = .flueOwn f → x.fetch.isSome →
      (bytesNum (data.take 1) < 128 → ∃ t, exec (.outboundResponse port vc tag .ok data) s = .next t ∧ t.regs = s.regs ∧
        t.flueOf f = { x with fetch := none, bell := true, again := false }) ∧
      (128 ≤ bytesNum (data.take 1) → ∃ t, exec (.outboundResponse port vc tag .ok data) s = .next t ∧ t.regs = s.regs ∧
        t.fab = fabIssueAll s.now (dropOutst s.fab o)
          ((cutPages 65 (flueCmdAddr x x.head) (32 * flueLeft x)).map fun c => (mkReq x.port 4 .rd c.1 c.2 [], .flueCmd f)))) ∧
    (o.purpose = .flueCmd f → ∀ got, x.fetch = some (1, got, true) →
      let b := bufGet (bufPut (o.req.addr - flueCmdAddr x x.head) data got) 0 (32 * flueLeft x)
      (bytesNum (b.take 1) < 128 → ∃ t, exec (.outboundResponse port vc tag .ok data) s = .next t ∧ t.regs = s.regs ∧
        t.flueOf f = { x with fetch := none, bell := x.again, again := false }) ∧
      (128 ≤ bytesNum (b.take 1) → flueLeft x = 2 → flueMalformed b = false → noSuchOp b = false →
        ∃ t, exec (.outboundResponse port vc tag .ok data) s = .next t ∧ (t.flueOf f).cmd = some b ∧ t.flag Fld.slqFstsBusy f = true ∧
          (t.flueOf f).head = (if 128 * x.cpages ≤ x.head + 2 then 0 else x.head + 2)) ∧
      (128 ≤ bytesNum (b.take 1) → flueMalformed b = true → ∃ t, exec (.outboundResponse port vc tag .ok data) s = .next t ∧ FlueEnded s t f ∧
        (f = 0 → t.banked = true ∧ t.get Fld.glbBankStsCause = 5) ∧ (f ≠ 0 → t.banked = false)))) ∧
  (∀ (s : State) (f i : Nat) (x : Flue), FlueRuns s f 1 x → fp x 4 2 = i → i < 4096 →
    (f = 0 → fp x 0x12 1 / 8 % 4 ≠ 3 → fp x 6 2 < 4096 → s.flag Fld.hrvStsValid (fp x 6 2) = true → ringOk (fp x 8 8) (fp x 0x10 2) 512 = true → fp x 0x15 1 ≤ 64 →
      fp x 0x1A 2 ≤ 4096 → fp x 0x1C 1 ≤ 1 → s.flag Fld.slqCfgValid i = false → s.get Fld.hrvCfgClass (fp x 6 2) = fp x 0x12 1 % 4 →
      ∃ t, exec (.slqCreate f) s = .next t ∧ FlueEnded s t f ∧ t.flag Fld.slqCfgValid i = true ∧ t.get Fld.slqCfgClass i = fp x 0x12 1 % 4 ∧
        t.get Fld.slqCfgOwner i = fp x 0x12 1 / 8 % 4 ∧ t.get Fld.slqCfgCreator i = f ∧ t.get Fld.slqCfg2Hrv i = fp x 6 2 ∧ t.get Fld.slqHeadHead i = 0 ∧
        t.flag Fld.slqCtlEn i = (fp x 0x1C 1 == 1) ∧ (∀ j, j ≠ i → t.reg .slqCfg j = s.reg .slqCfg j)) ∧
    (fp x 0x12 1 / 8 % 4 = 3 → ∃ t, exec (.slqCreate f) s = .next t ∧ FlueEnded s t f ∧ t.slq = s.slq ∧ OtherRegs s t .slqFsts f)) ∧
  (∀ (s : State) (f i : Nat) (x : Flue), FlueRuns s f 2 x → fp x 4 2 = i → i < 4096 → s.flag Fld.slqCfgValid i = true → ownedBy f (s.get Fld.slqCfgCreator i) = true →
    (slqIdle s i = true → ∃ t, exec (.slqDestroy f) s = .next t ∧ FlueEnded s t f ∧ t.flag Fld.slqCfgValid i = false ∧ Tab.find i t.slq = none) ∧
    (slqIdle s i = false → ∃ t, exec (.slqDestroy f) s = .next t ∧ FlueEnded s t f ∧ t.slq = s.slq ∧ OtherRegs s t .slqFsts f)) ∧
  (∀ (s : State) (f i : Nat) (x : Flue), FlueRuns s f 3 x → fp x 4 2 = i → i < 4096 → f < 2 → fp x 6 2 < 2048 → ringOk (fp x 8 8) (fp x 0x10 2) 512 = true →
    fp x 0x13 1 < 16 → s.flag Fld.hrvStsValid i = false →
    ∃ t, exec (.hrvCreate f) s = .next t ∧ FlueEnded s t f ∧ t.flag Fld.hrvStsValid i = true ∧ t.get Fld.hrvCfgClass i = fp x 0x12 1 % 4 ∧
      t.get Fld.hrvCfgPort i = fp x 0x13 1 ∧ t.get Fld.hrvCfgSrc i = fp x 6 2 ∧ t.get Fld.hrvCfgCreator i = f ∧ t.get Fld.hrvStsTail i = 0 ∧ t.ring i = {}) ∧
  (∀ (s : State) (f i : Nat) (x : Flue), FlueRuns s f 4 x → fp x 4 2 = i → i < 4096 → s.flag Fld.hrvStsValid i = true → ownedBy f (s.get Fld.hrvCfgCreator i) = true →
    (∀ e ∈ s.slq, s.flag Fld.slqCfgValid e.1 = true → slqRing s e.1 ≠ i) →
    ∃ t, exec (.hrvDestroy f) s = .next t ∧ FlueEnded s t f ∧ t.flag Fld.hrvStsValid i = false ∧ t.ring i = {} ∧
      (0 < s.get Fld.hrvStsPending i → sourcePending t (.shared (s.get Fld.hrvCfgSrc i)) = true)) ∧
  (∀ (s : State) (f : Nat) (x : Flue), FlueRuns s f 7 x →
    (f < 2 → ∃ t, exec (.setHalt f) s = .next t ∧ FlueEnded s t f ∧ t.get Fld.slqHaltHalt = fp x 4 1 % 16) ∧
    (2 ≤ f → ∃ t, exec (.setHalt f) s = .next t ∧ FlueEnded s t f ∧ t.reg .slqHalt = s.reg .slqHalt ∧ t.slq = s.slq))

/-- R460, R357, R464, R237: SLQ_MODIFY waits for the sluice's next round and HRV_MODIFY acts at once; MIRROR_DROP in degraded-single mode frees every mirror slot;
FLUE_CFG configures F2 or F3; a LUN_OP queues its operation as class-3 work for its LUN, and completes once the operation has ended. -/
def Obligations.FlueChangesAndLunOps : Prop :=
  (∀ (s : State) (f i : Nat) (x : Flue), FlueRuns s f 5 x → fp x 4 2 = i → i < 4096 → s.flag Fld.slqCfgValid i = true → ownedBy f (s.get Fld.slqCfgCreator i) = true →
    fp x 7 1 ≤ 64 → fp x 8 2 ≤ 4096 → fp x 6 1 ≠ 0 → fp x 7 1 ≠ 0 → fp x 8 2 ≠ 0 →
    ∃ t, exec (.slqModify f) s = .next t ∧ FlueEnded s t f ∧ (t.sluice i).next = some (fp x 6 1, fp x 7 1, fp x 8 2) ∧ OtherRegs s t .slqFsts f) ∧
  (∀ (s : State) (f i : Nat) (x : Flue), FlueRuns s f 6 x → fp x 4 2 = i → i < 4096 → s.flag Fld.hrvStsValid i = true → ownedBy f (s.get Fld.hrvCfgCreator i) = true →
    ∃ t, exec (.hrvModify f) s = .next t ∧ FlueEnded s t f ∧ t.get Fld.hrvModCnt i = fp x 6 1 ∧ t.get Fld.hrvModTime i = fp x 8 2) ∧
  (∀ (s : State) (f : Nat) (x : Flue), FlueRuns s f 8 x →
    (f < 2 → s.wp.twin.single = true → ∃ t, exec (.mirrorDrop f) s = .next t ∧ FlueEnded s t f ∧ t.wp.mir = []) ∧
    (f < 2 → s.wp.twin.single = false → ∃ t, exec (.mirrorDrop f) s = .next t ∧ FlueEnded s t f ∧ t.wp = s.wp) ∧
    (2 ≤ f → ∃ t, exec (.mirrorDrop f) s = .next t ∧ FlueEnded s t f ∧ t.wp = s.wp)) ∧
  (∀ (s : State) (f g : Nat) (x : Flue), FlueRuns s f 9 x → f < 2 → fp x 4 1 = g → (g = 2 ∨ g = 3) → fp x 5 1 ≤ 1 → fp x 6 2 < 2048 → ringOk (fp x 8 8) (fp x 0x18 2) 16 = true →
    ringOk (fp x 0x10 8) (fp x 0x1A 2) 16 = true → fp x 0x24 1 < 16 → fp x 0x1C 2 < 4096 → fp x 0x1E 2 < 4096 → fp x 0x20 2 < 4096 → fp x 0x22 2 < 4096 →
    ∃ t, exec (.flueCfg f) s = .next t ∧ FlueEnded s t f ∧ t.flag Fld.slqFstsEn g = (fp x 5 1 == 1) ∧ (t.flueOf g).cbase = fp x 8 8 ∧ (t.flueOf g).rbase = fp x 0x10 8 ∧
      (t.flueOf g).cpages = fp x 0x18 2 ∧ (t.flueOf g).rpages = fp x 0x1A 2 ∧ (t.flueOf g).port = fp x 0x24 1 ∧ (t.flueOf g).src = fp x 6 2) ∧
  (∀ (s : State) (f : Nat) (x : Flue) (i : Instr) (ty first : Nat), FlueRuns s f 10 x → fp x 7 1 = ty →
    (ty, first, i) ∈ [(0x18, 0x18, Instr.lunOpOtpRead f), (0x19, 0x18, .lunOpOtpProg f), (0x20, 0x20, .lunOpGetFeat f), (0x21, 0x21, .lunOpSetFeat f)] →
    (x.lunOp = none → ∀ st, lunOpRefused f x s = some st → ∃ t, exec i s = .next t ∧ FlueEnded s t f ∧ t.md = s.md) ∧
    (x.lunOp = none → lunOpRefused f x s = none → ∃ t w, exec i s = .next t ∧ t.regs = s.regs ∧ (t.flueOf f).lunOp = some 0 ∧ (t.flueOf f).cmd = x.cmd ∧
      (t.lun (opLun x)).queue = (s.lun (opLun x)).queue ++ [w] ∧ w.kind = 4 ∧ w.cls = 3 ∧ w.optype = first ∧ w.why = .lunOp f) ∧
    (∀ code st raw, x.lunOp = some 0 → x.lunEnd = some (code, st, raw) → (2 ≤ ty / 16 ∨ code ≠ 0) → ∃ t, exec i s = .next t ∧ FlueEnded s t f ∧ t.md = s.md))

/-! ## Bellows movers (chapter 12) -/

/-- R476, R478, R493, Tables 12-2 to 12-4: a MOVE asks for every byte of its span once, in order, no request passing a 4 KiB boundary; a GATHER asks for its elements in table order, or
faults with code 6 where they pass the buffer or 2^52; a LOOP counts its passes and moves its address and buffer registers, and at 0 goes on, with LAST or without. -/
def Obligations.MoverTransfers : Prop :=
  ∀ (s : State) (m c : Nat) (x : Ctx) (w : BitVec 128), BelAt s m c x w →
    (∀ dir areg xf tee bofs lenm1 tm addr, belDecode w = .move dir areg xf tee bofs lenm1 tm addr →
      ∃ l, exec (.belMove m c) s = .next (s.setCtx m c (x.begin x.pc (x.pc + 1) w l)) ∧ (l.map (·.len)).foldl (· + ·) 0 = lenm1 + 1 ∧
        (l.head?.map fun q => (q.addr, q.bofs)) = some (addr + (aregAdd s m x areg).1, bofs + (aregAdd s m x areg).2) ∧
        ∀ q ∈ l, q.kind = (if dir = 0 then .rd else writeKind m) ∧ q.xf = (xf == 1) ∧ q.addr % 4096 + q.len ≤ 4096) ∧
    (∀ dir areg bofs e0 nm1, belDecode w = .gather dir areg bofs e0 nm1 →
      let es := (List.range (nm1 + 1)).map (e0 + ·)
      let fits := bofs + (aregAdd s m x areg).2 + gatherLen s m es ≤ 8192 ∧ gatherRange s m (aregAdd s m x areg).1 es = false
      ∃ t, exec (.belGather m c) s = .next t ∧
        (fits → t = s.setCtx m c (x.begin x.pc (x.pc + 1) w
          (gatherReqs s m x.pc dir (aregAdd s m x areg).1 es 0 (bofs + (aregAdd s m x areg).2) x.nreq))) ∧
        (¬ fits → x.job.path = .firmware → t.get Fld.belStsCode m = 6 ∧ t.fab = s.fab)) ∧
    (∀ lc tgt bstride count astride, belDecode w = .loop lc tgt bstride count astride → c < 32 →
      let n := (x.lc lc).getD count
      ∃ t, exec (.belLoop m c) s = .next t ∧
      (n ≠ 0 → ∃ y, t.ctx m c = some y ∧ y.pc = tgt ∧ y.lc lc = some (n - 1) ∧
        aReg t m y lc = addStride (aReg s m x lc) astride 52 32 ∧ bReg t m y lc = addStride (bReg s m x lc) bstride 13 13 ∧
        (∀ k c', (k, c') ≠ (m, c) → c' < 32 → t.ctx k c' = s.ctx k c')) ∧
      (n = 0 → (x.waitSince = none → BelPast s t m c x ((x.setLc lc none).begin x.pc (x.pc + 1) w [])) ∧
        (lastOf w = false → ∃ y, t.ctx m c = some y ∧ y.lc lc = none ∧ aReg t m y lc = aReg s m x lc)))

/-- R476, Tables 12-5 and 12-6: a WAIT holds the program until its condition, and a RESP or FLAG wait faults with code 7 at its timeout; a SIGNAL issues a write or an atomic, raises a
source or sets a flag; each with LAST or without, LAST ending the job once every request is answered (R483). -/
def Obligations.MoverWaitsAndSignals : Prop :=
  ∀ (s : State) (m c : Nat) (x : Ctx) (w : BitVec 128), BelAt s m c x w →
    let next (l : List MReq) := x.begin x.pc (x.pc + 1) w l
    let past : Ctx := { next [] with waitSince := none }
    let held := s.setCtx m c { x with cur := x.pc, waitSince := some (x.waitSince.getD s.now) }
    (∀ fl tmo, belDecode w = .wait 0 fl tmo → ∃ t, exec (.belWaitResp m c) s = .next t ∧
      (x.open_ = [] → BelPast s t m c x past) ∧ (x.open_ ≠ [] → t = held)) ∧
    (∀ fl tmo, belDecode w = .wait 1 fl tmo → ∃ t, exec (.belWaitFlag m c) s = .next t ∧
      (s.bit .belFlag (m - 48) fl = true → BelPast s t m c x past ∧ (x.job.path = .firmware → t.bit .belFlag (m - 48) fl = false)) ∧
      (s.bit .belFlag (m - 48) fl = false → t = held)) ∧
    (∀ fl tmo, belDecode w = .wait 2 fl tmo → ∃ t, exec (.belWaitTime m c) s = .next t ∧
      (x.waitSince.getD s.now + tmo * 1000 ≤ s.now → BelPast s t m c x past) ∧ (s.now < x.waitSince.getD s.now + tmo * 1000 → t = held)) ∧
    (∀ cond fl tmo since, belDecode w = .wait cond fl tmo → cond < 2 → tmo ≠ 0 → x.waitSince = some since → since + tmo * 1000 ≤ s.now →
      (cond = 0 → x.open_ ≠ []) → (cond = 1 → s.bit .belFlag (m - 48) fl = false) →
      ∃ t, exec (.belWaitTimeout m c) s = .next t ∧ (x.job.path = .firmware → t.get Fld.belStsCode m = 7 ∧ t.get Fld.belStsPc m = x.pc % 32 ∧
        t.get Fld.belGstsFaults = min 65535 (s.get Fld.belGstsFaults + 1) ∧ t.fab = s.fab ∧ (x.open_ = [] → t.ctx m c = none))) ∧
    (∀ aop bofs src mv fl addr, belDecode w = .signal 0 aop bofs src mv fl addr →
      exec (.belSignalPosted m c) s = .next (s.setCtx m c (next [⟨x.nreq, x.pc, 0, writeKind m, addr, bofs, 8, false, none⟩]))) ∧
    (∀ aop bofs src mv fl addr, belDecode w = .signal 1 aop bofs src mv fl addr →
      exec (.belSignalSealed m c) s = .next (s.setCtx m c (next [⟨x.nreq, x.pc, 0, .sw, addr, bofs, 8, false, none⟩]))) ∧
    (∀ aop bofs src mv fl addr, belDecode w = .signal 2 aop bofs src mv fl addr →
      exec (.belSignalAtomic m c) s = .next (s.setCtx m c (next [⟨x.nreq, x.pc, 0, .at aop, addr, bofs, 16, false, none⟩]))) ∧
    (∀ aop bofs src mv fl addr, belDecode w = .signal 3 aop bofs src mv fl addr → ∃ t, exec (.belSignalSrc m c) s = .next t ∧
      (lastOf w = false ∨ x.job.path = .firmware → sourcePending t (.shared src) = true) ∧ (x.waitSince = none → BelPast s t m c x (next []))) ∧
    (∀ aop bofs src mv fl addr, belDecode w = .signal 4 aop bofs src mv fl addr → ∃ t, exec (.belSignalFlag m c) s = .next t ∧
      (lastOf w = false → t.bit .belFlag (mv - 48) fl = true ∧ OtherRegs s t .belFlag (mv - 48)) ∧ (x.waitSince = none → BelPast s t m c x (next [])))

/-- R482, R486, R478, R488, R489, R491, R492, R496: the job of highest priority that fits starts on a free context; a port's slot goes to the waiting request of highest priority, and a firmware
mover's request outside its windows faults with code 8 (R611); an instruction that may not run faults; PAUSE, disable and GO. That a job dropped by EN 0 faults with code 9 is the model's reading
(log entry 132). -/
def Obligations.MoverJobs : Prop :=
  (∀ (s : State) (m c : Nat) (j : Job), s.coreOn = true → m < 64 → s.flag Fld.belCtlEn m = true → s.ctx m c = none → bestJob (s.mov.jobs.filter (jobFits s m c)) = some j →
    ∃ t, exec (.moverJobStart m c) s = .next t ∧ t.ctx m c = some (startCtx j) ∧ t.mov.jobs = s.mov.jobs.erase j ∧ t.get Fld.belCfgPrio m = j.prio % 8 ∧
      t.get Fld.belCfgPort m = j.port % 16 ∧ t.get Fld.belCfgVc m = j.vc % 4 ∧ OtherRegs s t .belCfg m) ∧
  (∀ (s : State) (m c port : Nat) (x : Ctx) (q : MReq), s.coreOn = true → c < 32 → s.ctx m c = some x → readyReq x = some q →
    bestCtx (s.mov.ctxs.filter fun e => e.2.job.port == port && contends s e) = some (ctxKey m c, x) →
    ∃ t, exec (.moverRequestSlot port) s = .next t ∧
      (reqRefused s m q = false → x.ended = false ∨ q.kind ≠ .pw →
        t.ctx m c = some { x with reqs := x.reqs.drop 1, open_ := if q.kind = .pw then x.open_ else x.open_ ++ [q] } ∧
        t.fab = fabIssue s.now s.fab (fabReq x q) (.mover m c q.n) ∧ t.regs = s.regs) ∧
      (reqRefused s m q = true → x.job.path = .firmware → t.get Fld.belStsCode m = 8 ∧ t.get Fld.belStsState m = 5 ∧ t.fab = s.fab)) ∧
  (∀ (s : State) (m c : Nat) (x : Ctx) (code : Nat), s.ctx m c = some x → canRun s m x = true → belDecode (instrAt s m x x.pc) = .reserved → belCheck s m x x.pc = some code →
    ∃ t, exec (.belMove m c) s = .next t ∧ (isFirmware m = true → x.job.path = .firmware → (x.open_ = [] → t.ctx m c = none) ∧ t.get Fld.belStsCode m = code ∧
      t.get Fld.belStsState m = 5 ∧ t.get Fld.belGstsFaults = min 65535 (s.get Fld.belGstsFaults + 1) ∧ sourcePending t (.shared (s.get Fld.belCfgSrc m)) = true)) ∧
  (∀ (s : State) (r : Req) (m : Nat) (w : Word), m < 64 → Written s r .belCtl m w → Steady s → Fld.belCtlEn.get w = 1 →
    ∃ t, exec (.belPauseWrite r m w) s = .next t ∧ t.resps = okSent s r ∧ OtherRegs s t .belCtl m ∧ t.fab = s.fab ∧
      (isFirmware m = true ∨ r.src = 0x10 → t.flag Fld.belCtlPause m = (Fld.belCtlPause.get w == 1) ∧ (s.flag Fld.belCtlEn m = true → t.flag Fld.belCtlEn m = true) ∧
        (Fld.belCtlPause.get w = 1 → ∀ c x, c < 32 → t.ctx m c = some x → x.waitSince = none))) ∧
  (∀ (s : State) (r : Req) (m : Nat) (w : Word), m < 64 → Written s r .belCtl m w → Steady s → Fld.belCtlEn.get w = 0 →
    ∃ t, exec (.belDisable r m w) s = .next t ∧
      (isFirmware m = true ∨ r.src = 0x10 → (∀ e ∈ moverCtxs s m, e.2.job.path = .firmware) → t.flag Fld.belCtlEn m = false ∧ t.fab = s.fab ∧ t.resps = okSent s r ∧
        (s.flag Fld.belCtlEn m = true → moverCtxs t m = [] ∧ s.freeCtr < t.freeCtr ∧ ((∃ e ∈ moverCtxs s m, e.2.fault = none) → t.get Fld.belStsCode m = 9)))) ∧
  (∀ (s : State) (r : Req) (m : Nat) (w : Word), Written s r .belCtl m w → Steady s → Fld.belCtlEn.get w = 1 → Fld.belCtlGo.get w = 1 → isFirmware m = true →
    moverState s m ∈ [0, 4, 5] →
    ∃ t, exec (.belGo r m w) s = .next t ∧ t.ctx m 0 = some (firmwareCtx s m (firmwareJob s m)) ∧ t.flag Fld.belCtlEn m = true ∧ OtherRegs s t .belCtl m ∧ t.resps = okSent s r)
/-! ## Destage, the journal and checkpoints (chapters 8, 9 and 10) -/

/-- R337, R311, R296, R291, R292, R348: a staged copy is placed once its window is past, its URGENT flag is set, a FLUSH covers it or pressure takes it as the oldest, and a mover reads its slot; a free
program token goes to the P or Q unit of the oldest open row, else to the unit ready first; pads fill the missing places of a row; and a journal page takes the next jseq,
its records and its program. -/
def Obligations.DestageAndJournal : Prop :=
  ∀ s : State, s.running = true →
    (∀ slot p set x, s.pan slot = some p → placeTile s false p.lta p.seq = some set → Tab.find set s.md.sets = some x → s.stage = 9 → s.wp.pfail = false →
      flushing s = false → s.flag Fld.mapFlushStsDone = false → s.wp.destageHeld = false → overlayHeld s = false → mayDestage s slot p = true →
      (p.admTime + windowNs s ≤ s.now ∨ p.urgent = true ∨ flushCovers s p = true ∨
        (pressed s = true ∧ ∀ e ∈ s.wp.own, e.1 ≠ slot → mayDestage s e.1 e.2 = true → p.admTime ≤ e.2.admTime)) →
      ∃ t j, exec (.destageStart slot) s = .next t ∧ Tab.find set t.md.sets = some { x with queue := x.queue ++ [slot] } ∧ t.mov.jobs = s.mov.jobs ++ [j] ∧
        j.path = .panRead slot ∧ j.prio = 3 ∧ j.vc = 2 ∧ j.prog = [moveWord true 0 0 0 0 4095 0 (slotAddr s.img.hold.panBase (ownSlots s) slot)] ∧
        t.pan slot = some p ∧ t.regs = s.regs ∧ t.fab = s.fab) ∧
    (∀ set x w0, Tab.find set s.md.sets = some x → x.token = none →
      let ready := x.slots.flatMap fun k => if s.online k then (s.lun k).queue.filter fun w => w.kind == 1 || w.kind == 3 else []
      let age (w : Want) : Option Nat := (parityRow w.why).bind fun id => (s.row id).map Row.seq
      w0 ∈ ready → ∃ v ∈ ready, ∃ t, exec (.programTokenGrant set) s = .next t ∧ Tab.find set t.md.sets = some { x with token := some v.page.lun } ∧
        (∀ w ∈ ready, ∀ y, age w = some y → ∃ z, age v = some z ∧ z ≤ y) ∧ (age v = none → ∀ w ∈ ready, v.since ≤ w.since) ∧
        t = { s with md := { s.md with sets := t.md.sets } }) ∧
    (∀ set g id t x, (s.set_ set).openG = some g → openRow set s = some (id, t) → t.row id = some x → x.parity = false → rowGroup id = g → s.wp.pfail = false →
      (s.set_ set).queue = [] → wantsPads s set g = true → (∀ pos, pos < 18 → rowLost t id pos = false) →
      ∃ t' x', exec (.padRow set) s = .next t' ∧ t'.row id = some x' ∧ t'.regs = t.regs ∧ (∀ j, j ≠ id → t'.row j = t.row j) ∧
        (∀ i m, Tab.find i x.mem = some m → Tab.find i x'.mem = some m) ∧
        (∀ i, i < 16 * rowUnitQ t id → Tab.find i x.mem = none → ∃ m, Tab.find i x'.mem = some m ∧ m.own = .pad ∧ m.lta = 0xFFFFFFFFFFFF ∧ m.keyidx = 0xFFFF ∧
          m.data = List.replicate 4096 0)) ∧
    (∀ k n g s1 g0 cw, k < streamCount s →
      let x := s.stream k
      let id := (streamRow x).1
      let pos := (streamRow x).2
      let w := rowUnitQ s id
      x.phase = .filling → x.flight = [] → x.page ≠ [] → x.since + s.img.hold.jrnWait * 1000 ≤ s.now → s.flag Fld.mapFlushStsDone = false →
      x.grp = some (n, g) → x.pos + 1 ≠ journalPages s n → journalRow id s = some s1 → rowLost s id pos = false → rowPage s id pos 0 = some (g0, cw) → eraseAwaited s (pageUnit s g0) = false →
      let recs := x.page.take (pageRecords s n)
      ∃ t v y, exec (.journalPageProgram k) s = .next t ∧ t.regs = s.regs ∧
        t.stream k = { x with
          page := x.page.drop recs.length
          since := s.now
          jseq := x.jseq + 1
          flight := [(x.jseq, recs)]
          phase := .programming
          places := x.places.filter (fun a => a.1 != x.jseq) ++ [(x.jseq, unitKey g0.lun (unitNo (pageUnit s g0)), rowStep id)] } ∧
        v ∈ (t.lun g0.lun).queue ∧ v.why = .jpage k ∧ v.kind = 1 ∧ v.cls = 2 ∧ v.page = g0 ∧ t.row id = some y ∧
        ∀ q, q < w → ∃ m, Tab.find (pos * w + q) y.mem = some m ∧ m.seq = k * 2 ^ 48 + x.jseq % 2 ^ 48 ∧ m.lta = 0 ∧ m.keyidx = 0xFFFF ∧
          m.data.take (32 * ((recs.drop (128 * q)).take 128).length) = recsBytes ((recs.drop (128 * q)).take 128))

/-- R382, R385, R387: a checkpoint that is due records each stream's open page and the SEQ counter, and takes the dirty map tiles and the area that does not hold the newest
one; areas too small are reported once; and once every checkpoint tile has passed, the header copies are programmed on every online LUN. -/
def Obligations.CheckpointSteps : Prop :=
  ∀ s : State, s.running = true → s.wp.pfail = false →
    (s.md.ckpt = none → s.stage = 9 → ckptDue s = true → s.md.sets ≠ [] →
      (areaSmall s = false → ∃ t c, exec .checkpointStart s = .next t ∧ t.md.ckpt = some c ∧ c.no = s.md.ckptNo + 1 ∧
        c.ptr = (List.range (streamCount s)).map (fun k => (s.stream k).jseq) ∧ c.seqBase = s.wp.seq ∧ c.area = nextArea s ∧
        t.flag Fld.mapCkptStsActive = true ∧ t.wp.streams = s.wp.streams ∧
        (∀ mt, mt ∈ c.tiles ↔ ∃ d, (mt, d) ∈ s.md.dir ∧ d.dirty = true)) ∧
      (areaSmall s = true → ∃ t, exec .checkpointStart s = .next t ∧ t.flag Fld.mapCkptStsSmall = true ∧ t.md = s.md ∧
        (s.flag Fld.mapCkptStsSmall = true → t = s))) ∧
    (∀ c, s.md.ckpt = some c → c.stepNo = 3 → ckptTiles s ≤ c.next → c.left = 0 →
      ∃ t c', exec .checkpointCommit s = .next t ∧ t.md.ckpt = some c' ∧ c'.stepNo = 4 ∧ c'.no = c.no ∧ t.regs = s.regs ∧
        (∀ k, k ∈ c'.heads ↔ s.online k = true ∧ ∃ e ∈ s.md.sets, k ∈ e.2.slots) ∧
        ∀ k ∈ c'.heads, ∃ w ∈ (t.lun k).queue, w.why = .header k ∧ w.kind = 1 ∧ w.page = ⟨k, c.area * s.img.geo.ckptUnits * (s.profile k).planes, 0, true⟩)

/-! ## The map (chapter 10) -/

/-- R15, R388, R391, R393, R394, R395: a tile is looked up in its pan copy (one that is being read back from the twin it waits for, R345), then in the map cache, whose miss reads the line; the answer fills the line, or puts its 8 LTAs
under repair; a map tile loaded is resident; EN 0 writes every dirty line back and empties the cache, EN 1 takes effect, at the end of a flush where one
runs; and a failed write-back is tried again after 1 ms. -/
def Obligations.MapLookupsAndCache : Prop :=
  (∀ (s : State) (rtag i : Nat) (q : Request) (x : Tile), s.running = true → s.rq rtag = some q → q.rtag = rtag → q.tiles[i]? = some x → q.started = true →
    (q.opc = 1 ∨ q.opc = 5) → x.outcome = none → x.looked = false → x.mapWait = false → x.lta ∉ s.md.repair →
    (∀ slot p, panCopy s x.lta = some (slot, p) → p.back = true → exec (.mapLookup rtag i) s = .next s) ∧
    (∀ slot p, panCopy s x.lta = some (slot, p) → p.back = false → p.st ≠ 0x1F → ∃ t j, exec (.mapLookup rtag i) s = .next t ∧ t.mov.jobs = s.mov.jobs ++ [j] ∧
      j.path = .panHost rtag i slot ∧ t.tile rtag i = some { x with looked := true, panSlot := some slot } ∧ t.regs = s.regs) ∧
    (panCopy s x.lta = none → q.opc = 5 → demandMap s = false → cacheHas s (x.lta / 8) = none → x.lta / 8 ∉ s.md.fills →
      (∀ e ∈ s.md.fillWait, e.1 ≠ x.lta / 8) → (cacheFills s = true → ∃ w, w < 16 ∧ ∀ e ∈ s.md.cache, e.1 % 16384 = x.lta / 8 % 16384 → e.2.way ≠ w) →
      ∃ t, exec (.mapLookup rtag i) s = .next t ∧ t.tile rtag i = some { x with mapWait := true } ∧ t.md.fills = x.lta / 8 :: s.md.fills ∧
        t.get Fld.mapCcMissMiss = min 0xFFFFFFFF (s.get Fld.mapCcMissMiss + 1) ∧ OtherRegs s t .mapCcMiss 0)) ∧
  (∀ (s : State) (line : Nat) (o : Outst) (t0 : State) (data : List Byte), takeOutst (.mapFill line) s = some (o, t0) → s.coreOn = true →
    (∀ l, Tab.find line s.md.cache = some l → l.ents = [] → (∀ u ∈ s.md.upds, u.lta / 8 ≠ line) → (∀ w ∈ waiters s, w.2.2 / 8 ≠ line) → (∀ a ∈ probeLtas s, a / 8 ≠ line) →
      ∃ t, exec (.mapFillDone line .ok data) s = .next t ∧ Tab.find line t.md.cache = some { l with ents := lineEnts s line data } ∧
        t.md.fills = s.md.fills.erase line ∧ t.regs = s.regs) ∧
    (∃ t, exec (.mapFillDone line .dataerr data) s = .next t ∧ Tab.find line t.md.cache = none ∧ t.regs = s.regs ∧
      (∀ k, k < 8 → 8 * line + k ∈ t.md.repair) ∧ ∀ w ∈ waiters s, w.2.2 / 8 = line → ∀ y, t.tile w.1 w.2.1 = some y → y.mapWait = false)) ∧
  (∀ (s : State) (mt p : Nat) (o : Outst) (t0 : State), takeOutst (.mapTile mt) s = some (o, t0) → s.coreOn = true → s.fab.held = [] → tileWritesOut mt t0 = false →
    Tab.find mt s.md.loads = some p → ∃ t, exec (.mapTileLoadDone mt .ok) s = .next t ∧ (t.dirOf mt).slot = some p ∧ Tab.find p t.md.pool = some mt ∧
      Tab.find mt t.md.loads = none) ∧
  (∀ (s : State) (r : Req) (w : Word), Written s r .mapCcCtl 0 w → Steady s →
    (Fld.mapCcCtlEn.get w = 0 → cacheFlushing s = false → cacheEn s = true → (∀ e ∈ s.md.cache, e.2.wb = false) → s.md.enAfter = false →
      ∃ t, exec (.mapCcDisable r w) s = .next t ∧ t.resps = okSent s r ∧ t.flag Fld.mapCcCtlEn = false ∧
        ((∀ e ∈ s.md.cache, e.2.dirty = false) → t.md.cache = [] ∧ t.flag Fld.mapCcStsFlushing = false) ∧
        (∀ line l, Tab.find line s.md.cache = some l → l.dirty = true → (lineAddr s line).isSome = true →
          Tab.find line t.md.cache = some { l with dirty := false, wb := true, wbFail := none } ∧ t.flag Fld.mapCcStsFlushing = true)) ∧
    (Fld.mapCcCtlEn.get w = 1 → ∃ t, exec (.mapCcEnable r w) s = .next t ∧ t.resps = okSent s r ∧
      (cacheFlushing s = false → t.flag Fld.mapCcCtlEn = true ∧ OtherRegs s t .mapCcCtl 0 ∧ t.md = s.md) ∧
      (cacheFlushing s = true → t.regs = s.regs ∧ t.md = { s.md with enAfter := true }))) ∧
  (∀ (s : State) (line : Nat) (l : MLine) (t0 a : Nat), s.running = true → Tab.find line s.md.cache = some l → l.wbFail = some t0 → l.dirty = true →
    t0 + 1000000 ≤ s.now → lineAddr s line = some a → ∃ t, exec (.writebackRetry line) s = .next t ∧
      Tab.find line t.md.cache = some { l with dirty := false, wb := true, wbFail := none } ∧ DramWritten s t a 3 (entsBytes l.ents) (.mapWrite line) ∧
      t.regs = s.regs)

/-- R389, R395, R396: the overlay entry of a resident map tile goes into its cached line, or into DRAM, and the tile is DIRTY; and a repair reads the line's map tile as the newest
valid checkpoint names it, then writes the line rebuilt from its entries and the journal's records, or poisons the LTAs still marked. -/
def Obligations.OverlayAndRepair : Prop :=
  ∀ s : State, s.running = true →
    (∀ mt p lta e, s.stage = 9 → (s.dirOf mt).slot = some p → (s.md.ovl.filter fun x => x.1 / 512 == mt) = [(lta, e)] → s.md.upds = [] → s.md.loadWait = [] →
      ∃ t, exec (.overlayMerge mt) s = .next t ∧ t.md.ovl = (s.md.ovl.filter fun x => x.1 / 512 != mt) ∧ (t.dirOf mt).dirty = true ∧ t.regs = s.regs ∧
        (∀ l, cacheHas s (lta / 8) = some l → Tab.find (lta / 8) t.md.cache = some { l with ents := l.ents.set (lta % 8) e, dirty := true }) ∧
        (cacheHas s (lta / 8) = none → t.md.cache = s.md.cache ∧ ((s.dirOf mt).dirty = true →
          t.fab = fabIssueAll s.now s.fab (dramReqs 3 (poolAddr s p + 8 * (lta % 512)) (numBytes 8 e) (.mapWrite (2 ^ 60 + lta / 8)) ++
            dramReqs 3 (ovlAddr s lta) (List.replicate 16 0) (.mapWrite (2 ^ 61)))))) ∧
    (∀ line ok, (∃ k, k < 8 ∧ 8 * line + k ∈ s.md.repair) → Tab.find (line / 64) s.md.repTiles = none →
      ∃ t, exec (.mapRepair line ok) s = .next t ∧ t.md.repair = s.md.repair ∧
        (entState (Tab.get 0 (line / 64) s.md.ckptDir) ≠ 1 → Tab.find (line / 64) t.md.repTiles = some zeroTile ∧ t.regs = s.regs ∧ t.fab = s.fab)) ∧
    (∀ line ok b l, (∃ k, k < 8 ∧ 8 * line + k ∈ s.md.repair) → Tab.find (line / 64) s.md.repTiles = some b → cacheHas s line = some l →
      (∀ u ∈ s.md.upds, u.lta / 8 ≠ line) → (∀ a ∈ probeLtas s, a / 8 ≠ line) →
      let good := ok && decide (b.length = 4096)
      let ent (k : Nat) := bytesNum ((b.drop (64 * (line % 64) + 8 * k)).take 8)
      let new := (List.range 8).map fun k => if 8 * line + k ∈ s.md.repair then (if good then repairEntry s (8 * line + k) (ent k) else poisonEntry) else ent k
      let n := ((List.range 8).filter fun k => decide (8 * line + k ∈ s.md.repair)).length
      ∃ t, exec (.mapRepair line ok) s = .next t ∧ Tab.find line t.md.cache = some { l with ents := new, dirty := false } ∧
        (t.dirOf (line / 64)).dirty = true ∧ t.md.repair = (s.md.repair.filter fun x => decide (x / 8 ≠ line)) ∧
        t.get Fld.mapRepairStsRepairs = min Fld.mapRepairStsRepairs.max (s.get Fld.mapRepairStsRepairs + 1) ∧
        t.get Fld.mapRepairStsPoisoned = (if good then s.get Fld.mapRepairStsPoisoned else min Fld.mapRepairStsPoisoned.max (s.get Fld.mapRepairStsPoisoned + n)) ∧
        (∀ a, lineAddr s line = some a → good = true → (s.dirOf (line / 64)).dirty = true → DramWritten s t a 3 (entsBytes new) (.mapWrite (2 ^ 60 + line))))
/-! ## Relocation, reclaim, the rake and lost LUNs (chapters 8 and 10) -/

/-- R397, R398, R401, R404, R407, R408, R312: a tile of a victim, a retired or draining place or the rake's is read for relocation, and destaged again while it is staged;
reclaim erases waiting units first, then takes a victim, and frees one that is empty; the rake's patrol and its refresh; and a LUN becomes hot and cold by
its windows. -/
def Obligations.ReclaimAndRake : Prop :=
  ∀ s : State, Backgrounds s →
    (∀ lta e, (∀ x ∈ s.md.relocs, x.2.lta ≠ lta) → firstFree s.md.relocs 0 < s.img.geo.relocSlots → entState e = 1 → entryInGeometry s e = true →
      (∀ v, knownEntry s lta = some v → v = e) → (∀ p ∈ s.wp.own, p.2.lta = lta → p.2.st = 0) → (mustMove s (entPage s e) = true ∨ (rakeMay s lta (entPage s e)).isSome = true) →
      let n := firstFree s.md.relocs 0
      ∃ t, exec (.relocation lta e) s = .next t ∧ (s.online (entPage s e).lun = true → (s.lun (entPage s e).lun).stall = none → ∃ id x r, t.reloc n = some x ∧ x.lta = lta ∧ x.old = e ∧ x.st = 0 ∧ t.rd id = some r ∧ r.own = .reloc n ∧
        r.page = entPage s e ∧ r.cw = entCw e ∧ r.lta = lta ∧ r.cls = x.cls ∧ (mustMove s (entPage s e) = false → x.cls = 3 ∧ t.md.rakeAt = s.now))) ∧
    (∀ lta e n x, s.md.relocs.find? (fun x => x.2.lta == lta) = some (n, x) → s.reloc n = some x → x.st = 1 →
      ∃ t j, exec (.relocation lta e) s = .next t ∧ t.reloc n = some { x with st := 6 } ∧ t.mov.jobs = s.mov.jobs ++ [j] ∧ j.path = .relocation n ∧
        j.prog = [moveWord true 0 0 0 0 4095 0 (s.img.geo.relocBase + 4160 * n)] ∧ t.regs = s.regs) ∧
    (∀ set, (freeGroups s set ≤ rclStart s ∨ (s.set_ set).drain = true) → reserveShort s = [] →
      let todo := (s.set_ set).slots.filter fun k => s.online k && decide ((freeUnits s k).length ≤ rclStart s) && !erasePending s k && (awaiting s k).isSome
      (∀ k ∈ todo, ∀ u, awaiting s k = some u → ∃ t, exec (.reclaim set) s = .next t ∧ t.regs = s.regs ∧ t.md.victims = s.md.victims ∧
        ∃ w ∈ (t.lun (unitLun (unitKey k u))).queue, w.kind = 2 ∧ w.why = .erase (unitKey k u) ∧ w.cls = 3) ∧
      (todo = [] → (∀ v ∈ s.md.victims, v / 2 ^ 18 ≠ set) → (s.set_ set).drain = false → ∀ g, pickVictim s set = some g →
        ∃ t, exec (.reclaim set) s = .next t ∧ t.md.victims = s.md.victims ++ [grpKey set g] ∧ t.regs = s.regs ∧ t.fab = s.fab) ∧
      (todo = [] → ∀ v x, s.md.victims.find? (fun v => v / 2 ^ 18 == set) = some v → s.grp set (v % 2 ^ 18) = some x →
        (∀ k ∈ groupUnits s set x, erasable s k = true ∧ (s.unit k).retire = false) →
        ∃ t, exec (.reclaim set) s = .next t ∧ t.grp set (v % 2 ^ 18) = none ∧ t.md.victims = s.md.victims.erase v ∧ t.regs = s.regs ∧
          ∀ k ∈ groupUnits s set x, (t.unit k).estate = 1 ∧ (t.unit k).refresh = false)) ∧
    (s.md.patrolAt + max 1 (s.get Fld.mapRakeCfgPatrolH) * 3600000000000 ≤ s.now → ∃ t, exec .rakePatrol s = .next t ∧ t.md.patrolAt = s.now ∧
      ∀ e ∈ s.md.sets, ∀ g ∈ closedGroups s e.1, ∀ x ∈ groupUnits s e.1 g.2,
        (s.unit x).closeAt + max 1 (s.get Fld.mapRakeCfgRetainD) * 86400000000000 ≤ s.now → (t.unit x).refresh = true) ∧
    (s.md.rakeUnit = none → ∀ x, oldestRefresh s = some x → exec .rakeRefresh s = .next { s with md := { s.md with rakeUnit := some x } }) ∧
    (∀ x, s.md.rakeUnit = some x → (s.unit x).valid = 0 → ∃ t, exec .rakeRefresh s = .next t ∧ t.md.rakeUnit = none ∧
      t.unit x = { s.unit x with refresh := false } ∧ t.get Fld.mapRakeStsDone = min Fld.mapRakeStsDone.max (s.get Fld.mapRakeStsDone + 1)) ∧
    (s.md.hotAt + 10000000 ≤ s.now → (onlineLuns s).Nodup → ∃ t, exec .hotWindow s = .next t ∧ t.regs = s.regs ∧ t.md.hotAt = s.now ∧
      (∀ k ∈ onlineLuns s,
        (s.get Fld.mapHotCfgQdepth < hotDepth s k → (t.lun k).above = min 8 ((s.lun k).above + 1) ∧ (t.lun k).below = 0 ∧
          (t.lun k).hot = ((s.lun k).hot || (s.lun k).above ≥ 7)) ∧
        (hotDepth s k ≤ s.get Fld.mapHotCfgQdepth → (t.lun k).above = 0 ∧ (t.lun k).below = min 8 ((s.lun k).below + 1) ∧
          (t.lun k).hot = ((s.lun k).hot && !decide ((s.lun k).below ≥ 7)))) ∧
      (∀ e ∈ t.md.hotTab, (t.lun e.2.2).hot = true))

/-- R315, R316, R317: a LUN that has gone offline leaves the spares, or its slot is lost in its set and in every group of it; in RUN the lowest spare that fits takes the slot and
its rebuild is queued, or the set drains; a rebuild takes up a group with the spare's best unit; and a group rebuilt has the spare's unit and its slot no longer lost. -/
def Obligations.LostLuns : Prop :=
  ∀ (s : State),
    (∀ k rest, s.coreOn = true → s.md.offQ = k :: rest → (s.lun k).queue = [] →
      (setOf s k = none → ∃ t, exec .lunOffline s = .next t ∧ t.md.spares = s.md.spares.erase k ∧ t.md.offQ = rest ∧ t.regs = s.regs) ∧
      (∀ set x slot, setOf s k = some set → Tab.find set s.md.sets = some x → slotIn x k = some slot → s.wp.pfail = false →
        let gone : JRec := ⟨jSlotLost, set * 32 + slot, 0, k, 0⟩
        ∃ t x', exec .lunOffline s = .next t ∧ t.md.offQ = rest ∧ Tab.find set t.md.sets = some x' ∧ x'.token ≠ some k ∧
          (∀ g y, g < 2 ^ 18 → s.grp set g = some y → ∃ y', t.grp set g = some y' ∧ y'.lost = y.lost ||| 2 ^ slot ∧ y'.unit = y.unit) ∧
          (s.stage ≠ 9 → x'.slots = x.slots ∧ x'.drain = x.drain ∧ x'.lost = x.lost ||| 2 ^ slot ∧ (t.lun k).queue = [] ∧
            (t.stream 0).page = (s.stream 0).page ++ [gone]) ∧
          (s.stage = 9 → ∀ n, fitSpare s set slot = some n → x'.slots = x.slots.set slot n ∧ t.md.spares = s.md.spares.erase n ∧
            (t.stream 0).page = (s.stream 0).page ++ [gone, ⟨jSpareIn, set * 32 + slot, 0, n, 0⟩] ∧
            (s.md.rebuilds ≠ [] → s.md.rebuilds.head? ≠ some (set, slot) → s.md.rebuildLeft ≠ [] →
              x'.lost = x.lost ||| 2 ^ slot ∧ t.md.rebuilds = (s.md.rebuilds.filter (· != (set, slot))) ++ [(set, slot)]) ∧
            (s.md.rebuilds = [] → s.md.rebuildLeft = [] → setGroups s set ≠ [] → x'.lost = x.lost ||| 2 ^ slot ∧ t.md.rebuilds = [(set, slot)])) ∧
          (s.stage = 9 → fitSpare s set slot = none → x'.drain = true ∧ x'.slots = x.slots ∧ x'.lost = x.lost ||| 2 ^ slot ∧ (t.lun k).queue = []))) ∧
    (∀ set slot rest g x k u, s.running = true → s.stage = 9 → s.wp.pfail = false → s.md.rebuilds = (set, slot) :: rest → s.md.rebuilding = none →
      s.md.rebuildLeft.find? (rebuildable s set slot) = some g → (s.set_ set).slots[slot]? = some k → bestUnit s k = some u → s.grp set g = some x →
      ∃ t, exec .rebuildGroupDone s = .next t ∧ (x.rowsDone = 0 →
        t.md.rebuilding = some ⟨g, (lostLun s set g slot).getD k, (x.unit[slot]?).getD 0, u, 0, [], [], true⟩ ∧ t.md.rebuilds = s.md.rebuilds ∧
        (t.unit (unitKey k u)).gref = gref set g ∧ (t.unit (unitKey k u)).estate = if x.slc then (if x.gstate = 0 then 4 else 5) else 2)) ∧
    (∀ set slot rest w x k, s.running = true → s.stage = 9 → s.md.rebuilds = (set, slot) :: rest → s.md.rebuilding = some w → w.done = true →
      s.grp set w.g = some x → (s.set_ set).slots[slot]? = some k →
      ∃ t, exec .rebuildGroupDone s = .next t ∧ (w.tiles = [] →
        (∃ y, t.grp set w.g = some y ∧ y.unit = x.unit.set slot w.unit ∧ y.lost = x.lost &&& (2 ^ 18 - 1 - 2 ^ slot)) ∧
        ((s.unit (unitKey k w.unit)).estate = 2 → (t.unit (unitKey k w.unit)).estate = 3) ∧
        ((∀ h ∈ s.md.rebuildLeft.erase w.g, h ≠ w.g ∧ rebuildable s set slot h = false) →
          (∃ h ∈ s.md.rebuildLeft.erase w.g, ∃ z, s.grp set h = some z ∧ z.lost.testBit slot = true) →
          t.md.rebuilds = s.md.rebuilds ∧ t.get Fld.mapRbProgGroups = min Fld.mapRbProgGroups.max (s.get Fld.mapRbProgGroups + 1)) ∧
        (s.md.rebuildLeft.erase w.g = [] → rest = [] → t.md.rebuilds = [] ∧ (t.set_ set).lost = (s.set_ set).lost &&& (2 ^ 18 - 1 - 2 ^ slot))))
/-! ## The raw window, the patch RAM and stoker debug (chapter 5) -/

/-- R191, R203, R197, R190, R192, R194, R196: EN 1 takes the target named, READY as it is drained; EN 0 gives it back, once FL_RB_N is high; an access in its region is queued
for the pins as its cycles, each command that starts an array operation with a draught grant of its own to come; one that the window refuses is answered DECERR and recorded; and a read held
for TMO µs ends with DECERR, zero data and no cycle. -/
def Obligations.RawWindow : Prop :=
  ∀ (s : State) (r : Req) (c : Nat),
    (∀ w, c < 128 → Steady s → Written s r .stkRawCtl c w →
      (Fld.stkRawCtlEn.get w = 1 → s.flag Fld.stkRawCtlEn c = false → s.flag Fld.stkRawCtlReady c = false →
        ∃ t, exec (.rawCtlEnable r c w) s = .next t ∧ t.flag Fld.stkRawCtlEn c = true ∧ t.get Fld.stkRawCtlTgt c = Fld.stkRawCtlTgt.get w ∧
          t.get Fld.stkRawCtlTmo c = Fld.stkRawCtlTmo.get w ∧ t.flag Fld.stkRawCtlReady c = rawDrained t c ∧ OtherRegs s t .stkRawCtl c ∧ t.ch = s.ch ∧
          t.resps = okSent s r) ∧
      (Fld.stkRawCtlEn.get w = 0 → s.flag Fld.stkRawCtlEn c = true →
        ∃ t, exec (.rawCtlDisable r c w) s = .next t ∧ t.flag Fld.stkRawCtlEn c = false ∧ t.flag Fld.stkRawCtlReady c = false ∧
          t.get Fld.stkRawCtlTgt c = s.get Fld.stkRawCtlTgt c ∧ OtherRegs s t .stkRawCtl c ∧ t.resps = okSent s r ∧
          (t.chan c).rawOut = if (s.chan c).rb.getLsbD (s.get Fld.stkRawCtlTgt c) then (s.chan c).rawOut else some (s.get Fld.stkRawCtlTgt c))) ∧
    (RawOpen s r c →
      let tgt := s.get Fld.stkRawCtlTgt c
      let mask := 2 ^ tgt
      let queued (i : Instr) (cycles : List (BusCyc × Bool)) (read : Option (Bool × Nat × Nat)) (beats : Nat) : Prop :=
        ∃ t, exec i s = .next t ∧ (t.chan c).rawQ = (s.chan c).rawQ ++ [⟨r, tgt, cycles, read, s.now, beats⟩] ∧ t.resps = s.resps ∧ OtherRegs s t .stkRawCtl c
      (∀ ofs en, en ≠ [] → (enabled en).length ≤ 64 →
        (ofs + en.length ≤ 0x100 → queued (.rawCommandWrite r c ofs en) ((enabled en).map fun b => (.cmd mask b, arrayStart s c tgt b)) none (beatsOf ofs en.length)) ∧
        (0x100 ≤ ofs → ofs + en.length ≤ 0x200 → queued (.rawAddressWrite r c ofs en) ((enabled en).map fun b => (.addr mask b, false)) none (beatsOf ofs en.length)) ∧
        (0x200 ≤ ofs → ofs + en.length ≤ 0x300 → queued (.rawDataWrite r c ofs en) [(.dataIn mask (enabled en), false)] none (beatsOf ofs en.length))) ∧
      (∀ ofs len, 1 ≤ len → len ≤ 64 →
        (0x200 ≤ ofs → ofs + len ≤ 0x300 → queued (.rawDataRead r c ofs len) [(.dataOut mask len, false)] (some (false, 0, len)) 0) ∧
        (0x300 ≤ ofs → ofs + len ≤ 0x304 → queued (.rawStatusRead r c ofs len) [(.status mask, false)] (some (true, ofs - 0x300, len)) 0))) ∧
    (c < 128 → Steady s → rawGate s r c = .pass → ∀ ofs en, ofs < 0x100 →
      (rawReady s c = false ∨ s.flag Fld.stkTgtcfgKx (c * 8 + s.get Fld.stkRawCtlTgt c) = true ∨ 0x100 < ofs + en.length ∨ 64 < (enabled en).length) →
      ∃ t, exec (.rawCommandWrite r c ofs en) s = .next t ∧ t.flag Fld.stkRawStsRefused c = true ∧ (t.chan c).rawQ = (s.chan c).rawQ ∧
        t.resps = (s.respondWrite r .decerr).resps) ∧
    (∀ a x b lo n, s.coreOn = true → (s.chan c).rawQ = a ++ [x] → x.read = some (b, lo, n) → (∀ y ∈ a, y.read = none) →
      x.since + 1000 * max 1 (s.get Fld.stkRawCtlTmo c) ≤ s.now → (s.chan c).rb.getLsbD x.tgt = false → x ∉ a →
      ∃ t, exec (.rawReadTimeout c) s = .next t ∧ (t.chan c).rawQ = a ∧ (t.chan c).bus = (s.chan c).bus ∧ t.flag Fld.stkRawStsTmo c = true ∧
        OtherRegs s t .stkRawSts c ∧ t.resps = s.resps ++ [⟨x.req.port, x.req.vc, x.req.tag, .decerr, List.replicate n 0⟩])

/-- R186, R204: the patch RAM reads as zeros with OK and takes no write, and both are recorded; HALT stops a stoker at its next switch point, at once where no slot
holds the pins, and lets it go on at 0; and STEP runs one word of a halted stoker. -/
def Obligations.PatchAndDebug : Prop :=
  ∀ (s : State) (r : Req) (c : Nat), c < 128 →
    (viewGate s r = .pass →
      (∀ ofs beats, viewReadOk ofs beats = true → ∃ t, exec (.patchRamRead r c ofs beats) s = .next t ∧ t = { s with regs := t.regs, resps := t.resps } ∧
        t.resps = s.resps ++ [⟨r.port, r.vc, r.tag, .ok, List.replicate (64 * beats) 0⟩] ∧ t.flag Fld.stkUcodeStsXoRd c = true ∧ OtherRegs s t .stkUcodeSts c) ∧
      (∃ t, exec (.patchRamWrite r c) s = .next t ∧ t = { s with regs := t.regs, resps := t.resps } ∧ t.resps = (s.respondWrite r .decerr).resps ∧
        t.flag Fld.stkUcodeStsXoWr c = true ∧ OtherRegs s t .stkUcodeSts c)) ∧
    (∀ w, Steady s → Written s r .stkDbgCtl c w →
      (Fld.stkDbgCtlStep.get w = 0 → Fld.stkDbgCtlHalt.get w = 1 → ∃ t, exec (.stkDbgHalt r c w) s = .next t ∧ t.flag Fld.stkDbgCtlHalt c = true ∧
        (t.chan c).halting = true ∧ (t.chan c).slots = (s.chan c).slots ∧ OtherRegs s t .stkDbgCtl c ∧ t.resps = okSent s r ∧
        ((s.chan c).act = none → t.flag Fld.stkDbgCtlHalted c = true) ∧
        ((s.chan c).act ≠ none → t.flag Fld.stkDbgCtlHalted c = s.flag Fld.stkDbgCtlHalted c)) ∧
      (Fld.stkDbgCtlStep.get w = 0 → Fld.stkDbgCtlHalt.get w = 0 → ∃ t, exec (.stkDbgHalt r c w) s = .next t ∧ t.flag Fld.stkDbgCtlHalt c = false ∧
        t.flag Fld.stkDbgCtlHalted c = false ∧ Fld.stkDbgCtlUpc.get (liveWord t .stkDbgCtl c) = 0 ∧ (t.chan c).halting = false ∧ (t.chan c).slots = (s.chan c).slots ∧
        OtherRegs s t .stkDbgCtl c ∧ t.resps = okSent s r) ∧
      (∀ k x u v upc din m, Fld.stkDbgCtlStep.get w = 1 → Fld.stkDbgCtlHalt.get w = 1 → s.flag Fld.stkDbgCtlHalted c = true → s.flag Fld.stkStsFault c = false →
        (s.chan c).act = some k → Tab.find k (s.chan c).slots = some x → x.st = .ready → wordMay s c x u = true → fetchWord s c x.upc u = (upc, v) →
        wordRate s c x v = false → wordReserved v = false → mOp v = 0 → NotLast upc → InSpace upc →
        ∃ t y, exec (.stkDbgStep r c w u din m) s = .next t ∧ Tab.find k (t.chan c).slots = some y ∧ y.upc = upc + 1 ∧ y.last = upc ∧ y.op = x.op ∧
          y.stack = x.stack ∧ y.g = x.g ∧ Fld.stkDbgCtlUpc.get (liveWord t .stkDbgCtl c) = (upc + 1).toNat ∧ (t.chan c).words = (s.chan c).words + 1 ∧
          t.flag Fld.stkDbgCtlHalted c = true ∧ t.resps = okSent s r))
/-! ## KX-DDR, tracking and calibration (chapters 4 and 15) -/

/-- R130, R146, R147, R99, R151, R154, R155: a write of STK_TGTCFG takes a set of its kind, and KX_REQ but on a part without KX-DDR; an entry sends SET FEATURES, trains, clears
CA_SLOW and echoes 16 frames, and after two failures, the second from the standard mode, leaves its target offline; an exit sends KX EXIT, at the target's rate; edges are tallied unless their
frame failed, and a bit with 256 of them is evaluated, moved one step, or reported at its limit with a sweep. -/
def Obligations.KxAndTracking : Prop :=
  (∀ (s : State) (r : Req) (c k : Nat) (w : Word), c < 128 → k < 8 → Steady s → Written s r .stkTgtcfg (c * 8 + k) w →
    let ti := c * 8 + k
    let kxSet (n : Nat) : Prop := s.get Fld.stkTsetW0Mode (c * 16 + n) = 8
    ∀ i ∈ [Instr.kxReqWrite r c k w, .tsetWrite r c k w], ∃ t, exec i s = .next t ∧ t.resps = okSent s r ∧
      (s.part ≠ .ig7316 → t.get Fld.stkTgtcfgKxReq ti = Fld.stkTgtcfgKxReq.get w) ∧
      (s.part = .ig7316 → Fld.stkTgtcfgKxReq.get w = 1 → t.get Fld.stkTgtcfgKxReq ti = s.get Fld.stkTgtcfgKxReq ti ∧
        (300 ∈ (s.chan c).logged → kxSet (Fld.stkTgtcfgKxTset.get w) → ¬kxSet (Fld.stkTgtcfgTset.get w) → t.log = s.log)) ∧
      (Fld.stkTgtcfgKxFallbk.get w = 1 → t.flag Fld.stkTgtcfgKxFallbk ti = false) ∧
      (¬kxSet (Fld.stkTgtcfgTset.get w) → t.get Fld.stkTgtcfgTset ti = Fld.stkTgtcfgTset.get w) ∧
      (kxSet (Fld.stkTgtcfgTset.get w) → t.get Fld.stkTgtcfgTset ti = s.get Fld.stkTgtcfgTset ti) ∧
      (kxSet (Fld.stkTgtcfgKxTset.get w) → t.get Fld.stkTgtcfgKxTset ti = Fld.stkTgtcfgKxTset.get w) ∧
      (¬kxSet (Fld.stkTgtcfgKxTset.get w) → t.get Fld.stkTgtcfgKxTset ti = s.get Fld.stkTgtcfgKxTset ti) ∧
      ∀ k' i', (k', i') ≠ (.stkTgtcfg, ti) → k' ≠ .glbLogSeq → t.reg k' i' = s.reg k' i') ∧
  (∀ (s : State) (c k rate : Nat) (x : TrainSet), s.running = true → c < 128 → k < 8 → maintFirst s c = true → mayRecover s c k = false → kxMayEnter s c k = true →
    kxRate s c k = some rate →
    let ti := c * 8 + k
    let a := applied s c k
    (∀ rd wr, newCentres 8 rate 0 x.ka.rd = some rd → newCentres 8 rate 0 x.ka.wr = some wr → x.ka.busyOk = true → x.ka.echoOk = true →
      ∃ t pre d post, exec (.kxEntry c k x) s = .next t ∧ t.flag Fld.stkTgtcfgKx ti = true ∧ t.get Fld.stkChmodeCurMode c = 8 ∧ (t.chan c).caSlow.getLsbD k = false ∧
        (t.chan c).bus = (s.chan c).bus ++ pre ++ [.cmd (2 ^ k) 0xEF, .addr (2 ^ k) 0xB7, .dataIn (2 ^ k) d] ++ post ∧ d.length = 4 ∧
        .ca (2 ^ k) (caFrame [(0xE5, true), (0, false), (0, false)] 0) ∈ post ∧ (post.filter fun b => b == .frameOut (2 ^ k) 10).length = 16 ∧
        (t.calT ti).centre = putCentres 1 wr (putCentres 0 rd (s.calT ti).centre)) ∧
    (x.ka.busyOk = true → newCentres 8 rate 0 x.ka.rd = none → newCentres a.mode a.rate 0 x.b.rd = none →
      ∃ t, exec (.kxEntry c k x) s = .next t ∧ t.flag Fld.stkTgtcfgKx ti = false ∧ t.flag Fld.stkTgtcfgOnline ti = false ∧
        t.get Fld.stkKxCntEscapes c = min Fld.stkKxCntEscapes.max (s.get Fld.stkKxCntEscapes c + 1))) ∧
  (∀ (s : State) (c k : Nat), s.running = true → c < 128 → k < 8 → maintFirst s c = true → kxMayExit s c k = true →
    ∃ t, exec (.kxExit c k) s = .next t ∧
      (needsRate s c k = false → t.flag Fld.stkTgtcfgKx (c * 8 + k) = false ∧ (t.chan c).bus = (s.chan c).bus ++ [.ca (2 ^ k) (caFrame [(0xE1, true)] 0)] ∧
        ∀ k' i', (k', i') ≠ (.stkTgtcfg, c * 8 + k) → (k', i') ≠ (.stkChmode, c) → k' ≠ .glbLogSeq → t.reg k' i' = s.reg k' i') ∧
      (needsRate s c k = true → t.flag Fld.stkTgtcfgKx (c * 8 + k) = true ∧ rateLocked t c = true)) ∧
  (∀ (s : State) (c key : Nat), s.coreOn = true → c < 128 → s.flag Fld.stkChmodeTrackEn c = true → s.get Fld.stkChmodeCurMode c ≠ 0 →
    400 ≤ s.get Fld.stkChmodeCurRate c → (s.chan c).act = none → rateLocked s c = false → (s.chan c).lastStep + 1000 ≤ s.now → key < 8 → walking s c key = false →
    let of (t : State) := Tab.get ((0, 0, 0) : Int × Nat × Int) key (t.chan c).track
    (∀ k, k ≠ key → (Tab.get ((0, 0, 0) : Int × Nat × Int) k (s.chan c).track).2.1 < 256) →
    (∀ a b, (of s).2.1 + a + b < 256 →
      (∃ t, exec (.trackingEval c [(key, a, b, true)]) s = .next t ∧ (t.chan c).lastStep = s.now ∧
        of t = (Int.bmod ((of s).1 + a - b) 65536, (of s).2.1 + a + b, (of s).2.2)) ∧
      ∃ t, exec (.trackingEval c [(key, a, b, false)]) s = .next t ∧ (t.chan c).lastStep = s.now ∧ of t = of s) ∧
    (256 ≤ (of s).2.1 → ∃ t, exec (.trackingEval c []) s = .next t ∧
      ((of s).1.natAbs < 64 → of t = (0, 0, (of s).2.2)) ∧
      (64 ≤ (of s).1 → -8 ≤ (of s).2.2 → (of s).2.2 < 7 → of t = (0, 0, (of s).2.2 + 1) ∧ t.get Fld.stkDskStsSteps c = min Fld.stkDskStsSteps.max (s.get Fld.stkDskStsSteps c + 1)) ∧
      (64 ≤ (of s).1 → (of s).2.2 = 7 → of t = (0, 0, 7) ∧ t.bit .stkDskSts c (24 + key) = true ∧
        ∀ ti ∈ onlineTargets s c, ∃ n, (ti % 8, n) ∈ Tab.get [] c t.cal.queue)))

/-- R557, R558, R559, R553, R567: the temperature sample and a write of CAL_REQ queue the targets that they name; the channel's next queued target starts a run; the run's steps 1 to 6 end, at the target's rate, with
its RESULT and its online LUNs to come; and its end is counted and logged. -/
def Obligations.CalibrationRuns : Prop :=
  ∀ s : State,
    (s.running = true → s.cal.tempAt + 1000000 ≤ s.now → ∃ t, exec .calTempSample s = .next t ∧ t.cal.tempAt = s.now ∧ t.regs = s.regs ∧
      ∀ g v, g < 16 → tempLive s g = some v → tempOf t g = v ∧
        (s.flag Fld.calCtlEn = true → ∀ c k, c < 8 → k < 8 → s.flag Fld.stkTgtcfgOnline ((8 * g + c) * 8 + k) = true →
          64 * max 1 (s.get Fld.calCtlThresh) < (v - (s.calT ((8 * g + c) * 8 + k)).tlast).natAbs →
          (∀ e, (s.calT ((8 * g + c) * 8 + k)).endAt = some e → e + max 100 (s.get Fld.calCtlMinGap) * 1000000 ≤ s.now) →
          ∃ n, (k, n) ∈ Tab.get [] (8 * g + c) t.cal.queue)) ∧
    (∀ r w, Steady s → Written s r .calReq 0 w →
      (Fld.calReqGo.get w = 0 → exec (.calReqGo r w) s = .next (s.respondWrite r .ok)) ∧
      (Fld.calReqGo.get w = 1 → ∃ t, exec (.calReqGo r w) s = .next t ∧ t.regs = s.regs ∧ t.resps = okSent s r ∧
        ∀ k, k < 8 → (Fld.calReqTmask.get w).testBit k = true → s.flag Fld.stkTgtcfgOnline (Fld.calReqCh.get w * 8 + k) = true →
          ∃ n, (k, n) ∈ Tab.get [] (Fld.calReqCh.get w) t.cal.queue)) ∧
    (∀ c k n q, s.running = true → s.stage = 9 → flushing s = false → c < 128 → Tab.get [] c s.cal.queue = (k, n) :: q → Tab.find c s.cal.runs = none → maintFirst s c = true →
      ∃ t, exec (.calRunStart c) s = .next t ∧ Tab.get [] c t.cal.queue = q ∧ t = { s with cal := t.cal } ∧
        (s.flag Fld.stkTgtcfgOnline (c * 8 + k) = true → Tab.find c t.cal.runs = some { tgt := k, sweep := n } ∧ (Tab.get {} n t.cal.sweeps).start.isSome = true) ∧
        (s.flag Fld.stkTgtcfgOnline (c * 8 + k) = false → t.cal.runs = s.cal.runs)) ∧
    (∀ c u m, s.running = true → Tab.find c s.cal.runs = some u →
      (u.six = false → maintFirst s c = true → needsRate s c u.tgt = true → ∃ t, exec (.calRunEnd c m) s = .next t ∧ t.cal = s.cal ∧ rateLocked t c = true) ∧
      (u.six = false → maintFirst s c = true → needsRate s c u.tgt = false → ∃ t v, exec (.calRunEnd c m) s = .next t ∧ Tab.find c t.cal.runs = some v ∧ v.six = true ∧ v.tgt = u.tgt ∧ v.sweep = u.sweep ∧
        v.media = ((List.range 4).map (lunKey c u.tgt)).filter s.online ∧
        ((trainMode s c u.tgt).1 = 0 → c ∉ (Tab.get {} u.sweep s.cal.sweeps).zq →
          (zqOk s.img.cal m = true → v.result = 1 ∧ (t.calCh c).puGoal = m.pu ∧ (t.calCh c).pdGoal = m.pd ∧ t.get Fld.calStsFails = s.get Fld.calStsFails) ∧
          (zqOk s.img.cal m = false → v.result = 2 ∧ t.cal.chs = s.cal.chs ∧ t.get Fld.calStsFails = min Fld.calStsFails.max (s.get Fld.calStsFails + 1)))) ∧
      (u.six = true → u.media = [] → u.wait = [] → u.ledger = [] → ∃ t e, exec (.calRunEnd c m) s = .next t ∧ Tab.find c t.cal.runs = none ∧
        (t.calT (c * 8 + u.tgt)).result = u.result ∧ (t.calT (c * 8 + u.tgt)).runs = min 0xFFFF ((s.calT (c * 8 + u.tgt)).runs + 1) ∧
        (t.calT (c * 8 + u.tgt)).endAt = some s.now ∧ (t.calT (c * 8 + u.tgt)).centre = (s.calT (c * 8 + u.tgt)).centre ∧
        t.get Fld.calCntCnt = min Fld.calCntCnt.max (s.get Fld.calCntCnt + 1) ∧ t.log = (e :: s.log).take 2048 ∧ e.unit = uCAL ∧ e.code = 0x1014))

/-- R564, R566, R568, R570, R571: codes and centres walk one step at a time toward their goals; at its deadline a sweep gives up the targets left; the media step fetches the gauge
lines that it lacks and reads samples of the LUN's latest blocks, then re-seeds their lines by the mean change; and a LUN's ledger takes one page at its frontier, at most once per 60 s, in
the other unit once it is full. -/
def Obligations.CalibrationSteps : Prop :=
  (∀ (s : State) (c : Nat), s.coreOn = true → c < 128 → (s.chan c).act = none → rateLocked s c = false → (s.calCh c).walkAt + 1000 ≤ s.now →
    ∃ t, exec (.calWalkStep c) s = .next t ∧
      t.calCh c = { s.calCh c with pu := stepTo (s.calCh c).pu (s.calCh c).puGoal, pd := stepTo (s.calCh c).pd (s.calCh c).pdGoal, dcc := stepTo (s.calCh c).dcc (s.calCh c).dccGoal, walkAt := s.now } ∧
      ∀ k key g, k < 8 → ((s.calT (c * 8 + k)).goal.map Prod.fst).Nodup → (key, g) ∈ (s.calT (c * 8 + k)).goal →
        let x := Tab.get 0 key (s.calT (c * 8 + k)).centre
        Tab.get 0 key (t.calT (c * 8 + k)).centre = stepTo x g ∧ (stepTo x g = g → Tab.find key (t.calT (c * 8 + k)).goal = none)) ∧
  (∀ (s : State) (n ti t0 : Nat), s.running = true → (Tab.get {} n s.cal.sweeps).start = some t0 → (Tab.get {} n s.cal.sweeps).left = [ti] → 1024 < (onlineLuns s).length →
    t0 + max 1 (s.get Fld.calDeadlineMs) * 1000000 ≤ s.now → Tab.find (ti / 8) s.cal.runs = none → (ti % 8, n) ∈ Tab.get [] (ti / 8) s.cal.queue →
    let l := ((List.range 4).map (lunKey (ti / 8) (ti % 8))).filter s.online
    ∃ t, exec (.calSweepDeadline n) s = .next t ∧ (t.calT ti).result = 3 ∧ (ti % 8, n) ∉ Tab.get [] (ti / 8) t.cal.queue ∧ Tab.find n t.cal.sweeps = none ∧
      (l ≠ [] → t.get Fld.calDlmissLuns = min Fld.calDlmissLuns.max (s.get Fld.calDlmissLuns + l.length) ∧
        t.get Fld.calDlmissSweeps = min Fld.calDlmissSweeps.max (s.get Fld.calDlmissSweeps + 1))) ∧
  (∀ (s : State) (k : Nat) (u : CalRun), s.running = true → runOf s k = some u →
    let us := latestUnits 4 (lunUnits s k [3])
    let all := unitBlocks s k (lunUnits s k [2, 3])
    (k ∈ u.media → (us = [] ∨ s.online k = false) → ∃ t v, exec (.mediaStep k) s = .next t ∧ runOf t k = some v ∧ v.media = u.media.erase k ∧ t.md = s.md ∧
      v.ledger = if s.flag Fld.calCtlLedgerEn && s.online k then u.ledger ++ [k] else u.ledger) ∧
    (k ∈ u.media → us ≠ [] → s.online k = true → ∃ t, exec (.mediaStep k) s = .next t ∧
      (linesMissing s k (unitBlocks s k us) ≠ [] → t.cal = s.cal ∧ t.md = s.md ∧ t.regs = s.regs) ∧
      (linesMissing s k (unitBlocks s k us) = [] → ∃ v x, runOf t k = some v ∧ v.media = u.media.erase k ∧ v.wait = u.wait ++ [k] ∧
        Tab.find k t.cal.samples = some x ∧ x.left = us.flatMap (fun e => sampleReads s k e.1))) ∧
    (∀ x, k ∉ u.media → k ∈ u.wait → Tab.find k s.cal.samples = some x → x.left = [] → linesMissing s k (x.before.map (·.1)) = [] →
      let d := mediaDelta s k x.before
      (d.all (· == 0) = true → ∃ t v, exec (.mediaStep k) s = .next t ∧ runOf t k = some v ∧ v.wait = u.wait.erase k ∧ t.md = s.md) ∧
      (d.all (· == 0) = false → linesMissing s k all = [] → all.Nodup → ∃ t v, exec (.mediaStep k) s = .next t ∧ runOf t k = some v ∧ v.wait = u.wait.erase k ∧
        ∀ b l, b ∈ all → Tab.find (blockKey k b) s.md.gauge = some l → Tab.find (blockKey k b) t.md.gauge = some (reseedLine s k d l)))) ∧
  (∀ (s : State) (k : Nat) (u : CalRun), s.running = true → runOf s k = some u → k ∈ u.ledger → s.online k = true →
    let l := s.ledgerOf k
    (∀ t0, l.at_ = some t0 → s.now < t0 + 60000000000 → ∃ t v, exec (.ledgerWrite k) s = .next t ∧ k ∈ t.cal.due ∧ runOf t k = some v ∧ v.ledger = u.ledger.erase k ∧ t.md = s.md) ∧
    ((∀ t0, l.at_ = some t0 → t0 + 60000000000 ≤ s.now) → ledgerBusy s k = false →
      (l.page < (s.profile k).wlPerBlk → linesMissing s k (unitBlocks s k (lunUnits s k [3])) = [] →
        ∃ t v w, exec (.ledgerWrite k) s = .next t ∧ runOf t k = some v ∧ v.ledger = u.ledger.erase k ∧ w ∈ (t.lun k).queue ∧ w.kind = 1 ∧ w.cls = 3 ∧
          w.page = ⟨k, ledgerBlock s k l.second, l.page, true⟩ ∧ t.ledgerOf k = { l with page := l.page + 1, lseq := l.lseq + 1, at_ := some s.now }) ∧
      ((s.profile k).wlPerBlk ≤ l.page → ∃ t w, exec (.ledgerWrite k) s = .next t ∧ t.cal = s.cal ∧
        w ∈ (t.lun (unitLun (ledgerUnit s k (!l.second)))).queue ∧ w.kind = 2 ∧ w.why = .erase (ledgerUnit s k (!l.second)))))
/-! ## The draught engine (chapter 14) -/

/-- R64, R66, R67, R534, R541, R542: a sense frame is taken, or discarded and counted for its parity or its source; a source without a frame for 3 µs is stale, and reported
after 100 µs; the comparator sets STOP after NEVAL evaluations in a row that are over, each setting counted and logged, and clears it after NEVAL that are under the release
levels; and a write of CEIL_EN 0 clears it but for the THERM latch. -/
def Obligations.SensesAndComparator : Prop :=
  ∀ s : State, s.coreOn = true →
    (∀ (src : BitVec 6) (v : BitVec 16) (par : Bool),
      let n := src.toNat
      let odd := (countOnes src + countOnes v + par.toNat) % 2 = 1
      (odd → ∃ t, exec (.senseFrame src v par) s = .next t ∧ t = { s with regs := t.regs } ∧ OtherRegs s t .drgSnsErr 0 ∧
        t.get Fld.drgSnsErrParity = min 65535 (s.get Fld.drgSnsErrParity + 1) ∧ t.get Fld.drgSnsErrBadsrc = s.get Fld.drgSnsErrBadsrc) ∧
      (¬odd → 34 ≤ n → (n < 40 ∨ 60 ≤ n) → ∃ t, exec (.senseFrame src v par) s = .next t ∧ t = { s with regs := t.regs } ∧ OtherRegs s t .drgSnsErr 0 ∧
        t.get Fld.drgSnsErrBadsrc = min 65535 (s.get Fld.drgSnsErrBadsrc + 1) ∧ t.get Fld.drgSnsErrParity = s.get Fld.drgSnsErrParity) ∧
      (¬odd → (n < 34 ∨ (40 ≤ n ∧ n < 60)) →
        let y : Int := if n < 34 then v.toNat else v.toInt
        ∃ t, exec (.senseFrame src v par) s = .next t ∧ t.sense n = { sum := (s.sense n).sum + y, count := (s.sense n).count + 1, last := some y, at_ := s.now } ∧
          (∀ m, m ≠ n → t.sense m = s.sense m) ∧ t.bit (staleKind n) 0 (n % 32) = false ∧ OtherRegs s t (staleKind n) 0)) ∧
    (∀ n, populated s n = true → (s.sense n).stale = none → (s.sense n).at_ + 3000 ≤ s.now → ∃ t, exec (.sourceStale n) s = .next t ∧
      t.sense n = { s.sense n with stale := some s.now } ∧ t.bit (staleKind n) 0 (n % 32) = true ∧ OtherRegs s t (staleKind n) 0) ∧
    (∀ n t0, (s.sense n).stale = some t0 → (s.sense n).reported = false → t0 + 100000 ≤ s.now → ∃ t e, exec (.staleReport n) s = .next t ∧
      t.flag Fld.drgStsStale = true ∧ t.log = (e :: s.log).take 2048 ∧ e.unit = uDRG ∧ e.code = 0x1012 ∧ (t.sense n).reported = true) ∧
    (s.flag Fld.drgCtlCeilEn = true → s.dg.evalAt + 1000 ≤ s.now → (∀ n ∈ ceilSrcs s, (s.sense n).last.isSome = true) →
      let l := ceilSrcs s
      let of (n : Nat) : Int := ((s.sense n).last).getD 0
      let sum : Int := min 0xFFFFF (((l.filter fun n => decide (n < 34)).map of).foldl (· + ·) 0)
      let iLim : Int := s.get Fld.drgCeilCfgILim
      let tLim : Int := (BitVec.ofNat 16 (s.get Fld.drgCeilCfg2TLim)).toInt
      let neval := max 1 (min 8 (s.get Fld.drgCeilCfgNeval))
      let stale := ∃ n ∈ l, (s.sense n).stale.isSome = true
      (stale ∨ iLim < sum ∨ (∃ n ∈ l, 40 ≤ n ∧ tLim < of n) → ∃ t, exec .ceilingEvaluation s = .next t ∧ t.dg.above = s.dg.above + 1 ∧ t.dg.below = 0 ∧ t.dg.evalAt = s.now ∧
        (neval ≤ s.dg.above + 1 → t.flag Fld.drgStsStop = true ∧ (s.flag Fld.drgStsStop = false →
          t.get Fld.drgStsStops = min 65535 (s.get Fld.drgStsStops + 1) ∧ ∃ e, t.log = (e :: s.log).take 2048 ∧ e.unit = uDRG ∧ e.code = 0x1013)) ∧
        (s.dg.above + 1 < neval → t.dg.stop = s.dg.stop)) ∧
      (¬stale → sum ≤ iLim - 8 * (s.get Fld.drgCeilCfgIHyst : Int) → (∀ n ∈ l, 40 ≤ n → of n ≤ tLim - (s.get Fld.drgCeilCfg2THyst : Int)) →
        ∃ t, exec .ceilingEvaluation s = .next t ∧ t.dg.below = s.dg.below + 1 ∧ t.dg.above = 0 ∧
        (neval ≤ s.dg.below + 1 → t.flag Fld.drgStsStop = s.flag Fld.trpStsTherm))) ∧
    (∀ (r : Req) (w : Word), Steady s → Written s r .drgCtl 0 w →
      (Fld.drgCtlCeilEn.get w = 0 → ∃ t, exec (.ceilEnWrite r w) s = .next t ∧ t.flag Fld.drgCtlCeilEn = false ∧ t.dg.stop = false ∧ t.flag Fld.drgStsStop = s.flag Fld.trpStsTherm) ∧
      (Fld.drgCtlCeilEn.get w = 1 → s.flag Fld.drgCtlCeilEn = false → ∃ t, exec (.ceilEnWrite r w) s = .next t ∧ t.flag Fld.drgCtlCeilEn = true ∧ t.dg.stop = s.dg.stop ∧
        t.dg.above = 0 ∧ t.dg.below = 0 ∧ OtherRegs s t .drgCtl 0 ∧ t.resps = okSent s r))

/-- R533, R535, R536, R538, R539, R544, R545, R529, R526, R527, R528: EN 1 is refused without sources or with sources that do not go together, else loads the loop's state; EN 0 takes
the loop away; a tick runs each enabled loop's generator and law, holds a frozen one, and forms the levels, which act 1 µs later; a write of BW_MAX fills or limits
the buckets; a grant takes its request's bytes and counts it, none issues under STOP; and an END report lowers the count. -/
def Obligations.LoopsAndGrants : Prop :=
  ∀ s : State,
    (∀ (r : Req) (n : Nat) (w : Word), n < 16 → Steady s → Written s r .drgLoopCtl n w →
      (Fld.drgLoopCtlEn.get w = 1 → s.flag Fld.drgLoopCtlEn n = false → ∃ t, exec (.loopEnable r n w) s = .next t ∧ t.resps = okSent s r ∧
        (loopRefused s n = true → t.flag Fld.drgLoopCtlEn n = false ∧ t.flag Fld.drgStsCfgerr = true ∧ t.dg = s.dg) ∧
        (loopRefused s n = false → t.flag Fld.drgLoopCtlEn n = true ∧ t.reg .drgLoopSp n = loopTgt s n ∧ t.reg .drgLoopI n = s.reg .drgLoopIinit n ∧
          (t.loop n).v = 0 ∧ (t.loop n).a = 0 ∧ (t.loop n).load = 1)) ∧
      (Fld.drgLoopCtlEn.get w = 0 → ∃ t, exec (.loopDisable r n w) s = .next t ∧ t.flag Fld.drgLoopCtlEn n = false ∧ t.dg = s.dg ∧ OtherRegs s t .drgLoopCtl n ∧
        t.resps = okSent s r) ∧
      (Fld.drgLoopCtlEn.get w = s.get Fld.drgLoopCtlEn n → ∃ t, exec (.loopFreezeWrite r n w) s = .next t ∧ t.get Fld.drgLoopCtlFreeze n = Fld.drgLoopCtlFreeze.get w ∧
        t.dg = s.dg ∧ OtherRegs s t .drgLoopCtl n ∧ t.resps = okSent s r)) ∧
    (s.coreOn = true → s.dg.tickAt + 10000 ≤ s.now → ∃ t lv, exec .sampleTick s = .next t ∧ t.dg.next = some (s.now, lv) ∧ lv.length = 16 ∧ t.dg.tickAt = s.now ∧
      (∀ k, (t.sense k).count = 0 ∧ (t.sense k).sum = 0 ∧ (t.sense k).last = (s.sense k).last) ∧
      (∀ g, g < 16 → (∀ n, n < 16 → s.flag Fld.drgLoopCtlEn n = true → (s.get Fld.drgLoopCtlGrp n).testBit g = false) → lv[g]? = some 0x10000) ∧
      ∀ n, n < 16 → s.flag Fld.drgLoopCtlEn n = true → (s.loop n).load ≠ 2 →
        (∀ g u, g < 16 → (s.get Fld.drgLoopCtlGrp n).testBit g = true → Tab.find g (t.loop n).outs = some u → ∃ a, lv[g]? = some a ∧ a ≤ u) ∧
        (s.flag Fld.drgLoopCtlFreeze n = true → (t.loop n).outs = (s.loop n).outs ∧ (t.loop n).v = (s.loop n).v ∧ (t.loop n).a = (s.loop n).a ∧
          t.reg .drgLoopSp n = s.reg .drgLoopSp n ∧ t.reg .drgLoopI n = s.reg .drgLoopI n) ∧
        (s.flag Fld.drgLoopCtlFreeze n = false →
          let x := s.loop n
          let gen := generator (loopTgt s n) (limitOf (s.reg .drgLoopVmax n)) (limitOf (s.reg .drgLoopAmax n)) (limitOf (s.reg .drgLoopJmax n)) (s.reg .drgLoopSp n) x.v x.a
          (t.reg .drgLoopSp n, (t.loop n).v, (t.loop n).a) = gen ∧
          ((∀ k ∈ loopSrcs s n, (s.sense k).count ≠ 0) →
            let i := s.reg .drgLoopI n
            let yq : Word := BitVec.ofInt 32 ((loopInput n s).1 * 65536)
            let e := aluSubs gen.1 yq
            let p := aluMulq 16 (gainOf (s.reg .drgLoopKp n)) e.val
            let dy := aluSubs (if x.load = 0 then x.yq else yq) yq
            let d := aluMulq 16 (gainOf (s.reg .drgLoopKd n)) dy.val
            let base := aluAdd (aluAdd p.val i).val d.val
            let bad := e.v || p.v || dy.v || d.v || (aluAdd p.val i).v || base.v
            let st := aluMulq 16 (gainOf (s.reg .drgLoopKi n)) e.val
            t.get Fld.drgLoopStsBase n = (if bad then 0 else (clampW 0 0x10000 base.val).toNat) ∧ (t.loop n).yq = yq ∧
            (loopStale s n = true ∨ st.v = true → t.reg .drgLoopI n = i) ∧
            (loopStale s n = false → st.v = false → 0 < st.val.toInt → bad = false → base.val.toInt < 0x10000 → t.reg .drgLoopI n = i + st.val) ∧
            (loopStale s n = false → st.v = false → st.val.toInt < 0 → 0 ≤ i.toInt → (t.reg .drgLoopI n).toInt = max 0 (i.toInt + st.val.toInt)) ∧
            (s.flag Fld.drgLoopCtlFfEn n = false → ∀ g, g < 16 → (s.get Fld.drgLoopCtlGrp n).testBit g = true → Tab.find g (t.loop n).outs =
              some (min (if bad then 0 else (clampW 0 0x10000 base.val).toNat) (if loopStale s n then staleLvl s n else 0x10000)))))) ∧
    (∀ t0 lv, s.coreOn = true → s.dg.next = some (t0, lv) → t0 + 1000 ≤ s.now → ∃ t, exec .admissionTakeEffect s = .next t ∧ t.dg = { s.dg with next := none } ∧
      (∀ g a, g < 16 → lv[g]? = some a → a ≤ 0x10000 → t.get Fld.drgGrpStsAdmit g = a) ∧ ∀ k i, k ≠ .drgGrpSts → t.reg k i = s.reg k i) ∧
    (∀ (r : Req) (w : Word), Steady s → Written s r .drgAdmCfg 0 w →
      let bw := Fld.drgAdmCfgBwMax.get w
      let cap : Int := 2 * bw * 256
      ∃ t, exec (.bwMaxWrite r w) s = .next t ∧ t.get Fld.drgAdmCfgBwMax = bw ∧ t.get Fld.drgAdmCfgOpsMax = Fld.drgAdmCfgOpsMax.get w ∧ OtherRegs s t .drgAdmCfg 0 ∧
        t.resps = okSent s r ∧ ∀ g, g < 16 → t.bucketOf g = if bw = 0 then s.bucketOf g else if bwMax s = 0 then cap else max (-cap) (min cap (s.bucketOf g))) ∧
    (∀ g, s.running = true → g < 16 → (s.flag Fld.drgStsStop = true → exec (.draughtGrant g) s = .next s) ∧
      ∀ x, pickGrant s g = some x → ∃ t, exec (.draughtGrant g) s = .next t ∧
        (bwMax s ≠ 0 → t.bucketOf g = max (-(2 * (bwMax s : Int) * 256)) (s.bucketOf g - x.bytes)) ∧
        (∀ k, x.lun = some k → t.lun k = { s.lun k with granted := true } ∧ (∀ j, j ≠ k → t.lun j = s.lun j) ∧
          t.get Fld.drgGrpStsInfl g = min Fld.drgGrpStsInfl.max (s.get Fld.drgGrpStsInfl g + 1)) ∧
        (∀ a q b l, x.lun = none → (s.chan x.ch).rawQ = a :: q → a.cycles = (b, true) :: l → (t.chan x.ch).rawQ = { a with cycles := (b, false) :: l } :: q ∧ t.regs = s.regs)) ∧
    (∀ a e b, s.coreOn = true → nextReport s.md.ended = some (a, e, b) → ∃ t, exec .draughtEndReport s = .next t ∧
      t.get Fld.drgGrpStsInfl (lunCh e.op.lun / 8) = s.get Fld.drgGrpStsInfl (lunCh e.op.lun / 8) - 1 ∧ OtherRegs s t .drgGrpSts (lunCh e.op.lun / 8) ∧
      t.md.ended = if e.judged then a ++ b else a ++ { e with reported := true } :: b)

/-! ## Resets, power states and the banked state (chapters 2 and 18) -/

/-- R36, R38, R9, R654, R666, R37, R80, R614, R48: a low input of less than its minimum width leaves its islands undefined, and the engine in reset until one of full
width (log entry 100); the ember reset clears what the ember island holds, and in P2 and P3 starts the engine anew (log entry 102); a cold
reset gives every register its reset word but what the ember island holds, and loses all but that and the hearthstone row; a warm reset keeps the fields so marked and the log
as well; and the release of the last input starts the ROM stage, loads the nanosecond counter, shows the row and grants credits, unless the supplies are off; an
uncorrectable row banks. In P2 a reset loses what VDD_RET holds: log entry 43. -/
def Obligations.ResetInputs : Prop :=
  ∀ s : State,
    (∀ width, width * 32768 < 4000000000 → exec (.rstEmberAssert width) s = .next { s with pwr := { s.pwr with emberLow := true, emberStuck := true } }) ∧
    (∀ width, width < 10000 → exec (.rstColdAssert width) s = .next { s with pwr := { s.pwr with coldLow := true, coreStuck := true } }) ∧
    (∀ width, width < 1000 → exec (.rstWarmAssert width) s = .next { s with pwr := { s.pwr with warmLow := true, coreStuck := true } }) ∧
    (∀ width, 4000000000 ≤ width * 32768 → asleep s = true → ∃ t, exec (.rstEmberAssert width) s = .next t ∧ t.pwr.st = .p0 ∧ t.pwr.emberLow = true ∧
      t.pwr.emberStuck = false ∧ t.pwr.enCore = true ∧ t.pwr.enVccq = true ∧ t.pwr.ember = 0 ∧ t.pwr.wakeSince = none ∧ t.log = [] ∧ t.wp = State.reset.wp ∧
      t.sec.row = s.sec.row ∧ ∀ k i, t.reg k i = regReset k i) ∧
    (∀ width, 4000000000 ≤ width * 32768 → asleep s = false → ∃ t, exec (.rstEmberAssert width) s = .next t ∧ t = { s with regs := t.regs, pwr := t.pwr } ∧
      t.pwr = { s.pwr with emberLow := true, emberStuck := false, ember := 0, emberFrac := 0, embLost := false, emberQ := [], tripTodo := 0, enCore := true, enVccq := true, wakeSince := none } ∧
      (∀ x ∈ emberHeld, t.reg x.1 x.2.1 &&& x.2.2 = regReset x.1 x.2.1 &&& x.2.2 ∧ t.reg x.1 x.2.1 &&& ~~~x.2.2 = s.reg x.1 x.2.1 &&& ~~~x.2.2) ∧
      (∀ k i, (∀ m, (k, i, m) ∉ emberHeld) → t.reg k i = s.reg k i)) ∧
    (∀ width, 10000 ≤ width → ∃ t, exec (.rstColdAssert width) s = .next t ∧ t.inReset = true ∧ t.pwr.coldLow = true ∧ t.pwr.coreStuck = false ∧
      t.pwr.ember = s.pwr.ember ∧
      (s.pwr.st = .p2 ∨ s.pwr.st = .p3 → t.pwr.st = .p3) ∧ (s.pwr.st ≠ .p2 → s.pwr.st ≠ .p3 → t.pwr.st = .p0) ∧
      t = { State.reset with part := s.part, regs := t.regs, freeCtr := s.freeCtr, resps := s.resps, pwr := t.pwr, sec := { row := s.sec.row }, fab := { sent := s.fab.sent }, xspi := { sent := s.xspi.sent }, pending := s.pending } ∧
      (∀ x ∈ emberHeld, t.reg x.1 x.2.1 &&& x.2.2 = s.reg x.1 x.2.1 &&& x.2.2 ∧ t.reg x.1 x.2.1 &&& ~~~x.2.2 = regReset x.1 x.2.1 &&& ~~~x.2.2) ∧
      (∀ k i, (∀ m, (k, i, m) ∉ emberHeld) → t.reg k i = regReset k i)) ∧
    (∀ width, 1000 ≤ width → ∃ t, exec (.rstWarmAssert width) s = .next t ∧ t.pwr.warmLow = true ∧ t.pwr.coreStuck = false ∧ t.log = s.log ∧ t.reg .glbLogSeq = s.reg .glbLogSeq ∧ t.banked = false ∧
      t.get Fld.glbBankStsCause = s.get Fld.glbBankStsCause ∧
      t = { State.reset with part := s.part, regs := t.regs, freeCtr := s.freeCtr, resps := s.resps, pwr := t.pwr, sec := { row := s.sec.row }, fab := { sent := s.fab.sent }, xspi := { sent := s.xspi.sent }, log := s.log, pending := s.pending } ∧
      (∀ x ∈ emberHeld ++ warmHeld, t.reg x.1 x.2.1 &&& x.2.2 = s.reg x.1 x.2.1 &&& x.2.2 ∧ t.reg x.1 x.2.1 &&& ~~~x.2.2 = regReset x.1 x.2.1 &&& ~~~x.2.2) ∧
      (∀ k i, (∀ m, (k, i, m) ∉ emberHeld ++ warmHeld) → t.reg k i = regReset k i)) ∧
    (∀ rowOk, s.lowReset = true →
      (asleep s = true ∨ s.pwr.coreStuck = true ∨ s.pwr.emberStuck = true → exec (.resetRelease rowOk) s = .next { s with pwr := { s.pwr with emberLow := false, coldLow := false, warmLow := false } }) ∧
      (asleep s = false → s.pwr.coreStuck = false → s.pwr.emberStuck = false → ∃ t, exec (.resetRelease rowOk) s = .next t ∧ t.inReset = false ∧
        (∀ p v, p < 16 → v < 5 → Tab.get 0 (credKey p v) t.fab.inReq = (if v = 4 then 4 else 8) ∧ Tab.get 0 (datKey p v) t.fab.inDat = (if v = 4 then 16 else 64)) ∧
        t.now = s.pwr.ember.toNat * 1000000000 / 32768 % 2 ^ 64 ∧ t.sec = s.sec ∧
        (rowOk = true → t.stage = 0 ∧ Logged s t uGLB 0x100 ∧ t.get Fld.secStsLc = lifecycleOf s.sec.row ∧ t.get Fld.secCtrKrb = countOnes s.sec.row.krb ∧
          (∀ i, i < 4 → t.reg .secId i = (s.sec.row.deviceId >>> (32 * i)).setWidth 32) ∧ t.banked = s.banked) ∧
        (rowOk = false → s.banked = false → BankedBy t 0x01 t.now ∧ t.get Fld.glbBootStsFailCode = 0x20 ∧ t.get Fld.glbBootStsFailStage = 0)))

/-- R34, R35, R75, R69, R647, R657, R658, Table 18-5, R660, R654: a clock fault and a core supply below its limit bank the engine; a pulse of 10 ns sets a trip's latch, counts it and aborts an
entry, and one below 2 ns does nothing; the core island acts on a latch: in RUN FW banks, THERM forces STOP and PFAIL starts the flush; a clear is refused while the input is
low, and one with a fall in the same cycle leaves the latch set; and the writes of ember-held registers take effect in order. The supply's fall is no fault while an entry or a
wake runs. A pulse between is open: log entry 2. -/
def Obligations.ClockFaultsAndTrips : Prop :=
  ∀ s : State,
    (s.coreOn = true → s.banked = false →
      (∃ t, exec .clockMonitorFault s = .next t ∧ BankedBy t 0x04 s.now) ∧
      (s.flag Fld.pwrStsEmbClkLoss = false → ∃ t, exec .embClkLoss s = .next t ∧ BankedBy t 0x04 s.now ∧ t.flag Fld.pwrStsEmbClkLoss = true ∧ t.pwr.embLost = true) ∧
      (s.pwr.enCore = true → (s.pwr.st = .p0 ∨ s.pwr.st = .p1) → s.pwr.waking = false →
        ∃ t, exec .pwrGoodCoreLow s = .next t ∧ BankedBy t 0x04 s.now ∧ t.pwr.goodCore = false)) ∧
    (s.coreOn = true → s.pwr.enCore = true → ¬Steady s ∨ s.pwr.waking = true → exec .pwrGoodCoreLow s = .next { s with pwr := { s.pwr with goodCore := false } }) ∧
    (s.coreOn = false → s.pwr.emberDown = false → s.flag Fld.pwrStsEmbClkLoss = false → ∃ t, exec .embClkLoss s = .next t ∧ t.flag Fld.pwrStsEmbClkLoss = true ∧
      t = { s with regs := t.regs, pwr := { s.pwr with embLost := true } } ∧ OtherRegs s t .pwrSts 0) ∧
    (s.pwr.emberDown = false → ∀ (trip : Trip) (width : Nat) (held : Bool),
      let n := tripBit trip
      ∃ t, exec (.tripLatch trip width held) s = .next t ∧ t.bit .trpSts 0 (8 + n) = held ∧
        (∀ m, m < 3 → m ≠ n → t.bit .trpSts 0 m = s.bit .trpSts 0 m) ∧ (s.bit .trpSts 0 n = true → t.bit .trpSts 0 n = true ∧ t.reg .trpCnt = s.reg .trpCnt) ∧
        (width < 2 → t.bit .trpSts 0 n = s.bit .trpSts 0 n ∧ OtherRegs s t .trpSts 0 ∧ t.pwr.st = s.pwr.st ∧ t.pwr.tripTodo = s.pwr.tripTodo) ∧
        (10 ≤ width → t.bit .trpSts 0 n = true ∧ (s.bit .trpSts 0 n = false → t.get Fld.trpCntLatches = min 255 (s.get Fld.trpCntLatches + 1) ∧
          (s.coreOn = true → t.pwr.tripTodo = s.pwr.tripTodo ||| (1#3 <<< n)) ∧ (s.coreOn = false → t.pwr.tripTodo = s.pwr.tripTodo) ∧
          (¬Steady s → t.pwr.st = .p0 ∧ t.get Fld.pwrStsRefuse = 9 ∧ t.get Fld.pwrCntAbort = min 255 (s.get Fld.pwrCntAbort + 1) ∧ Logged s t uPWR 0x1019) ∧
          (Steady s → t.pwr.st = s.pwr.st ∧ ∀ k i, k ≠ .trpSts → k ≠ .trpCnt → t.reg k i = s.reg k i)))) ∧
    (s.coreOn = true → s.pwr.tripTodo ≠ 0 → ∃ t, exec .tripAct s = .next t ∧ t.pwr.tripTodo = 0 ∧ PendsAll t 49 ∧
      (tripInRun s = false → (∀ n : Nat, s.pwr.tripTodo = 1#3 <<< n → Logged s t uTRP 0x1017) ∧ t.wp = s.wp ∧ t.banked = s.banked) ∧
      (tripInRun s = true → s.pwr.tripTodo = 4 → BankedBy t 0x0C s.now) ∧
      (tripInRun s = true → s.pwr.tripTodo = 2 → s.flag Fld.trpStsTherm = true → t.flag Fld.drgStsStop = true ∧ t.wp = s.wp) ∧
      (tripInRun s = true → s.pwr.tripTodo = 1 → s.flag Fld.mapFlushStsActive = false → s.flag Fld.mapFlushStsDone = false → t.flag Fld.mapFlushStsActive = true ∧ t.wp.pfail = true)) ∧
    (∀ (low fall : BitVec 3) w q, s.pwr.emberDown = false → s.pwr.emberQ = (.trpSts, w) :: q → ∃ t, exec (.tripClear low fall) s = .next t ∧ t.pwr.emberQ = q ∧
      (∀ n, n < 3 → t.bit .trpSts 0 (8 + n) = (low ||| fall).getLsbD n ∧
        t.bit .trpSts 0 n = (fall.getLsbD n || (s.bit .trpSts 0 n && !(w.getLsbD n && !low.getLsbD n))) ∧
        t.get (relatch n) = min 255 (s.get (relatch n) + (w.getLsbD n && !fall.getLsbD n && low.getLsbD n).toNat)) ∧
      (s.coreOn = true → t.flag Fld.drgStsStop = (s.dg.stop || t.bit .trpSts 0 1))) ∧
    (∀ k w q, s.pwr.emberDown = false → s.pwr.emberQ = (k, w) :: q → k ∈ [RegKind.pwrWakeLo, .pwrWakeHi, .trpCnt] → ∃ t, exec .emberWriteEffect s = .next t ∧
      t = { s with regs := t.regs, pwr := { s.pwr with emberQ := q, embLost := false } } ∧ OtherRegs s t k 0 ∧ ∀ f ∈ k.fields, t.get f = if f.acc = .rw then f.get w else s.get f) ∧
    (∀ w q, s.pwr.emberDown = false → s.pwr.emberQ = (.pwrSts, w) :: q →
      (∃ t, exec (.embClkLossClear false) s = .next t ∧ t = { s with regs := t.regs, pwr := { s.pwr with emberQ := q, embLost := false } } ∧ OtherRegs s t .pwrSts 0 ∧
        t.flag Fld.pwrStsEmbClkLoss = (s.flag Fld.pwrStsEmbClkLoss && Fld.pwrStsEmbClkLoss.get w == 0)) ∧
      (∃ t, exec (.embClkLossClear true) s = .next t ∧ t.pwr.emberQ = q ∧ t.pwr.embLost = true ∧ t.flag Fld.pwrStsEmbClkLoss = true))

/-- R644, R646, Table 18-2, R647, R648, R645, R650, R651, R653, R655, R667: P1 is entered once every condition holds, and a doorbell ends it; a write to any block but PWR aborts an entry into P2 or P3; a request for P2 or P3 is refused with the first condition that fails, else
parks the channels and withdraws the credits; the entry message aborts if one has ceased to hold, which grants the credits again (log entry 103), else turns the supplies
off, and with them the draught registers; the alarm and the platform turn them on, and 100 ms without
power-good turn them off again; a wake from P2 restores the state and starts the tests, one from P3 runs start-up; and DRAM_IDLE_OK rises. P1_IDLE and SR_HOLD count from the last time
that was not quiet (log entry 40), and a write that asks for both states asks for P3 (log entry 42). -/
def Obligations.SleepAndWake : Prop :=
  ∀ s : State,
    (s.running = true → s.stage = 9 → s.pwr.st = .p0 → s.pwr.restartAt ≤ s.now → s.flag Fld.pwrCtlP1En = true → arrayQuiet s = true → calQuiet s = true → s.reqs = [] →
      scansQuiet s = true → moversQuiet s = true → s.pwr.idleFrom + 1000 * max 1 (s.get Fld.pwrCfgP1Idle) ≤ s.now →
      ∃ t, exec .p1Entry s = .next t ∧ t = { s with regs := t.regs, ch := t.ch, pwr := { s.pwr with st := .p1 } } ∧
        t.ch = s.ch.map (fun e => (e.1, { e.2 with pins := {} })) ∧ OtherRegs s t .pwrCnt 0 ∧
        t.get Fld.pwrCntP1 = min 65535 (s.get Fld.pwrCntP1 + 1)) ∧
    (∀ (r : Req) (w : Word) (mirs : List (Nat × List Byte)) (p3 : Bool), Written s r .pwrCtl 0 w → (s.pwr.st = .p0 ∨ s.pwr.st = .p1) →
      Fld.pwrCtlP3Req.get w = p3.toNat → (p3 = false → Fld.pwrCtlP2Req.get w = 1) →
      let u := scanMir mirs (s.plainWrite .pwrCtl 0 w)
      let c := entryRefused p3 u
      ∃ t, exec (if p3 then .p3Request r w mirs else .p2Request r w mirs) s = .next t ∧ t.flag Fld.pwrCtlP1En = decide (Fld.pwrCtlP1En.get w = 1) ∧ t.resps = okSent s r ∧
        (c ≠ 0 → t.pwr = s.pwr ∧ t.ch = s.ch ∧ t.fab = s.fab ∧ t.get Fld.pwrStsRefuse = c) ∧
        (c = 0 → t.pwr = { s.pwr with st := .entering p3, parked := true, fromP1 := s.pwr.st == .p1, dramIdle := true } ∧ t.fab = { s.fab with inReq := [], inDat := [] } ∧
          (∀ e ∈ t.ch, e.2.wpN = false ∧ e.2.pins = {}) ∧ u.stage = 9 ∧ u.banked = false ∧ s.reqs = [] ∧ arrayQuiet u = true ∧ occupancy u = 0 ∧
          (u.reg .trpSts &&& 7) = 0 ∧ debugLevel u ≠ 2 ∧ (p3 = true → ∀ e ∈ s.wp.streams, e.2.page = []))) ∧
    (∀ p3, s.coreOn = true → s.pwr.st = .entering p3 →
      (entryRefused p3 s ≠ 0 → ∃ t, exec .entryMessage s = .next t ∧ Aborted s t ∧ Logged s t uPWR 0x1019 ∧ t.fab = grantIn s.fab ∧
        t.ch = s.ch.map (fun e => (e.1, { e.2 with wpN := decide (3 ≤ e.2.stage) })) ∧ t.get Fld.pwrStsRefuse = 9 ∧ t.get Fld.pwrCntAbort = min 255 (s.get Fld.pwrCntAbort + 1)) ∧
      (entryRefused p3 s = 0 → ∃ t, exec .entryMessage s = .next t ∧ t.coreOn = false ∧ t.pwr.enCore = false ∧ t.pwr.enVccq = false ∧ t.pwr.goodCore = false ∧ t.pwr.goodVccq = 0 ∧
        t.get Fld.dbgStsLevel = 0 ∧ t.sec.chal = none ∧
        (p3 = false → t.pwr.st = .p2 ∧ t.get Fld.pwrCntP2 = min 255 (s.get Fld.pwrCntP2 + 1) ∧ Logged s t uPWR 0x1019 ∧ t.wp = s.wp ∧ t.md = s.md ∧ t.sec.slots = s.sec.slots ∧
          (∀ k i, k ∉ [RegKind.pwrCnt, .dbgSts, .dbgChal, .glbLogSeq] → k.block ≠ .drg → t.reg k i = s.reg k i) ∧ ∀ k i, k.block = .drg → t.reg k i = regReset k i) ∧
        (p3 = true → t.pwr.st = .p3 ∧ t.pwr.dramIdle = true ∧ t.log = [] ∧ t.sec.slots = [] ∧ ∀ k i, (∀ m, (k, i, m) ∉ emberHeld) → t.reg k i = regReset k i))) ∧
    (asleep s = true → s.pwr.emberDown = false →
      (s.pwr.wakeSince = none → s.pwr.embLost = false → s.flag Fld.pwrWakeHiAlarmEn = true → s.pwr.ember.toNat = s.get Fld.pwrWakeHiAt * 2 ^ 32 + s.get Fld.pwrWakeLoAt →
        ∃ t, exec .wakeAlarm s = .next t ∧ t.get Fld.pwrStsWake = 1 ∧ OtherRegs s t .pwrSts 0 ∧
          t = { s with regs := t.regs, pwr := { s.pwr with enCore := true, enVccq := true, wakeSince := some (emberNs s.pwr) } }) ∧
      (s.pwr.enCore = false → s.pwr.goodCore = false → ∃ t, exec .wakePlatform s = .next t ∧ t.get Fld.pwrStsWake = 2 ∧ OtherRegs s t .pwrSts 0 ∧
        t = { s with regs := t.regs, pwr := { s.pwr with goodCore := true, enCore := true, enVccq := true, wakeSince := some (emberNs s.pwr) } }) ∧
      (∀ t0, s.pwr.wakeSince = some t0 → t0 + 100000000 ≤ emberNs s.pwr → exec .powerGoodTimeout s = .next
        { s with pwr := { s.pwr with enCore := false, enVccq := false, goodCore := false, wakeSince := none } })) ∧
    (s.inReset = false → s.pwr.wakeSince.isSome = true →
      (s.pwr.st = .p2 → (∃ t, exec (.wakeFromP2 true) s = .next t ∧ t.coreOn = true ∧ t.pwr.waking = true ∧ t.stage = 2 ∧ t.fab = grantIn { s.fab with busyAt := t.now } ∧
          t.now = s.pwr.ember.toNat * 1000000000 / 32768 % 2 ^ 64 ∧ t.pwr.goodVccq = 0xFFFF ∧ t.wp = { s.wp with twin := t.wp.twin } ∧ t.md = s.md ∧ Logged s t uPWR 0x1019 ∧
          (∀ n, n < 5 → Tab.find n t.pwr.wdog = some (t.now + 1000000 * max 1 (s.get (if n = 0 then Fld.pwrWdogCfgFbMs else Fld.pwrWdogCfgPolMs)))) ∧
          (∀ k e, (k, e) ∈ s.leases → (k, t.now + (e - s.now)) ∈ t.leases)) ∧
        (s.banked = false → ∃ t, exec (.wakeFromP2 false) s = .next t ∧ BankedBy t 0x07 t.now)) ∧
      (s.pwr.st = .p3 → ∀ rowOk, ∃ t, exec (.wakeFromP3 rowOk) s = .next t ∧ t.coreOn = true ∧ t.pwr.wokeP3 = true ∧ t.pwr.dramIdle = false ∧ t.fab = grantIn { s.fab with busyAt := t.now } ∧
        t.now = s.pwr.ember.toNat * 1000000000 / 32768 % 2 ^ 64 ∧ (rowOk = true → t.stage = 0) ∧ (rowOk = false → s.banked = false → BankedBy t 0x01 t.now))) ∧
    (∀ (r : Req) (k : RegKind) (i : Nat) (w ev : Word), regAt (k.offset i) = some (k, i) → Written s r k i w → ¬Steady s →
      (k ∈ [RegKind.cryCtl, .drgLoopSp, .hrvMod] → ∃ t, exec (.registerWrite r (k.offset i) w ev) s = .next t ∧ Aborted s t ∧
        t.get Fld.pwrStsRefuse = 9 ∧ t.get Fld.pwrCntAbort = min 255 (s.get Fld.pwrCntAbort + 1) ∧ Logged s t uPWR 0x1019 ∧ t.resps = okSent s r) ∧
      (k ∈ [RegKind.pwrCfg, .pwrWdogCfg] → ∃ t, exec (.registerWrite r (k.offset i) w ev) s = .next t ∧ t.pwr = s.pwr ∧ OtherRegs s t k i ∧ t.resps = okSent s r)) ∧
    (∀ (r : Req) (n : Nat) (w : Word), n < 4096 → Written s r .slqDb n w → s.pwr.st = .p1 → ∃ t, exec (.sluiceDoorbell r n w) s = .next t ∧
      t.pwr = { s.pwr with st := .p0, restartAt := s.now + 1500, dramIdle := t.pwr.dramIdle } ∧ t.resps = okSent s r) ∧
    (s.coreOn = true → s.fab.busyAt + 1000 * s.get Fld.pwrCfgSrHold ≤ s.now → s.fab.outst = [] → s.fab.waiting = [] → s.fab.held = [] → panAtRisk s = false → classZeroOwned s = false →
      exec .dramIdleOkRise s = .next { s with pwr := { s.pwr with dramIdle := true } })

/-- R661, R662, R663, R665, R667, R668, Table 18-8, R670, R674: a request of the firmware banks with the right CONFIRM only; a banked engine disables its movers but 40 to 47, drops its flue
commands, ends the slots that have not passed GO and owes every request one BANKED entry; a channel without slots takes its levels, the last one setting PINS_DONE; a watchdog is kicked by its
core and banks when it runs out; memory errors are counted and contained; a broken wait restarts the younger request, and its fourth break banks; and an entry of the log is
copied to its place in the mirror. -/
def Obligations.BankedState : Prop :=
  ∀ s : State,
    (∀ (r : Req) (w : Word), Written s r .glbBankReq 0 w → Steady s → s.banked = false → ∃ t, exec (.bankRequest r w) s = .next t ∧ t.resps = okSent s r ∧
      (Fld.glbBankReqGo.get w = 1 → Fld.glbBankReqConfirm.get w = 0x424B → BankedBy t 0x0D s.now) ∧
      (Fld.glbBankReqGo.get w = 0 ∨ Fld.glbBankReqConfirm.get w ≠ 0x424B → t.regs = s.regs ∧ t.pwr = s.pwr)) ∧
    (s.coreOn = true → s.banked = true →
      (∃ t, exec .clockMonitorFault s = .next t ∧ Logged s t uGLB 0x204 ∧ OtherRegs s t .glbLogSeq 0 ∧ t = { s with regs := t.regs, log := t.log }) ∧
      (s.pwr.bankTodo = true → (∀ e ∈ s.mov.ctxs, 40 ≤ e.1 / 32 ∧ e.1 / 32 ≤ 47) → ∃ t, exec .bankedEntry s = .next t ∧ t.pwr.bankTodo = false ∧ t.get Fld.glbBankStsChWait = 128 ∧
        (∀ m, m < 64 → (m < 40 ∨ 47 < m) → t.flag Fld.belCtlEn m = false) ∧
        (∀ f, f < 4 → (t.flueOf f).cmd = none ∧ t.flag Fld.slqFstsBusy f = false) ∧
        (∀ c, c < 128 → ∀ x ∈ (t.chan c).slots, x.2.went = true) ∧
        (∀ q, s.reqs = [(q.rtag, q)] → (t.ring q.ring).queue.getLast?.map (fun e => (e.rtag, e.status, e.last)) = some (q.rtag, 0x11, true) ∧
          (∀ e ∈ (t.ring q.ring).queue, e.rtag = q.rtag → e.nop = false → e.status = 0x11) ∧ (t.rq q.rtag).bind (fun q => q.status) = some 0x11)) ∧
      (∀ c, s.pwr.bankTodo = false → c < 128 → (s.chan c).banked = false → (s.chan c).slots = [] → ∃ t, exec (.bankedPins c) s = .next t ∧
        t.chan c = { s.chan c with banked := true, pins := {}, wpN := false, items := [] } ∧ (∀ d, d ≠ c → t.chan d = s.chan d) ∧
        t.get Fld.glbBankStsChWait = s.get Fld.glbBankStsChWait - 1 ∧ (s.get Fld.glbBankStsChWait ≤ 1 → t.flag Fld.glbBankStsPinsDone = true) ∧
        (1 < s.get Fld.glbBankStsChWait → OtherRegs s t .glbBankSts 0 ∧ t.log = s.log))) ∧
    (∀ (r : Req) (w : Word), Written s r .pwrWdogKick 0 w → ∃ t, exec (.watchdogKick r w) s = .next t ∧ t.resps = okSent s r ∧ t.regs = s.regs ∧
      (coreOf r.src = none → t.pwr = s.pwr) ∧ (∀ n t0, coreOf r.src = some n → Tab.find n s.pwr.wdog = some t0 → t.pwr.wdog = Tab.put n
        (s.now + 1000000 * max 1 (s.get (if n = 0 then Fld.pwrWdogCfgFbMs else Fld.pwrWdogCfgPolMs))) s.pwr.wdog)) ∧
    (∀ n t0, s.coreOn = true → s.banked = false → Tab.find n s.pwr.wdog = some t0 → t0 ≤ s.now → ∃ t, exec (.watchdogExpiry n) s = .next t ∧ BankedBy t 0x06 s.now ∧
      (t.log.head?.map fun e => e.obj) = some (packBytes [(1, 0x10 + n)])) ∧
    (s.coreOn = true →
      (∃ t, exec (.memoryError .corrected) s = .next t ∧ t.get Fld.pwrErrCntCorr = min 65535 (s.get Fld.pwrErrCntCorr + 1) ∧ Logged s t uPWR 0x101B ∧
        ∀ k i, k ≠ .pwrErrCnt → k ≠ .glbLogSeq → t.reg k i = s.reg k i) ∧
      (s.banked = false → ∃ t, exec (.memoryError .critical) s = .next t ∧ BankedBy t 0x03 s.now) ∧
      (∀ line l, Tab.find line s.md.cache = some l → ∃ t, exec (.memoryError (.mapLine line)) s = .next t ∧ Tab.find line t.md.cache = none ∧
        t.get Fld.pwrErrCntContained = min 255 (s.get Fld.pwrErrCntContained + 1) ∧ (l.dirty = false → l.wb = false → t.md = { s.md with cache := t.md.cache }) ∧
        (l.dirty = true → ∀ j, j < 8 → 8 * line + j ∈ t.md.repair)) ∧
      (∀ k l, Tab.find k s.md.gauge = some l → ∃ t, exec (.memoryError (.gaugeLine k)) s = .next t ∧ (Tab.find k t.md.gauge).map (fun g => (g.dirty, g.acc)) = some (false, zeros32) ∧
        t.get Fld.pwrErrCntContained = min 255 (s.get Fld.pwrErrCntContained + 1)) ∧
      (∀ c k b, Tab.find k (s.chan c).buf = some b → b.stage ≠ 2 → exec (.memoryError (.readSlot c k)) s = .next (settleRds (hardDecoded c k b none (contained s)))) ∧
      (∀ row x, s.row row = some x → exec (.memoryError (.writeRow row)) s = .next (abandonRow row (contained s))) ∧
      (∀ m c x, s.ctx m c = some x → x.fault = none → exec (.memoryError (.mover m c)) s = .next (moverFault m c 2 x.cur none (contained s))) ∧
      (∀ i e, s.log[i]? = some e → ∃ t f, exec (.memoryError (.logEntry i)) s = .next t ∧ f.unit = uPWR ∧ f.code = 0x101B ∧
        t.log = (f :: s.log.set i { e with unit := uPWR, code := 0x101B, obj := 0, val := 0 }).take 2048 ∧
        t.get Fld.pwrErrCntContained = min 255 (s.get Fld.pwrErrCntContained + 1) ∧ ∀ k j, k ≠ .pwrErrCnt → k ≠ .glbLogSeq → t.reg k j = s.reg k j)) ∧
    (∀ a b q, s.running = true → a ≠ b → (s.rq a).isSome = true → (s.rq b).isSome = true → s.rq (younger s a b) = some q → q.rtag = younger s a b →
      ∃ t p, exec (.deadlockBreak a b) s = .next t ∧ t.get Fld.pwrErrCntBreaks = min 255 (s.get Fld.pwrErrCntBreaks + 1) ∧ t.rq q.rtag = some p ∧ p.breaks = q.breaks + 1 ∧
        p.cls = q.cls ∧ (4 ≤ q.breaks + 1 → s.banked = false → BankedBy t 0x0E s.now) ∧
        (q.breaks + 1 < 4 → q.opc ≠ 2 → ∀ x ∈ p.tiles, x.outcome = none → x.looked = false ∧ x.mapWait = false ∧ x.panSlot = none)) ∧
    (∀ e, s.coreOn = true → s.flag Fld.glbLogCtlMirEn = true → uncopied s = some e → ∃ t j, exec .logMirrorCopy s = .next t ∧ t.logMir = e.seq + 1 ∧
      t.mov.jobs = s.mov.jobs ++ [j] ∧ j.path = .logMirror e.seq.toNat ∧ j.vc = 3 ∧ j.port = s.get Fld.glbLogCtlPort ∧ j.init = bufPut 0 (logBytes e) [] ∧
      j.prog = [moveWord true 1 0 0 0 31 0 (s.get Fld.glbLogMbaseHiBase * 2 ^ 32 + s.get Fld.glbLogMbaseLoBase * 4096
        + 32 * (e.seq.toNat % (128 * min 512 (max 1 (s.get Fld.glbLogCtlMpages)))))])

/-- R359, R360, R361, R659: with no program and no running erase left, the flush plans every copy that is not at MEDIA, own copies before mirror copies, each at its place in the flush reserve, and
queues the job that reads it; after the last row FLUSH_END is appended and programmed, and once it is sealed DONE is set and every FL_WP_N goes low. The places' order is log
entry 31. -/
def Obligations.HoldUpFlush : Prop :=
  ∀ s : State,
    (∀ mirs, s.running = true → flushing s = true → s.wp.pfail = true → s.wp.plan = [] → (∀ e ∈ s.md.rows, e.2.flush = false) → s.wp.flushed = 0 → flushBlocked s = false →
      let u := scanMir mirs s
      let per := max 1 (perRound u)
      let l := (flushList u).zipIdx.filterMap fun x => (flushPlace u (flushSets u) (x.2 / per) (x.2 % per)).map fun p => (x.1.1, x.1.2, p)
      ∃ t, exec (.flushStart mirs) s = .next t ∧ t.wp.plan = l ∧ t.mov.jobs.length = s.mov.jobs.length + l.length ∧ t.wp.mir = u.wp.mir) ∧
    (s.running = true → flushing s = true → s.wp.pfail = true → flushRowsDone s = true → flushBlocked s = false →
      (s.wp.flushEnd = true → endOpen s = false → ∃ t, exec .flushComplete s = .next t ∧ t.flag Fld.mapFlushStsActive = false ∧ t.flag Fld.mapFlushStsDone = true ∧
        (∀ e ∈ t.ch, e.2.wpN = false) ∧ OtherRegs s t .mapFlushSts 0) ∧
      (∀ u, s.wp.flushEnd = false → (s.stream 0).flight = [] →
        streamProgram 0 (jAppend 0 ⟨jFlushEnd, s.wp.flushed, s.wp.seq, 0, 0⟩ { s with wp := { s.wp with flushEnd := true } }) = some u →
        exec .flushComplete s = .next u ∧ u.wp.flushEnd = true) ∧
      (∀ u, s.wp.flushEnd = true → endOpen s = true → (s.stream 0).flight = [] → streamProgram 0 s = some u → exec .flushComplete s = .next u))
/-! ## Start-up (chapter 3) -/

/-- R92, R93, R117, R83, R84, R89, R90, R112, R310, R607, R667, R94, R95, R96, R97, R99, R100, R118, R574: a failed known-answer test and a decommissioned part bank; the first slot that passes is kept, a failure of slot A moves to
slot B and one of slot B banks with its code; KINDLING ends with the firmware running under its watchdogs; every channel drives FL_WP_N high and resets its ready targets; a target busy too long goes offline
with its code, as does one that IDENTIFY or both attempts at training reject; a target that enters KX-DDR has KX_REQ set (log entry 78); and a ledger page that R100 does not
accept leaves its LUN seeded. A slot is read once XSPI_RESET_N is high, after a discovery for slot A; without SFDP it is read by 1S reads (log entry 106). Hashes and signatures are uninterpreted (log entry 6). -/
def Obligations.StartUpStages : Prop :=
  ∀ s : State, s.running = true →
    (∀ (fails : Option (Fin 5)) (rnd : BitVec 256), s.stage = 0 → ∃ t, exec (.selftestStage fails rnd) s = .next t ∧
      (∀ n, fails = some n → BankedBy t 0x01 s.now ∧ t.get Fld.glbBootStsFailCode = 0x10 + n.val ∧ t.get Fld.glbBootStsFailStage = 1 ∧ t.sec = s.sec) ∧
      (fails = none → lifecycle s = lcDecom → BankedBy t 0x01 s.now ∧ t.get Fld.glbBootStsFailCode = 0x21) ∧
      (fails = none → lifecycle s ≠ lcDecom → t.stage = 2 ∧ t.banked = false ∧ t.flag Fld.secStsRbgOk = true ∧ t.sec.rbgSeeded = true ∧
        t.sec.row = (if lifecycle s = lcManufacture ∧ s.sec.row.kes = 0 then { s.sec.row with kes := rnd } else s.sec.row))) ∧
    (∀ (answers : Bool) (sfdp : Sfdp) (d : List Byte), s.stage = 2 → s.pwr.waking = false → s.fwUp = false → s.img.copy = none → s.xspi.hold = 0 →
      let x := if s.flag Fld.glbBootStsImgSlot then s.xspi else xspiDiscover sfdp s.xspi
      let u := { s with xspi := xspiRead (slotBase s) d.length x }.putFlag Fld.glbBootStsXspi1s !x.octal
      let a := imageCheck answers d u
      let c := if a = 0 then contentCheck d u else a
      (answers = false → c = 0x0B) ∧ (answers = true → num d 0 4 ≠ 0x4C444E4B → c = 0x01) ∧
      (a = 0 → Config.ecdsaVerify (sub d 0x30 97) (d.take (imgSize d - 128)) (sub d (imgSize d - 128) 48) (sub d (imgSize d - 80) 48) = true ∧ countOnes s.sec.row.krb ≤ imgSecver d) ∧
      (s.flag Fld.glbBootStsImgSlot = false → slotBase s = 0 ∧ (x.octal = true ↔ sfdp.khz.isSome = true ∧ sfdpSigned sfdp = true) ∧ (x.octal = false → x.khz = 12500)) ∧
      (s.flag Fld.glbBootStsImgSlot = true → slotBase s = 0x1000000) ∧
      ∃ t, exec (.kindlingSlotRead answers sfdp d) s = .next t ∧ t.flag Fld.glbBootStsXspi1s = !x.octal ∧ t.xspi = u.xspi ∧
        u.xspi.sent = x.sent ++ [if x.octal then .read8D (slotBase s) d.length else .read1S 0x13 (slotBase s) d.length] ∧
        (c = 0 → t.img.copy = some d ∧ t.sec = { s.sec with kek1 := kek1Of s, kek2 := kek2Of s } ∧ t.stage = 2 ∧ t.banked = false) ∧
        (c ≠ 0 → s.flag Fld.glbBootStsImgSlot = false → t.flag Fld.glbBootStsImgSlot = true ∧ t.img = s.img ∧ t.banked = false) ∧
        (c ≠ 0 → s.flag Fld.glbBootStsImgSlot = true → BankedBy t 0x01 s.now ∧ t.get Fld.glbBootStsFailCode = c ∧ t.get Fld.glbBootStsFailStage = 2)) ∧
    (∀ (key : BitVec 256) (d : List Byte), s.stage = 2 → s.pwr.waking = false → s.fwUp = false → s.img.copy = some d →
      ∃ t, exec (.kindlingEnd key) s = .next t ∧ t.fwUp = true ∧ t.sec.fbxRun = true ∧ t.sec.fbxHalted = false ∧ t.sec.placement = key ∧
        t.sec.fbxCode = sub (sectionOf d 1) 64 (fwCode (sectionOf d 1)) ∧ (t.log.head?.map fun e => (e.unit, e.code)) = some (uGLB, 0x1005) ∧
        (∀ n, n < 5 → (Tab.find n t.pwr.wdog).isSome = true)) ∧
    (∀ rb : List (Nat × BitVec 8), s.stage = 2 → s.fwUp = true → (s.img.topo.map Prod.fst).Nodup → ∃ t, exec (.targetResetStage rb) s = .next t ∧
      (∀ e ∈ s.img.topo, (t.chan e.1).wpN = true ∧ (t.chan e.1).pins.ceN = 0xFF ∧ t.get Fld.stkChmodeCurMode e.1 = 0 ∧ t.get Fld.stkChmodeCurRate e.1 = sdrRate 0 ∧ (t.chan e.1).stage = 3 ∧ (t.chan e.1).bootAt = s.now ∧
        ∀ i, i < 8 → let mine := e.2.present.testBit i && (!s.pwr.waking || s.flag Fld.stkTgtcfgOnline (e.1 * 8 + i))
          isAlive t e.1 i = mine ∧ (mine = true → t.flag Fld.stkTgtcfgKx (e.1 * 8 + i) = false ∧
            (Tab.find i (t.chan e.1).rstAt = if (((rb.find? fun (x : Nat × BitVec 8) => x.1 == e.1).map Prod.snd).getD 0xFF).getLsbD i then some s.now else none))) ∧
      t.stage = if 3 ≤ leastStage t then max s.stage (leastStage t) else s.stage) ∧
    (∀ c i : Nat, c < 128 → i < 8 → (s.chan c).stage = 3 → isAlive s c i = true →
      (Tab.find i (s.chan c).rstAt = none → (s.chan c).rb.getLsbD i = true → ∃ t, exec (.targetReadyReset c i) s = .next t ∧
        Tab.find i (t.chan c).rstAt = some s.now ∧ (t.chan c).rb.getLsbD i = false ∧ t = { s with ch := t.ch, md := { s.md with luns := t.md.luns } } ∧ ∀ d, d ≠ c → t.chan d = s.chan d) ∧
      (Tab.find i (s.chan c).rstAt = none → (s.chan c).rb.getLsbD i = false → (s.chan c).bootAt + ((s.profileAt (c * 8 + i)).lbt + 1000) * 1000 ≤ s.now →
        ∃ t, exec (.targetBusyTimeout c i) s = .next t ∧ isAlive t c i = false ∧ t.flag Fld.stkTgtcfgOnline (c * 8 + i) = false ∧ ∃ e ∈ t.log, e.unit = uSTK ∧ e.code = 0x30) ∧
      (∀ a, Tab.find i (s.chan c).rstAt = some a → (s.chan c).rb.getLsbD i = false → a + (s.profileAt (c * 8 + i)).trstFirst * 1000 ≤ s.now →
        ∃ t, exec (.trstTimeout c i) s = .next t ∧ isAlive t c i = false ∧ t.flag Fld.stkTgtcfgOnline (c * 8 + i) = false ∧ ∃ e ∈ t.log, e.unit = uSTK ∧ e.code = 0x31)) ∧
    (∀ (c : Nat) (ids : List Ident), c < 128 → (s.chan c).stage = 3 → (s.chan c).alive ≠ 0 → resetsDone s c = true → ∃ t, exec (.identifyStage c ids) s = .next t ∧
      (t.chan c).stage = 4 ∧ ∀ i, i < 8 → isAlive s c i = true →
        (∀ x luns adv, ids.find? (fun x => x.tgt == i) = some x → identify s c x = .inr (luns, adv) → isAlive t c i = true ∧ Tab.get 0 i (t.chan c).adv = adv ∧
          (s.pwr.waking = false → t.flag Fld.stkTgtcfgOnline (c * 8 + i) = true ∧ t.get Fld.stkTgtcfgLunOn (c * 8 + i) = (2 ^ luns - 1) % 16)) ∧
        (∀ x code, ids.find? (fun x => x.tgt == i) = some x → identify s c x = .inl code → isAlive t c i = false ∧ t.flag Fld.stkTgtcfgOnline (c * 8 + i) = false) ∧
        (ids.find? (fun x => x.tgt == i) = none → isAlive t c i = false ∧ t.flag Fld.stkTgtcfgOnline (c * 8 + i) = false)) ∧
    (∀ (c i : Nat) (ms : List TrainSet), c < 128 → i < 8 → (s.chan c).stage = 4 → (s.chan c).alive = 1#8 <<< i →
      let noKx := (((Tab.get {} c s.img.topo : Topo).kxTset[i]?).getD 0xFF) = 0xFF
      let u := raiseStage (s.setChan c { s.chan c with stage := 5 })
      let v := if s.part = .ig7316 ∧ u.get Fld.stkChmodeCeil c = 8 ∧ ¬noKx then logOnce c i 300 u else u
      let try_ := trainOnce c i true (if noKx then none else kxRate v c i) s.img.cal.gbRd s.img.cal.gbWr
      let done (w : State) : State := if w.flag Fld.stkTgtcfgKx (c * 8 + i) then w.putFlag Fld.stkTgtcfgKxReq true (c * 8 + i) else w
      (∀ x, ms.find? (fun x => x.tgt == i) = some x →
        ((try_ x.a x.ka v).1 = true → exec (.trainStage c ms) s = .next (done (try_ x.a x.ka v).2)) ∧
        ((try_ x.a x.ka v).1 = false → (try_ x.b x.kb (try_ x.a x.ka v).2).1 = true →
          exec (.trainStage c ms) s = .next (done (try_ x.b x.kb (try_ x.a x.ka v).2).2)) ∧
        ((try_ x.a x.ka v).1 = false → (try_ x.b x.kb (try_ x.a x.ka v).2).1 = false → ∃ t, exec (.trainStage c ms) s = .next t ∧ isAlive t c i = false ∧
          t.flag Fld.stkTgtcfgOnline (c * 8 + i) = false ∧ ∃ e ∈ t.log, e.unit = uSTK ∧ e.code = 0x33)) ∧
      (ms.find? (fun x => x.tgt == i) = none → ∃ t, exec (.trainStage c ms) s = .next t ∧ isAlive t c i = false ∧ t.flag Fld.stkTgtcfgOnline (c * 8 + i) = false)) ∧
    (∀ (c : Nat) (reads : List LedgerRead), c < 128 → (s.chan c).stage = 5 → (s.chan c).alive ≠ 0 → s.pwr.waking = false → ∃ t, exec (.ledgerStage c reads) s = .next t ∧
      (t.chan c).stage = 7 ∧ ∀ k, lunCh k = c → k < 4096 → s.online k = true →
        (reads.find? (fun x => x.lun == k) = none → t.flag Fld.glbBootStsLedgerSeed = true ∧ tgtIdx k ∈ t.cal.seeded) ∧
        (∀ x, reads.find? (fun x => x.lun == k) = some x → newestLedger x.pages = none → t.flag Fld.glbBootStsLedgerSeed = true ∧ tgtIdx k ∈ t.cal.seeded) ∧
        (∀ x u p f, reads.find? (fun x => x.lun == k) = some x → newestLedger x.pages = some (u, p, f) →
          (ledgerHolds s k f = true → Tab.find k t.cal.accepted = some (f.take 4096)) ∧
          (ledgerHolds s k f = false → t.flag Fld.glbBootStsLedgerSeed = true ∧ tgtIdx k ∈ t.cal.seeded)))

/-- R102, R103, R104, R106, R105, R364, R107, R111, R366, R109, R91, R651: with a valid checkpoint whose journal replays the MAP stage ends with the map placed, one whose full map cannot be read banks, and without one the stage formats blank media or banks; FORMATTED
follows checkpoint 1 (log entry 85); replay applies pages while each follows the one before, a page of the jseq before counting as its repeat; no answer of the DRAM banks; of copies of one LTA the newest is reloaded; SERVE_READ is entered only with every trip latch
clear; an open group closes at its frontier; and RUN follows once none is left open, with the anti-rollback counters advanced. -/
def Obligations.MapStageToRun : Prop :=
  ∀ s : State, s.running = true →
    (∀ m : MapRead, s.stage = 7 → s.md.placed = false → ∃ t, exec (.mapStage m) s = .next t ∧
      (newestCkpt s m = none → s.img.geo.format = true → checkpointsBlank m s = true → t.md.placed = true ∧ t.md.formatting = true) ∧
      (newestCkpt s m = none → ¬(s.img.geo.format = true ∧ checkpointsBlank m s = true) → BankedBy t 0x01 s.now ∧ t.get Fld.glbBootStsFailCode = 0x40 ∧ t.md = s.md) ∧
      (∀ h, newestCkpt s m = some h → (loadMap m (loadCkpt m h s) = none ∧ BankedBy t 0x01 s.now ∧ t.get Fld.glbBootStsFailCode = 0x40) ∨
        ((loadMap m (loadCkpt m h s)).isSome = true ∧ (t.md.placed = true ∨ t.get Fld.glbBootStsFailCode = 0x41)))) ∧
    (∀ (p : JPage) (l : List JPage) (e : Nat),
      pagesApplied [] e = some ([], e) ∧ (p.readable = false → pagesApplied (p :: l) e = none) ∧
      (p.readable = true → pageCommitted p = true → p.jseq = e → pagesApplied (p :: l) e = (pagesApplied l (e + 1)).map fun a => (p :: a.1, a.2)) ∧
      (p.readable = true → pageCommitted p = true → p.jseq + 1 = e → pagesApplied (p :: l) e = (pagesApplied l e).map fun a => (p :: a.1, a.2)) ∧
      (p.readable = true → pageCommitted p = true → p.jseq ≠ e → p.jseq + 1 ≠ e → pagesApplied (p :: l) e = some ([], e)) ∧
      ∀ r, pagesApplied l e = some r → e ≤ r.2 ∧ ∀ q ∈ r.1, pageCommitted q = true ∧ e ≤ q.jseq + 1 ∧ q.jseq < r.2) ∧
    (s.stage = 7 → s.md.dramOk = false → s.md.mapAt + 1000000000 ≤ s.now → ∃ t, exec .dramNoAnswer s = .next t ∧ BankedBy t 0x01 s.now ∧
      t.get Fld.glbBootStsFailCode = 0x42 ∧ t.get Fld.glbBootStsFailStage = 7) ∧
    (∀ ms, s.stage = 7 → s.md.placed = true → s.md.reloadDone = false → ∃ t, exec (.panReload ms) s = .next t ∧ t.md.reloadDone = true ∧
      ((∀ g ∈ ms, s.wp.reserve.contains (g.1, g.2.1) = false) → t.get Fld.mapFlushStsReloaded = 0 ∧ t.flag Fld.mapFlushStsReloadInc = false ∧ t.wp.own = s.wp.own) ∧
      (∀ g, g ∈ ms → s.wp.reserve.contains (g.1, g.2.1) = true → g.2.2 ≠ [] → t.flag Fld.mapFlushStsReloadInc = !s.md.flushEnded ∧ (g.1, g.2.1) ∈ t.wp.reloaded)) ∧
    (∀ (l : List (Meta × List Byte)), ∀ e ∈ keepNewest l, e ∈ l ∧ ∀ x ∈ l, x.1.lta = e.1.lta → (x.1.keyidx = 0xFFFE ↔ e.1.keyidx = 0xFFFE) → x.1.seq ≤ e.1.seq) ∧
    (s.stage = 7 → s.md.placed = true →
      s.md.formatting = false → (s.flag Fld.glbBootStsFormatted = true ∨ (s.md.reloadDone = true ∧ handoffs s = false)) →
      (s.reg .trpSts &&& 7 = 0 → ∃ t, exec .serveReadEntry s = .next t ∧ t.stage = 8 ∧ t.md.c0Tok = 400 ∧ t.md.c0At = s.now) ∧
      (s.reg .trpSts &&& 7 ≠ 0 → exec .serveReadEntry s = .next s)) ∧
    (∀ set g front broken seq x, s.md.placed = true → (s.stage = 7 ∨ s.stage = 8) → (openData s).contains (set, g) = true → s.grp set g = some x →
      ∃ t y, exec (.frontierSearch set g front broken seq) s = .next t ∧ t.grp set g = some y ∧ y.gstate = 2 ∧ y.rowsDone = front.foldl min (front.headD 0) ∧ y.unit = x.unit ∧
        t.md.seqMax = max s.md.seqMax seq ∧ (s.stage = 8 → 1 + max s.md.seqMax seq + 2 ^ 32 ≤ t.wp.seq)) ∧
    (s.pwr.waking = true → s.stage = 5 → (∀ e ∈ s.ch, e.2.alive = 0 ∨ e.2.stage = 5) → ∃ t, exec .runEntry s = .next t ∧ t.stage = 9 ∧ t.pwr.waking = false) ∧
    (s.pwr.waking = false → s.stage = 8 → openData s = [] → ∃ t, exec .runEntry s = .next t ∧ t.stage = 9 ∧ t.pwr.wokeP3 = false ∧
      (s.img.commit = false → t.sec = s.sec) ∧
      (s.img.commit = true → t.sec = { s.sec with row := { s.sec.row with krb := burnTo s.img.secver s.sec.row.krb, frb := burnTo s.img.svn s.sec.row.frb } })) ∧
    (∀ n (x : BitVec 64), x &&& burnTo n x = x ∧ (n ≤ 64 → countOnes (burnTo n x) = max n (countOnes x)))
/-! ## The twin (chapters 3 and 9) -/

/-- R112, R114, R115, R351, R352, R353, R356, R116: while not paired a record with its MAC goes to the partner's mailbox every HB_PERIOD and the own one is read; a record whose hearth ID, MAC or echo is wrong is discarded and
logged; one without an echo is kept, and one that echoes the NONCE completes pairing; 30 s without success mean degraded-single mode, with a new start each second; heartbeats count up, and a loss
ends mirroring; reconciliation reads the partner's descriptors one after another, marks what the partner holds and sends the rest again, reads back what only the partner holds and the map does
not know newer, and releases the rest; and once every copy has been dealt with the twin is reachable. The heartbeat's layout is log entry 39, reconciliation's details entry 41. -/
def Obligations.TwinProtocol : Prop :=
  (∀ (s : State) (x : TwinSec), s.running = true → s.img.twin = some x →
    (s.fwUp = true → s.wp.twin.paired = false → periodDue s x = true → s.wp.twin.nonce ≠ 0 → ∃ t j, exec .pairingRecordSend s = .next t ∧ t.mov.jobs = s.mov.jobs ++ [j] ∧
      j.path = .pairing ∧ j.init = bufPut 0 (pairHead s x.peerHid ++ pairMac s (pairHead s x.peerHid)) [] ∧ j.prog = [moveWord true 1 0 0 0 95 0 x.peerBox] ∧
      t.wp = { s.wp with twin := { s.wp.twin with lastSend := s.now } } ∧ t.regs = s.regs) ∧
    (s.fwUp = true → s.wp.twin.paired = false → periodDue s x = true → s.wp.twin.nonce = 0 → ∃ t, exec .pairingRecordSend s = .next t ∧ t.wp.twin.nonce ≠ 0 ∧
      t.mov.jobs.length = s.mov.jobs.length + 1) ∧
    (s.wp.twin.paired = true → periodDue s x = true → ∃ t j, exec .heartbeatSend s = .next t ∧ t.wp.twin.hbOut = s.wp.twin.hbOut + 1 ∧ t.wp.twin.lastSend = s.now ∧
      t.mov.jobs = s.mov.jobs ++ [j] ∧ j.init = bufPut 0 (Config.heartbeat s.sec.pairKey s.hid (s.wp.twin.hbOut + 1)) []) ∧
    (s.fwUp = true → s.get Fld.glbBootStsTwin = 0 → s.wp.twin.paired = false → s.wp.twin.since + 30000000000 ≤ s.now → ∃ t, exec .pairingTimeout s = .next t ∧
      t.get Fld.glbBootStsTwin = 2 ∧ t.wp = { s.wp with twin := { s.wp.twin with single := true, since := s.now } }) ∧
    (s.wp.twin.single = true → s.wp.twin.paired = false → s.wp.twin.since + 1000000000 ≤ s.now → ∃ t, exec .pairingRetry s = .next t ∧ t.wp.twin.nonce ≠ 0 ∧
      t = { s with freeCtr := t.freeCtr, wp := { s.wp with twin := { s.wp.twin with since := s.now, nonce := t.wp.twin.nonce } } }) ∧
    (s.wp.twin.paired = true → s.wp.twin.hbTime + x.hbLoss * 1000 < s.now →
      (mirroring s = false → exec .heartbeatLoss s = .next { s with wp := { s.wp with twin := { s.wp.twin with paired := false, nonce := 0 } } }) ∧
      (mirroring s = true → s.reqs = [] → ∃ t, exec .heartbeatLoss s = .next t ∧ t.get Fld.mapTwinStsState = 3 ∧
        t.get Fld.mapTwinStsLosses = (if s.get Fld.mapTwinStsState = 2 then min Fld.mapTwinStsLosses.max (s.get Fld.mapTwinStsLosses + 1) else s.get Fld.mapTwinStsLosses) ∧
        t.wp = { s.wp with twin := { s.wp.twin with paired := false, nonce := 0, todo := [], scan := none, descs := [], probes := [] } })) ∧
    ((s.stage = 8 ∨ s.stage = 9) → s.wp.twin.paired = true → mirroring s = false → s.wp.pfail = false →
      (0 < s.wp.twin.peerSlots → ∃ t, exec .reconciliationStart s = .next t ∧ t.get Fld.mapTwinStsState = 1 ∧ t.wp.twin.scan = some 0 ∧ t.wp.twin.descs = [] ∧ t.wp.own = s.wp.own ∧
        t.fab = fabIssue s.now s.fab (mkReq (s.mov.rot % 16) 3 .rd (descAddr x.peerMir 0) 64 []) (.mirDesc 0)) ∧
      (∀ slot p, s.wp.twin.peerSlots = 0 → s.wp.own = [(slot, p)] → liveCopy p = true → ∃ t j, exec .reconciliationStart s = .next t ∧ t.get Fld.mapTwinStsState = 1 ∧
        t.wp.own = [(slot, { p with mirAt := slot, mirOld := if p.mirAt = slot then p.mirOld else some p.mirAt })] ∧ t.wp.twin.todo = [slot] ∧ t.wp.twin.scan = none ∧
        t.mov.jobs = s.mov.jobs ++ [j] ∧ j.path = .recon slot)) ∧
    (∀ port vc tag o slot data, findOutst s.fab port vc tag = some o → o.purpose = .mirDesc slot → o.req.kind = .rd → o.req.len = data.length → s.fab.held = [] →
      s.wp.twin.scan = some slot →
      let ds := s.wp.twin.descs ++ (descOf s slot data).toList
      (slot + 1 < s.wp.twin.peerSlots → ∃ t, exec (.outboundResponse port vc tag .ok data) s = .next t ∧ t.wp.twin.descs = ds ∧ t.wp.twin.scan = some (slot + 1) ∧ t.wp.own = s.wp.own) ∧
      (s.wp.twin.peerSlots ≤ slot + 1 →
        (∀ k p d, s.wp.own = [(k, p)] → liveCopy p = true → heldBy ds p = some d → (∀ e ∈ ds, e.lta = p.lta ∧ e.seq = p.seq ∧ e.tcrc = mirTcrc p) →
          ∃ t, exec (.outboundResponse port vc tag .ok data) s = .next t ∧ t.wp.own = [(k, { p with mirrored := true, mirAt := d.slot })] ∧ t.mov.jobs = s.mov.jobs ∧
            t.wp.twin = { s.wp.twin with scan := none, descs := [] }) ∧
        (∀ k p d, s.wp.own = [(k, p)] → liveCopy p = true → ds = [d] → d.lta = p.lta → d.seq < p.seq → d.slot ≠ k →
          ∃ t i j, exec (.outboundResponse port vc tag .ok data) s = .next t ∧ t.mov.jobs = s.mov.jobs ++ [i, j] ∧ i.path = .recon k ∧ j.path = .desc ∧
            j.init = bufPut 0 (descBytes (descPan s d) 0x2F (descPan s d).mcrc) [] ∧ t.wp.twin.todo = k :: s.wp.twin.todo.erase k) ∧
        (∀ d l, s.wp.own = [] → ds = [d] → s.wp.twin.probes = [] → cacheHas s (d.lta / 8) = some l → entState ((l.ents[d.lta % 8]?).getD 0) ≠ 1 → 0 < d.seq → 0 < ownSlots s →
          (∀ r ∈ s.md.rds, r.2.own ≠ .recon d.slot) → ∃ t j, exec (.outboundResponse port vc tag .ok data) s = .next t ∧ t.wp.twin.probes = [] ∧
            t.wp.twin.todo = 0 :: s.wp.twin.todo ∧ ((t.pan 0).map fun p => (p.lta, p.seq, p.mirAt, p.staged)) = some (d.lta, d.seq, d.slot, false) ∧
            t.get Fld.mapTwinStsRefetch = min Fld.mapTwinStsRefetch.max (s.get Fld.mapTwinStsRefetch + 1) ∧ t.mov.jobs = s.mov.jobs ++ [j] ∧ j.path = .handoff 0))) ∧
    (∀ d seq, s.wp.own = [] → s.wp.twin.probes = [d] → d.seq ≤ seq → ∃ j, (probed d.slot seq s).mov.jobs = s.mov.jobs ++ [j] ∧ j.path = .desc ∧
      (probed d.slot seq s).wp = { s.wp with twin := { s.wp.twin with probes := [] } })) ∧
  (∀ (s u : State) (x : TwinSec) (o : Outst) (b : List Byte), s.coreOn = true → s.img.twin = some x →
    (takeOutst (.mailbox false) s = some (o, u) → b.length = 96 → s.wp.twin.paired = false → fieldAt b 0 4 = 0x52494150 →
      let v := releaseHeld u
      let ok := fieldAt b 4 2 = x.peerHid ∧ (b.drop 0x30).take 48 = pairMac s (b.take 0x30) ∧ (fieldAt b 0x10 8 = 0 ∨ fieldAt b 0x10 8 = s.wp.twin.nonce.toNat)
      let kept := { s.wp.twin with echo := BitVec.ofNat 64 (fieldAt b 8 8), peerDmax := fieldAt b 0x18 4, peerSlots := fieldAt b 0x1C 4 }
      ∃ t, exec (.pairingRecordReceived b) s = .next t ∧ t.fab = v.fab ∧
        (¬ok → t.wp = s.wp ∧ Logged s t uMAP 0x1006 ∧ OtherRegs s t .glbLogSeq 0) ∧
        (ok → fieldAt b 0x10 8 = 0 → t.regs = s.regs ∧ t.wp = { s.wp with twin := kept }) ∧
        (ok → fieldAt b 0x10 8 ≠ 0 → t.get Fld.glbBootStsTwin = 1 ∧ t.get Fld.mapTwinStsPeerHid = x.peerHid % 2 ^ 14 ∧
          t.wp = { s.wp with twin := { kept with paired := true, single := false, hbIn := 0, hbTime := s.now } })) ∧
    (takeOutst (.mailbox true) s = some (o, u) → b.length = 64 → ∃ t, exec (.heartbeatReceived b) s = .next t ∧ t.fab = (releaseHeld u).fab ∧ t.regs = s.regs ∧
      (∀ hid n, Config.heartbeatRead s.sec.pairKey b = some (hid, n) → s.wp.twin.paired = true → hid = x.peerHid → s.wp.twin.hbIn < n →
        t.wp = { s.wp with twin := { s.wp.twin with hbIn := n, hbTime := s.now } }) ∧
      ((Config.heartbeatRead s.sec.pairKey b = none ∨ ∃ hid n, Config.heartbeatRead s.sec.pairKey b = some (hid, n) ∧ (hid ≠ x.peerHid ∨ n ≤ s.wp.twin.hbIn)) → t.wp = s.wp))) ∧
  (∀ s : State, s.running = true → s.get Fld.mapTwinStsState = 1 → s.wp.twin.scan = none → s.wp.twin.probes = [] → s.wp.twin.todo = [] → ∃ t, exec .reconciliationEnd s = .next t ∧ t.get Fld.mapTwinStsState = 2 ∧ t = { s with regs := t.regs })
/-! ## The machine as a whole -/

/-- A step takes the command at the front of the queue and runs it on the state with the queue's rest; on an empty queue 1 ns passes, in which nothing moves but the nanosecond counter, the map
cache's LFSR, the reset time of the xSPI port, the ages of the operations at the head of class 3, the times of quiet, and the ember counter, which stops while EMB_CLK is lost (R80, R392, R62, R688,
R644, R655, R35; the idle step is log entry 11). -/
def Obligations.StepTakesFront : Prop :=
  ∀ s : State,
    (∀ c q, s.pending = c :: q → step s = exec c { s with pending := q }) ∧
    (s.pending = [] → ∃ t, step s = .next t ∧ t = { s with
        time := t.time
        xspi := { s.xspi with hold := t.xspi.hold }
        md := { s.md with lfsr := t.md.lfsr, luns := t.md.luns }
        fab := { s.fab with busyAt := t.fab.busyAt }
        pwr := { s.pwr with ember := t.pwr.ember, emberFrac := t.pwr.emberFrac, idleFrom := t.pwr.idleFrom } } ∧
      (s.coreOn = true → t.time = s.time + 1 ∧ t.xspi.hold = s.xspi.hold - 1 ∧ t.md.lfsr = lfsrStep s.md.lfsr ∧
        (∀ k, (t.lun k).queue = (s.lun k).queue ∧ (t.lun k).op = (s.lun k).op ∧ (t.lun k).er = (s.lun k).er) ∧
        t.pwr.idleFrom = (if s.stage = 9 ∧ p1Quiet s = true then s.pwr.idleFrom else s.now + 1) ∧
        t.fab.busyAt = (if s.fab.outst = [] ∧ s.fab.waiting = [] ∧ s.fab.held = [] then s.fab.busyAt else s.now + 1)) ∧
      (s.coreOn = false → t.time = s.time ∧ t.md = s.md ∧ t.xspi = s.xspi ∧ t.fab = s.fab ∧ t.pwr.idleFrom = s.pwr.idleFrom) ∧
      (s.pwr.emberDown = true ∨ s.pwr.embLost = true → t.pwr.ember = s.pwr.ember ∧ t.pwr.emberFrac = s.pwr.emberFrac) ∧
      (s.pwr.emberDown = false → s.pwr.embLost = false → s.pwr.emberFrac < 1000000000 → t.pwr.emberFrac < 1000000000 ∧
        (t.pwr.ember.toNat * 1000000000 + t.pwr.emberFrac) % (2 ^ 48 * 1000000000) = (s.pwr.ember.toNat * 1000000000 + s.pwr.emberFrac + 32768) % (2 ^ 48 * 1000000000)))

/-- Every step keeps the invariant: the registers in canonical form (R3, R4), at most 2,048 log entries (R671), and every target's claims in service in strictly falling priority (R583, R587). -/
def Obligations.StepKeepsInv : Prop := ∀ s t : State, Inv s → step s = .next t → Inv t

/-- The state after reset has the invariant that every step keeps. -/
def Obligations.ResetHasInv : Prop := Inv State.reset

/-- Every command answers a next state, and leaves the queue's rest and the part as they are: none is refused, and none faults. -/
def Obligations.EveryCommandAnswers : Prop :=
  ∀ (c : Instr) (s : State), ∃ t, exec c s = .next t ∧ t.pending = s.pending ∧ t.part = s.part

/-- R675, R677, R36, R62, R70 and the tables of the registers: after reset the inputs are low, nothing is in flight, the log is empty, and the registers hold their reset words; each block's are
named by one. That the state after reset has the reset inputs low is log entry 1. -/
def Obligations.ResetValues : Prop :=
  let s := State.reset
  s.inReset = true ∧ s.log = [] ∧ s.reqs = [] ∧ s.pending = [] ∧ s.fab.outst = [] ∧ s.banked = false ∧ s.stage = 0 ∧ s.fwUp = false ∧ s.time = 0 ∧ s.pwr.enCore = true ∧ s.pwr.enVccq = true ∧ s.xspi.hold = 10000 ∧
  xspiResetN s = false ∧
  (∀ k i, s.reg k i = regReset k i) ∧
  s.flag Fld.pwrCtlP1En = true ∧ s.get Fld.pwrCfgP1Idle = 0x64 ∧ s.get Fld.pwrCfgSrHold = 0x3E8 ∧ s.get Fld.pwrWdogCfgPolMs = 0x3E8 ∧ s.get Fld.pwrWdogCfgFbMs = 0x64 ∧ s.get Fld.glbLogCtlMpages = 1 ∧
  s.reg .trpSts = 0 ∧ s.reg .glbLogSeq = 0 ∧ s.reg .glbBankSts = 0 ∧ (∀ c, c < 1024 → s.get Fld.stkTgtcfgKxTset c = 0xF)
end

