-- ==== Sys2Proof/Laws/Tab.lean ====
section
/-! SUPPORT. Sparse tables: what reading gives after a write, and that writing keeps the canonical form. -/

namespace Sys2Proof.Machine

theorem Tab.find_del_same (k : Nat) (t : Tab α) : Tab.find k (Tab.del k t) = none := by
  induction t with
  | nil => rfl
  | cons e r ih => obtain ⟨a, v⟩ := e; by_cases h : a = k <;> simp [Tab.del, Tab.find, h, ih]

theorem Tab.find_del_ne {k j : Nat} (h : j ≠ k) (t : Tab α) : Tab.find j (Tab.del k t) = Tab.find j t := by
  induction t with
  | nil => rfl
  | cons e r ih =>
    obtain ⟨a, v⟩ := e
    by_cases h1 : a = k
    · subst h1; simp [Tab.del, Tab.find, ih, Ne.symm h]
    · by_cases h2 : a = j
      · subst h2; simp [Tab.del, Tab.find, h1]
      · simp [Tab.del, Tab.find, h1, h2, ih]

theorem Tab.find_insert_same (k : Nat) (v : α) (t : Tab α) (h : Tab.find k t = none) :
    Tab.find k (Tab.insert k v t) = some v := by
  induction t with
  | nil => simp [Tab.insert, Tab.find]
  | cons e r ih =>
    obtain ⟨a, w⟩ := e
    by_cases h1 : a = k
    · simp [Tab.find, h1] at h
    · simp only [Tab.find, h1, if_false] at h
      by_cases h2 : k < a <;> simp [Tab.insert, Tab.find, h1, h2, ih h]

theorem Tab.find_insert_ne {k j : Nat} (hj : j ≠ k) (v : α) (t : Tab α) : Tab.find j (Tab.insert k v t) = Tab.find j t := by
  induction t with
  | nil => simp [Tab.insert, Tab.find, Ne.symm hj]
  | cons e r ih =>
    obtain ⟨a, w⟩ := e
    by_cases h2 : k < a
    · simp [Tab.insert, Tab.find, h2, Ne.symm hj]
    · by_cases h1 : a = j
      · subst h1; simp [Tab.insert, Tab.find, h2]
      · simp [Tab.insert, Tab.find, h1, h2, ih]

@[simp] theorem Tab.find_put_same (k : Nat) (v : α) (t : Tab α) : Tab.find k (Tab.put k v t) = some v :=
  Tab.find_insert_same k v _ (Tab.find_del_same k t)

theorem Tab.find_put_ne {k j : Nat} (h : j ≠ k) (v : α) (t : Tab α) : Tab.find j (Tab.put k v t) = Tab.find j t := by
  rw [Tab.put, Tab.find_insert_ne h, Tab.find_del_ne h]

@[simp] theorem Tab.get_put_same (d v : α) (k : Nat) (t : Tab α) : Tab.get d k (Tab.put k v t) = v := by
  simp [Tab.get]

theorem Tab.get_put_ne {k j : Nat} (h : j ≠ k) (d v : α) (t : Tab α) : Tab.get d j (Tab.put k v t) = Tab.get d j t := by
  simp [Tab.get, Tab.find_put_ne h]

@[simp] theorem Tab.get_set_same [DecidableEq α] (d v : α) (k : Nat) (t : Tab α) : Tab.get d k (Tab.set d k v t) = v := by
  by_cases h : v = d
  · simp [Tab.set, h, Tab.get, Tab.find_del_same]
  · simp [Tab.set, h]

theorem Tab.get_set_ne [DecidableEq α] {k j : Nat} (h : j ≠ k) (d e v : α) (t : Tab α) :
    Tab.get e j (Tab.set d k v t) = Tab.get e j t := by
  by_cases hv : v = d
  · simp [Tab.set, hv, Tab.get, Tab.find_del_ne h]
  · simp [Tab.set, hv, Tab.get_put_ne h]

@[simp] theorem Tab.get_del_same (d : α) (k : Nat) (t : Tab α) : Tab.get d k (Tab.del k t) = d := by
  simp [Tab.get, Tab.find_del_same]

theorem Tab.get_del_ne {k j : Nat} (h : j ≠ k) (d : α) (t : Tab α) : Tab.get d j (Tab.del k t) = Tab.get d j t := by
  simp [Tab.get, Tab.find_del_ne h]

/-! ## The canonical form -/

theorem Tab.risingFrom_weaken {b c : Nat} (h : c ≤ b) {t : Tab α} (ht : Tab.risingFrom b t = true) : Tab.risingFrom c t = true := by
  cases t with
  | nil => rfl
  | cons e r =>
    simp only [Tab.risingFrom, Bool.and_eq_true, decide_eq_true_eq] at ht ⊢
    exact ⟨Nat.le_trans h ht.1, ht.2⟩

theorem Tab.del_rising (k : Nat) : ∀ (b : Nat) (t : Tab α), Tab.risingFrom b t = true → Tab.risingFrom b (Tab.del k t) = true
  | _, [], _ => rfl
  | b, (a, v) :: r, h => by
    simp only [Tab.risingFrom, Bool.and_eq_true, decide_eq_true_eq] at h
    by_cases hk : a = k
    · simp only [Tab.del, hk, if_true]
      exact Tab.risingFrom_weaken (by omega) (Tab.del_rising k _ r h.2)
    · simp only [Tab.del, hk, if_false, Tab.risingFrom, Bool.and_eq_true, decide_eq_true_eq]
      exact ⟨h.1, Tab.del_rising k _ r h.2⟩

theorem Tab.insert_rising (k : Nat) (v : α) : ∀ (b : Nat) (t : Tab α), b ≤ k → Tab.risingFrom b t = true → Tab.find k t = none →
    Tab.risingFrom b (Tab.insert k v t) = true
  | b, [], hb, _, _ => by simp [Tab.insert, Tab.risingFrom, hb]
  | b, (a, w) :: r, hb, h, hf => by
    simp only [Tab.risingFrom, Bool.and_eq_true, decide_eq_true_eq] at h
    have ha : a ≠ k := by intro e; simp [Tab.find, e] at hf
    by_cases hk : k < a
    · simp only [Tab.insert, hk, if_true, Tab.risingFrom, Bool.and_eq_true, decide_eq_true_eq]
      exact ⟨hb, by omega, h.2⟩
    · simp only [Tab.insert, hk, if_false, Tab.risingFrom, Bool.and_eq_true, decide_eq_true_eq]
      simp only [Tab.find, ha, if_false] at hf
      exact ⟨h.1, Tab.insert_rising k v _ r (by omega) h.2 hf⟩

theorem Tab.filter_rising (p : Nat × α → Bool) : ∀ (b : Nat) (t : Tab α), Tab.risingFrom b t = true → Tab.risingFrom b (t.filter p) = true
  | _, [], _ => rfl
  | b, (a, v) :: r, h => by
    simp only [Tab.risingFrom, Bool.and_eq_true, decide_eq_true_eq] at h
    have ih := Tab.filter_rising p (a + 1) r h.2
    simp only [List.filter_cons]
    split
    · simp only [Tab.risingFrom, Bool.and_eq_true, decide_eq_true_eq]
      exact ⟨h.1, ih⟩
    · exact Tab.risingFrom_weaken (by omega) ih

theorem Tab.put_rising (k : Nat) (v : α) (t : Tab α) (h : Tab.rising t = true) : Tab.rising (Tab.put k v t) = true :=
  Tab.insert_rising k v 0 _ (Nat.zero_le k) (Tab.del_rising k 0 t h) (Tab.find_del_same k t)

theorem Tab.mem_del {k : Nat} {t : Tab α} {e : Nat × α} (h : e ∈ Tab.del k t) : e ∈ t := by
  induction t with
  | nil => exact h
  | cons x r ih =>
    obtain ⟨a, v⟩ := x
    by_cases hk : a = k
    · simp only [Tab.del, hk, if_true] at h; exact List.mem_cons_of_mem _ (ih h)
    · simp only [Tab.del, hk, if_false, List.mem_cons] at h
      exact h.elim (fun h => h ▸ List.mem_cons_self) (fun h => List.mem_cons_of_mem _ (ih h))

theorem Tab.mem_insert {k : Nat} {v : α} {t : Tab α} {e : Nat × α} (h : e ∈ Tab.insert k v t) : e = (k, v) ∨ e ∈ t := by
  induction t with
  | nil => simpa [Tab.insert] using h
  | cons x r ih =>
    obtain ⟨a, w⟩ := x
    by_cases hk : k < a
    · simpa [Tab.insert, hk] using h
    · simp only [Tab.insert, hk, if_false, List.mem_cons] at h ⊢
      rcases h with h | h
      · exact .inr (.inl h)
      · exact (ih h).imp id .inr

/-- Writing a table keeps its canonical form: indexes rising, no entry at the default. -/
theorem Tab.set_wf [DecidableEq α] (d v : α) (k : Nat) (t : Tab α) (h : Tab.wf d t = true) : Tab.wf d (Tab.set d k v t) = true := by
  simp only [Tab.wf, Bool.and_eq_true, List.all_eq_true, decide_eq_true_eq] at h ⊢
  by_cases hv : v = d
  · simp only [Tab.set, hv, if_true]
    exact ⟨Tab.del_rising k 0 t h.1, fun e he => h.2 e (Tab.mem_del he)⟩
  · simp only [Tab.set, hv, if_false]
    refine ⟨Tab.put_rising k v t h.1, fun e he => ?_⟩
    rcases Tab.mem_insert he with rfl | he
    · exact hv
    · exact h.2 e (Tab.mem_del he)

end Sys2Proof.Machine
end

