-- ==== Sys2Proof/Laws/State.lean ====
section
/-! SUPPORT. Registers and their fields: what reading gives after a write, and what each update of the state leaves alone. -/

namespace Sys2Proof.Machine

/-! ## Keys -/

theorem RegKind.ctorIdx_inj {a b : RegKind} (h : a.ctorIdx = b.ctorIdx) : a = b := by
  have := congrArg RegKind.ofNat h
  rwa [RegKind.ofNat_ctorIdx, RegKind.ofNat_ctorIdx] at this

theorem RegKind.ctorIdx_lt (k : RegKind) : k.ctorIdx < 256 := by cases k <;> decide

theorem regKey_inj {k j : RegKind} {i l : Nat} (h : regKey k i = regKey j l) : k = j ∧ i = l := by
  have h1 := k.ctorIdx_lt
  have h2 := j.ctorIdx_lt
  simp only [regKey] at h
  exact ⟨RegKind.ctorIdx_inj (by omega), by omega⟩

theorem regKey_ne_kind {k j : RegKind} (h : k ≠ j) (i l : Nat) : regKey k i ≠ regKey j l := fun e => h (regKey_inj e).1
theorem regKey_ne_index {i l : Nat} (h : i ≠ l) (k j : RegKind) : regKey k i ≠ regKey j l := fun e => h (regKey_inj e).2

/-! ## Registers -/

@[simp] theorem State.reg_setReg_same (s : State) (k : RegKind) (i : Nat) (w : Word) : (s.setReg k i w).reg k i = w := by
  simp [State.reg, State.setReg]

theorem State.reg_setReg_kind (s : State) {k j : RegKind} (h : j ≠ k) (i l : Nat) (w : Word) :
    (s.setReg k i w).reg j l = s.reg j l := by
  simp [State.reg, State.setReg, Tab.get_set_ne (regKey_ne_kind h l i)]

theorem State.reg_setReg_index (s : State) {i l : Nat} (h : l ≠ i) (k j : RegKind) (w : Word) :
    (s.setReg k i w).reg j l = s.reg j l := by
  simp [State.reg, State.setReg, Tab.get_set_ne (regKey_ne_index h j k)]

/-! ## Fields -/

theorem Fld.testBit_get (f : Fld) (w : Word) (i : Nat) :
    (f.get w).testBit i = (decide (i < f.hi + 1 - f.lo) && w.getLsbD (f.lo + i)) := by
  simp [Fld.get, Nat.testBit_mod_two_pow, BitVec.getLsbD, Nat.add_comm]

theorem Fld.getLsbD_mask (f : Fld) (i : Nat) (hi : i < 32) : f.mask.getLsbD i = decide (f.lo ≤ i ∧ i < f.lo + (f.hi + 1 - f.lo)) := by
  simp only [Fld.mask, BitVec.getLsbD_shiftLeft, BitVec.getLsbD_ofNat, Nat.testBit_two_pow_sub_one]
  by_cases h : f.lo ≤ i
  · simp only [h, hi, decide_true, Bool.true_and, true_and]
    have h3 : ¬ i < f.lo := by omega
    have h4 : i - f.lo < 32 := by omega
    simp only [h3, h4, decide_false, decide_true, Bool.not_false, Bool.true_and]
    exact decide_eq_decide.mpr (by omega)
  · have h3 : i < f.lo := by omega
    simp [h, h3]

theorem Fld.getLsbD_put (f : Fld) (v : Nat) (w : Word) (i : Nat) (hi : i < 32) :
    (f.put v w).getLsbD i = if f.lo ≤ i ∧ i < f.lo + (f.hi + 1 - f.lo) then v.testBit (i - f.lo) else w.getLsbD i := by
  simp only [Fld.put, BitVec.getLsbD_or, BitVec.getLsbD_and, BitVec.getLsbD_not, Fld.getLsbD_mask f i hi, hi]
  by_cases h : f.lo ≤ i ∧ i < f.lo + (f.hi + 1 - f.lo)
  · have h3 : ¬ i < f.lo := by omega
    have h4 : i - f.lo < 32 := by omega
    have h5 : (BitVec.ofNat 32 v).getLsbD (i - f.lo) = v.testBit (i - f.lo) := by rw [BitVec.getLsbD_ofNat]; simp [h4]
    rw [BitVec.getLsbD_shiftLeft, h5]
    simp [h, h3, hi]
  · simp [h, hi]

/-- A field reads as it was set, at its width. -/
theorem Fld.get_put_same (f : Fld) (h : f.hi < 32) (v : Nat) (w : Word) : f.get (f.put v w) = v % 2 ^ (f.hi + 1 - f.lo) := by
  apply Nat.eq_of_testBit_eq
  intro i
  rw [Fld.testBit_get, Nat.testBit_mod_two_pow]
  by_cases hi : i < f.hi + 1 - f.lo
  · rw [Fld.getLsbD_put f v w _ (by omega), if_pos (by omega), Nat.add_sub_cancel_left]
  · simp [hi]

/-- A field that lies elsewhere in the register keeps its value. -/
theorem Fld.get_put_ne (f g : Fld) (h : f.hi < g.lo ∨ g.hi < f.lo) (hf : f.hi < 32) (v : Nat) (w : Word) :
    f.get (g.put v w) = f.get w := by
  apply Nat.eq_of_testBit_eq
  intro i
  rw [Fld.testBit_get, Fld.testBit_get]
  by_cases hi : i < f.hi + 1 - f.lo
  · rw [Fld.getLsbD_put g v w _ (by omega), if_neg (by omega)]
  · simp [hi]

theorem State.get_put_same (s : State) (f : Fld) (h : f.hi < 32) (v i : Nat) : (s.put f v i).get f i = v % 2 ^ (f.hi + 1 - f.lo) := by
  simp [State.get, State.put, Fld.get_put_same f h]

theorem State.get_put_kind (s : State) {f g : Fld} (h : f.kind ≠ g.kind) (v i l : Nat) : (s.put g v i).get f l = s.get f l := by
  simp [State.get, State.put, State.reg_setReg_kind s h]

theorem State.get_put_index (s : State) {i l : Nat} (h : l ≠ i) (f g : Fld) (v : Nat) : (s.put g v i).get f l = s.get f l := by
  simp [State.get, State.put, State.reg_setReg_index s h]

theorem State.get_put_field (s : State) {f g : Fld} (h : f.hi < g.lo ∨ g.hi < f.lo) (hf : f.hi < 32) (v i l : Nat) :
    (s.put g v i).get f l = s.get f l := by
  by_cases hk : f.kind = g.kind
  · by_cases hi : l = i
    · subst hi
      simp only [State.get, State.put, hk, State.reg_setReg_same]
      exact Fld.get_put_ne f g h hf v _
    · exact State.get_put_index s hi f g v
  · exact State.get_put_kind s hk v i l

/-! ## What an update leaves alone -/

@[simp] theorem State.setReg_part (s : State) (k : RegKind) (i : Nat) (w : Word) : (s.setReg k i w).part = s.part := rfl
@[simp] theorem State.setReg_time (s : State) (k : RegKind) (i : Nat) (w : Word) : (s.setReg k i w).time = s.time := rfl
@[simp] theorem State.setReg_freeCtr (s : State) (k : RegKind) (i : Nat) (w : Word) : (s.setReg k i w).freeCtr = s.freeCtr := rfl
@[simp] theorem State.setReg_log (s : State) (k : RegKind) (i : Nat) (w : Word) : (s.setReg k i w).log = s.log := rfl
@[simp] theorem State.setReg_logMir (s : State) (k : RegKind) (i : Nat) (w : Word) : (s.setReg k i w).logMir = s.logMir := rfl
@[simp] theorem State.setReg_resps (s : State) (k : RegKind) (i : Nat) (w : Word) : (s.setReg k i w).resps = s.resps := rfl
@[simp] theorem State.setReg_hiLatch (s : State) (k : RegKind) (i : Nat) (w : Word) : (s.setReg k i w).hiLatch = s.hiLatch := rfl
@[simp] theorem State.setReg_waLatch (s : State) (k : RegKind) (i : Nat) (w : Word) : (s.setReg k i w).waLatch = s.waLatch := rfl
@[simp] theorem State.setReg_sicStack (s : State) (k : RegKind) (i : Nat) (w : Word) : (s.setReg k i w).sicStack = s.sicStack := rfl
@[simp] theorem State.setReg_leases (s : State) (k : RegKind) (i : Nat) (w : Word) : (s.setReg k i w).leases = s.leases := rfl
@[simp] theorem State.setReg_pwr (s : State) (k : RegKind) (i : Nat) (w : Word) : (s.setReg k i w).pwr = s.pwr := rfl
@[simp] theorem State.setReg_sec (s : State) (k : RegKind) (i : Nat) (w : Word) : (s.setReg k i w).sec = s.sec := rfl
@[simp] theorem State.setReg_fab (s : State) (k : RegKind) (i : Nat) (w : Word) : (s.setReg k i w).fab = s.fab := rfl
@[simp] theorem State.setReg_slq (s : State) (k : RegKind) (i : Nat) (w : Word) : (s.setReg k i w).slq = s.slq := rfl
@[simp] theorem State.setReg_hrv (s : State) (k : RegKind) (i : Nat) (w : Word) : (s.setReg k i w).hrv = s.hrv := rfl
@[simp] theorem State.setReg_flue (s : State) (k : RegKind) (i : Nat) (w : Word) : (s.setReg k i w).flue = s.flue := rfl
@[simp] theorem State.setReg_rtag (s : State) (k : RegKind) (i : Nat) (w : Word) : (s.setReg k i w).rtag = s.rtag := rfl
@[simp] theorem State.setReg_fetchPtr (s : State) (k : RegKind) (i : Nat) (w : Word) : (s.setReg k i w).fetchPtr = s.fetchPtr := rfl
@[simp] theorem State.setReg_reqs (s : State) (k : RegKind) (i : Nat) (w : Word) : (s.setReg k i w).reqs = s.reqs := rfl
@[simp] theorem State.setReg_mov (s : State) (k : RegKind) (i : Nat) (w : Word) : (s.setReg k i w).mov = s.mov := rfl
@[simp] theorem State.setReg_wp (s : State) (k : RegKind) (i : Nat) (w : Word) : (s.setReg k i w).wp = s.wp := rfl
@[simp] theorem State.setReg_ch (s : State) (k : RegKind) (i : Nat) (w : Word) : (s.setReg k i w).ch = s.ch := rfl
@[simp] theorem State.setReg_md (s : State) (k : RegKind) (i : Nat) (w : Word) : (s.setReg k i w).md = s.md := rfl
@[simp] theorem State.setReg_gr (s : State) (k : RegKind) (i : Nat) (w : Word) : (s.setReg k i w).gr = s.gr := rfl
@[simp] theorem State.setReg_cal (s : State) (k : RegKind) (i : Nat) (w : Word) : (s.setReg k i w).cal = s.cal := rfl
@[simp] theorem State.setReg_dg (s : State) (k : RegKind) (i : Nat) (w : Word) : (s.setReg k i w).dg = s.dg := rfl
@[simp] theorem State.setReg_img (s : State) (k : RegKind) (i : Nat) (w : Word) : (s.setReg k i w).img = s.img := rfl
@[simp] theorem State.setReg_xspi (s : State) (k : RegKind) (i : Nat) (w : Word) : (s.setReg k i w).xspi = s.xspi := rfl
@[simp] theorem State.setReg_tap (s : State) (k : RegKind) (i : Nat) (w : Word) : (s.setReg k i w).tap = s.tap := rfl
@[simp] theorem State.setReg_fwUp (s : State) (k : RegKind) (i : Nat) (w : Word) : (s.setReg k i w).fwUp = s.fwUp := rfl
@[simp] theorem State.setReg_pending (s : State) (k : RegKind) (i : Nat) (w : Word) : (s.setReg k i w).pending = s.pending := rfl
@[simp] theorem State.put_part (s : State) (x : Fld) (v i : Nat) : (s.put x v i).part = s.part := rfl
@[simp] theorem State.put_time (s : State) (x : Fld) (v i : Nat) : (s.put x v i).time = s.time := rfl
@[simp] theorem State.put_freeCtr (s : State) (x : Fld) (v i : Nat) : (s.put x v i).freeCtr = s.freeCtr := rfl
@[simp] theorem State.put_log (s : State) (x : Fld) (v i : Nat) : (s.put x v i).log = s.log := rfl
@[simp] theorem State.put_logMir (s : State) (x : Fld) (v i : Nat) : (s.put x v i).logMir = s.logMir := rfl
@[simp] theorem State.put_resps (s : State) (x : Fld) (v i : Nat) : (s.put x v i).resps = s.resps := rfl
@[simp] theorem State.put_hiLatch (s : State) (x : Fld) (v i : Nat) : (s.put x v i).hiLatch = s.hiLatch := rfl
@[simp] theorem State.put_waLatch (s : State) (x : Fld) (v i : Nat) : (s.put x v i).waLatch = s.waLatch := rfl
@[simp] theorem State.put_sicStack (s : State) (x : Fld) (v i : Nat) : (s.put x v i).sicStack = s.sicStack := rfl
@[simp] theorem State.put_leases (s : State) (x : Fld) (v i : Nat) : (s.put x v i).leases = s.leases := rfl
@[simp] theorem State.put_pwr (s : State) (x : Fld) (v i : Nat) : (s.put x v i).pwr = s.pwr := rfl
@[simp] theorem State.put_sec (s : State) (x : Fld) (v i : Nat) : (s.put x v i).sec = s.sec := rfl
@[simp] theorem State.put_fab (s : State) (x : Fld) (v i : Nat) : (s.put x v i).fab = s.fab := rfl
@[simp] theorem State.put_slq (s : State) (x : Fld) (v i : Nat) : (s.put x v i).slq = s.slq := rfl
@[simp] theorem State.put_hrv (s : State) (x : Fld) (v i : Nat) : (s.put x v i).hrv = s.hrv := rfl
@[simp] theorem State.put_flue (s : State) (x : Fld) (v i : Nat) : (s.put x v i).flue = s.flue := rfl
@[simp] theorem State.put_rtag (s : State) (x : Fld) (v i : Nat) : (s.put x v i).rtag = s.rtag := rfl
@[simp] theorem State.put_fetchPtr (s : State) (x : Fld) (v i : Nat) : (s.put x v i).fetchPtr = s.fetchPtr := rfl
@[simp] theorem State.put_reqs (s : State) (x : Fld) (v i : Nat) : (s.put x v i).reqs = s.reqs := rfl
@[simp] theorem State.put_mov (s : State) (x : Fld) (v i : Nat) : (s.put x v i).mov = s.mov := rfl
@[simp] theorem State.put_wp (s : State) (x : Fld) (v i : Nat) : (s.put x v i).wp = s.wp := rfl
@[simp] theorem State.put_ch (s : State) (x : Fld) (v i : Nat) : (s.put x v i).ch = s.ch := rfl
@[simp] theorem State.put_md (s : State) (x : Fld) (v i : Nat) : (s.put x v i).md = s.md := rfl
@[simp] theorem State.put_gr (s : State) (x : Fld) (v i : Nat) : (s.put x v i).gr = s.gr := rfl
@[simp] theorem State.put_cal (s : State) (x : Fld) (v i : Nat) : (s.put x v i).cal = s.cal := rfl
@[simp] theorem State.put_dg (s : State) (x : Fld) (v i : Nat) : (s.put x v i).dg = s.dg := rfl
@[simp] theorem State.put_img (s : State) (x : Fld) (v i : Nat) : (s.put x v i).img = s.img := rfl
@[simp] theorem State.put_xspi (s : State) (x : Fld) (v i : Nat) : (s.put x v i).xspi = s.xspi := rfl
@[simp] theorem State.put_tap (s : State) (x : Fld) (v i : Nat) : (s.put x v i).tap = s.tap := rfl
@[simp] theorem State.put_fwUp (s : State) (x : Fld) (v i : Nat) : (s.put x v i).fwUp = s.fwUp := rfl
@[simp] theorem State.put_pending (s : State) (x : Fld) (v i : Nat) : (s.put x v i).pending = s.pending := rfl
@[simp] theorem State.putFlag_part (s : State) (x : Fld) (b : Bool) (i : Nat) : (s.putFlag x b i).part = s.part := rfl
@[simp] theorem State.putFlag_time (s : State) (x : Fld) (b : Bool) (i : Nat) : (s.putFlag x b i).time = s.time := rfl
@[simp] theorem State.putFlag_freeCtr (s : State) (x : Fld) (b : Bool) (i : Nat) : (s.putFlag x b i).freeCtr = s.freeCtr := rfl
@[simp] theorem State.putFlag_log (s : State) (x : Fld) (b : Bool) (i : Nat) : (s.putFlag x b i).log = s.log := rfl
@[simp] theorem State.putFlag_logMir (s : State) (x : Fld) (b : Bool) (i : Nat) : (s.putFlag x b i).logMir = s.logMir := rfl
@[simp] theorem State.putFlag_resps (s : State) (x : Fld) (b : Bool) (i : Nat) : (s.putFlag x b i).resps = s.resps := rfl
@[simp] theorem State.putFlag_hiLatch (s : State) (x : Fld) (b : Bool) (i : Nat) : (s.putFlag x b i).hiLatch = s.hiLatch := rfl
@[simp] theorem State.putFlag_waLatch (s : State) (x : Fld) (b : Bool) (i : Nat) : (s.putFlag x b i).waLatch = s.waLatch := rfl
@[simp] theorem State.putFlag_sicStack (s : State) (x : Fld) (b : Bool) (i : Nat) : (s.putFlag x b i).sicStack = s.sicStack := rfl
@[simp] theorem State.putFlag_leases (s : State) (x : Fld) (b : Bool) (i : Nat) : (s.putFlag x b i).leases = s.leases := rfl
@[simp] theorem State.putFlag_pwr (s : State) (x : Fld) (b : Bool) (i : Nat) : (s.putFlag x b i).pwr = s.pwr := rfl
@[simp] theorem State.putFlag_sec (s : State) (x : Fld) (b : Bool) (i : Nat) : (s.putFlag x b i).sec = s.sec := rfl
@[simp] theorem State.putFlag_fab (s : State) (x : Fld) (b : Bool) (i : Nat) : (s.putFlag x b i).fab = s.fab := rfl
@[simp] theorem State.putFlag_slq (s : State) (x : Fld) (b : Bool) (i : Nat) : (s.putFlag x b i).slq = s.slq := rfl
@[simp] theorem State.putFlag_hrv (s : State) (x : Fld) (b : Bool) (i : Nat) : (s.putFlag x b i).hrv = s.hrv := rfl
@[simp] theorem State.putFlag_flue (s : State) (x : Fld) (b : Bool) (i : Nat) : (s.putFlag x b i).flue = s.flue := rfl
@[simp] theorem State.putFlag_rtag (s : State) (x : Fld) (b : Bool) (i : Nat) : (s.putFlag x b i).rtag = s.rtag := rfl
@[simp] theorem State.putFlag_fetchPtr (s : State) (x : Fld) (b : Bool) (i : Nat) : (s.putFlag x b i).fetchPtr = s.fetchPtr := rfl
@[simp] theorem State.putFlag_reqs (s : State) (x : Fld) (b : Bool) (i : Nat) : (s.putFlag x b i).reqs = s.reqs := rfl
@[simp] theorem State.putFlag_mov (s : State) (x : Fld) (b : Bool) (i : Nat) : (s.putFlag x b i).mov = s.mov := rfl
@[simp] theorem State.putFlag_wp (s : State) (x : Fld) (b : Bool) (i : Nat) : (s.putFlag x b i).wp = s.wp := rfl
@[simp] theorem State.putFlag_ch (s : State) (x : Fld) (b : Bool) (i : Nat) : (s.putFlag x b i).ch = s.ch := rfl
@[simp] theorem State.putFlag_md (s : State) (x : Fld) (b : Bool) (i : Nat) : (s.putFlag x b i).md = s.md := rfl
@[simp] theorem State.putFlag_gr (s : State) (x : Fld) (b : Bool) (i : Nat) : (s.putFlag x b i).gr = s.gr := rfl
@[simp] theorem State.putFlag_cal (s : State) (x : Fld) (b : Bool) (i : Nat) : (s.putFlag x b i).cal = s.cal := rfl
@[simp] theorem State.putFlag_dg (s : State) (x : Fld) (b : Bool) (i : Nat) : (s.putFlag x b i).dg = s.dg := rfl
@[simp] theorem State.putFlag_img (s : State) (x : Fld) (b : Bool) (i : Nat) : (s.putFlag x b i).img = s.img := rfl
@[simp] theorem State.putFlag_xspi (s : State) (x : Fld) (b : Bool) (i : Nat) : (s.putFlag x b i).xspi = s.xspi := rfl
@[simp] theorem State.putFlag_tap (s : State) (x : Fld) (b : Bool) (i : Nat) : (s.putFlag x b i).tap = s.tap := rfl
@[simp] theorem State.putFlag_fwUp (s : State) (x : Fld) (b : Bool) (i : Nat) : (s.putFlag x b i).fwUp = s.fwUp := rfl
@[simp] theorem State.putFlag_pending (s : State) (x : Fld) (b : Bool) (i : Nat) : (s.putFlag x b i).pending = s.pending := rfl
@[simp] theorem State.inc_part (s : State) (x : Fld) (i n : Nat) : (s.inc x i n).part = s.part := rfl
@[simp] theorem State.inc_time (s : State) (x : Fld) (i n : Nat) : (s.inc x i n).time = s.time := rfl
@[simp] theorem State.inc_freeCtr (s : State) (x : Fld) (i n : Nat) : (s.inc x i n).freeCtr = s.freeCtr := rfl
@[simp] theorem State.inc_log (s : State) (x : Fld) (i n : Nat) : (s.inc x i n).log = s.log := rfl
@[simp] theorem State.inc_logMir (s : State) (x : Fld) (i n : Nat) : (s.inc x i n).logMir = s.logMir := rfl
@[simp] theorem State.inc_resps (s : State) (x : Fld) (i n : Nat) : (s.inc x i n).resps = s.resps := rfl
@[simp] theorem State.inc_hiLatch (s : State) (x : Fld) (i n : Nat) : (s.inc x i n).hiLatch = s.hiLatch := rfl
@[simp] theorem State.inc_waLatch (s : State) (x : Fld) (i n : Nat) : (s.inc x i n).waLatch = s.waLatch := rfl
@[simp] theorem State.inc_sicStack (s : State) (x : Fld) (i n : Nat) : (s.inc x i n).sicStack = s.sicStack := rfl
@[simp] theorem State.inc_leases (s : State) (x : Fld) (i n : Nat) : (s.inc x i n).leases = s.leases := rfl
@[simp] theorem State.inc_pwr (s : State) (x : Fld) (i n : Nat) : (s.inc x i n).pwr = s.pwr := rfl
@[simp] theorem State.inc_sec (s : State) (x : Fld) (i n : Nat) : (s.inc x i n).sec = s.sec := rfl
@[simp] theorem State.inc_fab (s : State) (x : Fld) (i n : Nat) : (s.inc x i n).fab = s.fab := rfl
@[simp] theorem State.inc_slq (s : State) (x : Fld) (i n : Nat) : (s.inc x i n).slq = s.slq := rfl
@[simp] theorem State.inc_hrv (s : State) (x : Fld) (i n : Nat) : (s.inc x i n).hrv = s.hrv := rfl
@[simp] theorem State.inc_flue (s : State) (x : Fld) (i n : Nat) : (s.inc x i n).flue = s.flue := rfl
@[simp] theorem State.inc_rtag (s : State) (x : Fld) (i n : Nat) : (s.inc x i n).rtag = s.rtag := rfl
@[simp] theorem State.inc_fetchPtr (s : State) (x : Fld) (i n : Nat) : (s.inc x i n).fetchPtr = s.fetchPtr := rfl
@[simp] theorem State.inc_reqs (s : State) (x : Fld) (i n : Nat) : (s.inc x i n).reqs = s.reqs := rfl
@[simp] theorem State.inc_mov (s : State) (x : Fld) (i n : Nat) : (s.inc x i n).mov = s.mov := rfl
@[simp] theorem State.inc_wp (s : State) (x : Fld) (i n : Nat) : (s.inc x i n).wp = s.wp := rfl
@[simp] theorem State.inc_ch (s : State) (x : Fld) (i n : Nat) : (s.inc x i n).ch = s.ch := rfl
@[simp] theorem State.inc_md (s : State) (x : Fld) (i n : Nat) : (s.inc x i n).md = s.md := rfl
@[simp] theorem State.inc_gr (s : State) (x : Fld) (i n : Nat) : (s.inc x i n).gr = s.gr := rfl
@[simp] theorem State.inc_cal (s : State) (x : Fld) (i n : Nat) : (s.inc x i n).cal = s.cal := rfl
@[simp] theorem State.inc_dg (s : State) (x : Fld) (i n : Nat) : (s.inc x i n).dg = s.dg := rfl
@[simp] theorem State.inc_img (s : State) (x : Fld) (i n : Nat) : (s.inc x i n).img = s.img := rfl
@[simp] theorem State.inc_xspi (s : State) (x : Fld) (i n : Nat) : (s.inc x i n).xspi = s.xspi := rfl
@[simp] theorem State.inc_tap (s : State) (x : Fld) (i n : Nat) : (s.inc x i n).tap = s.tap := rfl
@[simp] theorem State.inc_fwUp (s : State) (x : Fld) (i n : Nat) : (s.inc x i n).fwUp = s.fwUp := rfl
@[simp] theorem State.inc_pending (s : State) (x : Fld) (i n : Nat) : (s.inc x i n).pending = s.pending := rfl
@[simp] theorem State.setBit_part (s : State) (k : RegKind) (i b : Nat) : (s.setBit k i b).part = s.part := rfl
@[simp] theorem State.setBit_time (s : State) (k : RegKind) (i b : Nat) : (s.setBit k i b).time = s.time := rfl
@[simp] theorem State.setBit_freeCtr (s : State) (k : RegKind) (i b : Nat) : (s.setBit k i b).freeCtr = s.freeCtr := rfl
@[simp] theorem State.setBit_log (s : State) (k : RegKind) (i b : Nat) : (s.setBit k i b).log = s.log := rfl
@[simp] theorem State.setBit_logMir (s : State) (k : RegKind) (i b : Nat) : (s.setBit k i b).logMir = s.logMir := rfl
@[simp] theorem State.setBit_resps (s : State) (k : RegKind) (i b : Nat) : (s.setBit k i b).resps = s.resps := rfl
@[simp] theorem State.setBit_hiLatch (s : State) (k : RegKind) (i b : Nat) : (s.setBit k i b).hiLatch = s.hiLatch := rfl
@[simp] theorem State.setBit_waLatch (s : State) (k : RegKind) (i b : Nat) : (s.setBit k i b).waLatch = s.waLatch := rfl
@[simp] theorem State.setBit_sicStack (s : State) (k : RegKind) (i b : Nat) : (s.setBit k i b).sicStack = s.sicStack := rfl
@[simp] theorem State.setBit_leases (s : State) (k : RegKind) (i b : Nat) : (s.setBit k i b).leases = s.leases := rfl
@[simp] theorem State.setBit_pwr (s : State) (k : RegKind) (i b : Nat) : (s.setBit k i b).pwr = s.pwr := rfl
@[simp] theorem State.setBit_sec (s : State) (k : RegKind) (i b : Nat) : (s.setBit k i b).sec = s.sec := rfl
@[simp] theorem State.setBit_fab (s : State) (k : RegKind) (i b : Nat) : (s.setBit k i b).fab = s.fab := rfl
@[simp] theorem State.setBit_slq (s : State) (k : RegKind) (i b : Nat) : (s.setBit k i b).slq = s.slq := rfl
@[simp] theorem State.setBit_hrv (s : State) (k : RegKind) (i b : Nat) : (s.setBit k i b).hrv = s.hrv := rfl
@[simp] theorem State.setBit_flue (s : State) (k : RegKind) (i b : Nat) : (s.setBit k i b).flue = s.flue := rfl
@[simp] theorem State.setBit_rtag (s : State) (k : RegKind) (i b : Nat) : (s.setBit k i b).rtag = s.rtag := rfl
@[simp] theorem State.setBit_fetchPtr (s : State) (k : RegKind) (i b : Nat) : (s.setBit k i b).fetchPtr = s.fetchPtr := rfl
@[simp] theorem State.setBit_reqs (s : State) (k : RegKind) (i b : Nat) : (s.setBit k i b).reqs = s.reqs := rfl
@[simp] theorem State.setBit_mov (s : State) (k : RegKind) (i b : Nat) : (s.setBit k i b).mov = s.mov := rfl
@[simp] theorem State.setBit_wp (s : State) (k : RegKind) (i b : Nat) : (s.setBit k i b).wp = s.wp := rfl
@[simp] theorem State.setBit_ch (s : State) (k : RegKind) (i b : Nat) : (s.setBit k i b).ch = s.ch := rfl
@[simp] theorem State.setBit_md (s : State) (k : RegKind) (i b : Nat) : (s.setBit k i b).md = s.md := rfl
@[simp] theorem State.setBit_gr (s : State) (k : RegKind) (i b : Nat) : (s.setBit k i b).gr = s.gr := rfl
@[simp] theorem State.setBit_cal (s : State) (k : RegKind) (i b : Nat) : (s.setBit k i b).cal = s.cal := rfl
@[simp] theorem State.setBit_dg (s : State) (k : RegKind) (i b : Nat) : (s.setBit k i b).dg = s.dg := rfl
@[simp] theorem State.setBit_img (s : State) (k : RegKind) (i b : Nat) : (s.setBit k i b).img = s.img := rfl
@[simp] theorem State.setBit_xspi (s : State) (k : RegKind) (i b : Nat) : (s.setBit k i b).xspi = s.xspi := rfl
@[simp] theorem State.setBit_tap (s : State) (k : RegKind) (i b : Nat) : (s.setBit k i b).tap = s.tap := rfl
@[simp] theorem State.setBit_fwUp (s : State) (k : RegKind) (i b : Nat) : (s.setBit k i b).fwUp = s.fwUp := rfl
@[simp] theorem State.setBit_pending (s : State) (k : RegKind) (i b : Nat) : (s.setBit k i b).pending = s.pending := rfl
@[simp] theorem State.clrBit_part (s : State) (k : RegKind) (i b : Nat) : (s.clrBit k i b).part = s.part := rfl
@[simp] theorem State.clrBit_time (s : State) (k : RegKind) (i b : Nat) : (s.clrBit k i b).time = s.time := rfl
@[simp] theorem State.clrBit_freeCtr (s : State) (k : RegKind) (i b : Nat) : (s.clrBit k i b).freeCtr = s.freeCtr := rfl
@[simp] theorem State.clrBit_log (s : State) (k : RegKind) (i b : Nat) : (s.clrBit k i b).log = s.log := rfl
@[simp] theorem State.clrBit_logMir (s : State) (k : RegKind) (i b : Nat) : (s.clrBit k i b).logMir = s.logMir := rfl
@[simp] theorem State.clrBit_resps (s : State) (k : RegKind) (i b : Nat) : (s.clrBit k i b).resps = s.resps := rfl
@[simp] theorem State.clrBit_hiLatch (s : State) (k : RegKind) (i b : Nat) : (s.clrBit k i b).hiLatch = s.hiLatch := rfl
@[simp] theorem State.clrBit_waLatch (s : State) (k : RegKind) (i b : Nat) : (s.clrBit k i b).waLatch = s.waLatch := rfl
@[simp] theorem State.clrBit_sicStack (s : State) (k : RegKind) (i b : Nat) : (s.clrBit k i b).sicStack = s.sicStack := rfl
@[simp] theorem State.clrBit_leases (s : State) (k : RegKind) (i b : Nat) : (s.clrBit k i b).leases = s.leases := rfl
@[simp] theorem State.clrBit_pwr (s : State) (k : RegKind) (i b : Nat) : (s.clrBit k i b).pwr = s.pwr := rfl
@[simp] theorem State.clrBit_sec (s : State) (k : RegKind) (i b : Nat) : (s.clrBit k i b).sec = s.sec := rfl
@[simp] theorem State.clrBit_fab (s : State) (k : RegKind) (i b : Nat) : (s.clrBit k i b).fab = s.fab := rfl
@[simp] theorem State.clrBit_slq (s : State) (k : RegKind) (i b : Nat) : (s.clrBit k i b).slq = s.slq := rfl
@[simp] theorem State.clrBit_hrv (s : State) (k : RegKind) (i b : Nat) : (s.clrBit k i b).hrv = s.hrv := rfl
@[simp] theorem State.clrBit_flue (s : State) (k : RegKind) (i b : Nat) : (s.clrBit k i b).flue = s.flue := rfl
@[simp] theorem State.clrBit_rtag (s : State) (k : RegKind) (i b : Nat) : (s.clrBit k i b).rtag = s.rtag := rfl
@[simp] theorem State.clrBit_fetchPtr (s : State) (k : RegKind) (i b : Nat) : (s.clrBit k i b).fetchPtr = s.fetchPtr := rfl
@[simp] theorem State.clrBit_reqs (s : State) (k : RegKind) (i b : Nat) : (s.clrBit k i b).reqs = s.reqs := rfl
@[simp] theorem State.clrBit_mov (s : State) (k : RegKind) (i b : Nat) : (s.clrBit k i b).mov = s.mov := rfl
@[simp] theorem State.clrBit_wp (s : State) (k : RegKind) (i b : Nat) : (s.clrBit k i b).wp = s.wp := rfl
@[simp] theorem State.clrBit_ch (s : State) (k : RegKind) (i b : Nat) : (s.clrBit k i b).ch = s.ch := rfl
@[simp] theorem State.clrBit_md (s : State) (k : RegKind) (i b : Nat) : (s.clrBit k i b).md = s.md := rfl
@[simp] theorem State.clrBit_gr (s : State) (k : RegKind) (i b : Nat) : (s.clrBit k i b).gr = s.gr := rfl
@[simp] theorem State.clrBit_cal (s : State) (k : RegKind) (i b : Nat) : (s.clrBit k i b).cal = s.cal := rfl
@[simp] theorem State.clrBit_dg (s : State) (k : RegKind) (i b : Nat) : (s.clrBit k i b).dg = s.dg := rfl
@[simp] theorem State.clrBit_img (s : State) (k : RegKind) (i b : Nat) : (s.clrBit k i b).img = s.img := rfl
@[simp] theorem State.clrBit_xspi (s : State) (k : RegKind) (i b : Nat) : (s.clrBit k i b).xspi = s.xspi := rfl
@[simp] theorem State.clrBit_tap (s : State) (k : RegKind) (i b : Nat) : (s.clrBit k i b).tap = s.tap := rfl
@[simp] theorem State.clrBit_fwUp (s : State) (k : RegKind) (i b : Nat) : (s.clrBit k i b).fwUp = s.fwUp := rfl
@[simp] theorem State.clrBit_pending (s : State) (k : RegKind) (i b : Nat) : (s.clrBit k i b).pending = s.pending := rfl
@[simp] theorem State.edge_part (s : State) (x : Source) : (s.edge x).part = s.part := rfl
@[simp] theorem State.edge_time (s : State) (x : Source) : (s.edge x).time = s.time := rfl
@[simp] theorem State.edge_freeCtr (s : State) (x : Source) : (s.edge x).freeCtr = s.freeCtr := rfl
@[simp] theorem State.edge_log (s : State) (x : Source) : (s.edge x).log = s.log := rfl
@[simp] theorem State.edge_logMir (s : State) (x : Source) : (s.edge x).logMir = s.logMir := rfl
@[simp] theorem State.edge_resps (s : State) (x : Source) : (s.edge x).resps = s.resps := rfl
@[simp] theorem State.edge_hiLatch (s : State) (x : Source) : (s.edge x).hiLatch = s.hiLatch := rfl
@[simp] theorem State.edge_waLatch (s : State) (x : Source) : (s.edge x).waLatch = s.waLatch := rfl
@[simp] theorem State.edge_sicStack (s : State) (x : Source) : (s.edge x).sicStack = s.sicStack := rfl
@[simp] theorem State.edge_leases (s : State) (x : Source) : (s.edge x).leases = s.leases := rfl
@[simp] theorem State.edge_pwr (s : State) (x : Source) : (s.edge x).pwr = s.pwr := rfl
@[simp] theorem State.edge_sec (s : State) (x : Source) : (s.edge x).sec = s.sec := rfl
@[simp] theorem State.edge_fab (s : State) (x : Source) : (s.edge x).fab = s.fab := rfl
@[simp] theorem State.edge_slq (s : State) (x : Source) : (s.edge x).slq = s.slq := rfl
@[simp] theorem State.edge_hrv (s : State) (x : Source) : (s.edge x).hrv = s.hrv := rfl
@[simp] theorem State.edge_flue (s : State) (x : Source) : (s.edge x).flue = s.flue := rfl
@[simp] theorem State.edge_rtag (s : State) (x : Source) : (s.edge x).rtag = s.rtag := rfl
@[simp] theorem State.edge_fetchPtr (s : State) (x : Source) : (s.edge x).fetchPtr = s.fetchPtr := rfl
@[simp] theorem State.edge_reqs (s : State) (x : Source) : (s.edge x).reqs = s.reqs := rfl
@[simp] theorem State.edge_mov (s : State) (x : Source) : (s.edge x).mov = s.mov := rfl
@[simp] theorem State.edge_wp (s : State) (x : Source) : (s.edge x).wp = s.wp := rfl
@[simp] theorem State.edge_ch (s : State) (x : Source) : (s.edge x).ch = s.ch := rfl
@[simp] theorem State.edge_md (s : State) (x : Source) : (s.edge x).md = s.md := rfl
@[simp] theorem State.edge_gr (s : State) (x : Source) : (s.edge x).gr = s.gr := rfl
@[simp] theorem State.edge_cal (s : State) (x : Source) : (s.edge x).cal = s.cal := rfl
@[simp] theorem State.edge_dg (s : State) (x : Source) : (s.edge x).dg = s.dg := rfl
@[simp] theorem State.edge_img (s : State) (x : Source) : (s.edge x).img = s.img := rfl
@[simp] theorem State.edge_xspi (s : State) (x : Source) : (s.edge x).xspi = s.xspi := rfl
@[simp] theorem State.edge_tap (s : State) (x : Source) : (s.edge x).tap = s.tap := rfl
@[simp] theorem State.edge_fwUp (s : State) (x : Source) : (s.edge x).fwUp = s.fwUp := rfl
@[simp] theorem State.edge_pending (s : State) (x : Source) : (s.edge x).pending = s.pending := rfl
@[simp] theorem State.edgeAll_part (s : State) (k : Nat) : (s.edgeAll k).part = s.part := rfl
@[simp] theorem State.edgeAll_time (s : State) (k : Nat) : (s.edgeAll k).time = s.time := rfl
@[simp] theorem State.edgeAll_freeCtr (s : State) (k : Nat) : (s.edgeAll k).freeCtr = s.freeCtr := rfl
@[simp] theorem State.edgeAll_log (s : State) (k : Nat) : (s.edgeAll k).log = s.log := rfl
@[simp] theorem State.edgeAll_logMir (s : State) (k : Nat) : (s.edgeAll k).logMir = s.logMir := rfl
@[simp] theorem State.edgeAll_resps (s : State) (k : Nat) : (s.edgeAll k).resps = s.resps := rfl
@[simp] theorem State.edgeAll_hiLatch (s : State) (k : Nat) : (s.edgeAll k).hiLatch = s.hiLatch := rfl
@[simp] theorem State.edgeAll_waLatch (s : State) (k : Nat) : (s.edgeAll k).waLatch = s.waLatch := rfl
@[simp] theorem State.edgeAll_sicStack (s : State) (k : Nat) : (s.edgeAll k).sicStack = s.sicStack := rfl
@[simp] theorem State.edgeAll_leases (s : State) (k : Nat) : (s.edgeAll k).leases = s.leases := rfl
@[simp] theorem State.edgeAll_pwr (s : State) (k : Nat) : (s.edgeAll k).pwr = s.pwr := rfl
@[simp] theorem State.edgeAll_sec (s : State) (k : Nat) : (s.edgeAll k).sec = s.sec := rfl
@[simp] theorem State.edgeAll_fab (s : State) (k : Nat) : (s.edgeAll k).fab = s.fab := rfl
@[simp] theorem State.edgeAll_slq (s : State) (k : Nat) : (s.edgeAll k).slq = s.slq := rfl
@[simp] theorem State.edgeAll_hrv (s : State) (k : Nat) : (s.edgeAll k).hrv = s.hrv := rfl
@[simp] theorem State.edgeAll_flue (s : State) (k : Nat) : (s.edgeAll k).flue = s.flue := rfl
@[simp] theorem State.edgeAll_rtag (s : State) (k : Nat) : (s.edgeAll k).rtag = s.rtag := rfl
@[simp] theorem State.edgeAll_fetchPtr (s : State) (k : Nat) : (s.edgeAll k).fetchPtr = s.fetchPtr := rfl
@[simp] theorem State.edgeAll_reqs (s : State) (k : Nat) : (s.edgeAll k).reqs = s.reqs := rfl
@[simp] theorem State.edgeAll_mov (s : State) (k : Nat) : (s.edgeAll k).mov = s.mov := rfl
@[simp] theorem State.edgeAll_wp (s : State) (k : Nat) : (s.edgeAll k).wp = s.wp := rfl
@[simp] theorem State.edgeAll_ch (s : State) (k : Nat) : (s.edgeAll k).ch = s.ch := rfl
@[simp] theorem State.edgeAll_md (s : State) (k : Nat) : (s.edgeAll k).md = s.md := rfl
@[simp] theorem State.edgeAll_gr (s : State) (k : Nat) : (s.edgeAll k).gr = s.gr := rfl
@[simp] theorem State.edgeAll_cal (s : State) (k : Nat) : (s.edgeAll k).cal = s.cal := rfl
@[simp] theorem State.edgeAll_dg (s : State) (k : Nat) : (s.edgeAll k).dg = s.dg := rfl
@[simp] theorem State.edgeAll_img (s : State) (k : Nat) : (s.edgeAll k).img = s.img := rfl
@[simp] theorem State.edgeAll_xspi (s : State) (k : Nat) : (s.edgeAll k).xspi = s.xspi := rfl
@[simp] theorem State.edgeAll_tap (s : State) (k : Nat) : (s.edgeAll k).tap = s.tap := rfl
@[simp] theorem State.edgeAll_fwUp (s : State) (k : Nat) : (s.edgeAll k).fwUp = s.fwUp := rfl
@[simp] theorem State.edgeAll_pending (s : State) (k : Nat) : (s.edgeAll k).pending = s.pending := rfl
@[simp] theorem State.logEntry_part (s : State) (u c : Nat) (o v : BitVec 64) : (s.logEntry u c o v).part = s.part := rfl
@[simp] theorem State.logEntry_time (s : State) (u c : Nat) (o v : BitVec 64) : (s.logEntry u c o v).time = s.time := rfl
@[simp] theorem State.logEntry_freeCtr (s : State) (u c : Nat) (o v : BitVec 64) : (s.logEntry u c o v).freeCtr = s.freeCtr := rfl
@[simp] theorem State.logEntry_logMir (s : State) (u c : Nat) (o v : BitVec 64) : (s.logEntry u c o v).logMir = s.logMir := rfl
@[simp] theorem State.logEntry_resps (s : State) (u c : Nat) (o v : BitVec 64) : (s.logEntry u c o v).resps = s.resps := rfl
@[simp] theorem State.logEntry_hiLatch (s : State) (u c : Nat) (o v : BitVec 64) : (s.logEntry u c o v).hiLatch = s.hiLatch := rfl
@[simp] theorem State.logEntry_waLatch (s : State) (u c : Nat) (o v : BitVec 64) : (s.logEntry u c o v).waLatch = s.waLatch := rfl
@[simp] theorem State.logEntry_sicStack (s : State) (u c : Nat) (o v : BitVec 64) : (s.logEntry u c o v).sicStack = s.sicStack := rfl
@[simp] theorem State.logEntry_leases (s : State) (u c : Nat) (o v : BitVec 64) : (s.logEntry u c o v).leases = s.leases := rfl
@[simp] theorem State.logEntry_pwr (s : State) (u c : Nat) (o v : BitVec 64) : (s.logEntry u c o v).pwr = s.pwr := rfl
@[simp] theorem State.logEntry_sec (s : State) (u c : Nat) (o v : BitVec 64) : (s.logEntry u c o v).sec = s.sec := rfl
@[simp] theorem State.logEntry_fab (s : State) (u c : Nat) (o v : BitVec 64) : (s.logEntry u c o v).fab = s.fab := rfl
@[simp] theorem State.logEntry_slq (s : State) (u c : Nat) (o v : BitVec 64) : (s.logEntry u c o v).slq = s.slq := rfl
@[simp] theorem State.logEntry_hrv (s : State) (u c : Nat) (o v : BitVec 64) : (s.logEntry u c o v).hrv = s.hrv := rfl
@[simp] theorem State.logEntry_flue (s : State) (u c : Nat) (o v : BitVec 64) : (s.logEntry u c o v).flue = s.flue := rfl
@[simp] theorem State.logEntry_rtag (s : State) (u c : Nat) (o v : BitVec 64) : (s.logEntry u c o v).rtag = s.rtag := rfl
@[simp] theorem State.logEntry_fetchPtr (s : State) (u c : Nat) (o v : BitVec 64) : (s.logEntry u c o v).fetchPtr = s.fetchPtr := rfl
@[simp] theorem State.logEntry_reqs (s : State) (u c : Nat) (o v : BitVec 64) : (s.logEntry u c o v).reqs = s.reqs := rfl
@[simp] theorem State.logEntry_mov (s : State) (u c : Nat) (o v : BitVec 64) : (s.logEntry u c o v).mov = s.mov := rfl
@[simp] theorem State.logEntry_wp (s : State) (u c : Nat) (o v : BitVec 64) : (s.logEntry u c o v).wp = s.wp := rfl
@[simp] theorem State.logEntry_ch (s : State) (u c : Nat) (o v : BitVec 64) : (s.logEntry u c o v).ch = s.ch := rfl
@[simp] theorem State.logEntry_md (s : State) (u c : Nat) (o v : BitVec 64) : (s.logEntry u c o v).md = s.md := rfl
@[simp] theorem State.logEntry_gr (s : State) (u c : Nat) (o v : BitVec 64) : (s.logEntry u c o v).gr = s.gr := rfl
@[simp] theorem State.logEntry_cal (s : State) (u c : Nat) (o v : BitVec 64) : (s.logEntry u c o v).cal = s.cal := rfl
@[simp] theorem State.logEntry_dg (s : State) (u c : Nat) (o v : BitVec 64) : (s.logEntry u c o v).dg = s.dg := rfl
@[simp] theorem State.logEntry_img (s : State) (u c : Nat) (o v : BitVec 64) : (s.logEntry u c o v).img = s.img := rfl
@[simp] theorem State.logEntry_xspi (s : State) (u c : Nat) (o v : BitVec 64) : (s.logEntry u c o v).xspi = s.xspi := rfl
@[simp] theorem State.logEntry_tap (s : State) (u c : Nat) (o v : BitVec 64) : (s.logEntry u c o v).tap = s.tap := rfl
@[simp] theorem State.logEntry_fwUp (s : State) (u c : Nat) (o v : BitVec 64) : (s.logEntry u c o v).fwUp = s.fwUp := rfl
@[simp] theorem State.logEntry_pending (s : State) (u c : Nat) (o v : BitVec 64) : (s.logEntry u c o v).pending = s.pending := rfl
@[simp] theorem State.logPacked_part (s : State) (u c : Nat) (o v : List (Nat × Nat)) : (s.logPacked u c o v).part = s.part := rfl
@[simp] theorem State.logPacked_time (s : State) (u c : Nat) (o v : List (Nat × Nat)) : (s.logPacked u c o v).time = s.time := rfl
@[simp] theorem State.logPacked_freeCtr (s : State) (u c : Nat) (o v : List (Nat × Nat)) : (s.logPacked u c o v).freeCtr = s.freeCtr := rfl
@[simp] theorem State.logPacked_logMir (s : State) (u c : Nat) (o v : List (Nat × Nat)) : (s.logPacked u c o v).logMir = s.logMir := rfl
@[simp] theorem State.logPacked_resps (s : State) (u c : Nat) (o v : List (Nat × Nat)) : (s.logPacked u c o v).resps = s.resps := rfl
@[simp] theorem State.logPacked_hiLatch (s : State) (u c : Nat) (o v : List (Nat × Nat)) : (s.logPacked u c o v).hiLatch = s.hiLatch := rfl
@[simp] theorem State.logPacked_waLatch (s : State) (u c : Nat) (o v : List (Nat × Nat)) : (s.logPacked u c o v).waLatch = s.waLatch := rfl
@[simp] theorem State.logPacked_sicStack (s : State) (u c : Nat) (o v : List (Nat × Nat)) : (s.logPacked u c o v).sicStack = s.sicStack := rfl
@[simp] theorem State.logPacked_leases (s : State) (u c : Nat) (o v : List (Nat × Nat)) : (s.logPacked u c o v).leases = s.leases := rfl
@[simp] theorem State.logPacked_pwr (s : State) (u c : Nat) (o v : List (Nat × Nat)) : (s.logPacked u c o v).pwr = s.pwr := rfl
@[simp] theorem State.logPacked_sec (s : State) (u c : Nat) (o v : List (Nat × Nat)) : (s.logPacked u c o v).sec = s.sec := rfl
@[simp] theorem State.logPacked_fab (s : State) (u c : Nat) (o v : List (Nat × Nat)) : (s.logPacked u c o v).fab = s.fab := rfl
@[simp] theorem State.logPacked_slq (s : State) (u c : Nat) (o v : List (Nat × Nat)) : (s.logPacked u c o v).slq = s.slq := rfl
@[simp] theorem State.logPacked_hrv (s : State) (u c : Nat) (o v : List (Nat × Nat)) : (s.logPacked u c o v).hrv = s.hrv := rfl
@[simp] theorem State.logPacked_flue (s : State) (u c : Nat) (o v : List (Nat × Nat)) : (s.logPacked u c o v).flue = s.flue := rfl
@[simp] theorem State.logPacked_rtag (s : State) (u c : Nat) (o v : List (Nat × Nat)) : (s.logPacked u c o v).rtag = s.rtag := rfl
@[simp] theorem State.logPacked_fetchPtr (s : State) (u c : Nat) (o v : List (Nat × Nat)) : (s.logPacked u c o v).fetchPtr = s.fetchPtr := rfl
@[simp] theorem State.logPacked_reqs (s : State) (u c : Nat) (o v : List (Nat × Nat)) : (s.logPacked u c o v).reqs = s.reqs := rfl
@[simp] theorem State.logPacked_mov (s : State) (u c : Nat) (o v : List (Nat × Nat)) : (s.logPacked u c o v).mov = s.mov := rfl
@[simp] theorem State.logPacked_wp (s : State) (u c : Nat) (o v : List (Nat × Nat)) : (s.logPacked u c o v).wp = s.wp := rfl
@[simp] theorem State.logPacked_ch (s : State) (u c : Nat) (o v : List (Nat × Nat)) : (s.logPacked u c o v).ch = s.ch := rfl
@[simp] theorem State.logPacked_md (s : State) (u c : Nat) (o v : List (Nat × Nat)) : (s.logPacked u c o v).md = s.md := rfl
@[simp] theorem State.logPacked_gr (s : State) (u c : Nat) (o v : List (Nat × Nat)) : (s.logPacked u c o v).gr = s.gr := rfl
@[simp] theorem State.logPacked_cal (s : State) (u c : Nat) (o v : List (Nat × Nat)) : (s.logPacked u c o v).cal = s.cal := rfl
@[simp] theorem State.logPacked_dg (s : State) (u c : Nat) (o v : List (Nat × Nat)) : (s.logPacked u c o v).dg = s.dg := rfl
@[simp] theorem State.logPacked_img (s : State) (u c : Nat) (o v : List (Nat × Nat)) : (s.logPacked u c o v).img = s.img := rfl
@[simp] theorem State.logPacked_xspi (s : State) (u c : Nat) (o v : List (Nat × Nat)) : (s.logPacked u c o v).xspi = s.xspi := rfl
@[simp] theorem State.logPacked_tap (s : State) (u c : Nat) (o v : List (Nat × Nat)) : (s.logPacked u c o v).tap = s.tap := rfl
@[simp] theorem State.logPacked_fwUp (s : State) (u c : Nat) (o v : List (Nat × Nat)) : (s.logPacked u c o v).fwUp = s.fwUp := rfl
@[simp] theorem State.logPacked_pending (s : State) (u c : Nat) (o v : List (Nat × Nat)) : (s.logPacked u c o v).pending = s.pending := rfl
@[simp] theorem State.respond_part (s : State) (r : Req) (c : RCode) (d : List Byte) : (s.respond r c d).part = s.part := rfl
@[simp] theorem State.respond_regs (s : State) (r : Req) (c : RCode) (d : List Byte) : (s.respond r c d).regs = s.regs := rfl
@[simp] theorem State.respond_time (s : State) (r : Req) (c : RCode) (d : List Byte) : (s.respond r c d).time = s.time := rfl
@[simp] theorem State.respond_freeCtr (s : State) (r : Req) (c : RCode) (d : List Byte) : (s.respond r c d).freeCtr = s.freeCtr := rfl
@[simp] theorem State.respond_log (s : State) (r : Req) (c : RCode) (d : List Byte) : (s.respond r c d).log = s.log := rfl
@[simp] theorem State.respond_logMir (s : State) (r : Req) (c : RCode) (d : List Byte) : (s.respond r c d).logMir = s.logMir := rfl
@[simp] theorem State.respond_hiLatch (s : State) (r : Req) (c : RCode) (d : List Byte) : (s.respond r c d).hiLatch = s.hiLatch := rfl
@[simp] theorem State.respond_waLatch (s : State) (r : Req) (c : RCode) (d : List Byte) : (s.respond r c d).waLatch = s.waLatch := rfl
@[simp] theorem State.respond_sicStack (s : State) (r : Req) (c : RCode) (d : List Byte) : (s.respond r c d).sicStack = s.sicStack := rfl
@[simp] theorem State.respond_leases (s : State) (r : Req) (c : RCode) (d : List Byte) : (s.respond r c d).leases = s.leases := rfl
@[simp] theorem State.respond_pwr (s : State) (r : Req) (c : RCode) (d : List Byte) : (s.respond r c d).pwr = s.pwr := rfl
@[simp] theorem State.respond_sec (s : State) (r : Req) (c : RCode) (d : List Byte) : (s.respond r c d).sec = s.sec := rfl
@[simp] theorem State.respond_fab (s : State) (r : Req) (c : RCode) (d : List Byte) : (s.respond r c d).fab = s.fab := rfl
@[simp] theorem State.respond_slq (s : State) (r : Req) (c : RCode) (d : List Byte) : (s.respond r c d).slq = s.slq := rfl
@[simp] theorem State.respond_hrv (s : State) (r : Req) (c : RCode) (d : List Byte) : (s.respond r c d).hrv = s.hrv := rfl
@[simp] theorem State.respond_flue (s : State) (r : Req) (c : RCode) (d : List Byte) : (s.respond r c d).flue = s.flue := rfl
@[simp] theorem State.respond_rtag (s : State) (r : Req) (c : RCode) (d : List Byte) : (s.respond r c d).rtag = s.rtag := rfl
@[simp] theorem State.respond_fetchPtr (s : State) (r : Req) (c : RCode) (d : List Byte) : (s.respond r c d).fetchPtr = s.fetchPtr := rfl
@[simp] theorem State.respond_reqs (s : State) (r : Req) (c : RCode) (d : List Byte) : (s.respond r c d).reqs = s.reqs := rfl
@[simp] theorem State.respond_mov (s : State) (r : Req) (c : RCode) (d : List Byte) : (s.respond r c d).mov = s.mov := rfl
@[simp] theorem State.respond_wp (s : State) (r : Req) (c : RCode) (d : List Byte) : (s.respond r c d).wp = s.wp := rfl
@[simp] theorem State.respond_ch (s : State) (r : Req) (c : RCode) (d : List Byte) : (s.respond r c d).ch = s.ch := rfl
@[simp] theorem State.respond_md (s : State) (r : Req) (c : RCode) (d : List Byte) : (s.respond r c d).md = s.md := rfl
@[simp] theorem State.respond_gr (s : State) (r : Req) (c : RCode) (d : List Byte) : (s.respond r c d).gr = s.gr := rfl
@[simp] theorem State.respond_cal (s : State) (r : Req) (c : RCode) (d : List Byte) : (s.respond r c d).cal = s.cal := rfl
@[simp] theorem State.respond_dg (s : State) (r : Req) (c : RCode) (d : List Byte) : (s.respond r c d).dg = s.dg := rfl
@[simp] theorem State.respond_img (s : State) (r : Req) (c : RCode) (d : List Byte) : (s.respond r c d).img = s.img := rfl
@[simp] theorem State.respond_xspi (s : State) (r : Req) (c : RCode) (d : List Byte) : (s.respond r c d).xspi = s.xspi := rfl
@[simp] theorem State.respond_tap (s : State) (r : Req) (c : RCode) (d : List Byte) : (s.respond r c d).tap = s.tap := rfl
@[simp] theorem State.respond_fwUp (s : State) (r : Req) (c : RCode) (d : List Byte) : (s.respond r c d).fwUp = s.fwUp := rfl
@[simp] theorem State.respond_pending (s : State) (r : Req) (c : RCode) (d : List Byte) : (s.respond r c d).pending = s.pending := rfl
@[simp] theorem State.fresh_part (s : State)  : (s.fresh.2).part = s.part := rfl
@[simp] theorem State.fresh_regs (s : State)  : (s.fresh.2).regs = s.regs := rfl
@[simp] theorem State.fresh_time (s : State)  : (s.fresh.2).time = s.time := rfl
@[simp] theorem State.fresh_log (s : State)  : (s.fresh.2).log = s.log := rfl
@[simp] theorem State.fresh_logMir (s : State)  : (s.fresh.2).logMir = s.logMir := rfl
@[simp] theorem State.fresh_resps (s : State)  : (s.fresh.2).resps = s.resps := rfl
@[simp] theorem State.fresh_hiLatch (s : State)  : (s.fresh.2).hiLatch = s.hiLatch := rfl
@[simp] theorem State.fresh_waLatch (s : State)  : (s.fresh.2).waLatch = s.waLatch := rfl
@[simp] theorem State.fresh_sicStack (s : State)  : (s.fresh.2).sicStack = s.sicStack := rfl
@[simp] theorem State.fresh_leases (s : State)  : (s.fresh.2).leases = s.leases := rfl
@[simp] theorem State.fresh_pwr (s : State)  : (s.fresh.2).pwr = s.pwr := rfl
@[simp] theorem State.fresh_sec (s : State)  : (s.fresh.2).sec = s.sec := rfl
@[simp] theorem State.fresh_fab (s : State)  : (s.fresh.2).fab = s.fab := rfl
@[simp] theorem State.fresh_slq (s : State)  : (s.fresh.2).slq = s.slq := rfl
@[simp] theorem State.fresh_hrv (s : State)  : (s.fresh.2).hrv = s.hrv := rfl
@[simp] theorem State.fresh_flue (s : State)  : (s.fresh.2).flue = s.flue := rfl
@[simp] theorem State.fresh_rtag (s : State)  : (s.fresh.2).rtag = s.rtag := rfl
@[simp] theorem State.fresh_fetchPtr (s : State)  : (s.fresh.2).fetchPtr = s.fetchPtr := rfl
@[simp] theorem State.fresh_reqs (s : State)  : (s.fresh.2).reqs = s.reqs := rfl
@[simp] theorem State.fresh_mov (s : State)  : (s.fresh.2).mov = s.mov := rfl
@[simp] theorem State.fresh_wp (s : State)  : (s.fresh.2).wp = s.wp := rfl
@[simp] theorem State.fresh_ch (s : State)  : (s.fresh.2).ch = s.ch := rfl
@[simp] theorem State.fresh_md (s : State)  : (s.fresh.2).md = s.md := rfl
@[simp] theorem State.fresh_gr (s : State)  : (s.fresh.2).gr = s.gr := rfl
@[simp] theorem State.fresh_cal (s : State)  : (s.fresh.2).cal = s.cal := rfl
@[simp] theorem State.fresh_dg (s : State)  : (s.fresh.2).dg = s.dg := rfl
@[simp] theorem State.fresh_img (s : State)  : (s.fresh.2).img = s.img := rfl
@[simp] theorem State.fresh_xspi (s : State)  : (s.fresh.2).xspi = s.xspi := rfl
@[simp] theorem State.fresh_tap (s : State)  : (s.fresh.2).tap = s.tap := rfl
@[simp] theorem State.fresh_fwUp (s : State)  : (s.fresh.2).fwUp = s.fwUp := rfl
@[simp] theorem State.fresh_pending (s : State)  : (s.fresh.2).pending = s.pending := rfl

theorem State.respondWrite_eq (s : State) (r : Req) (c : RCode) :
    s.respondWrite r c = { s with resps := if r.sealedWr then s.resps ++ [⟨r.port, r.vc, r.tag, c, []⟩] else s.resps } := by
  by_cases h : r.sealedWr <;> simp [State.respondWrite, State.respond, h]

end Sys2Proof.Machine
end

