-- ==== Sys2Proof/Laws/Access.lean ====
section
/-! SUPPORT. The shared operations, each with what it can do said once: events under a condition, register accesses through the gate, fields, counts, the
chimney log, and entry to the banked state. -/

namespace Sys2Proof.Machine

/-! ## Events under a condition -/

@[simp] theorem onlyIf_true (s t : State) : onlyIf true s t = .next t := rfl
@[simp] theorem onlyIf_false (s t : State) : onlyIf false s t = .next s := rfl
theorem onlyIf_next (c : Bool) (s t : State) : onlyIf c s t = .next (if c then t else s) := rfl
theorem onCore_next {s : State} (h : s.coreOn = true) (t : State) : onCore s t = .next t := by simp [onCore, h]
theorem running_iff (s : State) : s.running = true ↔ s.coreOn = true ∧ s.banked = false := by simp [State.running]

/-! ## Fields -/

theorem State.reg_put_same (s : State) (f : Fld) (v i : Nat) : (s.put f v i).reg f.kind i = f.put v (s.reg f.kind i) := by
  simp [State.put]

/-- A field written changes no other copy and no other register. -/
theorem otherRegs_put (s : State) (f : Fld) (v i : Nat) : OtherRegs s (s.put f v i) f.kind i := by
  intro k' i' h
  by_cases hk : k' = f.kind
  · subst hk
    exact s.reg_setReg_index (fun e => h (by rw [e])) _ _ _
  · exact s.reg_setReg_kind hk _ _ _

theorem State.flag_putFlag (s : State) (f : Fld) (h : f.hi = f.lo) (h32 : f.hi < 32) (b : Bool) (i : Nat) : (s.putFlag f b i).flag f i = b := by
  have e : (s.putFlag f b i).get f i = b.toNat % 2 ^ (f.hi + 1 - f.lo) := s.get_put_same f h32 b.toNat i
  have w : f.hi + 1 - f.lo = 1 := by omega
  rw [w] at e
  unfold State.flag
  rw [e]
  cases b <;> rfl

theorem Fld.get_lt (f : Fld) (w : Word) : f.get w < 2 ^ (f.hi + 1 - f.lo) := Nat.mod_lt _ (Nat.pow_pos (by decide))

/-- A count goes up by `n`, and stays at its largest value. -/
theorem State.get_inc_same (s : State) (f : Fld) (h : f.hi < 32) (i n : Nat) : (s.inc f i n).get f i = min f.max (s.get f i + n) := by
  unfold State.inc
  rw [s.get_put_same f h]
  have : min f.max (s.get f i + n) < 2 ^ (f.hi + 1 - f.lo) := by
    have p : 0 < 2 ^ (f.hi + 1 - f.lo) := Nat.pow_pos (by decide)
    unfold Fld.max
    omega
  exact Nat.mod_eq_of_lt this

/-! ## The chimney log -/

theorem logged_logPacked (s : State) (u c : Nat) (o v : List (Nat × Nat)) : Logged s (s.logPacked u c o v) u c :=
  ⟨_, rfl, rfl, rfl⟩

theorem head_logEntry (s : State) (u c : Nat) (o v : BitVec 64) : ((s.logEntry u c o v).log.head?.map fun e => (e.unit, e.code)) = some (u, c) := rfl

theorem otherRegs_logEntry (s : State) (u c : Nat) (o v : BitVec 64) : OtherRegs s (s.logEntry u c o v) .glbLogSeq 0 := by
  intro k' i' h
  by_cases hk : k' = .glbLogSeq
  · subst hk
    exact s.reg_setReg_index (fun e => h (by rw [e])) _ _ _
  · exact s.reg_setReg_kind hk _ _ _

/-! ## Register accesses -/

theorem abortEntry_steady {s : State} (h : Steady s) : s.abortEntry = s := by
  unfold State.abortEntry
  split
  · rename_i p e
    cases p with
    | false => exact absurd e h.1
    | true => exact absurd e h.2
  · rfl

theorem respondWrite_resps (s : State) (r : Req) : (s.respondWrite r .ok).resps = okSent s r := by
  rw [s.respondWrite_eq]
  rfl

/-- A write that passes the gate has its effect, and its response follows. -/
theorem regWrite_pass {s : State} {r : Req} {k : RegKind} {i : Nat} {w : Word} (h : Written s r k i w) (hs : Steady s) (eff : State → State) :
    regWrite s r k i w eff = (eff s).respondWrite r .ok := by
  have e : gate s r k i true w = .pass := h
  unfold regWrite
  rw [e]
  by_cases b : k.block = .pwr <;> simp [b, abortEntry_steady hs]

/-- The same of a write of the PWR block, which aborts no entry. -/
theorem regWrite_pwr {s : State} {r : Req} {k : RegKind} {i : Nat} {w : Word} (h : Written s r k i w) (b : k.block = .pwr) (eff : State → State) :
    regWrite s r k i w eff = (eff s).respondWrite r .ok := by
  have e : gate s r k i true w = .pass := h
  unfold regWrite
  rw [e]
  simp [b]

/-- A read that passes the gate has its effect, and its response follows. -/
theorem regRead_pass {s : State} {r : Req} {k : RegKind} {i : Nat} (h : ReadOk s r k i) (eff : State → Word × State) :
    regRead s r k i eff = (eff s).2.respond r .ok (laneBytes (k.offset i) (eff s).1) := by
  have e : gate s r k i false 0 = .pass := h
  unfold regRead
  rw [e]

/-! ## Entry to the banked state -/

/-- What BANKED_ENTRY has still to do is noted, and no other part of the power state changes. -/
theorem bankNamed_pwr {s : State} (h : s.banked = false) (cause : Nat) (obj : List (Nat × Nat)) :
    (s.bankNamed cause obj).pwr = { s.pwr with bankTodo := true } := by
  unfold State.bankNamed
  rw [if_neg (by simp [h])]
  rfl

/-- Entry to the banked state leaves what the media and the write path hold. -/
theorem bankNamed_md (s : State) (cause : Nat) (obj : List (Nat × Nat)) : (s.bankNamed cause obj).md = s.md := by
  unfold State.bankNamed
  split <;> rfl

theorem bankNamed_wp (s : State) (cause : Nat) (obj : List (Nat × Nat)) : (s.bankNamed cause obj).wp = s.wp := by
  unfold State.bankNamed
  split <;> rfl

theorem bankNamed_time (s : State) (cause : Nat) (obj : List (Nat × Nat)) : (s.bankNamed cause obj).time = s.time := by
  unfold State.bankNamed
  split <;> rfl

/-- In the banked state a further cause only writes its log entry (R661). -/
theorem bankNamed_again {s : State} (h : s.banked = true) (cause : Nat) (obj : List (Nat × Nat)) :
    s.bankNamed cause obj = s.logPacked uGLB (0x200 + cause) obj := by
  unfold State.bankNamed
  rw [if_pos h]

end Sys2Proof.Machine
end

