-- ==== Sys2Proof/Laws/KeepsBase.lean ====
section
/-! SUPPORT. What every command keeps: the part, the queue, and the invariant of the state; and the rules by which a definition keeps it that is built of others. -/

open Sys2Proof

namespace Sys2Proof.Machine

/-- Every target's claims in service stand in strictly falling priority. -/
def sicOk (t : Tab (List (Nat × Nat))) : Prop := ∀ e ∈ t, stackOk e.2
/-- What the commands keep, of the five parts of the state that it is about. -/
def KeptParts (pt : Part) (qu : List Instr) (part : Part) (pend : List Instr) (regs : Tab Word) (log : List LogEntry) (st : Tab (List (Nat × Nat))) : Prop :=
  part = pt ∧ pend = qu ∧ regsOk regs ∧ log.length ≤ 2048 ∧ sicOk st
/-- The part is `pt`, the queue is `qu`, and the state has the invariant. -/
def Kept (pt : Part) (qu : List Instr) (s : State) : Prop := KeptParts pt qu s.part s.pending s.regs s.log s.sicStack
/-- What a command answers has the part, the queue and the invariant, where it answers a next state. -/
def KeptOut (pt : Part) (qu : List Instr) : Out → Prop | .next s => Kept pt qu s | _ => True
variable {pt : Part} {qu : List Instr}

theorem kept_ite {c : Prop} [Decidable c] {a b : State} (h : Kept pt qu a) (g : Kept pt qu b) : Kept pt qu (if c then a else b) := by split <;> assumption
theorem keptOut_ite {c : Prop} [Decidable c] {a b : Out} (h : KeptOut pt qu a) (g : KeptOut pt qu b) : KeptOut pt qu (if c then a else b) := by split <;> assumption
theorem kept_fold {l : List α} {f : State → α → State} {s : State} (hf : ∀ t x, Kept pt qu t → Kept pt qu (f t x)) (h : Kept pt qu s) : Kept pt qu (l.foldl f s) := by
  induction l generalizing s with
  | nil => exact h
  | cons a l ih => exact ih (hf s a h)
theorem kept_fold2 {α β : Type} {l : List α} {f : β × State → α → β × State} {s : β × State} (hf : ∀ t x, Kept pt qu t.2 → Kept pt qu (f t x).2) (h : Kept pt qu s.2) : Kept pt qu (l.foldl f s).2 := by
  induction l generalizing s with
  | nil => exact h
  | cons a l ih => exact ih (hf s a h)
theorem keptOut_next (s : State) : KeptOut pt qu (.next s) ↔ Kept pt qu s := Iff.rfl
theorem keptOut_fault (f : Fault) : KeptOut pt qu (.fault f) ↔ True := Iff.rfl
theorem regsOk_set {t : Tab Word} (h : regsOk t) (k : RegKind) (i : Nat) (w : Word) : regsOk (Tab.set (regReset k i) (regKey k i) w t) := by
  have key : regKey k i % 256 = k.ctorIdx ∧ regKey k i / 256 = i := by
    have := k.ctorIdx_lt; simp only [regKey]; omega
  by_cases hv : w = regReset k i
  · simp only [Tab.set, hv, if_true]
    exact ⟨Tab.del_rising _ 0 t h.1, fun e he => h.2 e (Tab.mem_del he)⟩
  · simp only [Tab.set, hv, if_false]
    refine ⟨Tab.put_rising _ w t h.1, fun e he => ?_⟩
    rcases Tab.mem_insert he with rfl | he
    · simpa [key.1, key.2, RegKind.ofNat_ctorIdx] using hv
    · exact h.2 e (Tab.mem_del he)
theorem kept_mk (a b c d e f g h i j k l m n o p q r s t u v w x y z a1 b1 c1 d1 e1 f1) : Kept pt qu (State.mk a b c d e f g h i j k l m n o p q r s t u v w x y z a1 b1 c1 d1 e1 f1) ↔ KeptParts pt qu a f1 b e j := Iff.rfl
theorem kept_same {s : State} (v2 v3 v5 v6 v7 v8 v10 v11 v12 v13 v14 v15 v16 v17 v18 v19 v20 v21 v22 v23 v24 v25 v26 v27 v28 v29 v30) (h : Kept pt qu s) : Kept pt qu (State.mk s.part s.regs v2 v3 s.log v5 v6 v7 v8 s.sicStack v10 v11 v12 v13 v14 v15 v16 v17 v18 v19 v20 v21 v22 v23 v24 v25 v26 v27 v28 v29 v30 s.pending) := h
theorem kept_regs {s : State} {regs : Tab Word} (v2 v3 v5 v6 v7 v8 v10 v11 v12 v13 v14 v15 v16 v17 v18 v19 v20 v21 v22 v23 v24 v25 v26 v27 v28 v29 v30) (h : regsOk regs) (g : Kept pt qu s) : Kept pt qu (State.mk s.part regs v2 v3 s.log v5 v6 v7 v8 s.sicStack v10 v11 v12 v13 v14 v15 v16 v17 v18 v19 v20 v21 v22 v23 v24 v25 v26 v27 v28 v29 v30 s.pending) := ⟨g.1, g.2.1, h, g.2.2.2⟩
theorem kept_back (x : State) : KeptParts pt qu x.part x.pending x.regs x.log x.sicStack ↔ Kept pt qu x := Iff.rfl
theorem kept_ite2 {α : Type} {c : Prop} [Decidable c] {a b : α × State} (h : Kept pt qu a.2) (g : Kept pt qu b.2) : Kept pt qu (if c then a else b).2 := by split <;> assumption
theorem kept_ite22 {α β : Type} {c : Prop} [Decidable c] {a b : α × β × State} (h : Kept pt qu a.2.2) (g : Kept pt qu b.2.2) : Kept pt qu (if c then a else b).2.2 := by split <;> assumption
theorem kept_id {s : State} (h : Kept pt qu s) : Kept pt qu (id s) := h
theorem keptParts_set {a : Part} {b : List Instr} {t : Tab Word} {l : List LogEntry} {x : Tab (List (Nat × Nat))} (h : KeptParts pt qu a b t l x) (k : RegKind) (i : Nat) (w : Word) :
    KeptParts pt qu a b (Tab.set (regReset k i) (regKey k i) w t) l x := ⟨h.1, h.2.1, regsOk_set h.2.2.1 k i w, h.2.2.2⟩
theorem keptParts_fold {α : Type} {a : Part} {b : List Instr} {l : List LogEntry} {x : Tab (List (Nat × Nat))} {xs : List α} {f : Tab Word → α → Tab Word} {t : Tab Word}
    (hf : ∀ t y, KeptParts pt qu a b t l x → KeptParts pt qu a b (f t y) l x) (h : KeptParts pt qu a b t l x) : KeptParts pt qu a b (xs.foldl f t) l x := by
  induction xs generalizing t with
  | nil => exact h
  | cons y ys ih => exact ih (hf t y h)

end Sys2Proof.Machine
end

