-- ==== Sys2Proof/Laws/KeepsFabric.lean ====
section
/-! SUPPORT. The definitions of registers, interrupts, locks, the fabric and the security unit keep the part, the queue and the invariant. -/

open Sys2Proof

set_option linter.unusedTactic false
set_option linter.unreachableTactic false
set_option linter.unusedVariables false

namespace Sys2Proof.Machine

variable {pt : Part} {qu : List Instr}

theorem keeps_State_setReg (s : State) (k : RegKind) (i : Nat) (w : Word) (h_s : Kept pt qu s) : Kept pt qu (State.setReg s k i w) := by
  simp only [State.setReg, ↓kept_mk, ↓kept_back, ↓keptParts_set, *]
theorem keeps_State_put (s : State) (f : Fld) (v : Nat) (i : optParam Nat 0) (h_s : Kept pt qu s) : Kept pt qu (State.put s f v i) := by
  simp only [State.put, ↓keeps_State_setReg, *]
theorem keeps_State_inc (s : State) (f : Fld) (i : optParam Nat 0) (n : optParam Nat 1) (h_s : Kept pt qu s) : Kept pt qu (State.inc s f i n) := by
  simp only [State.inc, ↓keeps_State_put, *]
theorem keeps_State_putFlag (s : State) (f : Fld) (b : Bool) (i : optParam Nat 0) (h_s : Kept pt qu s) : Kept pt qu (State.putFlag s f b i) := by
  simp only [State.putFlag, ↓keeps_State_put, *]
theorem keeps_State_fresh (s : State) (h_s : Kept pt qu s) : Kept pt qu (State.fresh s).2 := by
  simp only [State.fresh, ↓kept_mk, ↓kept_back, *]
theorem keeps2_State_fresh (s : State) : ∀ y, State.fresh s = y → Kept pt qu s → Kept pt qu y.2 := by
  rintro y rfl h_s; exact keeps_State_fresh s h_s
theorem keeps3_State_fresh (s : State) (a y) (e : State.fresh s = (a, y)) (h_s : Kept pt qu s) : Kept pt qu y := keeps2_State_fresh s (a, y) e h_s
theorem keeps_State_logEntry (s : State) (unit : Nat) (code : Nat) (obj : BitVec 64) (val : BitVec 64) (rest : optParam (List Byte) []) (h_s : Kept pt qu s) : Kept pt qu (State.logEntry s unit code obj val rest) := by
  have h := keeps_State_setReg s .glbLogSeq 0 (s.reg .glbLogSeq + 1) h_s
  exact ⟨h.1, h.2.1, h.2.2.1, by simp [State.logEntry] <;> omega, h.2.2.2.2⟩
theorem keeps_State_logPacked (s : State) (unit : Nat) (code : Nat) (obj : optParam (List (Nat × Nat)) []) (val : optParam (List (Nat × Nat)) []) (h_s : Kept pt qu s) : Kept pt qu (State.logPacked s unit code obj val) := by
  simp only [State.logPacked, ↓keeps_State_logEntry, *]
theorem keeps_State_respond (s : State) (r : Req) (code : RCode) (data : List Byte) (h_s : Kept pt qu s) : Kept pt qu (State.respond s r code data) := by
  simp only [State.respond, ↓kept_mk, ↓kept_back, *]
theorem keeps_State_respondWrite (s : State) (r : Req) (code : RCode) (h_s : Kept pt qu s) : Kept pt qu (State.respondWrite s r code) := by
  simp only [State.respondWrite, ↓kept_ite, ↓keeps_State_respond, *]
theorem keeps_onCore (s : State) (t : State) (h_s : Kept pt qu s) (h_t : Kept pt qu t) : KeptOut pt qu (onCore s t) := by
  simp only [onCore, ↓kept_ite, ↓keptOut_next, *]
theorem keeps_onlyIf (c : Bool) (s : State) (t : State) (h_s : Kept pt qu s) (h_t : Kept pt qu t) : KeptOut pt qu (onlyIf c s t) := by
  simp only [onlyIf, ↓kept_ite, ↓keptOut_next, *]
theorem keeps_State_setBit (s : State) (k : RegKind) (i : Nat) (b : Nat) (h_s : Kept pt qu s) : Kept pt qu (State.setBit s k i b) := by
  exact keptParts_set h_s _ _ _
theorem keeps_State_clrBit (s : State) (k : RegKind) (i : Nat) (b : Nat) (h_s : Kept pt qu s) : Kept pt qu (State.clrBit s k i b) := by
  simp only [State.clrBit, ↓keeps_State_setReg, *]
theorem keeps_State_edge (s : State) (src : Source) (h_s : Kept pt qu s) : Kept pt qu (State.edge s src) := by
  simp only [State.edge, ↓keeps_State_setBit, *]
theorem keeps_State_edgeAll (s : State) (k : Nat) (h_s : Kept pt qu s) : Kept pt qu (State.edgeAll s k) := by
  unfold State.edgeAll regsEdgeAll
  show KeptParts pt qu s.part s.pending _ s.log s.sicStack
  generalize List.range 64 = l
  have : ∀ (t : Tab Word), KeptParts pt qu s.part s.pending t s.log s.sicStack → KeptParts pt qu s.part s.pending
      (l.foldl (fun r t => regsSetBit r (pendBit (.priv t k)).1 t (pendBit (.priv t k)).2.2) t) s.log s.sicStack := by
    induction l with
    | nil => exact fun t h => h
    | cons a l ih => exact fun t h => ih _ (keptParts_set h _ _ _)
  exact this _ h_s

theorem keeps_State_noteRefused (s : State) (src : Nat) (ofs : Nat) (h_s : Kept pt qu s) : Kept pt qu (State.noteRefused s src ofs) := by
  simp +contextual (maxDischargeDepth := 200) only [State.noteRefused, ↓kept_ite, ↓keeps_State_putFlag, ↓keeps_State_put, ↓keeps_State_inc, *]
theorem keeps_takeIn (r : Req) (beats : Nat) (s : State) (h_s : Kept pt qu s) : Kept pt qu (takeIn r beats s) := by
  simp only [takeIn, ↓kept_mk, ↓kept_back, *]
theorem keeps_giveIn (r : Req) (beats : Nat) (s : State) (h_s : Kept pt qu s) : Kept pt qu (giveIn r beats s) := by
  simp only [giveIn, ↓kept_mk, ↓kept_back, *]
theorem keeps_State_abortEntry (s : State) (h_s : Kept pt qu s) : Kept pt qu (State.abortEntry s) := by
  unfold State.abortEntry
  repeat' (first
    | (simp +contextual (maxDischargeDepth := 200) only [↓kept_mk, ↓kept_back, ↓keeps_State_put, ↓keeps_State_inc, ↓keeps_State_logPacked, *]; done)
    | split
    | intros)
theorem keeps_State_restart (s : State) (h_s : Kept pt qu s) : Kept pt qu (State.restart s) := by
  unfold State.restart
  repeat' (first
    | (simp +contextual (maxDischargeDepth := 200) only [↓kept_mk, ↓kept_back, *]; done)
    | split
    | intros)
theorem keeps_regWrite (s : State) (r : Req) (k : RegKind) (i : Nat) (w : Word) (eff : State → State) (h_s : Kept pt qu s) (h_eff : ∀ (y0 : State), Kept pt qu y0 → Kept pt qu (eff y0)) : Kept pt qu (regWrite s r k i w eff) := by
  unfold regWrite
  repeat' (first
    | (simp +contextual (maxDischargeDepth := 200) only [↓kept_ite, ↓keeps_State_noteRefused, ↓keeps_State_putFlag, ↓keeps_State_abortEntry, ↓keeps_State_respondWrite, *]; done)
    | split
    | intros)
theorem keeps_regRead (s : State) (r : Req) (k : RegKind) (i : Nat) (eff : State → Word × State) (h_s : Kept pt qu s) (h_eff : ∀ (y0 : State), Kept pt qu y0 → Kept pt qu (eff y0).2) : Kept pt qu (regRead s r k i eff) := by
  unfold regRead
  repeat' (first
    | (simp +contextual (maxDischargeDepth := 200) only [↓keeps_State_noteRefused, ↓keeps_State_respond, *]; done)
    | split
    | intros)
theorem keeps_State_plainWrite (s : State) (k : RegKind) (i : Nat) (w : Word) (h_s : Kept pt qu s) : Kept pt qu (State.plainWrite s k i w) := by
  simp only [State.plainWrite, ↓keeps_State_setReg, *]

theorem keeps_State_clearPending (s : State) (x : Source) (h_s : Kept pt qu s) : Kept pt qu (State.clearPending s x) := by
  simp only [State.clearPending, ↓keeps_State_clrBit, *]
theorem keeps_State_setStack (s : State) (t : Nat) (l : List (Nat × Nat)) (h_s : Kept pt qu s) (hl : stackOk l) : Kept pt qu (State.setStack s t l) := by
  refine ⟨h_s.1, h_s.2.1, h_s.2.2.1, h_s.2.2.2.1, ?_⟩
  intro e he
  simp only [State.setStack, Tab.set, Tab.put] at he
  split at he
  · exact h_s.2.2.2.2 e (Tab.mem_del he)
  · rcases Tab.mem_insert he with rfl | he
    · exact hl
    · exact h_s.2.2.2.2 e (Tab.mem_del he)
theorem find_mem {k : Nat} {t : Tab α} {v : α} (h : Tab.find k t = some v) : ∃ a, (a, v) ∈ t := by
  induction t with
  | nil => simp [Tab.find] at h
  | cons e r ih =>
    obtain ⟨a, w⟩ := e
    simp only [Tab.find] at h
    split at h
    · exact ⟨a, by simp_all⟩
    · obtain ⟨b, hb⟩ := ih h; exact ⟨b, List.mem_cons_of_mem _ hb⟩
theorem stack_ok {s : State} (h : Kept pt qu s) (t : Nat) : stackOk (sicStackOf s t) := by
  simp only [sicStackOf, Tab.get]
  cases hf : Tab.find t s.sicStack with
  | none => trivial
  | some l => obtain ⟨a, ha⟩ := find_mem hf; exact h.2.2.2.2 _ ha
theorem stack_tail {a : Nat × Nat} {l : List (Nat × Nat)} (h : stackOk (a :: l)) : stackOk l := by
  obtain ⟨i, x⟩ := a
  match l, h with
  | [], _ => trivial
  | _ :: _, h => exact h.2.2
theorem prio_le (s : State) (x : Source) : sourcePrio s x ≤ 15 := by
  cases x with
  | priv t k => simp only [sourcePrio]; split <;> omega
  | shared i => simp only [sourcePrio, State.get, Fld.get, Fld.sicRoutePrio]; omega
theorem bestSource_mem (s : State) (l : List Source) {x : Source} (h : bestSource s l = some x) : x ∈ l := by
  induction l generalizing x with
  | nil => simp [bestSource] at h
  | cons a r ih =>
    simp only [bestSource] at h
    split at h
    · simp_all
    · rename_i y hy
      split at h
      · simp_all
      · simp_all
theorem bestSource_ready (s : State) (t : Nat) {x : Source} (h : bestSource s (sourcesReady s t) = some x) :
    threshold s t < sourcePrio s x := by
  have hm := bestSource_mem s _ h
  simp only [sourcesReady, List.mem_filter, sourceReady, Bool.and_eq_true, decide_eq_true_eq] at hm
  have ht : sourceTarget s x = t := by
    rcases List.mem_append.mp hm.1 with h1 | h1
    · obtain ⟨k, _, rfl⟩ := List.mem_map.mp h1; rfl
    · exact by simpa using (List.mem_filter.mp h1).2
  rw [← ht]; exact hm.2.2
theorem keeps_claim (s : State) (t : Nat) (h_s : Kept pt qu s) : Kept pt qu (claim s t).2 := by
  unfold claim
  split
  · exact h_s
  · rename_i x hx
    have hr := bestSource_ready s t hx
    have h1 := keeps_State_clearPending s x h_s
    have h2 := stack_ok h_s t
    refine keeps_State_setStack _ t _ h1 ?_
    have hp : sourcePrio s x ≤ 15 := prio_le s x
    simp only [threshold] at hr
    cases hs : sicStackOf s t with
    | nil => simp only [hs] at hr; exact ⟨by omega, hp⟩
    | cons a l => simp only [hs] at hr h2; exact ⟨hp, hr, h2⟩
theorem keeps2_claim (s : State) (t : Nat) : ∀ y, claim s t = y → Kept pt qu s → Kept pt qu y.2 := by
  rintro y rfl h_s; exact keeps_claim s t h_s
theorem keeps3_claim (s : State) (t : Nat) (a y) (e : claim s t = (a, y)) (h_s : Kept pt qu s) : Kept pt qu y := keeps2_claim s t (a, y) e h_s
theorem keeps_eoi (t : Nat) (w : Word) (s : State) (h_s : Kept pt qu s) : Kept pt qu (eoi t w s) := by
  unfold eoi
  have h2 := stack_ok h_s t
  split
  · rename_i x y r hx
    have h3 : stackOk r := by rw [hx] at h2; exact stack_tail h2
    split
    · exact keeps_State_setStack s t r h_s h3
    · exact keeps_State_logPacked _ _ _ _ _ (keeps_State_putFlag _ _ _ _ h_s)
  · exact keeps_State_logPacked _ _ _ _ _ (keeps_State_putFlag _ _ _ _ h_s)
theorem keeps_swi (w : Word) (s : State) (h_s : Kept pt qu s) : Kept pt qu (swi w s) := by
  simp only [swi, ↓kept_ite, ↓keeps_State_edge, *]
theorem keeps_thrWrite (t : Nat) (w : Word) (s : State) (h_s : Kept pt qu s) : Kept pt qu (thrWrite t w s) := by
  simp only [thrWrite, ↓keeps_State_plainWrite, ↓keeps_State_put, *]
theorem keeps_pendingWrite (k : RegKind) (i : Nat) (w : Word) (hw : Word) (s : State) (h_s : Kept pt qu s) : Kept pt qu (pendingWrite k i w hw s) := by
  simp only [pendingWrite, ↓keeps_State_setReg, *]
theorem keeps_maskWrite (k : RegKind) (i : Nat) (w : Word) (s : State) (h_s : Kept pt qu s) : Kept pt qu (maskWrite k i w s) := by
  unfold maskWrite
  repeat' (first
    | (simp +contextual (maxDischargeDepth := 200) only [↓keeps_State_setReg, *]; done)
    | split
    | intros)
theorem keeps_execSourceEdge (src : Source) (s : State) (h_s : Kept pt qu s) : KeptOut pt qu (execSourceEdge src s) := by
  unfold execSourceEdge
  repeat' (first
    | (simp +contextual (maxDischargeDepth := 200) only [↓keeps_State_edge, ↓keeps_onlyIf, *]; done)
    | split
    | intros)
theorem keeps_execSicClaim (r : Req) (t : Nat) (s : State) (h_s : Kept pt qu s) : KeptOut pt qu (execSicClaim r t s) := by
  simp +contextual (maxDischargeDepth := 200) only [execSicClaim, implies_true, ↓keeps_onlyIf, ↓keeps_claim, ↓keeps_regRead, *]
theorem keeps_execSicEoi (r : Req) (t : Nat) (w : Word) (s : State) (h_s : Kept pt qu s) : KeptOut pt qu (execSicEoi r t w s) := by
  simp +contextual (maxDischargeDepth := 200) only [execSicEoi, implies_true, ↓keeps_regWrite, ↓keeps_onlyIf, ↓keeps_eoi, *]
theorem keeps_execSicSwi (r : Req) (w : Word) (s : State) (h_s : Kept pt qu s) : KeptOut pt qu (execSicSwi r w s) := by
  simp +contextual (maxDischargeDepth := 200) only [execSicSwi, ↓keptOut_next, implies_true, ↓keeps_swi, ↓keeps_regWrite, *]
theorem keeps_execSicBaseWrite (r : Req) (t : Nat) (w : Word) (s : State) (h_s : Kept pt qu s) : KeptOut pt qu (execSicBaseWrite r t w s) := by
  simp +contextual (maxDischargeDepth := 200) only [execSicBaseWrite, implies_true, ↓keeps_regWrite, ↓keeps_onlyIf, ↓keeps_thrWrite, *]
theorem keeps_execSicRouteWrite (r : Req) (i : Nat) (w : Word) (s : State) (h_s : Kept pt qu s) : KeptOut pt qu (execSicRouteWrite r i w s) := by
  simp +contextual (maxDischargeDepth := 200) only [execSicRouteWrite, implies_true, ↓keeps_regWrite, ↓keeps_onlyIf, ↓keeps_State_plainWrite, *]
theorem keeps_execSicPendingWrite (r : Req) (ofs : Nat) (w : Word) (hw : Word) (s : State) (h_s : Kept pt qu s) : KeptOut pt qu (execSicPendingWrite r ofs w hw s) := by
  unfold execSicPendingWrite
  repeat' (first
    | (simp +contextual (maxDischargeDepth := 200) only [↓keptOut_next, implies_true, ↓keeps_regWrite, ↓keeps_pendingWrite, *]; done)
    | split
    | intros)

theorem keeps_grantLock (s : State) (n : Nat) (src : Nat) (h_s : Kept pt qu s) : Kept pt qu (grantLock s n src) := by
  simp only [grantLock, ↓kept_mk, ↓kept_back, ↓keeps_State_putFlag, ↓keeps_State_put, *]
theorem keeps_freeLock (s : State) (n : Nat) (h_s : Kept pt qu s) : Kept pt qu (freeLock s n) := by
  simp only [freeLock, ↓kept_mk, ↓kept_back, ↓keeps_State_putFlag, ↓keeps_State_put, *]
theorem keeps_breakLock (s : State) (n : Nat) (byReset : Bool) (h_s : Kept pt qu s) : Kept pt qu (breakLock s n byReset) := by
  simp +contextual (maxDischargeDepth := 200) only [breakLock, ↓keeps_State_putFlag, ↓keeps_State_inc, ↓keeps_freeLock, ↓keeps_State_logEntry, *]
theorem keeps_lockCtlWrite (r : Req) (n : Nat) (w : Word) (s : State) (h_s : Kept pt qu s) : Kept pt qu (lockCtlWrite r n w s) := by
  simp +contextual (maxDischargeDepth := 200) only [lockCtlWrite, ↓kept_ite, ↓keeps_grantLock, ↓keeps_State_inc, ↓keeps_freeLock, *]
theorem keeps_lockStsWrite (r : Req) (n : Nat) (w : Word) (s : State) (h_s : Kept pt qu s) : Kept pt qu (lockStsWrite r n w s) := by
  simp only [lockStsWrite, ↓kept_ite, ↓keeps_State_plainWrite, *]
theorem keeps_breakAll (s : State) (id : Nat) (h_s : Kept pt qu s) : Kept pt qu (breakAll s id) := by
  simp +contextual (maxDischargeDepth := 200) only [breakAll, ↓kept_ite, ↓kept_fold, implies_true, ↓keeps_breakLock, *]
theorem keeps_ownerRst (w : Word) (s : State) (h_s : Kept pt qu s) : Kept pt qu (ownerRst w s) := by
  simp only [ownerRst, ↓kept_ite, ↓keeps_breakAll, *]
theorem keeps_execLockAcquire (r : Req) (n : Nat) (w : Word) (s : State) (h_s : Kept pt qu s) : KeptOut pt qu (execLockAcquire r n w s) := by
  simp +contextual (maxDischargeDepth := 200) only [execLockAcquire, implies_true, ↓keeps_regWrite, ↓keeps_onlyIf, ↓keeps_lockCtlWrite, *]
theorem keeps_execLockRelease (r : Req) (n : Nat) (w : Word) (s : State) (h_s : Kept pt qu s) : KeptOut pt qu (execLockRelease r n w s) := by
  simp +contextual (maxDischargeDepth := 200) only [execLockRelease, implies_true, ↓keeps_regWrite, ↓keeps_onlyIf, ↓keeps_lockCtlWrite, *]
theorem keeps_execLeaseExpiry (n : Nat) (s : State) (h_s : Kept pt qu s) : KeptOut pt qu (execLeaseExpiry n s) := by
  simp only [execLeaseExpiry, ↓keeps_onlyIf, ↓keeps_breakLock, *]
theorem keeps_execLckOwnerRst (r : Req) (w : Word) (s : State) (h_s : Kept pt qu s) : KeptOut pt qu (execLckOwnerRst r w s) := by
  simp +contextual (maxDischargeDepth := 200) only [execLckOwnerRst, ↓keptOut_next, implies_true, ↓keeps_regWrite, ↓keeps_ownerRst, *]
theorem keeps_execBrokenClear (r : Req) (n : Nat) (w : Word) (again : Bool) (s : State) (h_s : Kept pt qu s) : KeptOut pt qu (execBrokenClear r n w again s) := by
  simp +contextual (maxDischargeDepth := 200) only [execBrokenClear, ↓kept_ite, implies_true, ↓keeps_regWrite, ↓keeps_onlyIf, ↓keeps_State_putFlag, ↓keeps_lockStsWrite, *]

theorem keeps_State_issueAll (s : State) (l : List (FabReq × Purpose)) (h_s : Kept pt qu s) : Kept pt qu (State.issueAll s l) := by
  simp only [State.issueAll, ↓kept_mk, ↓kept_back, ↓kept_ite, *]
theorem keeps_State_issue (s : State) (q : FabReq) (p : Purpose) (h_s : Kept pt qu s) : Kept pt qu (State.issue s q p) := by
  simp only [State.issue, ↓keeps_State_issueAll, *]
theorem keeps_takeOutst (p : Purpose) (s : State) : ∀ y, takeOutst p s = some y → Kept pt qu s → Kept pt qu y.2 := by
  intro y hy h_s
  revert y
  unfold takeOutst
  repeat' (first
    | (simp +contextual (maxDischargeDepth := 200) only [↓kept_mk, ↓kept_back, implies_true, reduceCtorEq, false_implies, Option.some.injEq, forall_eq', *]; done)
    | split
    | intros)
theorem keeps3_takeOutst (p : Purpose) (s : State) (a y) (e : takeOutst p s = some (a, y)) (h_s : Kept pt qu s) : Kept pt qu y := keeps_takeOutst p s (a, y) e h_s
theorem keeps_codeTaken (o : Outst) (code : RCode) (s : State) (h_s : Kept pt qu s) : Kept pt qu (codeTaken o code s).2 := by
  simp only [codeTaken, ↓kept_ite2, ↓keeps_State_logPacked, *]
theorem keeps2_codeTaken (o : Outst) (code : RCode) (s : State) : ∀ y, codeTaken o code s = y → Kept pt qu s → Kept pt qu y.2 := by
  rintro y rfl h_s; exact keeps_codeTaken o code s h_s
theorem keeps3_codeTaken (o : Outst) (code : RCode) (s : State) (a y) (e : codeTaken o code s = (a, y)) (h_s : Kept pt qu s) : Kept pt qu y := keeps2_codeTaken o code s (a, y) e h_s
theorem keeps_execCreditReturn (port : Nat) (vc : Nat) (data : Bool) (s : State) (h_s : Kept pt qu s) : KeptOut pt qu (execCreditReturn port vc data s) := by
  simp only [execCreditReturn, ↓kept_mk, ↓kept_back, ↓keeps_onlyIf, *]
theorem keeps_execInboundAtomic (r : Req) (s : State) (h_s : Kept pt qu s) : KeptOut pt qu (execInboundAtomic r s) := by
  simp only [execInboundAtomic, ↓keeps_State_respond, ↓keeps_onCore, *]
theorem keeps_execInboundReservedVc (r : Req) (s : State) (h_s : Kept pt qu s) : KeptOut pt qu (execInboundReservedVc r s) := by
  simp only [execInboundReservedVc, ↓keeps_onlyIf, ↓keeps_State_respond, *]
theorem keeps_execInboundBoundaryCross (r : Req) (write : Bool) (addr : Nat) (len : Nat) (s : State) (h_s : Kept pt qu s) : KeptOut pt qu (execInboundBoundaryCross r write addr len s) := by
  simp +contextual (maxDischargeDepth := 200) only [execInboundBoundaryCross, ↓kept_ite, ↓keeps_onlyIf, ↓keeps_State_respond, ↓keeps_State_respondWrite, *]

theorem keeps_State_setCtx (s : State) (m : Nat) (c : Nat) (x : Ctx) (h_s : Kept pt qu s) : Kept pt qu (State.setCtx s m c x) := by
  simp only [State.setCtx, ↓kept_mk, ↓kept_back, *]
theorem keeps_State_freeCtx (s : State) (m : Nat) (c : Nat) (h_s : Kept pt qu s) : Kept pt qu (State.freeCtx s m c) := by
  simp only [State.freeCtx, ↓kept_mk, ↓kept_back, *]
theorem keeps_State_freshBytes (s : State) (n : Nat) (h_s : Kept pt qu s) : Kept pt qu (State.freshBytes s n).2 := by
  simp only [State.freshBytes, ↓kept_mk, ↓kept_back, *]
theorem keeps2_State_freshBytes (s : State) (n : Nat) : ∀ y, State.freshBytes s n = y → Kept pt qu s → Kept pt qu y.2 := by
  rintro y rfl h_s; exact keeps_State_freshBytes s n h_s
theorem keeps3_State_freshBytes (s : State) (n : Nat) (a y) (e : State.freshBytes s n = (a, y)) (h_s : Kept pt qu s) : Kept pt qu y := keeps2_State_freshBytes s n (a, y) e h_s
theorem keeps_State_blurBuf (s : State) (b : Tab Byte) (ofs : Nat) (len : Nat) (h_s : Kept pt qu s) : Kept pt qu (State.blurBuf s b ofs len).2 := by
  simp only [State.blurBuf, ↓keeps_State_freshBytes, *]
theorem keeps2_State_blurBuf (s : State) (b : Tab Byte) (ofs : Nat) (len : Nat) : ∀ y, State.blurBuf s b ofs len = y → Kept pt qu s → Kept pt qu y.2 := by
  rintro y rfl h_s; exact keeps_State_blurBuf s b ofs len h_s
theorem keeps3_State_blurBuf (s : State) (b : Tab Byte) (ofs : Nat) (len : Nat) (a y) (e : State.blurBuf s b ofs len = (a, y)) (h_s : Kept pt qu s) : Kept pt qu y := keeps2_State_blurBuf s b ofs len (a, y) e h_s
theorem keeps_State_queueJob (s : State) (j : Job) (h_s : Kept pt qu s) : Kept pt qu (State.queueJob s j) := by
  simp only [State.queueJob, ↓kept_mk, ↓kept_back, *]
theorem keeps_State_queueJobs (s : State) (l : List Job) (h_s : Kept pt qu s) : Kept pt qu (State.queueJobs s l) := by
  simp only [State.queueJobs, ↓kept_mk, ↓kept_back, *]
theorem keeps_State_nextPort (s : State) (h_s : Kept pt qu s) : Kept pt qu (State.nextPort s).2 := by
  simp only [State.nextPort, ↓kept_mk, ↓kept_back, *]
theorem keeps2_State_nextPort (s : State) : ∀ y, State.nextPort s = y → Kept pt qu s → Kept pt qu y.2 := by
  rintro y rfl h_s; exact keeps_State_nextPort s h_s
theorem keeps3_State_nextPort (s : State) (a y) (e : State.nextPort s = (a, y)) (h_s : Kept pt qu s) : Kept pt qu y := keeps2_State_nextPort s (a, y) e h_s
theorem keeps_State_deliverTee (s : State) (p : JobPath) (ofs : Nat) (data : List Byte) (h_s : Kept pt qu s) : Kept pt qu (State.deliverTee s p ofs data) := by
  simp only [State.deliverTee, ↓kept_mk, ↓kept_back, *]
theorem keeps_faultBuf (m : Nat) (x : Ctx) (instr : Nat) (elem : Nat) (s : State) (h_s : Kept pt qu s) : Kept pt qu (faultBuf m x instr elem s).2 := by
  unfold faultBuf
  repeat' (first
    | (simp +contextual (maxDischargeDepth := 200) only [↓keeps_State_blurBuf, *]; done)
    | split
    | intros)
theorem keeps2_faultBuf (m : Nat) (x : Ctx) (instr : Nat) (elem : Nat) (s : State) : ∀ y, faultBuf m x instr elem s = y → Kept pt qu s → Kept pt qu y.2 := by
  rintro y rfl h_s; exact keeps_faultBuf m x instr elem s h_s
theorem keeps3_faultBuf (m : Nat) (x : Ctx) (instr : Nat) (elem : Nat) (s : State) (a y) (e : faultBuf m x instr elem s = (a, y)) (h_s : Kept pt qu s) : Kept pt qu y := keeps2_faultBuf m x instr elem s (a, y) e h_s
theorem keeps_faultRegs (m : Nat) (code : Nat) (instr : Nat) (done : Nat) (addr : Option Nat) (s : State) (h_s : Kept pt qu s) : Kept pt qu (faultRegs m code instr done addr s) := by
  unfold faultRegs
  repeat' (first
    | (simp +contextual (maxDischargeDepth := 200) only [↓keeps_State_fresh, ↓keeps_State_put, ↓keeps_State_inc, ↓keeps_State_logPacked, *]; done)
    | split
    | intros)
theorem keeps_faultSource (m : Nat) (s : State) (h_s : Kept pt qu s) : Kept pt qu (faultSource m s) := by
  simp only [faultSource, ↓kept_ite, ↓keeps_State_edge, *]
theorem keeps_markFault (m : Nat) (c : Nat) (x : Ctx) (code : Nat) (instr : Nat) (q : Option MReq) (s : State) (h_s : Kept pt qu s) : Kept pt qu (markFault m c x code instr q s) := by
  unfold markFault
  repeat' (first
    | (simp +contextual (maxDischargeDepth := 200) only [↓kept_ite, ↓keeps_State_freeCtx, ↓keeps_faultSource, ↓keeps_State_put, ↓keeps_faultRegs, ↓keeps_faultBuf, ↓keeps_State_setCtx, *]; done)
    | split
    | intros)

theorem keeps_enterStage (n : Nat) (s : State) (h_s : Kept pt qu s) : Kept pt qu (enterStage n s) := by
  simp only [enterStage, ↓keeps_State_put, ↓keeps_State_logPacked, *]
theorem keeps_State_bankNamed (s : State) (cause : Nat) (obj : List (Nat × Nat)) (h_s : Kept pt qu s) : Kept pt qu (State.bankNamed s cause obj) := by
  simp +contextual (maxDischargeDepth := 200) only [State.bankNamed, ↓kept_mk, ↓kept_back, ↓kept_ite, ↓keeps_State_putFlag, ↓keeps_State_put, ↓keeps_State_logPacked, ↓keeps_State_edgeAll, ↓keeps_enterStage, *]
theorem keeps_State_bank (s : State) (cause : Nat) (h_s : Kept pt qu s) : Kept pt qu (State.bank s cause) := by
  simp only [State.bank, ↓keeps_State_bankNamed, *]
theorem keeps_contained (s : State) (h_s : Kept pt qu s) : Kept pt qu (contained s) := by
  simp only [contained, ↓keeps_State_inc, ↓keeps_State_logPacked, *]

theorem keeps_State_urgeNs (s : State) (n : Nat) (h_s : Kept pt qu s) : Kept pt qu (State.urgeNs s n) := by
  simp only [State.urgeNs, ↓kept_mk, ↓kept_back, *]

theorem keptParts_regsKbuf {a : Part} {b : List Instr} {l : List LogEntry} {x : Tab (List (Nat × Nat))} {t : Tab Word} (bs : List Byte)
    (h : KeptParts pt qu a b t l x) : KeptParts pt qu a b (regsKbuf bs t) l x := keptParts_fold (fun t y h => keptParts_set h _ _ _) h
theorem keeps_State_setKbuf (s : State) (bs : List Byte) (h_s : Kept pt qu s) : Kept pt qu (State.setKbuf s bs) := by
  simp only [State.setKbuf, ↓kept_mk, ↓kept_back, ↓keptParts_regsKbuf, *]
theorem keeps_keyRun (op : Nat) (slot : Nat) (rnd : BitVec 512) (stuck : BitVec 384) (s : State) (h_s : Kept pt qu s) : Kept pt qu (keyRun op slot rnd stuck s).2 := by
  unfold keyRun
  repeat' (first
    | (simp +contextual (maxDischargeDepth := 200) only [↓kept_mk, ↓kept_back, ↓kept_ite2, ↓keeps_State_setKbuf, *]; done)
    | split
    | intros)
theorem keeps2_keyRun (op : Nat) (slot : Nat) (rnd : BitVec 512) (stuck : BitVec 384) (s : State) : ∀ y, keyRun op slot rnd stuck s = y → Kept pt qu s → Kept pt qu y.2 := by
  rintro y rfl h_s; exact keeps_keyRun op slot rnd stuck s h_s
theorem keeps3_keyRun (op : Nat) (slot : Nat) (rnd : BitVec 512) (stuck : BitVec 384) (s : State) (a y) (e : keyRun op slot rnd stuck s = (a, y)) (h_s : Kept pt qu s) : Kept pt qu y := keeps2_keyRun op slot rnd stuck s (a, y) e h_s
theorem keeps_keyCommand (w : Word) (rnd : BitVec 512) (stuck : BitVec 384) (s : State) (h_s : Kept pt qu s) : Kept pt qu (keyCommand w rnd stuck s) := by
  simp +contextual (maxDischargeDepth := 200) only [keyCommand, ↓kept_ite2, ↓kept_ite, ↓keeps_State_setKbuf, ↓keeps_State_plainWrite, ↓keeps_State_put, ↓keeps_keyRun, *]
theorem keeps_keyRow (op : Nat) (r : Req) (w : Word) (rnd : BitVec 512) (stuck : BitVec 384) (s : State) (h_s : Kept pt qu s) : Kept pt qu (keyRow op r w rnd stuck s) := by
  simp +contextual (maxDischargeDepth := 200) only [keyRow, ↓kept_ite, implies_true, ↓keeps_regWrite, ↓keeps_keyCommand, *]
theorem keeps_execUnwrapNs (r : Req) (w : Word) (s : State) (h_s : Kept pt qu s) : KeptOut pt qu (execUnwrapNs r w s) := by
  simp only [execUnwrapNs, ↓keptOut_next, ↓keeps_keyRow, *]
theorem keeps_execGenNs (r : Req) (w : Word) (rnd : BitVec 512) (s : State) (h_s : Kept pt qu s) : KeptOut pt qu (execGenNs r w rnd s) := by
  simp only [execGenNs, ↓keeps_keyRow, ↓keeps_onlyIf, *]
theorem keeps_execKzero (r : Req) (w : Word) (s : State) (h_s : Kept pt qu s) : KeptOut pt qu (execKzero r w s) := by
  simp only [execKzero, ↓keptOut_next, ↓keeps_keyRow, *]
theorem keeps_execWrapNs (r : Req) (w : Word) (s : State) (h_s : Kept pt qu s) : KeptOut pt qu (execWrapNs r w s) := by
  simp only [execWrapNs, ↓keptOut_next, ↓keeps_keyRow, *]
theorem keeps_execWrapPair (r : Req) (w : Word) (s : State) (h_s : Kept pt qu s) : KeptOut pt qu (execWrapPair r w s) := by
  simp only [execWrapPair, ↓keptOut_next, ↓keeps_keyRow, *]
theorem keeps_execProgRoot (r : Req) (w : Word) (stuck : BitVec 384) (s : State) (h_s : Kept pt qu s) : KeptOut pt qu (execProgRoot r w stuck s) := by
  simp only [execProgRoot, ↓keptOut_next, ↓keeps_keyRow, *]
theorem keeps_execProgDbg (r : Req) (w : Word) (stuck : BitVec 384) (s : State) (h_s : Kept pt qu s) : KeptOut pt qu (execProgDbg r w stuck s) := by
  simp only [execProgDbg, ↓keptOut_next, ↓keeps_keyRow, *]
theorem keeps_nsCtlWrite (n : Nat) (w : Word) (s : State) (h_s : Kept pt qu s) : Kept pt qu (nsCtlWrite n w s) := by
  simp +contextual (maxDischargeDepth := 200) only [nsCtlWrite, ↓kept_ite, ↓keeps_State_putFlag, ↓keeps_State_put, ↓keeps_State_urgeNs, *]
theorem keeps_nsFieldWrite (k : RegKind) (n : Nat) (w : Word) (s : State) (h_s : Kept pt qu s) : Kept pt qu (nsFieldWrite k n w s) := by
  simp +contextual (maxDischargeDepth := 200) only [nsFieldWrite, ↓kept_ite, ↓keeps_State_putFlag, ↓keeps_State_plainWrite, *]
theorem keeps_execNsCtlWrite (r : Req) (n : Nat) (w : Word) (s : State) (h_s : Kept pt qu s) : KeptOut pt qu (execNsCtlWrite r n w s) := by
  simp +contextual (maxDischargeDepth := 200) only [execNsCtlWrite, implies_true, ↓keeps_regWrite, ↓keeps_onlyIf, ↓keeps_nsCtlWrite, *]
theorem keeps_selfTestRun (ok : Bool) (s : State) (h_s : Kept pt qu s) : Kept pt qu (selfTestRun ok s) := by
  simp +contextual (maxDischargeDepth := 200) only [selfTestRun, ↓kept_ite, ↓keeps_State_bank, ↓keeps_State_inc, *]
theorem keeps_execSelftestRunWrite (r : Req) (w : Word) (ok : Bool) (s : State) (h_s : Kept pt qu s) : KeptOut pt qu (execSelftestRunWrite r w ok s) := by
  simp +contextual (maxDischargeDepth := 200) only [execSelftestRunWrite, ↓kept_ite, ↓keptOut_next, implies_true, ↓keeps_selfTestRun, ↓keeps_regWrite, *]
theorem keeps_execPeriodicSelftest (ok : Bool) (s : State) (h_s : Kept pt qu s) : KeptOut pt qu (execPeriodicSelftest ok s) := by
  simp only [execPeriodicSelftest, ↓kept_mk, ↓kept_back, ↓keeps_selfTestRun, ↓keeps_onlyIf, *]
theorem keeps_execRbgHealthFail (samples : List Nat) (s : State) (h_s : Kept pt qu s) : KeptOut pt qu (execRbgHealthFail samples s) := by
  simp +contextual (maxDischargeDepth := 200) only [execRbgHealthFail, ↓keeps_onlyIf, ↓keeps_State_bank, ↓keeps_State_putFlag, *]
theorem keeps_execLockstepMismatch (s : State) (h_s : Kept pt qu s) : KeptOut pt qu (execLockstepMismatch s) := by
  simp only [execLockstepMismatch, ↓keeps_onlyIf, ↓keeps_State_bank, *]
theorem keeps_State_dropChallenge (s : State) (h_s : Kept pt qu s) : Kept pt qu (State.dropChallenge s) := by
  simp only [State.dropChallenge, ↓kept_mk, ↓kept_back, ↓keeps_State_putFlag, *]
theorem keptParts_regsChal {a : Part} {b : List Instr} {l : List LogEntry} {x : Tab (List (Nat × Nat))} {t : Tab Word} (c : BitVec 384)
    (h : KeptParts pt qu a b t l x) : KeptParts pt qu a b (regsChal c t) l x := keptParts_fold (fun t y h => keptParts_set h _ _ _) h
theorem keeps_State_zeroize (s : State) (h_s : Kept pt qu s) : Kept pt qu (State.zeroize s) := by
  simp +contextual (maxDischargeDepth := 200) only [State.zeroize, ↓kept_mk, ↓kept_back, ↓keeps_State_putFlag, ↓keptParts_regsChal, *]
theorem keeps_zeroWrite (w : Word) (s : State) (h_s : Kept pt qu s) : Kept pt qu (zeroWrite w s) := by
  simp +contextual (maxDischargeDepth := 200) only [zeroWrite, ↓kept_ite, ↓keeps_State_bank, ↓keeps_State_zeroize, *]
theorem keeps_execZeroize (r : Req) (w : Word) (s : State) (h_s : Kept pt qu s) : KeptOut pt qu (execZeroize r w s) := by
  simp +contextual (maxDischargeDepth := 200) only [execZeroize, ↓keptOut_next, implies_true, ↓keeps_regWrite, ↓keeps_zeroWrite, *]
theorem keeps_lcWrite (r : Req) (w : Word) (s : State) (h_s : Kept pt qu s) : Kept pt qu (lcWrite r w s) := by
  simp +contextual (maxDischargeDepth := 200) only [lcWrite, ↓kept_mk, ↓kept_back, ↓kept_ite, ↓keeps_State_noteRefused, ↓keeps_State_putFlag, ↓keeps_State_plainWrite, ↓keeps_State_put, *]
theorem keeps_execLifecycleTransition (r : Req) (w : Word) (s : State) (h_s : Kept pt qu s) : KeptOut pt qu (execLifecycleTransition r w s) := by
  simp +contextual (maxDischargeDepth := 200) only [execLifecycleTransition, ↓keptOut_next, implies_true, ↓keeps_regWrite, ↓keeps_lcWrite, *]
theorem keeps_secStsWrite (r : Req) (w : Word) (s : State) (h_s : Kept pt qu s) : Kept pt qu (secStsWrite r w s) := by
  simp only [secStsWrite, ↓keeps_State_plainWrite, *]
theorem keeps_execTamperSet (r : Req) (w : Word) (s : State) (h_s : Kept pt qu s) : KeptOut pt qu (execTamperSet r w s) := by
  simp +contextual (maxDischargeDepth := 200) only [execTamperSet, implies_true, ↓keeps_regWrite, ↓keeps_onlyIf, ↓keeps_secStsWrite, *]
theorem keeps_newChal (rnd : BitVec 384) (s : State) (h_s : Kept pt qu s) : Kept pt qu (newChal rnd s) := by
  simp only [newChal, ↓kept_mk, ↓kept_back, ↓keeps_State_putFlag, ↓keptParts_regsChal, *]
theorem keeps_verify (s : State) (h_s : Kept pt qu s) : Kept pt qu (verify s) := by
  simp +contextual (maxDischargeDepth := 200) only [verify, ↓kept_ite, ↓keeps_State_dropChallenge, ↓keeps_State_putFlag, ↓keeps_State_put, ↓keeps_State_inc, *]
theorem keeps_dbgClose (s : State) (h_s : Kept pt qu s) : Kept pt qu (dbgClose s) := by
  simp +contextual (maxDischargeDepth := 200) only [dbgClose, ↓kept_ite, ↓keeps_State_put, *]
theorem keeps_dbgOpen (s : State) (h_s : Kept pt qu s) : Kept pt qu (dbgOpen s) := by
  simp +contextual (maxDischargeDepth := 200) only [dbgOpen, ↓kept_mk, ↓kept_back, ↓kept_ite, ↓keeps_State_putFlag, ↓keeps_State_put, ↓keeps_State_zeroize, *]
theorem keeps_dbgCtlWrite (w : Word) (rnd : BitVec 384) (s : State) (h_s : Kept pt qu s) : Kept pt qu (dbgCtlWrite w rnd s) := by
  simp +contextual (maxDischargeDepth := 200) only [dbgCtlWrite, ↓kept_ite, ↓keeps_dbgOpen, ↓keeps_verify, ↓keeps_dbgClose, ↓keeps_newChal, *]
theorem keeps_execDbgNewchal (r : Req) (w : Word) (rnd : BitVec 384) (s : State) (h_s : Kept pt qu s) : KeptOut pt qu (execDbgNewchal r w rnd s) := by
  simp +contextual (maxDischargeDepth := 200) only [execDbgNewchal, implies_true, ↓keeps_regWrite, ↓keeps_onlyIf, ↓keeps_dbgCtlWrite, *]
theorem keeps_execChallengeExpiry (s : State) (h_s : Kept pt qu s) : KeptOut pt qu (execChallengeExpiry s) := by
  unfold execChallengeExpiry
  repeat' (first
    | (simp +contextual (maxDischargeDepth := 200) only [↓keptOut_next, ↓keeps_onlyIf, ↓keeps_State_dropChallenge, *]; done)
    | split
    | intros)
theorem keeps_execDbgVerify (r : Req) (w : Word) (rnd : BitVec 384) (s : State) (h_s : Kept pt qu s) : KeptOut pt qu (execDbgVerify r w rnd s) := by
  simp +contextual (maxDischargeDepth := 200) only [execDbgVerify, implies_true, ↓keeps_regWrite, ↓keeps_onlyIf, ↓keeps_dbgCtlWrite, *]
theorem keeps_execDbgClose (r : Req) (w : Word) (rnd : BitVec 384) (s : State) (h_s : Kept pt qu s) : KeptOut pt qu (execDbgClose r w rnd s) := by
  simp +contextual (maxDischargeDepth := 200) only [execDbgClose, implies_true, ↓keeps_regWrite, ↓keeps_onlyIf, ↓keeps_dbgCtlWrite, *]
theorem keeps_execDbgOpen (r : Req) (w : Word) (rnd : BitVec 384) (s : State) (h_s : Kept pt qu s) : KeptOut pt qu (execDbgOpen r w rnd s) := by
  simp +contextual (maxDischargeDepth := 200) only [execDbgOpen, implies_true, ↓keeps_regWrite, ↓keeps_onlyIf, ↓keeps_dbgCtlWrite, *]
theorem keeps_fbxCtlWrite (w : Word) (pc : BitVec 19) (s : State) (h_s : Kept pt qu s) : Kept pt qu (fbxCtlWrite w pc s) := by
  simp +contextual (maxDischargeDepth := 200) only [fbxCtlWrite, ↓kept_mk, ↓kept_back, ↓kept_ite, ↓keeps_State_putFlag, ↓keeps_State_plainWrite, ↓keeps_State_put, *]
theorem keeps_execDbgFbxHalt (r : Req) (w : Word) (pc : BitVec 19) (s : State) (h_s : Kept pt qu s) : KeptOut pt qu (execDbgFbxHalt r w pc s) := by
  simp +contextual (maxDischargeDepth := 200) only [execDbgFbxHalt, ↓keptOut_next, implies_true, ↓keeps_regWrite, ↓keeps_fbxCtlWrite, *]
theorem keeps_execDbgFbxStep (r : Req) (w : Word) (pc : BitVec 19) (s : State) (h_s : Kept pt qu s) : KeptOut pt qu (execDbgFbxStep r w pc s) := by
  simp +contextual (maxDischargeDepth := 200) only [execDbgFbxStep, implies_true, ↓keeps_regWrite, ↓keeps_onlyIf, ↓keeps_fbxCtlWrite, *]
theorem keeps_execFireboxCodeViewRead (r : Req) (ofs : Nat) (beats : Nat) (s : State) (h_s : Kept pt qu s) : KeptOut pt qu (execFireboxCodeViewRead r ofs beats s) := by
  unfold execFireboxCodeViewRead
  repeat' (first
    | (simp +contextual (maxDischargeDepth := 200) only [↓keptOut_ite, ↓keptOut_next, ↓keeps_State_putFlag, ↓keeps_State_respond, *]; done)
    | split
    | intros)
theorem keeps_execFireboxCodeViewWrite (r : Req) (s : State) (h_s : Kept pt qu s) : KeptOut pt qu (execFireboxCodeViewWrite r s) := by
  unfold execFireboxCodeViewWrite
  repeat' (first
    | (simp +contextual (maxDischargeDepth := 200) only [↓keptOut_next, ↓keeps_State_putFlag, ↓keeps_State_respondWrite, *]; done)
    | split
    | intros)

end Sys2Proof.Machine
end

