-- ==== Sys2Proof/Laws/KeepsRequests.lean ====
section
/-! SUPPORT. The definitions of harvest rings, requests and graders keep the part, the queue and the invariant. -/

open Sys2Proof

set_option linter.unusedTactic false
set_option linter.unreachableTactic false
set_option linter.unusedVariables false

namespace Sys2Proof.Machine

variable {pt : Part} {qu : List Instr}

theorem keeps_State_setRing (s : State) (r : Nat) (x : Hrv) (h_s : Kept pt qu s) : Kept pt qu (State.setRing s r x) := by
  simp only [State.setRing, ↓kept_mk, ↓kept_back, *]
theorem keeps_State_reserve (s : State) (r : Nat) (units : Nat) (h_s : Kept pt qu s) : Kept pt qu (State.reserve s r units) := by
  simp only [State.reserve, ↓keeps_State_setRing, *]
theorem keeps_State_release (s : State) (r : Nat) (units : Nat) (h_s : Kept pt qu s) : Kept pt qu (State.release s r units) := by
  simp only [State.release, ↓keeps_State_setRing, *]
theorem keeps_State_owe (s : State) (r : Nat) (e : HEntry) (h_s : Kept pt qu s) : Kept pt qu (State.owe s r e) := by
  simp only [State.owe, ↓keeps_State_setRing, *]
theorem keeps_signalRing (s : State) (r : Nat) (h_s : Kept pt qu s) : Kept pt qu (signalRing s r) := by
  simp +contextual (maxDischargeDepth := 200) only [signalRing, ↓keeps_State_edge, ↓keeps_State_putFlag, ↓keeps_State_put, ↓keeps_State_setRing, *]
theorem keeps_showWaiting (r : Nat) (s : State) (h_s : Kept pt qu s) : Kept pt qu (showWaiting r s) := by
  simp only [showWaiting, ↓keeps_State_putFlag, *]
theorem keeps_roomFound (r : Nat) (s : State) (h_s : Kept pt qu s) : Kept pt qu (roomFound r s) := by
  simp +contextual (maxDischargeDepth := 200) only [roomFound, ↓kept_mk, ↓kept_back, ↓kept_fold, implies_true, ↓keeps_State_putFlag, ↓keeps_showWaiting, *]
theorem keeps_issueEntry (r : Nat) (e : HEntry) (s : State) (h_s : Kept pt qu s) : Kept pt qu (issueEntry r e s) := by
  simp +contextual (maxDischargeDepth := 200) only [issueEntry, ↓keeps_State_issueAll, ↓keeps_State_put, ↓keeps_State_setRing, *]
theorem keeps_writeNext (r : Nat) (s : State) (h_s : Kept pt qu s) : Kept pt qu (writeNext r s) := by
  unfold writeNext
  repeat' (first
    | (simp +contextual (maxDischargeDepth := 200) only [↓kept_mk, ↓kept_back, ↓kept_ite, ↓kept_fold, implies_true, ↓keeps_roomFound, ↓keeps_issueEntry, ↓keeps_State_setRing, *]; done)
    | split
    | intros)
theorem keeps_execHarvestWrite (ring : Nat) (s : State) (h_s : Kept pt qu s) : KeptOut pt qu (execHarvestWrite ring s) := by
  simp only [execHarvestWrite, ↓keeps_writeNext, ↓keeps_onlyIf, *]
theorem keeps_entryVisible (r : Nat) (e : HEntry) (s : State) (h_s : Kept pt qu s) : Kept pt qu (entryVisible r e s) := by
  simp +contextual (maxDischargeDepth := 200) only [entryVisible, ↓kept_ite, ↓keeps_signalRing, ↓keeps_State_putFlag, ↓keeps_State_inc, *]
theorem keeps_harvestResponse (r : Nat) (addr : Nat) (code : RCode) (s : State) (h_s : Kept pt qu s) : Kept pt qu (harvestResponse r addr code s) := by
  unfold harvestResponse
  repeat' (first
    | (simp +contextual (maxDischargeDepth := 200) only [↓kept_ite, ↓keeps_roomFound, ↓keeps_State_putFlag, ↓keeps_entryVisible, ↓keeps_State_setRing, *]; done)
    | split
    | simp +contextual (maxDischargeDepth := 200) only [*]
    | intros)
theorem keeps_execModerationTimer (ring : Nat) (s : State) (h_s : Kept pt qu s) : KeptOut pt qu (execModerationTimer ring s) := by
  unfold execModerationTimer
  repeat' (first
    | (simp +contextual (maxDischargeDepth := 200) only [↓keptOut_next, ↓keeps_signalRing, ↓keeps_onlyIf, *]; done)
    | split
    | intros)
theorem keeps_lookStep (r : Nat) (s : State) (h_s : Kept pt qu s) : Kept pt qu (lookStep r s) := by
  simp +contextual (maxDischargeDepth := 200) only [lookStep, ↓kept_ite, ↓keeps_State_issue, ↓keeps_State_setRing, *]
theorem keeps_refreshOwned (r : Nat) (code : RCode) (marks : List Byte) (s : State) (h_s : Kept pt qu s) : Kept pt qu (refreshOwned r code marks s) := by
  simp +contextual (maxDischargeDepth := 200) only [refreshOwned, ↓kept_ite, ↓keeps_roomFound, ↓keeps_State_setRing, ↓keeps_State_logPacked, *]
theorem keeps_lookedAhead (r : Nat) (addr : Nat) (code : RCode) (data : List Byte) (s : State) (h_s : Kept pt qu s) : Kept pt qu (lookedAhead r addr code data s) := by
  simp +contextual (maxDischargeDepth := 200) only [lookedAhead, ↓kept_ite, ↓keeps_lookStep, ↓keeps_State_setRing, ↓keeps_refreshOwned, *]
theorem keeps_execHarvestLookahead (ring : Nat) (s : State) (h_s : Kept pt qu s) : KeptOut pt qu (execHarvestLookahead ring s) := by
  simp only [execHarvestLookahead, ↓keeps_onlyIf, ↓keeps_lookStep, *]
theorem keeps_execHrvDoorbell (r : Req) (ring : Nat) (w : Word) (s : State) (h_s : Kept pt qu s) : KeptOut pt qu (execHrvDoorbell r ring w s) := by
  simp +contextual (maxDischargeDepth := 200) only [execHrvDoorbell, ↓kept_ite, implies_true, ↓keeps_regWrite, ↓keeps_onlyIf, ↓keeps_lookStep, ↓keeps_State_restart, *]
theorem keeps_hrvCtlWrite (ring : Nat) (w : Word) (s : State) (h_s : Kept pt qu s) : Kept pt qu (hrvCtlWrite ring w s) := by
  simp +contextual (maxDischargeDepth := 200) only [hrvCtlWrite, ↓kept_ite, ↓keeps_State_issueAll, ↓keeps_State_putFlag, *]
theorem keeps_execHrvRetry (r : Req) (ring : Nat) (w : Word) (s : State) (h_s : Kept pt qu s) : KeptOut pt qu (execHrvRetry r ring w s) := by
  simp +contextual (maxDischargeDepth := 200) only [execHrvRetry, implies_true, ↓keeps_regWrite, ↓keeps_onlyIf, ↓keeps_hrvCtlWrite, *]
theorem keeps_execHrvModWrite (r : Req) (ring : Nat) (w : Word) (cmd : Bool) (s : State) (h_s : Kept pt qu s) : KeptOut pt qu (execHrvModWrite r ring w cmd s) := by
  simp +contextual (maxDischargeDepth := 200) only [execHrvModWrite, ↓kept_ite, implies_true, ↓keeps_regWrite, ↓keeps_onlyIf, ↓keeps_State_plainWrite, *]

theorem keeps_State_setRq (s : State) (q : Request) (h_s : Kept pt qu s) : Kept pt qu (State.setRq s q) := by
  simp only [State.setRq, ↓kept_mk, ↓kept_back, *]
theorem keeps_State_modRq (s : State) (rtag : Nat) (f : Request → Request) (h_s : Kept pt qu s) : Kept pt qu (State.modRq s rtag f) := by
  simp only [State.modRq, ↓kept_mk, ↓kept_back, *]
theorem keeps_State_modTile (s : State) (rtag : Nat) (i : Nat) (f : Tile → Tile) (h_s : Kept pt qu s) : Kept pt qu (State.modTile s rtag i f) := by
  simp only [State.modTile, ↓keeps_State_modRq, *]
theorem keeps_oweEntry (s : State) (q : Request) (status : Nat) (second : Bool) (last : Bool) (dstate : Nat) (deferring : Bool) (h_s : Kept pt qu s) : Kept pt qu (oweEntry s q status second last dstate deferring) := by
  simp only [oweEntry, ↓keeps_State_owe, *]
theorem keeps_finish (q : Request) (status : Nat) (dstate : Nat) (s : State) (h_s : Kept pt qu s) : Kept pt qu (finish q status dstate s) := by
  simp only [finish, ↓keeps_State_setRq, ↓keeps_oweEntry, *]
theorem keeps_startDelivery (rtag : Nat) (s : State) (h_s : Kept pt qu s) : Kept pt qu (startDelivery rtag s) := by
  unfold startDelivery
  repeat' (first
    | (simp +contextual (maxDischargeDepth := 200) only [↓kept_ite, ↓keeps_State_modRq, ↓keeps_State_queueJobs, *]; done)
    | split
    | intros)
theorem keeps_mirroredLate (q : Request) (s : State) (h_s : Kept pt qu s) : Kept pt qu (mirroredLate q s) := by
  simp +contextual (maxDischargeDepth := 200) only [mirroredLate, ↓kept_ite, ↓keeps_State_setRq, ↓keeps_finish, ↓keeps_State_setRing, *]
theorem keeps_requestCheck (rtag : Nat) (s : State) (h_s : Kept pt qu s) : Kept pt qu (requestCheck rtag s) := by
  unfold requestCheck
  repeat' (first
    | (simp +contextual (maxDischargeDepth := 200) only [↓kept_ite, ↓keeps_finish, ↓keeps_mirroredLate, ↓keeps_startDelivery, *]; done)
    | split
    | simp +contextual (maxDischargeDepth := 200) only [*]
    | intros)
theorem keeps_tileOutcome (rtag : Nat) (i : Nat) (code : Nat) (cbc : Nat) (data : List Byte) (s : State) (h_s : Kept pt qu s) : Kept pt qu (tileOutcome rtag i code cbc data s) := by
  simp only [tileOutcome, ↓keeps_requestCheck, ↓keeps_State_modTile, *]

theorem keeps_loadFail (err : Nat) (widx : Nat) (s : State) (h_s : Kept pt qu s) : Kept pt qu (loadFail err widx s) := by
  simp only [loadFail, ↓keeps_State_put, *]
theorem keeps_fmtW0Write (n : Nat) (w : Word) (s : State) (h_s : Kept pt qu s) : Kept pt qu (fmtW0Write n w s) := by
  simp +contextual (maxDischargeDepth := 200) only [fmtW0Write, ↓kept_ite, ↓keeps_State_putFlag, ↓keeps_State_plainWrite, ↓keeps_loadFail, *]
theorem keeps_fmtWordWrite (k : RegKind) (n : Nat) (w : Word) (s : State) (h_s : Kept pt qu s) : Kept pt qu (fmtWordWrite k n w s) := by
  simp only [fmtWordWrite, ↓kept_ite, ↓keeps_State_putFlag, ↓keeps_State_plainWrite, *]
theorem keeps_execGrdFmtValidWrite (r : Req) (n : Nat) (w : Word) (s : State) (h_s : Kept pt qu s) : KeptOut pt qu (execGrdFmtValidWrite r n w s) := by
  simp +contextual (maxDischargeDepth := 200) only [execGrdFmtValidWrite, implies_true, ↓keeps_regWrite, ↓keeps_fmtW0Write, ↓keeps_onlyIf, *]
theorem keeps_pdescWrite (p : Nat) (w : Word) (s : State) (h_s : Kept pt qu s) : Kept pt qu (pdescWrite p w s) := by
  unfold pdescWrite
  repeat' (first
    | (simp +contextual (maxDischargeDepth := 200) only [↓kept_ite, ↓keeps_State_putFlag, ↓keeps_State_put, ↓keeps_loadFail, *]; done)
    | split
    | simp +contextual (maxDischargeDepth := 200) only [*]
    | intros)
theorem keeps_execGrdPdescValidWrite (r : Req) (p : Nat) (w : Word) (s : State) (h_s : Kept pt qu s) : KeptOut pt qu (execGrdPdescValidWrite r p w s) := by
  simp +contextual (maxDischargeDepth := 200) only [execGrdPdescValidWrite, implies_true, ↓keeps_regWrite, ↓keeps_onlyIf, ↓keeps_pdescWrite, *]
theorem keeps_pdataWrite (w : Word) (s : State) (h_s : Kept pt qu s) : Kept pt qu (pdataWrite w s) := by
  simp +contextual (maxDischargeDepth := 200) only [pdataWrite, ↓kept_mk, ↓kept_back, ↓kept_ite, ↓keeps_State_setReg, ↓keeps_State_putFlag, ↓keeps_State_put, *]
theorem keeps_execGrdPdataHiWrite (r : Req) (w : Word) (s : State) (h_s : Kept pt qu s) : KeptOut pt qu (execGrdPdataHiWrite r w s) := by
  simp +contextual (maxDischargeDepth := 200) only [execGrdPdataHiWrite, ↓keptOut_next, implies_true, ↓keeps_regWrite, ↓keeps_pdataWrite, *]
theorem keeps_grdStep (g : Nat) (k : Nat) (opc : Nat) (f : BitVec 64 → Rec → Lane → Lane) (s : State) (h_s : Kept pt qu s) : KeptOut pt qu (grdStep g k opc f s) := by
  unfold grdStep
  repeat' (first
    | (simp +contextual (maxDischargeDepth := 200) only [↓kept_mk, ↓kept_back, ↓keptOut_next, ↓keeps_onlyIf, *]; done)
    | split
    | intros)
theorem keeps_execGrdLdu (g : Nat) (k : Nat) (s : State) (h_s : Kept pt qu s) : KeptOut pt qu (execGrdLdu g k s) := by
  simp only [execGrdLdu, ↓keeps_grdStep, *]
theorem keeps_execGrdLds (g : Nat) (k : Nat) (s : State) (h_s : Kept pt qu s) : KeptOut pt qu (execGrdLds g k s) := by
  simp only [execGrdLds, ↓keeps_grdStep, *]
theorem keeps_execGrdLdi (g : Nat) (k : Nat) (s : State) (h_s : Kept pt qu s) : KeptOut pt qu (execGrdLdi g k s) := by
  simp only [execGrdLdi, ↓keeps_grdStep, *]
theorem keeps_execGrdAdd (g : Nat) (k : Nat) (s : State) (h_s : Kept pt qu s) : KeptOut pt qu (execGrdAdd g k s) := by
  simp only [execGrdAdd, ↓keeps_grdStep, *]
theorem keeps_execGrdSub (g : Nat) (k : Nat) (s : State) (h_s : Kept pt qu s) : KeptOut pt qu (execGrdSub g k s) := by
  simp only [execGrdSub, ↓keeps_grdStep, *]
theorem keeps_execGrdMul (g : Nat) (k : Nat) (s : State) (h_s : Kept pt qu s) : KeptOut pt qu (execGrdMul g k s) := by
  simp only [execGrdMul, ↓keeps_grdStep, *]
theorem keeps_execGrdDiv (g : Nat) (k : Nat) (s : State) (h_s : Kept pt qu s) : KeptOut pt qu (execGrdDiv g k s) := by
  simp only [execGrdDiv, ↓keeps_grdStep, *]
theorem keeps_execGrdRem (g : Nat) (k : Nat) (s : State) (h_s : Kept pt qu s) : KeptOut pt qu (execGrdRem g k s) := by
  simp only [execGrdRem, ↓keeps_grdStep, *]
theorem keeps_execGrdDivu (g : Nat) (k : Nat) (s : State) (h_s : Kept pt qu s) : KeptOut pt qu (execGrdDivu g k s) := by
  simp only [execGrdDivu, ↓keeps_grdStep, *]
theorem keeps_execGrdRemu (g : Nat) (k : Nat) (s : State) (h_s : Kept pt qu s) : KeptOut pt qu (execGrdRemu g k s) := by
  simp only [execGrdRemu, ↓keeps_grdStep, *]
theorem keeps_execGrdNeg (g : Nat) (k : Nat) (s : State) (h_s : Kept pt qu s) : KeptOut pt qu (execGrdNeg g k s) := by
  simp only [execGrdNeg, ↓keeps_grdStep, *]
theorem keeps_execGrdAbs (g : Nat) (k : Nat) (s : State) (h_s : Kept pt qu s) : KeptOut pt qu (execGrdAbs g k s) := by
  simp only [execGrdAbs, ↓keeps_grdStep, *]
theorem keeps_execGrdAnd (g : Nat) (k : Nat) (s : State) (h_s : Kept pt qu s) : KeptOut pt qu (execGrdAnd g k s) := by
  simp only [execGrdAnd, ↓keeps_grdStep, *]
theorem keeps_execGrdOr (g : Nat) (k : Nat) (s : State) (h_s : Kept pt qu s) : KeptOut pt qu (execGrdOr g k s) := by
  simp only [execGrdOr, ↓keeps_grdStep, *]
theorem keeps_execGrdXor (g : Nat) (k : Nat) (s : State) (h_s : Kept pt qu s) : KeptOut pt qu (execGrdXor g k s) := by
  simp only [execGrdXor, ↓keeps_grdStep, *]
theorem keeps_execGrdShl (g : Nat) (k : Nat) (s : State) (h_s : Kept pt qu s) : KeptOut pt qu (execGrdShl g k s) := by
  simp only [execGrdShl, ↓keeps_grdStep, *]
theorem keeps_execGrdShr (g : Nat) (k : Nat) (s : State) (h_s : Kept pt qu s) : KeptOut pt qu (execGrdShr g k s) := by
  simp only [execGrdShr, ↓keeps_grdStep, *]
theorem keeps_execGrdSar (g : Nat) (k : Nat) (s : State) (h_s : Kept pt qu s) : KeptOut pt qu (execGrdSar g k s) := by
  simp only [execGrdSar, ↓keeps_grdStep, *]
theorem keeps_execGrdMin (g : Nat) (k : Nat) (s : State) (h_s : Kept pt qu s) : KeptOut pt qu (execGrdMin g k s) := by
  simp only [execGrdMin, ↓keeps_grdStep, *]
theorem keeps_execGrdMax (g : Nat) (k : Nat) (s : State) (h_s : Kept pt qu s) : KeptOut pt qu (execGrdMax g k s) := by
  simp only [execGrdMax, ↓keeps_grdStep, *]
theorem keeps_execGrdAdds (g : Nat) (k : Nat) (s : State) (h_s : Kept pt qu s) : KeptOut pt qu (execGrdAdds g k s) := by
  simp only [execGrdAdds, ↓keeps_grdStep, *]
theorem keeps_execGrdSubs (g : Nat) (k : Nat) (s : State) (h_s : Kept pt qu s) : KeptOut pt qu (execGrdSubs g k s) := by
  simp only [execGrdSubs, ↓keeps_grdStep, *]
theorem keeps_execGrdMuls (g : Nat) (k : Nat) (s : State) (h_s : Kept pt qu s) : KeptOut pt qu (execGrdMuls g k s) := by
  simp only [execGrdMuls, ↓keeps_grdStep, *]
theorem keeps_execGrdMulq (g : Nat) (k : Nat) (s : State) (h_s : Kept pt qu s) : KeptOut pt qu (execGrdMulq g k s) := by
  simp only [execGrdMulq, ↓keeps_grdStep, *]
theorem keeps_execGrdSeq (g : Nat) (k : Nat) (s : State) (h_s : Kept pt qu s) : KeptOut pt qu (execGrdSeq g k s) := by
  simp only [execGrdSeq, ↓keeps_grdStep, *]
theorem keeps_execGrdSne (g : Nat) (k : Nat) (s : State) (h_s : Kept pt qu s) : KeptOut pt qu (execGrdSne g k s) := by
  simp only [execGrdSne, ↓keeps_grdStep, *]
theorem keeps_execGrdSlt (g : Nat) (k : Nat) (s : State) (h_s : Kept pt qu s) : KeptOut pt qu (execGrdSlt g k s) := by
  simp only [execGrdSlt, ↓keeps_grdStep, *]
theorem keeps_execGrdSle (g : Nat) (k : Nat) (s : State) (h_s : Kept pt qu s) : KeptOut pt qu (execGrdSle g k s) := by
  simp only [execGrdSle, ↓keeps_grdStep, *]
theorem keeps_execGrdSltu (g : Nat) (k : Nat) (s : State) (h_s : Kept pt qu s) : KeptOut pt qu (execGrdSltu g k s) := by
  simp only [execGrdSltu, ↓keeps_grdStep, *]
theorem keeps_execGrdSleu (g : Nat) (k : Nat) (s : State) (h_s : Kept pt qu s) : KeptOut pt qu (execGrdSleu g k s) := by
  simp only [execGrdSleu, ↓keeps_grdStep, *]
theorem keeps_execGrdBz (g : Nat) (k : Nat) (s : State) (h_s : Kept pt qu s) : KeptOut pt qu (execGrdBz g k s) := by
  simp only [execGrdBz, ↓keeps_grdStep, *]
theorem keeps_execGrdBnz (g : Nat) (k : Nat) (s : State) (h_s : Kept pt qu s) : KeptOut pt qu (execGrdBnz g k s) := by
  simp only [execGrdBnz, ↓keeps_grdStep, *]
theorem keeps_execGrdAccept (g : Nat) (k : Nat) (s : State) (h_s : Kept pt qu s) : KeptOut pt qu (execGrdAccept g k s) := by
  simp only [execGrdAccept, ↓keeps_grdStep, *]
theorem keeps_execGrdReject (g : Nat) (k : Nat) (s : State) (h_s : Kept pt qu s) : KeptOut pt qu (execGrdReject g k s) := by
  simp only [execGrdReject, ↓keeps_grdStep, *]
theorem keeps_execGrdAcceptf (g : Nat) (k : Nat) (s : State) (h_s : Kept pt qu s) : KeptOut pt qu (execGrdAcceptf g k s) := by
  simp only [execGrdAcceptf, ↓keeps_grdStep, *]
theorem keeps_overflow (rtag : Nat) (i : Nat) (s : State) (h_s : Kept pt qu s) : Kept pt qu (overflow rtag i s) := by
  simp only [overflow, ↓keeps_State_modRq, *]
theorem keeps_emitLane (rtag : Nat) (i : Nat) (s : State) (l : Lane) (h_s : Kept pt qu s) : Kept pt qu (emitLane rtag i s l) := by
  unfold emitLane
  repeat' (first
    | (simp +contextual (maxDischargeDepth := 200) only [↓kept_ite, ↓keeps_State_modRq, ↓keeps_State_queueJob, ↓keeps_overflow, ↓keeps_State_inc, *]; done)
    | split
    | intros)
theorem keeps_tileGraded (rtag : Nat) (i : Nat) (s : State) (h_s : Kept pt qu s) : Kept pt qu (tileGraded rtag i s) := by
  simp +contextual (maxDischargeDepth := 200) only [tileGraded, ↓keeps_State_modRq, ↓keeps_State_inc, ↓keeps_State_modTile, *]
theorem keeps_freeGrader (g : Nat) (s : State) (h_s : Kept pt qu s) : Kept pt qu (freeGrader g s) := by
  simp only [freeGrader, ↓kept_mk, ↓kept_back, *]
theorem keeps_setGrader (g : Nat) (x : Grader) (s : State) (h_s : Kept pt qu s) : Kept pt qu (setGrader g x s) := by
  simp only [setGrader, ↓kept_mk, ↓kept_back, *]
theorem keeps_endRound (g : Nat) (x : Grader) (s : State) (h_s : Kept pt qu s) : Kept pt qu (endRound g x s) := by
  unfold endRound
  repeat' (first
    | (simp +contextual (maxDischargeDepth := 200) only [↓kept_ite, ↓kept_fold, implies_true, ↓keeps_freeGrader, ↓keeps_setGrader, ↓keeps_tileGraded, ↓keeps_emitLane, ↓keeps_requestCheck, *]; done)
    | split
    | simp +contextual (maxDischargeDepth := 200) only [*]
    | intros)
theorem keeps_execGradeTile (g : Nat) (s : State) (h_s : Kept pt qu s) : KeptOut pt qu (execGradeTile g s) := by
  unfold execGradeTile
  repeat' (first
    | (simp +contextual (maxDischargeDepth := 200) only [↓keptOut_next, ↓keeps_onlyIf, ↓keeps_setGrader, ↓keeps_endRound, ↓keeps_State_modTile, *]; done)
    | split
    | intros)
theorem keeps_noGraders (s : State) (h_s : Kept pt qu s) : Kept pt qu (noGraders s) := by
  simp +contextual (maxDischargeDepth := 200) only [noGraders, ↓kept_fold, implies_true, ↓keeps_State_modRq, ↓keeps_requestCheck, *]
theorem keeps_execGraderMemoryError (g : Nat) (s : State) (h_s : Kept pt qu s) : KeptOut pt qu (execGraderMemoryError g s) := by
  unfold execGraderMemoryError
  repeat' (first
    | (simp +contextual (maxDischargeDepth := 200) only [↓kept_ite, ↓keeps_State_modRq, ↓keeps_freeGrader, ↓keeps_noGraders, ↓keeps_State_setBit, ↓keeps_onlyIf, ↓keeps_contained, ↓keeps_State_logPacked, ↓keeps_State_modTile, *]; done)
    | split
    | simp +contextual (maxDischargeDepth := 200) only [*]
    | intros)

theorem keeps_State_setChan (s : State) (c : Nat) (x : Chan) (h_s : Kept pt qu s) : Kept pt qu (State.setChan s c x) := by
  simp only [State.setChan, ↓kept_mk, ↓kept_back, *]
theorem keeps_State_setLun (s : State) (k : Nat) (x : LunSt) (h_s : Kept pt qu s) : Kept pt qu (State.setLun s k x) := by
  simp only [State.setLun, ↓kept_mk, ↓kept_back, *]
theorem keeps_busPut (c : Nat) (b : BusCyc) (s : State) (odt : optParam Nat 0) (h_s : Kept pt qu s) : Kept pt qu (busPut c b s odt) := by
  simp only [busPut, ↓keeps_State_setChan, *]
theorem keeps_raiseCe (c : Nat) (s : State) (h_s : Kept pt qu s) : Kept pt qu (raiseCe c s) := by
  simp only [raiseCe, ↓keeps_State_setChan, *]
theorem keeps_setRate (c : Nat) (rate : Nat) (s : State) (h_s : Kept pt qu s) : Kept pt qu (setRate c rate s) := by
  simp +contextual (maxDischargeDepth := 200) only [setRate, ↓kept_ite, ↓keeps_raiseCe, ↓keeps_busPut, ↓keeps_State_put, *]
theorem keeps_startRate (c : Nat) (rate : Nat) (s : State) (h_s : Kept pt qu s) : Kept pt qu (startRate c rate s) := by
  simp only [startRate, ↓keeps_State_setChan, ↓keeps_setRate, *]
theorem keeps_logOnce (c : Nat) (t : Nat) (key : Nat) (s : State) (h_s : Kept pt qu s) : Kept pt qu (logOnce c t key s) := by
  simp +contextual (maxDischargeDepth := 200) only [logOnce, ↓kept_ite, ↓keeps_State_setChan, ↓keeps_State_logPacked, *]
theorem keeps_selectMask (c : Nat) (t : Nat) (mask : Nat) (s : State) (h_s : Kept pt qu s) : Kept pt qu (selectMask c t mask s) := by
  simp +contextual (maxDischargeDepth := 200) only [selectMask, ↓kept_ite, ↓kept_fold, implies_true, ↓keeps_State_setChan, ↓keeps_logOnce, ↓keeps_State_put, ↓keeps_setRate, *]
theorem keeps_selectTarget (c : Nat) (t : Nat) (s : State) (h_s : Kept pt qu s) : Kept pt qu (selectTarget c t s) := by
  simp only [selectTarget, ↓keeps_selectMask, *]
theorem keeps_atRate (c : Nat) (t : Nat) (f : State → State) (s : State) (h_f : ∀ (y0 : State), Kept pt qu y0 → Kept pt qu (f y0)) (h_s : Kept pt qu s) : Kept pt qu (atRate c t f s) := by
  simp +contextual (maxDischargeDepth := 200) only [atRate, ↓kept_ite, ↓keeps_startRate, *]
theorem keeps_sweepDone (n : Nat) (ti : Nat) (s : State) (h_s : Kept pt qu s) : Kept pt qu (sweepDone n ti s) := by
  simp only [sweepDone, ↓kept_mk, ↓kept_back, *]
theorem keeps_lunOff (k : Nat) (s : State) (h_s : Kept pt qu s) : Kept pt qu (lunOff k s) := by
  simp +contextual (maxDischargeDepth := 200) only [lunOff, ↓kept_mk, ↓kept_back, ↓kept_ite, ↓keeps_State_putFlag, ↓keeps_State_clrBit, *]
theorem keeps_targetOff (c : Nat) (t : Nat) (code : Nat) (s : State) (h_s : Kept pt qu s) : Kept pt qu (targetOff c t code s) := by
  simp +contextual (maxDischargeDepth := 200) only [targetOff, ↓kept_fold, implies_true, ↓keeps_State_putFlag, ↓keeps_lunOff, ↓keeps_State_logPacked, *]

end Sys2Proof.Machine
end

