-- ==== Sys2Proof/Laws/KeepsStoker.lean ====
section
/-! SUPPORT. The definitions of channels, stokers, the scheduler and the raw window keep the part, the queue and the invariant. -/

open Sys2Proof

set_option linter.unusedTactic false
set_option linter.unreachableTactic false
set_option linter.unusedVariables false

namespace Sys2Proof.Machine

variable {pt : Part} {qu : List Instr}

theorem keeps_setSlot (c : Nat) (k : Nat) (x : Slot) (s : State) (h_s : Kept pt qu s) : Kept pt qu (setSlot c k x s) := by
  simp only [setSlot, ↓keeps_State_setChan, *]
theorem keeps_delSlot (c : Nat) (k : Nat) (s : State) (h_s : Kept pt qu s) : Kept pt qu (delSlot c k s) := by
  simp only [delSlot, ↓keeps_State_setChan, *]
theorem keeps_gSet (c : Nat) (x : Slot) (n : Nat) (v : Word) (s : State) (h_s : Kept pt qu s) : Kept pt qu (gSet c x n v s).2 := by
  simp only [gSet, ↓kept_ite2, ↓keeps_State_setChan, *]
theorem keeps2_gSet (c : Nat) (x : Slot) (n : Nat) (v : Word) (s : State) : ∀ y, gSet c x n v s = y → Kept pt qu s → Kept pt qu y.2 := by
  rintro y rfl h_s; exact keeps_gSet c x n v s h_s
theorem keeps3_gSet (c : Nat) (x : Slot) (n : Nat) (v : Word) (s : State) (a y) (e : gSet c x n v s = (a, y)) (h_s : Kept pt qu s) : Kept pt qu y := keeps2_gSet c x n v s (a, y) e h_s
theorem keeps_endSlot (c : Nat) (k : Nat) (code : Nat) (x : Slot) (s : State) (h_s : Kept pt qu s) : Kept pt qu (endSlot c k code x s) := by
  simp only [endSlot, ↓kept_mk, ↓kept_back, ↓keeps_delSlot, *]
theorem keeps_pinsReset (c : Nat) (s : State) (h_s : Kept pt qu s) : Kept pt qu (pinsReset c s) := by
  simp only [pinsReset, ↓keeps_State_setChan, *]
theorem keeps_rawAnswer (a : RawAcc) (code : RCode) (data : List Byte) (s : State) (h_s : Kept pt qu s) : Kept pt qu (rawAnswer a code data s) := by
  unfold rawAnswer
  repeat' (first
    | (simp +contextual (maxDischargeDepth := 200) only [↓keeps_giveIn, ↓keeps_State_respond, ↓keeps_State_respondWrite, *]; done)
    | split
    | intros)
theorem keeps_rawFails (a : RawAcc) (s : State) (h_s : Kept pt qu s) : Kept pt qu (rawFails a s) := by
  simp only [rawFails, ↓keeps_rawAnswer, *]
theorem keeps_endOwnSlots (c : Nat) (s : State) (h_s : Kept pt qu s) : Kept pt qu (endOwnSlots c s) := by
  unfold endOwnSlots
  repeat' (first
    | (simp +contextual (maxDischargeDepth := 200) only [↓kept_mk, ↓kept_back, ↓kept_ite, ↓kept_fold, implies_true, ↓keeps_sweepDone, ↓keeps_State_setChan, ↓keeps_rawFails, *]; done)
    | split
    | simp +contextual (maxDischargeDepth := 200) only [*]
    | intros)
theorem keeps_microFault (c : Nat) (k : Nat) (cause : Nat) (upc : BitVec 15) (s : State) (h_s : Kept pt qu s) : Kept pt qu (microFault c k cause upc s) := by
  simp +contextual (maxDischargeDepth := 200) only [microFault, ↓kept_fold, implies_true, ↓keeps_State_setChan, ↓keeps_endOwnSlots, ↓keeps_endSlot, ↓keeps_State_putFlag, ↓keeps_lunOff, ↓keeps_State_put, ↓keeps_State_logPacked, ↓keeps_pinsReset, *]
theorem keeps_goNext (c : Nat) (k : Nat) (x : Slot) (upc : BitVec 15) (s : State) (h_s : Kept pt qu s) : Kept pt qu (goNext c k x upc s) := by
  unfold goNext
  repeat' (first
    | (simp +contextual (maxDischargeDepth := 200) only [↓keeps_microFault, ↓keeps_setSlot, *]; done)
    | split
    | intros)
theorem keeps_goTo (c : Nat) (k : Nat) (x : Slot) (tgt : BitVec 15) (upc : BitVec 15) (s : State) (h_s : Kept pt qu s) : Kept pt qu (goTo c k x tgt upc s) := by
  simp only [goTo, ↓kept_ite, ↓keeps_microFault, ↓keeps_setSlot, *]
theorem keeps_release_ (c : Nat) (s : State) (h_s : Kept pt qu s) : Kept pt qu (release_ c s) := by
  simp only [release_, ↓keeps_State_setChan, ↓keeps_raiseCe, *]
theorem keeps_haltAt (c : Nat) (s : State) (h_s : Kept pt qu s) : Kept pt qu (haltAt c s) := by
  simp only [haltAt, ↓kept_ite, ↓keeps_State_putFlag, *]
theorem keeps_rawCycle (c : Nat) (t : Nat) (s : State) (b : BusCyc) (h_s : Kept pt qu s) : Kept pt qu (rawCycle c t s b) := by
  unfold rawCycle
  repeat' (first
    | (simp +contextual (maxDischargeDepth := 200) only [↓kept_ite, ↓keeps_State_setChan, ↓keeps_busPut, *]; done)
    | split
    | intros)
theorem keeps_rawDrive (c : Nat) (din : List Byte) (s : State) (h_s : Kept pt qu s) : Kept pt qu (rawDrive c din s) := by
  unfold rawDrive
  repeat' (first
    | (simp +contextual (maxDischargeDepth := 200) only [↓kept_ite, ↓kept_fold, implies_true, ↓keeps_selectTarget, ↓keeps_State_setChan, ↓keeps_rawCycle, ↓keeps_rawAnswer, ↓keeps_atRate, *]; done)
    | split
    | intros)
theorem keeps_giveSlot (c : Nat) (k : Nat) (x : Slot) (s : State) (h_s : Kept pt qu s) : Kept pt qu (giveSlot c k x s) := by
  simp +contextual (maxDischargeDepth := 200) only [giveSlot, ↓kept_ite, ↓keeps_State_setChan, ↓keeps_raiseCe, ↓keeps_haltAt, ↓keeps_startRate, ↓keeps_setSlot, *]
theorem keeps_execSlotSwitch (c : Nat) (din : List Byte) (s : State) (h_s : Kept pt qu s) : KeptOut pt qu (execSlotSwitch c din s) := by
  unfold execSlotSwitch
  repeat' (first
    | (simp +contextual (maxDischargeDepth := 200) only [↓keeps_onlyIf, ↓keeps_giveSlot, ↓keeps_rawDrive, ↓keeps_haltAt, *]; done)
    | split
    | intros)
theorem keeps_sendCa (c : Nat) (k : Nat) (mask : Nat) (bs : List Byte) (s : State) (h_s : Kept pt qu s) : Kept pt qu (sendCa c k mask bs s) := by
  unfold sendCa
  repeat' (first
    | (simp +contextual (maxDischargeDepth := 200) only [↓keeps_busPut, ↓keeps_setSlot, *]; done)
    | split
    | simp +contextual (maxDischargeDepth := 200) only [*]
    | intros)
theorem keeps_sendItems (c : Nat) (k : Nat) (mask : Nat) (s : State) (h_s : Kept pt qu s) : Kept pt qu (sendItems c k mask s) := by
  simp +contextual (maxDischargeDepth := 200) only [sendItems, ↓kept_ite, ↓keeps_State_setChan, ↓keeps_sendCa, *]
theorem keeps_statusRead (c : Nat) (t : Nat) (row : Nat) (kx : Bool) (luns : Nat) (s : State) (h_s : Kept pt qu s) : Kept pt qu (statusRead c t row kx luns s) := by
  simp +contextual (maxDischargeDepth := 200) only [statusRead, ↓kept_ite, ↓keeps_busPut, *]
theorem keeps_kxFallback (c : Nat) (k : Nat) (x : Slot) (s : State) (h_s : Kept pt qu s) : Kept pt qu (kxFallback c k x s) := by
  simp +contextual (maxDischargeDepth := 200) only [kxFallback, ↓kept_ite, ↓keeps_State_setChan, ↓keeps_release_, ↓keeps_State_putFlag, ↓keeps_State_logPacked, ↓keeps_setSlot, *]
theorem keeps_resendFrame (c : Nat) (x : Slot) (b : Byte) (s : State) (h_s : Kept pt qu s) : Kept pt qu (resendFrame c x b s) := by
  simp +contextual (maxDischargeDepth := 200) only [resendFrame, ↓kept_ite, ↓keeps_busPut, *]
theorem keeps_takeStatus (c : Nat) (k : Nat) (wait : Slot) (next : Slot) (b : Byte) (s : State) (h_s : Kept pt qu s) : Kept pt qu (takeStatus c k wait next b s) := by
  simp +contextual (maxDischargeDepth := 200) only [takeStatus, ↓kept_ite, ↓keeps_resendFrame, ↓keeps_State_inc, ↓keeps_kxFallback, ↓keeps_setSlot, *]
theorem keeps_storeIn (c : Nat) (x : Slot) (bslot : Nat) (bs : List Byte) (bad : Bool) (s : State) (h_s : Kept pt qu s) : Kept pt qu (storeIn c x bslot bs bad s).2 := by
  unfold storeIn
  repeat' (first
    | (simp +contextual (maxDischargeDepth := 200) only [↓kept_ite2, ↓keeps_State_setChan, *]; done)
    | split
    | intros)
theorem keeps2_storeIn (c : Nat) (x : Slot) (bslot : Nat) (bs : List Byte) (bad : Bool) (s : State) : ∀ y, storeIn c x bslot bs bad s = y → Kept pt qu s → Kept pt qu y.2 := by
  rintro y rfl h_s; exact keeps_storeIn c x bslot bs bad s h_s
theorem keeps3_storeIn (c : Nat) (x : Slot) (bslot : Nat) (bs : List Byte) (bad : Bool) (s : State) (a y) (e : storeIn c x bslot bs bad s = (a, y)) (h_s : Kept pt qu s) : Kept pt qu y := keeps2_storeIn c x bslot bs bad s (a, y) e h_s
theorem keeps_routeByte (s : State) (c : Nat) (x : Slot) (w : BitVec 96) : ∀ y, routeByte s c x w = some y → Kept pt qu s → Kept pt qu y.2 := by
  intro y hy h_s
  revert y
  unfold routeByte
  repeat' (first
    | (simp +contextual (maxDischargeDepth := 200) only [implies_true, reduceCtorEq, false_implies, Option.some.injEq, forall_eq', ↓keeps_State_fresh, *]; done)
    | split
    | simp +contextual (maxDischargeDepth := 200) only [*]
    | intros)
theorem keeps3_routeByte (s : State) (c : Nat) (x : Slot) (w : BitVec 96) (a y) (e : routeByte s c x w = some (a, y)) (h_s : Kept pt qu s) : Kept pt qu y := keeps_routeByte s c x w (a, y) e h_s
theorem keeps_driveCycle (c : Nat) (k : Nat) (x : Slot) (w : BitVec 96) (cmd : Bool) (b : Byte) (s : State) (h_s : Kept pt qu s) : Kept pt qu (driveCycle c k x w cmd b s) := by
  simp +contextual (maxDischargeDepth := 200) only [driveCycle, ↓kept_ite, ↓keeps_State_setChan, ↓keeps_busPut, ↓keeps_sendItems, *]
theorem keeps_runCyc (c : Nat) (k : Nat) (x : Slot) (upc : BitVec 15) (w : BitVec 96) (s : State) (h_s : Kept pt qu s) : Kept pt qu (runCyc c k x upc w s) := by
  unfold runCyc
  repeat' (first
    | ((try have hx_routeByte := keeps_routeByte _ _ _ _ _ ‹routeByte _ _ _ _ = some _› (by first | assumption | (simp +contextual (maxDischargeDepth := 200) only [↓kept_mk, ↓kept_back, ↓kept_ite2, ↓kept_ite, ↓keptOut_ite, ↓kept_fold, ↓kept_fold2, ↓keptOut_next, ↓keptOut_fault, ↓keptParts_set, implies_true, forall_const, reduceCtorEq, false_implies, Option.some.injEq, forall_eq, forall_eq', ↓keeps_microFault, ↓keeps_driveCycle, ↓keeps_goNext, *]; done))); simp +contextual (maxDischargeDepth := 200) only [↓keeps_microFault, ↓keeps_driveCycle, ↓keeps_goNext, *]; done)
    | split
    | (intro y hy; first | (cases hy; done) | (obtain rfl := Option.some.inj hy))
    | simp +contextual (maxDischargeDepth := 200) only [↓kept_mk, ↓kept_back, ↓kept_ite2, ↓kept_ite, ↓keptOut_ite, ↓kept_fold, ↓kept_fold2, ↓keptOut_next, ↓keptOut_fault, ↓keptParts_set, implies_true, forall_const, reduceCtorEq, false_implies, Option.some.injEq, forall_eq, forall_eq', ↓keeps_microFault, ↓keeps_driveCycle, ↓keeps_goNext, *]
    | intros)
theorem keeps_wentLun (o : Op) (s : State) (h_s : Kept pt qu s) : Kept pt qu (wentLun o s) := by
  simp only [wentLun, ↓keeps_State_setLun, *]
theorem keeps_runGo (c : Nat) (k : Nat) (x : Slot) (upc : BitVec 15) (w : BitVec 96) (s : State) (h_s : Kept pt qu s) : Kept pt qu (runGo c k x upc w s) := by
  unfold runGo
  repeat' (first
    | ((try have hx_routeByte := keeps_routeByte _ _ _ _ _ ‹routeByte _ _ _ _ = some _› (by first | assumption | (simp +contextual (maxDischargeDepth := 200) only [↓kept_mk, ↓kept_back, ↓kept_ite2, ↓kept_ite, ↓keptOut_ite, ↓kept_fold, ↓kept_fold2, ↓keptOut_next, ↓keptOut_fault, ↓keptParts_set, implies_true, forall_const, reduceCtorEq, false_implies, Option.some.injEq, forall_eq, forall_eq', ↓keeps_wentLun, ↓keeps_State_setChan, ↓keeps_microFault, ↓keeps_driveCycle, ↓keeps_goNext, ↓keeps_sendItems, *]; done))); simp +contextual (maxDischargeDepth := 200) only [↓keeps_wentLun, ↓keeps_State_setChan, ↓keeps_microFault, ↓keeps_driveCycle, ↓keeps_goNext, ↓keeps_sendItems, *]; done)
    | split
    | (intro y hy; first | (cases hy; done) | (obtain rfl := Option.some.inj hy))
    | simp +contextual (maxDischargeDepth := 200) only [↓kept_mk, ↓kept_back, ↓kept_ite2, ↓kept_ite, ↓keptOut_ite, ↓kept_fold, ↓kept_fold2, ↓keptOut_next, ↓keptOut_fault, ↓keptParts_set, implies_true, forall_const, reduceCtorEq, false_implies, Option.some.injEq, forall_eq, forall_eq', ↓keeps_wentLun, ↓keeps_State_setChan, ↓keeps_microFault, ↓keeps_driveCycle, ↓keeps_goNext, ↓keeps_sendItems, *]
    | intros)
theorem keeps_takeTally (c : Nat) (din : List Byte) (s : State) (h_s : Kept pt qu s) : Kept pt qu (takeTally c din s) := by
  simp +contextual (maxDischargeDepth := 200) only [takeTally, ↓kept_ite, ↓keeps_State_fresh, ↓keeps_State_setChan, *]
theorem keeps_tallyRead (c : Nat) (t : Nat) (din : List Byte) (s : State) (h_s : Kept pt qu s) : Kept pt qu (tallyRead c t din s) := by
  simp +contextual (maxDischargeDepth := 200) only [tallyRead, ↓keeps_takeTally, ↓keeps_State_setChan, ↓keeps_busPut, *]
theorem keeps_xferIn (c : Nat) (k : Nat) (route : Nat) (x : Slot) (wait : Slot) (bs : List Byte) (bad : Bool) (s : State) (h_s : Kept pt qu s) : Kept pt qu (xferIn c k route x wait bs bad s) := by
  unfold xferIn
  repeat' (first
    | (simp +contextual (maxDischargeDepth := 200) only [↓keeps_storeIn, ↓keeps_gSet, ↓keeps_takeStatus, ↓keeps_setSlot, *]; done)
    | split
    | intros)
theorem keeps_runXfer (c : Nat) (k : Nat) (x : Slot) (upc : BitVec 15) (w : BitVec 96) (din : List Byte) (s : State) (h_s : Kept pt qu s) : Kept pt qu (runXfer c k x upc w din s) := by
  unfold runXfer
  repeat' (first
    | ((try have hx_routeByte := keeps_routeByte _ _ _ _ _ ‹routeByte _ _ _ _ = some _› (by first | assumption | (simp +contextual (maxDischargeDepth := 200) only [↓kept_mk, ↓kept_back, ↓kept_ite2, ↓kept_ite, ↓keptOut_ite, ↓kept_fold, ↓kept_fold2, ↓keptOut_next, ↓keptOut_fault, ↓keptParts_set, implies_true, forall_const, reduceCtorEq, false_implies, Option.some.injEq, forall_eq, forall_eq', ↓keeps_tallyRead, ↓keeps_State_setChan, ↓keeps_busPut, ↓keeps_microFault, ↓keeps_xferIn, ↓keeps_setSlot, *]; done))); simp +contextual (maxDischargeDepth := 200) only [↓kept_ite, reduceCtorEq, ↓keeps_tallyRead, ↓keeps_State_setChan, ↓keeps_busPut, ↓keeps_microFault, ↓keeps_xferIn, ↓keeps_setSlot, *]; done)
    | split
    | (intro y hy; first | (cases hy; done) | (obtain rfl := Option.some.inj hy))
    | simp +contextual (maxDischargeDepth := 200) only [↓kept_mk, ↓kept_back, ↓kept_ite2, ↓kept_ite, ↓keptOut_ite, ↓kept_fold, ↓kept_fold2, ↓keptOut_next, ↓keptOut_fault, ↓keptParts_set, implies_true, forall_const, reduceCtorEq, false_implies, Option.some.injEq, forall_eq, forall_eq', ↓keeps_tallyRead, ↓keeps_State_setChan, ↓keeps_busPut, ↓keeps_microFault, ↓keeps_xferIn, ↓keeps_setSlot, *]
    | intros)
theorem keeps_runWaitWord (c : Nat) (k : Nat) (x : Slot) (upc : BitVec 15) (w : BitVec 96) (s : State) (h_s : Kept pt qu s) : Kept pt qu (runWaitWord c k x upc w s) := by
  unfold runWaitWord
  repeat' (first
    | (simp +contextual (maxDischargeDepth := 200) only [↓kept_ite, ↓keeps_release_, ↓keeps_microFault, ↓keeps_haltAt, ↓keeps_setSlot, *]; done)
    | split
    | simp +contextual (maxDischargeDepth := 200) only [*]
    | intros)
theorem keeps_runSafe (c : Nat) (k : Nat) (x : Slot) (upc : BitVec 15) (w : BitVec 96) (s : State) (h_s : Kept pt qu s) : Kept pt qu (runSafe c k x upc w s) := by
  simp +contextual (maxDischargeDepth := 200) only [runSafe, ↓kept_ite, ↓keeps_goTo, ↓keeps_State_setChan, ↓keeps_release_, ↓keeps_goNext, ↓keeps_haltAt, *]
theorem keeps_runBr (c : Nat) (k : Nat) (x : Slot) (upc : BitVec 15) (w : BitVec 96) (s : State) (h_s : Kept pt qu s) : Kept pt qu (runBr c k x upc w s) := by
  unfold runBr
  repeat' (first
    | (simp +contextual (maxDischargeDepth := 200) only [↓keeps_goTo, ↓keeps_microFault, ↓keeps_goNext, *]; done)
    | split
    | intros)
theorem keeps_runCall (c : Nat) (k : Nat) (x : Slot) (upc : BitVec 15) (w : BitVec 96) (s : State) (h_s : Kept pt qu s) : Kept pt qu (runCall c k x upc w s) := by
  unfold runCall
  repeat' (first
    | (simp +contextual (maxDischargeDepth := 200) only [↓kept_ite, ↓keeps_goTo, ↓keeps_microFault, ↓keeps_goNext, *]; done)
    | split
    | intros)
theorem keeps_runRet (c : Nat) (k : Nat) (x : Slot) (upc : BitVec 15) (w : BitVec 96) (s : State) (h_s : Kept pt qu s) : Kept pt qu (runRet c k x upc w s) := by
  unfold runRet
  repeat' (first
    | (simp +contextual (maxDischargeDepth := 200) only [↓keeps_microFault, ↓keeps_goNext, ↓keeps_setSlot, *]; done)
    | split
    | intros)
theorem keeps_runReg (f : Word → Word → Word) (c : Nat) (k : Nat) (x : Slot) (upc : BitVec 15) (w : BitVec 96) (s : State) (h_s : Kept pt qu s) : Kept pt qu (runReg f c k x upc w s) := by
  simp only [runReg, ↓keeps_goNext, ↓keeps_gSet, *]
theorem keeps_runCmpi (c : Nat) (k : Nat) (x : Slot) (upc : BitVec 15) (w : BitVec 96) (s : State) (h_s : Kept pt qu s) : Kept pt qu (runCmpi c k x upc w s) := by
  simp only [runCmpi, ↓keeps_State_setChan, ↓keeps_goNext, *]
theorem keeps_runPinset (c : Nat) (k : Nat) (x : Slot) (upc : BitVec 15) (w : BitVec 96) (s : State) (h_s : Kept pt qu s) : Kept pt qu (runPinset c k x upc w s) := by
  simp only [runPinset, ↓keeps_busPut, ↓keeps_goNext, *]
theorem keeps_setOffsets (c : Nat) (dir : Nat) (w : Word) (s : State) (h_s : Kept pt qu s) : Kept pt qu (setOffsets c dir w s) := by
  simp +contextual (maxDischargeDepth := 200) only [setOffsets, ↓kept_ite, ↓keeps_State_setReg, ↓keeps_State_setChan, *]
theorem keeps_phyZq (c : Nat) (m : Train) (s : State) (h_s : Kept pt qu s) : Kept pt qu (phyZq c m s) := by
  simp only [phyZq, ↓kept_mk, ↓kept_back, ↓keeps_State_putFlag, *]
theorem keeps_phyDuty (c : Nat) (m : Train) (s : State) (h_s : Kept pt qu s) : Kept pt qu (phyDuty c m s) := by
  simp only [phyDuty, ↓kept_mk, ↓kept_back, ↓kept_ite, *]
theorem keeps_runPhy (c : Nat) (k : Nat) (x : Slot) (upc : BitVec 15) (w : BitVec 96) (m : Train) (s : State) (h_s : Kept pt qu s) : Kept pt qu (runPhy c k x upc w m s) := by
  unfold runPhy
  repeat' (first
    | (simp +contextual (maxDischargeDepth := 200) only [↓kept_ite, ↓keeps_phyZq, ↓keeps_setOffsets, ↓keeps_raiseCe, ↓keeps_microFault, ↓keeps_goNext, ↓keeps_phyDuty, ↓keeps_startRate, *]; done)
    | split
    | intros)
theorem keeps_runReport (c : Nat) (k : Nat) (x : Slot) (upc : BitVec 15) (w : BitVec 96) (s : State) (h_s : Kept pt qu s) : Kept pt qu (runReport c k x upc w s) := by
  simp only [runReport, ↓keeps_State_setChan, ↓keeps_goNext, *]
theorem keeps_runTdly (c : Nat) (k : Nat) (x : Slot) (upc : BitVec 15) (w : BitVec 96) (s : State) (h_s : Kept pt qu s) : Kept pt qu (runTdly c k x upc w s) := by
  simp only [runTdly, ↓keeps_State_setChan, ↓keeps_goNext, *]
theorem keeps_runEnd (c : Nat) (k : Nat) (x : Slot) (w : BitVec 96) (s : State) (h_s : Kept pt qu s) : Kept pt qu (runEnd c k x w s) := by
  simp +contextual (maxDischargeDepth := 200) only [runEnd, ↓keeps_endSlot, ↓keeps_release_, ↓keeps_haltAt, *]
theorem keeps_runSel (c : Nat) (x : Slot) (w : BitVec 96) (s : State) (h_s : Kept pt qu s) : Kept pt qu (runSel c x w s) := by
  simp +contextual (maxDischargeDepth := 200) only [runSel, ↓kept_ite, ↓keeps_selectMask, ↓keeps_raiseCe, *]
theorem keeps_runWord (c : Nat) (k : Nat) (x : Slot) (w : BitVec 96) (din : List Byte) (m : Train) (s : State) (h_s : Kept pt qu s) : Kept pt qu (runWord c k x w din m s) := by
  unfold runWord
  repeat' (first
    | with_reducible assumption
    | with_reducible refine kept_fold (fun _ _ _ => ?_) ?_
    | with_reducible apply kept_ite
    | with_reducible apply keptOut_ite
    | with_reducible refine (keptOut_next _).mpr ?_
    | with_reducible apply kept_ite2
    | with_reducible apply kept_ite22
    | with_reducible apply kept_id
    | with_reducible refine kept_fold2 (fun _ _ _ => ?_) ?_
    | with_reducible apply keeps_goTo
    | with_reducible apply keeps_runTdly
    | with_reducible apply keeps_runSel
    | with_reducible apply keeps_runCall
    | with_reducible apply keeps_runReg
    | with_reducible apply keeps_runRet
    | with_reducible apply keeps_State_setChan
    | with_reducible apply keeps_runBr
    | with_reducible apply keeps_runXfer
    | with_reducible apply keeps_runSafe
    | with_reducible apply keeps_runCmpi
    | with_reducible apply keeps_runReport
    | with_reducible apply keeps_microFault
    | with_reducible apply keeps_runPhy
    | with_reducible apply keeps_runEnd
    | with_reducible apply keeps_goNext
    | with_reducible apply keeps_sendItems
    | with_reducible apply keeps_runCyc
    | with_reducible apply keeps_runPinset
    | with_reducible apply keeps_runGo
    | with_reducible apply keeps_runWaitWord
    | split
    | fail_if_no_progress (with_reducible apply kept_same)
    | intro _)
theorem keeps_wordOrRate (c : Nat) (k : Nat) (x : Slot) (w : BitVec 96) (din : List Byte) (m : Train) (s : State) (h_s : Kept pt qu s) : Kept pt qu (wordOrRate c k x w din m s) := by
  simp only [wordOrRate, ↓kept_ite, ↓keeps_runWord, ↓keeps_startRate, *]
theorem keeps_uRow (c : Nat) (w : BitVec 96) (mine : BitVec 96 → Bool) (din : List Byte) (m : Train) (s : State) (h_s : Kept pt qu s) : KeptOut pt qu (uRow c w mine din m s) := by
  unfold uRow
  repeat' (first
    | (simp +contextual (maxDischargeDepth := 200) only [↓keptOut_next, ↓keeps_wordOrRate, ↓keeps_onlyIf, *]; done)
    | split
    | intros)
theorem keeps_execStkNop (c : Nat) (w : BitVec 96) (s : State) (h_s : Kept pt qu s) : KeptOut pt qu (execStkNop c w s) := by
  simp only [execStkNop, ↓keeps_uRow, *]
theorem keeps_execStkCyc (c : Nat) (w : BitVec 96) (s : State) (h_s : Kept pt qu s) : KeptOut pt qu (execStkCyc c w s) := by
  simp only [execStkCyc, ↓keeps_uRow, *]
theorem keeps_execStkGo (c : Nat) (w : BitVec 96) (s : State) (h_s : Kept pt qu s) : KeptOut pt qu (execStkGo c w s) := by
  simp only [execStkGo, ↓keeps_uRow, *]
theorem keeps_execStkXfer (c : Nat) (w : BitVec 96) (din : List Byte) (s : State) (h_s : Kept pt qu s) : KeptOut pt qu (execStkXfer c w din s) := by
  simp only [execStkXfer, ↓keeps_uRow, *]
theorem keeps_execStkTdly (c : Nat) (w : BitVec 96) (s : State) (h_s : Kept pt qu s) : KeptOut pt qu (execStkTdly c w s) := by
  simp only [execStkTdly, ↓keeps_uRow, *]
theorem keeps_execStkWait (c : Nat) (w : BitVec 96) (s : State) (h_s : Kept pt qu s) : KeptOut pt qu (execStkWait c w s) := by
  simp only [execStkWait, ↓keeps_uRow, *]
theorem keeps_execStkSafe (c : Nat) (w : BitVec 96) (s : State) (h_s : Kept pt qu s) : KeptOut pt qu (execStkSafe c w s) := by
  simp only [execStkSafe, ↓keeps_uRow, *]
theorem keeps_execStkBr (c : Nat) (w : BitVec 96) (s : State) (h_s : Kept pt qu s) : KeptOut pt qu (execStkBr c w s) := by
  simp only [execStkBr, ↓keeps_uRow, *]
theorem keeps_execStkCall (c : Nat) (w : BitVec 96) (s : State) (h_s : Kept pt qu s) : KeptOut pt qu (execStkCall c w s) := by
  simp only [execStkCall, ↓keeps_uRow, *]
theorem keeps_execStkRet (c : Nat) (w : BitVec 96) (s : State) (h_s : Kept pt qu s) : KeptOut pt qu (execStkRet c w s) := by
  simp only [execStkRet, ↓keeps_uRow, *]
theorem keeps_execStkLdi (c : Nat) (w : BitVec 96) (s : State) (h_s : Kept pt qu s) : KeptOut pt qu (execStkLdi c w s) := by
  simp only [execStkLdi, ↓keeps_uRow, *]
theorem keeps_execStkAddi (c : Nat) (w : BitVec 96) (s : State) (h_s : Kept pt qu s) : KeptOut pt qu (execStkAddi c w s) := by
  simp only [execStkAddi, ↓keeps_uRow, *]
theorem keeps_execStkAndi (c : Nat) (w : BitVec 96) (s : State) (h_s : Kept pt qu s) : KeptOut pt qu (execStkAndi c w s) := by
  simp only [execStkAndi, ↓keeps_uRow, *]
theorem keeps_execStkOri (c : Nat) (w : BitVec 96) (s : State) (h_s : Kept pt qu s) : KeptOut pt qu (execStkOri c w s) := by
  simp only [execStkOri, ↓keeps_uRow, *]
theorem keeps_execStkCmpi (c : Nat) (w : BitVec 96) (s : State) (h_s : Kept pt qu s) : KeptOut pt qu (execStkCmpi c w s) := by
  simp only [execStkCmpi, ↓keeps_uRow, *]
theorem keeps_execStkPinset (c : Nat) (w : BitVec 96) (s : State) (h_s : Kept pt qu s) : KeptOut pt qu (execStkPinset c w s) := by
  simp only [execStkPinset, ↓keeps_uRow, *]
theorem keeps_execPhyEngineZq (c : Nat) (w : BitVec 96) (m : Train) (s : State) (h_s : Kept pt qu s) : KeptOut pt qu (execPhyEngineZq c w m s) := by
  simp only [execPhyEngineZq, ↓keeps_uRow, *]
theorem keeps_execPhyDutyTrim (c : Nat) (w : BitVec 96) (m : Train) (s : State) (h_s : Kept pt qu s) : KeptOut pt qu (execPhyDutyTrim c w m s) := by
  simp only [execPhyDutyTrim, ↓keeps_uRow, *]
theorem keeps_execPhyLoadReadDelays (c : Nat) (w : BitVec 96) (s : State) (h_s : Kept pt qu s) : KeptOut pt qu (execPhyLoadReadDelays c w s) := by
  simp only [execPhyLoadReadDelays, ↓keeps_uRow, *]
theorem keeps_execPhyLoadWriteDelays (c : Nat) (w : BitVec 96) (s : State) (h_s : Kept pt qu s) : KeptOut pt qu (execPhyLoadWriteDelays c w s) := by
  simp only [execPhyLoadWriteDelays, ↓keeps_uRow, *]
theorem keeps_execPhyRateChange (c : Nat) (w : BitVec 96) (s : State) (h_s : Kept pt qu s) : KeptOut pt qu (execPhyRateChange c w s) := by
  simp only [execPhyRateChange, ↓keeps_uRow, *]
theorem keeps_execStkReport (c : Nat) (w : BitVec 96) (s : State) (h_s : Kept pt qu s) : KeptOut pt qu (execStkReport c w s) := by
  simp only [execStkReport, ↓keeps_uRow, *]
theorem keeps_execStkEnd (c : Nat) (w : BitVec 96) (s : State) (h_s : Kept pt qu s) : KeptOut pt qu (execStkEnd c w s) := by
  simp only [execStkEnd, ↓keeps_uRow, *]
theorem keeps_execStokerWatchdog (c : Nat) (s : State) (h_s : Kept pt qu s) : KeptOut pt qu (execStokerWatchdog c s) := by
  unfold execStokerWatchdog
  repeat' (first
    | (simp +contextual (maxDischargeDepth := 200) only [↓keptOut_next, ↓keeps_onlyIf, ↓keeps_microFault, *]; done)
    | split
    | intros)
theorem keeps_execDataOutFrame (c : Nat) (bs : List Byte) (crc : Word) (s : State) (h_s : Kept pt qu s) : KeptOut pt qu (execDataOutFrame c bs crc s) := by
  unfold execDataOutFrame
  repeat' (first
    | (simp +contextual (maxDischargeDepth := 200) only [↓kept_ite, ↓keptOut_next, ↓keeps_onlyIf, ↓keeps_State_setChan, ↓keeps_busPut, ↓keeps_xferIn, ↓keeps_State_inc, ↓keeps_setSlot, *]; done)
    | split
    | intros)
theorem keeps_waitEnds (c : Nat) (k : Nat) (x : Slot) (branch : Bool) (tmo : Bool) (s : State) (h_s : Kept pt qu s) : Kept pt qu (waitEnds c k x branch tmo s) := by
  unfold waitEnds
  repeat' (first
    | (simp +contextual (maxDischargeDepth := 200) only [↓kept_ite, ↓keeps_goTo, ↓keeps_State_setChan, ↓keeps_goNext, *]; done)
    | split
    | intros)
theorem keeps_slotRow (c : Nat) (k : Nat) (f : Slot → State → Out) (s : State) (h_f : ∀ (y0 : Slot) (y1 : State), Kept pt qu y1 → KeptOut pt qu (f y0 y1)) (h_s : Kept pt qu s) : KeptOut pt qu (slotRow c k f s) := by
  unfold slotRow
  repeat' (first
    | (simp +contextual (maxDischargeDepth := 200) only [↓keptOut_ite, ↓keptOut_next, *]; done)
    | split
    | intros)
theorem keeps_execSlotRunnable (c : Nat) (k : Nat) (s : State) (h_s : Kept pt qu s) : KeptOut pt qu (execSlotRunnable c k s) := by
  unfold execSlotRunnable
  repeat' (first
    | (simp +contextual (maxDischargeDepth := 200) only [↓keptOut_ite, ↓keptOut_next, ↓keeps_waitEnds, ↓keeps_onlyIf, *]; done)
    | split
    | (intro y hy; first | (cases hy; done) | (obtain rfl := Option.some.inj hy))
    | apply keeps_slotRow
    | simp +contextual (maxDischargeDepth := 200) only [↓kept_mk, ↓kept_back, ↓kept_ite2, ↓kept_ite, ↓keptOut_ite, ↓kept_fold, ↓kept_fold2, ↓keptOut_next, ↓keptOut_fault, ↓keptParts_set, implies_true, forall_const, reduceCtorEq, false_implies, Option.some.injEq, forall_eq, forall_eq', ↓keeps_waitEnds, ↓keeps_onlyIf, ↓keeps_slotRow, *]
    | intros)
theorem keeps_execWaitTimeout (c : Nat) (k : Nat) (s : State) (h_s : Kept pt qu s) : KeptOut pt qu (execWaitTimeout c k s) := by
  unfold execWaitTimeout
  repeat' (first
    | (simp +contextual (maxDischargeDepth := 200) only [↓keptOut_next, ↓keeps_waitEnds, ↓keeps_onlyIf, *]; done)
    | split
    | (intro y hy; first | (cases hy; done) | (obtain rfl := Option.some.inj hy))
    | apply keeps_slotRow
    | simp +contextual (maxDischargeDepth := 200) only [↓kept_mk, ↓kept_back, ↓kept_ite2, ↓kept_ite, ↓keptOut_ite, ↓kept_fold, ↓kept_fold2, ↓keptOut_next, ↓keptOut_fault, ↓keptParts_set, implies_true, forall_const, reduceCtorEq, false_implies, Option.some.injEq, forall_eq, forall_eq', ↓keeps_waitEnds, ↓keeps_onlyIf, ↓keeps_slotRow, *]
    | intros)
theorem keeps_pollLun (c : Nat) (k : Nat) (x : Slot) (b : Byte) (s : State) (h_s : Kept pt qu s) : Kept pt qu (pollLun c k x b s) := by
  simp +contextual (maxDischargeDepth := 200) only [pollLun, ↓kept_ite, ↓keeps_selectTarget, ↓keeps_State_setChan, ↓keeps_statusRead, ↓keeps_raiseCe, ↓keeps_takeStatus, *]
theorem keeps_execLunPoll (c : Nat) (k : Nat) (b : Byte) (s : State) (h_s : Kept pt qu s) : KeptOut pt qu (execLunPoll c k b s) := by
  unfold execLunPoll
  repeat' (first
    | (simp +contextual (maxDischargeDepth := 200) only [↓keptOut_next, implies_true, ↓keeps_onlyIf, ↓keeps_pollLun, ↓keeps_atRate, *]; done)
    | split
    | (intro y hy; first | (cases hy; done) | (obtain rfl := Option.some.inj hy))
    | apply keeps_atRate
    | apply keeps_slotRow
    | simp +contextual (maxDischargeDepth := 200) only [↓kept_mk, ↓kept_back, ↓kept_ite2, ↓kept_ite, ↓keptOut_ite, ↓kept_fold, ↓kept_fold2, ↓keptOut_next, ↓keptOut_fault, ↓keptParts_set, implies_true, forall_const, reduceCtorEq, false_implies, Option.some.injEq, forall_eq, forall_eq', ↓keeps_onlyIf, ↓keeps_pollLun, ↓keeps_atRate, ↓keeps_slotRow, *]
    | intros)

theorem keeps_modLun (k : Nat) (f : LunSt → LunSt) (s : State) (h_s : Kept pt qu s) : Kept pt qu (modLun k f s) := by
  simp only [modLun, ↓keeps_State_setLun, *]
theorem keeps_enqueue (w : Want) (s : State) (h_s : Kept pt qu s) : Kept pt qu (enqueue w s) := by
  simp only [enqueue, ↓keeps_modLun, *]
theorem keeps_enqueueAll (ws : List Want) (s : State) (h_s : Kept pt qu s) : Kept pt qu (enqueueAll ws s) := by
  simp +contextual (maxDischargeDepth := 200) only [enqueueAll, ↓kept_fold, implies_true, ↓keeps_enqueue, *]
theorem keeps_ageTick (s : State) (h_s : Kept pt qu s) : Kept pt qu (ageTick s) := by
  simp only [ageTick, ↓kept_mk, ↓kept_back, *]
theorem keeps_dequeue (k : Nat) (ws : List Want) (s : State) (h_s : Kept pt qu s) : Kept pt qu (dequeue k ws s) := by
  simp only [dequeue, ↓keeps_modLun, *]
theorem keeps_setOp (k : Nat) (o : Op) (s : State) (h_s : Kept pt qu s) : Kept pt qu (setOp k o s) := by
  simp only [setOp, ↓keeps_dequeue, ↓keeps_modLun, *]
theorem keeps_readRow (k : Nat) (optype : Nat) (pick : State → Want → List Want → List Want) (s : State) (h_s : Kept pt qu s) : KeptOut pt qu (readRow k optype pick s) := by
  unfold readRow
  repeat' (first
    | (simp +contextual (maxDischargeDepth := 200) only [↓keptOut_next, ↓keeps_onlyIf, ↓keeps_setOp, *]; done)
    | split
    | simp +contextual (maxDischargeDepth := 200) only [*]
    | intros)
theorem keeps_execPageRead (k : Nat) (s : State) (h_s : Kept pt qu s) : KeptOut pt qu (execPageRead k s) := by
  simp only [execPageRead, ↓keeps_readRow, *]
theorem keeps_execColRead (k : Nat) (s : State) (h_s : Kept pt qu s) : KeptOut pt qu (execColRead k s) := by
  simp only [execColRead, ↓keeps_readRow, *]
theorem keeps_execMpRead (k : Nat) (s : State) (h_s : Kept pt qu s) : KeptOut pt qu (execMpRead k s) := by
  simp only [execMpRead, ↓keeps_readRow, *]
theorem keeps_execCacheRead (k : Nat) (s : State) (h_s : Kept pt qu s) : KeptOut pt qu (execCacheRead k s) := by
  simp only [execCacheRead, ↓keeps_readRow, *]
theorem keeps_formRow (k : Nat) (optype : Nat) (kind : Nat) (pick : State → Want → List Want) (s : State) (h_s : Kept pt qu s) : KeptOut pt qu (formRow k optype kind pick s) := by
  unfold formRow
  repeat' (first
    | (simp +contextual (maxDischargeDepth := 200) only [↓keptOut_next, ↓keeps_onlyIf, ↓keeps_setOp, *]; done)
    | split
    | intros)
theorem keeps_execProg (k : Nat) (s : State) (h_s : Kept pt qu s) : KeptOut pt qu (execProg k s) := by
  simp only [execProg, ↓keeps_formRow, *]
theorem keeps_execMpProg (k : Nat) (s : State) (h_s : Kept pt qu s) : KeptOut pt qu (execMpProg k s) := by
  simp only [execMpProg, ↓keeps_formRow, *]
theorem keeps_execCacheProg (k : Nat) (s : State) (h_s : Kept pt qu s) : KeptOut pt qu (execCacheProg k s) := by
  simp only [execCacheProg, ↓keeps_formRow, *]
theorem keeps_execSlcProg (k : Nat) (s : State) (h_s : Kept pt qu s) : KeptOut pt qu (execSlcProg k s) := by
  simp only [execSlcProg, ↓keeps_formRow, *]
theorem keeps_execSealProg (k : Nat) (s : State) (h_s : Kept pt qu s) : KeptOut pt qu (execSealProg k s) := by
  simp only [execSealProg, ↓keeps_formRow, *]
theorem keeps_execErase (k : Nat) (s : State) (h_s : Kept pt qu s) : KeptOut pt qu (execErase k s) := by
  simp only [execErase, ↓keeps_formRow, *]
theorem keeps_execMpErase (k : Nat) (s : State) (h_s : Kept pt qu s) : KeptOut pt qu (execMpErase k s) := by
  simp only [execMpErase, ↓keeps_formRow, *]
theorem keeps_execOtpRead (k : Nat) (s : State) (h_s : Kept pt qu s) : KeptOut pt qu (execOtpRead k s) := by
  simp only [execOtpRead, ↓keeps_formRow, *]
theorem keeps_execOtpProg (k : Nat) (s : State) (h_s : Kept pt qu s) : KeptOut pt qu (execOtpProg k s) := by
  simp only [execOtpProg, ↓keeps_formRow, *]
theorem keeps_execGetFeat (k : Nat) (s : State) (h_s : Kept pt qu s) : KeptOut pt qu (execGetFeat k s) := by
  simp only [execGetFeat, ↓keeps_formRow, *]
theorem keeps_execSetFeat (k : Nat) (s : State) (h_s : Kept pt qu s) : KeptOut pt qu (execSetFeat k s) := by
  simp only [execSetFeat, ↓keeps_formRow, *]
theorem keeps_execEraseResume (k : Nat) (s : State) (h_s : Kept pt qu s) : KeptOut pt qu (execEraseResume k s) := by
  unfold execEraseResume
  repeat' (first
    | (simp +contextual (maxDischargeDepth := 200) only [↓keptOut_next, ↓keeps_onlyIf, ↓keeps_modLun, *]; done)
    | split
    | simp +contextual (maxDischargeDepth := 200) only [*]
    | intros)
theorem keeps_execStokerIssue (k : Nat) (s : State) (h_s : Kept pt qu s) : KeptOut pt qu (execStokerIssue k s) := by
  unfold execStokerIssue
  repeat' (first
    | (simp +contextual (maxDischargeDepth := 200) only [↓kept_ite, ↓keptOut_next, ↓keeps_onlyIf, ↓keeps_State_restart, ↓keeps_modLun, ↓keeps_setSlot, *]; done)
    | split
    | simp +contextual (maxDischargeDepth := 200) only [*]
    | intros)
theorem keeps_raiseSuspend (k : Nat) (s : State) (h_s : Kept pt qu s) : Kept pt qu (raiseSuspend k s) := by
  unfold raiseSuspend
  repeat' (first
    | (simp +contextual (maxDischargeDepth := 200) only [↓kept_ite, ↓keeps_setSlot, *]; done)
    | split
    | intros)
theorem keeps_execEraseSuspendRequest (k : Nat) (s : State) (h_s : Kept pt qu s) : KeptOut pt qu (execEraseSuspendRequest k s) := by
  unfold execEraseSuspendRequest
  repeat' (first
    | (simp +contextual (maxDischargeDepth := 200) only [↓keptOut_next, ↓keeps_raiseSuspend, ↓keeps_onlyIf, *]; done)
    | split
    | intros)
theorem keeps_execSuspendWindowExpiry (k : Nat) (s : State) (h_s : Kept pt qu s) : KeptOut pt qu (execSuspendWindowExpiry k s) := by
  unfold execSuspendWindowExpiry
  repeat' (first
    | (simp +contextual (maxDischargeDepth := 200) only [↓keptOut_next, ↓keeps_onlyIf, ↓keeps_modLun, *]; done)
    | split
    | intros)
theorem keeps_execClass3Aged (k : Nat) (s : State) (h_s : Kept pt qu s) : KeptOut pt qu (execClass3Aged k s) := by
  simp only [execClass3Aged, ↓keeps_onlyIf, ↓keeps_modLun, *]
theorem keeps_stallOver (k : Nat) (o : Op) (code : Nat) (b : Byte) (s : State) (h_s : Kept pt qu s) : Kept pt qu (stallOver k o code b s) := by
  simp only [stallOver, ↓kept_mk, ↓kept_back, ↓keeps_modLun, *]
theorem keeps_stallPolled (k : Nat) (o : Op) (t : Nat) (b : Byte) (s : State) (h_s : Kept pt qu s) : Kept pt qu (stallPolled k o t b s) := by
  simp +contextual (maxDischargeDepth := 200) only [stallPolled, ↓kept_ite, ↓keeps_stallOver, ↓keeps_lunOff, ↓keeps_State_inc, ↓keeps_State_logPacked, *]
theorem keeps_execStallPoll (k : Nat) (b : Byte) (s : State) (h_s : Kept pt qu s) : KeptOut pt qu (execStallPoll k b s) := by
  unfold execStallPoll
  repeat' (first
    | (simp +contextual (maxDischargeDepth := 200) only [↓keptOut_next, implies_true, ↓keeps_selectTarget, ↓keeps_onlyIf, ↓keeps_stallPolled, ↓keeps_statusRead, ↓keeps_raiseCe, ↓keeps_atRate, ↓keeps_modLun, *]; done)
    | split
    | intros)
theorem keeps_execWprotReissue (k : Nat) (s : State) (h_s : Kept pt qu s) : KeptOut pt qu (execWprotReissue k s) := by
  unfold execWprotReissue
  repeat' (first
    | (simp +contextual (maxDischargeDepth := 200) only [↓keptOut_next, ↓keeps_onlyIf, ↓keeps_modLun, *]; done)
    | split
    | intros)

theorem keeps_State_setCalT (s : State) (ti : Nat) (x : CalTgt) (h_s : Kept pt qu s) : Kept pt qu (State.setCalT s ti x) := by
  simp only [State.setCalT, ↓kept_mk, ↓kept_back, *]
theorem keeps_storeTrain (ti : Nat) (rd : List Int) (wr : List Int) (gbRd : Int) (gbWr : Int) (s : State) (h_s : Kept pt qu s) : Kept pt qu (storeTrain ti rd wr gbRd gbWr s) := by
  simp only [storeTrain, ↓keeps_State_setCalT, *]
theorem keeps_featCycles (c : Nat) (t : Nat) (fa : Nat) (ps : List Nat) (s : State) (h_s : Kept pt qu s) : Kept pt qu (featCycles c t fa ps s) := by
  simp +contextual (maxDischargeDepth := 200) only [featCycles, ↓keeps_busPut, *]
theorem keeps_readCycles (c : Nat) (t : Nat) (cmd : Byte) (adr : Byte) (n : Nat) (s : State) (h_s : Kept pt qu s) : Kept pt qu (readCycles c t cmd adr n s) := by
  simp +contextual (maxDischargeDepth := 200) only [readCycles, ↓keeps_busPut, *]
theorem keeps_kxPut (c : Nat) (t : Nat) (b : Byte) (xlen : Nat) (s : State) (h_s : Kept pt qu s) : Kept pt qu (kxPut c t b xlen s) := by
  simp only [kxPut, ↓keeps_busPut, *]
theorem keeps_dieZq (c : Nat) (t : Nat) (mode : Nat) (s : State) (h_s : Kept pt qu s) : Kept pt qu (dieZq c t mode s) := by
  simp only [dieZq, ↓kept_ite, ↓keeps_kxPut, ↓keeps_busPut, *]
theorem keeps_dieDcc (c : Nat) (t : Nat) (s : State) (h_s : Kept pt qu s) : Kept pt qu (dieDcc c t s) := by
  simp +contextual (maxDischargeDepth := 200) only [dieDcc, ↓keeps_busPut, ↓keeps_featCycles, *]
theorem keeps_sweepPut (c : Nat) (t : Nat) (mode : Nat) (dir : Nat) (s : State) (h_s : Kept pt qu s) : Kept pt qu (sweepPut c t mode dir s) := by
  simp only [sweepPut, ↓keeps_busPut, *]
theorem keeps_queueRun (sweep : Nat) (ti : Nat) (s : State) (h_s : Kept pt qu s) : Kept pt qu (queueRun sweep ti s) := by
  simp only [queueRun, ↓kept_mk, ↓kept_back, ↓kept_ite, *]
theorem keeps_queueSweep (l : List Nat) (s : State) (h_s : Kept pt qu s) : Kept pt qu (queueSweep l s) := by
  simp +contextual (maxDischargeDepth := 200) only [queueSweep, ↓kept_mk, ↓kept_back, ↓kept_fold, implies_true, ↓keeps_queueRun, *]

theorem keeps_trainFeatures (c : Nat) (t : Nat) (a : Applied) (s : State) (h_s : Kept pt qu s) : Kept pt qu (trainFeatures c t a s) := by
  simp +contextual (maxDischargeDepth := 200) only [trainFeatures, ↓kept_ite, reduceCtorEq, ↓keeps_State_setChan, ↓keeps_raiseCe, ↓keeps_State_put, ↓keeps_featCycles, ↓keeps_setRate, *]
theorem keeps_trainTry (c : Nat) (t : Nat) (gr : List Int) (gw : List Int) (m : Train) (s : State) (h_s : Kept pt qu s) : Kept pt qu (trainTry c t gr gw m s).2 := by
  unfold trainTry
  repeat' (first
    | (simp +contextual (maxDischargeDepth := 200) only [↓kept_ite, ↓keeps_trainFeatures, ↓keeps_selectTarget, ↓keeps_phyZq, ↓keeps_dieDcc, ↓keeps_raiseCe, ↓keeps_storeTrain, ↓keeps_dieZq, ↓keeps_phyDuty, ↓keeps_sweepPut, *]; done)
    | split
    | simp +contextual (maxDischargeDepth := 200) only [*]
    | intros)
theorem keeps2_trainTry (c : Nat) (t : Nat) (gr : List Int) (gw : List Int) (m : Train) (s : State) : ∀ y, trainTry c t gr gw m s = y → Kept pt qu s → Kept pt qu y.2 := by
  rintro y rfl h_s; exact keeps_trainTry c t gr gw m s h_s
theorem keeps3_trainTry (c : Nat) (t : Nat) (gr : List Int) (gw : List Int) (m : Train) (s : State) (a y) (e : trainTry c t gr gw m s = (a, y)) (h_s : Kept pt qu s) : Kept pt qu y := keeps2_trainTry c t gr gw m s (a, y) e h_s
theorem keeps_escape (c : Nat) (t : Nat) (s : State) (h_s : Kept pt qu s) : Kept pt qu (escape c t s) := by
  simp +contextual (maxDischargeDepth := 200) only [escape, ↓kept_ite, ↓keeps_State_setChan, ↓keeps_raiseCe, ↓keeps_busPut, ↓keeps_State_putFlag, ↓keeps_State_put, ↓keeps_State_inc, *]
theorem keeps_kxSetFeatures (c : Nat) (t : Nat) (rate : Nat) (s : State) (h_s : Kept pt qu s) : Kept pt qu (kxSetFeatures c t rate s) := by
  simp only [kxSetFeatures, ↓keeps_featCycles, *]
theorem keeps_kxSet (c : Nat) (t : Nat) (adr : Nat) (v : Nat) (s : State) (h_s : Kept pt qu s) : Kept pt qu (kxSet c t adr v s) := by
  simp only [kxSet, ↓keeps_busPut, *]
theorem keeps_kxEcho (c : Nat) (t : Nat) (s : State) (x0 : Nat) (h_s : Kept pt qu s) : Kept pt qu (kxEcho c t s x0) := by
  simp +contextual (maxDischargeDepth := 200) only [kxEcho, ↓keeps_State_fresh, ↓keeps_busPut, *]
theorem keeps_kxTry (c : Nat) (t : Nat) (rate : Nat) (gr : Int) (gw : Int) (m : Train) (s : State) (h_s : Kept pt qu s) : Kept pt qu (kxTry c t rate gr gw m s).2 := by
  unfold kxTry
  repeat' (first
    | with_reducible assumption
    | with_reducible refine kept_fold (fun _ _ _ => ?_) ?_
    | with_reducible apply kept_ite
    | with_reducible apply keptOut_ite
    | with_reducible refine (keptOut_next _).mpr ?_
    | with_reducible apply kept_ite2
    | with_reducible apply kept_ite22
    | with_reducible apply kept_id
    | with_reducible refine kept_fold2 (fun _ _ _ => ?_) ?_
    | with_reducible apply keeps_kxSetFeatures
    | with_reducible apply keeps_kxPut
    | with_reducible apply keeps_selectTarget
    | with_reducible apply keeps_kxSet
    | with_reducible apply keeps_State_setChan
    | with_reducible apply keeps_kxEcho
    | with_reducible apply keeps_raiseCe
    | with_reducible apply keeps_busPut
    | with_reducible apply keeps_storeTrain
    | with_reducible apply keeps_State_putFlag
    | with_reducible apply keeps_sweepPut
    | split
    | fail_if_no_progress (with_reducible apply kept_same)
    | intro _)
theorem keeps2_kxTry (c : Nat) (t : Nat) (rate : Nat) (gr : Int) (gw : Int) (m : Train) (s : State) : ∀ y, kxTry c t rate gr gw m s = y → Kept pt qu s → Kept pt qu y.2 := by
  rintro y rfl h_s; exact keeps_kxTry c t rate gr gw m s h_s
theorem keeps3_kxTry (c : Nat) (t : Nat) (rate : Nat) (gr : Int) (gw : Int) (m : Train) (s : State) (a y) (e : kxTry c t rate gr gw m s = (a, y)) (h_s : Kept pt qu s) : Kept pt qu y := keeps2_kxTry c t rate gr gw m s (a, y) e h_s
theorem keeps_trainOnce (c : Nat) (t : Nat) (std : Bool) (kx : Option Nat) (gr : List Int) (gw : List Int) (m : Train) (k : Train) (s : State) (h_s : Kept pt qu s) : Kept pt qu (trainOnce c t std kx gr gw m k s).2 := by
  unfold trainOnce
  repeat' (first
    | with_reducible assumption
    | with_reducible refine kept_fold (fun _ _ _ => ?_) ?_
    | with_reducible apply kept_ite
    | with_reducible apply keptOut_ite
    | with_reducible refine (keptOut_next _).mpr ?_
    | with_reducible apply kept_ite2
    | with_reducible apply kept_ite22
    | with_reducible apply kept_id
    | with_reducible refine kept_fold2 (fun _ _ _ => ?_) ?_
    | with_reducible apply keeps_escape
    | with_reducible apply keeps_trainTry
    | with_reducible refine keeps3_trainTry _ _ _ _ _ _ _ _ (by assumption) ?_
    | with_reducible apply keeps_kxTry
    | with_reducible refine keeps3_kxTry _ _ _ _ _ _ _ _ _ (by assumption) ?_
    | dsimp only
    | split
    | fail_if_no_progress (with_reducible apply kept_same)
    | intro _)
theorem keeps2_trainOnce (c : Nat) (t : Nat) (std : Bool) (kx : Option Nat) (gr : List Int) (gw : List Int) (m : Train) (k : Train) (s : State) : ∀ y, trainOnce c t std kx gr gw m k s = y → Kept pt qu s → Kept pt qu y.2 := by
  rintro y rfl h_s; exact keeps_trainOnce c t std kx gr gw m k s h_s
theorem keeps3_trainOnce (c : Nat) (t : Nat) (std : Bool) (kx : Option Nat) (gr : List Int) (gw : List Int) (m : Train) (k : Train) (s : State) (a y) (e : trainOnce c t std kx gr gw m k s = (a, y)) (h_s : Kept pt qu s) : Kept pt qu y := keeps2_trainOnce c t std kx gr gw m k s (a, y) e h_s
theorem keeps_trainTwice (c : Nat) (t : Nat) (std : Bool) (kx : Option Nat) (gr : List Int) (gw : List Int) (x : TrainSet) (s : State) (h_s : Kept pt qu s) : Kept pt qu (trainTwice c t std kx gr gw x s).2 := by
  simp +contextual (maxDischargeDepth := 200) only [trainTwice, ↓kept_ite2, ↓keeps_trainOnce, ↓keeps_targetOff, *]
theorem keeps2_trainTwice (c : Nat) (t : Nat) (std : Bool) (kx : Option Nat) (gr : List Int) (gw : List Int) (x : TrainSet) (s : State) : ∀ y, trainTwice c t std kx gr gw x s = y → Kept pt qu s → Kept pt qu y.2 := by
  rintro y rfl h_s; exact keeps_trainTwice c t std kx gr gw x s h_s
theorem keeps3_trainTwice (c : Nat) (t : Nat) (std : Bool) (kx : Option Nat) (gr : List Int) (gw : List Int) (x : TrainSet) (s : State) (a y) (e : trainTwice c t std kx gr gw x s = (a, y)) (h_s : Kept pt qu s) : Kept pt qu y := keeps2_trainTwice c t std kx gr gw x s (a, y) e h_s

theorem keeps_setFieldWrite (f : Fld) (kx : Bool) (c : Nat) (t : Nat) (w : Word) (s : State) (h_s : Kept pt qu s) : Kept pt qu (setFieldWrite f kx c t w s) := by
  simp +contextual (maxDischargeDepth := 200) only [setFieldWrite, ↓kept_ite, ↓keeps_State_put, ↓keeps_State_logPacked, *]
theorem keeps_kxReqWrite (c : Nat) (t : Nat) (w : Word) (s : State) (h_s : Kept pt qu s) : Kept pt qu (kxReqWrite c t w s) := by
  simp only [kxReqWrite, ↓kept_ite, ↓keeps_logOnce, ↓keeps_State_put, *]
theorem keeps_tgtcfgWrite (c : Nat) (t : Nat) (w : Word) (s : State) (h_s : Kept pt qu s) : Kept pt qu (tgtcfgWrite c t w s) := by
  simp +contextual (maxDischargeDepth := 200) only [tgtcfgWrite, ↓kept_ite, ↓keeps_kxReqWrite, ↓keeps_setFieldWrite, ↓keeps_State_putFlag, *]
theorem keeps_execKxReqWrite (r : Req) (c : Nat) (t : Nat) (w : Word) (s : State) (h_s : Kept pt qu s) : KeptOut pt qu (execKxReqWrite r c t w s) := by
  simp +contextual (maxDischargeDepth := 200) only [execKxReqWrite, implies_true, ↓keeps_regWrite, ↓keeps_tgtcfgWrite, ↓keeps_onlyIf, *]
theorem keeps_execTsetWrite (r : Req) (c : Nat) (t : Nat) (w : Word) (s : State) (h_s : Kept pt qu s) : KeptOut pt qu (execTsetWrite r c t w s) := by
  simp +contextual (maxDischargeDepth := 200) only [execTsetWrite, implies_true, ↓keeps_regWrite, ↓keeps_tgtcfgWrite, ↓keeps_onlyIf, *]
theorem keeps_slotsAfresh (c : Nat) (t : Nat) (ok : Bool) (s : State) (h_s : Kept pt qu s) : Kept pt qu (slotsAfresh c t ok s) := by
  simp +contextual (maxDischargeDepth := 200) only [slotsAfresh, ↓kept_ite, ↓kept_fold, implies_true, ↓keeps_State_setChan, ↓keeps_endSlot, *]
theorem keeps_kxRecover (c : Nat) (t : Nat) (x : TrainSet) (s : State) (h_s : Kept pt qu s) : Kept pt qu (kxRecover c t x s) := by
  simp +contextual (maxDischargeDepth := 200) only [kxRecover, ↓keeps_escape, ↓keeps_trainTwice, ↓keeps_slotsAfresh, *]
theorem keeps_execKxEntry (c : Nat) (t : Nat) (x : TrainSet) (s : State) (h_s : Kept pt qu s) : KeptOut pt qu (execKxEntry c t x s) := by
  simp +contextual (maxDischargeDepth := 200) only [execKxEntry, ↓kept_ite, ↓keeps_kxRecover, ↓keeps_onlyIf, ↓keeps_trainTwice, *]
theorem keeps_execKxExit (c : Nat) (t : Nat) (s : State) (h_s : Kept pt qu s) : KeptOut pt qu (execKxExit c t s) := by
  simp +contextual (maxDischargeDepth := 200) only [execKxExit, implies_true, ↓keeps_kxPut, ↓keeps_selectTarget, ↓keeps_onlyIf, ↓keeps_raiseCe, ↓keeps_State_putFlag, ↓keeps_atRate, *]
theorem keeps_showOffsets (c : Nat) (s : State) (h_s : Kept pt qu s) : Kept pt qu (showOffsets c s) := by
  simp only [showOffsets, ↓keeps_State_setReg, *]
theorem keeps_trackBit (c : Nat) (key : Nat) (s : State) (h_s : Kept pt qu s) : Kept pt qu (trackBit c key s) := by
  simp +contextual (maxDischargeDepth := 200) only [trackBit, ↓kept_ite, reduceCtorEq, ↓keeps_queueSweep, ↓keeps_State_setBit, ↓keeps_State_setChan, ↓keeps_State_inc, *]
theorem keeps_execTrackingEval (c : Nat) (edges : List (Nat × Nat × Nat × Bool)) (s : State) (h_s : Kept pt qu s) : KeptOut pt qu (execTrackingEval c edges s) := by
  simp +contextual (maxDischargeDepth := 200) only [execTrackingEval, ↓kept_fold, implies_true, ↓keeps_onlyIf, ↓keeps_State_setChan, ↓keeps_trackBit, ↓keeps_showOffsets, *]
theorem keeps_execRbRise (c : Nat) (t : Nat) (s : State) (h_s : Kept pt qu s) : KeptOut pt qu (execRbRise c t s) := by
  simp only [execRbRise, ↓keeps_onlyIf, ↓keeps_State_setChan, *]

theorem keeps_rawLatch (c : Nat) (s : State) (h_s : Kept pt qu s) : Kept pt qu (rawLatch c s) := by
  simp only [rawLatch, ↓kept_ite, ↓keeps_State_putFlag, *]
theorem keeps_rawCtlWrite (c : Nat) (w : Word) (s : State) (h_s : Kept pt qu s) : Kept pt qu (rawCtlWrite c w s) := by
  simp +contextual (maxDischargeDepth := 200) only [rawCtlWrite, ↓kept_ite, ↓keeps_State_setChan, ↓keeps_raiseCe, ↓keeps_State_putFlag, ↓keeps_State_put, ↓keeps_rawLatch, *]
theorem keeps_execRawCtlEnable (r : Req) (c : Nat) (w : Word) (s : State) (h_s : Kept pt qu s) : KeptOut pt qu (execRawCtlEnable r c w s) := by
  simp +contextual (maxDischargeDepth := 200) only [execRawCtlEnable, implies_true, ↓keeps_regWrite, ↓keeps_onlyIf, ↓keeps_rawCtlWrite, *]
theorem keeps_execRawCtlDisable (r : Req) (c : Nat) (w : Word) (s : State) (h_s : Kept pt qu s) : KeptOut pt qu (execRawCtlDisable r c w s) := by
  simp +contextual (maxDischargeDepth := 200) only [execRawCtlDisable, implies_true, ↓keeps_regWrite, ↓keeps_onlyIf, ↓keeps_rawCtlWrite, *]
theorem keeps_rawAccess (r : Req) (c : Nat) (ofs : Nat) (len : Nat) (n : Nat) (write : Bool) (region : Nat) (a : State → RawAcc) (s : State) (h_s : Kept pt qu s) : KeptOut pt qu (rawAccess r c ofs len n write region a s) := by
  unfold rawAccess
  repeat' (first
    | (simp +contextual (maxDischargeDepth := 200) only [↓keptOut_ite, ↓keptOut_next, ↓keeps_State_noteRefused, ↓keeps_State_setChan, ↓keeps_State_putFlag, ↓keeps_State_abortEntry, ↓keeps_State_respond, ↓keeps_rawLatch, ↓keeps_takeIn, ↓keeps_State_respondWrite, *]; done)
    | split
    | intros)
theorem keeps_execRawCommandWrite (r : Req) (c : Nat) (ofs : Nat) (en : List (Option Byte)) (s : State) (h_s : Kept pt qu s) : KeptOut pt qu (execRawCommandWrite r c ofs en s) := by
  simp only [execRawCommandWrite, ↓keeps_rawAccess, *]
theorem keeps_execRawAddressWrite (r : Req) (c : Nat) (ofs : Nat) (en : List (Option Byte)) (s : State) (h_s : Kept pt qu s) : KeptOut pt qu (execRawAddressWrite r c ofs en s) := by
  simp only [execRawAddressWrite, ↓keeps_rawAccess, *]
theorem keeps_execRawDataWrite (r : Req) (c : Nat) (ofs : Nat) (en : List (Option Byte)) (s : State) (h_s : Kept pt qu s) : KeptOut pt qu (execRawDataWrite r c ofs en s) := by
  simp only [execRawDataWrite, ↓keeps_rawAccess, *]
theorem keeps_execRawDataRead (r : Req) (c : Nat) (ofs : Nat) (len : Nat) (s : State) (h_s : Kept pt qu s) : KeptOut pt qu (execRawDataRead r c ofs len s) := by
  simp only [execRawDataRead, ↓keeps_rawAccess, *]
theorem keeps_execRawStatusRead (r : Req) (c : Nat) (ofs : Nat) (len : Nat) (s : State) (h_s : Kept pt qu s) : KeptOut pt qu (execRawStatusRead r c ofs len s) := by
  simp only [execRawStatusRead, ↓keeps_rawAccess, *]
theorem keeps_execRawReadTimeout (c : Nat) (s : State) (h_s : Kept pt qu s) : KeptOut pt qu (execRawReadTimeout c s) := by
  unfold execRawReadTimeout
  repeat' (first
    | (simp +contextual (maxDischargeDepth := 200) only [↓keptOut_next, ↓keeps_onlyIf, ↓keeps_State_setChan, ↓keeps_State_putFlag, ↓keeps_rawFails, *]; done)
    | split
    | intros)
theorem keeps_execPatchRamRead (r : Req) (c : Nat) (ofs : Nat) (beats : Nat) (s : State) (h_s : Kept pt qu s) : KeptOut pt qu (execPatchRamRead r c ofs beats s) := by
  unfold execPatchRamRead
  repeat' (first
    | (simp +contextual (maxDischargeDepth := 200) only [↓keptOut_ite, ↓keptOut_next, ↓keeps_State_putFlag, ↓keeps_State_respond, *]; done)
    | split
    | intros)
theorem keeps_execPatchRamWrite (r : Req) (c : Nat) (s : State) (h_s : Kept pt qu s) : KeptOut pt qu (execPatchRamWrite r c s) := by
  unfold execPatchRamWrite
  repeat' (first
    | (simp +contextual (maxDischargeDepth := 200) only [↓kept_ite, ↓keptOut_next, ↓keeps_State_putFlag, ↓keeps_State_respondWrite, *]; done)
    | split
    | intros)
theorem keeps_haltWrite (c : Nat) (w : Word) (s : State) (h_s : Kept pt qu s) : Kept pt qu (haltWrite c w s) := by
  simp +contextual (maxDischargeDepth := 200) only [haltWrite, ↓kept_ite, ↓keeps_State_setChan, ↓keeps_State_putFlag, ↓keeps_haltAt, *]
theorem keeps_stepWord (c : Nat) (u : BitVec 96) (din : List Byte) (m : Train) (s : State) (h_s : Kept pt qu s) : Kept pt qu (stepWord c u din m s) := by
  unfold stepWord
  repeat' (first
    | (simp +contextual (maxDischargeDepth := 200) only [↓kept_ite, ↓keeps_wordOrRate, ↓keeps_State_setChan, *]; done)
    | split
    | intros)
theorem keeps_execStkDbgHalt (r : Req) (c : Nat) (w : Word) (s : State) (h_s : Kept pt qu s) : KeptOut pt qu (execStkDbgHalt r c w s) := by
  simp +contextual (maxDischargeDepth := 200) only [execStkDbgHalt, implies_true, ↓keeps_regWrite, ↓keeps_onlyIf, ↓keeps_haltWrite, *]
theorem keeps_execStkDbgStep (r : Req) (c : Nat) (w : Word) (u : BitVec 96) (din : List Byte) (m : Train) (s : State) (h_s : Kept pt qu s) : KeptOut pt qu (execStkDbgStep r c w u din m s) := by
  simp +contextual (maxDischargeDepth := 200) only [execStkDbgStep, implies_true, ↓keeps_regWrite, ↓keeps_onlyIf, ↓keeps_stepWord, ↓keeps_haltWrite, *]

end Sys2Proof.Machine
end

