-- ==== Sys2Proof/Laws/KeepsReads.lean ====
section
/-! SUPPORT. The definitions of the read path and the map keep the part, the queue and the invariant. -/

open Sys2Proof

set_option linter.unusedTactic false
set_option linter.unreachableTactic false
set_option linter.unusedVariables false

namespace Sys2Proof.Machine

variable {pt : Part} {qu : List Instr}

theorem keeps_State_modUnit (s : State) (x : Nat) (f : UnitE → UnitE) (h_s : Kept pt qu s) : Kept pt qu (State.modUnit s x f) := by
  simp only [State.modUnit, ↓kept_mk, ↓kept_back, *]
theorem keeps_State_modSet (s : State) (n : Nat) (f : SetSt → SetSt) (h_s : Kept pt qu s) : Kept pt qu (State.modSet s n f) := by
  simp only [State.modSet, ↓kept_mk, ↓kept_back, *]
theorem keeps_State_setGrp (s : State) (set : Nat) (g : Nat) (x : Grp) (h_s : Kept pt qu s) : Kept pt qu (State.setGrp s set g x) := by
  simp only [State.setGrp, ↓kept_mk, ↓kept_back, *]
theorem keeps_lineRead (q : FabReq) (p : Purpose) (s : State) (h_s : Kept pt qu s) : Kept pt qu (lineRead q p s) := by
  simp only [lineRead, ↓kept_mk, ↓kept_back, ↓kept_ite, ↓keeps_State_issue, *]
theorem keeps_dramRead (addr : Nat) (len : Nat) (cls : Nat) (p : Purpose) (s : State) (h_s : Kept pt qu s) : Kept pt qu (dramRead addr len cls p s) := by
  simp +contextual (maxDischargeDepth := 200) only [dramRead, ↓kept_fold, implies_true, ↓keeps_lineRead, *]
theorem keeps_releaseHeld (s : State) (h_s : Kept pt qu s) : Kept pt qu (releaseHeld s) := by
  simp +contextual (maxDischargeDepth := 200) only [releaseHeld, ↓kept_mk, ↓kept_back, ↓kept_fold, implies_true, ↓keeps_lineRead, *]
theorem keeps_dramWrite (addr : Nat) (cls : Nat) (data : List Byte) (p : Purpose) (s : State) (h_s : Kept pt qu s) : Kept pt qu (dramWrite addr cls data p s) := by
  simp only [dramWrite, ↓keeps_State_issueAll, *]
theorem keeps_dramSeen (code : RCode) (s : State) (h_s : Kept pt qu s) : Kept pt qu (dramSeen code s) := by
  simp only [dramSeen, ↓kept_mk, ↓kept_back, ↓kept_ite, *]
theorem keeps_putUnit (x : Nat) (f : UnitE → UnitE) (s : State) (h_s : Kept pt qu s) : Kept pt qu (putUnit x f s) := by
  simp +contextual (maxDischargeDepth := 200) only [putUnit, ↓keeps_State_modUnit, ↓keeps_dramWrite, *]
theorem keeps_putGrp (set : Nat) (g : Nat) (x : Grp) (s : State) (h_s : Kept pt qu s) : Kept pt qu (putGrp set g x s) := by
  simp +contextual (maxDischargeDepth := 200) only [putGrp, ↓keeps_State_setGrp, ↓keeps_dramWrite, *]
theorem keeps_State_modDir (s : State) (mt : Nat) (f : Dir → Dir) (h_s : Kept pt qu s) : Kept pt qu (State.modDir s mt f) := by
  simp only [State.modDir, ↓kept_mk, ↓kept_back, ↓kept_ite, ↓keeps_dramWrite, *]
theorem keeps_refreshReq (g : Page) (s : State) (h_s : Kept pt qu s) : Kept pt qu (refreshReq g s) := by
  simp only [refreshReq, ↓kept_ite, ↓keeps_putUnit, *]

theorem keeps_gaugeFill (key : Nat) (cls : Nat) (l : GLine) (s : State) (h_s : Kept pt qu s) : Kept pt qu (gaugeFill key cls l s) := by
  simp +contextual (maxDischargeDepth := 200) only [gaugeFill, ↓kept_mk, ↓kept_back, ↓kept_ite, ↓keeps_dramWrite, *]
theorem keeps_gaugeTouch (key : Nat) (s : State) (h_s : Kept pt qu s) : Kept pt qu (gaugeTouch key s) := by
  simp only [gaugeTouch, ↓kept_mk, ↓kept_back, *]
theorem keeps_gaugeSeed (k : Nat) (b : Nat) (off : List Int) (s : State) (h_s : Kept pt qu s) : Kept pt qu (gaugeSeed k b off s) := by
  unfold gaugeSeed
  repeat' (first
    | (simp +contextual (maxDischargeDepth := 200) only [↓kept_mk, ↓kept_back, ↓keeps_dramWrite, *]; done)
    | split
    | simp +contextual (maxDischargeDepth := 200) only [*]
    | intros)
theorem keeps_calLineRead (key : Nat) (code : RCode) (data : List Byte) (s : State) (h_s : Kept pt qu s) : Kept pt qu (calLineRead key code data s) := by
  unfold calLineRead
  repeat' (first
    | (simp +contextual (maxDischargeDepth := 200) only [↓kept_mk, ↓kept_back, ↓keeps_State_inc, ↓keeps_dramWrite, *]; done)
    | split
    | intros)
theorem keeps_gaugeLearn (g : Page) (cw : Nat) (used : List Int) (good : List Byte) (bad : List Byte) (s : State) (h_s : Kept pt qu s) : Kept pt qu (gaugeLearn g cw used good bad s) := by
  unfold gaugeLearn
  repeat' (first
    | (simp +contextual (maxDischargeDepth := 200) only [↓kept_mk, ↓kept_back, ↓kept_ite, ↓keeps_refreshReq, ↓keeps_State_inc, *]; done)
    | split
    | intros)
theorem keeps_gaugeMove (g : Page) (used : List Int) (s : State) (h_s : Kept pt qu s) : Kept pt qu (gaugeMove g used s) := by
  unfold gaugeMove
  repeat' (first
    | (simp +contextual (maxDischargeDepth := 200) only [↓kept_mk, ↓kept_back, ↓kept_ite, ↓keeps_State_inc, *]; done)
    | split
    | intros)

theorem keeps_State_modRd (s : State) (id : Nat) (f : Rd → Rd) (h_s : Kept pt qu s) : Kept pt qu (State.modRd s id f) := by
  simp only [State.modRd, ↓kept_mk, ↓kept_back, *]
theorem keeps_State_addRd (s : State) (r : Rd) (h_s : Kept pt qu s) : Kept pt qu (State.addRd s r).2 := by
  simp only [State.addRd, ↓kept_mk, ↓kept_back, *]
theorem keeps2_State_addRd (s : State) (r : Rd) : ∀ y, State.addRd s r = y → Kept pt qu s → Kept pt qu y.2 := by
  rintro y rfl h_s; exact keeps_State_addRd s r h_s
theorem keeps3_State_addRd (s : State) (r : Rd) (a y) (e : State.addRd s r = (a, y)) (h_s : Kept pt qu s) : Kept pt qu y := keeps2_State_addRd s r (a, y) e h_s
theorem keeps_dropOne (id : Nat) (s : State) (h_s : Kept pt qu s) : Kept pt qu (dropOne id s) := by
  unfold dropOne
  repeat' (first
    | (simp +contextual (maxDischargeDepth := 200) only [↓kept_mk, ↓kept_back, ↓keeps_State_setChan, ↓keeps_modLun, *]; done)
    | split
    | intros)
theorem keeps_dropRd (id : Nat) (s : State) (h_s : Kept pt qu s) : Kept pt qu (dropRd id s) := by
  simp +contextual (maxDischargeDepth := 200) only [dropRd, ↓kept_fold, implies_true, ↓keeps_dropOne, *]
theorem keeps_endRd (id : Nat) (code : Nat) (cbc : Nat) (plain : List Byte) (raw : List Byte) (s : State) (h_s : Kept pt qu s) : Kept pt qu (endRd id code cbc plain raw s) := by
  simp only [endRd, ↓keeps_State_modRd, *]
theorem keeps_uncorrRd (id : Nat) (s : State) (h_s : Kept pt qu s) : Kept pt qu (uncorrRd id s) := by
  unfold uncorrRd
  repeat' (first
    | (simp +contextual (maxDischargeDepth := 200) only [↓kept_ite, ↓keeps_State_inc, ↓keeps_endRd, *]; done)
    | split
    | intros)
theorem keeps_takeRaToken (id : Nat) (r : Rd) (s : State) : ∀ y, takeRaToken id r s = some y → Kept pt qu s → Kept pt qu y := by
  intro y hy h_s
  revert y
  unfold takeRaToken
  repeat' (first
    | (simp +contextual (maxDischargeDepth := 200) only [↓kept_mk, ↓kept_back, implies_true, reduceCtorEq, false_implies, Option.some.injEq, forall_eq', *]; done)
    | split
    | simp +contextual (maxDischargeDepth := 200) only [*]
    | intros)
theorem keeps_placePlain (id : Nat) (front : Bool) (s : State) (h_s : Kept pt qu s) : Kept pt qu (placePlain id front s) := by
  unfold placePlain
  repeat' (first
    | (simp +contextual (maxDischargeDepth := 200) only [↓keeps_enqueue, ↓keeps_State_modRd, *]; done)
    | split
    | intros)
theorem keeps_withGauge (id : Nat) (go : State → State) (s : State) (h_go : ∀ (y0 : State), Kept pt qu y0 → Kept pt qu (go y0)) (h_s : Kept pt qu s) : Kept pt qu (withGauge id go s) := by
  unfold withGauge
  repeat' (first
    | (simp +contextual (maxDischargeDepth := 200) only [↓kept_ite, ↓keeps_gaugeTouch, ↓keeps_dramRead, ↓keeps_State_modRd, *]; done)
    | split
    | intros)
theorem keeps_askPartner (id : Nat) (set : Nat) (grpNo : Nat) (x : Grp) (row : Nat) (q : Nat) (pos : Nat) (cls : Nat) (rtag : Nat) (s : State) (h_s : Kept pt qu s) : Kept pt qu (askPartner id set grpNo x row q pos cls rtag s) := by
  unfold askPartner
  repeat' (first
    | (simp +contextual (maxDischargeDepth := 200) only [implies_true, ↓keeps_withGauge, ↓keeps_State_addRd, ↓keeps_placePlain, *]; done)
    | split
    | intros)
theorem keeps_startRecon (id : Nat) (around : Bool) (s : State) (h_s : Kept pt qu s) : Kept pt qu (startRecon id around s) := by
  unfold startRecon
  repeat' (first
    | (simp +contextual (maxDischargeDepth := 200) only [↓kept_ite, ↓kept_fold, implies_true, ↓keeps_uncorrRd, ↓keeps_askPartner, ↓keeps_State_modRd, *]; done)
    | split
    | intros)
theorem keeps_tryAround (id : Nat) (s : State) (h_s : Kept pt qu s) : Kept pt qu (tryAround id s).2 := by
  unfold tryAround
  repeat' (first
    | ((try have hx_takeRaToken := keeps_takeRaToken _ _ _ _ ‹takeRaToken _ _ _ = some _› (by first | assumption | (simp +contextual (maxDischargeDepth := 200) only [↓kept_mk, ↓kept_back, ↓kept_ite2, ↓kept_ite, ↓keptOut_ite, ↓kept_fold, ↓kept_fold2, ↓keptOut_next, ↓keptOut_fault, ↓keptParts_set, implies_true, forall_const, reduceCtorEq, false_implies, Option.some.injEq, forall_eq, forall_eq', ↓keeps_State_modRq, ↓keeps_startRecon, ↓keeps_State_inc, *]; done))); simp +contextual (maxDischargeDepth := 200) only [↓keeps_State_modRq, ↓keeps_startRecon, ↓keeps_State_inc, *]; done)
    | split
    | (intro y hy; first | (cases hy; done) | (obtain rfl := Option.some.inj hy))
    | simp +contextual (maxDischargeDepth := 200) only [↓kept_mk, ↓kept_back, ↓kept_ite2, ↓kept_ite, ↓keptOut_ite, ↓kept_fold, ↓kept_fold2, ↓keptOut_next, ↓keptOut_fault, ↓keptParts_set, implies_true, forall_const, reduceCtorEq, false_implies, Option.some.injEq, forall_eq, forall_eq', ↓keeps_State_modRq, ↓keeps_startRecon, ↓keeps_State_inc, *]
    | intros)
theorem keeps2_tryAround (id : Nat) (s : State) : ∀ y, tryAround id s = y → Kept pt qu s → Kept pt qu y.2 := by
  rintro y rfl h_s; exact keeps_tryAround id s h_s
theorem keeps3_tryAround (id : Nat) (s : State) (a y) (e : tryAround id s = (a, y)) (h_s : Kept pt qu s) : Kept pt qu y := keeps2_tryAround id s (a, y) e h_s
theorem keeps_place (id : Nat) (s : State) (h_s : Kept pt qu s) : Kept pt qu (place id s) := by
  unfold place
  repeat' (first
    | (simp +contextual (maxDischargeDepth := 200) only [↓kept_ite, reduceCtorEq, ↓keeps_tryAround, ↓keeps_startRecon, ↓keeps_State_modRd, ↓keeps_placePlain, *]; done)
    | split
    | intros)
theorem keeps_startRd (r : Rd) (s : State) (h_s : Kept pt qu s) : Kept pt qu (startRd r s) := by
  simp +contextual (maxDischargeDepth := 200) only [startRd, implies_true, ↓keeps_place, ↓keeps_withGauge, ↓keeps_State_addRd, *]
theorem keeps_softReads (id : Nat) (r : Rd) (s : State) (h_s : Kept pt qu s) : Kept pt qu (softReads id r s) := by
  simp only [softReads, ↓keeps_enqueue, *]
theorem keeps_stepRecon (id : Nat) (s : State) (h_s : Kept pt qu s) : Kept pt qu (stepRecon id s) := by
  unfold stepRecon
  repeat' (first
    | (simp +contextual (maxDischargeDepth := 200) only [↓kept_ite, ↓keeps_uncorrRd, ↓keeps_startRecon, *]; done)
    | split
    | intros)
theorem keeps_endLadder (id : Nat) (s : State) (h_s : Kept pt qu s) : Kept pt qu (endLadder id s) := by
  unfold endLadder
  repeat' (first
    | (simp +contextual (maxDischargeDepth := 200) only [↓keeps_stepRecon, ↓keeps_State_modRd, *]; done)
    | split
    | intros)
theorem keeps_nextStep (id : Nat) (s : State) (h_s : Kept pt qu s) : Kept pt qu (nextStep id s) := by
  unfold nextStep
  repeat' (first
    | (simp +contextual (maxDischargeDepth := 200) only [↓kept_ite, ↓keeps_softReads, ↓keeps_enqueue, ↓keeps_endLadder, ↓keeps_State_modRd, *]; done)
    | split
    | intros)
theorem keeps_aside (id : Nat) (s : State) (h_s : Kept pt qu s) : Kept pt qu (aside id s) := by
  unfold aside
  repeat' (first
    | (simp +contextual (maxDischargeDepth := 200) only [↓kept_ite, ↓keeps_tryAround, ↓keeps_State_modRd, *]; done)
    | split
    | intros)
theorem keeps_decodeFailed (id : Nat) (s : State) (h_s : Kept pt qu s) : Kept pt qu (decodeFailed id s) := by
  unfold decodeFailed
  repeat' (first
    | (simp +contextual (maxDischargeDepth := 200) only [↓kept_ite, ↓keeps_nextStep, ↓keeps_aside, *]; done)
    | split
    | intros)
theorem keeps_reconFailed (id : Nat) (s : State) (h_s : Kept pt qu s) : Kept pt qu (reconFailed id s) := by
  unfold reconFailed
  repeat' (first
    | (simp +contextual (maxDischargeDepth := 200) only [↓kept_ite, ↓keeps_uncorrRd, ↓keeps_State_modRd, ↓keeps_placePlain, *]; done)
    | split
    | intros)
theorem keeps_reconRefresh (r : Rd) (s : State) (h_s : Kept pt qu s) : Kept pt qu (reconRefresh r s) := by
  simp only [reconRefresh, ↓kept_ite, ↓keeps_refreshReq, *]
theorem keeps_tryRebuild (id : Nat) (s : State) (h_s : Kept pt qu s) : Kept pt qu (tryRebuild id s) := by
  unfold tryRebuild
  repeat' (first
    | (simp +contextual (maxDischargeDepth := 200) only [↓kept_ite, ↓keeps_reconFailed, ↓keeps_State_inc, ↓keeps_reconRefresh, ↓keeps_State_logPacked, ↓keeps_endRd, *]; done)
    | split
    | intros)
theorem keeps_partnerResult (pid : Nat) (s : State) (h_s : Kept pt qu s) : Kept pt qu (partnerResult pid s) := by
  unfold partnerResult
  repeat' (first
    | (simp +contextual (maxDischargeDepth := 200) only [↓kept_ite, ↓keeps_askPartner, ↓keeps_reconFailed, ↓keeps_nextStep, ↓keeps_dropOne, ↓keeps_State_modRd, ↓keeps_tryRebuild, *]; done)
    | split
    | simp +contextual (maxDischargeDepth := 200) only [*]
    | intros)

theorem keeps_State_setStream (s : State) (k : Nat) (x : Stream) (h_s : Kept pt qu s) : Kept pt qu (State.setStream s k x) := by
  simp only [State.setStream, ↓kept_mk, ↓kept_back, *]
theorem keeps_jAppend (k : Nat) (r : JRec) (s : State) (h_s : Kept pt qu s) : Kept pt qu (jAppend k r s) := by
  simp +contextual (maxDischargeDepth := 200) only [jAppend, ↓kept_ite, ↓keeps_State_setStream, ↓keeps_State_putFlag, *]
theorem keeps_jAppendAll (k : Nat) (l : List JRec) (s : State) (h_s : Kept pt qu s) : Kept pt qu (jAppendAll k l s) := by
  simp +contextual (maxDischargeDepth := 200) only [jAppendAll, ↓kept_fold, implies_true, ↓keeps_jAppend, *]
theorem keeps_nextSeq (s : State) (h_s : Kept pt qu s) : Kept pt qu (nextSeq s).2 := by
  simp only [nextSeq, ↓kept_mk, ↓kept_back, *]
theorem keeps2_nextSeq (s : State) : ∀ y, nextSeq s = y → Kept pt qu s → Kept pt qu y.2 := by
  rintro y rfl h_s; exact keeps_nextSeq s h_s
theorem keeps3_nextSeq (s : State) (a y) (e : nextSeq s = (a, y)) (h_s : Kept pt qu s) : Kept pt qu y := keeps2_nextSeq s (a, y) e h_s
theorem keeps_State_modPan (s : State) (slot : Nat) (f : Pan → Pan) (h_s : Kept pt qu s) : Kept pt qu (State.modPan s slot f) := by
  simp only [State.modPan, ↓kept_mk, ↓kept_back, *]
theorem keeps_State_putPan (s : State) (slot : Nat) (p : Pan) (h_s : Kept pt qu s) : Kept pt qu (State.putPan s slot p) := by
  simp only [State.putPan, ↓kept_mk, ↓kept_back, *]
theorem keeps_State_delPan (s : State) (slot : Nat) (h_s : Kept pt qu s) : Kept pt qu (State.delPan s slot) := by
  simp only [State.delPan, ↓kept_mk, ↓kept_back, *]
theorem keeps_writeDesc (slot : Nat) (s : State) (h_s : Kept pt qu s) : Kept pt qu (writeDesc slot s) := by
  unfold writeDesc
  repeat' (first
    | (simp +contextual (maxDischargeDepth := 200) only [↓keeps_dramWrite, *]; done)
    | split
    | intros)
theorem keeps_recordPan (slot : Nat) (s : State) (h_s : Kept pt qu s) : Kept pt qu (recordPan slot s) := by
  unfold recordPan
  repeat' (first
    | (simp +contextual (maxDischargeDepth := 200) only [↓kept_ite, ↓keeps_State_modPan, ↓keeps_jAppend, *]; done)
    | split
    | intros)

theorem keeps_freeSlot (slot : Nat) (s : State) (h_s : Kept pt qu s) : Kept pt qu (freeSlot slot s) := by
  simp only [freeSlot, ↓keeps_writeDesc, ↓keeps_State_delPan, *]
theorem keeps_reconJob (s : State) (slot : Nat) (p : Pan) (h_s : Kept pt qu s) : Kept pt qu (reconJob s slot p).2 := by
  simp only [reconJob, ↓keeps_State_nextPort, *]
theorem keeps2_reconJob (s : State) (slot : Nat) (p : Pan) : ∀ y, reconJob s slot p = y → Kept pt qu s → Kept pt qu y.2 := by
  rintro y rfl h_s; exact keeps_reconJob s slot p h_s
theorem keeps3_reconJob (s : State) (slot : Nat) (p : Pan) (a y) (e : reconJob s slot p = (a, y)) (h_s : Kept pt qu s) : Kept pt qu y := keeps2_reconJob s slot p (a, y) e h_s
theorem keeps_resend (slot : Nat) (s : State) (h_s : Kept pt qu s) : Kept pt qu (resend slot s) := by
  unfold resend
  repeat' (first
    | (simp +contextual (maxDischargeDepth := 200) only [↓kept_mk, ↓kept_back, ↓keeps_reconJob, ↓keeps_State_modPan, ↓keeps_State_queueJob, *]; done)
    | split
    | intros)
theorem keeps_releaseMirror (p : Pan) (s : State) (h_s : Kept pt qu s) : Kept pt qu (releaseMirror p s) := by
  simp only [releaseMirror, ↓keeps_State_nextPort, ↓keeps_State_queueJob, *]
theorem keeps_handoffJob (s : State) (slot : Nat) (p : Pan) (src : Option Nat) (data : List Byte) (tries : Nat) (h_s : Kept pt qu s) : Kept pt qu (handoffJob s slot p src data tries).2 := by
  simp only [handoffJob, ↓keeps_State_nextPort, *]
theorem keeps2_handoffJob (s : State) (slot : Nat) (p : Pan) (src : Option Nat) (data : List Byte) (tries : Nat) : ∀ y, handoffJob s slot p src data tries = y → Kept pt qu s → Kept pt qu y.2 := by
  rintro y rfl h_s; exact keeps_handoffJob s slot p src data tries h_s
theorem keeps3_handoffJob (s : State) (slot : Nat) (p : Pan) (src : Option Nat) (data : List Byte) (tries : Nat) (a y) (e : handoffJob s slot p src data tries = (a, y)) (h_s : Kept pt qu s) : Kept pt qu y := keeps2_handoffJob s slot p src data tries (a, y) e h_s
theorem keeps_readBack (p : Pan) (s : State) (h_s : Kept pt qu s) : Kept pt qu (readBack p s).2 := by
  simp +contextual (maxDischargeDepth := 200) only [readBack, ↓kept_ite2, ↓keeps_handoffJob, ↓keeps_State_queueJob, ↓keeps_State_inc, ↓keeps_State_putPan, *]
theorem keeps2_readBack (p : Pan) (s : State) : ∀ y, readBack p s = y → Kept pt qu s → Kept pt qu y.2 := by
  rintro y rfl h_s; exact keeps_readBack p s h_s
theorem keeps3_readBack (p : Pan) (s : State) (a y) (e : readBack p s = (a, y)) (h_s : Kept pt qu s) : Kept pt qu y := keeps2_readBack p s (a, y) e h_s
theorem keeps_State_modTwin (s : State) (f : Twin → Twin) (h_s : Kept pt qu s) : Kept pt qu (State.modTwin s f) := by
  simp only [State.modTwin, ↓kept_mk, ↓kept_back, *]
theorem keeps_readDesc (slot : Nat) (s : State) (h_s : Kept pt qu s) : Kept pt qu (readDesc slot s) := by
  simp only [readDesc, ↓keeps_State_issue, ↓keeps_State_nextPort, *]
theorem keeps_fetchBack (d : MirDesc) (s : State) (h_s : Kept pt qu s) : Kept pt qu (fetchBack d s) := by
  simp +contextual (maxDischargeDepth := 200) only [fetchBack, ↓kept_ite, ↓keeps_readBack, ↓keeps_State_modTwin, *]
theorem keeps_letGo (d : MirDesc) (s : State) (h_s : Kept pt qu s) : Kept pt qu (letGo d s) := by
  simp only [letGo, ↓kept_ite, ↓keeps_releaseMirror, *]
theorem keeps_probed (slot : Nat) (seq : Nat) (s : State) (h_s : Kept pt qu s) : Kept pt qu (probed slot seq s) := by
  unfold probed
  repeat' (first
    | (simp +contextual (maxDischargeDepth := 200) only [↓kept_ite, ↓keeps_letGo, ↓keeps_fetchBack, ↓keeps_State_modTwin, *]; done)
    | split
    | intros)
theorem keeps_probeEntry (lta : Nat) (e : Nat) (s : State) (h_s : Kept pt qu s) : Kept pt qu (probeEntry lta e s) := by
  simp +contextual (maxDischargeDepth := 200) only [probeEntry, ↓kept_ite, ↓kept_fold, implies_true, ↓keeps_startRd, ↓keeps_probed, *]

theorem keeps_State_setLine (s : State) (line : Nat) (l : MLine) (h_s : Kept pt qu s) : Kept pt qu (State.setLine s line l) := by
  simp only [State.setLine, ↓kept_mk, ↓kept_back, *]
theorem keeps_State_delLine (s : State) (line : Nat) (h_s : Kept pt qu s) : Kept pt qu (State.delLine s line) := by
  simp only [State.delLine, ↓kept_mk, ↓kept_back, *]
theorem keeps_writeBack (line : Nat) (cls : Nat) (s : State) (h_s : Kept pt qu s) : Kept pt qu (writeBack line cls s) := by
  unfold writeBack
  repeat' (first
    | (simp +contextual (maxDischargeDepth := 200) only [↓keeps_State_setLine, ↓keeps_dramWrite, *]; done)
    | split
    | intros)
theorem keeps_readLine (line : Nat) (cls : Nat) (s : State) (h_s : Kept pt qu s) : Kept pt qu (readLine line cls s) := by
  unfold readLine
  repeat' (first
    | (simp +contextual (maxDischargeDepth := 200) only [↓kept_mk, ↓kept_back, ↓keeps_dramRead, *]; done)
    | split
    | intros)
theorem keeps_fetchLine (line : Nat) (cls : Nat) (prefetch : Bool) (s : State) (h_s : Kept pt qu s) : Kept pt qu (fetchLine line cls prefetch s) := by
  unfold fetchLine
  repeat' (first
    | (simp +contextual (maxDischargeDepth := 200) only [↓kept_mk, ↓kept_back, ↓kept_ite, ↓keeps_State_setLine, ↓keeps_readLine, ↓keeps_State_delLine, ↓keeps_writeBack, *]; done)
    | split
    | simp +contextual (maxDischargeDepth := 200) only [*]
    | intros)
theorem keeps_moveValid (old : Nat) (new : Nat) (s : State) (h_s : Kept pt qu s) : Kept pt qu (moveValid old new s) := by
  simp +contextual (maxDischargeDepth := 200) only [moveValid, ↓kept_ite, ↓keeps_putUnit, *]
theorem keeps_updDone (u : MUpd) (old : Nat) (s : State) (h_s : Kept pt qu s) : Kept pt qu (updDone u old s) := by
  unfold updDone
  repeat' (first
    | (simp +contextual (maxDischargeDepth := 200) only [↓kept_mk, ↓kept_back, ↓keeps_State_modRq, ↓keeps_State_modPan, ↓keeps_writeDesc, ↓keeps_nextSeq, ↓keeps_jAppend, ↓keeps_recordPan, *]; done)
    | split
    | intros)
theorem keeps_applyTo (u : MUpd) (ents : List Nat) (s : State) (h_s : Kept pt qu s) : Kept pt qu (applyTo u ents s).2 := by
  simp +contextual (maxDischargeDepth := 200) only [applyTo, ↓kept_ite2, ↓keeps_moveValid, ↓keeps_updDone, *]
theorem keeps2_applyTo (u : MUpd) (ents : List Nat) (s : State) : ∀ y, applyTo u ents s = y → Kept pt qu s → Kept pt qu y.2 := by
  rintro y rfl h_s; exact keeps_applyTo u ents s h_s
theorem keeps3_applyTo (u : MUpd) (ents : List Nat) (s : State) (a y) (e : applyTo u ents s = (a, y)) (h_s : Kept pt qu s) : Kept pt qu y := keeps2_applyTo u ents s (a, y) e h_s
theorem keeps_storeLine (line : Nat) (ents : List Nat) (s : State) (h_s : Kept pt qu s) : Kept pt qu (storeLine line ents s) := by
  unfold storeLine
  repeat' (first
    | (simp +contextual (maxDischargeDepth := 200) only [↓keeps_State_setLine, ↓keeps_dramWrite, ↓keeps_State_delLine, *]; done)
    | split
    | intros)
theorem keeps_dirtyTile (lta : Nat) (s : State) (h_s : Kept pt qu s) : Kept pt qu (dirtyTile lta s) := by
  simp only [dirtyTile, ↓keeps_State_modDir, *]
theorem keeps_mapUpdate (u : MUpd) (cls : Nat) (s : State) (h_s : Kept pt qu s) : Kept pt qu (mapUpdate u cls s) := by
  unfold mapUpdate
  repeat' (first
    | with_reducible assumption
    | with_reducible refine kept_fold (fun _ _ _ => ?_) ?_
    | with_reducible apply kept_ite
    | with_reducible apply keptOut_ite
    | with_reducible refine (keptOut_next _).mpr ?_
    | with_reducible apply kept_ite2
    | with_reducible apply kept_ite22
    | with_reducible apply kept_id
    | with_reducible refine kept_fold2 (fun _ _ _ => ?_) ?_
    | with_reducible apply keeps_moveValid
    | with_reducible apply keeps_State_fresh
    | with_reducible refine keeps3_State_fresh _ _ _ (by assumption) ?_
    | with_reducible apply keeps_storeLine
    | with_reducible apply keeps_updDone
    | with_reducible apply keeps_applyTo
    | with_reducible refine keeps3_applyTo _ _ _ _ _ (by assumption) ?_
    | with_reducible apply keeps_dramWrite
    | with_reducible apply keeps_fetchLine
    | with_reducible apply keeps_dirtyTile
    | dsimp only
    | split
    | fail_if_no_progress (with_reducible apply kept_same)
    | intro _)
theorem keeps_countHot (lta : Nat) (k : Nat) (s : State) (h_s : Kept pt qu s) : Kept pt qu (countHot lta k s) := by
  simp only [countHot, ↓kept_mk, ↓kept_back, ↓kept_ite, *]
theorem keeps_resolve (rtag : Nat) (i : Nat) (e : Nat) (s : State) (h_s : Kept pt qu s) : Kept pt qu (resolve rtag i e s) := by
  unfold resolve
  repeat' (first
    | (simp +contextual (maxDischargeDepth := 200) only [↓kept_ite, ↓keeps_startRd, ↓keeps_tileOutcome, ↓keeps_countHot, ↓keeps_State_logPacked, ↓keeps_State_modTile, *]; done)
    | split
    | simp +contextual (maxDischargeDepth := 200) only [*]
    | intros)
theorem keeps_markRepair (l : List Nat) (s : State) (h_s : Kept pt qu s) : Kept pt qu (markRepair l s) := by
  simp only [markRepair, ↓kept_mk, ↓kept_back, *]
theorem keeps_readTiles (l : List Nat) (s : State) (h_s : Kept pt qu s) : Kept pt qu (readTiles l s) := by
  unfold readTiles
  repeat' (first
    | with_reducible assumption
    | with_reducible refine kept_fold (fun _ _ _ => ?_) ?_
    | with_reducible apply kept_ite
    | with_reducible apply keptOut_ite
    | with_reducible refine (keptOut_next _).mpr ?_
    | with_reducible apply kept_ite2
    | with_reducible apply kept_ite22
    | with_reducible apply kept_id
    | with_reducible refine kept_fold2 (fun _ _ _ => ?_) ?_
    | with_reducible apply keeps_State_modDir
    | with_reducible apply keeps_dramRead
    | split
    | fail_if_no_progress (with_reducible apply kept_same)
    | intro _)
theorem keeps_evictTile (s : State) (h_s : Kept pt qu s) : Kept pt qu (evictTile s) := by
  unfold evictTile
  repeat' (first
    | (simp +contextual (maxDischargeDepth := 200) only [↓keeps_readTiles, *]; done)
    | split
    | simp +contextual (maxDischargeDepth := 200) only [*]
    | intros)
theorem keeps_loadTile (mt : Nat) (cls : Nat) (s : State) (h_s : Kept pt qu s) : Kept pt qu (loadTile mt cls s) := by
  unfold loadTile
  repeat' (first
    | (simp +contextual (maxDischargeDepth := 200) only [↓kept_mk, ↓kept_back, ↓kept_ite, ↓keeps_State_modDir, ↓keeps_startRd, ↓keeps_evictTile, *]; done)
    | split
    | intros)
theorem keeps_retryLoads (s : State) (h_s : Kept pt qu s) : Kept pt qu (retryLoads s) := by
  simp +contextual (maxDischargeDepth := 200) only [retryLoads, ↓kept_mk, ↓kept_back, ↓kept_fold, implies_true, ↓keeps_loadTile, *]
theorem keeps_walkRead (lta : Nat) (cls : Nat) (dir : Bool) (s : State) (h_s : Kept pt qu s) : Kept pt qu (walkRead lta cls dir s) := by
  simp only [walkRead, ↓kept_ite, ↓keeps_dramRead, *]
theorem keeps_lookupTile (rtag : Nat) (i : Nat) (lta : Nat) (cls : Nat) (s : State) (h_s : Kept pt qu s) : Kept pt qu (lookupTile rtag i lta cls s) := by
  unfold lookupTile
  repeat' (first
    | (simp +contextual (maxDischargeDepth := 200) only [↓kept_ite, ↓keeps_walkRead, ↓keeps_resolve, ↓keeps_State_inc, ↓keeps_State_modTile, ↓keeps_fetchLine, *]; done)
    | split
    | simp +contextual (maxDischargeDepth := 200) only [*]
    | intros)
theorem keeps_probeLookup (s : State) (lta : Nat) (h_s : Kept pt qu s) : Kept pt qu (probeLookup s lta) := by
  unfold probeLookup
  repeat' (first
    | (simp +contextual (maxDischargeDepth := 200) only [↓kept_ite, ↓keeps_probeEntry, ↓keeps_walkRead, ↓keeps_State_inc, ↓keeps_fetchLine, *]; done)
    | split
    | intros)
theorem keeps_probeDrop (p : Nat → Bool) (s : State) (h_s : Kept pt qu s) : Kept pt qu (probeDrop p s) := by
  simp only [probeDrop, ↓keeps_State_modTwin, *]
theorem keeps_walked (lta : Nat) (cls : Nat) (dir : Bool) (code : RCode) (s : State) (h_s : Kept pt qu s) : Kept pt qu (walked lta cls dir code s) := by
  unfold walked
  repeat' (first
    | (simp +contextual (maxDischargeDepth := 200) only [↓kept_ite, ↓kept_fold, implies_true, ↓keeps_probeEntry, ↓keeps_markRepair, ↓keeps_walkRead, ↓keeps_tileOutcome, ↓keeps_probeDrop, ↓keeps_resolve, ↓keeps_loadTile, ↓keeps_State_logPacked, ↓keeps_State_modTile, ↓keeps_fetchLine, *]; done)
    | split
    | intros)
theorem keeps_readPan (s : State) (q : Request) (i : Nat) (slot : Nat) (p : Pan) (h_s : Kept pt qu s) : Kept pt qu (readPan s q i slot p) := by
  simp +contextual (maxDischargeDepth := 200) only [readPan, ↓kept_ite, ↓keeps_State_nextPort, ↓keeps_tileOutcome, ↓keeps_State_queueJob, ↓keeps_State_modTile, *]
theorem keeps_stride (i : Nat) (lta : Nat) (s : State) (h_s : Kept pt qu s) : Kept pt qu (stride i lta s) := by
  simp +contextual (maxDischargeDepth := 200) only [stride, ↓kept_mk, ↓kept_back, ↓kept_ite, ↓kept_fold, implies_true, ↓keeps_fetchLine, *]
theorem keeps_marginReads (q : Request) (s : State) (h_s : Kept pt qu s) : Kept pt qu (marginReads q s) := by
  simp +contextual (maxDischargeDepth := 200) only [marginReads, ↓kept_fold, implies_true, ↓keeps_enqueue, *]
theorem keeps_execMapLookup (rtag : Nat) (i : Nat) (s : State) (h_s : Kept pt qu s) : KeptOut pt qu (execMapLookup rtag i s) := by
  unfold execMapLookup
  repeat' (first
    | (simp +contextual (maxDischargeDepth := 200) only [↓kept_ite, ↓keptOut_next, ↓keeps_lookupTile, ↓keeps_onlyIf, ↓keeps_readPan, ↓keeps_stride, *]; done)
    | split
    | intros)
theorem keeps_fillDone (line : Nat) (code : RCode) (data : List Byte) (s : State) (h_s : Kept pt qu s) : Kept pt qu (fillDone line code data s) := by
  unfold fillDone
  repeat' (first
    | with_reducible assumption
    | with_reducible refine kept_fold (fun _ _ _ => ?_) ?_
    | with_reducible apply kept_ite
    | with_reducible apply keptOut_ite
    | with_reducible refine (keptOut_next _).mpr ?_
    | with_reducible apply kept_ite2
    | with_reducible apply kept_ite22
    | with_reducible apply kept_id
    | with_reducible refine kept_fold2 (fun _ _ _ => ?_) ?_
    | with_reducible apply keeps_probeEntry
    | with_reducible apply keeps_markRepair
    | with_reducible apply keeps_storeLine
    | with_reducible apply keeps_State_setLine
    | with_reducible apply keeps_tileOutcome
    | with_reducible apply keeps_probeDrop
    | with_reducible apply keeps_applyTo
    | with_reducible refine keeps3_applyTo _ _ _ _ _ (by assumption) ?_
    | with_reducible apply keeps_resolve
    | with_reducible apply keeps_State_delLine
    | with_reducible apply keeps_State_logPacked
    | with_reducible apply keeps_State_modTile
    | with_reducible apply keeps_dirtyTile
    | dsimp only
    | split
    | fail_if_no_progress (with_reducible apply kept_same)
    | intro _)
theorem keeps_execMapFillDone (line : Nat) (code : RCode) (data : List Byte) (s : State) (h_s : Kept pt qu s) : KeptOut pt qu (execMapFillDone line code data s) := by
  unfold execMapFillDone
  repeat' (first
    | with_reducible assumption
    | with_reducible refine kept_fold (fun _ _ _ => ?_) ?_
    | with_reducible apply kept_ite
    | with_reducible apply keptOut_ite
    | with_reducible refine (keptOut_next _).mpr ?_
    | with_reducible apply kept_ite2
    | with_reducible apply kept_ite22
    | with_reducible apply kept_id
    | with_reducible refine kept_fold2 (fun _ _ _ => ?_) ?_
    | with_reducible apply keeps_dramSeen
    | with_reducible apply keeps_onlyIf
    | with_reducible refine keeps3_takeOutst _ _ _ _ (by assumption) ?_
    | with_reducible apply keeps_codeTaken
    | with_reducible refine keeps3_codeTaken _ _ _ _ _ (by assumption) ?_
    | with_reducible apply keeps_fillDone
    | with_reducible apply keeps_releaseHeld
    | dsimp only
    | split
    | fail_if_no_progress (with_reducible apply kept_same)
    | intro _)
theorem keeps_tileLoaded (mt : Nat) (code : RCode) (s : State) (h_s : Kept pt qu s) : Kept pt qu (tileLoaded mt code s) := by
  unfold tileLoaded
  repeat' (first
    | (simp +contextual (maxDischargeDepth := 200) only [↓kept_mk, ↓kept_back, ↓kept_ite, ↓kept_fold, implies_true, ↓keeps_State_modDir, ↓keeps_tileOutcome, ↓keeps_probeDrop, ↓keeps_State_logPacked, ↓keeps_State_modTile, ↓keeps_fetchLine, *]; done)
    | split
    | intros)
theorem keeps_tileRead (mt : Nat) (cls : Nat) (data : List Byte) (s : State) (h_s : Kept pt qu s) : Kept pt qu (tileRead mt cls data s) := by
  unfold tileRead
  repeat' (first
    | (simp +contextual (maxDischargeDepth := 200) only [↓keeps_dramWrite, *]; done)
    | split
    | intros)
theorem keeps_execMapTileLoadDone (mt : Nat) (code : RCode) (s : State) (h_s : Kept pt qu s) : KeptOut pt qu (execMapTileLoadDone mt code s) := by
  unfold execMapTileLoadDone
  repeat' (first
    | ((try have hx_takeOutst := keeps_takeOutst _ _ _ ‹takeOutst _ _ = some _› (by first | assumption | (simp +contextual (maxDischargeDepth := 200) only [↓kept_mk, ↓kept_back, ↓kept_ite2, ↓kept_ite, ↓keptOut_ite, ↓kept_fold, ↓kept_fold2, ↓keptOut_next, ↓keptOut_fault, ↓keptParts_set, implies_true, forall_const, reduceCtorEq, false_implies, Option.some.injEq, forall_eq, forall_eq', ↓keeps_dramSeen, ↓keeps_onlyIf, ↓keeps_tileLoaded, ↓keeps_codeTaken, ↓keeps_releaseHeld, *]; done))); simp +contextual (maxDischargeDepth := 200) only [↓kept_ite, ↓keptOut_next, ↓keeps_dramSeen, ↓keeps_onlyIf, ↓keeps_tileLoaded, ↓keeps_codeTaken, ↓keeps_releaseHeld, *]; done)
    | split
    | (intro y hy; first | (cases hy; done) | (obtain rfl := Option.some.inj hy))
    | simp +contextual (maxDischargeDepth := 200) only [↓kept_mk, ↓kept_back, ↓kept_ite2, ↓kept_ite, ↓keptOut_ite, ↓kept_fold, ↓kept_fold2, ↓keptOut_next, ↓keptOut_fault, ↓keptParts_set, implies_true, forall_const, reduceCtorEq, false_implies, Option.some.injEq, forall_eq, forall_eq', ↓keeps_dramSeen, ↓keeps_onlyIf, ↓keeps_tileLoaded, ↓keeps_codeTaken, ↓keeps_releaseHeld, *]
    | intros)
theorem keeps_flushEnd (s : State) (h_s : Kept pt qu s) : Kept pt qu (flushEnd s) := by
  simp +contextual (maxDischargeDepth := 200) only [flushEnd, ↓kept_mk, ↓kept_back, ↓kept_ite, ↓keeps_State_putFlag, *]
theorem keeps_writeBackDone (line : Nat) (code : RCode) (s : State) (h_s : Kept pt qu s) : Kept pt qu (writeBackDone line code s) := by
  unfold writeBackDone
  repeat' (first
    | (simp +contextual (maxDischargeDepth := 200) only [↓kept_mk, ↓kept_back, ↓keeps_State_setLine, ↓keeps_readLine, ↓keeps_flushEnd, ↓keeps_State_inc, ↓keeps_State_delLine, ↓keeps_writeBack, *]; done)
    | split
    | simp +contextual (maxDischargeDepth := 200) only [*]
    | intros)
theorem keeps_execWritebackRetry (line : Nat) (s : State) (h_s : Kept pt qu s) : KeptOut pt qu (execWritebackRetry line s) := by
  unfold execWritebackRetry
  repeat' (first
    | (simp +contextual (maxDischargeDepth := 200) only [↓keptOut_next, ↓keeps_onlyIf, ↓keeps_writeBack, *]; done)
    | split
    | intros)
theorem keeps_ccCtlWrite (w : Word) (s : State) (h_s : Kept pt qu s) : Kept pt qu (ccCtlWrite w s) := by
  simp +contextual (maxDischargeDepth := 200) only [ccCtlWrite, ↓kept_mk, ↓kept_back, ↓kept_ite, ↓kept_fold, implies_true, ↓keeps_State_putFlag, ↓keeps_flushEnd, ↓keeps_writeBack, *]
theorem keeps_execMapCcDisable (r : Req) (w : Word) (s : State) (h_s : Kept pt qu s) : KeptOut pt qu (execMapCcDisable r w s) := by
  simp +contextual (maxDischargeDepth := 200) only [execMapCcDisable, implies_true, ↓keeps_regWrite, ↓keeps_onlyIf, ↓keeps_ccCtlWrite, *]
theorem keeps_execMapCcEnable (r : Req) (w : Word) (s : State) (h_s : Kept pt qu s) : KeptOut pt qu (execMapCcEnable r w s) := by
  simp +contextual (maxDischargeDepth := 200) only [execMapCcEnable, implies_true, ↓keeps_regWrite, ↓keeps_onlyIf, ↓keeps_ccCtlWrite, *]
theorem keeps_execOverlayMerge (mt : Nat) (s : State) (h_s : Kept pt qu s) : KeptOut pt qu (execOverlayMerge mt s) := by
  unfold execOverlayMerge
  repeat' (first
    | with_reducible assumption
    | with_reducible refine kept_fold (fun _ _ _ => ?_) ?_
    | with_reducible apply kept_ite
    | with_reducible apply keptOut_ite
    | with_reducible refine (keptOut_next _).mpr ?_
    | with_reducible apply kept_ite2
    | with_reducible apply kept_ite22
    | with_reducible apply kept_id
    | with_reducible refine kept_fold2 (fun _ _ _ => ?_) ?_
    | with_reducible apply keeps_State_modDir
    | with_reducible apply keeps_retryLoads
    | with_reducible apply keeps_State_setLine
    | with_reducible apply keeps_onlyIf
    | with_reducible apply keeps_dramWrite
    | with_reducible apply keeps_loadTile
    | with_reducible apply keeps_mapUpdate
    | split
    | fail_if_no_progress (with_reducible apply kept_same)
    | intro _)
theorem keeps_repairRead (mt : Nat) (s : State) (h_s : Kept pt qu s) : Kept pt qu (repairRead mt s) := by
  simp +contextual (maxDischargeDepth := 200) only [repairRead, ↓kept_mk, ↓kept_back, ↓kept_ite, ↓keeps_startRd, *]
theorem keeps_repairLine (line : Nat) (ents : List Nat) (ok : Bool) (s : State) (h_s : Kept pt qu s) : Kept pt qu (repairLine line ents ok s) := by
  unfold repairLine
  repeat' (first
    | with_reducible assumption
    | with_reducible refine kept_fold (fun _ _ _ => ?_) ?_
    | with_reducible apply kept_ite
    | with_reducible apply keptOut_ite
    | with_reducible refine (keptOut_next _).mpr ?_
    | with_reducible apply kept_ite2
    | with_reducible apply kept_ite22
    | with_reducible apply kept_id
    | with_reducible refine kept_fold2 (fun _ _ _ => ?_) ?_
    | with_reducible apply keeps_State_setLine
    | with_reducible apply keeps_probeLookup
    | with_reducible apply keeps_jAppend
    | with_reducible apply keeps_State_inc
    | with_reducible apply keeps_dramWrite
    | with_reducible apply keeps_mapUpdate
    | with_reducible apply keeps_dirtyTile
    | split
    | fail_if_no_progress (with_reducible apply kept_same)
    | intro _)
theorem keeps_execMapRepair (line : Nat) (ok : Bool) (s : State) (h_s : Kept pt qu s) : KeptOut pt qu (execMapRepair line ok s) := by
  unfold execMapRepair
  repeat' (first
    | (simp +contextual (maxDischargeDepth := 200) only [↓keeps_repairLine, ↓keeps_onlyIf, ↓keeps_repairRead, *]; done)
    | split
    | intros)
theorem keeps_repairTile (mt : Nat) (data : List Byte) (s : State) (h_s : Kept pt qu s) : Kept pt qu (repairTile mt data s) := by
  simp only [repairTile, ↓kept_mk, ↓kept_back, *]

end Sys2Proof.Machine
end

