-- ==== Sys2Proof/Laws/KeepsWrites.lean ====
section
/-! SUPPORT. The definitions of the write path, journals and checkpoints keep the part, the queue and the invariant. -/

open Sys2Proof

set_option linter.unusedTactic false
set_option linter.unreachableTactic false
set_option linter.unusedVariables false

namespace Sys2Proof.Machine

variable {pt : Part} {qu : List Instr}

theorem keeps_openGroup (set : Nat) (estate : Nat) (slc : Bool) (s : State) : ∀ y, openGroup set estate slc s = some y → Kept pt qu s → Kept pt qu y.2 := by
  intro y hy h_s
  revert y
  unfold openGroup
  repeat' (first
    | (simp +contextual (maxDischargeDepth := 200) only [↓kept_fold, implies_true, reduceCtorEq, false_implies, Option.some.injEq, forall_eq', ↓keeps_putUnit, ↓keeps_putGrp, *]; done)
    | split
    | intros)
theorem keeps3_openGroup (set : Nat) (estate : Nat) (slc : Bool) (s : State) (a y) (e : openGroup set estate slc s = some (a, y)) (h_s : Kept pt qu s) : Kept pt qu y := keeps_openGroup set estate slc s (a, y) e h_s
theorem keeps_closeGroup (set : Nat) (g : Nat) (s : State) (h_s : Kept pt qu s) : Kept pt qu (closeGroup set g s) := by
  unfold closeGroup
  repeat' (first
    | (simp +contextual (maxDischargeDepth := 200) only [↓kept_fold, implies_true, ↓keeps_putUnit, ↓keeps_putGrp, ↓keeps_jAppend, *]; done)
    | split
    | intros)
theorem keeps_budget (s : State) (h_s : Kept pt qu s) : Kept pt qu (budget s) := by
  simp +contextual (maxDischargeDepth := 200) only [budget, ↓kept_ite, ↓keeps_State_put, *]
theorem keeps_addReserve (set : Nat) (s : State) : ∀ y, addReserve set s = some y → Kept pt qu s → Kept pt qu y := by
  intro y hy h_s
  revert y
  unfold addReserve
  repeat' (first
    | ((try have hx_openGroup := keeps_openGroup _ _ _ _ _ ‹openGroup _ _ _ _ = some _› (by first | assumption | (simp +contextual (maxDischargeDepth := 200) only [↓kept_mk, ↓kept_back, ↓kept_ite2, ↓kept_ite, ↓keptOut_ite, ↓kept_fold, ↓kept_fold2, ↓keptOut_next, ↓keptOut_fault, ↓keptParts_set, implies_true, forall_const, reduceCtorEq, false_implies, Option.some.injEq, forall_eq, forall_eq', ↓keeps_jAppendAll, ↓keeps_jAppend, ↓keeps_budget, *]; done))); simp +contextual (maxDischargeDepth := 200) only [↓kept_mk, ↓kept_back, implies_true, reduceCtorEq, false_implies, Option.some.injEq, forall_eq', ↓keeps_jAppendAll, ↓keeps_jAppend, ↓keeps_budget, *]; done)
    | split
    | (intro y hy; first | (cases hy; done) | (obtain rfl := Option.some.inj hy))
    | simp +contextual (maxDischargeDepth := 200) only [↓kept_mk, ↓kept_back, ↓kept_ite2, ↓kept_ite, ↓keptOut_ite, ↓kept_fold, ↓kept_fold2, ↓keptOut_next, ↓keptOut_fault, ↓keptParts_set, implies_true, forall_const, reduceCtorEq, false_implies, Option.some.injEq, forall_eq, forall_eq', ↓keeps_jAppendAll, ↓keeps_jAppend, ↓keeps_budget, *]
    | intros)
theorem keeps_fillReserve (x0 : Nat) (x1 : State) (h_x1 : Kept pt qu x1) : Kept pt qu (fillReserve x0 x1) := by
  induction x0 generalizing x1 with
  | zero => exact h_x1
  | succ k ih =>
    simp only [fillReserve]
    split
    · rename_i t ht
      obtain ⟨a, -, ha⟩ := List.exists_of_findSome?_eq_some ht
      exact ih t (keeps_addReserve _ _ _ ha h_x1)
    · exact h_x1

theorem keeps_notePressure (s : State) (h_s : Kept pt qu s) : Kept pt qu (notePressure s) := by
  simp only [notePressure, ↓kept_mk, ↓kept_back, *]
theorem keeps_abandonRelocs (lta : Nat) (s : State) (h_s : Kept pt qu s) : Kept pt qu (abandonRelocs lta s) := by
  simp +contextual (maxDischargeDepth := 200) only [abandonRelocs, ↓kept_mk, ↓kept_back, ↓kept_ite, ↓kept_fold, implies_true, ↓keeps_mapUpdate, *]
theorem keeps_admitTile (rtag : Nat) (sluice : Nat) (nsKey : Nat) (urgent : Bool) (t : Tile) (s : State) : ∀ y, admitTile rtag sluice nsKey urgent t s = some y → Kept pt qu s → Kept pt qu y.2 := by
  intro y hy h_s
  revert y
  unfold admitTile
  repeat' (first
    | (simp +contextual (maxDischargeDepth := 200) only [↓kept_mk, ↓kept_back, implies_true, reduceCtorEq, false_implies, Option.some.injEq, forall_eq', ↓keeps_nextSeq, ↓keeps_abandonRelocs, ↓keeps_State_putPan, *]; done)
    | split
    | simp +contextual (maxDischargeDepth := 200) only [*]
    | intros)
theorem keeps3_admitTile (rtag : Nat) (sluice : Nat) (nsKey : Nat) (urgent : Bool) (t : Tile) (s : State) (a y) (e : admitTile rtag sluice nsKey urgent t s = some (a, y)) (h_s : Kept pt qu s) : Kept pt qu y := keeps_admitTile rtag sluice nsKey urgent t s (a, y) e h_s
theorem keeps_admitTiles (q : Request) (x0 : List Tile) (x1 : State) : ∀ y, admitTiles q x0 x1 = some y → Kept pt qu x1 → Kept pt qu y.2 := by
  intro y hy h_x1
  revert y
  induction x0 generalizing x1 with
  | nil => intro y hy; obtain rfl := Option.some.inj hy; exact h_x1
  | cons a l ih =>
    intro y hy
    simp only [admitTiles] at hy
    split at hy
    · cases hy
    · rename_i t s ht
      split at hy
      · cases hy
      · rename_i m u hu
        obtain rfl := Option.some.inj hy
        exact ih s (keeps_admitTile _ _ _ _ _ _ _ ht h_x1) (m, u) hu
theorem keeps3_admitTiles (q : Request) (x0 : List Tile) (x1 : State) (a y) (e : admitTiles q x0 x1 = some (a, y)) (h_x1 : Kept pt qu x1) : Kept pt qu y := keeps_admitTiles q x0 x1 (a, y) e h_x1
theorem keeps_takeSlots (q : Request) (s : State) : ∀ y, takeSlots q s = some y → Kept pt qu s → Kept pt qu y.2 := by
  intro y hy h_s
  revert y
  unfold takeSlots
  repeat' (first
    | ((try have hx_admitTiles := keeps_admitTiles _ _ _ _ ‹admitTiles _ _ _ = some _› (by first | assumption | (simp +contextual (maxDischargeDepth := 200) only [↓kept_mk, ↓kept_back, ↓kept_ite2, ↓kept_ite, ↓keptOut_ite, ↓kept_fold, ↓kept_fold2, ↓keptOut_next, ↓keptOut_fault, ↓keptParts_set, implies_true, forall_const, reduceCtorEq, false_implies, Option.some.injEq, forall_eq, forall_eq', ↓keeps_notePressure, *]; done))); simp +contextual (maxDischargeDepth := 200) only [implies_true, reduceCtorEq, false_implies, Option.some.injEq, forall_eq', ↓keeps_notePressure, *]; done)
    | split
    | (intro y hy; first | (cases hy; done) | (obtain rfl := Option.some.inj hy))
    | simp +contextual (maxDischargeDepth := 200) only [↓kept_mk, ↓kept_back, ↓kept_ite2, ↓kept_ite, ↓keptOut_ite, ↓kept_fold, ↓kept_fold2, ↓keptOut_next, ↓keptOut_fault, ↓keptParts_set, implies_true, forall_const, reduceCtorEq, false_implies, Option.some.injEq, forall_eq, forall_eq', ↓keeps_notePressure, *]
    | intros)
theorem keeps3_takeSlots (q : Request) (s : State) (a y) (e : takeSlots q s = some (a, y)) (h_s : Kept pt qu s) : Kept pt qu y := keeps_takeSlots q s (a, y) e h_s
theorem keeps_startCommit (q : Request) (i : Nat) (t : Tile) (slot : Nat) (tries : Nat) (s : State) (h_s : Kept pt qu s) : Kept pt qu (startCommit q i t slot tries s) := by
  simp +contextual (maxDischargeDepth := 200) only [startCommit, ↓kept_ite, ↓keeps_State_queueJobs, ↓keeps_State_inc, *]
theorem keeps_raiseTiles (lta : Nat) (seq : Nat) (d : Nat) (exact : Bool) (s : State) (h_s : Kept pt qu s) : Kept pt qu (raiseTiles lta seq d exact s) := by
  simp +contextual (maxDischargeDepth := 200) only [raiseTiles, ↓kept_fold, implies_true, ↓keeps_State_modRq, ↓keeps_requestCheck, *]
theorem keeps_reached (lta : Nat) (seq : Nat) (s : State) (h_s : Kept pt qu s) : Kept pt qu (reached lta seq s) := by
  simp +contextual (maxDischargeDepth := 200) only [reached, ↓kept_mk, ↓kept_back, ↓kept_fold, implies_true, ↓keeps_State_modRq, ↓keeps_requestCheck, *]
theorem keeps_mirrorCheck (rtag : Nat) (i : Nat) (slot : Nat) (s : State) (h_s : Kept pt qu s) : Kept pt qu (mirrorCheck rtag i slot s) := by
  unfold mirrorCheck
  repeat' (first
    | (simp +contextual (maxDischargeDepth := 200) only [↓kept_ite, ↓keeps_State_modPan, ↓keeps_requestCheck, ↓keeps_State_modTile, *]; done)
    | split
    | intros)
theorem keeps_ownCommitted (rtag : Nat) (i : Nat) (slot : Nat) (stored : List Byte) (s : State) (h_s : Kept pt qu s) : Kept pt qu (ownCommitted rtag i slot stored s) := by
  unfold ownCommitted
  repeat' (first
    | (simp +contextual (maxDischargeDepth := 200) only [↓kept_ite, ↓keeps_resend, ↓keeps_requestCheck, ↓keeps_mirrorCheck, ↓keeps_State_modTile, ↓keeps_State_putPan, *]; done)
    | split
    | intros)
theorem keeps_mirrorCommitted (rtag : Nat) (i : Nat) (slot : Nat) (s : State) (h_s : Kept pt qu s) : Kept pt qu (mirrorCommitted rtag i slot s) := by
  simp only [mirrorCommitted, ↓keeps_mirrorCheck, ↓keeps_State_modTile, *]
theorem keeps_mediaCheck (slot : Nat) (s : State) (h_s : Kept pt qu s) : Kept pt qu (mediaCheck slot s) := by
  unfold mediaCheck
  repeat' (first
    | (simp +contextual (maxDischargeDepth := 200) only [↓kept_mk, ↓kept_back, ↓kept_ite, ↓kept_fold, implies_true, ↓keeps_freeSlot, ↓keeps_reached, ↓keeps_State_put, ↓keeps_raiseTiles, ↓keeps_notePressure, ↓keeps_releaseMirror, *]; done)
    | split
    | intros)
theorem keeps_discardCopies (lta : Nat) (s : State) (h_s : Kept pt qu s) : Kept pt qu (discardCopies lta s) := by
  simp +contextual (maxDischargeDepth := 200) only [discardCopies, ↓kept_fold, implies_true, ↓keeps_freeSlot, ↓keeps_notePressure, *]
theorem keeps_twinLost (s : State) (h_s : Kept pt qu s) : Kept pt qu (twinLost s) := by
  unfold twinLost
  repeat' (first
    | with_reducible assumption
    | with_reducible refine kept_fold (fun _ _ _ => ?_) ?_
    | with_reducible apply kept_ite
    | with_reducible apply keptOut_ite
    | with_reducible refine (keptOut_next _).mpr ?_
    | with_reducible apply kept_ite2
    | with_reducible apply kept_ite22
    | with_reducible apply kept_id
    | with_reducible refine kept_fold2 (fun _ _ _ => ?_) ?_
    | with_reducible apply keeps_finish
    | with_reducible apply keeps_State_put
    | with_reducible apply keeps_State_inc
    | with_reducible apply keeps_requestCheck
    | with_reducible apply keeps_budget
    | split
    | fail_if_no_progress (with_reducible apply kept_same)
    | intro _)
theorem keeps_poisonSlot (slot : Nat) (s : State) (h_s : Kept pt qu s) : Kept pt qu (poisonSlot slot s) := by
  unfold poisonSlot
  repeat' (first
    | (simp +contextual (maxDischargeDepth := 200) only [↓keeps_State_modPan, ↓keeps_writeDesc, ↓keeps_jAppend, ↓keeps_State_inc, ↓keeps_mapUpdate, *]; done)
    | split
    | intros)
theorem keeps_panDataErr (slot : Nat) (s : State) (h_s : Kept pt qu s) : Kept pt qu (panDataErr slot s) := by
  unfold panDataErr
  repeat' (first
    | (simp +contextual (maxDischargeDepth := 200) only [↓kept_mk, ↓kept_back, ↓kept_ite2, ↓kept_ite, ↓keeps_poisonSlot, ↓keeps_freeSlot, ↓keeps_readBack, *]; done)
    | split
    | intros)

theorem keeps_State_modRow (s : State) (id : Nat) (f : Row → Row) (h_s : Kept pt qu s) : Kept pt qu (State.modRow s id f) := by
  simp only [State.modRow, ↓kept_mk, ↓kept_back, *]
theorem keeps_parTouch (id : Nat) (q : Nat) (first : Bool) (s : State) (h_s : Kept pt qu s) : Kept pt qu (parTouch id q first s) := by
  unfold parTouch
  repeat' (first
    | (simp +contextual (maxDischargeDepth := 200) only [↓kept_ite, ↓keeps_dramRead, ↓keeps_dramWrite, *]; done)
    | split
    | intros)
theorem keeps_parReadDone (id : Nat) (addr : Nat) (len : Nat) (s : State) (h_s : Kept pt qu s) : Kept pt qu (parReadDone id addr len s) := by
  unfold parReadDone
  repeat' (first
    | (simp +contextual (maxDischargeDepth := 200) only [↓keeps_dramWrite, *]; done)
    | split
    | intros)
theorem keeps_memberPassed (e : Nat) (m : Member) (s : State) (h_s : Kept pt qu s) : Kept pt qu (memberPassed e m s) := by
  unfold memberPassed
  repeat' (first
    | (simp +contextual (maxDischargeDepth := 200) only [↓kept_mk, ↓kept_back, ↓kept_ite, ↓keeps_State_modPan, ↓keeps_writeDesc, ↓keeps_State_put, ↓keeps_mapUpdate, *]; done)
    | split
    | simp +contextual (maxDischargeDepth := 200) only [*]
    | intros)
theorem keeps_ckptTileDone (s : State) (h_s : Kept pt qu s) : Kept pt qu (ckptTileDone s) := by
  simp only [ckptTileDone, ↓kept_mk, ↓kept_back, *]
theorem keeps_memberSafe (e : Nat) (m : Member) (s : State) (h_s : Kept pt qu s) : Kept pt qu (memberSafe e m s) := by
  unfold memberSafe
  repeat' (first
    | (simp +contextual (maxDischargeDepth := 200) only [↓kept_mk, ↓kept_back, ↓kept_ite, ↓keeps_State_modDir, ↓keeps_State_modPan, ↓keeps_retryLoads, ↓keeps_putUnit, ↓keeps_ckptTileDone, ↓keeps_jAppend, ↓keeps_recordPan, *]; done)
    | split
    | intros)
theorem keeps_memberBack (e : Nat) (m : Member) (s : State) (h_s : Kept pt qu s) : Kept pt qu (memberBack e m s) := by
  unfold memberBack
  repeat' (first
    | (simp +contextual (maxDischargeDepth := 200) only [↓kept_mk, ↓kept_back, ↓kept_ite, ↓keeps_State_modDir, ↓keeps_State_modPan, ↓keeps_writeDesc, ↓keeps_mapUpdate, *]; done)
    | split
    | intros)
theorem keeps_groupEnd (set : Nat) (g : Nat) (s : State) (h_s : Kept pt qu s) : Kept pt qu (groupEnd set g s) := by
  unfold groupEnd
  repeat' (first
    | (simp +contextual (maxDischargeDepth := 200) only [↓kept_ite, ↓keeps_closeGroup, *]; done)
    | split
    | intros)
theorem keeps_dropRow (id : Nat) (s : State) (h_s : Kept pt qu s) : Kept pt qu (dropRow id s) := by
  simp only [dropRow, ↓kept_mk, ↓kept_back, ↓keeps_groupEnd, *]
theorem keeps_rowCheck (id : Nat) (s : State) (h_s : Kept pt qu s) : Kept pt qu (rowCheck id s) := by
  unfold rowCheck
  repeat' (first
    | (simp +contextual (maxDischargeDepth := 200) only [↓kept_ite, ↓kept_fold, implies_true, ↓keeps_State_modRow, ↓keeps_memberSafe, ↓keeps_dropRow, *]; done)
    | split
    | intros)
theorem keeps_closeUnit (id : Nat) (slot : Nat) (s : State) (h_s : Kept pt qu s) : Kept pt qu (closeUnit id slot s) := by
  unfold closeUnit
  repeat' (first
    | (simp +contextual (maxDischargeDepth := 200) only [↓keeps_State_modRow, ↓keeps_rowCheck, *]; done)
    | split
    | intros)
theorem keeps_closures (set : Nat) (g : Nat) (r : Nat) (slot : Nat) (s : State) (h_s : Kept pt qu s) : Kept pt qu (closures set g r slot s) := by
  unfold closures
  repeat' (first
    | (simp +contextual (maxDischargeDepth := 200) only [↓kept_fold, implies_true, ↓keeps_closeUnit, *]; done)
    | split
    | intros)
theorem keeps_parityDone (id : Nat) (s : State) (h_s : Kept pt qu s) : Kept pt qu (parityDone id s) := by
  unfold parityDone
  repeat' (first
    | (simp +contextual (maxDischargeDepth := 200) only [↓kept_ite, ↓keeps_State_modRow, ↓keeps_putGrp, ↓keeps_rowCheck, *]; done)
    | split
    | intros)
theorem keeps_unitPassed (id : Nat) (pos : Nat) (s : State) (h_s : Kept pt qu s) : Kept pt qu (unitPassed id pos s) := by
  unfold unitPassed
  repeat' (first
    | (simp +contextual (maxDischargeDepth := 200) only [↓kept_fold, implies_true, ↓keeps_State_modRow, ↓keeps_parityDone, ↓keeps_closures, ↓keeps_memberPassed, *]; done)
    | split
    | intros)
theorem keeps_queueUnit (cls : Nat) (id : Nat) (pos : Nat) (s : State) (h_s : Kept pt qu s) : Kept pt qu (queueUnit cls id pos s) := by
  unfold queueUnit
  repeat' (first
    | (simp +contextual (maxDischargeDepth := 200) only [↓kept_ite, ↓keeps_State_modRow, ↓keeps_enqueue, ↓keeps_unitPassed, *]; done)
    | split
    | intros)
theorem keeps_queueReady (cls : Nat) (id : Nat) (pos : Nat) (s : State) (h_s : Kept pt qu s) : Kept pt qu (queueReady cls id pos s) := by
  unfold queueReady
  repeat' (first
    | (simp +contextual (maxDischargeDepth := 200) only [↓kept_ite, ↓keeps_queueUnit, *]; done)
    | split
    | intros)
theorem keeps_setMember (id : Nat) (pos : Nat) (q : Nat) (m : Member) (s : State) (h_s : Kept pt qu s) : Kept pt qu (setMember id pos q m s) := by
  unfold setMember
  repeat' (first
    | (simp +contextual (maxDischargeDepth := 200) only [↓keeps_State_modRow, ↓keeps_parTouch, *]; done)
    | split
    | intros)
theorem keeps_putMember (cls : Nat) (id : Nat) (pos : Nat) (q : Nat) (m : Member) (s : State) (h_s : Kept pt qu s) : Kept pt qu (putMember cls id pos q m s) := by
  unfold putMember
  repeat' (first
    | (simp +contextual (maxDischargeDepth := 200) only [↓kept_ite, ↓keeps_queueReady, ↓keeps_State_modSet, ↓keeps_setMember, *]; done)
    | split
    | intros)
theorem keeps_openRow (set : Nat) (s : State) : ∀ y, openRow set s = some y → Kept pt qu s → Kept pt qu y.2 := by
  intro y hy h_s
  revert y
  have hst : ∀ (g r : Nat) (s : State) (y : Nat × State), Kept pt qu s →
      ((parFit s (parBytes s (stripeNo set g r))).map fun o => (stripeNo set g r,
        ({ s with md := { s.md with rows := Tab.put (stripeNo set g r) { group := g, step := r, seq := s.wp.seq, par := some o } s.md.rows } } : State))) = some y → Kept pt qu y.2 := by
    intro g r s y hs hy
    obtain ⟨o, -, rfl⟩ := Option.map_eq_some_iff.mp hy
    exact hs
  have hfr : ∀ (s : State) (y : Nat × State), Kept pt qu s → (match openGroup set 2 false s with
      | none => none
      | some (n, s) =>
        let s := jAppendAll 0 (((s.grp set n).map (groupRecords set n)).getD []) (s.modSet set fun x => { x with openG := some n, row := 1 })
        ((parFit s (parBytes s (stripeNo set n 0))).map fun o => (stripeNo set n 0,
        ({ s with md := { s.md with rows := Tab.put (stripeNo set n 0) { group := n, step := 0, seq := s.wp.seq, par := some o } s.md.rows } } : State)))) = some y → Kept pt qu y.2 := by
    intro s y hs hy
    split at hy
    · cases hy
    · rename_i n t ht
      exact hst n 0 _ y (keeps_jAppendAll _ _ _ (keeps_State_modSet _ _ _ (keeps_openGroup _ _ _ _ _ ht hs))) hy
  intro y hy
  simp only [openRow] at hy
  split at hy
  · exact hfr s y h_s hy
  · split at hy
    · obtain rfl := Option.some.inj hy; exact h_s
    · split at hy
      · exact hst _ _ _ y (keeps_State_modSet _ _ _ h_s) hy
      · exact hfr s y h_s hy
theorem keeps3_openRow (set : Nat) (s : State) (a y) (e : openRow set s = some (a, y)) (h_s : Kept pt qu s) : Kept pt qu y := keeps_openRow set s (a, y) e h_s
theorem keeps_encodeTile (set : Nat) (own : MemOf) (lta : Nat) (hid : Nat) (seq : Nat) (keyidx : Nat) (data : List Byte) (plain : List Byte) (s : State) (h_s : Kept pt qu s) : Kept pt qu (encodeTile set own lta hid seq keyidx data plain s).2 := by
  unfold encodeTile
  repeat' (first
    | ((try have hx_openRow := keeps_openRow _ _ _ ‹openRow _ _ = some _› (by first | assumption | (simp +contextual (maxDischargeDepth := 200) only [↓kept_mk, ↓kept_back, ↓kept_ite2, ↓kept_ite, ↓keptOut_ite, ↓kept_fold, ↓kept_fold2, ↓keptOut_next, ↓keptOut_fault, ↓keptParts_set, implies_true, forall_const, reduceCtorEq, false_implies, Option.some.injEq, forall_eq, forall_eq', ↓keeps_putMember, *]; done))); simp +contextual (maxDischargeDepth := 200) only [↓keeps_putMember, *]; done)
    | split
    | (intro y hy; first | (cases hy; done) | (obtain rfl := Option.some.inj hy))
    | simp +contextual (maxDischargeDepth := 200) only [↓kept_mk, ↓kept_back, ↓kept_ite2, ↓kept_ite, ↓keptOut_ite, ↓kept_fold, ↓kept_fold2, ↓keptOut_next, ↓keptOut_fault, ↓keptParts_set, implies_true, forall_const, reduceCtorEq, false_implies, Option.some.injEq, forall_eq, forall_eq', ↓keeps_putMember, *]
    | intros)
theorem keeps2_encodeTile (set : Nat) (own : MemOf) (lta : Nat) (hid : Nat) (seq : Nat) (keyidx : Nat) (data : List Byte) (plain : List Byte) (s : State) : ∀ y, encodeTile set own lta hid seq keyidx data plain s = y → Kept pt qu s → Kept pt qu y.2 := by
  rintro y rfl h_s; exact keeps_encodeTile set own lta hid seq keyidx data plain s h_s
theorem keeps3_encodeTile (set : Nat) (own : MemOf) (lta : Nat) (hid : Nat) (seq : Nat) (keyidx : Nat) (data : List Byte) (plain : List Byte) (s : State) (a y) (e : encodeTile set own lta hid seq keyidx data plain s = (a, y)) (h_s : Kept pt qu s) : Kept pt qu y := keeps2_encodeTile set own lta hid seq keyidx data plain s (a, y) e h_s
theorem keeps_abandonRow (id : Nat) (s : State) (h_s : Kept pt qu s) : Kept pt qu (abandonRow id s) := by
  unfold abandonRow
  repeat' (first
    | (simp +contextual (maxDischargeDepth := 200) only [↓kept_fold, implies_true, ↓keeps_dropRow, ↓keeps_memberBack, ↓keeps_modLun, *]; done)
    | split
    | intros)
theorem keeps_retirePend (g : Page) (s : State) (h_s : Kept pt qu s) : Kept pt qu (retirePend g s) := by
  simp only [retirePend, ↓keeps_putUnit, *]
theorem keeps_dataUnitFailed (id : Nat) (pos : Nat) (s : State) (h_s : Kept pt qu s) : Kept pt qu (dataUnitFailed id pos s) := by
  unfold dataUnitFailed
  repeat' (first
    | with_reducible assumption
    | with_reducible refine kept_fold (fun _ _ _ => ?_) ?_
    | with_reducible apply kept_ite
    | with_reducible apply keptOut_ite
    | with_reducible refine (keptOut_next _).mpr ?_
    | with_reducible apply kept_ite2
    | with_reducible apply kept_ite22
    | with_reducible apply kept_id
    | with_reducible refine kept_fold2 (fun _ _ _ => ?_) ?_
    | with_reducible apply keeps_State_modRow
    | with_reducible apply keeps_parityDone
    | with_reducible apply keeps_memberBack
    | split
    | fail_if_no_progress (with_reducible apply kept_same)
    | intro _)
theorem keeps_execDestageStart (slot : Nat) (s : State) (h_s : Kept pt qu s) : KeptOut pt qu (execDestageStart slot s) := by
  unfold execDestageStart
  repeat' (first
    | (simp +contextual (maxDischargeDepth := 200) only [↓keptOut_next, ↓keeps_onlyIf, ↓keeps_State_nextPort, ↓keeps_State_modSet, ↓keeps_State_queueJob, ↓keeps_notePressure, *]; done)
    | split
    | intros)
theorem keeps_leaveQueue (slot : Nat) (s : State) (h_s : Kept pt qu s) : Kept pt qu (leaveQueue slot s).2 := by
  unfold leaveQueue
  repeat' (first
    | (simp +contextual (maxDischargeDepth := 200) only [↓keeps_State_modSet, *]; done)
    | split
    | intros)
theorem keeps2_leaveQueue (slot : Nat) (s : State) : ∀ y, leaveQueue slot s = y → Kept pt qu s → Kept pt qu y.2 := by
  rintro y rfl h_s; exact keeps_leaveQueue slot s h_s
theorem keeps3_leaveQueue (slot : Nat) (s : State) (a y) (e : leaveQueue slot s = (a, y)) (h_s : Kept pt qu s) : Kept pt qu y := keeps2_leaveQueue slot s (a, y) e h_s
theorem keeps_destageRead (slot : Nat) (plain : List Byte) (s : State) (h_s : Kept pt qu s) : Kept pt qu (destageRead slot plain s) := by
  unfold destageRead
  repeat' (first
    | (simp +contextual (maxDischargeDepth := 200) only [↓kept_ite, ↓keeps_encodeTile, ↓keeps_State_modPan, ↓keeps_writeDesc, ↓keeps_leaveQueue, *]; done)
    | split
    | simp +contextual (maxDischargeDepth := 200) only [*]
    | intros)
theorem keeps_execProgramTokenGrant (set : Nat) (s : State) (h_s : Kept pt qu s) : KeptOut pt qu (execProgramTokenGrant set s) := by
  unfold execProgramTokenGrant
  repeat' (first
    | (simp +contextual (maxDischargeDepth := 200) only [↓keptOut_next, ↓keeps_onlyIf, ↓keeps_State_modSet, *]; done)
    | split
    | simp +contextual (maxDischargeDepth := 200) only [*]
    | intros)
theorem keeps_padRow (id : Nat) (x0 : Nat) (x1 : State) (h_x1 : Kept pt qu x1) : Kept pt qu (padRow id x0 x1) := by
  induction x0 generalizing x1 with
  | zero => exact h_x1
  | succ k ih =>
    simp only [padRow]
    split
    · exact h_x1
    · split
      · exact h_x1
      · exact ih _ (keeps_putMember _ _ _ _ _ _ h_x1)
theorem keeps_execPadRow (set : Nat) (s : State) (h_s : Kept pt qu s) : KeptOut pt qu (execPadRow set s) := by
  unfold execPadRow
  repeat' (first
    | ((try have hx_openRow := keeps_openRow _ _ _ ‹openRow _ _ = some _› (by first | assumption | (simp +contextual (maxDischargeDepth := 200) only [↓kept_mk, ↓kept_back, ↓kept_ite2, ↓kept_ite, ↓keptOut_ite, ↓kept_fold, ↓kept_fold2, ↓keptOut_next, ↓keptOut_fault, ↓keptParts_set, implies_true, forall_const, reduceCtorEq, false_implies, Option.some.injEq, forall_eq, forall_eq', ↓keeps_onlyIf, ↓keeps_padRow, *]; done))); simp +contextual (maxDischargeDepth := 200) only [↓keptOut_next, ↓keeps_onlyIf, ↓keeps_padRow, *]; done)
    | split
    | (intro y hy; first | (cases hy; done) | (obtain rfl := Option.some.inj hy))
    | simp +contextual (maxDischargeDepth := 200) only [*]
    | intros)

theorem keeps_openJournal (k : Nat) (s : State) : ∀ y, openJournal k s = some y → Kept pt qu s → Kept pt qu y.2 := by
  intro y hy h_s
  revert y
  unfold openJournal
  repeat' (first
    | ((try have hx_openGroup := keeps_openGroup _ _ _ _ _ ‹openGroup _ _ _ _ = some _› (by first | assumption | (simp +contextual (maxDischargeDepth := 200) only [↓kept_mk, ↓kept_back, ↓kept_ite2, ↓kept_ite, ↓keptOut_ite, ↓kept_fold, ↓kept_fold2, ↓keptOut_next, ↓keptOut_fault, ↓keptParts_set, implies_true, forall_const, reduceCtorEq, false_implies, Option.some.injEq, forall_eq, forall_eq', ↓keeps_State_setStream, *]; done))); simp +contextual (maxDischargeDepth := 200) only [implies_true, reduceCtorEq, false_implies, Option.some.injEq, forall_eq', ↓keeps_State_setStream, *]; done)
    | split
    | (intro y hy; first | (cases hy; done) | (obtain rfl := Option.some.inj hy))
    | simp +contextual (maxDischargeDepth := 200) only [↓kept_mk, ↓kept_back, ↓kept_ite2, ↓kept_ite, ↓keptOut_ite, ↓kept_fold, ↓kept_fold2, ↓keptOut_next, ↓keptOut_fault, ↓keptParts_set, implies_true, forall_const, reduceCtorEq, false_implies, Option.some.injEq, forall_eq, forall_eq', ↓keeps_State_setStream, *]
    | intros)
theorem keeps3_openJournal (k : Nat) (s : State) (a y) (e : openJournal k s = some (a, y)) (h_s : Kept pt qu s) : Kept pt qu y := keeps_openJournal k s (a, y) e h_s
theorem keeps_advancePos (k : Nat) (s : State) (h_s : Kept pt qu s) : Kept pt qu (advancePos k s) := by
  unfold advancePos
  repeat' (first
    | (simp +contextual (maxDischargeDepth := 200) only [↓kept_ite, ↓keeps_State_setStream, ↓keeps_queueUnit, *]; done)
    | split
    | simp +contextual (maxDischargeDepth := 200) only [*]
    | intros)
theorem keeps_journalMembers (k : Nat) (jseq : Nat) (id : Nat) (pos : Nat) (recs : List JRec) (s : State) (h_s : Kept pt qu s) : Kept pt qu (journalMembers k jseq id pos recs s) := by
  simp +contextual (maxDischargeDepth := 200) only [journalMembers, ↓kept_fold, implies_true, ↓keeps_setMember, *]
theorem keeps_journalRow (id : Nat) (s : State) : ∀ y, journalRow id s = some y → Kept pt qu s → Kept pt qu y := by
  intro y hy h_s
  revert y
  intro y hy
  simp only [journalRow] at hy
  split at hy
  · obtain rfl := Option.some.inj hy; exact h_s
  · obtain ⟨o, -, rfl⟩ := Option.map_eq_some_iff.mp hy
    exact h_s
theorem keeps_programPage (k : Nat) (jseq : Nat) (recs : List JRec) (x0 : Nat) (x1 : State) : ∀ y, programPage k jseq recs x0 x1 = some y → Kept pt qu x1 → Kept pt qu y := by
  intro y hy h_x1
  revert y
  induction x0 generalizing x1 with
  | zero => intro y hy; cases hy
  | succ n ih =>
    intro y hy
    simp only [programPage] at hy
    split at hy
    · cases hy
    · split at hy
      · cases hy
      · rename_i s hs
        have h := keeps_journalRow _ _ _ hs h_x1
        split at hy
        · exact ih _ (keeps_advancePos _ _ (keeps_State_modRow _ _ _ h)) y hy
        · split at hy
          · split at hy
            · cases hy
            · obtain rfl := Option.some.inj hy
              exact keeps_enqueue _ _ (keeps_State_setStream _ _ _ (keeps_journalMembers _ _ _ _ _ _ h))
          · cases hy
theorem keeps_withGroup (k : Nat) (s : State) : ∀ y, withGroup k s = some y → Kept pt qu s → Kept pt qu y := by
  intro y hy h_s
  revert y
  intro y hy
  simp only [withGroup] at hy
  split at hy
  · obtain rfl := Option.some.inj hy; exact h_s
  · obtain ⟨a, ha, rfl⟩ := Option.map_eq_some_iff.mp hy
    exact keeps_State_setStream _ _ _ (keeps_openJournal _ _ _ ha h_s)
theorem keeps_lastPage (k : Nat) (s : State) : ∀ y, lastPage k s = some y → Kept pt qu s → Kept pt qu y.2 := by
  intro y hy h_s
  revert y
  intro y hy
  simp only [lastPage] at hy
  split at hy
  · cases hy
  · split at hy
    · obtain ⟨a, ha, rfl⟩ := Option.map_eq_some_iff.mp hy
      exact keeps_State_setStream _ _ _ (keeps_openJournal _ _ _ ha h_s)
    · obtain rfl := Option.some.inj hy; exact h_s
theorem keeps3_lastPage (k : Nat) (s : State) (a y) (e : lastPage k s = some (a, y)) (h_s : Kept pt qu s) : Kept pt qu y := keeps_lastPage k s (a, y) e h_s
theorem keeps_streamProgram (k : Nat) (s : State) : ∀ y, streamProgram k s = some y → Kept pt qu s → Kept pt qu y := by
  intro y hy h_s
  revert y
  intro y hy
  simp only [streamProgram] at hy
  obtain ⟨t, ht, hy⟩ := Option.bind_eq_some_iff.mp hy
  obtain ⟨a, ha, hy⟩ := Option.bind_eq_some_iff.mp hy
  exact keeps_programPage _ _ _ _ _ _ hy (keeps_State_setStream _ _ _ (keeps_lastPage _ _ _ ha (keeps_withGroup _ _ _ ht h_s)))
theorem keeps_execJournalPageProgram (k : Nat) (s : State) (h_s : Kept pt qu s) : KeptOut pt qu (execJournalPageProgram k s) := by
  unfold execJournalPageProgram
  dsimp only
  split
  · split
    · rename_i t ht
      obtain ⟨a, ha, ht⟩ := Option.bind_eq_some_iff.mp ht
      exact keeps_onlyIf _ _ _ h_s (keeps_programPage _ _ _ _ _ _ ht (keeps_withGroup _ _ _ ha h_s))
    · exact h_s
  · split
    · exact h_s
    · rename_i t ht
      exact keeps_onlyIf _ _ _ h_s (keeps_streamProgram _ _ _ ht h_s)
theorem keeps_rewritePage (k : Nat) (s : State) (h_s : Kept pt qu s) : Kept pt qu (rewritePage k s) := by
  unfold rewritePage
  split
  · exact h_s
  · dsimp only
    split
    · rename_i t ht
      obtain ⟨a, ha, ht⟩ := Option.bind_eq_some_iff.mp ht
      exact keeps_programPage _ _ _ _ _ _ ht (keeps_withGroup _ _ _ ha (keeps_advancePos _ _ h_s))
    · exact keeps_State_setStream _ _ _ (keeps_advancePos _ _ h_s)
theorem keeps_queueSeal (k : Nat) (s : State) (h_s : Kept pt qu s) : Kept pt qu (queueSeal k s) := by
  unfold queueSeal
  repeat' (first
    | (simp +contextual (maxDischargeDepth := 200) only [↓keeps_State_modRow, ↓keeps_State_setStream, ↓keeps_enqueue, *]; done)
    | split
    | simp +contextual (maxDischargeDepth := 200) only [*]
    | intros)
theorem keeps_queuePqSeal (id : Nat) (pos : Nat) (s : State) (h_s : Kept pt qu s) : Kept pt qu (queuePqSeal id pos s) := by
  unfold queuePqSeal
  repeat' (first
    | (simp +contextual (maxDischargeDepth := 200) only [↓keeps_enqueue, *]; done)
    | split
    | intros)
theorem keeps_releaseGroup (set : Nat) (g : Nat) (s : State) (h_s : Kept pt qu s) : Kept pt qu (releaseGroup set g s) := by
  unfold releaseGroup
  repeat' (first
    | (simp +contextual (maxDischargeDepth := 200) only [↓kept_mk, ↓kept_back, ↓kept_fold, implies_true, ↓keeps_putUnit, *]; done)
    | split
    | intros)
theorem keeps_recSealed (r : JRec) (s : State) (h_s : Kept pt qu s) : Kept pt qu (recSealed r s) := by
  simp +contextual (maxDischargeDepth := 200) only [recSealed, ↓kept_ite, ↓kept_fold, implies_true, ↓keeps_State_modRq, ↓keeps_State_modPan, ↓keeps_reached, ↓keeps_mediaCheck, ↓keeps_releaseGroup, ↓keeps_requestCheck, ↓keeps_raiseTiles, *]
theorem keeps_sealPassed (k : Nat) (s : State) (h_s : Kept pt qu s) : Kept pt qu (sealPassed k s) := by
  unfold sealPassed
  repeat' (first
    | (simp +contextual (maxDischargeDepth := 200) only [↓kept_mk, ↓kept_back, ↓kept_ite, ↓kept_fold, implies_true, ↓keeps_State_setStream, ↓keeps_advancePos, ↓keeps_recSealed, *]; done)
    | split
    | simp +contextual (maxDischargeDepth := 200) only [*]
    | intros)

theorem keeps_State_modCkpt (s : State) (f : Ckpt → Ckpt) (h_s : Kept pt qu s) : Kept pt qu (State.modCkpt s f) := by
  simp only [State.modCkpt, ↓kept_mk, ↓kept_back, *]
theorem keeps_tileForCkpt (mt : Nat) (dram : List Byte) (s : State) (h_s : Kept pt qu s) : Kept pt qu (tileForCkpt mt dram s) := by
  unfold tileForCkpt
  repeat' (first
    | (simp +contextual (maxDischargeDepth := 200) only [↓kept_ite, ↓keeps_State_modDir, ↓keeps_encodeTile, ↓keeps_nextSeq, *]; done)
    | split
    | simp +contextual (maxDischargeDepth := 200) only [*]
    | intros)
theorem keeps_queueErase (x : Nat) (s : State) (h_s : Kept pt qu s) : Kept pt qu (queueErase x s) := by
  simp only [queueErase, ↓keeps_enqueue, *]
theorem keeps_eraseArea (area : Nat) (s : State) (h_s : Kept pt qu s) : Kept pt qu (eraseArea area s) := by
  simp +contextual (maxDischargeDepth := 200) only [eraseArea, ↓kept_fold, implies_true, ↓keeps_State_modUnit, ↓keeps_queueErase, ↓keeps_State_modCkpt, *]
theorem keeps_areaRow (area : Nat) (set : Nat) (ri : Nat × Nat) (s : State) : ∀ y, areaRow area set ri s = some y → Kept pt qu s → Kept pt qu y.2 := by
  intro y hy h_s
  revert y
  intro y hy
  simp only [areaRow] at hy
  split at hy
  · obtain rfl := Option.some.inj hy; exact h_s
  · obtain ⟨o, -, rfl⟩ := Option.map_eq_some_iff.mp hy
    simp only [↓kept_mk, ↓kept_back, ↓keeps_State_setGrp, h_s]
theorem keeps3_areaRow (area : Nat) (set : Nat) (ri : Nat × Nat) (s : State) (a y) (e : areaRow area set ri s = some (a, y)) (h_s : Kept pt qu s) : Kept pt qu y := keeps_areaRow area set ri s (a, y) e h_s
theorem keeps_placeTiles (x0 : Nat) (x1 : State) (h_x1 : Kept pt qu x1) : Kept pt qu (placeTiles x0 x1) := by
  induction x0 generalizing x1 with
  | zero => exact h_x1
  | succ n ih =>
    simp only [placeTiles]
    split
    · exact h_x1
    · split
      · exact h_x1
      · split
        · exact kept_fold (fun t x h => keeps_padRow _ _ _ h) h_x1
        · split
          · exact h_x1
          · split
            · exact h_x1
            · rename_i hs
              exact ih _ (keeps_putMember _ _ _ _ _ _ (keeps_State_modCkpt _ _ (keeps_areaRow _ _ _ _ _ hs h_x1)))
theorem keeps_ckptAdvance (s : State) (h_s : Kept pt qu s) : Kept pt qu (ckptAdvance s) := by
  unfold ckptAdvance
  repeat' (first
    | (simp +contextual (maxDischargeDepth := 200) only [↓kept_ite, ↓keeps_placeTiles, ↓keeps_readTiles, ↓keeps_State_modCkpt, ↓keeps_eraseArea, *]; done)
    | split
    | intros)
theorem keeps_beginCkpt (s : State) (h_s : Kept pt qu s) : Kept pt qu (beginCkpt s) := by
  simp only [beginCkpt, ↓kept_mk, ↓kept_back, ↓keeps_State_putFlag, ↓keeps_ckptAdvance, *]
theorem keeps_execCheckpointStart (s : State) (h_s : Kept pt qu s) : KeptOut pt qu (execCheckpointStart s) := by
  unfold execCheckpointStart
  repeat' (first
    | (simp +contextual (maxDischargeDepth := 200) only [↓kept_ite, ↓keeps_onlyIf, ↓keeps_State_putFlag, ↓keeps_ckptAdvance, ↓keeps_State_logPacked, ↓keeps_beginCkpt, *]; done)
    | split
    | intros)
theorem keeps_queueHeader (c : Ckpt) (set : Nat) (slot : Nat) (k : Nat) (s : State) (h_s : Kept pt qu s) : Kept pt qu (queueHeader c set slot k s) := by
  simp only [queueHeader, ↓keeps_enqueue, *]
theorem keeps_execCheckpointCommit (s : State) (h_s : Kept pt qu s) : KeptOut pt qu (execCheckpointCommit s) := by
  unfold execCheckpointCommit
  repeat' (first
    | (simp +contextual (maxDischargeDepth := 200) only [↓kept_fold, ↓keptOut_next, implies_true, ↓keeps_onlyIf, ↓keeps_queueHeader, ↓keeps_State_modCkpt, *]; done)
    | split
    | intros)
theorem keeps_queueCommit (k : Nat) (s : State) (h_s : Kept pt qu s) : Kept pt qu (queueCommit k s) := by
  unfold queueCommit
  repeat' (first
    | (simp +contextual (maxDischargeDepth := 200) only [↓kept_ite, ↓keeps_enqueue, *]; done)
    | split
    | intros)
theorem keeps_streamCkpt (k : Nat) (ptr : Nat) (s : State) (h_s : Kept pt qu s) : Kept pt qu (streamCkpt k ptr s) := by
  simp +contextual (maxDischargeDepth := 200) only [streamCkpt, ↓kept_fold, implies_true, ↓keeps_State_setStream, ↓keeps_releaseGroup, *]
theorem keeps_formatEnd (s : State) (h_s : Kept pt qu s) : Kept pt qu (formatEnd s) := by
  simp +contextual (maxDischargeDepth := 200) only [formatEnd, ↓kept_mk, ↓kept_back, ↓kept_ite, ↓keeps_State_putFlag, ↓keeps_State_logPacked, *]
theorem keeps_ckptDone (c : Ckpt) (s : State) (h_s : Kept pt qu s) : Kept pt qu (ckptDone c s) := by
  simp +contextual (maxDischargeDepth := 200) only [ckptDone, ↓kept_mk, ↓kept_back, ↓kept_fold, implies_true, ↓keeps_putUnit, ↓keeps_State_putFlag, ↓keeps_State_put, ↓keeps_streamCkpt, ↓keeps_formatEnd, *]
theorem keeps_headDone (k : Nat) (s : State) (h_s : Kept pt qu s) : Kept pt qu (headDone k s) := by
  unfold headDone
  repeat' (first
    | (simp +contextual (maxDischargeDepth := 200) only [↓kept_mk, ↓kept_back, ↓kept_ite, ↓keeps_ckptDone, *]; done)
    | split
    | intros)
theorem keeps_areaFailed (x : Nat) (s : State) (h_s : Kept pt qu s) : Kept pt qu (areaFailed x s) := by
  unfold areaFailed
  repeat' (first
    | (simp +contextual (maxDischargeDepth := 200) only [↓kept_mk, ↓kept_back, ↓kept_ite, ↓kept_fold, implies_true, ↓keeps_putUnit, ↓keeps_abandonRow, ↓keeps_State_putFlag, ↓keeps_ckptAdvance, ↓keeps_State_modCkpt, ↓keeps_State_logPacked, *]; done)
    | split
    | simp +contextual (maxDischargeDepth := 200) only [*]
    | intros)

end Sys2Proof.Machine
end

