-- ==== Sys2Proof/Laws/KeepsReclaim.lean ====
section
/-! SUPPORT. The definitions of reclaim, the ladder, the hold-up flush and ended operations keep the part, the queue and the invariant. -/

open Sys2Proof

set_option linter.unusedTactic false
set_option linter.unreachableTactic false
set_option linter.unusedVariables false

namespace Sys2Proof.Machine

variable {pt : Part} {qu : List Instr}

theorem keeps_State_modReloc (s : State) (n : Nat) (f : Reloc → Reloc) (h_s : Kept pt qu s) : Kept pt qu (State.modReloc s n f) := by
  simp only [State.modReloc, ↓kept_mk, ↓kept_back, *]
theorem keeps_State_dropReloc (s : State) (n : Nat) (h_s : Kept pt qu s) : Kept pt qu (State.dropReloc s n) := by
  simp only [State.dropReloc, ↓kept_mk, ↓kept_back, *]
theorem keeps_relocJob (n : Nat) (prog : List (BitVec 128)) (data : List Byte) (s : State) (h_s : Kept pt qu s) : Kept pt qu (relocJob n prog data s) := by
  simp only [relocJob, ↓keeps_State_nextPort, ↓keeps_State_queueJob, *]
theorem keeps_relocRead (n : Nat) (raw : List Byte) (s : State) (h_s : Kept pt qu s) : Kept pt qu (relocRead n raw s) := by
  unfold relocRead
  repeat' (first
    | (simp +contextual (maxDischargeDepth := 200) only [↓kept_ite, ↓keeps_State_dropReloc, ↓keeps_relocJob, ↓keeps_State_modReloc, *]; done)
    | split
    | intros)
theorem keeps_relocDestage (n : Nat) (s : State) (h_s : Kept pt qu s) : Kept pt qu (relocDestage n s) := by
  unfold relocDestage
  repeat' (first
    | (simp +contextual (maxDischargeDepth := 200) only [↓kept_ite, ↓keeps_State_dropReloc, ↓keeps_relocJob, ↓keeps_State_modReloc, *]; done)
    | split
    | intros)
theorem keeps_relocJobDone (n : Nat) (buf : List Byte) (s : State) (h_s : Kept pt qu s) : Kept pt qu (relocJobDone n buf s) := by
  unfold relocJobDone
  repeat' (first
    | (simp +contextual (maxDischargeDepth := 200) only [↓kept_ite, ↓keeps_encodeTile, ↓keeps_State_dropReloc, ↓keeps_relocDestage, ↓keeps_nextSeq, ↓keeps_State_modReloc, *]; done)
    | split
    | simp +contextual (maxDischargeDepth := 200) only [*]
    | intros)
theorem keeps_relocFault (n : Nat) (s : State) (h_s : Kept pt qu s) : Kept pt qu (relocFault n s) := by
  simp only [relocFault, ↓keeps_State_dropReloc, *]
theorem keeps_execRelocation (lta : Nat) (e : Nat) (s : State) (h_s : Kept pt qu s) : KeptOut pt qu (execRelocation lta e s) := by
  unfold execRelocation
  repeat' (first
    | (simp +contextual (maxDischargeDepth := 200) only [↓kept_mk, ↓kept_back, ↓keeps_startRd, ↓keeps_onlyIf, ↓keeps_relocDestage, *]; done)
    | split
    | simp +contextual (maxDischargeDepth := 200) only [*]
    | intros)
theorem keeps_retireUnit (x : Nat) (s : State) (h_s : Kept pt qu s) : Kept pt qu (retireUnit x s) := by
  simp +contextual (maxDischargeDepth := 200) only [retireUnit, ↓kept_mk, ↓kept_back, ↓kept_ite, ↓keeps_putUnit, ↓keeps_jAppend, ↓keeps_State_inc, *]
theorem keeps_noteWear (x : Nat) (s : State) (h_s : Kept pt qu s) : Kept pt qu (noteWear x s) := by
  simp only [noteWear, ↓kept_mk, ↓kept_back, *]
theorem keeps_ledgerErased (x : Nat) (s : State) (h_s : Kept pt qu s) : Kept pt qu (ledgerErased x s) := by
  simp only [ledgerErased, ↓kept_mk, ↓kept_back, *]
theorem keeps_eraseDone (x : Nat) (s : State) (h_s : Kept pt qu s) : Kept pt qu (eraseDone x s) := by
  simp +contextual (maxDischargeDepth := 200) only [eraseDone, ↓kept_ite, ↓kept_fold, implies_true, ↓keeps_gaugeSeed, ↓keeps_putUnit, ↓keeps_ledgerErased, ↓keeps_fillReserve, ↓keeps_ckptAdvance, ↓keeps_jAppend, ↓keeps_State_inc, ↓keeps_State_modCkpt, *]
theorem keeps_erasePassed (x : Nat) (s : State) (h_s : Kept pt qu s) : Kept pt qu (erasePassed x s) := by
  simp only [erasePassed, ↓keeps_eraseDone, ↓keeps_noteWear, *]
theorem keeps_journalRefit (x : Nat) (s : State) (h_s : Kept pt qu s) : Kept pt qu (journalRefit x s) := by
  unfold journalRefit
  repeat' (first
    | (simp +contextual (maxDischargeDepth := 200) only [↓keeps_retireUnit, ↓keeps_putUnit, ↓keeps_putGrp, ↓keeps_queueErase, *]; done)
    | split
    | simp +contextual (maxDischargeDepth := 200) only [*]
    | intros)
theorem keeps_eraseFailed (x : Nat) (s : State) (h_s : Kept pt qu s) : Kept pt qu (eraseFailed x s) := by
  simp +contextual (maxDischargeDepth := 200) only [eraseFailed, ↓kept_ite, ↓keeps_retireUnit, ↓keeps_areaFailed, ↓keeps_journalRefit, *]
theorem keeps_freeVictim (set : Nat) (g : Nat) (s : State) (h_s : Kept pt qu s) : Kept pt qu (freeVictim set g s) := by
  unfold freeVictim
  repeat' (first
    | (simp +contextual (maxDischargeDepth := 200) only [↓kept_mk, ↓kept_back, ↓kept_ite, ↓kept_fold, implies_true, ↓keeps_retireUnit, ↓keeps_putUnit, *]; done)
    | split
    | intros)
theorem keeps_emptyDrained (set : Nat) (s : State) (h_s : Kept pt qu s) : Kept pt qu (emptyDrained set s) := by
  simp only [emptyDrained, ↓kept_mk, ↓kept_back, ↓kept_ite, ↓keeps_State_modSet, *]
theorem keeps_execReclaim (set : Nat) (s : State) (h_s : Kept pt qu s) : KeptOut pt qu (execReclaim set s) := by
  unfold execReclaim
  dsimp only
  refine keeps_onlyIf _ _ _ h_s ?_
  have h := keeps_fillReserve 64 s h_s
  generalize fillReserve 64 s = t at h ⊢
  split
  · refine kept_fold (fun u x hu => ?_) h
    split
    · exact keeps_queueErase _ _ hu
    · exact hu
  · have hm : ∀ m, Kept pt qu { t with md := m } := fun _ => h
    repeat' (first
      | exact hm _
      | exact keeps_emptyDrained _ _ (hm _)
      | exact keeps_freeVictim _ _ _ (hm _)
      | split)
theorem keeps_execRakePatrol (s : State) (h_s : Kept pt qu s) : KeptOut pt qu (execRakePatrol s) := by
  simp +contextual (maxDischargeDepth := 200) only [execRakePatrol, ↓kept_mk, ↓kept_back, ↓kept_ite, ↓kept_fold, implies_true, ↓keeps_startRd, ↓keeps_putUnit, ↓keeps_onlyIf, *]
theorem keeps_execRakeRefresh (s : State) (h_s : Kept pt qu s) : KeptOut pt qu (execRakeRefresh s) := by
  unfold execRakeRefresh
  repeat' (first
    | (simp +contextual (maxDischargeDepth := 200) only [↓kept_mk, ↓kept_back, ↓keptOut_next, ↓keeps_putUnit, ↓keeps_onlyIf, ↓keeps_State_inc, *]; done)
    | split
    | intros)
theorem keeps_execHotWindow (s : State) (h_s : Kept pt qu s) : KeptOut pt qu (execHotWindow s) := by
  simp +contextual (maxDischargeDepth := 200) only [execHotWindow, ↓kept_mk, ↓kept_back, ↓kept_fold, implies_true, ↓keeps_onlyIf, ↓keeps_modLun, *]
theorem keeps_markLost (set : Nat) (slot : Nat) (s : State) (h_s : Kept pt qu s) : Kept pt qu (markLost set slot s) := by
  unfold markLost
  repeat' (first
    | with_reducible assumption
    | with_reducible refine kept_fold (fun _ _ _ => ?_) ?_
    | with_reducible apply kept_ite
    | with_reducible apply keptOut_ite
    | with_reducible refine (keptOut_next _).mpr ?_
    | with_reducible apply kept_ite2
    | with_reducible apply kept_ite22
    | with_reducible apply kept_id
    | with_reducible refine kept_fold2 (fun _ _ _ => ?_) ?_
    | with_reducible apply keeps_State_modSet
    | with_reducible apply keeps_putGrp
    | with_reducible apply keeps_State_setGrp
    | split
    | fail_if_no_progress (with_reducible apply kept_same)
    | intro _)
theorem keeps_toStep18 (id : Nat) (s : State) (h_s : Kept pt qu s) : Kept pt qu (toStep18 id s) := by
  unfold toStep18
  repeat' (first
    | (simp +contextual (maxDischargeDepth := 200) only [↓keeps_stepRecon, ↓keeps_State_modRd, *]; done)
    | split
    | intros)
theorem keeps_wantLost (s : State) (w : Want) (h_s : Kept pt qu s) : Kept pt qu (wantLost s w) := by
  unfold wantLost
  repeat' (first
    | (simp +contextual (maxDischargeDepth := 200) only [↓kept_mk, ↓kept_back, ↓keeps_State_modRq, ↓keeps_toStep18, ↓keeps_requestCheck, ↓keeps_State_modCkpt, ↓keeps_unitPassed, ↓keeps_headDone, ↓keeps_rewritePage, *]; done)
    | split
    | intros)
theorem keeps_State_modRebuild (s : State) (f : Rebuild → Rebuild) (h_s : Kept pt qu s) : Kept pt qu (State.modRebuild s f) := by
  simp only [State.modRebuild, ↓kept_mk, ↓kept_back, *]
theorem keeps_rebuildRow (s : State) (h_s : Kept pt qu s) : Kept pt qu (rebuildRow s) := by
  unfold rebuildRow
  repeat' (first
    | (simp +contextual (maxDischargeDepth := 200) only [↓kept_ite, ↓kept_fold, implies_true, ↓keeps_startRecon, ↓keeps_State_modRebuild, ↓keeps_State_addRd, *]; done)
    | split
    | intros)
theorem keeps_rebuildGo (s : State) (h_s : Kept pt qu s) : Kept pt qu (rebuildGo s) := by
  unfold rebuildGo
  repeat' (first
    | (simp +contextual (maxDischargeDepth := 200) only [↓kept_mk, ↓kept_back, ↓keeps_putUnit, ↓keeps_rebuildRow, *]; done)
    | split
    | intros)
theorem keeps_rebuildEnd (x0 : Nat) (x1 : State) (h_x1 : Kept pt qu x1) : Kept pt qu (rebuildEnd x0 x1) := by
  induction x0 generalizing x1 with
  | zero => exact h_x1
  | succ n ih =>
    simp only [rebuildEnd]
    split
    · exact h_x1
    · split
      · split
        · repeat' (first | with_reducible assumption | with_reducible apply keeps_budget | with_reducible apply keeps_State_modSet | with_reducible apply keeps_State_put | with_reducible apply keeps_rebuildGo | with_reducible apply kept_ite | split | fail_if_no_progress (with_reducible apply kept_same))
        · refine ih _ ?_
          repeat' (first | with_reducible assumption | with_reducible apply keeps_budget | with_reducible apply keeps_State_modSet | with_reducible apply keeps_State_put | with_reducible apply keeps_rebuildGo | with_reducible apply kept_ite | split | fail_if_no_progress (with_reducible apply kept_same))
      · repeat' (first | with_reducible assumption | with_reducible apply keeps_budget | with_reducible apply keeps_State_modSet | with_reducible apply keeps_State_put | with_reducible apply keeps_rebuildGo | with_reducible apply kept_ite | split | fail_if_no_progress (with_reducible apply kept_same))
theorem keeps_nextRebuild (s : State) (h_s : Kept pt qu s) : Kept pt qu (nextRebuild s) := by
  unfold nextRebuild
  repeat' (first
    | with_reducible assumption
    | with_reducible refine kept_fold (fun _ _ _ => ?_) ?_
    | with_reducible apply kept_ite
    | with_reducible apply keptOut_ite
    | with_reducible refine (keptOut_next _).mpr ?_
    | with_reducible apply kept_ite2
    | with_reducible apply kept_ite22
    | with_reducible apply kept_id
    | with_reducible refine kept_fold2 (fun _ _ _ => ?_) ?_
    | with_reducible apply keeps_State_put
    | with_reducible apply keeps_rebuildEnd
    | split
    | fail_if_no_progress (with_reducible apply kept_same)
    | intro _)
theorem keeps_replaceLun (set : Nat) (slot : Nat) (s : State) (h_s : Kept pt qu s) : Kept pt qu (replaceLun set slot s) := by
  unfold replaceLun
  repeat' (first
    | with_reducible assumption
    | with_reducible refine kept_fold (fun _ _ _ => ?_) ?_
    | with_reducible apply kept_ite
    | with_reducible apply keptOut_ite
    | with_reducible refine (keptOut_next _).mpr ?_
    | with_reducible apply kept_ite2
    | with_reducible apply kept_ite22
    | with_reducible apply kept_id
    | with_reducible refine kept_fold2 (fun _ _ _ => ?_) ?_
    | with_reducible apply keeps_State_modSet
    | with_reducible apply keeps_putGrp
    | with_reducible apply keeps_jAppend
    | with_reducible apply keeps_nextRebuild
    | split
    | fail_if_no_progress (with_reducible apply kept_same)
    | intro _)
theorem keeps_lunLost (k : Nat) (s : State) (h_s : Kept pt qu s) : Kept pt qu (lunLost k s) := by
  unfold lunLost
  repeat' (first
    | with_reducible assumption
    | with_reducible refine kept_fold (fun _ _ _ => ?_) ?_
    | with_reducible apply kept_ite
    | with_reducible apply keptOut_ite
    | with_reducible refine (keptOut_next _).mpr ?_
    | with_reducible apply kept_ite2
    | with_reducible apply kept_ite22
    | with_reducible apply kept_id
    | with_reducible refine kept_fold2 (fun _ _ _ => ?_) ?_
    | with_reducible apply keeps_wantLost
    | with_reducible apply keeps_replaceLun
    | with_reducible apply keeps_State_modSet
    | with_reducible apply keeps_jAppend
    | with_reducible apply keeps_markLost
    | with_reducible apply keeps_modLun
    | with_reducible apply keeps_budget
    | dsimp only
    | split
    | fail_if_no_progress (with_reducible apply kept_same)
    | intro _)
theorem keeps_execLunOffline (s : State) (h_s : Kept pt qu s) : KeptOut pt qu (execLunOffline s) := by
  unfold execLunOffline
  repeat' (first
    | (simp +contextual (maxDischargeDepth := 200) only [↓keptOut_next, ↓keeps_lunLost, ↓keeps_onlyIf, *]; done)
    | split
    | intros)
theorem keeps_rebuiltRow (s : State) (h_s : Kept pt qu s) : Kept pt qu (rebuiltRow s) := by
  simp only [rebuiltRow, ↓keeps_rebuildRow, ↓keeps_State_modRebuild, *]
theorem keeps_memberRebuilt (q : Nat) (raw : Option (List Byte)) (s : State) (h_s : Kept pt qu s) : Kept pt qu (memberRebuilt q raw s) := by
  unfold memberRebuilt
  repeat' (first
    | (simp +contextual (maxDischargeDepth := 200) only [↓kept_ite, ↓keeps_enqueue, ↓keeps_State_modRebuild, *]; done)
    | split
    | intros)
theorem keeps_rebuiltEnded (w0 : Want) (pass : Bool) (s : State) (h_s : Kept pt qu s) : Kept pt qu (rebuiltEnded w0 pass s) := by
  unfold rebuiltEnded
  repeat' (first
    | with_reducible assumption
    | with_reducible refine kept_fold (fun _ _ _ => ?_) ?_
    | with_reducible apply kept_ite
    | with_reducible apply keptOut_ite
    | with_reducible refine (keptOut_next _).mpr ?_
    | with_reducible apply kept_ite2
    | with_reducible apply kept_ite22
    | with_reducible apply kept_id
    | with_reducible refine kept_fold2 (fun _ _ _ => ?_) ?_
    | with_reducible apply keeps_retireUnit
    | with_reducible apply keeps_rebuildGo
    | with_reducible apply keeps_enqueue
    | with_reducible apply keeps_rebuildEnd
    | with_reducible apply keeps_rebuiltRow
    | split
    | fail_if_no_progress (with_reducible apply kept_same)
    | intro _)
theorem keeps_rebuiltTile (k : Nat) (w : Rebuild) (slc : Bool) (s : State) (e : Nat × Nat × Nat × Nat) (h_s : Kept pt qu s) : Kept pt qu (rebuiltTile k w slc s e) := by
  simp only [rebuiltTile, ↓keeps_mapUpdate, *]
theorem keeps_execRebuildGroupDone (s : State) (h_s : Kept pt qu s) : KeptOut pt qu (execRebuildGroupDone s) := by
  unfold execRebuildGroupDone
  repeat' (first
    | with_reducible assumption
    | with_reducible refine kept_fold (fun _ _ _ => ?_) ?_
    | with_reducible apply kept_ite
    | with_reducible apply keptOut_ite
    | with_reducible refine (keptOut_next _).mpr ?_
    | with_reducible apply kept_ite2
    | with_reducible apply kept_ite22
    | with_reducible apply kept_id
    | with_reducible refine kept_fold2 (fun _ _ _ => ?_) ?_
    | with_reducible apply keeps_rebuiltTile
    | with_reducible apply keeps_putUnit
    | with_reducible apply keeps_onlyIf
    | with_reducible apply keeps_putGrp
    | with_reducible apply keeps_jAppend
    | with_reducible apply keeps_State_inc
    | with_reducible apply keeps_rebuildEnd
    | dsimp only
    | split
    | fail_if_no_progress (with_reducible apply kept_same)
    | intro _)

theorem keeps_settleRd (id : Nat) (s : State) (h_s : Kept pt qu s) : Kept pt qu (settleRd id s) := by
  unfold settleRd
  repeat' (first
    | (simp +contextual (maxDischargeDepth := 200) only [↓kept_ite, ↓keeps_dropRd, ↓keeps_State_dropReloc, ↓keeps_tileOutcome, ↓keeps_repairTile, ↓keeps_memberRebuilt, ↓keeps_tileLoaded, ↓keeps_tileRead, ↓keeps_probed, ↓keeps_State_modTwin, ↓keeps_relocRead, *]; done)
    | split
    | intros)
theorem keeps_settleRds (s : State) (h_s : Kept pt qu s) : Kept pt qu (settleRds s) := by
  simp +contextual (maxDischargeDepth := 200) only [settleRds, ↓kept_fold, implies_true, ↓keeps_settleRd, *]
theorem keeps_gaugeGo (key : Nat) (s : State) (h_s : Kept pt qu s) : Kept pt qu (gaugeGo key s) := by
  unfold gaugeGo
  repeat' (first
    | with_reducible assumption
    | with_reducible refine kept_fold (fun _ _ _ => ?_) ?_
    | with_reducible apply kept_ite
    | with_reducible apply keptOut_ite
    | with_reducible refine (keptOut_next _).mpr ?_
    | with_reducible apply kept_ite2
    | with_reducible apply kept_ite22
    | with_reducible apply kept_id
    | with_reducible refine kept_fold2 (fun _ _ _ => ?_) ?_
    | with_reducible apply keeps_place
    | with_reducible apply keeps_placePlain
    | split
    | fail_if_no_progress (with_reducible apply kept_same)
    | intro _)
theorem keeps_gaugeFetched (key : Nat) (code : RCode) (data : List Byte) (s : State) (h_s : Kept pt qu s) : Kept pt qu (gaugeFetched key code data s) := by
  unfold gaugeFetched
  repeat' (first
    | (simp +contextual (maxDischargeDepth := 200) only [↓keeps_gaugeGo, ↓keeps_gaugeFill, ↓keeps_State_inc, ↓keeps_dramWrite, ↓keeps_settleRds, *]; done)
    | split
    | intros)
theorem keeps_execGaugeLineFetchDone (key : Nat) (code : RCode) (data : List Byte) (s : State) (h_s : Kept pt qu s) : KeptOut pt qu (execGaugeLineFetchDone key code data s) := by
  unfold execGaugeLineFetchDone
  repeat' (first
    | ((try have hx_takeOutst := keeps_takeOutst _ _ _ ‹takeOutst _ _ = some _› (by first | assumption | (simp +contextual (maxDischargeDepth := 200) only [↓kept_mk, ↓kept_back, ↓kept_ite2, ↓kept_ite, ↓keptOut_ite, ↓kept_fold, ↓kept_fold2, ↓keptOut_next, ↓keptOut_fault, ↓keptParts_set, implies_true, forall_const, reduceCtorEq, false_implies, Option.some.injEq, forall_eq, forall_eq', ↓keeps_dramSeen, ↓keeps_onlyIf, ↓keeps_gaugeFetched, ↓keeps_codeTaken, ↓keeps_releaseHeld, *]; done))); simp +contextual (maxDischargeDepth := 200) only [↓keptOut_next, ↓keeps_dramSeen, ↓keeps_onlyIf, ↓keeps_gaugeFetched, ↓keeps_codeTaken, ↓keeps_releaseHeld, *]; done)
    | split
    | (intro y hy; first | (cases hy; done) | (obtain rfl := Option.some.inj hy))
    | simp +contextual (maxDischargeDepth := 200) only [↓kept_mk, ↓kept_back, ↓kept_ite2, ↓kept_ite, ↓keptOut_ite, ↓kept_fold, ↓kept_fold2, ↓keptOut_next, ↓keptOut_fault, ↓keptParts_set, implies_true, forall_const, reduceCtorEq, false_implies, Option.some.injEq, forall_eq, forall_eq', ↓keeps_dramSeen, ↓keeps_onlyIf, ↓keeps_gaugeFetched, ↓keeps_codeTaken, ↓keeps_releaseHeld, *]
    | intros)
theorem keeps_marginResult (rtag : Nat) (k : Nat) (plus : Bool) (cbc : Nat) (s : State) (h_s : Kept pt qu s) : Kept pt qu (marginResult rtag k plus cbc s) := by
  simp only [marginResult, ↓keeps_State_modRq, ↓keeps_requestCheck, *]
theorem keeps_sampleDone (k : Nat) (g : Page) (cw : Nat) (s : State) (h_s : Kept pt qu s) : Kept pt qu (sampleDone k g cw s) := by
  simp only [sampleDone, ↓kept_mk, ↓kept_back, *]
theorem keeps_grantHard (s : State) (u : Nat) (h_s : Kept pt qu s) : Kept pt qu (grantHard s u) := by
  unfold grantHard
  repeat' (first
    | (simp +contextual (maxDischargeDepth := 200) only [↓kept_mk, ↓kept_back, *]; done)
    | split
    | intros)
theorem keeps_grantSoft (s : State) (u : Nat) (h_s : Kept pt qu s) : Kept pt qu (grantSoft s u) := by
  unfold grantSoft
  repeat' (first
    | (simp +contextual (maxDischargeDepth := 200) only [↓kept_mk, ↓kept_back, *]; done)
    | split
    | simp +contextual (maxDischargeDepth := 200) only [*]
    | intros)
theorem keeps_freeUnused (s : State) (h_s : Kept pt qu s) : Kept pt qu (freeUnused s) := by
  simp only [freeUnused, ↓kept_mk, ↓kept_back, *]
theorem keeps_grantUnits (s : State) (h_s : Kept pt qu s) : Kept pt qu (grantUnits s) := by
  simp +contextual (maxDischargeDepth := 200) only [grantUnits, ↓kept_ite, ↓kept_fold, implies_true, ↓keeps_freeUnused, ↓keeps_grantHard, ↓keeps_grantSoft, *]
theorem keeps_freeBuf (c : Nat) (slot : Nat) (s : State) (h_s : Kept pt qu s) : Kept pt qu (freeBuf c slot s) := by
  simp only [freeBuf, ↓keeps_State_setChan, *]
theorem keeps_putBuf (c : Nat) (slot : Nat) (b : BufSlot) (s : State) (h_s : Kept pt qu s) : Kept pt qu (putBuf c slot b s) := by
  simp only [putBuf, ↓keeps_State_setChan, *]
theorem keeps_codewordErased (b : BufSlot) (s : State) (h_s : Kept pt qu s) : Kept pt qu (codewordErased b s) := by
  unfold codewordErased
  repeat' (first
    | (simp +contextual (maxDischargeDepth := 200) only [↓keeps_marginResult, ↓keeps_sampleDone, ↓keeps_State_inc, ↓keeps_State_modRd, ↓keeps_endRd, *]; done)
    | split
    | simp +contextual (maxDischargeDepth := 200) only [*]
    | intros)
theorem keeps_softLanded (id : Nat) (slot : Nat) (plus : Bool) (s : State) (h_s : Kept pt qu s) : Kept pt qu (softLanded id slot plus s) := by
  simp only [softLanded, ↓keeps_State_modRd, *]
theorem keeps_execCodewordReady (c : Nat) (slot : Nat) (s : State) (h_s : Kept pt qu s) : KeptOut pt qu (execCodewordReady c slot s) := by
  unfold execCodewordReady
  repeat' (first
    | (simp +contextual (maxDischargeDepth := 200) only [↓kept_ite, ↓keptOut_next, ↓keeps_grantUnits, ↓keeps_putBuf, ↓keeps_onlyIf, ↓keeps_freeBuf, ↓keeps_freeUnused, ↓keeps_softLanded, ↓keeps_codewordErased, ↓keeps_settleRds, *]; done)
    | split
    | intros)
theorem keeps_refreshAfter (g : Page) (cbc : Nat) (step : Nat) (s : State) (h_s : Kept pt qu s) : Kept pt qu (refreshAfter g cbc step s) := by
  simp only [refreshAfter, ↓kept_ite, ↓keeps_refreshReq, *]
theorem keeps_firstFailed (id : Nat) (c : Nat) (slot : Nat) (b : BufSlot) (s : State) (h_s : Kept pt qu s) : Kept pt qu (firstFailed id c slot b s) := by
  simp +contextual (maxDischargeDepth := 200) only [firstFailed, ↓keeps_putBuf, ↓keeps_decodeFailed, ↓keeps_State_inc, ↓keeps_State_modRd, *]
theorem keeps_stepFailed (id : Nat) (c : Nat) (slot : Nat) (b : BufSlot) (s : State) (h_s : Kept pt qu s) : Kept pt qu (stepFailed id c slot b s) := by
  simp +contextual (maxDischargeDepth := 200) only [stepFailed, ↓kept_ite, ↓keeps_decodeFailed, ↓keeps_freeBuf, ↓keeps_firstFailed, *]
theorem keeps_recovered (step : Nat) (ref : BufSlot) (cbc : Nat) (cw : List Byte) (s : State) (h_s : Kept pt qu s) : Kept pt qu (recovered step ref cbc cw s) := by
  simp +contextual (maxDischargeDepth := 200) only [recovered, ↓kept_ite, ↓keeps_gaugeLearn, ↓keeps_gaugeMove, ↓keeps_State_inc, ↓keeps_refreshAfter, *]
theorem keeps_tileChecked (id : Nat) (step : Nat) (r : Rd) (ref : BufSlot) (info : List Byte) (failed : State → State) (s : State) (h_failed : ∀ (y0 : State), Kept pt qu y0 → Kept pt qu (failed y0)) (h_s : Kept pt qu s) : Kept pt qu (tileChecked id step r ref info failed s) := by
  unfold tileChecked
  repeat' (first
    | (simp +contextual (maxDischargeDepth := 200) only [↓kept_ite, ↓keeps_recovered, ↓keeps_State_inc, ↓keeps_refreshAfter, ↓keeps_State_logPacked, ↓keeps_endRd, *]; done)
    | split
    | intros)
theorem keeps_partnerDecoded (id : Nat) (c : Nat) (slot : Nat) (b : BufSlot) (info : List Byte) (s : State) (h_s : Kept pt qu s) : Kept pt qu (partnerDecoded id c slot b info s) := by
  simp +contextual (maxDischargeDepth := 200) only [partnerDecoded, ↓kept_ite, ↓keeps_freeBuf, ↓keeps_gaugeMove, ↓keeps_State_inc, ↓keeps_State_modRd, ↓keeps_refreshAfter, *]
theorem keeps_sampleDecoded (k : Nat) (b : BufSlot) (info : Option (List Byte)) (s : State) (h_s : Kept pt qu s) : Kept pt qu (sampleDecoded k b info s) := by
  unfold sampleDecoded
  repeat' (first
    | (simp +contextual (maxDischargeDepth := 200) only [↓kept_ite, ↓keeps_gaugeLearn, ↓keeps_refreshReq, ↓keeps_sampleDone, ↓keeps_State_inc, ↓keeps_refreshAfter, *]; done)
    | split
    | simp +contextual (maxDischargeDepth := 200) only [*]
    | intros)
theorem keeps_hardDecoded (c : Nat) (slot : Nat) (b : BufSlot) (dec : Option (List Byte)) (s : State) (h_s : Kept pt qu s) : Kept pt qu (hardDecoded c slot b dec s) := by
  unfold hardDecoded
  repeat' (first
    | (simp +contextual (maxDischargeDepth := 200) only [↓kept_ite, implies_true, ↓keeps_sampleDecoded, ↓keeps_marginResult, ↓keeps_putBuf, ↓keeps_decodeFailed, ↓keeps_freeBuf, ↓keeps_stepFailed, ↓keeps_tileChecked, ↓keeps_State_inc, ↓keeps_State_modRd, ↓keeps_partnerDecoded, *]; done)
    | split
    | intros)
theorem keeps_execHardDecodeDone (c : Nat) (slot : Nat) (u : Nat) (dec : Option (List Byte)) (s : State) (h_s : Kept pt qu s) : KeptOut pt qu (execHardDecodeDone c slot u dec s) := by
  unfold execHardDecodeDone
  repeat' (first
    | (simp +contextual (maxDischargeDepth := 200) only [↓keptOut_next, ↓keeps_hardDecoded, ↓keeps_grantUnits, ↓keeps_onlyIf, ↓keeps_settleRds, *]; done)
    | split
    | intros)
theorem keeps_execSoftDecodeDone (id : Nat) (u : Nat) (dec : Option (List Byte)) (s : State) (h_s : Kept pt qu s) : KeptOut pt qu (execSoftDecodeDone id u dec s) := by
  unfold execSoftDecodeDone
  repeat' (first
    | (simp +contextual (maxDischargeDepth := 200) only [↓keptOut_next, implies_true, ↓keeps_grantUnits, ↓keeps_onlyIf, ↓keeps_State_setChan, ↓keeps_refreshReq, ↓keeps_tileChecked, ↓keeps_State_inc, ↓keeps_endLadder, ↓keeps_settleRds, ↓keeps_State_modRd, *]; done)
    | split
    | intros)
theorem keeps_softGone (s : State) (h_s : Kept pt qu s) : Kept pt qu (softGone s) := by
  simp +contextual (maxDischargeDepth := 200) only [softGone, ↓kept_ite, ↓kept_fold, implies_true, ↓keeps_endLadder, *]
theorem keeps_execCrystallizerMemoryError (soft : Bool) (u : Nat) (s : State) (h_s : Kept pt qu s) : KeptOut pt qu (execCrystallizerMemoryError soft u s) := by
  simp +contextual (maxDischargeDepth := 200) only [execCrystallizerMemoryError, ↓kept_ite, reduceCtorEq, ↓keeps_grantUnits, ↓keeps_State_setBit, ↓keeps_onlyIf, ↓keeps_State_bank, ↓keeps_contained, ↓keeps_softGone, ↓keeps_settleRds, ↓keeps_State_logPacked, *]
theorem keeps_execPartnerReadDone (pid : Nat) (s : State) (h_s : Kept pt qu s) : KeptOut pt qu (execPartnerReadDone pid s) := by
  unfold execPartnerReadDone
  repeat' (first
    | (simp +contextual (maxDischargeDepth := 200) only [↓keptOut_next, ↓keeps_onlyIf, ↓keeps_partnerResult, ↓keeps_settleRds, *]; done)
    | split
    | intros)
theorem keeps_execClass0Deadline (rtag : Nat) (s : State) (h_s : Kept pt qu s) : KeptOut pt qu (execClass0Deadline rtag s) := by
  unfold execClass0Deadline
  repeat' (first
    | (simp +contextual (maxDischargeDepth := 200) only [↓keptOut_next, ↓keeps_State_setRq, ↓keeps_onlyIf, ↓keeps_oweEntry, ↓keeps_State_inc, *]; done)
    | split
    | intros)
theorem keeps_execCommitLate (rtag : Nat) (s : State) (h_s : Kept pt qu s) : KeptOut pt qu (execCommitLate rtag s) := by
  unfold execCommitLate
  repeat' (first
    | (simp +contextual (maxDischargeDepth := 200) only [↓keptOut_next, ↓keeps_State_setRq, ↓keeps_onlyIf, ↓keeps_oweEntry, ↓keeps_State_inc, *]; done)
    | split
    | intros)
theorem keeps_execClass0BucketRefill (s : State) (h_s : Kept pt qu s) : KeptOut pt qu (execClass0BucketRefill s) := by
  simp only [execClass0BucketRefill, ↓kept_mk, ↓kept_back, ↓keeps_onlyIf, *]
theorem keeps_retryAround (s : State) (h_s : Kept pt qu s) : Kept pt qu (retryAround s) := by
  unfold retryAround
  repeat' (first
    | with_reducible assumption
    | with_reducible refine kept_fold (fun _ _ _ => ?_) ?_
    | with_reducible apply kept_ite
    | with_reducible apply keptOut_ite
    | with_reducible refine (keptOut_next _).mpr ?_
    | with_reducible apply kept_ite2
    | with_reducible apply kept_ite22
    | with_reducible apply kept_id
    | with_reducible refine kept_fold2 (fun _ _ _ => ?_) ?_
    | with_reducible apply keeps_tryAround
    | with_reducible refine keeps3_tryAround _ _ _ _ (by assumption) ?_
    | with_reducible refine keeps_takeRaToken _ _ _ _ (by assumption) ?_
    | split
    | fail_if_no_progress (with_reducible apply kept_same)
    | intro _)
theorem keeps_execRaBucketRefill (s : State) (h_s : Kept pt qu s) : KeptOut pt qu (execRaBucketRefill s) := by
  simp only [execRaBucketRefill, ↓kept_mk, ↓kept_back, ↓keeps_onlyIf, ↓keeps_retryAround, *]

theorem keeps_scanMir (l : List (Nat × List Byte)) (s : State) (h_s : Kept pt qu s) : Kept pt qu (scanMir l s) := by
  simp +contextual (maxDischargeDepth := 200) only [scanMir, ↓kept_mk, ↓kept_back, ↓kept_ite, ↓kept_fold, implies_true, ↓keeps_State_logPacked, ↓keeps_budget, *]
theorem keeps_openFlushRow (id : Nat) (s : State) (h_s : Kept pt qu s) : Kept pt qu (openFlushRow id s) := by
  unfold openFlushRow
  repeat' (first
    | (simp +contextual (maxDischargeDepth := 200) only [↓kept_mk, ↓kept_back, ↓keeps_State_setGrp, *]; done)
    | split
    | intros)
theorem keeps_planTile (s : State) (n : Nat) (t : Bool × Nat) (h_s : Kept pt qu s) : Kept pt qu (planTile s n t) := by
  unfold planTile
  repeat' (first
    | (simp +contextual (maxDischargeDepth := 200) only [↓kept_mk, ↓kept_back, ↓keeps_State_nextPort, ↓keeps_State_queueJob, ↓keeps_openFlushRow, *]; done)
    | split
    | simp +contextual (maxDischargeDepth := 200) only [*]
    | intros)
theorem keeps_padFlush (s : State) (h_s : Kept pt qu s) : Kept pt qu (padFlush s) := by
  simp +contextual (maxDischargeDepth := 200) only [padFlush, ↓kept_ite, ↓kept_fold, implies_true, ↓keeps_putMember, *]
theorem keeps_execFlushStart (mirs : List (Nat × List Byte)) (s : State) (h_s : Kept pt qu s) : KeptOut pt qu (execFlushStart mirs s) := by
  simp +contextual (maxDischargeDepth := 200) only [execFlushStart, ↓kept_fold, implies_true, ↓keeps_onlyIf, ↓keeps_planTile, ↓keeps_padFlush, ↓keeps_scanMir, *]
theorem keeps_takePlan (mirror : Bool) (slot : Nat) (s : State) (h_s : Kept pt qu s) : Kept pt qu (takePlan mirror slot s).2 := by
  unfold takePlan
  repeat' (first
    | (simp +contextual (maxDischargeDepth := 200) only [↓kept_mk, ↓kept_back, *]; done)
    | split
    | intros)
theorem keeps2_takePlan (mirror : Bool) (slot : Nat) (s : State) : ∀ y, takePlan mirror slot s = y → Kept pt qu s → Kept pt qu y.2 := by
  rintro y rfl h_s; exact keeps_takePlan mirror slot s h_s
theorem keeps3_takePlan (mirror : Bool) (slot : Nat) (s : State) (a y) (e : takePlan mirror slot s = (a, y)) (h_s : Kept pt qu s) : Kept pt qu y := keeps2_takePlan mirror slot s (a, y) e h_s
theorem keeps_flushMember (pl : Nat × Nat × Nat) (m : Option Member) (s : State) (h_s : Kept pt qu s) : Kept pt qu (flushMember pl m s) := by
  simp only [flushMember, ↓keeps_putMember, *]
theorem keeps_flushBad (mirror : Bool) (slot : Nat) (pl : Nat × Nat × Nat) (s : State) (h_s : Kept pt qu s) : Kept pt qu (flushBad mirror slot pl s) := by
  simp only [flushBad, ↓keeps_State_logPacked, ↓keeps_flushMember, *]
theorem keeps_flushOwn (slot : Nat) (data : List Byte) (s : State) (h_s : Kept pt qu s) : Kept pt qu (flushOwn slot data s) := by
  unfold flushOwn
  repeat' (first
    | (simp +contextual (maxDischargeDepth := 200) only [↓kept_ite, ↓keeps_takePlan, ↓keeps_flushBad, ↓keeps_flushMember, *]; done)
    | split
    | simp +contextual (maxDischargeDepth := 200) only [*]
    | intros)
theorem keeps_flushMir (slot : Nat) (data : List Byte) (s : State) (h_s : Kept pt qu s) : Kept pt qu (flushMir slot data s) := by
  unfold flushMir
  repeat' (first
    | (simp +contextual (maxDischargeDepth := 200) only [↓kept_ite, ↓keeps_takePlan, ↓keeps_flushBad, ↓keeps_flushMember, *]; done)
    | split
    | simp +contextual (maxDischargeDepth := 200) only [*]
    | intros)
theorem keeps_flushUnit (id : Nat) (pos : Nat) (pass : Bool) (page : Page) (s : State) (h_s : Kept pt qu s) : Kept pt qu (flushUnit id pos pass page s) := by
  unfold flushUnit
  repeat' (first
    | (simp +contextual (maxDischargeDepth := 200) only [↓kept_mk, ↓kept_back, ↓kept_ite, reduceCtorEq, ↓keeps_State_modRow, ↓keeps_retirePend, *]; done)
    | split
    | intros)
theorem keeps_dropPage0 (used : Bool) (s : State) (h_s : Kept pt qu s) : Kept pt qu (dropPage0 used s) := by
  unfold dropPage0
  repeat' (first
    | (simp +contextual (maxDischargeDepth := 200) only [↓kept_ite, ↓keeps_State_setStream, ↓keeps_advancePos, *]; done)
    | split
    | intros)
theorem keeps_execFlushComplete (s : State) (h_s : Kept pt qu s) : KeptOut pt qu (execFlushComplete s) := by
  unfold execFlushComplete
  repeat' (first
    | with_reducible assumption
    | with_reducible refine kept_fold (fun _ _ _ => ?_) ?_
    | with_reducible apply kept_ite
    | with_reducible apply keptOut_ite
    | with_reducible refine (keptOut_next _).mpr ?_
    | with_reducible apply kept_ite2
    | with_reducible apply kept_ite22
    | with_reducible apply kept_id
    | with_reducible refine kept_fold2 (fun _ _ _ => ?_) ?_
    | with_reducible apply keeps_onlyIf
    | with_reducible apply keeps_State_putFlag
    | with_reducible apply keeps_jAppend
    | with_reducible refine keeps_streamProgram _ _ _ (by assumption) ?_
    | dsimp only
    | split
    | fail_if_no_progress (with_reducible apply kept_same)
    | intro _)

theorem keeps_countPfail (k : Nat) (s : State) (h_s : Kept pt qu s) : Kept pt qu (countPfail k s) := by
  simp only [countPfail, ↓keeps_State_inc, *]
theorem keeps_countEfail (k : Nat) (s : State) (h_s : Kept pt qu s) : Kept pt qu (countEfail k s) := by
  simp only [countEfail, ↓keeps_State_inc, *]
theorem keeps_rowUnitEnded (id : Nat) (pos : Nat) (pass : Bool) (g : Page) (s : State) (h_s : Kept pt qu s) : Kept pt qu (rowUnitEnded id pos pass g s) := by
  simp +contextual (maxDischargeDepth := 200) only [rowUnitEnded, ↓kept_ite, ↓keeps_areaFailed, ↓keeps_abandonRow, ↓keeps_dataUnitFailed, ↓keeps_ckptAdvance, ↓keeps_queuePqSeal, ↓keeps_retirePend, ↓keeps_unitPassed, *]
theorem keeps_jpageEnded (k : Nat) (pass : Bool) (g : Page) (s : State) (h_s : Kept pt qu s) : Kept pt qu (jpageEnded k pass g s) := by
  simp +contextual (maxDischargeDepth := 200) only [jpageEnded, ↓kept_ite, reduceCtorEq, ↓keeps_queueSeal, ↓keeps_retirePend, ↓keeps_dropPage0, ↓keeps_rewritePage, *]
theorem keeps_jsealEnded (k : Nat) (pass : Bool) (s : State) (h_s : Kept pt qu s) : Kept pt qu (jsealEnded k pass s) := by
  simp +contextual (maxDischargeDepth := 200) only [jsealEnded, ↓kept_ite, ↓keeps_sealPassed, ↓keeps_dropPage0, ↓keeps_rewritePage, *]
theorem keeps_headFailed (k : Nat) (g : Page) (s : State) (h_s : Kept pt qu s) : Kept pt qu (headFailed k g s) := by
  simp only [headFailed, ↓keeps_areaFailed, ↓keeps_headDone, *]
theorem keeps_readMissed (timeout : Bool) (w : Want) (s : State) (h_s : Kept pt qu s) : Kept pt qu (readMissed timeout w s) := by
  unfold readMissed
  repeat' (first
    | (simp +contextual (maxDischargeDepth := 200) only [↓kept_ite, ↓keeps_marginResult, ↓keeps_decodeFailed, ↓keeps_sampleDone, ↓keeps_toStep18, ↓keeps_endLadder, *]; done)
    | split
    | intros)
theorem keeps_wantEnded (pass : Bool) (s : State) (w : Want) (h_s : Kept pt qu s) : Kept pt qu (wantEnded pass s w) := by
  unfold wantEnded
  repeat' (first
    | (simp +contextual (maxDischargeDepth := 200) only [↓kept_mk, ↓kept_back, ↓kept_ite, ↓keeps_jpageEnded, ↓keeps_rebuiltEnded, ↓keeps_jsealEnded, ↓keeps_flushUnit, ↓keeps_eraseFailed, ↓keeps_erasePassed, ↓keeps_headFailed, ↓keeps_rowUnitEnded, ↓keeps_queueCommit, ↓keeps_headDone, *]; done)
    | split
    | intros)
theorem keeps_lunOpEnded (e : Ended) (s : State) (w : Want) (h_s : Kept pt qu s) : Kept pt qu (lunOpEnded e s w) := by
  unfold lunOpEnded
  repeat' (first
    | (simp +contextual (maxDischargeDepth := 200) only [↓kept_mk, ↓kept_back, *]; done)
    | split
    | intros)
theorem keeps_eraseEnd (k : Nat) (s : State) (h_s : Kept pt qu s) : Kept pt qu (eraseEnd k s) := by
  simp only [eraseEnd, ↓keeps_modLun, *]
theorem keeps_giveBack (k : Nat) (ws : List Want) (s : State) (h_s : Kept pt qu s) : Kept pt qu (giveBack k ws s) := by
  simp +contextual (maxDischargeDepth := 200) only [giveBack, ↓kept_ite, ↓kept_fold, implies_true, ↓keeps_wantLost, ↓keeps_modLun, *]
theorem keeps_freeToken (k : Nat) (s : State) (h_s : Kept pt qu s) : Kept pt qu (freeToken k s) := by
  unfold freeToken
  repeat' (first
    | (simp +contextual (maxDischargeDepth := 200) only [↓keeps_State_modSet, *]; done)
    | split
    | intros)
theorem keeps_progEnded (e : Ended) (s : State) (h_s : Kept pt qu s) : Kept pt qu (progEnded e s) := by
  simp +contextual (maxDischargeDepth := 200) only [progEnded, ↓kept_ite, ↓kept_fold, implies_true, ↓keeps_freeToken, ↓keeps_giveBack, ↓keeps_wantEnded, ↓keeps_countPfail, *]
theorem keeps_stallLun (e : Ended) (s : State) (h_s : Kept pt qu s) : Kept pt qu (stallLun e s) := by
  simp only [stallLun, ↓keeps_State_inc, ↓keeps_modLun, *]
theorem keeps_wprotEnded (e : Ended) (s : State) (h_s : Kept pt qu s) : Kept pt qu (wprotEnded e s) := by
  simp +contextual (maxDischargeDepth := 200) only [wprotEnded, ↓kept_ite, ↓keeps_freeToken, ↓keeps_giveBack, ↓keeps_eraseEnd, ↓keeps_targetOff, ↓keeps_modLun, *]
theorem keeps_suspended (e : Ended) (s : State) (h_s : Kept pt qu s) : Kept pt qu (suspended e s) := by
  simp only [suspended, ↓keeps_State_inc, ↓keeps_modLun, *]
theorem keeps_judgeOp (e : Ended) (s : State) (h_s : Kept pt qu s) : Kept pt qu (judgeOp e s) := by
  unfold judgeOp
  repeat' (first
    | (simp +contextual (maxDischargeDepth := 200) only [↓kept_ite, ↓kept_fold, implies_true, ↓keeps_progEnded, ↓keeps_stallLun, ↓keeps_countEfail, ↓keeps_freeToken, ↓keeps_suspended, ↓keeps_giveBack, ↓keeps_wprotEnded, ↓keeps_eraseEnd, ↓keeps_wantEnded, ↓keeps_lunOpEnded, ↓keeps_State_logPacked, ↓keeps_modLun, ↓keeps_readMissed, *]; done)
    | split
    | intros)
theorem keeps_rawAfter (k : Nat) (s : State) (h_s : Kept pt qu s) : Kept pt qu (rawAfter k s) := by
  simp only [rawAfter, ↓keeps_rawLatch, *]
theorem keeps_execOperationEnd (s : State) (h_s : Kept pt qu s) : KeptOut pt qu (execOperationEnd s) := by
  unfold execOperationEnd
  repeat' (first
    | (simp +contextual (maxDischargeDepth := 200) only [↓kept_mk, ↓kept_back, ↓keptOut_next, ↓keeps_onlyIf, ↓keeps_rawAfter, ↓keeps_settleRds, ↓keeps_judgeOp, *]; done)
    | split
    | intros)

end Sys2Proof.Machine
end

