-- ==== Sys2Proof/Laws/KeepsQueues.lean ====
section
/-! SUPPORT. The definitions of sluices, the flue, movers and the twin keep the part, the queue and the invariant. -/

open Sys2Proof

set_option linter.unusedTactic false
set_option linter.unreachableTactic false
set_option linter.unusedVariables false

namespace Sys2Proof.Machine

variable {pt : Part} {qu : List Instr}

theorem keeps_State_setSluice (s : State) (i : Nat) (x : Slq) (h_s : Kept pt qu s) : Kept pt qu (State.setSluice s i x) := by
  simp only [State.setSluice, ↓kept_mk, ↓kept_back, *]
theorem keeps_State_modSluice (s : State) (i : Nat) (f : Slq → Slq) (h_s : Kept pt qu s) : Kept pt qu (State.modSluice s i f) := by
  simp only [State.modSluice, ↓keeps_State_setSluice, *]
theorem keeps_stopScan (i : Nat) (s : State) (h_s : Kept pt qu s) : Kept pt qu (stopScan i s) := by
  simp only [stopScan, ↓keeps_State_putFlag, *]
theorem keeps_slqDbWrite (i : Nat) (w : Word) (s : State) (h_s : Kept pt qu s) : Kept pt qu (slqDbWrite i w s) := by
  simp +contextual (maxDischargeDepth := 200) only [slqDbWrite, ↓kept_mk, ↓kept_back, ↓kept_ite, ↓keeps_State_restart, ↓keeps_State_putFlag, ↓keeps_State_inc, ↓keeps_State_modSluice, *]
theorem keeps_execSluiceDoorbell (r : Req) (n : Nat) (w : Word) (s : State) (h_s : Kept pt qu s) : KeptOut pt qu (execSluiceDoorbell r n w s) := by
  simp +contextual (maxDischargeDepth := 200) only [execSluiceDoorbell, implies_true, ↓keeps_regWrite, ↓keeps_onlyIf, ↓keeps_slqDbWrite, *]
theorem keeps_slqCtlWrite (i : Nat) (w : Word) (s : State) (h_s : Kept pt qu s) : Kept pt qu (slqCtlWrite i w s) := by
  simp +contextual (maxDischargeDepth := 200) only [slqCtlWrite, ↓kept_ite, ↓keeps_State_putFlag, ↓keeps_stopScan, ↓keeps_showWaiting, *]
theorem keeps_execSluiceEnable (r : Req) (n : Nat) (w : Word) (s : State) (h_s : Kept pt qu s) : KeptOut pt qu (execSluiceEnable r n w s) := by
  simp +contextual (maxDischargeDepth := 200) only [execSluiceEnable, implies_true, ↓keeps_regWrite, ↓keeps_onlyIf, ↓keeps_slqCtlWrite, *]
theorem keeps_execSluiceDisable (r : Req) (n : Nat) (w : Word) (s : State) (h_s : Kept pt qu s) : KeptOut pt qu (execSluiceDisable r n w s) := by
  simp +contextual (maxDischargeDepth := 200) only [execSluiceDisable, implies_true, ↓keeps_regWrite, ↓keeps_onlyIf, ↓keeps_slqCtlWrite, *]
theorem keeps_slqHeadWrite (i : Nat) (w : Word) (s : State) (h_s : Kept pt qu s) : Kept pt qu (slqHeadWrite i w s) := by
  simp only [slqHeadWrite, ↓kept_ite, ↓keeps_State_put, *]
theorem keeps_execSlqHeadWrite (r : Req) (n : Nat) (w : Word) (s : State) (h_s : Kept pt qu s) : KeptOut pt qu (execSlqHeadWrite r n w s) := by
  simp +contextual (maxDischargeDepth := 200) only [execSlqHeadWrite, implies_true, ↓keeps_regWrite, ↓keeps_onlyIf, ↓keeps_slqHeadWrite, *]
theorem keeps_setHalt (h : Nat) (s : State) (h_s : Kept pt qu s) : Kept pt qu (setHalt h s) := by
  simp only [setHalt, ↓kept_mk, ↓kept_back, ↓keeps_State_put, *]
theorem keeps_execSlqHaltWrite (r : Req) (w : Word) (s : State) (h_s : Kept pt qu s) : KeptOut pt qu (execSlqHaltWrite r w s) := by
  simp +contextual (maxDischargeDepth := 200) only [execSlqHaltWrite, ↓keptOut_next, implies_true, ↓keeps_regWrite, ↓keeps_setHalt, *]
theorem keeps_applyModify (i : Nat) (s : State) (h_s : Kept pt qu s) : Kept pt qu (applyModify i s) := by
  unfold applyModify
  repeat' (first
    | (simp +contextual (maxDischargeDepth := 200) only [↓keeps_State_put, ↓keeps_State_modSluice, *]; done)
    | split
    | intros)
theorem keeps_newRound_ (s : State) (h_s : Kept pt qu s) : Kept pt qu (newRound_ s) := by
  simp +contextual (maxDischargeDepth := 200) only [newRound_, ↓kept_fold, implies_true, ↓keeps_applyModify, ↓keeps_State_modSluice, *]
theorem keeps_pickSluice (s : State) (h_s : Kept pt qu s) : Kept pt qu (pickSluice s).2 := by
  unfold pickSluice
  repeat' (first
    | (simp +contextual (maxDischargeDepth := 200) only [↓kept_ite, ↓keeps_applyModify, ↓keeps_newRound_, *]; done)
    | split
    | intros)
theorem keeps2_pickSluice (s : State) : ∀ y, pickSluice s = y → Kept pt qu s → Kept pt qu y.2 := by
  rintro y rfl h_s; exact keeps_pickSluice s h_s
theorem keeps3_pickSluice (s : State) (a y) (e : pickSluice s = (a, y)) (h_s : Kept pt qu s) : Kept pt qu y := keeps2_pickSluice s (a, y) e h_s
theorem keeps_issueFetch (i : Nat) (unit : Nat) (len : Nat) (s : State) (h_s : Kept pt qu s) : Kept pt qu (issueFetch i unit len s) := by
  simp only [issueFetch, ↓keeps_State_issue, ↓keeps_State_modSluice, *]
theorem keeps_execFetchGrant (s : State) (h_s : Kept pt qu s) : KeptOut pt qu (execFetchGrant s) := by
  unfold execFetchGrant
  repeat' (first
    | (simp +contextual (maxDischargeDepth := 200) only [↓kept_mk, ↓kept_back, ↓kept_ite, ↓keptOut_next, ↓keeps_onlyIf, ↓keeps_issueFetch, ↓keeps_stopScan, ↓keeps_pickSluice, *]; done)
    | split
    | simp +contextual (maxDischargeDepth := 200) only [*]
    | intros)
theorem keeps_malform (i : Nat) (unit : Nat) (code : Nat) (cid : Nat) (units : Nat) (s : State) (h_s : Kept pt qu s) : Kept pt qu (malform i unit code cid units s) := by
  simp +contextual (maxDischargeDepth := 200) only [malform, ↓kept_ite, ↓keeps_State_reserve, ↓keeps_State_bank, ↓keeps_State_putFlag, ↓keeps_State_put, ↓keeps_State_owe, ↓keeps_State_inc, ↓keeps_stopScan, ↓keeps_State_logPacked, *]
theorem keeps_takeTokens (q : Request) (s : State) (h_s : Kept pt qu s) : Kept pt qu (takeTokens q s).2 := by
  simp only [takeTokens, ↓kept_mk, ↓kept_back, ↓kept_ite2, *]
theorem keeps2_takeTokens (q : Request) (s : State) : ∀ y, takeTokens q s = y → Kept pt qu s → Kept pt qu y.2 := by
  rintro y rfl h_s; exact keeps_takeTokens q s h_s
theorem keeps3_takeTokens (q : Request) (s : State) (a y) (e : takeTokens q s = (a, y)) (h_s : Kept pt qu s) : Kept pt qu y := keeps2_takeTokens q s (a, y) e h_s
theorem keeps_latchFilter (q : Request) (s : State) (h_s : Kept pt qu s) : Kept pt qu (latchFilter q s).2 := by
  simp +contextual (maxDischargeDepth := 200) only [latchFilter, ↓kept_ite2, ↓keeps_State_inc, ↓keeps_State_logPacked, *]
theorem keeps2_latchFilter (q : Request) (s : State) : ∀ y, latchFilter q s = y → Kept pt qu s → Kept pt qu y.2 := by
  rintro y rfl h_s; exact keeps_latchFilter q s h_s
theorem keeps3_latchFilter (q : Request) (s : State) (a y) (e : latchFilter q s = (a, y)) (h_s : Kept pt qu s) : Kept pt qu y := keeps2_latchFilter q s (a, y) e h_s
theorem keeps_admitEntry (q : Request) (s : State) : ∀ y, admitEntry q s = some y → Kept pt qu s → Kept pt qu y.2 := by
  intro y hy h_s
  revert y
  unfold admitEntry
  repeat' (first
    | ((try have hx_takeSlots := keeps_takeSlots _ _ _ ‹takeSlots _ _ = some _› (by first | assumption | (simp +contextual (maxDischargeDepth := 200) only [↓kept_mk, ↓kept_back, ↓kept_ite2, ↓kept_ite, ↓keptOut_ite, ↓kept_fold, ↓kept_fold2, ↓keptOut_next, ↓keptOut_fault, ↓keptParts_set, implies_true, forall_const, reduceCtorEq, false_implies, Option.some.injEq, forall_eq, forall_eq', *]; done))); simp +contextual (maxDischargeDepth := 200) only [implies_true, reduceCtorEq, false_implies, Option.some.injEq, forall_eq', *]; done)
    | split
    | (intro y hy; first | (cases hy; done) | (obtain rfl := Option.some.inj hy))
    | simp +contextual (maxDischargeDepth := 200) only [↓kept_mk, ↓kept_back, ↓kept_ite2, ↓kept_ite, ↓keptOut_ite, ↓kept_fold, ↓kept_fold2, ↓keptOut_next, ↓keptOut_fault, ↓keptParts_set, implies_true, forall_const, reduceCtorEq, false_implies, Option.some.injEq, forall_eq, forall_eq', *]
    | intros)
theorem keeps3_admitEntry (q : Request) (s : State) (a y) (e : admitEntry q s = some (a, y)) (h_s : Kept pt qu s) : Kept pt qu y := keeps_admitEntry q s (a, y) e h_s
theorem keeps_takeEntry (i : Nat) (unit : Nat) (e : SqEntry) (s : State) : ∀ y, takeEntry i unit e s = some y → Kept pt qu s → Kept pt qu y := by
  intro y hy h_s
  revert y
  unfold takeEntry
  repeat' (first
    | with_reducible assumption
    | with_reducible refine kept_fold (fun _ _ _ => ?_) ?_
    | with_reducible apply kept_ite
    | with_reducible apply keptOut_ite
    | with_reducible refine (keptOut_next _).mpr ?_
    | with_reducible apply kept_ite2
    | with_reducible apply kept_ite22
    | with_reducible apply kept_id
    | with_reducible refine kept_fold2 (fun _ _ _ => ?_) ?_
    | with_reducible apply keeps_takeTokens
    | with_reducible refine keeps3_takeTokens _ _ _ _ (by assumption) ?_
    | with_reducible apply keeps_State_reserve
    | with_reducible apply keeps_State_setRq
    | with_reducible apply keeps_latchFilter
    | with_reducible refine keeps3_latchFilter _ _ _ _ (by assumption) ?_
    | with_reducible apply keeps_State_put
    | with_reducible refine keeps3_admitEntry _ _ _ _ (by assumption) ?_
    | with_reducible apply keeps_State_modSluice
    | dsimp only
    | split
    | (intro y hy; first | (cases hy; done) | (obtain rfl := Option.some.inj hy))
    | fail_if_no_progress (with_reducible apply kept_same)
    | intro _)
theorem keeps_handBack (i : Nat) (unit : Nat) (n : Nat) (s : State) (h_s : Kept pt qu s) : Kept pt qu (handBack i unit n s) := by
  simp only [handBack, ↓kept_ite, ↓keeps_State_issueAll, *]
theorem keeps_waitRoom (i : Nat) (units : Nat) (s : State) (h_s : Kept pt qu s) : Kept pt qu (waitRoom i units s) := by
  simp +contextual (maxDischargeDepth := 200) only [waitRoom, ↓keeps_State_putFlag, ↓keeps_State_modSluice, *]
theorem keeps_scanBlock (i : Nat) (x0 : Nat) (x1 : Nat) (x2 : Nat) (x3 : List Byte) (x4 : State) (h_x4 : Kept pt qu x4) : Kept pt qu (scanBlock i x0 x1 x2 x3 x4).1 := by
  induction x0 generalizing x1 x2 x3 x4 with
  | zero => exact h_x4
  | succ n ih =>
    simp only [scanBlock]
    split
    · exact h_x4
    · split
      · exact keeps_stopScan _ _ h_x4
      · split
        · show Kept pt qu (if _ then _ else _)
          split
          · exact keeps_State_putFlag _ _ _ _ h_x4
          · exact keeps_stopScan _ _ h_x4
        · split
          · exact h_x4
          · split
            · exact keeps_waitRoom _ _ _ h_x4
            · split
              · exact keeps_issueFetch _ _ _ _ (keeps_State_modSluice _ _ _ h_x4)
              · split
                · exact keeps_malform _ _ _ _ _ _ h_x4
                · split
                  · exact h_x4
                  · rename_i t ht
                    exact ih _ _ _ _ (keeps_takeEntry _ _ _ _ _ ht h_x4)
theorem keeps2_scanBlock (i : Nat) (x0 : Nat) (x1 : Nat) (x2 : Nat) (x3 : List Byte) (x4 : State) : ∀ y, scanBlock i x0 x1 x2 x3 x4 = y → Kept pt qu x4 → Kept pt qu y.1 := by
  rintro y rfl h_x4; exact keeps_scanBlock i x0 x1 x2 x3 x4 h_x4
theorem keeps_fetched (i : Nat) (code : RCode) (data : List Byte) (s : State) (h_s : Kept pt qu s) : Kept pt qu (fetched i code data s) := by
  unfold fetched
  dsimp only
  split
  · exact h_s
  · have h := keeps_State_modSluice s i (fun x => { x with fetch := none, part := [] }) h_s
    split
    · exact keeps_stopScan _ _ h
    · split
      · exact h
      · split
        · repeat' split
          all_goals first
            | exact keeps_malform _ _ _ _ _ _ h
            | exact keeps_waitRoom _ _ _ h
        · exact keeps_handBack _ _ _ _ (keeps_scanBlock _ _ _ _ _ _ h)
theorem keeps_execFetchReadDone (n : Nat) (code : RCode) (data : List Byte) (s : State) (h_s : Kept pt qu s) : KeptOut pt qu (execFetchReadDone n code data s) := by
  unfold execFetchReadDone
  repeat' (first
    | ((try have hx_takeOutst := keeps_takeOutst _ _ _ ‹takeOutst _ _ = some _› (by first | assumption | (simp +contextual (maxDischargeDepth := 200) only [↓kept_mk, ↓kept_back, ↓kept_ite2, ↓kept_ite, ↓keptOut_ite, ↓kept_fold, ↓kept_fold2, ↓keptOut_next, ↓keptOut_fault, ↓keptParts_set, implies_true, forall_const, reduceCtorEq, false_implies, Option.some.injEq, forall_eq, forall_eq', ↓keeps_onlyIf, ↓keeps_fetched, *]; done))); simp +contextual (maxDischargeDepth := 200) only [↓keptOut_next, ↓keeps_onlyIf, ↓keeps_fetched, *]; done)
    | split
    | (intro y hy; first | (cases hy; done) | (obtain rfl := Option.some.inj hy))
    | simp +contextual (maxDischargeDepth := 200) only [↓kept_mk, ↓kept_back, ↓kept_ite2, ↓kept_ite, ↓keptOut_ite, ↓kept_fold, ↓kept_fold2, ↓keptOut_next, ↓keptOut_fault, ↓keptParts_set, implies_true, forall_const, reduceCtorEq, false_implies, Option.some.injEq, forall_eq, forall_eq', ↓keeps_onlyIf, ↓keeps_fetched, *]
    | intros)
theorem keeps_startRow (rtag : Nat) (opc : Nat) (run : Request → State → State) (s : State) (h_run : ∀ (y0 : Request) (y1 : State), Kept pt qu y1 → Kept pt qu (run y0 y1)) (h_s : Kept pt qu s) : KeptOut pt qu (startRow rtag opc run s) := by
  unfold startRow
  repeat' (first
    | (simp +contextual (maxDischargeDepth := 200) only [↓kept_ite, ↓keptOut_next, ↓keeps_State_setRq, ↓keeps_onlyIf, ↓keeps_finish, *]; done)
    | split
    | intros)
theorem keeps_execSluiceNop (rtag : Nat) (s : State) (h_s : Kept pt qu s) : KeptOut pt qu (execSluiceNop rtag s) := by
  simp +contextual (maxDischargeDepth := 200) only [execSluiceNop, implies_true, ↓keeps_startRow, ↓keeps_finish, *]
theorem keeps_execSluiceRead (rtag : Nat) (s : State) (h_s : Kept pt qu s) : KeptOut pt qu (execSluiceRead rtag s) := by
  simp +contextual (maxDischargeDepth := 200) only [execSluiceRead, implies_true, ↓keeps_startRow, *]
theorem keeps_execSluiceWrite (rtag : Nat) (s : State) (h_s : Kept pt qu s) : KeptOut pt qu (execSluiceWrite rtag s) := by
  unfold execSluiceWrite
  repeat' (first
    | with_reducible assumption
    | with_reducible refine kept_fold (fun _ _ _ => ?_) ?_
    | with_reducible apply kept_ite
    | with_reducible apply keptOut_ite
    | with_reducible refine (keptOut_next _).mpr ?_
    | with_reducible apply kept_ite2
    | with_reducible apply kept_ite22
    | with_reducible apply kept_id
    | with_reducible refine kept_fold2 (fun _ _ _ => ?_) ?_
    | with_reducible apply keeps_startRow
    | with_reducible apply keeps_startCommit
    | with_reducible apply keeps_finish
    | split
    | fail_if_no_progress (with_reducible apply kept_same)
    | intro _)
theorem keeps_execSluiceFlush (rtag : Nat) (s : State) (h_s : Kept pt qu s) : KeptOut pt qu (execSluiceFlush rtag s) := by
  simp +contextual (maxDischargeDepth := 200) only [execSluiceFlush, implies_true, ↓keeps_startRow, ↓keeps_requestCheck, *]
theorem keeps_unmapTile (q : Request) (s : State) (t : Tile × Nat) (h_s : Kept pt qu s) : Kept pt qu (unmapTile q s t) := by
  simp +contextual (maxDischargeDepth := 200) only [unmapTile, ↓kept_ite, ↓keeps_discardCopies, ↓keeps_mapUpdate, ↓keeps_State_modTile, *]
theorem keeps_execSluiceUnmap (rtag : Nat) (s : State) (h_s : Kept pt qu s) : KeptOut pt qu (execSluiceUnmap rtag s) := by
  unfold execSluiceUnmap
  repeat' (first
    | (simp +contextual (maxDischargeDepth := 200) only [↓kept_ite, ↓kept_fold, ↓keptOut_next, implies_true, ↓keeps_State_setRq, ↓keeps_onlyIf, ↓keeps_finish, ↓keeps_unmapTile, ↓keeps_requestCheck, *]; done)
    | split
    | intros)
theorem keeps_execSluiceFilter (rtag : Nat) (s : State) (h_s : Kept pt qu s) : KeptOut pt qu (execSluiceFilter rtag s) := by
  simp +contextual (maxDischargeDepth := 200) only [execSluiceFilter, implies_true, ↓keeps_startRow, *]
theorem keeps_execSluiceMargin (rtag : Nat) (s : State) (h_s : Kept pt qu s) : KeptOut pt qu (execSluiceMargin rtag s) := by
  simp +contextual (maxDischargeDepth := 200) only [execSluiceMargin, implies_true, ↓keeps_startRow, ↓keeps_State_setRq, ↓keeps_requestCheck, ↓keeps_marginReads, *]

theorem keeps_State_modFlue (s : State) (f : Nat) (g : Flue → Flue) (h_s : Kept pt qu s) : Kept pt qu (State.modFlue s f g) := by
  simp only [State.modFlue, ↓kept_mk, ↓kept_back, *]
theorem keeps_flueDone (f : Nat) (st : Nat) (num : Nat) (detail : List Byte) (s : State) (h_s : Kept pt qu s) : Kept pt qu (flueDone f st num detail s) := by
  simp +contextual (maxDischargeDepth := 200) only [flueDone, ↓keeps_State_issueAll, ↓keeps_State_putFlag, ↓keeps_State_inc, ↓keeps_State_modFlue, *]
theorem keeps_slqFdbWrite (f : Nat) (s : State) (h_s : Kept pt qu s) : Kept pt qu (slqFdbWrite f s) := by
  simp +contextual (maxDischargeDepth := 200) only [slqFdbWrite, ↓kept_ite, ↓keeps_State_restart, ↓keeps_State_modFlue, *]
theorem keeps_execFlueDoorbell (r : Req) (f : Nat) (w : Word) (s : State) (h_s : Kept pt qu s) : KeptOut pt qu (execFlueDoorbell r f w s) := by
  simp +contextual (maxDischargeDepth := 200) only [execFlueDoorbell, implies_true, ↓keeps_slqFdbWrite, ↓keeps_regWrite, ↓keeps_onlyIf, *]
theorem keeps_execFlueFetch (f : Nat) (s : State) (h_s : Kept pt qu s) : KeptOut pt qu (execFlueFetch f s) := by
  simp +contextual (maxDischargeDepth := 200) only [execFlueFetch, ↓keeps_State_issue, ↓keeps_onlyIf, ↓keeps_State_modFlue, *]
theorem keeps_flueIdle (f : Nat) (failed : Bool) (keep : Bool) (s : State) (h_s : Kept pt qu s) : Kept pt qu (flueIdle f failed keep s) := by
  simp +contextual (maxDischargeDepth := 200) only [flueIdle, ↓kept_ite, ↓keeps_State_logPacked, ↓keeps_State_modFlue, *]
theorem keeps_flueOwned (f : Nat) (code : RCode) (data : List Byte) (s : State) (h_s : Kept pt qu s) : Kept pt qu (flueOwned f code data s) := by
  simp +contextual (maxDischargeDepth := 200) only [flueOwned, ↓kept_ite, ↓keeps_flueIdle, ↓keeps_State_issueAll, ↓keeps_State_modFlue, *]
theorem keeps_flueTake (f : Nat) (b : List Byte) (s : State) (h_s : Kept pt qu s) : Kept pt qu (flueTake f b s) := by
  simp +contextual (maxDischargeDepth := 200) only [flueTake, ↓kept_ite, ↓keeps_flueDone, ↓keeps_State_issueAll, ↓keeps_State_bank, ↓keeps_State_putFlag, ↓keeps_State_logPacked, ↓keeps_State_modFlue, *]
theorem keeps_flueRead (f : Nat) (addr : Nat) (code : RCode) (data : List Byte) (s : State) (h_s : Kept pt qu s) : Kept pt qu (flueRead f addr code data s) := by
  unfold flueRead
  repeat' (first
    | (simp +contextual (maxDischargeDepth := 200) only [↓kept_ite, ↓keeps_flueIdle, ↓keeps_flueTake, ↓keeps_State_modFlue, *]; done)
    | split
    | simp +contextual (maxDischargeDepth := 200) only [*]
    | intros)
theorem keeps_flueRow (f : Nat) (opc : Nat) (run : Flue → State → Nat × Nat × List Byte × State) (s : State) (h_run : ∀ (y0 : Flue) (y1 : State), Kept pt qu y1 → Kept pt qu (run y0 y1).2.2.2) (h_s : Kept pt qu s) : KeptOut pt qu (flueRow f opc run s) := by
  simp +contextual (maxDischargeDepth := 200) only [flueRow, ↓keeps_flueDone, ↓keeps_onlyIf, *]
theorem keeps_slqCreate (f : Nat) (x : Flue) (s : State) (h_s : Kept pt qu s) : Kept pt qu (slqCreate f x s).2.2 := by
  unfold slqCreate
  repeat' (first
    | (simp +contextual (maxDischargeDepth := 200) only [↓keeps_State_setReg, ↓keeps_State_putFlag, ↓keeps_State_put, ↓keeps_State_setSluice, *]; done)
    | split
    | simp +contextual (maxDischargeDepth := 200) only [*]
    | intros)
theorem keeps2_slqCreate (f : Nat) (x : Flue) (s : State) : ∀ y, slqCreate f x s = y → Kept pt qu s → Kept pt qu y.2.2 := by
  rintro y rfl h_s; exact keeps_slqCreate f x s h_s
theorem keeps_execSlqCreate (f : Nat) (s : State) (h_s : Kept pt qu s) : KeptOut pt qu (execSlqCreate f s) := by
  simp +contextual (maxDischargeDepth := 200) only [execSlqCreate, implies_true, ↓keeps_flueRow, ↓keeps_slqCreate, *]
theorem keeps_State_clearReg (s : State) (k : RegKind) (i : Nat) (h_s : Kept pt qu s) : Kept pt qu (State.clearReg s k i) := by
  simp only [State.clearReg, ↓keeps_State_setReg, *]
theorem keeps_slqDestroy (f : Nat) (x : Flue) (s : State) (h_s : Kept pt qu s) : Kept pt qu (slqDestroy f x s).2.2 := by
  unfold slqDestroy
  repeat' (first
    | (simp +contextual (maxDischargeDepth := 200) only [↓kept_mk, ↓kept_back, ↓kept_fold, implies_true, ↓keeps_State_clearReg, *]; done)
    | split
    | simp +contextual (maxDischargeDepth := 200) only [*]
    | intros)
theorem keeps2_slqDestroy (f : Nat) (x : Flue) (s : State) : ∀ y, slqDestroy f x s = y → Kept pt qu s → Kept pt qu y.2.2 := by
  rintro y rfl h_s; exact keeps_slqDestroy f x s h_s
theorem keeps_execSlqDestroy (f : Nat) (s : State) (h_s : Kept pt qu s) : KeptOut pt qu (execSlqDestroy f s) := by
  simp +contextual (maxDischargeDepth := 200) only [execSlqDestroy, implies_true, ↓keeps_flueRow, ↓keeps_slqDestroy, *]
theorem keeps_hrvCreate (f : Nat) (x : Flue) (s : State) (h_s : Kept pt qu s) : Kept pt qu (hrvCreate f x s).2.2 := by
  unfold hrvCreate
  repeat' (first
    | (simp +contextual (maxDischargeDepth := 200) only [↓keeps_State_clearReg, ↓keeps_State_putFlag, ↓keeps_State_put, ↓keeps_State_setRing, *]; done)
    | split
    | simp +contextual (maxDischargeDepth := 200) only [*]
    | intros)
theorem keeps2_hrvCreate (f : Nat) (x : Flue) (s : State) : ∀ y, hrvCreate f x s = y → Kept pt qu s → Kept pt qu y.2.2 := by
  rintro y rfl h_s; exact keeps_hrvCreate f x s h_s
theorem keeps_execHrvCreate (f : Nat) (s : State) (h_s : Kept pt qu s) : KeptOut pt qu (execHrvCreate f s) := by
  simp +contextual (maxDischargeDepth := 200) only [execHrvCreate, implies_true, ↓keeps_flueRow, ↓keeps_hrvCreate, *]
theorem keeps_hrvDestroy (f : Nat) (x : Flue) (s : State) (h_s : Kept pt qu s) : Kept pt qu (hrvDestroy f x s).2.2 := by
  unfold hrvDestroy
  repeat' (first
    | (simp +contextual (maxDischargeDepth := 200) only [↓kept_mk, ↓kept_back, ↓kept_ite, ↓kept_fold, implies_true, ↓keeps_signalRing, ↓keeps_State_clearReg, *]; done)
    | split
    | simp +contextual (maxDischargeDepth := 200) only [*]
    | intros)
theorem keeps2_hrvDestroy (f : Nat) (x : Flue) (s : State) : ∀ y, hrvDestroy f x s = y → Kept pt qu s → Kept pt qu y.2.2 := by
  rintro y rfl h_s; exact keeps_hrvDestroy f x s h_s
theorem keeps_execHrvDestroy (f : Nat) (s : State) (h_s : Kept pt qu s) : KeptOut pt qu (execHrvDestroy f s) := by
  simp +contextual (maxDischargeDepth := 200) only [execHrvDestroy, implies_true, ↓keeps_flueRow, ↓keeps_hrvDestroy, *]
theorem keeps_slqModify (f : Nat) (x : Flue) (s : State) (h_s : Kept pt qu s) : Kept pt qu (slqModify f x s).2.2 := by
  unfold slqModify
  repeat' (first
    | (simp +contextual (maxDischargeDepth := 200) only [↓keeps_State_modSluice, *]; done)
    | split
    | simp +contextual (maxDischargeDepth := 200) only [*]
    | intros)
theorem keeps2_slqModify (f : Nat) (x : Flue) (s : State) : ∀ y, slqModify f x s = y → Kept pt qu s → Kept pt qu y.2.2 := by
  rintro y rfl h_s; exact keeps_slqModify f x s h_s
theorem keeps_execSlqModify (f : Nat) (s : State) (h_s : Kept pt qu s) : KeptOut pt qu (execSlqModify f s) := by
  simp +contextual (maxDischargeDepth := 200) only [execSlqModify, implies_true, ↓keeps_flueRow, ↓keeps_slqModify, *]
theorem keeps_hrvModify (f : Nat) (x : Flue) (s : State) (h_s : Kept pt qu s) : Kept pt qu (hrvModify f x s).2.2 := by
  unfold hrvModify
  repeat' (first
    | (simp +contextual (maxDischargeDepth := 200) only [↓keeps_State_put, *]; done)
    | split
    | simp +contextual (maxDischargeDepth := 200) only [*]
    | intros)
theorem keeps2_hrvModify (f : Nat) (x : Flue) (s : State) : ∀ y, hrvModify f x s = y → Kept pt qu s → Kept pt qu y.2.2 := by
  rintro y rfl h_s; exact keeps_hrvModify f x s h_s
theorem keeps_execHrvModify (f : Nat) (s : State) (h_s : Kept pt qu s) : KeptOut pt qu (execHrvModify f s) := by
  simp +contextual (maxDischargeDepth := 200) only [execHrvModify, implies_true, ↓keeps_flueRow, ↓keeps_hrvModify, *]
theorem keeps_execSetHalt (f : Nat) (s : State) (h_s : Kept pt qu s) : KeptOut pt qu (execSetHalt f s) := by
  unfold execSetHalt
  repeat' (first
    | (simp +contextual (maxDischargeDepth := 200) only [implies_true, ↓keeps_flueRow, ↓keeps_setHalt, *]; done)
    | split
    | intros)
theorem keeps_dropMirrors (s : State) (h_s : Kept pt qu s) : Kept pt qu (dropMirrors s).2 := by
  simp +contextual (maxDischargeDepth := 200) only [dropMirrors, ↓kept_mk, ↓kept_back, ↓kept_fold, implies_true, ↓keeps_dramWrite, ↓keeps_budget, *]
theorem keeps2_dropMirrors (s : State) : ∀ y, dropMirrors s = y → Kept pt qu s → Kept pt qu y.2 := by
  rintro y rfl h_s; exact keeps_dropMirrors s h_s
theorem keeps3_dropMirrors (s : State) (a y) (e : dropMirrors s = (a, y)) (h_s : Kept pt qu s) : Kept pt qu y := keeps2_dropMirrors s (a, y) e h_s
theorem keeps_execMirrorDrop (f : Nat) (s : State) (h_s : Kept pt qu s) : KeptOut pt qu (execMirrorDrop f s) := by
  unfold execMirrorDrop
  repeat' (first
    | (simp +contextual (maxDischargeDepth := 200) only [implies_true, ↓keeps_flueRow, ↓keeps_dropMirrors, *]; done)
    | split
    | (intro y hy; first | (cases hy; done) | (obtain rfl := Option.some.inj hy))
    | apply keeps_flueRow
    | simp +contextual (maxDischargeDepth := 200) only [*]
    | intros)
theorem keeps_setFlue (g : Nat) (x : Flue) (en : Bool) (s : State) (h_s : Kept pt qu s) : Kept pt qu (setFlue g x en s) := by
  simp only [setFlue, ↓keeps_State_putFlag, ↓keeps_State_modFlue, *]
theorem keeps_flueCfg (f : Nat) (x : Flue) (s : State) (h_s : Kept pt qu s) : Kept pt qu (flueCfg f x s).2.2 := by
  unfold flueCfg
  repeat' (first
    | (simp +contextual (maxDischargeDepth := 200) only [↓keeps_setFlue, *]; done)
    | split
    | simp +contextual (maxDischargeDepth := 200) only [*]
    | intros)
theorem keeps2_flueCfg (f : Nat) (x : Flue) (s : State) : ∀ y, flueCfg f x s = y → Kept pt qu s → Kept pt qu y.2.2 := by
  rintro y rfl h_s; exact keeps_flueCfg f x s h_s
theorem keeps_execFlueCfg (f : Nat) (s : State) (h_s : Kept pt qu s) : KeptOut pt qu (execFlueCfg f s) := by
  simp +contextual (maxDischargeDepth := 200) only [execFlueCfg, implies_true, ↓keeps_flueRow, ↓keeps_flueCfg, *]
theorem keeps_lunStep (f : Nat) (n : Nat) (s : State) (h_s : Kept pt qu s) : Kept pt qu (lunStep f n s) := by
  simp only [lunStep, ↓keeps_State_modFlue, *]
theorem keeps_lunJobs (f : Nat) (x : Flue) (write : Bool) (data : List Byte) (len : Nat) (s : State) (h_s : Kept pt qu s) : Kept pt qu (lunJobs f x write data len s) := by
  simp +contextual (maxDischargeDepth := 200) only [lunJobs, ↓kept_fold, implies_true, ↓keeps_State_nextPort, ↓keeps_State_queueJob, ↓keeps_State_modFlue, *]
theorem keeps_lunDone (f : Nat) (st : Nat) (feats : List Byte) (code : Nat) (status : Nat) (s : State) (h_s : Kept pt qu s) : Kept pt qu (lunDone f st feats code status s) := by
  simp only [lunDone, ↓keeps_flueDone, *]
theorem keeps_lunRow (f : Nat) (t : Nat) (start : Flue → State → State) (next : Flue → Nat → Nat × Nat × List Byte → State → State) (s : State) (h_start : ∀ (y0 : Flue) (y1 : State), Kept pt qu y1 → Kept pt qu (start y0 y1)) (h_next : ∀ (y0 : Flue) (y1 : Nat) (y2 : Nat × Nat × List Byte) (y3 : State), Kept pt qu y3 → Kept pt qu (next y0 y1 y2 y3)) (h_s : Kept pt qu s) : KeptOut pt qu (lunRow f t start next s) := by
  unfold lunRow
  repeat' (first
    | (simp +contextual (maxDischargeDepth := 200) only [↓keeps_flueDone, ↓keeps_onlyIf, *]; done)
    | split
    | simp +contextual (maxDischargeDepth := 200) only [*]
    | intros)
theorem keeps_execLunOpOtpRead (f : Nat) (s : State) (h_s : Kept pt qu s) : KeptOut pt qu (execLunOpOtpRead f s) := by
  simp +contextual (maxDischargeDepth := 200) only [execLunOpOtpRead, ↓kept_ite, implies_true, ↓keeps_lunDone, ↓keeps_lunStep, ↓keeps_lunJobs, ↓keeps_lunRow, ↓keeps_enqueue, ↓keeps_State_modFlue, *]
theorem keeps_execLunOpOtpProg (f : Nat) (s : State) (h_s : Kept pt qu s) : KeptOut pt qu (execLunOpOtpProg f s) := by
  simp +contextual (maxDischargeDepth := 200) only [execLunOpOtpProg, ↓kept_ite, implies_true, ↓keeps_flueDone, ↓keeps_lunDone, ↓keeps_lunStep, ↓keeps_lunJobs, ↓keeps_lunRow, ↓keeps_enqueue, ↓keeps_State_modFlue, *]
theorem keeps_execLunOpGetFeat (f : Nat) (s : State) (h_s : Kept pt qu s) : KeptOut pt qu (execLunOpGetFeat f s) := by
  simp +contextual (maxDischargeDepth := 200) only [execLunOpGetFeat, implies_true, ↓keeps_lunDone, ↓keeps_lunStep, ↓keeps_lunRow, ↓keeps_enqueue, *]
theorem keeps_execLunOpSetFeat (f : Nat) (s : State) (h_s : Kept pt qu s) : KeptOut pt qu (execLunOpSetFeat f s) := by
  simp +contextual (maxDischargeDepth := 200) only [execLunOpSetFeat, implies_true, ↓keeps_lunDone, ↓keeps_lunStep, ↓keeps_lunRow, ↓keeps_enqueue, *]
theorem keeps_lunDataDone (f : Nat) (at_ : Nat) (buf : List Byte) (s : State) (h_s : Kept pt qu s) : Kept pt qu (lunDataDone f at_ buf s) := by
  simp only [lunDataDone, ↓keeps_State_modFlue, *]
theorem keeps_lunDataFault (f : Nat) (s : State) (h_s : Kept pt qu s) : Kept pt qu (lunDataFault f s) := by
  simp only [lunDataFault, ↓keeps_State_modFlue, *]

theorem keeps_delivered (rtag : Nat) (i : Nat) (s : State) (h_s : Kept pt qu s) : Kept pt qu (delivered rtag i s) := by
  simp only [delivered, ↓keeps_requestCheck, ↓keeps_State_modTile, *]
theorem keeps_panReadDone (slot : Nat) (buf : Tab Byte) (s : State) (h_s : Kept pt qu s) : Kept pt qu (panReadDone slot buf s) := by
  simp +contextual (maxDischargeDepth := 200) only [panReadDone, ↓kept_ite, ↓keeps_destageRead, ↓keeps_leaveQueue, ↓keeps_flushOwn, *]
theorem keeps_leaveTodo (slot : Nat) (s : State) (h_s : Kept pt qu s) : Kept pt qu (leaveTodo slot s) := by
  simp only [leaveTodo, ↓kept_mk, ↓kept_back, *]
theorem keeps_handoffDone (slot : Nat) (buf : Tab Byte) (s : State) (h_s : Kept pt qu s) : Kept pt qu (handoffDone slot buf s) := by
  simp +contextual (maxDischargeDepth := 200) only [handoffDone, ↓kept_ite, ↓keeps_State_modPan, ↓keeps_resend, ↓keeps_leaveTodo, *]
theorem keeps_reconDone (j : Job) (slot : Nat) (buf : Tab Byte) (s : State) (h_s : Kept pt qu s) : Kept pt qu (reconDone j slot buf s) := by
  unfold reconDone
  repeat' (first
    | (simp +contextual (maxDischargeDepth := 200) only [↓kept_ite, ↓keeps_State_modPan, ↓keeps_leaveTodo, ↓keeps_raiseTiles, ↓keeps_releaseMirror, *]; done)
    | split
    | intros)
theorem keeps_jobDone (j : Job) (buf : Tab Byte) (s : State) (h_s : Kept pt qu s) : Kept pt qu (jobDone j buf s) := by
  unfold jobDone
  repeat' (first
    | (simp +contextual (maxDischargeDepth := 200) only [↓keeps_State_modRq, ↓keeps_ownCommitted, ↓keeps_flushMir, ↓keeps_tileOutcome, ↓keeps_handoffDone, ↓keeps_panReadDone, ↓keeps_reconDone, ↓keeps_delivered, ↓keeps_relocJobDone, ↓keeps_requestCheck, ↓keeps_lunDataDone, ↓keeps_mirrorCommitted, *]; done)
    | split
    | intros)
theorem keeps_endPartner (p : JobPath) (s : State) (h_s : Kept pt qu s) : Kept pt qu (endPartner p s) := by
  simp +contextual (maxDischargeDepth := 200) only [endPartner, ↓kept_mk, ↓kept_back, ↓kept_fold, implies_true, ↓keeps_markFault, *]
theorem keeps_commitUnread (r : Nat) (i : Nat) (slot : Nat) (s : State) (h_s : Kept pt qu s) : Kept pt qu (commitUnread r i slot s) := by
  unfold commitUnread
  repeat' (first
    | (simp +contextual (maxDischargeDepth := 200) only [↓kept_mk, ↓kept_back, ↓kept_ite, ↓keeps_requestCheck, ↓keeps_State_delPan, ↓keeps_endPartner, ↓keeps_State_modTile, *]; done)
    | split
    | simp +contextual (maxDischargeDepth := 200) only [*]
    | intros)
theorem keeps_withhold (slot : Nat) (s : State) (h_s : Kept pt qu s) : Kept pt qu (withhold slot s) := by
  simp only [withhold, ↓keeps_State_modPan, *]
theorem keeps_commitSlotFault (j : Job) (r : Nat) (i : Nat) (slot : Nat) (s : State) (h_s : Kept pt qu s) : Kept pt qu (commitSlotFault j r i slot s) := by
  unfold commitSlotFault
  repeat' (first
    | (simp +contextual (maxDischargeDepth := 200) only [↓kept_ite, ↓keeps_startCommit, ↓keeps_withhold, ↓keeps_State_bank, ↓keeps_requestCheck, ↓keeps_endPartner, ↓keeps_State_modTile, ↓keeps_State_putPan, *]; done)
    | split
    | simp +contextual (maxDischargeDepth := 200) only [*]
    | intros)
theorem keeps_handoffFault (j : Job) (slot : Nat) (buf : List Byte) (s : State) (h_s : Kept pt qu s) : Kept pt qu (handoffFault j slot buf s) := by
  unfold handoffFault
  repeat' (first
    | (simp +contextual (maxDischargeDepth := 200) only [↓kept_mk, ↓kept_back, ↓kept_ite, ↓keeps_handoffJob, ↓keeps_withhold, ↓keeps_State_queueJob, ↓keeps_State_bank, ↓keeps_State_putPan, *]; done)
    | split
    | simp +contextual (maxDischargeDepth := 200) only [*]
    | intros)
theorem keeps_flushUnread (mirror : Bool) (slot : Nat) (code : Nat) (s : State) (h_s : Kept pt qu s) : Kept pt qu (flushUnread mirror slot code s) := by
  unfold flushUnread
  repeat' (first
    | (simp +contextual (maxDischargeDepth := 200) only [↓keeps_poisonSlot, ↓keeps_takePlan, ↓keeps_flushMember, *]; done)
    | split
    | simp +contextual (maxDischargeDepth := 200) only [*]
    | intros)
theorem keeps_panReadFault (slot : Nat) (code : Nat) (s : State) (h_s : Kept pt qu s) : Kept pt qu (panReadFault slot code s) := by
  simp +contextual (maxDischargeDepth := 200) only [panReadFault, ↓kept_ite, ↓keeps_flushUnread, ↓keeps_panDataErr, ↓keeps_leaveQueue, *]
theorem keeps_repeatOnce (j : Job) (s : State) (h_s : Kept pt qu s) : Kept pt qu (repeatOnce j s) := by
  simp only [repeatOnce, ↓kept_ite, ↓keeps_State_queueJob, *]
theorem keeps_jobFault (j : Job) (code : Nat) (s : State) (h_s : Kept pt qu s) : Kept pt qu (jobFault j code s) := by
  unfold jobFault
  repeat' (first
    | (simp +contextual (maxDischargeDepth := 200) only [↓kept_ite, ↓keeps_relocFault, ↓keeps_State_modRq, ↓keeps_poisonSlot, ↓keeps_lunDataFault, ↓keeps_flushUnread, ↓keeps_handoffFault, ↓keeps_commitUnread, ↓keeps_tileOutcome, ↓keeps_delivered, ↓keeps_leaveTodo, ↓keeps_panDataErr, ↓keeps_repeatOnce, ↓keeps_requestCheck, ↓keeps_twinLost, ↓keeps_panReadFault, ↓keeps_State_modTile, ↓keeps_commitSlotFault, *]; done)
    | split
    | intros)

theorem keeps_moverFault (m : Nat) (c : Nat) (code : Nat) (instr : Nat) (q : Option MReq) (s : State) (h_s : Kept pt qu s) : Kept pt qu (moverFault m c code instr q s) := by
  unfold moverFault
  repeat' (first
    | (simp +contextual (maxDischargeDepth := 200) only [↓kept_ite, ↓keeps_jobFault, ↓keeps_markFault, *]; done)
    | split
    | intros)
theorem keeps_moverCheck (m : Nat) (c : Nat) (s : State) (h_s : Kept pt qu s) : Kept pt qu (moverCheck m c s) := by
  unfold moverCheck
  repeat' (first
    | (simp +contextual (maxDischargeDepth := 200) only [↓kept_ite, ↓keeps_jobDone, ↓keeps_State_edge, ↓keeps_State_freeCtx, ↓keeps_State_put, ↓keeps_State_inc, *]; done)
    | split
    | intros)
theorem keeps_drainEnd (m : Nat) (s : State) (h_s : Kept pt qu s) : Kept pt qu (drainEnd m s) := by
  simp +contextual (maxDischargeDepth := 200) only [drainEnd, ↓kept_mk, ↓kept_back, ↓kept_ite, ↓keeps_State_putFlag, ↓keeps_State_put, *]
theorem keeps_moverResponse (m : Nat) (c : Nat) (n : Nat) (code : RCode) (data : List Byte) (s : State) (h_s : Kept pt qu s) : Kept pt qu (moverResponse m c n code data s) := by
  unfold moverResponse
  repeat' (first
    | (simp +contextual (maxDischargeDepth := 200) only [↓kept_ite, ↓keeps_State_deliverTee, ↓keeps_drainEnd, ↓keeps_moverCheck, ↓keeps_moverFault, ↓keeps_State_put, ↓keeps_State_setCtx, *]; done)
    | split
    | intros)
theorem keeps_execMoverJobStart (m : Nat) (c : Nat) (s : State) (h_s : Kept pt qu s) : KeptOut pt qu (execMoverJobStart m c s) := by
  unfold execMoverJobStart
  repeat' (first
    | (simp +contextual (maxDischargeDepth := 200) only [↓kept_mk, ↓kept_back, ↓keptOut_next, ↓keeps_onlyIf, ↓keeps_State_put, ↓keeps_State_setCtx, *]; done)
    | split
    | intros)
theorem keeps_belRow (m : Nat) (c : Nat) (mine : BelInstr → Bool) (run : Ctx → State → State) (s : State) (h_run : ∀ (y0 : Ctx) (y1 : State), Kept pt qu y1 → Kept pt qu (run y0 y1)) (h_s : Kept pt qu s) : KeptOut pt qu (belRow m c mine run s) := by
  unfold belRow
  repeat' (first
    | (simp +contextual (maxDischargeDepth := 200) only [↓keptOut_next, ↓keeps_moverCheck, ↓keeps_onlyIf, ↓keeps_moverFault, *]; done)
    | split
    | intros)
theorem keeps_runMove (m : Nat) (c : Nat) (x : Ctx) (s : State) (h_s : Kept pt qu s) : Kept pt qu (runMove m c x s) := by
  unfold runMove
  repeat' (first
    | (simp +contextual (maxDischargeDepth := 200) only [↓keeps_State_setCtx, *]; done)
    | split
    | simp +contextual (maxDischargeDepth := 200) only [*]
    | intros)
theorem keeps_execBelMove (m : Nat) (c : Nat) (s : State) (h_s : Kept pt qu s) : KeptOut pt qu (execBelMove m c s) := by
  simp +contextual (maxDischargeDepth := 200) only [execBelMove, implies_true, ↓keeps_runMove, ↓keeps_belRow, *]
theorem keeps_runGather (m : Nat) (c : Nat) (x : Ctx) (s : State) (h_s : Kept pt qu s) : Kept pt qu (runGather m c x s) := by
  unfold runGather
  repeat' (first
    | (simp +contextual (maxDischargeDepth := 200) only [↓kept_ite, ↓keeps_moverFault, ↓keeps_State_setCtx, *]; done)
    | split
    | simp +contextual (maxDischargeDepth := 200) only [*]
    | intros)
theorem keeps_execBelGather (m : Nat) (c : Nat) (s : State) (h_s : Kept pt qu s) : KeptOut pt qu (execBelGather m c s) := by
  simp +contextual (maxDischargeDepth := 200) only [execBelGather, implies_true, ↓keeps_belRow, ↓keeps_runGather, *]
theorem keeps_advance (s : State) (m : Nat) (c : Nat) (x : Ctx) (n : Nat) (astride : Nat) (bstride : Nat) (h_s : Kept pt qu s) : Kept pt qu (advance s m c x n astride bstride) := by
  simp +contextual (maxDischargeDepth := 200) only [advance, ↓kept_ite, ↓keeps_State_put, ↓keeps_State_setCtx, *]
theorem keeps_showLc (m : Nat) (lc : Nat) (n : Nat) (s : State) (h_s : Kept pt qu s) : Kept pt qu (showLc m lc n s) := by
  simp only [showLc, ↓kept_ite, ↓keeps_State_put, *]
theorem keeps_runLoop (m : Nat) (c : Nat) (x : Ctx) (s : State) (h_s : Kept pt qu s) : Kept pt qu (runLoop m c x s) := by
  unfold runLoop
  repeat' (first
    | (simp +contextual (maxDischargeDepth := 200) only [↓kept_ite, ↓keeps_advance, ↓keeps_showLc, ↓keeps_State_setCtx, *]; done)
    | split
    | simp +contextual (maxDischargeDepth := 200) only [*]
    | intros)
theorem keeps_execBelLoop (m : Nat) (c : Nat) (s : State) (h_s : Kept pt qu s) : KeptOut pt qu (execBelLoop m c s) := by
  simp +contextual (maxDischargeDepth := 200) only [execBelLoop, implies_true, ↓keeps_runLoop, ↓keeps_belRow, *]
theorem keeps_runWait (m : Nat) (c : Nat) (holds : Ctx → State → Bool) (done : State → State) (x : Ctx) (s : State) (h_done : ∀ (y0 : State), Kept pt qu y0 → Kept pt qu (done y0)) (h_s : Kept pt qu s) : Kept pt qu (runWait m c holds done x s) := by
  simp +contextual (maxDischargeDepth := 200) only [runWait, ↓kept_ite, ↓keeps_State_setCtx, *]
theorem keeps_execBelWaitResp (m : Nat) (c : Nat) (s : State) (h_s : Kept pt qu s) : KeptOut pt qu (execBelWaitResp m c s) := by
  unfold execBelWaitResp
  repeat' (first
    | with_reducible assumption
    | with_reducible refine kept_fold (fun _ _ _ => ?_) ?_
    | with_reducible apply kept_ite
    | with_reducible apply keptOut_ite
    | with_reducible refine (keptOut_next _).mpr ?_
    | with_reducible apply kept_ite2
    | with_reducible apply kept_ite22
    | with_reducible apply kept_id
    | with_reducible refine kept_fold2 (fun _ _ _ => ?_) ?_
    | with_reducible apply keeps_runWait
    | with_reducible apply keeps_belRow
    | dsimp only
    | split
    | fail_if_no_progress (with_reducible apply kept_same)
    | intro _)
theorem keeps_execBelWaitFlag (m : Nat) (c : Nat) (s : State) (h_s : Kept pt qu s) : KeptOut pt qu (execBelWaitFlag m c s) := by
  simp +contextual (maxDischargeDepth := 200) only [execBelWaitFlag, implies_true, ↓keeps_runWait, ↓keeps_belRow, ↓keeps_State_clrBit, *]
theorem keeps_execBelWaitTime (m : Nat) (c : Nat) (s : State) (h_s : Kept pt qu s) : KeptOut pt qu (execBelWaitTime m c s) := by
  unfold execBelWaitTime
  repeat' (first
    | with_reducible assumption
    | with_reducible refine kept_fold (fun _ _ _ => ?_) ?_
    | with_reducible apply kept_ite
    | with_reducible apply keptOut_ite
    | with_reducible refine (keptOut_next _).mpr ?_
    | with_reducible apply kept_ite2
    | with_reducible apply kept_ite22
    | with_reducible apply kept_id
    | with_reducible refine kept_fold2 (fun _ _ _ => ?_) ?_
    | with_reducible apply keeps_runWait
    | with_reducible apply keeps_belRow
    | dsimp only
    | split
    | fail_if_no_progress (with_reducible apply kept_same)
    | intro _)
theorem keeps_execBelWaitTimeout (m : Nat) (c : Nat) (s : State) (h_s : Kept pt qu s) : KeptOut pt qu (execBelWaitTimeout m c s) := by
  unfold execBelWaitTimeout
  repeat' (first
    | (simp +contextual (maxDischargeDepth := 200) only [↓keptOut_next, ↓keeps_onlyIf, ↓keeps_moverFault, *]; done)
    | split
    | intros)
theorem keeps_runSignal (m : Nat) (c : Nat) (x : Ctx) (s : State) (h_s : Kept pt qu s) : Kept pt qu (runSignal m c x s) := by
  unfold runSignal
  repeat' (first
    | (simp +contextual (maxDischargeDepth := 200) only [↓keeps_State_setCtx, *]; done)
    | split
    | simp +contextual (maxDischargeDepth := 200) only [*]
    | intros)
theorem keeps_execBelSignalPosted (m : Nat) (c : Nat) (s : State) (h_s : Kept pt qu s) : KeptOut pt qu (execBelSignalPosted m c s) := by
  simp +contextual (maxDischargeDepth := 200) only [execBelSignalPosted, implies_true, ↓keeps_runSignal, ↓keeps_belRow, *]
theorem keeps_execBelSignalSealed (m : Nat) (c : Nat) (s : State) (h_s : Kept pt qu s) : KeptOut pt qu (execBelSignalSealed m c s) := by
  simp +contextual (maxDischargeDepth := 200) only [execBelSignalSealed, implies_true, ↓keeps_runSignal, ↓keeps_belRow, *]
theorem keeps_execBelSignalAtomic (m : Nat) (c : Nat) (s : State) (h_s : Kept pt qu s) : KeptOut pt qu (execBelSignalAtomic m c s) := by
  simp +contextual (maxDischargeDepth := 200) only [execBelSignalAtomic, implies_true, ↓keeps_runSignal, ↓keeps_belRow, *]
theorem keeps_execBelSignalSrc (m : Nat) (c : Nat) (s : State) (h_s : Kept pt qu s) : KeptOut pt qu (execBelSignalSrc m c s) := by
  simp +contextual (maxDischargeDepth := 200) only [execBelSignalSrc, implies_true, ↓keeps_State_edge, ↓keeps_belRow, ↓keeps_State_setCtx, *]
theorem keeps_execBelSignalFlag (m : Nat) (c : Nat) (s : State) (h_s : Kept pt qu s) : KeptOut pt qu (execBelSignalFlag m c s) := by
  simp +contextual (maxDischargeDepth := 200) only [execBelSignalFlag, implies_true, ↓keeps_State_setBit, ↓keeps_belRow, ↓keeps_State_setCtx, *]
theorem keeps_issueReq (m : Nat) (c : Nat) (x : Ctx) (q : MReq) (s : State) (h_s : Kept pt qu s) : Kept pt qu (issueReq m c x q s) := by
  simp +contextual (maxDischargeDepth := 200) only [issueReq, ↓kept_ite, ↓keeps_moverCheck, ↓keeps_State_issue, ↓keeps_moverFault, ↓keeps_State_setCtx, *]
theorem keeps_execMoverRequestSlot (port : Nat) (s : State) (h_s : Kept pt qu s) : KeptOut pt qu (execMoverRequestSlot port s) := by
  unfold execMoverRequestSlot
  repeat' (first
    | (simp +contextual (maxDischargeDepth := 200) only [↓keptOut_next, ↓keeps_onlyIf, ↓keeps_issueReq, *]; done)
    | split
    | intros)
theorem keeps_blurMover (m : Nat) (s : State) (h_s : Kept pt qu s) : Kept pt qu (blurMover m s) := by
  simp +contextual (maxDischargeDepth := 200) only [blurMover, ↓kept_mk, ↓kept_back, ↓kept_ite, ↓keeps_State_setReg, ↓keeps_State_fresh, ↓keeps_State_put, ↓keeps_State_blurBuf, *]
theorem keeps_dropJob (m : Nat) (x : Ctx) (s : State) (h_s : Kept pt qu s) : Kept pt qu (dropJob m x s) := by
  simp +contextual (maxDischargeDepth := 200) only [dropJob, ↓kept_ite, ↓keeps_jobFault, ↓keeps_faultSource, ↓keeps_faultRegs, *]
theorem keeps_dropJobs (m : Nat) (s : State) (h_s : Kept pt qu s) : Kept pt qu (dropJobs m s) := by
  simp +contextual (maxDischargeDepth := 200) only [dropJobs, ↓kept_mk, ↓kept_back, ↓kept_fold, implies_true, ↓keeps_blurMover, ↓keeps_State_put, ↓keeps_dropJob, *]
theorem keeps_belCtlWrite (r : Req) (m : Nat) (w : Word) (s : State) (h_s : Kept pt qu s) : Kept pt qu (belCtlWrite r m w s) := by
  simp +contextual (maxDischargeDepth := 200) only [belCtlWrite, ↓kept_mk, ↓kept_back, ↓kept_ite, ↓keeps_State_putFlag, ↓keeps_dropJobs, ↓keeps_State_setCtx, *]
theorem keeps_execBelPauseWrite (r : Req) (m : Nat) (w : Word) (s : State) (h_s : Kept pt qu s) : KeptOut pt qu (execBelPauseWrite r m w s) := by
  simp +contextual (maxDischargeDepth := 200) only [execBelPauseWrite, implies_true, ↓keeps_regWrite, ↓keeps_onlyIf, ↓keeps_belCtlWrite, *]
theorem keeps_execBelDisable (r : Req) (m : Nat) (w : Word) (s : State) (h_s : Kept pt qu s) : KeptOut pt qu (execBelDisable r m w s) := by
  simp +contextual (maxDischargeDepth := 200) only [execBelDisable, implies_true, ↓keeps_regWrite, ↓keeps_onlyIf, ↓keeps_belCtlWrite, *]
theorem keeps_execBelGo (r : Req) (m : Nat) (w : Word) (s : State) (h_s : Kept pt qu s) : KeptOut pt qu (execBelGo r m w s) := by
  simp +contextual (maxDischargeDepth := 200) only [execBelGo, implies_true, ↓keeps_regWrite, ↓keeps_onlyIf, ↓keeps_belCtlWrite, *]
theorem keeps_belRegWrite (k : RegKind) (i : Nat) (w : Word) (s : State) (h_s : Kept pt qu s) : Kept pt qu (belRegWrite k i w s) := by
  unfold belRegWrite
  repeat' (first
    | (simp +contextual (maxDischargeDepth := 200) only [↓kept_ite, ↓keeps_State_plainWrite, *]; done)
    | split
    | intros)

theorem keeps_startPairing (s : State) (h_s : Kept pt qu s) : Kept pt qu (startPairing s) := by
  simp only [startPairing, ↓keeps_State_fresh, ↓keeps_State_modTwin, *]
theorem keeps_mailboxWrite (ofs : Nat) (data : List Byte) (x : TwinSec) (s : State) (h_s : Kept pt qu s) : Kept pt qu (mailboxWrite ofs data x s) := by
  simp only [mailboxWrite, ↓keeps_State_nextPort, ↓keeps_State_queueJob, *]
theorem keeps_boxRead (addr : Nat) (len : Nat) (hb : Bool) (s : State) (h_s : Kept pt qu s) : Kept pt qu (boxRead addr len hb s) := by
  simp only [boxRead, ↓keeps_lineRead, *]
theorem keeps_execPairingRecordSend (s : State) (h_s : Kept pt qu s) : KeptOut pt qu (execPairingRecordSend s) := by
  unfold execPairingRecordSend
  repeat' (first
    | (simp +contextual (maxDischargeDepth := 200) only [↓kept_ite, ↓keptOut_next, ↓keeps_onlyIf, ↓keeps_boxRead, ↓keeps_mailboxWrite, ↓keeps_startPairing, ↓keeps_State_modTwin, *]; done)
    | split
    | intros)
theorem keeps_pairHeld (x : TwinSec) (b : List Byte) (s : State) (h_s : Kept pt qu s) : Kept pt qu (pairHeld x b s) := by
  simp +contextual (maxDischargeDepth := 200) only [pairHeld, ↓kept_ite, ↓keeps_State_put, ↓keeps_State_modTwin, ↓keeps_budget, *]
theorem keeps_recordRead (b : List Byte) (s : State) (h_s : Kept pt qu s) : Kept pt qu (recordRead b s) := by
  unfold recordRead
  repeat' (first
    | (simp +contextual (maxDischargeDepth := 200) only [↓kept_ite, ↓keeps_pairHeld, ↓keeps_State_logPacked, *]; done)
    | split
    | intros)
theorem keeps_execPairingTimeout (s : State) (h_s : Kept pt qu s) : KeptOut pt qu (execPairingTimeout s) := by
  simp +contextual (maxDischargeDepth := 200) only [execPairingTimeout, ↓keeps_onlyIf, ↓keeps_State_put, ↓keeps_State_modTwin, ↓keeps_budget, *]
theorem keeps_execPairingRetry (s : State) (h_s : Kept pt qu s) : KeptOut pt qu (execPairingRetry s) := by
  simp +contextual (maxDischargeDepth := 200) only [execPairingRetry, ↓keeps_onlyIf, ↓keeps_startPairing, ↓keeps_State_modTwin, *]
theorem keeps_execHeartbeatSend (s : State) (h_s : Kept pt qu s) : KeptOut pt qu (execHeartbeatSend s) := by
  unfold execHeartbeatSend
  repeat' (first
    | (simp +contextual (maxDischargeDepth := 200) only [↓keptOut_next, ↓keeps_onlyIf, ↓keeps_boxRead, ↓keeps_mailboxWrite, ↓keeps_State_modTwin, *]; done)
    | split
    | intros)
theorem keeps_heartbeatRead (b : List Byte) (s : State) (h_s : Kept pt qu s) : Kept pt qu (heartbeatRead b s) := by
  unfold heartbeatRead
  repeat' (first
    | (simp +contextual (maxDischargeDepth := 200) only [↓kept_ite, ↓keeps_State_modTwin, *]; done)
    | split
    | intros)
theorem keeps_mailboxRead (hb : Bool) (data : List Byte) (s : State) (h_s : Kept pt qu s) : Kept pt qu (mailboxRead hb data s) := by
  simp only [mailboxRead, ↓kept_ite, ↓keeps_recordRead, ↓keeps_heartbeatRead, *]
theorem keeps_execPairingRecordReceived (data : List Byte) (s : State) (h_s : Kept pt qu s) : KeptOut pt qu (execPairingRecordReceived data s) := by
  unfold execPairingRecordReceived
  repeat' (first
    | ((try have hx_takeOutst := keeps_takeOutst _ _ _ ‹takeOutst _ _ = some _› (by first | assumption | (simp +contextual (maxDischargeDepth := 200) only [↓kept_mk, ↓kept_back, ↓kept_ite2, ↓kept_ite, ↓keptOut_ite, ↓kept_fold, ↓kept_fold2, ↓keptOut_next, ↓keptOut_fault, ↓keptParts_set, implies_true, forall_const, reduceCtorEq, false_implies, Option.some.injEq, forall_eq, forall_eq', ↓keeps_recordRead, ↓keeps_onlyIf, ↓keeps_releaseHeld, *]; done))); simp +contextual (maxDischargeDepth := 200) only [↓keptOut_next, ↓keeps_recordRead, ↓keeps_onlyIf, ↓keeps_releaseHeld, *]; done)
    | split
    | (intro y hy; first | (cases hy; done) | (obtain rfl := Option.some.inj hy))
    | simp +contextual (maxDischargeDepth := 200) only [↓kept_mk, ↓kept_back, ↓kept_ite2, ↓kept_ite, ↓keptOut_ite, ↓kept_fold, ↓kept_fold2, ↓keptOut_next, ↓keptOut_fault, ↓keptParts_set, implies_true, forall_const, reduceCtorEq, false_implies, Option.some.injEq, forall_eq, forall_eq', ↓keeps_recordRead, ↓keeps_onlyIf, ↓keeps_releaseHeld, *]
    | intros)
theorem keeps_execHeartbeatReceived (data : List Byte) (s : State) (h_s : Kept pt qu s) : KeptOut pt qu (execHeartbeatReceived data s) := by
  unfold execHeartbeatReceived
  repeat' (first
    | ((try have hx_takeOutst := keeps_takeOutst _ _ _ ‹takeOutst _ _ = some _› (by first | assumption | (simp +contextual (maxDischargeDepth := 200) only [↓kept_mk, ↓kept_back, ↓kept_ite2, ↓kept_ite, ↓keptOut_ite, ↓kept_fold, ↓kept_fold2, ↓keptOut_next, ↓keptOut_fault, ↓keptParts_set, implies_true, forall_const, reduceCtorEq, false_implies, Option.some.injEq, forall_eq, forall_eq', ↓keeps_onlyIf, ↓keeps_heartbeatRead, ↓keeps_releaseHeld, *]; done))); simp +contextual (maxDischargeDepth := 200) only [↓keptOut_next, ↓keeps_onlyIf, ↓keeps_heartbeatRead, ↓keeps_releaseHeld, *]; done)
    | split
    | (intro y hy; first | (cases hy; done) | (obtain rfl := Option.some.inj hy))
    | simp +contextual (maxDischargeDepth := 200) only [↓kept_mk, ↓kept_back, ↓kept_ite2, ↓kept_ite, ↓keptOut_ite, ↓kept_fold, ↓kept_fold2, ↓keptOut_next, ↓keptOut_fault, ↓keptParts_set, implies_true, forall_const, reduceCtorEq, false_implies, Option.some.injEq, forall_eq, forall_eq', ↓keeps_onlyIf, ↓keeps_heartbeatRead, ↓keeps_releaseHeld, *]
    | intros)
theorem keeps_execHeartbeatLoss (s : State) (h_s : Kept pt qu s) : KeptOut pt qu (execHeartbeatLoss s) := by
  unfold execHeartbeatLoss
  repeat' (first
    | (simp +contextual (maxDischargeDepth := 200) only [↓kept_ite, ↓keptOut_next, ↓keeps_onlyIf, ↓keeps_twinLost, ↓keeps_State_modTwin, *]; done)
    | split
    | intros)
theorem keeps_reconOwn (ds : List MirDesc) (s : State) (e : Nat × Pan) (h_s : Kept pt qu s) : Kept pt qu (reconOwn ds s e) := by
  unfold reconOwn
  repeat' (first
    | (simp +contextual (maxDischargeDepth := 200) only [↓keeps_State_modPan, ↓keeps_resend, *]; done)
    | split
    | intros)
theorem keeps_reconMirror (own : Tab Pan) (s : State) (d : MirDesc) (h_s : Kept pt qu s) : Kept pt qu (reconMirror own s d) := by
  simp +contextual (maxDischargeDepth := 200) only [reconMirror, ↓kept_ite, ↓keeps_letGo, ↓keeps_probeLookup, ↓keeps_State_modTwin, *]
theorem keeps_reconSteps (s : State) (h_s : Kept pt qu s) : Kept pt qu (reconSteps s) := by
  simp +contextual (maxDischargeDepth := 200) only [reconSteps, ↓kept_fold, implies_true, ↓keeps_reconOwn, ↓keeps_reconMirror, ↓keeps_State_modTwin, *]
theorem keeps_descAnswered (slot : Nat) (code : RCode) (data : List Byte) (s : State) (h_s : Kept pt qu s) : Kept pt qu (descAnswered slot code data s) := by
  simp +contextual (maxDischargeDepth := 200) only [descAnswered, ↓kept_ite, ↓keeps_reconSteps, ↓keeps_readDesc, ↓keeps_State_modTwin, *]
theorem keeps_execReconciliationStart (s : State) (h_s : Kept pt qu s) : KeptOut pt qu (execReconciliationStart s) := by
  simp +contextual (maxDischargeDepth := 200) only [execReconciliationStart, ↓kept_ite, ↓keeps_onlyIf, ↓keeps_reconSteps, ↓keeps_readDesc, ↓keeps_State_put, ↓keeps_State_modTwin, *]
theorem keeps_execReconciliationEnd (s : State) (h_s : Kept pt qu s) : KeptOut pt qu (execReconciliationEnd s) := by
  simp +contextual (maxDischargeDepth := 200) only [execReconciliationEnd, ↓keeps_onlyIf, ↓keeps_State_put, ↓keeps_budget, *]

theorem keeps_ckptPiece (mt : Nat) (addr : Nat) (code : RCode) (data : List Byte) (s : State) (h_s : Kept pt qu s) : Kept pt qu (ckptPiece mt addr code data s) := by
  unfold ckptPiece
  repeat' (first
    | (simp +contextual (maxDischargeDepth := 200) only [↓kept_mk, ↓kept_back, ↓kept_ite, ↓keeps_State_modDir, ↓keeps_markRepair, ↓keeps_tileForCkpt, ↓keeps_State_logPacked, *]; done)
    | split
    | intros)
theorem keeps_flueAnswered (f : Nat) (code : RCode) (s : State) (h_s : Kept pt qu s) : Kept pt qu (flueAnswered f code s) := by
  simp only [flueAnswered, ↓kept_ite, ↓keeps_State_edge, ↓keeps_State_logPacked, *]
theorem keeps_mapWritten (key : Nat) (code : RCode) (s : State) (h_s : Kept pt qu s) : Kept pt qu (mapWritten key code s) := by
  simp +contextual (maxDischargeDepth := 200) only [mapWritten, ↓kept_ite, ↓keeps_writeBackDone, ↓keeps_State_logPacked, *]
theorem keeps_parityAnswered (row : Nat) (q : FabReq) (code : RCode) (s : State) (h_s : Kept pt qu s) : Kept pt qu (parityAnswered row q code s) := by
  simp +contextual (maxDischargeDepth := 200) only [parityAnswered, ↓kept_ite, ↓keeps_parReadDone, ↓keeps_abandonRow, *]
theorem keeps_noteDram (p : Purpose) (code : RCode) (s : State) (h_s : Kept pt qu s) : Kept pt qu (noteDram p code s) := by
  simp only [noteDram, ↓kept_ite, ↓keeps_dramSeen, *]
theorem keeps_answer (o : Outst) (code : RCode) (data : List Byte) (s : State) (h_s : Kept pt qu s) : Kept pt qu (answer o code data s) := by
  unfold answer
  repeat' (first
    | (simp +contextual (maxDischargeDepth := 200) only [↓kept_ite, ↓keeps_noteDram, ↓keeps_descAnswered, ↓keeps_calLineRead, ↓keeps_fetched, ↓keeps_harvestResponse, ↓keeps_flueOwned, ↓keeps_ckptPiece, ↓keeps_tileLoaded, ↓keeps_mailboxRead, ↓keeps_gaugeFetched, ↓keeps_flueAnswered, ↓keeps_flueRead, ↓keeps_parityAnswered, ↓keeps_moverResponse, ↓keeps_State_logPacked, ↓keeps_fillDone, ↓keeps_walked, ↓keeps_lookedAhead, ↓keeps_mapWritten, *]; done)
    | split
    | intros)
theorem keeps_execOutboundResponse (port : Nat) (vc : Nat) (tag : Nat) (code : RCode) (data : List Byte) (s : State) (h_s : Kept pt qu s) : KeptOut pt qu (execOutboundResponse port vc tag code data s) := by
  unfold execOutboundResponse
  repeat' (first
    | (simp +contextual (maxDischargeDepth := 200) only [↓kept_mk, ↓kept_back, ↓keptOut_next, ↓keeps_onlyIf, ↓keeps_answer, ↓keeps_codeTaken, ↓keeps_releaseHeld, *]; done)
    | split
    | intros)
theorem keeps_execOutboundTimeout (port : Nat) (vc : Nat) (tag : Nat) (s : State) (h_s : Kept pt qu s) : KeptOut pt qu (execOutboundTimeout port vc tag s) := by
  unfold execOutboundTimeout
  repeat' (first
    | (simp +contextual (maxDischargeDepth := 200) only [↓kept_mk, ↓kept_back, ↓keptOut_next, ↓keeps_onlyIf, ↓keeps_answer, ↓keeps_State_logPacked, ↓keeps_releaseHeld, *]; done)
    | split
    | intros)
theorem keeps_execLateResponse (port : Nat) (vc : Nat) (tag : Nat) (s : State) (h_s : Kept pt qu s) : KeptOut pt qu (execLateResponse port vc tag s) := by
  unfold execLateResponse
  repeat' (first
    | (simp +contextual (maxDischargeDepth := 200) only [↓kept_mk, ↓kept_back, ↓keptOut_next, ↓keeps_onlyIf, ↓keeps_State_logEntry, *]; done)
    | split
    | intros)

end Sys2Proof.Machine
end

