-- ==== Sys2Proof/Laws/KeepsPower.lean ====
section
/-! SUPPORT. The definitions of the banked state, the draught engine, calibration and power keep the part, the queue and the invariant. -/

open Sys2Proof

set_option linter.unusedTactic false
set_option linter.unreachableTactic false
set_option linter.unusedVariables false

namespace Sys2Proof.Machine

variable {pt : Part} {qu : List Instr}

theorem keeps_bankRequest (q : Request) (s : State) (h_s : Kept pt qu s) : Kept pt qu (bankRequest q s) := by
  simp only [bankRequest, ↓keeps_State_setRq, ↓keeps_State_setRing, *]
theorem keeps_endUnstarted (c : Nat) (s : State) (h_s : Kept pt qu s) : Kept pt qu (endUnstarted c s) := by
  unfold endUnstarted
  repeat' (first
    | (simp +contextual (maxDischargeDepth := 200) only [↓kept_ite, ↓kept_fold, implies_true, ↓keeps_endSlot, ↓keeps_release_, *]; done)
    | split
    | simp +contextual (maxDischargeDepth := 200) only [*]
    | intros)
theorem keeps_bankMover (m : Nat) (s : State) (h_s : Kept pt qu s) : Kept pt qu (bankMover m s) := by
  simp +contextual (maxDischargeDepth := 200) only [bankMover, ↓kept_mk, ↓kept_back, ↓kept_ite, ↓keeps_State_putFlag, ↓keeps_dropJobs, *]
theorem keeps_bankFlue (f : Nat) (s : State) (h_s : Kept pt qu s) : Kept pt qu (bankFlue f s) := by
  simp only [bankFlue, ↓keeps_State_putFlag, ↓keeps_State_modFlue, *]
theorem keeps_execBankedEntry (s : State) (h_s : Kept pt qu s) : KeptOut pt qu (execBankedEntry s) := by
  simp +contextual (maxDischargeDepth := 200) only [execBankedEntry, ↓kept_mk, ↓kept_back, ↓kept_fold, implies_true, ↓keeps_bankRequest, ↓keeps_endUnstarted, ↓keeps_onlyIf, ↓keeps_State_put, ↓keeps_bankFlue, ↓keeps_bankMover, *]
theorem keeps_execBankedPins (c : Nat) (s : State) (h_s : Kept pt qu s) : KeptOut pt qu (execBankedPins c s) := by
  simp +contextual (maxDischargeDepth := 200) only [execBankedPins, ↓kept_ite, ↓keeps_onlyIf, ↓keeps_State_setChan, ↓keeps_State_putFlag, ↓keeps_State_put, ↓keeps_State_logPacked, *]
theorem keeps_bankReqWrite (w : Word) (s : State) (h_s : Kept pt qu s) : Kept pt qu (bankReqWrite w s) := by
  simp only [bankReqWrite, ↓kept_ite, ↓keeps_State_bank, *]
theorem keeps_execBankRequest (r : Req) (w : Word) (s : State) (h_s : Kept pt qu s) : KeptOut pt qu (execBankRequest r w s) := by
  simp +contextual (maxDischargeDepth := 200) only [execBankRequest, ↓keptOut_next, implies_true, ↓keeps_regWrite, ↓keeps_bankReqWrite, *]
theorem keeps_mapLineError (line : Nat) (s : State) (h_s : Kept pt qu s) : Kept pt qu (mapLineError line s) := by
  unfold mapLineError
  repeat' (first
    | (simp +contextual (maxDischargeDepth := 200) only [↓kept_ite, ↓keeps_markRepair, ↓keeps_State_delLine, *]; done)
    | split
    | intros)
theorem keeps_gaugeLineError (key : Nat) (s : State) (h_s : Kept pt qu s) : Kept pt qu (gaugeLineError key s) := by
  unfold gaugeLineError
  repeat' (first
    | (simp +contextual (maxDischargeDepth := 200) only [↓kept_mk, ↓kept_back, ↓keeps_dramWrite, *]; done)
    | split
    | intros)
theorem keeps_logStruck (i : Nat) (s : State) (h_s : Kept pt qu s) : Kept pt qu (logStruck i s) := by
  obtain ⟨a, b, c, d, e⟩ := h_s
  refine ⟨a, b, c, ?_, e⟩
  simpa [logStruck] using d
theorem keeps_execMemoryError (e : MemErr) (s : State) (h_s : Kept pt qu s) : KeptOut pt qu (execMemoryError e s) := by
  unfold execMemoryError
  repeat' (first
    | (simp +contextual (maxDischargeDepth := 200) only [↓keptOut_next, ↓keeps_hardDecoded, ↓keeps_abandonRow, ↓keeps_onlyIf, ↓keeps_State_bank, ↓keeps_contained, ↓keeps_moverFault, ↓keeps_mapLineError, ↓keeps_State_inc, ↓keeps_settleRds, ↓keeps_State_logPacked, ↓keeps_logStruck, ↓keeps_gaugeLineError, *]; done)
    | split
    | intros)
theorem keeps_restartRequest (rtag : Nat) (s : State) (h_s : Kept pt qu s) : Kept pt qu (restartRequest rtag s) := by
  unfold restartRequest
  repeat' (first
    | (simp +contextual (maxDischargeDepth := 200) only [↓kept_mk, ↓kept_back, ↓kept_ite, ↓kept_fold, implies_true, ↓keeps_State_modRq, ↓keeps_dropRd, ↓keeps_marginReads, *]; done)
    | split
    | simp +contextual (maxDischargeDepth := 200) only [*]
    | intros)
theorem keeps_execDeadlockBreak (waits : Nat) (holds : Nat) (s : State) (h_s : Kept pt qu s) : KeptOut pt qu (execDeadlockBreak waits holds s) := by
  unfold execDeadlockBreak
  repeat' (first
    | (simp +contextual (maxDischargeDepth := 200) only [↓kept_ite, ↓keptOut_next, ↓keeps_restartRequest, ↓keeps_State_setRq, ↓keeps_onlyIf, ↓keeps_State_bank, ↓keeps_State_inc, ↓keeps_State_logPacked, *]; done)
    | split
    | simp +contextual (maxDischargeDepth := 200) only [*]
    | intros)
theorem keeps_execLogMirrorCopy (s : State) (h_s : Kept pt qu s) : KeptOut pt qu (execLogMirrorCopy s) := by
  unfold execLogMirrorCopy
  repeat' (first
    | (simp +contextual (maxDischargeDepth := 200) only [↓kept_mk, ↓kept_back, ↓keptOut_next, ↓keeps_onlyIf, ↓keeps_State_queueJob, *]; done)
    | split
    | intros)

theorem keeps_State_setSense (s : State) (n : Nat) (x : Sense) (h_s : Kept pt qu s) : Kept pt qu (State.setSense s n x) := by
  simp only [State.setSense, ↓kept_mk, ↓kept_back, *]
theorem keeps_execSenseFrame (src : BitVec 6) (v : BitVec 16) (par : Bool) (s : State) (h_s : Kept pt qu s) : KeptOut pt qu (execSenseFrame src v par s) := by
  simp +contextual (maxDischargeDepth := 200) only [execSenseFrame, ↓kept_ite, ↓keeps_State_setSense, ↓keeps_State_inc, ↓keeps_onCore, ↓keeps_State_clrBit, *]
theorem keeps_execSourceStale (n : Nat) (s : State) (h_s : Kept pt qu s) : KeptOut pt qu (execSourceStale n s) := by
  simp +contextual (maxDischargeDepth := 200) only [execSourceStale, ↓keeps_State_setSense, ↓keeps_State_setBit, ↓keeps_onlyIf, *]
theorem keeps_execStaleReport (n : Nat) (s : State) (h_s : Kept pt qu s) : KeptOut pt qu (execStaleReport n s) := by
  unfold execStaleReport
  repeat' (first
    | (simp +contextual (maxDischargeDepth := 200) only [↓keptOut_next, ↓keeps_State_setSense, ↓keeps_onlyIf, ↓keeps_State_putFlag, ↓keeps_State_logPacked, *]; done)
    | split
    | simp +contextual (maxDischargeDepth := 200) only [*]
    | intros)
theorem keeps_State_setLoop (s : State) (n : Nat) (x : DLoop) (h_s : Kept pt qu s) : Kept pt qu (State.setLoop s n x) := by
  simp only [State.setLoop, ↓kept_mk, ↓kept_back, *]
theorem keeps_loadLoop (n : Nat) (s : State) (h_s : Kept pt qu s) : Kept pt qu (loadLoop n s) := by
  simp +contextual (maxDischargeDepth := 200) only [loadLoop, ↓keeps_State_setReg, ↓keeps_State_setLoop, *]
theorem keeps_loopCtlWrite (n : Nat) (w : Word) (s : State) (h_s : Kept pt qu s) : Kept pt qu (loopCtlWrite n w s) := by
  simp +contextual (maxDischargeDepth := 200) only [loopCtlWrite, ↓kept_ite, ↓keeps_State_setReg, ↓keeps_loadLoop, ↓keeps_State_putFlag, *]
theorem keeps_execLoopEnable (r : Req) (n : Nat) (w : Word) (s : State) (h_s : Kept pt qu s) : KeptOut pt qu (execLoopEnable r n w s) := by
  simp +contextual (maxDischargeDepth := 200) only [execLoopEnable, implies_true, ↓keeps_regWrite, ↓keeps_onlyIf, ↓keeps_loopCtlWrite, *]
theorem keeps_execLoopDisable (r : Req) (n : Nat) (w : Word) (s : State) (h_s : Kept pt qu s) : KeptOut pt qu (execLoopDisable r n w s) := by
  simp +contextual (maxDischargeDepth := 200) only [execLoopDisable, implies_true, ↓keeps_regWrite, ↓keeps_onlyIf, ↓keeps_loopCtlWrite, *]
theorem keeps_execLoopFreezeWrite (r : Req) (n : Nat) (w : Word) (s : State) (h_s : Kept pt qu s) : KeptOut pt qu (execLoopFreezeWrite r n w s) := by
  simp +contextual (maxDischargeDepth := 200) only [execLoopFreezeWrite, implies_true, ↓keeps_regWrite, ↓keeps_onlyIf, ↓keeps_loopCtlWrite, *]
theorem keeps_senseMean (n : Nat) (s : State) (h_s : Kept pt qu s) : Kept pt qu (senseMean n s).2 := by
  simp only [senseMean, ↓kept_ite2, ↓keeps_State_fresh, *]
theorem keeps2_senseMean (n : Nat) (s : State) : ∀ y, senseMean n s = y → Kept pt qu s → Kept pt qu y.2 := by
  rintro y rfl h_s; exact keeps_senseMean n s h_s
theorem keeps3_senseMean (n : Nat) (s : State) (a y) (e : senseMean n s = (a, y)) (h_s : Kept pt qu s) : Kept pt qu y := keeps2_senseMean n s (a, y) e h_s
theorem keeps_senseMeans (x0 : List Nat) (x1 : State) (h_x1 : Kept pt qu x1) : Kept pt qu (senseMeans x0 x1).2 := by
  induction x0 generalizing x1 with
  | nil => exact h_x1
  | cons a l ih => exact ih _ (keeps_senseMean _ _ h_x1)
theorem keeps2_senseMeans (x0 : List Nat) (x1 : State) : ∀ y, senseMeans x0 x1 = y → Kept pt qu x1 → Kept pt qu y.2 := by
  rintro y rfl h_x1; exact keeps_senseMeans x0 x1 h_x1
theorem keeps3_senseMeans (x0 : List Nat) (x1 : State) (a y) (e : senseMeans x0 x1 = (a, y)) (h_x1 : Kept pt qu x1) : Kept pt qu y := keeps2_senseMeans x0 x1 (a, y) e h_x1
theorem keeps_loopInput (n : Nat) (s : State) (h_s : Kept pt qu s) : Kept pt qu (loopInput n s).2 := by
  simp only [loopInput, ↓keeps_senseMeans, *]
theorem keeps2_loopInput (n : Nat) (s : State) : ∀ y, loopInput n s = y → Kept pt qu s → Kept pt qu y.2 := by
  rintro y rfl h_s; exact keeps_loopInput n s h_s
theorem keeps3_loopInput (n : Nat) (s : State) (a y) (e : loopInput n s = (a, y)) (h_s : Kept pt qu s) : Kept pt qu y := keeps2_loopInput n s (a, y) e h_s
theorem keeps_tickLoop (n : Nat) (s : State) (h_s : Kept pt qu s) : Kept pt qu (tickLoop n s) := by
  simp +contextual (maxDischargeDepth := 200) only [tickLoop, ↓kept_ite, ↓keeps_State_setReg, ↓keeps_loadLoop, ↓keeps_State_setLoop, ↓keeps_State_putFlag, ↓keeps_State_put, ↓keeps_loopInput, ↓keeps_State_inc, *]
theorem keeps_State_setBucket (s : State) (g : Nat) (x : Int) (h_s : Kept pt qu s) : Kept pt qu (State.setBucket s g x) := by
  simp only [State.setBucket, ↓kept_mk, ↓kept_back, *]
theorem keeps_refill (g : Nat) (s : State) (h_s : Kept pt qu s) : Kept pt qu (refill g s) := by
  simp only [refill, ↓kept_ite, ↓keeps_State_setBucket, *]
theorem keeps_admCfgWrite (w : Word) (s : State) (h_s : Kept pt qu s) : Kept pt qu (admCfgWrite w s) := by
  simp +contextual (maxDischargeDepth := 200) only [admCfgWrite, ↓kept_ite, ↓kept_fold, implies_true, ↓keeps_State_setBucket, ↓keeps_State_plainWrite, *]
theorem keeps_execBwMaxWrite (r : Req) (w : Word) (s : State) (h_s : Kept pt qu s) : KeptOut pt qu (execBwMaxWrite r w s) := by
  simp +contextual (maxDischargeDepth := 200) only [execBwMaxWrite, ↓keptOut_next, implies_true, ↓keeps_regWrite, ↓keeps_admCfgWrite, *]
theorem keeps_loadSeen (s : State) (h_s : Kept pt qu s) : Kept pt qu (loadSeen s) := by
  simp only [loadSeen, ↓kept_mk, ↓kept_back, *]
theorem keeps_execSampleTick (s : State) (h_s : Kept pt qu s) : KeptOut pt qu (execSampleTick s) := by
  simp +contextual (maxDischargeDepth := 200) only [execSampleTick, ↓kept_mk, ↓kept_back, ↓kept_fold, implies_true, ↓keeps_refill, ↓keeps_onlyIf, ↓keeps_tickLoop, ↓keeps_loadSeen, *]
theorem keeps_execAdmissionTakeEffect (s : State) (h_s : Kept pt qu s) : KeptOut pt qu (execAdmissionTakeEffect s) := by
  unfold execAdmissionTakeEffect
  repeat' (first
    | (simp +contextual (maxDischargeDepth := 200) only [↓kept_mk, ↓kept_back, ↓kept_fold, ↓keptOut_next, implies_true, ↓keeps_onlyIf, ↓keeps_State_put, *]; done)
    | split
    | intros)
theorem keeps_showStop (s : State) (h_s : Kept pt qu s) : Kept pt qu (showStop s) := by
  simp +contextual (maxDischargeDepth := 200) only [showStop, ↓kept_ite, ↓keeps_State_putFlag, ↓keeps_State_inc, ↓keeps_State_logPacked, *]
theorem keeps_latest (x0 : List Nat) (x1 : State) (h_x1 : Kept pt qu x1) : Kept pt qu (latest x0 x1).2 := by
  induction x0 generalizing x1 with
  | nil => exact h_x1
  | cons a l ih =>
    simp only [latest]
    split
    · exact ih _ h_x1
    · exact ih _ (keeps_State_fresh _ h_x1)
theorem keeps2_latest (x0 : List Nat) (x1 : State) : ∀ y, latest x0 x1 = y → Kept pt qu x1 → Kept pt qu y.2 := by
  rintro y rfl h_x1; exact keeps_latest x0 x1 h_x1
theorem keeps3_latest (x0 : List Nat) (x1 : State) (a y) (e : latest x0 x1 = (a, y)) (h_x1 : Kept pt qu x1) : Kept pt qu y := keeps2_latest x0 x1 (a, y) e h_x1
theorem keeps_execCeilingEvaluation (s : State) (h_s : Kept pt qu s) : KeptOut pt qu (execCeilingEvaluation s) := by
  simp +contextual (maxDischargeDepth := 200) only [execCeilingEvaluation, ↓kept_mk, ↓kept_back, ↓keeps_onlyIf, ↓keeps_showStop, ↓keeps_latest, *]
theorem keeps_drgCtlWrite (w : Word) (s : State) (h_s : Kept pt qu s) : Kept pt qu (drgCtlWrite w s) := by
  simp +contextual (maxDischargeDepth := 200) only [drgCtlWrite, ↓kept_mk, ↓kept_back, ↓kept_ite, ↓keeps_showStop, ↓keeps_State_plainWrite, *]
theorem keeps_execCeilEnWrite (r : Req) (w : Word) (s : State) (h_s : Kept pt qu s) : KeptOut pt qu (execCeilEnWrite r w s) := by
  simp +contextual (maxDischargeDepth := 200) only [execCeilEnWrite, ↓keptOut_next, implies_true, ↓keeps_regWrite, ↓keeps_drgCtlWrite, *]
theorem keeps_execDraughtGrant (g : Nat) (s : State) (h_s : Kept pt qu s) : KeptOut pt qu (execDraughtGrant g s) := by
  unfold execDraughtGrant
  repeat' (first
    | (simp +contextual (maxDischargeDepth := 200) only [↓kept_mk, ↓kept_back, ↓kept_ite, ↓keptOut_next, ↓keeps_State_setBucket, ↓keeps_onlyIf, ↓keeps_State_setChan, ↓keeps_State_inc, ↓keeps_modLun, *]; done)
    | split
    | intros)
theorem keeps_execDraughtEndReport (s : State) (h_s : Kept pt qu s) : KeptOut pt qu (execDraughtEndReport s) := by
  unfold execDraughtEndReport
  repeat' (first
    | (simp +contextual (maxDischargeDepth := 200) only [↓kept_mk, ↓kept_back, ↓keptOut_next, ↓keeps_onlyIf, ↓keeps_State_put, *]; done)
    | split
    | intros)
theorem keeps_loadDraught (imgs : List (RegKind × Nat × Word)) (s : State) (h_s : Kept pt qu s) : Kept pt qu (loadDraught imgs s) := by
  simp +contextual (maxDischargeDepth := 200) only [loadDraught, ↓kept_ite, ↓kept_fold, implies_true, ↓keeps_State_setReg, ↓keeps_loopCtlWrite, ↓keeps_State_plainWrite, ↓keeps_admCfgWrite, ↓keeps_drgCtlWrite, *]

theorem keeps_sampleTemp (g : Nat) (s : State) (h_s : Kept pt qu s) : Kept pt qu (sampleTemp g s) := by
  unfold sampleTemp
  repeat' (first
    | (simp +contextual (maxDischargeDepth := 200) only [↓kept_mk, ↓kept_back, ↓kept_ite, ↓keeps_queueSweep, *]; done)
    | split
    | intros)
theorem keeps_execCalTempSample (s : State) (h_s : Kept pt qu s) : KeptOut pt qu (execCalTempSample s) := by
  simp +contextual (maxDischargeDepth := 200) only [execCalTempSample, ↓kept_mk, ↓kept_back, ↓kept_fold, implies_true, ↓keeps_sampleTemp, ↓keeps_onlyIf, *]
theorem keeps_calReqWrite (w : Word) (s : State) (h_s : Kept pt qu s) : Kept pt qu (calReqWrite w s) := by
  simp only [calReqWrite, ↓kept_ite, ↓keeps_queueSweep, *]
theorem keeps_execCalReqGo (r : Req) (w : Word) (s : State) (h_s : Kept pt qu s) : KeptOut pt qu (execCalReqGo r w s) := by
  simp +contextual (maxDischargeDepth := 200) only [execCalReqGo, ↓keptOut_next, implies_true, ↓keeps_regWrite, ↓keeps_calReqWrite, *]
theorem keeps_State_setCalCh (s : State) (c : Nat) (x : CalCh) (h_s : Kept pt qu s) : Kept pt qu (State.setCalCh s c x) := by
  simp only [State.setCalCh, ↓kept_mk, ↓kept_back, *]
theorem keeps_execCalRunStart (c : Nat) (s : State) (h_s : Kept pt qu s) : KeptOut pt qu (execCalRunStart c s) := by
  unfold execCalRunStart
  repeat' (first
    | (simp +contextual (maxDischargeDepth := 200) only [↓kept_mk, ↓kept_back, ↓kept_ite, ↓keptOut_next, ↓keeps_sweepDone, ↓keeps_onlyIf, *]; done)
    | split
    | intros)
theorem keeps_calFail (c : Nat) (t : Nat) (s : State) (h_s : Kept pt qu s) : Kept pt qu (calFail c t s) := by
  simp only [calFail, ↓keeps_State_inc, ↓keeps_State_logEntry, *]
theorem keeps_foldOffsets (c : Nat) (s : State) (h_s : Kept pt qu s) : Kept pt qu (foldOffsets c s) := by
  simp +contextual (maxDischargeDepth := 200) only [foldOffsets, ↓kept_fold, implies_true, ↓keeps_State_setChan, ↓keeps_showOffsets, ↓keeps_State_setCalT, *]
theorem keeps_applyDir (c : Nat) (t : Nat) (dir : Nat) (mode : Nat) (rate : Nat) (gb : Int) (bits : List (BitVec 129)) (s : State) (h_s : Kept pt qu s) : Kept pt qu (applyDir c t dir mode rate gb bits s).2.2 := by
  unfold applyDir
  repeat' (first
    | (simp +contextual (maxDischargeDepth := 200) only [↓keeps_foldOffsets, ↓keeps_State_setCalT, *]; done)
    | split
    | intros)
theorem keeps2_applyDir (c : Nat) (t : Nat) (dir : Nat) (mode : Nat) (rate : Nat) (gb : Int) (bits : List (BitVec 129)) (s : State) : ∀ y, applyDir c t dir mode rate gb bits s = y → Kept pt qu s → Kept pt qu y.2.2 := by
  rintro y rfl h_s; exact keeps_applyDir c t dir mode rate gb bits s h_s
theorem keeps_runSteps (c : Nat) (u : CalRun) (m : Train) (s : State) (h_s : Kept pt qu s) : Kept pt qu (runSteps c u m s) := by
  unfold runSteps
  extract_lets t k mr sw doZq _ s1 f1 _ s2 s3 doDie s4 s5 f2 s6 f3 _ s7 s8 s9 gb s10 s11 x s12 y s13 result luns
  have h1 : Kept pt qu s1 := kept_ite h_s h_s
  have h2 : Kept pt qu s2 := kept_ite (keeps_State_setCalCh _ _ _ h1) h1
  have h3 : Kept pt qu s3 := kept_ite (keeps_calFail _ _ _ h2) h2
  have h4 : Kept pt qu s4 := keeps_selectTarget _ _ _ h3
  have h5 : Kept pt qu s5 := kept_ite (keeps_dieZq _ _ _ _ h4) h4
  have h6 : Kept pt qu s6 := kept_ite (keeps_calFail _ _ _ h5) h5
  have h7 : Kept pt qu s7 := kept_ite (keeps_State_setCalCh _ _ _ h6) h6
  have h8 : Kept pt qu s8 := kept_ite (keeps_calFail _ _ _ h7) h7
  have h9 : Kept pt qu s9 := kept_ite (keeps_dieDcc _ _ _ h8) h8
  have h10 : Kept pt qu s10 := kept_ite (keeps_sweepPut _ _ _ _ _ (keeps_sweepPut _ _ _ _ _ h9)) h9
  have h11 : Kept pt qu s11 := keeps_raiseCe _ _ h10
  have hx : Kept pt qu x.2.2 := kept_ite22 (keeps_applyDir _ _ _ _ _ _ _ _ h11) h11
  have h12 : Kept pt qu s12 := kept_ite (keeps_calFail _ _ _ hx) hx
  have hy : Kept pt qu y.2.2 := kept_ite22 (keeps_applyDir _ _ _ _ _ _ _ _ h12) h12
  have h13 : Kept pt qu s13 := kept_ite (keeps_calFail _ _ _ hy) hy
  exact h13
theorem keeps_runEnds (c : Nat) (u : CalRun) (s : State) (h_s : Kept pt qu s) : Kept pt qu (runEnds c u s) := by
  simp +contextual (maxDischargeDepth := 200) only [runEnds, ↓kept_mk, ↓kept_back, ↓keeps_sweepDone, ↓keeps_State_setReg, ↓keeps_State_inc, ↓keeps_State_logPacked, ↓keeps_State_setCalT, *]
theorem keeps_execCalRunEnd (c : Nat) (m : Train) (s : State) (h_s : Kept pt qu s) : KeptOut pt qu (execCalRunEnd c m s) := by
  unfold execCalRunEnd
  repeat' (first
    | with_reducible assumption
    | with_reducible refine kept_fold (fun _ _ _ => ?_) ?_
    | with_reducible apply kept_ite
    | with_reducible apply keptOut_ite
    | with_reducible refine (keptOut_next _).mpr ?_
    | with_reducible apply kept_ite2
    | with_reducible apply kept_ite22
    | with_reducible apply kept_id
    | with_reducible refine kept_fold2 (fun _ _ _ => ?_) ?_
    | with_reducible apply keeps_onlyIf
    | with_reducible apply keeps_runEnds
    | with_reducible apply keeps_runSteps
    | with_reducible apply keeps_atRate
    | dsimp only
    | split
    | fail_if_no_progress (with_reducible apply kept_same)
    | intro _)
theorem keeps_State_modRun (s : State) (k : Nat) (f : CalRun → CalRun) (h_s : Kept pt qu s) : Kept pt qu (State.modRun s k f) := by
  simp only [State.modRun, ↓kept_mk, ↓kept_back, *]
theorem keeps_fetchLines (k : Nat) (bs : List Nat) (s : State) (h_s : Kept pt qu s) : Kept pt qu (fetchLines k bs s) := by
  simp +contextual (maxDischargeDepth := 200) only [fetchLines, ↓kept_ite, ↓kept_fold, implies_true, ↓keeps_dramRead, *]
theorem keeps_withLines (k : Nat) (bs : List Nat) (f : State → State) (s : State) (h_f : ∀ (y0 : State), Kept pt qu y0 → Kept pt qu (f y0)) (h_s : Kept pt qu s) : Kept pt qu (withLines k bs f s) := by
  simp only [withLines, ↓kept_ite, ↓keeps_fetchLines, *]
theorem keeps_dropLines (k : Nat) (s : State) (h_s : Kept pt qu s) : Kept pt qu (dropLines k s) := by
  simp only [dropLines, ↓kept_mk, ↓kept_back, *]
theorem keeps_mediaBegin (k : Nat) (us : List (Nat × UnitE)) (s : State) (h_s : Kept pt qu s) : Kept pt qu (mediaBegin k us s) := by
  unfold mediaBegin
  repeat' (first
    | with_reducible assumption
    | with_reducible refine kept_fold (fun _ _ _ => ?_) ?_
    | with_reducible apply kept_ite
    | with_reducible apply keptOut_ite
    | with_reducible refine (keptOut_next _).mpr ?_
    | with_reducible apply kept_ite2
    | with_reducible apply kept_ite22
    | with_reducible apply kept_id
    | with_reducible refine kept_fold2 (fun _ _ _ => ?_) ?_
    | with_reducible apply keeps_State_modRun
    | with_reducible apply keeps_dropLines
    | with_reducible apply keeps_gaugeFill
    | with_reducible apply keeps_enqueueAll
    | split
    | fail_if_no_progress (with_reducible apply kept_same)
    | intro _)
theorem keeps_reseed (k : Nat) (d : List Int) (s : State) (h_s : Kept pt qu s) : Kept pt qu (reseed k d s) := by
  unfold reseed
  repeat' (first
    | with_reducible assumption
    | with_reducible refine kept_fold (fun _ _ _ => ?_) ?_
    | with_reducible apply kept_ite
    | with_reducible apply keptOut_ite
    | with_reducible refine (keptOut_next _).mpr ?_
    | with_reducible apply kept_ite2
    | with_reducible apply kept_ite22
    | with_reducible apply kept_id
    | with_reducible refine kept_fold2 (fun _ _ _ => ?_) ?_
    | with_reducible apply keeps_dramWrite
    | split
    | fail_if_no_progress (with_reducible apply kept_same)
    | intro _)
theorem keeps_mediaOver (k : Nat) (s : State) (h_s : Kept pt qu s) : Kept pt qu (mediaOver k s) := by
  simp only [mediaOver, ↓kept_mk, ↓kept_back, ↓keeps_State_modRun, ↓keeps_dropLines, *]
theorem keeps_execMediaStep (k : Nat) (s : State) (h_s : Kept pt qu s) : KeptOut pt qu (execMediaStep k s) := by
  unfold execMediaStep
  repeat' (first
    | (simp +contextual (maxDischargeDepth := 200) only [↓kept_ite, ↓keptOut_ite, ↓keptOut_next, implies_true, ↓keeps_mediaOver, ↓keeps_onlyIf, ↓keeps_reseed, ↓keeps_mediaBegin, ↓keeps_withLines, *]; done)
    | split
    | intros)
theorem keeps_State_setLedger (s : State) (k : Nat) (l : Ledger) (h_s : Kept pt qu s) : Kept pt qu (State.setLedger s k l) := by
  simp only [State.setLedger, ↓kept_mk, ↓kept_back, *]
theorem keeps_ledgerPage (k : Nat) (s : State) (h_s : Kept pt qu s) : Kept pt qu (ledgerPage k s) := by
  simp only [ledgerPage, ↓keeps_enqueue, ↓keeps_State_setLedger, *]
theorem keeps_ledgerLeaves (k : Nat) (s : State) (h_s : Kept pt qu s) : Kept pt qu (ledgerLeaves k s) := by
  simp only [ledgerLeaves, ↓kept_ite, ↓keeps_State_modRun, *]
theorem keeps_execLedgerWrite (k : Nat) (s : State) (h_s : Kept pt qu s) : KeptOut pt qu (execLedgerWrite k s) := by
  simp +contextual (maxDischargeDepth := 200) only [execLedgerWrite, ↓kept_mk, ↓kept_back, ↓keptOut_ite, ↓keptOut_next, implies_true, ↓keeps_ledgerLeaves, ↓keeps_onlyIf, ↓keeps_dropLines, ↓keeps_ledgerPage, ↓keeps_queueErase, ↓keeps_withLines, *]
theorem keeps_walkTarget (c : Nat) (t : Nat) (s : State) (h_s : Kept pt qu s) : Kept pt qu (walkTarget c t s) := by
  simp +contextual (maxDischargeDepth := 200) only [walkTarget, ↓kept_ite, ↓kept_fold, implies_true, ↓keeps_State_setCalT, ↓keeps_State_clrBit, *]
theorem keeps_execCalWalkStep (c : Nat) (s : State) (h_s : Kept pt qu s) : KeptOut pt qu (execCalWalkStep c s) := by
  simp +contextual (maxDischargeDepth := 200) only [execCalWalkStep, ↓kept_fold, implies_true, ↓keeps_onlyIf, ↓keeps_State_setCalCh, ↓keeps_walkTarget, *]
theorem keeps_abandonTgt (ti : Nat) (s : State) (h_s : Kept pt qu s) : Kept pt qu (abandonTgt ti s) := by
  simp only [abandonTgt, ↓keeps_State_setCalT, *]
theorem keeps_dropSamples (k : Nat) (s : State) (h_s : Kept pt qu s) : Kept pt qu (dropSamples k s) := by
  simp only [dropSamples, ↓kept_mk, ↓kept_back, ↓keeps_dropLines, ↓keeps_modLun, *]
theorem keeps_cutTarget (n : Nat) (ti : Nat) (s : State) (h_s : Kept pt qu s) : Kept pt qu (cutTarget n ti s).2 := by
  unfold cutTarget
  repeat' (first
    | (simp +contextual (maxDischargeDepth := 200) only [↓kept_mk, ↓kept_back, ↓kept_ite2, ↓kept_fold, implies_true, ↓keeps_sweepDone, ↓keeps_dropSamples, ↓keeps_abandonTgt, *]; done)
    | split
    | simp +contextual (maxDischargeDepth := 200) only [*]
    | intros)
theorem keeps2_cutTarget (n : Nat) (ti : Nat) (s : State) : ∀ y, cutTarget n ti s = y → Kept pt qu s → Kept pt qu y.2 := by
  rintro y rfl h_s; exact keeps_cutTarget n ti s h_s
theorem keeps3_cutTarget (n : Nat) (ti : Nat) (s : State) (a y) (e : cutTarget n ti s = (a, y)) (h_s : Kept pt qu s) : Kept pt qu y := keeps2_cutTarget n ti s (a, y) e h_s
theorem keeps_execCalSweepDeadline (n : Nat) (s : State) (h_s : Kept pt qu s) : KeptOut pt qu (execCalSweepDeadline n s) := by
  unfold execCalSweepDeadline
  repeat' (first
    | (simp +contextual (maxDischargeDepth := 200) only [↓kept_ite, ↓kept_fold2, ↓keptOut_next, implies_true, ↓keeps_onlyIf, ↓keeps_cutTarget, ↓keeps_State_inc, *]; done)
    | split
    | simp +contextual (maxDischargeDepth := 200) only [*]
    | intros)

theorem wfr_fold {α : Type} {l : List α} {f : Tab Word → α → Tab Word} {t : Tab Word}
    (hf : ∀ t x, regsOk t → regsOk (f t x)) (h : regsOk t) : regsOk (l.foldl f t) := by
  induction l generalizing t with
  | nil => exact h
  | cons a l ih => exact ih (hf t a h)
theorem wfr_heldRegs (l : List (RegKind × Nat × Word)) (s : State) : regsOk (heldRegs l s) :=
  wfr_fold (fun t x h => regsOk_set h _ _ _) ⟨rfl, fun e he => nomatch he⟩
theorem keeps_islandReset (regs : Tab Word) (s : State) (h_s : Kept pt qu s) (h_r : regsOk regs) : Kept pt qu (islandReset regs s) := by
  exact ⟨h_s.1, h_s.2.1, h_r, Nat.zero_le _, fun e he => nomatch he⟩
theorem keeps_coldReset (s : State) (h_s : Kept pt qu s) : Kept pt qu (coldReset s) := by
  exact keeps_islandReset _ _ h_s (wfr_heldRegs _ _)
theorem keeps_warmReset (s : State) (h_s : Kept pt qu s) : Kept pt qu (warmReset s) := by
  exact ⟨h_s.1, h_s.2.1, wfr_heldRegs _ _, h_s.2.2.2.1, fun e he => nomatch he⟩
theorem keeps_emberReset (s : State) (h_s : Kept pt qu s) : Kept pt qu (emberReset s) := by
  simp +contextual (maxDischargeDepth := 200) only [emberReset, ↓kept_mk, ↓kept_back, ↓kept_fold, implies_true, ↓keeps_State_setReg, *]
theorem keeps_emberWake (s : State) (h_s : Kept pt qu s) : Kept pt qu (emberWake s) := by
  simp only [emberWake, ↓kept_mk, ↓kept_back, ↓keeps_coldReset, *]
theorem keeps_execRstEmberAssert (width : Nat) (s : State) (h_s : Kept pt qu s) : KeptOut pt qu (execRstEmberAssert width s) := by
  simp +contextual (maxDischargeDepth := 200) only [execRstEmberAssert, ↓kept_mk, ↓kept_back, ↓kept_ite, ↓keptOut_ite, ↓keptOut_next, ↓keeps_emberReset, ↓keeps_emberWake, *]
theorem keeps_execRstColdAssert (width : Nat) (s : State) (h_s : Kept pt qu s) : KeptOut pt qu (execRstColdAssert width s) := by
  simp only [execRstColdAssert, ↓kept_mk, ↓kept_back, ↓keptOut_ite, ↓keptOut_next, ↓keeps_coldReset, *]
theorem keeps_execRstWarmAssert (width : Nat) (s : State) (h_s : Kept pt qu s) : KeptOut pt qu (execRstWarmAssert width s) := by
  simp only [execRstWarmAssert, ↓kept_mk, ↓kept_back, ↓keptOut_ite, ↓keptOut_next, ↓keeps_warmReset, *]
theorem keeps_bootFail (code : Nat) (s : State) (h_s : Kept pt qu s) : Kept pt qu (bootFail code s) := by
  simp +contextual (maxDischargeDepth := 200) only [bootFail, ↓keeps_State_bank, ↓keeps_State_put, ↓keeps_State_logPacked, *]
theorem keeps_loadTime (s : State) (h_s : Kept pt qu s) : Kept pt qu (loadTime s) := by
  simp only [loadTime, ↓kept_mk, ↓kept_back, *]
theorem keeps_showRow (s : State) (h_s : Kept pt qu s) : Kept pt qu (showRow s) := by
  simp +contextual (maxDischargeDepth := 200) only [showRow, ↓kept_fold, implies_true, ↓keeps_State_setReg, ↓keeps_State_putFlag, ↓keeps_State_put, *]
theorem keeps_romStage (rowOk : Bool) (s : State) (h_s : Kept pt qu s) : Kept pt qu (romStage rowOk s) := by
  simp +contextual (maxDischargeDepth := 200) only [romStage, ↓kept_mk, ↓kept_back, ↓kept_ite, ↓keeps_bootFail, ↓keeps_loadTime, ↓keeps_State_modTwin, ↓keeps_showRow, ↓keeps_enterStage, *]
theorem keeps_execResetRelease (rowOk : Bool) (s : State) (h_s : Kept pt qu s) : KeptOut pt qu (execResetRelease rowOk s) := by
  simp +contextual (maxDischargeDepth := 200) only [execResetRelease, ↓kept_mk, ↓kept_back, ↓kept_ite, ↓keptOut_ite, ↓keptOut_next, ↓keeps_romStage, *]
theorem keeps_execClockMonitorFault (s : State) (h_s : Kept pt qu s) : KeptOut pt qu (execClockMonitorFault s) := by
  simp only [execClockMonitorFault, ↓keeps_State_bank, ↓keeps_onCore, *]
theorem keeps_execEmbClkLoss (s : State) (h_s : Kept pt qu s) : KeptOut pt qu (execEmbClkLoss s) := by
  simp +contextual (maxDischargeDepth := 200) only [execEmbClkLoss, ↓kept_mk, ↓kept_back, ↓kept_ite, ↓keptOut_ite, ↓keptOut_next, ↓keeps_State_bank, ↓keeps_State_putFlag, *]
theorem keeps_embRuns (s : State) (h_s : Kept pt qu s) : Kept pt qu (embRuns s) := by
  simp only [embRuns, ↓kept_mk, ↓kept_back, *]
theorem keeps_execPwrGoodCoreLow (s : State) (h_s : Kept pt qu s) : KeptOut pt qu (execPwrGoodCoreLow s) := by
  simp +contextual (maxDischargeDepth := 200) only [execPwrGoodCoreLow, ↓kept_mk, ↓kept_back, ↓kept_ite, ↓keeps_onlyIf, ↓keeps_State_bank, *]
theorem keeps_tripLevels (low : BitVec 3) (s : State) (h_s : Kept pt qu s) : Kept pt qu (tripLevels low s) := by
  simp +contextual (maxDischargeDepth := 200) only [tripLevels, ↓kept_mk, ↓kept_back, ↓keeps_State_putFlag, *]
theorem keeps_setLatch (n : Nat) (s : State) (h_s : Kept pt qu s) : Kept pt qu (setLatch n s) := by
  simp +contextual (maxDischargeDepth := 200) only [setLatch, ↓kept_mk, ↓kept_back, ↓kept_ite, ↓keeps_State_setBit, ↓keeps_State_abortEntry, ↓keeps_State_inc, *]
theorem keeps_execTripLatch (trip : Trip) (width : Nat) (held : Bool) (s : State) (h_s : Kept pt qu s) : KeptOut pt qu (execTripLatch trip width held s) := by
  simp +contextual (maxDischargeDepth := 200) only [execTripLatch, ↓kept_ite, ↓keptOut_ite, ↓keptOut_next, ↓keeps_State_fresh, ↓keeps_tripLevels, ↓keeps_setLatch, *]
theorem keeps_stopSlots (c : Nat) (s : State) (h_s : Kept pt qu s) : Kept pt qu (stopSlots c s) := by
  simp only [stopSlots, ↓keeps_State_setChan, *]
theorem keeps_unform (k : Nat) (s : State) (h_s : Kept pt qu s) : Kept pt qu (unform k s) := by
  unfold unform
  repeat' (first
    | (simp +contextual (maxDischargeDepth := 200) only [↓kept_ite, ↓keeps_giveBack, ↓keeps_State_put, ↓keeps_modLun, *]; done)
    | split
    | intros)
theorem keeps_powerFail (s : State) (h_s : Kept pt qu s) : Kept pt qu (powerFail s) := by
  unfold powerFail
  repeat' (first
    | with_reducible assumption
    | with_reducible refine kept_fold (fun _ _ _ => ?_) ?_
    | with_reducible apply kept_ite
    | with_reducible apply keptOut_ite
    | with_reducible refine (keptOut_next _).mpr ?_
    | with_reducible apply kept_ite2
    | with_reducible apply kept_ite22
    | with_reducible apply kept_id
    | with_reducible refine kept_fold2 (fun _ _ _ => ?_) ?_
    | with_reducible apply keeps_raiseSuspend
    | with_reducible apply keeps_unform
    | with_reducible apply keeps_State_putFlag
    | with_reducible apply keeps_stopSlots
    | with_reducible apply keeps_modLun
    | with_reducible apply keeps_dropPage0
    | split
    | fail_if_no_progress (with_reducible apply kept_same)
    | intro _)
theorem keeps_tripEffect (n : Nat) (s : State) (h_s : Kept pt qu s) : Kept pt qu (tripEffect n s) := by
  unfold tripEffect
  repeat' (first
    | with_reducible assumption
    | with_reducible refine kept_fold (fun _ _ _ => ?_) ?_
    | with_reducible apply kept_ite
    | with_reducible apply keptOut_ite
    | with_reducible refine (keptOut_next _).mpr ?_
    | with_reducible apply kept_ite2
    | with_reducible apply kept_ite22
    | with_reducible apply kept_id
    | with_reducible refine kept_fold2 (fun _ _ _ => ?_) ?_
    | with_reducible apply keeps_showStop
    | with_reducible apply keeps_State_bank
    | with_reducible apply keeps_powerFail
    | split
    | fail_if_no_progress (with_reducible apply kept_same)
    | intro _)
theorem keeps_execTripAct (s : State) (h_s : Kept pt qu s) : KeptOut pt qu (execTripAct s) := by
  simp +contextual (maxDischargeDepth := 200) only [execTripAct, ↓kept_mk, ↓kept_back, ↓kept_ite, ↓kept_fold, implies_true, ↓keeps_tripEffect, ↓keeps_onlyIf, ↓keeps_State_logPacked, ↓keeps_State_edgeAll, *]
theorem keeps_clearLatch (low : BitVec 3) (fall : BitVec 3) (w : Word) (s : State) (n : Nat) (h_s : Kept pt qu s) : Kept pt qu (clearLatch low fall w s n) := by
  simp +contextual (maxDischargeDepth := 200) only [clearLatch, ↓kept_ite, ↓keeps_State_inc, ↓keeps_setLatch, ↓keeps_State_logPacked, ↓keeps_State_clrBit, *]
theorem keeps_execTripClear (low : BitVec 3) (fall : BitVec 3) (s : State) (h_s : Kept pt qu s) : KeptOut pt qu (execTripClear low fall s) := by
  unfold execTripClear
  repeat' (first
    | (simp +contextual (maxDischargeDepth := 200) only [↓kept_mk, ↓kept_back, ↓kept_ite, ↓keptOut_ite, ↓kept_fold, ↓keptOut_next, implies_true, ↓keeps_showStop, ↓keeps_tripLevels, ↓keeps_embRuns, ↓keeps_clearLatch, *]; done)
    | split
    | intros)
theorem keeps_queueEmber (k : RegKind) (w : Word) (s : State) (h_s : Kept pt qu s) : Kept pt qu (queueEmber k w s) := by
  simp only [queueEmber, ↓kept_mk, ↓kept_back, *]
theorem keeps_execEmberWriteEffect (s : State) (h_s : Kept pt qu s) : KeptOut pt qu (execEmberWriteEffect s) := by
  unfold execEmberWriteEffect
  repeat' (first
    | (simp +contextual (maxDischargeDepth := 200) only [↓kept_mk, ↓kept_back, ↓keptOut_ite, ↓keptOut_next, ↓keeps_State_plainWrite, ↓keeps_embRuns, *]; done)
    | split
    | intros)
theorem keeps_execEmbClkLossClear (again : Bool) (s : State) (h_s : Kept pt qu s) : KeptOut pt qu (execEmbClkLossClear again s) := by
  unfold execEmbClkLossClear
  repeat' (first
    | (simp +contextual (maxDischargeDepth := 200) only [↓kept_mk, ↓kept_back, ↓kept_ite, ↓keptOut_ite, ↓keptOut_next, ↓keeps_State_putFlag, ↓keeps_execEmbClkLoss, ↓keeps_embRuns, *]; done)
    | split
    | intros)
theorem keeps_execP1Entry (s : State) (h_s : Kept pt qu s) : KeptOut pt qu (execP1Entry s) := by
  simp only [execP1Entry, ↓kept_mk, ↓kept_back, ↓keeps_onlyIf, ↓keeps_State_inc, *]
theorem keeps_enterSleep (p3 : Bool) (s : State) (h_s : Kept pt qu s) : Kept pt qu (enterSleep p3 s) := by
  simp only [enterSleep, ↓kept_mk, ↓kept_back, *]
theorem keeps_pwrCtlWrite (mirs : List (Nat × List Byte)) (w : Word) (s : State) (h_s : Kept pt qu s) : Kept pt qu (pwrCtlWrite mirs w s) := by
  simp +contextual (maxDischargeDepth := 200) only [pwrCtlWrite, ↓kept_ite, ↓keeps_State_plainWrite, ↓keeps_enterSleep, ↓keeps_State_put, ↓keeps_scanMir, *]
theorem keeps_execP2Request (r : Req) (w : Word) (mirs : List (Nat × List Byte)) (s : State) (h_s : Kept pt qu s) : KeptOut pt qu (execP2Request r w mirs s) := by
  simp +contextual (maxDischargeDepth := 200) only [execP2Request, implies_true, ↓keeps_regWrite, ↓keeps_onlyIf, ↓keeps_pwrCtlWrite, *]
theorem keeps_execP3Request (r : Req) (w : Word) (mirs : List (Nat × List Byte)) (s : State) (h_s : Kept pt qu s) : KeptOut pt qu (execP3Request r w mirs s) := by
  simp +contextual (maxDischargeDepth := 200) only [execP3Request, implies_true, ↓keeps_regWrite, ↓keeps_onlyIf, ↓keeps_pwrCtlWrite, *]
theorem keeps_supplyOff (s : State) (h_s : Kept pt qu s) : Kept pt qu (supplyOff s) := by
  simp only [supplyOff, ↓kept_mk, ↓kept_back, *]
theorem keeps_draughtOff (s : State) (h_s : Kept pt qu s) : Kept pt qu (draughtOff s) := by
  exact kept_regs _ _ _ _ _ _ _ _ _ _ _ _ _ _ _ _ _ _ _ _ _ _ _ _ _ _ _ ⟨Tab.filter_rising _ _ _ h_s.2.2.1.1, fun e he => h_s.2.2.1.2 e (List.mem_filter.mp he).1⟩ h_s
theorem keeps_execEntryMessage (s : State) (h_s : Kept pt qu s) : KeptOut pt qu (execEntryMessage s) := by
  unfold execEntryMessage
  repeat' (first
    | (simp +contextual (maxDischargeDepth := 200) only [↓kept_mk, ↓kept_back, ↓kept_ite, ↓keptOut_ite, ↓keptOut_next, reduceCtorEq, ↓keeps_supplyOff, ↓keeps_State_dropChallenge, ↓keeps_draughtOff, ↓keeps_State_put, ↓keeps_State_abortEntry, ↓keeps_State_inc, ↓keeps_State_logPacked, ↓keeps_coldReset, ↓keptParts_regsChal, *]; done)
    | split
    | intros)
theorem keeps_wakeEvent (cause : Nat) (s : State) (h_s : Kept pt qu s) : Kept pt qu (wakeEvent cause s) := by
  simp only [wakeEvent, ↓kept_mk, ↓kept_back, ↓keeps_State_put, *]
theorem keeps_execWakeAlarm (s : State) (h_s : Kept pt qu s) : KeptOut pt qu (execWakeAlarm s) := by
  simp only [execWakeAlarm, ↓keeps_onlyIf, ↓keeps_wakeEvent, *]
theorem keeps_execWakePlatform (s : State) (h_s : Kept pt qu s) : KeptOut pt qu (execWakePlatform s) := by
  simp only [execWakePlatform, ↓kept_mk, ↓kept_back, ↓keeps_onlyIf, ↓keeps_wakeEvent, *]
theorem keeps_execPowerGoodTimeout (s : State) (h_s : Kept pt qu s) : KeptOut pt qu (execPowerGoodTimeout s) := by
  unfold execPowerGoodTimeout
  repeat' (first
    | (simp +contextual (maxDischargeDepth := 200) only [↓kept_mk, ↓kept_back, ↓keptOut_next, ↓keeps_onlyIf, *]; done)
    | split
    | intros)
theorem keeps_suppliesUp (s : State) (h_s : Kept pt qu s) : Kept pt qu (suppliesUp s) := by
  simp only [suppliesUp, ↓kept_mk, ↓kept_back, *]
theorem keeps_startWdogs (s : State) (h_s : Kept pt qu s) : Kept pt qu (startWdogs s) := by
  simp only [startWdogs, ↓kept_mk, ↓kept_back, *]
theorem keeps_resumeLeases (old : Nat) (s : State) (h_s : Kept pt qu s) : Kept pt qu (resumeLeases old s) := by
  simp only [resumeLeases, ↓kept_mk, ↓kept_back, *]
theorem keeps_execWakeFromP2 (pass : Bool) (s : State) (h_s : Kept pt qu s) : KeptOut pt qu (execWakeFromP2 pass s) := by
  simp +contextual (maxDischargeDepth := 200) only [execWakeFromP2, ↓kept_mk, ↓kept_back, ↓kept_ite, ↓keeps_startWdogs, ↓keeps_onlyIf, ↓keeps_State_bank, ↓keeps_State_put, ↓keeps_loadTime, ↓keeps_State_logPacked, ↓keeps_State_modTwin, ↓keeps_resumeLeases, ↓keeps_suppliesUp, *]
theorem keeps_execWakeFromP3 (rowOk : Bool) (s : State) (h_s : Kept pt qu s) : KeptOut pt qu (execWakeFromP3 rowOk s) := by
  simp +contextual (maxDischargeDepth := 200) only [execWakeFromP3, ↓kept_mk, ↓kept_back, ↓keeps_onlyIf, ↓keeps_romStage, ↓keeps_State_logPacked, ↓keeps_suppliesUp, *]
theorem keeps_execDramIdleOkRise (s : State) (h_s : Kept pt qu s) : KeptOut pt qu (execDramIdleOkRise s) := by
  simp only [execDramIdleOkRise, ↓kept_mk, ↓kept_back, ↓keeps_onlyIf, *]
theorem keeps_kickWrite (src : Nat) (s : State) (h_s : Kept pt qu s) : Kept pt qu (kickWrite src s) := by
  unfold kickWrite
  repeat' (first
    | (simp +contextual (maxDischargeDepth := 200) only [↓kept_mk, ↓kept_back, ↓kept_ite, *]; done)
    | split
    | intros)
theorem keeps_execWatchdogKick (r : Req) (w : Word) (s : State) (h_s : Kept pt qu s) : KeptOut pt qu (execWatchdogKick r w s) := by
  simp +contextual (maxDischargeDepth := 200) only [execWatchdogKick, ↓keptOut_next, implies_true, ↓keeps_regWrite, ↓keeps_kickWrite, *]
theorem keeps_execWatchdogExpiry (n : Nat) (s : State) (h_s : Kept pt qu s) : KeptOut pt qu (execWatchdogExpiry n s) := by
  unfold execWatchdogExpiry
  repeat' (first
    | (simp +contextual (maxDischargeDepth := 200) only [↓keptOut_next, ↓keeps_onlyIf, ↓keeps_State_bankNamed, *]; done)
    | split
    | intros)

end Sys2Proof.Machine
end

