-- ==== Sys2Proof/Laws/KeepsStartUp.lean ====
section
/-! SUPPORT. The definitions of start-up, sanitize, register accesses and the idle step keep the part, the queue and the invariant. -/

open Sys2Proof

set_option linter.unusedTactic false
set_option linter.unreachableTactic false
set_option linter.unusedVariables false

namespace Sys2Proof.Machine

variable {pt : Part} {qu : List Instr}

theorem keeps_draughtLoaded (d : List Byte) (s : State) (h_s : Kept pt qu s) : Kept pt qu (draughtLoaded d s) := by
  simp only [draughtLoaded, ↓kept_mk, ↓kept_back, ↓keeps_loadDraught, *]
theorem keeps_queueRecord (ring : Bool) (b : List Byte) (r : Bool × State) (h_r : Kept pt qu r.2) (h_s : Kept pt qu r.2) : Kept pt qu (queueRecord ring b r).2 := by
  unfold queueRecord
  refine kept_ite2 h_s (kept_ite2 h_s ?_)
  cases ring
  · exact keeps_slqCreate _ _ _ h_s
  · exact keeps_hrvCreate _ _ _ h_s
theorem keeps2_queueRecord (ring : Bool) (b : List Byte) (r : Bool × State) : ∀ y, queueRecord ring b r = y → Kept pt qu r.2 → Kept pt qu r.2 → Kept pt qu y.2 := by
  rintro y rfl h_r h_s; exact keeps_queueRecord ring b r h_r h_s
theorem keeps3_queueRecord (ring : Bool) (b : List Byte) (r : Bool × State) (a y) (e : queueRecord ring b r = (a, y)) (h_r : Kept pt qu r.2) (h_s : Kept pt qu r.2) : Kept pt qu y := keeps2_queueRecord ring b r (a, y) e h_r h_s
theorem keeps_queueLoaded (b : List Byte) (s : State) (h_s : Kept pt qu s) : Kept pt qu (queueLoaded b s).2 := by
  simp +contextual (maxDischargeDepth := 200) only [queueLoaded, ↓kept_mk, ↓kept_back, ↓kept_fold2, implies_true, ↓keeps_queueRecord, ↓keeps_setFlue, *]
theorem keeps2_queueLoaded (b : List Byte) (s : State) : ∀ y, queueLoaded b s = y → Kept pt qu s → Kept pt qu y.2 := by
  rintro y rfl h_s; exact keeps_queueLoaded b s h_s
theorem keeps3_queueLoaded (b : List Byte) (s : State) (a y) (e : queueLoaded b s = (a, y)) (h_s : Kept pt qu s) : Kept pt qu y := keeps2_queueLoaded b s (a, y) e h_s
theorem keeps_noteReserved (d : List Byte) (s : State) (h_s : Kept pt qu s) : Kept pt qu (noteReserved d s) := by
  simp +contextual (maxDischargeDepth := 200) only [noteReserved, ↓kept_fold, implies_true, ↓keeps_State_logPacked, *]
theorem keeps_execKindlingSlotRead (answers : Bool) (sfdp : Sfdp) (d : List Byte) (s : State) (h_s : Kept pt qu s) : KeptOut pt qu (execKindlingSlotRead answers sfdp d s) := by
  simp +contextual (maxDischargeDepth := 200) only [execKindlingSlotRead, ↓kept_mk, ↓kept_back, ↓kept_ite, ↓keeps_onlyIf, ↓keeps_bootFail, ↓keeps_State_putFlag, ↓keeps_noteReserved, *]

theorem keeps_execSelftestStage (fails : Option (Fin 5)) (rnd : BitVec 256) (s : State) (h_s : Kept pt qu s) : KeptOut pt qu (execSelftestStage fails rnd s) := by
  unfold execSelftestStage
  repeat' (first
    | (simp +contextual (maxDischargeDepth := 200) only [↓kept_mk, ↓kept_back, ↓kept_ite, ↓keeps_onlyIf, ↓keeps_bootFail, ↓keeps_State_putFlag, ↓keeps_enterStage, *]; done)
    | split
    | intros)
theorem keeps_loadHid (s : State) (h_s : Kept pt qu s) : Kept pt qu (loadHid s) := by
  simp +contextual (maxDischargeDepth := 200) only [loadHid, ↓keeps_State_putFlag, ↓keeps_State_put, *]
theorem keeps_loadSections (d : List Byte) (s : State) (h_s : Kept pt qu s) : Kept pt qu (loadSections d s) := by
  simp only [loadSections, ↓kept_mk, ↓kept_back, *]
theorem keeps_loadChannel (s : State) (e : Nat × Topo) (h_s : Kept pt qu s) : Kept pt qu (loadChannel s e) := by
  simp +contextual (maxDischargeDepth := 200) only [loadChannel, ↓kept_fold, implies_true, ↓keeps_State_putFlag, ↓keeps_State_put, *]
theorem keeps_loadTsets (b : List Byte) (s : State) (h_s : Kept pt qu s) : Kept pt qu (loadTsets b s) := by
  simp +contextual (maxDischargeDepth := 200) only [loadTsets, ↓kept_fold, implies_true, ↓keeps_State_plainWrite, *]
theorem keeps_patchChannel (b : List Byte) (s : State) (c : Nat) (h_s : Kept pt qu s) : Kept pt qu (patchChannel b s c) := by
  simp +contextual (maxDischargeDepth := 200) only [patchChannel, ↓kept_fold, implies_true, ↓keeps_State_setReg, ↓keeps_State_setChan, ↓keeps_State_put, *]
theorem keeps_loadPatch (d : List Byte) (s : State) (h_s : Kept pt qu s) : Kept pt qu (loadPatch d s) := by
  unfold loadPatch
  repeat' (first
    | (simp +contextual (maxDischargeDepth := 200) only [↓kept_ite, ↓kept_fold, implies_true, ↓keeps_patchChannel, ↓keeps_State_put, ↓keeps_State_logPacked, *]; done)
    | split
    | intros)
theorem keeps_loadCal (s : State) (h_s : Kept pt qu s) : Kept pt qu (loadCal s) := by
  simp +contextual (maxDischargeDepth := 200) only [loadCal, ↓kept_fold, implies_true, ↓keeps_State_putFlag, ↓keeps_State_plainWrite, ↓keeps_State_put, *]
theorem keeps_loadPair (s : State) (h_s : Kept pt qu s) : Kept pt qu (loadPair s) := by
  unfold loadPair
  repeat' (first
    | (simp +contextual (maxDischargeDepth := 200) only [↓kept_mk, ↓kept_back, ↓keeps_State_put, *]; done)
    | split
    | intros)
theorem keeps_loadFirmware (d : List Byte) (s : State) (h_s : Kept pt qu s) : Kept pt qu (loadFirmware d s) := by
  simp only [loadFirmware, ↓kept_mk, ↓kept_back, ↓keeps_startWdogs, ↓keeps_dramWrite, *]
theorem keeps_kindlingSummary (d : List Byte) (s : State) (h_s : Kept pt qu s) : Kept pt qu (kindlingSummary d s) := by
  simp only [kindlingSummary, ↓keeps_State_logEntry, *]
theorem keeps_execKindlingEnd (key : BitVec 256) (s : State) (h_s : Kept pt qu s) : KeptOut pt qu (execKindlingEnd key s) := by
  unfold execKindlingEnd
  repeat' (first
    | (simp +contextual (maxDischargeDepth := 200) only [↓kept_mk, ↓kept_back, ↓kept_fold, ↓keptOut_next, implies_true, ↓keeps_draughtLoaded, ↓keeps_loadHid, ↓keeps_loadPatch, ↓keeps_onlyIf, ↓keeps_loadTsets, ↓keeps_loadSections, ↓keeps_loadChannel, ↓keeps_queueLoaded, ↓keeps_loadCal, ↓keeps_loadFirmware, ↓keeps_State_put, ↓keeps_loadPair, ↓keeps_kindlingSummary, *]; done)
    | split
    | intros)
theorem keeps_raiseStage (s : State) (h_s : Kept pt qu s) : Kept pt qu (raiseStage s) := by
  simp +contextual (maxDischargeDepth := 200) only [raiseStage, ↓kept_mk, ↓kept_back, ↓kept_ite, ↓kept_fold, implies_true, ↓keeps_State_putFlag, ↓keeps_enterStage, *]
theorem keeps_bootOff (c : Nat) (t : Nat) (code : Nat) (s : State) (h_s : Kept pt qu s) : Kept pt qu (bootOff c t code s) := by
  simp +contextual (maxDischargeDepth := 200) only [bootOff, ↓keeps_State_setChan, ↓keeps_targetOff, ↓keeps_raiseStage, *]
theorem keeps_resetTargets (c : Nat) (l : List Nat) (s : State) (h_s : Kept pt qu s) : Kept pt qu (resetTargets c l s) := by
  simp +contextual (maxDischargeDepth := 200) only [resetTargets, ↓kept_ite, ↓kept_fold, implies_true, ↓keeps_State_setChan, ↓keeps_raiseCe, ↓keeps_busPut, ↓keeps_State_setLun, *]
theorem keeps_resetChannel (rb : List (Nat × BitVec 8)) (s : State) (e : Nat × Topo) (h_s : Kept pt qu s) : Kept pt qu (resetChannel rb s e) := by
  simp +contextual (maxDischargeDepth := 200) only [resetChannel, ↓kept_fold, implies_true, ↓keeps_resetTargets, ↓keeps_State_setChan, ↓keeps_State_putFlag, ↓keeps_State_put, *]
theorem keeps_execTargetResetStage (rb : List (Nat × BitVec 8)) (s : State) (h_s : Kept pt qu s) : KeptOut pt qu (execTargetResetStage rb s) := by
  simp +contextual (maxDischargeDepth := 200) only [execTargetResetStage, ↓kept_fold, implies_true, ↓keeps_onlyIf, ↓keeps_resetChannel, ↓keeps_raiseStage, *]
theorem keeps_execTargetReadyReset (c : Nat) (t : Nat) (s : State) (h_s : Kept pt qu s) : KeptOut pt qu (execTargetReadyReset c t s) := by
  simp only [execTargetReadyReset, ↓keeps_resetTargets, ↓keeps_onlyIf, *]
theorem keeps_execTargetBusyTimeout (c : Nat) (t : Nat) (s : State) (h_s : Kept pt qu s) : KeptOut pt qu (execTargetBusyTimeout c t s) := by
  simp only [execTargetBusyTimeout, ↓keeps_onlyIf, ↓keeps_bootOff, *]
theorem keeps_execTrstTimeout (c : Nat) (t : Nat) (s : State) (h_s : Kept pt qu s) : KeptOut pt qu (execTrstTimeout c t s) := by
  unfold execTrstTimeout
  repeat' (first
    | (simp +contextual (maxDischargeDepth := 200) only [↓keptOut_next, ↓keeps_onlyIf, ↓keeps_bootOff, *]; done)
    | split
    | simp +contextual (maxDischargeDepth := 200) only [*]
    | intros)
theorem keeps_identCycles (c : Nat) (x : Ident) (s : State) (h_s : Kept pt qu s) : Kept pt qu (identCycles c x s) := by
  simp +contextual (maxDischargeDepth := 200) only [identCycles, ↓kept_ite, ↓keeps_readCycles, ↓keeps_raiseCe, *]
theorem keeps_identTarget (c : Nat) (ids : List Ident) (s : State) (t : Nat) (h_s : Kept pt qu s) : Kept pt qu (identTarget c ids s t) := by
  unfold identTarget
  repeat' (first
    | (simp +contextual (maxDischargeDepth := 200) only [↓kept_ite, ↓keeps_identCycles, ↓keeps_State_setChan, ↓keeps_State_putFlag, ↓keeps_State_put, ↓keeps_bootOff, *]; done)
    | split
    | simp +contextual (maxDischargeDepth := 200) only [*]
    | intros)
theorem keeps_execIdentifyStage (c : Nat) (ids : List Ident) (s : State) (h_s : Kept pt qu s) : KeptOut pt qu (execIdentifyStage c ids s) := by
  simp +contextual (maxDischargeDepth := 200) only [execIdentifyStage, ↓kept_fold, implies_true, ↓keeps_onlyIf, ↓keeps_State_setChan, ↓keeps_identTarget, ↓keeps_raiseStage, *]
theorem keeps_trainTarget (c : Nat) (ms : List TrainSet) (s : State) (t : Nat) (h_s : Kept pt qu s) : Kept pt qu (trainTarget c ms s t) := by
  unfold trainTarget
  repeat' (first
    | with_reducible assumption
    | with_reducible refine kept_fold (fun _ _ _ => ?_) ?_
    | with_reducible apply kept_ite
    | with_reducible apply keptOut_ite
    | with_reducible refine (keptOut_next _).mpr ?_
    | with_reducible apply kept_ite2
    | with_reducible apply kept_ite22
    | with_reducible apply kept_id
    | with_reducible refine kept_fold2 (fun _ _ _ => ?_) ?_
    | with_reducible apply keeps_State_setChan
    | with_reducible apply keeps_trainTwice
    | with_reducible refine keeps3_trainTwice _ _ _ _ _ _ _ _ _ _ (by assumption) ?_
    | with_reducible apply keeps_logOnce
    | with_reducible apply keeps_State_putFlag
    | with_reducible apply keeps_targetOff
    | with_reducible apply keeps_raiseStage
    | split
    | fail_if_no_progress (with_reducible apply kept_same)
    | intro _)
theorem keeps_execTrainStage (c : Nat) (ms : List TrainSet) (s : State) (h_s : Kept pt qu s) : KeptOut pt qu (execTrainStage c ms s) := by
  simp +contextual (maxDischargeDepth := 200) only [execTrainStage, ↓kept_fold, implies_true, ↓keeps_onlyIf, ↓keeps_State_setChan, ↓keeps_trainTarget, ↓keeps_raiseStage, *]
theorem keeps_ledgerLun (reads : List LedgerRead) (s : State) (k : Nat) (h_s : Kept pt qu s) : Kept pt qu (ledgerLun reads s k) := by
  unfold ledgerLun
  repeat' (first
    | (simp +contextual (maxDischargeDepth := 200) only [↓kept_mk, ↓kept_back, ↓kept_ite, ↓keeps_State_putFlag, ↓keeps_State_setLedger, *]; done)
    | split
    | intros)
theorem keeps_execLedgerStage (c : Nat) (reads : List LedgerRead) (s : State) (h_s : Kept pt qu s) : KeptOut pt qu (execLedgerStage c reads s) := by
  simp +contextual (maxDischargeDepth := 200) only [execLedgerStage, ↓kept_fold, implies_true, ↓keeps_onlyIf, ↓keeps_State_setChan, ↓keeps_ledgerLun, ↓keeps_raiseStage, *]

theorem keeps_putSets (l : List (List Nat)) (s : State) (h_s : Kept pt qu s) : Kept pt qu (putSets l s) := by
  simp only [putSets, ↓kept_mk, ↓kept_back, *]
theorem keeps_putGauge (k : Nat) (b : Nat) (off : List Int) (s : State) (h_s : Kept pt qu s) : Kept pt qu (putGauge k b off s) := by
  simp only [putGauge, ↓keeps_dramWrite, *]
theorem keeps_loadGauges (s : State) (h_s : Kept pt qu s) : Kept pt qu (loadGauges s) := by
  simp +contextual (maxDischargeDepth := 200) only [loadGauges, ↓kept_fold, implies_true, ↓keeps_putGauge, *]
theorem keeps_formatStream (s : State) (k : Nat) (h_s : Kept pt qu s) : Kept pt qu (formatStream s k) := by
  unfold formatStream
  repeat' (first
    | (simp +contextual (maxDischargeDepth := 200) only [↓kept_fold, implies_true, ↓keeps_putUnit, ↓keeps_State_setStream, ↓keeps_putGrp, ↓keeps_queueErase, *]; done)
    | split
    | simp +contextual (maxDischargeDepth := 200) only [*]
    | intros)
theorem keeps_clearMap (s : State) (h_s : Kept pt qu s) : Kept pt qu (clearMap s) := by
  simp +contextual (maxDischargeDepth := 200) only [clearMap, ↓kept_mk, ↓kept_back, ↓kept_ite, ↓kept_fold, implies_true, ↓keeps_dramWrite, *]
theorem keeps_format (s : State) (h_s : Kept pt qu s) : Kept pt qu (format s) := by
  simp +contextual (maxDischargeDepth := 200) only [format, ↓kept_mk, ↓kept_back, ↓kept_fold, implies_true, ↓keeps_putUnit, ↓keeps_formatStream, ↓keeps_putSets, ↓keeps_clearMap, ↓keeps_loadGauges, *]
theorem keeps_loadLost (s : State) (n : Nat) (h_s : Kept pt qu s) : Kept pt qu (loadLost s n) := by
  simp only [loadLost, ↓kept_mk, ↓kept_back, ↓keeps_State_modSet, *]
theorem keeps_loadCkpt (m : MapRead) (h : HeadCopy) (s : State) (h_s : Kept pt qu s) : Kept pt qu (loadCkpt m h s) := by
  simp +contextual (maxDischargeDepth := 200) only [loadCkpt, ↓kept_mk, ↓kept_back, ↓kept_ite, ↓kept_fold, implies_true, ↓keeps_State_modDir, ↓keeps_putUnit, ↓keeps_loadLost, ↓keeps_putSets, ↓keeps_putGrp, ↓keeps_State_put, *]
theorem keeps_bumpValid (e : Nat) (f : Nat → Nat) (s : State) (h_s : Kept pt qu s) : Kept pt qu (bumpValid e f s) := by
  simp only [bumpValid, ↓kept_ite, ↓keeps_putUnit, *]
theorem keeps_modUnits (set : Nat) (us : List Nat) (f : UnitE → UnitE) (s : State) (h_s : Kept pt qu s) : Kept pt qu (modUnits set us f s) := by
  simp +contextual (maxDischargeDepth := 200) only [modUnits, ↓kept_fold, implies_true, ↓keeps_putUnit, *]
theorem keeps_repGroup (r : JRec) (s : State) (h_s : Kept pt qu s) : Kept pt qu (repGroup r s) := by
  unfold repGroup
  dsimp only
  refine kept_ite (keeps_putUnit _ _ _ h_s) (kept_ite (keeps_putGrp _ _ _ _ h_s) (kept_ite ?_ (kept_ite ?_ (kept_ite (keeps_putUnit _ _ _ h_s) (kept_ite ?_ (kept_ite ?_
    (kept_ite h_s (kept_ite (keeps_markLost _ _ _ h_s) (kept_ite ?_ (kept_ite (keeps_State_modSet _ _ _ h_s) (keeps_State_logPacked _ _ _ _ _ h_s)))))))))))
  · cases s.grp (r.lta % 2 ^ 26 / 2 ^ 18) (r.lta % 2 ^ 26 % 2 ^ 18) with
    | none => exact h_s
    | some x => simp only [↓keeps_putUnit, ↓keeps_putGrp, h_s]
  · cases s.grp (r.lta % 2 ^ 26 / 2 ^ 18) (r.lta % 2 ^ 26 % 2 ^ 18) with
    | none => exact h_s
    | some x => simp only [↓keeps_modUnits, ↓keeps_putGrp, h_s]
  · cases s.grp (r.lta % 2 ^ 26 / 2 ^ 18) (r.lta % 2 ^ 26 % 2 ^ 18) with
    | none => exact h_s
    | some x => simp only [↓kept_mk, ↓kept_back, ↓keeps_modUnits, ↓keeps_putGrp, h_s]
  · simp only [↓kept_mk, ↓kept_back, ↓keeps_releaseGroup, h_s]
  · simp only [↓kept_mk, ↓kept_back, ↓keeps_State_modSet, h_s]
theorem keeps_oldJournals (s : State) (h_s : Kept pt qu s) : Kept pt qu (oldJournals s) := by
  simp only [oldJournals, ↓keeps_State_setStream, *]
theorem kept_foldOpt {α : Type} {l : List α} {f : Option State → α → Option State} {o : Option State}
    (hf : ∀ o x, (∀ y, o = some y → Kept pt qu y) → ∀ y, f o x = some y → Kept pt qu y) (h : ∀ y, o = some y → Kept pt qu y) :
    ∀ y, l.foldl f o = some y → Kept pt qu y := by
  induction l generalizing o with
  | nil => exact h
  | cons a l ih => exact ih (hf o a h)
theorem keeps_loadMap (m : MapRead) (s : State) : ∀ y, loadMap m s = some y → Kept pt qu s → Kept pt qu y := by
  intro y hy h_s
  revert y
  unfold loadMap
  split
  · intro y hy; obtain rfl := Option.some.inj hy; exact h_s
  · refine kept_foldOpt (fun o mt ho y hy => ?_) (fun y hy => by obtain rfl := Option.some.inj hy; exact h_s)
    dsimp only at hy
    split at hy
    · cases hy
    · split at hy
      · obtain ⟨d, -, rfl⟩ := Option.map_eq_some_iff.mp hy
        exact keeps_dramWrite _ _ _ _ _ (ho _ rfl)
      · obtain rfl := Option.some.inj hy
        exact keeps_dramWrite _ _ _ _ _ (ho _ rfl)
theorem keeps_putEntries (cur : Tab Nat) (s : State) (h_s : Kept pt qu s) : Kept pt qu (putEntries cur s) := by
  simp +contextual (maxDischargeDepth := 200) only [putEntries, ↓kept_mk, ↓kept_back, ↓kept_ite, ↓kept_fold, implies_true, ↓keeps_State_modDir, ↓keeps_dramWrite, *]
theorem keeps_repSet (lta new old : Nat) (r : Rep) (h : Kept pt qu r.st) : Kept pt qu (repSet lta new old r).st := by
  exact keeps_bumpValid _ _ _ (keeps_bumpValid _ _ _ h)
theorem keeps_repRec (ents : List (Nat × Nat)) (r : Rep) (x : JRec) (h : Kept pt qu r.st) : Kept pt qu (repRec ents r x).st := by
  unfold repRec
  dsimp only
  repeat' (first
    | (with_reducible exact keeps_repGroup _ _ h)
    | (with_reducible exact keeps_repSet _ _ _ _ h)
    | split
    | simp only [↓kept_mk, ↓kept_back, ↓keeps_repSet, ↓keeps_State_logPacked, h])
theorem keeps_repFold {α : Type} (l : List α) (f : Rep → α → Rep) (r : Rep) (hf : ∀ r x, Kept pt qu r.st → Kept pt qu (f r x).st) (h : Kept pt qu r.st) :
    Kept pt qu (l.foldl f r).st := by
  induction l generalizing r with
  | nil => exact h
  | cons a l ih => exact ih _ (hf r a h)
theorem keeps_repStream (m : MapRead) (h : HeadCopy) (r : Option Rep) (k : Nat) (hr : ∀ r', r = some r' → Kept pt qu r'.st) :
    ∀ y, repStream m h r k = some y → Kept pt qu y.st := by
  intro y hy
  unfold repStream at hy
  split at hy
  · cases hy
  · rename_i r
    have h0 := hr r rfl
    dsimp only at hy
    split at hy
    · cases hy
    · rename_i l e hl
      have h1 := keeps_repFold l (fun r p => (pageRecs p).foldl (repRec m.entries) r) r
        (fun r x hr => keeps_repFold _ _ _ (fun r x hr => keeps_repRec _ r x hr) hr) h0
      split at hy
      · obtain rfl := Option.some.inj hy
        exact keeps_State_setStream _ _ _ h1
      · obtain rfl := Option.some.inj hy
        exact keeps_State_setStream _ _ _ h1
theorem keeps_repStreams (m : MapRead) (h : HeadCopy) (l : List Nat) (r : Option Rep) (hr : ∀ r', r = some r' → Kept pt qu r'.st) :
    ∀ y, l.foldl (repStream m h) r = some y → Kept pt qu y.st := by
  induction l generalizing r with
  | nil => exact hr
  | cons a l ih => exact ih _ (keeps_repStream m h r a hr)
theorem keeps_execMapStage (m : MapRead) (s : State) (h_s : Kept pt qu s) : KeptOut pt qu (execMapStage m s) := by
  unfold execMapStage
  refine keeps_onlyIf _ _ _ h_s ?_
  split
  · rename_i h hh
    split
    · exact keeps_bootFail _ _ h_s
    · rename_i u hu
      have h0 := keeps_loadMap _ _ _ hu (keeps_loadCkpt m h s h_s)
      dsimp only
      split
      · exact keeps_bootFail _ _ (kept_same _ _ _ _ _ _ _ _ _ _ _ _ _ _ _ _ _ _ _ _ _ _ _ _ _ _ _ h0)
      · rename_i r hr
        have h1 := keeps_repStreams m h _ _ (fun r' hr' => by obtain rfl := Option.some.inj hr'; exact h0) r hr
        exact kept_same _ _ _ _ _ _ _ _ _ _ _ _ _ _ _ _ _ _ _ _ _ _ _ _ _ _ _ (keeps_loadGauges _ (keeps_oldJournals _ (keeps_putEntries _ _ h1)))
  · split
    · exact kept_same _ _ _ _ _ _ _ _ _ _ _ _ _ _ _ _ _ _ _ _ _ _ _ _ _ _ _ (keeps_format _ h_s)
    · exact keeps_bootFail _ _ h_s
theorem keeps_execDramNoAnswer (s : State) (h_s : Kept pt qu s) : KeptOut pt qu (execDramNoAnswer s) := by
  simp only [execDramNoAnswer, ↓keeps_onlyIf, ↓keeps_bootFail, *]
theorem keeps_reloadCopy (s : State) (e : Meta × List Byte) (h_s : Kept pt qu s) : Kept pt qu (reloadCopy s e) := by
  simp +contextual (maxDischargeDepth := 200) only [reloadCopy, ↓kept_mk, ↓kept_back, ↓kept_ite, ↓keeps_handoffJob, ↓keeps_State_queueJob, ↓keeps_dramWrite, ↓keeps_State_putPan, *]
theorem keeps_execPanReload (ms : List (Nat × Nat × List (List Byte))) (s : State) (h_s : Kept pt qu s) : KeptOut pt qu (execPanReload ms s) := by
  simp +contextual (maxDischargeDepth := 200) only [execPanReload, ↓kept_mk, ↓kept_back, ↓kept_fold, implies_true, ↓keeps_onlyIf, ↓keeps_reloadCopy, ↓keeps_State_putFlag, ↓keeps_State_put, *]
theorem keeps_scanAll (s : State) (h_s : Kept pt qu s) : Kept pt qu (scanAll s) := by
  simp +contextual (maxDischargeDepth := 200) only [scanAll, ↓kept_ite, ↓kept_fold, implies_true, ↓keeps_slqDbWrite, *]
theorem keeps_countOffline (s : State) (h_s : Kept pt qu s) : Kept pt qu (countOffline s) := by
  simp +contextual (maxDischargeDepth := 200) only [countOffline, ↓keeps_State_put, *]
theorem keeps_startSeq (s : State) (h_s : Kept pt qu s) : Kept pt qu (startSeq s) := by
  simp only [startSeq, ↓kept_mk, ↓kept_back, *]
theorem keeps_renewReserve (s : State) (h_s : Kept pt qu s) : Kept pt qu (renewReserve s) := by
  simp +contextual (maxDischargeDepth := 200) only [renewReserve, ↓kept_mk, ↓kept_back, ↓kept_fold, implies_true, ↓keeps_fillReserve, ↓keeps_jAppend, *]
theorem keeps_execServeReadEntry (s : State) (h_s : Kept pt qu s) : KeptOut pt qu (execServeReadEntry s) := by
  simp +contextual (maxDischargeDepth := 200) only [execServeReadEntry, ↓kept_mk, ↓kept_back, ↓keeps_scanAll, ↓keeps_onlyIf, ↓keeps_countOffline, ↓keeps_startSeq, ↓keeps_renewReserve, ↓keeps_budget, ↓keeps_enterStage, *]
theorem keeps_execFrontierSearch (set : Nat) (g : Nat) (front : List Nat) (broken : List Nat) (seq : Nat) (s : State) (h_s : Kept pt qu s) : KeptOut pt qu (execFrontierSearch set g front broken seq s) := by
  unfold execFrontierSearch
  repeat' (first
    | (simp +contextual (maxDischargeDepth := 200) only [↓kept_mk, ↓kept_back, ↓kept_ite, ↓kept_fold, implies_true, ↓keeps_onlyIf, ↓keeps_startSeq, ↓keeps_State_setGrp, ↓keeps_State_logPacked, ↓keeps_closeGroup, *]; done)
    | split
    | simp +contextual (maxDischargeDepth := 200) only [*]
    | intros)
theorem keeps_advanceCounters (s : State) (h_s : Kept pt qu s) : Kept pt qu (advanceCounters s) := by
  simp +contextual (maxDischargeDepth := 200) only [advanceCounters, ↓kept_mk, ↓kept_back, ↓kept_ite, ↓keeps_State_put, *]
theorem keeps_fillAround (s : State) (h_s : Kept pt qu s) : Kept pt qu (fillAround s) := by
  simp only [fillAround, ↓kept_mk, ↓kept_back, ↓keeps_State_put, *]
theorem keeps_fillLost (s : State) (h_s : Kept pt qu s) : Kept pt qu (fillLost s) := by
  simp +contextual (maxDischargeDepth := 200) only [fillLost, ↓kept_ite, ↓kept_fold, implies_true, ↓keeps_replaceLun, *]
theorem keeps_wakeRuns (s : State) (h_s : Kept pt qu s) : Kept pt qu (wakeRuns s) := by
  simp only [wakeRuns, ↓keeps_queueSweep, *]
theorem keeps_startCounts (s : State) (h_s : Kept pt qu s) : Kept pt qu (startCounts s) := by
  simp only [startCounts, ↓kept_mk, ↓kept_back, ↓keeps_State_put, *]
theorem keeps_execRunEntry (s : State) (h_s : Kept pt qu s) : KeptOut pt qu (execRunEntry s) := by
  simp +contextual (maxDischargeDepth := 200) only [execRunEntry, ↓kept_mk, ↓kept_back, ↓kept_ite, ↓keptOut_ite, ↓keeps_queueSweep, ↓keeps_scanAll, ↓keeps_onlyIf, ↓keeps_advanceCounters, ↓keeps_startCounts, ↓keeps_fillAround, ↓keeps_wakeRuns, ↓keeps_fillLost, ↓keeps_nextRebuild, ↓keeps_enterStage, *]

theorem keeps_sanWrite (w : Word) (s : State) (h_s : Kept pt qu s) : Kept pt qu (sanWrite w s) := by
  simp +contextual (maxDischargeDepth := 200) only [sanWrite, ↓kept_ite, ↓keeps_setHalt, ↓keeps_State_putFlag, ↓keeps_State_plainWrite, ↓keeps_State_put, *]
theorem keeps_execSanitizeStart (r : Req) (w : Word) (s : State) (h_s : Kept pt qu s) : KeptOut pt qu (execSanitizeStart r w s) := by
  simp +contextual (maxDischargeDepth := 200) only [execSanitizeStart, ↓keptOut_next, implies_true, ↓keeps_regWrite, ↓keeps_sanWrite, *]
theorem keeps_sanDrain (s : State) (h_s : Kept pt qu s) : Kept pt qu (sanDrain s) := by
  simp +contextual (maxDischargeDepth := 200) only [sanDrain, ↓kept_ite, ↓kept_fold, implies_true, ↓keeps_freeSlot, ↓keeps_State_putFlag, ↓keeps_releaseMirror, *]
theorem keeps_sanCrypto (burnt : Bool) (s : State) (h_s : Kept pt qu s) : Kept pt qu (sanCrypto burnt s) := by
  simp only [sanCrypto, ↓kept_mk, ↓kept_back, ↓keeps_State_put, *]
theorem keeps_sanMap (s : State) (h_s : Kept pt qu s) : Kept pt qu (sanMap s) := by
  simp +contextual (maxDischargeDepth := 200) only [sanMap, ↓kept_mk, ↓kept_back, ↓kept_ite, ↓kept_fold, implies_true, ↓keeps_State_modDir, ↓keeps_putUnit, ↓keeps_clearMap, ↓keeps_beginCkpt, *]
theorem keeps_sanDone (s : State) (h_s : Kept pt qu s) : Kept pt qu (sanDone s) := by
  simp only [sanDone, ↓keeps_State_putFlag, *]
theorem keeps_execSanitizePhaseEnd (burnt : Bool) (s : State) (h_s : Kept pt qu s) : KeptOut pt qu (execSanitizePhaseEnd burnt s) := by
  simp +contextual (maxDischargeDepth := 200) only [execSanitizePhaseEnd, ↓kept_ite, ↓keptOut_ite, ↓kept_fold, implies_true, ↓keeps_sanDone, ↓keeps_sanMap, ↓keeps_onlyIf, ↓keeps_sanCrypto, ↓keeps_State_put, ↓keeps_queueErase, ↓keeps_sanDrain, ↓keeps_beginCkpt, *]

theorem keeps_readEffect (src : Nat) (k : RegKind) (i : Nat) (s : State) (h_s : Kept pt qu s) : Kept pt qu (readEffect src k i s).2 := by
  unfold readEffect
  repeat' (first
    | (simp +contextual (maxDischargeDepth := 200) only [↓kept_mk, ↓kept_back, ↓keeps_State_setReg, ↓keeps_claim, ↓keeps_rawLatch, *]; done)
    | split
    | intros)
theorem keeps2_readEffect (src : Nat) (k : RegKind) (i : Nat) (s : State) : ∀ y, readEffect src k i s = y → Kept pt qu s → Kept pt qu y.2 := by
  rintro y rfl h_s; exact keeps_readEffect src k i s h_s
theorem keeps3_readEffect (src : Nat) (k : RegKind) (i : Nat) (s : State) (a y) (e : readEffect src k i s = (a, y)) (h_s : Kept pt qu s) : Kept pt qu y := keeps2_readEffect src k i s (a, y) e h_s
theorem keeps_logViewRead (r : Req) (ofs : Nat) (beats : Nat) (s : State) (h_s : Kept pt qu s) : Kept pt qu (logViewRead r ofs beats s) := by
  simp only [logViewRead, ↓kept_ite, ↓keeps_State_respond, *]
theorem keeps_windowRead (r : Req) (ofs : Nat) (beats : Nat) (s : State) (h_s : Kept pt qu s) : Kept pt qu (windowRead r ofs beats s) := by
  unfold windowRead
  repeat' (first
    | (simp +contextual (maxDischargeDepth := 200) only [implies_true, ↓keeps_logViewRead, ↓keeps_State_respond, ↓keeps_regRead, ↓keeps_readEffect, *]; done)
    | split
    | intros)
theorem keeps_sameCycle (acc : Access) (k : RegKind) (i : Nat) (ev : Word) (s : State) (h_s : Kept pt qu s) : Kept pt qu (sameCycle acc k i ev s) := by
  simp only [sameCycle, ↓keeps_State_setReg, *]
theorem keeps_execReadClearField (r : Req) (ofs : Nat) (beats : Nat) (ev : Word) (s : State) (h_s : Kept pt qu s) : KeptOut pt qu (execReadClearField r ofs beats ev s) := by
  unfold execReadClearField
  repeat' (first
    | (simp +contextual (maxDischargeDepth := 200) only [↓kept_ite, ↓keeps_onlyIf, ↓keeps_windowRead, ↓keeps_sameCycle, *]; done)
    | split
    | intros)
theorem keeps_execLoHalfReadLatch (r : Req) (ofs : Nat) (s : State) (h_s : Kept pt qu s) : KeptOut pt qu (execLoHalfReadLatch r ofs s) := by
  unfold execLoHalfReadLatch
  repeat' (first
    | (simp +contextual (maxDischargeDepth := 200) only [↓keptOut_next, implies_true, ↓keeps_onlyIf, ↓keeps_regRead, ↓keeps_readEffect, *]; done)
    | split
    | intros)
theorem keeps_execWaHostRead (r : Req) (s : State) (h_s : Kept pt qu s) : KeptOut pt qu (execWaHostRead r s) := by
  simp +contextual (maxDischargeDepth := 200) only [execWaHostRead, ↓keptOut_next, implies_true, ↓keeps_regRead, ↓keeps_readEffect, *]
theorem keeps_execInboundReadRefused (r : Req) (ofs : Nat) (s : State) (h_s : Kept pt qu s) : KeptOut pt qu (execInboundReadRefused r ofs s) := by
  unfold execInboundReadRefused
  repeat' (first
    | (simp +contextual (maxDischargeDepth := 200) only [↓keptOut_next, implies_true, ↓keeps_onlyIf, ↓keeps_regRead, ↓keeps_readEffect, *]; done)
    | split
    | intros)
theorem keeps_fmwWrite (k : RegKind) (i : Nat) (w : Word) (s : State) (h_s : Kept pt qu s) : Kept pt qu (fmwWrite k i w s) := by
  simp only [fmwWrite, ↓kept_ite, ↓keeps_State_plainWrite, *]
theorem keeps_logCtlWrite (w : Word) (s : State) (h_s : Kept pt qu s) : Kept pt qu (logCtlWrite w s) := by
  simp only [logCtlWrite, ↓kept_mk, ↓kept_back, ↓kept_ite, ↓keeps_State_plainWrite, *]
theorem keeps_writeEffect (r : Req) (k : RegKind) (i : Nat) (w : Word) (s : State) (h_s : Kept pt qu s) : Kept pt qu (writeEffect r k i w s) := by
  unfold writeEffect
  repeat' (first
    | (simp +contextual (maxDischargeDepth := 200) only [↓kept_ite, ↓keeps_maskWrite, ↓keeps_State_setReg, ↓keeps_swi, ↓keeps_logCtlWrite, ↓keeps_slqFdbWrite, ↓keeps_tgtcfgWrite, ↓keeps_fmtW0Write, ↓keeps_belRegWrite, ↓keeps_secStsWrite, ↓keeps_thrWrite, ↓keeps_pdataWrite, ↓keeps_keyCommand, ↓keeps_hrvCtlWrite, ↓keeps_zeroWrite, ↓keeps_ownerRst, ↓keeps_setHalt, ↓keeps_nsCtlWrite, ↓keeps_loopCtlWrite, ↓keeps_lockCtlWrite, ↓keeps_pwrCtlWrite, ↓keeps_State_plainWrite, ↓keeps_belCtlWrite, ↓keeps_bankReqWrite, ↓keeps_slqCtlWrite, ↓keeps_admCfgWrite, ↓keeps_calReqWrite, ↓keeps_pdescWrite, ↓keeps_slqDbWrite, ↓keeps_sanWrite, ↓keeps_lcWrite, ↓keeps_fmtWordWrite, ↓keeps_drgCtlWrite, ↓keeps_ccCtlWrite, ↓keeps_queueEmber, ↓keeps_rawCtlWrite, ↓keeps_nsFieldWrite, ↓keeps_eoi, ↓keeps_kickWrite, ↓keeps_lockStsWrite, ↓keeps_haltWrite, ↓keeps_slqHeadWrite, ↓keeps_fmwWrite, *]; done)
    | split
    | intros)
theorem keeps_execRegisterWrite (r : Req) (ofs : Nat) (w : Word) (ev : Word) (s : State) (h_s : Kept pt qu s) : KeptOut pt qu (execRegisterWrite r ofs w ev s) := by
  unfold execRegisterWrite
  repeat' (first
    | (simp +contextual (maxDischargeDepth := 200) only [implies_true, ↓keeps_regWrite, ↓keeps_onlyIf, ↓keeps_writeEffect, ↓keeps_sameCycle, ↓keeps_State_respondWrite, *]; done)
    | split
    | intros)

theorem keeps_coreTick (s : State) (h_s : Kept pt qu s) : Kept pt qu (coreTick s) := by
  simp only [coreTick, ↓kept_mk, ↓kept_back, ↓kept_ite, *]
theorem keeps_quietTick (s : State) (h_s : Kept pt qu s) : Kept pt qu (quietTick s) := by
  simp only [quietTick, ↓kept_mk, ↓kept_back, *]
theorem keeps_idle (s : State) (h_s : Kept pt qu s) : Kept pt qu (idle s) := by
  simp +contextual (maxDischargeDepth := 200) only [idle, ↓kept_mk, ↓kept_back, ↓kept_ite, ↓keeps_coreTick, ↓keeps_ageTick, ↓keeps_quietTick, *]

end Sys2Proof.Machine
end

