-- ==== Sys2Proof/WellFormed.lean ====
section
/-! DEFINITION. Which operands of a command lie in the ranges the spec gives them. A command outside them is no row of the table: the
block never receives it. No meaning rests on this check; a unit that the engine does not have has no state, and its command leaves
the state. -/

namespace Sys2Proof

/-- A request's port, VC, TAG and SRC lie in their widths (R40, R41). -/
abbrev reqOk (r : Req) : Prop := r.port < 16 ∧ r.vc < 8 ∧ r.tag < 4096 ∧ r.src < 256

/-- An interrupt source is one of Table 16-1 (R577): 64 targets with 64 private sources each, and 2,048 shared sources. -/
def sourceOk : Source → Bool
  | .priv t k => decide (t < 64 ∧ k < 64)
  | .shared i => decide (i < 2048)

/-- What a memory error strikes is there: a cache line, a buffer slot of a channel, a mover's context, a log entry. -/
def memErrOk : MemErr → Bool
  | .corrected => true
  | .critical => true
  | .mapLine _ => true
  | .gaugeLine key => decide (key < 4096)
  | .readSlot c _ => decide (c < 128)
  | .writeRow _ => true
  | .mover m c => decide (m < 64 ∧ c < 32)
  | .logEntry i => decide (i < 2048)

/-- The operands lie in the ranges that the spec gives them. -/
def wellFormed (i : Instr) : Bool :=
  match i with
  | .rstEmberAssert _ => true
  | .rstColdAssert _ => true
  | .rstWarmAssert _ => true
  | .resetRelease _ => true
  | .clockMonitorFault => true
  | .embClkLoss => true
  | .pwrGoodCoreLow => true
  | .embClkLossClear _ => true
  | .selftestStage _ _ => true
  | .kindlingSlotRead _ _ _ => true
  | .kindlingEnd _ => true
  | .targetResetStage _ => true
  | .targetBusyTimeout c t => decide (c < 128 ∧ t < 8)
  | .targetReadyReset c t => decide (c < 128 ∧ t < 8)
  | .trstTimeout c t => decide (c < 128 ∧ t < 8)
  | .identifyStage c _ => decide (c < 128)
  | .trainStage c _ => decide (c < 128)
  | .ledgerStage c _ => decide (c < 128)
  | .mapStage _ => true
  | .panReload _ => true
  | .dramNoAnswer => true
  | .serveReadEntry => true
  | .frontierSearch set _ _ _ _ => decide (set < 256)
  | .runEntry => true
  | .pairingRecordSend => true
  | .pairingRecordReceived _ => true
  | .pairingTimeout => true
  | .pairingRetry => true
  | .heartbeatSend => true
  | .heartbeatReceived _ => true
  | .heartbeatLoss => true
  | .reconciliationStart => true
  | .reconciliationEnd => true
  | .inboundAtomic r => decide (reqOk r)
  | .inboundReservedVc r => decide (reqOk r ∧ 5 ≤ r.vc)
  | .inboundBoundaryCross r _ addr len => decide (reqOk r ∧ 4096 < addr % 4096 + len)
  | .creditReturn port vc _ => decide (port < 16 ∧ vc < 5)
  | .outboundResponse port vc tag _ _ => decide (port < 16 ∧ vc < 5 ∧ tag < 4096)
  | .outboundTimeout port vc tag => decide (port < 16 ∧ vc < 5 ∧ tag < 4096)
  | .lateResponse port vc tag => decide (port < 16 ∧ vc < 5 ∧ tag < 4096)
  | .registerWrite r ofs _ _ => decide (reqOk r ∧ ofs < 2 ^ 26)
  | .readClearField r ofs beats _ => decide (reqOk r ∧ ofs < 2 ^ 26 ∧ 1 ≤ beats ∧ beats ≤ 64)
  | .loHalfReadLatch r ofs => decide (reqOk r ∧ ofs < 2 ^ 26)
  | .waHostRead r => decide (reqOk r)
  | .sluiceDoorbell r n _ => decide (reqOk r ∧ n < 4096)
  | .fetchGrant => true
  | .fetchReadDone n _ _ => decide (n < 4096)
  | .sluiceNop _ => true
  | .sluiceRead _ => true
  | .sluiceWrite _ => true
  | .sluiceFlush _ => true
  | .sluiceUnmap _ => true
  | .sluiceFilter _ => true
  | .sluiceMargin _ => true
  | .mapLookup _ _ => true
  | .mapFillDone _ _ _ => true
  | .mapTileLoadDone _ _ => true
  | .gaugeLineFetchDone key _ _ => decide (key < 4096)
  | .class3Aged k => decide (k < 4096)
  | .class0BucketRefill => true
  | .raBucketRefill => true
  | .class0Deadline _ => true
  | .commitLate _ => true
  | .draughtGrant g => decide (g < 16)
  | .draughtEndReport => true
  | .stokerIssue k => decide (k < 4096)
  | .slotSwitch c _ => decide (c < 128)
  | .stkNop c _ => decide (c < 128)
  | .stkCyc c _ => decide (c < 128)
  | .stkGo c _ => decide (c < 128)
  | .stkXfer c _ _ => decide (c < 128)
  | .dataOutFrame c _ _ => decide (c < 128)
  | .stkTdly c _ => decide (c < 128)
  | .stkWait c _ => decide (c < 128)
  | .waitTimeout c k => decide (c < 128 ∧ k < 34)
  | .slotRunnable c k => decide (c < 128 ∧ k < 34)
  | .rbRise c t => decide (c < 128 ∧ t < 8)
  | .lunPoll c k _ => decide (c < 128 ∧ k < 32)
  | .stkSafe c _ => decide (c < 128)
  | .stkBr c _ => decide (c < 128)
  | .stkCall c _ => decide (c < 128)
  | .stkRet c _ => decide (c < 128)
  | .stkLdi c _ => decide (c < 128)
  | .stkAddi c _ => decide (c < 128)
  | .stkAndi c _ => decide (c < 128)
  | .stkOri c _ => decide (c < 128)
  | .stkCmpi c _ => decide (c < 128)
  | .stkPinset c _ => decide (c < 128)
  | .phyEngineZq c _ _ => decide (c < 128)
  | .phyDutyTrim c _ _ => decide (c < 128)
  | .phyLoadReadDelays c _ => decide (c < 128)
  | .phyLoadWriteDelays c _ => decide (c < 128)
  | .phyRateChange c _ => decide (c < 128)
  | .stkReport c _ => decide (c < 128)
  | .stkEnd c _ => decide (c < 128)
  | .stokerWatchdog c => decide (c < 128)
  | .operationEnd => true
  | .stallPoll k _ => decide (k < 4096)
  | .wprotReissue k => decide (k < 4096)
  | .pageRead k => decide (k < 4096)
  | .mpRead k => decide (k < 4096)
  | .cacheRead k => decide (k < 4096)
  | .colRead k => decide (k < 4096)
  | .prog k => decide (k < 4096)
  | .mpProg k => decide (k < 4096)
  | .cacheProg k => decide (k < 4096)
  | .slcProg k => decide (k < 4096)
  | .sealProg k => decide (k < 4096)
  | .erase k => decide (k < 4096)
  | .mpErase k => decide (k < 4096)
  | .eraseResume k => decide (k < 4096)
  | .otpRead k => decide (k < 4096)
  | .otpProg k => decide (k < 4096)
  | .getFeat k => decide (k < 4096)
  | .setFeat k => decide (k < 4096)
  | .eraseSuspendRequest k => decide (k < 4096)
  | .suspendWindowExpiry k => decide (k < 4096)
  | .codewordReady c _ => decide (c < 128)
  | .hardDecodeDone c _ u dec => decide (c < 128 ∧ u < 64 ∧ dec.all (fun d => d.length == 4160))
  | .softDecodeDone _ u dec => decide (u < 8 ∧ dec.all (fun d => d.length == 4160))
  | .crystallizerMemoryError soft u => decide (u < (if soft then 8 else 64))
  | .partnerReadDone _ => true
  | .harvestWrite ring => decide (ring < 4096)
  | .moderationTimer ring => decide (ring < 4096)
  | .harvestLookahead ring => decide (ring < 4096)
  | .hrvDoorbell r ring _ => decide (reqOk r ∧ ring < 4096)
  | .hrvRetry r ring _ => decide (reqOk r ∧ ring < 4096)
  | .hrvModWrite r ring _ _ => decide (reqOk r ∧ ring < 4096)
  | .sluiceEnable r n _ => decide (reqOk r ∧ n < 4096)
  | .sluiceDisable r n _ => decide (reqOk r ∧ n < 4096)
  | .slqHeadWrite r n _ => decide (reqOk r ∧ n < 4096)
  | .slqHaltWrite r _ => decide (reqOk r)
  | .flueDoorbell r f _ => decide (reqOk r ∧ f < 4)
  | .flueFetch f => decide (f < 4)
  | .slqCreate f => decide (f < 4)
  | .slqDestroy f => decide (f < 4)
  | .hrvCreate f => decide (f < 4)
  | .hrvDestroy f => decide (f < 4)
  | .slqModify f => decide (f < 4)
  | .hrvModify f => decide (f < 4)
  | .setHalt f => decide (f < 4)
  | .mirrorDrop f => decide (f < 4)
  | .flueCfg f => decide (f < 4)
  | .lunOpOtpRead f => decide (f < 4)
  | .lunOpOtpProg f => decide (f < 4)
  | .lunOpGetFeat f => decide (f < 4)
  | .lunOpSetFeat f => decide (f < 4)
  | .moverJobStart m c => decide (m < 64 ∧ c < 32)
  | .moverRequestSlot port => decide (port < 16)
  | .belMove m c => decide (m < 64 ∧ c < 32)
  | .belGather m c => decide (m < 64 ∧ c < 32)
  | .belLoop m c => decide (m < 64 ∧ c < 32)
  | .belWaitResp m c => decide (m < 64 ∧ c < 32)
  | .belWaitFlag m c => decide (m < 64 ∧ c < 32)
  | .belWaitTime m c => decide (m < 64 ∧ c < 32)
  | .belWaitTimeout m c => decide (m < 64 ∧ c < 32)
  | .belSignalPosted m c => decide (m < 64 ∧ c < 32)
  | .belSignalSealed m c => decide (m < 64 ∧ c < 32)
  | .belSignalAtomic m c => decide (m < 64 ∧ c < 32)
  | .belSignalSrc m c => decide (m < 64 ∧ c < 32)
  | .belSignalFlag m c => decide (m < 64 ∧ c < 32)
  | .belPauseWrite r m _ => decide (reqOk r ∧ m < 64)
  | .belDisable r m _ => decide (reqOk r ∧ m < 64)
  | .belGo r m _ => decide (reqOk r ∧ m < 64)
  | .destageStart _ => true
  | .programTokenGrant set => decide (set < 256)
  | .padRow set => decide (set < 256)
  | .journalPageProgram k => decide (k < 16)
  | .checkpointStart => true
  | .checkpointCommit => true
  | .overlayMerge _ => true
  | .mapCcDisable r _ => decide (reqOk r)
  | .mapCcEnable r _ => decide (reqOk r)
  | .writebackRetry _ => true
  | .mapRepair _ _ => true
  | .relocation _ _ => true
  | .reclaim set => decide (set < 256)
  | .rakePatrol => true
  | .rakeRefresh => true
  | .hotWindow => true
  | .lunOffline => true
  | .rebuildGroupDone => true
  | .rawCtlEnable r c _ => decide (reqOk r ∧ c < 128)
  | .rawCtlDisable r c _ => decide (reqOk r ∧ c < 128)
  | .rawCommandWrite r c ofs _ => decide (reqOk r ∧ c < 128 ∧ ofs < 2 ^ 26)
  | .rawAddressWrite r c ofs _ => decide (reqOk r ∧ c < 128 ∧ ofs < 2 ^ 26)
  | .rawDataWrite r c ofs _ => decide (reqOk r ∧ c < 128 ∧ ofs < 2 ^ 26)
  | .rawDataRead r c ofs len => decide (reqOk r ∧ c < 128 ∧ ofs < 2 ^ 26 ∧ len ≤ 4096)
  | .rawStatusRead r c ofs len => decide (reqOk r ∧ c < 128 ∧ ofs < 2 ^ 26 ∧ len ≤ 4096)
  | .rawReadTimeout c => decide (c < 128)
  | .patchRamRead r c ofs beats => decide (reqOk r ∧ c < 128 ∧ ofs < 2 ^ 26 ∧ 1 ≤ beats ∧ beats ≤ 64)
  | .patchRamWrite r c => decide (reqOk r ∧ c < 128)
  | .stkDbgHalt r c _ => decide (reqOk r ∧ c < 128)
  | .stkDbgStep r c _ _ _ _ => decide (reqOk r ∧ c < 128)
  | .kxReqWrite r c t _ => decide (reqOk r ∧ c < 128 ∧ t < 8)
  | .kxEntry c t _ => decide (c < 128 ∧ t < 8)
  | .kxExit c t => decide (c < 128 ∧ t < 8)
  | .tsetWrite r c t _ => decide (reqOk r ∧ c < 128 ∧ t < 8)
  | .trackingEval c _ => decide (c < 128)
  | .calTempSample => true
  | .calReqGo r _ => decide (reqOk r)
  | .calRunStart c => decide (c < 128)
  | .calRunEnd c _ => decide (c < 128)
  | .mediaStep k => decide (k < 4096)
  | .ledgerWrite k => decide (k < 4096)
  | .calWalkStep c => decide (c < 128)
  | .calSweepDeadline _ => true
  | .senseFrame _ _ _ => true
  | .sourceStale n => decide (n < 64)
  | .staleReport n => decide (n < 64)
  | .sampleTick => true
  | .admissionTakeEffect => true
  | .ceilingEvaluation => true
  | .loopEnable r n _ => decide (reqOk r ∧ n < 16)
  | .loopDisable r n _ => decide (reqOk r ∧ n < 16)
  | .loopFreezeWrite r n _ => decide (reqOk r ∧ n < 16)
  | .ceilEnWrite r _ => decide (reqOk r)
  | .bwMaxWrite r _ => decide (reqOk r)
  | .gradeTile g => decide (g < 16)
  | .graderMemoryError g => decide (g < 16)
  | .grdLdu g k => decide (g < 16 ∧ k < 4)
  | .grdLds g k => decide (g < 16 ∧ k < 4)
  | .grdLdi g k => decide (g < 16 ∧ k < 4)
  | .grdAdd g k => decide (g < 16 ∧ k < 4)
  | .grdSub g k => decide (g < 16 ∧ k < 4)
  | .grdMul g k => decide (g < 16 ∧ k < 4)
  | .grdDiv g k => decide (g < 16 ∧ k < 4)
  | .grdRem g k => decide (g < 16 ∧ k < 4)
  | .grdDivu g k => decide (g < 16 ∧ k < 4)
  | .grdRemu g k => decide (g < 16 ∧ k < 4)
  | .grdNeg g k => decide (g < 16 ∧ k < 4)
  | .grdAbs g k => decide (g < 16 ∧ k < 4)
  | .grdAnd g k => decide (g < 16 ∧ k < 4)
  | .grdOr g k => decide (g < 16 ∧ k < 4)
  | .grdXor g k => decide (g < 16 ∧ k < 4)
  | .grdShl g k => decide (g < 16 ∧ k < 4)
  | .grdShr g k => decide (g < 16 ∧ k < 4)
  | .grdSar g k => decide (g < 16 ∧ k < 4)
  | .grdMin g k => decide (g < 16 ∧ k < 4)
  | .grdMax g k => decide (g < 16 ∧ k < 4)
  | .grdAdds g k => decide (g < 16 ∧ k < 4)
  | .grdSubs g k => decide (g < 16 ∧ k < 4)
  | .grdMuls g k => decide (g < 16 ∧ k < 4)
  | .grdMulq g k => decide (g < 16 ∧ k < 4)
  | .grdSeq g k => decide (g < 16 ∧ k < 4)
  | .grdSne g k => decide (g < 16 ∧ k < 4)
  | .grdSlt g k => decide (g < 16 ∧ k < 4)
  | .grdSle g k => decide (g < 16 ∧ k < 4)
  | .grdSltu g k => decide (g < 16 ∧ k < 4)
  | .grdSleu g k => decide (g < 16 ∧ k < 4)
  | .grdBz g k => decide (g < 16 ∧ k < 4)
  | .grdBnz g k => decide (g < 16 ∧ k < 4)
  | .grdAccept g k => decide (g < 16 ∧ k < 4)
  | .grdReject g k => decide (g < 16 ∧ k < 4)
  | .grdAcceptf g k => decide (g < 16 ∧ k < 4)
  | .grdPdataHiWrite r _ => decide (reqOk r)
  | .grdPdescValidWrite r p _ => decide (reqOk r ∧ p < 256)
  | .grdFmtValidWrite r n _ => decide (reqOk r ∧ n < 64)
  | .sourceEdge src => decide (sourceOk src)
  | .sicClaim r t => decide (reqOk r ∧ t < 64)
  | .sicEoi r t _ => decide (reqOk r ∧ t < 64)
  | .sicSwi r _ => decide (reqOk r)
  | .sicBaseWrite r t _ => decide (reqOk r ∧ t < 64)
  | .sicRouteWrite r n _ => decide (reqOk r ∧ n < 2048)
  | .sicPendingWrite r ofs _ _ => decide (reqOk r ∧ ofs < 2 ^ 26)
  | .lockAcquire r n _ => decide (reqOk r ∧ n < 256)
  | .lockRelease r n _ => decide (reqOk r ∧ n < 256)
  | .leaseExpiry n => decide (n < 256)
  | .lckOwnerRst r _ => decide (reqOk r)
  | .brokenClear r n _ _ => decide (reqOk r ∧ n < 256)
  | .unwrapNs r _ => decide (reqOk r)
  | .genNs r _ _ => decide (reqOk r)
  | .kzero r _ => decide (reqOk r)
  | .wrapNs r _ => decide (reqOk r)
  | .wrapPair r _ => decide (reqOk r)
  | .progRoot r _ _ => decide (reqOk r)
  | .progDbg r _ _ => decide (reqOk r)
  | .nsCtlWrite r n _ => decide (reqOk r ∧ n < 1024)
  | .selftestRunWrite r _ _ => decide (reqOk r)
  | .periodicSelftest _ => true
  | .rbgHealthFail _ => true
  | .lockstepMismatch => true
  | .zeroize r _ => decide (reqOk r)
  | .sanitizeStart r _ => decide (reqOk r)
  | .sanitizePhaseEnd _ => true
  | .lifecycleTransition r _ => decide (reqOk r)
  | .tamperSet r _ => decide (reqOk r)
  | .dbgNewchal r _ _ => decide (reqOk r)
  | .challengeExpiry => true
  | .dbgVerify r _ _ => decide (reqOk r)
  | .dbgClose r _ _ => decide (reqOk r)
  | .dbgOpen r _ _ => decide (reqOk r)
  | .dbgFbxHalt r _ _ => decide (reqOk r)
  | .dbgFbxStep r _ _ => decide (reqOk r)
  | .tripLatch _ _ _ => true
  | .tripAct => true
  | .flushStart _ => true
  | .flushComplete => true
  | .tripClear _ _ => true
  | .emberWriteEffect => true
  | .p1Entry => true
  | .p2Request r _ _ => decide (reqOk r)
  | .p3Request r _ _ => decide (reqOk r)
  | .entryMessage => true
  | .wakeAlarm => true
  | .wakePlatform => true
  | .powerGoodTimeout => true
  | .wakeFromP2 _ => true
  | .wakeFromP3 _ => true
  | .dramIdleOkRise => true
  | .watchdogKick r _ => decide (reqOk r)
  | .watchdogExpiry n => decide (n < 5)
  | .memoryError e => decide (memErrOk e)
  | .deadlockBreak waits holds => decide (waits ≠ holds)
  | .bankRequest r _ => decide (reqOk r)
  | .bankedEntry => true
  | .bankedPins c => decide (c < 128)
  | .logMirrorCopy => true
  | .fireboxCodeViewRead r ofs beats => decide (reqOk r ∧ ofs < 2 ^ 26 ∧ 1 ≤ beats ∧ beats ≤ 64)
  | .fireboxCodeViewWrite r => decide (reqOk r)
  | .inboundReadRefused r ofs => decide (reqOk r ∧ ofs < 2 ^ 26)

end Sys2Proof
end

