-- ==== Sys2Proof/Tests/Slice0.lean ====
section
/-! SUPPORT. Tests: for each statement, states and operands that meet its hypotheses, clause by clause, and what the step makes of them. Expected values are
from the spec's rules. -/

open Sys2Proof Sys2Proof.Machine

set_option Elab.async false

namespace Sys2Proof.Tests

/-! ## States the tests start from -/

/-- A sealed write, or a read, of one word by the firebox core, which every table of rights allows most. -/
def fb : Req := ⟨0, 0, 7, 0x10, true, true⟩

/-- The same as a posted write. -/
def fbPosted : Req := ⟨0, 0, 7, 0x10, false, true⟩

/-- The engine out of reset, its firmware running, at start-up stage `n` (9 is RUN). -/
def at_ (n : Nat) : State :=
  ({ State.reset with
    pwr := { emberLow := false, coldLow := false, warmLow := false }
    fwUp := true } : State).put Fld.glbBootStsStage n

/-- The engine in RUN. -/
def run9 : State := at_ 9

/-- The state after a command, or the state before where it answers none. -/
def after (c : Instr) (s : State) : State :=
  match exec c s with
  | .next t => t
  | _ => s

/-- The command answers a next state. -/
def goes (c : Instr) (s : State) : Bool :=
  match exec c s with
  | .next _ => true
  | _ => false

/-! ## Graders -/

/-- A FILTER of one tile of class 1, with a program of one word, over records of 16 B that start at byte 4 of the tile. -/
def filterRq (w : BitVec 64) : Request := {
  rtag := 1
  sluice := 0
  cls := 1
  ring := 0
  opc := 5
  cid := 9
  irqNow := false
  ack := 0
  nt := 0
  buf := 0x1000
  opx := 0x20000000000
  nsid := 1
  keyidx := 0
  nsOk := true
  units := 2
  base := 0
  started := true
  gfmt := [0x00020004, 0, 0, 0]
  gprog := [w]
  tiles := [{
    lta := 5
    buf := 0x1000
    outcome := some (0, 0)
    data := List.replicate 4 0 ++ [0x80, 0x01, 0xFF] ++ List.replicate 13 0x7F }] }

/-- The lane: X0 = 5, X1 = -3, X2 = the smallest number. -/
def lane0 : Lane := { pos := 0, x := [5, -3, 0x8000000000000000, 0, 0, 0, 0, 0] }

def grader0 : Grader := { rtag := 1, tile := 0, lanes := [lane0], next := 1 }

/-- Grader 15 about to run a word. -/
def laneOn (w : BitVec 64) : State :=
  { run9 with
    reqs := [(1, filterRq w)]
    gr := { run9.gr with run := [(15, grader0)] } }

/-- A word of the form XD = 7, XA = 0, XB = 1. -/
def bin (o : Nat) : BitVec 64 := BitVec.ofNat 64 (o * 2 ^ 58 + 7 * 2 ^ 55 + 1 * 2 ^ 49)

/-- The lane after a command. -/
def laneAfter (c : Instr) (w : BitVec 64) : Lane :=
  match Tab.find 15 (after c (laneOn w)).gr.run with
  | some x => (x.lanes[0]?).getD lane0
  | none => lane0

/-- X7, V and Z after a command. -/
def x7 (c : Instr) (w : BitVec 64) : BitVec 64 × Bool × Bool :=
  let l := laneAfter c w
  ((l.x[7]?).getD 0, l.v, l.z)

/-- Every operation code of the statements is met by a lane that is to run it. -/
theorem test_laneAt : ∀ o ∈ [0x08, 0x09, 0x0A, 0x0B, 0x0C, 0x0D, 0x0E, 0x0F, 0x10, 0x11, 0x12, 0x13, 0x14, 0x15, 0x16, 0x17, 0x18, 0x19, 0x1A, 0x1B,
      0x1C, 0x20, 0x21, 0x22, 0x23, 0x24, 0x25, 0x28, 0x29, 0x30, 0x31, 0x32, 0x01, 0x02, 0x04],
    gOpc (bin o) = o ∧ gBi (bin o) = false ∧
    LaneAt (laneOn (bin o)) 15 0 grader0 (filterRq (bin o)) ((filterRq (bin o)).tiles[0]?.getD { lta := 0, buf := 0 }) lane0 (bin o) := by decide +kernel

/-- 5 and −3 (Table 13-3), and the corners of Table 13-4: the smallest number (X2) by −1, and shifts. -/
theorem test_graderArith :
    x7 (.grdAdd 15 0) (bin 0x08) = (2, false, false) ∧ x7 (.grdSub 15 0) (bin 0x09) = (8, false, false) ∧
    x7 (.grdMul 15 0) (bin 0x0A) = (-15, false, false) ∧ x7 (.grdDiv 15 0) (bin 0x0B) = (-1, false, false) ∧
    x7 (.grdRem 15 0) (bin 0x0C) = (2, false, false) ∧ x7 (.grdNeg 15 0) (bin 0x0F) = (-5, false, false) ∧
    x7 (.grdDiv 15 0) 0x2FA10000FFFFFFFF = (0x8000000000000000, true, false) ∧
    x7 (.grdRem 15 0) 0x33A10000FFFFFFFF = (0, false, false) ∧
    x7 (.grdDiv 15 0) 0x2FA1000000000000 = (0x8000000000000000, false, true) ∧
    x7 (.grdAbs 15 0) 0x43A0000000000000 = (0x8000000000000000, true, false) ∧
    x7 (.grdShl 15 0) 0x53810000FFFFFFFF = (0, true, false) ∧ x7 (.grdSar 15 0) 0x5BA1000000000040 = (-1, false, false) ∧
    x7 (.grdSubs 15 0) 0x6BA1000000000001 = (0x8000000000000000, true, false) := by decide +kernel

/-- The worked example of chapter 13: its words are well formed, and a FILTER's program check passes them. -/
theorem test_graderExample :
    progCheck 0 7 [0x0880301000000000, 0x11000000000003E8, 0x8D94000000000000, 0xA430000700000000, 0x0600001800000000, 0x82C1000000000003,
      0xC850000000000000, 0xC400000000000000] = none := by decide +kernel

/-- Byte 0 of the record is 0x80, byte 1 0x01, byte 2 0xFF: two bytes at OFS 1, little-endian; one byte signed; eight bytes from OFS 14, of which six
lie beyond the record. -/
theorem test_graderLoads :
    x7 (.grdLdu 15 0) 0x0780100100000000 = (0xFF01, false, false) ∧ x7 (.grdLds 15 0) 0x0B80000000000000 = (-128, false, false) ∧
    x7 (.grdLdu 15 0) 0x0780300E00000000 = (0x7F7F, false, false) ∧ x7 (.grdLdi 15 0) 0x13800000FFFFFFFF = (-1, false, false) ∧
    x7 (.grdLdu 15 0) 0x0780500000000000 = (0x8001, false, false) := by decide +kernel

/-- The program store: a word that no valid program covers, at the last address, and one that a valid program covers. -/
def storeAt : State := (run9.setReg .cryGrdPaddr 0 0x80000FFF).setReg .cryGrdPdataLo 0 0x11111111

theorem test_graderLoading :
    Written storeAt fb .cryGrdPdataHi 0 0xC4000000 ∧ storeHeld storeAt 0xFFF = false ∧
    storeWord (after (.grdPdataHiWrite fb 0xC4000000) storeAt) 0xFFF = 0xC400000011111111 ∧
    (after (.grdPdataHiWrite fb 0xC4000000) storeAt).get Fld.cryGrdPaddrAddr = 0 := by decide +kernel

/-- A valid program at the last word of the store holds it; the store's last word is REJECT. -/
def storeReject : State := { storeAt with gr := { storeAt.gr with store := [(4095, 0xC400000000000000)] } }

theorem test_graderChecks :
    storeHeld (storeAt.setReg .cryGrdPdesc 255 0x80000FFF) 0xFFF = true ∧
    Written storeReject fb .cryGrdPdesc 255 0x80000FFF ∧
    (after (.grdPdescValidWrite fb 255 0x80000FFF) storeReject).flag Fld.cryGrdPdescValid 255 = true ∧
    (after (.grdPdescValidWrite fb 255 0x80001FFF) storeReject).flag Fld.cryGrdPdescValid 255 = false ∧
    (after (.grdPdescValidWrite fb 255 0x80001FFF) storeReject).get Fld.cryGrdLdstsErr = 1 ∧
    Written run9 fb .cryGrdFmtW0 63 0x80010000 ∧
    (after (.grdFmtValidWrite fb 63 0x80010000) run9).flag Fld.cryGrdFmtW0Valid 63 = true ∧
    (after (.grdFmtValidWrite fb 63 0x8000C000) run9).get Fld.cryGrdLdstsErr = 7 := by decide +kernel

/-- The same FILTER with its tile waiting for a grader. -/
def waiting : State := { run9 with reqs := [(1, filterRq (bin 0x30))] }

theorem test_graderTile :
    nextTile (filterRq (bin 0x30)) = some 0 ∧ grdFree waiting 15 = true ∧
    bestReq ((waiting.reqs.map Prod.snd).filter fun q => (nextTile q).isSome && grdMay waiting 15 q.order) = some (filterRq (bin 0x30)) ∧
    ((Tab.find 15 (after (.gradeTile 15) waiting).gr.run).map fun x => (x.rtag, x.tile, x.lanes.length)) = some (1, 0, 4) ∧
    waiting.bit .cryGrdSts 0 16 = false ∧
    (after (.graderMemoryError 15) (laneOn (bin 0x30))).bit .cryGrdSts 0 31 = true ∧
    (after (.graderMemoryError 15) (laneOn (bin 0x30))).gr.run = [] := by decide +kernel

/-! ## Interrupts and locks -/

/-- Target 3 has a claim of priority 5 in service; its private source 6 has priority 9 and is pending. -/
def sic3 : State :=
  let s := (run9.setReg .sicPprio (3 * 8) 0x09000000).setReg .sicPmskLo 3 0
  let s := (s.edge (.priv 3 6)).edge (.priv 3 40)
  { s with sicStack := [(3, [(0x923, 5)])] }

theorem test_edges :
    (run9.coreOn = true ∧ sourcePending run9 (.shared 2047) = false ∧ sourcePending (after (.sourceEdge (.shared 2047)) run9) (.shared 2047) = true) ∧
    sourcePending (after (.sourceEdge (.priv 63 49)) run9) (.priv 63 49) = true ∧
    Written run9 fb .sicSwi 0 0x3F002F ∧ Steady run9 ∧ Fld.sicSwiSrc.get 0x3F002F < 48 ∧
    sourcePending (after (.sicSwi fb 0x3F002F) run9) (.priv 63 47) = true := by decide +kernel

theorem test_claim :
    ReadOk sic3 fb .sicClaim 3 ∧ sourcesReady sic3 3 = [.priv 3 6] ∧ sourcesReady run9 3 = [] ∧
    (after (.sicClaim fb 3) run9).resps.map Resp.data = [laneBytes (RegKind.sicClaim.offset 3) 0xFFFF] ∧
    (after (.sicClaim fb 3) sic3).resps.map Resp.data = [laneBytes (RegKind.sicClaim.offset 3) 6] ∧
    sicStackOf (after (.sicClaim fb 3) sic3) 3 = [(6, 9), (0x923, 5)] := by decide +kernel

theorem test_eoi :
    Written sic3 fb .sicEoi 3 0x923 ∧ sicStackOf (after (.sicEoi fb 3 0x923) sic3) 3 = [] ∧
    (after (.sicEoi fb 3 0x922) sic3).sicStack = sic3.sicStack ∧
    (after (.sicEoi fb 3 0x922) sic3).flag Fld.sicThrEoiErr 3 = true ∧
    (after (.sicEoi fb 0 0) run9).flag Fld.sicThrEoiErr 0 = true := by decide +kernel

theorem test_sicWrites :
    Written run9 fb .sicThr 63 0xF ∧ threshold (after (.sicBaseWrite fb 63 0xF) run9) 63 = 14 ∧
    threshold (after (.sicBaseWrite fb 3 0xF) sic3) 3 = 5 ∧
    Written run9 fb .sicRoute 2047 0x3F5 ∧ sourceTarget (after (.sicRouteWrite fb 2047 0x3F5) run9) (.shared 2047) = 63 ∧
    regAt 0x200000 = some (.sicPpendLo, 0) ∧ Written run9 fb .sicPpendLo 0 5 ∧
    (after (.sicPendingWrite fb 0x200000 5 2) run9).reg .sicPpendLo 0 = 7 := by decide +kernel

/-- Lock 255 held by the firebox core, lock 4 by hearth core 0x11. -/
def locks : State :=
  let s := (run9.setReg .lckSts 255 0xC0000010).setReg .lckSts 4 0x80000011
  { s with leases := [(4, 0), (255, 10000000)] }

theorem test_locks :
    Written locks fb .lckCtl 0 0x80000000 ∧ Steady locks ∧
    (after (.lockAcquire fb 0 0x80000000) locks).reg .lckSts 0 = 0x80000010 ∧
    Tab.find 0 (after (.lockAcquire fb 0 0x80000000) locks).leases = some 10000000 ∧
    (after (.lockAcquire fb 4 0x80000000) locks).get Fld.lckGstsRefused = 1 ∧
    (after (.lockAcquire fb 255 0x80000000) locks).reg .lckSts 255 = 0xC0000010 ∧
    (after (.lockRelease fb 255 0x40000000) locks).reg .lckSts 255 = 0x40000000 ∧
    (after (.lockRelease fb 4 0x40000000) locks).get Fld.lckGstsRefused = 1 ∧
    (after (.lockRelease fb 255 0xC0000000) locks).get Fld.lckGstsRefused = 1 := by decide +kernel

theorem test_lockBreaks :
    Tab.get 0 4 locks.leases ≤ locks.now ∧ (after (.leaseExpiry 4) locks).reg .lckSts 4 = 0x40000000 ∧
    Written locks fb .lckOwnerRst 0 0x80000011 ∧ (after (.lckOwnerRst fb 0x80000011) locks).reg .lckSts 4 = 0x40000000 ∧
    (after (.lckOwnerRst fb 0x80000011) locks).reg .lckSts 255 = 0xC0000010 ∧
    Written locks fb .lckSts 255 0x40000000 ∧ (after (.brokenClear fb 255 0x40000000 false) locks).reg .lckSts 255 = 0x80000010 ∧
    (after (.brokenClear fb 4 0x40000000 true) locks).reg .lckSts 4 = 0xC0000011 := by decide +kernel

/-! ## Stokers -/

/-- A want for one codeword, and an operation that serves it. -/
def want0 : Want := {
  why := .sample 4064
  cls := 2
  rtag := 5
  kind := 0
  page := ⟨4064, 3, 4, false⟩
  cw := 0
  offs := []
  step := 0
  front := false
  data := []
  optype := 0
  arg := 0
  since := 0 }

def op0 : Op := {
  optype := 1
  cls := 2
  rtag := 5
  lun := 4064
  wants := [want0]
  col := 0
  row := 0x0304
  planes := 1
  retry := 0
  gauge := []
  feat := []
  bufslot := 8
  xlen := 4607
  mask := 1
  tmo := 100 }

def slot0 : Slot := { op := op0, upc := 0x4010, g := [1, 2, 3, 4] }

/-- Slot 0 of channel 127 holds the pins, its target selected; patch RAM holds the word that it runs next. -/
def stkAt (x : Slot) (u : BitVec 96) : State :=
  run9.setChan 127 { slots := [(0, x)], act := some 0, gs := [5, 6, 7, 8], latch := some (0, []), patch := [(0x10, u)] }
def stk (x : Slot) : State := stkAt x 0

/-- A microword of an operation code, SEL 1, and the fields ROUTE, IMM, COND and TARGET. -/
def uw (o route imm cond target : Nat) : BitVec 96 :=
  BitVec.ofNat 96 (o * 2 ^ 88 + 1 * 2 ^ 85 + route * 2 ^ 64 + imm * 2 ^ 32 + cond * 2 ^ 24 + target * 2 ^ 10)

/-- Slot 0 of channel 127 after a command. -/
def slotOf (i : Instr) (s : State) : Option Slot := Tab.find 0 ((after i s).chan 127).slots

/-- A word of patch RAM run by slot 0: the state after its command. -/
def runs (i : BitVec 96 → Instr) (u : BitVec 96) (x : Slot := slot0) : State := after (i u) (stkAt x u)
def slotRun (i : BitVec 96 → Instr) (u : BitVec 96) (x : Slot := slot0) : Option Slot := Tab.find 0 ((runs i u x).chan 127).slots
def busRun (i : BitVec 96 → Instr) (u : BitVec 96) (x : Slot := slot0) : List BusCyc := ((runs i u x).chan 127).bus

theorem test_wordAt :
    (∀ o ∈ List.range 0x13, let u := uw o (if o = 1 ∨ o = 2 ∨ o = 3 then 32 else 0) 0 0 0
      mOp u = o ∧ mSel u = 1 ∧ WordAt (stkAt slot0 u) 127 0 slot0 0 0x4010 u) ∧ NotLast 0x4010 ∧ InSpace 0x43FF ∧
    -- the ROM's word at 0x0046, a context byte's address cycle, in a sequence that holds it
    WordAt (stkAt { slot0 with upc := 0x46, seq := [.addr 4] } 0) 127 0 { slot0 with upc := 0x46, seq := [.addr 4] } 7 0x46 (romAddr 2) := by
  decide +kernel

theorem test_stkFlow :
    condHolds (stk slot0) 127 slot0 0 = some true ∧ condHolds (stk slot0) 127 slot0 0x80 = some false ∧
    (slotRun (.stkBr 127) (uw 7 0 0 0 0x3FFF)).map Slot.upc = some 0x3FFF ∧
    (slotRun (.stkBr 127) (uw 7 0 0 0x80 0x3FFF)).map Slot.upc = some 0x4011 ∧
    (slotRun (.stkCall 127) (uw 8 0 0 0 0x20)).map (fun x => (x.upc, x.stack)) = some (0x20, [0x4011]) ∧
    (slotRun (.stkRet 127) (uw 9 0 0 0 0) { slot0 with stack := [0x77, 1] }).map (fun x => (x.upc, x.stack)) = some (0x77, [1]) ∧
    (slotRun (.stkAddi 127) (uw 0x0B 0x31 0xFFFFFFFF 0 0)).map Slot.g = some [1, 2, 3, 1] ∧
    ((runs (.stkOri 127) (uw 0x0D 0x70 0x10 0 0)).chan 127).gs = [5, 6, 7, 0x11] ∧
    ((runs (.stkCmpi 127) (uw 0x0E 4 6 0 0)).chan 127).lt = true := by decide +kernel

theorem test_stkPins :
    (stk slot0).flag Fld.stkTgtcfgKx (127 * 8) = false ∧ (stk slot0).banked = false ∧
    mCle (uw 1 32 0 0 0 ||| (1#96 <<< 84)) = true ∧
    busRun (.stkCyc 127) (uw 1 32 0x90 0 0 ||| (1#96 <<< 84)) = [.cmd 1 0x90] ∧
    busRun (.stkCyc 127) (uw 1 66 0x90 0 0 ||| (1#96 <<< 83)) = [.addr 1 4] ∧
    ((runs (.stkGo 127) (uw 2 32 0x30 0 0)).chan 127).rb = 0xFE ∧
    busRun (.stkPinset 127) (uw 0x0F 0 0 0 0) = [.pins 0x2000] ∧
    (slotOf (.stkGo 127 0) ((stkAt slot0 (uw 2 32 0x30 0 0x55)).putFlag Fld.glbBankStsBanked true)).map Slot.upc = some 0x55 ∧
    (slotRun (.stkXfer 127 · [0xE0]) (uw 3 0xC0 1 0 0)).map Slot.status = some 0xE0 ∧
    (slotRun (.stkXfer 127 · [1, 2]) (uw 3 0xA3 0 0 0)).map Slot.got = some 1 ∧
    busRun (.stkXfer 127 · []) (uw 3 0x80 2 0 0) { slot0 with op := { op0 with wants := [{ want0 with data := [[9, 8, 7]] }] } }
      = [.dataIn 1 [9, 8]] := by decide +kernel

/-- A slot whose XFER awaits a frame. -/
def stkFrame (again : Bool) : State := stk { slot0 with st := .frame 0xA8 again, upc := 0x101 }

theorem test_stkFrame :
    (slotOf (.dataOutFrame 127 [1, 2] (crc32c [1, 2])) (stkFrame false)).map Slot.st = some .ready ∧
    (slotOf (.dataOutFrame 127 [1, 2] (crc32c [1, 2] + 1)) (stkFrame false)).map Slot.st = some (.frame 0xA8 true) ∧
    (after (.dataOutFrame 127 [1, 2] (crc32c [1, 2] + 1)) (stkFrame true)).get Fld.stkKxCntDoutCrc 127 = 1 := by decide +kernel

/-- Slot 0 waits on LRDY. -/
def stkWait (parks : Bool) (cond : Nat) : State :=
  (stk { slot0 with st := .waiting cond 0 0x40 false 0 parks }).setChan 127
    { (stk { slot0 with st := .waiting cond 0 0x40 false 0 parks }).chan 127 with act := none }

/-- The same, its die having two LUNs. -/
def stkWait2 : State := { stkWait true 2 with img := { run9.img with topo := [(127, { profile := [3] })], profiles := [(3, { luns := 2 })] } }

theorem test_stkWaits :
    (slotRun (.stkWait 127) (uw 5 1 9 2 0x40)).map Slot.st = some (.waiting 2 9 0x40 true 0 true) ∧
    ((runs (.stkWait 127) (uw 5 1 9 2 0x40)).chan 127).act = none ∧
    (slotRun (.stkWait 127) (uw 5 1 9 2 0x40 ||| (9#96 <<< 0))).map Slot.st = some (.wcnt 0) ∧
    (slotOf (.slotRunnable 127 0) (stkWait true 0x82)).map Slot.upc = some 0x4011 ∧
    (slotOf (.waitTimeout 127 0) (stkWait true 2)).map Slot.upc = some 0x40 ∧
    (stkWait2.profile 4064).luns = 2 ∧ pollRanks stkWait2 127 0 { slot0 with st := .waiting 2 0 0x40 false 0 true } = true ∧
    pollDue stkWait2 127 0 { slot0 with st := .waiting 2 0 0x40 false 0 true } 0 = true ∧
    (slotOf (.lunPoll 127 0 0x60) stkWait2).map Slot.status = some 0x60 ∧
    ((after (.rbRise 127 7) (run9.setChan 127 { rb := 0 })).chan 127).rb = 0x80 ∧
    rawWaits (stk slot0) 127 = false ∧ maintWork (stk slot0) 127 = false ∧
    (slotRun (.stkSafe 127) (uw 6 0 0 0 0)).map Slot.upc = some 0x4011 ∧
    (slotRun (.stkSafe 127) (uw 6 0 0 0 0x33) { slot0 with abort := true }).map Slot.upc = some 0x33 := by decide +kernel

/-- A class-0 operation waits in slot 5 beside the class-2 one of slot 0, which holds the pins or not. -/
def stkTwo (act : Option Nat) : State :=
  (stk slot0).setChan 127 { (stkAt slot0 (uw 6 0 0 0 0)).chan 127 with slots := [(0, slot0), (5, { slot0 with op := { op0 with cls := 0 } })], act := act }

theorem test_stkSwitch :
    (topSlot (((stkTwo (some 0)).chan 127).slots.filter fun e => slotReady (stkTwo (some 0)) 127 e.2 && e.1 != 0)).map (·.1) = some 5 ∧
    slotFirst (5, { slot0 with op := { op0 with cls := 0 } }) (0, slot0) = true ∧
    (slotOf (.stkSafe 127 0) (stkTwo (some 0))).map Slot.st = some .parkedSafe ∧
    ((after (.slotSwitch 127 []) (stkTwo none)).chan 127).act = some 5 ∧
    Tab.rising ((stkTwo none).chan 127).slots = true := by decide +kernel

theorem test_stkEnds :
    ((runs (.stkReport 127) (uw 0x11 0 7 0 0)).chan 127).reports = [(0, 7, 0)] ∧
    ((runs (.stkEnd 127) (uw 0x12 0 1 0 0)).md.ended.map Ended.code) = [1] ∧
    (runs (.phyEngineZq 127 · { pu := 99, pd := 3 }) (uw 0x10 0 0 0 0)).flag Fld.stkChmodeZqDflt 127 = true ∧
    (Tab.get {} 127 (runs (.phyDutyTrim 127 · { dutyOk := true, dcc := -3 }) (uw 0x10 0 1 0 0)).cal.chs).dcc = -3 ∧
    (runs (.phyLoadReadDelays 127) (uw 0x10 0 2 0 0)).reg .stkDskRd 127 = 5 ∧
    (runs (.phyLoadWriteDelays 127) (uw 0x10 0 3 0 0)).reg .stkDskWr 127 = 7 ∧
    ((runs (.phyRateChange 127) (uw 0x10 0 4 0 0)).chan 127).lockTill = 2000 := by decide +kernel

theorem test_stkWatchdog :
    let s := (stk slot0).setChan 127 { (stk slot0).chan 127 with words := 65 }
    max 64 ((s.put Fld.stkWdogLimit 0 127).get Fld.stkWdogLimit 127) < 65 ∧
    (after (.stokerWatchdog 127) (s.put Fld.stkWdogLimit 0 127)).get Fld.stkStsCause 127 = 6 ∧
    (after (.stokerWatchdog 127) (s.put Fld.stkWdogLimit 0 127)).flag Fld.stkStsFault 127 = true := by decide +kernel

/-! ## Operations of a LUN -/

/-- LUN 4095 online with a die of two planes that allows all it may, and some wants queued. -/
def lunOn (planes : Nat) (ws : List Want) : State :=
  let p : Profile := { luns := 4, planes := planes, dflags := 0xFF, esuspMax := 4, nestMax := 4 }
  let s : State := { run9 with img := { run9.img with topo := [(127, { profile := [3, 3, 3, 3, 3, 3, 3, 3] })], profiles := [(3, p)] } }
  (s.setReg .stkTgtcfg 1023 0xF).setLun 4095 { queue := ws }

/-- A want of LUN 4095 of a kind and class, for a block and page. -/
def wantAt (kind cls block page : Nat) (slc : Bool) (data : List (List Byte)) : Want :=
  { want0 with
    kind := kind
    cls := cls
    page := ⟨4095, block, page, slc⟩
    data := data }

def opOf (i : Instr) (s : State) : Option (Nat × Nat) := ((after i s).lun 4095).op.map fun o => (o.optype, o.wants.length)

theorem test_reads :
    let a := wantAt 0 2 2 7 false []
    let s := lunOn 2 [a, { a with cw := 1 }, wantAt 0 2 3 7 false [], wantAt 0 2 2 8 false []]
    headWant s 4095 = some a ∧ takeSlot s 4095 a = some 8 ∧ slotsFrom s 127 8 2 = 2 ∧ slotRoom s 4095 false = 4 ∧ (s.profile 4095).ipr = true ∧ (s.profile 4095).cacheRd = true ∧
    mayStart s 4095 (wantAt 0 2 3 7 false []) = true ∧
    opOf (.pageRead 4095) s = some (1, 2) ∧ opOf (.mpRead 4095) s = some (2, 2) ∧ opOf (.cacheRead 4095) s = some (3, 2) ∧
    opOf (.colRead 4095) s = none ∧ opOf (.colRead 4095) (s.setLun 4095 { s.lun 4095 with sensed := [(a.page, [])] }) = some (4, 2) := by decide +kernel

/-- A LUN of a set whose token it holds. -/
def withToken (s : State) : State := { s with md := { s.md with sets := [(0, { slots := [4095], token := some 4095 })] } }

/-- Two consecutive steps of one block of a die with one page in each step. -/
def stepsLun : State :=
  let a := wantAt 1 2 2 0 false [[1]]
  let s := lunOn 2 [a, { a with page := ⟨4095, 2, 1, false⟩ }]
  { s with img := { s.img with profiles := s.img.profiles.map fun p => (p.1, { p.2 with cellBits := 1, wlPerBlk := 2, order := [0, 1] }) } }

theorem test_programs :
    let a := wantAt 1 2 2 7 false [[1]]
    let two := wantAt 1 2 2 7 false [[1], [2]]
    let b := wantAt 1 2 2 7 true [[1]]
    headWant (withToken (lunOn 2 [a])) 4095 = some a ∧ (progSlots (withToken (lunOn 2 [a])) 4095 [a]).isSome ∧ opOf (.prog 4095) (withToken (lunOn 2 [a])) = some (8, 1) ∧
    headWant (withToken (lunOn 2 [two])) 4095 = some two ∧ opOf (.mpProg 4095) (withToken (lunOn 2 [two])) = some (9, 1) ∧
    opOf (.slcProg 4095) (withToken (lunOn 2 [b])) = some (0x0B, 1) ∧
    opOf (.cacheProg 4095) (withToken stepsLun) = some (0x0A, 2) ∧
    opOf (.sealProg 4095) (withToken (lunOn 2 [{ a with kind := 3 }])) = some (0x0C, 1) ∧
    opOf (.erase 4095) (lunOn 1 [{ a with kind := 2 }]) = some (0x10, 1) ∧ opOf (.mpErase 4095) (lunOn 2 [{ a with kind := 2 }]) = some (0x11, 1) ∧
    opOf (.otpRead 4095) (lunOn 1 [{ a with kind := 4, optype := 0x18 }]) = some (0x18, 1) ∧
    opOf (.otpProg 4095) (withToken (lunOn 1 [{ a with kind := 4, optype := 0x19 }])) = some (0x19, 1) ∧
    opOf (.getFeat 4095) (lunOn 1 [{ a with kind := 4, optype := 0x20 }]) = some (0x20, 1) ∧
    opOf (.setFeat 4095) (lunOn 1 [{ a with kind := 4, optype := 0x21 }]) = some (0x21, 1) := by decide +kernel

/-- LUN 4095 with a part of its own, 20 ms after the start of time. -/
def lunWith (x : LunSt) : State := { (lunOn 1 []).setLun 4095 x with time := 20000000 }

/-- The same, polled in its target's rate. -/
def lunPolled (x : LunSt) : State := (lunWith x).setChan 127 { latch := some (7, []) }

theorem test_issue :
    let o := { op0 with lun := 4095, optype := 0x10 }
    let e : ErState := { op := o, since := 0 }
    let running := (lunWith { er := some e, queue := [wantAt 0 0 2 7 false []] }).setChan 127 { slots := [(31, { slot0 with op := o })] }
    let ready := lunWith { op := some o, granted := true }
    let stalled := lunPolled { stall := some ({ o with wants := [] }, 0) }
    let old := wantAt 0 3 2 7 false []
    ready.inSlot 4095 = none ∧ mayPass ready 4095 o = true ∧
    ((Tab.find 31 ((after (.stokerIssue 4095) ready).chan 127).slots).map Slot.upc) = some 0x10 ∧
    mayRequestSuspend running 4095 e = true ∧
    ((Tab.find 31 ((after (.eraseSuspendRequest 4095) running).chan 127).slots).map Slot.susp) = some true ∧
    (((after (.suspendWindowExpiry 4095) (lunWith { er := some { e with suspAt := some 0 } })).lun 4095).er.map ErState.closed) = some true ∧
    opOf (.eraseResume 4095) (lunWith { er := some { e with suspAt := some 0 } }) = some (0x12, 1) ∧
    class3Head { queue := [old], head3 := some old, age := 10000000 } = some old ∧
    ((after (.class3Aged 4095) (lunWith { queue := [old], head3 := some old, age := 10000000 })).lun 4095).aged = true ∧
    maintFirst stalled 127 = true ∧ stallDue stalled 4095 = true ∧ needsRate stalled 127 7 = false ∧
    ((after (.stallPoll 4095 0xE1) stalled).md.ended.map fun x => (x.code, x.status)) = [(1, 0xE1)] ∧
    ((after (.stallPoll 4095 0xA1) { stalled with time := 1000000 }).lun 4095).polled = 1000000 ∧
    opOf (.wprotReissue 4095) (lunWith { wprot := some (o, 0) }) = some (0x10, 1) := by decide +kernel

/-! ## Reads -/

/-- A codeword in slot 8 of channel 127's buffer. -/
def buf0 : BufSlot := { why := .rd 1, page := ⟨4095, 2, 7, false⟩, cw := 0, offs := [], step := 0, data := [], zeros := 65 }

def rdOf (own : RdOwner) : Rd := { own := own, cls := 3, rtag := 0, entry := 0, page := ⟨4095, 2, 7, false⟩, cw := 0, lta := 0, keyidx := 0xFFFF, kind := 0 }

/-- LUN 4095 with a die that shifts its read levels, a codeword in the buffer and some reads. -/
def reading (b : BufSlot) (rs : Tab Rd) : State :=
  let s := lunOn 1 []
  let s := { s with img := { s.img with profiles := [(3, { luns := 4, ofsMethod := 1 })] } }
  { s.setChan 127 { buf := [(8, b)] } with md := { s.md with rds := rs, hardRun := [(63, (127, 8))], softRun := [(7, 1)] } }

/-- The 4,160 B of a tile of zeros with KEYIDX 0xFFFF. -/
def tile0 : List Byte := List.replicate 4118 0 ++ [0xFF, 0xFF, 0xB1, 0x2F, 0x54, 0x88] ++ List.replicate 36 0

theorem test_codewords :
    bufWanted (reading buf0 [(1, rdOf .patrol)]) buf0 = true ∧
    ((Tab.find 8 ((after (.codewordReady 127 8) (reading buf0 [(1, rdOf .patrol)])).chan 127).buf).map BufSlot.stage) = some 1 ∧
    bufWanted (reading { buf0 with why := .soft 1 true } [(1, rdOf .patrol)]) { buf0 with why := .soft 1 true } = true ∧
    ((Tab.find 1 (after (.codewordReady 127 8) (reading { buf0 with why := .soft 1 true } [(1, rdOf .patrol)])).md.rds).map Rd.softP) = some (some 8) ∧
    (after (.codewordReady 127 8) (reading { buf0 with why := .sample 4095, zeros := 64 } [])).get Fld.cryGaugeStsErased = 1 := by decide +kernel

set_option maxRecDepth 100000 in
theorem test_decodes :
    let b1 := { buf0 with stage := 1 }
    let p := reading b1 [(1, rdOf (.partner 0 3)), (2, rdOf .patrol)]
    hardOn p 63 = true ∧ Tab.find 63 p.md.hardRun = some (127, 8) ∧ cbcByte (diffBits (tile0 ++ eccBytes tile0) []) < p.get Fld.cryWarnThresh ∧
    ((Tab.find 1 (after (.hardDecodeDone 127 8 63 (some tile0)) p).md.rds).map Rd.dec) = some (some (some tile0)) ∧
    1 ≤ ladderLimit p 3 ∧ (p.profile 4095).ofsMethod ≠ 0 ∧
    ((Tab.find 1 (after (.hardDecodeDone 127 8 63 none) (reading b1 [(1, rdOf .patrol)])).md.rds).map Rd.step) = some 1 := by decide +kernel

/-- Some data, with a head of KEYIDX 0xFFFF, its CRC, and zeros up to 4,160 B. -/
def head0 : List Byte := List.replicate 22 0 ++ [0xFF, 0xFF]
def tileOf (z : List Byte) : List Byte := z ++ (head0 ++ (numBytes 4 (crc32c (z ++ head0)).toNat ++ List.replicate 36 0))

theorem test_patrolDecode (s : State) (z : List Byte) (l : z.length = 4096) :
    (tileOf z).length = 4160 ∧ checkTile s none ((tileOf z).take 4128) = .ok z := by
  have h0 : head0.length = 24 := rfl
  have n : (numBytes 4 (crc32c (z ++ head0)).toNat).length = 4 := by simp [numBytes]
  have b : bytesNum (numBytes 4 (crc32c (z ++ head0)).toNat) = (crc32c (z ++ head0)).toNat := by
    have := (crc32c (z ++ head0)).isLt
    simp [bytesNum, numBytes, List.range, List.range.loop]; omega
  refine ⟨by simp [tileOf, n, h0, l], ?_⟩
  have f (a y : List Byte) (m : a.length = 4) : (a ++ y).take 8 = a ++ y.take 4 := by
    rw [List.take_append, m, List.take_of_length_le (by omega)]
  have t : (tileOf z).take 4128 = z ++ (head0 ++ (numBytes 4 (crc32c (z ++ head0)).toNat ++ List.replicate 4 0)) := by
    rw [tileOf, show 4128 = z.length + (24 + 8) by rw [l], List.take_length_add_append, ← h0, List.take_length_add_append, f _ _ n,
      List.take_replicate]
    simp
  have d (y : List Byte) : (z ++ y).drop 4096 = y := by rw [← l, List.drop_left]
  have h (y : List Byte) : (z ++ y).take 4096 = z := by rw [← l, List.take_left]
  have e (y : List Byte) : (head0 ++ y).take 0x18 = head0 := by rw [← h0, List.take_left]
  have g (y : List Byte) : (head0 ++ y).drop 0x18 = y := by rw [← h0, List.drop_left]
  have k (y : List Byte) : (readMeta (z ++ (head0 ++ y))).keyidx = 0xFFFF := by
    simp only [readMeta, d]
    show bytesNum [0xFF, 0xFF] = 0xFFFF
    decide
  have c (y : List Byte) : (readMeta (z ++ (head0 ++ (numBytes 4 (crc32c (z ++ head0)).toNat ++ y)))).tcrc = (crc32c (z ++ head0)).toNat := by
    rw [readMeta, d]
    simp only [g]
    rw [List.take_append_of_le_length (by rw [n]), List.take_of_length_le (by rw [n]), b]
  rw [t, checkTile]
  simp only [plainOf, k, c, h, d, e, true_or, if_true]

set_option maxRecDepth 100000 in
theorem test_softDecode :
    let r := { rdOf (.partner 0 3) with step := 17, centre := some 8, softM := some 9, softP := some 10 }
    let s := reading { buf0 with stage := 2 } [(1, r)]
    softSlots s r = some { buf0 with stage := 2 } ∧ softUnitOn s 7 = true ∧ Tab.find 7 s.md.softRun = some 1 ∧
    ((Tab.find 1 (after (.softDecodeDone 1 7 (some tile0)) s).md.rds).map Rd.dec) = some (some (some tile0)) ∧
    (after (.crystallizerMemoryError true 7) s).get Fld.crySoftOosOos = 0x80 ∧ (after (.crystallizerMemoryError false 63) s).reg .cryHardOos1 = 0x80000000 ∧
    (after (.crystallizerMemoryError false 63) ((s.setReg .cryHardOos0 0 0xFFFFFFFF).setReg .cryHardOos1 0 0x7FFFFFFF)).get Fld.glbBankStsCause = 0x0A := by
  decide +kernel

theorem test_partner :
    let o := { rdOf .patrol with recon := some { asked := [0, 3] } }
    let s := reading buf0 [(0, o), (1, { rdOf (.partner 0 3) with dec := some (some (List.replicate 4160 0)), stripe := 0, spos := 0 })]
    ((Tab.find 0 (after (.partnerReadDone 1) s).md.rds).bind Rd.recon).map (fun c => c.have_.map Prod.fst) = some [3] ∧
    Tab.find 1 (after (.partnerReadDone 1) s).md.rds = none := by decide +kernel

/-- A gauge line of block 2 of LUN 4095 asked for by a partner's read. -/
def gaugeAsked : State :=
  let s := reading buf0 [(1, { rdOf (.partner 0 3) with gaugeWait := true })]
  { s with fab := { s.fab with outst := [⟨mkReq 0 3 .rd 0 64 [], 5, 0, .gauge (gaugeKey ⟨4095, 2, 7, false⟩)⟩] } }

theorem test_gaugeLine :
    let key := gaugeKey ⟨4095, 2, 7, false⟩
    let t := after (.gaugeLineFetchDone key .ok (List.replicate 64 0xFE)) gaugeAsked
    (takeOutst (.gauge key) gaugeAsked).isSome = true ∧ gaugePage gaugeAsked key = some (⟨4095, 2, 7, false⟩, 3) ∧
    ((Tab.find key t.md.gauge).map fun l => l.off.take 1) = some [-2] ∧ (t.lun 4095).queue.map Want.offs = [[-2, -2, -2, -2, -2, -2, -2, -2]] := by
  decide +kernel

/-- A class-0 request at 0.3 ms. -/
def class0 (q : Request) : State := { run9.put Fld.mapTwinStsState 2 with reqs := [(1, q)], time := 300000 }

theorem test_bounds :
    let q := { filterRq 0 with cls := 0, opc := 1, tiles := [{ lta := 5, buf := 0 }] }
    let m := { filterRq 0 with cls := 0, opc := 2, ack := 2, tiles := [{ lta := 5, buf := 0, dstate := 1 }] }
    q.tiles.all tileDone = false ∧ (class0 m).twinUp = true ∧
    ((after (.class0Deadline 1) (class0 q)).ring 0).queue.map HEntry.status = [1] ∧ (after (.class0Deadline 1) (class0 q)).get Fld.mapC0CntDefer = 1 ∧
    ((after (.class0Deadline 1) (class0 { q with opc := 5 })).ring 0).queue.map HEntry.status = [1] ∧
    ((after (.commitLate 1) (class0 m)).ring 0).queue.map HEntry.status = [0] ∧ (after (.commitLate 1) (class0 m)).get Fld.mapC0Cnt2CmtLate = 1 := by decide +kernel

theorem test_buckets :
    (after .class0BucketRefill { run9 with time := 3999 }).md.c0Tok = 6 ∧
    (after .raBucketRefill { run9 with time := 1000000 }).md.raTok = run9.get Fld.mapRaCfgRate := by decide +kernel

theorem test_operationEnd :
    let e : Ended := { op := { op0 with lun := 4095, optype := 0x10, wants := [] }, code := 5, status := 0, went := true }
    let s := lunWith { er := some { op := e.op, since := 0 } }
    let s := { s with md := { s.md with ended := [e] } }
    nextEnded s.md.ended = some ([], e, []) ∧ s.flag Fld.stkRawCtlEn 127 = false ∧
    ((after .operationEnd s).lun 4095).er.map ErState.suspAt = some (some 20000000) ∧ (after .operationEnd s).get Fld.stkAopCntEsusp 127 = 1 := by decide +kernel

/-! ## The fabric and the register window -/

/-- A read by a host of target 5, and by the debug access port. -/
def host5 : Req := ⟨3, 4, 9, 0x45, false, true⟩
def dap : Req := ⟨3, 0, 9, 0x01, true, true⟩

theorem test_inbound :
    (after (.inboundAtomic fb) run9).resps.map Resp.code = [.decerr] ∧
    (after (.inboundReservedVc { fb with vc := 7 }) run9).resps.length = 1 ∧
    (after (.inboundBoundaryCross fbPosted true 4095 2) run9).resps = [] ∧ (after (.inboundBoundaryCross fb false 4032 65) run9).resps.length = 1 ∧
    regAt 0x130FFC = none ∧ inOwnView 0x130FFC = false ∧ inLogView 0x130FFC = false ∧
    (after (.registerWrite fb 0x130FFC 1 0) run9).resps.map Resp.code = [.decerr] ∧
    regAt 0x600000 = some (.cryCtl, 0) ∧ (after (.registerWrite fb 0x600000 0 0) { run9 with fwUp := false }).resps.map Resp.code = [.decerr] ∧
    RegKind.cryCtl.offset 0 = 0x600000 := by decide +kernel

theorem test_refused :
    let s := after (.inboundReadRefused host5 (RegKind.secKbuf.offset 31)) run9
    let d := after (.inboundReadRefused dap (RegKind.secKbuf.offset 31)) run9
    regAt (RegKind.secKbuf.offset 31) = some (.secKbuf, 31) ∧ accessAllowed run9 0x45 .secKbuf 31 false 0 = false ∧
    accessAllowed run9 0x01 .secKbuf 31 false 0 = false ∧ accessAllowed run9 0x45 .secKbuf 31 true 1 = false ∧
    s.get Fld.secAccStsLastId = 0x45 ∧ s.get Fld.secAccOfsOfs = RegKind.secKbuf.offset 31 ∧ s.get Fld.secAccStsCount = 1 ∧
    d.flag Fld.dbgStsRefused = true ∧ d.get Fld.secAccStsCount = 0 := by decide +kernel

/-- A sealed write that waits for a credit on port 15, channel 4; one that awaits its response; and one that timed out. -/
def fabric : State :=
  let q := mkReq 15 4 .sw 0x1000 64 (List.replicate 64 1)
  { run9 with
    time := 2000000
    fab := { run9.fab with
      credDat := [(credKey 15 4, 1)]
      waiting := [(q, .descWrite)]
      outst := [⟨{ q with port := 0 }, 4095, 0, .descWrite⟩]
      late := [(1, 2, 3, uBEL)] } }

theorem test_outbound :
    findOutst fabric.fab 0 4 4095 = some ⟨mkReq 0 4 .sw 0x1000 64 (List.replicate 64 1), 4095, 0, .descWrite⟩ ∧ freeTag fabric.fab 15 = 0 ∧
    (after (.creditReturn 15 4 false) fabric).fab.waiting = [] ∧ (after (.creditReturn 15 4 false) fabric).fab.outst.map Outst.tag = [4095, 0] ∧
    Tab.get 0 (credKey 3 1) (after (.creditReturn 3 1 false) run9).fab.credReq = Tab.get 0 (credKey 3 1) run9.fab.credReq + 1 ∧
    Tab.get 0 (credKey 3 1) (after (.creditReturn 3 1 true) run9).fab.credDat = Tab.get 0 (credKey 3 1) run9.fab.credDat + 1 ∧
    (after (.outboundResponse 0 4 4095 .ok []) fabric).fab.outst = [] ∧
    (after (.outboundResponse 0 4 4095 .decerr []) fabric).log.length = 1 ∧ (after (.outboundResponse 0 4 4095 .reserved []) fabric).log.length = 2 ∧
    ((after (.outboundTimeout 0 4 4095) fabric).log[1]?.map LogEntry.code) = some 0x1002 ∧
    (after (.lateResponse 1 2 3) fabric).log.map (fun e => (e.unit, e.code)) = [(uBEL, 0x1002)] ∧ (after (.lateResponse 1 2 3) fabric).fab.late = [] := by
  decide +kernel

theorem test_registers :
    Written run9 fb .hrvMod 4095 0xFF00FFFF ∧ regAt (RegKind.hrvMod.offset 4095) = some (.hrvMod, 4095) ∧
    (after (.registerWrite fb (RegKind.hrvMod.offset 4095) 0xFFFFFFFF 0) run9).reg .hrvMod 4095 = 0xFF00FFFF ∧
    (after (.registerWrite fb (RegKind.secAccSts.offset 0) 0x80000000 0) (run9.setReg .secAccSts 0 0x80450003)).reg .secAccSts = 0x00450003 ∧
    (after (.registerWrite fb (RegKind.secAccSts.offset 0) 0x80000000 0x80000000) (run9.setReg .secAccSts 0 0x80450003)).reg .secAccSts = 0x80450003 ∧
    ReadOk run9 fb .secAccSts 0 ∧ regAt (RegKind.secAccSts.offset 0) = some (.secAccSts, 0) ∧
    (after (.readClearField fb (RegKind.secAccSts.offset 0) 1 7) (run9.setReg .secAccSts 0 0x80450003)).reg .secAccSts = 0x80450007 := by decide +kernel

theorem test_latches :
    let s := { run9 with time := 0x1FFFFFFFF }
    let t := { after (.loHalfReadLatch fb (RegKind.glbTimeLo.offset 0)) s with time := 0x200000000 }
    ReadOk s fb .glbTimeLo 0 ∧ ReadOk t fb .glbTimeHi 0 ∧ loPair .glbTimeLo = some (0, .glbTimeHi) ∧
    (after (.readClearField fb (RegKind.glbTimeHi.offset 0) 1 0) t).resps.map Resp.data =
      [laneBytes (RegKind.glbTimeLo.offset 0) 0xFFFFFFFF, laneBytes (RegKind.glbTimeHi.offset 0) 1] ∧
    ReadOk s fb .mapWaHost 0 ∧ (after (.waHostRead fb) (s.setReg .mapWaMedia 0 7)).waLatch = some 7 := by decide +kernel

/-! ## Security and debug -/

/-- Slot 5 holds a key whose halves differ; namespace 1023 names it over tiles 0 to 9 of 100. -/
def sec5 : State :=
  let s := { run9 with
    sec := { run9.sec with slots := [(5, 1)], kek1 := 7, fbxRun := true, fbxCode := [1], fbxData := [2] }
    img := { run9.img with geo := { run9.img.geo with ltaCount := 100 } } }
  (s.setReg .secNsSizeLo 1023 10).setReg .secNsCtl 1023 5

theorem test_keyCommands :
    Written sec5 fb .secKcmd 0 0x82000006 ∧ halvesEqual 1 = false ∧ keyRefusal sec5 2 6 = krOk ∧ keyRefusal sec5 1 5 = krInUse ∧ keyRefusal sec5 1 6 = krOk ∧
    keyRefusal sec5 3 5 = krOk ∧ keyRefusal sec5 4 0 = krOk ∧ keyRefusal sec5 5 0 = krOk ∧ keyRefusal sec5 6 0 = krOk ∧ keyRefusal sec5 7 0 = krOk ∧
    (after (.genNs fb 0x82000006 1) sec5).sec.slots = [(5, 1), (6, 1)] ∧
    (after (.kzero fb 0x83000005) sec5).sec.slots = [] ∧ (after (.unwrapNs fb 0x81000005) sec5).get Fld.secKstsResult = 3 ∧
    (after (.wrapNs fb 0x84000000) sec5).get Fld.secKstsResult = 6 ∧ goes (.wrapPair fb 0x85000000) sec5 = true ∧
    (after (.progRoot fb 0x86000000 3) (sec5.setReg .secKbuf 0 0x12345678)).sec.row.rootHash = 0x12345678 ∧
    (after (.progDbg fb 0x87000000 8) (sec5.setReg .secKbuf 0 0x12345678)).sec.row.dbgHash = 0x12345670 ∧
    (after (.progDbg fb 0x87000000 8) (sec5.setReg .secKbuf 0 0x12345678)).sec.dbgBad = true := by decide +kernel

theorem test_namespaces :
    Written sec5 fb .secNsCtl 1023 0x80000005 ∧ nsBusy sec5 1023 = false ∧ nsChecks sec5 1023 5 = true ∧ nsChecks sec5 1023 6 = false ∧
    (after (.nsCtlWrite fb 1023 0x80000005) sec5).flag Fld.secNsCtlValid 1023 = true ∧
    (after (.nsCtlWrite fb 1023 0x80000006) sec5).flag Fld.secStsNsErr = true ∧
    (after (.nsCtlWrite fb 1023 6) (after (.nsCtlWrite fb 1023 0x80000005) sec5)).reg .secNsCtl 1023 = 5 := by decide +kernel

theorem test_views :
    viewGate run9 fb = .pass ∧ viewReadOk 4032 1 = true ∧ (after (.fireboxCodeViewRead fb 4032 1) run9).resps.map (fun x => (x.code, x.data.length)) = [(.ok, 64)] ∧
    (after (.fireboxCodeViewRead fb 0 1) run9).flag Fld.secStsXoRd = true ∧ (after (.fireboxCodeViewWrite fb) run9).flag Fld.secStsXoWr = true := by decide +kernel

theorem test_selftests :
    Written run9 fb .secSts 0 0x04000000 ∧ tampered (after (.tamperSet fb 0x04000000) run9) = true ∧
    Written run9 fb .secStCtl 0 0x80000000 ∧ (after (.selftestRunWrite fb 0x80000000 true) run9).get Fld.secStCtlRuns = 1 ∧
    (after (.selftestRunWrite fb 0x80000000 false) run9).get Fld.glbBankStsCause = 7 ∧
    (after (.periodicSelftest true) { run9 with time := 86400000000000 }).sec.lastTest = 86400000000000 ∧
    entropyFails (List.replicate 32 3) = true ∧ entropyFails (List.replicate 31 3) = false ∧
    (after (.rbgHealthFail (List.replicate 32 3)) run9).get Fld.glbBankStsCause = 8 ∧
    sec5.sec.fbxRun = true ∧ (after .lockstepMismatch sec5).get Fld.glbBankStsCause = 2 := by decide +kernel

theorem test_debug :
    let c : State := { sec5 with sec := { sec5.sec with chal := some ⟨5, 0⟩ } }
    let a := sec5.put Fld.dbgStsLevel 1
    Written sec5 dap .dbgCtl 0 0x80000000 ∧ (after (.dbgNewchal dap 0x80000000 9) sec5).reg .dbgChal 0 = 9 ∧
    verifyResult sec5 = 2 ∧ (after (.dbgVerify dap 0x40000000 0) sec5).get Fld.dbgStsFails = 1 ∧
    tampered (after (.dbgVerify dap 0x40000000 0) (sec5.put Fld.dbgStsFails 3)) = true ∧
    Written a fb .dbgCtl 0 0x20000000 ∧ debugLevel (after (.dbgClose fb 0x20000000 0) a) = 0 ∧
    debugLevel (after (.dbgClose dap 0x20000000 0) (a.put Fld.dbgStsLevel 2)) = 2 ∧
    lifecycle sec5 = lcManufacture ∧ debugLevel (after (.dbgOpen dap 0x10000000 0) sec5) = 2 ∧ (after (.dbgOpen dap 0x10000000 0) sec5).sec.slots = [] ∧
    debugLevel (after (.dbgOpen dap 0x10000000 0) (sec5.put Fld.secStsLc 1)) = 0 ∧
    (after .challengeExpiry c).sec.chal = none := by decide +kernel

theorem test_fbxHalt :
    let s := sec5.put Fld.dbgStsLevel 2
    let h := after (.dbgFbxHalt dap 0x80000000 0x7FFFF) s
    Written s dap .dbgFbxCtl 0 0x80000000 ∧ h.sec.fbxPc = 0x7FFFF ∧ (after (.dbgFbxHalt dap 0 0) h).sec.fbxHalted = false ∧
    Written h dap .dbgFbxCtl 0 0xC0000000 ∧ (after (.dbgFbxStep dap 0xC0000000 4) h).sec.fbxPc = 4 := by decide +kernel

theorem test_erasure :
    Written sec5 fb .secZero 0 0x80005A45 ∧ (after (.zeroize fb 0x80005A45) sec5).sec.slots = [] ∧
    (after (.zeroize fb 0x80005A45) sec5).get Fld.glbBankStsCause = 9 ∧ (after (.zeroize fb 0x80005A44) sec5).banked = false ∧
    Written sec5 fb .secLcCtl 0 0x90004C43 ∧ lcAllowed 0 1 = true ∧ (after (.lifecycleTransition fb 0x90004C43) sec5).sec.row.secured = 0xFF ∧
    (after (.lifecycleTransition fb 0x90004C43) sec5).sec.slots = [(5, 1)] ∧ (after (.lifecycleTransition fb 0xB0004C43) sec5).sec.slots = [] ∧
    (after (.lifecycleTransition fb 0xA0004C43) sec5).flag Fld.secAccStsRefused = true := by decide +kernel

theorem test_sanitize :
    let a := after (.sanitizeStart fb 0xC0005A4E) sec5
    let n := after (.nsCtlWrite fb 1023 0x80000005) sec5
    let b := { after (.sanitizeStart fb 0xC0005A4E) n with md := { n.md with ckptNo := 3 } }
    Written sec5 fb .secSanCtl 0 0xC0005A4E ∧ a.get Fld.slqHaltHalt = 15 ∧ a.flag Fld.secSanStsActive = true ∧ b.stage = 9 ∧
    (after (.sanitizePhaseEnd true) b).get Fld.secSanStsPhase = 1 ∧ (after (.sanitizePhaseEnd true) b).flag Fld.secNsCtlValid 1023 = false ∧
    (after (.sanitizePhaseEnd true) (b.put Fld.secSanStsPhase 2)).flag Fld.secSanStsDone = true ∧
    sanUnits b = [] ∧ (after (.sanitizePhaseEnd true) (b.put Fld.secSanStsPhase 3)).flag Fld.secSanStsActive = false := by decide +kernel

/-! ## Harvest rings and sluices -/

/-- Sluice 4095, of class 0 and owner 2, bound to ring 4095, both of one page, with a NOP entry owed. -/
def slq9 : State :=
  let s := (((run9.putFlag Fld.slqCfgValid true 4095).put Fld.slqCfgPages 1 4095).putFlag Fld.slqCtlEn true 4095).put Fld.slqCfg2Hrv 4095 4095
  let s := ((s.put Fld.slqCfgOwner 2 4095).put Fld.slqNsMaxout 8 4095).putFlag Fld.slqStsScan true 4095
  let s := ((s.putFlag Fld.hrvStsValid true 4095).put Fld.hrvCfgPages 1 4095).put Fld.hrvStsTail 127 4095
  let s := (s.put Fld.hrvCfgSrc 9 4095).put Fld.hrvStsPending 3 4095
  let e : HEntry := { bytes := List.replicate 32 0x40, sluice := 4095, irqNow := false, status := 0, release := 1, rtag := 7, last := true }
  { s with
    slq := [(4095, { fetch := some (0, 64) })]
    reqs := [(7, { filterRq 0 with rtag := 7, sluice := 4095 })]
    hrv := [(4095, { owned := 31, reserved := 1, queue := [e], failed := [e], due := some 0 })]
    time := 1 }

/-- A look-ahead read of ring 4095, from unit 30, awaits its response. -/
def looked : State :=
  { slq9 with
    hrv := [(4095, { owned := 31, looking := true })]
    fab := { slq9.fab with outst := [⟨mkReq 0 0 .rd 960 64 [], 5, 0, .lookahead 4095⟩] } }

theorem test_harvest :
    let s := slq9
    let t := after (.harvestWrite 4095) s
    (t.ring 4095).owned = 30 ∧ (t.ring 4095).reserved = 0 ∧ t.get Fld.hrvStsTail 4095 = 0 ∧ t.reqs = [] ∧ t.fab.waiting.length + t.fab.sent.length = 2 ∧
    sourcePending (after (.moderationTimer 4095) (s.putFlag Fld.hrvStsTimer true 4095)) (.shared 9) = true ∧
    (s.ring 4095).low = true ∧ ((after (.harvestLookahead 4095) s).fab.waiting.map fun w => (w.1.addr, w.1.len, w.2)) = [(960, 512, .lookahead 4095)] ∧
    Written s fb .hrvDb 4095 0 ∧ ((after (.hrvDoorbell fb 4095 0) s).ring 4095).looking = true ∧
    ((after (.hrvDoorbell fb 4095 0) looked).ring 4095).again = true ∧
    Written s fb .hrvCtl 4095 0x80000000 ∧ (after (.hrvRetry fb 4095 0x80000000) s).flag Fld.hrvCtlRetry 4095 = true ∧
    Written s fb .hrvMod 4095 0xFF00FFFF ∧ (after (.hrvModWrite fb 4095 0xFF00FFFF false) s).get Fld.hrvModTime 4095 = 0xFFFF ∧
    (after (.hrvModWrite fb 4095 0xFF00FFFF true) s).get Fld.hrvModTime 4095 = 0 := by decide +kernel

theorem test_lookedAhead :
    (findOutst looked.fab 0 0 5).map Outst.purpose = some (.lookahead 4095) ∧ ringAddr looked 4095 (countEnd looked 4095) = 960 ∧
    ((after (.outboundResponse 0 0 5 .ok (List.replicate 32 0x80 ++ List.replicate 32 0)) looked).ring 4095).owned = 32 ∧
    ((after (.outboundResponse 0 0 5 .decerr []) looked).ring 4095).owned = 31 := by decide +kernel

theorem test_sluiceRegs :
    let s := slq9
    Written s fb .slqDb 4095 5 ∧ (after (.sluiceDoorbell fb 4095 5) s).flag Fld.slqStsDbPend 4095 = true ∧
    ((after (.sluiceDoorbell fb 4095 5) (s.putFlag Fld.slqStsScan false 4095)).sluice 4095).base = 1 ∧
    (after (.sluiceDoorbell fb 0 5) s).get Fld.slqGstsStray = 1 ∧
    Written s fb .slqCtl 4095 0 ∧ Written s fb .slqCtl 4095 0x80000000 ∧ (after (.sluiceEnable fb 4095 0x80000000) s).flag Fld.slqCtlEn 4095 = true ∧
    (after (.sluiceDisable fb 4095 0) s).flag Fld.slqStsScan 4095 = true ∧
    (after (.sluiceDisable fb 4095 0) { s with slq := [] }).flag Fld.slqStsScan 4095 = false ∧
    Written s fb .slqHead 4095 3 ∧ slqIdle s 4095 = false ∧ (after (.slqHeadWrite fb 4095 3) s).get Fld.slqHeadHead 4095 = 0 ∧
    (after (.slqHeadWrite fb 4095 3) (run9)).get Fld.slqHeadHead 4095 = 3 ∧
    Written s fb .slqHalt 0 6 ∧ (after (.slqHaltWrite fb 6) s).get Fld.slqHaltHalt = 6 := by decide +kernel

/-- The fetch read of sluice 4095 in flight. -/
def fetching : State := { slq9 with fab := { slq9.fab with outst := [⟨mkReq 0 0 .rd 0 64 [], 5, 0, .fetch 4095⟩] } }

/-- An entry of 32 B with byte 0 and operation given. -/
def entry (ctl opc : Byte) : List Byte := [ctl, opc] ++ List.replicate 30 0

theorem test_fetch :
    let s := { slq9 with slq := [(4095, {})] }
    rotFirst (Tab.get 0 0 s.fetchPtr) (scanning s 0) = some 4095 ∧ flueWants s = false ∧
    ((after .fetchGrant s).sluice 4095).fetch = some (0, 512) ∧
    (takeOutst (.fetch 4095) fetching).isSome = true ∧
    (readEntry (entry 0 0)).own = false ∧ (after (.fetchReadDone 4095 .ok (entry 0 0)) fetching).flag Fld.slqStsScan 4095 = false ∧
    takeLimit fetching 4095 0 = false ∧ hasRoom fetching 4095 1 = true ∧ malformed fetching 4095 0 (readEntry (entry 0x80 7)) = some 2 ∧
    entryUnits fetching 4095 (readEntry (entry 0x80 7)) = 1 ∧
    (after (.fetchReadDone 4095 .ok (entry 0x80 7)) fetching).get Fld.slqStsErrCode 4095 = 2 ∧
    (after (.fetchReadDone 4095 .ok (entry 0x80 7)) fetching).banked = true := by decide +kernel

/-- A request taken. -/
def taken (q : Request) : State := { run9 with reqs := [(1, { q with started := false })] }

theorem test_operations :
    let q (n : Nat) : Request := { filterRq 0 with opc := n, started := false }
    let st (i : Instr) (q : Request) := ((after i (taken q)).ring 0).queue.map HEntry.status
    st (.sluiceNop 1) (q 0) = [0] ∧ ((after (.sluiceRead 1) (taken (q 1))).rq 1).map (·.started) = some true ∧
    ((after (.sluiceFilter 1) (taken (q 5))).rq 1).map (·.started) = some true ∧
    st (.sluiceRead 1) { q 1 with nsOk := false } = [0x12] ∧ st (.sluiceWrite 1) { q 2 with nsOk := false } = [0x12] ∧
    st (.sluiceFilter 1) { q 5 with nsOk := false } = [0x12] ∧ st (.sluiceWrite 1) { q 2 with status := some 0x10 } = [0x10] ∧
    (after (.sluiceWrite 1) (taken { q 2 with tiles := [{ lta := 5, buf := 0, slot := some 9 }] })).mov.jobs.map Job.path = [.commitOwn 1 0 9] ∧
    st (.sluiceFlush 1) (q 3) = [0] ∧ ((after (.sluiceMargin 1) (taken { q 6 with opx := 0x80, buf := 0x7FFC000000000000 })).lun 4095).queue.length = 2 ∧
    (entPage run9 0x7FFC000000000000).lun = 4095 := by decide +kernel

theorem test_unmap :
    let s := taken { filterRq 0 with opc := 4, tiles := [{ lta := 13, buf := 0 }] }
    let s := { s with md := { s.md with cache := [(1, { way := 0, ents := [1, 2, 3, 4, 5, 6, 7, 8] })] } }
    (cacheHas s 1).isSome = true ∧ cacheFlushing s = false ∧ s.wp.own = [] ∧
    ((Tab.find 1 (after (.sluiceUnmap 1) s).md.cache).map fun l => (l.ents, l.dirty)) = some ([1, 2, 3, 4, 5, 0, 7, 8], true) := by decide +kernel

/-! ## The flue -/

/-- Channel F0 or F1 with a doorbell rung, or running a command: operation, two bytes of zeros, and parameters from byte 4. -/
def flueBell : State := (run9.putFlag Fld.slqFstsEn true 1).modFlue 1 fun x => { x with bell := true, cpages := 1, rpages := 1, head := 126, tail := 127 }
def cmdOf (opc : Byte) (ps : List Byte) : List Byte := [0x81, opc, 0, 0] ++ ps ++ List.replicate (60 - ps.length) 0
def flueRun (f : Nat) (opc : Byte) (ps : List Byte) (s : State) : State :=
  s.modFlue f fun x => { x with cmd := some (cmdOf opc ps), cpages := 1, rpages := 1 }

/-- A channel's read of one byte, or of a command, awaits its response. -/
def flueWaits (f : Nat) (s : State) (own : Bool) : State :=
  { s.modFlue f fun x => { x with fetch := some (1, [], true) } with
    fab := { s.fab with outst := [⟨mkReq 0 4 .rd (if own then 4064 else 4032) (if own then 1 else 64) [], 5, 0, if own then .flueOwn f else .flueCmd f⟩] } }

theorem test_flueFetch :
    let ans (f : Nat) (own : Bool) (bs : List Byte) (s : State) := after (.outboundResponse 0 4 5 .ok bs) (flueWaits f s own)
    let zero := (run9.putFlag Fld.slqFstsEn true 0).modFlue 0 fun x => { x with bell := true, cpages := 1, rpages := 1, head := 126 }
    Written flueBell fb .slqFdb 1 0 ∧ ((after (.flueDoorbell fb 1 0) (flueBell.modFlue 1 fun x => { x with bell := false })).flueOf 1).bell = true ∧
    flueAsks flueBell 1 = true ∧ flueAsks flueBell 0 = false ∧
    ((after (.flueFetch 1) flueBell).fab.waiting.map fun w => (w.1.addr, w.1.len, w.2)) = [(4064, 1, .flueOwn 1)] ∧
    ((ans 1 true [0x80] flueBell).fab.waiting.map fun w => (w.1.addr, w.1.len, w.2)) = [(4032, 64, .flueCmd 1)] ∧
    ((ans 1 true [0x40] flueBell).flueOf 1).fetch = none ∧
    flueMalformed (cmdOf 7 []) = false ∧ noSuchOp (cmdOf 7 []) = false ∧ flueMalformed (cmdOf 0x0B []) = true ∧ flueLeft (flueBell.flueOf 1) = 2 ∧
    bufGet (bufPut (4032 - flueCmdAddr (flueBell.flueOf 1) 126) (cmdOf 7 []) []) 0 64 = cmdOf 7 [] ∧
    ((ans 1 false (cmdOf 7 []) flueBell).flueOf 1).head = 0 ∧ ((ans 1 false (cmdOf 7 []) flueBell).flueOf 1).cmd = some (cmdOf 7 []) ∧
    ((ans 1 false (cmdOf 0x0B []) flueBell).flueOf 1).tail = 0 ∧
    ((ans 1 false (List.replicate 64 0) flueBell).flueOf 1).bell = false ∧
    (ans 0 false (cmdOf 0x0B []) zero).banked = true := by
  decide +kernel

/-- SLQ_CREATE of sluice 4095: ring 4095, BASE 0x1000, 1 page, class 3, owner 2, client 7, EN. -/
def createSlq : List Byte := [0xFF, 0x0F, 0xFF, 0x0F, 0, 0x10, 0, 0, 0, 0, 0, 0, 1, 0, 0x13, 0, 0, 0, 7, 0, 0, 0, 0, 0, 1]
def createHrv : List Byte := [0xFF, 0x0F, 0xFF, 0x07, 0, 0x10, 0, 0, 0, 0, 0, 0, 1, 0, 3, 15, 1, 0, 5, 0]

theorem test_flueCreate :
    let s := (run9.putFlag Fld.hrvStsValid true 4095).put Fld.hrvCfgClass 3 4095
    let a := flueRun 0 1 createSlq s
    let t := after (.slqCreate 0) a
    FlueRuns a 0 1 (a.flueOf 0) ∧ fp (a.flueOf 0) 4 2 = 4095 ∧ ringOk (fp (a.flueOf 0) 8 8) (fp (a.flueOf 0) 0x10 2) 512 = true ∧ fp (a.flueOf 0) 0x12 1 = 0x13 ∧
    t.flag Fld.slqCfgValid 4095 = true ∧ t.get Fld.slqCfgOwner 4095 = 2 ∧ t.flag Fld.slqCtlEn 4095 = true ∧ t.get Fld.slqFstsDone 0 = 1 ∧
    (after (.slqCreate 0) (flueRun 0 1 (createSlq.set 14 0x18) s)).slq = [] ∧
    slqIdle (t.putFlag Fld.slqCtlEn false 4095) 4095 = true ∧ slqIdle t 4095 = false ∧
    (after (.slqDestroy 0) (flueRun 0 2 [0xFF, 0x0F] (t.putFlag Fld.slqCtlEn false 4095))).flag Fld.slqCfgValid 4095 = false ∧
    (after (.slqDestroy 0) (flueRun 0 2 [0xFF, 0x0F] t)).flag Fld.slqCfgValid 4095 = true ∧ ownedBy 0 (t.get Fld.slqCfgCreator 4095) = true := by decide +kernel

theorem test_flueRings :
    let a := flueRun 1 3 createHrv run9
    let t := after (.hrvCreate 1) a
    FlueRuns a 1 3 (a.flueOf 1) ∧ fp (a.flueOf 1) 4 2 = 4095 ∧ fp (a.flueOf 1) 6 2 = 2047 ∧ ringOk (fp (a.flueOf 1) 8 8) (fp (a.flueOf 1) 0x10 2) 512 = true ∧
    fp (a.flueOf 1) 0x13 1 = 15 ∧ t.flag Fld.hrvStsValid 4095 = true ∧ t.get Fld.hrvCfgSrc 4095 = 2047 ∧ ownedBy 1 (t.get Fld.hrvCfgCreator 4095) = true ∧
    sourcePending (after (.hrvDestroy 1) (flueRun 1 4 [0xFF, 0x0F] (t.put Fld.hrvStsPending 1 4095))) (.shared 2047) = true ∧
    (after (.hrvModify 1) (flueRun 1 6 [0xFF, 0x0F, 9, 0, 1, 2] t)).reg .hrvMod 4095 = 0x09000201 ∧
    (after (.setHalt 1) (flueRun 1 7 [5] run9)).get Fld.slqHaltHalt = 5 ∧ (after (.setHalt 2) (flueRun 2 7 [5] run9)).get Fld.slqHaltHalt = 0 := by decide +kernel

theorem test_flueChanges :
    let s := (run9.putFlag Fld.slqCfgValid true 4095)
    let m := { run9 with wp := { run9.wp with mir := [(0, { st := 0x21, lta := 0, hid := 0, seq := 0, admTime := 0 })] } }
    let cfg : List Byte := [3, 1, 9, 0, 0, 0x10, 0, 0, 0, 0, 0, 0, 0, 0x20, 0, 0, 0, 0, 0, 0, 16, 0, 16, 0, 0, 0, 0xFF, 0x0F, 0, 0, 0xFF, 0x0F, 15]
    let c := flueRun 1 9 cfg run9
    ((after (.slqModify 0) (flueRun 0 5 [0xFF, 0x0F, 255, 64, 0, 0x10] s)).sluice 4095).next = some (255, 64, 4096) ∧
    (after (.mirrorDrop 1) (flueRun 1 8 [] { m with wp := { m.wp with twin := { m.wp.twin with single := true } } })).wp.mir = [] ∧
    m.wp.twin.single = false ∧ (after (.mirrorDrop 1) (flueRun 1 8 [] m)).wp.mir = m.wp.mir ∧ (after (.mirrorDrop 3) (flueRun 3 8 [] m)).wp.mir = m.wp.mir ∧
    ringOk (fp (c.flueOf 1) 8 8) (fp (c.flueOf 1) 0x18 2) 16 = true ∧ ringOk (fp (c.flueOf 1) 0x10 8) (fp (c.flueOf 1) 0x1A 2) 16 = true ∧
    ((after (.flueCfg 1) c).flueOf 3).port = 15 ∧ (after (.flueCfg 1) c).flag Fld.slqFstsEn 3 = true := by decide +kernel

theorem test_lunOps :
    let on := lunOn 1 []
    let s := { on with img := { on.img with profiles := [(3, { luns := 4, otpPages := 1 })] } }
    let c (ty a b : Byte) := flueRun 0 10 ([127, 7, 3, ty, 0, 0, a, 0, b]) s
    let q (i : Instr) (t : State) := ((after i t).lun 4095).queue.map fun w => (w.optype, w.arg)
    let done (ty : Byte) (i : Instr) := ((after i ((c ty 0xC0 0).modFlue 0 fun x => { x with lunOp := some 0, lunEnd := some (2, 0xE0, []) })).flueOf 0).cmd
    lunOpRefused 0 ((c 0x18 0 0).flueOf 0) s = none ∧ q (.lunOpOtpRead 0) (c 0x18 0 0) = [(0x18, 0)] ∧ q (.lunOpOtpProg 0) (c 0x19 0 0) = [(0x18, 0)] ∧
    q (.lunOpGetFeat 0) (c 0x20 0x89 0) = [(0x20, 0x89)] ∧ q (.lunOpSetFeat 0) (c 0x21 0xC0 9) = [(0x21, 0xC0)] ∧
    lunOpRefused 0 ((c 0x21 0xB7 9).flueOf 0) s = some fsDenied ∧ q (.lunOpSetFeat 0) (c 0x21 0xB7 9) = [] ∧
    done 0x18 (.lunOpOtpRead 0) = none ∧ done 0x19 (.lunOpOtpProg 0) = none ∧ done 0x20 (.lunOpGetFeat 0) = none ∧ done 0x21 (.lunOpSetFeat 0) = none := by
  decide +kernel

/-! ## Movers -/

/-- A firmware job, and mover 55 with the instruction `w` at position 0 of its program; its loop registers A0 and B0 start at 0x1000 and 8. -/
def job0 : Job := ⟨.firmware, 3, 2, 5, 0, [], [], none, false, 0⟩
def bel (w : BitVec 128) (x : Ctx) : State :=
  let p (s : State) (i : Nat) : State := s.setReg .belProg (7 * 128 + i) ((w >>> (32 * i)).setWidth 32)
  let s := [0, 1, 2, 3].foldl p run9
  ({ s with time := 5000 }.put Fld.belA0LoALo 0x1000 7).put Fld.belBregB0 8 7 |>.setCtx 55 0 x

/-- An instruction of an operation code with LAST 0 and further bits. -/
def bw (opc : Nat) (bits : List (Nat × Nat)) : BitVec 128 := BitVec.ofNat 128 (opc * 2 ^ 124 + (bits.map fun b => b.2 * 2 ^ b.1).foldl (· + ·) 0)

def x0 : Ctx := { job := job0 }

/-- A read of 8,192 B at 0xFFF + A0 into the buffer from 0 + B0 is too long; of 4,100 B it is not. -/
def wMove : BitVec 128 := bw 1 [(120, 1), (91, 4099), (0, 0xFFF)]
def wGather : BitVec 128 := bw 2 [(122, 1), (100, 14), (96, 1)]
def wLoop : BitVec 128 := bw 3 [(104, 0x1FFF), (88, 2), (32, 0xFFFFF000)]
def wWait (cond : Nat) : BitVec 128 := bw 4 [(120, cond), (116, 15), (96, 5)]
def wSignal (kind : Nat) : BitVec 128 := bw 5 [(120, kind), (118, 1), (104, 64), (93, 2047), (87, 55), (83, 15), (0, 0x1008)]

theorem test_moveGather :
    BelAt (bel wMove x0) 55 0 x0 wMove ∧ belDecode wMove = .move 0 1 0 0 0 4099 0 0xFFF ∧
    (((after (.belMove 55 0) (bel wMove x0)).ctx 55 0).map fun x => x.reqs.map fun q => (q.addr, q.bofs, q.len)) =
      some [(0x1FFF, 8, 1), (0x2000, 9, 4096), (0x3000, 4105, 3)] ∧
    BelAt (bel wGather x0) 55 0 x0 wGather ∧ belDecode wGather = .gather 1 0 0 14 1 ∧ gatherRange (bel wGather x0) 55 0 [14, 15] = false ∧
    (((after (.belGather 55 0) (bel wGather x0)).ctx 55 0).map fun x => x.reqs.map fun q => (q.elem, q.bofs, q.len)) = some [(0, 0, 1), (1, 1, 1)] := by decide +kernel

theorem test_loop :
    let t := after (.belLoop 55 0) (bel wLoop x0)
    BelAt (bel wLoop x0) 55 0 x0 wLoop ∧ belDecode wLoop = .loop 0 0 0x1FFF 2 0xFFFFF000 ∧ lastOf wLoop = false ∧
    ((t.ctx 55 0).map fun x => (x.pc, x.lc 0, aReg t 55 x 0, bReg t 55 x 0)) = some (0, some 1, 0, 7) ∧
    (((after (.belLoop 55 0) (bel wLoop { x0 with lc0 := some 0 })).ctx 55 0).map fun x => (x.pc, x.lc 0)) = some (1, none) ∧
    (let s := bel (bw 3 [(123, 1), (104, 0x1FFF)]) x0
     (after (.belLoop 55 0) s).ctx 55 0 = none ∧ (after (.belLoop 55 0) s).get Fld.belJobsJobs 55 = 1 ∧ (after (.belLoop 55 0) s).get Fld.belStsState 55 = 4) := by decide +kernel

theorem test_waits :
    let q : MReq := ⟨0, 0, 0, .rd, 0, 0, 8, false, none⟩
    let pc (i : Instr) (s : State) := ((after i s).ctx 55 0).map fun x => (x.pc, x.waitSince)
    belDecode (wWait 0) = .wait 0 15 5 ∧ BelAt (bel (wWait 0) x0) 55 0 x0 (wWait 0) ∧ pc (.belWaitResp 55 0) (bel (wWait 0) x0) = some (1, none) ∧
    pc (.belWaitResp 55 0) (bel (wWait 0) { x0 with open_ := [q] }) = some (0, some 5000) ∧
    pc (.belWaitFlag 55 0) (bel (wWait 1) x0) = some (0, some 5000) ∧
    pc (.belWaitFlag 55 0) ((bel (wWait 1) x0).setBit .belFlag 7 15) = some (1, none) ∧
    pc (.belWaitTime 55 0) (bel (wWait 2) x0) = some (0, some 5000) ∧ pc (.belWaitTime 55 0) (bel (wWait 2) { x0 with waitSince := some 0 }) = some (1, none) ∧
    BelAt (bel (wWait 1) { x0 with waitSince := some 0 }) 55 0 { x0 with waitSince := some 0 } (wWait 1) ∧
    goes (.belWaitTimeout 55 0) (bel (wWait 1) { x0 with waitSince := some 0 }) = true ∧
    goes (.belWaitTimeout 55 0) (bel (wWait 0) { x0 with waitSince := some 0, open_ := [q] }) = true := by decide +kernel

theorem test_signals :
    let k (i : Instr) (n : Nat) := ((after i (bel (wSignal n) x0)).ctx 55 0).map fun x => x.reqs.map fun q => (q.kind, q.len)
    belDecode (wSignal 2) = .signal 2 1 64 2047 55 15 0x1008 ∧ BelAt (bel (wSignal 2) x0) 55 0 x0 (wSignal 2) ∧
    k (.belSignalPosted 55 0) 0 = some [(.pw, 8)] ∧ k (.belSignalSealed 55 0) 1 = some [(.sw, 8)] ∧ k (.belSignalAtomic 55 0) 2 = some [(.at 1, 16)] ∧
    sourcePending (after (.belSignalSrc 55 0) (bel (wSignal 3) x0)) (.shared 2047) = true ∧
    (after (.belSignalFlag 55 0) (bel (wSignal 4) x0)).bit .belFlag 7 15 = true := by decide +kernel

theorem test_jobs :
    let d : Job := { job0 with path := .desc, prio := 2 }
    let s := run9.queueJobs [d, { d with prio := 4 }]
    let q : MReq := ⟨0, 0, 0, .rd, 0, 0, 8, false, none⟩
    let i := ({ run9 with fab := { run9.fab with credReq := [(credKey 5 2, 1)] } } : State).setCtx 32 0 { x0 with reqs := [q] }
    bestJob (s.mov.jobs.filter (jobFits s 47 0)) = some { d with prio := 4 } ∧ (after (.moverJobStart 47 0) s).mov.jobs = [d] ∧
    ((after (.moverJobStart 47 0) s).ctx 47 0).map Ctx.job = some { d with prio := 4 } ∧
    bestCtx (i.mov.ctxs.filter fun e => e.2.job.port == 5 && contends i e) = some (ctxKey 32 0, { x0 with reqs := [q] }) ∧
    ((after (.moverRequestSlot 5) i).ctx 32 0).map Ctx.open_ = some [q] ∧
    belDecode 0 = .reserved ∧ belCheck (bel 0 x0) 55 x0 0 = some 5 ∧ goes (.belMove 55 0) (bel 0 x0) = true := by decide +kernel

theorem test_moverCtl :
    let s := bel (wWait 0) { x0 with waitSince := some 0 }
    Written s fb .belCtl 55 0xC0000000 ∧ ((after (.belPauseWrite fb 55 0xC0000000) s).ctx 55 0).map Ctx.waitSince = some none ∧
    goes (.belDisable fb 55 0) s = true ∧
    moverCtxs run9 55 = [] ∧ moverState run9 55 ∈ [0, 4, 5] ∧ ((after (.belGo fb 55 0xA0000000) run9).ctx 55 0).isSome = true := by decide +kernel

/-! ## Destage, the journal, checkpoints and the map -/

/-- Set 0 of 18 slots, all LUN 4095, whose SLC blocks have two word lines of one codeword; one free unit stands in it, and some more is given. -/
def writing (md : Media → Media) (wp : Write → Write) : State :=
  let p : Profile := { luns := 4, planes := 1, blkPerLun := 8, wlPerBlk := 2, physPage := 5200, dflags := 0xFF, valid := true, order := [0, 1] }
  let u : UnitE := { estate := 0 }
  let s : State := { run9 with
    img := { run9.img with
      topo := [(127, { profile := [3, 3, 3, 3, 3, 3, 3, 3] })]
      profiles := [(3, p)]
      geo := { parSize := 100000, ckptUnits := 3 } }
    time := 20000000 }
  let s := s.setReg .stkTgtcfg 1023 0xF
  { s with
    md := md { s.md with
      sets := [(0, { slots := List.replicate 18 4095, openG := some 7, row := 1 })]
      groups := [(7, { unit := List.replicate 18 9, rot := 0, gstate := 1, slc := true })]
      units := [(unitKey 4095 1, u), (unitKey 4095 2, u), (unitKey 4095 3, u), (unitKey 4095 4, u)] }
    wp := wp s.wp }

def pan0 : Pan := {
  st := 0x11
  lta := 77
  hid := 0
  seq := 5
  keyidx := 0xFFFF
  urgent := true
  admTime := 0
  oldPa := 0
  newPa := 0
  staged := true }

def member0 (o : MemOf) : Member := ⟨o, 77, 5, 0xFFFF, [], [], false⟩

theorem placed_one (s : State) (h : (s.md.sets.map Prod.fst).filter (takesTile s false) = [0]) (lta seq : Nat) : placeTile s false lta seq = some 0 := by
  unfold placeTile
  rw [h]
  simp [Nat.mod_one]

theorem test_destage :
    let s := (writing id fun w => { w with own := [(2, pan0)] }).put Fld.mapRclCfgHostFloor 2
    placeTile s false 77 5 = some 0 ∧ s.running = true ∧ s.stage = 9 ∧ overlayHeld s = false ∧ mayDestage s 2 pan0 = true ∧ s.pan 2 = some pan0 ∧
    pan0.admTime + windowNs { s with time := 60000000000 } ≤ 60000000000 ∧ flushing s = false := by
  refine ⟨placed_one _ (by decide +kernel) _ _, ?_⟩
  decide +kernel

theorem test_token :
    let w (why : Why) (since : Nat) : Want := { want0 with why := why, kind := 1, page := ⟨4095, 0, 0, false⟩, since := since }
    let l := [w (.jpage 0) 1, w (.rowUnit 7 16) 5, w (.rowUnit 9 17) 3]
    let s := (writing (fun m => { m with
      sets := [(0, { slots := [4095] })]
      rows := [(7, { group := 7, step := 0, seq := 4 }), (9, { group := 7, step := 9, seq := 2 })] }) id).setLun 4095 { queue := l }
    ((after (.programTokenGrant 0) s).set_ 0).token = some 4095 := by decide +kernel

theorem test_pads :
    let rid := stripeNo 0 7 0
    let s := writing (fun m => { m with rows := [(rid, { group := 7, step := 0, seq := 4, mem := [(3, member0 (.pan 2))] })] })
      fun w => { w with own := [(2, pan0)] }
    let t := after (.padRow 0) s
    (openRow 0 s).map Prod.fst = some rid ∧ rowGroup rid = 7 ∧ wantsPads s 0 7 = true ∧ (∀ pos, pos < 18 → rowLost s rid pos = false) ∧ rowUnitQ s rid = 1 ∧
    (t.row rid).map (fun x => x.mem.map fun e => e.2.own == .pad) = some [true, true, true, false, true, true, true, true, true, true, true, true, true, true, true, true] := by
  decide +kernel

theorem test_journal :
    let s := writing id fun w => { w with streams := [(0, { grp := some (0, 7), page := [⟨1, 77, 5, 3, 0⟩], jseq := 11 })] }
    let t := after (.journalPageProgram 0) s
    journalPages s 0 = 32 ∧ pageRecords s 0 = 128 ∧ (journalRow (stripeNo 0 7 0) s).isSome = true ∧ rowLost s (stripeNo 0 7 0) 0 = false ∧
    (rowPage s (stripeNo 0 7 0) 0 0).isSome = true ∧ eraseAwaited s (pageUnit s ((rowPage s (stripeNo 0 7 0) 0 0).map Prod.fst |>.getD ⟨0, 0, 0, false⟩)) = false ∧ (t.stream 0).phase = .programming ∧ (t.stream 0).jseq = 12 ∧ (t.stream 0).page = [] ∧
    (t.lun 4095).queue.map Want.why = [.jpage 0] ∧ ((t.row (stripeNo 0 7 0)).bind fun x => (Tab.find 0 x.mem).map Member.seq) = some 11 := by decide +kernel

theorem test_checkpoints :
    let s := writing (fun m => { m with dir := [(4, { dirty := true }), (6, {})] }) fun w => { w with streams := [(0, { since_ckpt := 0x8000000, jseq := 11 })], seq := 9 }
    let c : Ckpt := ⟨5, [], 0, 1, [], [], 0, [], 3, 100, []⟩
    ckptDue s = true ∧ areaSmall s = false ∧ (after .checkpointStart s).md.ckpt.map (fun c => (c.no, c.ptr, c.seqBase, c.area, c.tiles)) = some (1, [11], 9, 0, [4]) ∧
    areaSmall { s with img := { s.img with geo := { s.img.geo with ckptUnits := 0 } } } = true ∧ ckptTiles s ≤ 100 ∧
    (after .checkpointCommit { s with md := { s.md with ckpt := some c } }).md.ckpt.map Ckpt.stepNo = some 4 := by decide +kernel

/-- A READ or FILTER of LTA 77, started. -/
def reader (opc : Nat) : Request := { filterRq 0 with opc := opc, started := true, tiles := [{ lta := 77, buf := 0 }] }

theorem test_lookup :
    let s := { writing id id with reqs := [(1, reader 5)] }
    let p := { s with wp := { s.wp with own := [(2, pan0)] } }
    let t := after (.mapLookup 1 0) s
    let b := { s with wp := { s.wp with own := [(2, { pan0 with back := true })] } }
    panCopy b 77 = some (2, { pan0 with back := true }) ∧ after (.mapLookup 1 0) b = b ∧ panCopy p 77 = some (2, pan0) ∧ ((after (.mapLookup 1 0) p).tile 1 0).map Tile.panSlot = some (some 2) ∧
    panCopy s 77 = none ∧ demandMap s = false ∧ cacheHas s 9 = none ∧ cacheFills s = true ∧ cacheFills (s.putFlag Fld.mapCcCtlEn false) = false ∧
    t.md.fills = [9] ∧ (t.tile 1 0).map Tile.mapWait = some true ∧ t.get Fld.mapCcMissMiss = 1 ∧
    (after (.mapLookup 1 0) (s.putFlag Fld.mapCcCtlEn false)).md.fills = [9] := by decide +kernel

theorem test_fill :
    let q := { reader 5 with tiles := [{ lta := 77, buf := 0, mapWait := true }] }
    let o (p : Purpose) : Outst := ⟨mkReq 0 1 .rd 0 64 [], 0, 0, p⟩
    let s := writing (fun m => { m with cache := [(9, ⟨0, [], false, false, none⟩)], fills := [9], loads := [(4, 2)] }) id
    let s := { s with fab := { s.fab with outst := [o (.mapFill 9), o (.mapTile 4)] } }
    let e := after (.mapFillDone 9 .dataerr []) { s with reqs := [(1, q)] }
    (takeOutst (.mapFill 9) s).isSome = true ∧
    (Tab.find 9 (after (.mapFillDone 9 .ok (List.replicate 8 1 ++ List.replicate 56 0)) s).md.cache).map MLine.ents = some [0x0101010101010101, 0, 0, 0, 0, 0, 0, 0] ∧
    waiters { s with reqs := [(1, q)] } = [(1, 0, 77)] ∧ e.md.repair = [72, 73, 74, 75, 76, 77, 78, 79] ∧ (e.tile 1 0).map Tile.mapWait = some false ∧
    (takeOutst (.mapTile 4) s).isSome = true ∧ ((after (.mapTileLoadDone 4 .ok) s).dirOf 4).slot = some 2 := by decide +kernel

theorem test_mapCache :
    let l : MLine := ⟨0, [1, 2, 3, 4, 5, 6, 7, 8], true, false, none⟩
    let s := writing (fun m => { m with cache := [(9, l)] }) id
    let c := writing (fun m => { m with cache := [(9, { l with dirty := false })] }) id
    let f := s.putFlag Fld.mapCcStsFlushing true
    let w := writing (fun m => { m with cache := [(9, { l with wbFail := some 0 })] }) id
    let off := after (.mapCcDisable fb 0) s
    Written s fb .mapCcCtl 0 0 ∧ off.flag Fld.mapCcStsFlushing = true ∧ (Tab.find 9 off.md.cache).map MLine.wb = some true ∧ off.flag Fld.mapCcCtlEn = false ∧
    (after (.mapCcDisable fb 0) c).md.cache = [] ∧ Written s fb .mapCcCtl 0 0x80000000 ∧ (after (.mapCcEnable fb 0x80000000) f).md.enAfter = true ∧
    (after (.mapCcEnable fb 0x80000000) (s.putFlag Fld.mapCcCtlEn false)).flag Fld.mapCcCtlEn = true ∧
    (lineAddr w 9).isSome = true ∧ (Tab.find 9 (after (.writebackRetry 9) w).md.cache).map MLine.wb = some true := by decide +kernel

theorem test_overlay :
    let s := writing (fun m => { m with dir := [(0, { slot := some 1 })], ovl := [(77, 5), (600, 3)] }) id
    let l : MLine := ⟨0, [1, 2, 3, 4, 5, 6, 7, 8], false, false, none⟩
    let r := writing (fun m => { m with cache := [(9, l)], repair := [77, 3] }) id
    let b := List.replicate 4096 9
    let k := { r with md := { r.md with repTiles := [(0, b)] } }
    cacheHas s 9 = none ∧ (after (.overlayMerge 0) s).md.ovl = [(600, 3)] ∧
    (Tab.find 9 (after (.overlayMerge 0) { s with md := { s.md with cache := [(9, l)] } }).md.cache).map MLine.ents = some [1, 2, 3, 4, 5, 5, 7, 8] ∧
    Tab.find 0 r.md.repTiles = none ∧ entState (Tab.get 0 0 r.md.ckptDir) ≠ 1 ∧ (Tab.find 0 (after (.mapRepair 9 true) r).md.repTiles).isSome = true ∧
    cacheHas k 9 = some l ∧ probeLtas k = [] ∧ lineAddr k 9 = some 576 ∧ (after (.mapRepair 9 true) k).md.repair = [3] ∧
    (Tab.find 9 (after (.mapRepair 9 true) k).md.cache).map MLine.ents = some (List.replicate 8 0x0909090909090909) ∧
    (Tab.find 9 (after (.mapRepair 9 false) k).md.cache).map MLine.ents = some ((List.replicate 8 0x0909090909090909).set 5 (2 ^ 63)) ∧
    (after (.mapRepair 9 false) k).get Fld.mapRepairStsPoisoned = 1 := by decide +kernel
/-! ## Relocation, reclaim, the rake and lost LUNs -/

/-- The same set with a closed data group 7 whose units (unit 9 of LUN 4095) may hold a tile, and LUN 4064 as a spare or as its twin in other slots. -/
def closed (u : UnitE) (md : Media → Media) : State :=
  let s := writing (fun m => md { m with
    sets := [(0, { slots := 4095 :: List.replicate 17 31 })]
    groups := [(7, { unit := List.replicate 18 2, rot := 0, gstate := 2 })]
    units := [31, 4095].flatMap fun k => [(unitKey k 0, { estate := 7 }), (unitKey k 1, { estate := 7 }), (unitKey k 2, { u with gref := 7 }), (unitKey k 3, { estate := 0 })]
    spares := [31] }) id
  let p : Profile := { (Tab.get {} 3 s.img.profiles) with blkPerLun := 4, blockBits := 3, lunShift := 4, pageBits := 1 }
  { s with img := { s.img with
      topo := [(0, { present := 0x80, profile := [3, 3, 3, 3, 3, 3, 3, 3] }), (127, { present := 0x80, profile := [3, 3, 3, 3, 3, 3, 3, 3] })]
      profiles := [(3, p)]
      geo := { s.img.geo with relocSlots := 4 } } }.setReg .stkTgtcfg 7 0xF

theorem test_relocation :
    let s := closed { estate := 3 } fun m => { m with victims := [7] }
    let e := mkEntry s ⟨4095, 2, 0, false⟩ 0
    let t := after (.relocation 77 e) s
    let u := after (.relocation 77 0) { s with md := { s.md with relocs := [(0, { lta := 77, old := 1, st := 1 })] } }
    let h := { (closed { estate := 3 } fun m => { m with hotQ := [77], refreshTurn := false }).put Fld.mapHotCfgRelocRate 100 with time := 60000000000 }
    entState e = 1 ∧ entryInGeometry s e = true ∧ knownEntry s 77 = none ∧ mustMove s (entPage s e) = true ∧ (t.reloc 0).map Reloc.old = some e ∧
    (t.rd 0).map Rd.own = some (.reloc 0) ∧ (u.reloc 0).map Reloc.st = some 6 ∧ mustMove h (entPage h e) = false ∧
    (rakeMay h 77 (entPage h e)) = some false ∧ (after (.relocation 77 e) h).md.rakeAt = 60000000000 := by decide +kernel

theorem test_reclaim :
    let s := closed { estate := 1 } id
    let v := closed { estate := 3 } id
    let w := closed { estate := 3 } fun m => { m with victims := [7] }
    freeGroups s 0 ≤ rclStart s ∧ reserveShort s = [] ∧ awaiting s 4095 = some 2 ∧ ((after (.reclaim 0) s).lun 4095).queue.map Want.why = [.erase (unitKey 4095 2)] ∧
    awaiting v 4095 = none ∧ pickVictim v 0 = some 7 ∧ (after (.reclaim 0) v).md.victims = [7] ∧ (groupUnits w 0 { unit := List.replicate 18 2, rot := 0, gstate := 2 }).all (erasable w) = true ∧
    ((after (.reclaim 0) w).unit (unitKey 4095 2)).estate = 1 ∧ (after (.reclaim 0) w).md.groups = [] := by decide +kernel

theorem test_rake :
    let s := { closed { estate := 3 } id with time := 0x7000000000000000 }
    let r := closed { estate := 3, refresh := true } id
    let d := closed { estate := 3, refresh := true } fun m => { m with rakeUnit := some (unitKey 4095 2) }
    s.md.patrolAt + max 1 (s.get Fld.mapRakeCfgPatrolH) * 3600000000000 ≤ s.now ∧ (closedGroups s 0).length = 1 ∧
    ((after .rakePatrol s).unit (unitKey 4095 2)).refresh = true ∧ (after .rakePatrol s).md.patrolAt = s.now ∧
    (after .rakeRefresh r).md.rakeUnit = some (unitKey 31 2) ∧ ((after .rakeRefresh d).unit (unitKey 4095 2)).refresh = false ∧
    (after .rakeRefresh d).get Fld.mapRakeStsDone = 1 := by decide +kernel

theorem test_hotWindow :
    let s := ((closed { estate := 3 } id).put Fld.mapHotCfgQdepth 1).setLun 4095 { above := 7, queue := [want0, want0] }
    let c := s.setLun 4095 { hot := true, below := 7 }
    (onlineLuns s).Nodup ∧ (onlineLuns s).contains 4095 = true ∧ hotDepth s 4095 = 2 ∧ ((after .hotWindow s).lun 4095).hot = true ∧ ((after .hotWindow c).lun 4095).hot = false := by
  decide +kernel

theorem test_lunOffline :
    let s := closed { estate := 3 } fun m => { m with offQ := [4095] }
    let a := { s with md := { s.md with sets := [(0, { slots := 4095 :: List.replicate 17 63, token := some 4095 })] } }
    let b := { a with md := { a.md with spares := [] } }
    setOf (closed { estate := 3 } fun m => { m with offQ := [28] }) 28 = none ∧
    (after .lunOffline (closed { estate := 3 } fun m => { m with offQ := [28], spares := [28, 31] })).md.spares = [31] ∧
    setOf s 4095 = some 0 ∧ fitSpare a 0 0 = some 31 ∧ ((after .lunOffline a).set_ 0).lost = 1 ∧ ((after .lunOffline a).set_ 0).token = none ∧
    ((after .lunOffline a).grp 0 7).map Grp.lost = some 1 ∧ (after .lunOffline a).md.rebuilds = [(0, 0)] ∧ ((after .lunOffline a).set_ 0).slots.head? = some 31 ∧
    ((after .lunOffline a).stream 0).page.length = 2 ∧ fitSpare b 0 0 = none ∧ ((after .lunOffline b).set_ 0).drain = true ∧
    ((after .lunOffline (a.put Fld.glbBootStsStage 7)).stream 0).page.length = 1 := by decide +kernel

theorem test_rebuild :
    let w : Rebuild := ⟨7, 31, 5, 2, 0, [], [], true⟩
    let g : Grp := { unit := List.replicate 18 5, rot := 0, gstate := 2, lost := 1 }
    let s := closed { estate := 0 } fun m => { m with
      sets := [(0, { slots := 4095 :: List.replicate 17 31, lost := 1 })]
      groups := [(7, g)]
      rebuilds := [(0, 0)]
      rebuildLeft := [7] }
    let d := { s with md := { s.md with rebuilding := some w } }
    let e := (d.setGrp 0 8 { g with gstate := 1 }).modUnit (unitKey 4095 2) fun _ => { estate := 2 }
    let e := { e with md := { e.md with rebuildLeft := [7, 8] } }
    s.md.rebuildLeft.find? (rebuildable s 0 0) = some 7 ∧ bestUnit s 4095 = some 2 ∧ (after .rebuildGroupDone s).md.rebuilding.map Rebuild.unit = some 2 ∧
    ((after .rebuildGroupDone s).unit (unitKey 4095 2)).estate = 2 ∧
    ((after .rebuildGroupDone d).grp 0 7).map (fun g => (g.unit.head?, g.lost)) = some (some 2, 0) ∧ (after .rebuildGroupDone d).md.rebuilds = [] ∧
    ((after .rebuildGroupDone d).set_ 0).lost = 0 ∧ rebuildable e 0 0 8 = false ∧ ((after .rebuildGroupDone e).unit (unitKey 4095 2)).estate = 3 ∧
    (after .rebuildGroupDone e).get Fld.mapRbProgGroups = 1 := by decide +kernel
/-! ## The raw window, the patch RAM and stoker debug -/

/-- Channel 127 of the operating die, its raw window open on target 7, whose FL_RB_N is at the given level. -/
def rawOn (rb : BitVec 8) : State :=
  let s := ((lunOn 1 []).put Fld.stkRawCtlTgt 7 127).putFlag Fld.stkRawCtlEn true 127
  { s.setChan 127 { s.chan 127 with rb := rb } with img := { s.img with profiles := [(3, { luns := 4, astart := [0x30] })] } }

theorem test_rawCtl :
    let s := (rawOn 0x7F).putFlag Fld.stkRawCtlEn false 127
    let w : Word := 0xA0000005
    Written s fb .stkRawCtl 127 w ∧ (after (.rawCtlEnable fb 127 w) s).get Fld.stkRawCtlTgt 127 = 4 ∧ (after (.rawCtlEnable fb 127 w) s).flag Fld.stkRawCtlReady 127 = true ∧
    Written (rawOn 0x7F) fb .stkRawCtl 127 0 ∧ ((after (.rawCtlDisable fb 127 0) (rawOn 0x7F)).chan 127).rawOut = some 7 ∧
    ((after (.rawCtlDisable fb 127 0) (rawOn 0xFF)).chan 127).rawOut = none := by decide +kernel

/-- What waits for the pins after a raw access. -/
def rawQOf (i : Instr) : List (List (BusCyc × Bool) × Option (Bool × Nat × Nat)) := ((after i (rawOn 0xFF)).chan 127).rawQ.map fun a => (a.cycles, a.read)

theorem test_rawWrites :
    enabled [some 0x30, none, some 1] = [0x30, 1] ∧
    rawQOf (.rawCommandWrite fb 127 0xFD [some 0x30, none, some 1]) = [([(.cmd 128 0x30, true), (.cmd 128 1, false)], none)] ∧
    rawQOf (.rawAddressWrite fb 127 0x100 [some 0x30, none, some 1]) = [([(.addr 128 0x30, false), (.addr 128 1, false)], none)] ∧
    rawQOf (.rawDataWrite fb 127 0x2FD [some 0x30, none, some 1]) = [([(.dataIn 128 [0x30, 1], false)], none)] := by
  refine ⟨?_, ?_, ?_, ?_⟩ <;> decide +kernel

theorem test_rawReads :
    rawQOf (.rawDataRead fb 127 0x200 64) = [([(.dataOut 128 64, false)], some (false, 0, 64))] ∧
    rawQOf (.rawStatusRead fb 127 0x300 4) = [([(.status 128, false)], some (true, 0, 4))] ∧
    rawQOf (.rawCommandWrite fb 127 0xFE [some 0x30, none, some 1]) = [] ∧
    (after (.rawCommandWrite fb 127 0xFE [some 0x30, none, some 1]) (rawOn 0xFF)).flag Fld.stkRawStsRefused 127 = true := by
  refine ⟨?_, ?_, ?_, ?_⟩ <;> decide +kernel

theorem test_rawOpen : RawOpen (rawOn 0xFF) fb 127 := by unfold RawOpen; decide +kernel

theorem test_rawTimeout :
    let a : RawAcc := ⟨fb, 7, [], none, 0, 0⟩
    let b : RawAcc := ⟨fb, 7, [], some (false, 0, 3), 0, 0⟩
    let s := rawOn 0x7F
    let s := { s.setChan 127 { s.chan 127 with rawQ := [a, b] } with time := 20000000 }
    b.since + 1000 * max 1 (s.get Fld.stkRawCtlTmo 127) ≤ s.now ∧ ((after (.rawReadTimeout 127) s).chan 127).rawQ = [a] ∧
    (after (.rawReadTimeout 127) s).resps = [⟨0, 0, 7, .decerr, [0, 0, 0]⟩] := by decide +kernel

theorem test_patchRam :
    viewGate run9 fb = .pass ∧ viewReadOk 0x1000 2 = true ∧ (after (.patchRamRead fb 127 0x1000 2) run9).flag Fld.stkUcodeStsXoRd 127 = true ∧
    (after (.patchRamRead fb 127 0x1000 2) run9).resps.map (fun x => x.data.length) = [128] ∧ (after (.patchRamWrite fb 127) run9).flag Fld.stkUcodeStsXoWr 127 = true := by
  decide +kernel

/-- The debug access port at level AUTH with scope HALT, and slot 31 of channel 127 at an address, holding the pins or not. -/
def halting (act : Option Nat) : State :=
  let s := (run9.put Fld.dbgStsLevel 1).put Fld.dbgStsScope 1
  s.setChan 127 { slots := [(31, { slot0 with upc := 0x43FE })], act := act, patch := [(0x3FE, 0)] }

theorem test_stokerDebug :
    let s := halting (some 31)
    let h := s.putFlag Fld.stkDbgCtlHalted true 127
    let d : Req := { fb with src := 1 }
    Written s d .stkDbgCtl 127 0x80000000 ∧ ((after (.stkDbgHalt d 127 0x80000000) s).chan 127).halting = true ∧
    (after (.stkDbgHalt d 127 0x80000000) s).flag Fld.stkDbgCtlHalted 127 = false ∧ (after (.stkDbgHalt d 127 0x80000000) (halting none)).flag Fld.stkDbgCtlHalted 127 = true ∧
    (after (.stkDbgHalt d 127 0) h).flag Fld.stkDbgCtlHalted 127 = false ∧ fetchWord h 127 0x43FE 0 = (0x43FE, 0) ∧
    wordMay h 127 { slot0 with upc := 0x43FE } 0 = true ∧ wordReserved 0 = false ∧ NotLast 0x43FE ∧ InSpace 0x43FE ∧
    Fld.stkDbgCtlUpc.get (liveWord (after (.stkDbgStep d 127 0xC0000000 0 [] {}) h) .stkDbgCtl 127) = 0x43FF := by decide +kernel

/-! ## KX-DDR, tracking and calibration -/

/-- Target 7 of channel 127 of an operating KX die, with timing set 15 of mode 8 and set 0 of mode 4 at 1,600 MT/s. -/
def kxOn : State :=
  let s := lunOn 1 []
  let s := { s with img := { s.img with profiles := [(3, { luns := 4, dflags := 0xFF, blkPerLun := 4, physPage := 5200, valid := true, pageBits := 1, blockBits := 3, lunShift := 4, order := [0] })] } }
  let s := ((s.put Fld.stkChmodeCeil 8 127).put Fld.stkTsetW0Mode 8 2047).put Fld.stkTsetW0Rate 7200 2047
  let s := ((s.put Fld.stkTsetW0Mode 4 2032).put Fld.stkTsetW0Rate 1600 2032).put Fld.stkTgtcfgKxTset 15 1023
  let s := (s.putFlag Fld.stkTgtcfgKxReq true 1023).putFlag Fld.stkTgtcfgOnline true 1023
  { s.setChan 127 { s.chan 127 with rb := 0xFF } with time := 100000000000 }

/-- Each bit's sweep passes from step 0 to step 40. -/
def train0 : Train := { rd := List.replicate 8 (0x1FFFFFFFFFF <<< 64), wr := List.replicate 8 (0x1FFFFFFFFFF <<< 64) }

theorem test_kxWrite :
    let s := kxOn
    let w (tset kxtset : Nat) : Word := Fld.stkTgtcfgKxReq.put 0 (Fld.stkTgtcfgTset.put tset (Fld.stkTgtcfgKxTset.put kxtset (Fld.stkTgtcfgKxFallbk.put 1 0)))
    Written s fb .stkTgtcfg 1023 (w 0 15) ∧ (after (.kxReqWrite fb 127 7 (w 0 15)) s).get Fld.stkTgtcfgKxReq 1023 = 0 ∧
    (after (.tsetWrite fb 127 7 (w 15 0)) s).get Fld.stkTgtcfgTset 1023 = 0 ∧ (after (.tsetWrite fb 127 7 (w 15 0)) s).get Fld.stkTgtcfgKxTset 1023 = 15 ∧
    (after (.tsetWrite fb 127 7 (w 1 15)) s).get Fld.stkTgtcfgTset 1023 = 1 ∧
    (after (.kxReqWrite fb 127 7 0x20000000) { s with part := .ig7316 }).get Fld.stkTgtcfgKxReq 1023 = 1 := by decide +kernel

theorem test_kxEntry :
    let s := kxOn
    let t := after (.kxEntry 127 7 ⟨7, {}, {}, train0, {}⟩) s
    let f := after (.kxEntry 127 7 ⟨7, {}, {}, {}, {}⟩) s
    maintFirst s 127 = true ∧ mayRecover s 127 7 = false ∧ kxMayEnter s 127 7 = true ∧ kxRate s 127 7 = some 7200 ∧
    newCentres 8 7200 0 train0.rd = some (List.replicate 8 20) ∧ t.flag Fld.stkTgtcfgKx 1023 = true ∧ t.get Fld.stkChmodeCurMode 127 = 8 ∧
    ((t.chan 127).bus.filter fun b => b == .frameOut 128 10).length = 16 ∧ newCentres 8 7200 0 ({} : Train).rd = none ∧
    newCentres (applied s 127 7).mode (applied s 127 7).rate 0 ({} : Train).rd = none ∧
    f.flag Fld.stkTgtcfgOnline 1023 = false ∧ f.get Fld.stkKxCntEscapes 127 = 1 := by decide +kernel

theorem test_kxExit :
    let x := (kxOn.putFlag Fld.stkTgtcfgKx true 1023).putFlag Fld.stkTgtcfgKxReq false 1023
    let y := x.put Fld.stkChmodeCurRate 7200 127
    maintFirst x 127 = true ∧ kxMayExit x 127 7 = true ∧ needsRate x 127 7 = true ∧ rateLocked (after (.kxExit 127 7) x) 127 = true ∧
    kxMayExit y 127 7 = true ∧ needsRate y 127 7 = false ∧ (after (.kxExit 127 7) y).flag Fld.stkTgtcfgKx 1023 = false ∧
    ((after (.kxExit 127 7) y).chan 127).bus.length = 1 := by decide +kernel

/-- The channel in mode 4 at 1,600 MT/s, with a tally of bit 7. -/
def tracking (o : Int × Nat × Int) : State :=
  let s := (kxOn.put Fld.stkChmodeCurMode 4 127).put Fld.stkChmodeCurRate 1600 127
  s.setChan 127 { s.chan 127 with track := [(7, o)] }

theorem test_tracking :
    let of (t : State) := Tab.get ((0, 0, 0) : Int × Nat × Int) 7 (t.chan 127).track
    let e (o : Int × Nat × Int) := after (.trackingEval 127 []) (tracking o)
    (tracking (0, 0, 0)).flag Fld.stkChmodeTrackEn 127 = true ∧ walking (tracking (0, 0, 0)) 127 7 = false ∧
    rateLocked (tracking (0, 0, 0)) 127 = false ∧
    of (after (.trackingEval 127 [(7, 5, 3, true)]) (tracking (-1, 10, 2))) = (1, 18, 2) ∧ of (after (.trackingEval 127 [(7, 5, 3, false)]) (tracking (-1, 10, 2))) = (-1, 10, 2) ∧ of (e (63, 256, 2)) = (0, 0, 2) ∧ of (e (64, 300, 6)) = (0, 0, 7) ∧
    (e (64, 300, 6)).get Fld.stkDskStsSteps 127 = 1 ∧ of (e (64, 300, 7)) = (0, 0, 7) ∧ (e (64, 300, 7)).bit .stkDskSts 127 31 = true ∧
    Tab.get [] 127 (e (64, 300, 7)).cal.queue = [(7, 0)] := by decide +kernel

theorem test_calTriggers :
    let s := { kxOn with dg := { kxOn.dg with pop := 1#64 <<< 55, src := [(55, { last := some 9000 })] } }
    let t := after .calTempSample s
    let w : Word := Fld.calReqGo.put 1 (Fld.calReqCh.put 127 (Fld.calReqTmask.put 0xFF 0))
    tempLive s 15 = some 9000 ∧ s.flag Fld.calCtlEn = true ∧ tempOf t 15 = 9000 ∧ Tab.get [] 127 t.cal.queue = [(7, 0)] ∧
    Written s fb .calReq 0 w ∧ Written s fb .calReq 0 0 ∧ Tab.get [] 127 (after (.calReqGo fb w) s).cal.queue = [(7, 0)] := by decide +kernel

/-- A run of target 7 of channel 127. -/
def runOn (u : CalRun) : State := { ((kxOn.put Fld.stkTsetW0Mode 0 2032).put Fld.stkChmodeCurRate 10 127).putFlag Fld.stkTgtcfgKxReq false 1023 with cal := { runs := [(127, u)], sweeps := [(3, { left := [1023] })] } }

theorem test_calRun :
    let q := { kxOn with cal := { queue := [(127, [(7, 3)])] } }
    let u : CalRun := { tgt := 7, sweep := 3 }
    let ok : Train := { pu := 30, pd := 31 }
    let bad : Train := { pu := 99 }
    let t := after (.calRunEnd 127 ok) (runOn u)
    let e := after (.calRunEnd 127 ok) (runOn { u with six := true, result := 4 })
    (Tab.find 127 (after (.calRunStart 127) q).cal.runs).map CalRun.sweep = some 3 ∧ (after (.calRunStart 127) (q.putFlag Fld.stkTgtcfgOnline false 1023)).cal.runs = [] ∧
    maintFirst (runOn u) 127 = true ∧ needsRate (runOn u) 127 7 = false ∧ (trainMode (runOn u) 127 7).1 = 0 ∧
    (let v := (runOn u).put Fld.stkChmodeCurRate 1600 127; needsRate v 127 7 = true ∧ rateLocked (after (.calRunEnd 127 ok) v) 127 = true) ∧ zqOk (runOn u).img.cal ok = true ∧ (Tab.find 127 t.cal.runs).map CalRun.result = some 1 ∧ (t.calCh 127).puGoal = 30 ∧
    zqOk (runOn u).img.cal bad = false ∧ (after (.calRunEnd 127 bad) (runOn u)).get Fld.calStsFails = 1 ∧
    (e.calT 1023).result = 4 ∧ e.get Fld.calCntCnt = 1 ∧ e.log.length = 1 ∧ e.cal.runs = [] := by decide +kernel

theorem test_walk :
    let x : CalTgt := { centre := [(0, 3), (15, -2)], goal := [(0, 4), (15, -9)] }
    let s := { kxOn with cal := { tgts := [(1023, x)], chs := [(127, { pu := 5, puGoal := 9, dcc := 2 })] } }
    let t := after (.calWalkStep 127) s
    (x.goal.map Prod.fst).Nodup ∧ (t.calCh 127).pu = 6 ∧ (t.calCh 127).dcc = 1 ∧ (t.calT 1023).centre = [(0, 4), (15, -3)] ∧ (t.calT 1023).goal = [(15, -9)] := by decide +kernel

/-- Channel 32 with its 32 LUNs online, listed 33 times so that few registers stand for more than 1,024 LUNs, and a sweep that started at 0. -/
def sweeping : State :=
  { run9 with
    regs := run9.regs ++ (List.range 8).map fun i => (regKey .stkTgtcfg (256 + i), 0xF)
    img := { run9.img with topo := List.replicate 33 (32, {}) }
    cal := { sweeps := [(2, { start := some 0, left := [263] })], queue := [(32, [(7, 2)])] }
    time := 100000000000 }

set_option maxRecDepth 100000 in
theorem test_deadlineLuns : 1024 < (onlineLuns sweeping).length := by decide +kernel

set_option maxRecDepth 100000 in
theorem test_deadline :
    let t := after (.calSweepDeadline 2) sweeping
    (t.calT 263).result = 3 ∧ t.cal.queue = [] ∧ t.get Fld.calDlmissLuns = 4 ∧ t.get Fld.calDlmissSweeps = 1 := by decide +kernel

/-- The run past step 6, with a closed unit 1 of LUN 4095 whose gauge line is in the cache. -/
def mediaOn (u : CalRun) (off : Int) : State :=
  let s := runOn u
  { s with md := { s.md with
      units := [(unitKey 4095 1, { estate := 3 })]
      gauge := [(blockKey 4095 1, { off := List.replicate 32 off, acc := [] })] } }

theorem test_media :
    let u : CalRun := { tgt := 7, sweep := 3, six := true, media := [4095] }
    let w : CalRun := { u with media := [], wait := [4095] }
    let f (s : State) (l : List (Nat × List Int)) : State := { s with cal := { s.cal with samples := [(4095, { before := l })] } }
    runOf (mediaOn u 1) 4095 = some u ∧ (latestUnits 4 (lunUnits (mediaOn u 1) 4095 [3])).length = 1 ∧
    linesMissing (mediaOn u 1) 4095 [1] = [] ∧ (runOf (after (.mediaStep 4095) (mediaOn u 1)) 4095).map CalRun.wait = some [4095] ∧
    (let m := { mediaOn u 1 with md := { (mediaOn u 1).md with gauge := [] } }; linesMissing m 4095 [1] = [1] ∧ (after (.mediaStep 4095) m).cal = m.cal) ∧
    (runOf (after (.mediaStep 4095) (runOn u)) 4095).map CalRun.media = some [] ∧
    (mediaDelta (f (mediaOn w 1) [(1, List.replicate 32 1)]) 4095 [(1, List.replicate 32 1)]).all (· == 0) = true ∧
    (runOf (after (.mediaStep 4095) (f (mediaOn w 1) [(1, List.replicate 32 1)])) 4095).map CalRun.wait = some [] ∧
    unitBlocks (mediaOn w 3) 4095 (lunUnits (mediaOn w 3) 4095 [2, 3]) = [1] ∧
    (Tab.find (blockKey 4095 1) (after (.mediaStep 4095) (f (mediaOn w 3) [(1, List.replicate 32 1)])).md.gauge).map GLine.off = some (List.replicate 32 5) := by decide +kernel

theorem test_ledger :
    let u : CalRun := { tgt := 7, sweep := 3, six := true, ledger := [4095] }
    let s := mediaOn u 1
    let soon := { s with cal := { s.cal with ledgers := [(4095, { at_ := some 50000000000 })] } }
    let full := { s with cal := { s.cal with ledgers := [(4095, { page := 1 })] } }
    ledgerBusy s 4095 = false ∧ linesMissing s 4095 (unitBlocks s 4095 (lunUnits s 4095 [3])) = [] ∧ ((after (.ledgerWrite 4095) s).ledgerOf 4095).page = 1 ∧
    ((after (.ledgerWrite 4095) s).lun 4095).queue.length = 1 ∧ (after (.ledgerWrite 4095) soon).cal.due = [4095] ∧ (s.profile 4095).wlPerBlk = 1 ∧
    ((after (.ledgerWrite 4095) full).lun 4095).queue.map Want.why = [.erase (unitKey 4095 3)] := by decide +kernel

/-! ## The draught engine -/

/-- Sources 33 and 40 populated, the comparator and loop 15 on both, with groups 0 and 15. -/
def drg (md : Draught → Draught) : State :=
  let s := (run9.setReg .drgCeilMskHi 0 0x102).put Fld.drgCeilCfgILim 1000
  let s := ((s.setReg .drgLoopSrcHi 15 2).put Fld.drgLoopCtlGrp 0x8001 15).put Fld.drgLoopTgtTgt 50 15
  { s with
    dg := md { s.dg with pop := 0x10200000000, src := [(33, { sum := 100, count := 2, last := some 60 }), (40, { last := some (-5) })] }
    time := 20000 }

theorem test_senses :
    let s := drg id
    let e := { drg id with time := 200000, dg := { (drg id).dg with src := [(33, { stale := some 0 })] } }
    (after (.senseFrame 33 7 true) s).sense 33 = { sum := 107, count := 3, last := some 7, at_ := 20000 } ∧
    (after (.senseFrame 40 0xFFFF false) s).sense 40 = { sum := -1, count := 1, last := some (-1), at_ := 20000 } ∧
    (after (.senseFrame 33 7 false) s).get Fld.drgSnsErrParity = 1 ∧ (after (.senseFrame 34 7 true) s).get Fld.drgSnsErrBadsrc = 1 ∧
    (after (.senseFrame 63 7 true) s).get Fld.drgSnsErrBadsrc = 1 ∧
    (after (.sourceStale 33) s).bit .drgStaleHi 0 1 = true ∧ (after (.staleReport 33) e).flag Fld.drgStsStale = true ∧ (after (.staleReport 33) e).log.length = 1 := by decide +kernel

theorem test_comparator :
    let s := (drg fun d => { d with above := 1 }).putFlag Fld.drgCtlCeilEn true
    let o := s.put Fld.drgCeilCfgILim 59
    let c := { s with dg := { s.dg with below := 1, above := 0, stop := true } }.putFlag Fld.drgStsStop true
    ceilSrcs s = [33, 40] ∧ (after .ceilingEvaluation o).flag Fld.drgStsStop = true ∧ (after .ceilingEvaluation o).get Fld.drgStsStops = 1 ∧
    (after .ceilingEvaluation { o with dg := { o.dg with above := 0 } }).dg.stop = false ∧ (after .ceilingEvaluation c).flag Fld.drgStsStop = false ∧
    Written c fb .drgCtl 0 0 ∧ (after (.ceilEnWrite fb 0) c).flag Fld.drgStsStop = false ∧ (after (.ceilEnWrite fb 0) (c.putFlag Fld.trpStsTherm true)).flag Fld.drgStsStop = true ∧
    Written (drg id) fb .drgCtl 0 0x80000000 ∧ (after (.ceilEnWrite fb 0x80000000) (drg id)).flag Fld.drgCtlCeilEn = true := by decide +kernel

theorem test_loopWrites :
    let s := drg id
    let n := after (.loopEnable fb 15 0x80008001) s
    Written s fb .drgLoopCtl 15 0x80008001 ∧ loopRefused s 15 = false ∧ n.reg .drgLoopSp 15 = 0x320000 ∧ n.reg .drgLoopI 15 = 0x10000 ∧
    loopRefused s 14 = true ∧ (after (.loopEnable fb 14 0x80008001) s).flag Fld.drgStsCfgerr = true ∧
    (after (.loopDisable fb 15 0) n).flag Fld.drgLoopCtlEn 15 = false ∧ (after (.loopFreezeWrite fb 15 0xC0008001) n).flag Fld.drgLoopCtlFreeze 15 = true := by decide +kernel

/-- Loop 15 runs with a gain of 0.5 at the set-point 50. -/
def looped : State :=
  let s := (drg fun d => { d with loops := [(15, { outs := [(0, 7), (15, 9)] })] }).putFlag Fld.drgLoopCtlEn true 15
  (s.setReg .drgLoopSp 15 0x320000).setReg .drgLoopKp 15 0x8000

theorem test_tick :
    let t := after .sampleTick looped
    let u := after .sampleTick (looped.setReg .drgLoopSp 15 0x330000)
    let f := after .sampleTick (looped.putFlag Fld.drgLoopCtlFreeze true 15)
    (loopInput 15 looped).1 = 50 ∧ (t.loop 15).yq = 0x320000 ∧ t.get Fld.drgLoopStsBase 15 = 0 ∧ (t.dg.next.map fun x => x.2.take 2) = some [0, 0x10000] ∧
    u.reg .drgLoopSp 15 = 0x32F000 ∧ (f.dg.next.map fun x => x.2[15]?) = some (some 9) ∧ f.reg .drgLoopSp 15 = 0x320000 ∧
    (after .admissionTakeEffect { t with time := 21000 }).get Fld.drgGrpStsAdmit 0 = 0 ∧ (after .admissionTakeEffect { t with time := 21000 }).get Fld.drgGrpStsAdmit 1 = 0x10000 := by decide +kernel

/-- The generator over the first ticks of Table 14-2: set-point, velocity and acceleration in whole counts. -/
theorem test_generator :
    let g (x : Word × Word × Word) := generator (1500 <<< 16) (25 <<< 16) (5 <<< 16) (1 <<< 16) x.1 x.2.1 x.2.2
    let c (x : Word × Word × Word) := (x.1.toInt / 65536, x.2.1.toInt / 65536, x.2.2.toInt / 65536)
    let s0 : Word × Word × Word := (2000 <<< 16, 25 <<< 16, 0)
    c (g s0) = (2024, 24, -1) ∧ c (g (g s0)) = (2046, 22, -2) ∧ c (g (g (g (g (g (g s0)))))) = (2095, 5, -5) ∧ c (g (g (g (g (g (g (g (g s0)))))))) = (2090, -5, -5) := by
  decide +kernel

theorem test_bandwidth :
    let s := (drg id).setBucket 15 5000
    Written s fb .drgAdmCfg 0 4 ∧ (after (.bwMaxWrite fb 4) s).bucketOf 15 = 2048 ∧ (after (.bwMaxWrite fb 4) (s.put Fld.drgAdmCfgBwMax 9)).bucketOf 15 = 2048 ∧
    (after (.bwMaxWrite fb 0) s).bucketOf 15 = 5000 := by decide +kernel

theorem test_grants :
    let o : Op := { op0 with lun := 4095 }
    let s := (run9.setLun 4095 { op := some o }).put Fld.drgAdmCfgBwMax 4
    let s := s.setBucket 15 100
    let r := run9.setChan 127 { rawQ := [⟨fb, 7, [(.cmd 128 0x30, true)], none, 0, 0⟩] }
    let e : Ended := { op := o, code := 0, status := 0, went := true }
    let d := { run9.put Fld.drgGrpStsInfl 3 15 with md := { run9.md with ended := [{ e with reported := true }, e] } }
    (pickGrant s 15).map GrantReq.lun = some (some 4095) ∧ ((after (.draughtGrant 15) s).lun 4095).granted = true ∧ (after (.draughtGrant 15) s).get Fld.drgGrpStsInfl 15 = 1 ∧
    (after (.draughtGrant 15) s).bucketOf 15 = -2048 ∧ pickGrant (s.putFlag Fld.drgStsStop true) 15 = none ∧
    ((after (.draughtGrant 15) r).chan 127).rawQ.map (fun a => a.cycles.map Prod.snd) = [[false]] ∧
    (after .draughtEndReport d).get Fld.drgGrpStsInfl 15 = 2 ∧ (after .draughtEndReport d).md.ended.length = 2 := by decide +kernel

/-! ## Resets, power states and the banked state -/

/-- A register of each kind of island changed, and one log entry. -/
def busy : State :=
  let s := ((run9.setReg .trpCnt 0 0x01020304).setReg .pwrWakeHi 0 0x80000001).setReg .cryCtl 0 0xFFFF
  let s := (s.put Fld.glbBankStsCause 4).putFlag Fld.pwrStsEmbClkLoss true
  { s with
    time := 0x1FFFFFFFF
    pwr := { s.pwr with ember := 32768 }
    sec := { s.sec with row := { deviceId := 0x11112222333344445555666677778888, krb := 7 } } }.logPacked uGLB 0x109

theorem test_resets :
    (after (.rstEmberAssert 122070) busy).pwr.emberStuck = true ∧ (after (.rstColdAssert 9999) busy).pwr.coreStuck = true ∧ (after (.rstWarmAssert 999) busy).log.length = 1 ∧
    (after (.resetRelease true) (after (.rstWarmAssert 999) busy)).inReset = true ∧ (after (.rstWarmAssert 1000) (after (.rstWarmAssert 999) busy)).pwr.coreStuck = false ∧
    (after (.rstEmberAssert 122071) busy).reg .trpCnt = 0 ∧ (after (.rstEmberAssert 122071) busy).reg .cryCtl = busy.reg .cryCtl ∧
    (after (.rstColdAssert 10000) busy).reg .trpCnt = 0x01020304 ∧ (after (.rstColdAssert 10000) busy).reg .cryCtl = regReset .cryCtl 0 ∧
    (after (.rstColdAssert 10000) busy).log = [] ∧ (after (.rstColdAssert 10000) busy).reg .glbLogSeq = 0 ∧ (after (.rstColdAssert 10000) busy).get Fld.glbBankStsCause = 0 ∧
    (after (.rstWarmAssert 1000) busy).log.length = 1 ∧ (after (.rstWarmAssert 1000) busy).reg .glbLogSeq = 1 ∧ (after (.rstWarmAssert 1000) busy).get Fld.glbBankStsCause = 4 ∧
    (after (.rstWarmAssert 1000) busy).stage = 0 ∧ (after (.rstWarmAssert 1000) busy).flag Fld.pwrStsEmbClkLoss = true := by
  refine ⟨?_, ?_, ?_, ?_, ?_, ?_, ?_, ?_, ?_, ?_, ?_, ?_, ?_, ?_, ?_, ?_, ?_⟩ <;> decide +kernel

theorem test_release :
    let s := after (.rstWarmAssert 1000) busy
    let t := after (.resetRelease true) s
    let u := after (.resetRelease false) s
    let p : State := { s with pwr := { s.pwr with st := .p3 } }
    s.inReset = true ∧ s.lowReset = true ∧ asleep s = false ∧ asleep p = true ∧ Tab.get 0 (credKey 15 4) t.fab.inReq = 4 ∧ Tab.get 0 (datKey 15 3) t.fab.inDat = 64 ∧
    (after (.rstEmberAssert 122071) p).reg .trpCnt = 0 ∧ (after (.rstEmberAssert 122071) p).pwr.st = .p0 ∧ t.inReset = false ∧ t.now = 1000000000 ∧ t.reg .secId 3 = 0x11112222 ∧ t.reg .secId 0 = 0x77778888 ∧ t.get Fld.secCtrKrb = 3 ∧
    (t.log.head?.map LogEntry.code) = some 0x100 ∧ u.banked = true ∧ u.get Fld.glbBankStsCause = 1 ∧ u.get Fld.glbBootStsFailCode = 0x20 ∧
    (after (.resetRelease true) p).fab.inReq = [] ∧ (after (.resetRelease true) p).lowReset = false := by decide +kernel

theorem test_clocks :
    let e : State := { busy with pwr := { busy.pwr with emberQ := [(.pwrSts, 0x08000000)] } }
    BankedBy (after .clockMonitorFault busy) 4 0x1FFFFFFFF ∧ (after .embClkLoss run9).get Fld.glbBankStsCause = 4 ∧ (after .pwrGoodCoreLow run9).get Fld.glbBankStsCause = 4 ∧
    (after (.embClkLossClear false) e).flag Fld.pwrStsEmbClkLoss = false ∧ (after (.embClkLossClear false) e).pwr.emberQ = [] ∧
    (after (.embClkLossClear true) e).flag Fld.pwrStsEmbClkLoss = true ∧ (after (.embClkLossClear true) e).pwr.embLost = true ∧
    (after .pwrGoodCoreLow { run9 with pwr := { run9.pwr with waking := true } }).banked = false ∧
    (after .pwrGoodCoreLow { run9 with pwr := { run9.pwr with st := .entering true } }).pwr.goodCore = false ∧
    (after .embClkLoss { run9 with pwr := { run9.pwr with st := .p2 } }).flag Fld.pwrStsEmbClkLoss = true ∧
    (after .embClkLoss { run9 with pwr := { run9.pwr with st := .p2 } }).banked = false := by
  unfold BankedBy PendsAll
  decide +kernel

theorem test_trips :
    let s := after (.tripLatch .fw 10 true) run9
    let n : State := { run9 with pwr := { run9.pwr with st := .entering false, parked := true } }
    let c (w : Word) : State := { s with pwr := { s.pwr with emberQ := [(.trpSts, w)] } }
    s.reg .trpSts = 0x404 ∧ s.get Fld.trpCntLatches = 1 ∧ s.pwr.tripTodo = 4 ∧ (after (.tripLatch .fw 1 true) run9).reg .trpSts = 0x400 ∧
    (after (.tripLatch .pfail 10 false) n).get Fld.pwrStsRefuse = 9 ∧ tripInRun s = true ∧ (after .tripAct s).get Fld.glbBankStsCause = 0x0C ∧
    (after .tripAct (after (.tripLatch .therm 10 true) run9)).flag Fld.drgStsStop = true ∧
    (after .tripAct (after (.tripLatch .pfail 10 true) run9)).flag Fld.mapFlushStsActive = true ∧
    tripInRun (after (.tripLatch .fw 10 true) (at_ 3)) = false ∧ (after .tripAct (after (.tripLatch .fw 10 true) (at_ 3))).banked = false ∧
    (after (.tripClear 4 0) (c 4)).get Fld.trpCntFwRl = 1 ∧ (after (.tripClear 4 0) (c 4)).reg .trpSts = 0x404 ∧ (after (.tripClear 0 0) (c 4)).reg .trpSts = 0 ∧
    (after (.tripClear 0 4) (c 4)).reg .trpSts = 0x404 ∧ (after (.tripClear 0 4) (c 4)).get Fld.trpCntFwRl = 0 ∧
    (after (.tripClear 0 1) (c 0)).reg .trpSts = 0x105 ∧ (after (.tripClear 0 1) (c 0)).pwr.tripTodo = 5 ∧
    (after .emberWriteEffect { run9 with pwr := { run9.pwr with emberQ := [(.pwrWakeHi, 0xFFFFFFFF)] } }).reg .pwrWakeHi = 0x8000FFFF := by decide +kernel

/-- The engine asleep in P2 or P3, and with its supplies requested. -/
def asleep0 (st : PwrState) : State := { busy with pwr := { busy.pwr with st := st, enCore := false, enVccq := false, goodCore := false, goodVccq := 0 } }
def rising (st : PwrState) : State := { asleep0 st with pwr := { (asleep0 st).pwr with enCore := true, wakeSince := some 0 } }

theorem test_sleep :
    let e (p3 : Bool) : State := { run9 with pwr := { run9.pwr with st := .entering p3, parked := true, dramIdle := true } }
    let j : State := { run9 with wp := { run9.wp with streams := [(0, { page := [⟨jFlushEnd, 0, 0, 0, 0⟩] })] } }
    Written (e true) fb .drgLoopSp 15 9 ∧ regAt (RegKind.drgLoopSp.offset 15) = some (.drgLoopSp, 15) ∧
    (after (.registerWrite fb (RegKind.drgLoopSp.offset 15) 9 0) (e true)).get Fld.pwrStsRefuse = 9 ∧ Written (e true) fb .pwrCfg 0 9 ∧
    (after (.registerWrite fb (RegKind.pwrCfg.offset 0) 9 0xFFFFFFFF) (e true)).pwr.st = .entering true ∧
    (after (.sluiceDoorbell fb 4095 0) { run9 with pwr := { run9.pwr with st := .p1 } }).pwr.restartAt = 1500 ∧ Written run9 fb .slqDb 4095 0 ∧
    (after .p1Entry { run9.putFlag Fld.pwrCtlP1En true with time := 50000000 }).pwr.st = .p1 ∧
    (after .p1Entry { (run9.putFlag Fld.pwrCtlP1En true).put Fld.pwrCfgP1Idle 0 with time := 999 }).pwr.st = .p0 ∧
    (after .p1Entry { (run9.putFlag Fld.pwrCtlP1En true).put Fld.pwrCfgP1Idle 0 with time := 1000 }).pwr.st = .p1 ∧ (after .p1Entry { run9 with time := 100000 }).get Fld.pwrCntP1 = 1 ∧
    Written run9 fb .pwrCtl 0 0xC0000000 ∧ (after (.p2Request fb 0xC0000000 []) run9).pwr.st = .entering false ∧ (after (.p3Request fb 0xA0000000 []) run9).pwr.st = .entering true ∧
    (after (.p2Request fb 0x40000000 []) (at_ 5)).get Fld.pwrStsRefuse = 1 ∧ (after (.p3Request fb 0x20000000 []) j).get Fld.pwrStsRefuse = 0xA ∧
    (after (.p2Request fb 0x40000000 []) j).pwr.st = .entering false ∧ (after (.p2Request fb 0x40000000 []) (run9.setReg .trpSts 0 1)).get Fld.pwrStsRefuse = 7 ∧
    (after .entryMessage (e false)).pwr.st = .p2 ∧ (after .entryMessage (e false)).get Fld.pwrCntP2 = 1 ∧ (after .entryMessage (e true)).pwr.st = .p3 ∧
    (after .entryMessage ((e false).setReg .drgLoopSp 15 9)).reg .drgLoopSp 15 = regReset .drgLoopSp 15 ∧ (after .entryMessage ((e false).setReg .cryCtl 0 9)).reg .cryCtl = 9 ∧
    (after .entryMessage ((e true).setReg .trpSts 0 1)).pwr.st = .p0 ∧ (after .entryMessage ((e true).setReg .trpSts 0 1)).get Fld.pwrCntAbort = 1 ∧
    entryRefused true (e true) = 0 ∧ entryRefused true ((e true).setReg .trpSts 0 1) = 7 := by decide +kernel

theorem test_wake :
    let a := (asleep0 .p2).setReg .pwrWakeLo 0 32768
    let a := a.setReg .pwrWakeHi 0 0x80000000
    asleep a = true ∧ (after .wakeAlarm a).get Fld.pwrStsWake = 1 ∧ (after .wakeAlarm a).pwr.enCore = true ∧ (after .wakePlatform (asleep0 .p3)).get Fld.pwrStsWake = 2 ∧
    (after .powerGoodTimeout (rising .p2)).pwr.enCore = false ∧
    (after (.wakeFromP2 true) { rising .p2 with leases := [(3, 0x1FFFFFFFF + 5)] }).leases = [(3, 1000000005)] ∧ (after (.wakeFromP2 true) (rising .p2)).stage = 2 ∧
    (after (.wakeFromP2 true) (rising .p2)).now = 1000000000 ∧ Tab.find 0 (after (.wakeFromP2 true) (rising .p2)).pwr.wdog = some 1100000000 ∧
    (after (.wakeFromP2 false) (rising .p2)).get Fld.glbBankStsCause = 7 ∧ (after (.wakeFromP3 true) (rising .p3)).stage = 0 ∧
    (after (.wakeFromP3 false) (rising .p3)).get Fld.glbBankStsCause = 1 ∧ (after .dramIdleOkRise { run9 with time := 1000000000 }).pwr.dramIdle = true := by decide +kernel

/-- A banked engine whose banked entry is to come: a request, a flue command, and a slot before its GO. -/
def banked0 : State :=
  let s := (List.range 64).foldl (fun s m => s.putFlag Fld.belCtlEn false m) (stk slot0)
  ({ s with
    reqs := [(1, filterRq 0)]
    flue := [(3, { cmd := some [1] })] } : State).bank 0x0D

theorem test_banked :
    let p : State := { (run9.bank 2).put Fld.glbBankStsChWait 1 with pwr := { run9.pwr with bankTodo := false } }
    let b := after .bankedEntry banked0
    Written run9 fb .glbBankReq 0 0x8000424B ∧ (after (.bankRequest fb 0x8000424B) run9).get Fld.glbBankStsCause = 0x0D ∧ (after (.bankRequest fb 0x8000424A) run9).banked = false ∧
    (after .clockMonitorFault banked0).get Fld.glbBankStsCause = 0x0D ∧ b.flag Fld.belCtlEn 39 = false ∧ (b.flueOf 3).cmd = none ∧ ((b.chan 127).slots).isEmpty = true ∧
    ((b.ring 0).queue.map HEntry.status) = [0x11] ∧ b.get Fld.glbBankStsChWait = 128 ∧ (after (.bankedPins 127) p).flag Fld.glbBankStsPinsDone = true ∧
    ((after (.bankedPins 127) p).chan 127).wpN = false := by
  refine ⟨?_, ?_, ?_, ?_, ?_, ?_, ?_, ?_, ?_, ?_, ?_⟩ <;> decide +kernel

theorem test_watchdogs :
    let s : State := { run9 with pwr := { run9.pwr with wdog := [(0, 5), (4, 6)] }, time := 6 }
    Written s fb .pwrWdogKick 0 0 ∧ (after (.watchdogKick fb 0) s).pwr.wdog = [(0, 100000006), (4, 6)] ∧ coreOf fb.src = some 0 ∧ coreOf 0x14 = some 4 ∧ coreOf host5.src = none ∧
    (after (.watchdogExpiry 4) s).get Fld.glbBankStsCause = 6 ∧ ((after (.watchdogExpiry 4) s).log.head?.map LogEntry.obj) = some 0x14 := by decide +kernel

theorem test_memoryErrors :
    let l : MLine := { ents := [], dirty := true, wb := false, way := 0 }
    let s : State := { writing (fun m => { m with cache := [(9, l), (10, { l with dirty := false })], gauge := [(4095 * 2 ^ 24 + 1, { off := [], acc := [], dirty := true })] }) id with
      log := busy.log }
    (after (.memoryError .corrected) s).get Fld.pwrErrCntCorr = 1 ∧ (after (.memoryError .critical) s).get Fld.glbBankStsCause = 3 ∧
    (after (.memoryError (.mapLine 9)) s).md.repair = [72, 73, 74, 75, 76, 77, 78, 79] ∧ (after (.memoryError (.mapLine 10)) s).md.repair = [] ∧
    (after (.memoryError (.mapLine 10)) s).get Fld.pwrErrCntContained = 1 ∧
    ((Tab.find (4095 * 2 ^ 24 + 1) (after (.memoryError (.gaugeLine (4095 * 2 ^ 24 + 1))) s).md.gauge).map fun g => g.dirty) = some false ∧
    ((after (.memoryError (.logEntry 0)) s).log.map LogEntry.code) = [0x101B, 0x101B] := by decide +kernel

theorem test_breaks :
    let q (n b : Nat) : Request := { filterRq 0 with rtag := n, breaks := b }
    let s (b : Nat) : State := { run9 with reqs := [(1, q 1 b), (2, q 2 b)] }
    younger (s 0) 1 2 = 2 ∧ ((after (.deadlockBreak 1 2) (s 0)).rq 2).map Request.breaks = some 1 ∧ (after (.deadlockBreak 1 2) (s 0)).get Fld.pwrErrCntBreaks = 1 ∧
    (after (.deadlockBreak 1 2) (s 3)).get Fld.glbBankStsCause = 0x0E ∧ (after (.deadlockBreak 1 2) (s 2)).banked = false := by decide +kernel

theorem test_logMirror :
    let s := (busy.putFlag Fld.glbLogCtlMirEn true).put Fld.glbLogMbaseLoBase 5
    (uncopied s).map LogEntry.seq = some 0 ∧ (after .logMirrorCopy s).logMir = 1 ∧ (after .logMirrorCopy s).mov.jobs.length = 1 := by decide +kernel

/-- A hold-up flush of one copy on a set with a reserved group. -/
def flushing0 : State :=
  let s := writing (fun m => { m with groups := m.groups ++ m.groups.map fun e => (8, e.2) }) fun w => { w with pfail := true, own := [(2, { pan0 with urgent := false })], reserve := [(0, 8)], streams := [(0, { grp := some (0, 7) })] }
  { s with img := { s.img with hold := { s.img.hold with flushPar := 18 } } }.putFlag Fld.mapFlushStsActive true

theorem test_flush :
    let e : State := { flushing0 with wp := { flushing0.wp with own := [], flushEnd := true } }
    let j := jAppend 0 ⟨jFlushEnd, 0, flushing0.wp.seq, 0, 0⟩ { flushing0 with wp := { flushing0.wp with flushEnd := true } }
    flushing flushing0 = true ∧ flushBlocked flushing0 = false ∧ flushList (scanMir [] flushing0) = [(false, 2)] ∧ perRound flushing0 ≠ 0 ∧
    (after (.flushStart []) flushing0).wp.plan.map (fun p => (p.1, p.2.1)) = [(false, 2)] ∧ (after (.flushStart []) flushing0).mov.jobs.length = 1 ∧
    (after .flushComplete e).flag Fld.mapFlushStsDone = true ∧ flushRowsDone flushing0 = true ∧ endOpen e = false ∧ (flushing0.stream 0).flight = [] ∧
    (streamProgram 0 j).isSome = true ∧ endOpen j = true ∧ (j.stream 0).flight = [] := by
  refine ⟨?_, ?_, ?_, ?_, ?_, ?_, ?_, ?_, ?_, ?_, ?_, ?_, ?_⟩
  all_goals decide +kernel

/-! ## Start-up -/

theorem test_selftest :
    let s := (at_ 0).put Fld.secStsLc lcSecured
    s.running = true ∧ (after (.selftestStage (some 4) 0) s).get Fld.glbBootStsFailCode = 0x14 ∧ (after (.selftestStage (some 4) 0) s).get Fld.glbBootStsFailStage = 1 ∧
    (after (.selftestStage none 0) s).stage = 2 ∧ (after (.selftestStage none 9) ((at_ 0).put Fld.secStsLc lcManufacture)).sec.row.kes = 9 ∧
    (after (.selftestStage none 0) ((at_ 0).put Fld.secStsLc lcDecom)).get Fld.glbBootStsFailCode = 0x21 := by decide +kernel

/-- The KINDLING stage, with slot A still to read; the signature is uninterpreted, so that no image that passes can be shown. -/
def kindling : State := { at_ 2 with
    fwUp := false
    xspi := { hold := 0 } }

theorem test_kindling :
    let b := kindling.putFlag Fld.glbBootStsImgSlot true
    let f : Sfdp := ⟨[0x53, 0x46, 0x44, 0x50, 8], some 166000⟩
    let k (s : State) (a : Bool) (g : Sfdp) : State := after (.kindlingSlotRead a g [1]) s
    kindling.img.copy = none ∧ imageCheck false [] kindling = 0x0B ∧ imageCheck true [1] kindling = 0x01 ∧ (k kindling false f).flag Fld.glbBootStsImgSlot = true ∧
    (k kindling true f).flag Fld.glbBootStsXspi1s = false ∧ (k kindling true f).xspi.sent = [.sfdpRead 0 5, .modeSwitch 166000, .read8D 0 1] ∧
    (k kindling true ⟨[], none⟩).flag Fld.glbBootStsXspi1s = true ∧ (k kindling true ⟨[], none⟩).xspi.sent = [.sfdpRead 0 0, .read1S 0x13 0 1] ∧
    (k b true f).xspi.sent = [.read1S 0x13 0x1000000 1] ∧ (k b false f).get Fld.glbBootStsFailCode = 0x0B ∧
    (k b false f).get Fld.glbBankStsCause = 1 ∧ goes (.kindlingEnd 77) { kindling with img := { kindling.img with copy := some [] } } = true ∧
    kindling.xspi.hold = 0 ∧ kindling.running = true ∧ kindling.stage = 2 ∧ kindling.fwUp = false ∧ kindling.pwr.waking = false := by decide +kernel

/-- Channel 127 with targets 1 and 7 of profile 3. -/
def fitted0 (md : State → State) (x : Chan) : State :=
  let p : Profile := { valid := true, luns := 2, planes := 1, wlPerBlk := 2, cellBits := 1, physPage := 5200, blkPerLun := 8, idPat := [0x2C, 0xA8], idMask := [0xFF, 0xF0], trstFirst := 500, order := [0, 1] }
  md (({ run9 with
    img := { run9.img with
      topo := [(127, { present := 0x82, profile := List.replicate 8 3, tset := List.replicate 8 0, kxTset := List.replicate 8 0xF })]
      profiles := [(3, p)] }
    time := 100000000 } : State).setChan 127 x)

def stage (n : Nat) (s : State) : State := s.put Fld.glbBootStsStage n

theorem test_targetReset :
    let t := after (.targetResetStage [(127, 0x80)]) (fitted0 (stage 2) {})
    (fitted0 (stage 2) {}).fwUp = true ∧ (t.chan 127).wpN = true ∧ isAlive t 127 1 = true ∧ isAlive t 127 7 = true ∧ isAlive t 127 0 = false ∧ Tab.find 7 (t.chan 127).rstAt = some 100000000 ∧
    Tab.find 1 (t.chan 127).rstAt = none ∧ t.stage = 3 ∧ leastStage t = 3 := by decide +kernel

theorem test_targets :
    let x : Chan := { stage := 3, alive := 0x82, rb := 0x02, rstAt := [(7, 0)], bootAt := 0 }
    let y : Chan := { stage := 3, alive := 0x82, rb := 0, rstAt := [(7, 0)], bootAt := 0 }
    let s := fitted0 (stage 3) x
    Tab.find 1 ((after (.targetReadyReset 127 1) s).chan 127).rstAt = some 100000000 ∧ isAlive (after (.targetBusyTimeout 127 1) (fitted0 (stage 3) y)) 127 1 = false ∧
    (s.chan 127).bootAt + ((s.profileAt (127 * 8 + 1)).lbt + 1000) * 1000 ≤ s.now ∧ isAlive (after (.trstTimeout 127 7) s) 127 7 = false ∧
    (after (.trstTimeout 127 7) s).log.map LogEntry.code = [0x31] := by decide +kernel

/-- A parameter page of 256 B in parts: pages of 4,096 B, 2 to a block, one LUN, one plane; and its CRC. -/
def page0 : List Byte := List.replicate 64 0 ++ List.replicate 16 0 ++ [0, 0x10, 0, 0] ++ List.replicate 8 0 ++ [2, 0, 0, 0, 0, 0, 0, 0, 1] ++ List.replicate 51 0
  ++ List.replicate 51 0 ++ List.replicate 51 0
def crcFrom (c : BitVec 16) (b : List Byte) : BitVec 16 :=
  b.foldl (fun (c : BitVec 16) b => (List.range 8).foldl
    (fun (c : BitVec 16) _ => if c.getLsbD 15 then (c <<< 1) ^^^ 0x8005 else c <<< 1) (c ^^^ ((b.setWidth 16 : BitVec 16) <<< 8))) c
theorem crc16_append (a b : List Byte) : crc16 (a ++ b) = crcFrom (crc16 a) b := by simp [crc16, crcFrom, List.foldl_append]

theorem test_crc16 : crc16 page0 = 0xF764 := by
  unfold page0
  rw [crc16_append, crc16_append, crc16_append, crc16_append, crc16_append, crc16_append, crc16_append]
  rw [show crc16 (List.replicate 64 0) = 0xF29F by decide +kernel, show crcFrom 0xF29F (List.replicate 16 0) = 0xB262 by decide +kernel,
    show crcFrom (crcFrom (crcFrom 0xB262 [0, 0x10, 0, 0]) (List.replicate 8 0)) [2, 0, 0, 0, 0, 0, 0, 0, 1] = 0xA35A by decide +kernel,
    show crcFrom 0xA35A (List.replicate 51 0) = 0x304B by decide +kernel, show crcFrom 0x304B (List.replicate 51 0) = 0xB28E by decide +kernel]
  decide +kernel

/-- What a die of profile 3 answers, and one that its ID does not match. -/
def ident0 : Ident := ⟨7, [0x2C, 0xA1], [0x4F, 0x4E, 0x46, 0x49], [], [[0], page0 ++ [0x64, 0xF7]], 5⟩
def ident1 : Ident := { ident0 with tgt := 1, id := [0x2C, 0xB1] }

theorem test_paramPage : paramPage ident0 = some (page0 ++ [0x64, 0xF7]) := by
  have h : (page0 ++ [0x64, 0xF7]).take 254 = page0 := by decide +kernel
  have hc : (crc16 ((page0 ++ [0x64, 0xF7]).take (256 - 2))).toNat = 0xF764 := by rw [show (256 - 2) = 254 from rfl, h, test_crc16]; rfl
  have hs : onfiSign ident0 = true := by decide +kernel
  have hb : bytesNum ((page0 ++ [0x64, 0xF7]).drop (256 - 2)) = 0xF764 := by decide +kernel
  have hl : (page0 ++ [0x64, 0xF7]).length = 256 := by decide +kernel
  unfold paramPage
  rw [if_neg (by simp [hs]), if_pos hs]
  show List.find? _ [[0], page0 ++ [0x64, 0xF7]] = _
  rw [List.find?_cons_of_neg (by simp), List.find?_cons_of_pos]
  simp only [hc, hb, hl, beq_self_eq_true, Bool.and_self]

/-- Channel 127 with its targets reset. -/
def reset0 : State :=
  let x : Chan := { stage := 3, alive := 0x82, rb := 0x82, rstAt := [(1, 0), (7, 0)] }
  (fitted0 (stage 3) x).putFlag Fld.cryLvlmapValid true 3

theorem test_identify : identify reset0 127 ident0 = .inr (1, 5) := by
  unfold identify
  rw [test_paramPage]
  decide +kernel

theorem test_identifyStage :
    let t := after (.identifyStage 127 [{ ident0 with pages := [] }, ident1]) reset0
    identify reset0 127 ident1 = .inl 0x31 ∧ identify reset0 127 { ident0 with onfi := [] } = .inl 0x32 ∧ identify reset0 127 { ident0 with pages := [[1]] } = .inl 0x32 ∧
    resetsDone reset0 127 = true ∧ isAlive t 127 1 = false ∧ isAlive t 127 7 = false ∧ t.flag Fld.stkTgtcfgOnline 1017 = false ∧ (t.chan 127).stage = 4 := by
  refine ⟨?_, ?_, ?_, ?_, ?_, ?_, ?_, ?_⟩ <;> decide +kernel

theorem test_train :
    let x : Chan := { stage := 4, alive := 0x80 }
    let s := fitted0 (fun s => (stage 4 s).setReg .stkTgtcfg 1023 0x80000001) x
    let m : TrainSet := ⟨7, {}, {}, {}, {}⟩
    let u := raiseStage (s.setChan 127 { s.chan 127 with stage := 5 })
    (s.chan 127).alive = 1#8 <<< 7 ∧ (trainOnce 127 7 true none s.img.cal.gbRd s.img.cal.gbWr {} {} u).1 = true ∧ isAlive (after (.trainStage 127 [m]) s) 127 7 = true ∧
    isAlive (after (.trainStage 127 []) s) 127 7 = false ∧ (after (.trainStage 127 []) s).log.any (fun e => e.code == 0x33) = true := by
  refine ⟨?_, ?_, ?_, ?_, ?_⟩ <;> decide +kernel

/-- A target in NV-DDR3, whose duty trim fails or not. -/
theorem test_trainAgain :
    let x : Chan := { stage := 4, alive := 0x80, adv := [(7, 0x3F)] }
    let s := (fitted0 (fun s => (stage 4 s).setReg .stkTgtcfg 1023 0x80000001) x).put Fld.stkTsetW0Mode 3 (127 * 16)
    let s := (s.put Fld.stkTsetW0Rate 100 (127 * 16)).put Fld.stkChmodeCeil 3 127
    let f : Train := { dutyOk := false }
    (trainOnce 127 7 true none [] [] f f s).1 = false ∧ isAlive (after (.trainStage 127 [⟨7, f, f, f, f⟩]) s) 127 7 = false ∧
    isAlive (after (.trainStage 127 [⟨7, f, {}, f, f⟩]) s) 127 7 = true := by
  refine ⟨?_, ?_, ?_⟩ <;> decide +kernel

theorem test_ledgerStage :
    let x : Chan := { stage := 5, alive := 0x80 }
    let s := fitted0 (fun s => (stage 5 s).setReg .stkTgtcfg 1023 0x80000003) x
    let t := after (.ledgerStage 127 []) s
    s.online (lunKey 127 7 1) = true ∧ t.flag Fld.glbBootStsLedgerSeed = true ∧ t.cal.seeded = [1023] ∧ (t.chan 127).stage = 7 := by decide +kernel

/-- The MAP stage, and of an image that allows a format. -/
def map7 : State := stage 7 run9
def map7f : State := { map7 with img := { map7.img with geo := { map7.img.geo with
  format := true
  ltaCount := 512
  streams := 1 } } }
def media0 : MapRead := ⟨[], [], [], [], [], []⟩

theorem test_map :
    (after (.mapStage media0) map7f).md.placed = true ∧ (after (.mapStage media0) map7f).md.formatting = true ∧ (after (.mapStage media0) map7f).wp.seq = 2 ^ 32 ∧
    newestCkpt map7f media0 = none ∧ checkpointsBlank media0 map7f = true ∧
    (after (.mapStage media0) map7).get Fld.glbBootStsFailCode = 0x40 ∧ map7.md.dramOk = false ∧
    (after .dramNoAnswer { map7 with time := 1000000000 }).get Fld.glbBootStsFailCode = 0x42 := by
  refine ⟨?_, ?_, ?_, ?_, ?_, ?_, ?_, ?_⟩ <;> decide +kernel

/-- A checkpoint header of one set, number 1: four bytes that take the CRC register to 0 stand after its fields (a stream pointer that names no page). -/
def headA : List Byte := [0x43, 0x4B, 0x50, 0x54, 1, 0, 0, 0, 1, 0, 0, 0, 0, 0, 0, 0] ++ List.replicate 12 0 ++ [1, 0, 0, 0, 0xD6, 0x74, 0x6A, 0x3F]
def headCopy0 : HeadCopy := ⟨0, 0, headA ++ (List.replicate 4056 0 ++ [0xFF, 0xFF, 0xFF, 0xFF]), (List.replicate 512 (numBytes 8 (sealMark 1))).flatten⟩

theorem crcReg_zeros (n : Nat) : crcReg 0 (List.replicate n 0) = 0 := by
  unfold crcReg
  induction n with
  | zero => rfl
  | succ n ih => rw [List.replicate_succ, List.foldl_cons, show crcByte 0 0 = 0 by decide +kernel, ih]

theorem crcReg_append (c : Word) (a b : List Byte) : crcReg c (a ++ b) = crcReg (crcReg c a) b := by simp [crcReg, List.foldl_append]

theorem take_field (a b : List Byte) (n k : Nat) (ha : a.length = n) (hk : n + k = 4092) :
    (a ++ (List.replicate k 0 ++ b)).take 0xFFC = a ++ List.replicate k 0 ∧ (a ++ (List.replicate k 0 ++ b)).drop 0xFFC = b := by
  rw [← List.append_assoc]
  have h : (a ++ List.replicate k (0 : Byte)).length = 4092 := by rw [List.length_append, List.length_replicate, ha, hk]
  exact ⟨List.take_left' h, List.drop_left' h⟩

theorem test_headCrc : (crc32c (headCopy0.field.take 0xFFC)).toNat = num headCopy0.field 0xFFC 4 := by
  have h1 : crcReg 0xFFFFFFFF headA = 0 := by decide +kernel
  have h := take_field headA [0xFF, 0xFF, 0xFF, 0xFF] 36 4056 (by decide +kernel) rfl
  have hn : num headCopy0.field 0xFFC 4 = 0xFFFFFFFF := by
    unfold num sub headCopy0
    rw [h.2]
    decide +kernel
  rw [hn, headCopy0, h.1, crc32c, crcReg_append, h1, crcReg_zeros]
  rfl

theorem test_headOk : headOk map7 headCopy0 = true := by
  have hc : headCommitted map7 headCopy0 = true := by
    unfold headCommitted
    rw [if_neg (by decide +kernel), show headNo headCopy0 = 1 by decide +kernel]
    exact beq_self_eq_true _
  have hn : num headCopy0.field 0 4 = 0x54504B43 ∧ num headCopy0.field 4 2 = 1 := by decide +kernel
  unfold headOk
  rw [hc, decide_eq_true ⟨hn.1, hn.2, test_headCrc⟩]
  rfl

theorem newest_of (s : State) (h : HeadCopy) (ok : headOk s h = true) (ha : h.area = 0) (hs : headSets h = 1) (hn : headSet h = 0) (ht : headTiles h = 0) :
    newestCkpt s ⟨List.replicate 16 h, [], [], [], [], []⟩ = some h := by
  have h0 : validIn s ⟨List.replicate 16 h, [], [], [], [], []⟩ 0 = some h := by
    simp [validIn, ok, ha, hs, hn, ht, List.replicate_succ]
  have h1 : validIn s ⟨List.replicate 16 h, [], [], [], [], []⟩ 1 = none := by simp [validIn, ha]
  simp only [newestCkpt, h0, h1]

theorem test_headFields : headSets headCopy0 = 1 ∧ headSet headCopy0 = 0 ∧ headTiles headCopy0 = 0 := by decide +kernel

theorem test_newest : newestCkpt map7 ⟨List.replicate 16 headCopy0, [], [], [], [], []⟩ = some headCopy0 :=
  newest_of map7 headCopy0 test_headOk rfl test_headFields.1 test_headFields.2.1 test_headFields.2.2

/-- A journal page, sealed or not. -/
def page1 (j : Nat) (c : Bool) : JPage := ⟨0, 0, 0, true, if c then [(List.replicate 64 (numBytes 8 (sealMark j))).flatten] else [], j, []⟩

theorem test_page3 : pageCommitted (page1 3 true) = true := by decide +kernel
theorem test_page4 : pageCommitted (page1 4 true) = true := by decide +kernel

theorem test_replay :
    (pagesApplied [page1 3 true, page1 3 true, page1 4 false, page1 4 true, page1 3 false] 3).map (fun r => (r.1.length, r.2)) = some (3, 5) := by
  have h : ∀ j, pageCommitted (page1 j false) = false := fun _ => rfl
  have hj : ∀ j c, (page1 j c).jseq = j ∧ (page1 j c).readable = true := fun _ _ => ⟨rfl, rfl⟩
  simp [pagesApplied, test_page3, test_page4, h, hj]

theorem test_reload :
    let s : State := { stage 7 run9 with md := { run9.md with placed := true }, wp := { run9.wp with reserve := [(0, 8)] } }
    (after (.panReload []) s).md.reloadDone = true ∧ (after (.panReload [(0, 8, [[]])]) s).flag Fld.mapFlushStsReloadInc = true ∧
    (after (.panReload [(0, 8, [[]])]) s).wp.reloaded = [(0, 8)] ∧ (after (.panReload [(1, 8, [[]])]) s).wp.reloaded = [] := by decide +kernel

theorem test_serveRead :
    let s : State := { stage 7 run9 with md := { run9.md with placed := true, reloadDone := true } }
    handoffs s = false ∧ (after .serveReadEntry s).stage = 8 ∧ (after .serveReadEntry (s.setReg .trpSts 0 4)).stage = 7 := by decide +kernel

theorem test_frontier :
    let s := stage 8 (writing (fun m => { m with placed := true, groups := m.groups.map fun e => (e.1, { e.2 with slc := false }) }) id)
    let t := after (.frontierSearch 0 7 [5, 3, 4] [2] 9) s
    openData s = [(0, 7)] ∧ (t.grp 0 7).map (fun g => (g.gstate, g.rowsDone)) = some (2, 3) ∧ t.log.length = 1 ∧ 2 ^ 32 + 10 ≤ t.wp.seq ∧
    (after .runEntry s).stage = 8 := by decide +kernel

theorem test_run :
    let s : State := { stage 8 run9 with img := { run9.img with commit := true, secver := 2, svn := 1 }, sec := { run9.sec with row := { krb := 2 } } }
    (after .runEntry s).stage = 9 ∧ (after .runEntry s).sec.row.krb = 3 ∧ (after .runEntry s).sec.row.frb = 1 ∧ (after .runEntry s).get Fld.secCtrKrb = 2 ∧
    (after .runEntry { stage 5 run9 with pwr := { run9.pwr with waking := true } }).stage = 9 := by decide +kernel

/-! ## The twin -/

/-- A twin configured with hearth ID 9; 40 s after the release. -/
def twin (f : Twin → Twin) : State :=
  { run9 with
    img := { run9.img with
      twin := some { peerHid := 9, peerBox := 0x100000, peerMir := 0x200000, ownBox := 0x300000, hbPeriod := 100, hbLoss := 300 }
      hold := { run9.img.hold with panSize := 41600, panBase := 0x10000 } }
    time := 40000000000
    wp := { run9.wp with twin := f {} } }

theorem test_pairing :
    let s := twin fun t => { t with nonce := 5 }
    let o : FabReq := mkReq 0 3 .rd 0x300000 96 []
    let r : State := { s with fab := { s.fab with outst := [⟨o, 3, 0, .mailbox false⟩] } }
    let q : State := { s with fab := { s.fab with outst := [⟨o, 3, 0, .mailbox true⟩] } }
    let b : List Byte := numBytes 4 0x52494150 ++ numBytes 2 8 ++ List.replicate 90 0
    periodDue s { hbPeriod := 100 } = true ∧ (after .pairingRecordSend s).mov.jobs.length = 1 ∧ goes .pairingRecordSend (twin id) = true ∧
    (after .pairingTimeout s).get Fld.glbBootStsTwin = 2 ∧ (after .pairingTimeout s).wp.twin.single = true ∧ goes .pairingRetry (twin fun t => { t with single := true }) = true ∧
    (takeOutst (.mailbox false) r).isSome = true ∧ (takeOutst (.mailbox true) q).isSome = true ∧ b.length = 96 ∧
    (after (.pairingRecordReceived b) r).log.map LogEntry.code = [0x1006] ∧
    (after (.pairingRecordReceived b) r).fab.outst = [] := by decide +kernel

theorem test_heartbeats :
    let s := twin fun t => { t with paired := true, nonce := 5 }
    let m := s.put Fld.mapTwinStsState 2
    (after .heartbeatSend s).wp.twin.hbOut = 1 ∧ (after .heartbeatLoss s).wp.twin.nonce = 0 ∧ (after .heartbeatLoss m).get Fld.mapTwinStsState = 3 ∧
    (after .heartbeatLoss m).get Fld.mapTwinStsLosses = 1 := by decide +kernel

/-- A descriptor of the partner's slot, as it is read; and the read's record, of slot `n`, with the descriptors read before. -/
def desc0 (lta seq tcrc : Nat) : List Byte := numBytes 6 lta ++ numBytes 2 0 ++ numBytes 8 seq ++ numBytes 2 0 ++ numBytes 1 0x21 ++ numBytes 1 0 ++ numBytes 4 tcrc ++ numBytes 40 0
def scanning (own : Tab Pan) (n : Nat) : State :=
  let s := twin fun t => { t with paired := true, nonce := 5, peerSlots := 8, scan := some n }
  { s with
    wp := { s.wp with own := own }
    md := { s.md with cache := [(9, { ents := List.replicate 8 0, dirty := false, wb := false, way := 0 })] }
    fab := { s.fab with outst := [⟨mkReq 0 3 .rd 0x200000 64 [], 5, 0, .mirDesc n⟩] } }

theorem test_reconciliation :
    let s := twin fun t => { t with paired := true, nonce := 5 }
    let h : State := { s with wp := { s.wp with own := [(2, pan0)] } }
    let q := twin fun t => { t with paired := true, peerSlots := 8 }
    let ans (own : Tab Pan) (n : Nat) (b : List Byte) : State := after (.outboundResponse 0 3 5 .ok b) (scanning own n)
    let b := desc0 pan0.lta pan0.seq (mirTcrc pan0)
    let old := desc0 pan0.lta 0 0
    (after .reconciliationStart h).wp.twin.todo = [2] ∧ (after .reconciliationStart q).wp.twin.scan = some 0 ∧ (after .reconciliationStart q).fab.waiting.length = 1 ∧
    liveCopy pan0 = true ∧ 0 < pan0.seq ∧ (findOutst (scanning [] 7).fab 0 3 5).isSome = true ∧
    (ans [(2, pan0)] 6 b).wp.twin.scan = some 7 ∧ ((ans [(2, pan0)] 6 b).wp.twin.descs.map MirDesc.slot) = [6] ∧
    (ans [(2, pan0)] 7 b).wp.own.map (fun e => (e.1, e.2.mirrored, e.2.mirAt)) = [(2, true, 7)] ∧ (ans [(2, pan0)] 7 b).wp.twin.scan = none ∧
    (ans [(2, pan0)] 7 old).mov.jobs.map Job.path = [.recon 2, .desc] ∧ (ans [(2, pan0)] 7 old).wp.twin.todo = [2] ∧
    0 < ownSlots s ∧ (cacheHas (scanning [] 7) 9).isSome = true ∧ (ans [] 7 (desc0 77 5 0)).wp.twin.todo = [0] ∧
    ((ans [] 7 (desc0 77 5 0)).pan 0).map (fun p => (p.lta, p.seq, p.mirAt, p.staged)) = some (77, 5, 7, false) ∧
    (ans [] 7 (desc0 77 5 0)).get Fld.mapTwinStsRefetch = 1 ∧
    (probed 7 5 (twin fun t => { t with probes := [⟨7, 77, 5, 0, 0, 0⟩] })).mov.jobs.length = 1 ∧ (after .reconciliationEnd (s.put Fld.mapTwinStsState 1)).get Fld.mapTwinStsState = 2 := by
  refine ⟨?_, ?_, ?_, ?_, ?_, ?_, ?_, ?_, ?_, ?_, ?_, ?_, ?_, ?_, ?_, ?_, ?_, ?_, ?_⟩ <;> decide +kernel
/-! ## The machine as a whole -/

theorem test_step :
    (match step { run9 with pending := [.clockMonitorFault, .tripAct] } with
      | .next t => t.banked && t.pending == [.tripAct]
      | _ => false) = true ∧
    (match step run9 with
      | .next t => t.time == 1 && t.pwr.emberFrac == 32768
      | _ => false) = true ∧ run9.pwr.emberFrac < 1000000000 ∧ run9.pending = [] := by decide +kernel

/-- A state with registers away from reset, a log entry, and two claims in service. -/
def invState : State := { (run9.setReg .cryCtl 0 5).logPacked uGLB 0x109 with sicStack := [(3, [(9, 8), (4, 2)])] }

theorem test_inv : Inv invState ∧ step invState = .next (idle invState) :=
  ⟨⟨⟨by decide +kernel, by decide +kernel⟩, by decide +kernel, fun e h => by
    simp only [invState, List.mem_singleton] at h
    subst h
    simp [stackOk]⟩, rfl⟩

theorem test_emberStops :
    (idle { run9 with pwr := { run9.pwr with embLost := true } }).pwr.emberFrac = 0 ∧ (idle State.reset).time = 0 ∧ (idle run9).pwr.idleFrom = 0 ∧ (idle (at_ 8)).pwr.idleFrom = 1 ∧
    (idle { run9 with xspi := { hold := 7 } }).xspi.hold = 6 := by decide +kernel

/-! ## Well-formed commands: for each check, a command that it refuses and its neighbour that it takes -/

theorem test_wf_port : wellFormed (.inboundAtomic { fb with port := 16 }) = false ∧ wellFormed (.inboundAtomic { fb with port := 15 }) = true := by decide
theorem test_wf_vc : wellFormed (.inboundAtomic { fb with vc := 8 }) = false ∧ wellFormed (.inboundReservedVc { fb with vc := 4 }) = false
    ∧ wellFormed (.inboundReservedVc { fb with vc := 7 }) = true := by decide
theorem test_wf_tag : wellFormed (.waHostRead { fb with tag := 4096 }) = false ∧ wellFormed (.waHostRead { fb with tag := 4095 }) = true := by decide
theorem test_wf_src : wellFormed (.fireboxCodeViewWrite { fb with src := 256 }) = false
    ∧ wellFormed (.fireboxCodeViewWrite { fb with src := 255 }) = true := by decide
theorem test_wf_cross : wellFormed (.inboundBoundaryCross fb true 0xFC0 64) = false ∧ wellFormed (.inboundBoundaryCross fb true 0xFC0 128) = true := by decide
theorem test_wf_creditVc : wellFormed (.creditReturn 0 5 false) = false ∧ wellFormed (.creditReturn 15 4 false) = true := by decide
theorem test_wf_outTag : wellFormed (.outboundTimeout 0 0 4096) = false ∧ wellFormed (.lateResponse 16 0 0) = false
    ∧ wellFormed (.outboundResponse 0 4 4095 .ok []) = true := by decide
theorem test_wf_offset : wellFormed (.registerWrite fb 0x4000000 0 0) = false ∧ wellFormed (.readClearField fb 0 65 0) = false
    ∧ wellFormed (.readClearField fb 0x3FFFFFC 64 0) = true := by decide
theorem test_wf_channel : wellFormed (.stokerWatchdog 128) = false ∧ wellFormed (.trstTimeout 0 8) = false ∧ wellFormed (.trstTimeout 127 7) = true := by decide
theorem test_wf_lun : wellFormed (.prog 4096) = false ∧ wellFormed (.prog 4095) = true := by decide
theorem test_wf_slot : wellFormed (.waitTimeout 0 34) = false ∧ wellFormed (.lunPoll 0 32 0) = false ∧ wellFormed (.slotRunnable 0 33) = true := by decide
theorem test_wf_decoder : wellFormed (.hardDecodeDone 0 0 64 none) = false ∧ wellFormed (.softDecodeDone 0 8 none) = false
    ∧ wellFormed (.hardDecodeDone 0 0 63 (some [])) = false ∧ wellFormed (.hardDecodeDone 0 0 63 none) = true
    ∧ wellFormed (.crystallizerMemoryError true 8) = false ∧ wellFormed (.crystallizerMemoryError false 8) = true := by decide
theorem test_wf_grader : wellFormed (.grdAdd 16 0) = false ∧ wellFormed (.grdAdd 0 4) = false ∧ wellFormed (.grdAdd 15 3) = true
    ∧ wellFormed (.grdFmtValidWrite fb 64 0) = false ∧ wellFormed (.grdPdescValidWrite fb 256 0) = false ∧ wellFormed (.gradeTile 16) = false := by decide
theorem test_wf_mover : wellFormed (.belMove 64 0) = false ∧ wellFormed (.belMove 0 32) = false ∧ wellFormed (.belMove 63 31) = true := by decide
theorem test_wf_rings : wellFormed (.harvestWrite 4096) = false ∧ wellFormed (.sluiceDoorbell fb 4096 0) = false ∧ wellFormed (.slqCreate 4) = false
    ∧ wellFormed (.slqCreate 3) = true := by decide
theorem test_wf_sources : wellFormed (.sourceEdge (.priv 0 64)) = false ∧ wellFormed (.sourceEdge (.shared 2048)) = false
    ∧ wellFormed (.sourceEdge (.shared 2047)) = true ∧ wellFormed (.sicClaim fb 64) = false ∧ wellFormed (.sicRouteWrite fb 2048 0) = false := by decide
theorem test_wf_locks : wellFormed (.leaseExpiry 256) = false ∧ wellFormed (.leaseExpiry 255) = true := by decide
theorem test_wf_loops : wellFormed (.loopEnable fb 16 0) = false ∧ wellFormed (.sourceStale 64) = false ∧ wellFormed (.draughtGrant 16) = false
    ∧ wellFormed (.draughtGrant 15) = true := by decide
theorem test_wf_sets : wellFormed (.reclaim 256) = false ∧ wellFormed (.journalPageProgram 16) = false ∧ wellFormed (.nsCtlWrite fb 1024 0) = false
    ∧ wellFormed (.watchdogExpiry 5) = false ∧ wellFormed (.reclaim 255) = true := by decide
theorem test_wf_struck : wellFormed (.memoryError (.logEntry 2048)) = false ∧ wellFormed (.memoryError (.mover 0 32)) = false
    ∧ wellFormed (.memoryError (.readSlot 128 0)) = false ∧ wellFormed (.memoryError (.gaugeLine 4096)) = false
    ∧ wellFormed (.memoryError (.logEntry 2047)) = true ∧ wellFormed (.deadlockBreak 3 3) = false := by decide

end Sys2Proof.Tests
end

section
/-! SUPPORT. What every write that passes the gate leaves as it is, single bits of registers, and fields after a software write. -/

namespace Sys2Proof.Machine

/-! ## The response to a write -/

@[simp] theorem State.reg_respondWrite (s : State) (r : Req) (c : RCode) (k : RegKind) (i : Nat) :
    (s.respondWrite r c).reg k i = s.reg k i := by
  rw [s.respondWrite_eq]
  rfl

@[simp] theorem State.get_respondWrite (s : State) (r : Req) (c : RCode) (f : Fld) (i : Nat) :
    (s.respondWrite r c).get f i = s.get f i := by
  simp [State.get]

@[simp] theorem State.flag_respondWrite (s : State) (r : Req) (c : RCode) (f : Fld) (i : Nat) :
    (s.respondWrite r c).flag f i = s.flag f i := by
  simp [State.flag]

@[simp] theorem State.respondWrite_sicStack (s : State) (r : Req) (c : RCode) : (s.respondWrite r c).sicStack = s.sicStack := by
  rw [s.respondWrite_eq]

@[simp] theorem State.respondWrite_leases (s : State) (r : Req) (c : RCode) : (s.respondWrite r c).leases = s.leases := by
  rw [s.respondWrite_eq]

@[simp] theorem State.respondWrite_log (s : State) (r : Req) (c : RCode) : (s.respondWrite r c).log = s.log := by
  rw [s.respondWrite_eq]

/-- The responses after a write whose own effect adds none. -/
theorem respondWrite_resps_of_eq {s t : State} (h : t.resps = s.resps) (r : Req) : (t.respondWrite r .ok).resps = okSent s r := by
  rw [respondWrite_resps]
  simp [okSent, h]

/-! ## Copies that keep their words -/

theorem OtherRegs.trans {s t u : State} {k : RegKind} {i : Nat} (hst : OtherRegs s t k i) (htu : OtherRegs t u k i) : OtherRegs s u k i :=
  fun k' i' h => (htu k' i' h).trans (hst k' i' h)

theorem OtherRegs.respondWrite {s t : State} {k : RegKind} {i : Nat} (h : OtherRegs s t k i) (r : Req) (c : RCode) :
    OtherRegs s (t.respondWrite r c) k i := by
  intro k' i' hne
  rw [State.reg_respondWrite]
  exact h k' i' hne

theorem otherRegs_setReg (s : State) (k : RegKind) (i : Nat) (w : Word) : OtherRegs s (s.setReg k i w) k i := by
  intro k' i' h
  by_cases hk : k' = k
  · exact s.reg_setReg_index (fun hi => h (by rw [hk, hi])) _ _ _
  · exact s.reg_setReg_kind hk _ _ _

theorem otherRegs_clrBit (s : State) (k : RegKind) (i b : Nat) : OtherRegs s (s.clrBit k i b) k i := otherRegs_setReg s k i _

/-! ## Single bits -/

theorem State.setBit_eq_setReg (s : State) (k : RegKind) (i b : Nat) : s.setBit k i b = s.setReg k i (s.reg k i ||| (1#32 <<< b)) := rfl

theorem State.bit_of_otherRegs {s t : State} {k k' : RegKind} {i i' : Nat} (h : OtherRegs s t k i) (hne : (k', i') ≠ (k, i)) (b : Nat) :
    t.bit k' i' b = s.bit k' i' b := by
  simp [State.bit, h k' i' hne]

/-- The word with one bit set. -/
theorem getLsbD_one_shiftLeft (b : Nat) {j : Nat} (hj : j < 32) : (1#32 <<< b).getLsbD j = decide (j = b) := by
  rw [← BitVec.twoPow, BitVec.getLsbD_twoPow]
  by_cases h : j = b
  · simp [← h, hj]
  · simp [h, Ne.symm h]

/-- A bit that is set: it reads 1, and every other bit of every register as before. -/
theorem State.bit_setBit (s : State) (k k' : RegKind) (i i' b b' : Nat) (hb : b < 32) :
    (s.setBit k i b).bit k' i' b' = (decide ((k', i', b') = (k, i, b)) || s.bit k' i' b') := by
  by_cases h : (k', i') = (k, i)
  · obtain ⟨rfl, rfl⟩ := Prod.mk.inj h
    rw [State.bit, s.setBit_eq_setReg, State.reg_setReg_same, BitVec.getLsbD_or, Bool.or_comm]
    by_cases hb' : b' < 32
    · rw [getLsbD_one_shiftLeft b hb']
      simp [State.bit]
    · have hne : b' ≠ b := by omega
      simp [State.bit, hne, BitVec.getLsbD_of_ge _ _ (Nat.le_of_not_lt hb')]
  · have hne : ¬ (k', i', b') = (k, i, b) := fun e => h (by simp_all)
    rw [s.setBit_eq_setReg, State.bit_of_otherRegs (otherRegs_setReg s k i _) h]
    simp [hne]

/-- A bit that is cleared: it reads 0, and every other bit of every register as before. -/
theorem State.bit_clrBit (s : State) (k k' : RegKind) (i i' b b' : Nat) :
    (s.clrBit k i b).bit k' i' b' = (!decide ((k', i', b') = (k, i, b)) && s.bit k' i' b') := by
  by_cases h : (k', i') = (k, i)
  · obtain ⟨rfl, rfl⟩ := Prod.mk.inj h
    rw [State.bit, State.clrBit, State.reg_setReg_same, BitVec.getLsbD_and, BitVec.getLsbD_not, Bool.and_comm]
    by_cases hb' : b' < 32
    · rw [getLsbD_one_shiftLeft b hb']
      simp [State.bit, hb']
    · simp [State.bit, BitVec.getLsbD_of_ge _ _ (Nat.le_of_not_lt hb')]
  · have hne : ¬ (k', i', b') = (k, i, b) := fun e => h (by simp_all)
    rw [State.bit_of_otherRegs (otherRegs_clrBit s k i b) h]
    simp [hne]

/-! ## Fields after a software write -/

/-- A field whose bits are all RW reads as written (R4). -/
theorem Fld.get_writeWord_rw (f : Fld) (k : RegKind) (hf : f.hi < 32) (hrw : k.maskOf .rw &&& f.mask = f.mask)
    (hw1c : k.maskOf .w1c &&& f.mask = 0) (hw1s : k.maskOf .w1s &&& f.mask = 0) (old w : Word) : f.get (writeWord k old w) = f.get w := by
  apply Nat.eq_of_testBit_eq
  intro j
  rw [Fld.testBit_get, Fld.testBit_get]
  by_cases hj : j < f.hi + 1 - f.lo
  · have hm : f.mask.getLsbD (f.lo + j) = true := by
      rw [f.getLsbD_mask _ (by omega)]
      simp only [decide_eq_true_eq]
      omega
    have hin {m x : Word} (h : m &&& f.mask = x) : m.getLsbD (f.lo + j) = x.getLsbD (f.lo + j) := by
      rw [← h, BitVec.getLsbD_and, hm, Bool.and_true]
    have h32 : f.lo + j < 32 := by omega
    simp only [writeWord, BitVec.getLsbD_or, BitVec.getLsbD_and, BitVec.getLsbD_not, hin hrw, hin hw1c, hin hw1s, hm, h32]
    simp
  · simp [hj]

theorem State.get_plainWrite_rw (s : State) (f : Fld) (hf : f.hi < 32) (hrw : f.kind.maskOf .rw &&& f.mask = f.mask)
    (hw1c : f.kind.maskOf .w1c &&& f.mask = 0) (hw1s : f.kind.maskOf .w1s &&& f.mask = 0) (i : Nat) (w : Word) :
    (s.plainWrite f.kind i w).get f i = f.get w := by
  simp [State.get, State.plainWrite, f.get_writeWord_rw f.kind hf hrw hw1c hw1s]

theorem otherRegs_plainWrite (s : State) (k : RegKind) (i : Nat) (w : Word) : OtherRegs s (s.plainWrite k i w) k i := otherRegs_setReg s k i _

theorem State.flag_put_field (s : State) {f g : Fld} (h : f.hi < g.lo ∨ g.hi < f.lo) (hf : f.hi < 32) (v i l : Nat) :
    (s.put g v i).flag f l = s.flag f l := by
  simp [State.flag, s.get_put_field h hf]

end Sys2Proof.Machine
end

section
/-! PROOFS. The interrupt controller: pending bits, edges, the choice of a claim, and the writes of its registers (R578 to R589). -/

namespace Sys2Proof.Machine

/-! ## Pending bits -/

/-- The source that a bit of a pending register belongs to (Tables 16-3 and 16-4). -/
def sourceOfBit : RegKind × Nat × Nat → Source
  | (.sicPpendLo, t, b) => .priv t b
  | (.sicPpendHi, t, b) => .priv t (b + 32)
  | (_, i, b) => .shared (32 * i + b)

theorem sourceOfBit_pendBit (x : Source) : sourceOfBit (pendBit x) = x := by
  cases x with
  | priv t k =>
    by_cases h : k < 32
    · simp [pendBit, h, sourceOfBit]
    · have hk : k - 32 + 32 = k := by omega
      simp [pendBit, h, sourceOfBit, hk]
  | shared i => exact congrArg Source.shared (Nat.div_add_mod i 32)

/-- No two sources share a pending bit. -/
theorem pendBit_injective : Function.Injective pendBit := Function.LeftInverse.injective sourceOfBit_pendBit

theorem pendBit_kind_mem (x : Source) : (pendBit x).1 ∈ [RegKind.sicPpendLo, .sicPpendHi, .sicSpend] := by
  cases x with
  | priv t k => by_cases h : k < 32 <;> simp [pendBit, h]
  | shared i => simp [pendBit]

theorem pendBit_priv_lt {k : Nat} (t : Nat) (h : k < 64) : (pendBit (.priv t k)).2.2 < 32 := by
  simp only [pendBit]
  split
  · assumption
  · simp only
    omega

theorem pendBit_shared_lt (i : Nat) : (pendBit (.shared i)).2.2 < 32 := Nat.mod_lt _ (by decide)

theorem pendBit_eq_iff (x y : Source) : ((pendBit y).1, (pendBit y).2.1, (pendBit y).2.2) = ((pendBit x).1, (pendBit x).2.1, (pendBit x).2.2) ↔ y = x :=
  pendBit_injective.eq_iff

/-- The pending bits hang on the pending registers alone. -/
theorem sourcePending_congr {s u : State} (h : ∀ k ∈ [RegKind.sicPpendLo, .sicPpendHi, .sicSpend], ∀ i, u.reg k i = s.reg k i) (x : Source) :
    sourcePending u x = sourcePending s x := by
  simp [sourcePending, State.bit, h _ (pendBit_kind_mem x)]

theorem sourcePending_edge (s : State) {x : Source} (h : (pendBit x).2.2 < 32) (y : Source) :
    sourcePending (s.edge x) y = (decide (y = x) || sourcePending s y) := by
  simp only [sourcePending, State.edge, State.bit_setBit _ _ _ _ _ _ _ h, pendBit_eq_iff]

theorem sourcePending_clearPending (s : State) (x y : Source) :
    sourcePending (s.clearPending x) y = (!decide (y = x) && sourcePending s y) := by
  simp only [sourcePending, State.clearPending, State.bit_clrBit, pendBit_eq_iff]

@[simp] theorem sourcePending_respondWrite (s : State) (r : Req) (c : RCode) (x : Source) :
    sourcePending (s.respondWrite r c) x = sourcePending s x := sourcePending_congr (by simp) x

/-- An edge pends its own source and no other (R578). -/
theorem edge_pends_only (s : State) {x : Source} (h : (pendBit x).2.2 < 32) :
    sourcePending (s.edge x) x = true ∧ ∀ y, y ≠ x → sourcePending (s.edge x) y = sourcePending s y := by
  simp +contextual [sourcePending_edge s h]

/-! ## Edges and software interrupts -/

theorem exec_sourceEdge_priv {s : State} (hon : s.coreOn = true) {t k : Nat} (h : t < 64 ∧ k < 50) :
    exec (.sourceEdge (.priv t k)) s = .next (s.edge (.priv t k)) := by
  show execSourceEdge (.priv t k) s = _
  simp [execSourceEdge, hon, h]

theorem exec_sourceEdge_shared {s : State} (hon : s.coreOn = true) {i : Nat} (h : i < 2048) :
    exec (.sourceEdge (.shared i)) s = .next (s.edge (.shared i)) := by
  show execSourceEdge (.shared i) s = _
  simp [execSourceEdge, hon, h]

theorem exec_sicSwi {s : State} {r : Req} {w : Word} (hw : Written s r .sicSwi 0 w) (hs : Steady s) (h : Fld.sicSwiSrc.get w < 48) :
    exec (.sicSwi r w) s = .next ((s.edge (.priv (Fld.sicSwiTgt.get w) (Fld.sicSwiSrc.get w))).respondWrite r .ok) := by
  show execSicSwi _ _ _ = _
  simp [execSicSwi, regWrite_pass hw hs, swi, h]

/-! ## Writes of BASE, routes and pending registers -/

theorem sicStackOf_eq_of_sicStack {s u : State} (h : u.sicStack = s.sicStack) (t : Nat) : sicStackOf u t = sicStackOf s t := by
  simp [sicStackOf, h]

/-- The threshold is BASE where no claim is in service (R587). -/
theorem threshold_of_nil {s : State} {t : Nat} (h : sicStackOf s t = []) : threshold s t = s.get Fld.sicThrBase t := by
  simp [threshold, h]

/-- The threshold is the priority of the newest claim in service (R583). -/
theorem threshold_of_cons {s : State} {t i p : Nat} {l : List (Nat × Nat)} (h : sicStackOf s t = (i, p) :: l) : threshold s t = p := by
  simp [threshold, h]

theorem thrWrite_base (t : Nat) (w : Word) (s : State) : (thrWrite t w s).get Fld.sicThrBase t = min 14 (Fld.sicThrBase.get w) := by
  have h : min 14 (Fld.sicThrBase.get w) < 2 ^ (Fld.sicThrBase.hi + 1 - Fld.sicThrBase.lo) :=
    Nat.lt_of_le_of_lt (Nat.min_le_left _ _) (by decide)
  rw [thrWrite, State.get_put_same _ _ (by decide), Nat.mod_eq_of_lt h]

theorem otherRegs_thrWrite (t : Nat) (w : Word) (s : State) : OtherRegs s (thrWrite t w s) .sicThr t :=
  (otherRegs_plainWrite s .sicThr t w).trans (otherRegs_put _ Fld.sicThrBase _ t)

theorem exec_sicBaseWrite {s : State} {r : Req} {t : Nat} {w : Word} (ht : t < 64) (hw : Written s r .sicThr t w) (hs : Steady s) :
    exec (.sicBaseWrite r t w) s = .next ((thrWrite t w s).respondWrite r .ok) := by
  show execSicBaseWrite _ _ _ _ = _
  simp [execSicBaseWrite, ht, regWrite_pass hw hs]

theorem exec_sicRouteWrite {s : State} {r : Req} {i : Nat} {w : Word} (hi : i < 2048) (hw : Written s r .sicRoute i w) (hs : Steady s) :
    exec (.sicRouteWrite r i w) s = .next ((s.plainWrite .sicRoute i w).respondWrite r .ok) := by
  show execSicRouteWrite _ _ _ _ = _
  simp [execSicRouteWrite, hi, regWrite_pass hw hs]

theorem exec_sicPendingWrite {s : State} {r : Req} {ofs i : Nat} {k : RegKind} {w : Word} (hk : k ∈ [RegKind.sicPpendLo, .sicPpendHi, .sicSpend])
    (hofs : regAt ofs = some (k, i)) (hw : Written s r k i w) (hs : Steady s) (hwBits : Word) :
    exec (.sicPendingWrite r ofs w hwBits) s = .next ((s.setReg k i (w ||| hwBits)).respondWrite r .ok) := by
  show execSicPendingWrite _ _ _ _ _ = _
  simp only [List.mem_cons, List.not_mem_nil, or_false] at hk
  obtain rfl | rfl | rfl := hk <;> simp [execSicPendingWrite, hofs, regWrite_pass hw hs, pendingWrite]

/-- A route written is the written one (R582, R601). -/
theorem plainWrite_route (s : State) (i : Nat) (w : Word) :
    sourceTarget (s.plainWrite .sicRoute i w) (.shared i) = Fld.sicRouteTgt.get w ∧
      sourcePrio (s.plainWrite .sicRoute i w) (.shared i) = Fld.sicRoutePrio.get w :=
  ⟨s.get_plainWrite_rw Fld.sicRouteTgt (by decide) (by decide) (by decide) (by decide) i w,
    s.get_plainWrite_rw Fld.sicRoutePrio (by decide) (by decide) (by decide) (by decide) i w⟩

/-! ## The choice of a claim -/

/-- The pending shared sources of one pending register. -/
def pendingOfWord (s : State) (i : Nat) : List Nat :=
  if s.reg .sicSpend i = 0 then [] else ((List.range 32).filter fun b => s.bit .sicSpend i b).map (32 * i + ·)

theorem pendingShared_eq (s : State) : pendingShared s = (List.range 64).flatMap (pendingOfWord s) := rfl

theorem pendingOfWord_bounds {s : State} {i n : Nat} (h : n ∈ pendingOfWord s i) : 32 * i ≤ n ∧ n < 32 * (i + 1) := by
  unfold pendingOfWord at h
  split at h
  · simp at h
  · simp only [List.mem_map, List.mem_filter, List.mem_range] at h
    omega

theorem pendingOfWord_sorted (s : State) (i : Nat) : (pendingOfWord s i).Pairwise (· < ·) := by
  unfold pendingOfWord
  split
  · exact .nil
  · exact (List.pairwise_lt_range.filter _).map _ fun _ _ h => Nat.add_lt_add_left h _

theorem pendingShared_sorted (s : State) : (pendingShared s).Pairwise (· < ·) := by
  rw [pendingShared_eq, List.pairwise_flatMap]
  refine ⟨fun i _ => pendingOfWord_sorted s i, List.pairwise_lt_range.imp fun hij m hm n hn => ?_⟩
  have hm := pendingOfWord_bounds hm
  have hn := pendingOfWord_bounds hn
  omega

/-- The deliverable sources of a target stand in ascending ID. -/
theorem sourcesReady_sorted (s : State) (t : Nat) : (sourcesReady s t).Pairwise (fun x y => sourceId x < sourceId y) := by
  refine List.Pairwise.filter _ (List.pairwise_append.mpr ⟨?_, ?_, ?_⟩)
  · exact List.pairwise_lt_range.map _ fun _ _ h => h
  · exact ((pendingShared_sorted s).map Source.shared fun i j (h : i < j) =>
      show sourceId (.shared i) < sourceId (.shared j) from Nat.add_lt_add_left h 0x800).filter _
  · intro x hx y hy
    obtain ⟨k, hk, rfl⟩ := List.mem_map.mp hx
    obtain ⟨i, -, rfl⟩ := List.mem_map.mp (List.mem_filter.mp hy).1
    have hk := List.mem_range.mp hk
    simp only [sourceId]
    omega

/-- Of sources in ascending ID, the best is the one of highest priority, ties to the lower ID (R583). -/
theorem bestSource_eq_some {s : State} {l : List Source} (hl : l.Pairwise fun x y => sourceId x < sourceId y) {x : Source} (hx : x ∈ l)
    (hbest : ∀ y ∈ l, sourcePrio s y < sourcePrio s x ∨ (sourcePrio s y = sourcePrio s x ∧ sourceId x ≤ sourceId y)) :
    bestSource s l = some x := by
  induction l with
  | nil => cases hx
  | cons a r ih =>
    obtain ⟨har, hr⟩ := List.pairwise_cons.mp hl
    simp only [bestSource]
    rcases List.mem_cons.mp hx with rfl | hxr
    · cases hb : bestSource s r with
      | none => rfl
      | some y =>
        have hy := hbest y (List.mem_cons_of_mem _ (bestSource_mem s r hb))
        exact if_neg (by omega)
    · have ha := hbest a List.mem_cons_self
      have hid := har x hxr
      rw [ih hr hxr fun y hy => hbest y (List.mem_cons_of_mem _ hy)]
      exact if_pos (by omega)

/-! ## Claim and end of interrupt -/

theorem sicStackOf_setStack_same (s : State) (t : Nat) (l : List (Nat × Nat)) : sicStackOf (s.setStack t l) t = l :=
  Tab.get_set_same [] l t s.sicStack

theorem sicStackOf_setStack_ne (s : State) {t t' : Nat} (h : t' ≠ t) (l : List (Nat × Nat)) : sicStackOf (s.setStack t l) t' = sicStackOf s t' :=
  Tab.get_set_ne h [] [] l s.sicStack

theorem exec_sicClaim {s : State} {r : Req} {t : Nat} (ht : t < 64) (hr : ReadOk s r .sicClaim t) :
    exec (.sicClaim r t) s = .next ((claim s t).2.respond r .ok (laneBytes (RegKind.sicClaim.offset t) (claim s t).1)) := by
  show execSicClaim _ _ _ = _
  simp [execSicClaim, ht, regRead_pass hr]

theorem claim_of_none_ready {s : State} {t : Nat} (h : sourcesReady s t = []) : claim s t = (0xFFFF, s) := by
  simp [claim, h, bestSource]

/-- The state after a claim that takes source `x` (R583). -/
def claimed (s : State) (t : Nat) (x : Source) : State := (s.clearPending x).setStack t ((sourceId x, sourcePrio s x) :: sicStackOf s t)

theorem claim_of_best {s : State} {t : Nat} {x : Source} (h : bestSource s (sourcesReady s t) = some x) :
    claim s t = (BitVec.ofNat 32 (sourceId x), claimed s t x) := by
  simp [claim, h, claimed]

theorem sicStackOf_claimed_same (s : State) (t : Nat) (x : Source) : sicStackOf (claimed s t x) t = (sourceId x, sourcePrio s x) :: sicStackOf s t :=
  sicStackOf_setStack_same _ t _

theorem sicStackOf_claimed_ne (s : State) {t t' : Nat} (h : t' ≠ t) (x : Source) : sicStackOf (claimed s t x) t' = sicStackOf s t' :=
  sicStackOf_setStack_ne _ h _

theorem threshold_claimed (s : State) (t : Nat) (x : Source) : threshold (claimed s t x) t = sourcePrio s x :=
  threshold_of_cons (sicStackOf_claimed_same s t x)

theorem sourcePending_claimed (s : State) (t : Nat) (x y : Source) : sourcePending (claimed s t x) y = (!decide (y = x) && sourcePending s y) :=
  sourcePending_clearPending s x y

/-- A claim changes no register but the pending register of its source. -/
theorem reg_claimed (s : State) (t : Nat) (x : Source) {k : RegKind} (hk : k ∉ [RegKind.sicPpendLo, .sicPpendHi, .sicSpend]) (i : Nat) :
    (claimed s t x).reg k i = s.reg k i :=
  otherRegs_clrBit s _ _ _ k i fun h => hk ((Prod.mk.inj h).1 ▸ pendBit_kind_mem x)

/-- What an EOI that is refused leaves (R585). -/
def eoiRefused (s : State) (t : Nat) : State := (s.putFlag Fld.sicThrEoiErr true t).logPacked uSIC 0x1015

theorem eoi_newest {s : State} {t x p : Nat} {l : List (Nat × Nat)} {w : Word} (h : sicStackOf s t = (x, p) :: l) (hx : x = Fld.sicEoiId.get w) :
    eoi t w s = s.setStack t l := by
  simp [eoi, h, hx]

theorem eoi_other {s : State} {t : Nat} {w : Word} (h : ∀ x p l, sicStackOf s t = (x, p) :: l → x ≠ Fld.sicEoiId.get w) :
    eoi t w s = eoiRefused s t := by
  unfold eoi
  split
  · next x p l hl => exact if_neg (h x p l hl)
  · rfl

theorem eoi_resps (t : Nat) (w : Word) (s : State) : (eoi t w s).resps = s.resps := by
  unfold eoi
  split
  · split <;> rfl
  · rfl

/-- A refused EOI changes no register word but SIC_THR of its target, and GLB_LOG_SEQ. -/
theorem reg_eoiRefused (s : State) (t : Nat) {k : RegKind} (hk : k ≠ .glbLogSeq) (i : Nat) :
    (eoiRefused s t).reg k i = (s.putFlag Fld.sicThrEoiErr true t).reg k i :=
  otherRegs_logEntry _ _ _ _ _ k i fun h => hk (Prod.mk.inj h).1

theorem eoiRefused_flag (s : State) (t : Nat) : (eoiRefused s t).flag Fld.sicThrEoiErr t = true := by
  have h := s.flag_putFlag Fld.sicThrEoiErr rfl (by decide) true t
  rwa [State.flag, State.get, ← reg_eoiRefused s t (by decide)] at h

theorem eoiRefused_base (s : State) (t : Nat) : (eoiRefused s t).get Fld.sicThrBase t = s.get Fld.sicThrBase t := by
  rw [State.get, reg_eoiRefused s t (by decide)]
  exact s.get_put_field (f := Fld.sicThrBase) (g := Fld.sicThrEoiErr) (by decide) (by decide) _ t t

theorem exec_sicEoi {s : State} {r : Req} {t : Nat} {w : Word} (ht : t < 64) (hw : Written s r .sicEoi t w) (hs : Steady s) :
    exec (.sicEoi r t w) s = .next ((eoi t w s).respondWrite r .ok) := by
  show execSicEoi _ _ _ _ = _
  simp [execSicEoi, ht, regWrite_pass hw hs]

/-! ## The obligations -/

/-- Settles O7: an edge, and a write of SIC_SWI, set one pending bit; writes of BASE, routes and pending registers reach their own copy alone. -/
theorem interruptEdgesAndWrites : Obligations.InterruptEdgesAndWrites := by
  unfold Obligations.InterruptEdgesAndWrites
  refine ⟨⟨?edge, ?swi⟩, ?base, ?route, ?pending⟩
  case edge =>
    intro s x hon hx
    cases x with
    | priv t k =>
      obtain ⟨hx', hothers⟩ := edge_pends_only s (pendBit_priv_lt t (k := k) (by omega))
      exact ⟨_, exec_sourceEdge_priv hon hx, hx', rfl, hothers⟩
    | shared i =>
      obtain ⟨hx', hothers⟩ := edge_pends_only s (pendBit_shared_lt i)
      exact ⟨_, exec_sourceEdge_shared hon hx, hx', rfl, hothers⟩
  case swi =>
    intro s r w hw hs hsrc
    obtain ⟨hx, hothers⟩ := edge_pends_only s (pendBit_priv_lt (Fld.sicSwiTgt.get w) (k := Fld.sicSwiSrc.get w) (by omega))
    refine ⟨_, exec_sicSwi hw hs hsrc, by simpa using hx, ?_, by simpa using hothers⟩
    rw [State.respondWrite_eq]
    rfl
  case base =>
    intro s r t w ht hw hs
    have hstack : ((thrWrite t w s).respondWrite r .ok).sicStack = s.sicStack := State.respondWrite_sicStack _ r .ok
    have hbase : ((thrWrite t w s).respondWrite r .ok).get Fld.sicThrBase t = min 14 (Fld.sicThrBase.get w) := by
      rw [State.get_respondWrite, thrWrite_base]
    refine ⟨_, exec_sicBaseWrite ht hw hs, respondWrite_resps_of_eq rfl r, hstack, hbase, (otherRegs_thrWrite t w s).respondWrite r .ok, ?_, ?_⟩
    · intro hnil
      rw [threshold_of_nil ((sicStackOf_eq_of_sicStack hstack t).trans hnil), hbase]
    · intro hcons
      obtain ⟨⟨i, p⟩, l, hl⟩ := List.exists_cons_of_ne_nil hcons
      rw [threshold_of_cons hl, threshold_of_cons ((sicStackOf_eq_of_sicStack hstack t).trans hl)]
  case route =>
    intro s r i w hi hw hs
    obtain ⟨htgt, hprio⟩ := plainWrite_route s i w
    have hother := otherRegs_plainWrite s .sicRoute i w
    refine ⟨_, exec_sicRouteWrite hi hw hs, respondWrite_resps_of_eq rfl r, State.respondWrite_sicStack _ r .ok, ?_, ?_, ?_, hother.respondWrite r .ok⟩
    · rw [← htgt]
      exact State.get_respondWrite _ r .ok _ _
    · rw [← hprio]
      exact State.get_respondWrite _ r .ok _ _
    · intro y
      rw [sourcePending_respondWrite]
      refine sourcePending_congr (fun k hk j => hother k j fun h => ?_) y
      rw [(Prod.mk.inj h).1] at hk
      exact absurd hk (by decide)
  case pending =>
    intro s r ofs i k w hwBits hk hofs hw hs
    exact ⟨_, exec_sicPendingWrite hk hofs hw hs hwBits, respondWrite_resps_of_eq rfl r, State.respondWrite_sicStack _ r .ok,
      by simp, (otherRegs_setReg s k i _).respondWrite r .ok⟩

/-- Settles O8: the claim takes the best of the deliverable sources, which stand in ascending ID; the EOI of the newest claim pops it. -/
theorem interruptClaimAndEoi : Obligations.InterruptClaimAndEoi := by
  unfold Obligations.InterruptClaimAndEoi
  refine ⟨fun s r t ht hr => ⟨?noneReady, ?best⟩, ?eoi⟩
  case noneReady =>
    intro hnone
    rw [exec_sicClaim ht hr, claim_of_none_ready hnone]
  case best =>
    intro x hx hbest
    have hsel := bestSource_eq_some (sourcesReady_sorted s t) hx hbest
    refine ⟨(claimed s t x).respond r .ok (laneBytes (RegKind.sicClaim.offset t) (BitVec.ofNat 32 (sourceId x))), ?_, rfl, ?_, ?_, ?_,
      threshold_claimed s t x, sicStackOf_claimed_same s t x, fun t' h => sicStackOf_claimed_ne s h x, rfl, fun k i hk => reg_claimed s t x hk i⟩
    · rw [exec_sicClaim ht hr, claim_of_best hsel]
    · exact (sourcePending_claimed s t x x).trans (by simp)
    · exact fun y hy => (sourcePending_claimed s t x y).trans (by simp [hy])
    · exact (bestSource_ready s t hsel).trans_eq (threshold_claimed s t x).symm
  case eoi =>
    intro s r t w ht hw hs
    refine ⟨_, exec_sicEoi ht hw hs, respondWrite_resps_of_eq (eoi_resps t w s) r, ?_, ?_⟩
    · intro x p l hl hx
      rw [eoi_newest hl hx, State.respondWrite_eq]
      exact ⟨sicStackOf_setStack_same s t l, fun t' h => sicStackOf_setStack_ne s h l, rfl⟩
    · intro hother
      rw [eoi_other hother]
      refine ⟨?_, ?_, ?_, ?_, ?_, ?_⟩
      · rw [State.flag_respondWrite, eoiRefused_flag]
      · rw [State.get_respondWrite, eoiRefused_base]
      · rw [State.respondWrite_log]
        exact head_logEntry _ _ _ _ _
      · rw [State.respondWrite_log]
        rfl
      · rw [State.respondWrite_eq]
        rfl
      · intro k i hne hseq
        rw [State.reg_respondWrite, reg_eoiRefused s t hseq]
        exact otherRegs_put s Fld.sicThrEoiErr _ t k i hne

end Sys2Proof.Machine
end

section
/-! PROOFS. The hardware locks: what a write of LCK_CTL leaves when it is granted, freed or refused (R593, R594, R602). -/

namespace Sys2Proof.Machine

/-! ## Granted, freed and refused -/

/-- HELD and OWNER of a lock as a grant or a release writes them, its lease aside (R593, R594). -/
def markOwner (s : State) (n : Nat) (held : Bool) (owner : Nat) : State := (s.putFlag Fld.lckStsHeld held n).put Fld.lckStsOwner owner n

theorem grantLock_eq (s : State) (n src : Nat) :
    grantLock s n src = { markOwner s n true src with
      leases := Tab.put n (s.now + leaseNs (markOwner s n true src)) s.leases } := rfl

theorem freeLock_eq (s : State) (n : Nat) : freeLock s n = { markOwner s n false 0 with leases := Tab.del n s.leases } := rfl

theorem markOwner_held (s : State) (n : Nat) (held : Bool) (owner : Nat) : (markOwner s n held owner).flag Fld.lckStsHeld n = held := by
  rw [markOwner, State.flag_put_field _ (by decide) (by decide), State.flag_putFlag _ _ rfl (by decide)]

theorem markOwner_owner (s : State) (n : Nat) (held : Bool) {owner : Nat} (h : owner < 256) :
    (markOwner s n held owner).get Fld.lckStsOwner n = owner := by
  rw [markOwner, State.get_put_same _ _ (by decide)]
  exact Nat.mod_eq_of_lt h

theorem markOwner_broken (s : State) (n : Nat) (held : Bool) (owner : Nat) :
    (markOwner s n held owner).flag Fld.lckStsBroken n = s.flag Fld.lckStsBroken n := by
  rw [markOwner, State.flag_put_field _ (by decide) (by decide), State.putFlag, State.flag_put_field _ (by decide) (by decide)]

theorem otherRegs_markOwner (s : State) (n : Nat) (held : Bool) (owner : Nat) : OtherRegs s (markOwner s n held owner) .lckSts n :=
  (otherRegs_put s Fld.lckStsHeld _ n).trans (otherRegs_put _ Fld.lckStsOwner owner n)

/-- LCK_CFG.LEASE gives the lease time, whatever LCK_STS holds. -/
theorem leaseNs_markOwner (s : State) (n : Nat) (held : Bool) (owner : Nat) : leaseNs (markOwner s n held owner) = leaseNs s := by
  simp [leaseNs, State.get, otherRegs_markOwner s n held owner _ _ (show (Fld.lckCfgLease.kind, 0) ≠ (RegKind.lckSts, n) by simp [Fld.lckCfgLease])]

/-- A granted lock: what LCK_STS shows of it, and no other copy changed. -/
theorem grantLock_status (s : State) (n : Nat) {src : Nat} (h : src < 256) :
    (grantLock s n src).flag Fld.lckStsHeld n = true ∧ (grantLock s n src).get Fld.lckStsOwner n = src ∧
      (grantLock s n src).flag Fld.lckStsBroken n = s.flag Fld.lckStsBroken n ∧ OtherRegs s (grantLock s n src) .lckSts n :=
  ⟨markOwner_held s n true src, markOwner_owner s n true h, markOwner_broken s n true src, otherRegs_markOwner s n true src⟩

/-- A freed lock: what LCK_STS shows of it, and no other copy changed. -/
theorem freeLock_status (s : State) (n : Nat) :
    (freeLock s n).flag Fld.lckStsHeld n = false ∧ (freeLock s n).get Fld.lckStsOwner n = 0 ∧
      (freeLock s n).flag Fld.lckStsBroken n = s.flag Fld.lckStsBroken n ∧ OtherRegs s (freeLock s n) .lckSts n :=
  ⟨markOwner_held s n false 0, markOwner_owner s n false (by decide), markOwner_broken s n false 0, otherRegs_markOwner s n false 0⟩

theorem grantLock_lease (s : State) (n src : Nat) :
    Tab.find n (grantLock s n src).leases = some (s.now + max 1 (s.get Fld.lckCfgLease) * 100000) := by
  rw [grantLock_eq, leaseNs_markOwner]
  exact Tab.find_put_same n _ _

theorem freeLock_lease (s : State) (n : Nat) : Tab.find n (freeLock s n).leases = none := Tab.find_del_same n s.leases

/-- A write that is refused counts, and changes nothing else (R593, R594). -/
theorem refused_effect (s : State) (r : Req) :
    let u := (s.inc Fld.lckGstsRefused).respondWrite r .ok
    u.resps = okSent s r ∧ u.leases = s.leases ∧ OtherRegs s u .lckGsts 0 ∧
      u.get Fld.lckGstsRefused = min 0xFFFF (s.get Fld.lckGstsRefused + 1) ∧ u.get Fld.lckGstsBreaks = s.get Fld.lckGstsBreaks := by
  refine ⟨respondWrite_resps_of_eq rfl r, by simp, (otherRegs_put s Fld.lckGstsRefused _ 0).respondWrite r .ok, ?_, ?_⟩
  · rw [State.get_respondWrite, State.get_inc_same _ _ (by decide)]
    rfl
  · rw [State.get_respondWrite]
    exact s.get_put_field (f := Fld.lckGstsBreaks) (g := Fld.lckGstsRefused) (by decide) (by decide) _ 0 0

/-! ## The write of LCK_CTL, case by case -/

section
variable {s : State} {r : Req} {n : Nat} {w : Word}

theorem lockCtlWrite_grant (hacq : Fld.lckCtlAcq.get w = 1) (hrel : ¬Fld.lckCtlRel.get w = 1)
    (h : ¬s.flag Fld.lckStsHeld n = true ∨ (s.flag Fld.lckStsHeld n = true ∧ s.get Fld.lckStsOwner n = r.src)) :
    lockCtlWrite r n w s = grantLock s n r.src := by
  rcases h with hfree | ⟨hheld, howner⟩
  · simp [lockCtlWrite, hacq, hrel, hfree]
  · simp [lockCtlWrite, hacq, hrel, hheld, howner]

theorem lockCtlWrite_acquire_refused (hacq : Fld.lckCtlAcq.get w = 1) (hrel : ¬Fld.lckCtlRel.get w = 1) (hheld : s.flag Fld.lckStsHeld n = true)
    (h : ¬(s.flag Fld.lckStsHeld n = true ∧ s.get Fld.lckStsOwner n = r.src)) :
    lockCtlWrite r n w s = s.inc Fld.lckGstsRefused := by
  have howner : s.get Fld.lckStsOwner n ≠ r.src := fun e => h ⟨hheld, e⟩
  simp [lockCtlWrite, hacq, hrel, hheld, howner]

theorem lockCtlWrite_free (hrel : Fld.lckCtlRel.get w = 1) (hacq : ¬Fld.lckCtlAcq.get w = 1)
    (h : s.flag Fld.lckStsHeld n = true ∧ s.get Fld.lckStsOwner n = r.src) : lockCtlWrite r n w s = freeLock s n := by
  simp [lockCtlWrite, hacq, hrel, h]

theorem lockCtlWrite_release_refused (hrel : Fld.lckCtlRel.get w = 1) (hacq : ¬Fld.lckCtlAcq.get w = 1)
    (h : ¬(s.flag Fld.lckStsHeld n = true ∧ s.get Fld.lckStsOwner n = r.src)) : lockCtlWrite r n w s = s.inc Fld.lckGstsRefused := by
  simp only [lockCtlWrite, hacq, hrel, false_and, if_false, if_true, Bool.and_eq_true, beq_iff_eq, h]

theorem lockCtlWrite_both (hacq : Fld.lckCtlAcq.get w = 1) (hrel : Fld.lckCtlRel.get w = 1) :
    lockCtlWrite r n w s = s.inc Fld.lckGstsRefused := by
  simp [lockCtlWrite, hacq, hrel]

theorem exec_lockAcquire (hn : n < 256) (hw : Written s r .lckCtl n w) (hs : Steady s) (hacq : Fld.lckCtlAcq.get w = 1) :
    exec (.lockAcquire r n w) s = .next ((lockCtlWrite r n w s).respondWrite r .ok) := by
  show execLockAcquire r n w s = _
  simp [execLockAcquire, hn, hacq, regWrite_pass hw hs]

theorem exec_lockRelease (hn : n < 256) (hw : Written s r .lckCtl n w) (hs : Steady s) (hrel : Fld.lckCtlRel.get w = 1) :
    exec (.lockRelease r n w) s = .next ((lockCtlWrite r n w s).respondWrite r .ok) := by
  show execLockRelease r n w s = _
  simp [execLockRelease, hn, hrel, regWrite_pass hw hs]

end

/-! ## The obligation -/

/-- Settles O9: each case of the write of LCK_CTL grants or frees the lock, or is refused. -/
theorem lockAcquireRelease : Obligations.LockAcquireRelease := by
  unfold Obligations.LockAcquireRelease
  intro s r n w hn hw hs hsrc acq rel held mine refused
  have hacquire (hacq : acq) := exec_lockAcquire hn hw hs hacq
  have hrelease (hrel : rel) := exec_lockRelease hn hw hs hrel
  have hrefused {o : Out} (h : o = .next ((s.inc Fld.lckGstsRefused).respondWrite r .ok)) : refused o := ⟨_, h, refused_effect s r⟩
  refine ⟨?grant, ?acquireRefused, ?free, ?releaseRefused, ?both⟩
  case grant =>
    intro hacq hrel hmay
    obtain ⟨hheld, howner, hbroken, hother⟩ := grantLock_status s n hsrc
    rw [hacquire hacq, lockCtlWrite_grant hacq hrel hmay]
    refine ⟨_, rfl, respondWrite_resps_of_eq rfl r, ?_, ?_, ?_, ?_, hother.respondWrite r .ok⟩
    · rw [State.flag_respondWrite, hheld]
    · rw [State.get_respondWrite, howner]
    · rw [State.flag_respondWrite, hbroken]
    · rw [State.respondWrite_leases, grantLock_lease]
  case acquireRefused =>
    intro hacq hrel hheld hother
    exact hrefused ((hacquire hacq).trans (by rw [lockCtlWrite_acquire_refused hacq hrel hheld hother]))
  case free =>
    intro hrel hacq hmine
    obtain ⟨hheld, howner, hbroken, hother⟩ := freeLock_status s n
    rw [hrelease hrel, lockCtlWrite_free hrel hacq hmine]
    refine ⟨_, rfl, respondWrite_resps_of_eq rfl r, ?_, ?_, ?_, ?_, hother.respondWrite r .ok⟩
    · rw [State.flag_respondWrite, hheld]
    · rw [State.get_respondWrite, howner]
    · rw [State.flag_respondWrite, hbroken]
    · rw [State.respondWrite_leases, freeLock_lease]
  case releaseRefused =>
    intro hrel hacq hother
    exact hrefused ((hrelease hrel).trans (by rw [lockCtlWrite_release_refused hrel hacq hother]))
  case both =>
    intro hacq hrel
    have hctl := lockCtlWrite_both (s := s) (r := r) (n := n) hacq hrel
    exact ⟨hrefused ((hrelease hrel).trans (by rw [hctl])), hrefused ((hacquire hacq).trans (by rw [hctl]))⟩

end Sys2Proof.Machine
end

section
/-! PROOFS. The machine as a whole: every command and the idle step keep the part, the queue and the invariant. -/

namespace Sys2Proof.Machine

/-- Every command keeps the part, the queue and the invariant. -/
theorem keeps_exec {pt : Part} {qu : List Instr} (i : Instr) (s : State) (h : Kept pt qu s) : KeptOut pt qu (exec i s) :=
  match i with
  | .rstEmberAssert width => keeps_execRstEmberAssert width s h
  | .rstColdAssert width => keeps_execRstColdAssert width s h
  | .rstWarmAssert width => keeps_execRstWarmAssert width s h
  | .resetRelease rowOk => keeps_execResetRelease rowOk s h
  | .clockMonitorFault => keeps_execClockMonitorFault s h
  | .embClkLoss => keeps_execEmbClkLoss s h
  | .pwrGoodCoreLow => keeps_execPwrGoodCoreLow s h
  | .embClkLossClear again => keeps_execEmbClkLossClear again s h
  | .selftestStage fails rnd => keeps_execSelftestStage fails rnd s h
  | .kindlingSlotRead answers sfdp d => keeps_execKindlingSlotRead answers sfdp d s h
  | .kindlingEnd key => keeps_execKindlingEnd key s h
  | .targetResetStage rb => keeps_execTargetResetStage rb s h
  | .targetBusyTimeout c t => keeps_execTargetBusyTimeout c t s h
  | .targetReadyReset c t => keeps_execTargetReadyReset c t s h
  | .trstTimeout c t => keeps_execTrstTimeout c t s h
  | .identifyStage c ids => keeps_execIdentifyStage c ids s h
  | .trainStage c ms => keeps_execTrainStage c ms s h
  | .ledgerStage c reads => keeps_execLedgerStage c reads s h
  | .mapStage m => keeps_execMapStage m s h
  | .panReload ms => keeps_execPanReload ms s h
  | .dramNoAnswer => keeps_execDramNoAnswer s h
  | .serveReadEntry => keeps_execServeReadEntry s h
  | .frontierSearch set g front broken seq => keeps_execFrontierSearch set g front broken seq s h
  | .runEntry => keeps_execRunEntry s h
  | .pairingRecordSend => keeps_execPairingRecordSend s h
  | .pairingRecordReceived data => keeps_execPairingRecordReceived data s h
  | .pairingTimeout => keeps_execPairingTimeout s h
  | .pairingRetry => keeps_execPairingRetry s h
  | .heartbeatSend => keeps_execHeartbeatSend s h
  | .heartbeatReceived data => keeps_execHeartbeatReceived data s h
  | .heartbeatLoss => keeps_execHeartbeatLoss s h
  | .reconciliationStart => keeps_execReconciliationStart s h
  | .reconciliationEnd => keeps_execReconciliationEnd s h
  | .inboundAtomic r => keeps_execInboundAtomic r s h
  | .inboundReservedVc r => keeps_execInboundReservedVc r s h
  | .inboundBoundaryCross r write addr len => keeps_execInboundBoundaryCross r write addr len s h
  | .creditReturn port vc data => keeps_execCreditReturn port vc data s h
  | .outboundResponse port vc tag code data => keeps_execOutboundResponse port vc tag code data s h
  | .outboundTimeout port vc tag => keeps_execOutboundTimeout port vc tag s h
  | .lateResponse port vc tag => keeps_execLateResponse port vc tag s h
  | .registerWrite r ofs w ev => keeps_execRegisterWrite r ofs w ev s h
  | .readClearField r ofs beats ev => keeps_execReadClearField r ofs beats ev s h
  | .loHalfReadLatch r ofs => keeps_execLoHalfReadLatch r ofs s h
  | .waHostRead r => keeps_execWaHostRead r s h
  | .sluiceDoorbell r n w => keeps_execSluiceDoorbell r n w s h
  | .fetchGrant => keeps_execFetchGrant s h
  | .fetchReadDone n code data => keeps_execFetchReadDone n code data s h
  | .sluiceNop rtag => keeps_execSluiceNop rtag s h
  | .sluiceRead rtag => keeps_execSluiceRead rtag s h
  | .sluiceWrite rtag => keeps_execSluiceWrite rtag s h
  | .sluiceFlush rtag => keeps_execSluiceFlush rtag s h
  | .sluiceUnmap rtag => keeps_execSluiceUnmap rtag s h
  | .sluiceFilter rtag => keeps_execSluiceFilter rtag s h
  | .sluiceMargin rtag => keeps_execSluiceMargin rtag s h
  | .mapLookup rtag n => keeps_execMapLookup rtag n s h
  | .mapFillDone line code data => keeps_execMapFillDone line code data s h
  | .mapTileLoadDone mt code => keeps_execMapTileLoadDone mt code s h
  | .gaugeLineFetchDone key code data => keeps_execGaugeLineFetchDone key code data s h
  | .class3Aged k => keeps_execClass3Aged k s h
  | .class0BucketRefill => keeps_execClass0BucketRefill s h
  | .raBucketRefill => keeps_execRaBucketRefill s h
  | .class0Deadline rtag => keeps_execClass0Deadline rtag s h
  | .commitLate rtag => keeps_execCommitLate rtag s h
  | .draughtGrant g => keeps_execDraughtGrant g s h
  | .draughtEndReport => keeps_execDraughtEndReport s h
  | .stokerIssue k => keeps_execStokerIssue k s h
  | .slotSwitch c din => keeps_execSlotSwitch c din s h
  | .stkNop c w => keeps_execStkNop c w s h
  | .stkCyc c w => keeps_execStkCyc c w s h
  | .stkGo c w => keeps_execStkGo c w s h
  | .stkXfer c w din => keeps_execStkXfer c w din s h
  | .dataOutFrame c bs crc => keeps_execDataOutFrame c bs crc s h
  | .stkTdly c w => keeps_execStkTdly c w s h
  | .stkWait c w => keeps_execStkWait c w s h
  | .waitTimeout c k => keeps_execWaitTimeout c k s h
  | .slotRunnable c k => keeps_execSlotRunnable c k s h
  | .rbRise c t => keeps_execRbRise c t s h
  | .lunPoll c k b => keeps_execLunPoll c k b s h
  | .stkSafe c w => keeps_execStkSafe c w s h
  | .stkBr c w => keeps_execStkBr c w s h
  | .stkCall c w => keeps_execStkCall c w s h
  | .stkRet c w => keeps_execStkRet c w s h
  | .stkLdi c w => keeps_execStkLdi c w s h
  | .stkAddi c w => keeps_execStkAddi c w s h
  | .stkAndi c w => keeps_execStkAndi c w s h
  | .stkOri c w => keeps_execStkOri c w s h
  | .stkCmpi c w => keeps_execStkCmpi c w s h
  | .stkPinset c w => keeps_execStkPinset c w s h
  | .phyEngineZq c w m => keeps_execPhyEngineZq c w m s h
  | .phyDutyTrim c w m => keeps_execPhyDutyTrim c w m s h
  | .phyLoadReadDelays c w => keeps_execPhyLoadReadDelays c w s h
  | .phyLoadWriteDelays c w => keeps_execPhyLoadWriteDelays c w s h
  | .phyRateChange c w => keeps_execPhyRateChange c w s h
  | .stkReport c w => keeps_execStkReport c w s h
  | .stkEnd c w => keeps_execStkEnd c w s h
  | .stokerWatchdog c => keeps_execStokerWatchdog c s h
  | .operationEnd => keeps_execOperationEnd s h
  | .stallPoll k b => keeps_execStallPoll k b s h
  | .wprotReissue k => keeps_execWprotReissue k s h
  | .pageRead k => keeps_execPageRead k s h
  | .mpRead k => keeps_execMpRead k s h
  | .cacheRead k => keeps_execCacheRead k s h
  | .colRead k => keeps_execColRead k s h
  | .prog k => keeps_execProg k s h
  | .mpProg k => keeps_execMpProg k s h
  | .cacheProg k => keeps_execCacheProg k s h
  | .slcProg k => keeps_execSlcProg k s h
  | .sealProg k => keeps_execSealProg k s h
  | .erase k => keeps_execErase k s h
  | .mpErase k => keeps_execMpErase k s h
  | .eraseResume k => keeps_execEraseResume k s h
  | .otpRead k => keeps_execOtpRead k s h
  | .otpProg k => keeps_execOtpProg k s h
  | .getFeat k => keeps_execGetFeat k s h
  | .setFeat k => keeps_execSetFeat k s h
  | .eraseSuspendRequest k => keeps_execEraseSuspendRequest k s h
  | .suspendWindowExpiry k => keeps_execSuspendWindowExpiry k s h
  | .codewordReady c slot => keeps_execCodewordReady c slot s h
  | .hardDecodeDone c slot u dec => keeps_execHardDecodeDone c slot u dec s h
  | .softDecodeDone id u dec => keeps_execSoftDecodeDone id u dec s h
  | .crystallizerMemoryError soft u => keeps_execCrystallizerMemoryError soft u s h
  | .partnerReadDone pid => keeps_execPartnerReadDone pid s h
  | .harvestWrite ring => keeps_execHarvestWrite ring s h
  | .moderationTimer ring => keeps_execModerationTimer ring s h
  | .harvestLookahead ring => keeps_execHarvestLookahead ring s h
  | .hrvDoorbell r ring w => keeps_execHrvDoorbell r ring w s h
  | .hrvRetry r ring w => keeps_execHrvRetry r ring w s h
  | .hrvModWrite r ring w cmd => keeps_execHrvModWrite r ring w cmd s h
  | .sluiceEnable r n w => keeps_execSluiceEnable r n w s h
  | .sluiceDisable r n w => keeps_execSluiceDisable r n w s h
  | .slqHeadWrite r n w => keeps_execSlqHeadWrite r n w s h
  | .slqHaltWrite r w => keeps_execSlqHaltWrite r w s h
  | .flueDoorbell r f w => keeps_execFlueDoorbell r f w s h
  | .flueFetch f => keeps_execFlueFetch f s h
  | .slqCreate f => keeps_execSlqCreate f s h
  | .slqDestroy f => keeps_execSlqDestroy f s h
  | .hrvCreate f => keeps_execHrvCreate f s h
  | .hrvDestroy f => keeps_execHrvDestroy f s h
  | .slqModify f => keeps_execSlqModify f s h
  | .hrvModify f => keeps_execHrvModify f s h
  | .setHalt f => keeps_execSetHalt f s h
  | .mirrorDrop f => keeps_execMirrorDrop f s h
  | .flueCfg f => keeps_execFlueCfg f s h
  | .lunOpOtpRead f => keeps_execLunOpOtpRead f s h
  | .lunOpOtpProg f => keeps_execLunOpOtpProg f s h
  | .lunOpGetFeat f => keeps_execLunOpGetFeat f s h
  | .lunOpSetFeat f => keeps_execLunOpSetFeat f s h
  | .moverJobStart m c => keeps_execMoverJobStart m c s h
  | .moverRequestSlot port => keeps_execMoverRequestSlot port s h
  | .belMove m c => keeps_execBelMove m c s h
  | .belGather m c => keeps_execBelGather m c s h
  | .belLoop m c => keeps_execBelLoop m c s h
  | .belWaitResp m c => keeps_execBelWaitResp m c s h
  | .belWaitFlag m c => keeps_execBelWaitFlag m c s h
  | .belWaitTime m c => keeps_execBelWaitTime m c s h
  | .belWaitTimeout m c => keeps_execBelWaitTimeout m c s h
  | .belSignalPosted m c => keeps_execBelSignalPosted m c s h
  | .belSignalSealed m c => keeps_execBelSignalSealed m c s h
  | .belSignalAtomic m c => keeps_execBelSignalAtomic m c s h
  | .belSignalSrc m c => keeps_execBelSignalSrc m c s h
  | .belSignalFlag m c => keeps_execBelSignalFlag m c s h
  | .belPauseWrite r m w => keeps_execBelPauseWrite r m w s h
  | .belDisable r m w => keeps_execBelDisable r m w s h
  | .belGo r m w => keeps_execBelGo r m w s h
  | .destageStart slot => keeps_execDestageStart slot s h
  | .programTokenGrant set => keeps_execProgramTokenGrant set s h
  | .padRow set => keeps_execPadRow set s h
  | .journalPageProgram k => keeps_execJournalPageProgram k s h
  | .checkpointStart => keeps_execCheckpointStart s h
  | .checkpointCommit => keeps_execCheckpointCommit s h
  | .overlayMerge mt => keeps_execOverlayMerge mt s h
  | .mapCcDisable r w => keeps_execMapCcDisable r w s h
  | .mapCcEnable r w => keeps_execMapCcEnable r w s h
  | .writebackRetry line => keeps_execWritebackRetry line s h
  | .mapRepair line ok => keeps_execMapRepair line ok s h
  | .relocation lta e => keeps_execRelocation lta e s h
  | .reclaim set => keeps_execReclaim set s h
  | .rakePatrol => keeps_execRakePatrol s h
  | .rakeRefresh => keeps_execRakeRefresh s h
  | .hotWindow => keeps_execHotWindow s h
  | .lunOffline => keeps_execLunOffline s h
  | .rebuildGroupDone => keeps_execRebuildGroupDone s h
  | .rawCtlEnable r c w => keeps_execRawCtlEnable r c w s h
  | .rawCtlDisable r c w => keeps_execRawCtlDisable r c w s h
  | .rawCommandWrite r c ofs en => keeps_execRawCommandWrite r c ofs en s h
  | .rawAddressWrite r c ofs en => keeps_execRawAddressWrite r c ofs en s h
  | .rawDataWrite r c ofs en => keeps_execRawDataWrite r c ofs en s h
  | .rawDataRead r c ofs len => keeps_execRawDataRead r c ofs len s h
  | .rawStatusRead r c ofs len => keeps_execRawStatusRead r c ofs len s h
  | .rawReadTimeout c => keeps_execRawReadTimeout c s h
  | .patchRamRead r c ofs beats => keeps_execPatchRamRead r c ofs beats s h
  | .patchRamWrite r c => keeps_execPatchRamWrite r c s h
  | .stkDbgHalt r c w => keeps_execStkDbgHalt r c w s h
  | .stkDbgStep r c w u din m => keeps_execStkDbgStep r c w u din m s h
  | .kxReqWrite r c t w => keeps_execKxReqWrite r c t w s h
  | .kxEntry c t x => keeps_execKxEntry c t x s h
  | .kxExit c t => keeps_execKxExit c t s h
  | .tsetWrite r c t w => keeps_execTsetWrite r c t w s h
  | .trackingEval c edges => keeps_execTrackingEval c edges s h
  | .calTempSample => keeps_execCalTempSample s h
  | .calReqGo r w => keeps_execCalReqGo r w s h
  | .calRunStart c => keeps_execCalRunStart c s h
  | .calRunEnd c m => keeps_execCalRunEnd c m s h
  | .mediaStep k => keeps_execMediaStep k s h
  | .ledgerWrite k => keeps_execLedgerWrite k s h
  | .calWalkStep c => keeps_execCalWalkStep c s h
  | .calSweepDeadline n => keeps_execCalSweepDeadline n s h
  | .senseFrame src v par => keeps_execSenseFrame src v par s h
  | .sourceStale n => keeps_execSourceStale n s h
  | .staleReport n => keeps_execStaleReport n s h
  | .sampleTick => keeps_execSampleTick s h
  | .admissionTakeEffect => keeps_execAdmissionTakeEffect s h
  | .ceilingEvaluation => keeps_execCeilingEvaluation s h
  | .loopEnable r n w => keeps_execLoopEnable r n w s h
  | .loopDisable r n w => keeps_execLoopDisable r n w s h
  | .loopFreezeWrite r n w => keeps_execLoopFreezeWrite r n w s h
  | .ceilEnWrite r w => keeps_execCeilEnWrite r w s h
  | .bwMaxWrite r w => keeps_execBwMaxWrite r w s h
  | .gradeTile g => keeps_execGradeTile g s h
  | .graderMemoryError g => keeps_execGraderMemoryError g s h
  | .grdLdu g k => keeps_execGrdLdu g k s h
  | .grdLds g k => keeps_execGrdLds g k s h
  | .grdLdi g k => keeps_execGrdLdi g k s h
  | .grdAdd g k => keeps_execGrdAdd g k s h
  | .grdSub g k => keeps_execGrdSub g k s h
  | .grdMul g k => keeps_execGrdMul g k s h
  | .grdDiv g k => keeps_execGrdDiv g k s h
  | .grdRem g k => keeps_execGrdRem g k s h
  | .grdDivu g k => keeps_execGrdDivu g k s h
  | .grdRemu g k => keeps_execGrdRemu g k s h
  | .grdNeg g k => keeps_execGrdNeg g k s h
  | .grdAbs g k => keeps_execGrdAbs g k s h
  | .grdAnd g k => keeps_execGrdAnd g k s h
  | .grdOr g k => keeps_execGrdOr g k s h
  | .grdXor g k => keeps_execGrdXor g k s h
  | .grdShl g k => keeps_execGrdShl g k s h
  | .grdShr g k => keeps_execGrdShr g k s h
  | .grdSar g k => keeps_execGrdSar g k s h
  | .grdMin g k => keeps_execGrdMin g k s h
  | .grdMax g k => keeps_execGrdMax g k s h
  | .grdAdds g k => keeps_execGrdAdds g k s h
  | .grdSubs g k => keeps_execGrdSubs g k s h
  | .grdMuls g k => keeps_execGrdMuls g k s h
  | .grdMulq g k => keeps_execGrdMulq g k s h
  | .grdSeq g k => keeps_execGrdSeq g k s h
  | .grdSne g k => keeps_execGrdSne g k s h
  | .grdSlt g k => keeps_execGrdSlt g k s h
  | .grdSle g k => keeps_execGrdSle g k s h
  | .grdSltu g k => keeps_execGrdSltu g k s h
  | .grdSleu g k => keeps_execGrdSleu g k s h
  | .grdBz g k => keeps_execGrdBz g k s h
  | .grdBnz g k => keeps_execGrdBnz g k s h
  | .grdAccept g k => keeps_execGrdAccept g k s h
  | .grdReject g k => keeps_execGrdReject g k s h
  | .grdAcceptf g k => keeps_execGrdAcceptf g k s h
  | .grdPdataHiWrite r w => keeps_execGrdPdataHiWrite r w s h
  | .grdPdescValidWrite r p w => keeps_execGrdPdescValidWrite r p w s h
  | .grdFmtValidWrite r n w => keeps_execGrdFmtValidWrite r n w s h
  | .sourceEdge src => keeps_execSourceEdge src s h
  | .sicClaim r t => keeps_execSicClaim r t s h
  | .sicEoi r t w => keeps_execSicEoi r t w s h
  | .sicSwi r w => keeps_execSicSwi r w s h
  | .sicBaseWrite r t w => keeps_execSicBaseWrite r t w s h
  | .sicRouteWrite r n w => keeps_execSicRouteWrite r n w s h
  | .sicPendingWrite r ofs w hw => keeps_execSicPendingWrite r ofs w hw s h
  | .lockAcquire r n w => keeps_execLockAcquire r n w s h
  | .lockRelease r n w => keeps_execLockRelease r n w s h
  | .leaseExpiry n => keeps_execLeaseExpiry n s h
  | .lckOwnerRst r w => keeps_execLckOwnerRst r w s h
  | .brokenClear r n w again => keeps_execBrokenClear r n w again s h
  | .unwrapNs r w => keeps_execUnwrapNs r w s h
  | .genNs r w rnd => keeps_execGenNs r w rnd s h
  | .kzero r w => keeps_execKzero r w s h
  | .wrapNs r w => keeps_execWrapNs r w s h
  | .wrapPair r w => keeps_execWrapPair r w s h
  | .progRoot r w stuck => keeps_execProgRoot r w stuck s h
  | .progDbg r w stuck => keeps_execProgDbg r w stuck s h
  | .nsCtlWrite r n w => keeps_execNsCtlWrite r n w s h
  | .selftestRunWrite r w ok => keeps_execSelftestRunWrite r w ok s h
  | .periodicSelftest ok => keeps_execPeriodicSelftest ok s h
  | .rbgHealthFail samples => keeps_execRbgHealthFail samples s h
  | .lockstepMismatch => keeps_execLockstepMismatch s h
  | .zeroize r w => keeps_execZeroize r w s h
  | .sanitizeStart r w => keeps_execSanitizeStart r w s h
  | .sanitizePhaseEnd burnt => keeps_execSanitizePhaseEnd burnt s h
  | .lifecycleTransition r w => keeps_execLifecycleTransition r w s h
  | .tamperSet r w => keeps_execTamperSet r w s h
  | .dbgNewchal r w rnd => keeps_execDbgNewchal r w rnd s h
  | .challengeExpiry => keeps_execChallengeExpiry s h
  | .dbgVerify r w rnd => keeps_execDbgVerify r w rnd s h
  | .dbgClose r w rnd => keeps_execDbgClose r w rnd s h
  | .dbgOpen r w rnd => keeps_execDbgOpen r w rnd s h
  | .dbgFbxHalt r w pc => keeps_execDbgFbxHalt r w pc s h
  | .dbgFbxStep r w pc => keeps_execDbgFbxStep r w pc s h
  | .tripLatch trip width held => keeps_execTripLatch trip width held s h
  | .tripAct => keeps_execTripAct s h
  | .flushStart mirs => keeps_execFlushStart mirs s h
  | .flushComplete => keeps_execFlushComplete s h
  | .tripClear low fall => keeps_execTripClear low fall s h
  | .emberWriteEffect => keeps_execEmberWriteEffect s h
  | .p1Entry => keeps_execP1Entry s h
  | .p2Request r w mirs => keeps_execP2Request r w mirs s h
  | .p3Request r w mirs => keeps_execP3Request r w mirs s h
  | .entryMessage => keeps_execEntryMessage s h
  | .wakeAlarm => keeps_execWakeAlarm s h
  | .wakePlatform => keeps_execWakePlatform s h
  | .powerGoodTimeout => keeps_execPowerGoodTimeout s h
  | .wakeFromP2 pass => keeps_execWakeFromP2 pass s h
  | .wakeFromP3 rowOk => keeps_execWakeFromP3 rowOk s h
  | .dramIdleOkRise => keeps_execDramIdleOkRise s h
  | .watchdogKick r w => keeps_execWatchdogKick r w s h
  | .watchdogExpiry n => keeps_execWatchdogExpiry n s h
  | .memoryError e => keeps_execMemoryError e s h
  | .deadlockBreak waits holds => keeps_execDeadlockBreak waits holds s h
  | .bankRequest r w => keeps_execBankRequest r w s h
  | .bankedEntry => keeps_execBankedEntry s h
  | .bankedPins c => keeps_execBankedPins c s h
  | .logMirrorCopy => keeps_execLogMirrorCopy s h
  | .fireboxCodeViewRead r ofs beats => keeps_execFireboxCodeViewRead r ofs beats s h
  | .fireboxCodeViewWrite r => keeps_execFireboxCodeViewWrite r s h
  | .inboundReadRefused r ofs => keeps_execInboundReadRefused r ofs s h

/-- The invariant is what is kept beside the part and the queue. -/
theorem kept_of_inv {s : State} (h : Inv s) : Kept s.part s.pending s := ⟨rfl, rfl, h⟩

theorem Kept.inv {pt : Part} {qu : List Instr} {s : State} (h : Kept pt qu s) : Inv s := h.2.2

/-- Settles O57: the step is an idle step or runs the command at the front of the queue, and each keeps the invariant. -/
theorem stepKeepsInv : Obligations.StepKeepsInv := by
  intro s t hs ht
  unfold step at ht
  split at ht
  · cases ht
    exact (keeps_idle s (kept_of_inv hs)).inv
  · rename_i c rest _
    have h := keeps_exec c { s with pending := rest } (kept_of_inv (s := { s with pending := rest }) hs)
    rw [ht] at h
    exact Kept.inv h

end Sys2Proof.Machine
end

section
/-! PROOFS. The machine as a whole: the front of the queue, the idle step, and the state after reset. -/

namespace Sys2Proof.Machine

/-! ## The idle step -/

theorem Tab.find_map_value {α β : Type} (f : Nat → α → β) (k : Nat) (t : Tab α) :
    Tab.find k (t.map fun e => (e.1, f e.1 e.2)) = (Tab.find k t).map (f k) := by
  induction t with
  | nil => rfl
  | cons e r ih =>
    obtain ⟨a, v⟩ := e
    by_cases h : a = k
    · subst h
      simp [Tab.find]
    · simp [Tab.find, h, ih]

/-- Growing older moves no queue, no operation and no erase. -/
theorem ageLun_keeps (s : State) (k : Nat) (l : LunSt) :
    (ageLun s k l).queue = l.queue ∧ (ageLun s k l).op = l.op ∧ (ageLun s k l).er = l.er ∧ (ageLun s k l).stall = l.stall ∧ (ageLun s k l).wprot = l.wprot := by
  unfold ageLun
  cases class3Head l with
  | none => simp
  | some w => by_cases h : l.head3 = some w <;> simp [h]

theorem lun_ageTick (s : State) (k : Nat) :
    ((ageTick s).lun k).queue = (s.lun k).queue ∧ ((ageTick s).lun k).op = (s.lun k).op ∧ ((ageTick s).lun k).er = (s.lun k).er := by
  have hfind : Tab.find k (ageTick s).md.luns = (Tab.find k s.md.luns).map (ageLun s k) := Tab.find_map_value _ k _
  simp only [State.lun, Tab.get, hfind]
  cases Tab.find k s.md.luns with
  | none => exact ⟨rfl, rfl, rfl⟩
  | some l =>
    obtain ⟨hq, ho, he, -⟩ := ageLun_keeps s k l
    exact ⟨hq, ho, he⟩

/-- The conditions of P1 do not hang on ages. -/
theorem p1Quiet_ageTick (s : State) : p1Quiet (ageTick s) = p1Quiet s := by
  have h : arrayQuiet (ageTick s) = arrayQuiet s := by
    have hl (e : Nat × LunSt) := ageLun_keeps s e.1 e.2
    simp [arrayQuiet, ageTick, List.all_map, Function.comp_def, hl]
  unfold p1Quiet
  rw [h]
  rfl

/-- What an idle step leaves while the core island runs. -/
theorem idle_on {s : State} (h : s.coreOn = true) : idle s =
    { s with
      time := s.time + 1
      xspi := xspiTick s.xspi
      md := { s.md with lfsr := lfsrStep s.md.lfsr, luns := (ageTick s).md.luns }
      fab := { s.fab with busyAt := if s.fab.outst.isEmpty && s.fab.waiting.isEmpty && s.fab.held.isEmpty then s.fab.busyAt else s.now + 1 }
      pwr := emberTick { s.pwr with idleFrom := if s.stage == 9 && p1Quiet s then s.pwr.idleFrom else s.now + 1 } } := by
  have hq : (quietTick (ageTick s)).coreOn = true := h
  rw [idle, if_pos h, coreTick, if_pos hq, quietTick, p1Quiet_ageTick]
  rfl

/-- What an idle step leaves while the core island is off. -/
theorem idle_off {s : State} (h : s.coreOn = false) : idle s = { s with pwr := emberTick s.pwr } := by
  have hn : ¬ s.coreOn = true := by simp [h]
  simp [idle, coreTick, hn]

/-- The ember counter stands in the ember reset and without its clock. -/
theorem emberTick_stopped {p : Pwr} (h : p.emberDown = true ∨ p.embLost = true) : emberTick p = p := by
  unfold emberTick
  rw [if_pos]
  simpa using h

theorem emberTick_eq (p : Pwr) : ∃ e f, emberTick p = { p with ember := e, emberFrac := f } := by
  unfold emberTick
  split
  · exact ⟨p.ember, p.emberFrac, rfl⟩
  · split
    · exact ⟨p.ember + 1, p.emberFrac + 32768 - 1000000000, rfl⟩
    · exact ⟨p.ember, p.emberFrac + 32768, rfl⟩

/-- The ember counter counts 32,768 parts of 1,000,000,000 per nanosecond, the fraction carried into its next tick. -/
theorem emberTick_counts {p : Pwr} (hd : p.emberDown = false) (hl : p.embLost = false) (hf : p.emberFrac < 1000000000) :
    (emberTick p).emberFrac < 1000000000 ∧
      ((emberTick p).ember.toNat * 1000000000 + (emberTick p).emberFrac) % (2 ^ 48 * 1000000000)
        = (p.ember.toNat * 1000000000 + p.emberFrac + 32768) % (2 ^ 48 * 1000000000) := by
  unfold emberTick
  rw [if_neg (by simp [hd, hl])]
  by_cases hc : 1000000000 ≤ p.emberFrac + 32768
  · rw [if_pos hc]
    refine ⟨by show _ - _ < _; omega, ?_⟩
    show ((p.ember + 1).toNat * 1000000000 + (p.emberFrac + 32768 - 1000000000)) % _ = _
    have hadd : (p.ember + 1).toNat = (p.ember.toNat + 1) % 2 ^ 48 := BitVec.toNat_add _ _
    have hlt : p.ember.toNat < 2 ^ 48 := p.ember.isLt
    omega
  · rw [if_neg hc]
    exact ⟨by show _ + _ < _; omega, by rw [Nat.add_assoc]⟩

/-! ## The obligations -/

/-- Settles O56: the step by the queue, and the idle step by whether the core island runs. -/
theorem stepTakesFront : Obligations.StepTakesFront := by
  intro s
  refine ⟨fun c q h => by simp [step, h], fun h => ⟨idle s, by simp [step, h], ?_⟩⟩
  have hember (p : Pwr) (hd : p.emberDown = s.pwr.emberDown) (hl : p.embLost = s.pwr.embLost) (he : p.ember = s.pwr.ember) (hf : p.emberFrac = s.pwr.emberFrac) :
      (s.pwr.emberDown = true ∨ s.pwr.embLost = true → (emberTick p).ember = s.pwr.ember ∧ (emberTick p).emberFrac = s.pwr.emberFrac) ∧
      (s.pwr.emberDown = false → s.pwr.embLost = false → s.pwr.emberFrac < 1000000000 → (emberTick p).emberFrac < 1000000000 ∧
        ((emberTick p).ember.toNat * 1000000000 + (emberTick p).emberFrac) % (2 ^ 48 * 1000000000)
          = (s.pwr.ember.toNat * 1000000000 + s.pwr.emberFrac + 32768) % (2 ^ 48 * 1000000000)) := by
    rw [← hd, ← hl, ← he, ← hf]
    exact ⟨fun hs => by simp [emberTick_stopped hs], emberTick_counts⟩
  by_cases hon : s.coreOn = true
  · have hi := idle_on hon
    refine ⟨?_, fun _ => ⟨by rw [hi], by rw [hi]; rfl, by rw [hi], ?_, ?_, ?_⟩, by simp [hon], ?_⟩
    · obtain ⟨e, f, h⟩ := emberTick_eq { s.pwr with idleFrom := if s.stage == 9 && p1Quiet s then s.pwr.idleFrom else s.now + 1 }
      rw [hi, h]
      rfl
    · intro k
      rw [hi]
      exact lun_ageTick s k
    · obtain ⟨e, f, h⟩ := emberTick_eq { s.pwr with idleFrom := if s.stage == 9 && p1Quiet s then s.pwr.idleFrom else s.now + 1 }
      rw [hi, h]
      simp
    · rw [hi]
      simp [and_assoc]
    · rw [hi]
      exact hember _ rfl rfl rfl rfl
  · have hoff : s.coreOn = false := by simpa using hon
    obtain ⟨e, f, h⟩ := emberTick_eq s.pwr
    rw [idle_off hoff]
    exact ⟨by rw [h], by simp [hoff], fun _ => ⟨rfl, rfl, rfl, rfl, by rw [h]⟩, hember _ rfl rfl rfl rfl⟩

/-- Settles O58: every table of the state after reset is empty. -/
theorem resetHasInv : Obligations.ResetHasInv := ⟨⟨rfl, by simp [State.reset]⟩, by simp [State.reset], by simp [State.reset]⟩

/-- Settles O60: no register is listed after reset, so each reads as its reset word. -/
theorem resetValues : Obligations.ResetValues := by
  have hreg (k : RegKind) (i : Nat) : State.reset.reg k i = regReset k i := rfl
  refine ⟨by decide, rfl, rfl, rfl, rfl, by decide, by decide, rfl, rfl, rfl, rfl, rfl, by decide, hreg,
    by decide, by decide, by decide, by decide, by decide, by decide, by decide, by decide, by decide, fun c _ => ?_⟩
  exact (by decide : Fld.stkTgtcfgKxTset.get (RegKind.resetWord .stkTgtcfg) = 15)

end Sys2Proof.Machine
end

section
/-! SUPPORT. Registers and fields through the state's operations: what a count, a flag, a log entry and an edge leave of the other fields, and which
registers hang on the register table alone. -/

namespace Sys2Proof.Machine

/-! ## Fields after a field is written -/

theorem State.flag_put_kind (s : State) {f g : Fld} (h : f.kind ≠ g.kind) (v i l : Nat) : (s.put g v i).flag f l = s.flag f l := by
  simp [State.flag, s.get_put_kind h]

theorem State.reg_put_kind (s : State) {g : Fld} {k : RegKind} (h : k ≠ g.kind) (v i l : Nat) : (s.put g v i).reg k l = s.reg k l :=
  s.reg_setReg_kind h _ _ _

theorem State.reg_putFlag_kind (s : State) {g : Fld} {k : RegKind} (h : k ≠ g.kind) (b : Bool) (i l : Nat) : (s.putFlag g b i).reg k l = s.reg k l :=
  s.reg_put_kind h _ _ _

theorem State.get_putFlag_kind (s : State) {f g : Fld} (h : f.kind ≠ g.kind) (b : Bool) (i l : Nat) : (s.putFlag g b i).get f l = s.get f l :=
  s.get_put_kind h _ _ _

theorem State.get_putFlag_field (s : State) {f g : Fld} (h : f.hi < g.lo ∨ g.hi < f.lo) (hf : f.hi < 32) (b : Bool) (i l : Nat) :
    (s.putFlag g b i).get f l = s.get f l := s.get_put_field h hf _ _ _

theorem State.flag_putFlag_kind (s : State) {f g : Fld} (h : f.kind ≠ g.kind) (b : Bool) (i l : Nat) : (s.putFlag g b i).flag f l = s.flag f l :=
  s.flag_put_kind h _ _ _

theorem State.flag_putFlag_field (s : State) {f g : Fld} (h : f.hi < g.lo ∨ g.hi < f.lo) (hf : f.hi < 32) (b : Bool) (i l : Nat) :
    (s.putFlag g b i).flag f l = s.flag f l := s.flag_put_field h hf _ _ _

theorem otherRegs_putFlag (s : State) (f : Fld) (b : Bool) (i : Nat) : OtherRegs s (s.putFlag f b i) f.kind i := otherRegs_put s f _ i

/-! ## Counts -/

theorem State.reg_inc_kind (s : State) {g : Fld} {k : RegKind} (h : k ≠ g.kind) (i n l : Nat) : (s.inc g i n).reg k l = s.reg k l :=
  s.reg_put_kind h _ _ _

theorem State.get_inc_kind (s : State) {f g : Fld} (h : f.kind ≠ g.kind) (i n l : Nat) : (s.inc g i n).get f l = s.get f l :=
  s.get_put_kind h _ _ _

theorem State.get_inc_field (s : State) {f g : Fld} (h : f.hi < g.lo ∨ g.hi < f.lo) (hf : f.hi < 32) (i n l : Nat) : (s.inc g i n).get f l = s.get f l :=
  s.get_put_field h hf _ _ _

theorem State.flag_inc_kind (s : State) {f g : Fld} (h : f.kind ≠ g.kind) (i n l : Nat) : (s.inc g i n).flag f l = s.flag f l :=
  s.flag_put_kind h _ _ _

theorem State.flag_inc_field (s : State) {f g : Fld} (h : f.hi < g.lo ∨ g.hi < f.lo) (hf : f.hi < 32) (i n l : Nat) : (s.inc g i n).flag f l = s.flag f l :=
  s.flag_put_field h hf _ _ _

/-! ## Log entries -/

theorem State.reg_logEntry (s : State) {k : RegKind} (h : k ≠ .glbLogSeq) (u c : Nat) (o v : BitVec 64) (rest : List Byte) (i : Nat) :
    (s.logEntry u c o v rest).reg k i = s.reg k i := s.reg_setReg_kind h _ _ _

theorem State.reg_logPacked (s : State) {k : RegKind} (h : k ≠ .glbLogSeq) (u c : Nat) (o v : List (Nat × Nat)) (i : Nat) :
    (s.logPacked u c o v).reg k i = s.reg k i := s.reg_setReg_kind h _ _ _

theorem State.get_logPacked (s : State) {f : Fld} (h : f.kind ≠ .glbLogSeq) (u c : Nat) (o v : List (Nat × Nat)) (i : Nat) :
    (s.logPacked u c o v).get f i = s.get f i := congrArg f.get (s.reg_logPacked h u c o v i)

theorem State.flag_logPacked (s : State) {f : Fld} (h : f.kind ≠ .glbLogSeq) (u c : Nat) (o v : List (Nat × Nat)) (i : Nat) :
    (s.logPacked u c o v).flag f i = s.flag f i := by
  simp [State.flag, s.get_logPacked h]

theorem State.bit_logPacked (s : State) {k : RegKind} (h : k ≠ .glbLogSeq) (u c : Nat) (o v : List (Nat × Nat)) (i b : Nat) :
    (s.logPacked u c o v).bit k i b = s.bit k i b := by
  simp [State.bit, s.reg_logPacked h]

theorem head_logPacked (s : State) (u c : Nat) (o v : List (Nat × Nat)) : ((s.logPacked u c o v).log.head?.map fun e => (e.unit, e.code)) = some (u, c) := rfl

/-! ## Fields after a software write -/

/-- The bits of a field, read one by one. -/
theorem Fld.get_congr (f : Fld) {a b : Word} (h : ∀ i < 32, f.mask.getLsbD i = true → a.getLsbD i = b.getLsbD i) (hf : f.hi < 32) : f.get a = f.get b := by
  apply Nat.eq_of_testBit_eq
  intro j
  rw [Fld.testBit_get, Fld.testBit_get]
  by_cases hj : j < f.hi + 1 - f.lo
  · rw [h (f.lo + j) (by omega)]
    rw [f.getLsbD_mask _ (by omega), decide_eq_true_iff]
    omega
  · simp [hj]

theorem getLsbD_of_and_mask {m x f : Word} (h : m &&& f = x) {i : Nat} (hf : f.getLsbD i = true) : m.getLsbD i = x.getLsbD i := by
  rw [← h, BitVec.getLsbD_and, hf, Bool.and_true]

/-- A field that software cannot write keeps its value (R4). -/
theorem Fld.get_writeWord_ro (f : Fld) (k : RegKind) (hf : f.hi < 32) (hrw : k.maskOf .rw &&& f.mask = 0) (hw1c : k.maskOf .w1c &&& f.mask = 0)
    (hw1s : k.maskOf .w1s &&& f.mask = 0) (old w : Word) : f.get (writeWord k old w) = f.get old := by
  refine f.get_congr (fun i hi hm => ?_) hf
  simp only [writeWord, BitVec.getLsbD_or, BitVec.getLsbD_and, BitVec.getLsbD_not, getLsbD_of_and_mask hrw hm, getLsbD_of_and_mask hw1c hm,
    getLsbD_of_and_mask hw1s hm, hi]
  simp

/-- A field whose bits a 1 clears keeps the bits where the value has 0 (R4). -/
theorem Fld.get_writeWord_w1c (f : Fld) (k : RegKind) (hf : f.hi < 32) (hrw : k.maskOf .rw &&& f.mask = 0) (hw1c : k.maskOf .w1c &&& f.mask = f.mask)
    (hw1s : k.maskOf .w1s &&& f.mask = 0) (old w : Word) : f.get (writeWord k old w) = f.get (old &&& ~~~w) := by
  refine f.get_congr (fun i hi hm => ?_) hf
  simp only [writeWord, BitVec.getLsbD_or, BitVec.getLsbD_and, BitVec.getLsbD_not, getLsbD_of_and_mask hrw hm, getLsbD_of_and_mask hw1c hm,
    getLsbD_of_and_mask hw1s hm, hi, hm]
  simp

/-- A one-bit field as its bit. -/
theorem Fld.get_eq_bit (f : Fld) (h : f.hi = f.lo) (w : Word) : f.get w = (w.getLsbD f.lo).toNat := by
  have hw : f.hi + 1 - f.lo = 1 := by omega
  rw [Fld.get, hw, BitVec.getLsbD, Nat.testBit_eq_decide_div_mod_eq, BitVec.toNat_ushiftRight, Nat.shiftRight_eq_div_pow]
  have hlt : w.toNat / 2 ^ f.lo % 2 < 2 := Nat.mod_lt _ (by decide)
  by_cases h1 : w.toNat / 2 ^ f.lo % 2 = 1
  · simp [h1]
  · have h0 : w.toNat / 2 ^ f.lo % 2 = 0 := by omega
    simp [h0]

theorem Fld.get_ne_zero (f : Fld) (h : f.hi = f.lo) (w : Word) : (f.get w != 0) = w.getLsbD f.lo := by
  rw [f.get_eq_bit h]
  cases w.getLsbD f.lo <;> rfl

/-- A flag as its bit. -/
theorem State.flag_eq_bit (s : State) (f : Fld) (h : f.hi = f.lo) (i : Nat) : s.flag f i = (s.reg f.kind i).getLsbD f.lo := f.get_ne_zero h _

theorem State.get_plainWrite_ro (s : State) (f : Fld) (hf : f.hi < 32) (hrw : f.kind.maskOf .rw &&& f.mask = 0)
    (hw1c : f.kind.maskOf .w1c &&& f.mask = 0) (hw1s : f.kind.maskOf .w1s &&& f.mask = 0) (i : Nat) (w : Word) :
    (s.plainWrite f.kind i w).get f i = s.get f i := by
  simp [State.get, State.plainWrite, f.get_writeWord_ro f.kind hf hrw hw1c hw1s]

/-- A write-1-to-clear flag clears where the value has a 1. -/
theorem State.flag_plainWrite_w1c (s : State) (f : Fld) (h : f.hi = f.lo) (hf : f.hi < 32) (hrw : f.kind.maskOf .rw &&& f.mask = 0)
    (hw1c : f.kind.maskOf .w1c &&& f.mask = f.mask) (hw1s : f.kind.maskOf .w1s &&& f.mask = 0) (i : Nat) (w : Word) :
    (s.plainWrite f.kind i w).flag f i = (s.flag f i && f.get w == 0) := by
  have hlo : f.lo < 32 := by omega
  simp only [State.flag, State.get, State.plainWrite, State.reg_setReg_same, f.get_writeWord_w1c f.kind hf hrw hw1c hw1s]
  rw [f.get_ne_zero h, f.get_ne_zero h, f.get_eq_bit h w, BitVec.getLsbD_and, BitVec.getLsbD_not]
  cases w.getLsbD f.lo <;> simp [hlo]

theorem State.flag_setReg_same (s : State) (f : Fld) (i : Nat) (w : Word) : (s.setReg f.kind i w).flag f i = (f.get w != 0) := by
  simp [State.flag, State.get]

theorem State.get_setReg_same (s : State) (f : Fld) (i : Nat) (w : Word) : (s.setReg f.kind i w).get f i = f.get w := by
  simp [State.get]

/-! ## Fields after a register is written -/

theorem State.get_setReg_kind (s : State) {f : Fld} {k : RegKind} (h : f.kind ≠ k) (i l : Nat) (w : Word) : (s.setReg k i w).get f l = s.get f l :=
  congrArg f.get (s.reg_setReg_kind h _ _ _)

theorem State.flag_setReg_kind (s : State) {f : Fld} {k : RegKind} (h : f.kind ≠ k) (i l : Nat) (w : Word) : (s.setReg k i w).flag f l = s.flag f l := by
  simp [State.flag, s.get_setReg_kind h]

/-! ## States with the same register table -/

theorem State.reg_of_regs {s t : State} (h : t.regs = s.regs) (k : RegKind) (i : Nat) : t.reg k i = s.reg k i := by rw [State.reg, h, State.reg]

theorem State.get_of_regs {s t : State} (h : t.regs = s.regs) (f : Fld) (i : Nat) : t.get f i = s.get f i := congrArg f.get (State.reg_of_regs h f.kind i)

theorem State.flag_of_regs {s t : State} (h : t.regs = s.regs) (f : Fld) (i : Nat) : t.flag f i = s.flag f i := by
  rw [State.flag, State.get_of_regs h, State.flag]

theorem State.bit_of_regs {s t : State} (h : t.regs = s.regs) (k : RegKind) (i b : Nat) : t.bit k i b = s.bit k i b := by
  rw [State.bit, State.reg_of_regs h, State.bit]

end Sys2Proof.Machine
end

section
/-! PROOFS. The instructions of a grader lane: arithmetic, shifts, saturation, comparisons, branches, terminators and loads (R505, R506, R519 to R521). -/

namespace Sys2Proof.Machine

/-! ## The arithmetic of the graders -/

/-- A result wrapped to 64 bits differs from the exact one where that lies outside MIN to MAX (R519). -/
theorem toInt_ofInt_ne_iff (x : Int) : (BitVec.ofInt 64 x).toInt ≠ x ↔ x < -(2 ^ 63) ∨ 2 ^ 63 ≤ x := by
  rw [BitVec.toInt_ofInt, Int.bmod_def]
  omega

theorem toInt_bounds (a : BitVec 64) : -(2 ^ 63) ≤ a.toInt ∧ a.toInt < 2 ^ 63 := ⟨BitVec.le_toInt a, BitVec.toInt_lt⟩

theorem aluWrap_eq (x : Int) : aluWrap 64 x = ⟨BitVec.ofInt 64 x, decide (x < -(2 ^ 63) ∨ 2 ^ 63 ≤ x), false⟩ := by
  simp only [aluWrap, toInt_ofInt_ne_iff]

/-- A result that fits is the exact one, without V. -/
theorem aluWrap_toInt (r : BitVec 64) : aluWrap 64 r.toInt = ⟨r, false, false⟩ := by
  have h := toInt_bounds r
  rw [aluWrap_eq, BitVec.ofInt_toInt]
  congr 1
  exact decide_eq_false (by omega)

theorem aluAdd_eq (a b : BitVec 64) : aluAdd a b = ⟨a + b, a.saddOverflow b, false⟩ := by
  rw [aluAdd, aluWrap_eq, BitVec.ofInt_add, BitVec.ofInt_toInt, BitVec.ofInt_toInt]
  congr 1
  rw [Bool.eq_iff_iff]
  simp [BitVec.saddOverflow]
  omega

theorem aluSub_eq (a b : BitVec 64) : aluSub a b = ⟨a - b, a.ssubOverflow b, false⟩ := by
  have hval : BitVec.ofInt 64 (a.toInt - b.toInt) = a - b := by
    apply BitVec.eq_of_toInt_eq
    rw [BitVec.toInt_ofInt, BitVec.toInt_sub]
  rw [aluSub, aluWrap_eq, hval]
  congr 1
  rw [Bool.eq_iff_iff]
  simp [BitVec.ssubOverflow]
  omega

theorem aluMul_eq (a b : BitVec 64) : aluMul a b = ⟨a * b, a.smulOverflow b, false⟩ := by
  rw [aluMul, aluWrap_eq, BitVec.ofInt_mul, BitVec.ofInt_toInt, BitVec.ofInt_toInt]
  congr 1
  rw [Bool.eq_iff_iff]
  simp [BitVec.smulOverflow]
  omega

theorem toInt_eq_min_iff (a : BitVec 64) : a.toInt = -(2 ^ 63) ↔ a = BitVec.intMin 64 := by
  have hmin : (BitVec.intMin 64).toInt = -(2 ^ 63) := by decide
  rw [← hmin, BitVec.toInt_inj]

theorem negOverflow_iff (a : BitVec 64) : a.negOverflow = true ↔ a.toInt = -(2 ^ 63) := by
  simp [BitVec.negOverflow]

theorem aluNeg_eq (a : BitVec 64) : aluNeg a = ⟨-a, a.negOverflow, false⟩ := by
  have hb := toInt_bounds a
  rw [aluNeg, aluWrap_eq, BitVec.ofInt_neg, BitVec.ofInt_toInt]
  congr 1
  rw [Bool.eq_iff_iff, negOverflow_iff, decide_eq_true_iff]
  omega

theorem aluAbs_eq (a : BitVec 64) : aluAbs a = ⟨a.abs, a.negOverflow, false⟩ := by
  have hb := toInt_bounds a
  have hval : BitVec.ofInt 64 (a.toInt.natAbs : Int) = a.abs := by
    rw [BitVec.abs, BitVec.msb_eq_toInt]
    by_cases h : a.toInt < 0
    · have habs : (a.toInt.natAbs : Int) = -a.toInt := by omega
      simp [h, habs, BitVec.ofInt_neg]
    · have habs : (a.toInt.natAbs : Int) = a.toInt := by omega
      simp [h, habs]
  rw [aluAbs, aluWrap_eq, hval]
  congr 1
  rw [Bool.eq_iff_iff, negOverflow_iff, decide_eq_true_iff]
  omega

/-- A quotient overflows for MIN by −1 alone (Table 13-4). -/
theorem aluDiv_of_ne {b : BitVec 64} (hb : b ≠ 0) (a : BitVec 64) :
    aluDiv a b = ⟨a.sdiv b, decide (a = BitVec.intMin 64 ∧ b = -1), false⟩ := by
  rw [aluDiv, if_neg hb]
  by_cases h : a = BitVec.intMin 64 ∧ b = -1
  · obtain ⟨rfl, rfl⟩ := h
    decide
  · rw [← BitVec.toInt_sdiv_of_ne_or_ne a b (by rw [← Decidable.not_and_iff_not_or_not]; exact h), aluWrap_toInt, decide_eq_false h]

theorem aluDiv_zero (a : BitVec 64) :
    aluDiv a 0 = ⟨if a = 0 then 0 else if a.msb then BitVec.intMin 64 else BitVec.intMax 64, false, true⟩ := by
  have hzero : a = 0 ↔ a.toInt = 0 := by rw [← BitVec.toInt_inj]; rfl
  simp only [aluDiv, if_true, BitVec.msb_eq_toInt, hzero, decide_eq_true_eq]
  congr 1
  rcases lt_trichotomy a.toInt 0 with h | h | h
  · rw [if_neg h.not_gt, if_pos h, if_neg h.ne, if_pos h]
    rfl
  · rw [if_neg h.not_gt, if_neg h.not_lt, if_pos h]
  · rw [if_pos h, if_neg h.ne', if_neg h.not_gt]
    rfl

theorem aluRem_eq (a b : BitVec 64) : aluRem a b = ⟨if b = 0 then a else a.srem b, false, decide (b = 0)⟩ := by
  by_cases h : b = 0
  · simp [aluRem, h]
  · rw [aluRem, if_neg h, ← BitVec.toInt_srem, aluWrap_toInt, if_neg h, decide_eq_false h]

theorem aluDivu_eq (a b : BitVec 64) : aluDivu a b = ⟨if b = 0 then BitVec.allOnes 64 else a / b, false, decide (b = 0)⟩ := by
  by_cases h : b = 0
  · simp [aluDivu, h]
  · have hval : BitVec.ofNat 64 (a.toNat / b.toNat) = a / b := by rw [← BitVec.toNat_udiv, BitVec.ofNat_toNat, BitVec.setWidth_eq]
    rw [aluDivu, if_neg h, if_neg h, hval, decide_eq_false h]

theorem aluRemu_eq (a b : BitVec 64) : aluRemu a b = ⟨if b = 0 then a else a % b, false, decide (b = 0)⟩ := by
  by_cases h : b = 0
  · simp [aluRemu, h]
  · have hval : BitVec.ofNat 64 (a.toNat % b.toNat) = a % b := by rw [← BitVec.toNat_umod, BitVec.ofNat_toNat, BitVec.setWidth_eq]
    rw [aluRemu, if_neg h, if_neg h, hval, decide_eq_false h]

/-- The low bits lost by a left shift and an arithmetic shift back show whether the exact product fits. -/
theorem shl_fits_iff (a : BitVec 64) {n : Nat} (hn : n < 64) :
    (BitVec.ofInt 64 (a.toInt * 2 ^ n)).toInt = a.toInt * 2 ^ n ↔ (a <<< n).sshiftRight n = a := by
  have hpow : (2 : Int) ^ 64 = 2 ^ n * 2 ^ (64 - n) := by rw [← pow_add]; congr 1; omega
  have hshl : a <<< n = BitVec.ofInt 64 (a.toInt * 2 ^ n) := by
    rw [BitVec.shiftLeft_eq_mul_twoPow, BitVec.ofInt_mul, BitVec.ofInt_toInt]
    congr 1
    apply BitVec.eq_of_toNat_eq
    simp [BitVec.toNat_twoPow, BitVec.toNat_ofInt]
    norm_cast
  have hpos : (0 : Int) < 2 ^ n := by positivity
  rw [hshl, ← BitVec.toInt_inj, BitVec.toInt_sshiftRight, Int.shiftRight_eq_div_pow]
  push_cast
  constructor
  · intro h
    rw [h, Int.mul_ediv_cancel _ (by omega)]
  · intro h
    have hdvd : (2 : Int) ^ n ∣ (BitVec.ofInt 64 (a.toInt * 2 ^ n)).toInt := by
      rw [BitVec.toInt_ofInt]
      have h64 : (2 : Int) ^ n ∣ ((2 ^ 64 : Nat) : Int) := by
        rw [Nat.cast_pow, Nat.cast_ofNat, hpow]
        exact Dvd.intro _ rfl
      have hmod : ((2 ^ 64 : Nat) : Int) ∣ (a.toInt * 2 ^ n).bmod (2 ^ 64) - a.toInt * 2 ^ n := Int.dvd_bmod_sub_self
      have h2 := (h64.trans hmod).add (Dvd.intro_left a.toInt rfl : (2 : Int) ^ n ∣ a.toInt * 2 ^ n)
      simpa using h2
    rw [← Int.ediv_mul_cancel hdvd, h]

theorem aluShl_eq (a b : BitVec 64) : aluShl a b =
    ⟨a <<< b.toNat, if 64 ≤ b.toNat then decide (a ≠ 0) else decide ((a <<< b.toNat).sshiftRight b.toNat ≠ a), false⟩ := by
  by_cases h : 64 ≤ b.toNat
  · simp [aluShl, h, BitVec.shiftLeft_eq_zero h]
  · rw [aluShl, if_neg h, if_neg h, aluWrap]
    have hfits := shl_fits_iff a (Nat.lt_of_not_le h)
    have hval : BitVec.ofInt 64 (a.toInt * 2 ^ b.toNat) = a <<< b.toNat := by
      rw [BitVec.shiftLeft_eq_mul_twoPow, BitVec.ofInt_mul, BitVec.ofInt_toInt]
      congr 1
      apply BitVec.eq_of_toNat_eq
      simp [BitVec.toNat_twoPow, BitVec.toNat_ofInt]
      norm_cast
    rw [hval] at hfits ⊢
    simp only [ne_eq, hfits]

theorem aluShr_eq (a b : BitVec 64) : aluShr a b = ⟨a >>> b.toNat, false, false⟩ := by
  by_cases h : 64 ≤ b.toNat
  · simp [aluShr, h, BitVec.ushiftRight_eq_zero h]
  · simp [aluShr, h]

theorem aluSar_eq (a b : BitVec 64) : aluSar a b = ⟨a.sshiftRight b.toNat, false, false⟩ := by
  by_cases h : 64 ≤ b.toNat
  · have hval : (if a.toInt < 0 then BitVec.allOnes 64 else 0) = a.sshiftRight b.toNat := by
      apply BitVec.eq_of_getLsbD_eq
      intro i hi
      have hge : ¬ b.toNat + i < 64 := by omega
      have hlt : ¬ 64 ≤ i := by omega
      rw [BitVec.getLsbD_sshiftRight]
      rw [if_neg hge, BitVec.msb_eq_toInt]
      by_cases hneg : a.toInt < 0
      · rw [if_pos hneg, BitVec.getLsbD_allOnes]
        simp [hneg, hlt, hi]
      · simp [hneg]
    rw [aluSar, if_pos h, hval]
  · simp [aluSar, h]

theorem aluSat_eq (y : Int) : aluSat 64 y =
    ⟨BitVec.ofInt 64 (max (-(2 ^ 63)) (min (2 ^ 63 - 1) y)), decide (y < -(2 ^ 63) ∨ 2 ^ 63 ≤ y), false⟩ := by
  unfold aluSat
  norm_num only
  by_cases hhi : (9223372036854775807 : Int) < y
  · have hmax : max (-9223372036854775808) (min 9223372036854775807 y) = 9223372036854775807 := by omega
    have hv : y < -9223372036854775808 ∨ 9223372036854775808 ≤ y := by omega
    simp [hhi, hmax, hv]
  · by_cases hlo : y < -9223372036854775808
    · have hmax : max (-9223372036854775808) (min 9223372036854775807 y) = -9223372036854775808 := by omega
      simp [hhi, hlo, hmax]
    · have hmax : max (-9223372036854775808) (min 9223372036854775807 y) = y := by omega
      have hv : ¬ (y < -9223372036854775808 ∨ 9223372036854775808 ≤ y) := by omega
      rw [if_neg hhi, if_neg hlo, hmax, decide_eq_false hv]

theorem aluMulq_eq (f : Nat) (a b : BitVec 64) : aluMulq f a b =
    ⟨BitVec.ofInt 64 (a.toInt * b.toInt / 2 ^ f), decide ((BitVec.ofInt 64 (a.toInt * b.toInt / 2 ^ f)).toInt ≠ a.toInt * b.toInt / 2 ^ f), false⟩ := by
  rw [aluMulq, Int.fdiv_eq_ediv_of_nonneg _ (by positivity)]
  rfl

/-! ## One instruction in a lane -/

/-- A lane whose next word has the operation code runs it; nothing but the lane changes (R516). -/
theorem grdStep_of_laneAt {s : State} {g k : Nat} {x : Grader} {q : Request} {t : Tile} {l : Lane} {w : BitVec 64}
    (h : LaneAt s g k x q t l w) {opc : Nat} (ho : gOpc w = opc) (f : BitVec 64 → Rec → Lane → Lane) :
    grdStep g k opc f s = .next (withLane s g k x (f w (laneRec q t l) l)) := by
  obtain ⟨hon, hx, hq, ht, hl, hw, hout, hskip⟩ := h
  simp [grdStep, hx, hq, ht, hl, hw, hon, ho, hout, hskip, withLane, laneRec]

theorem bne_eq_decide_ne (a b : BitVec 64) : (a != b) = decide (a ≠ b) := by
  rw [bne, beq_eq_decide, decide_not]

theorem Lane.set_eq (l : Lane) (w : BitVec 64) (a : Alu 64) : l.set w a = laneDone l w a.val a.v a.z := rfl

section
variable {s : State} {g k : Nat} {x : Grader} {q : Request} {t : Tile} {l : Lane} {w : BitVec 64}

/-- A lane after an operation on A and B, by what the operation answers. -/
theorem grdBin_of_laneAt (h : LaneAt s g k x q t l w) {opc : Nat} {f : BitVec 64 → BitVec 64 → Alu 64} {r : BitVec 64} {v z : Bool}
    (hf : f (gA w l.x) (gB w l.x) = ⟨r, v, z⟩) (ho : gOpc w = opc) :
    grdStep g k opc (grdBin f) s = .next (withLane s g k x (laneDone l w r v z)) := by
  rw [grdStep_of_laneAt h ho, grdBin, Lane.set_eq, hf]

/-- A lane after an operation on A. -/
theorem grdUn_of_laneAt (h : LaneAt s g k x q t l w) {opc : Nat} {f : BitVec 64 → Alu 64} {r : BitVec 64} {v z : Bool}
    (hf : f (gA w l.x) = ⟨r, v, z⟩) (ho : gOpc w = opc) :
    grdStep g k opc (grdUn f) s = .next (withLane s g k x (laneDone l w r v z)) := by
  rw [grdStep_of_laneAt h ho, grdUn, Lane.set_eq, hf]

/-- A comparison writes 1 or 0 and sets neither flag (R521). -/
theorem grdCmp_of_laneAt (h : LaneAt s g k x q t l w) {opc : Nat} {f : BitVec 64 → BitVec 64 → Bool} {c : Prop} [Decidable c]
    (hf : f (gA w l.x) (gB w l.x) = decide c) (ho : gOpc w = opc) :
    grdStep g k opc (grdBin fun a b => aluBool (f a b)) s = .next (withLane s g k x (laneDone l w (if c then 1 else 0) false false)) := by
  refine grdBin_of_laneAt h ?_ ho
  by_cases hc : c <;> simp [aluBool, hf, hc]

/-- A branch only moves the lane's program counter. -/
theorem grdBranch_of_laneAt (h : LaneAt s g k x q t l w) {opc : Nat} {f : BitVec 64 → Bool} {c : Prop} [Decidable c]
    (hf : f (gA w l.x) = decide c) (ho : gOpc w = opc) :
    grdStep g k opc (grdBranch f) s = .next (withLane s g k x { l with pc := if c then gTarget w else l.pc + 1 }) := by
  rw [grdStep_of_laneAt h ho, grdBranch, hf]
  simp

end

/-! ## Loads -/

/-- Bytes gathered from the most significant on: byte `i` of the value is the byte `i` from the end. -/
theorem byte_foldl (bs : List Byte) {i : Nat} (hi : i < 8) :
    ((bs.foldl (fun (a : BitVec 64) b => (a <<< 8) ||| b.setWidth 64) 0) >>> (8 * i)).setWidth 8 = (bs.reverse[i]?).getD 0 := by
  induction bs using List.reverseRecOn generalizing i with
  | nil => simp
  | append_singleton bs b ih =>
    rw [List.foldl_append, List.foldl_cons, List.foldl_nil, List.reverse_append]
    cases i with
    | zero =>
      apply BitVec.eq_of_getLsbD_eq
      intro j hj
      simp [hj]
    | succ i =>
      have hstep : (bs.foldl (fun (a : BitVec 64) b => (a <<< 8) ||| b.setWidth 64) 0 <<< 8 ||| b.setWidth 64) >>> (8 * (i + 1))
          = (bs.foldl (fun (a : BitVec 64) b => (a <<< 8) ||| b.setWidth 64) 0 <<< 8) >>> (8 * (i + 1)) := by
        apply BitVec.eq_of_getLsbD_eq
        intro j _
        have hb : b.getLsbD (8 * (i + 1) + j) = false := BitVec.getLsbD_of_ge _ _ (by omega)
        simp [hb]
      rw [hstep]
      simp only [List.reverse_singleton, List.singleton_append, List.getElem?_cons_succ, ← ih (i := i) (by omega)]
      apply BitVec.eq_of_getLsbD_eq
      intro j hj
      have h64 : 8 * (i + 1) + j < 64 := by omega
      have hsub : 8 * (i + 1) + j - 8 = 8 * i + j := by omega
      have hge : ¬ 8 * (i + 1) + j < 8 := by omega
      simp only [BitVec.getLsbD_setWidth, BitVec.getLsbD_ushiftRight, BitVec.getLsbD_shiftLeft, h64, hsub, hge, decide_true, decide_false, Bool.not_false,
        Bool.true_and]

/-- Size in bytes of a load (Table 13-2). -/
theorem gSize_mem (w : BitVec 64) : 1 ≤ gSize w ∧ gSize w ≤ 8 := by
  have h : wbits w 45 44 < 4 := Nat.mod_lt _ (by decide)
  exact ⟨Nat.one_le_two_pow, Nat.pow_le_pow_right (by decide : 2 > 0) (by omega : wbits w 45 44 ≤ 3)⟩

/-- A loaded field, byte by byte, in the order the word gives (R505, R506). -/
theorem byte_field (r : Rec) (w : BitVec 64) {i : Nat} (hi : i < 8) :
    ((r.field w) >>> (8 * i)).setWidth 8 = if i < gSize w then r.byte (gOfs w + if gBig w then gSize w - 1 - i else i) else 0 := by
  rw [Rec.field, byte_foldl _ hi]
  by_cases hb : gBig w
  · by_cases h : i < gSize w
    · simp [hb, h]
    · simp [hb, h]
  · by_cases h : i < gSize w <;> simp [hb, h]

/-- The bits of a value shifted left and arithmetically back: its low bits, and above them the highest of those. -/
theorem getLsbD_shl_sshiftRight (v : BitVec 64) {m p : Nat} (hm : m < 64) (hp : p < 64) :
    ((v <<< m).sshiftRight m).getLsbD p = if m + p < 64 then v.getLsbD p else v.getLsbD (63 - m) := by
  rw [BitVec.getLsbD_sshiftRight]
  by_cases h : m + p < 64
  · have hge : ¬ m + p < m := by omega
    have hlt : ¬ 64 ≤ p := by omega
    simp [h, hge, hlt, BitVec.getLsbD_eq_getElem hp]
  · have h63 : ¬ 63 < m := by omega
    have hlow : 63 - m < 64 := by omega
    simp [h, hp, h63, BitVec.msb_eq_getLsbD_last, BitVec.getLsbD_eq_getElem hlow]

/-- A signed load, byte by byte: above the field, the sign of its last byte. -/
theorem byte_signed (v : BitVec 64) {n i : Nat} (hn : 1 ≤ n) (hn8 : n ≤ 8) (hi : i < 8) :
    (((v <<< (64 - 8 * n)).sshiftRight (64 - 8 * n)) >>> (8 * i)).setWidth 8 =
      if i < n then (v >>> (8 * i)).setWidth 8 else if ((v >>> (8 * (n - 1))).setWidth 8).msb then 0xFF else 0 := by
  apply BitVec.eq_of_getLsbD_eq
  intro j hj
  have hp : 8 * i + j < 64 := by omega
  have hbit : ((((v <<< (64 - 8 * n)).sshiftRight (64 - 8 * n)) >>> (8 * i)).setWidth 8).getLsbD j
      = if 64 - 8 * n + (8 * i + j) < 64 then v.getLsbD (8 * i + j) else v.getLsbD (63 - (64 - 8 * n)) := by
    rw [← getLsbD_shl_sshiftRight v (by omega) hp]
    simp [hj]
  rw [hbit]
  by_cases h : i < n
  · have hlow : 64 - 8 * n + (8 * i + j) < 64 := by omega
    simp [h, hlow, hj]
  · have hhigh : ¬ 64 - 8 * n + (8 * i + j) < 64 := by omega
    have hmsb : ((v >>> (8 * (n - 1))).setWidth 8).msb = v.getLsbD (63 - (64 - 8 * n)) := by
      have hidx : 8 * (n - 1) + 7 = 63 - (64 - 8 * n) := by omega
      simp [BitVec.msb_eq_getLsbD_last, hidx]
    have hones : (0xFF#8).getLsbD j = true := by
      have hall : (0xFF#8) = BitVec.allOnes 8 := by decide
      rw [hall, BitVec.getLsbD_allOnes, decide_eq_true hj]
    rw [if_neg h, if_neg hhigh, hmsb]
    cases v.getLsbD (63 - (64 - 8 * n)) <;> simp [hones]

/-! ## The obligations -/

/-- Settles O1: one instruction of a lane, and what the exact arithmetic of each operation comes to at 64 bits. -/
theorem graderArithmetic : Obligations.GraderArithmetic := by
  refine ⟨fun s g k x q t l w h => ⟨grdBin_of_laneAt h (aluAdd_eq _ _), grdBin_of_laneAt h (aluSub_eq _ _), grdBin_of_laneAt h (aluMul_eq _ _),
    grdUn_of_laneAt h (aluNeg_eq _), grdUn_of_laneAt h (aluAbs_eq _)⟩, fun s g k x q t l w h => ⟨fun ho => ?_, ?_⟩⟩
  · show grdStep g k 0x0B (grdBin aluDiv) s = _
    split
    next hb => exact grdBin_of_laneAt h (by rw [hb]; exact aluDiv_zero _) ho
    next hb => exact grdBin_of_laneAt h (aluDiv_of_ne hb _) ho
  · exact ⟨grdBin_of_laneAt h (aluRem_eq _ _), grdBin_of_laneAt h (aluDivu_eq _ _), grdBin_of_laneAt h (aluRemu_eq _ _)⟩

/-- Settles O2: one instruction of a lane, for the bitwise operations, the shifts, and the saturating forms. -/
theorem graderShiftsAndSaturation : Obligations.GraderShiftsAndSaturation := by
  refine ⟨fun s g k x q t l w h => ⟨grdBin_of_laneAt h rfl, grdBin_of_laneAt h rfl, grdBin_of_laneAt h rfl, grdBin_of_laneAt h (aluShl_eq _ _),
    grdBin_of_laneAt h (aluShr_eq _ _), grdBin_of_laneAt h (aluSar_eq _ _)⟩, fun s g k x q t l w h => ⟨grdBin_of_laneAt h rfl, ?_,
    grdBin_of_laneAt h (aluSat_eq _), grdBin_of_laneAt h (aluSat_eq _), grdBin_of_laneAt h (aluSat_eq _), fun ho hbi => ?_⟩⟩
  · refine grdBin_of_laneAt h ?_
    rw [aluMax]
    congr 1
    rcases lt_trichotomy (gA w l.x).toInt (gB w l.x).toInt with hlt | heq | hgt
    · rw [if_pos (le_of_lt hlt), if_neg (not_le.mpr hlt)]
    · rw [BitVec.toInt_inj] at heq
      simp [heq]
    · rw [if_neg (not_le.mpr hgt), if_pos (le_of_lt hgt)]
  · have hb : gB w l.x = (l.x[gXb w]?).getD 0 := by simp [gB, hbi]
    show execGrdMulq g k s = _
    rw [execGrdMulq, grdStep_of_laneAt h ho, Lane.set_eq, aluMulq_eq, hb]

/-- Settles O3: comparisons, branches and terminators as single instructions of a lane. -/
theorem graderComparesBranchesEnds : Obligations.GraderComparesBranchesEnds := by
  intro s g k x q t l w h
  refine ⟨grdCmp_of_laneAt h ?_, grdCmp_of_laneAt h ?_, grdCmp_of_laneAt h rfl, grdCmp_of_laneAt h rfl, grdCmp_of_laneAt h rfl, grdCmp_of_laneAt h rfl,
    grdBranch_of_laneAt h ?_, grdBranch_of_laneAt h ?_, fun ho => ?_, fun ho => ?_, fun ho => ?_⟩
  · exact beq_eq_decide _ _
  · exact bne_eq_decide_ne _ _
  · exact beq_eq_decide _ _
  · exact bne_eq_decide_ne _ _
  · show execGrdAccept g k s = _
    rw [execGrdAccept, grdStep_of_laneAt h ho]
    rfl
  · show execGrdReject g k s = _
    rw [execGrdReject, grdStep_of_laneAt h ho]
    rfl
  · show execGrdAcceptf g k s = _
    rw [execGrdAcceptf, grdStep_of_laneAt h ho, bne_eq_decide_ne]
    rfl

/-- Settles O4: a load gathers the record's bytes, and a signed one extends the field's last byte. -/
theorem graderLoads : Obligations.GraderLoads := by
  intro s g k x q t l w h
  obtain ⟨hn, hn8⟩ := gSize_mem w
  refine ⟨fun ho => ⟨(laneRec q t l).field w, ?_, fun i hi => byte_field (laneRec q t l) w hi⟩,
    fun ho => ⟨((laneRec q t l).field w <<< (64 - 8 * gSize w)).sshiftRight (64 - 8 * gSize w), ?_, fun i hi => ?_⟩, fun ho => ?_⟩
  · show execGrdLdu g k s = _
    rw [execGrdLdu, grdStep_of_laneAt h ho, Lane.set_eq]
  · show execGrdLds g k s = _
    rw [execGrdLds, grdStep_of_laneAt h ho, Lane.set_eq]
  · have hlast : gSize w - 1 < gSize w := by omega
    rw [byte_signed _ hn hn8 hi, byte_field _ w hi, byte_field _ w (i := gSize w - 1) (by omega), if_pos hlast]
    by_cases hin : i < gSize w
    · rw [if_pos hin, if_pos hin, if_pos hin]
      rfl
    · rw [if_neg hin, if_neg hin]
      rfl
  · show execGrdLdi g k s = _
    rw [execGrdLdi, grdStep_of_laneAt h ho, Lane.set_eq]

end Sys2Proof.Machine
end

section
/-! PROOFS. Loading of grader programs and formats, and the graders' tiles (R501, R507, R509, R512, R515 to R517, R522, R523). -/

namespace Sys2Proof.Machine

/-! ## The program store -/

@[simp] theorem storeWord_respondWrite (s : State) (r : Req) (c : RCode) (a : Nat) : storeWord (s.respondWrite r c) a = storeWord s a := by
  rw [s.respondWrite_eq]
  rfl

theorem State.respondWrite_gr (s : State) (r : Req) (c : RCode) : (s.respondWrite r c).gr = s.gr := by rw [s.respondWrite_eq]

theorem State.respondWrite_reqs (s : State) (r : Req) (c : RCode) : (s.respondWrite r c).reqs = s.reqs := by rw [s.respondWrite_eq]

theorem pdataWrite_held {s : State} (w : Word) (h : storeHeld s (s.get Fld.cryGrdPaddrAddr) = true) :
    pdataWrite w s = s.putFlag Fld.cryGrdLdstsInuse true := by
  simp [pdataWrite, h]

/-- The store with the word {PDATA_HI, PDATA_LO} at an address. -/
def withStoreWord (a : Nat) (w : Word) (s : State) : State :=
  { s with gr := { s.gr with store := Tab.set 0 a ((w.setWidth 64 <<< 32) ||| (s.reg .cryGrdPdataLo).setWidth 64) s.gr.store } }

theorem storeWord_withStoreWord_same (a : Nat) (w : Word) (s : State) : storeWord (withStoreWord a w s) a = w ++ s.reg .cryGrdPdataLo := by
  rw [storeWord, withStoreWord, Tab.get_set_same]
  apply BitVec.eq_of_getLsbD_eq
  intro i hi
  rw [BitVec.getLsbD_append]
  by_cases h : i < 32
  · simp [h, hi]
  · have hw : i - 32 < 64 := by omega
    have hlo : (s.reg .cryGrdPdataLo).getLsbD i = false := BitVec.getLsbD_of_ge _ _ (by omega)
    simp [h, hi, hlo]

theorem storeWord_withStoreWord_ne {a b : Nat} (h : b ≠ a) (w : Word) (s : State) : storeWord (withStoreWord a w s) b = storeWord s b :=
  Tab.get_set_ne h _ _ _ _

/-- A word of the store that no program holds is written, and the address moves on where AUTOINC is 1 (R509, R522). -/
theorem pdataWrite_free {s : State} (w : Word) (h : storeHeld s (s.get Fld.cryGrdPaddrAddr) = false) :
    pdataWrite w s =
      let u := (withStoreWord (s.get Fld.cryGrdPaddrAddr) w s).setReg .cryGrdPdataHi 0 w
      if s.flag Fld.cryGrdPaddrAutoinc then u.put Fld.cryGrdPaddrAddr ((s.get Fld.cryGrdPaddrAddr + 1) % 4096) else u := by
  have hflag : ((withStoreWord (s.get Fld.cryGrdPaddrAddr) w s).setReg .cryGrdPdataHi 0 w).flag Fld.cryGrdPaddrAutoinc = s.flag Fld.cryGrdPaddrAutoinc :=
    State.flag_setReg_kind _ (by decide) _ _ _
  rw [pdataWrite, if_neg (by simp [h]), ← hflag]
  rfl

theorem pdataWrite_stores (w : Word) (s : State) :
    (pdataWrite w s).resps = s.resps ∧ (pdataWrite w s).gr.run = s.gr.run ∧ (pdataWrite w s).reqs = s.reqs ∧
      ∀ b, b ≠ s.get Fld.cryGrdPaddrAddr → storeWord (pdataWrite w s) b = storeWord s b := by
  cases hh : storeHeld s (s.get Fld.cryGrdPaddrAddr) with
  | true =>
    rw [pdataWrite_held w hh]
    exact ⟨rfl, rfl, rfl, fun _ _ => rfl⟩
  | false =>
    rw [pdataWrite_free w hh]
    cases s.flag Fld.cryGrdPaddrAutoinc <;> exact ⟨rfl, rfl, rfl, fun b hb => storeWord_withStoreWord_ne hb w s⟩

theorem pdataWrite_addr {s : State} (w : Word) (h : storeHeld s (s.get Fld.cryGrdPaddrAddr) = false) :
    (pdataWrite w s).get Fld.cryGrdPaddrAddr =
      if s.flag Fld.cryGrdPaddrAutoinc then (s.get Fld.cryGrdPaddrAddr + 1) % 4096 else s.get Fld.cryGrdPaddrAddr := by
  rw [pdataWrite_free w h]
  cases s.flag Fld.cryGrdPaddrAutoinc with
  | true =>
    show (State.put _ _ _).get _ = _
    rw [State.get_put_same _ _ (by decide)]
    exact Nat.mod_eq_of_lt (Nat.mod_lt _ (by decide))
  | false => exact State.get_setReg_kind _ (by decide) _ _ _

theorem pdataWrite_word {s : State} (w : Word) (h : storeHeld s (s.get Fld.cryGrdPaddrAddr) = false) :
    storeWord (pdataWrite w s) (s.get Fld.cryGrdPaddrAddr) = w ++ s.reg .cryGrdPdataLo := by
  rw [pdataWrite_free w h]
  cases s.flag Fld.cryGrdPaddrAutoinc <;> exact storeWord_withStoreWord_same _ w s

/-! ## The check of a program -/

theorem badWord_none_iff (ws : List (BitVec 64)) (bad : Nat → BitVec 64 → Bool) :
    badWord ws bad = none ↔ ∀ i (h : i < ws.length), bad i ws[i] = false := by
  simp only [badWord, Option.map_eq_none_iff, List.find?_eq_none, Bool.not_eq_true]
  constructor
  · exact fun h i hi => h (ws[i], i) (List.mk_mem_zipIdx_iff_getElem?.mpr (List.getElem?_eq_getElem hi))
  · intro h x hx
    obtain ⟨hi, he⟩ := List.getElem?_eq_some_iff.mp (List.mem_zipIdx_iff_getElem?.mp hx)
    rw [← he]
    exact h x.2 hi

/-- The checks of a program (R507), whatever their order. -/
theorem progCheck_none_iff (start lenm1 : Nat) (ws : List (BitVec 64)) :
    progCheck start lenm1 ws = none ↔ start + lenm1 ≤ 4095 ∧
      (∀ i (h : i < ws.length), gDefined (gOpc ws[i]) = true ∧ ws[i] &&& ~~~gUsed ws[i] = 0 ∧ (gOpc ws[i] = 0x1C → (gImm ws[i]).toNat % 64 ≤ 62) ∧
        (gOpc ws[i] = 0x28 ∨ gOpc ws[i] = 0x29 → i < gTarget ws[i] ∧ gTarget ws[i] ≤ lenm1)) ∧
      (gOpc ((ws[lenm1]?).getD 0) = 0x30 ∨ gOpc ((ws[lenm1]?).getD 0) = 0x31 ∨ gOpc ((ws[lenm1]?).getD 0) = 0x32) := by
  have hsplit : progCheck start lenm1 ws = none ↔ ¬ 4095 < start + lenm1 ∧ badWord ws (fun _ w => !gDefined (gOpc w)) = none ∧
      badWord ws (fun _ w => w &&& ~~~gUsed w != 0) = none ∧ badWord ws (fun _ w => gOpc w == 0x1C && decide (62 < (gImm w).toNat % 64)) = none ∧
      badWord ws (fun i w => (gOpc w == 0x28 || gOpc w == 0x29) && (decide (gTarget w ≤ i) || decide (lenm1 < gTarget w))) = none ∧
      [0x30, 0x31, 0x32].contains (gOpc ((ws[lenm1]?).getD 0)) = true := by
    unfold progCheck
    repeat' split
    all_goals simp_all
  rw [hsplit]
  simp only [badWord_none_iff, Bool.and_eq_false_iff, Bool.or_eq_false_iff, beq_eq_false_iff_ne, decide_eq_false_iff_not,
    bne_eq_false_iff_eq, List.contains_iff_mem, List.mem_cons, List.not_mem_nil, or_false]
  constructor
  · rintro ⟨hlen, hdef, hused, hmul, hbr, hend⟩
    refine ⟨by omega, fun i hi => ⟨by simpa using hdef i hi, hused i hi, fun ho => ?_, fun ho => ?_⟩, hend⟩
    · have := hmul i hi
      omega
    · have := hbr i hi
      omega
  · rintro ⟨hlen, hall, hend⟩
    refine ⟨by omega, fun i hi => by simp [(hall i hi).1], fun i hi => (hall i hi).2.1, fun i hi => ?_, fun i hi => ?_, hend⟩
    · obtain ⟨-, -, hm, -⟩ := hall i hi
      omega
    · obtain ⟨-, -, -, hb⟩ := hall i hi
      omega

theorem progWords_getElem? (s : State) (p i : Nat) : (progWords s p)[i]? =
    if i < s.get Fld.cryGrdPdescLenm1 p + 1 then some (storeWord s (s.get Fld.cryGrdPdescStart p + i)) else none := by
  by_cases h : i < s.get Fld.cryGrdPdescLenm1 p + 1 <;> simp [progWords, h]

/-! ## Program descriptors -/

/-- The state with START and LENM1 of a descriptor taken. -/
def pdescTaken (p : Nat) (w : Word) (s : State) : State :=
  (s.put Fld.cryGrdPdescLenm1 (Fld.cryGrdPdescLenm1.get w) p).put Fld.cryGrdPdescStart (Fld.cryGrdPdescStart.get w) p

theorem pdescTaken_fields (p : Nat) (w : Word) (s : State) :
    (pdescTaken p w s).get Fld.cryGrdPdescStart p = Fld.cryGrdPdescStart.get w ∧
      (pdescTaken p w s).get Fld.cryGrdPdescLenm1 p = Fld.cryGrdPdescLenm1.get w ∧
      (pdescTaken p w s).flag Fld.cryGrdPdescValid p = s.flag Fld.cryGrdPdescValid p := by
  refine ⟨?_, ?_, ?_⟩
  · rw [pdescTaken, State.get_put_same _ _ (by decide), Nat.mod_eq_of_lt (Fld.get_lt _ _)]
  · rw [pdescTaken, State.get_put_field _ (by decide) (by decide), State.get_put_same _ _ (by decide), Nat.mod_eq_of_lt (Fld.get_lt _ _)]
  · rw [pdescTaken, State.flag_put_field _ (by decide) (by decide), State.flag_put_field _ (by decide) (by decide)]

theorem pdescWrite_passes {s : State} {p : Nat} {w : Word} (hv : s.flag Fld.cryGrdPdescValid p = false) (hb : progBusy s p = false)
    (hw : Fld.cryGrdPdescValid.get w = 1)
    (hc : progCheck (Fld.cryGrdPdescStart.get w) (Fld.cryGrdPdescLenm1.get w) (progWords (pdescTaken p w s) p) = none) :
    pdescWrite p w s = (pdescTaken p w s).putFlag Fld.cryGrdPdescValid true p := by
  obtain ⟨hst, hlm, -⟩ := pdescTaken_fields p w s
  rw [← hst, ← hlm] at hc
  unfold pdescTaken at hc ⊢
  simp [pdescWrite, hv, hb, hw, hc]

theorem pdescWrite_fails {s : State} {p : Nat} {w : Word} {e i : Nat} (hv : s.flag Fld.cryGrdPdescValid p = false) (hb : progBusy s p = false)
    (hw : Fld.cryGrdPdescValid.get w = 1)
    (hc : progCheck (Fld.cryGrdPdescStart.get w) (Fld.cryGrdPdescLenm1.get w) (progWords (pdescTaken p w s) p) = some (e, i)) :
    pdescWrite p w s = loadFail e i (pdescTaken p w s) := by
  obtain ⟨hst, hlm, -⟩ := pdescTaken_fields p w s
  rw [← hst, ← hlm] at hc
  unfold pdescTaken at hc ⊢
  simp [pdescWrite, hv, hb, hw, hc]

/-- The words of a program hang on its descriptor and the store. -/
theorem progWords_congr {s u : State} {p : Nat} (hst : u.get Fld.cryGrdPdescStart p = s.get Fld.cryGrdPdescStart p)
    (hlm : u.get Fld.cryGrdPdescLenm1 p = s.get Fld.cryGrdPdescLenm1 p) (hgr : u.gr = s.gr) : progWords u p = progWords s p := by
  simp [progWords, storeWord, hst, hlm, hgr]

theorem progCheck_pdescTaken_iff (p : Nat) (w : Word) (s : State) :
    let st := Fld.cryGrdPdescStart.get w
    let lm := Fld.cryGrdPdescLenm1.get w
    let word (i : Nat) := storeWord s (st + i)
    progCheck st lm (progWords (pdescTaken p w s) p) = none ↔ st + lm ≤ 4095 ∧
      (∀ i ≤ lm, gDefined (gOpc (word i)) = true ∧ word i &&& ~~~gUsed (word i) = 0 ∧
        (gOpc (word i) = 0x1C → (gImm (word i)).toNat % 64 ≤ 62) ∧
        (gOpc (word i) = 0x28 ∨ gOpc (word i) = 0x29 → i < gTarget (word i) ∧ gTarget (word i) ≤ lm)) ∧
      (gOpc (word lm) = 0x30 ∨ gOpc (word lm) = 0x31 ∨ gOpc (word lm) = 0x32) := by
  intro st lm word
  obtain ⟨hst, hlm, -⟩ := pdescTaken_fields p w s
  have hword (i : Nat) (hi : i ≤ lm) : (progWords (pdescTaken p w s) p)[i]? = some (word i) := by
    rw [progWords_getElem?, hlm, hst, if_pos (Nat.lt_succ_of_le hi)]
    rfl
  have hlen : (progWords (pdescTaken p w s) p).length = lm + 1 := by simp [progWords, hlm, lm]
  rw [progCheck_none_iff, hword lm (Nat.le_refl _), Option.getD_some]
  have hget (i : Nat) (h : i < (progWords (pdescTaken p w s) p).length) : (progWords (pdescTaken p w s) p)[i] = word i := by
    have hs := hword i (by omega)
    rwa [List.getElem?_eq_getElem h, Option.some_inj] at hs
  simp only [hget, hlen, Nat.lt_succ_iff]

theorem loadFail_other (e i : Nat) (s : State) {f : Fld} (h : f.kind ≠ .cryGrdLdsts) (l : Nat) : (loadFail e i s).get f l = s.get f l := by
  rw [loadFail, State.get_put_kind _ h, State.get_put_kind _ h]

theorem loadFail_gr (e i : Nat) (s : State) : (loadFail e i s).gr = s.gr := rfl

theorem loadFail_flag (e i : Nat) (s : State) {f : Fld} (h : f.kind ≠ .cryGrdLdsts) (l : Nat) : (loadFail e i s).flag f l = s.flag f l := by
  rw [State.flag, loadFail_other e i s h, State.flag]

theorem loadFail_names (e i : Nat) (s : State) :
    (loadFail e i s).get Fld.cryGrdLdstsErr = e % 16 ∧ (loadFail e i s).get Fld.cryGrdLdstsWidx = i % 64 :=
  ⟨(State.get_put_field _ (by decide) (by decide) _ _ _).trans (State.get_put_same _ _ (by decide) _ _), State.get_put_same _ _ (by decide) _ _⟩

/-! ## Formats -/

theorem ff_reg (s : State) (n : Nat) (f : Fld) :
    ff (fmtWords s n) 0 f = f.get (s.reg .cryGrdFmtW0 n) ∧ ff (fmtWords s n) 1 f = f.get (s.reg .cryGrdFmtW1 n) ∧
      ff (fmtWords s n) 2 f = f.get (s.reg .cryGrdFmtW2 n) := ⟨rfl, rfl, rfl⟩

/-- The check of a format does not read its VALID bit (R501). -/
theorem fmtOk_congr {s u : State} {n : Nat} (h0 : ∀ f : Fld, f.hi < 31 → f.get (u.reg .cryGrdFmtW0 n) = f.get (s.reg .cryGrdFmtW0 n))
    (h1 : u.reg .cryGrdFmtW1 n = s.reg .cryGrdFmtW1 n) (h2 : u.reg .cryGrdFmtW2 n = s.reg .cryGrdFmtW2 n) :
    fmtOk (fmtWords u n) = fmtOk (fmtWords s n) := by
  have hf0 (f : Fld) (h : f.hi < 31) : ff (fmtWords u n) 0 f = ff (fmtWords s n) 0 f := h0 f h
  have hf1 (f : Fld) : ff (fmtWords u n) 1 f = ff (fmtWords s n) 1 f := congrArg f.get h1
  have hf2 (f : Fld) : ff (fmtWords u n) 2 f = ff (fmtWords s n) 2 f := congrArg f.get h2
  simp only [fmtOk, hf1, hf2, hf0 Fld.cryGrdFmtW0Rlen (by decide), hf0 Fld.cryGrdFmtW0Hdr (by decide), hf0 Fld.cryGrdFmtW0Proj (by decide)]

/-- The state with word W0 of a format taken, but for its VALID bit. -/
def fmtTaken (n : Nat) (w : Word) (s : State) : State := s.plainWrite .cryGrdFmtW0 n (w &&& ~~~Fld.cryGrdFmtW0Valid.mask)

theorem Fld.get_and_not_mask (f g : Fld) (h : f.hi < g.lo ∨ g.hi < f.lo) (hf : f.hi < 32) (w : Word) : f.get (w &&& ~~~g.mask) = f.get w := by
  have hp : w &&& ~~~g.mask = g.put 0 w := by simp [Fld.put]
  rw [hp, f.get_put_ne g h hf]

theorem Fld.get_and_not_mask_self (g : Fld) (hg : g.hi < 32) (w : Word) : g.get (w &&& ~~~g.mask) = 0 := by
  have hp : w &&& ~~~g.mask = g.put 0 w := by simp [Fld.put]
  rw [hp, g.get_put_same hg, Nat.zero_mod]

theorem fmtTaken_fields (n : Nat) (w : Word) (s : State) :
    (fmtTaken n w s).get Fld.cryGrdFmtW0Rlen n = Fld.cryGrdFmtW0Rlen.get w ∧ (fmtTaken n w s).get Fld.cryGrdFmtW0Hdr n = Fld.cryGrdFmtW0Hdr.get w ∧
      (fmtTaken n w s).flag Fld.cryGrdFmtW0Valid n = false := by
  refine ⟨?_, ?_, ?_⟩
  · exact (State.get_plainWrite_rw s Fld.cryGrdFmtW0Rlen (by decide) (by decide) (by decide) (by decide) n _).trans
      (Fld.get_and_not_mask _ _ (by decide) (by decide) w)
  · exact (State.get_plainWrite_rw s Fld.cryGrdFmtW0Hdr (by decide) (by decide) (by decide) (by decide) n _).trans
      (Fld.get_and_not_mask _ _ (by decide) (by decide) w)
  · have h := (State.get_plainWrite_rw s Fld.cryGrdFmtW0Valid (by decide) (by decide) (by decide) (by decide) n _).trans
      (Fld.get_and_not_mask_self _ (by decide) w)
    exact bne_eq_false_iff_eq.mpr h

theorem fmtW0Write_of_free {s : State} {n : Nat} {w : Word} (hv : s.flag Fld.cryGrdFmtW0Valid n = false) (hb : fmtBusy s n = false)
    (hw : Fld.cryGrdFmtW0Valid.get w = 1) :
    fmtW0Write n w s = if fmtOk (fmtWords (fmtTaken n w s) n) then (fmtTaken n w s).putFlag Fld.cryGrdFmtW0Valid true n
      else loadFail 7 0 (fmtTaken n w s) := by
  rw [fmtW0Write, hv, hb, hw]
  rfl

/-! ## Tiles of graders -/

theorem newRound_lanes (fmt : List Word) (tile : List Byte) (x : Grader) :
    (newRound fmt tile x).lanes = (List.range (min 4 (positions fmt tile - x.next))).map fun i => newLane fmt tile (x.next + i) := rfl

/-- A first round holds at most four records, in position order, each with registers and flags 0 (R506, R516). -/
theorem newRound_first (fmt : List Word) (tile : List Byte) {x : Grader} (hx : x.next = 0) :
    (newRound fmt tile x).lanes.length ≤ 4 ∧ ∀ (n : Nat) (l : Lane), (newRound fmt tile x).lanes[n]? = some l →
      l.pos = n ∧ l.x = List.replicate 8 0 ∧ l.v = false ∧ l.z = false ∧ l.pc = 0 ∧ l.out = none := by
  rw [newRound_lanes, hx]
  refine ⟨by simp, fun n l hl => ?_⟩
  rw [List.getElem?_map] at hl
  obtain ⟨i, hi, rfl⟩ := Option.map_eq_some_iff.mp hl
  obtain ⟨hlt, rfl⟩ := List.getElem?_eq_some_iff.mp hi
  simp [newLane]

theorem modTile_eq (s : State) (rtag i : Nat) (f : Tile → Tile) : s.modTile rtag i f = { s with reqs := (s.modTile rtag i f).reqs } := rfl

/-- What GRADER_MEMORY_ERROR makes of the grader and its tile (R515). -/
theorem graderMemoryError_keepsOthers {s : State} {g : Nat} (hon : s.coreOn = true) (hg : g < 16)
    (hleft : ∃ h < 16, h ≠ g ∧ s.bit .cryGrdSts 0 (16 + h) = false) :
    ∃ t, exec (.graderMemoryError g) s = .next t ∧ t.regs = (((contained s).setBit .cryGrdSts 0 (16 + g)).logPacked uCRY 0x100A [(1, g)]).regs ∧
      t.log = (((contained s).setBit .cryGrdSts 0 (16 + g)).logPacked uCRY 0x100A [(1, g)]).log ∧ Tab.find g t.gr.run = none ∧
      ∀ h, h ≠ g → Tab.find h t.gr.run = Tab.find h s.gr.run := by
  set s1 := ((contained s).setBit .cryGrdSts 0 (16 + g)).logPacked uCRY 0x100A [(1, g)] with hs1
  have hnotAll {u : State} (hu : u.regs = s1.regs) : ((List.range 16).all fun h => u.bit .cryGrdSts 0 (16 + h)) = false := by
    obtain ⟨h, hlt, hne, hbit⟩ := hleft
    rw [List.all_eq_false]
    refine ⟨h, List.mem_range.mpr hlt, ?_⟩
    have hcont : (contained s).bit .cryGrdSts 0 (16 + h) = s.bit .cryGrdSts 0 (16 + h) := by
      rw [contained, State.bit_logPacked _ (by decide), State.bit, State.reg_inc_kind _ (by decide), State.bit]
    rw [State.bit_of_regs hu, hs1, State.bit_logPacked _ (by decide), State.bit_setBit _ _ _ _ _ _ _ (by omega), hcont, hbit]
    simp [hne]
  have hgr : s1.gr = s.gr := rfl
  show ∃ t, execGraderMemoryError g s = .next t ∧ _
  cases hfind : Tab.find g s1.gr.run with
  | none =>
    refine ⟨s1, ?_, rfl, rfl, hfind, fun _ _ => rfl⟩
    simp only [execGraderMemoryError, ← hs1, hfind, hnotAll rfl]
    simp [hon, hg]
  | some x =>
    set s2 := ((freeGrader g s1).modTile x.rtag x.tile fun t => { t with grading := false }).modRq x.rtag fun q => { q with
      outLen := x.outAt, matched := x.matAt } with hs2
    refine ⟨s2, ?_, rfl, rfl, Tab.find_del_same _ _, fun h hne => Tab.find_del_ne hne _⟩
    simp only [execGraderMemoryError, ← hs1, hfind, ← hs2, hnotAll (u := s2) rfl]
    simp [hon, hg]

/-! ## The obligations -/

/-- Settles O5: the store by whether a program holds the word, a program descriptor by its check, and a format by its own. -/
theorem graderLoading : Obligations.GraderLoading := by
  refine ⟨fun s r w hw hs => ?_, fun s r p w hp hw hs hv hb hval => ?_, fun s r n w hn hw hs hv hb hval => ?_⟩
  · obtain ⟨hresps, hrun, hreqs, hothers⟩ := pdataWrite_stores w s
    refine ⟨(pdataWrite w s).respondWrite r .ok, congrArg Host.Outcome.next (regWrite_pass hw hs _), respondWrite_resps_of_eq hresps r,
      by rw [State.respondWrite_gr, hrun], by rw [State.respondWrite_reqs, hreqs], fun b hne => by rw [storeWord_respondWrite, hothers b hne],
      fun hfree => ?_, fun hheld => ?_⟩
    · rw [storeWord_respondWrite, State.get_respondWrite, pdataWrite_word w hfree, pdataWrite_addr w hfree]
      exact ⟨rfl, rfl⟩
    · rw [storeWord_respondWrite, State.flag_respondWrite, pdataWrite_held w hheld]
      exact ⟨rfl, State.flag_putFlag _ _ rfl (by decide) _ _, (otherRegs_putFlag s _ _ _).respondWrite r .ok⟩
  · obtain ⟨hst, hlm, hvalid⟩ := pdescTaken_fields p w s
    have hexec : exec (.grdPdescValidWrite r p w) s = .next ((pdescWrite p w s).respondWrite r .ok) := by
      show execGrdPdescValidWrite r p w s = _
      simp [execGrdPdescValidWrite, hp, regWrite_pass hw hs]
    rw [hexec]
    have hgood := progCheck_pdescTaken_iff p w s
    cases hc : progCheck (Fld.cryGrdPdescStart.get w) (Fld.cryGrdPdescLenm1.get w) (progWords (pdescTaken p w s) p) with
    | none =>
      rw [pdescWrite_passes hv hb hval hc]
      refine ⟨_, rfl, respondWrite_resps_of_eq rfl r, State.respondWrite_gr _ _ _, ?_, ?_, ?_, fun h => absurd (hgood.mp hc) h⟩
      · rw [State.get_respondWrite, State.get_putFlag_field _ (by decide) (by decide), hst]
      · rw [State.get_respondWrite, State.get_putFlag_field _ (by decide) (by decide), hlm]
      · rw [State.flag_respondWrite, State.flag_putFlag _ _ rfl (by decide)]
        exact iff_of_true (hgood.mp hc) rfl
    | some ei =>
      obtain ⟨e, i⟩ := ei
      rw [pdescWrite_fails hv hb hval hc]
      have hbad := fun h => Option.some_ne_none (e, i) (hc.symm.trans (hgood.mpr h))
      obtain ⟨herr, hidx⟩ := loadFail_names e i (pdescTaken p w s)
      have hst' := (loadFail_other e i (pdescTaken p w s) (f := Fld.cryGrdPdescStart) (by decide) p).trans hst
      have hlm' := (loadFail_other e i (pdescTaken p w s) (f := Fld.cryGrdPdescLenm1) (by decide) p).trans hlm
      refine ⟨_, rfl, respondWrite_resps_of_eq rfl r, State.respondWrite_gr _ _ _, by rw [State.get_respondWrite, hst'],
        by rw [State.get_respondWrite, hlm'], ?_, fun _ => ⟨e, i, ?_, by rw [State.get_respondWrite, herr], by rw [State.get_respondWrite, hidx]⟩⟩
      · rw [State.flag_respondWrite, loadFail_flag _ _ _ (by decide), hvalid, hv]
        exact iff_of_false hbad Bool.false_ne_true
      · have hwords : progWords ((loadFail e i (pdescTaken p w s)).respondWrite r .ok) p = progWords (pdescTaken p w s) p :=
          progWords_congr (by rw [State.get_respondWrite, hst', hst]) (by rw [State.get_respondWrite, hlm', hlm]) (by rw [State.respondWrite_gr, loadFail_gr])
        rw [hwords, hc]
  · obtain ⟨hrlen, hhdr, hvalid⟩ := fmtTaken_fields n w s
    have hexec : exec (.grdFmtValidWrite r n w) s = .next ((fmtW0Write n w s).respondWrite r .ok) := by
      show execGrdFmtValidWrite r n w s = _
      simp [execGrdFmtValidWrite, hn, regWrite_pass hw hs]
    rw [hexec, fmtW0Write_of_free hv hb hval]
    by_cases hok : fmtOk (fmtWords (fmtTaken n w s) n) = true
    · rw [if_pos hok]
      have hsame : fmtOk (fmtWords (((fmtTaken n w s).putFlag Fld.cryGrdFmtW0Valid true n).respondWrite r .ok) n) = true := by
        rw [← hok]
        refine fmtOk_congr (fun f hf => ?_) ?_ ?_
        · rw [State.reg_respondWrite]
          show f.get ((State.put _ _ _ _).reg Fld.cryGrdFmtW0Valid.kind _) = _
          rw [State.reg_put_same, Fld.get_put_ne _ _ (Or.inl hf) (by omega)]
          rfl
        · rw [State.reg_respondWrite, State.reg_putFlag_kind _ (by decide)]
        · rw [State.reg_respondWrite, State.reg_putFlag_kind _ (by decide)]
      refine ⟨_, rfl, respondWrite_resps_of_eq rfl r, State.respondWrite_gr _ _ _, ?_, ?_, ?_, fun h => absurd hsame (by simp [h])⟩
      · rw [State.get_respondWrite, State.get_putFlag_field _ (by decide) (by decide), hrlen]
      · rw [State.get_respondWrite, State.get_putFlag_field _ (by decide) (by decide), hhdr]
      · rw [State.flag_respondWrite, State.flag_putFlag _ _ rfl (by decide)]
        exact iff_of_true rfl hsame
    · rw [if_neg hok]
      have hsame : fmtOk (fmtWords ((loadFail 7 0 (fmtTaken n w s)).respondWrite r .ok) n) = false := by
        have hreg {k : RegKind} (hk : k ≠ .cryGrdLdsts) (i : Nat) :
            ((loadFail 7 0 (fmtTaken n w s)).respondWrite r .ok).reg k i = (fmtTaken n w s).reg k i := by
          rw [State.reg_respondWrite, loadFail, State.reg_put_kind _ hk, State.reg_put_kind _ hk]
        rw [fmtOk_congr (s := fmtTaken n w s) (fun f _ => by rw [hreg (by decide)]) (hreg (by decide) n) (hreg (by decide) n)]
        simpa using hok
      refine ⟨_, rfl, respondWrite_resps_of_eq rfl r, State.respondWrite_gr _ _ _, ?_, ?_, ?_, fun _ => ?_⟩
      · rw [State.get_respondWrite, loadFail_other _ _ _ (by decide), hrlen]
      · rw [State.get_respondWrite, loadFail_other _ _ _ (by decide), hhdr]
      · rw [State.flag_respondWrite, loadFail_flag _ _ _ (by decide), hvalid, hsame]
      · rw [State.get_respondWrite, (loadFail_names 7 0 _).1]

/-- Settles O6: the tile is the next one of the best request, and a grader that left service holds none. -/
theorem graderTileStart : Obligations.GraderTileStart := by
  refine ⟨fun s g i q hon hg hfree hbest hnext => ?_, fun s g hon hg hleft => ?_⟩
  · have hnone : Tab.find g s.gr.run = none := by
      simp only [grdFree, Bool.and_eq_true, Option.isNone_iff_eq_none] at hfree
      exact hfree.2
    have hexec : exec (.gradeTile g) s = .next (setGrader g (newRound q.gfmt ((s.tile q.rtag i).map (·.data) |>.getD [])
        { rtag := q.rtag, tile := i, outAt := q.outLen, matAt := q.matched }) (s.modTile q.rtag i fun t => { t with grading := true })) := by
      show execGradeTile g s = _
      simp [execGradeTile, hnone, hbest, hnext, hon, hg, hfree]
    obtain ⟨hlen, hlanes⟩ := newRound_first q.gfmt ((s.tile q.rtag i).map (·.data) |>.getD [])
      (x := { rtag := q.rtag, tile := i, outAt := q.outLen, matAt := q.matched }) rfl
    exact ⟨_, _, hexec, Tab.find_put_same _ _ _, rfl, rfl, hlen, hlanes, fun h hne => Tab.find_put_ne hne _ _, rfl, rfl⟩
  · obtain ⟨t, hexec, hregs, hlog, hgone, hothers⟩ := graderMemoryError_keepsOthers hon hg hleft
    refine ⟨t, hexec, ?_, hgone, hothers, by rw [hlog]; rfl⟩
    rw [State.bit_of_regs hregs, State.bit_logPacked _ (by decide), State.bit_setBit _ _ _ _ _ _ _ (by omega)]
    simp

end Sys2Proof.Machine
end

section
/-! PROOFS. The hardware locks: forced release by lease and by owner reset, and the clearing of BROKEN (R595 to R597). -/

namespace Sys2Proof.Machine

/-! ## A forced release -/

/-- A force-released lock is free and BROKEN, the break is counted, and no other lock changes (R597). -/
theorem breakLock_status (s : State) (n : Nat) (byReset : Bool) :
    (breakLock s n byReset).flag Fld.lckStsHeld n = false ∧ (breakLock s n byReset).get Fld.lckStsOwner n = 0 ∧
      (breakLock s n byReset).flag Fld.lckStsBroken n = true ∧
      (breakLock s n byReset).get Fld.lckGstsBreaks = min 0xFFFF (s.get Fld.lckGstsBreaks + 1) ∧
      ∀ m, m ≠ n → (breakLock s n byReset).reg .lckSts m = s.reg .lckSts m := by
  obtain ⟨hheld, howner, -, hother⟩ := freeLock_status s n
  have hreg {k : RegKind} (hk : k ≠ .glbLogSeq) (i : Nat) :
      (breakLock s n byReset).reg k i = (((freeLock s n).putFlag Fld.lckStsBroken true n).inc Fld.lckGstsBreaks).reg k i := by
    unfold breakLock
    rw [State.reg_logEntry _ hk]
  have hget {f : Fld} (hk : f.kind ≠ .glbLogSeq) (i : Nat) :
      (breakLock s n byReset).get f i = (((freeLock s n).putFlag Fld.lckStsBroken true n).inc Fld.lckGstsBreaks).get f i := congrArg f.get (hreg hk i)
  have hflag {f : Fld} (hk : f.kind ≠ .glbLogSeq) (i : Nat) :
      (breakLock s n byReset).flag f i = (((freeLock s n).putFlag Fld.lckStsBroken true n).inc Fld.lckGstsBreaks).flag f i := by
    rw [State.flag, hget hk, State.flag]
  refine ⟨?_, ?_, ?_, ?_, fun m hm => ?_⟩
  · rw [hflag (by decide), State.flag_inc_kind _ (by decide), State.flag_putFlag_field _ (by decide) (by decide), hheld]
  · rw [hget (by decide), State.get_inc_kind _ (by decide), State.get_putFlag_field _ (by decide) (by decide), howner]
  · rw [hflag (by decide), State.flag_inc_kind _ (by decide), State.flag_putFlag _ _ rfl (by decide)]
  · rw [hget (by decide), State.get_inc_same _ _ (by decide), State.get_putFlag_kind _ (by decide)]
    exact congrArg (fun x => min 0xFFFF (Fld.lckGstsBreaks.get x + 1)) (hother .lckGsts 0 (by simp))
  · have hne : ((RegKind.lckSts, m) : RegKind × Nat) ≠ (.lckSts, n) := fun e => hm (Prod.mk.inj e).2
    rw [hreg (by decide), State.reg_inc_kind _ (by decide)]
    exact (otherRegs_putFlag _ Fld.lckStsBroken true n .lckSts m hne).trans (hother .lckSts m hne)

/-! ## Owner reset -/

/-- An initiator holds a lock. -/
def HeldBy (s : State) (id n : Nat) : Prop := s.flag Fld.lckStsHeld n = true ∧ s.get Fld.lckStsOwner n = id

/-- A lock has been force-released. -/
def Broken (s : State) (n : Nat) : Prop := s.flag Fld.lckStsHeld n = false ∧ s.get Fld.lckStsOwner n = 0 ∧ s.flag Fld.lckStsBroken n = true

/-- One lock of an owner reset: it breaks where the initiator holds it. -/
def breakIfHeld (id : Nat) (s : State) (n : Nat) : State := if s.get Fld.lckStsOwner n = id ∧ s.flag Fld.lckStsHeld n then breakLock s n true else s

theorem breakAll_eq (s : State) (id : Nat) : breakAll s id = (s.leases.map Prod.fst).foldl (breakIfHeld id) s := rfl

theorem breakIfHeld_held {s : State} {id n : Nat} (h : HeldBy s id n) : breakIfHeld id s n = breakLock s n true := if_pos ⟨h.2, h.1⟩

theorem breakIfHeld_other {s : State} {id n m : Nat} (h : m ≠ n ∨ ¬HeldBy s id m) : (breakIfHeld id s n).reg .lckSts m = s.reg .lckSts m := by
  unfold breakIfHeld
  split
  next hn =>
    have hne : m ≠ n := h.elim (fun hm => hm) fun hm e => hm (e ▸ ⟨hn.2, hn.1⟩)
    obtain ⟨-, -, -, -, hother⟩ := breakLock_status s n true
    exact hother m hne
  next => rfl

/-- Holding and being broken hang on LCK_STS of the lock alone. -/
theorem heldBy_congr {s u : State} {n : Nat} (h : u.reg .lckSts n = s.reg .lckSts n) (id : Nat) : HeldBy u id n ↔ HeldBy s id n := by
  have hf : u.flag Fld.lckStsHeld n = s.flag Fld.lckStsHeld n := congrArg (fun x => Fld.lckStsHeld.get x != 0) h
  have hg : u.get Fld.lckStsOwner n = s.get Fld.lckStsOwner n := congrArg Fld.lckStsOwner.get h
  rw [HeldBy, HeldBy, hf, hg]

theorem broken_congr {s u : State} {n : Nat} (h : u.reg .lckSts n = s.reg .lckSts n) : Broken u n ↔ Broken s n := by
  have hf (f : Fld) (hk : f.kind = .lckSts) : u.get f n = s.get f n := by rw [State.get, State.get, hk, h]
  simp [Broken, State.flag, hf Fld.lckStsHeld rfl, hf Fld.lckStsOwner rfl, hf Fld.lckStsBroken rfl]

theorem breakAll_keeps (id : Nat) {n : Nat} (l : List Nat) : ∀ s : State, ¬HeldBy s id n → (l.foldl (breakIfHeld id) s).reg .lckSts n = s.reg .lckSts n := by
  induction l with
  | nil => exact fun _ _ => rfl
  | cons a l ih =>
    intro s h
    have hstep := breakIfHeld_other (n := a) (Or.inr h)
    rw [List.foldl_cons, ih _ (by rwa [heldBy_congr hstep]), hstep]

theorem breakAll_breaks (id : Nat) {n : Nat} (l : List Nat) : ∀ s : State, n ∈ l → HeldBy s id n → Broken (l.foldl (breakIfHeld id) s) n := by
  induction l with
  | nil => exact fun _ hn => absurd hn List.not_mem_nil
  | cons a l ih =>
    intro s hn h
    by_cases ha : n = a
    · subst ha
      obtain ⟨hheld, howner, hbroken, -⟩ := breakLock_status s n true
      have hnot : ¬HeldBy (breakLock s n true) id n := fun hh => by simp [HeldBy, hheld] at hh
      rw [List.foldl_cons, breakIfHeld_held h, broken_congr (breakAll_keeps id l _ hnot)]
      exact ⟨hheld, howner, hbroken⟩
    · have hstep := breakIfHeld_other (s := s) (id := id) (Or.inl ha)
      exact ih _ (List.mem_of_ne_of_mem ha hn) ((heldBy_congr hstep id).mpr h)

theorem Tab.mem_keys_of_find {α : Type} {k : Nat} {t : Tab α} (h : Tab.find k t ≠ none) : k ∈ t.map Prod.fst := by
  induction t with
  | nil => exact absurd rfl h
  | cons e r ih =>
    obtain ⟨a, v⟩ := e
    by_cases ha : a = k
    · simp [ha]
    · simp only [Tab.find, ha, if_false] at h
      exact List.mem_cons_of_mem _ (ih h)

theorem breakLock_resps (s : State) (n : Nat) (b : Bool) : (breakLock s n b).resps = s.resps := rfl

theorem ownerRst_resps (w : Word) (s : State) : (ownerRst w s).resps = s.resps := by
  have hall (l : List Nat) : ∀ (id : Nat) (s : State), (l.foldl (breakIfHeld id) s).resps = s.resps := by
    induction l with
    | nil => exact fun _ _ => rfl
    | cons a l ih =>
      intro id s
      rw [List.foldl_cons, ih, breakIfHeld]
      split
      · rw [breakLock_resps]
      · rfl
  unfold ownerRst
  split
  · rw [breakAll_eq, hall]
  · rfl

/-! ## Clearing BROKEN -/

/-- The owner of the moment clears BROKEN, and any other initiator leaves the lock (R597). -/
theorem lockStsWrite_status {r : Req} {n : Nat} {w : Word} (s : State) (hw : Fld.lckStsBroken.get w = 1) :
    OtherRegs s (lockStsWrite r n w s) .lckSts n ∧ (lockStsWrite r n w s).flag Fld.lckStsHeld n = s.flag Fld.lckStsHeld n ∧
      (lockStsWrite r n w s).get Fld.lckStsOwner n = s.get Fld.lckStsOwner n ∧
      (HeldBy s r.src n → (lockStsWrite r n w s).flag Fld.lckStsBroken n = false) ∧
      (¬HeldBy s r.src n → (lockStsWrite r n w s).flag Fld.lckStsBroken n = s.flag Fld.lckStsBroken n) := by
  by_cases h : HeldBy s r.src n
  · have he : lockStsWrite r n w s = s.plainWrite .lckSts n w := by simp [lockStsWrite, h.1, h.2]
    rw [he]
    have hheld := s.get_plainWrite_ro Fld.lckStsHeld (by decide) (by decide) (by decide) (by decide) n w
    refine ⟨otherRegs_plainWrite s _ _ _, congrArg (· != 0) hheld, s.get_plainWrite_ro Fld.lckStsOwner (by decide) (by decide) (by decide) (by decide) n w,
      fun _ => ?_, fun hn => absurd h hn⟩
    rw [show RegKind.lckSts = Fld.lckStsBroken.kind from rfl, s.flag_plainWrite_w1c Fld.lckStsBroken rfl (by decide) (by decide) (by decide) (by decide), hw]
    simp
  · have he : lockStsWrite r n w s = s := by
      rw [lockStsWrite, if_neg]
      simpa [HeldBy] using h
    rw [he]
    exact ⟨fun _ _ _ => rfl, rfl, rfl, fun hh => absurd hh h, fun _ => rfl⟩

/-! ## The obligation -/

/-- Settles O10: a lease that ran out, an owner reset by induction over the locks with a lease, and the write that clears BROKEN. -/
theorem lockForcedRelease : Obligations.LockForcedRelease := by
  refine ⟨fun s n hon hheld hlease => ?_, fun s r w hw hs hgo => ?_, fun s r n w again hn hw hs hbroken => ?_⟩
  · obtain ⟨h1, h2, h3, h4, h5⟩ := breakLock_status s n false
    have hexec : exec (.leaseExpiry n) s = .next (breakLock s n false) := by
      show execLeaseExpiry n s = _
      simp [execLeaseExpiry, hon, hheld, hlease]
    exact ⟨_, hexec, h1, h2, h3, h4, h5, rfl⟩
  · refine ⟨_, congrArg Host.Outcome.next (regWrite_pass hw hs _), respondWrite_resps_of_eq (ownerRst_resps w s) r, fun n hn => ?_⟩
    have he : ownerRst w s = (s.leases.map Prod.fst).foldl (breakIfHeld (Fld.lckOwnerRstId.get w)) s := if_pos hgo
    rw [State.flag_respondWrite, State.flag_respondWrite, State.get_respondWrite, State.reg_respondWrite, he]
    exact ⟨breakAll_breaks _ _ s (Tab.mem_keys_of_find hn), breakAll_keeps _ _ s⟩
  · obtain ⟨hother, hheld, howner, hmine, hothers⟩ := lockStsWrite_status (r := r) (n := n) s hbroken
    have hexec : exec (.brokenClear r n w again) s =
        .next ((if again then (lockStsWrite r n w s).putFlag Fld.lckStsBroken true n else lockStsWrite r n w s).respondWrite r .ok) := by
      show execBrokenClear r n w again s = _
      simp [execBrokenClear, hn, regWrite_pass hw hs]
    have hresps : (lockStsWrite r n w s).resps = s.resps := by
      unfold lockStsWrite
      split <;> rfl
    cases again with
    | false =>
      refine ⟨_, hexec, respondWrite_resps_of_eq hresps r, hother.respondWrite r .ok, ?_⟩
      rw [State.flag_respondWrite, State.get_respondWrite, State.flag_respondWrite, Bool.or_false]
      exact ⟨hheld, howner, hmine, hothers⟩
    | true =>
      rw [if_pos rfl] at hexec
      refine ⟨_, hexec, respondWrite_resps_of_eq ((State.putFlag_resps _ _ _ _).trans hresps) r, (hother.trans (otherRegs_putFlag _ Fld.lckStsBroken true n)).respondWrite r .ok, ?_⟩
      rw [State.flag_respondWrite, State.get_respondWrite, State.flag_respondWrite, Bool.or_true, State.flag_putFlag _ _ rfl (by decide),
        State.flag_putFlag_field _ (by decide) (by decide), State.get_putFlag_field _ (by decide) (by decide)]
      exact ⟨hheld, howner, fun _ => rfl, fun _ => rfl⟩

end Sys2Proof.Machine
end

section
/-! PROOFS. The poll of a LUN whose target's chip enable the raw slot has kept low: a change of rate reaches the pins before the status read (R122, R128, R195). -/

namespace Sys2Proof.Machine

/-- An operation of class 0 on LUN 0 of target 0 of channel 0. -/
def polledOp : Op :=
  { optype := 1, cls := 0, rtag := 0, lun := 0, wants := [], col := 0, row := 0, planes := 0, retry := 0, gauge := [], feat := [], bufslot := 0, xlen := 0,
    mask := 1, tmo := 0 }

/-- Its slot, parked on LRDY. -/
def polledSlot : Slot := { op := polledOp, upc := 0, g := [0, 0, 0, 0], st := .waiting 2 0 0 false 0 true }

/-- Channel 0 with that slot, the raw slot still keeping FL_CE_N of target 0 low, at a rate that the target's set no longer asks for. -/
def rawCeState : State :=
  { pwr := { emberLow := false, coldLow := false, warmLow := false }
    ch := [(0, { slots := [(0, polledSlot)], latch := some (0, []), rawCe := true })] }

/-- What the poll puts on the pins: the change of rate, then the status read. -/
theorem lunPoll_rawCeState_bus :
    (match exec (.lunPoll 0 0 0) rawCeState with
      | .next t => (t.chan 0).bus.length
      | _ => 0) = 2 := by decide +kernel

/-- Refutes O13: where the raw slot keeps FL_CE_N of the target low, the poll raises it and selects the target anew, and a set whose rate has changed since
changes the channel's rate first, so that the status read is not all that the poll puts on the pins. -/
theorem not_stokerWaitsAndSwitches : ¬ Obligations.StokerWaitsAndSwitches := by
  intro h
  obtain ⟨-, hwaits, -, -⟩ := h
  obtain ⟨-, -, -, hpoll⟩ := hwaits rawCeState 0 0 polledSlot 2 0 0 0 false true (by decide +kernel) (by decide +kernel) rfl rfl
  obtain ⟨t, ht, -, hbus⟩ := hpoll rfl rfl (by decide +kernel) (by decide +kernel) (by decide +kernel) (by decide +kernel) (by decide +kernel) 0
  have hlen := lunPoll_rawCeState_bus
  rw [ht] at hlen
  have hlen : (t.chan 0).bus.length = 2 := hlen
  rw [hbus] at hlen
  exact absurd hlen (by decide +kernel)

end Sys2Proof.Machine
end

section
/-! SUPPORT. Channels and stoker slots: what a change of one channel leaves, what a word does to the pins before its operation, and the conditions and registers
that it reads (R125, R164, R165, R168, R179). -/

namespace Sys2Proof.Machine

/-! ## One channel -/

@[simp] theorem State.chan_setChan_same (s : State) (c : Nat) (x : Chan) : (s.setChan c x).chan c = x := Tab.get_set_same _ _ _ _

theorem State.chan_setChan_ne (s : State) {c d : Nat} (h : d ≠ c) (x : Chan) : (s.setChan c x).chan d = s.chan d := Tab.get_set_ne h _ _ _ _

@[simp] theorem State.reg_setChan (s : State) (c : Nat) (x : Chan) (k : RegKind) (i : Nat) : (s.setChan c x).reg k i = s.reg k i := rfl

@[simp] theorem State.get_setChan (s : State) (c : Nat) (x : Chan) (f : Fld) (i : Nat) : (s.setChan c x).get f i = s.get f i := rfl

/-- A channel set twice. -/
theorem State.setChan_eq (s : State) (c : Nat) (x : Chan) : s.setChan c x = { s with ch := (s.setChan c x).ch } := rfl

theorem State.chOnly_trans {s t u : State} (h : t = { s with ch := t.ch }) (g : u = { t with ch := u.ch }) : u = { s with ch := u.ch } := by
  rw [g, h]

/-- What a word may change outside its slot: its channel, STK_CHMODE of the channel as SEL selects a target (R125, R128), and the log with GLB_LOG_SEQ (R126). -/
structure ChanStep (s t : State) (c : Nat) : Prop where
  rest : t = { s with ch := t.ch, regs := t.regs, log := t.log }
  others : ∀ d, d ≠ c → t.chan d = s.chan d
  regs : ∀ k i, (k, i) ≠ (RegKind.stkChmode, c) → k ≠ .glbLogSeq → t.reg k i = s.reg k i

theorem ChanStep.rfl {s : State} {c : Nat} : ChanStep s s c := ⟨Eq.refl s, fun _ _ => Eq.refl _, fun _ _ _ _ => Eq.refl _⟩

theorem ChanStep.trans {s t u : State} {c : Nat} (h : ChanStep s t c) (g : ChanStep t u c) : ChanStep s u c where
  rest := by rw [g.rest, h.rest]
  others d hd := (g.others d hd).trans (h.others d hd)
  regs k i hk hl := (g.regs k i hk hl).trans (h.regs k i hk hl)

theorem ChanStep.setChan (s : State) (c : Nat) (x : Chan) : ChanStep s (s.setChan c x) c := ⟨Eq.refl _, fun _ h => s.chan_setChan_ne h x, fun _ _ _ _ => Eq.refl _⟩

theorem ChanStep.flag {s t : State} {c : Nat} (h : ChanStep s t c) {f : Fld} (hk : f.kind ≠ .stkChmode) (hl : f.kind ≠ .glbLogSeq) (i : Nat) :
    t.flag f i = s.flag f i := by
  rw [State.flag, State.get, h.regs _ _ (fun e => hk (Prod.mk.inj e).1) hl, State.flag, State.get]

theorem ChanStep.get {s t : State} {c : Nat} (h : ChanStep s t c) {f : Fld} (hk : f.kind ≠ .stkChmode) (hl : f.kind ≠ .glbLogSeq) (i : Nat) :
    t.get f i = s.get f i := congrArg f.get (h.regs _ _ (fun e => hk (Prod.mk.inj e).1) hl)

theorem ChanStep.wordTo {s t : State} {c k : Nat} {y : Slot} (h : ChanStep s t c) (hk : Tab.find k (t.chan c).slots = some y)
    (hs : ∀ j, j ≠ k → Tab.find j (t.chan c).slots = Tab.find j (s.chan c).slots) : WordTo s t c k y := ⟨hk, hs, h.others, h.rest, h.regs⟩

/-! ## Pins -/

/-- Nothing changes but the pins of a channel: the target that is selected and its words, the delays that run, and what the log notes of the selection. -/
structure PinsStep (s t : State) (c : Nat) : Prop where
  step : ChanStep s t c
  chan : ∃ latch holdTill words pins rawCe logged, t.chan c =
    { s.chan c with latch := latch, holdTill := holdTill, words := words, pins := pins, rawCe := rawCe, logged := logged }
  chmode : ∀ f : Fld, f.hi < Fld.stkChmodeCurMode.lo ∨ Fld.stkChmodeCurMode.hi < f.lo → f.hi < 32 → f.get (t.reg .stkChmode c) = f.get (s.reg .stkChmode c)

theorem PinsStep.rfl {s : State} {c : Nat} : PinsStep s s c := ⟨.rfl, ⟨_, _, _, _, _, _, Eq.refl _⟩, fun _ _ _ => Eq.refl _⟩

theorem PinsStep.trans {s t u : State} {c : Nat} (h : PinsStep s t c) (g : PinsStep t u c) : PinsStep s u c where
  step := h.step.trans g.step
  chan := by
    obtain ⟨l, ht, w, p, r, g', e⟩ := h.chan
    obtain ⟨l2, ht2, w2, p2, r2, g2, e2⟩ := g.chan
    exact ⟨l2, ht2, w2, p2, r2, g2, by rw [e2, e]⟩
  chmode f hf h32 := (g.chmode f hf h32).trans (h.chmode f hf h32)

theorem PinsStep.setChan {s : State} {c : Nat} {y : Chan} (h : ∃ latch holdTill words pins rawCe logged, y =
    { s.chan c with latch := latch, holdTill := holdTill, words := words, pins := pins, rawCe := rawCe, logged := logged }) : PinsStep s (s.setChan c y) c :=
  ⟨.setChan s c y, by rwa [State.chan_setChan_same], fun _ _ _ => Eq.refl _⟩

theorem PinsStep.raiseCe (c : Nat) (s : State) : PinsStep s (raiseCe c s) c := .setChan ⟨_, _, _, _, _, _, Eq.refl _⟩

theorem PinsStep.logPacked (c : Nat) (s : State) (u d : Nat) (o v : List (Nat × Nat)) : PinsStep s (s.logPacked u d o v) c where
  step := ⟨Eq.refl _, fun _ _ => Eq.refl _, fun k i _ hl => s.reg_logPacked hl u d o v i⟩
  chan := ⟨_, _, _, _, _, _, Eq.refl _⟩
  chmode f _ _ := by rw [State.reg_logPacked _ (by decide)]

theorem PinsStep.logOnce (c t key : Nat) (s : State) : PinsStep s (logOnce c t key s) c := by
  unfold Machine.logOnce
  by_cases h : (s.chan c).logged.contains key = true
  · rw [if_pos h]
    exact .rfl
  · rw [if_neg h]
    exact (PinsStep.setChan ⟨_, _, _, _, _, _, Eq.refl _⟩).trans (.logPacked c _ _ _ _ _)

theorem PinsStep.foldl {α : Type} {c : Nat} (f : State → α → State) (hf : ∀ s a, PinsStep s (f s a) c) (l : List α) : ∀ s, PinsStep s (l.foldl f s) c := by
  induction l with
  | nil => exact fun _ => .rfl
  | cons a l ih => exact fun s => (hf s a).trans (ih (f s a))

theorem PinsStep.putCurMode (c m : Nat) (s : State) : PinsStep s (s.put Fld.stkChmodeCurMode m c) c where
  step := ⟨Eq.refl _, fun _ _ => Eq.refl _, fun k i hk _ => otherRegs_put s Fld.stkChmodeCurMode m c k i hk⟩
  chan := ⟨_, _, _, _, _, _, Eq.refl _⟩
  chmode f hf h32 := by
    show f.get ((s.put Fld.stkChmodeCurMode m c).reg Fld.stkChmodeCurMode.kind c) = _
    rw [State.reg_put_same, Fld.get_put_ne f _ hf h32]
    exact Eq.refl _

/-- A target selected without a change of rate (R125, R128). -/
theorem PinsStep.selectMask {c t mask : Nat} {s : State} (h : needsRate s c t = false) : PinsStep s (selectMask c t mask s) c := by
  unfold Machine.selectMask
  by_cases hl : (s.chan c).latch.map (·.1) = some t
  · simp only [hl, if_true]
    exact .setChan ⟨_, _, _, _, _, _, Eq.refl _⟩
  · have hrate : setRate c (applied s c t).rate s = s := by
      have he : (applied s c t).rate = s.get Fld.stkChmodeCurRate c := by simpa [needsRate, hl] using h
      simp [setRate, he]
    simp only [hl, if_false, hrate]
    exact (PinsStep.putCurMode c _ s).trans ((PinsStep.foldl _ (fun s a => .logOnce c t a s) _ _).trans (.setChan ⟨_, _, _, _, _, _, Eq.refl _⟩))

theorem PinsStep.runSel {c : Nat} {x : Slot} {w : BitVec 96} {s : State} (h : mSel w ≠ 0 → needsRate s c (slotTgt x) = false) : PinsStep s (runSel c x w s) c := by
  unfold Machine.runSel
  split
  · split
    · exact .raiseCe c s
    · exact .rfl
  next h0 => exact .selectMask (h h0)

/-! ## Gathered items -/

theorem busPut_eq (c : Nat) (b : BusCyc) (s : State) (odt : Nat) : ∃ pins, busPut c b s odt = s.setChan c { s.chan c with bus := (s.chan c).bus ++ [b], pins := pins } :=
  ⟨_, rfl⟩

/-- A slot that keeps a CA frame for a resend (R149). -/
def keepsSent (x : Slot) (bs : List Byte) : Slot := { x with caSent := bs, confirm := if x.inSent.isEmpty then x.confirm else bs }

/-- The items of a frame sent: nothing changes but the channel's pins and the frames that the slot keeps for a resend (R149, R179). -/
theorem sendItems_status (c k m : Nat) {s : State} {x : Slot} (hx : Tab.find k (s.chan c).slots = some x) :
    sendItems c k m s = { s with ch := (sendItems c k m s).ch } ∧ (∀ d, d ≠ c → (sendItems c k m s).chan d = s.chan d) ∧
      (∃ slots bus pins items xlen, (sendItems c k m s).chan c = { s.chan c with slots := slots, bus := bus, pins := pins, items := items, itemXlen := xlen }) ∧
      (∀ j, j ≠ k → Tab.find j ((sendItems c k m s).chan c).slots = Tab.find j (s.chan c).slots) ∧
      ∃ y, Tab.find k ((sendItems c k m s).chan c).slots = some y ∧ y = { x with caSent := y.caSent, confirm := y.confirm } := by
  unfold sendItems
  by_cases hi : (s.chan c).items.isEmpty = true
  · rw [if_pos hi]
    exact ⟨rfl, fun _ _ => rfl, ⟨_, _, _, _, _, rfl⟩, fun _ _ => rfl, x, hx, rfl⟩
  · rw [if_neg hi]
    obtain ⟨pins, hbus⟩ := busPut_eq c (.ca m (caFrame (s.chan c).items (s.chan c).itemXlen)) s 0
    simp only [sendCa, hbus, State.chan_setChan_same, hx]
    split
    · refine ⟨State.chOnly_trans (State.setChan_eq s c _) (State.setChan_eq _ c _), fun d hd => ?_, ⟨(s.chan c).slots, (s.chan c).bus ++ [.ca m (caFrame (s.chan c).items (s.chan c).itemXlen)], pins, [], 0,
          by rw [State.chan_setChan_same]⟩,
        fun _ _ => ?_, x, ?_, rfl⟩
      · rw [State.chan_setChan_ne _ hd, State.chan_setChan_ne _ hd]
      · rw [State.chan_setChan_same]
      · rw [State.chan_setChan_same]
        exact hx
    · refine ⟨State.chOnly_trans (State.chOnly_trans (State.setChan_eq s c _) (State.setChan_eq _ c _)) (State.setChan_eq _ c _), fun d hd => ?_, ⟨Tab.put k (keepsSent x (caFrame (s.chan c).items (s.chan c).itemXlen)) (s.chan c).slots,
        (s.chan c).bus ++ [.ca m (caFrame (s.chan c).items (s.chan c).itemXlen)], pins, [], 0, ?_⟩, fun j hj => ?_,
        keepsSent x (caFrame (s.chan c).items (s.chan c).itemXlen), ?_, rfl⟩
      · rw [State.chan_setChan_ne _ hd, setSlot, State.chan_setChan_ne _ hd, State.chan_setChan_ne _ hd]
      · rw [setSlot, State.chan_setChan_same, State.chan_setChan_same]
        rfl
      · rw [setSlot, State.chan_setChan_same, State.chan_setChan_same]
        exact Tab.find_put_ne hj _ _
      · rw [setSlot, State.chan_setChan_same, State.chan_setChan_same]
        exact Tab.find_put_same _ _ _

/-! ## What a word finds -/

/-- Two slots that differ at most in what a word notes as it begins: its address, the sequence, and the frames kept. -/
def SlotBegun (x z : Slot) : Prop :=
  z = { x with last := z.last, seq := z.seq, caSent := z.caSent, inSent := z.inSent, confirm := z.confirm }

theorem SlotBegun.op {x z : Slot} (h : SlotBegun x z) : z.op = x.op := by rw [h]
theorem SlotBegun.upc {x z : Slot} (h : SlotBegun x z) : z.upc = x.upc := by rw [h]
theorem SlotBegun.g {x z : Slot} (h : SlotBegun x z) : z.g = x.g := by rw [h]
theorem SlotBegun.status {x z : Slot} (h : SlotBegun x z) : z.status = x.status := by rw [h]
theorem SlotBegun.stack {x z : Slot} (h : SlotBegun x z) : z.stack = x.stack := by rw [h]
theorem SlotBegun.st {x z : Slot} (h : SlotBegun x z) : z.st = x.st := by rw [h]
theorem SlotBegun.went {x z : Slot} (h : SlotBegun x z) : z.went = x.went := by rw [h]
theorem SlotBegun.abort {x z : Slot} (h : SlotBegun x z) : z.abort = x.abort := by rw [h]
theorem SlotBegun.sent {x z : Slot} (h : SlotBegun x z) : z.sent = x.sent := by rw [h]
theorem SlotBegun.got {x z : Slot} (h : SlotBegun x z) : z.got = x.got := by rw [h]
theorem SlotBegun.raw {x z : Slot} (h : SlotBegun x z) : z.raw = x.raw := by rw [h]

/-- The channel as the operation of a word begins: the word is counted, and its wait count runs (R163, R189). -/
def beganChan (s : State) (c k : Nat) (x : Slot) (upc : BitVec 15) (u : BitVec 96) : Chan :=
  let t := runSel c (slotAtWord s c k x upc u) u (wordStart s c k x u)
  { t.chan c with
    words := (t.chan c).words + (if x.st != .ready then 0 else 1)
    holdTill := if mOp u = 5 then (t.chan c).holdTill else max (t.chan c).holdTill (t.now + (if mWcnt u = 0 then 0 else cyclesNs (mWcnt u))) }

/-- The state as the operation of a word begins: items sent, the target selected, the word counted (R163, R168, R179). -/
def wordBegun (s : State) (c k : Nat) (x : Slot) (upc : BitVec 15) (u : BitVec 96) : State :=
  (runSel c (slotAtWord s c k x upc u) u (wordStart s c k x u)).setChan c (beganChan s c k x upc u)

/-- The operation of a word, by its code (Table 05-5). -/
def runOp (c k : Nat) (z : Slot) (upc : BitVec 15) (u : BitVec 96) (din : List Byte) (m : Train) (s : State) : State :=
  match mOp u with
  | 0x00 => goNext c k z upc s
  | 0x01 => runCyc c k z upc u s
  | 0x02 => runGo c k z upc u s
  | 0x03 => runXfer c k z upc u din s
  | 0x04 => runTdly c k z upc u s
  | 0x05 => runWaitWord c k z upc u s
  | 0x06 => runSafe c k z upc u s
  | 0x07 => runBr c k z upc u s
  | 0x08 => runCall c k z upc u s
  | 0x09 => runRet c k z upc u s
  | 0x0A => runReg (fun _ i => i) c k z upc u s
  | 0x0B => runReg (· + ·) c k z upc u s
  | 0x0C => runReg (· &&& ·) c k z upc u s
  | 0x0D => runReg (· ||| ·) c k z upc u s
  | 0x0E => runCmpi c k z upc u s
  | 0x0F => runPinset c k z upc u s
  | 0x10 => runPhy c k z upc u m s
  | 0x11 => runReport c k z upc u s
  | _ => runEnd c k z u s

section
variable {s : State} {c k : Nat} {x : Slot} {w u : BitVec 96} {upc : BitVec 15}

/-- A word that fetching gives runs its operation in the state as it has begun (R163 to R168). -/
theorem uRow_of_wordAt (h : WordAt s c k x w upc u) {mine : BitVec 96 → Bool} (hm : mine u = true) (hop : mOp u < 0x13) (hgo : ¬(mOp u = 2 ∧ s.banked = true))
    (din : List Byte) (m : Train) : uRow c w mine din m s = .next (runOp c k (slotAtWord s c k x upc u) upc u din m (wordBegun s c k x upc u)) := by
  obtain ⟨hon, hact, hx, hfault, hhalt, hmay, hfetch, hrate, hres⟩ := h
  have hrun : runWord c k x w din m s = runOp c k (slotAtWord s c k x upc u) upc u din m (wordBegun s c k x upc u) := by
    rw [runWord, hfetch, if_neg (by show ¬ 0x13 ≤ mOp u; omega), if_neg (by show ¬ wordReserved u = true; simp [hres]), if_neg hgo]
    rfl
  have hu : (fetchWord s c x.upc w).2 = u := by rw [hfetch]
  simp [uRow, hact, hx, hon, hfault, hhalt, hmay, hu, hm, wordOrRate, hrate, hrun]

theorem slotAtWord_find (h : WordAt s c k x w upc u) :
    ∃ y, Tab.find k ((wordStart s c k x u).chan c).slots = some y ∧ y = { x with caSent := y.caSent, confirm := y.confirm } := by
  obtain ⟨-, -, hx, -⟩ := h
  unfold wordStart
  split
  · obtain ⟨-, -, -, -, hy⟩ := sendItems_status c k (selOr x s c) hx
    exact hy
  · exact ⟨x, hx, rfl⟩

/-- What stays of a state as items are sent. -/
theorem wordStart_status (h : WordAt s c k x w upc u) :
    wordStart s c k x u = { s with ch := (wordStart s c k x u).ch } ∧ (∀ d, d ≠ c → (wordStart s c k x u).chan d = s.chan d) ∧
      (∃ slots bus pins items xlen, (wordStart s c k x u).chan c = { s.chan c with slots := slots, bus := bus, pins := pins, items := items, itemXlen := xlen }) ∧
      ∀ j, j ≠ k → Tab.find j ((wordStart s c k x u).chan c).slots = Tab.find j (s.chan c).slots := by
  obtain ⟨-, -, hx, -⟩ := h
  unfold wordStart
  split
  · obtain ⟨h1, h2, h3, h4, -⟩ := sendItems_status c k (selOr x s c) hx
    exact ⟨h1, h2, h3, h4⟩
  · exact ⟨rfl, fun _ _ => rfl, ⟨_, _, _, _, _, rfl⟩, fun _ _ => rfl⟩

theorem slotAtWord_begun (h : WordAt s c k x w upc u) : SlotBegun x (slotAtWord s c k x upc u) := by
  obtain ⟨y, hy, -⟩ := slotAtWord_find h
  simp only [SlotBegun, slotAtWord, keepFrames, hy]

theorem wordStart_chanStep (h : WordAt s c k x w upc u) : ChanStep s (wordStart s c k x u) c := by
  obtain ⟨hrest, hothers, -, -⟩ := wordStart_status h
  have hregs : (wordStart s c k x u).regs = s.regs := by rw [hrest]
  exact ⟨by rw [hrest], hothers, fun k i _ _ => State.reg_of_regs hregs k i⟩

/-- Which rate a target asks for hangs on the registers, the modes its parameter page advertises and the supplies. -/
theorem applied_congr {s t : State} {c : Nat} (h : ChanStep s t c) (hadv : (t.chan c).adv = (s.chan c).adv)
    (hceil : t.get Fld.stkChmodeCeil c = s.get Fld.stkChmodeCeil c) (n : Nat) : applied t c n = applied s c n := by
  have hreg {k : RegKind} (hk : k ≠ .stkChmode) (hl : k ≠ .glbLogSeq) (i : Nat) : t.reg k i = s.reg k i := h.regs k i (fun e => hk (Prod.mk.inj e).1) hl
  have hset : setNo t c n = setNo s c n := by
    simp only [setNo, h.flag (f := Fld.stkTgtcfgKx) (by decide) (by decide), h.get (f := Fld.stkTgtcfgKxTset) (by decide) (by decide),
      h.get (f := Fld.stkTgtcfgTset) (by decide) (by decide)]
  have hws (j : Nat) : setWords t c j = setWords s c j := by
    simp only [setWords, tsetKinds, List.map_cons, List.map_nil, hreg (k := .stkTsetW0) (by decide) (by decide), hreg (k := .stkTsetW1) (by decide) (by decide),
      hreg (k := .stkTsetW2) (by decide) (by decide), hreg (k := .stkTsetW3) (by decide) (by decide), hreg (k := .stkTsetW4) (by decide) (by decide),
      hreg (k := .stkTsetW5) (by decide) (by decide), hreg (k := .stkTsetW6) (by decide) (by decide), hreg (k := .stkTsetW7) (by decide) (by decide)]
  have hkx : t.flag Fld.stkTgtcfgKx (c * 8 + n) = s.flag Fld.stkTgtcfgKx (c * 8 + n) := h.flag (by decide) (by decide) _
  have hv : vccqHigh t c = vccqHigh s c := by rw [vccqHigh, vccqHigh, h.rest]
  simp only [applied, hset, hws, hkx, hv, hadv, hceil]

theorem wordStart_needsRate (h : WordAt s c k x w upc u) (t : Nat) : needsRate (wordStart s c k x u) c t = needsRate s c t := by
  obtain ⟨hrest, -, ⟨_, _, _, _, _, hchan⟩, -⟩ := wordStart_status h
  have hregs : (wordStart s c k x u).regs = s.regs := by rw [hrest]
  have hadv : ((wordStart s c k x u).chan c).adv = (s.chan c).adv := by rw [hchan]
  have hlatch : ((wordStart s c k x u).chan c).latch = (s.chan c).latch := by rw [hchan]
  rw [needsRate, needsRate, applied_congr (wordStart_chanStep h) hadv (State.get_of_regs hregs _ _), hlatch, State.get_of_regs hregs]

/-- Selecting a target and counting the word change only the pins. -/
theorem wordBegun_pins (h : WordAt s c k x w upc u) (hgo : ¬(mOp u = 2 ∧ s.banked = true)) :
    PinsStep (wordStart s c k x u) (wordBegun s c k x upc u) c := by
  have hset := PinsStep.setChan (s := runSel c (slotAtWord s c k x upc u) u (wordStart s c k x u)) (c := c) (y := beganChan s c k x upc u) ⟨_, _, _, _, _, _, rfl⟩
  refine PinsStep.trans (PinsStep.runSel fun hsel => ?_) hset
  have hz := slotAtWord_begun h
  have htgt : slotTgt (slotAtWord s c k x upc u) = slotTgt x := by rw [hz]; rfl
  rw [htgt, wordStart_needsRate h]
  obtain ⟨-, -, -, -, -, -, -, hrate, hres⟩ := h
  have h3 : mSel u < 3 := by
    by_contra hge
    simp [wordReserved, Nat.le_of_not_lt hge] at hres
  have hbank : (mOp u == 2 && s.banked) = false := by simpa using hgo
  have hin : decide (1 ≤ mSel u ∧ mSel u ≤ 2) = true := decide_eq_true (by omega)
  simpa [wordRate, hbank, hin] using hrate

theorem wordBegun_step (h : WordAt s c k x w upc u) (hgo : ¬(mOp u = 2 ∧ s.banked = true)) : ChanStep s (wordBegun s c k x upc u) c :=
  (wordStart_chanStep h).trans (wordBegun_pins h hgo).step

/-- The channel as the operation of a word begins. -/
theorem wordBegun_chan (h : WordAt s c k x w upc u) (hgo : ¬(mOp u = 2 ∧ s.banked = true)) :
    ∃ slots pins items xlen latch holdTill words rawCe logged, (wordBegun s c k x upc u).chan c = { s.chan c with
      slots := slots
      bus := ((wordStart s c k x u).chan c).bus
      pins := pins
      items := items
      itemXlen := xlen
      latch := latch
      holdTill := holdTill
      words := words
      rawCe := rawCe
      logged := logged } := by
  obtain ⟨-, -, ⟨_, _, _, _, _, hchan⟩, -⟩ := wordStart_status h
  obtain ⟨_, _, _, _, _, _, hpins⟩ := (wordBegun_pins h hgo).chan
  exact ⟨_, _, _, _, _, _, _, _, _, by rw [hpins, hchan]⟩

theorem wordBegun_slots (h : WordAt s c k x w upc u) (hgo : ¬(mOp u = 2 ∧ s.banked = true)) :
    ((wordBegun s c k x upc u).chan c).slots = ((wordStart s c k x u).chan c).slots := by
  obtain ⟨_, _, _, _, _, _, hpins⟩ := (wordBegun_pins h hgo).chan
  rw [hpins]

theorem wordBegun_otherSlots (h : WordAt s c k x w upc u) (hgo : ¬(mOp u = 2 ∧ s.banked = true)) (j : Nat) (hj : j ≠ k) :
    Tab.find j ((wordBegun s c k x upc u).chan c).slots = Tab.find j (s.chan c).slots := by
  obtain ⟨-, -, -, hs⟩ := wordStart_status h
  rw [wordBegun_slots h hgo, hs j hj]

/-- A condition reads the channel's flags and FL_RB_N, the slot's own, KX and the banked state (Table 05-4). -/
theorem condHolds_congr {s t : State} {c : Nat} {x z : Slot} (hz : SlotBegun x z) (h : ChanStep s t c) (hrb : (t.chan c).rb = (s.chan c).rb)
    (heq : (t.chan c).eq = (s.chan c).eq) (hlt : (t.chan c).lt = (s.chan c).lt) (hf : (t.chan c).fchk = (s.chan c).fchk)
    (ht : (t.chan c).tmoF = (s.chan c).tmoF) (cond : Nat) : condHolds t c z cond = condHolds s c x cond := by
  have hkx : slotKx t c z = slotKx s c x := by
    rw [slotKx, slotKx, h.flag (by decide) (by decide), hz]
    rfl
  have hb : t.banked = s.banked := h.flag (by decide) (by decide) 0
  have hl : z.lrdy = x.lrdy := by rw [hz]
  have hs : z.status = x.status := by rw [hz]
  have ha : z.abort = x.abort := by rw [hz]
  have hu : z.susp = x.susp := by rw [hz]
  have ho : slotTgt z = slotTgt x := by rw [hz]; rfl
  simp only [condHolds, hrb, heq, hlt, hf, ht, hkx, hb, hl, hs, ha, hu, ho]

theorem slotKx_congr {s t : State} {c : Nat} {x z : Slot} (hz : SlotBegun x z) (h : ChanStep s t c) : slotKx t c z = slotKx s c x := by
  rw [slotKx, slotKx, h.flag (by decide) (by decide), hz]
  rfl

theorem gGet_congr {s t : State} {c : Nat} {x z : Slot} (hz : SlotBegun x z) (hg : (t.chan c).gs = (s.chan c).gs) (n : Nat) : gGet t c z n = gGet s c x n := by
  rw [gGet, gGet, hg, hz]

theorem condHolds_wordBegun (h : WordAt s c k x w upc u) (hgo : ¬(mOp u = 2 ∧ s.banked = true)) (cond : Nat) :
    condHolds (wordBegun s c k x upc u) c (slotAtWord s c k x upc u) cond = condHolds s c x cond := by
  obtain ⟨_, _, _, _, _, _, _, _, _, hchan⟩ := wordBegun_chan h hgo
  exact condHolds_congr (slotAtWord_begun h) (wordBegun_step h hgo) (by rw [hchan]) (by rw [hchan]) (by rw [hchan]) (by rw [hchan]) (by rw [hchan]) cond

theorem gGet_wordBegun (h : WordAt s c k x w upc u) (hgo : ¬(mOp u = 2 ∧ s.banked = true)) (n : Nat) :
    gGet (wordBegun s c k x upc u) c (slotAtWord s c k x upc u) n = gGet s c x n := by
  obtain ⟨_, _, _, _, _, _, _, _, _, hchan⟩ := wordBegun_chan h hgo
  exact gGet_congr (slotAtWord_begun h) (by rw [hchan]) n

end

/-! ## Next addresses -/

theorem nextUpc_of_notLast {upc : BitVec 15} (h : NotLast upc) : nextUpc upc = some (upc + 1) := by
  obtain ⟨hrom, hram⟩ := h
  rw [nextUpc, if_neg]
  intro he
  split at he
  · exact hram (BitVec.eq_of_toNat_eq he)
  · exact hrom (BitVec.eq_of_toNat_eq he)

theorem goNext_of_notLast {upc : BitVec 15} (h : NotLast upc) (c k : Nat) (x : Slot) (s : State) : goNext c k x upc s = setSlot c k { x with upc := upc + 1 } s := by
  rw [goNext, nextUpc_of_notLast h]

theorem goTo_of_inSpace {tgt : BitVec 15} (h : InSpace tgt) (c k : Nat) (x : Slot) (upc : BitVec 15) (s : State) :
    goTo c k x tgt upc s = setSlot c k { x with upc := tgt } s := by
  rw [goTo, if_neg]
  rintro ⟨hbit, hgt⟩
  have hlt : tgt.toNat < 0x4400 := BitVec.lt_def.mp h
  have hge : 2 ^ 14 ≤ tgt.toNat := Nat.ge_two_pow_of_testBit hbit
  omega

/-! ## A slot set -/

theorem setSlot_chan (c k : Nat) (x : Slot) (s : State) : (setSlot c k x s).chan c = { s.chan c with slots := Tab.put k x (s.chan c).slots } :=
  State.chan_setChan_same _ _ _

theorem ChanStep.setSlot (c k : Nat) (x : Slot) (s : State) : ChanStep s (setSlot c k x s) c := .setChan s c _

/-- A slot set after a step that leaves the other slots. -/
theorem ChanStep.wordTo_setSlot {s t : State} {c k : Nat} (h : ChanStep s t c)
    (hs : ∀ j, j ≠ k → Tab.find j (t.chan c).slots = Tab.find j (s.chan c).slots) (y : Slot) : WordTo s (Machine.setSlot c k y t) c k y := by
  refine (h.trans (.setSlot c k y t)).wordTo ?_ fun j hj => ?_
  · rw [setSlot_chan]
    exact Tab.find_put_same _ _ _
  · rw [setSlot_chan]
    exact (Tab.find_put_ne hj _ _).trans (hs j hj)

end Sys2Proof.Machine
end

section
/-! PROOFS. Stoker microwords that branch, call, return and compute (R165, R173, Table 05-5). -/

namespace Sys2Proof.Machine

section
variable {s : State} {c k : Nat} {x : Slot} {w u : BitVec 96} {upc : BitVec 15}

/-- A word of one operation code, not a GO, in the state as it has begun. -/
theorem uRow_of_opcode (h : WordAt s c k x w upc u) {o : Nat} (hop : mOp u = o) (ho : o < 0x13) (hgo : o ≠ 2) (din : List Byte) (m : Train) :
    uRow c w (opIs o) din m s = .next (runOp c k (slotAtWord s c k x upc u) upc u din m (wordBegun s c k x upc u)) :=
  uRow_of_wordAt h (by simp [opIs, hop]) (by omega) (fun e => hgo (hop ▸ e.1)) din m

/-- The slot alone changes once the word has begun. -/
theorem wordTo_setSlot_wordBegun (h : WordAt s c k x w upc u) (hgo : mOp u ≠ 2) (y : Slot) : WordTo s (setSlot c k y (wordBegun s c k x upc u)) c k y :=
  (wordBegun_step h fun e => hgo e.1).wordTo_setSlot (wordBegun_otherSlots h fun e => hgo e.1) y

/-- A destination register of a register operation is written, in the slot or in the channel (R165). -/
theorem runReg_writes (h : WordAt s c k x w upc u) (hlast : NotLast upc) (hgo : mOp u ≠ 2) (f : Word → Word → Word) (v : Word)
    (hv : f (gGet s c x (mRoute u % 8)) (mImm u) = v) :
    let z := slotAtWord s c k x upc u
    let t := runReg f c k z upc u (wordBegun s c k x upc u)
    let d := mRoute u / 16 % 8
    ∃ y, WordTo s t c k y ∧ y = { z with upc := upc + 1, g := y.g } ∧ y.g = (if d < 4 then x.g.set d v else x.g) ∧
      (t.chan c).gs = (if d < 4 then (s.chan c).gs else (s.chan c).gs.set (d - 4) v) ∧ (t.chan c).eq = (s.chan c).eq ∧ (t.chan c).lt = (s.chan c).lt := by
  intro z t d
  have hgo' : ¬(mOp u = 2 ∧ s.banked = true) := fun e => hgo e.1
  obtain ⟨_, _, _, _, _, _, _, _, _, hchan⟩ := wordBegun_chan h hgo'
  have hzg : z.g = x.g := (slotAtWord_begun h).g
  have ht : t = setSlot c k { (gSet c z d v (wordBegun s c k x upc u)).1 with upc := upc + 1 } (gSet c z d v (wordBegun s c k x upc u)).2 := by
    show runReg f c k z upc u (wordBegun s c k x upc u) = _
    rw [runReg, gGet_wordBegun h hgo', hv, goNext_of_notLast hlast]
  rw [ht]
  by_cases hd : d < 4
  · have hset : gSet c z d v (wordBegun s c k x upc u) = ({ z with g := z.g.set d v }, wordBegun s c k x upc u) := if_pos hd
    rw [hset]
    refine ⟨_, wordTo_setSlot_wordBegun h hgo _, rfl, ?_, ?_⟩
    · rw [if_pos hd, ← hzg]
    · rw [setSlot_chan, if_pos hd, hchan]
      exact ⟨rfl, rfl, rfl⟩
  · have hset : gSet c z d v (wordBegun s c k x upc u) = (z, (wordBegun s c k x upc u).setChan c { (wordBegun s c k x upc u).chan c with
        gs := ((wordBegun s c k x upc u).chan c).gs.set (d - 4) v }) := if_neg hd
    rw [hset]
    refine ⟨_, ((wordBegun_step h hgo').trans (.setChan _ c _)).wordTo_setSlot (fun j hj => ?_) _, rfl, ?_, ?_⟩
    · rw [State.chan_setChan_same]
      exact wordBegun_otherSlots h hgo' j hj
    · rw [if_neg hd, ← hzg]
    · rw [setSlot_chan, State.chan_setChan_same, if_neg hd, hchan]
      exact ⟨rfl, rfl, rfl⟩

end

/-- Settles O11: each operation in the state as its word has begun, where conditions and registers read as before. -/
theorem stokerFlowAndRegisters : Obligations.StokerFlowAndRegisters := by
  intro s c k x w u upc h z
  have hcond (hop : mOp u ≠ 2) := condHolds_wordBegun h (fun e => hop e.1)
  have hstack : z.stack = x.stack := (slotAtWord_begun h).stack
  refine ⟨fun hop b hb htaken hnot => ?_, fun hop hlast => ⟨fun hb => ?_, fun hb hspace hdepth => ?_⟩, fun hop => ⟨fun hb hlast => ?_, fun hb a r hr => ?_⟩,
    fun hlast => ⟨fun hop => ?_, fun hop => ?_, fun hop => ?_, fun hop => ?_, fun hop => ?_⟩⟩
  · refine ⟨_, uRow_of_opcode h hop (by decide) (by decide) [] {}, ?_⟩
    simp only [runOp, hop, runBr, hcond (by omega), hb]
    cases b with
    | true =>
      simp only [goTo_of_inSpace (htaken rfl)]
      exact wordTo_setSlot_wordBegun h (by omega) _
    | false =>
      simp only [goNext_of_notLast (hnot rfl)]
      exact wordTo_setSlot_wordBegun h (by omega) _
  · refine ⟨_, uRow_of_opcode h hop (by decide) (by decide) [] {}, ?_⟩
    simp only [runOp, hop, runCall, hcond (by omega), hb, goNext_of_notLast hlast]
    exact wordTo_setSlot_wordBegun h (by omega) _
  · refine ⟨_, uRow_of_opcode h hop (by decide) (by decide) [] {}, ?_⟩
    have hfree : ¬ 8 ≤ (slotAtWord s c k x upc u).stack.length := by rw [hstack]; omega
    simp only [runOp, hop, runCall, hcond (by omega), hb, nextUpc_of_notLast hlast, hfree, if_false, goTo_of_inSpace hspace]
    rw [← hstack]
    exact wordTo_setSlot_wordBegun h (by omega) _
  · refine ⟨_, uRow_of_opcode h hop (by decide) (by decide) [] {}, ?_⟩
    simp only [runOp, hop, runRet, hcond (by omega), hb, goNext_of_notLast hlast]
    exact wordTo_setSlot_wordBegun h (by omega) _
  · refine ⟨_, uRow_of_opcode h hop (by decide) (by decide) [] {}, ?_⟩
    have hzs : (slotAtWord s c k x upc u).stack = a :: r := hstack.trans hr
    simp only [runOp, hop, runRet, hcond (by omega), hb, hzs]
    exact wordTo_setSlot_wordBegun h (by omega) _
  · obtain ⟨y, hy⟩ := runReg_writes h hlast (by omega) (fun _ i => i) (mImm u) rfl
    exact ⟨_, y, (uRow_of_opcode h hop (by decide) (by decide) [] {}).trans (by simp only [runOp, hop]), hy⟩
  · obtain ⟨y, hy⟩ := runReg_writes h hlast (by omega) (· + ·) _ rfl
    exact ⟨_, y, (uRow_of_opcode h hop (by decide) (by decide) [] {}).trans (by simp only [runOp, hop]), hy⟩
  · obtain ⟨y, hy⟩ := runReg_writes h hlast (by omega) (· &&& ·) _ rfl
    exact ⟨_, y, (uRow_of_opcode h hop (by decide) (by decide) [] {}).trans (by simp only [runOp, hop]), hy⟩
  · obtain ⟨y, hy⟩ := runReg_writes h hlast (by omega) (· ||| ·) _ rfl
    exact ⟨_, y, (uRow_of_opcode h hop (by decide) (by decide) [] {}).trans (by simp only [runOp, hop]), hy⟩
  · have hgo' : ¬(mOp u = 2 ∧ s.banked = true) := by omega
    obtain ⟨_, _, _, _, _, _, _, _, _, hchan⟩ := wordBegun_chan h hgo'
    refine ⟨_, uRow_of_opcode h hop (by decide) (by decide) [] {}, ?_⟩
    simp only [runOp, hop, runCmpi, gGet_wordBegun h hgo', goNext_of_notLast hlast]
    refine ⟨((wordBegun_step h hgo').trans (.setChan _ c _)).wordTo_setSlot (fun j hj => ?_) _, ?_⟩
    · rw [State.chan_setChan_same]
      exact wordBegun_otherSlots h hgo' j hj
    · rw [setSlot_chan, State.chan_setChan_same, hchan]
      exact ⟨rfl, beq_eq_decide _ _, rfl⟩

end Sys2Proof.Machine
end

section
/-! PROOFS. Stoker microwords that drive the pins and move data, and the data frames of KX-DDR (R149, R171, R179, Tables 05-2, 05-3 and 05-5). -/

namespace Sys2Proof.Machine

/-! ## Cycles on the pins -/

theorem chan_busPut (c : Nat) (b : BusCyc) (s : State) (odt : Nat) :
    ∃ pins, (busPut c b s odt).chan c = { s.chan c with bus := (s.chan c).bus ++ [b], pins := pins } := ⟨_, State.chan_setChan_same _ _ _⟩

theorem bus_busPut (c : Nat) (b : BusCyc) (s : State) (odt : Nat) : ((busPut c b s odt).chan c).bus = (s.chan c).bus ++ [b] := by
  obtain ⟨_, h⟩ := chan_busPut c b s odt
  rw [h]

theorem slots_busPut (c : Nat) (b : BusCyc) (s : State) (odt : Nat) : ((busPut c b s odt).chan c).slots = (s.chan c).slots := by
  obtain ⟨_, h⟩ := chan_busPut c b s odt
  rw [h]

theorem ChanStep.busPut (c : Nat) (b : BusCyc) (s : State) (odt : Nat) : ChanStep s (busPut c b s odt) c := .setChan s c _

theorem bus_setSlot (c k : Nat) (x : Slot) (s : State) : ((setSlot c k x s).chan c).bus = (s.chan c).bus := by rw [setSlot_chan]

section
variable {s : State} {c k : Nat} {x : Slot} {w u : BitVec 96} {upc : BitVec 15}

/-- A slot set once the operation of a word has changed only what the channel holds beside its slots. -/
theorem wordTo_of_wordBegun_step (h : WordAt s c k x w upc u) (hgo : ¬(mOp u = 2 ∧ s.banked = true)) {t : State}
    (ht : ChanStep (wordBegun s c k x upc u) t c) (hs : (t.chan c).slots = ((wordBegun s c k x upc u).chan c).slots) (y : Slot) :
    WordTo s (setSlot c k y t) c k y :=
  ((wordBegun_step h hgo).trans ht).wordTo_setSlot (fun j hj => by rw [hs, wordBegun_otherSlots h hgo j hj]) y

theorem wordBegun_bus (h : WordAt s c k x w upc u) (hgo : ¬(mOp u = 2 ∧ s.banked = true)) :
    ((wordBegun s c k x upc u).chan c).bus = ((wordStart s c k x u).chan c).bus := by
  obtain ⟨_, _, _, _, _, _, hpins⟩ := (wordBegun_pins h hgo).chan
  rw [hpins]

theorem slotKx_wordBegun (h : WordAt s c k x w upc u) (hgo : ¬(mOp u = 2 ∧ s.banked = true)) :
    slotKx (wordBegun s c k x upc u) c (slotAtWord s c k x upc u) = slotKx s c x :=
  slotKx_congr (slotAtWord_begun h) (wordBegun_step h hgo)

/-- The frames that the slot keeps are already noted when the operation notes them again (R149). -/
theorem keepFrames_slotAtWord (h : WordAt s c k x w upc u) {t : State} (ht : (t.chan c).slots = ((wordStart s c k x u).chan c).slots) :
    keepFrames t c k (slotAtWord s c k x upc u) = slotAtWord s c k x upc u := by
  obtain ⟨y, hy, -⟩ := slotAtWord_find h
  simp only [keepFrames, ht, hy, slotAtWord]

/-- The mask of SEL hangs on the operation alone. -/
theorem selMask_slotAtWord (h : WordAt s c k x w upc u) :
    selMask (slotAtWord s c k x upc u) u = if mSel u = 1 then 2 ^ slotTgt x else if mSel u = 2 then x.op.mask else 0 := by
  simp only [selMask, slotTgt, (slotAtWord_begun h).op]

/-- The byte that ROUTE names: of the word, the context, or a G register (Table 05-3). -/
theorem routeByte_named {t : State} {z : Slot} {b : Byte} (hop : z.op = x.op) (hg : ∀ n, gGet t c z n = gGet s c x n)
    (hb : (mRoute u = 32 ∧ b = (mImm u).setWidth 8) ∨ (64 ≤ mRoute u ∧ mRoute u < 96 ∧ b = ctxByte x.op (mRoute u - 64)) ∨
      (96 ≤ mRoute u ∧ mRoute u < 104 ∧ b = (gGet s c x (mRoute u - 96)).setWidth 8)) : routeByte t c z u = some (b, t) := by
  unfold routeByte
  rcases hb with ⟨hr, rfl⟩ | ⟨hlo, hhi, rfl⟩ | ⟨hlo, hhi, rfl⟩
  · simp [hr]
  · have hq : mRoute u / 32 = 2 := by omega
    have hm : mRoute u % 32 = mRoute u - 64 := by omega
    simp only [hq, hm, hop]
  · have hq : mRoute u / 32 = 3 := by omega
    have hm : mRoute u % 32 < 8 := by omega
    have h8 : mRoute u % 8 = mRoute u - 96 := by omega
    simp only [hq, hm, if_true, h8, hg]

theorem wordStart_of_open (hc : closesFrame u = false) : wordStart s c k x u = s := by
  rw [wordStart, if_neg (by simp [hc])]

/-- CYC puts one command or address cycle on the pins. -/
theorem runCyc_wordBegun (h : WordAt s c k x w upc u) (hlast : NotLast upc) (hop : mOp u = 1) (hkx : slotKx s c x = false) (hle : mCle u ≠ mAle u) {b : Byte}
    (hb : routeByte (wordBegun s c k x upc u) c (slotAtWord s c k x upc u) u = some (b, wordBegun s c k x upc u)) :
    let z := slotAtWord s c k x upc u
    let t := runCyc c k z upc u (wordBegun s c k x upc u)
    WordTo s t c k { z with upc := upc + 1 } ∧
      (t.chan c).bus = (s.chan c).bus ++ [if mCle u then .cmd (selMask z u) b else .addr (selMask z u) b] := by
  intro z t
  have hgo : ¬(mOp u = 2 ∧ s.banked = true) := by omega
  have hopen : closesFrame u = false := by simp [closesFrame, hop]
  have ht : t = setSlot c k { z with upc := upc + 1 }
      (busPut c (if mCle u then .cmd (selMask z u) b else .addr (selMask z u) b) (wordBegun s c k x upc u)) := by
    show runCyc c k (slotAtWord s c k x upc u) upc u (wordBegun s c k x upc u) = _
    rw [runCyc, if_neg hle, hb]
    simp only [driveCycle, slotKx_wordBegun h hgo, hkx, goNext_of_notLast hlast, Bool.false_eq_true, if_false]
    rw [keepFrames_slotAtWord h (by rw [slots_busPut, wordBegun_slots h hgo])]
  rw [ht]
  refine ⟨wordTo_of_wordBegun_step h hgo (.busPut c _ _ 0) (slots_busPut c _ _ 0) _, ?_⟩
  rw [bus_setSlot, bus_busPut, wordBegun_bus h hgo, wordStart_of_open hopen]

theorem lun_wordBegun (h : WordAt s c k x w upc u) (hgo : ¬(mOp u = 2 ∧ s.banked = true)) : (wordBegun s c k x upc u).md = s.md := by
  rw [(wordBegun_step h hgo).rest]

/-- FL_RB_N of the targets of a mask is taken as low. -/
def rbLow (c m : Nat) (s : State) : State := s.setChan c { s.chan c with rb := (s.chan c).rb &&& ~~~(BitVec.ofNat 8 m) }

theorem rbLow_chan (c m : Nat) (s : State) : (rbLow c m s).chan c = { s.chan c with rb := (s.chan c).rb &&& ~~~(BitVec.ofNat 8 m) } := State.chan_setChan_same _ _ _

theorem rbLow_md (c m : Nat) (s : State) : (rbLow c m s).md = s.md := rfl

theorem busPut_md (c : Nat) (b : BusCyc) (s : State) (odt : Nat) : (busPut c b s odt).md = s.md := rfl

theorem wentLun_chan (o : Op) (s : State) (c : Nat) : (wentLun o s).chan c = s.chan c := rfl

theorem setSlot_lun (c k : Nat) (x : Slot) (s : State) (l : Nat) : (setSlot c k x s).lun l = s.lun l := rfl

theorem wentLun_lun_ne (o : Op) (s : State) {l : Nat} (h : l ≠ o.lun) : (wentLun o s).lun l = s.lun l := Tab.get_set_ne h _ _ _ _

/-- What GO does, step by step: the command goes out, FL_RB_N is taken as low, and the slot and its LUN note it (R171). -/
theorem runGo_parts (h : WordAt s c k x w upc u) (hlast : NotLast upc) (hop : mOp u = 2) (hbank : s.banked = false) (hkx : slotKx s c x = false)
    (hitems : (s.chan c).items = []) {b : Byte}
    (hb : routeByte (wordBegun s c k x upc u) c (slotAtWord s c k x upc u) u = some (b, wordBegun s c k x upc u)) :
    let z := slotAtWord s c k x upc u
    runGo c k z upc u (wordBegun s c k x upc u) = setSlot c k { z with upc := upc + 1, went := true, lrdy := false }
      (wentLun x.op (rbLow c (selMask z u) (busPut c (.cmd (selMask z u) b) (wordBegun s c k x upc u)))) := by
  intro z
  have hgo : ¬(mOp u = 2 ∧ s.banked = true) := by simp [hbank]
  have hopen : closesFrame u = false := by simp [closesFrame, hop]
  obtain ⟨pins, hput⟩ := chan_busPut c (.cmd (selMask z u) b) (wordBegun s c k x upc u) 0
  obtain ⟨_, _, _, _, _, _, hbegun⟩ := (wordBegun_pins h hgo).chan
  rw [wordStart_of_open hopen] at hbegun
  have hdrive : driveCycle c k z u true b (wordBegun s c k x upc u) = busPut c (.cmd (selMask z u) b) (wordBegun s c k x upc u) := by
    rw [driveCycle, slotKx_wordBegun h hgo, hkx]
    rfl
  have hslots : ((busPut c (.cmd (selMask z u) b) (wordBegun s c k x upc u)).chan c).slots = ((wordStart s c k x u).chan c).slots := by
    rw [hput, wordBegun_slots h hgo]
  have hnone : ((busPut c (.cmd (selMask z u) b) (wordBegun s c k x upc u)).chan c).items.isEmpty = true := by rw [hput, hbegun, hitems]; rfl
  rw [runGo, hb]
  dsimp only
  rw [hdrive]
  generalize busPut c (.cmd (selMask z u) b) (wordBegun s c k x upc u) = t1 at hslots hnone
  rw [sendItems, if_pos hnone]
  have hkeep := keepFrames_slotAtWord (t := rbLow c (selMask z u) t1) h (by rw [rbLow_chan, hslots])
  rw [rbLow] at hkeep
  rw [hkeep, goNext_of_notLast hlast, (slotAtWord_begun h).op]
  rfl

/-- GO puts its command on the pins and takes FL_RB_N of the selected targets as low; the slot's LUN has its operation in flight (R171). -/
theorem runGo_wordBegun (h : WordAt s c k x w upc u) (hlast : NotLast upc) (hop : mOp u = 2) (hbank : s.banked = false) (hkx : slotKx s c x = false)
    (hitems : (s.chan c).items = []) {b : Byte}
    (hb : routeByte (wordBegun s c k x upc u) c (slotAtWord s c k x upc u) u = some (b, wordBegun s c k x upc u)) :
    let z := slotAtWord s c k x upc u
    let t := runGo c k z upc u (wordBegun s c k x upc u)
    Tab.find k (t.chan c).slots = some { z with upc := upc + 1, went := true, lrdy := false } ∧
      (∀ j, j ≠ k → Tab.find j (t.chan c).slots = Tab.find j (s.chan c).slots) ∧ (∀ l, l ≠ x.op.lun → t.lun l = s.lun l) ∧
      (t.chan c).bus = (s.chan c).bus ++ [.cmd (selMask z u) b] ∧ (t.chan c).rb = (s.chan c).rb &&& ~~~(BitVec.ofNat 8 (selMask z u)) := by
  intro z t
  have hgo : ¬(mOp u = 2 ∧ s.banked = true) := by simp [hbank]
  have hopen : closesFrame u = false := by simp [closesFrame, hop]
  obtain ⟨pins, hput⟩ := chan_busPut c (.cmd (selMask z u) b) (wordBegun s c k x upc u) 0
  obtain ⟨_, _, _, _, _, _, hbegun⟩ := (wordBegun_pins h hgo).chan
  rw [wordStart_of_open hopen] at hbegun
  have hmd : (busPut c (.cmd (selMask z u) b) (wordBegun s c k x upc u)).md = s.md := (busPut_md _ _ _ _).trans (lun_wordBegun h hgo)
  have ht : t = setSlot c k { z with upc := upc + 1, went := true, lrdy := false }
      (wentLun x.op (rbLow c (selMask z u) (busPut c (.cmd (selMask z u) b) (wordBegun s c k x upc u)))) :=
    runGo_parts h hlast hop hbank hkx hitems hb
  rw [ht]
  generalize busPut c (.cmd (selMask z u) b) (wordBegun s c k x upc u) = t1 at hput hmd
  have hchan : (wentLun x.op (rbLow c (selMask z u) t1)).chan c = { (wordBegun s c k x upc u).chan c with
      bus := (s.chan c).bus ++ [.cmd (selMask z u) b], pins := pins, rb := (s.chan c).rb &&& ~~~(BitVec.ofNat 8 (selMask z u)) } := by
    rw [wentLun_chan, rbLow_chan, hput, hbegun]
  refine ⟨?_, fun j hj => ?_, fun l hl => ?_, ?_, ?_⟩
  · rw [setSlot_chan]
    exact Tab.find_put_same _ _ _
  · rw [setSlot_chan]
    refine (Tab.find_put_ne hj _ _).trans ?_
    rw [hchan]
    exact wordBegun_otherSlots h hgo j hj
  · rw [setSlot_lun, wentLun_lun_ne _ _ hl, State.lun, rbLow_md, hmd, State.lun]
  · rw [setSlot_chan, hchan]
  · rw [setSlot_chan, hchan]

/-- Under BANK a GO only branches (R171). -/
theorem uRow_bankedGo (h : WordAt s c k x w upc u) (hop : mOp u = 2) (hbank : s.banked = true) (hspace : InSpace (mTarget u)) :
    uRow c w (opIs 2) [] {} s = .next (setSlot c k { x with last := upc, upc := mTarget u } s) := by
  obtain ⟨hon, hact, hx, hfault, hhalt, hmay, hfetch, hrate, hres⟩ := h
  have hu : (fetchWord s c x.upc w).2 = u := by rw [hfetch]
  have hrun : runWord c k x w [] {} s = setSlot c k { x with last := upc, upc := mTarget u } s := by
    rw [runWord, hfetch, if_neg (by show ¬ 0x13 ≤ mOp u; omega), if_neg (by show ¬ wordReserved u = true; simp [hres]), if_pos ⟨hop, hbank⟩]
    exact goTo_of_inSpace hspace _ _ _ _ _
  simp [uRow, hact, hx, hon, hfault, hhalt, hmay, hu, opIs, hop, wordOrRate, hrate, hrun]

theorem SlotTo.setSlot (s : State) (c k : Nat) (y : Slot) : SlotTo s (Machine.setSlot c k y s) c k y := by
  refine ⟨s.setChan_eq c _, ?_, fun j hj => ?_, fun d hd => s.chan_setChan_ne hd _⟩
  · rw [setSlot_chan]
    exact Tab.find_put_same _ _ _
  · rw [setSlot_chan]
    exact Tab.find_put_ne hj _ _

/-! ## XFER outside KX-DDR -/

/-- The state of an XFER before its bytes: FCHK is cleared. -/
def xferBegun (s : State) (c k : Nat) (x : Slot) (upc : BitVec 15) (u : BitVec 96) : State :=
  (wordBegun s c k x upc u).setChan c { (wordBegun s c k x upc u).chan c with fchk := false }

theorem xferBegun_chan : (xferBegun s c k x upc u).chan c = { (wordBegun s c k x upc u).chan c with fchk := false } := State.chan_setChan_same _ _ _

theorem ChanStep.xferBegun : ChanStep (wordBegun s c k x upc u) (xferBegun s c k x upc u) c := .setChan _ c _

theorem xferBegun_step (h : WordAt s c k x w upc u) (hop : mOp u = 3) (b : BusCyc) (odt : Nat) (y : Slot) :
    WordTo s (setSlot c k y (busPut c b (xferBegun s c k x upc u) odt)) c k y ∧
      ((setSlot c k y (busPut c b (xferBegun s c k x upc u) odt)).chan c).bus = ((wordStart s c k x u).chan c).bus ++ [b] := by
  have hgo : ¬(mOp u = 2 ∧ s.banked = true) := by omega
  refine ⟨wordTo_of_wordBegun_step h hgo (ChanStep.xferBegun.trans (.busPut c b _ odt)) ?_ y, ?_⟩
  · rw [slots_busPut, xferBegun_chan]
  · rw [bus_setSlot, bus_busPut, xferBegun_chan, ← wordBegun_bus h hgo]

theorem xferLen_slotAtWord (h : WordAt s c k x w upc u) :
    xferLen (slotAtWord s c k x upc u) u false = if (mImm u).toNat % 2 ^ 17 = 0 then x.op.xlen + 1 else (mImm u).toNat % 2 ^ 17 := by
  simp only [xferLen, (slotAtWord_begun h).op]
  rfl

/-- An XFER of one byte that ROUTE names, sent as often as the word asks. -/
theorem runXfer_byte (h : WordAt s c k x w upc u) (hlast : NotLast upc) (hop : mOp u = 3) (hkx : slotKx s c x = false) (hr : mRoute u / 32 < 4) {b : Byte}
    (hb : routeByte (wordBegun s c k x upc u) c (slotAtWord s c k x upc u) u = some (b, wordBegun s c k x upc u)) (din : List Byte) :
    runXfer c k (slotAtWord s c k x upc u) upc u din (wordBegun s c k x upc u) =
      setSlot c k { slotAtWord s c k x upc u with upc := upc + 1 } (busPut c (.dataIn (selMask (slotAtWord s c k x upc u) u)
        (List.replicate (xferLen (slotAtWord s c k x upc u) u false) b)) (xferBegun s c k x upc u)) := by
  have h4 : ¬ mRoute u / 32 = 4 := by omega
  have h5 : ¬ 5 ≤ mRoute u / 32 := by omega
  simp only [runXfer, nextUpc_of_notLast hlast, slotKx_wordBegun h (by omega : ¬(mOp u = 2 ∧ s.banked = true)), hkx, h4, h5, if_false, hb,
    Bool.false_eq_true]
  rfl

/-- An XFER of the operation's own bytes to the die. -/
theorem runXfer_data (h : WordAt s c k x w upc u) (hlast : NotLast upc) (hop : mOp u = 3) (hkx : slotKx s c x = false) (hr : mRoute u / 32 = 4) (din : List Byte) :
    let z := slotAtWord s c k x upc u
    let n := xferLen z u false
    runXfer c k z upc u din (wordBegun s c k x upc u) =
      setSlot c k { z with upc := upc + 1, sent := z.sent + n, inSent := z.inSent } (busPut c (.dataIn (selMask z u) (dataOf z (mRoute u % 32) n))
        (xferBegun s c k x upc u)) := by
  simp only [runXfer, nextUpc_of_notLast hlast, slotKx_wordBegun h (by omega : ¬(mOp u = 2 ∧ s.banked = true)), hkx, hr, if_true, if_false,
    Bool.false_eq_true, Bool.false_and]
  rfl

/-- The pins of an XFER from the die. -/
def xferAsked (s : State) (c k : Nat) (x : Slot) (upc : BitVec 15) (u : BitVec 96) : State :=
  busPut c (.dataOut (selMask (slotAtWord s c k x upc u) u) (xferLen (slotAtWord s c k x upc u) u false)) (xferBegun s c k x upc u)
    (if (mPins u).getLsbD 6 then odtOf (wordBegun s c k x upc u) c else 0)

/-- An XFER from the die: the bytes go where ROUTE says. -/
theorem runXfer_in (h : WordAt s c k x w upc u) (hlast : NotLast upc) (hop : mOp u = 3) (hkx : slotKx s c x = false) (hr : 5 ≤ mRoute u / 32)
    (hok : ¬((mRoute u / 32 = 6 ∧ mRoute u % 32 ≠ 0) ∨ (mRoute u / 32 = 7 ∧ 8 ≤ mRoute u % 32))) (din : List Byte) :
    let z := slotAtWord s c k x upc u
    let y := { z with upc := upc + 1 }
    runXfer c k z upc u din (wordBegun s c k x upc u) = xferIn c k (mRoute u) y y (din.take (xferLen z u false)) false (xferAsked s c k x upc u) := by
  have h4 : ¬ mRoute u / 32 = 4 := by omega
  simp only [runXfer, nextUpc_of_notLast hlast, slotKx_wordBegun h (by omega : ¬(mOp u = 2 ∧ s.banked = true)), hkx, h4, hr, if_true, if_false, hok,
    Bool.false_eq_true]
  rfl

theorem xferAsked_step (h : WordAt s c k x w upc u) (hop : mOp u = 3) :
    ChanStep s (xferAsked s c k x upc u) c ∧ (∀ j, j ≠ k → Tab.find j ((xferAsked s c k x upc u).chan c).slots = Tab.find j (s.chan c).slots) ∧
      ((xferAsked s c k x upc u).chan c).bus =
        ((wordStart s c k x u).chan c).bus ++ [.dataOut (selMask (slotAtWord s c k x upc u) u) (xferLen (slotAtWord s c k x upc u) u false)] ∧
      ((xferAsked s c k x upc u).chan c).gs = (s.chan c).gs := by
  have hgo : ¬(mOp u = 2 ∧ s.banked = true) := by omega
  obtain ⟨_, _, _, _, _, _, _, _, _, hchan⟩ := wordBegun_chan h hgo
  obtain ⟨_, hput⟩ := chan_busPut c (.dataOut (selMask (slotAtWord s c k x upc u) u) (xferLen (slotAtWord s c k x upc u) u false)) (xferBegun s c k x upc u)
    (if (mPins u).getLsbD 6 then odtOf (wordBegun s c k x upc u) c else 0)
  refine ⟨(wordBegun_step h hgo).trans (ChanStep.xferBegun.trans (.busPut c _ _ _)), fun j hj => ?_, ?_, ?_⟩
  · rw [xferAsked, slots_busPut, xferBegun_chan]
    exact wordBegun_otherSlots h hgo j hj
  · rw [xferAsked, bus_busPut, xferBegun_chan, ← wordBegun_bus h hgo]
  · rw [xferAsked, hput, xferBegun_chan, hchan]

end

/-! ## Bytes from the die -/

/-- Bytes taken into the channel buffer leave the other slots and the pins (R242). -/
theorem storeIn_status (c : Nat) (x : Slot) (bslot : Nat) (bs : List Byte) (bad : Bool) (s : State) :
    ∃ buf, (storeIn c x bslot bs bad s).2 = s.setChan c { s.chan c with buf := buf } ∨ (storeIn c x bslot bs bad s).2 = s := by
  unfold storeIn
  split
  · split
    · exact ⟨_, .inl rfl⟩
    · exact ⟨[], .inr rfl⟩
  · exact ⟨[], .inr rfl⟩

theorem storeIn_slot (c : Nat) (x : Slot) (bslot : Nat) (bs : List Byte) (bad : Bool) (s : State) :
    (storeIn c x bslot bs bad s).1 = { x with got := (storeIn c x bslot bs bad s).1.got, raw := (storeIn c x bslot bs bad s).1.raw } := by
  unfold storeIn
  split
  · split <;> rfl
  · rfl

/-- What stays as bytes are taken into the buffer. -/
theorem storeIn_chan (c : Nat) (x : Slot) (bslot : Nat) (bs : List Byte) (bad : Bool) (s : State) :
    ChanStep s (storeIn c x bslot bs bad s).2 c ∧ (storeIn c x bslot bs bad s).2.regs = s.regs ∧
      ∃ buf, ((storeIn c x bslot bs bad s).2).chan c = { s.chan c with buf := buf } := by
  obtain ⟨buf, h | h⟩ := storeIn_status c x bslot bs bad s
  · rw [h]
    exact ⟨.setChan s c _, rfl, buf, State.chan_setChan_same _ _ _⟩
  · rw [h]
    exact ⟨.rfl, rfl, (s.chan c).buf, rfl⟩

/-- A codeword of the operation goes to its buffer slot. -/
theorem storeIn_codeword {c : Nat} {x : Slot} {v : Want} (hv : x.op.wants[x.got]? = some v) (hk : v.kind = 0) (bslot : Nat) (bs : List Byte) (bad : Bool) (s : State) :
    (storeIn c x bslot bs bad s).1.got = x.got + 1 ∧
      ((Tab.find bslot (((storeIn c x bslot bs bad s).2).chan c).buf).map fun z => (z.why, z.page, z.cw)) = some (v.why, v.page, v.cw) := by
  simp only [storeIn, hv, hk, if_true, State.chan_setChan_same, Tab.find_put_same]
  exact ⟨trivial, rfl⟩

theorem storeIn_raw {c : Nat} {x : Slot} (hv : x.op.wants[x.got]? = none) (bslot : Nat) (bs : List Byte) (bad : Bool) (s : State) :
    (storeIn c x bslot bs bad s).1.raw = x.raw ++ bs := by
  simp only [storeIn, hv]

theorem xferIn_buffer (c k route : Nat) (x wait : Slot) (bs : List Byte) (bad : Bool) (s : State) (hr : route / 32 = 5) :
    xferIn c k route x wait bs bad s = setSlot c k (storeIn c x ((x.op.bufslot + route % 32) % 32) bs bad s).1 (storeIn c x ((x.op.bufslot + route % 32) % 32) bs bad s).2 := by
  simp only [xferIn, hr]

/-! ## DATA-OUT frames -/

section
variable {s : State} {c k slot : Nat} {x : Slot} {again : Bool}

theorem exec_dataOutFrame_taken (hon : s.coreOn = true) (hact : (s.chan c).act = some k) (hx : Tab.find k (s.chan c).slots = some x)
    (hst : x.st = .frame slot again) (bs : List Byte) (crc : Word) (h : crc32c bs = crc ∨ again = true) :
    exec (.dataOutFrame c bs crc) s = .next
      (let good := crc32c bs == crc
       let t := if good then s else s.inc Fld.stkKxCntDoutCrc c
       xferIn c k slot { x with st := .ready } { x with st := .frame slot false } bs (!good) (t.setChan c { t.chan c with fchk := !good })) := by
  show execDataOutFrame c bs crc s = _
  have hc : (crc32c bs == crc || again) = true := by simpa using h
  simp only [execDataOutFrame, hact, hx, hst, hon, hc, if_true, onlyIf_true]

theorem exec_dataOutFrame_again (hon : s.coreOn = true) (hact : (s.chan c).act = some k) (hx : Tab.find k (s.chan c).slots = some x)
    (hst : x.st = .frame slot false) (bs : List Byte) (crc : Word) (h : crc32c bs ≠ crc) :
    exec (.dataOutFrame c bs crc) s = .next (setSlot c k { x with st := .frame slot true }
      (busPut c (.frameOut (2 ^ slotTgt x) bs.length) (busPut c (.ca (2 ^ slotTgt x) (rereadFrame s x slot bs.length)) s))) := by
  show execDataOutFrame c bs crc s = _
  have hc : (crc32c bs == crc || false) = false := by simpa using h
  simp only [execDataOutFrame, hact, hx, hst, hon, hc, onlyIf_true]
  rfl

end

section
variable {s : State} {c k : Nat} {x : Slot} {w u : BitVec 96} {upc : BitVec 15}

/-- The bytes of one XFER outside KX-DDR. -/
def xferCount (x : Slot) (u : BitVec 96) : Nat := if (mImm u).toNat % 2 ^ 17 = 0 then x.op.xlen + 1 else (mImm u).toNat % 2 ^ 17

/-- The targets that SEL names. -/
def selNamed (x : Slot) (u : BitVec 96) : Nat := if mSel u = 1 then 2 ^ slotTgt x else if mSel u = 2 then x.op.mask else 0

theorem exec_stkXfer (h : WordAt s c k x w upc u) (hop : mOp u = 3) (din : List Byte) :
    exec (.stkXfer c w din) s = .next (runXfer c k (slotAtWord s c k x upc u) upc u din (wordBegun s c k x upc u)) := by
  have hexec := uRow_of_opcode h hop (by decide) (by decide) din {}
  simp only [runOp, hop] at hexec
  exact hexec

theorem xferLen_eq_count (h : WordAt s c k x w upc u) : xferLen (slotAtWord s c k x upc u) u false = xferCount x u := xferLen_slotAtWord h

theorem selMask_eq_named (h : WordAt s c k x w upc u) : selMask (slotAtWord s c k x upc u) u = selNamed x u := selMask_slotAtWord h

/-- An XFER drives its cycle, and only then sets its slot. -/
theorem xferBegun_bus (h : WordAt s c k x w upc u) (hop : mOp u = 3) {b b' : BusCyc} (hb : b = b') (odt : Nat) {y y' : Slot} (hy : y = y') :
    WordTo s (setSlot c k y (busPut c b (xferBegun s c k x upc u) odt)) c k y' ∧
      ((setSlot c k y (busPut c b (xferBegun s c k x upc u) odt)).chan c).bus = ((wordStart s c k x u).chan c).bus ++ [b'] := by
  subst hb hy
  exact xferBegun_step h hop b odt y

/-- An XFER of the operation's bytes to the die. -/
theorem exec_stkXfer_data (h : WordAt s c k x w upc u) (hlast : NotLast upc) (hop : mOp u = 3) (hkx : slotKx s c x = false) (din : List Byte)
    (hr : mRoute u / 32 = 4) : ∃ t, exec (.stkXfer c w din) s = .next t ∧
      WordTo s t c k { slotAtWord s c k x upc u with upc := upc + 1, sent := x.sent + xferCount x u } ∧
      (t.chan c).bus = ((wordStart s c k x u).chan c).bus ++
        [.dataIn (selNamed x u) (((opData x.op).drop (x.sent + 4608 * (mRoute u % 32))).take (xferCount x u))] := by
  refine ⟨_, exec_stkXfer h hop din, ?_⟩
  rw [runXfer_data h hlast hop hkx hr din]
  have hz := slotAtWord_begun h
  refine xferBegun_bus h hop ?_ 0 ?_
  · rw [dataOf, xferLen_eq_count h, selMask_eq_named h, hz.op, hz.sent]
  · rw [xferLen_eq_count h, hz.sent]

/-- The pins of an XFER from the die are as the spec says, whatever it does with the bytes. -/
theorem xferAsked_bus (h : WordAt s c k x w upc u) (hop : mOp u = 3) :
    ((xferAsked s c k x upc u).chan c).bus = ((wordStart s c k x u).chan c).bus ++ [.dataOut (selNamed x u) (xferCount x u)] := by
  obtain ⟨-, -, hbus, -⟩ := xferAsked_step h hop
  rw [hbus, selMask_slotAtWord h, xferLen_slotAtWord h]
  rfl

/-- An XFER from the die into the channel buffer, or kept by the operation. -/
theorem exec_stkXfer_buffer (h : WordAt s c k x w upc u) (hlast : NotLast upc) (hop : mOp u = 3) (hkx : slotKx s c x = false) (din : List Byte)
    (hr : mRoute u / 32 = 5) : ∃ t y, exec (.stkXfer c w din) s = .next t ∧ WordTo s t c k y ∧
      y = { slotAtWord s c k x upc u with upc := upc + 1, got := y.got, raw := y.raw } ∧
      (t.chan c).bus = ((wordStart s c k x u).chan c).bus ++ [.dataOut (selNamed x u) (xferCount x u)] ∧
      (∀ v, x.op.wants[x.got]? = some v → v.kind = 0 → y.got = x.got + 1 ∧
        ((Tab.find ((x.op.bufslot + mRoute u % 32) % 32) (t.chan c).buf).map fun z => (z.why, z.page, z.cw)) = some (v.why, v.page, v.cw)) ∧
      (x.op.wants[x.got]? = none → y.raw = x.raw ++ din.take (xferCount x u)) := by
  obtain ⟨hstep, hslots, -, -⟩ := xferAsked_step h hop
  have hz := slotAtWord_begun h
  have hexec := exec_stkXfer h hop din
  rw [runXfer_in h hlast hop hkx (by omega) (by omega) din, xferIn_buffer _ _ _ _ _ _ _ _ hr, xferLen_eq_count h] at hexec
  have hbus := xferAsked_bus h hop
  generalize xferAsked s c k x upc u = t0 at hexec hstep hslots hbus
  generalize slotAtWord s c k x upc u = z at hexec hz
  obtain ⟨hst, -, buf, hchan⟩ := storeIn_chan c { z with upc := upc + 1 } ((z.op.bufslot + mRoute u % 32) % 32) (din.take (xferCount x u)) false t0
  refine ⟨_, _, hexec, (hstep.trans hst).wordTo_setSlot (fun j hj => ?_) _, storeIn_slot _ _ _ _ _ _, ?_, fun v hv hkind => ?_, fun hv => ?_⟩
  · rw [hchan]
    exact hslots j hj
  · rw [bus_setSlot, hchan]
    exact hbus
  · rw [← hz.op, ← hz.got] at hv
    rw [setSlot_chan, ← hz.op, ← hz.got]
    exact storeIn_codeword (x := { z with upc := upc + 1 }) (c := c) hv hkind _ _ false t0
  · rw [← hz.op, ← hz.got] at hv
    rw [← hz.raw]
    exact storeIn_raw (x := { z with upc := upc + 1 }) hv _ _ _ _

/-- An XFER from the die to STATUS. -/
theorem exec_stkXfer_status (h : WordAt s c k x w upc u) (hlast : NotLast upc) (hop : mOp u = 3) (hkx : slotKx s c x = false) (din : List Byte)
    (hr : mRoute u = 192) : ∃ t, exec (.stkXfer c w din) s = .next t ∧
      WordTo s t c k { slotAtWord s c k x upc u with upc := upc + 1, status := ((din.take (xferCount x u)).getLast?).getD 0 } ∧
      (t.chan c).bus = ((wordStart s c k x u).chan c).bus ++ [.dataOut (selNamed x u) (xferCount x u)] := by
  obtain ⟨hstep, hslots, -, -⟩ := xferAsked_step h hop
  have hexec := exec_stkXfer h hop din
  rw [runXfer_in h hlast hop hkx (by omega) (by omega) din, xferLen_eq_count h] at hexec
  have hbus := xferAsked_bus h hop
  have hkx' : slotKx (xferAsked s c k x upc u) c { slotAtWord s c k x upc u with upc := upc + 1 } = false :=
    (slotKx_congr (slotAtWord_begun h) hstep).trans hkx
  generalize xferAsked s c k x upc u = t0 at hexec hstep hslots hbus hkx'
  have hroute : mRoute u / 32 = 6 := by omega
  simp only [xferIn, hroute, takeStatus, hkx', Bool.false_and, Bool.false_eq_true, if_false] at hexec
  exact ⟨_, hexec, hstep.wordTo_setSlot hslots _, by rw [bus_setSlot, hbus]⟩

/-- An XFER from the die to a G register. -/
theorem exec_stkXfer_greg (h : WordAt s c k x w upc u) (hlast : NotLast upc) (hop : mOp u = 3) (hkx : slotKx s c x = false) (din : List Byte)
    (hlo : 224 ≤ mRoute u) (hhi : mRoute u < 232) : ∃ t y, exec (.stkXfer c w din) s = .next t ∧ WordTo s t c k y ∧
      y = { slotAtWord s c k x upc u with upc := upc + 1, g := y.g, raw := x.raw ++ din.take (xferCount x u) } ∧
      (mRoute u < 228 → y.g = x.g.set (mRoute u % 8) ((((din.take (xferCount x u)).getLast?).getD 0).setWidth 32)) ∧
      (228 ≤ mRoute u → y.g = x.g ∧ (t.chan c).gs = (s.chan c).gs.set (mRoute u % 8 - 4) ((((din.take (xferCount x u)).getLast?).getD 0).setWidth 32)) := by
  obtain ⟨hstep, hslots, -, hgs⟩ := xferAsked_step h hop
  have hz := slotAtWord_begun h
  have hexec := exec_stkXfer h hop din
  rw [runXfer_in h hlast hop hkx (by omega) (by omega) din, xferLen_eq_count h] at hexec
  generalize xferAsked s c k x upc u = t0 at hexec hstep hslots hgs
  generalize slotAtWord s c k x upc u = z at hexec hz
  have hroute : mRoute u / 32 = 7 := by omega
  simp only [xferIn, hroute] at hexec
  by_cases hd : mRoute u % 8 < 4
  · simp only [gSet, hd, if_true] at hexec
    exact ⟨_, _, hexec, hstep.wordTo_setSlot hslots _, by rw [← hz.raw], fun _ => by rw [← hz.g], fun hge => absurd hd (by omega)⟩
  · simp only [gSet, hd, if_false] at hexec
    refine ⟨_, _, hexec, (hstep.trans (.setChan _ c _)).wordTo_setSlot (fun j hj => ?_) _, by rw [← hz.raw], fun hlt => absurd hlt (by omega), fun _ =>
      ⟨hz.g, ?_⟩⟩
    · rw [State.chan_setChan_same]
      exact hslots j hj
    · rw [setSlot_chan, State.chan_setChan_same, ← hgs]

end

section
variable {s : State} {c k slot : Nat} {x : Slot} {again : Bool}

/-- A frame whose CRC is right ends its XFER (R149). -/
theorem exec_dataOutFrame_good (hon : s.coreOn = true) (hact : (s.chan c).act = some k) (hx : Tab.find k (s.chan c).slots = some x) (hst : x.st = .frame slot again)
    (hslot : slot / 32 = 5) (bs : List Byte) (crc : Word) (hgood : crc32c bs = crc) :
    ∃ t y, exec (.dataOutFrame c bs crc) s = .next t ∧ Tab.find k (t.chan c).slots = some y ∧ y.st = .ready ∧ y.upc = x.upc ∧
      (t.chan c).fchk = false ∧ t.regs = s.regs := by
  have hexec := exec_dataOutFrame_taken hon hact hx hst bs crc (.inl hgood)
  simp only [hgood, beq_self_eq_true, if_true, Bool.not_true, xferIn_buffer _ _ _ _ _ _ _ _ hslot] at hexec
  obtain ⟨-, hregs, buf, hchan⟩ := storeIn_chan c { x with st := .ready } ((x.op.bufslot + slot % 32) % 32) bs false
    (s.setChan c { s.chan c with fchk := false })
  refine ⟨_, _, hexec, by rw [setSlot_chan]; exact Tab.find_put_same _ _ _, by rw [storeIn_slot], by rw [storeIn_slot], ?_, hregs⟩
  · rw [setSlot_chan, hchan, State.chan_setChan_same]

/-- A frame whose CRC is wrong is read once more, with a column change (R149). -/
theorem exec_dataOutFrame_reread (hon : s.coreOn = true) (hact : (s.chan c).act = some k) (hx : Tab.find k (s.chan c).slots = some x) (hst : x.st = .frame slot false)
    (bs : List Byte) (crc : Word) (hbad : crc32c bs ≠ crc) :
    ∃ t, exec (.dataOutFrame c bs crc) s = .next t ∧ SlotTo s t c k { x with st := .frame slot true } ∧
      (t.chan c).bus = (s.chan c).bus ++ [.ca (2 ^ slotTgt x) (rereadFrame s x slot bs.length), .frameOut (2 ^ slotTgt x) bs.length] := by
  refine ⟨_, exec_dataOutFrame_again hon hact hx hst bs crc hbad, ⟨?_, ?_, fun j hj => ?_, fun d hd => ?_⟩, ?_⟩
  · exact State.chOnly_trans (State.chOnly_trans (State.setChan_eq s c _) (State.setChan_eq _ c _)) (State.setChan_eq _ c _)
  · rw [setSlot_chan]
    exact Tab.find_put_same _ _ _
  · rw [setSlot_chan, slots_busPut, slots_busPut]
    exact Tab.find_put_ne hj _ _
  · exact (State.chan_setChan_ne _ hd _).trans ((State.chan_setChan_ne _ hd _).trans (State.chan_setChan_ne _ hd _))
  · rw [bus_setSlot, bus_busPut, bus_busPut, List.append_assoc]
    rfl

/-- A second frame whose CRC is wrong goes on with the error counted (R149). -/
theorem exec_dataOutFrame_bad (hon : s.coreOn = true) (hact : (s.chan c).act = some k) (hx : Tab.find k (s.chan c).slots = some x) (hst : x.st = .frame slot again)
    (hslot : slot / 32 = 5) (bs : List Byte) (crc : Word) (hbad : crc32c bs ≠ crc) (hsecond : again = true) :
    ∃ t y, exec (.dataOutFrame c bs crc) s = .next t ∧ Tab.find k (t.chan c).slots = some y ∧ y.st = .ready ∧
      (t.chan c).fchk = true ∧ t.get Fld.stkKxCntDoutCrc c = min Fld.stkKxCntDoutCrc.max (s.get Fld.stkKxCntDoutCrc c + 1) := by
  have hexec := exec_dataOutFrame_taken hon hact hx hst bs crc (.inr hsecond)
  have hb : (crc32c bs == crc) = false := by simpa using hbad
  simp only [hb, Bool.false_eq_true, if_false, Bool.not_false, xferIn_buffer _ _ _ _ _ _ _ _ hslot] at hexec
  set t0 := s.inc Fld.stkKxCntDoutCrc c with ht0
  obtain ⟨-, hregs, buf, hchan⟩ := storeIn_chan c { x with st := .ready } ((x.op.bufslot + slot % 32) % 32) bs true
    (t0.setChan c { t0.chan c with fchk := true })
  refine ⟨_, _, hexec, by rw [setSlot_chan]; exact Tab.find_put_same _ _ _, by rw [storeIn_slot], ?_, ?_⟩
  · rw [setSlot_chan, hchan, State.chan_setChan_same]
  · refine (State.get_of_regs (s := t0) hregs _ _).trans ?_
    exact s.get_inc_same Fld.stkKxCntDoutCrc (by decide) c 1

end

/-! ## The obligation -/

/-- Settles O12: each word's cycles on the pins in the state as it has begun, and a data frame by its CRC. -/
theorem stokerPins : Obligations.StokerPins := by
  refine ⟨fun s c k x w u upc h hlast => ?_, fun s c k slot x bs crc again hon hact hx hst hslot => ⟨exec_dataOutFrame_good hon hact hx hst hslot bs crc,
      fun hbad hfirst => exec_dataOutFrame_reread hon hact hx (hfirst ▸ hst) bs crc hbad, exec_dataOutFrame_bad hon hact hx hst hslot bs crc⟩⟩
  · intro z bus0
    refine ⟨fun hop => ?nop, fun hop => ?tdly, fun hop => ?pinset, fun hkx b hb => ?named, fun hop hbank hspace => ?bankedGo, fun hkx hop din => ?xfer⟩
    case nop =>
      refine ⟨_, uRow_of_opcode h hop (by decide) (by decide) [] {}, ?_⟩
      simp only [runOp, hop, goNext_of_notLast hlast]
      exact ⟨wordTo_setSlot_wordBegun h (by omega) _, by rw [bus_setSlot, wordBegun_bus h (by omega)]⟩
    case tdly =>
      refine ⟨_, uRow_of_opcode h hop (by decide) (by decide) [] {}, ?_⟩
      simp only [runOp, hop, runTdly, goNext_of_notLast hlast]
      refine ⟨wordTo_of_wordBegun_step h (by omega) (.setChan _ c _) (by rw [State.chan_setChan_same]) _, ?_⟩
      rw [bus_setSlot, State.chan_setChan_same, wordBegun_bus h (by omega)]
    case pinset =>
      refine ⟨_, uRow_of_opcode h hop (by decide) (by decide) [] {}, ?_⟩
      simp only [runOp, hop, runPinset, goNext_of_notLast hlast]
      refine ⟨wordTo_of_wordBegun_step h (by omega) (.busPut c _ _ 0) (slots_busPut c _ _ 0) _, ?_⟩
      rw [bus_setSlot, bus_busPut, wordBegun_bus h (by omega)]
    case named =>
      intro m
      have hm : selMask z u = m := selMask_slotAtWord h
      have hbyte (hgo : ¬(mOp u = 2 ∧ s.banked = true)) : routeByte (wordBegun s c k x upc u) c z u = some (b, wordBegun s c k x upc u) :=
        routeByte_named (slotAtWord_begun h).op (gGet_wordBegun h hgo) hb
      refine ⟨fun hop hle => ?_, fun hop hbank hitems => ?_, fun hop din => ?_⟩
      · refine ⟨_, uRow_of_wordAt h (mine := fun w => opIs 0x01 w || decide (0x13 ≤ mOp w) || (mOp w == 0x10 && decide (5 ≤ (mImm w).toNat % 256)))
          (by simp [opIs, hop]) (by omega) (by omega) [] {}, ?_⟩
        simp only [runOp, hop]
        rw [← hm]
        exact runCyc_wordBegun h hlast hop hkx hle (hbyte (by omega))
      · refine ⟨_, uRow_of_wordAt h (mine := opIs 2) (by simp [opIs, hop]) (by omega) (by simp [hbank]) [] {}, ?_⟩
        simp only [runOp, hop]
        rw [← hm]
        exact runGo_wordBegun h hlast hop hbank hkx hitems (hbyte (by simp [hbank]))
      · refine ⟨_, uRow_of_opcode h hop (by decide) (by decide) din {}, ?_⟩
        have hlen : xferLen x u false = xferLen z u false := by simp only [xferLen, (slotAtWord_begun h).op, z]
        simp only [runOp, hop]
        rw [runXfer_byte h hlast hop hkx (by omega) (hbyte (by omega)) din, ← hm, hlen]
        exact xferBegun_step h hop _ 0 _
    case bankedGo =>
      exact ⟨_, uRow_bankedGo h hop hbank hspace, SlotTo.setSlot s c k _, bus_setSlot c k _ s, rfl⟩
    case xfer =>
      exact ⟨exec_stkXfer_data h hlast hop hkx din, exec_stkXfer_buffer h hlast hop hkx din, exec_stkXfer_status h hlast hop hkx din,
        exec_stkXfer_greg h hlast hop hkx din⟩

end Sys2Proof.Machine
end

section
/-! PROOFS. Stoker REPORT, END, the PHY actions and the watchdog (R181, R188, R189, Table 05-5). -/

namespace Sys2Proof.Machine

section
variable {s : State} {c k : Nat} {x : Slot} {w u : BitVec 96} {upc : BitVec 15}

/-! ## REPORT and END -/

/-- The channel as an operation begins keeps its reports. -/
theorem reports_wordBegun (h : WordAt s c k x w upc u) (hgo : mOp u ≠ 2) : ((wordBegun s c k x upc u).chan c).reports = (s.chan c).reports := by
  obtain ⟨_, _, _, _, _, _, _, _, _, hchan⟩ := wordBegun_chan h fun e => hgo e.1
  rw [hchan]

/-- REPORT posts its event and STATUS. -/
theorem exec_stkReport (h : WordAt s c k x w upc u) (hop : mOp u = 0x11) (hlast : NotLast upc) :
    ∃ t, exec (.stkReport c w) s = .next t ∧ WordTo s t c k { slotAtWord s c k x upc u with upc := upc + 1 } ∧
      (t.chan c).reports = (s.chan c).reports ++ [(k, (mImm u).toNat % 256, x.status)] := by
  have hgo : mOp u ≠ 2 := by omega
  refine ⟨_, uRow_of_opcode h hop (by decide) (by decide) [] {}, ?_⟩
  simp only [runOp, hop, runReport, goNext_of_notLast hlast, (slotAtWord_begun h).status]
  refine ⟨wordTo_of_wordBegun_step h (fun e => hgo e.1) (.setChan _ c _) (by rw [State.chan_setChan_same]) _, ?_⟩
  rw [setSlot_chan, State.chan_setChan_same, reports_wordBegun h hgo]

theorem haltAt_of_not_halting {t : State} (h : (t.chan c).halting = false) : haltAt c t = t := by
  rw [haltAt, h]
  rfl

/-- What `endSlot` leaves the scheduler to evaluate (R238). -/
def endedOf (code : Nat) (x : Slot) : Ended :=
  { op := x.op, code := code, status := x.status, went := x.went, raw := x.raw, sent := x.sent, got := x.got }

theorem endSlot_chan (c k code : Nat) (x : Slot) (s : State) : (endSlot c k code x s).chan c = { s.chan c with slots := Tab.del k (s.chan c).slots } :=
  State.chan_setChan_same _ _ _

theorem endSlot_rest (c k code : Nat) (x : Slot) (s : State) :
    endSlot c k code x s = { s with ch := (endSlot c k code x s).ch, md := { s.md with ended := s.md.ended ++ [endedOf code x] } } := rfl

theorem release_chan (c : Nat) (s : State) : ((release_ c s).chan c).slots = (s.chan c).slots ∧ ((release_ c s).chan c).act = none ∧
    ((release_ c s).chan c).halting = (s.chan c).halting := by
  obtain ⟨_, _, _, _, _, _, h⟩ := (PinsStep.raiseCe c s).chan
  rw [release_, State.chan_setChan_same, h]
  exact ⟨rfl, rfl, rfl⟩

theorem release_rest (c : Nat) (s : State) : release_ c s = { s with ch := (release_ c s).ch } :=
  State.chOnly_trans (State.setChan_eq s c _) (State.setChan_eq _ c _)

/-- END frees the slot and the pins, and the scheduler has the operation's report to come. -/
theorem exec_stkEnd (h : WordAt s c k x w upc u) (hop : mOp u = 0x12) (hhalt : (s.chan c).halting = false) :
    ∃ t, exec (.stkEnd c w) s = .next t ∧ Tab.find k (t.chan c).slots = none ∧ (t.chan c).act = none ∧
      (∀ j, j ≠ k → Tab.find j (t.chan c).slots = Tab.find j (s.chan c).slots) ∧ t.md.ended = s.md.ended ++ [endedOf ((mImm u).toNat % 256) x] ∧
      t = { s with ch := t.ch, regs := t.regs, log := t.log, md := { s.md with ended := t.md.ended } } ∧
      ∀ k' i', (k', i') ≠ (RegKind.stkChmode, c) → k' ≠ .glbLogSeq → t.reg k' i' = s.reg k' i' := by
  have hgo : ¬(mOp u = 2 ∧ s.banked = true) := by omega
  have hz := slotAtWord_begun h
  have hended : endedOf ((mImm u).toNat % 256) (slotAtWord s c k x upc u) = endedOf ((mImm u).toNat % 256) x := by rw [hz]; rfl
  have hexec := uRow_of_opcode h hop (by decide) (by decide) [] {}
  obtain ⟨_, _, _, _, _, _, _, _, _, hchan⟩ := wordBegun_chan h hgo
  have hstep := wordBegun_step h hgo
  have hothers := wordBegun_otherSlots h hgo
  have hh : ((wordBegun s c k x upc u).chan c).halting = false := by rw [hchan, hhalt]
  simp only [runOp, hop, runEnd] at hexec
  generalize wordBegun s c k x upc u = t0 at hexec hchan hstep hothers hh
  have hend := endSlot_chan c k ((mImm u).toNat % 256) (slotAtWord s c k x upc u) t0
  have hrest := endSlot_rest c k ((mImm u).toNat % 256) (slotAtWord s c k x upc u) t0
  rw [hended] at hrest
  generalize endSlot c k ((mImm u).toNat % 256) (slotAtWord s c k x upc u) t0 = t1 at hexec hend hrest
  obtain ⟨hslots, hact, hhalting⟩ := release_chan c t1
  rw [haltAt_of_not_halting (by rw [hhalting, hend, hh])] at hexec
  have hmd : (release_ c t1).md = { s.md with ended := s.md.ended ++ [endedOf ((mImm u).toNat % 256) x] } := by
    rw [release_rest, hrest, hstep.rest]
  refine ⟨_, hexec, ?_, hact, fun j hj => ?_, by rw [hmd], ?_, fun k' i' hk hl => ?_⟩
  · rw [hslots, hend]
    exact Tab.find_del_same _ _
  · rw [hslots, hend]
    exact (Tab.find_del_ne hj _).trans (hothers j hj)
  · have hrel := release_rest c t1
    generalize release_ c t1 = t2 at hrel hmd
    rw [hmd, hrel, hrest, hstep.rest]
  · have hreg : (release_ c t1).regs = t0.regs := by rw [release_rest, hrest]
    exact (State.reg_of_regs hreg k' i').trans (hstep.regs k' i' hk hl)

/-! ## The PHY actions -/

/-- What a PHY action leaves: the slots, the other channels, and every register but STK_CHMODE, one of a kind, and the log's number. -/
structure PhyStep (s t : State) (c : Nat) (y : RegKind) : Prop where
  slots : (t.chan c).slots = (s.chan c).slots
  chans : ∀ d, d ≠ c → t.chan d = s.chan d
  regs : ∀ k i, (k, i) ≠ (y, c) → (k, i) ≠ (RegKind.stkChmode, c) → k ≠ .glbLogSeq → t.reg k i = s.reg k i

theorem PhyStep.rfl {c : Nat} {y : RegKind} : PhyStep s s c y := ⟨Eq.refl _, fun _ _ => Eq.refl _, fun _ _ _ _ _ => Eq.refl _⟩

theorem PhyStep.trans {t v : State} {c : Nat} {y : RegKind} (h : PhyStep s t c y) (g : PhyStep t v c y) : PhyStep s v c y :=
  ⟨g.slots.trans h.slots, fun d hd => (g.chans d hd).trans (h.chans d hd), fun k i h1 h2 h3 => (g.regs k i h1 h2 h3).trans (h.regs k i h1 h2 h3)⟩

theorem PhyStep.setChan {c : Nat} {y : RegKind} {z : Chan} (h : z.slots = (s.chan c).slots) : PhyStep s (s.setChan c z) c y :=
  ⟨by rw [State.chan_setChan_same, h], fun _ hd => s.chan_setChan_ne hd z, fun _ _ _ _ _ => Eq.refl _⟩

theorem PhyStep.putChmode {c : Nat} {y : RegKind} {f : Fld} (hf : f.kind = .stkChmode) (n : Nat) : PhyStep s (s.put f n c) c y :=
  ⟨Eq.refl _, fun _ _ => Eq.refl _, fun k i _ h _ => otherRegs_put s f n c k i (hf ▸ h)⟩

/-- A word whose PHY action leaves the slots goes on at the next address. -/
theorem PhyStep.done (h : WordAt s c k x w upc u) (hop : mOp u = 0x10) {t : State} {y : RegKind} (ht : PhyStep (wordBegun s c k x upc u) t c y) (z : Slot) :
    (Tab.find k ((setSlot c k z t).chan c).slots = some z ∧ (∀ j, j ≠ k → Tab.find j ((setSlot c k z t).chan c).slots = Tab.find j (s.chan c).slots) ∧
      ∀ d, d ≠ c → (setSlot c k z t).chan d = s.chan d) ∧
    ∀ k' i', (k', i') ≠ (y, c) → (k', i') ≠ (RegKind.stkChmode, c) → k' ≠ .glbLogSeq → (setSlot c k z t).reg k' i' = s.reg k' i' := by
  have hgo : ¬(mOp u = 2 ∧ s.banked = true) := by omega
  have hstep := wordBegun_step h hgo
  refine ⟨⟨?_, fun j hj => ?_, fun d hd => ?_⟩, fun k' i' h1 h2 h3 => ?_⟩
  · rw [setSlot_chan]
    exact Tab.find_put_same _ _ _
  · rw [setSlot_chan]
    refine (Tab.find_put_ne hj _ _).trans ?_
    rw [ht.slots]
    exact wordBegun_otherSlots h hgo j hj
  · rw [setSlot, State.chan_setChan_ne _ hd, ht.chans d hd, hstep.others d hd]
  · exact (ht.regs k' i' h1 h2 h3).trans (hstep.regs k' i' h2 h3)

/-- A PHY word runs its action in the state as it has begun. -/
theorem uRow_phy (h : WordAt s c k x w upc u) (hop : mOp u = 0x10) {a : Nat} (ha : (mImm u).toNat % 256 = a) (m : Train) :
    uRow c w (phyIs a) [] m s = .next (runPhy c k (slotAtWord s c k x upc u) upc u m (wordBegun s c k x upc u)) := by
  have hexec := uRow_of_wordAt h (mine := phyIs a) (by simp [phyIs, hop, ha]) (by omega) (by omega) [] m
  simp only [runOp, hop] at hexec
  exact hexec

/-! ### Engine ZQ and duty trim -/

/-- The codes of engine ZQ lie within the limits of the image (R136). -/
abbrev zqWithin (s : State) (m : Train) : Prop := s.img.cal.puMin ≤ m.pu ∧ m.pu ≤ s.img.cal.puMax ∧ s.img.cal.pdMin ≤ m.pd ∧ m.pd ≤ s.img.cal.pdMax

theorem PhyStep.phyZq (c : Nat) (m : Train) (s : State) (y : RegKind) : PhyStep s (phyZq c m s) c y :=
  ⟨Eq.refl _, fun _ _ => Eq.refl _, fun k i _ h _ => otherRegs_putFlag _ Fld.stkChmodeZqDflt _ c k i h⟩

theorem phyZq_codes (c : Nat) (m : Train) (s : State) : Tab.get {} c (phyZq c m s).cal.chs =
    if zqWithin s m then { Tab.get {} c s.cal.chs with pu := m.pu, pd := m.pd, puGoal := m.pu, pdGoal := m.pd }
    else { Tab.get {} c s.cal.chs with pu := 0x20, pd := 0x20, puGoal := 0x20, pdGoal := 0x20 } := by
  refine (Tab.get_set_same _ _ _ _).trans ?_
  by_cases h : zqWithin s m
  · rw [if_pos h]
    exact if_pos (decide_eq_true h)
  · rw [if_neg h]
    exact if_neg (by rw [decide_eq_false h]; decide)

theorem phyZq_status (c : Nat) (m : Train) (s : State) :
    ((phyZq c m s).flag Fld.stkChmodeZqDflt c = false ↔ zqWithin s m) ∧
      ((phyZq c m s).flag Fld.stkChmodeZqDflt c = false → (Tab.get {} c (phyZq c m s).cal.chs).pu = m.pu ∧ (Tab.get {} c (phyZq c m s).cal.chs).pd = m.pd) ∧
      ((phyZq c m s).flag Fld.stkChmodeZqDflt c = true → (Tab.get {} c (phyZq c m s).cal.chs).pu = 0x20 ∧ (Tab.get {} c (phyZq c m s).cal.chs).pd = 0x20) := by
  have hflag : (phyZq c m s).flag Fld.stkChmodeZqDflt c = !decide (zqWithin s m) := State.flag_putFlag _ Fld.stkChmodeZqDflt rfl (by decide) _ c
  rw [hflag, phyZq_codes]
  by_cases h : zqWithin s m
  · rw [if_pos h, decide_eq_true h]
    exact ⟨iff_of_true rfl h, fun _ => ⟨rfl, rfl⟩, fun hf => absurd hf (by decide)⟩
  · rw [if_neg h, decide_eq_false h]
    exact ⟨iff_of_false (by decide) h, fun hf => absurd hf (by decide), fun _ => ⟨rfl, rfl⟩⟩

theorem PhyStep.phyDuty (c : Nat) (m : Train) (s : State) (y : RegKind) : PhyStep s (phyDuty c m s) c y := by
  unfold Machine.phyDuty
  split
  · exact .rfl
  · exact ⟨Eq.refl _, fun _ _ => Eq.refl _, fun _ _ _ _ _ => Eq.refl _⟩

theorem phyDuty_dcc (c : Nat) (m : Train) (s : State) :
    (Tab.get {} c (phyDuty c m s).cal.chs).dcc = if m.dutyOk then m.dcc else (Tab.get {} c s.cal.chs).dcc := by
  unfold phyDuty
  cases hm : m.dutyOk
  · rfl
  · exact congrArg CalCh.dcc (Tab.get_set_same _ _ _ _)

/-! ### Delay offsets and the rate -/

/-- The offsets of a direction's bits as one word gives them (R155). -/
def trackOf (dir : Nat) (v : Word) (tr : Tab (Int × Nat × Int)) : Tab (Int × Nat × Int) :=
  (nibbles v).zipIdx.foldl (fun t e =>
    Tab.set (0, 0, 0) (dir * 8 + e.2) ((Tab.get ((0, 0, 0) : Int × Nat × Int) (dir * 8 + e.2) t).1, (Tab.get ((0, 0, 0) : Int × Nat × Int) (dir * 8 + e.2) t).2.1, e.1) t) tr

/-- STK_DSK_RD, or STK_DSK_WR for the write direction. -/
def offsetKind (dir : Nat) : RegKind := if dir = 0 then .stkDskRd else .stkDskWr

theorem setOffsets_eq (c dir : Nat) (v : Word) (s : State) :
    ∃ tr, setOffsets c dir v s = (s.setChan c { s.chan c with track := tr }).setReg (offsetKind dir) c v := by
  refine ⟨trackOf dir v (s.chan c).track, ?_⟩
  unfold setOffsets offsetKind
  split <;> rfl

theorem PhyStep.setOffsets (c dir : Nat) (v : Word) (s : State) : PhyStep s (setOffsets c dir v s) c (offsetKind dir) := by
  obtain ⟨tr, he⟩ := setOffsets_eq c dir v s
  rw [he]
  exact (PhyStep.setChan (z := { s.chan c with track := tr }) (Eq.refl _)).trans
    ⟨Eq.refl _, fun _ _ => Eq.refl _, fun k i h _ _ => otherRegs_setReg _ (offsetKind dir) c v k i h⟩

theorem setOffsets_reg (c dir : Nat) (v : Word) (s : State) : (setOffsets c dir v s).reg (offsetKind dir) c = v := by
  obtain ⟨tr, he⟩ := setOffsets_eq c dir v s
  rw [he, State.reg_setReg_same]

theorem PhyStep.raiseCe (c : Nat) (s : State) (y : RegKind) : PhyStep s (raiseCe c s) c y := .setChan (Eq.refl _)

theorem PhyStep.busPut (c : Nat) (b : BusCyc) (s : State) (y : RegKind) : PhyStep s (busPut c b s) c y := .setChan (Eq.refl _)

theorem PhyStep.setRate (c rate : Nat) (s : State) (y : RegKind) : PhyStep s (setRate c rate s) c y := by
  unfold Machine.setRate
  split
  · exact .rfl
  · exact ((PhyStep.raiseCe c s y).trans (.busPut c _ _ y)).trans (.putChmode (Eq.refl _) _)

theorem PhyStep.startRate (c rate : Nat) (s : State) (y : RegKind) : PhyStep s (startRate c rate s) c y :=
  (PhyStep.setRate c rate s y).trans (.setChan (Eq.refl _))

theorem busPut_rate_ceN (c rate : Nat) (s : State) : ((busPut c (.rate rate) s).chan c).pins.ceN = 0xFF := by
  rw [busPut, State.chan_setChan_same]
  rfl

@[simp] theorem State.chan_put (s : State) (f : Fld) (v i c : Nat) : (s.put f v i).chan c = s.chan c := rfl

@[simp] theorem State.now_put (s : State) (f : Fld) (v i : Nat) : (s.put f v i).now = s.now := rfl

theorem State.now_setChan (s : State) (c : Nat) (x : Chan) : (s.setChan c x).now = s.now := rfl

theorem busPut_now (c : Nat) (b : BusCyc) (s : State) : (busPut c b s).now = s.now := rfl

theorem raiseCe_now (c : Nat) (s : State) : (raiseCe c s).now = s.now := rfl

/-- A change of rate sets CUR_RATE, raises every FL_CE_N, and holds the channel 2 µs (R122; log entry 111). -/
theorem startRate_status {rate : Nat} {c : Nat} {s : State} (h : rate ≠ s.get Fld.stkChmodeCurRate c) :
    (startRate c rate s).get Fld.stkChmodeCurRate c = rate % 65536 ∧ ((startRate c rate s).chan c).lockTill = s.now + 2000 ∧
      ((startRate c rate s).chan c).pins.ceN = 0xFF := by
  have hset : setRate c rate s = (busPut c (.rate rate) (raiseCe c s)).put Fld.stkChmodeCurRate rate c := if_neg (Ne.symm h)
  have hce := busPut_rate_ceN c rate (raiseCe c s)
  have hnow : (busPut c (.rate rate) (raiseCe c s)).now = s.now := (busPut_now c _ _).trans (raiseCe_now c s)
  rw [startRate, hset]
  generalize busPut c (.rate rate) (raiseCe c s) = t at hce hnow
  refine ⟨?_, ?_, ?_⟩
  · rw [State.get_setChan]
    exact State.get_put_same _ Fld.stkChmodeCurRate (by decide) _ _
  · rw [State.chan_setChan_same, State.now_put, hnow]
  · rw [State.chan_setChan_same, State.chan_put, hce]

/-! ### A slot set leaves what is outside the channels -/

theorem State.cal_setSlot (c k : Nat) (x : Slot) (s : State) : (setSlot c k x s).cal = s.cal := rfl

theorem State.reg_setSlot (c k : Nat) (x : Slot) (s : State) (y : RegKind) (i : Nat) : (setSlot c k x s).reg y i = s.reg y i := rfl

theorem State.get_setSlot (c k : Nat) (x : Slot) (s : State) (f : Fld) (i : Nat) : (setSlot c k x s).get f i = s.get f i := rfl

theorem State.flag_setSlot (c k : Nat) (x : Slot) (s : State) (f : Fld) (i : Nat) : (setSlot c k x s).flag f i = s.flag f i := rfl

section
variable {c k : Nat} {x : Slot} {w u : BitVec 96} {upc : BitVec 15}

/-- PHY actions 0 and 1, on the codes of engine ZQ and the duty trim (R134, R136). -/
theorem exec_phyEngineZq (h : WordAt s c k x w upc u) (hop : mOp u = 0x10) (hlast : NotLast upc) (ha : (mImm u).toNat % 256 = 0) (m : Train) :
    exec (.phyEngineZq c w m) s = .next (setSlot c k { slotAtWord s c k x upc u with upc := upc + 1 } (phyZq c m (raiseCe c (wordBegun s c k x upc u)))) := by
  refine (uRow_phy h hop ha m).trans ?_
  rw [runPhy, ha]
  exact congrArg _ (goNext_of_notLast hlast _ _ _ _)

theorem exec_phyDutyTrim (h : WordAt s c k x w upc u) (hop : mOp u = 0x10) (hlast : NotLast upc) (ha : (mImm u).toNat % 256 = 1) (m : Train) :
    exec (.phyDutyTrim c w m) s = .next (setSlot c k { slotAtWord s c k x upc u with upc := upc + 1 } (phyDuty c m (wordBegun s c k x upc u))) := by
  refine (uRow_phy h hop ha m).trans ?_
  rw [runPhy, ha]
  exact congrArg _ (goNext_of_notLast hlast _ _ _ _)

theorem exec_phyLoadReadDelays (h : WordAt s c k x w upc u) (hop : mOp u = 0x10) (hlast : NotLast upc) (ha : (mImm u).toNat % 256 = 2) :
    exec (.phyLoadReadDelays c w) s =
      .next (setSlot c k { slotAtWord s c k x upc u with upc := upc + 1 } (setOffsets c 0 (gGet s c x 4) (wordBegun s c k x upc u))) := by
  refine (uRow_phy h hop ha {}).trans ?_
  rw [runPhy, ha, ← gGet_wordBegun h (by omega)]
  exact congrArg _ (goNext_of_notLast hlast _ _ _ _)

theorem exec_phyLoadWriteDelays (h : WordAt s c k x w upc u) (hop : mOp u = 0x10) (hlast : NotLast upc) (ha : (mImm u).toNat % 256 = 3) :
    exec (.phyLoadWriteDelays c w) s =
      .next (setSlot c k { slotAtWord s c k x upc u with upc := upc + 1 } (setOffsets c 1 (gGet s c x 6) (wordBegun s c k x upc u))) := by
  refine (uRow_phy h hop ha {}).trans ?_
  rw [runPhy, ha, ← gGet_wordBegun h (by omega)]
  exact congrArg _ (goNext_of_notLast hlast _ _ _ _)

/-- The rate that a target asks for is as before a word began. -/
theorem applied_wordBegun (h : WordAt s c k x w upc u) (hgo : ¬(mOp u = 2 ∧ s.banked = true)) (n : Nat) :
    applied (wordBegun s c k x upc u) c n = applied s c n := by
  obtain ⟨_, _, _, _, _, _, _, _, _, hchan⟩ := wordBegun_chan h hgo
  obtain ⟨hrest, -, -, -⟩ := wordStart_status h
  have hregs : (wordStart s c k x u).regs = s.regs := by rw [hrest]
  refine applied_congr (wordBegun_step h hgo) (by rw [hchan]) ?_ n
  exact ((wordBegun_pins h hgo).chmode Fld.stkChmodeCeil (by decide) (by decide)).trans (State.get_of_regs hregs Fld.stkChmodeCeil c)

theorem curRate_wordBegun (h : WordAt s c k x w upc u) (hgo : ¬(mOp u = 2 ∧ s.banked = true)) :
    (wordBegun s c k x upc u).get Fld.stkChmodeCurRate c = s.get Fld.stkChmodeCurRate c := by
  obtain ⟨hrest, -, -, -⟩ := wordStart_status h
  have hregs : (wordStart s c k x u).regs = s.regs := by rw [hrest]
  exact ((wordBegun_pins h hgo).chmode Fld.stkChmodeCurRate (by decide) (by decide)).trans (State.get_of_regs hregs Fld.stkChmodeCurRate c)

/-- PHY action 4: the channel changes to the rate of the slot's target (R122). -/
def phyRated (c rate : Nat) (s : State) : State := if rate = s.get Fld.stkChmodeCurRate c then s else startRate c rate s

theorem exec_phyRateChange (h : WordAt s c k x w upc u) (hop : mOp u = 0x10) (hlast : NotLast upc) (ha : (mImm u).toNat % 256 = 4) :
    exec (.phyRateChange c w) s =
      .next (setSlot c k { slotAtWord s c k x upc u with upc := upc + 1 } (phyRated c (applied s c (slotTgt x)).rate (wordBegun s c k x upc u))) := by
  refine (uRow_phy h hop ha {}).trans ?_
  have htgt : slotTgt (slotAtWord s c k x upc u) = slotTgt x := by rw [slotTgt, slotTgt, (slotAtWord_begun h).op]
  rw [runPhy, ha, ← applied_wordBegun h (by omega), ← htgt]
  exact congrArg _ (goNext_of_notLast hlast _ _ _ _)

theorem PhyStep.phyRated (c rate : Nat) (s : State) (y : RegKind) : PhyStep s (phyRated c rate s) c y := by
  unfold Machine.phyRated
  split
  · exact .rfl
  · exact .startRate c rate s y

theorem phyRated_curRate (c rate : Nat) (s : State) : (phyRated c rate s).get Fld.stkChmodeCurRate c = rate % 65536 := by
  unfold phyRated
  split
  next he =>
    have hlt : s.get Fld.stkChmodeCurRate c < 65536 := Fld.get_lt Fld.stkChmodeCurRate _
    rw [he, Nat.mod_eq_of_lt hlt]
  next hne => exact (startRate_status hne).1

end

/-! ## The watchdog -/

/-- What the end of a fault leaves of a channel, of the operations that ended, and of STK_STS (R188). -/
def faultView (c : Nat) (s : State) : Tab Slot × Option Nat × FlPins × List Ended × Word :=
  ((s.chan c).slots, (s.chan c).act, (s.chan c).pins, s.md.ended, s.reg .stkSts c)

theorem faultView_rawFails (c : Nat) (a : RawAcc) (s : State) : faultView c (rawFails a s) = faultView c s := by
  unfold rawFails rawAnswer
  split
  · unfold State.respondWrite
    split <;> rfl
  · rfl

theorem foldl_view {α β : Type} (v : State → β) (f : State → α → State) (h : ∀ s a, v (f s a) = v s) (l : List α) : ∀ s, v (l.foldl f s) = v s := by
  induction l with
  | nil => exact fun _ => rfl
  | cons a l ih => exact fun s => (ih (f s a)).trans (h s a)

theorem faultView_setChan {c : Nat} {s : State} {x : Chan} (hs : x.slots = (s.chan c).slots) (ha : x.act = (s.chan c).act) (hp : x.pins = (s.chan c).pins) :
    faultView c (s.setChan c x) = faultView c s := by
  simp only [faultView, State.chan_setChan_same, hs, ha, hp, State.reg_setChan]
  rfl

theorem faultView_endOwnSlots (c : Nat) (s : State) : faultView c (endOwnSlots c s) = faultView c s := by
  have hraw : faultView c (((s.chan c).rawQ).foldl (fun s a => rawFails a s) (s.setChan c { s.chan c with rawQ := [], fallen := [] })) = faultView c s :=
    (foldl_view (faultView c) _ (fun t a => faultView_rawFails c a t) _ _).trans (faultView_setChan rfl rfl rfl)
  unfold endOwnSlots
  dsimp only
  generalize ((s.chan c).rawQ).foldl (fun s a => rawFails a s) (s.setChan c { s.chan c with rawQ := [], fallen := [] }) = t at hraw ⊢
  split
  · split
    · exact hraw
    · exact hraw
  · exact hraw

theorem faultView_lunOff (c k : Nat) (s : State) : faultView c (lunOff k s) = faultView c s := by
  have hclr (t : State) : faultView c (t.clrBit .stkTgtcfg (tgtIdx k) (lunL k)) = faultView c t := by
    have hreg : (t.clrBit .stkTgtcfg (tgtIdx k) (lunL k)).reg .stkSts c = t.reg .stkSts c := State.reg_setReg_kind t (by decide) _ _ _
    simp only [faultView, hreg]
    rfl
  have hput (t : State) : faultView c (t.putFlag Fld.stkTgtcfgOnline false (tgtIdx k)) = faultView c t := by
    have hreg : (t.putFlag Fld.stkTgtcfgOnline false (tgtIdx k)).reg .stkSts c = t.reg .stkSts c := State.reg_putFlag_kind t (by decide) _ _ _
    simp only [faultView, hreg]
    rfl
  unfold lunOff
  split
  · dsimp only
    split
    · exact (hput _).trans (hclr s)
    · exact hclr s
  · rfl

theorem faultView_logPacked (c : Nat) (s : State) (u d : Nat) (o v : List (Nat × Nat)) : faultView c (s.logPacked u d o v) = faultView c s := by
  have hreg : (s.logPacked u d o v).reg .stkSts c = s.reg .stkSts c := State.reg_logPacked _ (by decide) _ _ _ _ _
  simp only [faultView, hreg]
  rfl

/-- Slots that end one after another leave the list of those that have ended, in their order. -/
theorem endSlots_status (c : Nat) (code : Slot → Nat) : ∀ (l : List (Nat × Slot)) (s : State),
    let t := l.foldl (fun s e => endSlot c e.1 (code e.2) e.2 s) s
    (t.chan c).slots = l.foldl (fun t e => Tab.del e.1 t) (s.chan c).slots ∧ (t.chan c).pins = (s.chan c).pins ∧ t.reg .stkSts c = s.reg .stkSts c ∧
      t.md.ended.map Ended.op = s.md.ended.map Ended.op ++ l.map fun e => e.2.op
  | [], _ => ⟨rfl, rfl, rfl, (List.append_nil _).symm⟩
  | e :: l, s => by
    obtain ⟨h1, h2, h3, h4⟩ := endSlots_status c code l (endSlot c e.1 (code e.2) e.2 s)
    rw [endSlot_chan] at h1 h2
    refine ⟨h1, h2, h3, h4.trans ?_⟩
    rw [endSlot_rest]
    simp [endedOf]

/-- Deleting a key that a rising table lies above changes nothing. -/
theorem Tab.del_above {α : Type} {k : Nat} : ∀ {b : Nat} {t : Tab α}, k < b → Tab.risingFrom b t = true → Tab.del k t = t
  | _, [], _, _ => rfl
  | b, (a, v) :: r, hk, h => by
    simp only [Tab.risingFrom, Bool.and_eq_true, decide_eq_true_eq] at h
    have hne : a ≠ k := by omega
    rw [Tab.del, if_neg hne, Tab.del_above (by omega) h.2]

/-- Every entry of a table deleted by its key. -/
theorem Tab.foldl_del {α : Type} : ∀ (b : Nat) (t : Tab α), Tab.risingFrom b t = true → t.foldl (fun r e => Tab.del e.1 r) t = []
  | _, [], _ => rfl
  | b, (a, v) :: r, h => by
    simp only [Tab.risingFrom, Bool.and_eq_true, decide_eq_true_eq] at h
    have hdel : Tab.del a r = r := Tab.del_above (by omega) h.2
    simp only [List.foldl_cons, Tab.del, if_true, hdel]
    exact Tab.foldl_del (a + 1) r h.2

/-- STK_STS as a fault writes it, and the pins at their reset levels (R188). -/
def faultNoted (c cause : Nat) (upc : BitVec 15) (s : State) : State :=
  pinsReset c (((s.putFlag Fld.stkStsFault true c).put Fld.stkStsCause cause c).put Fld.stkStsFaultUpc upc.toNat c)

theorem faultNoted_status (c : Nat) {cause : Nat} (hc : cause < 16) (upc : BitVec 15) (s : State) :
    let t := faultNoted c cause upc s
    t.flag Fld.stkStsFault c = true ∧ t.get Fld.stkStsCause c = cause ∧ t.get Fld.stkStsFaultUpc c = upc.toNat ∧
      (t.chan c).slots = (s.chan c).slots ∧ (t.chan c).pins = {} ∧ t.md = s.md := by
  have hregs : (faultNoted c cause upc s).regs =
      (((s.putFlag Fld.stkStsFault true c).put Fld.stkStsCause cause c).put Fld.stkStsFaultUpc upc.toNat c).regs := rfl
  have hupc : upc.toNat < 2 ^ 15 := upc.isLt
  refine ⟨?_, ?_, ?_, ?_, ?_, rfl⟩
  · rw [State.flag_of_regs hregs, State.flag_put_field _ (by decide) (by decide), State.flag_put_field _ (by decide) (by decide),
      State.flag_putFlag _ _ rfl (by decide)]
  · rw [State.get_of_regs hregs, State.get_put_field _ (by decide) (by decide), State.get_put_same _ _ (by decide)]
    exact Nat.mod_eq_of_lt hc
  · rw [State.get_of_regs hregs, State.get_put_same _ _ (by decide)]
    exact Nat.mod_eq_of_lt hupc
  · rw [faultNoted, pinsReset, State.chan_setChan_same]
    rfl
  · rw [faultNoted, pinsReset, State.chan_setChan_same]

/-- What ends on a fault beside the operations of the slots: the raw slot, the maintenance slot and the channel's LUNs, with a log entry (R188). -/
def faultEnds (c k cause : Nat) (s : State) : State :=
  ((List.range 32).foldl (fun s l => lunOff (c * 32 + l) s) (endOwnSlots c (s.setChan c { s.chan c with act := none, words := 0 }))).logPacked uSTK
    (0x300 + cause) [(1, c), (1, k)]

theorem faultView_faultEnds (c k cause : Nat) (s : State) :
    faultView c (faultEnds c k cause s) = ((s.chan c).slots, none, (s.chan c).pins, s.md.ended, s.reg .stkSts c) := by
  refine (faultView_logPacked c _ _ _ _ _).trans ?_
  refine (foldl_view (faultView c) _ (fun t l => faultView_lunOff c _ t) _ _).trans ?_
  refine (faultView_endOwnSlots c _).trans ?_
  simp only [faultView, State.chan_setChan_same, State.reg_setChan]
  rfl

/-- The code of an operation that a fault ends (R188). -/
def microEndCode (x : Slot) : Nat := if x.went then 2 else 3

theorem microFault_eq (c k cause : Nat) (upc : BitVec 15) (s : State) : microFault c k cause upc s =
    faultEnds c k cause (((faultNoted c cause upc s).chan c).slots.foldl (fun s e => endSlot c e.1 (microEndCode e.2) e.2 s) (faultNoted c cause upc s)) := rfl

/-- A microcode fault: STK_STS names it, the channel's slots have ended, and its pins are as after reset (R188). -/
theorem microFault_status {s : State} {c : Nat} (hr : Tab.rising (s.chan c).slots = true) (k : Nat) {cause : Nat} (hc : cause < 16) (upc : BitVec 15) :
    let t := microFault c k cause upc s
    t.flag Fld.stkStsFault c = true ∧ t.get Fld.stkStsCause c = cause ∧ t.get Fld.stkStsFaultUpc c = upc.toNat ∧ (t.chan c).slots = [] ∧
      (t.chan c).act = none ∧ (t.chan c).pins = {} ∧ t.md.ended.map Ended.op = s.md.ended.map Ended.op ++ (s.chan c).slots.map fun e => e.2.op := by
  intro t
  have ht : t = _ := microFault_eq c k cause upc s
  obtain ⟨hflag, hcause, hupc, hslots, hpins, hmd⟩ := faultNoted_status c hc upc s
  generalize faultNoted c cause upc s = t0 at ht hflag hcause hupc hslots hpins hmd
  obtain ⟨hslots1, hpins1, hreg1, hended1⟩ := endSlots_status c microEndCode (t0.chan c).slots t0
  generalize (t0.chan c).slots.foldl (fun s e => endSlot c e.1 (microEndCode e.2) e.2 s) t0 = t1 at ht hslots1 hpins1 hreg1 hended1
  have hview := faultView_faultEnds c k cause t1
  rw [← ht] at hview
  simp only [faultView, Prod.mk.injEq] at hview
  obtain ⟨hv1, hv2, hv3, hv4, hv5⟩ := hview
  have hsts : t.reg .stkSts c = t0.reg .stkSts c := hv5.trans hreg1
  refine ⟨?_, ?_, ?_, ?_, hv2, ?_, ?_⟩
  · rw [← hflag, State.flag, State.get, State.flag, State.get]
    exact congrArg (fun w => Fld.stkStsFault.get w != 0) hsts
  · rw [← hcause]
    exact congrArg Fld.stkStsCause.get hsts
  · rw [← hupc]
    exact congrArg Fld.stkStsFaultUpc.get hsts
  · rw [hv1, hslots1, hslots]
    exact Tab.foldl_del 0 _ hr
  · rw [hv3, hpins1, hpins]
  · rw [hv4, hended1, hmd, hslots]

end

/-- Settles O14: each word in the state as it has begun, and the watchdog's fault by what its end leaves. -/
theorem stokerEndsAndPhy : Obligations.StokerEndsAndPhy := by
  refine ⟨fun s c k x w u upc h => ⟨fun hop hlast => exec_stkReport h hop hlast, fun hop hhalt => exec_stkEnd h hop hhalt, fun hop hlast => ?_⟩,
    fun s c k x hon hact hx hfault hwords hr => ?_⟩
  · intro a done others
    refine ⟨fun ha m => ?_, fun ha m => ?_, fun ha => ?_, fun ha => ?_, fun ha => ?_⟩
    · have hphy := (PhyStep.raiseCe c (wordBegun s c k x upc u) .stkChmode).trans (.phyZq c m _ _)
      obtain ⟨hdone, hothers⟩ := hphy.done h hop { slotAtWord s c k x upc u with upc := upc + 1 }
      have hzq := phyZq_status c m (raiseCe c (wordBegun s c k x upc u))
      have himg : (raiseCe c (wordBegun s c k x upc u)).img = s.img := by
        rw [raiseCe, State.setChan_eq, (wordBegun_step h (by omega)).rest]
      rw [zqWithin, himg] at hzq
      refine ⟨_, exec_phyEngineZq h hop hlast ha m, hdone, hothers, ?_⟩
      rw [State.flag_setSlot, State.cal_setSlot]
      exact hzq
    · obtain ⟨hdone, hothers⟩ := (PhyStep.phyDuty c m (wordBegun s c k x upc u) .stkChmode).done h hop { slotAtWord s c k x upc u with upc := upc + 1 }
      have hcal : (wordBegun s c k x upc u).cal = s.cal := by rw [(wordBegun_step h (by omega)).rest]
      refine ⟨_, exec_phyDutyTrim h hop hlast ha m, hdone, hothers, ?_⟩
      rw [State.cal_setSlot, phyDuty_dcc, hcal]
    · obtain ⟨hdone, hothers⟩ := (PhyStep.setOffsets c 0 (gGet s c x 4) (wordBegun s c k x upc u)).done h hop { slotAtWord s c k x upc u with upc := upc + 1 }
      exact ⟨_, exec_phyLoadReadDelays h hop hlast ha, hdone, (State.reg_setSlot _ _ _ _ _ _).trans (setOffsets_reg c 0 _ _), hothers⟩
    · obtain ⟨hdone, hothers⟩ := (PhyStep.setOffsets c 1 (gGet s c x 6) (wordBegun s c k x upc u)).done h hop { slotAtWord s c k x upc u with upc := upc + 1 }
      exact ⟨_, exec_phyLoadWriteDelays h hop hlast ha, hdone, (State.reg_setSlot _ _ _ _ _ _).trans (setOffsets_reg c 1 _ _), hothers⟩
    · obtain ⟨hdone, hothers⟩ := (PhyStep.phyRated c (applied s c (slotTgt x)).rate (wordBegun s c k x upc u) .stkChmode).done h hop
        { slotAtWord s c k x upc u with upc := upc + 1 }
      have hcur := curRate_wordBegun h (by omega)
      refine ⟨_, exec_phyRateChange h hop hlast ha, hdone, hothers, ?_, fun hne => ?_⟩
      · rw [State.get_setSlot, phyRated_curRate]
      · rw [← hcur] at hne
        have hnow : (wordBegun s c k x upc u).now = s.now := by rw [State.now, (wordBegun_step h (by omega)).rest, State.now]
        obtain ⟨-, hlock, hce⟩ := startRate_status hne
        rw [hnow] at hlock
        rw [phyRated, if_neg hne, setSlot_chan]
        exact ⟨hlock, hce⟩
  · refine ⟨_, ?_, microFault_status hr k (by decide) x.last⟩
    show execStokerWatchdog c s = _
    simp [execStokerWatchdog, hact, hx, hon, hfault, hwords]

end Sys2Proof.Machine
end

section
/-! PROOFS. How the operations of a LUN are formed (R205, R210, R212 to R217). -/

namespace Sys2Proof.Machine

/-! ## One LUN -/

@[simp] theorem State.lun_modLun_same (k : Nat) (f : LunSt → LunSt) (s : State) : (modLun k f s).lun k = f (s.lun k) := Tab.get_set_same _ _ _ _

theorem State.lun_modLun_ne {k j : Nat} (h : j ≠ k) (f : LunSt → LunSt) (s : State) : (modLun k f s).lun j = s.lun j := Tab.get_set_ne h _ _ _ _

/-- A LUN's part changed changes nothing else. -/
theorem modLun_rest (k : Nat) (f : LunSt → LunSt) (s : State) : modLun k f s = { s with md := { s.md with luns := (modLun k f s).md.luns } } := rfl

theorem State.lunsOnly_trans {s t u : State} (h : t = { s with md := { s.md with luns := t.md.luns } }) (g : u = { t with md := { t.md with luns := u.md.luns } }) :
    u = { s with md := { s.md with luns := u.md.luns } } := by
  rw [g, h]

/-- Erasing some wants leaves those that are not among them. -/
theorem mem_foldl_erase {v : Want} : ∀ {ws q : List Want}, v ∉ ws → v ∈ q → v ∈ ws.foldl (fun q w => q.erase w) q
  | [], _, _, hq => hq
  | w :: ws, q, hv, hq => by
    obtain ⟨hne, hws⟩ := not_or.mp (List.mem_cons.not.mp hv)
    rw [List.foldl_cons]
    exact mem_foldl_erase hws ((List.mem_erase_of_ne hne).mpr hq)

/-- A formed operation: its wants leave the queue, and it waits for its grant. -/
theorem setOp_status (k : Nat) (o : Op) (s : State) :
    ((setOp k o s).lun k).op = some o ∧ ((setOp k o s).lun k).granted = false ∧
      ((setOp k o s).lun k).queue = (((s.lun k).op.map (·.wants)).getD []) ++ o.wants.foldl (fun q w => q.erase w) (s.lun k).queue ∧
      (∀ j, j ≠ k → (setOp k o s).lun j = s.lun j) ∧ setOp k o s = { s with md := { s.md with luns := (setOp k o s).md.luns } } := by
  simp only [setOp, dequeue, State.lun_modLun_same]
  exact ⟨trivial, trivial, trivial, fun j hj => by rw [State.lun_modLun_ne hj, State.lun_modLun_ne hj],
    State.lunsOnly_trans (modLun_rest k _ s) (modLun_rest k _ _)⟩

/-- A command that forms an operation over some wants. -/
theorem Formed.of_setOp {s : State} {i : Instr} {k optype : Nat} {w : Want} {rest : List Want → Prop} {o : Op} (hexec : exec i s = .next (setOp k o s))
    (htype : o.optype = optype) (hlun : o.lun = k) (hhead : o.wants.head? = some w) (hrest : rest o.wants) : Formed s i k optype w rest := by
  obtain ⟨hop, hgranted, hqueue, hothers, hframe⟩ := setOp_status k o s
  refine ⟨setOp k o s, o, hexec, hop, hgranted, htype, hlun, hhead, hrest, fun v hv hnot => ?_, fun p hp v hv => ?_, hothers, hframe⟩
  · rw [hqueue]
    exact List.mem_append_right _ (mem_foldl_erase hnot hv)
  · rw [hqueue, hp]
    exact List.mem_append_left _ hv

/-- The context over some wants names their type, their LUN and the wants themselves (Table 05-7). -/
theorem formOp_cons (s : State) (k optype b : Nat) (w : Want) (ws : List Want) :
    ∃ o, formOp s k optype b (w :: ws) = some o ∧ o.optype = optype ∧ o.lun = k ∧ o.wants = w :: ws := ⟨_, rfl, rfl, rfl, rfl⟩

/-! ## Reads -/

section
variable {s : State} {k b : Nat} {w : Want}

/-- The other reads of the queue that may start. -/
def otherReads (s : State) (k : Nat) (w : Want) : List Want := (s.lun k).queue.filter fun v => v.kind == 0 && v != w && mayStart s k v

theorem mem_otherReads {v : Want} : v ∈ otherReads s k w ↔ v ∈ (s.lun k).queue ∧ v.kind = 0 ∧ v ≠ w ∧ mayStart s k v = true := by
  simp [otherReads, and_assoc]

/-- The buffer slots that a read of so many codewords takes (R313). -/
def readSlots (s : State) (k b : Nat) (w : Want) (n : Nat) : Nat := slotsFrom s (lunCh k) b (if b < 8 then n else min (slotRoom s k (w.step != 0)) n)

/-- A row of reads forms an operation over the wants that it picks, as far as there are slots for them. -/
theorem readRow_formed (hon : s.coreOn = true) (hk : k < 4096) (hw : headWant s k = some w) (hkind : w.kind = 0) (hb : takeSlot s k w = some b)
    {i : Instr} {optype : Nat} {pick : State → Want → List Want → List Want} (hexec : exec i s = readRow k optype pick s) {ws : List Want}
    (hpick : pick s w (otherReads s k w) = w :: ws) (htwo : optype = 2 ∨ optype = 3 → 2 ≤ readSlots s k b w (ws.length + 1)) {rest : List Want → Prop}
    (hrest : rest ((w :: ws).take (max 1 (readSlots s k b w (ws.length + 1))))) : Formed s i k optype w rest := by
  obtain ⟨n, hn⟩ : ∃ n, max 1 (readSlots s k b w (ws.length + 1)) = n + 1 := ⟨max 1 (readSlots s k b w (ws.length + 1)) - 1, by omega⟩
  rw [hn, List.take_succ_cons] at hrest
  obtain ⟨o, hform, htype, hlun, hwants⟩ := formOp_cons s k optype b w (ws.take n)
  have hnot : ¬((optype = 2 ∨ optype = 3) ∧ readSlots s k b w (ws.length + 1) < 2) := fun ⟨h2, hlt⟩ => absurd (htwo h2) (by omega)
  refine Formed.of_setOp (o := o) ?_ htype hlun (by rw [hwants]; rfl) (by rw [hwants]; exact hrest)
  rw [hexec, readRow, hw]
  dsimp only
  rw [if_neg (not_not.mpr hkind)]
  have hpick' : pick s w ((s.lun k).queue.filter fun v => v.kind == 0 && v != w && mayStart s k v) = w :: ws := hpick
  rw [hpick', hb]
  have hslots : slotsFrom s (lunCh k) b (if b < 8 then (w :: ws).length else min (slotRoom s k (w.step != 0)) (w :: ws).length) =
    readSlots s k b w (ws.length + 1) := rfl
  dsimp only
  rw [hslots, if_neg hnot, hn, List.take_succ_cons, hform]
  dsimp only
  rw [hon, decide_eq_true hk]
  rfl

theorem inRegister_iff : inRegister s k w = true ↔ (w.page, w.offs) ∈ (s.lun k).sensed := by simp [inRegister]

/-- Wants of one page, of which so many are taken. -/
theorem samePage_take {l : List Want} {n : Nat} {v : Want} (hv : v ∈ (w :: l.filter (samePage w)).take n) :
    v.page = w.page ∧ v.offs = w.offs ∧ v.step = w.step := by
  rcases List.mem_cons.mp (List.mem_of_mem_take hv) with rfl | hmem
  · exact ⟨rfl, rfl, rfl⟩
  · have hsame := (List.mem_filter.mp hmem).2
    simpa [samePage, and_assoc] using hsame

/-- Slots free after a first one stay free as more are asked for. -/
theorem two_le_slotsFrom {c base : Nat} (h : 2 ≤ slotsFrom s c base 2) {n : Nat} (hn : 2 ≤ n) : 2 ≤ slotsFrom s c base n := by
  induction n, hn using Nat.le_induction with
  | base => exact h
  | succ n hn ih =>
    simp only [slotsFrom]
    generalize (if base < 8 then 8 else 32) = lim
    split
    · omega
    · exact ih

theorem two_le_readSlots (h : 2 ≤ slotsFrom s (lunCh k) b 2 ∧ (b < 8 ∨ 2 ≤ slotRoom s k (w.step != 0))) {n : Nat} (hn : 2 ≤ n) : 2 ≤ readSlots s k b w n := by
  obtain ⟨hfrom, hroom⟩ := h
  refine two_le_slotsFrom hfrom ?_
  split
  · exact hn
  · omega

/-! ### Planes -/

/-- A want joins those of other planes. -/
def joinPlane (p : Nat) (a : List Want) (v : Want) : List Want := if a.any fun u => u.page.block % p == v.page.block % p then a else a ++ [v]

/-- Wants of different planes, picked one after another: the first stays in front, and each plane that is offered is taken. -/
theorem foldl_joinPlane (p : Nat) : ∀ (l a : List Want), (a.Pairwise fun u v => u.page.block % p ≠ v.page.block % p) →
    ((l.foldl (joinPlane p) a).Pairwise fun u v => u.page.block % p ≠ v.page.block % p) ∧ (∃ r, l.foldl (joinPlane p) a = a ++ r) ∧
      ∀ v ∈ l, ∃ u ∈ l.foldl (joinPlane p) a, u.page.block % p = v.page.block % p
  | [], a, ha => ⟨ha, ⟨[], (List.append_nil a).symm⟩, fun _ hv => absurd hv List.not_mem_nil⟩
  | v :: l, a, ha => by
    by_cases hany : (a.any fun u => u.page.block % p == v.page.block % p) = true
    · have hjoin : joinPlane p a v = a := if_pos hany
      obtain ⟨hpair, ⟨r, hr⟩, hall⟩ := foldl_joinPlane p l a ha
      rw [List.foldl_cons, hjoin]
      refine ⟨hpair, ⟨r, hr⟩, fun x hx => ?_⟩
      rcases List.mem_cons.mp hx with rfl | hmem
      · obtain ⟨u, hu, he⟩ := List.any_eq_true.mp hany
        exact ⟨u, by rw [hr]; exact List.mem_append_left _ hu, by simpa using he⟩
      · exact hall x hmem
    · have hjoin : joinPlane p a v = a ++ [v] := if_neg hany
      have hpair : (a ++ [v]).Pairwise fun u v => u.page.block % p ≠ v.page.block % p := by
        refine List.pairwise_append.mpr ⟨ha, List.pairwise_singleton _ _, fun u hu x hx => ?_⟩
        rw [List.mem_singleton.mp hx]
        intro he
        exact hany (List.any_eq_true.mpr ⟨u, hu, by simpa using he⟩)
      obtain ⟨hp, ⟨r, hr⟩, hall⟩ := foldl_joinPlane p l (a ++ [v]) hpair
      rw [List.foldl_cons, hjoin]
      refine ⟨hp, ⟨[v] ++ r, by rw [hr, List.append_assoc]⟩, fun x hx => ?_⟩
      rcases List.mem_cons.mp hx with rfl | hmem
      · exact ⟨x, by rw [hr]; simp, rfl⟩
      · exact hall x hmem

/-- A want of another plane than the first leads to a pick of two or more. -/
theorem foldl_joinPlane_two {p : Nat} {l : List Want} {v : Want} (hv : v ∈ l) (hne : v.page.block % p ≠ w.page.block % p) :
    ∃ u r, l.foldl (joinPlane p) [w] = w :: u :: r := by
  obtain ⟨-, ⟨r, hr⟩, hall⟩ := foldl_joinPlane p l [w] (List.pairwise_singleton _ _)
  obtain ⟨u, hu, he⟩ := hall v hv
  rw [hr] at hu ⊢
  cases r with
  | nil =>
    rw [List.append_nil, List.mem_singleton] at hu
    exact absurd (hu ▸ he).symm hne
  | cons u' r => exact ⟨u', r, rfl⟩

/-! ### Consecutive pages -/

theorem length_nextPages (l : List Want) : ∀ (n : Nat) (w : Want), (nextPages l n w).length ≤ n
  | 0, _ => Nat.le_refl 0
  | n + 1, w => by
    rw [nextPages]
    split
    · exact Nat.succ_le_succ (length_nextPages l n _)
    · exact Nat.zero_le _

theorem page_nextPages (l : List Want) : ∀ (n : Nat) (w : Want) (i : Nat) (a : Want), (nextPages l n w)[i]? = some a →
    a.page = { w.page with page := w.page.page + (i + 1) }
  | 0, _, _, _, h => by simp [nextPages] at h
  | n + 1, w, i, a, h => by
    rw [nextPages] at h
    split at h
    next v hfind =>
      have hv : v.page = { w.page with page := w.page.page + 1 } := by simpa using List.find?_some hfind
      cases i with
      | zero =>
        obtain rfl : v = a := by simpa using h
        exact hv
      | succ i =>
        rw [page_nextPages l n v i a (by simpa using h), hv]
        simp only [Page.mk.injEq, true_and, and_true]
        omega
    next => simp at h

theorem nextPages_of_mem {l : List Want} {v : Want} (hv : v ∈ l) (hpage : v.page = { w.page with page := w.page.page + 1 }) (n : Nat) :
    ∃ u r, nextPages l (n + 1) w = u :: r := by
  have hsome : (l.find? fun v => v.page == { w.page with page := w.page.page + 1 }).isSome := List.find?_isSome.mpr ⟨v, hv, by simp [hpage]⟩
  obtain ⟨u, hu⟩ := Option.isSome_iff_exists.mp hsome
  exact ⟨u, _, by rw [nextPages, hu]⟩

end

/-! ### The picks of the four rows -/

/-- COL_READ takes the head where its page stands in the page register, with the other codewords of the page (R210). -/
def colPick (k : Nat) (s : State) (w : Want) (l : List Want) : List Want := if inRegister s k w then w :: l.filter (samePage w) else []

/-- PAGE_READ takes the head where its page stands in no page register (R205, R210). -/
def pagePick (k : Nat) (s : State) (w : Want) (l : List Want) : List Want := if inRegister s k w then [] else w :: l.filter (samePage w)

/-- Reads that may join a multi-plane read (R212). -/
def planeMates (s : State) (k : Nat) (w : Want) (l : List Want) : List Want :=
  l.filter fun v => v.page.slc == w.page.slc && v.step == w.step && ((s.profile k).ipr || v.page.page == w.page.page)

/-- MP_READ takes pages of different planes, two or more (R212). -/
def mpPick (k : Nat) (s : State) (w : Want) (l : List Want) : List Want :=
  let ws := if inRegister s k w then [] else (planeMates s k w l).foldl (joinPlane (s.profile k).planes) [w]
  if 2 ≤ ws.length then ws else []

/-- CACHE_READ takes consecutive pages, two or more, for classes 2 and 3 (R213). -/
def cachePick (k : Nat) (s : State) (w : Want) (l : List Want) : List Want :=
  if w.cls < 2 ∨ !(s.profile k).cacheRd ∨ (s.lun k).queue.any (fun v => v.kind == 0 && decide (v.cls ≤ 1)) ∨ inRegister s k w then []
  else
    let ws := w :: nextPages l 7 w
    if 2 ≤ ws.length then ws else []

theorem exec_colRead (k : Nat) (s : State) : exec (.colRead k) s = readRow k 4 (colPick k) s := rfl
theorem exec_pageRead (k : Nat) (s : State) : exec (.pageRead k) s = readRow k 1 (pagePick k) s := rfl
theorem exec_mpRead (k : Nat) (s : State) : exec (.mpRead k) s = readRow k 2 (mpPick k) s := rfl
theorem exec_cacheRead (k : Nat) (s : State) : exec (.cacheRead k) s = readRow k 3 (cachePick k) s := rfl

theorem not_mem_sensed {s : State} {k : Nat} {w : Want} (h : (w.page, w.offs) ∉ (s.lun k).sensed) : ¬ inRegister s k w = true := fun he => h (inRegister_iff.mp he)

theorem length_take_two {α : Type} {a b : α} {r : List α} {n : Nat} (h : 2 ≤ n) : 2 ≤ ((a :: b :: r).take (max 1 n)).length := by
  rw [List.length_take, List.length_cons, List.length_cons]
  omega

/-- Settles O15: each read operation is the pick of its row, as far as there are slots. -/
theorem readsAreFormed : Obligations.ReadsAreFormed := by
  intro s k b w hon hk hw hkind hb same two
  refine ⟨fun hin => ?_, fun hout => ⟨?_, fun htwo v hv hvkind hvw hvmay => ⟨fun hslc hstep hpage hplane => ?_, fun hpage hcls hcache hurgent => ?_⟩⟩⟩
  · exact readRow_formed hon hk hw hkind hb (exec_colRead k s) (if_pos (inRegister_iff.mpr hin)) (fun h => absurd h (by decide)) fun v hv => samePage_take hv
  · exact readRow_formed hon hk hw hkind hb (exec_pageRead k s) (if_neg (not_mem_sensed hout)) (fun h => absurd h (by decide)) fun v hv => samePage_take hv
  · have hmem : v ∈ planeMates s k w (otherReads s k w) :=
      List.mem_filter.mpr ⟨mem_otherReads.mpr ⟨hv, hvkind, hvw, hvmay⟩, by simpa [hslc, hstep] using hpage⟩
    obtain ⟨u, r, hpicked⟩ := foldl_joinPlane_two hmem hplane
    have hpairs := (foldl_joinPlane (s.profile k).planes (planeMates s k w (otherReads s k w)) [w] (List.pairwise_singleton _ _)).1
    rw [hpicked] at hpairs
    have hslots := two_le_readSlots (w := w) htwo (n := (u :: r).length + 1) (by simp)
    have hpick : mpPick k s w (otherReads s k w) = w :: u :: r := by
      rw [mpPick, if_neg (not_mem_sensed hout), hpicked]
      exact if_pos (by simp)
    exact readRow_formed hon hk hw hkind hb (exec_mpRead k s) hpick (fun _ => hslots) ⟨length_take_two hslots, hpairs.sublist (List.take_sublist _ _)⟩
  · obtain ⟨u, r, hnext⟩ := nextPages_of_mem (mem_otherReads.mpr ⟨hv, hvkind, hvw, hvmay⟩) hpage 6
    have hlen := length_nextPages (otherReads s k w) 7 w
    have hpages := page_nextPages (otherReads s k w) 7 w
    rw [hnext] at hlen hpages
    have hslots := two_le_readSlots (w := w) htwo (n := (u :: r).length + 1) (by simp)
    have hpick : cachePick k s w (otherReads s k w) = w :: u :: r := by
      have hno : ¬(w.cls < 2 ∨ (!(s.profile k).cacheRd) = true ∨ ((s.lun k).queue.any fun v => v.kind == 0 && decide (v.cls ≤ 1)) = true ∨
          inRegister s k w = true) := by
        rintro (h | h | h | h)
        · omega
        · rw [hcache] at h
          exact absurd h (by decide)
        · rw [hurgent] at h
          exact absurd h (by decide)
        · exact not_mem_sensed hout h
      rw [cachePick, if_neg hno, hnext]
      exact if_pos (by simp)
    refine readRow_formed hon hk hw hkind hb (exec_cacheRead k s) hpick (fun _ => hslots) ⟨length_take_two hslots, ?_, fun n a ha => ?_⟩
    · rw [List.length_take]
      simp only [List.length_cons] at hlen ⊢
      omega
    · have hin : (w :: u :: r)[n]? = some a := by
        rw [List.getElem?_take] at ha
        split at ha
        · exact ha
        · exact absurd ha (by simp)
      cases n with
      | zero =>
        obtain rfl : w = a := by simpa using hin
        rfl
      | succ n => exact hpages n a (by simpa using hin)

end Sys2Proof.Machine
end

section
/-! PROOFS. How programs, seals, erases, OTP and feature operations are formed, how operations enter their slots, and erase suspension, ageing, stalls and
reissue (R177, R205, R214, R217, R220 to R240). -/

namespace Sys2Proof.Machine

section
variable {s : State} {k : Nat} {w : Want}

/-- The slots of a formation: a program asks for buffer slots, the others for none (R293). -/
theorem formRow_formed (hon : s.coreOn = true) (hk : k < 4096) (hw : headWant s k = some w) {kind : Nat} (hkind : w.kind = kind)
    {i : Instr} {optype : Nat} {pick : State → Want → List Want} (hexec : exec i s = formRow k optype kind pick s) {ws : List Want} (hpick : pick s w = w :: ws)
    (hslots : kind = 1 → (progSlots s k (w :: ws)).isSome) {rest : List Want → Prop} (hrest : rest (w :: ws)) : Formed s i k optype w rest := by
  obtain ⟨⟨b, n⟩, hb⟩ : ∃ e, (if kind = 1 then progSlots s k (pick s w) else some (0, 0)) = some e := by
    by_cases h1 : kind = 1
    · rw [if_pos h1, hpick]
      exact Option.isSome_iff_exists.mp (hslots h1)
    · exact ⟨(0, 0), if_neg h1⟩
  obtain ⟨o, hform, htype, hlun, hwants⟩ := formOp_cons s k optype b w ws
  refine Formed.of_setOp (o := { o with slots := n }) ?_ htype hlun (by show o.wants.head? = _; rw [hwants]; rfl) (by show rest o.wants; rw [hwants]; exact hrest)
  rw [hexec, formRow, hw]
  dsimp only
  rw [if_neg (not_not.mpr hkind), hb]
  dsimp only
  rw [hpick, hform]
  dsimp only
  rw [hon, decide_eq_true hk]
  rfl

/-- Whether a program finds buffer slots hangs on the slots that are free, not on its wants (R293). -/
theorem progSlots_isSome {ws : List Want} (h : (progSlots s k [w]).isSome) : (progSlots s k ws).isSome := by
  unfold progSlots at h ⊢
  dsimp only at h ⊢
  generalize (List.range 24).filter (fun i => !(bufUsed s (lunCh k)).contains (8 + i)) = free at h ⊢
  cases free with
  | nil => exact h
  | cons a l =>
    dsimp only at h ⊢
    split at h
    next => exact absurd h (by decide)
    next hgt => rw [if_neg hgt]; rfl

theorem manyPlanes_iff : manyPlanes s k w = true ↔ 1 < (s.profile k).planes ∧ 1 < w.data.length := by simp [manyPlanes]

/-- The program wants of one block that a cached program may join to its first (R217). -/
def stepMates (s : State) (k : Nat) (w : Want) : List Want :=
  (s.lun k).queue.filter fun v => v.kind == 1 && v.page.block == w.page.block && v.page.slc == w.page.slc && decide (2 ≤ v.cls) && mayStart s k v

theorem nextSteps_steps (l : List Want) : ∀ (n r i : Nat) (a : Want), (nextSteps s k l n r)[i]? = some a → a ∈ l ∧ wantStep s k a = r + (i + 1)
  | 0, _, _, _, h => by simp [nextSteps] at h
  | n + 1, r, i, a, h => by
    rw [nextSteps] at h
    split at h
    next v hfind =>
      have hv : wantStep s k v = r + 1 := by simpa using List.find?_some hfind
      cases i with
      | zero =>
        obtain rfl : v = a := by simpa using h
        exact ⟨List.mem_of_find?_eq_some hfind, hv⟩
      | succ i =>
        obtain ⟨hmem, hstep⟩ := nextSteps_steps l n (r + 1) i a (by simpa using h)
        exact ⟨hmem, by omega⟩
    next => simp at h

theorem nextSteps_of_mem {l : List Want} {v : Want} {r : Nat} (hv : v ∈ l) (hstep : wantStep s k v = r + 1) : ∃ u t, nextSteps s k l l.length r = u :: t := by
  obtain ⟨n, hn⟩ : ∃ n, l.length = n + 1 := ⟨l.length - 1, by have := List.length_pos_of_mem hv; omega⟩
  have hsome : (l.find? fun v => wantStep s k v == r + 1).isSome := List.find?_isSome.mpr ⟨v, hv, by simp [hstep]⟩
  obtain ⟨u, hu⟩ := Option.isSome_iff_exists.mp hsome
  exact ⟨u, _, by rw [hn, nextSteps, hu]⟩

/-- The pick of CACHE_PROG (R217). -/
def cacheProgPick (k : Nat) (s : State) (w : Want) : List Want :=
  if w.page.slc ∨ !(s.profile k).cacheProg ∨ w.cls < 2 ∨ manyPlanes s k w then []
  else
    let r := nextSteps s k (stepMates s k w) (stepMates s k w).length (wantStep s k w)
    if r.isEmpty then [] else w :: r

theorem exec_cacheProg (k : Nat) (s : State) : exec (.cacheProg k) s = formRow k 0x0A 1 (cacheProgPick k) s := rfl

/-- A cached program of two consecutive steps or more is formed. -/
theorem formed_cacheProg (hon : s.coreOn = true) (hk : k < 4096) (hw : headWant s k = some w) (hkind : w.kind = 1) (hslots : (progSlots s k [w]).isSome)
    (hslc : w.page.slc = false) (hmany : ¬ manyPlanes s k w = true) (hcache : (s.profile k).cacheProg = true) (hcls : 2 ≤ w.cls) {v : Want}
    (hv : v ∈ stepMates s k w) (hstep : wantStep s k v = wantStep s k w + 1) :
    Formed s (.cacheProg k) k 0x0A w fun l => 2 ≤ l.length ∧
      ∀ n a, l[n]? = some a → a.kind = 1 ∧ a.page.block = w.page.block ∧ wantStep s k a = wantStep s k w + n := by
  obtain ⟨u, r, hnext⟩ := nextSteps_of_mem hv hstep
  have hsteps := nextSteps_steps (s := s) (k := k) (stepMates s k w) (stepMates s k w).length (wantStep s k w)
  rw [hnext] at hsteps
  have hpick : cacheProgPick k s w = w :: u :: r := by
    have hno : ¬(w.page.slc = true ∨ (!(s.profile k).cacheProg) = true ∨ w.cls < 2 ∨ manyPlanes s k w = true) := by
      rintro (h | h | h | h)
      · rw [hslc] at h
        exact absurd h (by decide)
      · rw [hcache] at h
        exact absurd h (by decide)
      · omega
      · exact hmany h
    rw [cacheProgPick, if_neg hno, hnext]
    rfl
  refine formRow_formed hon hk hw hkind (exec_cacheProg k s) hpick (fun _ => progSlots_isSome hslots) ⟨by simp, fun n a ha => ?_⟩
  cases n with
  | zero =>
    obtain rfl : w = a := by simpa using ha
    exact ⟨hkind, rfl, rfl⟩
  | succ n =>
    obtain ⟨hmem, hst⟩ := hsteps n a (by simpa using ha)
    have hmate := (List.mem_filter.mp hmem).2
    simp only [Bool.and_eq_true, beq_iff_eq] at hmate
    exact ⟨hmate.1.1.1.1, hmate.1.1.1.2, hst⟩

end

/-- Settles O16: each formation is the pick of its row. -/
theorem programsAndErasesAreFormed : Obligations.ProgramsAndErasesAreFormed := by
  intro s k w hon hk hw p many alone
  have hmany : many ↔ manyPlanes s k w = true := manyPlanes_iff.symm
  refine ⟨fun hkind hslots => ⟨fun hslc hm => ?_, fun hm => ?_, fun hslc hm => ?_, fun hslc hm hcache hcls ⟨v, hv, hvkind, hvblock, hvslc, hvcls, hvmay, hstep⟩ => ?_⟩,
    fun hkind => ?_, fun hkind => ⟨fun hp => ?_, fun hp => ?_⟩, fun hkind => ⟨fun ho => ?_, fun ho => ?_, fun ho => ?_, fun ho => ?_⟩⟩
  · refine formRow_formed hon hk hw hkind (ws := []) (pick := fun s w => if manyPlanes s k w ∨ w.page.slc then [] else [w]) rfl (if_neg ?_) (fun _ => hslots) rfl
    rw [← hmany, hslc]
    exact fun h => h.elim hm (by decide)
  · exact formRow_formed hon hk hw hkind (ws := []) (pick := fun s w => if manyPlanes s k w then [w] else []) rfl (if_pos (hmany.mp hm)) (fun _ => hslots) rfl
  · exact formRow_formed hon hk hw hkind (ws := []) (pick := fun s w => if w.page.slc ∧ !manyPlanes s k w then [w] else []) rfl
      (if_pos ⟨hslc, by simpa using fun h => hm (hmany.mpr h)⟩) (fun _ => hslots) rfl
  · refine formed_cacheProg hon hk hw hkind hslots hslc (fun h => hm (hmany.mpr h)) hcache hcls (List.mem_filter.mpr ⟨hv, ?_⟩) hstep
    simp [hvkind, hvblock, hvslc, hslc, hvcls, hvmay]
  · exact formRow_formed hon hk hw hkind (ws := []) (pick := fun _ w => [w]) rfl rfl (fun h => absurd h (by decide)) rfl
  · exact formRow_formed hon hk hw hkind (ws := []) (pick := fun s w => if (s.profile k).planes = 1 then [w] else []) rfl (if_pos hp)
      (fun h => absurd h (by decide)) rfl
  · exact formRow_formed hon hk hw hkind (ws := []) (pick := fun s w => if (s.profile k).planes = 1 then [] else [w]) rfl (if_neg hp)
      (fun h => absurd h (by decide)) rfl
  · exact formRow_formed hon hk hw hkind (ws := []) (pick := fun _ w => if w.optype = 0x18 then [w] else []) rfl (if_pos ho) (fun h => absurd h (by decide)) rfl
  · exact formRow_formed hon hk hw hkind (ws := []) (pick := fun _ w => if w.optype = 0x19 then [w] else []) rfl (if_pos ho) (fun h => absurd h (by decide)) rfl
  · exact formRow_formed hon hk hw hkind (ws := []) (pick := fun _ w => if w.optype = 0x20 then [w] else []) rfl (if_pos ho) (fun h => absurd h (by decide)) rfl
  · exact formRow_formed hon hk hw hkind (ws := []) (pick := fun _ w => if w.optype = 0x21 then [w] else []) rfl (if_pos ho) (fun h => absurd h (by decide)) rfl

end Sys2Proof.Machine
end

section
/-! PROOFS. Operations enter their slots; erase suspension, ageing, stalls and reissue (R177, R220 to R240, R688). -/

namespace Sys2Proof.Machine

/-! ## Issue -/

/-- The sequence of an operation reads the profiles and the offsets last written to its LUN (Table 06-2, R211). -/
theorem opSeq_congr {s t : State} (h : t = { s with md := t.md }) (o : Op) (hofs : (t.lun o.lun).lastOfs = (s.lun o.lun).lastOfs) : opSeq t o = opSeq s o := by
  have hprof (k : Nat) : t.profile k = s.profile k := by rw [h]; rfl
  have hlevels (g : Page) : usedOffs t g = usedOffs s g := by rw [h]; rfl
  have hoffs : offsetItems t o = offsetItems s o := by simp only [offsetItems, hprof, hofs, hlevels]
  have hfetch : wantFetch t = wantFetch s := funext fun w => by simp only [wantFetch, wantRow, hprof]
  simp only [opSeq, hoffs, hfetch, hprof, readItems, wantRow, progItems, eraseItems]

/-- A granted operation enters its free slot at its vector word (R177). -/
theorem exec_stokerIssue {s : State} {k : Nat} {o : Op} (hon : s.coreOn = true) (hop : (s.lun k).op = some o) (hg : (s.lun k).granted = true)
    (hfree : s.inSlot k = none) (hfault : s.flag Fld.stkStsFault (lunCh k) = false) (hpass : mayPass s k o = true) (hp0 : s.pwr.st = .p0)
    (hrestart : s.pwr.restartAt ≤ s.now) :
    ∃ t, exec (.stokerIssue k) s = .next t ∧ t.lun k = { s.lun k with op := none, granted := false } ∧
      Tab.find (lunSlot k) (t.chan (lunCh k)).slots = some { op := o, upc := BitVec.ofNat 15 o.optype, g := [0, 0, 0, 0], seq := opSeq s o } ∧
      (∀ j, j ≠ k → t.lun j = s.lun j) ∧ t = { s with ch := t.ch, md := { s.md with luns := t.md.luns } } := by
  have hstay : s.restart = s := by rw [State.restart, hp0]
  have hofs : ((modLun k (fun l => { l with op := none, granted := false }) s).lun o.lun).lastOfs = (s.lun o.lun).lastOfs := by
    by_cases he : o.lun = k
    · rw [he, State.lun_modLun_same]
    · rw [State.lun_modLun_ne he]
  have hseq := opSeq_congr (modLun_rest k (fun l => { l with op := none, granted := false }) s) o hofs
  have hlun := State.lun_modLun_same k (fun l => { l with op := none, granted := false }) s
  have hne (j : Nat) (hj : j ≠ k) := State.lun_modLun_ne hj (fun l => { l with op := none, granted := false }) s
  have hrest := modLun_rest k (fun l => { l with op := none, granted := false }) s
  have hexec : exec (.stokerIssue k) s = .next (setSlot (lunCh k) (lunSlot k) { op := o, upc := BitVec.ofNat 15 o.optype, g := [0, 0, 0, 0], seq := opSeq s o }
      (modLun k (fun l => { l with op := none, granted := false }) s)) := by
    show execStokerIssue k s = _
    simp only [execStokerIssue, hop, hon, hg, hfree, hfault, hpass, Option.isNone_none, Bool.not_false, Bool.and_self, onlyIf_true, hstay,
      if_neg (Nat.not_lt.mpr hrestart), hseq]
  refine ⟨_, hexec, ?_⟩
  generalize modLun k (fun l => { l with op := none, granted := false }) s = u at hlun hne hrest
  refine ⟨hlun, ?_, hne, ?_⟩
  · rw [setSlot_chan]
    exact Tab.find_put_same _ _ _
  · rw [setSlot, State.setChan_eq, hrest]

/-! ## Erase suspension and ageing -/

theorem exec_eraseSuspendRequest {s : State} {k : Nat} {e : ErState} (hon : s.coreOn = true) (her : (s.lun k).er = some e) (hmay : mayRequestSuspend s k e = true)
    {x : Slot} (hx : s.inSlot k = some x) (herase : isErase x.op.optype = true) :
    exec (.eraseSuspendRequest k) s = .next (setSlot (lunCh k) (lunSlot k) { x with susp := true } s) := by
  show execEraseSuspendRequest k s = _
  simp only [execEraseSuspendRequest, her, hon, hmay, Bool.and_self, onlyIf_true, raiseSuspend, hx, herase, if_true]

/-- A change of one LUN's part is all that a command does. -/
theorem modLun_only {s : State} {k : Nat} {i : Instr} {f : LunSt → LunSt} (h : exec i s = .next (modLun k f s)) {l : LunSt} (hl : f (s.lun k) = l) :
    ∃ t, exec i s = .next t ∧ t.lun k = l ∧ (∀ j, j ≠ k → t.lun j = s.lun j) ∧ t = { s with md := { s.md with luns := t.md.luns } } :=
  ⟨_, h, by rw [State.lun_modLun_same, hl], fun j hj => State.lun_modLun_ne hj f s, modLun_rest k f s⟩

theorem exec_suspendWindowExpiry {s : State} {k : Nat} {e : ErState} {a : Nat} (hon : s.coreOn = true) (her : (s.lun k).er = some e) (ha : e.suspAt = some a)
    (hpast : a + 1000000 ≤ s.now) : exec (.suspendWindowExpiry k) s = .next (modLun k (fun l => { l with er := some { e with closed := true } }) s) := by
  show execSuspendWindowExpiry k s = _
  simp only [execSuspendWindowExpiry, her, ha, hon, decide_eq_true hpast, Bool.and_self, onlyIf_true]

theorem exec_eraseResume {s : State} {k : Nat} {e : ErState} {a : Nat} (hon : s.coreOn = true) (her : (s.lun k).er = some e) (ha : e.suspAt = some a)
    (hbank : s.banked = false) (hflush : flushing s = false) (hdone : s.flag Fld.mapFlushStsDone = false) (hop : (s.lun k).op = none) (hfree : s.inSlot k = none)
    (honline : s.online k = true) (hend : e.closed = true ∨ a + 1000000 ≤ s.now ∨ suspWork s k = false) :
    exec (.eraseResume k) s = .next (modLun k (fun l => { l with op := some { e.op with optype := 0x12 }, granted := false }) s) := by
  have hc : (e.closed || decide (a + 1000000 ≤ s.now) || rawHeld s k || !suspWork s k) = true := by
    rcases hend with h | h | h <;> simp [h]
  show execEraseResume k s = _
  simp only [execEraseResume, her, ha, hon, hbank, hflush, hdone, hop, hfree, honline, hc, Option.isNone_none, Bool.not_false, Bool.and_self, onlyIf_true]

theorem exec_class3Aged {s : State} {k : Nat} {w : Want} (hon : s.coreOn = true) (hw : (s.lun k).head3 = some w) (hhead : class3Head (s.lun k) = some w)
    (hage : 10000000 ≤ (s.lun k).age) : exec (.class3Aged k) s = .next (modLun k (fun l => { l with aged := true }) s) := by
  show execClass3Aged k s = _
  simp [execClass3Aged, hon, hw, hhead, hage]

theorem exec_wprotReissue {s : State} {k a : Nat} {o : Op} (hon : s.coreOn = true) (hw : (s.lun k).wprot = some (o, a)) (hop : (s.lun k).op = none)
    (hpast : a + 1000000 ≤ s.now) :
    exec (.wprotReissue k) s = .next (modLun k (fun l => { l with op := some { o with again := true }, granted := false, wprot := none }) s) := by
  show execWprotReissue k s = _
  simp only [execWprotReissue, hw, hop, hon, decide_eq_true hpast, Option.isNone_none, Bool.and_self, onlyIf_true]

/-! ## The stall poll -/

/-- The state as a poll's byte is judged: the target selected, its status read, FL_CE_N high again (R228). -/
def polledState (s : State) (k : Nat) (o : Op) : State :=
  raiseCe (lunCh k) (modLun k (fun l => { l with polled := s.now })
    (busPut (lunCh k) (.statusRow (2 ^ lunTgt k) o.row) (selectTarget (lunCh k) (lunTgt k) s) (odtOf (selectTarget (lunCh k) (lunTgt k) s) (lunCh k))))

theorem polledState_status {s : State} {k : Nat} (o : Op) (hrate : needsRate s (lunCh k) (lunTgt k) = false) :
    ((polledState s k o).chan (lunCh k)).bus = (s.chan (lunCh k)).bus ++ [.statusRow (2 ^ lunTgt k) o.row] ∧
      (polledState s k o).lun k = { s.lun k with polled := s.now } ∧ (∀ j, j ≠ k → (polledState s k o).lun j = s.lun j) ∧
      (polledState s k o).md.ended = s.md.ended ∧ (polledState s k o).now = s.now ∧ (∀ j, (polledState s k o).profile j = s.profile j) ∧
      ∀ i, (polledState s k o).flag Fld.stkTgtcfgKx i = s.flag Fld.stkTgtcfgKx i := by
  have hsel := PinsStep.selectMask (mask := 2 ^ lunTgt k) hrate
  unfold polledState selectTarget
  generalize selectMask (lunCh k) (lunTgt k) (2 ^ lunTgt k) s = t0 at hsel
  obtain ⟨_, _, _, _, _, _, hch0⟩ := hsel.chan
  have hput := ChanStep.busPut (lunCh k) (.statusRow (2 ^ lunTgt k) o.row) t0 (odtOf t0 (lunCh k))
  have hbus := bus_busPut (lunCh k) (.statusRow (2 ^ lunTgt k) o.row) t0 (odtOf t0 (lunCh k))
  generalize busPut (lunCh k) (.statusRow (2 ^ lunTgt k) o.row) t0 (odtOf t0 (lunCh k)) = t1 at hput hbus
  have hstep := hsel.step.trans hput
  have hlun (j : Nat) : t1.lun j = s.lun j := by rw [State.lun, hstep.rest, State.lun]
  have hsame := State.lun_modLun_same k (fun l => { l with polled := s.now }) t1
  have hne (j : Nat) (hj : j ≠ k) := State.lun_modLun_ne hj (fun l => { l with polled := s.now }) t1
  have hmod := modLun_rest k (fun l => { l with polled := s.now }) t1
  generalize modLun k (fun l => { l with polled := s.now }) t1 = t2 at hsame hne hmod
  have hraise := PinsStep.raiseCe (lunCh k) t2
  obtain ⟨_, _, _, _, _, _, hch3⟩ := hraise.chan
  generalize raiseCe (lunCh k) t2 = t3 at hraise hch3
  have hlun3 (j : Nat) : t3.lun j = t2.lun j := by rw [State.lun, hraise.step.rest, State.lun]
  have hchan2 (d : Nat) : t2.chan d = t1.chan d := by rw [State.chan, hmod, State.chan]
  refine ⟨?_, ?_, fun j hj => ?_, ?_, ?_, fun j => ?_, fun i => ?_⟩
  · rw [hch3, hchan2, hbus, hch0]
  · rw [hlun3, hsame, hlun]
  · rw [hlun3, hne j hj, hlun]
  · rw [hraise.step.rest, hmod, hstep.rest]
  · rw [State.now, hraise.step.rest, hmod, hstep.rest, State.now]
  · rw [State.profile, State.profileAt, hraise.step.rest, hmod, hstep.rest, State.profile, State.profileAt]
  · rw [hraise.step.flag (by decide) (by decide), State.flag_of_regs (by rw [hmod] : t2.regs = t1.regs), hstep.flag (by decide) (by decide)]

theorem atRate_of_ready {c n : Nat} {s : State} (hlock : rateLocked s c = false) (hrate : needsRate s c n = false) (f : State → State) : atRate c n f s = f s := by
  simp only [atRate, hlock, hrate, Bool.false_eq_true, if_false]

/-- What a poll does once its target may be selected (R228). -/
def pollRun (k : Nat) (o : Op) (a : Nat) (b : Byte) (s : State) : State :=
  let t := statusRead (lunCh k) (lunTgt k) o.row (s.flag Fld.stkTgtcfgKx (tgtIdx k)) 2 (selectTarget (lunCh k) (lunTgt k) s)
  stallPolled k o a b (raiseCe (lunCh k) (modLun k (fun l => { l with polled := t.now }) t))

theorem exec_stallPoll_eq {s : State} {k a : Nat} {o : Op} (hst : (s.lun k).stall = some (o, a)) (b : Byte) :
    exec (.stallPoll k b) s = onlyIf (s.coreOn && maintFirst s (lunCh k) && stallDue s k) s (atRate (lunCh k) (lunTgt k) (pollRun k o a b) s) := by
  show execStallPoll k b s = _
  rw [execStallPoll, hst]
  rfl

theorem exec_stallPoll {s : State} {k a : Nat} {o : Op} (hon : s.coreOn = true) (hst : (s.lun k).stall = some (o, a)) (hmaint : maintFirst s (lunCh k) = true)
    (hdue : stallDue s k = true) (hrate : needsRate s (lunCh k) (lunTgt k) = false) (hkx : s.flag Fld.stkTgtcfgKx (tgtIdx k) = false) (b : Byte) :
    exec (.stallPoll k b) s = .next (stallPolled k o a b (polledState s k o)) := by
  have hlock : rateLocked s (lunCh k) = false := by
    rw [maintFirst] at hmaint
    simp only [Bool.and_eq_true] at hmaint
    simpa using hmaint.1.2
  have hnow : (busPut (lunCh k) (.statusRow (2 ^ lunTgt k) o.row) (selectTarget (lunCh k) (lunTgt k) s) (odtOf (selectTarget (lunCh k) (lunTgt k) s) (lunCh k))).now =
      s.now := by
    have hsel : PinsStep s (selectTarget (lunCh k) (lunTgt k) s) (lunCh k) := .selectMask hrate
    have hstep := hsel.step.trans (.busPut (lunCh k) (.statusRow (2 ^ lunTgt k) o.row) _ (odtOf (selectTarget (lunCh k) (lunTgt k) s) (lunCh k)))
    rw [State.now, hstep.rest, State.now]
  have hread : statusRead (lunCh k) (lunTgt k) o.row false 2 (selectTarget (lunCh k) (lunTgt k) s) =
      busPut (lunCh k) (.statusRow (2 ^ lunTgt k) o.row) (selectTarget (lunCh k) (lunTgt k) s) (odtOf (selectTarget (lunCh k) (lunTgt k) s) (lunCh k)) := by
    simp only [statusRead, Bool.false_eq_true, if_false, Nat.one_lt_ofNat, if_true]
  rw [exec_stallPoll_eq hst, hon, hmaint, hdue]
  refine (onlyIf_true _ _).trans ?_
  rw [atRate_of_ready hlock hrate, pollRun, hkx, hread, hnow, polledState]

theorem stallOver_status (k : Nat) (o : Op) (code : Nat) (b : Byte) (s : State) :
    (stallOver k o code b s).lun k = { s.lun k with stall := none } ∧ (∀ j, j ≠ k → (stallOver k o code b s).lun j = s.lun j) ∧
      (∀ d, (stallOver k o code b s).chan d = s.chan d) ∧
      (stallOver k o code b s).md.ended = s.md.ended ++ [{ op := o, code := code, status := b, went := true, sent := wantBytes o.wants, reported := true }] :=
  ⟨State.lun_modLun_same k (fun l => { l with stall := none }) s, fun _ hj => State.lun_modLun_ne hj (fun l => { l with stall := none }) s, fun _ => rfl, rfl⟩

theorem lunOff_md (k : Nat) (s : State) : (lunOff k s).md.luns = s.md.luns ∧ (lunOff k s).ch = s.ch := by
  unfold lunOff
  split
  · dsimp only
    split <;> exact ⟨rfl, rfl⟩
  · exact ⟨rfl, rfl⟩

/-- A LUN that goes offline leaves the parts of all LUNs and the channels. -/
theorem lunOff_status (k : Nat) (s : State) : (∀ j, (lunOff k s).lun j = s.lun j) ∧ ∀ d, (lunOff k s).chan d = s.chan d := by
  obtain ⟨hmd, hch⟩ := lunOff_md k s
  exact ⟨fun j => by rw [State.lun, hmd, State.lun], fun d => by rw [State.chan, hch, State.chan]⟩

/-- A poll's byte outside KX-DDR touches no other LUN and no pin (R228). -/
theorem stallPolled_frame {k a : Nat} {o : Op} {b : Byte} {s : State} (hkx : s.flag Fld.stkTgtcfgKx (tgtIdx k) = false) :
    (∀ j, j ≠ k → (stallPolled k o a b s).lun j = s.lun j) ∧ ∀ d, (stallPolled k o a b s).chan d = s.chan d := by
  simp only [stallPolled, hkx, Bool.false_and, Bool.false_eq_true, if_false]
  split
  · obtain ⟨-, hne, hch, -⟩ := stallOver_status k o (lateCode o b) b s
    exact ⟨hne, hch⟩
  · split
    · obtain ⟨-, hne, hch, -⟩ := stallOver_status k o 1 1 ((lunOff k s).logPacked uSTK 0x34 [(1, lunCh k), (1, lunTgt k), (1, lunL k)])
      obtain ⟨hoff, hoffch⟩ := lunOff_status k s
      exact ⟨fun j hj => (hne j hj).trans (hoff j), fun d => (hch d).trans (hoffch d)⟩
    · exact ⟨fun _ _ => rfl, fun _ => rfl⟩

/-- A ready byte ends the stall; a busy one within its time leaves it (R228). -/
theorem stallPolled_ready {k a : Nat} {o : Op} {b : Byte} {s : State} (hkx : s.flag Fld.stkTgtcfgKx (tgtIdx k) = false) (hb : b.getLsbD 6 = true) :
    stallPolled k o a b s = stallOver k o (lateCode o b) b s := by
  simp only [stallPolled, hkx, Bool.false_and, Bool.false_eq_true, if_false, hb, Bool.not_false, Bool.and_self, if_true]

theorem stallPolled_busy {k a : Nat} {o : Op} {b : Byte} {s : State} (hkx : s.flag Fld.stkTgtcfgKx (tgtIdx k) = false) (hb : b.getLsbD 6 = false)
    (hin : s.now < a + ((s.profile k).lbt + 1000) * 1000) : stallPolled k o a b s = s := by
  simp only [stallPolled, hkx, Bool.false_and, Bool.false_eq_true, if_false, hb, if_neg (Nat.not_le.mpr hin)]

/-- Settles O17: each command by its own row. -/
theorem operationIssueAndSuspension : Obligations.OperationIssueAndSuspension := by
  refine ⟨fun s k o hon hop hg hfree hfault hpass hp0 hr => exec_stokerIssue hon hop hg hfree hfault hpass hp0 hr, fun s k e hon her => ⟨fun hmay x hx herase => ?_,
    fun a ha => ⟨fun hpast => ?_, fun hbank hflush hdone hop hfree honline hend => ?_⟩⟩, fun s k w hon hw hhead hage => ?_,
    fun s k a o b hon hst hmaint hdue hrate hkx => ?_, fun s k a o hon hw hop hpast => ?_⟩
  · exact ⟨_, exec_eraseSuspendRequest hon her hmay hx herase, SlotTo.setSlot s _ _ _⟩
  · exact modLun_only (exec_suspendWindowExpiry hon her ha hpast) rfl
  · exact modLun_only (exec_eraseResume hon her ha hbank hflush hdone hop hfree honline hend) rfl
  · exact modLun_only (exec_class3Aged hon hw hhead hage) rfl
  · obtain ⟨hbus, hlun, hne, hended, hnow, hprof, hflag⟩ := polledState_status o hrate
    have hexec := exec_stallPoll hon hst hmaint hdue hrate hkx b
    generalize polledState s k o = p at hbus hlun hne hended hnow hprof hflag hexec
    have hkx' : p.flag Fld.stkTgtcfgKx (tgtIdx k) = false := (hflag _).trans hkx
    obtain ⟨hframe, hchan⟩ := stallPolled_frame (a := a) (o := o) (b := b) hkx'
    refine ⟨_, hexec, fun j hj => (hframe j hj).trans (hne j hj), by rw [hchan, hbus], fun hb => ?_, fun hb hin => ?_⟩
    · rw [stallPolled_ready hkx' hb]
      obtain ⟨hk, -, -, hend⟩ := stallOver_status k o (lateCode o b) b p
      exact ⟨by rw [hk, hlun], by rw [hend, hended]⟩
    · rw [stallPolled_busy hkx' hb (by rw [hnow, hprof]; exact hin)]
      exact ⟨hlun, hended⟩
  · exact modLun_only (exec_wprotReissue hon hw hop hpast) rfl

end Sys2Proof.Machine
end

section
/-! SUPPORT. Crystallizers and reads: what granting units leaves, which codeword is granted, and what passes to the owner of a read (R30, R252, R255, Table 01-7). -/

namespace Sys2Proof.Machine

/-! ## Granting units -/

theorem UnitsOnly.rfl {s : State} : UnitsOnly s s := Eq.refl s

theorem UnitsOnly.trans {s t u : State} (h : UnitsOnly s t) (g : UnitsOnly t u) : UnitsOnly s u := by
  unfold UnitsOnly at h g ⊢
  rw [g, h]

theorem UnitsOnly.foldl {α : Type} {f : State → α → State} (hf : ∀ s a, UnitsOnly s (f s a)) (l : List α) : ∀ s, UnitsOnly s (l.foldl f s) := by
  induction l with
  | nil => exact fun _ => .rfl
  | cons a l ih => exact fun s => (hf s a).trans (ih (f s a))

theorem UnitsOnly.regs {s t : State} (h : UnitsOnly s t) : t.regs = s.regs := by rw [h]
theorem UnitsOnly.ch {s t : State} (h : UnitsOnly s t) : t.ch = s.ch := by rw [h]
theorem UnitsOnly.rds {s t : State} (h : UnitsOnly s t) : t.md.rds = s.md.rds := by rw [h]
theorem UnitsOnly.luns {s t : State} (h : UnitsOnly s t) : t.md.luns = s.md.luns := by rw [h]

theorem UnitsOnly.rd {s t : State} (h : UnitsOnly s t) (id : Nat) : t.rd id = s.rd id := by rw [State.rd, h.rds, State.rd]
theorem UnitsOnly.chan {s t : State} (h : UnitsOnly s t) (c : Nat) : t.chan c = s.chan c := by rw [State.chan, h.ch, State.chan]
theorem UnitsOnly.lun {s t : State} (h : UnitsOnly s t) (k : Nat) : t.lun k = s.lun k := by rw [State.lun, h.luns, State.lun]

theorem UnitsOnly.hardOn {s t : State} (h : UnitsOnly s t) (u : Nat) : hardOn t u = hardOn s u := by
  rw [Machine.hardOn, State.reg_of_regs h.regs, State.reg_of_regs h.regs, Machine.hardOn]

theorem UnitsOnly.softUnitOn {s t : State} (h : UnitsOnly s t) (u : Nat) : softUnitOn t u = softUnitOn s u := by
  rw [Machine.softUnitOn, State.reg_of_regs h.regs, Machine.softUnitOn]

theorem UnitsOnly.md {s t : State} (h : UnitsOnly s t) : t.md = { s.md with hardRun := t.md.hardRun, softRun := t.md.softRun, hardLast := t.md.hardLast } := by
  conv_lhs => rw [h]

theorem UnitsOnly.freeUnused (s : State) : UnitsOnly s (freeUnused s) := Eq.refl _

theorem UnitsOnly.grantHard (s : State) (u : Nat) : UnitsOnly s (grantHard s u) := by
  unfold Machine.grantHard
  split
  · exact .rfl
  · split
    · exact .rfl
    · exact Eq.refl _

theorem grantSoft_rest (s : State) (u : Nat) : ∃ r, grantSoft s u = { s with md := { s.md with softRun := r } } := by
  unfold grantSoft
  split
  · exact ⟨_, rfl⟩
  · dsimp only
    split
    · exact ⟨_, rfl⟩
    · exact ⟨_, rfl⟩

theorem UnitsOnly.grantSoft (s : State) (u : Nat) : UnitsOnly s (grantSoft s u) := by
  obtain ⟨r, h⟩ := grantSoft_rest s u
  rw [h]
  exact Eq.refl _

theorem UnitsOnly.grantUnits (s : State) : UnitsOnly s (grantUnits s) := by
  unfold Machine.grantUnits
  dsimp only
  have hfree := UnitsOnly.freeUnused s
  generalize Machine.freeUnused s = t at hfree
  have hhard : UnitsOnly s (if (hardQueue t).isEmpty then t else (List.range 64).foldl Machine.grantHard t) := by
    split
    · exact hfree
    · exact hfree.trans (.foldl UnitsOnly.grantHard _ t)
  generalize (if (hardQueue t).isEmpty then t else (List.range 64).foldl Machine.grantHard t) = v at hhard
  split
  · exact hhard.trans (.foldl UnitsOnly.grantSoft _ v)
  · exact hhard

/-! ## The codeword that waits -/

theorem Tab.mem_of_find {α : Type} {k : Nat} {v : α} : ∀ {t : Tab α}, Tab.find k t = some v → (k, v) ∈ t
  | [], h => by simp [Tab.find] at h
  | (a, w) :: r, h => by
    rw [Tab.find] at h
    split at h
    next he => rw [he, Option.some.inj h]; exact List.mem_cons_self
    next => exact List.mem_cons_of_mem _ (Tab.mem_of_find h)

/-- A slot that a channel's buffer holds stands in the table of channels. -/
theorem mem_ch_of_buf {s : State} {c slot : Nat} {b : BufSlot} (h : Tab.find slot (s.chan c).buf = some b) : (c, s.chan c) ∈ s.ch := by
  have hget : s.chan c = (Tab.find c s.ch).getD {} := Eq.refl _
  cases hf : Tab.find c s.ch with
  | none =>
    rw [hget, hf] at h
    exact absurd h (by simp [Tab.find])
  | some x =>
    rw [hget, hf]
    exact Tab.mem_of_find hf

/-- A landed codeword waits for a hard unit, unless one runs it. -/
theorem mem_hardQueue {s : State} {c slot : Nat} {b : BufSlot} (h : Tab.find slot (s.chan c).buf = some b) (hb : b.stage = 1)
    (hrun : ∀ e ∈ s.md.hardRun, e.2 ≠ (c, slot)) : (c, slot, b) ∈ hardQueue s := by
  refine List.mem_flatMap.mpr ⟨(c, s.chan c), mem_ch_of_buf h, List.mem_map.mpr ⟨(slot, b), List.mem_filter.mpr ⟨Tab.mem_of_find h, ?_⟩, Eq.refl _⟩⟩
  simp only [hb, beq_self_eq_true, Bool.true_and, Bool.not_eq_true', List.any_eq_false, beq_iff_eq]
  exact fun e he => hrun e he

/-- The codeword that the next free hard unit takes (Table 01-7). -/
def topHard (s : State) : Option (Nat × Nat × BufSlot) :=
  (hardQueue s).foldl (fun (a : Option (Nat × Nat × BufSlot)) b => match a with
      | none => some b
      | some x => if hardFirst s x b then some x else some b) none

theorem foldl_choice_isSome (s : State) : ∀ (l : List (Nat × Nat × BufSlot)) (a : Option (Nat × Nat × BufSlot)), a.isSome ∨ l ≠ [] →
    (l.foldl (fun (a : Option (Nat × Nat × BufSlot)) b => match a with
      | none => some b
      | some x => if hardFirst s x b then some x else some b) a).isSome
  | [], a, h => h.elim id fun hn => absurd (Eq.refl _) hn
  | b :: l, none, _ => foldl_choice_isSome s l (some b) (.inl (Eq.refl _))
  | b :: l, some x, _ => by
    rw [List.foldl_cons]
    refine foldl_choice_isSome s l _ (.inl ?_)
    dsimp only
    split <;> exact Eq.refl _

theorem topHard_isSome {s : State} {x : Nat × Nat × BufSlot} (hx : x ∈ hardQueue s) : (topHard s).isSome :=
  foldl_choice_isSome s _ none (.inr (List.ne_nil_of_mem hx))

theorem grantHard_eq (s : State) (u : Nat) : grantHard s u = if !hardOn s u || (Tab.find u s.md.hardRun).isSome then s
    else match topHard s with
      | none => s
      | some b => { s with md := { s.md with hardRun := Tab.put u (b.1, b.2.1) s.md.hardRun, hardLast := b.1 } } := Eq.refl _

/-- What granting a unit does to the units that run. -/
theorem grantHard_cases (s : State) (u : Nat) : (grantHard s u).md.hardRun = s.md.hardRun ∨
    (Tab.find u s.md.hardRun = none ∧ ∃ y, (grantHard s u).md.hardRun = Tab.put u y s.md.hardRun) := by
  rw [grantHard_eq]
  by_cases h : (!hardOn s u || (Tab.find u s.md.hardRun).isSome) = true
  · rw [if_pos h]
    exact .inl (Eq.refl _)
  · rw [if_neg h]
    have hnone : Tab.find u s.md.hardRun = none := by simp_all
    cases topHard s with
    | none => exact .inl (Eq.refl _)
    | some b => exact .inr ⟨hnone, _, Eq.refl _⟩

theorem Tab.del_of_find_none {α : Type} {k : Nat} : ∀ {t : Tab α}, Tab.find k t = none → Tab.del k t = t
  | [], _ => Eq.refl _
  | (a, v) :: r, h => by
    rw [Tab.find] at h
    split at h
    next => exact absurd h (by simp)
    next hne => rw [Tab.del, if_neg hne, Tab.del_of_find_none h]

theorem Tab.mem_insert_of_mem {α : Type} {k : Nat} {v : α} {e : Nat × α} : ∀ {t : Tab α}, e ∈ t → e ∈ Tab.insert k v t
  | (a, w) :: r, h => by
    rw [Tab.insert]
    split
    · exact List.mem_cons_of_mem _ h
    · rcases List.mem_cons.mp h with rfl | hr
      · exact List.mem_cons_self
      · exact List.mem_cons_of_mem _ (Tab.mem_insert_of_mem hr)

/-- A codeword that runs goes on running as another unit is granted. -/
theorem mem_grantHard {s : State} {u : Nat} {e : Nat × Nat × Nat} (h : e ∈ s.md.hardRun) : e ∈ (grantHard s u).md.hardRun := by
  rcases grantHard_cases s u with he | ⟨hnone, y, he⟩
  · rwa [he]
  · rw [he, Tab.put, Tab.del_of_find_none hnone]
    exact Tab.mem_insert_of_mem h

/-- A unit that has run stays granted as another one is. -/
theorem grantHard_keeps {s : State} {u v : Nat} (h : (Tab.find v s.md.hardRun).isSome) : (Tab.find v (grantHard s u).md.hardRun).isSome := by
  rcases grantHard_cases s u with he | ⟨hnone, y, he⟩
  · rwa [he]
  · have hne : v ≠ u := fun hv => by simp [hv, hnone] at h
    rw [he, Tab.find_put_ne hne]
    exact h

/-- A unit in service takes a codeword while one waits. -/
theorem grantHard_takes {s : State} {u : Nat} (hon : hardOn s u = true) {x : Nat × Nat × BufSlot} (hx : x ∈ hardQueue s) :
    (Tab.find u (grantHard s u).md.hardRun).isSome := by
  by_cases hrun : (Tab.find u s.md.hardRun).isSome
  · exact grantHard_keeps hrun
  · obtain ⟨y, hy⟩ := Option.isSome_iff_exists.mp (topHard_isSome hx)
    have hno : ¬((!hardOn s u || (Tab.find u s.md.hardRun).isSome) = true) := by simp [hon, hrun]
    rw [grantHard_eq, if_neg hno, hy]
    show (Tab.find u (Tab.put u _ s.md.hardRun)).isSome = true
    rw [Tab.find_put_same]
    exact Eq.refl _

theorem mem_foldl_grantHard {e : Nat × Nat × Nat} : ∀ {l : List Nat} {s : State}, e ∈ s.md.hardRun → e ∈ (l.foldl grantHard s).md.hardRun
  | [], _, h => h
  | v :: l, s, h => by
    rw [List.foldl_cons]
    exact mem_foldl_grantHard (mem_grantHard h)

/-- After every unit of a list was offered, the codeword runs or each of them in service is busy. -/
theorem foldl_grantHard_busy {c slot : Nat} {b : BufSlot} (hb : b.stage = 1) : ∀ (l : List Nat) (s : State), Tab.find slot (s.chan c).buf = some b →
    (∃ e ∈ (l.foldl grantHard s).md.hardRun, e.2 = (c, slot)) ∨ ∀ u, (u ∈ l ∧ hardOn s u = true) ∨ (Tab.find u s.md.hardRun).isSome →
      (Tab.find u (l.foldl grantHard s).md.hardRun).isSome
  | [], s, _ => .inr fun u h => h.elim (fun ⟨hm, _⟩ => absurd hm List.not_mem_nil) id
  | v :: l, s, hslot => by
    by_cases hrun : ∃ e ∈ s.md.hardRun, e.2 = (c, slot)
    · obtain ⟨e, he, hcs⟩ := hrun
      exact .inl ⟨e, mem_foldl_grantHard he, hcs⟩
    · have hunits := UnitsOnly.grantHard s v
      have hmem := mem_hardQueue hslot hb fun e he heq => hrun ⟨e, he, heq⟩
      refine (foldl_grantHard_busy hb l (grantHard s v) (by rw [hunits.chan]; exact hslot)).imp id fun hall u hu => hall u ?_
      rw [hunits.hardOn]
      rcases hu with ⟨hul, hon⟩ | hsome
      · rcases List.mem_cons.mp hul with rfl | hin
        · exact .inr (grantHard_takes hon hmem)
        · exact .inl ⟨hin, hon⟩
      · exact .inr (grantHard_keeps hsome)

theorem lt_of_hardOn {s : State} {u : Nat} (h : hardOn s u = true) : u < 64 := by
  simp only [hardOn, Bool.and_eq_true, decide_eq_true_eq] at h
  exact h.1

/-- After the units are granted, a landed codeword runs or every hard unit in service is busy. -/
theorem grantUnits_busy {s : State} {c slot : Nat} {b : BufSlot} (hslot : Tab.find slot (s.chan c).buf = some b) (hb : b.stage = 1) :
    (∃ e ∈ (grantUnits s).md.hardRun, e.2 = (c, slot)) ∨ ∀ u, hardOn s u = true → (Tab.find u (grantUnits s).md.hardRun).isSome := by
  have hfree := UnitsOnly.freeUnused s
  have hsoft (t : State) : (if t.md.rds.any fun e => softWants t e.1 then (List.range 8).foldl grantSoft t else t).md.hardRun = t.md.hardRun := by
    split
    · refine foldl_view (fun s => s.md.hardRun) grantSoft (fun s u => ?_) _ t
      obtain ⟨r, hr⟩ := grantSoft_rest s u
      rw [hr]
    · exact Eq.refl _
  unfold grantUnits
  dsimp only
  rw [hsoft]
  have hslot' : Tab.find slot ((freeUnused s).chan c).buf = some b := by rw [hfree.chan]; exact hslot
  by_cases hempty : (hardQueue (freeUnused s)).isEmpty = true
  · by_cases hrun : ∃ e ∈ (freeUnused s).md.hardRun, e.2 = (c, slot)
    · rw [if_pos hempty]
      exact .inl hrun
    · have hmem := mem_hardQueue hslot' hb fun e he heq => hrun ⟨e, he, heq⟩
      rw [List.isEmpty_iff.mp hempty] at hmem
      exact absurd hmem List.not_mem_nil
  · rw [if_neg hempty]
    refine (foldl_grantHard_busy hb (List.range 64) _ hslot').imp id fun hall u hon => hall u (.inl ⟨List.mem_range.mpr (lt_of_hardOn hon), ?_⟩)
    rw [hfree.hardOn]
    exact hon

/-! ## Reads that have ended -/

/-- Where no read has ended, none passes to its owner. -/
theorem settleRds_of_none {s : State} (h : ∀ e ∈ s.md.rds, e.2.res = none) : settleRds s = s := by
  have hnil : s.md.rds.filter (fun e => e.2.res.isSome) = [] := List.filter_eq_nil_iff.mpr fun e he => by simp [h e he]
  rw [settleRds, hnil]
  exact Eq.refl s

theorem Tab.mem_modify {α : Type} {k : Nat} {f : α → α} {e : Nat × α} : ∀ {t : Tab α}, e ∈ Tab.modify k f t → e ∈ t ∨ ∃ v, (k, v) ∈ t ∧ e = (k, f v)
  | (a, v) :: r, h => by
    rw [Tab.modify] at h
    split at h
    next ha =>
      rcases List.mem_cons.mp h with rfl | hr
      · exact .inr ⟨v, ha ▸ List.mem_cons_self, by rw [ha]⟩
      · exact .inl (List.mem_cons_of_mem _ hr)
    next =>
      rcases List.mem_cons.mp h with rfl | hr
      · exact .inl List.mem_cons_self
      · exact (Tab.mem_modify hr).imp (List.mem_cons_of_mem _) fun ⟨w, hw, he⟩ => ⟨w, List.mem_cons_of_mem _ hw, he⟩

theorem Tab.find_modify_same {α : Type} (k : Nat) (f : α → α) : ∀ (t : Tab α), Tab.find k (Tab.modify k f t) = (Tab.find k t).map f
  | [] => Eq.refl _
  | (a, v) :: r => by
    by_cases ha : a = k
    · simp [Tab.modify, Tab.find, ha]
    · simp [Tab.modify, Tab.find, ha, Tab.find_modify_same k f r]

theorem Tab.find_modify_ne {α : Type} {k j : Nat} (h : j ≠ k) (f : α → α) : ∀ (t : Tab α), Tab.find j (Tab.modify k f t) = Tab.find j t
  | [] => Eq.refl _
  | (a, v) :: r => by
    by_cases ha : a = k
    · simp [Tab.modify, Tab.find, ha, Ne.symm h]
    · by_cases hj : a = j
      · simp [Tab.modify, Tab.find, hj, h]
      · simp [Tab.modify, Tab.find, ha, hj, Tab.find_modify_ne h f r]

@[simp] theorem State.rd_modRd_same (s : State) (id : Nat) (f : Rd → Rd) : (s.modRd id f).rd id = (s.rd id).map f := Tab.find_modify_same _ _ _

theorem State.rd_modRd_ne (s : State) {id j : Nat} (h : j ≠ id) (f : Rd → Rd) : (s.modRd id f).rd j = s.rd j := Tab.find_modify_ne h _ _

/-- A change of a read's record that leaves how it ended leaves no read ended. -/
theorem res_modRd {s : State} (h : ∀ e ∈ s.md.rds, e.2.res = none) {f : Rd → Rd} (hf : ∀ r, (f r).res = r.res) (id : Nat) :
    ∀ e ∈ (s.modRd id f).md.rds, e.2.res = none := by
  intro e he
  rcases Tab.mem_modify he with hin | ⟨v, hv, rfl⟩
  · exact h e hin
  · exact (hf v).trans (h (id, v) hv)

theorem res_of_rd {s : State} (h : ∀ e ∈ s.md.rds, e.2.res = none) {id : Nat} {r : Rd} (hr : s.rd id = some r) : r.res = none :=
  h (id, r) (Tab.mem_of_find hr)

end Sys2Proof.Machine
end

section
/-! SUPPORT. What entry to the banked state leaves of the registers and of the rest (R661, R662). -/

namespace Sys2Proof.Machine

/-- An edge at every target reaches the pending registers alone (R578). -/
theorem State.reg_edgeAll (s : State) {j : RegKind} (hlo : j ≠ .sicPpendLo) (hhi : j ≠ .sicPpendHi) (n i : Nat) : (s.edgeAll n).reg j i = s.reg j i := by
  have hkey (t : Nat) : (pendBit (.priv t n)).1 ≠ j := by
    simp only [pendBit]
    split
    · exact hlo.symm
    · exact hhi.symm
  have hone (regs : Tab Word) (t : Nat) : Tab.get (regReset j i) (regKey j i) (regsSetBit regs (pendBit (.priv t n)).1 t (pendBit (.priv t n)).2.2) =
      Tab.get (regReset j i) (regKey j i) regs := Tab.get_set_ne (regKey_ne_kind (hkey t).symm i t) _ _ _ _
  have hall : ∀ (ts : List Nat) (regs : Tab Word),
      Tab.get (regReset j i) (regKey j i) (regsEdgeAll n ts regs) = Tab.get (regReset j i) (regKey j i) regs := by
    intro ts
    induction ts with
    | nil => exact fun _ => rfl
    | cons t ts ih => exact fun regs => (ih _).trans (hone regs t)
  exact hall (List.range 64) s.regs

/-- The kinds of register that entry to the banked state writes. -/
def bankKinds : List RegKind := [.glbBootSts, .glbBankSts, .glbBankTimeLo, .glbBankTimeHi, .sicPpendLo, .sicPpendHi, .glbLogSeq]

theorem State.reg_enterStage (s : State) {j : RegKind} (hb : j ≠ .glbBootSts) (hl : j ≠ .glbLogSeq) (n i : Nat) : (enterStage n s).reg j i = s.reg j i := by
  rw [enterStage, State.reg_logPacked _ hl, State.reg_put_kind _ hb]

/-- The registers and the log as the engine enters the banked state (R661). -/
def bankEntered (cause : Nat) (obj : List (Nat × Nat)) (s : State) : State :=
  let s := enterStage 0xF ((s.putFlag Fld.glbBankStsBanked true).put Fld.glbBankStsCause cause)
  let s := (s.put Fld.glbBankTimeLoTime s.now).put Fld.glbBankTimeHiTime (s.now >>> 32)
  (s.edgeAll 48).logPacked uGLB (0x200 + cause) obj

/-- What BANKED_ENTRY is to do is noted. -/
def bankNoted (s : State) : State := { s with pwr := { s.pwr with bankTodo := true } }

theorem bankNoted_regs (s : State) : (bankNoted s).regs = s.regs := rfl

theorem bankNoted_ch (s : State) : (bankNoted s).ch = s.ch := rfl

theorem bankNamed_entry {s : State} (h : ¬ s.banked = true) (cause : Nat) (obj : List (Nat × Nat)) : s.bankNamed cause obj = bankNoted (bankEntered cause obj s) :=
  if_neg h

/-- Entry to the banked state writes its own registers, the pending ones and the log's number, and no other. -/
theorem State.reg_bankNamed (s : State) {j : RegKind} (hj : j ∉ bankKinds) (cause : Nat) (obj : List (Nat × Nat)) (i : Nat) :
    (s.bankNamed cause obj).reg j i = s.reg j i := by
  simp only [bankKinds, List.mem_cons, List.not_mem_nil, or_false, not_or] at hj
  obtain ⟨hboot, hsts, hlo, hhi, hplo, hphi, hlog⟩ := hj
  by_cases h : s.banked = true
  · rw [bankNamed_again h, State.reg_logPacked _ hlog]
  · rw [bankNamed_entry h, State.reg_of_regs (bankNoted_regs _), bankEntered]
    rw [State.reg_logPacked _ hlog, State.reg_edgeAll _ hplo hphi, State.reg_put_kind _ hhi, State.reg_put_kind _ hlo, State.reg_enterStage _ hboot hlog,
      State.reg_put_kind _ hsts, State.reg_putFlag_kind _ hsts]

theorem enterStage_ch (n : Nat) (s : State) : (enterStage n s).ch = s.ch := by
  rw [enterStage, State.logPacked_ch, State.put_ch]

theorem bankNamed_ch (s : State) (cause : Nat) (obj : List (Nat × Nat)) : (s.bankNamed cause obj).ch = s.ch := by
  by_cases h : s.banked = true
  · rw [bankNamed_again h, State.logPacked_ch]
  · rw [bankNamed_entry h, bankNoted_ch, bankEntered]
    rw [State.logPacked_ch, State.edgeAll_ch, State.put_ch, State.put_ch, enterStage_ch, State.put_ch, State.putFlag_ch]

theorem State.flag_edgeAll (s : State) {f : Fld} (hlo : f.kind ≠ .sicPpendLo) (hhi : f.kind ≠ .sicPpendHi) (n i : Nat) : (s.edgeAll n).flag f i = s.flag f i := by
  rw [State.flag, State.get, State.reg_edgeAll _ hlo hhi, State.flag, State.get]

theorem State.flag_enterStage (s : State) {f : Fld} (hb : f.kind ≠ .glbBootSts) (hl : f.kind ≠ .glbLogSeq) (n i : Nat) :
    (enterStage n s).flag f i = s.flag f i := by
  rw [State.flag, State.get, State.reg_enterStage _ hb hl, State.flag, State.get]

theorem bankNamed_banked (s : State) (cause : Nat) (obj : List (Nat × Nat)) : (s.bankNamed cause obj).banked = true := by
  by_cases h : s.banked = true
  · rw [bankNamed_again h, State.banked, State.flag_logPacked _ (by decide)]
    exact h
  · rw [bankNamed_entry h, State.banked, State.flag_of_regs (bankNoted_regs _), bankEntered]
    rw [State.flag_logPacked _ (by decide), State.flag_edgeAll _ (by decide) (by decide), State.flag_put_kind _ (by decide), State.flag_put_kind _ (by decide),
      State.flag_enterStage _ (by decide) (by decide), State.flag_put_field _ (by decide) (by decide)]
    exact State.flag_putFlag _ _ rfl (by decide) _ _

end Sys2Proof.Machine
end

section
/-! PROOFS. Codewords, hard and soft decodes, the retry ladder and units out of service (R251, R252, R254, R263 to R273). -/

namespace Sys2Proof.Machine

/-! ## Codewords that have landed -/

theorem freeUnused_regs (s : State) : (freeUnused s).regs = s.regs := rfl

theorem bufWanted_freeUnused (s : State) (b : BufSlot) : bufWanted (freeUnused s) b = bufWanted s b := rfl

section
variable {s : State} {c slot : Nat} {b : BufSlot}

/-- A landed codeword's row, once its slot is found (R251). -/
theorem exec_codewordReady (hon : s.coreOn = true) (hslot : Tab.find slot (s.chan c).buf = some b) (hstage : b.stage = 0) (hwant : bufWanted s b = true) :
    exec (.codewordReady c slot) s = .next (grantUnits (if b.zeros ≤ s.get Fld.cryCtlErasedMax then
        settleRds (codewordErased b (freeBuf c slot (freeUnused s)))
      else match b.why with
        | .soft id plus => softLanded id slot plus (putBuf c slot { b with stage := 2 } (freeUnused s))
        | _ => putBuf c slot { b with stage := 1 } (freeUnused s))) := by
  show execCodewordReady c slot s = _
  have hget : (freeUnused s).get Fld.cryCtlErasedMax = s.get Fld.cryCtlErasedMax := rfl
  simp only [execCodewordReady, hslot, hon, hstage, beq_self_eq_true, Bool.and_self, onlyIf_true, bufWanted_freeUnused, hwant, Bool.not_true, Bool.false_eq_true,
    if_false, hget] <;> rfl

theorem UnitsOnly.putBuf (b' : BufSlot) : UnitsOnly (Machine.putBuf c slot b' s) (Machine.putBuf c slot b' (Machine.freeUnused s)) := Eq.refl _

theorem UnitsOnly.softLanded (id : Nat) (plus : Bool) (b' : BufSlot) :
    UnitsOnly (softLanded id slot plus (Machine.putBuf c slot b' s)) (Machine.softLanded id slot plus (Machine.putBuf c slot b' (Machine.freeUnused s))) := Eq.refl _

theorem buf_putBuf (b' : BufSlot) : ((putBuf c slot b' s).chan c).buf = Tab.put slot b' (s.chan c).buf := by rw [putBuf, State.chan_setChan_same]

theorem buf_freeBuf : ((freeBuf c slot s).chan c).buf = Tab.del slot (s.chan c).buf := by rw [freeBuf, State.chan_setChan_same]

/-- A codeword that is not erased waits for a hard unit, and gets one where one is free. -/
theorem codewordReady_waits (hon : s.coreOn = true) (hslot : Tab.find slot (s.chan c).buf = some b) (hstage : b.stage = 0) (hwant : bufWanted s b = true)
    (hz : s.get Fld.cryCtlErasedMax < b.zeros) (hsoft : ∀ id plus, b.why ≠ .soft id plus) :
    ∃ t, exec (.codewordReady c slot) s = .next t ∧ UnitsOnly (putBuf c slot { b with stage := 1 } s) t ∧
      ((∃ e ∈ t.md.hardRun, e.2 = (c, slot)) ∨ ∀ u, hardOn s u = true → (Tab.find u t.md.hardRun).isSome) := by
  have hexec := exec_codewordReady hon hslot hstage hwant
  rw [if_neg (Nat.not_le.mpr hz)] at hexec
  have hput : (match b.why with
      | .soft id plus => softLanded id slot plus (putBuf c slot { b with stage := 2 } (freeUnused s))
      | _ => putBuf c slot { b with stage := 1 } (freeUnused s)) = putBuf c slot { b with stage := 1 } (freeUnused s) := by
    split
    next id plus he => exact absurd he (hsoft id plus)
    next => rfl
  rw [hput] at hexec
  have hbuf : Tab.find slot ((putBuf c slot { b with stage := 1 } (freeUnused s)).chan c).buf = some { b with stage := 1 } := by
    rw [buf_putBuf, Tab.find_put_same]
  exact ⟨_, hexec, (UnitsOnly.putBuf _).trans (.grantUnits _), grantUnits_busy hbuf rfl⟩

/-- A soft step's codeword keeps its slot. -/
theorem codewordReady_soft (hon : s.coreOn = true) (hslot : Tab.find slot (s.chan c).buf = some b) (hstage : b.stage = 0) (hwant : bufWanted s b = true)
    (hz : s.get Fld.cryCtlErasedMax < b.zeros) {id : Nat} {plus : Bool} (hwhy : b.why = .soft id plus) :
    ∃ t, exec (.codewordReady c slot) s = .next t ∧ UnitsOnly (softLanded id slot plus (putBuf c slot { b with stage := 2 } s)) t := by
  have hexec := exec_codewordReady hon hslot hstage hwant
  have hput : (match b.why with
      | .soft id plus => softLanded id slot plus (putBuf c slot { b with stage := 2 } (freeUnused s))
      | _ => putBuf c slot { b with stage := 1 } (freeUnused s)) = softLanded id slot plus (putBuf c slot { b with stage := 2 } (freeUnused s)) := by
    split
    next id' plus' he =>
      obtain ⟨rfl, rfl⟩ := Why.soft.inj (he.symm.trans hwhy)
      rfl
    next hno => exact absurd hwhy (hno id plus)
  rw [if_neg (Nat.not_le.mpr hz), hput] at hexec
  exact ⟨_, hexec, (UnitsOnly.softLanded id plus _).trans (.grantUnits _)⟩

theorem md_freeBuf : (freeBuf c slot s).md = s.md := rfl

/-- A sample's codeword that reads as erased only counts. -/
theorem codewordReady_sample (hon : s.coreOn = true) (hslot : Tab.find slot (s.chan c).buf = some b) (hres : ∀ e ∈ s.md.rds, e.2.res = none)
    (hstage : b.stage = 0) (hwant : bufWanted s b = true) (hz : b.zeros ≤ s.get Fld.cryCtlErasedMax) {k : Nat} (hwhy : b.why = .sample k) :
    ∃ t, exec (.codewordReady c slot) s = .next t ∧ UnitsOnly (sampleDone k b.page b.cw ((freeBuf c slot s).inc Fld.cryGaugeStsErased)) t := by
  have hexec := exec_codewordReady hon hslot hstage hwant
  have herased : codewordErased b (freeBuf c slot (freeUnused s)) = sampleDone k b.page b.cw ((freeBuf c slot (freeUnused s)).inc Fld.cryGaugeStsErased) := by
    rw [codewordErased, hwhy]
  have hmd : (sampleDone k b.page b.cw ((freeBuf c slot (freeUnused s)).inc Fld.cryGaugeStsErased)).md.rds = s.md.rds := rfl
  rw [if_pos hz, herased, settleRds_of_none (by rw [hmd]; exact hres)] at hexec
  have honly : UnitsOnly (sampleDone k b.page b.cw ((freeBuf c slot s).inc Fld.cryGaugeStsErased))
      (sampleDone k b.page b.cw ((freeBuf c slot (freeUnused s)).inc Fld.cryGaugeStsErased)) := rfl
  exact ⟨_, hexec, honly.trans (.grantUnits _)⟩

/-! ## Hard decodes -/

/-- The row of a hard decode's result, once its slot and its unit are found (R254). -/
theorem exec_hardDecodeDone (hon : s.coreOn = true) (hslot : Tab.find slot (s.chan c).buf = some b) (hstage : b.stage = 1) {u : Nat} (hu : hardOn s u = true)
    (hrun : Tab.find u s.md.hardRun = some (c, slot)) (dec : Option (List Byte)) (hdec : ∀ i, dec = some i → i.length = 4160) :
    exec (.hardDecodeDone c slot u dec) s = .next (grantUnits (settleRds (hardDecoded c slot b dec s))) := by
  have hall : (dec.all fun i => i.length == 4160) = true := by
    cases dec with
    | none => rfl
    | some i => simpa using hdec i rfl
  show execHardDecodeDone c slot u dec s = _
  simp only [execHardDecodeDone, hslot, hon, hstage, hu, hrun, hall, beq_self_eq_true, Bool.and_self, onlyIf_true]

/-- A result of step 0 counts (R283). -/
def stepCounted (b : BufSlot) (s : State) : State := if b.step = 0 then s.inc Fld.cryCwCntCw else s

theorem stepCounted_rd (b : BufSlot) (s : State) (id : Nat) : (stepCounted b s).rd id = s.rd id := by
  unfold stepCounted
  split <;> rfl

/-- A result for a read, by its outcome and its owner (R254, R301). -/
theorem hardDecoded_rd {id : Nat} {r : Rd} (hwhy : b.why = .rd id) (hr : s.rd id = some r) (dec : Option (List Byte)) :
    hardDecoded c slot b dec s = (match dec, r.own with
      | none, .partner _ _ =>
        if b.step = 0 then
          putBuf c slot { b with stage := 2 } (((stepCounted b s).inc Fld.cryFirstFailFail).modRd id fun r => { r with centre := some slot, dec := some none })
        else decodeFailed id (freeBuf c slot (stepCounted b s))
      | some info, .partner _ _ => partnerDecoded id c slot b info (stepCounted b s)
      | none, _ => stepFailed id c slot b (stepCounted b s)
      | some info, _ =>
        let t := tileChecked id b.step r b info (stepFailed id c slot b) (stepCounted b s)
        if (t.rd id).any fun r => r.res.isSome then freeBuf c slot t else t) := by
  unfold hardDecoded
  split
  next id' he =>
    obtain rfl := Why.rd.inj (hwhy.symm.trans he)
    rw [hr]
    rfl
  next he => exact absurd (hwhy.symm.trans he) (by simp)
  next he => exact absurd (hwhy.symm.trans he) (by simp)
  next hno _ _ => exact absurd hwhy (hno id)

/-- A partner's codeword decoded at step 0, well within the threshold, waits for its check. -/
theorem hardDecodeDone_partner (hon : s.coreOn = true) (hslot : Tab.find slot (s.chan c).buf = some b) (hres : ∀ e ∈ s.md.rds, e.2.res = none)
    (hstage : b.stage = 1) {u : Nat} (hu : hardOn s u = true) (hrun : Tab.find u s.md.hardRun = some (c, slot)) {info : List Byte} (hlen : info.length = 4160)
    {id : Nat} {r : Rd} (hwhy : b.why = .rd id) (hr : s.rd id = some r) {i pos : Nat} (hown : r.own = .partner i pos) (hstep : b.step = 0)
    (hcbc : cbcByte (diffBits (info ++ eccBytes info) b.data) < s.get Fld.cryWarnThresh) :
    ∃ t, exec (.hardDecodeDone c slot u (some info)) s = .next t ∧
      UnitsOnly (freeBuf c slot ((s.inc Fld.cryCwCntCw).modRd id fun r => { r with dec := some (some info) })) t := by
  have hexec := exec_hardDecodeDone hon hslot hstage hu hrun (some info) (fun i hi => by rw [← Option.some.inj hi]; exact hlen)
  have hwarn : (s.inc Fld.cryCwCntCw).get Fld.cryWarnThresh = s.get Fld.cryWarnThresh := State.get_inc_kind _ (by decide) _ _ _
  have hno : ¬(s.get Fld.cryWarnThresh ≤ cbcByte (diffBits (info ++ eccBytes info) b.data) ∨ 1 ≤ b.step) := by omega
  have hdone : hardDecoded c slot b (some info) s = freeBuf c slot ((s.inc Fld.cryCwCntCw).modRd id fun r => { r with dec := some (some info) }) := by
    rw [hardDecoded_rd hwhy hr, hown]
    dsimp only
    rw [partnerDecoded, stepCounted, if_pos hstep, if_neg (by omega : ¬ 1 ≤ b.step), refreshAfter, hwarn, if_neg hno]
  have hres' := res_modRd (s := s.inc Fld.cryCwCntCw) (f := fun r => { r with dec := some (some info) }) hres (fun _ => rfl) id
  have hsettle := settleRds_of_none (s := freeBuf c slot ((s.inc Fld.cryCwCntCw).modRd id fun r => { r with dec := some (some info) })) hres'
  rw [hdone, hsettle] at hexec
  exact ⟨_, hexec, .grantUnits _⟩

/-! ### What learning and refreshing leave -/

/-- The records of the reads, the channels, and the registers but those of the read path's own counts stay. -/
structure ReadsKept (s t : State) : Prop where
  rds : t.md.rds = s.md.rds
  ch : t.ch = s.ch

theorem ReadsKept.rfl : ReadsKept s s := ⟨Eq.refl _, Eq.refl _⟩

theorem ReadsKept.trans {t v : State} (h : ReadsKept s t) (g : ReadsKept t v) : ReadsKept s v := ⟨g.rds.trans h.rds, g.ch.trans h.ch⟩

theorem ReadsKept.rd {t : State} (h : ReadsKept s t) (id : Nat) : t.rd id = s.rd id := by rw [State.rd, h.rds, State.rd]

/-- Requests issued reach only the fabric and the note that appliance DRAM is in use. -/
theorem issueAll_rest (l : List (FabReq × Purpose)) (s : State) : s.issueAll l = { s with fab := (s.issueAll l).fab, pwr := (s.issueAll l).pwr } := by
  unfold State.issueAll
  split <;> exact Eq.refl _

theorem dramWrite_rest (addr cls : Nat) (data : List Byte) (p : Purpose) (s : State) :
    dramWrite addr cls data p s = { s with fab := (dramWrite addr cls data p s).fab, pwr := (dramWrite addr cls data p s).pwr } := issueAll_rest _ s

theorem State.memOnly_trans {s t v : State} (h : t = { s with fab := t.fab, pwr := t.pwr }) (g : v = { t with fab := v.fab, pwr := v.pwr }) :
    v = { s with fab := v.fab, pwr := v.pwr } := by
  rw [g, h]

/-- A change of the block table reaches only the table and the fabric. -/
theorem putUnit_rest (x : Nat) (f : UnitE → UnitE) (s : State) :
    putUnit x f s = { s.modUnit x f with fab := (putUnit x f s).fab, pwr := (putUnit x f s).pwr } :=
  State.memOnly_trans (dramWrite_rest _ _ _ _ (s.modUnit x f)) (dramWrite_rest _ _ _ _ _)

theorem ReadsKept.refreshReq (g : Page) (s : State) : ReadsKept s (refreshReq g s) := by
  unfold Machine.refreshReq
  dsimp only
  split
  · rw [putUnit_rest]
    exact ⟨Eq.refl _, Eq.refl _⟩
  · exact .rfl

theorem refreshReq_regs (g : Page) (s : State) : (refreshReq g s).regs = s.regs := by
  unfold refreshReq
  dsimp only
  split
  · rw [putUnit_rest]
    rfl
  · rfl

theorem ReadsKept.inc (f : Fld) (i n : Nat) (s : State) : ReadsKept s (s.inc f i n) := ⟨Eq.refl _, Eq.refl _⟩

theorem ReadsKept.gaugeLearn (g : Page) (cw : Nat) (used : List Int) (good bad : List Byte) (s : State) : ReadsKept s (gaugeLearn g cw used good bad s) := by
  unfold Machine.gaugeLearn
  split
  · exact .rfl
  · split
    · exact .rfl
    · dsimp only
      split
      · exact ⟨Eq.refl _, Eq.refl _⟩
      · refine ReadsKept.trans ?_ (.refreshReq g _)
        exact ⟨Eq.refl _, Eq.refl _⟩

theorem ReadsKept.gaugeMove (g : Page) (used : List Int) (s : State) : ReadsKept s (gaugeMove g used s) := by
  unfold Machine.gaugeMove
  split
  · exact .rfl
  · dsimp only
    split <;> exact ⟨Eq.refl _, Eq.refl _⟩

theorem ReadsKept.refreshAfter (g : Page) (cbc step : Nat) (s : State) : ReadsKept s (refreshAfter g cbc step s) := by
  unfold Machine.refreshAfter
  split
  · exact .refreshReq g s
  · exact .rfl

theorem ReadsKept.recovered (step : Nat) (ref : BufSlot) (cbc : Nat) (cw : List Byte) (s : State) : ReadsKept s (recovered step ref cbc cw s) := by
  unfold Machine.recovered
  dsimp only
  have hlearn : ReadsKept s (if ref.badFrame then s else Machine.gaugeLearn ref.page ref.cw ref.offs cw ref.data s) := by
    split
    · exact .rfl
    · exact .gaugeLearn _ _ _ _ _ s
  generalize (if ref.badFrame then s else Machine.gaugeLearn ref.page ref.cw ref.offs cw ref.data s) = t at hlearn
  refine ReadsKept.trans ?_ (.refreshAfter _ _ _ _)
  split
  · exact hlearn.trans (.inc _ _ _ t)
  · split
    · exact hlearn.trans ((ReadsKept.inc _ _ _ t).trans (.gaugeMove _ _ _))
    · exact hlearn

/-! ### A read that has ended leaves the engine -/

theorem Tab.find_ne_none_of_mem {α : Type} {k : Nat} {v : α} : ∀ {t : Tab α}, (k, v) ∈ t → Tab.find k t ≠ none
  | (a, w) :: r, h => by
    rw [Tab.find]
    split
    · simp
    next hne =>
      rcases List.mem_cons.mp h with he | hr
      · exact absurd (Prod.mk.inj he).1.symm hne
      · exact Tab.find_ne_none_of_mem hr

theorem Tab.find_filter_none {α : Type} {k : Nat} {p : Nat × α → Bool} {t : Tab α} (h : Tab.find k t = none) : Tab.find k (t.filter p) = none := by
  by_contra hne
  obtain ⟨v, hv⟩ := Option.ne_none_iff_exists'.mp hne
  have hmem := (List.mem_filter.mp (Tab.mem_of_find hv)).1
  exact (Tab.find_ne_none_of_mem hmem) h

/-- A record of a read deleted, and what a read held of the buffers: no slot that was free is taken. -/
structure ReadsDropped (s t : State) : Prop where
  rds : ∀ id, s.rd id = none → t.rd id = none
  bufs : ∀ c slot, Tab.find slot (s.chan c).buf = none → Tab.find slot (t.chan c).buf = none

theorem ReadsDropped.rfl : ReadsDropped s s := ⟨fun _ h => h, fun _ _ h => h⟩

theorem ReadsDropped.trans {t v : State} (h : ReadsDropped s t) (g : ReadsDropped t v) : ReadsDropped s v :=
  ⟨fun id hn => g.rds id (h.rds id hn), fun c slot hn => g.bufs c slot (h.bufs c slot hn)⟩

/-- A read's wants and its buffer slots, without its record. -/
def dropHeld (id : Nat) (r : Rd) (s : State) : State :=
  let s := modLun r.page.lun (fun l => { l with queue := l.queue.filter fun w => !whyRd id w.why }) s
  s.setChan (lunCh r.page.lun) { s.chan (lunCh r.page.lun) with buf := (s.chan (lunCh r.page.lun)).buf.filter fun e => !whyRd id e.2.why }

theorem dropHeld_rds (id : Nat) (r : Rd) (s : State) : (dropHeld id r s).md.rds = s.md.rds := Eq.refl _

theorem dropHeld_bufs (id : Nat) (r : Rd) (s : State) (c slot : Nat) (h : Tab.find slot (s.chan c).buf = none) :
    Tab.find slot ((dropHeld id r s).chan c).buf = none := by
  unfold dropHeld
  by_cases hc : c = lunCh r.page.lun
  · subst hc
    rw [State.chan_setChan_same]
    exact Tab.find_filter_none h
  · rw [State.chan_setChan_ne _ hc]
    exact h

theorem dropOne_eq (id : Nat) (s : State) : dropOne id s = match s.rd id with
    | none => s
    | some r => { dropHeld id r s with md := { (dropHeld id r s).md with rds := Tab.del id (dropHeld id r s).md.rds } } := Eq.refl _

theorem dropOne_rd (id : Nat) (s : State) : (dropOne id s).rd id = none := by
  rw [dropOne_eq]
  split
  next h => exact h
  next => exact Tab.find_del_same _ _

theorem ReadsDropped.dropOne (id : Nat) (s : State) : ReadsDropped s (dropOne id s) := by
  rw [dropOne_eq]
  split
  next => exact .rfl
  next r hr =>
    refine ⟨fun j hj => ?_, fun c slot h => dropHeld_bufs id r s c slot h⟩
    show Tab.find j (Tab.del id (dropHeld id r s).md.rds) = none
    rw [dropHeld_rds]
    by_cases hji : j = id
    · rw [hji]
      exact Tab.find_del_same _ _
    · exact (Tab.find_del_ne hji _).trans hj

theorem ReadsDropped.foldl {f : State → Nat → State} (hf : ∀ s i, ReadsDropped s (f s i)) (l : List Nat) : ∀ s, ReadsDropped s (l.foldl f s) := by
  induction l with
  | nil => exact fun _ => .rfl
  | cons a l ih => exact fun s => (hf s a).trans (ih (f s a))

/-- A read dropped with its partners has no record any more. -/
theorem dropRd_status (id : Nat) (s : State) : (dropRd id s).rd id = none ∧ ReadsDropped s (dropRd id s) :=
  ⟨dropOne_rd id _, (ReadsDropped.foldl (fun s i => .dropOne i s) _ s).trans (.dropOne id _)⟩

theorem settleRds_eq (s : State) : settleRds s = ((s.md.rds.filter fun e => e.2.res.isSome).map Prod.fst).foldl (fun s id => settleRd id s) s := Eq.refl _

/-- A patrol's read that has ended is only dropped. -/
theorem settleRd_patrol {id : Nat} {r : Rd} (hr : s.rd id = some r) (hown : r.own = .patrol) (hres : r.res.isSome) : settleRd id s = dropRd id s := by
  obtain ⟨⟨code, cbc, plain, raw⟩, he⟩ := Option.isSome_iff_exists.mp hres
  rw [settleRd, hr]
  dsimp only
  rw [he]
  dsimp only
  rw [hown]

/-- The reads that have ended, where one alone has. -/
theorem ended_modify {id : Nat} {f : Rd → Rd} (hf : ∀ r, (f r).res.isSome) : ∀ {t : Tab Rd}, (∀ e ∈ t, e.2.res = none) → Tab.find id t ≠ none →
    ((Tab.modify id f t).filter fun e => e.2.res.isSome).map Prod.fst = [id]
  | [], _, h => absurd (Eq.refl _) h
  | (a, v) :: r, hall, hfind => by
    have htail : ∀ e ∈ r, e.2.res = none := fun e he => hall e (List.mem_cons_of_mem _ he)
    have hnil : r.filter (fun e => e.2.res.isSome) = [] := List.filter_eq_nil_iff.mpr fun e he => by simp [htail e he]
    have hv : v.res = none := hall (a, v) List.mem_cons_self
    by_cases ha : a = id
    · simp [Tab.modify, ha, hf v, hnil]
    · rw [Tab.find, if_neg ha] at hfind
      have hrest := ended_modify hf htail hfind
      simp [Tab.modify, ha, hv, hrest]

/-- The record of a read as it ends (R255). -/
def endedRd (code cbc : Nat) (plain raw : List Byte) (r : Rd) : Rd := if r.res.isSome then r else { r with res := some (code, cbc, plain, raw) }

theorem endedRd_status (code cbc : Nat) (plain raw : List Byte) (r : Rd) : (endedRd code cbc plain raw r).res.isSome ∧ (endedRd code cbc plain raw r).own = r.own := by
  unfold endedRd
  split
  next h => exact ⟨h, Eq.refl _⟩
  next => exact ⟨Eq.refl _, Eq.refl _⟩

theorem endRd_eq (id code cbc : Nat) (plain raw : List Byte) (s : State) : endRd id code cbc plain raw s = s.modRd id (endedRd code cbc plain raw) := Eq.refl _

/-- Where no read had ended, the one that ends is the one that passes to its owner. -/
theorem settleRds_endRd {id : Nat} {r : Rd} (hres : ∀ e ∈ s.md.rds, e.2.res = none) (hr : s.rd id = some r) (hown : r.own = .patrol) (code cbc : Nat)
    (plain raw : List Byte) (c slot : Nat) :
    settleRds (freeBuf c slot (endRd id code cbc plain raw s)) = dropRd id (freeBuf c slot (endRd id code cbc plain raw s)) := by
  have hlist : ((freeBuf c slot (endRd id code cbc plain raw s)).md.rds.filter fun e => e.2.res.isSome).map Prod.fst = [id] :=
    ended_modify (fun r => (endedRd_status code cbc plain raw r).1) hres (by rw [State.rd] at hr; rw [hr]; simp)
  have hrd : (freeBuf c slot (endRd id code cbc plain raw s)).rd id = some (endedRd code cbc plain raw r) := by
    refine (State.rd_modRd_same s id (endedRd code cbc plain raw)).trans ?_
    rw [hr]
    exact Eq.refl _
  obtain ⟨hsome, howned⟩ := endedRd_status code cbc plain raw r
  rw [settleRds_eq, hlist]
  exact settleRd_patrol hrd (howned.trans hown) hsome

/-- A patrol read that ends well has no record and no slot any more. -/
theorem hardDecodeDone_patrol (hon : s.coreOn = true) (hslot : Tab.find slot (s.chan c).buf = some b) (hres : ∀ e ∈ s.md.rds, e.2.res = none)
    (hstage : b.stage = 1) {u : Nat} (hu : hardOn s u = true) (hrun : Tab.find u s.md.hardRun = some (c, slot)) {info : List Byte} (hlen : info.length = 4160)
    {id : Nat} {r : Rd} (hwhy : b.why = .rd id) (hr : s.rd id = some r) (hown : r.own = .patrol) {plain : List Byte}
    (hok : checkTile s none (info.take 4128) = .ok plain) :
    ∃ t, exec (.hardDecodeDone c slot u (some info)) s = .next t ∧ t.rd id = none ∧ Tab.find slot (t.chan c).buf = none := by
  have hexec := exec_hardDecodeDone hon hslot hstage hu hrun (some info) (fun i hi => by rw [← Option.some.inj hi]; exact hlen)
  have hexp : expects r = none := by rw [expects, hown]
  have hcheck : checkTile (stepCounted b s) none (info.take 4128) = .ok plain := by
    unfold stepCounted
    split <;> exact hok
  have hcount : ReadsKept s (stepCounted b s) := by
    unfold stepCounted
    split
    · exact .inc _ _ _ s
    · exact .rfl
  have hrec := hcount.trans (.recovered b.step b (cbcByte (diffBits (info ++ eccBytes info) b.data)) (info ++ eccBytes info) (stepCounted b s))
  have hdone : hardDecoded c slot b (some info) s =
      let t := endRd id oOk (cbcByte (diffBits (info ++ eccBytes info) b.data)) plain (info.take 4128)
        (recovered b.step b (cbcByte (diffBits (info ++ eccBytes info) b.data)) (info ++ eccBytes info) (stepCounted b s))
      if (t.rd id).any fun r => r.res.isSome then freeBuf c slot t else t := by
    rw [hardDecoded_rd hwhy hr, hown]
    dsimp only
    rw [tileChecked, hexp]
    dsimp only
    rw [hcheck]
  rw [hdone] at hexec
  dsimp only at hexec
  generalize recovered b.step b (cbcByte (diffBits (info ++ eccBytes info) b.data)) (info ++ eccBytes info) (stepCounted b s) = t0 at hrec hexec
  have hres0 : ∀ e ∈ t0.md.rds, e.2.res = none := by rw [hrec.rds]; exact hres
  have hr0 : t0.rd id = some r := by rw [hrec.rd]; exact hr
  have hany : (((endRd id oOk (cbcByte (diffBits (info ++ eccBytes info) b.data)) plain (info.take 4128) t0).rd id).any fun r => r.res.isSome) = true := by
    rw [endRd_eq, State.rd_modRd_same, hr0]
    exact (endedRd_status _ _ _ _ r).1
  rw [if_pos hany, settleRds_endRd hres0 hr0 hown] at hexec
  generalize endRd id oOk (cbcByte (diffBits (info ++ eccBytes info) b.data)) plain (info.take 4128) t0 = t1 at hexec
  obtain ⟨hgone, hdrop⟩ := dropRd_status id (freeBuf c slot t1)
  have hunits := UnitsOnly.grantUnits (dropRd id (freeBuf c slot t1))
  refine ⟨_, hexec, by rw [hunits.rd, hgone], ?_⟩
  rw [hunits.chan]
  exact hdrop.bufs c slot (by rw [buf_freeBuf, Tab.find_del_same])

/-! ## The retry ladder -/

theorem State.lun_enqueue (w : Want) (s : State) : (enqueue w s).lun w.page.lun =
    { s.lun w.page.lun with queue := (s.lun w.page.lun).queue ++ [{ w with since := s.now }] } := State.lun_modLun_same _ _ _

/-- A want queued changes nothing but its LUN's part. -/
theorem enqueue_rest (w : Want) (s : State) : enqueue w s = { s with md := { s.md with luns := (enqueue w s).md.luns } } := Eq.refl _

/-- The state as the first decode of a read fails: it counts, and the slot is kept as the centre read. -/
def firstFailNoted (id c slot : Nat) (b : BufSlot) (s : State) : State :=
  putBuf c slot { b with stage := 2 } (((s.inc Fld.cryCwCntCw).inc Fld.cryFirstFailFail).modRd id fun r => { r with centre := some slot })

theorem firstFailNoted_rd {id : Nat} {r : Rd} (hr : s.rd id = some r) : (firstFailNoted id c slot b s).rd id = some { r with centre := some slot } := by
  refine (State.rd_modRd_same _ id _).trans ?_
  show (s.rd id).map _ = _
  rw [hr]
  exact Eq.refl _

theorem firstFailNoted_buf (id : Nat) : Tab.find slot ((firstFailNoted id c slot b s).chan c).buf = some { b with stage := 2 } := by
  rw [firstFailNoted, buf_putBuf, Tab.find_put_same]

theorem firstFailNoted_regs (id : Nat) : (firstFailNoted id c slot b s).regs = ((s.inc Fld.cryCwCntCw).inc Fld.cryFirstFailFail).regs := Eq.refl _

theorem firstFailNoted_md (id : Nat) : (firstFailNoted id c slot b s).md = { s.md with rds := (firstFailNoted id c slot b s).md.rds } := Eq.refl _

theorem firstFailNoted_img (id : Nat) : (firstFailNoted id c slot b s).img = s.img := Eq.refl _

theorem ladderLimit_firstFailNoted (id cls : Nat) : ladderLimit (firstFailNoted id c slot b s) cls = ladderLimit s cls := by
  have hget (f : Fld) (h1 : f.kind ≠ Fld.cryCwCntCw.kind) (h2 : f.kind ≠ Fld.cryFirstFailFail.kind) :
      (firstFailNoted id c slot b s).get f 0 = s.get f 0 := by
    rw [State.get_of_regs (firstFailNoted_regs id), State.get_inc_kind _ h2, State.get_inc_kind _ h1]
  simp only [ladderLimit, hget Fld.cryLadderMaxC1 (by decide) (by decide), hget Fld.cryLadderMaxC2 (by decide) (by decide),
    hget Fld.cryLadderMaxC3 (by decide) (by decide)]

theorem ladderOffs_congr {t : State} (himg : t.img = s.img) (hgauge : t.md.gauge = s.md.gauge) (g : Page) (k : Nat) : ladderOffs t g k = ladderOffs s g k := by
  simp only [ladderOffs, readOffs, gline, State.profile, State.profileAt, himg, hgauge]

/-- A first decode of a patrol read that fails starts the retry ladder at step 1. -/
theorem decodeFailed_first {id : Nat} {r : Rd} (hr : s.rd id = some { r with centre := some slot }) (hres : r.res = none) (hown : r.own = .patrol)
    (hstep : r.step = 0) (hladder : r.ladder = true) (hlimit : 1 ≤ ladderLimit s r.cls) (hofs : (s.profile r.page.lun).ofsMethod ≠ 0) :
    decodeFailed id s = enqueue (rdWant (.rd id) { r with centre := some slot } (ladderOffs s r.page 1) 1 true)
      (s.modRd id fun r => { r with step := r.step + 1 }) := by
  have haside : aside id s = s := by
    rw [aside, hr]
    dsimp only
    rw [hown]
  have hno : ¬((!r.ladder) = true ∨ r.res.isSome = true) := by simp [hladder, hres]
  have hyes : r.step + 1 ≤ ladderLimit s r.cls ∧ (s.profile r.page.lun).ofsMethod ≠ 0 := ⟨by omega, hofs⟩
  have hoffs := ladderOffs_congr (s := s) (t := s.modRd id fun r => { r with step := r.step + 1 }) (Eq.refl _) (Eq.refl _) r.page 1
  rw [decodeFailed, hr]
  dsimp only
  rw [if_pos hstep, haside, nextStep, hr]
  dsimp only
  rw [if_neg hno, if_pos hyes, hstep, Nat.zero_add, hoffs]

/-- A first decode of a patrol read that fails (R265, R269, R273). -/
theorem hardDecodeDone_ladder (hon : s.coreOn = true) (hslot : Tab.find slot (s.chan c).buf = some b) (hres : ∀ e ∈ s.md.rds, e.2.res = none)
    (hstage : b.stage = 1) {u : Nat} (hu : hardOn s u = true) (hrun : Tab.find u s.md.hardRun = some (c, slot))
    {id : Nat} {r : Rd} (hwhy : b.why = .rd id) (hr : s.rd id = some r) (hown : r.own = .patrol) (hb : b.step = 0) (hstep : r.step = 0)
    (hladder : r.ladder = true) (hlimit : 1 ≤ ladderLimit s r.cls) (hofs : (s.profile r.page.lun).ofsMethod ≠ 0) :
    ∃ t, exec (.hardDecodeDone c slot u none) s = .next t ∧ t.regs = ((s.inc Fld.cryCwCntCw).inc Fld.cryFirstFailFail).regs ∧
      t.rd id = some { r with centre := some slot, step := 1 } ∧ Tab.find slot (t.chan c).buf = some { b with stage := 2 } ∧
      ∃ w ∈ (t.lun r.page.lun).queue, w.why = .rd id ∧ w.step = 1 ∧ w.offs = ladderOffs s r.page 1 := by
  have hexec := exec_hardDecodeDone hon hslot hstage hu hrun none (fun i hi => absurd hi (by simp))
  have hdone : hardDecoded c slot b none s = decodeFailed id (firstFailNoted id c slot b s) := by
    rw [hardDecoded_rd hwhy hr, hown]
    dsimp only
    rw [stepFailed, if_pos hb, firstFailed, stepCounted, if_pos hb, firstFailNoted]
  have hoffs := ladderOffs_congr (s := s) (t := firstFailNoted id c slot b s) (Eq.refl _) (Eq.refl _) r.page 1
  have hfail := decodeFailed_first (firstFailNoted_rd (c := c) (slot := slot) (b := b) hr) (res_of_rd hres hr) hown hstep hladder
    (by rw [ladderLimit_firstFailNoted]; exact hlimit) (by rw [State.profile, State.profileAt, firstFailNoted_img]; exact hofs)
  rw [hdone, hfail, hoffs] at hexec
  have hres1 : ∀ e ∈ (firstFailNoted id c slot b s).md.rds, e.2.res = none :=
    res_modRd (s := (s.inc Fld.cryCwCntCw).inc Fld.cryFirstFailFail) (f := fun r => { r with centre := some slot }) hres (fun _ => Eq.refl _) id
  have hres2 := res_modRd (f := fun r => { r with step := r.step + 1 }) hres1 (fun _ => Eq.refl _) id
  have hrd := firstFailNoted_rd (c := c) (slot := slot) (b := b) hr
  have hbuf := firstFailNoted_buf (s := s) (c := c) (slot := slot) (b := b) id
  have hregs := firstFailNoted_regs (s := s) (c := c) (slot := slot) (b := b) id
  generalize firstFailNoted id c slot b s = t0 at hexec hres2 hrd hbuf hregs
  have hrd1 := State.rd_modRd_same t0 id fun r => { r with step := r.step + 1 }
  rw [hrd] at hrd1
  have hbuf1 : Tab.find slot ((t0.modRd id fun r => { r with step := r.step + 1 }).chan c).buf = some { b with stage := 2 } := hbuf
  have hregs1 : (t0.modRd id fun r => { r with step := r.step + 1 }).regs = t0.regs := Eq.refl _
  generalize t0.modRd id (fun r => { r with step := r.step + 1 }) = t1 at hexec hres2 hrd1 hbuf1 hregs1
  have hrest := enqueue_rest (rdWant (.rd id) { r with centre := some slot } (ladderOffs s r.page 1) 1 true) t1
  have hlun := State.lun_enqueue (rdWant (.rd id) { r with centre := some slot } (ladderOffs s r.page 1) 1 true) t1
  generalize enqueue (rdWant (.rd id) { r with centre := some slot } (ladderOffs s r.page 1) 1 true) t1 = t2 at hexec hrest hlun
  have hunits := UnitsOnly.grantUnits t2
  rw [settleRds_of_none (by rw [hrest]; exact hres2)] at hexec
  refine ⟨_, hexec, ?_, ?_, ?_, ?_⟩
  · rw [hunits.regs, hrest, hregs1, hregs]
  · rw [hunits.rd, State.rd, hrest]
    refine hrd1.trans ?_
    rw [Option.map_some, hstep]
  · rw [hunits.chan, State.chan, hrest]
    exact hbuf1
  · refine ⟨{ rdWant (.rd id) { r with centre := some slot } (ladderOffs s r.page 1) 1 true with since := t1.now }, ?_, Eq.refl _, Eq.refl _, Eq.refl _⟩
    have hq : (t2.lun r.page.lun).queue = (t1.lun r.page.lun).queue ++ _ := congrArg LunSt.queue hlun
    rw [hunits.lun, hq]
    exact List.mem_append_right _ (List.mem_singleton.mpr (Eq.refl _))

/-! ## Soft decodes -/

/-- The slots of a read's soft step freed, and its record without them (R270). -/
def softFreed (id : Nat) (r : Rd) (s : State) : State :=
  (s.setChan (lunCh r.page.lun) { s.chan (lunCh r.page.lun) with buf := (s.chan (lunCh r.page.lun)).buf.filter fun e => !whyRd id e.2.why }).modRd id
    fun r => { r with centre := none, softM := none, softP := none }

theorem softFreed_rd {id : Nat} {r : Rd} (hr : s.rd id = some r) : (softFreed id r s).rd id = some { r with centre := none, softM := none, softP := none } := by
  refine (State.rd_modRd_same (s.setChan _ _) id _).trans ?_
  show (s.rd id).map _ = _
  rw [hr]
  exact Eq.refl _

theorem softFreed_res (id : Nat) (r : Rd) (hres : ∀ e ∈ s.md.rds, e.2.res = none) : ∀ e ∈ (softFreed id r s).md.rds, e.2.res = none :=
  res_modRd (s := s.setChan _ _) (f := fun r => { r with centre := none, softM := none, softP := none }) hres (fun _ => Eq.refl _) id

theorem softFreed_regs (id : Nat) (r : Rd) (s : State) : (softFreed id r s).regs = s.regs := Eq.refl _

theorem State.inc_regs_congr {t : State} (h : t.regs = s.regs) (f : Fld) (i n : Nat) : (t.inc f i n).regs = (s.inc f i n).regs := by
  simp only [State.inc, State.put, State.setReg, State.get, State.reg, h]

/-- A soft decode of a partner's codeword (R269, R301). -/
theorem softDecodeDone_partner (hon : s.coreOn = true) (hres : ∀ e ∈ s.md.rds, e.2.res = none) {u id : Nat} {r : Rd} (hr : s.rd id = some r)
    (hslots : softSlots s r = some b) (hu : softUnitOn s u = true) (hrun : Tab.find u s.md.softRun = some id) (hstep : r.step = 17) {info : List Byte}
    (hlen : info.length = 4160) {i pos : Nat} (hown : r.own = .partner i pos) :
    ∃ t, exec (.softDecodeDone id u (some info)) s = .next t ∧ t.regs = (s.inc Fld.cryOutCntSoftOk).regs ∧
      t.rd id = some { r with centre := none, softM := none, softP := none, dec := some (some info) } := by
  have hnone : r.res = none := res_of_rd hres hr
  have hlen' : ((some info).all fun i => i.length == 4160) = true := by simpa using hlen
  have hexec : exec (.softDecodeDone id u (some info)) s = .next (grantUnits (settleRds ((refreshReq b.page ((softFreed id r s).inc
      Fld.cryOutCntSoftOk)).modRd id fun r => { r with dec := some (some info) }))) := by
    have hc : (s.coreOn && softUnitOn s u && Tab.find u s.md.softRun == some id && r.step == 17 && r.res.isNone &&
        (some info).all fun i => i.length == 4160) = true := by
      simp only [hon, hu, hrun, hstep, hnone, hlen', Option.isNone_none, beq_self_eq_true, Bool.and_self]
    show execSoftDecodeDone id u (some info) s = _
    rw [execSoftDecodeDone, hr]
    dsimp only
    rw [hslots]
    dsimp only
    rw [hc, hown]
    exact onlyIf_true _ _
  have hrd := softFreed_rd hr
  have hres1 := softFreed_res id r hres
  have hregs := softFreed_regs id r s
  generalize softFreed id r s = t0 at hexec hrd hres1 hregs
  have hkept := (ReadsKept.inc Fld.cryOutCntSoftOk 0 1 t0).trans (.refreshReq b.page _)
  have hregs1 : (refreshReq b.page (t0.inc Fld.cryOutCntSoftOk)).regs = (s.inc Fld.cryOutCntSoftOk).regs := by
    rw [refreshReq_regs]
    exact State.inc_regs_congr hregs _ _ _
  generalize refreshReq b.page (t0.inc Fld.cryOutCntSoftOk) = t1 at hexec hkept hregs1
  have hres2 := res_modRd (s := t1) (f := fun r => { r with dec := some (some info) }) (by rw [hkept.rds]; exact hres1) (fun _ => Eq.refl _) id
  have hrd2 := State.rd_modRd_same t1 id fun r => { r with dec := some (some info) }
  rw [hkept.rd, hrd] at hrd2
  rw [settleRds_of_none hres2] at hexec
  have hunits := UnitsOnly.grantUnits (t1.modRd id fun r => { r with dec := some (some info) })
  exact ⟨_, hexec, by rw [hunits.regs]; exact hregs1, by rw [hunits.rd]; exact hrd2⟩

end

/-! ## Units out of service -/

/-- The bit of a unit's service register set, the error counted and logged (R252, R668). -/
def unitErred (k : RegKind) (n : Nat) (soft : Bool) (u : Nat) (s : State) : State :=
  (contained (s.setBit k 0 n)).logPacked uCRY 0x100A [(1, soft.toNat), (1, u)]

theorem unitErred_rest (k : RegKind) (n : Nat) (soft : Bool) (u : Nat) (s : State) :
    (unitErred k n soft u s).ch = s.ch ∧ (unitErred k n soft u s).md = s.md := by
  simp only [unitErred, contained, State.logPacked_ch, State.logPacked_md, State.inc_ch, State.inc_md, State.setBit_ch, State.setBit_md, and_self]

theorem unitErred_bit {k j : RegKind} (hp : j ≠ .pwrErrCnt) (hl : j ≠ .glbLogSeq) {n : Nat} (hn : n < 32) (soft : Bool) (u : Nat) (s : State) (b : Nat) :
    (unitErred k n soft u s).bit j 0 b = (decide ((j, b) = (k, n)) || s.bit j 0 b) := by
  have hset := s.bit_setBit k j 0 0 n b hn
  have hreg : (unitErred k n soft u s).reg j 0 = (s.setBit k 0 n).reg j 0 := by
    rw [unitErred, contained, State.reg_logPacked _ hl, State.reg_logPacked _ hl, State.reg_inc_kind _ hp]
  rw [State.bit, hreg]
  refine hset.trans ?_
  simp

theorem unitErred_contained {k : RegKind} (hk : Fld.pwrErrCntContained.kind ≠ k) (n : Nat) (soft : Bool) (u : Nat) (s : State) :
    (unitErred k n soft u s).get Fld.pwrErrCntContained = min Fld.pwrErrCntContained.max (s.get Fld.pwrErrCntContained + 1) := by
  have hreg : (unitErred k n soft u s).reg Fld.pwrErrCntContained.kind 0 = ((s.setBit k 0 n).inc Fld.pwrErrCntContained).reg Fld.pwrErrCntContained.kind 0 := by
    rw [unitErred, contained, State.reg_logPacked _ (by decide), State.reg_logPacked _ (by decide)]
  have hsame : (s.setBit k 0 n).get Fld.pwrErrCntContained 0 = s.get Fld.pwrErrCntContained 0 := by
    rw [State.setBit_eq_setReg, State.get_setReg_kind _ hk]
  rw [State.get, hreg]
  refine ((s.setBit k 0 n).get_inc_same Fld.pwrErrCntContained (by decide) 0 1).trans ?_
  rw [hsame]

theorem unitErred_banked {k : RegKind} (hk : Fld.glbBankStsBanked.kind ≠ k) (n : Nat) (soft : Bool) (u : Nat) (s : State) :
    (unitErred k n soft u s).banked = s.banked := by
  rw [State.banked, unitErred, contained, State.flag_logPacked _ (by decide), State.flag_logPacked _ (by decide), State.flag_inc_kind _ (by decide),
    State.setBit_eq_setReg, State.flag_setReg_kind _ hk, State.banked]

/-- The register and the bit of a hard unit (R252). -/
def hardKind (u : Nat) : RegKind := if u < 32 then .cryHardOos0 else .cryHardOos1

theorem hardOn_iff {s : State} {u : Nat} : hardOn s u = true ↔ u < 64 ∧ s.bit (hardKind u) 0 (u % 32) = false := by
  unfold hardOn hardKind State.bit
  by_cases hu : u < 32
  · have hm : u % 32 = u := Nat.mod_eq_of_lt hu
    simp [hu, hm]
  · by_cases h64 : u < 64
    · have hm : u % 32 = u - 32 := by omega
      simp [hu, h64, hm]
    · simp [h64]

theorem hardKind_ne (u : Nat) {k : RegKind} (h0 : k ≠ .cryHardOos0) (h1 : k ≠ .cryHardOos1) : k ≠ hardKind u := by
  unfold hardKind
  split
  · exact h0
  · exact h1

/-- The bit of a unit is that of no other unit. -/
theorem hardKind_inj {u v : Nat} (hu : u < 64) (hv : v < 64) : (hardKind v, v % 32) = (hardKind u, u % 32) ↔ v = u := by
  constructor
  · intro h
    obtain ⟨hk, hm⟩ := Prod.mk.inj h
    unfold hardKind at hk
    by_cases hu3 : u < 32 <;> by_cases hv3 : v < 32 <;> simp [hu3, hv3] at hk <;> omega
  · rintro rfl
    rfl

/-- A unit that erred is out of service, and every other is as before. -/
theorem hardOn_unitErred {u : Nat} (hu : u < 64) (s : State) (v : Nat) :
    hardOn (unitErred (hardKind u) (u % 32) false u s) v = true ↔ hardOn s v = true ∧ v ≠ u := by
  rw [hardOn_iff, hardOn_iff, unitErred_bit (hardKind_ne v (by decide) (by decide)).symm (hardKind_ne v (by decide) (by decide)).symm (Nat.mod_lt _ (by decide))]
  by_cases hv : v < 64
  · simp only [hv, true_and, Bool.or_eq_false_iff, decide_eq_false_iff_not, hardKind_inj hu hv]
    exact and_comm
  · simp [hv]

/-- No hard unit is in service: every bit of both registers is set. -/
theorem hardAllOff_iff (s : State) : (s.reg .cryHardOos0 = 0xFFFFFFFF ∧ s.reg .cryHardOos1 = 0xFFFFFFFF) ↔ ∀ v, ¬ hardOn s v = true := by
  constructor
  · rintro ⟨h0, h1⟩ v hon
    simp only [hardOn, h0, h1] at hon
    revert hon
    rw [imp_false, Bool.not_eq_true]
    by_cases hv : v < 64
    · interval_cases v <;> decide
    · simp [hv]
  · intro h
    have hbit (v : Nat) (hv : v < 64) : s.bit (hardKind v) 0 (v % 32) = true := by
      have hno := h v
      rw [hardOn_iff] at hno
      simpa [hv] using hno
    constructor
    · refine BitVec.eq_of_getLsbD_eq fun i hi => ?_
      have hb := hbit i (by omega)
      rw [hardKind, if_pos hi, Nat.mod_eq_of_lt hi] at hb
      refine hb.trans ?_
      interval_cases i <;> rfl
    · refine BitVec.eq_of_getLsbD_eq fun i hi => ?_
      have hb := hbit (i + 32) (by omega)
      rw [hardKind, if_neg (by omega), Nat.add_mod_right, Nat.mod_eq_of_lt hi] at hb
      refine hb.trans ?_
      interval_cases i <;> rfl

/-- A hard unit that errs: the engine banks once none is left (R252). -/
def hardErred (s : State) : State :=
  if s.reg .cryHardOos0 = 0xFFFFFFFF ∧ s.reg .cryHardOos1 = 0xFFFFFFFF then s.bank 0x0A else grantUnits s

theorem exec_hardMemoryError {s : State} (hon : s.coreOn = true) {u : Nat} (hu : hardOn s u = true) :
    exec (.crystallizerMemoryError false u) s = .next (hardErred (unitErred (hardKind u) (u % 32) false u s)) := by
  have hlt := lt_of_hardOn hu
  have hset : (if u < 32 then s.setBit .cryHardOos0 0 u else s.setBit .cryHardOos1 0 (u - 32)) = s.setBit (hardKind u) 0 (u % 32) := by
    unfold hardKind
    by_cases h : u < 32
    · rw [if_pos h, if_pos h, Nat.mod_eq_of_lt h]
    · have hm : u % 32 = u - 32 := by omega
      rw [if_neg h, if_neg h, hm]
  show execCrystallizerMemoryError false u s = _
  simp only [execCrystallizerMemoryError, hon, hu, Bool.false_eq_true, if_false, Bool.and_self, onlyIf_true, hset, hardErred, unitErred]
  rfl

/-- A hard unit's memory error: the unit is out of service, the codewords stay, and the last one banks the engine. -/
theorem hardMemoryError {s : State} (hon : s.coreOn = true) {u : Nat} (hu : hardOn s u = true) :
    ∃ t, exec (.crystallizerMemoryError false u) s = .next t ∧ hardOn t u = false ∧ t.ch = s.ch ∧ t.md.rds = s.md.rds ∧
      ((∃ v, v ≠ u ∧ hardOn s v = true) → t.banked = s.banked ∧ t.md = { s.md with hardRun := t.md.hardRun, softRun := t.md.softRun, hardLast := t.md.hardLast } ∧
        t.get Fld.pwrErrCntContained = min Fld.pwrErrCntContained.max (s.get Fld.pwrErrCntContained + 1)) ∧
      ((∀ v, v ≠ u → hardOn s v = false) → t.banked = true) := by
  refine ⟨_, exec_hardMemoryError hon hu, ?_⟩
  have hserv := hardOn_unitErred (lt_of_hardOn hu) s
  obtain ⟨hch, hmd⟩ := unitErred_rest (hardKind u) (u % 32) false u s
  have hbank := unitErred_banked (hardKind_ne u (by decide) (by decide)) (u % 32) false u s
  have hcount := unitErred_contained (hardKind_ne u (by decide) (by decide)) (u % 32) false u s
  generalize unitErred (hardKind u) (u % 32) false u s = t at hserv hch hmd hbank hcount
  have hself : hardOn t u = false := by
    rw [← Bool.not_eq_true, hserv]
    exact fun h => h.2 rfl
  unfold hardErred
  by_cases hall : t.reg .cryHardOos0 = 0xFFFFFFFF ∧ t.reg .cryHardOos1 = 0xFFFFFFFF
  · have hnone := (hardAllOff_iff t).mp hall
    rw [if_pos hall, State.bank]
    refine ⟨?_, (bankNamed_ch t _ _).trans hch, by rw [bankNamed_md, hmd], fun ⟨v, hv, hvon⟩ => absurd ((hserv v).mpr ⟨hvon, hv⟩) (hnone v),
      fun _ => bankNamed_banked t _ _⟩
    rw [hardOn, State.reg_bankNamed t (by decide), State.reg_bankNamed t (by decide)]
    exact hself
  · have hunits := UnitsOnly.grantUnits t
    rw [if_neg hall]
    refine ⟨by rw [hunits.hardOn, hself], hunits.ch.trans hch, by rw [hunits.rds, hmd], fun _ => ⟨?_, ?_, ?_⟩, fun hoff => ?_⟩
    · rw [State.banked, State.flag_of_regs hunits.regs]
      exact hbank
    · rw [← hmd]
      exact hunits.md
    · rw [State.get_of_regs hunits.regs, hcount]
    · refine absurd ((hardAllOff_iff t).mpr fun v hv => ?_) hall
      obtain ⟨hvon, hne⟩ := (hserv v).mp hv
      rw [hoff v hne] at hvon
      exact absurd hvon (by decide)

/-- A soft unit's memory error, where another is left (R252). -/
theorem softMemoryError {s : State} (hon : s.coreOn = true) (hres : ∀ e ∈ s.md.rds, e.2.res = none) {u : Nat} (hu : softUnitOn s u = true)
    (hother : ∃ v, v ≠ u ∧ softUnitOn s v = true) :
    ∃ t, exec (.crystallizerMemoryError true u) s = .next t ∧ softUnitOn t u = false ∧ t.ch = s.ch ∧ t.banked = s.banked ∧
      t.md = { s.md with hardRun := t.md.hardRun, softRun := t.md.softRun, hardLast := t.md.hardLast } := by
  have hlt : u < 8 := by
    simp only [softUnitOn, Bool.and_eq_true, decide_eq_true_eq] at hu
    exact hu.1
  have hbits (b : Nat) := unitErred_bit (k := .crySoftOos) (j := .crySoftOos) (by decide) (by decide) (show u < 32 by omega) true u s b
  obtain ⟨hch, hmd⟩ := unitErred_rest .crySoftOos u true u s
  have hbank := unitErred_banked (k := .crySoftOos) (by decide) u true u s
  have hexec : exec (.crystallizerMemoryError true u) s = .next (grantUnits (settleRds (softGone (unitErred .crySoftOos u true u s)))) := by
    show execCrystallizerMemoryError true u s = _
    simp only [execCrystallizerMemoryError, hon, hu, if_true, Bool.and_self, onlyIf_true, unitErred]
  generalize unitErred .crySoftOos u true u s = t at hbits hch hmd hbank hexec
  have hleft : t.get Fld.crySoftOosOos ≠ 0xFF := by
    obtain ⟨v, hne, hv⟩ := hother
    simp only [softUnitOn, Bool.and_eq_true, decide_eq_true_eq, Bool.not_eq_true'] at hv
    obtain ⟨hv8, hvbit⟩ := hv
    have hclear : t.bit .crySoftOos 0 v = false := by
      rw [hbits]
      simp only [Prod.mk.injEq, true_and, decide_eq_false hne, Bool.false_or]
      exact hvbit
    intro he
    have hw : (t.reg .crySoftOos).getLsbD v = false := hclear
    have hfield : (t.reg .crySoftOos).toNat % 256 = 255 := by
      have h : Fld.crySoftOosOos.get (t.reg .crySoftOos) = 255 := he
      simpa [Fld.get, Fld.crySoftOosOos] using h
    have hbit : (t.reg .crySoftOos).toNat.testBit v = ((t.reg .crySoftOos).toNat % 256).testBit v := by
      rw [show (256 : Nat) = 2 ^ 8 from rfl, Nat.testBit_mod_two_pow]
      simp [hv8]
    rw [BitVec.getLsbD, hbit, hfield] at hw
    revert hw
    interval_cases v <;> decide
  have hgone : softGone t = t := if_neg hleft
  rw [hgone, settleRds_of_none (by rw [hmd]; exact hres)] at hexec
  have hunits := UnitsOnly.grantUnits t
  refine ⟨_, hexec, ?_, hunits.ch.trans hch, ?_, ?_⟩
  · rw [hunits.softUnitOn]
    have hself := hbits u
    simp only [decide_true, Bool.true_or] at hself
    have hreg : (t.reg .crySoftOos).getLsbD u = true := hself
    rw [softUnitOn, hreg]
    simp
  · rw [State.banked, State.flag_of_regs hunits.regs]
    exact hbank
  · rw [← hmd]
    exact hunits.md

/-- Settles O18: each result by its own row. -/
theorem codewordsAndDecodes : Obligations.CodewordsAndDecodes := by
  intro s c slot b hon hslot hres
  refine ⟨fun hstage hwant => ⟨fun hz hsoft => ?_, fun hz id plus hwhy => ?_, fun hz k hwhy => ?_⟩,
    fun u info hstage hu hrun hlen id r hwhy hr => ⟨fun i pos hown hstep hcbc => ?_, fun plain hown hok => ?_⟩,
    fun u id r hstage hu hrun hwhy hr hown hb hstep hladder hlimit hofs => ?_, fun u id r info i pos hr hslots hu hrun hstep hlen hown => ?_,
    fun u => ⟨fun hu => hardMemoryError hon hu, fun hu hother => softMemoryError hon hres hu hother⟩⟩
  · exact codewordReady_waits hon hslot hstage hwant hz hsoft
  · exact codewordReady_soft hon hslot hstage hwant hz hwhy
  · exact codewordReady_sample hon hslot hres hstage hwant hz hwhy
  · exact hardDecodeDone_partner hon hslot hres hstage hu hrun hlen hwhy hr hown hstep hcbc
  · exact hardDecodeDone_patrol hon hslot hres hstage hu hrun hlen hwhy hr hown hok
  · exact hardDecodeDone_ladder hon hslot hres hstage hu hrun hwhy hr hown hb hstep hladder hlimit hofs
  · exact softDecodeDone_partner hon hres hr hslots hu hrun hstep hlen hown

end Sys2Proof.Machine
end

section
/-! PROOFS. Reconstruction partners, gauge lines, class-0 bounds, token buckets and ended operations (R22, R238, R261, R301 to R309). -/

namespace Sys2Proof.Machine

/-! ## Partners -/

theorem Tab.length_del_le {α : Type} (k : Nat) : ∀ t : Tab α, (Tab.del k t).length ≤ t.length
  | [] => Nat.le_refl _
  | (a, v) :: r => by
    rw [Tab.del]
    split
    · exact (Tab.length_del_le k r).trans (Nat.le_succ _)
    · exact Nat.succ_le_succ (Tab.length_del_le k r)

theorem Tab.length_insert {α : Type} (k : Nat) (v : α) : ∀ t : Tab α, (Tab.insert k v t).length = t.length + 1
  | [] => rfl
  | (a, w) :: r => by
    rw [Tab.insert]
    split
    · rfl
    · rw [List.length_cons, Tab.length_insert k v r, List.length_cons]

theorem Tab.length_put_le {α : Type} (k : Nat) (v : α) (t : Tab α) : (Tab.put k v t).length ≤ t.length + 1 := by
  rw [Tab.put, Tab.length_insert]
  exact Nat.succ_le_succ (Tab.length_del_le k t)

section
variable {s : State}

/-- Too few members are present: the rebuild waits (R294). -/
theorem tryRebuild_few {id : Nat} {o : Rd} {c : Recon} (hr : s.rd id = some o) (hc : o.recon = some c) (hfew : c.have_.length < 16) : tryRebuild id s = s := by
  rw [tryRebuild, hr]
  dsimp only
  rw [hc]
  split
  next hc' _ =>
    obtain rfl := Option.some.inj hc'
    rw [if_pos hfew]
  next => rfl

theorem dropOne_rd_ne {id j : Nat} (h : j ≠ id) (s : State) : (dropOne id s).rd j = s.rd j := by
  rw [dropOne_eq]
  split
  next => rfl
  next r hr => exact Tab.find_del_ne h _

theorem dropOne_regs (id : Nat) (s : State) : (dropOne id s).regs = s.regs := by
  rw [dropOne_eq]
  split <;> rfl

theorem dropOne_res (id : Nat) (h : ∀ e ∈ s.md.rds, e.2.res = none) : ∀ e ∈ (dropOne id s).md.rds, e.2.res = none := by
  rw [dropOne_eq]
  split
  next => exact h
  next r hr =>
    intro e he
    have hin : e ∈ Tab.del id s.md.rds := he
    exact h e (Tab.mem_del hin)

/-- A partner's good codeword goes to its reconstruction. -/
theorem partnerReadDone_good (hon : s.coreOn = true) {id pid : Nat} {r o : Rd} {c : Recon} {pos : Nat} {cw : List Byte} (hres : ∀ e ∈ s.md.rds, e.2.res = none)
    (hne : pid ≠ id) (hr : s.rd pid = some r) (hown : r.own = .partner id pos) (hdec : r.dec = some (some cw)) (hstripe : (readMeta cw).stripe = r.stripe)
    (hspos : (readMeta cw).spos = r.spos) (ho : s.rd id = some o) (hc : o.recon = some c) (hfew : c.have_.length + 1 < 16) :
    ∃ t, exec (.partnerReadDone pid) s = .next t ∧ t.rd pid = none ∧
      t.rd id = some { o with recon := some { c with have_ := Tab.put pos (parityPart pos cw) c.have_ } } ∧ t.regs = s.regs := by
  have hrow : exec (.partnerReadDone pid) s = .next (settleRds (partnerResult pid s)) := by
    show execPartnerReadDone pid s = _
    rw [execPartnerReadDone, hr]
    dsimp only
    rw [hon, hdec]
    exact onlyIf_true _ _
  have hgood : partnerResult pid s = tryRebuild id (dropOne pid (s.modRd id fun o => { o with recon := o.recon.map fun c =>
      { c with have_ := Tab.put pos (parityPart pos cw) c.have_ } })) := by
    rw [partnerResult, hr]
    dsimp only
    rw [hown, hdec]
    dsimp only
    rw [hstripe, hspos, beq_self_eq_true, beq_self_eq_true]
    rfl
  have hrd := State.rd_modRd_same s id fun o => { o with recon := o.recon.map fun c => { c with have_ := Tab.put pos (parityPart pos cw) c.have_ } }
  have hres1 := res_modRd (f := fun o => { o with recon := o.recon.map fun c => { c with have_ := Tab.put pos (parityPart pos cw) c.have_ } }) hres
    (fun _ => rfl) id
  have hregs : (s.modRd id fun o => { o with recon := o.recon.map fun c => { c with have_ := Tab.put pos (parityPart pos cw) c.have_ } }).regs = s.regs := rfl
  rw [ho, Option.map_some, hc, Option.map_some] at hrd
  generalize (s.modRd id fun o => { o with recon := o.recon.map fun c => { c with have_ := Tab.put pos (parityPart pos cw) c.have_ } }) = t0 at *
  have hdropped : (dropOne pid t0).rd id = _ := (dropOne_rd_ne hne.symm t0).trans hrd
  have hwait := tryRebuild_few hdropped rfl (lt_of_le_of_lt (Tab.length_put_le pos (parityPart pos cw) c.have_) hfew)
  rw [hgood, hwait, settleRds_of_none (dropOne_res pid hres1)] at hrow
  exact ⟨_, hrow, dropOne_rd pid t0, hdropped, (dropOne_regs pid t0).trans hregs⟩

/-! ## Class-0 bounds -/

/-- An entry that a bound owes: what it changes of the rings and of the requests (R304, R309). -/
theorem oweEntry_status (q : Request) (status : Nat) (second last : Bool) (dstate : Nat) (deferring : Bool) (s : State) :
    Owes s (oweEntry s q status second last dstate deferring) q status last ∧ (oweEntry s q status second last dstate deferring).regs = s.regs ∧
      ∀ rtag, (oweEntry s q status second last dstate deferring).rq rtag = s.rq rtag :=
  ⟨⟨_, congrArg Hrv.queue (Tab.get_set_same _ _ _ _), rfl, rfl, rfl, rfl⟩, rfl, fun _ => rfl⟩

theorem exec_class0Deadline (hon : s.coreOn = true) {rtag : Nat} {q : Request} (hq : s.rq rtag = some q) (hstage : s.stage = 9) (hcls : q.cls = 0)
    (hceil : q.overCeil = false) (hfirst : q.firstOut = false) (hstatus : q.status = none) (hpast : q.base + 197500 ≤ s.now)
    (hundone : (q.opc = 1 ∧ q.tiles.all tileDone = false) ∨ q.opc = 5) :
    exec (.class0Deadline rtag) s = .next (oweEntry ((s.setRq { q with firstOut := true, deferred := true }).inc Fld.mapC0CntDefer)
      { q with firstOut := true, deferred := true } (tilesStatus (q.tiles.map (tileRecord true))) false false 0 true) := by
  have hbound : q.bounded = true := by
    rcases hundone with ⟨h, -⟩ | h <;> simp [Request.bounded, hcls, hceil, h]
  have hun : (if q.opc = 1 then !q.tiles.all tileDone else true) = true := by
    rcases hundone with ⟨h, ht⟩ | h
    · rw [if_pos h, ht]
      rfl
    · rw [if_neg (by omega)]
  show execClass0Deadline rtag s = _
  rw [execClass0Deadline, hq]
  dsimp only
  rw [hun, hon, hstage, hbound, hfirst, hstatus, decide_eq_true hpast]
  exact onlyIf_true _ _

theorem exec_commitLate (hon : s.coreOn = true) {rtag : Nat} {q : Request} (hq : s.rq rtag = some q) (hstage : s.stage = 9) (hcls : q.cls = 0)
    (hopc : q.opc = 2) (hack : q.ack = 2) (hstarted : q.started = true) (hfirst : q.firstOut = false) (htwin : s.twinUp = true)
    (htiles : ∀ x ∈ q.tiles, x.dead = false ∧ 1 ≤ x.dstate) (hlow : ∃ x ∈ q.tiles, x.dstate < 2) (hpast : q.base + 76500 ≤ s.now) :
    exec (.commitLate rtag) s = .next (oweEntry ((s.setRq { q with firstOut := true, late := true, owesTwin := true }).inc Fld.mapC0Cnt2CmtLate)
      { q with firstOut := true, late := true, owesTwin := true } 0 false false 1 false) := by
  have hdead : (q.tiles.any fun x => x.dead) = false := List.any_eq_false.mpr fun x hx => by simp [(htiles x hx).1]
  have hall : (q.tiles.all fun t => decide (1 ≤ t.dstate)) = true := List.all_eq_true.mpr fun x hx => decide_eq_true (htiles x hx).2
  have hany : (q.tiles.any fun t => decide (t.dstate < 2)) = true := by
    obtain ⟨x, hx, hlt⟩ := hlow
    exact List.any_eq_true.mpr ⟨x, hx, decide_eq_true hlt⟩
  show execCommitLate rtag s = _
  rw [execCommitLate, hq]
  dsimp only
  rw [hon, hstage, hcls, hopc, hack, hstarted, hfirst, htwin, hdead, hall, hany, decide_eq_true hpast]
  exact onlyIf_true _ _

theorem rq_setRq {q : Request} {rtag : Nat} (h : q.rtag = rtag) (f : Fld) (i n : Nat) : ((s.setRq q).inc f i n).rq rtag = some q := by
  rw [← h]
  exact Tab.find_put_same _ _ _

/-! ## Token buckets -/

theorem exec_class0BucketRefill (hon : s.coreOn = true) (h : s.md.c0At + 1000 ≤ s.now) :
    exec .class0BucketRefill s = .next { s with md := { s.md with
      c0Tok := min 400 (s.md.c0Tok + 2 * ((s.now - s.md.c0At) / 1000))
      c0At := s.md.c0At + 1000 * ((s.now - s.md.c0At) / 1000) } } := by
  have hn : 1 ≤ (s.now - s.md.c0At) / 1000 := by omega
  show execClass0BucketRefill s = _
  simp only [execClass0BucketRefill, hon, decide_eq_true hn, Bool.and_self, onlyIf_true]

/-- Where no read waits for a token, none tries again (R273). -/
theorem retryAround_of_none (h : ∀ e ∈ s.md.rds, e.2.wantTok = false) : retryAround s = s := by
  have hnil : (s.md.rds.filter fun e => e.2.wantTok && e.2.recon.isNone && e.2.ladder && e.2.res.isNone) = [] :=
    List.filter_eq_nil_iff.mpr fun e he => by simp [h e he]
  rw [retryAround, hnil]
  rfl

/-- The read-around bucket filled (R302). -/
def raFilled (s : State) : State :=
  { s with md := { s.md with raTok := min (s.get Fld.mapRaCfgRate) (s.md.raTok + s.get Fld.mapRaCfgRate), raAt := s.now } }

theorem exec_raBucketRefill (hon : s.coreOn = true) (h : s.md.raAt + 1000000 ≤ s.now) (hno : ∀ e ∈ s.md.rds, e.2.wantTok = false) :
    exec .raBucketRefill s = .next (raFilled s) := by
  have hretry : retryAround (raFilled s) = raFilled s := retryAround_of_none hno
  show execRaBucketRefill s = _
  simp only [execRaBucketRefill, hon, decide_eq_true h, Bool.and_self, onlyIf_true]
  exact congrArg _ hretry

/-! ## Gauge lines -/

/-- Held reads go on, and what DRAM has answered is noted: the reads, the gauge cache and the rest of the media state stay (R106, R689). -/
theorem releaseHeld_rest (s : State) : releaseHeld s = { s with fab := (releaseHeld s).fab, pwr := (releaseHeld s).pwr } := by
  have hline (q : FabReq) (p : Purpose) (t : State) : lineRead q p t = { t with fab := (lineRead q p t).fab, pwr := (lineRead q p t).pwr } := by
    unfold lineRead
    split
    · rfl
    · exact issueAll_rest _ t
  have hall : ∀ (l : List (FabReq × Purpose)) (t : State), l.foldl (fun s x => lineRead x.1 x.2 s) t =
      { t with fab := (l.foldl (fun s x => lineRead x.1 x.2 s) t).fab, pwr := (l.foldl (fun s x => lineRead x.1 x.2 s) t).pwr } := by
    intro l
    induction l with
    | nil => exact fun _ => rfl
    | cons x l ih => exact fun t => State.memOnly_trans (hline x.1 x.2 t) (ih _)
  exact State.memOnly_trans (t := { s with fab := { s.fab with held := [] } }) rfl (hall _ _)

/-- The media state as the answer to a gauge fetch is used. -/
theorem gaugeTaken_md {o : Outst} {t : State} {key : Nat} (h : takeOutst (.gauge key) s = some (o, t)) :
    (dramSeen .ok (releaseHeld t)).md = { s.md with dramOk := true } ∧ (dramSeen .ok (releaseHeld t)).img = s.img := by
  have ht : t = { s with fab := t.fab } := by
    unfold takeOutst at h
    split at h
    · exact absurd h (by simp)
    · obtain ⟨-, rfl⟩ := Prod.mk.inj (Option.some.inj h)
      rfl
  have hrel := releaseHeld_rest t
  generalize releaseHeld t = v at hrel
  constructor
  · show { v.md with dramOk := true } = _
    rw [hrel, ht]
  · show v.img = _
    rw [hrel, ht]

/-- A line put where its set has room stands in the cache (R260). -/
theorem gaugeFill_room {key cls : Nat} {l : GLine} (h : s.md.gauge.length < 8) :
    gaugeFill key cls l s = { s with md := { s.md with gauge := Tab.put key { l with used := s.md.gaugeT } s.md.gauge, gaugeT := s.md.gaugeT + 1 } } := by
  have hset : (s.md.gauge.filter fun e => e.2.idx % 4096 == l.idx % 4096 && e.1 != key).length < 8 := lt_of_le_of_lt (List.length_filter_le _ _) h
  unfold gaugeFill
  dsimp only
  rw [if_pos hset]

/-- A partner's read placed: it waits for no gauge line any more, and the other reads and the gauge cache stay. -/
theorem placePlain_status (id : Nat) (front : Bool) (s : State) :
    (∀ j, (placePlain id front s).rd j = if j = id then (s.rd j).map fun r => { r with gaugeWait := false } else s.rd j) ∧
      (placePlain id front s).md.gauge = s.md.gauge := by
  unfold placePlain
  split
  next h => exact ⟨fun j => by split <;> simp_all, rfl⟩
  next r hr =>
    refine ⟨fun j => ?_, rfl⟩
    show (s.modRd id fun r => { r with gaugeWait := false }).rd j = _
    by_cases hj : j = id
    · rw [if_pos hj, hj, State.rd_modRd_same]
    · rw [if_neg hj, State.rd_modRd_ne _ hj]

theorem placePlain_res (id : Nat) (front : Bool) (h : ∀ e ∈ s.md.rds, e.2.res = none) : ∀ e ∈ (placePlain id front s).md.rds, e.2.res = none := by
  unfold placePlain
  split
  · exact h
  · exact res_modRd (f := fun r => { r with gaugeWait := false }) h (fun _ => rfl) id

/-- Partners placed one after another: none of them waits for its gauge line any more. -/
theorem foldl_placePlain : ∀ (l : List (Nat × Rd)) (s : State), (∀ e ∈ s.md.rds, e.2.res = none) →
    (∀ j, ∀ r, s.rd j = some r → ∃ r', (l.foldl (fun s e => placePlain e.1 true s) s).rd j = some r' ∧
      (r.gaugeWait = false ∨ (∃ e ∈ l, e.1 = j) → r'.gaugeWait = false)) ∧
      (l.foldl (fun s e => placePlain e.1 true s) s).md.gauge = s.md.gauge ∧ ∀ e ∈ (l.foldl (fun s e => placePlain e.1 true s) s).md.rds, e.2.res = none
  | [], s, h => ⟨fun j r hr => ⟨r, hr, fun hw => hw.elim id fun ⟨e, he, _⟩ => absurd he List.not_mem_nil⟩, rfl, h⟩
  | x :: l, s, h => by
    obtain ⟨hrd, hg⟩ := placePlain_status x.1 true s
    obtain ⟨hreads, hgauge, hres⟩ := foldl_placePlain l (placePlain x.1 true s) (placePlain_res x.1 true h)
    rw [List.foldl_cons]
    refine ⟨fun j r hr => ?_, hgauge.trans hg, hres⟩
    have hj := hrd j
    rw [hr] at hj
    by_cases he : j = x.1
    · rw [if_pos he, Option.map_some] at hj
      obtain ⟨r', hr', hw⟩ := hreads j _ hj
      exact ⟨r', hr', fun _ => hw (.inl rfl)⟩
    · rw [if_neg he] at hj
      obtain ⟨r', hr', hw⟩ := hreads j _ hj
      refine ⟨r', hr', fun hor => hw (hor.imp id fun ⟨e, hmem, hej⟩ => ?_)⟩
      rcases List.mem_cons.mp hmem with rfl | hin
      · exact absurd hej.symm he
      · exact ⟨e, hin, hej⟩

/-- The reads that wait for a gauge line go on; here they are partners. -/
theorem gaugeGo_partners {key : Nat} (h : ∀ e ∈ s.md.rds, gaugeKey e.2.page = key → ∃ i pos, e.2.own = .partner i pos) :
    gaugeGo key s = (s.md.rds.filter fun e => e.2.gaugeWait && gaugeKey e.2.page == key).foldl (fun s e => placePlain e.1 true s) s := by
  have hall : ∀ (l : List (Nat × Rd)) (t : State), (∀ e ∈ l, ∃ i pos, e.2.own = .partner i pos) →
      l.foldl (fun s e => match e.2.own with
        | .partner _ _ => placePlain e.1 true s
        | _ => place e.1 s) t = l.foldl (fun s e => placePlain e.1 true s) t := by
    intro l
    induction l with
    | nil => exact fun _ _ => rfl
    | cons e l ih =>
      intro t hl
      obtain ⟨i, pos, he⟩ := hl e List.mem_cons_self
      rw [List.foldl_cons, List.foldl_cons, he]
      exact ih _ fun x hx => hl x (List.mem_cons_of_mem _ hx)
  refine hall _ s fun e he => ?_
  obtain ⟨hmem, hkey⟩ := List.mem_filter.mp he
  simp only [Bool.and_eq_true, beq_iff_eq] at hkey
  exact h e hmem hkey.2

/-- A gauge line fetched: it stands in the cache, and the reads that wait for it go on (R261). -/
theorem gaugeLineFetchDone_fills (hon : s.coreOn = true) {key : Nat} {o : Outst} {t : State} {g : Page × Nat} {data : List Byte}
    (htake : takeOutst (.gauge key) s = some (o, t)) (hpage : gaugePage s key = some g) (hroom : s.md.gauge.length < 8)
    (hrds : ∀ e ∈ s.md.rds, e.2.res = none ∧ (gaugeKey e.2.page = key → ∃ i pos, e.2.own = .partner i pos)) :
    ∃ u l, exec (.gaugeLineFetchDone key .ok data) s = .next u ∧ Tab.find key u.md.gauge = some l ∧ l.off = (List.range 32).map (sbyte data) ∧
      l.acc = ((List.range 32).map fun i => sbyte data (32 + i)) ∧
      ∀ id r, s.rd id = some r → gaugeKey r.page = key → ∃ r', u.rd id = some r' ∧ r'.gaugeWait = false := by
  have hexec : exec (.gaugeLineFetchDone key .ok data) s = .next (gaugeFetched key .ok data (dramSeen .ok (releaseHeld t))) := by
    show execGaugeLineFetchDone key .ok data s = _
    rw [execGaugeLineFetchDone, htake]
    dsimp only
    rw [hon]
    exact onlyIf_true _ _
  obtain ⟨hmd, himg⟩ := gaugeTaken_md htake
  generalize dramSeen .ok (releaseHeld t) = t0 at hexec hmd himg
  have hrds0 : t0.md.rds = s.md.rds := by rw [hmd]
  have hpage0 : gaugePage t0 key = some g := by rw [gaugePage, hrds0]; exact hpage
  have hroom0 : t0.md.gauge.length < 8 := by rw [hmd]; exact hroom
  have hfetched : gaugeFetched key .ok data t0 = settleRds (gaugeGo key (gaugeFill key g.2 (glineOf (gaugeIndex t0 g.1.lun g.1.block) data) t0)) := by
    rw [gaugeFetched, hpage0]
  rw [hfetched, gaugeFill_room hroom0] at hexec
  have hfill := Tab.find_put_same key { glineOf (gaugeIndex t0 g.1.lun g.1.block) data with used := t0.md.gaugeT } t0.md.gauge
  generalize ht1 : ({ t0 with md := { t0.md with
      gauge := Tab.put key { glineOf (gaugeIndex t0 g.1.lun g.1.block) data with used := t0.md.gaugeT } t0.md.gauge
      gaugeT := t0.md.gaugeT + 1 } } : State) = t1 at hexec
  have hrds1 : t1.md.rds = s.md.rds := by rw [← ht1, ← hrds0]
  have hgauge1 : Tab.find key t1.md.gauge = some { glineOf (gaugeIndex t0 g.1.lun g.1.block) data with used := t0.md.gaugeT } := by rw [← ht1]; exact hfill
  rw [gaugeGo_partners (by rw [hrds1]; exact fun e he => (hrds e he).2)] at hexec
  obtain ⟨hreads, hgauge2, hres2⟩ := foldl_placePlain (t1.md.rds.filter fun e => e.2.gaugeWait && gaugeKey e.2.page == key) t1
    (by rw [hrds1]; exact fun e he => (hrds e he).1)
  rw [settleRds_of_none hres2] at hexec
  refine ⟨_, _, hexec, by rw [hgauge2, hgauge1], rfl, rfl, fun id r hr hkey => ?_⟩
  have hr1 : t1.rd id = some r := by rw [State.rd, hrds1]; exact hr
  obtain ⟨r', hr', hw⟩ := hreads id r hr1
  refine ⟨r', hr', hw ?_⟩
  cases hwait : r.gaugeWait with
  | false => exact .inl rfl
  | true => exact .inr ⟨(id, r), List.mem_filter.mpr ⟨Tab.mem_of_find hr1, by simp [hwait, hkey]⟩, rfl⟩

/-! ## Ended operations -/

/-- The list of ended operations as one is evaluated: it stays for the draught island's report, where that is still to come (R238). -/
def endedKept (a : List Ended) (e : Ended) (b : List Ended) : List Ended := if e.reported then a ++ b else a ++ { e with judged := true } :: b

theorem suspended_status (e : Ended) (s : State) : (suspended e s).regs = (s.inc Fld.stkAopCntEsusp (lunCh e.op.lun)).regs ∧
    (suspended e s).md = { s.md with luns := (suspended e s).md.luns } ∧
    ((suspended e s).lun e.op.lun).er = (s.lun e.op.lun).er.map fun x => { x with suspAt := some s.now, count := x.count + 1, closed := false, nested := 0 } :=
  ⟨rfl, rfl, congrArg LunSt.er (State.lun_modLun_same _ _ (s.inc Fld.stkAopCntEsusp (lunCh e.op.lun)))⟩

/-- An erase that was suspended (R221). -/
theorem operationEnd_suspended (hon : s.coreOn = true) {a b : List Ended} {e : Ended} (hnext : nextEnded s.md.ended = some (a, e, b)) (hcode : e.code = 5)
    (herase : isErase e.op.optype = true) (hwants : e.op.wants = []) (hraw : s.flag Fld.stkRawCtlEn (lunCh e.op.lun) = false)
    (hres : ∀ x ∈ s.md.rds, x.2.res = none) {er : ErState} (her : (s.lun e.op.lun).er = some er) :
    ∃ t, exec .operationEnd s = .next t ∧ t.regs = (s.inc Fld.stkAopCntEsusp (lunCh e.op.lun)).regs ∧
      (t.lun e.op.lun).er = some { er with suspAt := some s.now, count := er.count + 1, closed := false, nested := 0 } ∧ t.md.ended = endedKept a e b := by
  have hexec : exec .operationEnd s = .next (settleRds (rawAfter e.op.lun (judgeOp e { s with md := { s.md with ended := endedKept a e b } }))) := by
    show execOperationEnd s = _
    rw [execOperationEnd, hnext]
    dsimp only
    rw [hon]
    exact onlyIf_true _ _
  have hjudge (u : State) : judgeOp e u = suspended e (modLun e.op.lun (fun l => { l with sensed := sensedAfter e l }) u) := by
    rw [judgeOp]
    dsimp only
    rw [if_neg (by omega : ¬ 8 ≤ e.code), hwants, List.foldl_nil, if_pos ⟨hcode, herase⟩]
  rw [hjudge] at hexec
  have hlun := State.lun_modLun_same e.op.lun (fun l => { l with sensed := sensedAfter e l }) { s with md := { s.md with ended := endedKept a e b } }
  have hrest := modLun_rest e.op.lun (fun l => { l with sensed := sensedAfter e l }) { s with md := { s.md with ended := endedKept a e b } }
  generalize modLun e.op.lun (fun l => { l with sensed := sensedAfter e l }) { s with md := { s.md with ended := endedKept a e b } } = u at hexec hlun hrest
  have her1 : (u.lun e.op.lun).er = some er := (congrArg LunSt.er hlun).trans her
  have hregs1 : u.regs = s.regs := by rw [hrest]
  have hnow : u.now = s.now := by rw [State.now, hrest, State.now]
  have hended : u.md.ended = endedKept a e b := by rw [hrest]
  have hrds : u.md.rds = s.md.rds := by rw [hrest]
  obtain ⟨hregs, hmd, hsusp⟩ := suspended_status e u
  generalize suspended e u = v at hexec hregs hmd hsusp
  have hregs2 : v.regs = (s.inc Fld.stkAopCntEsusp (lunCh e.op.lun)).regs := hregs.trans (State.inc_regs_congr hregs1 _ _ _)
  have hlatch : rawAfter e.op.lun v = v := by
    have hflag : v.flag Fld.stkRawCtlEn (lunCh e.op.lun) = false := by
      rw [State.flag_of_regs hregs2, State.flag_inc_kind _ (by decide), hraw]
    rw [rawAfter, rawLatch, rawReady, hflag]
    rfl
  rw [hlatch, settleRds_of_none (by rw [hmd, hrds]; exact hres)] at hexec
  refine ⟨v, hexec, hregs2, ?_, by rw [hmd, hended]⟩
  rw [hsusp, her1, hnow]
  rfl

end

/-- Settles O19: each bound by its own row. -/
theorem partnersAndBounds : Obligations.PartnersAndBounds := by
  intro s hon
  refine ⟨fun id pid r o c pos cw hres hne hr hown hdec hstripe hspos ho hc hfew => ?_, fun key o t g data htake hpage hroom hrds => ?_,
    fun rtag q hq htag hstage => ⟨fun hcls hceil hfirst hstatus hpast hundone => ?_,
      fun hcls hopc hack hstarted hfirst htwin htiles hlow hpast => ?_⟩, fun h => ?_, fun h hno => ?_,
    fun a e b hnext hcode herase hwants hraw hres er her => ?_⟩
  · exact partnerReadDone_good hon hres hne hr hown hdec hstripe hspos ho hc hfew
  · exact gaugeLineFetchDone_fills hon htake hpage hroom hrds
  · obtain ⟨howes, hregs, hrq⟩ := oweEntry_status { q with firstOut := true, deferred := true } (tilesStatus (q.tiles.map (tileRecord true))) false false 0 true
      ((s.setRq { q with firstOut := true, deferred := true }).inc Fld.mapC0CntDefer)
    refine ⟨_, exec_class0Deadline hon hq hstage hcls hceil hfirst hstatus hpast hundone,
      (hrq rtag).trans (rq_setRq (q := { q with firstOut := true, deferred := true }) htag _ _ _), hregs, howes⟩
  · obtain ⟨howes, hregs, hrq⟩ := oweEntry_status { q with firstOut := true, late := true, owesTwin := true } 0 false false 1 false
      ((s.setRq { q with firstOut := true, late := true, owesTwin := true }).inc Fld.mapC0Cnt2CmtLate)
    exact ⟨_, exec_commitLate hon hq hstage hcls hopc hack hstarted hfirst htwin htiles hlow hpast,
      (hrq rtag).trans (rq_setRq (q := { q with firstOut := true, late := true, owesTwin := true }) htag _ _ _), hregs, howes⟩
  · exact ⟨_, exec_class0BucketRefill hon h, rfl, rfl, rfl⟩
  · exact ⟨_, exec_raBucketRefill hon h hno, rfl, rfl, rfl, rfl⟩
  · exact operationEnd_suspended hon hnext hcode herase hwants hraw hres her

end Sys2Proof.Machine
end

section
/-! PROOFS. What the engine answers DECERR (R45, R46, R81, R609, R610, R664, R679). -/

namespace Sys2Proof.Machine

/-! ## The gate of an access -/

/-- A write that start-up, the banked state, its channel, its requester or its form does not allow. -/
theorem gate_write_decerr {s : State} {r : Req} {k : RegKind} (hon : s.coreOn = true) (hraw : rawBehind s r = false)
    (h : s.fwUp = false ∨ (s.banked = true ∧ k.block ≠ .sic ∧ k ≠ .trpSts ∧ k.block ≠ .dbg) ∨ 5 ≤ r.vc ∨ classOf r.src = none ∨ r.single = false)
    (i : Nat) (w : Word) : gate s r k i true w = .decerr := by
  unfold gate
  rcases h with h | ⟨hb, h1, h2, h3⟩ | h | h | h
  · simp [hon, hraw, startupRefuses, h]
  · simp [hon, hraw, bankRefuses, hb, h1, h2, h3]
  · simp [hon, h]
  · simp [hon, hraw, h]
  · simp [hon, hraw, h]

/-- An access that nothing but the rights of its class refuses. -/
theorem gate_refused {s : State} {r : Req} {k : RegKind} {i : Nat} {write : Bool} {w : Word} (hon : s.coreOn = true) (hvc : r.vc < 5)
    (hraw : rawBehind s r = false) (hup : s.fwUp = true) (hb : s.banked = false) (hform : r.single = true) (hsrc : classOf r.src ≠ none)
    (h : accessAllowed s r.src k i write w = false) : gate s r k i write w = .refused := by
  unfold gate
  simp [hon, Nat.not_le.mpr hvc, hraw, startupRefuses, hup, bankRefuses, hb, hsrc, hform, h]

theorem classOf_lt {src : Nat} (h : classOf src ≠ none) : src < 256 := by
  grind [classOf]

/-! ## The record of a refused access -/

theorem noteRefused_dap (s : State) (ofs : Nat) : s.noteRefused 1 ofs = s.putFlag Fld.dbgStsRefused true := rfl

theorem noteRefused_other {src : Nat} (h : src ≠ 1) (s : State) (ofs : Nat) :
    s.noteRefused src ofs = (((s.putFlag Fld.secAccStsRefused true).put Fld.secAccStsLastId src).inc Fld.secAccStsCount).put Fld.secAccOfsOfs ofs :=
  if_neg h

theorem noteRefused_rest (s : State) (src ofs : Nat) : s.noteRefused src ofs = { s with regs := (s.noteRefused src ofs).regs } := by
  by_cases h : src = 1
  · rw [h, noteRefused_dap]
    rfl
  · rw [noteRefused_other h]
    rfl

theorem reg_noteRefused (s : State) {k : RegKind} (h1 : k ≠ .secAccSts) (h2 : k ≠ .secAccOfs) (h3 : k ≠ .dbgSts) (src ofs i : Nat) :
    (s.noteRefused src ofs).reg k i = s.reg k i := by
  by_cases h : src = 1
  · rw [h, noteRefused_dap, s.reg_putFlag_kind h3]
  · rw [noteRefused_other h, State.reg_put_kind _ h2, State.reg_inc_kind _ h1, State.reg_put_kind _ h1, State.reg_putFlag_kind _ h1]

theorem reg_noteRefused_class {src : Nat} (h : src ≠ 1) (s : State) {k : RegKind} (h1 : k ≠ .secAccSts) (h2 : k ≠ .secAccOfs) (ofs i : Nat) :
    (s.noteRefused src ofs).reg k i = s.reg k i := by
  rw [noteRefused_other h, State.reg_put_kind _ h2, State.reg_inc_kind _ h1, State.reg_put_kind _ h1, State.reg_putFlag_kind _ h1]

theorem flag_noteRefused_class {src : Nat} (h : src ≠ 1) (s : State) (ofs : Nat) : (s.noteRefused src ofs).flag Fld.secAccStsRefused = true := by
  rw [noteRefused_other h, State.flag_put_kind _ (by decide), State.flag_inc_field _ (by decide) (by decide), State.flag_put_field _ (by decide) (by decide)]
  exact State.flag_putFlag s Fld.secAccStsRefused rfl (by decide) true 0

theorem lastId_noteRefused {src : Nat} (h : src ≠ 1) (hlt : src < 256) (s : State) (ofs : Nat) :
    (s.noteRefused src ofs).get Fld.secAccStsLastId = src := by
  rw [noteRefused_other h, State.get_put_kind _ (by decide), State.get_inc_field _ (by decide) (by decide), State.get_put_same _ _ (by decide)]
  exact Nat.mod_eq_of_lt hlt

theorem count_noteRefused {src : Nat} (h : src ≠ 1) (s : State) (ofs : Nat) :
    (s.noteRefused src ofs).get Fld.secAccStsCount = min 65535 (s.get Fld.secAccStsCount + 1) := by
  rw [noteRefused_other h, State.get_put_kind _ (by decide), State.get_inc_same _ _ (by decide), State.get_put_field _ (by decide) (by decide),
    State.get_putFlag_field _ (by decide) (by decide)]
  rfl

theorem ofs_noteRefused {src : Nat} (h : src ≠ 1) (s : State) (ofs : Nat) : (s.noteRefused src ofs).get Fld.secAccOfsOfs = ofs % 2 ^ 26 := by
  rw [noteRefused_other h, State.get_put_same _ _ (by decide)]
  rfl

/-! ## Accesses that are refused -/

theorem regWrite_decerr {s : State} {r : Req} {k : RegKind} {i : Nat} {w : Word} (h : gate s r k i true w = .decerr) (eff : State → State) :
    regWrite s r k i w eff = s.respondWrite r .decerr := by
  unfold regWrite
  rw [h]

/-- The state after a refused write but for its response: a refused write of SEC_LC_CTL is recorded for the debug access port too (R637). -/
def writeRefused (s : State) (r : Req) (k : RegKind) (i : Nat) : State :=
  (if k = .secLcCtl then s.putFlag Fld.secAccStsRefused true else s).noteRefused r.src (k.offset i)

theorem regWrite_refused {s : State} {r : Req} {k : RegKind} {i : Nat} {w : Word} (h : gate s r k i true w = .refused) (eff : State → State) :
    regWrite s r k i w eff = (writeRefused s r k i).respondWrite r .decerr := by
  unfold regWrite
  rw [h]
  rfl

theorem writeRefused_rest (s : State) (r : Req) (k : RegKind) (i : Nat) : writeRefused s r k i = { s with regs := (writeRefused s r k i).regs } := by
  unfold writeRefused
  rw [noteRefused_rest]
  split <;> rfl

theorem reg_writeRefused (s : State) (r : Req) (k : RegKind) (i : Nat) {k' : RegKind} (h1 : k' ≠ .secAccSts) (h2 : k' ≠ .secAccOfs) (h3 : k' ≠ .dbgSts)
    (i' : Nat) : (writeRefused s r k i).reg k' i' = s.reg k' i' := by
  unfold writeRefused
  rw [reg_noteRefused _ h1 h2 h3]
  split
  · exact s.reg_putFlag_kind h1 _ _ _
  · rfl

theorem regRead_refused {s : State} {r : Req} {k : RegKind} {i : Nat} (h : gate s r k i false 0 = .refused) (eff : State → Word × State) :
    regRead s r k i eff = (s.noteRefused r.src (k.offset i)).respond r .decerr (laneBytes 0 0) := by
  unfold regRead
  rw [h]

theorem exec_registerWrite_none {s : State} {ofs : Nat} (hon : s.coreOn = true) (h : regAt ofs = none) (hown : inOwnView ofs = false) (r : Req)
    (w ev : Word) : exec (.registerWrite r ofs w ev) s = .next (s.respondWrite r .decerr) := by
  show execRegisterWrite r ofs w ev s = _
  simp only [execRegisterWrite, h, hon, hown, Bool.not_false, Bool.and_self, onlyIf_true]

theorem exec_registerWrite_decerr {s : State} {ofs i : Nat} {k : RegKind} {r : Req} {w : Word} (h : regAt ofs = some (k, i)) (hown : ownRow k w = false)
    (hg : gate s r k i true w = .decerr) (ev : Word) : exec (.registerWrite r ofs w ev) s = .next (s.respondWrite r .decerr) := by
  show execRegisterWrite r ofs w ev s = _
  simp only [execRegisterWrite, h, hown, Bool.not_false, Bool.true_or, onlyIf_true, regWrite_decerr hg]

theorem exec_registerWrite_refused {s : State} {ofs i : Nat} {k : RegKind} {r : Req} {w : Word} (h : regAt ofs = some (k, i))
    (hg : gate s r k i true w = .refused) (ev : Word) :
    exec (.registerWrite r ofs w ev) s = .next ((writeRefused s r k i).respondWrite r .decerr) := by
  show execRegisterWrite r ofs w ev s = _
  simp only [execRegisterWrite, h, hg, beq_self_eq_true, Bool.or_true, onlyIf_true, regWrite_refused hg]

theorem exec_readClearField_none {s : State} {ofs : Nat} (hon : s.coreOn = true) (h : regAt ofs = none) (hown : inOwnView ofs = false)
    (hlog : inLogView ofs = false) (r : Req) (ev : Word) : exec (.readClearField r ofs 1 ev) s = .next (s.respond r .decerr (laneBytes 0 0)) := by
  show execReadClearField r ofs 1 ev s = _
  simp [execReadClearField, h, hown, windowRead, hon, hlog]

theorem exec_inboundReadRefused {s : State} {r : Req} {k : RegKind} {i : Nat} (h : regAt (k.offset i) = some (k, i))
    (hg : gate s r k i false 0 = .refused) :
    exec (.inboundReadRefused r (k.offset i)) s = .next ((s.noteRefused r.src (k.offset i)).respond r .decerr (laneBytes 0 0)) := by
  show execInboundReadRefused r (k.offset i) s = _
  simp only [execInboundReadRefused, h, hg, beq_self_eq_true, onlyIf_true, regRead_refused hg]

/-- Settles O20: the gate answers DECERR for start-up, the banked state, the channel, the requester and the form, and records what the rights of a class refuse. -/
theorem inboundRefusals : Obligations.InboundRefusals := by
  intro s r hon
  refine ⟨onCore_next hon _, fun h5 h8 => ?_, fun addr len hlen => ⟨?_, ?_⟩, fun ofs w ev hat hown => ⟨exec_registerWrite_none hon hat hown r w ev,
    fun hlog => exec_readClearField_none hon hat hown hlog r ev⟩,
    fun ofs k i w ev hat hown hraw h => exec_registerWrite_decerr hat hown (gate_write_decerr hon hraw h i w) ev,
    fun k i hat hvc hraw hup hb hform hsrc => ⟨fun hacc => ?_, fun w ev hacc => ?_⟩⟩
  · show execInboundReservedVc r s = _
    simp [execInboundReservedVc, hon, h5, h8]
  · show execInboundBoundaryCross r false addr len s = _
    simp [execInboundBoundaryCross, hon, hlen]
  · show execInboundBoundaryCross r true addr len s = _
    simp [execInboundBoundaryCross, hon, hlen]
  · refine ⟨_, exec_inboundReadRefused hat (gate_refused hon hvc hraw hup hb hform hsrc hacc), ?_, fun h1 => ?_, fun h1 => ?_⟩
    · rw [noteRefused_rest]
      rfl
    · rw [h1, noteRefused_dap]
      exact ⟨State.flag_putFlag s Fld.dbgStsRefused rfl (by decide) true 0, otherRegs_putFlag s Fld.dbgStsRefused true 0⟩
    · exact ⟨flag_noteRefused_class h1 s _, lastId_noteRefused h1 (classOf_lt hsrc) s _, count_noteRefused h1 s _, ofs_noteRefused h1 s _,
        fun k' i' hk1 hk2 => reg_noteRefused_class h1 s hk1 hk2 _ i'⟩
  · have hrest : (writeRefused s r k i).respondWrite r .decerr =
        { s with regs := (writeRefused s r k i).regs, resps := (s.respondWrite r .decerr).resps } := by
      rw [writeRefused_rest, State.respondWrite_eq, State.respondWrite_eq]
    refine ⟨_, exec_registerWrite_refused hat (gate_refused hon hvc hraw hup hb hform hsrc hacc) ev, ?_, ?_, fun k' i' h1 h2 h3 => ?_⟩
    · rw [hrest]
    · rw [hrest]
    · rw [State.reg_respondWrite]
      exact reg_writeRefused s r k i h1 h2 h3 i'

end Sys2Proof.Machine
end

section
/-! PROOFS. Outbound requests: credits, responses, timeouts and late responses (R44, R48, R51, R55, R56, R106). -/

namespace Sys2Proof.Machine

theorem exec_creditReturn_req {s : State} (hon : s.coreOn = true) {port vc : Nat} (hp : port < 16) (hv : vc < 5) :
    exec (.creditReturn port vc false) s = .next { s with fab := fabFlush s.now { s.fab with
      credReq := Tab.set 0 (credKey port vc) (Tab.get 0 (credKey port vc) s.fab.credReq + 1) s.fab.credReq } } := by
  show execCreditReturn port vc false s = _
  simp [execCreditReturn, hon, hp, hv]

theorem exec_creditReturn_data {s : State} (hon : s.coreOn = true) {port vc : Nat} (hp : port < 16) (hv : vc < 5) :
    exec (.creditReturn port vc true) s = .next { s with fab := fabFlush s.now { s.fab with
      credDat := Tab.set 0 (credKey port vc) (Tab.get 0 (credKey port vc) s.fab.credDat + 1) s.fab.credDat } } := by
  show execCreditReturn port vc true s = _
  simp [execCreditReturn, hon, hp, hv]

theorem fabFlush_nil {f : Fabric} (h : f.waiting = []) (now : Nat) : fabFlush now f = f := by
  unfold fabFlush
  rw [h]
  show { f with waiting := [] } = f
  rw [← h]

/-- A lone request that waits goes out once its credits and a tag are there. -/
theorem fabFlush_one {f : Fabric} {q : FabReq} {p : Purpose} (h : f.waiting = [(q, p)]) (now : Nat) (hsend : canSend { f with waiting := [] } q = true) :
    fabFlush now f = sendNow now { f with waiting := [] } q p := by
  unfold fabFlush
  rw [h]
  show fabIssue now { f with waiting := [] } q p = _
  unfold fabIssue
  rw [hsend]
  rfl

theorem sendNow_tracked {q : FabReq} (hk : q.kind ≠ .pw) (now : Nat) (f : Fabric) (p : Purpose) :
    (sendNow now f q p).waiting = f.waiting ∧ (sendNow now f q p).sent = f.sent ++ [{ q with tag := freeTag f q.port }] ∧
      (sendNow now f q p).outst = f.outst ++ [⟨{ q with tag := freeTag f q.port }, freeTag f q.port, now, p⟩] ∧
      Tab.get 0 (credKey q.port q.vc) (sendNow now f q p).credReq = Tab.get 0 (credKey q.port q.vc) f.credReq - 1 := by
  simp [sendNow, hk]

theorem releaseHeld_nil {s : State} (h : s.fab.held = []) : releaseHeld s = s := by
  unfold releaseHeld
  rw [h]
  show { s with fab := { s.fab with held := [] } } = s
  rw [← h]

/-- Table 02-10: the response to a descriptor write; an error is logged. -/
theorem answer_descWrite {o : Outst} (h : o.purpose = .descWrite) (code : RCode) (d : List Byte) (s : State) :
    answer o code d s = if code = .ok then { s with md := { s.md with dramOk := true } } else s.logPacked uMAP (Config.eventCode 689) := by
  unfold answer
  rw [h]
  cases code <;> rfl

/-- The log after two entries. -/
theorem log_second (s : State) (u c u' c' : Nat) (obj obj' : List (Nat × Nat)) :
    2 ≤ ((s.logPacked u c obj).logPacked u' c' obj').log.length ∧
      (((s.logPacked u c obj).logPacked u' c' obj').log[1]?.map fun e => (e.unit, e.code, e.obj)) = some (u, c, packBytes obj) := by
  refine ⟨?_, rfl⟩
  simp [State.logPacked, State.logEntry, List.length_take]

section Response
variable {s : State} {port vc tag : Nat} {o : Outst}

/-- A response or a timeout has taken its request off the fabric. -/
def unsent (s : State) (o : Outst) : State := { s with fab := { s.fab with outst := s.fab.outst.erase o } }

/-- Its tag's late response is to be discarded. -/
def lateNoted (s : State) (o : Outst) (x : Nat × Nat × Nat × Nat) : State :=
  { s with fab := { s.fab with outst := s.fab.outst.erase o, late := s.fab.late ++ [x] } }

/-- The handling of the response to a write. -/
theorem exec_outboundResponse (hon : s.coreOn = true) (ho : findOutst s.fab port vc tag = some o) (hkind : o.req.kind = .sw) {code : RCode} {d : List Byte}
    (hlen : code ≠ .ok ∨ d = []) :
    exec (.outboundResponse port vc tag code d) s = .next
      (answer o (codeTaken o code (unsent s o)).1 d (releaseHeld (codeTaken o code (unsent s o)).2)) := by
  show execOutboundResponse port vc tag code d s = _
  have hcond : (code != .ok || d.length == answerLen o.req) = true := by
    rcases hlen with h | h
    · simp [h]
    · simp [h, answerLen, hkind]
  simp only [execOutboundResponse, ho, hon, hcond, Bool.and_self, onlyIf_true]
  rfl

theorem outboundResponse_ok (hon : s.coreOn = true) (ho : findOutst s.fab port vc tag = some o) (hp : o.purpose = .descWrite) (hkind : o.req.kind = .sw)
    (hheld : s.fab.held = []) :
    exec (.outboundResponse port vc tag .ok []) s =
      .next { s with fab := { s.fab with outst := s.fab.outst.erase o }, md := { s.md with dramOk := true } } := by
  have hcode : codeTaken o .ok (unsent s o) = (.ok, unsent s o) := rfl
  rw [exec_outboundResponse hon ho hkind (.inr rfl), hcode, releaseHeld_nil (s := unsent s o) hheld, answer_descWrite hp]
  rfl

theorem outboundResponse_decerr (hon : s.coreOn = true) (ho : findOutst s.fab port vc tag = some o) (hp : o.purpose = .descWrite)
    (hkind : o.req.kind = .sw) (hheld : s.fab.held = []) (d : List Byte) :
    exec (.outboundResponse port vc tag .decerr d) s = .next ((unsent s o).logPacked uMAP (Config.eventCode 689)) := by
  have hcode : codeTaken o .decerr (unsent s o) = (.decerr, unsent s o) := rfl
  rw [exec_outboundResponse hon ho hkind (.inl (by decide)), hcode, releaseHeld_nil (s := unsent s o) hheld, answer_descWrite hp, if_neg RCode.noConfusion]

/-- R44: a reserved code is DECERR, and logged on its own. -/
theorem outboundResponse_reserved (hon : s.coreOn = true) (ho : findOutst s.fab port vc tag = some o) (hp : o.purpose = .descWrite)
    (hkind : o.req.kind = .sw) (hheld : s.fab.held = []) (d : List Byte) :
    exec (.outboundResponse port vc tag .reserved d) s = .next
      (((unsent s o).logPacked uMAP 0x1003 (timeoutObj o.req.port o.req.vc o.tag)).logPacked uMAP (Config.eventCode 689)) := by
  have hunit : unitOf o.purpose = uMAP := by rw [hp]; rfl
  have hcode : codeTaken o .reserved (unsent s o) =
      (.decerr, (unsent s o).logPacked uMAP 0x1003 (timeoutObj o.req.port o.req.vc o.tag)) := by rw [← hunit]; rfl
  rw [exec_outboundResponse hon ho hkind (.inl (by decide)), hcode,
    releaseHeld_nil (s := (unsent s o).logPacked uMAP 0x1003 (timeoutObj o.req.port o.req.vc o.tag)) hheld, answer_descWrite hp, if_neg RCode.noConfusion]

/-- R55: no response in 2 ms counts as DECERR. -/
theorem outboundTimeout_descWrite (hon : s.coreOn = true) (ho : findOutst s.fab port vc tag = some o) (hp : o.purpose = .descWrite)
    (hheld : s.fab.held = []) (hold : o.since + 2000000 ≤ s.now) :
    exec (.outboundTimeout port vc tag) s = .next
      (((lateNoted s o (port, vc, tag, uMAP)).logPacked uMAP 0x1002 (timeoutObj port vc tag)).logPacked uMAP (Config.eventCode 689)) := by
  have hunit : unitOf o.purpose = uMAP := by rw [hp]; rfl
  have hexec : exec (.outboundTimeout port vc tag) s = .next
      (answer o .decerr [] (releaseHeld ((lateNoted s o (port, vc, tag, uMAP)).logPacked uMAP 0x1002 (timeoutObj port vc tag)))) := by
    show execOutboundTimeout port vc tag s = _
    simp only [execOutboundTimeout, ho, hon, hold, decide_true, Bool.and_self, onlyIf_true, hunit]
    exact Eq.refl _
  rw [hexec, releaseHeld_nil (s := (lateNoted s o (port, vc, tag, uMAP)).logPacked uMAP 0x1002 (timeoutObj port vc tag)) hheld,
    answer_descWrite hp, if_neg RCode.noConfusion]

end Response

/-- Settles O21: a request goes out as its credit comes back, and a response or a timeout ends it. -/
theorem outboundRequests : Obligations.OutboundRequests := by
  intro s hon
  refine ⟨fun port vc hp hv => ⟨fun hw => ?_, fun hw => ?_, fun q p hw hqp hqv hk hdat hfree => ?_⟩,
    fun port vc tag o ho hpur hkind hheld => ⟨outboundResponse_ok hon ho hpur hkind hheld, fun d => ?_, fun d => ?_, fun hold => ?_⟩,
    fun port vc tag x hx => ?_⟩
  · rw [exec_creditReturn_req hon hp hv, fabFlush_nil (by exact hw)]
    exact ⟨_, rfl, rfl, Tab.get_set_same 0 (Tab.get 0 (credKey port vc) s.fab.credReq + 1) _ s.fab.credReq,
      fun k hk => Tab.get_set_ne hk 0 0 (Tab.get 0 (credKey port vc) s.fab.credReq + 1) s.fab.credReq⟩
  · rw [exec_creditReturn_data hon hp hv, fabFlush_nil (by exact hw)]
    exact ⟨_, rfl, rfl, Tab.get_set_same 0 (Tab.get 0 (credKey port vc) s.fab.credDat + 1) _ s.fab.credDat⟩
  · subst hqp hqv
    have hsend : canSend { s.fab with
        credReq := Tab.set 0 (credKey q.port q.vc) (Tab.get 0 (credKey q.port q.vc) s.fab.credReq + 1) s.fab.credReq, waiting := [] } q = true := by
      simp only [canSend, Tab.get_set_same, Bool.and_eq_true, decide_eq_true_eq]
      exact ⟨⟨by omega, hdat⟩, hfree⟩
    rw [exec_creditReturn_req hon hp hv, fabFlush_one (by exact hw) s.now hsend]
    obtain ⟨hwait, hsent, houtst, hcred⟩ := sendNow_tracked hk s.now { s.fab with
        credReq := Tab.set 0 (credKey q.port q.vc) (Tab.get 0 (credKey q.port q.vc) s.fab.credReq + 1) s.fab.credReq, waiting := [] } p
    rw [Tab.get_set_same] at hcred
    exact ⟨_, rfl, hwait, hsent, houtst, hcred⟩
  · refine ⟨_, outboundResponse_decerr hon ho hpur hkind hheld d, rfl, ?_, rfl, otherRegs_logEntry (unsent s o) _ _ _ _⟩
    show (List.take 2048 (_ :: s.log)).length = _
    rw [List.length_take, List.length_cons]
  · obtain ⟨hlen, hsecond⟩ := log_second (unsent s o) uMAP 0x1003 uMAP (Config.eventCode 689) (timeoutObj o.req.port o.req.vc o.tag) []
    exact ⟨_, outboundResponse_reserved hon ho hpur hkind hheld d, rfl, hlen, hsecond⟩
  · exact ⟨_, outboundTimeout_descWrite hon ho hpur hheld hold, rfl,
      (log_second (lateNoted s o (port, vc, tag, uMAP)) uMAP 0x1002 uMAP (Config.eventCode 689) (timeoutObj port vc tag) []).2⟩
  · refine ⟨_, ?_, rfl, otherRegs_logEntry { s with fab := { s.fab with late := s.fab.late.erase x } } _ _ (packBytes (timeoutObj port vc tag)) _, rfl⟩
    show execLateResponse port vc tag s = _
    simp only [execLateResponse, hx, hon, onlyIf_true]
    rfl

end Sys2Proof.Machine
end

section
/-! PROOFS. Register writes and reads by the access codes of the fields, and the latched halves (R4, R6 to R8, R416, R681, R683). -/

namespace Sys2Proof.Machine

/-! ## Fields of a word -/

theorem Fld.get_or (f : Fld) (a b : Word) : f.get (a ||| b) = f.get a ||| f.get b := by
  apply Nat.eq_of_testBit_eq
  intro j
  rw [Nat.testBit_or, Fld.testBit_get, Fld.testBit_get, Fld.testBit_get, BitVec.getLsbD_or, Bool.and_or_distrib_left]

theorem getLsbD_zeroWord (i : Nat) : BitVec.getLsbD (0 : Word) i = false := BitVec.getLsbD_zero

theorem Fld.get_zero (f : Fld) : f.get 0 = 0 := by
  apply Nat.eq_of_testBit_eq
  intro j
  rw [Fld.testBit_get, getLsbD_zeroWord, Bool.and_false, Nat.zero_testBit]

/-- The masks of the access codes tell the fields of a register apart; a field that a 1 clears or sets has one bit. -/
def fieldsApart (k : RegKind) : Bool :=
  k.fields.all fun f => f.kind == k && decide (f.hi < 32) &&
    [Access.rw, .w1c, .w1s, .rc].all (fun a => k.maskOf a &&& f.mask == if f.acc = a then f.mask else 0) && (f.acc != .w1c && f.acc != .w1s || f.hi == f.lo)

/-- What `fieldsApart` says of one field. -/
structure Fld.Apart (f : Fld) (k : RegKind) : Prop where
  kind : f.kind = k
  hi : f.hi < 32
  mask : ∀ a ∈ [Access.rw, .w1c, .w1s, .rc], k.maskOf a &&& f.mask = if f.acc = a then f.mask else 0
  bit : f.acc = .w1c ∨ f.acc = .w1s → f.hi = f.lo

theorem apart_of_fieldsApart {k : RegKind} (h : fieldsApart k = true) {f : Fld} (hf : f ∈ k.fields) : f.Apart k := by
  have hall := List.all_eq_true.mp h f hf
  simp only [Bool.and_eq_true, beq_iff_eq, decide_eq_true_eq, List.all_eq_true, Bool.or_eq_true, bne_iff_ne] at hall
  obtain ⟨⟨⟨hkind, hhi⟩, hmask⟩, hbit⟩ := hall
  refine ⟨hkind, hhi, hmask, fun hacc => ?_⟩
  rcases hbit with ⟨h1, h2⟩ | hbit
  · exact absurd hacc (not_or.mpr ⟨h1, h2⟩)
  · exact hbit

/-- A field sees of a masked word what the mask holds of it. -/
theorem Fld.Apart.get_and {f : Fld} {k : RegKind} (h : f.Apart k) {a : Access} (ha : a ∈ [Access.rw, .w1c, .w1s, .rc]) (w : Word) :
    f.get (w &&& k.maskOf a) = if f.acc = a then f.get w else 0 := by
  have hm := h.mask a ha
  split
  next he =>
    rw [if_pos he] at hm
    refine f.get_congr (fun i _ hi => ?_) h.hi
    rw [BitVec.getLsbD_and, getLsbD_of_and_mask hm hi, hi, Bool.and_true]
  next he =>
    rw [if_neg he] at hm
    rw [← f.get_zero]
    refine f.get_congr (fun i _ hi => ?_) h.hi
    rw [BitVec.getLsbD_and, getLsbD_of_and_mask hm hi, getLsbD_zeroWord, Bool.and_false]

/-- A field of a masked-out word. -/
theorem Fld.Apart.get_and_not {f : Fld} {k : RegKind} (h : f.Apart k) {a : Access} (ha : a ∈ [Access.rw, .w1c, .w1s, .rc]) (w : Word) :
    f.get (w &&& ~~~k.maskOf a) = if f.acc = a then 0 else f.get w := by
  have hm := h.mask a ha
  split
  next he =>
    rw [if_pos he] at hm
    rw [← f.get_zero]
    refine f.get_congr (fun i hi32 hi => ?_) h.hi
    rw [BitVec.getLsbD_and, BitVec.getLsbD_not, getLsbD_of_and_mask hm hi, hi, getLsbD_zeroWord, Bool.not_true, Bool.and_false, Bool.and_false]
  next he =>
    rw [if_neg he] at hm
    refine f.get_congr (fun i hi32 hi => ?_) h.hi
    rw [BitVec.getLsbD_and, BitVec.getLsbD_not, getLsbD_of_and_mask hm hi, getLsbD_zeroWord]
    simp [hi32]

/-- A bit that a 1 clears. -/
theorem Fld.get_and_not_bit (f : Fld) (hf : f.hi < 32) (h : f.hi = f.lo) (a w : Word) : f.get (a &&& ~~~w) = if f.get w = 1 then 0 else f.get a := by
  have hlo : f.lo < 32 := by omega
  rw [f.get_eq_bit h, f.get_eq_bit h, f.get_eq_bit h, BitVec.getLsbD_and, BitVec.getLsbD_not]
  cases w.getLsbD f.lo <;> simp [hlo]

/-- A bit that a 1 sets. -/
theorem Fld.get_or_bit (f : Fld) (h : f.hi = f.lo) (a w : Word) : f.get (a ||| w) = if f.get w = 1 then 1 else f.get a := by
  rw [f.get_eq_bit h, f.get_eq_bit h, f.get_eq_bit h, BitVec.getLsbD_or]
  cases w.getLsbD f.lo <;> simp

/-- R4: a field after a software write, by its access code. -/
theorem Fld.Apart.get_writeWord {f : Fld} {k : RegKind} (h : f.Apart k) (old w : Word) :
    f.get (writeWord k old w) = (match f.acc with
      | .rw => f.get w
      | .w1c => if f.get w = 1 then 0 else f.get old
      | .w1s => if f.get w = 1 then 1 else f.get old
      | _ => f.get old) := by
  have hplain : f.get ((old &&& ~~~k.maskOf .rw) ||| (w &&& k.maskOf .rw)) = if f.acc = .rw then f.get w else f.get old := by
    rw [f.get_or, h.get_and_not (by decide), h.get_and (by decide)]
    split <;> simp
  have hclear (x : Word) : f.get (x &&& ~~~(w &&& k.maskOf .w1c)) = if f.acc = .w1c then (if f.get w = 1 then 0 else f.get x) else f.get x := by
    split
    next he => rw [f.get_and_not_bit h.hi (h.bit (.inl he)), h.get_and (by decide), if_pos he]
    next he =>
      have hm := h.mask .w1c (by decide)
      rw [if_neg he] at hm
      refine f.get_congr (fun i hi32 hi => ?_) h.hi
      rw [BitVec.getLsbD_and, BitVec.getLsbD_not, BitVec.getLsbD_and, getLsbD_of_and_mask hm hi, getLsbD_zeroWord]
      simp [hi32]
  have hset (x : Word) : f.get (x ||| (w &&& k.maskOf .w1s)) = if f.acc = .w1s then (if f.get w = 1 then 1 else f.get x) else f.get x := by
    split
    next he => rw [f.get_or_bit (h.bit (.inr he)), h.get_and (by decide), if_pos he]
    next he => rw [f.get_or, h.get_and (by decide), if_neg he, Nat.or_zero]
  unfold writeWord
  rw [hset, hclear, hplain]
  cases f.acc <;> rfl

/-! ## Events of the same cycle -/

theorem sameCycle_rest (acc : Access) (k : RegKind) (i : Nat) (ev : Word) (s : State) :
    sameCycle acc k i ev s = { s with regs := (sameCycle acc k i ev s).regs } := rfl

theorem otherRegs_sameCycle (acc : Access) (k : RegKind) (i : Nat) (ev : Word) (s : State) : OtherRegs s (sameCycle acc k i ev s) k i :=
  otherRegs_setReg s k i _

/-- R6, R7: what events of the same cycle set stands. -/
theorem Fld.Apart.get_sameCycle {f : Fld} {k : RegKind} (h : f.Apart k) {a : Access} (ha : a ∈ [Access.rw, .w1c, .w1s, .rc]) (i : Nat) (ev : Word) (s : State) :
    (sameCycle a k i ev s).get f i = s.get f i ||| (if f.acc = a then f.get ev else 0) := by
  rw [State.get, h.kind, sameCycle, State.reg_setReg_same, f.get_or, h.get_and ha, State.get, h.kind]

/-! ## A write of a register that has no rule of its own -/

/-- The registers that the statement names have plain writes, which no row of their own takes. -/
theorem plain_kinds {k : RegKind} (hk : k ∈ [RegKind.cryCtl, .cryLadder, .calCtl, .drgLoopSp, .hrvMod, .secAccSts, .stkRawSts, .mapRaCfg])
    (r : Req) (i : Nat) (w : Word) (s : State) : writeEffect r k i w s = s.plainWrite k i w ∧ ownRow k w = false ∧ fieldsApart k = true := by
  simp only [List.mem_cons, List.not_mem_nil, or_false] at hk
  obtain rfl | rfl | rfl | rfl | rfl | rfl | rfl | rfl := hk <;> exact ⟨rfl, rfl, by decide⟩

/-- A plain write with the events of its cycle. -/
def plainWithEvents (k : RegKind) (i : Nat) (w ev : Word) (s : State) : State := sameCycle .w1s k i ev (sameCycle .w1c k i ev (s.plainWrite k i w))

theorem plainWithEvents_rest (k : RegKind) (i : Nat) (w ev : Word) (s : State) :
    plainWithEvents k i w ev s = { s with regs := (plainWithEvents k i w ev s).regs } := rfl

theorem otherRegs_plainWithEvents (k : RegKind) (i : Nat) (w ev : Word) (s : State) : OtherRegs s (plainWithEvents k i w ev s) k i :=
  ((otherRegs_plainWrite s k i w).trans (otherRegs_sameCycle .w1c k i ev _)).trans (otherRegs_sameCycle .w1s k i ev _)

theorem Fld.Apart.get_plainWithEvents {f : Fld} {k : RegKind} (h : f.Apart k) (i : Nat) (w ev : Word) (s : State) :
    (plainWithEvents k i w ev s).get f i = (match f.acc with
      | .rw => f.get w
      | .w1c => (if f.get w = 1 then 0 else s.get f i) ||| f.get ev
      | .w1s => (if f.get w = 1 then 1 else s.get f i) ||| f.get ev
      | _ => s.get f i) := by
  have hplain : (s.plainWrite k i w).get f i = f.get (writeWord k (s.reg k i) w) := by rw [State.get, h.kind, State.plainWrite, State.reg_setReg_same]
  have hget : s.get f i = f.get (s.reg k i) := by rw [State.get, h.kind]
  rw [plainWithEvents, h.get_sameCycle (by decide), h.get_sameCycle (by decide), hplain, h.get_writeWord, hget]
  cases f.acc <;> simp

/-- The whole state after a write that has changed registers alone. -/
theorem respondWrite_regsOnly {s t : State} (h : t = { s with regs := t.regs }) (r : Req) :
    t.respondWrite r .ok = { s with regs := (t.respondWrite r .ok).regs, resps := okSent s r } := by
  rw [State.respondWrite_eq]
  generalize t.regs = g at h
  subst h
  rfl

theorem registerWrite_plain {s : State} {r : Req} {k : RegKind} {i : Nat} {w : Word} (hat : regAt (k.offset i) = some (k, i)) (hw : Written s r k i w)
    (hs : Steady s) (hrow : ownRow k w = false) (heff : writeEffect r k i w s = s.plainWrite k i w) (ev : Word) :
    exec (.registerWrite r (k.offset i) w ev) s = .next ((plainWithEvents k i w ev s).respondWrite r .ok) := by
  show execRegisterWrite r (k.offset i) w ev s = _
  simp only [execRegisterWrite, hat, hrow, Bool.not_false, Bool.true_or, onlyIf_true, regWrite_pass hw hs, heff]
  rfl

/-! ## Reads -/

theorem coreOn_of_readOk {s : State} {r : Req} {k : RegKind} {i : Nat} (h : ReadOk s r k i) : s.coreOn = true := by
  by_contra hoff
  simp only [ReadOk, gate, Bool.not_eq_true _ ▸ hoff, Bool.not_false, if_true] at h
  split at h <;> cases h

/-- A read of a register outside the views, with the events of its cycle. -/
theorem exec_readClearField {s : State} {r : Req} {k : RegKind} {i : Nat} (hat : regAt (k.offset i) = some (k, i)) (hr : ReadOk s r k i)
    (hown : inOwnView (k.offset i) = false) (hlog : inLogView (k.offset i) = false) (ev : Word) :
    exec (.readClearField r (k.offset i) 1 ev) s =
      .next (sameCycle .rc k i ev ((readEffect r.src k i s).2.respond r .ok (laneBytes (k.offset i) (readEffect r.src k i s).1))) := by
  have hgate : gate s r k i false 0 = .pass := hr
  show execReadClearField r (k.offset i) 1 ev s = _
  simp only [execReadClearField, hown, Bool.not_false, onlyIf_true, windowRead, coreOn_of_readOk hr, Bool.not_true, Bool.false_eq_true, if_false, hlog, hat,
    hgate, beq_self_eq_true, if_true, regRead_pass hr]

/-- The registers that the statement names read as they stand, and lie outside the views. -/
theorem read_kinds {k : RegKind} (hk : k ∈ [RegKind.cryCtl, .secAccSts, .drgSnsErr, .mapC0Cnt, .pwrErrCnt, .stkAopCnt]) (src i : Nat) (s : State) :
    readEffect src k i s = (s.reg k i &&& k.readMask, s.setReg k i (clearRc k (s.reg k i))) ∧ inOwnView (k.offset i) = false ∧
      inLogView (k.offset i) = false ∧ fieldsApart k = true := by
  have hchan : inOwnView (RegKind.stkAopCnt.offset i) = false ∧ inLogView (RegKind.stkAopCnt.offset i) = false := by
    simp only [inOwnView, inLogView, RegKind.offset, RegKind.layout, layoutOffset, decide_eq_false_iff_not, List.map_nil, List.foldl_nil, Nat.div_one]
    omega
  simp only [List.mem_cons, List.not_mem_nil, or_false] at hk
  obtain rfl | rfl | rfl | rfl | rfl | rfl := hk
  · exact ⟨rfl, rfl, rfl, by decide⟩
  · exact ⟨rfl, rfl, rfl, by decide⟩
  · exact ⟨rfl, rfl, rfl, by decide⟩
  · exact ⟨rfl, rfl, rfl, by decide⟩
  · exact ⟨rfl, rfl, rfl, by decide⟩
  · exact ⟨rfl, hchan.1, hchan.2, by decide⟩

/-! ## The latched halves -/

/-- The pairs of R683: what a read of the low half latches, and that a read of the high half answers it. -/
structure HalfPair (lo : RegKind) (p : Nat) (hi : RegKind) : Prop where
  loAt : regAt (lo.offset 0) = some (lo, 0)
  hiAt : regAt (hi.offset 0) = some (hi, 0)
  own : inOwnView (hi.offset 0) = false
  log : inLogView (hi.offset 0) = false
  pair : loPair lo = some (p, hi)
  latch : ∀ src s, readEffect src lo 0 s =
    (liveWord s lo 0 &&& lo.readMask, { s with hiLatch := Tab.put (src * 4 + p) (liveWord s hi 0) s.hiLatch })
  answer : ∀ src (s : State) h, Tab.find (src * 4 + p) s.hiLatch = some h →
    readEffect src hi 0 s = (h, { s with hiLatch := Tab.del (src * 4 + p) s.hiLatch })
  noRc : hi.maskOf .rc = 0

theorem halfPair {lo hi : RegKind} {p : Nat} (h : loPair lo = some (p, hi)) : HalfPair lo p hi := by
  have hfound (t : State) (lo hi : RegKind) (p : Nat) (hlo : loPair hi = none) (hhi : hiPair hi = some p) (src : Nat) (w : Word)
      (hf : Tab.find (src * 4 + p) t.hiLatch = some w) : readEffect src hi 0 t = (w, { t with hiLatch := Tab.del (src * 4 + p) t.hiLatch }) := by
    simp only [readEffect, hlo, hhi, hf]
  unfold loPair at h
  split at h <;> cases h
  · exact ⟨by decide, by decide, by decide, by decide, rfl, fun _ _ => rfl, fun src s w => hfound s .glbTimeLo .glbTimeHi 0 rfl rfl src w, by decide⟩
  · exact ⟨by decide, by decide, by decide, by decide, rfl, fun _ _ => rfl, fun src s w => hfound s .glbBankTimeLo .glbBankTimeHi 1 rfl rfl src w, by decide⟩
  · exact ⟨by decide, by decide, by decide, by decide, rfl, fun _ _ => rfl, fun src s w => hfound s .pwrEmbLo .pwrEmbHi 2 rfl rfl src w, by decide⟩
  · exact ⟨by decide, by decide, by decide, by decide, rfl, fun _ _ => rfl, fun src s w => hfound s .calLastLo .calLastHi 3 rfl rfl src w, by decide⟩

/-- A register without RC fields is left as it is by the events of a read's cycle. -/
theorem reg_sameCycle_noRc {k : RegKind} (h : k.maskOf .rc = 0) (i : Nat) (ev : Word) (s : State) (k' : RegKind) (i' : Nat) :
    (sameCycle .rc k i ev s).reg k' i' = s.reg k' i' := by
  by_cases he : (k', i') = (k, i)
  · obtain ⟨rfl, rfl⟩ := Prod.mk.inj he
    rw [sameCycle, State.reg_setReg_same, h]
    simp
  · exact otherRegs_sameCycle .rc k i ev s k' i' he

theorem resps_sameCycle (acc : Access) (k : RegKind) (i : Nat) (ev : Word) (s : State) : (sameCycle acc k i ev s).resps = s.resps := rfl

/-- R683: the next read of the high half answers what the low half's read latched. -/
theorem readHigh {lo hi : RegKind} {p : Nat} (hp : HalfPair lo p hi) {u : State} {r : Req} {w : Word} (hu : Tab.find (r.src * 4 + p) u.hiLatch = some w)
    (hr : ReadOk u r hi 0) (ev : Word) :
    ∃ v, exec (.readClearField r (hi.offset 0) 1 ev) u = .next v ∧ (∀ k i, v.reg k i = u.reg k i) ∧
      v.resps = u.resps ++ [⟨r.port, r.vc, r.tag, .ok, laneBytes (hi.offset 0) w⟩] := by
  refine ⟨_, exec_readClearField hp.hiAt hr hp.own hp.log ev, fun k i => ?_, ?_⟩
  · rw [reg_sameCycle_noRc hp.noRc, hp.answer r.src u w hu]
    rfl
  · rw [resps_sameCycle, hp.answer r.src u w hu]
    rfl

theorem exec_loHalfReadLatch {s : State} {r : Req} {lo hi : RegKind} {p : Nat} (hp : HalfPair lo p hi) (hr : ReadOk s r lo 0) :
    exec (.loHalfReadLatch r (lo.offset 0)) s =
      .next (State.respond { s with hiLatch := Tab.put (r.src * 4 + p) (liveWord s hi 0) s.hiLatch } r .ok
        (laneBytes (lo.offset 0) (liveWord s lo 0 &&& lo.readMask))) := by
  show execLoHalfReadLatch r (lo.offset 0) s = _
  simp only [execLoHalfReadLatch, hp.loAt, hp.pair, Option.isSome_some, onlyIf_true, regRead_pass hr, hp.latch]

/-- Settles O22: plain writes and reads field by field, and the latched halves. -/
theorem registerAccesses : Obligations.RegisterAccesses := by
  intro s r
  refine ⟨fun k i w ev hk hat hw hs => ?_, fun k i ev hk hat hr => ?_, fun lo p hi hlo hr => ?_, fun hr => ?_⟩
  · obtain ⟨heff, hrow, hapart⟩ := plain_kinds hk r i w s
    refine ⟨_, registerWrite_plain hat hw hs hrow heff ev, ?_, (otherRegs_plainWithEvents k i w ev s).respondWrite r .ok, fun f hf => ?_⟩
    · exact respondWrite_regsOnly (plainWithEvents_rest k i w ev s) r
    · rw [State.get_respondWrite]
      exact (apart_of_fieldsApart hapart hf).get_plainWithEvents i w ev s
  · obtain ⟨heff, hown, hlog, hapart⟩ := read_kinds hk r.src i s
    have hexec := exec_readClearField hat hr hown hlog ev
    rw [heff] at hexec
    refine ⟨_, hexec, rfl, (otherRegs_setReg s k i _).trans (otherRegs_sameCycle .rc k i ev _), fun f hf => ?_⟩
    have hf := apart_of_fieldsApart hapart hf
    have hcleared : (s.setReg k i (clearRc k (s.reg k i))).get f i = if f.acc = .rc then 0 else s.get f i := by
      rw [State.get, State.get, hf.kind, State.reg_setReg_same, clearRc, hf.get_and_not (by decide)]
    rw [hf.get_sameCycle (by decide)]
    show (s.setReg k i (clearRc k (s.reg k i))).get f i ||| _ = _
    rw [hcleared]
    split <;> simp
  · have hp := halfPair hlo
    refine ⟨_, exec_loHalfReadLatch hp hr, rfl, rfl, fun u r' hu hsrc hr' ev => readHigh hp ?_ hr' ev⟩
    rw [hu, hsrc]
    exact Tab.find_put_same ..
  · exact ⟨_, congrArg Host.Outcome.next (regRead_pass hr _), rfl, rfl, rfl⟩

end Sys2Proof.Machine
end

section
/-! PROOFS. The key commands (R619, R620, Table 17-6). -/

namespace Sys2Proof.Machine

/-! ## Copies of a register set one after another -/

/-- Every copy in a list set, and every other register as it was. -/
theorem State.reg_foldl_setReg (k : RegKind) (f : Nat → Word) (l : List Nat) : ∀ (s : State) (k' : RegKind) (i' : Nat),
    (l.foldl (fun s i => s.setReg k i (f i)) s).reg k' i' = if k' = k ∧ i' ∈ l then f i' else s.reg k' i' := by
  induction l with
  | nil => simp
  | cons a l ih =>
    intro s k' i'
    rw [List.foldl_cons, ih]
    by_cases hk : k' = k
    · subst hk
      by_cases hl : i' ∈ l
      · simp [hl]
      · by_cases ha : i' = a
        · simp [ha]
        · simp [hl, ha, s.reg_setReg_index ha]
    · simp [hk, s.reg_setReg_kind hk]

/-- The same over the register table. -/
theorem foldl_setReg_regs (k : RegKind) (f : Nat → Word) (l : List Nat) : ∀ s : State,
    l.foldl (fun s i => s.setReg k i (f i)) s = { s with regs := l.foldl (fun r i => Tab.set (regReset k i) (regKey k i) (f i) r) s.regs } := by
  induction l with
  | nil => exact fun _ => rfl
  | cons a l ih => exact fun s => ih (s.setReg k a (f a))

/-- The words that the bytes of the input buffer make. -/
def kbufWord (bs : List Byte) (j : Nat) : Word := ofBytes 32 ((bs.drop (4 * j)).take 4)

theorem State.setKbuf_eq (s : State) (bs : List Byte) : s.setKbuf bs = (List.range 32).foldl (fun s i => s.setReg .secKbuf i (kbufWord bs i)) s :=
  (foldl_setReg_regs .secKbuf (kbufWord bs) (List.range 32) s).symm

theorem State.reg_setKbuf_same (s : State) (bs : List Byte) {j : Nat} (h : j < 32) : (s.setKbuf bs).reg .secKbuf j = kbufWord bs j := by
  rw [s.setKbuf_eq, State.reg_foldl_setReg, if_pos ⟨rfl, List.mem_range.mpr h⟩]

theorem State.reg_setKbuf_kind (s : State) (bs : List Byte) {k : RegKind} (h : k ≠ .secKbuf) (i : Nat) : (s.setKbuf bs).reg k i = s.reg k i := by
  rw [s.setKbuf_eq, State.reg_foldl_setReg, if_neg (fun hk => h hk.1)]

theorem State.setKbuf_rest (s : State) (bs : List Byte) : s.setKbuf bs = { s with regs := (s.setKbuf bs).regs } := rfl

@[simp] theorem State.respondWrite_sec (s : State) (r : Req) (c : RCode) : (s.respondWrite r c).sec = s.sec := by rw [s.respondWrite_eq]

/-! ## What a command looks at before it runs -/

/-- The key command's own registers do not matter to whether a namespace is busy. -/
theorem nsBusy_setReg {k : RegKind} (h1 : k ≠ .secNsBaseLo) (h2 : k ≠ .secNsBaseHi) (h3 : k ≠ .secNsSizeLo) (h4 : k ≠ .secNsSizeHi) (s : State) (i : Nat)
    (w : Word) (n : Nat) : nsBusy (s.setReg k i w) n = nsBusy s n := by
  have hlow : nsLow (s.setReg k i w) n = nsLow s n := by
    rw [nsLow, nsLow, s.get_setReg_kind (f := Fld.secNsBaseHiBase) (Ne.symm h2), s.get_setReg_kind (f := Fld.secNsBaseLoBase) (Ne.symm h1)]
  have hlen : nsLen (s.setReg k i w) n = nsLen s n := by
    rw [nsLen, nsLen, s.get_setReg_kind (f := Fld.secNsSizeHiSize) (Ne.symm h4), s.get_setReg_kind (f := Fld.secNsSizeLoSize) (Ne.symm h3)]
  have hin (lta : Nat) : inNs (s.setReg k i w) n lta = inNs s n lta := by simp only [inNs, hlow, hlen]
  simp only [nsBusy, hin]
  rfl

theorem slotNamed_plainWrite (s : State) (w : Word) (slot : Nat) : slotNamed (s.plainWrite .secKcmd 0 w) slot = slotNamed s slot := by
  have hbusy (n : Nat) : nsBusy (s.plainWrite .secKcmd 0 w) n = nsBusy s n := nsBusy_setReg (by decide) (by decide) (by decide) (by decide) s 0 _ n
  have hidx (n : Nat) : (s.plainWrite .secKcmd 0 w).get Fld.secNsCtlKeyidx n = s.get Fld.secNsCtlKeyidx n := s.get_setReg_kind (by decide) 0 n _
  have hvalid (n : Nat) : (s.plainWrite .secKcmd 0 w).flag Fld.secNsCtlValid n = s.flag Fld.secNsCtlValid n := s.flag_setReg_kind (by decide) 0 n _
  simp only [slotNamed, hbusy, hidx, hvalid]

theorem keyRefusal_plainWrite (s : State) (w : Word) (op slot : Nat) : keyRefusal (s.plainWrite .secKcmd 0 w) op slot = keyRefusal s op slot := by
  have hlc : lifecycle (s.plainWrite .secKcmd 0 w) = lifecycle s := s.get_setReg_kind (by decide) 0 0 _
  have hlevel : debugLevel (s.plainWrite .secKcmd 0 w) = debugLevel s := s.get_setReg_kind (by decide) 0 0 _
  have hsec : (s.plainWrite .secKcmd 0 w).sec = s.sec := rfl
  have hperm : keyPermitted (s.plainWrite .secKcmd 0 w) op = keyPermitted s op := by
    simp only [keyPermitted, hlc, hlevel, hsec]
  simp only [keyRefusal, hperm, hsec, slotNamed_plainWrite]

theorem keyRefusal_lt (s : State) (op slot : Nat) : keyRefusal s op slot < 16 := by
  unfold keyRefusal
  split_ifs <;> decide

theorem kbufBytes_plainWrite (s : State) (w : Word) (n : Nat) : kbufBytes (s.plainWrite .secKcmd 0 w) n = kbufBytes s n := by
  have hreg (i : Nat) : (s.plainWrite .secKcmd 0 w).reg .secKbuf i = s.reg .secKbuf i := s.reg_setReg_kind (by decide) 0 i _
  simp only [kbufBytes, hreg]

/-! ## What a permitted command does -/

section
variable (slot : Nat) (rnd : BitVec 512) (stuck : BitVec 384) (s : State)

/-- A command changes the key slots, the hearthstone row and the input buffer. -/
theorem keyRun_rest (op : Nat) : (keyRun op slot rnd stuck s).2 = { s with regs := (keyRun op slot rnd stuck s).2.regs, sec := (keyRun op slot rnd stuck s).2.sec } := by
  unfold keyRun
  split
  · split
    · rfl
    · split <;> rfl
  · rfl
  · rfl
  · split <;> rfl
  · rfl
  · dsimp only
    split <;> rfl
  · dsimp only
    split <;> rfl

theorem keyRun_reg (op : Nat) {k : RegKind} (h : k ≠ .secKbuf) (i : Nat) : (keyRun op slot rnd stuck s).2.reg k i = s.reg k i := by
  unfold keyRun
  split
  · split
    · rfl
    · split <;> rfl
  · exact State.reg_setKbuf_kind _ _ h i
  · rfl
  · split
    · rfl
    · exact State.reg_setKbuf_kind _ _ h i
  · exact State.reg_setKbuf_kind _ _ h i
  · dsimp only
    split <;> rfl
  · dsimp only
    split <;> rfl

theorem keyRun_lt (op : Nat) : (keyRun op slot rnd stuck s).1 < 16 := by
  have hok : krOk < 16 := by decide
  have heq : krKeyEq < 16 := by decide
  have hotp : krOtpFail < 16 := by decide
  unfold keyRun
  split
  · split
    · exact (by decide : krUnwrapFail < 16)
    · split
      · exact heq
      · exact hok
  · exact hok
  · exact hok
  · split
    · exact heq
    · exact hok
  · exact hok
  · dsimp only
    split
    · exact hok
    · exact hotp
  · dsimp only
    split
    · exact hok
    · exact hotp

end

/-! ## A key command -/

/-- The result of a command, and the state that it leaves before its input buffer is cleared. -/
def keyDone (op slot : Nat) (rnd : BitVec 512) (stuck : BitVec 384) (s : State) : Nat × State :=
  if keyRefusal s op slot = krOk then keyRun op slot rnd stuck s else (keyRefusal s op slot, s)

theorem keyDone_rest (op slot : Nat) (rnd : BitVec 512) (stuck : BitVec 384) (s : State) :
    (keyDone op slot rnd stuck s).2 = { s with regs := (keyDone op slot rnd stuck s).2.regs, sec := (keyDone op slot rnd stuck s).2.sec } := by
  unfold keyDone
  split
  · exact keyRun_rest slot rnd stuck s op
  · rfl

theorem keyDone_reg (op slot : Nat) (rnd : BitVec 512) (stuck : BitVec 384) (s : State) {k : RegKind} (h : k ≠ .secKbuf) (i : Nat) :
    (keyDone op slot rnd stuck s).2.reg k i = s.reg k i := by
  unfold keyDone
  split
  · exact keyRun_reg slot rnd stuck s op h i
  · rfl

theorem keyDone_lt (op slot : Nat) (rnd : BitVec 512) (stuck : BitVec 384) (s : State) : (keyDone op slot rnd stuck s).1 < 16 := by
  unfold keyDone
  split
  · exact keyRun_lt slot rnd stuck s op
  · exact keyRefusal_lt s op slot

/-- The state after the input buffer is cleared, or holds the blob. -/
def keyCleared (op : Nat) (s : State) : State := if op = 2 ∨ op = 4 ∨ op = 5 then s else s.setKbuf []

theorem keyCleared_rest (op : Nat) (s : State) : keyCleared op s = { s with regs := (keyCleared op s).regs } := by
  unfold keyCleared
  split
  · rfl
  · exact s.setKbuf_rest []

theorem keyCleared_reg (op : Nat) (s : State) {k : RegKind} (h : k ≠ .secKbuf) (i : Nat) : (keyCleared op s).reg k i = s.reg k i := by
  unfold keyCleared
  split
  · rfl
  · exact State.reg_setKbuf_kind _ _ h i

theorem keyCommand_eq {w : Word} (hgo : Fld.secKcmdGo.get w = 1) (rnd : BitVec 512) (stuck : BitVec 384) (s : State) :
    keyCommand w rnd stuck s =
      (keyCleared (Fld.secKcmdOp.get w) (keyDone (Fld.secKcmdOp.get w) (Fld.secKcmdSlot.get w) rnd stuck (s.plainWrite .secKcmd 0 w)).2).put Fld.secKstsResult
        (keyDone (Fld.secKcmdOp.get w) (Fld.secKcmdSlot.get w) rnd stuck (s.plainWrite .secKcmd 0 w)).1 := by
  unfold keyCommand
  rw [hgo]
  rfl

section
variable (w : Word) (rnd : BitVec 512) (stuck : BitVec 384) (s : State) (hgo : Fld.secKcmdGo.get w = 1)
include hgo

theorem keyCommand_rest : keyCommand w rnd stuck s = { s with regs := (keyCommand w rnd stuck s).regs, sec := (keyCommand w rnd stuck s).sec } := by
  rw [keyCommand_eq hgo]
  generalize (keyDone (Fld.secKcmdOp.get w) (Fld.secKcmdSlot.get w) rnd stuck (s.plainWrite .secKcmd 0 w)).1 = n
  have hdone := keyDone_rest (Fld.secKcmdOp.get w) (Fld.secKcmdSlot.get w) rnd stuck (s.plainWrite .secKcmd 0 w)
  generalize (keyDone (Fld.secKcmdOp.get w) (Fld.secKcmdSlot.get w) rnd stuck (s.plainWrite .secKcmd 0 w)).2 = x at hdone
  have hclear := keyCleared_rest (Fld.secKcmdOp.get w) x
  generalize keyCleared (Fld.secKcmdOp.get w) x = y at hclear
  rw [hclear, hdone]
  rfl

theorem keyCommand_reg {k : RegKind} (h1 : k ≠ .secKcmd) (h2 : k ≠ .secKsts) (h3 : k ≠ .secKbuf) (j : Nat) : (keyCommand w rnd stuck s).reg k j = s.reg k j := by
  rw [keyCommand_eq hgo, State.reg_put_kind _ h2, keyCleared_reg _ _ h3, keyDone_reg _ _ _ _ _ h3]
  exact s.reg_setReg_kind h1 _ _ _

theorem keyCommand_sec : (keyCommand w rnd stuck s).sec =
    (keyDone (Fld.secKcmdOp.get w) (Fld.secKcmdSlot.get w) rnd stuck (s.plainWrite .secKcmd 0 w)).2.sec := by
  rw [keyCommand_eq hgo]
  show (keyCleared _ _).sec = _
  rw [keyCleared_rest]

theorem keyCommand_result : (keyCommand w rnd stuck s).get Fld.secKstsResult =
    (keyDone (Fld.secKcmdOp.get w) (Fld.secKcmdSlot.get w) rnd stuck (s.plainWrite .secKcmd 0 w)).1 := by
  rw [keyCommand_eq hgo, State.get_put_same _ _ (by decide)]
  exact Nat.mod_eq_of_lt (keyDone_lt _ _ _ _ _)

theorem keyCommand_kbuf (j : Nat) : (keyCommand w rnd stuck s).reg .secKbuf j = (keyCleared (Fld.secKcmdOp.get w)
    (keyDone (Fld.secKcmdOp.get w) (Fld.secKcmdSlot.get w) rnd stuck (s.plainWrite .secKcmd 0 w)).2).reg .secKbuf j := by
  rw [keyCommand_eq hgo, State.reg_put_kind _ (by decide)]

end

theorem keyDone_refused {s : State} {op slot : Nat} (h : keyRefusal s op slot ≠ krOk) (rnd : BitVec 512) (stuck : BitVec 384) (w : Word) :
    keyDone op slot rnd stuck (s.plainWrite .secKcmd 0 w) = (keyRefusal s op slot, s.plainWrite .secKcmd 0 w) := by
  rw [keyDone, keyRefusal_plainWrite, if_neg h]

theorem keyDone_run {s : State} {op slot : Nat} (h : keyRefusal s op slot = krOk) (rnd : BitVec 512) (stuck : BitVec 384) (w : Word) :
    keyDone op slot rnd stuck (s.plainWrite .secKcmd 0 w) = keyRun op slot rnd stuck (s.plainWrite .secKcmd 0 w) := by
  rw [keyDone, keyRefusal_plainWrite, if_pos h]

/-! ## The seven commands -/

/-- Each of the seven rows runs the command that its write names; what a row does not carry its command does not look at. -/
theorem exec_keyRow {s : State} {r : Req} {w : Word} {rnd : BitVec 512} {stuck : BitVec 384} {i : Instr} (hw : Written s r .secKcmd 0 w) (hs : Steady s)
    (hgo : Fld.secKcmdGo.get w = 1) (hrnd : halvesEqual rnd = false)
    (hi : [Instr.unwrapNs r w, .genNs r w rnd, .kzero r w, .wrapNs r w, .wrapPair r w, .progRoot r w stuck, .progDbg r w stuck][Fld.secKcmdOp.get w - 1]? = some i)
    (hop : 1 ≤ Fld.secKcmdOp.get w) :
    exec i s = .next ((keyCommand w rnd stuck s).respondWrite r .ok) ∧ Fld.secKcmdOp.get w ≤ 7 := by
  have hle : Fld.secKcmdOp.get w - 1 < 7 := (List.getElem?_eq_some_iff.mp hi).1
  have hrow (op : Nat) (he : Fld.secKcmdOp.get w = op) (rnd' : BitVec 512) (stuck' : BitVec 384)
      (hsame : ∀ slot t, keyRun op slot rnd' stuck' t = keyRun op slot rnd stuck t) :
      keyRow op r w rnd' stuck' s = (keyCommand w rnd stuck s).respondWrite r .ok := by
    rw [keyRow, if_pos ⟨hgo, he⟩, regWrite_pass hw hs, keyCommand_eq hgo, keyCommand_eq hgo]
    simp only [keyDone, he, hsame]
  generalize hop' : Fld.secKcmdOp.get w = op at hi hop hle
  refine ⟨?_, by omega⟩
  match op, hop, hle with
  | 1, _, _ => cases hi; exact congrArg Host.Outcome.next (hrow 1 hop' 0 0 fun _ _ => rfl)
  | 2, _, _ =>
    cases hi
    show onlyIf (!halvesEqual rnd) s (keyRow 2 r w rnd 0 s) = _
    rw [hrnd, Bool.not_false, onlyIf_true, hrow 2 hop' rnd 0 fun _ _ => rfl]
  | 3, _, _ => cases hi; exact congrArg Host.Outcome.next (hrow 3 hop' 0 0 fun _ _ => rfl)
  | 4, _, _ => cases hi; exact congrArg Host.Outcome.next (hrow 4 hop' 0 0 fun _ _ => rfl)
  | 5, _, _ => cases hi; exact congrArg Host.Outcome.next (hrow 5 hop' 0 0 fun _ _ => rfl)
  | 6, _, _ => cases hi; exact congrArg Host.Outcome.next (hrow 6 hop' 0 stuck fun _ _ => rfl)
  | 7, _, _ => cases hi; exact congrArg Host.Outcome.next (hrow 7 hop' 0 stuck fun _ _ => rfl)

/-- A value burned where no bit is stuck. -/
theorem and_not_of_and_eq_zero {h stuck : BitVec 384} (hz : h &&& stuck = 0) : h &&& ~~~stuck = h := by
  ext i hi
  have hb : (h &&& stuck)[i] = (0 : BitVec 384)[i] := by rw [hz]
  simp at hb ⊢
  exact hb

section
variable (slot : Nat) (rnd : BitVec 512) (stuck : BitVec 384) (s : State)

theorem keyRun_unwrap : (keyRun 1 slot rnd stuck s).2.sec = { s.sec with slots := (keyRun 1 slot rnd stuck s).2.sec.slots } ∧
    (match Config.kwUnwrap s.sec.kek1 (kbufBytes s 72) with
      | none => (keyRun 1 slot rnd stuck s).2.sec.slots = s.sec.slots ∧ (keyRun 1 slot rnd stuck s).1 = krUnwrapFail
      | some k => if halvesEqual (ofBytes 512 k) then (keyRun 1 slot rnd stuck s).2.sec.slots = s.sec.slots ∧ (keyRun 1 slot rnd stuck s).1 = krKeyEq
        else (keyRun 1 slot rnd stuck s).2.sec.slots = Tab.put slot (ofBytes 512 k) s.sec.slots ∧ (keyRun 1 slot rnd stuck s).1 = krOk) := by
  unfold keyRun
  dsimp only
  cases Config.kwUnwrap s.sec.kek1 (kbufBytes s 72) with
  | none => exact ⟨rfl, rfl, rfl⟩
  | some k => cases heq : halvesEqual (ofBytes 512 k) <;> simp [heq]

/-- What PROG_ROOT and PROG_DBG leave of a row's value, of its mark of a failed burn, and as the result. -/
def Burnt (h stuck f : BitVec 384) (bad was : Bool) (result : Nat) : Prop :=
  f = h &&& ~~~stuck ∧ bad = (was || h &&& stuck != 0) ∧ result = if h &&& stuck = 0 then krOk else krOtpFail

theorem keyRun_progRoot : (keyRun 6 slot rnd stuck s).2.sec.slots = s.sec.slots ∧
    Burnt (ofBytes 384 (kbufBytes s 48)) stuck (keyRun 6 slot rnd stuck s).2.sec.row.rootHash (keyRun 6 slot rnd stuck s).2.sec.rootBad s.sec.rootBad
      (keyRun 6 slot rnd stuck s).1 := by
  by_cases hz : ofBytes 384 (kbufBytes s 48) &&& stuck = 0
  · have hrun : keyRun 6 slot rnd stuck s =
        (krOk, { s with sec := { s.sec with row := { s.sec.row with rootHash := ofBytes 384 (kbufBytes s 48) } } }) := if_pos hz
    rw [hrun]
    exact ⟨rfl, (and_not_of_and_eq_zero hz).symm, by simp [hz], by rw [if_pos hz]⟩
  · have hrun : keyRun 6 slot rnd stuck s = (krOtpFail, { s with sec := { s.sec with
        row := { s.sec.row with rootHash := ofBytes 384 (kbufBytes s 48) &&& ~~~stuck }, rootBad := true } }) := if_neg hz
    rw [hrun]
    exact ⟨rfl, rfl, by rw [bne_iff_ne.mpr hz, Bool.or_true], by rw [if_neg hz]⟩

theorem keyRun_progDbg : (keyRun 7 slot rnd stuck s).2.sec.slots = s.sec.slots ∧
    Burnt (ofBytes 384 (kbufBytes s 48)) stuck (keyRun 7 slot rnd stuck s).2.sec.row.dbgHash (keyRun 7 slot rnd stuck s).2.sec.dbgBad s.sec.dbgBad
      (keyRun 7 slot rnd stuck s).1 := by
  by_cases hz : ofBytes 384 (kbufBytes s 48) &&& stuck = 0
  · have hrun : keyRun 7 slot rnd stuck s =
        (krOk, { s with sec := { s.sec with row := { s.sec.row with dbgHash := ofBytes 384 (kbufBytes s 48) } } }) := if_pos hz
    rw [hrun]
    exact ⟨rfl, (and_not_of_and_eq_zero hz).symm, by simp [hz], by rw [if_pos hz]⟩
  · have hrun : keyRun 7 slot rnd stuck s = (krOtpFail, { s with sec := { s.sec with
        row := { s.sec.row with dbgHash := ofBytes 384 (kbufBytes s 48) &&& ~~~stuck }, dbgBad := true } }) := if_neg hz
    rw [hrun]
    exact ⟨rfl, rfl, by rw [bne_iff_ne.mpr hz, Bool.or_true], by rw [if_neg hz]⟩

theorem keyRun_wrapNs : (keyRun 4 slot rnd stuck s).2.sec = s.sec ∧
    if halvesEqual (ofBytes 512 (kbufBytes s 64)) then (keyRun 4 slot rnd stuck s).1 = krKeyEq
    else (keyRun 4 slot rnd stuck s).1 = krOk ∧
      ∀ j, j < 32 → (keyRun 4 slot rnd stuck s).2.reg .secKbuf j = kbufWord (Config.kwWrap s.sec.kek1 (kbufBytes s 64)) j := by
  by_cases heq : halvesEqual (ofBytes 512 (kbufBytes s 64)) = true
  · have hrun : keyRun 4 slot rnd stuck s = (krKeyEq, s) := if_pos heq
    rw [hrun, if_pos heq]
    exact ⟨rfl, rfl⟩
  · have hrun : keyRun 4 slot rnd stuck s = (krOk, s.setKbuf (Config.kwWrap s.sec.kek1 (kbufBytes s 64))) := if_neg heq
    rw [hrun, if_neg heq]
    exact ⟨rfl, rfl, fun j hj => State.reg_setKbuf_same _ _ hj⟩

end

/-- Settles O23: the command runs past its causes of refusal, and only its own row changes the input buffer's end. -/
theorem keyCommands : Obligations.KeyCommands := by
  intro s r w rnd stuck i hw hs hgo hrnd op slot kbuf h burnt hi hop
  obtain ⟨hexec, hop7⟩ := exec_keyRow hw hs hgo hrnd hi hop
  have hsec := keyCommand_sec w rnd stuck s hgo
  have hres := keyCommand_result w rnd stuck s hgo
  have hbuf := keyCommand_kbuf w rnd stuck s hgo
  have hrest := keyCommand_rest w rnd stuck s hgo
  have hreg {k : RegKind} := keyCommand_reg w rnd stuck s hgo (k := k)
  generalize keyCommand w rnd stuck s = t at hexec hsec hres hbuf hrest hreg
  have hbytes := kbufBytes_plainWrite s w
  have hpsec : (s.plainWrite .secKcmd 0 w).sec = s.sec := rfl
  refine ⟨_, hexec, ?_, fun k j h1 h2 h3 => by rw [State.reg_respondWrite, hreg h1 h2 h3], fun h2 h4 h5 j hj => ?_, fun href => ?_, fun href => ?_⟩
  · rw [State.respondWrite_eq, hrest]
    rfl
  · rw [State.reg_respondWrite, hbuf, keyCleared, if_neg (by omega)]
    exact State.reg_setKbuf_same _ _ hj
  · rw [keyDone_refused href] at hsec hres
    rw [State.get_respondWrite, State.respondWrite_sec]
    exact ⟨hres, hsec⟩
  · rw [keyDone_run href] at hsec hres hbuf
    rw [State.get_respondWrite, State.respondWrite_sec]
    have hp : kbufBytes (s.plainWrite .secKcmd 0 w) = kbufBytes s := funext hbytes
    have hkeep (he : op = 2 ∨ op = 4 ∨ op = 5) (j : Nat) :
        (t.respondWrite r .ok).reg .secKbuf j = (keyRun op slot rnd stuck (s.plainWrite .secKcmd 0 w)).2.reg .secKbuf j := by
      rw [State.reg_respondWrite, hbuf, keyCleared, if_pos he]
    refine ⟨fun he => ?_, fun he => ?_, fun he => ?_, fun he => ?_, fun he => ?_, fun he => ?_, fun he => ?_⟩
    · have h1 := keyRun_unwrap slot rnd stuck (s.plainWrite .secKcmd 0 w)
      rw [← (he : Fld.secKcmdOp.get w = 1), ← hsec, ← hres, hp] at h1
      exact h1
    · have hrun : keyRun op slot rnd stuck (s.plainWrite .secKcmd 0 w) =
          (krOk, (State.setKbuf { s.plainWrite .secKcmd 0 w with sec := { s.sec with slots := Tab.put slot rnd s.sec.slots } }
            (Config.kwWrap s.sec.kek1 (bytesOf rnd 64)))) := by rw [he]; rfl
      refine ⟨hsec.trans (by rw [hrun]; rfl), hres.trans (by rw [hrun]), fun j hj => ?_⟩
      rw [hkeep (.inl he), hrun]
      exact State.reg_setKbuf_same _ _ hj
    · have hrun : keyRun op slot rnd stuck (s.plainWrite .secKcmd 0 w) =
          (krOk, { s.plainWrite .secKcmd 0 w with sec := { s.sec with slots := Tab.del slot s.sec.slots } }) := by rw [he]; rfl
      exact ⟨hsec.trans (by rw [hrun]), hres.trans (by rw [hrun])⟩
    · have h4 := keyRun_wrapNs slot rnd stuck (s.plainWrite .secKcmd 0 w)
      rw [hp, hpsec] at h4
      obtain ⟨hsec4, hres4⟩ := h4
      have hkeep4 := hkeep (.inr (.inl he))
      rw [he] at hkeep4
      rw [(he : Fld.secKcmdOp.get w = 4)] at hsec hres
      refine ⟨hsec.trans hsec4, ?_⟩
      rw [hres]
      split
      next heq => rwa [if_pos heq] at hres4
      next heq =>
        rw [if_neg heq] at hres4
        exact ⟨hres4.1, fun j hj => (hkeep4 j).trans (hres4.2 j hj)⟩
    · have hrun : keyRun op slot rnd stuck (s.plainWrite .secKcmd 0 w) =
          (krOk, (s.plainWrite .secKcmd 0 w).setKbuf (Config.kwWrap s.sec.kek2 (kbufBytes s 32))) := by rw [he, ← hp]; rfl
      refine ⟨hsec.trans (by rw [hrun]; rfl), hres.trans (by rw [hrun]), fun j hj => ?_⟩
      rw [hkeep (.inr (.inr he)), hrun]
      exact State.reg_setKbuf_same _ _ hj
    · have h6 := keyRun_progRoot slot rnd stuck (s.plainWrite .secKcmd 0 w)
      rw [← (he : Fld.secKcmdOp.get w = 6), ← hsec, ← hres, hp, ← State.get_respondWrite t r .ok] at h6
      exact h6
    · have h7 := keyRun_progDbg slot rnd stuck (s.plainWrite .secKcmd 0 w)
      rw [← (he : Fld.secKcmdOp.get w = 7), ← hsec, ← hres, hp, ← State.get_respondWrite t r .ok] at h7
      exact h7

end Sys2Proof.Machine
end

section
/-! PROOFS. Namespaces, the firebox code view, the tamper latch and the tests that bank (R603, R604, R622, R624 to R626, R635). -/

namespace Sys2Proof.Machine

/-! ## Entry to the banked state -/

theorem bankNamed_resps (s : State) (cause : Nat) (obj : List (Nat × Nat)) : (s.bankNamed cause obj).resps = s.resps := by
  unfold State.bankNamed
  split <;> rfl

theorem bankNamed_sec (s : State) (cause : Nat) (obj : List (Nat × Nat)) : (s.bankNamed cause obj).sec = s.sec := by
  unfold State.bankNamed
  split <;> rfl

theorem State.get_bankNamed (s : State) {f : Fld} (hf : f.kind ∉ bankKinds) (cause : Nat) (obj : List (Nat × Nat)) (i : Nat) :
    (s.bankNamed cause obj).get f i = s.get f i := congrArg f.get (s.reg_bankNamed hf cause obj i)

theorem State.flag_bankNamed (s : State) {f : Fld} (hf : f.kind ∉ bankKinds) (cause : Nat) (obj : List (Nat × Nat)) (i : Nat) :
    (s.bankNamed cause obj).flag f i = s.flag f i := by rw [State.flag, s.get_bankNamed hf, State.flag]

theorem State.get_edgeAll (s : State) {f : Fld} (hlo : f.kind ≠ .sicPpendLo) (hhi : f.kind ≠ .sicPpendHi) (n i : Nat) : (s.edgeAll n).get f i = s.get f i :=
  congrArg f.get (s.reg_edgeAll hlo hhi n i)

theorem State.get_enterStage (s : State) {f : Fld} (hb : f.kind ≠ .glbBootSts) (hl : f.kind ≠ .glbLogSeq) (n i : Nat) : (enterStage n s).get f i = s.get f i :=
  congrArg f.get (s.reg_enterStage hb hl n i)

theorem stage_enterStage (s : State) {n : Nat} (h : n < 16) : (enterStage n s).stage = n := by
  rw [enterStage, State.stage, State.get_logPacked _ (by decide), State.get_put_same _ _ (by decide)]
  exact Nat.mod_eq_of_lt h

/-- R661: the first cause is named in GLB_BANK_STS. -/
theorem bankNamed_cause {s : State} (h : s.banked = false) {cause : Nat} (hc : cause < 16) (obj : List (Nat × Nat)) :
    (s.bankNamed cause obj).get Fld.glbBankStsCause = cause := by
  rw [bankNamed_entry (by simp [h]), State.get_of_regs (bankNoted_regs _), bankEntered]
  rw [State.get_logPacked _ (by decide), State.get_edgeAll _ (by decide) (by decide), State.get_put_kind _ (by decide), State.get_put_kind _ (by decide),
    State.get_enterStage _ (by decide) (by decide), State.get_put_same _ _ (by decide)]
  exact Nat.mod_eq_of_lt (lt_of_lt_of_le hc (by decide))

theorem bankNamed_stage {s : State} (h : s.banked = false) (cause : Nat) (obj : List (Nat × Nat)) : (s.bankNamed cause obj).stage = 15 := by
  rw [bankNamed_entry (by simp [h]), State.stage, State.get_of_regs (bankNoted_regs _), bankEntered]
  rw [State.get_logPacked _ (by decide), State.get_edgeAll _ (by decide) (by decide), State.get_put_kind _ (by decide), State.get_put_kind _ (by decide)]
  exact stage_enterStage _ (by decide)

/-! ## Namespaces -/

theorem State.urgeNs_regs (s : State) (n : Nat) : (s.urgeNs n).regs = s.regs := rfl

/-- KEYIDX taken, or held with NS_ERR. -/
def nsKeyWritten (n : Nat) (w : Word) (s : State) : State :=
  if (s.flag Fld.secNsCtlValid n || nsBusy s n) && Fld.secNsCtlKeyidx.get w != s.get Fld.secNsCtlKeyidx n then s.putFlag Fld.secStsNsErr true
  else s.put Fld.secNsCtlKeyidx (Fld.secNsCtlKeyidx.get w) n

/-- VALID cleared, its staged copies urged. -/
def nsCleared (n : Nat) (s : State) : State := (if s.flag Fld.secNsCtlValid n then s.urgeNs n else s).putFlag Fld.secNsCtlValid false n

/-- VALID asked for, past the checks of R622. -/
def nsAsked (n : Nat) (s : State) : State :=
  if s.flag Fld.secNsCtlValid n then s
  else if nsChecks s n (s.get Fld.secNsCtlKeyidx n) then s.putFlag Fld.secNsCtlValid true n
  else s.putFlag Fld.secStsNsErr true

theorem nsCtlWrite_eq (n : Nat) (w : Word) (s : State) :
    nsCtlWrite n w s = if Fld.secNsCtlValid.get w = 0 then nsCleared n (nsKeyWritten n w s) else nsAsked n (nsKeyWritten n w s) := rfl

section
variable (n : Nat) (w : Word) (s : State)

theorem nsKeyWritten_resps : (nsKeyWritten n w s).resps = s.resps := by
  unfold nsKeyWritten
  split <;> rfl

theorem nsKeyWritten_reg {k : RegKind} {j : Nat} (h1 : (k, j) ≠ (.secNsCtl, n)) (h2 : k ≠ .secSts) : (nsKeyWritten n w s).reg k j = s.reg k j := by
  unfold nsKeyWritten
  split
  · exact s.reg_putFlag_kind h2 _ _ _
  · exact otherRegs_put s _ _ _ _ _ h1

theorem nsCleared_resps : (nsCleared n s).resps = s.resps := by
  unfold nsCleared
  split <;> rfl

theorem nsCleared_reg {k : RegKind} {j : Nat} (h : (k, j) ≠ (.secNsCtl, n)) : (nsCleared n s).reg k j = s.reg k j := by
  unfold nsCleared
  split <;> exact otherRegs_putFlag _ Fld.secNsCtlValid _ _ _ _ h

theorem nsCleared_flag : (nsCleared n s).flag Fld.secNsCtlValid n = false := by
  unfold nsCleared
  exact State.flag_putFlag _ Fld.secNsCtlValid rfl (by decide) false n

theorem nsCleared_keyidx : (nsCleared n s).get Fld.secNsCtlKeyidx n = s.get Fld.secNsCtlKeyidx n := by
  unfold nsCleared
  rw [State.get_putFlag_field _ (by decide) (by decide)]
  split <;> rfl

theorem nsAsked_resps : (nsAsked n s).resps = s.resps := by
  unfold nsAsked
  split_ifs <;> rfl

theorem nsAsked_reg {k : RegKind} {j : Nat} (h1 : (k, j) ≠ (.secNsCtl, n)) (h2 : k ≠ .secSts) : (nsAsked n s).reg k j = s.reg k j := by
  unfold nsAsked
  split_ifs
  · rfl
  · exact otherRegs_putFlag s Fld.secNsCtlValid _ _ _ _ h1
  · exact s.reg_putFlag_kind h2 _ _ _

theorem nsAsked_keyidx : (nsAsked n s).get Fld.secNsCtlKeyidx n = s.get Fld.secNsCtlKeyidx n := by
  unfold nsAsked
  split_ifs
  · rfl
  · exact s.get_putFlag_field (by decide) (by decide) _ _ _
  · exact s.get_putFlag_kind (by decide) _ _ _

/-- NS_ERR stands through the rest of the write. -/
theorem nsAsked_nsErr (h : s.flag Fld.secStsNsErr = true) : (nsAsked n s).flag Fld.secStsNsErr = true := by
  unfold nsAsked
  split_ifs
  · exact h
  · rw [s.flag_putFlag_kind (by decide)]
    exact h
  · exact State.flag_putFlag s Fld.secStsNsErr rfl (by decide) true 0

/-- The checks of R622 look at the other namespaces and at their own base and size, not at their own KEYIDX. -/
theorem nsChecks_putKeyidx (v key : Nat) : nsChecks (s.put Fld.secNsCtlKeyidx v n) n key = nsChecks s n key := by
  have hbase (m : Nat) : nsBase (s.put Fld.secNsCtlKeyidx v n) m = nsBase s m := by
    rw [nsBase, nsBase, s.get_put_kind (by decide), s.get_put_kind (by decide)]
  have hsize (m : Nat) : nsSize (s.put Fld.secNsCtlKeyidx v n) m = nsSize s m := by
    rw [nsSize, nsSize, s.get_put_kind (by decide), s.get_put_kind (by decide)]
  have hvalid (m : Nat) : (s.put Fld.secNsCtlKeyidx v n).flag Fld.secNsCtlValid m = s.flag Fld.secNsCtlValid m := by
    by_cases h : m = n
    · rw [h]
      exact s.flag_put_field (by decide) (by decide) _ _ _
    · rw [State.flag, State.flag, s.get_put_index h]
  simp only [nsChecks, hbase, hsize, hvalid]
  rfl

end

/-- R622, R624: KEYIDX and VALID, by whether the namespace is in use. -/
theorem nsCtlWrite_reg (n : Nat) (w : Word) (s : State) {k : RegKind} {j : Nat} (h1 : (k, j) ≠ (.secNsCtl, n)) (h2 : k ≠ .secSts) :
    (nsCtlWrite n w s).reg k j = s.reg k j := by
  rw [nsCtlWrite_eq]
  split
  · rw [nsCleared_reg _ _ h1, nsKeyWritten_reg _ _ _ h1 h2]
  · rw [nsAsked_reg _ _ h1 h2, nsKeyWritten_reg _ _ _ h1 h2]

theorem nsCtlWrite_resps (n : Nat) (w : Word) (s : State) : (nsCtlWrite n w s).resps = s.resps := by
  rw [nsCtlWrite_eq]
  split
  · rw [nsCleared_resps, nsKeyWritten_resps]
  · rw [nsAsked_resps, nsKeyWritten_resps]

theorem nsCtlWrite_keyidx (n : Nat) (w : Word) (s : State) : (nsCtlWrite n w s).get Fld.secNsCtlKeyidx n = (nsKeyWritten n w s).get Fld.secNsCtlKeyidx n := by
  rw [nsCtlWrite_eq]
  split
  · exact nsCleared_keyidx _ _
  · exact nsAsked_keyidx _ _

theorem nsKeyWritten_free {n : Nat} {s : State} (h : ¬(s.flag Fld.secNsCtlValid n = true ∨ nsBusy s n = true)) (w : Word) :
    nsKeyWritten n w s = s.put Fld.secNsCtlKeyidx (Fld.secNsCtlKeyidx.get w) n := by
  obtain ⟨hv, hb⟩ := not_or.mp h
  simp [nsKeyWritten, hv, hb]

theorem keyidx_put (s : State) (n : Nat) (w : Word) :
    (s.put Fld.secNsCtlKeyidx (Fld.secNsCtlKeyidx.get w) n).get Fld.secNsCtlKeyidx n = Fld.secNsCtlKeyidx.get w := by
  rw [s.get_put_same _ (by decide)]
  exact Nat.mod_eq_of_lt (Fld.get_lt _ w)

theorem keyidx_held {n : Nat} {s : State} (h : s.flag Fld.secNsCtlValid n = true ∨ nsBusy s n = true) (w : Word) :
    (nsKeyWritten n w s).get Fld.secNsCtlKeyidx n = s.get Fld.secNsCtlKeyidx n ∧
      (Fld.secNsCtlKeyidx.get w ≠ s.get Fld.secNsCtlKeyidx n → (nsKeyWritten n w s).flag Fld.secStsNsErr = true) := by
  have huse : (s.flag Fld.secNsCtlValid n || nsBusy s n) = true := by simpa using h
  by_cases hk : Fld.secNsCtlKeyidx.get w = s.get Fld.secNsCtlKeyidx n
  · simp only [nsKeyWritten, huse, hk, bne_self_eq_false, Bool.and_false, Bool.false_eq_true, if_false, ne_eq, not_true_eq_false, false_implies, and_true]
    rw [← hk]
    exact keyidx_put s n w
  · simp only [nsKeyWritten, huse, bne_iff_ne.mpr hk, Bool.and_self, if_true]
    exact ⟨s.get_putFlag_kind (by decide) _ _ _, fun _ => State.flag_putFlag s Fld.secStsNsErr rfl (by decide) true 0⟩

/-- VALID asked for of a free namespace. -/
theorem nsAsked_free {n : Nat} {s : State} (h : ¬(s.flag Fld.secNsCtlValid n = true ∨ nsBusy s n = true)) (w : Word) :
    nsAsked n (nsKeyWritten n w s) = if nsChecks s n (Fld.secNsCtlKeyidx.get w) then (nsKeyWritten n w s).putFlag Fld.secNsCtlValid true n
      else (nsKeyWritten n w s).putFlag Fld.secStsNsErr true := by
  have hvalid : (nsKeyWritten n w s).flag Fld.secNsCtlValid n = false := by
    rw [nsKeyWritten_free h, s.flag_put_field (by decide) (by decide)]
    simpa using (not_or.mp h).1
  have hchecks : nsChecks (nsKeyWritten n w s) n ((nsKeyWritten n w s).get Fld.secNsCtlKeyidx n) = nsChecks s n (Fld.secNsCtlKeyidx.get w) := by
    rw [nsKeyWritten_free h, keyidx_put, nsChecks_putKeyidx]
  simp only [nsAsked, hvalid, Bool.false_eq_true, if_false, hchecks]

theorem nsCtlWrite_spec {s : State} {r : Req} {n : Nat} {w : Word} (hn : n < 1024) (hw : Written s r .secNsCtl n w) (hs : Steady s) :
    exec (.nsCtlWrite r n w) s = .next ((nsCtlWrite n w s).respondWrite r .ok) := by
  show execNsCtlWrite r n w s = _
  simp only [execNsCtlWrite, hn, decide_true, onlyIf_true, regWrite_pass hw hs]

@[simp] theorem State.respondWrite_wp (s : State) (r : Req) (c : RCode) : (s.respondWrite r c).wp = s.wp := by rw [s.respondWrite_eq]

/-- What a write of VALID 1 makes of a free namespace. -/
theorem nsValid_free {n : Nat} {s : State} (h : ¬(s.flag Fld.secNsCtlValid n = true ∨ nsBusy s n = true)) {w : Word} (hv : Fld.secNsCtlValid.get w = 1) :
    (nsChecks s n (Fld.secNsCtlKeyidx.get w) = true → (nsCtlWrite n w s).flag Fld.secNsCtlValid n = true ∧
      (nsCtlWrite n w s).reg .secSts = s.reg .secSts ∧ (nsCtlWrite n w s).wp = s.wp) ∧
    (nsChecks s n (Fld.secNsCtlKeyidx.get w) = false → (nsCtlWrite n w s).flag Fld.secNsCtlValid n = false ∧
      (nsCtlWrite n w s).flag Fld.secStsNsErr = true ∧ (nsCtlWrite n w s).wp = s.wp) := by
  have heq : nsCtlWrite n w s = nsAsked n (nsKeyWritten n w s) := by
    rw [nsCtlWrite_eq, if_neg (by omega)]
  rw [heq, nsAsked_free h, nsKeyWritten_free h]
  refine ⟨fun hc => ?_, fun hc => ?_⟩
  · rw [if_pos hc]
    refine ⟨State.flag_putFlag _ Fld.secNsCtlValid rfl (by decide) true n, ?_, rfl⟩
    rw [State.reg_putFlag_kind _ (by decide), State.reg_put_kind _ (by decide)]
  · rw [if_neg (by simp [hc])]
    refine ⟨?_, State.flag_putFlag _ Fld.secStsNsErr rfl (by decide) true 0, rfl⟩
    rw [State.flag_putFlag_kind _ (by decide), State.flag_put_field _ (by decide) (by decide)]
    simpa using (not_or.mp h).1

/-! ## Self-tests -/

theorem selfTestRun_ok (s : State) : selfTestRun true s = s.inc Fld.secStCtlRuns := rfl
theorem selfTestRun_bad (s : State) : selfTestRun false s = (s.inc Fld.secStCtlRuns).bankNamed 7 [] := rfl

theorem selfTestRun_runs (ok : Bool) (s : State) : (selfTestRun ok s).get Fld.secStCtlRuns = min 65535 (s.get Fld.secStCtlRuns + 1) := by
  cases ok with
  | true => exact s.get_inc_same _ (by decide) _ _
  | false =>
    rw [selfTestRun_bad, State.get_bankNamed _ (by decide)]
    exact s.get_inc_same _ (by decide) _ _

theorem selfTestRun_resps (ok : Bool) (s : State) : (selfTestRun ok s).resps = s.resps := by
  cases ok with
  | true => rfl
  | false => rw [selfTestRun_bad, bankNamed_resps]; rfl

theorem selfTestRun_sec (ok : Bool) (s : State) : (selfTestRun ok s).sec = s.sec := by
  cases ok with
  | true => rfl
  | false => rw [selfTestRun_bad, bankNamed_sec]; rfl

/-- R626: a failed run banks, a passed one leaves BANKED. -/
theorem selfTestRun_banked (ok : Bool) (s : State) : (selfTestRun ok s).banked = (s.banked || !ok) := by
  cases ok with
  | true => rw [selfTestRun_ok, State.banked, s.flag_inc_kind (by decide), State.banked, Bool.not_true, Bool.or_false]
  | false => rw [selfTestRun_bad, bankNamed_banked, Bool.not_false, Bool.or_true]

theorem State.banked_respondWrite (s : State) (r : Req) (c : RCode) : (s.respondWrite r c).banked = s.banked := s.flag_respondWrite r c _ 0

theorem exec_selftestRunWrite {s : State} {r : Req} {w : Word} (hw : Written s r .secStCtl 0 w) (hs : Steady s) (hrun : Fld.secStCtlRun.get w = 1) (ok : Bool) :
    exec (.selftestRunWrite r w ok) s = .next ((selfTestRun ok s).respondWrite r .ok) := by
  show Host.Outcome.next (regWrite s r .secStCtl 0 w _) = _
  rw [regWrite_pass hw hs, if_pos hrun]

/-- A full self-test is due: it is noted and run. -/
theorem exec_periodicSelftest {s : State} (hrun : s.running = true) (hours : s.get Fld.secStCfgHours ≠ 0)
    (hdue : s.sec.lastTest + s.get Fld.secStCfgHours * 3600000000000 ≤ s.now) (ok : Bool) :
    exec (.periodicSelftest ok) s = .next (selfTestRun ok { s with sec := { s.sec with lastTest := s.now } }) := by
  show execPeriodicSelftest ok s = _
  simp only [execPeriodicSelftest, hrun, bne_iff_ne.mpr hours, hdue, decide_true, Bool.and_self, onlyIf_true]

/-! ## The firebox code view and the tamper latch -/

theorem exec_fireboxCodeViewRead {s : State} {r : Req} (h : viewGate s r = .pass) {ofs beats : Nat} (hform : viewReadOk ofs beats = true) :
    exec (.fireboxCodeViewRead r ofs beats) s = .next ((s.putFlag Fld.secStsXoRd true).respond r .ok (zeroBeats beats)) := by
  show execFireboxCodeViewRead r ofs beats s = _
  simp only [execFireboxCodeViewRead, h, hform, if_true]

theorem exec_fireboxCodeViewWrite {s : State} {r : Req} (h : viewGate s r = .pass) :
    exec (.fireboxCodeViewWrite r) s = .next ((s.putFlag Fld.secStsXoWr true).respondWrite r .decerr) := by
  show execFireboxCodeViewWrite r s = _
  simp only [execFireboxCodeViewWrite, h]

theorem exec_tamperSet {s : State} {r : Req} {w : Word} (hw : Written s r .secSts 0 w) (hs : Steady s) (ht : Fld.secStsTamper.get w = 1) (hr : r.src = 0x10) :
    exec (.tamperSet r w) s = .next ((s.plainWrite .secSts 0 w).respondWrite r .ok) := by
  show execTamperSet r w s = _
  simp only [execTamperSet, hr, ht, and_self, decide_true, onlyIf_true, regWrite_pass hw hs, secStsWrite, if_true]

/-- A bit that a 1 sets. -/
theorem tampered_plainWrite (s : State) {w : Word} (ht : Fld.secStsTamper.get w = 1) : tampered (s.plainWrite .secSts 0 w) = true := by
  have hapart : Fld.secStsTamper.Apart .secSts := apart_of_fieldsApart (by decide) (by decide)
  have hget : (s.plainWrite .secSts 0 w).get Fld.secStsTamper = 1 := by
    rw [State.get, State.plainWrite, show Fld.secStsTamper.kind = .secSts from rfl, State.reg_setReg_same, hapart.get_writeWord]
    exact if_pos ht
  rw [tampered, State.flag, hget]
  rfl

/-- Settles O24: VALID past its checks, the code view's flags, the tamper latch, and what banks. -/
theorem namespacesAndTests : Obligations.NamespacesAndTests := by
  refine ⟨fun s r n w hn hw hs => ?_, fun s r hv => ⟨fun ofs beats hform => ?_, ?_⟩, fun s r w hw hs ht hr => ?_, fun s r w ok hw hs hrun => ?_, fun s hon hb => ?_⟩
  · refine ⟨_, nsCtlWrite_spec hn hw hs, respondWrite_resps_of_eq (nsCtlWrite_resps n w s) r, fun k j h1 h2 => ?_, fun hfree => ⟨?_, fun hv => ?_⟩,
      fun hused => ⟨?_, fun hk => ?_⟩, fun hv => ?_⟩
    · rw [State.reg_respondWrite, nsCtlWrite_reg n w s h1 h2]
    · rw [State.get_respondWrite, nsCtlWrite_keyidx, nsKeyWritten_free hfree, keyidx_put]
    · rw [State.flag_respondWrite, State.flag_respondWrite, State.respondWrite_wp, State.reg_respondWrite]
      exact nsValid_free hfree hv
    · rw [State.get_respondWrite, nsCtlWrite_keyidx]
      exact (keyidx_held hused w).1
    · rw [State.flag_respondWrite, nsCtlWrite_eq]
      have herr := (keyidx_held hused w).2 hk
      split
      · rw [State.flag, State.get, nsCleared_reg _ _ (fun he => RegKind.noConfusion (Prod.mk.inj he).1)]
        exact herr
      · exact nsAsked_nsErr n _ herr
    · rw [State.flag_respondWrite, nsCtlWrite_eq, if_pos hv]
      exact nsCleared_flag n _
  · exact ⟨_, exec_fireboxCodeViewRead hv hform, State.flag_putFlag s Fld.secStsXoRd rfl (by decide) true 0, rfl, otherRegs_putFlag s Fld.secStsXoRd true 0, rfl⟩
  · refine ⟨_, exec_fireboxCodeViewWrite hv, ?_, ?_, (otherRegs_putFlag s Fld.secStsXoWr true 0).respondWrite r _, ?_⟩
    · rw [State.flag_respondWrite]
      exact State.flag_putFlag s Fld.secStsXoWr rfl (by decide) true 0
    · rw [State.respondWrite_eq, State.respondWrite_eq]
      rfl
    · rw [State.respondWrite_sec]
      rfl
  · refine ⟨_, exec_tamperSet hw hs ht hr, ?_, respondWrite_resps_of_eq (t := s.plainWrite .secSts 0 w) rfl r, (otherRegs_plainWrite s .secSts 0 w).respondWrite r _⟩
    rw [tampered, State.flag_respondWrite]
    exact tampered_plainWrite s ht
  · refine ⟨_, exec_selftestRunWrite hw hs hrun ok, ?_, respondWrite_resps_of_eq (selfTestRun_resps ok s) r, fun hok => ?_, fun hok => ?_⟩
    · rw [State.get_respondWrite, selfTestRun_runs]
    · rw [State.banked_respondWrite, selfTestRun_banked, hok, Bool.not_true, Bool.or_false]
    · rw [State.banked_respondWrite, selfTestRun_banked, hok, Bool.not_false, Bool.or_true]
  · have hrunning : s.running = true := by rw [State.running, hon, hb]; rfl
    refine ⟨fun ok hours hdue => ?_, fun l hl => ?_, fun hfb => ?_⟩
    · refine ⟨_, exec_periodicSelftest hrunning hours hdue ok, ?_, selfTestRun_runs ok _, ?_, fun hok => ?_⟩
      · rw [selfTestRun_sec]
      · rw [selfTestRun_banked]
        exact (congrArg (· || !ok) hb).trans (Bool.false_or _)
      · rw [hok, selfTestRun_bad]
        exact bankNamed_cause (s := State.inc { s with sec := { s.sec with lastTest := s.now } } Fld.secStCtlRuns)
          ((State.flag_inc_kind _ (by decide) _ _ _).trans hb) (by decide) []
    · have hb' : (s.putFlag Fld.secStsRbgOk false).banked = false := (s.flag_putFlag_kind (by decide) _ _ _).trans hb
      refine ⟨(s.putFlag Fld.secStsRbgOk false).bankNamed 8 [], ?_, ?_, bankNamed_banked _ _ _, bankNamed_cause hb' (by decide) [], bankNamed_stage hb' 8 []⟩
      · show execRbgHealthFail l s = _
        rw [execRbgHealthFail, hon, hl]
        rfl
      · rw [State.flag_bankNamed _ (by decide)]
        exact State.flag_putFlag s Fld.secStsRbgOk rfl (by decide) false 0
    · refine ⟨s.bankNamed 2 [], ?_, bankNamed_banked _ _ _, bankNamed_cause hb (by decide) [], bankNamed_stage hb 2 []⟩
      show execLockstepMismatch s = _
      rw [execLockstepMismatch, hon, hfb]
      rfl

end Sys2Proof.Machine
end

section
/-! PROOFS. Debug challenge, VERIFY, CLOSE, OPEN, and the firebox core's halt and step (R633 to R636). -/

namespace Sys2Proof.Machine

/-! ## The challenge registers -/

/-- The challenge registers set, and nothing else. -/
def State.setChal (s : State) (c : BitVec 384) : State := { s with regs := regsChal c s.regs }

theorem State.setChal_eq (s : State) (c : BitVec 384) :
    s.setChal c = (List.range 12).foldl (fun s i => s.setReg .dbgChal i ((c >>> (32 * i)).setWidth 32)) s :=
  (foldl_setReg_regs .dbgChal (fun i => (c >>> (32 * i)).setWidth 32) (List.range 12) s).symm

theorem State.reg_setChal_same (s : State) (c : BitVec 384) {j : Nat} (h : j < 12) : (s.setChal c).reg .dbgChal j = (c >>> (32 * j)).setWidth 32 := by
  rw [s.setChal_eq, State.reg_foldl_setReg, if_pos ⟨rfl, List.mem_range.mpr h⟩]

theorem State.reg_setChal_kind (s : State) (c : BitVec 384) {k : RegKind} (h : k ≠ .dbgChal) (i : Nat) : (s.setChal c).reg k i = s.reg k i := by
  rw [s.setChal_eq, State.reg_foldl_setReg, if_neg (fun hk => h hk.1)]

theorem State.get_setChal (s : State) (c : BitVec 384) {f : Fld} (h : f.kind ≠ .dbgChal) (i : Nat) : (s.setChal c).get f i = s.get f i :=
  congrArg f.get (s.reg_setChal_kind c h i)

theorem State.flag_setChal (s : State) (c : BitVec 384) {f : Fld} (h : f.kind ≠ .dbgChal) (i : Nat) : (s.setChal c).flag f i = s.flag f i := by
  rw [State.flag, s.get_setChal c h, State.flag]

theorem State.setChal_sec (s : State) (c : BitVec 384) : (s.setChal c).sec = s.sec := rfl
theorem State.setChal_resps (s : State) (c : BitVec 384) : (s.setChal c).resps = s.resps := rfl

/-! ## One action at a time -/

/-- A write that asks for one action of DBG_CTL has its effect. -/
theorem dbgCtlWrite_one {w : Word} {f : Fld} (hf : f ∈ [Fld.dbgCtlNewchal, Fld.dbgCtlVerify, Fld.dbgCtlClose, Fld.dbgCtlOpen])
    (hone : f.get w = 1) (hrest : ∀ g ∈ [Fld.dbgCtlNewchal, Fld.dbgCtlVerify, Fld.dbgCtlClose, Fld.dbgCtlOpen], g ≠ f → g.get w = 0)
    (rnd : BitVec 384) (s : State) :
    dbgCtlWrite w rnd s = if f = Fld.dbgCtlNewchal then newChal rnd s else if f = Fld.dbgCtlVerify then verify s
      else if f = Fld.dbgCtlClose then dbgClose s else dbgOpen s := by
  have hnot {g : Fld} (hg : g ∈ [Fld.dbgCtlNewchal, Fld.dbgCtlVerify, Fld.dbgCtlClose, Fld.dbgCtlOpen]) (hne : g ≠ f) : ¬ g.get w = 1 := by
    rw [hrest g hg hne]
    decide
  simp only [List.mem_cons, List.not_mem_nil, or_false] at hf
  unfold dbgCtlWrite
  rcases hf with rfl | rfl | rfl | rfl
  · simp only [hone, if_true, hnot (g := Fld.dbgCtlVerify) (by decide) (by decide), hnot (g := Fld.dbgCtlClose) (by decide) (by decide),
      hnot (g := Fld.dbgCtlOpen) (by decide) (by decide), if_false]
  · simp only [hone, if_true, hnot (g := Fld.dbgCtlNewchal) (by decide) (by decide), hnot (g := Fld.dbgCtlClose) (by decide) (by decide),
      hnot (g := Fld.dbgCtlOpen) (by decide) (by decide), if_false]
    rfl
  · simp only [hone, if_true, hnot (g := Fld.dbgCtlNewchal) (by decide) (by decide), hnot (g := Fld.dbgCtlVerify) (by decide) (by decide),
      hnot (g := Fld.dbgCtlOpen) (by decide) (by decide), if_false]
    rfl
  · simp only [hone, if_true, hnot (g := Fld.dbgCtlNewchal) (by decide) (by decide), hnot (g := Fld.dbgCtlVerify) (by decide) (by decide),
      hnot (g := Fld.dbgCtlClose) (by decide) (by decide), if_false]
    rfl

section Actions
variable {s : State} {r : Req} {w : Word} {rnd : BitVec 384}

theorem exec_dbgNewchal (hw : Written s r .dbgCtl 0 w) (hs : Steady s) (h : Fld.dbgCtlNewchal.get w = 1) :
    exec (.dbgNewchal r w rnd) s = .next ((dbgCtlWrite w rnd s).respondWrite r .ok) := by
  show execDbgNewchal r w rnd s = _
  simp only [execDbgNewchal, h, decide_true, onlyIf_true, regWrite_pass hw hs]

theorem exec_dbgVerify (hw : Written s r .dbgCtl 0 w) (hs : Steady s) (h : Fld.dbgCtlVerify.get w = 1) :
    exec (.dbgVerify r w rnd) s = .next ((dbgCtlWrite w rnd s).respondWrite r .ok) := by
  show execDbgVerify r w rnd s = _
  simp only [execDbgVerify, h, decide_true, onlyIf_true, regWrite_pass hw hs]

theorem exec_dbgClose (hw : Written s r .dbgCtl 0 w) (hs : Steady s) (h : Fld.dbgCtlClose.get w = 1) :
    exec (.dbgClose r w rnd) s = .next ((dbgCtlWrite w rnd s).respondWrite r .ok) := by
  show execDbgClose r w rnd s = _
  simp only [execDbgClose, h, decide_true, onlyIf_true, regWrite_pass hw hs]

theorem exec_dbgOpen (hw : Written s r .dbgCtl 0 w) (hs : Steady s) (h : Fld.dbgCtlOpen.get w = 1) :
    exec (.dbgOpen r w rnd) s = .next ((dbgCtlWrite w rnd s).respondWrite r .ok) := by
  show execDbgOpen r w rnd s = _
  simp only [execDbgOpen, h, decide_true, onlyIf_true, regWrite_pass hw hs]

end Actions

/-! ## The challenge -/

/-- The challenge held. -/
def State.holdChal (s : State) (rnd : BitVec 384) : State := { s with sec := { s.sec with chal := some ⟨rnd, s.now + 10000000000⟩ } }

theorem newChal_eq (rnd : BitVec 384) (s : State) : newChal rnd s = ((s.holdChal rnd).setChal rnd).putFlag Fld.dbgStsChal true := rfl

theorem newChal_resps (rnd : BitVec 384) (s : State) : (newChal rnd s).resps = s.resps := rfl

theorem newChal_reg (rnd : BitVec 384) (s : State) {k : RegKind} (h1 : k ≠ .dbgSts) (h2 : k ≠ .dbgChal) (j : Nat) : (newChal rnd s).reg k j = s.reg k j := by
  rw [newChal_eq, State.reg_putFlag_kind _ h1, State.reg_setChal_kind _ _ h2]
  rfl

theorem newChal_chal (rnd : BitVec 384) (s : State) {j : Nat} (h : j < 12) : (newChal rnd s).reg .dbgChal j = (rnd >>> (32 * j)).setWidth 32 := by
  rw [newChal_eq, State.reg_putFlag_kind _ (by decide), State.reg_setChal_same _ _ h]

theorem dropChallenge_sec (s : State) : s.dropChallenge.sec = { s.sec with chal := none } := rfl
theorem dropChallenge_resps (s : State) : s.dropChallenge.resps = s.resps := rfl

theorem dropChallenge_flag (s : State) : s.dropChallenge.flag Fld.dbgStsChal = false :=
  State.flag_putFlag { s with sec := { s.sec with chal := none } } Fld.dbgStsChal rfl (by decide) false 0

theorem otherRegs_dropChallenge (s : State) : OtherRegs s s.dropChallenge .dbgSts 0 :=
  otherRegs_putFlag { s with sec := { s.sec with chal := none } } Fld.dbgStsChal false 0

theorem get_dropChallenge (s : State) {f : Fld} (h : f.hi < Fld.dbgStsChal.lo ∨ Fld.dbgStsChal.hi < f.lo) (hf : f.hi < 32) (i : Nat) :
    s.dropChallenge.get f i = s.get f i := State.get_putFlag_field { s with sec := { s.sec with chal := none } } h hf _ _ _

/-! ## VERIFY -/

/-- A VERIFY has its result, and its challenge is used up. -/
def verified (s : State) : State := (s.put Fld.dbgStsResult (verifyResult s)).dropChallenge

/-- AUTH with the response's SCOPE. -/
def authGiven (s : State) : State := ((s.put Fld.dbgStsLevel 1).put Fld.dbgStsScope (s.reg .dbgResp 50).toNat).put Fld.dbgStsFails 0

/-- A failure counted toward the tamper latch. -/
def failCounted (s : State) : State :=
  if 4 ≤ (s.inc Fld.dbgStsFails).get Fld.dbgStsFails then (s.inc Fld.dbgStsFails).putFlag Fld.secStsTamper true else s.inc Fld.dbgStsFails

theorem verify_eq (s : State) : verify s = if verifyResult s = 1 then authGiven (verified s) else failCounted (verified s) := rfl

theorem verifyResult_lt (s : State) : verifyResult s < 16 := by
  unfold verifyResult
  dsimp only
  split
  · decide
  · split_ifs <;> decide

/-- A field of DBG_STS apart from RESULT and CHAL. -/
theorem get_verified (s : State) {f : Fld} (h1 : f.hi < Fld.dbgStsResult.lo ∨ Fld.dbgStsResult.hi < f.lo)
    (h2 : f.hi < Fld.dbgStsChal.lo ∨ Fld.dbgStsChal.hi < f.lo) (hf : f.hi < 32) : (verified s).get f = s.get f := by
  rw [verified, get_dropChallenge _ h2 hf, s.get_put_field h1 hf]

theorem verified_result (s : State) : (verified s).get Fld.dbgStsResult = verifyResult s := by
  rw [verified, get_dropChallenge _ (by decide) (by decide), s.get_put_same _ (by decide)]
  exact Nat.mod_eq_of_lt (verifyResult_lt s)

theorem verified_tampered (s : State) : tampered (verified s) = tampered s := by
  have hreg : (verified s).reg .secSts 0 = s.reg .secSts 0 := by
    rw [verified, otherRegs_dropChallenge _ _ _ (by decide), s.reg_put_kind (by decide)]
  rw [tampered, tampered, State.flag, State.flag, State.get, State.get]
  exact congrArg (fun w => Fld.secStsTamper.get w != 0) hreg

theorem verified_resp (s : State) : (verified s).reg .dbgResp 50 = s.reg .dbgResp 50 := by
  rw [verified, otherRegs_dropChallenge _ _ _ (by decide), s.reg_put_kind (by decide)]

theorem failCounted_rest (s : State) : failCounted s = { s with regs := (failCounted s).regs } := by
  unfold failCounted
  split <;> rfl

theorem verify_sec (s : State) : (verify s).sec = { s.sec with chal := none } := by
  rw [verify_eq]
  split
  · rfl
  · rw [failCounted_rest]
    rfl

theorem verify_resps (s : State) : (verify s).resps = s.resps := by
  rw [verify_eq]
  split
  · rfl
  · rw [failCounted_rest]
    rfl

/-- RESULT and CHAL stand through what follows the result. -/
theorem get_authGiven (s : State) {f : Fld} (h1 : f.hi < Fld.dbgStsLevel.lo ∨ Fld.dbgStsLevel.hi < f.lo)
    (h2 : f.hi < Fld.dbgStsScope.lo ∨ Fld.dbgStsScope.hi < f.lo) (h3 : f.hi < Fld.dbgStsFails.lo ∨ Fld.dbgStsFails.hi < f.lo) (hf : f.hi < 32) :
    (authGiven s).get f = s.get f := by
  rw [authGiven, State.get_put_field _ h3 hf, State.get_put_field _ h2 hf, State.get_put_field _ h1 hf]

theorem get_failCounted (s : State) {f : Fld} (hk : f.kind = .dbgSts) (h : f.hi < Fld.dbgStsFails.lo ∨ Fld.dbgStsFails.hi < f.lo) (hf : f.hi < 32) :
    (failCounted s).get f = s.get f := by
  unfold failCounted
  split
  · rw [State.get_putFlag_kind _ (by rw [hk]; decide), State.get_inc_field _ h hf]
  · exact State.get_inc_field _ h hf _ _ _

theorem fails_inc (s : State) : (s.inc Fld.dbgStsFails).get Fld.dbgStsFails = min 15 (s.get Fld.dbgStsFails + 1) := s.get_inc_same _ (by decide) _ _

theorem fails_failCounted (s : State) : (failCounted s).get Fld.dbgStsFails = min 15 (s.get Fld.dbgStsFails + 1) := by
  unfold failCounted
  split
  · rw [State.get_putFlag_kind _ (by decide), fails_inc]
  · exact fails_inc s

/-- R635: the fourth failure in a row sets the tamper latch. -/
theorem tampered_failCounted (s : State) : tampered (failCounted s) = (tampered s || decide (3 ≤ s.get Fld.dbgStsFails)) := by
  unfold failCounted
  rw [fails_inc]
  split
  next h =>
    have hthree : 3 ≤ s.get Fld.dbgStsFails := by omega
    rw [tampered, State.flag_putFlag _ Fld.secStsTamper rfl (by decide), decide_eq_true hthree, Bool.or_true]
  next h =>
    have hthree : ¬ 3 ≤ s.get Fld.dbgStsFails := by omega
    rw [tampered, s.flag_inc_kind (by decide), decide_eq_false hthree, Bool.or_false, tampered]

theorem verify_result (s : State) : (verify s).get Fld.dbgStsResult = verifyResult s := by
  rw [verify_eq]
  split
  · rw [get_authGiven _ (by decide) (by decide) (by decide) (by decide), verified_result]
  · rw [get_failCounted _ rfl (by decide) (by decide), verified_result]

theorem verify_chal (s : State) : (verify s).flag Fld.dbgStsChal = false := by
  have hdrop : (verified s).flag Fld.dbgStsChal = false := dropChallenge_flag _
  rw [State.flag] at hdrop
  rw [State.flag, verify_eq]
  split
  · rw [get_authGiven _ (by decide) (by decide) (by decide) (by decide)]
    exact hdrop
  · rw [get_failCounted _ rfl (by decide) (by decide)]
    exact hdrop

/-- R634: a VERIFY that passes every check. -/
theorem verify_pass {s : State} (h : verifyResult s = 1) :
    debugLevel (verify s) = 1 ∧ (verify s).get Fld.dbgStsScope = (s.reg .dbgResp 50).toNat % 65536 ∧ (verify s).get Fld.dbgStsFails = 0 := by
  rw [verify_eq, if_pos h, ← verified_resp]
  generalize verified s = t
  refine ⟨?_, ?_, ?_⟩
  · rw [debugLevel, authGiven, State.get_put_field _ (by decide) (by decide), State.get_put_field _ (by decide) (by decide),
      State.get_put_same _ _ (by decide)]
    rfl
  · rw [authGiven, State.get_put_field _ (by decide) (by decide), State.get_put_same _ _ (by decide)]
    rfl
  · rw [authGiven, State.get_put_same _ _ (by decide)]
    rfl

theorem verify_fail {s : State} (h : verifyResult s ≠ 1) :
    debugLevel (verify s) = debugLevel s ∧ (verify s).get Fld.dbgStsFails = min 15 (s.get Fld.dbgStsFails + 1) ∧
      tampered (verify s) = (tampered s || decide (3 ≤ s.get Fld.dbgStsFails)) := by
  have hfails : (verified s).get Fld.dbgStsFails = s.get Fld.dbgStsFails := get_verified s (by decide) (by decide) (by decide)
  rw [verify_eq, if_neg h]
  refine ⟨?_, ?_, ?_⟩
  · rw [debugLevel, get_failCounted _ rfl (by decide) (by decide), get_verified _ (by decide) (by decide) (by decide), debugLevel]
  · rw [fails_failCounted, hfails]
  · rw [tampered_failCounted, hfails, verified_tampered]

theorem verifyResult_noChal {s : State} (h : s.sec.chal = none) : verifyResult s = 2 := by
  simp only [verifyResult, h]

/-! ## CLOSE and OPEN -/

theorem dbgClose_level (s : State) : debugLevel (dbgClose s) = if debugLevel s = 1 then 0 else debugLevel s := by
  unfold dbgClose
  split
  · rw [debugLevel, State.get_put_field _ (by decide) (by decide), State.get_put_same _ _ (by decide)]
    rfl
  · rfl

theorem otherRegs_dbgClose (s : State) : OtherRegs s (dbgClose s) .dbgSts 0 := by
  unfold dbgClose
  split
  · exact (otherRegs_put s Fld.dbgStsLevel 0 0).trans (otherRegs_put _ Fld.dbgStsScope 0 0)
  · exact fun _ _ _ => rfl

theorem dbgClose_rest (s : State) : dbgClose s = { s with regs := (dbgClose s).regs } := by
  unfold dbgClose
  split <;> rfl

/-- The registers and keys zeroized, the level opened. -/
def openedLevel (s : State) : State := s.zeroize.put Fld.dbgStsLevel 2

/-- The firebox core's registers as it halts. -/
def haltShown (s : State) : State :=
  ((s.putFlag Fld.dbgFbxCtlHalt true).putFlag Fld.dbgFbxCtlHalted true).put Fld.dbgFbxCtlPc s.sec.fbxPc.toNat

/-- The firebox core halted, and its watchdog with it. -/
def fbxStopped (s : State) : State := { s with sec := { s.sec with fbxHalted := true }, pwr := { s.pwr with wdog := Tab.del 0 s.pwr.wdog } }

theorem dbgOpen_pos {s : State} (h : lifecycle s = lcManufacture ∧ tampered s = false) : dbgOpen s = fbxStopped (haltShown (openedLevel s)) := by
  unfold dbgOpen
  rw [if_pos (by simpa using h)]
  rfl

theorem dbgOpen_neg {s : State} (h : lifecycle s ≠ lcManufacture ∨ tampered s = true) : dbgOpen s = s := by
  unfold dbgOpen
  rw [if_neg]
  rintro ⟨h1, h2⟩
  rcases h with h | h
  · exact h h1
  · rw [h] at h2
    exact absurd h2 (by decide)

/-- The keys zeroized, the flags that follow, and the challenge registers cleared. -/
theorem zeroize_eq (s : State) :
    s.zeroize = State.setChal ((State.putFlag { s with sec := zeroAll s.sec } Fld.dbgStsChal false).putFlag Fld.secStsRbgOk false) 0 := rfl

theorem zeroize_sec (s : State) : s.zeroize.sec = zeroAll s.sec := by
  rw [zeroize_eq, State.setChal_sec]
  rfl

theorem zeroize_resps (s : State) : s.zeroize.resps = s.resps := by
  rw [zeroize_eq, State.setChal_resps]
  rfl

theorem openedLevel_sec (s : State) : (openedLevel s).sec = zeroAll s.sec := zeroize_sec s
theorem openedLevel_resps (s : State) : (openedLevel s).resps = s.resps := zeroize_resps s
theorem haltShown_sec (s : State) : (haltShown s).sec = s.sec := rfl
theorem haltShown_resps (s : State) : (haltShown s).resps = s.resps := rfl
theorem fbxStopped_regs (s : State) : (fbxStopped s).regs = s.regs := rfl
theorem fbxStopped_resps (s : State) : (fbxStopped s).resps = s.resps := rfl
theorem fbxStopped_sec (s : State) : (fbxStopped s).sec = { s.sec with fbxHalted := true } := rfl

/-- R636: OPEN in MANUFACTURE with the latch clear. -/
theorem dbgOpen_registers {s : State} (h : lifecycle s = lcManufacture ∧ tampered s = false) :
    debugLevel (dbgOpen s) = 2 ∧ (dbgOpen s).flag Fld.dbgFbxCtlHalted = true := by
  rw [dbgOpen_pos h]
  refine ⟨?_, ?_⟩
  · rw [debugLevel, State.get_of_regs (fbxStopped_regs _), haltShown, State.get_put_kind _ (by decide), State.get_putFlag_kind _ (by decide),
      State.get_putFlag_kind _ (by decide), openedLevel, State.get_put_same _ _ (by decide)]
    rfl
  · rw [State.flag_of_regs (fbxStopped_regs _), haltShown, State.flag_put_field _ (by decide) (by decide)]
    exact State.flag_putFlag _ Fld.dbgFbxCtlHalted rfl (by decide) true 0

theorem dbgOpen_sec {s : State} (h : lifecycle s = lcManufacture ∧ tampered s = false) : (dbgOpen s).sec = { zeroAll s.sec with fbxHalted := true } := by
  rw [dbgOpen_pos h, fbxStopped_sec, haltShown_sec, openedLevel_sec]

theorem dbgOpen_resps (s : State) : (dbgOpen s).resps = s.resps := by
  by_cases h : lifecycle s = lcManufacture ∧ tampered s = false
  · rw [dbgOpen_pos h]
    rw [fbxStopped_resps, haltShown_resps, openedLevel_resps]
  · rw [dbgOpen_neg]
    simpa [or_iff_not_imp_left] using h

/-! ## The firebox core -/

/-- DBG_FBX_CTL as a halted core shows it. -/
def fbxShown (pc : BitVec 19) (s : State) : State := (s.putFlag Fld.dbgFbxCtlHalted true).put Fld.dbgFbxCtlPc pc.toNat

theorem otherRegs_fbxShown (pc : BitVec 19) (s : State) : OtherRegs s (fbxShown pc s) .dbgFbxCtl 0 :=
  (otherRegs_putFlag s Fld.dbgFbxCtlHalted true 0).trans (otherRegs_put _ Fld.dbgFbxCtlPc _ 0)

theorem pc_fbxShown (pc : BitVec 19) (s : State) : (fbxShown pc s).get Fld.dbgFbxCtlPc = pc.toNat := by
  rw [fbxShown, State.get_put_same _ _ (by decide)]
  exact Nat.mod_eq_of_lt pc.isLt

/-- The core held at an address, its watchdog stopped. -/
def fbxHeld (pc : BitVec 19) (s : State) : State :=
  { s with sec := { s.sec with fbxHalted := true, fbxPc := pc }, pwr := { s.pwr with wdog := Tab.del 0 s.pwr.wdog } }

theorem fbxCtlWrite_halt {s : State} {w : Word} (h : Fld.dbgFbxCtlHalt.get w = 1) (hstep : s.sec.fbxHalted = false ∨ Fld.dbgFbxCtlStep.get w = 1)
    (pc : BitVec 19) : fbxCtlWrite w pc s = fbxShown pc (fbxHeld pc (s.plainWrite .dbgFbxCtl 0 w)) := by
  have hpc : ((s.plainWrite .dbgFbxCtl 0 w).sec.fbxHalted && Fld.dbgFbxCtlStep.get w = 0) = false := by
    have hsec : (s.plainWrite .dbgFbxCtl 0 w).sec = s.sec := rfl
    rcases hstep with h | h <;> simp [hsec, h]
  unfold fbxCtlWrite
  simp only [h, if_true, hpc, Bool.false_eq_true, if_false]
  rfl

theorem fbxCtlWrite_resps (w : Word) (pc : BitVec 19) (s : State) : (fbxCtlWrite w pc s).resps = s.resps := by
  unfold fbxCtlWrite
  dsimp only
  split <;> rfl

/-- What a halt or a step leaves. -/
theorem fbxCtlWrite_held {s : State} {w : Word} (h : Fld.dbgFbxCtlHalt.get w = 1) (hstep : s.sec.fbxHalted = false ∨ Fld.dbgFbxCtlStep.get w = 1)
    (pc : BitVec 19) :
    (fbxCtlWrite w pc s).sec = { s.sec with fbxHalted := true, fbxPc := pc } ∧ (fbxCtlWrite w pc s).get Fld.dbgFbxCtlPc = pc.toNat ∧
      OtherRegs s (fbxCtlWrite w pc s) .dbgFbxCtl 0 := by
  rw [fbxCtlWrite_halt h hstep]
  have hheld : OtherRegs (s.plainWrite .dbgFbxCtl 0 w) (fbxHeld pc (s.plainWrite .dbgFbxCtl 0 w)) .dbgFbxCtl 0 := fun _ _ _ => rfl
  exact ⟨rfl, pc_fbxShown pc _, ((otherRegs_plainWrite s .dbgFbxCtl 0 w).trans hheld).trans (otherRegs_fbxShown pc _)⟩

theorem fbxCtlWrite_run {w : Word} (h : Fld.dbgFbxCtlHalt.get w = 0) (pc : BitVec 19) (s : State) :
    (fbxCtlWrite w pc s).sec.fbxHalted = false ∧ (fbxCtlWrite w pc s).flag Fld.dbgFbxCtlHalted = false := by
  unfold fbxCtlWrite
  simp only [h, Nat.zero_ne_one, if_false]
  refine ⟨rfl, ?_⟩
  rw [State.flag_put_field _ (by decide) (by decide)]
  exact State.flag_putFlag _ Fld.dbgFbxCtlHalted rfl (by decide) false 0

theorem exec_dbgFbxHalt {s : State} {r : Req} {w : Word} (hw : Written s r .dbgFbxCtl 0 w) (hs : Steady s) (pc : BitVec 19) :
    exec (.dbgFbxHalt r w pc) s = .next ((fbxCtlWrite w pc s).respondWrite r .ok) :=
  congrArg Host.Outcome.next (regWrite_pass hw hs _)

theorem exec_dbgFbxStep {s : State} {r : Req} {w : Word} (hw : Written s r .dbgFbxCtl 0 w) (hs : Steady s) (hstep : Fld.dbgFbxCtlStep.get w = 1)
    (pc : BitVec 19) : exec (.dbgFbxStep r w pc) s = .next ((fbxCtlWrite w pc s).respondWrite r .ok) := by
  show execDbgFbxStep r w pc s = _
  simp only [execDbgFbxStep, hstep, decide_true, onlyIf_true, regWrite_pass hw hs]

/-- The state after a write whose effect changes nothing. -/
theorem respondWrite_nothing (s : State) (r : Req) : s.respondWrite r .ok = { s with resps := okSent s r } := by
  rw [State.respondWrite_eq]
  rfl

theorem debugLevel_respondWrite (s : State) (r : Req) (c : RCode) : debugLevel (s.respondWrite r c) = debugLevel s := s.get_respondWrite r c _ 0
theorem tampered_respondWrite (s : State) (r : Req) (c : RCode) : tampered (s.respondWrite r c) = tampered s := s.flag_respondWrite r c _ 0

/-- Settles O25: each action of DBG_CTL by its own equation, and the firebox core's halt and step. -/
theorem debugLevels : Obligations.DebugLevels := by
  refine ⟨fun s r w rnd hw hs => ⟨fun ⟨hone, hrest⟩ => ?_, fun ⟨hone, hrest⟩ => ?_, fun ⟨hone, hrest⟩ => ?_, fun ⟨hone, hrest⟩ => ?_⟩,
    fun s c hon hc hdue => ?_, fun s r w pc hw hs => ⟨fun hh hrun => ?_, fun hh => ?_, fun hh hstep hhalt => ?_⟩⟩
  · have heff := dbgCtlWrite_one (by decide) hone hrest rnd s
    rw [if_pos rfl] at heff
    refine ⟨_, exec_dbgNewchal hw hs hone, ?_⟩
    rw [heff, State.respondWrite_sec, State.flag_respondWrite]
    refine ⟨respondWrite_resps_of_eq (newChal_resps rnd s) r, rfl, State.flag_putFlag _ Fld.dbgStsChal rfl (by decide) true 0, fun j hj => ?_, fun k j h1 h2 => ?_⟩
    · rw [State.reg_respondWrite, newChal_chal rnd s hj]
    · rw [State.reg_respondWrite, newChal_reg rnd s h1 h2]
  · have heff := dbgCtlWrite_one (by decide) hone hrest rnd s
    rw [if_neg (by decide), if_pos rfl] at heff
    refine ⟨_, exec_dbgVerify hw hs hone, ?_⟩
    rw [heff, State.respondWrite_sec, State.flag_respondWrite, State.get_respondWrite, State.get_respondWrite, State.get_respondWrite,
      debugLevel_respondWrite, tampered_respondWrite]
    exact ⟨respondWrite_resps_of_eq (verify_resps s) r, verify_sec s, verify_chal s, verify_result s, verifyResult_noChal, verify_pass, verify_fail⟩
  · have heff := dbgCtlWrite_one (by decide) hone hrest rnd s
    rw [if_neg (by decide), if_neg (by decide), if_pos rfl] at heff
    refine ⟨_, exec_dbgClose hw hs hone, ?_⟩
    rw [heff, State.respondWrite_sec, debugLevel_respondWrite]
    have hrest := dbgClose_rest s
    exact ⟨respondWrite_resps_of_eq (by rw [hrest]) r, (otherRegs_dbgClose s).respondWrite r _, by rw [hrest], dbgClose_level s⟩
  · have heff := dbgCtlWrite_one (by decide) hone hrest rnd s
    rw [if_neg (by decide), if_neg (by decide), if_neg (by decide)] at heff
    refine ⟨_, exec_dbgOpen hw hs hone, ?_⟩
    rw [heff, State.respondWrite_sec, debugLevel_respondWrite, State.flag_respondWrite]
    refine ⟨respondWrite_resps_of_eq (dbgOpen_resps s) r, fun h => ?_, fun h => ?_⟩
    · obtain ⟨hlevel, hflag⟩ := dbgOpen_registers h
      rw [dbgOpen_sec h]
      exact ⟨hlevel, rfl, hflag, rfl, rfl, rfl, rfl, rfl, rfl, rfl, rfl⟩
    · rw [dbgOpen_neg h]
      exact respondWrite_nothing s r
  · refine ⟨s.dropChallenge, ?_, dropChallenge_sec s, dropChallenge_flag s, otherRegs_dropChallenge s⟩
    show execChallengeExpiry s = _
    simp only [execChallengeExpiry, hc, hon, hdue, decide_true, Bool.and_self, onlyIf_true]
  · obtain ⟨hsec, hpc, hregs⟩ := fbxCtlWrite_held hh (.inl hrun) pc
    refine ⟨_, exec_dbgFbxHalt hw hs pc, respondWrite_resps_of_eq (fbxCtlWrite_resps w pc s) r, ?_, ?_, hregs.respondWrite r _⟩
    · rw [State.respondWrite_sec, hsec]
    · rw [State.get_respondWrite, hpc]
  · obtain ⟨hsec, hflag⟩ := fbxCtlWrite_run hh pc s
    refine ⟨_, exec_dbgFbxHalt hw hs pc, ?_, ?_⟩
    · rw [State.respondWrite_sec, hsec]
    · rw [State.flag_respondWrite, hflag]
  · obtain ⟨hsec, hpc, hregs⟩ := fbxCtlWrite_held hh (.inr hstep) pc
    refine ⟨_, exec_dbgFbxStep hw hs hstep pc, ?_, ?_, hregs.respondWrite r _⟩
    · rw [State.respondWrite_sec, hsec, ← hhalt]
    · rw [State.get_respondWrite, hpc]

end Sys2Proof.Machine
end

section
/-! PROOFS. Zeroization, lifecycle transitions and sanitize (R614, R628, R629, R637, R638). -/

namespace Sys2Proof.Machine

/-! ## Zeroization -/

theorem zeroWrite_go {w : Word} (h1 : Fld.secZeroGo.get w = 1) (h2 : Fld.secZeroConfirm.get w = 0x5A45) (s : State) :
    zeroWrite w s = s.zeroize.bankNamed 9 [] := if_pos ⟨h1, h2⟩

theorem zeroize_chal (s : State) {j : Nat} (h : j < 12) : s.zeroize.reg .dbgChal j = 0 := by
  rw [zeroize_eq, State.reg_setChal_same _ _ h]
  simp

theorem zeroize_banked (s : State) : s.zeroize.banked = s.banked := by
  rw [State.banked, zeroize_eq, State.flag_setChal _ _ (by decide), State.flag_putFlag_kind _ (by decide), State.flag_putFlag_kind _ (by decide)]
  rfl

theorem exec_zeroize {s : State} {r : Req} {w : Word} (hw : Written s r .secZero 0 w) (hs : Steady s) :
    exec (.zeroize r w) s = .next ((zeroWrite w s).respondWrite r .ok) := congrArg Host.Outcome.next (regWrite_pass hw hs _)

/-! ## Lifecycle transitions -/

/-- A permitted transition: the marks burned, LC_NEXT and LC_PEND shown. -/
def lcBurned (w : Word) (s : State) : State :=
  let s := s.plainWrite .secLcCtl 0 w
  let s : State := { s with sec := { s.sec with row := burnMarks (Fld.secLcCtlTarget.get w) s.sec.row } }
  (s.put Fld.secStsLcNext (Fld.secLcCtlTarget.get w)).putFlag Fld.secStsLcPend true

/-- The keys zeroized and data service ended. -/
def dataEnded (s : State) : State := { s with sec := { zeroKeys s.sec with dataEnded := true } }

theorem lcWrite_good {w : Word} {s : State}
    (h : Fld.secLcCtlGo.get w = 1 ∧ Fld.secLcCtlConfirm.get w = 0x4C43 ∧ lcAllowed (lifecycle s) (Fld.secLcCtlTarget.get w) = true) (r : Req) :
    lcWrite r w s = if Fld.secLcCtlTarget.get w = lcSecured then lcBurned w s else dataEnded (lcBurned w s) := if_pos h

theorem lcWrite_refused {w : Word} {s : State}
    (h : ¬(Fld.secLcCtlGo.get w = 1 ∧ Fld.secLcCtlConfirm.get w = 0x4C43 ∧ lcAllowed (lifecycle s) (Fld.secLcCtlTarget.get w) = true)) (r : Req) :
    lcWrite r w s = if r.src = 0x01 then s.putFlag Fld.secAccStsRefused true else s.noteRefused r.src (RegKind.secLcCtl.offset 0) := if_neg h

theorem lcBurned_sec (w : Word) (s : State) : (lcBurned w s).sec = { s.sec with row := burnMarks (Fld.secLcCtlTarget.get w) s.sec.row } := rfl
theorem lcBurned_resps (w : Word) (s : State) : (lcBurned w s).resps = s.resps := rfl
theorem dataEnded_regs (s : State) : (dataEnded s).regs = s.regs := rfl

theorem lcBurned_banked (w : Word) (s : State) : (lcBurned w s).banked = s.banked := by
  rw [State.banked, lcBurned, State.flag_putFlag_kind _ (by decide), State.flag_put_kind _ (by decide)]
  exact s.flag_setReg_kind (by decide) _ _ _

theorem lcBurned_lifecycle (w : Word) (s : State) : lifecycle (lcBurned w s) = lifecycle s := by
  rw [lifecycle, lcBurned, State.get_putFlag_field _ (by decide) (by decide), State.get_put_field _ (by decide) (by decide)]
  exact s.get_setReg_kind (by decide) _ _ _

theorem lcBurned_pend (w : Word) (s : State) : (lcBurned w s).flag Fld.secStsLcPend = true := State.flag_putFlag _ Fld.secStsLcPend rfl (by decide) true 0

theorem lcBurned_next (w : Word) (s : State) : (lcBurned w s).get Fld.secStsLcNext = Fld.secLcCtlTarget.get w := by
  rw [lcBurned, State.get_putFlag_field _ (by decide) (by decide), State.get_put_same _ _ (by decide)]
  exact Nat.mod_eq_of_lt (Fld.get_lt _ w)

theorem exec_lifecycleTransition {s : State} {r : Req} {w : Word} (hw : Written s r .secLcCtl 0 w) (hs : Steady s) :
    exec (.lifecycleTransition r w) s = .next ((lcWrite r w s).respondWrite r .ok) := congrArg Host.Outcome.next (regWrite_pass hw hs _)

theorem lifecycle_of_reg {s t : State} (h : t.reg .secSts 0 = s.reg .secSts 0) : lifecycle t = lifecycle s := congrArg Fld.secStsLc.get h

/-- What a permitted transition shows and burns. -/
theorem lcWrite_good_spec {w : Word} {s : State} {r : Req}
    (h : Fld.secLcCtlGo.get w = 1 ∧ Fld.secLcCtlConfirm.get w = 0x4C43 ∧ lcAllowed (lifecycle s) (Fld.secLcCtlTarget.get w) = true) :
    (lcWrite r w s).resps = s.resps ∧ lifecycle (lcWrite r w s) = lifecycle s ∧ (lcWrite r w s).flag Fld.secStsLcPend = true ∧
      (lcWrite r w s).get Fld.secStsLcNext = Fld.secLcCtlTarget.get w ∧ (lcWrite r w s).banked = s.banked ∧
      (lcWrite r w s).sec = if Fld.secLcCtlTarget.get w = lcSecured then { s.sec with row := burnMarks (Fld.secLcCtlTarget.get w) s.sec.row }
        else { zeroKeys s.sec with dataEnded := true, row := burnMarks (Fld.secLcCtlTarget.get w) s.sec.row } := by
  rw [lcWrite_good h]
  split
  · exact ⟨lcBurned_resps w s, lcBurned_lifecycle w s, lcBurned_pend w s, lcBurned_next w s, lcBurned_banked w s, lcBurned_sec w s⟩
  · exact ⟨lcBurned_resps w s, lcBurned_lifecycle w s, lcBurned_pend w s, lcBurned_next w s, lcBurned_banked w s, rfl⟩

theorem lcWrite_refused_spec {w : Word} {s : State} {r : Req}
    (h : ¬(Fld.secLcCtlGo.get w = 1 ∧ Fld.secLcCtlConfirm.get w = 0x4C43 ∧ lcAllowed (lifecycle s) (Fld.secLcCtlTarget.get w) = true)) :
    lcWrite r w s = { s with regs := (lcWrite r w s).regs } ∧ (lcWrite r w s).flag Fld.secAccStsRefused = true ∧
      ∀ k j, k ≠ .secAccSts → k ≠ .secAccOfs → (lcWrite r w s).reg k j = s.reg k j := by
  rw [lcWrite_refused h]
  split
  · exact ⟨rfl, State.flag_putFlag s Fld.secAccStsRefused rfl (by decide) true 0, fun k j h1 _ => s.reg_putFlag_kind h1 _ _ _⟩
  next hsrc => exact ⟨noteRefused_rest s _ _, flag_noteRefused_class hsrc s _, fun k j h1 h2 => reg_noteRefused_class hsrc s h1 h2 _ j⟩

/-! ## Sanitize -/

/-- A sanitize begun: its registers. -/
def sanBegun (w : Word) (s : State) : State :=
  (((s.plainWrite .secSanCtl 0 w).putFlag Fld.secSanStsActive true).put Fld.secSanStsPhase 0).put Fld.secSanStsUnits 0

/-- EXHAUSTED shown where no EPOCH bit is left. -/
def exhaustShown (s : State) : State :=
  if s.flag Fld.secSanCtlCrypto ∧ countOnes s.sec.row.epoch = 32 then s.putFlag Fld.secSanStsExhausted true else s

theorem sanWrite_go {w : Word} {s : State} (ha : s.flag Fld.secSanStsActive = false) (h1 : Fld.secSanCtlGo.get w = 1)
    (h2 : Fld.secSanCtlConfirm.get w = 0x5A4E) : sanWrite w s = setHalt Fld.slqHaltHalt.max (exhaustShown (sanBegun w s)) := by
  unfold sanWrite
  rw [if_neg (by simp [ha])]
  dsimp only
  rw [if_pos ⟨h1, h2⟩]
  rfl

theorem setHalt_regs (h : Nat) (s : State) : (setHalt h s).regs = (s.put Fld.slqHaltHalt h).regs := rfl
theorem setHalt_resps (h : Nat) (s : State) : (setHalt h s).resps = s.resps := rfl

theorem exhaustShown_resps (s : State) : (exhaustShown s).resps = s.resps := by
  unfold exhaustShown
  split <;> rfl

/-- EXHAUSTED aside, the registers stand. -/
theorem get_exhaustShown (s : State) {f : Fld} (h : f.kind ≠ .secSanSts ∨ f.hi < Fld.secSanStsExhausted.lo ∨ Fld.secSanStsExhausted.hi < f.lo) (hf : f.hi < 32) :
    (exhaustShown s).get f = s.get f := by
  unfold exhaustShown
  split
  · rcases h with h | h
    · exact s.get_putFlag_kind h _ _ _
    · exact s.get_putFlag_field h hf _ _ _
  · rfl

theorem get_setHalt (s : State) {f : Fld} (h : f.kind ≠ .slqHalt) (n : Nat) : (setHalt n s).get f = s.get f := by
  rw [State.get_of_regs (setHalt_regs n s), s.get_put_kind h]

theorem get_sanBegun_ctl (w : Word) (s : State) {f : Fld} (hk : f.kind = .secSanCtl) (hf : f.hi < 32)
    (hrw : f.kind.maskOf .rw &&& f.mask = f.mask) (hw1c : f.kind.maskOf .w1c &&& f.mask = 0) (hw1s : f.kind.maskOf .w1s &&& f.mask = 0) :
    (sanBegun w s).get f = f.get w := by
  have hne : f.kind ≠ .secSanSts := by rw [hk]; decide
  rw [sanBegun, State.get_put_kind _ hne, State.get_put_kind _ hne, State.get_putFlag_kind _ hne, ← hk]
  exact s.get_plainWrite_rw f hf hrw hw1c hw1s 0 w

theorem exec_sanitizeStart {s : State} {r : Req} {w : Word} (hw : Written s r .secSanCtl 0 w) (hs : Steady s) :
    exec (.sanitizeStart r w) s = .next ((sanWrite w s).respondWrite r .ok) := congrArg Host.Outcome.next (regWrite_pass hw hs _)

/-- R629: what a sanitize's start shows. -/
theorem sanWrite_spec {w : Word} {s : State} (ha : s.flag Fld.secSanStsActive = false) (h1 : Fld.secSanCtlGo.get w = 1)
    (h2 : Fld.secSanCtlConfirm.get w = 0x5A4E) :
    (sanWrite w s).resps = s.resps ∧ (sanWrite w s).flag Fld.secSanStsActive = true ∧ (sanWrite w s).get Fld.secSanStsPhase = 0 ∧
      (sanWrite w s).get Fld.slqHaltHalt = 15 ∧ (sanWrite w s).get Fld.secSanCtlCrypto = Fld.secSanCtlCrypto.get w ∧
      (sanWrite w s).get Fld.secSanCtlBlock = Fld.secSanCtlBlock.get w := by
  rw [sanWrite_go ha h1 h2]
  refine ⟨?_, ?_, ?_, ?_, ?_, ?_⟩
  · rw [setHalt_resps, exhaustShown_resps]
    rfl
  · rw [State.flag, get_setHalt _ (by decide), get_exhaustShown _ (by decide) (by decide), sanBegun, State.get_put_field _ (by decide) (by decide),
      State.get_put_field _ (by decide) (by decide)]
    exact State.flag_putFlag _ Fld.secSanStsActive rfl (by decide) true 0
  · rw [get_setHalt _ (by decide), get_exhaustShown _ (by decide) (by decide), sanBegun, State.get_put_field _ (by decide) (by decide),
      State.get_put_same _ _ (by decide)]
    rfl
  · rw [State.get_of_regs (setHalt_regs _ _), State.get_put_same _ _ (by decide)]
    rfl
  · rw [get_setHalt _ (by decide), get_exhaustShown _ (by decide) (by decide), get_sanBegun_ctl w s rfl (by decide) (by decide) (by decide) (by decide)]
  · rw [get_setHalt _ (by decide), get_exhaustShown _ (by decide) (by decide), get_sanBegun_ctl w s rfl (by decide) (by decide) (by decide) (by decide)]

/-! ## The phases -/

/-- The namespaces whose register a state holds. -/
def listedNs (s : State) : List Nat := (s.regs.filter fun e => e.1 % 256 == RegKind.secNsCtl.ctorIdx).map fun e => e.1 / 256

theorem sanDrain_noCopies {s : State} (h : s.wp.own = []) :
    sanDrain s = (listedNs s).foldl (fun s n => s.putFlag Fld.secNsCtlValid false n) s := by
  unfold sanDrain
  rw [h]
  rfl

/-- A namespace with a register of its own, or one that never was valid, is not valid after VALID has been cleared in all. -/
theorem foldl_clearValid : ∀ (l : List Nat) (s : State) (n : Nat), n ∈ l ∨ s.flag Fld.secNsCtlValid n = false →
    (l.foldl (fun s n => s.putFlag Fld.secNsCtlValid false n) s).flag Fld.secNsCtlValid n = false := by
  intro l
  induction l with
  | nil => exact fun s n h => h.resolve_left List.not_mem_nil
  | cons a l ih =>
    intro s n h
    refine ih _ n ?_
    by_cases ha : n = a
    · right
      rw [ha]
      exact State.flag_putFlag s Fld.secNsCtlValid rfl (by decide) false a
    · rcases h with h | h
      · exact .inl ((List.mem_cons.mp h).resolve_left ha)
      · right
        have hget : (s.putFlag Fld.secNsCtlValid false a).get Fld.secNsCtlValid n = s.get Fld.secNsCtlValid n := s.get_put_index ha _ _ _
        rw [State.flag, hget]
        exact h

/-- A namespace that no register lists has the reset word, in which VALID is 0. -/
theorem listed_or_invalid (s : State) (n : Nat) : n ∈ listedNs s ∨ s.flag Fld.secNsCtlValid n = false := by
  cases hf : Tab.find (regKey .secNsCtl n) s.regs with
  | none =>
    right
    have hreg : s.reg .secNsCtl n = RegKind.resetWord .secNsCtl := by
      rw [State.reg, Tab.get, hf]
      rfl
    rw [State.flag, State.get, show Fld.secNsCtlValid.kind = .secNsCtl from rfl, hreg]
    decide
  | some v =>
    left
    refine List.mem_map.mpr ⟨_, List.mem_filter.mpr ⟨Tab.mem_of_find hf, ?_⟩, ?_⟩
    · have hmod : regKey .secNsCtl n % 256 = RegKind.secNsCtl.ctorIdx := by
        have hlt : RegKind.secNsCtl.ctorIdx < 256 := by decide
        rw [regKey]
        omega
      exact beq_iff_eq.mpr hmod
    · have hlt : RegKind.secNsCtl.ctorIdx < 256 := by decide
      show regKey .secNsCtl n / 256 = n
      rw [regKey]
      omega

theorem sanDrain_valid {s : State} (h : s.wp.own = []) (n : Nat) : (sanDrain s).flag Fld.secNsCtlValid n = false := by
  rw [sanDrain_noCopies h]
  exact foldl_clearValid _ s n (listed_or_invalid s n)

/-- The end of a sanitize. -/
theorem sanDone_spec (s : State) : (sanDone s).flag Fld.secSanStsActive = false ∧ (sanDone s).flag Fld.secSanStsDone = true ∧ OtherRegs s (sanDone s) .secSanSts 0 := by
  refine ⟨?_, State.flag_putFlag _ Fld.secSanStsDone rfl (by decide) true 0,
    (otherRegs_putFlag s Fld.secSanStsActive false 0).trans (otherRegs_putFlag _ Fld.secSanStsDone true 0)⟩
  rw [sanDone, State.flag_putFlag_field _ (by decide) (by decide)]
  exact State.flag_putFlag s Fld.secSanStsActive rfl (by decide) false 0

section
variable {s : State} (b : Bool) (hrun : s.running = true) (ha : s.flag Fld.secSanStsActive = true) (hst : s.stage = 9)
include hrun ha hst

theorem sanitizePhaseEnd_crypto (hp : s.get Fld.secSanStsPhase = 0) (hq : s.reqs = []) (hj : s.mov.jobs = [])
    (hm : ∀ e ∈ s.mov.ctxs, e.2.job.path = .firmware) (hc : s.flag Fld.secSanCtlCrypto = true) (he : s.flag Fld.secSanStsExhausted = false) :
    exec (.sanitizePhaseEnd b) s = .next ((sanDrain s).put Fld.secSanStsPhase 1) := by
  have hall : (s.mov.ctxs.all fun e => e.2.job.path == .firmware) = true := List.all_eq_true.mpr fun e hmem => by rw [hm e hmem]; rfl
  show execSanitizePhaseEnd b s = _
  simp only [execSanitizePhaseEnd, hp, if_true, hrun, ha, hst, hq, hj, hall, hc, he, List.isEmpty_nil, Bool.not_false, Bool.and_self, Bool.true_or,
    beq_self_eq_true, onlyIf_true]

theorem sanitizePhaseEnd_map (hp : s.get Fld.secSanStsPhase = 2) (hno : s.sec.sanCkpt ≤ s.md.ckptNo) (hck : s.md.ckpt = none)
    (hb : s.flag Fld.secSanCtlBlock = false) : exec (.sanitizePhaseEnd b) s = .next (sanDone s) := by
  show execSanitizePhaseEnd b s = _
  unfold execSanitizePhaseEnd
  rw [hp]
  simp only [hrun, ha, hst, hck, hb, Nat.not_lt.mpr hno, Option.isNone_none, Bool.and_self, beq_self_eq_true, onlyIf_true, Bool.false_eq_true, if_false, if_true,
    OfNat.ofNat_ne_zero, OfNat.ofNat_ne_one]

theorem sanitizePhaseEnd_block (hp : s.get Fld.secSanStsPhase = 3) (hu : sanUnits s = []) (he : ∀ e ∈ s.md.luns, erasePending s e.1 = false) :
    exec (.sanitizePhaseEnd b) s = .next (sanDone s) := by
  have hall : (s.md.luns.all fun e => !erasePending s e.1) = true := List.all_eq_true.mpr fun e hmem => by rw [he e hmem]; rfl
  show execSanitizePhaseEnd b s = _
  unfold execSanitizePhaseEnd
  rw [hp]
  simp only [hrun, ha, hst, hu, hall, List.isEmpty_nil, Bool.and_self, beq_self_eq_true, onlyIf_true, if_false,
    OfNat.ofNat_ne_zero, OfNat.ofNat_ne_one, show ¬((3 : Nat) = 2) by decide]

end

/-- Settles O26: zeroization, the lifecycle's marks, and the phases of a sanitize. -/
theorem erasureAndLifecycle : Obligations.ErasureAndLifecycle := by
  refine ⟨fun s r w hw hs => ⟨fun h1 h2 hb => ?_, fun h => ?_⟩, fun s r w hw hs => ?_, fun s r w hw hs ha h1 h2 => ?_,
    fun s b hon hb ha hst => ?_⟩
  · have hzb : s.zeroize.banked = false := (zeroize_banked s).trans hb
    refine ⟨_, exec_zeroize hw hs, ?_⟩
    rw [zeroWrite_go h1 h2, State.respondWrite_sec, State.banked_respondWrite, State.get_respondWrite, bankNamed_sec, zeroize_sec]
    refine ⟨respondWrite_resps_of_eq ((bankNamed_resps _ _ _).trans (zeroize_resps s)) r, rfl, fun j hj => ?_, bankNamed_banked _ _ _,
      bankNamed_cause hzb (by decide) [], ?_⟩
    · rw [State.reg_respondWrite, State.reg_bankNamed _ (by decide), zeroize_chal s hj]
    · rw [State.stage, State.get_respondWrite]
      exact bankNamed_stage hzb 9 []
  · rw [exec_zeroize hw hs, zeroWrite, if_neg h, respondWrite_nothing]
  · refine ⟨_, exec_lifecycleTransition hw hs, ?_⟩
    by_cases hgood : Fld.secLcCtlGo.get w = 1 ∧ Fld.secLcCtlConfirm.get w = 0x4C43 ∧ lcAllowed (lifecycle s) (Fld.secLcCtlTarget.get w) = true
    · obtain ⟨hresps, hlc, hpend, hnext, hbank, hsec⟩ := lcWrite_good_spec (r := r) hgood
      refine ⟨respondWrite_resps_of_eq hresps r, ?_, fun _ => ⟨?_, ?_, ?_, fun htgt => ?_, fun htgt => ?_⟩, fun hbad => absurd hgood hbad⟩
      · rw [lifecycle, State.get_respondWrite]
        exact hlc
      · rw [State.flag_respondWrite, hpend]
      · rw [State.get_respondWrite, hnext]
      · rw [State.respondWrite_sec, hsec]
        split <;> rfl
      · rw [State.respondWrite_sec, hsec, if_pos htgt]
        exact ⟨rfl, rfl⟩
      · rw [State.respondWrite_sec, State.banked_respondWrite, hsec, if_neg htgt]
        exact ⟨rfl, rfl, rfl, rfl, rfl, hbank⟩
    · obtain ⟨hrest, hflag, hreg⟩ := lcWrite_refused_spec (r := r) hgood
      refine ⟨respondWrite_resps_of_eq (by rw [hrest]) r, ?_, fun hg => absurd hg hgood, fun _ => ⟨?_, ?_, fun k j h1 h2 => ?_⟩⟩
      · rw [lifecycle, State.get_respondWrite]
        exact lifecycle_of_reg (hreg .secSts 0 (by decide) (by decide))
      · rw [State.respondWrite_sec, hrest]
      · rw [State.flag_respondWrite, hflag]
      · rw [State.reg_respondWrite, hreg k j h1 h2]
  · obtain ⟨hresps, hact, hphase, hhalt, hcrypto, hblock⟩ := sanWrite_spec ha h1 h2
    refine ⟨_, exec_sanitizeStart hw hs, respondWrite_resps_of_eq hresps r, ?_⟩
    rw [State.flag_respondWrite, State.get_respondWrite, State.get_respondWrite, State.get_respondWrite, State.get_respondWrite]
    exact ⟨hact, hphase, hhalt, hcrypto, hblock⟩
  · have hrun : s.running = true := by rw [State.running, hon, hb]; rfl
    refine ⟨fun hp hq hj hm hown hc he => ?_, fun hp hno hck hblk => ?_, fun hp hu he => ?_⟩
    · refine ⟨_, sanitizePhaseEnd_crypto b hrun ha hst hp hq hj hm hc he, ?_, fun n => ?_⟩
      · rw [State.get_put_same _ _ (by decide)]
        rfl
      · rw [State.flag_put_kind _ (by decide)]
        exact sanDrain_valid hown n
    · exact ⟨_, sanitizePhaseEnd_map b hrun ha hst hp hno hck hblk, sanDone_spec s⟩
    · exact ⟨_, sanitizePhaseEnd_block b hrun ha hst hp hu he, sanDone_spec s⟩

end Sys2Proof.Machine
end

section
/-! PROOFS. Harvest rings: entries, look-aheads, moderation, doorbell, RETRY and HRV_MOD (R422, R442, R451 to R453, R457, R469). -/

namespace Sys2Proof.Machine

/-! ## Rings -/

@[simp] theorem State.ring_setRing_same (s : State) (g : Nat) (x : Hrv) : (s.setRing g x).ring g = x := Tab.get_set_same _ _ _ _

theorem State.ring_of_hrv {s t : State} (h : t.hrv = s.hrv) (g : Nat) : t.ring g = s.ring g := by rw [State.ring, h, State.ring]

theorem State.reg_setRing (s : State) (g : Nat) (x : Hrv) (k : RegKind) (i : Nat) : (s.setRing g x).reg k i = s.reg k i := rfl

theorem State.issueAll_fab (s : State) (l : List (FabReq × Purpose)) : (s.issueAll l).fab = fabIssueAll s.now s.fab l := by
  unfold State.issueAll
  cases l with
  | nil => rfl
  | cons x l => rfl

theorem State.issueAll_hrv (s : State) (l : List (FabReq × Purpose)) : (s.issueAll l).hrv = s.hrv := by rw [issueAll_rest]
theorem State.issueAll_regs (s : State) (l : List (FabReq × Purpose)) : (s.issueAll l).regs = s.regs := by rw [issueAll_rest]
theorem State.issueAll_reqs (s : State) (l : List (FabReq × Purpose)) : (s.issueAll l).reqs = s.reqs := by rw [issueAll_rest]

/-! ## Room found -/

/-- One sluice finds room: its scan resumes. -/
def scanResumed (s : State) (i : Nat) : State :=
  let s := s.putFlag Fld.slqStsWaitHrv false i
  { s with slq := Tab.put i { (Tab.get {} i s.slq) with base := s.now } s.slq }

theorem scanResumed_rest (s : State) (i : Nat) : scanResumed s i = { s with regs := (scanResumed s i).regs, slq := (scanResumed s i).slq } := rfl

theorem scanResumed_reg (s : State) {k : RegKind} (h : k ≠ .slqSts) (i j : Nat) : (scanResumed s i).reg k j = s.reg k j :=
  s.reg_putFlag_kind h _ _ _

theorem foldl_scanResumed_rest : ∀ (l : List Nat) (s : State),
    l.foldl scanResumed s = { s with regs := (l.foldl scanResumed s).regs, slq := (l.foldl scanResumed s).slq } := by
  intro l
  induction l with
  | nil => exact fun _ => rfl
  | cons a l ih =>
    intro s
    have hl := ih (scanResumed s a)
    rw [List.foldl_cons, hl, scanResumed_rest]

theorem foldl_scanResumed_reg {k : RegKind} (h : k ≠ .slqSts) (j : Nat) : ∀ (l : List Nat) (s : State), (l.foldl scanResumed s).reg k j = s.reg k j := by
  intro l
  induction l with
  | nil => exact fun _ => rfl
  | cons a l ih => exact fun s => (ih _).trans (scanResumed_reg s h a j)

/-- The sluices that find room in a ring. -/
def roomReady (r : Nat) (s : State) : List Nat :=
  (s.slq.map Prod.fst).filter fun i =>
    s.flag Fld.slqStsWaitHrv i && s.get Fld.slqCfg2Hrv i == r && hasRoom s r (Tab.get {} i s.slq).need

theorem roomFound_eq (r : Nat) (s : State) : roomFound r s = showWaiting r ((roomReady r s).foldl scanResumed s) := rfl

theorem showWaiting_rest (r : Nat) (s : State) : showWaiting r s = { s with regs := (showWaiting r s).regs } := rfl

/-- Room found reaches the sluices' status and HRV_STS.WAITING alone. -/
theorem roomFound_rest (r : Nat) (s : State) : roomFound r s = { s with regs := (roomFound r s).regs, slq := (roomFound r s).slq } := by
  rw [roomFound_eq, showWaiting_rest, foldl_scanResumed_rest]

theorem roomFound_reg (r : Nat) (s : State) {k : RegKind} {i : Nat} (h1 : (k, i) ≠ (.hrvSts, r)) (h2 : k ≠ .slqSts) : (roomFound r s).reg k i = s.reg k i := by
  rw [roomFound_eq, showWaiting, otherRegs_putFlag _ Fld.hrvStsWaiting _ _ _ _ h1, foldl_scanResumed_reg h2]

theorem roomFound_tail (r : Nat) (s : State) : (roomFound r s).get Fld.hrvStsTail r = s.get Fld.hrvStsTail r := by
  rw [roomFound_eq, showWaiting, State.get_putFlag_field _ (by decide) (by decide)]
  exact congrArg Fld.hrvStsTail.get (foldl_scanResumed_reg (by decide) r _ s)

/-! ## An entry goes out -/

/-- The entry as it is issued: its place and the moderation values in force (R451, R453). -/
def issued (r : Nat) (e : HEntry) (s : State) : HEntry :=
  { e with unit := s.get Fld.hrvStsTail r, cnt := max 1 (s.get Fld.hrvModCnt r), due := s.now + s.get Fld.hrvModTime r * 1000 }

/-- The ring with an entry issued. -/
def ringIssued (x : Hrv) (e : HEntry) : Hrv :=
  { x with
    owned := x.owned - e.bytes.length / 32
    reserved := x.reserved - e.release
    inflight := x.inflight ++ [e]
    low := x.low || decide (32 ≤ x.owned ∧ x.owned - e.bytes.length / 32 < 32)
    due := if e.nop then x.due else some (x.due.getD e.due) }

/-- The position moves past some units. -/
def tailMoved (r units : Nat) (s : State) : State :=
  s.put Fld.hrvStsTail (if s.get Fld.hrvStsTail r + units = ringUnits s r then 0 else s.get Fld.hrvStsTail r + units) r

/-- The two writes of an entry (R451). -/
def entryWrites (r : Nat) (e : HEntry) (s : State) : List (FabReq × Purpose) :=
  writeReqs (s.get Fld.hrvCfgPort r) (s.get Fld.hrvCfgClass r) .pw (ringAddr s r (s.get Fld.hrvStsTail r) + 1) (e.bytes.drop 1) (.harvestBody r)
    ++ writeReqs (s.get Fld.hrvCfgPort r) (s.get Fld.hrvCfgClass r) .sw (ringAddr s r (s.get Fld.hrvStsTail r)) (e.bytes.take 1) (.harvestByte r)

theorem ringAddr_tailMoved (r units u : Nat) (s : State) : ringAddr (tailMoved r units s) r u = ringAddr s r u := by
  rw [ringAddr, ringAddr, tailMoved, State.get_put_kind _ (by decide), State.get_put_kind _ (by decide)]

theorem issueEntry_eq (r : Nat) (e : HEntry) (s : State) :
    issueEntry r e s = (tailMoved r (e.bytes.length / 32) (s.setRing r (ringIssued (s.ring r) (issued r e s)))).issueAll (entryWrites r (issued r e s) s) := by
  have haddr (u : Nat) := ringAddr_tailMoved r (e.bytes.length / 32) u (s.setRing r (ringIssued (s.ring r) (issued r e s)))
  have hset (u : Nat) : ringAddr (s.setRing r (ringIssued (s.ring r) (issued r e s))) r u = ringAddr s r u := rfl
  unfold entryWrites
  rw [← hset, ← haddr]
  rfl

theorem tailMoved_tail (r units : Nat) (s : State) : (tailMoved r units s).get Fld.hrvStsTail r =
    (if s.get Fld.hrvStsTail r + units = ringUnits s r then 0 else (s.get Fld.hrvStsTail r + units) % 65536) := by
  rw [tailMoved, State.get_put_same _ _ (by decide)]
  split <;> rfl

/-- What the issue of an entry leaves. -/
theorem issueEntry_spec (r : Nat) (e : HEntry) (s : State) :
    (issueEntry r e s).ring r = ringIssued (s.ring r) (issued r e s) ∧
    (issueEntry r e s).get Fld.hrvStsTail r = (if s.get Fld.hrvStsTail r + e.bytes.length / 32 = ringUnits s r then 0
      else (s.get Fld.hrvStsTail r + e.bytes.length / 32) % 65536) ∧
    OtherRegs s (issueEntry r e s) .hrvSts r ∧ (issueEntry r e s).fab = fabIssueAll s.now s.fab (entryWrites r (issued r e s) s) ∧
    (issueEntry r e s).reqs = s.reqs := by
  rw [issueEntry_eq]
  refine ⟨?_, ?_, ?_, ?_, ?_⟩
  · rw [State.ring_of_hrv (State.issueAll_hrv _ _)]
    exact State.ring_setRing_same s r _
  · rw [State.get_of_regs (State.issueAll_regs _ _), tailMoved_tail]
    rfl
  · intro k i h
    rw [State.reg_of_regs (State.issueAll_regs _ _)]
    exact otherRegs_put _ Fld.hrvStsTail _ r k i h
  · rw [State.issueAll_fab]
    rfl
  · rw [State.issueAll_reqs]
    rfl

theorem stampEntry_length (s : State) (e : HEntry) : (stampEntry s e).bytes.length = e.bytes.length := by
  unfold stampEntry
  dsimp only
  split
  · split
    · simp
    · simp
  · simp

/-- An entry that does not pass the ring's end goes out without a NOP before it. -/
theorem writeNext_fits {s : State} {g : Nat} {e : HEntry} {rest : List HEntry} (hq : (s.ring g).queue = e :: rest)
    (hfit : s.get Fld.hrvStsTail g + e.bytes.length / 32 ≤ ringUnits s g) :
    writeNext g s = (let t := roomFound g (issueEntry g (stampEntry s e) (s.setRing g { s.ring g with queue := rest }))
      if e.last then { t with reqs := Tab.del e.rtag t.reqs } else t) := by
  have hleft : ¬ ringUnits (s.setRing g { s.ring g with queue := rest }) g - (s.setRing g { s.ring g with queue := rest }).get Fld.hrvStsTail g <
      e.bytes.length / 32 := by
    show ¬ ringUnits s g - s.get Fld.hrvStsTail g < e.bytes.length / 32
    omega
  unfold writeNext
  rw [hq]
  dsimp only
  rw [if_neg hleft]
  rfl

theorem exec_harvestWrite {s : State} {g : Nat} (hon : s.coreOn = true) (hv : s.flag Fld.hrvStsValid g = true) (he : s.flag Fld.hrvStsError g = false) :
    exec (.harvestWrite g) s = .next (writeNext g s) := by
  show execHarvestWrite g s = _
  simp only [execHarvestWrite, hon, hv, he, Bool.not_false, Bool.and_self, onlyIf_true]

/-- R451: an owed entry goes out. -/
theorem harvestWrite_spec {s : State} {g : Nat} (hon : s.coreOn = true) {e : HEntry} {rest : List HEntry} {units : Nat}
    (hv : s.flag Fld.hrvStsValid g = true) (herr : s.flag Fld.hrvStsError g = false) (hq : (s.ring g).queue = e :: rest)
    (hlen : e.bytes.length = 32 * units) (hfit : s.get Fld.hrvStsTail g + units ≤ ringUnits s g) :
    ∃ t, exec (.harvestWrite g) s = .next t ∧ t.ring g = ringIssued { s.ring g with queue := rest } (issued g (stampEntry s e) s) ∧
      t.get Fld.hrvStsTail g = (if s.get Fld.hrvStsTail g + units = ringUnits s g then 0 else (s.get Fld.hrvStsTail g + units) % 65536) ∧
      (∀ k i, (k, i) ≠ (RegKind.hrvSts, g) → k ≠ .slqSts → t.reg k i = s.reg k i) ∧
      t.fab = fabIssueAll s.now s.fab (entryWrites g (issued g (stampEntry s e) s) s) ∧
      (e.last = true → Tab.find e.rtag t.reqs = none) ∧ (e.last = false → t.reqs = s.reqs) := by
  have hunits : e.bytes.length / 32 = units := by omega
  have hexec := (exec_harvestWrite hon hv herr).trans (congrArg Host.Outcome.next (writeNext_fits hq (by rw [hunits]; exact hfit)))
  obtain ⟨hring, htail, hregs, hfab, hreqs⟩ := issueEntry_spec g (stampEntry s e) (s.setRing g { s.ring g with queue := rest })
  rw [stampEntry_length, hunits] at htail
  rw [State.ring_setRing_same] at hring
  generalize issueEntry g (stampEntry s e) (s.setRing g { s.ring g with queue := rest }) = u at hexec hring htail hregs hfab hreqs
  have hroom := roomFound_rest g u
  have hroomTail := roomFound_tail g u
  have hroomReg {k : RegKind} {i : Nat} := roomFound_reg g u (k := k) (i := i)
  generalize roomFound g u = v at hexec hroom hroomTail hroomReg
  have hvring : v.ring g = u.ring g := State.ring_of_hrv (by rw [hroom]) g
  have hvfab : v.fab = u.fab := by rw [hroom]
  have hvreqs : v.reqs = u.reqs := by rw [hroom]
  have hvreg (k : RegKind) (i : Nat) (h1 : (k, i) ≠ (RegKind.hrvSts, g)) (h2 : k ≠ .slqSts) : v.reg k i = s.reg k i :=
    (hroomReg h1 h2).trans (hregs k i h1)
  dsimp only at hexec
  cases hl : e.last with
  | true =>
    rw [hl, if_pos rfl] at hexec
    exact ⟨_, hexec, hvring.trans hring, hroomTail.trans htail, hvreg, hvfab.trans hfab, fun _ => Tab.find_del_same .., fun h => Bool.noConfusion h⟩
  | false =>
    rw [hl, if_neg Bool.false_ne_true] at hexec
    exact ⟨_, hexec, hvring.trans hring, hroomTail.trans htail, hvreg, hvfab.trans hfab, fun h => Bool.noConfusion h, fun _ => hvreqs.trans hreqs⟩

/-! ## Moderation -/

/-- A source of the field HRV_CFG.SRC is one that an edge reaches. -/
theorem sourcePending_edge_shared (s : State) (n : Nat) : sourcePending (s.edge (.shared n)) (.shared n) = true := by
  rw [sourcePending_edge s (x := .shared n) (Nat.mod_lt _ (by decide))]
  simp

/-- The edge, and what it covers. -/
def signalled (s : State) (g : Nat) : State := ((s.edge (.shared (s.get Fld.hrvCfgSrc g))).put Fld.hrvStsPending 0 g).putFlag Fld.hrvStsTimer false g

theorem signalRing_eq (s : State) (g : Nat) : signalRing s g =
    (signalled s g).setRing g { (signalled s g).ring g with due := (((signalled s g).ring g).inflight.find? fun e => !e.nop).map (·.due) } := rfl

theorem signalled_hrv (s : State) (g : Nat) : (signalled s g).hrv = s.hrv := rfl

theorem signalRing_ring (s : State) (g : Nat) :
    (signalRing s g).ring g = { s.ring g with due := ((s.ring g).inflight.find? fun e => !e.nop).map (·.due) } := by
  rw [signalRing_eq, State.ring_setRing_same, State.ring_of_hrv (signalled_hrv s g)]

theorem signalRing_pending (s : State) (g : Nat) : sourcePending (signalRing s g) (.shared (s.get Fld.hrvCfgSrc g)) = true := by
  rw [sourcePending_congr (s := s.edge (.shared (s.get Fld.hrvCfgSrc g)))]
  · exact sourcePending_edge_shared s _
  · intro k hk i
    have hne : k ≠ .hrvSts := by
      rintro rfl
      revert hk
      decide
    rw [signalRing_eq, State.reg_setRing, signalled, State.reg_putFlag_kind _ hne, State.reg_put_kind _ hne]

theorem signalRing_shown (s : State) (g : Nat) : (signalRing s g).get Fld.hrvStsPending g = 0 ∧ (signalRing s g).flag Fld.hrvStsTimer g = false := by
  have hregs : (signalRing s g).regs = (signalled s g).regs := rfl
  rw [State.get_of_regs hregs, State.flag_of_regs hregs, signalled]
  refine ⟨?_, State.flag_putFlag _ Fld.hrvStsTimer rfl (by decide) false g⟩
  rw [State.get_putFlag_field _ (by decide) (by decide), State.get_put_same _ _ (by decide)]
  rfl

theorem exec_moderationTimer {s : State} {g at_ : Nat} (hon : s.coreOn = true) (hd : (s.ring g).due = some at_) (ht : s.flag Fld.hrvStsTimer g = true)
    (hle : at_ ≤ s.now) : exec (.moderationTimer g) s = .next (signalRing s g) := by
  show execModerationTimer g s = _
  simp only [execModerationTimer, hd, hon, ht, hle, decide_true, Bool.and_self, onlyIf_true]

/-! ## Look-aheads -/

/-- The ring with a look-ahead out. -/
def ringLooking (s : State) (g : Nat) : State :=
  s.setRing g { s.ring g with
    looking := true
    again := false
    low := false
    lookedAt := s.now }

theorem lookStep_idle {s : State} {g : Nat} (h : (s.ring g).looking = false) :
    lookStep g s = (ringLooking s g).issueAll [(lookAhead g s, .lookahead g)] := by
  unfold lookStep
  rw [if_neg (by simp [h])]
  rfl

theorem lookStep_busy {s : State} {g : Nat} (h : (s.ring g).looking = true) : lookStep g s = s.setRing g { s.ring g with again := true } := if_pos h

/-- What a look-ahead that goes out leaves. -/
theorem lookStep_idle_spec {s : State} {g : Nat} (h : (s.ring g).looking = false) :
    (lookStep g s).ring g = { s.ring g with looking := true, again := false, low := false, lookedAt := s.now } ∧
      lookStep g s = { s with hrv := (lookStep g s).hrv, fab := (lookStep g s).fab, pwr := { s.pwr with dramIdle := false } } ∧
      (lookStep g s).fab = fabIssue s.now s.fab (lookAhead g s) (.lookahead g) := by
  rw [lookStep_idle h]
  refine ⟨?_, ?_, ?_⟩
  · rw [State.ring_of_hrv (State.issueAll_hrv _ _)]
    exact State.ring_setRing_same s g _
  · rfl
  · rw [State.issueAll_fab]
    rfl

theorem exec_harvestLookahead {s : State} {g : Nat} (hrun : s.running = true) (hv : s.flag Fld.hrvStsValid g = true) (hlook : (s.ring g).looking = false)
    (hdue : (s.ring g).low = true ∨ (s.flag Fld.hrvStsWaiting g = true ∧ (s.ring g).lookedAt + 2000 ≤ s.now)) :
    exec (.harvestLookahead g) s = .next (lookStep g s) := by
  have hcond : ((s.flag Fld.hrvStsWaiting g && decide ((s.ring g).lookedAt + 2000 ≤ s.now)) || (s.ring g).low) = true := by
    rcases hdue with h | ⟨h1, h2⟩
    · rw [h, Bool.or_true]
    · rw [h1, decide_eq_true h2]
      rfl
  show execHarvestLookahead g s = _
  simp only [execHarvestLookahead, hrun, hv, hlook, hcond, Bool.not_false, Bool.and_self, onlyIf_true]

/-- The look-ahead is in. -/
def lookIn (s : State) (g : Nat) : State := s.setRing g { s.ring g with looking := false, again := false }

theorem countEnd_lookIn (s : State) (g : Nat) : countEnd (lookIn s g) g = countEnd s g := by
  have hring : ((lookIn s g).ring g).owned = (s.ring g).owned := by rw [lookIn, State.ring_setRing_same]
  rw [countEnd, hring]
  rfl

theorem lookedAhead_here {s : State} {g addr : Nat} (haddr : addr = ringAddr s g (countEnd s g)) (hagain : (s.ring g).again = false) (code : RCode)
    (data : List Byte) : lookedAhead g addr code data s = refreshOwned g code (unitMarks (data.length / 32) data) (lookIn s g) := by
  have hend : addr = ringAddr (lookIn s g) g (countEnd (lookIn s g) g) := by
    rw [countEnd_lookIn, haddr]
    rfl
  unfold lookedAhead
  dsimp only
  rw [hagain, if_neg Bool.false_ne_true]
  exact if_pos hend

/-- R442: the count takes the units handed back. -/
theorem refreshOwned_ok (g : Nat) (marks : List Byte) (s : State) :
    (refreshOwned g .ok marks (lookIn s g)).ring g =
      { s.ring g with looking := false, again := false, owned := min (ringUnits s g) ((s.ring g).owned + ((marks.take 16).takeWhile (· == 0x80)).length) } := by
  have hring : (lookIn s g).ring g = { s.ring g with looking := false, again := false } := State.ring_setRing_same ..
  unfold refreshOwned
  rw [if_pos rfl]
  dsimp only
  rw [roomFound_rest]
  refine (State.ring_of_hrv (s := (lookIn s g).setRing g _) rfl g).trans ?_
  rw [State.ring_setRing_same, hring]
  rfl

theorem exec_lookahead_response {s : State} {g port vc tag : Nat} {o : Outst} (hon : s.coreOn = true) (ho : findOutst s.fab port vc tag = some o)
    (hp : o.purpose = .lookahead g) (hheld : s.fab.held = []) (hkind : o.req.kind = .rd) {code : RCode} (hcode : code ≠ .reserved) {data : List Byte}
    (hlen : code ≠ .ok ∨ data.length = o.req.len) :
    exec (.outboundResponse port vc tag code data) s = .next (lookedAhead g o.req.addr code data (unsent s o)) := by
  have hcond : (code != .ok || data.length == answerLen o.req) = true := by
    rcases hlen with h | h
    · simp [h]
    · simp [h, answerLen, hkind]
  have htaken : codeTaken o code (unsent s o) = (code, unsent s o) := if_neg hcode
  have hexec : exec (.outboundResponse port vc tag code data) s =
      .next (answer o (codeTaken o code (unsent s o)).1 data (releaseHeld (codeTaken o code (unsent s o)).2)) := by
    show execOutboundResponse port vc tag code data s = _
    simp only [execOutboundResponse, ho, hon, hcond, Bool.and_self, onlyIf_true]
    exact Eq.refl _
  rw [hexec, htaken, releaseHeld_nil (s := unsent s o) hheld]
  unfold answer noteDram mapOrPan
  rw [hp]
  rfl

/-! ## Register writes of a ring -/

theorem State.restart_rest (s : State) : s.restart = { s with pwr := s.restart.pwr } := by
  unfold State.restart
  split <;> rfl

theorem State.restart_p1 {s : State} (h : s.pwr.st = .p1) : s.restart.pwr.st = .p0 := by
  unfold State.restart
  rw [h]

theorem exec_hrvDoorbell {s : State} {r : Req} {g : Nat} {w : Word} (hg : g < 4096) (hw : Written s r .hrvDb g w) (hs : Steady s)
    (hv : s.flag Fld.hrvStsValid g = true) : exec (.hrvDoorbell r g w) s = .next ((lookStep g s.restart).respondWrite r .ok) := by
  show execHrvDoorbell r g w s = _
  simp only [execHrvDoorbell, hg, decide_true, onlyIf_true, regWrite_pass hw hs, hv, if_true]

theorem exec_hrvRetry {s : State} {r : Req} {g : Nat} {w : Word} (hg : g < 4096) (hw : Written s r .hrvCtl g w) (hs : Steady s)
    (hretry : Fld.hrvCtlRetry.get w = 1) (hflag : s.flag Fld.hrvCtlRetry g = false) (hfailed : (s.ring g).failed ≠ []) :
    exec (.hrvRetry r g w) s = .next (State.respondWrite ((s.putFlag Fld.hrvCtlRetry true g).issueAll ((s.ring g).failed.flatMap fun e =>
      writeReqs (s.get Fld.hrvCfgPort g) (s.get Fld.hrvCfgClass g) .sw (ringAddr s g e.unit) (e.bytes.take 1) (.harvestByte g))) r .ok) := by
  have hcond : Fld.hrvCtlRetry.get w = 1 ∧ !s.flag Fld.hrvCtlRetry g ∧ !(s.ring g).failed.isEmpty := by
    simp [hretry, hflag, hfailed]
  show execHrvRetry r g w s = _
  simp only [execHrvRetry, hg, decide_true, onlyIf_true, regWrite_pass hw hs]
  rw [hrvCtlWrite, if_pos (by simpa using hcond)]

theorem exec_hrvModWrite {s : State} {r : Req} {g : Nat} {w : Word} (hg : g < 4096) (hw : Written s r .hrvMod g w) (hs : Steady s) (cmd : Bool) :
    exec (.hrvModWrite r g w cmd) s = .next (State.respondWrite (if cmd then s else s.plainWrite .hrvMod g w) r .ok) := by
  show execHrvModWrite r g w cmd s = _
  simp only [execHrvModWrite, hg, decide_true, onlyIf_true, regWrite_pass hw hs]

/-- The state after a doorbell's look-ahead, whatever was out. -/
theorem lookStep_doorbell (s : State) (g : Nat) :
    (lookStep g s.restart).resps = s.resps ∧ (s.pwr.st = .p1 → (lookStep g s.restart).pwr.st = .p0) ∧
      ((lookStep g s.restart).ring g).owned = (s.ring g).owned ∧ ((lookStep g s.restart).ring g).looking = true ∧
      ((s.ring g).looking = false → (lookStep g s.restart).fab = fabIssue s.now s.fab (lookAhead g s) (.lookahead g)) ∧
      ((s.ring g).looking = true → ((lookStep g s.restart).ring g).again = true ∧ (lookStep g s.restart).fab = s.fab) := by
  have hrest := s.restart_rest
  have hp1 : s.pwr.st = .p1 → s.restart.pwr.st = .p0 := State.restart_p1
  generalize s.restart = u at hrest hp1
  have hring : u.ring g = s.ring g := State.ring_of_hrv (by rw [hrest]) g
  have hnow : u.now = s.now := by rw [hrest]; rfl
  have hfab : u.fab = s.fab := by rw [hrest]
  have hresps : u.resps = s.resps := by rw [hrest]
  have hlook : lookAhead g u = lookAhead g s := by rw [hrest]; rfl
  cases h : (s.ring g).looking with
  | false =>
    obtain ⟨hr, hst, hf⟩ := lookStep_idle_spec (hring ▸ h : (u.ring g).looking = false)
    rw [hring] at hr
    rw [hnow, hfab, hlook] at hf
    refine ⟨?_, fun hp => ?_, by rw [hr], by rw [hr], fun _ => hf, fun h => Bool.noConfusion h⟩
    · rw [hst]
      exact hresps
    · rw [hst]
      exact hp1 hp
  | true =>
    rw [lookStep_busy (hring ▸ h : (u.ring g).looking = true)]
    refine ⟨hresps, hp1, ?_, ?_, fun h => Bool.noConfusion h, fun _ => ⟨?_, hfab⟩⟩
    · rw [State.ring_setRing_same, hring]
    · rw [State.ring_setRing_same, hring, h]
    · rw [State.ring_setRing_same]

/-- Settles O27: entries, moderation, look-aheads and the ring's registers. -/
theorem harvestRings : Obligations.HarvestRings := by
  intro s g hon
  refine ⟨fun e rest units hv herr hq hlen hone hfit => ?_, fun at_ hd ht hle => ?_, fun hb hv hlook hdue => ?_,
    fun port vc tag o ho hp haddr hkind hagain hheld => ⟨fun data hlen => ?_, fun data => ?_⟩, fun r w hg hs => ⟨fun hw hv => ?_, fun hw hretry hflag hfailed => ?_,
    fun cmd hw => ?_⟩⟩
  · obtain ⟨t, hexec, hring, htail, hreg, hfab, hlast, hmore⟩ := harvestWrite_spec hon hv herr hq hlen hfit
    have hunits : (issued g (stampEntry s e) s).bytes.length / 32 = units := by
      show (stampEntry s e).bytes.length / 32 = units
      rw [stampEntry_length]
      omega
    have howned : (t.ring g).owned = (s.ring g).owned - units := by rw [hring, ← hunits]; rfl
    exact ⟨t, hexec, by rw [hring]; rfl, by rw [hring]; rfl, howned, by rw [hring]; rfl, htail, hreg, hfab, hlast, hmore⟩
  · have hring := signalRing_ring s g
    obtain ⟨hpend, htimer⟩ := signalRing_shown s g
    exact ⟨_, exec_moderationTimer hon hd ht hle, signalRing_pending s g, hpend, htimer, by rw [hring], by rw [hring]⟩
  · have hrun : s.running = true := by rw [State.running, hon, hb]; rfl
    obtain ⟨hring, hrest, hfab⟩ := lookStep_idle_spec hlook
    exact ⟨_, exec_harvestLookahead hrun hv hlook hdue, by rw [hring], by rw [hring], by rw [hring], by rw [hring], by rw [hrest], hfab⟩
  · refine ⟨_, exec_lookahead_response hon ho hp hheld hkind (by decide) (.inr hlen), ?_⟩
    rw [lookedAhead_here (s := unsent s o) haddr hagain, refreshOwned_ok]
    exact ⟨rfl, rfl⟩
  · refine ⟨_, exec_lookahead_response hon ho hp hheld hkind (by decide) (.inl (by decide)), ?_⟩
    rw [lookedAhead_here (s := unsent s o) haddr hagain]
    have hring : (lookIn (unsent s o) g).ring g = { s.ring g with looking := false, again := false } := State.ring_setRing_same ..
    have hlog : refreshOwned g .decerr (unitMarks (data.length / 32) data) (lookIn (unsent s o) g) =
        (lookIn (unsent s o) g).logPacked uHRV (Config.eventCode 442) := if_neg (by decide)
    rw [hlog, State.ring_of_hrv (State.logPacked_hrv _ _ _ _ _), hring]
    refine ⟨rfl, rfl, ?_⟩
    show (List.take 2048 (_ :: s.log)).length = _
    rw [List.length_take, List.length_cons]
  · obtain ⟨hresps, hp1, howned, hlooking, hidle, hbusy⟩ := lookStep_doorbell s g
    refine ⟨_, exec_hrvDoorbell hg hw hs hv, respondWrite_resps_of_eq hresps r, ?_⟩
    rw [State.respondWrite_eq]
    exact ⟨hp1, howned, hlooking, hidle, hbusy⟩
  · refine ⟨_, exec_hrvRetry hg hw hs hretry hflag hfailed, ?_, respondWrite_resps_of_eq ?_ r, ?_⟩
    · rw [State.flag_respondWrite, State.flag_of_regs (State.issueAll_regs _ _)]
      exact State.flag_putFlag s Fld.hrvCtlRetry rfl (by decide) true g
    · rw [issueAll_rest]
      rfl
    · rw [State.respondWrite_eq]
      exact State.issueAll_fab _ _
  · refine ⟨_, exec_hrvModWrite hg hw hs cmd, ?_⟩
    cases cmd with
    | true => exact ⟨fun k i _ => State.reg_respondWrite s r _ k i, respondWrite_resps s r, State.get_respondWrite .., State.get_respondWrite ..⟩
    | false =>
      refine ⟨(otherRegs_plainWrite s .hrvMod g w).respondWrite r _, respondWrite_resps_of_eq (t := s.plainWrite .hrvMod g w) rfl r, ?_, ?_⟩
      · rw [State.get_respondWrite]
        exact s.get_plainWrite_rw Fld.hrvModCnt (by decide) (by decide) (by decide) (by decide) g w
      · rw [State.get_respondWrite]
        exact s.get_plainWrite_rw Fld.hrvModTime (by decide) (by decide) (by decide) (by decide) g w

end Sys2Proof.Machine
end

section
/-! PROOFS. Sluices: doorbell, enable, disable, HEAD, HALT, the fetch grant and the first unit of a fetch (R430, R432 to R434, R437, R438, R454, R455, R465). -/

namespace Sys2Proof.Machine

/-! ## What a sluice holds -/

@[simp] theorem State.sluice_setSluice_same (s : State) (i : Nat) (x : Slq) : (s.setSluice i x).sluice i = x := Tab.get_put_same _ _ _ _

@[simp] theorem State.sluice_modSluice_same (s : State) (i : Nat) (f : Slq → Slq) : (s.modSluice i f).sluice i = f (s.sluice i) := State.sluice_setSluice_same ..

theorem State.modSluice_rest (s : State) (i : Nat) (f : Slq → Slq) : s.modSluice i f = { s with slq := (s.modSluice i f).slq } := rfl

theorem State.sluice_of_slq {s t : State} (h : t.slq = s.slq) (i : Nat) : t.sluice i = s.sluice i := by rw [State.sluice, h, State.sluice]

/-! ## Doorbell (R433) -/

section Doorbell
variable (n : Nat) (w : Word) (s : State)

/-- The fetch limit that a doorbell of a strict sluice gives. -/
def limitTaken : State := if s.flag Fld.slqCfgStrict n then s.modSluice n fun x => { x with limit := Fld.slqDbLimit.get w } else s

/-- A class-0 doorbell takes DRAM_IDLE_OK low (R72). -/
def idleLowered : State := if slqClass s n = 0 then { s with pwr := { s.pwr with dramIdle := false } } else s

/-- The scan starts, or DB_PEND is set. -/
def scanAsked : State :=
  if s.flag Fld.slqStsScan n then s.putFlag Fld.slqStsDbPend true n
  else (s.modSluice n fun x => { x with base := s.now }).putFlag Fld.slqStsScan true n

theorem slqDbWrite_eq : slqDbWrite n w s =
    if !s.restart.flag Fld.slqCfgValid n || !s.restart.flag Fld.slqCtlEn n || s.restart.flag Fld.slqStsError n then s.restart.inc Fld.slqGstsStray
    else scanAsked n (idleLowered n (limitTaken n w s.restart)) := rfl

theorem limitTaken_rest : limitTaken n w s = { s with slq := (limitTaken n w s).slq } := by
  unfold limitTaken
  split <;> rfl

theorem limitTaken_sluice : (limitTaken n w s).sluice n = { s.sluice n with limit := ((limitTaken n w s).sluice n).limit } := by
  unfold limitTaken
  split
  · rw [State.sluice_modSluice_same]
  · rfl

theorem limitTaken_limit (h : s.flag Fld.slqCfgStrict n = true) : ((limitTaken n w s).sluice n).limit = Fld.slqDbLimit.get w := by
  rw [limitTaken, if_pos h, State.sluice_modSluice_same]

theorem idleLowered_rest : idleLowered n s = { s with pwr := { s.pwr with dramIdle := (idleLowered n s).pwr.dramIdle } } := by
  unfold idleLowered
  split <;> rfl

theorem scanAsked_rest : scanAsked n s = { s with regs := (scanAsked n s).regs, slq := (scanAsked n s).slq } := by
  unfold scanAsked
  split <;> rfl

/-- What asking for the scan leaves. -/
theorem scanAsked_spec : (scanAsked n s).flag Fld.slqStsScan n = true ∧ OtherRegs s (scanAsked n s) .slqSts n ∧
    ((scanAsked n s).sluice n).limit = (s.sluice n).limit ∧
    (s.flag Fld.slqStsScan n = false → ((scanAsked n s).sluice n).base = s.now ∧ (scanAsked n s).flag Fld.slqStsDbPend n = s.flag Fld.slqStsDbPend n) ∧
    (s.flag Fld.slqStsScan n = true → ((scanAsked n s).sluice n).base = (s.sluice n).base ∧ (scanAsked n s).flag Fld.slqStsDbPend n = true) := by
  cases h : s.flag Fld.slqStsScan n with
  | true =>
    have heq : scanAsked n s = s.putFlag Fld.slqStsDbPend true n := if_pos h
    rw [heq]
    refine ⟨?_, otherRegs_putFlag s Fld.slqStsDbPend true n, rfl, fun h => Bool.noConfusion h,
      fun _ => ⟨rfl, State.flag_putFlag s Fld.slqStsDbPend rfl (by decide) true n⟩⟩
    rw [s.flag_putFlag_field (by decide) (by decide), h]
  | false =>
    have heq : scanAsked n s = (s.modSluice n fun x => { x with base := s.now }).putFlag Fld.slqStsScan true n := if_neg (by simp [h])
    have hslq : (scanAsked n s).sluice n = { s.sluice n with base := s.now } := by
      rw [heq]
      exact State.sluice_modSluice_same s n fun x => { x with base := s.now }
    rw [hslq]
    rw [heq]
    refine ⟨State.flag_putFlag _ Fld.slqStsScan rfl (by decide) true n, otherRegs_putFlag (s.modSluice n _) Fld.slqStsScan true n, rfl, fun _ => ⟨rfl, ?_⟩,
      fun h => Bool.noConfusion h⟩
    rw [State.flag_putFlag_field _ (by decide) (by decide)]
    rfl

end Doorbell

theorem slqDbWrite_stray {n : Nat} {s : State}
    (h : ¬(s.flag Fld.slqCfgValid n = true ∧ s.flag Fld.slqCtlEn n = true ∧ s.flag Fld.slqStsError n = false)) (w : Word) :
    slqDbWrite n w s = s.restart.inc Fld.slqGstsStray := by
  have hregs : s.restart.regs = s.regs := by rw [s.restart_rest]
  rw [slqDbWrite_eq, State.flag_of_regs hregs, State.flag_of_regs hregs, State.flag_of_regs hregs]
  refine if_pos ?_
  by_contra hnot
  simp only [Bool.or_eq_true, Bool.not_eq_true', not_or, Bool.not_eq_false, Bool.not_eq_true] at hnot
  exact h ⟨hnot.1.1, hnot.1.2, hnot.2⟩

theorem slqDbWrite_live {n : Nat} {s : State}
    (h : s.flag Fld.slqCfgValid n = true ∧ s.flag Fld.slqCtlEn n = true ∧ s.flag Fld.slqStsError n = false) (w : Word) :
    slqDbWrite n w s = scanAsked n (idleLowered n (limitTaken n w s.restart)) := by
  obtain ⟨hv, hen, herr⟩ := h
  have hregs : s.restart.regs = s.regs := by rw [s.restart_rest]
  rw [slqDbWrite_eq, State.flag_of_regs hregs, State.flag_of_regs hregs, State.flag_of_regs hregs, hv, hen, herr]
  exact if_neg (by decide)

/-- The state before the scan is asked for: the sluice's limit, and the power state out of P1. -/
theorem idleLowered_limitTaken (n : Nat) (w : Word) (s : State) :
    idleLowered n (limitTaken n w s.restart) =
      { s with slq := (limitTaken n w s.restart).slq, pwr := { s.restart.pwr with dramIdle := (idleLowered n (limitTaken n w s.restart)).pwr.dramIdle } } := by
  have hrest := s.restart_rest
  generalize s.restart = u at hrest
  have hlim := limitTaken_rest n w u
  generalize limitTaken n w u = v at hlim
  rw [idleLowered_rest, hlim, hrest]

theorem exec_sluiceDoorbell {s : State} {r : Req} {n : Nat} {w : Word} (hn : n < 4096) (hw : Written s r .slqDb n w) (hs : Steady s) :
    exec (.sluiceDoorbell r n w) s = .next ((slqDbWrite n w s).respondWrite r .ok) := by
  show execSluiceDoorbell r n w s = _
  simp only [execSluiceDoorbell, hn, decide_true, onlyIf_true, regWrite_pass hw hs]

/-- R433: a stray doorbell. -/
theorem slqDbWrite_stray_spec {n : Nat} {s : State}
    (h : ¬(s.flag Fld.slqCfgValid n = true ∧ s.flag Fld.slqCtlEn n = true ∧ s.flag Fld.slqStsError n = false)) (w : Word) :
    (slqDbWrite n w s).slq = s.slq ∧ OtherRegs s (slqDbWrite n w s) .slqGsts 0 ∧
      (slqDbWrite n w s).get Fld.slqGstsStray = min 65535 (s.get Fld.slqGstsStray + 1) ∧ (slqDbWrite n w s).resps = s.resps ∧
      (slqDbWrite n w s).pwr = s.restart.pwr := by
  have hregs : s.restart.regs = s.regs := by rw [s.restart_rest]
  rw [slqDbWrite_stray h]
  refine ⟨?_, fun k i hk => ?_, ?_, ?_, rfl⟩
  · rw [s.restart_rest]
    rfl
  · rw [← State.reg_of_regs hregs]
    exact otherRegs_put s.restart Fld.slqGstsStray _ 0 k i hk
  · rw [State.get_inc_same _ _ (by decide), State.get_of_regs hregs]
    rfl
  · rw [s.restart_rest]
    rfl

/-- R433, R437: a doorbell of an enabled sluice. -/
theorem slqDbWrite_live_spec {n : Nat} {s : State}
    (h : s.flag Fld.slqCfgValid n = true ∧ s.flag Fld.slqCtlEn n = true ∧ s.flag Fld.slqStsError n = false) (w : Word) :
    (slqDbWrite n w s).resps = s.resps ∧ (slqDbWrite n w s).pwr.st = s.restart.pwr.st ∧
    (s.flag Fld.slqCfgStrict n = true → ((slqDbWrite n w s).sluice n).limit = Fld.slqDbLimit.get w) ∧ (slqDbWrite n w s).flag Fld.slqStsScan n = true ∧
    OtherRegs s (slqDbWrite n w s) .slqSts n ∧
    (s.flag Fld.slqStsScan n = false → ((slqDbWrite n w s).sluice n).base = s.now ∧ (slqDbWrite n w s).flag Fld.slqStsDbPend n = s.flag Fld.slqStsDbPend n) ∧
    (s.flag Fld.slqStsScan n = true → ((slqDbWrite n w s).sluice n).base = (s.sluice n).base ∧ (slqDbWrite n w s).flag Fld.slqStsDbPend n = true) := by
  have hrest := s.restart_rest
  have hready := idleLowered_limitTaken n w s
  have hlimit : s.flag Fld.slqCfgStrict n = true → ((limitTaken n w s.restart).sluice n).limit = Fld.slqDbLimit.get w := fun hstrict =>
    limitTaken_limit n w s.restart ((State.flag_of_regs (by rw [hrest]) _ _).trans hstrict)
  have hbase : ((limitTaken n w s.restart).sluice n).base = (s.sluice n).base := by
    rw [limitTaken_sluice, State.sluice_of_slq (s := s) (by rw [hrest])]
  rw [slqDbWrite_live h]
  generalize idleLowered n (limitTaken n w s.restart) = u at hready
  obtain ⟨hscan, hregs, hlim, hstart, hkept⟩ := scanAsked_spec n u
  have hasked := scanAsked_rest n u
  have huregs : u.regs = s.regs := by rw [hready]
  have husl : u.sluice n = (limitTaken n w s.restart).sluice n := State.sluice_of_slq (by rw [hready]) n
  rw [State.flag_of_regs huregs] at hstart hkept
  rw [State.flag_of_regs huregs] at hstart
  refine ⟨?_, ?_, fun hstrict => ?_, hscan, fun k i hk => (hregs k i hk).trans (State.reg_of_regs huregs k i), fun hs => ?_, fun hs => ?_⟩
  · rw [hasked, hready]
  · rw [hasked, hready]
  · rw [hlim, husl, hlimit hstrict]
  · obtain ⟨hb, hp⟩ := hstart hs
    exact ⟨hb.trans (by rw [hready]; rfl), hp⟩
  · obtain ⟨hb, hp⟩ := hkept hs
    exact ⟨hb.trans (by rw [husl, hbase]), hp⟩

/-! ## Enable, disable, HEAD and HALT (R454, R455, R465) -/

section Controls
variable {s : State} {r : Req} {n : Nat} {w : Word}

theorem exec_sluiceEnable (hn : n < 4096) (hw : Written s r .slqCtl n w) (hs : Steady s) (hen : Fld.slqCtlEn.get w = 1) :
    exec (.sluiceEnable r n w) s = .next ((slqCtlWrite n w s).respondWrite r .ok) := by
  show execSluiceEnable r n w s = _
  simp only [execSluiceEnable, hn, hen, decide_true, beq_self_eq_true, Bool.and_self, onlyIf_true, regWrite_pass hw hs]

theorem exec_sluiceDisable (hn : n < 4096) (hw : Written s r .slqCtl n w) (hs : Steady s) (hen : Fld.slqCtlEn.get w = 0) :
    exec (.sluiceDisable r n w) s = .next ((slqCtlWrite n w s).respondWrite r .ok) := by
  show execSluiceDisable r n w s = _
  simp only [execSluiceDisable, hn, hen, decide_true, beq_self_eq_true, Bool.and_self, onlyIf_true, regWrite_pass hw hs]

theorem slqCtlWrite_enable (hv : s.flag Fld.slqCfgValid n = true) (hen : Fld.slqCtlEn.get w = 1) :
    slqCtlWrite n w s = ((s.putFlag Fld.slqCtlEn true n).putFlag Fld.slqStsError false n).putFlag Fld.slqStsDbPend false n := by
  rw [slqCtlWrite, hv, if_neg (by decide), if_pos hen]

/-- EN and WAIT_HRV cleared, and the ring's WAITING with them. -/
def enCleared (n : Nat) (s : State) : State := showWaiting (slqRing s n) ((s.putFlag Fld.slqCtlEn false n).putFlag Fld.slqStsWaitHrv false n)

theorem slqCtlWrite_disable (hv : s.flag Fld.slqCfgValid n = true) (hen : Fld.slqCtlEn.get w = 0) :
    slqCtlWrite n w s = if (s.sluice n).fetch.isNone then stopScan n (enCleared n s) else enCleared n s := by
  rw [slqCtlWrite, hv, if_neg (by decide), if_neg (by omega)]
  rfl

theorem enCleared_rest (n : Nat) (s : State) : enCleared n s = { s with regs := (enCleared n s).regs } := rfl

theorem enCleared_en (n : Nat) (s : State) : (enCleared n s).flag Fld.slqCtlEn n = false := by
  rw [enCleared, showWaiting, State.flag_putFlag_kind _ (by decide), State.flag_putFlag_kind _ (by decide)]
  exact State.flag_putFlag s Fld.slqCtlEn rfl (by decide) false n

theorem enCleared_wait (n : Nat) (s : State) : (enCleared n s).flag Fld.slqStsWaitHrv n = false := by
  rw [enCleared, showWaiting, State.flag_putFlag_kind _ (by decide)]
  exact State.flag_putFlag _ Fld.slqStsWaitHrv rfl (by decide) false n

/-- R455: what a disable shows. -/
theorem slqCtlWrite_disable_spec (hv : s.flag Fld.slqCfgValid n = true) (hen : Fld.slqCtlEn.get w = 0) :
    slqCtlWrite n w s = { s with regs := (slqCtlWrite n w s).regs } ∧ (slqCtlWrite n w s).flag Fld.slqCtlEn n = false ∧
      (slqCtlWrite n w s).flag Fld.slqStsWaitHrv n = false ∧ ((s.sluice n).fetch = none → (slqCtlWrite n w s).flag Fld.slqStsScan n = false) := by
  rw [slqCtlWrite_disable hv hen]
  cases hf : (s.sluice n).fetch with
  | none =>
    refine ⟨rfl, ?_, ?_, fun _ => State.flag_putFlag _ Fld.slqStsScan rfl (by decide) false n⟩
    · rw [Option.isNone_none, if_pos rfl, stopScan, State.flag_putFlag_kind _ (by decide), enCleared_en]
    · rw [Option.isNone_none, if_pos rfl, stopScan, State.flag_putFlag_field _ (by decide) (by decide), enCleared_wait]
  | some f => exact ⟨rfl, enCleared_en n s, enCleared_wait n s, fun h => absurd h (Option.some_ne_none f)⟩

/-- R454: what an enable shows. -/
theorem slqCtlWrite_enable_spec (hv : s.flag Fld.slqCfgValid n = true) (hen : Fld.slqCtlEn.get w = 1) :
    slqCtlWrite n w s = { s with regs := (slqCtlWrite n w s).regs } ∧ (slqCtlWrite n w s).flag Fld.slqCtlEn n = true ∧
      (slqCtlWrite n w s).flag Fld.slqStsError n = false ∧ (slqCtlWrite n w s).flag Fld.slqStsDbPend n = false := by
  rw [slqCtlWrite_enable hv hen]
  refine ⟨rfl, ?_, ?_, State.flag_putFlag _ Fld.slqStsDbPend rfl (by decide) false n⟩
  · rw [State.flag_putFlag_kind _ (by decide), State.flag_putFlag_kind _ (by decide)]
    exact State.flag_putFlag s Fld.slqCtlEn rfl (by decide) true n
  · rw [State.flag_putFlag_field _ (by decide) (by decide)]
    exact State.flag_putFlag _ Fld.slqStsError rfl (by decide) false n

theorem exec_slqHeadWrite (hn : n < 4096) (hw : Written s r .slqHead n w) (hs : Steady s) :
    exec (.slqHeadWrite r n w) s = .next ((slqHeadWrite n w s).respondWrite r .ok) := by
  show execSlqHeadWrite r n w s = _
  simp only [execSlqHeadWrite, hn, decide_true, onlyIf_true, regWrite_pass hw hs]

theorem slqHeadWrite_spec (n : Nat) (w : Word) (s : State) :
    slqHeadWrite n w s = { s with regs := (slqHeadWrite n w s).regs } ∧ OtherRegs s (slqHeadWrite n w s) .slqHead n ∧
      (slqHeadWrite n w s).get Fld.slqHeadHead n = if slqIdle s n then Fld.slqHeadHead.get w else s.get Fld.slqHeadHead n := by
  unfold slqHeadWrite
  split
  · refine ⟨rfl, otherRegs_put s Fld.slqHeadHead _ n, ?_⟩
    rw [s.get_put_same _ (by decide)]
    exact Nat.mod_eq_of_lt (Fld.get_lt _ w)
  · exact ⟨rfl, fun _ _ _ => rfl, rfl⟩

theorem exec_slqHaltWrite (hw : Written s r .slqHalt 0 w) (hs : Steady s) :
    exec (.slqHaltWrite r w) s = .next ((setHalt (Fld.slqHaltHalt.get w) s).respondWrite r .ok) := congrArg Host.Outcome.next (regWrite_pass hw hs _)

end Controls

theorem otherRegs_setHalt (h : Nat) (s : State) : OtherRegs s (setHalt h s) .slqHalt 0 := fun k i hk =>
  (State.reg_of_regs (setHalt_regs h s) k i).trans (otherRegs_put s Fld.slqHaltHalt h 0 k i hk)

/-! ## The fetch slot (R438) -/

/-- The least of a list, where there is one, is of the list. -/
theorem foldl_min_mem : ∀ (l : List Nat) (a : Option Nat) (i : Nat),
    l.foldl (fun (a : Option Nat) i => some (match a with | none => i | some b => min b i)) a = some i → i ∈ l ∨ a = some i := by
  intro l
  induction l with
  | nil => exact fun a i h => .inr h
  | cons b l ih =>
    intro a i h
    rcases ih _ i h with h | h
    · exact .inl (List.mem_cons_of_mem _ h)
    · cases a with
      | none =>
        obtain rfl := Option.some.inj h
        exact .inl List.mem_cons_self
      | some c =>
        obtain rfl := Option.some.inj h
        rcases min_choice c b with hm | hm
        · exact .inr (congrArg some hm.symm)
        · left
          show min c b ∈ b :: l
          rw [hm]
          exact List.mem_cons_self

theorem rotFirst_mem {p i : Nat} {l : List Nat} (h : rotFirst p l = some i) : i ∈ l := by
  unfold rotFirst at h
  dsimp only at h
  split at h
  next j hj =>
    obtain rfl := Option.some.inj h
    exact List.mem_of_mem_filter ((foldl_min_mem _ none j hj).resolve_right (Option.some_ne_none j).symm)
  next => exact (foldl_min_mem _ none i h).resolve_right (Option.some_ne_none i).symm

theorem class_of_scanning {s : State} {c i : Nat} (h : i ∈ scanning s c) : slqClass s i = c := by
  have hcond := (List.mem_filter.mp h).2
  simp only [Bool.and_eq_true, beq_iff_eq] at hcond
  exact hcond.2

/-- A SLQ_MODIFY reaches WEIGHT, BURST and MAXOUT of its sluice. -/
theorem applyModify_rest (i : Nat) (s : State) : applyModify i s = { s with regs := (applyModify i s).regs, slq := (applyModify i s).slq } := by
  unfold applyModify
  split <;> rfl

/-- The fields that it writes. -/
def modifiedRegs (i w b m : Nat) (s : State) : State := ((s.put Fld.slqCfgWeight w i).put Fld.slqCfgBurst (b - 1) i).put Fld.slqNsMaxout m i

theorem applyModify_regs (i : Nat) (s : State) :
    (applyModify i s).regs = s.regs ∨ ∃ w b m, (applyModify i s).regs = (modifiedRegs i w b m s).regs := by
  unfold applyModify
  split
  next w b m h => exact .inr ⟨w, b, m, rfl⟩
  next => exact .inl rfl

theorem applyModify_reg (i : Nat) (s : State) {k : RegKind} (h1 : k ≠ .slqCfg) (h2 : k ≠ .slqNs) (j : Nat) : (applyModify i s).reg k j = s.reg k j := by
  rcases applyModify_regs i s with h | ⟨w, b, m, h⟩
  · exact State.reg_of_regs h k j
  · rw [State.reg_of_regs h, modifiedRegs, State.reg_put_kind _ h2, State.reg_put_kind _ h1, State.reg_put_kind _ h1]

theorem applyModify_get (i : Nat) (s : State) {f : Fld} (h1 : f.kind ≠ .slqCfg) (h2 : f.kind ≠ .slqNs) (j : Nat) : (applyModify i s).get f j = s.get f j :=
  congrArg f.get (applyModify_reg i s h1 h2 j)

/-- A field of SLQ_CFG apart from WEIGHT and BURST. -/
theorem applyModify_cfg (i : Nat) (s : State) {f : Fld} (hk : f.kind = .slqCfg) (hf : f.hi < 32)
    (h1 : f.hi < Fld.slqCfgWeight.lo ∨ Fld.slqCfgWeight.hi < f.lo) (h2 : f.hi < Fld.slqCfgBurst.lo ∨ Fld.slqCfgBurst.hi < f.lo) (j : Nat) :
    (applyModify i s).get f j = s.get f j := by
  rcases applyModify_regs i s with h | ⟨w, b, m, h⟩
  · exact State.get_of_regs h f j
  · rw [State.get_of_regs h, modifiedRegs, State.get_put_kind _ (by rw [hk]; decide), State.get_put_field _ h2 hf, State.get_put_field _ h1 hf]

/-- The grant of the slot to a sluice. -/
def slotGiven (i : Nat) (s : State) : State := { applyModify i s with fetchPtr := Tab.put (slqClass s i) (i + 1) s.fetchPtr }

theorem slotGiven_regs (i : Nat) (s : State) : (slotGiven i s).regs = (applyModify i s).regs := rfl

theorem exec_fetchGrant {s : State} {i : Nat} (hrun : s.running = true) (hst : 8 ≤ s.stage) (hfl : flueWants s = false)
    (hpick : rotFirst (Tab.get 0 0 s.fetchPtr) (scanning s 0) = some i) (hstrict : (slotGiven i s).flag Fld.slqCfgStrict i = false) :
    exec .fetchGrant s = .next (issueFetch i ((slotGiven i s).get Fld.slqHeadHead i) (fetchLen (slotGiven i s) i ((slotGiven i s).get Fld.slqHeadHead i))
      (slotGiven i s)) := by
  have hpick' : pickSluice s = (some i, applyModify i s) := by rw [pickSluice, hpick]
  have hptr : { applyModify i s with fetchPtr := Tab.put (slqClass s i) (i + 1) (applyModify i s).fetchPtr } = slotGiven i s := by
    rw [slotGiven]
    have hkeep : (applyModify i s).fetchPtr = s.fetchPtr := by rw [applyModify_rest]
    rw [hkeep]
  show execFetchGrant s = _
  unfold execFetchGrant
  rw [hpick']
  dsimp only
  rw [hptr, hrun, hfl, decide_eq_true hst, if_neg (by rw [hstrict]; exact fun h => Bool.false_ne_true h.1)]
  rfl

/-- What a grant reads by is what the sluice had before. -/
theorem slotGiven_get (i : Nat) (s : State) {f : Fld} (h1 : f.kind ≠ .slqCfg) (h2 : f.kind ≠ .slqNs) (j : Nat) : (slotGiven i s).get f j = s.get f j := by
  rw [State.get_of_regs (slotGiven_regs i s), applyModify_get i s h1 h2]

theorem slotGiven_addr (i : Nat) (s : State) (u : Nat) : slqAddr (slotGiven i s) i u = slqAddr s i u := by
  rw [slqAddr, slqAddr, slotGiven_get i s (by decide) (by decide), slotGiven_get i s (by decide) (by decide)]

theorem slotGiven_class (i : Nat) (s : State) : slqClass (slotGiven i s) i = slqClass s i := by
  rw [slqClass, slqClass, State.get_of_regs (slotGiven_regs i s)]
  exact applyModify_cfg i s rfl (by decide) (by decide) (by decide) i

theorem slotGiven_units (i : Nat) (s : State) : slqUnits (slotGiven i s) i = slqUnits s i := by
  rw [slqUnits, slqUnits, State.get_of_regs (slotGiven_regs i s)]
  exact congrArg (128 * ·) (applyModify_cfg i s rfl (by decide) (by decide) (by decide) i)

theorem slotGiven_port (i : Nat) (s : State) : slqPort (slotGiven i s) i = slqPort s i := by
  have hring : slqRing (slotGiven i s) i = slqRing s i := slotGiven_get i s (by decide) (by decide) i
  rw [slqPort, slqPort, hring]
  exact slotGiven_get i s (by decide) (by decide) _

theorem slotGiven_strict (i : Nat) (s : State) : (slotGiven i s).flag Fld.slqCfgStrict i = s.flag Fld.slqCfgStrict i := by
  rw [State.flag_of_regs (slotGiven_regs i s), State.flag, State.flag]
  exact congrArg (· != 0) (applyModify_cfg i s rfl (by decide) (by decide) (by decide) i)

/-- A sluice that is not strict reads to the same bound as before. -/
theorem slotGiven_fetchLen {i : Nat} {s : State} (h : s.flag Fld.slqCfgStrict i = false) (u : Nat) : fetchLen (slotGiven i s) i u = fetchLen s i u := by
  have hstrict := slotGiven_strict i s
  rw [h] at hstrict
  simp only [fetchLen, hstrict, h, slotGiven_addr, slotGiven_units, Bool.false_eq_true, false_and, if_false]

theorem State.issueAll_slq (s : State) (l : List (FabReq × Purpose)) : (s.issueAll l).slq = s.slq := by rw [issueAll_rest]

/-- A fetch read issued. -/
theorem issueFetch_spec (i u len : Nat) (s : State) :
    ((issueFetch i u len s).sluice i).fetch = some (u, len) ∧ (issueFetch i u len s).fetchPtr = s.fetchPtr ∧ (issueFetch i u len s).regs = s.regs ∧
      (issueFetch i u len s).fab = fabIssue s.now s.fab (mkReq (slqPort s i) (slqClass s i) .rd (slqAddr s i u) len []) (.fetch i) := by
  refine ⟨?_, ?_, State.issueAll_regs _ _, State.issueAll_fab _ _⟩
  · have hslq : (issueFetch i u len s).slq = (s.modSluice i fun x => { x with fetch := some (u, len) }).slq := State.issueAll_slq _ _
    rw [State.sluice_of_slq hslq, State.sluice_modSluice_same]
  · rw [issueFetch, State.issue, issueAll_rest]
    rfl

/-! ## The first unit of a fetch (R433, R434) -/

/-- The fetch is in. -/
def fetchIn (n : Nat) (s : State) : State := s.modSluice n fun x => { x with fetch := none, part := [] }

theorem fetchIn_regs (n : Nat) (s : State) : (fetchIn n s).regs = s.regs := rfl

theorem fetchIn_sluice (n : Nat) (s : State) : (fetchIn n s).sluice n = { s.sluice n with fetch := none, part := [] } := State.sluice_modSluice_same ..

theorem takeOutst_state {p : Purpose} {s t : State} {o : Outst} (h : takeOutst p s = some (o, t)) : t = { s with fab := dropOutst s.fab o } := by
  unfold takeOutst at h
  split at h
  · cases h
  · cases h
    rfl

theorem fetched_ok {n : Nat} {s : State} {f : Nat × Nat} (hf : (s.sluice n).fetch = some f) (hpart : (s.sluice n).part = []) (hb : s.banked = false)
    (hen : s.flag Fld.slqCtlEn n = true) (hhalt : (s.get Fld.slqHaltHalt).testBit (slqClass s n) = false) {data : List Byte} {u : State} {h : Nat}
    (hscan : scanBlock n 17 (s.get Fld.slqHeadHead n) 0 data (fetchIn n s) = (u, h, 0)) : fetched n .ok data s = u := by
  have hen' : (fetchIn n s).flag Fld.slqCtlEn n = true := hen
  have hcond : ¬((fetchIn n s).banked = true ∨ ((fetchIn n s).get Fld.slqHaltHalt).testBit (slqClass (fetchIn n s) n) = true) := by
    show ¬(s.banked = true ∨ (s.get Fld.slqHaltHalt).testBit (slqClass s n) = true)
    rw [hb, hhalt]
    decide
  have hin : s.modSluice n (fun x => { x with fetch := none, part := [] }) = fetchIn n s := rfl
  unfold fetched
  dsimp only
  rw [hf, hpart]
  dsimp only
  rw [hin, hen', if_neg (by decide), if_neg hcond, if_neg (by decide), List.nil_append, hscan]
  rfl

theorem exec_fetchReadDone {s t0 : State} {n : Nat} {o : Outst} (htake : takeOutst (.fetch n) s = some (o, t0)) (hon : s.coreOn = true) (code : RCode)
    (data : List Byte) : exec (.fetchReadDone n code data) s = .next (fetched n code data t0) := by
  show execFetchReadDone n code data s = _
  simp only [execFetchReadDone, htake, hon, onlyIf_true]

theorem scanBlock_notOwned {n h : Nat} {b : List Byte} {s : State} (hlen : 32 ≤ b.length) (hstrict : s.flag Fld.slqCfgStrict n = false)
    (hown : (readEntry b).own = false) (hpend : s.flag Fld.slqStsDbPend n = false) (fuel : Nat) :
    scanBlock n (fuel + 1) h 0 b s = (stopScan n s, h, 0) := by
  unfold scanBlock
  rw [if_neg (by omega), if_neg (by rw [hstrict]; exact fun h => Bool.false_ne_true h.1)]
  dsimp only
  rw [if_pos (by simp [hown, hstrict]), hpend, if_neg (by decide)]

theorem scanBlock_malformed {n h code : Nat} {b : List Byte} {s : State} (hlen : 32 ≤ b.length) (hstrict : s.flag Fld.slqCfgStrict n = false)
    (hown : (readEntry b).own = true) (hlim : takeLimit s n 0 = false) (hroom : hasRoom s (slqRing s n) (entryUnits s n (readEntry b)) = true)
    (hmal : malformed s n h (readEntry b) = some code) (hwhole : slqUnits s n < h + (readEntry b).len + 1 ∨ 32 * ((readEntry b).len + 1) ≤ b.length)
    (fuel : Nat) :
    scanBlock n (fuel + 1) h 0 b s = (malform n h code (readEntry b).cid (entryUnits s n (readEntry b)) s, h, 0) := by
  unfold scanBlock
  rw [if_neg (by omega), if_neg (by rw [hstrict]; exact fun h => Bool.false_ne_true h.1)]
  dsimp only
  rw [if_neg (by simp [hown]), if_neg (by simp [hlim]), if_neg (by simp [hroom]), if_neg (by omega), hmal]

/-! ## A malformed entry (R430, R431) -/

/-- What ERROR shows. -/
def errorShown (i unit code : Nat) (s : State) : State :=
  (stopScan i (((s.putFlag Fld.slqStsError true i).put Fld.slqStsErrIdx unit i).put Fld.slqStsErrCode code i)).inc Fld.slqGstsMalf

/-- The MALFORMED entry. -/
def malformedEntry (i cid units : Nat) (s : State) : HEntry := {
  bytes := leBytes 1 64 ++ leBytes 1 0 ++ leBytes 2 cid ++ leBytes 2 i ++ leBytes 2 (s.get Fld.slqCfg2Client i) ++ leBytes 4 0
    ++ leBytes 1 0x20 ++ List.replicate 19 0
  sluice := i
  irqNow := true
  status := 0x20
  release := units
  rtag := 0
  last := false }

/-- The entry owed and logged. -/
def malformedOwed (i unit code cid units : Nat) (s : State) : State :=
  ((s.reserve (slqRing s i) units).owe (slqRing s i) (malformedEntry i cid units s)).logPacked uSLQ (0x500 + code) [(2, i), (2, unit)]

theorem malform_eq (i unit code cid units : Nat) (s : State) :
    malform i unit code cid units s = (let t := malformedOwed i unit code cid units (errorShown i unit code s)
      if t.get Fld.slqCfgOwner i = 2 then t.bankNamed 5 [] else t) := rfl

section
variable (i unit code cid units : Nat) (s : State)

theorem errorShown_rest : errorShown i unit code s = { s with regs := (errorShown i unit code s).regs } := rfl

theorem errorShown_get {f : Fld} (h1 : f.kind ≠ .slqSts) (h2 : f.kind ≠ .slqGsts) (j : Nat) : (errorShown i unit code s).get f j = s.get f j := by
  rw [errorShown, State.get_inc_kind _ h2, stopScan, State.get_putFlag_kind _ h1, State.get_put_kind _ h1, State.get_put_kind _ h1, State.get_putFlag_kind _ h1]

theorem errorShown_error : (errorShown i unit code s).flag Fld.slqStsError i = true := by
  rw [errorShown, State.flag_inc_kind _ (by decide), stopScan, State.flag_putFlag_field _ (by decide) (by decide), State.flag_put_field _ (by decide) (by decide),
    State.flag_put_field _ (by decide) (by decide)]
  exact State.flag_putFlag s Fld.slqStsError rfl (by decide) true i

theorem errorShown_code (h : code < 256) : (errorShown i unit code s).get Fld.slqStsErrCode i = code := by
  rw [errorShown, State.get_inc_kind _ (by decide), stopScan, State.get_putFlag_field _ (by decide) (by decide), State.get_put_same _ _ (by decide)]
  exact Nat.mod_eq_of_lt h

theorem errorShown_scan : (errorShown i unit code s).flag Fld.slqStsScan i = false := by
  rw [errorShown, State.flag_inc_kind _ (by decide), stopScan]
  exact State.flag_putFlag _ Fld.slqStsScan rfl (by decide) false i

theorem malformedOwed_queue : ((malformedOwed i unit code cid units s).ring (slqRing s i)).queue =
    (s.ring (slqRing s i)).queue ++ [malformedEntry i cid units s] := by
  have howe : (malformedOwed i unit code cid units s).ring (slqRing s i) =
      ((s.reserve (slqRing s i) units).owe (slqRing s i) (malformedEntry i cid units s)).ring (slqRing s i) := State.ring_of_hrv (State.logPacked_hrv _ _ _ _ _) _
  rw [howe, State.owe, State.ring_setRing_same, State.reserve, State.ring_setRing_same]

theorem malformedOwed_reg {k : RegKind} (h : k ≠ .glbLogSeq) (j : Nat) : (malformedOwed i unit code cid units s).reg k j = s.reg k j := by
  rw [malformedOwed, State.reg_logPacked _ h]
  rfl

end

theorem bankNamed_hrv (s : State) (cause : Nat) (obj : List (Nat × Nat)) : (s.bankNamed cause obj).hrv = s.hrv := by
  unfold State.bankNamed
  split <;> rfl

theorem bankNamed_reqs (s : State) (cause : Nat) (obj : List (Nat × Nat)) : (s.bankNamed cause obj).reqs = s.reqs := by
  unfold State.bankNamed
  split <;> rfl

/-- R430: what a malformed entry leaves. -/
theorem malform_spec (i unit : Nat) {code : Nat} (hcode : code < 256) (cid units : Nat) (s : State) :
    (malform i unit code cid units s).flag Fld.slqStsError i = true ∧ (malform i unit code cid units s).get Fld.slqStsErrCode i = code ∧
    (malform i unit code cid units s).flag Fld.slqStsScan i = false ∧
    (∃ x, ((malform i unit code cid units s).ring (slqRing s i)).queue = (s.ring (slqRing s i)).queue ++ [x] ∧ x.status = 0x20 ∧ x.sluice = i) ∧
    (malform i unit code cid units s).reqs = s.reqs ∧ (s.get Fld.slqCfgOwner i = 2 → (malform i unit code cid units s).banked = true) := by
  have herr := errorShown_error i unit code s
  have hshown := errorShown_code i unit code s hcode
  have hscan := errorShown_scan i unit code s
  have hget {f : Fld} := errorShown_get i unit code s (f := f)
  have hrest := errorShown_rest i unit code s
  rw [malform_eq]
  generalize errorShown i unit code s = u at herr hshown hscan hget hrest
  have hring : slqRing u i = slqRing s i := hget (by decide) (by decide) i
  have hqueue := malformedOwed_queue i unit code cid units u
  have hreqs : (malformedOwed i unit code cid units u).reqs = u.reqs := rfl
  have hreg {k : RegKind} := malformedOwed_reg i unit code cid units u (k := k)
  rw [hring, State.ring_of_hrv (by rw [hrest] : u.hrv = s.hrv)] at hqueue
  generalize malformedOwed i unit code cid units u = v at hqueue hreqs hreg
  have hreqs : v.reqs = s.reqs := hreqs.trans (by rw [hrest])
  have hverr : v.flag Fld.slqStsError i = true := by rw [State.flag, State.get, hreg (by decide)]; exact herr
  have hvcode : v.get Fld.slqStsErrCode i = code := by rw [State.get, hreg (by decide)]; exact hshown
  have hvscan : v.flag Fld.slqStsScan i = false := by rw [State.flag, State.get, hreg (by decide)]; exact hscan
  have hvown : v.get Fld.slqCfgOwner i = s.get Fld.slqCfgOwner i := by rw [State.get, hreg (by decide)]; exact hget (by decide) (by decide) i
  dsimp only
  rw [hvown]
  split
  next hown =>
    refine ⟨?_, ?_, ?_, ⟨malformedEntry i cid units u, ?_, rfl, rfl⟩, ?_, fun _ => bankNamed_banked _ _ _⟩
    · rw [v.flag_bankNamed (by decide), hverr]
    · rw [v.get_bankNamed (by decide), hvcode]
    · rw [v.flag_bankNamed (by decide), hvscan]
    · rw [State.ring_of_hrv (bankNamed_hrv _ _ _), hqueue]
    · rw [bankNamed_reqs, hreqs]
  next hown => exact ⟨hverr, hvcode, hvscan, ⟨malformedEntry i cid units u, hqueue, rfl, rfl⟩, hreqs, fun h => absurd h hown⟩

theorem malformed_lt {s : State} {i u code : Nat} {e : SqEntry} (h : malformed s i u e = some code) : code < 256 := by
  unfold malformed at h
  dsimp only at h
  split_ifs at h <;> (cases h; decide)

/-- The take limits look at the sluice's credit, not at its fetch. -/
theorem takeLimit_fetchIn (s : State) (n taken : Nat) : takeLimit (fetchIn n s) n taken = takeLimit s n taken := by
  have hcredit : ((fetchIn n s).sluice n).credit = (s.sluice n).credit := by rw [fetchIn_sluice]
  unfold takeLimit
  rw [hcredit]
  rfl

/-- Settles O28: the sluice's registers, the grant of the fetch slot, and the first unit that a fetch brings. -/
theorem sluiceControls : Obligations.SluiceControls := by
  refine ⟨fun s r n w hn hs => ⟨fun hw => ?_, fun hw hv => ⟨fun hen => ?_, fun hen => ?_⟩, fun hw => ?_, fun hw => ?_⟩,
    fun s i hrun hst hfl hpick hstrict => ?_, fun s n o t0 f data htake hon hb hf hpart hen hhalt hstrict hlen => ?_⟩
  · refine ⟨_, exec_sluiceDoorbell hn hw hs, ?_⟩
    by_cases hlive : s.flag Fld.slqCfgValid n = true ∧ s.flag Fld.slqCtlEn n = true ∧ s.flag Fld.slqStsError n = false
    · obtain ⟨hresps, hst, hlimit, hscan, hregs, hstart, hkept⟩ := slqDbWrite_live_spec hlive w
      refine ⟨respondWrite_resps_of_eq hresps r, fun hp => ?_, fun h => absurd hlive h, fun _ => ?_⟩
      · rw [State.respondWrite_eq]
        exact hst.trans (State.restart_p1 hp)
      · rw [State.flag_respondWrite, State.flag_respondWrite, State.respondWrite_eq]
        exact ⟨hlimit, hscan, hregs, hstart, hkept⟩
    · obtain ⟨hslq, hregs, hstray, hresps, hpwr⟩ := slqDbWrite_stray_spec hlive w
      refine ⟨respondWrite_resps_of_eq hresps r, fun hp => ?_, fun _ => ?_, fun h => absurd h hlive⟩
      · rw [State.respondWrite_eq]
        exact (congrArg (·.st) hpwr).trans (State.restart_p1 hp)
      · rw [State.respondWrite_eq]
        exact ⟨hslq, hregs, hstray⟩
  · obtain ⟨hrest, hon, herr, hpend⟩ := slqCtlWrite_enable_spec hv hen
    refine ⟨_, exec_sluiceEnable hn hw hs hen, ?_⟩
    rw [State.flag_respondWrite, State.flag_respondWrite, State.flag_respondWrite]
    exact ⟨hon, herr, hpend, respondWrite_regsOnly hrest r⟩
  · obtain ⟨hrest, hoff, hwait, hscan⟩ := slqCtlWrite_disable_spec hv hen
    refine ⟨_, exec_sluiceDisable hn hw hs hen, ?_⟩
    rw [State.flag_respondWrite, State.flag_respondWrite, State.flag_respondWrite]
    exact ⟨hoff, hwait, hscan, respondWrite_regsOnly hrest r⟩
  · obtain ⟨hrest, hregs, hhead⟩ := slqHeadWrite_spec n w s
    refine ⟨_, exec_slqHeadWrite hn hw hs, respondWrite_regsOnly hrest r, hregs.respondWrite r _, ?_⟩
    rw [State.get_respondWrite, hhead]
  · refine ⟨_, exec_slqHaltWrite hw hs, ?_, (otherRegs_setHalt _ s).respondWrite r _, respondWrite_resps_of_eq (setHalt_resps _ _) r⟩
    rw [State.get_respondWrite, State.get_of_regs (setHalt_regs _ _), s.get_put_same _ (by decide)]
    exact Nat.mod_eq_of_lt (Fld.get_lt _ w)
  · have hclass : slqClass s i = 0 := class_of_scanning (rotFirst_mem hpick)
    have hhead : (slotGiven i s).get Fld.slqHeadHead i = s.get Fld.slqHeadHead i := slotGiven_get i s (by decide) (by decide) i
    have hexec := exec_fetchGrant hrun hst hfl hpick ((slotGiven_strict i s).trans hstrict)
    rw [hhead, slotGiven_fetchLen hstrict] at hexec
    obtain ⟨hfetch, hptr, hregs, hfab⟩ := issueFetch_spec i (s.get Fld.slqHeadHead i) (fetchLen s i (s.get Fld.slqHeadHead i)) (slotGiven i s)
    rw [slotGiven_port, slotGiven_class, slotGiven_addr, hclass] at hfab
    have hnow : (slotGiven i s).now = s.now := by rw [slotGiven, applyModify_rest]; rfl
    have hsfab : (slotGiven i s).fab = s.fab := by rw [slotGiven, applyModify_rest]
    rw [hnow, hsfab] at hfab
    refine ⟨_, hexec, hfetch, ?_, hregs, hfab⟩
    rw [hptr]
    show Tab.get 0 0 (Tab.put (slqClass s i) (i + 1) s.fetchPtr) = _
    rw [hclass, Tab.get_put_same]
  · have ht0 := takeOutst_state htake
    have hexec := exec_fetchReadDone htake hon .ok data
    have hregs : t0.regs = s.regs := by rw [ht0]
    have hsl : t0.sluice n = s.sluice n := State.sluice_of_slq (by rw [ht0]) n
    have hin : (fetchIn n t0).regs = s.regs := hregs
    refine ⟨fun hown hpend => ?_, fun code hown hlim hroom hmal hwhole => ?_⟩
    · have hscan := scanBlock_notOwned (s := fetchIn n t0) (h := s.get Fld.slqHeadHead n) hlen ((State.flag_of_regs hin _ _).trans hstrict) hown
        ((State.flag_of_regs hin _ _).trans hpend) 16
      rw [fetched_ok (hsl ▸ hf) (hsl ▸ hpart) ((State.flag_of_regs hregs _ _).trans hb) ((State.flag_of_regs hregs _ _).trans hen) (by rw [ht0]; exact hhalt)
        (by rw [State.get_of_regs hregs]; exact hscan)] at hexec
      refine ⟨_, hexec, State.flag_putFlag _ Fld.slqStsScan rfl (by decide) false n, fun k i hk => ?_, ?_, ?_, rfl⟩
      · exact (otherRegs_putFlag (fetchIn n t0) Fld.slqStsScan false n k i hk).trans (State.reg_of_regs hin k i)
      · show ((fetchIn n t0).sluice n).fetch = none
        rw [fetchIn_sluice]
      · show t0.reqs = s.reqs
        rw [ht0]
    · have hlim' : takeLimit (fetchIn n t0) n 0 = false := by
        rw [takeLimit_fetchIn, ht0]
        exact hlim
      have hunits : entryUnits (fetchIn n t0) n (readEntry data) = entryUnits s n (readEntry data) := by rw [ht0]; rfl
      have hring : slqRing (fetchIn n t0) n = slqRing s n := by rw [ht0]; rfl
      have hscan := scanBlock_malformed (s := fetchIn n t0) (h := s.get Fld.slqHeadHead n) hlen ((State.flag_of_regs hin _ _).trans hstrict) hown hlim'
        (by rw [hunits, hring, ht0]; exact hroom) (by rw [ht0]; exact hmal) (by rw [ht0]; exact hwhole) 16
      rw [fetched_ok (hsl ▸ hf) (hsl ▸ hpart) ((State.flag_of_regs hregs _ _).trans hb) ((State.flag_of_regs hregs _ _).trans hen) (by rw [ht0]; exact hhalt)
        (by rw [State.get_of_regs hregs]; exact hscan)] at hexec
      obtain ⟨herr, hcode, hstop, ⟨x, hq, hxs, hxi⟩, hreqs, hbank⟩ := malform_spec n (s.get Fld.slqHeadHead n) (malformed_lt hmal) (readEntry data).cid
        (entryUnits (fetchIn n t0) n (readEntry data)) (fetchIn n t0)
      rw [hring, State.ring_of_hrv (by rw [ht0]; rfl : (fetchIn n t0).hrv = s.hrv)] at hq
      exact ⟨_, x, hexec, herr, hcode, hstop, hq, hxs, hxi, hreqs.trans (by rw [ht0]; rfl), fun ho => hbank ((State.get_of_regs hin _ _).trans ho)⟩

end Sys2Proof.Machine
end


section
/-! PROOFS. O29: the seven sluice operations as they start. -/
namespace Sys2Proof.Machine

/-! ## Requests that end -/

theorem finish_owes (q : Request) (status dstate : Nat) (s : State) : Owes s (finish q status dstate s) q status true :=
  ⟨_, congrArg Hrv.queue (Tab.get_set_same _ _ _ _), rfl, rfl, rfl, rfl⟩

theorem finish_rest (q : Request) (status dstate : Nat) (s : State) :
    finish q status dstate s = { s with hrv := (finish q status dstate s).hrv, reqs := (finish q status dstate s).reqs } := rfl

/-- A request that a row has started. -/
def Request.begun (q : Request) : Request := { q with started := true }

theorem Owes.of_begun {s t : State} {q : Request} {status : Nat} {last : Bool} (h : Owes (s.setRq q.begun) t q.begun status last) : Owes s t q status last := h

theorem startRow_run {s : State} {rtag opc : Nat} {q : Request} (ht : Taken s rtag opc q) (hns : namesTiles opc = true → q.nsOk = true)
    (run : Request → State → State) : startRow rtag opc run s = .next (run q.begun (s.setRq q.begun)) := by
  obtain ⟨hrun, hq, -, hopc, hst⟩ := ht
  have hmay : (s.running && q.opc == opc && !q.started) = true := by simp [hrun, hopc, hst]
  have hok : ¬ (namesTiles opc && !q.nsOk) = true := fun h => by
    obtain ⟨hn, hno⟩ := Bool.and_eq_true_iff.mp h
    rw [hns hn] at hno
    cases hno
  rw [startRow, hq]
  dsimp only
  rw [hmay, onlyIf_true]
  exact congrArg Host.Outcome.next (if_neg hok)

theorem startRow_unavailable {s : State} {rtag opc : Nat} {q : Request} (ht : Taken s rtag opc q) (hn : namesTiles opc = true) (hns : q.nsOk = false)
    (run : Request → State → State) : startRow rtag opc run s = .next (finish q.begun 0x12 0 (s.setRq q.begun)) := by
  obtain ⟨hrun, hq, -, hopc, hst⟩ := ht
  have hmay : (s.running && q.opc == opc && !q.started) = true := by simp [hrun, hopc, hst]
  have hno : (namesTiles opc && !q.nsOk) = true := by rw [hn, hns]; rfl
  rw [startRow, hq]
  dsimp only
  rw [hmay, onlyIf_true]
  exact congrArg Host.Outcome.next (if_pos hno)

/-- The check of a request whose operation delivers nothing and owes no twin. -/
theorem startDelivery_other {s : State} {rtag : Nat} {q : Request} (hq : s.rq rtag = some q) (hopc : q.opc ≠ 1) : startDelivery rtag s = s := by
  rw [startDelivery, hq]
  exact if_pos (Or.inl hopc)

theorem requestCheck_flush {s : State} {rtag : Nat} {q : Request} (hq : s.rq rtag = some q) (hopc : q.opc = 3) (hst : q.started = true)
    (hfirst : q.firstOut = false) (hwait : q.waitFor = []) : requestCheck rtag s = finish q 0 3 s := by
  rw [requestCheck, startDelivery_other hq (by omega), hq]
  dsimp only
  rw [hst, hfirst, hopc, hwait]
  rfl

theorem requestCheck_margin {s : State} {rtag : Nat} {q : Request} (hq : s.rq rtag = some q) (hopc : q.opc = 6) (hst : q.started = true)
    (hfirst : q.firstOut = false) (hmore : q.margin.all (· != 0x100) = false) : requestCheck rtag s = s := by
  rw [requestCheck, startDelivery_other hq (by omega), hq]
  dsimp only
  rw [hst, hfirst, hopc, hmore]
  rfl

theorem startDelivery_md (rtag : Nat) (s : State) : (startDelivery rtag s).md = s.md := by
  unfold startDelivery
  split
  · rfl
  · split <;> rfl

/-- The check of a request reaches the requests, the rings and the movers' jobs, and not the media. -/
theorem requestCheck_md (rtag : Nat) (s : State) : (requestCheck rtag s).md = s.md := by
  have hmd := startDelivery_md rtag s
  have hlate (q : Request) (u : State) : (mirroredLate q u).md = u.md := by
    unfold mirroredLate
    dsimp only
    split <;> rfl
  have hfin (q : Request) (status dstate : Nat) (u : State) : (finish q status dstate u).md = u.md := rfl
  unfold requestCheck
  dsimp only
  split
  · exact hmd
  next q hq =>
    by_cases hidle : (!q.started || (q.firstOut && !q.deferred && !q.owesTwin)) = true
    · rw [if_pos hidle, hmd]
    · rw [if_neg hidle]
      split <;> (try split_ifs) <;> simp only [hlate, hfin, hmd]

/-! ## WRITE and MARGIN -/

/-- What the row of a WRITE runs (R342, R326). -/
def writeRow (q : Request) (s : State) : State :=
  if q.status = some 0x10 then finish q 0x10 0 s
  else q.tiles.zipIdx.foldl (fun s t => match t.1.slot with
    | some slot => startCommit q t.2 t.1 slot 0 s
    | none => s) s

theorem commitJobs_shape (q : Request) (i : Nat) (x : Tile) (slot : Nat) (s : State) :
    ∃ j l, commitJobs q i x slot 0 s = j :: l ∧ j.path = .commitOwn q.rtag i slot ∧ j.tries = 0 ∧ l.length = if mirroring s then 1 else 0 := by
  unfold commitJobs
  dsimp only
  split
  next h => exact ⟨_, _, rfl, rfl, rfl, rfl⟩
  next h => exact ⟨_, _, rfl, rfl, rfl, rfl⟩

theorem mirroring_of_twinSts {s t : State} (h : t.reg .mapTwinSts 0 = s.reg .mapTwinSts 0) : mirroring t = mirroring s := by
  have hget : t.get Fld.mapTwinStsState = s.get Fld.mapTwinStsState := congrArg Fld.mapTwinStsState.get h
  rw [mirroring, hget, mirroring]

/-- The commit of a tile queues its own job, and one of the twin's copy where the engine mirrors (R326, R354). -/
theorem startCommit_jobs (q : Request) (i : Nat) (x : Tile) (slot : Nat) (s : State) :
    ∃ j l, (startCommit q i x slot 0 s).mov.jobs = s.mov.jobs ++ j :: l ∧ j.path = .commitOwn q.rtag i slot ∧ j.tries = 0 ∧
      (l.length = if mirroring s then 1 else 0) ∧ (startCommit q i x slot 0 s).reqs = s.reqs := by
  unfold startCommit
  dsimp only
  split
  next h =>
    obtain ⟨j, l, hjobs, hpath, htries, hlen⟩ := commitJobs_shape q i x slot (s.inc Fld.belGstsC0Wait)
    rw [hjobs]
    rw [mirroring_of_twinSts (s.reg_inc_kind (g := Fld.belGstsC0Wait) (k := .mapTwinSts) (by decide) 0 1 0)] at hlen
    exact ⟨j, l, rfl, hpath, htries, hlen, rfl⟩
  next h =>
    obtain ⟨j, l, hjobs, hpath, htries, hlen⟩ := commitJobs_shape q i x slot s
    rw [hjobs]
    exact ⟨j, l, rfl, hpath, htries, hlen, rfl⟩

/-- The CBC byte of each of a margin read's results that is still to come (R275). -/
def marginDue (q : Request) : List Nat := (List.range 16).map fun j => if q.opx.testBit (j / 2) then 0x100 else 0

theorem marginDue_some {q : Request} {k : Nat} (hk : k < 8) (hbit : q.opx.testBit k = true) : (marginDue q).all (· != 0x100) = false := by
  refine List.all_eq_false.mpr ⟨0x100, List.mem_map.mpr ⟨2 * k, List.mem_range.mpr (by omega), ?_⟩, by decide⟩
  rw [Nat.mul_div_cancel_left k (by decide), if_pos hbit]

/-- One of the two reads of a codeword that a MARGIN asks for, its references shifted by `d` (R275). -/
def marginWant (q : Request) (g : Page) (off : List Int) (k : Nat) (plus : Bool) (d : Int) : Want := {
  why := .margin q.rtag k plus
  cls := q.order
  rtag := q.rtag
  kind := 0
  page := g
  cw := k
  offs := shiftOffs off d
  step := 0
  front := false
  data := []
  optype := 0
  arg := 0
  since := 0 }

/-- The two reads of a codeword, queued. -/
def marginPair (q : Request) (g : Page) (off : List Int) (d : Int) (s : State) (k : Nat) : State :=
  enqueue (marginWant q g off k true d) (enqueue (marginWant q g off k false (-d)) s)

theorem marginReads_eq (q : Request) (s : State) : marginReads q s =
    ((List.range 8).filter fun k => q.opx.testBit k).foldl
      (marginPair q (entPage s q.buf) (readOffs s (entPage s q.buf)) (max 1 (s.get Fld.cryWarnMstep))) s := rfl

theorem marginPair_rest (q : Request) (g : Page) (off : List Int) (d : Int) (s : State) (k : Nat) :
    marginPair q g off d s k = { s with md := { s.md with luns := (marginPair q g off d s k).md.luns } } := rfl

theorem marginPairs_rest (q : Request) (g : Page) (off : List Int) (d : Int) (ks : List Nat) (s : State) :
    ks.foldl (marginPair q g off d) s = { s with md := { s.md with luns := (ks.foldl (marginPair q g off d) s).md.luns } } := by
  induction ks generalizing s with
  | nil => rfl
  | cons k ks ih => rw [List.foldl_cons, ih, marginPair_rest]

theorem marginPair_queue (q : Request) (g : Page) (off : List Int) (d : Int) (s : State) (k : Nat) :
    ((marginPair q g off d s k).lun g.lun).queue = (s.lun g.lun).queue ++ [{ marginWant q g off k false (-d) with since := s.now }] ++
      [{ marginWant q g off k true d with since := s.now }] := by
  have h1 := State.lun_enqueue (marginWant q g off k false (-d)) s
  have h2 := State.lun_enqueue (marginWant q g off k true d) (enqueue (marginWant q g off k false (-d)) s)
  rw [show (marginWant q g off k true d).page.lun = g.lun from rfl] at h2
  rw [show (marginWant q g off k false (-d)).page.lun = g.lun from rfl] at h1
  rw [marginPair, h2, h1]
  rfl

theorem marginPairs_keep (q : Request) (g : Page) (off : List Int) (d : Int) (ks : List Nat) {s : State} {w : Want} (h : w ∈ (s.lun g.lun).queue) :
    w ∈ ((ks.foldl (marginPair q g off d) s).lun g.lun).queue := by
  induction ks generalizing s with
  | nil => exact h
  | cons k ks ih =>
    refine ih ?_
    rw [marginPair_queue]
    simp [h]

/-- Every codeword named has both its reads queued. -/
theorem marginPairs_queued (q : Request) (g : Page) (off : List Int) (d : Int) {ks : List Nat} {k : Nat} (hk : k ∈ ks) (plus : Bool) (s : State) :
    { marginWant q g off k plus (if plus then d else -d) with since := s.now } ∈ ((ks.foldl (marginPair q g off d) s).lun g.lun).queue := by
  induction ks generalizing s with
  | nil => cases hk
  | cons j ks ih =>
    rcases List.mem_cons.mp hk with rfl | hk
    · refine marginPairs_keep q g off d ks ?_
      rw [marginPair_queue]
      cases plus <;> simp
    · exact ih hk (marginPair q g off d s j)

/-- What the row of a MARGIN runs (R275). -/
def marginRow (rtag : Nat) (q : Request) (s : State) : State :=
  requestCheck rtag (marginReads { q with margin := marginDue q } (s.setRq { q with margin := marginDue q }))

/-! ## UNMAP -/

/-- What the map cache and the map's directory hold stays, and so does every register but MAP_CKPT_STS. -/
structure MapKept (s t : State) : Prop where
  cache : t.md.cache = s.md.cache
  dir : t.md.dir = s.md.dir
  regs : ∀ k i, k ≠ .mapCkptSts → t.reg k i = s.reg k i

theorem MapKept.trans {s t u : State} (h : MapKept s t) (g : MapKept t u) : MapKept s u :=
  ⟨g.cache.trans h.cache, g.dir.trans h.dir, fun k i hk => (g.regs k i hk).trans (h.regs k i hk)⟩

theorem MapKept.of_md {s t : State} (hmd : t.md = s.md) (hregs : t.regs = s.regs) : MapKept s t :=
  ⟨by rw [hmd], by rw [hmd], fun k i _ => State.reg_of_regs hregs k i⟩

theorem MapKept.ite {s t u : State} {c : Prop} [Decidable c] (h : MapKept s t) (g : MapKept s u) : MapKept s (if c then t else u) := by
  split
  · exact h
  · exact g

theorem MapKept.cacheFlushing {s t : State} (h : MapKept s t) : cacheFlushing t = cacheFlushing s :=
  congrArg (fun w => Fld.mapCcStsFlushing.get w != 0) (h.regs .mapCcSts 0 (by decide))

theorem MapKept.cacheHas {s t : State} (h : MapKept s t) (line : Nat) : cacheHas t line = cacheHas s line := by
  have hen : cacheEn t = cacheEn s := congrArg (fun w => Fld.mapCcCtlEn.get w != 0) (h.regs .mapCcCtl 0 (by decide))
  rw [Machine.cacheHas, hen, h.cacheFlushing, h.cache, Machine.cacheHas]

theorem MapKept.moveValid (old new : Nat) (s : State) : MapKept s (moveValid old new s) := by
  have hput (x : Nat) (f : UnitE → UnitE) (u : State) : MapKept u (putUnit x f u) := by
    rw [putUnit_rest]
    exact ⟨rfl, rfl, fun _ _ _ => rfl⟩
  have hself (u : State) : MapKept u u := .of_md rfl rfl
  unfold Machine.moveValid
  dsimp only
  split <;> split
  · exact (hput _ _ _).trans (hput _ _ _)
  · exact hput _ _ _
  · exact hput _ _ _
  · exact hself _

theorem MapKept.jAppend (k : Nat) (r : JRec) (s : State) : MapKept s (jAppend k r s) := by
  unfold Machine.jAppend
  dsimp only
  exact .ite (.of_md rfl rfl) (.ite ⟨rfl, rfl, fun j i hj => State.reg_putFlag_kind _ (g := Fld.mapCkptStsHeld) hj true 0 i⟩ (.of_md rfl rfl))

theorem MapKept.updDone_unmap {u : MUpd} {rtag i : Nat} (hu : u.who = .unmap rtag i) (old : Nat) (s : State) : MapKept s (updDone u old s) := by
  unfold updDone
  rw [hu]
  dsimp only
  refine MapKept.trans ?_ (.jAppend _ _ _)
  exact ⟨rfl, rfl, fun _ _ _ => rfl⟩

theorem modDir_spec (mt : Nat) (f : Dir → Dir) (s : State) :
    (s.modDir mt f).md.cache = s.md.cache ∧ (s.modDir mt f).dirOf mt = f (s.dirOf mt) := by
  unfold State.modDir
  dsimp only
  split
  · exact ⟨rfl, Tab.get_set_same _ _ _ _⟩
  · rw [dramWrite_rest]
    exact ⟨rfl, Tab.get_set_same _ _ _ _⟩

/-- An UNMAP's change of a line in the cache: the tile's entry is 0, the line is dirty, and so is its map tile (R380, R393). -/
theorem mapUpdate_unmap {s : State} {lta rtag i cls : Nat} {l : MLine} (hl : cacheHas s (lta / 8) = some l) (hf : cacheFlushing s = false) :
    Tab.find (lta / 8) (mapUpdate ⟨lta, 0, none, .unmap rtag i⟩ cls s).md.cache = some { l with ents := l.ents.set (lta % 8) 0, dirty := true } ∧
      ((mapUpdate ⟨lta, 0, none, .unmap rtag i⟩ cls s).dirOf (lta / 512)).dirty = true := by
  have hkept (old : Nat) : MapKept s (updDone ⟨lta, 0, none, .unmap rtag i⟩ old (moveValid old 0 s)) :=
    (MapKept.moveValid _ _ s).trans (.updDone_unmap rfl _ _)
  have happ : applyTo ⟨lta, 0, none, .unmap rtag i⟩ l.ents s = (some (l.ents.set (lta % 8) 0),
    updDone ⟨lta, 0, none, .unmap rtag i⟩ ((l.ents[lta % 8]?).getD 0) (moveValid ((l.ents[lta % 8]?).getD 0) 0 s)) := by
    rw [applyTo]
    exact if_pos rfl
  have hmap : mapUpdate ⟨lta, 0, none, .unmap rtag i⟩ cls s = dirtyTile lta (storeLine (lta / 8) (l.ents.set (lta % 8) 0)
      (updDone ⟨lta, 0, none, .unmap rtag i⟩ ((l.ents[lta % 8]?).getD 0) (moveValid ((l.ents[lta % 8]?).getD 0) 0 s))) := by
    rw [mapUpdate]
    dsimp only
    rw [hl]
    dsimp only
    rw [happ]
  rw [hmap]
  have hu := hkept ((l.ents[lta % 8]?).getD 0)
  generalize updDone ⟨lta, 0, none, .unmap rtag i⟩ ((l.ents[lta % 8]?).getD 0) (moveValid ((l.ents[lta % 8]?).getD 0) 0 s) = u at hu
  have hstore : storeLine (lta / 8) (l.ents.set (lta % 8) 0) u = u.setLine (lta / 8) { l with ents := l.ents.set (lta % 8) 0, dirty := true } := by
    rw [storeLine, (hu.cacheHas _).trans hl]
    dsimp only
    rw [hu.cacheFlushing, hf]
    rfl
  rw [hstore]
  obtain ⟨hcache, hdir⟩ := modDir_spec (lta / 512) (fun d => { d with dirty := true }) (u.setLine (lta / 8) { l with ents := l.ents.set (lta % 8) 0, dirty := true })
  refine ⟨?_, ?_⟩
  · rw [dirtyTile, hcache]
    exact Tab.find_put_same _ _ _
  · rw [dirtyTile, hdir]

/-- An UNMAP of a tile with no staged copy, whose line is in the cache. -/
theorem unmapTile_cached {q : Request} {i : Nat} {x : Tile} {l : MLine} {s : State} (hown : s.wp.own = []) (hl : cacheHas s (x.lta / 8) = some l)
    (hf : cacheFlushing s = false) :
    Tab.find (x.lta / 8) (unmapTile q s (x, i)).md.cache = some { l with ents := l.ents.set (x.lta % 8) 0, dirty := true } ∧
      ((unmapTile q s (x, i)).dirOf (x.lta / 512)).dirty = true := by
  have hdisc : discardCopies x.lta s = notePressure s := by
    rw [discardCopies, hown]
    rfl
  have hnone : ((notePressure s).wp.own.any fun e => e.2.lta == x.lta && e.2.st != 0) = false := by
    rw [show (notePressure s).wp.own = [] from hown]
    rfl
  have hkept : MapKept s ((notePressure s).modTile q.rtag i fun t => { t with looked := true }) := .of_md rfl rfl
  have hrun : unmapTile q s (x, i) = mapUpdate ⟨x.lta, 0, none, .unmap q.rtag i⟩ q.cls
      ((notePressure s).modTile q.rtag i fun t => { t with looked := true }) := by
    rw [unmapTile]
    dsimp only
    rw [hdisc, hnone]
    rfl
  rw [hrun]
  exact mapUpdate_unmap ((hkept.cacheHas _).trans hl) (hkept.cacheFlushing.trans hf)

theorem exec_sluiceUnmap {s : State} {rtag : Nat} {q : Request} (ht : Taken s rtag 4 q) (hfirst : q.firstOut = false) (hns : q.nsOk = true)
    (hpfail : s.wp.pfail = false) {x : Tile} (hx : q.tiles = [x]) (hlook : x.looked = false) :
    exec (.sluiceUnmap rtag) s = .next (requestCheck rtag (unmapTile q (s.setRq q.begun) (x, 0))) := by
  obtain ⟨hrun, hq, -, hopc, -⟩ := ht
  have hmay : (s.running && q.opc == 4 && !q.firstOut && !s.wp.pfail) = true := by simp [hrun, hopc, hfirst, hpfail]
  have htodo : (q.tiles.zipIdx.filter fun t => !t.1.looked) = [(x, 0)] := by
    rw [hx]
    simp [hlook]
  show execSluiceUnmap rtag s = _
  rw [execSluiceUnmap, hq]
  dsimp only
  rw [hmay, onlyIf_true, htodo]
  exact congrArg Host.Outcome.next (if_neg (by rw [hns]; decide))

/-- Settles O29: each operation's row, on a request that has been taken. -/
theorem sluiceOperations : Obligations.SluiceOperations := by
  intro s rtag q
  refine ⟨fun ht => ⟨_, startRow_run ht nofun (finish · 0 0), finish_owes _ _ _ _, rfl⟩,
    fun ht hns => startRow_run ht (fun _ => hns) (fun _ u => u), fun ht hns => startRow_run ht (fun _ => hns) (fun _ u => u), fun opc i hi ht hns => ?_, fun ht hns => ⟨fun hst => ?_, fun x k hst hx hslot => ?_⟩,
    fun ht hfirst htwin hwait => ?_, fun ht hfirst hns hpfail hown x l hx hlook hl hf _ => ?_, fun ht hfirst k hk hbit => ?_⟩
  · have hrow : exec i s = .next (finish q.begun 0x12 0 (s.setRq q.begun)) := by
      simp only [List.mem_cons, Prod.mk.injEq, List.not_mem_nil, or_false] at hi
      rcases hi with ⟨rfl, rfl⟩ | ⟨rfl, rfl⟩ | ⟨rfl, rfl⟩
      · exact startRow_unavailable ht rfl hns (fun _ u => u)
      · exact startRow_unavailable ht rfl hns writeRow
      · exact startRow_unavailable ht rfl hns (fun _ u => u)
    exact ⟨_, hrow, finish_owes _ _ _ _, rfl, rfl⟩
  · exact ⟨_, (startRow_run ht (fun _ => hns) writeRow).trans (congrArg Host.Outcome.next (if_pos hst)), finish_owes _ _ _ _, rfl⟩
  · obtain ⟨j, l, hjobs, hpath, htries, hlen, hreqs⟩ := startCommit_jobs q.begun 0 x k (s.setRq q.begun)
    have hrow : exec (.sluiceWrite rtag) s = .next (startCommit q.begun 0 x k 0 (s.setRq q.begun)) := by
      refine (startRow_run ht (fun _ => hns) writeRow).trans (congrArg Host.Outcome.next ((if_neg (by rw [show q.begun.status = none from hst]; decide)).trans ?_))
      rw [show q.begun.tiles = [x] from hx]
      show (match x.slot with | some slot => startCommit q.begun 0 x slot 0 (s.setRq q.begun) | none => s.setRq q.begun) = _
      rw [hslot]
    refine ⟨_, j, l, hrow, hjobs, ?_, htries, hlen, ?_⟩
    · rw [hpath]
      exact congrArg (JobPath.commitOwn · 0 k) ht.2.2.1
    · rw [State.rq, hreqs, ← ht.2.2.1]
      exact Tab.find_put_same _ _ _
  · obtain ⟨-, -, htag, hopc, -⟩ := id ht
    have hq1 : (s.setRq q.begun).rq rtag = some q.begun := by
      rw [← htag]
      exact Tab.find_put_same _ _ _
    have hrow : exec (.sluiceFlush rtag) s = .next (finish q.begun 0 3 (s.setRq q.begun)) := by
      refine (startRow_run ht nofun fun q u => requestCheck q.rtag u).trans (congrArg Host.Outcome.next ?_)
      rw [show q.begun.rtag = rtag from htag]
      exact requestCheck_flush hq1 hopc rfl hfirst hwait
    exact ⟨_, hrow, finish_owes _ _ _ _, rfl⟩
  · have hkept : MapKept s (s.setRq q.begun) := .of_md rfl rfl
    obtain ⟨hcache, hdir⟩ := unmapTile_cached (q := q) (i := 0) (s := s.setRq q.begun) hown ((hkept.cacheHas _).trans hl) (hkept.cacheFlushing.trans hf)
    refine ⟨_, { l with ents := l.ents.set (x.lta % 8) 0, dirty := true }, exec_sluiceUnmap ht hfirst hns hpfail hx hlook, ?_, rfl, rfl, ?_⟩
    · rw [requestCheck_md, hcache]
    · rw [State.dirOf, requestCheck_md]
      exact hdir
  · obtain ⟨-, -, htag, hopc, -⟩ := id ht
    let q1 : Request := { q.begun with margin := marginDue q }
    let s1 : State := (s.setRq q.begun).setRq q1
    let ks := (List.range 8).filter fun k => q.opx.testBit k
    have hreads : marginReads q1 s1 = ks.foldl (marginPair q1 (entPage s q.buf) (readOffs s (entPage s q.buf)) (max 1 (s.get Fld.cryWarnMstep))) s1 := rfl
    have hq1 : (marginReads q1 s1).rq rtag = some q1 := by
      rw [hreads, marginPairs_rest, ← htag]
      exact Tab.find_put_same _ _ _
    have hrow : exec (.sluiceMargin rtag) s = .next (marginReads q1 s1) :=
      (startRow_run ht nofun (marginRow rtag)).trans (congrArg Host.Outcome.next (requestCheck_margin hq1 hopc rfl hfirst (marginDue_some hk hbit)))
    refine ⟨_, hrow, ?_, ?_, fun plus => ?_⟩
    · rw [hreads, marginPairs_rest]
      rfl
    · rw [hq1]
      rfl
    · have hmem := marginPairs_queued q1 (entPage s q.buf) (readOffs s (entPage s q.buf)) (max 1 (s.get Fld.cryWarnMstep))
        (List.mem_filter.mpr ⟨List.mem_range.mpr hk, hbit⟩ : k ∈ ks) plus s1
      rw [← hreads] at hmem
      have hstep : ((max 1 (s.get Fld.cryWarnMstep) : Nat) : Int) = max 1 (s.get Fld.cryWarnMstep : Int) := by push_cast; rfl
      refine ⟨_, hmem, congrArg (Why.margin · k plus) htag, rfl, rfl, rfl, ?_⟩
      rw [hstep]
      rfl

end Sys2Proof.Machine
end


section
/-! PROOFS. O30: the flue's doorbell, its fetch, and the commands that make and take back sluices and rings. -/
namespace Sys2Proof.Machine

/-! ## Flue channels -/

theorem State.flueOf_modFlue_same (s : State) (f : Nat) (g : Flue → Flue) : (s.modFlue f g).flueOf f = g (s.flueOf f) := Tab.get_put_same _ _ _ _

theorem State.modFlue_rest (s : State) (f : Nat) (g : Flue → Flue) : s.modFlue f g = { s with flue := (s.modFlue f g).flue } := rfl

theorem State.flueOf_of_flue {s t : State} (h : t.flue = s.flue) (f : Nat) : t.flueOf f = s.flueOf f := by rw [State.flueOf, h, State.flueOf]

theorem State.issueAll_flue (s : State) (l : List (FabReq × Purpose)) : (s.issueAll l).flue = s.flue := by rw [issueAll_rest]

/-- What a channel's completion leaves of the channel. -/
def flueFreed (x : Flue) : Flue := { x with
  tail := if x.tail + 1 = 128 * x.rpages then 0 else x.tail + 1
  cmd := none
  lunOp := none
  lunEnd := none
  lunOut := 0
  lunBuf := [] }

/-- The registers as a command completes: the channel is free, and one completion more is counted. -/
def flueShown (f : Nat) (s : State) : State := ((s.modFlue f flueFreed).putFlag Fld.slqFstsBusy false f).inc Fld.slqFstsDone f

theorem flueShown_rest (f : Nat) (s : State) : flueShown f s = { s with flue := (s.modFlue f flueFreed).flue, regs := (flueShown f s).regs } := rfl

section
variable (f st num : Nat) (detail : List Byte) (s : State)

theorem flueDone_shown : ∃ l, flueDone f st num detail s = (flueShown f s).issueAll l := ⟨_, rfl⟩

theorem flueDone_rest : flueDone f st num detail s =
    { s with
      flue := (s.modFlue f flueFreed).flue
      regs := (flueDone f st num detail s).regs
      fab := (flueDone f st num detail s).fab
      pwr := (flueDone f st num detail s).pwr } := by
  obtain ⟨l, h⟩ := flueDone_shown f st num detail s
  rw [h, issueAll_rest, flueShown_rest]

theorem otherRegs_flueDone : OtherRegs s (flueDone f st num detail s) .slqFsts f := by
  obtain ⟨l, h⟩ := flueDone_shown f st num detail s
  intro k i hk
  rw [h, State.reg_of_regs (State.issueAll_regs _ _)]
  exact ((otherRegs_put _ Fld.slqFstsDone _ f k i hk).trans (otherRegs_putFlag (s.modFlue f flueFreed) Fld.slqFstsBusy false f k i hk)).trans (State.reg_of_regs rfl k i)

theorem flueDone_get {g : Fld} (h : g.kind ≠ .slqFsts) (i : Nat) : (flueDone f st num detail s).get g i = s.get g i :=
  congrArg g.get (otherRegs_flueDone f st num detail s g.kind i fun e => h (congrArg Prod.fst e))

theorem flueDone_flag {g : Fld} (h : g.kind ≠ .slqFsts) (i : Nat) : (flueDone f st num detail s).flag g i = s.flag g i := by
  rw [State.flag, flueDone_get f st num detail s h, State.flag]

theorem flueDone_slq : (flueDone f st num detail s).slq = s.slq := by rw [flueDone_rest]

theorem flueDone_ring (g : Nat) : (flueDone f st num detail s).ring g = s.ring g := State.ring_of_hrv (by rw [flueDone_rest]) g

theorem flueDone_ended : FlueEnded s (flueDone f st num detail s) f := by
  have hflue : (flueDone f st num detail s).flueOf f = flueFreed (s.flueOf f) := by
    rw [flueDone_rest]
    exact Tab.get_put_same _ _ _ _
  refine ⟨by rw [hflue, flueFreed], ?_, by rw [hflue, flueFreed]⟩
  obtain ⟨l, h⟩ := flueDone_shown f st num detail s
  rw [h, State.flag_of_regs (State.issueAll_regs _ _), flueShown, State.flag_inc_field _ (by decide) (by decide)]
  exact State.flag_putFlag _ _ (by decide) (by decide) _ _

end

/-- The completion of a command that leaves its channel and its place in the completion ring alone. -/
theorem FlueEnded.of_flueOf {s t u : State} {f : Nat} (h : FlueEnded t u f) (hf : t.flueOf f = s.flueOf f) : FlueEnded s u f := by
  obtain ⟨hcmd, hbusy, htail⟩ := h
  exact ⟨hcmd, hbusy, by rw [htail, hf]⟩

theorem flueRow_run {s : State} {f opc : Nat} {x : Flue} (h : FlueRuns s f opc x) (run : Flue → State → Nat × Nat × List Byte × State) :
    flueRow f opc run s = .next (flueDone f (run x s).1 (run x s).2.1 (run x s).2.2.1 (run x s).2.2.2) := by
  obtain ⟨hrun, hf, rfl, hcmd, hopc⟩ := h
  have hmay : (s.running && decide (f < 4) && (s.flueOf f).cmd.isSome && fp (s.flueOf f) 1 1 == opc) = true := by simp [hrun, hf, hcmd, hopc]
  rw [flueRow, hmay]
  exact onlyIf_true _ _

/-! ## Doorbell and fetch -/

theorem exec_flueDoorbell {s : State} {r : Req} {f : Nat} {w : Word} (hf : f < 4) (hw : Written s r .slqFdb f w) (hs : Steady s) :
    exec (.flueDoorbell r f w) s = .next ((slqFdbWrite f s).respondWrite r .ok) := by
  show execFlueDoorbell r f w s = _
  rw [execFlueDoorbell, decide_eq_true hf, onlyIf_true]
  exact congrArg Host.Outcome.next (regWrite_pass hw hs _)

theorem exec_flueFetch {s : State} {f : Nat} (hrun : s.running = true) (hf : f < 4) (hasks : flueAsks s f = true) (hlow : ∀ g, g < f → flueAsks s g = false) :
    exec (.flueFetch f) s = .next ((s.modFlue f fun x => { x with fetch := some (1, [], true), again := false }).issue
      (mkReq (s.flueOf f).port 4 .rd (flueRspAddr (s.flueOf f) (s.flueOf f).tail) 1 []) (.flueOwn f)) := by
  have hnone : ((List.range f).all fun g => !flueAsks s g) = true := List.all_eq_true.mpr fun g hg => by rw [hlow g (List.mem_range.mp hg)]; rfl
  show execFlueFetch f s = _
  rw [execFlueFetch, hrun, decide_eq_true hf, hasks, hnone]
  exact onlyIf_true _ _

/-! ## What a fetch brings -/

/-- A request that has been answered, where no request of a cache line is held for it. -/
theorem exec_response {s : State} {port vc tag : Nat} {o : Outst} {data : List Byte} (hon : s.coreOn = true) (ho : findOutst s.fab port vc tag = some o)
    (hkind : o.req.kind = .rd) (hlen : data.length = o.req.len) (hheld : s.fab.held = []) :
    exec (.outboundResponse port vc tag .ok data) s = .next (answer o .ok data (unsent s o)) := by
  have hcond : (RCode.ok != .ok || data.length == answerLen o.req) = true := by simp [answerLen, hkind, hlen]
  have htaken : codeTaken o .ok (unsent s o) = (.ok, unsent s o) := if_neg nofun
  have hexec : exec (.outboundResponse port vc tag .ok data) s =
      .next (answer o (codeTaken o .ok (unsent s o)).1 data (releaseHeld (codeTaken o .ok (unsent s o)).2)) := by
    show execOutboundResponse port vc tag .ok data s = _
    simp only [execOutboundResponse, ho, hon, hcond, Bool.and_self, onlyIf_true]
    exact Eq.refl _
  rw [hexec, htaken, releaseHeld_nil (s := unsent s o) hheld]

theorem answer_flueOwn {o : Outst} {f : Nat} (hp : o.purpose = .flueOwn f) (data : List Byte) (s : State) :
    answer o .ok data s = flueOwned f .ok data s := by
  unfold answer noteDram mapOrPan
  rw [hp]
  rfl

theorem answer_flueCmd {o : Outst} {f : Nat} (hp : o.purpose = .flueCmd f) (data : List Byte) (s : State) :
    answer o .ok data s = flueRead f o.req.addr .ok data s := by
  unfold answer noteDram mapOrPan
  rw [hp]
  rfl

section
variable {s : State} {f : Nat} {data : List Byte}

theorem flueOwned_idle (hfetch : (s.flueOf f).fetch.isSome = true) (hcmd : (s.flueOf f).cmd = none) (hown : bytesNum (data.take 1) < 128) :
    flueOwned f .ok data s = flueIdle f false true s := by
  rw [flueOwned]
  dsimp only
  rw [if_neg (by simp [hcmd, Option.isNone_iff_eq_none, Option.isSome_iff_ne_none.mp hfetch]), if_neg (by simp), if_pos (Or.inl hown)]

theorem flueOwned_asks (hrun : s.running = true) (hfetch : (s.flueOf f).fetch.isSome = true) (hcmd : (s.flueOf f).cmd = none)
    (hown : 128 ≤ bytesNum (data.take 1)) :
    flueOwned f .ok data s = (s.modFlue f fun x => { x with
        fetch := some ((cutPages 65 (flueCmdAddr (s.flueOf f) (s.flueOf f).head) (32 * flueLeft (s.flueOf f))).length, [], true) }).issueAll
      ((cutPages 65 (flueCmdAddr (s.flueOf f) (s.flueOf f).head) (32 * flueLeft (s.flueOf f))).map fun c =>
        (mkReq (s.flueOf f).port 4 .rd c.1 c.2 [], .flueCmd f)) := by
  rw [flueOwned]
  dsimp only
  rw [if_neg (by simp [hcmd, Option.isNone_iff_eq_none, Option.isSome_iff_ne_none.mp hfetch]), if_neg (by simp), if_neg (by simp [hrun]; omega)]

theorem flueRead_last {got : Tab Byte} (hrun : s.running = true) (hfetch : (s.flueOf f).fetch = some (1, got, true)) (addr : Nat) :
    flueRead f addr .ok data s =
      (let b := bufGet (bufPut (addr - flueCmdAddr (s.flueOf f) (s.flueOf f).head) data got) 0 (32 * flueLeft (s.flueOf f))
       if bytesNum (b.take 1) < 128 then flueIdle f false false s else flueTake f b s) := by
  rw [flueRead]
  dsimp only
  rw [hfetch]
  dsimp only
  rw [if_neg (by decide), if_neg (by decide), if_neg (by simp [hrun])]

end

/-- The units that a command read holds, as far as its ring goes. -/
def flueUnits (b : List Byte) (x : Flue) : Nat := min (bytesNum (b.take 1) % 16 + 1) (128 * x.cpages - x.head)

/-- What a channel holds as it takes a command of `n` units. -/
def flueTaken (n now : Nat) (b : List Byte) (x : Flue) : Flue := { x with
  head := if 128 * x.cpages ≤ x.head + n then 0 else x.head + n
  fetch := none
  again := false
  cmd := some (b ++ List.replicate (64 - b.length) 0)
  since := now }

/-- The units of a command handed back (R420). -/
def flueHandback (n : Nat) (x : Flue) (s : State) : State :=
  s.issueAll ((cutPages (n + 1) (flueCmdAddr x x.head) (32 * n)).map fun c =>
    ({ mkReq x.port 4 .pw c.1 c.2 (List.replicate (c.2 / 32) 0) with step := 32 }, .handback))

/-- The state as a command is taken: its units go back, and the channel is busy with it. -/
def flueBusy (f : Nat) (b : List Byte) (s : State) : State :=
  ((flueHandback (flueUnits b (s.flueOf f)) (s.flueOf f) s).modFlue f (flueTaken (flueUnits b (s.flueOf f)) s.now b)).putFlag Fld.slqFstsBusy true f

theorem flueTake_eq (f : Nat) (b : List Byte) (s : State) : flueTake f b s =
    if flueMalformed b || decide (b.length < 64) then
      (if f = 0 then ((flueDone f fsMalformed 0 [] (flueBusy f b s)).logPacked uSLQ (0x600 + fsMalformed) [(1, f)]).bank 5
       else (flueDone f fsMalformed 0 [] (flueBusy f b s)).logPacked uSLQ (0x600 + fsMalformed) [(1, f)])
    else if noSuchOp b then flueDone f (if f = 0 then fsBadParam else fsDenied) 0 [] (flueBusy f b s)
    else flueBusy f b s := by
  have hnow : (flueHandback (flueUnits b (s.flueOf f)) (s.flueOf f) s).now = s.now := by rw [flueHandback, issueAll_rest]; rfl
  rw [flueBusy, ← hnow]
  rfl

theorem flueBusy_flueOf (f : Nat) (b : List Byte) (s : State) :
    (flueBusy f b s).flueOf f = flueTaken (flueUnits b (s.flueOf f)) s.now b (s.flueOf f) := by
  refine (State.flueOf_modFlue_same (flueHandback (flueUnits b (s.flueOf f)) (s.flueOf f) s) f _).trans ?_
  have h : (flueHandback (flueUnits b (s.flueOf f)) (s.flueOf f) s).flue = s.flue := State.issueAll_flue s _
  rw [State.flueOf_of_flue h]

theorem flueBusy_busy (f : Nat) (b : List Byte) (s : State) : (flueBusy f b s).flag Fld.slqFstsBusy f = true :=
  State.flag_putFlag _ _ (by decide) (by decide) _ _

theorem flueBusy_banked (f : Nat) (b : List Byte) (s : State) : (flueBusy f b s).banked = s.banked := by
  rw [State.banked, flueBusy, State.flag_putFlag_kind _ (by decide)]
  exact State.flag_of_regs (State.issueAll_regs _ _) _ _

theorem bufGet_length (b : Tab Byte) (ofs len : Nat) : (bufGet b ofs len).length = len := by rw [bufGet, List.length_map, List.length_range]

theorem flueTake_runs {s : State} {f : Nat} {b : List Byte} (hlen : b.length = 64) (hgood : flueMalformed b = false) (hop : noSuchOp b = false) :
    flueTake f b s = flueBusy f b s := by
  rw [flueTake_eq, if_neg (by simp [hgood, hlen]), if_neg (by simp [hop])]

/-- One unit more than its first byte's length code: a command that is well formed takes two. -/
theorem flueUnits_two {b : List Byte} (hgood : flueMalformed b = false) {x : Flue} (hleft : flueLeft x = 2) : flueUnits b x = 2 := by
  rw [flueLeft] at hleft
  have hb : bytesNum (b.take 1) % 16 = 1 := by
    have h := (Bool.or_eq_false_iff.mp hgood).1
    simpa using h
  rw [flueUnits, hb]
  omega

theorem bankNamed_flue (s : State) (cause : Nat) (obj : List (Nat × Nat)) : (s.bankNamed cause obj).flue = s.flue := by
  unfold State.bankNamed
  split <;> rfl

theorem flueTake_malformed {s : State} {f : Nat} {b : List Byte} (hrun : s.banked = false) (hbad : flueMalformed b = true) :
    FlueEnded s (flueTake f b s) f ∧ (f = 0 → (flueTake f b s).banked = true ∧ (flueTake f b s).get Fld.glbBankStsCause = 5) ∧
      (f ≠ 0 → (flueTake f b s).banked = false) := by
  have hx := flueBusy_flueOf f b s
  have hbank := flueBusy_banked f b s
  have htake := flueTake_eq f b s
  rw [if_pos (by rw [hbad]; rfl)] at htake
  generalize flueBusy f b s = u at hx hbank htake
  obtain ⟨hcmd, hbusy, htail⟩ := flueDone_ended f fsMalformed 0 [] u
  have hdone := flueDone_flag f fsMalformed 0 [] u (g := Fld.glbBankStsBanked) (by decide) 0
  generalize flueDone f fsMalformed 0 [] u = v at hcmd hbusy htail hdone htake
  have hlbusy : (v.logPacked uSLQ (0x600 + fsMalformed) [(1, f)]).flag Fld.slqFstsBusy f = false := by rw [State.flag_logPacked _ (by decide), hbusy]
  have hlbank : (v.logPacked uSLQ (0x600 + fsMalformed) [(1, f)]).banked = false := by
    rw [State.banked, State.flag_logPacked _ (by decide), hdone]
    exact hbank.trans hrun
  have hlflue : (v.logPacked uSLQ (0x600 + fsMalformed) [(1, f)]).flue = v.flue := rfl
  generalize v.logPacked uSLQ (0x600 + fsMalformed) [(1, f)] = z at hlbusy hlbank hlflue htake
  have htail' : (v.flueOf f).tail = if (s.flueOf f).tail + 1 = 128 * (s.flueOf f).rpages then 0 else (s.flueOf f).tail + 1 := by rw [htail, hx, flueTaken]
  by_cases hf : f = 0
  · rw [if_pos hf] at htake
    rw [htake]
    have hzf : (z.bank 5).flueOf f = v.flueOf f := State.flueOf_of_flue ((bankNamed_flue z 5 []).trans hlflue) f
    refine ⟨⟨by rw [hzf, hcmd], (z.flag_bankNamed (by decide) 5 [] f).trans hlbusy, by rw [hzf, htail']⟩, fun _ => ⟨bankNamed_banked _ _ _, ?_⟩, fun h => absurd hf h⟩
    exact bankNamed_cause hlbank (by decide) []
  · rw [if_neg hf] at htake
    rw [htake]
    have hzf : z.flueOf f = v.flueOf f := State.flueOf_of_flue hlflue f
    exact ⟨⟨by rw [hzf, hcmd], hlbusy, by rw [hzf, htail']⟩, fun h => absurd h hf, fun _ => hlbank⟩

/-! ## Sluices made and taken back -/

/-- A sluice made, with its first registers as its command gives them (R461). -/
def slqMade (f i owner w b m : Nat) (x : Flue) (s : State) : State :=
  let s := ((s.putFlag Fld.slqCfgValid true i).put Fld.slqCfgClass (fp x 0x12 1 % 4) i).put Fld.slqCfgStrict (fp x 0x12 1 / 4 % 2) i
  let s := ((s.put Fld.slqCfgOwner owner i).put Fld.slqCfgCreator f i).put Fld.slqCfgWeight w i
  let s := ((s.put Fld.slqCfgBurst (b - 1) i).put Fld.slqCfgPages (fp x 0x10 2) i).put Fld.slqCfg2Client (fp x 0x16 2) i
  let s := ((s.put Fld.slqCfg2Hrv (fp x 6 2) i).put Fld.slqNsNsid (fp x 0x18 2) i).put Fld.slqNsMaxout m i
  let s := (s.put Fld.slqBaseLoBaseLo (fp x 8 8 / 4096) i).put Fld.slqBaseHiBaseHi (fp x 8 8 / 2 ^ 32) i
  let s := (s.setReg .slqSts i (regReset .slqSts i)).put Fld.slqHeadHead 0 i
  s.putFlag Fld.slqCtlEn (fp x 0x1C 1 == 1) i

theorem slqMade_flue (f i owner w b m : Nat) (x : Flue) (s : State) : (slqMade f i owner w b m x s).flue = s.flue := by
  simp only [slqMade, State.putFlag, State.put_flue, State.setReg_flue]

section
variable (f i owner w b m : Nat) (x : Flue) (s : State)

theorem slqMade_cfg : (slqMade f i owner w b m x s).flag Fld.slqCfgValid i = true ∧ (slqMade f i owner w b m x s).get Fld.slqCfgClass i = fp x 0x12 1 % 4 ∧
    (slqMade f i owner w b m x s).get Fld.slqCfgOwner i = owner % 4 ∧ (slqMade f i owner w b m x s).get Fld.slqCfgCreator i = f % 4 := by
  simp (disch := decide) only [slqMade, State.flag, State.putFlag, State.get_put_kind, State.get_put_field, State.get_put_same, State.get_setReg_kind]
  refine ⟨rfl, Nat.mod_mod _ _, rfl, rfl⟩

theorem slqMade_parts : (slqMade f i owner w b m x s).get Fld.slqCfg2Hrv i = fp x 6 2 % 4096 ∧ (slqMade f i owner w b m x s).get Fld.slqHeadHead i = 0 ∧
    (slqMade f i owner w b m x s).flag Fld.slqCtlEn i = (fp x 0x1C 1 == 1) := by
  simp (disch := decide) only [slqMade, State.flag, State.putFlag, State.get_put_kind, State.get_put_same, State.get_setReg_kind]
  refine ⟨rfl, rfl, ?_⟩
  cases fp x 0x1C 1 == 1 <;> rfl

theorem slqMade_other {j : Nat} (h : j ≠ i) : (slqMade f i owner w b m x s).reg .slqCfg j = s.reg .slqCfg j := by
  have hput (g : Fld) (v : Nat) (u : State) : (u.put g v i).reg .slqCfg j = u.reg .slqCfg j := State.reg_setReg_index _ h _ _ _
  have hset (k : RegKind) (v : Word) (u : State) : (u.setReg k i v).reg .slqCfg j = u.reg .slqCfg j := State.reg_setReg_index _ h _ _ _
  simp only [slqMade, State.putFlag, hput, hset]

end

theorem pickNumber_named {free : Nat → Bool} {lo hi n : Nat} (h : n < 4096) : pickNumber free lo hi n = some n := if_neg (by omega)

theorem slqCreate_made {f i : Nat} {x : Flue} {s : State} (hi : fp x 4 2 = i) (hi' : i < 4096) (hf : f = 0) (howner : fp x 0x12 1 / 8 % 4 ≠ 3)
    (hring : fp x 6 2 < 4096) (hvalid : s.flag Fld.hrvStsValid (fp x 6 2) = true) (hok : ringOk (fp x 8 8) (fp x 0x10 2) 512 = true) (hburst : fp x 0x15 1 ≤ 64)
    (hmax : fp x 0x1A 2 ≤ 4096) (hen : fp x 0x1C 1 ≤ 1) (hfree : s.flag Fld.slqCfgValid i = false) (hcls : s.get Fld.hrvCfgClass (fp x 6 2) = fp x 0x12 1 % 4) :
    ∃ w b m, slqCreate f x s = (fsOk, i, (slqMade f i (fp x 0x12 1 / 8 % 4) w b m x s).setSluice i { credit := w }) := by
  subst hf
  refine ⟨if fp x 0x14 1 = 0 then s.img.defW else fp x 0x14 1, if fp x 0x15 1 = 0 then s.img.defB else fp x 0x15 1,
    if fp x 0x1A 2 = 0 then s.img.defM else fp x 0x1A 2, ?_⟩
  unfold slqCreate
  dsimp only
  rw [if_neg (by simp [ownerOk]), hi, hvalid, hok, if_neg (by simp; omega), if_neg (by simp [slqRange]; omega), pickNumber_named hi']
  dsimp only
  rw [hfree, if_neg (by decide), if_neg (by rw [hcls]; simp)]
  rfl

theorem slqCreate_badOwner {f : Nat} {x : Flue} {s : State} (h : fp x 0x12 1 / 8 % 4 = 3) : slqCreate f x s = (fsBadParam, 0, s) := by
  unfold slqCreate
  dsimp only
  rw [if_neg (by simp [h]), if_pos (Or.inl h)]

/-- Register copies back at their reset words. -/
def clearRegs (l : List RegKind) (i : Nat) (s : State) : State := l.foldl (fun s k => s.clearReg k i) s

theorem clearRegs_rest (l : List RegKind) (i : Nat) (s : State) : clearRegs l i s = { s with regs := (clearRegs l i s).regs } := by
  unfold clearRegs
  induction l generalizing s with
  | nil => rfl
  | cons k l ih =>
    rw [List.foldl_cons, ih]
    rfl

theorem reg_clearRegs_kind {l : List RegKind} {k : RegKind} (h : k ∉ l) (i j : Nat) (s : State) : (clearRegs l i s).reg k j = s.reg k j := by
  unfold clearRegs
  induction l generalizing s with
  | nil => rfl
  | cons k' l ih =>
    obtain ⟨hk, hl⟩ := not_or.mp (mt List.mem_cons.mpr h)
    rw [List.foldl_cons, ih hl, State.clearReg, s.reg_setReg_kind hk]

theorem reg_clearRegs_mem {l : List RegKind} {k : RegKind} (h : k ∈ l) (i : Nat) (s : State) : (clearRegs l i s).reg k i = regReset k i := by
  unfold clearRegs
  induction l generalizing s with
  | nil => cases h
  | cons k' l ih =>
    rw [List.foldl_cons]
    by_cases hl : k ∈ l
    · exact ih hl _
    · rw [(List.mem_cons.mp h).resolve_right hl]
      exact (reg_clearRegs_kind (fun hm => hl ((List.mem_cons.mp h).resolve_right hl ▸ hm)) i i _).trans (State.reg_setReg_same _ _ _ _)

/-- The registers of a sluice, and of a ring, that its destroy takes back. -/
def slqKinds : List RegKind := [.slqCtl, .slqSts, .slqHead, .slqCfg, .slqCfg2, .slqNs, .slqBaseLo, .slqBaseHi]
def hrvKinds : List RegKind := [.hrvCtl, .hrvSts, .hrvCfg, .hrvMod, .hrvBaseLo, .hrvBaseHi]

theorem reset_slqCfgValid (i : Nat) : Fld.slqCfgValid.get (regReset .slqCfg i) = 0 := by
  show Fld.slqCfgValid.get (RegKind.resetWord .slqCfg) = 0
  decide

theorem reset_hrvStsValid (i : Nat) : Fld.hrvStsValid.get (regReset .hrvSts i) = 0 := by
  show Fld.hrvStsValid.get (RegKind.resetWord .hrvSts) = 0
  decide

theorem clearRegs_slqValid (i : Nat) (s : State) : (clearRegs slqKinds i s).flag Fld.slqCfgValid i = false := by
  have hreg : (clearRegs slqKinds i s).reg .slqCfg i = regReset .slqCfg i := reg_clearRegs_mem (by decide) i s
  rw [State.flag, State.get, show Fld.slqCfgValid.kind = .slqCfg from rfl, hreg, reset_slqCfgValid]
  rfl

theorem clearRegs_hrvValid (i : Nat) (s : State) : (clearRegs hrvKinds i s).flag Fld.hrvStsValid i = false := by
  have hreg : (clearRegs hrvKinds i s).reg .hrvSts i = regReset .hrvSts i := reg_clearRegs_mem (by decide) i s
  rw [State.flag, State.get, show Fld.hrvStsValid.kind = .hrvSts from rfl, hreg, reset_hrvStsValid]
  rfl

/-- The pending bits of the sources stand while other registers are cleared. -/
theorem sourcePending_clearRegs {l : List RegKind} (h : ∀ k ∈ [RegKind.sicPpendLo, .sicPpendHi, .sicSpend], k ∉ l) (i : Nat) (s : State) (x : Source) :
    sourcePending (clearRegs l i s) x = sourcePending s x :=
  sourcePending_congr (fun k hk j => reg_clearRegs_kind (h k hk) i j s) x

theorem sourcePending_flueDone (f st num : Nat) (detail : List Byte) (s : State) (x : Source) :
    sourcePending (flueDone f st num detail s) x = sourcePending s x := by
  refine sourcePending_congr (fun k hk j => otherRegs_flueDone f st num detail s k j fun h => ?_) x
  have hne : ∀ k ∈ [RegKind.sicPpendLo, .sicPpendHi, .sicSpend], k ≠ .slqFsts := by decide
  exact hne k hk (congrArg Prod.fst h)

theorem slqDestroy_idle {f i : Nat} {x : Flue} {s : State} (hi : fp x 4 2 = i) (hi' : i < 4096) (hv : s.flag Fld.slqCfgValid i = true)
    (hown : ownedBy f (s.get Fld.slqCfgCreator i) = true) (hidle : slqIdle s i = true) :
    slqDestroy f x s = (fsOk, i, { clearRegs slqKinds i s with slq := Tab.del i (clearRegs slqKinds i s).slq }) := by
  unfold slqDestroy
  dsimp only
  rw [hi, hv, hown, hidle, if_neg (by simp; omega), if_neg (by simp), if_neg (by simp)]
  rfl

theorem slqDestroy_busy {f i : Nat} {x : Flue} {s : State} (hi : fp x 4 2 = i) (hi' : i < 4096) (hv : s.flag Fld.slqCfgValid i = true)
    (hown : ownedBy f (s.get Fld.slqCfgCreator i) = true) (hidle : slqIdle s i = false) : slqDestroy f x s = (fsBusy, i, s) := by
  unfold slqDestroy
  dsimp only
  rw [hi, hv, hown, hidle, if_neg (by simp; omega), if_neg (by simp), if_pos (by simp)]

/-! ## Rings made and taken back -/

/-- A ring made, with its first registers as its command gives them (R461). -/
def hrvMade (f i : Nat) (x : Flue) (s : State) : State :=
  let s := ((s.put Fld.hrvCfgClass (fp x 0x12 1 % 4) i).put Fld.hrvCfgPort (fp x 0x13 1) i).put Fld.hrvCfgCreator f i
  let s := ((s.put Fld.hrvCfgSrc (fp x 6 2) i).put Fld.hrvCfgPages (fp x 0x10 2) i).put Fld.hrvModCnt (fp x 0x14 1) i
  let s := ((s.put Fld.hrvModTime (fp x 0x16 2) i).put Fld.hrvBaseLoBaseLo (fp x 8 8 / 4096) i).put Fld.hrvBaseHiBaseHi (fp x 8 8 / 2 ^ 32) i
  (s.clearReg .hrvSts i).putFlag Fld.hrvStsValid true i

section
variable (f i : Nat) (x : Flue) (s : State)

theorem hrvMade_flue : (hrvMade f i x s).flue = s.flue := by
  simp only [hrvMade, State.clearReg, State.putFlag, State.put_flue, State.setReg_flue]

theorem hrvMade_cfg : (hrvMade f i x s).get Fld.hrvCfgClass i = fp x 0x12 1 % 4 ∧ (hrvMade f i x s).get Fld.hrvCfgPort i = fp x 0x13 1 % 16 ∧
    (hrvMade f i x s).get Fld.hrvCfgSrc i = fp x 6 2 % 2048 ∧ (hrvMade f i x s).get Fld.hrvCfgCreator i = f % 4 := by
  simp (disch := decide) only [hrvMade, State.clearReg, State.putFlag, State.get_put_kind, State.get_put_field, State.get_put_same, State.get_setReg_kind]
  exact ⟨Nat.mod_mod _ _, rfl, rfl, rfl⟩

theorem hrvMade_sts : (hrvMade f i x s).flag Fld.hrvStsValid i = true ∧ (hrvMade f i x s).get Fld.hrvStsTail i = 0 := by
  refine ⟨State.flag_putFlag _ Fld.hrvStsValid (by decide) (by decide) true i, ?_⟩
  exact (State.get_putFlag_field _ (by decide) (by decide) true i i).trans (State.get_setReg_same _ Fld.hrvStsTail i _)

end

theorem hrvCreate_made {f i : Nat} {x : Flue} {s : State} (hi : fp x 4 2 = i) (hi' : i < 4096) (hf : f < 2) (hsrc : fp x 6 2 < 2048)
    (hok : ringOk (fp x 8 8) (fp x 0x10 2) 512 = true) (hport : fp x 0x13 1 < 16) (hfree : s.flag Fld.hrvStsValid i = false) :
    hrvCreate f x s = (fsOk, i, (hrvMade f i x s).setRing i {}) := by
  unfold hrvCreate
  dsimp only
  rw [hi, hok, if_neg (by simp; omega), if_neg (by simp [hrvRange, hf]; omega), pickNumber_named hi']
  dsimp only
  rw [hfree, if_neg (by decide)]
  rfl

theorem hrvDestroy_free {f i : Nat} {x : Flue} {s : State} (hi : fp x 4 2 = i) (hi' : i < 4096) (hv : s.flag Fld.hrvStsValid i = true)
    (hown : ownedBy f (s.get Fld.hrvCfgCreator i) = true) (hnone : ∀ e ∈ s.slq, s.flag Fld.slqCfgValid e.1 = true → slqRing s e.1 ≠ i) :
    ∃ u, (u = s ∨ u = signalRing s i) ∧ (0 < s.get Fld.hrvStsPending i → u = signalRing s i) ∧
      hrvDestroy f x s = (fsOk, i, { clearRegs hrvKinds i u with hrv := Tab.del i (clearRegs hrvKinds i u).hrv }) := by
  have hfree : (s.slq.any fun e => s.flag Fld.slqCfgValid e.1 && slqRing s e.1 == i) = false := by
    refine List.any_eq_false.mpr fun e he h => ?_
    obtain ⟨hv, hr⟩ := Bool.and_eq_true_iff.mp h
    exact hnone e he hv (beq_iff_eq.mp hr)
  unfold hrvDestroy
  dsimp only
  rw [hi, hv, hown, hfree, if_neg (by simp; omega), if_neg (by simp), if_neg (by simp)]
  split
  next => exact ⟨_, Or.inr rfl, fun _ => rfl, rfl⟩
  next h =>
    refine ⟨s, Or.inl rfl, fun hp => absurd ?_ h, rfl⟩
    rw [decide_eq_true hp]
    rfl

theorem State.coreOn_of_running {s : State} (h : s.running = true) : s.coreOn = true := (Bool.and_eq_true_iff.mp h).1

theorem State.banked_of_running {s : State} (h : s.running = true) : s.banked = false := by
  have hb := (Bool.and_eq_true_iff.mp h).2
  simpa using hb

theorem slqFdbWrite_spec {s : State} {f : Nat} (hen : s.flag Fld.slqFstsEn f = true) :
    (slqFdbWrite f s).flueOf f = { s.flueOf f with bell := true, again := (s.flueOf f).fetch.isSome } ∧ (slqFdbWrite f s).regs = s.regs ∧
      (slqFdbWrite f s).resps = s.resps := by
  rw [slqFdbWrite, if_pos hen, State.restart_rest]
  exact ⟨Tab.get_put_same _ _ _ _, rfl, rfl⟩

theorem flueIdle_keeps (f : Nat) (keep : Bool) (s : State) :
    (flueIdle f false keep s).regs = s.regs ∧
      (flueIdle f false keep s).flueOf f = { s.flueOf f with fetch := none, bell := keep || (s.flueOf f).again, again := false } :=
  ⟨rfl, Tab.get_put_same _ _ _ _⟩

section
variable {s : State} {f i : Nat} {x : Flue}

theorem exec_slqCreate (hx : FlueRuns s f 1 x) :
    exec (.slqCreate f) s = .next (flueDone f (slqCreate f x s).1 (slqCreate f x s).2.1 [] (slqCreate f x s).2.2) :=
  flueRow_run hx fun x s => ((slqCreate f x s).1, (slqCreate f x s).2.1, [], (slqCreate f x s).2.2)

theorem exec_slqDestroy (hx : FlueRuns s f 2 x) :
    exec (.slqDestroy f) s = .next (flueDone f (slqDestroy f x s).1 (slqDestroy f x s).2.1 [] (slqDestroy f x s).2.2) :=
  flueRow_run hx fun x s => ((slqDestroy f x s).1, (slqDestroy f x s).2.1, [], (slqDestroy f x s).2.2)

theorem exec_hrvCreate (hx : FlueRuns s f 3 x) :
    exec (.hrvCreate f) s = .next (flueDone f (hrvCreate f x s).1 (hrvCreate f x s).2.1 [] (hrvCreate f x s).2.2) :=
  flueRow_run hx fun x s => ((hrvCreate f x s).1, (hrvCreate f x s).2.1, [], (hrvCreate f x s).2.2)

theorem exec_hrvDestroy (hx : FlueRuns s f 4 x) :
    exec (.hrvDestroy f) s = .next (flueDone f (hrvDestroy f x s).1 (hrvDestroy f x s).2.1 [] (hrvDestroy f x s).2.2) :=
  flueRow_run hx fun x s => ((hrvDestroy f x s).1, (hrvDestroy f x s).2.1, [], (hrvDestroy f x s).2.2)

theorem exec_setHalt_allowed (hx : FlueRuns s f 7 x) (hf : f < 2) :
    exec (.setHalt f) s = .next (flueDone f fsOk 0 [] (setHalt (fp x 4 1 % 16) s)) := by
  have hrow := flueRow_run hx fun x s => if 2 ≤ f then (fsDenied, 0, [], s) else (fsOk, 0, [], setHalt (fp x 4 1 % 16) s)
  rwa [if_neg (by omega)] at hrow

theorem exec_setHalt_denied (hx : FlueRuns s f 7 x) (hf : 2 ≤ f) : exec (.setHalt f) s = .next (flueDone f fsDenied 0 [] s) := by
  have hrow := flueRow_run hx fun x s => if 2 ≤ f then (fsDenied, 0, [], s) else (fsOk, 0, [], setHalt (fp x 4 1 % 16) s)
  rwa [if_pos hf] at hrow

/-! What a completion leaves of a sluice or ring that its command has just made or taken back. -/

section
variable (f st num : Nat) (detail : List Byte) (i : Nat)

theorem flueDone_setSluice_ended (y : Slq) {s u : State} (h : u.flueOf f = s.flueOf f) : FlueEnded s (flueDone f st num detail (u.setSluice i y)) f :=
  (flueDone_ended f st num detail (u.setSluice i y)).of_flueOf h

theorem flueDone_setSluice_reg (y : Slq) (u : State) {k : RegKind} (h : k ≠ .slqFsts) (j : Nat) :
    (flueDone f st num detail (u.setSluice i y)).reg k j = u.reg k j :=
  otherRegs_flueDone f st num detail (u.setSluice i y) k j fun e => h (congrArg Prod.fst e)

theorem flueDone_setSluice_get (y : Slq) (u : State) {g : Fld} (h : g.kind ≠ .slqFsts) (j : Nat) :
    (flueDone f st num detail (u.setSluice i y)).get g j = u.get g j := flueDone_get f st num detail (u.setSluice i y) h j

theorem flueDone_setSluice_flag (y : Slq) (u : State) {g : Fld} (h : g.kind ≠ .slqFsts) (j : Nat) :
    (flueDone f st num detail (u.setSluice i y)).flag g j = u.flag g j := flueDone_flag f st num detail (u.setSluice i y) h j

theorem flueDone_setRing_ended (y : Hrv) {s u : State} (h : u.flueOf f = s.flueOf f) : FlueEnded s (flueDone f st num detail (u.setRing i y)) f :=
  (flueDone_ended f st num detail (u.setRing i y)).of_flueOf h

theorem flueDone_setRing_get (y : Hrv) (u : State) {g : Fld} (h : g.kind ≠ .slqFsts) (j : Nat) :
    (flueDone f st num detail (u.setRing i y)).get g j = u.get g j := flueDone_get f st num detail (u.setRing i y) h j

theorem flueDone_setRing_flag (y : Hrv) (u : State) {g : Fld} (h : g.kind ≠ .slqFsts) (j : Nat) :
    (flueDone f st num detail (u.setRing i y)).flag g j = u.flag g j := flueDone_flag f st num detail (u.setRing i y) h j

end

theorem flueDone_slqDropped (f i : Nat) (u : State) :
    FlueEnded u (flueDone f fsOk i [] { u with slq := Tab.del i u.slq }) f ∧
      (flueDone f fsOk i [] { u with slq := Tab.del i u.slq }).flag Fld.slqCfgValid i = u.flag Fld.slqCfgValid i ∧
      Tab.find i (flueDone f fsOk i [] { u with slq := Tab.del i u.slq }).slq = none := by
  refine ⟨flueDone_ended f fsOk i [] { u with slq := Tab.del i u.slq }, flueDone_flag f fsOk i [] { u with slq := Tab.del i u.slq } (by decide) i, ?_⟩
  rw [flueDone_slq]
  exact Tab.find_del_same _ _

theorem flueDone_hrvDropped (f i : Nat) (u : State) :
    FlueEnded u (flueDone f fsOk i [] { u with hrv := Tab.del i u.hrv }) f ∧
      (flueDone f fsOk i [] { u with hrv := Tab.del i u.hrv }).flag Fld.hrvStsValid i = u.flag Fld.hrvStsValid i ∧
      (flueDone f fsOk i [] { u with hrv := Tab.del i u.hrv }).ring i = {} ∧
      ∀ y, sourcePending (flueDone f fsOk i [] { u with hrv := Tab.del i u.hrv }) y = sourcePending u y := by
  refine ⟨flueDone_ended f fsOk i [] { u with hrv := Tab.del i u.hrv }, flueDone_flag f fsOk i [] { u with hrv := Tab.del i u.hrv } (by decide) i, ?_,
    fun y => sourcePending_flueDone f fsOk i [] { u with hrv := Tab.del i u.hrv } y⟩
  rw [flueDone_ring, State.ring, Tab.get]
  dsimp only
  rw [Tab.find_del_same]
  rfl

/-- A SLQ_CREATE that is allowed makes its sluice. -/
theorem slqMade_done (hf : f < 4) (owner w b m : Nat) (hring : fp x 6 2 < 4096) :
    let t := flueDone f fsOk i [] ((slqMade f i owner w b m x s).setSluice i { credit := w })
    FlueEnded s t f ∧ t.flag Fld.slqCfgValid i = true ∧ t.get Fld.slqCfgClass i = fp x 0x12 1 % 4 ∧ t.get Fld.slqCfgOwner i = owner % 4 ∧
      t.get Fld.slqCfgCreator i = f ∧ t.get Fld.slqCfg2Hrv i = fp x 6 2 ∧ t.get Fld.slqHeadHead i = 0 ∧ t.flag Fld.slqCtlEn i = (fp x 0x1C 1 == 1) ∧
      ∀ j, j ≠ i → t.reg .slqCfg j = s.reg .slqCfg j := by
  obtain ⟨hv, hc, ho, hcr⟩ := slqMade_cfg f i owner w b m x s
  obtain ⟨hr, hh, he⟩ := slqMade_parts f i owner w b m x s
  have hother := fun j (hj : j ≠ i) => slqMade_other f i owner w b m x s hj
  have hflue := slqMade_flue f i owner w b m x s
  have hget {g : Fld} (hg : g.kind ≠ .slqFsts) := flueDone_setSluice_get f fsOk i [] i { credit := w } (slqMade f i owner w b m x s) hg i
  have hflag {g : Fld} (hg : g.kind ≠ .slqFsts) := flueDone_setSluice_flag f fsOk i [] i { credit := w } (slqMade f i owner w b m x s) hg i
  refine ⟨flueDone_setSluice_ended f fsOk i [] i { credit := w } (State.flueOf_of_flue hflue f), (hflag (by decide)).trans hv, (hget (by decide)).trans hc,
    (hget (by decide)).trans ho, (hget (by decide)).trans (hcr.trans (Nat.mod_eq_of_lt hf)), (hget (by decide)).trans (hr.trans (Nat.mod_eq_of_lt hring)),
    (hget (by decide)).trans hh, (hflag (by decide)).trans he, fun j hj => ?_⟩
  exact (flueDone_setSluice_reg f fsOk i [] i { credit := w } _ (by decide) j).trans (hother j hj)

theorem slqTaken_done (f i : Nat) (s : State) :
    let t := flueDone f fsOk i [] { clearRegs slqKinds i s with slq := Tab.del i (clearRegs slqKinds i s).slq }
    FlueEnded s t f ∧ t.flag Fld.slqCfgValid i = false ∧ Tab.find i t.slq = none := by
  have hflue : (clearRegs slqKinds i s).flue = s.flue := by rw [clearRegs_rest]
  obtain ⟨hend, hflag, hslq⟩ := flueDone_slqDropped f i (clearRegs slqKinds i s)
  exact ⟨hend.of_flueOf (State.flueOf_of_flue hflue f), hflag.trans (clearRegs_slqValid i s), hslq⟩

theorem hrvMade_done (hf : f < 4) (hsrc : fp x 6 2 < 2048) (hport : fp x 0x13 1 < 16) :
    let t := flueDone f fsOk i [] ((hrvMade f i x s).setRing i {})
    FlueEnded s t f ∧ t.flag Fld.hrvStsValid i = true ∧ t.get Fld.hrvCfgClass i = fp x 0x12 1 % 4 ∧ t.get Fld.hrvCfgPort i = fp x 0x13 1 ∧
      t.get Fld.hrvCfgSrc i = fp x 6 2 ∧ t.get Fld.hrvCfgCreator i = f ∧ t.get Fld.hrvStsTail i = 0 ∧ t.ring i = {} := by
  obtain ⟨hc, hp, hsr, hcr⟩ := hrvMade_cfg f i x s
  obtain ⟨hv, htail⟩ := hrvMade_sts f i x s
  have hflue := hrvMade_flue f i x s
  have hget {g : Fld} (hg : g.kind ≠ .slqFsts) := flueDone_setRing_get f fsOk i [] i {} (hrvMade f i x s) hg i
  have hflag {g : Fld} (hg : g.kind ≠ .slqFsts) := flueDone_setRing_flag f fsOk i [] i {} (hrvMade f i x s) hg i
  refine ⟨flueDone_setRing_ended f fsOk i [] i {} (State.flueOf_of_flue hflue f), (hflag (by decide)).trans hv, (hget (by decide)).trans hc,
    (hget (by decide)).trans (hp.trans (Nat.mod_eq_of_lt hport)), (hget (by decide)).trans (hsr.trans (Nat.mod_eq_of_lt hsrc)),
    (hget (by decide)).trans (hcr.trans (Nat.mod_eq_of_lt hf)), (hget (by decide)).trans htail, ?_⟩
  rw [flueDone_ring]
  exact State.ring_setRing_same _ _ _

/-- What the destroy of a ring leaves, where `u` is the state with any edge owed raised. -/
theorem hrvTaken_done {u : State} (hu : u.flue = s.flue) (f i : Nat) :
    let t := flueDone f fsOk i [] { clearRegs hrvKinds i u with hrv := Tab.del i (clearRegs hrvKinds i u).hrv }
    FlueEnded s t f ∧ t.flag Fld.hrvStsValid i = false ∧ t.ring i = {} ∧ ∀ y, sourcePending t y = sourcePending u y := by
  have hflue : (clearRegs hrvKinds i u).flue = s.flue := by rw [clearRegs_rest]; exact hu
  obtain ⟨hend, hflag, hring, hpend⟩ := flueDone_hrvDropped f i (clearRegs hrvKinds i u)
  exact ⟨hend.of_flueOf (State.flueOf_of_flue hflue f), hflag.trans (clearRegs_hrvValid i u), hring,
    fun y => (hpend y).trans (sourcePending_clearRegs (by decide) i u y)⟩

end

section
variable {s : State} {f port vc tag : Nat} {o : Outst} {data : List Byte}

/-- The answer to the read of a completion unit that is not handed over yet, and of one that is. -/
theorem flueOwn_answered (hrun : s.running = true) (ho : findOutst s.fab port vc tag = some o) (hkind : o.req.kind = .rd) (hlen : data.length = o.req.len)
    (hheld : s.fab.held = []) (hcmd : (s.flueOf f).cmd = none) (hp : o.purpose = .flueOwn f) (hfetch : (s.flueOf f).fetch.isSome = true) :
    (bytesNum (data.take 1) < 128 → ∃ t, exec (.outboundResponse port vc tag .ok data) s = .next t ∧ t.regs = s.regs ∧
      t.flueOf f = { s.flueOf f with fetch := none, bell := true, again := false }) ∧
    (128 ≤ bytesNum (data.take 1) → ∃ t, exec (.outboundResponse port vc tag .ok data) s = .next t ∧ t.regs = s.regs ∧
      t.fab = fabIssueAll s.now (dropOutst s.fab o)
        ((cutPages 65 (flueCmdAddr (s.flueOf f) (s.flueOf f).head) (32 * flueLeft (s.flueOf f))).map fun c =>
          (mkReq (s.flueOf f).port 4 .rd c.1 c.2 [], .flueCmd f))) := by
  have hrow := exec_response (State.coreOn_of_running hrun) ho hkind hlen hheld
  rw [answer_flueOwn hp] at hrow
  refine ⟨fun hb => ?_, fun hb => ?_⟩
  · rw [flueOwned_idle (s := unsent s o) hfetch hcmd hb] at hrow
    exact ⟨_, hrow, rfl, (flueIdle_keeps f true (unsent s o)).2⟩
  · rw [flueOwned_asks (s := unsent s o) hrun hfetch hcmd hb] at hrow
    exact ⟨_, hrow, State.issueAll_regs _ _, State.issueAll_fab _ _⟩

/-- The answer to the last read of a command: no command, one that runs, and a malformed one. -/
theorem flueCmd_answered (hrun : s.running = true) (ho : findOutst s.fab port vc tag = some o) (hkind : o.req.kind = .rd) (hlen : data.length = o.req.len)
    (hheld : s.fab.held = []) (hp : o.purpose = .flueCmd f) {got : Tab Byte} (hfetch : (s.flueOf f).fetch = some (1, got, true)) {b : List Byte}
    (hb : b = bufGet (bufPut (o.req.addr - flueCmdAddr (s.flueOf f) (s.flueOf f).head) data got) 0 (32 * flueLeft (s.flueOf f))) :
    (bytesNum (b.take 1) < 128 → ∃ t, exec (.outboundResponse port vc tag .ok data) s = .next t ∧ t.regs = s.regs ∧
      t.flueOf f = { s.flueOf f with fetch := none, bell := (s.flueOf f).again, again := false }) ∧
    (128 ≤ bytesNum (b.take 1) → flueLeft (s.flueOf f) = 2 → flueMalformed b = false → noSuchOp b = false →
      ∃ t, exec (.outboundResponse port vc tag .ok data) s = .next t ∧ (t.flueOf f).cmd = some b ∧ t.flag Fld.slqFstsBusy f = true ∧
        (t.flueOf f).head = (if 128 * (s.flueOf f).cpages ≤ (s.flueOf f).head + 2 then 0 else (s.flueOf f).head + 2)) ∧
    (128 ≤ bytesNum (b.take 1) → flueMalformed b = true → ∃ t, exec (.outboundResponse port vc tag .ok data) s = .next t ∧ FlueEnded s t f ∧
      (f = 0 → t.banked = true ∧ t.get Fld.glbBankStsCause = 5) ∧ (f ≠ 0 → t.banked = false)) := by
  have hrow := exec_response (State.coreOn_of_running hrun) ho hkind hlen hheld
  rw [answer_flueCmd hp, flueRead_last (s := unsent s o) hrun hfetch] at hrow
  dsimp only at hrow
  rw [show (unsent s o).flueOf f = s.flueOf f from rfl, ← hb] at hrow
  have hblen : b.length = 32 * flueLeft (s.flueOf f) := by rw [hb, bufGet_length]
  refine ⟨fun hown => ?_, fun hown hleft hgood hop => ?_, fun hown hbad => ?_⟩
  · rw [if_pos hown] at hrow
    exact ⟨_, hrow, rfl, (flueIdle_keeps f false (unsent s o)).2⟩
  · rw [if_neg (by omega), flueTake_runs (by rw [hblen, hleft]) hgood hop] at hrow
    have hbusy := flueBusy_flueOf f b (unsent s o)
    rw [show (unsent s o).flueOf f = s.flueOf f from rfl, flueUnits_two hgood hleft] at hbusy
    refine ⟨_, hrow, ?_, flueBusy_busy f b _, ?_⟩
    · rw [hbusy, flueTaken, hblen, hleft]
      simp
    · rw [hbusy, flueTaken]
  · rw [if_neg (by omega)] at hrow
    obtain ⟨hend, hzero, hother⟩ := flueTake_malformed (s := unsent s o) (State.banked_of_running hrun) hbad
    exact ⟨_, hrow, hend.of_flueOf rfl, hzero, hother⟩

end

/-- Settles O30: the doorbell, the fetch and what it brings, and the commands that make, take back and halt. -/
theorem flueCommands : Obligations.FlueCommands := by
  refine ⟨fun s r f w hf hw hs hen => ?_, fun s f hrun hf hasks hlow => ?_, fun s f port vc tag o data hrun hf ho hkind hlen hheld hcmd =>
      ⟨fun hp hfetch => flueOwn_answered hrun ho hkind hlen hheld hcmd hp hfetch, fun hp got hfetch => flueCmd_answered hrun ho hkind hlen hheld hp hfetch rfl⟩,
    fun s f i x hx hi hi' => ⟨fun hf howner hring hvalid hok hburst hmax hen hfree hcls => ?_, fun howner => ?_⟩,
    fun s f i x hx hi hi' hv hown => ⟨fun hidle => ?_, fun hidle => ?_⟩, fun s f i x hx hi hi' hf hsrc hok hport hfree => ?_,
    fun s f i x hx hi hi' hv hown hnone => ?_, fun s f x hx => ⟨fun hf => ?_, fun hf => ?_⟩⟩
  · obtain ⟨hflue, hregs, hresps⟩ := slqFdbWrite_spec hen
    refine ⟨_, exec_flueDoorbell hf hw hs, ?_, ?_, respondWrite_resps_of_eq hresps r⟩
    · rw [State.respondWrite_eq]
      exact hflue
    · rw [State.respondWrite_eq]
      exact hregs
  · refine ⟨_, exec_flueFetch hrun hf hasks hlow, ?_, State.issueAll_regs _ _, State.issueAll_fab _ _⟩
    exact (State.flueOf_of_flue (State.issueAll_flue _ _) f).trans (s.flueOf_modFlue_same f _)
  · obtain ⟨w, b, m, hmade⟩ := slqCreate_made hi hi' hf howner hring hvalid hok hburst hmax hen hfree hcls
    have hrow := exec_slqCreate hx
    rw [hmade] at hrow
    obtain ⟨hend, hv, hc, ho, hrest⟩ := slqMade_done (s := s) (i := i) hx.2.1 (fp x 0x12 1 / 8 % 4) w b m hring
    exact ⟨_, hrow, hend, hv, hc, ho.trans (Nat.mod_mod _ _), hrest⟩
  · have hrow := exec_slqCreate hx
    rw [slqCreate_badOwner howner] at hrow
    exact ⟨_, hrow, flueDone_ended _ _ _ _ _, flueDone_slq _ _ _ _ _, otherRegs_flueDone _ _ _ _ _⟩
  · have hrow := exec_slqDestroy hx
    rw [slqDestroy_idle hi hi' hv hown hidle] at hrow
    exact ⟨_, hrow, slqTaken_done f i s⟩
  · have hrow := exec_slqDestroy hx
    rw [slqDestroy_busy hi hi' hv hown hidle] at hrow
    exact ⟨_, hrow, flueDone_ended _ _ _ _ _, flueDone_slq _ _ _ _ _, otherRegs_flueDone _ _ _ _ _⟩
  · have hrow := exec_hrvCreate hx
    rw [hrvCreate_made hi hi' hf hsrc hok hport hfree] at hrow
    exact ⟨_, hrow, hrvMade_done hx.2.1 hsrc hport⟩
  · obtain ⟨u, hu, hsignal, hdone⟩ := hrvDestroy_free (x := x) hi hi' hv hown hnone
    have hrow := exec_hrvDestroy hx
    rw [hdone] at hrow
    have hflue : u.flue = s.flue := by
      rcases hu with rfl | rfl
      · rfl
      · rfl
    obtain ⟨hend, hvalid, hring, hpend⟩ := hrvTaken_done hflue f i
    refine ⟨_, hrow, hend, hvalid, hring, fun hp => ?_⟩
    rw [hpend, hsignal hp]
    exact signalRing_pending s i
  · refine ⟨_, exec_setHalt_allowed hx hf, (flueDone_ended _ _ _ _ _).of_flueOf rfl, ?_⟩
    rw [flueDone_get _ _ _ _ _ (by decide), State.get_of_regs (setHalt_regs _ _), s.get_put_same _ (by decide)]
    exact Nat.mod_mod _ _
  · exact ⟨_, exec_setHalt_denied hx hf, flueDone_ended _ _ _ _ _, otherRegs_flueDone _ _ _ _ _ _ _ (by simp), flueDone_slq _ _ _ _ _⟩

end Sys2Proof.Machine
end


section
/-! PROOFS. O31: the flue's modifies, MIRROR_DROP, FLUE_CFG and the LUN operations. -/
namespace Sys2Proof.Machine

section
variable {s : State} {f i : Nat} {x : Flue}

theorem exec_slqModify (hx : FlueRuns s f 5 x) :
    exec (.slqModify f) s = .next (flueDone f (slqModify f x s).1 (slqModify f x s).2.1 [] (slqModify f x s).2.2) :=
  flueRow_run hx fun x s => ((slqModify f x s).1, (slqModify f x s).2.1, [], (slqModify f x s).2.2)

theorem exec_hrvModify (hx : FlueRuns s f 6 x) :
    exec (.hrvModify f) s = .next (flueDone f (hrvModify f x s).1 (hrvModify f x s).2.1 [] (hrvModify f x s).2.2) :=
  flueRow_run hx fun x s => ((hrvModify f x s).1, (hrvModify f x s).2.1, [], (hrvModify f x s).2.2)

theorem exec_flueCfg (hx : FlueRuns s f 9 x) :
    exec (.flueCfg f) s = .next (flueDone f (flueCfg f x s).1 (flueCfg f x s).2.1 [] (flueCfg f x s).2.2) :=
  flueRow_run hx fun x s => ((flueCfg f x s).1, (flueCfg f x s).2.1, [], (flueCfg f x s).2.2)

/-! ## Modifies -/

theorem slqModify_allowed (hi : fp x 4 2 = i) (hi' : i < 4096) (hv : s.flag Fld.slqCfgValid i = true)
    (hown : ownedBy f (s.get Fld.slqCfgCreator i) = true) (hb : fp x 7 1 ≤ 64) (hm : fp x 8 2 ≤ 4096) (hw0 : fp x 6 1 ≠ 0) (hb0 : fp x 7 1 ≠ 0)
    (hm0 : fp x 8 2 ≠ 0) :
    slqModify f x s = (fsOk, i, s.modSluice i fun y => { y with next := some (fp x 6 1, fp x 7 1, fp x 8 2) }) := by
  unfold slqModify
  dsimp only
  rw [hi, hv, hown, if_neg (by simp; omega), if_neg (by simp), if_neg hw0, if_neg hb0, if_neg hm0]

theorem hrvModify_allowed (hi : fp x 4 2 = i) (hi' : i < 4096) (hv : s.flag Fld.hrvStsValid i = true)
    (hown : ownedBy f (s.get Fld.hrvCfgCreator i) = true) :
    hrvModify f x s = (fsOk, i, (s.put Fld.hrvModCnt (fp x 6 1) i).put Fld.hrvModTime (fp x 8 2) i) := by
  unfold hrvModify
  dsimp only
  rw [hi, hv, hown, if_neg (by simp; omega), if_neg (by simp)]

end

/-! ## MIRROR_DROP -/

/-- The descriptors of the mirror slots, written free. -/
def mirrorsWritten (l : List Nat) (s : State) : State :=
  l.foldl (fun s k => dramWrite (descAddr s.img.hold.mirBase k) 2 (List.replicate 64 0) .descWrite s) s

theorem mirrorsWritten_rest (l : List Nat) (s : State) :
    mirrorsWritten l s = { s with fab := (mirrorsWritten l s).fab, pwr := (mirrorsWritten l s).pwr } := by
  unfold mirrorsWritten
  induction l generalizing s with
  | nil => rfl
  | cons k l ih =>
    rw [List.foldl_cons]
    exact State.memOnly_trans (dramWrite_rest _ _ _ _ s) (ih _)

theorem budget_rest (s : State) : budget s = { s with regs := (budget s).regs } := by
  unfold budget
  split <;> rfl

theorem dropMirrors_spec (s : State) : (dropMirrors s).2.flue = s.flue ∧ (dropMirrors s).2.wp.mir = [] := by
  have hrest := mirrorsWritten_rest ((s.wp.mir.filter fun e => e.2.st == 0x21).map Prod.fst) s
  have hdrop : (dropMirrors s).2 = budget { mirrorsWritten ((s.wp.mir.filter fun e => e.2.st == 0x21).map Prod.fst) s with
      wp := { (mirrorsWritten ((s.wp.mir.filter fun e => e.2.st == 0x21).map Prod.fst) s).wp with mir := [] } } := rfl
  rw [hdrop, budget_rest]
  refine ⟨?_, rfl⟩
  show (mirrorsWritten _ s).flue = s.flue
  rw [hrest]

/-- What a MIRROR_DROP runs (R357). -/
def mirrorRow (f : Nat) (s : State) : Nat × Nat × List Byte × State :=
  if 2 ≤ f then (fsDenied, 0, [], s)
  else if !s.wp.twin.single then (fsOk, 0, leBytes 8 0, s)
  else (fsOk, 0, leBytes 8 (dropMirrors s).1, (dropMirrors s).2)

theorem exec_mirrorDrop {s : State} {f : Nat} {x : Flue} (hx : FlueRuns s f 8 x) :
    exec (.mirrorDrop f) s = .next (flueDone f (mirrorRow f s).1 (mirrorRow f s).2.1 (mirrorRow f s).2.2.1 (mirrorRow f s).2.2.2) :=
  flueRow_run hx fun _ => mirrorRow f

theorem mirrorRow_alone {s : State} {f : Nat} (hf : f < 2) (h : s.wp.twin.single = true) :
    mirrorRow f s = (fsOk, 0, leBytes 8 (dropMirrors s).1, (dropMirrors s).2) := by
  rw [mirrorRow, if_neg (by omega), if_neg (by simp [h])]

theorem mirrorRow_paired {s : State} {f : Nat} (hf : f < 2) (h : s.wp.twin.single = false) : mirrorRow f s = (fsOk, 0, leBytes 8 0, s) := by
  rw [mirrorRow, if_neg (by omega), if_pos (by simp [h])]

theorem mirrorRow_denied {s : State} {f : Nat} (hf : 2 ≤ f) : mirrorRow f s = (fsDenied, 0, [], s) := if_pos hf

/-! ## FLUE_CFG -/

/-- The channel that a FLUE_CFG describes. -/
def flueNamed (x : Flue) : Flue := {
  cbase := fp x 8 8
  rbase := fp x 0x10 8
  cpages := fp x 0x18 2
  rpages := fp x 0x1A 2
  src := fp x 6 2
  port := fp x 0x24 1
  slqLo := fp x 0x1C 2
  slqHi := fp x 0x1E 2
  hrvLo := fp x 0x20 2
  hrvHi := fp x 0x22 2 }

theorem flueCfg_allowed {s : State} {f g : Nat} {x : Flue} (hf : f < 2) (hg : fp x 4 1 = g) (hg' : g = 2 ∨ g = 3) (hen : fp x 5 1 ≤ 1) (hsrc : fp x 6 2 < 2048)
    (hc : ringOk (fp x 8 8) (fp x 0x18 2) 16 = true) (hr : ringOk (fp x 0x10 8) (fp x 0x1A 2) 16 = true) (hport : fp x 0x24 1 < 16) (hsl : fp x 0x1C 2 < 4096)
    (hsh : fp x 0x1E 2 < 4096) (hhl : fp x 0x20 2 < 4096) (hhh : fp x 0x22 2 < 4096) :
    flueCfg f x s = (fsOk, 0, setFlue g (flueNamed x) (fp x 5 1 == 1) s) := by
  unfold flueCfg
  dsimp only
  rw [hg, hc, hr, if_neg (by omega), if_neg (by simp; omega)]
  rfl

theorem setFlue_flueOf_ne {s : State} {f g : Nat} (h : f ≠ g) (y : Flue) (en : Bool) : (setFlue g y en s).flueOf f = s.flueOf f := Tab.get_put_ne h _ _ _

theorem setFlue_flueOf_same (s : State) (g : Nat) (y : Flue) (en : Bool) : (setFlue g y en s).flueOf g = y := Tab.get_put_same _ _ _ _

theorem setFlue_en (s : State) (g : Nat) (y : Flue) (en : Bool) : (setFlue g y en s).flag Fld.slqFstsEn g = en :=
  State.flag_putFlag _ Fld.slqFstsEn (by decide) (by decide) en g

/-- A completion leaves the other channels. -/
theorem flueDone_flueOf_ne {f g : Nat} (h : g ≠ f) (st num : Nat) (detail : List Byte) (s : State) : (flueDone f st num detail s).flueOf g = s.flueOf g := by
  rw [flueDone_rest]
  exact Tab.get_put_ne h _ _ _

theorem flueDone_flag_ne {f g : Nat} (h : g ≠ f) (st num : Nat) (detail : List Byte) (s : State) (fld : Fld) :
    (flueDone f st num detail s).flag fld g = s.flag fld g := by
  rw [State.flag, State.get, otherRegs_flueDone f st num detail s _ _ fun e => h (congrArg Prod.snd e), State.flag, State.get]

/-! ## LUN operations -/

section
variable {s : State} {f t : Nat} {x : Flue} {start : Flue → State → State} {next : Flue → Nat → (Nat × Nat × List Byte) → State → State}

theorem lunRow_may (hx : FlueRuns s f 10 x) (ht : fp x 7 1 = t) :
    (s.running && decide (f < 4) && x.cmd.isSome && fp x 1 1 == 10 && fp x 7 1 == t) = true := by
  obtain ⟨hrun, hf, -, hcmd, hopc⟩ := hx
  simp [hrun, hf, hcmd, hopc, ht]

theorem lunRow_refused (hx : FlueRuns s f 10 x) (ht : fp x 7 1 = t) (hop : x.lunOp = none) {st : Nat} (hr : lunOpRefused f x s = some st) :
    lunRow f t start next s = .next (flueDone f st 0 [] s) := by
  rw [lunRow, hx.2.2.1, lunRow_may hx ht, onlyIf_true, hop, hr]

theorem lunRow_starts (hx : FlueRuns s f 10 x) (ht : fp x 7 1 = t) (hop : x.lunOp = none) (hr : lunOpRefused f x s = none) :
    lunRow f t start next s = .next (start x s) := by
  rw [lunRow, hx.2.2.1, lunRow_may hx ht, onlyIf_true, hop, hr]

theorem lunRow_ended (hx : FlueRuns s f 10 x) (ht : fp x 7 1 = t) {n : Nat} (hop : x.lunOp = some n) {e : Nat × Nat × List Byte} (he : x.lunEnd = some e) :
    lunRow f t start next s = .next (next x n e s) := by
  rw [lunRow, hx.2.2.1, lunRow_may hx ht, onlyIf_true, hop, he]

end

/-- The first array operation of a LUN_OP, queued (R464). -/
def lunAsked (f optype : Nat) (data : List Byte) (x : Flue) (s : State) : State := enqueue (lunWant f x optype data) (lunStep f 0 s)

theorem lunAsked_spec (f optype : Nat) (data : List Byte) (s : State) :
    let x := s.flueOf f
    let t := lunAsked f optype data x s
    t.regs = s.regs ∧ (t.flueOf f).lunOp = some 0 ∧ (t.flueOf f).cmd = x.cmd ∧
      (t.lun (opLun x)).queue = (s.lun (opLun x)).queue ++ [{ lunWant f x optype data with since := (lunStep f 0 s).now }] := by
  have hflue : (lunAsked f optype data (s.flueOf f) s).flueOf f = { s.flueOf f with lunOp := some 0, lunEnd := none } := Tab.get_put_same _ _ _ _
  refine ⟨rfl, by rw [hflue], by rw [hflue], ?_⟩
  exact congrArg LunSt.queue (State.lun_enqueue (lunWant f (s.flueOf f) optype data) (lunStep f 0 s))

theorem flueDone_md (f st num : Nat) (detail : List Byte) (s : State) : (flueDone f st num detail s).md = s.md := by rw [flueDone_rest]

/-- The steps of the LUN operations after the first, as their rows give them (R464, R237). -/
def otpReadNext (f : Nat) (x : Flue) (n : Nat) (e : Nat × Nat × List Byte) (s : State) : State :=
  if n = 0 then
    if e.1 ≠ 0 then lunDone f fsOpFail [] e.1 e.2.1 s
    else lunJobs f x true e.2.2 (s.profile (opLun x)).physPage (s.modFlue f fun y => { y with lunOp := some 1 })
  else if x.lunOut = 0 then lunDone f (if n = 9 then fsOpFail else fsOk) [] e.1 e.2.1 s
  else s

def otpProgNext (f : Nat) (x : Flue) (n : Nat) (e : Nat × Nat × List Byte) (s : State) : State :=
  if n = 0 then
    if e.1 ≠ 0 then lunDone f fsOpFail [] e.1 e.2.1 s
    else if !e.2.2.all (· == 0xFF) then flueDone f fsDenied 0 [] s
    else lunJobs f x false [] (s.profile (opLun x)).physPage (s.modFlue f fun y => { y with lunOp := some 1 })
  else if n = 1 then
    if x.lunOut = 0 then enqueue (lunWant f x 0x19 (bufGet x.lunBuf 0 (s.profile (opLun x)).physPage)) (lunStep f 2 s) else s
  else if n = 9 then lunDone f fsOpFail [] e.1 e.2.1 s
  else lunDone f (if e.1 = 0 then fsOk else fsOpFail) [] e.1 e.2.1 s

def getFeatNext (f : Nat) (_ : Flue) (_ : Nat) (e : Nat × Nat × List Byte) (s : State) : State :=
  lunDone f (if e.1 = 0 then fsOk else fsOpFail) (e.2.2.take 4) e.1 e.2.1 s

def setFeatNext (f : Nat) (_ : Flue) (_ : Nat) (e : Nat × Nat × List Byte) (s : State) : State :=
  lunDone f (if e.1 = 0 then fsOk else fsOpFail) [] e.1 e.2.1 s

theorem lunDone_flueDone (f fs : Nat) (feats : List Byte) (code status : Nat) (s : State) :
    ∃ d, lunDone f fs feats code status s = flueDone f fs 0 d s := ⟨_, rfl⟩

/-- Each LUN_OP's row: its first array operation, and its completion once that has ended, for one of its steps that ends it. -/
theorem exec_lunOp {f ty first : Nat} {i : Instr}
    (h : (ty, first, i) ∈ [(0x18, 0x18, Instr.lunOpOtpRead f), (0x19, 0x18, .lunOpOtpProg f), (0x20, 0x20, .lunOpGetFeat f), (0x21, 0x21, .lunOpSetFeat f)]) :
    ∃ (dat : Flue → List Byte) (next : Flue → Nat → (Nat × Nat × List Byte) → State → State),
      (∀ s, exec i s = lunRow f ty (fun x s => lunAsked f first (dat x) x s) next s) ∧
      ∀ x code st raw s, (2 ≤ ty / 16 ∨ code ≠ 0) → ∃ fs d, next x 0 (code, st, raw) s = flueDone f fs 0 d s := by
  simp only [List.mem_cons, Prod.mk.injEq, List.not_mem_nil, or_false] at h
  rcases h with ⟨rfl, rfl, rfl⟩ | ⟨rfl, rfl, rfl⟩ | ⟨rfl, rfl, rfl⟩ | ⟨rfl, rfl, rfl⟩
  · exact ⟨fun _ => [], otpReadNext f, fun _ => rfl, fun x code st raw s hend =>
      ⟨fsOpFail, (lunDone_flueDone f fsOpFail [] code st s).imp fun _ h => ((if_pos rfl).trans (if_pos (hend.resolve_left (by decide)))).trans h⟩⟩
  · exact ⟨fun _ => [], otpProgNext f, fun _ => rfl, fun x code st raw s hend =>
      ⟨fsOpFail, (lunDone_flueDone f fsOpFail [] code st s).imp fun _ h => ((if_pos rfl).trans (if_pos (hend.resolve_left (by decide)))).trans h⟩⟩
  · exact ⟨fun _ => [], getFeatNext f, fun _ => rfl, fun x code st raw s _ => ⟨_, lunDone_flueDone f _ _ code st s⟩⟩
  · exact ⟨fun x => ((x.cmd.getD []).drop 0x0C).take 4, setFeatNext f, fun _ => rfl, fun x code st raw s _ => ⟨_, lunDone_flueDone f _ _ code st s⟩⟩

theorem bytesNum_lt : ∀ b : List Byte, bytesNum b < 256 ^ b.length
  | [] => by decide
  | a :: b => by
    have ih := bytesNum_lt b
    have ha := a.isLt
    show a.toNat + 256 * bytesNum b < 256 ^ (b.length + 1)
    rw [Nat.pow_succ]
    omega

theorem fp_lt (x : Flue) (o n : Nat) : fp x o n < 256 ^ n :=
  lt_of_lt_of_le (bytesNum_lt _) (Nat.pow_le_pow_right (by decide) (by rw [List.length_take]; omega))

/-- Settles O31: the modifies, MIRROR_DROP, FLUE_CFG and the LUN operations. -/
theorem flueChangesAndLunOps : Obligations.FlueChangesAndLunOps := by
  refine ⟨fun s f i x hx hi hi' hv hown hb hm hw0 hb0 hm0 => ?_, fun s f i x hx hi hi' hv hown => ?_,
    fun s f x hx => ⟨fun hf hs => ?_, fun hf hs => ?_, fun hf => ?_⟩,
    fun s f g x hx hf hg hg' hen hsrc hc hr hport hsl hsh hhl hhh => ?_, fun s f x i ty first hx hty hi => ?_⟩
  · have hrow := exec_slqModify hx
    rw [slqModify_allowed hi hi' hv hown hb hm hw0 hb0 hm0] at hrow
    refine ⟨_, hrow, (flueDone_ended _ _ _ _ _).of_flueOf rfl, ?_, otherRegs_flueDone _ _ _ _ _⟩
    rw [State.sluice_of_slq (flueDone_slq _ _ _ _ _), State.sluice_modSluice_same]
  · have hrow := exec_hrvModify hx
    rw [hrvModify_allowed hi hi' hv hown] at hrow
    refine ⟨_, hrow, (flueDone_ended _ _ _ _ _).of_flueOf rfl, (flueDone_get _ _ _ _ _ (by decide) i).trans ?_, (flueDone_get _ _ _ _ _ (by decide) i).trans ?_⟩
    · rw [State.get_put_field _ (by decide) (by decide), State.get_put_same _ _ (by decide)]
      exact Nat.mod_eq_of_lt (fp_lt x 6 1)
    · rw [State.get_put_same _ _ (by decide)]
      exact Nat.mod_eq_of_lt (fp_lt x 8 2)
  · have hrow := exec_mirrorDrop hx
    rw [mirrorRow_alone hf hs] at hrow
    obtain ⟨hflue, hmir⟩ := dropMirrors_spec s
    refine ⟨_, hrow, (flueDone_ended _ _ _ _ _).of_flueOf (State.flueOf_of_flue hflue f), ?_⟩
    rw [flueDone_rest]
    exact hmir
  · have hrow := exec_mirrorDrop hx
    rw [mirrorRow_paired hf hs] at hrow
    refine ⟨_, hrow, flueDone_ended _ _ _ _ _, ?_⟩
    rw [flueDone_rest]
  · have hrow := exec_mirrorDrop hx
    rw [mirrorRow_denied hf] at hrow
    refine ⟨_, hrow, flueDone_ended _ _ _ _ _, ?_⟩
    rw [flueDone_rest]
  · have hne : g ≠ f := by omega
    have hrow := exec_flueCfg hx
    rw [flueCfg_allowed hf hg hg' hen hsrc hc hr hport hsl hsh hhl hhh] at hrow
    have hflue := (flueDone_flueOf_ne hne fsOk 0 [] (setFlue g (flueNamed x) (fp x 5 1 == 1) s)).trans (setFlue_flueOf_same s g (flueNamed x) (fp x 5 1 == 1))
    refine ⟨_, hrow, (flueDone_ended _ _ _ _ _).of_flueOf (setFlue_flueOf_ne hne.symm _ _), (flueDone_flag_ne hne _ _ _ _ _).trans (setFlue_en s g _ _), ?_⟩
    rw [hflue]
    exact ⟨rfl, rfl, rfl, rfl, rfl, rfl⟩
  · obtain ⟨dat, next, hexec, hends⟩ := exec_lunOp hi
    refine ⟨fun hop st hr => ?_, fun hop hr => ?_, fun code st raw hop he hend => ?_⟩
    · exact ⟨_, (hexec s).trans (lunRow_refused hx hty hop hr), flueDone_ended _ _ _ _ _, flueDone_md _ _ _ _ _⟩
    · obtain ⟨hregs, hstep, hcmd, hqueue⟩ := lunAsked_spec f first (dat x) s
      rw [hx.2.2.1] at hregs hstep hcmd hqueue
      exact ⟨_, _, (hexec s).trans (lunRow_starts hx hty hop hr), hregs, hstep, hcmd, hqueue, rfl, rfl, rfl, rfl⟩
    · obtain ⟨fs, d, hdone⟩ := hends x code st raw s hend
      have hrow := (hexec s).trans (lunRow_ended hx hty hop he)
      rw [hdone] at hrow
      exact ⟨_, hrow, flueDone_ended _ _ _ _ _, flueDone_md _ _ _ _ _⟩

end Sys2Proof.Machine
end


section
/-! SUPPORT. Mover contexts: what the state's operations on them do, and a context past an instruction, completed or faulted. -/
namespace Sys2Proof.Machine

/-! ## Contexts -/

@[simp] theorem State.ctx_setCtx_same (s : State) (m c : Nat) (x : Ctx) : (s.setCtx m c x).ctx m c = some x := Tab.find_put_same _ _ _

theorem ctxKey_inj {m c k d : Nat} (hc : c < 32) (hd : d < 32) (h : ctxKey k d = ctxKey m c) : (k, d) = (m, c) := by
  unfold ctxKey at h
  have hm : k = m := by omega
  have hd : d = c := by omega
  rw [hm, hd]

theorem State.ctx_setCtx_ne {m c k d : Nat} (hc : c < 32) (hd : d < 32) (h : (k, d) ≠ (m, c)) (s : State) (x : Ctx) : (s.setCtx m c x).ctx k d = s.ctx k d :=
  Tab.find_put_ne (fun e => h (ctxKey_inj hc hd e)) _ _

theorem State.setCtx_rest (s : State) (m c : Nat) (x : Ctx) : s.setCtx m c x = { s with mov := (s.setCtx m c x).mov } := rfl

theorem State.freeCtx_rest (s : State) (m c : Nat) : s.freeCtx m c = { s with mov := (s.freeCtx m c).mov } := rfl

@[simp] theorem State.ctx_freeCtx (s : State) (m c : Nat) : (s.freeCtx m c).ctx m c = none := Tab.find_del_same _ _

theorem State.ctx_of_mov {s t : State} (h : t.mov = s.mov) (m c : Nat) : t.ctx m c = s.ctx m c := by rw [State.ctx, h, State.ctx]

/-! ## A context past an instruction -/

theorem moverCheck_stays {s : State} {m c : Nat} {y : Ctx} (hy : s.ctx m c = some y) (hfault : y.fault = none)
    (hmore : y.ended = false ∨ y.reqs ≠ [] ∨ y.open_ ≠ [] ∨ y.waitSince ≠ none) : moverCheck m c s = s := by
  have hno : ¬ (y.ended && y.reqs.isEmpty && y.open_.isEmpty && y.waitSince.isNone) = true := by
    simp only [Bool.and_eq_true, List.isEmpty_iff, Option.isNone_iff_eq_none]
    rintro ⟨⟨⟨he, hr⟩, ho⟩, hw⟩
    rcases hmore with h | h | h | h
    · rw [he] at h
      cases h
    · exact h hr
    · exact h ho
    · exact h hw
  rw [moverCheck, hy]
  dsimp only
  rw [hfault, if_neg (by decide), if_neg hno]

/-- What the completion of a firmware job shows: one job more, the mover's state, and its source where it asks for that. -/
def jobShown (m : Nat) (s : State) : State :=
  let s := s.inc Fld.belJobsJobs m
  if isFirmware m then
    let s := s.put Fld.belStsState 4 m
    if s.flag Fld.belCfgDoneIrq m then s.edge (.shared (s.get Fld.belCfgSrc m)) else s
  else s.put Fld.belStsState 0 m

theorem moverCheck_completes {s : State} {m c : Nat} {y : Ctx} (hy : s.ctx m c = some y) (hfault : y.fault = none) (hended : y.ended = true)
    (hreqs : y.reqs = []) (hopen : y.open_ = []) (hwait : y.waitSince = none) (hpath : y.job.path = .firmware) :
    moverCheck m c s = jobShown m (s.freeCtx m c) := by
  rw [moverCheck, hy]
  dsimp only
  rw [hfault, if_neg (by decide), hended, hreqs, hopen, hwait, if_pos (by decide), jobDone, hpath]
  rfl

theorem jobShown_rest (m : Nat) (s : State) : jobShown m s = { s with regs := (jobShown m s).regs } := by
  unfold jobShown
  dsimp only
  split_ifs <;> rfl

/-- The registers that the completion of a job shows it in. -/
def jobKinds : List RegKind := [.belJobs, .belSts, .sicPpendLo, .sicPpendHi, .sicSpend]

theorem State.reg_edge {k : RegKind} (h : k ∉ [RegKind.sicPpendLo, .sicPpendHi, .sicSpend]) (s : State) (x : Source) (i : Nat) : (s.edge x).reg k i = s.reg k i :=
  s.reg_setReg_kind (fun e : k = (pendBit x).1 => h (by rw [e]; exact pendBit_kind_mem x)) _ _ _

theorem jobShown_reg {k : RegKind} (h : k ∉ jobKinds) (m i : Nat) (s : State) : (jobShown m s).reg k i = s.reg k i := by
  simp only [jobKinds, List.mem_cons, not_or] at h
  obtain ⟨hjobs, hsts, hsic⟩ := h
  have hedge (u : State) (x : Source) : (u.edge x).reg k i = u.reg k i := State.reg_edge (by simpa using hsic) u x i
  have hput (v : Nat) (u : State) : (u.put Fld.belStsState v m).reg k i = u.reg k i := State.reg_put_kind _ hsts _ _ _
  have hinc : (s.inc Fld.belJobsJobs m).reg k i = s.reg k i := State.reg_inc_kind _ hjobs _ _ _
  unfold jobShown
  dsimp only
  split_ifs <;> simp only [hedge, hput, hinc]

theorem jobShown_spec (m : Nat) (s : State) :
    (jobShown m s).get Fld.belJobsJobs m = min Fld.belJobsJobs.max (s.get Fld.belJobsJobs m + 1) ∧
      (jobShown m s).get Fld.belStsState m = if isFirmware m then 4 else 0 := by
  have hedge {f : Fld} (hf : f.kind ∉ [RegKind.sicPpendLo, .sicPpendHi, .sicSpend]) (u : State) (x : Source) : (u.edge x).get f m = u.get f m :=
    congrArg f.get (State.reg_edge hf u x m)
  have hjobs (v : Nat) : ((s.inc Fld.belJobsJobs m).put Fld.belStsState v m).get Fld.belJobsJobs m = min Fld.belJobsJobs.max (s.get Fld.belJobsJobs m + 1) := by
    rw [State.get_put_kind _ (by decide), State.get_inc_same _ _ (by decide)]
  have hstate (v : Nat) : ((s.inc Fld.belJobsJobs m).put Fld.belStsState v m).get Fld.belStsState m = v % 8 := State.get_put_same _ _ (by decide) _ _
  unfold jobShown
  dsimp only
  split_ifs
  · rw [hedge (by decide), hedge (by decide), hjobs, hstate]
    exact ⟨rfl, rfl⟩
  · rw [hjobs, hstate]
    exact ⟨rfl, rfl⟩
  · rw [hjobs, hstate]
    exact ⟨rfl, rfl⟩

theorem sourcePending_jobShown {x : Source} {s : State} (h : sourcePending s x = true) (m : Nat) :
    sourcePending (jobShown m s) x = true := by
  have hkinds : ∀ k ∈ [RegKind.sicPpendLo, .sicPpendHi, .sicSpend], k ≠ .belJobs ∧ k ≠ .belSts := by decide
  have hshown (v : Nat) : sourcePending ((s.inc Fld.belJobsJobs m).put Fld.belStsState v m) x = true := by
    rw [sourcePending_congr (s := s) fun k hk i => ?_, h]
    rw [State.reg_put_kind _ (hkinds k hk).2, State.reg_inc_kind _ (hkinds k hk).1]
  unfold jobShown
  dsimp only
  split_ifs
  · rw [sourcePending_edge _ (Nat.mod_lt _ (by decide) : (pendBit (.shared _)).2.2 < 32), hshown, Bool.or_true]
  · exact hshown 4
  · exact hshown 0

/-- The check after an instruction that issues nothing (R475, R483). -/
theorem belPast_moverCheck {s u : State} {m c : Nat} {x y : Ctx} (hy : u.ctx m c = some y) (hfault : y.fault = none) (hreqs : y.reqs = [])
    (hwait : y.waitSince = none) (hjob : y.job = x.job) (hjobs : u.reg .belJobs m = s.reg .belJobs m) : BelPast s (moverCheck m c u) m c x y := by
  refine ⟨fun hmore => ?_, fun hended hopen hpath => ?_⟩
  · rw [moverCheck_stays hy hfault (hmore.imp_right fun h => Or.inr (Or.inl h)), hy]
  · obtain ⟨hcount, hstate⟩ := jobShown_spec m (u.freeCtx m c)
    rw [moverCheck_completes hy hfault hended hreqs hopen hwait (by rw [hjob, hpath])]
    refine ⟨?_, hcount.trans ?_, hstate⟩
    · rw [State.ctx_of_mov (by rw [jobShown_rest] : (jobShown m (u.freeCtx m c)).mov = (u.freeCtx m c).mov), State.ctx_freeCtx]
    · have hget : u.get Fld.belJobsJobs m = s.get Fld.belJobsJobs m := congrArg Fld.belJobsJobs.get hjobs
      rw [State.get_of_regs (s := u) (by rw [State.freeCtx_rest]), hget]

/-! ## Faults -/

/-- The registers, and the source, that a fault shows (R492). -/
def faultShown (m code instr done : Nat) (addr : Option Nat) (s : State) : State :=
  faultSource m (if isFirmware m then (faultRegs m code instr done addr s).put Fld.belStsState 5 m else faultRegs m code instr done addr s)

section
variable (m code instr done : Nat) (addr : Option Nat) (s : State)

/-- The address that a fault shows, and the state once it is at hand. -/
def faultAddr : Nat × State :=
  match addr with
  | some a => (a, s)
  | none => (s.fresh.1.toNat, s.fresh.2)

theorem faultAddr_rest : (faultAddr addr s).2 = { s with freeCtr := (faultAddr addr s).2.freeCtr } := by
  unfold faultAddr
  split <;> rfl

/-- The fault's registers before its log entry. -/
def faultPut (a : Nat) (u : State) : State :=
  let u := ((u.put Fld.belStsCode code m).put Fld.belStsPc instr m).put Fld.belStsElemDone done m
  ((u.put Fld.belFaddrLoAddr a m).put Fld.belFaddrHiAddr (a >>> 32) m).inc Fld.belGstsFaults

theorem faultRegs_eq : faultRegs m code instr done addr s =
    (faultPut m code instr done (faultAddr addr s).1 (faultAddr addr s).2).logPacked uBEL (0x400 + code) := by
  unfold faultRegs faultAddr
  cases addr <;> rfl

theorem faultPut_rest (a : Nat) : faultPut m code instr done a s = { s with regs := (faultPut m code instr done a s).regs } := rfl

theorem State.logPacked_rest (u c : Nat) (o v : List (Nat × Nat)) :
    s.logPacked u c o v = { s with regs := (s.logPacked u c o v).regs, log := (s.logPacked u c o v).log } := rfl

theorem faultTold_trans {s t u v : State} (h : t = { s with freeCtr := t.freeCtr }) (g : u = { t with regs := u.regs })
    (k : v = { u with regs := v.regs, log := v.log }) : v = { s with regs := v.regs, log := v.log, freeCtr := v.freeCtr } := by
  rw [k, g, h]

theorem faultRegs_rest : faultRegs m code instr done addr s =
    { s with
      regs := (faultRegs m code instr done addr s).regs
      log := (faultRegs m code instr done addr s).log
      freeCtr := (faultRegs m code instr done addr s).freeCtr } := by
  rw [faultRegs_eq]
  exact faultTold_trans (faultAddr_rest addr s) (faultPut_rest m code instr done _ _) (State.logPacked_rest _ _ _ _ _)

/-- The registers in which a fault is shown. -/
def faultKinds : List RegKind := [.belSts, .belFaddrLo, .belFaddrHi, .belGsts, .glbLogSeq]

theorem faultRegs_reg {k : RegKind} (h : k ∉ faultKinds) (i : Nat) : (faultRegs m code instr done addr s).reg k i = s.reg k i := by
  simp only [faultKinds, List.mem_cons, List.not_mem_nil, or_false, not_or] at h
  obtain ⟨hsts, hlo, hhi, hgsts, hseq⟩ := h
  rw [faultRegs_eq, State.reg_logPacked _ hseq, faultPut, State.reg_inc_kind _ hgsts, State.reg_put_kind _ hhi, State.reg_put_kind _ hlo,
    State.reg_put_kind _ hsts, State.reg_put_kind _ hsts, State.reg_put_kind _ hsts]
  exact State.reg_of_regs (by rw [faultAddr_rest]) k i

theorem faultRegs_spec : (faultRegs m code instr done addr s).get Fld.belStsCode m = code % 16 ∧
    (faultRegs m code instr done addr s).get Fld.belStsPc m = instr % 32 ∧
    (faultRegs m code instr done addr s).get Fld.belGstsFaults = min 65535 (s.get Fld.belGstsFaults + 1) := by
  have hgsts : (faultAddr addr s).2.get Fld.belGstsFaults = s.get Fld.belGstsFaults := State.get_of_regs (by rw [faultAddr_rest]) _ _
  rw [faultRegs_eq, State.get_logPacked _ (by decide), State.get_logPacked _ (by decide), State.get_logPacked _ (by decide), faultPut,
    State.get_inc_same _ _ (by decide)]
  simp (disch := decide) only [State.get_inc_kind, State.get_put_kind, State.get_put_field, State.get_put_same, hgsts]
  exact ⟨rfl, rfl, rfl⟩

theorem faultSource_rest : faultSource m s = { s with regs := (faultSource m s).regs } := by
  unfold faultSource
  split <;> rfl

theorem faultSource_get {f : Fld} (h : f.kind ∉ [RegKind.sicPpendLo, .sicPpendHi, .sicSpend]) (i : Nat) : (faultSource m s).get f i = s.get f i := by
  unfold faultSource
  split
  · exact congrArg f.get (State.reg_edge h s _ i)
  · rfl

theorem faultShown_rest : faultShown m code instr done addr s =
    { s with
      regs := (faultShown m code instr done addr s).regs
      log := (faultShown m code instr done addr s).log
      freeCtr := (faultShown m code instr done addr s).freeCtr } := by
  have htrans {u v : State} (h : u = { s with regs := u.regs, log := u.log, freeCtr := u.freeCtr }) (g : v = { u with regs := v.regs }) :
      v = { s with regs := v.regs, log := v.log, freeCtr := v.freeCtr } := by rw [g, h]
  have hregs := faultRegs_rest m code instr done addr s
  rw [faultShown]
  split
  · exact htrans (htrans hregs rfl) (faultSource_rest m _)
  · exact htrans hregs (faultSource_rest m _)

theorem faultShown_spec : (faultShown m code instr done addr s).get Fld.belStsCode m = code % 16 ∧
    (faultShown m code instr done addr s).get Fld.belStsPc m = instr % 32 ∧
    (faultShown m code instr done addr s).get Fld.belGstsFaults = min 65535 (s.get Fld.belGstsFaults + 1) ∧
    (isFirmware m = true → (faultShown m code instr done addr s).get Fld.belStsState m = 5 ∧
      sourcePending (faultShown m code instr done addr s) (.shared (s.get Fld.belCfgSrc m)) = true) := by
  obtain ⟨hcode, hpc, hcount⟩ := faultRegs_spec m code instr done addr s
  have hsrc : (faultRegs m code instr done addr s).get Fld.belCfgSrc m = s.get Fld.belCfgSrc m :=
    congrArg Fld.belCfgSrc.get (faultRegs_reg m code instr done addr s (by decide) m)
  rw [faultShown]
  cases hfw : isFirmware m with
  | false =>
    rw [if_neg (by decide), faultSource_get _ _ (by decide), faultSource_get _ _ (by decide), faultSource_get _ _ (by decide)]
    exact ⟨hcode, hpc, hcount, fun h => Bool.noConfusion h⟩
  | true =>
    rw [if_pos rfl, faultSource_get _ _ (by decide), faultSource_get _ _ (by decide), faultSource_get _ _ (by decide), faultSource_get _ _ (by decide),
      State.get_put_field _ (by decide) (by decide), State.get_put_field _ (by decide) (by decide), State.get_put_kind _ (by decide),
      State.get_put_same _ _ (by decide)]
    refine ⟨hcode, hpc, hcount, fun _ => ⟨rfl, ?_⟩⟩
    rw [faultSource, if_pos hfw, State.get_put_kind _ (by decide), hsrc]
    exact sourcePending_edge_shared _ _

end

/-- What a fault leaves of the context (R492). -/
def faultCtx (m : Nat) (x : Ctx) (code instr : Nat) (q : Option MReq) (s : State) : Ctx × State :=
  let elem := (q.map (·.elem)).getD 0
  let a := match q with
    | some _ => faultBuf m x instr elem s
    | none => (x.buf, s)
  ({ x with
    reqs := []
    waitSince := none
    cur := instr
    buf := a.1
    fault := some (code, instr, elem)
    faultN := (q.map (·.n)).getD x.nreq }, a.2)

theorem faultBuf_rest (m : Nat) (x : Ctx) (instr elem : Nat) (s : State) :
    (faultBuf m x instr elem s).2 = { s with freeCtr := (faultBuf m x instr elem s).2.freeCtr } := by
  unfold faultBuf
  split <;> rfl

theorem faultCtx_rest (m : Nat) (x : Ctx) (code instr : Nat) (q : Option MReq) (s : State) :
    (faultCtx m x code instr q s).2 = { s with freeCtr := (faultCtx m x code instr q s).2.freeCtr } := by
  unfold faultCtx
  cases q with
  | none => rfl
  | some q => exact faultBuf_rest _ _ _ _ _

theorem markFault_eq (m c : Nat) (x : Ctx) (code instr : Nat) (q : Option MReq) (s : State) :
    ∃ done, markFault m c x code instr q s =
      (let t := faultShown m code instr done (q.map (·.addr)) ((faultCtx m x code instr q s).2.setCtx m c (faultCtx m x code instr q s).1)
       if x.open_.isEmpty then t.freeCtx m c else t) := ⟨_, rfl⟩

theorem markFault_shown {m c code instr done : Nat} {addr : Option Nat} {x y : Ctx} {s s0 t : State} (h0 : s0 = { s with freeCtr := s0.freeCtr })
    (ht : t = if x.open_.isEmpty then (faultShown m code instr done addr (s0.setCtx m c y)).freeCtx m c
      else faultShown m code instr done addr (s0.setCtx m c y)) :
    t = { s with regs := t.regs, log := t.log, freeCtr := t.freeCtr, mov := t.mov } ∧
      t.get Fld.belStsCode m = code % 16 ∧ t.get Fld.belStsPc m = instr % 32 ∧ t.get Fld.belGstsFaults = min 65535 (s.get Fld.belGstsFaults + 1) ∧
      (isFirmware m = true → t.get Fld.belStsState m = 5 ∧ sourcePending t (.shared (s.get Fld.belCfgSrc m)) = true) ∧
      (x.open_ = [] → t.ctx m c = none) ∧ (x.open_ ≠ [] → t.ctx m c = some y) := by
  have hregs : (s0.setCtx m c y).regs = s.regs := by rw [h0]; rfl
  obtain ⟨hcode, hpc, hcount, hfw⟩ := faultShown_spec m code instr done addr (s0.setCtx m c y)
  rw [State.get_of_regs hregs] at hcount hfw
  have hrest := faultShown_rest m code instr done addr (s0.setCtx m c y)
  generalize faultShown m code instr done addr (s0.setCtx m c y) = v at *
  have hv : v = { s with regs := v.regs, log := v.log, freeCtr := v.freeCtr, mov := v.mov } := by rw [hrest, h0]; rfl
  have hctx : v.ctx m c = some y := (State.ctx_of_mov (by rw [hrest]) m c).trans (State.ctx_setCtx_same _ _ _ _)
  cases hopen : x.open_.isEmpty with
  | true =>
    rw [hopen, if_pos rfl] at ht
    subst ht
    refine ⟨by rw [State.freeCtx_rest, hv], hcode, hpc, hcount, hfw, fun _ => State.ctx_freeCtx _ _ _, fun h => absurd (List.isEmpty_iff.mp hopen) h⟩
  | false =>
    rw [hopen, if_neg (by decide)] at ht
    subst ht
    refine ⟨hv, hcode, hpc, hcount, hfw, fun h => ?_, fun _ => hctx⟩
    rw [h] at hopen
    cases hopen

/-- What a fault of a job of the firmware's leaves (R492). -/
theorem markFault_spec (m c : Nat) (x : Ctx) (code instr : Nat) (q : Option MReq) (s : State) :
    let t := markFault m c x code instr q s
    t = { s with regs := t.regs, log := t.log, freeCtr := t.freeCtr, mov := t.mov } ∧
      t.get Fld.belStsCode m = code % 16 ∧ t.get Fld.belStsPc m = instr % 32 ∧ t.get Fld.belGstsFaults = min 65535 (s.get Fld.belGstsFaults + 1) ∧
      (isFirmware m = true → t.get Fld.belStsState m = 5 ∧ sourcePending t (.shared (s.get Fld.belCfgSrc m)) = true) ∧
      (x.open_ = [] → t.ctx m c = none) ∧ (x.open_ ≠ [] → t.ctx m c = some (faultCtx m x code instr q s).1) := by
  obtain ⟨done, hmark⟩ := markFault_eq m c x code instr q s
  have hrest := faultCtx_rest m x code instr q s
  generalize (faultCtx m x code instr q s).2 = s0 at hmark hrest
  exact markFault_shown hrest hmark

theorem moverFault_firmware {s : State} {m c : Nat} {x : Ctx} (hx : s.ctx m c = some x) (hfault : x.fault = none) (hpath : x.job.path = .firmware)
    (code instr : Nat) (q : Option MReq) : moverFault m c code instr q s = markFault m c x code instr q s := by
  rw [moverFault, hx]
  dsimp only
  rw [hfault, if_neg (by decide), jobFault, hpath]
  split <;> rfl

theorem moverCheck_markFault (m c : Nat) (x : Ctx) (code instr : Nat) (q : Option MReq) (s : State) :
    moverCheck m c (markFault m c x code instr q s) = markFault m c x code instr q s := by
  obtain ⟨-, -, -, -, -, hfree, hkept⟩ := markFault_spec m c x code instr q s
  by_cases hopen : x.open_ = []
  · rw [moverCheck, hfree hopen]
  · rw [moverCheck, hkept hopen]
    have hno : (faultCtx m x code instr q s).1.open_.isEmpty = false := by
      rw [show (faultCtx m x code instr q s).1.open_ = x.open_ from rfl]
      simpa using hopen
    dsimp only
    rw [show (faultCtx m x code instr q s).1.fault.isSome = true from rfl, if_pos rfl, hno, if_neg (by decide)]

/-! ## Instructions -/

theorem belRow_run {s : State} {m c : Nat} {x : Ctx} {w : BitVec 128} (h : BelAt s m c x w) {i : BelInstr} (hw : belDecode w = i) {mine : BelInstr → Bool}
    (hmine : mine i = true) (run : Ctx → State → State) : belRow m c mine run s = .next (moverCheck m c (run x s)) := by
  obtain ⟨hx, hrun, rfl, hok⟩ := h
  rw [belRow, hx]
  dsimp only
  rw [hrun, hw, hmine, hok]
  exact onlyIf_true _ _

/-- What holds of a context that may run an instruction. -/
theorem canRun_spec {s : State} {m : Nat} {x : Ctx} (h : canRun s m x = true) : x.fault = none ∧ x.ended = false ∧ x.reqs = [] ∧ s.coreOn = true := by
  simp only [canRun, Bool.and_eq_true, Bool.not_eq_true', Option.isNone_iff_eq_none, List.isEmpty_iff] at h
  obtain ⟨⟨⟨⟨⟨hon, -⟩, -⟩, hfault⟩, hended⟩, hreqs⟩ := h
  exact ⟨hfault, hended, hreqs, hon⟩

/-- An instruction that leaves requests to issue. -/
theorem belRow_requests {s : State} {m c : Nat} {x : Ctx} {w : BitVec 128} (h : BelAt s m c x w) {i : BelInstr} (hw : belDecode w = i) {mine : BelInstr → Bool}
    (hmine : mine i = true) {run : Ctx → State → State} {l : List MReq} (hl : l ≠ []) (hrun : run x s = s.setCtx m c (x.begin x.pc (x.pc + 1) w l)) :
    belRow m c mine run s = .next (s.setCtx m c (x.begin x.pc (x.pc + 1) w l)) := by
  have hfault : (x.begin x.pc (x.pc + 1) w l).fault = none := (canRun_spec h.2.1).1
  have hmore : (x.begin x.pc (x.pc + 1) w l).reqs ≠ [] := hl
  rw [belRow_run h hw hmine, hrun, moverCheck_stays (State.ctx_setCtx_same _ _ _ _) hfault (Or.inr (Or.inl hmore))]

end Sys2Proof.Machine
end


section
/-! PROOFS. O32: mover instructions that move data and loop. -/
namespace Sys2Proof.Machine

/-! ## Spans cut at page boundaries -/

/-- A span cut at multiples of `m`: its parts cover it once, none passes a multiple, and the first starts where it does. -/
theorem cutAt_spec {m : Nat} (hm : 0 < m) : ∀ (fuel addr len : Nat), len < fuel →
    ((cutAt m fuel addr len).map Prod.snd).sum = len ∧ (∀ c ∈ cutAt m fuel addr len, c.1 % m + c.2 ≤ m) ∧
      (len ≠ 0 → ((cutAt m fuel addr len).head?.map Prod.fst) = some addr)
  | 0, _, _, h => by omega
  | fuel + 1, addr, len, h => by
    by_cases hlen : len = 0
    · subst hlen
      simp [cutAt]
    · have hmod := Nat.mod_lt addr hm
      have hcut : cutAt m (fuel + 1) addr len = (addr, min len (m - addr % m)) :: cutAt m fuel (addr + min len (m - addr % m)) (len - min len (m - addr % m)) :=
        if_neg hlen
      obtain ⟨hsum, hfit, -⟩ := cutAt_spec hm fuel (addr + min len (m - addr % m)) (len - min len (m - addr % m)) (by omega)
      rw [hcut]
      refine ⟨?_, fun c hc => ?_, fun _ => rfl⟩
      · rw [List.map_cons, List.sum_cons, hsum]
        omega
      · rcases List.mem_cons.mp hc with rfl | hc
        · dsimp only
          omega
        · exact hfit c hc

section
variable (m i elem dir addr bofs len : Nat) (xf : Bool) (tee : Option Nat) (n0 : Nat)

theorem spanReqs_len : ((spanReqs m i elem dir addr bofs len xf tee n0).map (·.len)).foldl (· + ·) 0 = len := by
  have hmap : (spanReqs m i elem dir addr bofs len xf tee n0).map (·.len) = (cutPages (len + 1) addr len).map Prod.snd := by
    rw [spanReqs, List.map_map]
    exact (List.map_map (f := Prod.fst) (g := Prod.snd)).symm.trans (by rw [List.zipIdx_map_fst])
  rw [hmap, ← List.sum_eq_foldl]
  exact (cutAt_spec (by decide) (len + 1) addr len (by omega)).1

theorem spanReqs_head (hlen : len ≠ 0) :
    ((spanReqs m i elem dir addr bofs len xf tee n0).head?.map fun q => (q.addr, q.bofs)) = some (addr, bofs) := by
  have hhead := (cutAt_spec (m := 4096) (by decide) (len + 1) addr len (by omega)).2.2 hlen
  rw [spanReqs, cutPages]
  cases hcut : cutAt 4096 (len + 1) addr len with
  | nil =>
    rw [hcut] at hhead
    cases hhead
  | cons c l =>
    rw [hcut] at hhead
    have hc : c.1 = addr := by simpa using hhead
    simp [List.zipIdx_cons, hc]

theorem spanReqs_mem {q : MReq} (hq : q ∈ spanReqs m i elem dir addr bofs len xf tee n0) :
    q.kind = (if dir = 0 then .rd else writeKind m) ∧ q.xf = xf ∧ q.addr % 4096 + q.len ≤ 4096 := by
  obtain ⟨⟨c, k⟩, hc, rfl⟩ := List.mem_map.mp hq
  have hmem : c ∈ cutAt 4096 (len + 1) addr len := by
    have h := List.mem_map_of_mem (f := Prod.fst) hc
    rwa [List.zipIdx_map_fst] at h
  exact ⟨rfl, rfl, (cutAt_spec (by decide) (len + 1) addr len (by omega)).2.1 c hmem⟩

theorem spanReqs_ne_nil (hlen : len ≠ 0) : spanReqs m i elem dir addr bofs len xf tee n0 ≠ [] := by
  intro h
  have hhead := spanReqs_head m i elem dir addr bofs len xf tee n0 hlen
  rw [h] at hhead
  cases hhead

end

theorem gatherReqs_ne_nil (s : State) (m i dir add e : Nat) (es : List Nat) (elem bofs n0 : Nat) : gatherReqs s m i dir add (e :: es) elem bofs n0 ≠ [] := by
  have h := spanReqs_ne_nil m i elem dir ((elemAt s m e).1 + add) bofs (elemAt s m e).2 false none n0 (Nat.succ_ne_zero _)
  intro hnil
  exact h (List.append_eq_nil_iff.mp hnil).1

/-! ## MOVE and GATHER -/

section
variable {s : State} {m c : Nat} {x : Ctx} {w : BitVec 128}

theorem exec_belMove (h : BelAt s m c x w) {dir areg xf tee bofs lenm1 tm addr : Nat} (hw : belDecode w = .move dir areg xf tee bofs lenm1 tm addr) :
    exec (.belMove m c) s = .next (s.setCtx m c (x.begin x.pc (x.pc + 1) w
      (spanReqs m x.pc 0 dir (addr + (aregAdd s m x areg).1) (bofs + (aregAdd s m x areg).2) (lenm1 + 1) (xf == 1) (if tee = 1 then some tm else none) x.nreq))) := by
  refine belRow_requests (mine := fun i => match i with | .move .. | .reserved => true | _ => false) (run := runMove m c) h hw rfl
    (spanReqs_ne_nil _ _ _ _ _ _ _ _ _ _ (Nat.succ_ne_zero _)) ?_
  rw [runMove, h.2.2.1, hw]

/-- The effect of a GATHER whose elements fit, and of one whose elements do not. -/
theorem runGather_fits (hw : belDecode (instrAt s m x x.pc) = .gather dir areg bofs e0 nm1)
    (hfit : bofs + (aregAdd s m x areg).2 + gatherLen s m ((List.range (nm1 + 1)).map (e0 + ·)) ≤ 8192)
    (hrange : gatherRange s m (aregAdd s m x areg).1 ((List.range (nm1 + 1)).map (e0 + ·)) = false) :
    runGather m c x s = s.setCtx m c (x.begin x.pc (x.pc + 1) (instrAt s m x x.pc)
      (gatherReqs s m x.pc dir (aregAdd s m x areg).1 ((List.range (nm1 + 1)).map (e0 + ·)) 0 (bofs + (aregAdd s m x areg).2) x.nreq)) := by
  unfold runGather
  dsimp only
  rw [hw]
  dsimp only
  rw [if_neg (by rw [hrange]; simp; omega)]

theorem runGather_faults (hw : belDecode (instrAt s m x x.pc) = .gather dir areg bofs e0 nm1)
    (hno : ¬ (bofs + (aregAdd s m x areg).2 + gatherLen s m ((List.range (nm1 + 1)).map (e0 + ·)) ≤ 8192 ∧
      gatherRange s m (aregAdd s m x areg).1 ((List.range (nm1 + 1)).map (e0 + ·)) = false)) : runGather m c x s = moverFault m c 6 x.pc none s := by
  unfold runGather
  dsimp only
  rw [hw]
  dsimp only
  refine if_pos ?_
  by_contra hcon
  obtain ⟨hle, hr⟩ := not_or.mp hcon
  exact hno ⟨by omega, by simpa using hr⟩

theorem exec_belGather_fits (h : BelAt s m c x w) (hw : belDecode w = .gather dir areg bofs e0 nm1)
    (hfit : bofs + (aregAdd s m x areg).2 + gatherLen s m ((List.range (nm1 + 1)).map (e0 + ·)) ≤ 8192)
    (hrange : gatherRange s m (aregAdd s m x areg).1 ((List.range (nm1 + 1)).map (e0 + ·)) = false) :
    exec (.belGather m c) s = .next (s.setCtx m c (x.begin x.pc (x.pc + 1) w
      (gatherReqs s m x.pc dir (aregAdd s m x areg).1 ((List.range (nm1 + 1)).map (e0 + ·)) 0 (bofs + (aregAdd s m x areg).2) x.nreq))) := by
  refine belRow_requests (mine := fun i => match i with | .gather .. => true | _ => false) (run := runGather m c) h hw rfl ?_ ?_
  · rw [List.range_succ_eq_map, List.map_cons]
    exact gatherReqs_ne_nil _ _ _ _ _ _ _ _ _ _
  · rw [← h.2.2.1] at hw ⊢
    exact runGather_fits hw hfit hrange

theorem exec_belGather_faults (h : BelAt s m c x w) (hw : belDecode w = .gather dir areg bofs e0 nm1)
    (hno : ¬ (bofs + (aregAdd s m x areg).2 + gatherLen s m ((List.range (nm1 + 1)).map (e0 + ·)) ≤ 8192 ∧
      gatherRange s m (aregAdd s m x areg).1 ((List.range (nm1 + 1)).map (e0 + ·)) = false)) :
    exec (.belGather m c) s = .next (moverCheck m c (moverFault m c 6 x.pc none s)) := by
  have hrow := belRow_run h hw (mine := fun i => match i with | .gather .. => true | _ => false) rfl (runGather m c)
  rw [← h.2.2.1] at hw
  rw [runGather_faults hw hno] at hrow
  exact hrow

/-! ## LOOP -/

/-- The registers of a counter that a LOOP pass moves (R476). -/
theorem addStride_lt (v stride width sw : Nat) : addStride v stride width sw < 2 ^ width := Nat.mod_lt _ (by positivity)

/-- A firmware mover's address and buffer registers hold what a pass gives them. -/
theorem advance_firmware (hm : isFirmware m = true) {n : Nat} (hn : n < 2) (y z z' : Ctx) (astride bstride : Nat) :
    aReg (advance s m c y n astride bstride) m z n = addStride (aReg s m z' n) astride 52 32 ∧
      bReg (advance s m c y n astride bstride) m z n = addStride (bReg s m z' n) bstride 13 13 := by
  have hword (a : Nat) (ha : a < 2 ^ 52) : (a >>> 32) % 2 ^ (19 + 1 - 0) * 2 ^ 32 + a % 2 ^ (31 + 1 - 0) = a := by
    rw [Nat.shiftRight_eq_div_pow]
    omega
  have ha : aReg s m y n = aReg s m z' n := by simp only [aReg, hm, if_true]
  have hb : bReg s m y n = bReg s m z' n := by simp only [bReg, hm, if_true]
  have hset (u : State) (f : Fld) (i : Nat) : (u.setCtx m c y).get f i = u.get f i := rfl
  have haw := hword _ (addStride_lt (aReg s m z' n) astride 52 32)
  have hbw := Nat.mod_eq_of_lt (addStride_lt (bReg s m z' n) bstride 13 13)
  unfold advance
  dsimp only
  rw [ha, hb, if_pos hm]
  generalize addStride (aReg s m z' n) astride 52 32 = a at haw
  generalize addStride (bReg s m z' n) bstride 13 13 = b at hbw
  obtain rfl | rfl : n = 0 ∨ n = 1 := by omega
  · rw [if_pos rfl, aReg, bReg, if_pos hm, if_pos hm, if_pos rfl, if_pos rfl]
    simp (disch := decide) only [hset, State.get_put_kind, State.get_put_same]
    exact ⟨haw, hbw⟩
  · rw [if_neg Nat.one_ne_zero, aReg, bReg, if_pos hm, if_pos hm, if_neg (by decide), if_neg (by decide)]
    simp (disch := decide) only [hset, State.get_put_kind, State.get_put_same]
    exact ⟨haw, hbw⟩

/-- A pass of a LOOP: the context that stands after it, and what the registers hold (R476). -/
theorem advance_spec (hc : c < 32) {n : Nat} (hn : n < 2) (y z : Ctx) (hz : aReg s m z n = aReg s m y n ∧ bReg s m z n = bReg s m y n) (astride bstride : Nat) :
    ∃ y', (advance s m c y n astride bstride).ctx m c = some y' ∧ y'.pc = y.pc ∧ y'.lc n = y.lc n ∧ y'.fault = y.fault ∧ y'.ended = y.ended ∧
      aReg (advance s m c y n astride bstride) m y' n = addStride (aReg s m z n) astride 52 32 ∧
      bReg (advance s m c y n astride bstride) m y' n = addStride (bReg s m z n) bstride 13 13 ∧
      ∀ k d, (k, d) ≠ (m, c) → d < 32 → (advance s m c y n astride bstride).ctx k d = s.ctx k d := by
  obtain ⟨hza, hzb⟩ := hz
  cases hm : isFirmware m with
  | true =>
    obtain ⟨ha, hb⟩ := advance_firmware hm hn y y z astride bstride
    have hset : ∃ u : State, advance s m c y n astride bstride = u.setCtx m c y ∧ u.mov = s.mov := by
      unfold advance
      dsimp only
      rw [if_pos hm]
      split
      · exact ⟨_, rfl, rfl⟩
      · exact ⟨_, rfl, rfl⟩
    obtain ⟨u, hadv, hu⟩ := hset
    rw [hadv] at ha hb ⊢
    exact ⟨y, State.ctx_setCtx_same _ _ _ _, rfl, rfl, rfl, rfl, ha, hb, fun k d hk hd => (State.ctx_setCtx_ne hc hd hk u y).trans (State.ctx_of_mov hu k d)⟩
  | false =>
    have hno : ¬ isFirmware m = true := by rw [hm]; decide
    have haReg (t : State) (x' : Ctx) : aReg t m x' n = if n = 0 then x'.a0 else x'.a1 := if_neg hno
    have hbReg (t : State) (x' : Ctx) : bReg t m x' n = if n = 0 then x'.b0 else x'.b1 := if_neg hno
    have hadv : advance s m c y n astride bstride = s.setCtx m c (if n = 0 then { y with a0 := addStride (aReg s m y n) astride 52 32, b0 := addStride (bReg s m y n) bstride 13 13 }
        else { y with a1 := addStride (aReg s m y n) astride 52 32, b1 := addStride (bReg s m y n) bstride 13 13 }) := if_neg hno
    rw [hadv, hza, hzb]
    generalize addStride (aReg s m y n) astride 52 32 = a
    generalize addStride (bReg s m y n) bstride 13 13 = b
    refine ⟨_, State.ctx_setCtx_same _ _ _ _, ?_, ?_, ?_, ?_, ?_, ?_, fun k d hk hd => State.ctx_setCtx_ne hc hd hk s _⟩
    · split <;> rfl
    · split <;> rfl
    · split <;> rfl
    · split <;> rfl
    · rw [haReg]
      split <;> rfl
    · rw [hbReg]
      split <;> rfl

theorem showLc_rest (m lc n : Nat) (s : State) : showLc m lc n s = { s with regs := (showLc m lc n s).regs } := by
  unfold showLc
  split <;> rfl

theorem showLc_reg {k : RegKind} (h : k ≠ .belLc) (m lc n i : Nat) (s : State) : (showLc m lc n s).reg k i = s.reg k i := by
  unfold showLc
  split
  · split
    · exact State.reg_put_kind _ h _ _ _
    · exact State.reg_put_kind _ h _ _ _
  · rfl

theorem aReg_congr {s t : State} (h : ∀ k, k ≠ .belLc → ∀ i, t.reg k i = s.reg k i) {x y : Ctx} (ha : x.a0 = y.a0 ∧ x.a1 = y.a1) (m n : Nat) :
    aReg t m x n = aReg s m y n := by
  obtain ⟨h0, h1⟩ := ha
  have hget (f : Fld) (hf : f.kind ≠ .belLc) (i : Nat) : t.get f i = s.get f i := congrArg f.get (h f.kind hf i)
  unfold aReg
  rw [hget _ (by decide), hget _ (by decide), hget _ (by decide), hget _ (by decide), h0, h1]

theorem bReg_congr {s t : State} (h : ∀ k, k ≠ .belLc → ∀ i, t.reg k i = s.reg k i) {x y : Ctx} (hb : x.b0 = y.b0 ∧ x.b1 = y.b1) (m n : Nat) :
    bReg t m x n = bReg s m y n := by
  obtain ⟨h0, h1⟩ := hb
  have hget (f : Fld) (hf : f.kind ≠ .belLc) (i : Nat) : t.get f i = s.get f i := congrArg f.get (h f.kind hf i)
  unfold bReg
  rw [hget _ (by decide), hget _ (by decide), h0, h1]

theorem Ctx.lc_setLc {n : Nat} (x : Ctx) (v : Option Nat) : (x.setLc n v).lc n = v := by
  unfold Ctx.setLc Ctx.lc
  split <;> rfl

theorem Ctx.setLc_rest (n : Nat) (x : Ctx) (v : Option Nat) : x.setLc n v = { x with lc0 := (x.setLc n v).lc0, lc1 := (x.setLc n v).lc1 } := by
  unfold Ctx.setLc
  split <;> rfl

/-- The context that a LOOP whose counter is above 0 passes on. -/
def loopCtx (x : Ctx) (lc tgt n : Nat) : Ctx := { (x.setLc lc (some (n - 1))) with cur := x.pc, pc := tgt }

theorem runLoop_passes {lc tgt bstride count astride : Nat} (hw : belDecode (instrAt s m x x.pc) = .loop lc tgt bstride count astride)
    (hn : (x.lc lc).getD count ≠ 0) :
    runLoop m c x s = advance (showLc m lc ((x.lc lc).getD count - 1) s) m c (loopCtx x lc tgt ((x.lc lc).getD count)) lc astride bstride := by
  unfold runLoop
  dsimp only
  rw [hw]
  exact if_neg hn

theorem runLoop_ends {lc tgt bstride count astride : Nat} (hw : belDecode (instrAt s m x x.pc) = .loop lc tgt bstride count astride)
    (hn : (x.lc lc).getD count = 0) :
    runLoop m c x s = (showLc m lc 0 s).setCtx m c ((x.setLc lc none).begin x.pc (x.pc + 1) (instrAt s m x x.pc) []) := by
  unfold runLoop
  dsimp only
  rw [hw]
  dsimp only
  rw [if_pos hn, hn]

theorem loop_counter_lt {w : BitVec 128} {lc tgt bstride count astride : Nat} (hw : belDecode w = .loop lc tgt bstride count astride) : lc < 2 := by
  unfold belDecode at hw
  split at hw
  case h_3 =>
    cases hw
    exact Nat.mod_lt _ (by decide)
  all_goals cases hw

theorem exec_belLoop (h : BelAt s m c x w) {lc tgt bstride count astride : Nat} (hw : belDecode w = .loop lc tgt bstride count astride) :
    exec (.belLoop m c) s = .next (moverCheck m c (runLoop m c x s)) :=
  belRow_run h hw (mine := fun i => match i with | .loop .. => true | _ => false) rfl (runLoop m c)

/-- A LOOP that makes a pass (R476). -/
theorem belLoop_passes (h : BelAt s m c x w) (hc : c < 32) {lc tgt bstride count astride : Nat} (hw : belDecode w = .loop lc tgt bstride count astride)
    (hn : (x.lc lc).getD count ≠ 0) :
    ∃ y, (moverCheck m c (runLoop m c x s)).ctx m c = some y ∧ y.pc = tgt ∧ y.lc lc = some ((x.lc lc).getD count - 1) ∧
      aReg (moverCheck m c (runLoop m c x s)) m y lc = addStride (aReg s m x lc) astride 52 32 ∧
      bReg (moverCheck m c (runLoop m c x s)) m y lc = addStride (bReg s m x lc) bstride 13 13 ∧
      ∀ k d, (k, d) ≠ (m, c) → d < 32 → (moverCheck m c (runLoop m c x s)).ctx k d = s.ctx k d := by
  obtain ⟨hfault, hended, -, -⟩ := canRun_spec h.2.1
  have hshow := fun (k : RegKind) (hk : k ≠ .belLc) i => showLc_reg hk m lc ((x.lc lc).getD count - 1) i s
  have hmov : (showLc m lc ((x.lc lc).getD count - 1) s).mov = s.mov := by rw [showLc_rest]
  have hrest : loopCtx x lc tgt ((x.lc lc).getD count) = { x with
      lc0 := (loopCtx x lc tgt ((x.lc lc).getD count)).lc0, lc1 := (loopCtx x lc tgt ((x.lc lc).getD count)).lc1, cur := x.pc, pc := tgt } := by
    rw [loopCtx, Ctx.setLc_rest]
  have hlc : (loopCtx x lc tgt ((x.lc lc).getD count)).lc lc = some ((x.lc lc).getD count - 1) := x.lc_setLc (some ((x.lc lc).getD count - 1))
  rw [runLoop_passes (h.2.2.1 ▸ hw) hn]
  generalize showLc m lc ((x.lc lc).getD count - 1) s = u at hshow hmov
  generalize loopCtx x lc tgt ((x.lc lc).getD count) = y0 at hrest hlc
  have hpc : y0.pc = tgt := by rw [hrest]
  have ha : aReg u m y0 lc = aReg s m x lc := aReg_congr hshow (by rw [hrest]; exact ⟨rfl, rfl⟩) m lc
  have hb : bReg u m y0 lc = bReg s m x lc := bReg_congr hshow (by rw [hrest]; exact ⟨rfl, rfl⟩) m lc
  obtain ⟨y, hy, hypc, hylc, hyf, hye, hya, hyb, hother⟩ := advance_spec (s := u) (m := m) hc (loop_counter_lt hw) y0 y0 ⟨rfl, rfl⟩ astride bstride
  have hstay : moverCheck m c (advance u m c y0 lc astride bstride) = advance u m c y0 lc astride bstride :=
    moverCheck_stays hy (by rw [hyf, hrest, hfault]) (Or.inl (by rw [hye, hrest, hended]))
  rw [hstay]
  exact ⟨y, hy, hypc.trans hpc, hylc.trans hlc, hya.trans (by rw [ha]), hyb.trans (by rw [hb]), fun k d hk hd => (hother k d hk hd).trans (State.ctx_of_mov hmov k d)⟩

end

/-- A LOOP at 0 goes on (R476). -/
theorem loopEnd_spec {s u : State} {m c lc : Nat} {w : BitVec 128} {x y : Ctx} {l0 l1 : Option Nat} (hshow : ∀ k, k ≠ .belLc → ∀ i, u.reg k i = s.reg k i)
    (hy : y = { x with cur := x.pc, pc := x.pc + 1, ended := lastOf w, reqs := [], lc0 := l0, lc1 := l1 }) (hlc : y.lc lc = none) (hfault : x.fault = none) :
    (x.waitSince = none → BelPast s (moverCheck m c (u.setCtx m c y)) m c x y) ∧
      (lastOf w = false → ∃ z, (moverCheck m c (u.setCtx m c y)).ctx m c = some z ∧ z.lc lc = none ∧
        aReg (moverCheck m c (u.setCtx m c y)) m z lc = aReg s m x lc) := by
  have hyf : y.fault = none := by rw [hy]; exact hfault
  refine ⟨fun hwait => ?_, fun hlast => ?_⟩
  · exact belPast_moverCheck (State.ctx_setCtx_same _ _ _ _) hyf (by rw [hy]) (by rw [hy]; exact hwait) (by rw [hy]) (hshow .belJobs (by decide) m)
  · rw [moverCheck_stays (State.ctx_setCtx_same u m c y) hyf (Or.inl (by rw [hy]; exact hlast))]
    exact ⟨y, State.ctx_setCtx_same _ _ _ _, hlc, aReg_congr hshow (by rw [hy]; exact ⟨rfl, rfl⟩) m lc⟩

/-- Settles O32: MOVE, GATHER and LOOP of a context that may run them. -/
theorem moverTransfers : Obligations.MoverTransfers := by
  intro s m c x w h
  refine ⟨fun dir areg xf tee bofs lenm1 tm addr hw => ?_, fun dir areg bofs e0 nm1 hw => ?_, fun lc tgt bstride count astride hw hc => ?_⟩
  · exact ⟨_, exec_belMove h hw, spanReqs_len _ _ _ _ _ _ _ _ _ _, spanReqs_head _ _ _ _ _ _ _ _ _ _ (Nat.succ_ne_zero _),
      fun q hq => spanReqs_mem _ _ _ _ _ _ _ _ _ _ hq⟩
  · by_cases hfits : bofs + (aregAdd s m x areg).2 + gatherLen s m ((List.range (nm1 + 1)).map (e0 + ·)) ≤ 8192 ∧
        gatherRange s m (aregAdd s m x areg).1 ((List.range (nm1 + 1)).map (e0 + ·)) = false
    · exact ⟨_, exec_belGather_fits h hw hfits.1 hfits.2, fun _ => rfl, fun hno => absurd hfits hno⟩
    · refine ⟨_, exec_belGather_faults h hw hfits, fun hyes => absurd hyes hfits, fun _ hpath => ?_⟩
      rw [moverFault_firmware h.1 (canRun_spec h.2.1).1 hpath, moverCheck_markFault]
      obtain ⟨hrest, hcode, -⟩ := markFault_spec m c x 6 x.pc none s
      exact ⟨hcode, by rw [hrest]⟩
  · dsimp only
    obtain ⟨hfault, -, -, -⟩ := canRun_spec h.2.1
    refine ⟨_, exec_belLoop h hw, fun hn => belLoop_passes h hc hw hn, fun hn => ?_⟩
    have hshow := fun (k : RegKind) (hk : k ≠ .belLc) i => showLc_reg hk m lc 0 i s
    have hend := runLoop_ends (m := m) (c := c) (h.2.2.1 ▸ hw) hn
    rw [h.2.2.1] at hend
    rw [hend]
    have hy : (x.setLc lc none).begin x.pc (x.pc + 1) w [] = { x with
        cur := x.pc, pc := x.pc + 1, ended := lastOf w, reqs := [], lc0 := (x.setLc lc none).lc0, lc1 := (x.setLc lc none).lc1 } := by
      rw [Ctx.setLc_rest]
      simp [Ctx.begin]
    have hlc : ((x.setLc lc none).begin x.pc (x.pc + 1) w []).lc lc = none := x.lc_setLc none
    exact loopEnd_spec hshow hy hlc hfault

end Sys2Proof.Machine
end


section
/-! PROOFS. O33: mover instructions that wait and signal. -/
namespace Sys2Proof.Machine

section
variable {s : State} {m c : Nat} {x : Ctx} {w : BitVec 128}

/-! ## WAIT -/

/-- The context as it waits, and as its wait has ended (R476). -/
def waiting (x : Ctx) (s : State) : Ctx := { x with cur := x.pc, waitSince := some (x.waitSince.getD s.now) }
def waited (x : Ctx) (w : BitVec 128) : Ctx := { x.begin x.pc (x.pc + 1) w [] with waitSince := none }

theorem runWait_holds {holds : Ctx → State → Bool} (h : holds (waiting x s) s = true) (done : State → State) :
    runWait m c holds done x s = (done s).setCtx m c (waited x (instrAt s m x x.pc)) := if_pos h

theorem runWait_waits {holds : Ctx → State → Bool} (h : holds (waiting x s) s = false) (done : State → State) :
    runWait m c holds done x s = s.setCtx m c (waiting x s) := if_neg (ne_true_of_eq_false h)

/-- A WAIT whose condition does not hold yet. -/
theorem belWait_held (h : BelAt s m c x w) {holds : Ctx → State → Bool} (hno : holds (waiting x s) s = false) (done : State → State) :
    moverCheck m c (runWait m c holds done x s) = s.setCtx m c (waiting x s) := by
  obtain ⟨hfault, hended, -, -⟩ := canRun_spec h.2.1
  rw [runWait_waits hno]
  exact moverCheck_stays (State.ctx_setCtx_same s m c (waiting x s)) hfault (Or.inl hended)

/-- A WAIT whose condition holds. -/
theorem belWait_past (h : BelAt s m c x w) {holds : Ctx → State → Bool} (hyes : holds (waiting x s) s = true) {done : State → State}
    (hjobs : (done s).reg .belJobs m = s.reg .belJobs m) : BelPast s (moverCheck m c (runWait m c holds done x s)) m c x (waited x w) := by
  rw [runWait_holds hyes, h.2.2.1]
  exact belPast_moverCheck (State.ctx_setCtx_same (done s) m c (waited x w)) (canRun_spec h.2.1).1 rfl rfl rfl hjobs

theorem exec_belWaitResp (h : BelAt s m c x w) {fl tmo : Nat} (hw : belDecode w = .wait 0 fl tmo) :
    exec (.belWaitResp m c) s = .next (moverCheck m c (runWait m c (fun x _ => x.open_.isEmpty) id x s)) :=
  belRow_run h hw (mine := fun i => match i with | .wait 0 _ _ => true | _ => false) rfl _

/-- The condition of a WAIT FLAG, and its effect (R476). -/
def flagUp (m : Nat) (x : Ctx) (s : State) : Bool := s.bit .belFlag (m - 48) (waitFlag s m x)
def flagTaken (m : Nat) (x : Ctx) (s : State) : State := s.clrBit .belFlag (m - 48) (waitFlag s m x)

theorem exec_belWaitFlag (h : BelAt s m c x w) {fl tmo : Nat} (hw : belDecode w = .wait 1 fl tmo) :
    exec (.belWaitFlag m c) s = .next (moverCheck m c (runWait m c (flagUp m) (flagTaken m x) x s)) :=
  belRow_run h hw (mine := fun i => match i with | .wait 1 _ _ => true | _ => false) rfl (fun x s => runWait m c (flagUp m) (flagTaken m x) x s)

/-- The condition of a WAIT TIME (R476). -/
def timePast (m : Nat) (x : Ctx) (s : State) : Bool := decide (x.waitSince.getD s.now + waitTmo s m x * 1000 ≤ s.now)

theorem exec_belWaitTime (h : BelAt s m c x w) {fl tmo : Nat} (hw : belDecode w = .wait 2 fl tmo) :
    exec (.belWaitTime m c) s = .next (moverCheck m c (runWait m c (timePast m) id x s)) :=
  belRow_run h hw (mine := fun i => match i with | .wait 2 _ _ => true | _ => false) rfl (runWait m c (timePast m) id)

theorem wait_fields {w : BitVec 128} {cond fl tmo : Nat} (hw : belDecode w = .wait cond fl tmo) : fl = ibits w 119 116 ∧ tmo = ibits w 115 96 := by
  unfold belDecode at hw
  split at hw
  case h_4 =>
    cases hw
    exact ⟨rfl, rfl⟩
  all_goals cases hw

theorem signal_fields {w : BitVec 128} {kind aop bofs src mv fl addr : Nat} (hw : belDecode w = .signal kind aop bofs src mv fl addr) :
    src = ibits w 103 93 ∧ mv = ibits w 92 87 ∧ fl = ibits w 86 83 := by
  unfold belDecode at hw
  split at hw
  case h_5 =>
    cases hw
    exact ⟨rfl, rfl, rfl⟩
  all_goals cases hw

theorem exec_belWaitTimeout (h : BelAt s m c x w) {cond fl tmo since : Nat} (hw : belDecode w = .wait cond fl tmo) (hcond : cond < 2) (htmo : tmo ≠ 0)
    (hsince : x.waitSince = some since) (hpast : since + tmo * 1000 ≤ s.now) (hresp : cond = 0 → x.open_ ≠ [])
    (hflag : cond = 1 → s.bit .belFlag (m - 48) fl = false) : exec (.belWaitTimeout m c) s = .next (moverFault m c 7 x.pc none s) := by
  obtain ⟨hx, hrun, hinstr, -⟩ := h
  have hno : (!(if cond = 0 then x.open_.isEmpty else s.bit .belFlag (m - 48) fl)) = true := by
    by_cases h0 : cond = 0
    · rw [if_pos h0]
      simpa using hresp h0
    · rw [if_neg h0, hflag (by omega)]
      rfl
  show execBelWaitTimeout m c s = _
  rw [execBelWaitTimeout, hx]
  dsimp only
  rw [hinstr, hw, hsince]
  dsimp only
  rw [hno, (canRun_spec hrun).2.2.2, decide_eq_true ⟨hcond, htmo, hpast⟩]
  exact onlyIf_true _ _

/-! ## SIGNAL -/

theorem exec_belSignal (h : BelAt s m c x w) {kind aop bofs src mv fl addr : Nat} (hw : belDecode w = .signal kind aop bofs src mv fl addr)
    {mine : BelInstr → Bool}
    (hmine : mine (.signal kind aop bofs src mv fl addr) = true) : belRow m c mine (runSignal m c) s = .next (s.setCtx m c (x.begin x.pc (x.pc + 1) w
      [⟨x.nreq, x.pc, 0, if kind = 2 then .at aop else if kind = 1 then .sw else writeKind m, addr, bofs, if kind = 2 then 16 else 8, false, none⟩])) := by
  refine belRow_requests h hw hmine (List.cons_ne_nil _ _) ?_
  rw [runSignal, h.2.2.1, hw]

/-- What a SIGNAL of a source or of a flag leaves. -/
theorem belSignal_past (h : BelAt s m c x w) {u : State} (hjobs : u.reg .belJobs m = s.reg .belJobs m) (hwait : x.waitSince = none) :
    BelPast s (moverCheck m c (u.setCtx m c (x.begin x.pc (x.pc + 1) w []))) m c x (x.begin x.pc (x.pc + 1) w []) :=
  belPast_moverCheck (State.ctx_setCtx_same u m c _) (canRun_spec h.2.1).1 rfl hwait rfl hjobs

theorem belSignal_stays (h : BelAt s m c x w) (hlast : lastOf w = false) (u : State) :
    moverCheck m c (u.setCtx m c (x.begin x.pc (x.pc + 1) w [])) = u.setCtx m c (x.begin x.pc (x.pc + 1) w []) := by
  refine moverCheck_stays (State.ctx_setCtx_same u m c _) (canRun_spec h.2.1).1 (Or.inl ?_)
  show (lastOf w && _) = false
  rw [hlast]
  rfl

theorem exec_belSignalSrc (h : BelAt s m c x w) {aop bofs src mv fl addr : Nat} (hw : belDecode w = .signal 3 aop bofs src mv fl addr) :
    exec (.belSignalSrc m c) s = .next (moverCheck m c ((s.edge (.shared src)).setCtx m c (x.begin x.pc (x.pc + 1) w []))) := by
  have hrow := belRow_run h hw (mine := fun i => match i with | .signal 3 .. => true | _ => false) rfl
    fun x s => (s.edge (.shared (ibits (instrAt s m x x.pc) 103 93))).setCtx m c (x.begin x.pc (x.pc + 1) (instrAt s m x x.pc) [])
  rw [h.2.2.1, ← (signal_fields hw).1] at hrow
  exact hrow

theorem exec_belSignalFlag (h : BelAt s m c x w) {aop bofs src mv fl addr : Nat} (hw : belDecode w = .signal 4 aop bofs src mv fl addr) :
    exec (.belSignalFlag m c) s = .next (moverCheck m c ((s.setBit .belFlag (mv - 48) fl).setCtx m c (x.begin x.pc (x.pc + 1) w []))) := by
  have hrow := belRow_run h hw (mine := fun i => match i with | .signal 4 .. => true | _ => false) rfl
    fun x s => (s.setBit .belFlag (ibits (instrAt s m x x.pc) 92 87 - 48) (ibits (instrAt s m x x.pc) 86 83)).setCtx m c
      (x.begin x.pc (x.pc + 1) (instrAt s m x x.pc) [])
  obtain ⟨-, hmv, hfl⟩ := signal_fields hw
  rw [h.2.2.1, ← hmv, ← hfl] at hrow
  exact hrow

theorem flagUp_waiting {fl tmo : Nat} (h : BelAt s m c x w) (hw : belDecode w = .wait 1 fl tmo) : flagUp m (waiting x s) s = s.bit .belFlag (m - 48) fl := by
  rw [(wait_fields hw).1, ← h.2.2.1]
  rfl

theorem timePast_waiting {fl tmo : Nat} (h : BelAt s m c x w) (hw : belDecode w = .wait 2 fl tmo) :
    timePast m (waiting x s) s = decide (x.waitSince.getD s.now + tmo * 1000 ≤ s.now) := by
  rw [(wait_fields hw).2, ← h.2.2.1]
  rfl

/-- A WAIT FLAG past its flag leaves it at 0. -/
theorem waitFlag_clears (h : BelAt s m c x w) {fl tmo : Nat} (hw : belDecode w = .wait 1 fl tmo) (hup : s.bit .belFlag (m - 48) fl = true)
    (hpath : x.job.path = .firmware) : (moverCheck m c (runWait m c (flagUp m) (flagTaken m x) x s)).bit .belFlag (m - 48) fl = false := by
  have hclear : (flagTaken m x s).bit .belFlag (m - 48) fl = false := by
    rw [(wait_fields hw).1, ← h.2.2.1, flagTaken, State.bit_clrBit]
    simp [waitFlag]
  rw [runWait_holds (done := flagTaken m x) ((flagUp_waiting h hw).trans hup)]
  obtain ⟨hfault, -, -, -⟩ := canRun_spec h.2.1
  generalize flagTaken m x s = u at hclear
  have hctx : (u.setCtx m c (waited x (instrAt s m x x.pc))).ctx m c = some (waited x (instrAt s m x x.pc)) := State.ctx_setCtx_same _ _ _ _
  by_cases hdone : (waited x (instrAt s m x x.pc)).ended = true ∧ x.open_ = []
  · rw [moverCheck_completes hctx hfault hdone.1 rfl hdone.2 rfl hpath]
    rw [State.bit, jobShown_reg (by decide), State.freeCtx_rest]
    exact hclear
  · have hmore : (waited x (instrAt s m x x.pc)).ended = false ∨ x.open_ ≠ [] := by
      by_contra hcon
      obtain ⟨he, ho⟩ := not_or.mp hcon
      exact hdone ⟨by simpa using he, not_not.mp ho⟩
    rw [moverCheck_stays hctx hfault (hmore.imp_right fun ho => Or.inr (Or.inl ho))]
    exact hclear

/-- A source that a SIGNAL raised stays raised. -/
theorem signalSrc_pending (h : BelAt s m c x w) (src : Nat)
    (hpath : lastOf w = false ∨ x.job.path = .firmware) :
    sourcePending (moverCheck m c ((s.edge (.shared src)).setCtx m c (x.begin x.pc (x.pc + 1) w []))) (.shared src) = true := by
  have hraised : sourcePending (s.edge (.shared src)) (.shared src) = true := sourcePending_edge_shared s src
  obtain ⟨hfault, -, -, -⟩ := canRun_spec h.2.1
  generalize s.edge (.shared src) = u at hraised
  have hctx : (u.setCtx m c (x.begin x.pc (x.pc + 1) w [])).ctx m c = some (x.begin x.pc (x.pc + 1) w []) := State.ctx_setCtx_same _ _ _ _
  by_cases hdone : (x.begin x.pc (x.pc + 1) w []).ended = true ∧ x.open_ = [] ∧ x.waitSince = none
  · rcases hpath with hlast | hpath
    · rw [belSignal_stays h hlast]
      exact hraised
    · obtain ⟨he, ho, hwait⟩ := hdone
      rw [moverCheck_completes hctx hfault he rfl ho hwait hpath]
      exact sourcePending_jobShown (s := (u.setCtx m c _).freeCtx m c) hraised m
  · have hmore : (x.begin x.pc (x.pc + 1) w []).ended = false ∨ x.open_ ≠ [] ∨ x.waitSince ≠ none := by
      by_contra hcon
      obtain ⟨he, hcon⟩ := not_or.mp hcon
      obtain ⟨ho, hwait⟩ := not_or.mp hcon
      exact hdone ⟨by simpa using he, not_not.mp ho, not_not.mp hwait⟩
    rw [moverCheck_stays hctx hfault (hmore.imp_right Or.inr)]
    exact hraised

end

/-- Settles O33: WAIT and SIGNAL of a context that may run them. -/
theorem moverWaitsAndSignals : Obligations.MoverWaitsAndSignals := by
  intro s m c x w h
  obtain ⟨hfault, hended, -, -⟩ := canRun_spec h.2.1
  dsimp only
  refine ⟨fun fl tmo hw => ⟨_, exec_belWaitResp h hw, fun ho => ?_, fun ho => ?_⟩, fun fl tmo hw => ⟨_, exec_belWaitFlag h hw, fun hf => ⟨?_, ?_⟩, fun hf => ?_⟩,
    fun fl tmo hw => ⟨_, exec_belWaitTime h hw, fun ht => ?_, fun ht => ?_⟩, fun cond fl tmo since hw hcond htmo hsince hpast hresp hflag => ?_,
    fun aop bofs src mv fl addr hw => ?_, fun aop bofs src mv fl addr hw => ?_, fun aop bofs src mv fl addr hw => ?_,
    fun aop bofs src mv fl addr hw => ⟨_, exec_belSignalSrc h hw, signalSrc_pending h src, fun hwait => ?_⟩,
    fun aop bofs src mv fl addr hw => ⟨_, exec_belSignalFlag h hw, fun hlast => ?_, fun hwait => ?_⟩⟩
  · exact belWait_past h (List.isEmpty_iff.mpr ho) rfl
  · exact belWait_held h (holds := fun x _ => x.open_.isEmpty) (List.isEmpty_eq_false_iff.mpr ho) id
  · exact belWait_past h ((flagUp_waiting h hw).trans hf) (otherRegs_clrBit s _ _ _ _ _ (by simp))
  · exact waitFlag_clears h hw hf
  · exact belWait_held h ((flagUp_waiting h hw).trans hf) _
  · exact belWait_past h ((timePast_waiting h hw).trans (decide_eq_true ht)) rfl
  · exact belWait_held h ((timePast_waiting h hw).trans (decide_eq_false (by omega))) id
  · refine ⟨_, exec_belWaitTimeout h hw hcond htmo hsince hpast hresp hflag, fun hpath => ?_⟩
    rw [moverFault_firmware h.1 hfault hpath]
    obtain ⟨hrest, hcode, hpc, hcount, -, hfree, -⟩ := markFault_spec m c x 7 x.pc none s
    exact ⟨hcode, hpc, hcount, by rw [hrest], hfree⟩
  · exact exec_belSignal h hw (mine := fun i => match i with | .signal 0 .. => true | _ => false) rfl
  · exact exec_belSignal h hw (mine := fun i => match i with | .signal 1 .. => true | _ => false) rfl
  · exact exec_belSignal h hw (mine := fun i => match i with | .signal 2 .. => true | _ => false) rfl
  · exact belSignal_past h (State.reg_edge (by decide) _ _ _) hwait
  · rw [belSignal_stays h hlast]
    have hfl : fl < 32 := by
      rw [(signal_fields hw).2.2]
      exact lt_trans (Nat.mod_lt _ (by decide)) (by decide : 2 ^ (86 + 1 - 83) < 32)
    have hset : (s.setBit .belFlag (mv - 48) fl).bit .belFlag (mv - 48) fl = true := by
      rw [State.bit_setBit _ _ _ _ _ _ _ hfl]
      simp
    have hother : OtherRegs s (s.setBit .belFlag (mv - 48) fl) .belFlag (mv - 48) := otherRegs_setReg s _ _ _
    exact ⟨hset, hother⟩
  · exact belSignal_past h (State.reg_setReg_kind _ (by decide) _ _ _) hwait

end Sys2Proof.Machine
end


section
/-! PROOFS. O34: mover jobs, request slots, faults, PAUSE, disable and GO. -/
namespace Sys2Proof.Machine

/-! ## Starts and slots -/

/-- The registers that show a job as it starts (R496). -/
def jobPlaced (m : Nat) (j : Job) (s : State) : State := ((s.put Fld.belCfgPrio j.prio m).put Fld.belCfgPort j.port m).put Fld.belCfgVc j.vc m

theorem jobPlaced_rest (m : Nat) (j : Job) (s : State) : jobPlaced m j s = { s with regs := (jobPlaced m j s).regs } := rfl

theorem otherRegs_jobPlaced (m : Nat) (j : Job) (s : State) : OtherRegs s (jobPlaced m j s) .belCfg m :=
  ((otherRegs_put s Fld.belCfgPrio j.prio m).trans (otherRegs_put _ Fld.belCfgPort j.port m)).trans (otherRegs_put _ Fld.belCfgVc j.vc m)

theorem jobPlaced_cfg (m : Nat) (j : Job) (s : State) : (jobPlaced m j s).get Fld.belCfgPrio m = j.prio % 8 ∧
    (jobPlaced m j s).get Fld.belCfgPort m = j.port % 16 ∧ (jobPlaced m j s).get Fld.belCfgVc m = j.vc % 4 := by
  simp (disch := decide) only [jobPlaced, State.get_put_field, State.get_put_same]
  exact ⟨rfl, rfl, rfl⟩

theorem exec_moverJobStart {s : State} {m c : Nat} {j : Job} (hon : s.coreOn = true) (hm : m < 64) (hen : s.flag Fld.belCtlEn m = true)
    (hfree : s.ctx m c = none) (hbest : bestJob (s.mov.jobs.filter (jobFits s m c)) = some j) :
    exec (.moverJobStart m c) s =
      .next ((jobPlaced m j { s with mov := { s.mov with jobs := s.mov.jobs.erase j } }).setCtx m c (startCtx j)) := by
  show execMoverJobStart m c s = _
  rw [execMoverJobStart, hbest]
  dsimp only
  rw [hon, hen, decide_eq_true hm, hfree]
  exact onlyIf_true _ _

theorem exec_moverRequestSlot {s : State} {m c port : Nat} {x : Ctx} {q : MReq} (hon : s.coreOn = true) (hc : c < 32) (hready : readyReq x = some q)
    (hbest : bestCtx (s.mov.ctxs.filter fun e => e.2.job.port == port && contends s e) = some (ctxKey m c, x)) :
    exec (.moverRequestSlot port) s = .next (issueReq m c x q s) := by
  have hm : ctxKey m c / 32 = m ∧ ctxKey m c % 32 = c := by
    unfold ctxKey
    omega
  show execMoverRequestSlot port s = _
  rw [execMoverRequestSlot, hbest]
  dsimp only
  rw [hready]
  dsimp only
  rw [hm.1, hm.2, hon]
  exact onlyIf_true _ _

theorem readyReq_fault {x : Ctx} {q : MReq} (h : readyReq x = some q) : x.fault = none := by
  unfold readyReq at h
  split at h
  · cases h
  · split at h
    · cases h
    next hf => simpa using hf

/-- The context after a request of it has gone out. -/
def reqTaken (x : Ctx) (q : MReq) : Ctx := { x with reqs := x.reqs.drop 1, open_ := if q.kind = .pw then x.open_ else x.open_ ++ [q] }

theorem issueReq_sent {s : State} {m c : Nat} {x : Ctx} {q : MReq} (hfault : x.fault = none) (hok : reqRefused s m q = false)
    (hmore : x.ended = false ∨ q.kind ≠ .pw) :
    issueReq m c x q s = (s.setCtx m c (reqTaken x q)).issue (fabReq x q) (.mover m c q.n) := by
  have hissue : issueReq m c x q s = moverCheck m c ((s.setCtx m c (reqTaken x q)).issue (fabReq x q) (.mover m c q.n)) :=
    if_neg (ne_true_of_eq_false hok)
  have hctx : ((s.setCtx m c (reqTaken x q)).issue (fabReq x q) (.mover m c q.n)).ctx m c = some (reqTaken x q) := by
    rw [State.issue, issueAll_rest]
    exact State.ctx_setCtx_same s m c (reqTaken x q)
  rw [hissue]
  refine moverCheck_stays hctx hfault (hmore.imp_right fun hk => Or.inr (Or.inl ?_))
  show (if q.kind = .pw then x.open_ else x.open_ ++ [q]) ≠ []
  rw [if_neg hk]
  exact List.append_ne_nil_of_right_ne_nil _ (List.cons_ne_nil _ _)

theorem issueReq_refused {s : State} {m c : Nat} {x : Ctx} {q : MReq} (hx : s.ctx m c = some x) (hfault : x.fault = none)
    (hno : reqRefused s m q = true) (hpath : x.job.path = .firmware) : issueReq m c x q s = markFault m c x 8 q.instr (some q) s :=
  (if_pos hno).trans (moverFault_firmware hx hfault hpath 8 q.instr (some q))

/-! ## An instruction that may not run -/

theorem exec_belMove_reserved {s : State} {m c code : Nat} {x : Ctx} (hx : s.ctx m c = some x) (hrun : canRun s m x = true)
    (hw : belDecode (instrAt s m x x.pc) = .reserved) (hcode : belCheck s m x x.pc = some code) :
    exec (.belMove m c) s = .next (moverFault m c code x.pc none s) := by
  show execBelMove m c s = _
  rw [execBelMove, belRow, hx]
  dsimp only
  rw [hrun, hw, hcode]
  exact onlyIf_true _ _

theorem belCheck_reserved {s : State} {m code : Nat} {x : Ctx} (hw : belDecode (instrAt s m x x.pc) = .reserved) (hcode : belCheck s m x x.pc = some code) :
    code = 5 := by
  unfold belCheck at hcode
  dsimp only at hcode
  rw [hw] at hcode
  exact (Option.some.inj hcode).symm

/-! ## A write of BEL_CTL with EN 1 -/

/-- A context as PAUSE stops its wait (R488). -/
def ctxPaused (m : Nat) (e : Nat × Ctx) : Nat × Ctx := if e.1 / 32 == m then (e.1, { e.2 with waitSince := none }) else e

/-- PAUSE as a write gives it. -/
def pauseApplied (m : Nat) (w : Word) (s : State) : State :=
  let s := s.putFlag Fld.belCtlPause (Fld.belCtlPause.get w = 1) m
  if s.flag Fld.belCtlPause m then { s with mov := { s.mov with ctxs := s.mov.ctxs.map (ctxPaused m) } } else s

/-- EN set, and a job that GO starts (R496). -/
def enableApplied (m : Nat) (w : Word) (s : State) : State :=
  let s := s.putFlag Fld.belCtlEn true m
  if Fld.belCtlGo.get w = 1 ∧ isFirmware m ∧ (moverState s m = 0 ∨ moverState s m = 4 ∨ moverState s m = 5) then s.setCtx m 0 (firmwareCtx s m (firmwareJob s m))
  else s

/-- EN set once the mover has drained (R489). -/
def enAwaited (m : Nat) (s : State) : State :=
  { s with mov := { s.mov with enPend := if s.mov.enPend.contains m then s.mov.enPend else m :: s.mov.enPend } }

section
variable {s : State} {r : Req} {m : Nat} {w : Word}

theorem belCtlWrite_ignored (h : ¬ (isFirmware m = true ∨ r.src = 0x10)) : belCtlWrite r m w s = s := by
  obtain ⟨hm, hsrc⟩ := not_or.mp h
  exact if_pos ⟨by simpa using hm, hsrc⟩

theorem belCtlWrite_enables (h : isFirmware m = true ∨ r.src = 0x10) (hen : Fld.belCtlEn.get w = 1) :
    belCtlWrite r m w s = if moverState (pauseApplied m w s) m = 6 then enAwaited m (pauseApplied m w s) else enableApplied m w (pauseApplied m w s) := by
  unfold belCtlWrite
  rw [if_neg (by rintro ⟨hm, hsrc⟩; rcases h with h | h <;> simp_all), if_neg (by omega)]
  rfl

variable (s m w)

theorem pauseApplied_rest : pauseApplied m w s = { s with regs := (pauseApplied m w s).regs, mov := (pauseApplied m w s).mov } := by
  unfold pauseApplied
  dsimp only
  split <;> rfl

theorem otherRegs_pauseApplied : OtherRegs s (pauseApplied m w s) .belCtl m := by
  unfold pauseApplied
  dsimp only
  split
  · exact otherRegs_putFlag s Fld.belCtlPause _ m
  · exact otherRegs_putFlag s Fld.belCtlPause _ m

theorem pauseApplied_regs : (pauseApplied m w s).regs = (s.putFlag Fld.belCtlPause (Fld.belCtlPause.get w = 1) m).regs := by
  unfold pauseApplied
  dsimp only
  split <;> rfl

theorem pauseApplied_pause : (pauseApplied m w s).flag Fld.belCtlPause m = (Fld.belCtlPause.get w == 1) := by
  rw [State.flag_of_regs (pauseApplied_regs s m w), State.flag_putFlag _ _ (by decide) (by decide)]
  rfl

theorem pauseApplied_en : (pauseApplied m w s).flag Fld.belCtlEn m = s.flag Fld.belCtlEn m := by
  rw [State.flag_of_regs (pauseApplied_regs s m w), State.flag_putFlag_field _ (by decide) (by decide)]

theorem pauseApplied_ctxs : (pauseApplied m w s).mov.ctxs = s.mov.ctxs ∨ (pauseApplied m w s).mov.ctxs = s.mov.ctxs.map (ctxPaused m) := by
  unfold pauseApplied
  dsimp only
  split
  · exact Or.inr rfl
  · exact Or.inl rfl

theorem pauseApplied_mov : (pauseApplied m w s).mov = { s.mov with ctxs := (pauseApplied m w s).mov.ctxs } := by
  unfold pauseApplied
  dsimp only
  split <;> rfl

end

/-- A context's wait as PAUSE leaves it. -/
def waitDropped (m k : Nat) (x : Ctx) : Ctx := if k / 32 == m then { x with waitSince := none } else x

theorem ctxPaused_eq (m : Nat) (e : Nat × Ctx) : ctxPaused m e = (e.1, waitDropped m e.1 e.2) := by
  unfold ctxPaused waitDropped
  split <;> rfl

theorem waitDropped_rest (m k : Nat) (x : Ctx) : waitDropped m k x = { x with waitSince := (waitDropped m k x).waitSince } := by
  unfold waitDropped
  split <;> rfl

theorem find_ctxPaused (m k : Nat) (t : Tab Ctx) : Tab.find k (t.map (ctxPaused m)) = (Tab.find k t).map (waitDropped m k) := by
  rw [show ctxPaused m = fun e => (e.1, waitDropped m e.1 e.2) from funext (ctxPaused_eq m)]
  exact Tab.find_map_value (waitDropped m) k t

theorem pauseApplied_waits {s : State} {m c : Nat} {w : Word} (hp : Fld.belCtlPause.get w = 1) (hc : c < 32) {x : Ctx}
    (hx : (pauseApplied m w s).ctx m c = some x) : x.waitSince = none := by
  have hflag : (s.putFlag Fld.belCtlPause (Fld.belCtlPause.get w = 1) m).flag Fld.belCtlPause m = true := by
    rw [State.flag_putFlag _ _ (by decide) (by decide)]
    exact decide_eq_true hp
  have hmap : (pauseApplied m w s).mov.ctxs = s.mov.ctxs.map (ctxPaused m) := by
    unfold pauseApplied
    dsimp only
    rw [if_pos hflag]
    rfl
  have hkey : ctxKey m c / 32 = m := by unfold ctxKey; omega
  rw [State.ctx, hmap, find_ctxPaused] at hx
  obtain ⟨y, -, rfl⟩ := Option.map_eq_some_iff.mp hx
  rw [waitDropped, hkey, if_pos (beq_self_eq_true m)]

/-- What a write of BEL_CTL may change. -/
structure CtlStep (s t : State) (m : Nat) : Prop where
  rest : t = { s with regs := t.regs, mov := t.mov }
  regs : OtherRegs s t .belCtl m

theorem CtlStep.fab {s t : State} {m : Nat} (h : CtlStep s t m) : t.fab = s.fab := by rw [h.rest]
theorem CtlStep.resps {s t : State} {m : Nat} (h : CtlStep s t m) : t.resps = s.resps := by rw [h.rest]

theorem enableApplied_step (m : Nat) (w : Word) (s : State) : CtlStep s (enableApplied m w s) m := by
  unfold enableApplied
  dsimp only
  split
  · exact ⟨rfl, otherRegs_putFlag s Fld.belCtlEn true m⟩
  · exact ⟨rfl, otherRegs_putFlag s Fld.belCtlEn true m⟩

theorem CtlStep.trans {s t u : State} {m : Nat} (h : CtlStep s t m) (g : CtlStep t u m) : CtlStep s u m :=
  ⟨by rw [g.rest, h.rest], h.regs.trans g.regs⟩

theorem pauseApplied_step (m : Nat) (w : Word) (s : State) : CtlStep s (pauseApplied m w s) m :=
  ⟨pauseApplied_rest s m w, otherRegs_pauseApplied s m w⟩

theorem belCtlWrite_step {r : Req} {m : Nat} {w : Word} (hen : Fld.belCtlEn.get w = 1) (s : State) : CtlStep s (belCtlWrite r m w s) m := by
  by_cases hmay : isFirmware m = true ∨ r.src = 0x10
  · rw [belCtlWrite_enables hmay hen]
    split
    · exact (pauseApplied_step m w s).trans ⟨rfl, fun _ _ _ => rfl⟩
    · exact (pauseApplied_step m w s).trans (enableApplied_step m w _)
  · rw [belCtlWrite_ignored hmay]
    exact ⟨rfl, fun _ _ _ => rfl⟩

theorem enableApplied_flags (m : Nat) (w : Word) (s : State) : (enableApplied m w s).flag Fld.belCtlEn m = true ∧
    (enableApplied m w s).flag Fld.belCtlPause m = s.flag Fld.belCtlPause m := by
  have hregs : (enableApplied m w s).regs = (s.putFlag Fld.belCtlEn true m).regs := by
    unfold enableApplied
    dsimp only
    split <;> rfl
  rw [State.flag_of_regs hregs, State.flag_of_regs hregs]
  exact ⟨State.flag_putFlag _ _ (by decide) (by decide) _ _, State.flag_putFlag_field _ (by decide) (by decide) _ _ _⟩

theorem firmwareCtx_wait (s : State) (m : Nat) (j : Job) : (firmwareCtx s m j).waitSince = none := by
  unfold firmwareCtx
  split <;> rfl

theorem enableApplied_waits {m c : Nat} {w : Word} {s : State} (hc : c < 32) (hs : ∀ x, s.ctx m c = some x → x.waitSince = none) {x : Ctx}
    (hx : (enableApplied m w s).ctx m c = some x) : x.waitSince = none := by
  unfold enableApplied at hx
  dsimp only at hx
  split at hx
  · by_cases h0 : c = 0
    · subst h0
      rw [State.ctx_setCtx_same] at hx
      cases hx
      exact firmwareCtx_wait _ _ _
    · rw [State.ctx_setCtx_ne (by decide) hc (fun h => h0 (congrArg Prod.snd h))] at hx
      exact hs x hx
  · exact hs x hx

/-- A write with EN 1 by whoever may make it: PAUSE is as written, EN stays, and a paused mover waits for nothing (R488). -/
theorem belCtlWrite_paused {r : Req} {m : Nat} {w : Word} (hmay : isFirmware m = true ∨ r.src = 0x10) (hen : Fld.belCtlEn.get w = 1) (s : State) :
    (belCtlWrite r m w s).flag Fld.belCtlPause m = (Fld.belCtlPause.get w == 1) ∧
      (s.flag Fld.belCtlEn m = true → (belCtlWrite r m w s).flag Fld.belCtlEn m = true) ∧
      (Fld.belCtlPause.get w = 1 → ∀ c x, c < 32 → (belCtlWrite r m w s).ctx m c = some x → x.waitSince = none) := by
  rw [belCtlWrite_enables hmay hen]
  split
  · exact ⟨pauseApplied_pause s m w, fun h => (pauseApplied_en s m w).trans h, fun hp c x hc hx => pauseApplied_waits (s := s) hp hc hx⟩
  · obtain ⟨hon, hpause⟩ := enableApplied_flags m w (pauseApplied m w s)
    exact ⟨hpause.trans (pauseApplied_pause s m w), fun _ => hon,
      fun hp c x hc hx => enableApplied_waits hc (fun y hy => pauseApplied_waits (s := s) hp hc hy) hx⟩

/-! ## GO -/

/-- The contexts of a mover whose job has not faulted. -/
def liveCtxs (s : State) (m : Nat) : List (Nat × Ctx) := (moverCtxs s m).filter fun e => e.2.fault.isNone

theorem liveCtxs_eq_nil {s : State} {m : Nat} : liveCtxs s m = [] ↔ ∀ e ∈ s.mov.ctxs, e.1 / 32 = m → e.2.fault.isNone = false := by
  simp only [liveCtxs, moverCtxs, List.filter_eq_nil_iff, List.mem_filter, beq_iff_eq, Bool.not_eq_true, and_imp]

theorem moverState_idle {s : State} {m : Nat} (hon : s.flag Fld.belCtlEn m = true ∨ moverOutst s m = 0) (hlive : liveCtxs s m = []) :
    moverState s m = s.get Fld.belStsState m := by
  have hno : ¬ (!s.flag Fld.belCtlEn m && moverOutst s m != 0) = true := by
    rcases hon with h | h <;> simp [h]
  have hempty : (liveCtxs s m).isEmpty = true := by rw [hlive]; rfl
  unfold moverState
  dsimp only
  rw [if_neg hno]
  exact if_pos hempty

/-- A mover at rest: no context of it runs, and its STATE is one that GO starts from (R496). -/
theorem moverState_rest {s : State} {m : Nat} (h : moverState s m ∈ [0, 4, 5]) :
    (s.flag Fld.belCtlEn m = true ∨ moverOutst s m = 0) ∧ liveCtxs s m = [] ∧ s.get Fld.belStsState m ∈ [0, 4, 5] := by
  have hcases : (s.flag Fld.belCtlEn m = true ∨ moverOutst s m = 0) ∧ liveCtxs s m = [] := by
    unfold moverState at h
    dsimp only at h
    split at h
    · simp at h
    next hon =>
      refine ⟨by simpa [or_iff_not_imp_left] using hon, ?_⟩
      split at h
      next hempty => exact List.isEmpty_iff.mp hempty
      next => split_ifs at h <;> simp at h
  rw [moverState_idle hcases.1 hcases.2] at h
  exact ⟨hcases.1, hcases.2, h⟩

theorem liveCtxs_pauseApplied {s : State} {m : Nat} (w : Word) (h : liveCtxs s m = []) : liveCtxs (pauseApplied m w s) m = [] := by
  rw [liveCtxs_eq_nil] at h ⊢
  rcases pauseApplied_ctxs s m w with hsame | hmap
  · rw [hsame]
    exact h
  · rw [hmap]
    intro e he hm
    obtain ⟨e0, he0, rfl⟩ := List.mem_map.mp he
    rw [ctxPaused_eq] at hm ⊢
    have hfault : (waitDropped m e0.1 e0.2).fault = e0.2.fault := by rw [waitDropped_rest]
    rw [hfault]
    exact h e0 he0 hm

theorem firmwareCtx_pauseApplied (s : State) (m : Nat) (w : Word) (b : Bool) (j : Job) :
    firmwareCtx ((pauseApplied m w s).putFlag Fld.belCtlEn b m) m j = firmwareCtx s m j := by
  have hstage : ((pauseApplied m w s).putFlag Fld.belCtlEn b m).mov.stage = s.mov.stage := by
    show (pauseApplied m w s).mov.stage = _
    rw [pauseApplied_mov]
  have hctx : ((pauseApplied m w s).putFlag Fld.belCtlEn b m).ctx m 0 = s.ctx m 0 ∨
      ((pauseApplied m w s).putFlag Fld.belCtlEn b m).ctx m 0 = (s.ctx m 0).map (waitDropped m (ctxKey m 0)) := by
    rcases pauseApplied_ctxs s m w with hsame | hmap
    · exact Or.inl (congrArg (Tab.find (ctxKey m 0)) hsame)
    · exact Or.inr ((congrArg (Tab.find (ctxKey m 0)) hmap).trans (find_ctxPaused m (ctxKey m 0) s.mov.ctxs))
  unfold firmwareCtx
  rw [hstage]
  rcases hctx with h | h
  · rw [h]
  · rw [h]
    cases hx : s.ctx m 0 with
    | none => rfl
    | some x =>
      dsimp only [Option.map_some]
      rw [waitDropped_rest]

/-- A GO of a firmware mover at rest (R485, R496). -/
theorem belCtlWrite_go {r : Req} {m : Nat} {w : Word} {s : State} (hm : isFirmware m = true) (hen : Fld.belCtlEn.get w = 1) (hgo : Fld.belCtlGo.get w = 1)
    (hrest : moverState s m ∈ [0, 4, 5]) :
    (belCtlWrite r m w s).ctx m 0 = some (firmwareCtx s m (firmwareJob s m)) ∧ (belCtlWrite r m w s).flag Fld.belCtlEn m = true := by
  obtain ⟨hon, hlive, hsts⟩ := moverState_rest hrest
  have hctx := firmwareCtx_pauseApplied s m w true (firmwareJob s m)
  have hlive' := liveCtxs_pauseApplied w hlive
  have hen' := pauseApplied_en s m w
  have hstep := pauseApplied_step m w s
  have hmore := belCtlWrite_enables (r := r) (s := s) (Or.inl hm) hen
  generalize pauseApplied m w s = u at hctx hlive' hen' hstep hmore
  have hreg {f : Fld} (hf : f.kind ≠ .belCtl) (i : Nat) : u.get f i = s.get f i := congrArg f.get (hstep.regs f.kind i fun e => hf (congrArg Prod.fst e))
  have houtst : moverOutst u m = moverOutst s m := by rw [moverOutst, hstep.fab, moverOutst]
  have hstate : moverState u m = s.get Fld.belStsState m := (moverState_idle (by rw [hen', houtst]; exact hon) hlive').trans (hreg (by decide) m)
  have hstate' : moverState (u.putFlag Fld.belCtlEn true m) m = s.get Fld.belStsState m := by
    have hput : (u.putFlag Fld.belCtlEn true m).get Fld.belStsState m = s.get Fld.belStsState m :=
      (State.get_putFlag_kind _ (by decide) _ _ _).trans (hreg (by decide) m)
    exact (moverState_idle (Or.inl (State.flag_putFlag _ _ (by decide) (by decide) _ _)) hlive').trans hput
  have hjob : firmwareJob (u.putFlag Fld.belCtlEn true m) m = firmwareJob s m := by
    have hcfg {f : Fld} (hf : f.kind ≠ .belCtl) : (u.putFlag Fld.belCtlEn true m).get f m = s.get f m :=
      (State.get_putFlag_kind _ hf _ _ _).trans (hreg hf m)
    have htag : (u.putFlag Fld.belCtlEn true m).rtag = s.rtag := by
      show u.rtag = _
      rw [hstep.rest]
    rw [firmwareJob, hcfg (by decide), hcfg (by decide), hcfg (by decide), htag, firmwareJob]
  have hgoes : enableApplied m w u = (u.putFlag Fld.belCtlEn true m).setCtx m 0 (firmwareCtx s m (firmwareJob s m)) := by
    unfold enableApplied
    dsimp only
    rw [hstate', hjob, hctx, if_pos ⟨hgo, hm, by simpa using hsts⟩]
  have hsix : s.get Fld.belStsState m ≠ 6 := by
    intro h6
    rw [h6] at hsts
    simp at hsts
  rw [hmore, hstate, if_neg hsix, hgoes]
  exact ⟨State.ctx_setCtx_same _ _ _ _, State.flag_putFlag _ Fld.belCtlEn (by decide) (by decide) true m⟩

/-! ## A write of BEL_CTL with EN 0 -/

/-- The staging buffer of a firmware mover, and its loop counters, as a disable leaves them: `len` bytes of free values (R489). -/
def stageBlurred (m nreq len : Nat) (t : State) : State :=
  let v := t.fresh
  let b := (v.2.setReg .belLc (m - 48) (v.1.setWidth 32)).blurBuf [] 0 len
  { b.2 with mov := { b.2.mov with stage := Tab.put m { buf := b.1, nreq := nreq } b.2.mov.stage } }

theorem stageBlurred_rest (m nreq len : Nat) (t : State) : stageBlurred m nreq len t = { t with
    regs := (stageBlurred m nreq len t).regs, freeCtr := t.freeCtr + 1 + len, mov := { t.mov with stage := (stageBlurred m nreq len t).mov.stage } } := rfl

theorem stageBlurred_reg {k : RegKind} (hlc : k ≠ .belLc) (m nreq len i : Nat) (t : State) : (stageBlurred m nreq len t).reg k i = t.reg k i :=
  State.reg_setReg_kind t.fresh.2 hlc _ _ _

/-- ELEM_DONE as a disable leaves it. -/
def doneBlurred (m : Nat) (s : State) : State := s.fresh.2.put Fld.belStsElemDone s.fresh.1.toNat m

theorem blurMover_eq (m : Nat) (s : State) :
    blurMover m s = doneBlurred m s ∨ ∃ nreq, blurMover m s = stageBlurred m nreq 8192 (doneBlurred m s) := by
  unfold blurMover
  dsimp only
  split
  · exact Or.inr ⟨_, rfl⟩
  · exact Or.inl rfl

theorem blurMover_rest (m : Nat) (s : State) : blurMover m s = { s with
    regs := (blurMover m s).regs, freeCtr := (blurMover m s).freeCtr, mov := { s.mov with stage := (blurMover m s).mov.stage } } := by
  rcases blurMover_eq m s with h | ⟨nreq, h⟩
  · rw [h]
    rfl
  · rw [h, stageBlurred_rest]
    rfl

theorem blurMover_freeCtr (m : Nat) (s : State) : s.freeCtr < (blurMover m s).freeCtr := by
  have hdone : (doneBlurred m s).freeCtr = s.freeCtr + 1 := rfl
  rcases blurMover_eq m s with h | ⟨nreq, h⟩
  · rw [h, hdone]
    exact Nat.lt_succ_self _
  · have hstage : (stageBlurred m nreq 8192 (doneBlurred m s)).freeCtr = (doneBlurred m s).freeCtr + 1 + 8192 := by rw [stageBlurred_rest]
    rw [h, hstage, hdone]
    omega

theorem blurMover_reg {k : RegKind} (hsts : k ≠ .belSts) (hlc : k ≠ .belLc) (m i : Nat) (s : State) : (blurMover m s).reg k i = s.reg k i := by
  have hdone : (doneBlurred m s).reg k i = s.reg k i := State.reg_put_kind s.fresh.2 hsts _ _ _
  rcases blurMover_eq m s with h | ⟨nreq, h⟩
  · rw [h, hdone]
  · rw [h, stageBlurred_reg hlc, hdone]

/-- The registers that the jobs dropped from a mover may change. -/
def dropKinds : List RegKind := faultKinds ++ [.sicPpendLo, .sicPpendHi, .sicSpend]

/-- Jobs dropped from a mover whose jobs are the firmware's: registers, the log and free values change, and a code 9 stays (R489, R492). -/
structure DropStep (s t : State) (m : Nat) : Prop where
  rest : t = { s with regs := t.regs, log := t.log, freeCtr := t.freeCtr }
  free : s.freeCtr ≤ t.freeCtr
  regs : ∀ k i, k ∉ dropKinds → t.reg k i = s.reg k i
  code : s.get Fld.belStsCode m = 9 → t.get Fld.belStsCode m = 9

theorem DropStep.refl (s : State) (m : Nat) : DropStep s s m := ⟨rfl, le_rfl, fun _ _ _ => rfl, id⟩

theorem DropStep.trans {s t u : State} {m : Nat} (h : DropStep s t m) (g : DropStep t u m) : DropStep s u m :=
  ⟨by rw [g.rest, h.rest], h.free.trans g.free, fun k i hk => (g.regs k i hk).trans (h.regs k i hk), fun hc => g.code (h.code hc)⟩

theorem faultRegs_freeCtr (m code instr done : Nat) (s : State) : (faultRegs m code instr done none s).freeCtr = s.freeCtr + 1 := by
  rw [faultRegs_eq, State.logPacked_freeCtr, faultPut_rest]
  rfl

theorem faultSource_freeCtr (m : Nat) (s : State) : (faultSource m s).freeCtr = s.freeCtr := by
  unfold faultSource
  split <;> rfl

/-- The fault of one job that is dropped. -/
def dropShown (m : Nat) (x : Ctx) (s : State) : State := faultSource m (faultRegs m 9 x.cur (s.get Fld.belStsElemDone m) none s)

theorem dropShown_code (m : Nat) (x : Ctx) (s : State) : (dropShown m x s).get Fld.belStsCode m = 9 := by
  rw [dropShown, faultSource_get _ _ (by decide), (faultRegs_spec _ _ _ _ _ _).1]

theorem dropShown_step (m : Nat) (x : Ctx) (s : State) : DropStep s (dropShown m x s) m := by
  have htrans {u v : State} (h : u = { s with regs := u.regs, log := u.log, freeCtr := u.freeCtr }) (g : v = { u with regs := v.regs }) :
      v = { s with regs := v.regs, log := v.log, freeCtr := v.freeCtr } := by rw [g, h]
  have hsrc := faultSource_rest m (faultRegs m 9 x.cur (s.get Fld.belStsElemDone m) none s)
  refine ⟨htrans (faultRegs_rest m 9 x.cur (s.get Fld.belStsElemDone m) none s) hsrc, ?_, fun k i hk => ?_, fun _ => dropShown_code m x s⟩
  · have hfree : (dropShown m x s).freeCtr = s.freeCtr + 1 := by
      rw [dropShown, faultSource_freeCtr, faultRegs_freeCtr]
    omega
  · obtain ⟨hfault, hsic⟩ := not_or.mp (mt List.mem_append.mpr hk)
    have hreg := faultRegs_reg m 9 x.cur (s.get Fld.belStsElemDone m) none s hfault i
    rw [dropShown, faultSource]
    split
    · exact (State.reg_edge hsic _ _ _).trans hreg
    · exact hreg

theorem dropJob_firmware {x : Ctx} (hpath : x.job.path = .firmware) (m : Nat) (s : State) : dropJob m x s = if x.fault.isSome then s else dropShown m x s := by
  have hdone (u : State) : jobFault x.job 9 u = u := by
    rw [jobFault, hpath]
    split <;> rfl
  rw [dropJob, hdone]
  rfl

theorem dropJob_step {x : Ctx} (hpath : x.job.path = .firmware) (m : Nat) (s : State) : DropStep s (dropJob m x s) m := by
  rw [dropJob_firmware hpath]
  split
  · exact .refl s m
  · exact dropShown_step m x s

theorem dropAll_step {l : List (Nat × Ctx)} (hpath : ∀ e ∈ l, e.2.job.path = .firmware) (m : Nat) (s : State) :
    DropStep s (l.foldl (fun s e => dropJob m e.2 s) s) m := by
  induction l generalizing s with
  | nil => exact .refl s m
  | cons e l ih =>
    exact (dropJob_step (hpath e List.mem_cons_self) m s).trans (ih (fun e he => hpath e (List.mem_cons_of_mem _ he)) _)

theorem dropAll_code {l : List (Nat × Ctx)} (hpath : ∀ e ∈ l, e.2.job.path = .firmware) (hlive : ∃ e ∈ l, e.2.fault = none) (m : Nat) (s : State) :
    (l.foldl (fun s e => dropJob m e.2 s) s).get Fld.belStsCode m = 9 := by
  induction l generalizing s with
  | nil =>
    obtain ⟨e, he, -⟩ := hlive
    cases he
  | cons e l ih =>
    have hpath' : ∀ e ∈ l, e.2.job.path = .firmware := fun e he => hpath e (List.mem_cons_of_mem _ he)
    by_cases hrest : ∃ e ∈ l, e.2.fault = none
    · exact ih hpath' hrest _
    · have hfault : e.2.fault = none := by
        obtain ⟨e', he', hf⟩ := hlive
        rcases List.mem_cons.mp he' with rfl | he'
        · exact hf
        · exact absurd ⟨e', he', hf⟩ hrest
      refine (dropAll_step hpath' m (dropJob m e.2 s)).code ?_
      rw [dropJob_firmware (hpath e List.mem_cons_self), hfault]
      exact dropShown_code m e.2 s

/-- The state as a mover's contexts go, before their jobs fault. -/
def ctxsDropped (m : Nat) (s : State) : State :=
  { blurMover m s with mov := { (blurMover m s).mov with ctxs := (blurMover m s).mov.ctxs.filter fun e => e.1 / 32 != m } }.put Fld.belStsState 0 m

theorem dropJobs_eq (m : Nat) (s : State) : dropJobs m s = (moverCtxs s m).foldl (fun s e => dropJob m e.2 s) (ctxsDropped m s) := rfl

theorem ctxsDropped_rest (m : Nat) (s : State) : ctxsDropped m s =
    { s with regs := (ctxsDropped m s).regs, freeCtr := (ctxsDropped m s).freeCtr, mov := (ctxsDropped m s).mov } := by
  have h {u : State} (hu : u = { s with regs := u.regs, freeCtr := u.freeCtr, mov := { s.mov with stage := u.mov.stage } }) (l : Tab Ctx) :
      ({ u with mov := { u.mov with ctxs := l } }.put Fld.belStsState 0 m) = { s with
        regs := ({ u with mov := { u.mov with ctxs := l } }.put Fld.belStsState 0 m).regs
        freeCtr := ({ u with mov := { u.mov with ctxs := l } }.put Fld.belStsState 0 m).freeCtr
        mov := ({ u with mov := { u.mov with ctxs := l } }.put Fld.belStsState 0 m).mov } := by
    rw [hu]
    rfl
  exact h (blurMover_rest m s) _

theorem ctxsDropped_reg {k : RegKind} (hsts : k ≠ .belSts) (hlc : k ≠ .belLc) (m i : Nat) (s : State) : (ctxsDropped m s).reg k i = s.reg k i :=
  (State.reg_put_kind _ hsts _ _ _).trans (blurMover_reg hsts hlc m i s)

theorem moverCtxs_ctxsDropped (m : Nat) (s : State) : moverCtxs (ctxsDropped m s) m = [] := by
  refine List.filter_eq_nil_iff.mpr fun e he h => ?_
  have hne := (List.mem_filter.mp he).2
  rw [bne, beq_iff_eq.mp h] at hne
  simp at hne

/-- A write of EN 0 by whoever may make it, before the jobs of an enabled mover go. -/
def disableNoted (m : Nat) (w : Word) (s : State) : State :=
  { s.putFlag Fld.belCtlPause (Fld.belCtlPause.get w = 1) m with mov := { s.mov with enPend := s.mov.enPend.erase m } }

theorem belCtlWrite_disables {r : Req} {m : Nat} {w : Word} (h : isFirmware m = true ∨ r.src = 0x10) (hen : Fld.belCtlEn.get w = 0) (s : State) :
    belCtlWrite r m w s = if s.flag Fld.belCtlEn m then dropJobs m ((disableNoted m w s).putFlag Fld.belCtlEn false m) else disableNoted m w s := by
  have hflag : (disableNoted m w s).flag Fld.belCtlEn m = s.flag Fld.belCtlEn m := State.flag_putFlag_field s (by decide) (by decide) _ m m
  rw [← hflag]
  unfold belCtlWrite
  rw [if_neg (by rintro ⟨hm, hsrc⟩; rcases h with h | h <;> simp_all), if_pos hen]
  rfl

theorem disableNoted_rest (m : Nat) (w : Word) (s : State) :
    disableNoted m w s = { s with regs := (disableNoted m w s).regs, mov := { s.mov with enPend := s.mov.enPend.erase m } } := rfl

/-- What the write of EN 0 to an enabled mover leaves, where its jobs are the firmware's (R489, R490). -/
theorem dropJobs_spec {m : Nat} {s u : State} (hu : u = { s with regs := u.regs, mov := u.mov }) (hctxs : u.mov.ctxs = s.mov.ctxs)
    (hen : u.flag Fld.belCtlEn m = false) (hpath : ∀ e ∈ moverCtxs s m, e.2.job.path = .firmware) :
    (dropJobs m u).flag Fld.belCtlEn m = false ∧ (dropJobs m u).fab = s.fab ∧ (dropJobs m u).resps = s.resps ∧ moverCtxs (dropJobs m u) m = [] ∧
      s.freeCtr < (dropJobs m u).freeCtr ∧ ((∃ e ∈ moverCtxs s m, e.2.fault = none) → (dropJobs m u).get Fld.belStsCode m = 9) := by
  have hsame : moverCtxs u m = moverCtxs s m := by rw [moverCtxs, hctxs, moverCtxs]
  have hrest := ctxsDropped_rest m u
  have hgone := moverCtxs_ctxsDropped m u
  have hfree : u.freeCtr < (ctxsDropped m u).freeCtr := blurMover_freeCtr m u
  have hflag : (ctxsDropped m u).flag Fld.belCtlEn m = false := by
    rw [State.flag, State.get, ctxsDropped_reg (by decide) (by decide)]
    exact hen
  have hstep := dropAll_step hpath m (ctxsDropped m u)
  have hcode := fun h => dropAll_code hpath h m (ctxsDropped m u)
  rw [dropJobs_eq, hsame]
  generalize (moverCtxs s m).foldl (fun s e => dropJob m e.2 s) (ctxsDropped m u) = t at hstep hcode
  generalize ctxsDropped m u = v at hrest hgone hfree hflag hstep
  refine ⟨?_, by rw [hstep.rest, hrest, hu], by rw [hstep.rest, hrest, hu], ?_, ?_, hcode⟩
  · rw [State.flag, State.get, hstep.regs _ _ (by decide)]
    exact hflag
  · rw [hstep.rest]
    exact hgone
  · have h1 := hstep.free
    have h2 : u.freeCtr = s.freeCtr := by rw [hu]
    omega

/-- Settles O34: a job's start, a port's slot, a fault, and the writes of BEL_CTL. -/
theorem moverJobs : Obligations.MoverJobs := by
  refine ⟨fun s m c j hon hm hen hfree hbest => ?_, fun s m c port x q hon hc hx hready hbest => ?_, fun s m c x code hx hrun hw hcode => ?_,
    fun s r m w hm hw hs hen => ?_, fun s r m w hm hw hs hen => ?_, fun s r m w hw hs hen hgo hfw hrest => ?_⟩
  · obtain ⟨hprio, hport, hvc⟩ := jobPlaced_cfg m j { s with mov := { s.mov with jobs := s.mov.jobs.erase j } }
    exact ⟨_, exec_moverJobStart hon hm hen hfree hbest, State.ctx_setCtx_same _ _ _ _, rfl, hprio, hport, hvc,
      otherRegs_jobPlaced m j { s with mov := { s.mov with jobs := s.mov.jobs.erase j } }⟩
  · have hfault := readyReq_fault hready
    refine ⟨_, exec_moverRequestSlot hon hc hready hbest, fun hok hmore => ?_, fun hno hpath => ?_⟩
    · rw [issueReq_sent hfault hok hmore]
      refine ⟨?_, State.issueAll_fab _ _, State.issueAll_regs _ _⟩
      rw [State.issue, issueAll_rest]
      exact State.ctx_setCtx_same s m c (reqTaken x q)
    · rw [issueReq_refused hx hfault hno hpath]
      obtain ⟨hrest, hcode, -, -, hsts, -⟩ := markFault_spec m c x 8 q.instr (some q) s
      exact ⟨hcode, (hsts (Bool.and_eq_true_iff.mp hno).1).1, by rw [hrest]⟩
  · refine ⟨_, exec_belMove_reserved hx hrun hw hcode, fun hfw hpath => ?_⟩
    rw [moverFault_firmware hx (canRun_spec hrun).1 hpath, belCheck_reserved hw hcode]
    obtain ⟨-, hcode, -, hcount, hsts, hfree, -⟩ := markFault_spec m c x 5 x.pc none s
    exact ⟨hfree, hcode, (hsts hfw).1, hcount, (hsts hfw).2⟩
  · have hrow : exec (.belPauseWrite r m w) s = .next ((belCtlWrite r m w s).respondWrite r .ok) := by
      show execBelPauseWrite r m w s = _
      rw [execBelPauseWrite, decide_eq_true hm, onlyIf_true]
      exact congrArg Host.Outcome.next (regWrite_pass hw hs _)
    have hstep := belCtlWrite_step (r := r) (m := m) hen s
    refine ⟨_, hrow, respondWrite_resps_of_eq hstep.resps r, hstep.regs.respondWrite r _, ?_, fun hmay => ?_⟩
    · rw [State.respondWrite_eq]
      exact hstep.fab
    · rw [State.flag_respondWrite, State.flag_respondWrite, State.respondWrite_eq]
      exact belCtlWrite_paused hmay hen s
  · have hrow : exec (.belDisable r m w) s = .next ((belCtlWrite r m w s).respondWrite r .ok) := by
      show execBelDisable r m w s = _
      rw [execBelDisable, decide_eq_true ⟨hm, hen⟩, onlyIf_true]
      exact congrArg Host.Outcome.next (regWrite_pass hw hs _)
    refine ⟨_, hrow, fun hmay hpath => ?_⟩
    rw [State.flag_respondWrite, State.get_respondWrite, belCtlWrite_disables hmay hen]
    cases hon : s.flag Fld.belCtlEn m with
    | false =>
      rw [if_neg (by decide)]
      refine ⟨(State.flag_putFlag_field s (by decide) (by decide) _ m m).trans hon, ?_, respondWrite_resps_of_eq rfl r, fun h => Bool.noConfusion h⟩
      rw [State.respondWrite_eq]
      rfl
    | true =>
      rw [if_pos rfl]
      obtain ⟨hoff, hfab, hresps, hgone, hfree, hcode⟩ := dropJobs_spec (m := m) (s := s) (u := (disableNoted m w s).putFlag Fld.belCtlEn false m) rfl rfl
        (State.flag_putFlag _ Fld.belCtlEn (by decide) (by decide) false m) hpath
      generalize dropJobs m ((disableNoted m w s).putFlag Fld.belCtlEn false m) = t at hoff hfab hresps hgone hfree hcode
      refine ⟨hoff, ?_, respondWrite_resps_of_eq hresps r, fun _ => ⟨?_, ?_, hcode⟩⟩
      · rw [State.respondWrite_eq]
        exact hfab
      · rw [State.respondWrite_eq]
        exact hgone
      · rw [State.respondWrite_eq]
        exact hfree
  · have hm : m < 64 := by
      have hrange := of_decide_eq_true hfw
      omega
    have hrow : exec (.belGo r m w) s = .next ((belCtlWrite r m w s).respondWrite r .ok) := by
      show execBelGo r m w s = _
      rw [execBelGo, decide_eq_true ⟨hm, hgo⟩, onlyIf_true]
      exact congrArg Host.Outcome.next (regWrite_pass hw hs _)
    have hstep := belCtlWrite_step (r := r) (m := m) hen s
    obtain ⟨hctx, hon⟩ := belCtlWrite_go (r := r) (s := s) hfw hen hgo hrest
    refine ⟨_, hrow, ?_, ?_, hstep.regs.respondWrite r _, respondWrite_resps_of_eq hstep.resps r⟩
    · rw [State.respondWrite_eq]
      exact hctx
    · rw [State.flag_respondWrite]
      exact hon

end Sys2Proof.Machine
end

section
/-! SUPPORT. Stripe rows: what a member put at its place, a unit queued and a pad leave as they were. -/
namespace Sys2Proof.Machine

/-! ## What moves while a row fills -/

/-- Two states apart in their rows, the LUNs' queues, the sets, and the accumulators' traffic alone; every set keeps its slots. -/
structure RowsMoved (s t : State) : Prop where
  rest : t = { s with
    fab := t.fab
    pwr := t.pwr
    md := { s.md with
      rows := t.md.rows
      luns := t.md.luns
      sets := t.md.sets } }
  slots : ∀ n, (t.set_ n).slots = (s.set_ n).slots

namespace RowsMoved
variable {s t u : State}

theorem refl (s : State) : RowsMoved s s := ⟨rfl, fun _ => rfl⟩

theorem trans (h : RowsMoved s t) (g : RowsMoved t u) : RowsMoved s u :=
  ⟨by rw [g.rest, h.rest], fun n => (g.slots n).trans (h.slots n)⟩

theorem regs (h : RowsMoved s t) : t.regs = s.regs := by rw [h.rest]
theorem wp (h : RowsMoved s t) : t.wp = s.wp := by rw [h.rest]
theorem hid (h : RowsMoved s t) : t.hid = s.hid := by rw [h.rest]; exact rfl
theorem profile (h : RowsMoved s t) (k : Nat) : t.profile k = s.profile k := by rw [h.rest]; exact rfl
theorem rowGrp (h : RowsMoved s t) (id : Nat) : rowGrp t id = rowGrp s id := by rw [h.rest]; exact rfl
theorem online (h : RowsMoved s t) (k : Nat) : t.online k = s.online k := by rw [h.rest]; exact rfl

theorem setProfile (h : RowsMoved s t) (n : Nat) : setProfile t n = setProfile s n := by
  simp only [Machine.setProfile, h.slots, h.profile]

theorem rowSlc (h : RowsMoved s t) (id : Nat) : rowSlc t id = rowSlc s id := by
  simp only [Machine.rowSlc, h.rowGrp]

theorem rowUnitQ (h : RowsMoved s t) (id : Nat) : rowUnitQ t id = rowUnitQ s id := by
  simp only [Machine.rowUnitQ, h.setProfile, h.rowSlc]

theorem rowLun (h : RowsMoved s t) (id pos : Nat) : rowLun t id pos = rowLun s id pos := by
  simp only [Machine.rowLun, h.rowGrp, h.slots]

theorem rowLost (h : RowsMoved s t) (id pos : Nat) : rowLost t id pos = rowLost s id pos := by
  simp only [Machine.rowLost, h.rowLun, h.rowGrp, h.online]

theorem rowPage (h : RowsMoved s t) (id pos q : Nat) : rowPage t id pos q = rowPage s id pos q := by
  simp only [Machine.rowPage, h.rowLun, qPage, h.profile, h.rowSlc]

theorem pageUnit (h : RowsMoved s t) (g : Page) : pageUnit t g = pageUnit s g := by
  simp only [Machine.pageUnit, h.profile]

theorem of_rows (s : State) (rows : Tab Row) : RowsMoved s { s with md := { s.md with rows := rows } } := ⟨rfl, fun _ => rfl⟩
theorem of_mem (h : t = { s with fab := t.fab, pwr := t.pwr }) : RowsMoved s t := ⟨by rw [h], fun _ => by rw [h]; exact rfl⟩
theorem enqueue (w : Want) (s : State) : RowsMoved s (enqueue w s) := ⟨rfl, fun _ => rfl⟩

end RowsMoved

theorem rowsMoved_modSet {s : State} {f : SetSt → SetSt} (n : Nat) (h : ∀ x, (f x).slots = x.slots) : RowsMoved s (s.modSet n f) := by
  refine ⟨rfl, fun m => ?_⟩
  show (Tab.get {} m (Tab.modify n f s.md.sets)).slots = (Tab.get {} m s.md.sets).slots
  unfold Tab.get
  by_cases hm : m = n
  · subst hm
    rw [Tab.find_modify_same]
    cases Tab.find m s.md.sets with
    | none => exact rfl
    | some x => exact h x
  · rw [Tab.find_modify_ne hm]

/-! ## The members of one row -/

/-- A change of one row's members: `f` tells them, and no other row changes. -/
structure RowEdit (id : Nat) (f : Tab Member → Tab Member) (s t : State) : Prop where
  moved : RowsMoved s t
  others : ∀ j, j ≠ id → t.row j = s.row j
  members : (t.row id).map Row.mem = (s.row id).map fun x => f x.mem

namespace RowEdit
variable {id : Nat} {f g : Tab Member → Tab Member} {s t u : State}

theorem trans (h : RowEdit id f s t) (k : RowEdit id g t u) : RowEdit id (fun m => g (f m)) s u := by
  refine ⟨h.moved.trans k.moved, fun j hj => (k.others j hj).trans (h.others j hj), ?_⟩
  have hm : (t.row id).map (fun x => g x.mem) = (s.row id).map fun x => g (f x.mem) := by
    simpa [Option.map_map, Function.comp_def] using congrArg (Option.map g) h.members
  rw [k.members, hm]

theorem row (h : RowEdit id f s t) {x : Row} (hx : s.row id = some x) : ∃ y, t.row id = some y ∧ y.mem = f x.mem := by
  have := h.members
  rw [hx] at this
  exact Option.map_eq_some_iff.mp this

end RowEdit

theorem rowEdit_same {id : Nat} {s t : State} (h : RowsMoved s t) (hr : t.md.rows = s.md.rows) : RowEdit id (fun m => m) s t :=
  ⟨h, fun j _ => congrArg (Tab.find j) hr, congrArg (fun r => (Tab.find id r).map Row.mem) hr⟩

theorem rowEdit_modRow {id : Nat} {f : Tab Member → Tab Member} {r : Row → Row} (s : State) (h : ∀ x, (r x).mem = f x.mem) :
    RowEdit id f s (s.modRow id r) := by
  refine ⟨RowsMoved.of_rows _ _, fun j hj => Tab.find_modify_ne hj _ _, ?_⟩
  rw [show (s.modRow id r).row id = _ from Tab.find_modify_same id r s.md.rows]
  show ((s.row id).map r).map Row.mem = _
  cases s.row id with
  | none => exact rfl
  | some x => exact congrArg some (h x)

theorem issueAll_memOnly (l : List (FabReq × Purpose)) (s : State) :
    s.issueAll l = { s with fab := (s.issueAll l).fab, pwr := (s.issueAll l).pwr } := issueAll_rest l s

theorem lineRead_rest (q : FabReq) (p : Purpose) (s : State) :
    lineRead q p s = { s with fab := (lineRead q p s).fab, pwr := (lineRead q p s).pwr } := by
  unfold lineRead
  split
  · exact rfl
  · exact issueAll_rest _ _

theorem lineReads_rest (p : Purpose) (cls : Nat) : ∀ (l : List (Nat × Nat)) (s t : State),
    t = l.foldl (fun s x => lineRead (mkReq (dramPort x.1) cls .rd x.1 x.2 []) p s) s → t = { s with fab := t.fab, pwr := t.pwr }
  | [], s, t, h => by rw [h]; exact rfl
  | x :: r, s, t, h => State.memOnly_trans (lineRead_rest _ p s) (lineReads_rest p cls r _ t h)

theorem dramRead_rest (addr len cls : Nat) (p : Purpose) (s : State) :
    dramRead addr len cls p s = { s with fab := (dramRead addr len cls p s).fab, pwr := (dramRead addr len cls p s).pwr } :=
  lineReads_rest p cls _ s _ rfl

/-- The traffic of the accumulators moves no row. -/
theorem parTouch_rest (id q : Nat) (first : Bool) (s : State) :
    parTouch id q first s = { s with fab := (parTouch id q first s).fab, pwr := (parTouch id q first s).pwr } := by
  unfold parTouch
  split
  · exact rfl
  · split
    · exact rfl
    · dsimp only
      split
      · exact dramWrite_rest _ _ _ _ s
      · exact dramRead_rest _ _ _ _ s

theorem rowEdit_setMember (id pos q : Nat) (m : Member) (s : State) :
    RowEdit id (Tab.put (pos * rowUnitQ s id + q) m) s (setMember id pos q m s) := by
  unfold setMember
  cases h : s.row id with
  | none => exact ⟨RowsMoved.refl s, fun _ _ => rfl, by rw [h]; exact rfl⟩
  | some x =>
    dsimp only
    have hp := parTouch_rest id q (stripeOf s x id q).isEmpty (s.modRow id fun x => { x with mem := Tab.put (pos * rowUnitQ s id + q) m x.mem })
    have hm : RowEdit id (Tab.put (pos * rowUnitQ s id + q) m) s
        (s.modRow id fun x => { x with mem := Tab.put (pos * rowUnitQ s id + q) m x.mem }) := rowEdit_modRow s fun _ => rfl
    refine hm.trans (rowEdit_same (RowsMoved.of_mem hp) ?_)
    rw [hp]

/-! ## Units queued -/

theorem rowEdit_queueUnit (cls : Nat) {id pos : Nat} {s : State} (hl : rowLost s id pos = false) : RowEdit id (fun m => m) s (queueUnit cls id pos s) := by
  have h0 : RowEdit id (fun m => m) s s := rowEdit_same (RowsMoved.refl s) rfl
  unfold queueUnit
  split
  next x g _ _ _ =>
    dsimp only
    split
    · exact h0
    · have hm : RowEdit id (fun m => m) s (s.modRow id fun x => { x with queued := pos :: x.queued }) := rowEdit_modRow s fun _ => rfl
      rw [if_neg (by rw [hm.moved.rowLost, hl]; exact Bool.false_ne_true)]
      exact hm.trans (rowEdit_same (RowsMoved.enqueue _ _) rfl)
  next => exact h0

theorem rowEdit_queueReady (cls : Nat) {id pos : Nat} {s : State} (hl : ∀ p, p < 18 → rowLost s id p = false) (hp : pos < 18) :
    RowEdit id (fun m => m) s (queueReady cls id pos s) := by
  unfold queueReady
  split
  · exact rowEdit_same (RowsMoved.refl s) rfl
  · next x _ =>
    have h1 : RowEdit id (fun m => m) s (if posFull s x id pos then queueUnit cls id pos s else s) := by
      split
      · exact rowEdit_queueUnit cls (hl pos hp)
      · exact rowEdit_same (RowsMoved.refl s) rfl
    generalize (if posFull s x id pos then queueUnit cls id pos s else s) = u at h1 ⊢
    show RowEdit id (fun m => m) s (if (List.range 16).all (posFull u x id) then queueUnit cls id 17 (queueUnit cls id 16 u) else u)
    split
    · have h2 := h1.trans (rowEdit_queueUnit cls (id := id) (pos := 16) ((h1.moved.rowLost id 16).trans (hl 16 (by decide))))
      exact h2.trans (rowEdit_queueUnit cls ((h2.moved.rowLost id 17).trans (hl 17 (by decide))))
    · exact h1

/-- A full group left by destage, or not: the row's members stay. -/
theorem RowEdit.leaves {id : Nat} {f : Tab Member → Tab Member} {s u : State} (h : RowEdit id f s u) (b : Bool) (g : Nat) :
    RowEdit id f s (if b then u.modSet (rowSet id) (fun x => if x.openG = some g then { x with openG := none, row := 0 } else x) else u) := by
  cases b with
  | false => exact h
  | true =>
    refine h.trans (rowEdit_same (rowsMoved_modSet _ fun y => ?_) rfl)
    split
    · exact rfl
    · exact rfl

theorem rowEdit_putMember (cls : Nat) {id pos q : Nat} (m : Member) {s : State} {x : Row} (hx : s.row id = some x)
    (hl : ∀ p, p < 18 → rowLost s id p = false) (hp : pos < 18) :
    RowEdit id (Tab.put (pos * rowUnitQ s id + q) m) s (putMember cls id pos q m s) := by
  unfold putMember
  rw [hx]
  dsimp only
  have h1 := rowEdit_setMember id pos q m s
  generalize setMember id pos q m s = u at h1 ⊢
  have hq {v : State} (hv : RowEdit id (Tab.put (pos * rowUnitQ s id + q) m) s v) :
      RowEdit id (Tab.put (pos * rowUnitQ s id + q) m) s (queueReady cls id pos v) :=
    hv.trans (rowEdit_queueReady cls (fun p h => (hv.moved.rowLost id p).trans (hl p h)) hp)
  exact hq (h1.leaves _ _)

/-! ## Pads -/

theorem nextPlace_some {s : State} {x : Row} {id pos q : Nat} (h : nextPlace s x id = some (pos, q)) :
    pos < 16 ∧ pos * rowUnitQ s id + q < 16 * rowUnitQ s id ∧ Tab.find (pos * rowUnitQ s id + q) x.mem = none ∧
      ∀ i, i < pos * rowUnitQ s id + q → (Tab.find i x.mem).isSome = true := by
  unfold nextPlace at h
  obtain ⟨i, hf, he⟩ := Option.map_eq_some_iff.mp h
  rw [List.find?_range_eq_some] at hf
  obtain ⟨hn, hi, hb⟩ := hf
  have hi := List.mem_range.mp hi
  have hw : 0 < rowUnitQ s id := by omega
  rw [Nat.max_eq_right hw] at he
  obtain ⟨hp, hq⟩ := Prod.mk.inj he
  have hidx : pos * rowUnitQ s id + q = i := by
    rw [← hp, ← hq]
    exact Nat.div_add_mod' i _
  rw [hidx]
  refine ⟨?_, hi, Option.isNone_iff_eq_none.mp hn, fun j hj => ?_⟩
  · rw [← hp]
    exact Nat.div_lt_of_lt_mul (by rw [Nat.mul_comm]; exact hi)
  · simpa using hb j hj

theorem nextPlace_none {s : State} {x : Row} {id : Nat} (h : nextPlace s x id = none) {i : Nat} (hi : i < 16 * rowUnitQ s id) :
    (Tab.find i x.mem).isSome = true := by
  unfold nextPlace at h
  have hf := List.find?_eq_none.mp (Option.map_eq_none_iff.mp h) i (List.mem_range.mpr hi)
  cases hm : Tab.find i x.mem with
  | none => rw [hm] at hf; exact absurd rfl hf
  | some m => exact rfl

/-- A member that pads a row. -/
def Member.isPad (m : Member) : Prop := m.own = .pad ∧ m.lta = 0xFFFFFFFFFFFF ∧ m.keyidx = 0xFFFF ∧ m.data = List.replicate 4096 0

/-- Members grown by pads: those that stood stand, and every other is a pad. -/
structure Padded (a b : Tab Member) : Prop where
  keeps : ∀ i m, Tab.find i a = some m → Tab.find i b = some m
  pads : ∀ i m, Tab.find i a = none → Tab.find i b = some m → m.isPad

theorem Padded.refl (a : Tab Member) : Padded a a := ⟨fun _ _ h => h, fun _ _ h g => absurd (h.symm.trans g) nofun⟩

theorem Padded.trans {a b c : Tab Member} (h : Padded a b) (g : Padded b c) : Padded a c := by
  refine ⟨fun i m hi => g.keeps i m (h.keeps i m hi), fun i m hi hc => ?_⟩
  cases hb : Tab.find i b with
  | none => exact g.pads i m hb hc
  | some m' =>
    have hm : m' = m := Option.some.inj ((g.keeps i m' hb).symm.trans hc)
    exact hm ▸ h.pads i m' hi hb

theorem Padded.put {a : Tab Member} {i : Nat} {m : Member} (hi : Tab.find i a = none) (hm : m.isPad) : Padded a (Tab.put i m a) := by
  refine ⟨fun j n hj => ?_, fun j n hj hn => ?_⟩
  · have hne : j ≠ i := fun e => absurd ((e ▸ hj).symm.trans hi) nofun
    rw [Tab.find_put_ne hne, hj]
  · by_cases hji : j = i
    · subst hji
      rw [Tab.find_put_same] at hn
      exact Option.some.inj hn ▸ hm
    · rw [Tab.find_put_ne hji, hj] at hn
      exact absurd hn nofun

/-- Pads fill every missing place of a row whose places below `j` are filled (R291), with fuel for the others. -/
theorem padRow_fills (id : Nat) : ∀ (fuel j : Nat) (s : State) (x : Row), s.row id = some x → (∀ p, p < 18 → rowLost s id p = false) →
    16 * rowUnitQ s id ≤ j + fuel → (∀ i, i < j → (Tab.find i x.mem).isSome = true) →
    RowsMoved s (padRow id fuel s) ∧ (∀ k, k ≠ id → (padRow id fuel s).row k = s.row k) ∧
      ∃ y, (padRow id fuel s).row id = some y ∧ Padded x.mem y.mem ∧ ∀ i, i < 16 * rowUnitQ s id → (Tab.find i y.mem).isSome = true
  | 0, j, s, x, hx, _, hf, hj => ⟨RowsMoved.refl s, fun _ _ => rfl, x, hx, Padded.refl _, fun i hi => hj i (by omega)⟩
  | fuel + 1, j, s, x, hx, hl, hf, hj => by
    unfold padRow
    rw [hx]
    dsimp only
    cases hn : nextPlace s x id with
    | none => exact ⟨RowsMoved.refl s, fun _ _ => rfl, x, hx, Padded.refl _, fun i hi => nextPlace_none hn hi⟩
    | some pq =>
      obtain ⟨pos, q⟩ := pq
      obtain ⟨hp, hlt, hfree, hbelow⟩ := nextPlace_some hn
      have hjle : j ≤ pos * rowUnitQ s id + q := by
        refine Nat.le_of_not_lt fun h => ?_
        have := hj _ h
        rw [hfree] at this
        exact absurd this nofun
      have he := rowEdit_putMember 2 (q := q) (padMember s id pos) hx hl (pos := pos) (by omega)
      obtain ⟨y, hy, hmem⟩ := he.row hx
      have hw := he.moved.rowUnitQ id
      obtain ⟨hm, ho, z, hz, hpad, hall⟩ := padRow_fills id fuel (pos * rowUnitQ s id + q + 1) _ y hy
        (fun p h => (he.moved.rowLost id p).trans (hl p h)) (by rw [hw]; omega) (by
          intro i hi
          rw [hmem]
          by_cases hip : i = pos * rowUnitQ s id + q
          · rw [hip, Tab.find_put_same]
            exact rfl
          · rw [Tab.find_put_ne hip]
            exact hbelow i (by omega))
      refine ⟨he.moved.trans hm, fun k hk => (ho k hk).trans (he.others k hk), z, hz, ?_, fun i hi => hall i (by rw [hw]; exact hi)⟩
      refine Padded.trans ?_ hpad
      rw [hmem]
      exact Padded.put hfree ⟨rfl, rfl, rfl, rfl⟩

end Sys2Proof.Machine
end

section
/-! PROOFS. O35: a copy's destage, the program token, pads, and a journal page. -/
namespace Sys2Proof.Machine

/-! ## Destage (R337, R311) -/

/-- What makes a destage due, as the rules list it. -/
theorem dueDestage_of {s : State} {slot : Nat} {p : Pan}
    (h : p.admTime + windowNs s ≤ s.now ∨ p.urgent = true ∨ flushCovers s p = true ∨
      (pressed s = true ∧ ∀ e ∈ s.wp.own, e.1 ≠ slot → mayDestage s e.1 e.2 = true → p.admTime ≤ e.2.admTime)) :
    dueDestage s slot p = true := by
  unfold dueDestage
  simp only [Bool.or_eq_true]
  obtain h | h | h | ⟨hp, hold⟩ := h
  · exact .inl (.inl (.inl (decide_eq_true h)))
  · exact .inl (.inl (.inr h))
  · exact .inl (.inr h)
  · refine .inr ?_
    rw [hp, Bool.true_and, Bool.not_eq_true', List.any_eq_false]
    intro e he hb
    simp only [Bool.and_eq_true, bne_iff_ne, decide_eq_true_eq] at hb
    obtain ⟨⟨hne, hm⟩, hlt⟩ := hb
    exact absurd (hold e he hne hm) (Nat.not_le_of_lt hlt)

/-- The job that reads a slot for destage. -/
def destageJob (slot : Nat) (p : Pan) (s : State) : Job :=
  { path := .panRead slot
    prio := 3
    vc := 2
    port := s.nextPort.1
    age := p.rtag
    prog := [moveWord true 0 0 0 0 4095 0 (slotAddr s.img.hold.panBase (ownSlots s) slot)]
    init := []
    crypt := none
    c0 := false }

/-- A copy placed in a set, and its read queued. -/
def destageStarted (slot set : Nat) (p : Pan) (s : State) : State :=
  (((notePressure s).modSet set fun x => { x with queue := x.queue ++ [slot] }).nextPort.2).queueJob (destageJob slot p s)

theorem destageStarted_sets (slot set : Nat) (p : Pan) (s : State) : Tab.find set (destageStarted slot set p s).md.sets =
    (Tab.find set s.md.sets).map fun x => { x with queue := x.queue ++ [slot] } := Tab.find_modify_same _ _ _

theorem destageStarted_pan (slot set : Nat) (p : Pan) (s : State) : (destageStarted slot set p s).pan slot = s.pan slot := by
  show Tab.find slot s.wp.own = _
  exact rfl

theorem destageStarted_jobs (slot set : Nat) (p : Pan) (s : State) : (destageStarted slot set p s).mov.jobs = s.mov.jobs ++ [destageJob slot p s] := rfl
theorem destageStarted_regs (slot set : Nat) (p : Pan) (s : State) : (destageStarted slot set p s).regs = s.regs := by
  simp only [destageStarted, State.queueJob, State.nextPort, State.modSet, notePressure]
theorem destageStarted_fab (slot set : Nat) (p : Pan) (s : State) : (destageStarted slot set p s).fab = s.fab := by
  simp only [destageStarted, State.queueJob, State.nextPort, State.modSet, notePressure]
theorem destageJob_prog (slot : Nat) (p : Pan) (s : State) : (destageJob slot p s).prog =
    [moveWord true 0 0 0 0 4095 0 (slotAddr s.img.hold.panBase (ownSlots s) slot)] := rfl

theorem execDestageStart_eq {slot set : Nat} {p : Pan} {s : State} (hp : s.pan slot = some p) (hset : placeTile s false p.lta p.seq = some set)
    (hr : s.running = true) (hst : s.stage = 9) (hpf : s.wp.pfail = false) (hfl : flushing s = false) (hdone : s.flag Fld.mapFlushStsDone = false)
    (hheld : s.wp.destageHeld = false) (hov : overlayHeld s = false) (hmay : mayDestage s slot p = true) (hd : dueDestage s slot p = true) :
    execDestageStart slot s = .next (destageStarted slot set p s) := by
  rw [execDestageStart, hp]
  dsimp only
  rw [hset]
  dsimp only
  rw [hr, hst, hpf, hfl, hdone, hheld, hov, hmay, hd]
  exact onlyIf_true _ _

/-! ## Program tokens (R296) -/

/-- The STRIPE number in time of the row whose parity a want programs. -/
def parityAge (s : State) (w : Want) : Option Nat := (parityRow w.why).bind fun id => (s.row id).map Row.seq

/-- A want that the token prefers to another, or ranks with it: an older parity unit, else the one ready first. -/
structure TokenBefore (s : State) (v w : Want) : Prop where
  parity : ∀ y, parityAge s w = some y → ∃ z, parityAge s v = some z ∧ z ≤ y
  ready : parityAge s v = none → v.since ≤ w.since

theorem TokenBefore.refl (s : State) (v : Want) : TokenBefore s v v := ⟨fun y h => ⟨y, h, Nat.le_refl y⟩, fun _ => Nat.le_refl _⟩

theorem TokenBefore.trans {s : State} {u v w : Want} (h : TokenBefore s u v) (g : TokenBefore s v w) : TokenBefore s u w := by
  refine ⟨fun y hy => ?_, fun hu => ?_⟩
  · obtain ⟨z, hz, hzy⟩ := g.parity y hy
    obtain ⟨x, hx, hxz⟩ := h.parity z hz
    exact ⟨x, hx, hxz.trans hzy⟩
  · cases hv : parityAge s v with
    | none => exact (h.ready hu).trans (g.ready hv)
    | some z =>
      obtain ⟨x, hx, _⟩ := h.parity z hv
      exact absurd (hu.symm.trans hx) nofun

/-- The token's choice between two wants. -/
theorem tokenFirst_spec (s : State) (v w : Want) : if tokenFirst s v w then TokenBefore s v w else TokenBefore s w v := by
  unfold tokenFirst
  dsimp only
  change if (match parityAge s v, parityAge s w with
    | some x, some y => _
    | some _, none => true
    | none, some _ => false
    | none, none => _) = true then _ else _
  cases hv : parityAge s v with
  | none =>
    cases hw : parityAge s w with
    | none =>
      simp only [Bool.or_eq_true, decide_eq_true_eq, Bool.and_eq_true, beq_iff_eq]
      split
      · exact ⟨fun y hy => absurd (hw.symm.trans hy) nofun, fun _ => by omega⟩
      · exact ⟨fun y hy => absurd (hv.symm.trans hy) nofun, fun _ => by omega⟩
    | some y => exact ⟨fun z hz => absurd (hv.symm.trans hz) nofun, fun h => absurd (h.symm.trans hw) nofun⟩
  | some x =>
    cases hw : parityAge s w with
    | none => exact ⟨fun y hy => absurd (hw.symm.trans hy) nofun, fun h => absurd (h.symm.trans hv) nofun⟩
    | some y =>
      simp only [Bool.or_eq_true, decide_eq_true_eq, Bool.and_eq_true, beq_iff_eq]
      split
      · exact ⟨fun z hz => ⟨x, hv, by have := Option.some.inj (hw.symm.trans hz); omega⟩, fun h => absurd (h.symm.trans hv) nofun⟩
      · exact ⟨fun z hz => ⟨y, hw, by have := Option.some.inj (hv.symm.trans hz); omega⟩, fun h => absurd (h.symm.trans hw) nofun⟩

/-- The want that takes the token of those ready. -/
def tokenPick (s : State) (a : Option Want) (w : Want) : Option Want :=
  match a with
  | none => some w
  | some v => if tokenFirst s v w then some v else some w

theorem tokenPick_some (s : State) : ∀ (l : List Want) (a : Want),
    ∃ v, l.foldl (tokenPick s) (some a) = some v ∧ v ∈ a :: l ∧ ∀ w ∈ a :: l, TokenBefore s v w
  | [], a => ⟨a, rfl, List.mem_singleton.mpr rfl, fun w hw => List.mem_singleton.mp hw ▸ TokenBefore.refl s a⟩
  | b :: r, a => by
    have hab := tokenFirst_spec s a b
    obtain ⟨c, hc, hmem, hca, hcb⟩ : ∃ c, tokenPick s (some a) b = some c ∧ (c = a ∨ c = b) ∧ TokenBefore s c a ∧ TokenBefore s c b := by
      unfold tokenPick
      dsimp only
      split at hab
      · exact ⟨a, if_pos ‹_›, .inl rfl, TokenBefore.refl s a, hab⟩
      · exact ⟨b, if_neg ‹_›, .inr rfl, hab, TokenBefore.refl s b⟩
    obtain ⟨v, hv, hin, hall⟩ := tokenPick_some s r c
    have hvc := hall c List.mem_cons_self
    refine ⟨v, ?_, ?_, fun w hw => ?_⟩
    · rw [List.foldl_cons, hc]
      exact hv
    · obtain rfl | hr := List.mem_cons.mp hin
      · obtain rfl | rfl := hmem
        · exact List.mem_cons_self
        · exact List.mem_cons_of_mem _ List.mem_cons_self
      · exact List.mem_cons_of_mem _ (List.mem_cons_of_mem _ hr)
    · obtain rfl | hw := List.mem_cons.mp hw
      · exact hvc.trans hca
      · obtain rfl | hw := List.mem_cons.mp hw
        · exact hvc.trans hcb
        · exact hall w (List.mem_cons_of_mem _ hw)

/-- The program wants of a set's online LUNs. -/
def tokenWants (s : State) (x : SetSt) : List Want :=
  x.slots.flatMap fun k => if s.online k then (s.lun k).queue.filter fun w => w.kind == 1 || w.kind == 3 else []

theorem execProgramTokenGrant_eq (set : Nat) (s : State) {v : Want}
    (h : (tokenWants s (s.set_ set)).foldl (tokenPick s) none = some v) (hc : s.coreOn = true) (ht : (s.set_ set).token = none) :
    execProgramTokenGrant set s = .next (s.modSet set fun x => { x with token := some v.page.lun }) := by
  have he : execProgramTokenGrant set s = ((tokenWants s (s.set_ set)).foldl (tokenPick s) none).elim (.next s)
      fun w => onlyIf (s.coreOn && (s.set_ set).token.isNone) s (s.modSet set fun x => { x with token := some w.page.lun }) := by
    unfold execProgramTokenGrant
    dsimp only
    change (match (tokenWants s (s.set_ set)).foldl (tokenPick s) none with
      | none => _
      | some w => _) = _
    cases (tokenWants s (s.set_ set)).foldl (tokenPick s) none with
    | none => exact rfl
    | some w => exact rfl
  rw [he, h, hc, ht]
  exact onlyIf_true _ _

/-! ## Journal pages (R348) -/

theorem length_recordBytes (r : JRec) : (recordBytes r).length = 32 := by
  simp [recordBytes, numBytes]

theorem length_recsBytes : ∀ l : List JRec, (recsBytes l).length = 32 * l.length
  | [] => rfl
  | r :: l => by
    rw [recsBytes, List.flatMap_cons, List.length_append, length_recordBytes, List.length_cons]
    have := length_recsBytes l
    rw [recsBytes] at this
    omega

/-- The member of a journal page at a stripe. -/
def journalMember (hid k jseq id pos : Nat) (recs : List JRec) (q : Nat) : Member :=
  let seq := k * 2 ^ 48 + jseq % 2 ^ 48
  let b := recsBytes ((recs.drop (128 * q)).take 128)
  let data := b ++ List.replicate (4096 - b.length) 0
  { own := .pad
    lta := 0
    seq := seq
    keyidx := 0xFFFF
    data := data
    hdr := dataHdr id pos 0 hid kJournal seq 0xFFFF data }

theorem journalMember_data (hid k jseq id pos : Nat) (recs : List JRec) (q : Nat) :
    (journalMember hid k jseq id pos recs q).data.take (32 * ((recs.drop (128 * q)).take 128).length) = recsBytes ((recs.drop (128 * q)).take 128) := by
  show (recsBytes _ ++ _).take _ = _
  rw [← length_recsBytes, List.take_left]

/-- Two states apart in their rows and the accumulators' traffic alone. -/
def RowsOnly (s t : State) : Prop := t = { s with
  fab := t.fab
  pwr := t.pwr
  md := { s.md with rows := t.md.rows } }

theorem RowsOnly.trans {s t u : State} (h : RowsOnly s t) (g : RowsOnly t u) : RowsOnly s u := by
  unfold RowsOnly at *
  rw [g, h]

theorem RowsOnly.moved {s t : State} (h : RowsOnly s t) : RowsMoved s t :=
  ⟨by rw [h], fun _ => by rw [h]; exact rfl⟩

theorem RowsOnly.eraseAwaited {s t : State} (h : RowsOnly s t) (x : Nat) : eraseAwaited t x = eraseAwaited s x := by
  rw [h]
  exact rfl

theorem setMember_rowsOnly (id pos q : Nat) (m : Member) (s : State) : RowsOnly s (setMember id pos q m s) := by
  unfold setMember
  cases s.row id with
  | none => exact rfl
  | some x =>
    dsimp only
    have hp := parTouch_rest id q (stripeOf s x id q).isEmpty (s.modRow id fun x => { x with mem := Tab.put (pos * rowUnitQ s id + q) m x.mem })
    exact RowsOnly.trans (t := s.modRow id fun x => { x with mem := Tab.put (pos * rowUnitQ s id + q) m x.mem }) rfl (by rw [RowsOnly, hp])

/-- The page's codewords below `n` put into their row. -/
def journalPart (k jseq id pos : Nat) (recs : List JRec) (n : Nat) (s : State) : State :=
  (List.range n).foldl (fun s q => setMember id pos q (journalMember s.hid k jseq id pos recs q) s) s

theorem journalMembers_eq (k jseq id pos : Nat) (recs : List JRec) (s : State) :
    journalMembers k jseq id pos recs s = journalPart k jseq id pos recs (rowUnitQ s id) s := rfl

theorem journalPart_succ (k jseq id pos : Nat) (recs : List JRec) (n : Nat) (s : State) : journalPart k jseq id pos recs (n + 1) s =
    setMember id pos n (journalMember (journalPart k jseq id pos recs n s).hid k jseq id pos recs n) (journalPart k jseq id pos recs n s) := by
  unfold journalPart
  rw [List.range_succ, List.foldl_append]
  exact rfl

theorem journalPart_members (k jseq id pos : Nat) (recs : List JRec) {s : State} {x : Row} (hx : s.row id = some x) : ∀ n,
    RowsOnly s (journalPart k jseq id pos recs n s) ∧ ∃ y, (journalPart k jseq id pos recs n s).row id = some y ∧
      ∀ q, q < n → Tab.find (pos * rowUnitQ s id + q) y.mem = some (journalMember s.hid k jseq id pos recs q)
  | 0 => ⟨rfl, x, hx, fun q hq => absurd hq (Nat.not_lt_zero q)⟩
  | n + 1 => by
    obtain ⟨hr, y, hy, hm⟩ := journalPart_members k jseq id pos recs hx n
    rw [journalPart_succ, hr.moved.hid]
    have he := rowEdit_setMember id pos n (journalMember s.hid k jseq id pos recs n) (journalPart k jseq id pos recs n s)
    obtain ⟨z, hz, hzm⟩ := he.row hy
    refine ⟨hr.trans (setMember_rowsOnly _ _ _ _ _), z, hz, fun q hq => ?_⟩
    rw [hzm, hr.moved.rowUnitQ]
    by_cases hqn : q = n
    · rw [hqn, Tab.find_put_same]
    · rw [Tab.find_put_ne (by omega)]
      exact hm q (by omega)

theorem journalRow_spec {id : Nat} {s s1 : State} (h : journalRow id s = some s1) : RowsOnly s s1 ∧ ∃ x, s1.row id = some x := by
  unfold journalRow at h
  cases hr : s.row id with
  | some x =>
    rw [hr] at h
    obtain rfl := Option.some.inj h
    exact ⟨rfl, x, hr⟩
  | none =>
    rw [hr] at h
    obtain ⟨o, _, rfl⟩ := Option.map_eq_some_iff.mp h
    exact ⟨rfl, _, Tab.find_put_same _ _ _⟩

theorem journalRow_setStream {id : Nat} {s s1 : State} (k : Nat) (x : Stream) (h : journalRow id s = some s1) :
    journalRow id (s.setStream k x) = some (s1.setStream k x) := by
  unfold journalRow at h ⊢
  rw [show (s.setStream k x).row id = s.row id from rfl]
  cases hr : s.row id with
  | some y =>
    rw [hr] at h
    exact congrArg some (congrArg (fun t : State => t.setStream k x) (Option.some.inj h))
  | none =>
    rw [hr] at h
    obtain ⟨o, ho, rfl⟩ := Option.map_eq_some_iff.mp h
    exact Option.map_eq_some_iff.mpr ⟨o, ho, rfl⟩

theorem State.stream_setStream (s : State) (k : Nat) (x : Stream) : (s.setStream k x).stream k = x := Tab.get_put_same _ _ _ _

/-- The program of a journal page, as it is queued. -/
structure JournalPage (s t : State) (k jseq : Nat) (recs : List JRec) (x : Stream) (id pos : Nat) (g : Page) : Prop where
  regs : t.regs = s.regs
  stream : t.stream k = { x with
    phase := .programming
    places := x.places.filter (fun a => a.1 != jseq) ++ [(jseq, unitKey g.lun (unitNo (pageUnit s g)), rowStep id)] }
  queued : ∃ v, v ∈ (t.lun g.lun).queue ∧ v.why = .jpage k ∧ v.kind = 1 ∧ v.cls = 2 ∧ v.page = g
  members : ∃ y, t.row id = some y ∧ ∀ q, q < rowUnitQ s id → Tab.find (pos * rowUnitQ s id + q) y.mem = some (journalMember s.hid k jseq id pos recs q)

/-- A want queued stands in its LUN's queue, whenever it was queued. -/
theorem mem_queue_enqueue (P : Want → Prop) {w : Want} {k : Nat} (hk : w.page.lun = k) (s : State) (h : ∀ n, P { w with since := n }) :
    ∃ v, v ∈ ((enqueue w s).lun k).queue ∧ P v := by
  subst hk
  refine ⟨{ w with since := s.now }, ?_, h s.now⟩
  rw [State.lun_enqueue]
  exact List.mem_append_right _ (List.mem_singleton.mpr rfl)

theorem programPage_spec {k jseq fuel : Nat} {recs : List JRec} {s s1 : State} {x : Stream} {set grp cw : Nat} {g : Page}
    (hx : s.stream k = x) (hg : x.grp = some (set, grp)) (hrow : journalRow (streamRow x).1 s = some s1)
    (hl : rowLost s (streamRow x).1 (streamRow x).2 = false) (hp : rowPage s (streamRow x).1 (streamRow x).2 0 = some (g, cw))
    (he : eraseAwaited s (pageUnit s g) = false) :
    ∃ t, programPage k jseq recs (fuel + 1) s = some t ∧ JournalPage s t k jseq recs x (streamRow x).1 (streamRow x).2 g := by
  obtain ⟨h1, z, hz⟩ := journalRow_spec hrow
  obtain ⟨h2, y, hy, hmem⟩ := journalPart_members k jseq (streamRow x).1 (streamRow x).2 recs hz (rowUnitQ s1 (streamRow x).1)
  rw [← journalMembers_eq] at h2 hy
  have h12 := h1.trans h2
  unfold programPage
  dsimp only
  rw [hx, hg]
  dsimp only
  rw [hrow]
  dsimp only
  rw [if_neg (by rw [h1.moved.rowLost, hl]; exact Bool.false_ne_true)]
  rw [hy, h12.moved.rowPage, hp]
  dsimp only
  rw [if_neg (by rw [h12.eraseAwaited, h12.moved.pageUnit, he]; exact Bool.false_ne_true)]
  have hs : (journalMembers k jseq (streamRow x).1 (streamRow x).2 recs s1).stream k = x := by
    rw [State.stream, h12.moved.wp]
    exact hx
  refine ⟨_, rfl, ?_, ?_, mem_queue_enqueue (fun v => v.why = .jpage k ∧ v.kind = 1 ∧ v.cls = 2 ∧ v.page = g) rfl _ fun _ => ⟨rfl, rfl, rfl, rfl⟩,
    y, hy, ?_⟩
  · exact h12.moved.regs
  · refine (State.stream_setStream _ _ _).trans ?_
    rw [hs, h12.moved.pageUnit]

  · rw [← h1.moved.rowUnitQ, ← h1.moved.hid]
    exact hmem

/-- The stream as its open page's program is started. -/
def Stream.opened (x : Stream) (now : Nat) (recs : List JRec) : Stream := { x with
  page := x.page.drop recs.length
  since := now
  jseq := x.jseq + 1
  flight := x.flight ++ [(x.jseq, recs)] }

theorem streamProgram_eq {k set grp : Nat} {s : State} (hg : (s.stream k).grp = some (set, grp)) (hp : (s.stream k).pos + 1 ≠ journalPages s set) :
    streamProgram k s = programPage k (s.stream k).jseq ((s.stream k).page.take (pageRecords s set)) 64
      (s.setStream k ((s.stream k).opened s.now ((s.stream k).page.take (pageRecords s set)))) := by
  have hroom : pageRoom s (s.stream k) = pageRecords s set := by
    unfold pageRoom
    rw [hg]
    dsimp only
    rw [if_neg (fun h => hp h.1), Nat.sub_zero]
  have hlast : lastPage k s = some ([], s) := by
    unfold lastPage
    dsimp only
    rw [hg]
    dsimp only
    rw [if_neg (fun h => hp h.1)]
  have hwith : withGroup k s = some s := by
    unfold withGroup
    rw [hg]
  unfold streamProgram
  rw [hwith, Option.bind_some, hroom, hlast, Option.bind_some, List.append_nil]
  exact rfl

theorem execJournalPageProgram_eq {k : Nat} {s t : State} (hr : s.running = true) (hk : k < streamCount s) (hph : (s.stream k).phase = .filling)
    (hf : (s.stream k).flight = []) (hne : (s.stream k).page ≠ []) (hold : (s.stream k).since + s.img.hold.jrnWait * 1000 ≤ s.now)
    (hd : s.flag Fld.mapFlushStsDone = false) (ht : streamProgram k s = some t) : execJournalPageProgram k s = .next t := by
  unfold execJournalPageProgram
  dsimp only
  rw [hf]
  dsimp only
  rw [ht]
  dsimp only
  rw [hr, hd, decide_eq_true (And.intro hk hph), decide_eq_true hne, decide_eq_true hold, Bool.or_true]
  exact onlyIf_true _ _

/-- Settles O35: the copy, the token, the pads and the page each by the lemma about them. -/
theorem destageAndJournal : Obligations.DestageAndJournal := by
  unfold Obligations.DestageAndJournal
  intro s hr
  refine ⟨fun slot p set x hp hset hx hst hpf hfl hdone hheld hov hmay hdue => ?_, fun set x w0 hx htok => ?_, ?_, ?_⟩
  · refine ⟨destageStarted slot set p s, destageJob slot p s, execDestageStart_eq hp hset hr hst hpf hfl hdone hheld hov hmay (dueDestage_of hdue),
      ?_, destageStarted_jobs slot set p s, rfl, rfl, rfl, destageJob_prog slot p s, (destageStarted_pan slot set p s).trans hp,
      destageStarted_regs slot set p s, destageStarted_fab slot set p s⟩
    rw [destageStarted_sets, hx]
    exact rfl
  · intro ready age hw0
    have hset : s.set_ set = x := by
      rw [State.set_, Tab.get, hx]
      exact rfl
    obtain ⟨w, l, hl⟩ : ∃ w l, tokenWants s x = w :: l := List.exists_cons_of_ne_nil (List.ne_nil_of_mem hw0)
    obtain ⟨v, hv, hmem, hall⟩ := tokenPick_some s l w
    rw [← hl] at hmem hall
    refine ⟨v, hmem, _, execProgramTokenGrant_eq set s (v := v) ?_ (State.coreOn_of_running hr) (by rw [hset]; exact htok), ?_,
      fun u hu y hy => (hall u hu).parity y hy, fun hn u hu => (hall u hu).ready hn, rfl⟩
    · rw [hset, hl]
      exact hv
    · refine (Tab.find_modify_same _ _ _).trans ?_
      rw [hx]
      exact rfl
  · intro set g id t x ho hopen hx _ hg hpf hq hw hl
    obtain ⟨hm, hoth, y, hy, hpad, hall⟩ := padRow_fills id (16 * rowUnitQ t id) 0 t x hx hl (by omega) (fun i hi => absurd hi (Nat.not_lt_zero i))
    refine ⟨_, y, ?_, hy, hm.regs, hoth, hpad.keeps, fun i hi hn => ?_⟩
    · show execPadRow set s = _
      rw [execPadRow, ho]
      dsimp only
      rw [hopen]
      dsimp only
      rw [hr, hpf, hq, hg, beq_self_eq_true, hw]
      exact onlyIf_true _ _
    · obtain ⟨m, hmi⟩ := Option.isSome_iff_exists.mp (hall i hi)
      exact ⟨m, hmi, hpad.pads i m hn hmi⟩
  · intro k n g s1 g0 cw hk x id pos w hph hf hne hold hd hg hlast hrow hl hp he recs
    let u := s.setStream k (x.opened s.now recs)
    have hopen : streamRow (x.opened s.now recs) = streamRow x := rfl
    obtain ⟨t, ht, hpage⟩ := programPage_spec (s := u) (k := k) (jseq := x.jseq) (fuel := 63) (recs := recs) (x := x.opened s.now recs)
      (State.stream_setStream _ _ _) hg (journalRow_setStream k _ hrow) hl hp he
    obtain ⟨v, hv, hwhy, hkind, hcls, hpg⟩ := hpage.queued
    obtain ⟨y, hy, hmem⟩ := hpage.members
    refine ⟨t, v, y, execJournalPageProgram_eq hr hk hph hf hne hold hd ((streamProgram_eq hg hlast).trans ht), hpage.regs, ?_, hv, hwhy, hkind,
      hcls, hpg, hy, fun q hq => ⟨_, hmem q hq, rfl, rfl, rfl, journalMember_data _ _ _ _ _ _ _⟩⟩
    rw [hpage.stream]
    have hfl : (x.opened s.now recs).flight = [(x.jseq, recs)] := by
      show x.flight ++ _ = _
      rw [hf, List.nil_append]
    rw [hfl]
    exact rfl

end Sys2Proof.Machine
end

section
/-! PROOFS. O36: a checkpoint's start and commit. -/
namespace Sys2Proof.Machine

/-! ## What a checkpoint's steps leave (R382) -/

/-- The checkpoint, the registers and the write path are the same in two states. -/
structure CkptKept (s t : State) : Prop where
  ckpt : t.md.ckpt = s.md.ckpt
  regs : t.regs = s.regs
  wp : t.wp = s.wp

namespace CkptKept
variable {s t u : State}

theorem refl (s : State) : CkptKept s s := ⟨rfl, rfl, rfl⟩
theorem trans (h : CkptKept s t) (g : CkptKept t u) : CkptKept s u := ⟨g.ckpt.trans h.ckpt, g.regs.trans h.regs, g.wp.trans h.wp⟩
theorem of_mem (h : t = { s with fab := t.fab, pwr := t.pwr }) : CkptKept s t := ⟨by rw [h], by rw [h], by rw [h]⟩

theorem foldl {β : Type} {f : State → β → State} (l : List β) (s : State) (h : ∀ s b, CkptKept s (f s b)) : CkptKept s (l.foldl f s) :=
  List.foldlRecOn l f (refl s) fun u hu b _ => hu.trans (h u b)

theorem modDir (mt : Nat) (f : Dir → Dir) (s : State) : CkptKept s (s.modDir mt f) := by
  unfold State.modDir
  dsimp only
  split
  · exact ⟨rfl, rfl, rfl⟩
  · have hd : CkptKept s { s with md := { s.md with dir := Tab.set {} mt (f (s.dirOf mt)) s.md.dir } } := ⟨rfl, rfl, rfl⟩
    exact hd.trans (of_mem (dramWrite_rest _ _ _ _ _))

theorem readTiles (l : List Nat) (s : State) : CkptKept s (readTiles l s) := by
  refine foldl l s fun u mt => ?_
  split
  · exact (modDir _ _ _).trans (of_mem (dramRead_rest _ _ _ _ _))
  · exact refl u

end CkptKept

/-- The map tiles that the directory shows dirty. -/
def dirtyTiles (s : State) : List Nat := (s.md.dir.filter fun e => e.2.dirty).map Prod.fst

theorem mem_dirtyTiles {s : State} {mt : Nat} : mt ∈ dirtyTiles s ↔ ∃ d, (mt, d) ∈ s.md.dir ∧ d.dirty = true := by
  simp [dirtyTiles]

/-- The checkpoint that is begun (R382). -/
def newCkpt (s : State) : Ckpt :=
  { no := s.md.ckptNo + 1
    ptr := (List.range (streamCount s)).map fun k => (s.stream k).jseq
    seqBase := s.wp.seq
    area := nextArea s
    tiles := dirtyTiles s
    erases := []
    left := 0
    heads := [] }

/-- The state in which the checkpoint stands before its first step. -/
def ckptBegun (s : State) : State := { s with md := { s.md with ckpt := some (newCkpt s) } }.putFlag Fld.mapCkptStsActive true

theorem ckptBegun_ckpt (s : State) : (ckptBegun s).md.ckpt = some (newCkpt s) := rfl

/-- A checkpoint's first step: its tiles are read, or its area is erased. It stays the checkpoint begun but for that step. -/
theorem firstStep_spec {s : State} {c : Ckpt} (hc : s.md.ckpt = some c) (h1 : c.stepNo = 1) :
    ∃ n us, (ckptAdvance s).md.ckpt = some { c with stepNo := n, erases := us } ∧ (ckptAdvance s).regs = s.regs ∧ (ckptAdvance s).wp = s.wp := by
  unfold ckptAdvance
  rw [hc]
  dsimp only
  rw [if_pos h1]
  split
  · unfold eraseArea
    dsimp only
    generalize (areaUnitKeys s c.area).filter (fun x => s.online (unitLun x)) = us
    have hk : CkptKept s (us.foldl (fun s x => queueErase x (s.modUnit x fun u => { u with slc := true, estate := 6 })) s) :=
      CkptKept.foldl us s fun u x => ⟨rfl, rfl, rfl⟩
    refine ⟨2, us, ?_, hk.regs, hk.wp⟩
    show Option.map _ (List.foldl _ s us).md.ckpt = _
    rw [hk.ckpt, hc]
    exact rfl
  · have hk := CkptKept.readTiles (c.tiles.filter fun mt => (s.dirOf mt).dirty) s
    exact ⟨c.stepNo, c.erases, hk.ckpt.trans hc, hk.regs, hk.wp⟩

theorem execCheckpointStart_eq {s : State} (hc : s.md.ckpt = none) (hr : s.running = true) (hst : s.stage = 9) (hd : ckptDue s = true)
    (hpf : s.wp.pfail = false) (hs : s.md.sets ≠ []) : execCheckpointStart s = .next (if areaSmall s then
        (if s.flag Fld.mapCkptStsSmall then s else (s.putFlag Fld.mapCkptStsSmall true).logPacked uMAP 0x100F)
       else beginCkpt s) := by
  unfold execCheckpointStart
  rw [hc]
  dsimp only
  have hne : s.md.sets.isEmpty = false := by
    rw [List.isEmpty_eq_false_iff]
    exact hs
  rw [hr, hst, hd, hpf, hne]
  exact onlyIf_true _ _

/-! ## Commit -/

/-- The LUNs that hold a header copy: set, slot and LUN. -/
def headerLuns (s : State) : List (Nat × Nat × Nat) :=
  s.md.sets.flatMap fun e => (e.2.slots.zipIdx.filter fun x => s.online x.1).map fun x => (e.1, x.2, x.1)

theorem mem_headerLuns {s : State} {k : Nat} : k ∈ (headerLuns s).map (fun x => x.2.2) ↔ s.online k = true ∧ ∃ e ∈ s.md.sets, k ∈ e.2.slots := by
  simp only [headerLuns, List.mem_map, List.mem_flatMap, List.mem_filter]
  constructor
  · rintro ⟨_, ⟨e, he, y, ⟨hy, ho⟩, rfl⟩, rfl⟩
    exact ⟨ho, e, he, List.fst_mem_of_mem_zipIdx hy⟩
  · rintro ⟨ho, e, he, hk⟩
    obtain ⟨i, hi⟩ := List.mem_iff_getElem?.mp hk
    exact ⟨_, ⟨e, he, (k, i), ⟨List.mem_zipIdx_iff_getElem?.mpr hi, ho⟩, rfl⟩, rfl⟩

/-- The first page of an area on a LUN. -/
def headerPage (s : State) (area k : Nat) : Page := ⟨k, area * s.img.geo.ckptUnits * (s.profile k).planes, 0, true⟩

/-- Wants of a LUN that program its header copy. -/
def hasHeader (s t : State) (area k : Nat) : Prop := ∃ w ∈ (t.lun k).queue, w.why = .header k ∧ w.kind = 1 ∧ w.page = headerPage s area k

/-- Header copies queued: the checkpoint and the registers stay, and every LUN named has its program. -/
theorem queueHeaders_spec (s : State) (c : Ckpt) : ∀ (l : List (Nat × Nat × Nat)) (u : State), (∀ k, headerPage u c.area k = headerPage s c.area k) →
    CkptKept u (l.foldl (fun s x => queueHeader c x.1 x.2.1 x.2.2 s) u) ∧
      ∀ k, (hasHeader s u c.area k ∨ k ∈ l.map (fun x => x.2.2)) → hasHeader s (l.foldl (fun s x => queueHeader c x.1 x.2.1 x.2.2 s) u) c.area k
  | [], u, _ => ⟨CkptKept.refl u, fun k h => h.resolve_right (fun hn => absurd hn (List.not_mem_nil))⟩
  | x :: r, u, hpg => by
    obtain ⟨hk, hh⟩ := queueHeaders_spec s c r (queueHeader c x.1 x.2.1 x.2.2 u) (fun k => (show headerPage _ _ _ = headerPage u _ _ from rfl).trans (hpg k))
    rw [List.foldl_cons]
    have hx : CkptKept u (queueHeader c x.1 x.2.1 x.2.2 u) := ⟨rfl, rfl, rfl⟩
    refine ⟨hx.trans hk, fun k h => hh k ?_⟩
    by_cases hkx : k = x.2.2
    · left
      subst hkx
      exact mem_queue_enqueue (fun w => w.why = .header x.2.2 ∧ w.kind = 1 ∧ w.page = headerPage s c.area x.2.2) rfl u fun _ => ⟨rfl, rfl, hpg x.2.2⟩
    · obtain ⟨w, hw, hp⟩ | h := h
      · refine .inl ⟨w, ?_, hp⟩
        rw [queueHeader, enqueue, State.lun_modLun_ne]
        · exact hw
        · exact hkx
      · exact .inr ((List.mem_cons.mp h).resolve_left hkx)

theorem execCheckpointCommit_eq {s : State} {c : Ckpt} (hc : s.md.ckpt = some c) (hr : s.running = true) (hpf : s.wp.pfail = false) (h3 : c.stepNo = 3)
    (hn : ckptTiles s ≤ c.next) (hl : c.left = 0) : execCheckpointCommit s = .next ((headerLuns s).foldl (fun s x => queueHeader c x.1 x.2.1 x.2.2 s)
        (s.modCkpt fun c => { c with stepNo := 4, heads := (headerLuns s).map fun x => x.2.2 })) := by
  unfold execCheckpointCommit
  rw [hc]
  dsimp only
  rw [hr, hpf, decide_eq_true (And.intro h3 (And.intro hn hl))]
  exact onlyIf_true _ _

/-- Settles O36: the checkpoint begun by its first step, and the header copies by the fold that queues them. -/
theorem checkpointSteps : Obligations.CheckpointSteps := by
  unfold Obligations.CheckpointSteps
  intro s hr hpf
  refine ⟨fun hc hst hd hs => ⟨fun ha => ?_, fun ha => ?_⟩, fun c hc h3 hn hl => ?_⟩
  · obtain ⟨n, us, hk, hregs, hwp⟩ := firstStep_spec (ckptBegun_ckpt s) rfl
    refine ⟨ckptAdvance (ckptBegun s), _, ?_, hk, rfl, rfl, rfl, rfl, ?_, congrArg (fun w => w.streams) hwp, fun mt => mem_dirtyTiles⟩
    · refine (execCheckpointStart_eq hc hr hst hd hpf hs).trans ?_
      rw [ha]
      exact rfl
    · rw [State.flag_of_regs hregs]
      exact State.flag_putFlag _ _ rfl (by decide) _ _
  · have he := execCheckpointStart_eq hc hr hst hd hpf hs
    rw [ha, if_pos rfl] at he
    by_cases hf : s.flag Fld.mapCkptStsSmall = true
    · rw [if_pos hf] at he
      exact ⟨s, he, hf, rfl, fun _ => rfl⟩
    · rw [if_neg hf] at he
      refine ⟨_, he, ?_, rfl, fun h => absurd h hf⟩
      rw [State.flag_logPacked _ (by decide)]
      exact State.flag_putFlag _ _ rfl (by decide) _ _
  · obtain ⟨hk, hh⟩ := queueHeaders_spec s c (headerLuns s) (s.modCkpt fun c => { c with stepNo := 4, heads := (headerLuns s).map fun x => x.2.2 }) fun _ => rfl
    refine ⟨_, { c with stepNo := 4, heads := (headerLuns s).map fun x => x.2.2 }, execCheckpointCommit_eq hc hr hpf h3 hn hl, ?_, rfl, rfl, hk.regs,
      fun k => mem_headerLuns, fun k hm => hh k (.inr hm)⟩
    rw [hk.ckpt]
    show Option.map _ s.md.ckpt = _
    rw [hc]
    exact rfl

end Sys2Proof.Machine
end

section
/-! PROOFS. O37: map lookups, fills, tile loads, the cache's enable and its write-backs. -/
namespace Sys2Proof.Machine

/-! ## What a fetch moves (R391, R392) -/

/-- Two states apart in the map cache, its fills and their traffic alone. -/
def FetchOnly (s t : State) : Prop := t = { s with
  fab := t.fab
  pwr := t.pwr
  md := { s.md with
    cache := t.md.cache
    fills := t.md.fills
    fillWait := t.md.fillWait
    prefetch := t.md.prefetch
    lfsr := t.md.lfsr } }

namespace FetchOnly
variable {s t u : State}

theorem refl (s : State) : FetchOnly s s := rfl

theorem trans (h : FetchOnly s t) (g : FetchOnly t u) : FetchOnly s u := by
  unfold FetchOnly at *
  rw [g, h]

theorem of_mem (h : t = { s with fab := t.fab, pwr := t.pwr }) : FetchOnly s t := by
  unfold FetchOnly
  rw [h]

theorem foldl {β : Type} {f : State → β → State} (l : List β) (s : State) (h : ∀ s b, FetchOnly s (f s b)) : FetchOnly s (l.foldl f s) :=
  List.foldlRecOn l f (refl s) fun u hu b _ => hu.trans (h u b)

theorem regs (h : FetchOnly s t) : t.regs = s.regs := by rw [h]
theorem reqs (h : FetchOnly s t) : t.reqs = s.reqs := by rw [h]
theorem dir (h : FetchOnly s t) : t.md.dir = s.md.dir := by rw [h]
theorem pool (h : FetchOnly s t) : t.md.pool = s.md.pool := by rw [h]
theorem loads (h : FetchOnly s t) : t.md.loads = s.md.loads := by rw [h]
theorem lineAddr (h : FetchOnly s t) (line : Nat) : lineAddr t line = lineAddr s line := by rw [h]; exact rfl

theorem setLine (line : Nat) (l : MLine) (s : State) : FetchOnly s (s.setLine line l) := rfl
theorem delLine (line : Nat) (s : State) : FetchOnly s (s.delLine line) := rfl

theorem writeBack (line cls : Nat) (s : State) : FetchOnly s (writeBack line cls s) := by
  unfold Machine.writeBack
  split
  · exact (setLine _ _ s).trans (of_mem (dramWrite_rest _ _ _ _ _))
  · exact refl s

theorem readLine (line cls : Nat) (s : State) : FetchOnly s (readLine line cls s) := by
  unfold Machine.readLine
  split
  · have h : FetchOnly s { s with md := { s.md with fills := line :: s.md.fills } } := rfl
    exact h.trans (of_mem (dramRead_rest _ _ _ _ _))
  · exact refl s

theorem fetchLine (line cls : Nat) (prefetch : Bool) (s : State) : FetchOnly s (fetchLine line cls prefetch s) := by
  have hread : FetchOnly s (if prefetch then s else Machine.readLine line cls s) := by
    split
    · exact refl s
    · exact readLine line cls s
  unfold Machine.fetchLine
  dsimp only
  split
  · exact refl s
  · split
    · exact hread
    · split
      · exact hread
      · next w x _ =>
        have hp : FetchOnly s { s with md := { s.md with lfsr := x, prefetch := if prefetch then line :: s.md.prefetch else s.md.prefetch } } := rfl
        split
        · exact hp.trans ((setLine _ _ _).trans (readLine _ _ _))
        · next v l _ =>
          split
          · have hw : FetchOnly { s with md := { s.md with lfsr := x, prefetch := if prefetch then line :: s.md.prefetch else s.md.prefetch } }
              { s with md := { s.md with
                lfsr := x
                prefetch := if prefetch then line :: s.md.prefetch else s.md.prefetch
                fillWait := s.md.fillWait ++ [(line, v, cls)] } } := rfl
            exact hp.trans (hw.trans (writeBack _ _ _))
          · exact hp.trans ((delLine _ _).trans ((setLine _ _ _).trans (readLine _ _ _)))

end FetchOnly

/-! ## Lookups (R15, R388) -/

theorem State.tile_of_rq {s : State} {rtag : Nat} {q : Request} (h : s.rq rtag = some q) (i : Nat) : s.tile rtag i = q.tiles[i]? := by
  rw [State.tile, h]

theorem getElem?_setTile (i : Nat) (f : Tile → Tile) (l : List Tile) (j : Nat) :
    (setTile i f l)[j]? = (l[j]?).map fun x => if j = i then f x else x := by
  simp only [setTile, List.getElem?_map, List.getElem?_zipIdx, Option.map_map, Nat.zero_add]
  cases l[j]? with
  | none => rfl
  | some x => simp

theorem State.tile_modTile (s : State) (rtag i : Nat) (f : Tile → Tile) (r j : Nat) :
    (s.modTile rtag i f).tile r j = (s.tile r j).map fun x => if r = rtag ∧ j = i then f x else x := by
  show ((match Tab.find r (Tab.modify rtag (fun q => { q with tiles := setTile i f q.tiles }) s.reqs) with
    | none => none
    | some q => q.tiles[j]?) : Option Tile) = (s.tile r j).map _
  have hs : s.tile r j = ((Tab.find r s.reqs).bind fun q => q.tiles[j]?) := by
    show (match Tab.find r s.reqs with
      | none => none
      | some q => q.tiles[j]?) = _
    cases Tab.find r s.reqs <;> exact rfl
  rw [hs]
  by_cases hr : r = rtag
  · subst hr
    rw [Tab.find_modify_same]
    cases Tab.find r s.reqs with
    | none => exact rfl
    | some q => simpa using getElem?_setTile i f q.tiles j
  · rw [Tab.find_modify_ne hr]
    cases Tab.find r s.reqs with
    | none => exact rfl
    | some q => simp [hr]

/-- The conditions of a lookup (R15, R396). -/
def mayLookUp (s : State) (q : Request) (t : Tile) : Bool :=
  s.running && q.started && (q.opc == 1 || q.opc == 5) && t.outcome.isNone && !t.looked && !t.mapWait
    && !s.md.repair.contains t.lta && !((panCopy s t.lta).map fun e => e.2.back).getD false

theorem execMapLookup_pan {s : State} {rtag i slot : Nat} {q : Request} {x : Tile} {p : Pan} (hq : s.rq rtag = some q) (hx : q.tiles[i]? = some x)
    (hp : panCopy s x.lta = some (slot, p)) : execMapLookup rtag i s = onlyIf (mayLookUp s q x) s (readPan s q i slot p) := by
  unfold execMapLookup
  rw [hq, State.tile_of_rq hq, hx]
  dsimp only
  unfold mayLookUp
  rw [hp]

theorem execMapLookup_map {s : State} {rtag i : Nat} {q : Request} {x : Tile} (hq : s.rq rtag = some q) (hx : q.tiles[i]? = some x)
    (hp : panCopy s x.lta = none) (hopc : q.opc = 5) : execMapLookup rtag i s = onlyIf (mayLookUp s q x) s (lookupTile rtag i x.lta q.order s) := by
  unfold execMapLookup
  rw [hq, State.tile_of_rq hq, hx]
  dsimp only
  unfold mayLookUp
  rw [hp, hopc]
  exact rfl

/-- The host read's job for a pan copy. -/
def panHostJob (s : State) (q : Request) (i slot : Nat) : Job :=
  { path := .panHost q.rtag i slot
    prio := classPrio q.order
    vc := q.order
    port := s.nextPort.1
    age := q.rtag
    prog := [moveWord false 0 0 0 0 4095 0 (slotAddr s.img.hold.panBase (s.img.hold.panSize / 4160) slot), waitRespWord ||| iput 123 1]
    init := []
    crypt := none
    c0 := false }

/-- A tile that is read from a pan slot. -/
def tileOfPan (s : State) (rtag i slot : Nat) : State := s.modTile rtag i fun t => { t with looked := true, panSlot := some slot }

theorem readPan_eq {s : State} {q : Request} {i slot : Nat} {p : Pan} (h : p.st ≠ 0x1F) :
    readPan s q i slot p = ((tileOfPan s q.rtag i slot).nextPort.2).queueJob (panHostJob (tileOfPan s q.rtag i slot) q i slot) := by
  unfold readPan
  dsimp only
  rw [if_neg h]
  exact rfl

theorem queueNext_rest (s : State) (j : Job) :
    (s.nextPort.2).queueJob j = { s with mov := { s.mov with rot := s.mov.rot + 1, jobs := s.mov.jobs ++ [j] } } := rfl

/-- The line read for a lookup that misses, where a way is free or the cache takes none. -/
theorem fetchLine_reads {s : State} {line cls : Nat} (hm : demandMap s = false) (hf : line ∉ s.md.fills) (hw : ∀ e ∈ s.md.fillWait, e.1 ≠ line)
    (hway : cacheFills s = true → ∃ w, w < 16 ∧ ∀ e ∈ s.md.cache, e.1 % 16384 = line % 16384 → e.2.way ≠ w) :
    (fetchLine line cls false s).md.fills = line :: s.md.fills := by
  have hread {t : State} (ht : FetchOnly s t) (htf : t.md.fills = s.md.fills) : (readLine line cls t).md.fills = line :: s.md.fills := by
    have ha : lineAddr t line = some (s.img.geo.mapBase + 64 * line) := by
      rw [ht.lineAddr, lineAddr, hm]
      exact rfl
    unfold readLine
    rw [ha]
    dsimp only
    rw [dramRead_rest, htf]
  unfold fetchLine
  rw [if_neg (by
    rw [Bool.or_eq_true, List.contains_iff_mem, List.any_eq_true]
    rintro (h | ⟨e, he, hl⟩)
    · exact hf h
    · exact hw e he (beq_iff_eq.mp hl))]
  cases hc : cacheFills s with
  | false => exact hread (FetchOnly.refl s) rfl
  | true =>
    obtain ⟨w, hw16, hfree⟩ := hway hc
    rw [if_neg (by decide)]
    dsimp only
    have hsome : ((List.range 16).find? fun w => !(cacheSet s line).any fun e => e.2.way == w).isSome = true := by
      rw [List.find?_isSome]
      refine ⟨w, List.mem_range.mpr hw16, ?_⟩
      rw [Bool.not_eq_true', List.any_eq_false]
      intro e he hb
      obtain ⟨hmem, hset⟩ := List.mem_filter.mp he
      exact hfree e hmem (beq_iff_eq.mp hset) (beq_iff_eq.mp hb)
    obtain ⟨v, hv⟩ := Option.isSome_iff_exists.mp hsome
    rw [hv]
    dsimp only
    have hnone : (cacheSet s line).find? (fun e => e.2.way == v) = none := by
      have hn := List.find?_some hv
      rw [Bool.not_eq_true', List.any_eq_false] at hn
      exact List.find?_eq_none.mpr hn
    rw [hnone]
    have hp : FetchOnly s { s with md := { s.md with lfsr := s.md.lfsr, prefetch := if false = true then line :: s.md.prefetch else s.md.prefetch } } := rfl
    exact hread (hp.trans (FetchOnly.setLine line { way := v, ents := [] } _)) rfl

end Sys2Proof.Machine
end

section
/-! PROOFS. O37, continued: fills, tile loads, the cache's enable and its write-backs. -/
namespace Sys2Proof.Machine

/-! ## The answer to a fill (R391, R395) -/

/-- Two states apart in the fabric and in whether the DRAM has answered. -/
def AnswerOnly (s t : State) : Prop := t = { s with
  fab := t.fab
  pwr := t.pwr
  md := { s.md with dramOk := t.md.dramOk } }

/-- The state in which an answered DRAM request has been taken. -/
def answerTaken (code : RCode) (t : State) : State := dramSeen code (releaseHeld t)

theorem answerTaken_only {p : Purpose} {s t : State} {o : Outst} (h : takeOutst p s = some (o, t)) (code : RCode) : AnswerOnly s (answerTaken code t) := by
  have ht := takeOutst_state h
  have hr := releaseHeld_rest t
  unfold AnswerOnly answerTaken dramSeen
  split
  · rw [hr, ht]
  · rw [hr, ht]

theorem codeTaken_of_ne (o : Outst) {code : RCode} (h : code ≠ .reserved) (s : State) : codeTaken o code s = (code, s) := if_neg h

theorem execMapFillDone_eq {s t : State} {line : Nat} {o : Outst} (h : takeOutst (.mapFill line) s = some (o, t)) (hc : s.coreOn = true) {code : RCode}
    (hcode : code ≠ .reserved) (data : List Byte) : execMapFillDone line code data s = .next (fillDone line code data (answerTaken code t)) := by
  unfold execMapFillDone
  rw [h]
  dsimp only
  rw [codeTaken_of_ne o hcode, hc]
  exact onlyIf_true _ _

/-- A fill that nothing waits for fills its line. -/
theorem fillDone_line {s : State} {line : Nat} {l : MLine} (hl : Tab.find line s.md.cache = some l) (he : l.ents = []) (hu : ∀ u ∈ s.md.upds, u.lta / 8 ≠ line)
    (hw : ∀ w ∈ waiters s, w.2.2 / 8 ≠ line) (hp : ∀ a ∈ probeLtas s, a / 8 ≠ line) (data : List Byte) :
    Tab.find line (fillDone line .ok data s).md.cache = some { l with ents := lineEnts s line data } ∧
      (fillDone line .ok data s).md.fills = s.md.fills.erase line ∧ (fillDone line .ok data s).regs = s.regs := by
  have hus : (s.md.upds.filter fun u => u.lta / 8 == line) = [] := List.filter_eq_nil_iff.mpr fun u hm => by
    rw [beq_iff_eq]
    exact hu u hm
  have hws : ((waiters s).filter fun x => x.2.2 / 8 == line) = [] := List.filter_eq_nil_iff.mpr fun w hm => by
    rw [beq_iff_eq]
    exact hw w hm
  have hps : ((probeLtas s).filter fun x => x / 8 == line) = [] := List.filter_eq_nil_iff.mpr fun w hm => by
    rw [beq_iff_eq]
    exact hp w hm
  let v : State := ({ s with md := { s.md with fills := s.md.fills.erase line, prefetch := s.md.prefetch.erase line } }).setLine line
    { l with ents := lineEnts s line data }
  let f : State := { v with md := { v.md with upds := s.md.upds.filter fun u => u.lta / 8 != line } }
  have hf : fillDone line .ok data s = f := by
    unfold fillDone
    dsimp only
    rw [hl, hus]
    dsimp only
    rw [he]
    show ((probeLtas (List.foldl _ f ((waiters s).filter fun x => x.2.2 / 8 == line))).filter fun l => l / 8 == line).foldl _
      (List.foldl _ f ((waiters s).filter fun x => x.2.2 / 8 == line)) = f
    rw [hws]
    show ((probeLtas s).filter fun l => l / 8 == line).foldl _ f = f
    rw [hps]
    exact rfl
  rw [hf]
  exact ⟨Tab.find_put_same _ _ _, rfl, rfl⟩

/-- A wait for a map entry, ended. -/
def endWait (x : Nat × Nat × Nat) (s : State) : State := s.modTile x.1 x.2.1 fun t => { t with mapWait := false }

/-- Waits ended in order: each tile named waits no more, and nothing but the requests changes. -/
theorem endWaits_spec : ∀ (l : List (Nat × Nat × Nat)) (s : State), (l.foldl (fun s x => endWait x s) s) = { s with reqs := (l.foldl (fun s x => endWait x s) s).reqs } ∧
      ∀ r i, ((r, i) ∈ l.map (fun x => (x.1, x.2.1)) ∨ ∀ y, s.tile r i = some y → y.mapWait = false) →
        ∀ y, (l.foldl (fun s x => endWait x s) s).tile r i = some y → y.mapWait = false
  | [], s => ⟨rfl, fun r i h y hy => (h.resolve_left (List.not_mem_nil)) y hy⟩
  | x :: l, s => by
    obtain ⟨hr, ht⟩ := endWaits_spec l (endWait x s)
    rw [List.foldl_cons]
    refine ⟨by rw [hr]; exact rfl, fun r i h => ht r i ?_⟩
    have hx : ∀ y, (endWait x s).tile r i = some y → (∀ z, s.tile r i = some z → z.mapWait = false) ∨ (r = x.1 ∧ i = x.2.1) → y.mapWait = false := by
      intro y hy hor
      rw [endWait, State.tile_modTile] at hy
      obtain ⟨z, hz, rfl⟩ := Option.map_eq_some_iff.mp hy
      split
      · exact rfl
      · next hne => exact (hor.resolve_right hne) z hz
    obtain h | h := h
    · obtain ⟨a, ha, he⟩ := List.mem_map.mp h
      obtain rfl | ha := List.mem_cons.mp ha
      · obtain ⟨rfl, rfl⟩ := Prod.mk.inj he
        exact .inr fun y hy => hx y hy (.inr ⟨rfl, rfl⟩)
      · exact .inl (List.mem_map.mpr ⟨a, ha, he⟩)
    · exact .inr fun y hy => hx y hy (.inl h)

theorem mem_markRepair {l : List Nat} {s : State} {x : Nat} (h : x ∈ l) : x ∈ (markRepair l s).md.repair := by
  show x ∈ s.md.repair ++ l.filter fun y => !s.md.repair.contains y
  by_cases hm : x ∈ s.md.repair
  · exact List.mem_append_left _ hm
  · exact List.mem_append_right _ (List.mem_filter.mpr ⟨h, by simpa using hm⟩)

/-- A fill that fails puts its line's LTAs under repair, and its tiles wait for that. -/
theorem fillDone_dataerr (s : State) (line : Nat) (data : List Byte) : Tab.find line (fillDone line .dataerr data s).md.cache = none ∧
    (fillDone line .dataerr data s).regs = s.regs ∧ (∀ k, k < 8 → 8 * line + k ∈ (fillDone line .dataerr data s).md.repair) ∧
    ∀ w ∈ waiters s, w.2.2 / 8 = line → ∀ y, (fillDone line .dataerr data s).tile w.1 w.2.1 = some y → y.mapWait = false := by
  let u : State := { s with md := { s.md with fills := s.md.fills.erase line, prefetch := s.md.prefetch.erase line } }
  let v : State := if (Tab.find line s.md.cache).isSome then u.delLine line else u
  let ws := (waiters s).filter fun x => x.2.2 / 8 == line
  have hf : fillDone line .dataerr data s = markRepair ((List.range 8).map (8 * line + ·)) (ws.foldl (fun s x => endWait x s) v) := rfl
  have hv : Tab.find line v.md.cache = none ∧ v.regs = s.regs := by
    show Tab.find line (if _ then _ else _ : State).md.cache = none ∧ (if _ then _ else _ : State).regs = s.regs
    split
    · exact ⟨Tab.find_del_same _ _, rfl⟩
    · next h => exact ⟨Option.not_isSome_iff_eq_none.mp h, rfl⟩
  obtain ⟨hrest, htile⟩ := endWaits_spec ws v
  rw [hf]
  refine ⟨?_, ?_, fun k hk => mem_markRepair (List.mem_map.mpr ⟨k, List.mem_range.mpr hk, rfl⟩), fun w hw hl => ?_⟩
  · show Tab.find line (ws.foldl (fun s x => endWait x s) v).md.cache = none
    rw [hrest]
    exact hv.1
  · show (ws.foldl (fun s x => endWait x s) v).regs = s.regs
    rw [hrest]
    exact hv.2
  · exact htile w.1 w.2.1 (.inl (List.mem_map.mpr ⟨w, List.mem_filter.mpr ⟨hw, beq_iff_eq.mpr hl⟩, rfl⟩))

/-! ## A map tile loaded (R388) -/

theorem execMapTileLoadDone_eq {s t : State} {mt : Nat} {o : Outst} (h : takeOutst (.mapTile mt) s = some (o, t)) (hc : s.coreOn = true) (hh : s.fab.held = [])
    (hw : tileWritesOut mt t = false) : execMapTileLoadDone mt .ok s = .next (tileLoaded mt .ok (answerTaken .ok t)) := by
  have hheld : t.fab.held = [] := by
    rw [takeOutst_state h]
    exact hh
  have hout : tileWritesOut mt (answerTaken .ok t) = false := by
    rw [answerTaken, releaseHeld_nil hheld]
    exact hw
  unfold execMapTileLoadDone
  rw [h]
  dsimp only
  rw [codeTaken_of_ne o (by decide), hc]
  refine (onlyIf_true _ _).trans (congrArg Host.Outcome.next ?_)
  show (if (tileWritesOut mt (answerTaken .ok t) && _) = true then _ else _) = _
  rw [hout]
  exact rfl

theorem tileLoaded_spec {s : State} {mt p : Nat} (h : Tab.find mt s.md.loads = some p) : ((tileLoaded mt .ok s).dirOf mt).slot = some p ∧
    Tab.find p (tileLoaded mt .ok s).md.pool = some mt ∧ Tab.find mt (tileLoaded mt .ok s).md.loads = none := by
  let u : State := { s with md := { s.md with loads := Tab.del mt s.md.loads } }
  let d : State := u.modDir mt fun d => { d with slot := some p }
  let v : State := { d with md := { d.md with pool := Tab.put p mt d.md.pool } }
  have hd : Tab.find mt d.md.loads = none := by
    show Tab.find mt (u.modDir mt fun d => { d with slot := some p }).md.loads = none
    unfold State.modDir
    dsimp only
    split
    · exact Tab.find_del_same _ _
    · rw [dramWrite_rest]
      exact Tab.find_del_same _ _
  have hv : FetchOnly v (tileLoaded mt .ok s) := by
    unfold tileLoaded
    rw [h]
    dsimp only
    rw [if_pos rfl]
    exact (FetchOnly.foldl _ _ fun s x => FetchOnly.fetchLine _ _ _ s).trans (FetchOnly.foldl _ _ fun s x => FetchOnly.fetchLine _ _ _ s)
  refine ⟨?_, ?_, ?_⟩
  · rw [State.dirOf, hv.dir]
    exact congrArg Dir.slot (modDir_spec mt (fun d => { d with slot := some p }) u).2
  · rw [hv.pool]
    exact Tab.find_put_same _ _ _
  · rw [hv.loads]
    exact hd

end Sys2Proof.Machine
end

section
/-! PROOFS. O37, concluded: the cache's enable, a write-back's retry, and the statement. -/
namespace Sys2Proof.Machine

/-! ## Write-backs (R394) -/

/-- A line that is being written back. -/
def MLine.writing (l : MLine) : MLine := { l with dirty := false, wb := true, wbFail := none }

theorem writeBack_eq {s : State} {line a : Nat} {l : MLine} (hl : Tab.find line s.md.cache = some l) (ha : lineAddr s line = some a) (cls : Nat) :
    writeBack line cls s = dramWrite a cls (entsBytes l.ents) (.mapWrite line) (s.setLine line l.writing) := by
  unfold writeBack
  rw [hl, ha]
  exact rfl

theorem writeBack_line {s : State} {line a : Nat} {l : MLine} (hl : Tab.find line s.md.cache = some l) (ha : lineAddr s line = some a) (cls : Nat) :
    Tab.find line (writeBack line cls s).md.cache = some l.writing := by
  rw [writeBack_eq hl ha, dramWrite_rest]
  exact Tab.find_put_same _ _ _

theorem writeBack_other {s : State} {line k : Nat} (h : line ≠ k) (cls : Nat) : Tab.find line (writeBack k cls s).md.cache = Tab.find line s.md.cache := by
  unfold writeBack
  split
  · dsimp only
    rw [dramWrite_rest]
    exact Tab.find_put_ne h _ _
  · exact rfl

/-- Every line named is written back. -/
theorem writeBacks_line {line : Nat} {l : MLine} : ∀ (ls : List Nat) (s : State), (lineAddr s line).isSome = true →
    (Tab.find line s.md.cache = some l.writing ∨ (Tab.find line s.md.cache = some l ∧ line ∈ ls)) →
    Tab.find line (ls.foldl (fun s k => writeBack k 3 s) s).md.cache = some l.writing
  | [], s, _, h => h.resolve_right fun h => absurd h.2 (List.not_mem_nil)
  | k :: ls, s, ha, h => by
    rw [List.foldl_cons]
    refine writeBacks_line ls (writeBack k 3 s) (by rw [(FetchOnly.writeBack k 3 s).lineAddr]; exact ha) ?_
    by_cases hk : line = k
    · subst hk
      obtain ⟨a, ha⟩ := Option.isSome_iff_exists.mp ha
      obtain h | ⟨h, _⟩ := h
      · exact .inl (writeBack_line h ha 3)
      · exact .inl (writeBack_line h ha 3)
    · rw [writeBack_other hk]
      exact h.imp id fun h => ⟨h.1, (List.mem_cons.mp h.2).resolve_left hk⟩

/-! ## Disabling and enabling the cache -/

/-- The state as the cache is turned off: every dirty line is written back. -/
def cacheClosing (s : State) : State :=
  let s := (s.putFlag Fld.mapCcCtlEn false).putFlag Fld.mapCcStsFlushing true
  ((s.md.cache.filter fun e => e.2.dirty).map (·.1)).foldl (fun s l => writeBack l 3 s) s

theorem ccCtlWrite_off {s : State} {w : Word} (h0 : Fld.mapCcCtlEn.get w = 0) (hf : cacheFlushing s = false) (he : cacheEn s = true) :
    ccCtlWrite w s = flushEnd (cacheClosing s) := by
  unfold ccCtlWrite
  dsimp only
  rw [hf, if_neg (by decide), if_neg (by rw [h0]; decide), if_pos he]
  exact rfl

theorem cacheClosing_fetch (s : State) : FetchOnly ((s.putFlag Fld.mapCcCtlEn false).putFlag Fld.mapCcStsFlushing true) (cacheClosing s) :=
  FetchOnly.foldl _ _ fun s l => FetchOnly.writeBack l 3 s

theorem cacheClosing_en (s : State) : (cacheClosing s).flag Fld.mapCcCtlEn = false := by
  rw [State.flag_of_regs (cacheClosing_fetch s).regs, State.flag_putFlag_kind _ (by decide)]
  exact State.flag_putFlag _ _ rfl (by decide) _ _

theorem cacheClosing_flushing (s : State) : (cacheClosing s).flag Fld.mapCcStsFlushing = true := by
  rw [State.flag_of_regs (cacheClosing_fetch s).regs]
  exact State.flag_putFlag _ _ rfl (by decide) _ _

theorem cacheClosing_enAfter (s : State) : (cacheClosing s).md.enAfter = s.md.enAfter := by
  rw [cacheClosing_fetch s]
  exact rfl

theorem cacheClosing_resps (s : State) : (cacheClosing s).resps = s.resps := by
  rw [cacheClosing_fetch s]
  exact rfl

theorem cacheClosing_clean {s : State} (h : ∀ e ∈ s.md.cache, e.2.dirty = false) : (cacheClosing s).md.cache = s.md.cache := by
  have hn : (s.md.cache.filter fun (e : Nat × MLine) => e.2.dirty) = [] := List.filter_eq_nil_iff.mpr fun e he => by rw [h e he]; decide
  unfold cacheClosing
  show (List.foldl (fun (s : State) l => writeBack l 3 s) _ ((s.md.cache.filter fun (e : Nat × MLine) => e.2.dirty).map fun e => e.1)).md.cache = _
  rw [hn]
  exact rfl

theorem cacheClosing_line {s : State} {line : Nat} {l : MLine} (hl : Tab.find line s.md.cache = some l) (hd : l.dirty = true)
    (ha : (lineAddr s line).isSome = true) : Tab.find line (cacheClosing s).md.cache = some l.writing := by
  refine writeBacks_line _ _ ?_ (.inr ⟨hl, List.mem_map.mpr ⟨(line, l), List.mem_filter.mpr ⟨Tab.mem_of_find hl, hd⟩, rfl⟩⟩)
  have hm : demandMap ((s.putFlag Fld.mapCcCtlEn false).putFlag Fld.mapCcStsFlushing true) = demandMap s := by
    rw [demandMap, State.flag_putFlag_kind _ (by decide), State.flag_putFlag_kind _ (by decide)]
    exact rfl
  rw [lineAddr, hm]
  exact ha

/-- The flush's end: nothing dirty and nothing on its way, or the flush runs on. -/
theorem flushEnd_done {s : State} (hf : cacheFlushing s = true) (h : ∀ e ∈ s.md.cache, e.2.dirty = false ∧ e.2.wb = false) :
    flushEnd s = { (s.putFlag Fld.mapCcStsFlushing false).putFlag Fld.mapCcCtlEn s.md.enAfter with md := { s.md with cache := [], enAfter := false } } := by
  have hn : (s.md.cache.any fun (e : Nat × MLine) => e.2.dirty || e.2.wb) = false := by
    rw [List.any_eq_false]
    intro e he
    rw [(h e he).1, (h e he).2]
    decide
  unfold flushEnd
  rw [hf, hn]
  exact rfl

theorem flushEnd_runs {s : State} {e : Nat × MLine} (he : e ∈ s.md.cache) (hw : e.2.wb = true) : flushEnd s = s := by
  have hn : (s.md.cache.any fun (e : Nat × MLine) => e.2.dirty || e.2.wb) = true := List.any_eq_true.mpr ⟨e, he, by rw [hw, Bool.or_true]⟩
  unfold flushEnd
  rw [hn, Bool.not_true, Bool.and_false]
  exact if_neg Bool.false_ne_true

theorem flushEnd_en {s : State} (he : s.flag Fld.mapCcCtlEn = false) (ha : s.md.enAfter = false) : (flushEnd s).flag Fld.mapCcCtlEn = false := by
  unfold flushEnd
  split
  · refine (State.flag_of_regs (s := (s.putFlag Fld.mapCcStsFlushing false).putFlag Fld.mapCcCtlEn s.md.enAfter) rfl _ _).trans ?_
    exact (State.flag_putFlag _ _ rfl (by decide) _ _).trans ha
  · exact he

theorem flushEnd_resps (s : State) : (flushEnd s).resps = s.resps := by
  unfold flushEnd
  split
  · exact rfl
  · exact rfl

theorem exec_mapCcDisable {s : State} {r : Req} {w : Word} (hw : Written s r .mapCcCtl 0 w) (hs : Steady s) (h0 : Fld.mapCcCtlEn.get w = 0)
    (hf : cacheFlushing s = false) (he : cacheEn s = true) :
    exec (.mapCcDisable r w) s = .next ((flushEnd (cacheClosing s)).respondWrite r .ok) := by
  show execMapCcDisable r w s = _
  rw [execMapCcDisable, regWrite_pass hw hs, ccCtlWrite_off h0 hf he, decide_eq_true h0]
  exact onlyIf_true _ _

theorem exec_mapCcEnable {s : State} {r : Req} {w : Word} (hw : Written s r .mapCcCtl 0 w) (hs : Steady s) (h1 : Fld.mapCcCtlEn.get w = 1) :
    exec (.mapCcEnable r w) s = .next ((ccCtlWrite w s).respondWrite r .ok) := by
  show execMapCcEnable r w s = _
  rw [execMapCcEnable, regWrite_pass hw hs, decide_eq_true h1]
  exact onlyIf_true _ _

theorem ccCtlWrite_on {s : State} {w : Word} (h1 : Fld.mapCcCtlEn.get w = 1) :
    ccCtlWrite w s = if cacheFlushing s then { s with md := { s.md with enAfter := true } } else s.putFlag Fld.mapCcCtlEn true := by
  unfold ccCtlWrite
  dsimp only
  rw [decide_eq_true h1, if_pos h1]

theorem execWritebackRetry_eq {s : State} {line t0 : Nat} {l : MLine} (hr : s.running = true) (hl : Tab.find line s.md.cache = some l)
    (hf : l.wbFail = some t0) (hd : l.dirty = true) (ht : t0 + 1000000 ≤ s.now) : execWritebackRetry line s = .next (writeBack line 3 s) := by
  unfold execWritebackRetry
  rw [hl]
  dsimp only
  rw [hf]
  dsimp only
  rw [hr, hd, decide_eq_true ht]
  exact onlyIf_true _ _

theorem dramWrite_fab (a cls : Nat) (data : List Byte) (p : Purpose) (s : State) :
    (dramWrite a cls data p s).fab = fabIssueAll s.now s.fab (dramReqs cls a data p) := State.issueAll_fab _ _

/-! ## A miss -/

/-- A tile that waits for its line: the miss is counted. -/
def missNoted (rtag i : Nat) (s : State) : State := (s.inc Fld.mapCcMissMiss).modTile rtag i fun t => { t with mapWait := true }

theorem lookupTile_miss {s : State} {rtag i lta cls : Nat} (hm : demandMap s = false) (hc : cacheHas s (lta / 8) = none) :
    lookupTile rtag i lta cls s = fetchLine (lta / 8) cls false (missNoted rtag i s) := by
  have hmn : demandMap (missNoted rtag i s) = false := (State.flag_inc_kind s (by decide) 0 1 0).trans hm
  unfold lookupTile
  dsimp only
  rw [hc]
  show (if demandMap (missNoted rtag i s) = true then _ else _) = _
  rw [hmn]
  exact rfl

theorem cacheFills_missNoted (rtag i : Nat) (s : State) : cacheFills (missNoted rtag i s) = cacheFills s := by
  have hf {f : Fld} (h : f.kind ≠ Fld.mapCcMissMiss.kind) : (missNoted rtag i s).flag f = s.flag f := State.flag_inc_kind s h 0 1 0
  rw [cacheFills, cacheEn, cacheFlushing, hf (by decide), hf (by decide)]
  exact rfl

/-- Settles O37: each command by the equation of its case. -/
theorem mapLookupsAndCache : Obligations.MapLookupsAndCache := by
  unfold Obligations.MapLookupsAndCache
  refine ⟨fun s rtag i q x hr hq hrt hx hst hopc ho hlk hmw hrep => ?_, fun s line o t0 data hto hc => ⟨fun l hl he hu hw hp => ?_, ?_⟩,
    fun s mt p o t0 hto hc hh hw hp => ?_, fun s r w hw hs => ⟨fun h0 hf he hwb hen => ?_, fun h1 => ?_⟩, fun s line l t0 a hr hl hf hd ht ha => ?_⟩
  · have hmay (hb : ((panCopy s x.lta).map fun e => e.2.back).getD false = false) : mayLookUp s q x = true := by
      have ho5 : (q.opc == 1 || q.opc == 5) = true := by
        rw [Bool.or_eq_true, beq_iff_eq, beq_iff_eq]
        exact hopc
      unfold mayLookUp
      rw [hr, hst, ho5, ho, hlk, hmw, hb, List.contains_eq_mem, decide_eq_false hrep]
      exact rfl
    refine ⟨fun slot p hp hb => ?_, fun slot p hp hb h1f => ?_, fun hp h5 hdm hch hnf hfw hway => ?_⟩
    · show execMapLookup rtag i s = _
      rw [execMapLookup_pan hq hx hp, mayLookUp, hp]
      show onlyIf (_ && !p.back) _ _ = _
      rw [hb, Bool.not_true, Bool.and_false]
      exact onlyIf_false _ _
    · have hm := hmay (by rw [hp]; exact hb)
      refine ⟨((tileOfPan s q.rtag i slot).nextPort.2).queueJob (panHostJob (tileOfPan s q.rtag i slot) q i slot),
        panHostJob (tileOfPan s q.rtag i slot) q i slot, ?_, rfl, congrArg (fun r => JobPath.panHost r i slot) hrt, ?_, rfl⟩
      · show execMapLookup rtag i s = _
        rw [execMapLookup_pan hq hx hp, hm, readPan_eq h1f]
        exact onlyIf_true _ _
      · show (tileOfPan s q.rtag i slot).tile rtag i = _
        rw [tileOfPan, State.tile_modTile, State.tile_of_rq hq, hx, hrt]
        exact congrArg some (if_pos ⟨rfl, rfl⟩)
    · have hm := hmay (by rw [hp]; exact rfl)
      have hfo := FetchOnly.fetchLine (x.lta / 8) q.order false (missNoted rtag i s)
      refine ⟨fetchLine (x.lta / 8) q.order false (missNoted rtag i s), ?_, ?_, ?_, ?_, ?_⟩
      · show execMapLookup rtag i s = _
        rw [execMapLookup_map hq hx hp h5, hm, lookupTile_miss hdm hch]
        exact onlyIf_true _ _
      · rw [State.tile, State.rq, hfo.reqs]
        show (missNoted rtag i s).tile rtag i = _
        rw [missNoted, State.tile_modTile]
        show (s.tile rtag i).map _ = _
        rw [State.tile_of_rq hq, hx]
        exact congrArg some (if_pos ⟨rfl, rfl⟩)
      · refine fetchLine_reads ((State.flag_inc_kind s (by decide) 0 1 0).trans hdm) hnf hfw ?_
        rw [cacheFills_missNoted]
        exact hway
      · rw [State.get_of_regs hfo.regs]
        exact State.get_inc_same s _ (by decide) 0 1
      · intro k i' hk
        rw [State.reg_of_regs hfo.regs]
        exact otherRegs_put s Fld.mapCcMissMiss _ 0 k i' hk
  · have ha := answerTaken_only hto .ok
    obtain ⟨hline, hfills, hregs⟩ := fillDone_line (s := answerTaken .ok t0) (line := line) (l := l) (by rw [ha]; exact hl) he (by rw [ha]; exact hu)
      (by rw [ha]; exact hw) (by rw [ha]; exact hp) data
    refine ⟨_, execMapFillDone_eq hto hc (by decide) data, ?_, ?_, ?_⟩
    · rw [hline, ha]
      exact rfl
    · rw [hfills, ha]
    · rw [hregs, ha]
  · have ha := answerTaken_only hto .dataerr
    obtain ⟨hline, hregs, hrep, hwait⟩ := fillDone_dataerr (answerTaken .dataerr t0) line data
    refine ⟨_, execMapFillDone_eq hto hc (by decide) data, hline, ?_, hrep, fun w hw => hwait w ?_⟩
    · rw [hregs, ha]
    · rw [ha]
      exact hw
  · refine ⟨_, execMapTileLoadDone_eq hto hc hh hw, tileLoaded_spec ?_⟩
    rw [answerTaken_only hto .ok]
    exact hp
  · refine ⟨_, exec_mapCcDisable hw hs h0 hf he, ?_, ?_, fun hd => ?_, fun line l hl hd ha => ?_⟩
    · exact respondWrite_resps_of_eq ((flushEnd_resps _).trans (cacheClosing_resps s)) r
    · rw [State.flag_respondWrite]
      exact flushEnd_en (cacheClosing_en s) ((cacheClosing_enAfter s).trans hen)
    · have hdone := flushEnd_done (cacheClosing_flushing s) (by
        rw [cacheClosing_clean hd]
        exact fun e he => ⟨hd e he, hwb e he⟩)
      rw [State.flag_respondWrite, hdone, State.respondWrite_eq]
      refine ⟨rfl, ?_⟩
      refine (State.flag_of_regs (s := ((cacheClosing s).putFlag Fld.mapCcStsFlushing false).putFlag Fld.mapCcCtlEn (cacheClosing s).md.enAfter) rfl _ _).trans ?_
      rw [State.flag_putFlag_kind _ (by decide)]
      exact State.flag_putFlag _ _ rfl (by decide) _ _
    · have hl' := cacheClosing_line hl hd ha
      rw [State.flag_respondWrite, flushEnd_runs (Tab.mem_of_find hl') rfl, State.respondWrite_eq]
      exact ⟨hl', cacheClosing_flushing s⟩
  · refine ⟨_, exec_mapCcEnable hw hs h1, respondWrite_resps_of_eq ?_ r, fun hf => ?_, fun hf => ?_⟩
    · rw [ccCtlWrite_on h1]
      split
      · exact rfl
      · exact rfl
    · rw [ccCtlWrite_on h1, hf, if_neg (by decide), State.flag_respondWrite]
      refine ⟨State.flag_putFlag _ _ rfl (by decide) _ _, (otherRegs_putFlag s Fld.mapCcCtlEn true 0).respondWrite r .ok, ?_⟩
      rw [State.respondWrite_eq]
      exact rfl
    · rw [ccCtlWrite_on h1, hf, if_pos rfl, State.respondWrite_eq]
      exact ⟨rfl, rfl⟩
  · refine ⟨_, execWritebackRetry_eq hr hl hf hd ht, writeBack_line hl ha 3, ?_, (FetchOnly.writeBack line 3 s).regs⟩
    rw [DramWritten, writeBack_eq hl ha, dramWrite_fab]
    exact rfl

end Sys2Proof.Machine
end

section
/-! PROOFS. O38: the overlay's merge and the repair of a line. -/
namespace Sys2Proof.Machine

/-! ## What a read of a codeword moves when it starts (R260, R298) -/

/-- Two states apart in the reads, the LUNs' queues, the gauge lines' use, the fabric and the registers alone. -/
def RdOnly (s t : State) : Prop := t = { s with
  regs := t.regs
  fab := t.fab
  pwr := t.pwr
  md := { s.md with
    rds := t.md.rds
    rdNext := t.md.rdNext
    luns := t.md.luns
    gauge := t.md.gauge
    gaugeT := t.md.gaugeT } }

namespace RdOnly
variable {s t u : State}

theorem refl (s : State) : RdOnly s s := rfl

theorem trans (h : RdOnly s t) (g : RdOnly t u) : RdOnly s u := by
  unfold RdOnly at *
  rw [g, h]

theorem of_mem (h : t = { s with fab := t.fab, pwr := t.pwr }) : RdOnly s t := by
  unfold RdOnly
  rw [h]

theorem foldl {β : Type} {f : State → β → State} (l : List β) (s : State) (h : ∀ s b, RdOnly s (f s b)) : RdOnly s (l.foldl f s) :=
  List.foldlRecOn l f (refl s) fun u hu b _ => hu.trans (h u b)

theorem modRd (s : State) (id : Nat) (f : Rd → Rd) : RdOnly s (s.modRd id f) := rfl
theorem addRd (s : State) (r : Rd) : RdOnly s (s.addRd r).2 := rfl
theorem enqueue (w : Want) (s : State) : RdOnly s (enqueue w s) := rfl
theorem gaugeTouch (key : Nat) (s : State) : RdOnly s (gaugeTouch key s) := rfl

theorem placePlain (id : Nat) (front : Bool) (s : State) : RdOnly s (placePlain id front s) := by
  unfold Machine.placePlain
  split
  · exact refl s
  · exact (modRd _ _ _).trans (enqueue _ _)

theorem withGauge {go : State → State} (id : Nat) (s : State) (h : ∀ s, RdOnly s (go s)) : RdOnly s (withGauge id go s) := by
  unfold Machine.withGauge
  split
  · exact refl s
  · split
    · exact (gaugeTouch _ _).trans (h _)
    · dsimp only
      split
      · exact modRd _ _ _
      · exact (modRd _ _ _).trans (of_mem (dramRead_rest _ _ _ _ _))

theorem askPartner (id set n : Nat) (x : Grp) (row q pos cls rtag : Nat) (s : State) : RdOnly s (askPartner id set n x row q pos cls rtag s) := by
  unfold Machine.askPartner
  split
  · exact refl s
  · exact (addRd _ _).trans (withGauge _ _ fun u => placePlain _ _ u)

theorem uncorrRd (id : Nat) (s : State) : RdOnly s (uncorrRd id s) := by
  unfold Machine.uncorrRd
  split
  · exact refl s
  · split
    · exact refl s
    · have h : RdOnly s (s.inc Fld.cryOutCntUncorr) := rfl
      exact h.trans (modRd _ _ _)

theorem startRecon (id : Nat) (around : Bool) (s : State) : RdOnly s (startRecon id around s) := by
  unfold Machine.startRecon
  split
  · exact refl s
  · split
    · exact (modRd _ _ _).trans (foldl _ _ fun u p => askPartner _ _ _ _ _ _ _ _ _ u)
    · split
      · exact refl s
      · exact uncorrRd id s

/-- A placement moves no more, but the read-around of a tile's read. -/
theorem place {id : Nat} {r : Rd} (hr : s.rd id = some r) (ho : ∀ a b, r.own ≠ .tile a b) : RdOnly s (place id s) := by
  unfold Machine.place
  rw [hr]
  dsimp only
  rw [if_neg (by
    split
    · next a b h => exact absurd h (ho a b)
    · rw [Bool.false_and]
      exact Bool.false_ne_true)]
  split
  · exact (modRd _ _ _).trans ((modRd _ _ _).trans (startRecon _ _ _))
  · exact (modRd _ _ _).trans (placePlain _ _ _)

theorem startRd (r : Rd) (s : State) (ho : ∀ a b, r.own ≠ .tile a b) : RdOnly s (startRd r s) := by
  have hr : (s.addRd r).2.rd s.md.rdNext = some r := Tab.find_put_same _ _ _
  unfold Machine.startRd
  dsimp only
  refine (addRd s r).trans ?_
  unfold Machine.withGauge
  rw [show (s.addRd r).1 = s.md.rdNext from rfl, hr]
  dsimp only
  split
  · exact (gaugeTouch _ _).trans (place (r := r) hr ho)
  · split
    · exact modRd _ _ _
    · exact (modRd _ _ _).trans (of_mem (dramRead_rest _ _ _ _ _))

end RdOnly

/-! ## Traffic in order -/

theorem fabIssueAll_append (now : Nat) : ∀ (a b : List (FabReq × Purpose)) (f : Fabric),
    fabIssueAll now f (a ++ b) = fabIssueAll now (fabIssueAll now f a) b
  | [], _, _ => rfl
  | (q, p) :: a, b, f => fabIssueAll_append now a b (fabIssue now f q p)

theorem State.now_of_mem {s t : State} (h : t = { s with fab := t.fab, pwr := t.pwr }) : t.now = s.now := by
  rw [h]
  exact rfl

/-! ## A map tile marked (R376) -/

theorem modDir_rest (mt : Nat) (f : Dir → Dir) (s : State) : s.modDir mt f = { s with
    fab := (s.modDir mt f).fab
    pwr := (s.modDir mt f).pwr
    md := { s.md with dir := (s.modDir mt f).md.dir } } := by
  unfold State.modDir
  dsimp only
  split
  · exact rfl
  · rw [dramWrite_rest]

/-- A tile that is DIRTY is marked without traffic. -/
theorem modDir_dirty_fab {s : State} {mt : Nat} (h : (s.dirOf mt).dirty = true) : (s.modDir mt fun d => { d with dirty := true }).fab = s.fab := by
  have hd : { s.dirOf mt with dirty := true } = s.dirOf mt := by
    rw [← h]
  unfold State.modDir
  dsimp only
  rw [if_pos hd]

end Sys2Proof.Machine
end

section
/-! PROOFS. O38, concluded. -/
namespace Sys2Proof.Machine

/-! ## Overlay merge (R389) -/

theorem retryLoads_none {s : State} (h : s.md.loadWait = []) : retryLoads s = { s with md := { s.md with loadWait := [] } } := by
  rw [retryLoads, h]
  exact rfl

/-- The overlay entry of one LTA put into its cached line, or into DRAM. -/
def overlayPut (p lta e : Nat) (s : State) : State :=
  match cacheHas s (lta / 8) with
  | some l => s.setLine (lta / 8) { l with ents := l.ents.set (lta % 8) e, dirty := true }
  | none => dramWrite (poolAddr s p + 8 * (lta % 512)) 3 (numBytes 8 e) (.mapWrite (2 ^ 60 + lta / 8)) s

/-- The overlay's slot of an LTA cleared. -/
def overlayClear (lta : Nat) (s : State) : State := dramWrite (ovlAddr s lta) 3 (List.replicate 16 0) (.mapWrite (2 ^ 61)) s

/-- An overlay entry merged: it is in the map, its slot is cleared, and the tile is DIRTY. -/
def overlayMoved (mt p lta e : Nat) (s : State) : State := (overlayClear lta (overlayPut p lta e s)).modDir mt fun d => { d with dirty := true }

/-- The overlay and the updates as the merge of a tile leaves them. -/
def overlayClosed (mt : Nat) (s : State) : State := { s with md := { s.md with
  ovl := s.md.ovl.filter fun e => e.1 / 512 != mt
  upds := []
  loadWait := [] } }

/-- What the merge's end leaves. -/
structure OverlayClosed (mt : Nat) (s t : State) : Prop where
  ovl : t.md.ovl = s.md.ovl.filter fun e => e.1 / 512 != mt
  dirOf : t.dirOf mt = s.dirOf mt
  regs : t.regs = s.regs
  cache : t.md.cache = s.md.cache
  fab : t.fab = s.fab

theorem overlayClosed_spec (mt : Nat) (s : State) : OverlayClosed mt s (overlayClosed mt s) := ⟨rfl, rfl, rfl, rfl, rfl⟩

theorem overlayPut_rest (p lta e : Nat) (s : State) : overlayPut p lta e s = { s with
    fab := (overlayPut p lta e s).fab
    pwr := (overlayPut p lta e s).pwr
    md := { s.md with cache := (overlayPut p lta e s).md.cache } } := by
  unfold overlayPut
  split
  · exact rfl
  · rw [dramWrite_rest]

theorem overlayClear_rest (lta : Nat) (s : State) : overlayClear lta s = { s with fab := (overlayClear lta s).fab, pwr := (overlayClear lta s).pwr } :=
  dramWrite_rest _ _ _ _ s

/-- A merge moves the cache, the directory and the fabric alone. -/
def MergeOnly (s t : State) : Prop := t = { s with
  fab := t.fab
  pwr := t.pwr
  md := { s.md with
    cache := t.md.cache
    dir := t.md.dir } }

theorem MergeOnly.trans {s t u : State} (h : MergeOnly s t) (g : MergeOnly t u) : MergeOnly s u := by
  unfold MergeOnly at *
  rw [g, h]

theorem overlayMoved_rest (mt p lta e : Nat) (s : State) : MergeOnly s (overlayMoved mt p lta e s) := by
  have h1 : MergeOnly s (overlayPut p lta e s) := by
    unfold MergeOnly
    rw [overlayPut_rest]
  have h2 : MergeOnly (overlayPut p lta e s) (overlayClear lta (overlayPut p lta e s)) := by
    unfold MergeOnly
    rw [overlayClear_rest]
  have h3 : MergeOnly (overlayClear lta (overlayPut p lta e s)) (overlayMoved mt p lta e s) := by
    unfold MergeOnly overlayMoved
    rw [modDir_rest]
  exact (h1.trans h2).trans h3

theorem overlayMoved_cache (mt p lta e : Nat) (s : State) : (overlayMoved mt p lta e s).md.cache = (overlayPut p lta e s).md.cache := by
  rw [overlayMoved, modDir_rest]
  show (overlayClear lta (overlayPut p lta e s)).md.cache = _
  rw [overlayClear_rest]

/-- The merge's end: the tile's entries leave the overlay, and what waited for room is tried again. -/
def mergeTail (mt : Nat) (s : State) : State :=
  let s := { s with md := { s.md with ovl := s.md.ovl.filter fun e => e.1 / 512 != mt } }
  let us := s.md.upds.filter fun u => (s.dirOf (u.lta / 512)).slot.isNone
  retryLoads (us.foldl (fun s u => mapUpdate u 3 s) { s with md := { s.md with upds := s.md.upds.filter fun u => !us.contains u } })

theorem mergeTail_eq {mt : Nat} {s : State} (hu : s.md.upds = []) (hl : s.md.loadWait = []) : mergeTail mt s = overlayClosed mt s := by
  unfold mergeTail
  dsimp only
  rw [hu]
  exact retryLoads_none hl

/-- The overlay's entries of a tile merged in order. -/
def overlayAllMoved (mt p : Nat) (l : List (Nat × Nat)) (s : State) : State :=
  (l.foldl (fun s e => overlayClear e.1 s) (l.foldl (fun s e => overlayPut p e.1 e.2 s) s)).modDir mt fun d => { d with dirty := true }

theorem execOverlayMerge_run {s : State} {mt p : Nat} (hp : (s.dirOf mt).slot = some p) : execOverlayMerge mt s =
    onlyIf (s.running && s.stage == 9 && !(s.md.ovl.filter fun e => e.1 / 512 == mt).isEmpty) s
      (mergeTail mt (overlayAllMoved mt p (s.md.ovl.filter fun e => e.1 / 512 == mt) s)) := by
  unfold execOverlayMerge mergeTail overlayAllMoved overlayPut overlayClear
  rw [hp] <;> exact rfl

theorem execOverlayMerge_eq {s : State} {mt p lta e : Nat} (hr : s.running = true) (hst : s.stage = 9) (hp : (s.dirOf mt).slot = some p)
    (hm : (s.md.ovl.filter fun x => x.1 / 512 == mt) = [(lta, e)]) (hu : s.md.upds = []) (hl : s.md.loadWait = []) :
    execOverlayMerge mt s = .next (overlayClosed mt (overlayMoved mt p lta e s)) := by
  have hmo := overlayMoved_rest mt p lta e s
  have hu' : (overlayMoved mt p lta e s).md.upds = [] := by rw [hmo]; exact hu
  have hl' : (overlayMoved mt p lta e s).md.loadWait = [] := by rw [hmo]; exact hl
  have hone : overlayAllMoved mt p [(lta, e)] s = overlayMoved mt p lta e s := by
    unfold overlayAllMoved overlayMoved
    rw [List.foldl_cons, List.foldl_nil, List.foldl_cons, List.foldl_nil]
  rw [execOverlayMerge_run hp, hm, hr, hst, hone, mergeTail_eq hu' hl']
  exact onlyIf_true _ _

/-! ## The line's repair (R395, R396) -/

/-- An LTA poisoned for want of what its repair needs. -/
def poisonLta (s : State) (lta : Nat) : State := (jAppend (streamOf s lta) ⟨jPoison, lta, 0, 0, 0⟩ s).inc Fld.mapRepairStsPoisoned

theorem heldIf_rest (c : Bool) (k : Nat) (x : Stream) (s : State) : (if c then (s.setStream k x).putFlag Fld.mapCkptStsHeld true else s.setStream k x) = { s with
    regs := (if c then (s.setStream k x).putFlag Fld.mapCkptStsHeld true else s.setStream k x).regs
    wp := { s.wp with streams := (if c then (s.setStream k x).putFlag Fld.mapCkptStsHeld true else s.setStream k x).wp.streams } } := by
  cases c with
  | false => exact rfl
  | true => exact rfl

theorem jAppend_rest (k : Nat) (r : JRec) (s : State) : jAppend k r s = { s with
    regs := (jAppend k r s).regs
    wp := { s.wp with streams := (jAppend k r s).wp.streams } } := by
  unfold jAppend
  split
  · exact rfl
  · exact heldIf_rest _ k _ s

theorem poisonLta_rest (s : State) (lta : Nat) : poisonLta s lta = { s with
    regs := (poisonLta s lta).regs
    wp := { s.wp with streams := (poisonLta s lta).wp.streams } } := by
  show { jAppend (streamOf s lta) ⟨jPoison, lta, 0, 0, 0⟩ s with regs := (poisonLta s lta).regs } = _
  rw [jAppend_rest]
  exact rfl

/-- Two states apart in the journal's streams and the registers alone, of which the cache's and the boot status stay, and POISONED has
counted `n` more. -/
structure Poisoned (n : Nat) (s t : State) : Prop where
  rest : t = { s with
    regs := t.regs
    wp := { s.wp with streams := t.wp.streams } }
  regs : ∀ k i, k ≠ .mapCkptSts → k ≠ .mapRepairSts → t.reg k i = s.reg k i
  repairs : t.get Fld.mapRepairStsRepairs = s.get Fld.mapRepairStsRepairs
  count : t.get Fld.mapRepairStsPoisoned = if n = 0 then s.get Fld.mapRepairStsPoisoned else
    min Fld.mapRepairStsPoisoned.max (s.get Fld.mapRepairStsPoisoned + n)

theorem Poisoned.refl (s : State) : Poisoned 0 s s := ⟨rfl, fun _ _ _ _ => rfl, rfl, rfl⟩

theorem Poisoned.step {n : Nat} {s t : State} (h : Poisoned n s t) (lta : Nat) : Poisoned (n + 1) s (poisonLta t lta) := by
  have hj := MapKept.jAppend (streamOf t lta) ⟨jPoison, lta, 0, 0, 0⟩ t
  have hget {f : Fld} (hf : f.kind = .mapRepairSts) : (jAppend (streamOf t lta) ⟨jPoison, lta, 0, 0, 0⟩ t).get f = t.get f :=
    congrArg f.get (hj.regs f.kind 0 (by rw [hf]; decide))
  refine ⟨?_, fun k i h1 h2 => ?_, ?_, ?_⟩
  · rw [poisonLta_rest, h.rest]
  · refine (State.reg_put_kind _ (g := Fld.mapRepairStsPoisoned) h2 _ 0 i).trans ?_
    exact (hj.regs k i h1).trans (h.regs k i h1 h2)
  · refine (State.get_put_field _ (by decide) (by decide) _ _ _).trans ?_
    exact (hget rfl).trans h.repairs
  · rw [poisonLta, State.get_inc_same _ _ (by decide), hget rfl, h.count, if_neg (Nat.succ_ne_zero n)]
    split
    · next h0 => rw [h0]
    · omega

theorem poisonLtas_spec (s : State) : ∀ (l : List Nat) (n : Nat) (t : State), Poisoned n s t → Poisoned (n + l.length) s (l.foldl poisonLta t)
  | [], n, t, h => h
  | a :: l, n, t, h => by
    have := poisonLtas_spec s l (n + 1) (poisonLta t a) (h.step a)
    rw [List.foldl_cons, List.length_cons]
    rwa [show n + (l.length + 1) = n + 1 + l.length by omega]

/-- The LTAs of a line. -/
def lineLtas (line : Nat) : List Nat := (List.range 8).map (8 * line + ·)

/-- The repair counted, and the LTAs still marked poisoned where something could not be read. -/
def repairCounted (line : Nat) (ok : Bool) (s : State) : State :=
  if ok then s.inc Fld.mapRepairStsRepairs
  else ((lineLtas line).filter fun l => (s.inc Fld.mapRepairStsRepairs).md.repair.contains l).foldl (fun s l => poisonLta s l) (s.inc Fld.mapRepairStsRepairs)

/-- The entries of a line as its repair gives them. -/
def repairEnts (line : Nat) (ents : List Nat) (ok : Bool) (s : State) : List Nat :=
  (lineLtas line).map fun l =>
    if s.md.repair.contains l then (if ok then repairEntry s l ((ents[l % 8]?).getD 0) else poisonEntry) else (ents[l % 8]?).getD 0

/-- A repaired line written to DRAM. -/
def repairWritten (line : Nat) (new : List Nat) (s : State) : State :=
  match lineAddr s line with
  | some a => dramWrite a 3 (entsBytes new) (.mapWrite (2 ^ 60 + line)) s
  | none => s

/-- The marks of a repaired line taken away. -/
def repairClosed (line : Nat) (s : State) : State :=
  let s : State := { s with md := { s.md with repair := s.md.repair.filter fun l => !(lineLtas line).contains l } }
  if s.md.repair.any fun l => l / 512 == line / 64 then s else { s with md := { s.md with repTiles := Tab.del (line / 64) s.md.repTiles } }

theorem repairClosed_rest (line : Nat) (s : State) : repairClosed line s = { s with md := { s.md with
    repair := s.md.repair.filter fun l => !(lineLtas line).contains l
    repTiles := (repairClosed line s).md.repTiles } } := by
  unfold repairClosed
  dsimp only
  split
  · exact rfl
  · exact rfl

theorem repairWritten_rest (line : Nat) (new : List Nat) (s : State) : repairWritten line new s =
    { s with fab := (repairWritten line new s).fab, pwr := (repairWritten line new s).pwr } := by
  unfold repairWritten
  split
  · exact dramWrite_rest _ _ _ _ s
  · exact rfl

/-- A line held in the cache rewritten, and its tile marked. -/
def repairCached (line : Nat) (new : List Nat) (l : MLine) (s : State) : State := dirtyTile (8 * line) (s.setLine line { l with ents := new, dirty := false })

theorem repairCached_rest (line : Nat) (new : List Nat) (l : MLine) (s : State) : MergeOnly s (repairCached line new l s) := by
  have h : MergeOnly (s.setLine line { l with ents := new, dirty := false }) (repairCached line new l s) := by
    unfold MergeOnly repairCached dirtyTile
    rw [modDir_rest]
  have hs : MergeOnly s (s.setLine line { l with ents := new, dirty := false }) := rfl
  exact hs.trans h



/-- What waited for a repaired line goes on. -/
def repairTail (line : Nat) (s : State) : State :=
  let us := s.md.upds.filter fun u => u.lta / 8 == line
  let s := us.foldl (fun s u => mapUpdate u 3 s) { s with md := { s.md with upds := s.md.upds.filter fun u => !us.contains u } }
  ((probeLtas s).filter (lineLtas line).contains).foldl probeLookup s

theorem repairLine_resident {line a : Nat} {ents : List Nat} {ok : Bool} {s : State} {l : MLine} (ha : lineAddr (repairCounted line ok s) line = some a)
    (hc : cacheHas (dramWrite a 3 (entsBytes (repairEnts line ents ok (repairCounted line ok s))) (.mapWrite (2 ^ 60 + line)) (repairCounted line ok s)) line =
      some l) : repairLine line ents ok s = repairTail line (repairClosed line (repairCached line (repairEnts line ents ok (repairCounted line ok s)) l
        (dramWrite a 3 (entsBytes (repairEnts line ents ok (repairCounted line ok s))) (.mapWrite (2 ^ 60 + line)) (repairCounted line ok s)))) := by
  unfold repairCounted lineLtas poisonLta at ha
  unfold repairEnts repairCounted lineLtas poisonLta at hc
  unfold repairLine repairTail repairClosed repairCached repairEnts repairCounted lineLtas poisonLta
  dsimp only
  simp only [ha]
  simp only [hc]

theorem repairLine_absent {line : Nat} {ents : List Nat} {ok : Bool} {s : State} {l : MLine} (ha : lineAddr (repairCounted line ok s) line = none)
    (hc : cacheHas (repairCounted line ok s) line = some l) : repairLine line ents ok s =
      repairTail line (repairClosed line (repairCached line (repairEnts line ents ok (repairCounted line ok s)) l (repairCounted line ok s))) := by
  unfold repairCounted lineLtas poisonLta at ha hc
  unfold repairLine repairTail repairClosed repairCached repairEnts repairCounted lineLtas poisonLta
  dsimp only
  simp only [ha]
  simp only [hc]

theorem mem_lineLtas {line x : Nat} : x ∈ lineLtas line ↔ x / 8 = line := by
  simp only [lineLtas, List.mem_map, List.mem_range]
  constructor
  · rintro ⟨k, hk, rfl⟩
    omega
  · intro h
    exact ⟨x % 8, by omega, by omega⟩

theorem repairTail_rest {line : Nat} {s : State} (hu : ∀ u ∈ s.md.upds, u.lta / 8 ≠ line) (hp : ∀ a ∈ probeLtas s, a / 8 ≠ line) :
    ∃ us, repairTail line s = { s with md := { s.md with upds := us } } := by
  have hus : (s.md.upds.filter fun u => u.lta / 8 == line) = [] := List.filter_eq_nil_iff.mpr fun u hm => by
    rw [beq_iff_eq]
    exact hu u hm
  have hps : (probeLtas s).filter (lineLtas line).contains = [] := List.filter_eq_nil_iff.mpr fun a ha => by
    rw [List.contains_iff_mem, mem_lineLtas]
    exact hp a ha
  refine ⟨s.md.upds.filter fun u => !([] : List MUpd).contains u, ?_⟩
  unfold repairTail
  dsimp only
  rw [hus]
  show List.foldl probeLookup _ ((probeLtas s).filter (lineLtas line).contains) = _
  rw [hps]
  exact rfl

theorem repairCounted_spec (line : Nat) (ok : Bool) (s : State) : ∃ u, Poisoned (if ok then 0 else ((lineLtas line).filter fun l => s.md.repair.contains l).length)
    u (repairCounted line ok s) ∧ u = s.inc Fld.mapRepairStsRepairs ∧ (ok = true → repairCounted line ok s = u) := by
  refine ⟨_, ?_, rfl, fun h => if_pos h⟩
  unfold repairCounted
  cases ok with
  | true => exact Poisoned.refl _
  | false =>
    have := poisonLtas_spec (s.inc Fld.mapRepairStsRepairs) ((lineLtas line).filter fun l => s.md.repair.contains l) 0 _ (Poisoned.refl _)
    rw [Nat.zero_add] at this
    exact this

/-- A repair of a line that the cache holds, for which neither an update nor a probe waits: what it leaves. -/
structure LineRepaired (line : Nat) (new : List Nat) (l : MLine) (s t : State) : Prop where
  cache : Tab.find line t.md.cache = some { l with ents := new, dirty := false }
  dirty : (t.dirOf (line / 64)).dirty = true
  repair : t.md.repair = s.md.repair.filter fun l => !(lineLtas line).contains l
  regs : t.regs = s.regs
  fab : (s.dirOf (line / 64)).dirty = true → t.fab = (repairWritten line new s).fab

theorem lineRepaired {s : State} {line : Nat} {new : List Nat} {l : MLine} (hu : ∀ u ∈ s.md.upds, u.lta / 8 ≠ line) (hp : ∀ a ∈ probeLtas s, a / 8 ≠ line) :
    LineRepaired line new l s (repairTail line (repairClosed line (repairCached line new l (repairWritten line new s)))) := by
  have hw := repairWritten_rest line new s
  have hm : MergeOnly s (repairCached line new l (repairWritten line new s)) := by
    refine MergeOnly.trans ?_ (repairCached_rest line new l (repairWritten line new s))
    unfold MergeOnly
    rw [hw]
  have hmt : 8 * line / 512 = line / 64 := by omega
  have hdir : ((repairCached line new l (repairWritten line new s)).dirOf (line / 64)).dirty = true := by
    rw [repairCached, dirtyTile, hmt, (modDir_spec _ _ _).2]
  have hcache : Tab.find line (repairCached line new l (repairWritten line new s)).md.cache = some { l with ents := new, dirty := false } := by
    rw [repairCached, dirtyTile, (modDir_spec _ _ _).1]
    exact Tab.find_put_same _ _ _
  have hfab : (s.dirOf (line / 64)).dirty = true → (repairCached line new l (repairWritten line new s)).fab = (repairWritten line new s).fab := by
    intro hd
    rw [repairCached, dirtyTile, hmt]
    refine modDir_dirty_fab ?_
    show ((repairWritten line new s).dirOf (line / 64)).dirty = true
    rw [hw]
    exact hd
  generalize repairCached line new l (repairWritten line new s) = v at hm hdir hcache hfab ⊢
  have hcl := repairClosed_rest line v
  obtain ⟨us, ht⟩ := repairTail_rest (line := line) (s := repairClosed line v) (by rw [hcl, hm]; exact hu) (by rw [hcl, hm]; exact hp)
  rw [ht, hcl]
  refine ⟨hcache, hdir, ?_, ?_, hfab⟩
  · show v.md.repair.filter _ = _
    rw [hm]
  · show v.regs = _
    rw [hm]

theorem repairLine_spec {s : State} {line : Nat} {ents : List Nat} {ok : Bool} {l : MLine} (hc : cacheHas (repairCounted line ok s) line = some l)
    (hu : ∀ u ∈ (repairCounted line ok s).md.upds, u.lta / 8 ≠ line) (hp : ∀ a ∈ probeLtas (repairCounted line ok s), a / 8 ≠ line) :
    LineRepaired line (repairEnts line ents ok (repairCounted line ok s)) l (repairCounted line ok s) (repairLine line ents ok s) := by
  have h := lineRepaired (new := repairEnts line ents ok (repairCounted line ok s)) (l := l) hu hp
  cases ha : lineAddr (repairCounted line ok s) line with
  | none =>
    rw [repairLine_absent ha hc]
    have hw : repairWritten line (repairEnts line ents ok (repairCounted line ok s)) (repairCounted line ok s) = repairCounted line ok s := by
      rw [repairWritten, ha]
    rwa [hw] at h
  | some a =>
    have hw : repairWritten line (repairEnts line ents ok (repairCounted line ok s)) (repairCounted line ok s) =
        dramWrite a 3 (entsBytes (repairEnts line ents ok (repairCounted line ok s))) (.mapWrite (2 ^ 60 + line)) (repairCounted line ok s) := by
      rw [repairWritten, ha]
    rw [repairLine_resident ha (by rw [dramWrite_rest]; exact hc), ← hw]
    exact h

/-- What the count of a repair leaves: the map, its cache's state and its lines' places; and what it counts. -/
structure RepairCounted (line : Nat) (ok : Bool) (s t : State) : Prop where
  rest : t = { s with
    regs := t.regs
    wp := { s.wp with streams := t.wp.streams } }
  same : ok = true → t.wp = s.wp
  cacheHas : cacheHas t line = cacheHas s line
  lineAddr : lineAddr t line = lineAddr s line
  repairs : t.get Fld.mapRepairStsRepairs = min Fld.mapRepairStsRepairs.max (s.get Fld.mapRepairStsRepairs + 1)
  poisoned : t.get Fld.mapRepairStsPoisoned = if ok then s.get Fld.mapRepairStsPoisoned else
    min Fld.mapRepairStsPoisoned.max (s.get Fld.mapRepairStsPoisoned + ((lineLtas line).filter fun l => s.md.repair.contains l).length)

namespace RepairCounted
variable {line : Nat} {ok : Bool} {s t : State}

theorem md (h : RepairCounted line ok s t) : t.md = s.md := by rw [h.rest]
theorem fab (h : RepairCounted line ok s t) : t.fab = s.fab := by rw [h.rest]
theorem now (h : RepairCounted line ok s t) : t.now = s.now := by rw [h.rest]; exact rfl

theorem probes (h : RepairCounted line ok s t) : probeLtas t = probeLtas s := by
  rw [h.rest]
  exact rfl

theorem entry (h : RepairCounted line ok s t) (hok : ok = true) (l e : Nat) : repairEntry t l e = repairEntry s l e := by
  have hwp := h.same hok
  rw [h.rest, hwp]
  exact rfl

end RepairCounted

theorem repairCounted_counts {line : Nat} {s : State} (ok : Bool) (hsome : ∃ k, k < 8 ∧ 8 * line + k ∈ s.md.repair) :
    RepairCounted line ok s (repairCounted line ok s) := by
  obtain ⟨u, hp, rfl, hsame⟩ := repairCounted_spec line ok s
  have hregs (k : RegKind) (i : Nat) (h1 : k ≠ .mapCkptSts) (h2 : k ≠ .mapRepairSts) : (repairCounted line ok s).reg k i = s.reg k i :=
    (hp.regs k i h1 h2).trans (State.reg_put_kind s (g := Fld.mapRepairStsRepairs) h2 _ 0 i)
  have hflag {f : Fld} (h1 : f.kind ≠ .mapCkptSts) (h2 : f.kind ≠ .mapRepairSts) : (repairCounted line ok s).flag f = s.flag f :=
    congrArg (fun w => f.get w != 0) (hregs f.kind 0 h1 h2)
  have hmd : (repairCounted line ok s).md = s.md := by
    rw [hp.rest]
    exact rfl
  refine ⟨?_, fun h => by rw [hsame h]; exact rfl, ?_, ?_, ?_, ?_⟩
  · rw [hp.rest]
    exact rfl
  · unfold Machine.cacheHas cacheEn cacheFlushing
    rw [hflag (by decide) (by decide), hflag (by decide) (by decide), hmd]
  · unfold Machine.lineAddr demandMap
    rw [hflag (by decide) (by decide), hp.rest]
    exact rfl
  · rw [hp.repairs]
    exact State.get_inc_same s _ (by decide) 0 1
  · rw [hp.count, State.get_inc_field s (by decide) (by decide)]
    cases ok with
    | true => exact rfl
    | false =>
      obtain ⟨k, hk, hm⟩ := hsome
      have hne : ((lineLtas line).filter fun l => s.md.repair.contains l).length ≠ 0 := by
        rw [Ne, List.length_eq_zero_iff, List.filter_eq_nil_iff]
        exact fun h => h (8 * line + k) (mem_lineLtas.mpr (by omega)) (List.contains_iff_mem.mpr hm)
      exact if_neg hne

/-- The entries as the repair's rule lists them. -/
theorem repairEnts_eq {s t : State} {line : Nat} {ok : Bool} (ent : Nat → Nat) (hmd : t.md = s.md)
    (hent : ok = true → ∀ l e, repairEntry t l e = repairEntry s l e) : repairEnts line ((List.range 8).map ent) ok t =
      (List.range 8).map fun k => if 8 * line + k ∈ s.md.repair then (if ok then repairEntry s (8 * line + k) (ent k) else poisonEntry) else ent k := by
  unfold repairEnts lineLtas
  rw [List.map_map, hmd]
  refine List.map_congr_left fun k hk => ?_
  have hk8 := List.mem_range.mp hk
  have he : (((List.range 8).map ent)[(8 * line + k) % 8]?).getD 0 = ent k := by
    rw [Nat.mul_add_mod, Nat.mod_eq_of_lt hk8, List.getElem?_map, List.getElem?_range hk8]
    exact rfl
  simp only [Function.comp_apply, he, List.contains_iff_mem]
  split
  · cases ok with
    | true => exact hent rfl _ _
    | false => exact rfl
  · exact rfl

theorem marked_of_mem {s : State} {line : Nat} (h : ∃ k, k < 8 ∧ 8 * line + k ∈ s.md.repair) :
    ((List.range 8).any fun i => s.md.repair.contains (8 * line + i)) = true := by
  obtain ⟨k, hk, hm⟩ := h
  exact List.any_eq_true.mpr ⟨k, List.mem_range.mpr hk, List.contains_iff_mem.mpr hm⟩

theorem execMapRepair_reads {s : State} {line : Nat} (ok : Bool) (hr : s.running = true) (h : ∃ k, k < 8 ∧ 8 * line + k ∈ s.md.repair)
    (hb : Tab.find (line / 64) s.md.repTiles = none) : execMapRepair line ok s = .next (repairRead (line / 64) s) := by
  unfold execMapRepair
  rw [hr, hb, marked_of_mem h]
  exact onlyIf_true _ _

/-- The entries of a line in its map tile. -/
def tileEnt (line : Nat) (b : List Byte) (k : Nat) : Nat := bytesNum ((b.drop (64 * (line % 64) + 8 * k)).take 8)

theorem execMapRepair_line {s : State} {line : Nat} {b : List Byte} (ok : Bool) (hr : s.running = true) (h : ∃ k, k < 8 ∧ 8 * line + k ∈ s.md.repair)
    (hb : Tab.find (line / 64) s.md.repTiles = some b) :
    execMapRepair line ok s = .next (repairLine line ((List.range 8).map (tileEnt line b)) (ok && decide (b.length = 4096)) s) := by
  unfold execMapRepair
  rw [hr, hb, marked_of_mem h]
  exact onlyIf_true _ _

theorem repairRead_repair (mt : Nat) (s : State) : (repairRead mt s).md.repair = s.md.repair := by
  unfold repairRead
  dsimp only
  split
  · exact rfl
  · split
    · exact rfl
    · rw [RdOnly.startRd _ s fun _ _ h => RdOwner.noConfusion h]

theorem repairRead_unnamed {mt : Nat} {s : State} (h : entState (Tab.get 0 mt s.md.ckptDir) ≠ 1) :
    repairRead mt s = { s with md := { s.md with repTiles := Tab.put mt zeroTile s.md.repTiles } } := if_pos h

/-- The merge of one overlay entry where its line is not cached. -/
theorem overlayMoved_uncached {mt p lta e : Nat} {s : State} (hc : cacheHas s (lta / 8) = none) (hd : (s.dirOf mt).dirty = true) :
    (overlayMoved mt p lta e s).fab = fabIssueAll s.now s.fab (dramReqs 3 (poolAddr s p + 8 * (lta % 512)) (numBytes 8 e) (.mapWrite (2 ^ 60 + lta / 8)) ++
      dramReqs 3 (ovlAddr s lta) (List.replicate 16 0) (.mapWrite (2 ^ 61))) := by
  have hput : overlayPut p lta e s = dramWrite (poolAddr s p + 8 * (lta % 512)) 3 (numBytes 8 e) (.mapWrite (2 ^ 60 + lta / 8)) s := by
    rw [overlayPut, hc]
  have hm := dramWrite_rest (poolAddr s p + 8 * (lta % 512)) 3 (numBytes 8 e) (.mapWrite (2 ^ 60 + lta / 8)) s
  have hdirty : ((overlayClear lta (overlayPut p lta e s)).dirOf mt).dirty = true := by
    rw [overlayClear_rest, hput, hm]
    exact hd
  rw [overlayMoved, modDir_dirty_fab hdirty, overlayClear, dramWrite_fab, hput, State.now_of_mem hm, dramWrite_fab, fabIssueAll_append]
  have ho : ovlAddr (dramWrite (poolAddr s p + 8 * (lta % 512)) 3 (numBytes 8 e) (.mapWrite (2 ^ 60 + lta / 8)) s) lta = ovlAddr s lta := by
    rw [hm]
    exact rfl
  rw [ho]

/-- Settles O38: the merge and the repair by the equations of their parts. -/
theorem overlayAndRepair : Obligations.OverlayAndRepair := by
  unfold Obligations.OverlayAndRepair
  intro s hr
  refine ⟨fun mt p lta e hst hp hm hu hl => ?_, fun line ok hs hb => ?_, ?_⟩
  · have hmo := overlayMoved_rest mt p lta e s
    have hcl := overlayClosed_spec mt (overlayMoved mt p lta e s)
    have hexec : exec (.overlayMerge mt) s = .next (overlayClosed mt (overlayMoved mt p lta e s)) := execOverlayMerge_eq hr hst hp hm hu hl
    refine ⟨overlayClosed mt (overlayMoved mt p lta e s), hexec, ?_, ?_, ?_, fun l hc => ?_, fun hc => ⟨?_, fun hd => ?_⟩⟩
    · rw [hcl.ovl, hmo]
    · rw [hcl.dirOf, overlayMoved, (modDir_spec _ _ _).2]
    · rw [hcl.regs, hmo]
    · rw [hcl.cache, overlayMoved_cache, overlayPut, hc]
      exact Tab.find_put_same _ _ _
    · rw [hcl.cache, overlayMoved_cache, overlayPut, hc]
      dsimp only
      rw [dramWrite_rest]
    · rw [hcl.fab]
      exact overlayMoved_uncached hc hd
  · refine ⟨_, execMapRepair_reads ok hr hs hb, repairRead_repair _ _, fun hn => ?_⟩
    rw [repairRead_unnamed hn]
    exact ⟨Tab.find_put_same _ _ _, rfl, rfl⟩
  · intro line ok b l hs hb hc hu hp good ent new n
    have hcount := repairCounted_counts good hs
    have hmd := hcount.md
    have hspec := repairLine_spec (ents := (List.range 8).map ent) (hcount.cacheHas.trans hc) (by rw [hmd]; exact hu) (by rw [hcount.probes]; exact hp)
    have hnew : repairEnts line ((List.range 8).map ent) good (repairCounted line good s) = new :=
      repairEnts_eq ent hmd hcount.entry
    rw [hnew] at hspec
    have hexec : exec (.mapRepair line ok) s = .next (repairLine line ((List.range 8).map ent) good s) := execMapRepair_line ok hr hs hb
    refine ⟨repairLine line ((List.range 8).map ent) good s, hexec, hspec.cache, hspec.dirty, ?_, ?_, ?_, fun a ha hg hd => ?_⟩
    · refine hspec.repair.trans ?_
      rw [hmd]
      refine List.filter_congr fun x _ => ?_
      have hx := mem_lineLtas (line := line) (x := x)
      by_cases h : x / 8 = line
      · rw [List.contains_iff_mem.mpr (hx.mpr h)]
        simp [h]
      · have hf : (lineLtas line).contains x = false := by
          rw [← Bool.not_eq_true, List.contains_iff_mem, hx]
          exact h
        rw [hf]
        simp [h]
    · rw [State.get_of_regs hspec.regs]
      exact hcount.repairs
    · rw [State.get_of_regs hspec.regs]
      refine hcount.poisoned.trans ?_
      have hlen : ((lineLtas line).filter fun l => s.md.repair.contains l).length = n := by
        show ((List.map _ (List.range 8)).filter _).length = ((List.range 8).filter _).length
        rw [List.filter_map, List.length_map]
        simp only [Function.comp_def, List.contains_eq_mem]
      rw [hlen]
    · have hd' : ((repairCounted line good s).dirOf (line / 64)).dirty = true := by
        rw [State.dirOf, hmd]
        exact hd
      refine (hspec.fab hd').trans ?_
      rw [repairWritten, hcount.lineAddr, ha]
      dsimp only
      rw [dramWrite_fab, hcount.now, hcount.fab]

end Sys2Proof.Machine
end

section
/-! PROOFS. O39: relocation, reclaim, the rake and hot windows. -/
namespace Sys2Proof.Machine

/-! ## Units of the block table -/

theorem State.unit_putUnit_same (x : Nat) (f : UnitE → UnitE) (s : State) : (putUnit x f s).unit x = f (s.unit x) := by
  rw [putUnit_rest]
  exact Tab.get_put_same _ _ _ _

theorem State.unit_putUnit_ne {x y : Nat} (h : y ≠ x) (f : UnitE → UnitE) (s : State) : (putUnit x f s).unit y = s.unit y := by
  rw [putUnit_rest]
  exact Tab.get_put_ne h _ _ _

/-- Two states apart in the block table and its traffic alone. -/
def UnitsMoved (s t : State) : Prop := t = { s with
  fab := t.fab
  pwr := t.pwr
  md := { s.md with units := t.md.units } }

namespace UnitsMoved
variable {s t u : State}

theorem refl (s : State) : UnitsMoved s s := rfl

theorem trans (h : UnitsMoved s t) (g : UnitsMoved t u) : UnitsMoved s u := by
  unfold UnitsMoved at *
  rw [g, h]

theorem of_mem (h : t = { s with fab := t.fab, pwr := t.pwr }) : UnitsMoved s t := by
  unfold UnitsMoved
  rw [h]

theorem putUnit (x : Nat) (f : UnitE → UnitE) (s : State) : UnitsMoved s (putUnit x f s) := by
  have h : UnitsMoved s (s.modUnit x f) := rfl
  exact h.trans (of_mem (putUnit_rest x f s))

end UnitsMoved

/-- Units changed in order by a change that is the same whenever it is made: each named unit is changed, and no other. -/
theorem foldl_putUnit (f : UnitE → UnitE) (hf : ∀ u, f (f u) = f u) : ∀ (l : List Nat) (s : State),
    UnitsMoved s (l.foldl (fun s x => putUnit x f s) s) ∧ (∀ x, x ∈ l → (l.foldl (fun s x => putUnit x f s) s).unit x = f (s.unit x)) ∧
      ∀ x, x ∉ l → (l.foldl (fun s x => putUnit x f s) s).unit x = s.unit x
  | [], s => ⟨UnitsMoved.refl s, fun x h => absurd h List.not_mem_nil, fun x _ => rfl⟩
  | a :: l, s => by
    obtain ⟨hm, hin, hout⟩ := foldl_putUnit f hf l (putUnit a f s)
    rw [List.foldl_cons]
    refine ⟨(UnitsMoved.putUnit a f s).trans hm, fun x hx => ?_, fun x hx => ?_⟩
    · by_cases hl : x ∈ l
      · rw [hin x hl]
        by_cases hxa : x = a
        · rw [hxa, State.unit_putUnit_same, hf]
        · rw [State.unit_putUnit_ne hxa]
      · rw [hout x hl, (List.mem_cons.mp hx).resolve_right hl, State.unit_putUnit_same]
    · rw [hout x fun h => hx (List.mem_cons_of_mem _ h), State.unit_putUnit_ne fun h => hx (List.mem_cons.mpr (.inl h))]

/-! ## Relocation (R397, R398) -/

theorem State.rd_modRd_wait {s : State} {id : Nat} {r : Rd} (h : s.rd id = some r) (b : Bool) :
    (s.modRd id fun r => { r with gaugeWait := b }).rd id = some { r with gaugeWait := b } := by
  rw [State.rd_modRd_same, h]
  exact rfl

/-- A read placed on a LUN that can serve it stands in the reads. -/
theorem place_stands {id : Nat} {r : Rd} {s : State} (hr : s.rd id = some r) (ho : ∀ a b, r.own ≠ .tile a b) (hon : s.online r.page.lun = true)
    (hst : (s.lun r.page.lun).stall = none) : (place id s).rd id = some { r with gaugeWait := false } := by
  have hm := State.rd_modRd_wait hr false
  have hon' : (s.modRd id fun r => { r with gaugeWait := false }).online r.page.lun = true := hon
  have hst' : ((s.modRd id fun r => { r with gaugeWait := false }).lun r.page.lun).stall = none := hst
  unfold place
  rw [hr]
  dsimp only
  rw [if_neg (by
    split
    · next a b h => exact absurd h (ho a b)
    · rw [Bool.false_and]
      exact Bool.false_ne_true), hon', hst']
  rw [if_neg (by decide), placePlain, hm]
  exact State.rd_modRd_wait hm false

/-- A read that its LUN can serve stands in the reads from its start. -/
theorem startRd_stands {r : Rd} {s : State} (ho : ∀ a b, r.own ≠ .tile a b) (hon : s.online r.page.lun = true) (hst : (s.lun r.page.lun).stall = none) :
    ∃ b, (startRd r s).rd s.md.rdNext = some { r with gaugeWait := b } := by
  have hr : (s.addRd r).2.rd s.md.rdNext = some r := Tab.find_put_same _ _ _
  unfold startRd
  dsimp only
  unfold withGauge
  rw [show (s.addRd r).1 = s.md.rdNext from rfl, hr]
  dsimp only
  split
  · exact ⟨false, place_stands (r := r) hr ho hon hst⟩
  · refine ⟨true, ?_⟩
    split
    · exact State.rd_modRd_wait hr true
    · rw [dramRead_rest]
      exact State.rd_modRd_wait hr true

/-- The rake's turn taken, where the tile need not move but for it. -/
def rakeTurn (s : State) (lta : Nat) (g : Page) : State :=
  match mustMove s g, rakeMay s lta g with
  | false, some b => { s with md := { s.md with
      rakeAt := s.now
      refreshTurn := !b
      hotRelAt := if b then s.md.hotRelAt else s.now
      hotQ := if b then s.md.hotQ else s.md.hotQ.erase lta } }
  | _, _ => s

/-- The class of a relocation, as the rake's turn leaves the state. -/
def relocClass (s t : State) (g : Page) : Nat := if mustMove t g then reclaimClass t ((s.unit (pageUnit s g)).gref / 2 ^ 18) else 3

/-- The relocation begun, before its read. -/
def relocBegun (s : State) (lta e : Nat) : State :=
  let t := rakeTurn s lta (entPage s e)
  { t with md := { t.md with relocs := Tab.put (firstFree s.md.relocs 0) { lta := lta, old := e, cls := relocClass s t (entPage s e) } t.md.relocs } }

/-- The read of a relocation. -/
def relocRd (s : State) (lta e : Nat) : Rd :=
  { own := .reloc (firstFree s.md.relocs 0)
    cls := relocClass s (rakeTurn s lta (entPage s e)) (entPage s e)
    rtag := 0
    entry := e
    page := entPage s e
    cw := entCw e
    lta := lta
    keyidx := anyKey
    kind := kData }

theorem rakeTurn_rest (s : State) (lta : Nat) (g : Page) : rakeTurn s lta g = { s with md := { s.md with
    rakeAt := (rakeTurn s lta g).md.rakeAt
    refreshTurn := (rakeTurn s lta g).md.refreshTurn
    hotRelAt := (rakeTurn s lta g).md.hotRelAt
    hotQ := (rakeTurn s lta g).md.hotQ } } := by
  unfold rakeTurn
  split
  · exact rfl
  · exact rfl

end Sys2Proof.Machine
end

section
/-! PROOFS. O39, continued: the background commands as they run. -/
namespace Sys2Proof.Machine

/-! ## A relocation's start -/

/-- What lets a tile be relocated (R397). -/
def mayRelocate (s : State) (lta e : Nat) : Bool :=
  s.running && s.stage == 9 && !s.wp.pfail && !s.flag Fld.mapFlushStsDone && decide (firstFree s.md.relocs 0 < s.img.geo.relocSlots)
    && entState e == 1 && entryInGeometry s e && ((knownEntry s lta).map fun x => x == e).getD true && !(s.wp.own.any fun p => p.2.lta == lta && p.2.st != 0)
    && (mustMove s (entPage s e) || (rakeMay s lta (entPage s e)).isSome)

theorem mayRelocate_of {s : State} {lta e : Nat} (hb : Backgrounds s) (hslot : firstFree s.md.relocs 0 < s.img.geo.relocSlots) (he : entState e = 1)
    (hg : entryInGeometry s e = true) (hk : ∀ v, knownEntry s lta = some v → v = e) (hown : ∀ p ∈ s.wp.own, p.2.lta = lta → p.2.st = 0)
    (hm : mustMove s (entPage s e) = true ∨ (rakeMay s lta (entPage s e)).isSome = true) : mayRelocate s lta e = true := by
  obtain ⟨hr, hst, hpf, hd⟩ := hb
  have hknown : ((knownEntry s lta).map fun x => x == e).getD true = true := by
    cases h : knownEntry s lta with
    | none => exact rfl
    | some v => exact beq_iff_eq.mpr (hk v h)
  have hcopies : (s.wp.own.any fun p => p.2.lta == lta && p.2.st != 0) = false := by
    rw [List.any_eq_false]
    intro p hp hb
    obtain ⟨h1, h2⟩ := Bool.and_eq_true _ _ ▸ hb
    exact bne_iff_ne.mp h2 (hown p hp (beq_iff_eq.mp h1))
  have hmove : (mustMove s (entPage s e) || (rakeMay s lta (entPage s e)).isSome) = true := by
    rw [Bool.or_eq_true]
    exact hm
  unfold mayRelocate
  rw [hr, hst, hpf, hd, decide_eq_true hslot, he, hg, hknown, hcopies, hmove]
  exact rfl

theorem execRelocation_new {s : State} {lta e : Nat} (hnew : ∀ x ∈ s.md.relocs, x.2.lta ≠ lta) :
    execRelocation lta e s = onlyIf (mayRelocate s lta e) s (startRd (relocRd s lta e) (relocBegun s lta e)) := by
  have hn : s.md.relocs.find? (fun x => x.2.lta == lta) = none := List.find?_eq_none.mpr fun x hx => by
    rw [beq_iff_eq]
    exact hnew x hx
  unfold execRelocation
  rw [hn]
  exact rfl

theorem relocBegun_reloc (s : State) (lta e : Nat) : (relocBegun s lta e).reloc (firstFree s.md.relocs 0) =
    some { lta := lta, old := e, cls := relocClass s (rakeTurn s lta (entPage s e)) (entPage s e) } := Tab.find_put_same _ _ _

theorem relocBegun_online (s : State) (lta e k : Nat) : (relocBegun s lta e).online k = s.online k := by
  show (rakeTurn s lta (entPage s e)).online k = s.online k
  rw [rakeTurn_rest]
  exact rfl

theorem relocBegun_lun (s : State) (lta e k : Nat) : (relocBegun s lta e).lun k = s.lun k := by
  show (rakeTurn s lta (entPage s e)).lun k = s.lun k
  rw [rakeTurn_rest]
  exact rfl

theorem mustMove_rakeTurn (s : State) (lta : Nat) (g : Page) : mustMove (rakeTurn s lta g) g = mustMove s g := by
  rw [rakeTurn_rest]
  exact rfl

theorem rakeTurn_rakeAt {s : State} {lta : Nat} {g : Page} (hm : mustMove s g = false) (hr : (rakeMay s lta g).isSome = true) :
    (rakeTurn s lta g).md.rakeAt = s.now := by
  obtain ⟨b, hb⟩ := Option.isSome_iff_exists.mp hr
  rw [rakeTurn, hm, hb]

/-! ## A staged relocation destaged -/

/-- The job that reads a relocation slot. -/
def relocReadJob (n : Nat) (s : State) : Job :=
  { path := .relocation n
    prio := 3
    vc := 3
    port := s.nextPort.1
    age := 0
    prog := [moveWord true 0 0 0 0 4095 0 (s.img.geo.relocBase + 4160 * n)]
    init := []
    crypt := none
    c0 := false }

/-- A staged relocation whose slot is being read. -/
def relocReading (n : Nat) (s : State) : State := ((s.modReloc n fun r => { r with st := 6 }).nextPort.2).queueJob (relocReadJob n s)

theorem relocDestage_staged {s : State} {n : Nat} {x : Reloc} (hx : s.reloc n = some x) (h1 : x.st = 1) : relocDestage n s = relocReading n s := by
  unfold relocDestage
  rw [hx]
  dsimp only
  rw [h1, if_neg (by decide), if_neg (by decide)]
  exact rfl

theorem relocReading_spec {s : State} {n : Nat} {x : Reloc} (hx : s.reloc n = some x) : (relocReading n s).reloc n = some { x with st := 6 } ∧
    (relocReading n s).mov.jobs = s.mov.jobs ++ [relocReadJob n s] ∧ (relocReading n s).regs = s.regs := by
  refine ⟨?_, rfl, rfl⟩
  show Tab.find n (Tab.modify n (fun r : Reloc => { r with st := 6 }) s.md.relocs) = _
  rw [Tab.find_modify_same, show Tab.find n s.md.relocs = some x from hx]
  exact rfl

theorem execRelocation_staged {s : State} {lta e n : Nat} {x : Reloc} (hb : Backgrounds s) (hf : s.md.relocs.find? (fun x => x.2.lta == lta) = some (n, x)) :
    execRelocation lta e s = .next (relocDestage n s) := by
  obtain ⟨hr, hst, hpf, _⟩ := hb
  unfold execRelocation
  rw [hf]
  dsimp only
  rw [hr, hst, hpf]
  exact onlyIf_true _ _

/-! ## Reclaim (R401) -/

/-- The LUNs of a set whose units are to be erased. -/
def reclaimTodo (s : State) (set : Nat) : List Nat :=
  (s.set_ set).slots.filter fun k => s.online k && decide ((freeUnits s k).length ≤ rclStart s) && !erasePending s k && (awaiting s k).isSome

/-- The erases that reclaim queues. -/
def reclaimErases (s : State) (l : List Nat) : State :=
  l.foldl (fun s k => match awaiting s k with
    | some u => queueErase (unitKey k u) s
    | none => s) s

/-- The wear rule of a set's class noted (R404). -/
def wearNext (s : State) (set : Nat) : List (List Nat) :=
  let c := setClass s set
  if wearRule s c then c :: s.md.wearOn.erase c else s.md.wearOn.erase c
def wearNoted (s : State) (set : Nat) : State := { s with md := { s.md with wearOn := wearNext s set } }

theorem fillReserve_full {s : State} (h : reserveShort s = []) : ∀ fuel, fillReserve fuel s = s
  | 0 => rfl
  | fuel + 1 => by
    rw [fillReserve, h]
    exact rfl

/-- Reclaim may run on a set. -/
def mayReclaim (s : State) (set : Nat) : Bool :=
  s.running && s.stage == 9 && !s.wp.pfail && !s.flag Fld.mapFlushStsDone && (decide (freeGroups s set ≤ rclStart s) || (s.set_ set).drain)

theorem mayReclaim_of {s : State} {set : Nat} (hb : Backgrounds s) (hf : freeGroups s set ≤ rclStart s ∨ (s.set_ set).drain = true) : mayReclaim s set = true := by
  obtain ⟨hr, hst, hpf, hd⟩ := hb
  have h : (decide (freeGroups s set ≤ rclStart s) || (s.set_ set).drain) = true := by
    rw [Bool.or_eq_true, decide_eq_true_eq]
    exact hf
  unfold mayReclaim
  rw [hr, hst, hpf, hd, h]
  exact rfl

theorem execReclaim_erases {s : State} {set : Nat} (hres : reserveShort s = []) (hm : mayReclaim s set = true) (ht : reclaimTodo s set ≠ []) :
    execReclaim set s = .next (reclaimErases s (reclaimTodo s set)) := by
  have he : (reclaimTodo s set).isEmpty = false := by
    rw [List.isEmpty_eq_false_iff]
    exact ht
  unfold execReclaim
  dsimp only
  rw [fillReserve_full hres]
  show onlyIf (mayReclaim s set) s (if (!(reclaimTodo s set).isEmpty) = true then reclaimErases s (reclaimTodo s set) else _) = _
  rw [hm, he]
  exact onlyIf_true _ _

/-- Two states apart in the LUNs' queues alone. -/
def QueuesOnly (s t : State) : Prop := t = { s with md := { s.md with luns := t.md.luns } }

theorem QueuesOnly.trans {s t u : State} (h : QueuesOnly s t) (g : QueuesOnly t u) : QueuesOnly s u := by
  unfold QueuesOnly at *
  rw [g, h]

theorem queueErase_rest (x : Nat) (s : State) : QueuesOnly s (queueErase x s) := rfl

theorem QueuesOnly.awaiting {s t : State} (h : QueuesOnly s t) (k : Nat) : awaiting t k = awaiting s k := by
  rw [h]
  exact rfl

/-- An erase of a unit stands in its LUN's queue. -/
def eraseQueued (s : State) (x : Nat) : Prop := ∃ w ∈ (s.lun (unitLun x)).queue, w.kind = 2 ∧ w.why = .erase x ∧ w.cls = 3

theorem eraseQueued_queueErase_same (x : Nat) (s : State) : eraseQueued (queueErase x s) x :=
  mem_queue_enqueue (fun w => w.kind = 2 ∧ w.why = .erase x ∧ w.cls = 3) rfl s fun _ => ⟨rfl, rfl, rfl⟩

theorem mem_queue_of_enqueue {w v : Want} {k : Nat} {s : State} (h : v ∈ (s.lun k).queue) : v ∈ ((enqueue w s).lun k).queue := by
  by_cases hk : k = w.page.lun
  · subst hk
    rw [State.lun_enqueue]
    exact List.mem_append_left _ h
  · rw [enqueue, State.lun_modLun_ne hk]
    exact h

theorem eraseQueued_queueErase {s : State} {x : Nat} (h : eraseQueued s x) (y : Nat) : eraseQueued (queueErase y s) x := by
  obtain ⟨w, hw, hp⟩ := h
  exact ⟨w, mem_queue_of_enqueue hw, hp⟩

theorem reclaimErases_cons_some {s : State} {k u : Nat} (l : List Nat) (h : awaiting s k = some u) :
    reclaimErases s (k :: l) = reclaimErases (queueErase (unitKey k u) s) l := by
  rw [reclaimErases, List.foldl_cons, h]
  exact rfl

theorem reclaimErases_cons_none {s : State} {k : Nat} (l : List Nat) (h : awaiting s k = none) : reclaimErases s (k :: l) = reclaimErases s l := by
  rw [reclaimErases, List.foldl_cons, h]
  exact rfl

theorem reclaimErases_spec : ∀ (l : List Nat) (s : State), QueuesOnly s (reclaimErases s l) ∧ (∀ x, eraseQueued s x → eraseQueued (reclaimErases s l) x) ∧
    ∀ k ∈ l, ∀ u, awaiting s k = some u → eraseQueued (reclaimErases s l) (unitKey k u)
  | [], s => ⟨rfl, fun _ h => h, fun k hk => absurd hk List.not_mem_nil⟩
  | a :: l, s => by
    cases ha : awaiting s a with
    | none =>
      obtain ⟨hq, hkeep, hall⟩ := reclaimErases_spec l s
      rw [reclaimErases_cons_none l ha]
      refine ⟨hq, hkeep, fun k hk u hu => ?_⟩
      obtain rfl | hk := List.mem_cons.mp hk
      · rw [ha] at hu
        exact absurd hu nofun
      · exact hall k hk u hu
    | some v =>
      have h1 := queueErase_rest (unitKey a v) s
      obtain ⟨hq, hkeep, hall⟩ := reclaimErases_spec l (queueErase (unitKey a v) s)
      rw [reclaimErases_cons_some l ha]
      refine ⟨h1.trans hq, fun x hx => hkeep x (eraseQueued_queueErase hx _), fun k hk u hu => ?_⟩
      obtain rfl | hk := List.mem_cons.mp hk
      · obtain rfl := Option.some.inj (ha.symm.trans hu)
        exact hkeep _ (eraseQueued_queueErase_same _ s)
      · exact hall k hk u ((h1.awaiting k).trans hu)

/-! The classes for which the wear rule is on say nothing of units and groups. -/

theorem State.unit_wearOn (s : State) (v : List (List Nat)) (x : Nat) : State.unit { s with md := { s.md with wearOn := v } } x = s.unit x := rfl
theorem allUnits_wearOn (s : State) (v : List (List Nat)) : allUnits { s with md := { s.md with wearOn := v } } = allUnits s := rfl
theorem geoClass_wearOn (s : State) (v : List (List Nat)) (k : Nat) : geoClass { s with md := { s.md with wearOn := v } } k = geoClass s k := rfl
theorem entUnit_wearOn (s : State) (v : List (List Nat)) (e : Nat) : entUnit { s with md := { s.md with wearOn := v } } e = entUnit s e := rfl

theorem erasable_wearOn (s : State) (v : List (List Nat)) (x : Nat) : erasable { s with md := { s.md with wearOn := v } } x = erasable s x := by
  unfold erasable unsealedFrom
  simp only [entUnit_wearOn, State.unit_wearOn]

theorem pecSpread_wearOn (s : State) (v : List (List Nat)) (c : List Nat) : pecSpread { s with md := { s.md with wearOn := v } } c = pecSpread s c := by
  have h : ((allUnits { s with md := { s.md with wearOn := v } }).filterMap fun x =>
      if geoClass { s with md := { s.md with wearOn := v } } (unitLun x) = c ∧ (State.unit { s with md := { s.md with wearOn := v } } x).estate ≠ 7
      then some (State.unit { s with md := { s.md with wearOn := v } } x).pec else none) =
    (allUnits s).filterMap fun x => if geoClass s (unitLun x) = c ∧ (s.unit x).estate ≠ 7 then some (s.unit x).pec else none := by
    rw [allUnits_wearOn]
    exact rfl
  unfold pecSpread
  rw [h]
theorem closedGroups_wearOn (s : State) (v : List (List Nat)) (set : Nat) : closedGroups { s with md := { s.md with wearOn := v } } set = closedGroups s set := rfl
theorem groupUnits_wearOn (s : State) (v : List (List Nat)) (set : Nat) (g : Grp) : groupUnits { s with md := { s.md with wearOn := v } } set g = groupUnits s set g := rfl
theorem grp_wearOn (s : State) (v : List (List Nat)) (set g : Nat) : State.grp { s with md := { s.md with wearOn := v } } set g = s.grp set g := rfl
theorem groupPec_wearOn (s : State) (v : List (List Nat)) (set : Nat) (g : Grp) : groupPec { s with md := { s.md with wearOn := v } } set g = groupPec s set g := rfl
theorem groupValid_wearOn (s : State) (v : List (List Nat)) (set : Nat) (g : Grp) : groupValid { s with md := { s.md with wearOn := v } } set g = groupValid s set g := rfl
theorem setClass_wearOn (s : State) (v : List (List Nat)) (set : Nat) : setClass { s with md := { s.md with wearOn := v } } set = setClass s set := rfl
theorem pickVictim_wearOn (s : State) (v : List (List Nat)) (c : Nat) (h : wearRule { s with md := { s.md with wearOn := v } } (setClass s c) = wearRule s (setClass s c)) : pickVictim { s with md := { s.md with wearOn := v } } c = pickVictim s c := by
  unfold pickVictim
  simp only [closedGroups_wearOn, groupPec_wearOn, groupValid_wearOn, setClass_wearOn, h]
  congr

/-- Noting the wear rule does not change it. -/
theorem wearRule_wearOn {s : State} {v : List (List Nat)} {c : List Nat} (hv : v = if wearRule s c then c :: s.md.wearOn.erase c else s.md.wearOn.erase c) :
    wearRule { s with md := { s.md with wearOn := v } } c = wearRule s c := by
  have hold : wearRule s c = (decide (s.get Fld.mapWearCfgDelta * 16 < pecSpread s c) ||
    (s.md.wearOn.contains c && decide (s.get Fld.mapWearCfgDelta * 12 ≤ pecSpread s c))) := rfl
  have hnew : wearRule { s with md := { s.md with wearOn := v } } c = (decide (s.get Fld.mapWearCfgDelta * 16 < pecSpread s c) ||
      (v.contains c && decide (s.get Fld.mapWearCfgDelta * 12 ≤ pecSpread s c))) := by
    rw [← pecSpread_wearOn s v]
    exact rfl
  rw [hnew]
  cases hw : wearRule s c with
  | true =>
    have hc : v.contains c = true := by
      rw [hv, hw]
      exact List.contains_iff_mem.mpr List.mem_cons_self
    rw [hc, Bool.true_and]
    rw [hw] at hold
    have := hold.symm
    simp only [Bool.or_eq_true, Bool.and_eq_true, decide_eq_true_eq] at this ⊢
    exact this.imp id fun h => h.2
  | false =>
    rw [hw] at hold
    have h := hold.symm
    rw [Bool.or_eq_false_iff, Bool.and_eq_false_iff] at h
    rw [Bool.or_eq_false_iff, Bool.and_eq_false_iff]
    refine ⟨h.1, h.2.imp (fun hn => ?_) id⟩
    have hm : c ∉ s.md.wearOn := fun hm => absurd (List.contains_iff_mem.mpr hm) (by rw [hn]; exact Bool.false_ne_true)
    rw [hv, hw, if_neg Bool.false_ne_true, List.erase_of_not_mem hm]
    exact hn

theorem wearNext_eq (s : State) (set : Nat) : wearNext s set =
    if wearRule s (setClass s set) then setClass s set :: s.md.wearOn.erase (setClass s set) else s.md.wearOn.erase (setClass s set) := by
  unfold wearNext
  dsimp only

theorem pickVictim_wearNoted (s : State) (set : Nat) : pickVictim (wearNoted s set) set = pickVictim s set := by
  have h := pickVictim_wearOn s (wearNext s set) set (wearRule_wearOn (wearNext_eq s set))
  exact h

theorem erasable_wearNoted (s : State) (set x : Nat) : erasable (wearNoted s set) x = erasable s x := erasable_wearOn s (wearNext s set) x
theorem groupUnits_wearNoted (s : State) (set : Nat) (x : Grp) : groupUnits (wearNoted s set) set x = groupUnits s set x :=
  groupUnits_wearOn s (wearNext s set) set x
theorem grp_wearNoted (s : State) (set n g : Nat) : (wearNoted s set).grp n g = s.grp n g := grp_wearOn s (wearNext s set) n g

theorem execReclaim_picks {s : State} {set g : Nat} (hres : reserveShort s = []) (hm : mayReclaim s set = true) (ht : reclaimTodo s set = [])
    (hv : ∀ v ∈ s.md.victims, v / 2 ^ 18 ≠ set) (hd : (s.set_ set).drain = false) (hg : pickVictim s set = some g) :
    execReclaim set s = .next { wearNoted s set with md := { (wearNoted s set).md with victims := s.md.victims ++ [grpKey set g] } } := by
  have hn : (s.md.victims.filter fun v => v / 2 ^ 18 == set) = [] := List.filter_eq_nil_iff.mpr fun v hm => by
    rw [beq_iff_eq]
    exact hv v hm
  unfold mayReclaim at hm
  unfold reclaimTodo at ht
  unfold execReclaim
  dsimp only
  rw [fillReserve_full hres, hm, ht]
  refine (onlyIf_true _ _).trans (congrArg Host.Outcome.next ?_)
  refine (if_neg (by decide)).trans ?_
  rw [hn]
  dsimp only
  refine (if_neg (fun h => absurd (h.1.symm.trans hd) nofun)).trans ?_
  have hp := pickVictim_wearNoted s set
  unfold wearNoted wearNext at hp
  dsimp only at hp
  simp only [hp, hg, wearNoted, wearNext]

theorem execReclaim_frees {s : State} {set v : Nat} {x : Grp} (hres : reserveShort s = []) (hm : mayReclaim s set = true) (ht : reclaimTodo s set = [])
    (hv : s.md.victims.find? (fun v => v / 2 ^ 18 == set) = some v) (hx : s.grp set (v % 2 ^ 18) = some x) (he : ∀ k ∈ groupUnits s set x, erasable s k = true) :
    execReclaim set s = .next (freeVictim set (v % 2 ^ 18) (wearNoted s set)) := by
  have hf : (s.md.victims.filter fun v => v / 2 ^ 18 == set).head? = some v := by
    rw [List.head?_filter]
    exact hv
  obtain ⟨r, hr⟩ := List.head?_eq_some_iff.mp hf
  have hxw : (wearNoted s set).grp set (v % 2 ^ 18) = some x := (grp_wearNoted s set set _).trans hx
  have hall : (groupUnits (wearNoted s set) set x).all (erasable (wearNoted s set)) = true :=
    List.all_eq_true.mpr fun k hk => (erasable_wearNoted s set k).trans (he k (groupUnits_wearNoted s set x ▸ hk))
  unfold wearNoted wearNext at hxw hall
  dsimp only at hxw hall
  unfold mayReclaim at hm
  unfold reclaimTodo at ht
  unfold execReclaim
  dsimp only
  rw [fillReserve_full hres, hm, ht]
  refine (onlyIf_true _ _).trans (congrArg Host.Outcome.next ?_)
  refine (if_neg (by decide)).trans ?_
  rw [hr]
  dsimp only
  rw [hxw]
  exact if_pos hall

/-- A victim's units await erase, and its group goes. -/
theorem freeVictim_spec {s : State} {set g : Nat} {x : Grp} (hx : s.grp set g = some x) (hr : ∀ k ∈ groupUnits s set x, (s.unit k).retire = false) :
    (freeVictim set g s).grp set g = none ∧ (freeVictim set g s).md.victims = s.md.victims.erase (grpKey set g) ∧ (freeVictim set g s).regs = s.regs ∧
      ∀ k ∈ groupUnits s set x, ((freeVictim set g s).unit k).estate = 1 ∧ ((freeVictim set g s).unit k).refresh = false := by
  have hfold : ∀ (l : List Nat) (t : State), (∀ k ∈ l, (t.unit k).retire = false) →
      l.foldl (fun s k => if (s.unit k).retire then retireUnit k s else putUnit k (fun u => { u with estate := 1, refresh := false }) s) t =
        l.foldl (fun s k => putUnit k (fun u => { u with estate := 1, refresh := false }) s) t := by
    intro l
    induction l with
    | nil => exact fun _ _ => rfl
    | cons a l ih =>
      intro t ht
      rw [List.foldl_cons, List.foldl_cons, ht a List.mem_cons_self, if_neg Bool.false_ne_true]
      refine ih _ fun k hk => ?_
      by_cases hka : k = a
      · subst hka
        rw [State.unit_putUnit_same]
        exact ht k List.mem_cons_self
      · rw [State.unit_putUnit_ne hka]
        exact ht k (List.mem_cons_of_mem _ hk)
  obtain ⟨hm, hin, _⟩ := foldl_putUnit (fun u => { u with estate := 1, refresh := false }) (fun _ => rfl) (groupUnits s set x) s
  unfold freeVictim
  rw [hx]
  dsimp only
  rw [hfold _ _ hr]
  generalize (groupUnits s set x).foldl (fun s k => putUnit k (fun u => { u with estate := 1, refresh := false }) s) s = u at hm hin ⊢
  refine ⟨Tab.find_del_same _ _, ?_, ?_, fun k hk => ?_⟩
  · show u.md.victims.erase _ = _
    rw [hm]
  · show u.regs = _
    rw [hm]
  · show (u.unit k).estate = 1 ∧ (u.unit k).refresh = false
    rw [hin k hk]
    exact ⟨rfl, rfl⟩

end Sys2Proof.Machine
end

section
/-! PROOFS. O39, concluded. -/
namespace Sys2Proof.Machine

/-! ## The rake (R407, R408) -/

/-- The units of the closed data groups. -/
def patrolUnits (s : State) : List Nat := s.md.sets.flatMap fun e => (closedGroups s e.1).flatMap fun g => groupUnits s e.1 g.2

/-- A unit whose group has been closed for RETAIN_D days. -/
def unitStale (s : State) (x : Nat) : Bool := decide ((s.unit x).closeAt + max 1 (s.get Fld.mapRakeCfgRetainD) * 86400000000000 ≤ s.now)

/-- The stale units of a patrol marked. -/
def patrolMarked (s : State) : State := ((patrolUnits s).filter (unitStale s)).foldl (fun s x => putUnit x (fun u => { u with refresh := true }) s) s

/-- The reads of a patrol started. -/
def patrolStarted (l : List Nat) (s : State) : State := l.foldl (fun s x => (patrolReads s x).foldl (fun s r => startRd r s) s) s

theorem execRakePatrol_eq {s : State} (hr : s.running = true) (hst : s.stage = 9)
    (hd : s.md.patrolAt + max 1 (s.get Fld.mapRakeCfgPatrolH) * 3600000000000 ≤ s.now) :
    ∃ t, exec .rakePatrol s = .next { t with md := { t.md with patrolAt := t.now } } ∧ t = patrolStarted (patrolUnits s) (patrolMarked s) := by
  refine ⟨_, ?_, rfl⟩
  show execRakePatrol s = _
  have hmark : patrolMarked s = (patrolUnits s).foldl (fun t x => if unitStale s x then putUnit x (fun u => { u with refresh := true }) t else t) s :=
    List.foldl_filter
  rw [hmark]
  unfold execRakePatrol
  dsimp only
  rw [hr, hst, decide_eq_true hd]
  exact onlyIf_true _ _

theorem own_of_mem_patrolReads {s : State} {x : Nat} {r : Rd} (h : r ∈ patrolReads s x) : r.own = .patrol := by
  simp only [patrolReads, List.mem_flatMap, List.mem_map] at h
  obtain ⟨_, _, _, _, rfl⟩ := h
  exact rfl

theorem RdOnly.foldl_mem {β : Type} {f : State → β → State} : ∀ (l : List β) (s : State), (∀ s, ∀ b ∈ l, RdOnly s (f s b)) → RdOnly s (l.foldl f s)
  | [], s, _ => RdOnly.refl s
  | a :: l, s, h => (h s a List.mem_cons_self).trans (RdOnly.foldl_mem l (f s a) fun u b hb => h u b (List.mem_cons_of_mem _ hb))

theorem patrolStarted_rdOnly (l : List Nat) (s : State) : RdOnly s (patrolStarted l s) :=
  RdOnly.foldl l s fun u x => RdOnly.foldl_mem _ u fun v r hr => RdOnly.startRd r v fun a b h => by
    rw [own_of_mem_patrolReads hr] at h
    exact RdOwner.noConfusion h

theorem patrolMarked_spec (s : State) : UnitsMoved s (patrolMarked s) ∧ ∀ x ∈ patrolUnits s, unitStale s x = true → ((patrolMarked s).unit x).refresh = true := by
  obtain ⟨hm, hin, _⟩ := foldl_putUnit (fun u => { u with refresh := true }) (fun _ => rfl) ((patrolUnits s).filter (unitStale s)) s
  refine ⟨hm, fun x hx hs => ?_⟩
  show ((((patrolUnits s).filter (unitStale s)).foldl (fun s x => putUnit x (fun u => { u with refresh := true }) s) s).unit x).refresh = true
  rw [hin x (List.mem_filter.mpr ⟨hx, hs⟩)]

/-- The unit taken up has been emptied: its flag clears, and it is counted. -/
def refreshDone (x : Nat) (s : State) : State :=
  (putUnit x (fun u => { u with refresh := false }) { s with md := { s.md with rakeUnit := none } }).inc Fld.mapRakeStsDone

theorem refreshDone_spec (x : Nat) (s : State) : (refreshDone x s).md.rakeUnit = none ∧ (refreshDone x s).unit x = { s.unit x with refresh := false } ∧
    (refreshDone x s).get Fld.mapRakeStsDone = min Fld.mapRakeStsDone.max (s.get Fld.mapRakeStsDone + 1) := by
  have hu := UnitsMoved.putUnit x (fun u => { u with refresh := false }) { s with md := { s.md with rakeUnit := none } }
  have hx := State.unit_putUnit_same x (fun u => { u with refresh := false }) { s with md := { s.md with rakeUnit := none } }
  unfold refreshDone
  generalize putUnit x (fun u => { u with refresh := false }) { s with md := { s.md with rakeUnit := none } } = u at hu hx ⊢
  refine ⟨?_, hx, ?_⟩
  · show u.md.rakeUnit = none
    rw [hu]
  · rw [State.get_inc_same _ _ (by decide), State.get_of_regs (s := s) (t := u) (by rw [hu])]

/-! ## Hot LUNs (R312) -/

/-- A LUN's window evaluated. -/
def windowOf (deep : Bool) (l : LunSt) : LunSt :=
  let o := if deep then min 8 (l.above + 1) else 0
  let u := if deep then 0 else min 8 (l.below + 1)
  { l with above := o, below := u, hot := if l.hot then !decide (u = 8) else decide (o = 8) }

/-- The windows of some LUNs evaluated. -/
def windowsEnd (q : Nat) (l : List Nat) (s : State) : State := l.foldl (fun s k => modLun k (windowOf (decide (q < hotDepth s k))) s) s

theorem windowsEnd_spec (q : Nat) : ∀ (l : List Nat) (s : State), l.Nodup → QueuesOnly s (windowsEnd q l s) ∧
    (∀ k ∈ l, (windowsEnd q l s).lun k = windowOf (decide (q < hotDepth s k)) (s.lun k)) ∧ ∀ k, k ∉ l → (windowsEnd q l s).lun k = s.lun k
  | [], s, _ => ⟨rfl, fun k h => absurd h List.not_mem_nil, fun _ _ => rfl⟩
  | a :: l, s, hn => by
    obtain ⟨ha, hl⟩ := List.nodup_cons.mp hn
    have h1 : QueuesOnly s (modLun a (windowOf (decide (q < hotDepth s a))) s) := rfl
    obtain ⟨hq, hin, hout⟩ := windowsEnd_spec q l (modLun a (windowOf (decide (q < hotDepth s a))) s) hl
    rw [show windowsEnd q (a :: l) s = windowsEnd q l (modLun a (windowOf (decide (q < hotDepth s a))) s) from rfl]
    refine ⟨h1.trans hq, fun k hk => ?_, fun k hk => ?_⟩
    · by_cases hka : k = a
      · rw [hka, hout a ha, State.lun_modLun_same]
      · have hother := State.lun_modLun_ne hka (windowOf (decide (q < hotDepth s a))) s
        rw [hin k ((List.mem_cons.mp hk).resolve_left hka), hotDepth, hother, hotDepth]
    · rw [hout k fun h => hk (List.mem_cons_of_mem _ h), State.lun_modLun_ne fun h => hk (List.mem_cons.mpr (.inl h))]

theorem execHotWindow_eq {s : State} (hr : s.running = true) (hd : s.md.hotAt + 10000000 ≤ s.now) :
    ∃ u, u = windowsEnd (s.get Fld.mapHotCfgQdepth) (onlineLuns s) s ∧
      exec .hotWindow s = .next { u with md := { u.md with hotAt := u.now, hotTab := u.md.hotTab.filter fun e => !!(u.lun e.2.2).hot } } := by
  refine ⟨_, rfl, ?_⟩
  show execHotWindow s = _
  unfold execHotWindow
  dsimp only
  rw [hr, decide_eq_true hd]
  exact onlyIf_true _ _

theorem windowOf_deep (l : LunSt) : (windowOf true l).above = min 8 (l.above + 1) ∧ (windowOf true l).below = 0 ∧
    (windowOf true l).hot = (l.hot || decide (l.above ≥ 7)) := by
  refine ⟨rfl, rfl, ?_⟩
  show (if l.hot then !decide (0 = 8) else decide (min 8 (l.above + 1) = 8)) = _
  cases l.hot with
  | true => exact rfl
  | false =>
    rw [if_neg Bool.false_ne_true, Bool.false_or, decide_eq_decide]
    omega

theorem windowOf_shallow (l : LunSt) : (windowOf false l).above = 0 ∧ (windowOf false l).below = min 8 (l.below + 1) ∧
    (windowOf false l).hot = (l.hot && !decide (l.below ≥ 7)) := by
  refine ⟨rfl, rfl, ?_⟩
  show (if l.hot then !decide (min 8 (l.below + 1) = 8) else decide (0 = 8)) = _
  cases l.hot with
  | true =>
    rw [if_pos rfl, Bool.true_and]
    refine congrArg Bool.not (decide_eq_decide.mpr ?_)
    omega
  | false => exact rfl

theorem wearNoted_regs (s : State) (set : Nat) : (wearNoted s set).regs = s.regs := by rw [wearNoted]
/-- A victim picked. -/
def victimPicked (s : State) (set g : Nat) : State :=
  { wearNoted s set with md := { (wearNoted s set).md with victims := s.md.victims ++ [grpKey set g] } }

theorem victimPicked_spec (s : State) (set g : Nat) : (victimPicked s set g).md.victims = s.md.victims ++ [grpKey set g] ∧ (victimPicked s set g).regs = s.regs ∧
    (victimPicked s set g).fab = s.fab := by
  simp only [victimPicked, wearNoted, and_self]
theorem wearNoted_victims (s : State) (set : Nat) : (wearNoted s set).md.victims = s.md.victims := by rw [wearNoted]
theorem unit_wearNoted (s : State) (set x : Nat) : (wearNoted s set).unit x = s.unit x := State.unit_wearOn s (wearNext s set) x

/-- Settles O39: each background command by the equation of its case. -/
theorem reclaimAndRake : Obligations.ReclaimAndRake := by
  unfold Obligations.ReclaimAndRake
  intro s hb
  have hbg := hb
  obtain ⟨hr, hst, hpf, hfd⟩ := hb
  refine ⟨fun lta e hnew hslot he hg hk hown hm => ?_, fun lta e n x hf hx h1 => ?_, fun set hfree hres => ⟨fun k hk u hu => ?_, fun ht hv hd g hg => ?_,
    fun ht v x hv hx hall => ?_⟩, fun hd => ?_, fun hn x hx => ?_, fun x hx hv => ?_, fun hd hnd => ?_⟩
  · have hexec : exec (.relocation lta e) s = .next (startRd (relocRd s lta e) (relocBegun s lta e)) := by
      show execRelocation lta e s = _
      rw [execRelocation_new hnew, mayRelocate_of hbg hslot he hg hk hown hm]
      exact onlyIf_true _ _
    have hown' : ∀ a b, (relocRd s lta e).own ≠ .tile a b := fun _ _ h => RdOwner.noConfusion h
    have hrd := RdOnly.startRd (relocRd s lta e) (relocBegun s lta e) hown'
    refine ⟨_, hexec, fun hon hstall => ?_⟩
    obtain ⟨b, hb⟩ := startRd_stands (s := relocBegun s lta e) hown' ((relocBegun_online s lta e _).trans hon) (by
      rw [relocBegun_lun]
      exact hstall)
    refine ⟨_, { lta := lta, old := e, cls := relocClass s (rakeTurn s lta (entPage s e)) (entPage s e) }, _, ?_, rfl, rfl, rfl, hb, rfl, rfl, rfl, rfl,
      rfl, fun hmm => ⟨?_, ?_⟩⟩
    · rw [hrd]
      exact relocBegun_reloc s lta e
    · show (if mustMove (rakeTurn s lta (entPage s e)) (entPage s e) then _ else 3) = 3
      rw [mustMove_rakeTurn, hmm]
      exact if_neg Bool.false_ne_true
    · rw [hrd]
      exact rakeTurn_rakeAt hmm (hm.resolve_left (by rw [hmm]; exact Bool.false_ne_true))
  · obtain ⟨hrel, hjobs, hregs⟩ := relocReading_spec hx
    have hexec : exec (.relocation lta e) s = .next (relocReading n s) := by
      show execRelocation lta e s = _
      rw [execRelocation_staged hbg hf, relocDestage_staged hx h1]
    exact ⟨relocReading n s, relocReadJob n s, hexec, hrel, hjobs, rfl, rfl, hregs⟩
  · have hne : reclaimTodo s set ≠ [] := List.ne_nil_of_mem hk
    obtain ⟨hq, _, hall⟩ := reclaimErases_spec (reclaimTodo s set) s
    refine ⟨_, execReclaim_erases hres (mayReclaim_of hbg hfree) hne, ?_, ?_, hall k hk u hu⟩
    · rw [hq]
    · rw [hq]
  · obtain ⟨hvict, hregs, hfab⟩ := victimPicked_spec s set g
    exact ⟨victimPicked s set g, execReclaim_picks hres (mayReclaim_of hbg hfree) ht hv hd hg, hvict, hregs, hfab⟩
  · have hgx : (wearNoted s set).grp set (v % 2 ^ 18) = some x := (grp_wearNoted s set set _).trans hx
    obtain ⟨hgone, hvict, hregs, hunits⟩ := freeVictim_spec hgx fun k hk => by
      rw [unit_wearNoted]
      rw [groupUnits_wearNoted] at hk
      exact (hall k hk).2
    have hkey : grpKey set (v % 2 ^ 18) = v := by
      have hbeq := List.find?_some hv
      have hset := beq_iff_eq.mp hbeq
      rw [grpKey, ← hset]
      exact Nat.div_add_mod' v _
    have hexec : exec (.reclaim set) s = .next (freeVictim set (v % 2 ^ 18) (wearNoted s set)) :=
      execReclaim_frees hres (mayReclaim_of hbg hfree) ht hv hx fun k hk => (hall k hk).1
    refine ⟨freeVictim set (v % 2 ^ 18) (wearNoted s set), hexec, hgone, ?_, hregs.trans (wearNoted_regs s set), fun k hk => hunits k ?_⟩
    · rw [hvict, hkey, wearNoted_victims]
    · rw [groupUnits_wearNoted]
      exact hk
  · obtain ⟨t, hexec, ht⟩ := execRakePatrol_eq hr hst hd
    have hrd := patrolStarted_rdOnly (patrolUnits s) (patrolMarked s)
    obtain ⟨hum, hmark⟩ := patrolMarked_spec s
    rw [← ht] at hrd
    refine ⟨_, hexec, ?_, fun e he g hg x hx hold => ?_⟩
    · show t.now = s.now
      rw [hrd, hum]
      exact rfl
    · show (t.unit x).refresh = true
      rw [State.unit, hrd]
      exact hmark x (List.mem_flatMap.mpr ⟨e, he, List.mem_flatMap.mpr ⟨g, hg, hx⟩⟩) (decide_eq_true hold)
  · show execRakeRefresh s = _
    rw [execRakeRefresh, hn]
    dsimp only
    rw [hx, hr, hst]
    exact onlyIf_true _ _
  · obtain ⟨h1, h2, h3⟩ := refreshDone_spec x s
    refine ⟨refreshDone x s, ?_, h1, h2, h3⟩
    show execRakeRefresh s = _
    rw [execRakeRefresh, hx]
    dsimp only
    rw [hr, decide_eq_true hv]
    exact onlyIf_true _ _
  · obtain ⟨u, hu, hexec⟩ := execHotWindow_eq hr hd
    obtain ⟨hq, hin, _⟩ := windowsEnd_spec (s.get Fld.mapHotCfgQdepth) (onlineLuns s) s hnd
    rw [← hu] at hq hin
    refine ⟨_, hexec, ?_, ?_, fun k hk => ⟨fun hdeep => ?_, fun hshallow => ?_⟩, fun e he => ?_⟩
    · show u.regs = s.regs
      rw [hq]
    · show u.now = s.now
      rw [hq]
      exact rfl
    · show (u.lun k).above = _ ∧ (u.lun k).below = 0 ∧ (u.lun k).hot = _
      rw [hin k hk, decide_eq_true hdeep]
      exact windowOf_deep _
    · show (u.lun k).above = 0 ∧ (u.lun k).below = _ ∧ (u.lun k).hot = _
      rw [hin k hk, decide_eq_false (Nat.not_lt_of_le hshallow)]
      exact windowOf_shallow _
    · have h := (List.mem_filter.mp he).2
      rw [Bool.not_not] at h
      exact h

end Sys2Proof.Machine
end

section
/-! SUPPORT. Rebuilds: what taking up a group and ending a rebuild leave as they were. -/
namespace Sys2Proof.Machine

/-! ## Registers of a reconstruction's start -/

theorem placePlain_regs (id : Nat) (front : Bool) (s : State) : (placePlain id front s).regs = s.regs := by
  unfold placePlain
  split
  · exact rfl
  · exact rfl

theorem withGauge_regs {go : State → State} (h : ∀ s, (go s).regs = s.regs) (id : Nat) (s : State) : (withGauge id go s).regs = s.regs := by
  unfold withGauge
  split
  · exact rfl
  · split
    · exact h _
    · dsimp only
      split
      · exact rfl
      · rw [dramRead_rest]
        exact rfl

theorem askPartner_regs (id set n : Nat) (x : Grp) (row q pos cls rtag : Nat) (s : State) : (askPartner id set n x row q pos cls rtag s).regs = s.regs := by
  unfold askPartner
  split
  · exact rfl
  · exact (withGauge_regs (fun u => placePlain_regs _ _ u) _ _)

theorem State.foldl_regs {β : Type} {f : State → β → State} (l : List β) (s : State) (h : ∀ s b, (f s b).regs = s.regs) : (l.foldl f s).regs = s.regs :=
  List.foldlRecOn l f (motive := fun t => t.regs = s.regs) rfl fun u hu b _ => (h u b).trans hu

/-- A reconstruction's start counts no more than an UNCORRECTABLE read. -/
theorem startRecon_reg {k : RegKind} (hk : k ≠ .cryOutCnt) (id : Nat) (around : Bool) (s : State) (i : Nat) : (startRecon id around s).reg k i = s.reg k i := by
  unfold startRecon
  split
  · exact rfl
  · split
    · exact State.reg_of_regs ((State.foldl_regs _ _ fun u p => askPartner_regs _ _ _ _ _ _ _ _ _ u).trans rfl) k i
    · split
      · exact rfl
      · unfold uncorrRd
        split
        · exact rfl
        · split
          · exact rfl
          · exact State.reg_put_kind s (g := Fld.cryOutCntUncorr) hk _ 0 i

/-! ## A group taken up (R316) -/

/-- Two states apart in the reads, the block table, the group in work and what taking one up counts. -/
def RebuildOnly (s t : State) : Prop := t = { s with
  regs := t.regs
  fab := t.fab
  pwr := t.pwr
  md := { s.md with
    rds := t.md.rds
    rdNext := t.md.rdNext
    luns := t.md.luns
    gauge := t.md.gauge
    gaugeT := t.md.gaugeT
    units := t.md.units
    rebuilding := t.md.rebuilding } }

namespace RebuildOnly
variable {s t u : State}

theorem refl (s : State) : RebuildOnly s s := rfl

theorem trans (h : RebuildOnly s t) (g : RebuildOnly t u) : RebuildOnly s u := by
  unfold RebuildOnly at *
  rw [g, h]

theorem of_rd (h : RdOnly s t) : RebuildOnly s t := by
  unfold RebuildOnly
  rw [h]

theorem of_units (h : UnitsMoved s t) : RebuildOnly s t := by
  unfold RebuildOnly
  rw [h]

theorem rebuilding (s : State) (w : Option Rebuild) : RebuildOnly s { s with md := { s.md with rebuilding := w } } := rfl

end RebuildOnly

/-- The read of a lost row unit's member, reconstructed from its stripe. -/
def rebuildRead (w : Rebuild) (x : Grp) (s : State) (q : Nat) : State :=
  let m := qPage s w.lun w.old x.slc w.row q
  let a := s.addRd {
    own := .rebuild q
    cls := 3
    rtag := 0
    entry := 0
    page := m.1
    cw := m.2
    lta := 0
    keyidx := anyKey
    kind := kData
    ladder := false }
  startRecon a.1 false a.2

theorem rebuildRead_only (w : Rebuild) (x : Grp) (s : State) (q : Nat) : RdOnly s (rebuildRead w x s q) := (RdOnly.addRd _ _).trans (RdOnly.startRecon _ _ _)

theorem rebuildRead_reg {k : RegKind} (hk : k ≠ .cryOutCnt) (w : Rebuild) (x : Grp) (s : State) (q i : Nat) : (rebuildRead w x s q).reg k i = s.reg k i :=
  startRecon_reg hk _ _ _ i

theorem rebuildRow_only (s : State) : RebuildOnly s (rebuildRow s) ∧ ∀ k, k ≠ .cryOutCnt → ∀ i, (rebuildRow s).reg k i = s.reg k i := by
  have h0 : RebuildOnly s s ∧ ∀ k, k ≠ .cryOutCnt → ∀ i, s.reg k i = s.reg k i := ⟨RebuildOnly.refl s, fun _ _ _ => rfl⟩
  unfold rebuildRow
  split
  · next w _ _ =>
    split
    · exact h0
    · next x _ =>
      split
      · exact ⟨RebuildOnly.rebuilding s _, fun _ _ _ => rfl⟩
      · refine ⟨RebuildOnly.of_rd (RdOnly.foldl _ s fun u q => rebuildRead_only w x u q), fun k hk i => ?_⟩
        exact List.foldlRecOn _ _ (motive := fun t => t.reg k i = s.reg k i) rfl fun u hu q _ => (rebuildRead_reg hk w x u q i).trans hu
  · exact h0

theorem putUnit_reg (x : Nat) (f : UnitE → UnitE) (s : State) (k : RegKind) (i : Nat) : (putUnit x f s).reg k i = s.reg k i := by
  rw [putUnit_rest]
  exact rfl

/-- The spare's unit, named for a group. -/
def takenUnit (set g : Nat) (x : Grp) (y : UnitE) : UnitE :=
  { y with
    estate := if x.slc then (if x.gstate = 0 then 4 else 5) else 2
    slc := x.slc
    gref := gref set g
    valid := 0 }

/-- The work on a group taken up. -/
def takenWork (g slot k u set : Nat) (x : Grp) (s : State) : Rebuild :=
  { g := g
    lun := (lostLun s set g slot).getD k
    old := (x.unit[slot]?).getD 0
    unit := u
    row := 0
    mem := []
    tiles := []
    done := false }

/-- A state with a group in work. -/
def withWork (w : Rebuild) (s : State) : State := { s with md := { s.md with rebuilding := some w } }

/-- A group taken up, its unit named, before its first row. -/
def groupTaken (g slot k u set : Nat) (x : Grp) (s : State) : State :=
  withWork (takenWork g slot k u set x s) (putUnit (unitKey k u) (fun y => takenUnit set g x y) s)

theorem RebuildOnly.withWork (w : Rebuild) (s : State) : RebuildOnly s (withWork w s) := rfl

theorem withWork_reg (w : Rebuild) (s : State) (k : RegKind) (i : Nat) : (withWork w s).reg k i = s.reg k i := rfl

theorem groupTaken_only (g slot k u set : Nat) (x : Grp) (s : State) : RebuildOnly s (groupTaken g slot k u set x s) ∧
    ∀ a i, (groupTaken g slot k u set x s).reg a i = s.reg a i := by
  exact ⟨(RebuildOnly.of_units (UnitsMoved.putUnit (unitKey k u) (fun y => takenUnit set g x y) s)).trans (RebuildOnly.withWork _ _),
    fun a i => (withWork_reg _ _ a i).trans (putUnit_reg (unitKey k u) (fun y => takenUnit set g x y) s a i)⟩

theorem rebuildGo_only (s : State) : RebuildOnly s (rebuildGo s) ∧ ∀ k, k ≠ .cryOutCnt → ∀ i, (rebuildGo s).reg k i = s.reg k i := by
  have h0 : RebuildOnly s s ∧ ∀ k, k ≠ .cryOutCnt → ∀ i, s.reg k i = s.reg k i := ⟨RebuildOnly.refl s, fun _ _ _ => rfl⟩
  unfold rebuildGo
  split
  · next set slot _ _ _ =>
    split
    · next g k _ _ =>
      split
      · next u x _ _ =>
        have ht := groupTaken_only g slot k u set x s
        have hr := rebuildRow_only (groupTaken g slot k u set x s)
        have hc : RebuildOnly s (rebuildRow (groupTaken g slot k u set x s)) ∧ ∀ a, a ≠ .cryOutCnt → ∀ i,
            (rebuildRow (groupTaken g slot k u set x s)).reg a i = s.reg a i :=
          ⟨ht.1.trans hr.1, fun a ha i => (hr.2 a ha i).trans (ht.2 a i)⟩
        simp only [groupTaken, withWork, takenWork, takenUnit] at hc
        exact hc
      · exact h0
    · exact h0
  · exact h0

/-! ## A rebuild ended -/

/-- A state with some groups left to the present rebuild, and with some rebuilds. -/
def withLeft (l : List Nat) (s : State) : State := { s with md := { s.md with rebuildLeft := l } }
def withRebuilds (r : List (Nat × Nat)) (s : State) : State := { s with md := { s.md with rebuilds := r } }

/-- A rebuild over: its slot is no longer lost. -/
def rebuildOver (set slot : Nat) (rest : List (Nat × Nat)) (left : List Nat) (s : State) : State :=
  budget (withRebuilds rest ((withLeft left s).modSet set fun x => { x with lost := x.lost &&& (2 ^ 18 - 1 - 2 ^ slot) }))

/-- What the end of rebuilds leaves: groups, spares, lost LUNs, the write path, and of every set all but its lost slots. -/
structure RebuildKept (s t : State) : Prop where
  groups : t.md.groups = s.md.groups
  spares : t.md.spares = s.md.spares
  offQ : t.md.offQ = s.md.offQ
  wp : t.wp = s.wp
  sets : ∀ n x, Tab.find n s.md.sets = some x → ∃ l, Tab.find n t.md.sets = some { x with lost := l }

namespace RebuildKept
variable {s t u : State}

theorem refl (s : State) : RebuildKept s s := ⟨rfl, rfl, rfl, rfl, fun _ x h => ⟨x.lost, h⟩⟩

theorem trans (h : RebuildKept s t) (g : RebuildKept t u) : RebuildKept s u := by
  refine ⟨g.groups.trans h.groups, g.spares.trans h.spares, g.offQ.trans h.offQ, g.wp.trans h.wp, fun n x hx => ?_⟩
  obtain ⟨l, hl⟩ := h.sets n x hx
  obtain ⟨m, hm⟩ := g.sets n _ hl
  exact ⟨m, hm⟩

theorem of_only (h : RebuildOnly s t) : RebuildKept s t := by
  refine ⟨?_, ?_, ?_, ?_, fun n x hx => ⟨x.lost, ?_⟩⟩
  · rw [h]
  · rw [h]
  · rw [h]
  · rw [h]
  · rw [h]
    exact hx

theorem of_sets (hg : t.md.groups = s.md.groups) (hs : t.md.spares = s.md.spares) (ho : t.md.offQ = s.md.offQ) (hw : t.wp = s.wp)
    (hset : t.md.sets = s.md.sets) : RebuildKept s t := ⟨hg, hs, ho, hw, fun n x hx => ⟨x.lost, by rw [hset]; exact hx⟩⟩

theorem modSet_lost (n : Nat) (f : Nat → Nat) (s : State) : RebuildKept s (s.modSet n fun x => { x with lost := f x.lost }) := by
  refine ⟨rfl, rfl, rfl, rfl, fun m x hx => ?_⟩
  show ∃ l, Tab.find m (Tab.modify n (fun x : SetSt => { x with lost := f x.lost }) s.md.sets) = some { x with lost := l }
  by_cases hmn : m = n
  · subst hmn
    rw [Tab.find_modify_same, hx]
    exact ⟨f x.lost, rfl⟩
  · rw [Tab.find_modify_ne hmn, hx]
    exact ⟨x.lost, rfl⟩

theorem budget (s : State) : RebuildKept s (budget s) := by
  rw [budget_rest]
  exact of_sets rfl rfl rfl rfl rfl

theorem withLeft (l : List Nat) (s : State) : RebuildKept s (withLeft l s) := of_sets rfl rfl rfl rfl rfl
theorem withRebuilds (r : List (Nat × Nat)) (s : State) : RebuildKept s (withRebuilds r s) := of_sets rfl rfl rfl rfl rfl

theorem newLeft (l : List Nat) (s : State) : RebuildKept s ((Machine.withLeft l s).put Fld.mapRbProgGroups 0) := of_sets rfl rfl rfl rfl rfl

theorem rebuildOver (set slot : Nat) (rest : List (Nat × Nat)) (left : List Nat) (s : State) : RebuildKept s (rebuildOver set slot rest left s) :=
  (withLeft left s).trans ((modSet_lost set (fun l => l &&& (2 ^ 18 - 1 - 2 ^ slot)) _).trans ((withRebuilds rest _).trans (budget _)))

end RebuildKept

/-- The groups left to a rebuild whose slot is still lost. -/
def stillLost (s : State) (set slot : Nat) (l : List Nat) : List Nat := l.filter fun g => ((s.grp set g).map fun x => x.lost.testBit slot).getD false

theorem rebuildEnd_nil {s : State} (h : s.md.rebuilds = []) : ∀ fuel, rebuildEnd fuel s = s
  | 0 => rfl
  | fuel + 1 => by
    unfold rebuildEnd
    rw [h]

/-- The groups left first, then the rebuild's end or its next group. -/
theorem rebuildEnd_cons {s : State} {set slot : Nat} {rest : List (Nat × Nat)} (h : s.md.rebuilds = (set, slot) :: rest) (fuel : Nat) :
    rebuildEnd (fuel + 1) s = if (stillLost s set slot s.md.rebuildLeft).isEmpty ∧ s.md.rebuilding.isNone then
        (rest.head?.elim (rebuildOver set slot rest (stillLost s set slot s.md.rebuildLeft) s) fun e =>
          rebuildEnd fuel ((withLeft (stillLost (rebuildOver set slot rest (stillLost s set slot s.md.rebuildLeft) s) e.1 e.2
            (setGroups (rebuildOver set slot rest (stillLost s set slot s.md.rebuildLeft) s) e.1))
              (rebuildOver set slot rest (stillLost s set slot s.md.rebuildLeft) s)).put Fld.mapRbProgGroups 0))
      else rebuildGo (withLeft (stillLost s set slot s.md.rebuildLeft) s) := by
  conv_lhs => unfold rebuildEnd
  rw [h]
  cases rest with
  | nil => exact rfl
  | cons e r => exact rfl

namespace RebuildKept
variable {s t u : State}

theorem rebuildEnd : ∀ (fuel : Nat) (s : State), RebuildKept s (rebuildEnd fuel s)
  | 0, s => refl s
  | fuel + 1, s => by
    cases hr : s.md.rebuilds with
    | nil =>
      rw [rebuildEnd_nil hr]
      exact refl s
    | cons e rest =>
      have ho := rebuildOver e.1 e.2 rest (stillLost s e.1 e.2 s.md.rebuildLeft) s
      rw [rebuildEnd_cons hr]
      split
      · cases rest with
        | nil => exact ho
        | cons f r => exact ho.trans ((newLeft _ _).trans (rebuildEnd fuel _))
      · exact (withLeft _ s).trans (of_only (rebuildGo_only _).1)

theorem nextRebuild (s : State) : RebuildKept s (nextRebuild s) := by
  unfold Machine.nextRebuild
  split
  · exact refl s
  · split
    · exact (newLeft _ s).trans (rebuildEnd _ _)
    · exact refl s

end RebuildKept

end Sys2Proof.Machine
end

section
/-! PROOFS. O40: a LUN that has gone offline. -/
namespace Sys2Proof.Machine

/-! ## A slot marked lost (R315) -/

/-- Two states apart in the group table and its traffic alone. -/
def GroupsMoved (s t : State) : Prop := t = { s with
  fab := t.fab
  pwr := t.pwr
  md := { s.md with groups := t.md.groups } }

namespace GroupsMoved
variable {s t u : State}

theorem refl (s : State) : GroupsMoved s s := rfl

theorem trans (h : GroupsMoved s t) (g : GroupsMoved t u) : GroupsMoved s u := by
  unfold GroupsMoved at *
  rw [g, h]

theorem of_mem (h : t = { s with fab := t.fab, pwr := t.pwr }) : GroupsMoved s t := by
  unfold GroupsMoved
  rw [h]

theorem setGrp (n g : Nat) (x : Grp) (s : State) : GroupsMoved s (s.setGrp n g x) := rfl

theorem foldl {β : Type} {f : State → β → State} (l : List β) (s : State) (h : ∀ s b, GroupsMoved s (f s b)) : GroupsMoved s (l.foldl f s) :=
  List.foldlRecOn l f (refl s) fun u hu b _ => hu.trans (h u b)

end GroupsMoved

theorem putGrp_rest (n g : Nat) (x : Grp) (s : State) :
    putGrp n g x s = { s.setGrp n g x with fab := (putGrp n g x s).fab, pwr := (putGrp n g x s).pwr } :=
  State.memOnly_trans (dramWrite_rest _ _ _ _ (s.setGrp n g x)) (dramWrite_rest _ _ _ _ _)

theorem GroupsMoved.putGrp (n g : Nat) (x : Grp) (s : State) : GroupsMoved s (putGrp n g x s) :=
  (GroupsMoved.setGrp n g x s).trans (GroupsMoved.of_mem (putGrp_rest n g x s))

theorem State.grp_putGrp_same (n g : Nat) (x : Grp) (s : State) : (putGrp n g x s).grp n g = some x := by
  rw [putGrp_rest]
  exact Tab.find_put_same _ _ _

theorem State.grp_putGrp_ne {n g m h : Nat} (hk : grpKey m h ≠ grpKey n g) (x : Grp) (s : State) : (putGrp n g x s).grp m h = s.grp m h := by
  rw [putGrp_rest]
  exact Tab.find_put_ne hk _ _

theorem grpKey_ne {n g h : Nat} (hg : h ≠ g) : grpKey n h ≠ grpKey n g := fun e => hg (Nat.add_left_cancel e)

/-- A group of which a slot is lost. -/
def Grp.markLost (slot : Nat) (x : Grp) : Grp := { x with lost := x.lost ||| 2 ^ slot }

theorem Grp.markLost_twice (slot : Nat) (x : Grp) : (x.markLost slot).markLost slot = x.markLost slot := by
  show ({ x with lost := (x.lost ||| 2 ^ slot) ||| 2 ^ slot } : Grp) = { x with lost := x.lost ||| 2 ^ slot }
  rw [Nat.or_assoc, Nat.or_self]

theorem Grp.testBit_markLost (slot : Nat) (x : Grp) : (x.markLost slot).lost.testBit slot = true := by
  show (x.lost ||| 2 ^ slot).testBit slot = true
  rw [Nat.testBit_or, Nat.testBit_two_pow_self, Bool.or_true]

/-- One group of a set marked. -/
def markGroup (set slot : Nat) (s : State) (g : Nat) : State :=
  match s.grp set g with
  | some x =>
    if g < 2 ^ 18 - 256 then putGrp set g { x with lost := x.lost ||| 2 ^ slot } s
    else s.setGrp set g { x with lost := x.lost ||| 2 ^ slot }
  | none => s

theorem markGroup_spec (set slot : Nat) (s : State) (g : Nat) : GroupsMoved s (markGroup set slot s g) ∧
    ∀ h, (markGroup set slot s g).grp set h = if h = g then (s.grp set h).map (Grp.markLost slot) else s.grp set h := by
  unfold markGroup
  cases hx : s.grp set g with
  | none =>
    refine ⟨GroupsMoved.refl s, fun h => ?_⟩
    by_cases e : h = g
    · rw [if_pos e, e, hx]
      exact rfl
    · rw [if_neg e]
  | some x =>
    dsimp only
    split
    · refine ⟨GroupsMoved.putGrp _ _ _ s, fun h => ?_⟩
      by_cases e : h = g
      · rw [if_pos e, e, hx, State.grp_putGrp_same]
        exact rfl
      · rw [if_neg e]
        exact State.grp_putGrp_ne (grpKey_ne e) _ _
    · refine ⟨GroupsMoved.setGrp _ _ _ s, fun h => ?_⟩
      by_cases e : h = g
      · rw [if_pos e, e, hx]
        exact Tab.find_put_same _ _ _
      · rw [if_neg e]
        exact Tab.find_put_ne (grpKey_ne e) _ _

theorem markGroups_spec (set slot : Nat) : ∀ (l : List Nat) (s : State), GroupsMoved s (l.foldl (markGroup set slot) s) ∧
    ∀ h, (l.foldl (markGroup set slot) s).grp set h = if h ∈ l then (s.grp set h).map (Grp.markLost slot) else s.grp set h
  | [], s => ⟨GroupsMoved.refl s, fun h => (if_neg List.not_mem_nil).symm⟩
  | a :: l, s => by
    obtain ⟨hm, hg⟩ := markGroup_spec set slot s a
    obtain ⟨hml, hgl⟩ := markGroups_spec set slot l (markGroup set slot s a)
    rw [List.foldl_cons]
    refine ⟨hm.trans hml, fun h => ?_⟩
    rw [hgl h, hg h]
    by_cases hl : h ∈ l
    · rw [if_pos hl, if_pos (List.mem_cons_of_mem _ hl)]
      split
      · cases s.grp set h with
        | none => exact rfl
        | some x => exact congrArg some (Grp.markLost_twice slot x)
      · exact rfl
    · rw [if_neg hl]
      by_cases ha : h = a
      · rw [if_pos ha, if_pos (List.mem_cons.mpr (.inl ha))]
      · rw [if_neg ha, if_neg fun hm => (List.mem_cons.mp hm).elim ha hl]

/-- The groups of a set, by number. -/
def groupNos (s : State) (set : Nat) : List Nat := (s.md.groups.filter fun e => e.1 / 2 ^ 18 == set).map fun e => e.1 % 2 ^ 18

theorem mem_groupNos {s : State} {set g : Nat} {x : Grp} (hg : g < 2 ^ 18) (h : s.grp set g = some x) : g ∈ groupNos s set := by
  refine List.mem_map.mpr ⟨(grpKey set g, x), List.mem_filter.mpr ⟨Tab.mem_of_find h, beq_iff_eq.mpr ?_⟩, ?_⟩
  · show (set * 2 ^ 18 + g) / 2 ^ 18 = set
    omega
  · show (set * 2 ^ 18 + g) % 2 ^ 18 = g
    omega

theorem markLost_eq (set slot : Nat) (s : State) : markLost set slot s =
    ((groupNos s set).foldl (markGroup set slot) s).modSet set fun x => { x with lost := x.lost ||| 2 ^ slot } := rfl

/-- Every group of the set is marked, and its slot. -/
theorem markLost_spec (set slot : Nat) (s : State) {g : Nat} (hg : g < 2 ^ 18) :
    (markLost set slot s).grp set g = (s.grp set g).map (Grp.markLost slot) := by
  obtain ⟨_, hgrp⟩ := markGroups_spec set slot (groupNos s set) s
  rw [markLost_eq]
  refine (hgrp g).trans ?_
  cases hx : s.grp set g with
  | none =>
    split
    · exact rfl
    · exact rfl
  | some x => rw [if_pos (mem_groupNos hg hx)]

theorem markLost_rest (set slot : Nat) (s : State) : markLost set slot s = { s with
    fab := (markLost set slot s).fab
    pwr := (markLost set slot s).pwr
    md := { s.md with
      groups := (markLost set slot s).md.groups
      sets := Tab.modify set (fun x => { x with lost := x.lost ||| 2 ^ slot }) s.md.sets } } := by
  obtain ⟨hm, _⟩ := markGroups_spec set slot (groupNos s set) s
  rw [markLost_eq]
  generalize (groupNos s set).foldl (markGroup set slot) s = u at hm ⊢
  unfold State.modSet
  rw [hm]

end Sys2Proof.Machine
end

section
/-! PROOFS. O40: the spare that takes a lost LUN's slot, and the set that drains. -/
namespace Sys2Proof.Machine

/-! ## A journal record appended -/

theorem heldIf_stream (c : Bool) (k : Nat) (x : Stream) (s : State) :
    (if c then (s.setStream k x).putFlag Fld.mapCkptStsHeld true else s.setStream k x).stream k = x := by
  cases c with
  | false => exact State.stream_setStream s k x
  | true => exact State.stream_setStream s k x

theorem heldIf_reg {a : RegKind} (ha : a ≠ .mapCkptSts) (c : Bool) (k : Nat) (x : Stream) (s : State) (i : Nat) :
    (if c then (s.setStream k x).putFlag Fld.mapCkptStsHeld true else s.setStream k x).reg a i = s.reg a i := by
  cases c with
  | false => exact rfl
  | true => exact State.reg_putFlag_kind (s.setStream k x) (g := Fld.mapCkptStsHeld) ha true 0 i

theorem jAppend_page {k : Nat} {r : JRec} {s : State} (hp : s.wp.pfail = false) : ((jAppend k r s).stream k).page = (s.stream k).page ++ [r] := by
  unfold jAppend
  rw [hp, Bool.false_and, if_neg (by decide)]
  exact congrArg Stream.page (heldIf_stream _ k _ s)

theorem jAppend_reg {a : RegKind} (ha : a ≠ .mapCkptSts) (k : Nat) (r : JRec) (s : State) (i : Nat) : (jAppend k r s).reg a i = s.reg a i := by
  unfold jAppend
  split
  · exact rfl
  · exact heldIf_reg ha _ k _ s i

theorem jAppend_pfail (k : Nat) (r : JRec) (s : State) : (jAppend k r s).wp.pfail = s.wp.pfail := by
  rw [jAppend_rest]

theorem jAppend_md (k : Nat) (r : JRec) (s : State) : (jAppend k r s).md = s.md := by
  rw [jAppend_rest]

/-- A journal record keeps what a rebuild's end keeps. -/
theorem State.fit_congr {s t : State} (hs : ∀ n, (t.set_ n).slots = (s.set_ n).slots) (hsp : t.md.spares = s.md.spares) (hi : t.img = s.img)
    (hr : ∀ i, t.reg .stkTgtcfg i = s.reg .stkTgtcfg i) (set slot : Nat) : fitSpare t set slot = fitSpare s set slot := by
  have hp : ∀ k, t.profile k = s.profile k := fun k => by
    unfold State.profile State.profileAt
    rw [hi]
  have hg : ∀ k, geoClass t k = geoClass s k := fun k => by
    unfold geoClass
    rw [hp]
  have ho : ∀ k, t.online k = s.online k := fun k => by
    unfold State.online State.bit
    rw [hr]
  unfold fitSpare
  simp only [hs, hsp, hg, ho]

/-! ## A LUN gone (R315) -/

/-- A LUN taken from the queue of those lost, with nothing left to do. -/
def lunCleared (k : Nat) (s : State) : State :=
  modLun k (fun l => { l with
    queue := []
    op := none
    granted := false
    er := none
    wprot := none }) { s with md := { s.md with offQ := s.md.offQ.erase k } }

theorem lunCleared_queue (k : Nat) (s : State) : ((lunCleared k s).lun k).queue = [] :=
  congrArg LunSt.queue (State.lun_modLun_same k _ _)

/-- A set whose token the LUN does not hold. -/
def tokenGone (k : Nat) (x : SetSt) : SetSt := if x.token = some k then { x with token := none } else x

theorem tokenGone_token (k : Nat) (x : SetSt) : (tokenGone k x).token ≠ some k := by
  unfold tokenGone
  split
  · exact fun h => by cases h
  · assumption

theorem tokenGone_rest (k : Nat) (x : SetSt) : tokenGone k x = { x with token := (tokenGone k x).token } := by
  unfold tokenGone
  split
  · exact rfl
  · exact rfl

/-- The slot marked lost, with its journal record. -/
def lostMarked (k set slot : Nat) (s : State) : State := markLost set slot ((lunCleared k s).modSet set (tokenGone k))
def slotGone (k set slot : Nat) (s : State) : State := jAppend 0 ⟨jSlotLost, set * 32 + slot, 0, k, 0⟩ (lostMarked k set slot s)

theorem slotGone_rest (k set slot : Nat) (s : State) : slotGone k set slot s = { s with
    regs := (slotGone k set slot s).regs
    fab := (slotGone k set slot s).fab
    pwr := (slotGone k set slot s).pwr
    wp := { s.wp with streams := (slotGone k set slot s).wp.streams }
    md := { s.md with
      offQ := s.md.offQ.erase k
      luns := (lunCleared k s).md.luns
      groups := (slotGone k set slot s).md.groups
      sets := Tab.modify set (fun x => { x with lost := x.lost ||| 2 ^ slot }) (Tab.modify set (tokenGone k) s.md.sets) } } := by
  have hm : lostMarked k set slot s = { s with
      fab := (lostMarked k set slot s).fab
      pwr := (lostMarked k set slot s).pwr
      md := { s.md with
        offQ := s.md.offQ.erase k
        luns := (lunCleared k s).md.luns
        groups := (lostMarked k set slot s).md.groups
        sets := Tab.modify set (fun x => { x with lost := x.lost ||| 2 ^ slot }) (Tab.modify set (tokenGone k) s.md.sets) } } :=
    markLost_rest set slot ((lunCleared k s).modSet set (tokenGone k))
  unfold slotGone
  rw [jAppend_rest]
  generalize lostMarked k set slot s = u at hm ⊢
  rw [hm]

/-- A set whose slot is marked, without the LUN's token. -/
def setLost (k slot : Nat) (x : SetSt) : SetSt := { tokenGone k x with lost := x.lost ||| 2 ^ slot }

/-- What a lost slot changes: the LUN, its set, its groups, the journal. -/
structure SlotGone (k set slot : Nat) (x : SetSt) (s t : State) : Prop where
  offQ : t.md.offQ = s.md.offQ.erase k
  setAt : Tab.find set t.md.sets = some (setLost k slot x)
  grp : ∀ g, g < 2 ^ 18 → t.grp set g = (s.grp set g).map (Grp.markLost slot)
  queue : (t.lun k).queue = []
  page : (t.stream 0).page = (s.stream 0).page ++ [⟨jSlotLost, set * 32 + slot, 0, k, 0⟩]
  stage : t.stage = s.stage
  pfail : t.wp.pfail = false
  spares : t.md.spares = s.md.spares
  rebuilds : t.md.rebuilds = s.md.rebuilds
  rebuilding : t.md.rebuilding = s.md.rebuilding
  left : t.md.rebuildLeft = s.md.rebuildLeft
  fit : fitSpare t set slot = fitSpare s set slot

theorem slotGone_spec {k set slot : Nat} {x : SetSt} {s : State} (hx : Tab.find set s.md.sets = some x) (hp : s.wp.pfail = false) :
    SlotGone k set slot x s (slotGone k set slot s) := by
  have hrest := slotGone_rest k set slot s
  have hfind : Tab.find set (slotGone k set slot s).md.sets = some (setLost k slot x) := by
    rw [hrest]
    show Tab.find set (Tab.modify set _ (Tab.modify set (tokenGone k) s.md.sets)) = _
    rw [Tab.find_modify_same, Tab.find_modify_same, hx]
    show some ({ tokenGone k x with lost := (tokenGone k x).lost ||| 2 ^ slot } : SetSt) = some { tokenGone k x with lost := x.lost ||| 2 ^ slot }
    rw [tokenGone_rest]
  have hslots : ∀ n, ((slotGone k set slot s).set_ n).slots = (s.set_ n).slots := fun n => by
    unfold State.set_ Tab.get
    by_cases hn : n = set
    · rw [hn, hfind, hx]
      show (tokenGone k x).slots = x.slots
      rw [tokenGone_rest]
    · rw [hrest]
      show ((Tab.find n (Tab.modify set _ (Tab.modify set (tokenGone k) s.md.sets))).getD {}).slots = _
      rw [Tab.find_modify_ne hn, Tab.find_modify_ne hn]
  have hreg : ∀ a, a ≠ .mapCkptSts → ∀ i, (slotGone k set slot s).reg a i = s.reg a i := fun a ha i => by
    refine (jAppend_reg ha 0 _ (lostMarked k set slot s) i).trans ?_
    unfold lostMarked
    rw [markLost_rest]
    exact rfl
  refine ⟨?_, hfind, fun g hg => ?_, ?_, ?_, ?_, ?_, ?_, ?_, ?_, ?_, ?_⟩
  · rw [hrest]
  · refine Eq.trans ?_ (markLost_spec set slot ((lunCleared k s).modSet set (tokenGone k)) hg)
    unfold State.grp
    rw [show (slotGone k set slot s).md = (lostMarked k set slot s).md from jAppend_md _ _ _]
    exact rfl
  · rw [hrest]
    exact lunCleared_queue k s
  · refine (jAppend_page ?_).trans ?_
    · unfold lostMarked
      rw [markLost_rest]
      exact hp
    · unfold lostMarked
      rw [markLost_rest]
      exact rfl
  · exact congrArg Fld.glbBootStsStage.get (hreg .glbBootSts (by decide) 0)
  · rw [hrest]
    exact hp
  · rw [hrest]
  · rw [hrest]
  · rw [hrest]
  · rw [hrest]
  · exact State.fit_congr hslots (by rw [hrest]) (by rw [hrest]) (hreg _ (by decide)) set slot

end Sys2Proof.Machine
end

section
/-! PROOFS. O40: the end of a lost LUN, with a spare and without. -/
namespace Sys2Proof.Machine

/-- The lost LUN of a set with nothing queued. -/
theorem execLunOffline_set {s : State} {k set slot : Nat} {x : SetSt} {rest : List Nat} (hc : s.coreOn = true) (hq : s.md.offQ = k :: rest)
    (hl : (s.lun k).queue = []) (hs : setOf s k = some set) (hx : Tab.find set s.md.sets = some x) (hi : slotIn x k = some slot) :
    execLunOffline s = .next (budget (if (slotGone k set slot s).stage = 9 then replaceLun set slot (slotGone k set slot s) else slotGone k set slot s)) := by
  have hset : setOf (lunCleared k s) k = some set := hs
  have hslot : (slotIn ((lunCleared k s).set_ set) k).getD 0 = slot := by
    show (slotIn (Tab.get {} set s.md.sets) k).getD 0 = slot
    unfold Tab.get
    rw [hx]
    exact congrArg (Option.getD · 0) hi
  have hlost : lunLost k s = budget (if (slotGone k set slot s).stage = 9 then replaceLun set slot (slotGone k set slot s) else slotGone k set slot s) := by
    unfold lunCleared at hset hslot
    unfold lunLost
    rw [hl]
    simp only [hset, hslot]
    exact rfl
  unfold execLunOffline
  rw [hq]
  dsimp only
  rw [hlost, hc]
  exact onlyIf_true _ _

/-- A lost LUN that no set holds leaves the spares. -/
theorem execLunOffline_spare {s : State} {k : Nat} {rest : List Nat} (hc : s.coreOn = true) (hq : s.md.offQ = k :: rest) (hl : (s.lun k).queue = [])
    (hs : setOf s k = none) : ∃ t, execLunOffline s = .next t ∧ t.md.spares = s.md.spares.erase k ∧ t.md.offQ = rest ∧ t.regs = s.regs := by
  have hset : setOf (lunCleared k s) k = none := hs
  have hlost : lunLost k s = { lunCleared k s with md := { (lunCleared k s).md with spares := (lunCleared k s).md.spares.erase k } } := by
    unfold lunCleared at hset
    unfold lunLost
    rw [hl]
    simp only [hset]
    exact rfl
  refine ⟨{ lunCleared k s with md := { (lunCleared k s).md with spares := (lunCleared k s).md.spares.erase k } }, ?_, rfl, ?_, rfl⟩
  · unfold execLunOffline
    rw [hq]
    dsimp only
    rw [hlost, hc]
    exact onlyIf_true _ _
  · show s.md.offQ.erase k = rest
    rw [hq, List.erase_cons_head]

/-! ## A spare that takes the slot (R316) -/

/-- A slot taken by a spare, its rebuild the last. -/
def spareTaken (k set slot : Nat) (s : State) : State :=
  { s.modSet set fun x => { x with slots := x.slots.set slot k } with md := { (s.modSet set fun x => { x with slots := x.slots.set slot k }).md with
    spares := s.md.spares.erase k
    rebuilds := s.md.rebuilds.filter (· != (set, slot)) ++ [(set, slot)]
    rebuilding := if s.md.rebuilds.head? == some (set, slot) then none else s.md.rebuilding
    rebuildLeft := if s.md.rebuilds.head? == some (set, slot) then [] else s.md.rebuildLeft } }

/-- The same with its journal record. -/
def spareIn (k set slot : Nat) (s : State) : State := jAppend 0 ⟨jSpareIn, set * 32 + slot, 0, k, 0⟩ (spareTaken k set slot s)

theorem spareIn_md (k set slot : Nat) (s : State) : (spareIn k set slot s).md = (spareTaken k set slot s).md := jAppend_md _ _ _

theorem replaceLun_some {s : State} {set slot k : Nat} (h : fitSpare s set slot = some k) : replaceLun set slot s = nextRebuild (spareIn k set slot s) := by
  unfold replaceLun
  rw [h]
  exact rfl

theorem nextRebuild_stands {s : State} (hr : s.md.rebuildLeft ≠ []) : nextRebuild s = s := by
  unfold nextRebuild
  split
  · exact rfl
  · rw [if_neg (by rw [List.isEmpty_iff]; exact hr)]

/-- A rebuild with groups still lost stays the present one. -/
theorem rebuildEnd_stays {s : State} {set slot : Nat} {rest : List (Nat × Nat)} (h : s.md.rebuilds = (set, slot) :: rest)
    (hl : stillLost s set slot s.md.rebuildLeft ≠ []) (fuel : Nat) :
    rebuildEnd (fuel + 1) s = rebuildGo (withLeft (stillLost s set slot s.md.rebuildLeft) s) := by
  rw [rebuildEnd_cons h, if_neg fun e => hl (List.isEmpty_iff.mp e.1)]

theorem mem_setGroups {s : State} {set g : Nat} {x : Grp} (hg : g < 2 ^ 18 - 256) (h : s.grp set g = some x) : g ∈ setGroups s set := by
  refine List.mem_map.mpr ⟨(grpKey set g, x), List.mem_filter.mpr ⟨Tab.mem_of_find h, ?_⟩, ?_⟩
  · rw [Bool.and_eq_true]
    refine ⟨beq_iff_eq.mpr ?_, decide_eq_true ?_⟩
    · show (set * 2 ^ 18 + g) / 2 ^ 18 = set
      omega
    · show (set * 2 ^ 18 + g) % 2 ^ 18 < 2 ^ 18 - 256
      omega
  · show (set * 2 ^ 18 + g) % 2 ^ 18 = g
    omega

/-- A group that a rebuild's list names, still lost. -/
theorem stillLost_ne_nil {s : State} {set slot g : Nat} {x : Grp} {l : List Nat} (hm : g ∈ l) (h : s.grp set g = some x) (hb : x.lost.testBit slot = true) :
    stillLost s set slot l ≠ [] := by
  refine List.ne_nil_of_mem (a := g) (List.mem_filter.mpr ⟨hm, ?_⟩)
  rw [h]
  exact hb

/-- The first rebuild of a slot that some group lost begins. -/
theorem nextRebuild_begins {s : State} {set slot g : Nat} {x : Grp} (h : s.md.rebuilds = [(set, slot)]) (hl : s.md.rebuildLeft = [])
    (hg : g < 2 ^ 18 - 256) (hx : s.grp set g = some x) (hb : x.lost.testBit slot = true) :
    (nextRebuild s).md.rebuilds = [(set, slot)] ∧ (nextRebuild s).md.sets = s.md.sets := by
  have hmem := stillLost_ne_nil (slot := slot) (mem_setGroups hg hx) hx hb
  have hgo : nextRebuild s = rebuildEnd 1 ((withLeft (stillLost s set slot (setGroups s set)) s).put Fld.mapRbProgGroups 0) := by
    unfold nextRebuild
    rw [h, hl]
    exact rfl
  have hmem' : g ∈ stillLost s set slot (setGroups s set) := by
    refine List.mem_filter.mpr ⟨mem_setGroups hg hx, ?_⟩
    rw [hx]
    exact hb
  have hu : ((withLeft (stillLost s set slot (setGroups s set)) s).put Fld.mapRbProgGroups 0).md.rebuilds = [(set, slot)] := h
  rw [hgo, rebuildEnd_stays hu (stillLost_ne_nil (g := g) (x := x) hmem' hx hb)]
  have ho := (rebuildGo_only (withLeft (stillLost ((withLeft (stillLost s set slot (setGroups s set)) s).put Fld.mapRbProgGroups 0) set slot
    ((withLeft (stillLost s set slot (setGroups s set)) s).put Fld.mapRbProgGroups 0).md.rebuildLeft)
      ((withLeft (stillLost s set slot (setGroups s set)) s).put Fld.mapRbProgGroups 0))).1
  refine ⟨?_, ?_⟩
  · rw [ho]
    exact h
  · rw [ho]
    exact rfl

/-! ## A set that drains -/

/-- A group of a draining set. -/
def drainGroup (set : Nat) (s : State) (g : Nat) : State :=
  match s.grp set g with
  | some x => if x.gstate = 2 then putGrp set g { x with gstate := 3 } s else s
  | none => s

/-- A drained group keeps what it lost and its units. -/
theorem drainGroup_spec (set : Nat) (s : State) (g : Nat) : GroupsMoved s (drainGroup set s g) ∧
    ∀ h y, s.grp set h = some y → ∃ e, (drainGroup set s g).grp set h = some { y with gstate := e } := by
  have h0 : ∀ h y, s.grp set h = some y → ∃ e, s.grp set h = some { y with gstate := e } := fun h y hy => ⟨y.gstate, hy⟩
  unfold drainGroup
  cases hx : s.grp set g with
  | none => exact ⟨GroupsMoved.refl s, h0⟩
  | some x =>
    dsimp only
    split
    · refine ⟨GroupsMoved.putGrp _ _ _ s, fun h y hy => ?_⟩
      by_cases e : h = g
      · subst e
        rw [hx] at hy
        cases hy
        exact ⟨3, State.grp_putGrp_same _ _ _ _⟩
      · exact ⟨y.gstate, (State.grp_putGrp_ne (grpKey_ne e) _ _).trans hy⟩
    · exact ⟨GroupsMoved.refl s, h0⟩

theorem drainGroups_spec (set : Nat) : ∀ (l : List Nat) (s : State), GroupsMoved s (l.foldl (drainGroup set) s) ∧
    ∀ h y, s.grp set h = some y → ∃ e, (l.foldl (drainGroup set) s).grp set h = some { y with gstate := e }
  | [], s => ⟨GroupsMoved.refl s, fun _ y hy => ⟨y.gstate, hy⟩⟩
  | a :: l, s => by
    obtain ⟨hm, hg⟩ := drainGroup_spec set s a
    obtain ⟨hml, hgl⟩ := drainGroups_spec set l (drainGroup set s a)
    refine ⟨hm.trans hml, fun h y hy => ?_⟩
    obtain ⟨e, he⟩ := hg h y hy
    obtain ⟨f, hf⟩ := hgl h _ he
    exact ⟨f, hf⟩

/-- A set in draining, its groups with it. -/
def drained (set : Nat) (s : State) : State :=
  (setGroups (s.modSet set fun x => { x with drain := true }) set).foldl (drainGroup set) (s.modSet set fun x => { x with drain := true })

theorem replaceLun_none {s : State} {set slot : Nat} (h : fitSpare s set slot = none) :
    replaceLun set slot s = if (s.set_ set).drain then s else jAppend 0 ⟨jSetDrain, set, 0, 0, 0⟩ (drained set s) := by
  unfold replaceLun
  rw [h]
  exact rfl

/-- The set drains; its slots, what it lost, the units of its groups and every LUN stay. -/
theorem replaceLun_drains {s : State} {set slot : Nat} {x : SetSt} (h : fitSpare s set slot = none) (hx : Tab.find set s.md.sets = some x) :
    Tab.find set (replaceLun set slot s).md.sets = some { x with drain := true } ∧ (replaceLun set slot s).md.offQ = s.md.offQ ∧
      (replaceLun set slot s).md.luns = s.md.luns ∧
      ∀ g y, s.grp set g = some y → ∃ e, (replaceLun set slot s).grp set g = some { y with gstate := e } := by
  have hget : s.set_ set = x := by
    unfold State.set_ Tab.get
    rw [hx]
    exact rfl
  rw [replaceLun_none h, hget]
  by_cases hd : x.drain = true
  · rw [if_pos hd]
    refine ⟨?_, rfl, rfl, fun g y hy => ⟨y.gstate, hy⟩⟩
    rw [hx, ← hd]
  · rw [if_neg hd]
    obtain ⟨hm, hg⟩ := drainGroups_spec set (setGroups (s.modSet set fun x => { x with drain := true }) set) (s.modSet set fun x => { x with drain := true })
    change GroupsMoved _ (drained set s) at hm
    have hmd : (jAppend 0 ⟨jSetDrain, set, 0, 0, 0⟩ (drained set s)).md = (drained set s).md := jAppend_md _ _ _
    refine ⟨?_, ?_, ?_, fun g y hy => ?_⟩
    · rw [hmd, hm]
      refine (Tab.find_modify_same _ _ _).trans ?_
      rw [hx]
      exact rfl
    · rw [hmd, hm]
      exact rfl
    · rw [hmd, hm]
      exact rfl
    · obtain ⟨e, he⟩ := hg g y hy
      refine ⟨e, ?_⟩
      unfold State.grp at he ⊢
      rw [hmd]
      exact he

end Sys2Proof.Machine
end

section
/-! PROOFS. O40: LUNs lost, groups taken up and groups rebuilt. -/
namespace Sys2Proof.Machine

theorem budget_md (s : State) : (budget s).md = s.md := by
  rw [budget_rest]

theorem budget_wp (s : State) : (budget s).wp = s.wp := by
  rw [budget_rest]

theorem Grp.lost_markLost (slot : Nat) (y : Grp) : (y.markLost slot).lost = y.lost ||| 2 ^ slot ∧ (y.markLost slot).unit = y.unit := ⟨rfl, rfl⟩

theorem setLost_rest (k slot : Nat) (x : SetSt) : (setLost k slot x).slots = x.slots ∧ (setLost k slot x).drain = x.drain ∧
    (setLost k slot x).lost = x.lost ||| 2 ^ slot ∧ (setLost k slot x).token ≠ some k := by
  refine ⟨?_, ?_, rfl, tokenGone_token k x⟩
  · show (tokenGone k x).slots = x.slots
    rw [tokenGone_rest]
  · show (tokenGone k x).drain = x.drain
    rw [tokenGone_rest]

/-- A group number of a set, and its group. -/
theorem exists_of_setGroups {s : State} {set : Nat} (h : setGroups s set ≠ []) : ∃ g y, g < 2 ^ 18 - 256 ∧ s.grp set g = some y := by
  obtain ⟨g, hg⟩ := List.exists_mem_of_ne_nil _ h
  obtain ⟨e, he, hge⟩ := List.mem_map.mp hg
  obtain ⟨hm, hc⟩ := List.mem_filter.mp he
  rw [Bool.and_eq_true, beq_iff_eq, decide_eq_true_eq] at hc
  obtain ⟨hset, hlt⟩ := hc
  have hkey : grpKey set g = e.1 := by
    show set * 2 ^ 18 + g = e.1
    omega
  cases hf : s.grp set g with
  | none =>
    unfold State.grp at hf
    rw [hkey] at hf
    exact absurd hf (Tab.find_ne_none_of_mem hm)
  | some y => exact ⟨g, y, hge ▸ hlt, hf⟩

/-- What the slot's new owner changes, before its rebuild begins. -/
structure SpareIn (n set slot : Nat) (x : SetSt) (s t : State) : Prop where
  setAt : Tab.find set t.md.sets = some { x with slots := x.slots.set slot n }
  groups : t.md.groups = s.md.groups
  spares : t.md.spares = s.md.spares.erase n
  offQ : t.md.offQ = s.md.offQ
  page : (t.stream 0).page = (s.stream 0).page ++ [⟨jSpareIn, set * 32 + slot, 0, n, 0⟩]
  rebuilds : t.md.rebuilds = s.md.rebuilds.filter (· != (set, slot)) ++ [(set, slot)]
  left : t.md.rebuildLeft = if s.md.rebuilds.head? == some (set, slot) then [] else s.md.rebuildLeft

theorem spareIn_spec {n set slot : Nat} {x : SetSt} {s : State} (hx : Tab.find set s.md.sets = some x) (hp : s.wp.pfail = false) :
    SpareIn n set slot x s (spareIn n set slot s) := by
  have hmd := spareIn_md n set slot s
  refine ⟨?_, ?_, ?_, ?_, ?_, ?_, ?_⟩
  · rw [hmd]
    refine (Tab.find_modify_same _ _ _).trans ?_
    rw [hx]
    exact rfl
  · rw [hmd]
    exact rfl
  · rw [hmd]
    exact rfl
  · rw [hmd]
    exact rfl
  · exact jAppend_page (s := spareTaken n set slot s) hp
  · rw [hmd]
    exact rfl
  · rw [hmd]
    exact rfl

/-- The end of a lost LUN in its set: what holds whatever the stage. -/
structure LunGone (k set slot : Nat) (x x' : SetSt) (rest : List Nat) (s t : State) : Prop where
  offQ : t.md.offQ = rest
  setAt : Tab.find set t.md.sets = some x'
  token : x'.token ≠ some k
  lost : ∀ g y, g < 2 ^ 18 → s.grp set g = some y → ∃ y', t.grp set g = some y' ∧ y'.lost = y.lost ||| 2 ^ slot ∧ y'.unit = y.unit

/-- Without a spare to come, the slot is lost. -/
theorem SlotGone.lunGone {k set slot : Nat} {x : SetSt} {rest : List Nat} {s t : State} (h : SlotGone k set slot x s t) (hq : s.md.offQ = k :: rest) :
    LunGone k set slot x (setLost k slot x) rest s t := by
  refine ⟨?_, h.setAt, tokenGone_token k x, fun g y hg hy => ⟨y.markLost slot, ?_, rfl, rfl⟩⟩
  · rw [h.offQ, hq, List.erase_cons_head]
  · rw [h.grp g hg, hy]
    exact rfl

/-- The lost slot goes to a spare; its rebuild waits or begins. -/
theorem replaceLun_spare {k set slot n : Nat} {x : SetSt} {rest : List Nat} {s u : State} (h : SlotGone k set slot x s u) (hq : s.md.offQ = k :: rest)
    (hf : fitSpare s set slot = some n) : ∃ x', LunGone k set slot x x' rest s (replaceLun set slot u) ∧
      x'.slots = x.slots.set slot n ∧ (replaceLun set slot u).md.spares = s.md.spares.erase n ∧
      ((replaceLun set slot u).stream 0).page = (s.stream 0).page ++ [⟨jSlotLost, set * 32 + slot, 0, k, 0⟩, ⟨jSpareIn, set * 32 + slot, 0, n, 0⟩] ∧
      (s.md.rebuilds ≠ [] → s.md.rebuilds.head? ≠ some (set, slot) → s.md.rebuildLeft ≠ [] →
        x'.lost = x.lost ||| 2 ^ slot ∧ (replaceLun set slot u).md.rebuilds = (s.md.rebuilds.filter (· != (set, slot))) ++ [(set, slot)]) ∧
      (s.md.rebuilds = [] → s.md.rebuildLeft = [] → setGroups s set ≠ [] →
        x'.lost = x.lost ||| 2 ^ slot ∧ (replaceLun set slot u).md.rebuilds = [(set, slot)]) := by
  obtain ⟨hslots, _, _, htok⟩ := setLost_rest k slot x
  have hg := h.lunGone hq
  have hin := spareIn_spec (n := n) (slot := slot) h.setAt h.pfail
  rw [replaceLun_some (h.fit.trans hf)]
  generalize spareIn n set slot u = v at hin ⊢
  have hkept := RebuildKept.nextRebuild v
  obtain ⟨l, hl⟩ := hkept.sets set _ hin.setAt
  have hsame : ∀ {m}, Tab.find set (nextRebuild v).md.sets = some m → m = { { setLost k slot x with slots := (setLost k slot x).slots.set slot n } with lost := l } :=
    fun hm => Option.some.inj (hm.symm.trans hl)
  refine ⟨_, ⟨?_, hl, htok, fun g y hlt hy => ?_⟩, ?_, ?_, ?_, fun hne hhead hleft => ?_, fun hr hleft hset => ?_⟩
  · rw [hkept.offQ, hin.offQ, hg.offQ]
  · obtain ⟨y', hy', hly, huy⟩ := hg.lost g y hlt hy
    refine ⟨y', ?_, hly, huy⟩
    unfold State.grp at hy' ⊢
    rw [hkept.groups, hin.groups]
    exact hy'
  · show (setLost k slot x).slots.set slot n = x.slots.set slot n
    rw [hslots]
  · rw [hkept.spares, hin.spares, h.spares]
  · have hst : (nextRebuild v).stream 0 = v.stream 0 := by
      unfold State.stream
      rw [hkept.wp]
    rw [hst, hin.page, h.page, List.append_assoc]
    exact rfl
  · have hleft' : v.md.rebuildLeft ≠ [] := by
      rw [hin.left, h.rebuilds, h.left, if_neg (by rw [beq_iff_eq]; exact hhead)]
      exact hleft
    have hstay := nextRebuild_stands hleft'
    rw [hstay] at hsame ⊢
    refine ⟨?_, ?_⟩
    · exact congrArg SetSt.lost (hsame hin.setAt).symm
    · rw [hin.rebuilds, h.rebuilds]
  · obtain ⟨g, y, hlt, hy⟩ := exists_of_setGroups hset
    obtain ⟨y', hy', hly, _⟩ := hg.lost g y (by omega) hy
    have hvr : v.md.rebuilds = [(set, slot)] := by
      rw [hin.rebuilds, h.rebuilds, hr]
      exact rfl
    have hvl : v.md.rebuildLeft = [] := by
      rw [hin.left, h.rebuilds, h.left, hr]
      exact hleft
    have hvy : v.grp set g = some y' := by
      unfold State.grp at hy' ⊢
      rw [hin.groups]
      exact hy'
    have hbit : y'.lost.testBit slot = true := by
      rw [hly, Nat.testBit_or, Nat.testBit_two_pow_self, Bool.or_true]
    obtain ⟨hrb, hsets⟩ := nextRebuild_begins hvr hvl hlt hvy hbit
    refine ⟨?_, hrb⟩
    rw [hsets] at hsame
    exact congrArg SetSt.lost (hsame hin.setAt).symm

/-- The lost slot's set drains. -/
theorem replaceLun_drain {k set slot : Nat} {x : SetSt} {rest : List Nat} {s u : State} (h : SlotGone k set slot x s u) (hq : s.md.offQ = k :: rest)
    (hf : fitSpare s set slot = none) : ∃ x', LunGone k set slot x x' rest s (replaceLun set slot u) ∧
      x'.drain = true ∧ x'.slots = x.slots ∧ x'.lost = x.lost ||| 2 ^ slot ∧ ((replaceLun set slot u).lun k).queue = [] := by
  obtain ⟨hslots, _, _, htok⟩ := setLost_rest k slot x
  have hg := h.lunGone hq
  obtain ⟨hset, hoff, hluns, hgrp⟩ := replaceLun_drains (h.fit.trans hf) h.setAt
  refine ⟨_, ⟨hoff.trans hg.offQ, hset, htok, fun g y hlt hy => ?_⟩, rfl, hslots, rfl, ?_⟩
  · obtain ⟨y', hy', hly, huy⟩ := hg.lost g y hlt hy
    obtain ⟨e, he⟩ := hgrp g y' hy'
    exact ⟨{ y' with gstate := e }, he, hly, huy⟩
  · unfold State.lun
    rw [hluns]
    exact h.queue

/-- R315, R316: a LUN of a set lost. -/
theorem lunOffline_set {s : State} {k set slot : Nat} {x : SetSt} {rest : List Nat} (hc : s.coreOn = true) (hq : s.md.offQ = k :: rest)
    (hl : (s.lun k).queue = []) (hs : setOf s k = some set) (hx : Tab.find set s.md.sets = some x) (hi : slotIn x k = some slot) (hp : s.wp.pfail = false) :
    ∃ t x', execLunOffline s = .next t ∧ t.md.offQ = rest ∧ Tab.find set t.md.sets = some x' ∧ x'.token ≠ some k ∧
      (∀ g y, g < 2 ^ 18 → s.grp set g = some y → ∃ y', t.grp set g = some y' ∧ y'.lost = y.lost ||| 2 ^ slot ∧ y'.unit = y.unit) ∧
      (s.stage ≠ 9 → x'.slots = x.slots ∧ x'.drain = x.drain ∧ x'.lost = x.lost ||| 2 ^ slot ∧ (t.lun k).queue = [] ∧
        (t.stream 0).page = (s.stream 0).page ++ [⟨jSlotLost, set * 32 + slot, 0, k, 0⟩]) ∧
      (s.stage = 9 → ∀ n, fitSpare s set slot = some n → x'.slots = x.slots.set slot n ∧ t.md.spares = s.md.spares.erase n ∧
        (t.stream 0).page = (s.stream 0).page ++ [⟨jSlotLost, set * 32 + slot, 0, k, 0⟩, ⟨jSpareIn, set * 32 + slot, 0, n, 0⟩] ∧
        (s.md.rebuilds ≠ [] → s.md.rebuilds.head? ≠ some (set, slot) → s.md.rebuildLeft ≠ [] →
          x'.lost = x.lost ||| 2 ^ slot ∧ t.md.rebuilds = (s.md.rebuilds.filter (· != (set, slot))) ++ [(set, slot)]) ∧
        (s.md.rebuilds = [] → s.md.rebuildLeft = [] → setGroups s set ≠ [] → x'.lost = x.lost ||| 2 ^ slot ∧ t.md.rebuilds = [(set, slot)])) ∧
      (s.stage = 9 → fitSpare s set slot = none → x'.drain = true ∧ x'.slots = x.slots ∧ x'.lost = x.lost ||| 2 ^ slot ∧ (t.lun k).queue = []) := by
  have hu := slotGone_spec (k := k) (slot := slot) hx hp
  have hexec := execLunOffline_set hc hq hl hs hx hi
  generalize slotGone k set slot s = u at hu hexec
  rw [hu.stage] at hexec
  by_cases h9 : s.stage = 9
  · rw [if_pos h9] at hexec
    refine ⟨budget (replaceLun set slot u), ?_⟩
    cases hf : fitSpare s set slot with
    | some n =>
      obtain ⟨x', hg, hspare⟩ := replaceLun_spare hu hq hf
      refine ⟨x', hexec, ?_⟩
      unfold State.grp State.stream State.lun
      rw [budget_md, budget_wp]
      refine ⟨hg.offQ, hg.setAt, hg.token, hg.lost, fun e => absurd h9 e, fun _ m hm => ?_, fun _ hm => by cases hm⟩
      cases hm
      exact hspare
    | none =>
      obtain ⟨x', hg, hdrain⟩ := replaceLun_drain hu hq hf
      refine ⟨x', hexec, ?_⟩
      unfold State.grp State.stream State.lun
      rw [budget_md, budget_wp]
      exact ⟨hg.offQ, hg.setAt, hg.token, hg.lost, fun e => absurd h9 e, fun _ _ hm => absurd hm.symm (Option.some_ne_none _),
        fun _ _ => hdrain⟩
  · rw [if_neg h9] at hexec
    obtain ⟨hslots, hdrain, hlost, _⟩ := setLost_rest k slot x
    have hg := hu.lunGone hq
    refine ⟨budget u, setLost k slot x, hexec, ?_⟩
    unfold State.grp State.stream State.lun
    rw [budget_md, budget_wp]
    exact ⟨hg.offQ, hg.setAt, hg.token, hg.lost, fun _ => ⟨hslots, hdrain, hlost, hu.queue, hu.page⟩, fun e => absurd e h9, fun e => absurd e h9⟩

end Sys2Proof.Machine
end

section
/-! PROOFS. O40: groups taken up and groups rebuilt. -/
namespace Sys2Proof.Machine

/-! ## The group taken up (R316) -/

theorem rebuildable_lost {s : State} {set slot g : Nat} (h : rebuildable s set slot g = true) : ((s.grp set g).map fun x => x.lost.testBit slot).getD false = true := by
  unfold rebuildable at h
  split at h
  · cases h
  · next x hx =>
    rw [hx]
    rw [Bool.and_eq_true] at h
    exact h.1

theorem find_stillLost {s : State} {set slot g : Nat} {l : List Nat} (h : l.find? (rebuildable s set slot) = some g) :
    (stillLost s set slot l).find? (rebuildable s set slot) = some g := by
  rw [← h]
  unfold stillLost
  rw [List.find?_filter]
  refine congrArg (List.find? · l) (funext fun a => ?_)
  cases hr : rebuildable s set slot a with
  | false => simp
  | true =>
    rw [rebuildable_lost hr]
    exact rfl

/-- The next group of the present rebuild, with the best unit of the spare. -/
theorem rebuildGo_takes {s : State} {set slot g k u : Nat} {rest : List (Nat × Nat)} {x : Grp} (hr : s.md.rebuilds = (set, slot) :: rest) (hn : s.md.rebuilding = none)
    (hg : s.md.rebuildLeft.find? (rebuildable s set slot) = some g) (hk : (s.set_ set).slots[slot]? = some k) (hu : bestUnit s k = some u) (hx : s.grp set g = some x) :
    rebuildGo s = rebuildRow (groupTaken g slot k u set x s) := by
  unfold rebuildGo
  rw [hr, hn]
  dsimp only
  rw [hg, hk]
  dsimp only
  rw [hu, hx]
  simp only [groupTaken, withWork, takenWork, takenUnit]

/-- A group of no row whole is done as it is taken up. -/
theorem rebuildRow_done {s : State} {set slot : Nat} {rest : List (Nat × Nat)} {w : Rebuild} {x : Grp} (hr : s.md.rebuilds = (set, slot) :: rest)
    (hw : s.md.rebuilding = some w) (hx : s.grp set w.g = some x) (h0 : x.rowsDone ≤ w.row) : rebuildRow s = s.modRebuild fun w => { w with done := true } := by
  unfold rebuildRow
  rw [hr, hw]
  dsimp only
  rw [hx]
  exact if_pos h0

theorem RebuildOnly.rebuilds {s t : State} (h : RebuildOnly s t) : t.md.rebuilds = s.md.rebuilds := by
  rw [h]

theorem RebuildOnly.grp {s t : State} (h : RebuildOnly s t) (n g : Nat) : t.grp n g = s.grp n g := by
  rw [h]
  exact rfl

theorem withWork_unit (w : Rebuild) (s : State) (y : Nat) : (withWork w s).unit y = s.unit y := rfl

theorem groupTaken_unit (g slot k u set : Nat) (x : Grp) (s : State) : (groupTaken g slot k u set x s).unit (unitKey k u) = takenUnit set g x (s.unit (unitKey k u)) := by
  rw [groupTaken, withWork_unit, State.unit_putUnit_same]

theorem groupTaken_rest (g slot k u set : Nat) (x : Grp) (s : State) : (groupTaken g slot k u set x s).md.rebuilding = some (takenWork g slot k u set x s) ∧
    (groupTaken g slot k u set x s).md.rebuilds = s.md.rebuilds ∧ ∀ h, (groupTaken g slot k u set x s).grp set h = s.grp set h := by
  have honly := (groupTaken_only g slot k u set x s).1
  refine ⟨?_, honly.rebuilds, fun h => honly.grp set h⟩
  rw [groupTaken]
  exact rfl

theorem modRebuild_done {w : Rebuild} {s : State} (h : s.md.rebuilding = some w) :
    (s.modRebuild fun w => { w with done := true }).md.rebuilding = some { w with done := true } ∧
      (s.modRebuild fun w => { w with done := true }).md.rebuilds = s.md.rebuilds ∧
      ∀ y, (s.modRebuild fun w => { w with done := true }).unit y = s.unit y := by
  refine ⟨?_, rfl, fun y => rfl⟩
  unfold State.modRebuild
  rw [h]
  exact rfl

/-- A group of no row whole, taken up. -/
theorem groupTaken_done {s : State} {set slot g k u : Nat} {rest : List (Nat × Nat)} {x : Grp} (hr : s.md.rebuilds = (set, slot) :: rest) (hx : s.grp set g = some x)
    (h0 : x.rowsDone = 0) : (rebuildRow (groupTaken g slot k u set x s)).md.rebuilding = some { takenWork g slot k u set x s with done := true } ∧
      (rebuildRow (groupTaken g slot k u set x s)).md.rebuilds = s.md.rebuilds ∧
      (rebuildRow (groupTaken g slot k u set x s)).unit (unitKey k u) = takenUnit set g x (s.unit (unitKey k u)) := by
  have hunit := groupTaken_unit g slot k u set x s
  obtain ⟨hwork, hrb, hgrp⟩ := groupTaken_rest g slot k u set x s
  obtain ⟨hdone, hsame, hunits⟩ := modRebuild_done hwork
  rw [rebuildRow_done (hrb.trans hr) hwork ((hgrp g).trans hx) (Nat.le_of_eq h0)]
  exact ⟨hdone, hsame.trans hrb, (hunits _).trans hunit⟩

/-- R316: a rebuild takes up its first group that it may, with the spare's best unit. -/
theorem rebuildGroup_taken {s : State} {set slot g k u : Nat} {rest : List (Nat × Nat)} {x : Grp} (hrun : s.running = true) (h9 : s.stage = 9) (hp : s.wp.pfail = false)
    (hr : s.md.rebuilds = (set, slot) :: rest) (hn : s.md.rebuilding = none) (hg : s.md.rebuildLeft.find? (rebuildable s set slot) = some g)
    (hk : (s.set_ set).slots[slot]? = some k) (hu : bestUnit s k = some u) (hx : s.grp set g = some x) :
    ∃ t, execRebuildGroupDone s = .next t ∧ (x.rowsDone = 0 →
      t.md.rebuilding = some ⟨g, (lostLun s set g slot).getD k, (x.unit[slot]?).getD 0, u, 0, [], [], true⟩ ∧ t.md.rebuilds = s.md.rebuilds ∧
      (t.unit (unitKey k u)).gref = gref set g ∧ (t.unit (unitKey k u)).estate = if x.slc then (if x.gstate = 0 then 4 else 5) else 2) := by
  have hbit : x.lost.testBit slot = true := by
    have hlost := rebuildable_lost (List.find?_some hg)
    rw [hx] at hlost
    exact hlost
  have hrun' : (s.running && s.stage == 9 && !s.wp.pfail) = true := by
    rw [hrun, h9, hp]
    exact rfl
  have hend : rebuildEnd s.md.rebuilds.length s = rebuildRow (groupTaken g slot k u set x (withLeft (stillLost s set slot s.md.rebuildLeft) s)) := by
    rw [show s.md.rebuilds.length = rest.length + 1 by rw [hr]; exact rfl]
    rw [rebuildEnd_stays hr (stillLost_ne_nil (List.mem_of_find?_eq_some hg) hx hbit)]
    exact rebuildGo_takes (s := withLeft (stillLost s set slot s.md.rebuildLeft) s) hr hn (find_stillLost hg) hk hu hx
  have hexec : execRebuildGroupDone s = .next (rebuildRow (groupTaken g slot k u set x (withLeft (stillLost s set slot s.md.rebuildLeft) s))) := by
    unfold execRebuildGroupDone
    rw [hend]
    rw [hrun', hn, hr]
    exact onlyIf_true _ _
  refine ⟨_, hexec, fun h0 => ?_⟩
  obtain ⟨hwork, hrb, hunit⟩ := groupTaken_done (k := k) (u := u) (s := withLeft (stillLost s set slot s.md.rebuildLeft) s) hr hx h0
  refine ⟨hwork, hrb, ?_, ?_⟩
  · rw [hunit]
    exact rfl
  · rw [hunit]
    exact rfl

end Sys2Proof.Machine
end

section
/-! PROOFS. O40: a group rebuilt. -/
namespace Sys2Proof.Machine

/-! ## The best unit of a LUN is a free one -/

/-- The better of a unit and the next. -/
def betterUnit (s : State) (k : Nat) (a : Option Nat) (u : Nat) : Option Nat :=
  match a with
  | none => some u
  | some v => if (s.unit (unitKey k u)).pec < (s.unit (unitKey k v)).pec then some u else some v

theorem betterUnit_mem (s : State) (k : Nat) (a : Option Nat) (u : Nat) : betterUnit s k a u = some u ∨ betterUnit s k a u = a := by
  cases a with
  | none => exact .inl rfl
  | some v =>
    unfold betterUnit
    dsimp only
    split
    · exact .inl rfl
    · exact .inr rfl

theorem foldl_betterUnit_mem (s : State) (k : Nat) : ∀ (l : List Nat) (a : Option Nat) (u : Nat), l.foldl (betterUnit s k) a = some u → u ∈ l ∨ a = some u
  | [], _, _, h => .inr h
  | v :: l, a, u, h => by
    rcases foldl_betterUnit_mem s k l (betterUnit s k a v) u h with hm | he
    · exact .inl (List.mem_cons_of_mem _ hm)
    · rcases betterUnit_mem s k a v with hb | hb
      · exact .inl (List.mem_cons.mpr (.inl (Option.some.inj (he.symm.trans hb))))
      · exact .inr (hb.symm.trans he)

theorem bestUnit_free {s : State} {k u : Nat} (h : bestUnit s k = some u) : ∃ e ∈ s.md.units, e.1 = unitKey k u ∧ e.2.estate = 0 := by
  have hf : bestUnit s k = (freeUnits s k).foldl (betterUnit s k) none := rfl
  rcases foldl_betterUnit_mem s k _ none u (hf.symm.trans h) with hm | hn
  · obtain ⟨e, he, hu⟩ := List.mem_map.mp hm
    obtain ⟨hmem, hc⟩ := List.mem_filter.mp he
    rw [Bool.and_eq_true, beq_iff_eq, beq_iff_eq] at hc
    refine ⟨e, hmem, ?_, hc.2⟩
    have hlun := hc.1
    show e.1 = k * 2 ^ 20 + u
    rw [← hlun, ← hu]
    show e.1 = e.1 / 2 ^ 20 * 2 ^ 20 + e.1 % 2 ^ 20
    omega
  · cases hn

/-! ## A unit not free stays as it is at the end of a rebuild -/

/-- No entry of the unit is free. -/
def NotFree (y : Nat) (s : State) : Prop := ∀ e ∈ s.md.units, e.1 = y → e.2.estate ≠ 0

theorem rebuildRow_units (s : State) : (rebuildRow s).md.units = s.md.units := by
  unfold rebuildRow
  split
  · next w _ _ =>
    split
    · exact rfl
    · next x _ =>
      split
      · exact rfl
      · have honly : RdOnly s ((List.range (rowQ (s.profile w.lun) x.slc w.row)).foldl (rebuildRead w x) s) := RdOnly.foldl _ s fun u q => rebuildRead_only w x u q
        change (List.foldl (rebuildRead w x) s _).md.units = s.md.units
        rw [honly]
  · exact rfl

theorem rebuildGo_unit {y : Nat} {s : State} (h : NotFree y s) : (rebuildGo s).unit y = s.unit y := by
  unfold rebuildGo
  split
  · next set slot _ _ _ =>
    split
    · next g k _ _ =>
      split
      · next u x hu _ =>
        obtain ⟨e, he, hkey, hfree⟩ := bestUnit_free hu
        have hne : y ≠ unitKey k u := fun hy => h e he (hkey.trans hy.symm) hfree
        have hrow := rebuildRow_units (groupTaken g slot k u set x s)
        have htaken : (groupTaken g slot k u set x s).unit y = s.unit y := by
          rw [groupTaken, withWork_unit, State.unit_putUnit_ne hne]
        have hall : (rebuildRow (groupTaken g slot k u set x s)).unit y = s.unit y := by
          rw [← htaken]
          unfold State.unit
          rw [hrow]
        simp only [groupTaken, withWork, takenWork, takenUnit] at hall
        exact hall
      · exact rfl
    · exact rfl
  · exact rfl

theorem rebuildOver_units (set slot : Nat) (rest : List (Nat × Nat)) (left : List Nat) (s : State) : (rebuildOver set slot rest left s).md.units = s.md.units := by
  unfold rebuildOver
  rw [budget_md]
  exact rfl

theorem rebuildEnd_unit {y : Nat} : ∀ (fuel : Nat) {s : State}, NotFree y s → (rebuildEnd fuel s).unit y = s.unit y
  | 0, _, _ => rfl
  | fuel + 1, s, h => by
    cases hr : s.md.rebuilds with
    | nil => rw [rebuildEnd_nil hr]
    | cons e rest =>
      have ho := rebuildOver_units e.1 e.2 rest (stillLost s e.1 e.2 s.md.rebuildLeft) s
      rw [rebuildEnd_cons hr]
      generalize rebuildOver e.1 e.2 rest (stillLost s e.1 e.2 s.md.rebuildLeft) s = v at ho
      have hov : v.unit y = s.unit y := by
        unfold State.unit
        rw [ho]
      split
      · cases rest with
        | nil => exact hov
        | cons f r =>
          refine (rebuildEnd_unit fuel ?_).trans hov
          unfold NotFree
          show ∀ e ∈ v.md.units, _
          rw [ho]
          exact h
      · exact rebuildGo_unit (s := withLeft (stillLost s e.1 e.2 s.md.rebuildLeft) s) h

theorem Tab.mem_del_ne {α : Type} {k : Nat} {e : Nat × α} : ∀ {t : Tab α}, e ∈ Tab.del k t → e.1 ≠ k
  | (a, v) :: r, h => by
    rw [Tab.del] at h
    split at h
    · exact Tab.mem_del_ne h
    · next ha =>
      rcases List.mem_cons.mp h with rfl | hr
      · exact ha
      · exact Tab.mem_del_ne hr

theorem Tab.mem_put_same {α : Type} {k : Nat} {v : α} {e : Nat × α} {t : Tab α} (h : e ∈ Tab.put k v t) (hk : e.1 = k) : e.2 = v := by
  rcases Tab.mem_insert h with rfl | hd
  · exact rfl
  · exact absurd hk (Tab.mem_del_ne hd)

theorem notFree_putUnit {y : Nat} {f : UnitE → UnitE} {s : State} (h : (f (s.unit y)).estate ≠ 0) : NotFree y (putUnit y f s) := by
  intro e he hk
  rw [putUnit_rest] at he
  rw [Tab.mem_put_same he hk]
  exact h

end Sys2Proof.Machine
end

section
/-! PROOFS. O40: LUNs lost, groups taken up and groups rebuilt. -/
namespace Sys2Proof.Machine

/-- A rebuilt group, of the spare's unit. -/
def groupHealed (slot : Nat) (w : Rebuild) (x : Grp) : Grp :=
  { x with
    unit := x.unit.set slot w.unit
    lost := x.lost &&& (2 ^ 18 - 1 - 2 ^ slot) }

/-- The spare's unit, closed with its group. -/
def unitClosed (x : Grp) (y : UnitE) : UnitE :=
  if y.estate = 2 then { y with
    estate := 3
    closeAt := x.closeAt } else y

/-- A rebuilt group in the tables and the journal, then its tiles in the map. -/
def groupStored (set slot k : Nat) (w : Rebuild) (x : Grp) (s : State) : State :=
  putUnit (unitKey k w.unit) (unitClosed x) (putGrp set w.g (groupHealed slot w x) s)
def groupNoted (set slot k : Nat) (w : Rebuild) (x : Grp) (s : State) : State :=
  jAppend 0 ⟨jGroupUnit, gref set w.g, 0, slot * 2 ^ 32 + w.unit, 0⟩ (groupStored set slot k w x s)
def groupMapped (set slot k : Nat) (w : Rebuild) (x : Grp) (s : State) : State :=
  w.tiles.foldl (rebuiltTile k w x.slc) (groupNoted set slot k w x s)
def groupOver (g : Nat) (s : State) : State :=
  { s.inc Fld.mapRbProgGroups with md := { s.md with
    rebuilding := none
    rebuildLeft := s.md.rebuildLeft.erase g } }

theorem GroupsMoved.unit {s t : State} (h : GroupsMoved s t) (y : Nat) : t.unit y = s.unit y := by
  rw [h]
  exact rfl

theorem UnitsMoved.grp {s t : State} (h : UnitsMoved s t) (n g : Nat) : t.grp n g = s.grp n g := by
  rw [h]
  exact rfl

/-- The sets, and the rebuilds, of two states are the same. -/
structure RebuildsSame (s t : State) : Prop where
  sets : t.md.sets = s.md.sets
  rebuilds : t.md.rebuilds = s.md.rebuilds
  left : t.md.rebuildLeft = s.md.rebuildLeft
  prog : t.get Fld.mapRbProgGroups = s.get Fld.mapRbProgGroups

namespace RebuildsSame
variable {s t u : State}

theorem trans (h : RebuildsSame s t) (g : RebuildsSame t u) : RebuildsSame s u :=
  ⟨g.sets.trans h.sets, g.rebuilds.trans h.rebuilds, g.left.trans h.left, g.prog.trans h.prog⟩

theorem of_groups (h : GroupsMoved s t) : RebuildsSame s t := by
  rw [h]
  exact ⟨rfl, rfl, rfl, rfl⟩

theorem of_units (h : UnitsMoved s t) : RebuildsSame s t := by
  rw [h]
  exact ⟨rfl, rfl, rfl, rfl⟩

theorem jAppend (k : Nat) (r : JRec) (s : State) : RebuildsSame s (jAppend k r s) := by
  have hmd := jAppend_md k r s
  exact ⟨by rw [hmd], by rw [hmd], by rw [hmd], congrArg Fld.mapRbProgGroups.get (jAppend_reg (by decide) k r s 0)⟩

end RebuildsSame

theorem groupStored_same (set slot k : Nat) (w : Rebuild) (x : Grp) (s : State) : RebuildsSame s (groupStored set slot k w x s) :=
  (RebuildsSame.of_groups (GroupsMoved.putGrp set w.g (groupHealed slot w x) s)).trans (RebuildsSame.of_units (UnitsMoved.putUnit _ _ _))

theorem groupStored_grp (set slot k : Nat) (w : Rebuild) (x : Grp) (s : State) :
    (groupStored set slot k w x s).grp set w.g = some (groupHealed slot w x) ∧ ∀ h, h ≠ w.g → (groupStored set slot k w x s).grp set h = s.grp set h := by
  have hu := UnitsMoved.putUnit (unitKey k w.unit) (unitClosed x) (putGrp set w.g (groupHealed slot w x) s)
  have hgr : ∀ h, (groupStored set slot k w x s).grp set h = (putGrp set w.g (groupHealed slot w x) s).grp set h := fun h => by
    rw [groupStored, hu.grp]
  exact ⟨(hgr _).trans (State.grp_putGrp_same _ _ _ _), fun h hh => (hgr h).trans (State.grp_putGrp_ne (grpKey_ne hh) _ _)⟩

theorem groupStored_unit (set slot k : Nat) (w : Rebuild) (x : Grp) (s : State) :
    (groupStored set slot k w x s).unit (unitKey k w.unit) = unitClosed x (s.unit (unitKey k w.unit)) := by
  rw [groupStored, State.unit_putUnit_same, (GroupsMoved.putGrp set w.g (groupHealed slot w x) s).unit]

theorem unitClosed_estate {x : Grp} {y : UnitE} (h : y.estate = 2) : (unitClosed x y).estate = 3 := by
  unfold unitClosed
  rw [if_pos h]

/-- A group rebuilt, before the rebuild goes on. -/
structure GroupRebuilt (set slot k : Nat) (w : Rebuild) (x : Grp) (s t : State) : Prop where
  grp : t.grp set w.g = some (groupHealed slot w x)
  others : ∀ h, h ≠ w.g → t.grp set h = s.grp set h
  sets : t.md.sets = s.md.sets
  rebuilds : t.md.rebuilds = s.md.rebuilds
  rebuilding : t.md.rebuilding = none
  left : t.md.rebuildLeft = s.md.rebuildLeft.erase w.g
  prog : t.get Fld.mapRbProgGroups = min Fld.mapRbProgGroups.max (s.get Fld.mapRbProgGroups + 1)
  units : t.md.units = (groupStored set slot k w x s).md.units

theorem groupOver_spec {w : Rebuild} (ht : w.tiles = []) (set slot k : Nat) (x : Grp) (s : State) :
    GroupRebuilt set slot k w x s (groupOver w.g (groupMapped set slot k w x s)) := by
  obtain ⟨hgs, hgo⟩ := groupStored_grp set slot k w x s
  have hsame := (groupStored_same set slot k w x s).trans (RebuildsSame.jAppend 0 ⟨jGroupUnit, gref set w.g, 0, slot * 2 ^ 32 + w.unit, 0⟩ _)
  have hmd : (groupNoted set slot k w x s).md = (groupStored set slot k w x s).md := jAppend_md _ _ _
  have hmap : groupMapped set slot k w x s = groupNoted set slot k w x s := by
    rw [groupMapped, ht, List.foldl_nil]
  change RebuildsSame s (groupNoted set slot k w x s) at hsame
  rw [hmap]
  generalize groupNoted set slot k w x s = v at hsame hmd ⊢
  have hgrp : ∀ h, v.grp set h = (groupStored set slot k w x s).grp set h := fun h => by
    unfold State.grp
    rw [hmd]
  refine ⟨(hgrp _).trans hgs, fun h hh => (hgrp h).trans (hgo h hh), hsame.sets, hsame.rebuilds, rfl, congrArg (List.erase · w.g) hsame.left, ?_,
    (congrArg Media.units hmd : v.md.units = _)⟩
  refine (State.get_inc_same v Fld.mapRbProgGroups (by decide) 0 1).trans ?_
  rw [hsame.prog]

theorem execRebuildGroupDone_done {s : State} {set slot k : Nat} {rest : List (Nat × Nat)} {w : Rebuild} {x : Grp} (hrun : s.running = true) (h9 : s.stage = 9)
    (hr : s.md.rebuilds = (set, slot) :: rest) (hw : s.md.rebuilding = some w) (hd : w.done = true) (hx : s.grp set w.g = some x)
    (hk : (s.set_ set).slots[slot]? = some k) :
    execRebuildGroupDone s = .next (rebuildEnd (groupOver w.g (groupMapped set slot k w x s)).md.rebuilds.length (groupOver w.g (groupMapped set slot k w x s))) := by
  have hc : (s.running && s.stage == 9 && w.done) = true := by
    rw [hrun, h9, hd]
    exact rfl
  unfold execRebuildGroupDone
  rw [hr, hw]
  dsimp only
  rw [hx, hk]
  dsimp only
  rw [hc]
  simp only [groupOver, groupMapped, groupNoted, groupStored, groupHealed]
  exact onlyIf_true _ _

/-- A rebuild with nothing left is over. -/
theorem rebuildEnd_over {s : State} {set slot : Nat} (hr : s.md.rebuilds = [(set, slot)]) (hl : s.md.rebuildLeft = []) (hn : s.md.rebuilding = none) (fuel : Nat) :
    (rebuildEnd (fuel + 1) s).md.rebuilds = [] ∧ ∀ x, Tab.find set s.md.sets = some x →
      ((rebuildEnd (fuel + 1) s).set_ set).lost = x.lost &&& (2 ^ 18 - 1 - 2 ^ slot) := by
  have hend : rebuildEnd (fuel + 1) s = rebuildOver set slot [] (stillLost s set slot s.md.rebuildLeft) s := by
    rw [rebuildEnd_cons hr, hl, hn]
    exact rfl
  rw [hend]
  unfold rebuildOver State.set_
  rw [budget_md]
  refine ⟨rfl, fun x hx => ?_⟩
  show (((Tab.find set (Tab.modify set _ s.md.sets)).getD {}).lost) = _
  rw [Tab.find_modify_same, hx]
  exact rfl

/-- R316, R317: a group rebuilt. -/
theorem rebuildGroup_done {s : State} {set slot k : Nat} {rest : List (Nat × Nat)} {w : Rebuild} {x : Grp} (hrun : s.running = true) (h9 : s.stage = 9)
    (hr : s.md.rebuilds = (set, slot) :: rest) (hw : s.md.rebuilding = some w) (hd : w.done = true) (hx : s.grp set w.g = some x)
    (hk : (s.set_ set).slots[slot]? = some k) :
    ∃ t, execRebuildGroupDone s = .next t ∧ (w.tiles = [] →
      (∃ y, t.grp set w.g = some y ∧ y.unit = x.unit.set slot w.unit ∧ y.lost = x.lost &&& (2 ^ 18 - 1 - 2 ^ slot)) ∧
      ((s.unit (unitKey k w.unit)).estate = 2 → (t.unit (unitKey k w.unit)).estate = 3) ∧
      ((∀ h ∈ s.md.rebuildLeft.erase w.g, h ≠ w.g ∧ rebuildable s set slot h = false) →
        (∃ h ∈ s.md.rebuildLeft.erase w.g, ∃ z, s.grp set h = some z ∧ z.lost.testBit slot = true) →
        t.md.rebuilds = s.md.rebuilds ∧ t.get Fld.mapRbProgGroups = min Fld.mapRbProgGroups.max (s.get Fld.mapRbProgGroups + 1)) ∧
      (s.md.rebuildLeft.erase w.g = [] → rest = [] → t.md.rebuilds = [] ∧ (t.set_ set).lost = (s.set_ set).lost &&& (2 ^ 18 - 1 - 2 ^ slot))) := by
  have hexec := execRebuildGroupDone_done hrun h9 hr hw hd hx hk
  refine ⟨_, hexec, fun ht => ?_⟩
  have hu := groupOver_spec ht set slot k x s
  have hstored := groupStored_unit set slot k w x s
  have hfree : (s.unit (unitKey k w.unit)).estate = 2 → NotFree (unitKey k w.unit) (groupStored set slot k w x s) := fun h2 => by
    refine notFree_putUnit ?_
    rw [(GroupsMoved.putGrp set w.g (groupHealed slot w x) s).unit, unitClosed_estate h2]
    decide
  generalize groupOver w.g (groupMapped set slot k w x s) = u at hu ⊢
  have hur := hu.rebuilds.trans hr
  rw [show u.md.rebuilds.length = rest.length + 1 by rw [hur]; exact rfl]
  refine ⟨⟨groupHealed slot w x, ?_, rfl, rfl⟩, fun h2 => ?_, fun hall hsome => ?_, fun hleft hrest => ?_⟩
  · unfold State.grp
    rw [(RebuildKept.rebuildEnd _ u).groups]
    exact hu.grp
  · have hnf : NotFree (unitKey k w.unit) u := by
      unfold NotFree
      rw [hu.units]
      exact hfree h2
    rw [rebuildEnd_unit _ hnf]
    unfold State.unit
    rw [hu.units]
    exact (congrArg UnitE.estate hstored).trans (unitClosed_estate h2)
  · obtain ⟨h, hm, z, hz, hbit⟩ := hsome
    have hstill := stillLost_ne_nil (s := u) (slot := slot) (l := u.md.rebuildLeft) (by rw [hu.left]; exact hm) ((hu.others h (hall h hm).1).trans hz) hbit
    rw [rebuildEnd_stays hur hstill]
    obtain ⟨honly, hreg⟩ := rebuildGo_only (withLeft (stillLost u set slot u.md.rebuildLeft) u)
    exact ⟨honly.rebuilds.trans hu.rebuilds, (congrArg Fld.mapRbProgGroups.get (hreg .mapRbProg (by decide) 0)).trans hu.prog⟩
  · subst hrest
    obtain ⟨hnil, hlost⟩ := rebuildEnd_over hur (hu.left.trans hleft) hu.rebuilding 0
    refine ⟨hnil, ?_⟩
    cases hf : Tab.find set s.md.sets with
    | none =>
      unfold State.set_ Tab.get at hk
      rw [hf] at hk
      cases hk
    | some y =>
      rw [show s.set_ set = y by unfold State.set_ Tab.get; rw [hf]; exact rfl]
      exact hlost y (by rw [hu.sets]; exact hf)

/-- Settles O40. -/
theorem lostLuns : Obligations.LostLuns := by
  unfold Obligations.LostLuns
  intro s
  refine ⟨fun k rest hc hq hl => ⟨fun hs => execLunOffline_spare hc hq hl hs, fun set x slot hs hx hi hp => lunOffline_set hc hq hl hs hx hi hp⟩,
    fun set slot rest g x k u hrun h9 hp hr hn hg hk hu hx => rebuildGroup_taken hrun h9 hp hr hn hg hk hu hx,
    fun set slot rest w x k hrun h9 hr hw hd hx hk => rebuildGroup_done hrun h9 hr hw hd hx hk⟩

end Sys2Proof.Machine
end

section
/-! PROOFS. O41: the raw window. -/
namespace Sys2Proof.Machine

/-! ## What the window's registers say -/

/-- Whether the target is drained speaks of TGT, the slots, the LUNs and the sets alone. -/
theorem rawDrained_congr {s t : State} {c : Nat} (hg : t.get Fld.stkRawCtlTgt c = s.get Fld.stkRawCtlTgt c) (hch : t.ch = s.ch) (hmd : t.md = s.md) :
    rawDrained t c = rawDrained s c := by
  unfold rawDrained progOn eraseOn State.inSlot State.lun State.chan
  rw [hg, hch, hmd]

/-- READY is brought up, or stays, and nothing else changes. -/
theorem rawLatch_spec (c : Nat) (s : State) : rawLatch c s = { s with regs := (rawLatch c s).regs } ∧ OtherRegs s (rawLatch c s) .stkRawCtl c ∧
    (∀ g : Fld, g.hi < 32 → (g.hi < 30 ∨ 30 < g.lo) → ∀ i, (rawLatch c s).get g i = s.get g i) ∧
    (rawLatch c s).flag Fld.stkRawCtlReady c = (s.flag Fld.stkRawCtlReady c || rawReady s c) := by
  unfold rawLatch
  split
  · next h =>
    refine ⟨rfl, otherRegs_putFlag s Fld.stkRawCtlReady true c, fun g hg hf i => State.get_putFlag_field s (g := Fld.stkRawCtlReady) hf hg true c i, ?_⟩
    rw [h, Bool.or_true]
    exact State.flag_putFlag s Fld.stkRawCtlReady rfl (by decide) true c
  · next h =>
    refine ⟨rfl, fun _ _ _ => rfl, fun _ _ _ _ => rfl, ?_⟩
    rw [Bool.not_eq_true] at h
    rw [h, Bool.or_false]

/-- READY that has risen stays. -/
theorem rawReady_latch {c : Nat} {s : State} (h : rawReady s c = true) : rawReady (rawLatch c s) c = true := by
  obtain ⟨_, _, hget, hready⟩ := rawLatch_spec c s
  have hen : (rawLatch c s).flag Fld.stkRawCtlEn c = s.flag Fld.stkRawCtlEn c := congrArg (· != 0) (hget Fld.stkRawCtlEn (by decide) (by decide) c)
  have h' := h
  unfold rawReady at h' ⊢
  rw [Bool.and_eq_true] at h'
  rw [hen, hready, h, h'.1, Bool.or_true, Bool.true_or]
  exact rfl

/-! ## EN 1 takes a target (R191) -/

/-- TMO and TGT as written, EN set. -/
def rawTaken (c : Nat) (w : Word) (s : State) : State :=
  ((s.put Fld.stkRawCtlTmo (Fld.stkRawCtlTmo.get w) c).put Fld.stkRawCtlTgt (Fld.stkRawCtlTgt.get w) c).putFlag Fld.stkRawCtlEn true c

theorem rawTaken_spec {c : Nat} {w : Word} {s : State} (hr : s.flag Fld.stkRawCtlReady c = false) :
    (rawTaken c w s).flag Fld.stkRawCtlEn c = true ∧ (rawTaken c w s).get Fld.stkRawCtlTgt c = Fld.stkRawCtlTgt.get w ∧
      (rawTaken c w s).get Fld.stkRawCtlTmo c = Fld.stkRawCtlTmo.get w ∧ (rawTaken c w s).flag Fld.stkRawCtlReady c = false ∧
      OtherRegs s (rawTaken c w s) .stkRawCtl c := by
  have hlt (f : Fld) : Fld.get f w % 2 ^ (f.hi + 1 - f.lo) = Fld.get f w := Nat.mod_eq_of_lt (Fld.get_lt f w)
  refine ⟨State.flag_putFlag _ Fld.stkRawCtlEn rfl (by decide) true c, ?_, ?_, ?_, ?_⟩
  · rw [rawTaken, State.get_putFlag_field _ (by decide) (by decide), State.get_put_same _ _ (by decide), hlt]
  · rw [rawTaken, State.get_putFlag_field _ (by decide) (by decide), State.get_put_field _ (by decide) (by decide), State.get_put_same _ _ (by decide), hlt]
  · rw [rawTaken, State.flag_putFlag_field _ (by decide) (by decide), State.flag_put_field _ (by decide) (by decide), State.flag_put_field _ (by decide) (by decide), hr]
  · exact ((otherRegs_put s Fld.stkRawCtlTmo _ c).trans (otherRegs_put _ Fld.stkRawCtlTgt _ c)).trans (otherRegs_putFlag _ Fld.stkRawCtlEn true c)

theorem rawCtlWrite_takes {c : Nat} {w : Word} {s : State} (he : s.flag Fld.stkRawCtlEn c = false) (hw : Fld.stkRawCtlEn.get w = 1) :
    rawCtlWrite c w s = rawLatch c (rawTaken c w s) := by
  unfold rawCtlWrite
  rw [he, hw]
  exact rfl

/-- EN 1 takes the target named. -/
theorem rawCtlEnable_takes {s : State} {r : Req} {c : Nat} {w : Word} (hc : c < 128) (hs : Steady s) (hw : Written s r .stkRawCtl c w)
    (hen : Fld.stkRawCtlEn.get w = 1) (he : s.flag Fld.stkRawCtlEn c = false) (hr : s.flag Fld.stkRawCtlReady c = false) :
    ∃ t, execRawCtlEnable r c w s = .next t ∧ t.flag Fld.stkRawCtlEn c = true ∧ t.get Fld.stkRawCtlTgt c = Fld.stkRawCtlTgt.get w ∧
      t.get Fld.stkRawCtlTmo c = Fld.stkRawCtlTmo.get w ∧ t.flag Fld.stkRawCtlReady c = rawDrained t c ∧ OtherRegs s t .stkRawCtl c ∧ t.ch = s.ch ∧
      t.resps = okSent s r := by
  have hexec : execRawCtlEnable r c w s = .next ((rawLatch c (rawTaken c w s)).respondWrite r .ok) := by
    unfold execRawCtlEnable
    rw [decide_eq_true (⟨hc, hen⟩ : c < 128 ∧ Fld.stkRawCtlEn.get w = 1), regWrite_pass hw hs, rawCtlWrite_takes he hen]
    exact onlyIf_true _ _
  obtain ⟨htaken, htgt, htmo, hready, hregs⟩ := rawTaken_spec (w := w) hr
  obtain ⟨hrest, hother, hget, hflag⟩ := rawLatch_spec c (rawTaken c w s)
  have hdrained : rawReady (rawTaken c w s) c = rawDrained (rawTaken c w s) c := by
    unfold rawReady
    rw [htaken, hready]
    exact rfl
  have hv : (rawTaken c w s).ch = s.ch ∧ (rawTaken c w s).resps = s.resps := ⟨rfl, rfl⟩
  have htgt' := hget Fld.stkRawCtlTgt (by decide) (by decide) c
  have hsame : rawDrained ((rawLatch c (rawTaken c w s)).respondWrite r .ok) c = rawDrained (rawTaken c w s) c := by
    refine rawDrained_congr (Eq.trans ?_ htgt') ?_ ?_
    · rw [State.get_respondWrite]
    · rw [State.respondWrite_eq, hrest]
    · rw [State.respondWrite_eq, hrest]
  rw [hready, Bool.false_or, hdrained] at hflag
  refine ⟨_, hexec, ?_, ?_, ?_, ?_, ?_, ?_, ?_⟩
  · rw [State.flag_respondWrite]
    exact (congrArg (· != 0) (hget Fld.stkRawCtlEn (by decide) (by decide) c)).trans htaken
  · rw [State.get_respondWrite, htgt', htgt]
  · rw [State.get_respondWrite, hget Fld.stkRawCtlTmo (by decide) (by decide) c, htmo]
  · rw [State.flag_respondWrite, hflag, hsame]
  · exact (hregs.trans hother).respondWrite r .ok
  · rw [State.respondWrite_eq, hrest]
    exact hv.1
  · have hresps : (rawLatch c (rawTaken c w s)).resps = s.resps := by
      rw [hrest]
      exact hv.2
    exact respondWrite_resps_of_eq hresps r

/-! ## EN 0 gives it back (R197) -/

/-- TMO as written, EN and READY clear. -/
def rawFreed (c : Nat) (w : Word) (s : State) : State :=
  ((s.put Fld.stkRawCtlTmo (Fld.stkRawCtlTmo.get w) c).putFlag Fld.stkRawCtlEn false c).putFlag Fld.stkRawCtlReady false c

theorem rawFreed_spec (c : Nat) (w : Word) (s : State) : (rawFreed c w s).flag Fld.stkRawCtlEn c = false ∧ (rawFreed c w s).flag Fld.stkRawCtlReady c = false ∧
    (rawFreed c w s).get Fld.stkRawCtlTgt c = s.get Fld.stkRawCtlTgt c ∧ OtherRegs s (rawFreed c w s) .stkRawCtl c := by
  refine ⟨?_, State.flag_putFlag _ Fld.stkRawCtlReady rfl (by decide) false c, ?_, ?_⟩
  · rw [rawFreed, State.flag_putFlag_field _ (by decide) (by decide)]
    exact State.flag_putFlag _ Fld.stkRawCtlEn rfl (by decide) false c
  · rw [rawFreed, State.get_putFlag_field _ (by decide) (by decide), State.get_putFlag_field _ (by decide) (by decide), State.get_put_field _ (by decide) (by decide)]
  · exact ((otherRegs_put s Fld.stkRawCtlTmo _ c).trans (otherRegs_putFlag _ Fld.stkRawCtlEn false c)).trans (otherRegs_putFlag _ Fld.stkRawCtlReady false c)

/-- The die's chip enable raised where the window still holds it low. -/
def ceRaised (c : Nat) (s : State) : State := if (s.chan c).rawCe then raiseCe c s else s

theorem ceRaised_spec (c : Nat) (s : State) : ceRaised c s = { s with ch := (ceRaised c s).ch } ∧ ((ceRaised c s).chan c).rb = (s.chan c).rb ∧
    ((ceRaised c s).chan c).rawOut = (s.chan c).rawOut := by
  unfold ceRaised
  split
  · refine ⟨rfl, ?_, ?_⟩
    · rw [raiseCe, State.chan_setChan_same]
    · rw [raiseCe, State.chan_setChan_same]
  · exact ⟨rfl, rfl, rfl⟩

/-- The target noted that comes back once FL_RB_N is high. -/
def targetOut (c : Nat) (s : State) : State :=
  if !(s.chan c).rb.getLsbD (s.get Fld.stkRawCtlTgt c) then s.setChan c { s.chan c with rawOut := some (s.get Fld.stkRawCtlTgt c) } else s

theorem targetOut_spec (c : Nat) (s : State) : targetOut c s = { s with ch := (targetOut c s).ch } ∧
    ((targetOut c s).chan c).rawOut = if (s.chan c).rb.getLsbD (s.get Fld.stkRawCtlTgt c) then (s.chan c).rawOut else some (s.get Fld.stkRawCtlTgt c) := by
  unfold targetOut
  cases (s.chan c).rb.getLsbD (s.get Fld.stkRawCtlTgt c) with
  | true => exact ⟨rfl, rfl⟩
  | false => exact ⟨rfl, congrArg Chan.rawOut (State.chan_setChan_same _ _ _)⟩

theorem rawCtlWrite_frees {c : Nat} {w : Word} {s : State} (he : s.flag Fld.stkRawCtlEn c = true) (hw : Fld.stkRawCtlEn.get w = 0) :
    rawCtlWrite c w s = targetOut c (ceRaised c (rawFreed c w s)) := by
  unfold rawCtlWrite
  rw [he, hw]
  exact rfl

/-- EN 0 gives the target back. -/
theorem rawCtlDisable_frees {s : State} {r : Req} {c : Nat} {w : Word} (hc : c < 128) (hs : Steady s) (hw : Written s r .stkRawCtl c w)
    (hen : Fld.stkRawCtlEn.get w = 0) (he : s.flag Fld.stkRawCtlEn c = true) :
    ∃ t, execRawCtlDisable r c w s = .next t ∧ t.flag Fld.stkRawCtlEn c = false ∧ t.flag Fld.stkRawCtlReady c = false ∧
      t.get Fld.stkRawCtlTgt c = s.get Fld.stkRawCtlTgt c ∧ OtherRegs s t .stkRawCtl c ∧ t.resps = okSent s r ∧
      (t.chan c).rawOut = if (s.chan c).rb.getLsbD (s.get Fld.stkRawCtlTgt c) then (s.chan c).rawOut else some (s.get Fld.stkRawCtlTgt c) := by
  have hexec : execRawCtlDisable r c w s = .next ((targetOut c (ceRaised c (rawFreed c w s))).respondWrite r .ok) := by
    unfold execRawCtlDisable
    rw [decide_eq_true (⟨hc, hen⟩ : c < 128 ∧ Fld.stkRawCtlEn.get w = 0), regWrite_pass hw hs, rawCtlWrite_frees he hen]
    exact onlyIf_true _ _
  obtain ⟨hoff, hready, htgt, hother⟩ := rawFreed_spec c w s
  obtain ⟨hce, hrb, hout⟩ := ceRaised_spec c (rawFreed c w s)
  obtain ⟨hto, hnew⟩ := targetOut_spec c (ceRaised c (rawFreed c w s))
  have hregs : (targetOut c (ceRaised c (rawFreed c w s))).regs = (rawFreed c w s).regs := by rw [hto, hce]
  have hresps : (targetOut c (ceRaised c (rawFreed c w s))).resps = s.resps := by
    rw [hto, hce]
    exact rfl
  have htgt' : (ceRaised c (rawFreed c w s)).get Fld.stkRawCtlTgt c = s.get Fld.stkRawCtlTgt c := by
    rw [hce]
    exact htgt
  have hrb' : ((ceRaised c (rawFreed c w s)).chan c).rb = (s.chan c).rb := hrb
  have hout' : ((ceRaised c (rawFreed c w s)).chan c).rawOut = (s.chan c).rawOut := hout
  refine ⟨_, hexec, ?_, ?_, ?_, ?_, respondWrite_resps_of_eq hresps r, ?_⟩
  · rw [State.flag_respondWrite, State.flag_of_regs hregs, hoff]
  · rw [State.flag_respondWrite, State.flag_of_regs hregs, hready]
  · rw [State.get_respondWrite, State.get_of_regs hregs, htgt]
  · refine OtherRegs.respondWrite (fun k i hk => ?_) r .ok
    rw [State.reg_of_regs hregs]
    exact hother k i hk
  · have hchan : ∀ t : State, ((t.respondWrite r .ok).chan c) = t.chan c := fun t => by
      rw [State.respondWrite_eq]
      exact rfl
    rw [hchan, hnew, hrb', htgt', hout']

end Sys2Proof.Machine
end

section
/-! PROOFS. O41: the raw window's accesses. -/
namespace Sys2Proof.Machine

/-! ## An access queued for the pins (R190) -/

theorem rawAccess_queued {s : State} {r : Req} {c ofs len n region : Nat} {write : Bool} {a : State → RawAcc} {x : RawAcc} (ho : RawOpen s r c)
    (hofs : ofs < 0x400) (hg : rawRegion ofs = region) (hend : rawRegion (ofs + len - 1) = region) (ht : regionTakes write region = true) (hn : n ≤ 64)
    (hx : a (rawLatch c s) = x) : ∃ t, rawAccess r c ofs len n write region a s = .next t ∧ (t.chan c).rawQ = (s.chan c).rawQ ++ [x] ∧ t.resps = s.resps ∧
      OtherRegs s t .stkRawCtl c := by
  obtain ⟨hc, hs, hgate, hready, hkx⟩ := ho
  obtain ⟨hrest, hother, hget, _⟩ := rawLatch_spec c s
  have htgt : (rawLatch c s).get Fld.stkRawCtlTgt c = s.get Fld.stkRawCtlTgt c := hget Fld.stkRawCtlTgt (by decide) (by decide) c
  have hkx' : (rawLatch c s).flag Fld.stkTgtcfgKx (c * 8 + (rawLatch c s).get Fld.stkRawCtlTgt c) = false := by
    rw [htgt, ← hkx]
    exact congrArg (fun w => Fld.stkTgtcfgKx.get w != 0) (hother .stkTgtcfg _ (by rw [ne_eq, Prod.mk.injEq]; exact fun h => RegKind.noConfusion h.1))
  have hno : rawRefuses (rawLatch c s) c ofs len n = false := by
    unfold rawRefuses
    rw [rawReady_latch hready, hkx', hg, hend, bne_self_eq_false, decide_eq_false (by omega)]
    exact rfl
  have hcond : ¬ (128 ≤ c ∨ 0x400 ≤ ofs ∨ (regionTakes write (rawRegion ofs) = true ∧ rawRegion ofs ≠ region)) := by
    rw [hg]
    rintro (h | h | h)
    · omega
    · omega
    · exact h.2 rfl
  have hexec : rawAccess r c ofs len n write region a s =
      .next (takeIn r x.beats ((rawLatch c s).setChan c { (rawLatch c s).chan c with rawQ := ((rawLatch c s).chan c).rawQ ++ [x] })) := by
    unfold rawAccess
    dsimp only
    rw [if_neg hcond, hgate]
    dsimp only
    rw [abortEntry_steady hs, hno, hg, ht, hx]
    exact rfl
  have hchan : (rawLatch c s).chan c = s.chan c := by
    rw [hrest]
    exact rfl
  refine ⟨_, hexec, ?_, ?_, hother⟩
  · refine (congrArg Chan.rawQ (State.chan_setChan_same (rawLatch c s) c _)).trans ?_
    rw [hchan]
  · show (rawLatch c s).resps = s.resps
    rw [hrest]

/-- The targets that a raw access names. -/
theorem rawLatch_named (c : Nat) (s : State) : (rawLatch c s).get Fld.stkRawCtlTgt c = s.get Fld.stkRawCtlTgt c ∧ (rawLatch c s).now = s.now ∧
    ∀ t b, arrayStart (rawLatch c s) c t b = arrayStart s c t b := by
  obtain ⟨hrest, _, hget, _⟩ := rawLatch_spec c s
  refine ⟨hget Fld.stkRawCtlTgt (by decide) (by decide) c, ?_, fun t b => ?_⟩
  · rw [hrest]
    exact rfl
  · rw [hrest]
    exact rfl

theorem rawRegion_of {ofs region : Nat} (h : 0x100 * region ≤ ofs) (hlt : ofs < 0x100 * region + 0x100) (hr : region ≤ 2) : rawRegion ofs = region := by
  unfold rawRegion
  rw [if_pos (by omega)]
  omega

/-- A span within one of the first three regions. -/
theorem rawRegion_span {ofs len region : Nat} (h1 : 0 < len) (h : 0x100 * region ≤ ofs) (hlt : ofs + len ≤ 0x100 * region + 0x100) (hr : region ≤ 2) :
    ofs < 0x400 ∧ rawRegion ofs = region ∧ rawRegion (ofs + len - 1) = region :=
  ⟨by omega, rawRegion_of h (by omega) hr, rawRegion_of (by omega) (by omega) hr⟩

theorem rawRegion_status {ofs : Nat} (h : 0x300 ≤ ofs) (hlt : ofs < 0x304) : rawRegion ofs = 3 := by
  unfold rawRegion
  rw [if_neg (by omega), if_pos hlt]

section
variable {s : State} {r : Req} {c ofs : Nat} {en : List (Option Byte)}

/-- The write's bytes are command cycles, each array-start command with a grant to come. -/
theorem rawCommandWrite_queues (ho : RawOpen s r c) (hne : en ≠ []) (hn : (enabled en).length ≤ 64) (h : ofs + en.length ≤ 0x100) :
    ∃ t, execRawCommandWrite r c ofs en s = .next t ∧ (t.chan c).rawQ = (s.chan c).rawQ ++ [⟨r, s.get Fld.stkRawCtlTgt c,
      (enabled en).map fun b => (.cmd (2 ^ s.get Fld.stkRawCtlTgt c) b, arrayStart s c (s.get Fld.stkRawCtlTgt c) b), none, s.now, beatsOf ofs en.length⟩] ∧
      t.resps = s.resps ∧ OtherRegs s t .stkRawCtl c := by
  obtain ⟨htgt, hnow, hstart⟩ := rawLatch_named c s
  obtain ⟨hofs, hfirst, hlast⟩ := rawRegion_span (region := 0) (List.length_pos_of_ne_nil hne) (Nat.zero_le ofs) h (by decide)
  rw [execRawCommandWrite]
  dsimp only
  refine rawAccess_queued ho hofs hfirst hlast rfl hn ?_
  simp only [htgt, hnow, hstart]

theorem rawAddressWrite_queues (ho : RawOpen s r c) (hne : en ≠ []) (hn : (enabled en).length ≤ 64) (hl : 0x100 ≤ ofs) (h : ofs + en.length ≤ 0x200) :
    ∃ t, execRawAddressWrite r c ofs en s = .next t ∧ (t.chan c).rawQ = (s.chan c).rawQ ++ [⟨r, s.get Fld.stkRawCtlTgt c,
      (enabled en).map fun b => (.addr (2 ^ s.get Fld.stkRawCtlTgt c) b, false), none, s.now, beatsOf ofs en.length⟩] ∧
      t.resps = s.resps ∧ OtherRegs s t .stkRawCtl c := by
  obtain ⟨htgt, hnow, _⟩ := rawLatch_named c s
  obtain ⟨hofs, hfirst, hlast⟩ := rawRegion_span (region := 1) (List.length_pos_of_ne_nil hne) hl h (by decide)
  rw [execRawAddressWrite]
  dsimp only
  refine rawAccess_queued ho hofs hfirst hlast rfl hn ?_
  simp only [htgt, hnow]

theorem rawDataWrite_queues (ho : RawOpen s r c) (hne : en ≠ []) (hn : (enabled en).length ≤ 64) (hl : 0x200 ≤ ofs) (h : ofs + en.length ≤ 0x300) :
    ∃ t, execRawDataWrite r c ofs en s = .next t ∧ (t.chan c).rawQ = (s.chan c).rawQ ++ [⟨r, s.get Fld.stkRawCtlTgt c,
      [(.dataIn (2 ^ s.get Fld.stkRawCtlTgt c) (enabled en), false)], none, s.now, beatsOf ofs en.length⟩] ∧
      t.resps = s.resps ∧ OtherRegs s t .stkRawCtl c := by
  obtain ⟨htgt, hnow, _⟩ := rawLatch_named c s
  obtain ⟨hofs, hfirst, hlast⟩ := rawRegion_span (region := 2) (List.length_pos_of_ne_nil hne) hl h (by decide)
  rw [execRawDataWrite]
  dsimp only
  refine rawAccess_queued ho hofs hfirst hlast rfl hn ?_
  simp only [htgt, hnow]

variable {len : Nat}

theorem rawDataRead_queues (ho : RawOpen s r c) (h1 : 1 ≤ len) (hn : len ≤ 64) (hl : 0x200 ≤ ofs) (h : ofs + len ≤ 0x300) :
    ∃ t, execRawDataRead r c ofs len s = .next t ∧ (t.chan c).rawQ = (s.chan c).rawQ ++ [⟨r, s.get Fld.stkRawCtlTgt c,
      [(.dataOut (2 ^ s.get Fld.stkRawCtlTgt c) len, false)], some (false, 0, len), s.now, 0⟩] ∧
      t.resps = s.resps ∧ OtherRegs s t .stkRawCtl c := by
  obtain ⟨htgt, hnow, _⟩ := rawLatch_named c s
  obtain ⟨hofs, hfirst, hlast⟩ := rawRegion_span (region := 2) h1 hl h (by decide)
  rw [execRawDataRead]
  dsimp only
  refine rawAccess_queued ho hofs hfirst hlast rfl hn ?_
  simp only [htgt, hnow]

theorem rawStatusRead_queues (ho : RawOpen s r c) (h1 : 1 ≤ len) (hn : len ≤ 64) (hl : 0x300 ≤ ofs) (h : ofs + len ≤ 0x304) :
    ∃ t, execRawStatusRead r c ofs len s = .next t ∧ (t.chan c).rawQ = (s.chan c).rawQ ++ [⟨r, s.get Fld.stkRawCtlTgt c,
      [(.status (2 ^ s.get Fld.stkRawCtlTgt c), false)], some (true, ofs - 0x300, len), s.now, 0⟩] ∧
      t.resps = s.resps ∧ OtherRegs s t .stkRawCtl c := by
  obtain ⟨htgt, hnow, _⟩ := rawLatch_named c s
  rw [execRawStatusRead]
  dsimp only
  refine rawAccess_queued ho (by omega) (rawRegion_status hl (by omega)) (rawRegion_status (by omega) (by omega)) rfl hn ?_
  simp only [htgt, hnow]

/-! ## A command refused (R192) -/

theorem rawRefuses_latch (hg : ofs < 0x100) (hr : rawReady s c = false ∨ s.flag Fld.stkTgtcfgKx (c * 8 + s.get Fld.stkRawCtlTgt c) = true ∨
    0x100 < ofs + en.length ∨ 64 < (enabled en).length) : rawRefuses (rawLatch c s) c ofs en.length (enabled en).length = true := by
  obtain ⟨_, hother, hget, _⟩ := rawLatch_spec c s
  unfold rawRefuses
  rcases hr with h | h | h | h
  · have hsame : rawLatch c s = s := if_neg (by rw [h]; decide)
    rw [hsame, h]
    simp
  · have htgt : (rawLatch c s).get Fld.stkRawCtlTgt c = s.get Fld.stkRawCtlTgt c := hget Fld.stkRawCtlTgt (by decide) (by decide) c
    have hkx : (rawLatch c s).flag Fld.stkTgtcfgKx (c * 8 + (rawLatch c s).get Fld.stkRawCtlTgt c) = true := by
      rw [htgt, ← h]
      exact congrArg (fun w => Fld.stkTgtcfgKx.get w != 0) (hother .stkTgtcfg _ (by rw [ne_eq, Prod.mk.injEq]; exact fun h => RegKind.noConfusion h.1))
    rw [hkx]
    simp
  · have h0 : rawRegion ofs = 0 := rawRegion_of (by omega) (by omega) (by omega)
    have hne : rawRegion (ofs + en.length - 1) ≠ 0 := by
      unfold rawRegion
      split
      · omega
      · split <;> omega
    rw [h0, bne_iff_ne.mpr hne.symm]
    simp
  · rw [decide_eq_true h]
    simp

theorem rawCommandWrite_refused (hc : c < 128) (hs : Steady s) (hgate : rawGate s r c = .pass) (hofs : ofs < 0x100)
    (hr : rawReady s c = false ∨ s.flag Fld.stkTgtcfgKx (c * 8 + s.get Fld.stkRawCtlTgt c) = true ∨ 0x100 < ofs + en.length ∨ 64 < (enabled en).length) :
    ∃ t, execRawCommandWrite r c ofs en s = .next t ∧ t.flag Fld.stkRawStsRefused c = true ∧ (t.chan c).rawQ = (s.chan c).rawQ ∧
      t.resps = (s.respondWrite r .decerr).resps := by
  obtain ⟨hrest, _, _, _⟩ := rawLatch_spec c s
  have h0 : rawRegion ofs = 0 := rawRegion_of (by omega) (by omega) (by omega)
  have hcond : ¬ (128 ≤ c ∨ 0x400 ≤ ofs ∨ (regionTakes true (rawRegion ofs) = true ∧ rawRegion ofs ≠ 0)) := by
    rw [h0]
    rintro (h | h | h)
    · omega
    · omega
    · exact h.2 rfl
  have hexec : execRawCommandWrite r c ofs en s = .next (((rawLatch c s).putFlag Fld.stkRawStsRefused true c).respondWrite r .decerr) := by
    unfold execRawCommandWrite rawAccess
    dsimp only
    rw [if_neg hcond, hgate]
    dsimp only
    rw [abortEntry_steady hs, rawRefuses_latch hofs hr]
    exact rfl
  refine ⟨_, hexec, ?_, ?_, ?_⟩
  · rw [State.flag_respondWrite]
    exact State.flag_putFlag _ Fld.stkRawStsRefused rfl (by decide) true c
  · rw [State.respondWrite_eq, hrest]
    exact rfl
  · rw [State.respondWrite_eq, State.respondWrite_eq, hrest]
    exact rfl

end

/-! ## A read held too long (R196) -/

theorem rawReadTimeout_ends {s : State} {c lo n : Nat} {b : Bool} {a : List RawAcc} {x : RawAcc} (hon : s.coreOn = true) (hq : (s.chan c).rawQ = a ++ [x])
    (hx : x.read = some (b, lo, n)) (ha : ∀ y ∈ a, y.read = none) (hlate : x.since + 1000 * max 1 (s.get Fld.stkRawCtlTmo c) ≤ s.now)
    (hrb : (s.chan c).rb.getLsbD x.tgt = false) (hnew : x ∉ a) :
    ∃ t, execRawReadTimeout c s = .next t ∧ (t.chan c).rawQ = a ∧ (t.chan c).bus = (s.chan c).bus ∧ t.flag Fld.stkRawStsTmo c = true ∧
      OtherRegs s t .stkRawSts c ∧ t.resps = s.resps ++ [⟨x.req.port, x.req.vc, x.req.tag, .decerr, List.replicate n 0⟩] := by
  have hfind : ((s.chan c).rawQ.find? fun y => rawLate s c y && !(s.chan c).rb.getLsbD y.tgt) = some x := by
    have hnone : (a.find? fun y => rawLate s c y && !(s.chan c).rb.getLsbD y.tgt) = none := by
      refine List.find?_eq_none.mpr fun y hy => ?_
      unfold rawLate
      rw [ha y hy]
      exact Bool.false_ne_true
    have hx' : (rawLate s c x && !(s.chan c).rb.getLsbD x.tgt) = true := by
      unfold rawLate
      rw [hx, hrb, decide_eq_true hlate]
      exact rfl
    rw [hq, List.find?_append, hnone, Option.none_or]
    exact List.find?_cons_of_pos hx'
  have herase : (s.chan c).rawQ.erase x = a := by
    rw [hq, List.erase_append_right _ hnew, List.erase_cons_head, List.append_nil]
  have hexec : execRawReadTimeout c s =
      .next ((giveIn x.req x.beats ((s.setChan c { s.chan c with rawQ := a }).putFlag Fld.stkRawStsTmo true c)).respond x.req .decerr (List.replicate n 0)) := by
    unfold execRawReadTimeout
    rw [hfind]
    dsimp only
    rw [hon, herase]
    unfold rawFails rawAnswer
    rw [hx]
    exact onlyIf_true _ _
  have hchan := State.chan_setChan_same s c { s.chan c with rawQ := a }
  refine ⟨_, hexec, ?_, ?_, ?_, ?_, rfl⟩
  · exact (congrArg Chan.rawQ hchan :)
  · exact (congrArg Chan.bus hchan :)
  · exact State.flag_putFlag (s.setChan c { s.chan c with rawQ := a }) Fld.stkRawStsTmo rfl (by decide) true c
  · exact otherRegs_putFlag (s.setChan c { s.chan c with rawQ := a }) Fld.stkRawStsTmo true c

/-- Settles O41. -/
theorem rawWindow : Obligations.RawWindow := by
  unfold Obligations.RawWindow
  intro s r c
  refine ⟨fun w hc hs hw => ⟨fun hen he hr => rawCtlEnable_takes hc hs hw hen he hr, fun hen he => rawCtlDisable_frees hc hs hw hen he⟩,
    fun ho => ⟨fun ofs en hne hn => ⟨fun h => rawCommandWrite_queues ho hne hn h, fun hl h => rawAddressWrite_queues ho hne hn hl h,
      fun hl h => rawDataWrite_queues ho hne hn hl h⟩, fun ofs len h1 hn => ⟨fun hl h => rawDataRead_queues ho h1 hn hl h, fun hl h => rawStatusRead_queues ho h1 hn hl h⟩⟩,
    fun hc hs hg ofs en hofs hr => rawCommandWrite_refused hc hs hg hofs hr,
    fun a x b lo n hon hq hx ha hlate hrb hnew => rawReadTimeout_ends hon hq hx ha hlate hrb hnew⟩

end Sys2Proof.Machine
end

section
/-! PROOFS. O42: the patch RAM view, HALT and STEP. -/
namespace Sys2Proof.Machine

/-! ## The patch RAM view (R186) -/

theorem patchRamRead_zeros {s : State} {r : Req} {c ofs beats : Nat} (hc : c < 128) (hg : viewGate s r = .pass) (hv : viewReadOk ofs beats = true) :
    ∃ t, execPatchRamRead r c ofs beats s = .next t ∧ t = { s with regs := t.regs, resps := t.resps } ∧
      t.resps = s.resps ++ [⟨r.port, r.vc, r.tag, .ok, List.replicate (64 * beats) 0⟩] ∧ t.flag Fld.stkUcodeStsXoRd c = true ∧ OtherRegs s t .stkUcodeSts c := by
  have hexec : execPatchRamRead r c ofs beats s = .next ((s.putFlag Fld.stkUcodeStsXoRd true c).respond r .ok (zeroBeats beats)) := by
    unfold execPatchRamRead
    rw [hg, decide_eq_true hc, hv]
    exact rfl
  exact ⟨_, hexec, rfl, rfl, State.flag_putFlag s Fld.stkUcodeStsXoRd rfl (by decide) true c, otherRegs_putFlag s Fld.stkUcodeStsXoRd true c⟩

theorem patchRamWrite_refused {s : State} {r : Req} {c : Nat} (hc : c < 128) (hg : viewGate s r = .pass) :
    ∃ t, execPatchRamWrite r c s = .next t ∧ t = { s with regs := t.regs, resps := t.resps } ∧ t.resps = (s.respondWrite r .decerr).resps ∧
      t.flag Fld.stkUcodeStsXoWr c = true ∧ OtherRegs s t .stkUcodeSts c := by
  have hexec : execPatchRamWrite r c s = .next ((s.putFlag Fld.stkUcodeStsXoWr true c).respondWrite r .decerr) := by
    unfold execPatchRamWrite
    rw [hg, if_pos hc]
  refine ⟨_, hexec, ?_, ?_, ?_, (otherRegs_putFlag s Fld.stkUcodeStsXoWr true c).respondWrite r .decerr⟩
  · rw [State.respondWrite_eq]
    exact rfl
  · rw [State.respondWrite_eq, State.respondWrite_eq]
    exact rfl
  · rw [State.flag_respondWrite]
    exact State.flag_putFlag s Fld.stkUcodeStsXoWr rfl (by decide) true c

/-! ## HALT (R204) -/

/-- HALT as written, and the channel that stops for it. -/
def haltSet (h : Bool) (c : Nat) (s : State) : State := (s.putFlag Fld.stkDbgCtlHalt h c).setChan c { s.chan c with halting := h }

/-- A stoker that is to halt: a channel marked, and STK_DBG_CTL. -/
structure HaltOnly (s t : State) (c : Nat) : Prop where
  rest : t = { s with regs := t.regs, ch := t.ch }
  chan : t.chan c = { s.chan c with halting := true }
  regs : OtherRegs s t .stkDbgCtl c

theorem haltSet_rest (h : Bool) (c : Nat) (s : State) : haltSet h c s = { s with regs := (haltSet h c s).regs, ch := (haltSet h c s).ch } := rfl

theorem haltSet_chan (h : Bool) (c : Nat) (s : State) : (haltSet h c s).chan c = { s.chan c with halting := h } := State.chan_setChan_same _ _ _

theorem haltSet_regs (h : Bool) (c : Nat) (s : State) : OtherRegs s (haltSet h c s) .stkDbgCtl c := otherRegs_putFlag s Fld.stkDbgCtlHalt h c

theorem haltSet_flag (h : Bool) (c : Nat) (s : State) : (haltSet h c s).flag Fld.stkDbgCtlHalt c = h ∧
    (haltSet h c s).flag Fld.stkDbgCtlHalted c = s.flag Fld.stkDbgCtlHalted c :=
  ⟨State.flag_putFlag s Fld.stkDbgCtlHalt rfl (by decide) h c, State.flag_putFlag_field s (by decide) (by decide) h c c⟩

/-- The stop at a switch point: HALTED, and nothing else. -/
theorem haltAt_spec (c : Nat) (s : State) : haltAt c s = { s with regs := (haltAt c s).regs } ∧ OtherRegs s (haltAt c s) .stkDbgCtl c ∧
    (haltAt c s).flag Fld.stkDbgCtlHalt c = s.flag Fld.stkDbgCtlHalt c ∧ ((s.chan c).halting = true → (haltAt c s).flag Fld.stkDbgCtlHalted c = true) := by
  unfold haltAt
  split
  · exact ⟨rfl, otherRegs_putFlag s Fld.stkDbgCtlHalted true c, State.flag_putFlag_field s (by decide) (by decide) true c c,
      fun _ => State.flag_putFlag s Fld.stkDbgCtlHalted rfl (by decide) true c⟩
  · next h =>
    refine ⟨rfl, fun _ _ _ => rfl, rfl, fun hh => ?_⟩
    rw [hh, Bool.true_and, Bool.not_eq_true, Bool.not_eq_false'] at h
    exact h

theorem haltWrite_one {c : Nat} {w : Word} {s : State} (h : Fld.stkDbgCtlHalt.get w = 1) :
    haltWrite c w s = if ((haltSet true c s).chan c).act.isNone then haltAt c (haltSet true c s) else haltSet true c s := by
  unfold haltWrite
  rw [if_pos h]
  exact rfl

theorem haltWrite_zero {c : Nat} {w : Word} {s : State} (h : Fld.stkDbgCtlHalt.get w = 0) :
    haltWrite c w s = (haltSet false c s).putFlag Fld.stkDbgCtlHalted false c := by
  unfold haltWrite
  rw [h]
  exact rfl

theorem execStkDbgHalt_pass {s : State} {r : Req} {c : Nat} {w : Word} (hc : c < 128) (hs : Steady s) (hw : Written s r .stkDbgCtl c w)
    (hstep : Fld.stkDbgCtlStep.get w = 0) : execStkDbgHalt r c w s = .next ((haltWrite c w s).respondWrite r .ok) := by
  unfold execStkDbgHalt
  rw [decide_eq_true (⟨hc, hstep⟩ : c < 128 ∧ Fld.stkDbgCtlStep.get w = 0), regWrite_pass hw hs]
  exact onlyIf_true _ _

theorem State.chan_respondWrite (s : State) (r : Req) (code : RCode) (c : Nat) : (s.respondWrite r code).chan c = s.chan c := by
  rw [State.respondWrite_eq]
  exact rfl

/-- HALT 1 stops the stoker at its next switch point. -/
theorem stkDbgHalt_stops {s : State} {r : Req} {c : Nat} {w : Word} (hc : c < 128) (hs : Steady s) (hw : Written s r .stkDbgCtl c w)
    (hstep : Fld.stkDbgCtlStep.get w = 0) (hh : Fld.stkDbgCtlHalt.get w = 1) : ∃ t, execStkDbgHalt r c w s = .next t ∧ t.flag Fld.stkDbgCtlHalt c = true ∧
      (t.chan c).halting = true ∧ (t.chan c).slots = (s.chan c).slots ∧ OtherRegs s t .stkDbgCtl c ∧ t.resps = okSent s r ∧
      ((s.chan c).act = none → t.flag Fld.stkDbgCtlHalted c = true) ∧
      ((s.chan c).act ≠ none → t.flag Fld.stkDbgCtlHalted c = s.flag Fld.stkDbgCtlHalted c) := by
  have hexec := execStkDbgHalt_pass hc hs hw hstep
  rw [haltWrite_one hh] at hexec
  have hchan := haltSet_chan true c s
  have hregs := haltSet_regs true c s
  obtain ⟨hhalt, hhalted⟩ := haltSet_flag true c s
  have hact : ((haltSet true c s).chan c).act = (s.chan c).act := by rw [hchan]
  rw [hact] at hexec
  refine ⟨_, hexec, ?_⟩
  rw [State.flag_respondWrite, State.flag_respondWrite, State.chan_respondWrite]
  cases ha : (s.chan c).act with
  | none =>
    rw [if_pos (show (none : Option Nat).isNone = true from rfl)]
    obtain ⟨hrest, hother, hkeep, hset⟩ := haltAt_spec c (haltSet true c s)
    have hch : (haltAt c (haltSet true c s)).chan c = { s.chan c with halting := true } := by
      rw [hrest]
      exact hchan
    have hresps : (haltAt c (haltSet true c s)).resps = s.resps := by
      rw [hrest]
      exact rfl
    refine ⟨hkeep.trans hhalt, ?_, ?_, (hregs.trans hother).respondWrite r .ok, respondWrite_resps_of_eq hresps r, fun _ => hset ?_, fun h => absurd rfl h⟩
    · rw [hch]
    · rw [hch]
    · rw [hchan]
  | some k =>
    rw [if_neg (show ¬ (some k).isNone = true from Bool.false_ne_true)]
    refine ⟨hhalt, ?_, ?_, hregs.respondWrite r .ok, respondWrite_resps_of_eq rfl r, fun h => absurd h (Option.some_ne_none k), fun _ => hhalted⟩
    · rw [hchan]
    · rw [hchan]

/-- A stoker that is not halted shows no address. -/
theorem dbgUpc_zero {s : State} {c : Nat} (h : s.flag Fld.stkDbgCtlHalted c = false) : Fld.stkDbgCtlUpc.get (liveWord s .stkDbgCtl c) = 0 := by
  show Fld.stkDbgCtlUpc.get (Fld.stkDbgCtlUpc.put (if s.flag Fld.stkDbgCtlHalted c then haltUpc s c else 0) (s.reg .stkDbgCtl c)) = 0
  rw [Fld.get_put_same _ (by decide), h]
  exact rfl

/-- HALT 0 lets the stoker go on. -/
theorem stkDbgHalt_releases {s : State} {r : Req} {c : Nat} {w : Word} (hc : c < 128) (hs : Steady s) (hw : Written s r .stkDbgCtl c w)
    (hstep : Fld.stkDbgCtlStep.get w = 0) (hh : Fld.stkDbgCtlHalt.get w = 0) : ∃ t, execStkDbgHalt r c w s = .next t ∧ t.flag Fld.stkDbgCtlHalt c = false ∧
      t.flag Fld.stkDbgCtlHalted c = false ∧ Fld.stkDbgCtlUpc.get (liveWord t .stkDbgCtl c) = 0 ∧ (t.chan c).halting = false ∧ (t.chan c).slots = (s.chan c).slots ∧
      OtherRegs s t .stkDbgCtl c ∧ t.resps = okSent s r := by
  have hexec := execStkDbgHalt_pass hc hs hw hstep
  rw [haltWrite_zero hh] at hexec
  have hchan : ((haltSet false c s).putFlag Fld.stkDbgCtlHalted false c).chan c = { s.chan c with halting := false } := haltSet_chan false c s
  have hoff : ((haltSet false c s).putFlag Fld.stkDbgCtlHalted false c).flag Fld.stkDbgCtlHalted c = false := State.flag_putFlag _ _ rfl (by decide) false c
  have hhalt : ((haltSet false c s).putFlag Fld.stkDbgCtlHalted false c).flag Fld.stkDbgCtlHalt c = false :=
    (State.flag_putFlag_field _ (by decide) (by decide) false c c).trans (haltSet_flag false c s).1
  have hregs : OtherRegs s ((haltSet false c s).putFlag Fld.stkDbgCtlHalted false c) .stkDbgCtl c :=
    (haltSet_regs false c s).trans (otherRegs_putFlag _ Fld.stkDbgCtlHalted false c)
  refine ⟨_, hexec, ?_, ?_, dbgUpc_zero ?_, ?_, ?_, hregs.respondWrite r .ok, respondWrite_resps_of_eq rfl r⟩
  · rw [State.flag_respondWrite, hhalt]
  · rw [State.flag_respondWrite, hoff]
  · rw [State.flag_respondWrite, hoff]
  · rw [State.chan_respondWrite, hchan]
  · rw [State.chan_respondWrite, hchan]

end Sys2Proof.Machine
end

section
/-! PROOFS. O42: one word of a halted stoker. -/
namespace Sys2Proof.Machine

/-! ## What a word finds of a stoker that is to halt -/

namespace HaltOnly
variable {s t : State} {c : Nat}

theorem reg (h : HaltOnly s t c) {k : RegKind} (hk : k ≠ .stkDbgCtl) (i : Nat) : t.reg k i = s.reg k i :=
  h.regs k i fun e => hk (Prod.mk.inj e).1

theorem get (h : HaltOnly s t c) {f : Fld} (hk : f.kind ≠ .stkDbgCtl) (i : Nat) : t.get f i = s.get f i := congrArg f.get (h.reg hk i)

theorem flag (h : HaltOnly s t c) {f : Fld} (hk : f.kind ≠ .stkDbgCtl) (i : Nat) : t.flag f i = s.flag f i := congrArg (· != 0) (h.get hk i)

theorem rest_trans {u : State} (h : t = { s with regs := t.regs, ch := t.ch }) (g : u = { t with regs := u.regs, ch := u.ch }) :
    u = { s with regs := u.regs, ch := u.ch } := by
  rw [g, h]

/-- The slot that holds the pins holds them on. -/
theorem held (h : HaltOnly s t c) {k : Nat} (ha : (s.chan c).act = some k) : HaltOnly s (t.setChan c { t.chan c with act := some k }) c := by
  refine ⟨rest_trans h.rest rfl, ?_, h.regs⟩
  rw [State.chan_setChan_same, h.chan, ← ha]

theorem now (h : HaltOnly s t c) : t.now = s.now := by
  rw [h.rest]
  exact rfl

theorem img (h : HaltOnly s t c) : t.img = s.img := by
  rw [h.rest]

theorem fetchWord (h : HaltOnly s t c) (upc : BitVec 15) (w : BitVec 96) : fetchWord t c upc w = fetchWord s c upc w := by
  have hf (m : Nat) : t.flag Fld.stkMatchEn m = s.flag Fld.stkMatchEn m := h.flag (by decide) m
  have hg (m : Nat) : t.get Fld.stkMatchRomAddr m = s.get Fld.stkMatchRomAddr m := h.get (by decide) m
  have hp (m : Nat) : t.get Fld.stkMatchPatchAddr m = s.get Fld.stkMatchPatchAddr m := h.get (by decide) m
  unfold Machine.fetchWord
  simp only [h.chan, hf, hg, hp]

/-- Which rate a target asks for hangs on the registers, the modes its parameter page advertises and the supplies. -/
theorem needsRate (h : HaltOnly s t c) (n : Nat) : needsRate t c n = needsRate s c n := by
  have hset : setNo t c n = setNo s c n := by
    simp only [setNo, h.flag (f := Fld.stkTgtcfgKx) (by decide), h.get (f := Fld.stkTgtcfgKxTset) (by decide), h.get (f := Fld.stkTgtcfgTset) (by decide)]
  have hws (j : Nat) : setWords t c j = setWords s c j := by
    simp only [setWords, tsetKinds, List.map_cons, List.map_nil, h.reg (k := .stkTsetW0) (by decide), h.reg (k := .stkTsetW1) (by decide),
      h.reg (k := .stkTsetW2) (by decide), h.reg (k := .stkTsetW3) (by decide), h.reg (k := .stkTsetW4) (by decide),
      h.reg (k := .stkTsetW5) (by decide), h.reg (k := .stkTsetW6) (by decide), h.reg (k := .stkTsetW7) (by decide)]
  have hv : vccqHigh t c = vccqHigh s c := by rw [vccqHigh, vccqHigh, h.img]
  have happ : applied t c n = applied s c n := by
    simp only [applied, hset, hws, h.flag (f := Fld.stkTgtcfgKx) (by decide), h.get (f := Fld.stkChmodeCeil) (by decide), hv, h.chan]
  simp only [Machine.needsRate, happ, h.chan, h.get (f := Fld.stkChmodeCurRate) (by decide)]

theorem wordRate (h : HaltOnly s t c) (x : Slot) (w : BitVec 96) : wordRate t c x w = wordRate s c x w := by
  unfold Machine.wordRate State.banked
  rw [h.needsRate, h.flag (f := Fld.glbBankStsBanked) (by decide)]

/-- Whether a word of operation 0 may run. -/
theorem wordMay (h : HaltOnly s t c) {x : Slot} {u v : BitVec 96} {upc : BitVec 15} (hf : Machine.fetchWord s c x.upc u = (upc, v)) (hop : mOp v = 0) :
    wordMay t c x u = wordMay s c x u := by
  have hseq (a : State) : seqWord a c x v = some x.seq := by
    unfold seqWord
    simp only [hop]
  unfold Machine.wordMay rateLocked
  rw [h.fetchWord, hf]
  simp only [hseq, h.chan, h.now]

end HaltOnly

/-! ## What a word leaves of the debug registers -/

/-- The slot that holds the pins, the words counted, STK_DBG_CTL and the responses are as they were. -/
structure DbgKept (c : Nat) (s t : State) : Prop where
  act : (t.chan c).act = (s.chan c).act
  words : (t.chan c).words = (s.chan c).words
  dbg : ∀ i, t.reg .stkDbgCtl i = s.reg .stkDbgCtl i
  resps : t.resps = s.resps

namespace DbgKept
variable {c : Nat} {s t u : State}

theorem refl (s : State) : DbgKept c s s := ⟨rfl, rfl, fun _ => rfl, rfl⟩

theorem trans (h : DbgKept c s t) (g : DbgKept c t u) : DbgKept c s u :=
  ⟨g.act.trans h.act, g.words.trans h.words, fun i => (g.dbg i).trans (h.dbg i), g.resps.trans h.resps⟩

theorem ite {p : Prop} [Decidable p] (h : DbgKept c s t) (g : DbgKept c s u) : DbgKept c s (if p then t else u) := by
  split
  · exact h
  · exact g

theorem setChan {y : Chan} (ha : y.act = (s.chan c).act) (hw : y.words = (s.chan c).words) : DbgKept c s (s.setChan c y) := by
  refine ⟨?_, ?_, fun _ => rfl, rfl⟩
  · rw [State.chan_setChan_same, ha]
  · rw [State.chan_setChan_same, hw]

theorem put {f : Fld} (h : f.kind ≠ .stkDbgCtl) (v i : Nat) (s : State) : DbgKept c s (s.put f v i) :=
  ⟨rfl, rfl, fun j => State.reg_put_kind s h.symm v i j, rfl⟩

theorem logPacked (unit code : Nat) (o v : List (Nat × Nat)) (s : State) : DbgKept c s (s.logPacked unit code o v) :=
  ⟨rfl, rfl, fun i => State.reg_logPacked s (by decide) unit code o v i, rfl⟩

theorem raiseCe (s : State) : DbgKept c s (raiseCe c s) := setChan rfl rfl

theorem busPut (b : BusCyc) (s : State) (odt : Nat) : DbgKept c s (busPut c b s odt) := setChan rfl rfl

theorem setSlot (k : Nat) (x : Slot) (s : State) : DbgKept c s (setSlot c k x s) := setChan rfl rfl

theorem setRate (rate : Nat) (s : State) : DbgKept c s (setRate c rate s) := by
  unfold Machine.setRate
  exact ite (refl s) ((raiseCe s).trans ((busPut _ _ 0).trans (put (by decide) _ _ _)))

theorem logOnce (n key : Nat) (s : State) : DbgKept c s (logOnce c n key s) := by
  unfold Machine.logOnce
  have hset : DbgKept c s (s.setChan c { s.chan c with logged := key :: (s.chan c).logged }) := setChan rfl rfl
  exact ite (refl s) (hset.trans (logPacked _ _ _ _ _))

theorem selectMask (n mask : Nat) (s : State) : DbgKept c s (selectMask c n mask s) := by
  unfold Machine.selectMask
  dsimp only
  split
  · exact setChan rfl rfl
  · have hlog (l : List Nat) (s : State) : DbgKept c s (l.foldl (fun s key => Machine.logOnce c n key s) s) :=
      List.foldlRecOn l _ (refl s) fun t ht key _ => ht.trans (logOnce n key t)
    exact (setRate _ s).trans ((put (by decide) _ _ _).trans ((hlog _ _).trans (setChan rfl rfl)))

theorem runSel (x : Slot) (w : BitVec 96) (s : State) : DbgKept c s (runSel c x w s) := by
  unfold Machine.runSel
  split
  · exact ite (raiseCe s) (refl s)
  · exact selectMask _ _ s

theorem sendCa (k mask : Nat) (bs : List Byte) (s : State) : DbgKept c s (sendCa c k mask bs s) := by
  unfold Machine.sendCa
  dsimp only
  split
  · split
    · exact busPut _ s 0
    · exact (busPut _ s 0).trans (setSlot _ _ _)
  · exact busPut _ s 0

theorem sendItems (k mask : Nat) (s : State) : DbgKept c s (sendItems c k mask s) := by
  unfold Machine.sendItems
  exact ite (refl s) ((sendCa _ _ _ s).trans (setChan rfl rfl))

theorem wordStart (k : Nat) (x : Slot) (w : BitVec 96) (s : State) : DbgKept c s (wordStart s c k x w) := by
  unfold Machine.wordStart
  exact ite (sendItems _ _ s) (refl s)

end DbgKept

/-- A word begun counts once for a slot that is ready. -/
theorem wordBegun_dbg {s : State} {c k : Nat} {x : Slot} (hx : x.st = .ready) (upc : BitVec 15) (u : BitVec 96) :
    ((wordBegun s c k x upc u).chan c).act = (s.chan c).act ∧ ((wordBegun s c k x upc u).chan c).words = (s.chan c).words + 1 ∧
      (∀ i, (wordBegun s c k x upc u).reg .stkDbgCtl i = s.reg .stkDbgCtl i) ∧ (wordBegun s c k x upc u).resps = s.resps := by
  have hsel := (DbgKept.wordStart (c := c) k x u s).trans (DbgKept.runSel (slotAtWord s c k x upc u) u _)
  have hchan : (wordBegun s c k x upc u).chan c = beganChan s c k x upc u := State.chan_setChan_same _ _ _
  rw [hchan]
  refine ⟨hsel.act, ?_, hsel.dbg, hsel.resps⟩
  unfold beganChan
  dsimp only
  rw [hsel.words, hx]
  exact rfl

theorem slotAtWord_kept (s : State) (c k : Nat) (x : Slot) (upc : BitVec 15) (u : BitVec 96) : (slotAtWord s c k x upc u).last = upc ∧
    (slotAtWord s c k x upc u).op = x.op ∧ (slotAtWord s c k x upc u).stack = x.stack ∧ (slotAtWord s c k x upc u).g = x.g := by
  unfold slotAtWord keepFrames
  split
  · exact ⟨rfl, rfl, rfl, rfl⟩
  · exact ⟨rfl, rfl, rfl, rfl⟩

/-! ## The word that a STEP runs (R204) -/

/-- A word of operation 0 moves its slot on. -/
theorem runWord_nop {s : State} {c k : Nat} {x : Slot} {u v : BitVec 96} {upc : BitVec 15} (hf : fetchWord s c x.upc u = (upc, v)) (hres : wordReserved v = false)
    (hop : mOp v = 0) (hlast : NotLast upc) (din : List Byte) (m : Train) :
    runWord c k x u din m s = setSlot c k { slotAtWord s c k x upc v with upc := upc + 1 } (wordBegun s c k x upc v) := by
  have hrun : runWord c k x u din m s = runOp c k (slotAtWord s c k x upc v) upc v din m (wordBegun s c k x upc v) := by
    rw [runWord, hf, if_neg (by show ¬ 0x13 ≤ mOp v; omega), if_neg (by show ¬ wordReserved v = true; simp [hres]),
      if_neg (by show ¬ (mOp v = 2 ∧ s.banked = true); omega)]
    rfl
  rw [hrun, runOp, hop]
  exact goNext_of_notLast hlast _ _ _ _

/-- STEP runs the word of the slot that holds the pins. -/
theorem stepWord_runs {s t : State} {c k : Nat} {x : Slot} {u v : BitVec 96} {upc : BitVec 15} (ht : HaltOnly s t c) (hh : t.flag Fld.stkDbgCtlHalted c = true)
    (hfault : s.flag Fld.stkStsFault c = false) (hact : (s.chan c).act = some k) (hx : Tab.find k (s.chan c).slots = some x) (hst : x.st = .ready)
    (hmay : wordMay s c x u = true) (hf : fetchWord s c x.upc u = (upc, v)) (hrate : wordRate s c x v = false) (hop : mOp v = 0) (din : List Byte) (m : Train) :
    stepWord c u din m t = runWord c k x u din m (t.setChan c { t.chan c with act := some k }) := by
  have hslot : stepSlot t c = some (k, x) := by
    unfold stepSlot
    simp only [ht.chan, hact, hx]
    exact rfl
  have hpins := ht.held hact
  unfold stepWord
  rw [hh, ht.flag (f := Fld.stkStsFault) (by decide), hfault, if_neg (by decide), hslot]
  dsimp only
  rw [if_neg (show ¬ x.st = .parkedSafe by rw [hst]; exact SlotSt.noConfusion), ht.wordMay hf hop, hmay, if_neg (by decide)]
  unfold wordOrRate
  rw [hpins.fetchWord, hf, hpins.wordRate, hrate, if_neg Bool.false_ne_true]

/-- A halted stoker shows the address of the slot that holds the pins. -/
theorem dbgUpc_of_act {s : State} {c k : Nat} {y : Slot} (h : s.flag Fld.stkDbgCtlHalted c = true) (ha : (s.chan c).act = some k)
    (hy : Tab.find k (s.chan c).slots = some y) : Fld.stkDbgCtlUpc.get (liveWord s .stkDbgCtl c) = y.upc.toNat := by
  show Fld.stkDbgCtlUpc.get (Fld.stkDbgCtlUpc.put (if s.flag Fld.stkDbgCtlHalted c then haltUpc s c else 0) (s.reg .stkDbgCtl c)) = y.upc.toNat
  have hup : haltUpc s c = y.upc.toNat := by
    unfold haltUpc
    rw [ha, Option.some_or]
    dsimp only
    rw [hy]
    exact rfl
  rw [Fld.get_put_same _ (by decide), h, if_pos rfl, hup]
  exact Nat.mod_eq_of_lt y.upc.isLt

/-- The state after a STEP, before its response. -/
def stepped (c k : Nat) (x : Slot) (upc : BitVec 15) (v : BitVec 96) (t : State) : State :=
  setSlot c k { slotAtWord t c k x upc v with upc := upc + 1 } (wordBegun t c k x upc v)

theorem stkDbgStep_runs {s : State} {r : Req} {c k : Nat} {w : Word} {x : Slot} {u v : BitVec 96} {upc : BitVec 15} (hc : c < 128) (hs : Steady s)
    (hw : Written s r .stkDbgCtl c w) (hstep : Fld.stkDbgCtlStep.get w = 1) (hh : Fld.stkDbgCtlHalt.get w = 1) (hhalted : s.flag Fld.stkDbgCtlHalted c = true)
    (hfault : s.flag Fld.stkStsFault c = false) (hact : (s.chan c).act = some k) (hx : Tab.find k (s.chan c).slots = some x) (hst : x.st = .ready)
    (hmay : wordMay s c x u = true) (hf : fetchWord s c x.upc u = (upc, v)) (hrate : wordRate s c x v = false) (hres : wordReserved v = false) (hop : mOp v = 0)
    (hlast : NotLast upc) (din : List Byte) (m : Train) :
    ∃ t y, execStkDbgStep r c w u din m s = .next t ∧ Tab.find k (t.chan c).slots = some y ∧ y.upc = upc + 1 ∧ y.last = upc ∧ y.op = x.op ∧
      y.stack = x.stack ∧ y.g = x.g ∧ Fld.stkDbgCtlUpc.get (liveWord t .stkDbgCtl c) = (upc + 1).toNat ∧ (t.chan c).words = (s.chan c).words + 1 ∧
      t.flag Fld.stkDbgCtlHalted c = true ∧ t.resps = okSent s r := by
  have ht : HaltOnly s (haltSet true c s) c := ⟨haltSet_rest true c s, haltSet_chan true c s, haltSet_regs true c s⟩
  have hflag : (haltSet true c s).flag Fld.stkDbgCtlHalted c = true := (haltSet_flag true c s).2.trans hhalted
  have hwrite : haltWrite c w s = haltSet true c s := by
    rw [haltWrite_one hh, ht.chan, hact]
    exact if_neg Bool.false_ne_true
  have hrun := stepWord_runs ht hflag hfault hact hx hst hmay hf hrate hop din m
  have hpins := ht.held hact
  have hpflag : ((haltSet true c s).setChan c { (haltSet true c s).chan c with act := some k }).flag Fld.stkDbgCtlHalted c = true := hflag
  have hpresps : ((haltSet true c s).setChan c { (haltSet true c s).chan c with act := some k }).resps = s.resps := rfl
  generalize (haltSet true c s).setChan c { (haltSet true c s).chan c with act := some k } = p at hrun hpins hpflag hpresps
  have hexec : execStkDbgStep r c w u din m s = .next ((stepped c k x upc v p).respondWrite r .ok) := by
    unfold execStkDbgStep
    rw [decide_eq_true (⟨hc, hstep⟩ : c < 128 ∧ Fld.stkDbgCtlStep.get w = 1), regWrite_pass hw hs, hwrite, hrun,
      runWord_nop ((hpins.fetchWord _ _).trans hf) hres hop hlast]
    exact onlyIf_true _ _
  obtain ⟨hbact, hbwords, hbdbg, hbresps⟩ := wordBegun_dbg (s := p) (c := c) (k := k) hst upc v
  obtain ⟨hzlast, hzop, hzstack, hzg⟩ := slotAtWord_kept p c k x upc v
  have hset := DbgKept.setSlot (c := c) k { slotAtWord p c k x upc v with upc := upc + 1 } (wordBegun p c k x upc v)
  have hfind : Tab.find k ((stepped c k x upc v p).chan c).slots = some { slotAtWord p c k x upc v with upc := upc + 1 } := by
    unfold stepped
    rw [setSlot_chan]
    exact Tab.find_put_same _ _ _
  have hsact : ((stepped c k x upc v p).chan c).act = some k := (hset.act.trans hbact).trans (by rw [hpins.chan]; exact hact)
  have hsflag : (stepped c k x upc v p).flag Fld.stkDbgCtlHalted c = true :=
    (congrArg (fun w => Fld.stkDbgCtlHalted.get w != 0) ((hset.dbg c).trans (hbdbg c))).trans hpflag
  refine ⟨_, { slotAtWord p c k x upc v with upc := upc + 1 }, hexec, ?_, rfl, hzlast, hzop, hzstack, hzg, ?_, ?_, ?_, ?_⟩
  · rw [State.chan_respondWrite]
    exact hfind
  · refine dbgUpc_of_act (y := { slotAtWord p c k x upc v with upc := upc + 1 }) ?_ (k := k) ?_ ?_
    · rw [State.flag_respondWrite]
      exact hsflag
    · rw [State.chan_respondWrite]
      exact hsact
    · rw [State.chan_respondWrite]
      exact hfind
  · rw [State.chan_respondWrite]
    refine (hset.words.trans hbwords).trans ?_
    rw [hpins.chan]
  · rw [State.flag_respondWrite]
    exact hsflag
  · exact respondWrite_resps_of_eq ((hset.resps.trans hbresps).trans hpresps) r

/-- Settles O42. -/
theorem patchAndDebug : Obligations.PatchAndDebug := by
  unfold Obligations.PatchAndDebug
  intro s r c hc
  refine ⟨fun hg => ⟨fun ofs beats hv => patchRamRead_zeros hc hg hv, patchRamWrite_refused hc hg⟩, fun w hs hw =>
    ⟨fun hstep hh => stkDbgHalt_stops hc hs hw hstep hh, fun hstep hh => stkDbgHalt_releases hc hs hw hstep hh,
      fun k x u v upc din m hstep hh hhalted hfault hact hx hst hmay hf hrate hres hop hlast _ =>
        stkDbgStep_runs hc hs hw hstep hh hhalted hfault hact hx hst hmay hf hrate hres hop hlast din m⟩⟩

end Sys2Proof.Machine
end

section
/-! PROOFS. O43: timing sets and KX_REQ of a target. -/
namespace Sys2Proof.Machine

/-- What a write of a field of STK_TGTCFG of a target leaves: other registers, other fields, the responses and the channel's notes of the log but its own. -/
structure CfgStep (f : Fld) (ti : Nat) (s t : State) : Prop where
  part : t.part = s.part
  resps : t.resps = s.resps
  regs : ∀ k i, (k, i) ≠ (RegKind.stkTgtcfg, ti) → k ≠ .glbLogSeq → t.reg k i = s.reg k i
  fields : ∀ g : Fld, g.kind = .stkTgtcfg → g.hi < 32 → (g.hi < f.lo ∨ f.hi < g.lo) → ∀ i, t.get g i = s.get g i

namespace CfgStep
variable {f : Fld} {ti : Nat} {s t : State}

theorem refl (s : State) : CfgStep f ti s s := ⟨rfl, rfl, fun _ _ _ _ => rfl, fun _ _ _ _ _ => rfl⟩

theorem put (hf : f.kind = .stkTgtcfg) (v : Nat) (s : State) : CfgStep f ti s (s.put f v ti) := by
  refine ⟨rfl, rfl, fun k i hk _ => ?_, fun g _ hg hd i => State.get_put_field s hd hg v ti i⟩
  rw [← hf] at hk
  exact otherRegs_put s f v ti k i hk

theorem logPacked (u c : Nat) (o v : List (Nat × Nat)) (s : State) : CfgStep f ti s (s.logPacked u c o v) :=
  ⟨rfl, rfl, fun _ i _ hl => State.reg_logPacked s hl u c o v i, fun g hk _ _ i => State.get_logPacked s (by rw [hk]; decide) u c o v i⟩

theorem other (h : CfgStep f ti s t) {k : RegKind} (hk : k ≠ .stkTgtcfg) (hl : k ≠ .glbLogSeq) (i : Nat) : t.reg k i = s.reg k i :=
  h.regs k i (fun e => hk (Prod.mk.inj e).1) hl

end CfgStep

/-- A field that names a set: written where the set has its mode, else ignored and logged (R130). -/
theorem setFieldWrite_spec {f : Fld} (hk : f.kind = .stkTgtcfg) (h32 : f.hi < 32) (kx : Bool) (c t : Nat) (w : Word) (s : State) :
    CfgStep f (c * 8 + t) s (setFieldWrite f kx c t w s) ∧ (setFieldWrite f kx c t w s).ch = s.ch ∧
      ((s.get Fld.stkTsetW0Mode (c * 16 + f.get w) == 8) = kx →
        (setFieldWrite f kx c t w s).get f (c * 8 + t) = f.get w ∧ (setFieldWrite f kx c t w s).log = s.log) ∧
      ((s.get Fld.stkTsetW0Mode (c * 16 + f.get w) == 8) ≠ kx → (setFieldWrite f kx c t w s).get f (c * 8 + t) = s.get f (c * 8 + t)) := by
  unfold setFieldWrite
  dsimp only
  split
  · next he => exact ⟨CfgStep.refl s, rfl, fun _ => ⟨he.symm, rfl⟩, fun _ => rfl⟩
  · split
    · next hm =>
      rw [beq_iff_eq] at hm
      refine ⟨CfgStep.put hk _ s, rfl, fun _ => ⟨?_, rfl⟩, fun hn => absurd hm hn⟩
      rw [State.get_put_same s f h32, Nat.mod_eq_of_lt (Fld.get_lt f w)]
    · next hm =>
      rw [beq_iff_eq] at hm
      exact ⟨CfgStep.logPacked _ _ _ _ s, rfl, fun h => absurd h hm, fun _ => State.get_logPacked s (by rw [hk]; decide) _ _ _ _ _⟩

/-- KX_REQ as written, but on an IG-7316 (R2, R147). -/
theorem kxReqWrite_spec (c t : Nat) (w : Word) (s : State) : CfgStep Fld.stkTgtcfgKxReq (c * 8 + t) s (kxReqWrite c t w s) ∧
    (s.part ≠ .ig7316 → (kxReqWrite c t w s).get Fld.stkTgtcfgKxReq (c * 8 + t) = Fld.stkTgtcfgKxReq.get w) ∧
    (s.part = .ig7316 → Fld.stkTgtcfgKxReq.get w = 1 → (kxReqWrite c t w s).get Fld.stkTgtcfgKxReq (c * 8 + t) = s.get Fld.stkTgtcfgKxReq (c * 8 + t) ∧
      (300 ∈ (s.chan c).logged → (kxReqWrite c t w s).log = s.log)) := by
  unfold kxReqWrite
  split
  · next h =>
    refine ⟨?_, fun hp => absurd h.2 hp, fun _ _ => ?_⟩
    · unfold logOnce
      dsimp only
      split
      · exact CfgStep.refl s
      · have hlog := CfgStep.logPacked (f := Fld.stkTgtcfgKxReq) (ti := c * 8 + t) uSTK 0x1001 [(1, c), (1, t)] [] (s.setChan c { s.chan c with logged := 300 :: (s.chan c).logged })
        exact ⟨hlog.part, hlog.resps, hlog.regs, hlog.fields⟩
    · unfold logOnce
      dsimp only
      split
      · exact ⟨rfl, fun _ => rfl⟩
      · next hn =>
        rw [List.contains_iff_mem] at hn
        exact ⟨State.get_logPacked (s.setChan c { s.chan c with logged := 300 :: (s.chan c).logged }) (by decide) _ _ _ _ _, fun hm => absurd hm hn⟩
  · next h =>
    refine ⟨CfgStep.put rfl _ s, fun _ => ?_, fun hp hw => absurd ⟨hw, hp⟩ h⟩
    rw [State.get_put_same s Fld.stkTgtcfgKxReq (by decide), Nat.mod_eq_of_lt (Fld.get_lt _ w)]

/-- KX_FALLBK cleared by writing 1. -/
def fallbkClear (ti : Nat) (w : Word) (s : State) : State := if Fld.stkTgtcfgKxFallbk.get w = 1 then s.putFlag Fld.stkTgtcfgKxFallbk false ti else s

theorem fallbkClear_spec (ti : Nat) (w : Word) (s : State) : CfgStep Fld.stkTgtcfgKxFallbk ti s (fallbkClear ti w s) ∧ (fallbkClear ti w s).ch = s.ch ∧
    (fallbkClear ti w s).log = s.log ∧ (Fld.stkTgtcfgKxFallbk.get w = 1 → (fallbkClear ti w s).flag Fld.stkTgtcfgKxFallbk ti = false) := by
  unfold fallbkClear
  split
  · exact ⟨CfgStep.put rfl _ s, rfl, rfl, fun _ => State.flag_putFlag s Fld.stkTgtcfgKxFallbk rfl (by decide) false ti⟩
  · next h => exact ⟨CfgStep.refl s, rfl, rfl, fun he => absurd he h⟩

/-- The state after TSET, and after KX_TSET, of a write of STK_TGTCFG. -/
def tsetWritten (c t : Nat) (w : Word) (s : State) : State := setFieldWrite Fld.stkTgtcfgTset false c t w (fallbkClear (c * 8 + t) w s)
def kxTsetWritten (c t : Nat) (w : Word) (s : State) : State := setFieldWrite Fld.stkTgtcfgKxTset true c t w (tsetWritten c t w s)

theorem tgtcfgWrite_eq (c t : Nat) (w : Word) (s : State) : tgtcfgWrite c t w s = kxReqWrite c t w (kxTsetWritten c t w s) := rfl

/-- What a write of STK_TGTCFG does to its target's register. -/
structure TgtcfgWritten (c t : Nat) (w : Word) (s u : State) : Prop where
  resps : u.resps = s.resps
  req : s.part ≠ .ig7316 → u.get Fld.stkTgtcfgKxReq (c * 8 + t) = Fld.stkTgtcfgKxReq.get w
  refused : s.part = .ig7316 → Fld.stkTgtcfgKxReq.get w = 1 → u.get Fld.stkTgtcfgKxReq (c * 8 + t) = s.get Fld.stkTgtcfgKxReq (c * 8 + t) ∧
    (300 ∈ (s.chan c).logged → s.get Fld.stkTsetW0Mode (c * 16 + Fld.stkTgtcfgKxTset.get w) = 8 →
      ¬s.get Fld.stkTsetW0Mode (c * 16 + Fld.stkTgtcfgTset.get w) = 8 → u.log = s.log)
  fallbk : Fld.stkTgtcfgKxFallbk.get w = 1 → u.flag Fld.stkTgtcfgKxFallbk (c * 8 + t) = false
  tset : ¬s.get Fld.stkTsetW0Mode (c * 16 + Fld.stkTgtcfgTset.get w) = 8 → u.get Fld.stkTgtcfgTset (c * 8 + t) = Fld.stkTgtcfgTset.get w
  tsetKept : s.get Fld.stkTsetW0Mode (c * 16 + Fld.stkTgtcfgTset.get w) = 8 → u.get Fld.stkTgtcfgTset (c * 8 + t) = s.get Fld.stkTgtcfgTset (c * 8 + t)
  kxTset : s.get Fld.stkTsetW0Mode (c * 16 + Fld.stkTgtcfgKxTset.get w) = 8 → u.get Fld.stkTgtcfgKxTset (c * 8 + t) = Fld.stkTgtcfgKxTset.get w
  kxTsetKept : ¬s.get Fld.stkTsetW0Mode (c * 16 + Fld.stkTgtcfgKxTset.get w) = 8 → u.get Fld.stkTgtcfgKxTset (c * 8 + t) = s.get Fld.stkTgtcfgKxTset (c * 8 + t)
  regs : ∀ k i, (k, i) ≠ (RegKind.stkTgtcfg, c * 8 + t) → k ≠ .glbLogSeq → u.reg k i = s.reg k i

theorem tgtcfgWrite_spec (c t : Nat) (w : Word) (s : State) : TgtcfgWritten c t w s (tgtcfgWrite c t w s) := by
  obtain ⟨h1, hch1, hlog1, hfall⟩ := fallbkClear_spec (c * 8 + t) w s
  obtain ⟨h2, hch2, hset2, hkept2⟩ := setFieldWrite_spec (f := Fld.stkTgtcfgTset) rfl (by decide) false c t w (fallbkClear (c * 8 + t) w s)
  obtain ⟨h3, hch3, hset3, hkept3⟩ := setFieldWrite_spec (f := Fld.stkTgtcfgKxTset) rfl (by decide) true c t w (tsetWritten c t w s)
  obtain ⟨h4, hreq, hrefused⟩ := kxReqWrite_spec c t w (kxTsetWritten c t w s)
  have hmode2 (n : Nat) : (fallbkClear (c * 8 + t) w s).get Fld.stkTsetW0Mode n = s.get Fld.stkTsetW0Mode n :=
    congrArg Fld.stkTsetW0Mode.get (h1.other (by decide) (by decide) n)
  have hmode3 (n : Nat) : (tsetWritten c t w s).get Fld.stkTsetW0Mode n = s.get Fld.stkTsetW0Mode n :=
    (congrArg Fld.stkTsetW0Mode.get (h2.other (by decide) (by decide) n)).trans (hmode2 n)
  change CfgStep _ _ _ (tsetWritten c t w s) at h2
  change CfgStep _ _ _ (kxTsetWritten c t w s) at h3
  change (tsetWritten c t w s).ch = _ at hch2
  change (kxTsetWritten c t w s).ch = _ at hch3
  change _ → (tsetWritten c t w s).get _ _ = _ ∧ (tsetWritten c t w s).log = _ at hset2
  change _ → (tsetWritten c t w s).get _ _ = _ at hkept2
  change _ → (kxTsetWritten c t w s).get _ _ = _ ∧ (kxTsetWritten c t w s).log = _ at hset3
  change _ → (kxTsetWritten c t w s).get _ _ = _ at hkept3
  rw [hmode2] at hset2 hkept2
  rw [hmode3] at hset3 hkept3
  have hpart : (kxTsetWritten c t w s).part = s.part := h3.part.trans (h2.part.trans h1.part)
  have hch : (kxTsetWritten c t w s).chan c = s.chan c := by
    unfold State.chan
    rw [hch3, hch2, hch1]
  rw [hpart] at hreq hrefused
  rw [hch] at hrefused
  rw [tgtcfgWrite_eq]
  refine ⟨h4.resps.trans (h3.resps.trans (h2.resps.trans h1.resps)), hreq, fun hp hw => ⟨?_, fun hm hk hn => ?_⟩, fun hf => ?_, fun hn => ?_, fun hy => ?_, fun hy => ?_, fun hn => ?_,
    fun k i hk hl => ?_⟩
  · rw [(hrefused hp hw).1, h3.fields _ rfl (by decide) (by decide), h2.fields _ rfl (by decide) (by decide), h1.fields _ rfl (by decide) (by decide)]
  · rw [(hrefused hp hw).2 hm, (hset3 (beq_iff_eq.mpr hk)).2, (hset2 (beq_eq_false_iff_ne.mpr hn)).2, hlog1]
  · refine Eq.trans (congrArg (· != 0) ?_) (hfall hf)
    rw [h4.fields Fld.stkTgtcfgKxFallbk rfl (by decide) (by decide), h3.fields _ rfl (by decide) (by decide), h2.fields _ rfl (by decide) (by decide)]
  · rw [h4.fields _ rfl (by decide) (by decide), h3.fields _ rfl (by decide) (by decide), (hset2 (beq_eq_false_iff_ne.mpr hn)).1]
  · rw [h4.fields _ rfl (by decide) (by decide), h3.fields _ rfl (by decide) (by decide), hkept2 (by rw [hy]; decide), h1.fields _ rfl (by decide) (by decide)]
  · rw [h4.fields _ rfl (by decide) (by decide), (hset3 (beq_iff_eq.mpr hy)).1]
  · rw [h4.fields _ rfl (by decide) (by decide), hkept3 (by rw [beq_eq_false_iff_ne.mpr hn]; decide), h2.fields _ rfl (by decide) (by decide), h1.fields _ rfl (by decide) (by decide)]
  · exact (h4.regs k i hk hl).trans ((h3.regs k i hk hl).trans ((h2.regs k i hk hl).trans (h1.regs k i hk hl)))

/-- R130, R147: either row of a write of STK_TGTCFG. -/
theorem tgtcfg_written {s : State} {r : Req} {c k : Nat} {w : Word} (hc : c < 128) (hk : k < 8) (hs : Steady s) (hw : Written s r .stkTgtcfg (c * 8 + k) w) :
    ∀ i ∈ [Instr.kxReqWrite r c k w, .tsetWrite r c k w], exec i s = .next ((tgtcfgWrite c k w s).respondWrite r .ok) := by
  have hone : onlyIf (decide (c < 128 ∧ k < 8)) s (regWrite s r .stkTgtcfg (c * 8 + k) w (tgtcfgWrite c k w)) = .next ((tgtcfgWrite c k w s).respondWrite r .ok) := by
    rw [decide_eq_true (⟨hc, hk⟩ : c < 128 ∧ k < 8), regWrite_pass hw hs]
    exact onlyIf_true _ _
  intro i hi
  rcases List.mem_cons.mp hi with rfl | hi
  · exact hone
  · rw [List.mem_singleton.mp hi]
    exact hone

end Sys2Proof.Machine
end

section
/-! PROOFS. O43: DQS tracking. -/
namespace Sys2Proof.Machine

/-- A bit's tally, net and in all, and its offset. -/
def tallyOf (c key : Nat) (s : State) : Int × Nat × Int := Tab.get (0, 0, 0) key (s.chan c).track

/-- The edges of an evaluation tallied. -/
def tallied (c : Nat) (es : List (Nat × Nat × Nat)) (s : State) : State :=
  s.setChan c { s.chan c with
    track := es.foldl addEdges (s.chan c).track
    lastStep := s.now }

/-- The bits evaluated in order. -/
def bitsTracked (c dirs : Nat) (s : State) : State := (List.range dirs).foldl (fun s key => trackBit c key s) s

theorem showOffsets_spec (c : Nat) (s : State) : showOffsets c s = { s with regs := (showOffsets c s).regs } ∧
    ∀ i, (showOffsets c s).reg .stkDskSts i = s.reg .stkDskSts i := by
  refine ⟨rfl, fun i => ?_⟩
  unfold showOffsets
  rw [State.reg_setReg_kind _ (by decide), State.reg_setReg_kind _ (by decide)]

theorem tallied_chan (c : Nat) (es : List (Nat × Nat × Nat)) (s : State) : (tallied c es s).chan c = { s.chan c with
    track := es.foldl addEdges (s.chan c).track
    lastStep := s.now } := State.chan_setChan_same _ _ _

/-! ## One bit's evaluation (R154) -/

theorem trackBit_stands {c key : Nat} {s : State} (h : (tallyOf c key s).2.1 < 256) : trackBit c key s = s := by
  unfold trackBit
  dsimp only
  exact if_pos (.inl h)

/-- The state with the bit's counters cleared and its offset set. -/
def offsetSet (c key : Nat) (d : Int) (s : State) : State := s.setChan c { s.chan c with track := Tab.set (0, 0, 0) key (0, 0, d) (s.chan c).track }

theorem offsetSet_chan (c key : Nat) (d : Int) (s : State) : (offsetSet c key d s).chan c =
    { s.chan c with track := Tab.set (0, 0, 0) key (0, 0, d) (s.chan c).track } := State.chan_setChan_same _ _ _

theorem tallyOf_offsetSet (c key : Nat) (d : Int) (s : State) : tallyOf c key (offsetSet c key d s) = (0, 0, d) ∧
    ∀ k, k ≠ key → tallyOf c k (offsetSet c key d s) = tallyOf c k s := by
  unfold tallyOf
  rw [offsetSet_chan]
  exact ⟨Tab.get_set_same _ _ _ _, fun k hk => Tab.get_set_ne hk _ _ _ _⟩

/-- Few early or late edges: the counters start anew. -/
theorem trackBit_still {c key : Nat} {s : State} (h : 256 ≤ (tallyOf c key s).2.1) (hw : walking s c key = false) (hn : (tallyOf c key s).1.natAbs < 64) :
    trackBit c key s = offsetSet c key (tallyOf c key s).2.2 s := by
  have h1 : ¬ 64 ≤ (tallyOf c key s).1 := by omega
  have h2 : ¬ (tallyOf c key s).1 ≤ -64 := by omega
  unfold trackBit offsetSet
  unfold tallyOf at *
  dsimp only
  rw [if_neg (not_or.mpr ⟨by omega, by rw [hw]; exact Bool.false_ne_true⟩), if_neg h1, if_neg h2, if_pos rfl, add_zero, ite_self]

/-- Many early edges: one step. -/
theorem trackBit_steps {c key : Nat} {s : State} (h : 256 ≤ (tallyOf c key s).2.1) (hw : walking s c key = false) (h1 : 64 ≤ (tallyOf c key s).1)
    (hlo : -8 ≤ (tallyOf c key s).2.2) (hhi : (tallyOf c key s).2.2 < 7) :
    trackBit c key s = (offsetSet c key ((tallyOf c key s).2.2 + 1) s).inc Fld.stkDskStsSteps c := by
  unfold trackBit offsetSet
  unfold tallyOf at *
  dsimp only
  rw [if_neg (not_or.mpr ⟨by omega, by rw [hw]; exact Bool.false_ne_true⟩), if_pos h1, decide_eq_true (by omega)]
  exact rfl

/-- Many early edges at the limit: reported, and a sweep queued. -/
theorem trackBit_limit {c key : Nat} {s : State} (h : 256 ≤ (tallyOf c key s).2.1) (hw : walking s c key = false) (h1 : 64 ≤ (tallyOf c key s).1)
    (h7 : (tallyOf c key s).2.2 = 7) (hk : key < 8) : trackBit c key s =
      queueSweep (onlineTargets ((offsetSet c key 7 s).setBit .stkDskSts c (24 + key)) c) ((offsetSet c key 7 s).setBit .stkDskSts c (24 + key)) := by
  have hmod : key % 8 = key := Nat.mod_eq_of_lt hk
  unfold trackBit offsetSet
  unfold tallyOf at *
  dsimp only
  rw [if_neg (not_or.mpr ⟨by omega, by rw [hw]; exact Bool.false_ne_true⟩), if_pos h1, h7, hmod, if_pos hk, decide_eq_false (by decide)]
  exact rfl

/-! ## The bits of an evaluation -/

theorem foldl_stands {f : State → Nat → State} {s : State} : ∀ {l : List Nat}, (∀ k ∈ l, f s k = s) → l.foldl f s = s
  | [], _ => rfl
  | a :: l, h => by
    rw [List.foldl_cons, h a List.mem_cons_self]
    exact foldl_stands fun k hk => h k (List.mem_cons_of_mem _ hk)

/-- Of the numbers of a list one alone changes the state, and what it leaves the others leave. -/
theorem foldl_once {f : State → Nat → State} {s : State} {key : Nat} (h : ∀ k, k ≠ key → f s k = s) (h' : ∀ k, k ≠ key → f (f s key) k = f s key) :
    ∀ {l : List Nat}, l.Nodup → key ∈ l → l.foldl f s = f s key
  | a :: l, hn, hm => by
    obtain ⟨hal, hl⟩ := List.nodup_cons.mp hn
    rw [List.foldl_cons]
    by_cases ha : a = key
    · subst ha
      exact foldl_stands fun k hk => h' k fun e => hal (e ▸ hk)
    · rw [h a ha]
      exact foldl_once h h' hl ((List.mem_cons.mp hm).resolve_left fun e => ha e.symm)

theorem bitsTracked_stands {c dirs : Nat} {s : State} (h : ∀ k, (tallyOf c k s).2.1 < 256) : bitsTracked c dirs s = s :=
  foldl_stands fun k _ => trackBit_stands (h k)

theorem bitsTracked_one {c dirs key : Nat} {s : State} (hk : key < dirs) (h : ∀ k, k ≠ key → (tallyOf c k s).2.1 < 256)
    (hset : ∀ k, k ≠ key → tallyOf c k (trackBit c key s) = tallyOf c k s) : bitsTracked c dirs s = trackBit c key s :=
  foldl_once (fun k hne => trackBit_stands (h k hne)) (fun k hne => trackBit_stands (by rw [hset k hne]; exact h k hne)) List.nodup_range (List.mem_range.mpr hk)

/-! ## A sweep queued (R557) -/

/-- A target is in its channel's queue. -/
def Queued (ti : Nat) (s : State) : Prop := ∃ n, (ti % 8, n) ∈ Tab.get [] (ti / 8) s.cal.queue

theorem queueRun_spec (n ti : Nat) (s : State) : queueRun n ti s = { s with cal := (queueRun n ti s).cal } ∧ (∀ x, Queued x s → Queued x (queueRun n ti s)) ∧
    (s.flag Fld.stkTgtcfgOnline ti = true → Queued ti (queueRun n ti s)) := by
  unfold queueRun
  dsimp only
  split
  · next h =>
    refine ⟨rfl, fun _ hx => hx, fun ho => ?_⟩
    rw [ho, Bool.not_true, Bool.or_false, List.any_eq_true] at h
    obtain ⟨e, he, heq⟩ := h
    rw [beq_iff_eq] at heq
    exact ⟨e.2, heq ▸ he⟩
  · refine ⟨rfl, fun x hx => ?_, fun _ => ⟨n, ?_⟩⟩
    · obtain ⟨m, hm⟩ := hx
      refine ⟨m, ?_⟩
      by_cases hc : x / 8 = ti / 8
      · rw [hc] at hm ⊢
        rw [Tab.get_set_same]
        exact List.mem_append_left _ hm
      · rw [Tab.get_set_ne hc]
        exact hm
    · rw [Tab.get_set_same]
      exact List.mem_append_right _ (List.mem_singleton.mpr rfl)

theorem queueRuns_spec (n : Nat) : ∀ (l : List Nat) (s : State), l.foldl (fun s ti => queueRun n ti s) s = { s with cal := (l.foldl (fun s ti => queueRun n ti s) s).cal } ∧
    (∀ x, Queued x s → Queued x (l.foldl (fun s ti => queueRun n ti s) s)) ∧
    ∀ x ∈ l, s.flag Fld.stkTgtcfgOnline x = true → Queued x (l.foldl (fun s ti => queueRun n ti s) s)
  | [], s => ⟨rfl, fun _ hx => hx, fun _ hx => absurd hx List.not_mem_nil⟩
  | a :: l, s => by
    obtain ⟨hr, hk, hq⟩ := queueRun_spec n a s
    obtain ⟨hrl, hkl, hql⟩ := queueRuns_spec n l (queueRun n a s)
    have hflag (x : Nat) : (queueRun n a s).flag Fld.stkTgtcfgOnline x = s.flag Fld.stkTgtcfgOnline x := by
      rw [hr]
      exact rfl
    rw [List.foldl_cons]
    refine ⟨?_, fun x hx => hkl x (hk x hx), fun x hx ho => ?_⟩
    · rw [hrl, hr]
    · rcases List.mem_cons.mp hx with rfl | hm
      · exact hkl x (hq ho)
      · exact hql x hm ((hflag x).trans ho)

/-- A sweep queues the targets that are online. -/
theorem queueSweep_spec (l : List Nat) (s : State) : queueSweep l s = { s with cal := (queueSweep l s).cal } ∧
    ∀ x ∈ l, s.flag Fld.stkTgtcfgOnline x = true → Queued x (queueSweep l s) := by
  obtain ⟨hr, _, hq⟩ := queueRuns_spec s.cal.next l { s with cal := { s.cal with next := s.cal.next + 1 } }
  exact ⟨hr, hq⟩

theorem mem_onlineTargets {s : State} {c ti : Nat} (h : ti ∈ onlineTargets s c) : ti / 8 = c ∧ s.flag Fld.stkTgtcfgOnline ti = true := by
  obtain ⟨hm, ho⟩ := List.mem_filter.mp h
  obtain ⟨t, ht, rfl⟩ := List.mem_map.mp hm
  rw [List.mem_range] at ht
  exact ⟨by omega, ho⟩

/-! ## An evaluation (R154, R155) -/

section
variable {s : State} {c key : Nat}

/-- The directions that an evaluation runs through. -/
def trackDirs (s : State) (c : Nat) : Nat := if s.get Fld.stkChmodeCurMode c = 8 then 16 else 8

theorem lt_trackDirs (hk : key < 8) : key < trackDirs s c := by
  unfold trackDirs
  split <;> omega

/-- The edges that an evaluation takes. -/
def edgesTaken (s : State) (c : Nat) (edges : List (Nat × Nat × Nat × Bool)) : List (Nat × Nat × Nat) :=
  (edges.filter fun e => decide (e.1 < 8) && !walking s c e.1 && e.2.2.2).map fun e => (e.1, e.2.1, e.2.2.1)

theorem execTrackingEval_runs (hon : s.coreOn = true) (hc : c < 128) (hen : s.flag Fld.stkChmodeTrackEn c = true) (hm : s.get Fld.stkChmodeCurMode c ≠ 0)
    (hr : 400 ≤ s.get Fld.stkChmodeCurRate c) (ha : (s.chan c).act = none) (hl : rateLocked s c = false) (ht : (s.chan c).lastStep + 1000 ≤ s.now)
    (edges : List (Nat × Nat × Nat × Bool)) :
    execTrackingEval c edges s = .next (showOffsets c (bitsTracked c (trackDirs s c) (tallied c (edgesTaken s c edges) s))) := by
  have hcond : (s.coreOn && decide (c < 128) && s.flag Fld.stkChmodeTrackEn c && decide (s.get Fld.stkChmodeCurMode c ≠ 0 ∧ 400 ≤ s.get Fld.stkChmodeCurRate c)
      && (s.chan c).act.isNone && !rateLocked s c && decide ((s.chan c).lastStep + 1000 ≤ s.now)) = true := by
    rw [hon, decide_eq_true hc, hen, decide_eq_true ⟨hm, hr⟩, ha, hl, decide_eq_true ht]
    exact rfl
  unfold execTrackingEval
  dsimp only
  rw [hcond]
  exact onlyIf_true _ _

theorem tallyOf_showOffsets (s : State) : tallyOf c key (showOffsets c s) = tallyOf c key s := rfl

theorem tallied_other {a b k : Nat} (hk : k ≠ key) : tallyOf c k (tallied c [(key, a, b)] s) = tallyOf c k s := by
  unfold tallyOf
  rw [tallied_chan]
  show Tab.get (0, 0, 0) k (addEdges (s.chan c).track (key, a, b)) = _
  unfold addEdges
  exact Tab.get_set_ne hk _ _ _ _

theorem tallied_same {a b : Nat} (h : (tallyOf c key s).2.1 + a + b < 256) :
    tallyOf c key (tallied c [(key, a, b)] s) = (Int.bmod ((tallyOf c key s).1 + a - b) 65536, (tallyOf c key s).2.1 + a + b, (tallyOf c key s).2.2) := by
  have hmod : ((tallyOf c key s).2.1 + a + b) % 65536 = (tallyOf c key s).2.1 + a + b := Nat.mod_eq_of_lt (by omega)
  unfold tallyOf at *
  rw [tallied_chan]
  refine (Tab.get_set_same _ _ _ _).trans ?_
  dsimp only
  rw [hmod]

theorem tallied_nil (k : Nat) : tallyOf c k (tallied c [] s) = tallyOf c k s := by
  unfold tallyOf
  rw [tallied_chan]
  exact rfl

/-- R154: the edges of a frame that passed are tallied, those of another are not. -/
theorem trackingEval_tallies (hon : s.coreOn = true) (hc : c < 128) (hen : s.flag Fld.stkChmodeTrackEn c = true) (hm : s.get Fld.stkChmodeCurMode c ≠ 0)
    (hr : 400 ≤ s.get Fld.stkChmodeCurRate c) (ha : (s.chan c).act = none) (hl : rateLocked s c = false) (ht : (s.chan c).lastStep + 1000 ≤ s.now)
    (hk : key < 8) (hw : walking s c key = false) (hothers : ∀ k, k ≠ key → (tallyOf c k s).2.1 < 256) {a b : Nat} (hsum : (tallyOf c key s).2.1 + a + b < 256) :
    (∃ t, execTrackingEval c [(key, a, b, true)] s = .next t ∧ (t.chan c).lastStep = s.now ∧
      tallyOf c key t = (Int.bmod ((tallyOf c key s).1 + a - b) 65536, (tallyOf c key s).2.1 + a + b, (tallyOf c key s).2.2)) ∧
    ∃ t, execTrackingEval c [(key, a, b, false)] s = .next t ∧ (t.chan c).lastStep = s.now ∧ tallyOf c key t = tallyOf c key s := by
  have hgood : edgesTaken s c [(key, a, b, true)] = [(key, a, b)] := by
    unfold edgesTaken
    rw [List.filter_cons_of_pos (by rw [hw, decide_eq_true hk]; rfl)]
    exact rfl
  have hbad : edgesTaken s c [(key, a, b, false)] = [] := by
    unfold edgesTaken
    rw [List.filter_cons_of_neg (by rw [Bool.and_false]; exact Bool.false_ne_true)]
    exact rfl
  refine ⟨⟨_, execTrackingEval_runs hon hc hen hm hr ha hl ht _, ?_⟩, ⟨_, execTrackingEval_runs hon hc hen hm hr ha hl ht _, ?_⟩⟩
  · rw [hgood, bitsTracked_stands]
    · exact ⟨congrArg Chan.lastStep (tallied_chan c [(key, a, b)] s), (tallyOf_showOffsets _).trans (tallied_same hsum)⟩
    · intro k
      by_cases hkk : k = key
      · rw [hkk, tallied_same hsum]
        exact hsum
      · rw [tallied_other hkk]
        exact hothers k hkk
  · rw [hbad, bitsTracked_stands]
    · exact ⟨congrArg Chan.lastStep (tallied_chan c [] s), (tallyOf_showOffsets _).trans (tallied_nil key)⟩
    · intro k
      rw [tallied_nil]
      by_cases hkk : k = key
      · rw [hkk]
        omega
      · exact hothers k hkk

/-- R154, R155: a bit with 256 edges is evaluated. -/
theorem trackingEval_evaluates (hon : s.coreOn = true) (hc : c < 128) (hen : s.flag Fld.stkChmodeTrackEn c = true) (hm : s.get Fld.stkChmodeCurMode c ≠ 0)
    (hr : 400 ≤ s.get Fld.stkChmodeCurRate c) (ha : (s.chan c).act = none) (hl : rateLocked s c = false) (ht : (s.chan c).lastStep + 1000 ≤ s.now)
    (hk : key < 8) (hw : walking s c key = false) (hothers : ∀ k, k ≠ key → (tallyOf c k s).2.1 < 256) (hfull : 256 ≤ (tallyOf c key s).2.1) :
    ∃ t, execTrackingEval c [] s = .next t ∧ ((tallyOf c key s).1.natAbs < 64 → tallyOf c key t = (0, 0, (tallyOf c key s).2.2)) ∧
      (64 ≤ (tallyOf c key s).1 → -8 ≤ (tallyOf c key s).2.2 → (tallyOf c key s).2.2 < 7 → tallyOf c key t = (0, 0, (tallyOf c key s).2.2 + 1) ∧
        t.get Fld.stkDskStsSteps c = min Fld.stkDskStsSteps.max (s.get Fld.stkDskStsSteps c + 1)) ∧
      (64 ≤ (tallyOf c key s).1 → (tallyOf c key s).2.2 = 7 → tallyOf c key t = (0, 0, 7) ∧ t.bit .stkDskSts c (24 + key) = true ∧
        ∀ ti ∈ onlineTargets s c, ∃ n, (ti % 8, n) ∈ Tab.get [] c t.cal.queue) := by
  have hexec := execTrackingEval_runs hon hc hen hm hr ha hl ht []
  have htake : edgesTaken s c [] = [] := rfl
  rw [htake] at hexec
  have hsame := tallied_nil (s := s) (c := c)
  have hwalk : walking (tallied c [] s) c key = false := hw
  have hregs : (tallied c [] s).regs = s.regs := rfl
  generalize tallied c [] s = u at hexec hsame hwalk hregs
  rw [← hsame key] at hfull ⊢
  have hothers' : ∀ k, k ≠ key → (tallyOf c k u).2.1 < 256 := fun k hkk => by
    rw [hsame]
    exact hothers k hkk
  have hdirs : key < trackDirs s c := lt_trackDirs hk
  obtain ⟨_, hsts⟩ := showOffsets_spec c (bitsTracked c (trackDirs s c) u)
  refine ⟨_, hexec, fun hn => ?_, fun h1 hlo hhi => ?_, fun h1 h7 => ?_⟩
  · have hbit := trackBit_still hfull hwalk hn
    obtain ⟨hset, hne⟩ := tallyOf_offsetSet c key (tallyOf c key u).2.2 u
    rw [tallyOf_showOffsets, bitsTracked_one hdirs hothers' (by rw [hbit]; exact hne), hbit, hset]
  · have hbit := trackBit_steps hfull hwalk h1 hlo hhi
    obtain ⟨hset, hne⟩ := tallyOf_offsetSet c key ((tallyOf c key u).2.2 + 1) u
    have hone := bitsTracked_one hdirs hothers' (by rw [hbit]; exact hne)
    refine ⟨?_, ?_⟩
    · rw [tallyOf_showOffsets, hone, hbit]
      exact hset
    · refine (congrArg Fld.stkDskStsSteps.get (hsts c)).trans ?_
      rw [hone, hbit]
      refine (State.get_inc_same _ Fld.stkDskStsSteps (by decide) c 1).trans ?_
      exact congrArg (fun x => min Fld.stkDskStsSteps.max (x + 1)) (State.get_of_regs (s := s) (t := offsetSet c key ((tallyOf c key u).2.2 + 1) u) hregs _ _)
  · have hbit := trackBit_limit hfull hwalk h1 h7 hk
    obtain ⟨hset, hne⟩ := tallyOf_offsetSet c key 7 u
    obtain ⟨hrest, hq⟩ := queueSweep_spec (onlineTargets ((offsetSet c key 7 u).setBit .stkDskSts c (24 + key)) c) ((offsetSet c key 7 u).setBit .stkDskSts c (24 + key))
    rw [← hbit] at hrest hq
    have hchan (k : Nat) : tallyOf c k (trackBit c key u) = tallyOf c k (offsetSet c key 7 u) := by
      rw [hrest]
      exact rfl
    have hone := bitsTracked_one hdirs hothers' fun k hkk => (hchan k).trans (hne k hkk)
    have hflag (ti : Nat) : ((offsetSet c key 7 u).setBit .stkDskSts c (24 + key)).flag Fld.stkTgtcfgOnline ti = s.flag Fld.stkTgtcfgOnline ti := by
      have hreg : ((offsetSet c key 7 u).setBit .stkDskSts c (24 + key)).reg .stkTgtcfg ti = u.reg .stkTgtcfg ti := by
        rw [State.setBit_eq_setReg, State.reg_setReg_kind _ (by decide)]
        exact rfl
      exact congrArg (fun w => Fld.stkTgtcfgOnline.get w != 0) (hreg.trans (State.reg_of_regs hregs _ _))
    refine ⟨?_, ?_, fun ti hti => ?_⟩
    · rw [tallyOf_showOffsets, hone]
      exact (hchan key).trans hset
    · refine (congrArg (BitVec.getLsbD · (24 + key)) (hsts c)).trans ?_
      rw [hone, hrest]
      show ((offsetSet c key 7 u).setBit .stkDskSts c (24 + key)).bit .stkDskSts c (24 + key) = true
      rw [State.bit_setBit _ _ _ _ _ _ _ (by omega), decide_eq_true rfl, Bool.true_or]
    · obtain ⟨hdiv, ho⟩ := mem_onlineTargets hti
      have hmem : ti ∈ onlineTargets ((offsetSet c key 7 u).setBit .stkDskSts c (24 + key)) c := by
        unfold onlineTargets at hti ⊢
        simp only [hflag]
        exact hti
      obtain ⟨n, hn⟩ := hq ti hmem ((hflag ti).trans ho)
      rw [hdiv] at hn
      refine ⟨n, ?_⟩
      show (ti % 8, n) ∈ Tab.get [] c (bitsTracked c (trackDirs s c) u).cal.queue
      rw [hone]
      exact hn

end

end Sys2Proof.Machine
end

section
/-! PROOFS. O43: what the steps of KX-DDR entry put on the bus, and what they leave. -/
namespace Sys2Proof.Machine

/-! ## Bus cycles -/

/-- A channel of which only the bus moves, with the pins, the selection and what the log notes of it. -/
structure LineStep (c : Nat) (l : List BusCyc) (s t : State) : Prop where
  bus : (t.chan c).bus = (s.chan c).bus ++ l
  rb : (t.chan c).rb = (s.chan c).rb
  caSlow : (t.chan c).caSlow = (s.chan c).caSlow
  adv : (t.chan c).adv = (s.chan c).adv
  tgts : t.cal.tgts = s.cal.tgts
  img : t.img = s.img
  ceil : t.get Fld.stkChmodeCeil c = s.get Fld.stkChmodeCeil c
  regs : ∀ k i, (k, i) ≠ (RegKind.stkChmode, c) → k ≠ .glbLogSeq → t.reg k i = s.reg k i

namespace LineStep
variable {c : Nat} {l m : List BusCyc} {s t u : State}

theorem refl (s : State) : LineStep c [] s s := ⟨(List.append_nil _).symm, rfl, rfl, rfl, rfl, rfl, rfl, fun _ _ _ _ => rfl⟩

theorem trans (h : LineStep c l s t) (g : LineStep c m t u) : LineStep c (l ++ m) s u := by
  refine ⟨?_, g.rb.trans h.rb, g.caSlow.trans h.caSlow, g.adv.trans h.adv, g.tgts.trans h.tgts, g.img.trans h.img, g.ceil.trans h.ceil,
    fun k i hk hl => (g.regs k i hk hl).trans (h.regs k i hk hl)⟩
  rw [g.bus, h.bus, List.append_assoc]

/-- A step with nothing on the bus. -/
theorem quiet (h : LineStep c l s t) (g : LineStep c [] t u) : LineStep c l s u := by
  have hg := h.trans g
  rw [List.append_nil] at hg
  exact hg

theorem setChan {y : Chan} (hb : y.bus = (s.chan c).bus ++ l) (hr : y.rb = (s.chan c).rb) (hc : y.caSlow = (s.chan c).caSlow) (ha : y.adv = (s.chan c).adv) :
    LineStep c l s (s.setChan c y) := by
  refine ⟨?_, ?_, ?_, ?_, rfl, rfl, rfl, fun _ _ _ _ => rfl⟩
  · rw [State.chan_setChan_same, hb]
  · rw [State.chan_setChan_same, hr]
  · rw [State.chan_setChan_same, hc]
  · rw [State.chan_setChan_same, ha]

theorem raiseCe (s : State) : LineStep c [] s (raiseCe c s) := setChan (List.append_nil _).symm rfl rfl rfl

theorem busPut (b : BusCyc) (s : State) (odt : Nat) : LineStep c [b] s (busPut c b s odt) := setChan rfl rfl rfl rfl

theorem put {f : Fld} (hk : f.kind = .stkChmode) (hf : f.hi < Fld.stkChmodeCeil.lo) (v : Nat) (s : State) : LineStep c [] s (s.put f v c) := by
  refine ⟨(List.append_nil _).symm, rfl, rfl, rfl, rfl, rfl, State.get_put_field s (.inr hf) (by decide) v c c, fun k i h _ => ?_⟩
  rw [← hk] at h
  exact otherRegs_put s f v c k i h

theorem logPacked (unit code : Nat) (o v : List (Nat × Nat)) (s : State) : LineStep c [] s (s.logPacked unit code o v) :=
  ⟨(List.append_nil _).symm, rfl, rfl, rfl, rfl, rfl, State.get_logPacked s (by decide) unit code o v c, fun _ i _ hl => State.reg_logPacked s hl unit code o v i⟩

theorem logOnce (n key : Nat) (s : State) : LineStep c [] s (logOnce c n key s) := by
  have hset : LineStep c [] s (s.setChan c { s.chan c with logged := key :: (s.chan c).logged }) := setChan (List.append_nil _).symm rfl rfl rfl
  unfold Machine.logOnce
  dsimp only
  split
  · exact refl s
  · exact hset.quiet (logPacked _ _ _ _ _)

/-- A change of rate puts at most itself on the bus (R122, R128). -/
theorem setRate (rate : Nat) (s : State) : ∃ l, LineStep c l s (setRate c rate s) ∧ ∀ b ∈ l, b = .rate rate := by
  unfold Machine.setRate
  split
  · exact ⟨[], refl s, fun b hb => absurd hb List.not_mem_nil⟩
  · exact ⟨[.rate rate], ((raiseCe s).trans (busPut (.rate rate) _ 0)).quiet (put rfl (by decide) _ _), fun b hb => List.mem_singleton.mp hb⟩

/-- So does a selection. -/
theorem selectMask (n mask : Nat) (s : State) : ∃ l rate, LineStep c l s (selectMask c n mask s) ∧ ∀ b ∈ l, b = .rate rate := by
  have hpins (y : State) (p : FlPins) : LineStep c [] y (y.setChan c { y.chan c with pins := p }) := setChan (List.append_nil _).symm rfl rfl rfl
  have hlatch (y : State) (a : Option (Nat × List Word)) (h : Nat) (p : FlPins) : LineStep c [] y (y.setChan c { y.chan c with
      latch := a
      holdTill := h
      pins := p }) := setChan (List.append_nil _).symm rfl rfl rfl
  have hlog (l : List Nat) (s : State) : LineStep c [] s (l.foldl (fun s key => Machine.logOnce c n key s) s) :=
    List.foldlRecOn l _ (refl s) fun t ht key _ => ht.quiet (logOnce n key t)
  unfold Machine.selectMask
  dsimp only
  split
  · exact ⟨[], 0, hpins s _, fun b hb => absurd hb List.not_mem_nil⟩
  · obtain ⟨l, hl, hrate⟩ := setRate (c := c) (applied s c n).rate s
    exact ⟨l, (applied s c n).rate, ((hl.quiet (put (f := Fld.stkChmodeCurMode) rfl (by decide) _ _)).quiet (hlog _ _)).quiet (hlatch _ _ _ _), hrate⟩

theorem featCycles (t fa : Nat) (ps : List Nat) (s : State) :
    LineStep c [.cmd (tMask t) 0xEF, .addr (tMask t) (BitVec.ofNat 8 fa), .dataIn (tMask t) (ps.map (BitVec.ofNat 8))] s (featCycles c t fa ps s) :=
  ((busPut _ s 0).trans (busPut _ _ 0)).trans (busPut _ _ 0)

theorem kxPut (t : Nat) (b : Byte) (xlen : Nat) (s : State) : LineStep c [.ca (tMask t) (kxCmd b xlen)] s (kxPut c t b xlen s) := busPut _ s 0

theorem kxSet (t adr v : Nat) (s : State) :
    LineStep c [.ca (tMask t) (caFrame [(0xE5, true), (BitVec.ofNat 8 adr, false), (BitVec.ofNat 8 v, false)] 0)] s (kxSet c t adr v s) := busPut _ s 0

/-- A sweep on the bus is no frame asked for. -/
theorem sweepPut (t mode dir : Nat) (s : State) : ∃ cmds n, LineStep c [.sweep (tMask t) cmds 129 n] s (sweepPut c t mode dir s) :=
  ⟨_, _, busPut _ s 0⟩

theorem kxEcho (t : Nat) (s : State) (i : Nat) : ∃ bs, LineStep c [.ca (tMask t) bs, .frameOut (tMask t) 10] s (kxEcho c t s i) := by
  have hfresh : LineStep c [] s (s.fresh).2 := ⟨(List.append_nil _).symm, rfl, rfl, rfl, rfl, rfl, rfl, fun _ _ _ _ => rfl⟩
  exact ⟨_, (hfresh.trans (busPut _ _ 0)).trans (busPut _ _ 0)⟩

/-- As many frames are asked for as echoes are sent. -/
theorem kxEchoes (t : Nat) : ∀ (js : List Nat) (s : State), ∃ l, LineStep c l s (js.foldl (Machine.kxEcho c t) s) ∧
    (l.filter fun b => b == .frameOut (2 ^ t) 10).length = js.length
  | [], s => ⟨[], refl s, rfl⟩
  | j :: js, s => by
    obtain ⟨bs, hb⟩ := kxEcho (c := c) t s j
    obtain ⟨l, hl, hn⟩ := kxEchoes t js (Machine.kxEcho c t s j)
    refine ⟨_, hb.trans hl, ?_⟩
    rw [List.filter_append, List.length_append, hn, List.length_cons]
    have hone : ([BusCyc.ca (tMask t) bs, .frameOut (tMask t) 10].filter fun b => b == .frameOut (2 ^ t) 10) = [.frameOut (2 ^ t) 10] := by
      rw [List.filter_cons_of_neg (by rw [beq_iff_eq]; exact fun h => BusCyc.noConfusion h)]
      exact List.filter_cons_of_pos (beq_self_eq_true (BusCyc.frameOut (2 ^ t) 10))
    rw [hone]
    exact Nat.add_comm _ _

end LineStep

/-- The mode that a selection leaves in CUR_MODE, of a channel without a latched target. -/
theorem selectTarget_mode {c t : Nat} {s : State} (h : (s.chan c).latch = none) (hm : (applied s c t).mode < 16) :
    (selectTarget c t s).get Fld.stkChmodeCurMode c = (applied s c t).mode := by
  have hlog (l : List Nat) (s : State) : (l.foldl (fun s key => logOnce c t key s) s).get Fld.stkChmodeCurMode c = s.get Fld.stkChmodeCurMode c :=
    List.foldlRecOn l _ (motive := fun u : State => u.get Fld.stkChmodeCurMode c = s.get Fld.stkChmodeCurMode c) rfl fun u hu key _ => by
      refine Eq.trans ?_ hu
      unfold logOnce
      dsimp only
      split
      · exact rfl
      · exact State.get_logPacked (u.setChan c { u.chan c with logged := key :: (u.chan c).logged }) (by decide) _ _ _ _ _
  unfold selectTarget selectMask
  dsimp only
  rw [h, if_neg fun e => absurd e.symm (Option.some_ne_none t)]
  refine (hlog _ _).trans ?_
  rw [State.get_put_same _ _ (by decide)]
  exact Nat.mod_eq_of_lt hm

end Sys2Proof.Machine
end

section
/-! PROOFS. O43: entry into KX-DDR, its failure, and exit. -/
namespace Sys2Proof.Machine

/-! ## An attempt at entry (R146) -/

/-- SET FEATURES sent; then the target in KX-DDR, its eyes swept. -/
def kxOpened (c t rate : Nat) (s : State) : State := raiseCe c (kxSetFeatures c t rate (selectTarget c t s))
def caSlowSet (c : Nat) (v : BitVec 8) (s : State) : State := s.setChan c { s.chan c with caSlow := v }
def kxSelected (c t : Nat) (s : State) : State := selectTarget c t (s.putFlag Fld.stkTgtcfgKx true (c * 8 + t))
def kxSwept (c t : Nat) (s : State) : State :=
  sweepPut c t 8 1 (sweepPut c t 8 0 (caSlowSet c (((kxSelected c t s).chan c).caSlow ||| (1#8 <<< t)) (kxSelected c t s)))

/-- CA_SLOW cleared, the echoes sent, the tally asked for. -/
def kxFast (c t : Nat) (s : State) : State := caSlowSet c (((kxSet c t 0 0 s).chan c).caSlow &&& ~~~(1#8 <<< t)) (kxSet c t 0 0 s)
def kxEchoed (c t : Nat) (s : State) : State := (List.range 16).foldl (kxEcho c t) (kxFast c t s)
def kxAsked (c t : Nat) (s : State) : State := raiseCe c (busPut c (.frameOut (tMask t) 8) (kxPut c t 0x7C 7 (kxEchoed c t s)))

theorem kxTry_passes {c t rate : Nat} {m : Train} {s : State} {rd wr : List Int} (hb : m.busyOk = true) (he : m.echoOk = true)
    (hrd : newCentres 8 rate 0 m.rd = some rd) (hwr : newCentres 8 rate 0 m.wr = some wr) :
    kxTry c t rate 0 0 m s = (true, storeTrain (c * 8 + t) rd wr 0 0 (kxAsked c t (kxSwept c t (kxOpened c t rate s)))) := by
  unfold kxTry
  rw [hb, hrd, hwr, he]
  exact rfl

theorem kxTry_fails {c t rate : Nat} {m : Train} {s : State} (hb : m.busyOk = true) (hrd : newCentres 8 rate 0 m.rd = none) :
    kxTry c t rate 0 0 m s = (false, raiseCe c (kxSwept c t (kxOpened c t rate s))) := by
  unfold kxTry
  rw [hb, hrd]
  exact rfl

/-- The bytes that SET FEATURES gives a die. -/
def kxFeatures (c t rate : Nat) (s : State) : List Byte :=
  [if rate = 7200 then 3 else if rate = 6400 then 2 else 1, s.get Fld.stkTsetW1OdtDie (c * 16 + s.get Fld.stkTgtcfgKxTset (c * 8 + t)),
    s.get Fld.stkTsetW1DrvDie (c * 16 + s.get Fld.stkTgtcfgKxTset (c * 8 + t)), 0x4B].map (BitVec.ofNat 8)

theorem kxOpened_step (c t rate : Nat) (s : State) : ∃ pre d, LineStep c (pre ++ [.cmd (2 ^ t) 0xEF, .addr (2 ^ t) 0xB7, .dataIn (2 ^ t) d]) s (kxOpened c t rate s) ∧
    d.length = 4 ∧ ((kxOpened c t rate s).chan c).latch = none := by
  obtain ⟨pre, _, hpre, _⟩ := LineStep.selectMask (c := c) t (2 ^ t) s
  have hlatch (u : State) : ((raiseCe c u).chan c).latch = none := by
    rw [raiseCe, State.chan_setChan_same]
  exact ⟨pre, kxFeatures c t rate (selectTarget c t s), (hpre.trans (LineStep.featCycles (c := c) t 0xB7 _ _)).quiet (LineStep.raiseCe _), rfl, hlatch _⟩

theorem caSlowSet_step (c : Nat) (v : BitVec 8) (s : State) : ((caSlowSet c v s).chan c).bus = (s.chan c).bus ∧ ((caSlowSet c v s).chan c).rb = (s.chan c).rb ∧
    ((caSlowSet c v s).chan c).adv = (s.chan c).adv ∧ ((caSlowSet c v s).chan c).caSlow = v := by
  have hchan : (caSlowSet c v s).chan c = { s.chan c with caSlow := v } := State.chan_setChan_same _ _ _
  exact ⟨by rw [hchan], by rw [hchan], by rw [hchan], by rw [hchan]⟩

/-- A step that may change CA_SLOW. -/
structure SlowStep (c : Nat) (l : List BusCyc) (s t : State) : Prop where
  bus : (t.chan c).bus = (s.chan c).bus ++ l
  rb : (t.chan c).rb = (s.chan c).rb
  adv : (t.chan c).adv = (s.chan c).adv
  tgts : t.cal.tgts = s.cal.tgts
  img : t.img = s.img
  ceil : t.get Fld.stkChmodeCeil c = s.get Fld.stkChmodeCeil c
  regs : ∀ k i, (k, i) ≠ (RegKind.stkChmode, c) → k ≠ .glbLogSeq → t.reg k i = s.reg k i

namespace SlowStep
variable {c : Nat} {l m : List BusCyc} {s t u : State}

theorem of_line (h : LineStep c l s t) : SlowStep c l s t := ⟨h.bus, h.rb, h.adv, h.tgts, h.img, h.ceil, h.regs⟩

theorem trans (h : SlowStep c l s t) (g : SlowStep c m t u) : SlowStep c (l ++ m) s u := by
  refine ⟨?_, g.rb.trans h.rb, g.adv.trans h.adv, g.tgts.trans h.tgts, g.img.trans h.img, g.ceil.trans h.ceil,
    fun k i hk hl => (g.regs k i hk hl).trans (h.regs k i hk hl)⟩
  rw [g.bus, h.bus, List.append_assoc]

theorem caSlowSet (v : BitVec 8) (s : State) : SlowStep c [] s (caSlowSet c v s) := by
  obtain ⟨hbus, hrb, hadv, _⟩ := caSlowSet_step c v s
  exact ⟨by rw [hbus, List.append_nil], hrb, hadv, rfl, rfl, rfl, fun _ _ _ _ => rfl⟩

end SlowStep

/-- The frames of ten bytes that a list of cycles asks a target for. -/
def echoAsks (t : Nat) (l : List BusCyc) : Nat := (l.filter fun b => b == .frameOut (2 ^ t) 10).length

theorem echoAsks_append (t : Nat) (l m : List BusCyc) : echoAsks t (l ++ m) = echoAsks t l + echoAsks t m := by
  unfold echoAsks
  rw [List.filter_append, List.length_append]

theorem echoAsks_none {t : Nat} {l : List BusCyc} (h : ∀ b ∈ l, b ≠ .frameOut (2 ^ t) 10) : echoAsks t l = 0 := by
  unfold echoAsks
  rw [List.filter_eq_nil_iff.mpr fun b hb => by rw [beq_iff_eq]; exact h b hb]
  exact rfl

theorem applied_kx {s : State} {c t : Nat} (h : s.flag Fld.stkTgtcfgKx (c * 8 + t) = true) : (applied s c t).mode = 8 := by
  unfold applied
  dsimp only
  rw [if_pos h]

theorem busPut_regs (c : Nat) (b : BusCyc) (s : State) (odt : Nat) : (busPut c b s odt).regs = s.regs := rfl

theorem caSlowSet_regs (c : Nat) (v : BitVec 8) (s : State) : (caSlowSet c v s).regs = s.regs := rfl

theorem kxSwept_regs (c t : Nat) (s : State) : (kxSwept c t s).regs = (kxSelected c t s).regs := by
  rw [kxSwept, sweepPut, busPut_regs, sweepPut, busPut_regs, caSlowSet_regs]

theorem kxSelected_step (c t : Nat) (s : State) : ∃ l rate, LineStep c l (s.putFlag Fld.stkTgtcfgKx true (c * 8 + t)) (kxSelected c t s) ∧ ∀ b ∈ l, b = .rate rate :=
  LineStep.selectMask t (2 ^ t) _

theorem kxSelected_mode {c t : Nat} {s : State} (hl : (s.chan c).latch = none) : (kxSelected c t s).get Fld.stkChmodeCurMode c = 8 := by
  have hflag : (s.putFlag Fld.stkTgtcfgKx true (c * 8 + t)).flag Fld.stkTgtcfgKx (c * 8 + t) = true := State.flag_putFlag s _ rfl (by decide) true _
  unfold kxSelected
  have hmode := selectTarget_mode (c := c) (t := t) (s := s.putFlag Fld.stkTgtcfgKx true (c * 8 + t)) hl (by rw [applied_kx hflag]; decide)
  rw [hmode, applied_kx hflag]

/-- From the target's first idle period to its swept eyes. -/
theorem kxSwept_step {c t : Nat} {s : State} (hl : (s.chan c).latch = none) : ∃ l, SlowStep c l (s.putFlag Fld.stkTgtcfgKx true (c * 8 + t)) (kxSwept c t s) ∧
    echoAsks t l = 0 ∧ (kxSwept c t s).get Fld.stkChmodeCurMode c = 8 := by
  obtain ⟨l, rate, hsel, hrate⟩ := kxSelected_step c t s
  have hmode : (kxSwept c t s).get Fld.stkChmodeCurMode c = 8 := (State.get_of_regs (kxSwept_regs c t s) _ _).trans (kxSelected_mode hl)
  obtain ⟨cmds, n, hs0⟩ := LineStep.sweepPut (c := c) t 8 0 (caSlowSet c (((kxSelected c t s).chan c).caSlow ||| (1#8 <<< t)) (kxSelected c t s))
  obtain ⟨cmds', n', hs1⟩ := LineStep.sweepPut (c := c) t 8 1 (sweepPut c t 8 0 (caSlowSet c (((kxSelected c t s).chan c).caSlow ||| (1#8 <<< t)) (kxSelected c t s)))
  refine ⟨_, (((SlowStep.of_line hsel).trans (SlowStep.caSlowSet _ _)).trans (SlowStep.of_line hs0)).trans (SlowStep.of_line hs1), echoAsks_none fun b hb => ?_, hmode⟩
  rcases List.mem_append.mp hb with hb | hb
  · rcases List.mem_append.mp hb with hb | hb
    · rw [List.append_nil] at hb
      rw [hrate b hb]
      exact BusCyc.noConfusion
    · rw [List.mem_singleton.mp hb]
      exact BusCyc.noConfusion
  · rw [List.mem_singleton.mp hb]
    exact BusCyc.noConfusion

end Sys2Proof.Machine
end

section
/-! PROOFS. O43: entry passed, entry failed, and exit. -/
namespace Sys2Proof.Machine

/-! ## Entry passed -/

theorem kxEcho_regs (c t : Nat) (s : State) (i : Nat) : (kxEcho c t s i).regs = s.regs := rfl

theorem kxAsked_regs (c t : Nat) (s : State) : (kxAsked c t s).regs = s.regs := by
  have hraise (u : State) : (raiseCe c u).regs = u.regs := rfl
  have hfold : (kxEchoed c t s).regs = (kxFast c t s).regs := State.foldl_regs _ _ fun u i => kxEcho_regs c t u i
  rw [kxAsked, hraise, busPut_regs, kxPut, busPut_regs, hfold, kxFast, caSlowSet_regs, kxSet, busPut_regs]

/-- From the swept eyes to the tally asked for. -/
theorem kxAsked_step (c : Nat) {t : Nat} (ht : t < 8) (s : State) : ∃ l, SlowStep c l s (kxAsked c t s) ∧ echoAsks t l = 16 ∧
    .ca (2 ^ t) (caFrame [(0xE5, true), (0, false), (0, false)] 0) ∈ l ∧ ((kxAsked c t s).chan c).caSlow.getLsbD t = false := by
  have hset := LineStep.kxSet (c := c) t 0 0 s
  obtain ⟨l, hl, hn⟩ := LineStep.kxEchoes (c := c) t (List.range 16) (kxFast c t s)
  have hlast := (((LineStep.kxPut (c := c) t 0x7C 7 (kxEchoed c t s)).trans (LineStep.busPut (.frameOut (tMask t) 8) _ 0))).quiet (LineStep.raiseCe _)
  have hfast : SlowStep c [.ca (tMask t) (caFrame [(0xE5, true), (0, false), (0, false)] 0)] s (kxFast c t s) :=
    (SlowStep.of_line hset).trans (SlowStep.caSlowSet _ _)
  obtain ⟨_, _, _, hslow⟩ := caSlowSet_step c (((kxSet c t 0 0 s).chan c).caSlow &&& ~~~(1#8 <<< t)) (kxSet c t 0 0 s)
  refine ⟨_, (hfast.trans (SlowStep.of_line hl)).trans (SlowStep.of_line hlast), ?_, ?_, ?_⟩
  · have hfirst : echoAsks t [.ca (tMask t) (caFrame [(0xE5, true), (0, false), (0, false)] 0)] = 0 :=
      echoAsks_none fun b hb => by
        rw [List.mem_singleton.mp hb]
        exact BusCyc.noConfusion
    have hend : echoAsks t ([BusCyc.ca (tMask t) (kxCmd 0x7C 7)] ++ [.frameOut (tMask t) 8]) = 0 := echoAsks_none fun b hb => by
      rcases List.mem_append.mp hb with hb | hb
      · rw [List.mem_singleton.mp hb]
        exact BusCyc.noConfusion
      · rw [List.mem_singleton.mp hb]
        exact fun h => absurd (BusCyc.frameOut.inj h).2 (by decide)
    have hmid : echoAsks t l = 16 := hn
    rw [echoAsks_append, echoAsks_append, hfirst, hend, hmid]
  · exact List.mem_append_left _ (List.mem_append_left _ (List.mem_singleton.mpr rfl))
  · have hkeep : ((kxAsked c t s).chan c).caSlow = ((kxFast c t s).chan c).caSlow := hlast.caSlow.trans hl.caSlow
    rw [hkeep, kxFast, hslow, BitVec.getLsbD_and, BitVec.getLsbD_not, BitVec.getLsbD_shiftLeft]
    simp [ht]

section
variable {s : State} {c k rate : Nat} {x : TrainSet}

/-- What the trigger of an entry says of its target. -/
theorem kxMayEnter_says (h : kxMayEnter s c k = true) : s.flag Fld.stkTgtcfgKx (c * 8 + k) = false ∧ (s.chan c).rb.getLsbD k = true ∧
    (applied s c k).mode ≠ 0 ∧ 800 ≤ (applied s c k).rate := by
  unfold kxMayEnter targetIdle at h
  simp only [Bool.and_eq_true, Bool.not_eq_true', decide_eq_true_eq] at h
  obtain ⟨⟨⟨⟨_, hkx⟩, _, hrb⟩, _⟩, hm, hr, _⟩ := h
  exact ⟨hkx, hrb, hm, hr⟩

theorem execKxEntry_runs (hrun : s.running = true) (hc : c < 128) (hk : k < 8) (hm : maintFirst s c = true) (hrec : mayRecover s c k = false)
    (hen : kxMayEnter s c k = true) (hrate : kxRate s c k = some rate) : execKxEntry c k x s = .next (trainTwice c k false (some rate) [] [] x s).2 := by
  unfold execKxEntry
  rw [hrun, decide_eq_true (⟨hc, hk⟩ : c < 128 ∧ k < 8), hm, hrec, hen, hrate]
  exact onlyIf_true _ _

theorem trainOnce_entry (hm : (applied s c k).mode ≠ 0) (hr : 800 ≤ (applied s c k).rate) (m q : Train) : trainOnce c k false (some rate) [] [] m q s =
    if (kxTry c k rate 0 0 q s).1 then kxTry c k rate 0 0 q s else (false, escape c k (kxTry c k rate 0 0 q s).2) := by
  have hno : ¬ ((applied s c k).mode = 0 ∨ (applied s c k).rate < 800) := not_or.mpr ⟨hm, Nat.not_lt.mpr hr⟩
  unfold trainOnce
  exact if_neg hno

/-- The state of an entry that has passed. -/
def kxEntered (c k rate : Nat) (rd wr : List Int) (s : State) : State := storeTrain (c * 8 + k) rd wr 0 0 (kxAsked c k (kxSwept c k (kxOpened c k rate s)))

theorem storeTrain_spec (ti : Nat) (rd wr : List Int) (a b : Int) (s : State) : (storeTrain ti rd wr a b s).regs = s.regs ∧ (storeTrain ti rd wr a b s).ch = s.ch ∧
    ((storeTrain ti rd wr a b s).calT ti).centre = putCentres 1 wr (putCentres 0 rd (s.calT ti).centre) :=
  ⟨rfl, rfl, congrArg CalTgt.centre (Tab.get_set_same _ _ _ _)⟩

/-- R146: an entry that passes. -/
theorem kxEntry_passes (hrun : s.running = true) (hc : c < 128) (hk : k < 8) (hm : maintFirst s c = true) (hrec : mayRecover s c k = false)
    (hen : kxMayEnter s c k = true) (hrate : kxRate s c k = some rate) {rd wr : List Int} (hrd : newCentres 8 rate 0 x.ka.rd = some rd)
    (hwr : newCentres 8 rate 0 x.ka.wr = some wr) (hb : x.ka.busyOk = true) (he : x.ka.echoOk = true) :
    ∃ t pre d post, execKxEntry c k x s = .next t ∧ t.flag Fld.stkTgtcfgKx (c * 8 + k) = true ∧ t.get Fld.stkChmodeCurMode c = 8 ∧
      (t.chan c).caSlow.getLsbD k = false ∧
      (t.chan c).bus = (s.chan c).bus ++ pre ++ [.cmd (2 ^ k) 0xEF, .addr (2 ^ k) 0xB7, .dataIn (2 ^ k) d] ++ post ∧ d.length = 4 ∧
      .ca (2 ^ k) (caFrame [(0xE5, true), (0, false), (0, false)] 0) ∈ post ∧ (post.filter fun b => b == .frameOut (2 ^ k) 10).length = 16 ∧
      (t.calT (c * 8 + k)).centre = putCentres 1 wr (putCentres 0 rd (s.calT (c * 8 + k)).centre) := by
  obtain ⟨_, _, hmode, hfast⟩ := kxMayEnter_says hen
  have hexec : execKxEntry c k x s = .next (kxEntered c k rate rd wr s) := by
    rw [execKxEntry_runs hrun hc hk hm hrec hen hrate]
    unfold trainTwice
    rw [trainOnce_entry hmode hfast, kxTry_passes hb he hrd hwr]
    exact rfl
  obtain ⟨pre, d, hopen, hlen, hlatch⟩ := kxOpened_step c k rate s
  obtain ⟨l, hswept, hnone, hcur⟩ := kxSwept_step (c := c) (t := k) hlatch
  obtain ⟨post, hasked, hn, hmem, hslow⟩ := kxAsked_step c hk (kxSwept c k (kxOpened c k rate s))
  have hregs := kxAsked_regs c k (kxSwept c k (kxOpened c k rate s))
  have hon : (kxSwept c k (kxOpened c k rate s)).flag Fld.stkTgtcfgKx (c * 8 + k) = true :=
    (congrArg (fun w => Fld.stkTgtcfgKx.get w != 0) (hswept.regs .stkTgtcfg _ (by rw [ne_eq, Prod.mk.injEq]; exact fun h => RegKind.noConfusion h.1) (by decide))).trans
      (State.flag_putFlag _ Fld.stkTgtcfgKx rfl (by decide) true _)
  have hall := hswept.trans hasked
  unfold kxEntered at hexec
  generalize kxSwept c k (kxOpened c k rate s) = u at hexec hcur hslow hregs hon hall
  obtain ⟨hsregs, hsch, hscentre⟩ := storeTrain_spec (c * 8 + k) rd wr 0 0 (kxAsked c k u)
  have hchan : (storeTrain (c * 8 + k) rd wr 0 0 (kxAsked c k u)).chan c = (kxAsked c k u).chan c := by
    unfold State.chan
    rw [hsch]
  have hcal : (kxAsked c k u).calT (c * 8 + k) = s.calT (c * 8 + k) := congrArg (Tab.get ({} : CalTgt) (c * 8 + k)) (hall.tgts.trans hopen.tgts)
  refine ⟨storeTrain (c * 8 + k) rd wr 0 0 (kxAsked c k u), pre, d, l ++ post, hexec, ?_, ?_, ?_, ?_, hlen, List.mem_append_right _ hmem, ?_, ?_⟩
  · rw [State.flag_of_regs hsregs, State.flag_of_regs hregs, hon]
  · rw [State.get_of_regs hsregs, State.get_of_regs hregs, hcur]
  · rw [hchan, hslow]
  · rw [hchan, hall.bus, List.append_assoc (s.chan c).bus pre]
    exact congrArg (· ++ (l ++ post)) hopen.bus
  · exact (echoAsks_append k l post).trans (by rw [hnone, hn])
  · rw [hscentre, hcal]

end

end Sys2Proof.Machine
end

section
/-! PROOFS. O43: entry failed twice, and exit. -/
namespace Sys2Proof.Machine

/-! ## Training that fails leaves the registers but STK_CHMODE and the log's -/

/-- No register changes but STK_CHMODE of the channel and GLB_LOG_SEQ. -/
def RegsKept (c : Nat) (s t : State) : Prop := ∀ k i, (k, i) ≠ (RegKind.stkChmode, c) → k ≠ .glbLogSeq → t.reg k i = s.reg k i

namespace RegsKept
variable {c : Nat} {l : List BusCyc} {s t u : State}

theorem refl (s : State) : RegsKept c s s := fun _ _ _ _ => rfl

theorem trans (h : RegsKept c s t) (g : RegsKept c t u) : RegsKept c s u := fun k i hk hl => (g k i hk hl).trans (h k i hk hl)

theorem of_line (h : LineStep c l s t) : RegsKept c s t := h.regs

theorem of_regs (h : t.regs = s.regs) : RegsKept c s t := fun k i _ _ => State.reg_of_regs h k i

theorem ite {p : Prop} [Decidable p] (h : RegsKept c s t) (g : RegsKept c s u) : RegsKept c s (if p then t else u) := by
  split
  · exact h
  · exact g

theorem setRate (rate : Nat) (s : State) : RegsKept c s (setRate c rate s) := by
  obtain ⟨_, h, _⟩ := LineStep.setRate (c := c) rate s
  exact h.regs

theorem selectTarget (t : Nat) (s : State) : RegsKept c s (selectTarget c t s) := by
  obtain ⟨_, _, h, _⟩ := LineStep.selectMask (c := c) t (2 ^ t) s
  exact h.regs

theorem featCycles (t fa : Nat) (ps : List Nat) (s : State) : RegsKept c s (featCycles c t fa ps s) := (LineStep.featCycles t fa ps s).regs

theorem trainFeatures (t : Nat) (a : Applied) (s : State) : RegsKept c s (trainFeatures c t a s) := by
  have hrb (v : BitVec 8) (u : State) : RegsKept c u (u.setChan c { u.chan c with rb := v }) := of_regs rfl
  have hraise (u : State) : RegsKept c u (raiseCe c u) := of_regs rfl
  have hmode (u : State) : RegsKept c u (u.put Fld.stkChmodeCurMode 0 c) := (LineStep.put (f := Fld.stkChmodeCurMode) rfl (by decide) 0 u).regs
  have hfeat (p : Prop) [Decidable p] (fa : Nat) (ps : List Nat) (u : State) : RegsKept c u (if p then u else Machine.featCycles c t fa ps u) :=
    ite (refl u) (featCycles t fa ps u)
  unfold Machine.trainFeatures
  dsimp only
  exact (hrb _ s).trans ((hraise _).trans ((setRate _ _).trans ((hmode _).trans ((featCycles _ _ _ _).trans ((hfeat _ _ _ _).trans ((hfeat _ _ _ _).trans
    ((hfeat _ _ _ _).trans (hraise _))))))))

theorem phyZq (m : Train) (s : State) : RegsKept c s (phyZq c m s) := fun k i hk _ =>
  otherRegs_putFlag { s with cal := (Machine.phyZq c m s).cal } Fld.stkChmodeZqDflt _ c k i hk

theorem phyDuty (m : Train) (s : State) : RegsKept c s (phyDuty c m s) := by
  unfold Machine.phyDuty
  exact ite (refl s) (of_regs rfl)

theorem dieZq (t mode : Nat) (s : State) : RegsKept c s (dieZq c t mode s) := by
  unfold Machine.dieZq
  exact ite (LineStep.kxPut t 0xF9 0 s).regs (LineStep.busPut _ s 0).regs

theorem dieDcc (t : Nat) (s : State) : RegsKept c s (dieDcc c t s) := by
  unfold Machine.dieDcc
  exact (featCycles _ _ _ s).trans ((of_line (LineStep.busPut _ _ 0)).trans (featCycles _ _ _ _))

theorem sweepPut (t mode dir : Nat) (s : State) : RegsKept c s (sweepPut c t mode dir s) := (LineStep.busPut _ s 0).regs

end RegsKept

/-- A target's features, drive and duty cycle set (R98, steps 1 to 3). -/
def trainSetUp (c t : Nat) (m : Train) (s : State) : State :=
  let a := applied s c t
  let s := selectTarget c t (phyZq c m (raiseCe c (selectTarget c t (trainFeatures c t a s))))
  let s := if dieZqMode a.mode a.rate then dieZq c t a.mode s else s
  let s := if a.mode = 0 then s else phyDuty c m s
  if dieDccMode a.mode then dieDcc c t s else s

theorem trainSetUp_regs (c t : Nat) (m : Train) (s : State) : RegsKept c s (trainSetUp c t m s) := by
  have hraise (u : State) : RegsKept c u (raiseCe c u) := RegsKept.of_regs rfl
  have hzq (p : Prop) [Decidable p] (mode : Nat) (u : State) : RegsKept c u (if p then dieZq c t mode u else u) := RegsKept.ite (RegsKept.dieZq t mode u) (RegsKept.refl u)
  have hduty (p : Prop) [Decidable p] (u : State) : RegsKept c u (if p then u else phyDuty c m u) := RegsKept.ite (RegsKept.refl u) (RegsKept.phyDuty m u)
  have hdcc (p : Prop) [Decidable p] (u : State) : RegsKept c u (if p then dieDcc c t u else u) := RegsKept.ite (RegsKept.dieDcc t u) (RegsKept.refl u)
  unfold trainSetUp
  exact (RegsKept.trainFeatures t _ s).trans ((RegsKept.selectTarget t _).trans ((hraise _).trans ((RegsKept.phyZq m _).trans ((RegsKept.selectTarget t _).trans
    ((hzq _ _ _).trans ((hduty _ _).trans (hdcc _ _)))))))

/-- An attempt whose read centres are too narrow fails. -/
theorem trainTry_fails {c t : Nat} {m : Train} {s : State} (hm : (applied s c t).mode ≠ 0) (hr : 400 ≤ (applied s c t).rate)
    (hn : newCentres (applied s c t).mode (applied s c t).rate 0 m.rd = none) :
    (trainTry c t [] [] m s).1 = false ∧ RegsKept c s (trainTry c t [] [] m s).2 := by
  have hraise (u : State) : RegsKept c u (raiseCe c u) := RegsKept.of_regs rfl
  have hup := trainSetUp_regs c t m s
  have hdq : trainsDq (applied s c t).mode (applied s c t).rate = true := decide_eq_true ⟨hm, hr⟩
  have htry : trainTry c t [] [] m s = if (dieZqMode (applied s c t).mode (applied s c t).rate && m.dieFail) || (decide ((applied s c t).mode ≠ 0) && !m.dutyOk) then
      (false, raiseCe c (trainSetUp c t m s))
    else (false, raiseCe c (sweepPut c t (applied s c t).mode 1 (sweepPut c t (applied s c t).mode 0 (trainSetUp c t m s)))) := by
    have hgb : gbOf [] (applied s c t).mode = 0 := rfl
    unfold trainTry
    dsimp only
    rw [hgb, hdq, hn]
    exact rfl
  rw [htry]
  split
  · exact ⟨rfl, hup.trans (hraise _)⟩
  · exact ⟨rfl, hup.trans ((RegsKept.sweepPut _ _ _ _).trans ((RegsKept.sweepPut _ _ _ _).trans (hraise _)))⟩

/-! ## The escape (R152) -/

/-- The escape sent, and counted. -/
def escapeSent (c t : Nat) (s : State) : State := raiseCe c ((busPut c (.escape (tMask t)) s).inc Fld.stkKxCntEscapes c)
def escapeNoted (c t : Nat) (s : State) : State := ((escapeSent c t s).put Fld.stkChmodeCurMode 0 c).putFlag Fld.stkTgtcfgKx false (c * 8 + t)
def escaped (c t : Nat) (s : State) : State := (escapeNoted c t s).setChan c { (escapeNoted c t s).chan c with
  rb := ((escapeNoted c t s).chan c).rb &&& ~~~(1#8 <<< t)
  caSlow := ((escapeNoted c t s).chan c).caSlow &&& ~~~(1#8 <<< t) }

theorem escape_sends {c t : Nat} {s : State} (hq : (s.profileAt (c * 8 + t)).kxQual = true) (hrb : (s.chan c).rb.getLsbD t = true) : escape c t s = escaped c t s := by
  unfold escape
  rw [hq, hrb]
  exact rfl

/-- What the escape leaves, and what it counts. -/
structure Escaped (c t : Nat) (s u : State) : Prop where
  kx : u.flag Fld.stkTgtcfgKx (c * 8 + t) = false
  count : u.get Fld.stkKxCntEscapes c = min Fld.stkKxCntEscapes.max (s.get Fld.stkKxCntEscapes c + 1)
  tset : u.get Fld.stkTgtcfgTset (c * 8 + t) = s.get Fld.stkTgtcfgTset (c * 8 + t)
  ceil : u.get Fld.stkChmodeCeil c = s.get Fld.stkChmodeCeil c
  adv : (u.chan c).adv = (s.chan c).adv
  img : u.img = s.img
  regs : ∀ k, k ≠ .stkChmode → k ≠ .stkTgtcfg → k ≠ .stkKxCnt → ∀ i, u.reg k i = s.reg k i

theorem escaped_spec (c t : Nat) (s : State) : Escaped c t s (escaped c t s) := by
  have hchan : (escaped c t s).chan c = { (escapeNoted c t s).chan c with
      rb := ((escapeNoted c t s).chan c).rb &&& ~~~(1#8 <<< t)
      caSlow := ((escapeNoted c t s).chan c).caSlow &&& ~~~(1#8 <<< t) } := State.chan_setChan_same _ _ _
  have hadv : ((escapeNoted c t s).chan c).adv = (s.chan c).adv := by
    rw [escapeNoted, State.putFlag, State.chan_put, State.chan_put, escapeSent, (LineStep.raiseCe _).adv, State.inc, State.chan_put, (LineStep.busPut _ s 0).adv]
  have hregs : (escaped c t s).regs = (escapeNoted c t s).regs := by
    have hset (u : State) (x : Chan) : (u.setChan c x).regs = u.regs := rfl
    rw [escaped, hset]
  have hsent : (escapeSent c t s).regs = ((busPut c (.escape (tMask t)) s).inc Fld.stkKxCntEscapes c).regs := by
    have hraise (u : State) : (raiseCe c u).regs = u.regs := rfl
    rw [escapeSent, hraise]
  have hbus := busPut_regs c (.escape (tMask t)) s 0
  refine ⟨?_, ?_, ?_, ?_, ?_, rfl, fun k h1 h2 h3 i => ?_⟩
  · rw [State.flag_of_regs hregs, escapeNoted]
    exact State.flag_putFlag _ Fld.stkTgtcfgKx rfl (by decide) false _
  · rw [State.get_of_regs hregs, escapeNoted, State.get_putFlag_kind _ (by decide), State.get_put_kind _ (by decide), State.get_of_regs hsent]
    rw [State.get_inc_same _ Fld.stkKxCntEscapes (by decide) c 1, State.get_of_regs hbus]
  · rw [State.get_of_regs hregs, escapeNoted, State.get_putFlag_field _ (by decide) (by decide), State.get_put_kind _ (by decide), State.get_of_regs hsent, State.get_inc_kind _ (by decide),
      State.get_of_regs hbus]
  · rw [State.get_of_regs hregs, escapeNoted, State.get_putFlag_kind _ (by decide), State.get_put_field _ (by decide) (by decide), State.get_of_regs hsent, State.get_inc_kind _ (by decide),
      State.get_of_regs hbus]
  · rw [hchan, hadv]
  · rw [State.reg_of_regs hregs, escapeNoted, State.reg_putFlag_kind _ h2, State.reg_put_kind _ h1, State.reg_of_regs hsent, State.reg_inc_kind _ h3, State.reg_of_regs hbus]

/-- Which rate a target asks for hangs on the registers, the modes its parameter page advertises and the supplies. -/
theorem applied_of_kept {s t : State} {c n : Nat} (hkx : t.flag Fld.stkTgtcfgKx (c * 8 + n) = false) (hkx' : s.flag Fld.stkTgtcfgKx (c * 8 + n) = false)
    (htset : t.get Fld.stkTgtcfgTset (c * 8 + n) = s.get Fld.stkTgtcfgTset (c * 8 + n)) (hceil : t.get Fld.stkChmodeCeil c = s.get Fld.stkChmodeCeil c)
    (hadv : (t.chan c).adv = (s.chan c).adv) (himg : t.img = s.img) (hregs : ∀ k ∈ tsetKinds, ∀ i, t.reg k i = s.reg k i) : applied t c n = applied s c n := by
  have hset : setNo t c n = setNo s c n := by
    unfold setNo
    rw [hkx, hkx', htset]
    exact rfl
  have hws (j : Nat) : setWords t c j = setWords s c j := List.map_congr_left fun k hk => hregs k hk _
  have hv : vccqHigh t c = vccqHigh s c := by rw [vccqHigh, vccqHigh, himg]
  simp only [applied, hset, hws, hkx, hkx', hv, hceil, hadv]

/-! ## A target taken offline -/

/-- ONLINE cleared of a target without a LUN. -/
def onlineDropped (ti : Nat) (s : State) : State := if s.get Fld.stkTgtcfgLunOn ti = 0 then s.putFlag Fld.stkTgtcfgOnline false ti else s

theorem onlineDropped_spec (ti : Nat) (s : State) : (∀ i, (onlineDropped ti s).get Fld.stkTgtcfgKx i = s.get Fld.stkTgtcfgKx i) ∧
    ∀ a, a ≠ .stkTgtcfg → ∀ i, (onlineDropped ti s).reg a i = s.reg a i := by
  unfold onlineDropped
  split
  · exact ⟨fun i => State.get_putFlag_field s (by decide) (by decide) false ti i, fun a ha i => State.reg_putFlag_kind s ha false ti i⟩
  · exact ⟨fun _ => rfl, fun _ _ _ => rfl⟩

/-- LUN_ON and ONLINE alone of STK_TGTCFG go. -/
theorem lunOff_regs (k : Nat) (s : State) : (∀ i, (lunOff k s).flag Fld.stkTgtcfgKx i = s.flag Fld.stkTgtcfgKx i) ∧
    ∀ a, a ≠ .stkTgtcfg → ∀ i, (lunOff k s).reg a i = s.reg a i := by
  have hclr (i : Nat) : (s.clrBit .stkTgtcfg (tgtIdx k) (lunL k)).get Fld.stkTgtcfgKx i = s.get Fld.stkTgtcfgKx i := by
    refine Fld.get_congr Fld.stkTgtcfgKx (fun j hj hmask => ?_) (by decide)
    have hb : j ≠ lunL k := by
      rintro rfl
      have h4 : lunL k < 4 := Nat.mod_lt _ (by decide)
      have hall : ∀ b < 4, Fld.stkTgtcfgKx.mask.getLsbD b = false := by decide
      rw [hall _ h4] at hmask
      cases hmask
    show (s.clrBit .stkTgtcfg (tgtIdx k) (lunL k)).bit .stkTgtcfg i j = s.bit .stkTgtcfg i j
    rw [State.bit_clrBit, decide_eq_false fun e => hb (Prod.mk.inj (Prod.mk.inj e).2).2]
    exact Bool.true_and _
  have hregs : (lunOff k s).regs = (if s.online k then onlineDropped (tgtIdx k) (s.clrBit .stkTgtcfg (tgtIdx k) (lunL k)) else s).regs := by
    unfold lunOff
    split
    · exact rfl
    · exact rfl
  obtain ⟨hget, hreg⟩ := onlineDropped_spec (tgtIdx k) (s.clrBit .stkTgtcfg (tgtIdx k) (lunL k))
  refine ⟨fun i => (State.flag_of_regs hregs _ _).trans ?_, fun a ha i => (State.reg_of_regs hregs _ _).trans ?_⟩
  · split
    · exact congrArg (· != 0) ((hget i).trans (hclr i))
    · exact rfl
  · split
    · exact (hreg a ha i).trans (State.reg_setReg_kind _ ha _ _ _)
    · exact rfl

theorem targetOff_regs (c t code : Nat) (s : State) : (targetOff c t code s).flag Fld.stkTgtcfgOnline (c * 8 + t) = false ∧
    (targetOff c t code s).flag Fld.stkTgtcfgKx (c * 8 + t) = s.flag Fld.stkTgtcfgKx (c * 8 + t) ∧
    ∀ a, a ≠ .stkTgtcfg → a ≠ .glbLogSeq → ∀ i, (targetOff c t code s).reg a i = s.reg a i := by
  have hfold : ∀ (l : List Nat) (s : State), ((l.foldl (fun s j => lunOff (lunKey c t j) s) s).flag Fld.stkTgtcfgKx (c * 8 + t) = s.flag Fld.stkTgtcfgKx (c * 8 + t)) ∧
      ∀ a, a ≠ .stkTgtcfg → ∀ i, (l.foldl (fun s j => lunOff (lunKey c t j) s) s).reg a i = s.reg a i := fun l s =>
    List.foldlRecOn l _ (motive := fun u : State => u.flag Fld.stkTgtcfgKx (c * 8 + t) = s.flag Fld.stkTgtcfgKx (c * 8 + t) ∧
      ∀ a, a ≠ .stkTgtcfg → ∀ i, u.reg a i = s.reg a i) ⟨rfl, fun _ _ _ => rfl⟩ fun u hu j _ => by
        obtain ⟨hk, hr⟩ := lunOff_regs (lunKey c t j) u
        exact ⟨(hk _).trans hu.1, fun a ha i => (hr a ha i).trans (hu.2 a ha i)⟩
  obtain ⟨hk, hr⟩ := hfold (List.range 4) s
  unfold targetOff
  generalize (List.range 4).foldl (fun s j => lunOff (lunKey c t j) s) s = u at hk hr ⊢
  refine ⟨?_, ?_, fun a ha hl i => ?_⟩
  · rw [State.flag_logPacked _ (by decide)]
    exact State.flag_putFlag _ Fld.stkTgtcfgOnline rfl (by decide) false _
  · rw [State.flag_logPacked _ (by decide), State.flag_putFlag_field _ (by decide) (by decide), hk]
  · rw [State.reg_logPacked _ hl, State.reg_putFlag_kind _ ha, hr a ha]

end Sys2Proof.Machine
end

section
/-! PROOFS. O43: timing sets, KX-DDR entry and exit, and DQS tracking. -/
namespace Sys2Proof.Machine

/-! ## Entry that fails twice (R99, R146) -/

/-- The first attempt given up. -/
def kxGivenUp (c t rate : Nat) (s : State) : State := raiseCe c (kxSwept c t (kxOpened c t rate s))

/-- What a first attempt that is given up leaves. -/
structure GivenUp (c t : Nat) (s u : State) : Prop where
  rb : (u.chan c).rb = (s.chan c).rb
  adv : (u.chan c).adv = (s.chan c).adv
  img : u.img = s.img
  ceil : u.get Fld.stkChmodeCeil c = s.get Fld.stkChmodeCeil c
  tset : u.get Fld.stkTgtcfgTset (c * 8 + t) = s.get Fld.stkTgtcfgTset (c * 8 + t)
  regs : ∀ k, k ≠ .stkChmode → k ≠ .stkTgtcfg → k ≠ .glbLogSeq → ∀ i, u.reg k i = s.reg k i

theorem kxGivenUp_spec (c t rate : Nat) (s : State) : GivenUp c t s (kxGivenUp c t rate s) := by
  obtain ⟨pre, d, hopen, _, hlatch⟩ := kxOpened_step c t rate s
  obtain ⟨l, hswept, _, _⟩ := kxSwept_step (c := c) (t := t) hlatch
  have hall := hswept.trans (SlowStep.of_line (LineStep.raiseCe (c := c) (kxSwept c t (kxOpened c t rate s))))
  change SlowStep c _ _ (kxGivenUp c t rate s) at hall
  refine ⟨hall.rb.trans hopen.rb, hall.adv.trans hopen.adv, hall.img.trans hopen.img, ?_, ?_, fun k h1 h2 h3 i => ?_⟩
  · exact hall.ceil.trans ((State.get_putFlag_kind _ (by decide) _ _ _).trans hopen.ceil)
  · refine (congrArg Fld.stkTgtcfgTset.get (hall.regs .stkTgtcfg _ (by rw [ne_eq, Prod.mk.injEq]; exact fun h => RegKind.noConfusion h.1) (by decide))).trans ?_
    refine (State.get_putFlag_field _ (f := Fld.stkTgtcfgTset) (g := Fld.stkTgtcfgKx) (by decide) (by decide) true _ _).trans ?_
    exact congrArg Fld.stkTgtcfgTset.get (hopen.regs .stkTgtcfg _ (by rw [ne_eq, Prod.mk.injEq]; exact fun h => RegKind.noConfusion h.1) (by decide))
  · refine (hall.regs k i (fun e => h1 (Prod.mk.inj e).1) h3).trans ?_
    exact (State.reg_putFlag_kind _ h2 _ _ _).trans (hopen.regs k i (fun e => h1 (Prod.mk.inj e).1) h3)

theorem trainOnce_fails {c t : Nat} {kx : Option Nat} {gr gw : List Int} {m q : Train} {s : State} (h : (trainTry c t gr gw m s).1 = false) :
    trainOnce c t true kx gr gw m q s = trainTry c t gr gw m s := by
  unfold trainOnce
  rw [if_pos rfl]
  dsimp only
  rw [h]
  exact if_pos rfl

section
variable {s : State} {c k rate : Nat} {x : TrainSet}

theorem kxRate_qualified (h : kxRate s c k = some rate) : (s.profileAt (c * 8 + k)).kxQual = true := by
  unfold kxRate at h
  dsimp only at h
  split at h
  · next hc =>
    simp only [Bool.and_eq_true] at hc
    exact hc.1.1.1.2
  · cases h

theorem kxEntry_fails (hrun : s.running = true) (hc : c < 128) (hk : k < 8) (hm : maintFirst s c = true) (hrec : mayRecover s c k = false)
    (hen : kxMayEnter s c k = true) (hrate : kxRate s c k = some rate) (hb : x.ka.busyOk = true) (hrd : newCentres 8 rate 0 x.ka.rd = none)
    (hstd : newCentres (applied s c k).mode (applied s c k).rate 0 x.b.rd = none) :
    ∃ t, execKxEntry c k x s = .next t ∧ t.flag Fld.stkTgtcfgKx (c * 8 + k) = false ∧ t.flag Fld.stkTgtcfgOnline (c * 8 + k) = false ∧
      t.get Fld.stkKxCntEscapes c = min Fld.stkKxCntEscapes.max (s.get Fld.stkKxCntEscapes c + 1) := by
  obtain ⟨hkx, hrb, hmode, hfast⟩ := kxMayEnter_says hen
  have hgiven := kxGivenUp_spec c k rate s
  have htry := kxTry_fails (c := c) (t := k) (s := s) hb hrd
  change _ = (false, kxGivenUp c k rate s) at htry
  generalize kxGivenUp c k rate s = f at hgiven htry
  have hqual : (f.profileAt (c * 8 + k)).kxQual = true := by
    unfold State.profileAt
    rw [hgiven.img]
    exact kxRate_qualified hrate
  have hesc : escape c k f = escaped c k f := escape_sends hqual (by rw [hgiven.rb]; exact hrb)
  have he := escaped_spec c k f
  have hsame : applied (escaped c k f) c k = applied s c k := by
    refine applied_of_kept he.kx hkx (he.tset.trans hgiven.tset) (he.ceil.trans hgiven.ceil) (he.adv.trans hgiven.adv) (he.img.trans hgiven.img) fun a ha i => ?_
    have hne : a ≠ .stkChmode ∧ a ≠ .stkTgtcfg ∧ a ≠ .stkKxCnt ∧ a ≠ .glbLogSeq := by
      revert a
      decide
    exact (he.regs a hne.1 hne.2.1 hne.2.2.1 i).trans (hgiven.regs a hne.1 hne.2.1 hne.2.2.2 i)
  have hcount : (escaped c k f).get Fld.stkKxCntEscapes c = min Fld.stkKxCntEscapes.max (s.get Fld.stkKxCntEscapes c + 1) := by
    rw [he.count]
    exact congrArg (fun w => min Fld.stkKxCntEscapes.max (Fld.stkKxCntEscapes.get w + 1)) (hgiven.regs .stkKxCnt (by decide) (by decide) (by decide) c)
  have hoff := he.kx
  generalize escaped c k f = e at hesc hsame hcount hoff
  obtain ⟨hfail, hregs⟩ := trainTry_fails (c := c) (t := k) (m := x.b) (s := e) (by rw [hsame]; exact hmode) (by rw [hsame]; omega) (by rw [hsame]; exact hstd)
  have hexec : execKxEntry c k x s = .next (targetOff c k 0x33 (trainTry c k [] [] x.b e).2) := by
    rw [execKxEntry_runs hrun hc hk hm hrec hen hrate]
    unfold trainTwice
    rw [trainOnce_entry hmode hfast, htry]
    dsimp only
    rw [if_neg Bool.false_ne_true, hesc]
    dsimp only
    rw [if_neg Bool.false_ne_true, trainOnce_fails hfail, hfail]
    exact rfl
  generalize (trainTry c k [] [] x.b e).2 = q at hregs hexec
  obtain ⟨honline, hkxq, hother⟩ := targetOff_regs c k 0x33 q
  refine ⟨_, hexec, ?_, honline, ?_⟩
  · rw [hkxq, ← hoff]
    exact congrArg (fun w => Fld.stkTgtcfgKx.get w != 0) (hregs .stkTgtcfg _ (by rw [ne_eq, Prod.mk.injEq]; exact fun h => RegKind.noConfusion h.1) (by decide))
  · rw [← hcount]
    refine congrArg Fld.stkKxCntEscapes.get ((hother .stkKxCnt (by decide) (by decide) c).trans (hregs .stkKxCnt c ?_ (by decide)))
    rw [ne_eq, Prod.mk.injEq]
    exact fun h => RegKind.noConfusion h.1

/-! ## Exit (R151) -/

/-- KX EXIT sent. -/
def kxLeft (c k : Nat) (s : State) : State := (raiseCe c (kxPut c k 0xE1 0 (selectTarget c k s))).putFlag Fld.stkTgtcfgKx false (c * 8 + k)

theorem maintFirst_unlocked (h : maintFirst s c = true) : rateLocked s c = false := by
  unfold maintFirst at h
  simp only [Bool.and_eq_true, Bool.not_eq_true'] at h
  exact h.1.2

theorem kxExit_leaves (hrun : s.running = true) (hc : c < 128) (hk : k < 8) (hm : maintFirst s c = true) (hex : kxMayExit s c k = true) :
    ∃ t, execKxExit c k s = .next t ∧
      (needsRate s c k = false → t.flag Fld.stkTgtcfgKx (c * 8 + k) = false ∧ (t.chan c).bus = (s.chan c).bus ++ [.ca (2 ^ k) (caFrame [(0xE1, true)] 0)] ∧
        ∀ k' i', (k', i') ≠ (.stkTgtcfg, c * 8 + k) → (k', i') ≠ (.stkChmode, c) → k' ≠ .glbLogSeq → t.reg k' i' = s.reg k' i') ∧
      (needsRate s c k = true → t.flag Fld.stkTgtcfgKx (c * 8 + k) = true ∧ rateLocked t c = true) := by
  have hlock := maintFirst_unlocked hm
  have hkx : s.flag Fld.stkTgtcfgKx (c * 8 + k) = true := by
    unfold kxMayExit at hex
    simp only [Bool.and_eq_true] at hex
    exact hex.1.1
  have hexec : execKxExit c k s = .next (if needsRate s c k then startRate c (applied s c k).rate s else kxLeft c k s) := by
    have hc' : (s.running && decide (c < 128 ∧ k < 8) && kxMayExit s c k && maintFirst s c) = true := by
      rw [hrun, decide_eq_true (⟨hc, hk⟩ : c < 128 ∧ k < 8), hex, hm]
      exact rfl
    unfold execKxExit atRate
    rw [hc', hlock, if_neg Bool.false_ne_true]
    exact onlyIf_true _ _
  cases hn : needsRate s c k with
  | false =>
    rw [hn, if_neg Bool.false_ne_true] at hexec
    have hsel : PinsStep s (selectTarget c k s) c := PinsStep.selectMask hn
    have hput := (LineStep.kxPut (c := c) k 0xE1 0 (selectTarget c k s)).quiet (LineStep.raiseCe _)
    obtain ⟨_, _, _, _, _, _, hchan⟩ := hsel.chan
    refine ⟨_, hexec, fun _ => ⟨State.flag_putFlag _ Fld.stkTgtcfgKx rfl (by decide) false _, ?_, fun k' i' h1 h2 h3 => ?_⟩, fun h => absurd h Bool.false_ne_true⟩
    · have hbus : (selectTarget c k s).chan c = _ := hchan
      refine hput.bus.trans ?_
      rw [hbus]
      exact rfl
    · exact (otherRegs_putFlag _ Fld.stkTgtcfgKx false _ k' i' h1).trans ((hput.regs k' i' h2 h3).trans (hsel.step.regs k' i' h2 h3))
  | true =>
    rw [hn, if_pos rfl] at hexec
    have hne : (applied s c k).rate ≠ s.get Fld.stkChmodeCurRate c := by
      unfold needsRate at hn
      rw [Bool.and_eq_true, bne_iff_ne, bne_iff_ne] at hn
      exact hn.2
    obtain ⟨_, hlocked, _⟩ := startRate_status hne
    obtain ⟨_, hset, _⟩ := LineStep.setRate (c := c) (applied s c k).rate s
    have hregs : (startRate c (applied s c k).rate s).regs = (setRate c (applied s c k).rate s).regs := by
      have hchan (u : State) (y : Chan) : (u.setChan c y).regs = u.regs := rfl
      rw [startRate, hchan]
    have hnow : (startRate c (applied s c k).rate s).now = s.now := by
      have hchan (u : State) (y : Chan) : (u.setChan c y).now = u.now := rfl
      rw [startRate, hchan, setRate, if_neg (Ne.symm hne), State.now_put, busPut_now, raiseCe_now]
    refine ⟨_, hexec, fun h => absurd h.symm Bool.false_ne_true, fun _ => ⟨?_, ?_⟩⟩
    · rw [State.flag_of_regs hregs, ← hkx]
      exact congrArg (fun w => Fld.stkTgtcfgKx.get w != 0) (hset.regs .stkTgtcfg _ (by rw [ne_eq, Prod.mk.injEq]; exact fun h => RegKind.noConfusion h.1) (by decide))
    · unfold rateLocked
      rw [hlocked, hnow]
      exact decide_eq_true (by omega)

end

/-- Settles O43. -/
theorem kxAndTracking : Obligations.KxAndTracking := by
  unfold Obligations.KxAndTracking
  refine ⟨fun s r c k w hc hk hs hw => ?_, fun s c k rate x hrun hc hk hm hrec hen hrate => ⟨fun rd wr hrd hwr hb he =>
      kxEntry_passes hrun hc hk hm hrec hen hrate hrd hwr hb he, fun hb hrd hstd => kxEntry_fails hrun hc hk hm hrec hen hrate hb hrd hstd⟩,
    fun s c k hrun hc hk hm hex => kxExit_leaves hrun hc hk hm hex,
    fun s c key hon hc hen hm hr ha hl ht hk hw => fun hothers => ⟨fun a b hsum => trackingEval_tallies hon hc hen hm hr ha hl ht hk hw hothers hsum,
      fun hfull => trackingEval_evaluates hon hc hen hm hr ha hl ht hk hw hothers hfull⟩⟩
  intro ti kxSet i hi
  have h := tgtcfgWrite_spec c k w s
  refine ⟨_, tgtcfg_written hc hk hs hw i hi, respondWrite_resps_of_eq h.resps r, ?_⟩
  simp only [State.get_respondWrite, State.flag_respondWrite, State.reg_respondWrite]
  refine ⟨h.req, fun hp hq => ⟨(h.refused hp hq).1, fun hl hkx ht => ?_⟩, h.fallbk, h.tset, h.tsetKept, h.kxTset, h.kxTsetKept, h.regs⟩
  rw [State.respondWrite_eq]
  exact (h.refused hp hq).2 hl hkx ht

end Sys2Proof.Machine
end

section
/-! PROOFS. O44: what a calibration run's steps 1 to 6 leave. -/
namespace Sys2Proof.Machine

/-! ## The targets' configuration stands -/

/-- No target's configuration has changed. -/
def TgtcfgKept (s t : State) : Prop := ∀ ti, t.reg .stkTgtcfg ti = s.reg .stkTgtcfg ti

namespace TgtcfgKept
variable {c : Nat} {s t u : State}

theorem refl (s : State) : TgtcfgKept s s := fun _ => rfl

theorem trans (h : TgtcfgKept s t) (g : TgtcfgKept t u) : TgtcfgKept s u := fun ti => (g ti).trans (h ti)

theorem of_regs (h : t.regs = s.regs) : TgtcfgKept s t := fun ti => State.reg_of_regs h _ ti

theorem of_kept (h : RegsKept c s t) : TgtcfgKept s t := fun ti => h .stkTgtcfg ti (by rw [ne_eq, Prod.mk.injEq]; exact fun h => RegKind.noConfusion h.1) (by decide)

theorem ite {p : Prop} [Decidable p] (h : p → TgtcfgKept s t) (g : ¬ p → TgtcfgKept s u) : TgtcfgKept s (if p then t else u) := by
  by_cases hp : p
  · rw [if_pos hp]
    exact h hp
  · rw [if_neg hp]
    exact g hp

theorem when {p : Prop} [Decidable p] (h : TgtcfgKept s t) : TgtcfgKept s (if p then t else s) := ite (fun _ => h) fun _ => refl s

theorem online (h : TgtcfgKept s t) (k : Nat) : t.online k = s.online k := congrArg (BitVec.getLsbD · (lunL k)) (h (tgtIdx k))

theorem setCalCh (x : CalCh) (s : State) : TgtcfgKept s (s.setCalCh c x) := of_regs rfl

theorem setCalT (ti : Nat) (x : CalTgt) (s : State) : TgtcfgKept s (s.setCalT ti x) := of_regs rfl

theorem calFail (t : Nat) (s : State) : TgtcfgKept s (calFail c t s) := fun ti => by
  unfold Machine.calFail
  exact (otherRegs_logEntry _ _ _ _ _ _ _ (by rw [ne_eq, Prod.mk.injEq]; exact fun h => RegKind.noConfusion h.1)).trans (State.reg_inc_kind s (g := Fld.calStsFails) (k := .stkTgtcfg) (by decide) 0 1 ti)

theorem showOffsets (s : State) : TgtcfgKept s (showOffsets c s) := fun ti => by
  unfold Machine.showOffsets
  rw [State.reg_setReg_kind _ (by decide), State.reg_setReg_kind _ (by decide)]

theorem foldOffsets (s : State) : TgtcfgKept s (foldOffsets c s) := by
  unfold Machine.foldOffsets
  dsimp only
  have hchan (v : State) (y : Chan) : TgtcfgKept v (v.setChan c y) := of_regs rfl
  refine TgtcfgKept.trans ?_ (showOffsets _)
  refine TgtcfgKept.trans ?_ (hchan _ _)
  exact List.foldlRecOn (List.range 8) _ (refl s) fun t ht k _ => ht.trans (setCalT _ _ _)

theorem applyDir (t dir mode rate : Nat) (gb : Int) (bits : List (BitVec 129)) (s : State) : TgtcfgKept s (applyDir c t dir mode rate gb bits s).2.2 := by
  unfold Machine.applyDir
  by_cases h : bits.length ≠ 8 ∨ !(bits.all fun b => runWide mode rate (widestRun b))
  · rw [if_pos h]
    exact refl s
  · rw [if_neg h]
    cases newCentres mode rate gb bits with
    | none => exact refl s
    | some l =>
      dsimp only
      by_cases hd : (!driftOk s c t dir l) = true
      · rw [if_pos hd]
        exact refl s
      · rw [if_neg hd]
        exact (foldOffsets s).trans (setCalT _ _ _)

end TgtcfgKept

/-! ## The steps of a run (Table 15-1) -/

/-- Step 1: the engine's own ZQ. -/
def zqStep (c : Nat) (u : CalRun) (m : Train) (s : State) : State :=
  let sw := Tab.get {} u.sweep s.cal.sweeps
  let doZq := !sw.zq.contains c
  let s1 : State := if doZq then { s with cal := { s.cal with sweeps := Tab.put u.sweep { sw with zq := c :: sw.zq } s.cal.sweeps } } else s
  let s2 := if doZq && zqOk s.img.cal m then s1.setCalCh c { s1.calCh c with puGoal := m.pu, pdGoal := m.pd } else s1
  if doZq && !zqOk s.img.cal m then calFail c u.tgt s2 else s2

/-- Step 2: the die's ZQ, on the selected target. -/
def dieStep (c : Nat) (u : CalRun) (m : Train) (mr : Nat × Nat) (s : State) : State :=
  let doDie := dieZqMode mr.1 mr.2 && dieZqMay s c u.tgt
  let s1 := selectTarget c u.tgt s
  let s2 := if doDie then dieZq c u.tgt mr.1 s1 else s1
  if doDie && m.dieFail then calFail c u.tgt s2 else s2

/-- Step 3: the duty cycle. -/
def dutyStep (c : Nat) (u : CalRun) (m : Train) (k : CalSec) (mr : Nat × Nat) (s : State) : State :=
  let f3 := decide (mr.1 ≠ 0) && !(m.dutyOk && decide (m.dcc.natAbs ≤ k.dccMax))
  let s1 := if mr.1 ≠ 0 ∧ !f3 then s.setCalCh c { s.calCh c with dccGoal := m.dcc } else s
  let s2 := if f3 then calFail c u.tgt s1 else s1
  if dieDccMode mr.1 then dieDcc c u.tgt s2 else s2

/-- The sweeps of steps 4 and 5. -/
def sweepStep (c : Nat) (u : CalRun) (mr : Nat × Nat) (s : State) : State :=
  raiseCe c (if trainsDq mr.1 mr.2 then sweepPut c u.tgt mr.1 1 (sweepPut c u.tgt mr.1 0 s) else s)

/-- A direction judged and applied, and a failure noted. -/
def dirStep (c : Nat) (u : CalRun) (mr : Nat × Nat) (dir : Nat) (l : List Int) (bits : List (BitVec 129)) (s : State) : Bool × Bool × State :=
  if trainsDq mr.1 mr.2 then applyDir c u.tgt dir mr.1 mr.2 (if u.idle then gbOf l mr.1 else 0) bits s else (false, false, s)
def dirNoted (c : Nat) (u : CalRun) (x : Bool × Bool × State) : State := if x.2.1 then calFail c u.tgt x.2.2 else x.2.2

theorem tgtcfgKept_zqStep (c : Nat) (u : CalRun) (m : Train) (s : State) : TgtcfgKept s (zqStep c u m s) := by
  unfold zqStep
  dsimp only
  have h1 : TgtcfgKept s (if (!(Tab.get ({} : Sweep) u.sweep s.cal.sweeps).zq.contains c) = true then
      { s with cal := { s.cal with sweeps := Tab.put u.sweep { Tab.get ({} : Sweep) u.sweep s.cal.sweeps with
        zq := c :: (Tab.get ({} : Sweep) u.sweep s.cal.sweeps).zq } s.cal.sweeps } } else s) := .when (.of_regs rfl)
  refine TgtcfgKept.trans ?_ (.when (.calFail _ _))
  exact h1.trans (.when (.setCalCh _ _))

theorem tgtcfgKept_dieStep (c : Nat) (u : CalRun) (m : Train) (mr : Nat × Nat) (s : State) : TgtcfgKept s (dieStep c u m mr s) := by
  unfold dieStep
  refine TgtcfgKept.trans ?_ (.when (.calFail _ _))
  exact (TgtcfgKept.of_kept (RegsKept.selectTarget u.tgt s)).trans (.when (.of_kept (RegsKept.dieZq u.tgt mr.1 _)))

theorem tgtcfgKept_dutyStep (c : Nat) (u : CalRun) (m : Train) (k : CalSec) (mr : Nat × Nat) (s : State) : TgtcfgKept s (dutyStep c u m k mr s) := by
  unfold dutyStep
  refine TgtcfgKept.trans ?_ (.when (.of_kept (RegsKept.dieDcc u.tgt _)))
  exact (TgtcfgKept.when (.setCalCh _ s)).trans (.when (.calFail _ _))

theorem tgtcfgKept_sweepStep (c : Nat) (u : CalRun) (mr : Nat × Nat) (s : State) : TgtcfgKept s (sweepStep c u mr s) := by
  unfold sweepStep
  refine TgtcfgKept.trans ?_ (.of_regs rfl)
  exact .when ((TgtcfgKept.of_kept (RegsKept.sweepPut u.tgt mr.1 0 s)).trans (.of_kept (RegsKept.sweepPut u.tgt mr.1 1 _)))

theorem tgtcfgKept_dirStep (c : Nat) (u : CalRun) (mr : Nat × Nat) (dir : Nat) (l : List Int) (bits : List (BitVec 129)) (s : State) :
    TgtcfgKept s (dirNoted c u (dirStep c u mr dir l bits s)) := by
  unfold dirNoted
  refine TgtcfgKept.trans ?_ (.when (.calFail _ _))
  unfold dirStep
  by_cases h : trainsDq mr.1 mr.2 = true
  · rw [if_pos h]
    exact .applyDir _ _ _ _ _ _ _
  · rw [if_neg h]
    exact .refl s

/-- The state after steps 1 to 3, and after the sweeps. -/
def runSwept (c : Nat) (u : CalRun) (m : Train) (s : State) : State :=
  let mr := trainMode s c u.tgt
  sweepStep c u mr (dutyStep c u m s.img.cal mr (dieStep c u m mr (zqStep c u m s)))

/-- The read training and the write training judged. -/
def runRead (c : Nat) (u : CalRun) (m : Train) (s : State) : Bool × Bool × State :=
  dirStep c u (trainMode s c u.tgt) 0 s.img.cal.gbRd m.rd (runSwept c u m s)
def runWrite (c : Nat) (u : CalRun) (m : Train) (s : State) : Bool × Bool × State :=
  dirStep c u (trainMode s c u.tgt) 1 s.img.cal.gbWr m.wr (dirNoted c u (runRead c u m s))

/-- The run's result. -/
def runResult (c : Nat) (u : CalRun) (m : Train) (s : State) : Nat :=
  let mr := trainMode s c u.tgt
  let f1 := !(Tab.get ({} : Sweep) u.sweep s.cal.sweeps).zq.contains c && !zqOk s.img.cal m
  let f2 := dieZqMode mr.1 mr.2 && dieZqMay (zqStep c u m s) c u.tgt && m.dieFail
  let f3 := decide (mr.1 ≠ 0) && !(m.dutyOk && decide (m.dcc.natAbs ≤ s.img.cal.dccMax))
  if f1 || f2 || f3 || (runRead c u m s).2.1 || (runWrite c u m s).2.1 then 2 else if (runRead c u m s).1 || (runWrite c u m s).1 then 4 else 1

/-- The run with its result and with the LUNs of the media step to come. -/
def runAfter (c : Nat) (u : CalRun) (m : Train) (s x : State) : CalRun := { u with
  six := true
  result := runResult c u m s
  media := ((List.range 4).map (lunKey c u.tgt)).filter x.online }

theorem runSteps_eq (c : Nat) (u : CalRun) (m : Train) (s : State) : runSteps c u m s =
    { dirNoted c u (runWrite c u m s) with cal := { (dirNoted c u (runWrite c u m s)).cal with
      runs := Tab.put c (runAfter c u m s (dirNoted c u (runWrite c u m s))) (dirNoted c u (runWrite c u m s)).cal.runs } } := rfl

theorem tgtcfgKept_runSteps (c : Nat) (u : CalRun) (m : Train) (s : State) : TgtcfgKept s (dirNoted c u (runWrite c u m s)) := by
  refine TgtcfgKept.trans ?_ (tgtcfgKept_dirStep c u _ 1 _ _ _)
  refine TgtcfgKept.trans ?_ (tgtcfgKept_dirStep c u _ 0 _ _ _)
  exact (((tgtcfgKept_zqStep c u m s).trans (tgtcfgKept_dieStep c u m _ _)).trans (tgtcfgKept_dutyStep c u m _ _ _)).trans (tgtcfgKept_sweepStep c u _ _)

/-- In the asynchronous mode 0 a run does no more than step 1 and a selection. -/
theorem runSteps_async {c : Nat} {u : CalRun} {s : State} (h : (trainMode s c u.tgt).1 = 0) (m : Train) :
    dirNoted c u (runWrite c u m s) = raiseCe c (selectTarget c u.tgt (zqStep c u m s)) ∧
    runResult c u m s = if (!(Tab.get ({} : Sweep) u.sweep s.cal.sweeps).zq.contains c && !zqOk s.img.cal m) = true then 2 else 1 := by
  have hdie (r : Nat) : dieZqMode 0 r = false := by
    unfold dieZqMode
    exact rfl
  have hdq (r : Nat) : trainsDq 0 r = false := by
    unfold trainsDq
    exact decide_eq_false fun h => h.1 rfl
  have hread : runRead c u m s = (false, false, raiseCe c (selectTarget c u.tgt (zqStep c u m s))) := by
    unfold runRead dirStep runSwept sweepStep dutyStep dieStep
    dsimp only
    simp only [h, hdie, hdq, Bool.false_and, Bool.false_eq_true, if_false, ne_eq, not_true_eq_false, decide_false, false_and, dieDccMode]
    exact rfl
  have hwrite : runWrite c u m s = (false, false, raiseCe c (selectTarget c u.tgt (zqStep c u m s))) := by
    unfold runWrite dirStep
    rw [h, hdq, if_neg Bool.false_ne_true, hread]
    exact rfl
  refine ⟨?_, ?_⟩
  · rw [hwrite]
    exact rfl
  · unfold runResult
    dsimp only
    rw [hread, hwrite, h]
    simp only [hdie, Bool.false_and, Bool.or_false, ne_eq, not_true_eq_false, decide_false, Bool.false_eq_true, if_false]

end Sys2Proof.Machine
end

section
/-! PROOFS. O44: the triggers of calibration runs. -/
namespace Sys2Proof.Machine

/-! ## A sweep queued -/

theorem queueRun_cal (n ti : Nat) (s : State) : (queueRun n ti s).cal = { s.cal with
    queue := (queueRun n ti s).cal.queue
    sweeps := (queueRun n ti s).cal.sweeps } := by
  unfold queueRun
  dsimp only
  split <;> exact rfl

/-- Of the calibration's state a sweep changes the queues, its own entry and the next sweep's number. -/
theorem queueSweep_cal (l : List Nat) (s : State) : (queueSweep l s).cal = { s.cal with
    next := (queueSweep l s).cal.next
    queue := (queueSweep l s).cal.queue
    sweeps := (queueSweep l s).cal.sweeps } := by
  unfold queueSweep
  refine List.foldlRecOn l _ (motive := fun t : State => t.cal = { s.cal with
    next := t.cal.next
    queue := t.cal.queue
    sweeps := t.cal.sweeps }) rfl fun t ht ti _ => ?_
  rw [queueRun_cal, ht]

theorem queueSweep_queued {l : List Nat} {s : State} {x : Nat} (h : Queued x s) : Queued x (queueSweep l s) :=
  (queueRuns_spec s.cal.next l { s with cal := { s.cal with next := s.cal.next + 1 } }).2.1 x h

/-! ## The temperature trigger (R557, R558) -/

/-- What a group's sample leaves. -/
structure Sampled (s t : State) : Prop where
  rest : t = { s with cal := t.cal }
  at_ : t.cal.tempAt = s.cal.tempAt
  tgts : t.cal.tgts = s.cal.tgts
  queued : ∀ x, Queued x s → Queued x t

namespace Sampled
variable {s t u : State} {g : Nat}

theorem refl (s : State) : Sampled s s := ⟨rfl, rfl, rfl, fun _ h => h⟩

theorem trans (h : Sampled s t) (k : Sampled t u) : Sampled s u :=
  ⟨k.rest.trans (by rw [h.rest]), k.at_.trans h.at_, k.tgts.trans h.tgts, fun x hx => k.queued x (h.queued x hx)⟩

theorem live (h : Sampled s t) (g : Nat) : tempLive t g = tempLive s g := by
  rw [h.rest]
  exact rfl

end Sampled

/-- The temperature trigger queues the target at T_g. -/
structure Hot (s : State) (g : Nat) (v : Int) (ti : Nat) : Prop where
  enabled : s.flag Fld.calCtlEn = true
  group : ti / 64 = g
  online : s.flag Fld.stkTgtcfgOnline ti = true
  far : calThresh s < (v - (s.calT ti).tlast).natAbs
  since : ∀ e, (s.calT ti).endAt = some e → e + calGap s ≤ s.now

theorem Hot.kept {s t : State} {g ti : Nat} {v : Int} (h : Hot s g v ti) (k : Sampled s t) : Hot t g v ti := by
  obtain ⟨hrest, _, htgts, _⟩ := k
  have hcal : t.calT ti = s.calT ti := congrArg (Tab.get ({} : CalTgt) ti) htgts
  have hregs : t.regs = s.regs := by rw [hrest]
  have hnow : t.now = s.now := by rw [hrest]; exact rfl
  have hthresh : calThresh t = calThresh s := by
    unfold calThresh
    rw [State.get_of_regs hregs]
  have hgap : calGap t = calGap s := by
    unfold calGap
    rw [State.get_of_regs hregs]
  obtain ⟨hen, hg, hon, hfar, hsince⟩ := h
  refine ⟨by rw [State.flag_of_regs hregs, hen], hg, by rw [State.flag_of_regs hregs, hon], by rw [hthresh, hcal]; exact hfar, fun e he => ?_⟩
  rw [hgap, hnow]
  exact hsince e (hcal ▸ he)

theorem mem_hotTargets {s : State} {g ti : Nat} (h : Hot s g (tempOf s g) ti) : ti ∈ hotTargets s g := by
  obtain ⟨_, hg, hon, hfar, hsince⟩ := h
  unfold hotTargets
  refine List.mem_filter.mpr ⟨List.mem_flatMap.mpr ⟨ti / 8 % 8, List.mem_range.mpr (Nat.mod_lt _ (by omega)), ?_⟩, ?_⟩
  · exact List.mem_filter.mpr ⟨List.mem_map.mpr ⟨ti % 8, List.mem_range.mpr (Nat.mod_lt _ (by omega)), by omega⟩, hon⟩
  · dsimp only
    rw [decide_eq_true hfar, Bool.true_and]
    split
    · exact rfl
    · next e he => exact decide_eq_true (hsince e he)

/-- The group's temperature taken. -/
def tempTaken (g : Nat) (v : Int) (s : State) : State := { s with cal := { s.cal with tg := Tab.set 0 g v s.cal.tg } }

theorem tempTaken_sampled (g : Nat) (v : Int) (s : State) : Sampled s (tempTaken g v s) := ⟨rfl, rfl, rfl, fun _ h => h⟩

theorem sampleTemp_none {g : Nat} {s : State} (h : tempLive s g = none) : sampleTemp g s = s := by
  unfold sampleTemp
  rw [h]

/-- The targets that a sample queues. -/
def groupHot (g : Nat) (v : Int) (s : State) : List Nat := if s.flag Fld.calCtlEn then hotTargets (tempTaken g v s) g else []

theorem sampleTemp_some {g : Nat} {v : Int} {s : State} (h : tempLive s g = some v) :
    sampleTemp g s = if (groupHot g v s).isEmpty then tempTaken g v s else queueSweep (groupHot g v s) (tempTaken g v s) := by
  unfold sampleTemp
  rw [h]
  exact rfl

theorem sampleTemp_taken {g : Nat} {v : Int} {s : State} (h : tempLive s g = some v) : Sampled s (sampleTemp g s) ∧
    (sampleTemp g s).cal.tg = Tab.set 0 g v s.cal.tg ∧ ∀ ti, Hot s g v ti → Queued ti (sampleTemp g s) := by
  have htaken := tempTaken_sampled g v s
  have hmem (ti : Nat) (hot : Hot s g v ti) : ti ∈ groupHot g v s := by
    have htemp : tempOf (tempTaken g v s) g = v := Tab.get_set_same _ _ _ _
    unfold groupHot
    rw [if_pos hot.enabled]
    refine mem_hotTargets ?_
    rw [htemp]
    exact hot.kept htaken
  rw [sampleTemp_some h]
  by_cases hl : (groupHot g v s).isEmpty = true
  · rw [if_pos hl]
    refine ⟨htaken, rfl, fun ti hot => ?_⟩
    have hin := hmem ti hot
    rw [List.isEmpty_iff.mp hl] at hin
    exact absurd hin List.not_mem_nil
  · rw [if_neg hl]
    obtain ⟨hrest, hq⟩ := queueSweep_spec (groupHot g v s) (tempTaken g v s)
    have hcal := queueSweep_cal (groupHot g v s) (tempTaken g v s)
    refine ⟨htaken.trans ⟨hrest, (congrArg Cal.tempAt hcal :), (congrArg Cal.tgts hcal :), fun x hx => queueSweep_queued hx⟩, (congrArg Cal.tg hcal :), fun ti hot => ?_⟩
    exact hq ti (hmem ti hot) hot.online

theorem sampleTemp_spec (g : Nat) (s : State) : Sampled s (sampleTemp g s) ∧ ∀ g', g' ≠ g → tempOf (sampleTemp g s) g' = tempOf s g' := by
  cases h : tempLive s g with
  | none =>
    rw [sampleTemp_none h]
    exact ⟨.refl s, fun _ _ => rfl⟩
  | some v =>
    obtain ⟨hk, htg, _⟩ := sampleTemp_taken h
    refine ⟨hk, fun g' hg => ?_⟩
    unfold tempOf
    rw [htg]
    exact Tab.get_set_ne hg _ _ _ _

/-- The groups sampled one after another. -/
theorem sampleTemps_spec : ∀ (l : List Nat) (s : State), Sampled s (l.foldl (fun s g => sampleTemp g s) s) ∧
    (∀ g, g ∉ l → tempOf (l.foldl (fun s g => sampleTemp g s) s) g = tempOf s g) ∧
    (l.Nodup → ∀ g v, g ∈ l → tempLive s g = some v → tempOf (l.foldl (fun s g => sampleTemp g s) s) g = v ∧
      ∀ ti, Hot s g v ti → Queued ti (l.foldl (fun s g => sampleTemp g s) s))
  | [], s => ⟨.refl s, fun _ _ => rfl, fun _ _ _ h => absurd h List.not_mem_nil⟩
  | a :: l, s => by
    obtain ⟨hk, hne⟩ := sampleTemp_spec a s
    obtain ⟨hkl, hout, hin⟩ := sampleTemps_spec l (sampleTemp a s)
    rw [List.foldl_cons]
    refine ⟨hk.trans hkl, fun g hg => ?_, fun hn g v hg hv => ?_⟩
    · rw [List.mem_cons, not_or] at hg
      exact (hout g hg.2).trans (hne g hg.1)
    · obtain ⟨hal, hnl⟩ := List.nodup_cons.mp hn
      rcases List.mem_cons.mp hg with rfl | hm
      · obtain ⟨_, htg, hq⟩ := sampleTemp_taken hv
        refine ⟨(hout g hal).trans ?_, fun ti hot => hkl.queued ti (hq ti hot)⟩
        unfold tempOf
        rw [htg]
        exact Tab.get_set_same _ _ _ _
      · obtain ⟨ht, hq⟩ := hin hnl g v hm ((hk.live g).trans hv)
        exact ⟨ht, fun ti hot => hq ti (hot.kept hk)⟩

theorem calTempSample_samples {s : State} (hrun : s.running = true) (hat : s.cal.tempAt + 1000000 ≤ s.now) :
    ∃ t, execCalTempSample s = .next t ∧ t.cal.tempAt = s.now ∧ t.regs = s.regs ∧
      ∀ g v, g < 16 → tempLive s g = some v → tempOf t g = v ∧ ∀ ti, Hot s g v ti → Queued ti t := by
  obtain ⟨hk, _, hin⟩ := sampleTemps_spec (List.range 16) { s with cal := { s.cal with tempAt := s.now } }
  have hexec : execCalTempSample s = .next ((List.range 16).foldl (fun s g => sampleTemp g s) { s with cal := { s.cal with tempAt := s.now } }) := by
    unfold execCalTempSample
    rw [hrun, decide_eq_true hat]
    exact onlyIf_true _ _
  refine ⟨_, hexec, hk.at_, ?_, fun g v hg hv => ?_⟩
  · rw [hk.rest]
  · obtain ⟨ht, hq⟩ := hin List.nodup_range g v (List.mem_range.mpr hg) hv
    exact ⟨ht, fun ti hot => hq ti ⟨hot.enabled, hot.group, hot.online, hot.far, hot.since⟩⟩

/-! ## A write of CAL_REQ (R557) -/

theorem calReqGo_stands {s : State} {r : Req} {w : Word} (hs : Steady s) (hw : Written s r .calReq 0 w) (hgo : Fld.calReqGo.get w = 0) :
    execCalReqGo r w s = .next (s.respondWrite r .ok) := by
  have hwrite : calReqWrite w s = s := by
    unfold calReqWrite
    exact if_pos hgo
  unfold execCalReqGo
  rw [regWrite_pass hw hs, hwrite]

theorem calReqGo_queues {s : State} {r : Req} {w : Word} (hs : Steady s) (hw : Written s r .calReq 0 w) (hgo : Fld.calReqGo.get w = 1) :
    ∃ t, execCalReqGo r w s = .next t ∧ t.regs = s.regs ∧ t.resps = okSent s r ∧
      ∀ k, k < 8 → (Fld.calReqTmask.get w).testBit k = true → s.flag Fld.stkTgtcfgOnline (Fld.calReqCh.get w * 8 + k) = true →
        ∃ n, (k, n) ∈ Tab.get [] (Fld.calReqCh.get w) t.cal.queue := by
  have hexec : execCalReqGo r w s = .next ((queueSweep (((List.range 8).filter fun t => (Fld.calReqTmask.get w).testBit t).map (Fld.calReqCh.get w * 8 + ·)) s).respondWrite r .ok) := by
    have hwrite : calReqWrite w s = queueSweep (((List.range 8).filter fun t => (Fld.calReqTmask.get w).testBit t).map (Fld.calReqCh.get w * 8 + ·)) s := by
      unfold calReqWrite
      exact if_neg (by rw [hgo]; decide)
    unfold execCalReqGo
    rw [regWrite_pass hw hs, hwrite]
  obtain ⟨hrest, hq⟩ := queueSweep_spec (((List.range 8).filter fun t => (Fld.calReqTmask.get w).testBit t).map (Fld.calReqCh.get w * 8 + ·)) s
  refine ⟨_, hexec, ?_, respondWrite_resps_of_eq (by rw [hrest]) r, fun k hk hbit hon => ?_⟩
  · rw [State.respondWrite_eq, hrest]
  · obtain ⟨n, hn⟩ := hq (Fld.calReqCh.get w * 8 + k) (List.mem_map.mpr ⟨k, List.mem_filter.mpr ⟨List.mem_range.mpr hk, hbit⟩, rfl⟩) hon
    have hdiv : (Fld.calReqCh.get w * 8 + k) / 8 = Fld.calReqCh.get w := by omega
    have hmod : (Fld.calReqCh.get w * 8 + k) % 8 = k := by omega
    rw [hdiv, hmod] at hn
    refine ⟨n, ?_⟩
    rw [State.respondWrite_eq]
    exact hn

end Sys2Proof.Machine
end

section
/-! PROOFS. O44: the start, the steps and the end of a calibration run. -/
namespace Sys2Proof.Machine

/-! ## What selecting a target leaves of the calibration -/

theorem setRate_cal (c rate : Nat) (s : State) : (setRate c rate s).cal = s.cal := by
  unfold setRate
  split <;> exact rfl

theorem logOnce_cal (c t key : Nat) (s : State) : (logOnce c t key s).cal = s.cal := by
  unfold logOnce
  dsimp only
  split <;> exact rfl

theorem selectTarget_cal (c t : Nat) (s : State) : (selectTarget c t s).cal = s.cal := by
  have hchan (u : State) (y : Chan) : (u.setChan c y).cal = u.cal := rfl
  have hput (f : Fld) (v : Nat) (u : State) : (u.put f v c).cal = u.cal := rfl
  have hlog (l : List Nat) (u : State) : (l.foldl (fun s key => logOnce c t key s) u).cal = u.cal :=
    List.foldlRecOn l _ (motive := fun v : State => v.cal = u.cal) rfl fun v hv key _ => (logOnce_cal c t key v).trans hv
  unfold selectTarget selectMask
  dsimp only
  split
  · rw [hchan]
  · rw [hchan, hlog, hput, setRate_cal]

theorem startRate_cal (c rate : Nat) (s : State) : (startRate c rate s).cal = s.cal := by
  have hchan (u : State) (y : Chan) : (u.setChan c y).cal = u.cal := rfl
  rw [startRate, hchan, setRate_cal]

/-- A change of rate that is needed locks the channel (R122). -/
theorem startRate_locks {s : State} {c k : Nat} (h : needsRate s c k = true) : rateLocked (startRate c (applied s c k).rate s) c = true := by
  have hne : (applied s c k).rate ≠ s.get Fld.stkChmodeCurRate c := by
    unfold needsRate at h
    rw [Bool.and_eq_true, bne_iff_ne, bne_iff_ne] at h
    exact h.2
  obtain ⟨_, hlocked, _⟩ := startRate_status hne
  have hnow : (startRate c (applied s c k).rate s).now = s.now := by
    have hchan (u : State) (y : Chan) : (u.setChan c y).now = u.now := rfl
    rw [startRate, hchan, setRate, if_neg (Ne.symm hne), State.now_put, busPut_now, raiseCe_now]
  unfold rateLocked
  rw [hlocked, hnow]
  exact decide_eq_true (by omega)

/-! ## The start of a run (R559) -/

section
variable {s : State} {c k n : Nat} {q : List (Nat × Nat)}

/-- The head of a channel's queue taken. -/
def runTaken (c : Nat) (q : List (Nat × Nat)) (s : State) : State := { s with cal := { s.cal with queue := Tab.set [] c q s.cal.queue } }

/-- A run begun. -/
def runBegun (c k n : Nat) (s : State) : State :=
  let x := Tab.get ({} : Sweep) n s.cal.sweeps
  { s with cal := { s.cal with
    runs := Tab.put c { tgt := k, sweep := n } s.cal.runs
    sweeps := Tab.put n (if x.start.isNone then { x with start := some s.now } else x) s.cal.sweeps } }

theorem execCalRunStart_starts (hrun : s.running = true) (hst : s.stage = 9) (hfl : flushing s = false) (hc : c < 128) (hq : Tab.get [] c s.cal.queue = (k, n) :: q)
    (hr : Tab.find c s.cal.runs = none) (hm : maintFirst s c = true) : execCalRunStart c s =
    .next (if !s.flag Fld.stkTgtcfgOnline (c * 8 + k) then sweepDone n (c * 8 + k) (runTaken c q s) else runBegun c k n (runTaken c q s)) := by
  have hcond : (s.running && s.stage == 9 && !flushing s && decide (c < 128) && (Tab.find c s.cal.runs).isNone && maintFirst s c) = true := by
    rw [hrun, hst, hfl, decide_eq_true hc, hr, hm]
    exact rfl
  unfold execCalRunStart
  rw [hq]
  dsimp only
  rw [hcond]
  exact onlyIf_true _ _

theorem calRunStart_starts (hrun : s.running = true) (hst : s.stage = 9) (hfl : flushing s = false) (hc : c < 128) (hq : Tab.get [] c s.cal.queue = (k, n) :: q)
    (hr : Tab.find c s.cal.runs = none) (hm : maintFirst s c = true) : ∃ t, execCalRunStart c s = .next t ∧ Tab.get [] c t.cal.queue = q ∧ t = { s with cal := t.cal } ∧
      (s.flag Fld.stkTgtcfgOnline (c * 8 + k) = true → Tab.find c t.cal.runs = some { tgt := k, sweep := n } ∧ (Tab.get {} n t.cal.sweeps).start.isSome = true) ∧
      (s.flag Fld.stkTgtcfgOnline (c * 8 + k) = false → t.cal.runs = s.cal.runs) := by
  have hexec := execCalRunStart_starts hrun hst hfl hc hq hr hm
  cases hon : s.flag Fld.stkTgtcfgOnline (c * 8 + k) with
  | false =>
    rw [hon, if_pos Bool.not_false] at hexec
    exact ⟨_, hexec, Tab.get_set_same _ _ _ _, rfl, fun h => absurd h Bool.false_ne_true, fun _ => rfl⟩
  | true =>
    rw [hon, if_neg (by decide)] at hexec
    refine ⟨_, hexec, Tab.get_set_same _ _ _ _, rfl, fun _ => ⟨Tab.find_put_same _ _ _, ?_⟩, fun h => absurd h.symm Bool.false_ne_true⟩
    show (Tab.get ({} : Sweep) n (Tab.put n _ s.cal.sweeps)).start.isSome = true
    rw [Tab.get_put_same]
    cases hs : (Tab.get ({} : Sweep) n s.cal.sweeps).start with
    | none =>
      have hs' : (Tab.get ({} : Sweep) n (runTaken c q s).cal.sweeps).start = none := hs
      rw [hs', if_pos Option.isNone_none]
      exact rfl
    | some v =>
      have hs' : (Tab.get ({} : Sweep) n (runTaken c q s).cal.sweeps).start = some v := hs
      rw [hs', if_neg (c := (some v).isNone = true) Bool.false_ne_true, hs']
      exact rfl

end

/-! ## Steps 1 to 6 (R553) -/

section
variable {s : State} {c : Nat} {u : CalRun} {m : Train}

theorem execCalRunEnd_steps (hrun : s.running = true) (hu : Tab.find c s.cal.runs = some u) (h6 : u.six = false) (hm : maintFirst s c = true) :
    execCalRunEnd c m s = .next (if needsRate s c u.tgt then startRate c (applied s c u.tgt).rate s else runSteps c u m s) := by
  unfold execCalRunEnd
  rw [hu]
  dsimp only
  rw [h6, if_pos (by decide), hrun, hm, atRate, maintFirst_unlocked hm, if_neg Bool.false_ne_true]
  exact onlyIf_true _ _

theorem calRunEnd_rates (hrun : s.running = true) (hu : Tab.find c s.cal.runs = some u) (h6 : u.six = false) (hm : maintFirst s c = true) (hn : needsRate s c u.tgt = true) :
    ∃ t, execCalRunEnd c m s = .next t ∧ t.cal = s.cal ∧ rateLocked t c = true := by
  have hexec := execCalRunEnd_steps (m := m) hrun hu h6 hm
  rw [hn, if_pos rfl] at hexec
  exact ⟨_, hexec, startRate_cal _ _ _, startRate_locks hn⟩

/-- Step 1 of the first run of its sweep on the channel. -/
theorem zqStep_passes (hz : c ∉ (Tab.get ({} : Sweep) u.sweep s.cal.sweeps).zq) (h : zqOk s.img.cal m = true) :
    ((zqStep c u m s).calCh c).puGoal = m.pu ∧ ((zqStep c u m s).calCh c).pdGoal = m.pd ∧ (zqStep c u m s).regs = s.regs := by
  have hdo : (!(Tab.get ({} : Sweep) u.sweep s.cal.sweeps).zq.contains c) = true := by
    rw [Bool.not_eq_true', ← Bool.not_eq_true, List.contains_iff_mem]
    exact hz
  unfold zqStep
  dsimp only
  rw [hdo, h, if_pos rfl, if_pos (Bool.true_and _), Bool.not_true, Bool.and_false, if_neg Bool.false_ne_true]
  unfold State.calCh State.setCalCh
  dsimp only
  rw [Tab.get_set_same]
  exact ⟨rfl, rfl, rfl⟩

theorem zqStep_fails (hz : c ∉ (Tab.get ({} : Sweep) u.sweep s.cal.sweeps).zq) (h : zqOk s.img.cal m = false) :
    (zqStep c u m s).cal.chs = s.cal.chs ∧ (zqStep c u m s).get Fld.calStsFails = min Fld.calStsFails.max (s.get Fld.calStsFails + 1) := by
  have hdo : (!(Tab.get ({} : Sweep) u.sweep s.cal.sweeps).zq.contains c) = true := by
    rw [Bool.not_eq_true', ← Bool.not_eq_true, List.contains_iff_mem]
    exact hz
  unfold zqStep
  dsimp only
  rw [hdo, h, if_pos rfl, Bool.and_false, if_neg Bool.false_ne_true, Bool.not_false, if_pos (Bool.true_and _)]
  refine ⟨rfl, ?_⟩
  unfold calFail
  refine Eq.trans ?_ (State.get_inc_same s Fld.calStsFails (by decide) 0 1)
  exact congrArg Fld.calStsFails.get (otherRegs_logEntry _ _ _ _ _ _ _ (by decide))

theorem calRunEnd_steps (hrun : s.running = true) (hu : Tab.find c s.cal.runs = some u) (h6 : u.six = false) (hm : maintFirst s c = true) (hn : needsRate s c u.tgt = false) :
    ∃ t v, execCalRunEnd c m s = .next t ∧ Tab.find c t.cal.runs = some v ∧ v.six = true ∧ v.tgt = u.tgt ∧ v.sweep = u.sweep ∧
      v.media = ((List.range 4).map (lunKey c u.tgt)).filter s.online ∧
      ((trainMode s c u.tgt).1 = 0 → c ∉ (Tab.get {} u.sweep s.cal.sweeps).zq →
        (zqOk s.img.cal m = true → v.result = 1 ∧ (t.calCh c).puGoal = m.pu ∧ (t.calCh c).pdGoal = m.pd ∧ t.get Fld.calStsFails = s.get Fld.calStsFails) ∧
        (zqOk s.img.cal m = false → v.result = 2 ∧ t.cal.chs = s.cal.chs ∧ t.get Fld.calStsFails = min Fld.calStsFails.max (s.get Fld.calStsFails + 1))) := by
  have hexec := execCalRunEnd_steps (m := m) hrun hu h6 hm
  rw [hn, if_neg Bool.false_ne_true, runSteps_eq] at hexec
  have hkept := tgtcfgKept_runSteps c u m s
  have hasync := fun h => runSteps_async (c := c) (u := u) (s := s) h m
  generalize dirNoted c u (runWrite c u m s) = x at hexec hkept hasync
  refine ⟨_, runAfter c u m s x, hexec, Tab.find_put_same _ _ _, rfl, rfl, rfl, List.filter_congr fun k _ => hkept.online k, fun hmode hz => ?_⟩
  obtain ⟨hx, hres⟩ := hasync hmode
  have hcal : x.cal = (zqStep c u m s).cal := by
    have hraise (v : State) : (raiseCe c v).cal = v.cal := rfl
    rw [hx, hraise, selectTarget_cal]
  have hfails : x.get Fld.calStsFails = (zqStep c u m s).get Fld.calStsFails := by
    have hsel := RegsKept.selectTarget (c := c) u.tgt (zqStep c u m s) .calSts 0 (by rw [ne_eq, Prod.mk.injEq]; exact fun h => RegKind.noConfusion h.1) (by decide)
    have hraise (v : State) : (raiseCe c v).regs = v.regs := rfl
    rw [hx, State.get_of_regs (hraise _)]
    exact congrArg Fld.calStsFails.get hsel
  have hch : Tab.get ({} : CalCh) c x.cal.chs = (zqStep c u m s).calCh c := by
    rw [hcal]
    exact rfl
  have hcont : (Tab.get ({} : Sweep) u.sweep s.cal.sweeps).zq.contains c = false := by
    rw [← Bool.not_eq_true, List.contains_iff_mem]
    exact hz
  have hresult : (runAfter c u m s x).result = runResult c u m s := rfl
  refine ⟨fun hok => ?_, fun hbad => ?_⟩
  · obtain ⟨hpu, hpd, hregs⟩ := zqStep_passes hz hok
    refine ⟨?_, ?_, ?_, ?_⟩
    · rw [hresult, hres, hcont, hok]
      exact rfl
    · rw [← hpu, ← hch]
      exact rfl
    · rw [← hpd, ← hch]
      exact rfl
    · rw [← State.get_of_regs hregs Fld.calStsFails 0, ← hfails]
      exact rfl
  · obtain ⟨hchs, hget⟩ := zqStep_fails hz hbad
    refine ⟨?_, ?_, ?_⟩
    · rw [hresult, hres, hcont, hbad]
      exact rfl
    · rw [← hchs, ← hcal]
    · rw [← hget, ← hfails]
      exact rfl

/-! ## The end of a run (R567) -/

theorem calRunEnd_ends (hrun : s.running = true) (hu : Tab.find c s.cal.runs = some u) (h6 : u.six = true) (hm : u.media = []) (hw : u.wait = []) (hl : u.ledger = []) :
    ∃ t e, execCalRunEnd c m s = .next t ∧ Tab.find c t.cal.runs = none ∧
      (t.calT (c * 8 + u.tgt)).result = u.result ∧ (t.calT (c * 8 + u.tgt)).runs = min 0xFFFF ((s.calT (c * 8 + u.tgt)).runs + 1) ∧
      (t.calT (c * 8 + u.tgt)).endAt = some s.now ∧ (t.calT (c * 8 + u.tgt)).centre = (s.calT (c * 8 + u.tgt)).centre ∧
      t.get Fld.calCntCnt = min Fld.calCntCnt.max (s.get Fld.calCntCnt + 1) ∧ t.log = (e :: s.log).take 2048 ∧ e.unit = uCAL ∧ e.code = 0x1014 := by
  have hexec : execCalRunEnd c m s = .next (runEnds c u s) := by
    unfold execCalRunEnd
    rw [hu]
    dsimp only
    rw [h6, if_neg (by decide), hrun, hm, hw, hl]
    exact onlyIf_true _ _
  have hcalT : (runEnds c u s).calT (c * 8 + u.tgt) = { s.calT (c * 8 + u.tgt) with
      tlast := if (tempLive s (c / 8)).isSome then tempOf s (c / 8) else (s.calT (c * 8 + u.tgt)).tlast
      result := u.result
      runs := min 0xFFFF ((s.calT (c * 8 + u.tgt)).runs + 1)
      endAt := some s.now } := Tab.get_set_same _ _ _ _
  refine ⟨_, _, hexec, ?_, ?_, ?_, ?_, ?_, ?_, rfl, rfl, rfl⟩
  · exact Tab.find_del_same _ _
  · exact congrArg CalTgt.result hcalT
  · exact congrArg CalTgt.runs hcalT
  · exact congrArg CalTgt.endAt hcalT
  · exact (congrArg CalTgt.centre hcalT :)
  · have hregs : (runEnds c u s).regs =
      ((((s.inc Fld.calCntCnt).setReg .calLastLo 0 (wordOf s.now 0)).setReg .calLastHi 0 (wordOf s.now 1)).logPacked uCAL 0x1014 [] []).regs := rfl
    rw [State.get_of_regs hregs, State.get_logPacked _ (by decide), ← State.get_inc_same s Fld.calCntCnt (by decide)]
    exact congrArg Fld.calCntCnt.get ((State.reg_setReg_kind _ (by decide) _ _ _).trans (State.reg_setReg_kind _ (by decide) _ _ _))

end

/-- Settles O44. -/
theorem calibrationRuns : Obligations.CalibrationRuns := by
  unfold Obligations.CalibrationRuns
  refine fun s => ⟨fun hrun hat => ?_, fun r w hs hw => ⟨calReqGo_stands hs hw, calReqGo_queues hs hw⟩,
    fun c k n q hrun hst hfl hc hq hr hm => calRunStart_starts hrun hst hfl hc hq hr hm,
    fun c u m hrun hu => ⟨fun h6 hm hn => calRunEnd_rates hrun hu h6 hm hn, fun h6 hm hn => calRunEnd_steps hrun hu h6 hm hn,
      fun h6 hm hw hl => calRunEnd_ends hrun hu h6 hm hw hl⟩⟩
  obtain ⟨t, hexec, hat', hregs, hgroups⟩ := calTempSample_samples hrun hat
  refine ⟨t, hexec, hat', hregs, fun g v hg hv => ?_⟩
  obtain ⟨htemp, hqueued⟩ := hgroups g v hg hv
  refine ⟨htemp, fun hen c k hc hk hon hfar hsince => ?_⟩
  have hthresh : calThresh s < (v - (s.calT ((8 * g + c) * 8 + k)).tlast).natAbs := by
    unfold calThresh
    exact_mod_cast hfar
  obtain ⟨n, hn⟩ := hqueued ((8 * g + c) * 8 + k) ⟨hen, by omega, hon, hthresh, hsince⟩
  have hdiv : ((8 * g + c) * 8 + k) / 8 = 8 * g + c := by omega
  have hmod : ((8 * g + c) * 8 + k) % 8 = k := by omega
  rw [hdiv, hmod] at hn
  exact ⟨n, hn⟩

end Sys2Proof.Machine
end

section
/-! PROOFS. O45: walks, and the sweep deadline. -/
namespace Sys2Proof.Machine

/-! ## Walks (R564) -/

/-- One step of one walking bit. -/
def walkBit (c t : Nat) (s : State) (e : Nat × Int) : State :=
  let y := s.calT (c * 8 + t)
  let n := stepTo (Tab.get 0 e.1 y.centre) e.2
  let s1 := s.setCalT (c * 8 + t) { y with
    centre := Tab.set 0 e.1 n y.centre
    goal := if n = e.2 then Tab.del e.1 y.goal else y.goal }
  if n = e.2 then s1.clrBit .stkDskSts c ((if e.1 < 8 then 24 else 16) + e.1 % 8) else s1

theorem walkTarget_eq (c t : Nat) (s : State) : walkTarget c t s = (s.calT (c * 8 + t)).goal.foldl (walkBit c t) s := rfl

theorem calT_setCalT_same (s : State) (ti : Nat) (x : CalTgt) : (s.setCalT ti x).calT ti = x := Tab.get_set_same _ _ _ _

theorem calT_setCalT_ne {ti tj : Nat} (h : tj ≠ ti) (s : State) (x : CalTgt) : (s.setCalT ti x).calT tj = s.calT tj := Tab.get_set_ne h _ _ _ _

theorem walkBit_cal (c t : Nat) (s : State) (e : Nat × Int) : (walkBit c t s e).cal = (s.setCalT (c * 8 + t) { s.calT (c * 8 + t) with
    centre := Tab.set 0 e.1 (stepTo (Tab.get 0 e.1 (s.calT (c * 8 + t)).centre) e.2) (s.calT (c * 8 + t)).centre
    goal := if stepTo (Tab.get 0 e.1 (s.calT (c * 8 + t)).centre) e.2 = e.2 then Tab.del e.1 (s.calT (c * 8 + t)).goal else (s.calT (c * 8 + t)).goal }).cal := by
  unfold walkBit
  dsimp only
  split <;> exact rfl

/-- What a step of one bit leaves of its target, of the other targets and of the channel. -/
theorem walkBit_spec (c t : Nat) (s : State) (e : Nat × Int) : (∀ tj, tj ≠ c * 8 + t → (walkBit c t s e).calT tj = s.calT tj) ∧
    (walkBit c t s e).cal.chs = s.cal.chs ∧
    (∀ key, key ≠ e.1 → Tab.get 0 key ((walkBit c t s e).calT (c * 8 + t)).centre = Tab.get 0 key (s.calT (c * 8 + t)).centre ∧
      Tab.find key ((walkBit c t s e).calT (c * 8 + t)).goal = Tab.find key (s.calT (c * 8 + t)).goal) ∧
    Tab.get 0 e.1 ((walkBit c t s e).calT (c * 8 + t)).centre = stepTo (Tab.get 0 e.1 (s.calT (c * 8 + t)).centre) e.2 ∧
    (stepTo (Tab.get 0 e.1 (s.calT (c * 8 + t)).centre) e.2 = e.2 → Tab.find e.1 ((walkBit c t s e).calT (c * 8 + t)).goal = none) := by
  have hcal := walkBit_cal c t s e
  have hcalT (tj : Nat) : (walkBit c t s e).calT tj = _ := congrArg (fun x : Cal => Tab.get ({} : CalTgt) tj x.tgts) hcal
  have hself := (hcalT (c * 8 + t)).trans (calT_setCalT_same _ _ _)
  refine ⟨fun tj hne => (hcalT tj).trans (calT_setCalT_ne hne _ _), (congrArg Cal.chs hcal :), fun key hne => ⟨?_, ?_⟩, ?_, fun hg => ?_⟩
  · rw [hself]
    exact Tab.get_set_ne hne _ _ _ _
  · rw [hself]
    dsimp only
    split
    · exact Tab.find_del_ne hne _
    · exact rfl
  · rw [hself]
    exact Tab.get_set_same _ _ _ _
  · rw [hself]
    dsimp only
    rw [if_pos hg]
    exact Tab.find_del_same _ _

/-- The walking bits of a target step one after another. -/
theorem walkBits_spec (c t : Nat) : ∀ (l : List (Nat × Int)) (s : State), (∀ tj, tj ≠ c * 8 + t → (l.foldl (walkBit c t) s).calT tj = s.calT tj) ∧
    (l.foldl (walkBit c t) s).cal.chs = s.cal.chs ∧
    (∀ key, key ∉ l.map Prod.fst → Tab.get 0 key ((l.foldl (walkBit c t) s).calT (c * 8 + t)).centre = Tab.get 0 key (s.calT (c * 8 + t)).centre ∧
      Tab.find key ((l.foldl (walkBit c t) s).calT (c * 8 + t)).goal = Tab.find key (s.calT (c * 8 + t)).goal) ∧
    ((l.map Prod.fst).Nodup → ∀ key g, (key, g) ∈ l →
      Tab.get 0 key ((l.foldl (walkBit c t) s).calT (c * 8 + t)).centre = stepTo (Tab.get 0 key (s.calT (c * 8 + t)).centre) g ∧
      (stepTo (Tab.get 0 key (s.calT (c * 8 + t)).centre) g = g → Tab.find key ((l.foldl (walkBit c t) s).calT (c * 8 + t)).goal = none))
  | [], s => ⟨fun _ _ => rfl, rfl, fun _ _ => ⟨rfl, rfl⟩, fun _ _ _ h => absurd h List.not_mem_nil⟩
  | e :: l, s => by
    obtain ⟨hoth, hchs, hne, hcen, hgoal⟩ := walkBit_spec c t s e
    obtain ⟨hothl, hchsl, hnel, hinl⟩ := walkBits_spec c t l (walkBit c t s e)
    rw [List.foldl_cons, List.map_cons]
    refine ⟨fun tj h => (hothl tj h).trans (hoth tj h), hchsl.trans hchs, fun key hk => ?_, fun hn key g hm => ?_⟩
    · rw [List.mem_cons, not_or] at hk
      exact ⟨(hnel key hk.2).1.trans (hne key hk.1).1, (hnel key hk.2).2.trans (hne key hk.1).2⟩
    · obtain ⟨hel, hnl⟩ := List.nodup_cons.mp hn
      rcases List.mem_cons.mp hm with rfl | hm
      · exact ⟨(hnel key hel).1.trans hcen, fun h => (hnel key hel).2.trans (hgoal h)⟩
      · have hkey : key ≠ e.1 := fun h => hel (h ▸ List.mem_map.mpr ⟨_, hm, rfl⟩)
        rw [← (hne key hkey).1]
        exact hinl hnl key g hm

/-- What a walk makes of a target: every bit with a goal is one step on, and a bit that has arrived walks no more. -/
def Walked (x y : CalTgt) : Prop := (x.goal.map Prod.fst).Nodup → ∀ key g, (key, g) ∈ x.goal →
  Tab.get 0 key y.centre = stepTo (Tab.get 0 key x.centre) g ∧ (stepTo (Tab.get 0 key x.centre) g = g → Tab.find key y.goal = none)

/-- The targets of a channel walk one after another. -/
theorem walkTargets_spec (c : Nat) : ∀ (l : List Nat) (s : State), (∀ k, k ∉ l → (l.foldl (fun s t => walkTarget c t s) s).calT (c * 8 + k) = s.calT (c * 8 + k)) ∧
    (l.foldl (fun s t => walkTarget c t s) s).cal.chs = s.cal.chs ∧
    (l.Nodup → ∀ k ∈ l, Walked (s.calT (c * 8 + k)) ((l.foldl (fun s t => walkTarget c t s) s).calT (c * 8 + k)))
  | [], s => ⟨fun _ _ => rfl, rfl, fun _ _ h => absurd h List.not_mem_nil⟩
  | a :: l, s => by
    obtain ⟨hoth, hchs, _, hin⟩ := walkBits_spec c a (s.calT (c * 8 + a)).goal s
    rw [← walkTarget_eq] at hoth hchs hin
    obtain ⟨hothl, hchsl, hinl⟩ := walkTargets_spec c l (walkTarget c a s)
    rw [List.foldl_cons]
    refine ⟨fun k hk => ?_, hchsl.trans hchs, fun hn k hk => ?_⟩
    · rw [List.mem_cons, not_or] at hk
      exact (hothl k hk.2).trans (hoth _ (by omega))
    · obtain ⟨hal, hnl⟩ := List.nodup_cons.mp hn
      by_cases hka : k = a
      · subst hka
        rw [hothl k hal]
        exact hin
      · rw [← hoth (c * 8 + k) (by omega)]
        exact hinl hnl k ((List.mem_cons.mp hk).resolve_left hka)

section
variable {s : State} {c : Nat}

theorem calWalkStep_walks (hon : s.coreOn = true) (hc : c < 128) (ha : (s.chan c).act = none) (hl : rateLocked s c = false) (hw : (s.calCh c).walkAt + 1000 ≤ s.now) :
    ∃ t, execCalWalkStep c s = .next t ∧
      t.calCh c = { s.calCh c with
        pu := stepTo (s.calCh c).pu (s.calCh c).puGoal
        pd := stepTo (s.calCh c).pd (s.calCh c).pdGoal
        dcc := stepTo (s.calCh c).dcc (s.calCh c).dccGoal
        walkAt := s.now } ∧
      ∀ k, k < 8 → Walked (s.calT (c * 8 + k)) (t.calT (c * 8 + k)) := by
  obtain ⟨_, hchs, hin⟩ := walkTargets_spec c (List.range 8) (s.setCalCh c { s.calCh c with
    pu := stepTo (s.calCh c).pu (s.calCh c).puGoal
    pd := stepTo (s.calCh c).pd (s.calCh c).pdGoal
    dcc := stepTo (s.calCh c).dcc (s.calCh c).dccGoal
    walkAt := s.now })
  have hexec : execCalWalkStep c s = .next ((List.range 8).foldl (fun s t => walkTarget c t s) (s.setCalCh c { s.calCh c with
      pu := stepTo (s.calCh c).pu (s.calCh c).puGoal
      pd := stepTo (s.calCh c).pd (s.calCh c).pdGoal
      dcc := stepTo (s.calCh c).dcc (s.calCh c).dccGoal
      walkAt := s.now })) := by
    have hcond : (s.coreOn && decide (c < 128) && (s.chan c).act.isNone && !rateLocked s c && decide ((s.calCh c).walkAt + 1000 ≤ s.now)) = true := by
      rw [hon, decide_eq_true hc, ha, hl, decide_eq_true hw]
      exact rfl
    unfold execCalWalkStep
    dsimp only
    rw [hcond]
    exact onlyIf_true _ _
  refine ⟨_, hexec, ?_, fun k hk => hin List.nodup_range k (List.mem_range.mpr hk)⟩
  exact (congrArg (Tab.get ({} : CalCh) c) hchs).trans (Tab.get_set_same _ _ _ _)

end

/-! ## The sweep deadline (R566) -/

section
variable {s : State} {n ti t0 : Nat}

/-- A queued target of the sweep taken from its queue and abandoned. -/
def sweepCut (n ti : Nat) (s : State) : State :=
  sweepDone n ti (abandonTgt ti { s with cal := { s.cal with
    queue := Tab.set [] (ti / 8) ((Tab.get [] (ti / 8) s.cal.queue).filter fun e => !(e.1 == ti % 8 && e.2 == n)) s.cal.queue } })

theorem cutTarget_queued (hr : Tab.find (ti / 8) s.cal.runs = none) (hq : (ti % 8, n) ∈ Tab.get [] (ti / 8) s.cal.queue) :
    cutTarget n ti s = ((((List.range 4).map (lunKey (ti / 8) (ti % 8))).filter s.online).length, sweepCut n ti s) := by
  have hqueued : ((Tab.get [] (ti / 8) s.cal.queue).any fun e => e.1 == ti % 8 && e.2 == n) = true := by
    rw [List.any_eq_true]
    refine ⟨_, hq, ?_⟩
    rw [beq_self_eq_true, beq_self_eq_true]
    exact rfl
  unfold cutTarget
  dsimp only
  rw [hr]
  dsimp only
  rw [hqueued, if_pos rfl]
  exact rfl

theorem sweepCut_cal (hl : (Tab.get ({} : Sweep) n s.cal.sweeps).left = [ti]) : ((sweepCut n ti s).calT ti).result = 3 ∧
    (ti % 8, n) ∉ Tab.get [] (ti / 8) (sweepCut n ti s).cal.queue ∧ Tab.find n (sweepCut n ti s).cal.sweeps = none ∧ (sweepCut n ti s).regs = s.regs := by
  refine ⟨congrArg CalTgt.result (Tab.get_set_same _ _ _ _), ?_, ?_, rfl⟩
  · show (ti % 8, n) ∉ Tab.get [] (ti / 8) (Tab.set [] (ti / 8) _ s.cal.queue)
    rw [Tab.get_set_same, List.mem_filter]
    rintro ⟨_, h⟩
    rw [beq_self_eq_true, beq_self_eq_true] at h
    exact absurd h (by decide)
  · have herase : (Tab.get ({} : Sweep) n s.cal.sweeps).left.erase ti = [] := by
      rw [hl, List.erase_cons_head]
    show Tab.find n (if ((Tab.get ({} : Sweep) n s.cal.sweeps).left.erase ti).isEmpty = true then Tab.del n s.cal.sweeps else _) = none
    rw [herase, if_pos List.isEmpty_nil]
    exact Tab.find_del_same _ _

theorem calSweepDeadline_cuts (hrun : s.running = true) (hst : (Tab.get ({} : Sweep) n s.cal.sweeps).start = some t0) (hl : (Tab.get ({} : Sweep) n s.cal.sweeps).left = [ti])
    (hm : 1024 < (onlineLuns s).length) (ht : t0 + max 1 (s.get Fld.calDeadlineMs) * 1000000 ≤ s.now) (hr : Tab.find (ti / 8) s.cal.runs = none)
    (hq : (ti % 8, n) ∈ Tab.get [] (ti / 8) s.cal.queue) :
    ∃ t, execCalSweepDeadline n s = .next t ∧ (t.calT ti).result = 3 ∧ (ti % 8, n) ∉ Tab.get [] (ti / 8) t.cal.queue ∧ Tab.find n t.cal.sweeps = none ∧
      (((List.range 4).map (lunKey (ti / 8) (ti % 8))).filter s.online ≠ [] →
        t.get Fld.calDlmissLuns = min Fld.calDlmissLuns.max (s.get Fld.calDlmissLuns + (((List.range 4).map (lunKey (ti / 8) (ti % 8))).filter s.online).length) ∧
        t.get Fld.calDlmissSweeps = min Fld.calDlmissSweeps.max (s.get Fld.calDlmissSweeps + 1)) := by
  have hcut := cutTarget_queued hr hq
  obtain ⟨hres, hqueue, hsweep, hregs⟩ := sweepCut_cal hl
  generalize (((List.range 4).map (lunKey (ti / 8) (ti % 8))).filter s.online) = l at hcut ⊢
  generalize sweepCut n ti s = x at hcut hres hqueue hsweep hregs
  have hexec : execCalSweepDeadline n s = .next (if l.length = 0 then x else (x.inc Fld.calDlmissLuns 0 l.length).inc Fld.calDlmissSweeps) := by
    unfold execCalSweepDeadline
    dsimp only
    rw [hst]
    dsimp only
    rw [hrun, decide_eq_true hm, decide_eq_true ht, hl, List.foldl_cons, List.foldl_nil]
    dsimp only
    rw [hcut, Nat.zero_add]
    exact onlyIf_true _ _
  refine ⟨_, hexec, ?_⟩
  by_cases hz : l.length = 0
  · rw [if_pos hz]
    exact ⟨hres, hqueue, hsweep, fun h => absurd (List.length_eq_zero_iff.mp hz) h⟩
  · rw [if_neg hz]
    refine ⟨hres, hqueue, hsweep, fun _ => ⟨?_, ?_⟩⟩
    · refine (State.get_inc_field _ (by decide) (by decide) _ _ _).trans ?_
      rw [State.get_inc_same _ _ (by decide), State.get_of_regs hregs]
    · refine (State.get_inc_same _ _ (by decide) _ _).trans ?_
      refine congrArg (fun v => min Fld.calDlmissSweeps.max (v + 1)) ?_
      refine (State.get_inc_field _ (by decide) (by decide) _ _ _).trans ?_
      exact State.get_of_regs hregs _ _

end

end Sys2Proof.Machine
end

section
/-! PROOFS. O45: the media step. -/
namespace Sys2Proof.Machine

/-! ## The run that serves a LUN -/

theorem runOf_iff {s : State} {k : Nat} {u : CalRun} : runOf s k = some u ↔ Tab.find (lunCh k) s.cal.runs = some u ∧ u.tgt = lunTgt k := by
  unfold runOf
  cases Tab.find (lunCh k) s.cal.runs with
  | none => exact ⟨fun h => absurd h.symm (Option.some_ne_none u), fun h => absurd h.1.symm (Option.some_ne_none u)⟩
  | some v =>
    dsimp only
    constructor
    · intro h
      by_cases ht : v.tgt = lunTgt k
      · rw [if_pos ht] at h
        obtain rfl := Option.some.inj h
        exact ⟨rfl, ht⟩
      · rw [if_neg ht] at h
        exact absurd h.symm (Option.some_ne_none u)
    · rintro ⟨h, ht⟩
      obtain rfl := Option.some.inj h
      exact if_pos ht

theorem runOf_congr {s t : State} (h : t.cal.runs = s.cal.runs) (k : Nat) : runOf t k = runOf s k := by
  unfold runOf
  rw [h]

theorem runOf_modRun {s : State} {k : Nat} {u : CalRun} (h : runOf s k = some u) (f : CalRun → CalRun) (hf : (f u).tgt = u.tgt) : runOf (s.modRun k f) k = some (f u) := by
  obtain ⟨hu, ht⟩ := runOf_iff.mp h
  refine runOf_iff.mpr ⟨?_, hf.trans ht⟩
  refine (Tab.find_modify_same _ _ _).trans ?_
  rw [hu]
  exact rfl

/-! ## Gauge lines fetched -/

theorem withLines_ready {k : Nat} {bs : List Nat} {s : State} (h : linesMissing s k bs = []) (f : State → State) : withLines k bs f s = f s := by
  unfold withLines
  rw [h]
  exact if_pos rfl

theorem withLines_missing {k : Nat} {bs : List Nat} {s : State} (h : linesMissing s k bs ≠ []) (f : State → State) :
    withLines k bs f s = fetchLines k (linesMissing s k bs) s := by
  unfold withLines
  exact if_neg fun e => h (List.isEmpty_iff.mp e)

theorem fetchLines_rest (k : Nat) (bs : List Nat) (s : State) : fetchLines k bs s = { s with
    fab := (fetchLines k bs s).fab
    pwr := (fetchLines k bs s).pwr } := by
  refine List.foldlRecOn bs _ (motive := fun t : State => t = { s with
    fab := t.fab
    pwr := t.pwr }) rfl fun t ht b _ => ?_
  split
  · exact ht
  · exact State.memOnly_trans ht (dramRead_rest _ _ _ _ _)

/-- A gauge line filled changes the cache, the fetched lines and what goes to the DRAM. -/
def LinesMoved (s t : State) : Prop := t = { s with
  md := t.md
  cal := { s.cal with lines := t.cal.lines }
  fab := t.fab
  pwr := t.pwr }

theorem LinesMoved.trans {s t u : State} (h : LinesMoved s t) (g : LinesMoved t u) : LinesMoved s u := by
  unfold LinesMoved at *
  rw [g, h]

theorem gaugeFill_moves (key cls : Nat) (l : GLine) (s : State) : LinesMoved s (gaugeFill key cls l s) := by
  have hdrop (md : Media) (v : Nat) (t : State) : LinesMoved t { t with md := md, cal := { t.cal with lines := Tab.del v t.cal.lines } } := Eq.refl _
  have hwrite (a c : Nat) (d : List Byte) (p : Purpose) (t : State) : LinesMoved t (dramWrite a c d p t) := by
    unfold LinesMoved
    rw [dramWrite_rest]
  have hlast (x : GLine) (t : State) : LinesMoved t { t with md := { t.md with gauge := Tab.put key x t.md.gauge, gaugeT := t.md.gaugeT + 1 } } := Eq.refl _
  unfold gaugeFill
  dsimp only
  split
  · exact hlast _ _
  · refine LinesMoved.trans ?_ (hlast _ _)
    split
    · exact (hdrop _ _ s).trans (hwrite _ _ _ _ _)
    · exact hdrop _ _ s

/-! ## The sample reads are queued (R568) -/

theorem enqueueAll_cal (ws : List Want) (s : State) : (enqueueAll ws s).cal = s.cal :=
  List.foldlRecOn ws _ (motive := fun t : State => t.cal = s.cal) rfl fun t ht w _ => by
    refine Eq.trans ?_ ht
    rw [enqueue_rest]

/-- The samples recorded, and the LUN moved from those to come to those awaited. -/
def sampling (k : Nat) (x : Sample) (s : State) : State :=
  (({ dropLines k s with cal := { (dropLines k s).cal with samples := Tab.put k x (dropLines k s).cal.samples } } : State).modRun k fun u => { u with
    media := u.media.erase k
    wait := u.wait ++ [k] })

theorem mediaBegin_eq (k : Nat) (us : List (Nat × UnitE)) (s : State) : ∃ y before, LinesMoved s y ∧
    mediaBegin k us s = enqueueAll ((us.flatMap fun e => sampleReads y k e.1).map (sampleWant (sampling k { left := us.flatMap fun e => sampleReads y k e.1, before := before } y) k))
      (sampling k { left := us.flatMap fun e => sampleReads y k e.1, before := before } y) := by
  refine ⟨_, _, ?_, rfl⟩
  refine List.foldlRecOn (unitBlocks s k us) _ (motive := fun t : State => LinesMoved s t) (Eq.refl _) fun t ht b _ => ?_
  split
  · exact ht.trans (gaugeFill_moves _ _ _ _)
  · exact ht

theorem sampleReads_kept {s t : State} (h : LinesMoved s t) (k x : Nat) : sampleReads t k x = sampleReads s k x := by
  have hp : t.profile k = s.profile k := by
    rw [h]
    exact rfl
  unfold sampleReads
  rw [hp]

theorem mediaBegin_spec {s : State} {k : Nat} {u : CalRun} (h : runOf s k = some u) (us : List (Nat × UnitE)) :
    ∃ v x, runOf (mediaBegin k us s) k = some v ∧ v.media = u.media.erase k ∧ v.wait = u.wait ++ [k] ∧
      Tab.find k (mediaBegin k us s).cal.samples = some x ∧ x.left = us.flatMap (fun e => sampleReads s k e.1) := by
  obtain ⟨y, before, hy, heq⟩ := mediaBegin_eq k us s
  have hleft : us.flatMap (fun e => sampleReads y k e.1) = us.flatMap fun e => sampleReads s k e.1 := by
    simp only [sampleReads_kept hy]
  rw [hleft] at heq
  have hruns : y.cal.runs = s.cal.runs := by
    rw [hy]
  have hrun : runOf ({ dropLines k y with cal := { (dropLines k y).cal with
      samples := Tab.put k { left := us.flatMap fun e => sampleReads s k e.1, before := before } (dropLines k y).cal.samples } } : State) k = some u :=
    (runOf_congr (t := { dropLines k y with cal := { (dropLines k y).cal with
      samples := Tab.put k { left := us.flatMap fun e => sampleReads s k e.1, before := before } (dropLines k y).cal.samples } }) hruns k).trans h
  have hmod := runOf_modRun hrun (fun u => { u with
    media := u.media.erase k
    wait := u.wait ++ [k] }) rfl
  have hcal : (mediaBegin k us s).cal = (sampling k { left := us.flatMap fun e => sampleReads s k e.1, before := before } y).cal := by
    rw [heq, enqueueAll_cal]
  refine ⟨_, { left := us.flatMap fun e => sampleReads s k e.1, before := before }, (runOf_congr (congrArg Cal.runs hcal) k).trans hmod, rfl, rfl, ?_, rfl⟩
  rw [hcal]
  exact Tab.find_put_same _ _ _

/-! ## The end of the media step -/

theorem mediaOver_spec {s : State} {k : Nat} {u : CalRun} (h : runOf s k = some u) : (mediaOver k s).md = s.md ∧
    runOf (mediaOver k s) k = some { u with
      media := u.media.erase k
      wait := u.wait.erase k
      ledger := if s.flag Fld.calCtlLedgerEn && s.online k then u.ledger ++ [k] else u.ledger } := by
  refine ⟨rfl, ?_⟩
  have hrun : runOf (dropLines k { s with cal := { s.cal with samples := Tab.del k s.cal.samples } }) k = some u := h
  exact runOf_modRun hrun (fun u => { u with
    media := u.media.erase k
    wait := u.wait.erase k
    ledger := if s.flag Fld.calCtlLedgerEn && s.online k then u.ledger ++ [k] else u.ledger }) rfl

/-! ## The re-seed -/

/-- The re-seed of one block's line. -/
def reseedBlock (k : Nat) (d : List Int) (s : State) (b : Nat) : State :=
  match lineOf s k b with
  | none => s
  | some l =>
    let n := reseedLine s k d l
    if (Tab.find (blockKey k b) s.md.gauge).isSome then { s with md := { s.md with gauge := Tab.put (blockKey k b) n s.md.gauge } }
    else dramWrite (gaugeAddr s k b) 3 (glineBytes n) (.gaugeWrite (blockKey k b)) s

theorem reseed_eq (k : Nat) (d : List Int) (s : State) : reseed k d s = (unitBlocks s k (lunUnits s k [2, 3])).foldl (reseedBlock k d) s := rfl

theorem lineOf_cached {s : State} {k b : Nat} {l : GLine} (h : Tab.find (blockKey k b) s.md.gauge = some l) : lineOf s k b = some l := by
  unfold lineOf
  rw [h]

/-- A re-seed changes gauge lines in the cache and in the DRAM. -/
def GaugeMoved (s t : State) : Prop := t = { s with
  md := { s.md with gauge := t.md.gauge }
  fab := t.fab
  pwr := t.pwr }

theorem GaugeMoved.trans {s t u : State} (h : GaugeMoved s t) (g : GaugeMoved t u) : GaugeMoved s u := by
  unfold GaugeMoved at *
  rw [g, h]

theorem GaugeMoved.reseedLine {s t : State} (h : GaugeMoved s t) (k : Nat) (d : List Int) (l : GLine) : reseedLine t k d l = reseedLine s k d l := by
  have hp : t.profile k = s.profile k := by
    rw [h]
    exact rfl
  have hspan : t.get Fld.cryGaugeCfgSpan = s.get Fld.cryGaugeCfgSpan := by
    rw [h]
    exact rfl
  unfold Machine.reseedLine
  rw [hp, hspan]

theorem blockKey_inj {k a b : Nat} (h : blockKey k a = blockKey k b) : a = b := Nat.add_left_cancel h

theorem reseedBlock_spec (k : Nat) (d : List Int) (s : State) (b : Nat) : GaugeMoved s (reseedBlock k d s b) ∧
    (∀ key, key ≠ blockKey k b → Tab.find key (reseedBlock k d s b).md.gauge = Tab.find key s.md.gauge) ∧
    ∀ l, Tab.find (blockKey k b) s.md.gauge = some l → Tab.find (blockKey k b) (reseedBlock k d s b).md.gauge = some (reseedLine s k d l) := by
  unfold reseedBlock
  cases hl : lineOf s k b with
  | none => exact ⟨Eq.refl _, fun _ _ => rfl, fun l h => absurd (hl.symm.trans (lineOf_cached h)).symm (Option.some_ne_none l)⟩
  | some m =>
    dsimp only
    by_cases hg : (Tab.find (blockKey k b) s.md.gauge).isSome = true
    · rw [if_pos hg]
      refine ⟨Eq.refl _, fun key hk => Tab.find_put_ne hk _ _, fun l h => ?_⟩
      obtain rfl := Option.some.inj (hl.symm.trans (lineOf_cached h))
      exact Tab.find_put_same _ _ _
    · rw [if_neg hg]
      have hmd : (dramWrite (gaugeAddr s k b) 3 (glineBytes (reseedLine s k d m)) (.gaugeWrite (blockKey k b)) s).md = s.md := by
        rw [dramWrite_rest]
      refine ⟨?_, fun key _ => by rw [hmd], fun l h => absurd (by rw [h]; exact rfl) hg⟩
      unfold GaugeMoved
      rw [dramWrite_rest]

theorem reseedBlocks_spec (k : Nat) (d : List Int) : ∀ (bs : List Nat) (s : State), GaugeMoved s (bs.foldl (reseedBlock k d) s) ∧
    (∀ key, (∀ b ∈ bs, key ≠ blockKey k b) → Tab.find key (bs.foldl (reseedBlock k d) s).md.gauge = Tab.find key s.md.gauge) ∧
    (bs.Nodup → ∀ b ∈ bs, ∀ l, Tab.find (blockKey k b) s.md.gauge = some l →
      Tab.find (blockKey k b) (bs.foldl (reseedBlock k d) s).md.gauge = some (reseedLine s k d l))
  | [], s => ⟨Eq.refl _, fun _ _ => rfl, fun _ _ h => absurd h List.not_mem_nil⟩
  | a :: bs, s => by
    obtain ⟨hm, hne, hat⟩ := reseedBlock_spec k d s a
    obtain ⟨hml, hnel, hinl⟩ := reseedBlocks_spec k d bs (reseedBlock k d s a)
    rw [List.foldl_cons]
    refine ⟨hm.trans hml, fun key hk => ?_, fun hn b hb l hl => ?_⟩
    · rw [List.forall_mem_cons] at hk
      exact (hnel key hk.2).trans (hne key hk.1)
    · obtain ⟨ha, hn'⟩ := List.nodup_cons.mp hn
      rcases List.mem_cons.mp hb with rfl | hb
      · refine Eq.trans (hnel _ fun x hx h => ha ?_) (hat l hl)
        rw [blockKey_inj h]
        exact hx
      · rw [← hm.reseedLine]
        exact hinl hn' b hb l ((hne _ fun h => ha ((blockKey_inj h) ▸ hb)).trans hl)

/-! ## MEDIA_STEP (R568) -/

section
variable {s : State} {k : Nat} {u : CalRun}

theorem mediaStep_ends (hrun : s.running = true) (hu : runOf s k = some u) (hk : k ∈ u.media) (h : latestUnits 4 (lunUnits s k [3]) = [] ∨ s.online k = false) :
    ∃ t v, execMediaStep k s = .next t ∧ runOf t k = some v ∧ v.media = u.media.erase k ∧ t.md = s.md ∧
      v.ledger = if s.flag Fld.calCtlLedgerEn && s.online k then u.ledger ++ [k] else u.ledger := by
  obtain ⟨hmd, hv⟩ := mediaOver_spec hu
  have hcond : (latestUnits 4 (lunUnits s k [3])).isEmpty = true ∨ (!s.online k) = true :=
    h.imp (fun e => by rw [e]; exact rfl) fun e => by rw [e]; exact rfl
  have hexec : execMediaStep k s = .next (mediaOver k s) := by
    unfold execMediaStep
    rw [hu]
    dsimp only
    rw [if_pos (List.contains_iff_mem.mpr hk), if_pos hcond, hrun]
    exact onlyIf_true _ _
  exact ⟨_, _, hexec, hv, rfl, hmd, rfl⟩

theorem mediaStep_samples (hrun : s.running = true) (hu : runOf s k = some u) (hk : k ∈ u.media) (hus : latestUnits 4 (lunUnits s k [3]) ≠ []) (hon : s.online k = true) :
    ∃ t, execMediaStep k s = .next t ∧
      (linesMissing s k (unitBlocks s k (latestUnits 4 (lunUnits s k [3]))) ≠ [] → t.cal = s.cal ∧ t.md = s.md ∧ t.regs = s.regs) ∧
      (linesMissing s k (unitBlocks s k (latestUnits 4 (lunUnits s k [3]))) = [] → ∃ v x, runOf t k = some v ∧ v.media = u.media.erase k ∧ v.wait = u.wait ++ [k] ∧
        Tab.find k t.cal.samples = some x ∧ x.left = (latestUnits 4 (lunUnits s k [3])).flatMap (fun e => sampleReads s k e.1)) := by
  have hcond : ¬ ((latestUnits 4 (lunUnits s k [3])).isEmpty = true ∨ (!s.online k) = true) := by
    rw [hon, not_or]
    exact ⟨fun e => hus (List.isEmpty_iff.mp e), Bool.false_ne_true⟩
  have hexec : execMediaStep k s = .next (withLines k (unitBlocks s k (latestUnits 4 (lunUnits s k [3]))) (mediaBegin k (latestUnits 4 (lunUnits s k [3]))) s) := by
    unfold execMediaStep
    rw [hu]
    dsimp only
    rw [if_pos (List.contains_iff_mem.mpr hk), if_neg hcond, hrun]
    exact onlyIf_true _ _
  refine ⟨_, hexec, fun hm => ?_, fun hm => ?_⟩
  · rw [withLines_missing hm, fetchLines_rest]
    exact ⟨rfl, rfl, rfl⟩
  · rw [withLines_ready hm]
    exact mediaBegin_spec hu _

theorem execMediaStep_waits {x : Sample} (hrun : s.running = true) (hu : runOf s k = some u) (hk : k ∉ u.media) (hw : k ∈ u.wait) (hx : Tab.find k s.cal.samples = some x)
    (hl : x.left = []) (hm : linesMissing s k (x.before.map (·.1)) = []) : execMediaStep k s = .next (if (mediaDelta s k x.before).all (· == 0) then mediaOver k s
      else withLines k (unitBlocks s k (lunUnits s k [2, 3])) (fun s' => mediaOver k (reseed k (mediaDelta s k x.before) s')) s) := by
  unfold execMediaStep
  rw [hu]
  dsimp only
  rw [if_neg fun h => hk (List.contains_iff_mem.mp h), if_pos (List.contains_iff_mem.mpr hw), hx]
  dsimp only
  rw [hrun, hl, withLines_ready hm]
  exact onlyIf_true _ _

theorem mediaStep_still {x : Sample} (hrun : s.running = true) (hu : runOf s k = some u) (hk : k ∉ u.media) (hw : k ∈ u.wait) (hx : Tab.find k s.cal.samples = some x)
    (hl : x.left = []) (hm : linesMissing s k (x.before.map (·.1)) = []) (hd : (mediaDelta s k x.before).all (· == 0) = true) :
    ∃ t v, execMediaStep k s = .next t ∧ runOf t k = some v ∧ v.wait = u.wait.erase k ∧ t.md = s.md := by
  have hexec := execMediaStep_waits hrun hu hk hw hx hl hm
  rw [if_pos hd] at hexec
  obtain ⟨hmd, hv⟩ := mediaOver_spec hu
  exact ⟨_, _, hexec, hv, rfl, hmd⟩

theorem mediaStep_reseeds {x : Sample} (hrun : s.running = true) (hu : runOf s k = some u) (hk : k ∉ u.media) (hw : k ∈ u.wait) (hx : Tab.find k s.cal.samples = some x)
    (hl : x.left = []) (hm : linesMissing s k (x.before.map (·.1)) = []) (hd : (mediaDelta s k x.before).all (· == 0) = false)
    (hall : linesMissing s k (unitBlocks s k (lunUnits s k [2, 3])) = []) (hn : (unitBlocks s k (lunUnits s k [2, 3])).Nodup) :
    ∃ t v, execMediaStep k s = .next t ∧ runOf t k = some v ∧ v.wait = u.wait.erase k ∧
      ∀ b l, b ∈ unitBlocks s k (lunUnits s k [2, 3]) → Tab.find (blockKey k b) s.md.gauge = some l →
        Tab.find (blockKey k b) t.md.gauge = some (reseedLine s k (mediaDelta s k x.before) l) := by
  have hexec := execMediaStep_waits hrun hu hk hw hx hl hm
  rw [if_neg (by rw [hd]; exact Bool.false_ne_true), withLines_ready hall, reseed_eq] at hexec
  obtain ⟨hmoved, _, hin⟩ := reseedBlocks_spec k (mediaDelta s k x.before) (unitBlocks s k (lunUnits s k [2, 3])) s
  generalize (unitBlocks s k (lunUnits s k [2, 3])).foldl (reseedBlock k (mediaDelta s k x.before)) s = y at hexec hmoved hin
  have hruns : y.cal.runs = s.cal.runs := by
    rw [hmoved]
  obtain ⟨hmd, hv⟩ := mediaOver_spec ((runOf_congr hruns k).trans hu)
  refine ⟨_, _, hexec, hv, rfl, fun b l hb hb' => ?_⟩
  rw [hmd]
  exact hin hn b hb l hb'

end

end Sys2Proof.Machine
end

section
/-! PROOFS. O45: the ledger. -/
namespace Sys2Proof.Machine

section
variable {s : State} {k : Nat} {u : CalRun}

theorem ledgerLeaves_spec (h : runOf s k = some u) : (ledgerLeaves k s).md = s.md ∧ (ledgerLeaves k s).cal.due = s.cal.due ∧
    (ledgerLeaves k s).cal.ledgers = s.cal.ledgers ∧ runOf (ledgerLeaves k s) k = some { u with ledger := u.ledger.erase k } := by
  have heq : ledgerLeaves k s = s.modRun k fun u => { u with ledger := u.ledger.erase k } := by
    unfold ledgerLeaves
    rw [h]
    exact if_pos rfl
  rw [heq]
  exact ⟨rfl, rfl, rfl, runOf_modRun h (fun u => { u with ledger := u.ledger.erase k }) rfl⟩

theorem ledger_inRun (hu : runOf s k = some u) (hk : k ∈ u.ledger) : ((runOf s k).any fun u => u.ledger.contains k) = true := by
  rw [hu]
  exact List.contains_iff_mem.mpr hk

/-- R571: a write within 60 s of the last one is folded into the next. -/
theorem ledgerWrite_folds {t0 : Nat} (hrun : s.running = true) (hu : runOf s k = some u) (hk : k ∈ u.ledger) (hon : s.online k = true)
    (hat : (s.ledgerOf k).at_ = some t0) (ht : s.now < t0 + 60000000000) :
    ∃ t v, execLedgerWrite k s = .next t ∧ k ∈ t.cal.due ∧ runOf t k = some v ∧ v.ledger = u.ledger.erase k ∧ t.md = s.md := by
  have hexec : execLedgerWrite k s = .next (ledgerLeaves k { s with cal := { s.cal with due := k :: s.cal.due.erase k } }) := by
    have hsoon : ((s.ledgerOf k).at_.any fun t => decide (s.now < t + 60000000000)) = true := by
      rw [hat, Option.any_some, decide_eq_true ht]
    unfold execLedgerWrite
    dsimp only
    rw [ledger_inRun hu hk, Bool.true_or, if_neg (by decide), hon, if_neg (by decide), if_pos hsoon, hrun]
    exact onlyIf_true _ _
  have hrunOf : runOf ({ s with cal := { s.cal with due := k :: s.cal.due.erase k } } : State) k = some u := hu
  obtain ⟨hmd, hdue, _, hv⟩ := ledgerLeaves_spec hrunOf
  refine ⟨_, _, hexec, ?_, hv, rfl, hmd⟩
  rw [hdue]
  exact List.mem_cons_self

/-- What a ledger write of no LUN within its 60 s does. -/
theorem execLedgerWrite_later (hrun : s.running = true) (hu : runOf s k = some u) (hk : k ∈ u.ledger) (hon : s.online k = true)
    (hat : ∀ t0, (s.ledgerOf k).at_ = some t0 → t0 + 60000000000 ≤ s.now) (hb : ledgerBusy s k = false) :
    execLedgerWrite k s = .next (if (s.profile k).wlPerBlk ≤ (s.ledgerOf k).page then queueErase (ledgerUnit s k (!(s.ledgerOf k).second)) s
      else withLines k (unitBlocks s k (lunUnits s k [3])) (fun s' =>
        ledgerLeaves k (dropLines k (ledgerPage k { s' with cal := { s'.cal with due := s'.cal.due.erase k } }))) s) := by
  have hsoon : ((s.ledgerOf k).at_.any fun t => decide (s.now < t + 60000000000)) = false := by
    cases h : (s.ledgerOf k).at_ with
    | none => exact Option.any_none
    | some t0 => rw [Option.any_some, decide_eq_false (Nat.not_lt.mpr (hat t0 h))]
  unfold execLedgerWrite
  dsimp only
  rw [ledger_inRun hu hk, Bool.true_or, if_neg (by decide), hon, if_neg (by decide), if_neg (by rw [hsoon]; exact Bool.false_ne_true), hrun, hb]
  by_cases hp : (s.profile k).wlPerBlk ≤ (s.ledgerOf k).page
  · rw [if_pos hp, if_pos hp]
    exact onlyIf_true _ _
  · rw [if_neg hp, if_neg hp]
    exact onlyIf_true _ _

/-- One page of the ledger (R571, R572). -/
theorem ledgerPage_spec (k : Nat) (s : State) : (ledgerPage k s).cal.runs = s.cal.runs ∧
    (ledgerPage k s).ledgerOf k = { s.ledgerOf k with
      page := (s.ledgerOf k).page + 1
      lseq := (s.ledgerOf k).lseq + 1
      at_ := some s.now } ∧
    ∃ w ∈ ((ledgerPage k s).lun k).queue, w.kind = 1 ∧ w.cls = 3 ∧ w.page = ⟨k, ledgerBlock s k (s.ledgerOf k).second, (s.ledgerOf k).page, true⟩ := by
  refine ⟨rfl, ?_, ?_⟩
  · exact Tab.get_put_same _ _ _ _
  · exact mem_queue_enqueue (fun w => w.kind = 1 ∧ w.cls = 3 ∧ w.page = ⟨k, ledgerBlock s k (s.ledgerOf k).second, (s.ledgerOf k).page, true⟩) rfl _
      fun _ => ⟨rfl, rfl, rfl⟩

theorem ledgerWrite_writes (hrun : s.running = true) (hu : runOf s k = some u) (hk : k ∈ u.ledger) (hon : s.online k = true)
    (hat : ∀ t0, (s.ledgerOf k).at_ = some t0 → t0 + 60000000000 ≤ s.now) (hb : ledgerBusy s k = false) (hp : (s.ledgerOf k).page < (s.profile k).wlPerBlk)
    (hm : linesMissing s k (unitBlocks s k (lunUnits s k [3])) = []) :
    ∃ t v w, execLedgerWrite k s = .next t ∧ runOf t k = some v ∧ v.ledger = u.ledger.erase k ∧ w ∈ (t.lun k).queue ∧ w.kind = 1 ∧ w.cls = 3 ∧
      w.page = ⟨k, ledgerBlock s k (s.ledgerOf k).second, (s.ledgerOf k).page, true⟩ ∧
      t.ledgerOf k = { s.ledgerOf k with
        page := (s.ledgerOf k).page + 1
        lseq := (s.ledgerOf k).lseq + 1
        at_ := some s.now } := by
  have hexec := execLedgerWrite_later hrun hu hk hon hat hb
  rw [if_neg (Nat.not_le.mpr hp), withLines_ready hm] at hexec
  obtain ⟨hruns, hledger, w, hw, hkind, hcls, hpage⟩ := ledgerPage_spec k { s with cal := { s.cal with due := s.cal.due.erase k } }
  generalize ledgerPage k { s with cal := { s.cal with due := s.cal.due.erase k } } = y at hexec hruns hledger hw
  have hrunOf : runOf (dropLines k y) k = some u := (runOf_congr (t := dropLines k y) hruns k).trans hu
  obtain ⟨hmd, _, hledgers, hv⟩ := ledgerLeaves_spec hrunOf
  refine ⟨_, _, w, hexec, hv, rfl, ?_, hkind, hcls, hpage, ?_⟩
  · unfold State.lun
    rw [hmd]
    exact hw
  · unfold State.ledgerOf at hledger ⊢
    rw [hledgers]
    exact hledger

theorem ledgerWrite_erases (hrun : s.running = true) (hu : runOf s k = some u) (hk : k ∈ u.ledger) (hon : s.online k = true)
    (hat : ∀ t0, (s.ledgerOf k).at_ = some t0 → t0 + 60000000000 ≤ s.now) (hb : ledgerBusy s k = false) (hp : (s.profile k).wlPerBlk ≤ (s.ledgerOf k).page) :
    ∃ t w, execLedgerWrite k s = .next t ∧ t.cal = s.cal ∧
      w ∈ (t.lun (unitLun (ledgerUnit s k (!(s.ledgerOf k).second)))).queue ∧ w.kind = 2 ∧ w.why = .erase (ledgerUnit s k (!(s.ledgerOf k).second)) := by
  have hexec := execLedgerWrite_later hrun hu hk hon hat hb
  rw [if_pos hp] at hexec
  obtain ⟨w, hw, hkind, hwhy, _⟩ := eraseQueued_queueErase_same (ledgerUnit s k (!(s.ledgerOf k).second)) s
  exact ⟨_, w, hexec, by rw [queueErase_rest], hw, hkind, hwhy⟩

end

/-- Settles O45. -/
theorem calibrationSteps : Obligations.CalibrationSteps := by
  unfold Obligations.CalibrationSteps
  refine ⟨fun s c hon hc ha hl hw => ?_, fun s n ti t0 hrun hst hl hm ht hr hq => calSweepDeadline_cuts hrun hst hl hm ht hr hq,
    fun s k u hrun hu => ⟨fun hk h => mediaStep_ends hrun hu hk h, fun hk hus hon => mediaStep_samples hrun hu hk hus hon,
      fun x hk hw hx hl hm => ⟨fun hd => mediaStep_still hrun hu hk hw hx hl hm hd, fun hd hall hn => mediaStep_reseeds hrun hu hk hw hx hl hm hd hall hn⟩⟩,
    fun s k u hrun hu hk hon => ⟨fun t0 hat ht => ledgerWrite_folds hrun hu hk hon hat ht,
      fun hat hb => ⟨fun hp hm => ledgerWrite_writes hrun hu hk hon hat hb hp hm, fun hp => ledgerWrite_erases hrun hu hk hon hat hb hp⟩⟩⟩
  obtain ⟨t, hexec, hch, hwalk⟩ := calWalkStep_walks hon hc ha hl hw
  exact ⟨t, hexec, hch, fun k key g hk hn hm => hwalk k hk hn key g hm⟩

end Sys2Proof.Machine
end

section
/-! PROOFS. O46: sense sources, the ceiling comparator and its switch. -/
namespace Sys2Proof.Machine

/-! ## Sense frames (R64, R66, R67) -/

theorem sense_setSense_same (s : State) (n : Nat) (x : Sense) : (s.setSense n x).sense n = x := Tab.get_put_same _ _ _ _

theorem sense_setSense_ne {n m : Nat} (h : m ≠ n) (s : State) (x : Sense) : (s.setSense n x).sense m = s.sense m := Tab.get_put_ne h _ _ _

section
variable {s : State} {src : BitVec 6} {v : BitVec 16} {par : Bool}

/-- The frame's parity is wrong. -/
def OddFrame (src : BitVec 6) (v : BitVec 16) (par : Bool) : Prop := (countOnes src + countOnes v + par.toNat) % 2 = 1

theorem senseFrame_odd (hon : s.coreOn = true) (h : OddFrame src v par) : ∃ t, execSenseFrame src v par s = .next t ∧ t = { s with regs := t.regs } ∧
    OtherRegs s t .drgSnsErr 0 ∧ t.get Fld.drgSnsErrParity = min 65535 (s.get Fld.drgSnsErrParity + 1) ∧ t.get Fld.drgSnsErrBadsrc = s.get Fld.drgSnsErrBadsrc := by
  have hexec : execSenseFrame src v par s = .next (s.inc Fld.drgSnsErrParity) := by
    unfold execSenseFrame
    dsimp only
    rw [onCore_next hon, if_pos (beq_iff_eq.mpr h)]
  exact ⟨_, hexec, rfl, otherRegs_put s Fld.drgSnsErrParity _ 0, State.get_inc_same s Fld.drgSnsErrParity (by decide) 0 1,
    State.get_inc_field s (by decide) (by decide) 0 1 0⟩

theorem senseFrame_reserved (hon : s.coreOn = true) (h : ¬ OddFrame src v par) (hlo : 34 ≤ src.toNat) (hhi : src.toNat < 40 ∨ 60 ≤ src.toNat) :
    ∃ t, execSenseFrame src v par s = .next t ∧ t = { s with regs := t.regs } ∧ OtherRegs s t .drgSnsErr 0 ∧
      t.get Fld.drgSnsErrBadsrc = min 65535 (s.get Fld.drgSnsErrBadsrc + 1) ∧ t.get Fld.drgSnsErrParity = s.get Fld.drgSnsErrParity := by
  have hdef : definedSrc src.toNat = false := by
    unfold definedSrc currentSrc tempSrc
    rw [decide_eq_false (by omega), decide_eq_false (by omega), Bool.or_self]
  have hexec : execSenseFrame src v par s = .next (s.inc Fld.drgSnsErrBadsrc) := by
    unfold execSenseFrame
    dsimp only
    rw [onCore_next hon, if_neg fun e => h (beq_iff_eq.mp e), hdef, if_pos Bool.not_false]
  exact ⟨_, hexec, rfl, otherRegs_put s Fld.drgSnsErrBadsrc _ 0, State.get_inc_same s Fld.drgSnsErrBadsrc (by decide) 0 1,
    State.get_inc_field s (by decide) (by decide) 0 1 0⟩

theorem definedSrc_iff (n : Nat) : definedSrc n = true ↔ n < 34 ∨ (40 ≤ n ∧ n < 60) := by
  unfold definedSrc currentSrc tempSrc
  rw [Bool.or_eq_true, decide_eq_true_eq, decide_eq_true_eq]

theorem senseValue_eq {n : Nat} (h : n < 34 ∨ (40 ≤ n ∧ n < 60)) (v : BitVec 16) : senseValue n v = if n < 34 then (v.toNat : Int) else v.toInt := by
  unfold senseValue tempSrc
  rcases h with h | h
  · rw [if_pos h, decide_eq_false (by omega), if_neg Bool.false_ne_true]
  · rw [if_neg (Nat.not_lt.mpr (by omega)), decide_eq_true h, if_pos rfl]

theorem senseFrame_taken (hon : s.coreOn = true) (h : ¬ OddFrame src v par) (hsrc : src.toNat < 34 ∨ (40 ≤ src.toNat ∧ src.toNat < 60)) :
    ∃ t, execSenseFrame src v par s = .next t ∧
      t.sense src.toNat = {
        sum := (s.sense src.toNat).sum + (if src.toNat < 34 then (v.toNat : Int) else v.toInt)
        count := (s.sense src.toNat).count + 1
        last := some (if src.toNat < 34 then (v.toNat : Int) else v.toInt)
        at_ := s.now } ∧
      (∀ m, m ≠ src.toNat → t.sense m = s.sense m) ∧ t.bit (staleKind src.toNat) 0 (src.toNat % 32) = false ∧ OtherRegs s t (staleKind src.toNat) 0 := by
  generalize hn : src.toNat = n at hsrc ⊢
  have hexec : execSenseFrame src v par s = .next ((s.setSense n { s.sense n with
      sum := (s.sense n).sum + senseValue n v
      count := (s.sense n).count + 1
      last := some (senseValue n v)
      at_ := s.now
      stale := none
      reported := false }).clrBit (staleKind n) 0 (n % 32)) := by
    unfold execSenseFrame
    dsimp only
    rw [onCore_next hon, if_neg fun e => h (beq_iff_eq.mp e), hn, (definedSrc_iff n).mpr hsrc, if_neg (by decide)]
  rw [← senseValue_eq hsrc]
  refine ⟨_, hexec, sense_setSense_same s n _, fun m hm => sense_setSense_ne hm s _, ?_, otherRegs_clrBit _ _ _ _⟩
  rw [State.bit_clrBit, decide_eq_true rfl]
  exact rfl

end

/-! ## Stale sources (R67, R534) -/

section
variable {s : State} {n : Nat}

theorem sourceStale_sets (hon : s.coreOn = true) (hp : populated s n = true) (hs : (s.sense n).stale = none) (ht : (s.sense n).at_ + 3000 ≤ s.now) :
    ∃ t, execSourceStale n s = .next t ∧ t.sense n = { s.sense n with stale := some s.now } ∧ t.bit (staleKind n) 0 (n % 32) = true ∧ OtherRegs s t (staleKind n) 0 := by
  have hexec : execSourceStale n s = .next ((s.setSense n { s.sense n with stale := some s.now }).setBit (staleKind n) 0 (n % 32)) := by
    unfold execSourceStale
    dsimp only
    rw [hon, hp, hs, decide_eq_true ht]
    exact onlyIf_true _ _
  refine ⟨_, hexec, sense_setSense_same s n _, ?_, ?_⟩
  · rw [State.bit_setBit _ _ _ _ _ _ _ (Nat.mod_lt _ (by omega)), decide_eq_true rfl, Bool.true_or]
  · exact otherRegs_setReg (s.setSense n _) (staleKind n) 0 _

theorem staleReport_reports {t0 : Nat} (hon : s.coreOn = true) (hs : (s.sense n).stale = some t0) (hr : (s.sense n).reported = false) (ht : t0 + 100000 ≤ s.now) :
    ∃ t e, execStaleReport n s = .next t ∧ t.flag Fld.drgStsStale = true ∧ t.log = (e :: s.log).take 2048 ∧ e.unit = uDRG ∧ e.code = 0x1012 ∧
      (t.sense n).reported = true := by
  have hexec : execStaleReport n s = .next (((s.setSense n { s.sense n with reported := true }).putFlag Fld.drgStsStale true).logPacked uDRG 0x1012 [(1, n)]) := by
    unfold execStaleReport
    dsimp only
    rw [hs]
    dsimp only
    rw [hon, hr, decide_eq_true ht]
    exact onlyIf_true _ _
  refine ⟨_, _, hexec, ?_, rfl, rfl, rfl, congrArg Sense.reported (sense_setSense_same s n { s.sense n with reported := true })⟩
  rw [State.flag_logPacked _ (by decide)]
  exact State.flag_putFlag _ Fld.drgStsStale rfl (by decide) true 0

end

/-! ## STOP shown (R541, Table 18-5) -/

theorem showStop_dg (s : State) : (showStop s).dg = s.dg := by
  unfold showStop
  dsimp only
  split <;> exact rfl

theorem showStop_stop (s : State) : (showStop s).flag Fld.drgStsStop = (s.dg.stop || s.flag Fld.trpStsTherm) := by
  unfold showStop
  dsimp only
  by_cases h : (s.dg.stop || s.flag Fld.trpStsTherm) = true ∧ (!s.flag Fld.drgStsStop) = true
  · rw [if_pos h, State.flag_logPacked _ (by decide), h.1]
    refine (State.flag_put_field _ (by decide) (by decide) _ 0 0).trans ?_
    exact State.flag_putFlag s Fld.drgStsStop rfl (by decide) true 0
  · rw [if_neg h]
    exact State.flag_putFlag s Fld.drgStsStop rfl (by decide) _ 0

/-- Each setting is counted and logged. -/
theorem showStop_counts {s : State} (h : (s.dg.stop || s.flag Fld.trpStsTherm) = true) (hs : s.flag Fld.drgStsStop = false) :
    (showStop s).get Fld.drgStsStops = min 65535 (s.get Fld.drgStsStops + 1) ∧ ∃ e, (showStop s).log = (e :: s.log).take 2048 ∧ e.unit = uDRG ∧ e.code = 0x1013 := by
  have heq : showStop s = ((s.putFlag Fld.drgStsStop true).inc Fld.drgStsStops).logPacked uDRG 0x1013 := by
    unfold showStop
    dsimp only
    exact if_pos ⟨h, by rw [hs]; exact rfl⟩
  rw [heq]
  refine ⟨?_, _, rfl, rfl, rfl⟩
  rw [State.get_logPacked _ (by decide)]
  refine (State.get_inc_same _ Fld.drgStsStops (by decide) 0 1).trans ?_
  exact congrArg (fun x => min 65535 (x + 1)) (State.get_putFlag_field s (by decide) (by decide) true 0 0)

theorem showStop_regs (s : State) (k : RegKind) (i : Nat) (hk : (k, i) ≠ (.drgSts, 0)) (hl : k ≠ .glbLogSeq) : (showStop s).reg k i = s.reg k i := by
  unfold showStop
  dsimp only
  split
  · rw [State.reg_logPacked _ hl]
    exact (otherRegs_put _ Fld.drgStsStops _ 0 k i hk).trans (otherRegs_putFlag s Fld.drgStsStop true 0 k i hk)
  · exact otherRegs_putFlag s Fld.drgStsStop _ 0 k i hk

end Sys2Proof.Machine
end

section
/-! PROOFS. O46: the ceiling comparator. -/
namespace Sys2Proof.Machine

/-! ## An evaluation (R541, R542) -/

/-- The latest accepted value of a source. -/
def srcValue (s : State) (n : Nat) : Int := ((s.sense n).last).getD 0

theorem latest_taken {s : State} : ∀ {l : List Nat}, (∀ n ∈ l, (s.sense n).last.isSome = true) → latest l s = (l.map (srcValue s), s)
  | [], _ => rfl
  | n :: l, h => by
    rw [List.forall_mem_cons] at h
    obtain ⟨x, hx⟩ := Option.isSome_iff_exists.mp h.1
    have hval : srcValue s n = x := by
      unfold srcValue
      rw [hx, Option.getD_some]
    unfold latest
    rw [hx]
    dsimp only
    rw [latest_taken h.2, List.map_cons, hval]

/-- The currents' sum, and the limits. -/
def ceilSum (s : State) : Int := min 0xFFFFF ((((ceilSrcs s).filter fun n => decide (n < 34)).map (srcValue s)).foldl (· + ·) 0)
def ceilTemp (s : State) : Int := (BitVec.ofNat 16 (s.get Fld.drgCeilCfg2TLim)).toInt
def ceilStale (s : State) : Bool := (ceilSrcs s).any fun k => (s.sense k).stale.isSome

/-- Over a limit, and under the release levels. -/
def ceilHigh (s : State) : Bool :=
  ceilStale s || decide ((s.get Fld.drgCeilCfgILim : Int) < ceilSum s) || (((ceilSrcs s).filter tempSrc).map (srcValue s)).any fun t => decide (ceilTemp s < t)
def ceilCalm (s : State) : Bool :=
  !ceilStale s && decide (ceilSum s ≤ (s.get Fld.drgCeilCfgILim : Int) - 8 * (s.get Fld.drgCeilCfgIHyst : Int))
    && (((ceilSrcs s).filter tempSrc).map (srcValue s)).all fun t => decide (t ≤ ceilTemp s - (s.get Fld.drgCeilCfg2THyst : Int))

/-- The comparator after an evaluation. -/
def ceilJudged (high calm : Bool) (s : State) : State := { s with dg := { s.dg with
  above := if high then s.dg.above + 1 else 0
  below := if calm then s.dg.below + 1 else 0
  stop := if neval s ≤ (if high then s.dg.above + 1 else 0) then true else if neval s ≤ (if calm then s.dg.below + 1 else 0) then false else s.dg.stop
  evalAt := s.now } }

section
variable {s : State}

theorem ceilSrcs_defined {n : Nat} (h : n ∈ ceilSrcs s) : n < 34 ∨ (40 ≤ n ∧ n < 60) := by
  obtain ⟨_, h⟩ := List.mem_filter.mp h
  rw [Bool.and_eq_true, Bool.and_eq_true] at h
  exact (definedSrc_iff n).mp h.1.1

theorem execCeilingEvaluation_judges (hon : s.coreOn = true) (hen : s.flag Fld.drgCtlCeilEn = true) (ht : s.dg.evalAt + 1000 ≤ s.now)
    (hl : ∀ n ∈ ceilSrcs s, (s.sense n).last.isSome = true) : execCeilingEvaluation s = .next (showStop (ceilJudged (ceilHigh s) (ceilCalm s) s)) := by
  unfold execCeilingEvaluation
  dsimp only
  rw [latest_taken fun n hn => hl n (List.mem_of_mem_filter hn), hon, hen, decide_eq_true ht]
  dsimp only
  rw [latest_taken fun n hn => hl n (List.mem_of_mem_filter hn)]
  exact onlyIf_true _ _

theorem ceilStale_iff : ceilStale s = true ↔ ∃ n ∈ ceilSrcs s, (s.sense n).stale.isSome = true := List.any_eq_true

theorem tempAbove_iff : ((((ceilSrcs s).filter tempSrc).map (srcValue s)).any fun t => decide (ceilTemp s < t)) = true ↔
    ∃ n ∈ ceilSrcs s, 40 ≤ n ∧ ceilTemp s < srcValue s n := by
  rw [List.any_eq_true]
  constructor
  · rintro ⟨t, ht, hlt⟩
    obtain ⟨n, hn, rfl⟩ := List.mem_map.mp ht
    obtain ⟨hn, htemp⟩ := List.mem_filter.mp hn
    exact ⟨n, hn, (of_decide_eq_true htemp).1, of_decide_eq_true hlt⟩
  · rintro ⟨n, hn, h40, hlt⟩
    have hdef := ceilSrcs_defined hn
    exact ⟨_, List.mem_map.mpr ⟨n, List.mem_filter.mpr ⟨hn, decide_eq_true ⟨h40, by omega⟩⟩, rfl⟩, decide_eq_true hlt⟩

/-- A source that is over a limit is not under the release levels. -/
theorem ceilCalm_of_high (h : ceilHigh s = true) : ceilCalm s = false := by
  unfold ceilHigh at h
  rw [Bool.or_eq_true, Bool.or_eq_true, decide_eq_true_eq] at h
  rw [← Bool.not_eq_true]
  intro hcalm
  unfold ceilCalm at hcalm
  rw [Bool.and_eq_true, Bool.and_eq_true, Bool.not_eq_true', decide_eq_true_eq, List.all_eq_true] at hcalm
  obtain ⟨⟨hst, hsum⟩, htemps⟩ := hcalm
  rcases h with (h | h) | h
  · exact absurd h (by rw [hst]; exact Bool.false_ne_true)
  · omega
  · obtain ⟨t, ht, hlt⟩ := List.any_eq_true.mp h
    have hle := of_decide_eq_true (htemps t ht)
    have hlt := of_decide_eq_true hlt
    omega

theorem neval_pos : 1 ≤ neval s := Nat.le_max_left _ _

theorem ceilingEvaluation_over (hon : s.coreOn = true) (hen : s.flag Fld.drgCtlCeilEn = true) (ht : s.dg.evalAt + 1000 ≤ s.now)
    (hl : ∀ n ∈ ceilSrcs s, (s.sense n).last.isSome = true) (h : ceilHigh s = true) :
    ∃ t, execCeilingEvaluation s = .next t ∧ t.dg.above = s.dg.above + 1 ∧ t.dg.below = 0 ∧ t.dg.evalAt = s.now ∧
      (neval s ≤ s.dg.above + 1 → t.flag Fld.drgStsStop = true ∧ (s.flag Fld.drgStsStop = false →
        t.get Fld.drgStsStops = min 65535 (s.get Fld.drgStsStops + 1) ∧ ∃ e, t.log = (e :: s.log).take 2048 ∧ e.unit = uDRG ∧ e.code = 0x1013)) ∧
      (s.dg.above + 1 < neval s → t.dg.stop = s.dg.stop) := by
  have hexec := execCeilingEvaluation_judges hon hen ht hl
  have hdg : (showStop (ceilJudged (ceilHigh s) (ceilCalm s) s)).dg = (ceilJudged true false s).dg := by
    rw [showStop_dg, h, ceilCalm_of_high h]
  rw [h, ceilCalm_of_high h] at hexec hdg
  have hstop : (ceilJudged true false s).dg.stop = if neval s ≤ s.dg.above + 1 then true else if neval s ≤ 0 then false else s.dg.stop := rfl
  refine ⟨_, hexec, by rw [hdg]; exact rfl, by rw [hdg]; exact rfl, by rw [hdg]; exact rfl, fun hn => ?_, fun hn => ?_⟩
  · rw [if_pos hn] at hstop
    refine ⟨?_, fun hs => showStop_counts (s := ceilJudged true false s) ?_ hs⟩
    · rw [showStop_stop, hstop, Bool.true_or]
    · rw [hstop, Bool.true_or]
  · rw [hdg, hstop, if_neg (Nat.not_le.mpr hn), if_neg (Nat.not_le.mpr neval_pos)]

theorem ceilingEvaluation_under (hon : s.coreOn = true) (hen : s.flag Fld.drgCtlCeilEn = true) (ht : s.dg.evalAt + 1000 ≤ s.now)
    (hl : ∀ n ∈ ceilSrcs s, (s.sense n).last.isSome = true) (h : ceilCalm s = true) :
    ∃ t, execCeilingEvaluation s = .next t ∧ t.dg.below = s.dg.below + 1 ∧ t.dg.above = 0 ∧
      (neval s ≤ s.dg.below + 1 → t.flag Fld.drgStsStop = s.flag Fld.trpStsTherm) := by
  have hhigh : ceilHigh s = false := by
    rw [← Bool.not_eq_true]
    intro e
    exact absurd (ceilCalm_of_high e) (by rw [h]; exact Bool.true_eq_false_eq_False.elim)
  have hexec := execCeilingEvaluation_judges hon hen ht hl
  have hdg : (showStop (ceilJudged false true s)).dg = (ceilJudged false true s).dg := showStop_dg _
  rw [h, hhigh] at hexec
  have hstop : (ceilJudged false true s).dg.stop = if neval s ≤ 0 then true else if neval s ≤ s.dg.below + 1 then false else s.dg.stop := rfl
  refine ⟨_, hexec, by rw [hdg]; exact rfl, by rw [hdg]; exact rfl, fun hn => ?_⟩
  rw [if_neg (Nat.not_le.mpr neval_pos), if_pos hn] at hstop
  rw [showStop_stop, hstop, Bool.false_or]
  exact rfl

end

/-! ## CEIL_EN (R542) -/

section
variable {s : State} {r : Req} {w : Word}

theorem ceilEn_plainWrite (s : State) (w : Word) : (s.plainWrite .drgCtl 0 w).flag Fld.drgCtlCeilEn = (Fld.drgCtlCeilEn.get w != 0) := by
  unfold State.flag
  exact congrArg (· != 0) (State.get_plainWrite_rw s Fld.drgCtlCeilEn (by decide) (by decide) (by decide) (by decide) 0 w)

theorem ceilEnWrite_clears (hs : Steady s) (hw : Written s r .drgCtl 0 w) (hen : Fld.drgCtlCeilEn.get w = 0) :
    ∃ t, execCeilEnWrite r w s = .next t ∧ t.flag Fld.drgCtlCeilEn = false ∧ t.dg.stop = false ∧ t.flag Fld.drgStsStop = s.flag Fld.trpStsTherm := by
  have hflag : (s.plainWrite .drgCtl 0 w).flag Fld.drgCtlCeilEn = false := by
    rw [ceilEn_plainWrite, hen]
    exact rfl
  have hexec : execCeilEnWrite r w s = .next ((showStop { s.plainWrite .drgCtl 0 w with dg := { s.dg with
      stop := false
      above := 0
      below := 0 } }).respondWrite r .ok) := by
    unfold execCeilEnWrite
    rw [regWrite_pass hw hs, drgCtlWrite]
    dsimp only
    rw [hflag, if_pos Bool.not_false]
    exact rfl
  have htherm : (s.plainWrite .drgCtl 0 w).flag Fld.trpStsTherm = s.flag Fld.trpStsTherm := State.flag_setReg_kind s (by decide) 0 0 _
  refine ⟨_, hexec, ?_, ?_, ?_⟩
  · rw [State.flag_respondWrite, ← hflag]
    refine congrArg (fun x => Fld.drgCtlCeilEn.get x != 0) ?_
    exact (showStop_regs _ .drgCtl 0 (by decide) (by decide)).trans rfl
  · rw [State.respondWrite_eq, showStop_dg]
  · rw [State.flag_respondWrite, showStop_stop, Bool.false_or]
    exact htherm

theorem ceilEnWrite_sets (hs : Steady s) (hw : Written s r .drgCtl 0 w) (hen : Fld.drgCtlCeilEn.get w = 1) (hwas : s.flag Fld.drgCtlCeilEn = false) :
    ∃ t, execCeilEnWrite r w s = .next t ∧ t.flag Fld.drgCtlCeilEn = true ∧ t.dg.stop = s.dg.stop ∧ t.dg.above = 0 ∧ t.dg.below = 0 ∧
      OtherRegs s t .drgCtl 0 ∧ t.resps = okSent s r := by
  have hflag : (s.plainWrite .drgCtl 0 w).flag Fld.drgCtlCeilEn = true := by
    rw [ceilEn_plainWrite, hen]
    exact rfl
  have hexec : execCeilEnWrite r w s = .next (({ s.plainWrite .drgCtl 0 w with dg := { s.dg with
      above := 0
      below := 0
      evalAt := s.now } } : State).respondWrite r .ok) := by
    unfold execCeilEnWrite
    rw [regWrite_pass hw hs, drgCtlWrite]
    dsimp only
    rw [hflag, hwas, if_neg (by decide), if_pos Bool.not_false]
    exact rfl
  refine ⟨_, hexec, ?_, ?_, ?_, ?_, ?_, respondWrite_resps_of_eq rfl r⟩
  · rw [State.flag_respondWrite, ← hflag]
    exact rfl
  · rw [State.respondWrite_eq]
  · rw [State.respondWrite_eq]
  · rw [State.respondWrite_eq]
  · exact fun k i h => (State.reg_respondWrite _ _ _ _ _).trans (otherRegs_plainWrite s .drgCtl 0 w k i h)

end

/-- Settles O46. -/
theorem sensesAndComparator : Obligations.SensesAndComparator := by
  unfold Obligations.SensesAndComparator
  refine fun s hon => ⟨fun src v par => ⟨fun h => senseFrame_odd hon h, fun h hlo hhi => senseFrame_reserved hon h hlo hhi, fun h hsrc => senseFrame_taken hon h hsrc⟩,
    fun n hp hs ht => sourceStale_sets hon hp hs ht, fun n t0 hs hr ht => staleReport_reports hon hs hr ht, fun hen ht hl => ⟨fun h => ?_, fun hst hsum htemp => ?_⟩,
    fun r w hs hw => ⟨fun hen => ceilEnWrite_clears hs hw hen, fun hen hwas => ceilEnWrite_sets hs hw hen hwas⟩⟩
  · refine ceilingEvaluation_over hon hen ht hl ?_
    unfold ceilHigh
    rw [Bool.or_eq_true, Bool.or_eq_true, decide_eq_true_eq]
    rcases h with h | h | h
    · exact .inl (.inl (ceilStale_iff.mpr h))
    · exact .inl (.inr h)
    · exact .inr (tempAbove_iff.mpr h)
  · refine ceilingEvaluation_under hon hen ht hl ?_
    unfold ceilCalm
    rw [Bool.and_eq_true, Bool.and_eq_true, Bool.not_eq_true', decide_eq_true_eq, List.all_eq_true]
    refine ⟨⟨Bool.eq_false_iff.mpr fun h => hst (ceilStale_iff.mp h), hsum⟩, fun t ht => ?_⟩
    obtain ⟨n, hn, rfl⟩ := List.mem_map.mp ht
    obtain ⟨hn, h40⟩ := List.mem_filter.mp hn
    exact decide_eq_true (htemp n hn (of_decide_eq_true h40).1)

end Sys2Proof.Machine
end

section
/-! PROOFS. O47: a tick of one loop. -/
namespace Sys2Proof.Machine

/-! ## The measurement (R532) -/

/-- What a loop's law reads of the state is the same. -/
structure LoopReads (n : Nat) (s t : State) : Prop where
  regs : ∀ k, k ≠ .drgLoopSts → t.reg k n = s.reg k n
  loop : t.loop n = s.loop n
  src : t.dg.src = s.dg.src

namespace LoopReads
variable {n : Nat} {s t u : State}

theorem refl (s : State) : LoopReads n s s := ⟨fun _ _ => rfl, rfl, rfl⟩

theorem trans (h : LoopReads n s t) (g : LoopReads n t u) : LoopReads n s u :=
  ⟨fun k hk => (g.regs k hk).trans (h.regs k hk), g.loop.trans h.loop, g.src.trans h.src⟩

theorem get (h : LoopReads n s t) {f : Fld} (hf : f.kind ≠ .drgLoopSts) : t.get f n = s.get f n := congrArg f.get (h.regs f.kind hf)

theorem flag (h : LoopReads n s t) {f : Fld} (hf : f.kind ≠ .drgLoopSts) : t.flag f n = s.flag f n := congrArg (fun w => f.get w != 0) (h.regs f.kind hf)

theorem sense (h : LoopReads n s t) (k : Nat) : t.sense k = s.sense k := congrArg (Tab.get ({} : Sense) k) h.src

theorem srcs (h : LoopReads n s t) : loopSrcs t n = loopSrcs s n := by
  have hlo (k : Nat) : t.bit .drgLoopSrcLo n k = s.bit .drgLoopSrcLo n k := congrArg (BitVec.getLsbD · k) (h.regs _ (by decide))
  have hhi (k : Nat) : t.bit .drgLoopSrcHi n k = s.bit .drgLoopSrcHi n k := congrArg (BitVec.getLsbD · k) (h.regs _ (by decide))
  unfold loopSrcs
  simp only [hlo, hhi]

theorem stale (h : LoopReads n s t) : loopStale t n = loopStale s n := by
  unfold loopStale
  simp only [h.srcs, h.sense]

theorem tgt (h : LoopReads n s t) : loopTgt t n = loopTgt s n := by
  unfold loopTgt
  rw [h.get (by decide)]

end LoopReads

theorem senseMeans_rest : ∀ (l : List Nat) (s : State), (senseMeans l s).2 = { s with freeCtr := (senseMeans l s).2.freeCtr }
  | [], _ => rfl
  | n :: l, s => by
    have hone : (senseMean n s).2 = { s with freeCtr := (senseMean n s).2.freeCtr } := by
      unfold senseMean
      dsimp only
      split <;> exact rfl
    unfold senseMeans
    dsimp only
    rw [senseMeans_rest l, hone]

/-- The mean of a source that has frames. -/
def frameMean (s : State) (n : Nat) : Int := (s.sense n).sum.tdiv (s.sense n).count

theorem senseMeans_known {s : State} : ∀ {l : List Nat}, (∀ k ∈ l, (s.sense k).count ≠ 0) → senseMeans l s = (l.map (frameMean s), s)
  | [], _ => rfl
  | n :: l, h => by
    rw [List.forall_mem_cons] at h
    have hone : senseMean n s = (frameMean s n, s) := by
      unfold senseMean
      exact if_neg h.1
    unfold senseMeans
    dsimp only
    rw [hone]
    dsimp only
    rw [senseMeans_known h.2]
    exact rfl

theorem loopInput_rest (n : Nat) (s : State) : (loopInput n s).2 = { s with freeCtr := (loopInput n s).2.freeCtr } := senseMeans_rest _ _

/-- A measurement from sources that all have frames. -/
theorem loopInput_congr {n : Nat} {s t : State} (h : LoopReads n s t) (hc : ∀ k ∈ loopSrcs s n, (s.sense k).count ≠ 0) : (loopInput n t).1 = (loopInput n s).1 := by
  have hmean : frameMean t = frameMean s := funext fun k => by
    unfold frameMean
    rw [h.sense]
  have hc' : ∀ k ∈ loopSrcs s n, (t.sense k).count ≠ 0 := fun k hk => by
    rw [h.sense]
    exact hc k hk
  unfold loopInput
  dsimp only
  rw [h.srcs, senseMeans_known hc, senseMeans_known hc', hmean, h.get (by decide), h.flag (by decide)]

/-! ## The law's values (R535, R538) -/

section
variable (n : Nat) (yq : Word) (s : State)

def lawGen : Word × Word × Word :=
  generator (loopTgt s n) (limitOf (s.reg .drgLoopVmax n)) (limitOf (s.reg .drgLoopAmax n)) (limitOf (s.reg .drgLoopJmax n)) (s.reg .drgLoopSp n) (s.loop n).v (s.loop n).a
def lawE : Alu 32 := aluSubs (lawGen n s).1 yq
def lawP : Alu 32 := aluMulq 16 (gainOf (s.reg .drgLoopKp n)) (lawE n yq s).val
def lawDy : Alu 32 := aluSubs (if (s.loop n).load = 0 then (s.loop n).yq else yq) yq
def lawD : Alu 32 := aluMulq 16 (gainOf (s.reg .drgLoopKd n)) (lawDy n yq s).val
def lawPi : Alu 32 := aluAdd (lawP n yq s).val (s.reg .drgLoopI n)
def lawBase : Alu 32 := aluAdd (lawPi n yq s).val (lawD n yq s).val
def lawBad : Bool := (lawE n yq s).v || (lawP n yq s).v || (lawDy n yq s).v || (lawD n yq s).v || (lawPi n yq s).v || (lawBase n yq s).v
def lawSt : Alu 32 := aluMulq 16 (gainOf (s.reg .drgLoopKi n)) (lawE n yq s).val
def lawOut : Nat := if lawBad n yq s then 0 else (clampW 0 0x10000 (lawBase n yq s).val).toNat
def lawStep : Word × Bool := integrate (s.reg .drgLoopI n) (lawSt n yq s) (lawBase n yq s).val (lawBad n yq s) (loopStale s n)
def lawOuts : Tab Nat :=
  ((List.range 16).filter fun k => (s.get Fld.drgLoopCtlGrp n).testBit k).map fun k => (k, groupOut s n k (lawBase n yq s).val (lawBad n yq s) (loopStale s n))

end

section
variable {n : Nat} {s t : State}

theorem lawGen_congr (h : LoopReads n s t) : lawGen n t = lawGen n s := by
  unfold lawGen
  rw [h.tgt, h.regs _ (by decide), h.regs _ (by decide), h.regs _ (by decide), h.regs _ (by decide), h.loop]

theorem lawE_congr (h : LoopReads n s t) (yq : Word) : lawE n yq t = lawE n yq s := by
  unfold lawE
  rw [lawGen_congr h]

theorem lawSt_congr (h : LoopReads n s t) (yq : Word) : lawSt n yq t = lawSt n yq s := by
  unfold lawSt
  rw [lawE_congr h, h.regs _ (by decide)]

theorem lawBase_congr (h : LoopReads n s t) (yq : Word) : lawBase n yq t = lawBase n yq s ∧ lawBad n yq t = lawBad n yq s := by
  have hp : lawP n yq t = lawP n yq s := by
    unfold lawP
    rw [lawE_congr h, h.regs _ (by decide)]
  have hdy : lawDy n yq t = lawDy n yq s := by
    unfold lawDy
    rw [h.loop]
  have hd : lawD n yq t = lawD n yq s := by
    unfold lawD
    rw [hdy, h.regs _ (by decide)]
  have hpi : lawPi n yq t = lawPi n yq s := by
    unfold lawPi
    rw [hp, h.regs _ (by decide)]
  have hbase : lawBase n yq t = lawBase n yq s := by
    unfold lawBase
    rw [hpi, hd]
  refine ⟨hbase, ?_⟩
  unfold lawBad
  rw [lawE_congr h, hp, hdy, hd, hpi, hbase]

theorem lawOut_congr (h : LoopReads n s t) (yq : Word) : lawOut n yq t = lawOut n yq s := by
  unfold lawOut
  rw [(lawBase_congr h yq).1, (lawBase_congr h yq).2]

theorem lawStep_congr (h : LoopReads n s t) (yq : Word) : lawStep n yq t = lawStep n yq s := by
  unfold lawStep
  rw [(lawBase_congr h yq).1, (lawBase_congr h yq).2, lawSt_congr h, h.stale, h.regs _ (by decide)]

/-! ## The integrator (R535) -/

theorem lawStep_holds {yq : Word} (h : loopStale s n = true ∨ (lawSt n yq s).v = true) : (lawStep n yq s).1 = s.reg .drgLoopI n := by
  unfold lawStep integrate
  rw [if_pos h]

theorem lawStep_rises {yq : Word} (hs : loopStale s n = false) (hv : (lawSt n yq s).v = false) (hpos : 0 < (lawSt n yq s).val.toInt) (hb : lawBad n yq s = false)
    (hbase : (lawBase n yq s).val.toInt < 0x10000) : (lawStep n yq s).1 = s.reg .drgLoopI n + (lawSt n yq s).val := by
  unfold lawStep integrate
  rw [if_neg (by rw [hs, hv]; decide), if_pos ⟨hpos, by rw [hb]; exact rfl, hbase⟩]
  refine BitVec.eq_of_toInt_eq ?_
  rw [BitVec.toInt_add]
  exact BitVec.toInt_ofInt _

theorem lawStep_falls {yq : Word} (hs : loopStale s n = false) (hv : (lawSt n yq s).v = false) (hneg : (lawSt n yq s).val.toInt < 0) (hi : 0 ≤ (s.reg .drgLoopI n).toInt) :
    (lawStep n yq s).1.toInt = max 0 ((s.reg .drgLoopI n).toInt + (lawSt n yq s).val.toInt) := by
  unfold lawStep integrate
  rw [if_neg (by rw [hs, hv]; decide), if_neg fun e => by omega, if_pos ⟨hneg, hi⟩]
  dsimp only
  have hlt := BitVec.toInt_lt (x := s.reg .drgLoopI n)
  by_cases h : (s.reg .drgLoopI n).toInt + (lawSt n yq s).val.toInt < 0
  · rw [if_pos h, max_eq_left (by omega)]
    exact rfl
  · rw [if_neg h, max_eq_right (by omega), BitVec.toInt_add]
    exact Int.bmod_eq_of_le (by omega) (by omega)

/-! ## The outputs (R535) -/

theorem clampW_le (x : Word) : (clampW 0 0x10000 x).toNat ≤ 0x10000 := by
  unfold clampW
  by_cases h0 : x.toInt < (0 : Word).toInt
  · rw [if_pos h0]
    decide
  · rw [if_neg h0]
    by_cases h1 : (0x10000 : Word).toInt < x.toInt
    · rw [if_pos h1]
      decide
    · rw [if_neg h1]
      have hz : (0 : Word).toInt = 0 := rfl
      have ho : (0x10000 : Word).toInt = 0x10000 := rfl
      rw [hz] at h0
      rw [ho] at h1
      have hx := BitVec.toInt_eq_toNat_cond x
      split at hx <;> omega

theorem lawOut_le (yq : Word) : lawOut n yq s ≤ 0x10000 := by
  unfold lawOut
  split
  · exact Nat.zero_le _
  · exact clampW_le _

theorem groupOut_plain (h : s.flag Fld.drgLoopCtlFfEn n = false) (g : Nat) (yq : Word) (stale : Bool) :
    groupOut s n g (lawBase n yq s).val (lawBad n yq s) stale = min (lawOut n yq s) (if stale then staleLvl s n else 0x10000) := by
  have hle := lawOut_le (n := n) (s := s) yq
  have hadd (b : Word) : aluAdd b 0 = { val := b } := by
    unfold aluAdd aluWrap
    dsimp only
    have hz : BitVec.toInt (0 : Word) = 0 := rfl
    rw [hz, Int.add_zero, BitVec.ofInt_toInt, decide_eq_false (by rw [ne_eq, not_not])]
  have hout : (if lawBad n yq s || false || false then 0 else (clampW 0 0x10000 (lawBase n yq s).val).toNat) = lawOut n yq s := by
    rw [Bool.or_false, Bool.or_false]
    exact rfl
  unfold groupOut
  rw [h, if_neg Bool.false_ne_true]
  dsimp only
  rw [hadd]
  dsimp only
  rw [hout]
  cases stale with
  | true => rw [if_pos rfl, if_pos rfl]
  | false => rw [if_neg Bool.false_ne_true, if_neg Bool.false_ne_true, Nat.min_eq_left hle]

theorem find_map_pairs (f : Nat → Nat) (g : Nat) : ∀ {l : List Nat}, g ∈ l → Tab.find g (l.map fun k => (k, f k)) = some (f g)
  | a :: l, h => by
    rw [List.map_cons]
    unfold Tab.find
    by_cases ha : a = g
    · rw [if_pos ha, ha]
    · rw [if_neg ha]
      exact find_map_pairs f g ((List.mem_cons.mp h).resolve_left (Ne.symm ha))

theorem lawOuts_plain (h : s.flag Fld.drgLoopCtlFfEn n = false) (yq : Word) {g : Nat} (hg : g < 16) (hb : (s.get Fld.drgLoopCtlGrp n).testBit g = true) :
    Tab.find g (lawOuts n yq s) = some (min (lawOut n yq s) (if loopStale s n then staleLvl s n else 0x10000)) := by
  unfold lawOuts
  rw [find_map_pairs _ g (List.mem_filter.mpr ⟨List.mem_range.mpr hg, hb⟩), groupOut_plain h]

end

end Sys2Proof.Machine
end

section
/-! PROOFS. O47: a tick of the loops, and the levels it forms. -/
namespace Sys2Proof.Machine

/-! ## What a loop's tick leaves -/

/-- A register that a tick moves. -/
def TickKind (k : RegKind) : Prop := k = .drgLoopSp ∨ k = .drgLoopI ∨ k = .drgLoopSts

/-- The tick of a loop moves that loop's own state. -/
structure TickOf (n : Nat) (s t : State) : Prop where
  rest : t = { s with
    regs := t.regs
    freeCtr := t.freeCtr
    dg := { s.dg with loops := t.dg.loops } }
  kinds : ∀ k i, ¬ TickKind k → t.reg k i = s.reg k i
  others : ∀ m, m ≠ n → (∀ k, t.reg k m = s.reg k m) ∧ t.loop m = s.loop m

namespace TickOf
variable {n : Nat} {s t u : State}

theorem refl (s : State) : TickOf n s s := ⟨rfl, fun _ _ _ => rfl, fun _ _ => ⟨fun _ => rfl, rfl⟩⟩

theorem trans (h : TickOf n s t) (g : TickOf n t u) : TickOf n s u :=
  ⟨g.rest.trans (by rw [h.rest]), fun k i hk => (g.kinds k i hk).trans (h.kinds k i hk),
    fun m hm => ⟨fun k => ((g.others m hm).1 k).trans ((h.others m hm).1 k), (g.others m hm).2.trans (h.others m hm).2⟩⟩

theorem setReg {k : RegKind} (hk : TickKind k) (w : Word) (s : State) : TickOf n s (s.setReg k n w) :=
  ⟨rfl, fun j i hj => State.reg_setReg_kind s (fun e => hj (by rw [e]; exact hk)) n i w, fun m hm => ⟨fun j => State.reg_setReg_index s hm k j w, rfl⟩⟩

theorem put {f : Fld} (hf : f.kind = .drgLoopSts) (v : Nat) (s : State) : TickOf n s (s.put f v n) := setReg (.inr (.inr hf)) _ s

theorem setLoop (x : DLoop) (s : State) : TickOf n s (s.setLoop n x) := ⟨rfl, fun _ _ _ => rfl, fun _ hm => ⟨fun _ => rfl, Tab.get_put_ne hm _ _ _⟩⟩

theorem loadLoop (s : State) : TickOf n s (loadLoop n s) :=
  ((setReg (.inl rfl) _ s).trans (setReg (.inr (.inl rfl)) _ _)).trans (setLoop _ _)

theorem input (s : State) : TickOf n s (loopInput n s).2 := by
  rw [loopInput_rest]
  exact ⟨rfl, fun _ _ _ => rfl, fun _ _ => ⟨fun _ => rfl, rfl⟩⟩

theorem reads (h : TickOf n s t) {m : Nat} (hm : m ≠ n) : LoopReads m s t :=
  ⟨fun k _ => (h.others m hm).1 k, (h.others m hm).2, by rw [h.rest]⟩

end TickOf

/-! ## A loop's tick -/

/-- The input taken and the stale bit shown. -/
def loopMarked (n : Nat) (s : State) : State := (loopInput n s).2.putFlag Fld.drgLoopStsStale (loopStale s n) n

/-- What a loop's tick stores. -/
def loopPut (n : Nat) (i : Word × Bool) (base : Nat) (sp : Word) (x : DLoop) (s : State) : State :=
  let s1 := (s.setReg .drgLoopSp n sp).setReg .drgLoopI n i.1
  ((if i.2 then s1.inc Fld.drgLoopStsWraps n else s1).put Fld.drgLoopStsBase base n).setLoop n x

section
variable {n : Nat} {s : State}

theorem loopStale_input (n : Nat) (s : State) : loopStale (loopInput n s).2 n = loopStale s n := by
  rw [loopInput_rest]
  exact rfl

theorem loop_input (n : Nat) (s : State) : (loopInput n s).2.loop n = s.loop n := by
  rw [loopInput_rest]
  exact rfl

theorem flag_loopMarked {f : Fld} (h : f.kind ≠ .drgLoopSts) : (loopMarked n s).flag f n = s.flag f n := by
  refine (State.flag_putFlag_kind _ h _ _ _).trans ?_
  rw [loopInput_rest]
  exact rfl

theorem loopMarked_tick (n : Nat) (s : State) : TickOf n s (loopMarked n s) := (TickOf.input s).trans (.put rfl _ _)

theorem loopMarked_reads (n : Nat) (s : State) : LoopReads n s (loopMarked n s) := by
  refine ⟨fun k hk => ?_, loop_input n s, ?_⟩
  · refine (State.reg_put_kind _ hk _ _ _).trans ?_
    rw [loopInput_rest]
    exact rfl
  · show (loopInput n s).2.dg.src = s.dg.src
    rw [loopInput_rest]

/-- R545: a frozen loop measures, and holds. -/
theorem tickLoop_frozen (hen : s.flag Fld.drgLoopCtlEn n = true) (hl : (s.loop n).load ≠ 2) (hf : s.flag Fld.drgLoopCtlFreeze n = true) :
    tickLoop n s = (loopMarked n s).setLoop n { s.loop n with
      yq := BitVec.ofInt 32 ((loopInput n s).1 * 65536)
      load := 0 } := by
  have hfreeze : ((loopInput n s).2.putFlag Fld.drgLoopStsStale (loopStale s n) n).flag Fld.drgLoopCtlFreeze n = true :=
    (flag_loopMarked (n := n) (s := s) (by decide)).trans hf
  unfold tickLoop
  dsimp only
  rw [hen, if_neg (by decide), loop_input, if_neg hl, loopStale_input, hfreeze, if_pos rfl, loop_input]
  exact rfl

/-- R535, R538: any other runs its generator and its law. -/
theorem tickLoop_runs (hen : s.flag Fld.drgLoopCtlEn n = true) (hl : (s.loop n).load ≠ 2) (hf : s.flag Fld.drgLoopCtlFreeze n = false) {yq : Word}
    (hy : yq = BitVec.ofInt 32 ((loopInput n s).1 * 65536)) :
    tickLoop n s = loopPut n (lawStep n yq (loopMarked n s)) (lawOut n yq (loopMarked n s)) (lawGen n (loopMarked n s)).1 { s.loop n with
      v := (lawGen n (loopMarked n s)).2.1
      a := (lawGen n (loopMarked n s)).2.2
      yq := yq
      outs := lawOuts n yq (loopMarked n s)
      load := 0 } (loopMarked n s) := by
  have hfreeze : ((loopInput n s).2.putFlag Fld.drgLoopStsStale (loopStale s n) n).flag Fld.drgLoopCtlFreeze n = false :=
    (flag_loopMarked (n := n) (s := s) (by decide)).trans hf
  have hstale := (loopMarked_reads n s).stale
  have hloop := (loopMarked_reads n s).loop
  unfold tickLoop
  dsimp only
  rw [hen, if_neg (by decide), loop_input, if_neg hl, loopStale_input, hfreeze, if_neg Bool.false_ne_true, loop_input, ← hy]
  have hz : (loopInput n s).2.putFlag Fld.drgLoopStsStale (loopStale s n) n = loopMarked n s := rfl
  rw [hz, ← hloop, ← hstale]
  clear hz hstale hloop hfreeze hy hl hen hf
  generalize loopMarked n s = z
  rw [← lawGen, ← lawE, ← lawP, ← lawDy, ← lawSt, ← lawD, ← lawPi, ← lawBase, ← lawBad, ← lawStep, ← lawOut, ← lawOuts]
  generalize lawStep n yq z = j
  exact rfl

/-- What is stored is read again. -/
theorem loopPut_spec (n : Nat) (i : Word × Bool) {base : Nat} (hb : base ≤ 0x10000) (sp : Word) (x : DLoop) (s : State) :
    TickOf n s (loopPut n i base sp x s) ∧ (loopPut n i base sp x s).loop n = x ∧ (loopPut n i base sp x s).reg .drgLoopSp n = sp ∧
    (loopPut n i base sp x s).reg .drgLoopI n = i.1 ∧ (loopPut n i base sp x s).get Fld.drgLoopStsBase n = base := by
  have hregs (k : RegKind) (hk : k ≠ .drgLoopSts) : (loopPut n i base sp x s).reg k n = ((s.setReg .drgLoopSp n sp).setReg .drgLoopI n i.1).reg k n := by
    have hloop (y : State) : (y.setLoop n x).reg k n = y.reg k n := rfl
    unfold loopPut
    dsimp only
    rw [hloop, State.reg_put_kind _ hk]
    split
    · exact State.reg_inc_kind _ hk _ _ _
    · exact rfl
  refine ⟨?_, Tab.get_put_same _ _ _ _, ?_, ?_, ?_⟩
  · unfold loopPut
    dsimp only
    refine TickOf.trans ?_ (.setLoop _ _)
    refine TickOf.trans ?_ (.put rfl _ _)
    have hset := (TickOf.setReg (n := n) (.inl rfl) sp s).trans (.setReg (.inr (.inl rfl)) i.1 _)
    split
    · exact hset.trans (.put rfl _ _)
    · exact hset
  · rw [hregs _ (by decide), State.reg_setReg_kind _ (by decide), State.reg_setReg_same]
  · rw [hregs _ (by decide), State.reg_setReg_same]
  · have hloop (y : State) : (y.setLoop n x).get Fld.drgLoopStsBase n = y.get Fld.drgLoopStsBase n := rfl
    unfold loopPut
    dsimp only
    rw [hloop]
    refine (State.get_put_same _ Fld.drgLoopStsBase (by decide) base n).trans (Nat.mod_eq_of_lt ?_)
    exact Nat.lt_of_le_of_lt hb (by decide)

theorem tickLoop_tick (n : Nat) (s : State) : TickOf n s (tickLoop n s) := by
  by_cases hen : s.flag Fld.drgLoopCtlEn n = true
  · have hin : TickOf n s (if ((loopInput n s).2.loop n).load = 2 then loadLoop n (loopInput n s).2 else (loopInput n s).2) := by
      split
      · exact (TickOf.input s).trans (.loadLoop _)
      · exact .input s
    unfold tickLoop
    dsimp only
    rw [hen, if_neg (by decide)]
    generalize (if ((loopInput n s).2.loop n).load = 2 then loadLoop n (loopInput n s).2 else (loopInput n s).2) = y at hin ⊢
    have hmark : TickOf n s (y.putFlag Fld.drgLoopStsStale (loopStale y n) n) := hin.trans (.put rfl _ _)
    generalize (y.putFlag Fld.drgLoopStsStale (loopStale y n) n) = z at hmark ⊢
    by_cases hf : z.flag Fld.drgLoopCtlFreeze n = true
    · rw [if_pos hf]
      exact hmark.trans (.setLoop _ _)
    · rw [if_neg hf]
      refine hmark.trans (TickOf.trans ?_ (.setLoop _ _))
      refine TickOf.trans ?_ (.put rfl _ _)
      have hset (a b : Word) : TickOf n z ((z.setReg .drgLoopSp n a).setReg .drgLoopI n b) := (TickOf.setReg (.inl rfl) a z).trans (.setReg (.inr (.inl rfl)) b _)
      have hwraps (p : Bool) (v : State) : TickOf n v (if p then v.inc Fld.drgLoopStsWraps n else v) := by
        split
        · exact .put rfl _ _
        · exact .refl v
      exact (hset _ _).trans (hwraps _ _)
  · rw [Bool.not_eq_true] at hen
    unfold tickLoop
    rw [hen, if_pos Bool.not_false]
    exact .refl s

end

/-! ## The loops one after another -/

/-- What a tick leaves of all but the loops' own state. -/
structure Ticked (s t : State) : Prop where
  rest : t = { s with
    regs := t.regs
    freeCtr := t.freeCtr
    dg := { s.dg with loops := t.dg.loops } }
  kinds : ∀ k i, ¬ TickKind k → t.reg k i = s.reg k i

theorem ticks_keep (l : List Nat) (s : State) : Ticked s (l.foldl (fun s n => tickLoop n s) s) :=
  List.foldlRecOn l _ (motive := fun t : State => Ticked s t) ⟨rfl, fun _ _ _ => rfl⟩ fun t ht n _ =>
    ⟨(tickLoop_tick n t).rest.trans (by rw [ht.rest]), fun k i hk => ((tickLoop_tick n t).kinds k i hk).trans (ht.kinds k i hk)⟩

/-- Ticks of other loops leave a loop's own state. -/
theorem ticks_others {n : Nat} {l : List Nat} (hn : n ∉ l) (s : State) : LoopReads n s (l.foldl (fun s n => tickLoop n s) s) ∧
    ∀ k, (l.foldl (fun s n => tickLoop n s) s).reg k n = s.reg k n :=
  List.foldlRecOn l _ (motive := fun t : State => LoopReads n s t ∧ ∀ k, t.reg k n = s.reg k n) ⟨.refl s, fun _ => rfl⟩ fun t ht m hm => by
    have hne : n ≠ m := fun e => hn (e ▸ hm)
    have hone := tickLoop_tick m t
    exact ⟨ht.1.trans (hone.reads hne), fun k => ((hone.others n hne).1 k).trans (ht.2 k)⟩

/-- The loop's state at its own tick, and after the others'. -/
theorem ticks_of {n : Nat} {l : List Nat} (s : State) (hl : l.Nodup) (hn : n ∈ l) : ∃ y, LoopReads n s y ∧
    (∀ k, (l.foldl (fun s n => tickLoop n s) s).reg k n = (tickLoop n y).reg k n) ∧ (l.foldl (fun s n => tickLoop n s) s).loop n = (tickLoop n y).loop n := by
  obtain ⟨a, b, rfl⟩ := List.append_of_mem hn
  rw [List.nodup_append] at hl
  obtain ⟨_, hb, hdisj⟩ := hl
  have ha : n ∉ a := fun h => hdisj n h n List.mem_cons_self rfl
  rw [List.foldl_append, List.foldl_cons]
  obtain ⟨hbefore, _⟩ := ticks_others ha s
  obtain ⟨hafter, hregs⟩ := ticks_others (List.nodup_cons.mp hb).1 (tickLoop n (a.foldl (fun s n => tickLoop n s) s))
  exact ⟨_, hbefore, hregs, hafter.loop⟩

end Sys2Proof.Machine
end

section
/-! PROOFS. O47: SAMPLE_TICK. -/
namespace Sys2Proof.Machine

/-! ## The buckets refilled (R529) -/

theorem refills_rest (l : List Nat) (s : State) : l.foldl (fun s g => refill g s) s = { s with
    dg := { s.dg with bucket := (l.foldl (fun s g => refill g s) s).dg.bucket } } :=
  List.foldlRecOn l _ (motive := fun t : State => t = { s with dg := { s.dg with bucket := t.dg.bucket } }) rfl fun t ht g _ => by
    have hone : refill g t = { t with dg := { t.dg with bucket := (refill g t).dg.bucket } } := by
      unfold refill
      split <;> exact rfl
    rw [hone, ht]

/-! ## The levels formed (R536) -/

/-- What an enabled loop that names a group allows it. -/
def loopLevel (s : State) (n g : Nat) : Nat :=
  let u := (Tab.find g (s.loop n).outs).getD 0x10000
  if loopStale s n then min u (staleLvl s n) else u

theorem admitOf_eq (s : State) (g : Nat) : admitOf s g = (List.range 16).foldl (fun a n =>
    if s.flag Fld.drgLoopCtlEn n && (s.get Fld.drgLoopCtlGrp n).testBit g then min a (loopLevel s n g) else a) 0x10000 := rfl

theorem levels_le (p : Nat → Bool) (f : Nat → Nat) : ∀ (l : List Nat) (a : Nat), l.foldl (fun a n => if p n then min a (f n) else a) a ≤ a
  | [], _ => Nat.le_refl _
  | n :: l, a => by
    rw [List.foldl_cons]
    refine Nat.le_trans (levels_le p f l _) ?_
    split
    · exact Nat.min_le_left _ _
    · exact Nat.le_refl _

theorem level_of_mem {p : Nat → Bool} {f : Nat → Nat} {n : Nat} (hp : p n = true) : ∀ {l : List Nat} {a : Nat}, n ∈ l →
    l.foldl (fun a n => if p n then min a (f n) else a) a ≤ f n
  | m :: l, a, h => by
    rw [List.foldl_cons]
    rcases List.mem_cons.mp h with rfl | h
    · rw [if_pos hp]
      exact Nat.le_trans (levels_le p f l _) (Nat.min_le_right _ _)
    · exact level_of_mem hp h

theorem admitOf_le {s : State} {n g : Nat} (hn : n < 16) (hen : s.flag Fld.drgLoopCtlEn n = true) (hg : (s.get Fld.drgLoopCtlGrp n).testBit g = true) {u : Nat}
    (hu : Tab.find g (s.loop n).outs = some u) : admitOf s g ≤ u := by
  rw [admitOf_eq]
  refine Nat.le_trans (level_of_mem (p := fun n => s.flag Fld.drgLoopCtlEn n && (s.get Fld.drgLoopCtlGrp n).testBit g) (f := fun n => loopLevel s n g) (n := n)
    (by rw [hen, hg]; exact rfl) (List.mem_range.mpr hn)) ?_
  unfold loopLevel
  rw [hu, Option.getD_some]
  split
  · exact Nat.min_le_left _ _
  · exact Nat.le_refl _

theorem admitOf_free {s : State} {g : Nat} (h : ∀ n, n < 16 → s.flag Fld.drgLoopCtlEn n = true → (s.get Fld.drgLoopCtlGrp n).testBit g = false) : admitOf s g = 0x10000 := by
  rw [admitOf_eq]
  refine List.foldlRecOn (List.range 16) _ (motive := fun a => a = 0x10000) rfl fun a ha n hn => ?_
  have hnot : (s.flag Fld.drgLoopCtlEn n && (s.get Fld.drgLoopCtlGrp n).testBit g) = false := by
    cases hen : s.flag Fld.drgLoopCtlEn n with
    | false => exact Bool.false_and _
    | true => rw [h n (List.mem_range.mp hn) hen, Bool.and_false]
  rw [hnot, if_neg Bool.false_ne_true]
  exact ha

/-! ## A tick (R532, R535 to R539) -/

/-- The loops ticked and the buckets refilled. -/
def tickedLoops (s : State) : State := (List.range 16).foldl (fun s g => refill g s) ((List.range 16).foldl (fun s n => tickLoop n s) (loadSeen s))

/-- The windows of the sources start anew. -/
def windowsCleared (src : Tab Sense) : Tab Sense := src.map fun e => (e.1, { e.2 with sum := 0, count := 0 })

def tickTaken (s : State) : State := { s with dg := { s.dg with
  src := windowsCleared s.dg.src
  next := some (s.now, (List.range 16).map (admitOf s))
  tickAt := s.now } }

theorem execSampleTick_ticks {s : State} (hon : s.coreOn = true) (ht : s.dg.tickAt + 10000 ≤ s.now) : execSampleTick s = .next (tickTaken (tickedLoops s)) := by
  unfold execSampleTick
  rw [hon, decide_eq_true ht]
  unfold tickTaken tickedLoops windowsCleared
  exact onlyIf_true _ _

theorem find_windowsCleared (k : Nat) (l : Tab Sense) : Tab.find k (windowsCleared l) = (Tab.find k l).map fun x => { x with sum := 0, count := 0 } :=
  Tab.find_map_value (fun _ (x : Sense) => ({ x with sum := 0, count := 0 } : Sense)) k l

theorem sense_windowsCleared {s t : State} (h : t.dg.src = windowsCleared s.dg.src) (k : Nat) :
    (t.sense k).count = 0 ∧ (t.sense k).sum = 0 ∧ (t.sense k).last = (s.sense k).last := by
  unfold State.sense Tab.get
  rw [h, find_windowsCleared]
  cases Tab.find k s.dg.src with
  | none => exact ⟨rfl, rfl, rfl⟩
  | some x => exact ⟨rfl, rfl, rfl⟩

/-- What a whole tick leaves of all but the loops' own state. -/
structure TickedAll (s t : State) : Prop where
  now : t.now = s.now
  src : t.dg.src = s.dg.src
  kinds : ∀ k i, ¬ TickKind k → t.reg k i = s.reg k i

theorem tickedLoops_keep (s : State) : TickedAll s (tickedLoops s) := by
  obtain ⟨hrest, hkinds⟩ := ticks_keep (List.range 16) (loadSeen s)
  unfold tickedLoops
  generalize (List.range 16).foldl (fun s n => tickLoop n s) (loadSeen s) = y at hrest hkinds
  have hr := refills_rest (List.range 16) y
  generalize (List.range 16).foldl (fun s g => refill g s) y = z at hr
  have hregs : z.regs = y.regs := by
    rw [hr]
  refine ⟨?_, ?_, fun k i hk => (State.reg_of_regs hregs k i).trans (hkinds k i hk)⟩
  · rw [hr, hrest]
    exact rfl
  · rw [hr, hrest]
    exact rfl

theorem tickedLoops_of {n : Nat} (hn : n < 16) (s : State) : ∃ y, LoopReads n s y ∧ (∀ k, (tickedLoops s).reg k n = (tickLoop n y).reg k n) ∧
    (tickedLoops s).loop n = (tickLoop n y).loop n := by
  obtain ⟨y, hy, hregs, hloop⟩ := ticks_of (loadSeen s) List.nodup_range (List.mem_range.mpr hn)
  have hr := refills_rest (List.range 16) ((List.range 16).foldl (fun s n => tickLoop n s) (loadSeen s))
  have hseen : LoopReads n s (loadSeen s) := ⟨fun _ _ => rfl, rfl, rfl⟩
  unfold tickedLoops
  generalize (List.range 16).foldl (fun s n => tickLoop n s) (loadSeen s) = x at hr hregs hloop
  generalize (List.range 16).foldl (fun s g => refill g s) x = z at hr
  have hregs' : z.regs = x.regs := by
    rw [hr]
  have hloops : z.dg.loops = x.dg.loops := by
    rw [hr]
  exact ⟨y, hseen.trans hy, fun k => (State.reg_of_regs hregs' k n).trans (hregs k), (congrArg (Tab.get ({} : DLoop) n) hloops).trans hloop⟩

section
variable {n : Nat} {s : State}

/-- R545: a frozen loop holds. -/
theorem tickedLoops_frozen (hn : n < 16) (hen : s.flag Fld.drgLoopCtlEn n = true) (hl : (s.loop n).load ≠ 2) (hf : s.flag Fld.drgLoopCtlFreeze n = true) :
    ((tickedLoops s).loop n).outs = (s.loop n).outs ∧ ((tickedLoops s).loop n).v = (s.loop n).v ∧ ((tickedLoops s).loop n).a = (s.loop n).a ∧
    (tickedLoops s).reg .drgLoopSp n = s.reg .drgLoopSp n ∧ (tickedLoops s).reg .drgLoopI n = s.reg .drgLoopI n := by
  obtain ⟨y, hy, hregs, hloop⟩ := tickedLoops_of hn s
  have htick := tickLoop_frozen (n := n) (s := y) (by rw [hy.flag (by decide), hen]) (by rw [hy.loop]; exact hl) (by rw [hy.flag (by decide), hf])
  rw [htick] at hregs hloop
  have hself : (tickedLoops s).loop n = { s.loop n with
      yq := BitVec.ofInt 32 ((loopInput n y).1 * 65536)
      load := 0 } := by
    rw [hloop, ← hy.loop]
    exact Tab.get_put_same _ _ _ _
  have hmark := hy.trans (loopMarked_reads n y)
  refine ⟨(congrArg DLoop.outs hself :), (congrArg DLoop.v hself :), (congrArg DLoop.a hself :), ?_, ?_⟩
  · exact (hregs _).trans (hmark.regs _ (by decide))
  · exact (hregs _).trans (hmark.regs _ (by decide))

/-- R535, R538: any other loop has run its generator and its law, from the input of its tick. -/
theorem tickedLoops_runs (hn : n < 16) (hen : s.flag Fld.drgLoopCtlEn n = true) (hl : (s.loop n).load ≠ 2) (hf : s.flag Fld.drgLoopCtlFreeze n = false) :
    ∃ yq, ((∀ k ∈ loopSrcs s n, (s.sense k).count ≠ 0) → yq = BitVec.ofInt 32 ((loopInput n s).1 * 65536)) ∧
      (tickedLoops s).reg .drgLoopSp n = (lawGen n s).1 ∧ (tickedLoops s).reg .drgLoopI n = (lawStep n yq s).1 ∧
      (tickedLoops s).get Fld.drgLoopStsBase n = lawOut n yq s ∧
      ∃ z, LoopReads n s z ∧ (tickedLoops s).loop n = { s.loop n with
        v := (lawGen n s).2.1
        a := (lawGen n s).2.2
        yq := yq
        outs := lawOuts n yq z
        load := 0 } := by
  obtain ⟨y, hy, hregs, hloop⟩ := tickedLoops_of hn s
  have hmark := hy.trans (loopMarked_reads n y)
  have htick := tickLoop_runs (n := n) (s := y) (by rw [hy.flag (by decide), hen]) (by rw [hy.loop]; exact hl) (by rw [hy.flag (by decide), hf]) rfl
  refine ⟨BitVec.ofInt 32 ((loopInput n y).1 * 65536), fun hc => by rw [loopInput_congr hy hc], ?_⟩
  generalize BitVec.ofInt 32 ((loopInput n y).1 * 65536) = yq at htick ⊢
  rw [lawStep_congr hmark, lawOut_congr hmark, lawGen_congr hmark, hy.loop] at htick
  generalize loopMarked n y = z at htick hmark
  obtain ⟨_, hx, hsp, hi, hbase⟩ := loopPut_spec n (lawStep n yq s) (lawOut_le yq) (lawGen n s).1 { s.loop n with
    v := (lawGen n s).2.1
    a := (lawGen n s).2.2
    yq := yq
    outs := lawOuts n yq z
    load := 0 } z
  rw [← htick] at hx hsp hi hbase
  refine ⟨(hregs _).trans hsp, (hregs _).trans hi, ?_, z, hmark, hloop.trans hx⟩
  exact (congrArg Fld.drgLoopStsBase.get (hregs _)).trans hbase

end

end Sys2Proof.Machine
end

section
/-! PROOFS. O47: loops' controls, levels taking effect, buckets, grants and END reports. -/
namespace Sys2Proof.Machine

/-! ## Writes of DRG_LOOPn_CTL (R533, R536, R545) -/

section
variable {s : State} {r : Req} {n : Nat} {w : Word}

/-- The written control word stored. -/
def loopWritten (n : Nat) (w : Word) (s : State) : State := s.plainWrite .drgLoopCtl n w

theorem loopWritten_en (n : Nat) (w : Word) (s : State) : (loopWritten n w s).flag Fld.drgLoopCtlEn n = (Fld.drgLoopCtlEn.get w != 0) :=
  congrArg (· != 0) (State.get_plainWrite_rw s Fld.drgLoopCtlEn (by decide) (by decide) (by decide) (by decide) n w)

theorem loopWritten_kind {k : RegKind} (h : k ≠ .drgLoopCtl) (i : Nat) : (loopWritten n w s).reg k i = s.reg k i := State.reg_setReg_kind s h _ _ _

theorem loopRefused_written : loopRefused (loopWritten n w s) n = loopRefused s n := by
  have hlo (k : Nat) : (loopWritten n w s).bit .drgLoopSrcLo n k = s.bit .drgLoopSrcLo n k := congrArg (BitVec.getLsbD · k) (loopWritten_kind (by decide) n)
  have hhi (k : Nat) : (loopWritten n w s).bit .drgLoopSrcHi n k = s.bit .drgLoopSrcHi n k := congrArg (BitVec.getLsbD · k) (loopWritten_kind (by decide) n)
  have hsrcs : loopSrcs (loopWritten n w s) n = loopSrcs s n := by
    unfold loopSrcs
    simp only [hlo, hhi]
  have hpop (k : Nat) : populated (loopWritten n w s) k = populated s k := rfl
  unfold loopRefused
  simp only [hsrcs, hpop]

theorem loopCtlWrite_rises (hen : Fld.drgLoopCtlEn.get w = 1) (hwas : s.flag Fld.drgLoopCtlEn n = false) : loopCtlWrite n w s =
    if loopRefused s n then ((loopWritten n w s).putFlag Fld.drgLoopCtlEn false n).putFlag Fld.drgStsCfgerr true else loadLoop n (loopWritten n w s) := by
  have hflag : (loopWritten n w s).flag Fld.drgLoopCtlEn n = true := by
    rw [loopWritten_en, hen]
    exact rfl
  rw [← loopRefused_written (w := w)]
  unfold loopCtlWrite
  dsimp only
  rw [hwas]
  exact if_pos ⟨hflag, rfl⟩

/-- Without a rise of EN the word is stored alone. -/
theorem loopCtlWrite_plain (h : Fld.drgLoopCtlEn.get w = 0 ∨ Fld.drgLoopCtlEn.get w = s.get Fld.drgLoopCtlEn n) : loopCtlWrite n w s = loopWritten n w s := by
  have hnot : ¬ ((loopWritten n w s).flag Fld.drgLoopCtlEn n = true ∧ (!s.flag Fld.drgLoopCtlEn n) = true) := by
    rintro ⟨hnew, hold⟩
    rw [loopWritten_en] at hnew
    rw [Bool.not_eq_true'] at hold
    unfold State.flag at hold
    rcases h with h | h
    · rw [h] at hnew
      exact absurd hnew (by decide)
    · rw [h, hold] at hnew
      exact absurd hnew Bool.false_ne_true
  unfold loopCtlWrite
  dsimp only
  exact if_neg hnot

/-- The state of a loop loaded (R539). -/
theorem loadLoop_spec (n : Nat) (s : State) : (loadLoop n s).loop n = { s.loop n with
      v := 0
      a := 0
      load := 1 } ∧
    (loadLoop n s).reg .drgLoopSp n = loopTgt s n ∧ (loadLoop n s).reg .drgLoopI n = s.reg .drgLoopIinit n ∧ (loadLoop n s).resps = s.resps ∧
    (loadLoop n s).flag Fld.drgLoopCtlEn n = s.flag Fld.drgLoopCtlEn n := by
  have hloop (y : State) (x : DLoop) (k : RegKind) : (y.setLoop n x).reg k n = y.reg k n := rfl
  have hset (y : State) (x : DLoop) : (y.setLoop n x).loop n = x := Tab.get_put_same _ _ _ _
  have hflag (y : State) (x : DLoop) : (y.setLoop n x).flag Fld.drgLoopCtlEn n = y.flag Fld.drgLoopCtlEn n := rfl
  unfold loadLoop
  dsimp only
  have hreg (y : State) (k : RegKind) (v : Word) : (y.setReg k n v).loop n = y.loop n := rfl
  have hresps (y : State) (x : DLoop) : (y.setLoop n x).resps = y.resps := rfl
  have hresps' (y : State) (k : RegKind) (v : Word) : (y.setReg k n v).resps = y.resps := rfl
  refine ⟨?_, ?_, ?_, ?_, ?_⟩
  · rw [hset, hreg, hreg]
  · rw [hloop, State.reg_setReg_kind _ (by decide), State.reg_setReg_same]
  · rw [hloop, State.reg_setReg_same]
  · rw [hresps, hresps', hresps']
  · rw [hflag, State.flag_setReg_kind _ (by decide), State.flag_setReg_kind _ (by decide)]

theorem loopEnable_written (hn : n < 16) (hs : Steady s) (hw : Written s r .drgLoopCtl n w) (hen : Fld.drgLoopCtlEn.get w = 1) (hwas : s.flag Fld.drgLoopCtlEn n = false) :
    ∃ t, execLoopEnable r n w s = .next t ∧ t.resps = okSent s r ∧
      (loopRefused s n = true → t.flag Fld.drgLoopCtlEn n = false ∧ t.flag Fld.drgStsCfgerr = true ∧ t.dg = s.dg) ∧
      (loopRefused s n = false → t.flag Fld.drgLoopCtlEn n = true ∧ t.reg .drgLoopSp n = loopTgt s n ∧ t.reg .drgLoopI n = s.reg .drgLoopIinit n ∧
        (t.loop n).v = 0 ∧ (t.loop n).a = 0 ∧ (t.loop n).load = 1) := by
  have hexec : execLoopEnable r n w s = .next ((loopCtlWrite n w s).respondWrite r .ok) := by
    unfold execLoopEnable
    rw [regWrite_pass hw hs, decide_eq_true (⟨hn, hen⟩ : n < 16 ∧ Fld.drgLoopCtlEn.get w = 1)]
    exact onlyIf_true _ _
  rw [loopCtlWrite_rises hen hwas] at hexec
  refine ⟨_, hexec, ?_, fun href => ?_, fun href => ?_⟩
  · refine respondWrite_resps_of_eq ?_ r
    split
    · exact rfl
    · exact (loadLoop_spec n (loopWritten n w s)).2.2.2.1
  · rw [href, if_pos rfl]
    refine ⟨?_, ?_, by rw [State.respondWrite_eq]; exact rfl⟩
    · rw [State.flag_respondWrite, State.flag_putFlag_kind _ (by decide)]
      exact State.flag_putFlag _ Fld.drgLoopCtlEn rfl (by decide) false n
    · rw [State.flag_respondWrite]
      exact State.flag_putFlag _ Fld.drgStsCfgerr rfl (by decide) true 0
  · rw [href, if_neg Bool.false_ne_true]
    obtain ⟨hloop, hsp, hi, _, hen'⟩ := loadLoop_spec n (loopWritten n w s)
    have hloop' (y : State) : (y.respondWrite r .ok).loop n = y.loop n := by
      rw [State.respondWrite_eq]
      exact rfl
    rw [hloop', hloop]
    refine ⟨?_, ?_, ?_, rfl, rfl, rfl⟩
    · have hflag := loopWritten_en n w s
      rw [hen] at hflag
      rw [State.flag_respondWrite, hen', hflag]
      exact rfl
    · have htgt : loopTgt (loopWritten n w s) n = loopTgt s n := by
        have hget : (loopWritten n w s).get Fld.drgLoopTgtTgt n = s.get Fld.drgLoopTgtTgt n := congrArg Fld.drgLoopTgtTgt.get (loopWritten_kind (by decide) n)
        unfold loopTgt
        rw [hget]
      rw [State.reg_respondWrite, ← htgt, hsp]
    · rw [State.reg_respondWrite, hi]
      exact loopWritten_kind (by decide) n

theorem loopDisable_written (hn : n < 16) (hs : Steady s) (hw : Written s r .drgLoopCtl n w) (hen : Fld.drgLoopCtlEn.get w = 0) :
    ∃ t, execLoopDisable r n w s = .next t ∧ t.flag Fld.drgLoopCtlEn n = false ∧ t.dg = s.dg ∧ OtherRegs s t .drgLoopCtl n ∧ t.resps = okSent s r := by
  have hexec : execLoopDisable r n w s = .next ((loopWritten n w s).respondWrite r .ok) := by
    unfold execLoopDisable
    rw [regWrite_pass hw hs, loopCtlWrite_plain (.inl hen), decide_eq_true (⟨hn, hen⟩ : n < 16 ∧ Fld.drgLoopCtlEn.get w = 0)]
    exact onlyIf_true _ _
  refine ⟨_, hexec, ?_, by rw [State.respondWrite_eq]; exact rfl, OtherRegs.respondWrite (otherRegs_plainWrite s _ n w) r .ok, respondWrite_resps_of_eq rfl r⟩
  rw [State.flag_respondWrite, loopWritten_en, hen]
  exact rfl

theorem loopFreezeWrite_written (hn : n < 16) (hs : Steady s) (hw : Written s r .drgLoopCtl n w) (hen : Fld.drgLoopCtlEn.get w = s.get Fld.drgLoopCtlEn n) :
    ∃ t, execLoopFreezeWrite r n w s = .next t ∧ t.get Fld.drgLoopCtlFreeze n = Fld.drgLoopCtlFreeze.get w ∧ t.dg = s.dg ∧ OtherRegs s t .drgLoopCtl n ∧
      t.resps = okSent s r := by
  have hexec : execLoopFreezeWrite r n w s = .next ((loopWritten n w s).respondWrite r .ok) := by
    unfold execLoopFreezeWrite
    rw [regWrite_pass hw hs, loopCtlWrite_plain (.inr hen), decide_eq_true hn]
    exact onlyIf_true _ _
  refine ⟨_, hexec, ?_, by rw [State.respondWrite_eq]; exact rfl, OtherRegs.respondWrite (otherRegs_plainWrite s _ n w) r .ok, respondWrite_resps_of_eq rfl r⟩
  rw [State.get_respondWrite]
  exact State.get_plainWrite_rw s Fld.drgLoopCtlFreeze (by decide) (by decide) (by decide) (by decide) n w

end

/-! ## The levels take effect (R536) -/

theorem admits_put (lv : List Nat) : ∀ (l : List Nat) (s : State), l.Nodup →
    (∀ g ∈ l, (l.foldl (fun s g => s.put Fld.drgGrpStsAdmit ((lv[g]?).getD 0x10000) g) s).get Fld.drgGrpStsAdmit g = ((lv[g]?).getD 0x10000) % 2 ^ 17) ∧
    (∀ g, g ∉ l → (l.foldl (fun s g => s.put Fld.drgGrpStsAdmit ((lv[g]?).getD 0x10000) g) s).get Fld.drgGrpStsAdmit g = s.get Fld.drgGrpStsAdmit g) ∧
    (l.foldl (fun s g => s.put Fld.drgGrpStsAdmit ((lv[g]?).getD 0x10000) g) s).dg = s.dg ∧
    ∀ k i, k ≠ .drgGrpSts → (l.foldl (fun s g => s.put Fld.drgGrpStsAdmit ((lv[g]?).getD 0x10000) g) s).reg k i = s.reg k i
  | [], s, _ => ⟨fun _ h => absurd h List.not_mem_nil, fun _ _ => rfl, rfl, fun _ _ _ => rfl⟩
  | a :: l, s, hn => by
    obtain ⟨hal, hnl⟩ := List.nodup_cons.mp hn
    obtain ⟨hin, hout, hdg, hregs⟩ := admits_put lv l (s.put Fld.drgGrpStsAdmit ((lv[a]?).getD 0x10000) a) hnl
    rw [List.foldl_cons]
    refine ⟨fun g hg => ?_, fun g hg => ?_, hdg, fun k i hk => (hregs k i hk).trans (State.reg_put_kind s hk _ _ _)⟩
    · rcases List.mem_cons.mp hg with rfl | hg
      · exact (hout _ hal).trans (State.get_put_same s Fld.drgGrpStsAdmit (by decide) _ _)
      · exact hin g hg
    · rw [List.mem_cons, not_or] at hg
      exact (hout g hg.2).trans (State.get_put_index s hg.1 _ _ _)

theorem admissionTakeEffect_acts {s : State} {t0 : Nat} {lv : List Nat} (hon : s.coreOn = true) (hnext : s.dg.next = some (t0, lv)) (ht : t0 + 1000 ≤ s.now) :
    ∃ t, execAdmissionTakeEffect s = .next t ∧ t.dg = { s.dg with next := none } ∧
      (∀ g a, g < 16 → lv[g]? = some a → a ≤ 0x10000 → t.get Fld.drgGrpStsAdmit g = a) ∧ ∀ k i, k ≠ .drgGrpSts → t.reg k i = s.reg k i := by
  obtain ⟨hin, _, hdg, hregs⟩ := admits_put lv (List.range 16) { s with dg := { s.dg with next := none } } List.nodup_range
  have hexec : execAdmissionTakeEffect s = .next ((List.range 16).foldl (fun s g => s.put Fld.drgGrpStsAdmit ((lv[g]?).getD 0x10000) g)
      { s with dg := { s.dg with next := none } }) := by
    unfold execAdmissionTakeEffect
    rw [hnext]
    dsimp only
    rw [hon, decide_eq_true ht]
    exact onlyIf_true _ _
  refine ⟨_, hexec, hdg, fun g a hg ha hle => ?_, hregs⟩
  rw [hin g (List.mem_range.mpr hg), ha, Option.getD_some]
  exact Nat.mod_eq_of_lt (Nat.lt_of_le_of_lt hle (by decide))

/-! ## BW_MAX (R529) -/

/-- A bucket after a write of BW_MAX. -/
def bucketWritten (old bw : Nat) (x : Int) : Int := if bw = 0 then x else if old = 0 then 2 * bw * 256 else max (-(2 * bw * 256)) (min (2 * bw * 256) x)

/-- The write's step of one bucket. -/
def bucketStep (old : Nat) (s : State) (g : Nat) : State :=
  if bwMax s = 0 then s
  else if old = 0 then s.setBucket g (bwCap s)
  else s.setBucket g (max (-(bwCap s)) (min (bwCap s) (s.bucketOf g)))

theorem bucketStep_spec (old : Nat) (s : State) (g : Nat) : bucketStep old s g = { s with dg := { s.dg with bucket := (bucketStep old s g).dg.bucket } } ∧
    (bucketStep old s g).bucketOf g = bucketWritten old (bwMax s) (s.bucketOf g) ∧ ∀ h, h ≠ g → (bucketStep old s g).bucketOf h = s.bucketOf h := by
  have hset (x : Int) : s.setBucket g x = { s with dg := { s.dg with bucket := (s.setBucket g x).dg.bucket } } ∧ (s.setBucket g x).bucketOf g = x ∧
      ∀ h, h ≠ g → (s.setBucket g x).bucketOf h = s.bucketOf h := ⟨rfl, Tab.get_set_same _ _ _ _, fun h hh => Tab.get_set_ne hh _ _ _ _⟩
  unfold bucketStep bucketWritten
  by_cases hb : bwMax s = 0
  · rw [if_pos hb, if_pos hb]
    exact ⟨rfl, rfl, fun _ _ => rfl⟩
  · rw [if_neg hb, if_neg hb]
    by_cases ho : old = 0
    · rw [if_pos ho, if_pos ho]
      exact hset _
    · rw [if_neg ho, if_neg ho]
      exact hset _

theorem bucketSteps_spec (old : Nat) : ∀ (l : List Nat) (s : State), l.Nodup →
    l.foldl (bucketStep old) s = { s with dg := { s.dg with bucket := (l.foldl (bucketStep old) s).dg.bucket } } ∧
    (∀ g ∈ l, (l.foldl (bucketStep old) s).bucketOf g = bucketWritten old (bwMax s) (s.bucketOf g)) ∧
    ∀ g, g ∉ l → (l.foldl (bucketStep old) s).bucketOf g = s.bucketOf g
  | [], s, _ => ⟨rfl, fun _ h => absurd h List.not_mem_nil, fun _ _ => rfl⟩
  | a :: l, s, hn => by
    obtain ⟨hal, hnl⟩ := List.nodup_cons.mp hn
    obtain ⟨hrest, hsame, hne⟩ := bucketStep_spec old s a
    obtain ⟨hrestl, hin, hout⟩ := bucketSteps_spec old l (bucketStep old s a) hnl
    have hbw : bwMax (bucketStep old s a) = bwMax s := by
      rw [hrest]
      exact rfl
    rw [List.foldl_cons]
    refine ⟨hrestl.trans (by rw [hrest]), fun g hg => ?_, fun g hg => ?_⟩
    · rcases List.mem_cons.mp hg with rfl | hg
      · exact (hout _ hal).trans hsame
      · rw [hin g hg, hbw, hne g fun e => hal (e ▸ hg)]
    · rw [List.mem_cons, not_or] at hg
      exact (hout g hg.2).trans (hne g hg.1)

section
variable {s : State} {r : Req} {w : Word}

theorem bwMax_written (s : State) (w : Word) : bwMax (s.plainWrite .drgAdmCfg 0 w) = Fld.drgAdmCfgBwMax.get w :=
  State.get_plainWrite_rw s Fld.drgAdmCfgBwMax (by decide) (by decide) (by decide) (by decide) 0 w

theorem bwMaxWrite_written (hs : Steady s) (hw : Written s r .drgAdmCfg 0 w) : ∃ t, execBwMaxWrite r w s = .next t ∧
    t.get Fld.drgAdmCfgBwMax = Fld.drgAdmCfgBwMax.get w ∧ t.get Fld.drgAdmCfgOpsMax = Fld.drgAdmCfgOpsMax.get w ∧ OtherRegs s t .drgAdmCfg 0 ∧ t.resps = okSent s r ∧
    ∀ g, g < 16 → t.bucketOf g = bucketWritten (bwMax s) (Fld.drgAdmCfgBwMax.get w) (s.bucketOf g) := by
  obtain ⟨hrest, hin, _⟩ := bucketSteps_spec (bwMax s) (List.range 16) (s.plainWrite .drgAdmCfg 0 w) List.nodup_range
  have heff : admCfgWrite w s = (List.range 16).foldl (bucketStep (bwMax s)) (s.plainWrite .drgAdmCfg 0 w) := by
    have hstep : (fun (x : State) g => if bwMax x = 0 then x
        else if bwMax s = 0 then x.setBucket g (bwCap x)
        else x.setBucket g (max (-(bwCap x)) (min (bwCap x) (x.bucketOf g)))) = bucketStep (bwMax s) := rfl
    unfold admCfgWrite
    dsimp only
    rw [hstep]
  have hexec : execBwMaxWrite r w s = .next ((admCfgWrite w s).respondWrite r .ok) := by
    unfold execBwMaxWrite
    rw [regWrite_pass hw hs]
  rw [← heff] at hrest hin
  have hregs : (admCfgWrite w s).regs = (s.plainWrite .drgAdmCfg 0 w).regs := by
    rw [hrest]
  have hresps : (admCfgWrite w s).resps = s.resps := by
    rw [hrest]
    exact rfl
  have hother : OtherRegs s (admCfgWrite w s) .drgAdmCfg 0 := fun k i h => (State.reg_of_regs hregs k i).trans (otherRegs_plainWrite s _ 0 w k i h)
  refine ⟨_, hexec, ?_, ?_, OtherRegs.respondWrite hother r .ok, respondWrite_resps_of_eq hresps r, fun g hg => ?_⟩
  · rw [State.get_respondWrite, State.get_of_regs hregs]
    exact bwMax_written s w
  · rw [State.get_respondWrite, State.get_of_regs hregs]
    exact State.get_plainWrite_rw s Fld.drgAdmCfgOpsMax (by decide) (by decide) (by decide) (by decide) 0 w
  · have hbucket (y : State) : (y.respondWrite r .ok).bucketOf g = y.bucketOf g := by
      rw [State.respondWrite_eq]
      exact rfl
    rw [hbucket, hin g (List.mem_range.mpr hg), bwMax_written]
    exact rfl

end

end Sys2Proof.Machine
end

section
/-! PROOFS. O47: grants and END reports. -/
namespace Sys2Proof.Machine

/-! ## Grants (R526 to R529) -/

section
variable {s : State} {g : Nat} {x : GrantReq}

/-- STOP lets no request be granted. -/
theorem pickGrant_stopped (h : s.flag Fld.drgStsStop = true) (g : Nat) : pickGrant s g = none := by
  have hnone : ((List.range 8).flatMap fun i => chanReqs s (8 * g + (Tab.get 0 g s.dg.rot + i) % 8)).filter (mayGrant s g) = [] := by
    refine List.filter_eq_nil_iff.mpr fun a _ => ?_
    unfold mayGrant
    rw [h]
    exact Bool.false_ne_true
  unfold pickGrant
  dsimp only
  rw [hnone]
  exact rfl

/-- The rotation moved on and the request's bytes taken. -/
def bytesTaken (g : Nat) (x : GrantReq) (s : State) : State :=
  let s1 : State := { s with dg := { s.dg with rot := Tab.set 0 g ((x.ch + 1) % 8) s.dg.rot } }
  if bwMax s1 = 0 then s1 else s1.setBucket g (max (-(bwCap s1)) (s1.bucketOf g - x.bytes))

theorem bytesTaken_spec (g : Nat) (x : GrantReq) (s : State) : bytesTaken g x s = { s with dg := (bytesTaken g x s).dg } ∧
    (bwMax s ≠ 0 → (bytesTaken g x s).bucketOf g = max (-(2 * (bwMax s : Int) * 256)) (s.bucketOf g - x.bytes)) := by
  unfold bytesTaken
  dsimp only
  by_cases hb : bwMax ({ s with dg := { s.dg with rot := Tab.set 0 g ((x.ch + 1) % 8) s.dg.rot } } : State) = 0
  · rw [if_pos hb]
    exact ⟨rfl, fun h => absurd hb h⟩
  · rw [if_neg hb]
    exact ⟨rfl, fun _ => Tab.get_set_same _ _ _ _⟩

/-- The raw access whose first cycle is granted. -/
def rawHeadGranted (x : GrantReq) (s : State) : State :=
  s.setChan x.ch { s.chan x.ch with rawQ := (s.chan x.ch).rawQ.zipIdx.map fun a => if a.2 == 0 then rawGranted a.1 else a.1 }

theorem execDraughtGrant_grants (hrun : s.running = true) (hg : g < 16) (hp : pickGrant s g = some x) :
    (∀ k, x.lun = some k → execDraughtGrant g s = .next (modLun k (fun l => { l with granted := true }) ((bytesTaken g x s).inc Fld.drgGrpStsInfl g))) ∧
    (x.lun = none → execDraughtGrant g s = .next (rawHeadGranted x (bytesTaken g x s))) := by
  refine ⟨fun k hk => ?_, fun hk => ?_⟩
  · unfold execDraughtGrant
    rw [hp]
    dsimp only
    rw [hk, hrun, decide_eq_true hg]
    exact onlyIf_true _ _
  · unfold execDraughtGrant
    rw [hp]
    dsimp only
    rw [hk, hrun, decide_eq_true hg]
    exact onlyIf_true _ _

theorem zipIdx_first {a : RawAcc} {q : List RawAcc} : ((a :: q).zipIdx.map fun e => if e.2 == 0 then rawGranted e.1 else e.1) = rawGranted a :: q := by
  have hrest : ∀ (l : List RawAcc) (k : Nat), ((l.zipIdx (k + 1)).map fun e => if e.2 == 0 then rawGranted e.1 else e.1) = l := by
    intro l
    induction l with
    | nil => exact fun _ => rfl
    | cons b l ih =>
      intro k
      rw [List.zipIdx_cons, List.map_cons, ih (k + 1)]
      exact rfl
  rw [List.zipIdx_cons, List.map_cons, hrest]
  exact rfl

theorem draughtGrant_grants (hrun : s.running = true) (hg : g < 16) (hp : pickGrant s g = some x) : ∃ t, execDraughtGrant g s = .next t ∧
    (bwMax s ≠ 0 → t.bucketOf g = max (-(2 * (bwMax s : Int) * 256)) (s.bucketOf g - x.bytes)) ∧
    (∀ k, x.lun = some k → t.lun k = { s.lun k with granted := true } ∧ (∀ j, j ≠ k → t.lun j = s.lun j) ∧
      t.get Fld.drgGrpStsInfl g = min Fld.drgGrpStsInfl.max (s.get Fld.drgGrpStsInfl g + 1)) ∧
    (∀ a q b l, x.lun = none → (s.chan x.ch).rawQ = a :: q → a.cycles = (b, true) :: l → (t.chan x.ch).rawQ = { a with cycles := (b, false) :: l } :: q ∧ t.regs = s.regs) := by
  obtain ⟨hrest, hbucket⟩ := bytesTaken_spec g x s
  obtain ⟨hlun, hraw⟩ := execDraughtGrant_grants hrun hg hp
  generalize bytesTaken g x s = y at hrest hbucket hlun hraw
  have hregs : y.regs = s.regs := by
    rw [hrest]
  have hluns (j : Nat) : y.lun j = s.lun j := by
    rw [hrest]
    exact rfl
  have hchan (c : Nat) : y.chan c = s.chan c := by
    rw [hrest]
    exact rfl
  cases hx : x.lun with
  | none =>
    refine ⟨_, hraw hx, hbucket, fun k hk => absurd hk.symm (Option.some_ne_none k), fun a q b l _ hq hc => ⟨?_, hregs⟩⟩
    unfold rawHeadGranted
    rw [State.chan_setChan_same, hchan]
    dsimp only
    rw [hq, zipIdx_first]
    unfold rawGranted
    rw [hc]
  | some k =>
    refine ⟨_, hlun k hx, hbucket, fun k' hk' => ?_, fun a q b l hk' => absurd hk' (Option.some_ne_none k)⟩
    obtain rfl := Option.some.inj hk'
    refine ⟨?_, fun j hj => (State.lun_modLun_ne hj _ _).trans (hluns j), ?_⟩
    · rw [State.lun_modLun_same, ← hluns k]
      exact rfl
    · refine (State.get_inc_same y Fld.drgGrpStsInfl (by decide) g 1).trans ?_
      rw [State.get_of_regs hregs]

theorem draughtGrant_stopped (h : s.flag Fld.drgStsStop = true) : execDraughtGrant g s = .next s := by
  unfold execDraughtGrant
  rw [pickGrant_stopped h]

end

/-! ## END reports (R528) -/

theorem draughtEndReport_counts {s : State} {a b : List Ended} {e : Ended} (hon : s.coreOn = true) (hr : nextReport s.md.ended = some (a, e, b)) :
    ∃ t, execDraughtEndReport s = .next t ∧ t.get Fld.drgGrpStsInfl (lunCh e.op.lun / 8) = s.get Fld.drgGrpStsInfl (lunCh e.op.lun / 8) - 1 ∧
      OtherRegs s t .drgGrpSts (lunCh e.op.lun / 8) ∧ t.md.ended = if e.judged then a ++ b else a ++ { e with reported := true } :: b := by
  have hexec : execDraughtEndReport s = .next (({ s with md := { s.md with ended := if e.judged then a ++ b else a ++ { e with reported := true } :: b } } : State).put
      Fld.drgGrpStsInfl (s.get Fld.drgGrpStsInfl (lunCh e.op.lun / 8) - 1) (lunCh e.op.lun / 8)) := by
    unfold execDraughtEndReport
    rw [hr]
    dsimp only
    rw [hon]
    exact onlyIf_true _ _
  refine ⟨_, hexec, ?_, fun k i h => otherRegs_put _ Fld.drgGrpStsInfl _ _ k i h, rfl⟩
  refine (State.get_put_same _ Fld.drgGrpStsInfl (by decide) _ _).trans (Nat.mod_eq_of_lt ?_)
  have hlt : s.get Fld.drgGrpStsInfl (lunCh e.op.lun / 8) < 2 ^ (Fld.drgGrpStsInfl.hi + 1 - Fld.drgGrpStsInfl.lo) := Fld.get_lt _ _
  exact Nat.lt_of_le_of_lt (Nat.sub_le _ _) hlt

/-! ## The statement -/

section
variable {s : State}

/-- What a tick makes of one enabled loop whose registers no load awaits. -/
theorem sampleTick_loop {n : Nat} (hn : n < 16) (hen : s.flag Fld.drgLoopCtlEn n = true) (hl : (s.loop n).load ≠ 2) (hf : s.flag Fld.drgLoopCtlFreeze n = false) :
    ((tickedLoops s).reg .drgLoopSp n, ((tickedLoops s).loop n).v, ((tickedLoops s).loop n).a) = lawGen n s ∧
    ((∀ k ∈ loopSrcs s n, (s.sense k).count ≠ 0) → ∀ yq, yq = BitVec.ofInt 32 ((loopInput n s).1 * 65536) →
      (tickedLoops s).get Fld.drgLoopStsBase n = lawOut n yq s ∧ ((tickedLoops s).loop n).yq = yq ∧
      (loopStale s n = true ∨ (lawSt n yq s).v = true → (tickedLoops s).reg .drgLoopI n = s.reg .drgLoopI n) ∧
      (loopStale s n = false → (lawSt n yq s).v = false → 0 < (lawSt n yq s).val.toInt → lawBad n yq s = false → (lawBase n yq s).val.toInt < 0x10000 →
        (tickedLoops s).reg .drgLoopI n = s.reg .drgLoopI n + (lawSt n yq s).val) ∧
      (loopStale s n = false → (lawSt n yq s).v = false → (lawSt n yq s).val.toInt < 0 → 0 ≤ (s.reg .drgLoopI n).toInt →
        ((tickedLoops s).reg .drgLoopI n).toInt = max 0 ((s.reg .drgLoopI n).toInt + (lawSt n yq s).val.toInt)) ∧
      (s.flag Fld.drgLoopCtlFfEn n = false → ∀ g, g < 16 → (s.get Fld.drgLoopCtlGrp n).testBit g = true → Tab.find g ((tickedLoops s).loop n).outs =
        some (min (lawOut n yq s) (if loopStale s n then staleLvl s n else 0x10000)))) := by
  obtain ⟨yq, hyq, hsp, hi, hbase, z, hz, hloop⟩ := tickedLoops_runs hn hen hl hf
  generalize tickedLoops s = y at hsp hi hbase hloop ⊢
  have hgen : (y.reg .drgLoopSp n, (y.loop n).v, (y.loop n).a) = lawGen n s := by
    generalize lawGen n s = gen at hsp hloop
    rw [hsp, hloop]
  refine ⟨hgen, fun hc yq' hy => ?_⟩
  rw [hi, hbase, hloop]
  obtain rfl : yq = yq' := (hyq hc).trans hy.symm
  refine ⟨rfl, rfl, lawStep_holds, lawStep_rises, lawStep_falls, fun hff g hg hbit => ?_⟩
  have hlvl : staleLvl z n = staleLvl s n := by
    unfold staleLvl
    rw [hz.get (by decide)]
  have houts := lawOuts_plain (n := n) (s := z) (by rw [hz.flag (by decide), hff]) yq hg (by rw [hz.get (by decide)]; exact hbit)
  rw [lawOut_congr hz, hz.stale, hlvl] at houts
  exact houts

end

/-- Settles O47. -/
theorem loopsAndGrants : Obligations.LoopsAndGrants := by
  unfold Obligations.LoopsAndGrants
  refine fun s => ⟨fun r n w hn hs hw => ⟨fun hen hwas => loopEnable_written hn hs hw hen hwas, fun hen => loopDisable_written hn hs hw hen,
      fun hen => loopFreezeWrite_written hn hs hw hen⟩, fun hon ht => ?_, fun t0 lv hon hnext ht => admissionTakeEffect_acts hon hnext ht,
    fun r w hs hw => bwMaxWrite_written hs hw, fun g hrun hg => ⟨fun h => draughtGrant_stopped h, fun x hp => draughtGrant_grants hrun hg hp⟩,
    fun a e b hon hr => draughtEndReport_counts hon hr⟩
  obtain ⟨hnow, hsrc, hkinds⟩ := tickedLoops_keep s
  have hflag (f : Fld) (hf : ¬ TickKind f.kind) (i : Nat) : (tickedLoops s).flag f i = s.flag f i := congrArg (fun w => f.get w != 0) (hkinds f.kind i hf)
  have hgrp (n : Nat) : (tickedLoops s).get Fld.drgLoopCtlGrp n = s.get Fld.drgLoopCtlGrp n := congrArg Fld.drgLoopCtlGrp.get (hkinds _ n (by unfold TickKind; decide))
  have hen (n : Nat) : (tickedLoops s).flag Fld.drgLoopCtlEn n = s.flag Fld.drgLoopCtlEn n := hflag _ (by unfold TickKind; decide) n
  have hexec := execSampleTick_ticks hon ht
  have hfrozen := fun n (hn : n < 16) => tickedLoops_frozen (s := s) hn
  have hlaws := fun n (hn : n < 16) => sampleTick_loop (s := s) hn
  clear hflag
  generalize tickedLoops s = y at *
  refine ⟨tickTaken y, (List.range 16).map (admitOf y), hexec, ?_, ?_, hnow, fun k => ?_, fun g hg h => ?_, fun n hn hn' hl => ?_⟩
  · exact congrArg (fun x => some (x, (List.range 16).map (admitOf y))) hnow
  · rw [List.length_map, List.length_range]
  · have hsense := sense_windowsCleared (s := y) (t := tickTaken y) rfl k
    rw [show y.sense k = s.sense k from congrArg (Tab.get ({} : Sense) k) hsrc] at hsense
    exact hsense
  · rw [List.getElem?_map, List.getElem?_range hg, Option.map_some]
    exact congrArg some (admitOf_free fun n hn hn' => by rw [hgrp]; exact h n hn (by rw [← hen, hn']))
  · refine ⟨fun g u hg hbit hu => ⟨admitOf y g, ?_, ?_⟩, fun hf => hfrozen n hn hn' hl hf, fun hf => ?_⟩
    · rw [List.getElem?_map, List.getElem?_range hg, Option.map_some]
    · exact admitOf_le hn ((hen n).trans hn') (by rw [hgrp]; exact hbit) hu
    · obtain ⟨hgen, hlaw⟩ := hlaws n hn hn' hl hf
      exact ⟨hgen, fun hc => hlaw hc _ rfl⟩

end Sys2Proof.Machine
end

section
/-! PROOFS. O48: the release of the reset inputs records the start-up's self-test. -/

namespace Sys2Proof.Machine

/-- An engine held in reset by the cold input alone, 1 s after the ember counter started. -/
def heldReset : State := { State.reset with pwr := { State.reset.pwr with
  emberLow := false
  coldLow := true
  warmLow := false
  ember := 32768 } }

/-- The ROM stage takes the time of the last self-test to be its own. -/
theorem resetRelease_lastTest :
    (match exec (.resetRelease true) heldReset with
      | .next t => t.sec.lastTest
      | _ => 0) = 1000000000 := by decide +kernel

/-- Refutes O48: the release does not leave the security state as it is, for the ROM stage records in it the time of the last self-test, here 1 s where it was 0. -/
theorem not_resetInputs : ¬ Obligations.ResetInputs := by
  intro h
  obtain ⟨-, -, -, -, -, -, -, hrelease⟩ := h heldReset
  obtain ⟨-, hrun⟩ := hrelease true (by decide +kernel)
  obtain ⟨t, ht, -, -, -, hsec, -⟩ := hrun (by decide +kernel) (by decide +kernel) (by decide +kernel)
  have hlast := resetRelease_lastTest
  rw [ht] at hlast
  have hlast : t.sec.lastTest = 1000000000 := hlast
  rw [hsec] at hlast
  exact absurd hlast (by decide +kernel)

end Sys2Proof.Machine
end

section
/-! PROOFS. O55: pairing, heartbeats and reconciliation of the twin. -/
namespace Sys2Proof.Machine

/-! ## Records and heartbeats go out (R351, R353) -/

/-- The job that writes into the partner's mailbox (R351, R353). -/
def boxJob (ofs : Nat) (data : List Byte) (x : TwinSec) (s : State) : Job := {
  path := .pairing
  prio := 6
  vc := 3
  port := s.mov.rot % 16
  age := 0
  prog := [moveWord true 1 0 0 0 (data.length - 1) 0 (x.peerBox + ofs)]
  init := bufPut 0 data []
  crypt := none
  c0 := false }

/-- Two states apart in the fabric, the movers, and whether the DRAM is idle. -/
def BoxOnly (s t : State) : Prop := t = { s with
  fab := t.fab
  pwr := t.pwr
  mov := t.mov }

/-- A write into the partner's mailbox and a read of the own one queue one job. -/
theorem mailbox_exchange (addr len ofs : Nat) (hb : Bool) (data : List Byte) (x : TwinSec) (s : State) :
    BoxOnly s (boxRead addr len hb (mailboxWrite ofs data x s)) ∧
      (boxRead addr len hb (mailboxWrite ofs data x s)).mov.jobs = s.mov.jobs ++ [boxJob ofs data x s] := by
  have hread := lineRead_rest (mkReq (dramPort addr) 3 .rd addr len []) (.mailbox hb) (mailboxWrite ofs data x s)
  unfold BoxOnly boxRead
  constructor
  · rw [hread]
    rfl
  · rw [hread]
    rfl

theorem length_numBytes (n x : Nat) : (numBytes n x).length = n := by
  simp [numBytes]

theorem length_pairHead (s : State) (peer : Nat) : (pairHead s peer).length = 48 := by
  simp only [pairHead, List.length_append, length_numBytes, List.length_replicate]

theorem length_pairMac (s : State) (head : List Byte) : (pairMac s head).length = 48 := length_numBytes 48 _

/-- The record that a state sends (Table 09-9). -/
def pairRecord (s : State) (x : TwinSec) : List Byte := pairHead s x.peerHid ++ pairMac s (pairHead s x.peerHid)

theorem length_pairRecord (s : State) (x : TwinSec) : (pairRecord s x).length = 96 := by
  rw [pairRecord, List.length_append, length_pairHead, length_pairMac]

/-- The state with a NONCE, from which a record is sent. -/
def noncePresent (s : State) : State := if s.wp.twin.nonce = 0 then startPairing s else s

theorem startPairing_nonce (s : State) : (startPairing s).wp.twin.nonce ≠ 0 := by
  show (if s.fresh.1 = 0 then (1 : BitVec 64) else s.fresh.1) ≠ 0
  split
  · decide
  · assumption

theorem startPairing_rest (s : State) :
    startPairing s = { s with
      freeCtr := (startPairing s).freeCtr
      wp := { s.wp with twin := { s.wp.twin with nonce := (startPairing s).wp.twin.nonce } } } := rfl

theorem noncePresent_nonce (s : State) : (noncePresent s).wp.twin.nonce ≠ 0 := by
  unfold noncePresent
  split
  · exact startPairing_nonce s
  · assumption

theorem noncePresent_mov (s : State) : (noncePresent s).mov = s.mov := by
  unfold noncePresent
  split <;> rfl

/-- The time of the last record, kept. -/
def sentNow (s : State) : State := s.modTwin fun t => { t with lastSend := s.now }

/-- The state after a record has been sent. -/
def recordSent (x : TwinSec) (s : State) : State := boxRead x.ownBox 96 false (mailboxWrite 0 (pairRecord s x) x (sentNow s))

theorem exec_pairingRecordSend {s : State} {x : TwinSec} (hr : s.running = true) (hx : s.img.twin = some x) (hf : s.fwUp = true)
    (hp : s.wp.twin.paired = false) (hd : periodDue s x = true) : exec .pairingRecordSend s = .next (recordSent x (noncePresent s)) := by
  show execPairingRecordSend s = _
  unfold execPairingRecordSend
  rw [hx]
  dsimp only
  rw [hr, hf, hp, hd]
  exact onlyIf_true _ _

/-- A record goes to the partner's mailbox with its MAC (R351, R352). -/
theorem recordSent_spec (x : TwinSec) (s : State) :
    (recordSent x s).mov.jobs = s.mov.jobs ++ [boxJob 0 (pairRecord s x) x s] ∧ (recordSent x s).regs = s.regs ∧
      (recordSent x s).wp = { s.wp with twin := { s.wp.twin with lastSend := s.now } } := by
  obtain ⟨hbox, hjobs⟩ := mailbox_exchange x.ownBox 96 0 false (pairRecord s x) x (sentNow s)
  refine ⟨hjobs, ?_, ?_⟩
  · exact (congrArg State.regs hbox :)
  · exact (congrArg State.wp hbox :)

theorem boxJob_record (x : TwinSec) (s : State) : (boxJob 0 (pairRecord s x) x s).prog = [moveWord true 1 0 0 0 95 0 x.peerBox] := by
  show [moveWord true 1 0 0 0 ((pairRecord s x).length - 1) 0 (x.peerBox + 0)] = _
  rw [length_pairRecord]
  exact rfl

theorem boxJob_init (ofs : Nat) (data : List Byte) (x : TwinSec) (s : State) : (boxJob ofs data x s).init = bufPut 0 data [] := rfl

theorem pairing_record {s : State} {x : TwinSec} (hr : s.running = true) (hx : s.img.twin = some x) (hf : s.fwUp = true)
    (hp : s.wp.twin.paired = false) (hd : periodDue s x = true) (hn : s.wp.twin.nonce ≠ 0) :
    ∃ t j, exec .pairingRecordSend s = .next t ∧ t.mov.jobs = s.mov.jobs ++ [j] ∧ j.path = .pairing ∧
      j.init = bufPut 0 (pairHead s x.peerHid ++ pairMac s (pairHead s x.peerHid)) [] ∧ j.prog = [moveWord true 1 0 0 0 95 0 x.peerBox] ∧
      t.wp = { s.wp with twin := { s.wp.twin with lastSend := s.now } } ∧ t.regs = s.regs := by
  obtain ⟨hjobs, hregs, hwp⟩ := recordSent_spec x s
  have hsame : noncePresent s = s := if_neg hn
  exact ⟨recordSent x s, boxJob 0 (pairRecord s x) x s, (exec_pairingRecordSend hr hx hf hp hd).trans (by rw [hsame]), hjobs, rfl,
    boxJob_init 0 _ x s, boxJob_record x s, hwp, hregs⟩

/-- The first record draws its NONCE (Table 09-9). -/
theorem pairing_first {s : State} {x : TwinSec} (hr : s.running = true) (hx : s.img.twin = some x) (hf : s.fwUp = true)
    (hp : s.wp.twin.paired = false) (hd : periodDue s x = true) :
    ∃ t, exec .pairingRecordSend s = .next t ∧ t.wp.twin.nonce ≠ 0 ∧ t.mov.jobs.length = s.mov.jobs.length + 1 := by
  obtain ⟨hjobs, -, hwp⟩ := recordSent_spec x (noncePresent s)
  refine ⟨_, exec_pairingRecordSend hr hx hf hp hd, ?_, ?_⟩
  · rw [hwp]
    exact noncePresent_nonce s
  · rw [hjobs, noncePresent_mov, List.length_append]
    rfl

/-- The time of the last heartbeat and its count, kept. -/
def beatCounted (s : State) : State := s.modTwin fun t => { t with hbOut := s.wp.twin.hbOut + 1, lastSend := s.now }

theorem heartbeat_sent {s : State} {x : TwinSec} (hr : s.running = true) (hx : s.img.twin = some x) (hp : s.wp.twin.paired = true)
    (hd : periodDue s x = true) :
    ∃ t j, exec .heartbeatSend s = .next t ∧ t.wp.twin.hbOut = s.wp.twin.hbOut + 1 ∧ t.wp.twin.lastSend = s.now ∧
      t.mov.jobs = s.mov.jobs ++ [j] ∧ j.init = bufPut 0 (Config.heartbeat s.sec.pairKey s.hid (s.wp.twin.hbOut + 1)) [] := by
  let data := Config.heartbeat s.sec.pairKey s.hid (s.wp.twin.hbOut + 1)
  obtain ⟨hbox, hjobs⟩ := mailbox_exchange (x.ownBox + 0x80) 64 0x80 true data x (beatCounted s)
  have hwp : (boxRead (x.ownBox + 0x80) 64 true (mailboxWrite 0x80 data x (beatCounted s))).wp = (beatCounted s).wp := (congrArg State.wp hbox :)
  refine ⟨_, boxJob 0x80 data x (beatCounted s), ?_, ?_, ?_, hjobs, rfl⟩
  · show execHeartbeatSend s = _
    unfold execHeartbeatSend
    rw [hx]
    dsimp only
    rw [hr, hp, hd]
    exact onlyIf_true _ _
  · rw [hwp]
    rfl
  · rw [hwp]
    rfl

/-! ## No success, and a new start (R114) -/

theorem State.get_budget (f : Fld) (hd : f.kind ≠ .mapPanDmax) (hl : f.kind ≠ .mapPanLimit) (s : State) (i : Nat) : (budget s).get f i = s.get f i := by
  unfold budget
  split
  · rw [State.get_put_kind _ (g := Fld.mapPanLimitLimit) hl, State.get_put_kind _ (g := Fld.mapPanDmaxDmax) hd]
  · rfl

/-- The state 30 s after a start of pairing without success. -/
def pairingOver (s : State) : State := s.modTwin fun t => { t with single := true, since := s.now }

theorem pairing_timeout {s : State} {x : TwinSec} (hr : s.running = true) (hx : s.img.twin = some x) (hf : s.fwUp = true)
    (ht : s.get Fld.glbBootStsTwin = 0) (hp : s.wp.twin.paired = false) (hs : s.wp.twin.since + 30000000000 ≤ s.now) :
    ∃ t, exec .pairingTimeout s = .next t ∧ t.get Fld.glbBootStsTwin = 2 ∧ t.wp = { s.wp with twin := { s.wp.twin with single := true, since := s.now } } := by
  refine ⟨budget ((pairingOver s).put Fld.glbBootStsTwin 2), ?_, ?_, ?_⟩
  · show execPairingTimeout s = _
    unfold execPairingTimeout
    rw [hr, hx, hf, ht, hp, decide_eq_true hs]
    exact onlyIf_true _ _
  · rw [State.get_budget _ (by decide) (by decide), State.get_put_same _ _ (by decide)]
    rfl
  · rw [budget_wp]
    rfl

theorem pairing_retry {s : State} (hr : s.running = true) (hg : s.wp.twin.single = true) (hp : s.wp.twin.paired = false)
    (hs : s.wp.twin.since + 1000000000 ≤ s.now) :
    ∃ t, exec .pairingRetry s = .next t ∧ t.wp.twin.nonce ≠ 0 ∧
      t = { s with freeCtr := t.freeCtr, wp := { s.wp with twin := { s.wp.twin with since := s.now, nonce := t.wp.twin.nonce } } } := by
  refine ⟨startPairing (s.modTwin fun t => { t with since := s.now }), ?_, startPairing_nonce _, rfl⟩
  show execPairingRetry s = _
  unfold execPairingRetry
  dsimp only
  rw [hr, hg, hp, decide_eq_true hs]
  exact onlyIf_true _ _

/-! ## The partner is lost (R353) -/

theorem exec_heartbeatLoss {s : State} {x : TwinSec} (hr : s.running = true) (hx : s.img.twin = some x) (hp : s.wp.twin.paired = true)
    (hl : s.wp.twin.hbTime + x.hbLoss * 1000 < s.now) :
    exec .heartbeatLoss s = .next (if mirroring s then twinLost s else s.modTwin fun t => { t with paired := false, nonce := 0 }) := by
  show execHeartbeatLoss s = _
  unfold execHeartbeatLoss
  rw [hx]
  dsimp only
  rw [hr, hp, decide_eq_true hl]
  exact onlyIf_true _ _

/-- The registers as a loss of the twin leaves them. -/
def lossCounted (s : State) : State := (if s.twinUp then s.inc Fld.mapTwinStsLosses else s).put Fld.mapTwinStsState 3

/-- The twin no longer paired. -/
def unpaired (s : State) : State := { s with wp := { s.wp with twin := { s.wp.twin with
  paired := false
  nonce := 0
  todo := []
  scan := none
  descs := []
  probes := [] } } }

theorem twinLost_of_noReqs {s : State} (hm : mirroring s = true) (hq : s.reqs = []) : twinLost s = budget (unpaired (lossCounted s)) := by
  have hreqs : (unpaired (lossCounted s)).reqs = [] := by
    rw [← hq]
    unfold lossCounted
    split <;> rfl
  show (if !mirroring s then s else budget (((bySluice ((unpaired (lossCounted s)).reqs.filter fun e => e.2.opc == 2))).foldl _ (unpaired (lossCounted s)))) = _
  rw [hm, hreqs]
  rfl

theorem lossCounted_wp (s : State) : (lossCounted s).wp = s.wp := by
  unfold lossCounted
  split <;> rfl

theorem lossCounted_losses (s : State) : (lossCounted s).get Fld.mapTwinStsLosses =
    if s.get Fld.mapTwinStsState = 2 then min Fld.mapTwinStsLosses.max (s.get Fld.mapTwinStsLosses + 1) else s.get Fld.mapTwinStsLosses := by
  unfold lossCounted
  rw [State.get_put_field _ (by decide) (by decide)]
  by_cases h : s.get Fld.mapTwinStsState = 2
  · have hup : s.twinUp = true := beq_iff_eq.mpr h
    rw [if_pos hup, if_pos h]
    exact State.get_inc_same s Fld.mapTwinStsLosses (by decide) 0 1
  · have hup : ¬s.twinUp = true := fun g => h (beq_iff_eq.mp g)
    rw [if_neg hup, if_neg h]

theorem heartbeat_lost {s : State} {x : TwinSec} (hr : s.running = true) (hx : s.img.twin = some x) (hp : s.wp.twin.paired = true)
    (hl : s.wp.twin.hbTime + x.hbLoss * 1000 < s.now) :
    (mirroring s = false → exec .heartbeatLoss s = .next { s with wp := { s.wp with twin := { s.wp.twin with paired := false, nonce := 0 } } }) ∧
    (mirroring s = true → s.reqs = [] → ∃ t, exec .heartbeatLoss s = .next t ∧ t.get Fld.mapTwinStsState = 3 ∧
      t.get Fld.mapTwinStsLosses = (if s.get Fld.mapTwinStsState = 2 then min Fld.mapTwinStsLosses.max (s.get Fld.mapTwinStsLosses + 1)
        else s.get Fld.mapTwinStsLosses) ∧
      t.wp = { s.wp with twin := { s.wp.twin with paired := false, nonce := 0, todo := [], scan := none, descs := [], probes := [] } }) := by
  refine ⟨fun hm => (exec_heartbeatLoss hr hx hp hl).trans (by rw [hm]; rfl), fun hm hq => ?_⟩
  refine ⟨budget (unpaired (lossCounted s)), (exec_heartbeatLoss hr hx hp hl).trans (by rw [if_pos hm, twinLost_of_noReqs hm hq]), ?_, ?_, ?_⟩
  · rw [State.get_budget _ (by decide) (by decide)]
    exact State.get_put_same _ Fld.mapTwinStsState (by decide) 3 0
  · rw [State.get_budget _ (by decide) (by decide)]
    exact lossCounted_losses s
  · rw [budget_wp]
    show { (lossCounted s).wp with twin := { (lossCounted s).wp.twin with
      paired := false
      nonce := 0
      todo := []
      scan := none
      descs := []
      probes := [] } } = _
    rw [lossCounted_wp]

/-! ## Records and heartbeats come in (R112, R115, R352, R353) -/

/-- What the take of an outstanding read and the release of held ones leave. -/
theorem taken_released {p : Purpose} {s u : State} {o : Outst} (h : takeOutst p s = some (o, u)) :
    releaseHeld u = { s with fab := (releaseHeld u).fab, pwr := (releaseHeld u).pwr } := by
  rw [releaseHeld_rest u, takeOutst_state h]

/-- A record names the partner, carries its MAC, and echoes the NONCE or nothing (R112, R352). -/
def RecordHolds (s : State) (x : TwinSec) (b : List Byte) : Prop :=
  fieldAt b 4 2 = x.peerHid ∧ (b.drop 0x30).take 48 = pairMac s (b.take 0x30) ∧ (fieldAt b 0x10 8 = 0 ∨ fieldAt b 0x10 8 = s.wp.twin.nonce.toNat)

theorem recordRead_eq {s : State} {x : TwinSec} {b : List Byte} (hx : s.img.twin = some x) (hp : s.wp.twin.paired = false)
    (hb : fieldAt b 0 4 = 0x52494150) :
    (¬RecordHolds s x b → recordRead b s = s.logPacked uMAP 0x1006 [(2, fieldAt b 4 2)]) ∧ (RecordHolds s x b → recordRead b s = pairHeld x b s) := by
  have hgo : ¬(s.wp.twin.paired = true ∨ fieldAt b 0 4 ≠ 0x52494150) := by
    rw [hp, hb]
    simp
  have hiff : (fieldAt b 4 2 ≠ x.peerHid ∨ (b.drop 0x30).take 48 ≠ pairMac s (b.take 0x30) ∨
      (fieldAt b 0x10 8 ≠ 0 ∧ fieldAt b 0x10 8 ≠ s.wp.twin.nonce.toNat)) ↔ ¬RecordHolds s x b := by
    unfold RecordHolds
    tauto
  unfold recordRead
  rw [hx]
  dsimp only
  rw [if_neg hgo]
  exact ⟨fun h => if_pos (hiff.mpr h), fun h => if_neg fun g => hiff.mp g h⟩

/-- What a record that holds leaves of the twin (R352). -/
def recordKept (b : List Byte) (t : Twin) : Twin := { t with
  echo := BitVec.ofNat 64 (fieldAt b 8 8)
  peerDmax := fieldAt b 0x18 4
  peerSlots := fieldAt b 0x1C 4 }

/-- Pairing complete, from now on (R352). -/
def pairedFrom (now : Nat) (t : Twin) : Twin := { t with
  paired := true
  single := false
  hbIn := 0
  hbTime := now }

/-- The state as a record that echoes the NONCE leaves it, but for the budget. -/
def pairedBy (x : TwinSec) (b : List Byte) (s : State) : State :=
  ((({ s with wp := { s.wp with twin := pairedFrom s.now (recordKept b s.wp.twin) } } : State).put Fld.glbBootStsTwin 1).put Fld.mapTwinStsPeerHid x.peerHid)

theorem pairHeld_eq (x : TwinSec) (b : List Byte) (s : State) :
    pairHeld x b s = if fieldAt b 0x10 8 = 0 then { s with wp := { s.wp with twin := recordKept b s.wp.twin } } else budget (pairedBy x b s) := rfl

theorem pairedBy_spec (x : TwinSec) (b : List Byte) (s : State) :
    (budget (pairedBy x b s)).get Fld.glbBootStsTwin = 1 ∧ (budget (pairedBy x b s)).get Fld.mapTwinStsPeerHid = x.peerHid % 2 ^ 14 ∧
      (budget (pairedBy x b s)).wp = { s.wp with twin := pairedFrom s.now (recordKept b s.wp.twin) } ∧ (budget (pairedBy x b s)).fab = s.fab := by
  unfold pairedBy
  refine ⟨?_, ?_, ?_, ?_⟩
  · rw [State.get_budget _ (by decide) (by decide), State.get_put_kind _ (by decide), State.get_put_same _ _ (by decide)]
    rfl
  · rw [State.get_budget _ (by decide) (by decide), State.get_put_same _ _ (by decide)]
    rfl
  · rw [budget_wp]
    rfl
  · rw [budget_rest]
    rfl

theorem recordReceived_next {s u : State} {o : Outst} {b : List Byte} (hon : s.coreOn = true) (ht : takeOutst (.mailbox false) s = some (o, u))
    (hl : b.length = 96) : exec (.pairingRecordReceived b) s = .next (recordRead b (releaseHeld u)) := by
  show execPairingRecordReceived b s = _
  unfold execPairingRecordReceived
  rw [ht]
  dsimp only
  rw [hon, hl]
  exact onlyIf_true _ _

/-- What reading a record leaves, in a state with the twin of `s`. -/
theorem recordRead_spec {v : State} {x : TwinSec} {b : List Byte} (hx : v.img.twin = some x) (hp : v.wp.twin.paired = false)
    (hb : fieldAt b 0 4 = 0x52494150) :
    (recordRead b v).fab = v.fab ∧
      (¬RecordHolds v x b → (recordRead b v).wp = v.wp ∧ Logged v (recordRead b v) uMAP 0x1006 ∧ OtherRegs v (recordRead b v) .glbLogSeq 0) ∧
      (RecordHolds v x b → fieldAt b 0x10 8 = 0 → (recordRead b v).regs = v.regs ∧ (recordRead b v).wp = { v.wp with twin := recordKept b v.wp.twin }) ∧
      (RecordHolds v x b → fieldAt b 0x10 8 ≠ 0 → (recordRead b v).get Fld.glbBootStsTwin = 1 ∧
        (recordRead b v).get Fld.mapTwinStsPeerHid = x.peerHid % 2 ^ 14 ∧ (recordRead b v).wp = { v.wp with twin := pairedFrom v.now (recordKept b v.wp.twin) }) := by
  obtain ⟨hbad, hgood⟩ := recordRead_eq hx hp hb
  obtain ⟨htwin, hhid, hwp, hfab⟩ := pairedBy_spec x b v
  refine ⟨?_, fun h => ?_, fun h h0 => ?_, fun h h0 => ?_⟩
  · by_cases h : RecordHolds v x b
    · rw [hgood h, pairHeld_eq]
      split
      · rfl
      · exact hfab
    · rw [hbad h]
      rfl
  · rw [hbad h]
    exact ⟨rfl, logged_logPacked _ _ _ _ _, otherRegs_logEntry _ _ _ _ _⟩
  · rw [hgood h, pairHeld_eq, if_pos h0]
    exact ⟨rfl, rfl⟩
  · rw [hgood h, pairHeld_eq, if_neg h0]
    exact ⟨htwin, hhid, hwp⟩

theorem heartbeat_received {s u : State} {x : TwinSec} {o : Outst} {b : List Byte} (hon : s.coreOn = true) (hx : s.img.twin = some x)
    (ht : takeOutst (.mailbox true) s = some (o, u)) (hl : b.length = 64) :
    ∃ t, exec (.heartbeatReceived b) s = .next t ∧ t.fab = (releaseHeld u).fab ∧ t.regs = s.regs ∧
      (∀ hid n, Config.heartbeatRead s.sec.pairKey b = some (hid, n) → s.wp.twin.paired = true → hid = x.peerHid → s.wp.twin.hbIn < n →
        t.wp = { s.wp with twin := { s.wp.twin with hbIn := n, hbTime := s.now } }) ∧
      ((Config.heartbeatRead s.sec.pairKey b = none ∨ ∃ hid n, Config.heartbeatRead s.sec.pairKey b = some (hid, n) ∧ (hid ≠ x.peerHid ∨ n ≤ s.wp.twin.hbIn)) →
        t.wp = s.wp) := by
  have hv := taken_released ht
  have hexec : exec (.heartbeatReceived b) s = .next (heartbeatRead b (releaseHeld u)) := by
    show execHeartbeatReceived b s = _
    unfold execHeartbeatReceived
    rw [ht]
    dsimp only
    rw [hon, hl]
    exact onlyIf_true _ _
  have hregs : (releaseHeld u).regs = s.regs := (congrArg State.regs hv :)
  have himg : (releaseHeld u).img = s.img := (congrArg State.img hv :)
  have hsec : (releaseHeld u).sec = s.sec := (congrArg State.sec hv :)
  have hwp : (releaseHeld u).wp = s.wp := (congrArg State.wp hv :)
  have hnow : (releaseHeld u).now = s.now := by rw [hv]; exact rfl
  refine ⟨_, hexec, ?_⟩
  generalize releaseHeld u = v at *
  unfold heartbeatRead
  rw [himg, hx, hsec, hwp]
  cases hread : Config.heartbeatRead s.sec.pairKey b with
  | none => exact ⟨rfl, hregs, fun hid n h => absurd h (by simp), fun _ => hwp⟩
  | some r =>
    obtain ⟨hid, n⟩ := r
    dsimp only
    by_cases h : s.wp.twin.paired = true ∧ hid = x.peerHid ∧ s.wp.twin.hbIn < n
    · rw [if_pos h]
      refine ⟨rfl, hregs, ?_, ?_⟩
      · rintro hid' n' he - - -
        obtain ⟨rfl, rfl⟩ := Prod.mk.inj (Option.some.inj he)
        show { v.wp with twin := { v.wp.twin with hbIn := n, hbTime := v.now } } = _
        rw [hwp, hnow]
      · rintro (he | ⟨hid', n', he, hno⟩)
        · exact absurd he (by simp)
        · obtain ⟨rfl, rfl⟩ := Prod.mk.inj (Option.some.inj he)
          obtain ⟨-, hpeer, hlt⟩ := h
          exact absurd hno (by rintro (g | g); exacts [g hpeer, absurd hlt (Nat.not_lt.mpr g)])
    · rw [if_neg h]
      refine ⟨rfl, hregs, ?_, fun _ => hwp⟩
      intro hid' n' he hpair hpeer hlt
      obtain ⟨rfl, rfl⟩ := Prod.mk.inj (Option.some.inj he)
      exact absurd ⟨hpair, hpeer, hlt⟩ h

theorem reconciliation_end {s : State} (hr : s.running = true) (hs : s.get Fld.mapTwinStsState = 1) (hn : s.wp.twin.scan = none)
    (hp : s.wp.twin.probes = []) (ht : s.wp.twin.todo = []) :
    ∃ t, exec .reconciliationEnd s = .next t ∧ t.get Fld.mapTwinStsState = 2 ∧ t = { s with regs := t.regs } := by
  refine ⟨budget (s.put Fld.mapTwinStsState 2), ?_, ?_, ?_⟩
  · show execReconciliationEnd s = _
    unfold execReconciliationEnd
    rw [hr, hs, hn, hp, ht]
    exact onlyIf_true _ _
  · rw [State.get_budget _ (by decide) (by decide), State.get_put_same _ _ (by decide)]
    rfl
  · rw [budget_rest]
    rfl

end Sys2Proof.Machine
end


section
/-! PROOFS. O55, continued: reconciliation. -/
namespace Sys2Proof.Machine

/-! ## One own copy (R356, step 2) -/

theorem Tab.find_single (k : Nat) (p : α) : Tab.find k [(k, p)] = some p := by
  unfold Tab.find
  exact if_pos rfl

theorem Tab.modify_single (k : Nat) (f : α → α) (p : α) : Tab.modify k f [(k, p)] = [(k, f p)] := by
  unfold Tab.modify
  exact if_pos rfl

theorem liveCopy_st {p : Pan} (h : liveCopy p = true) : p.st ≠ 0 := by
  intro h0
  unfold liveCopy at h
  rw [h0] at h
  simp at h

/-- An own copy sent again: its mirror copy goes to its own index. -/
def resent (slot : Nat) (p : Pan) : Pan := { p with mirAt := slot, mirOld := if p.mirAt = slot then p.mirOld else some p.mirAt }

theorem resend_own {s : State} {k : Nat} {p : Pan} (h : s.wp.own = [(k, p)]) :
    resend k s = { s with
      mov := (resend k s).mov
      wp := { s.wp with own := [(k, resent k p)], twin := { s.wp.twin with todo := k :: s.wp.twin.todo.erase k } } } ∧
    (resend k s).mov.jobs = s.mov.jobs ++ [(reconJob s k p).1] := by
  have hpan : s.pan k = some p := by
    unfold State.pan
    rw [h]
    exact Tab.find_single k p
  have hown : Tab.modify k (resent k) s.wp.own = [(k, resent k p)] := by rw [h, Tab.modify_single]
  unfold resend
  rw [hpan]
  have hport : (reconJob s k p).2 = s.nextPort.2 := rfl
  dsimp only
  rw [← hown, hport]
  generalize (reconJob s k p).1 = j
  exact ⟨rfl, rfl⟩

theorem reconOwn_held {ds : List MirDesc} {s : State} {k : Nat} {p : Pan} {d : MirDesc} (hl : liveCopy p = true) (hd : heldBy ds p = some d) :
    reconOwn ds s (k, p) = s.modPan k fun p => { p with mirrored := true, mirAt := d.slot } := by
  unfold reconOwn
  rw [hl]
  dsimp only
  rw [hd]
  rfl

theorem reconOwn_resent {ds : List MirDesc} {s : State} {k : Nat} {p : Pan} (hl : liveCopy p = true) (hd : heldBy ds p = none) :
    reconOwn ds s (k, p) = resend k s := by
  unfold reconOwn
  rw [hl]
  dsimp only
  rw [hd]
  rfl

/-! ## One mirror slot (R356, steps 3 and 4) -/

/-- The job that writes the descriptor of a mirror copy let go. -/
def goneJob (p : Pan) (s : State) : Job := {
  path := .desc
  prio := 1
  vc := 3
  port := s.mov.rot % 16
  age := p.rtag
  prog := [moveWord true 1 0 0 0 63 0 (descAddr ((s.img.twin.map (·.peerMir)).getD 0) p.mirAt)]
  init := bufPut 0 (descBytes p 0x2F p.mcrc) []
  crypt := none
  c0 := false }

theorem goneJob_init (p : Pan) (s : State) : (goneJob p s).init = bufPut 0 (descBytes p 0x2F p.mcrc) [] := by
  dsimp only [goneJob]

theorem releaseMirror_eq (p : Pan) (s : State) : releaseMirror p s = s.nextPort.2.queueJob (goneJob p s) := by
  dsimp only [releaseMirror, goneJob, State.nextPort]

/-- The write that lets a mirror copy go. -/
theorem releaseMirror_spec (p : Pan) (s : State) :
    releaseMirror p s = { s with mov := (releaseMirror p s).mov } ∧ (releaseMirror p s).mov.jobs = s.mov.jobs ++ [goneJob p s] := by
  rw [releaseMirror_eq]
  exact ⟨rfl, rfl⟩

theorem letGo_absent {d : MirDesc} {s : State} (h : s.pan d.slot = none) : letGo d s = releaseMirror (descPan s d) s := by
  unfold letGo
  rw [h]
  rfl

/-- A mirror slot not newer than an own copy asks nothing of the map. -/
theorem reconMirror_held {own : Tab Pan} {s : State} {d : MirDesc} (h : (own.any fun e => e.2.lta == d.lta && e.2.st != 0 && decide (d.seq ≤ e.2.seq)) = true) :
    reconMirror own s d = if own.any fun e => liveCopy e.2 && (heldBy [d] e.2).isSome then s else letGo d s := by
  unfold reconMirror
  rw [h]
  rfl

/-- A mirror slot that waits for what the map names. -/
def probing (d : MirDesc) (s : State) : State := s.modTwin fun t => { t with probes := t.probes ++ [d] }

theorem reconMirror_alone (s : State) (d : MirDesc) : reconMirror [] s d = probeLookup (probing d s) d.lta := rfl

/-- The probe taken from those that wait. -/
def unprobed (d : MirDesc) (s : State) : State := s.modTwin fun t => { t with probes := t.probes.erase d }

theorem probed_alone {s : State} {d : MirDesc} {seq : Nat} (ho : s.wp.own = []) (hp : s.wp.twin.probes = [d]) :
    probed d.slot seq s = if d.seq ≤ seq then letGo d (unprobed d s) else fetchBack d (unprobed d s) := by
  have hfind : [d].find? (fun x => x.slot == d.slot) = some d := by
    rw [List.find?_cons, beq_self_eq_true]
  have hown : (unprobed d s).wp.own = [] := ho
  unfold probed
  rw [hp, hfind]
  show (if ((unprobed d s).wp.own.any fun e => e.2.lta == d.lta && e.2.st != 0 && decide (d.seq ≤ e.2.seq)) || decide (d.seq ≤ seq) then
    letGo d (unprobed d s) else fetchBack d (unprobed d s)) = _
  rw [hown, List.any_nil, Bool.false_or]
  simp only [decide_eq_true_eq]

theorem unprobed_wp {s : State} {d : MirDesc} (hp : s.wp.twin.probes = [d]) :
    (unprobed d s).wp = { s.wp with twin := { s.wp.twin with probes := [] } } := by
  show { s.wp with twin := { s.wp.twin with probes := s.wp.twin.probes.erase d } } = _
  rw [hp, List.erase_cons_head]

/-- A copy that the map knows newer is let go. -/
theorem probed_old {s : State} {d : MirDesc} {seq : Nat} (ho : s.wp.own = []) (hp : s.wp.twin.probes = [d]) (hs : d.seq ≤ seq) :
    ∃ j, (probed d.slot seq s).mov.jobs = s.mov.jobs ++ [j] ∧ j.path = .desc ∧
      (probed d.slot seq s).wp = { s.wp with twin := { s.wp.twin with probes := [] } } := by
  have hpan : (unprobed d s).pan d.slot = none := by
    show Tab.find d.slot s.wp.own = none
    rw [ho]
    rfl
  rw [probed_alone ho hp, if_pos hs, letGo_absent hpan]
  obtain ⟨hrest, hjobs⟩ := releaseMirror_spec (descPan (unprobed d s) d) (unprobed d s)
  refine ⟨_, hjobs, rfl, ?_⟩
  rw [(congrArg State.wp hrest :), ← unprobed_wp hp]

/-- A copy read back into the first own slot (R345, R356). -/
theorem fetchBack_empty {s : State} (d : MirDesc) (ho : s.wp.own = []) (hn : 0 < ownSlots s) :
    ∃ j, (fetchBack d s).mov.jobs = s.mov.jobs ++ [j] ∧ j.path = .handoff 0 ∧ (fetchBack d s).wp.twin = { s.wp.twin with todo := 0 :: s.wp.twin.todo } ∧
      (((fetchBack d s).pan 0).map fun p => (p.lta, p.seq, p.mirAt, p.staged)) = some (d.lta, d.seq, d.slot, false) ∧
      (fetchBack d s).get Fld.mapTwinStsRefetch = min Fld.mapTwinStsRefetch.max (s.get Fld.mapTwinStsRefetch + 1) := by
  have hfree : firstFree s.wp.own 0 = 0 := by rw [ho]; rfl
  let b : Pan := { descPan s d with st := 0x11, staged := false, back := true }
  let u : State := (s.putPan 0 b).inc Fld.mapTwinStsRefetch
  let src : Nat := slotAddr ((u.img.twin.map (·.peerMir)).getD 0) u.wp.twin.peerSlots (descPan s d).mirAt
  let a := handoffJob u 0 (descPan s d) (some src) [] 0
  have hback : readBack (descPan s d) s = (true, a.2.queueJob a.1) := by
    unfold readBack
    rw [hfree]
    exact if_neg (Nat.not_le.mpr hn)
  have heq : fetchBack d s = (a.2.queueJob a.1).modTwin fun t => { t with todo := 0 :: t.todo } := by
    unfold fetchBack
    rw [hback, hfree]
    rfl
  rw [heq]
  refine ⟨a.1, rfl, rfl, rfl, ?_, ?_⟩
  · show (Tab.find 0 (Tab.put 0 b s.wp.own)).map _ = _
    rw [Tab.find_put_same]
    rfl
  · exact State.get_inc_same (s.putPan 0 b) Fld.mapTwinStsRefetch (by decide) 0 1

end Sys2Proof.Machine
end


section
/-! PROOFS. O55, continued: the descriptors are read one after another, then every copy is dealt with. -/
namespace Sys2Proof.Machine

/-! ## The steps on one copy -/

/-- The descriptors have all been read. -/
def scanned (s : State) : State := s.modTwin fun t => { t with scan := none, descs := [] }

theorem reconSteps_eq (s : State) : reconSteps s = s.wp.twin.descs.foldl (reconMirror s.wp.own) (s.wp.own.foldl (reconOwn s.wp.twin.descs) (scanned s)) := rfl

/-- The own copy in its slot, MIRRORED by the partner's copy in a slot. -/
def mirroredAt (slot : Nat) (p : Pan) : Pan := { p with mirrored := true, mirAt := slot }

theorem reconMirrors_held {own : Tab Pan} (s : State) : ∀ ds : List MirDesc,
    (∀ d ∈ ds, (own.any fun e => e.2.lta == d.lta && e.2.st != 0 && decide (d.seq ≤ e.2.seq)) = true ∧
      (own.any fun e => liveCopy e.2 && (heldBy [d] e.2).isSome) = true) → ds.foldl (reconMirror own) s = s
  | [], _ => rfl
  | d :: ds, h => by
    obtain ⟨hnew, hheld⟩ := h d List.mem_cons_self
    rw [List.foldl_cons, reconMirror_held hnew, if_pos hheld]
    exact reconMirrors_held s ds fun e he => h e (List.mem_cons_of_mem _ he)

theorem any_single (f : α → Bool) (a : α) : [a].any f = f a := by
  rw [List.any_cons, List.any_nil, Bool.or_false]

theorem heldBy_single {p : Pan} {d : MirDesc} (hl : d.lta = p.lta) (hs : d.seq = p.seq) (ht : d.tcrc = mirTcrc p) : heldBy [d] p = some d := by
  unfold heldBy
  rw [List.find?_cons, hl, hs, ht]
  simp only [beq_self_eq_true, Bool.and_self]

theorem not_newer {k : Nat} {p : Pan} {d : MirDesc} (hlive : liveCopy p = true) (hl : d.lta = p.lta) (hs : d.seq ≤ p.seq) :
    ([(k, p)].any fun e => e.2.lta == d.lta && e.2.st != 0 && decide (d.seq ≤ e.2.seq)) = true := by
  rw [any_single, hl, decide_eq_true hs, bne_iff_ne.mpr (liveCopy_st hlive), beq_self_eq_true]
  rfl

/-- Step 2 where the partner holds the one copy: it is MIRRORED, and nothing is sent or let go. -/
theorem reconSteps_held {s : State} {k : Nat} {p : Pan} {d : MirDesc} (ho : s.wp.own = [(k, p)]) (hlive : liveCopy p = true)
    (hd : heldBy s.wp.twin.descs p = some d) (hall : ∀ e ∈ s.wp.twin.descs, e.lta = p.lta ∧ e.seq = p.seq ∧ e.tcrc = mirTcrc p) :
    (reconSteps s).wp.own = [(k, mirroredAt d.slot p)] ∧ (reconSteps s).mov.jobs = s.mov.jobs ∧
      (reconSteps s).wp.twin = { s.wp.twin with scan := none, descs := [] } := by
  have heq : reconSteps s = (scanned s).modPan k (mirroredAt d.slot) := by
    rw [reconSteps_eq, ho, List.foldl_cons, List.foldl_nil, reconOwn_held hlive hd]
    refine reconMirrors_held _ _ fun e he => ?_
    obtain ⟨hl, hs, ht⟩ := hall e he
    refine ⟨not_newer hlive hl (Nat.le_of_eq hs), ?_⟩
    rw [any_single, hlive, heldBy_single hl hs ht]
    rfl
  rw [heq]
  refine ⟨?_, rfl, rfl⟩
  show Tab.modify k (mirroredAt d.slot) s.wp.own = _
  rw [ho, Tab.modify_single]

theorem heldBy_of_older {p : Pan} {d : MirDesc} (hs : d.seq < p.seq) : heldBy [d] p = none := by
  have hne : (d.seq == p.seq) = false := beq_eq_false_iff_ne.mpr (Nat.ne_of_lt hs)
  unfold heldBy
  rw [List.find?_cons, hne, Bool.and_false, Bool.false_and]
  rfl

/-- Steps 2 and 4 where the partner holds an older copy: the own one is sent again, the partner's let go. -/
theorem reconSteps_older {s : State} {k : Nat} {p : Pan} {d : MirDesc} (ho : s.wp.own = [(k, p)]) (hlive : liveCopy p = true)
    (hds : s.wp.twin.descs = [d]) (hl : d.lta = p.lta) (hs : d.seq < p.seq) (hk : d.slot ≠ k) :
    ∃ i j, (reconSteps s).mov.jobs = s.mov.jobs ++ [i, j] ∧ i.path = .recon k ∧ j.path = .desc ∧
      j.init = bufPut 0 (descBytes (descPan s d) 0x2F (descPan s d).mcrc) [] ∧ (reconSteps s).wp.twin.todo = k :: s.wp.twin.todo.erase k := by
  obtain ⟨hrest, hjobs⟩ := resend_own (s := scanned s) ho
  have hpan : (resend k (scanned s)).pan d.slot = none := by
    unfold State.pan
    rw [(congrArg (fun t : State => t.wp.own) hrest :)]
    exact if_neg (Ne.symm hk)
  have hdesc : descPan (resend k (scanned s)) d = descPan s d := by
    have himg : (resend k (scanned s)).img = s.img := (congrArg State.img hrest :)
    unfold descPan State.hid
    rw [himg]
  have heq : reconSteps s = releaseMirror (descPan s d) (resend k (scanned s)) := by
    rw [reconSteps_eq, ho, hds, List.foldl_cons, List.foldl_nil, List.foldl_cons, List.foldl_nil, reconOwn_resent hlive (heldBy_of_older hs),
      reconMirror_held (not_newer hlive hl (Nat.le_of_lt hs)), any_single, heldBy_of_older hs, letGo_absent hpan, hdesc, hlive]
    rfl
  obtain ⟨hgone, hgoneJobs⟩ := releaseMirror_spec (descPan s d) (resend k (scanned s))
  refine ⟨(reconJob (scanned s) k p).1, goneJob (descPan s d) (resend k (scanned s)), ?_, rfl, rfl, goneJob_init _ _, ?_⟩
  · rw [heq, hgoneJobs, hjobs, List.append_assoc]
    rfl
  · rw [heq, (congrArg (fun t : State => t.wp.twin.todo) hgone :), (congrArg (fun t : State => t.wp.twin.todo) hrest :)]
    exact rfl

/-- The state in which the map is asked about the one copy that only the partner holds. -/
def askedAlone (d : MirDesc) (s : State) : State := (probing d (scanned s)).inc Fld.mapCcHitHit

theorem probeEntry_alone {s : State} {d : MirDesc} {e : Nat} (hp : s.wp.twin.probes = [d]) (hb : ∀ r ∈ s.md.rds, r.2.own ≠ .recon d.slot)
    (he : entState e ≠ 1) : probeEntry d.lta e s = probed d.slot 0 s := by
  have hbusy : (s.md.rds.any fun r => r.2.own == .recon d.slot) = false := List.any_eq_false.mpr fun r hr => by
    rw [beq_iff_eq]
    exact hb r hr
  unfold probeEntry
  dsimp only
  rw [hp, List.filter_cons, hbusy, beq_self_eq_true, List.filter_nil]
  exact if_pos (Or.inl he)

theorem cacheHas_asked (d : MirDesc) (s : State) (line : Nat) : cacheHas (probing d (scanned s)) line = cacheHas s line := rfl

/-- Step 3 where the map names no member: the copy that only the partner holds is read back. -/
theorem reconSteps_alone {s : State} {d : MirDesc} {l : MLine} (ho : s.wp.own = []) (hds : s.wp.twin.descs = [d]) (hp : s.wp.twin.probes = [])
    (hl : cacheHas s (d.lta / 8) = some l) (he : entState ((l.ents[d.lta % 8]?).getD 0) ≠ 1) (hs : 0 < d.seq) (hn : 0 < ownSlots s)
    (hb : ∀ r ∈ s.md.rds, r.2.own ≠ .recon d.slot) :
    ∃ j, (reconSteps s).wp.twin.probes = [] ∧ (reconSteps s).wp.twin.todo = 0 :: s.wp.twin.todo ∧
      (((reconSteps s).pan 0).map fun p => (p.lta, p.seq, p.mirAt, p.staged)) = some (d.lta, d.seq, d.slot, false) ∧
      (reconSteps s).get Fld.mapTwinStsRefetch = min Fld.mapTwinStsRefetch.max (s.get Fld.mapTwinStsRefetch + 1) ∧
      (reconSteps s).mov.jobs = s.mov.jobs ++ [j] ∧ j.path = .handoff 0 := by
  have hprobes : (askedAlone d s).wp.twin.probes = [d] := by
    show s.wp.twin.probes ++ [d] = [d]
    rw [hp]
    rfl
  have heq : reconSteps s = fetchBack d (unprobed d (askedAlone d s)) := by
    rw [reconSteps_eq, ho, hds, List.foldl_nil, List.foldl_cons, List.foldl_nil, reconMirror_alone]
    unfold probeLookup
    rw [cacheHas_asked, hl]
    exact (probeEntry_alone hprobes hb he).trans ((probed_alone (s := askedAlone d s) ho hprobes).trans (if_neg (Nat.not_le.mpr hs)))
  obtain ⟨j, hjobs, hpath, htwin, hpan, href⟩ := fetchBack_empty (s := unprobed d (askedAlone d s)) d ho hn
  have hwp := unprobed_wp hprobes
  refine ⟨j, ?_, ?_, by rw [heq]; exact hpan, ?_, by rw [heq]; exact hjobs, hpath⟩
  · rw [heq, htwin, hwp]
  · rw [heq, htwin]
    rfl
  · rw [heq, href]
    have hafter : (unprobed d (askedAlone d s)).regs = (askedAlone d s).regs := rfl
    have hbefore : (probing d (scanned s)).regs = s.regs := rfl
    rw [State.get_of_regs hafter, askedAlone, State.get_inc_kind _ (by decide), State.get_of_regs hbefore]

/-! ## Start (R116, R356) -/

/-- Reconciliation runs, with no descriptor read. -/
def reconBegun (s : State) : State := (s.put Fld.mapTwinStsState 1).modTwin fun t => { t with
  todo := []
  scan := some 0
  descs := []
  probes := [] }

theorem exec_reconciliationStart {s : State} (hr : s.running = true) (hs : s.stage = 8 ∨ s.stage = 9) (hp : s.wp.twin.paired = true)
    (hm : mirroring s = false) (hf : s.wp.pfail = false) :
    exec .reconciliationStart s = .next (if s.wp.twin.peerSlots = 0 then reconSteps (reconBegun s) else readDesc 0 (reconBegun s)) := by
  have hstage : (s.stage == 8 || s.stage == 9) = true := by
    rcases hs with h | h
    · rw [h]
      rfl
    · rw [h]
      rfl
  show execReconciliationStart s = _
  unfold execReconciliationStart
  rw [hr, hstage, hp, hm, hf]
  exact onlyIf_true _ _

/-- The read of a descriptor goes out as class-3 work. -/
theorem readDesc_spec {s : State} {x : TwinSec} (hx : s.img.twin = some x) (slot : Nat) :
    (readDesc slot s).fab = fabIssue s.now s.fab (mkReq (s.mov.rot % 16) 3 .rd (descAddr x.peerMir slot) 64 []) (.mirDesc slot) ∧
      (readDesc slot s).wp = s.wp ∧ (readDesc slot s).regs = s.regs := by
  unfold readDesc
  rw [hx]
  exact ⟨rfl, rfl, rfl⟩

theorem reconBegun_state (s : State) : (reconBegun s).get Fld.mapTwinStsState = 1 := State.get_put_same s Fld.mapTwinStsState (by decide) 1 0

theorem reconciliation_reads {s : State} {x : TwinSec} (hr : s.running = true) (hx : s.img.twin = some x) (hs : s.stage = 8 ∨ s.stage = 9)
    (hp : s.wp.twin.paired = true) (hm : mirroring s = false) (hf : s.wp.pfail = false) (hn : 0 < s.wp.twin.peerSlots) :
    ∃ t, exec .reconciliationStart s = .next t ∧ t.get Fld.mapTwinStsState = 1 ∧ t.wp.twin.scan = some 0 ∧ t.wp.twin.descs = [] ∧ t.wp.own = s.wp.own ∧
      t.fab = fabIssue s.now s.fab (mkReq (s.mov.rot % 16) 3 .rd (descAddr x.peerMir 0) 64 []) (.mirDesc 0) := by
  obtain ⟨hfab, hwp, hregs⟩ := readDesc_spec (s := reconBegun s) hx 0
  refine ⟨readDesc 0 (reconBegun s), (exec_reconciliationStart hr hs hp hm hf).trans (by rw [if_neg (Nat.ne_of_gt hn)]), ?_, ?_, ?_, ?_, hfab⟩
  · rw [State.get_of_regs hregs]
    exact reconBegun_state s
  · rw [hwp]
    rfl
  · rw [hwp]
    rfl
  · rw [hwp]
    rfl

/-- A partner without slots: the one own copy is sent again at once. -/
theorem reconciliation_sends {s : State} (hr : s.running = true) (hs : s.stage = 8 ∨ s.stage = 9) (hp : s.wp.twin.paired = true)
    (hm : mirroring s = false) (hf : s.wp.pfail = false) {slot : Nat} {p : Pan} (hn : s.wp.twin.peerSlots = 0) (ho : s.wp.own = [(slot, p)])
    (hlive : liveCopy p = true) :
    ∃ t j, exec .reconciliationStart s = .next t ∧ t.get Fld.mapTwinStsState = 1 ∧
      t.wp.own = [(slot, { p with mirAt := slot, mirOld := if p.mirAt = slot then p.mirOld else some p.mirAt })] ∧ t.wp.twin.todo = [slot] ∧
      t.wp.twin.scan = none ∧ t.mov.jobs = s.mov.jobs ++ [j] ∧ j.path = .recon slot := by
  have heq : reconSteps (reconBegun s) = resend slot (scanned (reconBegun s)) := by
    rw [reconSteps_eq, show (reconBegun s).wp.twin.descs = [] from rfl, show (reconBegun s).wp.own = [(slot, p)] from ho, List.foldl_nil,
      List.foldl_cons, List.foldl_nil]
    exact reconOwn_resent hlive rfl
  obtain ⟨hrest, hjobs⟩ := resend_own (s := scanned (reconBegun s)) ho
  have hwp := (congrArg State.wp hrest :)
  have hregs : (resend slot (scanned (reconBegun s))).regs = (reconBegun s).regs := (congrArg State.regs hrest :)
  refine ⟨_, (reconJob (scanned (reconBegun s)) slot p).1, (exec_reconciliationStart hr hs hp hm hf).trans (by rw [if_pos hn, heq]), ?_, ?_, ?_, ?_, hjobs, rfl⟩
  · rw [State.get_of_regs hregs]
    exact reconBegun_state s
  · rw [hwp]
    rfl
  · rw [hwp]
    rfl
  · rw [hwp]
    rfl

/-! ## The answers (R356) -/

/-- The answered read leaves those in flight. -/
def descTaken (o : Outst) (s : State) : State := { s with fab := dropOutst s.fab o }

theorem exec_descResponse {s : State} {port vc tag slot : Nat} {o : Outst} {data : List Byte} (hr : s.running = true)
    (ho : findOutst s.fab port vc tag = some o) (hp : o.purpose = .mirDesc slot) (hk : o.req.kind = .rd) (hl : o.req.len = data.length)
    (hh : s.fab.held = []) : exec (.outboundResponse port vc tag .ok data) s = .next (descAnswered slot .ok data (descTaken o s)) := by
  have hcond : (RCode.ok != .ok || data.length == answerLen o.req) = true := by
    unfold answerLen
    rw [hk]
    simp [hl]
  show execOutboundResponse port vc tag .ok data s = _
  unfold execOutboundResponse
  rw [ho]
  dsimp only
  rw [codeTaken_of_ne o (by decide), State.coreOn_of_running hr, hcond]
  show onlyIf true s (answer o .ok data (releaseHeld (descTaken o s))) = _
  rw [releaseHeld_nil (s := descTaken o s) hh]
  unfold answer noteDram
  rw [hp]
  exact onlyIf_true _ _

/-- The descriptors read so far, with that of a slot. -/
def descsWith (slot : Nat) (data : List Byte) (s : State) : List MirDesc := s.wp.twin.descs ++ (descOf s slot data).toList

/-- The state after a descriptor has been read. -/
def descKept (slot : Nat) (data : List Byte) (s : State) : State :=
  s.modTwin fun t => { t with descs := t.descs ++ (descOf s slot data).toList, scan := some (slot + 1) }

theorem descAnswered_eq {s : State} {slot : Nat} (hs : s.wp.twin.scan = some slot) (data : List Byte) :
    descAnswered slot .ok data s = if slot + 1 < s.wp.twin.peerSlots then readDesc (slot + 1) (descKept slot data s) else reconSteps (descKept slot data s) := by
  unfold descAnswered
  rw [if_neg (not_not_intro hs)]
  rfl

end Sys2Proof.Machine
end


section
/-! PROOFS. O55, concluded. -/
namespace Sys2Proof.Machine

section
variable {s : State} {port vc tag slot : Nat} {o : Outst} {data : List Byte} (hr : s.running = true) (ho : findOutst s.fab port vc tag = some o)
  (hp : o.purpose = .mirDesc slot) (hk : o.req.kind = .rd) (hl : o.req.len = data.length) (hh : s.fab.held = []) (hs : s.wp.twin.scan = some slot)
include hr ho hp hk hl hh hs

/-- The state whose descriptors are dealt with after the answer. -/
def descRead (slot : Nat) (data : List Byte) (o : Outst) (s : State) : State := descKept slot data (descTaken o s)

theorem exec_descResponse_next : exec (.outboundResponse port vc tag .ok data) s =
    .next (if slot + 1 < s.wp.twin.peerSlots then readDesc (slot + 1) (descRead slot data o s) else reconSteps (descRead slot data o s)) :=
  (exec_descResponse hr ho hp hk hl hh).trans (congrArg _ (descAnswered_eq (s := descTaken o s) hs data))

theorem descResponse_more (hn : slot + 1 < s.wp.twin.peerSlots) :
    ∃ t, exec (.outboundResponse port vc tag .ok data) s = .next t ∧ t.wp.twin.descs = descsWith slot data s ∧ t.wp.twin.scan = some (slot + 1) ∧
      t.wp.own = s.wp.own := by
  have hwp : (readDesc (slot + 1) (descRead slot data o s)).wp = (descRead slot data o s).wp := rfl
  refine ⟨readDesc (slot + 1) (descRead slot data o s), (exec_descResponse_next hr ho hp hk hl hh hs).trans (by rw [if_pos hn]), ?_, ?_, ?_⟩
  · rw [hwp]
    rfl
  · rw [hwp]
    rfl
  · rw [hwp]
    rfl

theorem exec_descResponse_last (hn : s.wp.twin.peerSlots ≤ slot + 1) :
    exec (.outboundResponse port vc tag .ok data) s = .next (reconSteps (descRead slot data o s)) :=
  (exec_descResponse_next hr ho hp hk hl hh hs).trans (by rw [if_neg (Nat.not_lt.mpr hn)])

theorem descResponse_held (hn : s.wp.twin.peerSlots ≤ slot + 1) {k : Nat} {p : Pan} {d : MirDesc} (hown : s.wp.own = [(k, p)]) (hlive : liveCopy p = true)
    (hd : heldBy (descsWith slot data s) p = some d) (hall : ∀ e ∈ descsWith slot data s, e.lta = p.lta ∧ e.seq = p.seq ∧ e.tcrc = mirTcrc p) :
    ∃ t, exec (.outboundResponse port vc tag .ok data) s = .next t ∧ t.wp.own = [(k, { p with mirrored := true, mirAt := d.slot })] ∧
      t.mov.jobs = s.mov.jobs ∧ t.wp.twin = { s.wp.twin with scan := none, descs := [] } := by
  obtain ⟨howns, hjobs, htwin⟩ := reconSteps_held (s := descRead slot data o s) hown hlive hd hall
  exact ⟨_, exec_descResponse_last hr ho hp hk hl hh hs hn, howns, hjobs, htwin⟩

theorem descResponse_older (hn : s.wp.twin.peerSlots ≤ slot + 1) {k : Nat} {p : Pan} {d : MirDesc} (hown : s.wp.own = [(k, p)]) (hlive : liveCopy p = true)
    (hds : descsWith slot data s = [d]) (hlta : d.lta = p.lta) (hseq : d.seq < p.seq) (hne : d.slot ≠ k) :
    ∃ t i j, exec (.outboundResponse port vc tag .ok data) s = .next t ∧ t.mov.jobs = s.mov.jobs ++ [i, j] ∧ i.path = .recon k ∧ j.path = .desc ∧
      j.init = bufPut 0 (descBytes (descPan s d) 0x2F (descPan s d).mcrc) [] ∧ t.wp.twin.todo = k :: s.wp.twin.todo.erase k := by
  obtain ⟨i, j, hjobs, hi, hj, hinit, htodo⟩ := reconSteps_older (s := descRead slot data o s) hown hlive hds hlta hseq hne
  have hdesc : descPan (descRead slot data o s) d = descPan s d := rfl
  rw [hdesc] at hinit
  exact ⟨_, i, j, exec_descResponse_last hr ho hp hk hl hh hs hn, hjobs, hi, hj, hinit, htodo⟩

theorem descResponse_alone (hn : s.wp.twin.peerSlots ≤ slot + 1) {d : MirDesc} {l : MLine} (hown : s.wp.own = []) (hds : descsWith slot data s = [d])
    (hprobes : s.wp.twin.probes = []) (hline : cacheHas s (d.lta / 8) = some l) (he : entState ((l.ents[d.lta % 8]?).getD 0) ≠ 1) (hseq : 0 < d.seq)
    (hslots : 0 < ownSlots s) (hb : ∀ r ∈ s.md.rds, r.2.own ≠ .recon d.slot) :
    ∃ t j, exec (.outboundResponse port vc tag .ok data) s = .next t ∧ t.wp.twin.probes = [] ∧ t.wp.twin.todo = 0 :: s.wp.twin.todo ∧
      ((t.pan 0).map fun p => (p.lta, p.seq, p.mirAt, p.staged)) = some (d.lta, d.seq, d.slot, false) ∧
      t.get Fld.mapTwinStsRefetch = min Fld.mapTwinStsRefetch.max (s.get Fld.mapTwinStsRefetch + 1) ∧ t.mov.jobs = s.mov.jobs ++ [j] ∧
      j.path = .handoff 0 := by
  obtain ⟨j, hpr, htodo, hpan, href, hjobs, hj⟩ := reconSteps_alone (s := descRead slot data o s) hown hds hprobes hline he hseq hslots hb
  have hregs : (descRead slot data o s).regs = s.regs := rfl
  rw [State.get_of_regs hregs] at href
  exact ⟨_, j, exec_descResponse_last hr ho hp hk hl hh hs hn, hpr, htodo, hpan, href, hjobs, hj⟩

end

/-- A record as it comes in (R112, R115, R352). -/
theorem record_received {s u : State} {x : TwinSec} {o : Outst} {b : List Byte} (hon : s.coreOn = true) (hx : s.img.twin = some x)
    (ht : takeOutst (.mailbox false) s = some (o, u)) (hl : b.length = 96) (hp : s.wp.twin.paired = false) (hb : fieldAt b 0 4 = 0x52494150) :
    ∃ t, exec (.pairingRecordReceived b) s = .next t ∧ t.fab = (releaseHeld u).fab ∧
      (¬RecordHolds s x b → t.wp = s.wp ∧ Logged s t uMAP 0x1006 ∧ OtherRegs s t .glbLogSeq 0) ∧
      (RecordHolds s x b → fieldAt b 0x10 8 = 0 → t.regs = s.regs ∧ t.wp = { s.wp with twin := recordKept b s.wp.twin }) ∧
      (RecordHolds s x b → fieldAt b 0x10 8 ≠ 0 → t.get Fld.glbBootStsTwin = 1 ∧ t.get Fld.mapTwinStsPeerHid = x.peerHid % 2 ^ 14 ∧
        t.wp = { s.wp with twin := pairedFrom s.now (recordKept b s.wp.twin) }) := by
  have hv := taken_released ht
  have hregs : (releaseHeld u).regs = s.regs := (congrArg State.regs hv :)
  have himg : (releaseHeld u).img = s.img := (congrArg State.img hv :)
  have hwp : (releaseHeld u).wp = s.wp := (congrArg State.wp hv :)
  have hsec : (releaseHeld u).sec = s.sec := (congrArg State.sec hv :)
  have hlog : (releaseHeld u).log = s.log := (congrArg State.log hv :)
  have hnow : (releaseHeld u).now = s.now := by rw [hv]; exact rfl
  refine ⟨_, recordReceived_next hon ht hl, ?_⟩
  generalize releaseHeld u = v at *
  obtain ⟨hfab, hbad, hkept, hpaired⟩ := recordRead_spec (v := v) (by rw [himg]; exact hx) (by rw [hwp]; exact hp) hb
  have hholds : RecordHolds v x b = RecordHolds s x b := by
    unfold RecordHolds pairMac
    rw [hwp, hsec]
  rw [hholds] at hbad hkept hpaired
  rw [hwp] at hbad hkept hpaired
  rw [hregs] at hkept
  rw [hnow] at hpaired
  refine ⟨hfab, fun h => ?_, hkept, hpaired⟩
  obtain ⟨hw, hlogged, hother⟩ := hbad h
  refine ⟨hw, ?_, fun k i hki => ?_⟩
  · unfold Logged at hlogged
    rw [hlog] at hlogged
    exact hlogged
  · rw [hother k i hki, State.reg_of_regs hregs]

/-- Settles O55: each command of the twin protocol in turn. -/
theorem twinProtocol : Obligations.TwinProtocol := by
  unfold Obligations.TwinProtocol
  refine ⟨fun s x hr hx => ⟨?_, ?_, ?_, ?_, ?_, ?_, ?_, ?_, ?_⟩, fun s u x o b hon hx => ⟨?_, ?_⟩, ?_⟩
  · exact fun hf hp hd hn => pairing_record hr hx hf hp hd hn
  · exact fun hf hp hd _ => pairing_first hr hx hf hp hd
  · exact fun hp hd => heartbeat_sent hr hx hp hd
  · exact fun hf ht hp hs => pairing_timeout hr hx hf ht hp hs
  · exact fun hg hp hs => pairing_retry hr hg hp hs
  · exact fun hp hl => heartbeat_lost hr hx hp hl
  · exact fun hs hp hm hf => ⟨fun hn => reconciliation_reads hr hx hs hp hm hf hn, fun slot p hn ho hlive => reconciliation_sends hr hs hp hm hf hn ho hlive⟩
  · intro port vc tag o slot data ho hp hk hl hh hs
    refine ⟨fun hn => descResponse_more hr ho hp hk hl hh hs hn, fun hn => ⟨?_, ?_, ?_⟩⟩
    · exact fun k p d hown hlive hd hall => descResponse_held hr ho hp hk hl hh hs hn hown hlive hd hall
    · exact fun k p d hown hlive hds hlta hseq hne => descResponse_older hr ho hp hk hl hh hs hn hown hlive hds hlta hseq hne
    · exact fun d l hown hds hprobes hline he hseq hslots hb => descResponse_alone hr ho hp hk hl hh hs hn hown hds hprobes hline he hseq hslots hb
  · exact fun d seq ho hp hs => probed_old ho hp hs
  · exact fun ht hl hp hb => record_received hon hx ht hl hp hb
  · exact fun ht hl => heartbeat_received hon hx ht hl
  · exact fun s hr hs hn hp ht => reconciliation_end hr hs hn hp ht

end Sys2Proof.Machine
end


section
/-! SUPPORT. What programs, their journal pages and the members that they carry leave alone: the movers, the pans' state but for the own copies and the streams, the
power state, and some registers. -/
namespace Sys2Proof.Machine

/-- The registers that the destage of members leaves. -/
def stillKinds : List RegKind := [.sicPpendLo, .sicPpendHi, .mapFlushSts]

/-- What the destage of members leaves alone. -/
structure Still where
  mov  : Movers
  wp   : Write
  pwr  : Pwr
  regs : RegKind → Nat → Word
  sec  : Sec
  img  : Img

def stillOf (r : RegKind → Nat → Word) (m : Movers) (w : Write) (p : Pwr) (x : Sec) (i : Img) : Still where
  mov := m
  wp := { w with
    own := []
    streams := []
    seq := 0 }
  pwr := { p with dramIdle := false }
  regs k n := if k ∈ stillKinds then r k n else 0
  sec := x
  img := i

def State.still (s : State) : Still := stillOf (fun k n => s.reg k n) s.mov s.wp s.pwr s.sec s.img

theorem still_of {s t : State} (hr : ∀ k n, k ∈ stillKinds → t.reg k n = s.reg k n) (hm : t.mov = s.mov) (hw : t.wp = s.wp) (hp : t.pwr = s.pwr)
    (hx : t.sec = s.sec) (hi : t.img = s.img) : t.still = s.still := by
  have hregs : (fun k n => if k ∈ stillKinds then t.reg k n else 0) = fun k n => if k ∈ stillKinds then s.reg k n else 0 := by
    funext k n
    split
    · exact hr k n ‹_›
    · rfl
  unfold State.still stillOf
  rw [hregs, hm, hw, hp, hx, hi]

theorem still_put (s : State) (f : Fld) (hf : f.kind ∉ stillKinds) (v i : Nat) : (s.put f v i).still = s.still :=
  still_of (fun _ _ hk => State.reg_put_kind s (fun h => hf (h ▸ hk)) v i _) rfl rfl rfl rfl rfl

theorem still_putFlag (s : State) (f : Fld) (hf : f.kind ∉ stillKinds) (b : Bool) (i : Nat) : (s.putFlag f b i).still = s.still := still_put s f hf b.toNat i

theorem still_inc (s : State) (f : Fld) (hf : f.kind ∉ stillKinds) (i n : Nat) : (s.inc f i n).still = s.still := still_put s f hf _ i

theorem still_foldl {β : Type} (f : State → β → State) (h : ∀ s b, (f s b).still = s.still) (s : State) (l : List β) : (l.foldl f s).still = s.still := by
  induction l generalizing s with
  | nil => rfl
  | cons b l ih => rw [List.foldl_cons, ih, h]

/-- A change of the media state alone. -/
theorem still_media (s : State) (m : Media) : ({ s with md := m } : State).still = s.still := rfl

theorem still_fabric (s : State) (f : Fabric) : ({ s with fab := f } : State).still = s.still := rfl

theorem still_modSet (s : State) (n : Nat) (f : SetSt → SetSt) : (State.modSet s n f).still = s.still := rfl

theorem still_modRow (s : State) (id : Nat) (f : Row → Row) : (State.modRow s id f).still = s.still := rfl

theorem still_setLun (s : State) (k : Nat) (x : LunSt) : (State.setLun s k x).still = s.still := rfl

theorem still_modLun (k : Nat) (f : LunSt → LunSt) (s : State) : (modLun k f s).still = s.still := by
  unfold modLun
  simp only [still_setLun]

theorem still_enqueue (w : Want) (s : State) : (enqueue w s).still = s.still := by
  unfold enqueue
  simp only [still_modLun]

theorem still_setStream (s : State) (k : Nat) (x : Stream) : (State.setStream s k x).still = s.still := rfl

theorem still_jAppend (k : Nat) (r : JRec) (s : State) : (jAppend k r s).still = s.still := by
  unfold jAppend
  dsimp only
  repeat' split
  all_goals simp only [still_putFlag _ Fld.mapCkptStsHeld (by decide), still_setStream]

theorem still_setGrp (s : State) (set g : Nat) (x : Grp) : (State.setGrp s set g x).still = s.still := rfl

theorem still_issueAll (s : State) (l : List (FabReq × Purpose)) : (State.issueAll s l).still = s.still := by
  unfold State.issueAll
  split <;> rfl

theorem still_dramWrite (addr cls : Nat) (data : List Byte) (p : Purpose) (s : State) : (dramWrite addr cls data p s).still = s.still := by
  unfold dramWrite
  simp only [still_issueAll]

theorem still_putGrp (set g : Nat) (x : Grp) (s : State) : (putGrp set g x s).still = s.still := by
  unfold putGrp
  dsimp only
  simp only [still_setGrp, still_dramWrite]

theorem still_modUnit (s : State) (x : Nat) (f : UnitE → UnitE) : (State.modUnit s x f).still = s.still := rfl

theorem still_putUnit (x : Nat) (f : UnitE → UnitE) (s : State) : (putUnit x f s).still = s.still := by
  unfold putUnit
  dsimp only
  simp only [still_modUnit, still_dramWrite]

theorem still_closeGroup (set g : Nat) (s : State) : (closeGroup set g s).still = s.still := by
  unfold closeGroup
  dsimp only
  repeat' split
  all_goals simp only [still_jAppend, still_putGrp, still_putUnit, still_foldl, implies_true]

theorem still_groupEnd (set g : Nat) (s : State) : (groupEnd set g s).still = s.still := by
  unfold groupEnd
  repeat' split
  all_goals simp only [still_closeGroup]

theorem still_dropRow (id : Nat) (s : State) : (dropRow id s).still = s.still := by
  unfold dropRow
  simp only [still_groupEnd, still_media]

theorem still_modDir (s : State) (mt : Nat) (f : Dir → Dir) : (State.modDir s mt f).still = s.still := by
  unfold State.modDir
  dsimp only
  simp only [still_dramWrite, still_media, apply_ite State.still, ite_self]

theorem still_modPan (s : State) (slot : Nat) (f : Pan → Pan) : (State.modPan s slot f).still = s.still := rfl

theorem still_ckptTileDone (s : State) : (ckptTileDone s).still = s.still := rfl

theorem still_recordPan (slot : Nat) (s : State) : (recordPan slot s).still = s.still := by
  unfold recordPan
  repeat' split
  all_goals simp only [still_modPan, still_jAppend]

theorem still_issue (s : State) (q : FabReq) (p : Purpose) : (State.issue s q p).still = s.still := by
  unfold State.issue
  simp only [still_issueAll]

theorem still_lineRead (q : FabReq) (p : Purpose) (s : State) : (lineRead q p s).still = s.still := by
  unfold lineRead
  simp only [still_issue, still_fabric, apply_ite State.still, ite_self]

theorem still_dramRead (addr len cls : Nat) (p : Purpose) (s : State) : (dramRead addr len cls p s).still = s.still := by
  unfold dramRead
  simp only [still_lineRead, still_foldl, implies_true]

theorem still_readTiles (l : List Nat) (s : State) : (readTiles l s).still = s.still := by
  unfold readTiles
  refine still_foldl _ (fun s mt => ?_) s l
  split
  · simp only [still_dramRead, still_modDir]
  · rfl

theorem still_evictTile (s : State) : (evictTile s).still = s.still := by
  unfold evictTile
  dsimp only
  repeat' split
  all_goals simp only [still_readTiles]

theorem still_addRd (s : State) (r : Rd) : (State.addRd s r).2.still = s.still := rfl

theorem still_modRd (s : State) (id : Nat) (f : Rd → Rd) : (State.modRd s id f).still = s.still := rfl

theorem still_placePlain (id : Nat) (front : Bool) (s : State) : (placePlain id front s).still = s.still := by
  unfold placePlain
  repeat' split
  all_goals simp only [still_modRd, still_enqueue]

theorem still_gaugeTouch (key : Nat) (s : State) : (gaugeTouch key s).still = s.still := rfl

theorem still_withGauge (id : Nat) (go : State → State) (s : State) (h : ∀ t, (go t).still = t.still) : (withGauge id go s).still = s.still := by
  unfold withGauge
  dsimp only
  repeat' split
  all_goals simp only [h, still_modRd, still_dramRead, still_gaugeTouch]

theorem still_askPartner (id set grpNo : Nat) (x : Grp) (row q pos : Nat) (cls rtag : Nat) (s : State) : (askPartner id set grpNo x row q pos cls rtag s).still = s.still := by
  unfold askPartner
  dsimp only
  repeat' split
  all_goals simp only [still_addRd, still_placePlain, still_withGauge, implies_true]

theorem still_endRd (id code cbc : Nat) (plain raw : List Byte) (s : State) : (endRd id code cbc plain raw s).still = s.still := by
  unfold endRd
  simp only [still_modRd]

theorem still_uncorrRd (id : Nat) (s : State) : (uncorrRd id s).still = s.still := by
  unfold uncorrRd
  split
  · rfl
  · split
    · rfl
    · rw [still_endRd, still_inc s Fld.cryOutCntUncorr (by decide)]

theorem still_startRecon (id : Nat) (around : Bool) (s : State) : (startRecon id around s).still = s.still := by
  unfold startRecon
  dsimp only
  repeat' split
  all_goals simp only [still_modRd, still_askPartner, still_uncorrRd, still_foldl, implies_true]

theorem still_modRq (s : State) (rtag : Nat) (f : Request → Request) : (State.modRq s rtag f).still = s.still := rfl

theorem still_takeRaToken {id : Nat} {r : Rd} {s t : State} (h : takeRaToken id r s = some t) : t.still = s.still := by
  unfold takeRaToken at h
  dsimp only at h
  split at h
  · obtain rfl := Option.some.inj h
    rfl
  · split at h
    · cases h
    · obtain rfl := Option.some.inj h
      rfl

theorem still_tryAround (id : Nat) (s : State) : (tryAround id s).2.still = s.still := by
  unfold tryAround
  split
  · rfl
  · split
    · rfl
    · split
      · exact still_inc s Fld.mapC0Cnt2RaDeny (by decide) 0 1
      · rename_i t ht
        have htok := still_takeRaToken ht
        dsimp only
        split <;> simp only [still_startRecon, still_modRq, still_inc _ Fld.mapC0CntRa (by decide), htok]

theorem still_place (id : Nat) (s : State) : (place id s).still = s.still := by
  unfold place
  dsimp only
  repeat' split
  all_goals simp only [still_modRd, still_placePlain, still_startRecon, still_tryAround]

theorem still_startRd (r : Rd) (s : State) : (startRd r s).still = s.still := by
  unfold startRd
  dsimp only
  simp only [still_addRd, still_place, still_withGauge, implies_true]

theorem still_loadTile (mt cls : Nat) (s : State) : (loadTile mt cls s).still = s.still := by
  unfold loadTile
  dsimp only
  repeat' split
  all_goals simp only [still_modDir, still_evictTile, still_startRd, still_media]

theorem still_retryLoads (s : State) : (retryLoads s).still = s.still := by
  unfold retryLoads
  simp only [still_loadTile, still_foldl, still_media, implies_true]

/-- A map tile at its new place, in the directory and in its unit. -/
def tileNamed (e mt : Nat) (s : State) : State :=
  putUnit (entUnit (s.modDir mt fun d => { d with loc := e }) e) (fun u => { u with valid := u.valid + 1 }) (s.modDir mt fun d => { d with loc := e })

theorem still_tileNamed (e mt : Nat) (s : State) : (tileNamed e mt s).still = s.still := by
  unfold tileNamed
  rw [still_putUnit, still_modDir]

/-- A copy of the entry that a map tile had, kept until the next checkpoint. -/
def staleKept (old : Nat) (s : State) : State :=
  if entState old = 1 then { s with md := { s.md with stale := s.md.stale ++ [(old, s.md.ckptNo)] } } else s

theorem still_staleKept (old : Nat) (s : State) : (staleKept old s).still = s.still := by
  unfold staleKept
  split <;> rfl

/-- A map tile no longer among those that the checkpoint waits for. -/
def tileOff (mt : Nat) (s : State) : State := { s with md := { s.md with ckpt := s.md.ckpt.map fun c => { c with tiles := c.tiles.erase mt } } }

/-- A map tile that is safe. -/
def tileSafe (e mt : Nat) (s : State) : State := retryLoads (tileOff mt (staleKept (s.dirOf mt).loc (tileNamed e mt s)))

theorem still_tileSafe (e mt : Nat) (s : State) : (tileSafe e mt s).still = s.still :=
  (still_retryLoads _).trans ((still_staleKept _ _).trans (still_tileNamed e mt s))

theorem still_memberSafe (e : Nat) (m : Member) (s : State) : (memberSafe e m s).still = s.still := by
  unfold memberSafe
  split
  · split
    · simp only [apply_ite State.still, still_recordPan, still_modPan, ite_self]
    · rfl
  · split
    · simp only [apply_ite State.still, still_jAppend, still_media, ite_self]
    · rfl
  · rename_i mt _
    dsimp only
    rw [← tileNamed, ← staleKept, ← tileOff]
    exact still_tileSafe e mt s
  · rfl
  · rfl

theorem still_rowCheck (id : Nat) (s : State) : (rowCheck id s).still = s.still := by
  unfold rowCheck
  dsimp only
  repeat' split
  all_goals simp only [still_modRow, still_dropRow, still_memberSafe, still_foldl, implies_true]

theorem still_closeUnit (id slot : Nat) (s : State) : (closeUnit id slot s).still = s.still := by
  unfold closeUnit
  dsimp only
  repeat' split
  all_goals simp only [still_modRow, still_rowCheck]

theorem still_closures (set g r slot : Nat) (s : State) : (closures set g r slot s).still = s.still := by
  unfold closures
  dsimp only
  repeat' split
  all_goals simp only [still_closeUnit, still_foldl, implies_true]

theorem still_moveValid (old new : Nat) (s : State) : (moveValid old new s).still = s.still := by
  unfold moveValid
  dsimp only
  simp only [still_putUnit, apply_ite State.still, ite_self]

theorem still_nextSeq (s : State) : (nextSeq s).2.still = s.still := rfl

theorem still_writeDesc (slot : Nat) (s : State) : (writeDesc slot s).still = s.still := by
  unfold writeDesc
  repeat' split
  all_goals simp only [still_dramWrite]

theorem still_updDone (u : MUpd) (old : Nat) (s : State) : (updDone u old s).still = s.still := by
  unfold updDone
  dsimp only
  repeat' split
  all_goals simp only [still_modPan, still_modRq, still_jAppend, still_nextSeq, still_recordPan, still_writeDesc, still_media]

theorem still_applyTo (u : MUpd) (ents : List Nat) (s : State) : (applyTo u ents s).2.still = s.still := by
  unfold applyTo
  dsimp only
  split
  · simp only [still_updDone, still_moveValid]
  · rfl

theorem still_dirtyTile (lta : Nat) (s : State) : (dirtyTile lta s).still = s.still := by
  unfold dirtyTile
  simp only [still_modDir]

theorem still_delLine (s : State) (line : Nat) : (State.delLine s line).still = s.still := rfl

theorem still_setLine (s : State) (line : Nat) (l : MLine) : (State.setLine s line l).still = s.still := rfl

theorem still_readLine (line cls : Nat) (s : State) : (readLine line cls s).still = s.still := by
  unfold readLine
  repeat' split
  all_goals simp only [still_dramRead, still_media]

theorem still_writeBack (line cls : Nat) (s : State) : (writeBack line cls s).still = s.still := by
  unfold writeBack
  dsimp only
  repeat' split
  all_goals simp only [still_setLine, still_dramWrite]

theorem still_fetchLine (line cls : Nat) (prefetch : Bool) (s : State) : (fetchLine line cls prefetch s).still = s.still := by
  unfold fetchLine
  dsimp only
  repeat' split
  all_goals simp only [still_delLine, still_setLine, still_readLine, still_writeBack, still_media]

theorem still_storeLine (line : Nat) (ents : List Nat) (s : State) : (storeLine line ents s).still = s.still := by
  unfold storeLine
  repeat' split
  all_goals simp only [still_delLine, still_setLine, still_dramWrite]

theorem still_fresh (s : State) : s.fresh.2.still = s.still := rfl

theorem still_mapUpdate (u : MUpd) (cls : Nat) (s : State) : (mapUpdate u cls s).still = s.still := by
  unfold mapUpdate
  dsimp only
  split
  · rename_i l _
    have ht := still_applyTo u l.ents s
    generalize applyTo u l.ents s = a at ht ⊢
    obtain ⟨ents, t⟩ := a
    cases ents with
    | none => exact ht
    | some ents => exact (still_dirtyTile _ _).trans ((still_storeLine _ _ _).trans ht)
  · split
    · split
      · rfl
      · repeat' split
        all_goals simp only [still_dramWrite, still_media, still_updDone, still_moveValid, still_fresh, eq_self]
    · rw [still_fetchLine, still_media]

theorem still_memberPassed (e : Nat) (m : Member) (s : State) : (memberPassed e m s).still = s.still := by
  have hput (t : State) (n : Nat) : (t.put Fld.mapWaMediaTiles n).still = t.still := still_put t Fld.mapWaMediaTiles (by decide) n 0
  unfold memberPassed
  dsimp only
  split
  · split
    · simp only [apply_ite State.still, still_mapUpdate, still_writeDesc, still_modPan, hput, still_media, ite_self]
    · simp only [hput, still_media]
  · split
    · simp only [apply_ite State.still, still_mapUpdate, hput, still_media, ite_self]
    · simp only [hput, still_media]
  · simp only [hput, still_media]

theorem still_parityDone (id : Nat) (s : State) : (parityDone id s).still = s.still := by
  unfold parityDone
  dsimp only
  repeat' split
  all_goals simp only [still_modRow, still_putGrp, still_rowCheck]

theorem still_unitPassed (id pos : Nat) (s : State) : (unitPassed id pos s).still = s.still := by
  unfold unitPassed
  dsimp only
  repeat' split
  all_goals simp only [still_modRow, still_closures, still_memberPassed, still_parityDone, still_foldl, implies_true]

theorem still_queueUnit (cls id pos : Nat) (s : State) : (queueUnit cls id pos s).still = s.still := by
  unfold queueUnit
  dsimp only
  repeat' split
  all_goals simp only [still_modRow, still_enqueue, still_unitPassed]

theorem still_queueReady (cls id pos : Nat) (s : State) : (queueReady cls id pos s).still = s.still := by
  unfold queueReady
  dsimp only
  repeat' split
  all_goals simp only [still_queueUnit]

theorem still_parTouch (id q : Nat) (first : Bool) (s : State) : (parTouch id q first s).still = s.still := by
  unfold parTouch
  dsimp only
  repeat' split
  all_goals simp only [still_dramRead, still_dramWrite]

theorem still_setMember (id pos q : Nat) (m : Member) (s : State) : (setMember id pos q m s).still = s.still := by
  unfold setMember
  dsimp only
  repeat' split
  all_goals simp only [still_modRow, still_parTouch]

theorem still_putMember (cls id pos q : Nat) (m : Member) (s : State) : (putMember cls id pos q m s).still = s.still := by
  unfold putMember
  dsimp only
  repeat' split
  all_goals simp only [still_modSet, still_queueReady, still_setMember]

theorem still_openGroup {set estate : Nat} {slc : Bool} {s : State} {a : Nat × State} (h : openGroup set estate slc s = some a) : a.2.still = s.still := by
  unfold openGroup at h
  split at h
  · cases h
  · obtain rfl := Option.some.inj h
    simp only [still_foldl, still_putUnit, still_putGrp, implies_true]

theorem still_openJournal {k : Nat} {s : State} {a : (Nat × Nat) × State} (h : openJournal k s = some a) : a.2.still = s.still := by
  unfold openJournal at h
  split at h
  · cases h
  · split at h
    · cases h
    · rename_i ho
      obtain rfl := Option.some.inj h
      exact still_openGroup ho

theorem still_advancePos (k : Nat) (s : State) : (advancePos k s).still = s.still := by
  unfold advancePos
  dsimp only
  repeat' split
  all_goals simp only [still_setStream, still_queueUnit]

theorem still_journalMembers (k jseq id pos : Nat) (recs : List JRec) (s : State) : (journalMembers k jseq id pos recs s).still = s.still := by
  unfold journalMembers
  dsimp only
  simp only [still_setMember, still_foldl, implies_true]

theorem still_journalRow {id : Nat} {s t : State} (h : journalRow id s = some t) : t.still = s.still := by
  unfold journalRow at h
  split at h
  · obtain rfl := Option.some.inj h
    rfl
  · obtain ⟨o, -, rfl⟩ := Option.map_eq_some_iff.mp h
    rfl

theorem still_programPage (k jseq : Nat) (recs : List JRec) : ∀ (fuel : Nat) {s t : State}, programPage k jseq recs fuel s = some t → t.still = s.still
  | 0, s, t, h => by cases h
  | fuel + 1, s, t, h => by
    unfold programPage at h
    dsimp only at h
    split at h
    · cases h
    · split at h
      · cases h
      · rename_i r hr
        have hrow := still_journalRow hr
        split at h
        · rw [still_programPage k jseq recs fuel h, still_advancePos, still_modRow, hrow]
        · split at h
          · split at h
            · cases h
            · obtain rfl := Option.some.inj h
              rw [still_enqueue, still_setStream, still_journalMembers, hrow]
          · cases h

theorem still_withGroup {k : Nat} {s t : State} (h : withGroup k s = some t) : t.still = s.still := by
  unfold withGroup at h
  split at h
  · obtain rfl := Option.some.inj h
    rfl
  · obtain ⟨a, ha, rfl⟩ := Option.map_eq_some_iff.mp h
    exact still_openJournal ha

theorem still_lastPage {k : Nat} {s : State} {a : List JRec × State} (h : lastPage k s = some a) : a.2.still = s.still := by
  unfold lastPage at h
  dsimp only at h
  split at h
  · cases h
  · split at h
    · obtain ⟨b, hb, rfl⟩ := Option.map_eq_some_iff.mp h
      exact still_openJournal hb
    · obtain rfl := Option.some.inj h
      rfl

/-- A page of a stream programmed moves nothing beyond the media, the streams and the own copies. -/
theorem still_streamProgram {k : Nat} {s t : State} (h : streamProgram k s = some t) : t.still = s.still := by
  unfold streamProgram at h
  obtain ⟨u, hu, h⟩ := Option.bind_eq_some_iff.mp h
  obtain ⟨a, ha, h⟩ := Option.bind_eq_some_iff.mp h
  rw [still_programPage _ _ _ _ h, still_setStream, still_lastPage ha, still_withGroup hu]

end Sys2Proof.Machine
end


section
/-! PROOFS. O52: the hold-up flush from its start to DONE. -/
namespace Sys2Proof.Machine

/-! ## The plan (R359) -/

/-- The mirror region's descriptors read move nothing but the registers, the log and what is known of the region. -/
theorem scanMir_rest (l : List (Nat × List Byte)) (s : State) : scanMir l s = { s with
    regs := (scanMir l s).regs
    log := (scanMir l s).log
    wp := { s.wp with mir := (scanMir l s).wp.mir } } := by
  have hlog : ∀ (l : List (Nat × List Byte)) (s : State), l.foldl (fun s e => if mirState e.2 then s else s.logPacked uMAP 0x100C [(4, e.1), (1, 1)]) s = { s with
      regs := (l.foldl (fun s e => if mirState e.2 then s else s.logPacked uMAP 0x100C [(4, e.1), (1, 1)]) s).regs
      log := (l.foldl (fun s e => if mirState e.2 then s else s.logPacked uMAP 0x100C [(4, e.1), (1, 1)]) s).log } := by
    intro l
    induction l with
    | nil => exact fun _ => rfl
    | cons e l ih =>
      intro s
      rw [List.foldl_cons]
      by_cases h : mirState e.2 = true
      · rw [if_pos h]
        exact ih s
      · rw [if_neg h]
        refine (ih _).trans ?_
        rfl
  unfold scanMir
  dsimp only
  rw [budget_rest, hlog]

/-- Two states apart in what the plan of the flush moves. -/
def Planning (u v : State) : Prop := v = { u with
  md := { u.md with groups := v.md.groups, rows := v.md.rows }
  wp := { u.wp with plan := v.wp.plan }
  mov := v.mov }

namespace Planning
variable {u v w : State}

theorem trans (h : Planning u v) (g : Planning v w) : Planning u w := by
  unfold Planning at *
  rw [g, h]

theorem openFlushRow (id : Nat) (s : State) : Planning s (openFlushRow id s) := by
  unfold Sys2Proof.Machine.openFlushRow
  split
  · rfl
  · dsimp only
    split <;> rfl

theorem flushRow (h : Planning u v) (set i : Nat) : flushRow v set i = Sys2Proof.Machine.flushRow u set i := by
  rw [h]
  rfl

theorem flushSets (h : Planning u v) : flushSets v = Sys2Proof.Machine.flushSets u := by
  rw [h]
  rfl

theorem setProfile (h : Planning u v) (set : Nat) : setProfile v set = Sys2Proof.Machine.setProfile u set := by
  rw [h]
  rfl

theorem perRound (h : Planning u v) : perRound v = Sys2Proof.Machine.perRound u := by
  rw [h]
  rfl

theorem flushPlace (h : Planning u v) : ∀ (l : List Nat) (i n : Nat), flushPlace v l i n = Sys2Proof.Machine.flushPlace u l i n
  | [], _, _ => rfl
  | set :: r, i, n => by
    unfold Sys2Proof.Machine.flushPlace
    dsimp only
    rw [h.setProfile, h.flushRow, h.flushPlace r]

end Planning

/-- The place of the tile of a number in the plan. -/
def tilePlace (u : State) (n : Nat) : Option (Nat × Nat × Nat) := flushPlace u (flushSets u) (n / max 1 (perRound u)) (n % max 1 (perRound u))

theorem Planning.tilePlace {u v : State} (h : Planning u v) (n : Nat) : tilePlace v n = Sys2Proof.Machine.tilePlace u n := by
  unfold Sys2Proof.Machine.tilePlace
  rw [h.flushSets, h.perRound, h.flushPlace]

/-- A tile planned: its row is open, it stands in the plan, and the job that reads it is queued. -/
structure TilePlanned (n : Nat) (t : Bool × Nat) (s w : State) : Prop where
  rest : Planning s w
  plan : w.wp.plan = s.wp.plan ++ ((tilePlace s n).map fun p => (t.1, t.2, p)).toList
  jobs : w.mov.jobs.length = s.mov.jobs.length + ((tilePlace s n).map fun p => (t.1, t.2, p)).toList.length

/-- The row of a planned tile, open, and the tile in the plan. -/
def planAdded (t : Bool × Nat) (id pos q : Nat) (s : State) : State := { s with wp := { s.wp with plan := s.wp.plan ++ [(t.1, t.2, id, pos, q)] } }
def placed (t : Bool × Nat) (id pos q : Nat) (s : State) : State := planAdded t id pos q (openFlushRow id s)

/-- The job that reads a planned tile. -/
def tileJob (t : Bool × Nat) (port : Nat) (s : State) : Job := {
  path := if t.1 then .mirRead t.2 else .panRead t.2
  prio := 3
  vc := 2
  port := port
  age := 0
  prog := [moveWord true 0 0 0 0 4095 0 (if t.1 then mirAddr s t.2 else slotAddr s.img.hold.panBase (ownSlots s) t.2)]
  init := []
  crypt := none
  c0 := false }

/-- A planned tile, and the job that reads it. -/
def tileQueued (t : Bool × Nat) (u : State) : State := u.nextPort.2.queueJob (tileJob t u.nextPort.1 u)

theorem planTile_none {s : State} {n : Nat} (t : Bool × Nat) (h : tilePlace s n = none) : planTile s n t = s := by
  unfold tilePlace at h
  unfold planTile
  dsimp only
  rw [h]

theorem planTile_some {s : State} {n id pos q : Nat} (t : Bool × Nat) (h : tilePlace s n = some (id, pos, q)) :
    planTile s n t = tileQueued t (placed t id pos q s) := by
  unfold tilePlace at h
  unfold planTile
  dsimp only
  rw [h]
  rfl

theorem planAdded_planning (t : Bool × Nat) (id pos q : Nat) (v : State) : Planning v (tileQueued t (planAdded t id pos q v)) := by
  unfold tileQueued
  generalize tileJob t _ _ = j
  rfl

theorem placed_planning (t : Bool × Nat) (id pos q : Nat) (s : State) :
    Planning s (tileQueued t (placed t id pos q s)) ∧ (tileQueued t (placed t id pos q s)).wp.plan = s.wp.plan ++ [(t.1, t.2, id, pos, q)] ∧
      (tileQueued t (placed t id pos q s)).mov.jobs.length = s.mov.jobs.length + 1 := by
  have hopen := Planning.openFlushRow id s
  have hplan : (openFlushRow id s).wp.plan = s.wp.plan := by
    unfold openFlushRow
    split
    · rfl
    · dsimp only
      split <;> rfl
  have hmov : (openFlushRow id s).mov = s.mov := by
    unfold openFlushRow
    split
    · rfl
    · dsimp only
      split <;> rfl
  refine ⟨?_, ?_, ?_⟩
  · exact hopen.trans (planAdded_planning t id pos q _)
  · show (openFlushRow id s).wp.plan ++ _ = _
    rw [hplan]
  · show ((openFlushRow id s).mov.jobs ++ _).length = _
    rw [hmov, List.length_append]
    rfl

theorem planTile_planned (s : State) (n : Nat) (t : Bool × Nat) : TilePlanned n t s (planTile s n t) := by
  cases h : tilePlace s n with
  | none =>
    rw [planTile_none t h]
    exact ⟨rfl, by rw [h, Option.map_none, Option.toList_none, List.append_nil], by rw [h, Option.map_none, Option.toList_none, List.length_nil]; rfl⟩
  | some p =>
    obtain ⟨id, pos, q⟩ := p
    obtain ⟨hrest, hplan, hjobs⟩ := placed_planning t id pos q s
    rw [planTile_some t h]
    exact ⟨hrest, by rw [h]; exact hplan, by rw [h]; exact hjobs⟩

/-- The places of the tiles of a list, by number. -/
def placesOf (u : State) (l : List ((Bool × Nat) × Nat)) : List (Bool × Nat × Nat × Nat × Nat) :=
  l.filterMap fun x => (tilePlace u x.2).map fun p => (x.1.1, x.1.2, p)

theorem planTiles_planned {u : State} : ∀ (l : List ((Bool × Nat) × Nat)) {v : State}, Planning u v →
    Planning u (l.foldl (fun s t => planTile s t.2 t.1) v) ∧ (l.foldl (fun s t => planTile s t.2 t.1) v).wp.plan = v.wp.plan ++ placesOf u l ∧
      (l.foldl (fun s t => planTile s t.2 t.1) v).mov.jobs.length = v.mov.jobs.length + (placesOf u l).length
  | [], v, h => ⟨h, (List.append_nil _).symm, rfl⟩
  | x :: l, v, h => by
    have ht := planTile_planned v x.2 x.1
    obtain ⟨hrest, hplan, hjobs⟩ := planTiles_planned l (h.trans ht.rest)
    have hcons : placesOf u (x :: l) = ((tilePlace u x.2).map fun p => (x.1.1, x.1.2, p)).toList ++ placesOf u l := by
      unfold placesOf
      rw [List.filterMap_cons]
      cases tilePlace u x.2 <;> rfl
    have hp := ht.plan
    have hj := ht.jobs
    rw [h.tilePlace] at hp hj
    rw [List.foldl_cons]
    refine ⟨hrest, ?_, ?_⟩
    · rw [hplan, hp, hcons, List.append_assoc]
    · rw [hjobs, hj, hcons, List.length_append, Nat.add_assoc]

/-! ## Pads, and the flush started -/

theorem still_padFlush (s : State) : (padFlush s).still = s.still := by
  unfold padFlush
  refine still_foldl _ (fun s e => ?_) s _
  refine still_foldl _ (fun s i => ?_) s _
  split
  · rfl
  · exact still_putMember _ _ _ _ _ _

theorem still_plan {s t : State} (h : t.still = s.still) : t.wp.plan = s.wp.plan := (congrArg (fun x : Still => x.wp.plan) h :)
theorem still_mir {s t : State} (h : t.still = s.still) : t.wp.mir = s.wp.mir := (congrArg (fun x : Still => x.wp.mir) h :)
theorem still_flushEnd {s t : State} (h : t.still = s.still) : t.wp.flushEnd = s.wp.flushEnd := (congrArg (fun x : Still => x.wp.flushEnd) h :)
theorem still_mov {s t : State} (h : t.still = s.still) : t.mov = s.mov := (congrArg Still.mov h :)

/-- The tiles of the flush planned. -/
def tilesPlanned (u : State) : State := (flushList u).zipIdx.foldl (fun s t => planTile s t.2 t.1) u

theorem exec_flushStart {s : State} (mirs : List (Nat × List Byte)) (hr : s.running = true) (hf : flushing s = true) (hp : s.wp.pfail = true)
    (hpl : s.wp.plan = []) (hrows : ∀ e ∈ s.md.rows, e.2.flush = false) (hn : s.wp.flushed = 0) (hb : flushBlocked s = false) :
    exec (.flushStart mirs) s = .next (padFlush (tilesPlanned (scanMir mirs s))) := by
  have hany : (s.md.rows.any fun e => e.2.flush) = false := List.any_eq_false.mpr fun e he => by
    rw [hrows e he]
    exact Bool.false_ne_true
  show execFlushStart mirs s = _
  unfold execFlushStart
  rw [hr, hf, hp, hpl, hany, decide_eq_true hn, hb]
  exact onlyIf_true _ _

theorem flush_started {s : State} (mirs : List (Nat × List Byte)) (hr : s.running = true) (hf : flushing s = true) (hp : s.wp.pfail = true)
    (hpl : s.wp.plan = []) (hrows : ∀ e ∈ s.md.rows, e.2.flush = false) (hn : s.wp.flushed = 0) (hb : flushBlocked s = false) :
    ∃ t, exec (.flushStart mirs) s = .next t ∧ t.wp.plan = placesOf (scanMir mirs s) (flushList (scanMir mirs s)).zipIdx ∧
      t.mov.jobs.length = s.mov.jobs.length + (placesOf (scanMir mirs s) (flushList (scanMir mirs s)).zipIdx).length ∧ t.wp.mir = (scanMir mirs s).wp.mir := by
  have hscan := scanMir_rest mirs s
  have hplan0 : (scanMir mirs s).wp.plan = [] := ((congrArg (fun t : State => t.wp.plan) hscan :)).trans hpl
  have hmov0 : (scanMir mirs s).mov = s.mov := (congrArg State.mov hscan :)
  refine ⟨_, exec_flushStart mirs hr hf hp hpl hrows hn hb, ?_⟩
  generalize scanMir mirs s = u at hplan0 hmov0 ⊢
  obtain ⟨hrest, hplan, hjobs⟩ := planTiles_planned (flushList u).zipIdx (show Planning u u from rfl)
  have hpad := still_padFlush (tilesPlanned u)
  refine ⟨?_, ?_, ?_⟩
  · rw [still_plan hpad]
    refine hplan.trans ?_
    rw [hplan0, List.nil_append]
  · rw [still_mov hpad]
    refine hjobs.trans ?_
    rw [hmov0]
  · rw [still_mir hpad]
    exact (congrArg (fun t : State => t.wp.mir) hrest :)

/-! ## FLUSH_END and DONE (R361, R659) -/

section
variable {s : State} (hr : s.running = true) (hf : flushing s = true) (hp : s.wp.pfail = true) (hd : flushRowsDone s = true) (hb : flushBlocked s = false)
include hr hf hp hd hb

theorem flush_may : (s.running && flushing s && s.wp.pfail && flushRowsDone s && !flushBlocked s) = true := by
  rw [hr, hf, hp, hd, hb]
  rfl

/-- The flags of the flush done. -/
def flushDone (s : State) : State := (s.putFlag Fld.mapFlushStsActive false).putFlag Fld.mapFlushStsDone true

theorem flush_done (he : s.wp.flushEnd = true) (ho : endOpen s = false) :
    ∃ t, exec .flushComplete s = .next t ∧ t.flag Fld.mapFlushStsActive = false ∧ t.flag Fld.mapFlushStsDone = true ∧ (∀ e ∈ t.ch, e.2.wpN = false) ∧
      OtherRegs s t .mapFlushSts 0 := by
  refine ⟨{ flushDone s with ch := (flushDone s).ch.map fun e => (e.1, { e.2 with wpN := false }) }, ?_, ?_, ?_, ?_, ?_⟩
  · show execFlushComplete s = _
    unfold execFlushComplete
    dsimp only
    rw [he, ho, flush_may hr hf hp hd hb]
    exact onlyIf_true _ _
  · show (flushDone s).flag Fld.mapFlushStsActive = false
    unfold flushDone
    rw [State.flag_putFlag_field _ (by decide) (by decide)]
    exact State.flag_putFlag s Fld.mapFlushStsActive rfl (by decide) false 0
  · exact State.flag_putFlag (s.putFlag Fld.mapFlushStsActive false) Fld.mapFlushStsDone rfl (by decide) true 0
  · intro e he
    obtain ⟨x, -, rfl⟩ := List.mem_map.mp he
    rfl
  · exact (otherRegs_putFlag s Fld.mapFlushStsActive false 0).trans (otherRegs_putFlag _ Fld.mapFlushStsDone true 0)

/-- FLUSH_END appended to stream 0. -/
def endAppended (s : State) : State := jAppend 0 ⟨jFlushEnd, s.wp.flushed, s.wp.seq, 0, 0⟩ { s with wp := { s.wp with flushEnd := true } }

theorem flush_end {u : State} (he : s.wp.flushEnd = false) (hfl : (s.stream 0).flight = []) (hu : streamProgram 0 (endAppended s) = some u) :
    exec .flushComplete s = .next u ∧ u.wp.flushEnd = true := by
  have happ : (endAppended s).wp.flushEnd = true := (still_flushEnd (still_jAppend _ _ _)).trans rfl
  refine ⟨?_, (still_flushEnd (still_streamProgram hu)).trans happ⟩
  show execFlushComplete s = _
  unfold execFlushComplete
  dsimp only
  rw [← endAppended, he, hu, flush_may hr hf hp hd hb, hfl]
  exact onlyIf_true _ _

theorem flush_end_again {u : State} (he : s.wp.flushEnd = true) (ho : endOpen s = true) (hfl : (s.stream 0).flight = []) (hu : streamProgram 0 s = some u) :
    exec .flushComplete s = .next u := by
  show execFlushComplete s = _
  unfold execFlushComplete
  dsimp only
  rw [he, ho, hfl, hu, flush_may hr hf hp hd hb]
  exact onlyIf_true _ _

end

/-- Settles O52: the plan by induction over the tiles, the pads and the page of FLUSH_END by what they leave alone. -/
theorem holdUpFlush : Obligations.HoldUpFlush := by
  unfold Obligations.HoldUpFlush
  intro s
  refine ⟨fun mirs hr hf hp hpl hrows hn hb => flush_started mirs hr hf hp hpl hrows hn hb, fun hr hf hp hd hb => ⟨?_, ?_, ?_⟩⟩
  · exact fun he ho => flush_done hr hf hp hd hb he ho
  · exact fun u he hfl hu => flush_end hr hf hp hd hb he hfl hu
  · exact fun u he ho hfl hu => flush_end_again hr hf hp hd hb he ho hfl hu

end Sys2Proof.Machine
end


section
/-! SUPPORT. What a loss of power leaves of the power state, the pending bits and the flush while operations are withdrawn (R358, R659). -/
namespace Sys2Proof.Machine

/-! ## Slots, checkpoints and harvest entries -/

theorem still_setChan (s : State) (c : Nat) (x : Chan) : (s.setChan c x).still = s.still := rfl

theorem still_raiseSuspend (k : Nat) (s : State) : (raiseSuspend k s).still = s.still := by
  unfold raiseSuspend setSlot
  split
  · split
    · exact still_setChan s _ _
    · rfl
  · rfl

theorem still_stopSlots (c : Nat) (s : State) : (stopSlots c s).still = s.still := by
  unfold stopSlots
  exact still_setChan s _ _

theorem still_modCkpt (s : State) (f : Ckpt → Ckpt) : (s.modCkpt f).still = s.still := rfl

theorem still_logPacked (s : State) (unit code : Nat) (obj val : List (Nat × Nat)) : (s.logPacked unit code obj val).still = s.still :=
  still_of (fun k n hk => State.reg_logPacked s (fun h => absurd (h ▸ hk) (by decide)) unit code obj val n) rfl rfl rfl rfl rfl

theorem still_formatEnd (s : State) : (formatEnd s).still = s.still := by
  unfold formatEnd
  split
  · rw [still_logPacked, still_putFlag _ Fld.glbBootStsFormatted (by decide), still_media]
  · rfl

theorem still_releaseGroup (set g : Nat) (s : State) : (releaseGroup set g s).still = s.still := by
  unfold releaseGroup
  split
  · rfl
  · simp only [still_media, still_foldl, still_putUnit, implies_true]

theorem still_streamCkpt (k ptr : Nat) (s : State) : (streamCkpt k ptr s).still = s.still := by
  unfold streamCkpt
  simp only [still_foldl, still_releaseGroup, still_setStream, implies_true]

/-- A checkpoint that has become the newest. -/
def ckptNewest (c : Ckpt) (s : State) : State := { s with md := { s.md with
  ckpt := none
  ckptNo := c.no
  ckptArea := c.area
  ckptDir := c.dir
  repTiles := [] } }

theorem still_ckptDone (c : Ckpt) (s : State) : (ckptDone c s).still = s.still := by
  have hregs (t : State) : (((t.putFlag Fld.mapCkptStsActive false).putFlag Fld.mapCkptStsHeld false).put Fld.mapCkptStsCkptNo c.no).still = t.still := by
    rw [still_put _ Fld.mapCkptStsCkptNo (by decide), still_putFlag _ Fld.mapCkptStsHeld (by decide), still_putFlag _ Fld.mapCkptStsActive (by decide)]
  unfold ckptDone
  simp only [still_formatEnd, still_foldl, still_putUnit, still_streamCkpt, still_media, hregs, implies_true]

theorem still_headDone (k : Nat) (s : State) : (headDone k s).still = s.still := by
  unfold headDone
  split
  · rfl
  · simp only [still_ckptDone, still_media, apply_ite State.still, ite_self]

theorem still_setRing (s : State) (r : Nat) (x : Hrv) : (s.setRing r x).still = s.still := rfl
theorem still_setRq (s : State) (q : Request) : (s.setRq q).still = s.still := rfl

theorem still_finish (q : Request) (status dstate : Nat) (s : State) : (finish q status dstate s).still = s.still := by
  unfold finish oweEntry State.owe
  simp only [still_setRing, still_setRq]

theorem still_mirroredLate (q : Request) (s : State) : (mirroredLate q s).still = s.still := by
  unfold mirroredLate
  simp only [still_finish, still_setRing, still_setRq, apply_ite State.still, ite_self]

theorem still_rewritePage (k : Nat) (s : State) : (rewritePage k s).still = s.still := by
  unfold rewritePage
  split
  · rfl
  · dsimp only
    split
    · rename_i t ht
      obtain ⟨u, hu, ht⟩ := Option.bind_eq_some_iff.mp ht
      rw [still_programPage _ _ _ _ ht, still_withGroup hu, still_advancePos]
    · rw [still_setStream, still_advancePos]

theorem still_stepRecon (id : Nat) (s : State) : (stepRecon id s).still = s.still := by
  unfold stepRecon
  split
  · exact still_startRecon _ _ _
  · simp only [still_uncorrRd, apply_ite State.still, ite_self]

theorem still_toStep18 (id : Nat) (s : State) : (toStep18 id s).still = s.still := by
  unfold toStep18
  split
  · rfl
  · dsimp only
    split
    · exact still_modRd s _ _
    · split
      · rw [still_modRd, still_modRd]
      · rw [still_stepRecon, still_modRd]

theorem still_dropPage0 (used : Bool) (s : State) : (dropPage0 used s).still = s.still := by
  unfold dropPage0
  split
  · rfl
  · simp only [still_setStream, still_advancePos, apply_ite State.still, ite_self]

/-! ## Jobs -/

/-- What stands still but for the movers. -/
def Still.noMov (x : Still) : Still := { x with mov := {} }

/-- What a delivery, besides, leaves alone: all that stands still but the movers. -/
def State.calm (s : State) : Still := s.still.noMov

theorem calm_of_still {s t : State} (h : t.still = s.still) : t.calm = s.calm := congrArg Still.noMov h

theorem calm_foldl {β : Type} (f : State → β → State) (h : ∀ s b, (f s b).calm = s.calm) (s : State) (l : List β) : (l.foldl f s).calm = s.calm := by
  induction l generalizing s with
  | nil => rfl
  | cons b l ih => rw [List.foldl_cons, ih, h]

theorem calm_queueJobs (s : State) (l : List Job) : (s.queueJobs l).calm = s.calm := rfl

theorem calm_startDelivery (rtag : Nat) (s : State) : (startDelivery rtag s).calm = s.calm := by
  unfold startDelivery
  cases s.rq rtag with
  | none => rfl
  | some q =>
    dsimp only
    split
    · rfl
    · exact (calm_of_still (still_modRq _ _ _)).trans (calm_queueJobs _ _)

theorem calm_finish (q : Request) (status dstate : Nat) (s : State) : (finish q status dstate s).calm = s.calm := calm_of_still (still_finish q status dstate s)
theorem calm_mirroredLate (q : Request) (s : State) : (mirroredLate q s).calm = s.calm := calm_of_still (still_mirroredLate q s)

theorem calm_requestCheck (rtag : Nat) (s : State) : (requestCheck rtag s).calm = s.calm := by
  unfold requestCheck
  rw [← calm_startDelivery rtag s]
  generalize startDelivery rtag s = u
  dsimp only
  cases u.rq rtag with
  | none => rfl
  | some q =>
    dsimp only
    split
    · rfl
    · split <;> simp only [apply_ite State.calm, calm_finish, calm_mirroredLate, ite_self]

theorem calm_wantLost (s : State) (w : Want) : (wantLost s w).calm = s.calm := by
  unfold wantLost
  split
  · exact calm_of_still (still_toStep18 _ _)
  · exact calm_of_still (still_toStep18 _ _)
  · exact (calm_requestCheck _ _).trans (calm_of_still (still_modRq _ _ _))
  · exact calm_of_still (still_unitPassed _ _ _)
  · exact calm_of_still (still_unitPassed _ _ _)
  · exact calm_of_still (still_rewritePage _ _)
  · exact calm_of_still (still_rewritePage _ _)
  · rfl
  · rfl
  · exact calm_of_still (still_headDone _ _)
  · exact calm_of_still (still_headDone _ _)
  · exact calm_of_still (still_modCkpt _ _)
  · split <;> rfl
  · rfl
  · rfl

theorem calm_giveBack (k : Nat) (ws : List Want) (s : State) : (giveBack k ws s).calm = s.calm := by
  unfold giveBack
  split
  · exact calm_of_still (still_modLun _ _ _)
  · exact calm_foldl _ calm_wantLost s ws

theorem calm_unform (k : Nat) (s : State) : (unform k s).calm = s.calm := by
  have hinfl (t : State) (v g : Nat) : (t.put Fld.drgGrpStsInfl v g).still = t.still := still_put t Fld.drgGrpStsInfl (by decide) v g
  unfold unform
  split
  · rfl
  · dsimp only
    generalize hu : modLun k _ _ = u
    have hs : u.calm = s.calm := calm_of_still (by
      rw [← hu, still_modLun]
      simp only [hinfl, apply_ite State.still, ite_self])
    split
    · exact hs
    · exact (calm_giveBack _ _ _).trans hs

/-- The loss of power noted, and the flush begun. -/
def powerLost (s : State) : State := ({ s with wp := { s.wp with pfail := true } } : State).putFlag Fld.mapFlushStsActive true

/-- Once the flush has begun, withdrawing the operations leaves what `calm` names. -/
theorem calm_powerFail (s : State) : (powerFail s).calm = (powerLost s).calm := by
  unfold powerFail
  dsimp only
  rw [← powerLost]
  generalize powerLost s = u
  have hdrop (used : Bool) (t : State) : (dropPage0 used t).calm = t.calm := calm_of_still (still_dropPage0 used t)
  simp only [apply_ite State.calm, hdrop, ite_self]
  refine (calm_foldl _ (fun t k => calm_of_still (still_modLun _ _ _)) _ _).trans ?_
  refine (calm_foldl _ (fun t k => ?_) _ _).trans ?_
  · split
    · split
      · exact calm_of_still (still_raiseSuspend _ _)
      · rfl
    · rfl
  · refine (calm_foldl _ (fun t c => calm_of_still (still_stopSlots c t)) _ _).trans ?_
    exact calm_foldl _ (fun t k => calm_unform k t) _ _

end Sys2Proof.Machine
end


section
/-! SUPPORT. Entry to the banked state: what BANK_STS, BANK_TIME, the stage, source 48 and the log say of it (R661, R662). -/
namespace Sys2Proof.Machine

/-! ## An edge at every target -/

theorem pendBit_lt {n : Nat} (h : n < 64) (j : Nat) : (pendBit (.priv j n)).2.2 < 32 := by
  show (if n < 32 then (RegKind.sicPpendLo, j, n) else (RegKind.sicPpendHi, j, n - 32)).2.2 < 32
  split
  · assumption
  · show n - 32 < 32
    omega

/-- Edges at the targets of a list, one after another. -/
def edgeEach (n : Nat) (l : List Nat) (s : State) : State := { s with regs := regsEdgeAll n l s.regs }

theorem edgeEach_cons (n t : Nat) (l : List Nat) (s : State) :
    edgeEach n (t :: l) s = edgeEach n l (s.setBit (pendBit (.priv t n)).1 t (pendBit (.priv t n)).2.2) := rfl

theorem bit_edgeEach {n : Nat} (hn : n < 64) (k : RegKind) (i b : Nat) : ∀ (l : List Nat) (s : State),
    (edgeEach n l s).bit k i b = (s.bit k i b || l.any fun t => decide ((pendBit (.priv t n)).1 = k ∧ t = i ∧ (pendBit (.priv t n)).2.2 = b))
  | [], s => by
    rw [List.any_nil, Bool.or_false]
    exact State.bit_of_regs rfl k i b
  | t :: l, s => by
    rw [edgeEach_cons, bit_edgeEach hn k i b l, State.bit_setBit _ _ _ _ _ _ _ (pendBit_lt hn t), List.any_cons, ← Bool.or_assoc]
    refine congrArg (· || _) ?_
    rw [Bool.or_comm]
    refine congrArg (s.bit k i b || ·) (decide_eq_decide.mpr ?_)
    rw [Prod.mk.injEq, Prod.mk.injEq, eq_comm, eq_comm (a := i), eq_comm (a := b)]

theorem pendsAll_edgeAll (s : State) {n : Nat} (hn : n < 64) : PendsAll (s.edgeAll n) n := by
  intro j hj
  rw [show s.edgeAll n = edgeEach n (List.range 64) s from rfl, bit_edgeEach hn]
  rw [Bool.or_eq_true]
  refine Or.inr (List.any_eq_true.mpr ⟨j, List.mem_range.mpr hj, ?_⟩)
  exact decide_eq_true ⟨rfl, rfl, rfl⟩

/-- What is pending stays pending at an edge of every target. -/
theorem bit_edgeAll_mono {s : State} {n : Nat} (hn : n < 64) {k : RegKind} {i b : Nat} (h : s.bit k i b = true) : (s.edgeAll n).bit k i b = true := by
  rw [show s.edgeAll n = edgeEach n (List.range 64) s from rfl, bit_edgeEach hn, h, Bool.true_or]

theorem PendsAll.of_bits {s t : State} {n : Nat} (h : PendsAll s n) (hb : ∀ k i b, k = .sicPpendLo ∨ k = .sicPpendHi → s.bit k i b = true → t.bit k i b = true) :
    PendsAll t n := by
  intro j hj
  refine hb _ _ _ ?_ (h j hj)
  show (if n < 32 then (RegKind.sicPpendLo, j, n) else (RegKind.sicPpendHi, j, n - 32)).1 = _ ∨ (if n < 32 then (RegKind.sicPpendLo, j, n) else (RegKind.sicPpendHi, j, n - 32)).1 = _
  split
  · exact Or.inl rfl
  · exact Or.inr rfl

theorem PendsAll.of_regs {s t : State} {n : Nat} (h : PendsAll s n) (hb : ∀ k i, k = .sicPpendLo ∨ k = .sicPpendHi → t.reg k i = s.reg k i) : PendsAll t n :=
  h.of_bits fun k i b hk hs => by
    rw [State.bit, hb k i hk]
    exact hs

/-! ## Entry -/

theorem enterStage_rest (n : Nat) (s : State) : enterStage n s = { s with regs := (enterStage n s).regs, log := (enterStage n s).log } := rfl

theorem State.stage_enterStage (s : State) {n : Nat} (h : n < 16) : (enterStage n s).stage = n := by
  unfold State.stage enterStage
  rw [State.get_logPacked _ (by decide), State.get_put_same _ _ (by decide)]
  exact Nat.mod_eq_of_lt h

/-- The registers of the banked state, with the times. -/
def bankTimed (cause : Nat) (s : State) : State :=
  ((enterStage 0xF ((s.putFlag Fld.glbBankStsBanked true).put Fld.glbBankStsCause cause)).put Fld.glbBankTimeLoTime s.now).put Fld.glbBankTimeHiTime (s.now >>> 32)

theorem bankEntered_eq (cause : Nat) (obj : List (Nat × Nat)) (s : State) : bankEntered cause obj s = ((bankTimed cause s).edgeAll 48).logPacked uGLB (0x200 + cause) obj := rfl

theorem bankTimed_rest (cause : Nat) (s : State) : bankTimed cause s = { s with regs := (bankTimed cause s).regs, log := (bankTimed cause s).log } := by
  unfold bankTimed
  rw [enterStage_rest]
  rfl

/-- Two states apart in the registers, the log and what BANKED_ENTRY is to do. -/
def Banking (s t : State) : Prop := t = { s with
  regs := t.regs
  log := t.log
  pwr := { s.pwr with bankTodo := t.pwr.bankTodo } }

theorem Banking.trans {s t u : State} (h : Banking s t) (g : Banking t u) : Banking s u := by
  unfold Banking at *
  rw [g, h]

theorem Banking.of_regs {s t : State} (h : t = { s with regs := t.regs, log := t.log }) : Banking s t := by
  unfold Banking
  rw [h]

theorem Banking.noted (u : State) : Banking u (bankNoted u) := rfl
theorem Banking.edgeAll (u : State) (n : Nat) : Banking u (u.edgeAll n) := rfl
theorem Banking.logPacked (u : State) (unit code : Nat) (obj val : List (Nat × Nat)) : Banking u (u.logPacked unit code obj val) := rfl

theorem Banking.bankNamed (s : State) (cause : Nat) (obj : List (Nat × Nat)) : Banking s (s.bankNamed cause obj) := by
  by_cases h : s.banked = true
  · rw [bankNamed_again h]
    exact Banking.logPacked _ _ _ _ _
  · rw [bankNamed_entry h, bankEntered_eq]
    exact (((Banking.of_regs (bankTimed_rest cause s)).trans (Banking.edgeAll _ 48)).trans (Banking.logPacked _ _ _ _ _)).trans (Banking.noted _)

theorem bankEntered_get {f : Fld} (hl : f.kind ≠ .glbLogSeq) (hlo : f.kind ≠ .sicPpendLo) (hhi : f.kind ≠ .sicPpendHi) (cause : Nat) (obj : List (Nat × Nat)) (s : State) (i : Nat) :
    (bankNoted (bankEntered cause obj s)).get f i = (bankTimed cause s).get f i := by
  rw [State.get_of_regs (bankNoted_regs _), bankEntered_eq, State.get_logPacked _ hl]
  exact congrArg f.get (State.reg_edgeAll _ hlo hhi _ _)

theorem bankedBy_bankNamed {s : State} (h : s.banked = false) {cause : Nat} (hc : cause < 256) (obj : List (Nat × Nat)) : BankedBy (s.bankNamed cause obj) cause s.now := by
  have hnow : s.now < 2 ^ 64 := s.time.isLt
  have hentry := bankNamed_entry (s := s) (by rw [h]; exact Bool.false_ne_true) cause obj
  refine ⟨bankNamed_banked s cause obj, ?_, ?_, ?_, ?_, ?_, ?_, ?_⟩
  · rw [hentry, bankEntered_get (by decide) (by decide) (by decide), bankTimed, State.get_put_kind _ (by decide), State.get_put_kind _ (by decide), enterStage,
      State.get_logPacked _ (by decide), State.get_put_kind _ (by decide), State.get_put_same _ _ (by decide)]
    exact Nat.mod_eq_of_lt hc
  · unfold State.stage
    rw [hentry, bankEntered_get (by decide) (by decide) (by decide), bankTimed, State.get_put_kind _ (by decide), State.get_put_kind _ (by decide)]
    exact State.stage_enterStage _ (by decide)
  · rw [hentry, bankEntered_get (by decide) (by decide) (by decide), bankTimed, State.get_put_kind _ (by decide), State.get_put_same _ _ (by decide)]
    rfl
  · rw [hentry, bankEntered_get (by decide) (by decide) (by decide), bankTimed, State.get_put_same _ _ (by decide), Nat.shiftRight_eq_div_pow]
    refine Nat.mod_eq_of_lt ?_
    show s.now / 2 ^ 32 < 2 ^ 32
    omega
  · rw [hentry]
    rfl
  · rw [hentry]
    refine (pendsAll_edgeAll (bankTimed cause s) (by decide)).of_regs fun k i hk => ?_
    rw [State.reg_of_regs (bankNoted_regs _), bankEntered_eq]
    refine State.reg_logPacked _ ?_ _ _ _ _ _
    rcases hk with rfl | rfl
    · decide
    · decide
  · rw [hentry]
    rfl

theorem bankedBy_bank {s : State} (h : s.banked = false) {cause : Nat} (hc : cause < 256) : BankedBy (s.bank cause) cause s.now := bankedBy_bankNamed h hc []

/-- The fields above STAGE stay as the engine enters the banked state. -/
theorem State.get_bankNamed_boot {s : State} {f : Fld} (hk : f.kind = .glbBootSts) (hlo : 3 < f.lo) (hhi : f.hi < 32) (cause : Nat) (obj : List (Nat × Nat)) (i : Nat) :
    (s.bankNamed cause obj).get f i = s.get f i := by
  by_cases h : s.banked = true
  · rw [bankNamed_again h, State.get_logPacked _ (by rw [hk]; decide)]
  · rw [bankNamed_entry h, bankEntered_get (by rw [hk]; decide) (by rw [hk]; decide) (by rw [hk]; decide), bankTimed, State.get_put_kind _ (by rw [hk]; decide),
      State.get_put_kind _ (by rw [hk]; decide), enterStage, State.get_logPacked _ (by rw [hk]; decide), State.get_put_field _ (Or.inr hlo) hhi,
      State.get_put_kind _ (by rw [hk]; decide), State.get_putFlag_kind _ (by rw [hk]; decide)]

/-- The stage and the code of a start-up failure, noted and logged. -/
def failNoted (code : Nat) (s : State) : State := ((s.put Fld.glbBootStsFailStage s.stage).put Fld.glbBootStsFailCode code).logPacked uGLB code

theorem bootFail_eq (code : Nat) (s : State) : bootFail code s = (failNoted code s).bank 0x01 := rfl

theorem State.stage_lt (s : State) : s.stage < 2 ^ 4 := Fld.get_lt Fld.glbBootStsStage _

/-- A start-up failure banks with cause 1 and names its stage and code (R89, R117). -/
theorem bootFail_spec {s : State} (h : s.banked = false) {code : Nat} (hc : code < 256) :
    BankedBy (bootFail code s) 0x01 s.now ∧ (bootFail code s).get Fld.glbBootStsFailCode = code ∧ (bootFail code s).get Fld.glbBootStsFailStage = s.stage := by
  have hbanked : (failNoted code s).banked = false := by
    unfold State.banked failNoted
    rw [State.flag_logPacked _ (by decide), State.flag_put_kind _ (by decide), State.flag_put_kind _ (by decide)]
    exact h
  refine ⟨bankedBy_bank hbanked (by decide), ?_, ?_⟩
  · rw [bootFail_eq, State.bank, State.get_bankNamed_boot rfl (by decide) (by decide), failNoted, State.get_logPacked _ (by decide), State.get_put_same _ _ (by decide)]
    exact Nat.mod_eq_of_lt hc
  · rw [bootFail_eq, State.bank, State.get_bankNamed_boot rfl (by decide) (by decide), failNoted, State.get_logPacked _ (by decide),
      State.get_put_field _ (by decide) (by decide), State.get_put_same _ _ (by decide)]
    exact Nat.mod_eq_of_lt (s.stage_lt)

end Sys2Proof.Machine
end


section
/-! SUPPORT. The trip latches: what setting one, clearing one and showing the input levels change (R657, R658, Table 18-5). -/
namespace Sys2Proof.Machine

/-! ## Single bits of a field -/

/-- A bit outside a field stays as the field is written. -/
theorem State.bit_put_outside (s : State) (f : Fld) {b : Nat} (h : b < f.lo ∨ f.hi < b) (hb : b < 32) (v i : Nat) (k : RegKind) (l : Nat) :
    (s.put f v i).bit k l b = s.bit k l b := by
  by_cases hk : (k, l) = (f.kind, i)
  · obtain ⟨rfl, rfl⟩ := Prod.mk.inj hk
    rw [State.bit, State.reg_put_same, Fld.getLsbD_put _ _ _ _ hb, if_neg (by omega)]
    rfl
  · exact State.bit_of_otherRegs (otherRegs_put s f v i) hk b

theorem State.bit_eq_flag (s : State) (f : Fld) (h : f.hi = f.lo) (i : Nat) : s.bit f.kind i f.lo = s.flag f i := (s.flag_eq_bit f h i).symm

theorem State.bit_inc_kind (s : State) {k : RegKind} {f : Fld} (h : k ≠ f.kind) (i n l b : Nat) : (s.inc f i n).bit k l b = s.bit k l b := by
  rw [State.bit, s.reg_inc_kind h, State.bit]

/-! ## An entry aborted (R647) -/

theorem not_steady {s : State} (h : ¬ Steady s) : ∃ p3, s.pwr.st = .entering p3 := by
  by_cases hf : s.pwr.st = .entering false
  · exact ⟨false, hf⟩
  · exact ⟨true, by_contra fun ht => h ⟨hf, ht⟩⟩

/-- An abort, as its registers and the log show it. -/
def abortNoted (s : State) : State := ((s.put Fld.pwrStsRefuse 0x9).inc Fld.pwrCntAbort).logPacked uPWR 0x1019

/-- The state back in P0. -/
def backInP0 (s : State) : State :=
  { s with
    ch := s.ch.map fun (e : Nat × Chan) => (e.1, { e.2 with wpN := decide (3 ≤ e.2.stage) })
    fab := grantIn s.fab
    pwr := { s.pwr with
      st := .p0
      parked := false
      fromP1 := false
      dramIdle := false
      restartAt := if s.pwr.fromP1 then s.now + 1500 else s.pwr.restartAt } }

theorem abortEntry_entering {s : State} {p3 : Bool} (h : s.pwr.st = .entering p3) : s.abortEntry = backInP0 (abortNoted s) := by
  unfold State.abortEntry
  rw [h]
  rfl

theorem abortNoted_reg (s : State) {k : RegKind} (hs : k ≠ .pwrSts) (hc : k ≠ .pwrCnt) (hl : k ≠ .glbLogSeq) (i : Nat) : (abortNoted s).reg k i = s.reg k i := by
  unfold abortNoted
  rw [State.reg_logPacked _ hl, State.reg_inc_kind _ hc, State.reg_put_kind _ hs]

theorem abortEntry_reg (s : State) {k : RegKind} (hs : k ≠ .pwrSts) (hc : k ≠ .pwrCnt) (hl : k ≠ .glbLogSeq) (i : Nat) : s.abortEntry.reg k i = s.reg k i := by
  by_cases h : Steady s
  · rw [abortEntry_steady h]
  · obtain ⟨p3, h⟩ := not_steady h
    rw [abortEntry_entering h]
    exact abortNoted_reg s hs hc hl i

/-- What an abort leaves of the power state and of the other units. -/
theorem abortEntry_rest (s : State) : ∃ p : Pwr, s.abortEntry = { s with regs := s.abortEntry.regs, log := s.abortEntry.log, ch := s.abortEntry.ch, fab := s.abortEntry.fab, pwr := { s.pwr with
    st := p.st
    parked := p.parked
    fromP1 := p.fromP1
    dramIdle := p.dramIdle
    restartAt := p.restartAt } } := by
  by_cases h : Steady s
  · exact ⟨s.pwr, by rw [abortEntry_steady h]⟩
  · obtain ⟨p3, h⟩ := not_steady h
    exact ⟨(backInP0 (abortNoted s)).pwr, by rw [abortEntry_entering h]; rfl⟩

theorem abortEntry_coreOn (s : State) : s.abortEntry.coreOn = s.coreOn := by
  by_cases h : Steady s
  · rw [abortEntry_steady h]
  · obtain ⟨p3, h⟩ := not_steady h
    rw [abortEntry_entering h]
    unfold State.coreOn
    rw [h]
    rfl

theorem abortEntry_dg (s : State) : s.abortEntry.dg = s.dg := by
  obtain ⟨p, h⟩ := abortEntry_rest s
  rw [h]

theorem abortEntry_tripTodo (s : State) : s.abortEntry.pwr.tripTodo = s.pwr.tripTodo := by
  obtain ⟨p, h⟩ := abortEntry_rest s
  rw [h]

theorem abortEntry_emberQ (s : State) : s.abortEntry.pwr.emberQ = s.pwr.emberQ := by
  obtain ⟨p, h⟩ := abortEntry_rest s
  rw [h]

/-! ## Setting a latch -/

/-- A latch set, and counted. -/
def tripLatched (n : Nat) (s : State) : State := (s.setBit .trpSts 0 n).inc Fld.trpCntLatches

/-- The core island's part of a latch set: it has yet to act on it. -/
def tripOwed (n : Nat) (s : State) : State := if s.coreOn then { s with pwr := { s.pwr with tripTodo := s.pwr.tripTodo ||| (1#3 <<< n) } } else s

theorem setLatch_set {n : Nat} {s : State} (h : s.bit .trpSts 0 n = true) : setLatch n s = s := if_pos h

theorem setLatch_new {n : Nat} {s : State} (h : s.bit .trpSts 0 n = false) : setLatch n s = tripOwed n (tripLatched n s).abortEntry :=
  if_neg (by rw [h]; exact Bool.false_ne_true)

theorem tripLatched_rest (n : Nat) (s : State) : tripLatched n s = { s with regs := (tripLatched n s).regs } := rfl

theorem tripOwed_rest (n : Nat) (s : State) : tripOwed n s = { s with pwr := { s.pwr with tripTodo := (tripOwed n s).pwr.tripTodo } } := by
  unfold tripOwed
  split
  · rfl
  · rfl

theorem tripOwed_regs (n : Nat) (s : State) : (tripOwed n s).regs = s.regs := by rw [tripOwed_rest]

theorem tripLatched_bit {n : Nat} (hn : n < 3) (s : State) (b : Nat) : (tripLatched n s).bit .trpSts 0 b = (decide (b = n) || s.bit .trpSts 0 b) := by
  unfold tripLatched
  rw [State.bit_inc_kind _ (by decide), State.bit_setBit _ _ _ _ _ _ _ (by omega)]
  simp only [Prod.mk.injEq, true_and]

theorem tripLatched_reg (n : Nat) (s : State) {k : RegKind} (ht : k ≠ .trpSts) (hc : k ≠ .trpCnt) (i : Nat) : (tripLatched n s).reg k i = s.reg k i := by
  unfold tripLatched
  rw [State.reg_inc_kind _ hc, State.setBit_eq_setReg, State.reg_setReg_kind _ ht]

theorem State.bit_abortEntry (s : State) (b : Nat) : s.abortEntry.bit .trpSts 0 b = s.bit .trpSts 0 b := by
  unfold State.bit
  rw [abortEntry_reg s (by decide) (by decide) (by decide)]

theorem setLatch_bit {n : Nat} (hn : n < 3) (s : State) (b : Nat) : (setLatch n s).bit .trpSts 0 b = (decide (b = n) || s.bit .trpSts 0 b) := by
  cases h : s.bit .trpSts 0 n with
  | true =>
    rw [setLatch_set h]
    by_cases hb : b = n
    · rw [hb, h, Bool.or_true]
    · rw [decide_eq_false hb, Bool.false_or]
  | false => rw [setLatch_new h, State.bit_of_regs (tripOwed_regs _ _), State.bit_abortEntry, tripLatched_bit hn]

/-- The counts of clears that an input still low refused are not those of latches. -/
theorem setLatch_relatch (n m : Nat) (s : State) : (setLatch n s).get (relatch m) = s.get (relatch m) := by
  cases h : s.bit .trpSts 0 n with
  | true => rw [setLatch_set h]
  | false =>
    have hk : (relatch m).kind = .trpCnt ∧ (Fld.trpCntLatches.hi < (relatch m).lo) ∧ (relatch m).hi < 32 := by
      unfold relatch
      split
      · decide
      · decide
      · decide
    obtain ⟨hkind, hlo, hhi⟩ := hk
    rw [setLatch_new h, State.get_of_regs (tripOwed_regs _ _), State.get, abortEntry_reg _ (by rw [hkind]; decide) (by rw [hkind]; decide) (by rw [hkind]; decide)]
    exact (State.get_inc_field _ (Or.inr hlo) hhi _ _ _).trans (congrArg _ (State.reg_setReg_kind s (by rw [hkind]; decide) _ _ _))

theorem setLatch_emberQ (n : Nat) (s : State) : (setLatch n s).pwr.emberQ = s.pwr.emberQ := by
  cases h : s.bit .trpSts 0 n with
  | true => rw [setLatch_set h]
  | false =>
    rw [setLatch_new h, tripOwed_rest]
    exact abortEntry_emberQ (tripLatched n s)

theorem setLatch_dg (n : Nat) (s : State) : (setLatch n s).dg = s.dg := by
  cases h : s.bit .trpSts 0 n with
  | true => rw [setLatch_set h]
  | false =>
    rw [setLatch_new h, tripOwed_rest]
    exact abortEntry_dg (tripLatched n s)

theorem setLatch_coreOn (n : Nat) (s : State) : (setLatch n s).coreOn = s.coreOn := by
  cases h : s.bit .trpSts 0 n with
  | true => rw [setLatch_set h]
  | false =>
    rw [setLatch_new h, tripOwed_rest]
    exact abortEntry_coreOn (tripLatched n s)

/-! ## The levels of the inputs -/

theorem tripLevels_pwr (low : BitVec 3) (s : State) :
    (tripLevels low s).pwr = { s.pwr with pfailLow := low.getLsbD 0, thermLow := low.getLsbD 1, fwLow := low.getLsbD 2 } := rfl

theorem tripLevels_rest (low : BitVec 3) (s : State) : tripLevels low s = { s with regs := (tripLevels low s).regs, pwr := (tripLevels low s).pwr } := rfl

theorem otherRegs_tripLevels (low : BitVec 3) (s : State) : OtherRegs s (tripLevels low s) .trpSts 0 := fun k i hk =>
  ((otherRegs_putFlag _ Fld.trpStsFwLive _ 0 k i hk).trans (otherRegs_putFlag _ Fld.trpStsThermLive _ 0 k i hk)).trans
    ((otherRegs_putFlag _ Fld.trpStsPfailLive _ 0 k i hk).trans (State.reg_of_regs rfl k i))

theorem tripLevels_latch (low : BitVec 3) (s : State) {b : Nat} (hb : b < 3) : (tripLevels low s).bit .trpSts 0 b = s.bit .trpSts 0 b := by
  have hlo (f : Fld) (hf : 8 ≤ f.lo) : b < f.lo ∨ f.hi < b := Or.inl (by omega)
  unfold tripLevels State.putFlag
  dsimp only
  rw [State.bit_put_outside _ _ (hlo Fld.trpStsFwLive (by decide)) (by omega), State.bit_put_outside _ _ (hlo Fld.trpStsThermLive (by decide)) (by omega),
    State.bit_put_outside _ _ (hlo Fld.trpStsPfailLive (by decide)) (by omega)]
  rfl

theorem tripLevels_level (low : BitVec 3) (s : State) {n : Nat} (hn : n < 3) : (tripLevels low s).bit .trpSts 0 (8 + n) = low.getLsbD n := by
  unfold tripLevels
  dsimp only
  match n, hn with
  | 0, _ =>
    refine (State.bit_eq_flag _ Fld.trpStsPfailLive rfl 0).trans ?_
    rw [State.flag_putFlag_field _ (by decide) (by decide), State.flag_putFlag_field _ (by decide) (by decide), State.flag_putFlag _ _ rfl (by decide)]
  | 1, _ =>
    refine (State.bit_eq_flag _ Fld.trpStsThermLive rfl 0).trans ?_
    rw [State.flag_putFlag_field _ (by decide) (by decide), State.flag_putFlag _ _ rfl (by decide)]
  | 2, _ =>
    refine (State.bit_eq_flag _ Fld.trpStsFwLive rfl 0).trans ?_
    rw [State.flag_putFlag _ _ rfl (by decide)]

end Sys2Proof.Machine
end

section
/-! PROOFS. Clock faults, supply faults, trips and the writes of ember-held registers (O49). -/
namespace Sys2Proof.Machine

/-! ## Faults of clocks and supplies (R34, R35, R75) -/

theorem State.emberDown_of_coreOn {s : State} (h : s.coreOn = true) : s.pwr.emberDown = false := by
  unfold State.coreOn State.inReset State.lowReset at h
  unfold Pwr.emberDown
  cases hl : s.pwr.emberLow <;> cases hk : s.pwr.emberStuck <;> simp_all

theorem State.banked_putFlag (s : State) {f : Fld} (h : f.kind ≠ .glbBankSts) (b : Bool) (i : Nat) : (s.putFlag f b i).banked = s.banked :=
  State.flag_putFlag_kind s (Ne.symm h) b i 0

theorem bankNamed_embLost (s : State) (cause : Nat) (obj : List (Nat × Nat)) : (s.bankNamed cause obj).pwr.embLost = s.pwr.embLost :=
  (congrArg (fun t => t.pwr.embLost) (Banking.bankNamed s cause obj) :)

theorem bankNamed_emberQ (s : State) (cause : Nat) (obj : List (Nat × Nat)) : (s.bankNamed cause obj).pwr.emberQ = s.pwr.emberQ :=
  (congrArg (fun t => t.pwr.emberQ) (Banking.bankNamed s cause obj) :)

theorem bankNamed_tripTodo (s : State) (cause : Nat) (obj : List (Nat × Nat)) : (s.bankNamed cause obj).pwr.tripTodo = s.pwr.tripTodo :=
  (congrArg (fun t => t.pwr.tripTodo) (Banking.bankNamed s cause obj) :)

theorem bankNamed_goodCore (s : State) (cause : Nat) (obj : List (Nat × Nat)) : (s.bankNamed cause obj).pwr.goodCore = s.pwr.goodCore :=
  (congrArg (fun t => t.pwr.goodCore) (Banking.bankNamed s cause obj) :)

/-- The ember clock noted as lost. -/
def embLostNoted (s : State) : State := ({ s with pwr := { s.pwr with embLost := true } } : State).putFlag Fld.pwrStsEmbClkLoss true

theorem embLostNoted_flag (s : State) : (embLostNoted s).flag Fld.pwrStsEmbClkLoss = true := State.flag_putFlag _ _ rfl (by decide) _ _

theorem embLostNoted_banked (s : State) : (embLostNoted s).banked = s.banked := (State.banked_putFlag _ (by decide) _ _).trans (State.flag_of_regs rfl _ _)

theorem otherRegs_embLostNoted (s : State) : OtherRegs s (embLostNoted s) .pwrSts 0 := fun k i hk =>
  (otherRegs_putFlag _ Fld.pwrStsEmbClkLoss true 0 k i hk).trans (State.reg_of_regs rfl k i)

theorem execEmbClkLoss_again {s : State} (hd : s.pwr.emberDown = false) (hf : s.flag Fld.pwrStsEmbClkLoss = true) :
    execEmbClkLoss s = .next { s with pwr := { s.pwr with embLost := true } } := by
  unfold execEmbClkLoss
  rw [if_neg (by rw [hd]; exact Bool.false_ne_true)]
  exact if_pos hf

theorem execEmbClkLoss_new {s : State} (hd : s.pwr.emberDown = false) (hf : s.flag Fld.pwrStsEmbClkLoss = false) :
    execEmbClkLoss s = .next (if s.coreOn then (embLostNoted s).bank 0x04 else embLostNoted s) := by
  unfold execEmbClkLoss
  rw [if_neg (by rw [hd]; exact Bool.false_ne_true)]
  exact if_neg fun h => Bool.false_ne_true (hf.symm.trans h)

theorem execEmbClkLoss_noted {s : State} (hd : s.pwr.emberDown = false) :
    ∃ t, execEmbClkLoss s = .next t ∧ t.pwr.emberQ = s.pwr.emberQ ∧ t.pwr.embLost = true ∧ t.flag Fld.pwrStsEmbClkLoss = true := by
  cases hf : s.flag Fld.pwrStsEmbClkLoss with
  | true => exact ⟨_, execEmbClkLoss_again hd hf, rfl, rfl, (State.flag_of_regs rfl _ _).trans hf⟩
  | false =>
    refine ⟨_, execEmbClkLoss_new hd hf, ?_⟩
    split
    · exact ⟨bankNamed_emberQ _ _ _, bankNamed_embLost _ _ _, (State.flag_bankNamed _ (by decide) _ _ _).trans (embLostNoted_flag s)⟩
    · exact ⟨rfl, rfl, embLostNoted_flag s⟩

theorem embClkLoss_banks {s : State} (hon : s.coreOn = true) (hb : s.banked = false) (hf : s.flag Fld.pwrStsEmbClkLoss = false) :
    ∃ t, exec .embClkLoss s = .next t ∧ BankedBy t 0x04 s.now ∧ t.flag Fld.pwrStsEmbClkLoss = true ∧ t.pwr.embLost = true := by
  refine ⟨(embLostNoted s).bank 0x04, ?_, bankedBy_bank ((embLostNoted_banked s).trans hb) (by decide),
    (State.flag_bankNamed _ (by decide) _ _ _).trans (embLostNoted_flag s), bankNamed_embLost _ _ _⟩
  show execEmbClkLoss s = _
  rw [execEmbClkLoss_new (State.emberDown_of_coreOn hon) hf, if_pos hon]

theorem embClkLoss_noted {s : State} (hon : s.coreOn = false) (hd : s.pwr.emberDown = false) (hf : s.flag Fld.pwrStsEmbClkLoss = false) :
    ∃ t, exec .embClkLoss s = .next t ∧ t.flag Fld.pwrStsEmbClkLoss = true ∧
      t = { s with regs := t.regs, pwr := { s.pwr with embLost := true } } ∧ OtherRegs s t .pwrSts 0 := by
  refine ⟨embLostNoted s, ?_, embLostNoted_flag s, rfl, otherRegs_embLostNoted s⟩
  show execEmbClkLoss s = _
  rw [execEmbClkLoss_new hd hf, if_neg (by rw [hon]; exact Bool.false_ne_true)]

/-- The core supply below its limit. -/
def coreLow (s : State) : State := { s with pwr := { s.pwr with goodCore := false } }

theorem coreLow_banked (s : State) : (coreLow s).banked = s.banked := State.flag_of_regs (s := s) (t := coreLow s) rfl Fld.glbBankStsBanked 0

theorem execPwrGoodCoreLow_eq {s : State} (hon : s.coreOn = true) (hen : s.pwr.enCore = true) :
    execPwrGoodCoreLow s = .next (if ((s.pwr.st == .p0 || s.pwr.st == .p1) && !s.pwr.waking) = true then (coreLow s).bank 0x04 else coreLow s) := by
  unfold execPwrGoodCoreLow
  rw [hon, hen, Bool.and_true, onlyIf_true]
  rfl

theorem pwrGoodCoreLow_banks {s : State} (hon : s.coreOn = true) (hb : s.banked = false) (hen : s.pwr.enCore = true) (hst : s.pwr.st = .p0 ∨ s.pwr.st = .p1)
    (hw : s.pwr.waking = false) : ∃ t, exec .pwrGoodCoreLow s = .next t ∧ BankedBy t 0x04 s.now ∧ t.pwr.goodCore = false := by
  refine ⟨(coreLow s).bank 0x04, ?_, bankedBy_bank ((coreLow_banked s).trans hb) (by decide), bankNamed_goodCore _ _ _⟩
  show execPwrGoodCoreLow s = _
  rw [execPwrGoodCoreLow_eq hon hen, if_pos]
  rw [hw]
  rcases hst with h | h
  · rw [h]
    rfl
  · rw [h]
    rfl

theorem pwrGoodCoreLow_quiet {s : State} (hon : s.coreOn = true) (hen : s.pwr.enCore = true) (h : ¬ Steady s ∨ s.pwr.waking = true) :
    exec .pwrGoodCoreLow s = .next { s with pwr := { s.pwr with goodCore := false } } := by
  show execPwrGoodCoreLow s = _
  rw [execPwrGoodCoreLow_eq hon hen, if_neg]
  · rfl
  · rcases h with h | h
    · obtain ⟨p3, h⟩ := not_steady h
      rw [h]
      exact Bool.false_ne_true
    · rw [h, Bool.not_true, Bool.and_false]
      exact Bool.false_ne_true

/-! ## A pulse on a trip input (R69, R657) -/

/-- The levels of the inputs once one trip's has changed. -/
def levelTaken (trip : Trip) (held : Bool) (s : State) : State :=
  tripLevels (if held then tripLow s ||| (1#3 <<< tripBit trip) else tripLow s &&& ~~~(1#3 <<< tripBit trip)) s

theorem tripBit_lt (trip : Trip) : tripBit trip < 3 := by
  cases trip
  · decide
  · decide
  · decide

theorem getLsbD_level (low : BitVec 3) (held : Bool) {n : Nat} (hn : n < 3) :
    (if held then low ||| (1#3 <<< n) else low &&& ~~~(1#3 <<< n)).getLsbD n = held := by
  have hbit : (1#3 <<< n).getLsbD n = true := by simp [hn]
  cases held with
  | true => rw [if_pos rfl, BitVec.getLsbD_or, hbit, Bool.or_true]
  | false => rw [if_neg Bool.false_ne_true, BitVec.getLsbD_and, BitVec.getLsbD_not, hbit, Bool.not_true, Bool.and_false, Bool.and_false]

theorem levelTaken_level (trip : Trip) (held : Bool) (s : State) : (levelTaken trip held s).bit .trpSts 0 (8 + tripBit trip) = held :=
  (tripLevels_level _ s (tripBit_lt trip)).trans (getLsbD_level _ _ (tripBit_lt trip))

theorem levelTaken_latch (trip : Trip) (held : Bool) (s : State) {b : Nat} (hb : b < 3) : (levelTaken trip held s).bit .trpSts 0 b = s.bit .trpSts 0 b :=
  tripLevels_latch _ s hb

theorem otherRegs_levelTaken (trip : Trip) (held : Bool) (s : State) : OtherRegs s (levelTaken trip held s) .trpSts 0 := otherRegs_tripLevels _ s

/-- A pulse leaves the state of the levels, with the latch set or not. -/
def PulseEnds (trip : Trip) (held : Bool) (s t : State) : Prop :=
  ∃ u : State, (u = levelTaken trip held s ∨ u = (levelTaken trip held s).fresh.2) ∧ (t = u ∨ t = setLatch (tripBit trip) u)

theorem PulseEnds.bits {trip : Trip} {held : Bool} {s t : State} (h : PulseEnds trip held s t) : t.bit .trpSts 0 (8 + tripBit trip) = held ∧
    (∀ m, m < 3 → m ≠ tripBit trip → t.bit .trpSts 0 m = s.bit .trpSts 0 m) ∧
    (s.bit .trpSts 0 (tripBit trip) = true → t.bit .trpSts 0 (tripBit trip) = true ∧ t.reg .trpCnt = s.reg .trpCnt) := by
  have hn := tripBit_lt trip
  obtain ⟨u, hu, ht⟩ := h
  have hregs : u.regs = (levelTaken trip held s).regs := by
    rcases hu with rfl | rfl
    · rfl
    · rfl
  have hbit (b : Nat) : u.bit .trpSts 0 b = (levelTaken trip held s).bit .trpSts 0 b := State.bit_of_regs hregs _ _ _
  have hcnt : u.reg .trpCnt = s.reg .trpCnt :=
    (State.reg_of_regs hregs _ _).trans (otherRegs_levelTaken trip held s _ _ (fun e => absurd (congrArg Prod.fst e) (by decide)))
  have hlevel : u.bit .trpSts 0 (8 + tripBit trip) = held := (hbit _).trans (levelTaken_level trip held s)
  have hlatch (m : Nat) (hm : m < 3) : u.bit .trpSts 0 m = s.bit .trpSts 0 m := (hbit m).trans (levelTaken_latch trip held s hm)
  rcases ht with rfl | rfl
  · exact ⟨hlevel, fun m hm _ => hlatch m hm, fun h => ⟨(hlatch _ hn).trans h, hcnt⟩⟩
  · refine ⟨?_, fun m hm hne => ?_, fun h => ?_⟩
    · rw [setLatch_bit hn, decide_eq_false (by omega), Bool.false_or, hlevel]
    · rw [setLatch_bit hn, decide_eq_false hne, Bool.false_or, hlatch m hm]
    · rw [setLatch_set ((hlatch _ hn).trans h)]
      exact ⟨(hlatch _ hn).trans h, hcnt⟩

theorem execTripLatch_up {s : State} (hd : s.pwr.emberDown = false) (trip : Trip) (width : Nat) (held : Bool) :
    execTripLatch trip width held s = if width < 2 then .next (levelTaken trip held s) else if 10 ≤ width then .next (setLatch (tripBit trip) (levelTaken trip held s))
      else .next (if (levelTaken trip held s).fresh.1.getLsbD 0 then setLatch (tripBit trip) (levelTaken trip held s).fresh.2 else (levelTaken trip held s).fresh.2) := by
  unfold execTripLatch
  rw [if_neg (by rw [hd]; exact Bool.false_ne_true)]
  rfl

theorem execTripLatch_ends {s : State} (hd : s.pwr.emberDown = false) (trip : Trip) (width : Nat) (held : Bool) :
    ∃ t, execTripLatch trip width held s = .next t ∧ PulseEnds trip held s t ∧ (width < 2 → t = levelTaken trip held s) ∧
      (10 ≤ width → t = setLatch (tripBit trip) (levelTaken trip held s)) := by
  rw [execTripLatch_up hd]
  by_cases hshort : width < 2
  · rw [if_pos hshort]
    exact ⟨_, rfl, ⟨_, Or.inl rfl, Or.inl rfl⟩, fun _ => rfl, fun h => absurd h (by omega)⟩
  · rw [if_neg hshort]
    by_cases hlong : 10 ≤ width
    · rw [if_pos hlong]
      exact ⟨_, rfl, ⟨_, Or.inl rfl, Or.inr rfl⟩, fun h => absurd h hshort, fun _ => rfl⟩
    · rw [if_neg hlong]
      refine ⟨_, rfl, ⟨_, Or.inr rfl, ?_⟩, fun h => absurd h hshort, fun h => absurd h hlong⟩
      split
      · exact Or.inr rfl
      · exact Or.inl rfl

theorem abortNoted_spec (s : State) : (abortNoted s).get Fld.pwrStsRefuse = 9 ∧ (abortNoted s).get Fld.pwrCntAbort = min 255 (s.get Fld.pwrCntAbort + 1) ∧
    Logged s (abortNoted s) uPWR 0x1019 := by
  unfold abortNoted
  refine ⟨?_, ?_, logged_logPacked _ _ _ _ _⟩
  · rw [State.get_logPacked _ (by decide), State.get_inc_kind _ (by decide), State.get_put_same _ _ (by decide)]
    rfl
  · rw [State.get_logPacked _ (by decide), State.get_inc_same _ _ (by decide), State.get_put_kind _ (by decide)]
    rfl

/-- What a latch newly set does: its count, the core's duty, and the abort of an entry. -/
theorem setLatch_acts {n : Nat} {s u : State} (hbit : u.bit .trpSts 0 n = false) (hother : OtherRegs s u .trpSts 0)
    (hst : u.pwr.st = s.pwr.st) (hon : u.coreOn = s.coreOn) (htodo : u.pwr.tripTodo = s.pwr.tripTodo) (hlog : u.log = s.log) :
    (setLatch n u).get Fld.trpCntLatches = min 255 (s.get Fld.trpCntLatches + 1) ∧
      (s.coreOn = true → (setLatch n u).pwr.tripTodo = s.pwr.tripTodo ||| (1#3 <<< n)) ∧ (s.coreOn = false → (setLatch n u).pwr.tripTodo = s.pwr.tripTodo) ∧
      (¬ Steady s → (setLatch n u).pwr.st = .p0 ∧ (setLatch n u).get Fld.pwrStsRefuse = 9 ∧ (setLatch n u).get Fld.pwrCntAbort = min 255 (s.get Fld.pwrCntAbort + 1) ∧
        Logged s (setLatch n u) uPWR 0x1019) ∧
      (Steady s → (setLatch n u).pwr.st = s.pwr.st ∧ ∀ k i, k ≠ .trpSts → k ≠ .trpCnt → (setLatch n u).reg k i = s.reg k i) := by
  have hreg {k : RegKind} (h : k ≠ .trpSts) (i : Nat) : u.reg k i = s.reg k i := hother k i (fun e => h (congrArg Prod.fst e))
  have hcore : (tripLatched n u).abortEntry.coreOn = s.coreOn := (abortEntry_coreOn _).trans hon
  have hget (f : Fld) (i : Nat) : (setLatch n u).get f i = (tripLatched n u).abortEntry.get f i := by
    rw [setLatch_new hbit]
    exact State.get_of_regs (tripOwed_regs _ _) _ _
  have hsteady : Steady (tripLatched n u) ↔ Steady s := by
    show (u.pwr.st ≠ _ ∧ u.pwr.st ≠ _) ↔ _
    rw [hst]
  refine ⟨?_, fun h => ?_, fun h => ?_, fun h => ?_, fun h => ?_⟩
  · rw [hget, State.get, abortEntry_reg _ (by decide) (by decide) (by decide)]
    refine (State.get_inc_same _ _ (by decide) _ _).trans ?_
    rw [State.get, State.setBit_eq_setReg, State.reg_setReg_kind _ (by decide), hreg (by decide)]
    rfl
  · rw [setLatch_new hbit, tripOwed, if_pos (hcore.trans h)]
    dsimp only
    rw [abortEntry_tripTodo]
    exact congrArg (· ||| _) htodo
  · rw [setLatch_new hbit, tripOwed, if_neg (by rw [hcore, h]; exact Bool.false_ne_true), abortEntry_tripTodo]
    exact htodo
  · obtain ⟨p3, hent⟩ := not_steady (fun hs => h (hsteady.mp hs))
    obtain ⟨hrefuse, habort, hlogged⟩ := abortNoted_spec (tripLatched n u)
    refine ⟨?_, ?_, ?_, ?_⟩
    · rw [setLatch_new hbit, tripOwed_rest, abortEntry_entering hent]
      rfl
    · rw [hget, abortEntry_entering hent]
      exact hrefuse
    · rw [hget, abortEntry_entering hent]
      refine habort.trans ?_
      rw [State.get, tripLatched_reg _ _ (by decide) (by decide), hreg (by decide)]
      rfl
    · rw [setLatch_new hbit, tripOwed_rest, abortEntry_entering hent]
      obtain ⟨e, hl, hc⟩ := hlogged
      exact ⟨e, hl.trans (congrArg (fun l => (e :: l).take 2048) hlog), hc⟩
  · rw [setLatch_new hbit, abortEntry_steady (hsteady.mpr h), tripOwed_rest]
    refine ⟨hst, fun k i hs hc => ?_⟩
    exact (tripLatched_reg n u hs hc i).trans (hreg hs i)

theorem tripLatch_spec {s : State} (hd : s.pwr.emberDown = false) (trip : Trip) (width : Nat) (held : Bool) :
    let n := tripBit trip
    ∃ t, exec (.tripLatch trip width held) s = .next t ∧ t.bit .trpSts 0 (8 + n) = held ∧
      (∀ m, m < 3 → m ≠ n → t.bit .trpSts 0 m = s.bit .trpSts 0 m) ∧ (s.bit .trpSts 0 n = true → t.bit .trpSts 0 n = true ∧ t.reg .trpCnt = s.reg .trpCnt) ∧
      (width < 2 → t.bit .trpSts 0 n = s.bit .trpSts 0 n ∧ OtherRegs s t .trpSts 0 ∧ t.pwr.st = s.pwr.st ∧ t.pwr.tripTodo = s.pwr.tripTodo) ∧
      (10 ≤ width → t.bit .trpSts 0 n = true ∧ (s.bit .trpSts 0 n = false → t.get Fld.trpCntLatches = min 255 (s.get Fld.trpCntLatches + 1) ∧
        (s.coreOn = true → t.pwr.tripTodo = s.pwr.tripTodo ||| (1#3 <<< n)) ∧ (s.coreOn = false → t.pwr.tripTodo = s.pwr.tripTodo) ∧
        (¬Steady s → t.pwr.st = .p0 ∧ t.get Fld.pwrStsRefuse = 9 ∧ t.get Fld.pwrCntAbort = min 255 (s.get Fld.pwrCntAbort + 1) ∧ Logged s t uPWR 0x1019) ∧
        (Steady s → t.pwr.st = s.pwr.st ∧ ∀ k i, k ≠ .trpSts → k ≠ .trpCnt → t.reg k i = s.reg k i))) := by
  dsimp only
  obtain ⟨t, ht, hends, hshort, hlong⟩ := execTripLatch_ends hd trip width held
  obtain ⟨hlevel, hothers, hset⟩ := hends.bits
  have hn := tripBit_lt trip
  refine ⟨t, ht, hlevel, hothers, hset, fun h => ?_, fun h => ⟨?_, fun hbit => ?_⟩⟩
  · rw [hshort h]
    exact ⟨levelTaken_latch trip held s hn, otherRegs_levelTaken trip held s, rfl, rfl⟩
  · rw [hlong h, setLatch_bit hn, decide_eq_true rfl, Bool.true_or]
  · rw [hlong h]
    exact setLatch_acts ((levelTaken_latch trip held s hn).trans hbit) (otherRegs_levelTaken trip held s) rfl rfl rfl rfl

end Sys2Proof.Machine
end

section
/-! PROOFS. What the core does on a latch, and how latches and ember-held registers are written (O49). -/
namespace Sys2Proof.Machine

/-! ## What the core does on a latch (R657, Table 18-5) -/

/-- A latch that the core has seen: its source rises and the log names it. -/
def tripSeen (n : Nat) (s : State) : State := (s.edgeAll 49).logPacked uTRP 0x1017 [(1, n)]

/-- One latch dealt with, where it is owed. -/
def tripStep (todo : BitVec 3) (s : State) (n : Nat) : State := if todo.getLsbD n then tripEffect n (tripSeen n s) else s

/-- Nothing owed any more. -/
def tripTakenUp (s : State) : State := { s with pwr := { s.pwr with tripTodo := 0 } }

theorem foldl_range_three {β : Type} (f : β → Nat → β) (b : β) : (List.range 3).foldl f b = f (f (f b 0) 1) 2 := rfl

theorem execTripAct_eq {s : State} (hon : s.coreOn = true) (h : s.pwr.tripTodo ≠ 0) :
    execTripAct s = .next (tripStep s.pwr.tripTodo (tripStep s.pwr.tripTodo (tripStep s.pwr.tripTodo (tripTakenUp s) 0) 1) 2) := by
  have htodo : (s.pwr.tripTodo != 0) = true := bne_iff_ne.mpr h
  unfold execTripAct
  rw [hon, htodo, Bool.and_true, onlyIf_true]
  exact congrArg (fun t => (.next t : Out)) (foldl_range_three (tripStep s.pwr.tripTodo) (tripTakenUp s))

theorem tripSeen_pwr (n : Nat) (s : State) : (tripSeen n s).pwr = s.pwr := by rw [tripSeen, State.logPacked_pwr, State.edgeAll_pwr]

theorem tripSeen_wp (n : Nat) (s : State) : (tripSeen n s).wp = s.wp := by rw [tripSeen, State.logPacked_wp, State.edgeAll_wp]

theorem tripSeen_dg (n : Nat) (s : State) : (tripSeen n s).dg = s.dg := by rw [tripSeen, State.logPacked_dg, State.edgeAll_dg]

theorem tripSeen_time (n : Nat) (s : State) : (tripSeen n s).time = s.time := by rw [tripSeen, State.logPacked_time, State.edgeAll_time]

theorem tripSeen_reg (n : Nat) (s : State) {k : RegKind} (hlo : k ≠ .sicPpendLo) (hhi : k ≠ .sicPpendHi) (hl : k ≠ .glbLogSeq) (i : Nat) :
    (tripSeen n s).reg k i = s.reg k i := by
  unfold tripSeen
  rw [State.reg_logPacked _ hl, State.reg_edgeAll _ hlo hhi]

theorem tripSeen_flag (n : Nat) (s : State) {f : Fld} (hlo : f.kind ≠ .sicPpendLo) (hhi : f.kind ≠ .sicPpendHi) (hl : f.kind ≠ .glbLogSeq) (i : Nat) :
    (tripSeen n s).flag f i = s.flag f i := by
  rw [State.flag, State.get, tripSeen_reg n s hlo hhi hl]
  rfl

theorem tripSeen_inRun (n : Nat) (s : State) : tripInRun (tripSeen n s) = tripInRun s := by
  have hb : (tripSeen n s).banked = s.banked := tripSeen_flag n s (by decide) (by decide) (by decide) 0
  have hs : (tripSeen n s).stage = s.stage := congrArg Fld.glbBootStsStage.get (tripSeen_reg n s (by decide) (by decide) (by decide) 0)
  unfold tripInRun
  rw [hb, hs, tripSeen_pwr]

theorem tripSeen_pends (n : Nat) (s : State) : PendsAll (tripSeen n s) 49 := by
  refine (pendsAll_edgeAll s (by decide)).of_regs fun k i hk => State.reg_logPacked _ ?_ _ _ _ _ _
  rcases hk with rfl | rfl
  · decide
  · decide

/-- Bits that are pending stay so as the engine enters the banked state. -/
theorem bit_bankNamed_mono {s : State} {k : RegKind} (hk : k = .sicPpendLo ∨ k = .sicPpendHi) {cause : Nat} {obj : List (Nat × Nat)} {i b : Nat}
    (h : s.bit k i b = true) : (s.bankNamed cause obj).bit k i b = true := by
  have hkind : k ≠ .glbLogSeq ∧ k ≠ .glbBankTimeHi ∧ k ≠ .glbBankTimeLo ∧ k ≠ .glbBootSts ∧ k ≠ .glbBankSts := by
    rcases hk with rfl | rfl
    · decide
    · decide
  obtain ⟨hl, hth, htl, hbs, hbk⟩ := hkind
  by_cases hb : s.banked = true
  · rw [bankNamed_again hb, State.bit_logPacked _ hl]
    exact h
  · rw [bankNamed_entry hb, State.bit_of_regs (bankNoted_regs _), bankEntered_eq, State.bit_logPacked _ hl]
    refine bit_edgeAll_mono (by decide) ?_
    have hreg : (bankTimed cause s).reg k i = s.reg k i := by
      unfold bankTimed enterStage
      rw [State.reg_put_kind _ hth, State.reg_put_kind _ htl, State.reg_logPacked _ hl, State.reg_put_kind _ hbs, State.reg_put_kind _ hbk, State.reg_putFlag_kind _ hbk]
    rw [State.bit, hreg]
    exact h

theorem calm_reg {s t : State} (h : t.calm = s.calm) {k : RegKind} (hk : k ∈ stillKinds) (i : Nat) : t.reg k i = s.reg k i := by
  have hr : (if k ∈ stillKinds then t.reg k i else 0) = if k ∈ stillKinds then s.reg k i else 0 := congrFun (congrFun (congrArg Still.regs h) k) i
  rw [if_pos hk, if_pos hk] at hr
  exact hr

theorem powerFail_regs (s : State) (i : Nat) : (powerFail s).reg .mapFlushSts i = (powerLost s).reg .mapFlushSts i ∧
    (∀ k, k = .sicPpendLo ∨ k = .sicPpendHi → (powerFail s).reg k i = s.reg k i) := by
  refine ⟨calm_reg (calm_powerFail s) (by decide) i, fun k hk => ?_⟩
  have hkind : k ∈ stillKinds ∧ k ≠ .mapFlushSts := by
    rcases hk with rfl | rfl
    · decide
    · decide
  exact (calm_reg (calm_powerFail s) hkind.1 i).trans ((State.reg_putFlag_kind _ hkind.2 true 0 i).trans (State.reg_of_regs rfl _ _))

theorem powerFail_tripTodo (s : State) : (powerFail s).pwr.tripTodo = s.pwr.tripTodo := congrArg (fun x => x.pwr.tripTodo) (calm_powerFail s)

theorem powerFail_begins (s : State) : (powerFail s).flag Fld.mapFlushStsActive = true ∧ (powerFail s).wp.pfail = true := by
  refine ⟨?_, congrArg (fun x => x.wp.pfail) (calm_powerFail s)⟩
  have hreg := (powerFail_regs s 0).1
  rw [State.flag, State.get]
  exact (congrArg (fun w => Fld.mapFlushStsActive.get w != 0) hreg).trans (State.flag_putFlag _ Fld.mapFlushStsActive rfl (by decide) true 0)

theorem showStop_rest (s : State) : showStop s = { s with regs := (showStop s).regs, log := (showStop s).log } := by
  unfold showStop
  dsimp only
  split
  · rfl
  · rfl

theorem tripEffect_out {n : Nat} {s : State} (h : tripInRun s = false) : tripEffect n s = s := by
  unfold tripEffect
  rw [h]
  rfl

theorem tripEffect_in {n : Nat} {s : State} (h : tripInRun s = true) : tripEffect n s =
    if n = 0 then (if (s.flag Fld.mapFlushStsActive || s.flag Fld.mapFlushStsDone) = true then s else powerFail s) else if n = 1 then showStop s else s.bank 0x0C := by
  unfold tripEffect
  rw [h]
  rfl

theorem tripEffect_tripTodo (n : Nat) (s : State) : (tripEffect n s).pwr.tripTodo = s.pwr.tripTodo := by
  cases h : tripInRun s with
  | false => rw [tripEffect_out h]
  | true =>
    rw [tripEffect_in h]
    split_ifs
    · rfl
    · exact powerFail_tripTodo s
    · rw [showStop_rest]
    · exact bankNamed_tripTodo s _ _

theorem tripEffect_pends {k : Nat} (n : Nat) {s : State} (hp : PendsAll s k) : PendsAll (tripEffect n s) k := by
  cases h : tripInRun s with
  | false => rwa [tripEffect_out h]
  | true =>
    rw [tripEffect_in h]
    split_ifs
    · exact hp
    · exact hp.of_regs fun j i hj => (powerFail_regs s i).2 j hj
    · refine hp.of_regs fun j i hj => ?_
      rcases hj with rfl | rfl
      · exact showStop_regs s _ _ (fun e => absurd (Prod.mk.inj e).1 (by decide)) (by decide)
      · exact showStop_regs s _ _ (fun e => absurd (Prod.mk.inj e).1 (by decide)) (by decide)
    · exact hp.of_bits fun j i b hj hb => bit_bankNamed_mono hj hb

theorem tripStep_owed {todo : BitVec 3} {n : Nat} (h : todo.getLsbD n = true) (s : State) : tripStep todo s n = tripEffect n (tripSeen n s) := if_pos h

theorem tripStep_not {todo : BitVec 3} {n : Nat} (h : todo.getLsbD n = false) (s : State) : tripStep todo s n = s :=
  if_neg (by rw [h]; exact Bool.false_ne_true)

theorem tripStep_tripTodo (todo : BitVec 3) (n : Nat) (s : State) : (tripStep todo s n).pwr.tripTodo = s.pwr.tripTodo := by
  cases h : todo.getLsbD n with
  | false => rw [tripStep_not h]
  | true =>
    rw [tripStep_owed h, tripEffect_tripTodo, tripSeen_pwr]

theorem tripStep_pends {todo : BitVec 3} {n : Nat} {s : State} (h : todo.getLsbD n = true ∨ PendsAll s 49) : PendsAll (tripStep todo s n) 49 := by
  cases hbit : todo.getLsbD n with
  | false =>
    rw [tripStep_not hbit]
    exact h.resolve_left (by rw [hbit]; exact Bool.false_ne_true)
  | true =>
    rw [tripStep_owed hbit]
    exact tripEffect_pends n (tripSeen_pends n s)

/-- Outside RUN a latch is only seen. -/
theorem tripStep_out {todo : BitVec 3} {n : Nat} {s : State} (h : tripInRun s = false) :
    tripInRun (tripStep todo s n) = false ∧ (tripStep todo s n).wp = s.wp ∧ (tripStep todo s n).banked = s.banked := by
  cases hbit : todo.getLsbD n with
  | false =>
    rw [tripStep_not hbit]
    exact ⟨h, rfl, rfl⟩
  | true =>
    have hseen : tripInRun (tripSeen n s) = false := (tripSeen_inRun n s).trans h
    rw [tripStep_owed hbit, tripEffect_out hseen]
    exact ⟨hseen, tripSeen_wp n s, tripSeen_flag n s (by decide) (by decide) (by decide) 0⟩

theorem tripInRun_takenUp (s : State) : tripInRun (tripTakenUp s) = tripInRun s := rfl

theorem exists_trip {todo : BitVec 3} (h : todo ≠ 0) : todo.getLsbD 0 = true ∨ todo.getLsbD 1 = true ∨ todo.getLsbD 2 = true := by
  revert todo
  decide

theorem single_trip {todo : BitVec 3} (h : todo ≠ 0) {n : Nat} (ht : todo = 1#3 <<< n) : n = 0 ∧ todo = 1 ∨ n = 1 ∧ todo = 2 ∨ n = 2 ∧ todo = 4 := by
  match n with
  | 0 => exact Or.inl ⟨rfl, ht⟩
  | 1 => exact Or.inr (Or.inl ⟨rfl, ht⟩)
  | 2 => exact Or.inr (Or.inr ⟨rfl, ht⟩)
  | n + 3 =>
    refine absurd (ht.trans ?_) h
    exact BitVec.shiftLeft_eq_zero (by omega)

/-- One latch alone: the core deals with it. -/
theorem tripSteps_single {todo : BitVec 3} {n : Nat} (h : n = 0 ∧ todo = 1 ∨ n = 1 ∧ todo = 2 ∨ n = 2 ∧ todo = 4) (s : State) :
    tripStep todo (tripStep todo (tripStep todo s 0) 1) 2 = tripEffect n (tripSeen n s) := by
  rcases h with ⟨rfl, rfl⟩ | ⟨rfl, rfl⟩ | ⟨rfl, rfl⟩
  · rw [tripStep_not (n := 2) (by decide), tripStep_not (n := 1) (by decide), tripStep_owed (n := 0) (by decide)]
  · rw [tripStep_not (n := 2) (by decide), tripStep_owed (n := 1) (by decide), tripStep_not (n := 0) (by decide)]
  · rw [tripStep_owed (n := 2) (by decide), tripStep_not (n := 1) (by decide), tripStep_not (n := 0) (by decide)]

theorem tripSeen_logged (n : Nat) (s : State) : Logged s (tripSeen n (tripTakenUp s)) uTRP 0x1017 := by
  obtain ⟨e, hlog, he⟩ := logged_logPacked ((tripTakenUp s).edgeAll 49) uTRP 0x1017 [(1, n)] []
  rw [State.edgeAll_log] at hlog
  exact ⟨e, hlog, he⟩

theorem tripAct_spec {s : State} (hon : s.coreOn = true) (htodo : s.pwr.tripTodo ≠ 0) :
    ∃ t, exec .tripAct s = .next t ∧ t.pwr.tripTodo = 0 ∧ PendsAll t 49 ∧
      (tripInRun s = false → (∀ n : Nat, s.pwr.tripTodo = 1#3 <<< n → Logged s t uTRP 0x1017) ∧ t.wp = s.wp ∧ t.banked = s.banked) ∧
      (tripInRun s = true → s.pwr.tripTodo = 4 → BankedBy t 0x0C s.now) ∧
      (tripInRun s = true → s.pwr.tripTodo = 2 → s.flag Fld.trpStsTherm = true → t.flag Fld.drgStsStop = true ∧ t.wp = s.wp) ∧
      (tripInRun s = true → s.pwr.tripTodo = 1 → s.flag Fld.mapFlushStsActive = false → s.flag Fld.mapFlushStsDone = false → t.flag Fld.mapFlushStsActive = true ∧ t.wp.pfail = true) := by
  have hseen (n : Nat) (h : tripInRun s = true) : tripInRun (tripSeen n (tripTakenUp s)) = true := (tripSeen_inRun n _).trans ((tripInRun_takenUp s).trans h)
  have hflag (n : Nat) {f : Fld} (hlo : f.kind ≠ .sicPpendLo) (hhi : f.kind ≠ .sicPpendHi) (hl : f.kind ≠ .glbLogSeq) : (tripSeen n (tripTakenUp s)).flag f = s.flag f :=
    (tripSeen_flag n (tripTakenUp s) hlo hhi hl 0).trans (State.flag_of_regs rfl _ _)
  refine ⟨_, execTripAct_eq hon htodo, ?_, ?_, fun h => ⟨fun n hn => ?_, ?_⟩, fun h h4 => ?_, fun h h2 htherm => ?_, fun h h1 hactive hdone => ?_⟩
  · rw [tripStep_tripTodo, tripStep_tripTodo, tripStep_tripTodo]
    rfl
  · rcases exists_trip htodo with h | h | h
    · exact tripStep_pends (Or.inr (tripStep_pends (Or.inr (tripStep_pends (Or.inl h)))))
    · exact tripStep_pends (Or.inr (tripStep_pends (Or.inl h)))
    · exact tripStep_pends (Or.inl h)
  · rw [tripSteps_single (single_trip htodo hn), tripEffect_out ((tripSeen_inRun n _).trans ((tripInRun_takenUp s).trans h))]
    exact tripSeen_logged n s
  · obtain ⟨h0, hw0, hb0⟩ := tripStep_out (todo := s.pwr.tripTodo) (n := 0) ((tripInRun_takenUp s).trans h)
    obtain ⟨h1, hw1, hb1⟩ := tripStep_out (todo := s.pwr.tripTodo) (n := 1) h0
    obtain ⟨_, hw2, hb2⟩ := tripStep_out (todo := s.pwr.tripTodo) (n := 2) h1
    exact ⟨hw2.trans (hw1.trans hw0), hb2.trans (hb1.trans (hb0.trans (State.flag_of_regs rfl _ _)))⟩
  · rw [tripSteps_single (Or.inr (Or.inr ⟨rfl, h4⟩)), tripEffect_in (hseen 2 h), if_neg (by decide), if_neg (by decide)]
    have hb : (tripSeen 2 (tripTakenUp s)).banked = false := by
      refine (hflag 2 (by decide) (by decide) (by decide)).trans ?_
      unfold tripInRun at h
      rw [Bool.and_eq_true, Bool.not_eq_true'] at h
      exact h.1
    have hnow : s.now = (tripSeen 2 (tripTakenUp s)).now := (congrArg BitVec.toNat (tripSeen_time 2 (tripTakenUp s))).symm
    rw [hnow]
    exact bankedBy_bank hb (by decide)
  · rw [tripSteps_single (Or.inr (Or.inl ⟨rfl, h2⟩)), tripEffect_in (hseen 1 h), if_neg (by decide), if_pos rfl]
    refine ⟨?_, (congrArg State.wp (showStop_rest (tripSeen 1 (tripTakenUp s))) :).trans (tripSeen_wp 1 (tripTakenUp s))⟩
    rw [showStop_stop, hflag 1 (by decide) (by decide) (by decide), htherm, Bool.or_true]
  · rw [tripSteps_single (Or.inl ⟨rfl, h1⟩), tripEffect_in (hseen 0 h), if_pos rfl, hflag 0 (by decide) (by decide) (by decide),
      hflag 0 (by decide) (by decide) (by decide), hactive, hdone, if_neg (by decide)]
    exact powerFail_begins _

/-! ## Latches cleared (R658) -/

/-- A clear that the input, still low, refuses. -/
def clearRefused (n : Nat) (s : State) : State := (s.inc (relatch n)).logPacked uTRP 0x1018 [(1, n)]

theorem relatch_kind (n : Nat) : (relatch n).kind = .trpCnt ∧ (relatch n).hi < 32 ∧ (relatch n).max = 255 ∧ (relatch n).hi + 1 - (relatch n).lo = 8 := by
  unfold relatch
  split
  · decide
  · decide
  · decide

theorem relatch_apart {n m : Nat} (hn : n < 3) (hm : m < 3) (h : m ≠ n) : (relatch m).hi < (relatch n).lo ∨ (relatch n).hi < (relatch m).lo := by
  have hall : ∀ a < 3, ∀ b < 3, b ≠ a → (relatch b).hi < (relatch a).lo ∨ (relatch a).hi < (relatch b).lo := by decide
  exact hall n hn m hm h

theorem clearLatch_eq (low fall : BitVec 3) (w : Word) (s : State) (n : Nat) : clearLatch low fall w s n = if fall.getLsbD n = true then setLatch n s
    else if (!w.getLsbD n) = true then s else if low.getLsbD n = true then clearRefused n s else s.clrBit .trpSts 0 n := rfl

theorem clearLatch_bit (low fall : BitVec 3) (w : Word) (s : State) {n : Nat} (hn : n < 3) (b : Nat) : (clearLatch low fall w s n).bit .trpSts 0 b =
    if b = n then (fall.getLsbD n || (s.bit .trpSts 0 b && !(w.getLsbD n && !low.getLsbD n))) else s.bit .trpSts 0 b := by
  have hrefused : (clearRefused n s).bit .trpSts 0 b = s.bit .trpSts 0 b := by
    unfold clearRefused
    rw [State.bit_logPacked _ (by decide), State.bit_inc_kind _ (by rw [(relatch_kind n).1]; decide)]
  rw [clearLatch_eq]
  cases hf : fall.getLsbD n with
  | true =>
    rw [if_pos rfl, setLatch_bit hn, Bool.true_or]
    by_cases hb : b = n
    · rw [if_pos hb, decide_eq_true hb, Bool.true_or]
    · rw [if_neg hb, decide_eq_false hb, Bool.false_or]
  | false =>
    rw [if_neg Bool.false_ne_true, Bool.false_or]
    cases hw : w.getLsbD n with
    | false => rw [if_pos (by decide), Bool.false_and, Bool.not_false, Bool.and_true, ite_self]
    | true =>
      rw [if_neg (by decide), Bool.true_and, Bool.not_not]
      cases hl : low.getLsbD n with
      | true => rw [if_pos rfl, Bool.and_true, hrefused, ite_self]
      | false =>
        rw [if_neg Bool.false_ne_true, Bool.and_false, State.bit_clrBit]
        by_cases hb : b = n
        · rw [if_pos hb, hb, decide_eq_true rfl]
          rfl
        · rw [if_neg hb, decide_eq_false (by simpa using hb)]
          rfl

theorem clearLatch_relatch (low fall : BitVec 3) (w : Word) (s : State) {n m : Nat} (hn : n < 3) (hm : m < 3) : (clearLatch low fall w s n).get (relatch m) =
    if m = n then min 255 (s.get (relatch m) + (w.getLsbD n && !fall.getLsbD n && low.getLsbD n).toNat) else s.get (relatch m) := by
  obtain ⟨hkind, hhi, hmax, hwidth⟩ := relatch_kind m
  have hlt : s.get (relatch m) < 256 := by
    have := (relatch m).get_lt (s.reg (relatch m).kind 0)
    rw [hwidth] at this
    exact this
  have hsame : (if m = n then min 255 (s.get (relatch m) + 0) else s.get (relatch m)) = s.get (relatch m) := by
    split
    · omega
    · rfl
  rw [clearLatch_eq]
  cases hf : fall.getLsbD n with
  | true =>
    rw [if_pos rfl, setLatch_relatch, Bool.not_true, Bool.and_false, Bool.false_and]
    exact hsame.symm
  | false =>
    rw [if_neg Bool.false_ne_true, Bool.not_false, Bool.and_true]
    cases hw : w.getLsbD n with
    | false =>
      rw [if_pos (by decide), Bool.false_and]
      exact hsame.symm
    | true =>
      rw [if_neg (by decide), Bool.true_and]
      cases hl : low.getLsbD n with
      | true =>
        rw [if_pos rfl, clearRefused, State.get_logPacked _ (by rw [hkind]; decide)]
        by_cases h : m = n
        · rw [if_pos h, h, State.get_inc_same _ _ (h ▸ hhi), ← h, hmax]
          rfl
        · rw [if_neg h, State.get_inc_field _ (relatch_apart hn hm h) hhi]
      | false =>
        rw [if_neg Bool.false_ne_true]
        refine Eq.trans ?_ hsame.symm
        exact congrArg (relatch m).get (State.reg_setReg_kind s (by rw [hkind]; decide) _ _ _)

theorem clearLatch_emberQ (low fall : BitVec 3) (w : Word) (s : State) (n : Nat) : (clearLatch low fall w s n).pwr.emberQ = s.pwr.emberQ := by
  rw [clearLatch_eq]
  split_ifs
  · exact setLatch_emberQ n s
  · rfl
  · rfl
  · rfl

theorem clearLatch_dg (low fall : BitVec 3) (w : Word) (s : State) (n : Nat) : (clearLatch low fall w s n).dg = s.dg := by
  rw [clearLatch_eq]
  split_ifs
  · exact setLatch_dg n s
  · rfl
  · rfl
  · rfl

theorem clearLatch_coreOn (low fall : BitVec 3) (w : Word) (s : State) (n : Nat) : (clearLatch low fall w s n).coreOn = s.coreOn := by
  rw [clearLatch_eq]
  split_ifs
  · exact setLatch_coreOn n s
  · rfl
  · rfl
  · rfl

/-- The three latches, one after the other. -/
def latchesCleared (low fall : BitVec 3) (w : Word) (s : State) : State := clearLatch low fall w (clearLatch low fall w (clearLatch low fall w s 0) 1) 2

theorem latchesCleared_rest (low fall : BitVec 3) (w : Word) (s : State) : (latchesCleared low fall w s).pwr.emberQ = s.pwr.emberQ ∧
    (latchesCleared low fall w s).dg = s.dg ∧ (latchesCleared low fall w s).coreOn = s.coreOn := by
  unfold latchesCleared
  rw [clearLatch_emberQ, clearLatch_emberQ, clearLatch_emberQ, clearLatch_dg, clearLatch_dg, clearLatch_dg, clearLatch_coreOn, clearLatch_coreOn, clearLatch_coreOn]
  exact ⟨rfl, rfl, rfl⟩

theorem latchesCleared_latch (low fall : BitVec 3) (w : Word) (s : State) {n : Nat} (hn : n < 3) :
    (latchesCleared low fall w s).bit .trpSts 0 n = (fall.getLsbD n || (s.bit .trpSts 0 n && !(w.getLsbD n && !low.getLsbD n))) := by
  unfold latchesCleared
  rw [clearLatch_bit _ _ _ _ (by decide), clearLatch_bit _ _ _ _ (by decide), clearLatch_bit _ _ _ _ (by decide)]
  match n, hn with
  | 0, _ => rfl
  | 1, _ => rfl
  | 2, _ => rfl

theorem latchesCleared_level (low fall : BitVec 3) (w : Word) (s : State) (n : Nat) : (latchesCleared low fall w s).bit .trpSts 0 (8 + n) = s.bit .trpSts 0 (8 + n) := by
  unfold latchesCleared
  rw [clearLatch_bit _ _ _ _ (by decide), clearLatch_bit _ _ _ _ (by decide), clearLatch_bit _ _ _ _ (by decide), if_neg (by omega), if_neg (by omega), if_neg (by omega)]

theorem latchesCleared_relatch (low fall : BitVec 3) (w : Word) (s : State) {n : Nat} (hn : n < 3) : (latchesCleared low fall w s).get (relatch n) =
    min 255 (s.get (relatch n) + (w.getLsbD n && !fall.getLsbD n && low.getLsbD n).toNat) := by
  unfold latchesCleared
  rw [clearLatch_relatch _ _ _ _ (by decide) hn, clearLatch_relatch _ _ _ _ (by decide) hn, clearLatch_relatch _ _ _ _ (by decide) hn]
  match n, hn with
  | 0, _ => rfl
  | 1, _ => rfl
  | 2, _ => rfl

/-- The front of the ember island's queue taken. -/
def emberTaken (q : List (RegKind × Word)) (s : State) : State := { s with pwr := { s.pwr with emberQ := q, embLost := false } }

theorem execTripClear_eq {low fall : BitVec 3} {s : State} {w : Word} {q : List (RegKind × Word)} (hd : s.pwr.emberDown = false) (hq : s.pwr.emberQ = (.trpSts, w) :: q) :
    execTripClear low fall s = .next (if (latchesCleared low fall w (tripLevels (low ||| fall) (emberTaken q s))).coreOn = true then
      showStop (latchesCleared low fall w (tripLevels (low ||| fall) (emberTaken q s))) else latchesCleared low fall w (tripLevels (low ||| fall) (emberTaken q s))) := by
  unfold execTripClear
  rw [hq]
  dsimp only
  rw [if_neg (by rw [hd]; exact Bool.false_ne_true), foldl_range_three]
  rfl

theorem State.bit_showStop (s : State) (b : Nat) : (showStop s).bit .trpSts 0 b = s.bit .trpSts 0 b := by
  rw [State.bit, showStop_regs s _ _ (fun e => absurd (Prod.mk.inj e).1 (by decide)) (by decide)]
  rfl

theorem State.get_showStop (s : State) (n : Nat) : (showStop s).get (relatch n) = s.get (relatch n) := by
  rw [State.get, (relatch_kind n).1, showStop_regs s _ _ (fun e => absurd (Prod.mk.inj e).1 (by decide)) (by decide), State.get, (relatch_kind n).1]

theorem tripClear_spec {s : State} {low fall : BitVec 3} {w : Word} {q : List (RegKind × Word)} (hd : s.pwr.emberDown = false) (hq : s.pwr.emberQ = (.trpSts, w) :: q) :
    ∃ t, exec (.tripClear low fall) s = .next t ∧ t.pwr.emberQ = q ∧
      (∀ n, n < 3 → t.bit .trpSts 0 (8 + n) = (low ||| fall).getLsbD n ∧
        t.bit .trpSts 0 n = (fall.getLsbD n || (s.bit .trpSts 0 n && !(w.getLsbD n && !low.getLsbD n))) ∧
        t.get (relatch n) = min 255 (s.get (relatch n) + (w.getLsbD n && !fall.getLsbD n && low.getLsbD n).toNat)) ∧
      (s.coreOn = true → t.flag Fld.drgStsStop = (s.dg.stop || t.bit .trpSts 0 1)) := by
  obtain ⟨hember, hdg, hcore⟩ := latchesCleared_rest low fall w (tripLevels (low ||| fall) (emberTaken q s))
  have hbits (n : Nat) (hn : n < 3) : (latchesCleared low fall w (tripLevels (low ||| fall) (emberTaken q s))).bit .trpSts 0 (8 + n) = (low ||| fall).getLsbD n ∧
      (latchesCleared low fall w (tripLevels (low ||| fall) (emberTaken q s))).bit .trpSts 0 n = (fall.getLsbD n || (s.bit .trpSts 0 n && !(w.getLsbD n && !low.getLsbD n))) ∧
      (latchesCleared low fall w (tripLevels (low ||| fall) (emberTaken q s))).get (relatch n) =
        min 255 (s.get (relatch n) + (w.getLsbD n && !fall.getLsbD n && low.getLsbD n).toNat) := by
    have hrelatch : (tripLevels (low ||| fall) (emberTaken q s)).get (relatch n) = s.get (relatch n) := by
      rw [State.get, (relatch_kind n).1, otherRegs_tripLevels _ _ _ _ (fun e => absurd (Prod.mk.inj e).1 (by decide)), State.get, (relatch_kind n).1]
      rfl
    refine ⟨?_, ?_, ?_⟩
    · rw [latchesCleared_level, tripLevels_level _ _ hn]
    · rw [latchesCleared_latch _ _ _ _ hn, tripLevels_latch _ _ hn]
      rfl
    · rw [latchesCleared_relatch _ _ _ _ hn, hrelatch]
  refine ⟨_, execTripClear_eq hd hq, ?_⟩
  generalize latchesCleared low fall w (tripLevels (low ||| fall) (emberTaken q s)) = u at hember hdg hcore hbits
  split
  · refine ⟨?_, fun n hn => ?_, fun _ => ?_⟩
    · rw [showStop_rest]
      exact hember
    · rw [State.bit_showStop, State.bit_showStop, State.get_showStop]
      exact hbits n hn
    · rw [showStop_stop, State.bit_showStop, hdg]
      exact congrArg (s.dg.stop || ·) (State.flag_eq_bit u Fld.trpStsTherm rfl 0)
  · refine ⟨hember, hbits, fun hon => absurd (hcore.trans hon) ‹_›⟩

/-! ## Ember-held registers written (R654) -/

theorem execEmberWriteEffect_eq {s : State} {k : RegKind} {w : Word} {q : List (RegKind × Word)} (hd : s.pwr.emberDown = false) (hq : s.pwr.emberQ = (k, w) :: q)
    (hk : k ≠ .trpSts ∧ k ≠ .pwrSts) : execEmberWriteEffect s = .next ((emberTaken q s).plainWrite k 0 w) := by
  unfold execEmberWriteEffect
  rw [hq]
  dsimp only
  rw [if_neg]
  · rfl
  · rw [hd]
    exact fun h => h.elim (fun h => Bool.false_ne_true h) (fun h => h.elim hk.1 hk.2)

/-- The ember-held registers of this row have RW fields and fields that no write changes. -/
theorem emberFields_plain : ∀ k ∈ [RegKind.pwrWakeLo, .pwrWakeHi, .trpCnt], k ≠ .trpSts ∧ k ≠ .pwrSts ∧ fieldsApart k = true ∧ ∀ f ∈ k.fields, f.acc = .rw ∨ f.acc = .rc := by
  decide

theorem emberWriteEffect_spec {s : State} {k : RegKind} {w : Word} {q : List (RegKind × Word)} (hd : s.pwr.emberDown = false) (hq : s.pwr.emberQ = (k, w) :: q)
    (hk : k ∈ [RegKind.pwrWakeLo, .pwrWakeHi, .trpCnt]) : ∃ t, exec .emberWriteEffect s = .next t ∧
      t = { s with regs := t.regs, pwr := { s.pwr with emberQ := q, embLost := false } } ∧ OtherRegs s t k 0 ∧ ∀ f ∈ k.fields, t.get f = if f.acc = .rw then f.get w else s.get f := by
  obtain ⟨htrp, hpwr, happart, hacc⟩ := emberFields_plain k hk
  refine ⟨_, execEmberWriteEffect_eq hd hq ⟨htrp, hpwr⟩, rfl, fun k' i hne => otherRegs_plainWrite (emberTaken q s) k 0 w k' i hne, fun f hf => ?_⟩
  have hap := apart_of_fieldsApart happart hf
  have hwritten : ((emberTaken q s).plainWrite k 0 w).get f = f.get (writeWord k (s.reg k 0) w) := by
    rw [State.get, hap.kind, State.plainWrite, State.reg_setReg_same]
    rfl
  rw [hwritten, hap.get_writeWord]
  rcases hacc f hf with h | h
  · rw [h, if_pos rfl]
  · rw [h, State.get, hap.kind]
    exact (if_neg (by decide : ¬ Access.rc = .rw)).symm

/-- EMB_CLK_LOSS after a write of PWR_STS. -/
def embLossCleared (w : Word) (q : List (RegKind × Word)) (s : State) : State :=
  if Fld.pwrStsEmbClkLoss.get w = 1 then (emberTaken q s).putFlag Fld.pwrStsEmbClkLoss false else emberTaken q s

theorem execEmbClkLossClear_eq {s : State} {w : Word} {q : List (RegKind × Word)} (hd : s.pwr.emberDown = false) (hq : s.pwr.emberQ = (.pwrSts, w) :: q) (again : Bool) :
    execEmbClkLossClear again s = if again = true then execEmbClkLoss (embLossCleared w q s) else .next (embLossCleared w q s) := by
  unfold execEmbClkLossClear
  rw [hq]
  dsimp only
  rw [if_neg (by rw [hd]; exact Bool.false_ne_true)]
  rfl

theorem embLossCleared_rest (w : Word) (q : List (RegKind × Word)) (s : State) :
    embLossCleared w q s = { s with regs := (embLossCleared w q s).regs, pwr := { s.pwr with emberQ := q, embLost := false } } := by
  unfold embLossCleared
  split
  · rfl
  · rfl

theorem embLossCleared_flag (w : Word) (q : List (RegKind × Word)) (s : State) :
    (embLossCleared w q s).flag Fld.pwrStsEmbClkLoss = (s.flag Fld.pwrStsEmbClkLoss && Fld.pwrStsEmbClkLoss.get w == 0) := by
  have hw : Fld.pwrStsEmbClkLoss.get w < 2 := Fld.pwrStsEmbClkLoss.get_lt w
  unfold embLossCleared
  split
  next h =>
    rw [State.flag_putFlag _ _ rfl (by decide), h]
    exact (Bool.and_false _).symm
  next h =>
    have h0 : Fld.pwrStsEmbClkLoss.get w = 0 := by omega
    rw [h0]
    exact (State.flag_of_regs rfl _ _).trans (Bool.and_true _).symm

theorem otherRegs_embLossCleared (w : Word) (q : List (RegKind × Word)) (s : State) : OtherRegs s (embLossCleared w q s) .pwrSts 0 := by
  unfold embLossCleared
  split
  · exact fun k i hk => (otherRegs_putFlag (emberTaken q s) Fld.pwrStsEmbClkLoss false 0 k i hk).trans (State.reg_of_regs rfl k i)
  · exact fun k i _ => State.reg_of_regs rfl k i

theorem embClkLossClear_spec {s : State} {w : Word} {q : List (RegKind × Word)} (hd : s.pwr.emberDown = false) (hq : s.pwr.emberQ = (.pwrSts, w) :: q) :
    (∃ t, exec (.embClkLossClear false) s = .next t ∧ t = { s with regs := t.regs, pwr := { s.pwr with emberQ := q, embLost := false } } ∧ OtherRegs s t .pwrSts 0 ∧
        t.flag Fld.pwrStsEmbClkLoss = (s.flag Fld.pwrStsEmbClkLoss && Fld.pwrStsEmbClkLoss.get w == 0)) ∧
      (∃ t, exec (.embClkLossClear true) s = .next t ∧ t.pwr.emberQ = q ∧ t.pwr.embLost = true ∧ t.flag Fld.pwrStsEmbClkLoss = true) := by
  refine ⟨⟨_, execEmbClkLossClear_eq hd hq false, embLossCleared_rest w q s, otherRegs_embLossCleared w q s, embLossCleared_flag w q s⟩, ?_⟩
  have hdown : (embLossCleared w q s).pwr.emberDown = false := by
    rw [embLossCleared_rest]
    exact hd
  obtain ⟨t, ht, hember, hlost, hflag⟩ := execEmbClkLoss_noted hdown
  refine ⟨t, (execEmbClkLossClear_eq hd hq true).trans ht, hember.trans ?_, hlost, hflag⟩
  rw [embLossCleared_rest]

/-- Settles O49, row by row. -/
theorem clockFaultsAndTrips : Obligations.ClockFaultsAndTrips := by
  unfold Obligations.ClockFaultsAndTrips
  intro s
  refine ⟨fun hon hb => ⟨⟨_, onCore_next hon _, bankedBy_bank hb (by decide)⟩, embClkLoss_banks hon hb, pwrGoodCoreLow_banks hon hb⟩, pwrGoodCoreLow_quiet, embClkLoss_noted,
    tripLatch_spec, tripAct_spec, fun low fall w q => tripClear_spec, fun k w q => emberWriteEffect_spec, fun w q => embClkLossClear_spec⟩

end Sys2Proof.Machine
end

section
/-! PROOFS. Entry to P1, P2 and P3 (O50). -/
namespace Sys2Proof.Machine

/-! ## P1 (R644) -/

/-- The channels' pins at rest. -/
def pinsRested (s : State) : State :=
  { s with
    ch := s.ch.map fun (e : Nat × Chan) => (e.1, { e.2 with pins := {} })
    pwr := { s.pwr with st := .p1 } }

theorem p1Entry_spec {s : State} (hrun : s.running = true) (hstage : s.stage = 9) (hst : s.pwr.st = .p0) (hre : s.pwr.restartAt ≤ s.now) (hen : s.flag Fld.pwrCtlP1En = true)
    (ha : arrayQuiet s = true) (hc : calQuiet s = true) (hr : s.reqs = []) (hsc : scansQuiet s = true) (hm : moversQuiet s = true)
    (ht : s.pwr.idleFrom + 1000 * max 1 (s.get Fld.pwrCfgP1Idle) ≤ s.now) :
    ∃ t, exec .p1Entry s = .next t ∧ t = { s with regs := t.regs, ch := t.ch, pwr := { s.pwr with st := .p1 } } ∧
        t.ch = s.ch.map (fun e => (e.1, { e.2 with pins := {} })) ∧ OtherRegs s t .pwrCnt 0 ∧
        t.get Fld.pwrCntP1 = min 65535 (s.get Fld.pwrCntP1 + 1) := by
  refine ⟨(pinsRested s).inc Fld.pwrCntP1, ?_, rfl, rfl, fun k i hk => otherRegs_put (pinsRested s) Fld.pwrCntP1 _ 0 k i hk, ?_⟩
  · have hquiet : p1Quiet s = true := by
      unfold p1Quiet
      rw [ha, hc, hr, hsc, hm]
      rfl
    show execP1Entry s = _
    unfold execP1Entry
    rw [hrun, hstage, hst, decide_eq_true hre, hen, hquiet, decide_eq_true ht]
    exact onlyIf_true _ _
  · exact (State.get_inc_same _ _ (by decide) _ _).trans (congrArg (fun x => min 65535 (x + 1)) (State.get_of_regs (s := s) (t := pinsRested s) rfl _ _))

/-! ## Requests (R646, Table 18-2) -/

theorem budget_reg (s : State) {k : RegKind} (hd : k ≠ .mapPanDmax) (hm : k ≠ .mapPanLimit) (i : Nat) : (budget s).reg k i = s.reg k i := by
  unfold budget
  split
  · rw [State.reg_put_kind _ hm, State.reg_put_kind _ hd]
  · rfl

theorem scanMir_reg (l : List (Nat × List Byte)) (s : State) {k : RegKind} (hl : k ≠ .glbLogSeq) (hd : k ≠ .mapPanDmax) (hm : k ≠ .mapPanLimit) (i : Nat) :
    (scanMir l s).reg k i = s.reg k i := by
  have hlog : ∀ (l : List (Nat × List Byte)) (s : State), (l.foldl (fun s e => if mirState e.2 then s else s.logPacked uMAP 0x100C [(4, e.1), (1, 1)]) s).reg k i = s.reg k i := by
    intro l
    induction l with
    | nil => exact fun _ => rfl
    | cons e l ih =>
      intro s
      rw [List.foldl_cons, ih]
      split
      · rfl
      · exact State.reg_logPacked _ hl _ _ _ _ _
  unfold scanMir
  dsimp only
  rw [budget_reg _ hd hm]
  exact hlog l s

section
variable {s : State} {r : Req} {w : Word} {mirs : List (Nat × List Byte)} {p3 : Bool}

/-- What a request for P2 or P3 is judged by. -/
def entryJudged (mirs : List (Nat × List Byte)) (w : Word) (s : State) : State := scanMir mirs (s.plainWrite .pwrCtl 0 w)

theorem entryJudged_rest (mirs : List (Nat × List Byte)) (w : Word) (s : State) : entryJudged mirs w s = { s with
    regs := (entryJudged mirs w s).regs
    log := (entryJudged mirs w s).log
    wp := { s.wp with mir := (entryJudged mirs w s).wp.mir } } := scanMir_rest mirs (s.plainWrite .pwrCtl 0 w)

theorem entryJudged_p1En (mirs : List (Nat × List Byte)) (w : Word) (s : State) : (entryJudged mirs w s).flag Fld.pwrCtlP1En = decide (Fld.pwrCtlP1En.get w = 1) := by
  have hw : Fld.pwrCtlP1En.get w < 2 := Fld.pwrCtlP1En.get_lt w
  have hget : (entryJudged mirs w s).get Fld.pwrCtlP1En = Fld.pwrCtlP1En.get w :=
    (congrArg Fld.pwrCtlP1En.get (scanMir_reg mirs _ (by decide) (by decide) (by decide) 0)).trans
      (State.get_plainWrite_rw s Fld.pwrCtlP1En (by decide) (by decide) (by decide) (by decide) 0 w)
  rw [State.flag, hget]
  rcases Nat.lt_succ_iff_lt_or_eq.mp hw with h | h
  · have h0 : Fld.pwrCtlP1En.get w = 0 := by omega
    rw [h0]
    rfl
  · rw [h]
    rfl

/-- A request that was judged. -/
def entryAnswered (p3 : Bool) (u : State) : State := if entryRefused p3 u = 0 then enterSleep p3 u else u.put Fld.pwrStsRefuse (entryRefused p3 u)

theorem pwrCtlWrite_judged (hst : s.pwr.st = .p0 ∨ s.pwr.st = .p1) (h3 : Fld.pwrCtlP3Req.get w = p3.toNat) (h2 : p3 = false → Fld.pwrCtlP2Req.get w = 1) :
    pwrCtlWrite mirs w s = entryAnswered p3 (entryJudged mirs w s) := by
  have hbit : (Fld.pwrCtlP3Req.get w == 1) = p3 := by
    rw [h3]
    cases p3
    · rfl
    · rfl
  have hask : (!p3 && Fld.pwrCtlP2Req.get w == 0) = false := by
    cases p3 with
    | false =>
      rw [h2 rfl]
      rfl
    | true => rfl
  have hst' : (entryJudged mirs w s).pwr.st = s.pwr.st := (congrArg (fun t : State => t.pwr.st) (entryJudged_rest mirs w s) :)
  have hawake : ((entryJudged mirs w s).pwr.st == .p0 || (entryJudged mirs w s).pwr.st == .p1) = true := by
    rw [hst']
    rcases hst with h | h
    · rw [h]
      rfl
    · rw [h]
      rfl
  unfold pwrCtlWrite
  dsimp only
  rw [hbit, hask, if_neg Bool.false_ne_true, ← entryJudged, hawake, entryAnswered, Bool.and_true]
  simp only [decide_eq_true_eq, if_true]

theorem entryRequest_exec (hw : Written s r .pwrCtl 0 w) (hst : s.pwr.st = .p0 ∨ s.pwr.st = .p1) (h3 : Fld.pwrCtlP3Req.get w = p3.toNat)
    (h2 : p3 = false → Fld.pwrCtlP2Req.get w = 1) :
    exec (if p3 then .p3Request r w mirs else .p2Request r w mirs) s = .next ((entryAnswered p3 (entryJudged mirs w s)).respondWrite r .ok) := by
  have hpass : regWrite s r .pwrCtl 0 w (pwrCtlWrite mirs w) = (entryAnswered p3 (entryJudged mirs w s)).respondWrite r .ok := by
    rw [regWrite_pwr hw rfl, pwrCtlWrite_judged hst h3 h2]
  cases p3 with
  | false =>
    show execP2Request r w mirs s = _
    unfold execP2Request
    rw [h2 rfl, hpass]
    exact onlyIf_true _ _
  | true =>
    show execP3Request r w mirs s = _
    unfold execP3Request
    rw [h3, hpass]
    exact onlyIf_true _ _

/-- No condition of Table 18-2 fails. -/
theorem entryRefused_zero {u : State} (h : entryRefused p3 u = 0) : u.stage = 9 ∧ u.banked = false ∧ u.reqs = [] ∧ arrayQuiet u = true ∧ occupancy u = 0 ∧
    (u.reg .trpSts &&& 7) = 0 ∧ debugLevel u ≠ 2 ∧ (p3 = true → ∀ e ∈ u.wp.streams, e.2.page = []) := by
  unfold entryRefused at h
  dsimp only at h
  split_ifs at h with h1 h2 h3 h4 h5 h6 h7 h8 ha
  simp only [Bool.not_eq_true', Bool.not_eq_false, Bool.and_eq_true, beq_iff_eq, List.isEmpty_iff, decide_eq_true_eq] at h1 h2 h3
  obtain ⟨⟨hstage, hbanked⟩, -⟩ := h1
  obtain ⟨⟨⟨⟨hreqs, -⟩, -⟩, harray⟩, -⟩ := h2
  refine ⟨hstage, hbanked, hreqs, harray, h3.1, not_not.mp h7, h8, fun hp e he => ?_⟩
  by_contra hne
  refine ha ⟨hp, List.any_eq_true.mpr ⟨e, he, ?_⟩⟩
  rw [Bool.not_eq_true', List.isEmpty_eq_false_iff]
  exact hne

theorem entryRefused_lt (p3 : Bool) (u : State) : entryRefused p3 u < 2 ^ 4 := by
  unfold entryRefused
  dsimp only
  split_ifs
  all_goals decide

theorem entryRequest_spec (hw : Written s r .pwrCtl 0 w) (hst : s.pwr.st = .p0 ∨ s.pwr.st = .p1) (h3 : Fld.pwrCtlP3Req.get w = p3.toNat)
    (h2 : p3 = false → Fld.pwrCtlP2Req.get w = 1) :
    let u := scanMir mirs (s.plainWrite .pwrCtl 0 w)
    let c := entryRefused p3 u
    ∃ t, exec (if p3 then .p3Request r w mirs else .p2Request r w mirs) s = .next t ∧ t.flag Fld.pwrCtlP1En = decide (Fld.pwrCtlP1En.get w = 1) ∧ t.resps = okSent s r ∧
      (c ≠ 0 → t.pwr = s.pwr ∧ t.ch = s.ch ∧ t.fab = s.fab ∧ t.get Fld.pwrStsRefuse = c) ∧
      (c = 0 → t.pwr = { s.pwr with st := .entering p3, parked := true, fromP1 := s.pwr.st == .p1, dramIdle := true } ∧ t.fab = { s.fab with inReq := [], inDat := [] } ∧
        (∀ e ∈ t.ch, e.2.wpN = false ∧ e.2.pins = {}) ∧ u.stage = 9 ∧ u.banked = false ∧ s.reqs = [] ∧ arrayQuiet u = true ∧ occupancy u = 0 ∧
        (u.reg .trpSts &&& 7) = 0 ∧ debugLevel u ≠ 2 ∧ (p3 = true → ∀ e ∈ s.wp.streams, e.2.page = [])) := by
  dsimp only
  rw [← entryJudged]
  have hrest := entryJudged_rest mirs w s
  have hen := entryJudged_p1En mirs w s
  refine ⟨_, entryRequest_exec hw hst h3 h2, ?_⟩
  generalize entryJudged mirs w s = u at hrest hen ⊢
  have hresps : u.resps = s.resps := (congrArg State.resps hrest :)
  have hpwr : u.pwr = s.pwr := (congrArg State.pwr hrest :)
  have hch : u.ch = s.ch := (congrArg State.ch hrest :)
  have hfab : u.fab = s.fab := (congrArg State.fab hrest :)
  have hreqs : u.reqs = s.reqs := (congrArg State.reqs hrest :)
  have hstreams : u.wp.streams = s.wp.streams := (congrArg (fun t : State => t.wp.streams) hrest :)
  rw [State.respondWrite_eq]
  by_cases hc : entryRefused p3 u = 0
  · obtain ⟨hstage, hbanked, hr, harray, hocc, htrp, hdbg, hpages⟩ := entryRefused_zero hc
    rw [entryAnswered, if_pos hc]
    refine ⟨(State.flag_of_regs rfl _ _).trans hen, ?_, fun h => absurd hc h, fun _ => ⟨?_, ?_, fun e he => ?_, hstage, hbanked, hreqs.symm.trans hr, harray, hocc, htrp, hdbg, ?_⟩⟩
    · exact congrArg (fun l => if r.sealedWr then l ++ [⟨r.port, r.vc, r.tag, .ok, []⟩] else l) hresps
    · exact congrArg (fun p : Pwr => ({ p with st := .entering p3, parked := true, fromP1 := p.st == .p1, dramIdle := true } : Pwr)) hpwr
    · exact congrArg (fun f : Fabric => ({ f with inReq := [], inDat := [] } : Fabric)) hfab
    · obtain ⟨x, -, rfl⟩ := List.mem_map.mp he
      exact ⟨rfl, rfl⟩
    · rwa [hstreams] at hpages
  · rw [entryAnswered, if_neg hc]
    refine ⟨?_, ?_, fun _ => ⟨hpwr, hch, hfab, ?_⟩, fun h => absurd h hc⟩
    · exact (State.flag_put_kind u (by decide) _ _ _).trans hen
    · exact congrArg (fun l => if r.sealedWr then l ++ [⟨r.port, r.vc, r.tag, .ok, []⟩] else l) hresps
    · exact (State.get_put_same u Fld.pwrStsRefuse (by decide) _ _).trans (Nat.mod_eq_of_lt (entryRefused_lt p3 u))

end

end Sys2Proof.Machine
end

section
/-! PROOFS. The entry message, and what wakes the engine (O50). -/
namespace Sys2Proof.Machine

/-! ## The entry message (R647, R648) -/

/-- The log and the debug level as an accepted entry leaves them. -/
def sleepNoted (s : State) : State := (((((s.logPacked uPWR 0x1019).put Fld.dbgStsLevel 0).put Fld.dbgStsScope 0).dropChallenge)).setChal 0

/-- An entry counted: P2_CNT counts P2 alone. -/
def sleepCounted (p3 : Bool) (s : State) : State := if p3 then s else s.inc Fld.pwrCntP2

/-- The supplies off with the state kept (P2). -/
def sleptP2 (s : State) : State := draughtOff { supplyOff s with pwr := { (supplyOff s).pwr with st := .p2, parked := false, fromP1 := false } }

/-- The supplies off with the state lost (P3). -/
def sleptP3 (s : State) : State :=
  { coldReset { supplyOff s with pwr := { (supplyOff s).pwr with st := .p3 } } with
    pwr := { (coldReset { supplyOff s with pwr := { (supplyOff s).pwr with st := .p3 } }).pwr with
      irqHeld := (supplyOff s).pwr.irqHeld
      dramIdle := true } }

theorem execEntryMessage_refused {s : State} {p3 : Bool} (hon : s.coreOn = true) (hst : s.pwr.st = .entering p3) (h : entryRefused p3 s ≠ 0) :
    execEntryMessage s = .next s.abortEntry := by
  unfold execEntryMessage
  rw [hst]
  dsimp only
  rw [hon, if_neg (by decide), if_pos h]

theorem execEntryMessage_p2 {s : State} (hon : s.coreOn = true) (hst : s.pwr.st = .entering false) (h : entryRefused false s = 0) :
    execEntryMessage s = .next (sleptP2 (sleepNoted (sleepCounted false s))) := by
  unfold execEntryMessage
  rw [hst]
  dsimp only
  rw [hon, if_neg (by decide), if_neg (by rw [h]; decide)]
  rfl

theorem execEntryMessage_p3 {s : State} (hon : s.coreOn = true) (hst : s.pwr.st = .entering true) (h : entryRefused true s = 0) :
    execEntryMessage s = .next (sleptP3 (sleepNoted (sleepCounted true s))) := by
  unfold execEntryMessage
  rw [hst]
  dsimp only
  rw [hon, if_neg (by decide), if_neg (by rw [h]; decide)]
  rfl

theorem entryMessage_aborts {s : State} {p3 : Bool} (hon : s.coreOn = true) (hst : s.pwr.st = .entering p3) (h : entryRefused p3 s ≠ 0) :
    ∃ t, exec .entryMessage s = .next t ∧ Aborted s t ∧ Logged s t uPWR 0x1019 ∧ t.fab = grantIn s.fab ∧
      t.ch = s.ch.map (fun e => (e.1, { e.2 with wpN := decide (3 ≤ e.2.stage) })) ∧ t.get Fld.pwrStsRefuse = 9 ∧ t.get Fld.pwrCntAbort = min 255 (s.get Fld.pwrCntAbort + 1) := by
  obtain ⟨hrefuse, habort, hlogged⟩ := abortNoted_spec s
  exact ⟨backInP0 (abortNoted s), (execEntryMessage_refused hon hst h).trans (by rw [abortEntry_entering hst]), rfl, hlogged, rfl, rfl, hrefuse, habort⟩

theorem sleepNoted_rest (s : State) : sleepNoted s = { s with regs := (sleepNoted s).regs, log := (sleepNoted s).log, sec := { s.sec with chal := none } } := by
  unfold sleepNoted
  generalize (0 : BitVec 384) = c
  rfl

theorem sleepNoted_reg (s : State) {k : RegKind} (hl : k ≠ .glbLogSeq) (hd : k ≠ .dbgSts) (hc : k ≠ .dbgChal) (i : Nat) : (sleepNoted s).reg k i = s.reg k i := by
  unfold sleepNoted
  rw [State.reg_setChal_kind _ _ hc, otherRegs_dropChallenge _ _ _ (fun e => hd (Prod.mk.inj e).1), State.reg_put_kind _ hd, State.reg_put_kind _ hd, State.reg_logPacked _ hl]

theorem sleepNoted_level (s : State) : (sleepNoted s).get Fld.dbgStsLevel = 0 := by
  unfold sleepNoted
  rw [State.get_setChal _ _ (by decide), get_dropChallenge _ (by decide) (by decide), State.get_put_field _ (by decide) (by decide), State.get_put_same _ _ (by decide)]
  rfl

theorem sleepNoted_log (s : State) : (sleepNoted s).log = (s.logPacked uPWR 0x1019).log := by
  unfold sleepNoted
  generalize (0 : BitVec 384) = c
  rfl

theorem sleepNoted_logged (s : State) : Logged s (sleepNoted s) uPWR 0x1019 := by
  obtain ⟨e, hlog, he⟩ := logged_logPacked s uPWR 0x1019 [] []
  exact ⟨e, (sleepNoted_log s).trans hlog, he⟩

/-! ### P2 -/

theorem Tab.find_filter_keys {α : Type} (p : Nat → Bool) {k : Nat} : ∀ t : Tab α, Tab.find k (t.filter fun e => p e.1) = if p k = true then Tab.find k t else none
  | [] => (ite_self _).symm
  | (j, v) :: t => by
    by_cases hj : j = k
    · subst hj
      by_cases hp : p j = true
      · rw [List.filter_cons_of_pos (by exact hp), if_pos hp]
        unfold Tab.find
        rw [if_pos rfl, if_pos rfl]
      · rw [List.filter_cons_of_neg (by exact hp), Tab.find_filter_keys p t, if_neg hp, if_neg hp]
    · have hskip (l : Tab α) : Tab.find k ((j, v) :: l) = Tab.find k l := if_neg hj
      by_cases hp : p j = true
      · rw [List.filter_cons_of_pos (by exact hp), hskip, hskip, Tab.find_filter_keys p t]
      · rw [List.filter_cons_of_neg (by exact hp), hskip, Tab.find_filter_keys p t]

/-- A register's key is one that the draught island holds. -/
def draughtKey (n : Nat) : Bool := RegKind.all.any fun k => k.ctorIdx == n % 256 && k.block == .drg

theorem draughtKey_regKey (k : RegKind) (i : Nat) : draughtKey (regKey k i) = (k.block == .drg) := by
  have hmod : regKey k i % 256 = k.ctorIdx := by
    have := k.ctorIdx_lt
    unfold regKey
    omega
  have hall : k ∈ RegKind.all := by
    cases k
    all_goals decide
  unfold draughtKey
  rw [hmod, Bool.eq_iff_iff, List.any_eq_true]
  constructor
  · rintro ⟨j, -, hj⟩
    rw [Bool.and_eq_true, beq_iff_eq] at hj
    rw [← RegKind.ctorIdx_inj hj.1]
    exact hj.2
  · exact fun h => ⟨k, hall, by rw [beq_self_eq_true, h]; rfl⟩

theorem draughtOff_reg (s : State) (k : RegKind) (i : Nat) : (draughtOff s).reg k i = if k.block = .drg then regReset k i else s.reg k i := by
  have hfind : Tab.find (regKey k i) (draughtOff s).regs = if (!(k.block == .drg)) = true then Tab.find (regKey k i) s.regs else none := by
    refine (Tab.find_filter_keys (fun n => !draughtKey n) s.regs).trans ?_
    rw [draughtKey_regKey]
  unfold State.reg Tab.get
  rw [hfind]
  by_cases h : k.block = .drg
  · rw [if_pos h, h]
    rfl
  · rw [if_neg h, if_pos (by rw [Bool.not_eq_true', beq_eq_false_iff_ne]; exact h)]

theorem sleptP2_reg (s : State) (k : RegKind) (i : Nat) : (sleptP2 s).reg k i = if k.block = .drg then regReset k i else s.reg k i := draughtOff_reg _ k i

theorem sleepCounted_p2 (s : State) : (sleepCounted false s).get Fld.pwrCntP2 = min 255 (s.get Fld.pwrCntP2 + 1) := State.get_inc_same s Fld.pwrCntP2 (by decide) 0 1

/-- What an entry into P2 keeps. -/
theorem entered_p2 {s u : State} (hu : u = sleepNoted (sleepCounted false s)) : (sleptP2 u).get Fld.pwrCntP2 = min 255 (s.get Fld.pwrCntP2 + 1) ∧
    Logged s (sleptP2 u) uPWR 0x1019 ∧ (sleptP2 u).wp = s.wp ∧ (sleptP2 u).md = s.md ∧ (sleptP2 u).sec.slots = s.sec.slots ∧
    (∀ k i, k ∉ [RegKind.pwrCnt, .dbgSts, .dbgChal, .glbLogSeq] → k.block ≠ .drg → (sleptP2 u).reg k i = s.reg k i) ∧
    ∀ k i, k.block = .drg → (sleptP2 u).reg k i = regReset k i := by
  have hrest := sleepNoted_rest (sleepCounted false s)
  rw [← hu] at hrest
  refine ⟨?_, ?_, (congrArg State.wp hrest :), (congrArg State.md hrest :), (congrArg (fun t : State => t.sec.slots) hrest :), fun k i hk hb => ?_, fun k i hb => ?_⟩
  · rw [State.get, sleptP2_reg, if_neg (by decide), hu, sleepNoted_reg _ (by decide) (by decide) (by decide)]
    exact sleepCounted_p2 s
  · obtain ⟨e, hlog, he⟩ := sleepNoted_logged (sleepCounted false s)
    rw [← hu] at hlog
    exact ⟨e, hlog, he⟩
  · simp only [List.mem_cons, List.not_mem_nil, or_false, not_or] at hk
    obtain ⟨hcnt, hdbg, hchal, hseq⟩ := hk
    rw [sleptP2_reg, if_neg hb, hu, sleepNoted_reg _ hseq hdbg hchal]
    exact State.reg_inc_kind s hcnt 0 1 i
  · rw [sleptP2_reg, if_pos hb]

/-! ### P3 -/

theorem find_heldRegs {l : List (RegKind × Nat × Word)} {k : RegKind} {i : Nat} (h : ∀ m, (k, i, m) ∉ l) (s : State) :
    Tab.get (regReset k i) (regKey k i) (heldRegs l s) = regReset k i := by
  have hfold : ∀ (l : List (RegKind × Nat × Word)) (t : Tab Word), (∀ m, (k, i, m) ∉ l) → Tab.get (regReset k i) (regKey k i) (l.foldl (fun t x =>
      Tab.set (regReset x.1 x.2.1) (regKey x.1 x.2.1) ((regReset x.1 x.2.1 &&& ~~~x.2.2) ||| (s.reg x.1 x.2.1 &&& x.2.2)) t) t) = Tab.get (regReset k i) (regKey k i) t := by
    intro l
    induction l with
    | nil => exact fun _ _ => rfl
    | cons x l ih =>
      intro t h
      have hne : regKey k i ≠ regKey x.1 x.2.1 := fun e => by
        obtain ⟨hk, hi⟩ := regKey_inj e
        exact h x.2.2 (by rw [hk, hi]; exact List.mem_cons_self)
      rw [List.foldl_cons, ih _ (fun m hm => h m (List.mem_cons_of_mem _ hm)), Tab.get_set_ne hne]
  exact hfold l [] h

theorem coldReset_reg (s : State) {k : RegKind} {i : Nat} (h : ∀ m, (k, i, m) ∉ emberHeld) : (coldReset s).reg k i = regReset k i := find_heldRegs h s

/-- The debug registers keep their failures and the tamper latch in the ember island, and no level. -/
theorem coldReset_level (s : State) : (coldReset s).get Fld.dbgStsLevel = 0 := by
  have hreg : (coldReset s).reg .dbgSts 0 = (regReset .dbgSts 0 &&& ~~~(Fld.dbgStsFails.mask ||| Fld.dbgStsTamper.mask)) |||
      (s.reg .dbgSts 0 &&& (Fld.dbgStsFails.mask ||| Fld.dbgStsTamper.mask)) := by
    unfold coldReset islandReset heldRegs emberHeld State.reg
    simp only [List.foldl_cons, List.foldl_nil]
    rw [Tab.get_set_same]
  have hmask : (regReset .dbgSts 0 &&& ~~~(Fld.dbgStsFails.mask ||| Fld.dbgStsTamper.mask)) = 0 := by decide
  rw [State.get]
  refine (congrArg Fld.dbgStsLevel.get hreg).trans ?_
  rw [hmask, Fld.get_or, Fld.get_zero, Nat.zero_or, ← Fld.get_zero Fld.dbgStsLevel]
  refine Fld.get_congr _ (fun j _ hj => ?_) (by decide)
  rw [BitVec.getLsbD_and, getLsbD_of_and_mask (m := Fld.dbgStsFails.mask ||| Fld.dbgStsTamper.mask) (x := 0) (by decide) hj, getLsbD_zeroWord, Bool.and_false]

theorem entered_p3 (s : State) : (sleptP3 s).pwr.st = .p3 ∧ (sleptP3 s).pwr.dramIdle = true ∧ (sleptP3 s).log = [] ∧ (sleptP3 s).sec.slots = [] ∧
    ∀ k i, (∀ m, (k, i, m) ∉ emberHeld) → (sleptP3 s).reg k i = regReset k i :=
  ⟨rfl, rfl, rfl, rfl, fun k i h => (State.reg_of_regs rfl k i).trans (coldReset_reg _ h)⟩

theorem coreOn_asleep {s : State} (h : s.pwr.st = .p2 ∨ s.pwr.st = .p3) : s.coreOn = false := by
  unfold State.coreOn
  rcases h with h | h
  · rw [h]
    simp
  · rw [h]
    simp

theorem entryMessage_sleeps {s : State} {p3 : Bool} (hon : s.coreOn = true) (hst : s.pwr.st = .entering p3) (h : entryRefused p3 s = 0) :
    ∃ t, exec .entryMessage s = .next t ∧ t.coreOn = false ∧ t.pwr.enCore = false ∧ t.pwr.enVccq = false ∧ t.pwr.goodCore = false ∧ t.pwr.goodVccq = 0 ∧
      t.get Fld.dbgStsLevel = 0 ∧ t.sec.chal = none ∧
      (p3 = false → t.pwr.st = .p2 ∧ t.get Fld.pwrCntP2 = min 255 (s.get Fld.pwrCntP2 + 1) ∧ Logged s t uPWR 0x1019 ∧ t.wp = s.wp ∧ t.md = s.md ∧ t.sec.slots = s.sec.slots ∧
        (∀ k i, k ∉ [RegKind.pwrCnt, .dbgSts, .dbgChal, .glbLogSeq] → k.block ≠ .drg → t.reg k i = s.reg k i) ∧ ∀ k i, k.block = .drg → t.reg k i = regReset k i) ∧
      (p3 = true → t.pwr.st = .p3 ∧ t.pwr.dramIdle = true ∧ t.log = [] ∧ t.sec.slots = [] ∧ ∀ k i, (∀ m, (k, i, m) ∉ emberHeld) → t.reg k i = regReset k i) := by
  cases p3 with
  | false =>
    have hchal : (sleepNoted (sleepCounted false s)).sec.chal = none := (congrArg (fun t : State => t.sec.chal) (sleepNoted_rest (sleepCounted false s)) :)
    have hlevel := sleepNoted_level (sleepCounted false s)
    refine ⟨_, execEntryMessage_p2 hon hst h, ?_⟩
    generalize hu : sleepNoted (sleepCounted false s) = u at hchal hlevel ⊢
    refine ⟨coreOn_asleep (Or.inl rfl), rfl, rfl, rfl, rfl, ?_, hchal, fun _ => ⟨rfl, entered_p2 hu.symm⟩, fun h => absurd h Bool.false_ne_true⟩
    rw [State.get, sleptP2_reg, if_neg (by decide)]
    exact hlevel
  | true =>
    refine ⟨_, execEntryMessage_p3 hon hst h, ?_⟩
    generalize sleepNoted (sleepCounted true s) = u
    refine ⟨coreOn_asleep (Or.inr rfl), rfl, rfl, rfl, rfl, ?_, rfl, fun h => absurd h.symm Bool.false_ne_true, fun _ => entered_p3 u⟩
    exact (State.get_of_regs rfl _ _).trans (coldReset_level _)

/-! ## Wake events (R650) -/

section
variable {s : State} (hsleep : asleep s = true) (hdown : s.pwr.emberDown = false)
include hsleep hdown

theorem wakeAlarm_wakes (hsince : s.pwr.wakeSince = none) (hlost : s.pwr.embLost = false) (hen : s.flag Fld.pwrWakeHiAlarmEn = true)
    (hat : s.pwr.ember.toNat = s.get Fld.pwrWakeHiAt * 2 ^ 32 + s.get Fld.pwrWakeLoAt) :
    ∃ t, exec .wakeAlarm s = .next t ∧ t.get Fld.pwrStsWake = 1 ∧ OtherRegs s t .pwrSts 0 ∧
      t = { s with regs := t.regs, pwr := { s.pwr with enCore := true, enVccq := true, wakeSince := some (emberNs s.pwr) } } := by
  refine ⟨wakeEvent 1 s, ?_, (State.get_of_regs rfl _ _).trans (State.get_put_same s Fld.pwrStsWake (by decide) 1 0), fun k i hk => otherRegs_put s Fld.pwrStsWake 1 0 k i hk, rfl⟩
  show execWakeAlarm s = _
  unfold execWakeAlarm
  rw [hsleep, hdown, hlost, hsince, hen, decide_eq_true hat]
  exact onlyIf_true _ _

theorem wakePlatform_wakes (hen : s.pwr.enCore = false) (hgood : s.pwr.goodCore = false) : ∃ t, exec .wakePlatform s = .next t ∧ t.get Fld.pwrStsWake = 2 ∧ OtherRegs s t .pwrSts 0 ∧
    t = { s with regs := t.regs, pwr := { s.pwr with goodCore := true, enCore := true, enVccq := true, wakeSince := some (emberNs s.pwr) } } := by
  refine ⟨wakeEvent 2 { s with pwr := { s.pwr with goodCore := true } }, ?_, (State.get_of_regs rfl _ _).trans (State.get_put_same _ Fld.pwrStsWake (by decide) 2 0),
    fun k i hk => otherRegs_put _ Fld.pwrStsWake 2 0 k i hk, rfl⟩
  show execWakePlatform s = _
  unfold execWakePlatform
  rw [hsleep, hdown, hen, hgood]
  exact onlyIf_true _ _

omit hdown in
theorem powerGoodTimeout_gives {t0 : Nat} (h : s.pwr.wakeSince = some t0) (ht : t0 + 100000000 ≤ emberNs s.pwr) : exec .powerGoodTimeout s = .next
    { s with pwr := { s.pwr with enCore := false, enVccq := false, goodCore := false, wakeSince := none } } := by
  show execPowerGoodTimeout s = _
  unfold execPowerGoodTimeout
  rw [h]
  dsimp only
  rw [hsleep, decide_eq_true ht]
  exact onlyIf_true _ _

end

end Sys2Proof.Machine
end

section
/-! PROOFS. Waking from P2 and P3, what ends P1 or aborts an entry, and DRAM_IDLE_OK (O50). -/
namespace Sys2Proof.Machine

/-! ## The clock that a wake loads (R80) -/

/-- The nanosecond counter as the ember counter gives it. -/
def emberTime (p : Pwr) : Nat := p.ember.toNat * 1000000000 / 32768

theorem emberTime_lt (p : Pwr) : emberTime p < 2 ^ 64 := by
  have := p.ember.isLt
  unfold emberTime
  omega

/-- The clock set. -/
def timeLoaded (τ : BitVec 64) (at_ : Nat) (s : State) : State :=
  { s with
    time := τ
    pwr := { s.pwr with idleFrom := at_ }
    fab := { s.fab with busyAt := at_ } }

theorem loadTime_eq (s : State) : loadTime s = timeLoaded (BitVec.ofNat 64 (emberTime s.pwr)) (emberTime s.pwr) s := rfl

theorem ofNat_emberTime (p : Pwr) : (BitVec.ofNat 64 (emberTime p)).toNat = emberTime p :=
  (BitVec.toNat_ofNat _ _).trans (Nat.mod_eq_of_lt (emberTime_lt p))

/-! ## From P2 (R651) -/

/-- The self-test timer of a wake. -/
def wokenTested (old : Nat) (s : State) : State := { s with sec := { s.sec with lastTest := s.now - (old - s.sec.lastTest) } }

/-- The power state and the credits of a wake. -/
def wokenP0 (s : State) : State :=
  { s with
    xspi := { sent := s.xspi.sent }
    pwr := { s.pwr with st := .p0, waking := true, tripTodo := BitVec.ofNat 3 ((s.reg .trpSts).toNat % 8) }
    fab := grantIn s.fab }

/-- Pairing to begin again. -/
def pairingAnew (s : State) : State := s.modTwin fun t => { t with since := s.now, nonce := 0, paired := false, single := false }

/-- TWIN of a hearth that has one. -/
def twinShown (s : State) : State := if s.img.twin.isSome then s.put Fld.glbBootStsTwin 0 else s

/-- A wake once the clock has been loaded, before it is logged. -/
def wokenBegun (old : Nat) (s : State) : State := wokenP0 (wokenTested old (resumeLeases old s))

/-- The wake logged, and pairing to begin again. -/
def wokenLogged (old : Nat) (s : State) : State := pairingAnew ((wokenBegun old s).logPacked uPWR 0x1019)

/-- The engine awake, its watchdogs running. -/
def wokenP2 (old : Nat) (s : State) : State := twinShown (startWdogs (wokenLogged old s))

theorem execWakeFromP2_eq {s : State} (hst : s.pwr.st = .p2) (hsince : s.pwr.wakeSince.isSome = true) (hreset : s.inReset = false) (pass : Bool) :
    execWakeFromP2 pass s = .next (if pass then (wokenP2 s.now (loadTime (suppliesUp s))).put Fld.glbBootStsStage 2 else (wokenP2 s.now (loadTime (suppliesUp s))).bank 0x07) := by
  unfold execWakeFromP2
  rw [hst, hsince, hreset]
  exact onlyIf_true _ _

theorem twinShown_rest (s : State) : twinShown s = { s with regs := (twinShown s).regs } := by
  unfold twinShown
  split
  · rfl
  · rfl

theorem twinShown_reg (s : State) {k : RegKind} (hb : k ≠ .glbBootSts) (i : Nat) : (twinShown s).reg k i = s.reg k i := by
  unfold twinShown
  split
  · exact State.reg_put_kind _ hb _ _ _
  · rfl

theorem wokenP2_rest (old : Nat) (s : State) : wokenP2 old s = { startWdogs (wokenLogged old s) with regs := (wokenP2 old s).regs } := twinShown_rest _

theorem wokenLogged_reg (old : Nat) (s : State) {k : RegKind} (hl : k ≠ .glbLogSeq) (i : Nat) : (wokenLogged old s).reg k i = s.reg k i :=
  State.reg_logPacked (wokenBegun old s) hl uPWR 0x1019 [] [] i

theorem wokenP2_reg (old : Nat) (s : State) {k : RegKind} (hl : k ≠ .glbLogSeq) (hb : k ≠ .glbBootSts) (i : Nat) : (wokenP2 old s).reg k i = s.reg k i :=
  (twinShown_reg _ hb i).trans (wokenLogged_reg old s hl i)

theorem wokenP2_banked (old : Nat) (s : State) : (wokenP2 old s).banked = s.banked :=
  congrArg (fun w => Fld.glbBankStsBanked.get w != 0) (wokenP2_reg old s (by decide) (by decide) 0)

theorem startWdogs_find (s : State) {n : Nat} (hn : n < 5) :
    Tab.find n (startWdogs s).pwr.wdog = some (s.now + 1000000 * max 1 (s.get (if n = 0 then Fld.pwrWdogCfgFbMs else Fld.pwrWdogCfgPolMs))) := by
  refine (find_map_pairs _ n (List.mem_range.mpr hn)).trans ?_
  split
  · rw [Nat.mul_comm]
  · rw [Nat.mul_comm]

theorem resumeLeases_mem {s : State} {old k e : Nat} (h : (k, e) ∈ s.leases) : (k, s.now + (e - old)) ∈ (resumeLeases old s).leases := List.mem_map.mpr ⟨(k, e), h, rfl⟩

theorem coreOn_p0 {s : State} (hreset : s.inReset = false) (hst : s.pwr.st = .p0) : s.coreOn = true := by
  unfold State.coreOn
  rw [hreset, hst]
  rfl

/-- What a wake makes of the state whose clock has been loaded. -/
theorem wokenP2_spec (old : Nat) (s : State) : (wokenP2 old s).now = s.now ∧ (wokenP2 old s).fab = grantIn s.fab ∧ (wokenP2 old s).wp = { s.wp with twin := (wokenP2 old s).wp.twin } ∧
    (wokenP2 old s).md = s.md ∧ Logged s (wokenP2 old s) uPWR 0x1019 ∧
    (wokenP2 old s).pwr = { s.pwr with st := .p0, waking := true, tripTodo := (wokenP2 old s).pwr.tripTodo, wdog := (wokenP2 old s).pwr.wdog } ∧
    (∀ n, n < 5 → Tab.find n (wokenP2 old s).pwr.wdog = some (s.now + 1000000 * max 1 (s.get (if n = 0 then Fld.pwrWdogCfgFbMs else Fld.pwrWdogCfgPolMs)))) ∧
    (∀ k e, (k, e) ∈ s.leases → (k, s.now + (e - old)) ∈ (wokenP2 old s).leases) := by
  obtain ⟨e, hlog, he⟩ := logged_logPacked (wokenBegun old s) uPWR 0x1019 [] []
  have hget (f : Fld) (hl : f.kind ≠ .glbLogSeq) : (wokenLogged old s).get f = s.get f := congrArg f.get (wokenLogged_reg old s hl 0)
  rw [wokenP2_rest]
  refine ⟨rfl, rfl, rfl, rfl, ⟨e, hlog, he⟩, rfl, fun n hn => ?_, fun k e he => resumeLeases_mem he⟩
  rw [← hget _ (by split <;> decide)]
  exact startWdogs_find (wokenLogged old s) hn

theorem timeLoaded_banked {s : State} (τ : BitVec 64) (at_ : Nat) (hb : s.banked = false) : (timeLoaded τ at_ (suppliesUp s)).banked = false := hb

theorem loadTime_suppliesUp (s : State) : loadTime (suppliesUp s) = timeLoaded (BitVec.ofNat 64 (emberTime s.pwr)) (emberTime s.pwr) (suppliesUp s) := loadTime_eq _

theorem wokenP2_failed (old : Nat) {s : State} (hb : s.banked = false) : BankedBy ((wokenP2 old s).bank 0x07) 0x07 ((wokenP2 old s).bank 0x07).now := by
  have hnow (u : State) : (u.bank 0x07).now = u.now := congrArg BitVec.toNat (congrArg State.time (Banking.bankNamed u 0x07 []) :)
  rw [hnow]
  exact bankedBy_bank ((wokenP2_banked old s).trans hb) (by decide)

/-- A wake from P2 whose tests pass, at the time that the ember counter gives. -/
theorem wokenP2_passed {s t : State} (hreset : s.inReset = false) {τ : BitVec 64} {at_ : Nat} (htime : τ.toNat = at_)
    (ht : t = (wokenP2 s.now (timeLoaded τ at_ (suppliesUp s))).put Fld.glbBootStsStage 2) :
    t.coreOn = true ∧ t.pwr.waking = true ∧ t.stage = 2 ∧ t.fab = grantIn { s.fab with busyAt := t.now } ∧ t.now = at_ ∧ t.pwr.goodVccq = 0xFFFF ∧
    t.wp = { s.wp with twin := t.wp.twin } ∧ t.md = s.md ∧ Logged s t uPWR 0x1019 ∧
    (∀ n, n < 5 → Tab.find n t.pwr.wdog = some (t.now + 1000000 * max 1 (s.get (if n = 0 then Fld.pwrWdogCfgFbMs else Fld.pwrWdogCfgPolMs)))) ∧
    (∀ k e, (k, e) ∈ s.leases → (k, t.now + (e - s.now)) ∈ t.leases) := by
  obtain ⟨hnow, hfab, hwp, hmd, hlog, hpwr, hwdog, hleases⟩ := wokenP2_spec s.now (timeLoaded τ at_ (suppliesUp s))
  have hstage (u : State) : (u.put Fld.glbBootStsStage 2).stage = 2 := State.get_put_same u Fld.glbBootStsStage (by decide) 2 0
  have hget (f : Fld) : (timeLoaded τ at_ (suppliesUp s)).get f = s.get f := State.get_of_regs rfl f 0
  generalize wokenP2 s.now (timeLoaded τ at_ (suppliesUp s)) = u at ht hnow hfab hwp hmd hlog hpwr hwdog hleases
  have htnow : t.now = at_ := by
    rw [ht]
    exact (congrArg BitVec.toNat (State.put_time u Fld.glbBootStsStage 2 0)).trans (hnow.trans htime)
  have htpwr : t.pwr = u.pwr := by rw [ht, State.put_pwr]
  rw [htnow, htpwr]
  refine ⟨coreOn_p0 ?_ ?_, congrArg Pwr.waking hpwr, ?_, ?_, rfl, congrArg Pwr.goodVccq hpwr, ?_, ?_, ?_, fun n hn => ?_, fun k e he => ?_⟩
  · unfold State.inReset State.lowReset
    rw [htpwr, hpwr]
    exact hreset
  · rw [htpwr, hpwr]
  · rw [ht]
    exact hstage u
  · rw [ht]
    exact hfab
  · rw [ht]
    exact hwp
  · rw [ht]
    exact hmd
  · rw [ht]
    exact hlog
  · rw [hwdog n hn, hget, ← htime]
    rfl
  · rw [ht, ← htime]
    exact hleases k e he

section
variable {s : State} (hst : s.pwr.st = .p2) (hsince : s.pwr.wakeSince.isSome = true) (hreset : s.inReset = false)
include hst hsince hreset

theorem wakeFromP2_passes : ∃ t, exec (.wakeFromP2 true) s = .next t ∧ t.coreOn = true ∧ t.pwr.waking = true ∧ t.stage = 2 ∧ t.fab = grantIn { s.fab with busyAt := t.now } ∧
    t.now = s.pwr.ember.toNat * 1000000000 / 32768 % 2 ^ 64 ∧ t.pwr.goodVccq = 0xFFFF ∧ t.wp = { s.wp with twin := t.wp.twin } ∧ t.md = s.md ∧ Logged s t uPWR 0x1019 ∧
    (∀ n, n < 5 → Tab.find n t.pwr.wdog = some (t.now + 1000000 * max 1 (s.get (if n = 0 then Fld.pwrWdogCfgFbMs else Fld.pwrWdogCfgPolMs)))) ∧
    (∀ k e, (k, e) ∈ s.leases → (k, t.now + (e - s.now)) ∈ t.leases) := by
  have hmod : s.pwr.ember.toNat * 1000000000 / 32768 % 2 ^ 64 = emberTime s.pwr := Nat.mod_eq_of_lt (emberTime_lt s.pwr)
  refine ⟨_, execWakeFromP2_eq hst hsince hreset true, ?_⟩
  rw [if_pos rfl, hmod]
  exact wokenP2_passed hreset (ofNat_emberTime s.pwr) (by rw [loadTime_suppliesUp])

theorem wakeFromP2_fails (hb : s.banked = false) : ∃ t, exec (.wakeFromP2 false) s = .next t ∧ BankedBy t 0x07 t.now := by
  refine ⟨_, execWakeFromP2_eq hst hsince hreset false, ?_⟩
  rw [if_neg Bool.false_ne_true, loadTime_eq]
  exact wokenP2_failed s.now (timeLoaded_banked _ _ hb)

end

/-! ## From P3 (R653) -/

/-- The wake logged, the supplies up. -/
def wokenFromP3 (s : State) : State := (suppliesUp { s with pwr := { s.pwr with st := .p0, dramIdle := false, wokeP3 := true } }).logPacked uPWR 0x1019

/-- The power state and the credits as the ROM stage begins. -/
def romBegun (s : State) : State :=
  { s with
    pwr := { s.pwr with st := .p0, tripTodo := BitVec.ofNat 3 ((s.reg .trpSts).toNat % 8) }
    fab := grantIn s.fab }

/-- The self-test timer at the ROM stage. -/
def romTested (s : State) : State := { s with sec := { s.sec with lastTest := s.now } }

/-- The ROM stage, once the clock has been loaded, before the row is shown. -/
def romEntered (s : State) : State := enterStage 0 ((romTested s).modTwin fun t => { t with since := (romTested s).now })

theorem romStage_eq (rowOk : Bool) (s : State) : romStage rowOk s =
    if rowOk then showRow (romEntered (loadTime (romBegun s))) else bootFail 0x20 (romEntered (loadTime (romBegun s))) := rfl

theorem romEntered_rest (s : State) : romEntered s = { s with
    regs := (romEntered s).regs
    log := (romEntered s).log
    sec := { s.sec with lastTest := s.now }
    wp := (romEntered s).wp } := rfl

theorem romEntered_reg (s : State) {k : RegKind} (hl : k ≠ .glbLogSeq) (hb : k ≠ .glbBootSts) (i : Nat) : (romEntered s).reg k i = s.reg k i := by
  unfold romEntered enterStage
  exact (State.reg_logPacked _ hl _ _ _ _ _).trans (State.reg_put_kind _ hb _ _ _)

theorem romEntered_stage (s : State) : (romEntered s).stage = 0 := State.stage_enterStage _ (by decide)

theorem romEntered_banked (s : State) : (romEntered s).banked = s.banked := congrArg (fun w => Fld.glbBankStsBanked.get w != 0) (romEntered_reg s (by decide) (by decide) 0)

/-- The lifecycle and the counters as the row gives them. -/
def rowCounted (s : State) : State :=
  (((((s.put Fld.secStsLc (lifecycleOf s.sec.row)).put Fld.secStsLcNext (lifecycleOf s.sec.row)).putFlag Fld.secStsLcPend false).put Fld.secCtrKrb (countOnes s.sec.row.krb)).put
    Fld.secCtrFrb (countOnes s.sec.row.frb)).put Fld.secCtrEpoch (countOnes s.sec.row.epoch)

theorem showRow_eq (s : State) : showRow s = (List.range 4).foldl (fun t i => t.setReg .secId i ((s.sec.row.deviceId >>> (32 * i)).setWidth 32)) (rowCounted s) := rfl

theorem showRow_rest (s : State) : showRow s = { s with regs := (showRow s).regs } := by
  have h : showRow s = { rowCounted s with regs := (showRow s).regs } := by
    rw [showRow_eq, foldl_setReg_regs]
  exact h.trans rfl

theorem showRow_reg (s : State) {k : RegKind} (hs : k ≠ .secSts) (hc : k ≠ .secCtr) (hi : k ≠ .secId) (i : Nat) : (showRow s).reg k i = s.reg k i := by
  rw [showRow_eq, State.reg_foldl_setReg, if_neg (fun h => hi h.1), rowCounted, State.reg_put_kind _ hc, State.reg_put_kind _ hc, State.reg_put_kind _ hc,
    State.reg_putFlag_kind _ hs, State.reg_put_kind _ hs, State.reg_put_kind _ hs]

theorem Banking.bootFail (code : Nat) (s : State) : Banking s (bootFail code s) := (Banking.of_regs rfl).trans (Banking.bankNamed (failNoted code s) 0x01 [])

/-- The row shown, or the failure to read it. -/
def rowRead (rowOk : Bool) (s : State) : State := if rowOk then showRow s else bootFail 0x20 s

theorem Banking.rowRead (rowOk : Bool) (s : State) : Banking s (rowRead rowOk s) := by
  cases rowOk with
  | true =>
    refine Banking.of_regs ((showRow_rest s).trans ?_)
    rfl
  | false => exact Banking.bootFail 0x20 s

theorem rowRead_bank {rowOk : Bool} {s : State} (hr : rowOk = false) (hb : s.banked = false) : BankedBy (rowRead rowOk s) 0x01 s.now := by
  rw [hr]
  exact (bootFail_spec hb (by decide)).1

theorem rowRead_stage {rowOk : Bool} {s : State} (hr : rowOk = true) : (rowRead rowOk s).stage = s.stage := by
  rw [hr]
  exact congrArg Fld.glbBootStsStage.get (showRow_reg s (by decide) (by decide) (by decide) 0)

/-- What the ROM stage makes of the state whose clock has been loaded. -/
theorem romEntered_spec (rowOk : Bool) (s : State) : (rowRead rowOk (romEntered s)).now = s.now ∧ (rowRead rowOk (romEntered s)).fab = s.fab ∧
    (rowRead rowOk (romEntered s)).pwr = { s.pwr with bankTodo := (rowRead rowOk (romEntered s)).pwr.bankTodo } ∧
    (rowOk = true → (rowRead rowOk (romEntered s)).stage = 0) ∧ (rowOk = false → s.banked = false → BankedBy (rowRead rowOk (romEntered s)) 0x01 s.now) := by
  have hrest := Banking.rowRead rowOk (romEntered s)
  have hnow : (romEntered s).now = s.now := congrArg BitVec.toNat (congrArg State.time (romEntered_rest s) :)
  have hfab : (romEntered s).fab = s.fab := (congrArg State.fab (romEntered_rest s) :)
  have hpwr : (romEntered s).pwr = s.pwr := (congrArg State.pwr (romEntered_rest s) :)
  refine ⟨(congrArg BitVec.toNat (congrArg State.time hrest :)).trans hnow, (congrArg State.fab hrest :).trans hfab, ?_, fun hr => (rowRead_stage hr).trans (romEntered_stage s), fun hr hb => ?_⟩
  · rw [← hpwr]
    exact (congrArg State.pwr hrest :)
  · rw [← hnow]
    exact rowRead_bank hr ((romEntered_banked s).trans hb)

theorem loadTime_romBegun (s : State) : loadTime (romBegun (wokenFromP3 s)) = timeLoaded (BitVec.ofNat 64 (emberTime s.pwr)) (emberTime s.pwr) (romBegun (wokenFromP3 s)) :=
  loadTime_eq _

/-- A wake from P3, at the time that the ember counter gives. -/
theorem wokenP3_started {s t : State} {rowOk : Bool} (hreset : s.inReset = false) {τ : BitVec 64} {at_ : Nat} (htime : τ.toNat = at_)
    (ht : t = rowRead rowOk (romEntered (timeLoaded τ at_ (romBegun (wokenFromP3 s))))) :
    t.coreOn = true ∧ t.pwr.wokeP3 = true ∧ t.pwr.dramIdle = false ∧ t.fab = grantIn { s.fab with busyAt := t.now } ∧
      t.now = at_ ∧ (rowOk = true → t.stage = 0) ∧ (rowOk = false → s.banked = false → BankedBy t 0x01 t.now) := by
  have hbanked : (timeLoaded τ at_ (romBegun (wokenFromP3 s))).banked = s.banked :=
    congrArg (fun w => Fld.glbBankStsBanked.get w != 0) (State.reg_logPacked (suppliesUp { s with pwr := { s.pwr with st := .p0, dramIdle := false, wokeP3 := true } }) (by decide) uPWR 0x1019 [] [] 0)
  obtain ⟨hnow, hfab, hpwr, hstage, hbank⟩ := romEntered_spec rowOk (timeLoaded τ at_ (romBegun (wokenFromP3 s)))
  rw [← ht] at hnow hfab hpwr hstage hbank
  refine ⟨coreOn_p0 ?_ (congrArg Pwr.st hpwr), congrArg Pwr.wokeP3 hpwr, congrArg Pwr.dramIdle hpwr, ?_, hnow.trans htime, hstage, fun hr hb => ?_⟩
  · unfold State.inReset State.lowReset
    rw [hpwr]
    exact hreset
  · rw [hnow.trans htime]
    exact hfab
  · rw [hnow]
    exact hbank hr (hbanked.trans hb)

theorem wakeFromP3_starts {s : State} (hst : s.pwr.st = .p3) (hsince : s.pwr.wakeSince.isSome = true) (hreset : s.inReset = false) (rowOk : Bool) :
    ∃ t, exec (.wakeFromP3 rowOk) s = .next t ∧ t.coreOn = true ∧ t.pwr.wokeP3 = true ∧ t.pwr.dramIdle = false ∧ t.fab = grantIn { s.fab with busyAt := t.now } ∧
      t.now = s.pwr.ember.toNat * 1000000000 / 32768 % 2 ^ 64 ∧ (rowOk = true → t.stage = 0) ∧ (rowOk = false → s.banked = false → BankedBy t 0x01 t.now) := by
  have hmod : s.pwr.ember.toNat * 1000000000 / 32768 % 2 ^ 64 = emberTime s.pwr := Nat.mod_eq_of_lt (emberTime_lt s.pwr)
  have hexec : exec (.wakeFromP3 rowOk) s = .next (rowRead rowOk (romEntered (loadTime (romBegun (wokenFromP3 s))))) := by
    show execWakeFromP3 rowOk s = _
    unfold execWakeFromP3
    rw [hst, hsince, hreset]
    exact onlyIf_true _ _
  refine ⟨_, hexec, ?_⟩
  rw [hmod]
  exact wokenP3_started hreset (ofNat_emberTime s.pwr) (by rw [loadTime_romBegun])

/-! ## What ends P1 or aborts an entry (R645, R647) -/

section
variable {s : State} {r : Req} {k : RegKind} {i : Nat} {w : Word} (hw : Written s r k i w)
include hw

theorem regWrite_aborting (hb : k.block ≠ .pwr) (eff : State → State) : regWrite s r k i w eff = (eff s.abortEntry).respondWrite r .ok := by
  have e : gate s r k i true w = .pass := hw
  unfold regWrite
  rw [e]
  dsimp only
  rw [if_neg hb]

theorem registerWrite_aborts (hat : regAt (k.offset i) = some (k, i)) (hs : ¬ Steady s) (hk : k ∈ [RegKind.cryCtl, .drgLoopSp, .hrvMod]) (ev : Word) :
    ∃ t, exec (.registerWrite r (k.offset i) w ev) s = .next t ∧ Aborted s t ∧
      t.get Fld.pwrStsRefuse = 9 ∧ t.get Fld.pwrCntAbort = min 255 (s.get Fld.pwrCntAbort + 1) ∧ Logged s t uPWR 0x1019 ∧ t.resps = okSent s r := by
  have hkind : k.block ≠ .pwr ∧ ownRow k w = false ∧ (∀ u, writeEffect r k i w u = u.plainWrite k i w) ∧ Fld.pwrStsRefuse.kind ≠ k ∧ Fld.pwrCntAbort.kind ≠ k := by
    simp only [List.mem_cons, List.not_mem_nil, or_false] at hk
    rcases hk with rfl | rfl | rfl
    · exact ⟨by decide, rfl, fun _ => rfl, by decide, by decide⟩
    · exact ⟨by decide, rfl, fun _ => rfl, by decide, by decide⟩
    · exact ⟨by decide, rfl, fun _ => rfl, by decide, by decide⟩
  obtain ⟨hblock, hrow, heff, hrefuseKind, habortKind⟩ := hkind
  obtain ⟨p3, hst⟩ := not_steady hs
  obtain ⟨hrefuse, habort, e, hlog, he⟩ := abortNoted_spec s
  have hother := otherRegs_plainWithEvents k i w ev (backInP0 (abortNoted s))
  refine ⟨(plainWithEvents k i w ev (backInP0 (abortNoted s))).respondWrite r .ok, ?_, ?_, ?_, ?_, ?_, ?_⟩
  · show execRegisterWrite r (k.offset i) w ev s = _
    simp only [execRegisterWrite, hat, hrow, Bool.not_false, Bool.true_or, onlyIf_true, regWrite_aborting hw hblock, heff, abortEntry_entering hst]
    rfl
  · rw [State.respondWrite_eq]
    rfl
  · rw [State.get_respondWrite, State.get, hother _ _ (fun h => hrefuseKind (Prod.mk.inj h).1)]
    exact hrefuse
  · rw [State.get_respondWrite, State.get, hother _ _ (fun h => habortKind (Prod.mk.inj h).1)]
    exact habort
  · rw [State.respondWrite_eq]
    exact ⟨e, hlog, he⟩
  · rw [respondWrite_resps]
    rfl

theorem registerWrite_pwrCfg (hat : regAt (k.offset i) = some (k, i)) (hk : k ∈ [RegKind.pwrCfg, .pwrWdogCfg]) (ev : Word) :
    ∃ t, exec (.registerWrite r (k.offset i) w ev) s = .next t ∧ t.pwr = s.pwr ∧ OtherRegs s t k i ∧ t.resps = okSent s r := by
  have hkind : k.block = .pwr ∧ ownRow k w = false ∧ OtherRegs s (writeEffect r k i w s) k i ∧ writeEffect r k i w s = { s with regs := (writeEffect r k i w s).regs } := by
    simp only [List.mem_cons, List.not_mem_nil, or_false] at hk
    rcases hk with rfl | rfl
    · exact ⟨rfl, rfl, otherRegs_plainWrite s .pwrCfg i w, rfl⟩
    · refine ⟨rfl, rfl, ?_⟩
      show OtherRegs s (if r.src = 0x10 then s.plainWrite .pwrWdogCfg i w else s) .pwrWdogCfg i ∧
        (if r.src = 0x10 then s.plainWrite .pwrWdogCfg i w else s) = { s with regs := (if r.src = 0x10 then s.plainWrite .pwrWdogCfg i w else s).regs }
      split
      · exact ⟨otherRegs_plainWrite s .pwrWdogCfg i w, rfl⟩
      · exact ⟨fun _ _ _ => rfl, rfl⟩
  obtain ⟨hblock, hrow, hother, hrest⟩ := hkind
  refine ⟨(sameCycle .w1s k i ev (sameCycle .w1c k i ev (writeEffect r k i w s))).respondWrite r .ok, ?_, ?_, ?_, ?_⟩
  · show execRegisterWrite r (k.offset i) w ev s = _
    simp only [execRegisterWrite, hat, hrow, Bool.not_false, Bool.true_or, onlyIf_true, regWrite_pwr hw hblock]
  · rw [State.respondWrite_eq]
    exact (congrArg State.pwr hrest :)
  · exact OtherRegs.respondWrite ((hother.trans (otherRegs_sameCycle .w1c k i ev _)).trans (otherRegs_sameCycle .w1s k i ev _)) r .ok
  · refine respondWrite_resps_of_eq (s := s) ?_ r
    exact (congrArg State.resps hrest :)

end

theorem restart_p1 {s : State} (h : s.pwr.st = .p1) : s.restart = { s with pwr := { s.pwr with st := .p0, restartAt := s.now + 1500 } } := by
  unfold State.restart
  rw [h]

theorem slqDbWrite_pwr {s : State} (h : s.pwr.st = .p1) (n : Nat) (w : Word) :
    (slqDbWrite n w s).pwr = { s.pwr with st := .p0, restartAt := s.now + 1500, dramIdle := (slqDbWrite n w s).pwr.dramIdle } ∧ (slqDbWrite n w s).resps = s.resps := by
  rw [slqDbWrite_eq]
  split
  · rw [restart_p1 h]
    exact ⟨rfl, rfl⟩
  · rw [scanAsked_rest, idleLowered_rest, limitTaken_rest, restart_p1 h]
    exact ⟨rfl, rfl⟩

theorem sluiceDoorbell_restarts {s : State} {r : Req} {n : Nat} {w : Word} (hn : n < 4096) (hw : Written s r .slqDb n w) (hst : s.pwr.st = .p1) :
    ∃ t, exec (.sluiceDoorbell r n w) s = .next t ∧
      t.pwr = { s.pwr with st := .p0, restartAt := s.now + 1500, dramIdle := t.pwr.dramIdle } ∧ t.resps = okSent s r := by
  have hs : Steady s := by
    rw [Steady, hst]
    exact ⟨PwrState.noConfusion, PwrState.noConfusion⟩
  obtain ⟨hpwr, hresps⟩ := slqDbWrite_pwr hst n w
  refine ⟨_, exec_sluiceDoorbell hn hw hs, ?_, respondWrite_resps_of_eq hresps r⟩
  rw [State.respondWrite_eq]
  exact hpwr

/-! ## DRAM_IDLE_OK (R72, R655) -/

theorem dramIdleOkRise_rises {s : State} (hon : s.coreOn = true) (ht : s.fab.busyAt + 1000 * s.get Fld.pwrCfgSrHold ≤ s.now) (ho : s.fab.outst = []) (hw : s.fab.waiting = [])
    (hh : s.fab.held = []) (hr : panAtRisk s = false) (hc : classZeroOwned s = false) : exec .dramIdleOkRise s = .next { s with pwr := { s.pwr with dramIdle := true } } := by
  show execDramIdleOkRise s = _
  unfold execDramIdleOkRise
  rw [hon, decide_eq_true ht, ho, hw, hh, hr, hc]
  exact onlyIf_true _ _

/-- Settles O50, state by state. -/
theorem sleepAndWake : Obligations.SleepAndWake := by
  unfold Obligations.SleepAndWake
  intro s
  refine ⟨p1Entry_spec, fun r w mirs p3 => entryRequest_spec, fun p3 hon hst => ⟨entryMessage_aborts hon hst, entryMessage_sleeps hon hst⟩, fun hsleep hdown => ⟨?_, ?_, ?_⟩,
    fun hreset hsince => ⟨fun hst => ⟨wakeFromP2_passes hst hsince hreset, wakeFromP2_fails hst hsince hreset⟩, fun hst => wakeFromP3_starts hst hsince hreset⟩,
    fun r k i w ev hat hw hs => ⟨fun hk => registerWrite_aborts hw hat hs hk ev, fun hk => registerWrite_pwrCfg hw hat hk ev⟩,
    fun r n w hn hw hst => sluiceDoorbell_restarts hn hw hst, dramIdleOkRise_rises⟩
  · exact wakeAlarm_wakes hsleep hdown
  · exact wakePlatform_wakes hsleep hdown
  · exact fun t0 => powerGoodTimeout_gives hsleep

end Sys2Proof.Machine
end

section
/-! PROOFS. BANK_REQUEST, BANKED_ENTRY and BANKED_PINS (O51). -/
namespace Sys2Proof.Machine

/-! ## A request to bank (R661, R677) -/

section
variable {s : State} {r : Req} {w : Word}

theorem bankRequest_exec (hw : Written s r .glbBankReq 0 w) (hs : Steady s) : exec (.bankRequest r w) s = .next ((bankReqWrite w s).respondWrite r .ok) := by
  show execBankRequest r w s = _
  unfold execBankRequest
  rw [regWrite_pass hw hs]

theorem bankReqWrite_not (h : Fld.glbBankReqGo.get w = 0 ∨ Fld.glbBankReqConfirm.get w ≠ 0x424B) : bankReqWrite w s = s := by
  refine if_neg fun hc => ?_
  obtain ⟨hgo, hconfirm⟩ := hc
  rcases h with h | h
  · rw [hgo] at h
    exact absurd h (by decide)
  · exact h hconfirm

theorem BankedBy.respondWrite {t : State} {cause now : Nat} (h : BankedBy t cause now) (r : Req) : BankedBy (t.respondWrite r .ok) cause now := by
  rw [State.respondWrite_eq]
  exact h

theorem bankRequest_spec (hw : Written s r .glbBankReq 0 w) (hs : Steady s) (hb : s.banked = false) : ∃ t, exec (.bankRequest r w) s = .next t ∧ t.resps = okSent s r ∧
    (Fld.glbBankReqGo.get w = 1 → Fld.glbBankReqConfirm.get w = 0x424B → BankedBy t 0x0D s.now) ∧
    (Fld.glbBankReqGo.get w = 0 ∨ Fld.glbBankReqConfirm.get w ≠ 0x424B → t.regs = s.regs ∧ t.pwr = s.pwr) := by
  refine ⟨_, bankRequest_exec hw hs, ?_, fun hgo hc => ?_, fun h => ?_⟩
  · refine respondWrite_resps_of_eq ?_ r
    unfold bankReqWrite
    split
    · exact bankNamed_resps s _ _
    · rfl
  · unfold bankReqWrite
    rw [if_pos ⟨hgo, hc⟩]
    exact (bankedBy_bank hb (by decide)).respondWrite r
  · rw [bankReqWrite_not h, State.respondWrite_eq]
    exact ⟨rfl, rfl⟩

end

/-! ## Movers disabled (R489, R662) -/

/-- A mover without jobs in its contexts has none to drop. -/
theorem dropJobs_idle {m : Nat} {s : State} (h : ∀ e ∈ s.mov.ctxs, e.1 / 32 ≠ m) : dropJobs m s = (blurMover m s).put Fld.belStsState 0 m := by
  have hgone : moverCtxs s m = [] := by
    unfold moverCtxs
    rw [List.filter_eq_nil_iff]
    exact fun e he hm => h e he (beq_iff_eq.mp hm)
  have hctxs : (blurMover m s).mov.ctxs = s.mov.ctxs := (congrArg (fun t : State => t.mov.ctxs) (blurMover_rest m s) :)
  have hkeep : (blurMover m s).mov.ctxs.filter (fun e => e.1 / 32 != m) = (blurMover m s).mov.ctxs := by
    rw [hctxs, List.filter_eq_self]
    exact fun e he => bne_iff_ne.mpr (h e he)
  unfold dropJobs
  dsimp only
  rw [hgone, hkeep]
  rfl

/-- What disabling idle movers leaves: their enables fall and none rises. -/
structure MoversOff (s t : State) : Prop where
  rest : t = { s with regs := t.regs, freeCtr := t.freeCtr, mov := t.mov }
  ctxs : t.mov.ctxs = s.mov.ctxs
  off : ∀ m, s.flag Fld.belCtlEn m = false → t.flag Fld.belCtlEn m = false

theorem MoversOff.trans {s t u : State} (h : MoversOff s t) (g : MoversOff t u) : MoversOff s u where
  rest := by rw [g.rest, h.rest]
  ctxs := g.ctxs.trans h.ctxs
  off m hm := g.off m (h.off m hm)

theorem MoversOff.refl (s : State) : MoversOff s s := ⟨rfl, rfl, fun _ h => h⟩

/-- A mover's enable withdrawn. -/
def moverEnOff (m : Nat) (s : State) : State := ({ s with mov := { s.mov with enPend := s.mov.enPend.erase m } } : State).putFlag Fld.belCtlEn false m

theorem bankMover_off {m : Nat} {s : State} (h : s.flag Fld.belCtlEn m = false) : bankMover m s = { s with mov := { s.mov with enPend := s.mov.enPend.erase m } } :=
  if_neg fun hf => Bool.false_ne_true (h.symm.trans hf)

theorem bankMover_on {m : Nat} {s : State} (h : s.flag Fld.belCtlEn m = true) : bankMover m s = dropJobs m (moverEnOff m s) := if_pos h

theorem moverEnOff_flag (m n : Nat) (s : State) : (moverEnOff m s).flag Fld.belCtlEn n = if n = m then false else s.flag Fld.belCtlEn n := by
  unfold moverEnOff
  by_cases h : n = m
  · rw [h, State.flag_putFlag _ _ rfl (by decide), if_pos rfl]
  · rw [if_neg h, State.flag, State.get, otherRegs_putFlag _ Fld.belCtlEn false m _ _ (fun e => h (Prod.mk.inj e).2)]
    rfl

theorem bankMover_idle {m : Nat} {s : State} (h : ∀ e ∈ s.mov.ctxs, e.1 / 32 ≠ m) : MoversOff s (bankMover m s) ∧ (bankMover m s).flag Fld.belCtlEn m = false := by
  cases hf : s.flag Fld.belCtlEn m with
  | false =>
    rw [bankMover_off hf]
    exact ⟨⟨rfl, rfl, fun n hn => (State.flag_of_regs rfl _ _).trans hn⟩, (State.flag_of_regs rfl _ _).trans hf⟩
  | true =>
    have hflag (n : Nat) : ((blurMover m (moverEnOff m s)).put Fld.belStsState 0 m).flag Fld.belCtlEn n = if n = m then false else s.flag Fld.belCtlEn n := by
      rw [State.flag_put_kind _ (by decide), State.flag, State.get, blurMover_reg (by decide) (by decide), ← moverEnOff_flag]
      rfl
    rw [bankMover_on hf, dropJobs_idle (s := moverEnOff m s) h]
    refine ⟨⟨?_, ?_, fun n hn => ?_⟩, ?_⟩
    · rw [blurMover_rest]
      rfl
    · rw [blurMover_rest]
      rfl
    · rw [hflag, hn, ite_self]
    · rw [hflag, if_pos rfl]

/-- Movers disabled one after the other. -/
def moversBanked (l : List Nat) (s : State) : State := l.foldl (fun s m => bankMover m s) s

theorem moversBanked_cons (n : Nat) (l : List Nat) (s : State) : moversBanked (n :: l) s = moversBanked l (bankMover n s) := rfl

theorem moversBanked_idle (l : List Nat) {s : State} (h : ∀ e ∈ s.mov.ctxs, ∀ m ∈ l, e.1 / 32 ≠ m) :
    MoversOff s (moversBanked l s) ∧ ∀ m ∈ l, (moversBanked l s).flag Fld.belCtlEn m = false := by
  induction l generalizing s with
  | nil => exact ⟨MoversOff.refl s, fun m hm => absurd hm List.not_mem_nil⟩
  | cons n l ih =>
    obtain ⟨hfirst, hoff⟩ := bankMover_idle (m := n) (s := s) fun e he => h e he n List.mem_cons_self
    have hctxs : ∀ e ∈ (bankMover n s).mov.ctxs, ∀ m ∈ l, e.1 / 32 ≠ m := by
      rw [hfirst.ctxs]
      exact fun e he m hm => h e he m (List.mem_cons_of_mem _ hm)
    obtain ⟨hrest, hall⟩ := ih hctxs
    rw [moversBanked_cons]
    refine ⟨hfirst.trans hrest, fun m hm => ?_⟩
    rcases List.mem_cons.mp hm with rfl | hm
    · exact hrest.off _ hoff
    · exact hall m hm

/-! ## Flue commands and slots ended (R662) -/

/-- What one step of a fold settles of a key, and every later step keeps. -/
theorem foldl_settles {f : State → Nat → State} {P : Nat → State → Prop} (hset : ∀ s k, P k (f s k)) (hkeep : ∀ s j k, P k s → P k (f s j)) :
    ∀ (l : List Nat) (s : State) (k : Nat), k ∈ l → P k (l.foldl f s) := by
  have hstays (k : Nat) : ∀ (l : List Nat) (s : State), P k s → P k (l.foldl f s) := by
    intro l
    induction l with
    | nil => exact fun s h => h
    | cons a l ih => exact fun s h => ih (f s a) (hkeep s a k h)
  intro l
  induction l with
  | nil => exact fun s k hk => absurd hk List.not_mem_nil
  | cons j l ih =>
    intro s k hk
    rcases List.mem_cons.mp hk with rfl | hk
    · exact hstays k l (f s k) (hset s k)
    · exact ih (f s j) k hk

/-- A flue channel without a command. -/
def FlueDropped (f : Nat) (s : State) : Prop := (s.flueOf f).cmd = none ∧ s.flag Fld.slqFstsBusy f = false

theorem bankFlue_rest (f : Nat) (s : State) : bankFlue f s = { s with regs := (bankFlue f s).regs, flue := (bankFlue f s).flue } := rfl

theorem bankFlue_reg (f : Nat) (s : State) {k : RegKind} (h : k ≠ .slqFsts) (i : Nat) : (bankFlue f s).reg k i = s.reg k i :=
  (State.reg_putFlag_kind _ h false f i).trans (State.reg_of_regs rfl k i)

theorem bankFlue_drops (f : Nat) (s : State) : FlueDropped f (bankFlue f s) := by
  refine ⟨?_, State.flag_putFlag _ _ rfl (by decide) _ _⟩
  unfold bankFlue
  rw [State.flueOf_of_flue (State.putFlag_flue _ _ _ _), State.flueOf_modFlue_same]

theorem bankFlue_keeps (s : State) (g f : Nat) (h : FlueDropped f s) : FlueDropped f (bankFlue g s) := by
  by_cases hfg : f = g
  · rw [hfg]
    exact bankFlue_drops g s
  · refine ⟨(congrArg Flue.cmd (Tab.get_put_ne hfg _ _ _)).trans h.1, ?_⟩
    refine Eq.trans ?_ h.2
    unfold State.flag State.get
    refine congrArg (fun w => Fld.slqFstsBusy.get w != 0) ?_
    exact (otherRegs_putFlag _ Fld.slqFstsBusy false g _ _ (fun e => hfg (Prod.mk.inj e).2)).trans (State.reg_of_regs rfl _ _)

/-- Every slot of a channel has passed GO. -/
def AllWent (c : Nat) (s : State) : Prop := ∀ x ∈ (s.chan c).slots, x.2.went = true

/-- Two states apart in the channels and in the operations that have ended. -/
def SlotsTouched (s t : State) : Prop := t = { s with ch := t.ch, md := t.md }

theorem SlotsTouched.refl (s : State) : SlotsTouched s s := rfl

theorem SlotsTouched.trans {s t u : State} (h : SlotsTouched s t) (g : SlotsTouched t u) : SlotsTouched s u := by
  unfold SlotsTouched at *
  rw [g, h]

theorem SlotsTouched.endSlot (c k code : Nat) (x : Slot) (s : State) : SlotsTouched s (endSlot c k code x s) := rfl
theorem SlotsTouched.release (c : Nat) (s : State) : SlotsTouched s (release_ c s) := rfl

theorem endSlot_slots (c k code : Nat) (x : Slot) (s : State) : ((endSlot c k code x s).chan c).slots = Tab.del k (s.chan c).slots :=
  congrArg Chan.slots (State.chan_setChan_same s c _)

theorem endSlot_chan_ne {c d : Nat} (h : d ≠ c) (k code : Nat) (x : Slot) (s : State) : (endSlot c k code x s).chan d = s.chan d := State.chan_setChan_ne s h _

/-- Slots ended one after the other. -/
def slotsEnded (c : Nat) (l : Tab Slot) (s : State) : State := l.foldl (fun s e => endSlot c e.1 3 e.2 s) s

theorem SlotsTouched.ended (c : Nat) (l : Tab Slot) (s : State) : SlotsTouched s (slotsEnded c l s) := by
  induction l generalizing s with
  | nil => exact .refl s
  | cons e l ih => exact (SlotsTouched.endSlot c e.1 3 e.2 s).trans (ih _)

theorem slotsEnded_chan_ne {c d : Nat} (h : d ≠ c) : ∀ (l : Tab Slot) (s : State), (slotsEnded c l s).chan d = s.chan d
  | [], _ => rfl
  | e :: l, s => (slotsEnded_chan_ne h l (endSlot c e.1 3 e.2 s)).trans (endSlot_chan_ne h e.1 3 e.2 s)

theorem mem_slotsEnded {c : Nat} {x : Nat × Slot} : ∀ {l : Tab Slot} {s : State}, x ∈ ((slotsEnded c l s).chan c).slots → x ∈ (s.chan c).slots ∧ ∀ e ∈ l, x.1 ≠ e.1
  | [], _, h => ⟨h, fun _ he => absurd he List.not_mem_nil⟩
  | e :: l, s, h => by
    obtain ⟨hx, hl⟩ := mem_slotsEnded (l := l) (s := endSlot c e.1 3 e.2 s) h
    rw [endSlot_slots] at hx
    refine ⟨Tab.mem_del hx, fun d hd => ?_⟩
    rcases List.mem_cons.mp hd with rfl | hd
    · exact Tab.mem_del_ne hx
    · exact hl d hd

theorem release_slots (c : Nat) (s : State) : ((release_ c s).chan c).slots = (s.chan c).slots := by
  unfold release_ raiseCe
  dsimp only
  rw [State.chan_setChan_same, State.chan_setChan_same]

theorem release_chan_ne {c d : Nat} (h : d ≠ c) (s : State) : (release_ c s).chan d = s.chan d := (State.chan_setChan_ne (raiseCe c s) h _).trans (State.chan_setChan_ne s h _)

/-- The slots that have not passed GO. -/
def unstarted (c : Nat) (s : State) : Tab Slot := (s.chan c).slots.filter fun e => !e.2.went

theorem endUnstarted_cases (c : Nat) (s : State) : endUnstarted c s = slotsEnded c (unstarted c s) s ∨ endUnstarted c s = release_ c (slotsEnded c (unstarted c s) s) := by
  unfold endUnstarted
  dsimp only
  rw [← unstarted, ← slotsEnded]
  split
  · split
    · exact Or.inl rfl
    · exact Or.inr rfl
  · exact Or.inl rfl

theorem SlotsTouched.endUnstarted (c : Nat) (s : State) : SlotsTouched s (endUnstarted c s) := by
  have h := SlotsTouched.ended c (unstarted c s) s
  rcases endUnstarted_cases c s with he | he
  · rw [he]
    exact h
  · rw [he]
    exact h.trans (.release c _)

theorem slotsEnded_went (c : Nat) (s : State) : AllWent c (slotsEnded c (unstarted c s) s) := by
  intro x hx
  obtain ⟨hin, hne⟩ := mem_slotsEnded hx
  by_contra hw
  refine hne x (List.mem_filter.mpr ⟨hin, ?_⟩) rfl
  rw [Bool.not_eq_true']
  exact Bool.eq_false_iff.mpr hw

theorem endUnstarted_went (s : State) (c : Nat) : AllWent c (endUnstarted c s) := by
  rcases endUnstarted_cases c s with he | he
  · rw [he]
    exact slotsEnded_went c s
  · rw [he, AllWent, release_slots]
    exact slotsEnded_went c s

theorem endUnstarted_keeps (s : State) (d c : Nat) (h : AllWent c s) : AllWent c (endUnstarted d s) := by
  by_cases hcd : c = d
  · rw [hcd]
    exact endUnstarted_went s d
  · have hchan : (endUnstarted d s).chan c = s.chan c := by
      rcases endUnstarted_cases d s with he | he
      · rw [he, slotsEnded_chan_ne hcd]
      · rw [he, release_chan_ne hcd, slotsEnded_chan_ne hcd]
    rw [AllWent, hchan]
    exact h

end Sys2Proof.Machine
end

section
/-! PROOFS. BANKED_ENTRY as a whole, BANKED_PINS, the watchdogs and the log's mirror (O51). -/
namespace Sys2Proof.Machine

/-! ## The entry each request is owed (R665) -/

/-- A request's BANKED entry. -/
def bankedHEntry (q : Request) (s : State) : HEntry := {
  bytes := entryBytes s q 0x11 (firstIssued s q) (if q.opc = 2 ∧ !q.tiles.isEmpty then (q.tiles.map (·.dstate)).foldl min 3 else 0) (q.tiles.map (bankedRecord q.opc))
  sluice := q.sluice
  irqNow := q.irqNow
  status := 0x11
  release := if firstIssued s q then q.units - q.units / 2 else q.units
  rtag := q.rtag
  last := true }

theorem bankRequest_ring (q : Request) (s : State) : ((Machine.bankRequest q s).ring q.ring).queue =
    ((s.ring q.ring).queue.filter fun y => y.nop || y.rtag != q.rtag) ++ [bankedHEntry q s] :=
  congrArg Hrv.queue (State.ring_setRing_same s q.ring _)

theorem bankRequest_rest (q : Request) (s : State) : Machine.bankRequest q s = { s with
    hrv := (Machine.bankRequest q s).hrv
    reqs := Tab.put q.rtag { q with firstOut := true, deferred := false, owesTwin := false, status := some 0x11 } s.reqs } := rfl

theorem bankRequest_rq (q : Request) (s : State) : ((Machine.bankRequest q s).rq q.rtag).bind (fun q => q.status) = some 0x11 := by
  have hreqs : (Machine.bankRequest q s).reqs = Tab.put q.rtag { q with firstOut := true, deferred := false, owesTwin := false, status := some 0x11 } s.reqs :=
    (congrArg State.reqs (bankRequest_rest q s) :)
  rw [State.rq, hreqs, Tab.find_put_same]
  rfl

theorem bankRequest_queue (q : Request) (s : State) :
    ((Machine.bankRequest q s).ring q.ring).queue.getLast?.map (fun e => (e.rtag, e.status, e.last)) = some (q.rtag, 0x11, true) ∧
    ∀ e ∈ ((Machine.bankRequest q s).ring q.ring).queue, e.rtag = q.rtag → e.nop = false → e.status = 0x11 := by
  rw [bankRequest_ring]
  refine ⟨?_, fun e he htag hnop => ?_⟩
  · rw [List.getLast?_append_cons]
    rfl
  · rcases List.mem_append.mp he with he | he
    · have hkeep := (List.mem_filter.mp he).2
      rw [hnop, Bool.false_or, bne_iff_ne] at hkeep
      exact absurd htag hkeep
    · rw [List.mem_singleton.mp he]
      rfl

/-! ## BANKED_ENTRY (R662) -/

/-- The requests' entries. -/
def requestsBanked (s : State) : State :=
  (s.reqs.map Prod.snd).foldl (fun s q => Machine.bankRequest q s) { s with pwr := { s.pwr with bankTodo := false } }

/-- The movers that the banked state disables. -/
def bankedMovers : List Nat := (List.range 64).filter fun m => m < 40 || 47 < m

def fluesBanked (s : State) : State := (List.range 4).foldl (fun s f => bankFlue f s) s

def channelsBanked (s : State) : State := (List.range 128).foldl (fun s c => endUnstarted c s) s

theorem execBankedEntry_eq {s : State} (hon : s.coreOn = true) (hb : s.banked = true) (ht : s.pwr.bankTodo = true) :
    execBankedEntry s = .next ((channelsBanked (fluesBanked (moversBanked bankedMovers (requestsBanked s)))).put Fld.glbBankStsChWait 128) := by
  unfold execBankedEntry
  rw [hon, hb, ht]
  exact onlyIf_true _ _

/-- Two states apart in the rings and the requests. -/
def RequestsTouched (s t : State) : Prop := t = { s with hrv := t.hrv, reqs := t.reqs }

theorem RequestsTouched.trans {s t u : State} (h : RequestsTouched s t) (g : RequestsTouched t u) : RequestsTouched s u := by
  unfold RequestsTouched at *
  rw [g, h]

theorem RequestsTouched.foldl (l : List Request) (s : State) : RequestsTouched s (l.foldl (fun s q => Machine.bankRequest q s) s) := by
  induction l generalizing s with
  | nil => exact rfl
  | cons q l ih => exact RequestsTouched.trans (t := Machine.bankRequest q s) (bankRequest_rest q s) (ih _)

theorem requestsBanked_rest (s : State) : requestsBanked s = { s with hrv := (requestsBanked s).hrv, reqs := (requestsBanked s).reqs, pwr := { s.pwr with bankTodo := false } } :=
  RequestsTouched.foldl (s.reqs.map Prod.snd) { s with pwr := { s.pwr with bankTodo := false } }

/-- Two states apart in the registers and the flue. -/
def FluesTouched (s t : State) : Prop := t = { s with regs := t.regs, flue := t.flue }

theorem FluesTouched.foldl (l : List Nat) (s : State) : FluesTouched s (l.foldl (fun s f => bankFlue f s) s) ∧
    ∀ k i, k ≠ .slqFsts → (l.foldl (fun s f => bankFlue f s) s).reg k i = s.reg k i := by
  induction l generalizing s with
  | nil => exact ⟨rfl, fun _ _ _ => rfl⟩
  | cons f l ih =>
    obtain ⟨hrest, hreg⟩ := ih (bankFlue f s)
    refine ⟨?_, fun k i hk => (hreg k i hk).trans (bankFlue_reg f s hk i)⟩
    rw [List.foldl_cons]
    unfold FluesTouched at *
    rw [hrest, bankFlue_rest]

theorem fluesBanked_dropped (s : State) {f : Nat} (hf : f < 4) : FlueDropped f (fluesBanked s) :=
  foldl_settles (fun s f => bankFlue_drops f s) bankFlue_keeps (List.range 4) s f (List.mem_range.mpr hf)

theorem channelsBanked_touched (l : List Nat) (s : State) : SlotsTouched s (l.foldl (fun s c => endUnstarted c s) s) := by
  induction l generalizing s with
  | nil => exact .refl s
  | cons c l ih => exact (SlotsTouched.endUnstarted c s).trans (ih _)

theorem channelsBanked_went (s : State) {c : Nat} (hc : c < 128) : AllWent c (channelsBanked s) :=
  foldl_settles endUnstarted_went endUnstarted_keeps (List.range 128) s c (List.mem_range.mpr hc)

section
variable {s : State} (hon : s.coreOn = true) (hb : s.banked = true)
include hon hb

theorem bankedEntry_spec (ht : s.pwr.bankTodo = true) (hctx : ∀ e ∈ s.mov.ctxs, 40 ≤ e.1 / 32 ∧ e.1 / 32 ≤ 47) :
    ∃ t, exec .bankedEntry s = .next t ∧ t.pwr.bankTodo = false ∧ t.get Fld.glbBankStsChWait = 128 ∧
      (∀ m, m < 64 → (m < 40 ∨ 47 < m) → t.flag Fld.belCtlEn m = false) ∧
      (∀ f, f < 4 → (t.flueOf f).cmd = none ∧ t.flag Fld.slqFstsBusy f = false) ∧
      (∀ c, c < 128 → ∀ x ∈ (t.chan c).slots, x.2.went = true) ∧
      (∀ q, s.reqs = [(q.rtag, q)] → (t.ring q.ring).queue.getLast?.map (fun e => (e.rtag, e.status, e.last)) = some (q.rtag, 0x11, true) ∧
        (∀ e ∈ (t.ring q.ring).queue, e.rtag = q.rtag → e.nop = false → e.status = 0x11) ∧ (t.rq q.rtag).bind (fun q => q.status) = some 0x11) := by
  have hctxs : ∀ e ∈ (requestsBanked s).mov.ctxs, ∀ m ∈ bankedMovers, e.1 / 32 ≠ m := by
    intro e he m hm heq
    have hmov : (requestsBanked s).mov = s.mov := (congrArg State.mov (requestsBanked_rest s) :)
    rw [hmov] at he
    have hin := hctx e he
    have hout := (List.mem_filter.mp hm).2
    rw [Bool.or_eq_true, decide_eq_true_eq, decide_eq_true_eq] at hout
    omega
  obtain ⟨hmovers, hoff⟩ := moversBanked_idle bankedMovers hctxs
  obtain ⟨hflues, hfluesReg⟩ := FluesTouched.foldl (List.range 4) (moversBanked bankedMovers (requestsBanked s))
  have hchans := channelsBanked_touched (List.range 128) (fluesBanked (moversBanked bankedMovers (requestsBanked s)))
  have hdropped (f : Nat) (hf : f < 4) := fluesBanked_dropped (moversBanked bankedMovers (requestsBanked s)) hf
  have hwent (c : Nat) (hc : c < 128) := channelsBanked_went (fluesBanked (moversBanked bankedMovers (requestsBanked s))) hc
  rw [← fluesBanked] at hflues
  change ∀ k i, k ≠ .slqFsts → (fluesBanked (moversBanked bankedMovers (requestsBanked s))).reg k i = _ at hfluesReg
  rw [← channelsBanked] at hchans
  refine ⟨_, execBankedEntry_eq hon hb ht, ?_⟩
  generalize channelsBanked (fluesBanked (moversBanked bankedMovers (requestsBanked s))) = v at hchans hwent
  generalize fluesBanked (moversBanked bankedMovers (requestsBanked s)) = u at hchans hdropped hflues hfluesReg
  have hmov := hmovers.rest
  generalize moversBanked bankedMovers (requestsBanked s) = y at hoff hmov hflues hfluesReg
  have hvu : v.hrv = u.hrv ∧ v.reqs = u.reqs ∧ v.pwr = u.pwr ∧ v.regs = u.regs ∧ v.flue = u.flue :=
    ⟨(congrArg State.hrv hchans :), (congrArg State.reqs hchans :), (congrArg State.pwr hchans :), (congrArg State.regs hchans :), (congrArg State.flue hchans :)⟩
  have huy : u.hrv = y.hrv ∧ u.reqs = y.reqs ∧ u.pwr = y.pwr := ⟨(congrArg State.hrv hflues :), (congrArg State.reqs hflues :), (congrArg State.pwr hflues :)⟩
  have hyx : y.hrv = (requestsBanked s).hrv ∧ y.reqs = (requestsBanked s).reqs ∧ y.pwr = (requestsBanked s).pwr :=
    ⟨(congrArg State.hrv hmov :), (congrArg State.reqs hmov :), (congrArg State.pwr hmov :)⟩
  obtain ⟨hvhrv, hvreqs, hvpwr, hvregs, hvflue⟩ := hvu
  obtain ⟨huhrv, hureqs, hupwr⟩ := huy
  obtain ⟨hyhrv, hyreqs, hypwr⟩ := hyx
  refine ⟨?_, State.get_put_same v Fld.glbBankStsChWait (by decide) 128 0, fun m hm hout => ?_, fun f hf => ⟨?_, ?_⟩, fun c hc => hwent c hc, fun q hq => ?_⟩
  · show v.pwr.bankTodo = false
    rw [hvpwr, hupwr, hypwr, requestsBanked_rest]
  · have hmem : m ∈ bankedMovers := List.mem_filter.mpr ⟨List.mem_range.mpr hm, by rw [Bool.or_eq_true, decide_eq_true_eq, decide_eq_true_eq]; exact hout⟩
    rw [State.flag_put_kind _ (by decide), State.flag_of_regs hvregs, State.flag, State.get, hfluesReg _ _ (by decide)]
    exact hoff m hmem
  · show (v.flueOf f).cmd = none
    rw [State.flueOf_of_flue hvflue]
    exact (hdropped f hf).1
  · rw [State.flag_put_kind _ (by decide), State.flag_of_regs hvregs]
    exact (hdropped f hf).2
  · have hring : v.ring q.ring = (requestsBanked s).ring q.ring := by
      unfold State.ring
      rw [hvhrv, huhrv, hyhrv]
    have hrq : v.rq q.rtag = (requestsBanked s).rq q.rtag := by
      unfold State.rq
      rw [hvreqs, hureqs, hyreqs]
    have hone : requestsBanked s = Machine.bankRequest q { s with pwr := { s.pwr with bankTodo := false } } := by
      unfold requestsBanked
      rw [hq]
      rfl
    obtain ⟨hlast, hall⟩ := bankRequest_queue q { s with pwr := { s.pwr with bankTodo := false } }
    show (v.ring q.ring).queue.getLast?.map (fun e => (e.rtag, e.status, e.last)) = some (q.rtag, 0x11, true) ∧
      (∀ e ∈ (v.ring q.ring).queue, e.rtag = q.rtag → e.nop = false → e.status = 0x11) ∧ (v.rq q.rtag).bind (fun q => q.status) = some 0x11
    rw [hring, hrq, hone]
    exact ⟨hlast, hall, bankRequest_rq q _⟩

/-! ## BANKED_PINS (R663) -/

/-- A channel at its banked levels. -/
def chanBanked (c : Nat) (s : State) : State := s.setChan c { s.chan c with banked := true, pins := {}, wpN := false, items := [] }

/-- One channel fewer is waited for. -/
def chanCounted (c : Nat) (s : State) : State := (chanBanked c s).put Fld.glbBankStsChWait (s.get Fld.glbBankStsChWait - 1)

theorem execBankedPins_eq {c : Nat} (ht : s.pwr.bankTodo = false) (hc : c < 128) (hcb : (s.chan c).banked = false) (hsl : (s.chan c).slots = []) :
    execBankedPins c s = .next (if s.get Fld.glbBankStsChWait - 1 = 0 then ((chanCounted c s).putFlag Fld.glbBankStsPinsDone true).logPacked uGLB (Config.eventCode 663)
      else chanCounted c s) := by
  unfold execBankedPins
  rw [hon, hb, ht, decide_eq_true hc, hcb, hsl]
  exact onlyIf_true _ _

omit hon hb in
theorem chanCounted_wait (s : State) (c : Nat) : (chanCounted c s).get Fld.glbBankStsChWait = s.get Fld.glbBankStsChWait - 1 := by
  have hlt : s.get Fld.glbBankStsChWait < 2 ^ (Fld.glbBankStsChWait.hi + 1 - Fld.glbBankStsChWait.lo) := Fld.get_lt _ _
  rw [chanCounted, State.get_put_same _ _ (by decide)]
  exact Nat.mod_eq_of_lt (by omega)

theorem bankedPins_spec {c : Nat} (ht : s.pwr.bankTodo = false) (hc : c < 128) (hcb : (s.chan c).banked = false) (hsl : (s.chan c).slots = []) :
    ∃ t, exec (.bankedPins c) s = .next t ∧
      t.chan c = { s.chan c with banked := true, pins := {}, wpN := false, items := [] } ∧ (∀ d, d ≠ c → t.chan d = s.chan d) ∧
      t.get Fld.glbBankStsChWait = s.get Fld.glbBankStsChWait - 1 ∧ (s.get Fld.glbBankStsChWait ≤ 1 → t.flag Fld.glbBankStsPinsDone = true) ∧
      (1 < s.get Fld.glbBankStsChWait → OtherRegs s t .glbBankSts 0 ∧ t.log = s.log) := by
  have hsame : (chanBanked c s).chan c = { s.chan c with banked := true, pins := {}, wpN := false, items := [] } := State.chan_setChan_same s c _
  have hother (d : Nat) (hd : d ≠ c) : (chanBanked c s).chan d = s.chan d := State.chan_setChan_ne s hd _
  have hwait := chanCounted_wait s c
  refine ⟨_, execBankedPins_eq hon hb ht hc hcb hsl, ?_⟩
  by_cases hlast : s.get Fld.glbBankStsChWait - 1 = 0
  · rw [if_pos hlast]
    refine ⟨hsame, hother, ?_, fun _ => ?_, fun h => absurd h (by omega)⟩
    · rw [State.get_logPacked _ (by decide), State.get_putFlag_field _ (by decide) (by decide)]
      exact hwait
    · rw [State.flag_logPacked _ (by decide), State.flag_putFlag _ _ rfl (by decide)]
  · rw [if_neg hlast]
    exact ⟨hsame, hother, hwait, fun h => absurd h (by omega), fun _ => ⟨fun k i hk => otherRegs_put (chanBanked c s) Fld.glbBankStsChWait _ 0 k i hk, rfl⟩⟩

theorem clockMonitorFault_again : ∃ t, exec .clockMonitorFault s = .next t ∧ Logged s t uGLB 0x204 ∧ OtherRegs s t .glbLogSeq 0 ∧ t = { s with regs := t.regs, log := t.log } := by
  refine ⟨s.logPacked uGLB 0x204, ?_, logged_logPacked _ _ _ _ _, otherRegs_logEntry s uGLB 0x204 _ _, rfl⟩
  refine (onCore_next hon _).trans ?_
  rw [State.bank, bankNamed_again hb]

end

/-! ## Watchdogs (R667) -/

theorem kickWrite_none {src : Nat} {s : State} (h : coreOf src = none) : kickWrite src s = s := by
  unfold kickWrite
  rw [h]

theorem kickWrite_some {src n t0 : Nat} {s : State} (h : coreOf src = some n) (hf : Tab.find n s.pwr.wdog = some t0) : kickWrite src s = { s with pwr := { s.pwr with
    wdog := Tab.put n (s.now + max 1 (if n = 0 then s.get Fld.pwrWdogCfgFbMs else s.get Fld.pwrWdogCfgPolMs) * 1000000) s.pwr.wdog } } := by
  unfold kickWrite
  rw [h]
  dsimp only
  rw [hf]
  rfl

theorem kickWrite_rest (src : Nat) (s : State) : kickWrite src s = { s with pwr := { s.pwr with wdog := (kickWrite src s).pwr.wdog } } := by
  unfold kickWrite
  split
  · rfl
  · split
    · rfl
    · rfl

theorem watchdogKick_spec {s : State} {r : Req} {w : Word} (hw : Written s r .pwrWdogKick 0 w) : ∃ t, exec (.watchdogKick r w) s = .next t ∧ t.resps = okSent s r ∧ t.regs = s.regs ∧
    (coreOf r.src = none → t.pwr = s.pwr) ∧ (∀ n t0, coreOf r.src = some n → Tab.find n s.pwr.wdog = some t0 → t.pwr.wdog = Tab.put n
      (s.now + 1000000 * max 1 (s.get (if n = 0 then Fld.pwrWdogCfgFbMs else Fld.pwrWdogCfgPolMs))) s.pwr.wdog) := by
  have hrest := kickWrite_rest r.src s
  have hexec : exec (.watchdogKick r w) s = .next ((kickWrite r.src s).respondWrite r .ok) := by
    show execWatchdogKick r w s = _
    unfold execWatchdogKick
    rw [regWrite_pwr hw rfl]
  refine ⟨_, hexec, respondWrite_resps_of_eq (congrArg State.resps hrest :) r, ?_, fun h => ?_, fun n t0 h hf => ?_⟩
  · rw [State.respondWrite_eq]
    exact (congrArg State.regs hrest :)
  · rw [State.respondWrite_eq, kickWrite_none h]
  · have hperiod : (if n = 0 then s.get Fld.pwrWdogCfgFbMs else s.get Fld.pwrWdogCfgPolMs) = s.get (if n = 0 then Fld.pwrWdogCfgFbMs else Fld.pwrWdogCfgPolMs) := by
      split
      · rfl
      · rfl
    rw [State.respondWrite_eq, kickWrite_some h hf, hperiod, Nat.mul_comm]

theorem watchdogExpiry_banks {s : State} {n t0 : Nat} (hon : s.coreOn = true) (hb : s.banked = false) (hf : Tab.find n s.pwr.wdog = some t0) (ht : t0 ≤ s.now) :
    ∃ t, exec (.watchdogExpiry n) s = .next t ∧ BankedBy t 0x06 s.now ∧ (t.log.head?.map fun e => e.obj) = some (packBytes [(1, 0x10 + n)]) := by
  refine ⟨s.bankNamed 0x06 [(1, 0x10 + n)], ?_, bankedBy_bankNamed hb (by decide) _, ?_⟩
  · show execWatchdogExpiry n s = _
    unfold execWatchdogExpiry
    rw [hf]
    dsimp only
    rw [hon, decide_eq_true ht]
    exact onlyIf_true _ _
  · rw [bankNamed_entry (by rw [hb]; exact Bool.false_ne_true), bankEntered_eq]
    rfl

/-! ## The log mirror (R674) -/

/-- The job that copies an entry of the log to its place in the mirror. -/
def mirrorJob (e : LogEntry) (s : State) : Job := {
  path := .logMirror e.seq.toNat
  prio := 1
  vc := 3
  port := s.get Fld.glbLogCtlPort
  age := e.seq.toNat
  prog := [moveWord true 1 0 0 0 31 0 (s.get Fld.glbLogMbaseHiBase * 2 ^ 32 + s.get Fld.glbLogMbaseLoBase * 4096 + 32 * (e.seq.toNat % (128 * mirrorPages s)))]
  init := bufPut 0 (logBytes e) []
  crypt := none
  c0 := false }

theorem logMirrorCopy_spec {s : State} {e : LogEntry} (hon : s.coreOn = true) (hen : s.flag Fld.glbLogCtlMirEn = true) (h : uncopied s = some e) :
    ∃ t j, exec .logMirrorCopy s = .next t ∧ t.logMir = e.seq + 1 ∧
      t.mov.jobs = s.mov.jobs ++ [j] ∧ j.path = .logMirror e.seq.toNat ∧ j.vc = 3 ∧ j.port = s.get Fld.glbLogCtlPort ∧ j.init = bufPut 0 (logBytes e) [] ∧
      j.prog = [moveWord true 1 0 0 0 31 0 (s.get Fld.glbLogMbaseHiBase * 2 ^ 32 + s.get Fld.glbLogMbaseLoBase * 4096
        + 32 * (e.seq.toNat % (128 * min 512 (max 1 (s.get Fld.glbLogCtlMpages)))))] := by
  refine ⟨{ s.queueJob (mirrorJob e s) with logMir := e.seq + 1 }, mirrorJob e s, ?_, by dsimp only, by dsimp only [State.queueJob], by dsimp only [mirrorJob], by dsimp only [mirrorJob],
    by dsimp only [mirrorJob], by dsimp only [mirrorJob], by dsimp only [mirrorJob, mirrorPages]⟩
  show execLogMirrorCopy s = _
  unfold execLogMirrorCopy
  rw [h]
  dsimp only
  rw [hon, hen, ← mirrorJob]
  exact onlyIf_true _ _

end Sys2Proof.Machine
end

section
/-! PROOFS. Memory errors contained and broken waits (O51). -/
namespace Sys2Proof.Machine

/-! ## Memory errors (R668, Table 18-8) -/

theorem contained_spec (s : State) : contained s = { s with regs := (contained s).regs, log := (contained s).log } ∧
    (contained s).get Fld.pwrErrCntContained = min 255 (s.get Fld.pwrErrCntContained + 1) ∧ Logged s (contained s) uPWR 0x101B ∧
    ∀ k i, k ≠ .pwrErrCnt → k ≠ .glbLogSeq → (contained s).reg k i = s.reg k i := by
  refine ⟨rfl, ?_, logged_logPacked _ _ _ _ _, fun k i hk hl => ?_⟩
  · rw [contained, State.get_logPacked _ (by decide), State.get_inc_same _ _ (by decide)]
    rfl
  · rw [contained, State.reg_logPacked _ hl, State.reg_inc_kind _ hk]

section
variable {s : State} (hon : s.coreOn = true)
include hon

theorem memoryError_on {c : Bool} (hc : c = true) (t : State) : onlyIf (s.coreOn && c) s t = .next t := by
  rw [hon, hc]
  rfl

theorem memoryError_corrected : ∃ t, exec (.memoryError .corrected) s = .next t ∧ t.get Fld.pwrErrCntCorr = min 65535 (s.get Fld.pwrErrCntCorr + 1) ∧ Logged s t uPWR 0x101B ∧
    ∀ k i, k ≠ .pwrErrCnt → k ≠ .glbLogSeq → t.reg k i = s.reg k i := by
  refine ⟨_, memoryError_on hon rfl _, ?_, logged_logPacked _ _ _ _ _, fun k i hk hl => ?_⟩
  · rw [State.get_logPacked _ (by decide), State.get_inc_same _ _ (by decide)]
    rfl
  · rw [State.reg_logPacked _ hl, State.reg_inc_kind _ hk]

theorem memoryError_critical (hb : s.banked = false) : ∃ t, exec (.memoryError .critical) s = .next t ∧ BankedBy t 0x03 s.now :=
  ⟨_, memoryError_on hon rfl _, bankedBy_bank hb (by decide)⟩

omit hon in
/-- A line of the map cache struck once its state has been marked. -/
theorem mapLineError_eq {line : Nat} {l : MLine} (h : Tab.find line s.md.cache = some l) : mapLineError line (contained s) =
    if l.dirty ∨ l.wb then markRepair ((List.range 8).map (8 * line + ·)) ((contained s).delLine line) else (contained s).delLine line := by
  have hmd : (contained s).md = s.md := (congrArg State.md (contained_spec s).1 :)
  unfold mapLineError
  rw [hmd, h]

theorem memoryError_mapLine {line : Nat} {l : MLine} (h : Tab.find line s.md.cache = some l) : ∃ t, exec (.memoryError (.mapLine line)) s = .next t ∧ Tab.find line t.md.cache = none ∧
    t.get Fld.pwrErrCntContained = min 255 (s.get Fld.pwrErrCntContained + 1) ∧ (l.dirty = false → l.wb = false → t.md = { s.md with cache := t.md.cache }) ∧
    (l.dirty = true → ∀ j, j < 8 → 8 * line + j ∈ t.md.repair) := by
  obtain ⟨hrest, hcnt, -, -⟩ := contained_spec s
  have hmd : (contained s).md = s.md := (congrArg State.md hrest :)
  refine ⟨mapLineError line (contained s), memoryError_on hon (by rw [h]; rfl) _, ?_⟩
  rw [mapLineError_eq h]
  generalize contained s = u at hcnt hmd ⊢
  by_cases hd : l.dirty = true ∨ l.wb = true
  · rw [if_pos hd]
    refine ⟨Tab.find_del_same _ _, (State.get_of_regs rfl _ _).trans hcnt, fun h1 h2 => ?_, fun _ j hj => mem_markRepair (List.mem_map.mpr ⟨j, List.mem_range.mpr hj, rfl⟩)⟩
    rw [h1, h2] at hd
    exact absurd hd (by decide)
  · rw [if_neg hd]
    refine ⟨Tab.find_del_same _ _, (State.get_of_regs rfl _ _).trans hcnt, fun _ _ => ?_, fun h1 => absurd (Or.inl h1) hd⟩
    rw [← hmd]
    rfl

/-- A gauge line as its seeds give it. -/
def gaugeReseeded (key : Nat) (l : GLine) (s : State) : GLine :=
  { l with
    off := seedsOf (s.profile (key / 2 ^ 24)) (s.unit (pageUnit s ⟨key / 2 ^ 24, key % 2 ^ 24, 0, false⟩)).slc
    acc := zeros32
    dirty := false }

/-- The line put in the place of the one struck. -/
def gaugeReplaced (key : Nat) (l : GLine) (s : State) : State := { s with md := { s.md with gauge := Tab.put key (gaugeReseeded key l s) s.md.gauge } }

omit hon in
theorem gaugeLineError_eq {key : Nat} {l : GLine} {u : State} (h : Tab.find key u.md.gauge = some l) : gaugeLineError key u =
    dramWrite (gaugeAddr (gaugeReplaced key l u) (key / 2 ^ 24) (key % 2 ^ 24)) 3 (glineBytes (gaugeReseeded key l u)) (.gaugeWrite key) (gaugeReplaced key l u) := by
  unfold gaugeLineError
  rw [h]
  rfl

theorem memoryError_gaugeLine {k : Nat} {l : GLine} (h : Tab.find k s.md.gauge = some l) : ∃ t, exec (.memoryError (.gaugeLine k)) s = .next t ∧
    (Tab.find k t.md.gauge).map (fun g => (g.dirty, g.acc)) = some (false, zeros32) ∧ t.get Fld.pwrErrCntContained = min 255 (s.get Fld.pwrErrCntContained + 1) := by
  obtain ⟨hrest, hcnt, -, -⟩ := contained_spec s
  have hmd : (contained s).md = s.md := (congrArg State.md hrest :)
  have hfind : Tab.find k (contained s).md.gauge = some l := by rw [hmd, h]
  refine ⟨gaugeLineError k (contained s), memoryError_on hon (by rw [h]; rfl) _, ?_⟩
  rw [gaugeLineError_eq hfind, dramWrite_rest]
  refine ⟨?_, (State.get_of_regs rfl _ _).trans hcnt⟩
  refine (congrArg (Option.map fun g : GLine => (g.dirty, g.acc)) (Tab.find_put_same k (gaugeReseeded k l (contained s)) _)).trans ?_
  rfl

theorem memoryError_readSlot {c k : Nat} {b : BufSlot} (h : Tab.find k (s.chan c).buf = some b) (hb : b.stage ≠ 2) :
    exec (.memoryError (.readSlot c k)) s = .next (settleRds (hardDecoded c k b none (contained s))) := by
  show execMemoryError (.readSlot c k) s = _
  unfold execMemoryError
  dsimp only
  rw [h]
  exact memoryError_on hon (bne_iff_ne.mpr hb) _

theorem memoryError_writeRow {row : Nat} {x : Row} (h : s.row row = some x) : exec (.memoryError (.writeRow row)) s = .next (abandonRow row (contained s)) :=
  memoryError_on hon (by rw [h]; rfl) _

theorem memoryError_mover {m c : Nat} {x : Ctx} (h : s.ctx m c = some x) (hf : x.fault = none) :
    exec (.memoryError (.mover m c)) s = .next (moverFault m c 2 x.cur none (contained s)) := by
  show execMemoryError (.mover m c) s = _
  unfold execMemoryError
  dsimp only
  rw [h]
  exact memoryError_on hon (by rw [hf]; rfl) _

omit hon in
theorem logStruck_log {i : Nat} {e : LogEntry} (h : s.log[i]? = some e) : (logStruck i s).log = s.log.set i { e with unit := uPWR, code := 0x101B, obj := 0, val := 0 } := by
  refine List.ext_getElem? fun j => ?_
  show (s.log.zipIdx.map fun x => if x.2 == i then { x.1 with unit := uPWR, code := 0x101B, obj := 0, val := 0 } else x.1)[j]? = _
  rw [List.getElem?_map, List.getElem?_zipIdx, List.getElem?_set, Nat.zero_add]
  by_cases hj : i = j
  · subst hj
    have hi : i < s.log.length := (List.getElem?_eq_some_iff.mp h).1
    rw [h, if_pos rfl, if_pos hi]
    simp
  · rw [if_neg hj]
    cases s.log[j]? with
    | none => rfl
    | some f => simp [Ne.symm hj]

theorem memoryError_logEntry {i : Nat} {e : LogEntry} (h : s.log[i]? = some e) : ∃ t f, exec (.memoryError (.logEntry i)) s = .next t ∧ f.unit = uPWR ∧ f.code = 0x101B ∧
    t.log = (f :: s.log.set i { e with unit := uPWR, code := 0x101B, obj := 0, val := 0 }).take 2048 ∧
    t.get Fld.pwrErrCntContained = min 255 (s.get Fld.pwrErrCntContained + 1) ∧ ∀ k j, k ≠ .pwrErrCnt → k ≠ .glbLogSeq → t.reg k j = s.reg k j := by
  obtain ⟨-, hcnt, ⟨f, hlog, hunit, hcode⟩, hregs⟩ := contained_spec (logStruck i s)
  have hlt : i < s.log.length := (List.getElem?_eq_some_iff.mp h).1
  rw [logStruck_log h] at hlog
  exact ⟨_, f, memoryError_on hon (decide_eq_true hlt) _, hunit, hcode, hlog, hcnt, hregs⟩

end

/-! ## Broken waits (R670) -/

/-- Two states apart in the media and in the channels. -/
def ReadsTouched (s t : State) : Prop := t = { s with md := t.md, ch := t.ch }

theorem ReadsTouched.refl (s : State) : ReadsTouched s s := rfl

theorem ReadsTouched.trans {s t u : State} (h : ReadsTouched s t) (g : ReadsTouched t u) : ReadsTouched s u := by
  unfold ReadsTouched at *
  rw [g, h]

theorem ReadsTouched.foldl {β : Type} {f : State → β → State} (h : ∀ s b, ReadsTouched s (f s b)) (l : List β) (s : State) : ReadsTouched s (l.foldl f s) := by
  induction l generalizing s with
  | nil => exact .refl s
  | cons b l ih => exact (h s b).trans (ih _)

theorem ReadsTouched.dropOne (id : Nat) (s : State) : ReadsTouched s (dropOne id s) := by
  unfold Machine.dropOne
  split
  · exact .refl s
  · rfl

theorem ReadsTouched.dropRd (id : Nat) (s : State) : ReadsTouched s (dropRd id s) := (ReadsTouched.foldl (fun s i => .dropOne i s) _ s).trans (.dropOne id _)

theorem ReadsTouched.enqueue (w : Want) (s : State) : ReadsTouched s (enqueue w s) := rfl

theorem ReadsTouched.marginReads (q : Request) (s : State) : ReadsTouched s (marginReads q s) :=
  ReadsTouched.foldl (fun s _ => (ReadsTouched.enqueue _ s).trans (.enqueue _ _)) _ s

/-- A request's work begun again. -/
def workAnew (q : Request) : Request := { q with
  tiles := q.tiles.map fun t => if t.outcome.isSome ∨ q.opc = 2 then t else { t with looked := false, mapWait := false, panSlot := none, step := 0 }
  margin := q.margin.map fun _ => 0x100 }

theorem workAnew_tiles {q : Request} (hq : q.opc ≠ 2) {x : Tile} (hx : x ∈ (workAnew q).tiles) (ho : x.outcome = none) : x.looked = false ∧ x.mapWait = false ∧ x.panSlot = none := by
  obtain ⟨t, -, rfl⟩ := List.mem_map.mp hx
  by_cases ht : t.outcome.isSome = true ∨ q.opc = 2
  · rw [if_pos ht] at ho
    rcases ht with ht | ht
    · rw [ho] at ht
      exact absurd ht Bool.false_ne_true
    · exact absurd ht hq
  · rw [if_neg ht]
    exact ⟨rfl, rfl, rfl⟩

/-- The margin reads of a request that has them, asked for again. -/
def marginsAnew (rtag : Nat) (s : State) : State :=
  match s.rq rtag with
  | some q => if q.opc = 6 then marginReads q s else s
  | none => s

theorem ReadsTouched.marginsAnew (rtag : Nat) (s : State) : ReadsTouched s (marginsAnew rtag s) := by
  unfold Machine.marginsAnew
  split
  · split
    · exact .marginReads _ s
    · exact .refl s
  · exact .refl s

theorem restartRequest_eq (rtag : Nat) (s : State) : ∃ u, ReadsTouched s u ∧ restartRequest rtag s = marginsAnew rtag (u.modRq rtag workAnew) := by
  refine ⟨_, ?_, rfl⟩
  exact ReadsTouched.trans (ReadsTouched.foldl (fun s id => .dropRd id s) _ s) rfl

theorem restartRequest_spec {rtag : Nat} {s : State} {q : Request} (h : s.rq rtag = some q) :
    (restartRequest rtag s).regs = s.regs ∧ (restartRequest rtag s).rq rtag = some (workAnew q) := by
  obtain ⟨u, hu, heq⟩ := restartRequest_eq rtag s
  have hmargins := ReadsTouched.marginsAnew rtag (u.modRq rtag workAnew)
  have hrq : u.rq rtag = some q := by
    have hreqs : u.reqs = s.reqs := (congrArg State.reqs hu :)
    rw [State.rq, hreqs]
    exact h
  rw [heq]
  generalize marginsAnew rtag (u.modRq rtag workAnew) = v at hmargins
  refine ⟨?_, ?_⟩
  · exact (congrArg State.regs hmargins :).trans (congrArg State.regs hu :)
  · have hreqs : v.reqs = (u.modRq rtag workAnew).reqs := (congrArg State.reqs hmargins :)
    rw [State.rq, hreqs]
    exact (Tab.find_modify_same rtag workAnew u.reqs).trans (congrArg (Option.map workAnew) hrq)

/-- A break counted and logged. -/
def breakCounted (q : Request) (rtag : Nat) (s : State) : State := ((s.setRq { q with breaks := q.breaks + 1 }).inc Fld.pwrErrCntBreaks).logPacked uPWR 0x101A [(4, rtag)]

section
variable {s : State} {a b : Nat} {q : Request} (hr : s.running = true) (hab : a ≠ b) (ha : (s.rq a).isSome = true) (hb : (s.rq b).isSome = true)
  (hq : s.rq (younger s a b) = some q)
include hr hab ha hb hq

theorem execDeadlockBreak_eq : execDeadlockBreak a b s = .next (if 4 ≤ q.breaks + 1 then (breakCounted q (younger s a b) s).bank 0x0E
    else restartRequest (younger s a b) (breakCounted q (younger s a b) s)) := by
  unfold execDeadlockBreak
  dsimp only
  rw [hq]
  dsimp only
  rw [hr, ha, hb, bne_iff_ne.mpr hab]
  exact onlyIf_true _ _

theorem deadlockBreak_spec (htag : q.rtag = younger s a b) :
    ∃ t p, exec (.deadlockBreak a b) s = .next t ∧ t.get Fld.pwrErrCntBreaks = min 255 (s.get Fld.pwrErrCntBreaks + 1) ∧ t.rq q.rtag = some p ∧ p.breaks = q.breaks + 1 ∧
      p.cls = q.cls ∧ (4 ≤ q.breaks + 1 → s.banked = false → BankedBy t 0x0E s.now) ∧
      (q.breaks + 1 < 4 → q.opc ≠ 2 → ∀ x ∈ p.tiles, x.outcome = none → x.looked = false ∧ x.mapWait = false ∧ x.panSlot = none) := by
  have hexec := execDeadlockBreak_eq hr hab ha hb hq
  rw [← htag] at hexec
  have hcnt : (breakCounted q q.rtag s).get Fld.pwrErrCntBreaks = min 255 (s.get Fld.pwrErrCntBreaks + 1) := by
    rw [breakCounted, State.get_logPacked _ (by decide), State.get_inc_same _ _ (by decide)]
    rfl
  have hrq : (breakCounted q q.rtag s).rq q.rtag = some { q with breaks := q.breaks + 1 } := Tab.find_put_same _ _ _
  have hbanked : (breakCounted q q.rtag s).banked = s.banked := by
    unfold State.banked breakCounted
    rw [State.flag_logPacked _ (by decide), State.flag_inc_kind _ (by decide)]
    rfl
  have htime : (breakCounted q q.rtag s).time = s.time := rfl
  generalize breakCounted q q.rtag s = u at hexec hcnt hrq hbanked htime
  by_cases h4 : 4 ≤ q.breaks + 1
  · rw [if_pos h4] at hexec
    refine ⟨u.bank 0x0E, { q with breaks := q.breaks + 1 }, hexec, ?_, ?_, rfl, rfl, fun _ hb => ?_, fun h => absurd h4 (by omega)⟩
    · rw [State.bank, State.get_bankNamed _ (by decide)]
      exact hcnt
    · have hreqs : (u.bank 0x0E).reqs = u.reqs := (congrArg State.reqs (Banking.bankNamed u 0x0E []) :)
      rw [State.rq, hreqs]
      exact hrq
    · have hnow : u.now = s.now := congrArg BitVec.toNat htime
      rw [← hnow]
      exact bankedBy_bank (hbanked.trans hb) (by decide)
  · rw [if_neg h4] at hexec
    obtain ⟨hregs, hp⟩ := restartRequest_spec hrq
    exact ⟨_, _, hexec, (State.get_of_regs hregs _ _).trans hcnt, hp, rfl, rfl, fun h => absurd h h4, fun _ hopc x hx ho => workAnew_tiles hopc hx ho⟩

end

/-- Settles O51, part by part. -/
theorem bankedState : Obligations.BankedState := by
  unfold Obligations.BankedState
  intro s
  refine ⟨fun r w => bankRequest_spec, fun hon hb => ⟨clockMonitorFault_again hon hb, bankedEntry_spec hon hb, fun c => bankedPins_spec hon hb⟩, fun r w => watchdogKick_spec,
    fun n t0 => watchdogExpiry_banks, fun hon => ⟨memoryError_corrected hon, memoryError_critical hon, fun line l => memoryError_mapLine hon, fun k l => memoryError_gaugeLine hon,
      fun c k b => memoryError_readSlot hon, fun row x => memoryError_writeRow hon, fun m c x => memoryError_mover hon, fun i e => memoryError_logEntry hon⟩,
    fun a b q => deadlockBreak_spec, fun e => logMirrorCopy_spec⟩

end Sys2Proof.Machine
end

section
/-! PROOFS. Start-up: the self-tests and the kindling image (O53). -/
namespace Sys2Proof.Machine

/-! ## SELFTEST (R92, R93, R615) -/

theorem enterStage_get (n : Nat) (s : State) {f : Fld} (hl : f.kind ≠ .glbLogSeq) (hf : f.kind ≠ .glbBootSts ∨ 3 < f.lo ∧ f.hi < 32) (i : Nat) :
    (enterStage n s).get f i = s.get f i := by
  rw [enterStage, State.get_logPacked _ hl]
  rcases hf with hk | ⟨hlo, hhi⟩
  · exact State.get_put_kind _ hk _ _ _
  · exact State.get_put_field _ (Or.inr hlo) hhi _ _ _

theorem enterStage_flag (n : Nat) (s : State) {f : Fld} (hl : f.kind ≠ .glbLogSeq) (hf : f.kind ≠ .glbBootSts ∨ 3 < f.lo ∧ f.hi < 32) (i : Nat) :
    (enterStage n s).flag f i = s.flag f i := by
  simp [State.flag, enterStage_get n s hl hf]

/-- The banked state is GLB_BANK_STS alone. -/
theorem enterStage_banked (n : Nat) (s : State) : (enterStage n s).banked = s.banked := enterStage_flag n s (by decide) (Or.inl (by decide)) 0

/-- A start-up failure leaves everything but registers, log and the note that the engine has to be banked. -/
theorem bootFail_sec (code : Nat) (s : State) : (bootFail code s).sec = s.sec := (congrArg State.sec (Banking.bootFail code s) :)

theorem bootFail_xspi (code : Nat) (s : State) : (bootFail code s).xspi = s.xspi := (congrArg State.xspi (Banking.bootFail code s) :)

/-- The security state once the tests have passed: KES is drawn where it has not been (R615). -/
def selftestSec (rnd : BitVec 256) (s : State) : Sec := { s.sec with
  rbgSeeded := true
  row := if lifecycle s == lcManufacture && s.sec.row.kes == 0 then { s.sec.row with kes := rnd } else s.sec.row }

/-- The state once the tests have passed. -/
def selftestPassed (rnd : BitVec 256) (s : State) : State := enterStage 2 (({ s with sec := selftestSec rnd s } : State).putFlag Fld.secStsRbgOk true)

theorem selftestPassed_spec (rnd : BitVec 256) {s : State} (hb : s.banked = false) :
    (selftestPassed rnd s).stage = 2 ∧ (selftestPassed rnd s).banked = false ∧ (selftestPassed rnd s).flag Fld.secStsRbgOk = true ∧
      (selftestPassed rnd s).sec.rbgSeeded = true ∧
      (selftestPassed rnd s).sec.row = (if lifecycle s = lcManufacture ∧ s.sec.row.kes = 0 then { s.sec.row with kes := rnd } else s.sec.row) := by
  refine ⟨State.stage_enterStage _ (by decide), ?_, ?_, rfl, ?_⟩
  · rw [selftestPassed, enterStage_banked, State.banked_putFlag _ (by decide)]
    exact hb
  · rw [selftestPassed, enterStage_flag _ _ (by decide) (Or.inl (by decide)), State.flag_putFlag _ _ rfl (by decide)]
  · show (selftestSec rnd s).row = _
    by_cases h : lifecycle s = lcManufacture ∧ s.sec.row.kes = 0
    · rw [if_pos h]
      simp [selftestSec, h.1, h.2]
    · rw [if_neg h]
      simp only [selftestSec, beq_iff_eq, Bool.and_eq_true]
      exact if_neg h

/-- The lifecycle state is SEC_STS.LC alone. -/
theorem lifecycle_enterStage (n : Nat) (s : State) : lifecycle (enterStage n s) = lifecycle s := enterStage_get n s (by decide) (Or.inl (by decide)) 0

/-- SELFTEST (R92, R93): a failed known-answer test banks, so does a decommissioned part, and any other part goes on to KINDLING. -/
theorem selftestStage_spec {s : State} (hrun : s.running = true) (h0 : s.stage = 0) (fails : Option (Fin 5)) (rnd : BitVec 256) :
    ∃ t, exec (.selftestStage fails rnd) s = .next t ∧
      (∀ n, fails = some n → BankedBy t 0x01 s.now ∧ t.get Fld.glbBootStsFailCode = 0x10 + n.val ∧ t.get Fld.glbBootStsFailStage = 1 ∧ t.sec = s.sec) ∧
      (fails = none → lifecycle s = lcDecom → BankedBy t 0x01 s.now ∧ t.get Fld.glbBootStsFailCode = 0x21) ∧
      (fails = none → lifecycle s ≠ lcDecom → t.stage = 2 ∧ t.banked = false ∧ t.flag Fld.secStsRbgOk = true ∧ t.sec.rbgSeeded = true ∧
        t.sec.row = (if lifecycle s = lcManufacture ∧ s.sec.row.kes = 0 then { s.sec.row with kes := rnd } else s.sec.row)) := by
  have hb : (enterStage 1 s).banked = false := (enterStage_banked 1 s).trans (State.banked_of_running hrun)
  have hg : (s.running && s.stage == 0) = true := by rw [hrun, h0]; rfl
  cases fails with
  | some n =>
    have hn : 0x10 + n.val < 256 := by omega
    refine ⟨bootFail (0x10 + n.val) (enterStage 1 s), ?_, fun m hm => ?_, fun h _ => (nomatch h), fun h _ => (nomatch h)⟩
    · show execSelftestStage (some n) rnd s = _
      unfold execSelftestStage
      rw [hg]
      rfl
    · obtain ⟨hbank, hcode, hstage⟩ := bootFail_spec hb hn
      obtain rfl := Option.some.inj hm
      exact ⟨hbank, hcode, hstage.trans (State.stage_enterStage s (by decide)), bootFail_sec _ _⟩
  | none =>
    by_cases hlc : lifecycle s = lcDecom
    · refine ⟨bootFail 0x21 (enterStage 1 s), ?_, fun m h => (nomatch h), fun _ _ => ?_, fun _ h => absurd hlc h⟩
      · show execSelftestStage none rnd s = _
        unfold execSelftestStage
        dsimp only
        rw [hg, lifecycle_enterStage, if_pos hlc]
        rfl
      · obtain ⟨hbank, hcode, -⟩ := bootFail_spec (code := 0x21) hb (by decide)
        exact ⟨hbank, hcode⟩
    · refine ⟨selftestPassed rnd (enterStage 1 s), ?_, fun m h => (nomatch h), fun _ h => absurd h hlc, fun _ _ => ?_⟩
      · show execSelftestStage none rnd s = _
        unfold execSelftestStage
        dsimp only
        rw [hg, if_neg (by rw [lifecycle_enterStage]; exact hlc)]
        exact onlyIf_true _ _
      · have hspec := selftestPassed_spec rnd hb
        rw [lifecycle_enterStage] at hspec
        exact hspec

/-! ## The image (R82 to R84, R89, R90) -/

/-- Noting the sections that are ignored adds to the log alone. -/
theorem noteReserved_rest (d : List Byte) (s : State) : noteReserved d s = { s with regs := (noteReserved d s).regs, log := (noteReserved d s).log } ∧
    ∀ {f : Fld}, f.kind ≠ .glbLogSeq → ∀ i, (noteReserved d s).get f i = s.get f i := by
  unfold noteReserved
  induction (directory d).filter fun e => (secRule e.type).isNone generalizing s with
  | nil => exact ⟨rfl, fun _ _ => rfl⟩
  | cons e l ih =>
    obtain ⟨hrest, hget⟩ := ih (s.logPacked uGLB 0x1004 [(2, e.type), (2, e.inst)])
    rw [List.foldl_cons]
    exact ⟨hrest, fun hf i => (hget hf i).trans (State.get_logPacked _ hf _ _ _ _ _)⟩

/-- The xSPI port once the slot's bytes have been asked for (R82, R83): slot A after a discovery. -/
def slotXspi (sfdp : Sfdp) (s : State) : Xspi := if s.flag Fld.glbBootStsImgSlot then s.xspi else xspiDiscover sfdp s.xspi

/-- The state in which a slot's bytes are checked. -/
def slotFetched (sfdp : Sfdp) (d : List Byte) (s : State) : State :=
  ({ s with xspi := xspiRead (slotBase s) d.length (slotXspi sfdp s) } : State).putFlag Fld.glbBootStsXspi1s !(slotXspi sfdp s).octal

/-- The code that a slot's image fails with, 0 for one that is kept. -/
def slotCode (answers : Bool) (d : List Byte) (u : State) : Nat :=
  if imageCheck answers d u = 0 then contentCheck d u else imageCheck answers d u

/-- The state once an image has passed. -/
def imageKept (d : List Byte) (u : State) : State :=
  noteReserved d { u with sec := { u.sec with kek1 := kek1Of u, kek2 := kek2Of u }, img := { u.img with copy := some d } }

theorem kindlingSlotRead_eq {s : State} (hrun : s.running = true) (h2 : s.stage = 2) (hw : s.pwr.waking = false) (hfw : s.fwUp = false)
    (hcopy : s.img.copy = none) (hhold : s.xspi.hold = 0) (answers : Bool) (sfdp : Sfdp) (d : List Byte) :
    exec (.kindlingSlotRead answers sfdp d) s = .next (
      if slotCode answers d (slotFetched sfdp d s) = 0 then imageKept d (slotFetched sfdp d s)
      else if (slotFetched sfdp d s).flag Fld.glbBootStsImgSlot then bootFail (slotCode answers d (slotFetched sfdp d s)) (slotFetched sfdp d s)
      else (slotFetched sfdp d s).putFlag Fld.glbBootStsImgSlot true) := by
  have hreset : xspiResetN s = true := by
    unfold xspiResetN
    rw [State.coreOn_of_running hrun, hhold]
    rfl
  show execKindlingSlotRead answers sfdp d s = _
  have hg : (s.running && s.stage == 2 && !s.pwr.waking && !s.fwUp && s.img.copy.isNone && xspiResetN s) = true := by
    rw [hrun, h2, hw, hfw, hcopy, hreset]
    rfl
  unfold execKindlingSlotRead
  rw [hg]
  exact onlyIf_true _ _

/-- A list of checks that answers 0 has passed its first one. -/
theorem firstCode_passed {p : Prop} [Decidable p] {code rest : Nat} (hc : code ≠ 0) (h : (if p then code else rest) = 0) : ¬ p ∧ rest = 0 := by
  by_cases hp : p
  · rw [if_pos hp] at h
    exact absurd h hc
  · rw [if_neg hp] at h
    exact ⟨hp, h⟩

/-- What the checks of Table 03-4 say of the first codes. -/
theorem imageCheck_codes (answers : Bool) (d : List Byte) (u : State) : (answers = false → imageCheck answers d u = 0x0B) ∧
    (answers = true → num d 0 4 ≠ 0x4C444E4B → imageCheck answers d u = 0x01) ∧
    (imageCheck answers d u = 0 → Config.ecdsaVerify (sub d 0x30 97) (d.take (imgSize d - 128)) (sub d (imgSize d - 128) 48) (sub d (imgSize d - 80) 48) = true ∧
      countOnes u.sec.row.krb ≤ imgSecver d) := by
  unfold imageCheck
  dsimp only
  refine ⟨fun h => ?_, fun h hm => ?_, fun h => ?_⟩
  · rw [h]
    rfl
  · rw [h, if_neg (by decide), if_pos (Or.inl hm)]
  · obtain ⟨-, h⟩ := firstCode_passed (by decide) h
    obtain ⟨-, h⟩ := firstCode_passed (by decide) h
    obtain ⟨-, h⟩ := firstCode_passed (by decide) h
    obtain ⟨-, h⟩ := firstCode_passed (by decide) h
    obtain ⟨hsign, h⟩ := firstCode_passed (by decide) h
    obtain ⟨hver, -⟩ := firstCode_passed (by decide) h
    exact ⟨by simpa using hsign, Nat.le_of_not_lt hver⟩

theorem slotFetched_rest (sfdp : Sfdp) (d : List Byte) (s : State) : slotFetched sfdp d s = { s with
    regs := (slotFetched sfdp d s).regs
    xspi := xspiRead (slotBase s) d.length (slotXspi sfdp s) } := rfl

theorem slotFetched_get (sfdp : Sfdp) (d : List Byte) (s : State) {f : Fld} (hf : f.kind ≠ .glbBootSts ∨ f.hi < 14) (h32 : f.hi < 32) (i : Nat) :
    (slotFetched sfdp d s).get f i = s.get f i := by
  unfold slotFetched
  rcases hf with hk | hlo
  · exact (State.get_putFlag_kind _ hk _ _ _).trans (State.get_of_regs rfl _ _)
  · exact (State.get_putFlag_field _ (Or.inl hlo) h32 _ _ _).trans (State.get_of_regs rfl _ _)

theorem slotFetched_imgSlot (sfdp : Sfdp) (d : List Byte) (s : State) : (slotFetched sfdp d s).flag Fld.glbBootStsImgSlot = s.flag Fld.glbBootStsImgSlot :=
  (State.flag_putFlag_field _ (Or.inr (by decide)) (by decide) _ _ _).trans (State.flag_of_regs rfl _ _)

theorem slotFetched_xspi1s (sfdp : Sfdp) (d : List Byte) (s : State) : (slotFetched sfdp d s).flag Fld.glbBootStsXspi1s = !(slotXspi sfdp s).octal :=
  State.flag_putFlag _ _ rfl (by decide) _ _

theorem slotFetched_banked (sfdp : Sfdp) (d : List Byte) (s : State) : (slotFetched sfdp d s).banked = s.banked :=
  (State.banked_putFlag _ (by decide) _ _).trans (State.flag_of_regs rfl _ _)

/-- The keys that are derived speak of the hearthstone row and the lifecycle state alone. -/
theorem keks_slotFetched (sfdp : Sfdp) (d : List Byte) (s : State) : kek1Of (slotFetched sfdp d s) = kek1Of s ∧ kek2Of (slotFetched sfdp d s) = kek2Of s := by
  have hlc : lifecycle (slotFetched sfdp d s) = lifecycle s := slotFetched_get sfdp d s (Or.inl (by decide)) (by decide) 0
  have hsec : (slotFetched sfdp d s).sec = s.sec := rfl
  unfold kek1Of kek2Of
  rw [hlc, hsec]
  exact ⟨rfl, rfl⟩

/-- A discovery answers octal exactly where the flash has a signed SFDP of an octal mode; else the port reads at 12.5 MHz (R83, log entry 106). -/
theorem xspiDiscover_spec (f : Sfdp) (x : Xspi) : ((xspiDiscover f x).octal = true ↔ f.khz.isSome = true ∧ sfdpSigned f = true) ∧
    ((xspiDiscover f x).octal = false → (xspiDiscover f x).khz = 12500) := by
  cases hk : f.khz with
  | none => simp [xspiDiscover, hk]
  | some k => by_cases hs : sfdpSigned f = true <;> simp [xspiDiscover, hk, hs]

/-- Every code of the checks fits its field. -/
theorem firstCode_lt {p : Prop} [Decidable p] {code rest n : Nat} (hc : code < n) (hr : rest < n) : (if p then code else rest) < n := by
  by_cases hp : p
  · rwa [if_pos hp]
  · rwa [if_neg hp]

theorem imageCheck_lt (answers : Bool) (d : List Byte) (u : State) : imageCheck answers d u < 256 := by
  unfold imageCheck
  dsimp only
  exact firstCode_lt (by decide) (firstCode_lt (by decide) (firstCode_lt (by decide) (firstCode_lt (by decide) (firstCode_lt (by decide)
    (firstCode_lt (by decide) (firstCode_lt (by decide) (firstCode_lt (by decide) (firstCode_lt (by decide) (firstCode_lt (by decide)
      (firstCode_lt (by decide) (by decide)))))))))))

theorem contentCheck_lt (d : List Byte) (u : State) : contentCheck d u < 256 := by
  unfold contentCheck
  dsimp only
  exact firstCode_lt (by decide) (firstCode_lt (by decide) (firstCode_lt (by decide) (firstCode_lt (by decide) (firstCode_lt (by decide)
    (firstCode_lt (by decide) (firstCode_lt (by decide) (firstCode_lt (by decide) (firstCode_lt (by decide) (by decide)))))))))

theorem slotCode_lt (answers : Bool) (d : List Byte) (u : State) : slotCode answers d u < 256 := by
  unfold slotCode
  split
  · exact contentCheck_lt d u
  · exact imageCheck_lt answers d u

/-- The first codes, of the whole check. -/
theorem slotCode_codes (answers : Bool) (d : List Byte) (u : State) : (answers = false → slotCode answers d u = 0x0B) ∧
    (answers = true → num d 0 4 ≠ 0x4C444E4B → slotCode answers d u = 0x01) := by
  obtain ⟨hno, hmagic, -⟩ := imageCheck_codes answers d u
  refine ⟨fun h => ?_, fun h hm => ?_⟩
  · rw [slotCode, hno h]
    rfl
  · rw [slotCode, hmagic h hm]
    rfl

/-- The image that passes is kept, and the KEKs derived (R84, R90). -/
theorem imageKept_spec (d : List Byte) (u : State) : (imageKept d u).img.copy = some d ∧ (imageKept d u).sec = { u.sec with kek1 := kek1Of u, kek2 := kek2Of u } ∧
    (imageKept d u).xspi = u.xspi ∧ ∀ {f : Fld}, f.kind ≠ .glbLogSeq → ∀ i, (imageKept d u).get f i = u.get f i := by
  obtain ⟨hrest, hget⟩ := noteReserved_rest d { u with sec := { u.sec with kek1 := kek1Of u, kek2 := kek2Of u }, img := { u.img with copy := some d } }
  refine ⟨?_, ?_, ?_, fun hf i => (hget hf i).trans (State.get_of_regs rfl _ _)⟩
  · exact (congrArg (fun x : State => x.img.copy) hrest :)
  · exact (congrArg State.sec hrest :)
  · exact (congrArg State.xspi hrest :)

/-- The state after a slot has been read: an image kept, slot B next, or the engine banked. -/
def slotSettled (c : Nat) (d : List Byte) (u : State) : State :=
  if c = 0 then imageKept d u else if u.flag Fld.glbBootStsImgSlot then bootFail c u else u.putFlag Fld.glbBootStsImgSlot true

theorem slotSettled_kept (c : Nat) (d : List Byte) (u : State) : (slotSettled c d u).flag Fld.glbBootStsXspi1s = u.flag Fld.glbBootStsXspi1s ∧
    (slotSettled c d u).xspi = u.xspi := by
  unfold slotSettled
  by_cases h0 : c = 0
  · rw [if_pos h0]
    obtain ⟨-, -, hx, hget⟩ := imageKept_spec d u
    exact ⟨congrArg (· != 0) (hget (by decide) 0), hx⟩
  · rw [if_neg h0]
    by_cases hslot : u.flag Fld.glbBootStsImgSlot = true
    · rw [if_pos hslot]
      refine ⟨congrArg (· != 0) ?_, bootFail_xspi c u⟩
      rw [bootFail_eq, State.bank, State.get_bankNamed_boot rfl (by decide) (by decide), failNoted, State.get_logPacked _ (by decide),
        State.get_put_field _ (Or.inl (by decide)) (by decide), State.get_put_field _ (Or.inl (by decide)) (by decide)]
    · rw [if_neg hslot]
      exact ⟨State.flag_putFlag_field _ (Or.inl (by decide)) (by decide) _ _ _, rfl⟩

/-- KINDLING of one slot (R82 to R84, R89, R90, R117). -/
theorem slotSettled_spec {s : State} (hb : s.banked = false) (h2 : s.stage = 2) (sfdp : Sfdp) (d : List Byte) {c : Nat} (hc : c < 256) :
    (c = 0 → (slotSettled c d (slotFetched sfdp d s)).img.copy = some d ∧
      (slotSettled c d (slotFetched sfdp d s)).sec = { s.sec with kek1 := kek1Of s, kek2 := kek2Of s } ∧
      (slotSettled c d (slotFetched sfdp d s)).stage = 2 ∧ (slotSettled c d (slotFetched sfdp d s)).banked = false) ∧
    (c ≠ 0 → s.flag Fld.glbBootStsImgSlot = false → (slotSettled c d (slotFetched sfdp d s)).flag Fld.glbBootStsImgSlot = true ∧
      (slotSettled c d (slotFetched sfdp d s)).img = s.img ∧ (slotSettled c d (slotFetched sfdp d s)).banked = false) ∧
    (c ≠ 0 → s.flag Fld.glbBootStsImgSlot = true → BankedBy (slotSettled c d (slotFetched sfdp d s)) 0x01 s.now ∧
      (slotSettled c d (slotFetched sfdp d s)).get Fld.glbBootStsFailCode = c ∧ (slotSettled c d (slotFetched sfdp d s)).get Fld.glbBootStsFailStage = 2) := by
  have hstage : (slotFetched sfdp d s).stage = 2 := (slotFetched_get sfdp d s (Or.inr (by decide)) (by decide) 0).trans h2
  have hbu : (slotFetched sfdp d s).banked = false := (slotFetched_banked sfdp d s).trans hb
  unfold slotSettled
  rw [slotFetched_imgSlot]
  refine ⟨fun h0 => ?_, fun h0 hslot => ?_, fun h0 hslot => ?_⟩
  · rw [if_pos h0]
    obtain ⟨hcopy, hsec, -, hget⟩ := imageKept_spec d (slotFetched sfdp d s)
    obtain ⟨h1, h2'⟩ := keks_slotFetched sfdp d s
    rw [h1, h2'] at hsec
    exact ⟨hcopy, hsec, (hget (f := Fld.glbBootStsStage) (by decide) 0).trans hstage,
      (congrArg (· != 0) (hget (f := Fld.glbBankStsBanked) (by decide) 0)).trans hbu⟩
  · rw [if_neg h0, if_neg (by rw [hslot]; decide)]
    exact ⟨State.flag_putFlag _ _ rfl (by decide) _ _, rfl, (State.banked_putFlag _ (by decide) _ _).trans hbu⟩
  · rw [if_neg h0, if_pos hslot]
    obtain ⟨hbank, hcode, hst⟩ := bootFail_spec hbu hc
    exact ⟨hbank, hcode, hst.trans hstage⟩

end Sys2Proof.Machine
end

section
/-! PROOFS. The end of the kindling stage: sections distributed, firmware started (O53). -/
namespace Sys2Proof.Machine

/-- The state with every section but the pair key and the firmware distributed (R607). -/
def sectionsLoaded (d : List Byte) (s : State) : State :=
  let s := loadHid (loadSections d s)
  let s := loadTsets (sectionOf d 0x12) (s.img.topo.foldl loadChannel s)
  let s := loadCal (loadPatch d s)
  let s := s.put Fld.mapPanCfgWindowMs s.img.hold.windowMs
  draughtLoaded d (queueLoaded (sectionOf d 0x30) s).2

/-- The placement key drawn (R310). -/
def placementDrawn (key : BitVec 256) (s : State) : State := { s with sec := { s.sec with placement := key } }

theorem kindlingEnd_eq {s : State} {d : List Byte} (hrun : s.running = true) (h2 : s.stage = 2) (hw : s.pwr.waking = false) (hfw : s.fwUp = false)
    (hcopy : s.img.copy = some d) (key : BitVec 256) :
    exec (.kindlingEnd key) s = .next (kindlingSummary d (loadFirmware d (loadPair (placementDrawn key (sectionsLoaded d s))))) := by
  have hg : (s.running && s.stage == 2 && !s.fwUp && !s.pwr.waking) = true := by
    rw [hrun, h2, hw, hfw]
    rfl
  show execKindlingEnd key s = _
  unfold execKindlingEnd
  rw [hcopy]
  dsimp only
  rw [hg, onlyIf_true, sectionsLoaded, placementDrawn]

theorem loadPair_placement (s : State) : (loadPair s).sec.placement = s.sec.placement := by
  unfold loadPair
  split <;> rfl

/-- Firebox code and data as they are loaded, its core running (R607). -/
def fireboxSec (d : List Byte) (x : Sec) : Sec := { x with
  fbxCode := sub (sectionOf d 1) 64 (fwCode (sectionOf d 1))
  fbxData := sub (sectionOf d 1) (64 + fwCode (sectionOf d 1)) (fwData (sectionOf d 1)) ++ List.replicate (fwBss (sectionOf d 1)) 0
  fbxRun := true
  fbxHalted := false
  fbxPc := BitVec.ofNat 19 (fwEntry (sectionOf d 1)) }

theorem fireboxSec_spec (d : List Byte) (x : Sec) : (fireboxSec d x).fbxRun = true ∧ (fireboxSec d x).fbxHalted = false ∧
    (fireboxSec d x).placement = x.placement ∧ (fireboxSec d x).fbxCode = sub (sectionOf d 1) 64 (fwCode (sectionOf d 1)) := ⟨rfl, rfl, rfl, rfl⟩

theorem placementDrawn_placement (key : BitVec 256) (s : State) : (placementDrawn key s).sec.placement = key := rfl

/-- Firebox code and data stand, and policy firmware is on its way to the DRAM. -/
def codeLoaded (d : List Byte) (s : State) : State :=
  dramWrite (fwLoad (sectionOf d 2)) 3 (sub (sectionOf d 2) 64 (fwCode (sectionOf d 2) + fwData (sectionOf d 2)) ++ List.replicate (fwBss (sectionOf d 2)) 0)
    (.mapWrite (2 ^ 61)) { s with sec := fireboxSec d s.sec }

theorem loadFirmware_eq (d : List Byte) (s : State) : loadFirmware d s = startWdogs { codeLoaded d s with fwUp := true } := rfl

theorem codeLoaded_sec (d : List Byte) (s : State) : (codeLoaded d s).sec = fireboxSec d s.sec := (congrArg State.sec (dramWrite_rest _ _ _ _ _) :)

theorem startWdogs_sec (s : State) : (startWdogs s).sec = s.sec ∧ (startWdogs s).fwUp = s.fwUp := ⟨rfl, rfl⟩

theorem loadFirmware_sec (d : List Byte) (s : State) : (loadFirmware d s).sec = fireboxSec d s.sec ∧ (loadFirmware d s).fwUp = true := by
  obtain ⟨hsec, hup⟩ := startWdogs_sec { codeLoaded d s with fwUp := true }
  rw [loadFirmware_eq]
  exact ⟨hsec.trans (codeLoaded_sec d s), hup⟩

/-- The summary (R120) is the newest entry, and changes the log alone. -/
theorem kindlingSummary_spec (d : List Byte) (s : State) : (kindlingSummary d s).sec = s.sec ∧ (kindlingSummary d s).fwUp = s.fwUp ∧ (kindlingSummary d s).pwr = s.pwr ∧
    ((kindlingSummary d s).log.head?.map fun e => (e.unit, e.code)) = some (uGLB, 0x1005) := ⟨rfl, rfl, rfl, rfl⟩

theorem loadFirmware_wdog (d : List Byte) (s : State) {n : Nat} (hn : n < 5) : (Tab.find n (loadFirmware d s).pwr.wdog).isSome = true := by
  rw [loadFirmware_eq, startWdogs_find _ hn, Option.isSome_some]

/-- KINDLING ends with the firmware running under its watchdogs (R120, R607, R667). -/
theorem kindlingEnd_spec {s : State} {d : List Byte} (hrun : s.running = true) (h2 : s.stage = 2) (hw : s.pwr.waking = false) (hfw : s.fwUp = false)
    (hcopy : s.img.copy = some d) (key : BitVec 256) :
    ∃ t, exec (.kindlingEnd key) s = .next t ∧ t.fwUp = true ∧ t.sec.fbxRun = true ∧ t.sec.fbxHalted = false ∧ t.sec.placement = key ∧
      t.sec.fbxCode = sub (sectionOf d 1) 64 (fwCode (sectionOf d 1)) ∧ (t.log.head?.map fun e => (e.unit, e.code)) = some (uGLB, 0x1005) ∧
      (∀ n, n < 5 → (Tab.find n t.pwr.wdog).isSome = true) := by
  refine ⟨_, kindlingEnd_eq hrun h2 hw hfw hcopy key, ?_⟩
  obtain ⟨hsec, hup, hpwr, hlog⟩ := kindlingSummary_spec d (loadFirmware d (loadPair (placementDrawn key (sectionsLoaded d s))))
  obtain ⟨hfsec, hfup⟩ := loadFirmware_sec d (loadPair (placementDrawn key (sectionsLoaded d s)))
  rw [hsec, hup, hpwr, hfsec]
  obtain ⟨hrunFw, hhalt, hplace, hcode⟩ := fireboxSec_spec d (loadPair (placementDrawn key (sectionsLoaded d s))).sec
  exact ⟨hfup, hrunFw, hhalt, hplace.trans ((loadPair_placement _).trans (placementDrawn_placement key _)), hcode, hlog, fun n hn => loadFirmware_wdog d _ hn⟩

end Sys2Proof.Machine
end

section
/-! SUPPORT. The stages of channels, and the stage of start-up that follows them (O53). -/
namespace Sys2Proof.Machine

/-! ## Entries of the log that have not left it yet -/

/-- An entry of a unit and code is among the newest `n`. -/
def LoggedWithin (n : Nat) (s : State) (u c : Nat) : Prop := ∃ e ∈ s.log.take n, e.unit = u ∧ e.code = c

theorem LoggedWithin.mem {n : Nat} {s : State} {u c : Nat} (h : LoggedWithin n s u c) : ∃ e ∈ s.log, e.unit = u ∧ e.code = c := by
  obtain ⟨e, he, hs⟩ := h
  exact ⟨e, List.mem_of_mem_take he, hs⟩

theorem LoggedWithin.of_log {n : Nat} {s t : State} {u c : Nat} (h : LoggedWithin n s u c) (hl : t.log = s.log) : LoggedWithin n t u c := by
  unfold LoggedWithin
  rw [hl]
  exact h

theorem loggedWithin_logPacked (s : State) (u c : Nat) (o v : List (Nat × Nat)) : LoggedWithin 1 (s.logPacked u c o v) u c :=
  ⟨⟨s.time, s.reg .glbLogSeq, u, Config.logSeverity u c, c, packBytes o, packBytes v, []⟩, List.mem_cons_self, rfl, rfl⟩

/-- One entry more puts it one place back. -/
theorem LoggedWithin.logPacked {n : Nat} {s : State} {u c : Nat} (h : LoggedWithin n s u c) (hn : n < 2048) (u' c' : Nat) (o v : List (Nat × Nat)) :
    LoggedWithin (n + 1) (s.logPacked u' c' o v) u c := by
  obtain ⟨e, he, hs⟩ := h
  refine ⟨e, ?_, hs⟩
  show e ∈ ((_ :: s.log).take 2048).take (n + 1)
  rw [List.take_take, Nat.min_eq_left (by omega), List.take_succ_cons]
  exact List.mem_cons_of_mem _ he

theorem LoggedWithin.stage {n : Nat} {s : State} {u c : Nat} (h : LoggedWithin n s u c) (hn : n < 2048) (k : Nat) :
    LoggedWithin (n + 1) (enterStage k s) u c := (h.of_log (t := s.put Fld.glbBootStsStage k) rfl).logPacked hn _ _ _ _

theorem LoggedWithin.stages {n : Nat} {s : State} {u c : Nat} (h : LoggedWithin n s u c) (l : List Nat) (hn : n + l.length < 2048) :
    LoggedWithin (n + l.length) (l.foldl (fun s k => enterStage k s) s) u c := by
  induction l generalizing s n with
  | nil => exact h
  | cons k l ih =>
    rw [List.length_cons] at hn ⊢
    have := ih (h.stage (by omega) k) (by omega)
    rwa [Nat.add_assoc, Nat.add_comm 1] at this

/-! ## The stage of start-up (R118) -/

theorem leastStage_le (s : State) : leastStage s ≤ lastStage s := by
  unfold leastStage
  generalize s.ch.filter (fun e => e.2.alive != 0) = l
  generalize lastStage s = m
  induction l generalizing m with
  | nil => exact Nat.le_refl _
  | cons e l ih => exact (ih _).trans (Nat.min_le_left _ _)

theorem leastStage_lt (s : State) : leastStage s < 8 := by
  have h := leastStage_le s
  unfold lastStage at h
  split at h <;> omega

theorem leastStage_of_parts {s t : State} (hch : t.ch = s.ch) (hpwr : t.pwr = s.pwr) : leastStage t = leastStage s := by
  unfold leastStage lastStage
  rw [hch, hpwr]

/-- Each stage that the least advanced channel has passed is entered. -/
def stagesEntered (s : State) : State :=
  ((List.range (leastStage s + 1)).filter fun k => decide (s.stage < k ∧ 3 ≤ k)).foldl (fun s k => enterStage k s) s

/-- The MAP stage as it begins: the time is noted and the image is let go. -/
def mapBegun (s : State) : State :=
  ({ s with md := { s.md with mapAt := s.now, dramOk := false }, img := { s.img with copy := none } } : State).putFlag Fld.glbBootStsDemandMap (geoDemand s.img.geo)

theorem raiseStage_eq (s : State) : raiseStage s =
    if (stagesEntered s).stage = 7 ∧ (stagesEntered s).md.mapAt = 0 then mapBegun (stagesEntered s) else stagesEntered s := rfl

theorem foldl_enterStage_rest (l : List Nat) (s : State) :
    l.foldl (fun s k => enterStage k s) s = { s with
      regs := (l.foldl (fun s k => enterStage k s) s).regs
      log := (l.foldl (fun s k => enterStage k s) s).log } := by
  induction l generalizing s with
  | nil => rfl
  | cons k l ih =>
    rw [List.foldl_cons]
    exact ih (enterStage k s)

theorem foldl_enterStage_get (l : List Nat) (s : State) {f : Fld} (hl : f.kind ≠ .glbLogSeq) (hf : f.kind ≠ .glbBootSts ∨ 3 < f.lo ∧ f.hi < 32) (i : Nat) :
    (l.foldl (fun s k => enterStage k s) s).get f i = s.get f i := by
  induction l generalizing s with
  | nil => rfl
  | cons k l ih => exact (ih _).trans (enterStage_get k s hl hf i)

theorem stagesEntered_stage (s : State) : (stagesEntered s).stage = if 3 ≤ leastStage s then max s.stage (leastStage s) else s.stage := by
  unfold stagesEntered
  have hlt := leastStage_lt s
  generalize hn : leastStage s = n at hlt
  rw [List.range_succ, List.filter_append, List.foldl_append]
  by_cases h : s.stage < n ∧ 3 ≤ n
  · rw [List.filter_cons_of_pos (by simpa using h), List.filter_nil, if_pos h.2, Nat.max_eq_right (by omega)]
    exact State.stage_enterStage _ (by omega)
  · have hnil : (List.range n).filter (fun k => decide (s.stage < k ∧ 3 ≤ k)) = [] := by
      rw [List.filter_eq_nil_iff]
      intro k hk
      have := List.mem_range.mp hk
      rw [decide_eq_true_eq]
      omega
    rw [hnil, List.filter_cons_of_neg (by simpa using h), List.filter_nil]
    show s.stage = _
    by_cases h3 : 3 ≤ n
    · rw [if_pos h3, Nat.max_eq_left (by omega)]
    · rw [if_neg h3]

theorem raiseStage_rest (s : State) : raiseStage s = { s with
    regs := (raiseStage s).regs
    log := (raiseStage s).log
    md := { s.md with mapAt := (raiseStage s).md.mapAt, dramOk := (raiseStage s).md.dramOk }
    img := { s.img with copy := (raiseStage s).img.copy } } := by
  have h := foldl_enterStage_rest ((List.range (leastStage s + 1)).filter fun k => decide (s.stage < k ∧ 3 ≤ k)) s
  rw [raiseStage_eq]
  unfold stagesEntered mapBegun
  split
  · rw [h]
    rfl
  · rw [h]

/-- What a register says but the stage of start-up and DEMAND_MAP stays. -/
theorem raiseStage_get (s : State) {f : Fld} (hl : f.kind ≠ .glbLogSeq) (hf : f.kind ≠ .glbBootSts ∨ (3 < f.lo ∧ f.hi < 13) ∨ (13 < f.lo ∧ f.hi < 32)) (i : Nat) :
    (raiseStage s).get f i = s.get f i := by
  have h := foldl_enterStage_get ((List.range (leastStage s + 1)).filter fun k => decide (s.stage < k ∧ 3 ≤ k)) s hl (hf.imp_right fun h => by omega) i
  rw [raiseStage_eq]
  split
  · refine Eq.trans ?_ h
    rcases hf with hk | ⟨-, hlt⟩ | ⟨hlt, hhi⟩
    · exact (State.get_putFlag_kind _ hk _ _ _).trans (State.get_of_regs rfl _ _)
    · exact (State.get_putFlag_field _ (Or.inl hlt) (by omega) _ _ _).trans (State.get_of_regs rfl _ _)
    · exact (State.get_putFlag_field _ (Or.inr hlt) hhi _ _ _).trans (State.get_of_regs rfl _ _)
  · exact h

theorem raiseStage_flag (s : State) {f : Fld} (hl : f.kind ≠ .glbLogSeq) (hf : f.kind ≠ .glbBootSts ∨ (3 < f.lo ∧ f.hi < 13) ∨ (13 < f.lo ∧ f.hi < 32)) (i : Nat) :
    (raiseStage s).flag f i = s.flag f i := congrArg (· != 0) (raiseStage_get s hl hf i)

theorem raiseStage_ch (s : State) : (raiseStage s).ch = s.ch := (congrArg State.ch (raiseStage_rest s) :)

theorem raiseStage_pwr (s : State) : (raiseStage s).pwr = s.pwr := (congrArg State.pwr (raiseStage_rest s) :)

theorem raiseStage_chan (s : State) (c : Nat) : (raiseStage s).chan c = s.chan c := by
  unfold State.chan
  rw [raiseStage_ch]

/-- GLB_BOOT_STS.STAGE follows the least advanced channel. -/
theorem raiseStage_stage (s : State) : (raiseStage s).stage = if 3 ≤ leastStage (raiseStage s) then max s.stage (leastStage (raiseStage s)) else s.stage := by
  rw [leastStage_of_parts (raiseStage_ch s) (raiseStage_pwr s), ← stagesEntered_stage, raiseStage_eq]
  split
  · exact (State.get_putFlag_field _ (Or.inl (by decide)) (by decide) _ _ _).trans (State.get_of_regs rfl _ _)
  · rfl

theorem LoggedWithin.raise {n : Nat} {s : State} {u c : Nat} (h : LoggedWithin n s u c) (hn : n < 2000) : LoggedWithin (n + 8) (raiseStage s) u c := by
  have hlen := List.length_filter_le (fun k => decide (s.stage < k ∧ 3 ≤ k)) (List.range (leastStage s + 1))
  rw [List.length_range] at hlen
  have hlt := leastStage_lt s
  obtain ⟨e, he, hs⟩ := h.stages ((List.range (leastStage s + 1)).filter fun k => decide (s.stage < k ∧ 3 ≤ k)) (by omega)
  have hlog : (raiseStage s).log = (stagesEntered s).log := by
    rw [raiseStage_eq]
    split <;> rfl
  refine ⟨e, ?_, hs⟩
  rw [hlog]
  exact List.take_subset_take_left _ (by omega) he

end Sys2Proof.Machine
end

section
/-! SUPPORT. Targets reset: what TARGET_RESET leaves in the channels (O53). -/
namespace Sys2Proof.Machine

/-! ## Targets as bits of a byte -/

theorem getLsbD_targetBit {i : Nat} (hi : i < 8) (t : Nat) : (1#8 <<< t).getLsbD i = decide (i = t) := by
  rw [BitVec.getLsbD_shiftLeft, BitVec.getLsbD_one]
  by_cases h : i = t
  · simp [h, h ▸ hi]
  · by_cases hlt : i < t <;> simp [h, hi, hlt]
    omega

theorem getLsbD_without {i : Nat} (hi : i < 8) (b : BitVec 8) (t : Nat) : (b &&& ~~~(1#8 <<< t)).getLsbD i = (b.getLsbD i && decide (i ≠ t)) := by
  rw [BitVec.getLsbD_and, BitVec.getLsbD_not, getLsbD_targetBit hi]
  by_cases h : i = t <;> simp [h, hi]

/-- Bits of targets set, and taken away, one after another. -/
theorem getLsbD_targetBits {i : Nat} (hi : i < 8) (l : List Nat) (b : BitVec 8) : (l.foldl (fun a t => a ||| (1#8 <<< t)) b).getLsbD i = (b.getLsbD i || decide (i ∈ l)) := by
  induction l generalizing b with
  | nil => simp
  | cons t l ih =>
    rw [List.foldl_cons, ih, BitVec.getLsbD_or, getLsbD_targetBit hi]
    by_cases h : i = t <;> simp [h]

theorem getLsbD_withoutBits {i : Nat} (hi : i < 8) (l : List Nat) (b : BitVec 8) :
    (l.foldl (fun b t => b &&& ~~~(1#8 <<< t)) b).getLsbD i = (b.getLsbD i && !decide (i ∈ l)) := by
  induction l generalizing b with
  | nil => simp
  | cons t l ih =>
    rw [List.foldl_cons, ih, getLsbD_without hi]
    by_cases h : i = t <;> simp [h]

theorem find_foldl_put {α : Type} (l : List Nat) (v : α) (m : Tab α) (i : Nat) :
    Tab.find i (l.foldl (fun m t => Tab.put t v m) m) = if i ∈ l then some v else Tab.find i m := by
  induction l generalizing m with
  | nil => simp
  | cons t l ih =>
    rw [List.foldl_cons, ih]
    by_cases hl : i ∈ l
    · rw [if_pos hl, if_pos (List.mem_cons_of_mem _ hl)]
    · by_cases h : i = t
      · subst h
        rw [if_neg hl, if_pos List.mem_cons_self, Tab.find_put_same]
      · rw [if_neg hl, if_neg (by simp [h, hl]), Tab.find_put_ne h]

/-! ## Pins driven in start-up -/

/-- Only the pins of channel `c`, its latch and what it holds moved: how far its start-up has come did not. -/
structure PinsOnly (c : Nat) (s t : State) : Prop where
  rest : t = { s with ch := t.ch }
  others : ∀ d, d ≠ c → t.chan d = s.chan d
  wpN : (t.chan c).wpN = (s.chan c).wpN
  stage : (t.chan c).stage = (s.chan c).stage
  alive : (t.chan c).alive = (s.chan c).alive
  bootAt : (t.chan c).bootAt = (s.chan c).bootAt
  rb : (t.chan c).rb = (s.chan c).rb
  rstAt : (t.chan c).rstAt = (s.chan c).rstAt
  adv : (t.chan c).adv = (s.chan c).adv

namespace PinsOnly
variable {c : Nat} {s t u : State}

theorem refl (s : State) : PinsOnly c s s := ⟨rfl, fun _ _ => rfl, rfl, rfl, rfl, rfl, rfl, rfl, rfl⟩

theorem trans (h : PinsOnly c s t) (g : PinsOnly c t u) : PinsOnly c s u := by
  refine ⟨?_, fun d hd => (g.others d hd).trans (h.others d hd), g.wpN.trans h.wpN, g.stage.trans h.stage, g.alive.trans h.alive, g.bootAt.trans h.bootAt,
    g.rb.trans h.rb, g.rstAt.trans h.rstAt, g.adv.trans h.adv⟩
  rw [g.rest, h.rest]

theorem setChan {x : Chan} (hwp : x.wpN = (s.chan c).wpN) (hst : x.stage = (s.chan c).stage) (hal : x.alive = (s.chan c).alive)
    (hat : x.bootAt = (s.chan c).bootAt) (hrb : x.rb = (s.chan c).rb) (hrst : x.rstAt = (s.chan c).rstAt)
    (hadv : x.adv = (s.chan c).adv) : PinsOnly c s (s.setChan c x) := by
  refine ⟨rfl, fun d hd => State.chan_setChan_ne s hd x, ?_, ?_, ?_, ?_, ?_, ?_, ?_⟩ <;> rw [State.chan_setChan_same] <;> assumption

theorem busPut (b : BusCyc) (s : State) : PinsOnly c s (busPut c b s) := setChan rfl rfl rfl rfl rfl rfl rfl

theorem raiseCe (s : State) : PinsOnly c s (raiseCe c s) := setChan rfl rfl rfl rfl rfl rfl rfl

end PinsOnly

/-! ## The reset of targets (R96, R153) -/

def targetMask (l : List Nat) : Nat := (l.map (2 ^ ·)).foldl (· + ·) 0

/-- ESCAPE to those that are KX-qualified, then RESET to all. -/
def resetSent (c : Nat) (l : List Nat) (s : State) : State :=
  let kx := l.filter fun t => (s.profileAt (c * 8 + t)).kxQual
  let s := if kx.isEmpty then s else busPut c (.escape (targetMask kx)) s
  raiseCe c (busPut c (.cmd (targetMask l) 0xFF) s)

/-- The LUNs of a target stand as after a reset. -/
def lunsForgotten (c : Nat) (s : State) (t : Nat) : State :=
  (List.range 4).foldl (fun s i => s.setLun (lunKey c t i) { s.lun (lunKey c t i) with lastOfs := none, sensed := [] }) s

/-- The targets are busy, and their reset is noted. -/
def resetNoted (c : Nat) (l : List Nat) (s : State) : State := s.setChan c { s.chan c with
  rb := l.foldl (fun b t => b &&& ~~~(1#8 <<< t)) (s.chan c).rb
  rstAt := l.foldl (fun m t => Tab.put t s.now m) (s.chan c).rstAt }

theorem resetTargets_eq (c : Nat) (l : List Nat) (s : State) :
    resetTargets c l s = if l.isEmpty then s else resetNoted c l (l.foldl (lunsForgotten c) (resetSent c l s)) := rfl

theorem resetSent_pins (c : Nat) (l : List Nat) (s : State) : PinsOnly c s (resetSent c l s) ∧ ((resetSent c l s).chan c).pins.ceN = 0xFF := by
  unfold resetSent
  dsimp only
  refine ⟨?_, by rw [raiseCe, State.chan_setChan_same]⟩
  split
  · exact (PinsOnly.busPut _ _).trans (PinsOnly.raiseCe _)
  · exact ((PinsOnly.busPut _ _).trans (PinsOnly.busPut _ _)).trans (PinsOnly.raiseCe _)

/-- Steps that each change LUNs alone change LUNs alone. -/
theorem foldl_lunsOnly {f : State → Nat → State} (hf : ∀ s k, f s k = { s with md := { s.md with luns := (f s k).md.luns } }) (l : List Nat) (s : State) :
    l.foldl f s = { s with md := { s.md with luns := (l.foldl f s).md.luns } } := by
  induction l generalizing s with
  | nil => rfl
  | cons t l ih =>
    rw [List.foldl_cons]
    exact State.lunsOnly_trans (hf s t) (ih (f s t))

theorem foldl_lunsForgotten_rest (c : Nat) (l : List Nat) (s : State) :
    l.foldl (lunsForgotten c) s = { s with md := { s.md with luns := (l.foldl (lunsForgotten c) s).md.luns } } :=
  foldl_lunsOnly (fun s _ => foldl_lunsOnly (fun _ _ => rfl) (List.range 4) s) l s

/-- Targets of channel `c` reset: their FL_RB_N is low and the time noted, and nothing else of start-up has moved. -/
structure TargetsReset (c : Nat) (l : List Nat) (s t : State) : Prop where
  rest : t = { s with ch := t.ch, md := { s.md with luns := t.md.luns } }
  others : ∀ d, d ≠ c → t.chan d = s.chan d
  wpN : (t.chan c).wpN = (s.chan c).wpN
  stage : (t.chan c).stage = (s.chan c).stage
  alive : (t.chan c).alive = (s.chan c).alive
  bootAt : (t.chan c).bootAt = (s.chan c).bootAt
  ceN : (s.chan c).pins.ceN = 0xFF → (t.chan c).pins.ceN = 0xFF
  rb : ∀ i, i < 8 → (t.chan c).rb.getLsbD i = ((s.chan c).rb.getLsbD i && !decide (i ∈ l))
  rstAt : ∀ i, Tab.find i (t.chan c).rstAt = if i ∈ l then some s.now else Tab.find i (s.chan c).rstAt

theorem resetNoted_resets {c : Nat} {l : List Nat} {s u : State} (hp : PinsOnly c s u) (hce : (u.chan c).pins.ceN = 0xFF) :
    TargetsReset c l s (resetNoted c l (l.foldl (lunsForgotten c) u)) := by
  have hrest := foldl_lunsForgotten_rest c l u
  generalize hv : l.foldl (lunsForgotten c) u = v at hrest
  have hch (d : Nat) : v.chan d = u.chan d := by
    unfold State.chan
    rw [hrest]
  have hvtime : v.time = u.time := (congrArg State.time hrest :)
  have hutime : u.time = s.time := (congrArg State.time hp.rest :)
  have htime : v.now = s.now := congrArg BitVec.toNat (hvtime.trans hutime)
  have hmine : (resetNoted c l v).chan c = { u.chan c with
      rb := l.foldl (fun b t => b &&& ~~~(1#8 <<< t)) (u.chan c).rb
      rstAt := l.foldl (fun m t => Tab.put t s.now m) (u.chan c).rstAt } := by
    rw [resetNoted, State.chan_setChan_same, hch, htime]
  refine ⟨?_, fun d hd => ?_, ?_, ?_, ?_, ?_, fun _ => ?_, fun i hi => ?_, fun i => ?_⟩
  · have hset : resetNoted c l v = { v with ch := (resetNoted c l v).ch } := rfl
    have hluns : (resetNoted c l v).md.luns = v.md.luns := rfl
    rw [hluns, hset, hrest, hp.rest]
  · rw [resetNoted, State.chan_setChan_ne _ hd, hch, hp.others d hd]
  · rw [hmine]; exact hp.wpN
  · rw [hmine]; exact hp.stage
  · rw [hmine]; exact hp.alive
  · rw [hmine]; exact hp.bootAt
  · rw [hmine]; exact hce
  · rw [hmine, ← hp.rb]; exact getLsbD_withoutBits hi l _
  · rw [hmine, ← hp.rstAt]; exact find_foldl_put l _ _ i

theorem targetsReset (c : Nat) (l : List Nat) (s : State) : TargetsReset c l s (resetTargets c l s) := by
  rw [resetTargets_eq]
  cases l with
  | nil => exact ⟨rfl, fun _ _ => rfl, rfl, rfl, rfl, rfl, id, fun i _ => by simp, fun i => by simp⟩
  | cons t l =>
    obtain ⟨hp, hce⟩ := resetSent_pins c (t :: l) s
    exact resetNoted_resets hp hce

end Sys2Proof.Machine
end

section
/-! PROOFS. TARGET_RESET: every channel's ready targets are reset (O53). -/
namespace Sys2Proof.Machine

theorem State.reg_put_apart (s : State) {g : Fld} {k : RegKind} {i l : Nat} (h : k = g.kind → l ≠ i) (v : Nat) : (s.put g v i).reg k l = s.reg k l := by
  by_cases hk : k = g.kind
  · exact State.reg_setReg_index s (h hk) _ _ _
  · exact State.reg_setReg_kind s hk _ _ _

/-! ## One channel enters TARGET_RESET (R94, R96) -/

/-- The targets of a channel that start-up takes, and FL_RB_N of the channel's targets. -/
def fittedTargets (s : State) (e : Nat × Topo) : List Nat :=
  (List.range 8).filter fun t => e.2.present.testBit t && (!s.pwr.waking || s.flag Fld.stkTgtcfgOnline (e.1 * 8 + t))

def readyBits (rb : List (Nat × BitVec 8)) (c : Nat) : BitVec 8 := ((rb.find? fun x => x.1 == c).map (·.2)).getD 0xFF

def kxCleared (c : Nat) (l : List Nat) (s : State) : State := l.foldl (fun s t => s.putFlag Fld.stkTgtcfgKx false (c * 8 + t)) s

def modeCleared (c : Nat) (s : State) : State := (s.put Fld.stkChmodeCurMode 0 c).put Fld.stkChmodeCurRate (sdrRate 0) c

/-- The channel as it begins, before its ready targets are reset. -/
def bootChan (b : BitVec 8) (l : List Nat) (now : Nat) (x : Chan) : Chan := { x with
  wpN := true
  pins := {}
  rb := b
  latch := none
  caSlow := 0
  stage := 3
  alive := l.foldl (fun a t => a ||| (1#8 <<< t)) 0
  bootAt := now
  rstAt := [] }

def chanBegun (c : Nat) (b : BitVec 8) (l : List Nat) (s : State) : State := s.setChan c (bootChan b l s.now (s.chan c))

theorem resetChannel_eq (rb : List (Nat × BitVec 8)) (s : State) (e : Nat × Topo) : resetChannel rb s e =
    resetTargets e.1 ((fittedTargets s e).filter (readyBits rb e.1).getLsbD)
      (chanBegun e.1 (readyBits rb e.1) (fittedTargets s e) (modeCleared e.1 (kxCleared e.1 (fittedTargets s e) s))) := rfl

theorem mem_fittedTargets {s : State} {e : Nat × Topo} {i : Nat} (hi : i < 8) :
    decide (i ∈ fittedTargets s e) = (e.2.present.testBit i && (!s.pwr.waking || s.flag Fld.stkTgtcfgOnline (e.1 * 8 + i))) := by
  simp [fittedTargets, hi]

theorem fittedTargets_lt {s : State} {e : Nat × Topo} {i : Nat} (h : i ∈ fittedTargets s e) : i < 8 :=
  List.mem_range.mp (List.mem_filter.mp h).1

/-- What a channel's reset leaves: the time, the image and the power state, who is online, and every other channel. -/
structure ResetStep (c : Nat) (s t : State) : Prop where
  time : t.time = s.time
  pwr : t.pwr = s.pwr
  img : t.img = s.img
  online : ∀ i, t.flag Fld.stkTgtcfgOnline i = s.flag Fld.stkTgtcfgOnline i
  regs : ∀ k i, (k = .stkTgtcfg → i / 8 ≠ c) → (k = .stkChmode → i ≠ c) → t.reg k i = s.reg k i
  others : ∀ d, d ≠ c → t.chan d = s.chan d

namespace ResetStep
variable {c : Nat} {s t u : State}

theorem refl (s : State) : ResetStep c s s := ⟨rfl, rfl, rfl, fun _ => rfl, fun _ _ _ _ => rfl, fun _ _ => rfl⟩

theorem trans (h : ResetStep c s t) (g : ResetStep c t u) : ResetStep c s u :=
  ⟨g.time.trans h.time, g.pwr.trans h.pwr, g.img.trans h.img, fun i => (g.online i).trans (h.online i),
    fun k i hk hm => (g.regs k i hk hm).trans (h.regs k i hk hm), fun d hd => (g.others d hd).trans (h.others d hd)⟩

theorem putKx {t : Nat} (ht : t < 8) (s : State) : ResetStep c s (s.putFlag Fld.stkTgtcfgKx false (c * 8 + t)) := by
  refine ⟨rfl, rfl, rfl, fun i => State.flag_putFlag_field _ (by decide) (by decide) _ _ _, fun k i hk _ => ?_, fun _ _ => rfl⟩
  exact State.reg_put_apart s (fun h => by have := hk h; omega) _

theorem kxCleared {l : List Nat} (hl : ∀ i ∈ l, i < 8) (s : State) : ResetStep c s (kxCleared c l s) := by
  unfold Machine.kxCleared
  induction l generalizing s with
  | nil => exact refl s
  | cons t l ih =>
    rw [List.foldl_cons]
    exact (putKx (hl t List.mem_cons_self) s).trans (ih (fun i hi => hl i (List.mem_cons_of_mem _ hi)) _)

theorem modeCleared (s : State) : ResetStep c s (modeCleared c s) := by
  refine ⟨rfl, rfl, rfl, fun i => ?_, fun k i _ hm => ?_, fun _ _ => rfl⟩
  · exact (State.flag_put_kind _ (by decide) _ _ _).trans (State.flag_put_kind _ (by decide) _ _ _)
  · exact (State.reg_put_apart _ hm _).trans (State.reg_put_apart s hm _)

theorem chanBegun (b : BitVec 8) (l : List Nat) (s : State) : ResetStep c s (chanBegun c b l s) :=
  ⟨rfl, rfl, rfl, fun _ => rfl, fun _ _ _ _ => rfl, fun _ hd => State.chan_setChan_ne s hd _⟩

theorem of_targets {l : List Nat} (h : TargetsReset c l s t) : ResetStep c s t := by
  have hregs : t.regs = s.regs := (congrArg State.regs h.rest :)
  exact ⟨(congrArg State.time h.rest :), (congrArg State.pwr h.rest :), (congrArg State.img h.rest :), fun i => State.flag_of_regs hregs _ i,
    fun k i _ _ => State.reg_of_regs hregs k i, h.others⟩

theorem resetChannel (rb : List (Nat × BitVec 8)) (s : State) (e : Nat × Topo) : ResetStep e.1 s (resetChannel rb s e) := by
  rw [resetChannel_eq]
  exact (((kxCleared (fun _ => fittedTargets_lt) s).trans (modeCleared _)).trans (chanBegun _ _ _)).trans (of_targets (targetsReset _ _ _))

end ResetStep

/-- A channel in TARGET_RESET, as seen from the state `s` in which the stage began. -/
structure InReset (rb : List (Nat × BitVec 8)) (s : State) (e : Nat × Topo) (t : State) : Prop where
  wpN : (t.chan e.1).wpN = true
  ceN : (t.chan e.1).pins.ceN = 0xFF
  mode : t.get Fld.stkChmodeCurMode e.1 = 0
  rate : t.get Fld.stkChmodeCurRate e.1 = sdrRate 0
  stage : (t.chan e.1).stage = 3
  bootAt : (t.chan e.1).bootAt = s.now
  alive : ∀ i, i < 8 → isAlive t e.1 i = decide (i ∈ fittedTargets s e)
  kx : ∀ i, i ∈ fittedTargets s e → t.flag Fld.stkTgtcfgKx (e.1 * 8 + i) = false
  rstAt : ∀ i, i ∈ fittedTargets s e → Tab.find i (t.chan e.1).rstAt = if (readyBits rb e.1).getLsbD i then some s.now else none

theorem kxCleared_clears {c : Nat} {l : List Nat} {i : Nat} (hi : i ∈ l) (s : State) : (kxCleared c l s).flag Fld.stkTgtcfgKx (c * 8 + i) = false := by
  refine foldl_settles (f := fun s t => s.putFlag Fld.stkTgtcfgKx false (c * 8 + t)) (P := fun t u => u.flag Fld.stkTgtcfgKx (c * 8 + t) = false)
    (fun s t => State.flag_putFlag s _ rfl (by decide) _ _) (fun s j k h => ?_) l s i hi
  by_cases hjk : k = j
  · subst hjk
    exact State.flag_putFlag s _ rfl (by decide) _ _
  · exact (congrArg (· != 0) (State.get_put_index s (by omega) _ _ _)).trans h

theorem modeCleared_reads (c : Nat) (s : State) : (modeCleared c s).get Fld.stkChmodeCurMode c = 0 ∧ (modeCleared c s).get Fld.stkChmodeCurRate c = sdrRate 0 := by
  unfold modeCleared
  refine ⟨?_, State.get_put_same _ _ (by decide) _ _⟩
  rw [State.get_put_field _ (by decide) (by decide), State.get_put_same _ _ (by decide)]
  rfl

theorem resetChannel_inReset (rb : List (Nat × BitVec 8)) (s : State) (e : Nat × Topo) : InReset rb s e (resetChannel rb s e) := by
  rw [resetChannel_eq]
  generalize hl : fittedTargets s e = l
  have hstep := (ResetStep.kxCleared (fun i hi => fittedTargets_lt (hl ▸ hi)) s).trans (ResetStep.modeCleared (kxCleared e.1 l s))
  have hkx : ∀ i, i ∈ l → (modeCleared e.1 (kxCleared e.1 l s)).flag Fld.stkTgtcfgKx (e.1 * 8 + i) = false := fun i hi =>
    ((State.flag_put_kind _ (by decide) _ _ _).trans (State.flag_put_kind _ (by decide) _ _ _)).trans (kxCleared_clears hi s)
  have hmode := modeCleared_reads e.1 (kxCleared e.1 l s)
  generalize modeCleared e.1 (kxCleared e.1 l s) = u at hstep hkx hmode
  have hnow : u.now = s.now := congrArg BitVec.toNat hstep.time
  have hr := targetsReset e.1 (l.filter (readyBits rb e.1).getLsbD) (chanBegun e.1 (readyBits rb e.1) l u)
  have hregs : (resetTargets e.1 (l.filter (readyBits rb e.1).getLsbD) (chanBegun e.1 (readyBits rb e.1) l u)).regs = u.regs := (congrArg State.regs hr.rest :)
  have hchan : (chanBegun e.1 (readyBits rb e.1) l u).chan e.1 = bootChan (readyBits rb e.1) l s.now (u.chan e.1) := by rw [chanBegun, State.chan_setChan_same, hnow]
  have htime : (chanBegun e.1 (readyBits rb e.1) l u).now = s.now := hnow
  refine ⟨?_, ?_, ?_, ?_, ?_, ?_, fun i hi => ?_, fun i hi => ?_, fun i hi => ?_⟩
  · rw [hr.wpN, hchan]; rfl
  · exact hr.ceN (by rw [hchan]; rfl)
  · exact (State.get_of_regs hregs _ _).trans hmode.1
  · exact (State.get_of_regs hregs _ _).trans hmode.2
  · rw [hr.stage, hchan]; rfl
  · rw [hr.bootAt, hchan]; rfl
  · rw [isAlive, hr.alive, hchan, hl]
    exact (getLsbD_targetBits hi l 0).trans (by simp)
  · exact (State.flag_of_regs hregs _ _).trans (hkx i (hl ▸ hi))
  · have hmem : i ∈ l := hl ▸ hi
    rw [hr.rstAt, hchan, htime]
    simp only [List.mem_filter, hmem, true_and]
    rfl

theorem InReset.keep {rb : List (Nat × BitVec 8)} {s t u : State} {e : Nat × Topo} {c : Nat} (h : InReset rb s e t) (hne : e.1 ≠ c) (g : ResetStep c t u) :
    InReset rb s e u := by
  have hch := g.others e.1 hne
  have hmode (f : Fld) (hf : f.kind = .stkChmode) : u.get f e.1 = t.get f e.1 :=
    congrArg f.get (g.regs f.kind e.1 (fun h => absurd (hf.symm.trans h) (by decide)) fun _ => hne)
  refine ⟨?_, ?_, (hmode _ rfl).trans h.mode, (hmode _ rfl).trans h.rate, ?_, ?_, fun i hi => ?_, fun i hi => ?_, fun i hi => ?_⟩
  · rw [hch]; exact h.wpN
  · rw [hch]; exact h.ceN
  · rw [hch]; exact h.stage
  · rw [hch]; exact h.bootAt
  · rw [isAlive, hch]; exact h.alive i hi
  · have hlt := fittedTargets_lt hi
    refine Eq.trans (congrArg (fun w => Fld.stkTgtcfgKx.get w != 0) (g.regs .stkTgtcfg (e.1 * 8 + i) (fun _ => ?_) fun h => absurd h (by decide))) (h.kx i hi)
    omega
  · rw [hch]; exact h.rstAt i hi

/-- What the whole stage leaves: the time, the image and the power state, who is online, and the registers of other kinds. -/
structure ResetsKept (s t : State) : Prop where
  time : t.time = s.time
  pwr : t.pwr = s.pwr
  img : t.img = s.img
  online : ∀ i, t.flag Fld.stkTgtcfgOnline i = s.flag Fld.stkTgtcfgOnline i
  regs : ∀ k i, k ≠ .stkTgtcfg → k ≠ .stkChmode → t.reg k i = s.reg k i

theorem ResetsKept.of_step {c : Nat} {s t : State} (h : ResetStep c s t) : ResetsKept s t :=
  ⟨h.time, h.pwr, h.img, h.online, fun k i hk hm => h.regs k i (fun e => absurd e hk) (fun e => absurd e hm)⟩

theorem ResetsKept.trans {s t u : State} (h : ResetsKept s t) (g : ResetsKept t u) : ResetsKept s u :=
  ⟨g.time.trans h.time, g.pwr.trans h.pwr, g.img.trans h.img, fun i => (g.online i).trans (h.online i), fun k i hk hm => (g.regs k i hk hm).trans (h.regs k i hk hm)⟩

/-- The targets that start-up takes, and the time, are those of the state in which the stage began. -/
theorem InReset.of_kept {rb : List (Nat × BitVec 8)} {s u t : State} {e : Nat × Topo} (hk : ResetsKept s u) (h : InReset rb u e t) : InReset rb s e t := by
  have hf : fittedTargets u e = fittedTargets s e := by
    unfold fittedTargets
    rw [hk.pwr]
    simp only [hk.online]
  have hnow : u.now = s.now := congrArg BitVec.toNat hk.time
  have hal := h.alive
  have hkx := h.kx
  have hrst := h.rstAt
  rw [hf] at hal hkx hrst
  rw [hnow] at hrst
  exact ⟨h.wpN, h.ceN, h.mode, h.rate, h.stage, h.bootAt.trans hnow, hal, hkx, hrst⟩

theorem InReset.foldl {rb : List (Nat × BitVec 8)} {s : State} {e : Nat × Topo} {l : List (Nat × Topo)} (hne : e.1 ∉ l.map Prod.fst) {t : State}
    (h : InReset rb s e t) : InReset rb s e (l.foldl (resetChannel rb) t) := by
  induction l generalizing t with
  | nil => exact h
  | cons a l ih =>
    rw [List.map_cons, List.mem_cons, not_or] at hne
    exact ih hne.2 (h.keep hne.1 (ResetStep.resetChannel rb t a))

theorem foldl_resetChannel (rb : List (Nat × BitVec 8)) {l : List (Nat × Topo)} (hn : (l.map Prod.fst).Nodup) (s : State) :
    ResetsKept s (l.foldl (resetChannel rb) s) ∧ ∀ e ∈ l, InReset rb s e (l.foldl (resetChannel rb) s) := by
  induction l generalizing s with
  | nil => exact ⟨⟨rfl, rfl, rfl, fun _ => rfl, fun _ _ _ _ => rfl⟩, fun e he => nomatch he⟩
  | cons a l ih =>
    obtain ⟨hna, hnl⟩ := List.nodup_cons.mp hn
    have hstep := ResetsKept.of_step (ResetStep.resetChannel rb s a)
    obtain ⟨hk, hall⟩ := ih hnl (resetChannel rb s a)
    refine ⟨hstep.trans hk, fun e he => ?_⟩
    rcases List.mem_cons.mp he with rfl | he
    · exact (resetChannel_inReset rb s e).foldl hna
    · exact (hall e he).of_kept hstep

/-- The last thing that happens leaves the channels and their registers. -/
theorem InReset.raise {rb : List (Nat × BitVec 8)} {s t : State} {e : Nat × Topo} (h : InReset rb s e t) : InReset rb s e (raiseStage t) := by
  have hch := raiseStage_chan t e.1
  refine ⟨?_, ?_, (raiseStage_get t (by decide) (Or.inl (by decide)) _).trans h.mode, (raiseStage_get t (by decide) (Or.inl (by decide)) _).trans h.rate, ?_, ?_,
    fun i hi => ?_, fun i hi => (raiseStage_flag t (by decide) (Or.inl (by decide)) _).trans (h.kx i hi), fun i hi => ?_⟩
  · rw [hch]; exact h.wpN
  · rw [hch]; exact h.ceN
  · rw [hch]; exact h.stage
  · rw [hch]; exact h.bootAt
  · rw [isAlive, hch]; exact h.alive i hi
  · rw [hch]; exact h.rstAt i hi

/-- TARGET_RESET (R94 to R96, R118): every channel of the topology is in it, and GLB_BOOT_STS.STAGE follows. -/
theorem targetResetStage_spec {s : State} (hrun : s.running = true) (h2 : s.stage = 2) (hfw : s.fwUp = true) (hn : (s.img.topo.map Prod.fst).Nodup)
    (rb : List (Nat × BitVec 8)) : ∃ t, exec (.targetResetStage rb) s = .next t ∧ (∀ e ∈ s.img.topo, InReset rb s e t) ∧
      t.stage = if 3 ≤ leastStage t then max s.stage (leastStage t) else s.stage := by
  obtain ⟨hk, hall⟩ := foldl_resetChannel rb hn s
  refine ⟨raiseStage (s.img.topo.foldl (resetChannel rb) s), ?_, fun e he => (hall e he).raise, ?_⟩
  · have hg : (s.running && s.stage == 2 && s.fwUp) = true := by
      rw [hrun, h2, hfw]
      rfl
    show execTargetResetStage rb s = _
    unfold execTargetResetStage
    rw [hg]
    exact onlyIf_true _ _
  · rw [raiseStage_stage]
    have hst : (s.img.topo.foldl (resetChannel rb) s).stage = s.stage :=
      congrArg Fld.glbBootStsStage.get (hk.regs .glbBootSts 0 (by decide) (by decide))
    rw [hst]

end Sys2Proof.Machine
end

section
/-! PROOFS. A target leaves start-up: the waits of TARGET_RESET (O53). -/
namespace Sys2Proof.Machine

/-! ## A target taken offline -/

theorem tgtIdx_lunKey (c : Nat) {t l : Nat} (_ : t < 8) (_ : l < 4) : tgtIdx (lunKey c t l) = c * 8 + t := by
  unfold tgtIdx lunCh lunTgt lunKey
  omega

/-- Only STK_TGTCFG of one target, the log and the queue of LUNs that have gone moved. -/
structure OffStep (n : Nat) (s t : State) : Prop where
  rest : t = { s with
    regs := t.regs
    log := t.log
    md := { s.md with offQ := t.md.offQ } }
  regs : ∀ k i, (k = .stkTgtcfg → i ≠ n) → k ≠ .glbLogSeq → t.reg k i = s.reg k i

namespace OffStep
variable {n : Nat} {s t u : State}

theorem refl (s : State) : OffStep n s s := ⟨rfl, fun _ _ _ _ => rfl⟩

theorem trans (h : OffStep n s t) (g : OffStep n t u) : OffStep n s u := by
  refine ⟨?_, fun k i hk hl => (g.regs k i hk hl).trans (h.regs k i hk hl)⟩
  rw [g.rest, h.rest]

theorem putFlag {f : Fld} (hf : f.kind = .stkTgtcfg) (b : Bool) (s : State) : OffStep n s (s.putFlag f b n) :=
  ⟨rfl, fun _ _ hk _ => State.reg_put_apart s (fun h => hk (h.trans hf)) _⟩

theorem logPacked (unit code : Nat) (o v : List (Nat × Nat)) (s : State) : OffStep n s (s.logPacked unit code o v) :=
  ⟨rfl, fun _ _ _ hl => State.reg_logPacked s hl _ _ _ _ _⟩

theorem clrBit (b : Nat) (s : State) : OffStep n s (s.clrBit .stkTgtcfg n b) := by
  refine ⟨rfl, fun k i hk _ => ?_⟩
  by_cases h : k = .stkTgtcfg
  · exact State.reg_setReg_index s (hk h) _ _ _
  · exact State.reg_setReg_kind s h _ _ _

theorem onlineDropped (s : State) : OffStep n s (onlineDropped n s) := by
  unfold Machine.onlineDropped
  split
  · exact putFlag rfl false s
  · exact refl s

theorem lunOff {k : Nat} (hk : tgtIdx k = n) (s : State) : OffStep n s (lunOff k s) := by
  unfold Machine.lunOff
  rw [hk]
  split
  · exact ((clrBit (lunL k) s).trans (onlineDropped _)).trans ⟨rfl, fun _ _ _ _ => rfl⟩
  · exact refl s

end OffStep

/-- The LUNs of a target taken offline. -/
theorem foldl_lunOff_step {c t : Nat} (ht : t < 8) {l : List Nat} (hl : ∀ i ∈ l, i < 4) (s : State) :
    OffStep (c * 8 + t) s (l.foldl (fun s i => lunOff (lunKey c t i) s) s) := by
  induction l generalizing s with
  | nil => exact OffStep.refl s
  | cons a l ih =>
    rw [List.foldl_cons]
    exact (OffStep.lunOff (tgtIdx_lunKey c ht (hl a List.mem_cons_self)) s).trans (ih (fun i hi => hl i (List.mem_cons_of_mem _ hi)) _)

theorem targetOff_step (c : Nat) {t : Nat} (ht : t < 8) (code : Nat) (s : State) : OffStep (c * 8 + t) s (targetOff c t code s) := by
  unfold targetOff
  exact ((foldl_lunOff_step ht (fun i hi => List.mem_range.mp hi) s).trans (OffStep.putFlag rfl false _)).trans (OffStep.logPacked _ _ _ _ _)

/-! ## A target leaves start-up -/

/-- Target `t` of channel `c` has left start-up with a code; no other target is touched. -/
structure TargetLeft (c t code : Nat) (s u : State) : Prop where
  time : u.time = s.time
  part : u.part = s.part
  pwr : u.pwr = s.pwr
  topo : u.img.topo = s.img.topo
  profiles : u.img.profiles = s.img.profiles
  others : ∀ d, d ≠ c → u.chan d = s.chan d
  chan : u.chan c = { s.chan c with alive := (s.chan c).alive &&& ~~~(1#8 <<< t) }
  regs : ∀ k i, (k = .stkTgtcfg → i ≠ c * 8 + t) → k ≠ .glbLogSeq → k ≠ .glbBootSts → u.reg k i = s.reg k i
  online : u.flag Fld.stkTgtcfgOnline (c * 8 + t) = false
  logged : LoggedWithin 9 u uSTK code

/-- Target `t` of channel `c` is no longer in start-up. -/
def aliveDropped (c t : Nat) (s : State) : State := s.setChan c { s.chan c with alive := (s.chan c).alive &&& ~~~(1#8 <<< t) }

theorem bootOff_eq (c t code : Nat) (s : State) : bootOff c t code s = raiseStage (aliveDropped c t (targetOff c t code s)) := rfl

theorem aliveDropped_raised_chan (c t : Nat) (s : State) :
    (raiseStage (aliveDropped c t s)).chan c = { s.chan c with alive := (s.chan c).alive &&& ~~~(1#8 <<< t) } := by
  rw [raiseStage_chan, aliveDropped, State.chan_setChan_same]

theorem aliveDropped_raised_others {c d : Nat} (hd : d ≠ c) (t : Nat) (s : State) : (raiseStage (aliveDropped c t s)).chan d = s.chan d := by
  rw [raiseStage_chan, aliveDropped, State.chan_setChan_ne _ hd]

theorem isAlive_dropped (c : Nat) {t i : Nat} (hi : i < 8) (s : State) : isAlive (raiseStage (aliveDropped c t s)) c i = (isAlive s c i && decide (i ≠ t)) := by
  rw [isAlive, aliveDropped_raised_chan]
  exact getLsbD_without hi _ t

theorem raiseStage_reg (s : State) {k : RegKind} (hl : k ≠ .glbLogSeq) (hk : k ≠ .glbBootSts) (i : Nat) : (raiseStage s).reg k i = s.reg k i := by
  have h (l : List Nat) (s : State) : (l.foldl (fun s k => enterStage k s) s).reg k i = s.reg k i := by
    induction l generalizing s with
    | nil => rfl
    | cons n l ih => exact (ih _).trans ((State.reg_logPacked _ hl _ _ _ _ _).trans (State.reg_put_kind s hk _ _ _))
  rw [raiseStage_eq, stagesEntered]
  split
  · exact (State.reg_putFlag_kind _ hk _ _ _).trans (h _ s)
  · exact h _ s

theorem targetLeft_of_off {c t code : Nat} {s u : State} (h : OffStep (c * 8 + t) s u) (hoff : u.flag Fld.stkTgtcfgOnline (c * 8 + t) = false)
    (hlog : LoggedWithin 1 u uSTK code) : TargetLeft c t code s (raiseStage (aliveDropped c t u)) := by
  have hr := raiseStage_rest (aliveDropped c t u)
  have hch (d : Nat) : u.chan d = s.chan d := by
    unfold State.chan
    rw [h.rest]
  have htime : u.time = s.time := (congrArg State.time h.rest :)
  have hpart : u.part = s.part := (congrArg State.part h.rest :)
  have hpwr : u.pwr = s.pwr := (congrArg State.pwr h.rest :)
  have himg : u.img = s.img := (congrArg State.img h.rest :)
  refine ⟨?_, ?_, ?_, ?_, ?_, fun d hd => ?_, ?_, fun k i hk hl hb => ?_, ?_, ?_⟩
  · exact (congrArg State.time hr :).trans htime
  · exact (congrArg State.part hr :).trans hpart
  · exact (congrArg State.pwr hr :).trans hpwr
  · exact (congrArg (fun x : State => x.img.topo) hr :).trans (congrArg (·.topo) himg :)
  · exact (congrArg (fun x : State => x.img.profiles) hr :).trans (congrArg (·.profiles) himg :)
  · rw [aliveDropped_raised_others hd, hch]
  · rw [aliveDropped_raised_chan, hch]
  · exact (raiseStage_reg _ hl hb i).trans (h.regs k i hk hl)
  · exact (raiseStage_flag _ (by decide) (Or.inl (by decide)) _).trans hoff
  · exact (hlog.of_log (t := aliveDropped c t u) rfl).raise (by decide)

theorem bootOff_left (c : Nat) {t : Nat} (ht : t < 8) (code : Nat) (s : State) : TargetLeft c t code s (bootOff c t code s) := by
  rw [bootOff_eq]
  exact targetLeft_of_off (targetOff_step c ht code s) (targetOff_regs c t code s).1 (loggedWithin_logPacked _ _ _ _ _)

theorem TargetLeft.alive {c t code i : Nat} {s u : State} (h : TargetLeft c t code s u) (hi : i < 8) : isAlive u c i = (isAlive s c i && decide (i ≠ t)) := by
  rw [isAlive, h.chan]
  exact getLsbD_without hi _ t

/-! ## The waits of TARGET_RESET (R95, R96) -/

section
variable {s : State} {c i : Nat} (hrun : s.running = true) (hc : c < 128) (hi : i < 8) (hst : (s.chan c).stage = 3) (hal : isAlive s c i = true)
include hrun hc hi hst hal

theorem targetReadyReset_spec (hrst : Tab.find i (s.chan c).rstAt = none) (hrb : (s.chan c).rb.getLsbD i = true) :
    ∃ t, exec (.targetReadyReset c i) s = .next t ∧ Tab.find i (t.chan c).rstAt = some s.now ∧ (t.chan c).rb.getLsbD i = false ∧
      t = { s with ch := t.ch, md := { s.md with luns := t.md.luns } } ∧ ∀ d, d ≠ c → t.chan d = s.chan d := by
  have hr := targetsReset c [i] s
  refine ⟨resetTargets c [i] s, ?_, ?_, ?_, hr.rest, hr.others⟩
  · have hg : (s.running && decide (c < 128 ∧ i < 8) && (s.chan c).stage == 3 && isAlive s c i && (Tab.find i (s.chan c).rstAt).isNone &&
        (s.chan c).rb.getLsbD i) = true := by
      rw [hrun, hst, hal, hrst, hrb, decide_eq_true ⟨hc, hi⟩]
      rfl
    show execTargetReadyReset c i s = _
    unfold execTargetReadyReset
    dsimp only
    rw [hg]
    exact onlyIf_true _ _
  · rw [hr.rstAt, if_pos List.mem_cons_self]
  · rw [hr.rb i hi]
    simp

theorem targetBusyTimeout_spec (hrst : Tab.find i (s.chan c).rstAt = none) (hrb : (s.chan c).rb.getLsbD i = false)
    (hdue : (s.chan c).bootAt + ((s.profileAt (c * 8 + i)).lbt + 1000) * 1000 ≤ s.now) :
    ∃ t, exec (.targetBusyTimeout c i) s = .next t ∧ isAlive t c i = false ∧ t.flag Fld.stkTgtcfgOnline (c * 8 + i) = false ∧
      ∃ e ∈ t.log, e.unit = uSTK ∧ e.code = 0x30 := by
  have hl := bootOff_left c hi 0x30 s
  refine ⟨bootOff c i 0x30 s, ?_, ?_, hl.online, hl.logged.mem⟩
  · have hg : (s.running && decide (c < 128 ∧ i < 8) && (s.chan c).stage == 3 && isAlive s c i && (Tab.find i (s.chan c).rstAt).isNone &&
        !(s.chan c).rb.getLsbD i && decide ((s.chan c).bootAt + ((s.profileAt (c * 8 + i)).lbt + 1000) * 1000 ≤ s.now)) = true := by
      rw [hrun, hst, hal, hrst, hrb, decide_eq_true ⟨hc, hi⟩, decide_eq_true hdue]
      rfl
    show execTargetBusyTimeout c i s = _
    unfold execTargetBusyTimeout
    dsimp only
    rw [hg]
    exact onlyIf_true _ _
  · rw [hl.alive hi]
    simp

theorem trstTimeout_spec {a : Nat} (hrst : Tab.find i (s.chan c).rstAt = some a) (hrb : (s.chan c).rb.getLsbD i = false)
    (hdue : a + (s.profileAt (c * 8 + i)).trstFirst * 1000 ≤ s.now) :
    ∃ t, exec (.trstTimeout c i) s = .next t ∧ isAlive t c i = false ∧ t.flag Fld.stkTgtcfgOnline (c * 8 + i) = false ∧
      ∃ e ∈ t.log, e.unit = uSTK ∧ e.code = 0x31 := by
  have hl := bootOff_left c hi 0x31 s
  refine ⟨bootOff c i 0x31 s, ?_, ?_, hl.online, hl.logged.mem⟩
  · have hg : (s.running && decide (c < 128 ∧ i < 8) && (s.chan c).stage == 3 && isAlive s c i && !(s.chan c).rb.getLsbD i &&
        decide (a + (s.profileAt (c * 8 + i)).trstFirst * 1000 ≤ s.now)) = true := by
      rw [hrun, hst, hal, hrb, decide_eq_true ⟨hc, hi⟩, decide_eq_true hdue]
      rfl
    show execTrstTimeout c i s = _
    unfold execTrstTimeout
    dsimp only
    rw [hrst]
    dsimp only
    rw [hg]
    exact onlyIf_true _ _
  · rw [hl.alive hi]
    simp

end

end Sys2Proof.Machine
end

section
/-! PROOFS. IDENTIFY of a channel's targets (O53). -/
namespace Sys2Proof.Machine

/-- The targets `l` of channel `c` have been dealt with: no other target, no other channel and nothing that IDENTIFY goes by has moved. -/
structure IdentSteps (c : Nat) (l : List Nat) (s u : State) : Prop where
  pwr : u.pwr = s.pwr
  topo : u.img.topo = s.img.topo
  profiles : u.img.profiles = s.img.profiles
  regs : ∀ k i, (k = .stkTgtcfg → ∀ t ∈ l, i ≠ c * 8 + t) → k ≠ .glbLogSeq → k ≠ .glbBootSts → u.reg k i = s.reg k i
  stage : (u.chan c).stage = (s.chan c).stage
  alive : ∀ i, i < 8 → i ∉ l → isAlive u c i = isAlive s c i
  adv : ∀ i, i ∉ l → Tab.get 0 i (u.chan c).adv = Tab.get 0 i (s.chan c).adv

namespace IdentSteps
variable {c t : Nat} {l m : List Nat} {s u v : State}

theorem refl (s : State) : IdentSteps c l s s := ⟨rfl, rfl, rfl, fun _ _ _ _ _ => rfl, rfl, fun _ _ _ => rfl, fun _ _ => rfl⟩

theorem trans (h : IdentSteps c l s u) (g : IdentSteps c m u v) : IdentSteps c (l ++ m) s v := by
  refine ⟨g.pwr.trans h.pwr, g.topo.trans h.topo, g.profiles.trans h.profiles, fun k i hk hl hb => ?_, g.stage.trans h.stage, fun i hi hn => ?_, fun i hn => ?_⟩
  · exact (g.regs k i (fun e t ht => hk e t (List.mem_append_right _ ht)) hl hb).trans (h.regs k i (fun e t ht => hk e t (List.mem_append_left _ ht)) hl hb)
  · exact (g.alive i hi fun e => hn (List.mem_append_right _ e)).trans (h.alive i hi fun e => hn (List.mem_append_left _ e))
  · exact (g.adv i fun e => hn (List.mem_append_right _ e)).trans (h.adv i fun e => hn (List.mem_append_left _ e))

/-- Steps for fewer targets are steps for more. -/
theorem mono (h : IdentSteps c l s u) (hlm : ∀ t ∈ l, t ∈ m) : IdentSteps c m s u :=
  ⟨h.pwr, h.topo, h.profiles, fun k i hk => h.regs k i fun e t ht => hk e t (hlm t ht), h.stage, fun i hi hn => h.alive i hi fun e => hn (hlm i e),
    fun i hn => h.adv i fun e => hn (hlm i e)⟩

/-- Two steps for the same targets. -/
theorem andThen (h : IdentSteps c l s u) (g : IdentSteps c l u v) : IdentSteps c l s v :=
  (h.trans g).mono fun _ ht => (List.mem_append.mp ht).elim id id

theorem of_pins (h : PinsOnly c s u) : IdentSteps c l s u := by
  have hregs : u.regs = s.regs := (congrArg State.regs h.rest :)
  have himg : u.img = s.img := (congrArg State.img h.rest :)
  refine ⟨(congrArg State.pwr h.rest :), (congrArg (·.topo) himg :), (congrArg (·.profiles) himg :), fun k i _ _ _ => State.reg_of_regs hregs k i, h.stage,
    fun i _ _ => ?_, fun i _ => ?_⟩
  · rw [isAlive, h.alive]
    rfl
  · rw [h.adv]

theorem of_left {code : Nat} (h : TargetLeft c t code s u) : IdentSteps c [t] s u := by
  refine ⟨h.pwr, h.topo, h.profiles, fun k i hk => h.regs k i fun e => hk e t List.mem_cons_self, ?_, fun i hi hn => ?_, fun i _ => ?_⟩
  · rw [h.chan]
  · rw [h.alive hi, decide_eq_true (by simpa using hn), Bool.and_true]
  · rw [h.chan]

end IdentSteps

/-! ## One target (R97, R134) -/

theorem identCycles_pins (c : Nat) (x : Ident) (s : State) : PinsOnly c s (identCycles c x s) := by
  have hread (t : Nat) (cmd adr : Byte) (n : Nat) (s : State) : PinsOnly c s (readCycles c t cmd adr n s) :=
    ((PinsOnly.busPut _ s).trans (PinsOnly.busPut _ _)).trans (PinsOnly.busPut _ _)
  have hite (p : Prop) [Decidable p] (s u v : State) (h : PinsOnly c s u) (g : PinsOnly c s v) : PinsOnly c s (if p then u else v) := by
    split
    · exact h
    · exact g
  unfold identCycles
  dsimp only
  have h1 := (hread x.tgt 0x90 0x00 x.id.length s).trans (hread x.tgt 0x90 0x20 4 _)
  have h2 := h1.trans (hite (onfiSign x = true) _ _ _ (PinsOnly.refl _) (hread x.tgt 0x90 0x40 5 _))
  exact (h2.trans (hite ((onfiSign x || jedecSign x) = true) _ _ _ (hread x.tgt 0xEC _ _ _) (PinsOnly.refl _))).trans (PinsOnly.raiseCe _)

/-- IDENTIFY goes by the topology, the profiles and the level maps alone. -/
theorem identify_of_steps {c : Nat} {l : List Nat} {s u : State} (h : IdentSteps c l s u) (d : Nat) (x : Ident) : identify u d x = identify s d x := by
  have hprof (n : Nat) : u.profileAt n = s.profileAt n := by
    unfold State.profileAt
    rw [h.topo, h.profiles]
  have hlvl (n : Nat) : u.flag Fld.cryLvlmapValid n = s.flag Fld.cryLvlmapValid n :=
    congrArg (fun w => Fld.cryLvlmapValid.get w != 0) (h.regs .cryLvlmap n (fun e => absurd e (by decide)) (by decide) (by decide))
  unfold identify
  simp only [hprof, hlvl, h.topo]

/-- The modes that the target advertises, kept. -/
def advKept (c t adv : Nat) (s : State) : State := s.setChan c { s.chan c with adv := Tab.set 0 t adv (s.chan c).adv }

/-- A target in service with the LUNs it reports. -/
def onlineSet (n luns : Nat) (s : State) : State :=
  if s.pwr.waking then s else (s.put Fld.stkTgtcfgLunOn (2 ^ luns - 1) n).putFlag Fld.stkTgtcfgOnline true n

section
variable {c t : Nat} {ids : List Ident} {x : Ident} {s : State}

theorem identTarget_gone (h : isAlive s c t = false) : identTarget c ids s t = s := by
  unfold identTarget
  rw [h]
  rfl

theorem identTarget_silent (h : isAlive s c t = true) (hx : ids.find? (fun x => x.tgt == t) = none) : identTarget c ids s t = bootOff c t 0x31 s := by
  unfold identTarget
  rw [h, hx]
  rfl

theorem identTarget_rejected {code : Nat} (h : isAlive s c t = true) (hx : ids.find? (fun x => x.tgt == t) = some x) (hid : identify s c x = .inl code) :
    identTarget c ids s t = bootOff c t code (identCycles c x s) := by
  have hid' := (identify_of_steps (l := []) (IdentSteps.of_pins (identCycles_pins c x s)) c x).trans hid
  unfold identTarget
  rw [h, hx]
  dsimp only
  rw [hid']
  rfl

theorem identTarget_accepted {luns adv : Nat} (h : isAlive s c t = true) (hx : ids.find? (fun x => x.tgt == t) = some x)
    (hid : identify s c x = .inr (luns, adv)) : identTarget c ids s t = onlineSet (c * 8 + t) luns (advKept c t adv (identCycles c x s)) := by
  have hid' := (identify_of_steps (l := []) (IdentSteps.of_pins (identCycles_pins c x s)) c x).trans hid
  unfold identTarget
  rw [h, hx]
  dsimp only
  rw [hid']
  rfl

end

theorem advKept_steps (c t adv : Nat) (s : State) : IdentSteps c [t] s (advKept c t adv s) ∧ Tab.get 0 t ((advKept c t adv s).chan c).adv = adv ∧
    ∀ i, isAlive (advKept c t adv s) c i = isAlive s c i := by
  have hch : (advKept c t adv s).chan c = { s.chan c with adv := Tab.set 0 t adv (s.chan c).adv } := State.chan_setChan_same _ _ _
  have hal (i : Nat) : isAlive (advKept c t adv s) c i = isAlive s c i := by
    rw [isAlive, hch]
    rfl
  refine ⟨⟨rfl, rfl, rfl, fun _ _ _ _ _ => rfl, ?_, fun i _ _ => hal i, fun i hn => ?_⟩, ?_, hal⟩
  · rw [hch]
  · rw [hch, Tab.get_set_ne (by simpa using hn)]
  · rw [hch, Tab.get_set_same]

theorem onlineSet_steps (c t luns : Nat) (s : State) : IdentSteps c [t] s (onlineSet (c * 8 + t) luns s) ∧ (onlineSet (c * 8 + t) luns s).ch = s.ch ∧
    (s.pwr.waking = false → (onlineSet (c * 8 + t) luns s).flag Fld.stkTgtcfgOnline (c * 8 + t) = true ∧
      (onlineSet (c * 8 + t) luns s).get Fld.stkTgtcfgLunOn (c * 8 + t) = (2 ^ luns - 1) % 16) := by
  unfold onlineSet
  by_cases hw : s.pwr.waking = true
  · rw [if_pos hw]
    exact ⟨IdentSteps.refl s, rfl, fun h => absurd hw (by rw [h]; decide)⟩
  · rw [if_neg hw]
    refine ⟨⟨rfl, rfl, rfl, fun k i hk _ _ => ?_, rfl, fun _ _ _ => rfl, fun _ _ => rfl⟩, rfl, fun _ => ⟨State.flag_putFlag _ _ rfl (by decide) _ _, ?_⟩⟩
    · have hne (h : k = RegKind.stkTgtcfg) : i ≠ c * 8 + t := hk h t List.mem_cons_self
      exact (State.reg_put_apart _ hne _).trans (State.reg_put_apart s hne _)
    · rw [State.get_putFlag_field _ (by decide) (by decide), State.get_put_same _ _ (by decide)]
      rfl

/-- What IDENTIFY leaves of target `i`, as seen from the state `s` in which the stage began. -/
structure Identified (c : Nat) (ids : List Ident) (i : Nat) (s u : State) : Prop where
  accepted : ∀ x luns adv, ids.find? (fun x => x.tgt == i) = some x → identify s c x = .inr (luns, adv) → isAlive u c i = true ∧
    Tab.get 0 i (u.chan c).adv = adv ∧ (s.pwr.waking = false → u.flag Fld.stkTgtcfgOnline (c * 8 + i) = true ∧
      u.get Fld.stkTgtcfgLunOn (c * 8 + i) = (2 ^ luns - 1) % 16)
  rejected : ∀ x code, ids.find? (fun x => x.tgt == i) = some x → identify s c x = .inl code → isAlive u c i = false ∧
    u.flag Fld.stkTgtcfgOnline (c * 8 + i) = false
  silent : ids.find? (fun x => x.tgt == i) = none → isAlive u c i = false ∧ u.flag Fld.stkTgtcfgOnline (c * 8 + i) = false

/-- One target's IDENTIFY touches that target, and settles it. -/
theorem identTarget_spec (c : Nat) (ids : List Ident) (s : State) {t : Nat} (ht : t < 8) : IdentSteps c [t] s (identTarget c ids s t) ∧
    (isAlive s c t = true → Identified c ids t s (identTarget c ids s t)) := by
  by_cases hal : isAlive s c t = true
  swap
  · rw [identTarget_gone (Bool.eq_false_iff.mpr hal)]
    exact ⟨IdentSteps.refl s, fun h => absurd h hal⟩
  have hleft (code : Nat) (u : State) : isAlive (bootOff c t code u) c t = false ∧ (bootOff c t code u).flag Fld.stkTgtcfgOnline (c * 8 + t) = false := by
    have h := bootOff_left c ht code u
    refine ⟨?_, h.online⟩
    rw [h.alive ht]
    simp
  cases hx : ids.find? (fun x => x.tgt == t) with
  | none =>
    rw [identTarget_silent hal hx]
    refine ⟨IdentSteps.of_left (bootOff_left c ht 0x31 s), fun _ => ⟨fun _ _ _ h _ => ?_, fun _ _ h _ => ?_, fun _ => hleft 0x31 s⟩⟩
    · rw [hx] at h; cases h
    · rw [hx] at h; cases h
  | some x =>
    have hcyc : IdentSteps c [t] s (identCycles c x s) := IdentSteps.of_pins (identCycles_pins c x s)
    cases hid : identify s c x with
    | inl code =>
      rw [identTarget_rejected hal hx hid]
      refine ⟨hcyc.andThen (IdentSteps.of_left (bootOff_left c ht code _)), fun _ => ⟨fun y _ _ h h' => ?_, fun _ _ _ _ => hleft code _, fun h => ?_⟩⟩
      · rw [hx] at h
        obtain rfl := Option.some.inj h
        rw [hid] at h'
        cases h'
      · rw [hx] at h; cases h
    | inr r =>
      obtain ⟨luns, adv⟩ := r
      rw [identTarget_accepted hal hx hid]
      obtain ⟨hadv, hval, hadvAl⟩ := advKept_steps c t adv (identCycles c x s)
      obtain ⟨hon, honCh, honSet⟩ := onlineSet_steps c t luns (advKept c t adv (identCycles c x s))
      have hch : (onlineSet (c * 8 + t) luns (advKept c t adv (identCycles c x s))).chan c = (advKept c t adv (identCycles c x s)).chan c := by
        unfold State.chan
        rw [honCh]
      refine ⟨(hcyc.andThen hadv).andThen hon, fun _ => ⟨fun y luns' adv' h h' => ?_, fun y code h h' => ?_, fun h => ?_⟩⟩
      · rw [hx] at h
        obtain rfl := Option.some.inj h
        rw [hid] at h'
        obtain ⟨rfl, rfl⟩ := Prod.mk.inj (Sum.inr.inj h')
        refine ⟨?_, ?_, fun hw => honSet ?_⟩
        · have hcycAl : isAlive (identCycles c x s) c t = isAlive s c t := congrArg (BitVec.getLsbD · t) (identCycles_pins c x s).alive
          rw [isAlive, hch]
          exact (hadvAl t).trans (hcycAl.trans hal)
        · rw [hch]
          exact hval
        · rw [hadv.pwr, hcyc.pwr]
          exact hw
      · rw [hx] at h
        obtain rfl := Option.some.inj h
        rw [hid] at h'
        cases h'
      · rw [hx] at h; cases h

/-! ## The channel's targets -/

theorem Identified.of_steps {c i : Nat} {ids : List Ident} {l : List Nat} {s u v : State} (h : IdentSteps c l s u) (g : Identified c ids i u v) :
    Identified c ids i s v :=
  ⟨fun x luns adv hx hid => by rw [← h.pwr]; exact g.accepted x luns adv hx ((identify_of_steps h c x).trans hid),
    fun x code hx hid => g.rejected x code hx ((identify_of_steps h c x).trans hid), g.silent⟩

theorem Identified.keep {c i : Nat} {ids : List Ident} {l : List Nat} {s u v : State} (hi : i < 8) (hn : i ∉ l) (g : Identified c ids i s u)
    (h : IdentSteps c l u v) : Identified c ids i s v := by
  have hreg : v.reg .stkTgtcfg (c * 8 + i) = u.reg .stkTgtcfg (c * 8 + i) :=
    h.regs _ _ (fun _ t ht e => hn ((show t = i by omega) ▸ ht)) (by decide) (by decide)
  have hon : v.flag Fld.stkTgtcfgOnline (c * 8 + i) = u.flag Fld.stkTgtcfgOnline (c * 8 + i) := congrArg (fun w => Fld.stkTgtcfgOnline.get w != 0) hreg
  have hlun : v.get Fld.stkTgtcfgLunOn (c * 8 + i) = u.get Fld.stkTgtcfgLunOn (c * 8 + i) := congrArg Fld.stkTgtcfgLunOn.get hreg
  have hal := h.alive i hi hn
  have hadv := h.adv i hn
  exact ⟨by rw [hon, hlun, hal, hadv]; exact g.accepted, by rw [hon, hal]; exact g.rejected, by rw [hon, hal]; exact g.silent⟩

theorem foldl_identTarget_steps (c : Nat) (ids : List Ident) {l : List Nat} (hl : ∀ t ∈ l, t < 8) (s : State) : IdentSteps c l s (l.foldl (identTarget c ids) s) := by
  induction l generalizing s with
  | nil => exact IdentSteps.refl s
  | cons t l ih =>
    exact (identTarget_spec c ids s (hl t List.mem_cons_self)).1.trans (ih (fun i hi => hl i (List.mem_cons_of_mem _ hi)) _)

/-- Each target is settled by its own step, and kept by the others'. -/
theorem foldl_identTarget (c : Nat) (ids : List Ident) {l : List Nat} (hn : l.Nodup) (hl : ∀ t ∈ l, t < 8) (s : State) {i : Nat} (hi : i ∈ l)
    (hal : isAlive s c i = true) : Identified c ids i s (l.foldl (identTarget c ids) s) := by
  induction l generalizing s with
  | nil => cases hi
  | cons t l ih =>
    obtain ⟨htl, hnl⟩ := List.nodup_cons.mp hn
    have hll : ∀ k ∈ l, k < 8 := fun k hk => hl k (List.mem_cons_of_mem _ hk)
    obtain ⟨hstep, hset⟩ := identTarget_spec c ids s (hl t List.mem_cons_self)
    rw [List.foldl_cons]
    rcases List.mem_cons.mp hi with rfl | hil
    · exact (hset hal).keep (hl i List.mem_cons_self) htl (foldl_identTarget_steps c ids hll _)
    · have hne : i ∉ [t] := by
        rw [List.mem_singleton]
        rintro rfl
        exact htl hil
      exact Identified.of_steps hstep (ih hnl hll _ hil ((hstep.alive i (hll i hil) hne).trans hal))

/-- A channel goes on to its next stage. -/
def stageSet (c n : Nat) (s : State) : State := raiseStage (s.setChan c { s.chan c with stage := n })

theorem stageSet_chan (c n : Nat) (s : State) : (stageSet c n s).chan c = { s.chan c with stage := n } := by
  rw [stageSet, raiseStage_chan, State.chan_setChan_same]

theorem stageSet_rest (c n : Nat) (s : State) : stageSet c n s = { s with
    ch := (stageSet c n s).ch
    regs := (stageSet c n s).regs
    log := (stageSet c n s).log
    md := { s.md with mapAt := (stageSet c n s).md.mapAt, dramOk := (stageSet c n s).md.dramOk }
    img := { s.img with copy := (stageSet c n s).img.copy } } := by
  have h := raiseStage_rest (s.setChan c { s.chan c with stage := n })
  have hch := raiseStage_ch (s.setChan c { s.chan c with stage := n })
  unfold stageSet
  rw [hch]
  exact h

theorem stageSet_reg (c n : Nat) (s : State) {k : RegKind} (hl : k ≠ .glbLogSeq) (hk : k ≠ .glbBootSts) (i : Nat) : (stageSet c n s).reg k i = s.reg k i :=
  raiseStage_reg _ hl hk i

theorem isAlive_stageSet (c n : Nat) (s : State) (i : Nat) : isAlive (stageSet c n s) c i = isAlive s c i := by
  rw [isAlive, stageSet_chan]
  rfl

/-- IDENTIFY (R97): every target still in start-up is accepted, or goes offline. -/
theorem identifyStage_spec {s : State} {c : Nat} (hrun : s.running = true) (hc : c < 128) (hst : (s.chan c).stage = 3) (hal : (s.chan c).alive ≠ 0)
    (hdone : resetsDone s c = true) (ids : List Ident) : ∃ t, exec (.identifyStage c ids) s = .next t ∧ (t.chan c).stage = 4 ∧
      ∀ i, i < 8 → isAlive s c i = true → Identified c ids i s t := by
  refine ⟨(List.range 8).foldl (identTarget c ids) (stageSet c 4 s), ?_, ?_, fun i hi hali => ?_⟩
  · have hg : (s.running && decide (c < 128) && (s.chan c).stage == 3 && (s.chan c).alive != 0 && resetsDone s c) = true := by
      rw [hrun, hst, hdone, decide_eq_true hc, bne_iff_ne.mpr hal]
      rfl
    show execIdentifyStage c ids s = _
    unfold execIdentifyStage
    rw [hg]
    exact onlyIf_true _ _
  · rw [(foldl_identTarget_steps c ids (fun t ht => List.mem_range.mp ht) (stageSet c 4 s)).stage, stageSet_chan]
  · have hrest := stageSet_rest c 4 s
    have hprof (x : Ident) : identify (stageSet c 4 s) c x = identify s c x := by
      have hp (n : Nat) : (stageSet c 4 s).profileAt n = s.profileAt n := by
        unfold State.profileAt
        rw [hrest]
      have htopo : (stageSet c 4 s).img.topo = s.img.topo := (congrArg (fun x : State => x.img.topo) hrest :)
      have hlvl (n : Nat) : (stageSet c 4 s).flag Fld.cryLvlmapValid n = s.flag Fld.cryLvlmapValid n :=
        congrArg (fun w => Fld.cryLvlmapValid.get w != 0) (stageSet_reg c 4 s (by decide) (by decide) n)
      unfold identify
      simp only [hp, hlvl, htopo]
    have hpwr : (stageSet c 4 s).pwr = s.pwr := (congrArg State.pwr hrest :)
    have h := foldl_identTarget c ids List.nodup_range (fun t ht => List.mem_range.mp ht) (stageSet c 4 s) (List.mem_range.mpr hi)
      ((isAlive_stageSet c 4 s i).trans hali)
    exact ⟨fun x luns adv hx hid => by rw [← hpwr]; exact h.accepted x luns adv hx ((hprof x).trans hid),
      fun x code hx hid => h.rejected x code hx ((hprof x).trans hid), h.silent⟩

end Sys2Proof.Machine
end

section
/-! PROOFS. TRAIN of a channel's targets (O53). -/
namespace Sys2Proof.Machine

/-! ## Training leaves who is in start-up (R98, R99) -/

/-- What an entry into KX-DDR comes to once its sweeps have been measured (R99, R146). -/
def kxJudged (c t rate : Nat) (gr gw : Int) (m : Train) (s : State) : Bool × State :=
  match newCentres 8 rate gr m.rd, newCentres 8 rate gw m.wr with
  | some rd, some wr => if m.echoOk then (true, storeTrain (c * 8 + t) rd wr gr gw (kxAsked c t s)) else (false, raiseCe c (kxEchoed c t s))
  | _, _ => (false, raiseCe c s)

theorem kxTry_eq (c t rate : Nat) (gr gw : Int) (m : Train) (s : State) : kxTry c t rate gr gw m s =
    if !m.busyOk then (false, (kxOpened c t rate s).setChan c { (kxOpened c t rate s).chan c with rb := ((kxOpened c t rate s).chan c).rb &&& ~~~(1#8 <<< t) })
    else kxJudged c t rate gr gw m (kxSwept c t (kxOpened c t rate s)) := rfl

/-- The targets of channel `c` in start-up are the same. -/
def AliveKept (c : Nat) (s t : State) : Prop := (t.chan c).alive = (s.chan c).alive

namespace AliveKept
variable {c : Nat} {s t u : State}

theorem refl (s : State) : AliveKept c s s := rfl

theorem trans (h : AliveKept c s t) (g : AliveKept c t u) : AliveKept c s u := Eq.trans g h

theorem of_ch (h : t.ch = s.ch) : AliveKept c s t := by
  unfold AliveKept State.chan
  rw [h]

theorem setChan {x : Chan} (h : x.alive = (s.chan c).alive) : AliveKept c s (s.setChan c x) := by
  unfold AliveKept
  rw [State.chan_setChan_same]
  exact h

theorem ite {p : Prop} [Decidable p] (h : AliveKept c s t) (g : AliveKept c s u) : AliveKept c s (if p then t else u) := by
  split
  · exact h
  · exact g

theorem foldl {α : Type} {f : State → α → State} (hf : ∀ s a, AliveKept c s (f s a)) (l : List α) (s : State) : AliveKept c s (l.foldl f s) := by
  induction l generalizing s with
  | nil => exact refl s
  | cons a l ih => exact (hf s a).trans (ih _)

theorem busPut (b : BusCyc) (s : State) : AliveKept c s (busPut c b s) := setChan rfl

theorem raiseCe (s : State) : AliveKept c s (raiseCe c s) := setChan rfl

theorem put (f : Fld) (v i : Nat) (s : State) : AliveKept c s (s.put f v i) := of_ch rfl

theorem putFlag (f : Fld) (b : Bool) (i : Nat) (s : State) : AliveKept c s (s.putFlag f b i) := of_ch rfl

theorem logPacked (unit code : Nat) (o v : List (Nat × Nat)) (s : State) : AliveKept c s (s.logPacked unit code o v) := of_ch rfl

theorem setRate (rate : Nat) (s : State) : AliveKept c s (setRate c rate s) := by
  unfold Machine.setRate
  exact ite (refl s) (((raiseCe s).trans (busPut _ _)).trans (put _ _ _ _))

theorem logOnce (t key : Nat) (s : State) : AliveKept c s (logOnce c t key s) := by
  unfold Machine.logOnce
  refine ite (refl s) (trans ?_ (logPacked _ _ _ _ _))
  exact setChan rfl

theorem selectTarget (t : Nat) (s : State) : AliveKept c s (selectTarget c t s) := by
  unfold Machine.selectTarget selectMask
  dsimp only
  exact ite (setChan rfl) ((((setRate _ s).trans (put _ _ _ _)).trans (foldl (fun s key => logOnce t key s) _ _)).trans (setChan rfl))

theorem featCycles (t fa : Nat) (ps : List Nat) (s : State) : AliveKept c s (featCycles c t fa ps s) :=
  ((busPut _ s).trans (busPut _ _)).trans (busPut _ _)

theorem trainFeatures (t : Nat) (a : Applied) (s : State) : AliveKept c s (trainFeatures c t a s) := by
  have hrb (v : BitVec 8) (u : State) : AliveKept c u (u.setChan c { u.chan c with rb := v }) := setChan rfl
  have hfeat (p : Prop) [Decidable p] (fa : Nat) (ps : List Nat) (u : State) : AliveKept c u (if p then u else Machine.featCycles c t fa ps u) :=
    ite (refl u) (featCycles t fa ps u)
  unfold Machine.trainFeatures
  dsimp only
  exact (hrb _ s).trans ((raiseCe _).trans ((setRate _ _).trans ((put _ _ _ _).trans ((featCycles _ _ _ _).trans ((hfeat _ _ _ _).trans ((hfeat _ _ _ _).trans
    ((hfeat _ _ _ _).trans (raiseCe _))))))))

theorem phyDuty (m : Train) (s : State) : AliveKept c s (phyDuty c m s) := by
  unfold Machine.phyDuty
  exact ite (refl s) (of_ch rfl)

theorem dieZq (t mode : Nat) (s : State) : AliveKept c s (dieZq c t mode s) := by
  unfold Machine.dieZq kxPut
  exact ite (busPut _ s) (busPut _ s)

theorem dieDcc (t : Nat) (s : State) : AliveKept c s (dieDcc c t s) := by
  unfold Machine.dieDcc
  exact (featCycles _ _ _ s).trans ((busPut _ _).trans (featCycles _ _ _ _))

theorem sweepPut (t mode dir : Nat) (s : State) : AliveKept c s (sweepPut c t mode dir s) := busPut _ s

theorem storeTrain (n : Nat) (rd wr : List Int) (a b : Int) (s : State) : AliveKept c s (storeTrain n rd wr a b s) := of_ch rfl

theorem trainSetUp (t : Nat) (m : Train) (s : State) : AliveKept c s (trainSetUp c t m s) := by
  have hzqPhy (u : State) : AliveKept c u (phyZq c m u) := of_ch rfl
  have hzq (p : Prop) [Decidable p] (mode : Nat) (u : State) : AliveKept c u (if p then Machine.dieZq c t mode u else u) := ite (dieZq t mode u) (refl u)
  have hduty (p : Prop) [Decidable p] (u : State) : AliveKept c u (if p then u else Machine.phyDuty c m u) := ite (refl u) (phyDuty m u)
  have hdcc (p : Prop) [Decidable p] (u : State) : AliveKept c u (if p then Machine.dieDcc c t u else u) := ite (dieDcc t u) (refl u)
  unfold Machine.trainSetUp
  exact (trainFeatures t _ s).trans ((selectTarget t _).trans ((raiseCe _).trans ((hzqPhy _).trans ((selectTarget t _).trans
    ((hzq _ _ _).trans ((hduty _ _).trans (hdcc _ _)))))))

theorem trainTry (t : Nat) (gr gw : List Int) (m : Train) (s : State) : AliveKept c s (trainTry c t gr gw m s).2 := by
  have hup := trainSetUp (c := c) t m s
  unfold Machine.trainTry
  dsimp only
  rw [← Machine.trainSetUp]
  split
  · exact hup.trans (raiseCe _)
  · split
    · exact hup.trans ((storeTrain _ _ _ _ _ _).trans (raiseCe _))
    · split
      · exact hup.trans ((sweepPut _ _ _ _).trans ((sweepPut _ _ _ _).trans ((raiseCe _).trans (storeTrain _ _ _ _ _ _))))
      · exact hup.trans ((sweepPut _ _ _ _).trans ((sweepPut _ _ _ _).trans (raiseCe _)))

theorem kxEcho (t : Nat) (s : State) (i : Nat) : AliveKept c s (kxEcho c t s i) := (of_ch (t := s.fresh.2) rfl).trans ((busPut _ _).trans (busPut _ _))

theorem kxOpened (t rate : Nat) (s : State) : AliveKept c s (kxOpened c t rate s) := (selectTarget t s).trans ((featCycles _ _ _ _).trans (raiseCe _))

theorem caSlowSet (v : BitVec 8) (s : State) : AliveKept c s (caSlowSet c v s) := setChan rfl

theorem kxSwept (t : Nat) (s : State) : AliveKept c s (kxSwept c t s) :=
  (putFlag _ _ _ s).trans ((selectTarget t _).trans ((caSlowSet _ _).trans ((sweepPut _ _ _ _).trans (sweepPut _ _ _ _))))

theorem kxEchoed (t : Nat) (s : State) : AliveKept c s (kxEchoed c t s) := (busPut _ s).trans ((caSlowSet _ _).trans (foldl (fun s i => kxEcho t s i) _ _))

theorem kxAsked (t : Nat) (s : State) : AliveKept c s (kxAsked c t s) := (kxEchoed t s).trans ((busPut _ _).trans ((busPut _ _).trans (raiseCe _)))

theorem kxJudged (t rate : Nat) (gr gw : Int) (m : Train) (s : State) : AliveKept c s (kxJudged c t rate gr gw m s).2 := by
  unfold Machine.kxJudged
  split
  · split
    · exact (kxAsked t s).trans (storeTrain _ _ _ _ _ _)
    · exact (kxEchoed t s).trans (raiseCe _)
  · exact raiseCe s

theorem kxTry (t rate : Nat) (gr gw : Int) (m : Train) (s : State) : AliveKept c s (kxTry c t rate gr gw m s).2 := by
  rw [kxTry_eq]
  split
  · exact (kxOpened t rate s).trans (setChan rfl)
  · exact (kxOpened t rate s).trans ((kxSwept t _).trans (kxJudged t rate gr gw m _))

theorem escape (t : Nat) (s : State) : AliveKept c s (escape c t s) := by
  unfold Machine.escape
  refine ite (refl s) ?_
  exact (busPut _ s).trans ((of_ch rfl).trans ((raiseCe _).trans ((of_ch rfl).trans (setChan rfl))))

theorem trainOnce (t : Nat) (std : Bool) (kx : Option Nat) (gr gw : List Int) (m k : Train) (s : State) : AliveKept c s (trainOnce c t std kx gr gw m k s).2 := by
  have htry : AliveKept c s (if std then Machine.trainTry c t gr gw m s else (true, s)).2 := by
    split
    · exact trainTry t gr gw m s
    · exact refl s
  unfold Machine.trainOnce
  dsimp only
  generalize (if std then Machine.trainTry c t gr gw m s else (true, s)) = r at htry
  split
  · exact htry
  · cases kx with
    | none => exact htry
    | some rate =>
      dsimp only
      split
      · exact htry
      · have hkx := htry.trans (kxTry t rate (gbOf gr 8) (gbOf gw 8) k r.2)
        split
        · exact hkx
        · exact hkx.trans (escape t _)

end AliveKept

/-! ## One target (R98, R99) -/

/-- The KX-DDR set that the topology gives a target, 0xFF for none. -/
def ownKxSet (s : State) (c t : Nat) : Nat := ((Tab.get {} c s.img.topo : Topo).kxTset[t]?).getD 0xFF

/-- The note of a KX-DDR ceiling on a part without KX-DDR (R2). -/
def kxNoted (c t : Nat) (s : State) : State :=
  if s.part = .ig7316 ∧ s.get Fld.stkChmodeCeil c = 8 ∧ ¬ ownKxSet s c t = 0xFF then logOnce c t 300 s else s

/-- One attempt at training, with the entry into KX-DDR that is allowed as training begins. -/
def trainTried (c t : Nat) (s : State) (m k : Train) (w : State) : Bool × State :=
  trainOnce c t true (if ownKxSet s c t = 0xFF then none else kxRate (kxNoted c t s) c t) s.img.cal.gbRd s.img.cal.gbWr m k w

/-- A target trained: KX_REQ stands where it has entered KX-DDR (log entry 78). -/
def trained (c t : Nat) (s : State) : State := if s.flag Fld.stkTgtcfgKx (c * 8 + t) then s.putFlag Fld.stkTgtcfgKxReq true (c * 8 + t) else s

/-- A target that its training rejects leaves start-up. -/
def trainRejected (c t : Nat) (s : State) : State := raiseStage (aliveDropped c t (targetOff c t 0x33 s))

/-- What becomes of a target after its attempts. -/
def trainOutcome (c t : Nat) (r : Bool × State) : State := if !r.1 then raiseStage (aliveDropped c t r.2) else trained c t r.2

theorem trainOutcome_failed (c t : Nat) (s : State) : trainOutcome c t (false, s) = raiseStage (aliveDropped c t s) := by
  unfold trainOutcome
  exact if_pos rfl

theorem trainOutcome_passed {c t : Nat} {r : Bool × State} (h : r.1 = true) : trainOutcome c t r = trained c t r.2 := by
  unfold trainOutcome
  rw [h]
  rfl

theorem kxNoted_alive (c t : Nat) (s : State) : AliveKept c s (kxNoted c t s) := by
  unfold kxNoted
  exact AliveKept.ite (AliveKept.logOnce t 300 s) (AliveKept.refl s)

theorem logOnce_img (c t key : Nat) (s : State) : (logOnce c t key s).img = s.img := by
  unfold logOnce
  dsimp only
  split <;> rfl

theorem kxNoted_img (c t : Nat) (s : State) : (kxNoted c t s).img = s.img := by
  unfold kxNoted
  split
  · exact logOnce_img c t 300 s
  · rfl

section
variable {c t : Nat} {ms : List TrainSet} {s : State} (hal : isAlive s c t = true)
include hal

theorem trainTarget_missing (hx : ms.find? (fun x => x.tgt == t) = none) : trainTarget c ms s t = trainRejected c t (kxNoted c t s) := by
  unfold trainTarget kxNoted ownKxSet trainRejected
  dsimp only
  rw [hal, hx]
  simp only [Bool.not_true, Bool.false_eq_true, if_false, Bool.not_false, if_true, Bool.not_eq_true', beq_eq_false_iff_ne, ne_eq]
  rfl

theorem trainTarget_found {x : TrainSet} (hx : ms.find? (fun x => x.tgt == t) = some x) : trainTarget c ms s t =
    if (trainTried c t s x.a x.ka (kxNoted c t s)).1 then trained c t (trainTried c t s x.a x.ka (kxNoted c t s)).2
    else if (trainTried c t s x.b x.kb (trainTried c t s x.a x.ka (kxNoted c t s)).2).1 then
      trained c t (trainTried c t s x.b x.kb (trainTried c t s x.a x.ka (kxNoted c t s)).2).2
    else trainRejected c t (trainTried c t s x.b x.kb (trainTried c t s x.a x.ka (kxNoted c t s)).2).2 := by
  have himg := kxNoted_img c t s
  have hout : trainTarget c ms s t = trainOutcome c t (trainTwice c t true (if ownKxSet s c t = 0xFF then none else kxRate (kxNoted c t s) c t)
      s.img.cal.gbRd s.img.cal.gbWr x (kxNoted c t s)) := by
    unfold trainTarget kxNoted ownKxSet
    dsimp only
    rw [hal, hx]
    simp only [Bool.not_true, Bool.false_eq_true, if_false, Bool.not_eq_true', beq_eq_false_iff_ne, ne_eq, beq_iff_eq]
    rw [← ownKxSet, ← kxNoted, himg]
    generalize trainTwice c t true _ _ _ x (kxNoted c t s) = r
    unfold trainOutcome trained aliveDropped
    simp only [Bool.not_eq_true']
  rw [hout]
  unfold trainTwice
  dsimp only
  rw [← trainTried, ← trainTried]
  generalize trainTried c t s x.a x.ka (kxNoted c t s) = r
  generalize trainTried c t s x.b x.kb r.2 = q
  split
  · exact trainOutcome_passed ‹_›
  · split
    · exact trainOutcome_passed ‹_›
    · exact trainOutcome_failed c t _

end

theorem AliveKept.targetOff (c t code : Nat) (s : State) : AliveKept c s (targetOff c t code s) := by
  have hlun (k : Nat) (u : State) : AliveKept c u (lunOff k u) := by
    unfold lunOff
    exact AliveKept.ite ((AliveKept.of_ch (t := u.clrBit .stkTgtcfg (tgtIdx k) (lunL k)) rfl).trans
      ((AliveKept.ite (AliveKept.putFlag _ _ _ _) (AliveKept.refl _)).trans (AliveKept.of_ch rfl))) (AliveKept.refl u)
  unfold Machine.targetOff
  exact (AliveKept.foldl (fun u l => hlun (lunKey c t l) u) _ _).trans ((AliveKept.putFlag _ _ _ _).trans (AliveKept.logPacked _ _ _ _ _))

/-- Who is in start-up, of targets other than `t`. -/
def OthersKept (c t : Nat) (s u : State) : Prop := ∀ k, k ≠ t → isAlive u c k = isAlive s c k

theorem OthersKept.of_alive {c t : Nat} {s u : State} (h : AliveKept c s u) : OthersKept c t s u := fun k _ => congrArg (BitVec.getLsbD · k) h

theorem trainRejected_others (c t : Nat) (s : State) : OthersKept c t s (trainRejected c t s) := by
  intro k hk
  have hoff : isAlive (targetOff c t 0x33 s) c k = isAlive s c k := congrArg (BitVec.getLsbD · k) (AliveKept.targetOff c t 0x33 s)
  unfold trainRejected
  by_cases h8 : k < 8
  · rw [isAlive_dropped c h8, hoff, decide_eq_true hk, Bool.and_true]
  · rw [isAlive, isAlive, BitVec.getLsbD_of_ge _ _ (by omega), BitVec.getLsbD_of_ge _ _ (by omega)]

theorem trained_alive (c t : Nat) (s : State) : AliveKept c s (trained c t s) := by
  unfold trained
  exact AliveKept.ite (AliveKept.putFlag _ _ _ s) (AliveKept.refl s)

theorem trainTarget_gone {c t : Nat} {ms : List TrainSet} {s : State} (h : isAlive s c t = false) : trainTarget c ms s t = s := by
  unfold trainTarget
  rw [h]
  rfl

theorem trainTarget_others (c t : Nat) (ms : List TrainSet) (s : State) : OthersKept c t s (trainTarget c ms s t) := by
  by_cases hal : isAlive s c t = true
  · have hv : OthersKept c t s (kxNoted c t s) := OthersKept.of_alive (kxNoted_alive c t s)
    have htry (m k : Train) (w : State) : AliveKept c w (trainTried c t s m k w).2 := AliveKept.trainOnce t true _ _ _ m k w
    cases hx : ms.find? (fun x => x.tgt == t) with
    | none =>
      rw [trainTarget_missing hal hx]
      exact fun k hk => (trainRejected_others c t _ k hk).trans (hv k hk)
    | some x =>
      rw [trainTarget_found hal hx]
      have h1 := (kxNoted_alive c t s).trans (htry x.a x.ka (kxNoted c t s))
      have h2 := h1.trans (htry x.b x.kb _)
      split
      · exact OthersKept.of_alive (h1.trans (trained_alive c t _))
      · split
        · exact OthersKept.of_alive (h2.trans (trained_alive c t _))
        · exact fun k hk => (trainRejected_others c t _ k hk).trans (OthersKept.of_alive h2 k hk)
  · rw [trainTarget_gone (Bool.eq_false_iff.mpr hal)]
    exact fun _ _ => rfl

/-- A target that its training rejects is offline, with the code of its failure (R99). -/
theorem trainRejected_spec (c : Nat) {t : Nat} (ht : t < 8) (s : State) : isAlive (trainRejected c t s) c t = false ∧
    (trainRejected c t s).flag Fld.stkTgtcfgOnline (c * 8 + t) = false ∧ ∃ e ∈ (trainRejected c t s).log, e.unit = uSTK ∧ e.code = 0x33 := by
  have h := targetLeft_of_off (targetOff_step c ht 0x33 s) (targetOff_regs c t 0x33 s).1 (loggedWithin_logPacked _ _ _ _ _)
  refine ⟨(h.alive ht).trans ?_, h.online, h.logged.mem⟩
  simp

/-! ## A channel with one target in start-up -/

section
variable {s : State} {c i : Nat} (hrun : s.running = true) (hc : c < 128) (hi : i < 8) (hst : (s.chan c).stage = 4) (hal : (s.chan c).alive = 1#8 <<< i)
include hi hal

theorem isAlive_only (k : Nat) : isAlive (stageSet c 5 s) c k = decide (k = i) := by
  rw [isAlive_stageSet, isAlive, hal]
  by_cases hk : k < 8
  · exact getLsbD_targetBit hk i
  · rw [BitVec.getLsbD_of_ge _ _ (by omega)]
    exact (decide_eq_false (by omega)).symm

include hrun hc hst

/-- The channel's stage is that target's training. -/
theorem trainStage_eq (ms : List TrainSet) : exec (.trainStage c ms) s = .next (trainTarget c ms (stageSet c 5 s) i) := by
  have hal0 : (s.chan c).alive ≠ 0 := fun h => by
    have hbit := getLsbD_targetBit hi i
    rw [← hal, h] at hbit
    simp at hbit
  have hg : (s.running && decide (c < 128) && (s.chan c).stage == 4 && (s.chan c).alive != 0) = true := by
    rw [hrun, hst, decide_eq_true hc, bne_iff_ne.mpr hal0]
    rfl
  have hone : (List.range 8).foldl (trainTarget c ms) (stageSet c 5 s) = trainTarget c ms (stageSet c 5 s) i := by
    refine foldl_once (fun k hk => trainTarget_gone ?_) (fun k hk => trainTarget_gone ?_) List.nodup_range (List.mem_range.mpr hi)
    · rw [isAlive_only hi hal, decide_eq_false hk]
    · rw [trainTarget_others c i ms _ k hk, isAlive_only hi hal, decide_eq_false hk]
  rw [← hone]
  show execTrainStage c ms s = _
  unfold execTrainStage
  rw [hg]
  exact onlyIf_true _ _

end

end Sys2Proof.Machine
end

section
/-! PROOFS. LEDGER of a channel's LUNs, and start-up as a whole (O53). -/
namespace Sys2Proof.Machine

/-! ## One LUN's ledger (R100, R574) -/

/-- Only the ledgers, their LUNs and LEDGER_SEED moved. -/
structure LedgerStep (s t : State) : Prop where
  rest : t = { s with
    regs := t.regs
    cal := { s.cal with seeded := t.cal.seeded, ledgers := t.cal.ledgers, accepted := t.cal.accepted } }
  regs : ∀ k i, k ≠ .glbBootSts → t.reg k i = s.reg k i
  seeded : ∀ n ∈ s.cal.seeded, n ∈ t.cal.seeded
  flag : s.flag Fld.glbBootStsLedgerSeed = true → t.flag Fld.glbBootStsLedgerSeed = true

namespace LedgerStep
variable {s t u : State}

theorem refl (s : State) : LedgerStep s s := ⟨rfl, fun _ _ _ => rfl, fun _ h => h, fun h => h⟩

theorem trans (h : LedgerStep s t) (g : LedgerStep t u) : LedgerStep s u := by
  refine ⟨?_, fun k i hk => (g.regs k i hk).trans (h.regs k i hk), fun n hn => g.seeded n (h.seeded n hn), fun hf => g.flag (h.flag hf)⟩
  rw [g.rest, h.rest]

theorem setLedger (k : Nat) (l : Ledger) (s : State) : LedgerStep s (s.setLedger k l) := ⟨rfl, fun _ _ _ => rfl, fun _ h => h, fun h => h⟩

theorem online (h : LedgerStep s t) (k : Nat) : t.online k = s.online k := congrArg (BitVec.getLsbD · (lunL k)) (h.regs .stkTgtcfg (tgtIdx k) (by decide))

/-- The conditions of R100 speak of nothing that moves. -/
theorem holds (h : LedgerStep s t) (k : Nat) (f : List Byte) : ledgerHolds t k f = ledgerHolds s k f := by
  have himg : t.img = s.img := (congrArg State.img h.rest :)
  have hdg : t.dg = s.dg := (congrArg State.dg h.rest :)
  have htg : t.cal.tg = s.cal.tg := (congrArg (fun x : State => x.cal.tg) h.rest :)
  have hctl : t.get Fld.calCtlThresh = s.get Fld.calCtlThresh := congrArg Fld.calCtlThresh.get (h.regs .calCtl 0 (by decide))
  unfold ledgerHolds tempLive tempOf calThresh populated State.sense State.profile State.profileAt
  rw [himg, hdg, htg, hctl]

end LedgerStep

/-- A LUN's gauges are to be seeded, and a run of its target is queued at RUN. -/
def ledgerSeeded (k : Nat) (s : State) : State :=
  ({ s with cal := { s.cal with seeded := (tgtIdx k :: s.cal.seeded).eraseDups } } : State).putFlag Fld.glbBootStsLedgerSeed true

/-- A LUN's ledger page is kept. -/
def ledgerAccepted (k : Nat) (f : List Byte) (s : State) : State := { s with cal := { s.cal with accepted := Tab.put k (f.take 4096) s.cal.accepted } }

/-- A LUN is to be seeded. -/
def SeedsLun (k : Nat) (t : State) : Prop := t.flag Fld.glbBootStsLedgerSeed = true ∧ tgtIdx k ∈ t.cal.seeded

theorem ledgerSeeded_spec (k : Nat) (s : State) : LedgerStep s (ledgerSeeded k s) ∧ SeedsLun k (ledgerSeeded k s) ∧
    (ledgerSeeded k s).cal.accepted = s.cal.accepted := by
  have hflag : (ledgerSeeded k s).flag Fld.glbBootStsLedgerSeed = true := State.flag_putFlag _ _ rfl (by decide) _ _
  have hmem (n : Nat) : n ∈ (ledgerSeeded k s).cal.seeded ↔ n = tgtIdx k ∨ n ∈ s.cal.seeded := List.mem_eraseDups.trans List.mem_cons
  exact ⟨⟨rfl, fun j i hj => State.reg_putFlag_kind { s with cal := { s.cal with seeded := (tgtIdx k :: s.cal.seeded).eraseDups } } hj _ _ _,
    fun n hn => (hmem n).mpr (Or.inr hn), fun _ => hflag⟩, ⟨hflag, (hmem _).mpr (Or.inl rfl)⟩, rfl⟩

theorem ledgerAccepted_step (k : Nat) (f : List Byte) (s : State) : LedgerStep s (ledgerAccepted k f s) := ⟨rfl, fun _ _ _ => rfl, fun _ h => h, fun h => h⟩

/-- What LEDGER leaves of a LUN, as seen from the state `s` in which the stage began. -/
structure LedgerRead.Settled (reads : List LedgerRead) (k : Nat) (s t : State) : Prop where
  unread : reads.find? (fun x => x.lun == k) = none → SeedsLun k t
  blank : ∀ x, reads.find? (fun x => x.lun == k) = some x → newestLedger x.pages = none → SeedsLun k t
  page : ∀ x u p f, reads.find? (fun x => x.lun == k) = some x → newestLedger x.pages = some (u, p, f) →
    (ledgerHolds s k f = true → Tab.find k t.cal.accepted = some (f.take 4096)) ∧ (ledgerHolds s k f = false → SeedsLun k t)

/-- One LUN's step changes ledgers alone, keeps the pages accepted of other LUNs, and settles the LUN. -/
theorem ledgerLun_spec (reads : List LedgerRead) (s : State) (k : Nat) : LedgerStep s (ledgerLun reads s k) ∧
    (∀ j, j ≠ k → Tab.find j (ledgerLun reads s k).cal.accepted = Tab.find j s.cal.accepted) ∧
    (s.online k = true → LedgerRead.Settled reads k s (ledgerLun reads s k)) := by
  by_cases hon : s.online k = true
  swap
  · have h : ledgerLun reads s k = s := by
      unfold ledgerLun
      rw [Bool.eq_false_iff.mpr hon]
      rfl
    rw [h]
    exact ⟨LedgerStep.refl s, fun _ _ => rfl, fun h => absurd h hon⟩
  cases hx : reads.find? (fun x => x.lun == k) with
  | none =>
    have h : ledgerLun reads s k = ledgerSeeded k s := by
      unfold ledgerLun
      rw [hon, hx]
      rfl
    obtain ⟨hstep, hseed, hacc⟩ := ledgerSeeded_spec k s
    rw [h]
    refine ⟨hstep, fun j _ => by rw [hacc], fun _ => ⟨fun _ => hseed, fun x h => ?_, fun x _ _ _ h => ?_⟩⟩
    · rw [hx] at h; cases h
    · rw [hx] at h; cases h
  | some x =>
    have hsame {y : LedgerRead} (h : reads.find? (fun x => x.lun == k) = some y) : y = x := (Option.some.inj (hx.symm.trans h)).symm
    cases hp : newestLedger x.pages with
    | none =>
      have h : ledgerLun reads s k = ledgerSeeded k (s.setLedger k { second := false, page := x.front.1, lseq := 0 }) := by
        unfold ledgerLun
        rw [hon, hx]
        dsimp only
        rw [hp]
        rfl
      obtain ⟨hstep, hseed, hacc⟩ := ledgerSeeded_spec k (s.setLedger k { second := false, page := x.front.1, lseq := 0 })
      rw [h]
      refine ⟨(LedgerStep.setLedger k _ s).trans hstep, fun j _ => by rw [hacc]; rfl, fun _ => ⟨fun _ => hseed, fun _ _ _ => hseed, fun y u p f h hf => ?_⟩⟩
      rw [hsame h, hp] at hf
      cases hf
    | some r =>
      obtain ⟨u, p, f⟩ := r
      let l : Ledger := { second := u, page := if u then x.front.2 else x.front.1, lseq := num f 0x10 8 }
      have hset := LedgerStep.setLedger k l s
      have h : ledgerLun reads s k = if ledgerHolds s k f then ledgerAccepted k f (s.setLedger k l) else ledgerSeeded k (s.setLedger k l) := by
        rw [← hset.holds k f]
        unfold ledgerLun
        rw [hon, hx]
        dsimp only
        rw [hp]
        rfl
      have hpage {y : LedgerRead} {u' p' f'} (h : reads.find? (fun x => x.lun == k) = some y) (hf : newestLedger y.pages = some (u', p', f')) : f' = f := by
        rw [hsame h, hp] at hf
        exact ((Prod.mk.inj (Prod.mk.inj (Option.some.inj hf)).2).2).symm
      have hblank {y : LedgerRead} (h : reads.find? (fun x => x.lun == k) = some y) (hf : newestLedger y.pages = none) : False := by
        rw [hsame h, hp] at hf
        cases hf
      have hnone (h : reads.find? (fun x => x.lun == k) = none) : False := by
        rw [hx] at h
        cases h
      rw [h]
      by_cases hh : ledgerHolds s k f = true
      · rw [if_pos hh]
        refine ⟨hset.trans (ledgerAccepted_step k f _), fun j hj => Tab.find_put_ne hj _ _, fun _ => ⟨fun h => (hnone h).elim, fun y h hf => (hblank h hf).elim,
          fun y u' p' f' h hf => ?_⟩⟩
        obtain rfl := hpage h hf
        exact ⟨fun _ => Tab.find_put_same _ _ _, fun h => by rw [hh] at h; cases h⟩
      · rw [if_neg hh]
        obtain ⟨hstep, hseed, hacc⟩ := ledgerSeeded_spec k (s.setLedger k l)
        refine ⟨hset.trans hstep, fun j _ => by rw [hacc]; rfl, fun _ => ⟨fun h => (hnone h).elim, fun y h hf => (hblank h hf).elim, fun y u' p' f' h hf => ?_⟩⟩
        obtain rfl := hpage h hf
        exact ⟨fun h => absurd h hh, fun _ => hseed⟩

/-! ## The channel's LUNs -/

theorem SeedsLun.keep {k : Nat} {t u : State} (h : SeedsLun k t) (g : LedgerStep t u) : SeedsLun k u := ⟨g.flag h.1, g.seeded _ h.2⟩

theorem LedgerRead.Settled.of_step {reads : List LedgerRead} {k : Nat} {s t u : State} (h : LedgerStep s t) (g : LedgerRead.Settled reads k t u) :
    LedgerRead.Settled reads k s u :=
  ⟨g.unread, g.blank, fun x v p f hx hf => by rw [← h.holds k f]; exact g.page x v p f hx hf⟩

theorem LedgerRead.Settled.keep {reads : List LedgerRead} {k : Nat} {s t u : State} (g : LedgerRead.Settled reads k s t) (h : LedgerStep t u)
    (hacc : Tab.find k u.cal.accepted = Tab.find k t.cal.accepted) : LedgerRead.Settled reads k s u :=
  ⟨fun hx => (g.unread hx).keep h, fun x hx hp => (g.blank x hx hp).keep h, fun x v p f hx hf => by
    obtain ⟨hok, hbad⟩ := g.page x v p f hx hf
    exact ⟨fun hh => hacc.trans (hok hh), fun hh => (hbad hh).keep h⟩⟩

theorem foldl_ledgerLun_step (reads : List LedgerRead) (l : List Nat) (s : State) : LedgerStep s (l.foldl (ledgerLun reads) s) ∧
    ∀ j, j ∉ l → Tab.find j (l.foldl (ledgerLun reads) s).cal.accepted = Tab.find j s.cal.accepted := by
  induction l generalizing s with
  | nil => exact ⟨LedgerStep.refl s, fun _ _ => rfl⟩
  | cons k l ih =>
    obtain ⟨hstep, hacc, -⟩ := ledgerLun_spec reads s k
    obtain ⟨hsteps, haccs⟩ := ih (ledgerLun reads s k)
    refine ⟨hstep.trans hsteps, fun j hj => ?_⟩
    rw [List.mem_cons, not_or] at hj
    exact (haccs j hj.2).trans (hacc j hj.1)

/-- Each LUN is settled by its own step, and kept by the others'. -/
theorem foldl_ledgerLun (reads : List LedgerRead) {l : List Nat} (hn : l.Nodup) (s : State) {k : Nat} (hk : k ∈ l) (hon : s.online k = true) :
    LedgerRead.Settled reads k s (l.foldl (ledgerLun reads) s) := by
  induction l generalizing s with
  | nil => cases hk
  | cons j l ih =>
    obtain ⟨hjl, hnl⟩ := List.nodup_cons.mp hn
    obtain ⟨hstep, -, hset⟩ := ledgerLun_spec reads s j
    rw [List.foldl_cons]
    rcases List.mem_cons.mp hk with rfl | hkl
    · obtain ⟨hsteps, haccs⟩ := foldl_ledgerLun_step reads l (ledgerLun reads s k)
      exact (hset hon).keep hsteps (haccs k hjl)
    · exact LedgerRead.Settled.of_step hstep (ih hnl _ hkl ((hstep.online k).trans hon))

/-! ## LEDGER (R100, R574) -/

theorem stageSet_online (c n : Nat) (s : State) (k : Nat) : (stageSet c n s).online k = s.online k :=
  congrArg (BitVec.getLsbD · (lunL k)) (stageSet_reg c n s (k := .stkTgtcfg) (by decide) (by decide) (tgtIdx k))

theorem stageSet_holds (c n : Nat) (s : State) (k : Nat) (f : List Byte) : ledgerHolds (stageSet c n s) k f = ledgerHolds s k f := by
  have hrest := stageSet_rest c n s
  have htopo : (stageSet c n s).img.topo = s.img.topo := (congrArg (fun x : State => x.img.topo) hrest :)
  have hprof : (stageSet c n s).img.profiles = s.img.profiles := (congrArg (fun x : State => x.img.profiles) hrest :)
  have hdg : (stageSet c n s).dg = s.dg := (congrArg State.dg hrest :)
  have hcal : (stageSet c n s).cal = s.cal := (congrArg State.cal hrest :)
  have hctl : (stageSet c n s).get Fld.calCtlThresh = s.get Fld.calCtlThresh := congrArg Fld.calCtlThresh.get (stageSet_reg c n s (by decide) (by decide) 0)
  unfold ledgerHolds tempLive tempOf calThresh populated State.sense State.profile State.profileAt
  rw [htopo, hprof, hdg, hcal, hctl]

theorem SeedsLun.stageSet {k : Nat} {t : State} (h : SeedsLun k t) (c n : Nat) : SeedsLun k (stageSet c n t) := by
  have hcal : (Machine.stageSet c n t).cal = t.cal := (congrArg State.cal (stageSet_rest c n t) :)
  refine ⟨(raiseStage_flag _ (by decide) (Or.inr (Or.inl (by decide))) 0).trans h.1, ?_⟩
  rw [hcal]
  exact h.2

theorem LedgerRead.Settled.raise {reads : List LedgerRead} {k : Nat} {s t : State} (g : LedgerRead.Settled reads k s t) (c n : Nat) :
    LedgerRead.Settled reads k s (stageSet c n t) := by
  have hcal : (stageSet c n t).cal = t.cal := (congrArg State.cal (stageSet_rest c n t) :)
  refine ⟨fun hx => (g.unread hx).stageSet c n, fun x hx hp => (g.blank x hx hp).stageSet c n, fun x v p f hx hf => ?_⟩
  obtain ⟨hok, hbad⟩ := g.page x v p f hx hf
  rw [hcal]
  exact ⟨hok, fun hh => (hbad hh).stageSet c n⟩

/-- The LUNs of a channel. -/
def channelLuns (c : Nat) : List Nat := (List.range 32).map (c * 32 + ·)

theorem mem_channelLuns (k : Nat) : k ∈ channelLuns (lunCh k) := by
  have h : lunCh k = k / 32 := rfl
  exact List.mem_map.mpr ⟨k % 32, List.mem_range.mpr (Nat.mod_lt _ (by decide)), by omega⟩

theorem channelLuns_nodup (c : Nat) : (channelLuns c).Nodup := List.nodup_range.map fun a b h => by
  have h' : c * 32 + a = c * 32 + b := h
  omega

theorem ledgerStage_spec {s : State} {c : Nat} (hrun : s.running = true) (hc : c < 128) (hst : (s.chan c).stage = 5) (hal : (s.chan c).alive ≠ 0)
    (hw : s.pwr.waking = false) (reads : List LedgerRead) : ∃ t, exec (.ledgerStage c reads) s = .next t ∧ (t.chan c).stage = 7 ∧
      ∀ k, lunCh k = c → s.online k = true → LedgerRead.Settled reads k s t := by
  refine ⟨stageSet c 7 ((channelLuns c).foldl (ledgerLun reads) (stageSet c 6 s)), ?_, ?_, fun k hk hon => ?_⟩
  · have hg : (s.running && decide (c < 128) && (s.chan c).stage == 5 && (s.chan c).alive != 0 && !s.pwr.waking) = true := by
      rw [hrun, hst, hw, decide_eq_true hc, bne_iff_ne.mpr hal]
      rfl
    show execLedgerStage c reads s = _
    unfold execLedgerStage
    rw [hg]
    exact onlyIf_true _ _
  · rw [stageSet_chan]
  · subst hk
    have h := foldl_ledgerLun reads (channelLuns_nodup (lunCh k)) (stageSet (lunCh k) 6 s) (mem_channelLuns k) ((stageSet_online _ _ s k).trans hon)
    refine LedgerRead.Settled.raise ⟨h.unread, h.blank, fun x v p f hx hf => ?_⟩ _ 7
    rw [← stageSet_holds (lunCh k) 6 s]
    exact h.page x v p f hx hf

end Sys2Proof.Machine
end

section
/-! PROOFS. Start-up from the self-tests to the LEDGER stage (O53). -/
namespace Sys2Proof.Machine

/-- The slots of the image, as start-up reads them (R82 to R84, R89, R90, R117). -/
theorem kindlingSlotRead_spec {s : State} (hrun : s.running = true) (h2 : s.stage = 2) (hw : s.pwr.waking = false) (hfw : s.fwUp = false)
    (hcopy : s.img.copy = none) (hhold : s.xspi.hold = 0) (answers : Bool) (sfdp : Sfdp) (d : List Byte) :
    ∃ t, exec (.kindlingSlotRead answers sfdp d) s = .next t ∧ t.flag Fld.glbBootStsXspi1s = !(slotXspi sfdp s).octal ∧ t.xspi = (slotFetched sfdp d s).xspi ∧
      (slotCode answers d (slotFetched sfdp d s) = 0 → t.img.copy = some d ∧ t.sec = { s.sec with kek1 := kek1Of s, kek2 := kek2Of s } ∧ t.stage = 2 ∧
        t.banked = false) ∧
      (slotCode answers d (slotFetched sfdp d s) ≠ 0 → s.flag Fld.glbBootStsImgSlot = false → t.flag Fld.glbBootStsImgSlot = true ∧ t.img = s.img ∧
        t.banked = false) ∧
      (slotCode answers d (slotFetched sfdp d s) ≠ 0 → s.flag Fld.glbBootStsImgSlot = true → BankedBy t 0x01 s.now ∧
        t.get Fld.glbBootStsFailCode = slotCode answers d (slotFetched sfdp d s) ∧ t.get Fld.glbBootStsFailStage = 2) := by
  obtain ⟨hx1s, hx⟩ := slotSettled_kept (slotCode answers d (slotFetched sfdp d s)) d (slotFetched sfdp d s)
  exact ⟨slotSettled (slotCode answers d (slotFetched sfdp d s)) d (slotFetched sfdp d s), kindlingSlotRead_eq hrun h2 hw hfw hcopy hhold answers sfdp d,
    hx1s.trans (slotFetched_xspi1s sfdp d s), hx, slotSettled_spec (State.banked_of_running hrun) h2 sfdp d (slotCode_lt _ _ _)⟩

/-- Where a slot is read, and at what width (R82, R83). -/
theorem slotXspi_spec (sfdp : Sfdp) (s : State) :
    (s.flag Fld.glbBootStsImgSlot = false → slotBase s = 0 ∧ ((slotXspi sfdp s).octal = true ↔ sfdp.khz.isSome = true ∧ sfdpSigned sfdp = true) ∧
      ((slotXspi sfdp s).octal = false → (slotXspi sfdp s).khz = 12500)) ∧ (s.flag Fld.glbBootStsImgSlot = true → slotBase s = 0x1000000) := by
  unfold slotXspi slotBase
  refine ⟨fun h => ?_, fun h => ?_⟩
  · rw [h]
    exact ⟨rfl, xspiDiscover_spec sfdp s.xspi⟩
  · rw [h]
    rfl

theorem InReset.targets {rb : List (Nat × BitVec 8)} {s t : State} {e : Nat × Topo} (h : InReset rb s e t) {i : Nat} (hi : i < 8) :
    let mine := e.2.present.testBit i && (!s.pwr.waking || s.flag Fld.stkTgtcfgOnline (e.1 * 8 + i))
    isAlive t e.1 i = mine ∧ (mine = true → t.flag Fld.stkTgtcfgKx (e.1 * 8 + i) = false ∧
      (Tab.find i (t.chan e.1).rstAt = if (readyBits rb e.1).getLsbD i then some s.now else none)) := by
  have hmem := mem_fittedTargets (s := s) (e := e) hi
  refine ⟨(h.alive i hi).trans hmem, fun hmine => ?_⟩
  have hin : i ∈ fittedTargets s e := of_decide_eq_true (hmem.trans hmine)
  exact ⟨h.kx i hin, h.rstAt i hin⟩

/-- Training of a channel's only target in start-up (R98, R99). -/
theorem trainStage_spec {s : State} {c i : Nat} (hrun : s.running = true) (hc : c < 128) (hi : i < 8) (hst : (s.chan c).stage = 4)
    (hal : (s.chan c).alive = 1#8 <<< i) (ms : List TrainSet) {u : State} (hu : u = stageSet c 5 s) :
    (∀ x, ms.find? (fun x => x.tgt == i) = some x →
      ((trainTried c i u x.a x.ka (kxNoted c i u)).1 = true → exec (.trainStage c ms) s = .next (trained c i (trainTried c i u x.a x.ka (kxNoted c i u)).2)) ∧
      ((trainTried c i u x.a x.ka (kxNoted c i u)).1 = false → (trainTried c i u x.b x.kb (trainTried c i u x.a x.ka (kxNoted c i u)).2).1 = true →
        exec (.trainStage c ms) s = .next (trained c i (trainTried c i u x.b x.kb (trainTried c i u x.a x.ka (kxNoted c i u)).2).2)) ∧
      ((trainTried c i u x.a x.ka (kxNoted c i u)).1 = false → (trainTried c i u x.b x.kb (trainTried c i u x.a x.ka (kxNoted c i u)).2).1 = false →
        ∃ t, exec (.trainStage c ms) s = .next t ∧ isAlive t c i = false ∧ t.flag Fld.stkTgtcfgOnline (c * 8 + i) = false ∧
          ∃ e ∈ t.log, e.unit = uSTK ∧ e.code = 0x33)) ∧
    (ms.find? (fun x => x.tgt == i) = none → ∃ t, exec (.trainStage c ms) s = .next t ∧ isAlive t c i = false ∧
      t.flag Fld.stkTgtcfgOnline (c * 8 + i) = false) := by
  subst hu
  have hali : isAlive (stageSet c 5 s) c i = true := (isAlive_only hi hal i).trans (decide_eq_true rfl)
  rw [trainStage_eq hrun hc hi hst hal ms]
  refine ⟨fun x hx => ?_, fun hx => ?_⟩
  · rw [trainTarget_found hali hx]
    refine ⟨fun h1 => by rw [if_pos h1], fun h1 h2 => by rw [if_neg (by rw [h1]; decide), if_pos h2], fun h1 h2 => ?_⟩
    rw [if_neg (by rw [h1]; decide), if_neg (by rw [h2]; decide)]
    exact ⟨_, rfl, trainRejected_spec c hi _⟩
  · rw [trainTarget_missing hali hx]
    obtain ⟨hgone, hoff, -⟩ := trainRejected_spec c hi (kxNoted c i (stageSet c 5 s))
    exact ⟨_, rfl, hgone, hoff⟩

/-- What training goes by, said of the state in which the stage began. -/
theorem kxNoted_stageSet (c i : Nat) (s : State) : kxNoted c i (stageSet c 5 s) =
    if s.part = .ig7316 ∧ (stageSet c 5 s).get Fld.stkChmodeCeil c = 8 ∧ ¬ ownKxSet s c i = 0xFF then logOnce c i 300 (stageSet c 5 s) else stageSet c 5 s := by
  have hrest := stageSet_rest c 5 s
  have hpart : (stageSet c 5 s).part = s.part := (congrArg State.part hrest :)
  have htopo : (stageSet c 5 s).img.topo = s.img.topo := (congrArg (fun x : State => x.img.topo) hrest :)
  unfold kxNoted ownKxSet
  rw [hpart, htopo]

theorem trainTried_stageSet (c i : Nat) (s : State) (m k : Train) (w : State) : trainTried c i (stageSet c 5 s) m k w =
    trainOnce c i true (if ownKxSet s c i = 0xFF then none else kxRate (kxNoted c i (stageSet c 5 s)) c i) s.img.cal.gbRd s.img.cal.gbWr m k w := by
  have hrest := stageSet_rest c 5 s
  have htopo : (stageSet c 5 s).img.topo = s.img.topo := (congrArg (fun x : State => x.img.topo) hrest :)
  have hcal : (stageSet c 5 s).img.cal = s.img.cal := (congrArg (fun x : State => x.img.cal) hrest :)
  unfold trainTried ownKxSet
  rw [htopo, hcal]

/-- Settles O53: each stage is one lemma; the stages that work through a list of targets, channels or LUNs settle each by its own step. -/
theorem startUpStages : Obligations.StartUpStages := by
  intro s hrun
  refine ⟨fun fails rnd h0 => selftestStage_spec hrun h0 fails rnd, fun answers sfdp d h2 hw hfw hcopy hhold => ?_,
    fun key d h2 hw hfw hcopy => kindlingEnd_spec hrun h2 hw hfw hcopy key, fun rb h2 hfw hn => ?_, fun c i hc hi hst hal => ?_,
    fun c ids hc hst hal hdone => ?_, fun c i ms hc hi hst hal => ?_, fun c reads hc hst hal hw => ?_⟩
  · obtain ⟨hno, hmagic⟩ := slotCode_codes answers d (slotFetched sfdp d s)
    obtain ⟨-, -, hpass⟩ := imageCheck_codes answers d (slotFetched sfdp d s)
    obtain ⟨hslotA, hslotB⟩ := slotXspi_spec sfdp s
    obtain ⟨t, hex, hx1s, hxspi, hkept, hnext, hbank⟩ := kindlingSlotRead_spec hrun h2 hw hfw hcopy hhold answers sfdp d
    exact ⟨hno, hmagic, hpass, hslotA, hslotB, t, hex, hx1s, hxspi, rfl, hkept, hnext, hbank⟩
  · obtain ⟨t, hex, hall, hstage⟩ := targetResetStage_spec hrun h2 hfw hn rb
    refine ⟨t, hex, fun e he => ?_, hstage⟩
    have h := hall e he
    exact ⟨h.wpN, h.ceN, h.mode, h.rate, h.stage, h.bootAt, fun i hi => h.targets hi⟩
  · exact ⟨targetReadyReset_spec hrun hc hi hst hal, targetBusyTimeout_spec hrun hc hi hst hal, fun _ => trstTimeout_spec hrun hc hi hst hal⟩
  · obtain ⟨t, hex, hstage, hall⟩ := identifyStage_spec hrun hc hst hal hdone ids
    exact ⟨t, hex, hstage, fun i hi hali => ⟨(hall i hi hali).accepted, (hall i hi hali).rejected, (hall i hi hali).silent⟩⟩
  · have h := trainStage_spec hrun hc hi hst hal ms rfl
    simp only [trainTried_stageSet, kxNoted_stageSet] at h
    exact h
  · obtain ⟨t, hex, hstage, hall⟩ := ledgerStage_spec hrun hc hst hal hw reads
    exact ⟨t, hex, hstage, fun k hk _ hon => ⟨(hall k hk hon).unread, (hall k hk hon).blank, (hall k hk hon).page⟩⟩

end Sys2Proof.Machine
end

section
/-! SUPPORT. What the entries to SERVE_READ and RUN leave alone: the stage, the class-0 tokens, the security state and the wake (O54). -/
namespace Sys2Proof.Machine

/-- The stage and the other fields of GLB_BOOT_STS, the class-0 tokens, the security state and the wake stand. -/
structure StartKept (s t : State) : Prop where
  boot : ∀ i, t.reg .glbBootSts i = s.reg .glbBootSts i
  tok : t.md.c0Tok = s.md.c0Tok
  tokAt : t.md.c0At = s.md.c0At
  flush : t.md.flushEnded = s.md.flushEnded
  sec : t.sec = s.sec
  waking : t.pwr.waking = s.pwr.waking
  woke : t.pwr.wokeP3 = s.pwr.wokeP3

namespace StartKept
variable {s t u : State}

theorem refl (s : State) : StartKept s s := ⟨fun _ => rfl, rfl, rfl, rfl, rfl, rfl, rfl⟩

theorem trans (h : StartKept s t) (g : StartKept t u) : StartKept s u :=
  ⟨fun i => (g.boot i).trans (h.boot i), g.tok.trans h.tok, g.tokAt.trans h.tokAt, g.flush.trans h.flush, g.sec.trans h.sec, g.waking.trans h.waking,
    g.woke.trans h.woke⟩

theorem stage (h : StartKept s t) : t.stage = s.stage := congrArg Fld.glbBootStsStage.get (h.boot 0)

theorem ite {p : Prop} [Decidable p] (h : StartKept s t) (g : StartKept s u) : StartKept s (if p then t else u) := by
  split
  · exact h
  · exact g

theorem foldl {α : Type} {f : State → α → State} (hf : ∀ s a, StartKept s (f s a)) (l : List α) (s : State) : StartKept s (l.foldl f s) := by
  induction l generalizing s with
  | nil => exact refl s
  | cons a l ih => exact (hf s a).trans (ih _)

theorem put (f : Fld) (hf : .glbBootSts ≠ f.kind) (v i : Nat) (s : State) : StartKept s (s.put f v i) :=
  ⟨fun _ => State.reg_put_kind s hf v i _, rfl, rfl, rfl, rfl, rfl, rfl⟩

theorem putFlag (f : Fld) (hf : .glbBootSts ≠ f.kind) (b : Bool) (i : Nat) (s : State) : StartKept s (s.putFlag f b i) := put f hf _ i s

theorem logPacked (unit code : Nat) (o v : List (Nat × Nat)) (s : State) : StartKept s (s.logPacked unit code o v) :=
  ⟨fun _ => State.reg_logPacked s (by decide) _ _ _ _ _, rfl, rfl, rfl, rfl, rfl, rfl⟩

/-! ## Writes to the DRAM and the tables -/

theorem issueAll (l : List (FabReq × Purpose)) (s : State) : StartKept s (s.issueAll l) := by
  unfold State.issueAll
  exact ite (refl s) ⟨fun _ => rfl, rfl, rfl, rfl, rfl, rfl, rfl⟩

theorem dramWrite (addr cls : Nat) (data : List Byte) (p : Purpose) (s : State) : StartKept s (dramWrite addr cls data p s) := issueAll _ s

theorem putUnit (x : Nat) (f : UnitE → UnitE) (s : State) : StartKept s (putUnit x f s) := by
  have hmod : StartKept s (s.modUnit x f) := ⟨fun _ => rfl, rfl, rfl, rfl, rfl, rfl, rfl⟩
  exact hmod.trans ((dramWrite _ _ _ _ _).trans (dramWrite _ _ _ _ _))

theorem putGrp (n g : Nat) (x : Grp) (s : State) : StartKept s (putGrp n g x s) := by
  have hset : StartKept s (s.setGrp n g x) := ⟨fun _ => rfl, rfl, rfl, rfl, rfl, rfl, rfl⟩
  exact hset.trans ((dramWrite _ _ _ _ _).trans (dramWrite _ _ _ _ _))

/-! ## Records, reserves, rebuilds -/

theorem budget (s : State) : StartKept s (budget s) := by
  unfold Machine.budget
  exact ite ((put _ (by decide) _ _ s).trans (put _ (by decide) _ _ _)) (refl s)

theorem setStream (k : Nat) (x : Stream) (s : State) : StartKept s (s.setStream k x) := ⟨fun _ => rfl, rfl, rfl, rfl, rfl, rfl, rfl⟩

theorem jAppend (k : Nat) (r : JRec) (s : State) : StartKept s (jAppend k r s) := by
  have hheld (c : Bool) (u : State) : StartKept u (if c then u.putFlag Fld.mapCkptStsHeld true else u) := ite (putFlag _ (by decide) _ _ u) (refl u)
  unfold Machine.jAppend
  exact ite (refl s) ((setStream k _ s).trans (hheld _ _))

theorem openGroup {n estate g : Nat} {slc : Bool} (h : openGroup n estate slc s = some (g, t)) : StartKept s t := by
  unfold Machine.openGroup at h
  cases hp : pickUnits s (s.set_ n).slots with
  | none =>
    rw [hp] at h
    cases h
  | some us =>
    rw [hp] at h
    obtain ⟨-, rfl⟩ := Prod.mk.inj (Option.some.inj h)
    exact (putGrp _ _ _ _).trans (foldl (fun u e => putUnit _ _ u) _ _)

theorem addReserve {n : Nat} (h : addReserve n s = some t) : StartKept s t := by
  unfold Machine.addReserve at h
  cases ho : Machine.openGroup n 4 true s with
  | none =>
    rw [ho] at h
    cases h
  | some e =>
    obtain ⟨g, u⟩ := e
    rw [ho] at h
    have hmine (u : State) (l : List (Nat × Nat)) : StartKept u { u with wp := { u.wp with reserve := l } } := ⟨fun _ => rfl, rfl, rfl, rfl, rfl, rfl, rfl⟩
    obtain rfl := Option.some.inj h
    exact (openGroup ho).trans ((foldl (fun u r => jAppend 0 r u) _ u).trans ((jAppend _ _ _).trans ((hmine _ _).trans (budget _))))

theorem fillReserve (fuel : Nat) (s : State) : StartKept s (fillReserve fuel s) := by
  induction fuel generalizing s with
  | zero => exact refl s
  | succ fuel ih =>
    unfold Machine.fillReserve
    cases h : (reserveShort s).findSome? fun n => Machine.addReserve n s with
    | none => exact refl s
    | some t =>
      obtain ⟨n, -, hn⟩ := List.exists_of_findSome?_eq_some h
      exact (addReserve hn).trans (ih t)

theorem renewReserve (s : State) : StartKept s (renewReserve s) := by
  have hdrop (u : State) (l : List (Nat × Nat)) : StartKept u { u with wp := { u.wp with reserve := l } } := ⟨fun _ => rfl, rfl, rfl, rfl, rfl, rfl, rfl⟩
  have hheld (u : State) : StartKept u { u with wp := { u.wp with destageHeld := reservesOpen u, reloaded := [] } } :=
    ⟨fun _ => rfl, rfl, rfl, rfl, rfl, rfl, rfl⟩
  unfold Machine.renewReserve
  exact (hdrop s _).trans ((foldl (fun u g => jAppend 0 _ u) _ _).trans ((fillReserve _ _).trans (hheld _)))

theorem modSet (n : Nat) (f : SetSt → SetSt) (s : State) : StartKept s (s.modSet n f) := ⟨fun _ => rfl, rfl, rfl, rfl, rfl, rfl, rfl⟩

theorem of_rebuild (h : RebuildOnly s t) (hreg : ∀ i, t.reg .glbBootSts i = s.reg .glbBootSts i) (hstill : t.still = s.still) : StartKept s t :=
  ⟨hreg, (congrArg (fun x : State => x.md.c0Tok) h :), (congrArg (fun x : State => x.md.c0At) h :), (congrArg (fun x : State => x.md.flushEnded) h :),
    (congrArg State.sec h :), congrArg (fun x : Still => x.pwr.waking) hstill, congrArg (fun x : Still => x.pwr.wokeP3) hstill⟩

theorem rebuildRead_still (w : Rebuild) (x : Grp) (s : State) (q : Nat) : (rebuildRead w x s q).still = s.still := by
  unfold rebuildRead
  dsimp only
  rw [still_startRecon, still_addRd]

theorem rebuildRow_still (s : State) : (rebuildRow s).still = s.still := by
  unfold rebuildRow
  split
  · next w _ _ =>
    split
    · rfl
    · next x _ =>
      split
      · rfl
      · exact List.foldlRecOn _ _ (motive := fun t : State => t.still = s.still) rfl fun u hu q _ => (rebuildRead_still w x u q).trans hu
  · rfl

theorem withWork_still (w : Rebuild) (s : State) : (withWork w s).still = s.still := rfl

theorem rebuildGo_still (s : State) : (rebuildGo s).still = s.still := by
  unfold rebuildGo
  split
  · next set slot _ _ _ =>
    split
    · next g k _ _ =>
      split
      · next u x _ _ =>
        have hput : (groupTaken g slot k u set x s).still = s.still := (withWork_still _ _).trans (still_putUnit (unitKey k u) (fun y => takenUnit set g x y) s)
        have h := (rebuildRow_still (groupTaken g slot k u set x s)).trans hput
        simp only [groupTaken, withWork, takenWork, takenUnit] at h
        exact h
      · rfl
    · rfl
  · rfl

theorem rebuildGo (s : State) : StartKept s (rebuildGo s) :=
  of_rebuild (rebuildGo_only s).1 (fun i => (rebuildGo_only s).2 _ (by decide) i) (rebuildGo_still s)

theorem withLeft (l : List Nat) (s : State) : StartKept s (withLeft l s) := ⟨fun _ => rfl, rfl, rfl, rfl, rfl, rfl, rfl⟩

theorem withRebuilds (r : List (Nat × Nat)) (s : State) : StartKept s (withRebuilds r s) := ⟨fun _ => rfl, rfl, rfl, rfl, rfl, rfl, rfl⟩

theorem rebuildOver (n i : Nat) (rest : List (Nat × Nat)) (left : List Nat) (s : State) : StartKept s (rebuildOver n i rest left s) :=
  (withLeft left s).trans ((modSet n _ _).trans ((withRebuilds rest _).trans (budget _)))

theorem rebuildEnd (fuel : Nat) (s : State) : StartKept s (rebuildEnd fuel s) := by
  induction fuel generalizing s with
  | zero => exact refl s
  | succ fuel ih =>
    cases hr : s.md.rebuilds with
    | nil =>
      rw [rebuildEnd_nil hr]
      exact refl s
    | cons e rest =>
      rw [rebuildEnd_cons hr]
      refine ite ?_ ((withLeft _ s).trans (rebuildGo _))
      have ho := rebuildOver e.1 e.2 rest (stillLost s e.1 e.2 s.md.rebuildLeft) s
      cases rest with
      | nil => exact ho
      | cons f r => exact ho.trans (((withLeft _ _).trans (put _ (by decide) _ _ _)).trans (ih _))

theorem nextRebuild (s : State) : StartKept s (nextRebuild s) := by
  unfold Machine.nextRebuild
  split
  · exact refl s
  · exact ite (((withLeft _ s).trans (put _ (by decide) _ _ _)).trans (rebuildEnd _ _)) (refl s)

theorem replaceLun (n i : Nat) (s : State) : StartKept s (replaceLun n i s) := by
  have hspare (u : State) (a : List Nat) (b : List (Nat × Nat)) (c : Option Rebuild) (d : List Nat) :
      StartKept u { u with md := { u.md with spares := a, rebuilds := b, rebuilding := c, rebuildLeft := d } } := ⟨fun _ => rfl, rfl, rfl, rfl, rfl, rfl, rfl⟩
  unfold Machine.replaceLun
  split
  · exact (modSet n _ s).trans ((hspare _ _ _ _ _).trans ((jAppend _ _ _).trans (nextRebuild _)))
  · refine ite (refl s) ((modSet n _ s).trans ((foldl (fun u g => ?_) _ _).trans (jAppend _ _ _)))
    split
    · exact ite (putGrp _ _ _ u) (refl u)
    · exact refl u

theorem fillLost (s : State) : StartKept s (fillLost s) := by
  unfold Machine.fillLost
  exact foldl (fun u n => foldl (fun v i => ite (replaceLun n i v) (refl v)) _ u) _ s

/-! ## Sluices, counts and runs -/

theorem modSluice (i : Nat) (f : Slq → Slq) (s : State) : StartKept s (s.modSluice i f) := ⟨fun _ => rfl, rfl, rfl, rfl, rfl, rfl, rfl⟩

theorem restart (s : State) : StartKept s s.restart := by
  unfold State.restart
  split
  · exact ⟨fun _ => rfl, rfl, rfl, rfl, rfl, rfl, rfl⟩
  · exact refl s

theorem slqDbWrite (i : Nat) (w : Word) (s : State) : StartKept s (slqDbWrite i w s) := by
  have hidle (u : State) : StartKept u { u with pwr := { u.pwr with dramIdle := false } } := ⟨fun _ => rfl, rfl, rfl, rfl, rfl, rfl, rfl⟩
  have hlimit (c : Bool) (f : Slq → Slq) (u : State) : StartKept u (if c then u.modSluice i f else u) := ite (modSluice i f u) (refl u)
  have hclass (p : Prop) [Decidable p] (u : State) : StartKept u (if p then { u with pwr := { u.pwr with dramIdle := false } } else u) := ite (hidle u) (refl u)
  unfold Machine.slqDbWrite
  dsimp only
  exact ite ((restart s).trans (put _ (by decide) _ _ _)) ((restart s).trans ((hlimit _ _ _).trans ((hclass _ _).trans
    (ite (putFlag _ (by decide) _ _ _) ((modSluice _ _ _).trans (putFlag _ (by decide) _ _ _))))))

theorem scanAll (s : State) : StartKept s (scanAll s) := by
  unfold Machine.scanAll
  exact foldl (fun u i => ite (slqDbWrite i _ u) (refl u)) _ s

theorem startSeq (s : State) : StartKept s (startSeq s) := ⟨fun _ => rfl, rfl, rfl, rfl, rfl, rfl, rfl⟩

theorem countOffline (s : State) : StartKept s (countOffline s) :=
  (put _ (by decide) _ _ s).trans ((put _ (by decide) _ _ _).trans (put _ (by decide) _ _ _))

theorem queueRun (n ti : Nat) (s : State) : StartKept s (queueRun n ti s) := by
  rw [(queueRun_spec n ti s).1]
  exact ⟨fun _ => rfl, rfl, rfl, rfl, rfl, rfl, rfl⟩

theorem queueSweep (l : List Nat) (s : State) : StartKept s (queueSweep l s) := by
  have hnext (u : State) (n : Nat) : StartKept u { u with cal := { u.cal with next := n } } := ⟨fun _ => rfl, rfl, rfl, rfl, rfl, rfl, rfl⟩
  unfold Machine.queueSweep
  exact (hnext s _).trans (foldl (fun u ti => queueRun _ ti u) _ _)

theorem wakeRuns (s : State) : StartKept s (wakeRuns s) := queueSweep _ s

theorem fillAround (s : State) : StartKept s (fillAround s) := by
  have hra (u : State) (a b : Nat) : StartKept u { u with md := { u.md with raTok := a, raAt := b } } := ⟨fun _ => rfl, rfl, rfl, rfl, rfl, rfl, rfl⟩
  exact (put _ (by decide) _ _ s).trans (hra _ _ _)

theorem startCounts (s : State) : StartKept s (startCounts s) := by
  have hwa (u : State) (a b : Nat) : StartKept u { u with md := { u.md with waHost := a, waMedia := b } } := ⟨fun _ => rfl, rfl, rfl, rfl, rfl, rfl, rfl⟩
  exact ((put _ (by decide) _ _ s).trans (put _ (by decide) _ _ _)).trans (hwa _ _ _)

end StartKept

end Sys2Proof.Machine
end

section
/-! PROOFS. The MAP stage, pan reload and the choice of copies (O54). -/
namespace Sys2Proof.Machine

/-! ## The MAP stage (R102 to R104) -/

section
variable {s : State} (hrun : s.running = true)

theorem bootFail_banks {s : State} (hrun : s.running = true) {code : Nat} (hc : code < 256) :
    BankedBy (bootFail code s) 0x01 s.now ∧ (bootFail code s).get Fld.glbBootStsFailCode = code :=
  have h := bootFail_spec (State.banked_of_running hrun) hc
  ⟨h.1, h.2.1⟩

/-- The code of a failure is named, whatever was banked before. -/
theorem bootFail_code (code : Nat) (s : State) (hc : code < 256) : (bootFail code s).get Fld.glbBootStsFailCode = code := by
  rw [bootFail_eq, State.bank, State.get_bankNamed_boot rfl (by decide) (by decide), failNoted, State.get_logPacked _ (by decide), State.get_put_same _ _ (by decide)]
  exact Nat.mod_eq_of_lt hc

theorem bootFail_md (code : Nat) (s : State) : (bootFail code s).md = s.md := (congrArg State.md (Banking.bootFail code s) :)

/-- The map in place. -/
def mapPlaced (s : State) : State := { s with md := { s.md with placed := true } }

include hrun

theorem mapStage_blank (h7 : s.stage = 7) (hp : s.md.placed = false) {m : MapRead} (hn : newestCkpt s m = none) :
    exec (.mapStage m) s = .next (if s.img.geo.format ∧ checkpointsBlank m s then mapPlaced (format s) else bootFail 0x40 s) := by
  have hg : (s.running && s.stage == 7 && !s.md.placed) = true := by
    rw [hrun, h7, hp]
    rfl
  show execMapStage m s = _
  unfold execMapStage
  rw [hg, hn]
  exact onlyIf_true _ _

theorem mapStage_ckpt (h7 : s.stage = 7) (hp : s.md.placed = false) {m : MapRead} {h : HeadCopy} (hn : newestCkpt s m = some h) :
    (loadMap m (loadCkpt m h s) = none ∧ exec (.mapStage m) s = .next (bootFail 0x40 s)) ∨
      ((loadMap m (loadCkpt m h s)).isSome = true ∧ ∃ u, exec (.mapStage m) s = .next (mapPlaced u) ∨ exec (.mapStage m) s = .next (bootFail 0x41 u)) := by
  have hg : (s.running && s.stage == 7 && !s.md.placed) = true := by
    rw [hrun, h7, hp]
    rfl
  have hex : exec (.mapStage m) s = execMapStage m s := rfl
  rw [hex]
  unfold execMapStage
  rw [hg, onlyIf_true, hn]
  dsimp only
  cases hl : loadMap m (loadCkpt m h s) with
  | none => exact Or.inl ⟨rfl, rfl⟩
  | some v =>
    refine Or.inr ⟨rfl, ?_⟩
    dsimp only
    split
    · exact ⟨_, Or.inr rfl⟩
    · exact ⟨_, Or.inl rfl⟩

/-- The MAP stage places the map of a checkpoint or formats blank media; else it banks (R102 to R104). -/
theorem mapStage_spec (m : MapRead) (h7 : s.stage = 7) (hp : s.md.placed = false) : ∃ t, exec (.mapStage m) s = .next t ∧
    (newestCkpt s m = none → s.img.geo.format = true → checkpointsBlank m s = true → t.md.placed = true ∧ t.md.formatting = true) ∧
    (newestCkpt s m = none → ¬(s.img.geo.format = true ∧ checkpointsBlank m s = true) → BankedBy t 0x01 s.now ∧ t.get Fld.glbBootStsFailCode = 0x40 ∧ t.md = s.md) ∧
    (∀ h, newestCkpt s m = some h → (loadMap m (loadCkpt m h s) = none ∧ BankedBy t 0x01 s.now ∧ t.get Fld.glbBootStsFailCode = 0x40) ∨
      ((loadMap m (loadCkpt m h s)).isSome = true ∧ (t.md.placed = true ∨ t.get Fld.glbBootStsFailCode = 0x41))) := by
  cases hn : newestCkpt s m with
  | none =>
    refine ⟨_, mapStage_blank hrun h7 hp hn, fun _ hf hb => ?_, fun _ hno => ?_, fun h hh => nomatch hh⟩
    · rw [if_pos ⟨hf, hb⟩]
      exact ⟨rfl, rfl⟩
    · rw [if_neg hno]
      obtain ⟨hbank, hcode⟩ := bootFail_banks hrun (code := 0x40) (by decide)
      exact ⟨hbank, hcode, bootFail_md 0x40 s⟩
  | some h =>
    have hsame {x : HeadCopy} (e : some h = some x) : x = h := (Option.some.inj e).symm
    rcases mapStage_ckpt hrun h7 hp hn with ⟨hno, hex⟩ | ⟨hyes, u, hex | hex⟩
    · refine ⟨_, hex, fun e => (nomatch e), fun e => (nomatch e), fun x e => Or.inl ?_⟩
      rw [hsame e]
      exact ⟨hno, bootFail_banks hrun (by decide)⟩
    · refine ⟨_, hex, fun e => (nomatch e), fun e => (nomatch e), fun x e => Or.inr ?_⟩
      rw [hsame e]
      exact ⟨hyes, Or.inl rfl⟩
    · refine ⟨_, hex, fun e => (nomatch e), fun e => (nomatch e), fun x e => Or.inr ?_⟩
      rw [hsame e]
      exact ⟨hyes, Or.inr (bootFail_code 0x41 u (by decide))⟩

/-- R106: an appliance DRAM that answers nothing for 1 s banks. -/
theorem dramNoAnswer_spec (h7 : s.stage = 7) (hd : s.md.dramOk = false) (hdue : s.md.mapAt + 1000000000 ≤ s.now) : ∃ t, exec .dramNoAnswer s = .next t ∧
    BankedBy t 0x01 s.now ∧ t.get Fld.glbBootStsFailCode = 0x42 ∧ t.get Fld.glbBootStsFailStage = 7 := by
  obtain ⟨hbank, hcode, hstage⟩ := bootFail_spec (s := s) (State.banked_of_running hrun) (code := 0x42) (by decide)
  refine ⟨bootFail 0x42 s, ?_, hbank, hcode, hstage.trans h7⟩
  have hg : (s.running && s.stage == 7 && !s.md.dramOk && decide (s.md.mapAt + 1000000000 ≤ s.now)) = true := by
    rw [hrun, h7, hd, decide_eq_true hdue]
    rfl
  show execDramNoAnswer s = _
  unfold execDramNoAnswer
  rw [hg]
  exact onlyIf_true _ _

end

/-! ## Journal pages that replay applies (R349) -/

section
variable (p : JPage) (l : List JPage) (e : Nat)

theorem pagesApplied_unreadable (h : p.readable = false) : pagesApplied (p :: l) e = none := by
  unfold pagesApplied
  rw [h]
  rfl

variable {p} (hr : p.readable = true)
include hr

theorem pagesApplied_next (hc : pageCommitted p = true) (hj : p.jseq = e) :
    pagesApplied (p :: l) e = (pagesApplied l (e + 1)).map fun a => (p :: a.1, a.2) := by
  conv_lhs => unfold pagesApplied
  rw [hr, if_neg (by decide), if_pos ⟨hc, hj⟩]

theorem pagesApplied_repeat (hc : pageCommitted p = true) (hj : p.jseq + 1 = e) :
    pagesApplied (p :: l) e = (pagesApplied l e).map fun a => (p :: a.1, a.2) := by
  conv_lhs => unfold pagesApplied
  rw [hr, if_neg (by decide), if_neg (fun h => by omega), if_pos ⟨hc, hj⟩]

/-- A page that does not follow ends replay, but for one that was not committed and is programmed again in the next. -/
theorem pagesApplied_other (hn : ¬(pageCommitted p = true ∧ (p.jseq = e ∨ p.jseq + 1 = e))) :
    pagesApplied (p :: l) e = some ([], e) ∨ (pageCommitted p = false ∧ pagesApplied (p :: l) e = pagesApplied l e) := by
  have h1 : ¬(pageCommitted p = true ∧ p.jseq = e) := fun h => hn ⟨h.1, Or.inl h.2⟩
  have h2 : ¬(pageCommitted p = true ∧ p.jseq + 1 = e) := fun h => hn ⟨h.1, Or.inr h.2⟩
  cases l with
  | nil =>
    refine Or.inl ?_
    unfold pagesApplied
    rw [hr, if_neg (by decide), if_neg h1, if_neg h2]
  | cons q r =>
    by_cases hq : (!pageCommitted p) = true ∧ q.readable = true ∧ pageCommitted q = true ∧ q.jseq = e
    · refine Or.inr ⟨by simpa using hq.1, ?_⟩
      conv_lhs => unfold pagesApplied
      rw [hr, if_neg (by decide), if_neg h1, if_neg h2]
      exact if_pos hq
    · refine Or.inl ?_
      conv_lhs => unfold pagesApplied
      rw [hr, if_neg (by decide), if_neg h1, if_neg h2]
      exact if_neg hq

theorem pagesApplied_stray (hc : pageCommitted p = true) (hj : p.jseq ≠ e) (hj' : p.jseq + 1 ≠ e) : pagesApplied (p :: l) e = some ([], e) := by
  rcases pagesApplied_other l e hr (fun h => h.2.elim hj hj') with h | ⟨h, -⟩
  · exact h
  · rw [hc] at h
    cases h

end

/-- Pages put before those applied. -/
theorem pagesApplied_bounds (l : List JPage) : ∀ (e : Nat) (r : List JPage × Nat), pagesApplied l e = some r → e ≤ r.2 ∧
    ∀ q ∈ r.1, pageCommitted q = true ∧ e ≤ q.jseq + 1 ∧ q.jseq < r.2 := by
  induction l with
  | nil =>
    intro e r h
    obtain rfl := Option.some.inj h
    exact ⟨Nat.le_refl _, fun q hq => nomatch hq⟩
  | cons p l ih =>
    intro e r h
    by_cases hr : p.readable = true
    swap
    · rw [pagesApplied_unreadable p l e (Bool.eq_false_iff.mpr hr)] at h
      cases h
    by_cases hf : pageCommitted p = true ∧ (p.jseq = e ∨ p.jseq + 1 = e)
    · obtain ⟨hc, hj | hj⟩ := hf
      · rw [pagesApplied_next l e hr hc hj] at h
        obtain ⟨a, ha, rfl⟩ := Option.map_eq_some_iff.mp h
        obtain ⟨hle, hall⟩ := ih (e + 1) a ha
        refine ⟨by omega, fun q hq => ?_⟩
        rcases List.mem_cons.mp hq with rfl | hq
        · exact ⟨hc, by omega, by dsimp only; omega⟩
        · obtain ⟨h1, h2, h3⟩ := hall q hq
          exact ⟨h1, by omega, h3⟩
      · rw [pagesApplied_repeat l e hr hc hj] at h
        obtain ⟨a, ha, rfl⟩ := Option.map_eq_some_iff.mp h
        obtain ⟨hle, hall⟩ := ih e a ha
        refine ⟨hle, fun q hq => ?_⟩
        rcases List.mem_cons.mp hq with rfl | hq
        · exact ⟨hc, by omega, by dsimp only; omega⟩
        · exact hall q hq
    · rcases pagesApplied_other l e hr hf with h' | ⟨-, h'⟩
      · rw [h'] at h
        obtain rfl := Option.some.inj h
        exact ⟨Nat.le_refl _, fun q hq => nomatch hq⟩
      · rw [h'] at h
        exact ih e r h

/-! ## The newest copies (R364) -/

/-- The class of a copy: its LTA, and whether it is a mirror copy (log entry 82). -/
def SameCopy (x y : Meta × List Byte) : Prop := x.1.lta = y.1.lta ∧ (x.1.keyidx = 0xFFFE ↔ y.1.keyidx = 0xFFFE)

/-- The test for a copy of the same class. -/
def sameTest (e x : Meta × List Byte) : Bool := x.1.lta == e.1.lta && (x.1.keyidx == 0xFFFE) == (e.1.keyidx == 0xFFFE)

/-- One copy more among those kept. -/
def keepStep (a : List (Meta × List Byte)) (e : Meta × List Byte) : List (Meta × List Byte) :=
  match a.find? (sameTest e) with
  | some x => if x.1.seq < e.1.seq then e :: a.filter (fun y => !sameTest e y) else a
  | none => e :: a

theorem keepNewest_eq (l : List (Meta × List Byte)) : keepNewest l = l.foldl keepStep [] := rfl

theorem sameCopy_test (x e : Meta × List Byte) : sameTest e x = true ↔ SameCopy x e := by
  unfold SameCopy sameTest
  rw [Bool.and_eq_true, beq_iff_eq, beq_iff_eq, Bool.eq_iff_iff, beq_iff_eq, beq_iff_eq]

/-- Copies kept of a list: each is one of them, the newest of its class, and each class is kept once. -/
structure Newest (l a : List (Meta × List Byte)) : Prop where
  mem : ∀ e ∈ a, e ∈ l
  newest : ∀ e ∈ a, ∀ x ∈ l, SameCopy x e → x.1.seq ≤ e.1.seq
  all : ∀ x ∈ l, ∃ e ∈ a, SameCopy x e

theorem SameCopy.trans {x y z : Meta × List Byte} (h : SameCopy x y) (g : SameCopy y z) : SameCopy x z := ⟨h.1.trans g.1, h.2.trans g.2⟩

theorem SameCopy.symm {x y : Meta × List Byte} (h : SameCopy x y) : SameCopy y x := ⟨h.1.symm, h.2.symm⟩

theorem keepStep_newest {l a : List (Meta × List Byte)} (h : Newest l a) (e : Meta × List Byte) : Newest (l ++ [e]) (keepStep a e) := by
  have hin {x : Meta × List Byte} : x ∈ l ++ [e] ↔ x ∈ l ∨ x = e := by rw [List.mem_append, List.mem_singleton]
  unfold keepStep
  cases hf : a.find? (sameTest e) with
  | none =>
    have hno (y : Meta × List Byte) (hy : y ∈ a) : ¬SameCopy y e := fun hs => List.find?_eq_none.mp hf y hy ((sameCopy_test y e).mpr hs)
    have hnol (y : Meta × List Byte) (hy : y ∈ l) : ¬SameCopy y e := fun hs => by
      obtain ⟨z, hz, hzy⟩ := h.all y hy
      exact hno z hz (hzy.symm.trans hs)
    refine ⟨fun y hy => ?_, fun y hy x hx hs => ?_, fun x hx => ?_⟩
    · rcases List.mem_cons.mp hy with rfl | hya
      · exact hin.mpr (Or.inr rfl)
      · exact hin.mpr (Or.inl (h.mem y hya))
    · rcases List.mem_cons.mp hy with rfl | hya
      · rcases hin.mp hx with hx | rfl
        · exact absurd hs (hnol x hx)
        · exact Nat.le_refl _
      · rcases hin.mp hx with hx | rfl
        · exact h.newest y hya x hx hs
        · exact absurd hs.symm (hno y hya)
    · rcases hin.mp hx with hx | rfl
      · obtain ⟨z, hz, hzx⟩ := h.all x hx
        exact ⟨z, List.mem_cons_of_mem _ hz, hzx⟩
      · exact ⟨x, List.mem_cons_self, rfl, Iff.rfl⟩
  | some w =>
    have hw : SameCopy w e := (sameCopy_test w e).mp (List.find?_some hf)
    have hwa : w ∈ a := List.mem_of_find?_eq_some hf
    dsimp only
    split
    · next hlt =>
      have hkeep {y : Meta × List Byte} (hy : y ∈ a.filter fun y => !sameTest e y) :
          y ∈ a ∧ ¬SameCopy y e := by
        obtain ⟨hya, hyn⟩ := List.mem_filter.mp hy
        exact ⟨hya, fun hs => by rw [(sameCopy_test y e).mpr hs] at hyn; cases hyn⟩
      refine ⟨fun y hy => ?_, fun y hy x hx hs => ?_, fun x hx => ?_⟩
      · rcases List.mem_cons.mp hy with rfl | hya
        · exact hin.mpr (Or.inr rfl)
        · exact hin.mpr (Or.inl (h.mem y (hkeep hya).1))
      · rcases List.mem_cons.mp hy with rfl | hya
        · rcases hin.mp hx with hx | rfl
          · exact (h.newest w hwa x hx (hs.trans hw.symm)).trans (Nat.le_of_lt hlt)
          · exact Nat.le_refl _
        · rcases hin.mp hx with hx | rfl
          · exact h.newest y (hkeep hya).1 x hx hs
          · exact absurd hs.symm (hkeep hya).2
      · by_cases hxe : SameCopy x e
        · exact ⟨e, List.mem_cons_self, hxe⟩
        · rcases hin.mp hx with hx | rfl
          · obtain ⟨z, hz, hzx⟩ := h.all x hx
            refine ⟨z, List.mem_cons_of_mem _ (List.mem_filter.mpr ⟨hz, ?_⟩), hzx⟩
            have hze : ¬SameCopy z e := fun hs => hxe (hzx.trans hs)
            rw [Bool.eq_false_iff.mpr (mt (sameCopy_test z e).mp hze)]
            rfl
          · exact absurd ⟨rfl, Iff.rfl⟩ hxe
    · next hge =>
      refine ⟨fun y hy => hin.mpr (Or.inl (h.mem y hy)), fun y hy x hx hs => ?_, fun x hx => ?_⟩
      · rcases hin.mp hx with hx | rfl
        · exact h.newest y hy x hx hs
        · exact (Nat.le_of_not_lt hge).trans (h.newest y hy w (h.mem w hwa) (hw.trans hs))
      · rcases hin.mp hx with hx | rfl
        · exact h.all x hx
        · exact ⟨w, hwa, hw.symm⟩

theorem keepNewest_newest (l : List (Meta × List Byte)) : Newest l (keepNewest l) := by
  have h : ∀ (r l a : List (Meta × List Byte)), Newest l a → Newest (l ++ r) (r.foldl keepStep a) := by
    intro r
    induction r with
    | nil =>
      intro l a h
      rw [List.append_nil]
      exact h
    | cons e r ih =>
      intro l a h
      have := ih (l ++ [e]) _ (keepStep_newest h e)
      rwa [List.append_assoc] at this
  exact h l [] [] ⟨fun e he => (nomatch he), fun e he => (nomatch he), fun x hx => (nomatch hx)⟩

end Sys2Proof.Machine
end

section
/-! PROOFS. Pan reload, the entries to SERVE_READ and RUN, and the burn of counters (O54). -/
namespace Sys2Proof.Machine

/-! ## Pan reload (R105, R364) -/

theorem StartKept.mir (s : State) (l : Tab Mir) : StartKept s { s with wp := { s.wp with mir := l } } := ⟨fun _ => rfl, rfl, rfl, rfl, rfl, rfl, rfl⟩

theorem StartKept.handoff (slot : Nat) (p : Pan) (src : Option Nat) (data : List Byte) (tries : Nat) (s : State) :
    StartKept s ((handoffJob (s.putPan slot p) slot p src data tries).2.queueJob (handoffJob (s.putPan slot p) slot p src data tries).1) :=
  ⟨fun _ => rfl, rfl, rfl, rfl, rfl, rfl, rfl⟩

theorem StartKept.reloadCopy (s : State) (e : Meta × List Byte) : StartKept s (reloadCopy s e) := by
  unfold Machine.reloadCopy
  dsimp only
  refine ite (ite (refl s) ?_) (ite (refl s) (handoff _ _ _ _ _ s))
  exact (dramWrite _ _ _ _ s).trans ((dramWrite _ _ _ _ _).trans (mir _ _))

/-- Reload is over: the copies are counted, and whether the flush that they stem from had ended. -/
def reloadEnded (n : Nat) (held : List (Nat × Nat × List (List Byte))) (s : State) : State :=
  let s := s.put Fld.mapFlushStsReloaded (min 0xFFFFF n)
  let s := s.putFlag Fld.mapFlushStsReloadInc (!held.isEmpty && !s.md.flushEnded)
  { s with wp := { s.wp with reloaded := held.map fun g => (g.1, g.2.1) }, md := { s.md with reloadDone := true } }

/-- The groups of the reserve that hold something. -/
def reloadHeld (s : State) (ms : List (Nat × Nat × List (List Byte))) : List (Nat × Nat × List (List Byte)) :=
  ms.filter fun g => s.wp.reserve.contains (g.1, g.2.1) && !g.2.2.isEmpty

def withSeqMax (n : Nat) (s : State) : State := { s with md := { s.md with seqMax := n } }

theorem panReload_eq {s : State} (hrun : s.running = true) (h7 : s.stage = 7) (hp : s.md.placed = true) (hr : s.md.reloadDone = false)
    (ms : List (Nat × Nat × List (List Byte))) : ∃ keep top, (reloadHeld s ms = [] → keep = []) ∧
      exec (.panReload ms) s = .next (reloadEnded keep.length (reloadHeld s ms) (keep.foldl reloadCopy (withSeqMax top s))) := by
  have hg : (s.running && s.stage == 7 && s.md.placed && !s.md.reloadDone) = true := by
    rw [hrun, h7, hp, hr]
    rfl
  have hex : exec (.panReload ms) s = execPanReload ms s := rfl
  rw [hex]
  unfold execPanReload
  rw [hg]
  refine ⟨_, _, ?_, onlyIf_true _ _⟩
  intro h
  rw [reloadHeld] at h
  rw [h]
  rfl

theorem reloadEnded_spec (n : Nat) (held : List (Nat × Nat × List (List Byte))) (s : State) : (reloadEnded n held s).md.reloadDone = true ∧
    (reloadEnded n held s).get Fld.mapFlushStsReloaded = min 0xFFFFF n ∧ (reloadEnded n held s).flag Fld.mapFlushStsReloadInc = (!held.isEmpty && !s.md.flushEnded) ∧
    (reloadEnded n held s).wp = { s.wp with reloaded := held.map fun g => (g.1, g.2.1) } := by
  refine ⟨rfl, ?_, ?_, rfl⟩
  · refine (State.get_of_regs (s := (s.put Fld.mapFlushStsReloaded (min 0xFFFFF n)).putFlag Fld.mapFlushStsReloadInc (!held.isEmpty && !s.md.flushEnded)) rfl _ _).trans ?_
    rw [State.get_putFlag_field _ (by decide) (by decide), State.get_put_same _ _ (by decide)]
    exact Nat.mod_eq_of_lt (Nat.lt_of_le_of_lt (Nat.min_le_left _ _) (by decide))
  · refine (State.flag_of_regs (s := (s.put Fld.mapFlushStsReloaded (min 0xFFFFF n)).putFlag Fld.mapFlushStsReloadInc (!held.isEmpty && !s.md.flushEnded)) rfl _ _).trans ?_
    exact State.flag_putFlag _ _ rfl (by decide) _ _

theorem panReload_spec {s : State} (hrun : s.running = true) (h7 : s.stage = 7) (hp : s.md.placed = true) (hr : s.md.reloadDone = false)
    (ms : List (Nat × Nat × List (List Byte))) : ∃ t, exec (.panReload ms) s = .next t ∧ t.md.reloadDone = true ∧
      ((∀ g ∈ ms, s.wp.reserve.contains (g.1, g.2.1) = false) → t.get Fld.mapFlushStsReloaded = 0 ∧ t.flag Fld.mapFlushStsReloadInc = false ∧ t.wp.own = s.wp.own) ∧
      (∀ g, g ∈ ms → s.wp.reserve.contains (g.1, g.2.1) = true → g.2.2 ≠ [] → t.flag Fld.mapFlushStsReloadInc = !s.md.flushEnded ∧ (g.1, g.2.1) ∈ t.wp.reloaded) := by
  obtain ⟨keep, top, hnil, hex⟩ := panReload_eq hrun h7 hp hr ms
  obtain ⟨hdone, hcount, hinc, hwp⟩ := reloadEnded_spec keep.length (reloadHeld s ms) (keep.foldl reloadCopy (withSeqMax top s))
  have hflush : (keep.foldl reloadCopy (withSeqMax top s)).md.flushEnded = s.md.flushEnded :=
    (StartKept.foldl StartKept.reloadCopy keep (withSeqMax top s)).flush
  refine ⟨_, hex, hdone, fun hno => ?_, fun g hg hres hne => ?_⟩
  · have hheld : reloadHeld s ms = [] := List.filter_eq_nil_iff.mpr fun g hg => by
      rw [hno g hg, Bool.false_and]
      exact Bool.false_ne_true
    have hkeep := hnil hheld
    subst hkeep
    rw [hcount, hinc, hwp, hheld]
    exact ⟨rfl, rfl, rfl⟩
  · have hmem : g ∈ reloadHeld s ms := List.mem_filter.mpr ⟨hg, by
      rw [hres]
      simpa using hne⟩
    have hsome : (reloadHeld s ms).isEmpty = false := by
      cases h : reloadHeld s ms with
      | nil =>
        rw [h] at hmem
        cases hmem
      | cons _ _ => rfl
    rw [hinc, hwp, hsome, hflush]
    exact ⟨rfl, List.mem_map.mpr ⟨g, hmem, rfl⟩⟩

/-! ## SERVE_READ (R107, R111) -/

/-- The class-0 tokens full. -/
def tokensFull (s : State) : State := { s with md := { s.md with c0Tok := 400, c0At := s.now } }

theorem tokensFull_spec (s : State) : (tokensFull s).stage = s.stage ∧ (tokensFull s).md.c0Tok = 400 ∧ (tokensFull s).md.c0At = s.now := ⟨rfl, rfl, rfl⟩

theorem enterStage_now (n : Nat) (s : State) : (enterStage n s).now = s.now := by
  have h : (enterStage n s).time = s.time := rfl
  exact congrArg BitVec.toNat h

theorem countOffline_now (s : State) : (countOffline s).now = s.now := by
  have h : (countOffline s).time = s.time := rfl
  exact congrArg BitVec.toNat h

theorem serveReadEntry_eq {s : State} {ready : Bool} (hrun : s.running = true) (h7 : s.stage = 7)
    (hready : (s.md.placed && !s.md.formatting && (s.flag Fld.glbBootStsFormatted || (s.md.reloadDone && !handoffs s))) = ready) :
    exec .serveReadEntry s = onlyIf (ready && decide (s.reg .trpSts &&& 7 = 0)) s
      (budget (scanAll (renewReserve (budget (startSeq (tokensFull (enterStage 8 (countOffline s)))))))) := by
  show execServeReadEntry s = _
  unfold execServeReadEntry
  dsimp only
  rw [hready, hrun, h7]
  rfl

theorem serveReadEntry_spec {s : State} (hrun : s.running = true) (h7 : s.stage = 7) (hp : s.md.placed = true) (hf : s.md.formatting = false)
    (hready : s.flag Fld.glbBootStsFormatted = true ∨ (s.md.reloadDone = true ∧ handoffs s = false)) :
    (s.reg .trpSts &&& 7 = 0 → ∃ t, exec .serveReadEntry s = .next t ∧ t.stage = 8 ∧ t.md.c0Tok = 400 ∧ t.md.c0At = s.now) ∧
    (s.reg .trpSts &&& 7 ≠ 0 → exec .serveReadEntry s = .next s) := by
  have hr : (s.md.placed && !s.md.formatting && (s.flag Fld.glbBootStsFormatted || (s.md.reloadDone && !handoffs s))) = true := by
    rw [hp, hf]
    rcases hready with h | ⟨h, h'⟩
    · rw [h]
      rfl
    · rw [h, h', Bool.not_false, Bool.and_self, Bool.or_true, Bool.and_self]
  have hex := serveReadEntry_eq hrun h7 hr
  refine ⟨fun ht => ?_, fun ht => ?_⟩
  · rw [decide_eq_true ht] at hex
    have hk : StartKept (tokensFull (enterStage 8 (countOffline s))) (budget (scanAll (renewReserve (budget (startSeq (tokensFull (enterStage 8 (countOffline s)))))))) :=
      (StartKept.startSeq _).trans ((StartKept.budget _).trans ((StartKept.renewReserve _).trans ((StartKept.scanAll _).trans (StartKept.budget _))))
    obtain ⟨hstage, htok, hat⟩ := tokensFull_spec (enterStage 8 (countOffline s))
    exact ⟨_, hex, hk.stage.trans (hstage.trans (State.stage_enterStage _ (by decide))), hk.tok.trans htok,
      hk.tokAt.trans (hat.trans ((enterStage_now _ _).trans (countOffline_now s)))⟩
  · rw [decide_eq_false ht] at hex
    exact hex

/-! ## Frontiers (R366) -/

/-- The close of a group: its record, its units, its journal record. -/
def groupShut (n g : Nat) (x : Grp) (s : State) : State := putGrp n g { x with gstate := 2, closeAt := s.now } s

def unitShut (s : State) (e : Nat × Nat) : State :=
  putUnit (unitKey e.1 e.2) (fun u => if u.estate = 2 then { u with estate := 3, closeAt := s.now } else u) s

def unitsShut (n : Nat) (x : Grp) (s : State) : State := ((s.set_ n).slots.zip x.unit).foldl unitShut s

theorem closeGroup_eq {n g : Nat} {x : Grp} {s : State} (h : s.grp n g = some x) : closeGroup n g s =
    jAppend 0 ⟨jGroupClose, gref n g, (unitsShut n x (groupShut n g x s)).now, 0, 0⟩ (unitsShut n x (groupShut n g x s)) := by
  unfold closeGroup
  rw [h]
  rfl

theorem unitsShut_moved (n : Nat) (x : Grp) (s : State) : UnitsMoved s (unitsShut n x s) := by
  unfold unitsShut
  exact List.foldlRecOn _ _ (motive := fun t => UnitsMoved s t) (UnitsMoved.refl s) fun u hu e _ => hu.trans (UnitsMoved.putUnit _ _ u)

theorem groupShut_spec (n g : Nat) (x : Grp) (s : State) : (groupShut n g x s).grp n g = some { x with gstate := 2, closeAt := s.now } ∧
    (groupShut n g x s).md.seqMax = s.md.seqMax ∧ (groupShut n g x s).wp = s.wp := by
  refine ⟨State.grp_putGrp_same _ _ _ _, ?_, ?_⟩
  · exact (congrArg (fun t : State => t.md.seqMax) (putGrp_rest n g { x with gstate := 2, closeAt := s.now } s) :)
  · exact (congrArg State.wp (putGrp_rest n g { x with gstate := 2, closeAt := s.now } s) :)

theorem closeGroup_spec {n g : Nat} {x : Grp} {s : State} (h : s.grp n g = some x) :
    (closeGroup n g s).grp n g = some { x with gstate := 2, closeAt := s.now } ∧ (closeGroup n g s).md.seqMax = s.md.seqMax ∧
      (closeGroup n g s).wp.seq = s.wp.seq := by
  obtain ⟨hgrp, hmax, hwp⟩ := groupShut_spec n g x s
  have hu := unitsShut_moved n x (groupShut n g x s)
  have hj := jAppend_rest 0 ⟨jGroupClose, gref n g, (unitsShut n x (groupShut n g x s)).now, 0, 0⟩ (unitsShut n x (groupShut n g x s))
  rw [closeGroup_eq h]
  generalize unitsShut n x (groupShut n g x s) = u at hu hj ⊢
  generalize jAppend 0 _ u = v at hj ⊢
  have hmd : v.md = u.md := (congrArg State.md hj :)
  have hseq : v.wp.seq = u.wp.seq := (congrArg (fun t : State => t.wp.seq) hj :)
  have hug : u.md.groups = (groupShut n g x s).md.groups := (congrArg (fun t : State => t.md.groups) hu :)
  have hum : u.md.seqMax = (groupShut n g x s).md.seqMax := (congrArg (fun t : State => t.md.seqMax) hu :)
  have huw : u.wp = (groupShut n g x s).wp := (congrArg State.wp hu :)
  refine ⟨?_, ?_, ?_⟩
  · rw [State.grp, hmd, hug]
    exact hgrp
  · rw [hmd, hum, hmax]
  · rw [hseq, huw, hwp]

/-- Interrupted programs that a search found, in the log. -/
def brokenNoted (n g : Nat) (broken : List Nat) (s : State) : State := broken.foldl (fun s i => s.logPacked uMAP 0x1010 [(1, n), (3, g), (1, i)]) s

theorem brokenNoted_spec (n g : Nat) (broken : List Nat) (s : State) : (brokenNoted n g broken s).md = s.md ∧ (brokenNoted n g broken s).wp = s.wp ∧
    (brokenNoted n g broken s).stage = s.stage := by
  unfold brokenNoted
  induction broken generalizing s with
  | nil => exact ⟨rfl, rfl, rfl⟩
  | cons i l ih =>
    obtain ⟨hmd, hwp, hst⟩ := ih (s.logPacked uMAP 0x1010 [(1, n), (3, g), (1, i)])
    exact ⟨hmd, hwp, hst.trans (State.get_logPacked _ (by decide) _ _ _ _ _)⟩

/-- The largest SEQ that a search has read counts; in SERVE_READ the counter follows it. -/
def seqSeen (seq : Nat) (s : State) : State :=
  let s := withSeqMax (max s.md.seqMax seq) s
  if s.stage = 8 then startSeq s else s

theorem seqSeen_spec (seq : Nat) (s : State) : (seqSeen seq s).md = { s.md with seqMax := max s.md.seqMax seq } ∧
    (s.stage = 8 → 1 + max s.md.seqMax seq + 2 ^ 32 ≤ (seqSeen seq s).wp.seq) := by
  have hst : (withSeqMax (max s.md.seqMax seq) s).stage = s.stage := rfl
  unfold seqSeen
  dsimp only
  rw [hst]
  refine ⟨?_, fun h => ?_⟩
  · split <;> rfl
  · rw [if_pos h]
    exact Nat.le_max_right _ _

theorem frontierSearch_eq {s : State} {n g : Nat} (hrun : s.running = true) (hp : s.md.placed = true) (hst : s.stage = 7 ∨ s.stage = 8)
    (ho : (openData s).contains (n, g) = true) (front broken : List Nat) (seq : Nat) {x : Grp} {u : State} (hu : u = seqSeen seq (brokenNoted n g broken s))
    (hx : u.grp n g = some x) :
    exec (.frontierSearch n g front broken seq) s = .next (closeGroup n g (u.setGrp n g { x with rowsDone := front.foldl min (front.headD 0) })) := by
  have hg : (s.running && s.md.placed && (s.stage == 7 || s.stage == 8) && (openData s).contains (n, g)) = true := by
    rw [hrun, hp, ho]
    rcases hst with h | h <;> rw [h] <;> rfl
  subst hu
  show execFrontierSearch n g front broken seq s = _
  unfold execFrontierSearch
  rw [hg, onlyIf_true]
  dsimp only
  rw [← brokenNoted, ← withSeqMax, ← seqSeen, hx]

theorem frontierSearch_spec {s : State} {n g : Nat} {x : Grp} (hrun : s.running = true) (hp : s.md.placed = true) (hst : s.stage = 7 ∨ s.stage = 8)
    (ho : (openData s).contains (n, g) = true) (hx : s.grp n g = some x) (front broken : List Nat) (seq : Nat) :
    ∃ t y, exec (.frontierSearch n g front broken seq) s = .next t ∧ t.grp n g = some y ∧ y.gstate = 2 ∧ y.rowsDone = front.foldl min (front.headD 0) ∧
      y.unit = x.unit ∧ t.md.seqMax = max s.md.seqMax seq ∧ (s.stage = 8 → 1 + max s.md.seqMax seq + 2 ^ 32 ≤ t.wp.seq) := by
  obtain ⟨hbmd, -, hbst⟩ := brokenNoted_spec n g broken s
  obtain ⟨hmd, hseq⟩ := seqSeen_spec seq (brokenNoted n g broken s)
  rw [hbmd] at hmd hseq
  rw [hbst] at hseq
  have hux : (seqSeen seq (brokenNoted n g broken s)).grp n g = some x := by
    rw [State.grp, hmd]
    exact hx
  have hex := frontierSearch_eq hrun hp hst ho front broken seq rfl hux
  generalize seqSeen seq (brokenNoted n g broken s) = u at hmd hseq hex
  obtain ⟨hgrp, hmax, hwp⟩ := closeGroup_spec (s := u.setGrp n g { x with rowsDone := front.foldl min (front.headD 0) }) (n := n) (g := g)
    (x := { x with rowsDone := front.foldl min (front.headD 0) }) (Tab.find_put_same _ _ _)
  refine ⟨_, _, hex, hgrp, rfl, rfl, rfl, hmax.trans ?_, fun h => ?_⟩
  · show u.md.seqMax = _
    rw [hmd]
  · rw [hwp]
    exact hseq h

/-! ## RUN (R91, R109, R651) -/

theorem runEntry_wake {s : State} (hrun : s.running = true) (hw : s.pwr.waking = true) (h5 : s.stage = 5) (hall : ∀ e ∈ s.ch, e.2.alive = 0 ∨ e.2.stage = 5) :
    ∃ t, exec .runEntry s = .next t ∧ t.stage = 9 ∧ t.pwr.waking = false := by
  have hch : (s.ch.all fun e => e.2.alive == 0 || e.2.stage == 5) = true := List.all_eq_true.mpr fun e he => by
    rw [Bool.or_eq_true, beq_iff_eq, beq_iff_eq]
    exact hall e he
  have hg : (s.running && s.stage == 5 && (s.ch.all fun e => e.2.alive == 0 || e.2.stage == 5)) = true := by
    rw [hrun, h5, hch]
    rfl
  have hk := (StartKept.scanAll (tokensFull (enterStage 9 { s with pwr := { s.pwr with waking := false } }))).trans (StartKept.wakeRuns _)
  refine ⟨wakeRuns (scanAll (tokensFull (enterStage 9 { s with pwr := { s.pwr with waking := false } }))), ?_, ?_, ?_⟩
  · show execRunEntry s = _
    unfold execRunEntry
    rw [if_pos hw, hg]
    exact onlyIf_true _ _
  · exact hk.stage.trans ((tokensFull_spec _).1.trans (State.stage_enterStage _ (by decide)))
  · exact hk.waking

theorem advanceCounters_spec (s : State) : (∀ i, (advanceCounters s).reg .glbBootSts i = s.reg .glbBootSts i) ∧ (advanceCounters s).pwr = s.pwr ∧
    (s.img.commit = false → (advanceCounters s).sec = s.sec) ∧
    (s.img.commit = true → (advanceCounters s).sec =
      { s.sec with row := { s.sec.row with krb := burnTo s.img.secver s.sec.row.krb, frb := burnTo s.img.svn s.sec.row.frb } }) := by
  unfold advanceCounters
  by_cases hc : s.img.commit = true
  · rw [if_pos hc]
    exact ⟨fun i => (State.reg_put_kind _ (by decide) _ _ _).trans (State.reg_put_kind _ (by decide) _ _ _), rfl, fun h => absurd hc (by rw [h]; decide), fun _ => rfl⟩
  · rw [if_neg hc]
    exact ⟨fun _ => rfl, rfl, fun _ => rfl, fun h => absurd h hc⟩

/-- What RUN begins with once the counters have been advanced: rebuilds, and the runs that start-up has left. -/
def serviceBegun (s : State) : State :=
  let s := nextRebuild (fillLost (fillAround s))
  let s := if s.cal.seeded.isEmpty then s else queueSweep s.cal.seeded { s with cal := { s.cal with seeded := [] } }
  if s.pwr.wokeP3 then wakeRuns { s with pwr := { s.pwr with wokeP3 := false } } else s

theorem serviceBegun_spec (s : State) : (serviceBegun s).stage = s.stage ∧ (serviceBegun s).sec = s.sec ∧ (serviceBegun s).pwr.wokeP3 = false := by
  have hseed (u : State) : StartKept u (if u.cal.seeded.isEmpty then u else queueSweep u.cal.seeded { u with cal := { u.cal with seeded := [] } }) := by
    have hnone : StartKept u { u with cal := { u.cal with seeded := [] } } := ⟨fun _ => rfl, rfl, rfl, rfl, rfl, rfl, rfl⟩
    exact StartKept.ite (StartKept.refl u) (hnone.trans (StartKept.queueSweep _ _))
  have hk := ((StartKept.fillAround s).trans ((StartKept.fillLost _).trans (StartKept.nextRebuild _))).trans (hseed _)
  unfold serviceBegun
  dsimp only
  generalize (if (nextRebuild (fillLost (fillAround s))).cal.seeded.isEmpty then nextRebuild (fillLost (fillAround s)) else
    queueSweep (nextRebuild (fillLost (fillAround s))).cal.seeded
      { nextRebuild (fillLost (fillAround s)) with cal := { (nextRebuild (fillLost (fillAround s))).cal with seeded := [] } }) = u at hk
  by_cases hw : u.pwr.wokeP3 = true
  · rw [if_pos hw]
    have hr := StartKept.wakeRuns { u with pwr := { u.pwr with wokeP3 := false } }
    have hst : ({ u with pwr := { u.pwr with wokeP3 := false } } : State).stage = u.stage := rfl
    exact ⟨hr.stage.trans (hst.trans hk.stage), hr.sec.trans hk.sec, hr.woke⟩
  · rw [if_neg hw]
    exact ⟨hk.stage, hk.sec, Bool.eq_false_iff.mpr hw⟩

theorem runEntry_spec {s : State} (hrun : s.running = true) (hw : s.pwr.waking = false) (h8 : s.stage = 8) (ho : openData s = []) :
    ∃ t, exec .runEntry s = .next t ∧ t.stage = 9 ∧ t.pwr.wokeP3 = false ∧ (s.img.commit = false → t.sec = s.sec) ∧
      (s.img.commit = true → t.sec = { s.sec with row := { s.sec.row with krb := burnTo s.img.secver s.sec.row.krb, frb := burnTo s.img.svn s.sec.row.frb } }) := by
  have hg : (s.running && s.stage == 8 && (openData s).isEmpty) = true := by
    rw [hrun, h8, ho]
    rfl
  have hcounts := StartKept.startCounts (enterStage 9 s)
  have himg : (startCounts (enterStage 9 s)).img = s.img := rfl
  have hsec : (startCounts (enterStage 9 s)).sec = s.sec := rfl
  obtain ⟨hboot, -, hno, hyes⟩ := advanceCounters_spec (startCounts (enterStage 9 s))
  obtain ⟨hst, hrsec, hwoke⟩ := serviceBegun_spec (advanceCounters (startCounts (enterStage 9 s)))
  rw [himg, hsec] at hno hyes
  refine ⟨serviceBegun (advanceCounters (startCounts (enterStage 9 s))), ?_, ?_, hwoke, fun h => hrsec.trans (hno h), fun h => hrsec.trans (hyes h)⟩
  · show execRunEntry s = _
    unfold execRunEntry
    rw [if_neg (by rw [hw]; decide), hg]
    exact onlyIf_true _ _
  · have hadv : (advanceCounters (startCounts (enterStage 9 s))).stage = (startCounts (enterStage 9 s)).stage := congrArg Fld.glbBootStsStage.get (hboot 0)
    exact hst.trans (hadv.trans (hcounts.stage.trans (State.stage_enterStage s (by decide))))

/-! ## Counters burned (R91, R608) -/

section
variable {w : Nat}

/-- One bit of a burn: the lowest that is 0, while fewer than `n` are 1. -/
def burnBit (n : Nat) (x : BitVec w) (i : Nat) : BitVec w := if countOnes x < n ∧ !x.getLsbD i then x ||| (1#w <<< i) else x

theorem burnTo_eq (n : Nat) (x : BitVec w) : burnTo n x = (List.range w).foldl (burnBit n) x := rfl

theorem countOnes_card (x : BitVec w) : countOnes x = ((Finset.range w).filter fun i => x.getLsbD i = true).card := by
  unfold countOnes
  rw [← List.toFinset_card_of_nodup (List.nodup_range.filter _)]
  congr 1
  ext i
  simp

theorem getLsbD_setOne (x : BitVec w) {i : Nat} (hi : i < w) (j : Nat) : (x ||| (1#w <<< i)).getLsbD j = (x.getLsbD j || decide (j = i)) := by
  rw [BitVec.getLsbD_or, BitVec.getLsbD_shiftLeft, BitVec.getLsbD_one]
  by_cases h : j = i
  · subst h
    simp [hi]
    omega
  · by_cases hlt : j < i
    · simp [hlt, h]
    · simp [hlt, h]
      omega

/-- A bit that was 0, set, is one more. -/
theorem countOnes_setOne (x : BitVec w) {i : Nat} (hi : i < w) (hx : x.getLsbD i = false) : countOnes (x ||| (1#w <<< i)) = countOnes x + 1 := by
  have hset : (Finset.range w).filter (fun j => (x ||| (1#w <<< i)).getLsbD j = true) = insert i ((Finset.range w).filter fun j => x.getLsbD j = true) := by
    ext j
    rw [Finset.mem_filter, Finset.mem_insert, Finset.mem_filter, getLsbD_setOne x hi, Bool.or_eq_true, decide_eq_true_eq, Finset.mem_range]
    by_cases h : j = i
    · simp [h, hi]
    · simp [h]
  rw [countOnes_card, countOnes_card, hset, Finset.card_insert_of_notMem]
  rw [Finset.mem_filter, hx]
  exact fun h => Bool.false_ne_true h.2

/-- A value with every bit set has as many as it is wide. -/
theorem countOnes_full {x : BitVec w} (h : ∀ i, i < w → x.getLsbD i = true) : countOnes x = w := by
  rw [countOnes_card, Finset.filter_true_of_mem fun i hi => h i (Finset.mem_range.mp hi), Finset.card_range]

/-- A burn in progress from `x`, of the bits below `k`: bits only come, not more than `n`, and while there are fewer every bit passed is 1. -/
structure Burning (n : Nat) (x : BitVec w) (k : Nat) (y : BitVec w) : Prop where
  mono : ∀ i, x.getLsbD i = true → y.getLsbD i = true
  most : countOnes y ≤ max n (countOnes x)
  least : countOnes x ≤ countOnes y
  passed : countOnes y < n → ∀ i, i < k → y.getLsbD i = true

theorem Burning.step {n : Nat} {x y : BitVec w} {k : Nat} (h : Burning n x k y) (hk : k < w) : Burning n x (k + 1) (burnBit n y k) := by
  have hlt {i : Nat} (hi : i < k + 1) (hne : i ≠ k) : i < k := by omega
  unfold burnBit
  split
  · next hb =>
    obtain ⟨hless, hbit⟩ := hb
    have hbit' : y.getLsbD k = false := by simpa using hbit
    have hcount := countOnes_setOne y hk hbit'
    refine ⟨fun i hi => ?_, by omega, by have := h.least; omega, fun hn i hi => ?_⟩
    · rw [getLsbD_setOne y hk, h.mono i hi, Bool.true_or]
    · rw [getLsbD_setOne y hk]
      by_cases hik : i = k
      · rw [decide_eq_true hik, Bool.or_true]
      · rw [h.passed hless i (hlt hi hik), Bool.true_or]
  · next hb =>
    refine ⟨h.mono, h.most, h.least, fun hn i hi => ?_⟩
    by_cases hik : i = k
    · subst hik
      by_contra hy
      exact hb ⟨hn, by simpa using hy⟩
    · exact h.passed hn i (hlt hi hik)

theorem burnTo_burning (n : Nat) (x : BitVec w) : Burning n x w (burnTo n x) := by
  have h : ∀ k, k ≤ w → Burning n x k ((List.range k).foldl (burnBit n) x) := by
    intro k
    induction k with
    | zero => exact fun _ => ⟨fun _ h => h, Nat.le_max_right _ _, Nat.le_refl _, fun _ i hi => absurd hi (Nat.not_lt_zero i)⟩
    | succ k ih =>
      intro hk
      rw [List.range_succ, List.foldl_append]
      exact (ih (by omega)).step (by omega)
  exact h w (Nat.le_refl w)

theorem burnTo_spec (n : Nat) (x : BitVec w) : x &&& burnTo n x = x ∧ (n ≤ w → countOnes (burnTo n x) = max n (countOnes x)) := by
  have h := burnTo_burning n x
  refine ⟨BitVec.eq_of_getLsbD_eq fun i _ => ?_, fun hn => Nat.le_antisymm h.most ?_⟩
  · rw [BitVec.getLsbD_and]
    by_cases hi : x.getLsbD i = true
    · rw [hi, h.mono i hi]
      rfl
    · rw [Bool.eq_false_iff.mpr hi]
      rfl
  · refine Nat.max_le.mpr ⟨?_, h.least⟩
    by_contra hlt
    have hfull := countOnes_full fun i hi => h.passed (by omega) i hi
    omega

end

/-- Settles O54: one lemma for each step from the MAP stage to RUN; the pages that replay applies, the copies that reload keeps and the burn of a counter each by
an invariant of their list. -/
theorem mapStageToRun : Obligations.MapStageToRun := by
  intro s hrun
  refine ⟨fun m h7 hp => mapStage_spec hrun m h7 hp, fun p l e => ⟨rfl, pagesApplied_unreadable p l e, fun hr => pagesApplied_next l e hr,
      fun hr => pagesApplied_repeat l e hr, fun hr => pagesApplied_stray l e hr, pagesApplied_bounds l e⟩, dramNoAnswer_spec hrun,
    fun ms h7 hp hr => panReload_spec hrun h7 hp hr ms, fun l e he => ?_, serveReadEntry_spec hrun, fun n g front broken seq x hp hst ho hx => ?_,
    runEntry_wake hrun, runEntry_spec hrun, fun n x => burnTo_spec n x⟩
  · obtain ⟨hmem, hnewest, -⟩ := keepNewest_newest l
    exact ⟨hmem e he, fun x hx hlta hkind => hnewest e he x hx ⟨hlta, hkind⟩⟩
  · exact frontierSearch_spec hrun hp hst ho hx front broken seq

end Sys2Proof.Machine
end


section
/-! SUPPORT. The part and the queue's rest, which no command touches (O59): the rules by which a definition built of others leaves them as they are. -/

namespace Sys2Proof.Machine

/-- What no command changes: the part, and the commands that wait. -/
def State.queued (s : State) : Part × List Instr := (s.part, s.pending)

/-- A command answers a next state, with the part and the queue `q`. -/
def Answered (q : Part × List Instr) (o : Out) : Prop := ∃ t, o = .next t ∧ t.queued = q

variable {q : Part × List Instr}

theorem queued_mk (a b c d e f g h i j k l m n o p q r s t u v w x y z a1 b1 c1 d1 e1 f1) :
    (State.mk a b c d e f g h i j k l m n o p q r s t u v w x y z a1 b1 c1 d1 e1 f1).queued = (a, f1) := Prod.ext rfl rfl

theorem queued_back (s : State) : (s.part, s.pending) = s.queued := Prod.ext rfl rfl

theorem queued_foldl {α : Type} {l : List α} {f : State → α → State} {s : State} (hf : ∀ t x, (f t x).queued = t.queued) :
    (l.foldl f s).queued = s.queued := by
  induction l generalizing s with
  | nil => rfl
  | cons x l ih => exact ih.trans (hf s x)

theorem queued_foldl_snd {α β : Type} {l : List α} {f : β × State → α → β × State} {a : β × State} (hf : ∀ t x, (f t x).2.queued = t.2.queued) :
    (l.foldl f a).2.queued = a.2.queued := by
  induction l generalizing a with
  | nil => rfl
  | cons x l ih => exact ih.trans (hf a x)

theorem queued_snd_of {α : Type} {p : α × State} {a : α} {s : State} (h : p.2.queued = q) (e : p = (a, s)) : s.queued = q := by
  rw [e] at h; exact h

theorem answered_next {s : State} (h : s.queued = q) : Answered q (.next s) := ⟨s, rfl, h⟩

theorem answered_ite {c : Prop} [Decidable c] {a b : Out} (ha : Answered q a) (hb : Answered q b) : Answered q (if c then a else b) := by
  split <;> assumption

theorem answered_onlyIf {c : Bool} {s t : State} (h : t.queued = s.queued) : Answered s.queued (onlyIf c s t) := by
  refine answered_next ?_
  simp only [apply_ite State.queued, h, ite_self]

theorem answered_onCore {s t : State} (h : t.queued = s.queued) : Answered s.queued (onCore s t) := by
  refine answered_next ?_
  simp only [apply_ite State.queued, h, ite_self]

end Sys2Proof.Machine
end


section
/-! SUPPORT. Registers, interrupts, locks, the fabric and the security unit leave the part and the queue as they are. -/

namespace Sys2Proof.Machine

theorem queued_setReg (s : State) (k : RegKind) (i : Nat) (w : Word) : (State.setReg s k i w).queued = s.queued := by
  simp only [State.setReg, queued_mk, queued_back]

theorem queued_put (s : State) (f : Fld) (v i : Nat) : (State.put s f v i).queued = s.queued := by
  simp only [State.put, queued_setReg]

theorem queued_inc (s : State) (f : Fld) (i n : Nat) : (State.inc s f i n).queued = s.queued := by
  simp only [State.inc, queued_put]

theorem queued_putFlag (s : State) (f : Fld) (b : Bool) (i : Nat) : (State.putFlag s f b i).queued = s.queued := by
  simp only [State.putFlag, queued_put]

theorem queued_fresh (s : State) : (State.fresh s).2.queued = s.queued := by
  simp only [State.fresh, queued_mk, queued_back]

theorem queued_logEntry (s : State) (unit code : Nat) (obj val : BitVec 64) (rest : List Byte) : (State.logEntry s unit code obj val rest).queued = s.queued := by
  simp only [State.logEntry, queued_mk, queued_back, queued_setReg]

theorem queued_logPacked (s : State) (unit code : Nat) (obj val : List (Nat × Nat)) : (State.logPacked s unit code obj val).queued = s.queued := by
  simp only [State.logPacked, queued_logEntry]

theorem queued_respond (s : State) (r : Req) (code : RCode) (data : List Byte) : (State.respond s r code data).queued = s.queued := by
  simp only [State.respond, queued_mk, queued_back]

theorem queued_respondWrite (s : State) (r : Req) (code : RCode) : (State.respondWrite s r code).queued = s.queued := by
  simp only [State.respondWrite, apply_ite State.queued, ite_self, queued_respond]

theorem queued_setBit (s : State) (k : RegKind) (i b : Nat) : (State.setBit s k i b).queued = s.queued := by
  simp only [State.setBit, queued_mk, queued_back]

theorem queued_clrBit (s : State) (k : RegKind) (i b : Nat) : (State.clrBit s k i b).queued = s.queued := by
  simp only [State.clrBit, queued_setReg]

theorem queued_edge (s : State) (src : Source) : (State.edge s src).queued = s.queued := by
  simp only [State.edge, queued_setBit]

theorem queued_edgeAll (s : State) (k : Nat) : (State.edgeAll s k).queued = s.queued := by
  simp only [State.edgeAll, queued_mk, queued_back]

theorem queued_noteRefused (s : State) (src ofs : Nat) : (State.noteRefused s src ofs).queued = s.queued := by
  simp only [State.noteRefused, apply_ite State.queued, ite_self, queued_putFlag, queued_put, queued_inc]

theorem queued_takeIn (r : Req) (beats : Nat) (s : State) : (takeIn r beats s).queued = s.queued := by
  simp only [takeIn, queued_mk, queued_back]

theorem queued_giveIn (r : Req) (beats : Nat) (s : State) : (giveIn r beats s).queued = s.queued := by
  simp only [giveIn, queued_mk, queued_back]

theorem queued_abortEntry (s : State) : (State.abortEntry s).queued = s.queued := by
  unfold State.abortEntry
  split <;> simp only [queued_mk, queued_back, queued_put, queued_inc, queued_logPacked]

theorem queued_restart (s : State) : (State.restart s).queued = s.queued := by
  unfold State.restart
  split <;> simp only [queued_mk, queued_back]

theorem queued_regWrite (s : State) (r : Req) (k : RegKind) (i : Nat) (w : Word) (eff : State → State) (h_eff : ∀ (y0 : State), (eff y0).queued = y0.queued) : (regWrite s r k i w eff).queued = s.queued := by
  unfold regWrite
  split <;> simp only [apply_ite State.queued, ite_self, h_eff, queued_noteRefused, queued_putFlag, queued_abortEntry, queued_respondWrite]

theorem queued_regRead (s : State) (r : Req) (k : RegKind) (i : Nat) (eff : State → Word × State) (h_eff : ∀ (y0 : State), (eff y0).2.queued = y0.queued) : (regRead s r k i eff).queued = s.queued := by
  unfold regRead
  split <;> simp only [h_eff, queued_noteRefused, queued_respond]

theorem queued_plainWrite (s : State) (k : RegKind) (i : Nat) (w : Word) : (State.plainWrite s k i w).queued = s.queued := by
  simp only [State.plainWrite, queued_setReg]

theorem queued_clearPending (s : State) (x : Source) : (State.clearPending s x).queued = s.queued := by
  simp only [State.clearPending, queued_clrBit]

theorem queued_setStack (s : State) (t : Nat) (l : List (Nat × Nat)) : (State.setStack s t l).queued = s.queued := by
  simp only [State.setStack, queued_mk, queued_back]

theorem queued_claim (s : State) (t : Nat) : (claim s t).2.queued = s.queued := by
  unfold claim
  split <;> simp only [queued_clearPending, queued_setStack]

theorem queued_eoi (t : Nat) (w : Word) (s : State) : (eoi t w s).queued = s.queued := by
  unfold eoi
  split <;> simp only [apply_ite State.queued, ite_self, queued_setStack, queued_logPacked, queued_putFlag]

theorem queued_swi (w : Word) (s : State) : (swi w s).queued = s.queued := by
  simp only [swi, apply_ite State.queued, ite_self, queued_edge]

theorem queued_thrWrite (t : Nat) (w : Word) (s : State) : (thrWrite t w s).queued = s.queued := by
  simp only [thrWrite, queued_plainWrite, queued_put]

theorem queued_pendingWrite (k : RegKind) (i : Nat) (w hw : Word) (s : State) : (pendingWrite k i w hw s).queued = s.queued := by
  simp only [pendingWrite, queued_setReg]

theorem queued_maskWrite (k : RegKind) (i : Nat) (w : Word) (s : State) : (maskWrite k i w s).queued = s.queued := by
  unfold maskWrite
  split <;> simp only [queued_setReg]

theorem answered_execSourceEdge (src : Source) (s : State) : Answered s.queued (execSourceEdge src s) := by
  unfold execSourceEdge
  split <;> simp only [answered_onlyIf, queued_edge]

theorem answered_execSicClaim (r : Req) (t : Nat) (s : State) : Answered s.queued (execSicClaim r t s) := by
  simp only [execSicClaim, implies_true, answered_onlyIf, queued_claim, queued_regRead]

theorem answered_execSicEoi (r : Req) (t : Nat) (w : Word) (s : State) : Answered s.queued (execSicEoi r t w s) := by
  simp only [execSicEoi, implies_true, answered_onlyIf, queued_regWrite, queued_eoi]

theorem answered_execSicSwi (r : Req) (w : Word) (s : State) : Answered s.queued (execSicSwi r w s) := by
  simp only [execSicSwi, implies_true, answered_next, queued_swi, queued_regWrite]

theorem answered_execSicBaseWrite (r : Req) (t : Nat) (w : Word) (s : State) : Answered s.queued (execSicBaseWrite r t w s) := by
  simp only [execSicBaseWrite, implies_true, answered_onlyIf, queued_regWrite, queued_thrWrite]

theorem answered_execSicRouteWrite (r : Req) (i : Nat) (w : Word) (s : State) : Answered s.queued (execSicRouteWrite r i w s) := by
  simp only [execSicRouteWrite, implies_true, answered_onlyIf, queued_regWrite, queued_plainWrite]

theorem answered_execSicPendingWrite (r : Req) (ofs : Nat) (w hw : Word) (s : State) : Answered s.queued (execSicPendingWrite r ofs w hw s) := by
  unfold execSicPendingWrite
  split <;> simp only [implies_true, answered_next, queued_regWrite, queued_pendingWrite]

theorem queued_grantLock (s : State) (n src : Nat) : (grantLock s n src).queued = s.queued := by
  simp only [grantLock, queued_mk, queued_back, queued_putFlag, queued_put]

theorem queued_freeLock (s : State) (n : Nat) : (freeLock s n).queued = s.queued := by
  simp only [freeLock, queued_mk, queued_back, queued_putFlag, queued_put]

theorem queued_breakLock (s : State) (n : Nat) (byReset : Bool) : (breakLock s n byReset).queued = s.queued := by
  simp only [breakLock, queued_putFlag, queued_inc, queued_freeLock, queued_logEntry]

theorem queued_lockCtlWrite (r : Req) (n : Nat) (w : Word) (s : State) : (lockCtlWrite r n w s).queued = s.queued := by
  simp only [lockCtlWrite, apply_ite State.queued, ite_self, queued_grantLock, queued_inc, queued_freeLock]

theorem queued_lockStsWrite (r : Req) (n : Nat) (w : Word) (s : State) : (lockStsWrite r n w s).queued = s.queued := by
  simp only [lockStsWrite, apply_ite State.queued, ite_self, queued_plainWrite]

theorem queued_breakAll (s : State) (id : Nat) : (breakAll s id).queued = s.queued := by
  simp only [breakAll, implies_true, apply_ite State.queued, ite_self, queued_foldl, queued_breakLock]

theorem queued_ownerRst (w : Word) (s : State) : (ownerRst w s).queued = s.queued := by
  simp only [ownerRst, apply_ite State.queued, ite_self, queued_breakAll]

theorem answered_execLockAcquire (r : Req) (n : Nat) (w : Word) (s : State) : Answered s.queued (execLockAcquire r n w s) := by
  simp only [execLockAcquire, implies_true, answered_onlyIf, queued_regWrite, queued_lockCtlWrite]

theorem answered_execLockRelease (r : Req) (n : Nat) (w : Word) (s : State) : Answered s.queued (execLockRelease r n w s) := by
  simp only [execLockRelease, implies_true, answered_onlyIf, queued_regWrite, queued_lockCtlWrite]

theorem answered_execLeaseExpiry (n : Nat) (s : State) : Answered s.queued (execLeaseExpiry n s) := by
  simp only [execLeaseExpiry, answered_onlyIf, queued_breakLock]

theorem answered_execLckOwnerRst (r : Req) (w : Word) (s : State) : Answered s.queued (execLckOwnerRst r w s) := by
  simp only [execLckOwnerRst, implies_true, answered_next, queued_regWrite, queued_ownerRst]

theorem answered_execBrokenClear (r : Req) (n : Nat) (w : Word) (again : Bool) (s : State) : Answered s.queued (execBrokenClear r n w again s) := by
  simp only [execBrokenClear, implies_true, apply_ite State.queued, ite_self, answered_onlyIf, queued_regWrite, queued_putFlag, queued_lockStsWrite]

theorem queued_issueAll (s : State) (l : List (FabReq × Purpose)) : (State.issueAll s l).queued = s.queued := by
  simp only [State.issueAll, queued_mk, queued_back, apply_ite State.queued, ite_self]

theorem queued_issue (s : State) (q : FabReq) (p : Purpose) : (State.issue s q p).queued = s.queued := by
  simp only [State.issue, queued_issueAll]

theorem queued_takeOutst {p : Purpose} {s : State} {a y} (e : takeOutst p s = some (a, y)) : y.queued = s.queued := by
  unfold takeOutst at e
  repeat' split at e
  all_goals simp only [Option.some.injEq, Prod.mk.injEq, reduceCtorEq] at e
  all_goals obtain ⟨-, rfl⟩ := e
  all_goals simp only [queued_mk, queued_back]

theorem queued_codeTaken (o : Outst) (code : RCode) (s : State) : (codeTaken o code s).2.queued = s.queued := by
  simp only [codeTaken, apply_ite State.queued, apply_ite Prod.snd, ite_self, queued_logPacked]

theorem answered_execCreditReturn (port vc : Nat) (data : Bool) (s : State) : Answered s.queued (execCreditReturn port vc data s) :=
  answered_onlyIf rfl

theorem answered_execInboundAtomic (r : Req) (s : State) : Answered s.queued (execInboundAtomic r s) := by
  simp only [execInboundAtomic, answered_onCore, queued_respond]

theorem answered_execInboundReservedVc (r : Req) (s : State) : Answered s.queued (execInboundReservedVc r s) := by
  simp only [execInboundReservedVc, answered_onlyIf, queued_respond]

theorem answered_execInboundBoundaryCross (r : Req) (write : Bool) (addr len : Nat) (s : State) : Answered s.queued (execInboundBoundaryCross r write addr len s) := by
  simp only [execInboundBoundaryCross, apply_ite State.queued, ite_self, answered_onlyIf, queued_respond, queued_respondWrite]

theorem queued_setCtx (s : State) (m c : Nat) (x : Ctx) : (State.setCtx s m c x).queued = s.queued := by
  simp only [State.setCtx, queued_mk, queued_back]

theorem queued_freeCtx (s : State) (m c : Nat) : (State.freeCtx s m c).queued = s.queued := by
  simp only [State.freeCtx, queued_mk, queued_back]

theorem queued_freshBytes (s : State) (n : Nat) : (State.freshBytes s n).2.queued = s.queued := by
  simp only [State.freshBytes, queued_mk, queued_back]

theorem queued_blurBuf (s : State) (b : Tab Byte) (ofs len : Nat) : (State.blurBuf s b ofs len).2.queued = s.queued := by
  simp only [State.blurBuf, queued_freshBytes]

theorem queued_queueJob (s : State) (j : Job) : (State.queueJob s j).queued = s.queued := by
  simp only [State.queueJob, queued_mk, queued_back]

theorem queued_queueJobs (s : State) (l : List Job) : (State.queueJobs s l).queued = s.queued := by
  simp only [State.queueJobs, queued_mk, queued_back]

theorem queued_nextPort (s : State) : (State.nextPort s).2.queued = s.queued := by
  simp only [State.nextPort, queued_mk, queued_back]

theorem queued_deliverTee (s : State) (p : JobPath) (ofs : Nat) (data : List Byte) : (State.deliverTee s p ofs data).queued = s.queued := by
  simp only [State.deliverTee, queued_mk, queued_back]

theorem queued_faultBuf (m : Nat) (x : Ctx) (instr elem : Nat) (s : State) : (faultBuf m x instr elem s).2.queued = s.queued := by
  unfold faultBuf
  split <;> simp only [queued_blurBuf]

theorem queued_faultRegs (m code instr done : Nat) (addr : Option Nat) (s : State) : (faultRegs m code instr done addr s).queued = s.queued := by
  unfold faultRegs
  split <;> simp only [queued_fresh, queued_put, queued_inc, queued_logPacked]

theorem queued_faultSource (m : Nat) (s : State) : (faultSource m s).queued = s.queued := by
  simp only [faultSource, apply_ite State.queued, ite_self, queued_edge]

theorem queued_markFault (m c : Nat) (x : Ctx) (code instr : Nat) (q : Option MReq) (s : State) : (markFault m c x code instr q s).queued = s.queued := by
  unfold markFault
  split <;> simp only [apply_ite State.queued, ite_self, queued_freeCtx, queued_faultSource, queued_put, queued_faultRegs, queued_faultBuf, queued_setCtx]

theorem queued_enterStage (n : Nat) (s : State) : (enterStage n s).queued = s.queued := by
  simp only [enterStage, queued_put, queued_logPacked]

theorem queued_bankNamed (s : State) (cause : Nat) (obj : List (Nat × Nat)) : (State.bankNamed s cause obj).queued = s.queued := by
  simp only [State.bankNamed, queued_mk, queued_back, apply_ite State.queued, ite_self, queued_putFlag, queued_put, queued_logPacked, queued_edgeAll, queued_enterStage]

theorem queued_bank (s : State) (cause : Nat) : (State.bank s cause).queued = s.queued := by
  simp only [State.bank, queued_bankNamed]

theorem queued_contained (s : State) : (contained s).queued = s.queued := by
  simp only [contained, queued_inc, queued_logPacked]

theorem queued_urgeNs (s : State) (n : Nat) : (State.urgeNs s n).queued = s.queued := by
  simp only [State.urgeNs, queued_mk, queued_back]

theorem queued_setKbuf (s : State) (bs : List Byte) : (State.setKbuf s bs).queued = s.queued := by
  simp only [State.setKbuf, queued_mk, queued_back]

theorem queued_keyRun (op slot : Nat) (rnd : BitVec 512) (stuck : BitVec 384) (s : State) : (keyRun op slot rnd stuck s).2.queued = s.queued := by
  unfold keyRun
  dsimp only
  repeat' split
  all_goals simp only [queued_mk, queued_back, queued_setKbuf]

theorem queued_keyCommand (w : Word) (rnd : BitVec 512) (stuck : BitVec 384) (s : State) : (keyCommand w rnd stuck s).queued = s.queued := by
  simp only [keyCommand, apply_ite State.queued, apply_ite Prod.snd, apply_ite Prod.fst, ite_self, queued_setKbuf, queued_plainWrite, queued_put, queued_keyRun]

theorem queued_keyRow (op : Nat) (r : Req) (w : Word) (rnd : BitVec 512) (stuck : BitVec 384) (s : State) : (keyRow op r w rnd stuck s).queued = s.queued := by
  simp only [keyRow, implies_true, apply_ite State.queued, ite_self, queued_regWrite, queued_keyCommand]

theorem answered_execUnwrapNs (r : Req) (w : Word) (s : State) : Answered s.queued (execUnwrapNs r w s) := by
  simp only [execUnwrapNs, answered_next, queued_keyRow]

theorem answered_execGenNs (r : Req) (w : Word) (rnd : BitVec 512) (s : State) : Answered s.queued (execGenNs r w rnd s) := by
  simp only [execGenNs, answered_onlyIf, queued_keyRow]

theorem answered_execKzero (r : Req) (w : Word) (s : State) : Answered s.queued (execKzero r w s) := by
  simp only [execKzero, answered_next, queued_keyRow]

theorem answered_execWrapNs (r : Req) (w : Word) (s : State) : Answered s.queued (execWrapNs r w s) := by
  simp only [execWrapNs, answered_next, queued_keyRow]

theorem answered_execWrapPair (r : Req) (w : Word) (s : State) : Answered s.queued (execWrapPair r w s) := by
  simp only [execWrapPair, answered_next, queued_keyRow]

theorem answered_execProgRoot (r : Req) (w : Word) (stuck : BitVec 384) (s : State) : Answered s.queued (execProgRoot r w stuck s) := by
  simp only [execProgRoot, answered_next, queued_keyRow]

theorem answered_execProgDbg (r : Req) (w : Word) (stuck : BitVec 384) (s : State) : Answered s.queued (execProgDbg r w stuck s) := by
  simp only [execProgDbg, answered_next, queued_keyRow]

theorem queued_nsCtlWrite (n : Nat) (w : Word) (s : State) : (nsCtlWrite n w s).queued = s.queued := by
  simp only [nsCtlWrite, apply_ite State.queued, ite_self, queued_putFlag, queued_put, queued_urgeNs]

theorem queued_nsFieldWrite (k : RegKind) (n : Nat) (w : Word) (s : State) : (nsFieldWrite k n w s).queued = s.queued := by
  simp only [nsFieldWrite, apply_ite State.queued, ite_self, queued_putFlag, queued_plainWrite]

theorem answered_execNsCtlWrite (r : Req) (n : Nat) (w : Word) (s : State) : Answered s.queued (execNsCtlWrite r n w s) := by
  simp only [execNsCtlWrite, implies_true, answered_onlyIf, queued_regWrite, queued_nsCtlWrite]

theorem queued_selfTestRun (ok : Bool) (s : State) : (selfTestRun ok s).queued = s.queued := by
  simp only [selfTestRun, apply_ite State.queued, ite_self, queued_bank, queued_inc]

theorem answered_execSelftestRunWrite (r : Req) (w : Word) (ok : Bool) (s : State) : Answered s.queued (execSelftestRunWrite r w ok s) := by
  simp only [execSelftestRunWrite, implies_true, apply_ite State.queued, ite_self, answered_next, queued_selfTestRun, queued_regWrite]

theorem answered_execPeriodicSelftest (ok : Bool) (s : State) : Answered s.queued (execPeriodicSelftest ok s) := by
  simp only [execPeriodicSelftest, queued_mk, queued_back, answered_onlyIf, queued_selfTestRun]

theorem answered_execRbgHealthFail (samples : List Nat) (s : State) : Answered s.queued (execRbgHealthFail samples s) := by
  simp only [execRbgHealthFail, answered_onlyIf, queued_bank, queued_putFlag]

theorem answered_execLockstepMismatch (s : State) : Answered s.queued (execLockstepMismatch s) := by
  simp only [execLockstepMismatch, answered_onlyIf, queued_bank]

theorem queued_dropChallenge (s : State) : (State.dropChallenge s).queued = s.queued := by
  simp only [State.dropChallenge, queued_mk, queued_back, queued_putFlag]

theorem queued_zeroize (s : State) : (State.zeroize s).queued = s.queued := by
  simp only [State.zeroize, queued_mk, queued_back, queued_putFlag]

theorem queued_zeroWrite (w : Word) (s : State) : (zeroWrite w s).queued = s.queued := by
  simp only [zeroWrite, apply_ite State.queued, ite_self, queued_bank, queued_zeroize]

theorem answered_execZeroize (r : Req) (w : Word) (s : State) : Answered s.queued (execZeroize r w s) := by
  simp only [execZeroize, implies_true, answered_next, queued_regWrite, queued_zeroWrite]

theorem queued_lcWrite (r : Req) (w : Word) (s : State) : (lcWrite r w s).queued = s.queued := by
  simp only [lcWrite, queued_mk, queued_back, apply_ite State.queued, ite_self, queued_noteRefused, queued_putFlag, queued_plainWrite, queued_put]

theorem answered_execLifecycleTransition (r : Req) (w : Word) (s : State) : Answered s.queued (execLifecycleTransition r w s) := by
  simp only [execLifecycleTransition, implies_true, answered_next, queued_regWrite, queued_lcWrite]

theorem queued_secStsWrite (r : Req) (w : Word) (s : State) : (secStsWrite r w s).queued = s.queued := by
  simp only [secStsWrite, queued_plainWrite]

theorem answered_execTamperSet (r : Req) (w : Word) (s : State) : Answered s.queued (execTamperSet r w s) := by
  simp only [execTamperSet, implies_true, answered_onlyIf, queued_regWrite, queued_secStsWrite]

theorem queued_newChal (rnd : BitVec 384) (s : State) : (newChal rnd s).queued = s.queued := by
  simp only [newChal, queued_mk, queued_back, queued_putFlag]

theorem queued_verify (s : State) : (verify s).queued = s.queued := by
  simp only [verify, apply_ite State.queued, ite_self, queued_dropChallenge, queued_putFlag, queued_put, queued_inc]

theorem queued_dbgClose (s : State) : (dbgClose s).queued = s.queued := by
  simp only [dbgClose, apply_ite State.queued, ite_self, queued_put]

theorem queued_dbgOpen (s : State) : (dbgOpen s).queued = s.queued := by
  simp only [dbgOpen, queued_mk, queued_back, apply_ite State.queued, ite_self, queued_putFlag, queued_put, queued_zeroize]

theorem queued_dbgCtlWrite (w : Word) (rnd : BitVec 384) (s : State) : (dbgCtlWrite w rnd s).queued = s.queued := by
  simp only [dbgCtlWrite, apply_ite State.queued, ite_self, queued_dbgOpen, queued_verify, queued_dbgClose, queued_newChal]

theorem answered_execDbgNewchal (r : Req) (w : Word) (rnd : BitVec 384) (s : State) : Answered s.queued (execDbgNewchal r w rnd s) := by
  simp only [execDbgNewchal, implies_true, answered_onlyIf, queued_regWrite, queued_dbgCtlWrite]

theorem answered_execChallengeExpiry (s : State) : Answered s.queued (execChallengeExpiry s) := by
  unfold execChallengeExpiry
  split <;> simp only [answered_next, answered_onlyIf, queued_dropChallenge]

theorem answered_execDbgVerify (r : Req) (w : Word) (rnd : BitVec 384) (s : State) : Answered s.queued (execDbgVerify r w rnd s) := by
  simp only [execDbgVerify, implies_true, answered_onlyIf, queued_regWrite, queued_dbgCtlWrite]

theorem answered_execDbgClose (r : Req) (w : Word) (rnd : BitVec 384) (s : State) : Answered s.queued (execDbgClose r w rnd s) := by
  simp only [execDbgClose, implies_true, answered_onlyIf, queued_regWrite, queued_dbgCtlWrite]

theorem answered_execDbgOpen (r : Req) (w : Word) (rnd : BitVec 384) (s : State) : Answered s.queued (execDbgOpen r w rnd s) := by
  simp only [execDbgOpen, implies_true, answered_onlyIf, queued_regWrite, queued_dbgCtlWrite]

theorem queued_fbxCtlWrite (w : Word) (pc : BitVec 19) (s : State) : (fbxCtlWrite w pc s).queued = s.queued := by
  simp only [fbxCtlWrite, queued_mk, queued_back, apply_ite State.queued, ite_self, queued_putFlag, queued_plainWrite, queued_put]

theorem answered_execDbgFbxHalt (r : Req) (w : Word) (pc : BitVec 19) (s : State) : Answered s.queued (execDbgFbxHalt r w pc s) := by
  simp only [execDbgFbxHalt, implies_true, answered_next, queued_regWrite, queued_fbxCtlWrite]

theorem answered_execDbgFbxStep (r : Req) (w : Word) (pc : BitVec 19) (s : State) : Answered s.queued (execDbgFbxStep r w pc s) := by
  simp only [execDbgFbxStep, implies_true, answered_onlyIf, queued_regWrite, queued_fbxCtlWrite]

theorem answered_execFireboxCodeViewRead (r : Req) (ofs beats : Nat) (s : State) : Answered s.queued (execFireboxCodeViewRead r ofs beats s) := by
  unfold execFireboxCodeViewRead
  split <;> simp only [answered_next, answered_ite, queued_putFlag, queued_respond]

theorem answered_execFireboxCodeViewWrite (r : Req) (s : State) : Answered s.queued (execFireboxCodeViewWrite r s) := by
  unfold execFireboxCodeViewWrite
  split <;> simp only [answered_next, queued_putFlag, queued_respondWrite]

end Sys2Proof.Machine
end


section
/-! SUPPORT. Read and write requests, the graders, and the pins of the channels leave the part and the queue as they are. -/

namespace Sys2Proof.Machine

theorem queued_setRing (s : State) (r : Nat) (x : Hrv) : (State.setRing s r x).queued = s.queued := by
  simp only [State.setRing, queued_mk, queued_back]

theorem queued_reserve (s : State) (r units : Nat) : (State.reserve s r units).queued = s.queued := by
  simp only [State.reserve, queued_setRing]

theorem queued_release (s : State) (r units : Nat) : (State.release s r units).queued = s.queued := by
  simp only [State.release, queued_setRing]

theorem queued_owe (s : State) (r : Nat) (e : HEntry) : (State.owe s r e).queued = s.queued := by
  simp only [State.owe, queued_setRing]

theorem queued_signalRing (s : State) (r : Nat) : (signalRing s r).queued = s.queued := by
  simp only [signalRing, queued_edge, queued_putFlag, queued_put, queued_setRing]

theorem queued_showWaiting (r : Nat) (s : State) : (showWaiting r s).queued = s.queued := by
  simp only [showWaiting, queued_putFlag]

theorem queued_roomFound (r : Nat) (s : State) : (roomFound r s).queued = s.queued := by
  simp only [roomFound, implies_true, queued_mk, queued_back, queued_foldl, queued_putFlag, queued_showWaiting]

theorem queued_issueEntry (r : Nat) (e : HEntry) (s : State) : (issueEntry r e s).queued = s.queued := by
  simp only [issueEntry, queued_issueAll, queued_put, queued_setRing]

theorem queued_writeNext (r : Nat) (s : State) : (writeNext r s).queued = s.queued := by
  unfold writeNext
  split <;> simp only [implies_true, queued_mk, queued_back, apply_ite State.queued, ite_self, queued_foldl, queued_roomFound, queued_issueEntry, queued_setRing]

theorem answered_execHarvestWrite (ring : Nat) (s : State) : Answered s.queued (execHarvestWrite ring s) := by
  simp only [execHarvestWrite, answered_onlyIf, queued_writeNext]

theorem queued_entryVisible (r : Nat) (e : HEntry) (s : State) : (entryVisible r e s).queued = s.queued := by
  simp only [entryVisible, apply_ite State.queued, ite_self, queued_signalRing, queued_putFlag, queued_inc]

theorem queued_harvestResponse (r addr : Nat) (code : RCode) (s : State) : (harvestResponse r addr code s).queued = s.queued := by
  simp only [harvestResponse]
  repeat' split
  all_goals simp only [queued_roomFound, queued_putFlag, queued_entryVisible, queued_setRing]

theorem answered_execModerationTimer (ring : Nat) (s : State) : Answered s.queued (execModerationTimer ring s) := by
  unfold execModerationTimer
  split <;> simp only [answered_next, answered_onlyIf, queued_signalRing]

theorem queued_lookStep (r : Nat) (s : State) : (lookStep r s).queued = s.queued := by
  simp only [lookStep, apply_ite State.queued, ite_self, queued_issue, queued_setRing]

theorem queued_refreshOwned (r : Nat) (code : RCode) (marks : List Byte) (s : State) : (refreshOwned r code marks s).queued = s.queued := by
  simp only [refreshOwned, apply_ite State.queued, ite_self, queued_roomFound, queued_setRing, queued_logPacked]

theorem queued_lookedAhead (r addr : Nat) (code : RCode) (data : List Byte) (s : State) : (lookedAhead r addr code data s).queued = s.queued := by
  simp only [lookedAhead, apply_ite State.queued, ite_self, queued_lookStep, queued_setRing, queued_refreshOwned]

theorem answered_execHarvestLookahead (ring : Nat) (s : State) : Answered s.queued (execHarvestLookahead ring s) := by
  simp only [execHarvestLookahead, answered_onlyIf, queued_lookStep]

theorem answered_execHrvDoorbell (r : Req) (ring : Nat) (w : Word) (s : State) : Answered s.queued (execHrvDoorbell r ring w s) := by
  simp only [execHrvDoorbell, implies_true, apply_ite State.queued, ite_self, answered_onlyIf, queued_regWrite, queued_lookStep, queued_restart]

theorem queued_hrvCtlWrite (ring : Nat) (w : Word) (s : State) : (hrvCtlWrite ring w s).queued = s.queued := by
  simp only [hrvCtlWrite, apply_ite State.queued, ite_self, queued_issueAll, queued_putFlag]

theorem answered_execHrvRetry (r : Req) (ring : Nat) (w : Word) (s : State) : Answered s.queued (execHrvRetry r ring w s) := by
  simp only [execHrvRetry, implies_true, answered_onlyIf, queued_regWrite, queued_hrvCtlWrite]

theorem answered_execHrvModWrite (r : Req) (ring : Nat) (w : Word) (cmd : Bool) (s : State) : Answered s.queued (execHrvModWrite r ring w cmd s) := by
  simp only [execHrvModWrite, implies_true, apply_ite State.queued, ite_self, answered_onlyIf, queued_regWrite, queued_plainWrite]

theorem queued_setRq (s : State) (q : Request) : (State.setRq s q).queued = s.queued := by
  simp only [State.setRq, queued_mk, queued_back]

theorem queued_modRq (s : State) (rtag : Nat) (f : Request → Request) : (State.modRq s rtag f).queued = s.queued := by
  simp only [State.modRq, queued_mk, queued_back]

theorem queued_modTile (s : State) (rtag i : Nat) (f : Tile → Tile) : (State.modTile s rtag i f).queued = s.queued := by
  simp only [State.modTile, queued_modRq]

theorem queued_oweEntry (s : State) (q : Request) (status : Nat) (second last : Bool) (dstate : Nat) (deferring : Bool) : (oweEntry s q status second last dstate deferring).queued = s.queued := by
  simp only [oweEntry, queued_owe]

theorem queued_finish (q : Request) (status dstate : Nat) (s : State) : (finish q status dstate s).queued = s.queued := by
  simp only [finish, queued_setRq, queued_oweEntry]

theorem queued_startDelivery (rtag : Nat) (s : State) : (startDelivery rtag s).queued = s.queued := by
  unfold startDelivery
  split <;> simp only [apply_ite State.queued, ite_self, queued_modRq, queued_queueJobs]

theorem queued_mirroredLate (q : Request) (s : State) : (mirroredLate q s).queued = s.queued := by
  simp only [mirroredLate, apply_ite State.queued, ite_self, queued_setRq, queued_finish, queued_setRing]

theorem queued_requestCheck (rtag : Nat) (s : State) : (requestCheck rtag s).queued = s.queued := by
  simp only [requestCheck]
  repeat' split
  all_goals simp only [queued_finish, queued_mirroredLate, queued_startDelivery]

theorem queued_tileOutcome (rtag i code cbc : Nat) (data : List Byte) (s : State) : (tileOutcome rtag i code cbc data s).queued = s.queued := by
  simp only [tileOutcome, queued_requestCheck, queued_modTile]

theorem queued_loadFail (err widx : Nat) (s : State) : (loadFail err widx s).queued = s.queued := by
  simp only [loadFail, queued_put]

theorem queued_fmtW0Write (n : Nat) (w : Word) (s : State) : (fmtW0Write n w s).queued = s.queued := by
  simp only [fmtW0Write, apply_ite State.queued, ite_self, queued_putFlag, queued_plainWrite, queued_loadFail]

theorem queued_fmtWordWrite (k : RegKind) (n : Nat) (w : Word) (s : State) : (fmtWordWrite k n w s).queued = s.queued := by
  simp only [fmtWordWrite, apply_ite State.queued, ite_self, queued_putFlag, queued_plainWrite]

theorem answered_execGrdFmtValidWrite (r : Req) (n : Nat) (w : Word) (s : State) : Answered s.queued (execGrdFmtValidWrite r n w s) := by
  simp only [execGrdFmtValidWrite, implies_true, answered_onlyIf, queued_regWrite, queued_fmtW0Write]

theorem queued_pdescWrite (p : Nat) (w : Word) (s : State) : (pdescWrite p w s).queued = s.queued := by
  simp only [pdescWrite, apply_ite State.queued, ite_self, queued_putFlag, queued_put]
  repeat' split
  all_goals simp only [queued_putFlag, queued_put, queued_loadFail]

theorem answered_execGrdPdescValidWrite (r : Req) (p : Nat) (w : Word) (s : State) : Answered s.queued (execGrdPdescValidWrite r p w s) := by
  simp only [execGrdPdescValidWrite, implies_true, answered_onlyIf, queued_regWrite, queued_pdescWrite]

theorem queued_pdataWrite (w : Word) (s : State) : (pdataWrite w s).queued = s.queued := by
  simp only [pdataWrite, queued_mk, queued_back, apply_ite State.queued, ite_self, queued_setReg, queued_putFlag, queued_put]

theorem answered_execGrdPdataHiWrite (r : Req) (w : Word) (s : State) : Answered s.queued (execGrdPdataHiWrite r w s) := by
  simp only [execGrdPdataHiWrite, implies_true, answered_next, queued_regWrite, queued_pdataWrite]

theorem answered_grdStep (g k opc : Nat) (f : BitVec 64 → Rec → Lane → Lane) (s : State) : Answered s.queued (grdStep g k opc f s) := by
  unfold grdStep
  split
  · exact answered_next rfl
  · split
    · split
      · exact answered_onlyIf rfl
      · exact answered_next rfl
    · exact answered_next rfl

theorem answered_execGrdLdu (g k : Nat) (s : State) : Answered s.queued (execGrdLdu g k s) := by
  simp only [execGrdLdu, answered_grdStep]

theorem answered_execGrdLds (g k : Nat) (s : State) : Answered s.queued (execGrdLds g k s) := by
  simp only [execGrdLds, answered_grdStep]

theorem answered_execGrdLdi (g k : Nat) (s : State) : Answered s.queued (execGrdLdi g k s) := by
  simp only [execGrdLdi, answered_grdStep]

theorem answered_execGrdAdd (g k : Nat) (s : State) : Answered s.queued (execGrdAdd g k s) := by
  simp only [execGrdAdd, answered_grdStep]

theorem answered_execGrdSub (g k : Nat) (s : State) : Answered s.queued (execGrdSub g k s) := by
  simp only [execGrdSub, answered_grdStep]

theorem answered_execGrdMul (g k : Nat) (s : State) : Answered s.queued (execGrdMul g k s) := by
  simp only [execGrdMul, answered_grdStep]

theorem answered_execGrdDiv (g k : Nat) (s : State) : Answered s.queued (execGrdDiv g k s) := by
  simp only [execGrdDiv, answered_grdStep]

theorem answered_execGrdRem (g k : Nat) (s : State) : Answered s.queued (execGrdRem g k s) := by
  simp only [execGrdRem, answered_grdStep]

theorem answered_execGrdDivu (g k : Nat) (s : State) : Answered s.queued (execGrdDivu g k s) := by
  simp only [execGrdDivu, answered_grdStep]

theorem answered_execGrdRemu (g k : Nat) (s : State) : Answered s.queued (execGrdRemu g k s) := by
  simp only [execGrdRemu, answered_grdStep]

theorem answered_execGrdNeg (g k : Nat) (s : State) : Answered s.queued (execGrdNeg g k s) := by
  simp only [execGrdNeg, answered_grdStep]

theorem answered_execGrdAbs (g k : Nat) (s : State) : Answered s.queued (execGrdAbs g k s) := by
  simp only [execGrdAbs, answered_grdStep]

theorem answered_execGrdAnd (g k : Nat) (s : State) : Answered s.queued (execGrdAnd g k s) := by
  simp only [execGrdAnd, answered_grdStep]

theorem answered_execGrdOr (g k : Nat) (s : State) : Answered s.queued (execGrdOr g k s) := by
  simp only [execGrdOr, answered_grdStep]

theorem answered_execGrdXor (g k : Nat) (s : State) : Answered s.queued (execGrdXor g k s) := by
  simp only [execGrdXor, answered_grdStep]

theorem answered_execGrdShl (g k : Nat) (s : State) : Answered s.queued (execGrdShl g k s) := by
  simp only [execGrdShl, answered_grdStep]

theorem answered_execGrdShr (g k : Nat) (s : State) : Answered s.queued (execGrdShr g k s) := by
  simp only [execGrdShr, answered_grdStep]

theorem answered_execGrdSar (g k : Nat) (s : State) : Answered s.queued (execGrdSar g k s) := by
  simp only [execGrdSar, answered_grdStep]

theorem answered_execGrdMin (g k : Nat) (s : State) : Answered s.queued (execGrdMin g k s) := by
  simp only [execGrdMin, answered_grdStep]

theorem answered_execGrdMax (g k : Nat) (s : State) : Answered s.queued (execGrdMax g k s) := by
  simp only [execGrdMax, answered_grdStep]

theorem answered_execGrdAdds (g k : Nat) (s : State) : Answered s.queued (execGrdAdds g k s) := by
  simp only [execGrdAdds, answered_grdStep]

theorem answered_execGrdSubs (g k : Nat) (s : State) : Answered s.queued (execGrdSubs g k s) := by
  simp only [execGrdSubs, answered_grdStep]

theorem answered_execGrdMuls (g k : Nat) (s : State) : Answered s.queued (execGrdMuls g k s) := by
  simp only [execGrdMuls, answered_grdStep]

theorem answered_execGrdMulq (g k : Nat) (s : State) : Answered s.queued (execGrdMulq g k s) := by
  simp only [execGrdMulq, answered_grdStep]

theorem answered_execGrdSeq (g k : Nat) (s : State) : Answered s.queued (execGrdSeq g k s) := by
  simp only [execGrdSeq, answered_grdStep]

theorem answered_execGrdSne (g k : Nat) (s : State) : Answered s.queued (execGrdSne g k s) := by
  simp only [execGrdSne, answered_grdStep]

theorem answered_execGrdSlt (g k : Nat) (s : State) : Answered s.queued (execGrdSlt g k s) := by
  simp only [execGrdSlt, answered_grdStep]

theorem answered_execGrdSle (g k : Nat) (s : State) : Answered s.queued (execGrdSle g k s) := by
  simp only [execGrdSle, answered_grdStep]

theorem answered_execGrdSltu (g k : Nat) (s : State) : Answered s.queued (execGrdSltu g k s) := by
  simp only [execGrdSltu, answered_grdStep]

theorem answered_execGrdSleu (g k : Nat) (s : State) : Answered s.queued (execGrdSleu g k s) := by
  simp only [execGrdSleu, answered_grdStep]

theorem answered_execGrdBz (g k : Nat) (s : State) : Answered s.queued (execGrdBz g k s) := by
  simp only [execGrdBz, answered_grdStep]

theorem answered_execGrdBnz (g k : Nat) (s : State) : Answered s.queued (execGrdBnz g k s) := by
  simp only [execGrdBnz, answered_grdStep]

theorem answered_execGrdAccept (g k : Nat) (s : State) : Answered s.queued (execGrdAccept g k s) := by
  simp only [execGrdAccept, answered_grdStep]

theorem answered_execGrdReject (g k : Nat) (s : State) : Answered s.queued (execGrdReject g k s) := by
  simp only [execGrdReject, answered_grdStep]

theorem answered_execGrdAcceptf (g k : Nat) (s : State) : Answered s.queued (execGrdAcceptf g k s) := by
  simp only [execGrdAcceptf, answered_grdStep]

theorem queued_overflow (rtag i : Nat) (s : State) : (overflow rtag i s).queued = s.queued := by
  simp only [overflow, queued_modRq]

theorem queued_emitLane (rtag i : Nat) (s : State) (l : Lane) : (emitLane rtag i s l).queued = s.queued := by
  unfold emitLane
  split <;> simp only [apply_ite State.queued, ite_self, queued_modRq, queued_queueJob, queued_overflow, queued_inc]

theorem queued_tileGraded (rtag i : Nat) (s : State) : (tileGraded rtag i s).queued = s.queued := by
  simp only [tileGraded, queued_modRq, queued_inc, queued_modTile]

theorem queued_freeGrader (g : Nat) (s : State) : (freeGrader g s).queued = s.queued := by
  simp only [freeGrader, queued_mk, queued_back]

theorem queued_setGrader (g : Nat) (x : Grader) (s : State) : (setGrader g x s).queued = s.queued := by
  simp only [setGrader, queued_mk, queued_back]

theorem queued_endRound (g : Nat) (x : Grader) (s : State) : (endRound g x s).queued = s.queued := by
  simp only [endRound]
  repeat' split
  all_goals simp only [implies_true, queued_foldl, queued_freeGrader, queued_setGrader, queued_tileGraded, queued_emitLane, queued_requestCheck]

theorem answered_execGradeTile (g : Nat) (s : State) : Answered s.queued (execGradeTile g s) := by
  unfold execGradeTile
  repeat' split
  all_goals simp only [answered_next, answered_onlyIf, queued_setGrader, queued_endRound, queued_modTile]

theorem queued_noGraders (s : State) : (noGraders s).queued = s.queued := by
  simp only [noGraders, implies_true, queued_foldl, queued_modRq, queued_requestCheck]

theorem answered_execGraderMemoryError (g : Nat) (s : State) : Answered s.queued (execGraderMemoryError g s) := by
  simp only [execGraderMemoryError]
  repeat' split
  all_goals simp only [answered_onlyIf, queued_modRq, queued_freeGrader, queued_noGraders, queued_setBit, queued_contained, queued_logPacked, queued_modTile]

theorem queued_setChan (s : State) (c : Nat) (x : Chan) : (State.setChan s c x).queued = s.queued := by
  simp only [State.setChan, queued_mk, queued_back]

theorem queued_setLun (s : State) (k : Nat) (x : LunSt) : (State.setLun s k x).queued = s.queued := by
  simp only [State.setLun, queued_mk, queued_back]

theorem queued_busPut (c : Nat) (b : BusCyc) (s : State) (odt : Nat) : (busPut c b s odt).queued = s.queued := by
  simp only [busPut, queued_setChan]

theorem queued_raiseCe (c : Nat) (s : State) : (raiseCe c s).queued = s.queued := by
  simp only [raiseCe, queued_setChan]

theorem queued_setRate (c rate : Nat) (s : State) : (setRate c rate s).queued = s.queued := by
  simp only [setRate, apply_ite State.queued, ite_self, queued_raiseCe, queued_busPut, queued_put]

theorem queued_startRate (c rate : Nat) (s : State) : (startRate c rate s).queued = s.queued := by
  simp only [startRate, queued_setChan, queued_setRate]

theorem queued_logOnce (c t key : Nat) (s : State) : (logOnce c t key s).queued = s.queued := by
  simp only [logOnce, apply_ite State.queued, ite_self, queued_setChan, queued_logPacked]

theorem queued_selectMask (c t mask : Nat) (s : State) : (selectMask c t mask s).queued = s.queued := by
  simp only [selectMask, implies_true, apply_ite State.queued, ite_self, queued_foldl, queued_setChan, queued_logOnce, queued_put, queued_setRate]

theorem queued_selectTarget (c t : Nat) (s : State) : (selectTarget c t s).queued = s.queued := by
  simp only [selectTarget, queued_selectMask]

theorem queued_atRate (c t : Nat) (f : State → State) (s : State) (h_f : ∀ (y0 : State), (f y0).queued = y0.queued) : (atRate c t f s).queued = s.queued := by
  simp only [atRate, apply_ite State.queued, ite_self, h_f, queued_startRate]

theorem queued_sweepDone (n ti : Nat) (s : State) : (sweepDone n ti s).queued = s.queued := by
  simp only [sweepDone, queued_mk, queued_back]

theorem queued_lunOff (k : Nat) (s : State) : (lunOff k s).queued = s.queued := by
  simp only [lunOff, queued_mk, queued_back, apply_ite State.queued, ite_self, queued_putFlag, queued_clrBit]

theorem queued_targetOff (c t code : Nat) (s : State) : (targetOff c t code s).queued = s.queued := by
  simp only [targetOff, implies_true, queued_foldl, queued_putFlag, queued_lunOff, queued_logPacked]

end Sys2Proof.Machine
end


section
/-! SUPPORT. Channels, stokers, the scheduler and the raw window leave the part and the queue as they are. -/

namespace Sys2Proof.Machine

theorem queued_setSlot (c k : Nat) (x : Slot) (s : State) : (setSlot c k x s).queued = s.queued := by
  simp only [setSlot, queued_setChan]

theorem queued_delSlot (c k : Nat) (s : State) : (delSlot c k s).queued = s.queued := by
  simp only [delSlot, queued_setChan]

theorem queued_gSet (c : Nat) (x : Slot) (n : Nat) (v : Word) (s : State) : (gSet c x n v s).2.queued = s.queued := by
  simp only [gSet, apply_ite State.queued, apply_ite Prod.snd, ite_self, queued_setChan]

theorem queued_endSlot (c k code : Nat) (x : Slot) (s : State) : (endSlot c k code x s).queued = s.queued := by
  simp only [endSlot, queued_mk, queued_back, queued_delSlot]

theorem queued_pinsReset (c : Nat) (s : State) : (pinsReset c s).queued = s.queued := by
  simp only [pinsReset, queued_setChan]

theorem queued_rawAnswer (a : RawAcc) (code : RCode) (data : List Byte) (s : State) : (rawAnswer a code data s).queued = s.queued := by
  unfold rawAnswer
  split <;> simp only [queued_giveIn, queued_respond, queued_respondWrite]

theorem queued_rawFails (a : RawAcc) (s : State) : (rawFails a s).queued = s.queued := by
  simp only [rawFails, queued_rawAnswer]

theorem queued_endOwnSlots (c : Nat) (s : State) : (endOwnSlots c s).queued = s.queued := by
  simp only [endOwnSlots]
  repeat' split
  all_goals simp only [implies_true, queued_mk, queued_back, queued_foldl, queued_sweepDone, queued_setChan, queued_rawFails]

theorem queued_microFault (c k cause : Nat) (upc : BitVec 15) (s : State) : (microFault c k cause upc s).queued = s.queued := by
  simp only [microFault, implies_true, queued_foldl, queued_setChan, queued_endOwnSlots, queued_endSlot, queued_putFlag, queued_lunOff, queued_put, queued_logPacked, queued_pinsReset]

theorem queued_goNext (c k : Nat) (x : Slot) (upc : BitVec 15) (s : State) : (goNext c k x upc s).queued = s.queued := by
  unfold goNext
  split <;> simp only [queued_microFault, queued_setSlot]

theorem queued_goTo (c k : Nat) (x : Slot) (tgt upc : BitVec 15) (s : State) : (goTo c k x tgt upc s).queued = s.queued := by
  simp only [goTo, apply_ite State.queued, ite_self, queued_microFault, queued_setSlot]

theorem queued_release_ (c : Nat) (s : State) : (release_ c s).queued = s.queued := by
  simp only [release_, queued_setChan, queued_raiseCe]

theorem queued_haltAt (c : Nat) (s : State) : (haltAt c s).queued = s.queued := by
  simp only [haltAt, apply_ite State.queued, ite_self, queued_putFlag]

theorem queued_rawCycle (c t : Nat) (s : State) (b : BusCyc) : (rawCycle c t s b).queued = s.queued := by
  unfold rawCycle
  split <;> simp only [apply_ite State.queued, ite_self, queued_setChan, queued_busPut]

theorem queued_rawDrive (c : Nat) (din : List Byte) (s : State) : (rawDrive c din s).queued = s.queued := by
  unfold rawDrive
  split <;> simp only [implies_true, apply_ite State.queued, ite_self, queued_foldl, queued_selectTarget, queued_setChan, queued_rawCycle, queued_rawAnswer, queued_atRate]

theorem queued_giveSlot (c k : Nat) (x : Slot) (s : State) : (giveSlot c k x s).queued = s.queued := by
  simp only [giveSlot, apply_ite State.queued, ite_self, queued_setChan, queued_raiseCe, queued_haltAt, queued_startRate, queued_setSlot]

theorem answered_execSlotSwitch (c : Nat) (din : List Byte) (s : State) : Answered s.queued (execSlotSwitch c din s) := by
  unfold execSlotSwitch
  repeat' split
  all_goals simp only [answered_onlyIf, queued_giveSlot, queued_rawDrive, queued_haltAt]

theorem queued_sendCa (c k mask : Nat) (bs : List Byte) (s : State) : (sendCa c k mask bs s).queued = s.queued := by
  simp only [sendCa]
  repeat' split
  all_goals simp only [queued_busPut, queued_setSlot]

theorem queued_sendItems (c k mask : Nat) (s : State) : (sendItems c k mask s).queued = s.queued := by
  simp only [sendItems, apply_ite State.queued, ite_self, queued_setChan, queued_sendCa]

theorem queued_statusRead (c t row : Nat) (kx : Bool) (luns : Nat) (s : State) : (statusRead c t row kx luns s).queued = s.queued := by
  simp only [statusRead, apply_ite State.queued, ite_self, queued_busPut]

theorem queued_kxFallback (c k : Nat) (x : Slot) (s : State) : (kxFallback c k x s).queued = s.queued := by
  simp only [kxFallback, apply_ite State.queued, ite_self, queued_setChan, queued_release_, queued_putFlag, queued_logPacked, queued_setSlot]

theorem queued_resendFrame (c : Nat) (x : Slot) (b : Byte) (s : State) : (resendFrame c x b s).queued = s.queued := by
  simp only [resendFrame, apply_ite State.queued, ite_self, queued_busPut]

theorem queued_takeStatus (c k : Nat) (wait next : Slot) (b : Byte) (s : State) : (takeStatus c k wait next b s).queued = s.queued := by
  simp only [takeStatus, apply_ite State.queued, ite_self, queued_resendFrame, queued_inc, queued_kxFallback, queued_setSlot]

theorem queued_storeIn (c : Nat) (x : Slot) (bslot : Nat) (bs : List Byte) (bad : Bool) (s : State) : (storeIn c x bslot bs bad s).2.queued = s.queued := by
  unfold storeIn
  split <;> simp only [apply_ite State.queued, apply_ite Prod.snd, ite_self, queued_setChan]

theorem queued_routeByte {s : State} {c : Nat} {x : Slot} {w : BitVec 96} {a y} (e : routeByte s c x w = some (a, y)) : y.queued = s.queued := by
  unfold routeByte at e
  dsimp only at e
  repeat' split at e
  all_goals simp only [Option.some.injEq, Prod.mk.injEq, reduceCtorEq] at e
  all_goals obtain ⟨-, rfl⟩ := e
  all_goals simp only [queued_fresh]

theorem queued_driveCycle (c k : Nat) (x : Slot) (w : BitVec 96) (cmd : Bool) (b : Byte) (s : State) : (driveCycle c k x w cmd b s).queued = s.queued := by
  simp only [driveCycle, apply_ite State.queued, ite_self, queued_setChan, queued_busPut, queued_sendItems]

theorem queued_runCyc (c k : Nat) (x : Slot) (upc : BitVec 15) (w : BitVec 96) (s : State) : (runCyc c k x upc w s).queued = s.queued := by
  unfold runCyc
  split
  · exact queued_microFault ..
  · split
    · exact queued_microFault ..
    · next e => simp only [queued_goNext, queued_driveCycle, queued_routeByte e]

theorem queued_wentLun (o : Op) (s : State) : (wentLun o s).queued = s.queued := by
  simp only [wentLun, queued_setLun]

theorem queued_runGo (c k : Nat) (x : Slot) (upc : BitVec 15) (w : BitVec 96) (s : State) : (runGo c k x upc w s).queued = s.queued := by
  unfold runGo
  split
  · exact queued_microFault ..
  · next e => simp only [queued_goNext, queued_wentLun, queued_setChan, queued_sendItems, queued_driveCycle, queued_routeByte e]

theorem queued_takeTally (c : Nat) (din : List Byte) (s : State) : (takeTally c din s).queued = s.queued := by
  simp only [takeTally, apply_ite State.queued, ite_self, queued_fresh, queued_setChan]

theorem queued_tallyRead (c t : Nat) (din : List Byte) (s : State) : (tallyRead c t din s).queued = s.queued := by
  simp only [tallyRead, queued_takeTally, queued_setChan, queued_busPut]

theorem queued_xferIn (c k route : Nat) (x wait : Slot) (bs : List Byte) (bad : Bool) (s : State) : (xferIn c k route x wait bs bad s).queued = s.queued := by
  unfold xferIn
  split <;> simp only [queued_storeIn, queued_gSet, queued_takeStatus, queued_setSlot]

theorem queued_runXfer (c k : Nat) (x : Slot) (upc : BitVec 15) (w : BitVec 96) (din : List Byte) (s : State) : (runXfer c k x upc w din s).queued = s.queued := by
  unfold runXfer
  dsimp only
  split
  · exact queued_microFault ..
  · split
    · simp only [apply_ite State.queued, ite_self, queued_setSlot, queued_tallyRead, queued_busPut, queued_setChan]
    · split
      · simp only [apply_ite State.queued, ite_self, queued_microFault, queued_setSlot, queued_xferIn, queued_busPut, queued_setChan]
      · split
        · exact queued_microFault ..
        · next e => simp only [apply_ite State.queued, ite_self, queued_setSlot, queued_busPut, queued_setChan, queued_routeByte e]

theorem queued_runWaitWord (c k : Nat) (x : Slot) (upc : BitVec 15) (w : BitVec 96) (s : State) : (runWaitWord c k x upc w s).queued = s.queued := by
  simp only [runWaitWord]
  repeat' split
  all_goals simp only [queued_release_, queued_microFault, queued_haltAt, queued_setSlot]

theorem queued_runSafe (c k : Nat) (x : Slot) (upc : BitVec 15) (w : BitVec 96) (s : State) : (runSafe c k x upc w s).queued = s.queued := by
  simp only [runSafe, apply_ite State.queued, ite_self, queued_goTo, queued_setChan, queued_release_, queued_goNext, queued_haltAt]

theorem queued_runBr (c k : Nat) (x : Slot) (upc : BitVec 15) (w : BitVec 96) (s : State) : (runBr c k x upc w s).queued = s.queued := by
  unfold runBr
  split <;> simp only [queued_goTo, queued_microFault, queued_goNext]

theorem queued_runCall (c k : Nat) (x : Slot) (upc : BitVec 15) (w : BitVec 96) (s : State) : (runCall c k x upc w s).queued = s.queued := by
  unfold runCall
  repeat' split
  all_goals simp only [queued_goTo, queued_microFault, queued_goNext]

theorem queued_runRet (c k : Nat) (x : Slot) (upc : BitVec 15) (w : BitVec 96) (s : State) : (runRet c k x upc w s).queued = s.queued := by
  unfold runRet
  repeat' split
  all_goals simp only [queued_microFault, queued_goNext, queued_setSlot]

theorem queued_runReg (f : Word → Word → Word) (c k : Nat) (x : Slot) (upc : BitVec 15) (w : BitVec 96) (s : State) : (runReg f c k x upc w s).queued = s.queued := by
  simp only [runReg, queued_goNext, queued_gSet]

theorem queued_runCmpi (c k : Nat) (x : Slot) (upc : BitVec 15) (w : BitVec 96) (s : State) : (runCmpi c k x upc w s).queued = s.queued := by
  simp only [runCmpi, queued_setChan, queued_goNext]

theorem queued_runPinset (c k : Nat) (x : Slot) (upc : BitVec 15) (w : BitVec 96) (s : State) : (runPinset c k x upc w s).queued = s.queued := by
  simp only [runPinset, queued_busPut, queued_goNext]

theorem queued_setOffsets (c dir : Nat) (w : Word) (s : State) : (setOffsets c dir w s).queued = s.queued := by
  simp only [setOffsets, apply_ite State.queued, ite_self, queued_setReg, queued_setChan]

theorem queued_phyZq (c : Nat) (m : Train) (s : State) : (phyZq c m s).queued = s.queued := by
  simp only [phyZq, queued_mk, queued_back, queued_putFlag]

theorem queued_phyDuty (c : Nat) (m : Train) (s : State) : (phyDuty c m s).queued = s.queued := by
  simp only [phyDuty, queued_mk, queued_back, apply_ite State.queued, ite_self]

theorem queued_runPhy (c k : Nat) (x : Slot) (upc : BitVec 15) (w : BitVec 96) (m : Train) (s : State) : (runPhy c k x upc w m s).queued = s.queued := by
  unfold runPhy
  split <;> simp only [apply_ite State.queued, ite_self, queued_phyZq, queued_setOffsets, queued_raiseCe, queued_microFault, queued_goNext, queued_phyDuty, queued_startRate]

theorem queued_runReport (c k : Nat) (x : Slot) (upc : BitVec 15) (w : BitVec 96) (s : State) : (runReport c k x upc w s).queued = s.queued := by
  simp only [runReport, queued_setChan, queued_goNext]

theorem queued_runTdly (c k : Nat) (x : Slot) (upc : BitVec 15) (w : BitVec 96) (s : State) : (runTdly c k x upc w s).queued = s.queued := by
  simp only [runTdly, queued_setChan, queued_goNext]

theorem queued_runEnd (c k : Nat) (x : Slot) (w : BitVec 96) (s : State) : (runEnd c k x w s).queued = s.queued := by
  simp only [runEnd, queued_endSlot, queued_release_, queued_haltAt]

theorem queued_runSel (c : Nat) (x : Slot) (w : BitVec 96) (s : State) : (runSel c x w s).queued = s.queued := by
  simp only [runSel, apply_ite State.queued, ite_self, queued_selectMask, queued_raiseCe]

theorem queued_runWord (c k : Nat) (x : Slot) (w : BitVec 96) (din : List Byte) (m : Train) (s : State) : (runWord c k x w din m s).queued = s.queued := by
  simp only [runWord, apply_ite State.queued, queued_goTo, queued_microFault]
  repeat' split
  all_goals simp only [queued_runTdly, queued_runSel, queued_runCall, queued_runReg, queued_runRet, queued_setChan, queued_runBr, queued_runXfer, queued_runSafe, queued_runCmpi, queued_runReport, queued_runPhy, queued_runEnd, queued_goNext, queued_sendItems, queued_runCyc, queued_runPinset, queued_runGo, queued_runWaitWord]

theorem queued_wordOrRate (c k : Nat) (x : Slot) (w : BitVec 96) (din : List Byte) (m : Train) (s : State) : (wordOrRate c k x w din m s).queued = s.queued := by
  simp only [wordOrRate, apply_ite State.queued, ite_self, queued_runWord, queued_startRate]

theorem answered_uRow (c : Nat) (w : BitVec 96) (mine : BitVec 96 → Bool) (din : List Byte) (m : Train) (s : State) : Answered s.queued (uRow c w mine din m s) := by
  unfold uRow
  repeat' split
  all_goals simp only [answered_next, answered_onlyIf, queued_wordOrRate]

theorem answered_execStkNop (c : Nat) (w : BitVec 96) (s : State) : Answered s.queued (execStkNop c w s) := by
  simp only [execStkNop, answered_uRow]

theorem answered_execStkCyc (c : Nat) (w : BitVec 96) (s : State) : Answered s.queued (execStkCyc c w s) := by
  simp only [execStkCyc, answered_uRow]

theorem answered_execStkGo (c : Nat) (w : BitVec 96) (s : State) : Answered s.queued (execStkGo c w s) := by
  simp only [execStkGo, answered_uRow]

theorem answered_execStkXfer (c : Nat) (w : BitVec 96) (din : List Byte) (s : State) : Answered s.queued (execStkXfer c w din s) := by
  simp only [execStkXfer, answered_uRow]

theorem answered_execStkTdly (c : Nat) (w : BitVec 96) (s : State) : Answered s.queued (execStkTdly c w s) := by
  simp only [execStkTdly, answered_uRow]

theorem answered_execStkWait (c : Nat) (w : BitVec 96) (s : State) : Answered s.queued (execStkWait c w s) := by
  simp only [execStkWait, answered_uRow]

theorem answered_execStkSafe (c : Nat) (w : BitVec 96) (s : State) : Answered s.queued (execStkSafe c w s) := by
  simp only [execStkSafe, answered_uRow]

theorem answered_execStkBr (c : Nat) (w : BitVec 96) (s : State) : Answered s.queued (execStkBr c w s) := by
  simp only [execStkBr, answered_uRow]

theorem answered_execStkCall (c : Nat) (w : BitVec 96) (s : State) : Answered s.queued (execStkCall c w s) := by
  simp only [execStkCall, answered_uRow]

theorem answered_execStkRet (c : Nat) (w : BitVec 96) (s : State) : Answered s.queued (execStkRet c w s) := by
  simp only [execStkRet, answered_uRow]

theorem answered_execStkLdi (c : Nat) (w : BitVec 96) (s : State) : Answered s.queued (execStkLdi c w s) := by
  simp only [execStkLdi, answered_uRow]

theorem answered_execStkAddi (c : Nat) (w : BitVec 96) (s : State) : Answered s.queued (execStkAddi c w s) := by
  simp only [execStkAddi, answered_uRow]

theorem answered_execStkAndi (c : Nat) (w : BitVec 96) (s : State) : Answered s.queued (execStkAndi c w s) := by
  simp only [execStkAndi, answered_uRow]

theorem answered_execStkOri (c : Nat) (w : BitVec 96) (s : State) : Answered s.queued (execStkOri c w s) := by
  simp only [execStkOri, answered_uRow]

theorem answered_execStkCmpi (c : Nat) (w : BitVec 96) (s : State) : Answered s.queued (execStkCmpi c w s) := by
  simp only [execStkCmpi, answered_uRow]

theorem answered_execStkPinset (c : Nat) (w : BitVec 96) (s : State) : Answered s.queued (execStkPinset c w s) := by
  simp only [execStkPinset, answered_uRow]

theorem answered_execPhyEngineZq (c : Nat) (w : BitVec 96) (m : Train) (s : State) : Answered s.queued (execPhyEngineZq c w m s) := by
  simp only [execPhyEngineZq, answered_uRow]

theorem answered_execPhyDutyTrim (c : Nat) (w : BitVec 96) (m : Train) (s : State) : Answered s.queued (execPhyDutyTrim c w m s) := by
  simp only [execPhyDutyTrim, answered_uRow]

theorem answered_execPhyLoadReadDelays (c : Nat) (w : BitVec 96) (s : State) : Answered s.queued (execPhyLoadReadDelays c w s) := by
  simp only [execPhyLoadReadDelays, answered_uRow]

theorem answered_execPhyLoadWriteDelays (c : Nat) (w : BitVec 96) (s : State) : Answered s.queued (execPhyLoadWriteDelays c w s) := by
  simp only [execPhyLoadWriteDelays, answered_uRow]

theorem answered_execPhyRateChange (c : Nat) (w : BitVec 96) (s : State) : Answered s.queued (execPhyRateChange c w s) := by
  simp only [execPhyRateChange, answered_uRow]

theorem answered_execStkReport (c : Nat) (w : BitVec 96) (s : State) : Answered s.queued (execStkReport c w s) := by
  simp only [execStkReport, answered_uRow]

theorem answered_execStkEnd (c : Nat) (w : BitVec 96) (s : State) : Answered s.queued (execStkEnd c w s) := by
  simp only [execStkEnd, answered_uRow]

theorem answered_execStokerWatchdog (c : Nat) (s : State) : Answered s.queued (execStokerWatchdog c s) := by
  unfold execStokerWatchdog
  split <;> simp only [answered_next, answered_onlyIf, queued_microFault]

theorem answered_execDataOutFrame (c : Nat) (bs : List Byte) (crc : Word) (s : State) : Answered s.queued (execDataOutFrame c bs crc s) := by
  unfold execDataOutFrame
  repeat' split
  all_goals simp only [apply_ite State.queued, ite_self, answered_next, answered_onlyIf, queued_setChan, queued_busPut, queued_xferIn, queued_inc, queued_setSlot]

theorem queued_waitEnds (c k : Nat) (x : Slot) (branch tmo : Bool) (s : State) : (waitEnds c k x branch tmo s).queued = s.queued := by
  unfold waitEnds
  split <;> simp only [apply_ite State.queued, ite_self, queued_goTo, queued_setChan, queued_goNext]

theorem answered_slotRow (c k : Nat) (f : Slot → State → Out) (s : State) (h_f : ∀ (y0 : Slot) (y1 : State), Answered y1.queued (f y0 y1)) : Answered s.queued (slotRow c k f s) := by
  unfold slotRow
  split <;> simp only [answered_next, answered_ite, h_f]

theorem answered_execSlotRunnable (c k : Nat) (s : State) : Answered s.queued (execSlotRunnable c k s) := by
  refine answered_slotRow _ _ _ _ fun x s => ?_
  split
  · simp only [answered_ite, answered_next, answered_onlyIf, queued_waitEnds]
  · exact answered_next rfl

theorem answered_execWaitTimeout (c k : Nat) (s : State) : Answered s.queued (execWaitTimeout c k s) := by
  refine answered_slotRow _ _ _ _ fun x s => ?_
  split
  · exact answered_onlyIf (queued_waitEnds ..)
  · exact answered_next rfl

theorem queued_pollLun (c k : Nat) (x : Slot) (b : Byte) (s : State) : (pollLun c k x b s).queued = s.queued := by
  simp only [pollLun, apply_ite State.queued, ite_self, queued_selectTarget, queued_setChan, queued_statusRead, queued_raiseCe, queued_takeStatus]

theorem answered_execLunPoll (c k : Nat) (b : Byte) (s : State) : Answered s.queued (execLunPoll c k b s) := by
  refine answered_slotRow _ _ _ _ fun x s => ?_
  split
  · simp only [answered_onlyIf, queued_atRate, queued_pollLun, implies_true]
  · exact answered_next rfl

theorem queued_modLun (k : Nat) (f : LunSt → LunSt) (s : State) : (modLun k f s).queued = s.queued := by
  simp only [modLun, queued_setLun]

theorem queued_enqueue (w : Want) (s : State) : (enqueue w s).queued = s.queued := by
  simp only [enqueue, queued_modLun]

theorem queued_enqueueAll (ws : List Want) (s : State) : (enqueueAll ws s).queued = s.queued := by
  simp only [enqueueAll, implies_true, queued_foldl, queued_enqueue]

theorem queued_ageTick (s : State) : (ageTick s).queued = s.queued := by
  simp only [ageTick, queued_mk, queued_back]

theorem queued_dequeue (k : Nat) (ws : List Want) (s : State) : (dequeue k ws s).queued = s.queued := by
  simp only [dequeue, queued_modLun]

theorem queued_setOp (k : Nat) (o : Op) (s : State) : (setOp k o s).queued = s.queued := by
  simp only [setOp, queued_dequeue, queued_modLun]

theorem answered_readRow (k optype : Nat) (pick : State → Want → List Want → List Want) (s : State) : Answered s.queued (readRow k optype pick s) := by
  simp only [readRow]
  repeat' split
  all_goals simp only [answered_next, answered_onlyIf, queued_setOp]

theorem answered_execPageRead (k : Nat) (s : State) : Answered s.queued (execPageRead k s) := by
  simp only [execPageRead, answered_readRow]

theorem answered_execColRead (k : Nat) (s : State) : Answered s.queued (execColRead k s) := by
  simp only [execColRead, answered_readRow]

theorem answered_execMpRead (k : Nat) (s : State) : Answered s.queued (execMpRead k s) := by
  simp only [execMpRead, answered_readRow]

theorem answered_execCacheRead (k : Nat) (s : State) : Answered s.queued (execCacheRead k s) := by
  simp only [execCacheRead, answered_readRow]

theorem answered_formRow (k optype kind : Nat) (pick : State → Want → List Want) (s : State) : Answered s.queued (formRow k optype kind pick s) := by
  unfold formRow
  repeat' split
  all_goals simp only [answered_next, answered_onlyIf, queued_setOp]

theorem answered_execProg (k : Nat) (s : State) : Answered s.queued (execProg k s) := by
  simp only [execProg, answered_formRow]

theorem answered_execMpProg (k : Nat) (s : State) : Answered s.queued (execMpProg k s) := by
  simp only [execMpProg, answered_formRow]

theorem answered_execCacheProg (k : Nat) (s : State) : Answered s.queued (execCacheProg k s) := by
  simp only [execCacheProg, answered_formRow]

theorem answered_execSlcProg (k : Nat) (s : State) : Answered s.queued (execSlcProg k s) := by
  simp only [execSlcProg, answered_formRow]

theorem answered_execSealProg (k : Nat) (s : State) : Answered s.queued (execSealProg k s) := by
  simp only [execSealProg, answered_formRow]

theorem answered_execErase (k : Nat) (s : State) : Answered s.queued (execErase k s) := by
  simp only [execErase, answered_formRow]

theorem answered_execMpErase (k : Nat) (s : State) : Answered s.queued (execMpErase k s) := by
  simp only [execMpErase, answered_formRow]

theorem answered_execOtpRead (k : Nat) (s : State) : Answered s.queued (execOtpRead k s) := by
  simp only [execOtpRead, answered_formRow]

theorem answered_execOtpProg (k : Nat) (s : State) : Answered s.queued (execOtpProg k s) := by
  simp only [execOtpProg, answered_formRow]

theorem answered_execGetFeat (k : Nat) (s : State) : Answered s.queued (execGetFeat k s) := by
  simp only [execGetFeat, answered_formRow]

theorem answered_execSetFeat (k : Nat) (s : State) : Answered s.queued (execSetFeat k s) := by
  simp only [execSetFeat, answered_formRow]

theorem answered_execEraseResume (k : Nat) (s : State) : Answered s.queued (execEraseResume k s) := by
  simp only [execEraseResume]
  repeat' split
  all_goals simp only [answered_next, answered_onlyIf, queued_modLun]

theorem answered_execStokerIssue (k : Nat) (s : State) : Answered s.queued (execStokerIssue k s) := by
  simp only [execStokerIssue]
  repeat' split
  all_goals simp only [answered_next, answered_onlyIf, queued_restart, queued_modLun, queued_setSlot]

theorem queued_raiseSuspend (k : Nat) (s : State) : (raiseSuspend k s).queued = s.queued := by
  unfold raiseSuspend
  split <;> simp only [apply_ite State.queued, ite_self, queued_setSlot]

theorem answered_execEraseSuspendRequest (k : Nat) (s : State) : Answered s.queued (execEraseSuspendRequest k s) := by
  unfold execEraseSuspendRequest
  split <;> simp only [answered_next, answered_onlyIf, queued_raiseSuspend]

theorem answered_execSuspendWindowExpiry (k : Nat) (s : State) : Answered s.queued (execSuspendWindowExpiry k s) := by
  unfold execSuspendWindowExpiry
  repeat' split
  all_goals simp only [answered_next, answered_onlyIf, queued_modLun]

theorem answered_execClass3Aged (k : Nat) (s : State) : Answered s.queued (execClass3Aged k s) := by
  simp only [execClass3Aged, answered_onlyIf, queued_modLun]

theorem queued_stallOver (k : Nat) (o : Op) (code : Nat) (b : Byte) (s : State) : (stallOver k o code b s).queued = s.queued := by
  simp only [stallOver, queued_mk, queued_back, queued_modLun]

theorem queued_stallPolled (k : Nat) (o : Op) (t : Nat) (b : Byte) (s : State) : (stallPolled k o t b s).queued = s.queued := by
  simp only [stallPolled, apply_ite State.queued, ite_self, queued_stallOver, queued_lunOff, queued_inc, queued_logPacked]

theorem answered_execStallPoll (k : Nat) (b : Byte) (s : State) : Answered s.queued (execStallPoll k b s) := by
  unfold execStallPoll
  split <;> simp only [implies_true, answered_next, answered_onlyIf, queued_selectTarget, queued_stallPolled, queued_statusRead, queued_raiseCe, queued_atRate, queued_modLun]

theorem answered_execWprotReissue (k : Nat) (s : State) : Answered s.queued (execWprotReissue k s) := by
  unfold execWprotReissue
  split <;> simp only [answered_next, answered_onlyIf, queued_modLun]

theorem queued_setCalT (s : State) (ti : Nat) (x : CalTgt) : (State.setCalT s ti x).queued = s.queued := by
  simp only [State.setCalT, queued_mk, queued_back]

theorem queued_storeTrain (ti : Nat) (rd wr : List Int) (gbRd gbWr : Int) (s : State) : (storeTrain ti rd wr gbRd gbWr s).queued = s.queued := by
  simp only [storeTrain, queued_setCalT]

theorem queued_featCycles (c t fa : Nat) (ps : List Nat) (s : State) : (featCycles c t fa ps s).queued = s.queued := by
  simp only [featCycles, queued_busPut]

theorem queued_readCycles (c t : Nat) (cmd adr : Byte) (n : Nat) (s : State) : (readCycles c t cmd adr n s).queued = s.queued := by
  simp only [readCycles, queued_busPut]

theorem queued_kxPut (c t : Nat) (b : Byte) (xlen : Nat) (s : State) : (kxPut c t b xlen s).queued = s.queued := by
  simp only [kxPut, queued_busPut]

theorem queued_dieZq (c t mode : Nat) (s : State) : (dieZq c t mode s).queued = s.queued := by
  simp only [dieZq, apply_ite State.queued, ite_self, queued_kxPut, queued_busPut]

theorem queued_dieDcc (c t : Nat) (s : State) : (dieDcc c t s).queued = s.queued := by
  simp only [dieDcc, queued_busPut, queued_featCycles]

theorem queued_sweepPut (c t mode dir : Nat) (s : State) : (sweepPut c t mode dir s).queued = s.queued := by
  simp only [sweepPut, queued_busPut]

theorem queued_queueRun (sweep ti : Nat) (s : State) : (queueRun sweep ti s).queued = s.queued := by
  simp only [queueRun, queued_mk, queued_back, apply_ite State.queued, ite_self]

theorem queued_queueSweep (l : List Nat) (s : State) : (queueSweep l s).queued = s.queued := by
  simp only [queueSweep, implies_true, queued_mk, queued_back, queued_foldl, queued_queueRun]

theorem queued_trainFeatures (c t : Nat) (a : Applied) (s : State) : (trainFeatures c t a s).queued = s.queued := by
  simp only [trainFeatures, apply_ite State.queued, ite_self, queued_setChan, queued_raiseCe, queued_put, queued_featCycles, queued_setRate]

theorem queued_trainTry (c t : Nat) (gr gw : List Int) (m : Train) (s : State) : (trainTry c t gr gw m s).2.queued = s.queued := by
  simp only [trainTry, apply_ite State.queued, apply_ite Prod.snd, ite_self, queued_trainFeatures, queued_selectTarget, queued_phyZq, queued_dieDcc, queued_raiseCe, queued_storeTrain, queued_dieZq, queued_phyDuty]
  repeat' split
  all_goals simp only [queued_trainFeatures, queued_selectTarget, queued_phyZq, queued_dieDcc, queued_raiseCe, queued_storeTrain, queued_dieZq, queued_phyDuty, queued_sweepPut]

theorem queued_escape (c t : Nat) (s : State) : (escape c t s).queued = s.queued := by
  simp only [escape, apply_ite State.queued, ite_self, queued_setChan, queued_raiseCe, queued_busPut, queued_putFlag, queued_put, queued_inc]

theorem queued_kxSetFeatures (c t rate : Nat) (s : State) : (kxSetFeatures c t rate s).queued = s.queued := by
  simp only [kxSetFeatures, queued_featCycles]

theorem queued_kxSet (c t adr v : Nat) (s : State) : (kxSet c t adr v s).queued = s.queued := by
  simp only [kxSet, queued_busPut]

theorem queued_kxEcho (c t : Nat) (s : State) (x0 : Nat) : (kxEcho c t s x0).queued = s.queued := by
  simp only [kxEcho, queued_fresh, queued_busPut]

theorem queued_kxTry (c t rate : Nat) (gr gw : Int) (m : Train) (s : State) : (kxTry c t rate gr gw m s).2.queued = s.queued := by
  unfold kxTry
  repeat' split
  all_goals simp only [implies_true, queued_foldl, queued_kxSetFeatures, queued_kxPut, queued_selectTarget, queued_kxSet, queued_setChan, queued_kxEcho, queued_raiseCe, queued_busPut, queued_storeTrain, queued_putFlag, queued_sweepPut]

theorem queued_trainOnce (c t : Nat) (std : Bool) (kx : Option Nat) (gr gw : List Int) (m k : Train) (s : State) : (trainOnce c t std kx gr gw m k s).2.queued = s.queued := by
  unfold trainOnce
  repeat' split
  all_goals simp only [apply_ite State.queued, apply_ite Prod.snd, ite_self, queued_escape, queued_trainTry, queued_kxTry]

theorem queued_trainTwice (c t : Nat) (std : Bool) (kx : Option Nat) (gr gw : List Int) (x : TrainSet) (s : State) : (trainTwice c t std kx gr gw x s).2.queued = s.queued := by
  simp only [trainTwice, apply_ite State.queued, apply_ite Prod.snd, ite_self, queued_trainOnce, queued_targetOff]

theorem queued_setFieldWrite (f : Fld) (kx : Bool) (c t : Nat) (w : Word) (s : State) : (setFieldWrite f kx c t w s).queued = s.queued := by
  simp only [setFieldWrite, apply_ite State.queued, ite_self, queued_put, queued_logPacked]

theorem queued_kxReqWrite (c t : Nat) (w : Word) (s : State) : (kxReqWrite c t w s).queued = s.queued := by
  simp only [kxReqWrite, apply_ite State.queued, ite_self, queued_logOnce, queued_put]

theorem queued_tgtcfgWrite (c t : Nat) (w : Word) (s : State) : (tgtcfgWrite c t w s).queued = s.queued := by
  simp only [tgtcfgWrite, apply_ite State.queued, ite_self, queued_kxReqWrite, queued_setFieldWrite, queued_putFlag]

theorem answered_execKxReqWrite (r : Req) (c t : Nat) (w : Word) (s : State) : Answered s.queued (execKxReqWrite r c t w s) := by
  simp only [execKxReqWrite, implies_true, answered_onlyIf, queued_regWrite, queued_tgtcfgWrite]

theorem answered_execTsetWrite (r : Req) (c t : Nat) (w : Word) (s : State) : Answered s.queued (execTsetWrite r c t w s) := by
  simp only [execTsetWrite, implies_true, answered_onlyIf, queued_regWrite, queued_tgtcfgWrite]

theorem queued_slotsAfresh (c t : Nat) (ok : Bool) (s : State) : (slotsAfresh c t ok s).queued = s.queued := by
  simp only [slotsAfresh, implies_true, apply_ite State.queued, ite_self, queued_foldl, queued_setChan, queued_endSlot]

theorem queued_kxRecover (c t : Nat) (x : TrainSet) (s : State) : (kxRecover c t x s).queued = s.queued := by
  simp only [kxRecover, queued_escape, queued_trainTwice, queued_slotsAfresh]

theorem answered_execKxEntry (c t : Nat) (x : TrainSet) (s : State) : Answered s.queued (execKxEntry c t x s) := by
  simp only [execKxEntry, apply_ite State.queued, ite_self, answered_onlyIf, queued_kxRecover, queued_trainTwice]

theorem answered_execKxExit (c t : Nat) (s : State) : Answered s.queued (execKxExit c t s) := by
  simp only [execKxExit, implies_true, answered_onlyIf, queued_kxPut, queued_selectTarget, queued_raiseCe, queued_putFlag, queued_atRate]

theorem queued_showOffsets (c : Nat) (s : State) : (showOffsets c s).queued = s.queued := by
  simp only [showOffsets, queued_setReg]

theorem queued_trackBit (c key : Nat) (s : State) : (trackBit c key s).queued = s.queued := by
  simp only [trackBit, apply_ite State.queued, ite_self, queued_queueSweep, queued_setBit, queued_setChan, queued_inc]

theorem answered_execTrackingEval (c : Nat) (edges : List (Nat × Nat × Nat × Bool)) (s : State) : Answered s.queued (execTrackingEval c edges s) := by
  simp only [execTrackingEval, implies_true, answered_onlyIf, queued_foldl, queued_setChan, queued_trackBit, queued_showOffsets]

theorem answered_execRbRise (c t : Nat) (s : State) : Answered s.queued (execRbRise c t s) := by
  simp only [execRbRise, answered_onlyIf, queued_setChan]

theorem queued_rawLatch (c : Nat) (s : State) : (rawLatch c s).queued = s.queued := by
  simp only [rawLatch, apply_ite State.queued, ite_self, queued_putFlag]

theorem queued_rawCtlWrite (c : Nat) (w : Word) (s : State) : (rawCtlWrite c w s).queued = s.queued := by
  simp only [rawCtlWrite, apply_ite State.queued, ite_self, queued_setChan, queued_raiseCe, queued_putFlag, queued_put, queued_rawLatch]

theorem answered_execRawCtlEnable (r : Req) (c : Nat) (w : Word) (s : State) : Answered s.queued (execRawCtlEnable r c w s) := by
  simp only [execRawCtlEnable, implies_true, answered_onlyIf, queued_regWrite, queued_rawCtlWrite]

theorem answered_execRawCtlDisable (r : Req) (c : Nat) (w : Word) (s : State) : Answered s.queued (execRawCtlDisable r c w s) := by
  simp only [execRawCtlDisable, implies_true, answered_onlyIf, queued_regWrite, queued_rawCtlWrite]

theorem answered_rawAccess (r : Req) (c ofs len n : Nat) (write : Bool) (region : Nat) (a : State → RawAcc) (s : State) : Answered s.queued (rawAccess r c ofs len n write region a s) := by
  simp only [rawAccess]
  repeat' split
  all_goals simp only [answered_next, queued_noteRefused, queued_setChan, queued_putFlag, queued_abortEntry, queued_respond, queued_rawLatch, queued_takeIn, queued_respondWrite]

theorem answered_execRawCommandWrite (r : Req) (c ofs : Nat) (en : List (Option Byte)) (s : State) : Answered s.queued (execRawCommandWrite r c ofs en s) := by
  simp only [execRawCommandWrite, answered_rawAccess]

theorem answered_execRawAddressWrite (r : Req) (c ofs : Nat) (en : List (Option Byte)) (s : State) : Answered s.queued (execRawAddressWrite r c ofs en s) := by
  simp only [execRawAddressWrite, answered_rawAccess]

theorem answered_execRawDataWrite (r : Req) (c ofs : Nat) (en : List (Option Byte)) (s : State) : Answered s.queued (execRawDataWrite r c ofs en s) := by
  simp only [execRawDataWrite, answered_rawAccess]

theorem answered_execRawDataRead (r : Req) (c ofs len : Nat) (s : State) : Answered s.queued (execRawDataRead r c ofs len s) := by
  simp only [execRawDataRead, answered_rawAccess]

theorem answered_execRawStatusRead (r : Req) (c ofs len : Nat) (s : State) : Answered s.queued (execRawStatusRead r c ofs len s) := by
  simp only [execRawStatusRead, answered_rawAccess]

theorem answered_execRawReadTimeout (c : Nat) (s : State) : Answered s.queued (execRawReadTimeout c s) := by
  unfold execRawReadTimeout
  split <;> simp only [answered_next, answered_onlyIf, queued_setChan, queued_putFlag, queued_rawFails]

theorem answered_execPatchRamRead (r : Req) (c ofs beats : Nat) (s : State) : Answered s.queued (execPatchRamRead r c ofs beats s) := by
  unfold execPatchRamRead
  split <;> simp only [answered_next, answered_ite, queued_putFlag, queued_respond]

theorem answered_execPatchRamWrite (r : Req) (c : Nat) (s : State) : Answered s.queued (execPatchRamWrite r c s) := by
  unfold execPatchRamWrite
  split <;> simp only [apply_ite State.queued, ite_self, answered_next, queued_putFlag, queued_respondWrite]

theorem queued_haltWrite (c : Nat) (w : Word) (s : State) : (haltWrite c w s).queued = s.queued := by
  simp only [haltWrite, apply_ite State.queued, ite_self, queued_setChan, queued_putFlag, queued_haltAt]

theorem queued_stepWord (c : Nat) (u : BitVec 96) (din : List Byte) (m : Train) (s : State) : (stepWord c u din m s).queued = s.queued := by
  unfold stepWord
  repeat' split
  all_goals simp only [apply_ite State.queued, ite_self, queued_wordOrRate, queued_setChan]

theorem answered_execStkDbgHalt (r : Req) (c : Nat) (w : Word) (s : State) : Answered s.queued (execStkDbgHalt r c w s) := by
  simp only [execStkDbgHalt, implies_true, answered_onlyIf, queued_regWrite, queued_haltWrite]

theorem answered_execStkDbgStep (r : Req) (c : Nat) (w : Word) (u : BitVec 96) (din : List Byte) (m : Train) (s : State) : Answered s.queued (execStkDbgStep r c w u din m s) := by
  simp only [execStkDbgStep, implies_true, answered_onlyIf, queued_regWrite, queued_stepWord, queued_haltWrite]

end Sys2Proof.Machine
end


section
/-! SUPPORT. The read path, the map and its cache leave the part and the queue as they are. -/

namespace Sys2Proof.Machine

theorem queued_modUnit (s : State) (x : Nat) (f : UnitE → UnitE) : (State.modUnit s x f).queued = s.queued := by
  simp only [State.modUnit, queued_mk, queued_back]

theorem queued_modSet (s : State) (n : Nat) (f : SetSt → SetSt) : (State.modSet s n f).queued = s.queued := by
  simp only [State.modSet, queued_mk, queued_back]

theorem queued_setGrp (s : State) (set g : Nat) (x : Grp) : (State.setGrp s set g x).queued = s.queued := by
  simp only [State.setGrp, queued_mk, queued_back]

theorem queued_lineRead (q : FabReq) (p : Purpose) (s : State) : (lineRead q p s).queued = s.queued := by
  simp only [lineRead, queued_mk, queued_back, apply_ite State.queued, ite_self, queued_issue]

theorem queued_dramRead (addr len cls : Nat) (p : Purpose) (s : State) : (dramRead addr len cls p s).queued = s.queued := by
  simp only [dramRead, implies_true, queued_foldl, queued_lineRead]

theorem queued_releaseHeld (s : State) : (releaseHeld s).queued = s.queued := by
  simp only [releaseHeld, implies_true, queued_mk, queued_back, queued_foldl, queued_lineRead]

theorem queued_dramWrite (addr cls : Nat) (data : List Byte) (p : Purpose) (s : State) : (dramWrite addr cls data p s).queued = s.queued := by
  simp only [dramWrite, queued_issueAll]

theorem queued_dramSeen (code : RCode) (s : State) : (dramSeen code s).queued = s.queued := by
  simp only [dramSeen, queued_mk, queued_back, apply_ite State.queued, ite_self]

theorem queued_putUnit (x : Nat) (f : UnitE → UnitE) (s : State) : (putUnit x f s).queued = s.queued := by
  simp only [putUnit, queued_modUnit, queued_dramWrite]

theorem queued_putGrp (set g : Nat) (x : Grp) (s : State) : (putGrp set g x s).queued = s.queued := by
  simp only [putGrp, queued_setGrp, queued_dramWrite]

theorem queued_modDir (s : State) (mt : Nat) (f : Dir → Dir) : (State.modDir s mt f).queued = s.queued := by
  simp only [State.modDir, queued_mk, queued_back, apply_ite State.queued, ite_self, queued_dramWrite]

theorem queued_refreshReq (g : Page) (s : State) : (refreshReq g s).queued = s.queued := by
  simp only [refreshReq, apply_ite State.queued, ite_self, queued_putUnit]

theorem queued_gaugeFill (key cls : Nat) (l : GLine) (s : State) : (gaugeFill key cls l s).queued = s.queued := by
  simp only [gaugeFill, queued_mk, queued_back, apply_ite State.queued, ite_self, queued_dramWrite]

theorem queued_gaugeTouch (key : Nat) (s : State) : (gaugeTouch key s).queued = s.queued := by
  simp only [gaugeTouch, queued_mk, queued_back]

theorem queued_gaugeSeed (k b : Nat) (off : List Int) (s : State) : (gaugeSeed k b off s).queued = s.queued := by
  simp only [gaugeSeed]
  repeat' split
  all_goals simp only [queued_mk, queued_back, queued_dramWrite]

theorem queued_calLineRead (key : Nat) (code : RCode) (data : List Byte) (s : State) : (calLineRead key code data s).queued = s.queued := by
  unfold calLineRead
  split <;> simp only [queued_mk, queued_back, queued_inc, queued_dramWrite]

theorem queued_gaugeLearn (g : Page) (cw : Nat) (used : List Int) (good bad : List Byte) (s : State) : (gaugeLearn g cw used good bad s).queued = s.queued := by
  unfold gaugeLearn
  split <;> simp only [queued_mk, queued_back, apply_ite State.queued, ite_self, queued_refreshReq, queued_inc]

theorem queued_gaugeMove (g : Page) (used : List Int) (s : State) : (gaugeMove g used s).queued = s.queued := by
  unfold gaugeMove
  split <;> simp only [queued_mk, queued_back, apply_ite State.queued, ite_self, queued_inc]

theorem queued_modRd (s : State) (id : Nat) (f : Rd → Rd) : (State.modRd s id f).queued = s.queued := by
  simp only [State.modRd, queued_mk, queued_back]

theorem queued_addRd (s : State) (r : Rd) : (State.addRd s r).2.queued = s.queued := by
  simp only [State.addRd, queued_mk, queued_back]

theorem queued_dropOne (id : Nat) (s : State) : (dropOne id s).queued = s.queued := by
  unfold dropOne
  split <;> simp only [queued_mk, queued_back, queued_setChan, queued_modLun]

theorem queued_dropRd (id : Nat) (s : State) : (dropRd id s).queued = s.queued := by
  simp only [dropRd, implies_true, queued_foldl, queued_dropOne]

theorem queued_endRd (id code cbc : Nat) (plain raw : List Byte) (s : State) : (endRd id code cbc plain raw s).queued = s.queued := by
  simp only [endRd, queued_modRd]

theorem queued_uncorrRd (id : Nat) (s : State) : (uncorrRd id s).queued = s.queued := by
  unfold uncorrRd
  split <;> simp only [apply_ite State.queued, ite_self, queued_inc, queued_endRd]

theorem queued_takeRaToken {id : Nat} {r : Rd} {s : State} {y} (e : takeRaToken id r s = some y) : y.queued = s.queued := by
  unfold takeRaToken at e
  dsimp only at e
  repeat' split at e
  all_goals simp only [Option.some.injEq, reduceCtorEq] at e
  all_goals obtain rfl := e
  all_goals simp only [queued_mk, queued_back]

theorem queued_placePlain (id : Nat) (front : Bool) (s : State) : (placePlain id front s).queued = s.queued := by
  unfold placePlain
  split <;> simp only [queued_enqueue, queued_modRd]

theorem queued_withGauge (id : Nat) (go : State → State) (s : State) (h_go : ∀ (y0 : State), (go y0).queued = y0.queued) : (withGauge id go s).queued = s.queued := by
  unfold withGauge
  repeat' split
  all_goals simp only [apply_ite State.queued, ite_self, h_go, queued_gaugeTouch, queued_dramRead, queued_modRd]

theorem queued_askPartner (id set grpNo : Nat) (x : Grp) (row q pos cls rtag : Nat) (s : State) : (askPartner id set grpNo x row q pos cls rtag s).queued = s.queued := by
  unfold askPartner
  split <;> simp only [implies_true, queued_withGauge, queued_addRd, queued_placePlain]

theorem queued_startRecon (id : Nat) (around : Bool) (s : State) : (startRecon id around s).queued = s.queued := by
  unfold startRecon
  repeat' split
  all_goals simp only [implies_true, queued_foldl, queued_uncorrRd, queued_askPartner, queued_modRd]

theorem queued_tryAround (id : Nat) (s : State) : (tryAround id s).2.queued = s.queued := by
  unfold tryAround
  split
  · rfl
  · split
    · rfl
    · split
      · exact queued_inc ..
      · next e =>
        dsimp only
        split <;> simp only [queued_startRecon, queued_modRq, queued_inc, queued_takeRaToken e]

theorem queued_place (id : Nat) (s : State) : (place id s).queued = s.queued := by
  unfold place
  split <;> simp only [apply_ite State.queued, ite_self, queued_tryAround, queued_startRecon, queued_modRd, queued_placePlain]

theorem queued_startRd (r : Rd) (s : State) : (startRd r s).queued = s.queued := by
  simp only [startRd, implies_true, queued_place, queued_withGauge, queued_addRd]

theorem queued_softReads (id : Nat) (r : Rd) (s : State) : (softReads id r s).queued = s.queued := by
  simp only [softReads, queued_enqueue]

theorem queued_stepRecon (id : Nat) (s : State) : (stepRecon id s).queued = s.queued := by
  unfold stepRecon
  split <;> simp only [apply_ite State.queued, ite_self, queued_uncorrRd, queued_startRecon]

theorem queued_endLadder (id : Nat) (s : State) : (endLadder id s).queued = s.queued := by
  unfold endLadder
  repeat' split
  all_goals simp only [queued_stepRecon, queued_modRd]

theorem queued_nextStep (id : Nat) (s : State) : (nextStep id s).queued = s.queued := by
  unfold nextStep
  split <;> simp only [apply_ite State.queued, ite_self, queued_softReads, queued_enqueue, queued_endLadder, queued_modRd]

theorem queued_aside (id : Nat) (s : State) : (aside id s).queued = s.queued := by
  unfold aside
  repeat' split
  all_goals simp only [apply_ite State.queued, ite_self, queued_tryAround, queued_modRd]

theorem queued_decodeFailed (id : Nat) (s : State) : (decodeFailed id s).queued = s.queued := by
  unfold decodeFailed
  split <;> simp only [apply_ite State.queued, ite_self, queued_nextStep, queued_aside]

theorem queued_reconFailed (id : Nat) (s : State) : (reconFailed id s).queued = s.queued := by
  unfold reconFailed
  split <;> simp only [apply_ite State.queued, ite_self, queued_uncorrRd, queued_modRd, queued_placePlain]

theorem queued_reconRefresh (r : Rd) (s : State) : (reconRefresh r s).queued = s.queued := by
  simp only [reconRefresh, apply_ite State.queued, ite_self, queued_refreshReq]

theorem queued_tryRebuild (id : Nat) (s : State) : (tryRebuild id s).queued = s.queued := by
  unfold tryRebuild
  repeat' split
  all_goals simp only [queued_reconFailed, queued_inc, queued_reconRefresh, queued_logPacked, queued_endRd]

theorem queued_partnerResult (pid : Nat) (s : State) : (partnerResult pid s).queued = s.queued := by
  simp only [partnerResult]
  repeat' split
  all_goals simp only [queued_askPartner, queued_reconFailed, queued_nextStep, queued_dropOne, queued_modRd, queued_tryRebuild]

theorem queued_setStream (s : State) (k : Nat) (x : Stream) : (State.setStream s k x).queued = s.queued := by
  simp only [State.setStream, queued_mk, queued_back]

theorem queued_jAppend (k : Nat) (r : JRec) (s : State) : (jAppend k r s).queued = s.queued := by
  simp only [jAppend, apply_ite State.queued, ite_self, queued_setStream, queued_putFlag]

theorem queued_jAppendAll (k : Nat) (l : List JRec) (s : State) : (jAppendAll k l s).queued = s.queued := by
  simp only [jAppendAll, implies_true, queued_foldl, queued_jAppend]

theorem queued_nextSeq (s : State) : (nextSeq s).2.queued = s.queued := by
  simp only [nextSeq, queued_mk, queued_back]

theorem queued_modPan (s : State) (slot : Nat) (f : Pan → Pan) : (State.modPan s slot f).queued = s.queued := by
  simp only [State.modPan, queued_mk, queued_back]

theorem queued_putPan (s : State) (slot : Nat) (p : Pan) : (State.putPan s slot p).queued = s.queued := by
  simp only [State.putPan, queued_mk, queued_back]

theorem queued_delPan (s : State) (slot : Nat) : (State.delPan s slot).queued = s.queued := by
  simp only [State.delPan, queued_mk, queued_back]

theorem queued_writeDesc (slot : Nat) (s : State) : (writeDesc slot s).queued = s.queued := by
  unfold writeDesc
  split <;> simp only [queued_dramWrite]

theorem queued_recordPan (slot : Nat) (s : State) : (recordPan slot s).queued = s.queued := by
  unfold recordPan
  split <;> simp only [apply_ite State.queued, ite_self, queued_modPan, queued_jAppend]

theorem queued_freeSlot (slot : Nat) (s : State) : (freeSlot slot s).queued = s.queued := by
  simp only [freeSlot, queued_writeDesc, queued_delPan]

theorem queued_reconJob (s : State) (slot : Nat) (p : Pan) : (reconJob s slot p).2.queued = s.queued := by
  simp only [reconJob, queued_nextPort]

theorem queued_resend (slot : Nat) (s : State) : (resend slot s).queued = s.queued := by
  unfold resend
  split <;> simp only [queued_mk, queued_back, queued_reconJob, queued_modPan, queued_queueJob]

theorem queued_releaseMirror (p : Pan) (s : State) : (releaseMirror p s).queued = s.queued := by
  simp only [releaseMirror, queued_nextPort, queued_queueJob]

theorem queued_handoffJob (s : State) (slot : Nat) (p : Pan) (src : Option Nat) (data : List Byte) (tries : Nat) : (handoffJob s slot p src data tries).2.queued = s.queued := by
  simp only [handoffJob, queued_nextPort]

theorem queued_readBack (p : Pan) (s : State) : (readBack p s).2.queued = s.queued := by
  simp only [readBack, apply_ite State.queued, apply_ite Prod.snd, ite_self, queued_handoffJob, queued_queueJob, queued_inc, queued_putPan]

theorem queued_modTwin (s : State) (f : Twin → Twin) : (State.modTwin s f).queued = s.queued := by
  simp only [State.modTwin, queued_mk, queued_back]

theorem queued_readDesc (slot : Nat) (s : State) : (readDesc slot s).queued = s.queued := by
  simp only [readDesc, queued_issue, queued_nextPort]

theorem queued_fetchBack (d : MirDesc) (s : State) : (fetchBack d s).queued = s.queued := by
  simp only [fetchBack, apply_ite State.queued, ite_self, queued_readBack, queued_modTwin]

theorem queued_letGo (d : MirDesc) (s : State) : (letGo d s).queued = s.queued := by
  simp only [letGo, apply_ite State.queued, ite_self, queued_releaseMirror]

theorem queued_probed (slot seq : Nat) (s : State) : (probed slot seq s).queued = s.queued := by
  unfold probed
  split <;> simp only [apply_ite State.queued, ite_self, queued_letGo, queued_fetchBack, queued_modTwin]

theorem queued_probeEntry (lta e : Nat) (s : State) : (probeEntry lta e s).queued = s.queued := by
  simp only [probeEntry, implies_true, apply_ite State.queued, ite_self, queued_foldl, queued_startRd, queued_probed]

theorem queued_setLine (s : State) (line : Nat) (l : MLine) : (State.setLine s line l).queued = s.queued := by
  simp only [State.setLine, queued_mk, queued_back]

theorem queued_delLine (s : State) (line : Nat) : (State.delLine s line).queued = s.queued := by
  simp only [State.delLine, queued_mk, queued_back]

theorem queued_writeBack (line cls : Nat) (s : State) : (writeBack line cls s).queued = s.queued := by
  unfold writeBack
  split <;> simp only [queued_setLine, queued_dramWrite]

theorem queued_readLine (line cls : Nat) (s : State) : (readLine line cls s).queued = s.queued := by
  unfold readLine
  split <;> simp only [queued_mk, queued_back, queued_dramRead]

theorem queued_fetchLine (line cls : Nat) (prefetch : Bool) (s : State) : (fetchLine line cls prefetch s).queued = s.queued := by
  simp only [fetchLine, apply_ite State.queued, ite_self, queued_readLine]
  repeat' split
  all_goals simp only [queued_mk, queued_back, queued_setLine, queued_readLine, queued_delLine, queued_writeBack]

theorem queued_moveValid (old new : Nat) (s : State) : (moveValid old new s).queued = s.queued := by
  simp only [moveValid, apply_ite State.queued, ite_self, queued_putUnit]

theorem queued_updDone (u : MUpd) (old : Nat) (s : State) : (updDone u old s).queued = s.queued := by
  unfold updDone
  split <;> simp only [queued_mk, queued_back, queued_modRq, queued_modPan, queued_writeDesc, queued_nextSeq, queued_jAppend, queued_recordPan]

theorem queued_applyTo (u : MUpd) (ents : List Nat) (s : State) : (applyTo u ents s).2.queued = s.queued := by
  simp only [applyTo, apply_ite State.queued, apply_ite Prod.snd, ite_self, queued_moveValid, queued_updDone]

theorem queued_storeLine (line : Nat) (ents : List Nat) (s : State) : (storeLine line ents s).queued = s.queued := by
  unfold storeLine
  repeat' split
  all_goals simp only [queued_setLine, queued_dramWrite, queued_delLine]

theorem queued_dirtyTile (lta : Nat) (s : State) : (dirtyTile lta s).queued = s.queued := by
  simp only [dirtyTile, queued_modDir]

theorem queued_mapUpdate (u : MUpd) (cls : Nat) (s : State) : (mapUpdate u cls s).queued = s.queued := by
  unfold mapUpdate
  dsimp only
  split
  · split
    all_goals
      next e => simp only [queued_dirtyTile, queued_storeLine, queued_snd_of (queued_applyTo ..) e]
  · repeat' split
    all_goals simp only [queued_mk, queued_back, queued_dramWrite, queued_fetchLine, queued_updDone, queued_moveValid, queued_fresh]

theorem queued_countHot (lta k : Nat) (s : State) : (countHot lta k s).queued = s.queued := by
  simp only [countHot, queued_mk, queued_back, apply_ite State.queued, ite_self]

theorem queued_resolve (rtag i e : Nat) (s : State) : (resolve rtag i e s).queued = s.queued := by
  simp only [resolve]
  repeat' split
  all_goals simp only [queued_startRd, queued_tileOutcome, queued_countHot, queued_logPacked, queued_modTile]

theorem queued_markRepair (l : List Nat) (s : State) : (markRepair l s).queued = s.queued := by
  simp only [markRepair, queued_mk, queued_back]

theorem queued_readTiles (l : List Nat) (s : State) : (readTiles l s).queued = s.queued := by
  refine queued_foldl fun t mt => ?_
  split <;> simp only [queued_dramRead, queued_modDir]

theorem queued_evictTile (s : State) : (evictTile s).queued = s.queued := by
  simp only [evictTile, apply_ite State.queued]
  repeat' split
  all_goals simp only [queued_readTiles]

theorem queued_loadTile (mt cls : Nat) (s : State) : (loadTile mt cls s).queued = s.queued := by
  unfold loadTile
  repeat' split
  all_goals simp only [queued_mk, queued_back, queued_modDir, queued_startRd, queued_evictTile]

theorem queued_retryLoads (s : State) : (retryLoads s).queued = s.queued := by
  simp only [retryLoads, implies_true, queued_mk, queued_back, queued_foldl, queued_loadTile]

theorem queued_walkRead (lta cls : Nat) (dir : Bool) (s : State) : (walkRead lta cls dir s).queued = s.queued := by
  simp only [walkRead, apply_ite State.queued, ite_self, queued_dramRead]

theorem queued_lookupTile (rtag i lta cls : Nat) (s : State) : (lookupTile rtag i lta cls s).queued = s.queued := by
  simp only [lookupTile]
  repeat' split
  all_goals simp only [queued_walkRead, queued_resolve, queued_inc, queued_modTile, queued_fetchLine]

theorem queued_probeLookup (s : State) (lta : Nat) : (probeLookup s lta).queued = s.queued := by
  unfold probeLookup
  split <;> simp only [apply_ite State.queued, ite_self, queued_probeEntry, queued_walkRead, queued_inc, queued_fetchLine]

theorem queued_probeDrop (p : Nat → Bool) (s : State) : (probeDrop p s).queued = s.queued := by
  simp only [probeDrop, queued_modTwin]

theorem queued_walked (lta cls : Nat) (dir : Bool) (code : RCode) (s : State) : (walked lta cls dir code s).queued = s.queued := by
  unfold walked
  repeat' split
  all_goals simp only [implies_true, apply_ite State.queued, ite_self, queued_foldl, queued_probeEntry, queued_markRepair, queued_walkRead, queued_tileOutcome, queued_probeDrop, queued_resolve, queued_loadTile, queued_logPacked, queued_modTile, queued_fetchLine]

theorem queued_readPan (s : State) (q : Request) (i slot : Nat) (p : Pan) : (readPan s q i slot p).queued = s.queued := by
  simp only [readPan, apply_ite State.queued, ite_self, queued_nextPort, queued_tileOutcome, queued_queueJob, queued_modTile]

theorem queued_stride (i lta : Nat) (s : State) : (stride i lta s).queued = s.queued := by
  simp only [stride, implies_true, queued_mk, queued_back, apply_ite State.queued, ite_self, queued_foldl, queued_fetchLine]

theorem queued_marginReads (q : Request) (s : State) : (marginReads q s).queued = s.queued := by
  simp only [marginReads, implies_true, queued_foldl, queued_enqueue]

theorem answered_execMapLookup (rtag i : Nat) (s : State) : Answered s.queued (execMapLookup rtag i s) := by
  unfold execMapLookup
  repeat' split
  all_goals simp only [answered_next, answered_onlyIf, queued_lookupTile, queued_readPan, queued_stride]

theorem queued_fillDone (line : Nat) (code : RCode) (data : List Byte) (s : State) : (fillDone line code data s).queued = s.queued := by
  unfold fillDone
  dsimp only
  split
  · simp only [implies_true, apply_ite State.queued, ite_self, queued_foldl, queued_probeEntry, queued_resolve, queued_storeLine]
    refine (queued_foldl_snd fun x u => ?_).trans ?_
    · split
      all_goals
        next e => simp only [queued_dirtyTile, queued_snd_of (queued_applyTo ..) e]
    · split <;> simp only [queued_mk, queued_back, apply_ite State.queued, ite_self, queued_setLine]
  · simp only [implies_true, queued_mk, queued_back, apply_ite State.queued, ite_self, queued_foldl, queued_delLine, queued_modTile, queued_markRepair]
  · simp only [implies_true, queued_mk, queued_back, apply_ite State.queued, ite_self, queued_foldl, queued_delLine, queued_modTile, queued_probeDrop, queued_tileOutcome, queued_logPacked]

theorem answered_execMapFillDone (line : Nat) (code : RCode) (data : List Byte) (s : State) : Answered s.queued (execMapFillDone line code data s) := by
  unfold execMapFillDone
  split
  · simp only [answered_next]
  · next e => simp only [answered_onlyIf, queued_dramSeen, queued_codeTaken, queued_fillDone, queued_releaseHeld, queued_takeOutst e]

theorem queued_tileLoaded (mt : Nat) (code : RCode) (s : State) : (tileLoaded mt code s).queued = s.queued := by
  unfold tileLoaded
  split <;> simp only [implies_true, queued_mk, queued_back, apply_ite State.queued, ite_self, queued_foldl, queued_modDir, queued_tileOutcome, queued_probeDrop, queued_logPacked, queued_modTile, queued_fetchLine]

theorem queued_tileRead (mt cls : Nat) (data : List Byte) (s : State) : (tileRead mt cls data s).queued = s.queued := by
  unfold tileRead
  split <;> simp only [queued_dramWrite]

theorem answered_execMapTileLoadDone (mt : Nat) (code : RCode) (s : State) : Answered s.queued (execMapTileLoadDone mt code s) := by
  unfold execMapTileLoadDone
  split
  · simp only [answered_next]
  · next e => simp only [apply_ite State.queued, ite_self, answered_onlyIf, queued_dramSeen, queued_tileLoaded, queued_codeTaken, queued_releaseHeld, queued_takeOutst e]

theorem queued_flushEnd (s : State) : (flushEnd s).queued = s.queued := by
  simp only [flushEnd, queued_mk, queued_back, apply_ite State.queued, ite_self, queued_putFlag]

theorem queued_writeBackDone (line : Nat) (code : RCode) (s : State) : (writeBackDone line code s).queued = s.queued := by
  simp only [writeBackDone]
  repeat' split
  all_goals simp only [queued_mk, queued_back, queued_setLine, queued_readLine, queued_flushEnd, queued_inc, queued_delLine, queued_writeBack]

theorem answered_execWritebackRetry (line : Nat) (s : State) : Answered s.queued (execWritebackRetry line s) := by
  unfold execWritebackRetry
  repeat' split
  all_goals simp only [answered_next, answered_onlyIf, queued_writeBack]

theorem queued_ccCtlWrite (w : Word) (s : State) : (ccCtlWrite w s).queued = s.queued := by
  simp only [ccCtlWrite, implies_true, queued_mk, queued_back, apply_ite State.queued, ite_self, queued_foldl, queued_putFlag, queued_flushEnd, queued_writeBack]

theorem answered_execMapCcDisable (r : Req) (w : Word) (s : State) : Answered s.queued (execMapCcDisable r w s) := by
  simp only [execMapCcDisable, implies_true, answered_onlyIf, queued_regWrite, queued_ccCtlWrite]

theorem answered_execMapCcEnable (r : Req) (w : Word) (s : State) : Answered s.queued (execMapCcEnable r w s) := by
  simp only [execMapCcEnable, implies_true, answered_onlyIf, queued_regWrite, queued_ccCtlWrite]

theorem answered_execOverlayMerge (mt : Nat) (s : State) : Answered s.queued (execOverlayMerge mt s) := by
  unfold execOverlayMerge
  split
  · exact answered_onlyIf (queued_loadTile ..)
  · refine answered_onlyIf ?_
    simp only [implies_true, queued_mk, queued_back, queued_foldl, queued_retryLoads, queued_mapUpdate, queued_modDir, queued_dramWrite]
    refine queued_foldl fun t e => ?_
    split <;> simp only [queued_setLine, queued_dramWrite]

theorem queued_repairRead (mt : Nat) (s : State) : (repairRead mt s).queued = s.queued := by
  simp only [repairRead, queued_mk, queued_back, apply_ite State.queued, ite_self, queued_startRd]

theorem queued_repairLine (line : Nat) (ents : List Nat) (ok : Bool) (s : State) : (repairLine line ents ok s).queued = s.queued := by
  simp only [repairLine, implies_true, queued_mk, queued_back, apply_ite State.queued, ite_self, queued_foldl, implies_true, queued_probeLookup, queued_mapUpdate, queued_dirtyTile]
  repeat' split
  all_goals simp only [implies_true, queued_foldl, queued_setLine, queued_jAppend, queued_inc, queued_dramWrite]

theorem answered_execMapRepair (line : Nat) (ok : Bool) (s : State) : Answered s.queued (execMapRepair line ok s) := by
  unfold execMapRepair
  split <;> simp only [answered_onlyIf, queued_repairLine, queued_repairRead]

theorem queued_repairTile (mt : Nat) (data : List Byte) (s : State) : (repairTile mt data s).queued = s.queued := by
  simp only [repairTile, queued_mk, queued_back]

end Sys2Proof.Machine
end


section
/-! SUPPORT. The write path, the rows and the checkpoint leave the part and the queue as they are. -/

namespace Sys2Proof.Machine

theorem queued_openGroup {set estate : Nat} {slc : Bool} {s : State} {a y} (e : openGroup set estate slc s = some (a, y)) : y.queued = s.queued := by
  unfold openGroup at e
  repeat' split at e
  all_goals simp only [Option.some.injEq, Prod.mk.injEq, reduceCtorEq] at e
  all_goals obtain ⟨-, rfl⟩ := e
  all_goals simp only [implies_true, queued_foldl, queued_putUnit, queued_putGrp]

theorem queued_closeGroup (set g : Nat) (s : State) : (closeGroup set g s).queued = s.queued := by
  unfold closeGroup
  split <;> simp only [implies_true, queued_foldl, queued_putUnit, queued_putGrp, queued_jAppend]

theorem queued_budget (s : State) : (budget s).queued = s.queued := by
  simp only [budget, apply_ite State.queued, ite_self, queued_put]

theorem queued_addReserve {set : Nat} {s : State} {y} (e : addReserve set s = some y) : y.queued = s.queued := by
  unfold addReserve at e
  repeat' split at e
  all_goals simp only [Option.some.injEq, reduceCtorEq] at e
  all_goals obtain rfl := e
  all_goals simp only [queued_mk, queued_back, queued_jAppendAll, queued_jAppend, queued_budget, queued_openGroup ‹_›]

theorem queued_fillReserve (x0 : Nat) (x1 : State) : (fillReserve x0 x1).queued = x1.queued := by
  induction x0 generalizing x1 with
  | zero => rfl
  | succ n ih =>
    unfold fillReserve
    split
    · next t e =>
      obtain ⟨g, -, hg⟩ := List.exists_of_findSome?_eq_some e
      exact (ih t).trans (queued_addReserve hg)
    · rfl

theorem queued_notePressure (s : State) : (notePressure s).queued = s.queued := by
  simp only [notePressure, queued_mk, queued_back]

theorem queued_abandonRelocs (lta : Nat) (s : State) : (abandonRelocs lta s).queued = s.queued := by
  simp only [abandonRelocs, implies_true, queued_mk, queued_back, apply_ite State.queued, ite_self, queued_foldl, queued_mapUpdate]

theorem queued_admitTile {rtag sluice nsKey : Nat} {urgent : Bool} {t : Tile} {s : State} {a y} (e : admitTile rtag sluice nsKey urgent t s = some (a, y)) : y.queued = s.queued := by
  unfold admitTile at e
  dsimp only at e
  repeat' split at e
  all_goals simp only [Option.some.injEq, Prod.mk.injEq, reduceCtorEq] at e
  all_goals obtain ⟨-, rfl⟩ := e
  all_goals simp only [queued_mk, queued_back, queued_putPan, queued_nextSeq, queued_abandonRelocs]

theorem queued_admitTiles {q : Request} {x0 : List Tile} {x1 : State} {a y} (e : admitTiles q x0 x1 = some (a, y)) : y.queued = x1.queued := by
  induction x0 generalizing x1 a y with
  | nil => cases e; rfl
  | cons t r ih =>
    unfold admitTiles at e
    split at e
    · simp only [reduceCtorEq] at e
    · next ht =>
      split at e
      · simp only [reduceCtorEq] at e
      · next hr =>
        cases e
        exact (ih hr).trans (queued_admitTile ht)

theorem queued_takeSlots {q : Request} {s : State} {a y} (e : takeSlots q s = some (a, y)) : y.queued = s.queued := by
  unfold takeSlots at e
  repeat' split at e
  all_goals simp only [Option.some.injEq, Prod.mk.injEq, reduceCtorEq] at e
  all_goals obtain ⟨-, rfl⟩ := e
  all_goals simp only [queued_notePressure, queued_admitTiles ‹_›]

theorem queued_startCommit (q : Request) (i : Nat) (t : Tile) (slot tries : Nat) (s : State) : (startCommit q i t slot tries s).queued = s.queued := by
  simp only [startCommit, apply_ite State.queued, ite_self, queued_queueJobs, queued_inc]

theorem queued_raiseTiles (lta seq d : Nat) (exact : Bool) (s : State) : (raiseTiles lta seq d exact s).queued = s.queued := by
  simp only [raiseTiles, implies_true, queued_foldl, queued_modRq, queued_requestCheck]

theorem queued_reached (lta seq : Nat) (s : State) : (reached lta seq s).queued = s.queued := by
  simp only [reached, implies_true, queued_mk, queued_back, queued_foldl, queued_modRq, queued_requestCheck]

theorem queued_mirrorCheck (rtag i slot : Nat) (s : State) : (mirrorCheck rtag i slot s).queued = s.queued := by
  unfold mirrorCheck
  split <;> simp only [apply_ite State.queued, ite_self, queued_modPan, queued_requestCheck, queued_modTile]

theorem queued_ownCommitted (rtag i slot : Nat) (stored : List Byte) (s : State) : (ownCommitted rtag i slot stored s).queued = s.queued := by
  unfold ownCommitted
  split <;> simp only [apply_ite State.queued, ite_self, queued_resend, queued_requestCheck, queued_mirrorCheck, queued_modTile, queued_putPan]

theorem queued_mirrorCommitted (rtag i slot : Nat) (s : State) : (mirrorCommitted rtag i slot s).queued = s.queued := by
  simp only [mirrorCommitted, queued_mirrorCheck, queued_modTile]

theorem queued_mediaCheck (slot : Nat) (s : State) : (mediaCheck slot s).queued = s.queued := by
  unfold mediaCheck
  split <;> simp only [implies_true, queued_mk, queued_back, apply_ite State.queued, ite_self, queued_foldl, queued_freeSlot, queued_reached, queued_put, queued_raiseTiles, queued_notePressure, queued_releaseMirror]

theorem queued_discardCopies (lta : Nat) (s : State) : (discardCopies lta s).queued = s.queued := by
  simp only [discardCopies, implies_true, queued_foldl, queued_freeSlot, queued_notePressure]

theorem queued_twinLost (s : State) : (twinLost s).queued = s.queued := by
  unfold twinLost
  split
  · rfl
  · simp only [queued_budget]
    refine (queued_foldl fun t r => ?_).trans ?_
    · split <;> simp only [apply_ite State.queued, ite_self, queued_finish, queued_requestCheck]
    · simp only [queued_mk, queued_back, apply_ite State.queued, ite_self, queued_put, queued_inc]

theorem queued_poisonSlot (slot : Nat) (s : State) : (poisonSlot slot s).queued = s.queued := by
  unfold poisonSlot
  split <;> simp only [queued_modPan, queued_writeDesc, queued_jAppend, queued_inc, queued_mapUpdate]

theorem queued_panDataErr (slot : Nat) (s : State) : (panDataErr slot s).queued = s.queued := by
  unfold panDataErr
  split <;> simp only [queued_mk, queued_back, apply_ite State.queued, apply_ite Prod.snd, apply_ite Prod.fst, ite_self, queued_poisonSlot, queued_freeSlot, queued_readBack]

theorem queued_modRow (s : State) (id : Nat) (f : Row → Row) : (State.modRow s id f).queued = s.queued := by
  simp only [State.modRow, queued_mk, queued_back]

theorem queued_parTouch (id q : Nat) (first : Bool) (s : State) : (parTouch id q first s).queued = s.queued := by
  unfold parTouch
  repeat' split
  all_goals simp only [queued_dramRead, queued_dramWrite]

theorem queued_parReadDone (id addr len : Nat) (s : State) : (parReadDone id addr len s).queued = s.queued := by
  unfold parReadDone
  repeat' split
  all_goals simp only [queued_dramWrite]

theorem queued_memberPassed (e : Nat) (m : Member) (s : State) : (memberPassed e m s).queued = s.queued := by
  simp only [memberPassed]
  repeat' split
  all_goals simp only [queued_mk, queued_back, queued_modPan, queued_writeDesc, queued_put, queued_mapUpdate]

theorem queued_ckptTileDone (s : State) : (ckptTileDone s).queued = s.queued := by
  simp only [ckptTileDone, queued_mk, queued_back]

theorem queued_memberSafe (e : Nat) (m : Member) (s : State) : (memberSafe e m s).queued = s.queued := by
  unfold memberSafe
  repeat' split
  all_goals simp only [queued_mk, queued_back, apply_ite State.queued, ite_self, queued_modDir, queued_modPan, queued_retryLoads, queued_putUnit, queued_ckptTileDone, queued_jAppend, queued_recordPan]

theorem queued_memberBack (e : Nat) (m : Member) (s : State) : (memberBack e m s).queued = s.queued := by
  unfold memberBack
  repeat' split
  all_goals simp only [queued_mk, queued_back, queued_modDir, queued_modPan, queued_writeDesc, queued_mapUpdate]

theorem queued_groupEnd (set g : Nat) (s : State) : (groupEnd set g s).queued = s.queued := by
  unfold groupEnd
  split <;> simp only [apply_ite State.queued, ite_self, queued_closeGroup]

theorem queued_dropRow (id : Nat) (s : State) : (dropRow id s).queued = s.queued := by
  simp only [dropRow, queued_mk, queued_back, queued_groupEnd]

theorem queued_rowCheck (id : Nat) (s : State) : (rowCheck id s).queued = s.queued := by
  unfold rowCheck
  split <;> simp only [implies_true, apply_ite State.queued, ite_self, queued_foldl, queued_modRow, queued_memberSafe, queued_dropRow]

theorem queued_closeUnit (id slot : Nat) (s : State) : (closeUnit id slot s).queued = s.queued := by
  unfold closeUnit
  split <;> simp only [queued_modRow, queued_rowCheck]

theorem queued_closures (set g r slot : Nat) (s : State) : (closures set g r slot s).queued = s.queued := by
  unfold closures
  split <;> simp only [implies_true, queued_foldl, queued_closeUnit]

theorem queued_parityDone (id : Nat) (s : State) : (parityDone id s).queued = s.queued := by
  unfold parityDone
  split <;> simp only [apply_ite State.queued, ite_self, queued_modRow, queued_putGrp, queued_rowCheck]

theorem queued_unitPassed (id pos : Nat) (s : State) : (unitPassed id pos s).queued = s.queued := by
  unfold unitPassed
  split <;> simp only [implies_true, queued_foldl, queued_modRow, queued_parityDone, queued_closures, queued_memberPassed]

theorem queued_queueUnit (cls id pos : Nat) (s : State) : (queueUnit cls id pos s).queued = s.queued := by
  unfold queueUnit
  split <;> simp only [apply_ite State.queued, ite_self, queued_modRow, queued_enqueue, queued_unitPassed]

theorem queued_queueReady (cls id pos : Nat) (s : State) : (queueReady cls id pos s).queued = s.queued := by
  unfold queueReady
  split <;> simp only [apply_ite State.queued, ite_self, queued_queueUnit]

theorem queued_setMember (id pos q : Nat) (m : Member) (s : State) : (setMember id pos q m s).queued = s.queued := by
  unfold setMember
  split <;> simp only [queued_modRow, queued_parTouch]

theorem queued_putMember (cls id pos q : Nat) (m : Member) (s : State) : (putMember cls id pos q m s).queued = s.queued := by
  unfold putMember
  split <;> simp only [apply_ite State.queued, ite_self, queued_queueReady, queued_modSet, queued_setMember]

theorem queued_openRow {set : Nat} {s : State} {a y} (e : openRow set s = some (a, y)) : y.queued = s.queued := by
  unfold openRow at e
  dsimp only at e
  repeat' split at e
  all_goals simp only [Option.some.injEq, Prod.mk.injEq, reduceCtorEq, Option.map_eq_some_iff] at e
  · obtain ⟨o, -, -, rfl⟩ := e
    next h => simp only [queued_mk, queued_back, queued_jAppendAll, queued_modSet, queued_openGroup h]
  · obtain ⟨-, rfl⟩ := e
    rfl
  · obtain ⟨o, -, -, rfl⟩ := e
    simp only [queued_mk, queued_back, queued_modSet]
  · obtain ⟨o, -, -, rfl⟩ := e
    next h => simp only [queued_mk, queued_back, queued_jAppendAll, queued_modSet, queued_openGroup h]

theorem queued_encodeTile (set : Nat) (own : MemOf) (lta hid seq keyidx : Nat) (data plain : List Byte) (s : State) : (encodeTile set own lta hid seq keyidx data plain s).2.queued = s.queued := by
  unfold encodeTile
  split
  · rfl
  · next e =>
    split
    · exact queued_openRow e
    · split <;> simp only [queued_putMember, queued_openRow e]

theorem queued_abandonRow (id : Nat) (s : State) : (abandonRow id s).queued = s.queued := by
  unfold abandonRow
  split <;> simp only [implies_true, queued_foldl, queued_dropRow, queued_memberBack, queued_modLun]

theorem queued_retirePend (g : Page) (s : State) : (retirePend g s).queued = s.queued := by
  simp only [retirePend, queued_putUnit]

theorem queued_dataUnitFailed (id pos : Nat) (s : State) : (dataUnitFailed id pos s).queued = s.queued := by
  unfold dataUnitFailed
  split
  · rfl
  · simp only [queued_parityDone, queued_modRow]
    refine queued_foldl fun t i => ?_
    split
    · rfl
    · simp only [implies_true, queued_modRow, queued_foldl, queued_memberBack]

theorem answered_execDestageStart (slot : Nat) (s : State) : Answered s.queued (execDestageStart slot s) := by
  unfold execDestageStart
  repeat' split
  all_goals simp only [answered_next, answered_onlyIf, queued_nextPort, queued_modSet, queued_queueJob, queued_notePressure]

theorem queued_leaveQueue (slot : Nat) (s : State) : (leaveQueue slot s).2.queued = s.queued := by
  unfold leaveQueue
  split <;> simp only [queued_modSet]

theorem queued_destageRead (slot : Nat) (plain : List Byte) (s : State) : (destageRead slot plain s).queued = s.queued := by
  simp only [destageRead]
  repeat' split
  all_goals simp only [queued_encodeTile, queued_modPan, queued_writeDesc, queued_leaveQueue]

theorem answered_execProgramTokenGrant (set : Nat) (s : State) : Answered s.queued (execProgramTokenGrant set s) := by
  simp only [execProgramTokenGrant]
  repeat' split
  all_goals simp only [answered_next, answered_onlyIf, queued_modSet]

theorem queued_padRow (id x0 : Nat) (x1 : State) : (padRow id x0 x1).queued = x1.queued := by
  induction x0 generalizing x1 with
  | zero => rfl
  | succ n ih =>
    unfold padRow
    repeat' split
    all_goals simp only [ih, queued_putMember]

theorem answered_execPadRow (set : Nat) (s : State) : Answered s.queued (execPadRow set s) := by
  unfold execPadRow
  dsimp only
  split
  · exact answered_next rfl
  · split
    · exact answered_next rfl
    · next e => simp only [answered_onlyIf, queued_padRow, queued_openRow e]

theorem queued_openJournal {k : Nat} {s : State} {a y} (e : openJournal k s = some (a, y)) : y.queued = s.queued := by
  unfold openJournal at e
  repeat' split at e
  all_goals simp only [Option.some.injEq, Prod.mk.injEq, reduceCtorEq] at e
  all_goals obtain ⟨-, rfl⟩ := e
  all_goals simp only [queued_setStream, queued_openGroup ‹_›]

theorem queued_advancePos (k : Nat) (s : State) : (advancePos k s).queued = s.queued := by
  simp only [advancePos]
  repeat' split
  all_goals simp only [queued_setStream, queued_queueUnit]

theorem queued_journalMembers (k jseq id pos : Nat) (recs : List JRec) (s : State) : (journalMembers k jseq id pos recs s).queued = s.queued := by
  simp only [journalMembers, implies_true, queued_foldl, queued_setMember]

theorem queued_journalRow {id : Nat} {s : State} {y} (e : journalRow id s = some y) : y.queued = s.queued := by
  unfold journalRow at e
  split at e
  · cases e; rfl
  · obtain ⟨o, -, rfl⟩ := Option.map_eq_some_iff.mp e
    simp only [queued_mk, queued_back]

theorem queued_programPage {k jseq : Nat} {recs : List JRec} {x0 : Nat} {x1 : State} {y} (e : programPage k jseq recs x0 x1 = some y) : y.queued = x1.queued := by
  induction x0 generalizing x1 with
  | zero => simp only [programPage, reduceCtorEq] at e
  | succ n ih =>
    unfold programPage at e
    dsimp only at e
    split at e
    · simp only [reduceCtorEq] at e
    · split at e
      · simp only [reduceCtorEq] at e
      · next h =>
        split at e
        · simpa only [queued_advancePos, queued_modRow, queued_journalRow h] using ih e
        · split at e
          · split at e
            · simp only [reduceCtorEq] at e
            · obtain rfl := Option.some.inj e
              simp only [queued_enqueue, queued_setStream, queued_journalMembers, queued_journalRow h]
          · simp only [reduceCtorEq] at e

theorem queued_withGroup {k : Nat} {s : State} {y} (e : withGroup k s = some y) : y.queued = s.queued := by
  unfold withGroup at e
  split at e
  · cases e; rfl
  · obtain ⟨⟨g, u⟩, h, rfl⟩ := Option.map_eq_some_iff.mp e
    simp only [queued_setStream, queued_openJournal h]

theorem queued_lastPage {k : Nat} {s : State} {a y} (e : lastPage k s = some (a, y)) : y.queued = s.queued := by
  unfold lastPage at e
  dsimp only at e
  split at e
  · simp only [reduceCtorEq] at e
  · split at e
    · obtain ⟨⟨g, u⟩, h, hy⟩ := Option.map_eq_some_iff.mp e
      cases hy
      simp only [queued_setStream, queued_openJournal h]
    · cases e; rfl

theorem queued_streamProgram {k : Nat} {s : State} {y} (e : streamProgram k s = some y) : y.queued = s.queued := by
  obtain ⟨t, ht, e⟩ := Option.bind_eq_some_iff.mp e
  obtain ⟨⟨l, u⟩, hu, e⟩ := Option.bind_eq_some_iff.mp e
  simpa only [queued_setStream, queued_lastPage hu, queued_withGroup ht] using queued_programPage e

theorem queued_programmed {k j n : Nat} {recs : List JRec} {s t : State} (e : (withGroup k s).bind (programPage k j recs n) = some t) : t.queued = s.queued := by
  obtain ⟨u, hu, e⟩ := Option.bind_eq_some_iff.mp e
  exact (queued_programPage e).trans (queued_withGroup hu)

theorem answered_execJournalPageProgram (k : Nat) (s : State) : Answered s.queued (execJournalPageProgram k s) := by
  unfold execJournalPageProgram
  dsimp only
  split
  · split
    · next e => exact answered_onlyIf (queued_programmed e)
    · exact answered_next rfl
  · split
    · exact answered_next rfl
    · next e => exact answered_onlyIf (queued_streamProgram e)

theorem queued_rewritePage (k : Nat) (s : State) : (rewritePage k s).queued = s.queued := by
  unfold rewritePage
  split
  · rfl
  · dsimp only
    split
    · next e => exact (queued_programmed e).trans (queued_advancePos ..)
    · simp only [queued_setStream, queued_advancePos]

theorem queued_queueSeal (k : Nat) (s : State) : (queueSeal k s).queued = s.queued := by
  simp only [queueSeal]
  repeat' split
  all_goals simp only [queued_modRow, queued_setStream, queued_enqueue]

theorem queued_queuePqSeal (id pos : Nat) (s : State) : (queuePqSeal id pos s).queued = s.queued := by
  unfold queuePqSeal
  split <;> simp only [queued_enqueue]

theorem queued_releaseGroup (set g : Nat) (s : State) : (releaseGroup set g s).queued = s.queued := by
  unfold releaseGroup
  split <;> simp only [implies_true, queued_mk, queued_back, queued_foldl, queued_putUnit]

theorem queued_recSealed (r : JRec) (s : State) : (recSealed r s).queued = s.queued := by
  simp only [recSealed, implies_true, apply_ite State.queued, ite_self, queued_foldl, queued_modRq, queued_modPan, queued_reached, queued_mediaCheck, queued_releaseGroup, queued_requestCheck, queued_raiseTiles]

theorem queued_sealPassed (k : Nat) (s : State) : (sealPassed k s).queued = s.queued := by
  simp only [sealPassed]
  repeat' split
  all_goals simp only [implies_true, queued_mk, queued_back, queued_foldl, queued_setStream, queued_advancePos, queued_recSealed]

theorem queued_modCkpt (s : State) (f : Ckpt → Ckpt) : (State.modCkpt s f).queued = s.queued := by
  simp only [State.modCkpt, queued_mk, queued_back]

theorem queued_tileForCkpt (mt : Nat) (dram : List Byte) (s : State) : (tileForCkpt mt dram s).queued = s.queued := by
  simp only [tileForCkpt]
  repeat' split
  all_goals simp only [queued_modDir, queued_encodeTile, queued_nextSeq]

theorem queued_queueErase (x : Nat) (s : State) : (queueErase x s).queued = s.queued := by
  simp only [queueErase, queued_enqueue]

theorem queued_eraseArea (area : Nat) (s : State) : (eraseArea area s).queued = s.queued := by
  simp only [eraseArea, implies_true, queued_foldl, queued_modUnit, queued_queueErase, queued_modCkpt]

theorem queued_areaRow {area set : Nat} {ri : Nat × Nat} {s : State} {a y} (e : areaRow area set ri s = some (a, y)) : y.queued = s.queued := by
  unfold areaRow at e
  dsimp only at e
  split at e
  · cases e; rfl
  · obtain ⟨o, -, hy⟩ := Option.map_eq_some_iff.mp e
    cases hy
    simp only [queued_mk, queued_back, queued_setGrp]

theorem queued_placeTiles (x0 : Nat) (x1 : State) : (placeTiles x0 x1).queued = x1.queued := by
  induction x0 generalizing x1 with
  | zero => rfl
  | succ n ih =>
    unfold placeTiles
    split
    · rfl
    · dsimp only
      split
      · rfl
      · split
        · simp only [implies_true, queued_foldl, queued_padRow]
        · split
          · rfl
          · split
            · rfl
            · next e => simp only [ih, queued_putMember, queued_modCkpt, queued_areaRow e]

theorem queued_ckptAdvance (s : State) : (ckptAdvance s).queued = s.queued := by
  unfold ckptAdvance
  split <;> simp only [apply_ite State.queued, ite_self, queued_placeTiles, queued_readTiles, queued_modCkpt, queued_eraseArea]

theorem queued_beginCkpt (s : State) : (beginCkpt s).queued = s.queued := by
  simp only [beginCkpt, queued_mk, queued_back, queued_putFlag, queued_ckptAdvance]

theorem answered_execCheckpointStart (s : State) : Answered s.queued (execCheckpointStart s) := by
  unfold execCheckpointStart
  split <;> simp only [apply_ite State.queued, ite_self, answered_onlyIf, queued_putFlag, queued_ckptAdvance, queued_logPacked, queued_beginCkpt]

theorem queued_queueHeader (c : Ckpt) (set slot k : Nat) (s : State) : (queueHeader c set slot k s).queued = s.queued := by
  simp only [queueHeader, queued_enqueue]

theorem answered_execCheckpointCommit (s : State) : Answered s.queued (execCheckpointCommit s) := by
  unfold execCheckpointCommit
  split <;> simp only [implies_true, answered_next, answered_onlyIf, queued_foldl, queued_queueHeader, queued_modCkpt]

theorem queued_queueCommit (k : Nat) (s : State) : (queueCommit k s).queued = s.queued := by
  unfold queueCommit
  split <;> simp only [apply_ite State.queued, ite_self, queued_enqueue]

theorem queued_streamCkpt (k ptr : Nat) (s : State) : (streamCkpt k ptr s).queued = s.queued := by
  simp only [streamCkpt, implies_true, queued_foldl, queued_setStream, queued_releaseGroup]

theorem queued_formatEnd (s : State) : (formatEnd s).queued = s.queued := by
  simp only [formatEnd, queued_mk, queued_back, apply_ite State.queued, ite_self, queued_putFlag, queued_logPacked]

theorem queued_ckptDone (c : Ckpt) (s : State) : (ckptDone c s).queued = s.queued := by
  simp only [ckptDone, implies_true, queued_mk, queued_back, queued_foldl, queued_putUnit, queued_putFlag, queued_put, queued_streamCkpt, queued_formatEnd]

theorem queued_headDone (k : Nat) (s : State) : (headDone k s).queued = s.queued := by
  unfold headDone
  split <;> simp only [queued_mk, queued_back, apply_ite State.queued, ite_self, queued_ckptDone]

theorem queued_areaFailed (x : Nat) (s : State) : (areaFailed x s).queued = s.queued := by
  simp only [areaFailed]
  repeat' split
  all_goals simp only [implies_true, queued_mk, queued_back, queued_foldl, queued_putUnit, queued_abandonRow, queued_putFlag, queued_ckptAdvance, queued_modCkpt, queued_logPacked]

end Sys2Proof.Machine
end


section
/-! SUPPORT. Reclaim, the rake, lost LUNs and the hold-up flush leave the part and the queue as they are. -/

namespace Sys2Proof.Machine

theorem queued_modReloc (s : State) (n : Nat) (f : Reloc → Reloc) : (State.modReloc s n f).queued = s.queued := by
  simp only [State.modReloc, queued_mk, queued_back]

theorem queued_dropReloc (s : State) (n : Nat) : (State.dropReloc s n).queued = s.queued := by
  simp only [State.dropReloc, queued_mk, queued_back]

theorem queued_relocJob (n : Nat) (prog : List (BitVec 128)) (data : List Byte) (s : State) : (relocJob n prog data s).queued = s.queued := by
  simp only [relocJob, queued_nextPort, queued_queueJob]

theorem queued_relocRead (n : Nat) (raw : List Byte) (s : State) : (relocRead n raw s).queued = s.queued := by
  unfold relocRead
  split <;> simp only [apply_ite State.queued, ite_self, queued_dropReloc, queued_relocJob, queued_modReloc]

theorem queued_relocDestage (n : Nat) (s : State) : (relocDestage n s).queued = s.queued := by
  unfold relocDestage
  split <;> simp only [apply_ite State.queued, ite_self, queued_dropReloc, queued_relocJob, queued_modReloc]

theorem queued_relocJobDone (n : Nat) (buf : List Byte) (s : State) : (relocJobDone n buf s).queued = s.queued := by
  simp only [relocJobDone]
  repeat' split
  all_goals simp only [queued_encodeTile, queued_dropReloc, queued_relocDestage, queued_nextSeq, queued_modReloc]

theorem queued_relocFault (n : Nat) (s : State) : (relocFault n s).queued = s.queued := by
  simp only [relocFault, queued_dropReloc]

theorem answered_execRelocation (lta e : Nat) (s : State) : Answered s.queued (execRelocation lta e s) := by
  simp only [execRelocation]
  repeat' split
  all_goals simp only [queued_mk, queued_back, answered_onlyIf, queued_startRd, queued_relocDestage]

theorem queued_retireUnit (x : Nat) (s : State) : (retireUnit x s).queued = s.queued := by
  simp only [retireUnit, queued_mk, queued_back, apply_ite State.queued, ite_self, queued_putUnit, queued_jAppend, queued_inc]

theorem queued_noteWear (x : Nat) (s : State) : (noteWear x s).queued = s.queued := by
  simp only [noteWear, queued_mk, queued_back]

theorem queued_ledgerErased (x : Nat) (s : State) : (ledgerErased x s).queued = s.queued := by
  simp only [ledgerErased, queued_mk, queued_back]

theorem queued_eraseDone (x : Nat) (s : State) : (eraseDone x s).queued = s.queued := by
  simp only [eraseDone, implies_true, apply_ite State.queued, ite_self, queued_foldl, queued_gaugeSeed, queued_putUnit, queued_ledgerErased, queued_fillReserve, queued_ckptAdvance, queued_jAppend, queued_inc, queued_modCkpt]

theorem queued_erasePassed (x : Nat) (s : State) : (erasePassed x s).queued = s.queued := by
  simp only [erasePassed, queued_eraseDone, queued_noteWear]

theorem queued_journalRefit (x : Nat) (s : State) : (journalRefit x s).queued = s.queued := by
  simp only [journalRefit]
  repeat' split
  all_goals simp only [queued_retireUnit, queued_putUnit, queued_putGrp, queued_queueErase]

theorem queued_eraseFailed (x : Nat) (s : State) : (eraseFailed x s).queued = s.queued := by
  simp only [eraseFailed, apply_ite State.queued, ite_self, queued_retireUnit, queued_areaFailed, queued_journalRefit]

theorem queued_freeVictim (set g : Nat) (s : State) : (freeVictim set g s).queued = s.queued := by
  unfold freeVictim
  split <;> simp only [implies_true, queued_mk, queued_back, apply_ite State.queued, ite_self, queued_foldl, queued_retireUnit, queued_putUnit]

theorem queued_emptyDrained (set : Nat) (s : State) : (emptyDrained set s).queued = s.queued := by
  simp only [emptyDrained, queued_mk, queued_back, apply_ite State.queued, ite_self, queued_modSet]

theorem answered_execReclaim (set : Nat) (s : State) : Answered s.queued (execReclaim set s) := by
  refine answered_onlyIf ?_
  dsimp only
  split
  · refine (queued_foldl fun t k => ?_).trans (queued_fillReserve ..)
    split <;> simp only [queued_queueErase]
  · repeat' split
    all_goals simp only [queued_mk, queued_back, queued_emptyDrained, queued_freeVictim, queued_fillReserve]

theorem answered_execRakePatrol (s : State) : Answered s.queued (execRakePatrol s) := by
  refine answered_onlyIf ?_
  simp only [implies_true, queued_mk, queued_back, queued_foldl, apply_ite State.queued, ite_self, queued_startRd, queued_putUnit]

theorem answered_execRakeRefresh (s : State) : Answered s.queued (execRakeRefresh s) := by
  unfold execRakeRefresh
  repeat' split
  all_goals simp only [queued_mk, queued_back, answered_next, answered_onlyIf, queued_putUnit, queued_inc]

theorem answered_execHotWindow (s : State) : Answered s.queued (execHotWindow s) := by
  simp only [execHotWindow, implies_true, queued_mk, queued_back, answered_onlyIf, queued_foldl, queued_modLun]

theorem queued_markLost (set slot : Nat) (s : State) : (markLost set slot s).queued = s.queued := by
  refine (queued_modSet ..).trans (queued_foldl fun t g => ?_)
  split <;> simp only [apply_ite State.queued, ite_self, queued_putGrp, queued_setGrp]

theorem queued_toStep18 (id : Nat) (s : State) : (toStep18 id s).queued = s.queued := by
  unfold toStep18
  repeat' split
  all_goals simp only [queued_stepRecon, queued_modRd]

theorem queued_wantLost (s : State) (w : Want) : (wantLost s w).queued = s.queued := by
  unfold wantLost
  repeat' split
  all_goals simp only [queued_mk, queued_back, queued_modRq, queued_toStep18, queued_requestCheck, queued_modCkpt, queued_unitPassed, queued_headDone, queued_rewritePage]

theorem queued_modRebuild (s : State) (f : Rebuild → Rebuild) : (State.modRebuild s f).queued = s.queued := by
  simp only [State.modRebuild, queued_mk, queued_back]

theorem queued_rebuildRow (s : State) : (rebuildRow s).queued = s.queued := by
  unfold rebuildRow
  repeat' split
  all_goals simp only [implies_true, queued_foldl, queued_startRecon, queued_modRebuild, queued_addRd]

theorem queued_rebuildGo (s : State) : (rebuildGo s).queued = s.queued := by
  unfold rebuildGo
  repeat' split
  all_goals simp only [queued_mk, queued_back, queued_putUnit, queued_rebuildRow]

theorem queued_rebuildEnd (x0 : Nat) (x1 : State) : (rebuildEnd x0 x1).queued = x1.queued := by
  induction x0 generalizing x1 with
  | zero => rfl
  | succ n ih =>
    unfold rebuildEnd
    dsimp only
    repeat' split
    all_goals simp only [queued_mk, queued_back, ih, queued_put, queued_budget, queued_modSet, queued_rebuildGo]

theorem queued_nextRebuild (s : State) : (nextRebuild s).queued = s.queued := by
  unfold nextRebuild
  split <;> simp only [queued_mk, queued_back, apply_ite State.queued, ite_self, queued_put, queued_rebuildEnd]

theorem queued_replaceLun (set slot : Nat) (s : State) : (replaceLun set slot s).queued = s.queued := by
  unfold replaceLun
  split
  · simp only [queued_mk, queued_back, queued_nextRebuild, queued_jAppend, queued_modSet]
  · split
    · rfl
    · refine (queued_jAppend ..).trans ((queued_foldl fun t g => ?_).trans (queued_modSet ..))
      split <;> simp only [apply_ite State.queued, ite_self, queued_putGrp]

theorem queued_lunLost (k : Nat) (s : State) : (lunLost k s).queued = s.queued := by
  simp only [lunLost]
  repeat' split
  all_goals simp only [implies_true, queued_mk, queued_back, queued_foldl, queued_wantLost, queued_replaceLun, queued_modSet, queued_jAppend, queued_markLost, queued_modLun, queued_budget]

theorem answered_execLunOffline (s : State) : Answered s.queued (execLunOffline s) := by
  unfold execLunOffline
  split <;> simp only [answered_next, answered_onlyIf, queued_lunLost]

theorem queued_rebuiltRow (s : State) : (rebuiltRow s).queued = s.queued := by
  simp only [rebuiltRow, queued_rebuildRow, queued_modRebuild]

theorem queued_memberRebuilt (q : Nat) (raw : Option (List Byte)) (s : State) : (memberRebuilt q raw s).queued = s.queued := by
  unfold memberRebuilt
  repeat' split
  all_goals simp only [apply_ite State.queued, ite_self, queued_enqueue, queued_modRebuild]

theorem queued_rebuiltEnded (w0 : Want) (pass : Bool) (s : State) : (rebuiltEnded w0 pass s).queued = s.queued := by
  unfold rebuiltEnded
  repeat' split
  all_goals simp only [queued_mk, queued_back, queued_retireUnit, queued_rebuildGo, queued_enqueue, queued_rebuildEnd, queued_rebuiltRow]

theorem queued_rebuiltTile (k : Nat) (w : Rebuild) (slc : Bool) (s : State) (e : Nat × Nat × Nat × Nat) : (rebuiltTile k w slc s e).queued = s.queued := by
  simp only [rebuiltTile, queued_mapUpdate]

theorem answered_execRebuildGroupDone (s : State) : Answered s.queued (execRebuildGroupDone s) := by
  unfold execRebuildGroupDone
  repeat' split
  all_goals simp only [implies_true, queued_mk, queued_back, answered_next, answered_onlyIf, queued_foldl, queued_rebuiltTile, queued_putUnit, queued_putGrp, queued_jAppend, queued_inc, queued_rebuildEnd]

theorem queued_settleRd (id : Nat) (s : State) : (settleRd id s).queued = s.queued := by
  unfold settleRd
  repeat' split
  all_goals simp only [queued_dropRd, queued_dropReloc, queued_tileOutcome, queued_repairTile, queued_memberRebuilt, queued_tileLoaded, queued_tileRead, queued_probed, queued_modTwin, queued_relocRead]

theorem queued_settleRds (s : State) : (settleRds s).queued = s.queued := by
  simp only [settleRds, implies_true, queued_foldl, queued_settleRd]

theorem queued_gaugeGo (key : Nat) (s : State) : (gaugeGo key s).queued = s.queued := by
  refine queued_foldl fun t e => ?_
  split <;> simp only [queued_placePlain, queued_place]

theorem queued_gaugeFetched (key : Nat) (code : RCode) (data : List Byte) (s : State) : (gaugeFetched key code data s).queued = s.queued := by
  unfold gaugeFetched
  repeat' split
  all_goals simp only [queued_gaugeGo, queued_gaugeFill, queued_inc, queued_dramWrite, queued_settleRds]

theorem answered_execGaugeLineFetchDone (key : Nat) (code : RCode) (data : List Byte) (s : State) : Answered s.queued (execGaugeLineFetchDone key code data s) := by
  unfold execGaugeLineFetchDone
  split
  · simp only [answered_next]
  · next e => simp only [answered_onlyIf, queued_dramSeen, queued_gaugeFetched, queued_codeTaken, queued_releaseHeld, queued_takeOutst e]

theorem queued_marginResult (rtag k : Nat) (plus : Bool) (cbc : Nat) (s : State) : (marginResult rtag k plus cbc s).queued = s.queued := by
  simp only [marginResult, queued_modRq, queued_requestCheck]

theorem queued_sampleDone (k : Nat) (g : Page) (cw : Nat) (s : State) : (sampleDone k g cw s).queued = s.queued := by
  simp only [sampleDone, queued_mk, queued_back]

theorem queued_grantHard (s : State) (u : Nat) : (grantHard s u).queued = s.queued := by
  unfold grantHard
  repeat' split
  all_goals simp only [queued_mk, queued_back]

theorem queued_grantSoft (s : State) (u : Nat) : (grantSoft s u).queued = s.queued := by
  simp only [grantSoft, apply_ite State.queued]
  repeat' split
  all_goals simp only [queued_mk, queued_back]

theorem queued_freeUnused (s : State) : (freeUnused s).queued = s.queued := by
  simp only [freeUnused, queued_mk, queued_back]

theorem queued_grantUnits (s : State) : (grantUnits s).queued = s.queued := by
  simp only [grantUnits, implies_true, apply_ite State.queued, ite_self, queued_foldl, queued_freeUnused, queued_grantHard, queued_grantSoft]

theorem queued_freeBuf (c slot : Nat) (s : State) : (freeBuf c slot s).queued = s.queued := by
  simp only [freeBuf, queued_setChan]

theorem queued_putBuf (c slot : Nat) (b : BufSlot) (s : State) : (putBuf c slot b s).queued = s.queued := by
  simp only [putBuf, queued_setChan]

theorem queued_codewordErased (b : BufSlot) (s : State) : (codewordErased b s).queued = s.queued := by
  simp only [codewordErased]
  repeat' split
  all_goals simp only [queued_marginResult, queued_sampleDone, queued_inc, queued_modRd, queued_endRd]

theorem queued_softLanded (id slot : Nat) (plus : Bool) (s : State) : (softLanded id slot plus s).queued = s.queued := by
  simp only [softLanded, queued_modRd]

theorem answered_execCodewordReady (c slot : Nat) (s : State) : Answered s.queued (execCodewordReady c slot s) := by
  unfold execCodewordReady
  repeat' split
  all_goals simp only [apply_ite State.queued, ite_self, answered_next, answered_onlyIf, queued_grantUnits, queued_putBuf, queued_freeBuf, queued_freeUnused, queued_softLanded, queued_codewordErased, queued_settleRds]

theorem queued_refreshAfter (g : Page) (cbc step : Nat) (s : State) : (refreshAfter g cbc step s).queued = s.queued := by
  simp only [refreshAfter, apply_ite State.queued, ite_self, queued_refreshReq]

theorem queued_firstFailed (id c slot : Nat) (b : BufSlot) (s : State) : (firstFailed id c slot b s).queued = s.queued := by
  simp only [firstFailed, queued_putBuf, queued_decodeFailed, queued_inc, queued_modRd]

theorem queued_stepFailed (id c slot : Nat) (b : BufSlot) (s : State) : (stepFailed id c slot b s).queued = s.queued := by
  simp only [stepFailed, apply_ite State.queued, ite_self, queued_decodeFailed, queued_freeBuf, queued_firstFailed]

theorem queued_recovered (step : Nat) (ref : BufSlot) (cbc : Nat) (cw : List Byte) (s : State) : (recovered step ref cbc cw s).queued = s.queued := by
  simp only [recovered, apply_ite State.queued, ite_self, queued_gaugeLearn, queued_gaugeMove, queued_inc, queued_refreshAfter]

theorem queued_tileChecked (id step : Nat) (r : Rd) (ref : BufSlot) (info : List Byte) (failed : State → State) (s : State) (h_failed : ∀ (y0 : State), (failed y0).queued = y0.queued) : (tileChecked id step r ref info failed s).queued = s.queued := by
  unfold tileChecked
  split <;> simp only [apply_ite State.queued, ite_self, h_failed, queued_recovered, queued_inc, queued_refreshAfter, queued_logPacked, queued_endRd]

theorem queued_partnerDecoded (id c slot : Nat) (b : BufSlot) (info : List Byte) (s : State) : (partnerDecoded id c slot b info s).queued = s.queued := by
  simp only [partnerDecoded, apply_ite State.queued, ite_self, queued_freeBuf, queued_gaugeMove, queued_inc, queued_modRd, queued_refreshAfter]

theorem queued_sampleDecoded (k : Nat) (b : BufSlot) (info : Option (List Byte)) (s : State) : (sampleDecoded k b info s).queued = s.queued := by
  simp only [sampleDecoded, queued_sampleDone]
  repeat' split
  all_goals simp only [queued_gaugeLearn, queued_refreshReq, queued_inc, queued_refreshAfter]

theorem queued_hardDecoded (c slot : Nat) (b : BufSlot) (dec : Option (List Byte)) (s : State) : (hardDecoded c slot b dec s).queued = s.queued := by
  unfold hardDecoded
  repeat' split
  all_goals simp only [implies_true, apply_ite State.queued, ite_self, queued_sampleDecoded, queued_marginResult, queued_putBuf, queued_decodeFailed, queued_freeBuf, queued_stepFailed, queued_tileChecked, queued_inc, queued_modRd, queued_partnerDecoded]

theorem answered_execHardDecodeDone (c slot u : Nat) (dec : Option (List Byte)) (s : State) : Answered s.queued (execHardDecodeDone c slot u dec s) := by
  unfold execHardDecodeDone
  split <;> simp only [answered_next, answered_onlyIf, queued_hardDecoded, queued_grantUnits, queued_settleRds]

theorem answered_execSoftDecodeDone (id u : Nat) (dec : Option (List Byte)) (s : State) : Answered s.queued (execSoftDecodeDone id u dec s) := by
  unfold execSoftDecodeDone
  repeat' split
  all_goals simp only [implies_true, answered_next, answered_onlyIf, queued_grantUnits, queued_setChan, queued_refreshReq, queued_tileChecked, queued_inc, queued_endLadder, queued_settleRds, queued_modRd]

theorem queued_softGone (s : State) : (softGone s).queued = s.queued := by
  simp only [softGone, implies_true, apply_ite State.queued, ite_self, queued_foldl, queued_endLadder]

theorem answered_execCrystallizerMemoryError (soft : Bool) (u : Nat) (s : State) : Answered s.queued (execCrystallizerMemoryError soft u s) := by
  simp only [execCrystallizerMemoryError, apply_ite State.queued, ite_self, answered_onlyIf, queued_grantUnits, queued_setBit, queued_bank, queued_contained, queued_softGone, queued_settleRds, queued_logPacked]

theorem answered_execPartnerReadDone (pid : Nat) (s : State) : Answered s.queued (execPartnerReadDone pid s) := by
  unfold execPartnerReadDone
  split <;> simp only [answered_next, answered_onlyIf, queued_partnerResult, queued_settleRds]

theorem answered_execClass0Deadline (rtag : Nat) (s : State) : Answered s.queued (execClass0Deadline rtag s) := by
  unfold execClass0Deadline
  split <;> simp only [answered_next, answered_onlyIf, queued_setRq, queued_oweEntry, queued_inc]

theorem answered_execCommitLate (rtag : Nat) (s : State) : Answered s.queued (execCommitLate rtag s) := by
  unfold execCommitLate
  split <;> simp only [answered_next, answered_onlyIf, queued_setRq, queued_oweEntry, queued_inc]

theorem answered_execClass0BucketRefill (s : State) : Answered s.queued (execClass0BucketRefill s) := by
  simp only [execClass0BucketRefill, queued_mk, queued_back, answered_onlyIf]

theorem queued_retryAround (s : State) : (retryAround s).queued = s.queued := by
  refine queued_foldl fun t id => ?_
  split
  · split <;> simp only [queued_tryAround]
  · rfl

theorem answered_execRaBucketRefill (s : State) : Answered s.queued (execRaBucketRefill s) := by
  simp only [execRaBucketRefill, queued_mk, queued_back, answered_onlyIf, queued_retryAround]

theorem queued_scanMir (l : List (Nat × List Byte)) (s : State) : (scanMir l s).queued = s.queued := by
  simp only [scanMir, implies_true, queued_mk, queued_back, apply_ite State.queued, ite_self, queued_foldl, queued_logPacked, queued_budget]

theorem queued_openFlushRow (id : Nat) (s : State) : (openFlushRow id s).queued = s.queued := by
  unfold openFlushRow
  repeat' split
  all_goals simp only [queued_mk, queued_back, queued_setGrp]

theorem queued_planTile (s : State) (n : Nat) (t : Bool × Nat) : (planTile s n t).queued = s.queued := by
  simp only [planTile]
  repeat' split
  all_goals simp only [queued_mk, queued_back, queued_nextPort, queued_queueJob, queued_openFlushRow]

theorem queued_padFlush (s : State) : (padFlush s).queued = s.queued := by
  simp only [padFlush, implies_true, apply_ite State.queued, ite_self, queued_foldl, queued_putMember]

theorem answered_execFlushStart (mirs : List (Nat × List Byte)) (s : State) : Answered s.queued (execFlushStart mirs s) := by
  simp only [execFlushStart, implies_true, answered_onlyIf, queued_foldl, queued_planTile, queued_padFlush, queued_scanMir]

theorem queued_takePlan (mirror : Bool) (slot : Nat) (s : State) : (takePlan mirror slot s).2.queued = s.queued := by
  unfold takePlan
  split <;> simp only [queued_mk, queued_back]

theorem queued_flushMember (pl : Nat × Nat × Nat) (m : Option Member) (s : State) : (flushMember pl m s).queued = s.queued := by
  simp only [flushMember, queued_putMember]

theorem queued_flushBad (mirror : Bool) (slot : Nat) (pl : Nat × Nat × Nat) (s : State) : (flushBad mirror slot pl s).queued = s.queued := by
  simp only [flushBad, queued_logPacked, queued_flushMember]

theorem queued_flushOwn (slot : Nat) (data : List Byte) (s : State) : (flushOwn slot data s).queued = s.queued := by
  simp only [flushOwn]
  repeat' split
  all_goals simp only [queued_takePlan, queued_flushBad, queued_flushMember]

theorem queued_flushMir (slot : Nat) (data : List Byte) (s : State) : (flushMir slot data s).queued = s.queued := by
  simp only [flushMir]
  repeat' split
  all_goals simp only [queued_takePlan, queued_flushBad, queued_flushMember]

theorem queued_flushUnit (id pos : Nat) (pass : Bool) (page : Page) (s : State) : (flushUnit id pos pass page s).queued = s.queued := by
  unfold flushUnit
  split <;> simp only [queued_mk, queued_back, apply_ite State.queued, ite_self, queued_modRow, queued_retirePend]

theorem queued_dropPage0 (used : Bool) (s : State) : (dropPage0 used s).queued = s.queued := by
  unfold dropPage0
  split <;> simp only [apply_ite State.queued, ite_self, queued_setStream, queued_advancePos]

theorem answered_execFlushComplete (s : State) : Answered s.queued (execFlushComplete s) := by
  unfold execFlushComplete
  dsimp only
  split
  · split
    · split
      · split
        · next e => exact answered_onlyIf (queued_streamProgram e)
        · exact answered_next rfl
      · exact answered_next rfl
    · refine answered_onlyIf ?_
      simp only [queued_mk, queued_back, queued_putFlag]
  · split
    · next e => simp only [answered_onlyIf, queued_streamProgram e, queued_jAppend, queued_mk, queued_back]
    · exact answered_next rfl

theorem queued_countPfail (k : Nat) (s : State) : (countPfail k s).queued = s.queued := by
  simp only [countPfail, queued_inc]

theorem queued_countEfail (k : Nat) (s : State) : (countEfail k s).queued = s.queued := by
  simp only [countEfail, queued_inc]

theorem queued_rowUnitEnded (id pos : Nat) (pass : Bool) (g : Page) (s : State) : (rowUnitEnded id pos pass g s).queued = s.queued := by
  simp only [rowUnitEnded, apply_ite State.queued, ite_self, queued_areaFailed, queued_abandonRow, queued_dataUnitFailed, queued_ckptAdvance, queued_queuePqSeal, queued_retirePend, queued_unitPassed]

theorem queued_jpageEnded (k : Nat) (pass : Bool) (g : Page) (s : State) : (jpageEnded k pass g s).queued = s.queued := by
  simp only [jpageEnded, apply_ite State.queued, ite_self, queued_queueSeal, queued_retirePend, queued_dropPage0, queued_rewritePage]

theorem queued_jsealEnded (k : Nat) (pass : Bool) (s : State) : (jsealEnded k pass s).queued = s.queued := by
  simp only [jsealEnded, apply_ite State.queued, ite_self, queued_sealPassed, queued_dropPage0, queued_rewritePage]

theorem queued_headFailed (k : Nat) (g : Page) (s : State) : (headFailed k g s).queued = s.queued := by
  simp only [headFailed, queued_areaFailed, queued_headDone]

theorem queued_readMissed (timeout : Bool) (w : Want) (s : State) : (readMissed timeout w s).queued = s.queued := by
  unfold readMissed
  repeat' split
  all_goals simp only [queued_marginResult, queued_decodeFailed, queued_sampleDone, queued_toStep18, queued_endLadder]

theorem queued_wantEnded (pass : Bool) (s : State) (w : Want) : (wantEnded pass s w).queued = s.queued := by
  unfold wantEnded
  split <;> simp only [queued_mk, queued_back, apply_ite State.queued, ite_self, queued_jpageEnded, queued_rebuiltEnded, queued_jsealEnded, queued_flushUnit, queued_eraseFailed, queued_erasePassed, queued_headFailed, queued_rowUnitEnded, queued_queueCommit, queued_headDone]

theorem queued_lunOpEnded (e : Ended) (s : State) (w : Want) : (lunOpEnded e s w).queued = s.queued := by
  unfold lunOpEnded
  split <;> simp only [queued_mk, queued_back]

theorem queued_eraseEnd (k : Nat) (s : State) : (eraseEnd k s).queued = s.queued := by
  simp only [eraseEnd, queued_modLun]

theorem queued_giveBack (k : Nat) (ws : List Want) (s : State) : (giveBack k ws s).queued = s.queued := by
  simp only [giveBack, implies_true, apply_ite State.queued, ite_self, queued_foldl, queued_wantLost, queued_modLun]

theorem queued_freeToken (k : Nat) (s : State) : (freeToken k s).queued = s.queued := by
  unfold freeToken
  split <;> simp only [queued_modSet]

theorem queued_progEnded (e : Ended) (s : State) : (progEnded e s).queued = s.queued := by
  simp only [progEnded, implies_true, apply_ite State.queued, ite_self, queued_foldl, queued_freeToken, queued_giveBack, queued_wantEnded, queued_countPfail]

theorem queued_stallLun (e : Ended) (s : State) : (stallLun e s).queued = s.queued := by
  simp only [stallLun, queued_inc, queued_modLun]

theorem queued_wprotEnded (e : Ended) (s : State) : (wprotEnded e s).queued = s.queued := by
  simp only [wprotEnded, apply_ite State.queued, ite_self, queued_freeToken, queued_giveBack, queued_eraseEnd, queued_targetOff, queued_modLun]

theorem queued_suspended (e : Ended) (s : State) : (suspended e s).queued = s.queued := by
  simp only [suspended, queued_inc, queued_modLun]

theorem queued_judgeOp (e : Ended) (s : State) : (judgeOp e s).queued = s.queued := by
  simp only [judgeOp, implies_true, apply_ite State.queued, ite_self, queued_foldl, queued_progEnded, queued_stallLun, queued_countEfail, queued_freeToken, queued_suspended, queued_giveBack, queued_wprotEnded, queued_eraseEnd, queued_wantEnded, queued_lunOpEnded, queued_logPacked, queued_modLun, queued_readMissed]

theorem queued_rawAfter (k : Nat) (s : State) : (rawAfter k s).queued = s.queued := by
  simp only [rawAfter, queued_rawLatch]

theorem answered_execOperationEnd (s : State) : Answered s.queued (execOperationEnd s) := by
  unfold execOperationEnd
  split <;> simp only [queued_mk, queued_back, answered_next, answered_onlyIf, queued_rawAfter, queued_settleRds, queued_judgeOp]

end Sys2Proof.Machine
end


section
/-! SUPPORT. Sluices, harvest rings, the flue and the movers leave the part and the queue as they are. -/

namespace Sys2Proof.Machine

theorem queued_setSluice (s : State) (i : Nat) (x : Slq) : (State.setSluice s i x).queued = s.queued := by
  simp only [State.setSluice, queued_mk, queued_back]

theorem queued_modSluice (s : State) (i : Nat) (f : Slq → Slq) : (State.modSluice s i f).queued = s.queued := by
  simp only [State.modSluice, queued_setSluice]

theorem queued_stopScan (i : Nat) (s : State) : (stopScan i s).queued = s.queued := by
  simp only [stopScan, queued_putFlag]

theorem queued_slqDbWrite (i : Nat) (w : Word) (s : State) : (slqDbWrite i w s).queued = s.queued := by
  simp only [slqDbWrite, queued_mk, queued_back, apply_ite State.queued, ite_self, queued_restart, queued_putFlag, queued_inc, queued_modSluice]

theorem answered_execSluiceDoorbell (r : Req) (n : Nat) (w : Word) (s : State) : Answered s.queued (execSluiceDoorbell r n w s) := by
  simp only [execSluiceDoorbell, implies_true, answered_onlyIf, queued_regWrite, queued_slqDbWrite]

theorem queued_slqCtlWrite (i : Nat) (w : Word) (s : State) : (slqCtlWrite i w s).queued = s.queued := by
  simp only [slqCtlWrite, apply_ite State.queued, ite_self, queued_putFlag, queued_stopScan, queued_showWaiting]

theorem answered_execSluiceEnable (r : Req) (n : Nat) (w : Word) (s : State) : Answered s.queued (execSluiceEnable r n w s) := by
  simp only [execSluiceEnable, implies_true, answered_onlyIf, queued_regWrite, queued_slqCtlWrite]

theorem answered_execSluiceDisable (r : Req) (n : Nat) (w : Word) (s : State) : Answered s.queued (execSluiceDisable r n w s) := by
  simp only [execSluiceDisable, implies_true, answered_onlyIf, queued_regWrite, queued_slqCtlWrite]

theorem queued_slqHeadWrite (i : Nat) (w : Word) (s : State) : (slqHeadWrite i w s).queued = s.queued := by
  simp only [slqHeadWrite, apply_ite State.queued, ite_self, queued_put]

theorem answered_execSlqHeadWrite (r : Req) (n : Nat) (w : Word) (s : State) : Answered s.queued (execSlqHeadWrite r n w s) := by
  simp only [execSlqHeadWrite, implies_true, answered_onlyIf, queued_regWrite, queued_slqHeadWrite]

theorem queued_setHalt (h : Nat) (s : State) : (setHalt h s).queued = s.queued := by
  simp only [setHalt, queued_mk, queued_back, queued_put]

theorem answered_execSlqHaltWrite (r : Req) (w : Word) (s : State) : Answered s.queued (execSlqHaltWrite r w s) := by
  simp only [execSlqHaltWrite, implies_true, answered_next, queued_regWrite, queued_setHalt]

theorem queued_applyModify (i : Nat) (s : State) : (applyModify i s).queued = s.queued := by
  unfold applyModify
  split <;> simp only [queued_put, queued_modSluice]

theorem queued_newRound_ (s : State) : (newRound_ s).queued = s.queued := by
  simp only [newRound_, implies_true, queued_foldl, queued_applyModify, queued_modSluice]

theorem queued_pickSluice (s : State) : (pickSluice s).2.queued = s.queued := by
  unfold pickSluice
  split <;> simp only [apply_ite State.queued, ite_self, queued_applyModify, queued_newRound_]

theorem queued_issueFetch (i unit len : Nat) (s : State) : (issueFetch i unit len s).queued = s.queued := by
  simp only [issueFetch, queued_issue, queued_modSluice]

theorem answered_execFetchGrant (s : State) : Answered s.queued (execFetchGrant s) := by
  simp only [execFetchGrant]
  repeat' split
  all_goals simp only [queued_mk, queued_back, answered_next, answered_onlyIf, queued_issueFetch, queued_stopScan, queued_pickSluice]

theorem queued_malform (i unit code cid units : Nat) (s : State) : (malform i unit code cid units s).queued = s.queued := by
  simp only [malform, apply_ite State.queued, ite_self, queued_reserve, queued_bank, queued_putFlag, queued_put, queued_owe, queued_inc, queued_stopScan, queued_logPacked]

theorem queued_takeTokens (q : Request) (s : State) : (takeTokens q s).2.queued = s.queued := by
  simp only [takeTokens, queued_mk, queued_back, apply_ite State.queued, apply_ite Prod.snd, ite_self]

theorem queued_latchFilter (q : Request) (s : State) : (latchFilter q s).2.queued = s.queued := by
  simp only [latchFilter, apply_ite State.queued, apply_ite Prod.snd, ite_self, queued_inc, queued_logPacked]

theorem queued_admitEntry {q : Request} {s : State} {a y} (e : admitEntry q s = some (a, y)) : y.queued = s.queued := by
  unfold admitEntry at e
  split at e
  · split at e
    · cases e; rfl
    · split at e
      · next h => cases e; exact queued_takeSlots h
      · split at e <;> cases e
        rfl
  all_goals
    cases e
    rfl

theorem queued_takeEntry {i unit : Nat} {e : SqEntry} {s : State} {y} (h : takeEntry i unit e s = some y) : y.queued = s.queued := by
  unfold takeEntry at h
  dsimp only at h
  split at h
  · cases h
    simp only [queued_mk, queued_back, queued_put, queued_modSluice]
  · split at h
    · simp only [reduceCtorEq] at h
    · next ha =>
      cases h
      simp only [queued_mk, queued_back, queued_put, queued_modSluice, queued_reserve, queued_setRq, queued_latchFilter, queued_admitEntry ha, queued_takeTokens]

theorem queued_handBack (i unit n : Nat) (s : State) : (handBack i unit n s).queued = s.queued := by
  simp only [handBack, apply_ite State.queued, ite_self, queued_issueAll]

theorem queued_waitRoom (i units : Nat) (s : State) : (waitRoom i units s).queued = s.queued := by
  simp only [waitRoom, queued_putFlag, queued_modSluice]

theorem queued_scanBlock (i x0 x1 x2 : Nat) (x3 : List Byte) (x4 : State) : (scanBlock i x0 x1 x2 x3 x4).1.queued = x4.queued := by
  induction x0 generalizing x1 x2 x3 x4 with
  | zero => rfl
  | succ n ih =>
    unfold scanBlock
    dsimp only
    split
    · rfl
    · split
      · exact queued_stopScan ..
      · split
        · simp only [apply_ite State.queued, ite_self, queued_putFlag, queued_stopScan]
        · split
          · rfl
          · split
            · exact queued_waitRoom ..
            · split
              · simp only [queued_issueFetch, queued_modSluice]
              · split
                · exact queued_malform ..
                · split
                  · rfl
                  · next h => exact (ih ..).trans (queued_takeEntry h)

theorem queued_fetched (i : Nat) (code : RCode) (data : List Byte) (s : State) : (fetched i code data s).queued = s.queued := by
  simp only [fetched]
  repeat' split
  all_goals simp only [queued_modSluice, queued_stopScan, queued_malform, queued_waitRoom, queued_handBack, queued_scanBlock]

theorem answered_execFetchReadDone (n : Nat) (code : RCode) (data : List Byte) (s : State) : Answered s.queued (execFetchReadDone n code data s) := by
  unfold execFetchReadDone
  split
  · simp only [answered_next]
  · next e => simp only [answered_onlyIf, queued_fetched, queued_takeOutst e]

theorem answered_startRow (rtag opc : Nat) (run : Request → State → State) (s : State) (h_run : ∀ (y0 : Request) (y1 : State), (run y0 y1).queued = y1.queued) : Answered s.queued (startRow rtag opc run s) := by
  unfold startRow
  split <;> simp only [apply_ite State.queued, ite_self, answered_next, answered_onlyIf, h_run, queued_setRq, queued_finish]

theorem answered_execSluiceNop (rtag : Nat) (s : State) : Answered s.queued (execSluiceNop rtag s) := by
  simp only [execSluiceNop, implies_true, answered_startRow, queued_finish]

theorem answered_execSluiceRead (rtag : Nat) (s : State) : Answered s.queued (execSluiceRead rtag s) := by
  simp only [execSluiceRead, implies_true, answered_startRow]

theorem answered_execSluiceWrite (rtag : Nat) (s : State) : Answered s.queued (execSluiceWrite rtag s) := by
  refine answered_startRow _ _ _ _ fun q s => ?_
  split
  · exact queued_finish ..
  · refine queued_foldl fun t x => ?_
    split <;> simp only [queued_startCommit]

theorem answered_execSluiceFlush (rtag : Nat) (s : State) : Answered s.queued (execSluiceFlush rtag s) := by
  simp only [execSluiceFlush, implies_true, answered_startRow, queued_requestCheck]

theorem queued_unmapTile (q : Request) (s : State) (t : Tile × Nat) : (unmapTile q s t).queued = s.queued := by
  simp only [unmapTile, apply_ite State.queued, ite_self, queued_discardCopies, queued_mapUpdate, queued_modTile]

theorem answered_execSluiceUnmap (rtag : Nat) (s : State) : Answered s.queued (execSluiceUnmap rtag s) := by
  unfold execSluiceUnmap
  split <;> simp only [implies_true, apply_ite State.queued, ite_self, answered_next, answered_onlyIf, queued_foldl, queued_setRq, queued_finish, queued_unmapTile, queued_requestCheck]

theorem answered_execSluiceFilter (rtag : Nat) (s : State) : Answered s.queued (execSluiceFilter rtag s) := by
  simp only [execSluiceFilter, implies_true, answered_startRow]

theorem answered_execSluiceMargin (rtag : Nat) (s : State) : Answered s.queued (execSluiceMargin rtag s) := by
  simp only [execSluiceMargin, implies_true, answered_startRow, queued_setRq, queued_requestCheck, queued_marginReads]

theorem queued_modFlue (s : State) (f : Nat) (g : Flue → Flue) : (State.modFlue s f g).queued = s.queued := by
  simp only [State.modFlue, queued_mk, queued_back]

theorem queued_flueDone (f st num : Nat) (detail : List Byte) (s : State) : (flueDone f st num detail s).queued = s.queued := by
  simp only [flueDone, queued_issueAll, queued_putFlag, queued_inc, queued_modFlue]

theorem queued_slqFdbWrite (f : Nat) (s : State) : (slqFdbWrite f s).queued = s.queued := by
  simp only [slqFdbWrite, apply_ite State.queued, ite_self, queued_restart, queued_modFlue]

theorem answered_execFlueDoorbell (r : Req) (f : Nat) (w : Word) (s : State) : Answered s.queued (execFlueDoorbell r f w s) := by
  simp only [execFlueDoorbell, implies_true, answered_onlyIf, queued_slqFdbWrite, queued_regWrite]

theorem answered_execFlueFetch (f : Nat) (s : State) : Answered s.queued (execFlueFetch f s) := by
  simp only [execFlueFetch, answered_onlyIf, queued_issue, queued_modFlue]

theorem queued_flueIdle (f : Nat) (failed keep : Bool) (s : State) : (flueIdle f failed keep s).queued = s.queued := by
  simp only [flueIdle, apply_ite State.queued, ite_self, queued_logPacked, queued_modFlue]

theorem queued_flueOwned (f : Nat) (code : RCode) (data : List Byte) (s : State) : (flueOwned f code data s).queued = s.queued := by
  simp only [flueOwned, apply_ite State.queued, ite_self, queued_flueIdle, queued_issueAll, queued_modFlue]

theorem queued_flueTake (f : Nat) (b : List Byte) (s : State) : (flueTake f b s).queued = s.queued := by
  simp only [flueTake, apply_ite State.queued, ite_self, queued_flueDone, queued_issueAll, queued_bank, queued_putFlag, queued_logPacked, queued_modFlue]

theorem queued_flueRead (f addr : Nat) (code : RCode) (data : List Byte) (s : State) : (flueRead f addr code data s).queued = s.queued := by
  simp only [flueRead]
  repeat' split
  all_goals simp only [queued_flueIdle, queued_flueTake, queued_modFlue]

theorem answered_flueRow (f opc : Nat) (run : Flue → State → Nat × Nat × List Byte × State) (s : State) (h_run : ∀ (y0 : Flue) (y1 : State), (run y0 y1).2.2.2.queued = y1.queued) : Answered s.queued (flueRow f opc run s) := by
  simp only [flueRow, answered_onlyIf, h_run, queued_flueDone]

theorem queued_slqCreate (f : Nat) (x : Flue) (s : State) : (slqCreate f x s).2.2.queued = s.queued := by
  simp only [slqCreate, apply_ite State.queued, apply_ite Prod.snd]
  repeat' split
  all_goals simp only [queued_setReg, queued_putFlag, queued_put, queued_setSluice]

theorem answered_execSlqCreate (f : Nat) (s : State) : Answered s.queued (execSlqCreate f s) := by
  simp only [execSlqCreate, implies_true, answered_flueRow, queued_slqCreate]

theorem queued_clearReg (s : State) (k : RegKind) (i : Nat) : (State.clearReg s k i).queued = s.queued := by
  simp only [State.clearReg, queued_setReg]

theorem queued_slqDestroy (f : Nat) (x : Flue) (s : State) : (slqDestroy f x s).2.2.queued = s.queued := by
  simp only [slqDestroy, implies_true, queued_mk, queued_back, apply_ite State.queued, apply_ite Prod.snd, ite_self, queued_foldl, queued_clearReg]

theorem answered_execSlqDestroy (f : Nat) (s : State) : Answered s.queued (execSlqDestroy f s) := by
  simp only [execSlqDestroy, implies_true, answered_flueRow, queued_slqDestroy]

theorem queued_hrvCreate (f : Nat) (x : Flue) (s : State) : (hrvCreate f x s).2.2.queued = s.queued := by
  simp only [hrvCreate, apply_ite State.queued, apply_ite Prod.snd]
  repeat' split
  all_goals simp only [queued_clearReg, queued_putFlag, queued_put, queued_setRing]

theorem answered_execHrvCreate (f : Nat) (s : State) : Answered s.queued (execHrvCreate f s) := by
  simp only [execHrvCreate, implies_true, answered_flueRow, queued_hrvCreate]

theorem queued_hrvDestroy (f : Nat) (x : Flue) (s : State) : (hrvDestroy f x s).2.2.queued = s.queued := by
  simp only [hrvDestroy, implies_true, queued_mk, queued_back, apply_ite State.queued, apply_ite Prod.snd, ite_self, queued_foldl, queued_signalRing, queued_clearReg]

theorem answered_execHrvDestroy (f : Nat) (s : State) : Answered s.queued (execHrvDestroy f s) := by
  simp only [execHrvDestroy, implies_true, answered_flueRow, queued_hrvDestroy]

theorem queued_slqModify (f : Nat) (x : Flue) (s : State) : (slqModify f x s).2.2.queued = s.queued := by
  simp only [slqModify, apply_ite State.queued, apply_ite Prod.snd, ite_self, queued_modSluice]

theorem answered_execSlqModify (f : Nat) (s : State) : Answered s.queued (execSlqModify f s) := by
  simp only [execSlqModify, implies_true, answered_flueRow, queued_slqModify]

theorem queued_hrvModify (f : Nat) (x : Flue) (s : State) : (hrvModify f x s).2.2.queued = s.queued := by
  simp only [hrvModify, apply_ite State.queued, apply_ite Prod.snd, ite_self, queued_put]

theorem answered_execHrvModify (f : Nat) (s : State) : Answered s.queued (execHrvModify f s) := by
  simp only [execHrvModify, implies_true, answered_flueRow, queued_hrvModify]

theorem answered_execSetHalt (f : Nat) (s : State) : Answered s.queued (execSetHalt f s) := by
  simp only [execSetHalt, implies_true, apply_ite State.queued, apply_ite Prod.snd, ite_self, answered_flueRow, queued_setHalt]

theorem queued_dropMirrors (s : State) : (dropMirrors s).2.queued = s.queued := by
  simp only [dropMirrors, implies_true, queued_mk, queued_back, queued_foldl, queued_dramWrite, queued_budget]

theorem answered_execMirrorDrop (f : Nat) (s : State) : Answered s.queued (execMirrorDrop f s) := by
  simp only [execMirrorDrop, implies_true, apply_ite State.queued, apply_ite Prod.snd, ite_self, answered_flueRow, queued_dropMirrors]

theorem queued_setFlue (g : Nat) (x : Flue) (en : Bool) (s : State) : (setFlue g x en s).queued = s.queued := by
  simp only [setFlue, queued_putFlag, queued_modFlue]

theorem queued_flueCfg (f : Nat) (x : Flue) (s : State) : (flueCfg f x s).2.2.queued = s.queued := by
  simp only [flueCfg, apply_ite State.queued, apply_ite Prod.snd, ite_self, queued_setFlue]

theorem answered_execFlueCfg (f : Nat) (s : State) : Answered s.queued (execFlueCfg f s) := by
  simp only [execFlueCfg, implies_true, answered_flueRow, queued_flueCfg]

theorem queued_lunStep (f n : Nat) (s : State) : (lunStep f n s).queued = s.queued := by
  simp only [lunStep, queued_modFlue]

theorem queued_lunJobs (f : Nat) (x : Flue) (write : Bool) (data : List Byte) (len : Nat) (s : State) : (lunJobs f x write data len s).queued = s.queued := by
  simp only [lunJobs, implies_true, queued_foldl, queued_nextPort, queued_queueJob, queued_modFlue]

theorem queued_lunDone (f st : Nat) (feats : List Byte) (code status : Nat) (s : State) : (lunDone f st feats code status s).queued = s.queued := by
  simp only [lunDone, queued_flueDone]

theorem answered_lunRow (f t : Nat) (start : Flue → State → State) (next : Flue → Nat → Nat × Nat × List Byte → State → State) (s : State) (h_start : ∀ (y0 : Flue) (y1 : State), (start y0 y1).queued = y1.queued) (h_next : ∀ (y0 : Flue) (y1 : Nat) (y2 : Nat × Nat × List Byte) (y3 : State), (next y0 y1 y2 y3).queued = y3.queued) : Answered s.queued (lunRow f t start next s) := by
  simp only [lunRow]
  repeat' split
  all_goals simp only [answered_onlyIf, h_start, h_next, queued_flueDone]

theorem answered_execLunOpOtpRead (f : Nat) (s : State) : Answered s.queued (execLunOpOtpRead f s) := by
  simp only [execLunOpOtpRead, implies_true, apply_ite State.queued, ite_self, queued_lunDone, queued_lunStep, queued_lunJobs, answered_lunRow, queued_enqueue, queued_modFlue]

theorem answered_execLunOpOtpProg (f : Nat) (s : State) : Answered s.queued (execLunOpOtpProg f s) := by
  simp only [execLunOpOtpProg, implies_true, apply_ite State.queued, ite_self, queued_flueDone, queued_lunDone, queued_lunStep, queued_lunJobs, answered_lunRow, queued_enqueue, queued_modFlue]

theorem answered_execLunOpGetFeat (f : Nat) (s : State) : Answered s.queued (execLunOpGetFeat f s) := by
  simp only [execLunOpGetFeat, implies_true, queued_lunDone, queued_lunStep, answered_lunRow, queued_enqueue]

theorem answered_execLunOpSetFeat (f : Nat) (s : State) : Answered s.queued (execLunOpSetFeat f s) := by
  simp only [execLunOpSetFeat, implies_true, queued_lunDone, queued_lunStep, answered_lunRow, queued_enqueue]

theorem queued_lunDataDone (f at_ : Nat) (buf : List Byte) (s : State) : (lunDataDone f at_ buf s).queued = s.queued := by
  simp only [lunDataDone, queued_modFlue]

theorem queued_lunDataFault (f : Nat) (s : State) : (lunDataFault f s).queued = s.queued := by
  simp only [lunDataFault, queued_modFlue]

theorem queued_delivered (rtag i : Nat) (s : State) : (delivered rtag i s).queued = s.queued := by
  simp only [delivered, queued_requestCheck, queued_modTile]

theorem queued_panReadDone (slot : Nat) (buf : Tab Byte) (s : State) : (panReadDone slot buf s).queued = s.queued := by
  simp only [panReadDone, apply_ite State.queued, ite_self, queued_destageRead, queued_leaveQueue, queued_flushOwn]

theorem queued_leaveTodo (slot : Nat) (s : State) : (leaveTodo slot s).queued = s.queued := by
  simp only [leaveTodo, queued_mk, queued_back]

theorem queued_handoffDone (slot : Nat) (buf : Tab Byte) (s : State) : (handoffDone slot buf s).queued = s.queued := by
  simp only [handoffDone, apply_ite State.queued, ite_self, queued_modPan, queued_resend, queued_leaveTodo]

theorem queued_reconDone (j : Job) (slot : Nat) (buf : Tab Byte) (s : State) : (reconDone j slot buf s).queued = s.queued := by
  unfold reconDone
  repeat' split
  all_goals simp only [apply_ite State.queued, ite_self, queued_modPan, queued_leaveTodo, queued_raiseTiles, queued_releaseMirror]

theorem queued_jobDone (j : Job) (buf : Tab Byte) (s : State) : (jobDone j buf s).queued = s.queued := by
  unfold jobDone
  split <;> simp only [queued_modRq, queued_ownCommitted, queued_flushMir, queued_tileOutcome, queued_handoffDone, queued_panReadDone, queued_reconDone, queued_delivered, queued_relocJobDone, queued_requestCheck, queued_lunDataDone, queued_mirrorCommitted]

theorem queued_endPartner (p : JobPath) (s : State) : (endPartner p s).queued = s.queued := by
  simp only [endPartner, implies_true, queued_mk, queued_back, queued_foldl, queued_markFault]

theorem queued_commitUnread (r i slot : Nat) (s : State) : (commitUnread r i slot s).queued = s.queued := by
  simp only [commitUnread]
  repeat' split
  all_goals simp only [queued_mk, queued_back, queued_requestCheck, queued_delPan, queued_endPartner, queued_modTile]

theorem queued_withhold (slot : Nat) (s : State) : (withhold slot s).queued = s.queued := by
  simp only [withhold, queued_modPan]

theorem queued_commitSlotFault (j : Job) (r i slot : Nat) (s : State) : (commitSlotFault j r i slot s).queued = s.queued := by
  simp only [commitSlotFault, apply_ite State.queued, queued_withhold, queued_bank, queued_endPartner]
  repeat' split
  all_goals simp only [queued_startCommit, queued_withhold, queued_requestCheck, queued_endPartner, queued_modTile, queued_putPan]

theorem queued_handoffFault (j : Job) (slot : Nat) (buf : List Byte) (s : State) : (handoffFault j slot buf s).queued = s.queued := by
  simp only [handoffFault, apply_ite State.queued, queued_withhold, queued_bank]
  repeat' split
  all_goals simp only [queued_mk, queued_back, queued_handoffJob, queued_withhold, queued_queueJob, queued_bank, queued_putPan]

theorem queued_flushUnread (mirror : Bool) (slot code : Nat) (s : State) : (flushUnread mirror slot code s).queued = s.queued := by
  simp only [flushUnread]
  repeat' split
  all_goals simp only [queued_poisonSlot, queued_takePlan, queued_flushMember]

theorem queued_panReadFault (slot code : Nat) (s : State) : (panReadFault slot code s).queued = s.queued := by
  simp only [panReadFault, apply_ite State.queued, ite_self, queued_flushUnread, queued_panDataErr, queued_leaveQueue]

theorem queued_repeatOnce (j : Job) (s : State) : (repeatOnce j s).queued = s.queued := by
  simp only [repeatOnce, apply_ite State.queued, ite_self, queued_queueJob]

theorem queued_jobFault (j : Job) (code : Nat) (s : State) : (jobFault j code s).queued = s.queued := by
  unfold jobFault
  repeat' split
  all_goals simp only [queued_relocFault, queued_modRq, queued_poisonSlot, queued_lunDataFault, queued_flushUnread, queued_handoffFault, queued_commitUnread, queued_tileOutcome, queued_delivered, queued_leaveTodo, queued_panDataErr, queued_repeatOnce, queued_requestCheck, queued_twinLost, queued_panReadFault, queued_modTile, queued_commitSlotFault]

theorem queued_moverFault (m c code instr : Nat) (q : Option MReq) (s : State) : (moverFault m c code instr q s).queued = s.queued := by
  unfold moverFault
  split <;> simp only [apply_ite State.queued, ite_self, queued_jobFault, queued_markFault]

theorem queued_moverCheck (m c : Nat) (s : State) : (moverCheck m c s).queued = s.queued := by
  unfold moverCheck
  split <;> simp only [apply_ite State.queued, ite_self, queued_jobDone, queued_edge, queued_freeCtx, queued_put, queued_inc]

theorem queued_drainEnd (m : Nat) (s : State) : (drainEnd m s).queued = s.queued := by
  simp only [drainEnd, queued_mk, queued_back, apply_ite State.queued, ite_self, queued_putFlag, queued_put]

theorem queued_moverResponse (m c n : Nat) (code : RCode) (data : List Byte) (s : State) : (moverResponse m c n code data s).queued = s.queued := by
  unfold moverResponse
  repeat' split
  all_goals simp only [apply_ite State.queued, ite_self, queued_deliverTee, queued_drainEnd, queued_moverCheck, queued_moverFault, queued_put, queued_setCtx]

theorem answered_execMoverJobStart (m c : Nat) (s : State) : Answered s.queued (execMoverJobStart m c s) := by
  unfold execMoverJobStart
  split <;> simp only [queued_mk, queued_back, answered_next, answered_onlyIf, queued_put, queued_setCtx]

theorem answered_belRow (m c : Nat) (mine : BelInstr → Bool) (run : Ctx → State → State) (s : State) (h_run : ∀ (y0 : Ctx) (y1 : State), (run y0 y1).queued = y1.queued) : Answered s.queued (belRow m c mine run s) := by
  unfold belRow
  repeat' split
  all_goals simp only [answered_next, answered_onlyIf, h_run, queued_moverCheck, queued_moverFault]

theorem queued_runMove (m c : Nat) (x : Ctx) (s : State) : (runMove m c x s).queued = s.queued := by
  simp only [runMove]
  repeat' split
  all_goals simp only [queued_setCtx]

theorem answered_execBelMove (m c : Nat) (s : State) : Answered s.queued (execBelMove m c s) := by
  simp only [execBelMove, implies_true, queued_runMove, answered_belRow]

theorem queued_runGather (m c : Nat) (x : Ctx) (s : State) : (runGather m c x s).queued = s.queued := by
  simp only [runGather]
  repeat' split
  all_goals simp only [queued_moverFault, queued_setCtx]

theorem answered_execBelGather (m c : Nat) (s : State) : Answered s.queued (execBelGather m c s) := by
  simp only [execBelGather, implies_true, answered_belRow, queued_runGather]

theorem queued_advance (s : State) (m c : Nat) (x : Ctx) (n astride bstride : Nat) : (advance s m c x n astride bstride).queued = s.queued := by
  simp only [advance, apply_ite State.queued, ite_self, queued_put, queued_setCtx]

theorem queued_showLc (m lc n : Nat) (s : State) : (showLc m lc n s).queued = s.queued := by
  simp only [showLc, apply_ite State.queued, ite_self, queued_put]

theorem queued_runLoop (m c : Nat) (x : Ctx) (s : State) : (runLoop m c x s).queued = s.queued := by
  simp only [runLoop]
  repeat' split
  all_goals simp only [queued_advance, queued_showLc, queued_setCtx]

theorem answered_execBelLoop (m c : Nat) (s : State) : Answered s.queued (execBelLoop m c s) := by
  simp only [execBelLoop, implies_true, queued_runLoop, answered_belRow]

theorem queued_runWait (m c : Nat) (holds : Ctx → State → Bool) (done : State → State) (x : Ctx) (s : State) (h_done : ∀ (y0 : State), (done y0).queued = y0.queued) : (runWait m c holds done x s).queued = s.queued := by
  simp only [runWait, apply_ite State.queued, ite_self, h_done, queued_setCtx]

theorem answered_execBelWaitResp (m c : Nat) (s : State) : Answered s.queued (execBelWaitResp m c s) :=
  answered_belRow _ _ _ _ _ fun _ _ => queued_runWait _ _ _ _ _ _ fun _ => rfl

theorem answered_execBelWaitFlag (m c : Nat) (s : State) : Answered s.queued (execBelWaitFlag m c s) := by
  simp only [execBelWaitFlag, implies_true, queued_runWait, answered_belRow, queued_clrBit]

theorem answered_execBelWaitTime (m c : Nat) (s : State) : Answered s.queued (execBelWaitTime m c s) :=
  answered_belRow _ _ _ _ _ fun _ _ => queued_runWait _ _ _ _ _ _ fun _ => rfl

theorem answered_execBelWaitTimeout (m c : Nat) (s : State) : Answered s.queued (execBelWaitTimeout m c s) := by
  unfold execBelWaitTimeout
  repeat' split
  all_goals simp only [answered_next, answered_onlyIf, queued_moverFault]

theorem queued_runSignal (m c : Nat) (x : Ctx) (s : State) : (runSignal m c x s).queued = s.queued := by
  simp only [runSignal]
  repeat' split
  all_goals simp only [queued_setCtx]

theorem answered_execBelSignalPosted (m c : Nat) (s : State) : Answered s.queued (execBelSignalPosted m c s) := by
  simp only [execBelSignalPosted, implies_true, queued_runSignal, answered_belRow]

theorem answered_execBelSignalSealed (m c : Nat) (s : State) : Answered s.queued (execBelSignalSealed m c s) := by
  simp only [execBelSignalSealed, implies_true, queued_runSignal, answered_belRow]

theorem answered_execBelSignalAtomic (m c : Nat) (s : State) : Answered s.queued (execBelSignalAtomic m c s) := by
  simp only [execBelSignalAtomic, implies_true, queued_runSignal, answered_belRow]

theorem answered_execBelSignalSrc (m c : Nat) (s : State) : Answered s.queued (execBelSignalSrc m c s) := by
  simp only [execBelSignalSrc, implies_true, queued_edge, answered_belRow, queued_setCtx]

theorem answered_execBelSignalFlag (m c : Nat) (s : State) : Answered s.queued (execBelSignalFlag m c s) := by
  simp only [execBelSignalFlag, implies_true, queued_setBit, answered_belRow, queued_setCtx]

theorem queued_issueReq (m c : Nat) (x : Ctx) (q : MReq) (s : State) : (issueReq m c x q s).queued = s.queued := by
  simp only [issueReq, apply_ite State.queued, ite_self, queued_moverCheck, queued_issue, queued_moverFault, queued_setCtx]

theorem answered_execMoverRequestSlot (port : Nat) (s : State) : Answered s.queued (execMoverRequestSlot port s) := by
  unfold execMoverRequestSlot
  repeat' split
  all_goals simp only [answered_next, answered_onlyIf, queued_issueReq]

theorem queued_blurMover (m : Nat) (s : State) : (blurMover m s).queued = s.queued := by
  simp only [blurMover, queued_mk, queued_back, apply_ite State.queued, ite_self, queued_setReg, queued_fresh, queued_put, queued_blurBuf]

theorem queued_dropJob (m : Nat) (x : Ctx) (s : State) : (dropJob m x s).queued = s.queued := by
  simp only [dropJob, apply_ite State.queued, ite_self, queued_jobFault, queued_faultSource, queued_faultRegs]

theorem queued_dropJobs (m : Nat) (s : State) : (dropJobs m s).queued = s.queued := by
  simp only [dropJobs, implies_true, queued_mk, queued_back, queued_foldl, queued_blurMover, queued_put, queued_dropJob]

theorem queued_belCtlWrite (r : Req) (m : Nat) (w : Word) (s : State) : (belCtlWrite r m w s).queued = s.queued := by
  simp only [belCtlWrite, queued_mk, queued_back, apply_ite State.queued, ite_self, queued_putFlag, queued_dropJobs, queued_setCtx]

theorem answered_execBelPauseWrite (r : Req) (m : Nat) (w : Word) (s : State) : Answered s.queued (execBelPauseWrite r m w s) := by
  simp only [execBelPauseWrite, implies_true, answered_onlyIf, queued_regWrite, queued_belCtlWrite]

theorem answered_execBelDisable (r : Req) (m : Nat) (w : Word) (s : State) : Answered s.queued (execBelDisable r m w s) := by
  simp only [execBelDisable, implies_true, answered_onlyIf, queued_regWrite, queued_belCtlWrite]

theorem answered_execBelGo (r : Req) (m : Nat) (w : Word) (s : State) : Answered s.queued (execBelGo r m w s) := by
  simp only [execBelGo, implies_true, answered_onlyIf, queued_regWrite, queued_belCtlWrite]

theorem queued_belRegWrite (k : RegKind) (i : Nat) (w : Word) (s : State) : (belRegWrite k i w s).queued = s.queued := by
  unfold belRegWrite
  split <;> simp only [apply_ite State.queued, ite_self, queued_plainWrite]

theorem queued_startPairing (s : State) : (startPairing s).queued = s.queued := by
  simp only [startPairing, queued_fresh, queued_modTwin]

theorem queued_mailboxWrite (ofs : Nat) (data : List Byte) (x : TwinSec) (s : State) : (mailboxWrite ofs data x s).queued = s.queued := by
  simp only [mailboxWrite, queued_nextPort, queued_queueJob]

theorem queued_boxRead (addr len : Nat) (hb : Bool) (s : State) : (boxRead addr len hb s).queued = s.queued := by
  simp only [boxRead, queued_lineRead]

theorem answered_execPairingRecordSend (s : State) : Answered s.queued (execPairingRecordSend s) := by
  unfold execPairingRecordSend
  split <;> simp only [apply_ite State.queued, ite_self, answered_next, answered_onlyIf, queued_boxRead, queued_mailboxWrite, queued_startPairing, queued_modTwin]

theorem queued_pairHeld (x : TwinSec) (b : List Byte) (s : State) : (pairHeld x b s).queued = s.queued := by
  simp only [pairHeld, apply_ite State.queued, ite_self, queued_put, queued_modTwin, queued_budget]

theorem queued_recordRead (b : List Byte) (s : State) : (recordRead b s).queued = s.queued := by
  unfold recordRead
  split <;> simp only [apply_ite State.queued, ite_self, queued_pairHeld, queued_logPacked]

theorem answered_execPairingTimeout (s : State) : Answered s.queued (execPairingTimeout s) := by
  simp only [execPairingTimeout, answered_onlyIf, queued_put, queued_modTwin, queued_budget]

theorem answered_execPairingRetry (s : State) : Answered s.queued (execPairingRetry s) := by
  simp only [execPairingRetry, answered_onlyIf, queued_startPairing, queued_modTwin]

theorem answered_execHeartbeatSend (s : State) : Answered s.queued (execHeartbeatSend s) := by
  unfold execHeartbeatSend
  split <;> simp only [answered_next, answered_onlyIf, queued_boxRead, queued_mailboxWrite, queued_modTwin]

theorem queued_heartbeatRead (b : List Byte) (s : State) : (heartbeatRead b s).queued = s.queued := by
  unfold heartbeatRead
  split <;> simp only [apply_ite State.queued, ite_self, queued_modTwin]

theorem queued_mailboxRead (hb : Bool) (data : List Byte) (s : State) : (mailboxRead hb data s).queued = s.queued := by
  simp only [mailboxRead, apply_ite State.queued, ite_self, queued_recordRead, queued_heartbeatRead]

theorem answered_execPairingRecordReceived (data : List Byte) (s : State) : Answered s.queued (execPairingRecordReceived data s) := by
  unfold execPairingRecordReceived
  split
  · simp only [answered_next]
  · next e => simp only [answered_onlyIf, queued_recordRead, queued_releaseHeld, queued_takeOutst e]

theorem answered_execHeartbeatReceived (data : List Byte) (s : State) : Answered s.queued (execHeartbeatReceived data s) := by
  unfold execHeartbeatReceived
  split
  · simp only [answered_next]
  · next e => simp only [answered_onlyIf, queued_heartbeatRead, queued_releaseHeld, queued_takeOutst e]

theorem answered_execHeartbeatLoss (s : State) : Answered s.queued (execHeartbeatLoss s) := by
  unfold execHeartbeatLoss
  split <;> simp only [apply_ite State.queued, ite_self, answered_next, answered_onlyIf, queued_twinLost, queued_modTwin]

theorem queued_reconOwn (ds : List MirDesc) (s : State) (e : Nat × Pan) : (reconOwn ds s e).queued = s.queued := by
  unfold reconOwn
  repeat' split
  all_goals simp only [queued_modPan, queued_resend]

theorem queued_reconMirror (own : Tab Pan) (s : State) (d : MirDesc) : (reconMirror own s d).queued = s.queued := by
  simp only [reconMirror, apply_ite State.queued, ite_self, queued_letGo, queued_probeLookup, queued_modTwin]

theorem queued_reconSteps (s : State) : (reconSteps s).queued = s.queued := by
  simp only [reconSteps, implies_true, queued_foldl, queued_reconOwn, queued_reconMirror, queued_modTwin]

theorem queued_descAnswered (slot : Nat) (code : RCode) (data : List Byte) (s : State) : (descAnswered slot code data s).queued = s.queued := by
  simp only [descAnswered, apply_ite State.queued, ite_self, queued_reconSteps, queued_readDesc, queued_modTwin]

theorem answered_execReconciliationStart (s : State) : Answered s.queued (execReconciliationStart s) := by
  simp only [execReconciliationStart, apply_ite State.queued, ite_self, answered_onlyIf, queued_reconSteps, queued_readDesc, queued_put, queued_modTwin]

theorem answered_execReconciliationEnd (s : State) : Answered s.queued (execReconciliationEnd s) := by
  simp only [execReconciliationEnd, answered_onlyIf, queued_put, queued_budget]

theorem queued_ckptPiece (mt addr : Nat) (code : RCode) (data : List Byte) (s : State) : (ckptPiece mt addr code data s).queued = s.queued := by
  unfold ckptPiece
  split <;> simp only [queued_mk, queued_back, apply_ite State.queued, ite_self, queued_modDir, queued_markRepair, queued_tileForCkpt, queued_logPacked]

theorem queued_flueAnswered (f : Nat) (code : RCode) (s : State) : (flueAnswered f code s).queued = s.queued := by
  simp only [flueAnswered, apply_ite State.queued, ite_self, queued_edge, queued_logPacked]

theorem queued_mapWritten (key : Nat) (code : RCode) (s : State) : (mapWritten key code s).queued = s.queued := by
  simp only [mapWritten, apply_ite State.queued, ite_self, queued_writeBackDone, queued_logPacked]

theorem queued_parityAnswered (row : Nat) (q : FabReq) (code : RCode) (s : State) : (parityAnswered row q code s).queued = s.queued := by
  simp only [parityAnswered, apply_ite State.queued, ite_self, queued_parReadDone, queued_abandonRow]

theorem queued_noteDram (p : Purpose) (code : RCode) (s : State) : (noteDram p code s).queued = s.queued := by
  simp only [noteDram, apply_ite State.queued, ite_self, queued_dramSeen]

theorem queued_answer (o : Outst) (code : RCode) (data : List Byte) (s : State) : (answer o code data s).queued = s.queued := by
  unfold answer
  split <;> simp only [apply_ite State.queued, ite_self, queued_noteDram, queued_descAnswered, queued_calLineRead, queued_fetched, queued_harvestResponse, queued_flueOwned, queued_ckptPiece, queued_tileLoaded, queued_mailboxRead, queued_gaugeFetched, queued_flueAnswered, queued_flueRead, queued_parityAnswered, queued_moverResponse, queued_logPacked, queued_fillDone, queued_walked, queued_lookedAhead, queued_mapWritten]

theorem answered_execOutboundResponse (port vc tag : Nat) (code : RCode) (data : List Byte) (s : State) : Answered s.queued (execOutboundResponse port vc tag code data s) := by
  unfold execOutboundResponse
  split <;> simp only [queued_mk, queued_back, answered_next, answered_onlyIf, queued_answer, queued_codeTaken, queued_releaseHeld]

theorem answered_execOutboundTimeout (port vc tag : Nat) (s : State) : Answered s.queued (execOutboundTimeout port vc tag s) := by
  unfold execOutboundTimeout
  split <;> simp only [queued_mk, queued_back, answered_next, answered_onlyIf, queued_answer, queued_logPacked, queued_releaseHeld]

theorem answered_execLateResponse (port vc tag : Nat) (s : State) : Answered s.queued (execLateResponse port vc tag s) := by
  unfold execLateResponse
  split <;> simp only [queued_mk, queued_back, answered_next, answered_onlyIf, queued_logEntry]

end Sys2Proof.Machine
end


section
/-! SUPPORT. Calibration, draught, resets, power states and the banked state leave the part and the queue as they are. -/

namespace Sys2Proof.Machine

theorem queued_bankRequest (q : Request) (s : State) : (bankRequest q s).queued = s.queued := by
  simp only [bankRequest, queued_setRq, queued_setRing]

theorem queued_endUnstarted (c : Nat) (s : State) : (endUnstarted c s).queued = s.queued := by
  simp only [endUnstarted]
  repeat' split
  all_goals simp only [implies_true, queued_foldl, queued_endSlot, queued_release_]

theorem queued_bankMover (m : Nat) (s : State) : (bankMover m s).queued = s.queued := by
  simp only [bankMover, queued_mk, queued_back, apply_ite State.queued, ite_self, queued_putFlag, queued_dropJobs]

theorem queued_bankFlue (f : Nat) (s : State) : (bankFlue f s).queued = s.queued := by
  simp only [bankFlue, queued_putFlag, queued_modFlue]

theorem answered_execBankedEntry (s : State) : Answered s.queued (execBankedEntry s) := by
  simp only [execBankedEntry, implies_true, queued_mk, queued_back, answered_onlyIf, queued_foldl, queued_bankRequest, queued_endUnstarted, queued_put, queued_bankFlue, queued_bankMover]

theorem answered_execBankedPins (c : Nat) (s : State) : Answered s.queued (execBankedPins c s) := by
  simp only [execBankedPins, apply_ite State.queued, ite_self, answered_onlyIf, queued_setChan, queued_putFlag, queued_put, queued_logPacked]

theorem queued_bankReqWrite (w : Word) (s : State) : (bankReqWrite w s).queued = s.queued := by
  simp only [bankReqWrite, apply_ite State.queued, ite_self, queued_bank]

theorem answered_execBankRequest (r : Req) (w : Word) (s : State) : Answered s.queued (execBankRequest r w s) := by
  simp only [execBankRequest, implies_true, answered_next, queued_regWrite, queued_bankReqWrite]

theorem queued_mapLineError (line : Nat) (s : State) : (mapLineError line s).queued = s.queued := by
  unfold mapLineError
  split <;> simp only [apply_ite State.queued, ite_self, queued_markRepair, queued_delLine]

theorem queued_gaugeLineError (key : Nat) (s : State) : (gaugeLineError key s).queued = s.queued := by
  unfold gaugeLineError
  split <;> simp only [queued_mk, queued_back, queued_dramWrite]

theorem queued_logStruck (i : Nat) (s : State) : (logStruck i s).queued = s.queued := by
  simp only [logStruck, queued_mk, queued_back]

theorem answered_execMemoryError (e : MemErr) (s : State) : Answered s.queued (execMemoryError e s) := by
  unfold execMemoryError
  repeat' split
  all_goals simp only [answered_next, answered_onlyIf, queued_hardDecoded, queued_abandonRow, queued_bank, queued_contained, queued_moverFault, queued_mapLineError, queued_inc, queued_settleRds, queued_logPacked, queued_logStruck, queued_gaugeLineError]

theorem queued_restartRequest (rtag : Nat) (s : State) : (restartRequest rtag s).queued = s.queued := by
  simp only [restartRequest]
  repeat' split
  all_goals simp only [implies_true, queued_mk, queued_back, queued_foldl, queued_modRq, queued_dropRd, queued_marginReads]

theorem answered_execDeadlockBreak (waits holds : Nat) (s : State) : Answered s.queued (execDeadlockBreak waits holds s) := by
  simp only [execDeadlockBreak]
  repeat' split
  all_goals simp only [answered_next, answered_onlyIf, queued_restartRequest, queued_setRq, queued_bank, queued_inc, queued_logPacked]

theorem answered_execLogMirrorCopy (s : State) : Answered s.queued (execLogMirrorCopy s) := by
  unfold execLogMirrorCopy
  split <;> simp only [queued_mk, queued_back, answered_next, answered_onlyIf, queued_queueJob]

theorem queued_setSense (s : State) (n : Nat) (x : Sense) : (State.setSense s n x).queued = s.queued := by
  simp only [State.setSense, queued_mk, queued_back]

theorem answered_execSenseFrame (src : BitVec 6) (v : BitVec 16) (par : Bool) (s : State) : Answered s.queued (execSenseFrame src v par s) := by
  simp only [execSenseFrame, apply_ite State.queued, ite_self, answered_onCore, queued_setSense, queued_inc, queued_clrBit]

theorem answered_execSourceStale (n : Nat) (s : State) : Answered s.queued (execSourceStale n s) := by
  simp only [execSourceStale, answered_onlyIf, queued_setSense, queued_setBit]

theorem answered_execStaleReport (n : Nat) (s : State) : Answered s.queued (execStaleReport n s) := by
  simp only [execStaleReport]
  repeat' split
  all_goals simp only [answered_next, answered_onlyIf, queued_setSense, queued_putFlag, queued_logPacked]

theorem queued_setLoop (s : State) (n : Nat) (x : DLoop) : (State.setLoop s n x).queued = s.queued := by
  simp only [State.setLoop, queued_mk, queued_back]

theorem queued_loadLoop (n : Nat) (s : State) : (loadLoop n s).queued = s.queued := by
  simp only [loadLoop, queued_setReg, queued_setLoop]

theorem queued_loopCtlWrite (n : Nat) (w : Word) (s : State) : (loopCtlWrite n w s).queued = s.queued := by
  simp only [loopCtlWrite, apply_ite State.queued, ite_self, queued_setReg, queued_loadLoop, queued_putFlag]

theorem answered_execLoopEnable (r : Req) (n : Nat) (w : Word) (s : State) : Answered s.queued (execLoopEnable r n w s) := by
  simp only [execLoopEnable, implies_true, answered_onlyIf, queued_regWrite, queued_loopCtlWrite]

theorem answered_execLoopDisable (r : Req) (n : Nat) (w : Word) (s : State) : Answered s.queued (execLoopDisable r n w s) := by
  simp only [execLoopDisable, implies_true, answered_onlyIf, queued_regWrite, queued_loopCtlWrite]

theorem answered_execLoopFreezeWrite (r : Req) (n : Nat) (w : Word) (s : State) : Answered s.queued (execLoopFreezeWrite r n w s) := by
  simp only [execLoopFreezeWrite, implies_true, answered_onlyIf, queued_regWrite, queued_loopCtlWrite]

theorem queued_senseMean (n : Nat) (s : State) : (senseMean n s).2.queued = s.queued := by
  simp only [senseMean, apply_ite State.queued, apply_ite Prod.snd, ite_self, queued_fresh]

theorem queued_senseMeans (x0 : List Nat) (x1 : State) : (senseMeans x0 x1).2.queued = x1.queued := by
  induction x0 generalizing x1 with
  | nil => rfl
  | cons n r ih => exact (ih _).trans (queued_senseMean ..)

theorem queued_loopInput (n : Nat) (s : State) : (loopInput n s).2.queued = s.queued := by
  simp only [loopInput, queued_senseMeans]

theorem queued_tickLoop (n : Nat) (s : State) : (tickLoop n s).queued = s.queued := by
  simp only [tickLoop, apply_ite State.queued, ite_self, queued_setReg, queued_loadLoop, queued_setLoop, queued_putFlag, queued_put, queued_loopInput, queued_inc]

theorem queued_setBucket (s : State) (g : Nat) (x : Int) : (State.setBucket s g x).queued = s.queued := by
  simp only [State.setBucket, queued_mk, queued_back]

theorem queued_refill (g : Nat) (s : State) : (refill g s).queued = s.queued := by
  simp only [refill, apply_ite State.queued, ite_self, queued_setBucket]

theorem queued_admCfgWrite (w : Word) (s : State) : (admCfgWrite w s).queued = s.queued := by
  simp only [admCfgWrite, implies_true, apply_ite State.queued, ite_self, queued_foldl, queued_setBucket, queued_plainWrite]

theorem answered_execBwMaxWrite (r : Req) (w : Word) (s : State) : Answered s.queued (execBwMaxWrite r w s) := by
  simp only [execBwMaxWrite, implies_true, answered_next, queued_regWrite, queued_admCfgWrite]

theorem queued_loadSeen (s : State) : (loadSeen s).queued = s.queued := by
  simp only [loadSeen, queued_mk, queued_back]

theorem answered_execSampleTick (s : State) : Answered s.queued (execSampleTick s) := by
  simp only [execSampleTick, implies_true, queued_mk, queued_back, answered_onlyIf, queued_foldl, queued_refill, queued_tickLoop, queued_loadSeen]

theorem answered_execAdmissionTakeEffect (s : State) : Answered s.queued (execAdmissionTakeEffect s) := by
  unfold execAdmissionTakeEffect
  split <;> simp only [implies_true, queued_mk, queued_back, answered_next, answered_onlyIf, queued_foldl, queued_put]

theorem queued_showStop (s : State) : (showStop s).queued = s.queued := by
  simp only [showStop, apply_ite State.queued, ite_self, queued_putFlag, queued_inc, queued_logPacked]

theorem queued_latest (x0 : List Nat) (x1 : State) : (latest x0 x1).2.queued = x1.queued := by
  induction x0 generalizing x1 with
  | nil => rfl
  | cons n r ih =>
    unfold latest
    split <;> simp only [ih, queued_fresh]

theorem answered_execCeilingEvaluation (s : State) : Answered s.queued (execCeilingEvaluation s) := by
  simp only [execCeilingEvaluation, queued_mk, queued_back, answered_onlyIf, queued_showStop, queued_latest]

theorem queued_drgCtlWrite (w : Word) (s : State) : (drgCtlWrite w s).queued = s.queued := by
  simp only [drgCtlWrite, queued_mk, queued_back, apply_ite State.queued, ite_self, queued_showStop, queued_plainWrite]

theorem answered_execCeilEnWrite (r : Req) (w : Word) (s : State) : Answered s.queued (execCeilEnWrite r w s) := by
  simp only [execCeilEnWrite, implies_true, answered_next, queued_regWrite, queued_drgCtlWrite]

theorem answered_execDraughtGrant (g : Nat) (s : State) : Answered s.queued (execDraughtGrant g s) := by
  unfold execDraughtGrant
  repeat' split
  all_goals simp only [queued_mk, queued_back, apply_ite State.queued, ite_self, answered_next, answered_onlyIf, queued_setBucket, queued_setChan, queued_inc, queued_modLun]

theorem answered_execDraughtEndReport (s : State) : Answered s.queued (execDraughtEndReport s) := by
  unfold execDraughtEndReport
  split <;> simp only [queued_mk, queued_back, answered_next, answered_onlyIf, queued_put]

theorem queued_loadDraught (imgs : List (RegKind × Nat × Word)) (s : State) : (loadDraught imgs s).queued = s.queued := by
  simp only [loadDraught, implies_true, apply_ite State.queued, ite_self, queued_foldl, queued_setReg, queued_loopCtlWrite, queued_plainWrite, queued_admCfgWrite, queued_drgCtlWrite]

theorem queued_sampleTemp (g : Nat) (s : State) : (sampleTemp g s).queued = s.queued := by
  unfold sampleTemp
  split <;> simp only [queued_mk, queued_back, apply_ite State.queued, ite_self, queued_queueSweep]

theorem answered_execCalTempSample (s : State) : Answered s.queued (execCalTempSample s) := by
  simp only [execCalTempSample, implies_true, queued_mk, queued_back, answered_onlyIf, queued_foldl, queued_sampleTemp]

theorem queued_calReqWrite (w : Word) (s : State) : (calReqWrite w s).queued = s.queued := by
  simp only [calReqWrite, apply_ite State.queued, ite_self, queued_queueSweep]

theorem answered_execCalReqGo (r : Req) (w : Word) (s : State) : Answered s.queued (execCalReqGo r w s) := by
  simp only [execCalReqGo, implies_true, answered_next, queued_regWrite, queued_calReqWrite]

theorem queued_setCalCh (s : State) (c : Nat) (x : CalCh) : (State.setCalCh s c x).queued = s.queued := by
  simp only [State.setCalCh, queued_mk, queued_back]

theorem answered_execCalRunStart (c : Nat) (s : State) : Answered s.queued (execCalRunStart c s) := by
  unfold execCalRunStart
  split <;> simp only [queued_mk, queued_back, apply_ite State.queued, ite_self, answered_next, answered_onlyIf, queued_sweepDone]

theorem queued_calFail (c t : Nat) (s : State) : (calFail c t s).queued = s.queued := by
  simp only [calFail, queued_inc, queued_logEntry]

theorem queued_foldOffsets (c : Nat) (s : State) : (foldOffsets c s).queued = s.queued := by
  simp only [foldOffsets, implies_true, queued_foldl, queued_setChan, queued_showOffsets, queued_setCalT]

theorem queued_applyDir (c t dir mode rate : Nat) (gb : Int) (bits : List (BitVec 129)) (s : State) : (applyDir c t dir mode rate gb bits s).2.2.queued = s.queued := by
  unfold applyDir
  repeat' split
  all_goals simp only [queued_foldOffsets, queued_setCalT]

theorem queued_runSteps (c : Nat) (u : CalRun) (m : Train) (s : State) : (runSteps c u m s).queued = s.queued := by
  simp only [runSteps, queued_mk, queued_back, apply_ite State.queued, apply_ite Prod.snd, apply_ite Prod.fst, ite_self, queued_setCalCh, queued_calFail, queued_selectTarget, queued_dieZq, queued_dieDcc, queued_sweepPut, queued_raiseCe, queued_applyDir]

theorem queued_runEnds (c : Nat) (u : CalRun) (s : State) : (runEnds c u s).queued = s.queued := by
  simp only [runEnds, queued_mk, queued_back, queued_sweepDone, queued_setReg, queued_inc, queued_logPacked, queued_setCalT]

theorem answered_execCalRunEnd (c : Nat) (m : Train) (s : State) : Answered s.queued (execCalRunEnd c m s) := by
  unfold execCalRunEnd
  repeat' split
  all_goals simp only [implies_true, answered_next, answered_onlyIf, queued_runEnds, queued_runSteps, queued_atRate]

theorem queued_modRun (s : State) (k : Nat) (f : CalRun → CalRun) : (State.modRun s k f).queued = s.queued := by
  simp only [State.modRun, queued_mk, queued_back]

theorem queued_fetchLines (k : Nat) (bs : List Nat) (s : State) : (fetchLines k bs s).queued = s.queued := by
  simp only [fetchLines, implies_true, apply_ite State.queued, ite_self, queued_foldl, queued_dramRead]

theorem queued_withLines (k : Nat) (bs : List Nat) (f : State → State) (s : State) (h_f : ∀ (y0 : State), (f y0).queued = y0.queued) : (withLines k bs f s).queued = s.queued := by
  simp only [withLines, apply_ite State.queued, ite_self, h_f, queued_fetchLines]

theorem queued_dropLines (k : Nat) (s : State) : (dropLines k s).queued = s.queued := by
  simp only [dropLines, queued_mk, queued_back]

theorem queued_mediaBegin (k : Nat) (us : List (Nat × UnitE)) (s : State) : (mediaBegin k us s).queued = s.queued := by
  unfold mediaBegin
  simp only [queued_mk, queued_back, queued_enqueueAll, queued_modRun, queued_dropLines]
  refine queued_foldl fun t b => ?_
  split <;> simp only [queued_gaugeFill]

theorem queued_reseed (k : Nat) (d : List Int) (s : State) : (reseed k d s).queued = s.queued := by
  refine queued_foldl fun t b => ?_
  split
  · rfl
  · simp only [queued_mk, queued_back, apply_ite State.queued, ite_self, queued_dramWrite]

theorem queued_mediaOver (k : Nat) (s : State) : (mediaOver k s).queued = s.queued := by
  simp only [mediaOver, queued_mk, queued_back, queued_modRun, queued_dropLines]

theorem answered_execMediaStep (k : Nat) (s : State) : Answered s.queued (execMediaStep k s) := by
  unfold execMediaStep
  dsimp only
  split
  · exact answered_next rfl
  · split
    · split
      · exact answered_onlyIf (queued_mediaOver ..)
      · exact answered_onlyIf (queued_withLines _ _ _ _ fun _ => queued_mediaBegin ..)
    · split
      · split
        · exact answered_onlyIf (queued_mediaOver ..)
        · refine answered_onlyIf (queued_withLines _ _ _ _ fun t => ?_)
          split
          · exact queued_mediaOver ..
          · exact queued_withLines _ _ _ _ fun _ => (queued_mediaOver ..).trans (queued_reseed ..)
      · exact answered_next rfl

theorem queued_setLedger (s : State) (k : Nat) (l : Ledger) : (State.setLedger s k l).queued = s.queued := by
  simp only [State.setLedger, queued_mk, queued_back]

theorem queued_ledgerPage (k : Nat) (s : State) : (ledgerPage k s).queued = s.queued := by
  simp only [ledgerPage, queued_enqueue, queued_setLedger]

theorem queued_ledgerLeaves (k : Nat) (s : State) : (ledgerLeaves k s).queued = s.queued := by
  simp only [ledgerLeaves, apply_ite State.queued, ite_self, queued_modRun]

theorem answered_execLedgerWrite (k : Nat) (s : State) : Answered s.queued (execLedgerWrite k s) := by
  simp only [execLedgerWrite]
  repeat' split
  all_goals simp only [implies_true, queued_mk, queued_back, answered_next, answered_onlyIf, queued_ledgerLeaves, queued_dropLines, queued_ledgerPage, queued_queueErase, queued_withLines]

theorem queued_walkTarget (c t : Nat) (s : State) : (walkTarget c t s).queued = s.queued := by
  simp only [walkTarget, implies_true, apply_ite State.queued, ite_self, queued_foldl, queued_setCalT, queued_clrBit]

theorem answered_execCalWalkStep (c : Nat) (s : State) : Answered s.queued (execCalWalkStep c s) := by
  simp only [execCalWalkStep, implies_true, answered_onlyIf, queued_foldl, queued_setCalCh, queued_walkTarget]

theorem queued_abandonTgt (ti : Nat) (s : State) : (abandonTgt ti s).queued = s.queued := by
  simp only [abandonTgt, queued_setCalT]

theorem queued_dropSamples (k : Nat) (s : State) : (dropSamples k s).queued = s.queued := by
  simp only [dropSamples, queued_mk, queued_back, queued_dropLines, queued_modLun]

theorem queued_cutTarget (n ti : Nat) (s : State) : (cutTarget n ti s).2.queued = s.queued := by
  simp only [cutTarget]
  repeat' split
  all_goals simp only [implies_true, queued_mk, queued_back, queued_foldl, queued_sweepDone, queued_dropSamples, queued_abandonTgt]

theorem answered_execCalSweepDeadline (n : Nat) (s : State) : Answered s.queued (execCalSweepDeadline n s) := by
  simp only [execCalSweepDeadline]
  repeat' split
  all_goals simp only [implies_true, answered_next, answered_onlyIf, queued_foldl_snd, queued_cutTarget, queued_inc]

theorem queued_islandReset (regs : Tab Word) (s : State) : (islandReset regs s).queued = s.queued := by
  simp only [islandReset, queued_mk, queued_back]

theorem queued_coldReset (s : State) : (coldReset s).queued = s.queued := by
  simp only [coldReset, queued_islandReset]

theorem queued_warmReset (s : State) : (warmReset s).queued = s.queued := by
  simp only [warmReset, queued_mk, queued_back, queued_islandReset]

theorem queued_emberReset (s : State) : (emberReset s).queued = s.queued := by
  simp only [emberReset, implies_true, queued_mk, queued_back, queued_foldl, queued_setReg]

theorem queued_emberWake (s : State) : (emberWake s).queued = s.queued := by
  simp only [emberWake, queued_mk, queued_back, queued_coldReset]

theorem answered_execRstEmberAssert (width : Nat) (s : State) : Answered s.queued (execRstEmberAssert width s) := by
  simp only [execRstEmberAssert, queued_mk, queued_back, apply_ite State.queued, ite_self, answered_next, answered_ite, queued_emberReset, queued_emberWake]

theorem answered_execRstColdAssert (width : Nat) (s : State) : Answered s.queued (execRstColdAssert width s) := by
  simp only [execRstColdAssert, queued_mk, queued_back, answered_next, answered_ite, queued_coldReset]

theorem answered_execRstWarmAssert (width : Nat) (s : State) : Answered s.queued (execRstWarmAssert width s) := by
  simp only [execRstWarmAssert, queued_mk, queued_back, answered_next, answered_ite, queued_warmReset]

theorem queued_bootFail (code : Nat) (s : State) : (bootFail code s).queued = s.queued := by
  simp only [bootFail, queued_bank, queued_put, queued_logPacked]

theorem queued_loadTime (s : State) : (loadTime s).queued = s.queued := by
  simp only [loadTime, queued_mk, queued_back]

theorem queued_showRow (s : State) : (showRow s).queued = s.queued := by
  simp only [showRow, implies_true, queued_foldl, queued_setReg, queued_putFlag, queued_put]

theorem queued_romStage (rowOk : Bool) (s : State) : (romStage rowOk s).queued = s.queued := by
  simp only [romStage, queued_mk, queued_back, apply_ite State.queued, ite_self, queued_bootFail, queued_loadTime, queued_modTwin, queued_showRow, queued_enterStage]

theorem answered_execResetRelease (rowOk : Bool) (s : State) : Answered s.queued (execResetRelease rowOk s) := by
  simp only [execResetRelease, queued_mk, queued_back, apply_ite State.queued, ite_self, answered_next, answered_ite, queued_romStage]

theorem answered_execClockMonitorFault (s : State) : Answered s.queued (execClockMonitorFault s) := by
  simp only [execClockMonitorFault, answered_onCore, queued_bank]

theorem answered_execEmbClkLoss (s : State) : Answered s.queued (execEmbClkLoss s) := by
  unfold execEmbClkLoss
  split <;> simp only [queued_mk, queued_back, apply_ite State.queued, ite_self, answered_next, answered_ite, queued_bank, queued_putFlag]

theorem queued_embRuns (s : State) : (embRuns s).queued = s.queued := by
  simp only [embRuns, queued_mk, queued_back]

theorem answered_execPwrGoodCoreLow (s : State) : Answered s.queued (execPwrGoodCoreLow s) := by
  simp only [execPwrGoodCoreLow, queued_mk, queued_back, apply_ite State.queued, ite_self, answered_onlyIf, queued_bank]

theorem queued_tripLevels (low : BitVec 3) (s : State) : (tripLevels low s).queued = s.queued := by
  simp only [tripLevels, queued_mk, queued_back, queued_putFlag]

theorem queued_setLatch (n : Nat) (s : State) : (setLatch n s).queued = s.queued := by
  simp only [setLatch, queued_mk, queued_back, apply_ite State.queued, ite_self, queued_setBit, queued_abortEntry, queued_inc]

theorem answered_execTripLatch (trip : Trip) (width : Nat) (held : Bool) (s : State) : Answered s.queued (execTripLatch trip width held s) := by
  unfold execTripLatch
  repeat' split
  all_goals simp only [apply_ite State.queued, ite_self, answered_next, queued_fresh, queued_tripLevels, queued_setLatch]

theorem queued_stopSlots (c : Nat) (s : State) : (stopSlots c s).queued = s.queued := by
  simp only [stopSlots, queued_setChan]

theorem queued_unform (k : Nat) (s : State) : (unform k s).queued = s.queued := by
  unfold unform
  split <;> simp only [apply_ite State.queued, ite_self, queued_giveBack, queued_put, queued_modLun]

theorem queued_powerFail (s : State) : (powerFail s).queued = s.queued := by
  unfold powerFail
  simp only [implies_true, apply_ite State.queued, ite_self, queued_foldl, queued_dropPage0, queued_modLun]
  refine (queued_foldl fun t k => ?_).trans ?_
  · split <;> simp only [apply_ite State.queued, ite_self, queued_raiseSuspend]
  · simp only [implies_true, queued_mk, queued_back, queued_foldl, queued_stopSlots, queued_unform, queued_putFlag]

theorem queued_tripEffect (n : Nat) (s : State) : (tripEffect n s).queued = s.queued := by
  simp only [tripEffect, apply_ite State.queued, ite_self, queued_showStop, queued_bank, queued_powerFail]

theorem answered_execTripAct (s : State) : Answered s.queued (execTripAct s) := by
  simp only [execTripAct, implies_true, queued_mk, queued_back, apply_ite State.queued, ite_self, answered_onlyIf, queued_foldl, queued_tripEffect, queued_logPacked, queued_edgeAll]

theorem queued_clearLatch (low fall : BitVec 3) (w : Word) (s : State) (n : Nat) : (clearLatch low fall w s n).queued = s.queued := by
  simp only [clearLatch, apply_ite State.queued, ite_self, queued_inc, queued_setLatch, queued_logPacked, queued_clrBit]

theorem answered_execTripClear (low fall : BitVec 3) (s : State) : Answered s.queued (execTripClear low fall s) := by
  unfold execTripClear
  repeat' split
  all_goals simp only [implies_true, queued_mk, queued_back, apply_ite State.queued, ite_self, answered_next, queued_foldl, queued_showStop, queued_tripLevels, queued_embRuns, queued_clearLatch]

theorem queued_queueEmber (k : RegKind) (w : Word) (s : State) : (queueEmber k w s).queued = s.queued := by
  simp only [queueEmber, queued_mk, queued_back]

theorem answered_execEmberWriteEffect (s : State) : Answered s.queued (execEmberWriteEffect s) := by
  unfold execEmberWriteEffect
  split <;> simp only [queued_mk, queued_back, answered_next, answered_ite, queued_plainWrite, queued_embRuns]

theorem answered_execEmbClkLossClear (again : Bool) (s : State) : Answered s.queued (execEmbClkLossClear again s) := by
  unfold execEmbClkLossClear
  split
  · split
    · exact answered_next rfl
    · dsimp only
      generalize ht : ite (Fld.pwrStsEmbClkLoss.get _ = 1) _ _ = t
      have h : t.queued = s.queued := by
        simp only [← ht, queued_mk, queued_back, apply_ite State.queued, ite_self, queued_putFlag, queued_embRuns]
      rw [← h]
      exact answered_ite (answered_execEmbClkLoss t) (answered_next rfl)
  · exact answered_next rfl

theorem answered_execP1Entry (s : State) : Answered s.queued (execP1Entry s) := by
  simp only [execP1Entry, queued_mk, queued_back, answered_onlyIf, queued_inc]

theorem queued_enterSleep (p3 : Bool) (s : State) : (enterSleep p3 s).queued = s.queued := by
  simp only [enterSleep, queued_mk, queued_back]

theorem queued_pwrCtlWrite (mirs : List (Nat × List Byte)) (w : Word) (s : State) : (pwrCtlWrite mirs w s).queued = s.queued := by
  simp only [pwrCtlWrite, apply_ite State.queued, ite_self, queued_plainWrite, queued_enterSleep, queued_put, queued_scanMir]

theorem answered_execP2Request (r : Req) (w : Word) (mirs : List (Nat × List Byte)) (s : State) : Answered s.queued (execP2Request r w mirs s) := by
  simp only [execP2Request, implies_true, answered_onlyIf, queued_regWrite, queued_pwrCtlWrite]

theorem answered_execP3Request (r : Req) (w : Word) (mirs : List (Nat × List Byte)) (s : State) : Answered s.queued (execP3Request r w mirs s) := by
  simp only [execP3Request, implies_true, answered_onlyIf, queued_regWrite, queued_pwrCtlWrite]

theorem queued_supplyOff (s : State) : (supplyOff s).queued = s.queued := by
  simp only [supplyOff, queued_mk, queued_back]

theorem queued_draughtOff (s : State) : (draughtOff s).queued = s.queued := by
  simp only [draughtOff, queued_mk, queued_back]

theorem answered_execEntryMessage (s : State) : Answered s.queued (execEntryMessage s) := by
  unfold execEntryMessage
  repeat' split
  all_goals simp only [queued_mk, queued_back, answered_next, queued_supplyOff, queued_dropChallenge, queued_draughtOff, queued_put, queued_abortEntry, queued_inc, queued_logPacked, queued_coldReset]

theorem queued_wakeEvent (cause : Nat) (s : State) : (wakeEvent cause s).queued = s.queued := by
  simp only [wakeEvent, queued_mk, queued_back, queued_put]

theorem answered_execWakeAlarm (s : State) : Answered s.queued (execWakeAlarm s) := by
  simp only [execWakeAlarm, answered_onlyIf, queued_wakeEvent]

theorem answered_execWakePlatform (s : State) : Answered s.queued (execWakePlatform s) := by
  simp only [execWakePlatform, queued_mk, queued_back, answered_onlyIf, queued_wakeEvent]

theorem answered_execPowerGoodTimeout (s : State) : Answered s.queued (execPowerGoodTimeout s) := by
  unfold execPowerGoodTimeout
  split <;> simp only [queued_mk, queued_back, answered_next, answered_onlyIf]

theorem queued_suppliesUp (s : State) : (suppliesUp s).queued = s.queued := by
  simp only [suppliesUp, queued_mk, queued_back]

theorem queued_startWdogs (s : State) : (startWdogs s).queued = s.queued := by
  simp only [startWdogs, queued_mk, queued_back]

theorem queued_resumeLeases (old : Nat) (s : State) : (resumeLeases old s).queued = s.queued := by
  simp only [resumeLeases, queued_mk, queued_back]

theorem answered_execWakeFromP2 (pass : Bool) (s : State) : Answered s.queued (execWakeFromP2 pass s) := by
  simp only [execWakeFromP2, queued_mk, queued_back, apply_ite State.queued, ite_self, answered_onlyIf, queued_startWdogs, queued_bank, queued_put, queued_loadTime, queued_logPacked, queued_modTwin, queued_resumeLeases, queued_suppliesUp]

theorem answered_execWakeFromP3 (rowOk : Bool) (s : State) : Answered s.queued (execWakeFromP3 rowOk s) := by
  simp only [execWakeFromP3, queued_mk, queued_back, answered_onlyIf, queued_romStage, queued_logPacked, queued_suppliesUp]

theorem answered_execDramIdleOkRise (s : State) : Answered s.queued (execDramIdleOkRise s) := by
  simp only [execDramIdleOkRise, queued_mk, queued_back, answered_onlyIf]

theorem queued_kickWrite (src : Nat) (s : State) : (kickWrite src s).queued = s.queued := by
  unfold kickWrite
  split <;> simp only [queued_mk, queued_back, apply_ite State.queued, ite_self]

theorem answered_execWatchdogKick (r : Req) (w : Word) (s : State) : Answered s.queued (execWatchdogKick r w s) := by
  simp only [execWatchdogKick, implies_true, answered_next, queued_regWrite, queued_kickWrite]

theorem answered_execWatchdogExpiry (n : Nat) (s : State) : Answered s.queued (execWatchdogExpiry n s) := by
  unfold execWatchdogExpiry
  split <;> simp only [answered_next, answered_onlyIf, queued_bankNamed]

end Sys2Proof.Machine
end


section
/-! SUPPORT. Start-up, sanitize, and the accesses to registers leave the part and the queue as they are. -/

namespace Sys2Proof.Machine

theorem queued_draughtLoaded (d : List Byte) (s : State) : (draughtLoaded d s).queued = s.queued := by
  simp only [draughtLoaded, queued_mk, queued_back, queued_loadDraught]

theorem queued_queueRecord (ring : Bool) (b : List Byte) (r : Bool × State) : (queueRecord ring b r).2.queued = r.2.queued := by
  simp only [queueRecord, apply_ite State.queued, apply_ite Prod.snd, apply_ite Prod.fst, ite_self, queued_slqCreate, queued_hrvCreate]

theorem queued_queueLoaded (b : List Byte) (s : State) : (queueLoaded b s).2.queued = s.queued := by
  simp only [queueLoaded, implies_true, queued_mk, queued_back, queued_foldl_snd, queued_queueRecord, queued_setFlue]

theorem queued_noteReserved (d : List Byte) (s : State) : (noteReserved d s).queued = s.queued := by
  simp only [noteReserved, implies_true, queued_foldl, queued_logPacked]

theorem answered_execKindlingSlotRead (answers : Bool) (sfdp : Sfdp) (d : List Byte) (s : State) : Answered s.queued (execKindlingSlotRead answers sfdp d s) := by
  simp only [execKindlingSlotRead, queued_mk, queued_back, apply_ite State.queued, ite_self, answered_onlyIf, queued_bootFail, queued_putFlag, queued_noteReserved]

theorem answered_execSelftestStage (fails : Option (Fin 5)) (rnd : BitVec 256) (s : State) : Answered s.queued (execSelftestStage fails rnd s) := by
  unfold execSelftestStage
  split <;> simp only [queued_mk, queued_back, apply_ite State.queued, ite_self, answered_onlyIf, queued_bootFail, queued_putFlag, queued_enterStage]

theorem queued_loadHid (s : State) : (loadHid s).queued = s.queued := by
  simp only [loadHid, queued_putFlag, queued_put]

theorem queued_loadSections (d : List Byte) (s : State) : (loadSections d s).queued = s.queued := by
  simp only [loadSections, queued_mk, queued_back]

theorem queued_loadChannel (s : State) (e : Nat × Topo) : (loadChannel s e).queued = s.queued := by
  simp only [loadChannel, implies_true, queued_foldl, queued_putFlag, queued_put]

theorem queued_loadTsets (b : List Byte) (s : State) : (loadTsets b s).queued = s.queued := by
  simp only [loadTsets, implies_true, queued_foldl, queued_plainWrite]

theorem queued_patchChannel (b : List Byte) (s : State) (c : Nat) : (patchChannel b s c).queued = s.queued := by
  simp only [patchChannel, implies_true, queued_foldl, queued_setReg, queued_setChan, queued_put]

theorem queued_loadPatch (d : List Byte) (s : State) : (loadPatch d s).queued = s.queued := by
  unfold loadPatch
  split <;> simp only [implies_true, apply_ite State.queued, ite_self, queued_foldl, queued_patchChannel, queued_put, queued_logPacked]

theorem queued_loadCal (s : State) : (loadCal s).queued = s.queued := by
  simp only [loadCal, implies_true, queued_foldl, queued_putFlag, queued_plainWrite, queued_put]

theorem queued_loadPair (s : State) : (loadPair s).queued = s.queued := by
  unfold loadPair
  split <;> simp only [queued_mk, queued_back, queued_put]

theorem queued_loadFirmware (d : List Byte) (s : State) : (loadFirmware d s).queued = s.queued := by
  simp only [loadFirmware, queued_mk, queued_back, queued_startWdogs, queued_dramWrite]

theorem queued_kindlingSummary (d : List Byte) (s : State) : (kindlingSummary d s).queued = s.queued := by
  simp only [kindlingSummary, queued_logEntry]

theorem answered_execKindlingEnd (key : BitVec 256) (s : State) : Answered s.queued (execKindlingEnd key s) := by
  unfold execKindlingEnd
  split <;> simp only [implies_true, queued_mk, queued_back, answered_next, answered_onlyIf, queued_foldl, queued_draughtLoaded, queued_loadHid, queued_loadPatch, queued_loadTsets, queued_loadSections, queued_loadChannel, queued_queueLoaded, queued_loadCal, queued_loadFirmware, queued_put, queued_loadPair, queued_kindlingSummary]

theorem queued_raiseStage (s : State) : (raiseStage s).queued = s.queued := by
  simp only [raiseStage, implies_true, queued_mk, queued_back, apply_ite State.queued, ite_self, queued_foldl, queued_putFlag, queued_enterStage]

theorem queued_bootOff (c t code : Nat) (s : State) : (bootOff c t code s).queued = s.queued := by
  simp only [bootOff, queued_setChan, queued_targetOff, queued_raiseStage]

theorem queued_resetTargets (c : Nat) (l : List Nat) (s : State) : (resetTargets c l s).queued = s.queued := by
  simp only [resetTargets, implies_true, apply_ite State.queued, ite_self, queued_foldl, queued_setChan, queued_raiseCe, queued_busPut, queued_setLun]

theorem queued_resetChannel (rb : List (Nat × BitVec 8)) (s : State) (e : Nat × Topo) : (resetChannel rb s e).queued = s.queued := by
  simp only [resetChannel, implies_true, queued_foldl, queued_resetTargets, queued_setChan, queued_putFlag, queued_put]

theorem answered_execTargetResetStage (rb : List (Nat × BitVec 8)) (s : State) : Answered s.queued (execTargetResetStage rb s) := by
  simp only [execTargetResetStage, implies_true, answered_onlyIf, queued_foldl, queued_resetChannel, queued_raiseStage]

theorem answered_execTargetReadyReset (c t : Nat) (s : State) : Answered s.queued (execTargetReadyReset c t s) := by
  simp only [execTargetReadyReset, answered_onlyIf, queued_resetTargets]

theorem answered_execTargetBusyTimeout (c t : Nat) (s : State) : Answered s.queued (execTargetBusyTimeout c t s) := by
  simp only [execTargetBusyTimeout, answered_onlyIf, queued_bootOff]

theorem answered_execTrstTimeout (c t : Nat) (s : State) : Answered s.queued (execTrstTimeout c t s) := by
  simp only [execTrstTimeout]
  repeat' split
  all_goals simp only [answered_next, answered_onlyIf, queued_bootOff]

theorem queued_identCycles (c : Nat) (x : Ident) (s : State) : (identCycles c x s).queued = s.queued := by
  simp only [identCycles, apply_ite State.queued, ite_self, queued_readCycles, queued_raiseCe]

theorem queued_identTarget (c : Nat) (ids : List Ident) (s : State) (t : Nat) : (identTarget c ids s t).queued = s.queued := by
  simp only [identTarget, apply_ite State.queued]
  repeat' split
  all_goals simp only [queued_identCycles, queued_setChan, queued_putFlag, queued_put, queued_bootOff]

theorem answered_execIdentifyStage (c : Nat) (ids : List Ident) (s : State) : Answered s.queued (execIdentifyStage c ids s) := by
  simp only [execIdentifyStage, implies_true, answered_onlyIf, queued_foldl, queued_setChan, queued_identTarget, queued_raiseStage]

theorem queued_trainTarget (c : Nat) (ms : List TrainSet) (s : State) (t : Nat) : (trainTarget c ms s t).queued = s.queued := by
  unfold trainTarget
  repeat' split
  all_goals simp only [apply_ite State.queued, ite_self, queued_setChan, queued_trainTwice, queued_logOnce, queued_putFlag, queued_targetOff, queued_raiseStage]

theorem answered_execTrainStage (c : Nat) (ms : List TrainSet) (s : State) : Answered s.queued (execTrainStage c ms s) := by
  simp only [execTrainStage, implies_true, answered_onlyIf, queued_foldl, queued_setChan, queued_trainTarget, queued_raiseStage]

theorem queued_ledgerLun (reads : List LedgerRead) (s : State) (k : Nat) : (ledgerLun reads s k).queued = s.queued := by
  unfold ledgerLun
  repeat' split
  all_goals simp only [queued_mk, queued_back, apply_ite State.queued, ite_self, queued_putFlag, queued_setLedger]

theorem answered_execLedgerStage (c : Nat) (reads : List LedgerRead) (s : State) : Answered s.queued (execLedgerStage c reads s) := by
  simp only [execLedgerStage, implies_true, answered_onlyIf, queued_foldl, queued_setChan, queued_ledgerLun, queued_raiseStage]

theorem queued_putSets (l : List (List Nat)) (s : State) : (putSets l s).queued = s.queued := by
  simp only [putSets, queued_mk, queued_back]

theorem queued_putGauge (k b : Nat) (off : List Int) (s : State) : (putGauge k b off s).queued = s.queued := by
  simp only [putGauge, queued_dramWrite]

theorem queued_loadGauges (s : State) : (loadGauges s).queued = s.queued := by
  simp only [loadGauges, implies_true, queued_foldl, queued_putGauge]

theorem queued_formatStream (s : State) (k : Nat) : (formatStream s k).queued = s.queued := by
  simp only [formatStream]
  repeat' split
  all_goals simp only [implies_true, queued_foldl, queued_putUnit, queued_setStream, queued_putGrp, queued_queueErase]

theorem queued_clearMap (s : State) : (clearMap s).queued = s.queued := by
  simp only [clearMap, implies_true, queued_mk, queued_back, apply_ite State.queued, ite_self, queued_foldl, queued_dramWrite]

theorem queued_format (s : State) : (format s).queued = s.queued := by
  simp only [format, implies_true, queued_mk, queued_back, queued_foldl, queued_putUnit, queued_formatStream, queued_putSets, queued_clearMap, queued_loadGauges]

theorem queued_loadLost (s : State) (n : Nat) : (loadLost s n).queued = s.queued := by
  simp only [loadLost, queued_mk, queued_back, queued_modSet]

theorem queued_loadCkpt (m : MapRead) (h : HeadCopy) (s : State) : (loadCkpt m h s).queued = s.queued := by
  simp only [loadCkpt, implies_true, queued_mk, queued_back, apply_ite State.queued, ite_self, queued_foldl, queued_modDir, queued_putUnit, queued_loadLost, queued_putSets, queued_putGrp, queued_put]

theorem queued_bumpValid (e : Nat) (f : Nat → Nat) (s : State) : (bumpValid e f s).queued = s.queued := by
  simp only [bumpValid, apply_ite State.queued, ite_self, queued_putUnit]

theorem queued_modUnits (set : Nat) (us : List Nat) (f : UnitE → UnitE) (s : State) : (modUnits set us f s).queued = s.queued := by
  simp only [modUnits, implies_true, queued_foldl, queued_putUnit]

theorem queued_repGroup (r : JRec) (s : State) : (repGroup r s).queued = s.queued := by
  simp only [repGroup, queued_mk, queued_back, apply_ite State.queued, ite_self, queued_putUnit, queued_putGrp, queued_markLost, queued_modSet, queued_logPacked, queued_releaseGroup]
  repeat' split
  all_goals simp only [queued_mk, queued_back, queued_putUnit, queued_putGrp, queued_modUnits]

theorem queued_oldJournals (s : State) : (oldJournals s).queued = s.queued := by
  simp only [oldJournals, queued_setStream]

theorem queued_loadMap {m : MapRead} {s : State} {y} (e : loadMap m s = some y) : y.queued = s.queued := by
  unfold loadMap at e
  split at e
  · cases e; rfl
  · refine List.foldlRecOn (motive := fun o : Option State => ∀ t, o = some t → t.queued = s.queued) _ _ (by rintro t ⟨⟩; rfl) (fun o ho mt _ t ht => ?_) y e
    split at ht
    · simp only [reduceCtorEq] at ht
    · next u =>
      dsimp only at ht
      split at ht
      · obtain ⟨z, -, rfl⟩ := Option.map_eq_some_iff.mp ht
        exact (queued_dramWrite ..).trans (ho u rfl)
      · obtain rfl := Option.some.inj ht
        exact (queued_dramWrite ..).trans (ho u rfl)

theorem queued_putEntries (cur : Tab Nat) (s : State) : (putEntries cur s).queued = s.queued := by
  simp only [putEntries, implies_true, queued_mk, queued_back, apply_ite State.queued, ite_self, queued_foldl, queued_modDir, queued_dramWrite]

theorem queued_repSet (lta new old : Nat) (r : Rep) : (repSet lta new old r).st.queued = r.st.queued := by
  simp only [repSet, queued_bumpValid]

theorem queued_repRec (ents : List (Nat × Nat)) (r : Rep) (x : JRec) : (repRec ents r x).st.queued = r.st.queued := by
  unfold repRec
  dsimp only
  repeat' split
  all_goals simp only [queued_mk, queued_back, queued_repSet, queued_logPacked, queued_repGroup]

theorem queued_repFold {α : Type} {l : List α} {f : Rep → α → Rep} {r : Rep} (hf : ∀ r x, (f r x).st.queued = r.st.queued) :
    (l.foldl f r).st.queued = r.st.queued :=
  List.foldlRecOn (motive := fun z : Rep => z.st.queued = r.st.queued) _ _ rfl fun z hz x _ => (hf z x).trans hz

theorem queued_repStream {m : MapRead} {h : HeadCopy} {r y : Rep} {k : Nat} (e : repStream m h (some r) k = some y) : y.st.queued = r.st.queued := by
  unfold repStream at e
  dsimp only at e
  split at e
  · simp only [reduceCtorEq] at e
  · split at e
    all_goals
      obtain rfl := Option.some.inj e
      exact (queued_setStream ..).trans (queued_repFold fun _ _ => queued_repFold fun _ _ => queued_repRec ..)

theorem queued_repStreams {m : MapRead} {h : HeadCopy} {l : List Nat} {r y : Rep} (e : l.foldl (repStream m h) (some r) = some y) :
    y.st.queued = r.st.queued := by
  induction l generalizing r with
  | nil => cases e; rfl
  | cons k l ih =>
    rw [List.foldl_cons] at e
    cases hz : repStream m h (some r) k with
    | none =>
      rw [hz] at e
      have hn : l.foldl (repStream m h) none = none := List.foldlRecOn (motive := fun o => o = none) _ _ rfl (by rintro o rfl k -; rfl)
      rw [hn] at e
      cases e
    | some z =>
      rw [hz] at e
      exact (ih e).trans (queued_repStream hz)

theorem answered_execMapStage (m : MapRead) (s : State) : Answered s.queued (execMapStage m s) := by
  unfold execMapStage
  refine answered_onlyIf ?_
  split
  · next h _ =>
    split
    · exact queued_bootFail ..
    · next u hu =>
      dsimp only
      have hl : u.queued = s.queued := (queued_loadMap hu).trans (queued_loadCkpt ..)
      split
      · simp only [queued_mk, queued_back, queued_bootFail, hl]
      · next r hr =>
        simp only [queued_mk, queued_back, queued_loadGauges, queued_oldJournals, queued_putEntries, queued_repStreams hr, hl]
  · split <;> simp only [queued_mk, queued_back, queued_format, queued_bootFail]

theorem answered_execDramNoAnswer (s : State) : Answered s.queued (execDramNoAnswer s) := by
  simp only [execDramNoAnswer, answered_onlyIf, queued_bootFail]

theorem queued_reloadCopy (s : State) (e : Meta × List Byte) : (reloadCopy s e).queued = s.queued := by
  simp only [reloadCopy, queued_mk, queued_back, apply_ite State.queued, ite_self, queued_handoffJob, queued_queueJob, queued_dramWrite, queued_putPan]

theorem answered_execPanReload (ms : List (Nat × Nat × List (List Byte))) (s : State) : Answered s.queued (execPanReload ms s) := by
  simp only [execPanReload, implies_true, queued_mk, queued_back, answered_onlyIf, queued_foldl, queued_reloadCopy, queued_putFlag, queued_put]

theorem queued_scanAll (s : State) : (scanAll s).queued = s.queued := by
  simp only [scanAll, implies_true, apply_ite State.queued, ite_self, queued_foldl, queued_slqDbWrite]

theorem queued_countOffline (s : State) : (countOffline s).queued = s.queued := by
  simp only [countOffline, queued_put]

theorem queued_startSeq (s : State) : (startSeq s).queued = s.queued := by
  simp only [startSeq, queued_mk, queued_back]

theorem queued_renewReserve (s : State) : (renewReserve s).queued = s.queued := by
  simp only [renewReserve, implies_true, queued_mk, queued_back, queued_foldl, queued_fillReserve, queued_jAppend]

theorem answered_execServeReadEntry (s : State) : Answered s.queued (execServeReadEntry s) := by
  simp only [execServeReadEntry, queued_mk, queued_back, answered_onlyIf, queued_scanAll, queued_countOffline, queued_startSeq, queued_renewReserve, queued_budget, queued_enterStage]

theorem answered_execFrontierSearch (set g : Nat) (front broken : List Nat) (seq : Nat) (s : State) : Answered s.queued (execFrontierSearch set g front broken seq s) := by
  simp only [execFrontierSearch]
  repeat' split
  all_goals simp only [implies_true, queued_mk, queued_back, answered_onlyIf, queued_foldl, queued_startSeq, queued_setGrp, queued_logPacked, queued_closeGroup]

theorem queued_advanceCounters (s : State) : (advanceCounters s).queued = s.queued := by
  simp only [advanceCounters, queued_mk, queued_back, apply_ite State.queued, ite_self, queued_put]

theorem queued_fillAround (s : State) : (fillAround s).queued = s.queued := by
  simp only [fillAround, queued_mk, queued_back, queued_put]

theorem queued_fillLost (s : State) : (fillLost s).queued = s.queued := by
  simp only [fillLost, implies_true, apply_ite State.queued, ite_self, queued_foldl, queued_replaceLun]

theorem queued_wakeRuns (s : State) : (wakeRuns s).queued = s.queued := by
  simp only [wakeRuns, queued_queueSweep]

theorem queued_startCounts (s : State) : (startCounts s).queued = s.queued := by
  simp only [startCounts, queued_mk, queued_back, queued_put]

theorem answered_execRunEntry (s : State) : Answered s.queued (execRunEntry s) := by
  simp only [execRunEntry, queued_mk, queued_back, apply_ite State.queued, ite_self, answered_ite, answered_onlyIf, queued_queueSweep, queued_scanAll, queued_advanceCounters, queued_startCounts, queued_fillAround, queued_wakeRuns, queued_fillLost, queued_nextRebuild, queued_enterStage]

theorem queued_sanWrite (w : Word) (s : State) : (sanWrite w s).queued = s.queued := by
  simp only [sanWrite, apply_ite State.queued, ite_self, queued_setHalt, queued_putFlag, queued_plainWrite, queued_put]

theorem answered_execSanitizeStart (r : Req) (w : Word) (s : State) : Answered s.queued (execSanitizeStart r w s) := by
  simp only [execSanitizeStart, implies_true, answered_next, queued_regWrite, queued_sanWrite]

theorem queued_sanDrain (s : State) : (sanDrain s).queued = s.queued := by
  simp only [sanDrain, implies_true, apply_ite State.queued, ite_self, queued_foldl, queued_freeSlot, queued_putFlag, queued_releaseMirror]

theorem queued_sanCrypto (burnt : Bool) (s : State) : (sanCrypto burnt s).queued = s.queued := by
  simp only [sanCrypto, queued_mk, queued_back, queued_put]

theorem queued_sanMap (s : State) : (sanMap s).queued = s.queued := by
  simp only [sanMap, implies_true, queued_mk, queued_back, apply_ite State.queued, ite_self, queued_foldl, queued_modDir, queued_putUnit, queued_clearMap, queued_beginCkpt]

theorem queued_sanDone (s : State) : (sanDone s).queued = s.queued := by
  simp only [sanDone, queued_putFlag]

theorem answered_execSanitizePhaseEnd (burnt : Bool) (s : State) : Answered s.queued (execSanitizePhaseEnd burnt s) := by
  simp only [execSanitizePhaseEnd]
  repeat' split
  all_goals simp only [implies_true, answered_onlyIf, queued_foldl, queued_sanDone, queued_sanMap, queued_sanCrypto, queued_put, queued_queueErase, queued_sanDrain, queued_beginCkpt]

theorem queued_readEffect (src : Nat) (k : RegKind) (i : Nat) (s : State) : (readEffect src k i s).2.queued = s.queued := by
  unfold readEffect
  repeat' split
  all_goals simp only [queued_mk, queued_back, queued_setReg, queued_claim, queued_rawLatch]

theorem queued_logViewRead (r : Req) (ofs beats : Nat) (s : State) : (logViewRead r ofs beats s).queued = s.queued := by
  simp only [logViewRead, apply_ite State.queued, ite_self, queued_respond]

theorem queued_windowRead (r : Req) (ofs beats : Nat) (s : State) : (windowRead r ofs beats s).queued = s.queued := by
  unfold windowRead
  repeat' split
  all_goals simp only [implies_true, queued_logViewRead, queued_respond, queued_regRead, queued_readEffect]

theorem queued_sameCycle (acc : Access) (k : RegKind) (i : Nat) (ev : Word) (s : State) : (sameCycle acc k i ev s).queued = s.queued := by
  simp only [sameCycle, queued_setReg]

theorem answered_execReadClearField (r : Req) (ofs beats : Nat) (ev : Word) (s : State) : Answered s.queued (execReadClearField r ofs beats ev s) := by
  unfold execReadClearField
  split <;> simp only [apply_ite State.queued, ite_self, answered_onlyIf, queued_windowRead, queued_sameCycle]

theorem answered_execLoHalfReadLatch (r : Req) (ofs : Nat) (s : State) : Answered s.queued (execLoHalfReadLatch r ofs s) := by
  unfold execLoHalfReadLatch
  split <;> simp only [implies_true, answered_next, answered_onlyIf, queued_regRead, queued_readEffect]

theorem answered_execWaHostRead (r : Req) (s : State) : Answered s.queued (execWaHostRead r s) := by
  simp only [execWaHostRead, implies_true, answered_next, queued_regRead, queued_readEffect]

theorem answered_execInboundReadRefused (r : Req) (ofs : Nat) (s : State) : Answered s.queued (execInboundReadRefused r ofs s) := by
  unfold execInboundReadRefused
  split <;> simp only [implies_true, answered_next, answered_onlyIf, queued_regRead, queued_readEffect]

theorem queued_fmwWrite (k : RegKind) (i : Nat) (w : Word) (s : State) : (fmwWrite k i w s).queued = s.queued := by
  simp only [fmwWrite, apply_ite State.queued, ite_self, queued_plainWrite]

theorem queued_logCtlWrite (w : Word) (s : State) : (logCtlWrite w s).queued = s.queued := by
  simp only [logCtlWrite, queued_mk, queued_back, apply_ite State.queued, ite_self, queued_plainWrite]

theorem queued_writeEffect (r : Req) (k : RegKind) (i : Nat) (w : Word) (s : State) : (writeEffect r k i w s).queued = s.queued := by
  unfold writeEffect
  split <;> simp only [apply_ite State.queued, ite_self, queued_maskWrite, queued_setReg, queued_swi, queued_logCtlWrite, queued_slqFdbWrite, queued_tgtcfgWrite, queued_fmtW0Write, queued_belRegWrite, queued_secStsWrite, queued_thrWrite, queued_pdataWrite, queued_keyCommand, queued_hrvCtlWrite, queued_zeroWrite, queued_ownerRst, queued_setHalt, queued_nsCtlWrite, queued_loopCtlWrite, queued_lockCtlWrite, queued_pwrCtlWrite, queued_plainWrite, queued_belCtlWrite, queued_bankReqWrite, queued_slqCtlWrite, queued_admCfgWrite, queued_calReqWrite, queued_pdescWrite, queued_slqDbWrite, queued_sanWrite, queued_lcWrite, queued_fmtWordWrite, queued_drgCtlWrite, queued_ccCtlWrite, queued_queueEmber, queued_rawCtlWrite, queued_nsFieldWrite, queued_eoi, queued_kickWrite, queued_lockStsWrite, queued_haltWrite, queued_slqHeadWrite, queued_fmwWrite]

theorem answered_execRegisterWrite (r : Req) (ofs : Nat) (w ev : Word) (s : State) : Answered s.queued (execRegisterWrite r ofs w ev s) := by
  unfold execRegisterWrite
  split <;> simp only [implies_true, answered_onlyIf, queued_regWrite, queued_writeEffect, queued_sameCycle, queued_respondWrite]

theorem queued_coreTick (s : State) : (coreTick s).queued = s.queued := by
  simp only [coreTick, queued_mk, queued_back, apply_ite State.queued, ite_self]

theorem queued_quietTick (s : State) : (quietTick s).queued = s.queued := by
  simp only [quietTick, queued_mk, queued_back]

theorem queued_idle (s : State) : (idle s).queued = s.queued := by
  simp only [idle, queued_mk, queued_back, apply_ite State.queued, ite_self, queued_coreTick, queued_ageTick, queued_quietTick]

end Sys2Proof.Machine
end


section
/-! PROOFS. Every command answers a next state and leaves the part and the queue's rest as they are (O59). -/

namespace Sys2Proof.Machine

/-- One line for each command: its rule answers a next state, and leaves the part and the queue. -/
theorem answered_exec (i : Instr) (s : State) : Answered s.queued (exec i s) :=
  match i with
  | .rstEmberAssert width => answered_execRstEmberAssert width s
  | .rstColdAssert width => answered_execRstColdAssert width s
  | .rstWarmAssert width => answered_execRstWarmAssert width s
  | .resetRelease rowOk => answered_execResetRelease rowOk s
  | .clockMonitorFault => answered_execClockMonitorFault s
  | .embClkLoss => answered_execEmbClkLoss s
  | .pwrGoodCoreLow => answered_execPwrGoodCoreLow s
  | .embClkLossClear again => answered_execEmbClkLossClear again s
  | .selftestStage fails rnd => answered_execSelftestStage fails rnd s
  | .kindlingSlotRead answers sfdp d => answered_execKindlingSlotRead answers sfdp d s
  | .kindlingEnd key => answered_execKindlingEnd key s
  | .targetResetStage rb => answered_execTargetResetStage rb s
  | .targetBusyTimeout c t => answered_execTargetBusyTimeout c t s
  | .targetReadyReset c t => answered_execTargetReadyReset c t s
  | .trstTimeout c t => answered_execTrstTimeout c t s
  | .identifyStage c ids => answered_execIdentifyStage c ids s
  | .trainStage c ms => answered_execTrainStage c ms s
  | .ledgerStage c reads => answered_execLedgerStage c reads s
  | .mapStage m => answered_execMapStage m s
  | .panReload ms => answered_execPanReload ms s
  | .dramNoAnswer => answered_execDramNoAnswer s
  | .serveReadEntry => answered_execServeReadEntry s
  | .frontierSearch set g front broken seq => answered_execFrontierSearch set g front broken seq s
  | .runEntry => answered_execRunEntry s
  | .pairingRecordSend => answered_execPairingRecordSend s
  | .pairingRecordReceived data => answered_execPairingRecordReceived data s
  | .pairingTimeout => answered_execPairingTimeout s
  | .pairingRetry => answered_execPairingRetry s
  | .heartbeatSend => answered_execHeartbeatSend s
  | .heartbeatReceived data => answered_execHeartbeatReceived data s
  | .heartbeatLoss => answered_execHeartbeatLoss s
  | .reconciliationStart => answered_execReconciliationStart s
  | .reconciliationEnd => answered_execReconciliationEnd s
  | .inboundAtomic r => answered_execInboundAtomic r s
  | .inboundReservedVc r => answered_execInboundReservedVc r s
  | .inboundBoundaryCross r write addr len => answered_execInboundBoundaryCross r write addr len s
  | .creditReturn port vc data => answered_execCreditReturn port vc data s
  | .outboundResponse port vc tag code data => answered_execOutboundResponse port vc tag code data s
  | .outboundTimeout port vc tag => answered_execOutboundTimeout port vc tag s
  | .lateResponse port vc tag => answered_execLateResponse port vc tag s
  | .registerWrite r ofs w ev => answered_execRegisterWrite r ofs w ev s
  | .readClearField r ofs beats ev => answered_execReadClearField r ofs beats ev s
  | .loHalfReadLatch r ofs => answered_execLoHalfReadLatch r ofs s
  | .waHostRead r => answered_execWaHostRead r s
  | .sluiceDoorbell r n w => answered_execSluiceDoorbell r n w s
  | .fetchGrant => answered_execFetchGrant s
  | .fetchReadDone n code data => answered_execFetchReadDone n code data s
  | .sluiceNop rtag => answered_execSluiceNop rtag s
  | .sluiceRead rtag => answered_execSluiceRead rtag s
  | .sluiceWrite rtag => answered_execSluiceWrite rtag s
  | .sluiceFlush rtag => answered_execSluiceFlush rtag s
  | .sluiceUnmap rtag => answered_execSluiceUnmap rtag s
  | .sluiceFilter rtag => answered_execSluiceFilter rtag s
  | .sluiceMargin rtag => answered_execSluiceMargin rtag s
  | .mapLookup rtag n => answered_execMapLookup rtag n s
  | .mapFillDone line code data => answered_execMapFillDone line code data s
  | .mapTileLoadDone mt code => answered_execMapTileLoadDone mt code s
  | .gaugeLineFetchDone key code data => answered_execGaugeLineFetchDone key code data s
  | .class3Aged k => answered_execClass3Aged k s
  | .class0BucketRefill => answered_execClass0BucketRefill s
  | .raBucketRefill => answered_execRaBucketRefill s
  | .class0Deadline rtag => answered_execClass0Deadline rtag s
  | .commitLate rtag => answered_execCommitLate rtag s
  | .draughtGrant g => answered_execDraughtGrant g s
  | .draughtEndReport => answered_execDraughtEndReport s
  | .stokerIssue k => answered_execStokerIssue k s
  | .slotSwitch c din => answered_execSlotSwitch c din s
  | .stkNop c w => answered_execStkNop c w s
  | .stkCyc c w => answered_execStkCyc c w s
  | .stkGo c w => answered_execStkGo c w s
  | .stkXfer c w din => answered_execStkXfer c w din s
  | .dataOutFrame c bs crc => answered_execDataOutFrame c bs crc s
  | .stkTdly c w => answered_execStkTdly c w s
  | .stkWait c w => answered_execStkWait c w s
  | .waitTimeout c k => answered_execWaitTimeout c k s
  | .slotRunnable c k => answered_execSlotRunnable c k s
  | .rbRise c t => answered_execRbRise c t s
  | .lunPoll c k b => answered_execLunPoll c k b s
  | .stkSafe c w => answered_execStkSafe c w s
  | .stkBr c w => answered_execStkBr c w s
  | .stkCall c w => answered_execStkCall c w s
  | .stkRet c w => answered_execStkRet c w s
  | .stkLdi c w => answered_execStkLdi c w s
  | .stkAddi c w => answered_execStkAddi c w s
  | .stkAndi c w => answered_execStkAndi c w s
  | .stkOri c w => answered_execStkOri c w s
  | .stkCmpi c w => answered_execStkCmpi c w s
  | .stkPinset c w => answered_execStkPinset c w s
  | .phyEngineZq c w m => answered_execPhyEngineZq c w m s
  | .phyDutyTrim c w m => answered_execPhyDutyTrim c w m s
  | .phyLoadReadDelays c w => answered_execPhyLoadReadDelays c w s
  | .phyLoadWriteDelays c w => answered_execPhyLoadWriteDelays c w s
  | .phyRateChange c w => answered_execPhyRateChange c w s
  | .stkReport c w => answered_execStkReport c w s
  | .stkEnd c w => answered_execStkEnd c w s
  | .stokerWatchdog c => answered_execStokerWatchdog c s
  | .operationEnd => answered_execOperationEnd s
  | .stallPoll k b => answered_execStallPoll k b s
  | .wprotReissue k => answered_execWprotReissue k s
  | .pageRead k => answered_execPageRead k s
  | .mpRead k => answered_execMpRead k s
  | .cacheRead k => answered_execCacheRead k s
  | .colRead k => answered_execColRead k s
  | .prog k => answered_execProg k s
  | .mpProg k => answered_execMpProg k s
  | .cacheProg k => answered_execCacheProg k s
  | .slcProg k => answered_execSlcProg k s
  | .sealProg k => answered_execSealProg k s
  | .erase k => answered_execErase k s
  | .mpErase k => answered_execMpErase k s
  | .eraseResume k => answered_execEraseResume k s
  | .otpRead k => answered_execOtpRead k s
  | .otpProg k => answered_execOtpProg k s
  | .getFeat k => answered_execGetFeat k s
  | .setFeat k => answered_execSetFeat k s
  | .eraseSuspendRequest k => answered_execEraseSuspendRequest k s
  | .suspendWindowExpiry k => answered_execSuspendWindowExpiry k s
  | .codewordReady c slot => answered_execCodewordReady c slot s
  | .hardDecodeDone c slot u dec => answered_execHardDecodeDone c slot u dec s
  | .softDecodeDone id u dec => answered_execSoftDecodeDone id u dec s
  | .crystallizerMemoryError soft u => answered_execCrystallizerMemoryError soft u s
  | .partnerReadDone pid => answered_execPartnerReadDone pid s
  | .harvestWrite ring => answered_execHarvestWrite ring s
  | .moderationTimer ring => answered_execModerationTimer ring s
  | .harvestLookahead ring => answered_execHarvestLookahead ring s
  | .hrvDoorbell r ring w => answered_execHrvDoorbell r ring w s
  | .hrvRetry r ring w => answered_execHrvRetry r ring w s
  | .hrvModWrite r ring w cmd => answered_execHrvModWrite r ring w cmd s
  | .sluiceEnable r n w => answered_execSluiceEnable r n w s
  | .sluiceDisable r n w => answered_execSluiceDisable r n w s
  | .slqHeadWrite r n w => answered_execSlqHeadWrite r n w s
  | .slqHaltWrite r w => answered_execSlqHaltWrite r w s
  | .flueDoorbell r f w => answered_execFlueDoorbell r f w s
  | .flueFetch f => answered_execFlueFetch f s
  | .slqCreate f => answered_execSlqCreate f s
  | .slqDestroy f => answered_execSlqDestroy f s
  | .hrvCreate f => answered_execHrvCreate f s
  | .hrvDestroy f => answered_execHrvDestroy f s
  | .slqModify f => answered_execSlqModify f s
  | .hrvModify f => answered_execHrvModify f s
  | .setHalt f => answered_execSetHalt f s
  | .mirrorDrop f => answered_execMirrorDrop f s
  | .flueCfg f => answered_execFlueCfg f s
  | .lunOpOtpRead f => answered_execLunOpOtpRead f s
  | .lunOpOtpProg f => answered_execLunOpOtpProg f s
  | .lunOpGetFeat f => answered_execLunOpGetFeat f s
  | .lunOpSetFeat f => answered_execLunOpSetFeat f s
  | .moverJobStart m c => answered_execMoverJobStart m c s
  | .moverRequestSlot port => answered_execMoverRequestSlot port s
  | .belMove m c => answered_execBelMove m c s
  | .belGather m c => answered_execBelGather m c s
  | .belLoop m c => answered_execBelLoop m c s
  | .belWaitResp m c => answered_execBelWaitResp m c s
  | .belWaitFlag m c => answered_execBelWaitFlag m c s
  | .belWaitTime m c => answered_execBelWaitTime m c s
  | .belWaitTimeout m c => answered_execBelWaitTimeout m c s
  | .belSignalPosted m c => answered_execBelSignalPosted m c s
  | .belSignalSealed m c => answered_execBelSignalSealed m c s
  | .belSignalAtomic m c => answered_execBelSignalAtomic m c s
  | .belSignalSrc m c => answered_execBelSignalSrc m c s
  | .belSignalFlag m c => answered_execBelSignalFlag m c s
  | .belPauseWrite r m w => answered_execBelPauseWrite r m w s
  | .belDisable r m w => answered_execBelDisable r m w s
  | .belGo r m w => answered_execBelGo r m w s
  | .destageStart slot => answered_execDestageStart slot s
  | .programTokenGrant set => answered_execProgramTokenGrant set s
  | .padRow set => answered_execPadRow set s
  | .journalPageProgram k => answered_execJournalPageProgram k s
  | .checkpointStart => answered_execCheckpointStart s
  | .checkpointCommit => answered_execCheckpointCommit s
  | .overlayMerge mt => answered_execOverlayMerge mt s
  | .mapCcDisable r w => answered_execMapCcDisable r w s
  | .mapCcEnable r w => answered_execMapCcEnable r w s
  | .writebackRetry line => answered_execWritebackRetry line s
  | .mapRepair line ok => answered_execMapRepair line ok s
  | .relocation lta e => answered_execRelocation lta e s
  | .reclaim set => answered_execReclaim set s
  | .rakePatrol => answered_execRakePatrol s
  | .rakeRefresh => answered_execRakeRefresh s
  | .hotWindow => answered_execHotWindow s
  | .lunOffline => answered_execLunOffline s
  | .rebuildGroupDone => answered_execRebuildGroupDone s
  | .rawCtlEnable r c w => answered_execRawCtlEnable r c w s
  | .rawCtlDisable r c w => answered_execRawCtlDisable r c w s
  | .rawCommandWrite r c ofs en => answered_execRawCommandWrite r c ofs en s
  | .rawAddressWrite r c ofs en => answered_execRawAddressWrite r c ofs en s
  | .rawDataWrite r c ofs en => answered_execRawDataWrite r c ofs en s
  | .rawDataRead r c ofs len => answered_execRawDataRead r c ofs len s
  | .rawStatusRead r c ofs len => answered_execRawStatusRead r c ofs len s
  | .rawReadTimeout c => answered_execRawReadTimeout c s
  | .patchRamRead r c ofs beats => answered_execPatchRamRead r c ofs beats s
  | .patchRamWrite r c => answered_execPatchRamWrite r c s
  | .stkDbgHalt r c w => answered_execStkDbgHalt r c w s
  | .stkDbgStep r c w u din m => answered_execStkDbgStep r c w u din m s
  | .kxReqWrite r c t w => answered_execKxReqWrite r c t w s
  | .kxEntry c t x => answered_execKxEntry c t x s
  | .kxExit c t => answered_execKxExit c t s
  | .tsetWrite r c t w => answered_execTsetWrite r c t w s
  | .trackingEval c edges => answered_execTrackingEval c edges s
  | .calTempSample => answered_execCalTempSample s
  | .calReqGo r w => answered_execCalReqGo r w s
  | .calRunStart c => answered_execCalRunStart c s
  | .calRunEnd c m => answered_execCalRunEnd c m s
  | .mediaStep k => answered_execMediaStep k s
  | .ledgerWrite k => answered_execLedgerWrite k s
  | .calWalkStep c => answered_execCalWalkStep c s
  | .calSweepDeadline n => answered_execCalSweepDeadline n s
  | .senseFrame src v par => answered_execSenseFrame src v par s
  | .sourceStale n => answered_execSourceStale n s
  | .staleReport n => answered_execStaleReport n s
  | .sampleTick => answered_execSampleTick s
  | .admissionTakeEffect => answered_execAdmissionTakeEffect s
  | .ceilingEvaluation => answered_execCeilingEvaluation s
  | .loopEnable r n w => answered_execLoopEnable r n w s
  | .loopDisable r n w => answered_execLoopDisable r n w s
  | .loopFreezeWrite r n w => answered_execLoopFreezeWrite r n w s
  | .ceilEnWrite r w => answered_execCeilEnWrite r w s
  | .bwMaxWrite r w => answered_execBwMaxWrite r w s
  | .gradeTile g => answered_execGradeTile g s
  | .graderMemoryError g => answered_execGraderMemoryError g s
  | .grdLdu g k => answered_execGrdLdu g k s
  | .grdLds g k => answered_execGrdLds g k s
  | .grdLdi g k => answered_execGrdLdi g k s
  | .grdAdd g k => answered_execGrdAdd g k s
  | .grdSub g k => answered_execGrdSub g k s
  | .grdMul g k => answered_execGrdMul g k s
  | .grdDiv g k => answered_execGrdDiv g k s
  | .grdRem g k => answered_execGrdRem g k s
  | .grdDivu g k => answered_execGrdDivu g k s
  | .grdRemu g k => answered_execGrdRemu g k s
  | .grdNeg g k => answered_execGrdNeg g k s
  | .grdAbs g k => answered_execGrdAbs g k s
  | .grdAnd g k => answered_execGrdAnd g k s
  | .grdOr g k => answered_execGrdOr g k s
  | .grdXor g k => answered_execGrdXor g k s
  | .grdShl g k => answered_execGrdShl g k s
  | .grdShr g k => answered_execGrdShr g k s
  | .grdSar g k => answered_execGrdSar g k s
  | .grdMin g k => answered_execGrdMin g k s
  | .grdMax g k => answered_execGrdMax g k s
  | .grdAdds g k => answered_execGrdAdds g k s
  | .grdSubs g k => answered_execGrdSubs g k s
  | .grdMuls g k => answered_execGrdMuls g k s
  | .grdMulq g k => answered_execGrdMulq g k s
  | .grdSeq g k => answered_execGrdSeq g k s
  | .grdSne g k => answered_execGrdSne g k s
  | .grdSlt g k => answered_execGrdSlt g k s
  | .grdSle g k => answered_execGrdSle g k s
  | .grdSltu g k => answered_execGrdSltu g k s
  | .grdSleu g k => answered_execGrdSleu g k s
  | .grdBz g k => answered_execGrdBz g k s
  | .grdBnz g k => answered_execGrdBnz g k s
  | .grdAccept g k => answered_execGrdAccept g k s
  | .grdReject g k => answered_execGrdReject g k s
  | .grdAcceptf g k => answered_execGrdAcceptf g k s
  | .grdPdataHiWrite r w => answered_execGrdPdataHiWrite r w s
  | .grdPdescValidWrite r p w => answered_execGrdPdescValidWrite r p w s
  | .grdFmtValidWrite r n w => answered_execGrdFmtValidWrite r n w s
  | .sourceEdge src => answered_execSourceEdge src s
  | .sicClaim r t => answered_execSicClaim r t s
  | .sicEoi r t w => answered_execSicEoi r t w s
  | .sicSwi r w => answered_execSicSwi r w s
  | .sicBaseWrite r t w => answered_execSicBaseWrite r t w s
  | .sicRouteWrite r n w => answered_execSicRouteWrite r n w s
  | .sicPendingWrite r ofs w hw => answered_execSicPendingWrite r ofs w hw s
  | .lockAcquire r n w => answered_execLockAcquire r n w s
  | .lockRelease r n w => answered_execLockRelease r n w s
  | .leaseExpiry n => answered_execLeaseExpiry n s
  | .lckOwnerRst r w => answered_execLckOwnerRst r w s
  | .brokenClear r n w again => answered_execBrokenClear r n w again s
  | .unwrapNs r w => answered_execUnwrapNs r w s
  | .genNs r w rnd => answered_execGenNs r w rnd s
  | .kzero r w => answered_execKzero r w s
  | .wrapNs r w => answered_execWrapNs r w s
  | .wrapPair r w => answered_execWrapPair r w s
  | .progRoot r w stuck => answered_execProgRoot r w stuck s
  | .progDbg r w stuck => answered_execProgDbg r w stuck s
  | .nsCtlWrite r n w => answered_execNsCtlWrite r n w s
  | .selftestRunWrite r w ok => answered_execSelftestRunWrite r w ok s
  | .periodicSelftest ok => answered_execPeriodicSelftest ok s
  | .rbgHealthFail samples => answered_execRbgHealthFail samples s
  | .lockstepMismatch => answered_execLockstepMismatch s
  | .zeroize r w => answered_execZeroize r w s
  | .sanitizeStart r w => answered_execSanitizeStart r w s
  | .sanitizePhaseEnd burnt => answered_execSanitizePhaseEnd burnt s
  | .lifecycleTransition r w => answered_execLifecycleTransition r w s
  | .tamperSet r w => answered_execTamperSet r w s
  | .dbgNewchal r w rnd => answered_execDbgNewchal r w rnd s
  | .challengeExpiry => answered_execChallengeExpiry s
  | .dbgVerify r w rnd => answered_execDbgVerify r w rnd s
  | .dbgClose r w rnd => answered_execDbgClose r w rnd s
  | .dbgOpen r w rnd => answered_execDbgOpen r w rnd s
  | .dbgFbxHalt r w pc => answered_execDbgFbxHalt r w pc s
  | .dbgFbxStep r w pc => answered_execDbgFbxStep r w pc s
  | .tripLatch trip width held => answered_execTripLatch trip width held s
  | .tripAct => answered_execTripAct s
  | .flushStart mirs => answered_execFlushStart mirs s
  | .flushComplete => answered_execFlushComplete s
  | .tripClear low fall => answered_execTripClear low fall s
  | .emberWriteEffect => answered_execEmberWriteEffect s
  | .p1Entry => answered_execP1Entry s
  | .p2Request r w mirs => answered_execP2Request r w mirs s
  | .p3Request r w mirs => answered_execP3Request r w mirs s
  | .entryMessage => answered_execEntryMessage s
  | .wakeAlarm => answered_execWakeAlarm s
  | .wakePlatform => answered_execWakePlatform s
  | .powerGoodTimeout => answered_execPowerGoodTimeout s
  | .wakeFromP2 pass => answered_execWakeFromP2 pass s
  | .wakeFromP3 rowOk => answered_execWakeFromP3 rowOk s
  | .dramIdleOkRise => answered_execDramIdleOkRise s
  | .watchdogKick r w => answered_execWatchdogKick r w s
  | .watchdogExpiry n => answered_execWatchdogExpiry n s
  | .memoryError e => answered_execMemoryError e s
  | .deadlockBreak waits holds => answered_execDeadlockBreak waits holds s
  | .bankRequest r w => answered_execBankRequest r w s
  | .bankedEntry => answered_execBankedEntry s
  | .bankedPins c => answered_execBankedPins c s
  | .logMirrorCopy => answered_execLogMirrorCopy s
  | .fireboxCodeViewRead r ofs beats => answered_execFireboxCodeViewRead r ofs beats s
  | .fireboxCodeViewWrite r => answered_execFireboxCodeViewWrite r s
  | .inboundReadRefused r ofs => answered_execInboundReadRefused r ofs s

/-- Settles O59: no arm refuses or faults, and none writes the part or the queue. -/
theorem everyCommandAnswers : Obligations.EveryCommandAnswers := by
  intro c s
  obtain ⟨t, ht, h⟩ := answered_exec c s
  obtain ⟨hpart, hpending⟩ := Prod.ext_iff.mp h
  exact ⟨t, ht, hpending, hpart⟩

end Sys2Proof.Machine
end
